-- ==== Sys2Proof/Word.lean ====
section
/-! DEFINITION. The word types of the device (R11, R12): a byte, a 32-bit and a 64-bit register word. -/
namespace Sys2Proof

/-- One byte of memory. -/
abbrev Byte := BitVec 8

/-- The contents of a 32-bit register. -/
abbrev Word := BitVec 32

/-- The contents of a 64-bit register. A 32-bit register is held in its low half. -/
abbrev DWord := BitVec 64

end Sys2Proof
end

