-- ==== Sys2Proof/Syntax.lean ====
section
/-! DEFINITION. The commands the block takes, one constructor per row of spec/opcode_table.json, in the table's order. A
command is an access that an initiator makes, or an event (a pin, a clock, a packet, the end of an operation under way);
an event carries what only the outside world knows: a level, a measured value, received data. -/
namespace Sys2Proof

/-- Who makes an access: the NI its requests leave by, and whether they carry machine privilege (R48). -/
structure Req where
  /-- NI number of the initiator (Table Loom-3) -/
  ni : Fin 16
  /-- the request carries machine privilege -/
  priv : Bool
deriving DecidableEq, Repr

/-- Access sizes (R12, R49): 1, 2, 4 or 8 bytes. -/
inductive Size where
  | b | h | w | d
deriving DecidableEq, Repr

/-- What the boot flash answers to discovery (R137, R148): nothing, or its protocol, address form, read command and size. -/
structure FlashId where
  /-- OSPI_CFG.PROTO of the widest protocol its tables report -/
  proto : Fin 4
  /-- opcode followed by its inverse (CMD16) -/
  cmd16 : Bool
  /-- read data are captured on DQS -/
  dqs : Bool
  /-- OSPI_CFG.DIV for the clock found -/
  div : Fin 256
  /-- four-byte addresses -/
  addr4 : Bool
  /-- read opcode -/
  readOp : Byte
  /-- dummy cycles of the read -/
  dummy : Fin 32
  /-- log2 of the size in bytes -/
  log2 : Fin 32
deriving DecidableEq, Repr

/-- What one USB transaction brings from the other side of the bus: a handshake, a data packet with its toggle, an ERR
handshake of a TT, a PING, or an error (CRC, bit stuffing, timeout, PID check) or babble. -/
inductive UsbReply where
  | ack | nak | nyet | stall | ttErr | error | babble | ping
  | data (toggle : Bool) (bytes : List Byte)
deriving DecidableEq, Repr

/-- What a hub port's line shows (R471): low speed, full speed, or full speed with a device chirp K. -/
inductive UsbLine where
  | low | full | high
deriving DecidableEq, Repr

/-- An endpoint clear (R479): of a service-port endpoint by the host, or of a host pipe by USBH_PIPE_CTRL_n.CLEAR. -/
inductive UsbClear where
  | endpoint (dirIn : Bool) (k : Fin 6)
  | pipe (q : Req) (n : Fin 48)
deriving DecidableEq, Repr

/-- RESUME: host resume K, or a write of USBD_CTRL with RESUME = 1 and these ATTACH, HS_EN, RWAKE_EN and TEST. -/
inductive UsbResume where
  | hostK
  | write (q : Req) (attach hsEn rwakeEn : Bool) (test : BitVec 3)
deriving DecidableEq, Repr

/-- A UART character: the next one of the TX FIFO is sent, or one is received, with its errors and the gap, in sixteenths of
a bit, between the stop bit before it and its start edge. -/
inductive UartChar where
  | tx
  | rx (b : Byte) (framing parity : Bool) (gap : Nat)
deriving DecidableEq, Repr

/-- How an I²C transfer goes: complete, with the data received; an address NACK; a data NACK or lost arbitration after so
many bytes; SCL held low for 25 ms after so many bytes; or the bus found low for 25 ms before START. -/
inductive I2cResult where
  | done (data : List Byte)
  | addrNack
  | dataNack (bytes : Nat)
  | lost (bytes : Nat)
  | stretched (bytes : Nat)
  | stuck
deriving DecidableEq, Repr

/-- What triggers an ADC sequence (R509). -/
inductive AdcSource where
  | reed | shuttle | sw
deriving DecidableEq, Repr

/-- How a transaction of the mover goes: it completes, its data fail the move check, or it ends in a bus error or under
R317. -/
inductive MoveEnd where
  | ok | corrupt | busError | timeout
deriving DecidableEq, Repr


/-- What the block behind an NI waits for in a transaction, and so what an error answers: nothing, an access of a hart with its virtual
address, the item that a Heddle channel moves, or a system bus access of the debug module (R291, R317). -/
inductive LoomUse where
  | nothing
  | fetch (va : DWord)
  | load (va : DWord)
  | store (va : DWord)
  | move (ch : BitVec 12)
  | systemBus
deriving DecidableEq, Repr

/-- A request handed to an NI (Table Loom-2). -/
structure LoomPacket where
  /-- initiator NI -/
  ini : Fin 16
  /-- target NI -/
  target : Fin 16
  /-- OP: 0 READ, 1 READ_SHARED, 2 READ_UNIQUE, 3 WRITE, 4 WRITEBACK, 5 INVALIDATE -/
  op : Fin 6
  /-- physical address -/
  addr : BitVec 40
  /-- LEN: bytes − 1 -/
  len : Fin 64
  /-- PRIO of a home's own write-backs, which no rule of R298 fixes -/
  prio : Fin 4
  /-- PRIV: machine privilege -/
  priv : Bool
  /-- PREF: a prefetch read -/
  pref : Bool
  /-- an access of a hart or NI_15 to a page with PBMT = NC or IO (R307) -/
  io : Bool
  /-- the NI takes the token of a hart's prefetch read, which is not injected yet (R296) -/
  ahead : Bool
  /-- a home forwards the miss of this transaction of this initiator (R298) -/
  cause : Option (Fin 16 × Fin 64)
  /-- what the block waits for -/
  use : LoomUse
  /-- bytes written -/
  data : List Byte
deriving DecidableEq, Repr

/-- A step of the encoder's A and B (R168): A leads B, B leads A, or both change together. -/
inductive EncStep where
  | aLeads | bLeads | illegal
deriving DecidableEq, Repr

/-- Bits of a stored codeword that an upset has changed, beside those that Scree flipped (R563). -/
inductive EccUpset where
  | none
  | one (a : Fin 72)
  | two (a b : Fin 72)
  | three (a b c : Fin 72)
deriving DecidableEq, Repr

/-- An array that the hardware scrubs at a fixed rate (R279). -/
inductive SramArray where
  | l1i (hart : Fin 4)
  | l1d (hart : Fin 4)
  | l2 (hart : Fin 4)
  | l2tag (hart : Fin 4)
  | baseCamp
deriving DecidableEq, Repr

/-- What a DMC channel does (R268): it takes a request of at most 64 bytes (a write with its data or a read with its length, in a
pick or at a priority), serves the next one, looks at the `k`-th normal request, which has waited `ns`, or finds the open row of a bank
left idle for `ns`. -/
inductive DramStep where
  | accept (addr : BitVec 40) (write : Option (List Byte)) (len : Fin 65) (guar : Bool) (prio : Fin 4)
  | serve (channel : Fin 2)
  | age (channel : Fin 2) (k : Fin 128) (ns : Nat)
  | idle (channel : Fin 2) (bank : Fin 8) (ns : Nat)
deriving DecidableEq, Repr

/-- What a monitor pair says of its rail or clock (R568): it left its window for both copies, only one copy says so, or it is back. -/
inductive MonitorEvent where
  | left | oneCopy | back
deriving DecidableEq, Repr

/-- Why a trap is due (R245): an interrupt, a system call, or an exception of the instruction at the pc with its code, xtval,
guest-physical address and xtinst. -/
inductive TrapEvent where
  | interrupt
  | ecall
  | exception (cause : Fin 24) (tval gpa tinst : DWord)
deriving DecidableEq, Repr

/-- The xRET instructions. -/
inductive XretKind where
  | mret | sret
deriving DecidableEq, Repr

/-- The vendor CSRs (Table Harts-5). -/
inductive VendorCsr where
  | mscout | mloucfg | mloufsr | mloufpc | mprefetch | mguardst | sloufsr | sloufpc
deriving DecidableEq, Repr

/-- What a Zicsr instruction does with its source. -/
inductive CsrOp where
  | write | set | clear
deriving DecidableEq, Repr

/-- The source of a Zicsr instruction: a register or a 5-bit immediate. -/
inductive CsrSrc where
  | reg (r : Fin 32)
  | imm (v : Fin 32)
deriving DecidableEq, Repr

/-- The translation fences (R206). -/
inductive VmaFence where
  | sfenceVma | hfenceVvma | hfenceGvma
deriving DecidableEq, Repr

/-- What ends a Scout run (R234). -/
inductive ScoutEnd where
  | data | interrupt | halt
deriving DecidableEq, Repr

/-- The AMO operations of the A extension. -/
inductive AmoOp where
  | swap | add | xor | and | or | min | max | minu | maxu
deriving DecidableEq, Repr

/-- An access of a hart: the fetch at its pc, with the instruction found there; a load or store of the integer or floating-point
registers; LR, SC and AMO, `aqrl` being their aq and rl bits; the loads
and stores of the hypervisor extension, `x` for HLVX; and the hints of Zicbop, 0 prefetch.i, 1 prefetch.r, 3 prefetch.w. -/
inductive HartAccess where
  | fetch
  | load (rd : Fin 32) (fp signed : Bool) (size : Size) (rs1 : Fin 32) (imm : BitVec 12)
  | store (rs2 : Fin 32) (fp : Bool) (size : Size) (rs1 : Fin 32) (imm : BitVec 12)
  | lr (rd : Fin 32) (wide : Bool) (rs1 : Fin 32) (aqrl : Fin 4)
  | sc (rd rs2 : Fin 32) (wide : Bool) (rs1 : Fin 32) (aqrl : Fin 4)
  | amo (op : AmoOp) (rd rs2 : Fin 32) (wide : Bool) (rs1 : Fin 32) (aqrl : Fin 4)
  | hlv (rd : Fin 32) (x signed : Bool) (size : Size) (rs1 : Fin 32)
  | hsv (rs2 : Fin 32) (size : Size) (rs1 : Fin 32)
  | hint (kind : Fin 4) (rs1 : Fin 32) (imm : BitVec 12)
deriving DecidableEq, Repr

/-- What a debugger asks of a hart (R217): halt, resume, acknowledge or ask for a halt at its reset; or a step under way ends behind an
instruction that leaves the pc given; an instruction that is no command of this model is about to run, at the pc; it is ebreak; or the
debugger reads or writes a register of the debug module, reads one of the TAP's that an IR code selects, or writes dtmcs.dmireset. -/
inductive DebugRequest where
  | halt | resume | ackHaveReset
  | setResetHalt (on : Bool)
  | stepped (pc : DWord)
  | execute
  | ebreak (compressed : Bool)
  | readDmi (addr : BitVec 7)
  | readTap (ir : BitVec 5)
  | writeDmi (addr : BitVec 7) (v : Word)
  | dmiReset
deriving DecidableEq, Repr

/-- A system bus access of the debug module: a write of data, or a read. -/
inductive SbOp where
  | write (data : DWord)
  | read
deriving DecidableEq, Repr
/-- The commands. -/
inductive Instr where
  /-- REGISTER_WRITE (R42) -/
  | registerWrite (q : Req) (addr : BitVec 40) (size : Size) (v : DWord)
  /-- REGISTER_BUS_ERROR (R48) -/
  | registerBusError (q : Req) (addr : BitVec 40)
  /-- READ_CLEAR (R21) -/
  | readClear (q : Req) (addr : BitVec 40) (size : Size)
  /-- EVT_SET (R41) -/
  | evtSet (q : Req) (page : Fin 70) (v : Word)
  /-- EVT_RAW_CLEAR (R45) -/
  | evtRawClear (q : Req) (page : Fin 70) (v : Word)
  /-- PAGE_ENABLE (R50) -/
  | pageEnable (q : Req) (page : Fin 70) (on : Bool)
  /-- BLOCK_ENABLED (R50) -/
  | blockEnabled (page : Fin 70)
  /-- SOFT_RESET (R51) -/
  | softReset (q : Req) (page : Fin 70)
  /-- SOFT_RESET_COMPLETE (R51) -/
  | softResetComplete (page : Fin 70)
  /-- PAGE_LOCK (R52) -/
  | pageLock (q : Req) (page : Fin 70) (piton : Bool)
  /-- PORST_N_RELEASE (R76) -/
  | porstNRelease (guard : Bool) (bootsel : Fin 4)
  /-- STRAP_LATCH (R78) -/
  | strapLatch (guard2 : Bool) (bootsel2 : Fin 4) (guard3 : Bool) (bootsel3 : Fin 4)
  /-- PORST_N_PULSE (R87) -/
  | porstNPulse (ns : BitVec 32)
  /-- RSTOUT_N_RELEASE (R77) -/
  | rstoutNRelease
  /-- BANK_WINDOW_EXIT (R71) -/
  | bankWindowExit (bank : Fin 4)
  /-- BANK_WINDOW_RETURN (R92) -/
  | bankWindowReturn (bank : Fin 4) (v33 : Bool)
  /-- UVLO_RISE (R97) -/
  | uvloRise
  /-- UVLO_FALL (R97) -/
  | uvloFall (vbat : Bool)
  /-- AON_LOSS (R122) -/
  | aonLoss
  /-- PFAIL_ASSERT (R98) -/
  | pfailAssert
  /-- PFAIL_CLEAR (R98) -/
  | pfailClear
  /-- GRACE_END (R100) -/
  | graceEnd
  /-- HALTED_ENTRY (R100) -/
  | haltedEntry
  /-- HALTED_RESTART (R103) -/
  | haltedRestart
  /-- PFAIL_ARMED (R119) -/
  | pfailArmed
  /-- RUN_POINT_CHANGE (R105) -/
  | runPointChange (q : Req) (run : Fin 2)
  /-- OPPOINT_DONE (R105) -/
  | oppointDone
  /-- IDLE_REQUEST (R103) -/
  | idleRequest (q : Req) (idle : Fin 8)
  /-- DOZE_ENTRY (R103) -/
  | dozeEntry
  /-- DOZE_WAKE (R360) -/
  | dozeWake
  /-- STOP_ENTRY (R104) -/
  | stopEntry
  /-- STOP_WAKE (R104) -/
  | stopWake (cs : Bool)
  /-- BIVOUAC_ENTRY (R107) -/
  | bivouacEntry
  /-- BIVOUAC_WAKE (R111) -/
  | bivouacWake
  /-- WAKE_PIN (R106) -/
  | wakePin (n : Fin 4) (level : Bool)
  /-- THERM_HOT (R113) -/
  | thermHot (tj : BitVec 9)
  /-- THERM_TRIP (R114) -/
  | thermTrip (tj : BitVec 9)
  /-- OUTPUT_LIMIT (R96) -/
  | outputLimit (v18 : Bool) (on : Bool)
  /-- SNAP_COMMIT (R108) -/
  | snapCommit (q : Req) (pages : BitVec 8)
  /-- SNAP_DONE (R108) -/
  | snapDone
  /-- SNAP_INVALIDATE (R108) -/
  | snapInvalidate (q : Req)
  /-- LSE_LOSS (R115) -/
  | lseLoss (back : Bool)
  /-- RTC_ALARM (R116) -/
  | rtcAlarm
  /-- RTC_PERIOD_EVENT (R116) -/
  | rtcPeriodEvent
  /-- CLK_MEAS_START (R115) -/
  | clkMeasStart (q : Req) (sel : Fin 8)
  /-- MEAS_DONE (R115) -/
  | measDone (count : BitVec 28)
  /-- SYSTEM_RESET (R130) -/
  | systemReset
  /-- RESET_REQ (R220) -/
  | resetReq (q : Req)
  /-- FIRST_STAGE_FLASH (R135) -/
  | firstStageFlash (id : Option FlashId) (err : Option (Fin 11)) (us : BitVec 24)
  /-- HAND_OVER (R137) -/
  | handOver
  /-- BOOT_FAIL (R140) -/
  | bootFail
  /-- RETRY_WAIT_END (R140) -/
  | retryWaitEnd
  /-- LOADER_FLOW (R138) -/
  | loaderFlow (answers : Bool) (err : Option (Fin 11)) (us : BitVec 24)
  /-- HART_PARK (R131) -/
  | hartPark (h : Fin 4)
  /-- HART_RELEASE (R131) -/
  | hartRelease (h : Fin 4)
  /-- SNAPSHOT_RESUME (R143) -/
  | snapshotResume
  /-- RECOVERY_IMAGE (R144) -/
  | recoveryImage (chunk : List Byte) (finish : Bool) (flash : Option FlashId) (err : Option (Fin 11)) (us : BitVec 24)
  /-- GET_STATE (R145) -/
  | getState
  /-- ABORT (R145) -/
  | abort
  /-- RECOVERY_DETACH (R145) -/
  | recoveryDetach
  /-- BOOT_GO (R146) -/
  | bootGo
  /-- OSPI_CMD_GO (R149) -/
  | ospiCmdGo (q : Req) (op : Byte) (addrEn : Bool) (addr4 : Bool) (write : Bool) (poll : Bool) (dummy : BitVec 5)
  /-- OSPI_CMD_DONE (R149) -/
  | ospiCmdDone (answer : List Byte) (status : Byte) (erased : Option (Fin 29))
  /-- OSPI_POLL_TIMEOUT (R149) -/
  | ospiPollTimeout (answer : List Byte) (status : Byte) (erased : Option (Fin 29))
  /-- XIP_LOAD (R148) -/
  | xipLoad (q : Req) (off : BitVec 28) (size : Size) (late : Bool)
  /-- OSPI_RESET_PULSE (R152) -/
  | ospiResetPulse (q : Req)
  /-- OSPI_ITEM (R151) -/
  | ospiItem (program : Bool) (polled : Option Byte)
  /-- SECURE (R161) -/
  | secure (q : Req)
  /-- RMA (R161) -/
  | rma (q : Req)
  /-- CHALLENGE (R155) -/
  | challenge (q : Req) (scope : Fin 8)
  /-- CHALLENGE_READY (R155) -/
  | challengeReady
  /-- SUBMIT (R155) -/
  | submit (q : Req) (scope : Fin 8)
  /-- REFERENCE_EVENT (R166) -/
  | referenceEvent (dt : BitVec 32) (level : Bool) (hold : BitVec 20)
  /-- REED_HOLDOVER (R181) -/
  | reedHoldover (dt : BitVec 32)
  /-- HOLD_LEFT_TICK (R172) -/
  | holdLeftTick (dt : BitVec 32)
  /-- ENC_COUNT (R168) -/
  | encCount (dt : BitVec 32) (step : EncStep) (hold : BitVec 8)
  /-- ENC_INDEX (R168) -/
  | encIndex (dt : BitVec 32) (hold : BitVec 8)
  /-- REED_SRC_CHANGE (R171) -/
  | reedSrcChange (q : Req) (src : BitVec 2)
  /-- REED_ENABLE (R189) -/
  | reedEnable
  /-- ANGLE_ZERO_CROSSING (R175) -/
  | angleZeroCrossing (dt : BitVec 32)
  /-- SLOT_FIRE (R176) -/
  | slotFire (dt : BitVec 32) (n : Fin 128)
  /-- COMB_TRIGGER (R178) -/
  | combTrigger (dt : BitVec 32)
  /-- LDIVU (R236) -/
  | ldivu (h : Fin 4) (rd : Fin 32) (rs1 : Fin 32) (rs2 : Fin 32)
  /-- ISQRT (R236) -/
  | isqrt (h : Fin 4) (rd : Fin 32) (rs1 : Fin 32) (rs2 : Fin 32)
  /-- FRCP (R236) -/
  | frcp (h : Fin 4) (rd : Fin 32) (rs1 : Fin 32) (rs2 : Fin 32)
  /-- FLOG2 (R236) -/
  | flog2 (h : Fin 4) (rd : Fin 32) (rs1 : Fin 32) (rs2 : Fin 32)
  /-- FEXP2 (R236) -/
  | fexp2 (h : Fin 4) (rd : Fin 32) (rs1 : Fin 32) (rs2 : Fin 32)
  /-- LMACU (R236) -/
  | lmacu (h : Fin 4) (rd : Fin 32) (rs1 : Fin 32) (rs2 : Fin 32)
  /-- LMACS (R236) -/
  | lmacs (h : Fin 4) (rd : Fin 32) (rs1 : Fin 32) (rs2 : Fin 32)
  /-- LACC_WR (R236) -/
  | laccWr (h : Fin 4) (rd : Fin 32) (rs1 : Fin 32) (rs2 : Fin 32)
  /-- LACC_RDLO (R236) -/
  | laccRdlo (h : Fin 4) (rd : Fin 32) (rs1 : Fin 32) (rs2 : Fin 32)
  /-- LACC_RDHI (R236) -/
  | laccRdhi (h : Fin 4) (rd : Fin 32) (rs1 : Fin 32) (rs2 : Fin 32)
  /-- CRC32C (R236) -/
  | crc32c (h : Fin 4) (rd : Fin 32) (rs1 : Fin 32) (rs2 : Fin 32)
  /-- LBAR (R242) -/
  | lbar (h : Fin 4) (rd : Fin 32) (rs1 : Fin 32) (rs2 : Fin 32)
  /-- LONG_OP_COMPLETE (R239) -/
  | longOpComplete (h : Fin 4)
  /-- LONG_OP_FAULT (R242) -/
  | longOpFault (h : Fin 4)
  /-- TRAP_ENTRY (R245) -/
  | trapEntry (h : Fin 4) (e : TrapEvent)
  /-- XRET (R243) -/
  | xret (h : Fin 4) (k : XretKind)
  /-- VENDOR_CSR_WRITE (R212) -/
  | vendorCsrWrite (h : Fin 4) (csr : VendorCsr) (op : CsrOp) (src : CsrSrc) (rd : Fin 32)
  /-- SETTLING_END (R212) -/
  | settlingEnd (h : Fin 4) (pc : DWord)
  /-- WFI (R196) -/
  | wfi (h : Fin 4)
  /-- CBO_CLEAN (R201) -/
  | cboClean (h : Fin 4) (rs1 : Fin 32)
  /-- CBO_FLUSH (R201) -/
  | cboFlush (h : Fin 4) (rs1 : Fin 32)
  /-- CBO_INVAL (R201) -/
  | cboInval (h : Fin 4) (rs1 : Fin 32)
  /-- CBO_ZERO (R201) -/
  | cboZero (h : Fin 4) (rs1 : Fin 32)
  /-- SFENCE_VMA (R206) -/
  | sfenceVma (h : Fin 4) (k : VmaFence) (rs1 : Fin 32) (rs2 : Fin 32)
  /-- FENCE (R260) -/
  | fence (h : Fin 4) (pred : Fin 16) (succ : Fin 16)
  /-- FENCE_I (R262) -/
  | fenceI (h : Fin 4)
  /-- MEMORY_ACCESS (R197) -/
  | memoryAccess (h : Fin 4) (access : HartAccess) (compressed : Bool)
  /-- SCOUT_ENTRY (R232) -/
  | scoutEntry (h : Fin 4) (load : HartAccess) (compressed : Bool)
  /-- SCOUT_LIMIT (R234) -/
  | scoutLimit (h : Fin 4) (cycles : Bool)
  /-- SCOUT_END (R234) -/
  | scoutEnd (h : Fin 4) (k : ScoutEnd)
  /-- COUNTER_WRAP (R326) -/
  | counterWrap (h : Fin 4) (n : Fin 32)
  /-- DEBUG_HALT (R218) -/
  | debugHalt (h : Fin 4) (request : DebugRequest)
  /-- ABSTRACT_COMMAND (R217) -/
  | abstractCommand (h : Fin 4) (command : Word) (data : DWord) (prog : List Word) (clear : Bool)
  /-- SYSTEM_BUS_ACCESS (R217) -/
  | systemBusAccess (addr : Option (BitVec 40)) (size : Fin 8) (op : SbOp) (auto : Bool) (clear : Bool)
  /-- NDMRESET (R220) -/
  | ndmreset
  /-- LOCKSTEP_COMPARE (R565) -/
  | lockstepCompare (pair : Fin 2) (addr : BitVec 40) (differ : Bool)
  /-- CLEAN_ALL (R288) -/
  | cleanAll (q : Req) (part : Fin 8)
  /-- FLUSH_WAYS (R288) -/
  | flushWays (q : Req) (part : Fin 8)
  /-- MAINT_DONE (R288) -/
  | maintDone
  /-- SNOOP (R257) -/
  | snoop (kind : Fin 3) (line : BitVec 34) (except : Option (Fin 4))
  /-- BACK_INVALIDATION (R258) -/
  | backInvalidation (line : BitVec 34)
  /-- DEMAND_ECC_ERROR (R255) -/
  | demandEccError (array : Fin 11) (unit : Fin 4) (addr : BitVec 40) (check : Bool) (up : EccUpset)
  /-- L3_SCRUB (R279) -/
  | l3Scrub (slice : Fin 2) (hit : Fin 4) (word : Fin 8) (up : EccUpset)
  /-- SRAM_SCRUB (R279) -/
  | sramScrub (hit : SramArray) (word : Fin 8) (up : EccUpset)
  /-- DMC_SCRUB (R272) -/
  | dmcScrub (channel : Fin 2) (word : Fin 8) (up : EccUpset)
  /-- DMC_TEMP_READING (R270) -/
  | dmcTempReading (dieA : Byte) (dieB : Byte)
  /-- REFRESH (R270) -/
  | refresh (channel : Fin 2)
  /-- DRAM_REQUEST (R268) -/
  | dramRequest (step : DramStep)
  /-- MRAM_WRITE (R275) -/
  | mramWrite (word : BitVec 20) (mask : Byte) (data : DWord)
  /-- MRAM_WRITE_DONE (R275) -/
  | mramWriteDone (bank : Fin 2)
  /-- LOOM_REQUEST (R294) -/
  | loomRequest (k : LoomPacket)
  /-- LOOM_RESPONSE (R291) -/
  | loomResponse (ini : Fin 16) (txid : Fin 64) (status : Fin 3) (halves : Fin 4) (li : BitVec 32) (lt : BitVec 32)
  /-- SPEC_TOKEN_RETURN (R296) -/
  | specTokenReturn (hart : Fin 4) (target : Fin 16)
  /-- PICK_START (R300) -/
  | pickStart (pick : Byte)
  /-- HOME_CHECK (R302) -/
  | homeCheck (ini : Fin 16) (txid : Fin 64)
  /-- LATE_RETURN (R303) -/
  | lateReturn (ini : Fin 16) (txid : Fin 64)
  /-- AGING (R298) -/
  | aging (router : Fin 12) (plane : Fin 4) (ini : Fin 16) (txid : Fin 64)
  /-- COMMIT (R309) -/
  | commit (q : Req)
  /-- COMMIT_SWAP (R310) -/
  | commitSwap
  /-- ROUND_BOUNDARY (R311) -/
  | roundBoundary
  /-- TARGET_ABANDON (R317) -/
  | targetAbandon (ini : Fin 16) (txid : Fin 64)
  /-- INITIATOR_TIMEOUT (R317) -/
  | initiatorTimeout (ini : Fin 16) (txid : Fin 64)
  /-- FLIT_ECC (R318) -/
  | flitEcc (router : Fin 12) (plane : Fin 4) (ue : Bool) (ini : Fin 16) (txid : Fin 64)
  /-- STAT_CLEAR (R331) -/
  | statClear (q : Req) (n : Fin 16) (v : DWord)
  /-- PROBE_MATCH (R335) -/
  | probeMatch (n : Fin 8) (head : DWord) (flit1 : BitVec 30) (flits : Fin 11) (waited : BitVec 16) (cycle : Fin 32)
  /-- EDGE_SOURCE (R349) -/
  | edgeSource (id : BitVec 11)
  /-- LEVEL_SOURCE_CHANGE (R350) -/
  | levelSourceChange (id : BitVec 11) (level : Bool)
  /-- CLAIM (R357) -/
  | claim (q : Req) (ctx : Fin 36)
  /-- COMPLETE (R358) -/
  | complete (q : Req) (ctx : Fin 36) (id : BitVec 32)
  /-- MESSAGE (R359) -/
  | message (q : Req) (g : Fin 16) (j : Fin 32) (v : BitVec 32)
  /-- CAIRN_ARRAY_WRITE (R355) -/
  | cairnArrayWrite (q : Req) (off : BitVec 22) (size : Size) (v : DWord)
  /-- CAIRN_RELEASE (R380) -/
  | cairnRelease (q : Req) (id : BitVec 11) (ctx : BitVec 6) (all : Bool)
  /-- HART_WAKE (R360) -/
  | hartWake (h : Fin 4)
  /-- CHANNEL_SENSE (R363) -/
  | channelSense (n : Fin 64) (balls : BitVec 96)
  /-- UNCLOCKED_FORCE (R368) -/
  | unclockedForce (balls : BitVec 96)
  /-- SHUTTLE_CH_SEL_WRITE (R364) -/
  | shuttleChSelWrite (q : Req) (n : Fin 64) (v : BitVec 32)
  /-- PIN_LATCH_CLEAR (R367) -/
  | pinLatchClear (q : Req) (m : BitVec 16)
  /-- PIN_SET (R367) -/
  | pinSet (q : Req) (m : BitVec 16)
  /-- HELD_RELEASE (R368) -/
  | heldRelease (q : Req) (k : Fin 2) (m : BitVec 32)
  /-- MTIME_WRITE (R370) -/
  | mtimeWrite (q : Req) (v : DWord)
  /-- MTIP_CHANGE (R371) -/
  | mtipChange (h : Fin 4)
  /-- TIMER_EXPIRY (R372) -/
  | timerExpiry (dt : BitVec 32) (n : Fin 8)
  /-- TIMER_START (R374) -/
  | timerStart (q : Req) (m : Byte)
  /-- TIMER_STOP (R374) -/
  | timerStop (q : Req) (m : Byte)
  /-- DOORBELL (R394) -/
  | doorbell (inst : Fin 32) (j : BitVec 12) (indirect : Bool) (tail : BitVec 16)
  /-- KICK (R394) -/
  | kick (ch : BitVec 12) (reed : Bool)
  /-- CHANNEL_FETCH (R395) -/
  | channelFetch
  /-- ITEM_FETCH (R403) -/
  | itemFetch (ch : BitVec 12)
  /-- ITEM_PREFETCH (R404) -/
  | itemPrefetch (ch : BitVec 12)
  /-- MOVE (R408) -/
  | move (ch : BitVec 12) (acked : Nat) (e : MoveEnd)
  /-- ITEM_END (R397) -/
  | itemEnd (ch : BitVec 12)
  /-- CHC_INV (R390) -/
  | chcInv (q : Req) (ch : BitVec 12) (all : Bool)
  /-- IOTLB_INV (R407) -/
  | iotlbInv (q : Req) (inst : Fin 32) (page : Bool) (gpa : BitVec 38)
  /-- INV_DONE (R407) -/
  | invDone (iotlb : Bool)
  /-- ENCODE (R424) -/
  | encode (ch : BitVec 12)
  /-- DECODE (R424) -/
  | decode (ch : BitVec 12)
  /-- BOBBIN_BLOCK (R426) -/
  | bobbinBlock (ch : BitVec 12)
  /-- CREATE (R439) -/
  | create (q : Req) (target : BitVec 13)
  /-- ASSIGN (R439) -/
  | assign (q : Req) (target : BitVec 13)
  /-- COMMIT_CHANNEL (R440) -/
  | commitChannel (q : Req) (target : BitVec 13) (flush : Bool)
  /-- COMMIT_QUEUE (R441) -/
  | commitQueue (q : Req) (target : BitVec 13)
  /-- RESET_DRAIN (R447) -/
  | resetDrain (q : Req) (target : BitVec 13)
  /-- RESET_SQUASH (R449) -/
  | resetSquash (q : Req) (target : BitVec 13)
  /-- DESTROY (R439) -/
  | destroy (q : Req) (target : BitVec 13)
  /-- RESET_DONE (R444) -/
  | resetDone (inst : Fin 32) (us : BitVec 24)
  /-- LATE_RESULT (R446) -/
  | lateResult (inst : Fin 32)
  /-- QUEUE_HEAD_WRITE (R452) -/
  | queueHeadWrite (inst : Fin 32) (j : BitVec 10) (indirect : Bool) (head : BitVec 16)
  /-- DATA (R461) -/
  | data (port : Fin 62) (r : UsbReply)
  /-- CONTROL (R461) -/
  | control (n : Fin 48) (r : UsbReply)
  /-- USBH_PIPE_CFG_WRITE (R463) -/
  | usbhPipeCfgWrite (q : Req) (n : Fin 48) (v : BitVec 64)
  /-- MICROFRAME (R464): of the host controller; `sof` is the frame of an SOF that the service port receives in it, if any (R460) -/
  | microframe (sof : Option (BitVec 11))
  /-- ROOT_RESET (R467) -/
  | rootReset (q : Req) (run : Bool) (holdoff : BitVec 6)
  /-- HUB_STANDARD_REQUEST (R469) -/
  | hubStandardRequest (setup : BitVec 64)
  /-- PORT_POWER (R470) -/
  | portPower (p : Fin 4) (line : Option UsbLine)
  /-- CLEAR_PORT_POWER (R470) -/
  | clearPortPower (p : Fin 4)
  /-- OVER_CURRENT (R470) -/
  | overCurrent (p : Fin 4)
  /-- PORT_RESET (R471) -/
  | portReset (p : Fin 4) (line : UsbLine)
  /-- PORT_SUSPEND (R473) -/
  | portSuspend (p : Fin 4)
  /-- PORT_RESUME (R473) -/
  | portResume (p : Fin 4)
  /-- CLEAR_TT_BUFFER (R472) -/
  | clearTtBuffer (p : Fin 4) (addr : BitVec 7) (ep : BitVec 4) (dirIn : Bool)
  /-- RESET_TT (R472) -/
  | resetTt (p : Fin 4)
  /-- SPLIT_TRANSACTION (R472) -/
  | splitTransaction (n : Fin 48) (complete : Bool) (r : Option UsbReply)
  /-- ATTACH (R474) -/
  | attach
  /-- BUS_RESET (R475) -/
  | busReset (answered : Bool)
  /-- SETUP (R478) -/
  | setup (setup : BitVec 64)
  /-- ACK (R478) -/
  | ack (q : Req)
  /-- STALL (R479) -/
  | stall (q : Req)
  /-- USBD_EP_CFG_WRITE (R476) -/
  | usbdEpCfgWrite (q : Req) (dirIn : Bool) (k : Fin 6) (v : BitVec 32)
  /-- ENDPOINT_HALT (R479) -/
  | endpointHalt (q : Option Req) (dirIn : Bool) (k : Fin 6)
  /-- ENDPOINT_CLEAR (R479) -/
  | endpointClear (t : UsbClear)
  /-- SUSPEND (R480) -/
  | suspend
  /-- RESUME (R480) -/
  | resume (r : UsbResume)
  /-- VBUS_LOST (R486) -/
  | vbusLost
  /-- ETH_TX_FRAME (R494) -/
  | ethTxFrame (n : Fin 2)
  /-- ETH_RX_FRAME (R495) -/
  | ethRxFrame (n : Fin 2) (frame : List Byte) (fcsOk : Bool)
  /-- ETH_RX_ITEM (R496) -/
  | ethRxItem (n : Fin 2)
  /-- PAUSE (R495) -/
  | pause (n : Fin 2) (quanta : BitVec 16)
  /-- MDIO_GO (R493) -/
  | mdioGo (q : Req) (data : BitVec 16) (reg : BitVec 5) (phy : BitVec 5) (read : Bool) (answer : BitVec 16)
  /-- PTP_SECOND (R498) -/
  | ptpSecond
  /-- PTP_TARGET (R498) -/
  | ptpTarget
  /-- PTP_SET (R498) -/
  | ptpSet (q : Req) (v : BitVec 64)
  /-- PTP_STEP (R498) -/
  | ptpStep (q : Req) (ns : BitVec 32)
  /-- UART_CHARACTER (R500) -/
  | uartCharacter (n : Fin 6) (c : UartChar)
  /-- FRAME_END (R502) -/
  | frameEnd (n : Fin 6)
  /-- BREAK (R504) -/
  | break (n : Fin 6)
  /-- SPI_TRANSFER (R505) -/
  | spiTransfer (n : Fin 2) (miso : List Byte)
  /-- CS_RELEASE (R506) -/
  | csRelease (n : Fin 2)
  /-- I2C_TRANSFER (R507) -/
  | i2cTransfer (n : Fin 2) (r : I2cResult)
  /-- I2C_RECOVER (R508) -/
  | i2cRecover (q : Req) (n : Fin 2) (freed : Bool)
  /-- ADC_TRIGGER (R510) -/
  | adcTrigger (n : Fin 2) (src : AdcSource)
  /-- ADC_SW_TRIG (R509) -/
  | adcSwTrig (q : Req) (n : Fin 2)
  /-- ADC_CONVERSION (R511) -/
  | adcConversion (n : Fin 2) (raw : BitVec 16)
  /-- SEQUENCE_END (R509) -/
  | sequenceEnd (n : Fin 2)
  /-- FLUSH (R509) -/
  | flush (q : Req) (n : Fin 2) (format : Bool) (cont : Bool)
  /-- GPIO_EDGE (R513) -/
  | gpioEdge (n : Fin 32) (rising : Bool)
  /-- GPIO_SET (R512) -/
  | gpioSet (q : Req) (m : BitVec 32)
  /-- GPIO_CLR (R512) -/
  | gpioClr (q : Req) (m : BitVec 32)
  /-- TETHER_FRAME (R520) -/
  | tetherFrame (bits : List Bool)
  /-- TETHER_CRC_COMMIT (R522) -/
  | tetherCrcCommit (index : Byte) (words : List (BitVec 32)) (crc : Byte)
  /-- TETHER_ABORT (R523) -/
  | tetherAbort (reason : Fin 6)
  /-- LIVE_LO_COMMIT (R526) -/
  | liveLoCommit (v : BitVec 32)
  /-- LIVE_STREAM (R526) -/
  | liveStream (v : BitVec 32)
  /-- LIVE_ACCESS_DONE (R526) -/
  | liveAccessDone (target : Fin 16) (timeout : Bool)
  /-- REQ (R528) -/
  | req (v : BitVec 16)
  /-- ATTN_SET (R529) -/
  | attnSet (q : Req) (v : BitVec 16)
  /-- TETHER_KICK (R531) -/
  | tetherKick (v : BitVec 32)
  /-- PWDG_EXPIRY (R531) -/
  | pwdgExpiry
  /-- READ (R536) -/
  | read (q : Req) (addr : BitVec 8)
  /-- PROGRAM (R536) -/
  | program (q : Req) (addr : BitVec 8) (cut : Option (BitVec 32))
  /-- CHECK (R536) -/
  | check (q : Req) (addr : BitVec 8)
  /-- LOAD (R539) -/
  | load (q : Req) (slot : Fin 16) (usage : BitVec 4)
  /-- SLOT_READ (R539) -/
  | slotRead (q : Req) (slot : Fin 16)
  /-- CLEAR (R539) -/
  | clear (q : Req) (slot : Fin 16)
  /-- DERIVE (R540) -/
  | derive (q : Req) (slot : Fin 16) (src : BitVec 5) (usage : BitVec 4)
  /-- GENERATE (R539) -/
  | generate (q : Req) (slot : Fin 16) (usage : BitVec 4)
  /-- TRNG_READY (R546) -/
  | trngReady (rate : BitVec 13)
  /-- HEALTH_FAIL (R545) -/
  | healthFail (proportion : Bool) (ms : Nat)
  /-- DRBG_GENERATE (R544) -/
  | drbgGenerate (ms : Nat) (fresh : Bool)
  /-- TRNG_DATA_LOAD (R547) -/
  | trngDataLoad (_q : Req)
  /-- ENCRYPT (R550) -/
  | encrypt (ch : BitVec 12)
  /-- DECRYPT (R550) -/
  | decrypt (ch : BitVec 12)
  /-- MAC (R550) -/
  | mac (ch : BitVec 12)
  /-- UPDATE (R552) -/
  | update (ch : BitVec 12)
  /-- FINAL (R552) -/
  | final (ch : BitVec 12)
  /-- ONESHOT (R552) -/
  | oneshot (ch : BitVec 12)
  /-- ECDSA_SIGN (R553) -/
  | ecdsaSign (ch : BitVec 12)
  /-- ECDSA_VERIFY (R553) -/
  | ecdsaVerify (ch : BitVec 12)
  /-- ECDH (R553) -/
  | ecdh (ch : BitVec 12)
  /-- KEYGEN (R553) -/
  | keygen (ch : BitVec 12)
  /-- X25519 (R553) -/
  | x25519 (ch : BitVec 12)
  /-- ED25519_SIGN (R553) -/
  | ed25519Sign (ch : BitVec 12)
  /-- ED25519_VERIFY (R553) -/
  | ed25519Verify (ch : BitVec 12)
  /-- PKA_CMD_GO (R554) -/
  | pkaCmdGo (q : Req) (op : BitVec 4) (wide : Bool) (keySlot : Bool) (slot : Fin 16)
  /-- KAT_GO (R555) -/
  | katGo (q : Req) (engine : Fin 3)
  /-- TAMPER_EVENT (R556) -/
  | tamperEvent (n : Fin 2)
  /-- FAULT_SIGNAL (R571) -/
  | faultSignal (src : Fin 26) (soft : Bool) (unit : Byte) (addr : BitVec 40) (detail : BitVec 32)
  /-- BELAY_RESET_REACTION (R573) -/
  | belayResetReaction
  /-- BELAY_ARM (R572) -/
  | belayArm (q : Req) (key : BitVec 16)
  /-- PEND_CLEAR (R572) -/
  | pendClear (q : Req) (m : BitVec 32)
  /-- FAULT_N_RELEASE (R572) -/
  | faultNRelease (ms : BitVec 32)
  /-- COND_EVALUATION (R562) -/
  | condEvaluation (vin : BitVec 16) (tj : BitVec 9)
  /-- CRC_PASS (R567) -/
  | crcPass (us : BitVec 16) (hit : Option (BitVec 32 × Fin 64))
  /-- DUP_MISMATCH (R566) -/
  | dupMismatch (unit : Fin 4)
  /-- MONITOR_EXCURSION (R568) -/
  | monitorExcursion (target : Fin 15) (k : MonitorEvent)
  /-- SELFTEST (R569) -/
  | selftest (q : Req)
  /-- BELAY_SOFT (R570) -/
  | belaySoft (q : Req) (code : Byte)
  /-- WDOG_KICK (R576) -/
  | wdogKick (q : Req) (n : Fin 4) (key : BitVec 32) (ms : Nat)
  /-- WDOG_WARN (R576) -/
  | wdogWarn (n : Fin 4)
  /-- WDOG_EXPIRY (R576) -/
  | wdogExpiry (n : Fin 4)
  /-- SCREE_END (R579) -/
  | screeEnd
  /-- ECC_GO (R581) -/
  | eccGo (q : Req)
  /-- LOCKSTEP_GO (R580) -/
  | lockstepGo (q : Req) (pairB : Bool)
  /-- DUP_GO (R580) -/
  | dupGo (q : Req) (unit : Fin 4)
  /-- CRC_GO (R580) -/
  | crcGo (q : Req) (page : BitVec 7)
  /-- MON_GO (R580) -/
  | monGo (q : Req) (target : Fin 16) (copyAOnly : Bool)
  /-- ENTROPY_GO (R580) -/
  | entropyGo (q : Req) (mode : Fin 4) (ms : Nat)
  /-- SELFTEST_DONE (R569) -/
  | selftestDone (pass : Bool)
  /-- KAT_DONE (R555) -/
  | katDone (engine : Fin 3) (pass : Bool)
  /-- PKA_CMD_DONE (R554) -/
  | pkaCmdDone (us : BitVec 16)
  /-- DEVICE_DETACHED (R484) -/
  | deviceDetached (p : Fin 4)
  /-- OVER_CURRENT_CLEAR (R470) -/
  | overCurrentClear (p : Fin 4)
  /-- MOVE_ANGLE_CROSSING (R396) -/
  | moveAngleCrossing (n : Fin 2)
  /-- PWM_DUTY_REACHED (R373) -/
  | pwmDutyReached (dt : BitVec 32) (n : Fin 8)
deriving DecidableEq, Repr

end Sys2Proof
end

