-- ==== Sys2Proof/Decode.lean ====
section
/-! DEFINITION. The command that a word of spec/opcode_table.json spells. The table gives no row any bits: a command is an
access or an event, no instruction word, so no word spells one. -/
namespace Sys2Proof

/-- No row of the table has bits (every row's `fields` is empty), so every word is refused. -/
def decodeTableWord (_nbits _w : Nat) : Option Instr := none

end Sys2Proof
end

