-- ==== Sys2Proof/Machine/Regs.lean ====
section
/-! DEFINITION. Names of the register pages (`P`), of the registers (`R`), of their fields (`F`) and of the page events
(`E`), written out from the field tables of spec/02 to spec/20 (R38, R54 and every chapter's "Registers" section).
A register is named by its physical address; `i` is the instance of a page family, the other indices are the register's own. -/
namespace Sys2Proof.Machine

/-- A field of a register: the register's address, its lowest bit and its width (R11). -/
structure Fld where
  /-- physical address of the register -/
  reg : Nat
  /-- lowest bit -/
  lo : Nat
  /-- width in bits -/
  width : Nat
deriving DecidableEq, Repr

def P.SYSCFG : Nat := 0x10000000
def P.PWR : Nat := 0x10001000
def P.CLK : Nat := 0x10002000
def P.BOOT : Nat := 0x10003000
def P.PITON : Nat := 0x10004000
def P.BELAY : Nat := 0x10005000
def P.SCREE : Nat := 0x10006000
def P.WDOG : Nat := 0x10007000
def P.TIMER : Nat := 0x10008000
def P.RTC : Nat := 0x10009000
def P.REED : Nat := 0x10010000
def P.SHUTTLE : Nat := 0x10011000
def P.CAIRN_CTL : Nat := 0x10012000
def P.LOOM_CFG : Nat := 0x10020000
def P.LOOM_NI (i : Nat) : Nat := 0x10021000 + 0x1000 * i
def P.LOOM_PROBE (i : Nat) : Nat := 0x10031000 + 0x1000 * i
def P.L3 : Nat := 0x10040000
def P.DMC : Nat := 0x10041000
def P.MRAMC : Nat := 0x10042000
def P.HEDDLE : Nat := 0x10050000
def P.HEDDLE_MGMT : Nat := 0x10051000
def P.BOBBIN : Nat := 0x10052000
def P.USBH : Nat := 0x10080000
def P.USBHUB : Nat := 0x10081000
def P.USBD : Nat := 0x10082000
def P.ETH (i : Nat) : Nat := 0x10090000 + 0x1000 * i
def P.PTPCLK : Nat := 0x10092000
def P.UART (i : Nat) : Nat := 0x100A0000 + 0x1000 * i
def P.SPI (i : Nat) : Nat := 0x100B0000 + 0x1000 * i
def P.I2C (i : Nat) : Nat := 0x100B2000 + 0x1000 * i
def P.ADC (i : Nat) : Nat := 0x100C0000 + 0x1000 * i
def P.GPIO : Nat := 0x100D0000
def P.TETHER : Nat := 0x100E0000
def P.TRNG : Nat := 0x100F0000
def P.AES : Nat := 0x100F1000
def P.HASH : Nat := 0x100F2000
def P.PKA : Nat := 0x100F3000
def P.KEYS : Nat := 0x100F4000
def P.OSPI : Nat := 0x10100000

def E.SYSCFG_UNLOCK_DONE : Nat := 0
def E.SYSCFG_LIFECYCLE_REFUSED : Nat := 1
def E.PWR_PFAIL : Nat := 0
def E.PWR_PFAIL_CLEAR : Nat := 1
def E.PWR_THERM_HOT : Nat := 2
def E.PWR_V3V3_OC : Nat := 3
def E.PWR_V1V8_OC : Nat := 4
def E.PWR_BANK_WINDOW : Nat := 5
def E.PWR_WAKE_PIN : Nat := 6
def E.PWR_SNAP_DONE : Nat := 7
def E.PWR_OPPOINT_DONE : Nat := 8
def E.CLK_XIN_LOST : Nat := 0
def E.CLK_LSE_LOST : Nat := 1
def E.CLK_PLL_UNLOCK : Nat := 2
def E.CLK_MEAS_DONE : Nat := 3
def E.BOOT_STRAP_UNSTABLE : Nat := 0
def E.BOOT_RECOVERY_REFUSED : Nat := 1
def E.PITON_LOCK_SET : Nat := 0
def E.BELAY_SIGNALLED : Nat := 0
def E.BELAY_CE : Nat := 1
def E.BELAY_GUARANTEE_LOST : Nat := 2
def E.BELAY_GUARANTEE_ON : Nat := 3
def E.BELAY_LOG_LOST : Nat := 4
def E.BELAY_SELFTEST_DONE : Nat := 5
def E.SCREE_INJECTED : Nat := 0
def E.SCREE_MISSED : Nat := 1
def E.WDOG_EXPIRED : Nat := 0
def E.WDOG_WARNED : Nat := 1
def E.TIMER_EXPIRED_0 : Nat := 0
def E.TIMER_EXPIRED_1 : Nat := 1
def E.TIMER_EXPIRED_2 : Nat := 2
def E.TIMER_EXPIRED_3 : Nat := 3
def E.TIMER_EXPIRED_4 : Nat := 4
def E.TIMER_EXPIRED_5 : Nat := 5
def E.TIMER_EXPIRED_6 : Nat := 6
def E.TIMER_EXPIRED_7 : Nat := 7
def E.RTC_ALARM : Nat := 0
def E.RTC_PERIOD : Nat := 1
def E.REED_LOCKED : Nat := 0
def E.REED_HOLDOVER : Nat := 1
def E.REED_FREE : Nat := 2
def E.REED_GLITCH : Nat := 3
def E.REED_RELOCK : Nat := 4
def E.REED_STEP : Nat := 5
def E.REED_SLOT_LATE : Nat := 6
def E.REED_ENC_ERROR : Nat := 7
def E.REED_CYCLE : Nat := 8
def E.SHUTTLE_FORCE_BEGIN : Nat := 0
def E.SHUTTLE_FORCE_END : Nat := 1
def E.SHUTTLE_CONFLICT : Nat := 2
def E.SHUTTLE_HELD : Nat := 3
def E.CAIRN_CTL_COALESCE : Nat := 0
def E.CAIRN_CTL_BAD_COMPLETE : Nat := 1
def E.LOOM_CFG_COMMIT_DONE : Nat := 0
def E.LOOM_CFG_COMMIT_REFUSED : Nat := 1
def E.LOOM_CFG_HOT_SHED : Nat := 2
def E.LOOM_CFG_SHED_END : Nat := 3
def E.LOOM_CFG_ECC_CE : Nat := 4
def E.LOOM_CFG_ECC_UE : Nat := 5
def E.LOOM_CFG_TIMEOUT : Nat := 6
def E.LOOM_NI_TIMEOUT : Nat := 0
def E.LOOM_NI_SEQ_ERROR : Nat := 1
def E.LOOM_NI_LATE_RETURN : Nat := 2
def E.LOOM_NI_ABANDON : Nat := 3
def E.LOOM_PROBE_TRACE_FULL : Nat := 0
def E.LOOM_PROBE_TRACE_LOST : Nat := 1
def E.LOOM_PROBE_GATE_OPEN : Nat := 2
def E.L3_CE : Nat := 0
def E.L3_UE : Nat := 1
def E.L3_MAINT_DONE : Nat := 2
def E.DMC_CE : Nat := 0
def E.DMC_UE : Nat := 1
def E.DMC_RATE_CHANGE : Nat := 2
def E.DMC_HOT : Nat := 3
def E.DMC_SCRUB_PASS : Nat := 4
def E.MRAMC_CE : Nat := 0
def E.MRAMC_UE : Nat := 1
def E.MRAMC_WP_VIOLATION : Nat := 2
def E.MRAMC_DRAINED : Nat := 3
def E.HEDDLE_TRANSLATE_FAULT : Nat := 0
def E.HEDDLE_CRC_MISMATCH : Nat := 1
def E.HEDDLE_DB_BAD : Nat := 2
def E.HEDDLE_CQ_WAIT : Nat := 3
def E.HEDDLE_INV_DONE : Nat := 4
def E.HEDDLE_HALT : Nat := 5
def E.HEDDLE_MGMT_CMD_DONE : Nat := 0
def E.HEDDLE_MGMT_CMD_REFUSED : Nat := 1
def E.HEDDLE_MGMT_RESET_DONE : Nat := 2
def E.HEDDLE_MGMT_DB_REFUSED : Nat := 3
def E.BOBBIN_SUMMARY : Nat := 0
def E.BOBBIN_DECODE_ERROR : Nat := 1
def E.BOBBIN_CAPACITY : Nat := 2
def E.USBH_XACT_ERR : Nat := 0
def E.USBH_PIPE_HALT : Nat := 1
def E.USBH_ROOT_RESET_DONE : Nat := 2
def E.USBH_SCHED_REFUSED : Nat := 3
def E.USBH_MISSED : Nat := 4
def E.USBHUB_PORT_CHANGE : Nat := 0
def E.USBHUB_OVER_CURRENT : Nat := 1
def E.USBHUB_TT_NAK : Nat := 2
def E.USBD_SETUP : Nat := 0
def E.USBD_BUS_RESET : Nat := 1
def E.USBD_SUSPEND : Nat := 2
def E.USBD_RESUME : Nat := 3
def E.USBD_VBUS_CHANGE : Nat := 4
def E.USBD_HALT_SET : Nat := 5
def E.USBD_HALT_CLEARED : Nat := 6
def E.ETH_RX_DROP : Nat := 0
def E.ETH_MDIO_DONE : Nat := 1
def E.ETH_PAUSED : Nat := 2
def E.PTPCLK_SECOND : Nat := 0
def E.PTPCLK_TARGET : Nat := 1
def E.UART_ERROR : Nat := 0
def E.UART_BREAK : Nat := 1
def E.UART_FRAME_END : Nat := 2
def E.I2C_ERROR : Nat := 0
def E.ADC_OVERFLOW : Nat := 0
def E.ADC_MISSED : Nat := 1
def E.ADC_LIMIT : Nat := 2
def E.GPIO_EDGE : Nat := 0
def E.TETHER_REQ : Nat := 0
def E.TETHER_ABORT : Nat := 1
def E.TETHER_PWDG : Nat := 2
def E.TETHER_LIVE_ERR : Nat := 3
def E.TRNG_READY : Nat := 0
def E.TRNG_HEALTH_FAIL : Nat := 1
def E.TRNG_FATAL : Nat := 2
def E.AES_KAT_DONE : Nat := 0
def E.AES_ERROR : Nat := 1
def E.HASH_KAT_DONE : Nat := 0
def E.HASH_ERROR : Nat := 1
def E.PKA_CMD_DONE : Nat := 0
def E.PKA_KAT_DONE : Nat := 1
def E.PKA_ERROR : Nat := 2
def E.KEYS_CMD_DONE : Nat := 0
def E.KEYS_OTP_DONE : Nat := 1
def E.KEYS_TAMPER : Nat := 2
def E.OSPI_CMD_DONE : Nat := 0
def E.OSPI_TIMEOUT : Nat := 1
def E.OSPI_ITEM_ERROR : Nat := 2

/-- Header register PAGE_ID of page `p` (Table Pages-1). -/
def R.PAGE_ID (p : Nat) : Nat := p + 0x0
/-- Header register PAGE_REV of page `p` (Table Pages-1). -/
def R.PAGE_REV (p : Nat) : Nat := p + 0x4
/-- Header register PAGE_CTRL of page `p` (Table Pages-1). -/
def R.PAGE_CTRL (p : Nat) : Nat := p + 0x8
/-- Header register PAGE_STAT of page `p` (Table Pages-1). -/
def R.PAGE_STAT (p : Nat) : Nat := p + 0xC
/-- Header register EVT_RAW of page `p` (Table Pages-1). -/
def R.EVT_RAW (p : Nat) : Nat := p + 0x10
/-- Header register EVT_EN of page `p` (Table Pages-1). -/
def R.EVT_EN (p : Nat) : Nat := p + 0x14
/-- Header register EVT_PEND of page `p` (Table Pages-1). -/
def R.EVT_PEND (p : Nat) : Nat := p + 0x18
/-- Header register EVT_SET of page `p` (Table Pages-1). -/
def R.EVT_SET (p : Nat) : Nat := p + 0x1C
/-- Header register CLAMP_ADDR of page `p` (Table Pages-1). -/
def R.CLAMP_ADDR (p : Nat) : Nat := p + 0x20
/-- Header register CLAMP_WROTE of page `p` (Table Pages-1). -/
def R.CLAMP_WROTE (p : Nat) : Nat := p + 0x24
/-- Header register CLAMP_KEPT of page `p` (Table Pages-1). -/
def R.CLAMP_KEPT (p : Nat) : Nat := p + 0x28
/-- Header register CLAMP_COUNT of page `p` (Table Pages-1). -/
def R.CLAMP_COUNT (p : Nat) : Nat := p + 0x2C
def F.PAGE_CTRL_ENABLE (p : Nat) : Fld := ⟨R.PAGE_CTRL p, 0, 1⟩
def F.PAGE_STAT_RESETTING (p : Nat) : Fld := ⟨R.PAGE_STAT p, 0, 1⟩
def F.PAGE_STAT_ENABLED (p : Nat) : Fld := ⟨R.PAGE_STAT p, 2, 1⟩
def F.PAGE_STAT_BLOCK_STAT (p : Nat) : Fld := ⟨R.PAGE_STAT p, 16, 16⟩
def F.EVT_RAW_CLAMP (p : Nat) : Fld := ⟨R.EVT_RAW p, 31, 1⟩
def F.CLAMP_ADDR_OFFSET (p : Nat) : Fld := ⟨R.CLAMP_ADDR p, 0, 12⟩
def F.CLAMP_ADDR_INITIATOR (p : Nat) : Fld := ⟨R.CLAMP_ADDR p, 16, 4⟩
def F.CLAMP_ADDR_REASON (p : Nat) : Fld := ⟨R.CLAMP_ADDR p, 24, 7⟩
def F.CLAMP_ADDR_VALID (p : Nat) : Fld := ⟨R.CLAMP_ADDR p, 31, 1⟩
def F.CLAMP_COUNT_COUNT (p : Nat) : Fld := ⟨R.CLAMP_COUNT p, 0, 16⟩
def F.CLAMP_COUNT_SAT (p : Nat) : Fld := ⟨R.CLAMP_COUNT p, 31, 1⟩

def R.PWR_STATE : Nat := 0x10001040
def F.PWR_STATE_CUR : Fld := ⟨R.PWR_STATE, 0, 3⟩
def F.PWR_STATE_FORCED_COOL : Fld := ⟨R.PWR_STATE, 4, 1⟩
def F.PWR_STATE_SWITCHING : Fld := ⟨R.PWR_STATE, 5, 1⟩
def F.PWR_STATE_AON_FRESH : Fld := ⟨R.PWR_STATE, 8, 1⟩
def F.PWR_STATE_THERM_TRIP : Fld := ⟨R.PWR_STATE, 9, 1⟩
def F.PWR_STATE_PFAIL_HALT : Fld := ⟨R.PWR_STATE, 10, 1⟩
def R.PWR_REQ : Nat := 0x10001044
def F.PWR_REQ_RUN : Fld := ⟨R.PWR_REQ, 0, 1⟩
def F.PWR_REQ_IDLE : Fld := ⟨R.PWR_REQ, 1, 3⟩
def F.PWR_REQ_PENDING : Fld := ⟨R.PWR_REQ, 8, 1⟩
def R.PWR_PFAIL : Nat := 0x10001048
def F.PWR_PFAIL_THRESH : Fld := ⟨R.PWR_PFAIL, 0, 6⟩
def F.PWR_PFAIL_ACTION : Fld := ⟨R.PWR_PFAIL, 8, 2⟩
def F.PWR_PFAIL_GRACE : Fld := ⟨R.PWR_PFAIL, 16, 8⟩
def F.PWR_PFAIL_ARMED : Fld := ⟨R.PWR_PFAIL, 31, 1⟩
def R.PWR_MON : Nat := 0x1000104C
def F.PWR_MON_VIN : Fld := ⟨R.PWR_MON, 0, 16⟩
def F.PWR_MON_VBAT : Fld := ⟨R.PWR_MON, 16, 12⟩
def R.PWR_THERM : Nat := 0x10001050
def F.PWR_THERM_TJ : Fld := ⟨R.PWR_THERM, 0, 9⟩
def F.PWR_THERM_WARN : Fld := ⟨R.PWR_THERM, 16, 8⟩
def F.PWR_THERM_HOT : Fld := ⟨R.PWR_THERM, 24, 1⟩
def R.PWR_OUT : Nat := 0x10001054
def F.PWR_OUT_V3V3_OC : Fld := ⟨R.PWR_OUT, 0, 1⟩
def F.PWR_OUT_V1V8_OC : Fld := ⟨R.PWR_OUT, 1, 1⟩
def F.PWR_OUT_BANK_A : Fld := ⟨R.PWR_OUT, 8, 2⟩
def F.PWR_OUT_BANK_B : Fld := ⟨R.PWR_OUT, 10, 2⟩
def F.PWR_OUT_BANK_C : Fld := ⟨R.PWR_OUT, 12, 2⟩
def F.PWR_OUT_BANK_D : Fld := ⟨R.PWR_OUT, 14, 2⟩
def R.PWR_WAKE_CFG : Nat := 0x10001058
def F.PWR_WAKE_CFG_WAKE_EN : Fld := ⟨R.PWR_WAKE_CFG, 0, 4⟩
def F.PWR_WAKE_CFG_POL : Fld := ⟨R.PWR_WAKE_CFG, 4, 4⟩
def F.PWR_WAKE_CFG_RTC_EN : Fld := ⟨R.PWR_WAKE_CFG, 8, 1⟩
def F.PWR_WAKE_CFG_VIN_EN : Fld := ⟨R.PWR_WAKE_CFG, 9, 1⟩
def F.PWR_WAKE_CFG_FILT : Fld := ⟨R.PWR_WAKE_CFG, 12, 2⟩
def R.PWR_WAKE_STAT : Nat := 0x1000105C
def F.PWR_WAKE_STAT_WAKE : Fld := ⟨R.PWR_WAKE_STAT, 0, 4⟩
def F.PWR_WAKE_STAT_RTC : Fld := ⟨R.PWR_WAKE_STAT, 4, 1⟩
def F.PWR_WAKE_STAT_VIN : Fld := ⟨R.PWR_WAKE_STAT, 5, 1⟩
def F.PWR_WAKE_STAT_TAMPER : Fld := ⟨R.PWR_WAKE_STAT, 6, 1⟩
def F.PWR_WAKE_STAT_RESUMED : Fld := ⟨R.PWR_WAKE_STAT, 8, 1⟩
def F.PWR_WAKE_STAT_COLD : Fld := ⟨R.PWR_WAKE_STAT, 9, 1⟩
def F.PWR_WAKE_STAT_PFAIL_BIV : Fld := ⟨R.PWR_WAKE_STAT, 10, 1⟩
def R.PWR_SNAP_BASE : Nat := 0x10001060
def F.PWR_SNAP_BASE_BASE : Fld := ⟨R.PWR_SNAP_BASE, 12, 11⟩
def R.PWR_SNAP_CTRL : Nat := 0x10001064
def F.PWR_SNAP_CTRL_COMMIT : Fld := ⟨R.PWR_SNAP_CTRL, 0, 1⟩
def F.PWR_SNAP_CTRL_INVALIDATE : Fld := ⟨R.PWR_SNAP_CTRL, 1, 1⟩
def F.PWR_SNAP_CTRL_PAGES : Fld := ⟨R.PWR_SNAP_CTRL, 8, 8⟩
def F.PWR_SNAP_CTRL_COMPLETE : Fld := ⟨R.PWR_SNAP_CTRL, 16, 1⟩
def F.PWR_SNAP_CTRL_BUSY : Fld := ⟨R.PWR_SNAP_CTRL, 17, 1⟩
def R.PWR_RESUME : Nat := 0x10001068
def F.PWR_RESUME_ADDR : Fld := ⟨R.PWR_RESUME, 0, 32⟩
def R.PWR_RETAIN (n : Nat) : Nat := 0x10001080 + 4 * n
def F.PWR_RETAIN_DATA (n : Nat) : Fld := ⟨R.PWR_RETAIN n, 0, 32⟩
def R.CLK_STAT : Nat := 0x10002040
def F.CLK_STAT_XIN_OK : Fld := ⟨R.CLK_STAT, 0, 1⟩
def F.CLK_STAT_LSE_OK : Fld := ⟨R.CLK_STAT, 1, 1⟩
def F.CLK_STAT_AON_ON_RC : Fld := ⟨R.CLK_STAT, 2, 1⟩
def F.CLK_STAT_LOCK : Fld := ⟨R.CLK_STAT, 3, 6⟩
def R.CLK_HART : Nat := 0x10002044
def F.CLK_HART_OP : Fld := ⟨R.CLK_HART, 0, 1⟩
def F.CLK_HART_GATED : Fld := ⟨R.CLK_HART, 8, 4⟩
def R.CLK_XIN : Nat := 0x10002048
def F.CLK_XIN_MODE : Fld := ⟨R.CLK_XIN, 0, 1⟩
def F.CLK_XIN_START_MS : Fld := ⟨R.CLK_XIN, 8, 8⟩
def R.CLK_LSE : Nat := 0x1000204C
def F.CLK_LSE_DRIVE : Fld := ⟨R.CLK_LSE, 0, 2⟩
def R.CLK_AON : Nat := 0x10002050
def F.CLK_AON_SRC : Fld := ⟨R.CLK_AON, 0, 1⟩
def F.CLK_AON_AUTO : Fld := ⟨R.CLK_AON, 1, 1⟩
def R.CLK_RC_TRIM : Nat := 0x10002054
def F.CLK_RC_TRIM_TRIM : Fld := ⟨R.CLK_RC_TRIM, 0, 7⟩
def R.CLK_STOP_KEEP_0 : Nat := 0x10002058
def F.CLK_STOP_KEEP_0_KEEP : Fld := ⟨R.CLK_STOP_KEEP_0, 0, 32⟩
def R.CLK_STOP_KEEP_1 : Nat := 0x1000205C
def F.CLK_STOP_KEEP_1_KEEP : Fld := ⟨R.CLK_STOP_KEEP_1, 0, 6⟩
def R.CLK_MON_CFG : Nat := 0x10002060
def F.CLK_MON_CFG_XIN : Fld := ⟨R.CLK_MON_CFG, 0, 1⟩
def F.CLK_MON_CFG_PLL : Fld := ⟨R.CLK_MON_CFG, 1, 1⟩
def F.CLK_MON_CFG_LSE : Fld := ⟨R.CLK_MON_CFG, 2, 1⟩
def R.CLK_MON_STAT : Nat := 0x10002064
def F.CLK_MON_STAT_LOST : Fld := ⟨R.CLK_MON_STAT, 0, 9⟩
def R.CLK_MEAS_CTRL : Nat := 0x10002068
def F.CLK_MEAS_CTRL_SEL : Fld := ⟨R.CLK_MEAS_CTRL, 0, 3⟩
def F.CLK_MEAS_CTRL_START : Fld := ⟨R.CLK_MEAS_CTRL, 8, 1⟩
def R.CLK_MEAS_RESULT : Nat := 0x1000206C
def F.CLK_MEAS_RESULT_COUNT : Fld := ⟨R.CLK_MEAS_RESULT, 0, 28⟩
def F.CLK_MEAS_RESULT_DONE : Fld := ⟨R.CLK_MEAS_RESULT, 31, 1⟩
def R.CLK_ETH : Nat := 0x10002070
def F.CLK_ETH_REF_OUT : Fld := ⟨R.CLK_ETH, 0, 2⟩
def R.CLK_USB : Nat := 0x10002074
def F.CLK_USB_PLL_EN : Fld := ⟨R.CLK_USB, 0, 1⟩
def R.RTC_COUNT : Nat := 0x10009040
def F.RTC_COUNT_TICKS : Fld := ⟨R.RTC_COUNT, 0, 64⟩
def R.RTC_ALARM : Nat := 0x10009048
def F.RTC_ALARM_ALARM : Fld := ⟨R.RTC_ALARM, 0, 64⟩
def R.RTC_CTRL : Nat := 0x10009050
def F.RTC_CTRL_EN : Fld := ⟨R.RTC_CTRL, 0, 1⟩
def F.RTC_CTRL_ALARM_EN : Fld := ⟨R.RTC_CTRL, 1, 1⟩
def F.RTC_CTRL_PERIOD_EN : Fld := ⟨R.RTC_CTRL, 2, 1⟩
def R.RTC_CAL : Nat := 0x10009054
def F.RTC_CAL_CAL : Fld := ⟨R.RTC_CAL, 0, 16⟩
def R.RTC_STAT : Nat := 0x10009058
def F.RTC_STAT_VALID : Fld := ⟨R.RTC_STAT, 0, 1⟩
def F.RTC_STAT_ALARM : Fld := ⟨R.RTC_STAT, 1, 1⟩
def F.RTC_STAT_PERIOD : Fld := ⟨R.RTC_STAT, 2, 1⟩
def R.RTC_PERIOD : Nat := 0x1000905C
def F.RTC_PERIOD_SHIFT : Fld := ⟨R.RTC_PERIOD, 0, 5⟩
def R.RTC_WAKE_STAMP : Nat := 0x10009060
def F.RTC_WAKE_STAMP_STAMP : Fld := ⟨R.RTC_WAKE_STAMP, 0, 64⟩
def R.RTC_TAMPER_STAMP : Nat := 0x10009068
def F.RTC_TAMPER_STAMP_STAMP : Fld := ⟨R.RTC_TAMPER_STAMP, 0, 64⟩
def R.SYSCFG_CHIP_ID : Nat := 0x10000040
def F.SYSCFG_CHIP_ID_PART : Fld := ⟨R.SYSCFG_CHIP_ID, 16, 16⟩
def F.SYSCFG_CHIP_ID_DRAM : Fld := ⟨R.SYSCFG_CHIP_ID, 8, 8⟩
def F.SYSCFG_CHIP_ID_STEPPING : Fld := ⟨R.SYSCFG_CHIP_ID, 0, 8⟩
def R.SYSCFG_MODE : Nat := 0x10000044
def F.SYSCFG_MODE_GUARDED : Fld := ⟨R.SYSCFG_MODE, 0, 1⟩
def F.SYSCFG_MODE_FUSE_FORCED : Fld := ⟨R.SYSCFG_MODE, 1, 1⟩
def F.SYSCFG_MODE_STRAP : Fld := ⟨R.SYSCFG_MODE, 2, 1⟩
def R.SYSCFG_LIFECYCLE : Nat := 0x10000048
def F.SYSCFG_LIFECYCLE_STATE : Fld := ⟨R.SYSCFG_LIFECYCLE, 0, 2⟩
def F.SYSCFG_LIFECYCLE_PENDING : Fld := ⟨R.SYSCFG_LIFECYCLE, 8, 2⟩
def R.SYSCFG_LIFECYCLE_REQ : Nat := 0x1000004C
def F.SYSCFG_LIFECYCLE_REQ_CODE : Fld := ⟨R.SYSCFG_LIFECYCLE_REQ, 0, 8⟩
def R.SYSCFG_RESET_REQ : Nat := 0x10000050
def F.SYSCFG_RESET_REQ_KEY : Fld := ⟨R.SYSCFG_RESET_REQ, 0, 16⟩
def R.SYSCFG_RESET_CAUSE : Nat := 0x10000054
def F.SYSCFG_RESET_CAUSE_CAUSE : Fld := ⟨R.SYSCFG_RESET_CAUSE, 0, 9⟩
def R.SYSCFG_HART_RELEASE (n : Nat) : Nat := 0x10000060 + 4 * n
def F.SYSCFG_HART_RELEASE_ADDR (n : Nat) : Fld := ⟨R.SYSCFG_HART_RELEASE n, 0, 32⟩
def R.SYSCFG_UID (n : Nat) : Nat := 0x10000070 + 4 * n
def F.SYSCFG_UID_UID (n : Nat) : Fld := ⟨R.SYSCFG_UID n, 0, 32⟩
def R.SYSCFG_UNLOCK_CTRL : Nat := 0x10000080
def F.SYSCFG_UNLOCK_CTRL_CHALLENGE : Fld := ⟨R.SYSCFG_UNLOCK_CTRL, 0, 1⟩
def F.SYSCFG_UNLOCK_CTRL_SUBMIT : Fld := ⟨R.SYSCFG_UNLOCK_CTRL, 1, 1⟩
def F.SYSCFG_UNLOCK_CTRL_SCOPE : Fld := ⟨R.SYSCFG_UNLOCK_CTRL, 8, 3⟩
def R.SYSCFG_UNLOCK_STAT : Nat := 0x10000084
def F.SYSCFG_UNLOCK_STAT_STATE : Fld := ⟨R.SYSCFG_UNLOCK_STAT, 0, 3⟩
def F.SYSCFG_UNLOCK_STAT_GRANTED : Fld := ⟨R.SYSCFG_UNLOCK_STAT, 8, 3⟩
def F.SYSCFG_UNLOCK_STAT_REFUSALS : Fld := ⟨R.SYSCFG_UNLOCK_STAT, 16, 8⟩
def R.SYSCFG_UNLOCK_CHAL (n : Nat) : Nat := 0x100000A0 + 4 * n
def F.SYSCFG_UNLOCK_CHAL_CHAL (n : Nat) : Fld := ⟨R.SYSCFG_UNLOCK_CHAL n, 0, 32⟩
def R.SYSCFG_UNLOCK_KEY (n : Nat) : Nat := 0x100000C0 + 4 * n
def F.SYSCFG_UNLOCK_KEY_KEY (n : Nat) : Fld := ⟨R.SYSCFG_UNLOCK_KEY n, 0, 32⟩
def R.SYSCFG_UNLOCK_SIG (n : Nat) : Nat := 0x10000100 + 4 * n
def F.SYSCFG_UNLOCK_SIG_SIG (n : Nat) : Fld := ⟨R.SYSCFG_UNLOCK_SIG n, 0, 32⟩
def R.SYSCFG_DEBUG_EN : Nat := 0x10000140
def F.SYSCFG_DEBUG_EN_HART_DEBUG : Fld := ⟨R.SYSCFG_DEBUG_EN, 0, 1⟩
def F.SYSCFG_DEBUG_EN_SCREE : Fld := ⟨R.SYSCFG_DEBUG_EN, 1, 1⟩
def F.SYSCFG_DEBUG_EN_RMA : Fld := ⟨R.SYSCFG_DEBUG_EN, 2, 1⟩
def R.BOOT_STRAP : Nat := 0x10003040
def F.BOOT_STRAP_GUARD : Fld := ⟨R.BOOT_STRAP, 0, 1⟩
def F.BOOT_STRAP_BOOTSEL : Fld := ⟨R.BOOT_STRAP, 1, 2⟩
def F.BOOT_STRAP_UNSTABLE : Fld := ⟨R.BOOT_STRAP, 3, 1⟩
def F.BOOT_STRAP_LATCHED : Fld := ⟨R.BOOT_STRAP, 4, 1⟩
def F.BOOT_STRAP_MODE_USED : Fld := ⟨R.BOOT_STRAP, 5, 2⟩
def F.BOOT_STRAP_FALLBACK : Fld := ⟨R.BOOT_STRAP, 7, 1⟩
def R.BOOT_STATUS : Nat := 0x10003044
def F.BOOT_STATUS_DONE : Fld := ⟨R.BOOT_STATUS, 0, 1⟩
def F.BOOT_STATUS_SLOT : Fld := ⟨R.BOOT_STATUS, 1, 1⟩
def F.BOOT_STATUS_AUTH : Fld := ⟨R.BOOT_STATUS, 2, 2⟩
def F.BOOT_STATUS_KEY_INDEX : Fld := ⟨R.BOOT_STATUS, 4, 2⟩
def F.BOOT_STATUS_ENCRYPTED : Fld := ⟨R.BOOT_STATUS, 6, 1⟩
def F.BOOT_STATUS_RESUMED : Fld := ⟨R.BOOT_STATUS, 7, 1⟩
def F.BOOT_STATUS_SNAP_REJECT : Fld := ⟨R.BOOT_STATUS, 8, 1⟩
def F.BOOT_STATUS_SVN : Fld := ⟨R.BOOT_STATUS, 16, 7⟩
def R.BOOT_FAILCODE : Nat := 0x10003048
def F.BOOT_FAILCODE_CODE : Fld := ⟨R.BOOT_FAILCODE, 0, 8⟩
def F.BOOT_FAILCODE_SLOT : Fld := ⟨R.BOOT_FAILCODE, 8, 1⟩
def R.BOOT_RETRY : Nat := 0x1000304C
def F.BOOT_RETRY_COUNT : Fld := ⟨R.BOOT_RETRY, 0, 16⟩
def F.BOOT_RETRY_SAT : Fld := ⟨R.BOOT_RETRY, 31, 1⟩
def R.BOOT_PREF : Nat := 0x10003050
def F.BOOT_PREF_SLOT : Fld := ⟨R.BOOT_PREF, 0, 1⟩
def R.BOOT_IMAGE_BUILD : Nat := 0x10003054
def F.BOOT_IMAGE_BUILD_BUILD : Fld := ⟨R.BOOT_IMAGE_BUILD, 0, 32⟩
def R.BOOT_OTP_SVN : Nat := 0x10003058
def F.BOOT_OTP_SVN_SVN : Fld := ⟨R.BOOT_OTP_SVN, 0, 7⟩
def R.BOOT_POLICY : Nat := 0x1000305C
def F.BOOT_POLICY_FORBID_LOADER : Fld := ⟨R.BOOT_POLICY, 0, 1⟩
def F.BOOT_POLICY_FORBID_USB : Fld := ⟨R.BOOT_POLICY, 1, 1⟩
def F.BOOT_POLICY_FORBID_TETHER : Fld := ⟨R.BOOT_POLICY, 2, 1⟩
def F.BOOT_POLICY_PINNED_ALLOWED : Fld := ⟨R.BOOT_POLICY, 3, 1⟩
def F.BOOT_POLICY_LOADER_BUS : Fld := ⟨R.BOOT_POLICY, 4, 1⟩
def F.BOOT_POLICY_ROTPK_SET : Fld := ⟨R.BOOT_POLICY, 8, 4⟩
def F.BOOT_POLICY_ROTPK_REVOKED : Fld := ⟨R.BOOT_POLICY, 12, 4⟩
def F.BOOT_POLICY_PINNED_SET : Fld := ⟨R.BOOT_POLICY, 16, 2⟩
def F.BOOT_POLICY_GUARDED_FUSE : Fld := ⟨R.BOOT_POLICY, 18, 1⟩
def R.BOOT_TIME : Nat := 0x10003060
def F.BOOT_TIME_US : Fld := ⟨R.BOOT_TIME, 0, 24⟩
def R.BOOT_RECOVERY : Nat := 0x10003064
def F.BOOT_RECOVERY_STATE : Fld := ⟨R.BOOT_RECOVERY, 0, 3⟩
def F.BOOT_RECOVERY_FAILCODE : Fld := ⟨R.BOOT_RECOVERY, 8, 8⟩
def F.BOOT_RECOVERY_REFUSED : Fld := ⟨R.BOOT_RECOVERY, 16, 16⟩
def R.PITON_KEY_RLOCK : Nat := 0x10004040
def F.PITON_KEY_RLOCK_RLOCK : Fld := ⟨R.PITON_KEY_RLOCK, 0, 16⟩
def R.PITON_KEY_ULOCK : Nat := 0x10004044
def F.PITON_KEY_ULOCK_ULOCK : Fld := ⟨R.PITON_KEY_ULOCK, 0, 16⟩
def R.PITON_PAGE_LOCK (n : Nat) : Nat := 0x10004048 + 4 * n
def F.PITON_PAGE_LOCK_LOCK (n : Nat) : Fld := ⟨R.PITON_PAGE_LOCK n, 0, 32⟩
def R.PITON_SCREE_LOCK : Nat := 0x10004054
def F.PITON_SCREE_LOCK_LOCK : Fld := ⟨R.PITON_SCREE_LOCK, 0, 1⟩
def R.PITON_FUSE_WIN : Nat := 0x10004058
def F.PITON_FUSE_WIN_CLOSED : Fld := ⟨R.PITON_FUSE_WIN, 0, 1⟩
def R.PITON_DEBUG_LOCK : Nat := 0x1000405C
def F.PITON_DEBUG_LOCK_LOCK : Fld := ⟨R.PITON_DEBUG_LOCK, 0, 1⟩
def R.PITON_OTP_LOCK : Nat := 0x10004060
def F.PITON_OTP_LOCK_LOCK : Fld := ⟨R.PITON_OTP_LOCK, 0, 1⟩
def R.PITON_STAT : Nat := 0x10004064
def F.PITON_STAT_PAGES : Fld := ⟨R.PITON_STAT, 0, 7⟩
def F.PITON_STAT_FIRST_STAGE_DONE : Fld := ⟨R.PITON_STAT, 8, 1⟩
def R.OSPI_CFG : Nat := 0x10100040
def F.OSPI_CFG_PROTO : Fld := ⟨R.OSPI_CFG, 0, 2⟩
def F.OSPI_CFG_CMD16 : Fld := ⟨R.OSPI_CFG, 2, 1⟩
def F.OSPI_CFG_DQS_EN : Fld := ⟨R.OSPI_CFG, 3, 1⟩
def F.OSPI_CFG_SAMPLE : Fld := ⟨R.OSPI_CFG, 4, 3⟩
def F.OSPI_CFG_DIV : Fld := ⟨R.OSPI_CFG, 8, 8⟩
def R.OSPI_SIZE : Nat := 0x10100044
def F.OSPI_SIZE_LOG2 : Fld := ⟨R.OSPI_SIZE, 0, 5⟩
def R.OSPI_XIP : Nat := 0x10100048
def F.OSPI_XIP_EN : Fld := ⟨R.OSPI_XIP, 0, 1⟩
def F.OSPI_XIP_ADDR4 : Fld := ⟨R.OSPI_XIP, 1, 1⟩
def F.OSPI_XIP_READ_OP : Fld := ⟨R.OSPI_XIP, 8, 8⟩
def F.OSPI_XIP_DUMMY : Fld := ⟨R.OSPI_XIP, 16, 5⟩
def R.OSPI_WREN : Nat := 0x1010004C
def F.OSPI_WREN_OP : Fld := ⟨R.OSPI_WREN, 0, 8⟩
def R.OSPI_CMD : Nat := 0x10100050
def F.OSPI_CMD_OP : Fld := ⟨R.OSPI_CMD, 0, 8⟩
def F.OSPI_CMD_ADDR_EN : Fld := ⟨R.OSPI_CMD, 8, 1⟩
def F.OSPI_CMD_ADDR4 : Fld := ⟨R.OSPI_CMD, 9, 1⟩
def F.OSPI_CMD_WRITE : Fld := ⟨R.OSPI_CMD, 10, 1⟩
def F.OSPI_CMD_POLL : Fld := ⟨R.OSPI_CMD, 11, 1⟩
def F.OSPI_CMD_DUMMY : Fld := ⟨R.OSPI_CMD, 16, 5⟩
def F.OSPI_CMD_GO : Fld := ⟨R.OSPI_CMD, 31, 1⟩
def R.OSPI_ADDR : Nat := 0x10100054
def F.OSPI_ADDR_ADDR : Fld := ⟨R.OSPI_ADDR, 0, 32⟩
def R.OSPI_LEN : Nat := 0x10100058
def F.OSPI_LEN_LEN : Fld := ⟨R.OSPI_LEN, 0, 9⟩
def R.OSPI_STAT : Nat := 0x1010005C
def F.OSPI_STAT_BUSY : Fld := ⟨R.OSPI_STAT, 0, 1⟩
def F.OSPI_STAT_DONE : Fld := ⟨R.OSPI_STAT, 1, 1⟩
def F.OSPI_STAT_TIMEOUT : Fld := ⟨R.OSPI_STAT, 2, 1⟩
def F.OSPI_STAT_XIP_WAIT : Fld := ⟨R.OSPI_STAT, 3, 1⟩
def F.OSPI_STAT_STATUS : Fld := ⟨R.OSPI_STAT, 8, 8⟩
def R.OSPI_POLL : Nat := 0x10100060
def F.OSPI_POLL_OP : Fld := ⟨R.OSPI_POLL, 0, 8⟩
def F.OSPI_POLL_MASK : Fld := ⟨R.OSPI_POLL, 8, 8⟩
def F.OSPI_POLL_MATCH : Fld := ⟨R.OSPI_POLL, 16, 8⟩
def F.OSPI_POLL_GAP : Fld := ⟨R.OSPI_POLL, 24, 8⟩
def R.OSPI_TIMEOUT : Nat := 0x10100064
def F.OSPI_TIMEOUT_US : Fld := ⟨R.OSPI_TIMEOUT, 0, 24⟩
def R.OSPI_HEDDLE : Nat := 0x10100068
def F.OSPI_HEDDLE_PROG_OP : Fld := ⟨R.OSPI_HEDDLE, 0, 8⟩
def F.OSPI_HEDDLE_PAGE_LOG2 : Fld := ⟨R.OSPI_HEDDLE, 8, 4⟩
def R.OSPI_RESET : Nat := 0x1010006C
def F.OSPI_RESET_PULSE : Fld := ⟨R.OSPI_RESET, 0, 1⟩
def R.OSPI_ERR : Nat := 0x10100070
def F.OSPI_ERR_COUNT : Fld := ⟨R.OSPI_ERR, 0, 16⟩
def F.OSPI_ERR_SAT : Fld := ⟨R.OSPI_ERR, 31, 1⟩
def F.OSPI_ERR_LAST_DETAIL : Fld := ⟨R.OSPI_ERR, 16, 4⟩
def R.OSPI_DATA (n : Nat) : Nat := 0x10100100 + 4 * n
def F.OSPI_DATA_DATA (n : Nat) : Fld := ⟨R.OSPI_DATA n, 0, 32⟩
def R.REED_CTRL : Nat := 0x10010040
def F.REED_CTRL_STEP : Fld := ⟨R.REED_CTRL, 0, 1⟩
def F.REED_CTRL_FREE_AT_NOM : Fld := ⟨R.REED_CTRL, 1, 1⟩
def R.REED_SRC : Nat := 0x10010044
def F.REED_SRC_SRC : Fld := ⟨R.REED_SRC, 0, 2⟩
def R.REED_ZC : Nat := 0x10010048
def F.REED_ZC_EDGE : Fld := ⟨R.REED_ZC, 0, 1⟩
def F.REED_ZC_FILT : Fld := ⟨R.REED_ZC, 4, 11⟩
def F.REED_ZC_EDGE_ANGLE : Fld := ⟨R.REED_ZC, 16, 16⟩
def R.REED_ENC : Nat := 0x1001004C
def F.REED_ENC_CPT : Fld := ⟨R.REED_ENC, 0, 16⟩
def F.REED_ENC_DIR : Fld := ⟨R.REED_ENC, 16, 1⟩
def F.REED_ENC_Z_EN : Fld := ⟨R.REED_ENC, 17, 1⟩
def R.REED_ENC_POS : Nat := 0x10010050
def F.REED_ENC_POS_POS : Fld := ⟨R.REED_ENC_POS, 0, 16⟩
def F.REED_ENC_POS_REVERSE : Fld := ⟨R.REED_ENC_POS, 31, 1⟩
def R.REED_PTP_PERIOD : Nat := 0x10010054
def F.REED_PTP_PERIOD_PERIOD : Fld := ⟨R.REED_PTP_PERIOD, 0, 30⟩
def R.REED_PTP_OFFSET : Nat := 0x10010058
def F.REED_PTP_OFFSET_OFFSET : Fld := ⟨R.REED_PTP_OFFSET, 0, 30⟩
def R.REED_NOMINAL : Nat := 0x1001005C
def F.REED_NOMINAL_NOM : Fld := ⟨R.REED_NOMINAL, 0, 21⟩
def R.REED_HOLD : Nat := 0x10010060
def F.REED_HOLD_CYCLES : Fld := ⟨R.REED_HOLD, 0, 8⟩
def R.REED_COMB : Nat := 0x10010064
def F.REED_COMB_EN : Fld := ⟨R.REED_COMB, 0, 1⟩
def F.REED_COMB_ADC : Fld := ⟨R.REED_COMB, 1, 2⟩
def F.REED_COMB_N : Fld := ⟨R.REED_COMB, 4, 11⟩
def F.REED_COMB_OFFSET : Fld := ⟨R.REED_COMB, 16, 16⟩
def R.REED_STATE : Nat := 0x10010068
def F.REED_STATE_STATE : Fld := ⟨R.REED_STATE, 0, 3⟩
def F.REED_STATE_LOCK_RUN : Fld := ⟨R.REED_STATE, 4, 4⟩
def F.REED_STATE_HOLD_LEFT : Fld := ⟨R.REED_STATE, 8, 8⟩
def F.REED_STATE_VALID : Fld := ⟨R.REED_STATE, 16, 1⟩
def R.REED_NOW : Nat := 0x1001006C
def F.REED_NOW_PHASE : Fld := ⟨R.REED_NOW, 0, 32⟩
def R.REED_PERIOD : Nat := 0x10010070
def F.REED_PERIOD_T : Fld := ⟨R.REED_PERIOD, 0, 32⟩
def R.REED_INC : Nat := 0x10010074
def F.REED_INC_INC : Fld := ⟨R.REED_INC, 0, 32⟩
def R.REED_ERR : Nat := 0x10010078
def F.REED_ERR_LAST : Fld := ⟨R.REED_ERR, 0, 16⟩
def F.REED_ERR_MAX : Fld := ⟨R.REED_ERR, 16, 16⟩
def R.REED_COUNTS : Nat := 0x1001007C
def F.REED_COUNTS_GLITCH : Fld := ⟨R.REED_COUNTS, 0, 15⟩
def F.REED_COUNTS_GSAT : Fld := ⟨R.REED_COUNTS, 15, 1⟩
def F.REED_COUNTS_RELOCK : Fld := ⟨R.REED_COUNTS, 16, 15⟩
def F.REED_COUNTS_RSAT : Fld := ⟨R.REED_COUNTS, 31, 1⟩
def R.REED_EDGE_STAMP : Nat := 0x10010080
def F.REED_EDGE_STAMP_PHASE : Fld := ⟨R.REED_EDGE_STAMP, 0, 32⟩
def R.REED_SLOT_ARMED (n : Nat) : Nat := 0x10010090 + 4 * n
def F.REED_SLOT_ARMED_ARMED (n : Nat) : Fld := ⟨R.REED_SLOT_ARMED n, 0, 32⟩
def R.REED_SLOT_FIRED (n : Nat) : Nat := 0x100100A0 + 4 * n
def F.REED_SLOT_FIRED_FIRED (n : Nat) : Fld := ⟨R.REED_SLOT_FIRED n, 0, 32⟩
def R.REED_SLOT_LATE (n : Nat) : Nat := 0x100100B0 + 4 * n
def F.REED_SLOT_LATE_LATE (n : Nat) : Fld := ⟨R.REED_SLOT_LATE n, 0, 32⟩
def R.REED_SLOT_A (n : Nat) : Nat := 0x10010400 + 8 * n
def F.REED_SLOT_A_ANGLE (n : Nat) : Fld := ⟨R.REED_SLOT_A n, 0, 16⟩
def F.REED_SLOT_A_DIV (n : Nat) : Fld := ⟨R.REED_SLOT_A n, 16, 16⟩
def R.REED_SLOT_B (n : Nat) : Nat := 0x10010404 + 8 * n
def F.REED_SLOT_B_ACTION (n : Nat) : Fld := ⟨R.REED_SLOT_B n, 0, 4⟩
def F.REED_SLOT_B_TARGET (n : Nat) : Fld := ⟨R.REED_SLOT_B n, 4, 12⟩
def F.REED_SLOT_B_SKIP (n : Nat) : Fld := ⟨R.REED_SLOT_B n, 16, 8⟩
def F.REED_SLOT_B_ONESHOT (n : Nat) : Fld := ⟨R.REED_SLOT_B n, 24, 1⟩
def F.REED_SLOT_B_ARM (n : Nat) : Fld := ⟨R.REED_SLOT_B n, 31, 1⟩
def R.L3_CFG : Nat := 0x10040040
def F.L3_CFG_SCRUB_EN : Fld := ⟨R.L3_CFG, 0, 1⟩
def F.L3_CFG_HEDDLE_ALLOC : Fld := ⟨R.L3_CFG, 1, 1⟩
def R.L3_HART_PART : Nat := 0x10040044
def F.L3_HART_PART_HART_0 : Fld := ⟨R.L3_HART_PART, 0, 3⟩
def F.L3_HART_PART_HART_1 : Fld := ⟨R.L3_HART_PART, 4, 3⟩
def F.L3_HART_PART_HART_2 : Fld := ⟨R.L3_HART_PART, 8, 3⟩
def F.L3_HART_PART_HART_3 : Fld := ⟨R.L3_HART_PART, 12, 3⟩
def R.L3_SCRUB : Nat := 0x10040048
def F.L3_SCRUB_INTERVAL : Fld := ⟨R.L3_SCRUB, 0, 12⟩
def R.L3_ECC_CE : Nat := 0x1004004C
def F.L3_ECC_CE_COUNT : Fld := ⟨R.L3_ECC_CE, 0, 16⟩
def F.L3_ECC_CE_SAT : Fld := ⟨R.L3_ECC_CE, 31, 1⟩
def R.L3_ECC_UE : Nat := 0x10040050
def F.L3_ECC_UE_COUNT : Fld := ⟨R.L3_ECC_UE, 0, 16⟩
def F.L3_ECC_UE_SAT : Fld := ⟨R.L3_ECC_UE, 31, 1⟩
def R.L3_ECC_ADDR : Nat := 0x10040058
def F.L3_ECC_ADDR_ADDR : Fld := ⟨R.L3_ECC_ADDR, 0, 40⟩
def F.L3_ECC_ADDR_WHERE : Fld := ⟨R.L3_ECC_ADDR, 40, 2⟩
def F.L3_ECC_ADDR_SLICE : Fld := ⟨R.L3_ECC_ADDR, 44, 1⟩
def F.L3_ECC_ADDR_VALID : Fld := ⟨R.L3_ECC_ADDR, 63, 1⟩
def R.L3_MAINT : Nat := 0x10040060
def F.L3_MAINT_OP : Fld := ⟨R.L3_MAINT, 0, 2⟩
def F.L3_MAINT_PART : Fld := ⟨R.L3_MAINT, 4, 3⟩
def F.L3_MAINT_BUSY : Fld := ⟨R.L3_MAINT, 8, 1⟩
def R.L3_PART_MASK (n : Nat) : Nat := 0x10040080 + 4 * n
def F.L3_PART_MASK_WAYS (n : Nat) : Fld := ⟨R.L3_PART_MASK n, 0, 16⟩
def R.DMC_CAP : Nat := 0x10041040
def F.DMC_CAP_VISIBLE_MIB : Fld := ⟨R.DMC_CAP, 0, 16⟩
def F.DMC_CAP_RAW_MIB : Fld := ⟨R.DMC_CAP, 16, 16⟩
def R.DMC_CTRL : Nat := 0x10041044
def F.DMC_CTRL_SCRUB_EN : Fld := ⟨R.DMC_CTRL, 0, 1⟩
def F.DMC_CTRL_PAGE_IDLE : Fld := ⟨R.DMC_CTRL, 4, 5⟩
def R.DMC_TEMP : Nat := 0x10041048
def F.DMC_TEMP_DIE_A : Fld := ⟨R.DMC_TEMP, 0, 8⟩
def F.DMC_TEMP_DIE_B : Fld := ⟨R.DMC_TEMP, 8, 8⟩
def F.DMC_TEMP_RATE : Fld := ⟨R.DMC_TEMP, 16, 2⟩
def F.DMC_TEMP_HOT : Fld := ⟨R.DMC_TEMP, 24, 1⟩
def R.DMC_REFRESH : Nat := 0x1004104C
def F.DMC_REFRESH_TREFIPB : Fld := ⟨R.DMC_REFRESH, 0, 16⟩
def F.DMC_REFRESH_TRFCPB : Fld := ⟨R.DMC_REFRESH, 16, 8⟩
def R.DMC_SCRUB : Nat := 0x10041050
def F.DMC_SCRUB_INTERVAL : Fld := ⟨R.DMC_SCRUB, 0, 12⟩
def R.DMC_SCRUB_POS : Nat := 0x10041054
def F.DMC_SCRUB_POS_LINE : Fld := ⟨R.DMC_SCRUB_POS, 0, 28⟩
def F.DMC_SCRUB_POS_WRAPPED : Fld := ⟨R.DMC_SCRUB_POS, 31, 1⟩
def R.DMC_ECC_CE : Nat := 0x10041058
def F.DMC_ECC_CE_COUNT : Fld := ⟨R.DMC_ECC_CE, 0, 16⟩
def F.DMC_ECC_CE_SAT : Fld := ⟨R.DMC_ECC_CE, 31, 1⟩
def R.DMC_ECC_UE : Nat := 0x1004105C
def F.DMC_ECC_UE_COUNT : Fld := ⟨R.DMC_ECC_UE, 0, 16⟩
def F.DMC_ECC_UE_SAT : Fld := ⟨R.DMC_ECC_UE, 31, 1⟩
def R.DMC_ECC_ADDR : Nat := 0x10041060
def F.DMC_ECC_ADDR_ADDR : Fld := ⟨R.DMC_ECC_ADDR, 0, 40⟩
def F.DMC_ECC_ADDR_SOURCE : Fld := ⟨R.DMC_ECC_ADDR, 60, 2⟩
def F.DMC_ECC_ADDR_VALID : Fld := ⟨R.DMC_ECC_ADDR, 63, 1⟩
def R.DMC_ECC_SYN : Nat := 0x10041068
def F.DMC_ECC_SYN_SYNDROME : Fld := ⟨R.DMC_ECC_SYN, 0, 8⟩
def F.DMC_ECC_SYN_CHANNEL : Fld := ⟨R.DMC_ECC_SYN, 8, 1⟩
def F.DMC_ECC_SYN_WORD : Fld := ⟨R.DMC_ECC_SYN, 9, 3⟩
def R.DMC_QOS : Nat := 0x1004106C
def F.DMC_QOS_NORMAL_AGE : Fld := ⟨R.DMC_QOS, 0, 10⟩
def R.DMC_QUEUE_STAT : Nat := 0x10041070
def F.DMC_QUEUE_STAT_OCC_A : Fld := ⟨R.DMC_QUEUE_STAT, 0, 8⟩
def F.DMC_QUEUE_STAT_OCC_B : Fld := ⟨R.DMC_QUEUE_STAT, 8, 8⟩
def F.DMC_QUEUE_STAT_GUAR_A : Fld := ⟨R.DMC_QUEUE_STAT, 16, 8⟩
def F.DMC_QUEUE_STAT_GUAR_B : Fld := ⟨R.DMC_QUEUE_STAT, 24, 8⟩
def R.DMC_SELFREF : Nat := 0x10041074
def F.DMC_SELFREF_IN_SR : Fld := ⟨R.DMC_SELFREF, 0, 1⟩
def F.DMC_SELFREF_ENTRIES : Fld := ⟨R.DMC_SELFREF, 16, 15⟩
def F.DMC_SELFREF_SAT : Fld := ⟨R.DMC_SELFREF, 31, 1⟩
def R.DMC_CHAN_STAT : Nat := 0x10041078
def F.DMC_CHAN_STAT_TRAINED : Fld := ⟨R.DMC_CHAN_STAT, 0, 2⟩
def F.DMC_CHAN_STAT_CBC_DIRTY : Fld := ⟨R.DMC_CHAN_STAT, 2, 1⟩
def R.MRAMC_CFG : Nat := 0x10042040
def F.MRAMC_CFG_WP_EN : Fld := ⟨R.MRAMC_CFG, 0, 1⟩
def R.MRAMC_QUEUE : Nat := 0x10042044
def F.MRAMC_QUEUE_WORDS : Fld := ⟨R.MRAMC_QUEUE, 0, 10⟩
def F.MRAMC_QUEUE_CLOSED : Fld := ⟨R.MRAMC_QUEUE, 16, 1⟩
def F.MRAMC_QUEUE_DRAINING : Fld := ⟨R.MRAMC_QUEUE, 17, 1⟩
def R.MRAMC_ECC_CE : Nat := 0x10042048
def F.MRAMC_ECC_CE_COUNT : Fld := ⟨R.MRAMC_ECC_CE, 0, 16⟩
def F.MRAMC_ECC_CE_SAT : Fld := ⟨R.MRAMC_ECC_CE, 31, 1⟩
def R.MRAMC_ECC_UE : Nat := 0x1004204C
def F.MRAMC_ECC_UE_COUNT : Fld := ⟨R.MRAMC_ECC_UE, 0, 16⟩
def F.MRAMC_ECC_UE_SAT : Fld := ⟨R.MRAMC_ECC_UE, 31, 1⟩
def R.MRAMC_WP_BASE : Nat := 0x10042050
def F.MRAMC_WP_BASE_BASE : Fld := ⟨R.MRAMC_WP_BASE, 12, 12⟩
def R.MRAMC_WP_LIMIT : Nat := 0x10042054
def F.MRAMC_WP_LIMIT_LIMIT : Fld := ⟨R.MRAMC_WP_LIMIT, 12, 12⟩
def R.LOOM_CTRL : Nat := 0x10020040
def F.LOOM_CTRL_AGING : Fld := ⟨R.LOOM_CTRL, 0, 1⟩
def R.LOOM_IMAGE_BASE : Nat := 0x10020048
def F.LOOM_IMAGE_BASE_ADDR : Fld := ⟨R.LOOM_IMAGE_BASE, 6, 34⟩
def R.LOOM_COMMIT : Nat := 0x10020050
def F.LOOM_COMMIT_GO : Fld := ⟨R.LOOM_COMMIT, 0, 1⟩
def R.LOOM_COMMIT_STAT : Nat := 0x10020054
def F.LOOM_COMMIT_STAT_STATE : Fld := ⟨R.LOOM_COMMIT_STAT, 0, 2⟩
def F.LOOM_COMMIT_STAT_LAST_REASON : Fld := ⟨R.LOOM_COMMIT_STAT, 8, 7⟩
def R.LOOM_LIVE_TAG : Nat := 0x10020058
def F.LOOM_LIVE_TAG_TAG : Fld := ⟨R.LOOM_LIVE_TAG, 0, 32⟩
def R.LOOM_ADMIT : Nat := 0x1002005C
def F.LOOM_ADMIT_HOTSAFE : Fld := ⟨R.LOOM_ADMIT, 0, 1⟩
def R.LOOM_ROUND : Nat := 0x10020060
def F.LOOM_ROUND_PICK : Fld := ⟨R.LOOM_ROUND, 0, 8⟩
def F.LOOM_ROUND_ROUND : Fld := ⟨R.LOOM_ROUND, 8, 24⟩
def R.LOOM_PICK_PHASE : Nat := 0x10020064
def F.LOOM_PICK_PHASE_PHASE : Fld := ⟨R.LOOM_PICK_PHASE, 0, 32⟩
def R.LOOM_DRAM_PICKS : Nat := 0x10020068
def F.LOOM_DRAM_PICKS_ALL : Fld := ⟨R.LOOM_DRAM_PICKS, 0, 10⟩
def F.LOOM_DRAM_PICKS_PROT : Fld := ⟨R.LOOM_DRAM_PICKS, 16, 10⟩
def R.LOOM_SHED : Nat := 0x1002006C
def F.LOOM_SHED_ACTIVE : Fld := ⟨R.LOOM_SHED, 0, 1⟩
def F.LOOM_SHED_K : Fld := ⟨R.LOOM_SHED, 8, 9⟩
def F.LOOM_SHED_RELEASED : Fld := ⟨R.LOOM_SHED, 20, 12⟩
def R.LOOM_TIMEOUT : Nat := 0x10020070
def F.LOOM_TIMEOUT_COUNT : Fld := ⟨R.LOOM_TIMEOUT, 0, 16⟩
def F.LOOM_TIMEOUT_SAT : Fld := ⟨R.LOOM_TIMEOUT, 31, 1⟩
def F.LOOM_TIMEOUT_LAST_NI : Fld := ⟨R.LOOM_TIMEOUT, 16, 4⟩
def R.LOOM_ECC_CE : Nat := 0x10020074
def F.LOOM_ECC_CE_COUNT : Fld := ⟨R.LOOM_ECC_CE, 0, 16⟩
def F.LOOM_ECC_CE_SAT : Fld := ⟨R.LOOM_ECC_CE, 31, 1⟩
def R.LOOM_ECC_UE : Nat := 0x10020078
def F.LOOM_ECC_UE_COUNT : Fld := ⟨R.LOOM_ECC_UE, 0, 16⟩
def F.LOOM_ECC_UE_SAT : Fld := ⟨R.LOOM_ECC_UE, 31, 1⟩
def R.LOOM_ECC_WHERE : Nat := 0x1002007C
def F.LOOM_ECC_WHERE_ROUTER : Fld := ⟨R.LOOM_ECC_WHERE, 0, 4⟩
def F.LOOM_ECC_WHERE_PLANE : Fld := ⟨R.LOOM_ECC_WHERE, 4, 2⟩
def F.LOOM_ECC_WHERE_VALID : Fld := ⟨R.LOOM_ECC_WHERE, 31, 1⟩
def R.LOOM_RES_PICKS (n : Nat) : Nat := 0x10020400 + 4 * n
def F.LOOM_RES_PICKS_PICKS (n : Nat) : Fld := ⟨R.LOOM_RES_PICKS n, 0, 9⟩
def F.LOOM_RES_PICKS_G (n : Nat) : Fld := ⟨R.LOOM_RES_PICKS n, 12, 4⟩
def F.LOOM_RES_PICKS_DRAM (n : Nat) : Fld := ⟨R.LOOM_RES_PICKS n, 16, 1⟩
def F.LOOM_RES_PICKS_PROTECT (n : Nat) : Fld := ⟨R.LOOM_RES_PICKS n, 17, 1⟩
def F.LOOM_RES_PICKS_VALID (n : Nat) : Fld := ⟨R.LOOM_RES_PICKS n, 18, 1⟩
def R.LOOM_RES_SHED (n : Nat) : Nat := 0x10020500 + 4 * n
def F.LOOM_RES_SHED_COUNT (n : Nat) : Fld := ⟨R.LOOM_RES_SHED n, 0, 31⟩
def F.LOOM_RES_SHED_SAT (n : Nat) : Fld := ⟨R.LOOM_RES_SHED n, 31, 1⟩
def R.LOOM_NI_INFO (i : Nat) : Nat := 0x10021040 + 0x1000 * i
def F.LOOM_NI_INFO_NI (i : Nat) : Fld := ⟨R.LOOM_NI_INFO i, 0, 4⟩
def F.LOOM_NI_INFO_ROUTER (i : Nat) : Fld := ⟨R.LOOM_NI_INFO i, 4, 4⟩
def F.LOOM_NI_INFO_INITIATOR (i : Nat) : Fld := ⟨R.LOOM_NI_INFO i, 8, 1⟩
def F.LOOM_NI_INFO_TARGET (i : Nat) : Fld := ⟨R.LOOM_NI_INFO i, 9, 1⟩
def F.LOOM_NI_INFO_DEPTH (i : Nat) : Fld := ⟨R.LOOM_NI_INFO i, 16, 8⟩
def F.LOOM_NI_INFO_RESP_DEPTH (i : Nat) : Fld := ⟨R.LOOM_NI_INFO i, 24, 8⟩
def R.LOOM_NI_CFG (i : Nat) : Nat := 0x10021044 + 0x1000 * i
def F.LOOM_NI_CFG_PRIO (i : Nat) : Fld := ⟨R.LOOM_NI_CFG i, 0, 2⟩
def F.LOOM_NI_CFG_RES_BIND (i : Nat) : Fld := ⟨R.LOOM_NI_CFG i, 8, 6⟩
def F.LOOM_NI_CFG_BIND_EN (i : Nat) : Fld := ⟨R.LOOM_NI_CFG i, 15, 1⟩
def R.LOOM_NI_OUTSTANDING (i : Nat) : Nat := 0x10021048 + 0x1000 * i
def F.LOOM_NI_OUTSTANDING_OUT (i : Nat) : Fld := ⟨R.LOOM_NI_OUTSTANDING i, 0, 7⟩
def F.LOOM_NI_OUTSTANDING_GUAR (i : Nat) : Fld := ⟨R.LOOM_NI_OUTSTANDING i, 8, 7⟩
def R.LOOM_NI_ERR (i k : Nat) : Nat := 0x10021050 + 0x1000 * i + 4 * k
def F.LOOM_NI_ERR_COUNT (i k : Nat) : Fld := ⟨R.LOOM_NI_ERR i k, 0, 16⟩
def F.LOOM_NI_ERR_SAT (i k : Nat) : Fld := ⟨R.LOOM_NI_ERR i k, 31, 1⟩
def R.LOOM_NI_TOKEN (i t : Nat) : Nat := 0x10021080 + 0x1000 * i + 4 * t
def F.LOOM_NI_TOKEN_QUOTA (i t : Nat) : Fld := ⟨R.LOOM_NI_TOKEN i t, 0, 6⟩
def F.LOOM_NI_TOKEN_HELD (i t : Nat) : Fld := ⟨R.LOOM_NI_TOKEN i t, 8, 6⟩
def F.LOOM_NI_TOKEN_OUT (i t : Nat) : Fld := ⟨R.LOOM_NI_TOKEN i t, 16, 6⟩
def R.LOOM_NI_STAT_CFG (i : Nat) : Nat := 0x10021100 + 0x1000 * i
def F.LOOM_NI_STAT_CFG_EN (i : Nat) : Fld := ⟨R.LOOM_NI_STAT_CFG i, 0, 1⟩
def F.LOOM_NI_STAT_CFG_CLEAR (i : Nat) : Fld := ⟨R.LOOM_NI_STAT_CFG i, 1, 1⟩
def F.LOOM_NI_STAT_CFG_ROLE (i : Nat) : Fld := ⟨R.LOOM_NI_STAT_CFG i, 2, 1⟩
def F.LOOM_NI_STAT_CFG_GUAR_SEL (i : Nat) : Fld := ⟨R.LOOM_NI_STAT_CFG i, 3, 2⟩
def F.LOOM_NI_STAT_CFG_RES_EN (i : Nat) : Fld := ⟨R.LOOM_NI_STAT_CFG i, 5, 1⟩
def F.LOOM_NI_STAT_CFG_RES (i : Nat) : Fld := ⟨R.LOOM_NI_STAT_CFG i, 6, 6⟩
def F.LOOM_NI_STAT_CFG_HIST_SHIFT (i : Nat) : Fld := ⟨R.LOOM_NI_STAT_CFG i, 12, 4⟩
def F.LOOM_NI_STAT_CFG_PEER_MASK (i : Nat) : Fld := ⟨R.LOOM_NI_STAT_CFG i, 16, 16⟩
def F.LOOM_NI_STAT_CFG_LAT_OP (i : Nat) : Fld := ⟨R.LOOM_NI_STAT_CFG i, 32, 2⟩
def F.LOOM_NI_STAT_CFG_HIST_BASE (i : Nat) : Fld := ⟨R.LOOM_NI_STAT_CFG i, 48, 16⟩
def R.LOOM_NI_CNT (i k : Nat) : Nat := 0x10021140 + 0x1000 * i + 8 * k
def F.LOOM_NI_CNT_VALUE (i k : Nat) : Fld := ⟨R.LOOM_NI_CNT i k, 0, 48⟩
def F.LOOM_NI_CNT_IE (i k : Nat) : Fld := ⟨R.LOOM_NI_CNT i k, 62, 1⟩
def F.LOOM_NI_CNT_OF (i k : Nat) : Fld := ⟨R.LOOM_NI_CNT i k, 63, 1⟩
def R.LOOM_NI_CNT_5 (i : Nat) : Nat := 0x10021168 + 0x1000 * i
def F.LOOM_NI_CNT_5_LAT_SUM (i : Nat) : Fld := ⟨R.LOOM_NI_CNT_5 i, 0, 48⟩
def F.LOOM_NI_CNT_5_SAT (i : Nat) : Fld := ⟨R.LOOM_NI_CNT_5 i, 63, 1⟩
def R.LOOM_NI_CNT_6 (i : Nat) : Nat := 0x10021170 + 0x1000 * i
def F.LOOM_NI_CNT_6_LAT_MAX (i : Nat) : Fld := ⟨R.LOOM_NI_CNT_6 i, 0, 16⟩
def F.LOOM_NI_CNT_6_SAT (i : Nat) : Fld := ⟨R.LOOM_NI_CNT_6 i, 63, 1⟩
def R.LOOM_NI_HIST (i k : Nat) : Nat := 0x10021200 + 0x1000 * i + 8 * k
def F.LOOM_NI_HIST_COUNT (i k : Nat) : Fld := ⟨R.LOOM_NI_HIST i k, 0, 32⟩
def F.LOOM_NI_HIST_SAT (i k : Nat) : Fld := ⟨R.LOOM_NI_HIST i k, 63, 1⟩
def R.LOOM_PROBE_CTRL (i : Nat) : Nat := 0x10031040 + 0x1000 * i
def F.LOOM_PROBE_CTRL_ROUTER (i : Nat) : Fld := ⟨R.LOOM_PROBE_CTRL i, 0, 4⟩
def F.LOOM_PROBE_CTRL_PORT (i : Nat) : Fld := ⟨R.LOOM_PROBE_CTRL i, 4, 3⟩
def F.LOOM_PROBE_CTRL_PLANE (i : Nat) : Fld := ⟨R.LOOM_PROBE_CTRL i, 8, 2⟩
def F.LOOM_PROBE_CTRL_EVT_SEL_0 (i : Nat) : Fld := ⟨R.LOOM_PROBE_CTRL i, 12, 4⟩
def F.LOOM_PROBE_CTRL_EVT_SEL_1 (i : Nat) : Fld := ⟨R.LOOM_PROBE_CTRL i, 16, 4⟩
def F.LOOM_PROBE_CTRL_EVT_SEL_2 (i : Nat) : Fld := ⟨R.LOOM_PROBE_CTRL i, 20, 4⟩
def F.LOOM_PROBE_CTRL_EVT_SEL_3 (i : Nat) : Fld := ⟨R.LOOM_PROBE_CTRL i, 24, 4⟩
def F.LOOM_PROBE_CTRL_TRACE_EN (i : Nat) : Fld := ⟨R.LOOM_PROBE_CTRL i, 28, 1⟩
def F.LOOM_PROBE_CTRL_TRACE_WRAP (i : Nat) : Fld := ⟨R.LOOM_PROBE_CTRL i, 29, 1⟩
def R.LOOM_PROBE_TRIG (i : Nat) : Nat := 0x10031044 + 0x1000 * i
def F.LOOM_PROBE_TRIG_GATE_CH (i : Nat) : Fld := ⟨R.LOOM_PROBE_TRIG i, 0, 6⟩
def F.LOOM_PROBE_TRIG_GATE_EN (i : Nat) : Fld := ⟨R.LOOM_PROBE_TRIG i, 6, 1⟩
def F.LOOM_PROBE_TRIG_OUT_SEL (i : Nat) : Fld := ⟨R.LOOM_PROBE_TRIG i, 8, 2⟩
def R.LOOM_PROBE_TRACE_STAT (i : Nat) : Nat := 0x10031048 + 0x1000 * i
def F.LOOM_PROBE_TRACE_STAT_PTR (i : Nat) : Fld := ⟨R.LOOM_PROBE_TRACE_STAT i, 0, 7⟩
def F.LOOM_PROBE_TRACE_STAT_WRAPPED (i : Nat) : Fld := ⟨R.LOOM_PROBE_TRACE_STAT i, 8, 1⟩
def F.LOOM_PROBE_TRACE_STAT_STOPPED (i : Nat) : Fld := ⟨R.LOOM_PROBE_TRACE_STAT i, 9, 1⟩
def F.LOOM_PROBE_TRACE_STAT_SAT (i : Nat) : Fld := ⟨R.LOOM_PROBE_TRACE_STAT i, 10, 1⟩
def F.LOOM_PROBE_TRACE_STAT_LOST (i : Nat) : Fld := ⟨R.LOOM_PROBE_TRACE_STAT i, 16, 16⟩
def R.LOOM_PROBE_MATCH (i k : Nat) : Nat := 0x10031080 + 0x1000 * i + 8 * k
def F.LOOM_PROBE_MATCH_WORD (i k : Nat) : Fld := ⟨R.LOOM_PROBE_MATCH i k, 0, if k < 2 then 64 else 30⟩
def R.LOOM_PROBE_CNT (i k : Nat) : Nat := 0x10031100 + 0x1000 * i + 8 * k
def F.LOOM_PROBE_CNT_VALUE (i k : Nat) : Fld := ⟨R.LOOM_PROBE_CNT i k, 0, 48⟩
def F.LOOM_PROBE_CNT_IE (i k : Nat) : Fld := ⟨R.LOOM_PROBE_CNT i k, 62, 1⟩
def F.LOOM_PROBE_CNT_OF (i k : Nat) : Fld := ⟨R.LOOM_PROBE_CNT i k, 63, 1⟩
def R.LOOM_PROBE_TRACE (i n : Nat) : Nat := 0x10031800 + 0x1000 * i + 8 * n
def F.LOOM_PROBE_TRACE_record (i n : Nat) : Fld := ⟨R.LOOM_PROBE_TRACE i n, 0, 64⟩
def R.CAIRN_INFO : Nat := 0x10012040
def F.CAIRN_INFO_SOURCES : Fld := ⟨R.CAIRN_INFO, 0, 11⟩
def F.CAIRN_INFO_CONTEXTS : Fld := ⟨R.CAIRN_INFO, 16, 6⟩
def F.CAIRN_INFO_GEILEN : Fld := ⟨R.CAIRN_INFO, 24, 3⟩
def R.CAIRN_CTX_LINE (n : Nat) : Nat := 0x10012044 + 4 * n
def F.CAIRN_CTX_LINE_LINE (n : Nat) : Fld := ⟨R.CAIRN_CTX_LINE n, 0, 32⟩
def R.CAIRN_QUERY : Nat := 0x10012050
def F.CAIRN_QUERY_ID : Fld := ⟨R.CAIRN_QUERY, 0, 11⟩
def R.CAIRN_QUERY_STAT : Nat := 0x10012054
def F.CAIRN_QUERY_STAT_PENDING : Fld := ⟨R.CAIRN_QUERY_STAT, 0, 1⟩
def F.CAIRN_QUERY_STAT_ACTIVE : Fld := ⟨R.CAIRN_QUERY_STAT, 1, 1⟩
def F.CAIRN_QUERY_STAT_LEVEL_TYPE : Fld := ⟨R.CAIRN_QUERY_STAT, 2, 1⟩
def F.CAIRN_QUERY_STAT_INPUT : Fld := ⟨R.CAIRN_QUERY_STAT, 3, 1⟩
def F.CAIRN_QUERY_STAT_CLAIMER : Fld := ⟨R.CAIRN_QUERY_STAT, 8, 6⟩
def F.CAIRN_QUERY_STAT_PRIO : Fld := ⟨R.CAIRN_QUERY_STAT, 16, 5⟩
def R.CAIRN_COALESCE : Nat := 0x10012058
def F.CAIRN_COALESCE_COUNT : Fld := ⟨R.CAIRN_COALESCE, 0, 16⟩
def F.CAIRN_COALESCE_SAT : Fld := ⟨R.CAIRN_COALESCE, 31, 1⟩
def F.CAIRN_COALESCE_LAST_ID : Fld := ⟨R.CAIRN_COALESCE, 16, 11⟩
def R.CAIRN_RELEASE : Nat := 0x1001205C
def F.CAIRN_RELEASE_ID : Fld := ⟨R.CAIRN_RELEASE, 0, 11⟩
def F.CAIRN_RELEASE_CTX : Fld := ⟨R.CAIRN_RELEASE, 16, 6⟩
def F.CAIRN_RELEASE_ALL : Fld := ⟨R.CAIRN_RELEASE, 24, 1⟩
def R.CAIRN_WAKE : Nat := 0x10012060
def F.CAIRN_WAKE_WAKE : Fld := ⟨R.CAIRN_WAKE, 0, 4⟩
def R.CAIRN_ACTIVE (n : Nat) : Nat := 0x10012100 + 4 * n
def F.CAIRN_ACTIVE_ACTIVE (n : Nat) : Fld := ⟨R.CAIRN_ACTIVE n, 0, 32⟩
def R.SHUTTLE_PIN_LATCH : Nat := 0x10011040
def F.SHUTTLE_PIN_LATCH_LATCH : Fld := ⟨R.SHUTTLE_PIN_LATCH, 0, 16⟩
def R.SHUTTLE_PIN_SET : Nat := 0x10011044
def F.SHUTTLE_PIN_SET_SET : Fld := ⟨R.SHUTTLE_PIN_SET, 0, 16⟩
def R.SHUTTLE_PIN_STATE : Nat := 0x10011048
def F.SHUTTLE_PIN_STATE_STATE : Fld := ⟨R.SHUTTLE_PIN_STATE, 0, 16⟩
def R.SHUTTLE_PIN_FORCED : Nat := 0x1001104C
def F.SHUTTLE_PIN_FORCED_FORCED : Fld := ⟨R.SHUTTLE_PIN_FORCED, 0, 16⟩
def F.SHUTTLE_PIN_FORCED_CONFLICT : Fld := ⟨R.SHUTTLE_PIN_FORCED, 16, 16⟩
def R.SHUTTLE_SOFT : Nat := 0x10011050
def F.SHUTTLE_SOFT_SOFT : Fld := ⟨R.SHUTTLE_SOFT, 0, 8⟩
def R.SHUTTLE_OUT (n : Nat) : Nat := 0x10011060 + 4 * n
def F.SHUTTLE_OUT_OUT (n : Nat) : Fld := ⟨R.SHUTTLE_OUT n, 0, 32⟩
def R.SHUTTLE_HELD (n : Nat) : Nat := 0x10011068 + 4 * n
def F.SHUTTLE_HELD_HELD (n : Nat) : Fld := ⟨R.SHUTTLE_HELD n, 0, 32⟩
def R.SHUTTLE_CH_SEL (n : Nat) : Nat := 0x10011400 + 16 * n
def F.SHUTTLE_CH_SEL_PROD (n : Nat) : Fld := ⟨R.SHUTTLE_CH_SEL n, 0, 8⟩
def F.SHUTTLE_CH_SEL_GATE (n : Nat) : Fld := ⟨R.SHUTTLE_CH_SEL n, 8, 8⟩
def F.SHUTTLE_CH_SEL_GATE_EN (n : Nat) : Fld := ⟨R.SHUTTLE_CH_SEL n, 16, 1⟩
def F.SHUTTLE_CH_SEL_INV_P (n : Nat) : Fld := ⟨R.SHUTTLE_CH_SEL n, 17, 1⟩
def F.SHUTTLE_CH_SEL_INV_G (n : Nat) : Fld := ⟨R.SHUTTLE_CH_SEL n, 18, 1⟩
def F.SHUTTLE_CH_SEL_SENSE (n : Nat) : Fld := ⟨R.SHUTTLE_CH_SEL n, 19, 2⟩
def F.SHUTTLE_CH_SEL_UNCLOCKED (n : Nat) : Fld := ⟨R.SHUTTLE_CH_SEL n, 21, 1⟩
def F.SHUTTLE_CH_SEL_STRETCH (n : Nat) : Fld := ⟨R.SHUTTLE_CH_SEL n, 22, 8⟩
def F.SHUTTLE_CH_SEL_EN (n : Nat) : Fld := ⟨R.SHUTTLE_CH_SEL n, 31, 1⟩
def R.SHUTTLE_CH_PIN (n : Nat) : Nat := 0x10011404 + 16 * n
def F.SHUTTLE_CH_PIN_MASK (n : Nat) : Fld := ⟨R.SHUTTLE_CH_PIN n, 0, 16⟩
def F.SHUTTLE_CH_PIN_MODE (n : Nat) : Fld := ⟨R.SHUTTLE_CH_PIN n, 16, 3⟩
def F.SHUTTLE_CH_PIN_HOLD (n : Nat) : Fld := ⟨R.SHUTTLE_CH_PIN n, 19, 1⟩
def R.SHUTTLE_CH_CONS (n : Nat) : Nat := 0x10011408 + 16 * n
def F.SHUTTLE_CH_CONS_IRQ (n : Nat) : Fld := ⟨R.SHUTTLE_CH_CONS n, 0, 1⟩
def F.SHUTTLE_CH_CONS_ADC (n : Nat) : Fld := ⟨R.SHUTTLE_CH_CONS n, 1, 2⟩
def F.SHUTTLE_CH_CONS_KICK_EN (n : Nat) : Fld := ⟨R.SHUTTLE_CH_CONS n, 3, 1⟩
def F.SHUTTLE_CH_CONS_KICK (n : Nat) : Fld := ⟨R.SHUTTLE_CH_CONS n, 4, 12⟩
def R.TIMER_INFO : Nat := 0x10008040
def F.TIMER_INFO_TIMERS : Fld := ⟨R.TIMER_INFO, 0, 4⟩
def F.TIMER_INFO_HARTS : Fld := ⟨R.TIMER_INFO, 8, 4⟩
def R.TIMER_MTIP : Nat := 0x10008044
def F.TIMER_MTIP_MTIP : Fld := ⟨R.TIMER_MTIP, 0, 4⟩
def R.TIMER_MTIME : Nat := 0x10008048
def F.TIMER_MTIME_TICKS : Fld := ⟨R.TIMER_MTIME, 0, 64⟩
def R.TIMER_MTIMECMP (n : Nat) : Nat := 0x10008050 + 8 * n
def F.TIMER_MTIMECMP_CMP (n : Nat) : Fld := ⟨R.TIMER_MTIMECMP n, 0, 64⟩
def R.TIMER_START : Nat := 0x10008070
def F.TIMER_START_START : Fld := ⟨R.TIMER_START, 0, 8⟩
def R.TIMER_STOP : Nat := 0x10008074
def F.TIMER_STOP_STOP : Fld := ⟨R.TIMER_STOP, 0, 8⟩
def R.TIMER_RUNNING : Nat := 0x10008078
def F.TIMER_RUNNING_RUNNING : Fld := ⟨R.TIMER_RUNNING, 0, 8⟩
def R.TIMER_OUT : Nat := 0x1000807C
def F.TIMER_OUT_OUT : Fld := ⟨R.TIMER_OUT, 0, 8⟩
def R.TIMER_CTRL (n : Nat) : Nat := 0x10008080 + 16 * n
def F.TIMER_CTRL_EN (n : Nat) : Fld := ⟨R.TIMER_CTRL n, 0, 1⟩
def F.TIMER_CTRL_ONESHOT (n : Nat) : Fld := ⟨R.TIMER_CTRL n, 1, 1⟩
def F.TIMER_CTRL_OUT (n : Nat) : Fld := ⟨R.TIMER_CTRL n, 2, 2⟩
def F.TIMER_CTRL_IRQ_EN (n : Nat) : Fld := ⟨R.TIMER_CTRL n, 4, 1⟩
def F.TIMER_CTRL_START_EN (n : Nat) : Fld := ⟨R.TIMER_CTRL n, 5, 1⟩
def F.TIMER_CTRL_START_CH (n : Nat) : Fld := ⟨R.TIMER_CTRL n, 8, 6⟩
def F.TIMER_CTRL_PRESCALE (n : Nat) : Fld := ⟨R.TIMER_CTRL n, 16, 16⟩
def R.TIMER_PERIOD (n : Nat) : Nat := 0x10008084 + 16 * n
def F.TIMER_PERIOD_PERIOD (n : Nat) : Fld := ⟨R.TIMER_PERIOD n, 0, 32⟩
def R.TIMER_DUTY (n : Nat) : Nat := 0x10008088 + 16 * n
def F.TIMER_DUTY_DUTY (n : Nat) : Fld := ⟨R.TIMER_DUTY n, 0, 32⟩
def R.TIMER_COUNT (n : Nat) : Nat := 0x1000808C + 16 * n
def F.TIMER_COUNT_COUNT (n : Nat) : Fld := ⟨R.TIMER_COUNT n, 0, 32⟩
def R.HEDDLE_INFO : Nat := 0x10050040
def F.HEDDLE_INFO_CHANNELS : Fld := ⟨R.HEDDLE_INFO, 0, 13⟩
def F.HEDDLE_INFO_CQS : Fld := ⟨R.HEDDLE_INFO, 16, 11⟩
def R.HEDDLE_CFG : Nat := 0x10050044
def F.HEDDLE_CFG_CH_OUT_MAX : Fld := ⟨R.HEDDLE_CFG, 0, 7⟩
def R.HEDDLE_CHT_BASE : Nat := 0x10050048
def F.HEDDLE_CHT_BASE_ADDR : Fld := ⟨R.HEDDLE_CHT_BASE, 12, 28⟩
def R.HEDDLE_CQT_BASE : Nat := 0x10050050
def F.HEDDLE_CQT_BASE_ADDR : Fld := ⟨R.HEDDLE_CQT_BASE, 12, 28⟩
def R.HEDDLE_CHC_INV : Nat := 0x10050058
def F.HEDDLE_CHC_INV_CH : Fld := ⟨R.HEDDLE_CHC_INV, 0, 12⟩
def F.HEDDLE_CHC_INV_ALL : Fld := ⟨R.HEDDLE_CHC_INV, 16, 1⟩
def F.HEDDLE_CHC_INV_GO : Fld := ⟨R.HEDDLE_CHC_INV, 24, 1⟩
def F.HEDDLE_CHC_INV_BUSY : Fld := ⟨R.HEDDLE_CHC_INV, 31, 1⟩
def R.HEDDLE_IOTLB_INV : Nat := 0x10050060
def F.HEDDLE_IOTLB_INV_INST : Fld := ⟨R.HEDDLE_IOTLB_INV, 0, 5⟩
def F.HEDDLE_IOTLB_INV_PAGE : Fld := ⟨R.HEDDLE_IOTLB_INV, 8, 1⟩
def F.HEDDLE_IOTLB_INV_GO : Fld := ⟨R.HEDDLE_IOTLB_INV, 9, 1⟩
def F.HEDDLE_IOTLB_INV_BUSY : Fld := ⟨R.HEDDLE_IOTLB_INV, 10, 1⟩
def F.HEDDLE_IOTLB_INV_GPA : Fld := ⟨R.HEDDLE_IOTLB_INV, 12, 38⟩
def R.HEDDLE_FAULT_ADDR : Nat := 0x10050068
def F.HEDDLE_FAULT_ADDR_ADDR : Fld := ⟨R.HEDDLE_FAULT_ADDR, 0, 50⟩
def R.HEDDLE_FAULT_INFO : Nat := 0x10050070
def F.HEDDLE_FAULT_INFO_CH : Fld := ⟨R.HEDDLE_FAULT_INFO, 0, 12⟩
def F.HEDDLE_FAULT_INFO_INST : Fld := ⟨R.HEDDLE_FAULT_INFO, 16, 5⟩
def F.HEDDLE_FAULT_INFO_WHICH : Fld := ⟨R.HEDDLE_FAULT_INFO, 24, 2⟩
def F.HEDDLE_FAULT_INFO_VALID : Fld := ⟨R.HEDDLE_FAULT_INFO, 31, 1⟩
def R.HEDDLE_CRC_ERR : Nat := 0x10050074
def F.HEDDLE_CRC_ERR_COUNT : Fld := ⟨R.HEDDLE_CRC_ERR, 0, 16⟩
def F.HEDDLE_CRC_ERR_SAT : Fld := ⟨R.HEDDLE_CRC_ERR, 31, 1⟩
def R.HEDDLE_DB_ERR : Nat := 0x10050078
def F.HEDDLE_DB_ERR_COUNT : Fld := ⟨R.HEDDLE_DB_ERR, 0, 16⟩
def F.HEDDLE_DB_ERR_SAT : Fld := ⟨R.HEDDLE_DB_ERR, 31, 1⟩
def F.HEDDLE_DB_ERR_LAST_CH : Fld := ⟨R.HEDDLE_DB_ERR, 16, 12⟩
def R.HEDDLE_PEEK : Nat := 0x1005007C
def F.HEDDLE_PEEK_CH : Fld := ⟨R.HEDDLE_PEEK, 0, 12⟩
def R.HEDDLE_PEEK_STAT : Nat := 0x10050080
def F.HEDDLE_PEEK_STAT_HEAD : Fld := ⟨R.HEDDLE_PEEK_STAT, 0, 16⟩
def F.HEDDLE_PEEK_STAT_TAIL : Fld := ⟨R.HEDDLE_PEEK_STAT, 16, 16⟩
def F.HEDDLE_PEEK_STAT_STATE : Fld := ⟨R.HEDDLE_PEEK_STAT, 32, 3⟩
def F.HEDDLE_PEEK_STAT_CACHED : Fld := ⟨R.HEDDLE_PEEK_STAT, 35, 1⟩
def F.HEDDLE_PEEK_STAT_OUT : Fld := ⟨R.HEDDLE_PEEK_STAT, 40, 7⟩
def F.HEDDLE_PEEK_STAT_PREF : Fld := ⟨R.HEDDLE_PEEK_STAT, 48, 4⟩
def R.BOBBIN_INFO : Nat := 0x10052040
def F.BOBBIN_INFO_CONTEXTS : Fld := ⟨R.BOBBIN_INFO, 0, 5⟩
def F.BOBBIN_INFO_MAX_CH : Fld := ⟨R.BOBBIN_INFO, 8, 4⟩
def F.BOBBIN_INFO_RATE : Fld := ⟨R.BOBBIN_INFO, 16, 16⟩
def R.BOBBIN_STAT : Nat := 0x10052044
def F.BOBBIN_STAT_BUSY : Fld := ⟨R.BOBBIN_STAT, 0, 1⟩
def F.BOBBIN_STAT_CH : Fld := ⟨R.BOBBIN_STAT, 16, 12⟩
def R.BOBBIN_ERR : Nat := 0x10052048
def F.BOBBIN_ERR_COUNT : Fld := ⟨R.BOBBIN_ERR, 0, 16⟩
def F.BOBBIN_ERR_SAT : Fld := ⟨R.BOBBIN_ERR, 31, 1⟩
def F.BOBBIN_ERR_LAST_DETAIL : Fld := ⟨R.BOBBIN_ERR, 16, 4⟩
def R.BOBBIN_SUMMARY_COUNT : Nat := 0x1005204C
def F.BOBBIN_SUMMARY_COUNT_COUNT : Fld := ⟨R.BOBBIN_SUMMARY_COUNT, 0, 16⟩
def F.BOBBIN_SUMMARY_COUNT_SAT : Fld := ⟨R.BOBBIN_SUMMARY_COUNT, 31, 1⟩
def R.BOBBIN_CTX_CFG (n : Nat) : Nat := 0x10052100 + 8 * n
def F.BOBBIN_CTX_CFG_MODE (n : Nat) : Fld := ⟨R.BOBBIN_CTX_CFG n, 0, 2⟩
def F.BOBBIN_CTX_CFG_CHANNELS (n : Nat) : Fld := ⟨R.BOBBIN_CTX_CFG n, 2, 4⟩
def F.BOBBIN_CTX_CFG_BLOCK_LEN (n : Nat) : Fld := ⟨R.BOBBIN_CTX_CFG n, 6, 11⟩
def F.BOBBIN_CTX_CFG_E (n : Nat) : Fld := ⟨R.BOBBIN_CTX_CFG n, 24, 8⟩
def F.BOBBIN_CTX_CFG_N (n : Nat) : Fld := ⟨R.BOBBIN_CTX_CFG n, 32, 15⟩
def R.BOBBIN_CTX_SEQ (n : Nat) : Nat := 0x10052200 + 4 * n
def F.BOBBIN_CTX_SEQ_SEQ (n : Nat) : Fld := ⟨R.BOBBIN_CTX_SEQ n, 0, 32⟩
def R.HEDDLE_MGMT_INST_BASE : Nat := 0x10051040
def F.HEDDLE_MGMT_INST_BASE_ADDR : Fld := ⟨R.HEDDLE_MGMT_INST_BASE, 12, 28⟩
def R.HEDDLE_MGMT_CMD : Nat := 0x10051048
def F.HEDDLE_MGMT_CMD_OP : Fld := ⟨R.HEDDLE_MGMT_CMD, 0, 4⟩
def F.HEDDLE_MGMT_CMD_Q : Fld := ⟨R.HEDDLE_MGMT_CMD, 4, 1⟩
def F.HEDDLE_MGMT_CMD_FLUSH : Fld := ⟨R.HEDDLE_MGMT_CMD, 5, 1⟩
def F.HEDDLE_MGMT_CMD_TARGET : Fld := ⟨R.HEDDLE_MGMT_CMD, 8, 13⟩
def R.HEDDLE_MGMT_CMD_STAT : Nat := 0x1005104C
def F.HEDDLE_MGMT_CMD_STAT_BUSY : Fld := ⟨R.HEDDLE_MGMT_CMD_STAT, 0, 1⟩
def F.HEDDLE_MGMT_CMD_STAT_LAST_OP : Fld := ⟨R.HEDDLE_MGMT_CMD_STAT, 4, 4⟩
def F.HEDDLE_MGMT_CMD_STAT_LAST_REASON : Fld := ⟨R.HEDDLE_MGMT_CMD_STAT, 8, 7⟩
def R.HEDDLE_MGMT_POOL : Nat := 0x10051050
def F.HEDDLE_MGMT_POOL_FREE_CH : Fld := ⟨R.HEDDLE_MGMT_POOL, 0, 13⟩
def F.HEDDLE_MGMT_POOL_FREE_CQ : Fld := ⟨R.HEDDLE_MGMT_POOL, 16, 11⟩
def R.HEDDLE_MGMT_POOL_2 : Nat := 0x10051054
def F.HEDDLE_MGMT_POOL_2_FREE_TOKENS : Fld := ⟨R.HEDDLE_MGMT_POOL_2, 0, 7⟩
def F.HEDDLE_MGMT_POOL_2_FREE_MSG : Fld := ⟨R.HEDDLE_MGMT_POOL_2, 16, 16⟩
def R.HEDDLE_MGMT_GEN (n : Nat) : Nat := 0x10051060 + 4 * n
def F.HEDDLE_MGMT_GEN_GEN (n : Nat) : Fld := ⟨R.HEDDLE_MGMT_GEN n, 0, 32⟩
def R.HEDDLE_MGMT_STATE (n : Nat) : Nat := 0x10051080 + 4 * n
def F.HEDDLE_MGMT_STATE_STATE (n : Nat) : Fld := ⟨R.HEDDLE_MGMT_STATE n, 0, 32⟩
def R.HEDDLE_MGMT_RESET_TIME : Nat := 0x10051090
def F.HEDDLE_MGMT_RESET_TIME_US : Fld := ⟨R.HEDDLE_MGMT_RESET_TIME, 0, 24⟩
def F.HEDDLE_MGMT_RESET_TIME_INST : Fld := ⟨R.HEDDLE_MGMT_RESET_TIME, 24, 5⟩
def R.HEDDLE_MGMT_LATE : Nat := 0x10051094
def F.HEDDLE_MGMT_LATE_COUNT : Fld := ⟨R.HEDDLE_MGMT_LATE, 0, 16⟩
def F.HEDDLE_MGMT_LATE_SAT : Fld := ⟨R.HEDDLE_MGMT_LATE, 31, 1⟩
def R.HEDDLE_MGMT_DB_REFUSED : Nat := 0x10051098
def F.HEDDLE_MGMT_DB_REFUSED_COUNT : Fld := ⟨R.HEDDLE_MGMT_DB_REFUSED, 0, 16⟩
def F.HEDDLE_MGMT_DB_REFUSED_SAT : Fld := ⟨R.HEDDLE_MGMT_DB_REFUSED, 31, 1⟩
def F.HEDDLE_MGMT_DB_REFUSED_LAST_INST : Fld := ⟨R.HEDDLE_MGMT_DB_REFUSED, 16, 5⟩
def R.USBH_CTRL : Nat := 0x10080040
def F.USBH_CTRL_RUN : Fld := ⟨R.USBH_CTRL, 0, 1⟩
def F.USBH_CTRL_ROOT_RESET : Fld := ⟨R.USBH_CTRL, 1, 1⟩
def F.USBH_CTRL_NAK_HOLDOFF : Fld := ⟨R.USBH_CTRL, 8, 6⟩
def R.USBH_STAT : Nat := 0x10080044
def F.USBH_STAT_RUNNING : Fld := ⟨R.USBH_STAT, 0, 1⟩
def F.USBH_STAT_RESETTING : Fld := ⟨R.USBH_STAT, 1, 1⟩
def F.USBH_STAT_HUB_ADDR : Fld := ⟨R.USBH_STAT, 8, 7⟩
def R.USBH_FRAME : Nat := 0x10080048
def F.USBH_FRAME_UFRAME : Fld := ⟨R.USBH_FRAME, 0, 3⟩
def F.USBH_FRAME_FRAME : Fld := ⟨R.USBH_FRAME, 3, 11⟩
def R.USBH_LOAD : Nat := 0x1008004C
def F.USBH_LOAD_HS_MAX : Fld := ⟨R.USBH_LOAD, 0, 13⟩
def F.USBH_LOAD_FS_MAX : Fld := ⟨R.USBH_LOAD, 16, 11⟩
def R.USBH_ERR : Nat := 0x10080050
def F.USBH_ERR_COUNT : Fld := ⟨R.USBH_ERR, 0, 16⟩
def F.USBH_ERR_SAT : Fld := ⟨R.USBH_ERR, 31, 1⟩
def R.USBH_PIPE_CFG (n : Nat) : Nat := 0x10080400 + 16 * n
def F.USBH_PIPE_CFG_ADDR (n : Nat) : Fld := ⟨R.USBH_PIPE_CFG n, 0, 7⟩
def F.USBH_PIPE_CFG_EP (n : Nat) : Fld := ⟨R.USBH_PIPE_CFG n, 7, 4⟩
def F.USBH_PIPE_CFG_DIR (n : Nat) : Fld := ⟨R.USBH_PIPE_CFG n, 11, 1⟩
def F.USBH_PIPE_CFG_TYPE (n : Nat) : Fld := ⟨R.USBH_PIPE_CFG n, 12, 2⟩
def F.USBH_PIPE_CFG_SPEED (n : Nat) : Fld := ⟨R.USBH_PIPE_CFG n, 14, 2⟩
def F.USBH_PIPE_CFG_MPS (n : Nat) : Fld := ⟨R.USBH_PIPE_CFG n, 16, 11⟩
def F.USBH_PIPE_CFG_MULT (n : Nat) : Fld := ⟨R.USBH_PIPE_CFG n, 27, 2⟩
def F.USBH_PIPE_CFG_EN (n : Nat) : Fld := ⟨R.USBH_PIPE_CFG n, 31, 1⟩
def F.USBH_PIPE_CFG_INTERVAL (n : Nat) : Fld := ⟨R.USBH_PIPE_CFG n, 32, 4⟩
def F.USBH_PIPE_CFG_PHASE (n : Nat) : Fld := ⟨R.USBH_PIPE_CFG n, 36, 12⟩
def F.USBH_PIPE_CFG_PORT (n : Nat) : Fld := ⟨R.USBH_PIPE_CFG n, 48, 3⟩
def R.USBH_PIPE_CTRL (n : Nat) : Nat := 0x10080408 + 16 * n
def F.USBH_PIPE_CTRL_CLEAR (n : Nat) : Fld := ⟨R.USBH_PIPE_CTRL n, 0, 1⟩
def R.USBH_PIPE_STAT (n : Nat) : Nat := 0x1008040C + 16 * n
def F.USBH_PIPE_STAT_TOGGLE (n : Nat) : Fld := ⟨R.USBH_PIPE_STAT n, 0, 1⟩
def F.USBH_PIPE_STAT_HALTED (n : Nat) : Fld := ⟨R.USBH_PIPE_STAT n, 1, 1⟩
def F.USBH_PIPE_STAT_SUSPENDED (n : Nat) : Fld := ⟨R.USBH_PIPE_STAT n, 2, 1⟩
def F.USBH_PIPE_STAT_LAST_DETAIL (n : Nat) : Fld := ⟨R.USBH_PIPE_STAT n, 4, 4⟩
def F.USBH_PIPE_STAT_MISSED (n : Nat) : Fld := ⟨R.USBH_PIPE_STAT n, 16, 16⟩
def R.USBHUB_ID : Nat := 0x10081040
def F.USBHUB_ID_VID : Fld := ⟨R.USBHUB_ID, 0, 16⟩
def F.USBHUB_ID_PID : Fld := ⟨R.USBHUB_ID, 16, 16⟩
def R.USBHUB_CFG : Nat := 0x10081044
def F.USBHUB_CFG_PWR_GOOD : Fld := ⟨R.USBHUB_CFG, 0, 8⟩
def F.USBHUB_CFG_OC_FILT : Fld := ⟨R.USBHUB_CFG, 8, 8⟩
def R.USBHUB_STAT : Nat := 0x10081048
def F.USBHUB_STAT_ADDR : Fld := ⟨R.USBHUB_STAT, 0, 7⟩
def F.USBHUB_STAT_CONFIGURED : Fld := ⟨R.USBHUB_STAT, 8, 1⟩
def F.USBHUB_STAT_ALT : Fld := ⟨R.USBHUB_STAT, 9, 1⟩
def R.USBHUB_PORT (n : Nat) : Nat := 0x10081080 + 4 * n
def F.USBHUB_PORT_STATUS (n : Nat) : Fld := ⟨R.USBHUB_PORT n, 0, 16⟩
def F.USBHUB_PORT_CHANGE (n : Nat) : Fld := ⟨R.USBHUB_PORT n, 16, 16⟩
def R.USBHUB_TT (n : Nat) : Nat := 0x10081090 + 4 * n
def F.USBHUB_TT_NP_USED (n : Nat) : Fld := ⟨R.USBHUB_TT n, 0, 3⟩
def F.USBHUB_TT_P_PEAK (n : Nat) : Fld := ⟨R.USBHUB_TT n, 8, 5⟩
def F.USBHUB_TT_SAT (n : Nat) : Fld := ⟨R.USBHUB_TT n, 15, 1⟩
def F.USBHUB_TT_NAKS (n : Nat) : Fld := ⟨R.USBHUB_TT n, 16, 16⟩
def R.USBHUB_OC (n : Nat) : Nat := 0x100810A0 + 4 * n
def F.USBHUB_OC_COUNT (n : Nat) : Fld := ⟨R.USBHUB_OC n, 0, 16⟩
def F.USBHUB_OC_SAT (n : Nat) : Fld := ⟨R.USBHUB_OC n, 31, 1⟩
def F.USBHUB_OC_ACTIVE (n : Nat) : Fld := ⟨R.USBHUB_OC n, 16, 1⟩
def R.USBD_CTRL : Nat := 0x10082040
def F.USBD_CTRL_ATTACH : Fld := ⟨R.USBD_CTRL, 0, 1⟩
def F.USBD_CTRL_HS_EN : Fld := ⟨R.USBD_CTRL, 1, 1⟩
def F.USBD_CTRL_RWAKE_EN : Fld := ⟨R.USBD_CTRL, 2, 1⟩
def F.USBD_CTRL_RESUME : Fld := ⟨R.USBD_CTRL, 3, 1⟩
def F.USBD_CTRL_TEST : Fld := ⟨R.USBD_CTRL, 4, 3⟩
def R.USBD_STAT : Nat := 0x10082044
def F.USBD_STAT_SPEED : Fld := ⟨R.USBD_STAT, 0, 2⟩
def F.USBD_STAT_VBUS : Fld := ⟨R.USBD_STAT, 2, 1⟩
def F.USBD_STAT_ATTACHED : Fld := ⟨R.USBD_STAT, 3, 1⟩
def F.USBD_STAT_SUSPENDED : Fld := ⟨R.USBD_STAT, 4, 1⟩
def F.USBD_STAT_CHIRP_FAILED : Fld := ⟨R.USBD_STAT, 5, 1⟩
def R.USBD_ADDR : Nat := 0x10082048
def F.USBD_ADDR_ADDR : Fld := ⟨R.USBD_ADDR, 0, 7⟩
def R.USBD_FRAME : Nat := 0x1008204C
def F.USBD_FRAME_FRAME : Fld := ⟨R.USBD_FRAME, 0, 11⟩
def F.USBD_FRAME_UFRAME : Fld := ⟨R.USBD_FRAME, 11, 3⟩
def R.USBD_SETUP (n : Nat) : Nat := 0x10082050 + 4 * n
def F.USBD_SETUP_SETUP (n : Nat) : Fld := ⟨R.USBD_SETUP n, 0, 32⟩
def R.USBD_EP0_CTRL : Nat := 0x10082058
def F.USBD_EP0_CTRL_ACK : Fld := ⟨R.USBD_EP0_CTRL, 0, 1⟩
def F.USBD_EP0_CTRL_STALL : Fld := ⟨R.USBD_EP0_CTRL, 1, 1⟩
def F.USBD_EP0_CTRL_STALLED : Fld := ⟨R.USBD_EP0_CTRL, 8, 1⟩
def F.USBD_EP0_CTRL_SETUP_PENDING : Fld := ⟨R.USBD_EP0_CTRL, 9, 1⟩
def R.USBD_EPIN_CFG (k : Nat) : Nat := 0x10082080 + 4 * k
def F.USBD_EPIN_CFG_MPS (k : Nat) : Fld := ⟨R.USBD_EPIN_CFG k, 0, 11⟩
def F.USBD_EPIN_CFG_TYPE (k : Nat) : Fld := ⟨R.USBD_EPIN_CFG k, 11, 2⟩
def F.USBD_EPIN_CFG_MULT (k : Nat) : Fld := ⟨R.USBD_EPIN_CFG k, 13, 2⟩
def F.USBD_EPIN_CFG_FIFO (k : Nat) : Fld := ⟨R.USBD_EPIN_CFG k, 16, 7⟩
def F.USBD_EPIN_CFG_EN (k : Nat) : Fld := ⟨R.USBD_EPIN_CFG k, 31, 1⟩
def R.USBD_EPOUT_CFG (k : Nat) : Nat := 0x100820A0 + 4 * k
def F.USBD_EPOUT_CFG_MPS (k : Nat) : Fld := ⟨R.USBD_EPOUT_CFG k, 0, 11⟩
def F.USBD_EPOUT_CFG_TYPE (k : Nat) : Fld := ⟨R.USBD_EPOUT_CFG k, 11, 2⟩
def F.USBD_EPOUT_CFG_MULT (k : Nat) : Fld := ⟨R.USBD_EPOUT_CFG k, 13, 2⟩
def F.USBD_EPOUT_CFG_FIFO (k : Nat) : Fld := ⟨R.USBD_EPOUT_CFG k, 16, 7⟩
def F.USBD_EPOUT_CFG_EN (k : Nat) : Fld := ⟨R.USBD_EPOUT_CFG k, 31, 1⟩
def R.USBD_HALT : Nat := 0x100820C0
def F.USBD_HALT_IN : Fld := ⟨R.USBD_HALT, 1, 6⟩
def F.USBD_HALT_OUT : Fld := ⟨R.USBD_HALT, 9, 6⟩
def R.USBD_ERR : Nat := 0x100820C4
def F.USBD_ERR_COUNT : Fld := ⟨R.USBD_ERR, 0, 16⟩
def F.USBD_ERR_SAT : Fld := ⟨R.USBD_ERR, 31, 1⟩
def R.ETH_CFG (i : Nat) : Nat := 0x10090040 + 0x1000 * i
def F.ETH_CFG_MODE (i : Nat) : Fld := ⟨R.ETH_CFG i, 0, 1⟩
def F.ETH_CFG_SPEED (i : Nat) : Fld := ⟨R.ETH_CFG i, 1, 2⟩
def F.ETH_CFG_TX_DELAY (i : Nat) : Fld := ⟨R.ETH_CFG i, 3, 1⟩
def F.ETH_CFG_RX_DELAY (i : Nat) : Fld := ⟨R.ETH_CFG i, 4, 1⟩
def F.ETH_CFG_PAUSE_EN (i : Nat) : Fld := ⟨R.ETH_CFG i, 5, 1⟩
def R.ETH_MAC (i : Nat) : Nat := 0x10090048 + 0x1000 * i
def F.ETH_MAC_ADDR (i : Nat) : Fld := ⟨R.ETH_MAC i, 0, 48⟩
def R.ETH_FILTER (i : Nat) : Nat := 0x10090050 + 0x1000 * i
def F.ETH_FILTER_PROMISC (i : Nat) : Fld := ⟨R.ETH_FILTER i, 0, 1⟩
def F.ETH_FILTER_BCAST (i : Nat) : Fld := ⟨R.ETH_FILTER i, 1, 1⟩
def F.ETH_FILTER_ALL_MULTI (i : Nat) : Fld := ⟨R.ETH_FILTER i, 2, 1⟩
def F.ETH_FILTER_VLAN_FILT (i : Nat) : Fld := ⟨R.ETH_FILTER i, 3, 1⟩
def F.ETH_FILTER_UNTAGGED (i : Nat) : Fld := ⟨R.ETH_FILTER i, 4, 1⟩
def R.ETH_HASH (i : Nat) : Nat := 0x10090058 + 0x1000 * i
def F.ETH_HASH_HASH (i : Nat) : Fld := ⟨R.ETH_HASH i, 0, 64⟩
def R.ETH_VLAN (i : Nat) : Nat := 0x10090060 + 0x1000 * i
def F.ETH_VLAN_VID (i : Nat) : Fld := ⟨R.ETH_VLAN i, 0, 12⟩
def F.ETH_VLAN_STRIP (i : Nat) : Fld := ⟨R.ETH_VLAN i, 16, 1⟩
def R.ETH_MAXLEN (i : Nat) : Nat := 0x10090064 + 0x1000 * i
def F.ETH_MAXLEN_MAXLEN (i : Nat) : Fld := ⟨R.ETH_MAXLEN i, 0, 14⟩
def R.ETH_TS_LAT (i : Nat) : Nat := 0x10090068 + 0x1000 * i
def F.ETH_TS_LAT_TX (i : Nat) : Fld := ⟨R.ETH_TS_LAT i, 0, 16⟩
def F.ETH_TS_LAT_RX (i : Nat) : Fld := ⟨R.ETH_TS_LAT i, 16, 16⟩
def R.ETH_STAT (i : Nat) : Nat := 0x1009006C + 0x1000 * i
def F.ETH_STAT_RX_LEVEL (i : Nat) : Fld := ⟨R.ETH_STAT i, 0, 16⟩
def F.ETH_STAT_TX_LEVEL (i : Nat) : Fld := ⟨R.ETH_STAT i, 16, 16⟩
def R.ETH_ERR (i k : Nat) : Nat := 0x10090070 + 0x1000 * i + 4 * k
def F.ETH_ERR_COUNT (i k : Nat) : Fld := ⟨R.ETH_ERR i k, 0, 16⟩
def F.ETH_ERR_SAT (i k : Nat) : Fld := ⟨R.ETH_ERR i k, 31, 1⟩
def R.ETH_MDIO (i : Nat) : Nat := 0x10090080 + 0x1000 * i
def F.ETH_MDIO_DATA (i : Nat) : Fld := ⟨R.ETH_MDIO i, 0, 16⟩
def F.ETH_MDIO_REG (i : Nat) : Fld := ⟨R.ETH_MDIO i, 16, 5⟩
def F.ETH_MDIO_PHY (i : Nat) : Fld := ⟨R.ETH_MDIO i, 21, 5⟩
def F.ETH_MDIO_READ (i : Nat) : Fld := ⟨R.ETH_MDIO i, 26, 1⟩
def F.ETH_MDIO_GO (i : Nat) : Fld := ⟨R.ETH_MDIO i, 30, 1⟩
def F.ETH_MDIO_BUSY (i : Nat) : Fld := ⟨R.ETH_MDIO i, 31, 1⟩
def R.PTPCLK_CTRL : Nat := 0x10092040
def F.PTPCLK_CTRL_EN : Fld := ⟨R.PTPCLK_CTRL, 0, 1⟩
def R.PTPCLK_TIME : Nat := 0x10092048
def F.PTPCLK_TIME_NS : Fld := ⟨R.PTPCLK_TIME, 0, 30⟩
def F.PTPCLK_TIME_SEC : Fld := ⟨R.PTPCLK_TIME, 32, 32⟩
def R.PTPCLK_TIME_HI : Nat := 0x10092050
def F.PTPCLK_TIME_HI_SEC_HI : Fld := ⟨R.PTPCLK_TIME_HI, 0, 16⟩
def R.PTPCLK_STEP : Nat := 0x10092054
def F.PTPCLK_STEP_NS : Fld := ⟨R.PTPCLK_STEP, 0, 32⟩
def R.PTPCLK_RATE : Nat := 0x10092058
def F.PTPCLK_RATE_RATE : Fld := ⟨R.PTPCLK_RATE, 0, 32⟩
def R.PTPCLK_TARGET : Nat := 0x10092060
def F.PTPCLK_TARGET_NS : Fld := ⟨R.PTPCLK_TARGET, 0, 30⟩
def F.PTPCLK_TARGET_SEC : Fld := ⟨R.PTPCLK_TARGET, 32, 32⟩
def R.PTPCLK_TARGET_HI : Nat := 0x10092068
def F.PTPCLK_TARGET_HI_SEC_HI : Fld := ⟨R.PTPCLK_TARGET_HI, 0, 16⟩
def F.PTPCLK_TARGET_HI_ARMED : Fld := ⟨R.PTPCLK_TARGET_HI, 31, 1⟩
def R.PTPCLK_STAT : Nat := 0x1009206C
def F.PTPCLK_STAT_RUNNING : Fld := ⟨R.PTPCLK_STAT, 0, 1⟩
def R.UART_CFG (i : Nat) : Nat := 0x100A0040 + 0x1000 * i
def F.UART_CFG_MODE (i : Nat) : Fld := ⟨R.UART_CFG i, 0, 2⟩
def F.UART_CFG_DATA7 (i : Nat) : Fld := ⟨R.UART_CFG i, 4, 1⟩
def F.UART_CFG_PARITY (i : Nat) : Fld := ⟨R.UART_CFG i, 5, 2⟩
def F.UART_CFG_STOP2 (i : Nat) : Fld := ⟨R.UART_CFG i, 7, 1⟩
def F.UART_CFG_ECHO (i : Nat) : Fld := ⟨R.UART_CFG i, 8, 1⟩
def F.UART_CFG_CRC_CHK (i : Nat) : Fld := ⟨R.UART_CFG i, 9, 1⟩
def F.UART_CFG_CRC_TX (i : Nat) : Fld := ⟨R.UART_CFG i, 10, 1⟩
def R.UART_BAUD (i : Nat) : Nat := 0x100A0044 + 0x1000 * i
def F.UART_BAUD_DIV (i : Nat) : Fld := ⟨R.UART_BAUD i, 0, 24⟩
def R.UART_DE (i : Nat) : Nat := 0x100A0048 + 0x1000 * i
def F.UART_DE_EN (i : Nat) : Fld := ⟨R.UART_DE i, 0, 1⟩
def F.UART_DE_POL (i : Nat) : Fld := ⟨R.UART_DE i, 1, 1⟩
def F.UART_DE_LEAD (i : Nat) : Fld := ⟨R.UART_DE i, 8, 8⟩
def F.UART_DE_LAG (i : Nat) : Fld := ⟨R.UART_DE i, 16, 8⟩
def R.UART_FRAME (i : Nat) : Nat := 0x100A004C + 0x1000 * i
def F.UART_FRAME_AUTO (i : Nat) : Fld := ⟨R.UART_FRAME i, 0, 1⟩
def F.UART_FRAME_IDLE (i : Nat) : Fld := ⟨R.UART_FRAME i, 4, 8⟩
def F.UART_FRAME_T15 (i : Nat) : Fld := ⟨R.UART_FRAME i, 16, 8⟩
def F.UART_FRAME_T35 (i : Nat) : Fld := ⟨R.UART_FRAME i, 24, 8⟩
def R.UART_STAT (i : Nat) : Nat := 0x100A0050 + 0x1000 * i
def F.UART_STAT_RX_LEVEL (i : Nat) : Fld := ⟨R.UART_STAT i, 0, 7⟩
def F.UART_STAT_TX_LEVEL (i : Nat) : Fld := ⟨R.UART_STAT i, 8, 7⟩
def F.UART_STAT_RX_IDLE (i : Nat) : Fld := ⟨R.UART_STAT i, 16, 1⟩
def F.UART_STAT_DE (i : Nat) : Fld := ⟨R.UART_STAT i, 17, 1⟩
def F.UART_STAT_BREAK (i : Nat) : Fld := ⟨R.UART_STAT i, 18, 1⟩
def R.UART_ERR (i : Nat) : Nat := 0x100A0054 + 0x1000 * i
def F.UART_ERR_COUNT (i : Nat) : Fld := ⟨R.UART_ERR i, 0, 16⟩
def F.UART_ERR_SAT (i : Nat) : Fld := ⟨R.UART_ERR i, 31, 1⟩
def F.UART_ERR_LAST_DETAIL (i : Nat) : Fld := ⟨R.UART_ERR i, 16, 4⟩
def R.SPI_CFG (i : Nat) : Nat := 0x100B0040 + 0x1000 * i
def F.SPI_CFG_MODE (i : Nat) : Fld := ⟨R.SPI_CFG i, 0, 2⟩
def F.SPI_CFG_LSB_FIRST (i : Nat) : Fld := ⟨R.SPI_CFG i, 2, 1⟩
def F.SPI_CFG_LATE_SAMPLE (i : Nat) : Fld := ⟨R.SPI_CFG i, 3, 1⟩
def F.SPI_CFG_DIV (i : Nat) : Fld := ⟨R.SPI_CFG i, 8, 8⟩
def R.SPI_DELAY (i : Nat) : Nat := 0x100B0044 + 0x1000 * i
def F.SPI_DELAY_CS_SETUP (i : Nat) : Fld := ⟨R.SPI_DELAY i, 0, 8⟩
def F.SPI_DELAY_CS_HOLD (i : Nat) : Fld := ⟨R.SPI_DELAY i, 8, 8⟩
def F.SPI_DELAY_CS_IDLE (i : Nat) : Fld := ⟨R.SPI_DELAY i, 16, 8⟩
def R.SPI_CS (i : Nat) : Nat := 0x100B0048 + 0x1000 * i
def F.SPI_CS_FORCE (i : Nat) : Fld := ⟨R.SPI_CS i, 0, 2⟩
def R.SPI_STAT (i : Nat) : Nat := 0x100B004C + 0x1000 * i
def F.SPI_STAT_BUSY (i : Nat) : Fld := ⟨R.SPI_STAT i, 0, 1⟩
def F.SPI_STAT_CS (i : Nat) : Fld := ⟨R.SPI_STAT i, 1, 2⟩
def R.SPI_DISCARD (i : Nat) : Nat := 0x100B0050 + 0x1000 * i
def F.SPI_DISCARD_COUNT (i : Nat) : Fld := ⟨R.SPI_DISCARD i, 0, 16⟩
def F.SPI_DISCARD_SAT (i : Nat) : Fld := ⟨R.SPI_DISCARD i, 31, 1⟩
def R.I2C_CFG (i : Nat) : Nat := 0x100B2040 + 0x1000 * i
def F.I2C_CFG_SPEED (i : Nat) : Fld := ⟨R.I2C_CFG i, 0, 2⟩
def F.I2C_CFG_CUSTOM (i : Nat) : Fld := ⟨R.I2C_CFG i, 2, 1⟩
def R.I2C_TIMING (i : Nat) : Nat := 0x100B2044 + 0x1000 * i
def F.I2C_TIMING_LOW (i : Nat) : Fld := ⟨R.I2C_TIMING i, 0, 10⟩
def F.I2C_TIMING_HIGH (i : Nat) : Fld := ⟨R.I2C_TIMING i, 16, 10⟩
def R.I2C_RECOVER (i : Nat) : Nat := 0x100B2048 + 0x1000 * i
def F.I2C_RECOVER_GO (i : Nat) : Fld := ⟨R.I2C_RECOVER i, 0, 1⟩
def R.I2C_STAT (i : Nat) : Nat := 0x100B204C + 0x1000 * i
def F.I2C_STAT_BUSY (i : Nat) : Fld := ⟨R.I2C_STAT i, 0, 1⟩
def F.I2C_STAT_BUS_BUSY (i : Nat) : Fld := ⟨R.I2C_STAT i, 1, 1⟩
def F.I2C_STAT_BUS_STUCK (i : Nat) : Fld := ⟨R.I2C_STAT i, 2, 1⟩
def F.I2C_STAT_SCL (i : Nat) : Fld := ⟨R.I2C_STAT i, 4, 1⟩
def F.I2C_STAT_SDA (i : Nat) : Fld := ⟨R.I2C_STAT i, 5, 1⟩
def R.I2C_ERR (i : Nat) : Nat := 0x100B2050 + 0x1000 * i
def F.I2C_ERR_COUNT (i : Nat) : Fld := ⟨R.I2C_ERR i, 0, 16⟩
def F.I2C_ERR_SAT (i : Nat) : Fld := ⟨R.I2C_ERR i, 31, 1⟩
def F.I2C_ERR_LAST_DETAIL (i : Nat) : Fld := ⟨R.I2C_ERR i, 16, 4⟩
def R.ADC_CFG (i : Nat) : Nat := 0x100C0040 + 0x1000 * i
def F.ADC_CFG_FORMAT (i : Nat) : Fld := ⟨R.ADC_CFG i, 0, 1⟩
def F.ADC_CFG_CONT (i : Nat) : Fld := ⟨R.ADC_CFG i, 1, 1⟩
def F.ADC_CFG_FLUSH (i : Nat) : Fld := ⟨R.ADC_CFG i, 2, 1⟩
def R.ADC_SEQ (i : Nat) : Nat := 0x100C0044 + 0x1000 * i
def F.ADC_SEQ_SLOT_0 (i : Nat) : Fld := ⟨R.ADC_SEQ i, 0, 3⟩
def F.ADC_SEQ_SLOT_1 (i : Nat) : Fld := ⟨R.ADC_SEQ i, 3, 3⟩
def F.ADC_SEQ_SLOT_2 (i : Nat) : Fld := ⟨R.ADC_SEQ i, 6, 3⟩
def F.ADC_SEQ_SLOT_3 (i : Nat) : Fld := ⟨R.ADC_SEQ i, 9, 3⟩
def F.ADC_SEQ_SLOT_4 (i : Nat) : Fld := ⟨R.ADC_SEQ i, 12, 3⟩
def F.ADC_SEQ_SLOT_5 (i : Nat) : Fld := ⟨R.ADC_SEQ i, 15, 3⟩
def F.ADC_SEQ_SLOT_6 (i : Nat) : Fld := ⟨R.ADC_SEQ i, 18, 3⟩
def F.ADC_SEQ_SLOT_7 (i : Nat) : Fld := ⟨R.ADC_SEQ i, 21, 3⟩
def F.ADC_SEQ_LEN_M1 (i : Nat) : Fld := ⟨R.ADC_SEQ i, 24, 3⟩
def R.ADC_TRIG (i : Nat) : Nat := 0x100C0048 + 0x1000 * i
def F.ADC_TRIG_REED (i : Nat) : Fld := ⟨R.ADC_TRIG i, 0, 1⟩
def F.ADC_TRIG_SHUTTLE (i : Nat) : Fld := ⟨R.ADC_TRIG i, 1, 1⟩
def F.ADC_TRIG_SW (i : Nat) : Fld := ⟨R.ADC_TRIG i, 2, 1⟩
def R.ADC_SW_TRIG (i : Nat) : Nat := 0x100C004C + 0x1000 * i
def F.ADC_SW_TRIG_GO (i : Nat) : Fld := ⟨R.ADC_SW_TRIG i, 0, 1⟩
def R.ADC_FIFO (i : Nat) : Nat := 0x100C0050 + 0x1000 * i
def F.ADC_FIFO_LEVEL (i : Nat) : Fld := ⟨R.ADC_FIFO i, 0, 13⟩
def F.ADC_FIFO_PEAK (i : Nat) : Fld := ⟨R.ADC_FIFO i, 16, 13⟩
def F.ADC_FIFO_PENDING (i : Nat) : Fld := ⟨R.ADC_FIFO i, 30, 1⟩
def F.ADC_FIFO_BUSY (i : Nat) : Fld := ⟨R.ADC_FIFO i, 31, 1⟩
def R.ADC_STAT (i : Nat) : Nat := 0x100C0054 + 0x1000 * i
def F.ADC_STAT_MISSED (i : Nat) : Fld := ⟨R.ADC_STAT i, 0, 15⟩
def F.ADC_STAT_MSAT (i : Nat) : Fld := ⟨R.ADC_STAT i, 15, 1⟩
def F.ADC_STAT_OVERFLOWS (i : Nat) : Fld := ⟨R.ADC_STAT i, 16, 15⟩
def F.ADC_STAT_OSAT (i : Nat) : Fld := ⟨R.ADC_STAT i, 31, 1⟩
def R.ADC_LIMIT (i : Nat) : Nat := 0x100C0058 + 0x1000 * i
def F.ADC_LIMIT_INPUT (i : Nat) : Fld := ⟨R.ADC_LIMIT i, 0, 3⟩
def F.ADC_LIMIT_EN (i : Nat) : Fld := ⟨R.ADC_LIMIT i, 3, 1⟩
def F.ADC_LIMIT_LOW (i : Nat) : Fld := ⟨R.ADC_LIMIT i, 32, 16⟩
def F.ADC_LIMIT_HIGH (i : Nat) : Fld := ⟨R.ADC_LIMIT i, 48, 16⟩
def R.ADC_CAL (i : Nat) : Nat := 0x100C0060 + 0x1000 * i
def F.ADC_CAL_OFFSET (i : Nat) : Fld := ⟨R.ADC_CAL i, 0, 16⟩
def F.ADC_CAL_GAIN (i : Nat) : Fld := ⟨R.ADC_CAL i, 16, 16⟩
def R.ADC_LAST (i n : Nat) : Nat := 0x100C0080 + 0x1000 * i + 4 * n
def F.ADC_LAST_SAMPLE (i n : Nat) : Fld := ⟨R.ADC_LAST i n, 0, 16⟩
def F.ADC_LAST_ANGLE (i n : Nat) : Fld := ⟨R.ADC_LAST i n, 16, 16⟩
def R.GPIO_DIR : Nat := 0x100D0040
def F.GPIO_DIR_DIR : Fld := ⟨R.GPIO_DIR, 0, 32⟩
def R.GPIO_OUT : Nat := 0x100D0044
def F.GPIO_OUT_OUT : Fld := ⟨R.GPIO_OUT, 0, 32⟩
def R.GPIO_SET : Nat := 0x100D0048
def F.GPIO_SET_SET : Fld := ⟨R.GPIO_SET, 0, 32⟩
def R.GPIO_CLR : Nat := 0x100D004C
def F.GPIO_CLR_CLR : Fld := ⟨R.GPIO_CLR, 0, 32⟩
def R.GPIO_IN : Nat := 0x100D0050
def F.GPIO_IN_IN : Fld := ⟨R.GPIO_IN, 0, 32⟩
def R.GPIO_IN_EXT : Nat := 0x100D0054
def F.GPIO_IN_EXT_EVIN : Fld := ⟨R.GPIO_IN_EXT, 0, 8⟩
def F.GPIO_IN_EXT_TRIP_IN : Fld := ⟨R.GPIO_IN_EXT, 8, 1⟩
def F.GPIO_IN_EXT_ZC_IN : Fld := ⟨R.GPIO_IN_EXT, 9, 1⟩
def F.GPIO_IN_EXT_ENC : Fld := ⟨R.GPIO_IN_EXT, 10, 3⟩
def R.GPIO_IRQ_CFG (n : Nat) : Nat := 0x100D0058 + 4 * n
def F.GPIO_IRQ_CFG_MODE_0 (n : Nat) : Fld := ⟨R.GPIO_IRQ_CFG n, 0, 2⟩
def F.GPIO_IRQ_CFG_MODE_1 (n : Nat) : Fld := ⟨R.GPIO_IRQ_CFG n, 2, 2⟩
def F.GPIO_IRQ_CFG_MODE_2 (n : Nat) : Fld := ⟨R.GPIO_IRQ_CFG n, 4, 2⟩
def F.GPIO_IRQ_CFG_MODE_3 (n : Nat) : Fld := ⟨R.GPIO_IRQ_CFG n, 6, 2⟩
def F.GPIO_IRQ_CFG_MODE_4 (n : Nat) : Fld := ⟨R.GPIO_IRQ_CFG n, 8, 2⟩
def F.GPIO_IRQ_CFG_MODE_5 (n : Nat) : Fld := ⟨R.GPIO_IRQ_CFG n, 10, 2⟩
def F.GPIO_IRQ_CFG_MODE_6 (n : Nat) : Fld := ⟨R.GPIO_IRQ_CFG n, 12, 2⟩
def F.GPIO_IRQ_CFG_MODE_7 (n : Nat) : Fld := ⟨R.GPIO_IRQ_CFG n, 14, 2⟩
def F.GPIO_IRQ_CFG_MODE_8 (n : Nat) : Fld := ⟨R.GPIO_IRQ_CFG n, 16, 2⟩
def F.GPIO_IRQ_CFG_MODE_9 (n : Nat) : Fld := ⟨R.GPIO_IRQ_CFG n, 18, 2⟩
def F.GPIO_IRQ_CFG_MODE_10 (n : Nat) : Fld := ⟨R.GPIO_IRQ_CFG n, 20, 2⟩
def F.GPIO_IRQ_CFG_MODE_11 (n : Nat) : Fld := ⟨R.GPIO_IRQ_CFG n, 22, 2⟩
def F.GPIO_IRQ_CFG_MODE_12 (n : Nat) : Fld := ⟨R.GPIO_IRQ_CFG n, 24, 2⟩
def F.GPIO_IRQ_CFG_MODE_13 (n : Nat) : Fld := ⟨R.GPIO_IRQ_CFG n, 26, 2⟩
def F.GPIO_IRQ_CFG_MODE_14 (n : Nat) : Fld := ⟨R.GPIO_IRQ_CFG n, 28, 2⟩
def F.GPIO_IRQ_CFG_MODE_15 (n : Nat) : Fld := ⟨R.GPIO_IRQ_CFG n, 30, 2⟩
def R.GPIO_IRQ_STAT : Nat := 0x100D0060
def F.GPIO_IRQ_STAT_EDGE : Fld := ⟨R.GPIO_IRQ_STAT, 0, 32⟩
def R.GPIO_FILT : Nat := 0x100D0064
def F.GPIO_FILT_CYCLES : Fld := ⟨R.GPIO_FILT, 0, 8⟩
def R.GPIO_PAD (p : Nat) : Nat := 0x100D0400 + 4 * p
def F.GPIO_PAD_PULL (p : Nat) : Fld := ⟨R.GPIO_PAD p, 0, 2⟩
def F.GPIO_PAD_DRIVE (p : Nat) : Fld := ⟨R.GPIO_PAD p, 2, 2⟩
def F.GPIO_PAD_SLOW (p : Nat) : Fld := ⟨R.GPIO_PAD p, 4, 1⟩
def F.GPIO_PAD_FUNC (p : Nat) : Fld := ⟨R.GPIO_PAD p, 8, 1⟩
def R.TETHER_CFG : Nat := 0x100E0040
def F.TETHER_CFG_CRC_REQ : Fld := ⟨R.TETHER_CFG, 0, 1⟩
def F.TETHER_CFG_LIVE_EN : Fld := ⟨R.TETHER_CFG, 1, 1⟩
def R.TETHER_STAT : Nat := 0x100E0044
def F.TETHER_STAT_FRAME : Fld := ⟨R.TETHER_STAT, 0, 1⟩
def F.TETHER_STAT_CRC : Fld := ⟨R.TETHER_STAT, 1, 1⟩
def F.TETHER_STAT_INDEX : Fld := ⟨R.TETHER_STAT, 8, 8⟩
def F.TETHER_STAT_LIVE_STATE : Fld := ⟨R.TETHER_STAT, 16, 2⟩
def R.TETHER_ABORT_COUNT : Nat := 0x100E0048
def F.TETHER_ABORT_COUNT_COUNT : Fld := ⟨R.TETHER_ABORT_COUNT, 0, 16⟩
def F.TETHER_ABORT_COUNT_SAT : Fld := ⟨R.TETHER_ABORT_COUNT, 31, 1⟩
def F.TETHER_ABORT_COUNT_LAST : Fld := ⟨R.TETHER_ABORT_COUNT, 16, 3⟩
def R.TETHER_REQ : Nat := 0x100E004C
def F.TETHER_REQ_REQ : Fld := ⟨R.TETHER_REQ, 0, 16⟩
def R.TETHER_REQ_EN : Nat := 0x100E0050
def F.TETHER_REQ_EN_EN : Fld := ⟨R.TETHER_REQ_EN, 0, 16⟩
def R.TETHER_ATTN : Nat := 0x100E0054
def F.TETHER_ATTN_ATTN : Fld := ⟨R.TETHER_ATTN, 0, 16⟩
def R.TETHER_ATTN_SET : Nat := 0x100E0058
def F.TETHER_ATTN_SET_SET : Fld := ⟨R.TETHER_ATTN_SET, 0, 16⟩
def R.TETHER_ATTN_EN : Nat := 0x100E005C
def F.TETHER_ATTN_EN_EN : Fld := ⟨R.TETHER_ATTN_EN, 0, 16⟩
def R.TETHER_PWDG : Nat := 0x100E0060
def F.TETHER_PWDG_TIMEOUT : Fld := ⟨R.TETHER_PWDG, 0, 16⟩
def F.TETHER_PWDG_EN : Fld := ⟨R.TETHER_PWDG, 16, 1⟩
def F.TETHER_PWDG_ACTION : Fld := ⟨R.TETHER_PWDG, 17, 1⟩
def R.TETHER_PWDG_STAT : Nat := 0x100E0064
def F.TETHER_PWDG_STAT_LEFT : Fld := ⟨R.TETHER_PWDG_STAT, 0, 16⟩
def F.TETHER_PWDG_STAT_EXPIRED : Fld := ⟨R.TETHER_PWDG_STAT, 16, 1⟩
def F.TETHER_PWDG_STAT_BAD : Fld := ⟨R.TETHER_PWDG_STAT, 24, 8⟩
def R.TETHER_MBOX_IN (n : Nat) : Nat := 0x100E0080 + 4 * n
def F.TETHER_MBOX_IN_DATA (n : Nat) : Fld := ⟨R.TETHER_MBOX_IN n, 0, 32⟩
def R.TETHER_MBOX_OUT (n : Nat) : Nat := 0x100E00A0 + 4 * n
def F.TETHER_MBOX_OUT_DATA (n : Nat) : Fld := ⟨R.TETHER_MBOX_OUT n, 0, 32⟩
def R.TRNG_CFG : Nat := 0x100F0040
def F.TRNG_CFG_PR : Fld := ⟨R.TRNG_CFG, 0, 1⟩
def R.TRNG_STAT : Nat := 0x100F0044
def F.TRNG_STAT_STATE : Fld := ⟨R.TRNG_STAT, 0, 3⟩
def F.TRNG_STAT_QUEUE : Fld := ⟨R.TRNG_STAT, 8, 7⟩
def F.TRNG_STAT_FAILS : Fld := ⟨R.TRNG_STAT, 16, 2⟩
def R.TRNG_DATA : Nat := 0x100F0048
def F.TRNG_DATA_WORD : Fld := ⟨R.TRNG_DATA, 0, 32⟩
def F.TRNG_DATA_VALID : Fld := ⟨R.TRNG_DATA, 32, 1⟩
def R.TRNG_RAW : Nat := 0x100F0050
def F.TRNG_RAW_BITS : Fld := ⟨R.TRNG_RAW, 0, 32⟩
def F.TRNG_RAW_VALID : Fld := ⟨R.TRNG_RAW, 32, 1⟩
def R.TRNG_RESEED : Nat := 0x100F0058
def F.TRNG_RESEED_REQUESTS : Fld := ⟨R.TRNG_RESEED, 0, 13⟩
def F.TRNG_RESEED_PERIOD : Fld := ⟨R.TRNG_RESEED, 16, 10⟩
def R.TRNG_HEALTH : Nat := 0x100F005C
def F.TRNG_HEALTH_RCT_CUTOFF : Fld := ⟨R.TRNG_HEALTH, 0, 8⟩
def F.TRNG_HEALTH_APT_CUTOFF : Fld := ⟨R.TRNG_HEALTH, 16, 11⟩
def R.TRNG_FAIL : Nat := 0x100F0060
def F.TRNG_FAIL_COUNT : Fld := ⟨R.TRNG_FAIL, 0, 16⟩
def F.TRNG_FAIL_SAT : Fld := ⟨R.TRNG_FAIL, 31, 1⟩
def F.TRNG_FAIL_LAST_TEST : Fld := ⟨R.TRNG_FAIL, 16, 2⟩
def R.TRNG_RATE : Nat := 0x100F0064
def F.TRNG_RATE_RATE : Fld := ⟨R.TRNG_RATE, 0, 13⟩
def R.AES_INFO : Nat := 0x100F1040
def F.AES_INFO_CONTEXTS : Fld := ⟨R.AES_INFO, 0, 4⟩
def R.AES_STAT : Nat := 0x100F1044
def F.AES_STAT_BUSY : Fld := ⟨R.AES_STAT, 0, 1⟩
def F.AES_STAT_ECTX : Fld := ⟨R.AES_STAT, 4, 3⟩
def F.AES_STAT_CH : Fld := ⟨R.AES_STAT, 16, 12⟩
def R.AES_KAT : Nat := 0x100F1048
def F.AES_KAT_GO : Fld := ⟨R.AES_KAT, 0, 1⟩
def F.AES_KAT_BUSY : Fld := ⟨R.AES_KAT, 1, 1⟩
def F.AES_KAT_PASS : Fld := ⟨R.AES_KAT, 2, 1⟩
def F.AES_KAT_FAIL : Fld := ⟨R.AES_KAT, 3, 1⟩
def R.AES_ERR : Nat := 0x100F104C
def F.AES_ERR_COUNT : Fld := ⟨R.AES_ERR, 0, 16⟩
def F.AES_ERR_SAT : Fld := ⟨R.AES_ERR, 31, 1⟩
def F.AES_ERR_LAST_DETAIL : Fld := ⟨R.AES_ERR, 16, 4⟩
def R.AES_GCM_FAIL : Nat := 0x100F1050
def F.AES_GCM_FAIL_COUNT : Fld := ⟨R.AES_GCM_FAIL, 0, 16⟩
def F.AES_GCM_FAIL_SAT : Fld := ⟨R.AES_GCM_FAIL, 31, 1⟩
def R.AES_ITEMS : Nat := 0x100F1054
def F.AES_ITEMS_COUNT : Fld := ⟨R.AES_ITEMS, 0, 16⟩
def F.AES_ITEMS_SAT : Fld := ⟨R.AES_ITEMS, 31, 1⟩
def R.AES_CTX_STATE (e : Nat) : Nat := 0x100F10C0 + 4 * e
def F.AES_CTX_STATE_CHAIN_VALID (e : Nat) : Fld := ⟨R.AES_CTX_STATE e, 0, 1⟩
def F.AES_CTX_STATE_LAST_STATUS (e : Nat) : Fld := ⟨R.AES_CTX_STATE e, 8, 8⟩
def R.AES_CTX_CFG (e : Nat) : Nat := 0x100F1100 + 4 * e
def F.AES_CTX_CFG_MODE (e : Nat) : Fld := ⟨R.AES_CTX_CFG e, 0, 3⟩
def F.AES_CTX_CFG_KEY256 (e : Nat) : Fld := ⟨R.AES_CTX_CFG e, 3, 1⟩
def F.AES_CTX_CFG_IVGEN (e : Nat) : Fld := ⟨R.AES_CTX_CFG e, 4, 1⟩
def R.AES_CTX_IV (e w : Nat) : Nat := 0x100F1140 + 16 * e + 4 * w
def F.AES_CTX_IV_IV (e w : Nat) : Fld := ⟨R.AES_CTX_IV e w, 0, 32⟩
def R.AES_CTX_TAG (e w : Nat) : Nat := 0x100F11C0 + 16 * e + 4 * w
def F.AES_CTX_TAG_TAG (e w : Nat) : Fld := ⟨R.AES_CTX_TAG e w, 0, 32⟩
def R.HASH_STAT : Nat := 0x100F2040
def F.HASH_STAT_BUSY : Fld := ⟨R.HASH_STAT, 0, 1⟩
def F.HASH_STAT_ECTX : Fld := ⟨R.HASH_STAT, 4, 3⟩
def F.HASH_STAT_CH : Fld := ⟨R.HASH_STAT, 16, 12⟩
def R.HASH_KAT : Nat := 0x100F2044
def F.HASH_KAT_GO : Fld := ⟨R.HASH_KAT, 0, 1⟩
def F.HASH_KAT_BUSY : Fld := ⟨R.HASH_KAT, 1, 1⟩
def F.HASH_KAT_PASS : Fld := ⟨R.HASH_KAT, 2, 1⟩
def F.HASH_KAT_FAIL : Fld := ⟨R.HASH_KAT, 3, 1⟩
def R.HASH_ERR : Nat := 0x100F2048
def F.HASH_ERR_COUNT : Fld := ⟨R.HASH_ERR, 0, 16⟩
def F.HASH_ERR_SAT : Fld := ⟨R.HASH_ERR, 31, 1⟩
def F.HASH_ERR_LAST_DETAIL : Fld := ⟨R.HASH_ERR, 16, 4⟩
def R.HASH_ITEMS : Nat := 0x100F204C
def F.HASH_ITEMS_COUNT : Fld := ⟨R.HASH_ITEMS, 0, 16⟩
def F.HASH_ITEMS_SAT : Fld := ⟨R.HASH_ITEMS, 31, 1⟩
def R.HASH_CTX_CFG (e : Nat) : Nat := 0x100F2100 + 4 * e
def F.HASH_CTX_CFG_ALG (e : Nat) : Fld := ⟨R.HASH_CTX_CFG e, 0, 2⟩
def F.HASH_CTX_CFG_HMAC (e : Nat) : Fld := ⟨R.HASH_CTX_CFG e, 2, 1⟩
def R.HASH_CTX_LEN (e : Nat) : Nat := 0x100F2140 + 8 * e
def F.HASH_CTX_LEN_BYTES (e : Nat) : Fld := ⟨R.HASH_CTX_LEN e, 0, 64⟩
def R.HASH_CTX_STATE (e : Nat) : Nat := 0x100F2180 + 4 * e
def F.HASH_CTX_STATE_OPEN (e : Nat) : Fld := ⟨R.HASH_CTX_STATE e, 0, 1⟩
def R.HASH_CTX_DIGEST (e w : Nat) : Nat := 0x100F2400 + 64 * e + 4 * w
def F.HASH_CTX_DIGEST_DIGEST (e w : Nat) : Fld := ⟨R.HASH_CTX_DIGEST e w, 0, 32⟩
def R.PKA_INFO : Nat := 0x100F3040
def F.PKA_INFO_OPS : Fld := ⟨R.PKA_INFO, 0, 7⟩
def R.PKA_STAT : Nat := 0x100F3044
def F.PKA_STAT_BUSY : Fld := ⟨R.PKA_STAT, 0, 1⟩
def F.PKA_STAT_FROM_CMD : Fld := ⟨R.PKA_STAT, 1, 1⟩
def F.PKA_STAT_CH : Fld := ⟨R.PKA_STAT, 16, 12⟩
def R.PKA_CMD : Nat := 0x100F3048
def F.PKA_CMD_OP : Fld := ⟨R.PKA_CMD, 0, 4⟩
def F.PKA_CMD_CURVE : Fld := ⟨R.PKA_CMD, 4, 1⟩
def F.PKA_CMD_KEY_SLOT : Fld := ⟨R.PKA_CMD, 5, 1⟩
def F.PKA_CMD_SLOT : Fld := ⟨R.PKA_CMD, 8, 4⟩
def F.PKA_CMD_GO : Fld := ⟨R.PKA_CMD, 16, 1⟩
def F.PKA_CMD_DONE : Fld := ⟨R.PKA_CMD, 24, 1⟩
def F.PKA_CMD_RESULT : Fld := ⟨R.PKA_CMD, 28, 4⟩
def R.PKA_LEN : Nat := 0x100F304C
def F.PKA_LEN_LEN : Fld := ⟨R.PKA_LEN, 0, 10⟩
def R.PKA_KAT : Nat := 0x100F3050
def F.PKA_KAT_GO : Fld := ⟨R.PKA_KAT, 0, 1⟩
def F.PKA_KAT_BUSY : Fld := ⟨R.PKA_KAT, 1, 1⟩
def F.PKA_KAT_PASS : Fld := ⟨R.PKA_KAT, 2, 1⟩
def F.PKA_KAT_FAIL : Fld := ⟨R.PKA_KAT, 3, 1⟩
def R.PKA_ERR : Nat := 0x100F3054
def F.PKA_ERR_COUNT : Fld := ⟨R.PKA_ERR, 0, 16⟩
def F.PKA_ERR_SAT : Fld := ⟨R.PKA_ERR, 31, 1⟩
def F.PKA_ERR_LAST_DETAIL : Fld := ⟨R.PKA_ERR, 16, 4⟩
def R.PKA_NONCE_FAIL : Nat := 0x100F3058
def F.PKA_NONCE_FAIL_COUNT : Fld := ⟨R.PKA_NONCE_FAIL, 0, 16⟩
def F.PKA_NONCE_FAIL_SAT : Fld := ⟨R.PKA_NONCE_FAIL, 31, 1⟩
def R.PKA_COUNT : Nat := 0x100F305C
def F.PKA_COUNT_COUNT : Fld := ⟨R.PKA_COUNT, 0, 16⟩
def F.PKA_COUNT_SAT : Fld := ⟨R.PKA_COUNT, 31, 1⟩
def R.PKA_TIME : Nat := 0x100F3060
def F.PKA_TIME_US : Fld := ⟨R.PKA_TIME, 0, 16⟩
def R.PKA_MEM (n : Nat) : Nat := 0x100F3400 + 4 * n
def F.PKA_MEM_DATA (n : Nat) : Fld := ⟨R.PKA_MEM n, 0, 32⟩
def R.KEYS_SLOT_CMD : Nat := 0x100F4040
def F.KEYS_SLOT_CMD_OP : Fld := ⟨R.KEYS_SLOT_CMD, 0, 3⟩
def F.KEYS_SLOT_CMD_SLOT : Fld := ⟨R.KEYS_SLOT_CMD, 4, 4⟩
def F.KEYS_SLOT_CMD_SRC : Fld := ⟨R.KEYS_SLOT_CMD, 8, 5⟩
def F.KEYS_SLOT_CMD_USAGE : Fld := ⟨R.KEYS_SLOT_CMD, 16, 4⟩
def R.KEYS_SLOT_STAT : Nat := 0x100F4044
def F.KEYS_SLOT_STAT_VALID : Fld := ⟨R.KEYS_SLOT_STAT, 0, 16⟩
def F.KEYS_SLOT_STAT_BUSY : Fld := ⟨R.KEYS_SLOT_STAT, 16, 1⟩
def F.KEYS_SLOT_STAT_USAGE : Fld := ⟨R.KEYS_SLOT_STAT, 20, 4⟩
def R.KEYS_SLOT_DATA (n : Nat) : Nat := 0x100F4060 + 4 * n
def F.KEYS_SLOT_DATA_DATA (n : Nat) : Fld := ⟨R.KEYS_SLOT_DATA n, 0, 32⟩
def R.KEYS_LABEL (n : Nat) : Nat := 0x100F4080 + 4 * n
def F.KEYS_LABEL_LABEL (n : Nat) : Fld := ⟨R.KEYS_LABEL n, 0, 32⟩
def R.KEYS_OTP_CTRL : Nat := 0x100F40A0
def F.KEYS_OTP_CTRL_ADDR : Fld := ⟨R.KEYS_OTP_CTRL, 0, 8⟩
def F.KEYS_OTP_CTRL_CMD : Fld := ⟨R.KEYS_OTP_CTRL, 8, 3⟩
def F.KEYS_OTP_CTRL_BUSY : Fld := ⟨R.KEYS_OTP_CTRL, 16, 1⟩
def F.KEYS_OTP_CTRL_MATCH : Fld := ⟨R.KEYS_OTP_CTRL, 17, 1⟩
def F.KEYS_OTP_CTRL_UE : Fld := ⟨R.KEYS_OTP_CTRL, 18, 1⟩
def R.KEYS_OTP_DATA : Nat := 0x100F40A4
def F.KEYS_OTP_DATA_DATA : Fld := ⟨R.KEYS_OTP_DATA, 0, 32⟩
def R.KEYS_TAMPER_CFG : Nat := 0x100F40C0
def F.KEYS_TAMPER_CFG_EN : Fld := ⟨R.KEYS_TAMPER_CFG, 0, 2⟩
def F.KEYS_TAMPER_CFG_POL : Fld := ⟨R.KEYS_TAMPER_CFG, 2, 2⟩
def F.KEYS_TAMPER_CFG_FILT : Fld := ⟨R.KEYS_TAMPER_CFG, 4, 2⟩
def F.KEYS_TAMPER_CFG_ERASE_KEYS : Fld := ⟨R.KEYS_TAMPER_CFG, 8, 1⟩
def F.KEYS_TAMPER_CFG_ERASE_RETAIN : Fld := ⟨R.KEYS_TAMPER_CFG, 9, 1⟩
def F.KEYS_TAMPER_CFG_KILL_SNAP : Fld := ⟨R.KEYS_TAMPER_CFG, 10, 1⟩
def F.KEYS_TAMPER_CFG_IRQ : Fld := ⟨R.KEYS_TAMPER_CFG, 12, 1⟩
def R.KEYS_TAMPER_STAT : Nat := 0x100F40C4
def F.KEYS_TAMPER_STAT_LATCHED : Fld := ⟨R.KEYS_TAMPER_STAT, 0, 2⟩
def F.KEYS_TAMPER_STAT_COUNT : Fld := ⟨R.KEYS_TAMPER_STAT, 8, 8⟩
def F.KEYS_TAMPER_STAT_LEVEL : Fld := ⟨R.KEYS_TAMPER_STAT, 16, 2⟩
def R.BELAY_CFG : Nat := 0x10005040
def F.BELAY_CFG_SOFT_FAULT_N : Fld := ⟨R.BELAY_CFG, 0, 1⟩
def F.BELAY_CFG_LOG_CE : Fld := ⟨R.BELAY_CFG, 1, 1⟩
def F.BELAY_CFG_RESET_DELAY : Fld := ⟨R.BELAY_CFG, 8, 8⟩
def F.BELAY_CFG_MIN_LOW : Fld := ⟨R.BELAY_CFG, 16, 8⟩
def R.BELAY_STAT : Nat := 0x10005044
def F.BELAY_STAT_STARTUP_DONE : Fld := ⟨R.BELAY_STAT, 0, 1⟩
def F.BELAY_STAT_ARMED : Fld := ⟨R.BELAY_STAT, 1, 1⟩
def F.BELAY_STAT_FAULT : Fld := ⟨R.BELAY_STAT, 2, 1⟩
def F.BELAY_STAT_GUARANTEE : Fld := ⟨R.BELAY_STAT, 3, 1⟩
def F.BELAY_STAT_WOULD : Fld := ⟨R.BELAY_STAT, 4, 1⟩
def F.BELAY_STAT_HIGHEST : Fld := ⟨R.BELAY_STAT, 8, 3⟩
def R.BELAY_COND : Nat := 0x10005048
def F.BELAY_COND_COND : Fld := ⟨R.BELAY_COND, 0, 7⟩
def R.BELAY_ARM : Nat := 0x1000504C
def F.BELAY_ARM_KEY : Fld := ⟨R.BELAY_ARM, 0, 16⟩
def R.BELAY_PEND : Nat := 0x10005050
def F.BELAY_PEND_PEND : Fld := ⟨R.BELAY_PEND, 1, 25⟩
def R.BELAY_REACT (n : Nat) : Nat := 0x10005060 + 4 * n
def F.BELAY_REACT_REACT (s : Nat) : Fld := ⟨R.BELAY_REACT (s / 16), 2 * (s % 16), 2⟩
def R.BELAY_SOFT : Nat := 0x10005070
def F.BELAY_SOFT_CODE : Fld := ⟨R.BELAY_SOFT, 0, 8⟩
def R.BELAY_LOG_BASE : Nat := 0x10005074
def F.BELAY_LOG_BASE_BASE : Fld := ⟨R.BELAY_LOG_BASE, 12, 11⟩
def R.BELAY_LOG_CTRL : Nat := 0x10005078
def F.BELAY_LOG_CTRL_EN : Fld := ⟨R.BELAY_LOG_CTRL, 0, 1⟩
def F.BELAY_LOG_CTRL_ORDER : Fld := ⟨R.BELAY_LOG_CTRL, 8, 4⟩
def R.BELAY_LOG_POS : Nat := 0x1000507C
def F.BELAY_LOG_POS_NEXT : Fld := ⟨R.BELAY_LOG_POS, 0, 12⟩
def F.BELAY_LOG_POS_LOST : Fld := ⟨R.BELAY_LOG_POS, 16, 15⟩
def F.BELAY_LOG_POS_SAT : Fld := ⟨R.BELAY_LOG_POS, 31, 1⟩
def R.BELAY_BC_ECC : Nat := 0x10005080
def F.BELAY_BC_ECC_CE : Fld := ⟨R.BELAY_BC_ECC, 0, 15⟩
def F.BELAY_BC_ECC_CSAT : Fld := ⟨R.BELAY_BC_ECC, 15, 1⟩
def F.BELAY_BC_ECC_UE : Fld := ⟨R.BELAY_BC_ECC, 16, 15⟩
def F.BELAY_BC_ECC_USAT : Fld := ⟨R.BELAY_BC_ECC, 31, 1⟩
def R.BELAY_ROM_ECC : Nat := 0x10005084
def F.BELAY_ROM_ECC_CE : Fld := ⟨R.BELAY_ROM_ECC, 0, 15⟩
def F.BELAY_ROM_ECC_CSAT : Fld := ⟨R.BELAY_ROM_ECC, 15, 1⟩
def F.BELAY_ROM_ECC_UE : Fld := ⟨R.BELAY_ROM_ECC, 16, 15⟩
def F.BELAY_ROM_ECC_USAT : Fld := ⟨R.BELAY_ROM_ECC, 31, 1⟩
def R.BELAY_CRC_STAT : Nat := 0x10005088
def F.BELAY_CRC_STAT_PAGES : Fld := ⟨R.BELAY_CRC_STAT, 0, 7⟩
def F.BELAY_CRC_STAT_LAST_BAD : Fld := ⟨R.BELAY_CRC_STAT, 8, 7⟩
def F.BELAY_CRC_STAT_PASS_US : Fld := ⟨R.BELAY_CRC_STAT, 16, 16⟩
def R.BELAY_SCRUB_STAT : Nat := 0x1000508C
def F.BELAY_SCRUB_STAT_L3_PASS_US : Fld := ⟨R.BELAY_SCRUB_STAT, 0, 16⟩
def F.BELAY_SCRUB_STAT_SRAM_PASS_US : Fld := ⟨R.BELAY_SCRUB_STAT, 16, 16⟩
def R.BELAY_MON : Nat := 0x10005090
def F.BELAY_MON_RAIL_OK : Fld := ⟨R.BELAY_MON, 0, 8⟩
def F.BELAY_MON_VMON_EN : Fld := ⟨R.BELAY_MON, 8, 1⟩
def R.BELAY_SELFTEST : Nat := 0x10005094
def F.BELAY_SELFTEST_GO : Fld := ⟨R.BELAY_SELFTEST, 0, 1⟩
def F.BELAY_SELFTEST_BUSY : Fld := ⟨R.BELAY_SELFTEST, 1, 1⟩
def F.BELAY_SELFTEST_PASS : Fld := ⟨R.BELAY_SELFTEST, 2, 1⟩
def F.BELAY_SELFTEST_FAIL : Fld := ⟨R.BELAY_SELFTEST, 3, 1⟩
def R.BELAY_SIGNALLED : Nat := 0x10005098
def F.BELAY_SIGNALLED_COUNT : Fld := ⟨R.BELAY_SIGNALLED, 0, 16⟩
def F.BELAY_SIGNALLED_SAT : Fld := ⟨R.BELAY_SIGNALLED, 31, 1⟩
def R.BELAY_LAST (n : Nat) : Nat := 0x100050A0 + 4 * n
def F.BELAY_LAST_ENTRY (n : Nat) : Fld := ⟨R.BELAY_LAST n, 0, 32⟩
def R.WDOG_INFO : Nat := 0x10007040
def F.WDOG_INFO_PRESENT : Fld := ⟨R.WDOG_INFO, 0, 4⟩
def R.WDOG_COUNT : Nat := 0x10007044
def F.WDOG_COUNT_COUNT : Fld := ⟨R.WDOG_COUNT, 0, 16⟩
def F.WDOG_COUNT_SAT : Fld := ⟨R.WDOG_COUNT, 31, 1⟩
def R.WDOG_CTRL (n : Nat) : Nat := 0x10007080 + 32 * n
def F.WDOG_CTRL_EN (n : Nat) : Fld := ⟨R.WDOG_CTRL n, 0, 1⟩
def R.WDOG_TIMEOUT (n : Nat) : Nat := 0x10007084 + 32 * n
def F.WDOG_TIMEOUT_MS (n : Nat) : Fld := ⟨R.WDOG_TIMEOUT n, 0, 16⟩
def R.WDOG_WINDOW (n : Nat) : Nat := 0x10007088 + 32 * n
def F.WDOG_WINDOW_MS (n : Nat) : Fld := ⟨R.WDOG_WINDOW n, 0, 16⟩
def R.WDOG_WARN (n : Nat) : Nat := 0x1000708C + 32 * n
def F.WDOG_WARN_MS (n : Nat) : Fld := ⟨R.WDOG_WARN n, 0, 16⟩
def R.WDOG_KICK (n : Nat) : Nat := 0x10007090 + 32 * n
def F.WDOG_KICK_KEY (n : Nat) : Fld := ⟨R.WDOG_KICK n, 0, 32⟩
def R.WDOG_STAT (n : Nat) : Nat := 0x10007094 + 32 * n
def F.WDOG_STAT_RUNNING (n : Nat) : Fld := ⟨R.WDOG_STAT n, 0, 1⟩
def F.WDOG_STAT_EXPIRED (n : Nat) : Fld := ⟨R.WDOG_STAT n, 1, 1⟩
def F.WDOG_STAT_WARNED (n : Nat) : Fld := ⟨R.WDOG_STAT n, 2, 1⟩
def F.WDOG_STAT_EARLY (n : Nat) : Fld := ⟨R.WDOG_STAT n, 3, 1⟩
def R.WDOG_LEFT (n : Nat) : Nat := 0x10007098 + 32 * n
def F.WDOG_LEFT_MS (n : Nat) : Fld := ⟨R.WDOG_LEFT n, 0, 16⟩
def R.WDOG_BAD (n : Nat) : Nat := 0x1000709C + 32 * n
def F.WDOG_BAD_COUNT (n : Nat) : Fld := ⟨R.WDOG_BAD n, 0, 8⟩
def R.SCREE_CTRL : Nat := 0x10006040
def F.SCREE_CTRL_ARM : Fld := ⟨R.SCREE_CTRL, 0, 1⟩
def F.SCREE_CTRL_QUIET : Fld := ⟨R.SCREE_CTRL, 1, 1⟩
def F.SCREE_CTRL_FULL_REACT : Fld := ⟨R.SCREE_CTRL, 2, 1⟩
def R.SCREE_STAT : Nat := 0x10006044
def F.SCREE_STAT_ACTIVE : Fld := ⟨R.SCREE_STAT, 0, 1⟩
def F.SCREE_STAT_PERMITTED : Fld := ⟨R.SCREE_STAT, 1, 1⟩
def F.SCREE_STAT_LOCKED : Fld := ⟨R.SCREE_STAT, 2, 1⟩
def R.SCREE_SEED : Nat := 0x10006048
def F.SCREE_SEED_SEED : Fld := ⟨R.SCREE_SEED, 0, 32⟩
def R.SCREE_DELAY (n : Nat) : Nat := 0x10006080 + 4 * n
def F.SCREE_DELAY_NI (n : Nat) : Fld := ⟨R.SCREE_DELAY n, 0, 4⟩
def F.SCREE_DELAY_PLANES (n : Nat) : Fld := ⟨R.SCREE_DELAY n, 4, 4⟩
def F.SCREE_DELAY_CYCLES (n : Nat) : Fld := ⟨R.SCREE_DELAY n, 8, 10⟩
def F.SCREE_DELAY_PROB (n : Nat) : Fld := ⟨R.SCREE_DELAY n, 18, 8⟩
def F.SCREE_DELAY_EN (n : Nat) : Fld := ⟨R.SCREE_DELAY n, 31, 1⟩
def R.SCREE_BP (n : Nat) : Nat := 0x10006090 + 4 * n
def F.SCREE_BP_ROUTER (n : Nat) : Fld := ⟨R.SCREE_BP n, 0, 4⟩
def F.SCREE_BP_PORT (n : Nat) : Fld := ⟨R.SCREE_BP n, 4, 3⟩
def F.SCREE_BP_PLANE (n : Nat) : Fld := ⟨R.SCREE_BP n, 8, 2⟩
def F.SCREE_BP_DUTY (n : Nat) : Fld := ⟨R.SCREE_BP n, 12, 4⟩
def F.SCREE_BP_EN (n : Nat) : Fld := ⟨R.SCREE_BP n, 31, 1⟩
def R.SCREE_TOKEN : Nat := 0x10006098
def F.SCREE_TOKEN_INIT : Fld := ⟨R.SCREE_TOKEN, 0, 4⟩
def F.SCREE_TOKEN_TARGET : Fld := ⟨R.SCREE_TOKEN, 4, 4⟩
def F.SCREE_TOKEN_WITHHOLD : Fld := ⟨R.SCREE_TOKEN, 8, 6⟩
def F.SCREE_TOKEN_EN : Fld := ⟨R.SCREE_TOKEN, 31, 1⟩
def R.SCREE_PICK : Nat := 0x1000609C
def F.SCREE_PICK_RES : Fld := ⟨R.SCREE_PICK, 0, 6⟩
def F.SCREE_PICK_EVERY : Fld := ⟨R.SCREE_PICK, 8, 9⟩
def F.SCREE_PICK_EN : Fld := ⟨R.SCREE_PICK, 31, 1⟩
def R.SCREE_REFRESH : Nat := 0x100060A0
def F.SCREE_REFRESH_RATE : Fld := ⟨R.SCREE_REFRESH, 0, 2⟩
def F.SCREE_REFRESH_HOT : Fld := ⟨R.SCREE_REFRESH, 2, 1⟩
def F.SCREE_REFRESH_EN : Fld := ⟨R.SCREE_REFRESH, 31, 1⟩
def R.SCREE_JITTER : Nat := 0x100060A4
def F.SCREE_JITTER_NS : Fld := ⟨R.SCREE_JITTER, 0, 16⟩
def F.SCREE_JITTER_DROP : Fld := ⟨R.SCREE_JITTER, 16, 8⟩
def F.SCREE_JITTER_EN : Fld := ⟨R.SCREE_JITTER, 31, 1⟩
def R.SCREE_ENTROPY : Nat := 0x100060A8
def F.SCREE_ENTROPY_MODE : Fld := ⟨R.SCREE_ENTROPY, 0, 2⟩
def F.SCREE_ENTROPY_GO : Fld := ⟨R.SCREE_ENTROPY, 8, 1⟩
def R.SCREE_ECC_TARGET : Nat := 0x100060AC
def F.SCREE_ECC_TARGET_ARRAY : Fld := ⟨R.SCREE_ECC_TARGET, 0, 4⟩
def F.SCREE_ECC_TARGET_UNIT : Fld := ⟨R.SCREE_ECC_TARGET, 8, 4⟩
def R.SCREE_ECC_ADDR : Nat := 0x100060B0
def F.SCREE_ECC_ADDR_ADDR : Fld := ⟨R.SCREE_ECC_ADDR, 0, 40⟩
def R.SCREE_ECC_MASK : Nat := 0x100060B8
def F.SCREE_ECC_MASK_BIT_A : Fld := ⟨R.SCREE_ECC_MASK, 0, 9⟩
def F.SCREE_ECC_MASK_BIT_B : Fld := ⟨R.SCREE_ECC_MASK, 16, 9⟩
def F.SCREE_ECC_MASK_DOUBLE : Fld := ⟨R.SCREE_ECC_MASK, 31, 1⟩
def R.SCREE_ECC_GO : Nat := 0x100060BC
def F.SCREE_ECC_GO_GO : Fld := ⟨R.SCREE_ECC_GO, 0, 1⟩
def F.SCREE_ECC_GO_BUSY : Fld := ⟨R.SCREE_ECC_GO, 1, 1⟩
def F.SCREE_ECC_GO_DONE : Fld := ⟨R.SCREE_ECC_GO, 2, 1⟩
def F.SCREE_ECC_GO_MISSED : Fld := ⟨R.SCREE_ECC_GO, 3, 1⟩
def R.SCREE_LOCKSTEP : Nat := 0x100060C0
def F.SCREE_LOCKSTEP_PAIR : Fld := ⟨R.SCREE_LOCKSTEP, 0, 1⟩
def F.SCREE_LOCKSTEP_GO : Fld := ⟨R.SCREE_LOCKSTEP, 8, 1⟩
def R.SCREE_DUP : Nat := 0x100060C4
def F.SCREE_DUP_UNIT : Fld := ⟨R.SCREE_DUP, 0, 2⟩
def F.SCREE_DUP_GO : Fld := ⟨R.SCREE_DUP, 8, 1⟩
def R.SCREE_CRC : Nat := 0x100060C8
def F.SCREE_CRC_PAGE : Fld := ⟨R.SCREE_CRC, 0, 7⟩
def F.SCREE_CRC_GO : Fld := ⟨R.SCREE_CRC, 8, 1⟩
def R.SCREE_MON : Nat := 0x100060CC
def F.SCREE_MON_TARGET : Fld := ⟨R.SCREE_MON, 0, 4⟩
def F.SCREE_MON_COPY_A_ONLY : Fld := ⟨R.SCREE_MON, 8, 1⟩
def F.SCREE_MON_GO : Fld := ⟨R.SCREE_MON, 9, 1⟩
def R.SCREE_LAST : Nat := 0x100060D0
def F.SCREE_LAST_OFFSET : Fld := ⟨R.SCREE_LAST, 0, 12⟩
def R.SCREE_COUNT : Nat := 0x100060D4
def F.SCREE_COUNT_COUNT : Fld := ⟨R.SCREE_COUNT, 0, 16⟩
def F.SCREE_COUNT_SAT : Fld := ⟨R.SCREE_COUNT, 31, 1⟩

end Sys2Proof.Machine
end

