-- ==== Sys2Proof/Machine/Bits.lean ====
section
/-! DEFINITION. Bit fields of a register word (R11): reading and replacing bits [lo + width − 1 : lo], two's complement
fields, and the small arithmetic the chapters use. -/
namespace Sys2Proof.Machine

/-- Bits [lo + width − 1 : lo] of `w` as a number. -/
def Bits.get (w : DWord) (lo width : Nat) : Nat := (w.toNat >>> lo) % 2 ^ width

/-- `w` with bits [lo + width − 1 : lo] replaced by `v`, cut to the width. -/
def Bits.put (w : DWord) (lo width v : Nat) : DWord :=
  (w &&& ~~~ (BitVec.ofNat 64 ((2 ^ width - 1) * 2 ^ lo))) ||| BitVec.ofNat 64 ((v % 2 ^ width) * 2 ^ lo)

/-- Bit `n` of a number. -/
def bitOf (v n : Nat) : Bool := v.testBit n

/-- A truth value as a bit. -/
def b2n (b : Bool) : Nat := if b then 1 else 0

/-- The two's complement value of a field of the given width. -/
def sext (width v : Nat) : Int := if v % 2 ^ width < 2 ^ (width - 1) then (v % 2 ^ width : Nat) else ((v % 2 ^ width : Nat) : Int) - (2 ^ width : Nat)

/-- A whole number as a field of the given width, two's complement. -/
def unsext (width : Nat) (x : Int) : Nat := (x % ((2 ^ width : Nat) : Int)).toNat

/-- The majority of three samples (R78). -/
def maj3 (a b c : Nat) : Nat := (a &&& b) ||| (a &&& c) ||| (b &&& c)

/-- Addition that stops at `lim`. -/
def satAdd (lim a b : Nat) : Nat := if a + b ≤ lim then a + b else lim

/-- Clear the bits of `m` in `a`. -/
def clearBits (a m : Nat) : Nat := a ^^^ (a &&& m)

/-- The number of set bits among the low `n`. -/
def popcount (n v : Nat) : Nat := ((List.range n).filter (fun i => v.testBit i)).length

/-- The position of the lowest set bit among the low `n`. -/
def lowestBit (n v : Nat) : Option Nat := (List.range n).find? (fun i => v.testBit i)

/-- Little-endian value of a byte list (R13). -/
def leNat : List Byte → Nat
  | [] => 0
  | b :: bs => b.toNat + 256 * leNat bs

/-- The `n` little-endian bytes of a number (R13). -/
def leBytes : Nat → Nat → List Byte
  | 0, _ => []
  | n + 1, v => BitVec.ofNat 8 v :: leBytes n (v / 256)

/-- Big-endian value of a byte list. -/
def beNat (bs : List Byte) : Nat := leNat bs.reverse

/-- The `n` big-endian bytes of a number. -/
def beBytes (n v : Nat) : List Byte := (leBytes n v).reverse

/-- `n` bytes of a list from offset `o`, zeros past its end. -/
def slice (o n : Nat) (bs : List Byte) : List Byte :=
  let t := (bs.drop o).take n
  t ++ List.replicate (n - t.length) 0#8

end Sys2Proof.Machine
end

