-- ==== Sys2Proof/Machine/Cipher.lean ====
section
/-! DEFINITION. The AES block cipher (FIPS 197) and the modes of R550 on lists of bytes. -/
namespace Sys2Proof.Machine

/-- Multiply by x in GF(2^8). -/
def Aes.xtime (a : Nat) : Nat := let t := a * 2; if a ≥ 128 then (t - 256) ^^^ 0x1B else t

/-- Multiplication in GF(2^8). -/
def Aes.mul (a b : Nat) : Nat :=
  ((List.range 8).foldl (fun (st : Nat × Nat) i => ((if b.testBit i then st.1 ^^^ st.2 else st.1), Aes.xtime st.2)) (0, a)).1

/-- The inverse in GF(2^8), as the 254th power. -/
def Aes.inv (a : Nat) : Nat :=
  ((List.range 7).foldl (fun (st : Nat × Nat) _ => let sq := Aes.mul st.2 st.2; (Aes.mul st.1 sq, sq)) (1, a)).1

/-- Rotate a byte left. -/
def Aes.rotl (a n : Nat) : Nat := ((a <<< n) ||| (a >>> (8 - n))) % 256

/-- The S-box. -/
def Aes.sbox (a : Nat) : Nat :=
  let i := Aes.inv a
  i ^^^ Aes.rotl i 1 ^^^ Aes.rotl i 2 ^^^ Aes.rotl i 3 ^^^ Aes.rotl i 4 ^^^ 0x63

/-- The inverse S-box. -/
def Aes.isbox (a : Nat) : Nat :=
  Aes.inv (Aes.rotl a 1 ^^^ Aes.rotl a 3 ^^^ Aes.rotl a 6 ^^^ 0x05)

/-- Exclusive or of two lists of numbers. -/
def xorNat (a b : List Nat) : List Nat := (a.zip b).map (fun p => p.1 ^^^ p.2)

/-- Exclusive or of two byte strings, as long as the shorter. -/
def xorBytes (a b : List Byte) : List Byte := (a.zip b).map (fun p => p.1 ^^^ p.2)

/-- Key expansion: `n` further words after the words `ws` (newest first); `i` is the index of the next word. -/
def Aes.expand (nk : Nat) : Nat → Nat → Nat → List (List Nat) → List (List Nat)
  | 0, _, _, ws => ws
  | n + 1, i, rc, ws =>
    let t := ws.headD []
    let t' :=
      if i % nk = 0 then
        xorNat ((t.drop 1 ++ t.take 1).map Aes.sbox) [rc, 0, 0, 0]
      else if nk > 6 ∧ i % nk = 4 then t.map Aes.sbox
      else t
    Aes.expand nk n (i + 1) (if i % nk = 0 then Aes.xtime rc else rc) (xorNat (ws.getD (nk - 1) []) t' :: ws)

/-- The round keys, each of 16 bytes, in order of use. -/
def Aes.roundKeys (key : List Byte) : List (List Nat) :=
  let nk := key.length / 4
  let w0 := (List.range nk).map (fun i => (slice (4 * i) 4 key).map BitVec.toNat)
  let ws := (Aes.expand nk (4 * (nk + 7) - nk) nk 1 w0.reverse).reverse
  (List.range (nk + 7)).map (fun r => (ws.drop (4 * r)).take 4 |>.flatten)

/-- ShiftRows (or its inverse) on 16 bytes in column order. -/
def Aes.shiftRows (fwd : Bool) (s : List Nat) : List Nat :=
  (List.range 16).map (fun i => let r := i % 4; s.getD ((i + 4 * (if fwd then r else 4 - r)) % 16 / 4 * 4 + r) 0)

/-- MixColumns with the row [c0, c1, c2, c3]. -/
def Aes.mixColumns (c : List Nat) (s : List Nat) : List Nat :=
  (List.range 16).map (fun i =>
    (List.range 4).foldl (fun a j => a ^^^ Aes.mul (c.getD j 0) (s.getD (i / 4 * 4 + (i + j) % 4) 0)) 0)

/-- Encrypt one block under the round keys. -/
def Aes.encryptBlock (rks : List (List Nat)) (b : List Byte) : List Byte :=
  match rks with
  | [] => b
  | k0 :: ks =>
    let s0 := xorNat (b.map BitVec.toNat) k0
    let n := ks.length
    let s := (ks.zip (List.range n)).foldl (fun s kr =>
      let t := Aes.shiftRows true (s.map Aes.sbox)
      xorNat (if kr.2 + 1 = n then t else Aes.mixColumns [2, 3, 1, 1] t) kr.1) s0
    s.map (BitVec.ofNat 8)

/-- Decrypt one block under the round keys. -/
def Aes.decryptBlock (rks : List (List Nat)) (b : List Byte) : List Byte :=
  match rks.reverse with
  | [] => b
  | k0 :: ks =>
    let s0 := xorNat (b.map BitVec.toNat) k0
    let n := ks.length
    let s := (ks.zip (List.range n)).foldl (fun s kr =>
      let t := xorNat ((Aes.shiftRows false s).map Aes.isbox) kr.1
      if kr.2 + 1 = n then t else Aes.mixColumns [14, 11, 13, 9] t) s0
    s.map (BitVec.ofNat 8)

/-- The blocks of a string; the last may be short. -/
def Aes.blocks (m : List Byte) : List (List Byte) :=
  (List.range ((m.length + 15) / 16)).map (fun i => (m.drop (16 * i)).take 16)

/-- CBC encryption: the text and the next chaining block. -/
def Aes.cbcEncrypt (rks : List (List Nat)) (iv m : List Byte) : List Byte × List Byte :=
  (Aes.blocks m).foldl (fun st b => let c := Aes.encryptBlock rks (xorBytes b st.2); (st.1 ++ c, c)) ([], iv)

/-- CBC decryption: the text and the next chaining block. -/
def Aes.cbcDecrypt (rks : List (List Nat)) (iv m : List Byte) : List Byte × List Byte :=
  (Aes.blocks m).foldl (fun st b => (st.1 ++ xorBytes (Aes.decryptBlock rks b) st.2, b)) ([], iv)

/-- A block read as a big-endian number, plus `n`. -/
def Aes.addBlock (b : List Byte) (n : Nat) : List Byte := beBytes 16 (beNat b + n)

/-- CTR: the text and the next counter block; the whole block counts as one big-endian number (R550). -/
def Aes.ctr (rks : List (List Nat)) (iv m : List Byte) : List Byte × List Byte :=
  (Aes.blocks m).foldl (fun st b => (st.1 ++ xorBytes b (Aes.encryptBlock rks st.2), Aes.addBlock st.2 1)) ([], iv)

/-- Doubling in GF(2^128) for CMAC. -/
def Aes.dbl (b : List Byte) : List Byte :=
  let v := beNat b
  beBytes 16 (if v ≥ 2 ^ 127 then ((v * 2) % 2 ^ 128) ^^^ 0x87 else v * 2)

/-- CMAC (SP 800-38B). -/
def Aes.cmac (rks : List (List Nat)) (m : List Byte) : List Byte :=
  let k1 := Aes.dbl (Aes.encryptBlock rks (List.replicate 16 0#8))
  let bs := Aes.blocks m
  let last := bs.getLastD []
  let lastX := if last.length = 16 then xorBytes last k1
    else xorBytes (slice 0 16 (last ++ [0x80#8])) (Aes.dbl k1)
  Aes.encryptBlock rks
    (xorBytes (bs.dropLast.foldl (fun c b => Aes.encryptBlock rks (xorBytes b c)) (List.replicate 16 0#8)) lastX)

/-- Multiplication in the field of GHASH, on blocks read as big-endian numbers. -/
def Gcm.mul (x y : Nat) : Nat :=
  ((List.range 128).foldl (fun (st : Nat × Nat) i =>
    ((if x.testBit (127 - i) then st.1 ^^^ st.2 else st.1),
     (if st.2.testBit 0 then (st.2 >>> 1) ^^^ (0xE1 <<< 120) else st.2 >>> 1))) (0, y)).1

/-- GHASH of a string of whole blocks. -/
def Gcm.ghash (h : Nat) (m : List Byte) : Nat :=
  (Aes.blocks m).foldl (fun y b => Gcm.mul (y ^^^ beNat (slice 0 16 b)) h) 0

/-- A string filled with zeros to whole blocks. -/
def Gcm.fill (m : List Byte) : List Byte := m ++ List.replicate ((16 - m.length % 16) % 16) 0#8

/-- The counter mode of GCM from counter block `iv ‖ c`. -/
def Gcm.ctr (rks : List (List Nat)) (iv : List Byte) (c : Nat) (m : List Byte) : List Byte :=
  ((Aes.blocks m).zip (List.range ((m.length + 15) / 16))).flatMap
    (fun bi => xorBytes bi.1 (Aes.encryptBlock rks (iv ++ beBytes 4 (c + bi.2))))

/-- The tag of a ciphertext under a 96-bit IV. -/
def Gcm.tag (rks : List (List Nat)) (iv aad c : List Byte) : List Byte :=
  let h := beNat (Aes.encryptBlock rks (List.replicate 16 0#8))
  let g := Gcm.ghash h (Gcm.fill aad ++ Gcm.fill c ++ beBytes 8 (8 * aad.length) ++ beBytes 8 (8 * c.length))
  xorBytes (beBytes 16 g) (Aes.encryptBlock rks (iv ++ beBytes 4 1))

end Sys2Proof.Machine
end

