-- ==== Sys2Proof/Machine/Hashes.lean ====
section
/-! DEFINITION. The hash functions and checksums the engines compute: SHA-256, SHA-384 and SHA-512 (FIPS 180-4), HMAC
(FIPS 198-1), and the CRCs of the chapters, on lists of bytes. -/
namespace Sys2Proof.Machine

/-- FIPS 180-4, 4.2.2: the SHA-256 constants. -/
def Sha.k256 : List Nat :=
  [0x428a2f98, 0x71374491, 0xb5c0fbcf, 0xe9b5dba5, 0x3956c25b, 0x59f111f1, 0x923f82a4, 0xab1c5ed5] ++
  [0xd807aa98, 0x12835b01, 0x243185be, 0x550c7dc3, 0x72be5d74, 0x80deb1fe, 0x9bdc06a7, 0xc19bf174] ++
  [0xe49b69c1, 0xefbe4786, 0xfc19dc6, 0x240ca1cc, 0x2de92c6f, 0x4a7484aa, 0x5cb0a9dc, 0x76f988da] ++
  [0x983e5152, 0xa831c66d, 0xb00327c8, 0xbf597fc7, 0xc6e00bf3, 0xd5a79147, 0x6ca6351, 0x14292967] ++
  [0x27b70a85, 0x2e1b2138, 0x4d2c6dfc, 0x53380d13, 0x650a7354, 0x766a0abb, 0x81c2c92e, 0x92722c85] ++
  [0xa2bfe8a1, 0xa81a664b, 0xc24b8b70, 0xc76c51a3, 0xd192e819, 0xd6990624, 0xf40e3585, 0x106aa070] ++
  [0x19a4c116, 0x1e376c08, 0x2748774c, 0x34b0bcb5, 0x391c0cb3, 0x4ed8aa4a, 0x5b9cca4f, 0x682e6ff3] ++
  [0x748f82ee, 0x78a5636f, 0x84c87814, 0x8cc70208, 0x90befffa, 0xa4506ceb, 0xbef9a3f7, 0xc67178f2]

/-- FIPS 180-4, 4.2.3: the SHA-512 constants. -/
def Sha.k512 : List Nat :=
  [0x428a2f98d728ae22, 0x7137449123ef65cd, 0xb5c0fbcfec4d3b2f, 0xe9b5dba58189dbbc] ++
  [0x3956c25bf348b538, 0x59f111f1b605d019, 0x923f82a4af194f9b, 0xab1c5ed5da6d8118] ++
  [0xd807aa98a3030242, 0x12835b0145706fbe, 0x243185be4ee4b28c, 0x550c7dc3d5ffb4e2] ++
  [0x72be5d74f27b896f, 0x80deb1fe3b1696b1, 0x9bdc06a725c71235, 0xc19bf174cf692694] ++
  [0xe49b69c19ef14ad2, 0xefbe4786384f25e3, 0xfc19dc68b8cd5b5, 0x240ca1cc77ac9c65] ++
  [0x2de92c6f592b0275, 0x4a7484aa6ea6e483, 0x5cb0a9dcbd41fbd4, 0x76f988da831153b5] ++
  [0x983e5152ee66dfab, 0xa831c66d2db43210, 0xb00327c898fb213f, 0xbf597fc7beef0ee4] ++
  [0xc6e00bf33da88fc2, 0xd5a79147930aa725, 0x6ca6351e003826f, 0x142929670a0e6e70] ++
  [0x27b70a8546d22ffc, 0x2e1b21385c26c926, 0x4d2c6dfc5ac42aed, 0x53380d139d95b3df] ++
  [0x650a73548baf63de, 0x766a0abb3c77b2a8, 0x81c2c92e47edaee6, 0x92722c851482353b] ++
  [0xa2bfe8a14cf10364, 0xa81a664bbc423001, 0xc24b8b70d0f89791, 0xc76c51a30654be30] ++
  [0xd192e819d6ef5218, 0xd69906245565a910, 0xf40e35855771202a, 0x106aa07032bbd1b8] ++
  [0x19a4c116b8d2d0c8, 0x1e376c085141ab53, 0x2748774cdf8eeb99, 0x34b0bcb5e19b48a8] ++
  [0x391c0cb3c5c95a63, 0x4ed8aa4ae3418acb, 0x5b9cca4f7763e373, 0x682e6ff3d6b2b8a3] ++
  [0x748f82ee5defb2fc, 0x78a5636f43172f60, 0x84c87814a1f0ab72, 0x8cc702081a6439ec] ++
  [0x90befffa23631e28, 0xa4506cebde82bde9, 0xbef9a3f7b2c67915, 0xc67178f2e372532b] ++
  [0xca273eceea26619c, 0xd186b8c721c0c207, 0xeada7dd6cde0eb1e, 0xf57d4f7fee6ed178] ++
  [0x6f067aa72176fba, 0xa637dc5a2c898a6, 0x113f9804bef90dae, 0x1b710b35131c471b] ++
  [0x28db77f523047d84, 0x32caab7b40c72493, 0x3c9ebe0a15c9bebc, 0x431d67c49c100d4c] ++
  [0x4cc5d4becb3e42b6, 0x597f299cfc657e2a, 0x5fcb6fab3ad6faec, 0x6c44198c4a475817]

/-- FIPS 180-4, 5.3.3. -/
def Sha.h256 : List Nat :=
  [0x6a09e667, 0xbb67ae85, 0x3c6ef372, 0xa54ff53a, 0x510e527f, 0x9b05688c, 0x1f83d9ab, 0x5be0cd19]

/-- FIPS 180-4, 5.3.4. -/
def Sha.h384 : List Nat :=
  [0xcbbb9d5dc1059ed8, 0x629a292a367cd507, 0x9159015a3070dd17, 0x152fecd8f70e5939] ++
  [0x67332667ffc00b31, 0x8eb44a8768581511, 0xdb0c2e0d64f98fa7, 0x47b5481dbefa4fa4]

/-- FIPS 180-4, 5.3.5. -/
def Sha.h512 : List Nat :=
  [0x6a09e667f3bcc908, 0xbb67ae8584caa73b, 0x3c6ef372fe94f82b, 0xa54ff53a5f1d36f1] ++
  [0x510e527fade682d1, 0x9b05688c2b3e6c1f, 0x1f83d9abfb41bd6b, 0x5be0cd19137e2179]

/-- The size of a word and the rotations of one of the two SHA-2 families. -/
structure Sha.Params where
  /-- word size in bits -/
  w : Nat
  /-- Σ0, Σ1 -/
  big : List (List Nat)
  /-- σ0, σ1: two rotations and a shift -/
  small : List (List Nat)
  /-- round constants -/
  k : List Nat

/-- SHA-256. -/
def Sha.p256 : Sha.Params := ⟨32, [[2, 13, 22], [6, 11, 25]], [[7, 18, 3], [17, 19, 10]], Sha.k256⟩
/-- SHA-384 and SHA-512. -/
def Sha.p512 : Sha.Params := ⟨64, [[28, 34, 39], [14, 18, 41]], [[1, 8, 7], [19, 61, 6]], Sha.k512⟩

/-- Rotate right. -/
def Sha.rotr (w n x : Nat) : Nat := (x >>> n) ||| ((x <<< (w - n)) % 2 ^ w)

/-- Σ: the exclusive or of three rotations. -/
def Sha.sigmaBig (p : Sha.Params) (i x : Nat) : Nat :=
  (p.big.getD i []).foldl (fun a r => a ^^^ Sha.rotr p.w r x) 0

/-- σ: two rotations and a shift. -/
def Sha.sigmaSmall (p : Sha.Params) (i x : Nat) : Nat :=
  let r := p.small.getD i []
  Sha.rotr p.w (r.getD 0 0) x ^^^ Sha.rotr p.w (r.getD 1 0) x ^^^ (x >>> r.getD 2 0)

/-- The message schedule, newest word first, extended by `n` words. -/
def Sha.schedule (p : Sha.Params) : Nat → List Nat → List Nat
  | 0, ws => ws
  | n + 1, ws =>
    Sha.schedule p n
      (((Sha.sigmaSmall p 1 (ws.getD 1 0) + ws.getD 6 0 + Sha.sigmaSmall p 0 (ws.getD 14 0) + ws.getD 15 0) % 2 ^ p.w) :: ws)

/-- One round. -/
def Sha.round (p : Sha.Params) (h : List Nat) (kw : Nat × Nat) : List Nat :=
  match h with
  | [a, b, c, d, e, f, g, x] =>
    let m := 2 ^ p.w
    let ch := (e &&& f) ^^^ ((e ^^^ (m - 1)) &&& g)
    let maj := (a &&& b) ^^^ (a &&& c) ^^^ (b &&& c)
    let t1 := (x + Sha.sigmaBig p 1 e + ch + kw.1 + kw.2) % m
    let t2 := (Sha.sigmaBig p 0 a + maj) % m
    [(t1 + t2) % m, a, b, c, (d + t1) % m, e, f, g]
  | _ => h

/-- The big-endian words of a block. -/
def Sha.words (p : Sha.Params) (b : List Byte) : List Nat :=
  (List.range 16).map (fun i => beNat (slice (p.w / 8 * i) (p.w / 8) b))

/-- The compression function on one block. -/
def Sha.compress (p : Sha.Params) (h : List Nat) (b : List Byte) : List Nat :=
  let ws := (Sha.schedule p (p.k.length - 16) (Sha.words p b).reverse).reverse
  let r := (p.k.zip ws).foldl (Sha.round p) h
  (h.zip r).map (fun x => (x.1 + x.2) % 2 ^ p.w)

/-- Absorb `n` whole blocks. -/
def Sha.absorb (p : Sha.Params) : Nat → List Nat → List Byte → List Nat
  | 0, h, _ => h
  | n + 1, h, bs => Sha.absorb p n (Sha.compress p h (bs.take (p.w * 2))) (bs.drop (p.w * 2))

/-- The padding of a message whose last `n` bytes are still to come and whose total length is `total` bytes. -/
def Sha.pad (p : Sha.Params) (n total : Nat) : List Byte :=
  let blk := p.w * 2
  let z := (blk - (n + 1 + p.w / 4) % blk) % blk
  [0x80#8] ++ List.replicate z 0#8 ++ beBytes (p.w / 4) (8 * total)

/-- Finish a message: absorb the last bytes and the padding, and cut the digest to `len` bytes. -/
def Sha.finish (p : Sha.Params) (len : Nat) (h : List Nat) (total : Nat) (last : List Byte) : List Byte :=
  let m := last ++ Sha.pad p last.length total
  ((Sha.absorb p (m.length / (p.w * 2)) h m).flatMap (beBytes (p.w / 8))).take len

/-- An algorithm of HASH_CTX_CFG.ALG: parameters, initial words, digest bytes. -/
def Sha.alg (a : Nat) : Sha.Params × List Nat × Nat :=
  if a = 1 then (Sha.p512, Sha.h384, 48) else if a = 2 then (Sha.p512, Sha.h512, 64) else (Sha.p256, Sha.h256, 32)

/-- The digest of a message under ALG `a`. -/
def Sha.hash (a : Nat) (m : List Byte) : List Byte :=
  let (p, h, n) := Sha.alg a
  Sha.finish p n h m.length m

/-- SHA-256. -/
def sha256 (m : List Byte) : List Byte := Sha.hash 0 m
/-- SHA-512. -/
def sha512 (m : List Byte) : List Byte := Sha.hash 2 m

/-- The HMAC key block of a key, xored with a pad byte; a key longer than a block is hashed first. -/
def Sha.keyBlock (a : Nat) (key : List Byte) (x : Byte) : List Byte :=
  let blk := (Sha.alg a).1.w * 2
  (slice 0 blk (if key.length ≤ blk then key else Sha.hash a key)).map (· ^^^ x)

/-- HMAC under ALG `a`. -/
def hmac (a : Nat) (key m : List Byte) : List Byte :=
  Sha.hash a (Sha.keyBlock a key 0x5C#8 ++ Sha.hash a (Sha.keyBlock a key 0x36#8 ++ m))

/-- A step of a CRC sent most significant bit first. -/
def Crc.msbStep (w poly : Nat) (c : Nat) (b : Bool) : Nat :=
  let t := (c.testBit (w - 1)) ^^ b
  let c' := (c <<< 1) % 2 ^ w
  if t then c' ^^^ poly else c'

/-- A step of a reflected CRC. -/
def Crc.lsbStep (poly : Nat) (c : Nat) (b : Bool) : Nat :=
  let t := (c.testBit 0) ^^ b
  if t then (c >>> 1) ^^^ poly else c >>> 1

/-- The bits of a byte, most significant first. -/
def bitsMsb (b : Byte) : List Bool := (List.range 8).map (fun i => b.toNat.testBit (7 - i))
/-- The bits of a byte, least significant first. -/
def bitsLsb (b : Byte) : List Bool := (List.range 8).map (fun i => b.toNat.testBit i)

/-- CRC-8, polynomial 0x07, initial value 0, no reflection, no inversion (R522). -/
def crc8 (bs : List Byte) : Nat := (bs.flatMap bitsMsb).foldl (Crc.msbStep 8 0x07) 0

/-- A reflected CRC-32 continued from `c`, without inversions. -/
def Crc.run32 (poly c : Nat) (bs : List Byte) : Nat := (bs.flatMap bitsLsb).foldl (Crc.lsbStep poly) c

/-- CRC-32 of IEEE 802.3: reflected polynomial, all-ones initial value, inverted. -/
def crc32 (bs : List Byte) : Nat := Crc.run32 0xEDB88320 0xFFFFFFFF bs ^^^ 0xFFFFFFFF
/-- CRC-32C (Castagnoli): reflected polynomial, all-ones initial value, inverted. -/
def crc32c (bs : List Byte) : Nat := Crc.run32 0x82F63B78 0xFFFFFFFF bs ^^^ 0xFFFFFFFF
/-- CRC-16 of Modbus: reflected 0x8005, initial value 0xFFFF. -/
def crc16Modbus (bs : List Byte) : Nat := Crc.run32 0xA001 0xFFFF bs

end Sys2Proof.Machine
end

