-- ==== Sys2Proof/Machine/Curves.lean ====
section
/-! DEFINITION. The public-key operations of Table Keys-9 on numbers: ECDSA and ECDH on P-256 and P-384 (FIPS 186-5),
X25519 (RFC 7748) and Ed25519 (FIPS 186-5, RFC 8032). -/
namespace Sys2Proof.Machine

/-- `b ^ e` modulo `m`, from the bits of `e`, lowest first, `n` of them. -/
def powMod (m : Nat) : Nat → Nat → Nat → Nat → Nat
  | 0, _, _, acc => acc
  | n + 1, b, e, acc => powMod m n (b * b % m) (e / 2) (if e % 2 = 1 then acc * b % m else acc)

/-- The inverse modulo a prime of at most 521 bits. -/
def invMod (p a : Nat) : Nat := powMod p 521 (a % p) (p - 2) (1 % p)

/-- A short Weierstrass curve y² = x³ − 3x + b. -/
structure Curve where
  /-- field prime -/
  p : Nat
  /-- coefficient b -/
  b : Nat
  /-- order of the base point -/
  n : Nat
  /-- base point -/
  gx : Nat
  /-- base point -/
  gy : Nat
  /-- bytes of a coordinate -/
  s : Nat

/-- P-256. -/
def Curve.p256 : Curve :=
  { p := 0xffffffff00000001000000000000000000000000ffffffffffffffffffffffff,
    b := 0x5ac635d8aa3a93e7b3ebbd55769886bc651d06b0cc53b0f63bce3c3e27d2604b,
    n := 0xffffffff00000000ffffffffffffffffbce6faada7179e84f3b9cac2fc632551,
    gx := 0x6b17d1f2e12c4247f8bce6e563a440f277037d812deb33a0f4a13945d898c296,
    gy := 0x4fe342e2fe1a7f9b8ee7eb4a7c0f9e162bce33576b315ececbb6406837bf51f5,
    s := 32 }

/-- P-384. -/
def Curve.p384 : Curve :=
  { p := 0xfffffffffffffffffffffffffffffffffffffffffffffffffffffffffffffffeffffffff0000000000000000ffffffff,
    b := 0xb3312fa7e23ee7e4988e056be3f82d19181d9c6efe8141120314088f5013875ac656398d8a2ed19d2a85c8edd3ec2aef,
    n := 0xffffffffffffffffffffffffffffffffffffffffffffffffc7634d81f4372ddf581a0db248b0a77aecec196accc52973,
    gx := 0xaa87ca22be8b05378eb1c71ef320ad746e1d3b628ba79b9859f741e082542a385502f25dbf55296c3a545e3872760ab7,
    gy := 0x3617de4a96262c6f5d9e98bf9292dc29f8f41dbd289a147ce9da3113b5f0b8c00a60b1ce1d7e819d7a431d7c90ea0e5f,
    s := 48 }

/-- Adding points; `none` is the point at infinity. -/
def Curve.add (c : Curve) (a b : Option (Nat × Nat)) : Option (Nat × Nat) :=
  match a, b with
  | none, q => q
  | q, none => q
  | some (x1, y1), some (x2, y2) =>
    if x1 = x2 ∧ (y1 + y2) % c.p = 0 then none else
    let l := if x1 = x2 then (3 * x1 * x1 + 3 * (c.p - 1)) * invMod c.p (2 * y1) % c.p
      else (y2 + c.p - y1) * invMod c.p (x2 + c.p - x1) % c.p
    let x := (l * l + 2 * c.p - x1 - x2) % c.p
    some (x, (l * (x1 + c.p - x) + c.p - y1) % c.p)

/-- Scalar multiplication over `n` bits, lowest first. -/
def Curve.mulFuel (c : Curve) : Nat → Nat → Option (Nat × Nat) → Option (Nat × Nat) → Option (Nat × Nat)
  | 0, _, _, acc => acc
  | n + 1, k, q, acc => Curve.mulFuel c n (k / 2) (c.add q q) (if k % 2 = 1 then c.add acc q else acc)

/-- Scalar multiplication. -/
def Curve.mul (c : Curve) (k : Nat) (q : Option (Nat × Nat)) : Option (Nat × Nat) := Curve.mulFuel c (8 * c.s) k q none

/-- The base point. -/
def Curve.g (c : Curve) : Option (Nat × Nat) := some (c.gx, c.gy)

/-- A pair of numbers below p is a point of the curve. -/
def Curve.on (c : Curve) (x y : Nat) : Bool :=
  decide (x < c.p ∧ y < c.p) && decide ((y * y) % c.p = (x * x * x + 3 * (c.p - 1) * x + c.b) % c.p)

/-- Big-endian bytes of a coordinate. -/
def Curve.out (c : Curve) (v : Nat) : List Byte := beBytes c.s v

/-- ECDSA signature of the digest value `e` with key `d` and nonce `k`. -/
def Curve.sign (c : Curve) (d e k : Nat) : List Byte :=
  match c.mul k c.g with
  | none => List.replicate (2 * c.s) 0#8
  | some (x, _) =>
    let r := x % c.n
    c.out r ++ c.out (invMod c.n k * (e + r * d) % c.n)

/-- ECDSA verification. -/
def Curve.verify (c : Curve) (e qx qy r s : Nat) : Bool :=
  decide (0 < r ∧ r < c.n ∧ 0 < s ∧ s < c.n) &&
  (let w := invMod c.n s
   match c.add (c.mul (e * w % c.n) c.g) (c.mul (r * w % c.n) (some (qx, qy))) with
   | none => false
   | some (x, _) => decide (x % c.n = r))

/-- The prime of Curve25519. -/
def X25519.p : Nat := 2 ^ 255 - 19

/-- The Montgomery ladder of RFC 7748 over the bits of `k`, highest first. -/
def X25519.ladder (x1 : Nat) : List Bool → Nat × Nat × Nat × Nat → Nat × Nat × Nat × Nat
  | [], st => st
  | bit :: bs, (x2, z2, x3, z3) =>
    let p := X25519.p
    let (x2, z2, x3, z3) := if bit then (x3, z3, x2, z2) else (x2, z2, x3, z3)
    let a := (x2 + z2) % p
    let aa := a * a % p
    let b := (x2 + p - z2) % p
    let bb := b * b % p
    let e := (aa + p - bb) % p
    let cc := (x3 + z3) % p
    let d := (x3 + p - z3) % p
    let da := d * a % p
    let cb := cc * b % p
    let nx3 := (da + cb) * (da + cb) % p
    let t := (da + p - cb) % p
    let nz3 := x1 * (t * t % p) % p
    let nx2 := aa * bb % p
    let nz2 := e * (aa + 121665 * e) % p
    let r := (nx2, nz2, nx3, nz3)
    X25519.ladder x1 bs (if bit then (r.2.2.1, r.2.2.2, r.1, r.2.1) else r)

/-- X25519 of a scalar and a u-coordinate, both as 32 little-endian bytes. -/
def x25519 (k u : List Byte) : List Byte :=
  let kn := (leNat k % 2 ^ 254) / 8 * 8 + 2 ^ 254
  let un := leNat u % 2 ^ 255 % X25519.p
  let (x2, z2, _, _) := X25519.ladder un ((List.range 255).map (fun i => kn.testBit (254 - i))) (1, 0, un, 1)
  leBytes 32 (x2 * invMod X25519.p z2 % X25519.p)

/-- The order of the Ed25519 base point. -/
def Ed.l : Nat := 2 ^ 252 + 27742317777372353535851937790883648493
/-- The constant d of the Ed25519 curve. -/
def Ed.d : Nat := (X25519.p - 121665) * invMod X25519.p 121666 % X25519.p
/-- The base point. -/
def Ed.base : Nat × Nat :=
  (15112221349535400772501151409588531511454012693041857206046113283949847762202,
   46316835694926478169428394003475163141307993866256225615783033603165251855960)

/-- Addition on the twisted Edwards curve. -/
def Ed.add (a b : Nat × Nat) : Nat × Nat :=
  let p := X25519.p
  let t := Ed.d * (a.1 * b.1 % p) % p * (a.2 * b.2 % p) % p
  ((a.1 * b.2 + b.1 * a.2) % p * invMod p (1 + t) % p, (a.2 * b.2 + a.1 * b.1) % p * invMod p (1 + p - t) % p)

/-- Scalar multiplication over `n` bits, lowest first. -/
def Ed.mulFuel : Nat → Nat → Nat × Nat → Nat × Nat → Nat × Nat
  | 0, _, _, acc => acc
  | n + 1, k, q, acc => Ed.mulFuel n (k / 2) (Ed.add q q) (if k % 2 = 1 then Ed.add acc q else acc)

/-- Scalar multiplication. -/
def Ed.mul (k : Nat) (q : Nat × Nat) : Nat × Nat := Ed.mulFuel 512 k q (0, 1)

/-- A point as 32 bytes. -/
def Ed.encode (q : Nat × Nat) : List Byte := leBytes 32 (q.2 + 2 ^ 255 * (q.1 % 2))

/-- The point 32 bytes encode. -/
def Ed.decode (b : List Byte) : Option (Nat × Nat) :=
  let p := X25519.p
  let y := leNat b % 2 ^ 255
  let sign := leNat b / 2 ^ 255 % 2
  if y ≥ p then none else
  let u := (y * y + p - 1) % p
  let v := (Ed.d * (y * y % p) + 1) % p
  let x2 := u * invMod p v % p
  let r := powMod p 256 x2 ((p + 3) / 8) 1
  let x := if r * r % p = x2 then r else r * powMod p 256 2 ((p - 1) / 4) 1 % p
  if x * x % p ≠ x2 then none
  else if x = 0 ∧ sign = 1 then none
  else some (if x % 2 = sign then x else p - x, y)

/-- The signature of a message under a 32-byte private key and its public key. -/
def ed25519Sign (key pub m : List Byte) : List Byte :=
  let h := sha512 key
  let a := (leNat (h.take 32) % 2 ^ 254) / 8 * 8 + 2 ^ 254
  let r := leNat (sha512 (h.drop 32 ++ m)) % Ed.l
  let rb := Ed.encode (Ed.mul r Ed.base)
  let k := leNat (sha512 (rb ++ pub ++ m)) % Ed.l
  rb ++ leBytes 32 ((r + k * a) % Ed.l)

/-- Verification of a 64-byte signature. -/
def ed25519Verify (pub sig m : List Byte) : Bool :=
  match Ed.decode pub, Ed.decode (sig.take 32) with
  | some a, some r =>
    let s := leNat (sig.drop 32)
    let k := leNat (sha512 (sig.take 32 ++ pub ++ m)) % Ed.l
    decide (s < Ed.l) && decide (Ed.mul s Ed.base = Ed.add r (Ed.mul k a))
  | _, _ => false

end Sys2Proof.Machine
end

