-- ==== Sys2Proof/Config.lean ====
section
/-! DEFINITION. What the spec leaves open and the model leaves free. -/
namespace Sys2Proof

/-- The free values of the model: the `n`-th value that the spec says exists but does not state. It has no body, so no
proof can see what it is; `State.fresh` counts how many have been taken (notes/assumptions/2.md). -/
opaque Config.free : Nat → DWord

/-- R237: which of the results within its error bound a binary64 long operation gives: by funct7 and operand, for the results
never depend on the LOU entry or on the timing (notes/assumptions/50.md). -/
opaque Config.approx : Nat → DWord → DWord

/-- R164: whether a quotient that REED_PERIOD or REED_INC cannot show exactly is shown rounded up: by dividend and divisor
(notes/assumptions/19.md). -/
opaque Config.roundsUp : Nat → Nat → Bool

/-- R268: where a channel keeps the line at a channel-local address: bank in bits [2:0], row above (notes/assumptions/75.md). -/
opaque Config.dramPlace : Nat → Nat

/-- R405, R407: how many non-leaf PTEs the walk cache of Heddle holds (notes/assumptions/78.md). -/
opaque Config.heddleWalkEntries : Nat

/-- Table Harts-12: the manufacturer identity registered for Oroud, in bits [11:1] of IDCODE (notes/assumptions/74.md). -/
opaque Config.jtagManufacturer : BitVec 11

end Sys2Proof
end

