-- ==== Sys2Proof/Machine/RegTable.lean ====
section
/-! DEFINITION. The field tables of every register page as data: for each register its offset, the spacing and number of
its copies, whether it is 64 bits wide, and for each field its bits, access code, reset value and legal values
(R19, R22, R38, R43, R54 and the "Registers" section of each chapter). Fields that a dash marks as reserved and bits no
row lists are left out: R47 makes them reserved runs. Where a table gives no reset value, the value is the one NOTES.md names. -/
namespace Sys2Proof.Machine

/-- The access codes of Table Scope-2 (R19). -/
inductive Acc where
  | rw | ro | w1c | w1s | rc | wo | rwl
deriving DecidableEq, Repr

/-- Legal sets that depend on the index of the register or on other state; each chapter defines its own. -/
inductive DynLegal where
  | resumeAddr | hartRelease | slotTarget | imageBase | statRole | producer | pinMode | chtBase | cqtBase | instBase
  | ethSpeed | padFunc | react | wdogWindow | eccUnit | eccBit | pkaMem | releaseId
deriving DecidableEq, Repr

/-- The Legal column (R42, R43): a numeric range (unsigned or two's complement), a range in steps, powers of two, a list of codes. -/
inductive Legal where
  | any
  | clamp (lo hi : Nat)
  | sclamp (lo hi : Int)
  | clampStep (lo hi step : Nat)
  | clampPow2 (lo hi : Nat)
  | codes (cs : List Nat)
  | dyn (k : DynLegal)
deriving DecidableEq, Repr

/-- One row of a field table: bits [hi:lo], access, reset value, legal values, and whether the field is always-on (R22). -/
structure FSpec where
  /-- lowest bit -/
  lo : Nat
  /-- highest bit -/
  hi : Nat
  /-- access code -/
  acc : Acc
  /-- value after a system reset, or at power-on for an always-on field -/
  rst : Nat
  /-- legal values -/
  legal : Legal
  /-- keeps its value across a system reset -/
  aon : Bool
deriving DecidableEq, Repr

/-- One register, or one family of equally spaced registers, of a page. -/
structure RSpec where
  /-- page offset of copy 0 -/
  off : Nat
  /-- distance between copies -/
  stride : Nat
  /-- number of copies -/
  count : Nat
  /-- 64 bits wide (R12) -/
  wide : Bool
  /-- its fields -/
  fields : List FSpec
deriving DecidableEq, Repr

/-- One family of control pages (Table Pages-3). -/
structure PageSpec where
  /-- base address of instance 0 -/
  base : Nat
  /-- number of instances -/
  count : Nat
  /-- PAGE_ID.BLOCK -/
  block : Nat
  /-- page index of instance 0 (R162) -/
  index : Nat
  /-- ENABLE is fixed at 1 -/
  fixed : Bool
  /-- ENABLE after a system reset -/
  enable : Nat
  /-- has a soft reset -/
  soft : Bool
  /-- needs machine privilege (R48) -/
  machine : Bool
  /-- events the chapter defines, beside CLAMP (R41) -/
  events : Nat
  /-- block-specific registers -/
  regs : List RSpec
deriving DecidableEq, Repr

def Specs.SYSCFG : List RSpec := [
  -- SYSCFG_CHIP_ID: STEPPING DRAM PART
  ⟨0x40, 4, 1, false, [⟨0, 7, .ro, 0xB1, .any, false⟩, ⟨8, 15, .ro, 0, .any, false⟩, ⟨16, 31, .ro, 0x7240, .any, false⟩]⟩,
  -- SYSCFG_MODE: GUARDED FUSE_FORCED STRAP
  ⟨0x44, 4, 1, false, [⟨0, 0, .ro, 0, .any, false⟩, ⟨1, 1, .ro, 0, .any, false⟩, ⟨2, 2, .ro, 0, .any, false⟩]⟩,
  -- SYSCFG_LIFECYCLE: STATE PENDING
  ⟨0x48, 4, 1, false, [⟨0, 1, .ro, 0, .any, false⟩, ⟨8, 9, .ro, 0, .any, false⟩]⟩,
  -- SYSCFG_LIFECYCLE_REQ: CODE
  ⟨0x4C, 4, 1, false, [⟨0, 7, .wo, 0, (.codes [0x5C, 0xA3]), false⟩]⟩,
  -- SYSCFG_RESET_REQ: KEY
  ⟨0x50, 4, 1, false, [⟨0, 15, .wo, 0, (.codes [0xC1A5]), false⟩]⟩,
  -- SYSCFG_RESET_CAUSE: CAUSE
  ⟨0x54, 4, 1, false, [⟨0, 8, .ro, 0, .any, false⟩]⟩,
  -- SYSCFG_HART_RELEASE_n: ADDR
  ⟨0x60, 4, 4, false, [⟨0, 31, .rw, 0, (.dyn .hartRelease), false⟩]⟩,
  -- SYSCFG_UID_n: UID
  ⟨0x70, 4, 4, false, [⟨0, 31, .ro, 0, .any, false⟩]⟩,
  -- SYSCFG_UNLOCK_CTRL: CHALLENGE SUBMIT SCOPE
  ⟨0x80, 4, 1, false, [⟨0, 0, .wo, 0, .any, false⟩, ⟨1, 1, .wo, 0, .any, false⟩, ⟨8, 10, .rw, 0, .any, false⟩]⟩,
  -- SYSCFG_UNLOCK_STAT: STATE GRANTED REFUSALS
  ⟨0x84, 4, 1, false, [⟨0, 2, .ro, 0, .any, false⟩, ⟨8, 10, .ro, 0, .any, false⟩, ⟨16, 23, .ro, 0, .any, false⟩]⟩,
  -- SYSCFG_UNLOCK_CHAL_n: CHAL
  ⟨0xA0, 4, 8, false, [⟨0, 31, .ro, 0, .any, false⟩]⟩,
  -- SYSCFG_UNLOCK_KEY_n: KEY
  ⟨0xC0, 4, 16, false, [⟨0, 31, .rw, 0, .any, false⟩]⟩,
  -- SYSCFG_UNLOCK_SIG_n: SIG
  ⟨0x100, 4, 16, false, [⟨0, 31, .rw, 0, .any, false⟩]⟩,
  -- SYSCFG_DEBUG_EN: HART_DEBUG SCREE RMA
  ⟨0x140, 4, 1, false, [⟨0, 0, .ro, 0, .any, false⟩, ⟨1, 1, .ro, 0, .any, false⟩, ⟨2, 2, .ro, 0, .any, false⟩]⟩]

def Specs.PWR : List RSpec := [
  -- PWR_STATE: CUR FORCED_COOL SWITCHING AON_FRESH THERM_TRIP PFAIL_HALT
  ⟨0x40, 4, 1, false, [⟨0, 2, .ro, 1, .any, false⟩, ⟨4, 4, .ro, 0, .any, false⟩, ⟨5, 5, .ro, 0, .any, false⟩, ⟨8, 8, .w1c, 1, .any, true⟩, ⟨9, 9, .w1c, 0, .any, true⟩, ⟨10, 10, .w1c, 0, .any, true⟩]⟩,
  -- PWR_REQ: RUN IDLE PENDING
  ⟨0x44, 4, 1, false, [⟨0, 0, .rw, 1, .any, false⟩, ⟨1, 3, .rw, 0, (.codes [0, 1, 2, 3]), false⟩, ⟨8, 8, .ro, 0, .any, false⟩]⟩,
  -- PWR_PFAIL: THRESH ACTION GRACE ARMED
  ⟨0x48, 4, 1, false, [⟨0, 5, .rwl, 0, (.clamp 0 50), false⟩, ⟨8, 9, .rwl, 0, (.codes [0, 1, 2]), false⟩, ⟨16, 23, .rwl, 0, (.clamp 0 200), false⟩, ⟨31, 31, .ro, 0, .any, false⟩]⟩,
  -- PWR_MON: VIN VBAT
  ⟨0x4C, 4, 1, false, [⟨0, 15, .ro, 0x5DC0, .any, false⟩, ⟨16, 27, .ro, 0, .any, false⟩]⟩,
  -- PWR_THERM: TJ WARN HOT
  ⟨0x50, 4, 1, false, [⟨0, 8, .ro, 0x19, .any, false⟩, ⟨16, 23, .rwl, 0x69, (.clamp 85 108), false⟩, ⟨24, 24, .ro, 0, .any, false⟩]⟩,
  -- PWR_OUT: V3V3_OC V1V8_OC BANK_A BANK_B BANK_C BANK_D
  ⟨0x54, 4, 1, false, [⟨0, 0, .ro, 0, .any, false⟩, ⟨1, 1, .ro, 0, .any, false⟩, ⟨8, 9, .ro, 2, .any, false⟩, ⟨10, 11, .ro, 2, .any, false⟩, ⟨12, 13, .ro, 2, .any, false⟩, ⟨14, 15, .ro, 2, .any, false⟩]⟩,
  -- PWR_WAKE_CFG: WAKE_EN POL RTC_EN VIN_EN FILT
  ⟨0x58, 4, 1, false, [⟨0, 3, .rw, 0, .any, true⟩, ⟨4, 7, .rw, 0, .any, true⟩, ⟨8, 8, .rw, 0, .any, true⟩, ⟨9, 9, .rw, 0, .any, true⟩, ⟨12, 13, .rw, 0, .any, true⟩]⟩,
  -- PWR_WAKE_STAT: WAKE RTC VIN TAMPER RESUMED COLD PFAIL_BIV
  ⟨0x5C, 4, 1, false, [⟨0, 3, .w1c, 0, .any, true⟩, ⟨4, 4, .w1c, 0, .any, true⟩, ⟨5, 5, .w1c, 0, .any, true⟩, ⟨6, 6, .w1c, 0, .any, true⟩, ⟨8, 8, .w1c, 0, .any, true⟩, ⟨9, 9, .w1c, 0, .any, true⟩, ⟨10, 10, .w1c, 0, .any, true⟩]⟩,
  -- PWR_SNAP_BASE: BASE
  ⟨0x60, 4, 1, false, [⟨12, 22, .rw, 0, .any, true⟩]⟩,
  -- PWR_SNAP_CTRL: COMMIT INVALIDATE PAGES COMPLETE BUSY
  ⟨0x64, 4, 1, false, [⟨0, 0, .wo, 0, .any, false⟩, ⟨1, 1, .wo, 0, .any, false⟩, ⟨8, 15, .rw, 1, (.clamp 1 64), true⟩, ⟨16, 16, .ro, 0, .any, true⟩, ⟨17, 17, .ro, 0, .any, true⟩]⟩,
  -- PWR_RESUME: ADDR
  ⟨0x68, 4, 1, false, [⟨0, 31, .rw, 0x10000, (.dyn .resumeAddr), false⟩]⟩,
  -- PWR_RETAIN_n: DATA
  ⟨0x80, 4, 16, false, [⟨0, 31, .rw, 0, .any, true⟩]⟩]

def Specs.CLK : List RSpec := [
  -- CLK_STAT: XIN_OK LSE_OK AON_ON_RC LOCK
  ⟨0x40, 4, 1, false, [⟨0, 0, .ro, 1, .any, false⟩, ⟨1, 1, .ro, 1, .any, false⟩, ⟨2, 2, .ro, 0, .any, false⟩, ⟨3, 8, .ro, 0x3F, .any, false⟩]⟩,
  -- CLK_HART: OP GATED
  ⟨0x44, 4, 1, false, [⟨0, 0, .ro, 1, .any, false⟩, ⟨8, 11, .ro, 0, .any, false⟩]⟩,
  -- CLK_XIN: MODE START_MS
  ⟨0x48, 4, 1, false, [⟨0, 0, .ro, 0, .any, false⟩, ⟨8, 15, .ro, 0, .any, false⟩]⟩,
  -- CLK_LSE: DRIVE
  ⟨0x4C, 4, 1, false, [⟨0, 1, .rw, 0, .any, true⟩]⟩,
  -- CLK_AON: SRC AUTO
  ⟨0x50, 4, 1, false, [⟨0, 0, .rw, 0, .any, true⟩, ⟨1, 1, .rw, 1, .any, true⟩]⟩,
  -- CLK_RC_TRIM: TRIM
  ⟨0x54, 4, 1, false, [⟨0, 6, .rw, 0, .any, false⟩]⟩,
  -- CLK_STOP_KEEP_0: KEEP
  ⟨0x58, 4, 1, false, [⟨0, 31, .rw, 0xFF, .any, false⟩]⟩,
  -- CLK_STOP_KEEP_1: KEEP
  ⟨0x5C, 4, 1, false, [⟨0, 5, .rw, 0, .any, false⟩]⟩,
  -- CLK_MON_CFG: XIN PLL LSE
  ⟨0x60, 4, 1, false, [⟨0, 0, .rwl, 1, .any, false⟩, ⟨1, 1, .rwl, 1, .any, false⟩, ⟨2, 2, .rwl, 1, .any, false⟩]⟩,
  -- CLK_MON_STAT: LOST
  ⟨0x64, 4, 1, false, [⟨0, 8, .w1c, 0, .any, false⟩]⟩,
  -- CLK_MEAS_CTRL: SEL START
  ⟨0x68, 4, 1, false, [⟨0, 2, .rw, 0, (.codes [0, 1, 2, 3, 4, 5]), false⟩, ⟨8, 8, .wo, 0, .any, false⟩]⟩,
  -- CLK_MEAS_RESULT: COUNT DONE
  ⟨0x6C, 4, 1, false, [⟨0, 27, .ro, 0, .any, false⟩, ⟨31, 31, .ro, 0, .any, false⟩]⟩,
  -- CLK_ETH: REF_OUT
  ⟨0x70, 4, 1, false, [⟨0, 1, .rw, 0, .any, false⟩]⟩,
  -- CLK_USB: PLL_EN
  ⟨0x74, 4, 1, false, [⟨0, 0, .rw, 0, .any, false⟩]⟩]

def Specs.BOOT : List RSpec := [
  -- BOOT_STRAP: GUARD BOOTSEL UNSTABLE LATCHED MODE_USED FALLBACK
  ⟨0x40, 4, 1, false, [⟨0, 0, .ro, 0, .any, false⟩, ⟨1, 2, .ro, 0, .any, false⟩, ⟨3, 3, .ro, 0, .any, false⟩, ⟨4, 4, .ro, 0, .any, false⟩, ⟨5, 6, .ro, 0, .any, false⟩, ⟨7, 7, .ro, 0, .any, false⟩]⟩,
  -- BOOT_STATUS: DONE SLOT AUTH KEY_INDEX ENCRYPTED RESUMED SNAP_REJECT SVN
  ⟨0x44, 4, 1, false, [⟨0, 0, .ro, 0, .any, false⟩, ⟨1, 1, .ro, 0, .any, false⟩, ⟨2, 3, .ro, 0, .any, false⟩, ⟨4, 5, .ro, 0, .any, false⟩, ⟨6, 6, .ro, 0, .any, false⟩, ⟨7, 7, .ro, 0, .any, false⟩, ⟨8, 8, .ro, 0, .any, false⟩, ⟨16, 22, .ro, 0, .any, false⟩]⟩,
  -- BOOT_FAILCODE: CODE SLOT
  ⟨0x48, 4, 1, false, [⟨0, 7, .rw, 0, (.codes [0]), true⟩, ⟨8, 8, .ro, 0, .any, true⟩]⟩,
  -- BOOT_RETRY: COUNT SAT
  ⟨0x4C, 4, 1, false, [⟨0, 15, .rw, 0, (.clamp 0 0), true⟩, ⟨31, 31, .ro, 0, .any, true⟩]⟩,
  -- BOOT_PREF: SLOT
  ⟨0x50, 4, 1, false, [⟨0, 0, .rw, 0, .any, true⟩]⟩,
  -- BOOT_IMAGE_BUILD: BUILD
  ⟨0x54, 4, 1, false, [⟨0, 31, .ro, 0, .any, false⟩]⟩,
  -- BOOT_OTP_SVN: SVN
  ⟨0x58, 4, 1, false, [⟨0, 6, .ro, 0, .any, false⟩]⟩,
  -- BOOT_POLICY: FORBID_LOADER FORBID_USB FORBID_TETHER PINNED_ALLOWED LOADER_BUS ROTPK_SET ROTPK_REVOKED PINNED_SET GUARDED_FUSE
  ⟨0x5C, 4, 1, false, [⟨0, 0, .ro, 0, .any, false⟩, ⟨1, 1, .ro, 0, .any, false⟩, ⟨2, 2, .ro, 0, .any, false⟩, ⟨3, 3, .ro, 0, .any, false⟩, ⟨4, 4, .ro, 0, .any, false⟩, ⟨8, 11, .ro, 0, .any, false⟩, ⟨12, 15, .ro, 0, .any, false⟩, ⟨16, 17, .ro, 0, .any, false⟩, ⟨18, 18, .ro, 0, .any, false⟩]⟩,
  -- BOOT_TIME: US
  ⟨0x60, 4, 1, false, [⟨0, 23, .ro, 0, .any, false⟩]⟩,
  -- BOOT_RECOVERY: STATE FAILCODE REFUSED
  ⟨0x64, 4, 1, false, [⟨0, 2, .ro, 0, .any, false⟩, ⟨8, 15, .ro, 0, .any, false⟩, ⟨16, 31, .ro, 0, .any, false⟩]⟩]

def Specs.PITON : List RSpec := [
  -- PITON_KEY_RLOCK: RLOCK
  ⟨0x40, 4, 1, false, [⟨0, 15, .w1s, 0, .any, false⟩]⟩,
  -- PITON_KEY_ULOCK: ULOCK
  ⟨0x44, 4, 1, false, [⟨0, 15, .w1s, 0, .any, false⟩]⟩,
  -- PITON_PAGE_LOCK_n: LOCK
  ⟨0x48, 4, 2, false, [⟨0, 31, .w1s, 0, .any, false⟩]⟩,
  -- PITON_PAGE_LOCK_2: LOCK
  ⟨0x50, 4, 1, false, [⟨0, 5, .w1s, 0, .any, false⟩]⟩,
  -- PITON_SCREE_LOCK: LOCK
  ⟨0x54, 4, 1, false, [⟨0, 0, .w1s, 0, .any, false⟩]⟩,
  -- PITON_FUSE_WIN: CLOSED
  ⟨0x58, 4, 1, false, [⟨0, 0, .w1s, 0, .any, false⟩]⟩,
  -- PITON_DEBUG_LOCK: LOCK
  ⟨0x5C, 4, 1, false, [⟨0, 0, .w1s, 0, .any, false⟩]⟩,
  -- PITON_OTP_LOCK: LOCK
  ⟨0x60, 4, 1, false, [⟨0, 0, .w1s, 0, .any, false⟩]⟩,
  -- PITON_STAT: PAGES FIRST_STAGE_DONE
  ⟨0x64, 4, 1, false, [⟨0, 6, .ro, 0, .any, false⟩, ⟨8, 8, .ro, 0, .any, false⟩]⟩]

def Specs.BELAY : List RSpec := [
  -- BELAY_CFG: SOFT_FAULT_N LOG_CE RESET_DELAY MIN_LOW
  ⟨0x40, 4, 1, false, [⟨0, 0, .rwl, 0, .any, false⟩, ⟨1, 1, .rwl, 0, .any, false⟩, ⟨8, 15, .rwl, 0xA, .any, false⟩, ⟨16, 23, .rwl, 1, (.clamp 1 255), false⟩]⟩,
  -- BELAY_STAT: STARTUP_DONE ARMED FAULT GUARANTEE WOULD HIGHEST
  ⟨0x44, 4, 1, false, [⟨0, 0, .ro, 0, .any, false⟩, ⟨1, 1, .ro, 0, .any, false⟩, ⟨2, 2, .ro, 0, .any, false⟩, ⟨3, 3, .ro, 0, .any, false⟩, ⟨4, 4, .w1c, 0, .any, false⟩, ⟨8, 10, .ro, 0, .any, false⟩]⟩,
  -- BELAY_COND: COND
  ⟨0x48, 4, 1, false, [⟨0, 6, .ro, 0, .any, false⟩]⟩,
  -- BELAY_ARM: KEY
  ⟨0x4C, 4, 1, false, [⟨0, 15, .wo, 0, (.codes [0x5AFE]), false⟩]⟩,
  -- BELAY_PEND: PEND
  ⟨0x50, 4, 1, false, [⟨1, 25, .w1c, 0, .any, false⟩]⟩,
  -- BELAY_REACT_0: S1 S2 S3 S4 S5 S6 S7 S8 S9 S10 S11 S12 S13 S14 S15
  ⟨0x60, 4, 1, false, [⟨2, 3, .rwl, 1, (.dyn .react), false⟩, ⟨4, 5, .rwl, 1, (.dyn .react), false⟩, ⟨6, 7, .rwl, 0, (.dyn .react), false⟩, ⟨8, 9, .rwl, 0, (.dyn .react), false⟩, ⟨10, 11, .rwl, 0, (.dyn .react), false⟩, ⟨12, 13, .rwl, 0, (.dyn .react), false⟩, ⟨14, 15, .rwl, 0, (.dyn .react), false⟩, ⟨16, 17, .rwl, 0, (.dyn .react), false⟩, ⟨18, 19, .rwl, 0, (.dyn .react), false⟩, ⟨20, 21, .rwl, 0, (.dyn .react), false⟩, ⟨22, 23, .rwl, 0, (.dyn .react), false⟩, ⟨24, 25, .rwl, 2, (.dyn .react), false⟩, ⟨26, 27, .rwl, 0, (.dyn .react), false⟩, ⟨28, 29, .rwl, 2, (.dyn .react), false⟩, ⟨30, 31, .rwl, 2, (.dyn .react), false⟩]⟩,
  -- BELAY_REACT_1: S16 S17 S18 S19 S20 S21 S22 S23 S24 S25
  ⟨0x64, 4, 1, false, [⟨0, 1, .rwl, 0, (.dyn .react), false⟩, ⟨2, 3, .rwl, 0, (.dyn .react), false⟩, ⟨4, 5, .rwl, 2, (.dyn .react), false⟩, ⟨6, 7, .rwl, 2, (.dyn .react), false⟩, ⟨8, 9, .rwl, 0, (.dyn .react), false⟩, ⟨10, 11, .rwl, 2, (.dyn .react), false⟩, ⟨12, 13, .rwl, 0, (.dyn .react), false⟩, ⟨14, 15, .rwl, 0, (.dyn .react), false⟩, ⟨16, 17, .rwl, 0, (.dyn .react), false⟩, ⟨18, 19, .rwl, 0, (.dyn .react), false⟩]⟩,
  -- BELAY_SOFT: CODE
  ⟨0x70, 4, 1, false, [⟨0, 7, .wo, 0, .any, false⟩]⟩,
  -- BELAY_LOG_BASE: BASE
  ⟨0x74, 4, 1, false, [⟨12, 22, .rwl, 0, .any, false⟩]⟩,
  -- BELAY_LOG_CTRL: EN ORDER
  ⟨0x78, 4, 1, false, [⟨0, 0, .rwl, 0, .any, false⟩, ⟨8, 11, .rwl, 8, (.clamp 4 12), false⟩]⟩,
  -- BELAY_LOG_POS: NEXT LOST SAT
  ⟨0x7C, 4, 1, false, [⟨0, 11, .ro, 0, .any, false⟩, ⟨16, 30, .rc, 0, .any, false⟩, ⟨31, 31, .rc, 0, .any, false⟩]⟩,
  -- BELAY_BC_ECC: CE CSAT UE USAT
  ⟨0x80, 4, 1, false, [⟨0, 14, .rc, 0, .any, false⟩, ⟨15, 15, .rc, 0, .any, false⟩, ⟨16, 30, .rc, 0, .any, false⟩, ⟨31, 31, .rc, 0, .any, false⟩]⟩,
  -- BELAY_ROM_ECC: CE CSAT UE USAT
  ⟨0x84, 4, 1, false, [⟨0, 14, .rc, 0, .any, false⟩, ⟨15, 15, .rc, 0, .any, false⟩, ⟨16, 30, .rc, 0, .any, false⟩, ⟨31, 31, .rc, 0, .any, false⟩]⟩,
  -- BELAY_CRC_STAT: PAGES LAST_BAD PASS_US
  ⟨0x88, 4, 1, false, [⟨0, 6, .ro, 0, .any, false⟩, ⟨8, 14, .ro, 0, .any, false⟩, ⟨16, 31, .ro, 0, .any, false⟩]⟩,
  -- BELAY_SCRUB_STAT: L3_PASS_US SRAM_PASS_US
  ⟨0x8C, 4, 1, false, [⟨0, 15, .ro, 0, .any, false⟩, ⟨16, 31, .ro, 0, .any, false⟩]⟩,
  -- BELAY_MON: RAIL_OK VMON_EN
  ⟨0x90, 4, 1, false, [⟨0, 7, .ro, 0xFF, .any, false⟩, ⟨8, 8, .rwl, 1, .any, false⟩]⟩,
  -- BELAY_SELFTEST: GO BUSY PASS FAIL
  ⟨0x94, 4, 1, false, [⟨0, 0, .wo, 0, .any, false⟩, ⟨1, 1, .ro, 0, .any, false⟩, ⟨2, 2, .ro, 0, .any, false⟩, ⟨3, 3, .ro, 0, .any, false⟩]⟩,
  -- BELAY_SIGNALLED: COUNT SAT
  ⟨0x98, 4, 1, false, [⟨0, 15, .rc, 0, .any, false⟩, ⟨31, 31, .rc, 0, .any, false⟩]⟩,
  -- BELAY_LAST_n: ENTRY
  ⟨0xA0, 4, 8, false, [⟨0, 31, .ro, 0, .any, false⟩]⟩]

def Specs.SCREE : List RSpec := [
  -- SCREE_CTRL: ARM QUIET FULL_REACT
  ⟨0x40, 4, 1, false, [⟨0, 0, .rw, 0, .any, false⟩, ⟨1, 1, .rw, 0, .any, false⟩, ⟨2, 2, .rw, 0, .any, false⟩]⟩,
  -- SCREE_STAT: ACTIVE PERMITTED LOCKED
  ⟨0x44, 4, 1, false, [⟨0, 0, .ro, 0, .any, false⟩, ⟨1, 1, .ro, 0, .any, false⟩, ⟨2, 2, .ro, 0, .any, false⟩]⟩,
  -- SCREE_SEED: SEED
  ⟨0x48, 4, 1, false, [⟨0, 31, .rw, 1, (.clamp 1 0xFFFFFFFF), false⟩]⟩,
  -- SCREE_DELAY_n: NI PLANES CYCLES PROB EN
  ⟨0x80, 4, 4, false, [⟨0, 3, .rw, 0, .any, false⟩, ⟨4, 7, .rw, 0, .any, false⟩, ⟨8, 17, .rw, 0, .any, false⟩, ⟨18, 25, .rw, 0, .any, false⟩, ⟨31, 31, .rw, 0, .any, false⟩]⟩,
  -- SCREE_BP_n: ROUTER PORT PLANE DUTY EN
  ⟨0x90, 4, 2, false, [⟨0, 3, .rw, 0, (.clamp 0 11), false⟩, ⟨4, 6, .rw, 0, (.clamp 0 5), false⟩, ⟨8, 9, .rw, 0, .any, false⟩, ⟨12, 15, .rw, 0, .any, false⟩, ⟨31, 31, .rw, 0, .any, false⟩]⟩,
  -- SCREE_TOKEN: INIT TARGET WITHHOLD EN
  ⟨0x98, 4, 1, false, [⟨0, 3, .rw, 0, .any, false⟩, ⟨4, 7, .rw, 0, .any, false⟩, ⟨8, 13, .rw, 0, (.clamp 0 32), false⟩, ⟨31, 31, .rw, 0, .any, false⟩]⟩,
  -- SCREE_PICK: RES EVERY EN
  ⟨0x9C, 4, 1, false, [⟨0, 5, .rw, 0, .any, false⟩, ⟨8, 16, .rw, 1, (.clamp 1 256), false⟩, ⟨31, 31, .rw, 0, .any, false⟩]⟩,
  -- SCREE_REFRESH: RATE HOT EN
  ⟨0xA0, 4, 1, false, [⟨0, 1, .rw, 0, (.codes [0, 1, 2]), false⟩, ⟨2, 2, .rw, 0, .any, false⟩, ⟨31, 31, .rw, 0, .any, false⟩]⟩,
  -- SCREE_JITTER: NS DROP EN
  ⟨0xA4, 4, 1, false, [⟨0, 15, .rw, 0, .any, false⟩, ⟨16, 23, .rw, 0, .any, false⟩, ⟨31, 31, .rw, 0, .any, false⟩]⟩,
  -- SCREE_ENTROPY: MODE GO
  ⟨0xA8, 4, 1, false, [⟨0, 1, .rw, 0, .any, false⟩, ⟨8, 8, .wo, 0, .any, false⟩]⟩,
  -- SCREE_ECC_TARGET: ARRAY UNIT
  ⟨0xAC, 4, 1, false, [⟨0, 3, .rw, 0, (.codes (List.range 12)), false⟩, ⟨8, 11, .rw, 0, (.dyn .eccUnit), false⟩]⟩,
  -- SCREE_ECC_ADDR: ADDR
  ⟨0xB0, 8, 1, true, [⟨0, 39, .rw, 0, .any, false⟩]⟩,
  -- SCREE_ECC_MASK: BIT_A BIT_B DOUBLE
  ⟨0xB8, 4, 1, false, [⟨0, 8, .rw, 0, (.dyn .eccBit), false⟩, ⟨16, 24, .rw, 0, (.dyn .eccBit), false⟩, ⟨31, 31, .rw, 0, .any, false⟩]⟩,
  -- SCREE_ECC_GO: GO BUSY DONE MISSED
  ⟨0xBC, 4, 1, false, [⟨0, 0, .wo, 0, .any, false⟩, ⟨1, 1, .ro, 0, .any, false⟩, ⟨2, 2, .ro, 0, .any, false⟩, ⟨3, 3, .ro, 0, .any, false⟩]⟩,
  -- SCREE_LOCKSTEP: PAIR GO
  ⟨0xC0, 4, 1, false, [⟨0, 0, .rw, 0, .any, false⟩, ⟨8, 8, .wo, 0, .any, false⟩]⟩,
  -- SCREE_DUP: UNIT GO
  ⟨0xC4, 4, 1, false, [⟨0, 1, .rw, 0, .any, false⟩, ⟨8, 8, .wo, 0, .any, false⟩]⟩,
  -- SCREE_CRC: PAGE GO
  ⟨0xC8, 4, 1, false, [⟨0, 6, .rw, 0, (.clamp 0 69), false⟩, ⟨8, 8, .wo, 0, .any, false⟩]⟩,
  -- SCREE_MON: TARGET COPY_A_ONLY GO
  ⟨0xCC, 4, 1, false, [⟨0, 3, .rw, 0, (.clamp 0 14), false⟩, ⟨8, 8, .rw, 0, .any, false⟩, ⟨9, 9, .wo, 0, .any, false⟩]⟩,
  -- SCREE_LAST: OFFSET
  ⟨0xD0, 4, 1, false, [⟨0, 11, .ro, 0, .any, false⟩]⟩,
  -- SCREE_COUNT: COUNT SAT
  ⟨0xD4, 4, 1, false, [⟨0, 15, .rc, 0, .any, false⟩, ⟨31, 31, .rc, 0, .any, false⟩]⟩]

def Specs.WDOG : List RSpec := [
  -- WDOG_INFO: PRESENT
  ⟨0x40, 4, 1, false, [⟨0, 3, .ro, 0xF, .any, false⟩]⟩,
  -- WDOG_COUNT: COUNT SAT
  ⟨0x44, 4, 1, false, [⟨0, 15, .rc, 0, .any, false⟩, ⟨31, 31, .rc, 0, .any, false⟩]⟩,
  -- WDOG_CTRL_n: EN
  ⟨0x80, 32, 4, false, [⟨0, 0, .w1s, 0, .any, false⟩]⟩,
  -- WDOG_TIMEOUT_n: MS
  ⟨0x84, 32, 4, false, [⟨0, 15, .rwl, 0x3E8, (.clamp 1 65535), false⟩]⟩,
  -- WDOG_WINDOW_n: MS
  ⟨0x88, 32, 4, false, [⟨0, 15, .rwl, 0, (.dyn .wdogWindow), false⟩]⟩,
  -- WDOG_WARN_n: MS
  ⟨0x8C, 32, 4, false, [⟨0, 15, .rwl, 0, .any, false⟩]⟩,
  -- WDOG_KICK_n: KEY
  ⟨0x90, 32, 4, false, [⟨0, 31, .wo, 0, (.codes [0x4B1C]), false⟩]⟩,
  -- WDOG_STAT_n: RUNNING EXPIRED WARNED EARLY
  ⟨0x94, 32, 4, false, [⟨0, 0, .ro, 0, .any, false⟩, ⟨1, 1, .w1c, 0, .any, false⟩, ⟨2, 2, .w1c, 0, .any, false⟩, ⟨3, 3, .w1c, 0, .any, false⟩]⟩,
  -- WDOG_LEFT_n: MS
  ⟨0x98, 32, 4, false, [⟨0, 15, .ro, 0, .any, false⟩]⟩,
  -- WDOG_BAD_n: COUNT
  ⟨0x9C, 32, 4, false, [⟨0, 7, .rc, 0, .any, false⟩]⟩]

def Specs.TIMER : List RSpec := [
  -- TIMER_INFO: TIMERS HARTS
  ⟨0x40, 4, 1, false, [⟨0, 3, .ro, 8, .any, false⟩, ⟨8, 11, .ro, 4, .any, false⟩]⟩,
  -- TIMER_MTIP: MTIP
  ⟨0x44, 4, 1, false, [⟨0, 3, .ro, 0, .any, false⟩]⟩,
  -- TIMER_MTIME: TICKS
  ⟨0x48, 8, 1, true, [⟨0, 63, .rw, 0, .any, false⟩]⟩,
  -- TIMER_MTIMECMP_n: CMP
  ⟨0x50, 8, 4, true, [⟨0, 63, .rw, 0xFFFFFFFFFFFFFFFF, .any, false⟩]⟩,
  -- TIMER_START: START
  ⟨0x70, 4, 1, false, [⟨0, 7, .wo, 0, .any, false⟩]⟩,
  -- TIMER_STOP: STOP
  ⟨0x74, 4, 1, false, [⟨0, 7, .wo, 0, .any, false⟩]⟩,
  -- TIMER_RUNNING: RUNNING
  ⟨0x78, 4, 1, false, [⟨0, 7, .ro, 0, .any, false⟩]⟩,
  -- TIMER_OUT: OUT
  ⟨0x7C, 4, 1, false, [⟨0, 7, .ro, 0, .any, false⟩]⟩,
  -- TIMER_CTRL_n: EN ONESHOT OUT IRQ_EN START_EN START_CH PRESCALE
  ⟨0x80, 16, 8, false, [⟨0, 0, .rw, 0, .any, false⟩, ⟨1, 1, .rw, 0, .any, false⟩, ⟨2, 3, .rw, 0, (.codes [0, 1, 2]), false⟩, ⟨4, 4, .rw, 0, .any, false⟩, ⟨5, 5, .rw, 0, .any, false⟩, ⟨8, 13, .rw, 0, .any, false⟩, ⟨16, 31, .rw, 0, .any, false⟩]⟩,
  -- TIMER_PERIOD_n: PERIOD
  ⟨0x84, 16, 8, false, [⟨0, 31, .rw, 0xFFFFFFFF, (.clamp 1 0xFFFFFFFF), false⟩]⟩,
  -- TIMER_DUTY_n: DUTY
  ⟨0x88, 16, 8, false, [⟨0, 31, .rw, 0, .any, false⟩]⟩,
  -- TIMER_COUNT_n: COUNT
  ⟨0x8C, 16, 8, false, [⟨0, 31, .ro, 0, .any, false⟩]⟩]

def Specs.RTC : List RSpec := [
  -- RTC_COUNT: TICKS
  ⟨0x40, 8, 1, true, [⟨0, 63, .rw, 0, .any, true⟩]⟩,
  -- RTC_ALARM: ALARM
  ⟨0x48, 8, 1, true, [⟨0, 63, .rw, 0, .any, true⟩]⟩,
  -- RTC_CTRL: EN ALARM_EN PERIOD_EN
  ⟨0x50, 4, 1, false, [⟨0, 0, .rw, 1, .any, true⟩, ⟨1, 1, .rw, 0, .any, true⟩, ⟨2, 2, .rw, 0, .any, true⟩]⟩,
  -- RTC_CAL: CAL
  ⟨0x54, 4, 1, false, [⟨0, 15, .rw, 0, (.sclamp (-5000) 5000), true⟩]⟩,
  -- RTC_STAT: VALID ALARM PERIOD
  ⟨0x58, 4, 1, false, [⟨0, 0, .ro, 0, .any, true⟩, ⟨1, 1, .w1c, 0, .any, true⟩, ⟨2, 2, .w1c, 0, .any, true⟩]⟩,
  -- RTC_PERIOD: SHIFT
  ⟨0x5C, 4, 1, false, [⟨0, 4, .rw, 0, (.clamp 0 20), true⟩]⟩,
  -- RTC_WAKE_STAMP: STAMP
  ⟨0x60, 8, 1, true, [⟨0, 63, .ro, 0, .any, true⟩]⟩,
  -- RTC_TAMPER_STAMP: STAMP
  ⟨0x68, 8, 1, true, [⟨0, 63, .ro, 0, .any, true⟩]⟩]

def Specs.REED : List RSpec := [
  -- REED_CTRL: STEP FREE_AT_NOM
  ⟨0x40, 4, 1, false, [⟨0, 0, .rw, 1, .any, false⟩, ⟨1, 1, .rw, 0, .any, false⟩]⟩,
  -- REED_SRC: SRC
  ⟨0x44, 4, 1, false, [⟨0, 1, .rw, 0, .any, false⟩]⟩,
  -- REED_ZC: EDGE FILT EDGE_ANGLE
  ⟨0x48, 4, 1, false, [⟨0, 0, .rw, 0, .any, false⟩, ⟨4, 14, .rw, 0xC8, (.clamp 50 2000), false⟩, ⟨16, 31, .rw, 0, .any, false⟩]⟩,
  -- REED_ENC: CPT DIR Z_EN
  ⟨0x4C, 4, 1, false, [⟨0, 15, .rw, 0x400, (.clamp 1 65535), false⟩, ⟨16, 16, .rw, 0, .any, false⟩, ⟨17, 17, .rw, 1, .any, false⟩]⟩,
  -- REED_ENC_POS: POS REVERSE
  ⟨0x50, 4, 1, false, [⟨0, 15, .ro, 0, .any, false⟩, ⟨31, 31, .ro, 0, .any, false⟩]⟩,
  -- REED_PTP_PERIOD: PERIOD
  ⟨0x54, 4, 1, false, [⟨0, 29, .rw, 0x1312D00, (.clamp 1000000 1000000000), false⟩]⟩,
  -- REED_PTP_OFFSET: OFFSET
  ⟨0x58, 4, 1, false, [⟨0, 29, .rw, 0, (.clamp 0 999999999), false⟩]⟩,
  -- REED_NOMINAL: NOM
  ⟨0x5C, 4, 1, false, [⟨0, 20, .rw, 0xC350, (.clamp 1000 2000000), false⟩]⟩,
  -- REED_HOLD: CYCLES
  ⟨0x60, 4, 1, false, [⟨0, 7, .rw, 0x32, .any, false⟩]⟩,
  -- REED_COMB: EN ADC N OFFSET
  ⟨0x64, 4, 1, false, [⟨0, 0, .rw, 0, .any, false⟩, ⟨1, 2, .rw, 0, .any, false⟩, ⟨4, 14, .rw, 0x100, (.clampPow2 16 1024), false⟩, ⟨16, 31, .rw, 0, .any, false⟩]⟩,
  -- REED_STATE: STATE LOCK_RUN HOLD_LEFT VALID
  ⟨0x68, 4, 1, false, [⟨0, 2, .ro, 0, .any, false⟩, ⟨4, 7, .ro, 0, .any, false⟩, ⟨8, 15, .ro, 0, .any, false⟩, ⟨16, 16, .ro, 0, .any, false⟩]⟩,
  -- REED_NOW: PHASE
  ⟨0x6C, 4, 1, false, [⟨0, 31, .ro, 0, .any, false⟩]⟩,
  -- REED_PERIOD: T
  ⟨0x70, 4, 1, false, [⟨0, 31, .ro, 0x1312D00, .any, false⟩]⟩,
  -- REED_INC: INC
  ⟨0x74, 4, 1, false, [⟨0, 31, .ro, 0x431BDE8, .any, false⟩]⟩,
  -- REED_ERR: LAST MAX
  ⟨0x78, 4, 1, false, [⟨0, 15, .ro, 0, .any, false⟩, ⟨16, 31, .rc, 0, .any, false⟩]⟩,
  -- REED_COUNTS: GLITCH GSAT RELOCK RSAT
  ⟨0x7C, 4, 1, false, [⟨0, 14, .rc, 0, .any, false⟩, ⟨15, 15, .rc, 0, .any, false⟩, ⟨16, 30, .rc, 0, .any, false⟩, ⟨31, 31, .rc, 0, .any, false⟩]⟩,
  -- REED_EDGE_STAMP: PHASE
  ⟨0x80, 4, 1, false, [⟨0, 31, .ro, 0, .any, false⟩]⟩,
  -- REED_SLOT_ARMED_n: ARMED
  ⟨0x90, 4, 4, false, [⟨0, 31, .ro, 0, .any, false⟩]⟩,
  -- REED_SLOT_FIRED_n: FIRED
  ⟨0xA0, 4, 4, false, [⟨0, 31, .w1c, 0, .any, false⟩]⟩,
  -- REED_SLOT_LATE_n: LATE
  ⟨0xB0, 4, 4, false, [⟨0, 31, .w1c, 0, .any, false⟩]⟩,
  -- REED_SLOT_A_n: ANGLE DIV
  ⟨0x400, 8, 128, false, [⟨0, 15, .rw, 0, .any, false⟩, ⟨16, 31, .rw, 1, (.clamp 1 65535), false⟩]⟩,
  -- REED_SLOT_B_n: ACTION TARGET SKIP ONESHOT ARM
  ⟨0x404, 8, 128, false, [⟨0, 3, .rw, 0, (.codes (List.range 7)), false⟩, ⟨4, 15, .rw, 0, (.dyn .slotTarget), false⟩, ⟨16, 23, .rw, 0, .any, false⟩, ⟨24, 24, .rw, 0, .any, false⟩, ⟨31, 31, .rw, 0, .any, false⟩]⟩]

def Specs.SHUTTLE : List RSpec := [
  -- SHUTTLE_PIN_LATCH: LATCH
  ⟨0x40, 4, 1, false, [⟨0, 15, .w1c, 0, .any, false⟩]⟩,
  -- SHUTTLE_PIN_SET: SET
  ⟨0x44, 4, 1, false, [⟨0, 15, .w1s, 0, .any, false⟩]⟩,
  -- SHUTTLE_PIN_STATE: STATE
  ⟨0x48, 4, 1, false, [⟨0, 15, .ro, 0, .any, false⟩]⟩,
  -- SHUTTLE_PIN_FORCED: FORCED CONFLICT
  ⟨0x4C, 4, 1, false, [⟨0, 15, .ro, 0, .any, false⟩, ⟨16, 31, .ro, 0, .any, false⟩]⟩,
  -- SHUTTLE_SOFT: SOFT
  ⟨0x50, 4, 1, false, [⟨0, 7, .rw, 0, .any, false⟩]⟩,
  -- SHUTTLE_OUT_n: OUT
  ⟨0x60, 4, 2, false, [⟨0, 31, .ro, 0, .any, false⟩]⟩,
  -- SHUTTLE_HELD_n: HELD
  ⟨0x68, 4, 2, false, [⟨0, 31, .w1c, 0, .any, false⟩]⟩,
  -- SHUTTLE_CH_SEL_n: PROD GATE GATE_EN INV_P INV_G SENSE UNCLOCKED STRETCH EN
  ⟨0x400, 16, 64, false, [⟨0, 7, .rwl, 0, (.dyn .producer), false⟩, ⟨8, 15, .rwl, 0, (.dyn .producer), false⟩, ⟨16, 16, .rwl, 0, .any, false⟩, ⟨17, 17, .rwl, 0, .any, false⟩, ⟨18, 18, .rwl, 0, .any, false⟩, ⟨19, 20, .rwl, 0, .any, false⟩, ⟨21, 21, .rwl, 0, .any, false⟩, ⟨22, 29, .rwl, 0, .any, false⟩, ⟨31, 31, .rwl, 0, .any, false⟩]⟩,
  -- SHUTTLE_CH_PIN_n: MASK MODE HOLD
  ⟨0x404, 16, 64, false, [⟨0, 15, .rwl, 0, .any, false⟩, ⟨16, 18, .rwl, 0, (.dyn .pinMode), false⟩, ⟨19, 19, .rwl, 0, .any, false⟩]⟩,
  -- SHUTTLE_CH_CONS_n: IRQ ADC KICK_EN KICK
  ⟨0x408, 16, 64, false, [⟨0, 0, .rwl, 0, .any, false⟩, ⟨1, 2, .rwl, 0, .any, false⟩, ⟨3, 3, .rwl, 0, .any, false⟩, ⟨4, 15, .rwl, 0, .any, false⟩]⟩]

def Specs.CAIRN_CTL : List RSpec := [
  -- CAIRN_INFO: SOURCES CONTEXTS GEILEN
  ⟨0x40, 4, 1, false, [⟨0, 10, .ro, 0x7FF, .any, false⟩, ⟨16, 21, .ro, 0x24, .any, false⟩, ⟨24, 26, .ro, 7, .any, false⟩]⟩,
  -- CAIRN_CTX_LINE_0: LINE
  ⟨0x44, 4, 1, false, [⟨0, 31, .ro, 0, .any, false⟩]⟩,
  -- CAIRN_CTX_LINE_1: LINE, word 1 uses [3:0]
  ⟨0x48, 4, 1, false, [⟨0, 3, .ro, 0, .any, false⟩]⟩,
  -- CAIRN_QUERY: ID
  ⟨0x50, 4, 1, false, [⟨0, 10, .rw, 1, (.clamp 1 2047), false⟩]⟩,
  -- CAIRN_QUERY_STAT: PENDING ACTIVE LEVEL_TYPE INPUT CLAIMER PRIO
  ⟨0x54, 4, 1, false, [⟨0, 0, .ro, 0, .any, false⟩, ⟨1, 1, .ro, 0, .any, false⟩, ⟨2, 2, .ro, 0, .any, false⟩, ⟨3, 3, .ro, 0, .any, false⟩, ⟨8, 13, .ro, 0, .any, false⟩, ⟨16, 20, .ro, 0, .any, false⟩]⟩,
  -- CAIRN_COALESCE: COUNT LAST_ID SAT
  ⟨0x58, 4, 1, false, [⟨0, 15, .rc, 0, .any, false⟩, ⟨16, 26, .ro, 0, .any, false⟩, ⟨31, 31, .rc, 0, .any, false⟩]⟩,
  -- CAIRN_RELEASE: ID CTX ALL
  ⟨0x5C, 4, 1, false, [⟨0, 10, .wo, 0, (.dyn .releaseId), false⟩, ⟨16, 21, .wo, 0, (.codes (List.range 36)), false⟩, ⟨24, 24, .wo, 0, .any, false⟩]⟩,
  -- CAIRN_WAKE: WAKE
  ⟨0x60, 4, 1, false, [⟨0, 3, .ro, 0, .any, false⟩]⟩,
  -- CAIRN_ACTIVE_n: ACTIVE
  ⟨0x100, 4, 64, false, [⟨0, 31, .ro, 0, .any, false⟩]⟩]

def Specs.LOOM_CFG : List RSpec := [
  -- LOOM_CTRL: AGING
  ⟨0x40, 4, 1, false, [⟨0, 0, .rwl, 1, .any, false⟩]⟩,
  -- LOOM_IMAGE_BASE: ADDR
  ⟨0x48, 8, 1, true, [⟨6, 39, .rwl, 0, (.dyn .imageBase), false⟩]⟩,
  -- LOOM_COMMIT: GO
  ⟨0x50, 4, 1, false, [⟨0, 0, .wo, 0, .any, false⟩]⟩,
  -- LOOM_COMMIT_STAT: STATE LAST_REASON
  ⟨0x54, 4, 1, false, [⟨0, 1, .ro, 0, .any, false⟩, ⟨8, 14, .ro, 0, .any, false⟩]⟩,
  -- LOOM_LIVE_TAG: TAG
  ⟨0x58, 4, 1, false, [⟨0, 31, .ro, 0, .any, false⟩]⟩,
  -- LOOM_ADMIT: HOTSAFE
  ⟨0x5C, 4, 1, false, [⟨0, 0, .rwl, 0, .any, false⟩]⟩,
  -- LOOM_ROUND: PICK ROUND
  ⟨0x60, 4, 1, false, [⟨0, 7, .ro, 0, .any, false⟩, ⟨8, 31, .ro, 0, .any, false⟩]⟩,
  -- LOOM_PICK_PHASE: PHASE
  ⟨0x64, 4, 1, false, [⟨0, 31, .ro, 0, .any, false⟩]⟩,
  -- LOOM_DRAM_PICKS: ALL PROT
  ⟨0x68, 4, 1, false, [⟨0, 9, .ro, 0, .any, false⟩, ⟨16, 25, .ro, 0, .any, false⟩]⟩,
  -- LOOM_SHED: ACTIVE K RELEASED
  ⟨0x6C, 4, 1, false, [⟨0, 0, .ro, 0, .any, false⟩, ⟨8, 16, .ro, 0, .any, false⟩, ⟨20, 31, .ro, 0, .any, false⟩]⟩,
  -- LOOM_TIMEOUT: COUNT LAST_NI SAT
  ⟨0x70, 4, 1, false, [⟨0, 15, .rc, 0, .any, false⟩, ⟨16, 19, .ro, 0, .any, false⟩, ⟨31, 31, .rc, 0, .any, false⟩]⟩,
  -- LOOM_ECC_CE: COUNT SAT
  ⟨0x74, 4, 1, false, [⟨0, 15, .rc, 0, .any, false⟩, ⟨31, 31, .rc, 0, .any, false⟩]⟩,
  -- LOOM_ECC_UE: COUNT SAT
  ⟨0x78, 4, 1, false, [⟨0, 15, .rc, 0, .any, false⟩, ⟨31, 31, .rc, 0, .any, false⟩]⟩,
  -- LOOM_ECC_WHERE: ROUTER PLANE VALID
  ⟨0x7C, 4, 1, false, [⟨0, 3, .ro, 0, .any, false⟩, ⟨4, 5, .ro, 0, .any, false⟩, ⟨31, 31, .w1c, 0, .any, false⟩]⟩,
  -- LOOM_RES_PICKS_n: PICKS G DRAM PROTECT VALID
  ⟨0x400, 4, 64, false, [⟨0, 8, .ro, 0, .any, false⟩, ⟨12, 15, .ro, 0, .any, false⟩, ⟨16, 16, .ro, 0, .any, false⟩, ⟨17, 17, .ro, 0, .any, false⟩, ⟨18, 18, .ro, 0, .any, false⟩]⟩,
  -- LOOM_RES_SHED_n: COUNT SAT
  ⟨0x500, 4, 64, false, [⟨0, 30, .rc, 0, .any, false⟩, ⟨31, 31, .rc, 0, .any, false⟩]⟩]

def Specs.LOOM_NI : List RSpec := [
  -- LOOM_NI_CNT_5: LAT_SUM SAT
  ⟨0x168, 8, 1, true, [⟨0, 47, .ro, 0, .any, false⟩, ⟨63, 63, .ro, 0, .any, false⟩]⟩,
  -- LOOM_NI_CNT_6: LAT_MAX SAT
  ⟨0x170, 8, 1, true, [⟨0, 15, .ro, 0, .any, false⟩, ⟨63, 63, .ro, 0, .any, false⟩]⟩,
  -- LOOM_NI_INFO: NI ROUTER INITIATOR TARGET DEPTH RESP_DEPTH
  ⟨0x40, 4, 1, false, [⟨0, 3, .ro, 0, .any, false⟩, ⟨4, 7, .ro, 0, .any, false⟩, ⟨8, 8, .ro, 0, .any, false⟩, ⟨9, 9, .ro, 0, .any, false⟩, ⟨16, 23, .ro, 0, .any, false⟩, ⟨24, 31, .ro, 0, .any, false⟩]⟩,
  -- LOOM_NI_CFG: PRIO RES_BIND BIND_EN
  ⟨0x44, 4, 1, false, [⟨0, 1, .rw, 1, .any, false⟩, ⟨8, 13, .rw, 0, .any, false⟩, ⟨15, 15, .rw, 0, .any, false⟩]⟩,
  -- LOOM_NI_OUTSTANDING: OUT GUAR
  ⟨0x48, 4, 1, false, [⟨0, 6, .ro, 0, .any, false⟩, ⟨8, 14, .ro, 0, .any, false⟩]⟩,
  -- LOOM_NI_ERR_k: COUNT SAT
  ⟨0x50, 4, 4, false, [⟨0, 15, .rc, 0, .any, false⟩, ⟨31, 31, .rc, 0, .any, false⟩]⟩,
  -- LOOM_NI_TOKEN_t: QUOTA HELD OUT
  ⟨0x80, 4, 16, false, [⟨0, 5, .ro, 0, .any, false⟩, ⟨8, 13, .ro, 0, .any, false⟩, ⟨16, 21, .ro, 0, .any, false⟩]⟩,
  -- LOOM_NI_STAT_CFG: EN CLEAR ROLE GUAR_SEL RES_EN RES HIST_SHIFT PEER_MASK LAT_OP HIST_BASE
  ⟨0x100, 8, 1, true, [⟨0, 0, .rw, 1, .any, false⟩, ⟨1, 1, .wo, 0, .any, false⟩, ⟨2, 2, .rw, 0, (.dyn .statRole), false⟩, ⟨3, 4, .rw, 0, (.codes (List.range 3)), false⟩, ⟨5, 5, .rw, 0, .any, false⟩, ⟨6, 11, .rw, 0, .any, false⟩, ⟨12, 15, .rw, 6, (.clamp 0 10), false⟩, ⟨16, 31, .rw, 0xFFFF, .any, false⟩, ⟨32, 33, .rw, 0, (.codes (List.range 3)), false⟩, ⟨48, 63, .rw, 0x40, .any, false⟩]⟩,
  -- LOOM_NI_CNT_k: VALUE IE OF
  ⟨0x140, 8, 8, true, [⟨0, 47, .rw, 0, .any, false⟩, ⟨62, 62, .rw, 0, .any, false⟩, ⟨63, 63, .w1c, 0, .any, false⟩]⟩,
  -- LOOM_NI_HIST_k: COUNT SAT
  ⟨0x200, 8, 16, true, [⟨0, 31, .ro, 0, .any, false⟩, ⟨63, 63, .ro, 0, .any, false⟩]⟩]

def Specs.LOOM_PROBE : List RSpec := [
  -- LOOM_PROBE_CTRL: ROUTER PORT PLANE EVT_SEL_0 EVT_SEL_1 EVT_SEL_2 EVT_SEL_3 TRACE_EN TRACE_WRAP
  ⟨0x40, 4, 1, false, [⟨0, 3, .rw, 0, (.clamp 0 11), false⟩, ⟨4, 6, .rw, 0, (.codes (List.range 6)), false⟩, ⟨8, 9, .rw, 0, .any, false⟩, ⟨12, 15, .rw, 0, (.codes (List.range 7)), false⟩, ⟨16, 19, .rw, 1, (.codes (List.range 7)), false⟩, ⟨20, 23, .rw, 3, (.codes (List.range 7)), false⟩, ⟨24, 27, .rw, 4, (.codes (List.range 7)), false⟩, ⟨28, 28, .rw, 0, .any, false⟩, ⟨29, 29, .rw, 0, .any, false⟩]⟩,
  -- LOOM_PROBE_TRIG: GATE_CH GATE_EN OUT_SEL
  ⟨0x44, 4, 1, false, [⟨0, 5, .rw, 0, .any, false⟩, ⟨6, 6, .rw, 0, .any, false⟩, ⟨8, 9, .rw, 0, .any, false⟩]⟩,
  -- LOOM_PROBE_TRACE_STAT: PTR WRAPPED STOPPED SAT LOST
  ⟨0x48, 4, 1, false, [⟨0, 6, .ro, 0, .any, false⟩, ⟨8, 8, .ro, 0, .any, false⟩, ⟨9, 9, .ro, 0, .any, false⟩, ⟨10, 10, .ro, 0, .any, false⟩, ⟨16, 31, .ro, 0, .any, false⟩]⟩,
  -- LOOM_PROBE_MATCH_k: VALUE0 MASK0
  ⟨0x80, 8, 2, true, [⟨0, 63, .rw, 0, .any, false⟩]⟩,
  -- LOOM_PROBE_MATCH_k: VALUE1 MASK1
  ⟨0x90, 8, 2, true, [⟨0, 29, .rw, 0, .any, false⟩]⟩,
  -- LOOM_PROBE_CNT_k: VALUE IE OF
  ⟨0x100, 8, 4, true, [⟨0, 47, .rw, 0, .any, false⟩, ⟨62, 62, .rw, 0, .any, false⟩, ⟨63, 63, .w1c, 0, .any, false⟩]⟩,
  -- LOOM_PROBE_TRACE_n: record
  ⟨0x800, 8, 256, true, [⟨0, 63, .ro, 0, .any, false⟩]⟩]

def Specs.L3 : List RSpec := [
  -- L3_CFG: SCRUB_EN HEDDLE_ALLOC
  ⟨0x40, 4, 1, false, [⟨0, 0, .rwl, 1, .any, false⟩, ⟨1, 1, .rw, 1, .any, false⟩]⟩,
  -- L3_HART_PART: HART_0 HART_1 HART_2 HART_3
  ⟨0x44, 4, 1, false, [⟨0, 2, .rw, 0, .any, false⟩, ⟨4, 6, .rw, 0, .any, false⟩, ⟨8, 10, .rw, 0, .any, false⟩, ⟨12, 14, .rw, 0, .any, false⟩]⟩,
  -- L3_SCRUB: INTERVAL
  ⟨0x48, 4, 1, false, [⟨0, 11, .rwl, 0x1F4, (.clamp 100 1200), false⟩]⟩,
  -- L3_ECC_CE: COUNT SAT
  ⟨0x4C, 4, 1, false, [⟨0, 15, .rc, 0, .any, false⟩, ⟨31, 31, .rc, 0, .any, false⟩]⟩,
  -- L3_ECC_UE: COUNT SAT
  ⟨0x50, 4, 1, false, [⟨0, 15, .rc, 0, .any, false⟩, ⟨31, 31, .rc, 0, .any, false⟩]⟩,
  -- L3_ECC_ADDR: ADDR WHERE SLICE VALID
  ⟨0x58, 8, 1, true, [⟨0, 39, .ro, 0, .any, false⟩, ⟨40, 41, .ro, 0, .any, false⟩, ⟨44, 44, .ro, 0, .any, false⟩, ⟨63, 63, .w1c, 0, .any, false⟩]⟩,
  -- L3_MAINT: OP PART BUSY
  ⟨0x60, 4, 1, false, [⟨0, 1, .wo, 0, (.codes [0, 1, 2]), false⟩, ⟨4, 6, .rw, 0, .any, false⟩, ⟨8, 8, .ro, 0, .any, false⟩]⟩,
  -- L3_PART_MASK_n: WAYS
  ⟨0x80, 4, 8, false, [⟨0, 15, .rw, 0xFFFF, .any, false⟩]⟩]

def Specs.DMC : List RSpec := [
  -- DMC_CAP: VISIBLE_MIB RAW_MIB
  ⟨0x40, 4, 1, false, [⟨0, 15, .ro, 0x700, .any, false⟩, ⟨16, 31, .ro, 0x800, .any, false⟩]⟩,
  -- DMC_CTRL: SCRUB_EN PAGE_IDLE
  ⟨0x44, 4, 1, false, [⟨0, 0, .rwl, 1, .any, false⟩, ⟨4, 8, .rw, 8, (.clamp 1 31), false⟩]⟩,
  -- DMC_TEMP: DIE_A DIE_B RATE HOT
  ⟨0x48, 4, 1, false, [⟨0, 7, .ro, 0x19, .any, false⟩, ⟨8, 15, .ro, 0x19, .any, false⟩, ⟨16, 17, .ro, 0, .any, false⟩, ⟨24, 24, .ro, 0, .any, false⟩]⟩,
  -- DMC_REFRESH: TREFIPB TRFCPB
  ⟨0x4C, 4, 1, false, [⟨0, 15, .ro, 0x1E8, .any, false⟩, ⟨16, 23, .ro, 0x8C, .any, false⟩]⟩,
  -- DMC_SCRUB: INTERVAL
  ⟨0x50, 4, 1, false, [⟨0, 11, .rwl, 0x200, (.clamp 8 4095), false⟩]⟩,
  -- DMC_SCRUB_POS: LINE WRAPPED
  ⟨0x54, 4, 1, false, [⟨0, 27, .ro, 0, .any, false⟩, ⟨31, 31, .w1c, 0, .any, false⟩]⟩,
  -- DMC_ECC_CE: COUNT SAT
  ⟨0x58, 4, 1, false, [⟨0, 15, .rc, 0, .any, false⟩, ⟨31, 31, .rc, 0, .any, false⟩]⟩,
  -- DMC_ECC_UE: COUNT SAT
  ⟨0x5C, 4, 1, false, [⟨0, 15, .rc, 0, .any, false⟩, ⟨31, 31, .rc, 0, .any, false⟩]⟩,
  -- DMC_ECC_ADDR: ADDR SOURCE VALID
  ⟨0x60, 8, 1, true, [⟨0, 39, .ro, 0, .any, false⟩, ⟨60, 61, .ro, 0, .any, false⟩, ⟨63, 63, .w1c, 0, .any, false⟩]⟩,
  -- DMC_ECC_SYN: SYNDROME CHANNEL WORD
  ⟨0x68, 4, 1, false, [⟨0, 7, .ro, 0, .any, false⟩, ⟨8, 8, .ro, 0, .any, false⟩, ⟨9, 11, .ro, 0, .any, false⟩]⟩,
  -- DMC_QOS: NORMAL_AGE
  ⟨0x6C, 4, 1, false, [⟨0, 9, .rw, 0x200, (.clamp 16 1023), false⟩]⟩,
  -- DMC_QUEUE_STAT: OCC_A OCC_B GUAR_A GUAR_B
  ⟨0x70, 4, 1, false, [⟨0, 7, .ro, 0, .any, false⟩, ⟨8, 15, .ro, 0, .any, false⟩, ⟨16, 23, .ro, 0, .any, false⟩, ⟨24, 31, .ro, 0, .any, false⟩]⟩,
  -- DMC_SELFREF: IN_SR ENTRIES SAT
  ⟨0x74, 4, 1, false, [⟨0, 0, .ro, 0, .any, false⟩, ⟨16, 30, .rc, 0, .any, false⟩, ⟨31, 31, .rc, 0, .any, false⟩]⟩,
  -- DMC_CHAN_STAT: TRAINED CBC_DIRTY
  ⟨0x78, 4, 1, false, [⟨0, 1, .ro, 3, .any, false⟩, ⟨2, 2, .ro, 0, .any, false⟩]⟩]

def Specs.MRAMC : List RSpec := [
  -- MRAMC_CFG: WP_EN
  ⟨0x40, 4, 1, false, [⟨0, 0, .rwl, 0, .any, false⟩]⟩,
  -- MRAMC_QUEUE: WORDS CLOSED DRAINING
  ⟨0x44, 4, 1, false, [⟨0, 9, .ro, 0, .any, false⟩, ⟨16, 16, .ro, 0, .any, false⟩, ⟨17, 17, .ro, 0, .any, false⟩]⟩,
  -- MRAMC_ECC_CE: COUNT SAT
  ⟨0x48, 4, 1, false, [⟨0, 15, .rc, 0, .any, false⟩, ⟨31, 31, .rc, 0, .any, false⟩]⟩,
  -- MRAMC_ECC_UE: COUNT SAT
  ⟨0x4C, 4, 1, false, [⟨0, 15, .rc, 0, .any, false⟩, ⟨31, 31, .rc, 0, .any, false⟩]⟩,
  -- MRAMC_WP_BASE: BASE
  ⟨0x50, 4, 1, false, [⟨12, 23, .rwl, 0, (.clamp 0 2047), false⟩]⟩,
  -- MRAMC_WP_LIMIT: LIMIT
  ⟨0x54, 4, 1, false, [⟨12, 23, .rwl, 0, (.clamp 0 2048), false⟩]⟩]

def Specs.HEDDLE : List RSpec := [
  -- HEDDLE_INFO: CHANNELS CQS
  ⟨0x40, 4, 1, false, [⟨0, 12, .ro, 0x1000, .any, false⟩, ⟨16, 26, .ro, 0x400, .any, false⟩]⟩,
  -- HEDDLE_CFG: CH_OUT_MAX
  ⟨0x44, 4, 1, false, [⟨0, 6, .rw, 0x10, (.clamp 1 64), false⟩]⟩,
  -- HEDDLE_CHT_BASE: ADDR
  ⟨0x48, 8, 1, true, [⟨12, 39, .rwl, 0, (.dyn .chtBase), false⟩]⟩,
  -- HEDDLE_CQT_BASE: ADDR
  ⟨0x50, 8, 1, true, [⟨12, 39, .rwl, 0, (.dyn .cqtBase), false⟩]⟩,
  -- HEDDLE_CHC_INV: CH ALL GO BUSY
  ⟨0x58, 4, 1, false, [⟨0, 11, .rw, 0, .any, false⟩, ⟨16, 16, .rw, 0, .any, false⟩, ⟨24, 24, .wo, 0, .any, false⟩, ⟨31, 31, .ro, 0, .any, false⟩]⟩,
  -- HEDDLE_IOTLB_INV: INST PAGE GO BUSY GPA
  ⟨0x60, 8, 1, true, [⟨0, 4, .rw, 0, .any, false⟩, ⟨8, 8, .rw, 0, .any, false⟩, ⟨9, 9, .wo, 0, .any, false⟩, ⟨10, 10, .ro, 0, .any, false⟩, ⟨12, 49, .rw, 0, .any, false⟩]⟩,
  -- HEDDLE_FAULT_ADDR: ADDR
  ⟨0x68, 8, 1, true, [⟨0, 49, .ro, 0, .any, false⟩]⟩,
  -- HEDDLE_FAULT_INFO: CH INST WHICH VALID
  ⟨0x70, 4, 1, false, [⟨0, 11, .ro, 0, .any, false⟩, ⟨16, 20, .ro, 0, .any, false⟩, ⟨24, 25, .ro, 0, .any, false⟩, ⟨31, 31, .w1c, 0, .any, false⟩]⟩,
  -- HEDDLE_CRC_ERR: COUNT SAT
  ⟨0x74, 4, 1, false, [⟨0, 15, .rc, 0, .any, false⟩, ⟨31, 31, .rc, 0, .any, false⟩]⟩,
  -- HEDDLE_DB_ERR: COUNT LAST_CH SAT
  ⟨0x78, 4, 1, false, [⟨0, 15, .rc, 0, .any, false⟩, ⟨16, 27, .ro, 0, .any, false⟩, ⟨31, 31, .rc, 0, .any, false⟩]⟩,
  -- HEDDLE_PEEK: CH
  ⟨0x7C, 4, 1, false, [⟨0, 11, .rw, 0, .any, false⟩]⟩,
  -- HEDDLE_PEEK_STAT: HEAD TAIL STATE CACHED OUT PREF
  ⟨0x80, 8, 1, true, [⟨0, 15, .ro, 0, .any, false⟩, ⟨16, 31, .ro, 0, .any, false⟩, ⟨32, 34, .ro, 0, .any, false⟩, ⟨35, 35, .ro, 0, .any, false⟩, ⟨40, 46, .ro, 0, .any, false⟩, ⟨48, 51, .ro, 0, .any, false⟩]⟩]

def Specs.HEDDLE_MGMT : List RSpec := [
  -- HEDDLE_MGMT_INST_BASE: ADDR
  ⟨0x40, 8, 1, true, [⟨12, 39, .rwl, 0, (.dyn .instBase), false⟩]⟩,
  -- HEDDLE_MGMT_CMD: OP Q FLUSH TARGET
  ⟨0x48, 4, 1, false, [⟨0, 3, .wo, 0, .any, false⟩, ⟨4, 4, .wo, 0, .any, false⟩, ⟨5, 5, .wo, 0, .any, false⟩, ⟨8, 20, .wo, 0, .any, false⟩]⟩,
  -- HEDDLE_MGMT_CMD_STAT: BUSY LAST_OP LAST_REASON
  ⟨0x4C, 4, 1, false, [⟨0, 0, .ro, 0, .any, false⟩, ⟨4, 7, .ro, 0, .any, false⟩, ⟨8, 14, .ro, 0, .any, false⟩]⟩,
  -- HEDDLE_MGMT_POOL: FREE_CH FREE_CQ
  ⟨0x50, 4, 1, false, [⟨0, 12, .ro, 0x1000, .any, false⟩, ⟨16, 26, .ro, 0x400, .any, false⟩]⟩,
  -- HEDDLE_MGMT_POOL_2: FREE_TOKENS FREE_MSG
  ⟨0x54, 4, 1, false, [⟨0, 6, .ro, 0x40, .any, false⟩, ⟨16, 31, .ro, 0xFFFF, .any, false⟩]⟩,
  -- HEDDLE_MGMT_GEN_n: GEN
  ⟨0x60, 4, 8, false, [⟨0, 31, .ro, 0, .any, false⟩]⟩,
  -- HEDDLE_MGMT_STATE_n: STATE
  ⟨0x80, 4, 2, false, [⟨0, 31, .ro, 0, .any, false⟩]⟩,
  -- HEDDLE_MGMT_RESET_TIME: US INST
  ⟨0x90, 4, 1, false, [⟨0, 23, .ro, 0, .any, false⟩, ⟨24, 28, .ro, 0, .any, false⟩]⟩,
  -- HEDDLE_MGMT_LATE: COUNT SAT
  ⟨0x94, 4, 1, false, [⟨0, 15, .rc, 0, .any, false⟩, ⟨31, 31, .rc, 0, .any, false⟩]⟩,
  -- HEDDLE_MGMT_DB_REFUSED: COUNT LAST_INST SAT
  ⟨0x98, 4, 1, false, [⟨0, 15, .rc, 0, .any, false⟩, ⟨16, 20, .ro, 0, .any, false⟩, ⟨31, 31, .rc, 0, .any, false⟩]⟩]

def Specs.BOBBIN : List RSpec := [
  -- BOBBIN_INFO: CONTEXTS MAX_CH RATE
  ⟨0x40, 4, 1, false, [⟨0, 4, .ro, 0x10, .any, false⟩, ⟨8, 11, .ro, 8, .any, false⟩, ⟨16, 31, .ro, 0x190, .any, false⟩]⟩,
  -- BOBBIN_STAT: BUSY CH
  ⟨0x44, 4, 1, false, [⟨0, 0, .ro, 0, .any, false⟩, ⟨16, 27, .ro, 0, .any, false⟩]⟩,
  -- BOBBIN_ERR: COUNT LAST_DETAIL SAT
  ⟨0x48, 4, 1, false, [⟨0, 15, .rc, 0, .any, false⟩, ⟨16, 19, .ro, 0, .any, false⟩, ⟨31, 31, .rc, 0, .any, false⟩]⟩,
  -- BOBBIN_SUMMARY_COUNT: COUNT SAT
  ⟨0x4C, 4, 1, false, [⟨0, 15, .rc, 0, .any, false⟩, ⟨31, 31, .rc, 0, .any, false⟩]⟩,
  -- BOBBIN_CTX_CFG_n: MODE CHANNELS BLOCK_LEN E N
  ⟨0x100, 8, 16, true, [⟨0, 1, .rw, 0, (.codes [0, 1, 2]), false⟩, ⟨2, 5, .rw, 1, (.clamp 1 8), false⟩, ⟨6, 16, .rw, 0x100, (.clampStep 64 1024 16), false⟩, ⟨24, 31, .rw, 1, (.clamp 1 255), false⟩, ⟨32, 46, .rw, 0x100, (.clamp 144 16400), false⟩]⟩,
  -- BOBBIN_CTX_SEQ_n: SEQ
  ⟨0x200, 4, 16, false, [⟨0, 31, .rw, 0, .any, false⟩]⟩]

def Specs.USBH : List RSpec := [
  -- USBH_CTRL: RUN ROOT_RESET NAK_HOLDOFF
  ⟨0x40, 4, 1, false, [⟨0, 0, .rw, 0, .any, false⟩, ⟨1, 1, .wo, 0, .any, false⟩, ⟨8, 13, .rw, 1, .any, false⟩]⟩,
  -- USBH_STAT: RUNNING RESETTING HUB_ADDR
  ⟨0x44, 4, 1, false, [⟨0, 0, .ro, 0, .any, false⟩, ⟨1, 1, .ro, 0, .any, false⟩, ⟨8, 14, .ro, 0, .any, false⟩]⟩,
  -- USBH_FRAME: UFRAME FRAME
  ⟨0x48, 4, 1, false, [⟨0, 2, .ro, 0, .any, false⟩, ⟨3, 13, .ro, 0, .any, false⟩]⟩,
  -- USBH_LOAD: HS_MAX FS_MAX
  ⟨0x4C, 4, 1, false, [⟨0, 12, .ro, 0, .any, false⟩, ⟨16, 26, .ro, 0, .any, false⟩]⟩,
  -- USBH_ERR: COUNT SAT
  ⟨0x50, 4, 1, false, [⟨0, 15, .rc, 0, .any, false⟩, ⟨31, 31, .rc, 0, .any, false⟩]⟩,
  -- USBH_PIPE_CFG_n: ADDR EP DIR TYPE SPEED MPS MULT EN INTERVAL PHASE PORT
  ⟨0x400, 16, 48, true, [⟨0, 6, .rw, 0, .any, false⟩, ⟨7, 10, .rw, 0, .any, false⟩, ⟨11, 11, .rw, 0, .any, false⟩, ⟨12, 13, .rw, 0, .any, false⟩, ⟨14, 15, .rw, 0, .any, false⟩, ⟨16, 26, .rw, 0x40, .any, false⟩, ⟨27, 28, .rw, 1, (.clamp 1 3), false⟩, ⟨31, 31, .rw, 0, .any, false⟩, ⟨32, 35, .rw, 0, (.clamp 0 12), false⟩, ⟨36, 47, .rw, 0, .any, false⟩, ⟨48, 50, .rw, 0, (.clamp 0 4), false⟩]⟩,
  -- USBH_PIPE_CTRL_n: CLEAR
  ⟨0x408, 16, 48, false, [⟨0, 0, .wo, 0, .any, false⟩]⟩,
  -- USBH_PIPE_STAT_n: TOGGLE HALTED SUSPENDED LAST_DETAIL MISSED
  ⟨0x40C, 16, 48, false, [⟨0, 0, .ro, 0, .any, false⟩, ⟨1, 1, .ro, 0, .any, false⟩, ⟨2, 2, .ro, 0, .any, false⟩, ⟨4, 7, .ro, 0, .any, false⟩, ⟨16, 31, .rc, 0, .any, false⟩]⟩]

def Specs.USBHUB : List RSpec := [
  -- USBHUB_ID: VID PID
  ⟨0x40, 4, 1, false, [⟨0, 15, .rwl, 0xF55E, .any, false⟩, ⟨16, 31, .rwl, 0x7241, .any, false⟩]⟩,
  -- USBHUB_CFG: PWR_GOOD OC_FILT
  ⟨0x44, 4, 1, false, [⟨0, 7, .rwl, 0x32, (.clamp 1 255), false⟩, ⟨8, 15, .rwl, 0x14, (.clamp 1 160), false⟩]⟩,
  -- USBHUB_STAT: ADDR CONFIGURED ALT
  ⟨0x48, 4, 1, false, [⟨0, 6, .ro, 0, .any, false⟩, ⟨8, 8, .ro, 0, .any, false⟩, ⟨9, 9, .ro, 0, .any, false⟩]⟩,
  -- USBHUB_PORT_n: STATUS CHANGE
  ⟨0x80, 4, 4, false, [⟨0, 15, .ro, 0, .any, false⟩, ⟨16, 31, .ro, 0, .any, false⟩]⟩,
  -- USBHUB_TT_n: NP_USED P_PEAK SAT NAKS
  ⟨0x90, 4, 4, false, [⟨0, 2, .ro, 0, .any, false⟩, ⟨8, 12, .ro, 0, .any, false⟩, ⟨15, 15, .rc, 0, .any, false⟩, ⟨16, 31, .rc, 0, .any, false⟩]⟩,
  -- USBHUB_OC_n: COUNT ACTIVE SAT
  ⟨0xA0, 4, 4, false, [⟨0, 15, .rc, 0, .any, false⟩, ⟨16, 16, .ro, 0, .any, false⟩, ⟨31, 31, .rc, 0, .any, false⟩]⟩]

def Specs.USBD : List RSpec := [
  -- USBD_CTRL: ATTACH HS_EN RWAKE_EN RESUME TEST
  ⟨0x40, 4, 1, false, [⟨0, 0, .rw, 0, .any, false⟩, ⟨1, 1, .rw, 1, .any, false⟩, ⟨2, 2, .rw, 0, .any, false⟩, ⟨3, 3, .wo, 0, .any, false⟩, ⟨4, 6, .rw, 0, (.codes [0, 1, 2, 3, 4, 5]), false⟩]⟩,
  -- USBD_STAT: SPEED VBUS ATTACHED SUSPENDED CHIRP_FAILED
  ⟨0x44, 4, 1, false, [⟨0, 1, .ro, 0, .any, false⟩, ⟨2, 2, .ro, 0, .any, false⟩, ⟨3, 3, .ro, 0, .any, false⟩, ⟨4, 4, .ro, 0, .any, false⟩, ⟨5, 5, .ro, 0, .any, false⟩]⟩,
  -- USBD_ADDR: ADDR
  ⟨0x48, 4, 1, false, [⟨0, 6, .rw, 0, .any, false⟩]⟩,
  -- USBD_FRAME: FRAME UFRAME
  ⟨0x4C, 4, 1, false, [⟨0, 10, .ro, 0, .any, false⟩, ⟨11, 13, .ro, 0, .any, false⟩]⟩,
  -- USBD_SETUP_n: SETUP
  ⟨0x50, 4, 2, false, [⟨0, 31, .ro, 0, .any, false⟩]⟩,
  -- USBD_EP0_CTRL: ACK STALL STALLED SETUP_PENDING
  ⟨0x58, 4, 1, false, [⟨0, 0, .wo, 0, .any, false⟩, ⟨1, 1, .wo, 0, .any, false⟩, ⟨8, 8, .ro, 0, .any, false⟩, ⟨9, 9, .ro, 0, .any, false⟩]⟩,
  -- USBD_EPIN_CFG_k: MPS TYPE MULT FIFO EN
  ⟨0x80, 4, 6, false, [⟨0, 10, .rw, 0x40, (.clamp 1 1024), false⟩, ⟨11, 12, .rw, 2, (.codes [1, 2, 3]), false⟩, ⟨13, 14, .rw, 1, (.clamp 1 3), false⟩, ⟨16, 22, .rw, 1, (.clamp 1 126), false⟩, ⟨31, 31, .rw, 0, .any, false⟩]⟩,
  -- USBD_EPOUT_CFG_k: MPS TYPE MULT FIFO EN
  ⟨0xA0, 4, 6, false, [⟨0, 10, .rw, 0x40, (.clamp 1 1024), false⟩, ⟨11, 12, .rw, 2, (.codes [1, 2, 3]), false⟩, ⟨13, 14, .rw, 1, (.clamp 1 3), false⟩, ⟨16, 22, .rw, 1, (.clamp 1 126), false⟩, ⟨31, 31, .rw, 0, .any, false⟩]⟩,
  -- USBD_HALT: IN OUT
  ⟨0xC0, 4, 1, false, [⟨1, 6, .w1s, 0, .any, false⟩, ⟨9, 14, .w1s, 0, .any, false⟩]⟩,
  -- USBD_ERR: COUNT SAT
  ⟨0xC4, 4, 1, false, [⟨0, 15, .rc, 0, .any, false⟩, ⟨31, 31, .rc, 0, .any, false⟩]⟩]

def Specs.ETH : List RSpec := [
  -- ETH_CFG: MODE SPEED TX_DELAY RX_DELAY PAUSE_EN
  ⟨0x40, 4, 1, false, [⟨0, 0, .rw, 0, .any, false⟩, ⟨1, 2, .rw, 1, (.dyn .ethSpeed), false⟩, ⟨3, 3, .rw, 0, .any, false⟩, ⟨4, 4, .rw, 0, .any, false⟩, ⟨5, 5, .rw, 0, .any, false⟩]⟩,
  -- ETH_MAC: ADDR
  ⟨0x48, 8, 1, true, [⟨0, 47, .rw, 0, .any, false⟩]⟩,
  -- ETH_FILTER: PROMISC BCAST ALL_MULTI VLAN_FILT UNTAGGED
  ⟨0x50, 4, 1, false, [⟨0, 0, .rw, 0, .any, false⟩, ⟨1, 1, .rw, 1, .any, false⟩, ⟨2, 2, .rw, 0, .any, false⟩, ⟨3, 3, .rw, 0, .any, false⟩, ⟨4, 4, .rw, 1, .any, false⟩]⟩,
  -- ETH_HASH: HASH
  ⟨0x58, 8, 1, true, [⟨0, 63, .rw, 0, .any, false⟩]⟩,
  -- ETH_VLAN: VID STRIP
  ⟨0x60, 4, 1, false, [⟨0, 11, .rw, 0, .any, false⟩, ⟨16, 16, .rw, 0, .any, false⟩]⟩,
  -- ETH_MAXLEN: MAXLEN
  ⟨0x64, 4, 1, false, [⟨0, 13, .rw, 0x5EE, (.clamp 64 9018), false⟩]⟩,
  -- ETH_TS_LAT: TX RX
  ⟨0x68, 4, 1, false, [⟨0, 15, .rw, 0, .any, false⟩, ⟨16, 31, .rw, 0, .any, false⟩]⟩,
  -- ETH_STAT: RX_LEVEL TX_LEVEL
  ⟨0x6C, 4, 1, false, [⟨0, 15, .ro, 0, .any, false⟩, ⟨16, 31, .ro, 0, .any, false⟩]⟩,
  -- ETH_ERR_k: COUNT SAT
  ⟨0x70, 4, 4, false, [⟨0, 15, .rc, 0, .any, false⟩, ⟨31, 31, .rc, 0, .any, false⟩]⟩,
  -- ETH_MDIO: DATA REG PHY READ GO BUSY
  ⟨0x80, 4, 1, false, [⟨0, 15, .rw, 0, .any, false⟩, ⟨16, 20, .rw, 0, .any, false⟩, ⟨21, 25, .rw, 0, .any, false⟩, ⟨26, 26, .rw, 0, .any, false⟩, ⟨30, 30, .wo, 0, .any, false⟩, ⟨31, 31, .ro, 0, .any, false⟩]⟩]

def Specs.PTPCLK : List RSpec := [
  -- PTPCLK_CTRL: EN
  ⟨0x40, 4, 1, false, [⟨0, 0, .rw, 0, .any, false⟩]⟩,
  -- PTPCLK_TIME: NS SEC
  ⟨0x48, 8, 1, true, [⟨0, 29, .rw, 0, (.clamp 0 999999999), false⟩, ⟨32, 63, .rw, 0, .any, false⟩]⟩,
  -- PTPCLK_TIME_HI: SEC_HI
  ⟨0x50, 4, 1, false, [⟨0, 15, .rw, 0, .any, false⟩]⟩,
  -- PTPCLK_STEP: NS
  ⟨0x54, 4, 1, false, [⟨0, 31, .wo, 0, (.sclamp (-999999999) 999999999), false⟩]⟩,
  -- PTPCLK_RATE: RATE
  ⟨0x58, 4, 1, false, [⟨0, 31, .rw, 0, (.sclamp (-17179869) 17179869), false⟩]⟩,
  -- PTPCLK_TARGET: NS SEC
  ⟨0x60, 8, 1, true, [⟨0, 29, .rw, 0, (.clamp 0 999999999), false⟩, ⟨32, 63, .rw, 0, .any, false⟩]⟩,
  -- PTPCLK_TARGET_HI: SEC_HI ARMED
  ⟨0x68, 4, 1, false, [⟨0, 15, .rw, 0, .any, false⟩, ⟨31, 31, .rw, 0, .any, false⟩]⟩,
  -- PTPCLK_STAT: RUNNING
  ⟨0x6C, 4, 1, false, [⟨0, 0, .ro, 0, .any, false⟩]⟩]

def Specs.UART : List RSpec := [
  -- UART_CFG: MODE DATA7 PARITY STOP2 ECHO CRC_CHK CRC_TX
  ⟨0x40, 4, 1, false, [⟨0, 1, .rw, 0, (.codes [0, 1, 2]), false⟩, ⟨4, 4, .rw, 0, .any, false⟩, ⟨5, 6, .rw, 0, (.codes [0, 1, 2]), false⟩, ⟨7, 7, .rw, 0, .any, false⟩, ⟨8, 8, .rw, 0, .any, false⟩, ⟨9, 9, .rw, 0, .any, false⟩, ⟨10, 10, .rw, 0, .any, false⟩]⟩,
  -- UART_BAUD: DIV
  ⟨0x44, 4, 1, false, [⟨0, 23, .rw, 0x51615, (.clamp 256 16777215), false⟩]⟩,
  -- UART_DE: EN POL LEAD LAG
  ⟨0x48, 4, 1, false, [⟨0, 0, .rw, 0, .any, false⟩, ⟨1, 1, .rw, 0, .any, false⟩, ⟨8, 15, .rw, 0x10, .any, false⟩, ⟨16, 23, .rw, 0x10, .any, false⟩]⟩,
  -- UART_FRAME: AUTO IDLE T15 T35
  ⟨0x4C, 4, 1, false, [⟨0, 0, .rw, 1, .any, false⟩, ⟨4, 11, .rw, 0, .any, false⟩, ⟨16, 23, .rw, 0x21, (.clamp 3 255), false⟩, ⟨24, 31, .rw, 0x4D, (.clamp 3 255), false⟩]⟩,
  -- UART_STAT: RX_LEVEL TX_LEVEL RX_IDLE DE BREAK
  ⟨0x50, 4, 1, false, [⟨0, 6, .ro, 0, .any, false⟩, ⟨8, 14, .ro, 0, .any, false⟩, ⟨16, 16, .ro, 0, .any, false⟩, ⟨17, 17, .ro, 0, .any, false⟩, ⟨18, 18, .ro, 0, .any, false⟩]⟩,
  -- UART_ERR: COUNT LAST_DETAIL SAT
  ⟨0x54, 4, 1, false, [⟨0, 15, .rc, 0, .any, false⟩, ⟨16, 19, .ro, 0, .any, false⟩, ⟨31, 31, .rc, 0, .any, false⟩]⟩]

def Specs.SPI : List RSpec := [
  -- SPI_CFG: MODE LSB_FIRST LATE_SAMPLE DIV
  ⟨0x40, 4, 1, false, [⟨0, 1, .rw, 0, .any, false⟩, ⟨2, 2, .rw, 0, .any, false⟩, ⟨3, 3, .rw, 0, .any, false⟩, ⟨8, 15, .rw, 8, (.clamp 2 255), false⟩]⟩,
  -- SPI_DELAY: CS_SETUP CS_HOLD CS_IDLE
  ⟨0x44, 4, 1, false, [⟨0, 7, .rw, 4, (.clamp 1 255), false⟩, ⟨8, 15, .rw, 4, (.clamp 1 255), false⟩, ⟨16, 23, .rw, 4, (.clamp 1 255), false⟩]⟩,
  -- SPI_CS: FORCE
  ⟨0x48, 4, 1, false, [⟨0, 1, .rw, 0, .any, false⟩]⟩,
  -- SPI_STAT: BUSY CS
  ⟨0x4C, 4, 1, false, [⟨0, 0, .ro, 0, .any, false⟩, ⟨1, 2, .ro, 0, .any, false⟩]⟩,
  -- SPI_DISCARD: COUNT SAT
  ⟨0x50, 4, 1, false, [⟨0, 15, .rc, 0, .any, false⟩, ⟨31, 31, .rc, 0, .any, false⟩]⟩]

def Specs.I2C : List RSpec := [
  -- I2C_CFG: SPEED CUSTOM
  ⟨0x40, 4, 1, false, [⟨0, 1, .rw, 0, (.codes [0, 1, 2]), false⟩, ⟨2, 2, .rw, 0, .any, false⟩]⟩,
  -- I2C_TIMING: LOW HIGH
  ⟨0x44, 4, 1, false, [⟨0, 9, .rw, 0x3E8, (.clamp 100 1023), false⟩, ⟨16, 25, .rw, 0x3E8, (.clamp 100 1023), false⟩]⟩,
  -- I2C_RECOVER: GO
  ⟨0x48, 4, 1, false, [⟨0, 0, .wo, 0, .any, false⟩]⟩,
  -- I2C_STAT: BUSY BUS_BUSY BUS_STUCK SCL SDA
  ⟨0x4C, 4, 1, false, [⟨0, 0, .ro, 0, .any, false⟩, ⟨1, 1, .ro, 0, .any, false⟩, ⟨2, 2, .ro, 0, .any, false⟩, ⟨4, 4, .ro, 1, .any, false⟩, ⟨5, 5, .ro, 1, .any, false⟩]⟩,
  -- I2C_ERR: COUNT LAST_DETAIL SAT
  ⟨0x50, 4, 1, false, [⟨0, 15, .rc, 0, .any, false⟩, ⟨16, 19, .ro, 0, .any, false⟩, ⟨31, 31, .rc, 0, .any, false⟩]⟩]

def Specs.ADC : List RSpec := [
  -- ADC_CFG: FORMAT CONT FLUSH
  ⟨0x40, 4, 1, false, [⟨0, 0, .rw, 0, .any, false⟩, ⟨1, 1, .rw, 0, .any, false⟩, ⟨2, 2, .wo, 0, .any, false⟩]⟩,
  -- ADC_SEQ: SLOT_0 SLOT_1 SLOT_2 SLOT_3 SLOT_4 SLOT_5 SLOT_6 SLOT_7 LEN_M1
  ⟨0x44, 4, 1, false, [⟨0, 2, .rw, 0, .any, false⟩, ⟨3, 5, .rw, 1, .any, false⟩, ⟨6, 8, .rw, 2, .any, false⟩, ⟨9, 11, .rw, 3, .any, false⟩, ⟨12, 14, .rw, 4, .any, false⟩, ⟨15, 17, .rw, 5, .any, false⟩, ⟨18, 20, .rw, 6, .any, false⟩, ⟨21, 23, .rw, 7, .any, false⟩, ⟨24, 26, .rw, 0, .any, false⟩]⟩,
  -- ADC_TRIG: REED SHUTTLE SW
  ⟨0x48, 4, 1, false, [⟨0, 0, .rw, 0, .any, false⟩, ⟨1, 1, .rw, 0, .any, false⟩, ⟨2, 2, .rw, 0, .any, false⟩]⟩,
  -- ADC_SW_TRIG: GO
  ⟨0x4C, 4, 1, false, [⟨0, 0, .wo, 0, .any, false⟩]⟩,
  -- ADC_FIFO: LEVEL PEAK PENDING BUSY
  ⟨0x50, 4, 1, false, [⟨0, 12, .ro, 0, .any, false⟩, ⟨16, 28, .rc, 0, .any, false⟩, ⟨30, 30, .ro, 0, .any, false⟩, ⟨31, 31, .ro, 0, .any, false⟩]⟩,
  -- ADC_STAT: MISSED MSAT OVERFLOWS OSAT
  ⟨0x54, 4, 1, false, [⟨0, 14, .rc, 0, .any, false⟩, ⟨15, 15, .rc, 0, .any, false⟩, ⟨16, 30, .rc, 0, .any, false⟩, ⟨31, 31, .rc, 0, .any, false⟩]⟩,
  -- ADC_LIMIT: INPUT EN LOW HIGH
  ⟨0x58, 8, 1, true, [⟨0, 2, .rw, 0, .any, false⟩, ⟨3, 3, .rw, 0, .any, false⟩, ⟨32, 47, .rw, 0, .any, false⟩, ⟨48, 63, .rw, 0xFFFF, .any, false⟩]⟩,
  -- ADC_CAL: OFFSET GAIN
  ⟨0x60, 4, 1, false, [⟨0, 15, .rw, 0, (.sclamp (-512) 511), false⟩, ⟨16, 31, .rw, 0x8000, (.clamp 31130 34406), false⟩]⟩,
  -- ADC_LAST_n: SAMPLE ANGLE
  ⟨0x80, 4, 8, false, [⟨0, 15, .ro, 0, .any, false⟩, ⟨16, 31, .ro, 0, .any, false⟩]⟩]

def Specs.GPIO : List RSpec := [
  -- GPIO_DIR: DIR
  ⟨0x40, 4, 1, false, [⟨0, 31, .rw, 0, .any, false⟩]⟩,
  -- GPIO_OUT: OUT
  ⟨0x44, 4, 1, false, [⟨0, 31, .rw, 0, .any, false⟩]⟩,
  -- GPIO_SET: SET
  ⟨0x48, 4, 1, false, [⟨0, 31, .w1s, 0, .any, false⟩]⟩,
  -- GPIO_CLR: CLR
  ⟨0x4C, 4, 1, false, [⟨0, 31, .wo, 0, .any, false⟩]⟩,
  -- GPIO_IN: IN
  ⟨0x50, 4, 1, false, [⟨0, 31, .ro, 0, .any, false⟩]⟩,
  -- GPIO_IN_EXT: EVIN TRIP_IN ZC_IN ENC
  ⟨0x54, 4, 1, false, [⟨0, 7, .ro, 0, .any, false⟩, ⟨8, 8, .ro, 0, .any, false⟩, ⟨9, 9, .ro, 0, .any, false⟩, ⟨10, 12, .ro, 0, .any, false⟩]⟩,
  -- GPIO_IRQ_CFG_n: MODE_0 MODE_1 MODE_2 MODE_3 MODE_4 MODE_5 MODE_6 MODE_7 MODE_8 MODE_9 MODE_10 MODE_11 MODE_12 MODE_13 MODE_14 MODE_15
  ⟨0x58, 4, 2, false, [⟨0, 1, .rw, 0, .any, false⟩, ⟨2, 3, .rw, 0, .any, false⟩, ⟨4, 5, .rw, 0, .any, false⟩, ⟨6, 7, .rw, 0, .any, false⟩, ⟨8, 9, .rw, 0, .any, false⟩, ⟨10, 11, .rw, 0, .any, false⟩, ⟨12, 13, .rw, 0, .any, false⟩, ⟨14, 15, .rw, 0, .any, false⟩, ⟨16, 17, .rw, 0, .any, false⟩, ⟨18, 19, .rw, 0, .any, false⟩, ⟨20, 21, .rw, 0, .any, false⟩, ⟨22, 23, .rw, 0, .any, false⟩, ⟨24, 25, .rw, 0, .any, false⟩, ⟨26, 27, .rw, 0, .any, false⟩, ⟨28, 29, .rw, 0, .any, false⟩, ⟨30, 31, .rw, 0, .any, false⟩]⟩,
  -- GPIO_IRQ_STAT: EDGE
  ⟨0x60, 4, 1, false, [⟨0, 31, .w1c, 0, .any, false⟩]⟩,
  -- GPIO_FILT: CYCLES
  ⟨0x64, 4, 1, false, [⟨0, 7, .rw, 2, .any, false⟩]⟩,
  -- GPIO_PAD_p: PULL DRIVE SLOW FUNC
  ⟨0x400, 4, 144, false, [⟨0, 1, .rw, 0, (.codes [0, 1, 2]), false⟩, ⟨2, 3, .rw, 1, .any, false⟩, ⟨4, 4, .rw, 0, .any, false⟩, ⟨8, 8, .rw, 0, (.dyn .padFunc), false⟩]⟩]

def Specs.TETHER : List RSpec := [
  -- TETHER_CFG: CRC_REQ LIVE_EN
  ⟨0x40, 4, 1, false, [⟨0, 0, .rwl, 0, .any, false⟩, ⟨1, 1, .rwl, 1, .any, false⟩]⟩,
  -- TETHER_STAT: FRAME CRC INDEX LIVE_STATE
  ⟨0x44, 4, 1, false, [⟨0, 0, .ro, 0, .any, false⟩, ⟨1, 1, .ro, 0, .any, false⟩, ⟨8, 15, .ro, 0, .any, false⟩, ⟨16, 17, .ro, 0, .any, false⟩]⟩,
  -- TETHER_ABORT_COUNT: COUNT LAST SAT
  ⟨0x48, 4, 1, false, [⟨0, 15, .rc, 0, .any, false⟩, ⟨16, 18, .ro, 0, .any, false⟩, ⟨31, 31, .rc, 0, .any, false⟩]⟩,
  -- TETHER_REQ: REQ
  ⟨0x4C, 4, 1, false, [⟨0, 15, .w1c, 0, .any, false⟩]⟩,
  -- TETHER_REQ_EN: EN
  ⟨0x50, 4, 1, false, [⟨0, 15, .rw, 0, .any, false⟩]⟩,
  -- TETHER_ATTN: ATTN
  ⟨0x54, 4, 1, false, [⟨0, 15, .w1c, 0x20, .any, false⟩]⟩,
  -- TETHER_ATTN_SET: SET
  ⟨0x58, 4, 1, false, [⟨0, 15, .w1s, 0, .any, false⟩]⟩,
  -- TETHER_ATTN_EN: EN
  ⟨0x5C, 4, 1, false, [⟨0, 15, .rw, 0x26, .any, false⟩]⟩,
  -- TETHER_PWDG: TIMEOUT EN ACTION
  ⟨0x60, 4, 1, false, [⟨0, 15, .rwl, 0x3E8, (.clamp 1 65535), false⟩, ⟨16, 16, .rwl, 0, .any, false⟩, ⟨17, 17, .rwl, 0, .any, false⟩]⟩,
  -- TETHER_PWDG_STAT: LEFT EXPIRED BAD
  ⟨0x64, 4, 1, false, [⟨0, 15, .ro, 0, .any, false⟩, ⟨16, 16, .w1c, 0, .any, false⟩, ⟨24, 31, .rc, 0, .any, false⟩]⟩,
  -- TETHER_MBOX_IN_n: DATA
  ⟨0x80, 4, 8, false, [⟨0, 31, .ro, 0, .any, false⟩]⟩,
  -- TETHER_MBOX_OUT_n: DATA
  ⟨0xA0, 4, 8, false, [⟨0, 31, .rw, 0, .any, false⟩]⟩]

def Specs.TRNG : List RSpec := [
  -- TRNG_CFG: PR
  ⟨0x40, 4, 1, false, [⟨0, 0, .rw, 0, .any, false⟩]⟩,
  -- TRNG_STAT: STATE QUEUE FAILS
  ⟨0x44, 4, 1, false, [⟨0, 2, .ro, 0, .any, false⟩, ⟨8, 14, .ro, 0, .any, false⟩, ⟨16, 17, .ro, 0, .any, false⟩]⟩,
  -- TRNG_DATA: WORD VALID
  ⟨0x48, 8, 1, true, [⟨0, 31, .ro, 0, .any, false⟩, ⟨32, 32, .ro, 0, .any, false⟩]⟩,
  -- TRNG_RAW: BITS VALID
  ⟨0x50, 8, 1, true, [⟨0, 31, .ro, 0, .any, false⟩, ⟨32, 32, .ro, 0, .any, false⟩]⟩,
  -- TRNG_RESEED: REQUESTS PERIOD
  ⟨0x58, 4, 1, false, [⟨0, 12, .rw, 0x100, (.clamp 1 4096), false⟩, ⟨16, 25, .rw, 0x64, (.clamp 1 1000), false⟩]⟩,
  -- TRNG_HEALTH: RCT_CUTOFF APT_CUTOFF
  ⟨0x5C, 4, 1, false, [⟨0, 7, .ro, 0x51, .any, false⟩, ⟨16, 26, .ro, 0x340, .any, false⟩]⟩,
  -- TRNG_FAIL: COUNT LAST_TEST SAT
  ⟨0x60, 4, 1, false, [⟨0, 15, .rc, 0, .any, false⟩, ⟨16, 17, .ro, 0, .any, false⟩, ⟨31, 31, .rc, 0, .any, false⟩]⟩,
  -- TRNG_RATE: RATE
  ⟨0x64, 4, 1, false, [⟨0, 12, .ro, 0, .any, false⟩]⟩]

def Specs.AES : List RSpec := [
  -- AES_INFO: CONTEXTS
  ⟨0x40, 4, 1, false, [⟨0, 3, .ro, 8, .any, false⟩]⟩,
  -- AES_STAT: BUSY ECTX CH
  ⟨0x44, 4, 1, false, [⟨0, 0, .ro, 0, .any, false⟩, ⟨4, 6, .ro, 0, .any, false⟩, ⟨16, 27, .ro, 0, .any, false⟩]⟩,
  -- AES_KAT: GO BUSY PASS FAIL
  ⟨0x48, 4, 1, false, [⟨0, 0, .wo, 0, .any, false⟩, ⟨1, 1, .ro, 0, .any, false⟩, ⟨2, 2, .ro, 0, .any, false⟩, ⟨3, 3, .ro, 0, .any, false⟩]⟩,
  -- AES_ERR: COUNT LAST_DETAIL SAT
  ⟨0x4C, 4, 1, false, [⟨0, 15, .rc, 0, .any, false⟩, ⟨16, 19, .ro, 0, .any, false⟩, ⟨31, 31, .rc, 0, .any, false⟩]⟩,
  -- AES_GCM_FAIL: COUNT SAT
  ⟨0x50, 4, 1, false, [⟨0, 15, .rc, 0, .any, false⟩, ⟨31, 31, .rc, 0, .any, false⟩]⟩,
  -- AES_ITEMS: COUNT SAT
  ⟨0x54, 4, 1, false, [⟨0, 15, .rc, 0, .any, false⟩, ⟨31, 31, .rc, 0, .any, false⟩]⟩,
  -- AES_CTX_STATE_e: CHAIN_VALID LAST_STATUS
  ⟨0xC0, 4, 8, false, [⟨0, 0, .ro, 0, .any, false⟩, ⟨8, 15, .ro, 0, .any, false⟩]⟩,
  -- AES_CTX_CFG_e: MODE KEY256 IVGEN
  ⟨0x100, 4, 8, false, [⟨0, 2, .rw, 0, (.codes [0, 1, 2, 3, 4]), false⟩, ⟨3, 3, .rw, 1, .any, false⟩, ⟨4, 4, .rw, 0, .any, false⟩]⟩,
  -- AES_CTX_IV_e_w: IV
  ⟨0x140, 4, 32, false, [⟨0, 31, .rw, 0, .any, false⟩]⟩,
  -- AES_CTX_TAG_e_w: TAG
  ⟨0x1C0, 4, 32, false, [⟨0, 31, .ro, 0, .any, false⟩]⟩]

def Specs.HASH : List RSpec := [
  -- HASH_STAT: BUSY ECTX CH
  ⟨0x40, 4, 1, false, [⟨0, 0, .ro, 0, .any, false⟩, ⟨4, 6, .ro, 0, .any, false⟩, ⟨16, 27, .ro, 0, .any, false⟩]⟩,
  -- HASH_KAT: GO BUSY PASS FAIL
  ⟨0x44, 4, 1, false, [⟨0, 0, .wo, 0, .any, false⟩, ⟨1, 1, .ro, 0, .any, false⟩, ⟨2, 2, .ro, 0, .any, false⟩, ⟨3, 3, .ro, 0, .any, false⟩]⟩,
  -- HASH_ERR: COUNT LAST_DETAIL SAT
  ⟨0x48, 4, 1, false, [⟨0, 15, .rc, 0, .any, false⟩, ⟨16, 19, .ro, 0, .any, false⟩, ⟨31, 31, .rc, 0, .any, false⟩]⟩,
  -- HASH_ITEMS: COUNT SAT
  ⟨0x4C, 4, 1, false, [⟨0, 15, .rc, 0, .any, false⟩, ⟨31, 31, .rc, 0, .any, false⟩]⟩,
  -- HASH_CTX_CFG_e: ALG HMAC
  ⟨0x100, 4, 8, false, [⟨0, 1, .rw, 0, (.codes [0, 1, 2]), false⟩, ⟨2, 2, .rw, 0, .any, false⟩]⟩,
  -- HASH_CTX_LEN_e: BYTES
  ⟨0x140, 8, 8, true, [⟨0, 63, .ro, 0, .any, false⟩]⟩,
  -- HASH_CTX_STATE_e: OPEN
  ⟨0x180, 4, 8, false, [⟨0, 0, .ro, 0, .any, false⟩]⟩,
  -- HASH_CTX_DIGEST_e_w: DIGEST
  ⟨0x400, 4, 128, false, [⟨0, 31, .ro, 0, .any, false⟩]⟩]

def Specs.PKA : List RSpec := [
  -- PKA_INFO: OPS
  ⟨0x40, 4, 1, false, [⟨0, 6, .ro, 0x7F, .any, false⟩]⟩,
  -- PKA_STAT: BUSY FROM_CMD CH
  ⟨0x44, 4, 1, false, [⟨0, 0, .ro, 0, .any, false⟩, ⟨1, 1, .ro, 0, .any, false⟩, ⟨16, 27, .ro, 0, .any, false⟩]⟩,
  -- PKA_CMD: OP CURVE KEY_SLOT SLOT GO DONE RESULT
  ⟨0x48, 4, 1, false, [⟨0, 3, .rw, 0, (.codes (List.range 7)), false⟩, ⟨4, 4, .rw, 0, .any, false⟩, ⟨5, 5, .rw, 0, .any, false⟩, ⟨8, 11, .rw, 0, .any, false⟩, ⟨16, 16, .wo, 0, .any, false⟩, ⟨24, 24, .ro, 1, .any, false⟩, ⟨28, 31, .ro, 0, .any, false⟩]⟩,
  -- PKA_LEN: LEN
  ⟨0x4C, 4, 1, false, [⟨0, 9, .rw, 0, (.clamp 0 512), false⟩]⟩,
  -- PKA_KAT: GO BUSY PASS FAIL
  ⟨0x50, 4, 1, false, [⟨0, 0, .wo, 0, .any, false⟩, ⟨1, 1, .ro, 0, .any, false⟩, ⟨2, 2, .ro, 0, .any, false⟩, ⟨3, 3, .ro, 0, .any, false⟩]⟩,
  -- PKA_ERR: COUNT LAST_DETAIL SAT
  ⟨0x54, 4, 1, false, [⟨0, 15, .rc, 0, .any, false⟩, ⟨16, 19, .ro, 0, .any, false⟩, ⟨31, 31, .rc, 0, .any, false⟩]⟩,
  -- PKA_NONCE_FAIL: COUNT SAT
  ⟨0x58, 4, 1, false, [⟨0, 15, .rc, 0, .any, false⟩, ⟨31, 31, .rc, 0, .any, false⟩]⟩,
  -- PKA_COUNT: COUNT SAT
  ⟨0x5C, 4, 1, false, [⟨0, 15, .rc, 0, .any, false⟩, ⟨31, 31, .rc, 0, .any, false⟩]⟩,
  -- PKA_TIME: US
  ⟨0x60, 4, 1, false, [⟨0, 15, .ro, 0, .any, false⟩]⟩,
  -- PKA_MEM_n: DATA
  ⟨0x400, 4, 256, false, [⟨0, 31, .rw, 0, (.dyn .pkaMem), false⟩]⟩]

def Specs.KEYS : List RSpec := [
  -- KEYS_SLOT_CMD: OP SLOT SRC USAGE
  ⟨0x40, 4, 1, false, [⟨0, 2, .wo, 0, (.codes [1, 2, 3, 4, 5]), false⟩, ⟨4, 7, .rw, 0, .any, false⟩, ⟨8, 12, .rw, 0, (.clamp 0 16), false⟩, ⟨16, 19, .rw, 0, .any, false⟩]⟩,
  -- KEYS_SLOT_STAT: VALID BUSY USAGE
  ⟨0x44, 4, 1, false, [⟨0, 15, .ro, 0, .any, false⟩, ⟨16, 16, .ro, 0, .any, false⟩, ⟨20, 23, .ro, 0, .any, false⟩]⟩,
  -- KEYS_SLOT_DATA_n: DATA
  ⟨0x60, 4, 8, false, [⟨0, 31, .rw, 0, .any, false⟩]⟩,
  -- KEYS_LABEL_n: LABEL
  ⟨0x80, 4, 6, false, [⟨0, 31, .rw, 0, .any, false⟩]⟩,
  -- KEYS_OTP_CTRL: ADDR CMD BUSY MATCH UE
  ⟨0xA0, 4, 1, false, [⟨0, 7, .rw, 0, .any, false⟩, ⟨8, 10, .wo, 0, (.codes [1, 2, 3]), false⟩, ⟨16, 16, .ro, 0, .any, false⟩, ⟨17, 17, .ro, 0, .any, false⟩, ⟨18, 18, .ro, 0, .any, false⟩]⟩,
  -- KEYS_OTP_DATA: DATA
  ⟨0xA4, 4, 1, false, [⟨0, 31, .rw, 0, .any, false⟩]⟩,
  -- KEYS_TAMPER_CFG: EN POL FILT ERASE_KEYS ERASE_RETAIN KILL_SNAP IRQ
  ⟨0xC0, 4, 1, false, [⟨0, 1, .rwl, 0, .any, true⟩, ⟨2, 3, .rwl, 0, .any, true⟩, ⟨4, 5, .rwl, 0, .any, true⟩, ⟨8, 8, .rwl, 0, .any, true⟩, ⟨9, 9, .rwl, 0, .any, true⟩, ⟨10, 10, .rwl, 0, .any, true⟩, ⟨12, 12, .rwl, 0, .any, true⟩]⟩,
  -- KEYS_TAMPER_STAT: LATCHED COUNT LEVEL
  ⟨0xC4, 4, 1, false, [⟨0, 1, .w1c, 0, .any, true⟩, ⟨8, 15, .ro, 0, .any, true⟩, ⟨16, 17, .ro, 0, .any, false⟩]⟩]

def Specs.OSPI : List RSpec := [
  -- OSPI_CFG: PROTO CMD16 DQS_EN SAMPLE DIV
  ⟨0x40, 4, 1, false, [⟨0, 1, .rw, 0, .any, false⟩, ⟨2, 2, .rw, 0, .any, false⟩, ⟨3, 3, .rw, 0, .any, false⟩, ⟨4, 6, .rw, 0, .any, false⟩, ⟨8, 15, .rw, 4, (.clamp 1 255), false⟩]⟩,
  -- OSPI_SIZE: LOG2
  ⟨0x44, 4, 1, false, [⟨0, 4, .rw, 0x18, (.clamp 16 28), false⟩]⟩,
  -- OSPI_XIP: EN ADDR4 READ_OP DUMMY
  ⟨0x48, 4, 1, false, [⟨0, 0, .rw, 0, .any, false⟩, ⟨1, 1, .rw, 0, .any, false⟩, ⟨8, 15, .rw, 3, .any, false⟩, ⟨16, 20, .rw, 0, .any, false⟩]⟩,
  -- OSPI_WREN: OP
  ⟨0x4C, 4, 1, false, [⟨0, 7, .rw, 6, .any, false⟩]⟩,
  -- OSPI_CMD: OP ADDR_EN ADDR4 WRITE POLL DUMMY GO
  ⟨0x50, 4, 1, false, [⟨0, 7, .rw, 0, .any, false⟩, ⟨8, 8, .rw, 0, .any, false⟩, ⟨9, 9, .rw, 0, .any, false⟩, ⟨10, 10, .rw, 0, .any, false⟩, ⟨11, 11, .rw, 0, .any, false⟩, ⟨16, 20, .rw, 0, .any, false⟩, ⟨31, 31, .wo, 0, .any, false⟩]⟩,
  -- OSPI_ADDR: ADDR
  ⟨0x54, 4, 1, false, [⟨0, 31, .rw, 0, .any, false⟩]⟩,
  -- OSPI_LEN: LEN
  ⟨0x58, 4, 1, false, [⟨0, 8, .rw, 0, (.clamp 0 256), false⟩]⟩,
  -- OSPI_STAT: BUSY DONE TIMEOUT XIP_WAIT STATUS
  ⟨0x5C, 4, 1, false, [⟨0, 0, .ro, 0, .any, false⟩, ⟨1, 1, .w1c, 0, .any, false⟩, ⟨2, 2, .w1c, 0, .any, false⟩, ⟨3, 3, .ro, 0, .any, false⟩, ⟨8, 15, .ro, 0, .any, false⟩]⟩,
  -- OSPI_POLL: OP MASK MATCH GAP
  ⟨0x60, 4, 1, false, [⟨0, 7, .rw, 5, .any, false⟩, ⟨8, 15, .rw, 1, .any, false⟩, ⟨16, 23, .rw, 0, .any, false⟩, ⟨24, 31, .rw, 0xA, (.clamp 1 255), false⟩]⟩,
  -- OSPI_TIMEOUT: US
  ⟨0x64, 4, 1, false, [⟨0, 23, .rw, 0xF4240, (.clamp 1 16777215), false⟩]⟩,
  -- OSPI_HEDDLE: PROG_OP PAGE_LOG2
  ⟨0x68, 4, 1, false, [⟨0, 7, .rw, 2, .any, false⟩, ⟨8, 11, .rw, 8, (.clamp 4 12), false⟩]⟩,
  -- OSPI_RESET: PULSE
  ⟨0x6C, 4, 1, false, [⟨0, 0, .wo, 0, .any, false⟩]⟩,
  -- OSPI_ERR: COUNT LAST_DETAIL SAT
  ⟨0x70, 4, 1, false, [⟨0, 15, .rc, 0, .any, false⟩, ⟨16, 19, .ro, 0, .any, false⟩, ⟨31, 31, .rc, 0, .any, false⟩]⟩,
  -- OSPI_DATA_n: DATA
  ⟨0x100, 4, 64, false, [⟨0, 31, .rw, 0, .any, false⟩]⟩]

/-- Table Pages-3, with the page indices of R162 and the event bits of each chapter. -/
def Specs.pages : List PageSpec := [
  ⟨0x10000000, 1, 0x1, 0, true, 1, false, true, 2, Specs.SYSCFG⟩, -- SYSCFG
  ⟨0x10001000, 1, 0x2, 1, true, 1, false, true, 9, Specs.PWR⟩, -- PWR
  ⟨0x10002000, 1, 0x3, 2, true, 1, false, true, 4, Specs.CLK⟩, -- CLK
  ⟨0x10003000, 1, 0x4, 3, true, 1, false, true, 2, Specs.BOOT⟩, -- BOOT
  ⟨0x10004000, 1, 0x5, 4, true, 1, false, true, 1, Specs.PITON⟩, -- PITON
  ⟨0x10005000, 1, 0x6, 5, true, 1, false, true, 6, Specs.BELAY⟩, -- BELAY
  ⟨0x10006000, 1, 0x7, 6, false, 0, true, true, 2, Specs.SCREE⟩, -- SCREE
  ⟨0x10007000, 1, 0x8, 7, false, 1, false, true, 2, Specs.WDOG⟩, -- WDOG
  ⟨0x10008000, 1, 0x9, 8, false, 0, true, false, 8, Specs.TIMER⟩, -- TIMER
  ⟨0x10009000, 1, 0xA, 9, true, 1, false, false, 2, Specs.RTC⟩, -- RTC
  ⟨0x10010000, 1, 0x10, 10, false, 0, true, false, 9, Specs.REED⟩, -- REED
  ⟨0x10011000, 1, 0x11, 11, false, 0, true, false, 4, Specs.SHUTTLE⟩, -- SHUTTLE
  ⟨0x10012000, 1, 0x12, 12, true, 1, false, false, 2, Specs.CAIRN_CTL⟩, -- CAIRN_CTL
  ⟨0x10020000, 1, 0x20, 13, true, 1, false, false, 7, Specs.LOOM_CFG⟩, -- LOOM_CFG
  ⟨0x10021000, 16, 0x21, 14, true, 1, false, false, 4, Specs.LOOM_NI⟩, -- LOOM_NI
  ⟨0x10031000, 8, 0x22, 30, false, 0, true, false, 3, Specs.LOOM_PROBE⟩, -- LOOM_PROBE
  ⟨0x10040000, 1, 0x30, 38, true, 1, false, false, 3, Specs.L3⟩, -- L3
  ⟨0x10041000, 1, 0x31, 39, true, 1, false, false, 5, Specs.DMC⟩, -- DMC
  ⟨0x10042000, 1, 0x32, 40, true, 1, false, false, 4, Specs.MRAMC⟩, -- MRAMC
  ⟨0x10050000, 1, 0x40, 41, false, 0, true, false, 6, Specs.HEDDLE⟩, -- HEDDLE
  ⟨0x10051000, 1, 0x41, 42, true, 1, false, false, 4, Specs.HEDDLE_MGMT⟩, -- HEDDLE_MGMT
  ⟨0x10052000, 1, 0x42, 43, false, 0, true, false, 3, Specs.BOBBIN⟩, -- BOBBIN
  ⟨0x10080000, 1, 0x50, 44, false, 0, true, false, 5, Specs.USBH⟩, -- USBH
  ⟨0x10081000, 1, 0x51, 45, false, 0, true, false, 3, Specs.USBHUB⟩, -- USBHUB
  ⟨0x10082000, 1, 0x52, 46, false, 0, true, false, 7, Specs.USBD⟩, -- USBD
  ⟨0x10090000, 2, 0x60, 47, false, 0, true, false, 3, Specs.ETH⟩, -- ETH
  ⟨0x10092000, 1, 0x61, 49, false, 0, true, false, 2, Specs.PTPCLK⟩, -- PTPCLK
  ⟨0x100A0000, 6, 0x70, 50, false, 0, true, false, 3, Specs.UART⟩, -- UART
  ⟨0x100B0000, 2, 0x71, 56, false, 0, true, false, 0, Specs.SPI⟩, -- SPI
  ⟨0x100B2000, 2, 0x72, 58, false, 0, true, false, 1, Specs.I2C⟩, -- I2C
  ⟨0x100C0000, 2, 0x80, 60, false, 0, true, false, 3, Specs.ADC⟩, -- ADC
  ⟨0x100D0000, 1, 0x81, 62, false, 0, true, false, 1, Specs.GPIO⟩, -- GPIO
  ⟨0x100E0000, 1, 0x90, 63, true, 1, false, false, 4, Specs.TETHER⟩, -- TETHER
  ⟨0x100F0000, 1, 0xA0, 64, false, 0, true, false, 3, Specs.TRNG⟩, -- TRNG
  ⟨0x100F1000, 1, 0xA1, 65, false, 0, true, false, 2, Specs.AES⟩, -- AES
  ⟨0x100F2000, 1, 0xA2, 66, false, 0, true, false, 2, Specs.HASH⟩, -- HASH
  ⟨0x100F3000, 1, 0xA3, 67, false, 0, true, false, 3, Specs.PKA⟩, -- PKA
  ⟨0x100F4000, 1, 0xA4, 68, false, 0, false, true, 3, Specs.KEYS⟩, -- KEYS
  ⟨0x10100000, 1, 0xB0, 69, false, 0, true, false, 3, Specs.OSPI⟩] -- OSPI

end Sys2Proof.Machine
end

