-- ==== Sys2Proof/Machine/ResetTable.lean ====
section
/-! DEFINITION. Finding the page, the register and the field an address names (R38, R54, R162), and the value every
register has after a power-on reset: the Reset column of the field tables, with the entries that depend on the index of
the register written out (Tables Loom-3, Loom-4, Package-7, R343). -/
namespace Sys2Proof.Machine

/-- The page family an address lies in, and the instance (R38, R54). -/
def pageOf (a : Nat) : Option (PageSpec × Nat) :=
  (Specs.pages.find? (fun p => decide (p.base ≤ a ∧ a < p.base + 0x1000 * p.count))).map
    (fun p => (p, (a - p.base) / 0x1000))

/-- The base address of the page an address lies in. -/
def pageBase (a : Nat) : Nat := a / 0x1000 * 0x1000

/-- R162: the page index of an address. -/
def pageIndex (a : Nat) : Option Nat := (pageOf a).map (fun pi => pi.1.index + pi.2)

/-- R162 read backwards: the base of the page with index `p`. -/
def pageOfIndex (p : Nat) : Option Nat :=
  (Specs.pages.find? (fun s => decide (s.index ≤ p ∧ p < s.index + s.count))).map
    (fun s => s.base + 0x1000 * (p - s.index))

/-- Does register family `r` hold the byte at page offset `o`? -/
def RSpec.covers (r : RSpec) (o : Nat) : Bool :=
  decide (r.off ≤ o ∧ o < r.off + r.stride * r.count ∧ (o - r.off) % r.stride < (if r.wide then 8 else 4))

/-- The copy of `r` that holds the byte at page offset `o`. -/
def RSpec.index (r : RSpec) (o : Nat) : Nat := (o - r.off) / r.stride

/-- Table Pages-5 to Pages-11: the header registers of a page. EVT bits the chapter does not define are reserved (R41). -/
def headerSpec (p : PageSpec) (o : Nat) : Option RSpec :=
  let ev (acc : Acc) : List FSpec :=
    (if p.events = 0 then [] else [⟨0, p.events - 1, acc, 0, .any, false⟩]) ++ [⟨31, 31, acc, 0, .any, false⟩]
  match o / 4 with
  | 0 => some ⟨0x00, 4, 1, false, [⟨0, 7, .ro, 1, .any, false⟩, ⟨8, 15, .ro, 0, .any, false⟩, ⟨16, 31, .ro, p.block, .any, false⟩]⟩
  | 1 => some ⟨0x04, 4, 1, false, [⟨0, 7, .ro, 0xB1, .any, false⟩, ⟨8, 15, .ro, 1, .any, false⟩, ⟨16, 31, .ro, 0, .any, false⟩]⟩
  | 2 => some ⟨0x08, 4, 1, false, [⟨0, 0, if p.fixed then .ro else .rwl, p.enable, .any, false⟩,
      ⟨1, 1, if p.soft then .wo else .ro, 0, .any, false⟩, ⟨2, 2, .w1s, 0, .any, false⟩]⟩
  | 3 => some ⟨0x0C, 4, 1, false, [⟨0, 0, .ro, 0, .any, false⟩, ⟨1, 1, .ro, 0, .any, false⟩, ⟨2, 2, .ro, p.enable, .any, false⟩,
      ⟨3, 15, .ro, 0, .any, false⟩, ⟨16, 31, .ro, 0, .any, false⟩]⟩
  | 4 => some ⟨0x10, 4, 1, false, ev .w1c⟩
  | 5 => some ⟨0x14, 4, 1, false, ev .rw⟩
  | 6 => some ⟨0x18, 4, 1, false, [⟨0, 31, .ro, 0, .any, false⟩]⟩
  | 7 => some ⟨0x1C, 4, 1, false, ev .w1s⟩
  | 8 => some ⟨0x20, 4, 1, false, [⟨0, 11, .ro, 0, .any, false⟩, ⟨12, 15, .ro, 0, .any, false⟩, ⟨16, 19, .ro, 0, .any, false⟩,
      ⟨20, 23, .ro, 0, .any, false⟩, ⟨24, 30, .ro, 0, .any, false⟩, ⟨31, 31, .ro, 0, .any, false⟩]⟩
  | 9 => some ⟨0x24, 4, 1, false, [⟨0, 31, .ro, 0, .any, false⟩]⟩
  | 10 => some ⟨0x28, 4, 1, false, [⟨0, 31, .ro, 0, .any, false⟩]⟩
  | 11 => some ⟨0x2C, 4, 1, false, [⟨0, 15, .rc, 0, .any, false⟩, ⟨16, 30, .ro, 0, .any, false⟩, ⟨31, 31, .rc, 0, .any, false⟩]⟩
  | _ => none

/-- Table Field-6: a register that instance `i` of page family `p` does not have: ETH_MDIO lies on ETH_0 only. -/
def RSpec.absent (r : RSpec) (p : PageSpec) (i : Nat) : Bool := decide (p.base = P.ETH 0 ∧ i ≠ 0 ∧ r.off = 0x80)

/-- The register of instance `i` of page family `p` that holds page offset `o`. -/
def RSpec.at (p : PageSpec) (i o : Nat) : Option RSpec :=
  if o < 0x40 then headerSpec p o else p.regs.find? (fun r => r.covers o && ! r.absent p i)

/-- The register that holds the byte at physical address `a`: its page, the page's base, its row and its own address. -/
def regAt (a : Nat) : Option (PageSpec × Nat × RSpec × Nat) :=
  match pageOf a with
  | none => none
  | some (p, i) =>
    let b := p.base + 0x1000 * i
    match RSpec.at p i (a - b) with
    | none => none
    | some r => some (p, b, r, b + r.off + r.stride * r.index (a - b))

/-- The reset values of a list of fields, put together. -/
def FSpec.resetOf (fs : List FSpec) : DWord :=
  fs.foldl (fun w f => Bits.put w f.lo (f.hi - f.lo + 1) f.rst) 0#64

/-- Table Loom-3: the router of an NI. Router r sits at column r mod 4, row r ÷ 4 (R292). -/
def niRouter (n : Nat) : Nat := [0, 1, 2, 3, 5, 6, 4, 7, 9, 8, 10, 11, 11, 10, 9, 8].getD n 0

/-- Table Loom-3: the NI starts transactions. -/
def niInitiator (n : Nat) : Bool := [0, 1, 2, 3, 4, 5, 8, 10, 15].contains n

/-- Table Loom-3: the NI serves requests. -/
def niTarget (n : Nat) : Bool := [4, 5, 6, 7, 9, 10, 11, 12, 13, 14].contains n

/-- Table Loom-3: request buffers at the NI, 0 if it is no target. -/
def niDepth (n : Nat) : Nat := [0, 0, 0, 0, 96, 96, 128, 128, 0, 16, 16, 16, 16, 16, 16, 0].getD n 0

/-- Table Loom-4: the token quota of initiator `n` towards target `t` after a system reset (R297). -/
def resetQuota (n t : Nat) : Nat :=
  if n ≤ 3 then (if t = 4 ∨ t = 5 then 16 else if t = 10 ∨ t = 14 then 2 else 0)
  else if n = 4 ∨ n = 5 then (if t = 6 ∨ t = 7 then 24 else if t = 9 then 4 else 0)
  else if n = 8 then
    (if t = 4 ∨ t = 5 then 12 else if t = 10 then 2 else if t = 11 ∨ t = 12 ∨ t = 13 then 8 else if t = 14 then 4 else 0)
  else if n = 10 then (if t = 4 ∨ t = 5 then 1 else 0)
  else if n = 15 then (if t = 4 ∨ t = 5 ∨ t = 10 ∨ t = 14 then 2 else 0)
  else 0

/-- Table Package-7 over the ball order of R512: the pull of bank ball `p` after release: 0 none, 1 down, 2 up. -/
def padPull (p : Nat) : Nat :=
  if p ≤ 31 then 1 else if p ≤ 47 then 0 else if p ≤ 60 then 1
  else if p ≤ 78 then (if (p - 61) % 3 = 2 then 1 else 2)
  else if p ≤ 86 then 2
  else if p ≤ 96 then 1 else if p = 97 then 2 else if p = 98 then 0
  else if p = 99 ∨ p = 101 then 1 else if p = 100 then 2 else if p ≤ 103 then 0
  else if p ≤ 113 then (if (p - 104) % 5 ≤ 2 then 1 else 2)
  else if p ≤ 117 then 0
  else if p = 131 then 2 else 1

/-- Reset values that a table gives per index. -/
def resetOverride (p : PageSpec) (i : Nat) (o : Nat) : Option DWord :=
  if o = 0 then some (BitVec.ofNat 64 (p.block * 2 ^ 16 + i * 2 ^ 8 + 1))
  else if p.base = P.LOOM_NI 0 ∧ o = 0x40 then
    some (BitVec.ofNat 64 (i + 2 ^ 4 * niRouter i + 2 ^ 8 * b2n (niInitiator i) + 2 ^ 9 * b2n (niTarget i)
      + 2 ^ 16 * niDepth i + 2 ^ 24 * (if niInitiator i then 64 else 0)))
  else if p.base = P.LOOM_NI 0 ∧ 0x80 ≤ o ∧ o < 0xC0 then
    some (BitVec.ofNat 64 (resetQuota i ((o - 0x80) / 4) * 257))
  else if p.base = P.LOOM_NI 0 ∧ o = 0x100 then
    some (Bits.put (FSpec.resetOf ((RSpec.at p i o).map (·.fields) |>.getD [])) 2 1 (b2n (! niInitiator i)))
  else if p.base = P.GPIO ∧ 0x400 ≤ o ∧ o < 0x640 then
    some (BitVec.ofNat 64 ((FSpec.resetOf ((RSpec.at p i o).map (·.fields) |>.getD [])).toNat / 4 * 4 + padPull ((o - 0x400) / 4)))
  else none

/-- R22: what the register at address `a` holds after a power-on reset. An address that no register starts at holds 0. -/
def resetWord (a : Nat) : DWord :=
  match pageOf a with
  | none => 0#64
  | some (p, i) =>
    let o := a - (p.base + 0x1000 * i)
    match RSpec.at p i o with
    | none => 0#64
    | some r => (resetOverride p i o).getD (FSpec.resetOf r.fields)

/-- The always-on bits of the register at address `a` (R22). -/
def aonMask (a : Nat) : DWord :=
  match regAt a with
  | none => 0#64
  | some (_, _, r, _) =>
    r.fields.foldl (fun w f => if f.aon then Bits.put w f.lo (f.hi - f.lo + 1) (2 ^ (f.hi - f.lo + 1) - 1) else w) 0#64

end Sys2Proof.Machine
end

