-- ==== Sys2Proof/Machine/SMap.lean ====
section
/-! DEFINITION. Sparse maps from addresses (or indices) to values: a list of pairs in one canonical form, keys strictly
rising and no entry equal to what an unlisted key reads as. Register files, memory and the larger tables of the device
are held in them, so that equal contents are equal data. -/
namespace Sys2Proof.Machine

/-- The value at key `k`; an unlisted key reads as `d k`. -/
def SMap.get {α : Type} (d : Nat → α) : List (Nat × α) → Nat → α
  | [], k => d k
  | (a, v) :: m, k => if a = k then v else SMap.get d m k

/-- The map without an entry for `k`. -/
def SMap.erase {α : Type} (m : List (Nat × α)) (k : Nat) : List (Nat × α) :=
  m.filter (fun e => e.1 != k)

/-- The map with an entry `(k, v)` put in front of the first larger key. -/
def SMap.insert {α : Type} : List (Nat × α) → Nat → α → List (Nat × α)
  | [], k, v => [(k, v)]
  | (a, w) :: m, k, v => if k < a then (k, v) :: (a, w) :: m else (a, w) :: SMap.insert m k v

/-- Write `v` at `k`: writing the value an unlisted key reads as removes the entry. -/
def SMap.put {α : Type} [DecidableEq α] (d : Nat → α) (m : List (Nat × α)) (k : Nat) (v : α) : List (Nat × α) :=
  if v = d k then SMap.erase m k else SMap.insert (SMap.erase m k) k v

/-- Every key is larger than `lo` and the keys rise. -/
def SMap.sortedFrom {α : Type} : Nat → List (Nat × α) → Bool
  | _, [] => true
  | lo, (a, _) :: m => decide (lo ≤ a) && SMap.sortedFrom (a + 1) m

/-- The canonical form: keys strictly rising, no entry equal to the default. -/
def SMap.wf {α : Type} [DecidableEq α] (d : Nat → α) (m : List (Nat × α)) : Bool :=
  SMap.sortedFrom 0 m && m.all (fun e => decide (e.2 ≠ d e.1))

/-- Apply `g` to every entry and write the results back in the canonical form. -/
def SMap.mapEntries {α : Type} [DecidableEq α] (d : Nat → α) (g : Nat → α → α) (m : List (Nat × α)) : List (Nat × α) :=
  m.foldl (fun acc e => SMap.put d acc e.1 (g e.1 e.2)) []

/-- The entry listed at key `k`, if any: tables whose unlisted keys hold nothing. -/
def AMap.get? {α : Type} : List (Nat × α) → Nat → Option α
  | [], _ => none
  | (a, v) :: m, k => if a = k then some v else AMap.get? m k

/-- List `v` at key `k`. -/
def AMap.put {α : Type} (m : List (Nat × α)) (k : Nat) (v : α) : List (Nat × α) := SMap.insert (SMap.erase m k) k v

/-- Change the entry at key `k`, if any. -/
def AMap.modify {α : Type} (m : List (Nat × α)) (k : Nat) (f : α → α) : List (Nat × α) :=
  m.map (fun e => if e.1 = k then (k, f e.2) else e)

end Sys2Proof.Machine
end

