-- ==== Sys2Proof/Machine/State.lean ====
section
/-! DEFINITION. The state of the device as plain data: the registers of every control page, memory, and for each block
the state its chapter gives it beside its registers; the commands waiting; and the state right after reset. -/
namespace Sys2Proof.Machine

/-- What could stop the machine. The manual lets every access end in a response and every error in a status, a count or
a Belay fault, so no command stops the device: the type has no constructor. -/
inductive Fault where
deriving DecidableEq, Repr

/-- What the model declines to answer. -/
inductive Refusal where
  /-- raised by the arm of a row that has no meaning yet; safe, since nothing can be proved of what the row does -/
  | notModelled (mnemonic : String)
deriving DecidableEq, Repr

/-- The answer to the last access: error or not, and the data read (R42, R48). -/
structure Resp where
  /-- the access ended in a bus error -/
  error : Bool
  /-- data returned by a read, 0 for a write -/
  data : DWord
deriving DecidableEq, Repr

/-- A write that waits for a soft reset to complete (R59). -/
structure HeldWrite where
  /-- its initiator -/
  req : Req
  /-- physical address -/
  addr : Nat
  /-- access size -/
  size : Size
  /-- value written -/
  value : DWord
deriving DecidableEq, Repr

/-- Where the module stands in its supply life (R97, R102, R103): without rails, held in reset, running (in the state
PWR_STATE.CUR names), HALTED, in Bivouac. -/
inductive PowerPhase where
  | off | reset | run | halted | bivouac
deriving DecidableEq, Repr

/-- The supply, reset and clock circuits beside their registers (R71 to R125). -/
structure PowerState where
  /-- where the module stands -/
  phase : PowerPhase
  /-- SYSCFG_RESET_CAUSE bit of the reset under way or last taken -/
  cause : Nat
  /-- the reset under way, or the last one, began with the SoC die unpowered (R31), or with the straps of such a reset not yet
  latched -/
  powerOn : Bool
  /-- the reset under way waits for a PORST_N release (R76) -/
  awaitPorst : Bool
  /-- strap samples taken since the PORST_N release: GUARD bit 0, BOOTSEL bits 2:1 (R78) -/
  samples : List Nat
  /-- VIN is above the UVLO threshold (R97) -/
  vinUp : Bool
  /-- VBAT is within its range (R95) -/
  vbatUp : Bool
  /-- PFAIL_N is asserted (R98) -/
  pfail : Bool
  /-- the armed action whose grace window runs (R100) -/
  grace : Option Nat
  /-- what the device heads for without return: 1 HALTED, 2 Bivouac by a PFAIL action (R100), 3 Bivouac by PWR_REQ (R107) -/
  closing : Option Nat
  /-- the MRAMC is closed to new writes (R100) -/
  mramClosed : Bool
  /-- Heddle is clock-stopped -/
  heddleStopped : Bool
  /-- wakes latched but not yet served: WAKE_0–3, RTC, VIN, TAMPER in the bit order of PWR_WAKE_STAT (R120, R121) -/
  wakes : Nat
  /-- filtered levels of WAKE_0–3 -/
  wakePins : Nat
  /-- RSTOUT_N is driven high (R77) -/
  rstoutN : Bool
  /-- PWR_GOOD is driven high (R77) -/
  pwrGood : Bool
  /-- the reset of a thermal trip is held (R114) -/
  thermHold : Bool
  /-- Heddle kicks held while in STOP (R177): channel, and whether a Reed slot made it, which ends STOP (Table Supply-6) -/
  heldKicks : List (Nat × Bool)
  /-- a snapshot commit waits for this many queued MRAM writes (R108) -/
  snapWait : Nat
  /-- a clock measurement runs (R115) -/
  measuring : Bool
  /-- the start under way, or last made, follows Bivouac (R129) -/
  fromBivouac : Bool
  /-- CAL-corrected 5 ns ticks towards the next RTC tick, in units of 5 ns × 32,768 × 10^−7 (R116) -/
  rtcFraction : Nat
deriving DecidableEq, Repr

/-- What the first stage is doing (R135 to R146). -/
inductive BootPhase where
  /-- before the first stage has decided anything -/
  | start
  /-- every check passed: the entry offset, ready to hand over (R137) -/
  | passed (entry : Nat)
  /-- a check failed with this FAILCODE on this slot (R140) -/
  | failed (code slot : Nat)
  /-- the retry wait of k, in units of 100 ms (R140) -/
  | waiting (units : Nat)
  /-- recovery DONE was read and the port detaches before hand-over (R145) -/
  | detaching (entry : Nat)
  /-- handed over -/
  | done
deriving DecidableEq, Repr

/-- What the service port presents in USB recovery (R145): one configuration with one interface and a bulk OUT endpoint 0x01. -/
structure ServicePort where
  /-- VID -/
  vid : Nat
  /-- PID -/
  pid : Nat
  /-- interface class: 0xFF, vendor-specific -/
  cls : Nat
  /-- largest packet of the endpoint at full speed -/
  packetFs : Nat
  /-- largest packet of the endpoint at high speed -/
  packetHs : Nat
deriving DecidableEq, Repr

/-- How the controller drives the flash (R147, Table Boot-12): OSPI_CLK is 200 MHz ÷ (2 × `div`). -/
structure OspiBus where
  /-- PROTO -/
  proto : Nat
  /-- CMD16: the opcode is followed by its inverse -/
  cmd16 : Bool
  /-- DQS_EN: read data are captured on OSPI_DQS -/
  dqs : Bool
  /-- SAMPLE: capture delay of the internal clock otherwise, × 0.5 ns -/
  sample : Nat
  /-- DIV -/
  div : Nat
deriving DecidableEq, Repr

/-- One transfer between the fall and the rise of OSPI_CS_N (R147, R149). -/
structure OspiTransfer where
  /-- how it is driven -/
  bus : OspiBus
  /-- opcode bytes -/
  opcode : List Byte
  /-- address bytes, most significant first -/
  addr : List Byte
  /-- idle cycles before the data -/
  dummy : Nat
  /-- data bytes written -/
  out : List Byte
  /-- data bytes read -/
  reads : Nat
deriving DecidableEq, Repr

/-- An indirect OSPI command under way, with what governs it from its start (R149, R150). -/
structure OspiCommand where
  /-- how it is driven -/
  bus : OspiBus
  /-- opcode -/
  op : Nat
  /-- what the flash takes it for: 0 nothing the model follows, 1 write enable, 2 program, 3 array read, 4 a command that may
  erase -/
  effect : Nat
  /-- polls the status register afterwards -/
  poll : Bool
  /-- MASK of the poll -/
  mask : Nat
  /-- MATCH of the poll -/
  want : Nat
  /-- opcode of the poll -/
  pollOp : Nat
  /-- flash address -/
  addr : Nat
  /-- address bytes sent, most significant first -/
  addrBytes : List Byte
  /-- idle cycles before the data -/
  dummy : Nat
  /-- data bytes read -/
  reads : Nat
  /-- data bytes sent -/
  data : List Byte
  /-- OSPI_CS_N has risen after the data: what is left is the poll -/
  performed : Bool
  /-- loads of the window that arrived before it while an item held the flash -/
  after : Nat
deriving DecidableEq, Repr

/-- Who waits for the flash (R150). A hart and the debug module ask again once the flash is free; what they keep here is what they
do if the wait ends as R317 states. -/
inductive XipOrigin where
  /-- XIP_LOAD: the controller answers it -/
  | command
  /-- an instruction of a hart: the cause of its access fault and the virtual address -/
  | hart (h cause : Nat) (va : DWord)
  /-- a system bus access of the debug module -/
  | systemBus
deriving DecidableEq, Repr

/-- The hart whose instruction waits. -/
def XipOrigin.ofHart (o : XipOrigin) (h : Nat) : Bool := match o with | .hart g _ _ => g == h | _ => false

/-- The poll of a program item, with what governs it from the item's start (R150, R151). -/
structure OspiPoll where
  /-- channel of the item -/
  ch : Nat
  /-- its ring index -/
  idx : Nat
  /-- how it is driven -/
  bus : OspiBus
  /-- opcode of the poll -/
  op : Nat
  /-- MASK -/
  mask : Nat
  /-- MATCH -/
  want : Nat
deriving DecidableEq, Repr

/-- A load of the execute-in-place window that waits (R150). -/
structure XipLoad where
  /-- its initiator -/
  req : Req
  /-- physical address -/
  addr : Nat
  /-- access size -/
  size : Size
  /-- who waits -/
  origin : XipOrigin
deriving DecidableEq, Repr

/-- First stage, flash and OSPI controller beside their registers (R127 to R152). -/
structure BootState where
  /-- progress of the first stage -/
  phase : BootPhase
  /-- the resume path of R143 comes first (R129) -/
  resume : Bool
  /-- harts that started in the ROM and have not parked yet (R131) -/
  romHarts : List Nat
  /-- the service port as the first stage has attached it (R145) -/
  service : Option ServicePort
  /-- bytes of a recovery image received so far (R145) -/
  received : Nat
  /-- contents of the flash device on OSPI; an erased byte reads 0xFF -/
  flash : List (Nat × Byte)
  /-- indirect command under way -/
  command : Option OspiCommand
  /-- transfers of the command, item or load that had the flash last, oldest first (R147) -/
  sent : List OspiTransfer
  /-- channel and ring index of the program item whose poll runs (R151) -/
  polling : Option OspiPoll
  /-- loads of the execute-in-place window that wait for the flash, oldest first (R150) -/
  xip : List XipLoad
  /-- the flash holds a write enable (OSPI_WREN, R149) -/
  wren : Bool
  /-- OSPI_RST_N pulses sent (R152) -/
  resetPulses : Nat
  /-- the unlock challenge may still be used (R155) -/
  challengeLive : Bool
deriving DecidableEq, Repr

/-- One scheduler slot of Reed with the contents in force (R174, R175). -/
structure ReedSlot where
  /-- REED_SLOT_A in force -/
  a : DWord
  /-- REED_SLOT_B in force -/
  b : DWord
  /-- armed -/
  armed : Bool
  /-- internal count -/
  count : Nat
  /-- a ONESHOT slot that has fallen due and waits to fire: it falls due no more -/
  spent : Bool
deriving DecidableEq, Repr

/-- A slot that fell due and waits for a free tick (R176). -/
structure ReedDue where
  /-- slot -/
  slot : Nat
  /-- REED_SLOT_B as it fell due -/
  b : DWord
  /-- CYCLE and programmed angle (R165) -/
  stamp : Nat
  /-- ticks waited -/
  waited : Nat
  /-- its tick lies after its angle instant -/
  after : Bool
  /-- a phase step passed over it (R183) -/
  step : Bool
deriving DecidableEq, Repr

/-- A level of ZC_IN that the glitch filter has not accepted yet (R167). -/
structure ZcHold where
  /-- ticks it has held -/
  ticks : Nat
  /-- the ticks of FILT in force when its transition came -/
  need : Nat
  /-- the phase at that transition -/
  acc : DWord
deriving DecidableEq, Repr

/-- Reed beside its registers (R163 to R189). -/
structure ReedState where
  /-- CYCLE, ANGLE and the 32-bit fraction (R163) -/
  acc : DWord
  /-- how far the phase lies behind the highest it has reached, in 2^−32 ac (R183) -/
  behind : Nat
  /-- how far beyond the highest phase reached slots have been evaluated, for the nearest tick of R176, in 2^−32 ac -/
  ahead : Nat
  /-- slew still to be applied, in 2^−32 ac (R172) -/
  slew : Int
  /-- slew applied per tick at most, in 2^−32 ac -/
  slewRate : Nat
  /-- 5 ns ticks since the last accepted event, as Scree shifts it (R580) -/
  sinceAccepted : Int
  /-- 5 ns ticks since the last event received, as Scree shifts it -/
  sinceReceived : Int
  /-- an event has been received that the next interval can be measured from -/
  received : Bool
  /-- an event has been accepted since Reed left DISABLED (R164, R171) -/
  accepted : Bool
  /-- T, as ticks and the number they are divided by (R171) -/
  period : Nat × Nat
  /-- accepted intervals since entry into ACQUIRE, newest first, at most 8, in ticks (R171) -/
  intervals : List Nat
  /-- consecutive deviant events (R171) -/
  deviants : Nat
  /-- time since HOLD_LEFT last changed (R172), in ticks divided by the divisor of `period` -/
  holdTicks : Nat
  /-- level of ZC_IN -/
  zcIn : Bool
  /-- the level that the glitch filter has accepted (R167) -/
  zcLevel : Bool
  /-- a new level being filtered (R167) -/
  zcHold : Option ZcHold
  /-- time the PTP clock has counted since the last event received, in 2^−32 ns (R166, R169) -/
  ptpReceived : Nat
  /-- and since the last event accepted -/
  ptpAccepted : Nat
  /-- slots in force, by number -/
  slots : List (Nat × ReedSlot)
  /-- slots whose register writes wait for the next crossing (R175) -/
  pendingSlots : List Nat
  /-- those of them whose REED_SLOT_B was written -/
  pendingArms : List Nat
  /-- REED_COMB in force -/
  comb : DWord
  /-- a REED_COMB write waits for the next crossing -/
  combPending : Bool
  /-- comb points due and not yet fired, oldest first: stamp, and the mask of ADCs of the comb in force (R178, R183) -/
  combDue : List (Nat × Nat)
  /-- slots due and waiting for a free tick, oldest first (R176) -/
  due : List ReedDue
  /-- encoder counts against REED_ENC.DIR not yet made good (R168) -/
  reverseBy : Nat
  /-- ADCs that Reed has triggered in the tick that passed last, bit n for ADC n (R366) -/
  triggered : Nat
deriving DecidableEq, Repr

/-- The Xoroud operations the LOU executes (Table Pipeline-5). -/
inductive LongOp where
  | ldivu | isqrt | frcp | flog2 | fexp2 | lmacu | lmacs | laccWr | laccRdlo | laccRdhi | crc32c
deriving DecidableEq, Repr

/-- An entry of the LOU (R239, R242). -/
structure LouEntry where
  /-- LOU entry number, 0–7 -/
  slot : Nat
  /-- operation -/
  op : LongOp
  /-- sources read in RD -/
  rs1 : DWord
  /-- second source -/
  rs2 : DWord
  /-- destination register -/
  rd : Nat
  /-- address of the instruction -/
  pc : DWord
  /-- privilege at hand-over: 0 U, 1 S, 3 M -/
  priv : Nat
  /-- virtualisation mode at hand-over -/
  virt : Bool
  /-- handed over under mloucfg.PRECISE = 1 -/
  precise : Bool
  /-- the fault it completed with, waiting for delivery: 1 DIV_ZERO, 2 DOMAIN, 3 RANGE -/
  fault : Option Nat
deriving DecidableEq, Repr

/-- A settling window of a vendor CSR write (R212). -/
structure Settling where
  /-- CSR number -/
  csr : Nat
  /-- value that will govern -/
  value : DWord
  /-- retired instructions still to come -/
  left : Nat
deriving DecidableEq, Repr

/-- A Scout run (R232 to R234). -/
structure Scout where
  /-- checkpoint: pc, which is the address of the stalled load -/
  pc : DWord
  /-- checkpoint: integer registers -/
  x : List (Nat × DWord)
  /-- checkpoint: floating-point registers -/
  f : List (Nat × DWord)
  /-- instructions issued -/
  insns : Nat
  /-- cycles run -/
  cycles : Nat
  /-- issue has stopped: a limit was reached (R234) or an instruction stopped the run -/
  stopped : Bool
  /-- integer registers tagged INV -/
  inv : Nat
  /-- store shadow, newest first: virtual address and bytes (none: INV) of at most 8 stores -/
  shadow : List (Nat × List (Option Byte))
deriving DecidableEq, Repr

/-- A translation held in a hart's or Heddle's translation structures (R206, R405). -/
structure TlbEntry where
  /-- virtual (or guest) page number at 4 KiB -/
  vpn : Nat
  /-- page size level: 0 4 KiB, 1 2 MiB, 2 1 GiB, 3 512 GiB -/
  level : Nat
  /-- address space identifier -/
  asid : Nat
  /-- global mapping -/
  global : Bool
  /-- virtual machine identifier; the instance number for Heddle -/
  vmid : Nat
  /-- translation stage: 0 single stage, 1 VS-stage, 2 G-stage -/
  stage : Nat
  /-- physical page number at 4 KiB -/
  ppn : Nat
  /-- permission and attribute bits of the leaf: R, W, X, U in bits 1 to 4, D in bit 7, PBMT in bits 9:8 -/
  perm : Nat
deriving DecidableEq, Repr

/-- A non-leaf PTE of a hart's walk cache (Table Harts-4). -/
structure WalkEntry where
  /-- translation stage: 0 single stage, 1 VS-stage, 2 G-stage -/
  stage : Nat
  /-- address space identifier -/
  asid : Nat
  /-- virtual machine identifier -/
  vmid : Nat
  /-- address of the PTE: guest-physical in the VS-stage -/
  addr : Nat
  /-- the PTE -/
  pte : Nat
deriving DecidableEq, Repr

/-- One physical hart (R191 to R252). -/
structure Hart where
  /-- program counter -/
  pc : DWord
  /-- integer registers x1–x31; an unlisted one reads 0 -/
  x : List (Nat × DWord)
  /-- floating-point registers -/
  f : List (Nat × DWord)
  /-- privilege: 0 U, 1 S, 3 M -/
  priv : Nat
  /-- virtualisation mode -/
  virt : Bool
  /-- CSRs that differ from their reset values -/
  csr : List (Nat × DWord)
  /-- tdata1 and tdata2 of trigger 0 and 1 (Table Harts-12), as trigger, register, value in csr order -/
  trig : List (Nat × DWord)
  /-- ACC (R236) -/
  acc : BitVec 128
  /-- LOU entries held, oldest first -/
  lou : List LouEntry
  /-- a further faulted entry may be delivered at the next instruction boundary: an xRET retired (R244) -/
  louArmed : Bool
  /-- the LOU entry the next hand-over takes, if it is free: entries are taken in turn -/
  louNext : Nat
  /-- vendor CSR values that govern while a window is open (R212) -/
  govern : List (Nat × DWord)
  /-- open settling windows, oldest first -/
  windows : List Settling
  /-- LR reservation: physical address and bytes -/
  reservation : Option (Nat × Nat)
  /-- Scout run under way -/
  scout : Option Scout
  /-- stalled in WFI -/
  wfi : Bool
  /-- in debug mode -/
  debug : Bool
  /-- halted on a haltreq that is set on reset (Table Harts-12) -/
  resetHalt : Bool
  /-- out of reset and clocked -/
  running : Bool
  /-- parked in the ROM's release loop (R131) -/
  parked : Bool
  /-- fenced off by Belay (R573) -/
  fenced : Bool
  /-- L1 ITLB: at most 32, newest first (Table Harts-4) -/
  itlb : List TlbEntry
  /-- L1 DTLB: at most 32 -/
  dtlb : List TlbEntry
  /-- L2 TLB of 4 KiB pages: at most 4 of each of 256 sets -/
  tlb : List TlbEntry
  /-- L2 TLB of larger pages: at most 64 -/
  tlbLarge : List TlbEntry
  /-- walk cache: at most 32 non-leaf PTEs of the first stage and 32 of the G-stage -/
  walk : List WalkEntry
  /-- the program buffer runs (false) or has ended in an exception (true) while the hart is in debug mode (R217) -/
  prog : Option Bool
  /-- dcsr.step is set: it halts again after one instruction -/
  stepping : Bool
deriving DecidableEq, Repr

/-- Which cache array holds a line (Table Memory-1). -/
inductive CacheId where
  | l1i (hart : Nat) | l1d (hart : Nat) | l2 (hart : Nat) | l3
deriving DecidableEq, Repr

/-- Coherence states (R257). -/
inductive Mesi where
  | m | e | s
deriving DecidableEq, Repr

/-- A line held in a cache. An absent line is in state I. -/
structure CacheLine where
  /-- array -/
  cache : CacheId
  /-- line address -/
  line : Nat
  /-- state -/
  state : Mesi
  /-- dirty: memory behind it holds older data -/
  dirty : Bool
  /-- way it occupies -/
  way : Nat
deriving DecidableEq, Repr

/-- Bits flipped in a stored codeword (R255, R581): array code of Table Belay-7, unit, address, and the bits. -/
structure EccFlip where
  /-- array code -/
  array : Nat
  /-- unit -/
  unit : Nat
  /-- address of the codeword -/
  addr : Nat
  /-- first bit -/
  bitA : Nat
  /-- second bit, when two are flipped -/
  bitB : Option Nat
  /-- Scree flipped them (R580) -/
  scree : Bool
deriving DecidableEq, Repr

/-- A write the MRAMC has accepted and not yet completed (R275). -/
structure MramWrite where
  /-- address of its 64-bit word -/
  addr : Nat
  /-- the word before it -/
  old : DWord
  /-- the word after it -/
  new : DWord
deriving DecidableEq, Repr

/-- A request in a DMC channel's buffers (R268). -/
structure DmcRequest where
  /-- channel: 0 A, 1 B -/
  channel : Nat
  /-- physical address -/
  addr : Nat
  /-- queue: 0 guaranteed, 1 urgent, 2 normal -/
  queue : Nat
  /-- bytes read, 0 for a write -/
  len : Nat
  /-- bytes written, none for a read -/
  data : List Byte
  /-- a scrub read (R272): the word of the line that an upset lies in, and its bits -/
  scrub : Option (Nat × List Nat)
deriving DecidableEq, Repr

/-- A check block in the check-byte cache (R267). -/
structure CheckBlock where
  /-- twice its channel-local address, plus its channel -/
  block : Nat
  /-- not yet written back -/
  dirty : Bool
deriving DecidableEq, Repr

/-- A row open in a DRAM bank (R268). -/
structure OpenRow where
  /-- channel: 0 A, 1 B -/
  channel : Nat
  /-- bank, 0–7 -/
  bank : Nat
  /-- row -/
  row : Nat
deriving DecidableEq, Repr

/-- Caches, DMC, MRAMC and base camp beside their registers (R253 to R288). -/
structure MemState where
  /-- lines held in caches -/
  lines : List CacheLine
  /-- bytes of memory behind the caches that are older than the coherent view, for dirty lines -/
  stale : List (Nat × Byte)
  /-- words that carry the poison mark in their memory: every word of a poisoned DRAM line, or single words of MRAM and base camp (R256) -/
  poison : List Nat
  /-- words that carry it in the copies of their line that caches hold (R256) -/
  linePoison : List Nat
  /-- flipped bits not yet corrected -/
  flips : List EccFlip
  /-- writes accepted by the MRAMC, oldest first -/
  mram : List MramWrite
  /-- how many of the oldest of them PFAIL_N has put ahead of every newer one (R99) -/
  mramAhead : Nat
  /-- maintenance operation under way: its OP, and the ways it flushes (R288) -/
  maint : Option (Nat × Nat)
  /-- next line of the scrub of L3 slice 0 and 1 -/
  l3Scrub : Nat
  /-- next line of the DMC scrub, channel A and B -/
  dmcScrub : Nat × Nat
  /-- next line of the hardware scrubs of L1I, L1D, L2 and base camp -/
  sramScrub : Nat
  /-- refresh rate that the temperatures select: 0 ×1, 1 ×2, 2 ×4 (R270) -/
  tempRate : Nat
  /-- consecutive readings that allow a step down (R270) -/
  coolReadings : Nat
  /-- next bank to refresh, channel A and B (R270) -/
  refreshBank : Nat × Nat
  /-- refreshes issued -/
  refreshes : Nat
  /-- requests in the DMC's buffers, oldest first -/
  dmc : List DmcRequest
  /-- check blocks held, at most 8 of each of 64 sets of a channel (R267) -/
  checkBlocks : List CheckBlock
  /-- rows open, at most one of each bank (R268) -/
  openRows : List OpenRow
deriving DecidableEq, Repr

/-- A Loom transaction outstanding (R290, R294). -/
structure LoomTxn where
  /-- initiator NI -/
  init : Nat
  /-- target NI -/
  target : Nat
  /-- TXID -/
  txid : Nat
  /-- OP of Table Loom-2 -/
  op : Nat
  /-- physical address -/
  addr : Nat
  /-- LEN: bytes − 1 -/
  len : Nat
  /-- PRIO -/
  prio : Nat
  /-- travels in a pick -/
  guar : Bool
  /-- reservation it was sent under -/
  res : Option Nat
  /-- CTX: instance GEN -/
  ctx : Nat
  /-- SEQ -/
  seq : Nat
  /-- PRIV -/
  priv : Bool
  /-- PREF -/
  pref : Bool
  /-- bytes written -/
  data : List Byte
  /-- what the block of the initiator waits for -/
  use : LoomUse
  /-- level its request packet is arbitrated at, as packets behind it raise it (R295) -/
  level : Nat
  /-- the request has reached its target -/
  arrived : Bool
  /-- the pick that a guaranteed request was injected in: 256 × round + pick, modulo 2^32 -/
  pick : Nat
  /-- the target has abandoned it (R317) -/
  abandoned : Bool
  /-- its packet was discarded (R318) -/
  lost : Bool
deriving DecidableEq, Repr

/-- A best-effort packet waiting in a router (R298). -/
structure WaitingPacket where
  /-- plane: 0 REQ, 1 RSP, 3 DAT -/
  plane : Nat
  /-- router -/
  router : Nat
  /-- TXID and initiator that name it -/
  init : Nat
  /-- TXID -/
  txid : Nat
  /-- level it is arbitrated at -/
  level : Nat
deriving DecidableEq, Repr

/-- A table image: tokens, reservations and picks (Tables Loom-5, Loom-6). -/
structure LoomTable where
  /-- TAG -/
  tag : Nat
  /-- QUOTA(i, t) at key 16 i + t -/
  quota : List (Nat × Nat)
  /-- first 8 bytes of reservation r -/
  res : List (Nat × DWord)
  /-- pick entry p -/
  picks : List (Nat × DWord)
deriving DecidableEq, Repr

/-- The Loom beside its registers (R289 to R321). -/
structure LoomState where
  /-- transactions outstanding, oldest first -/
  txns : List LoomTxn
  /-- requests sent, by 512 init + 32 target + GUAR, modulo 256 -/
  sent : List (Nat × Nat)
  /-- next SEQ expected, same keys -/
  seen : List (Nat × Nat)
  /-- packets waiting in routers -/
  waiting : List WaitingPacket
  /-- live tables -/
  live : LoomTable
  /-- image being loaded and checked -/
  shadow : Option LoomTable
  /-- transactions queued per reservation -/
  queued : List (Nat × List LoomTxn)
  /-- picks released this round by shedding (R311), as 256 × reservation + pick -/
  released : List Nat
  /-- tokens taken for prefetch reads not yet injected (R296), per initiator and target -/
  spec : List (Nat × Nat)
  /-- request picks that have begun in this round, 0–256 (R299) -/
  began : Nat
  /-- guaranteed tokens of a reservation that are in force (R310) -/
  guar : List (Nat × Nat)
deriving DecidableEq, Repr

/-- A Cairn gateway (R349 to R351): edge latch, ACTIVE and the claiming context. PENDING of a level source is its level while
ACTIVE is 0 (State.pendingOf). -/
structure Gateway where
  /-- PENDING of an edge source, or the edge latch of a combined source -/
  latch : Bool
  /-- ACTIVE -/
  active : Bool
  /-- claimer, valid while ACTIVE -/
  claimer : Nat
deriving DecidableEq, Repr

/-- The Cairn arrays and gateways (Table Events-2). -/
structure CairnState where
  /-- priority of a source -/
  prio : List (Nat × Nat)
  /-- enable word w of context c at key 64 c + w -/
  enable : List (Nat × Nat)
  /-- THRESHOLD of a context -/
  threshold : List (Nat × Nat)
  /-- gateways -/
  gates : List (Nat × Gateway)
deriving DecidableEq, Repr

/-- One Shuttle channel beside its registers (R362 to R369). -/
structure ShuttleChannel where
  /-- output -/
  out : Bool
  /-- producer as last sensed, after inversion -/
  sensed : Bool
  /-- peripheral cycles the output still stays high (STRETCH) -/
  stretch : Nat
  /-- held force: mask and level (R368) -/
  held : Option (Nat × Bool)
  /-- cycles for which it still senses a 10 ns pulse of its producer as high -/
  pulse : Nat
  /-- the same of its gate -/
  gatePulse : Nat
deriving DecidableEq, Repr

/-- Shuttle beside its registers. -/
structure ShuttleState where
  /-- channels -/
  ch : List (Nat × ShuttleChannel)
  /-- levels of the input balls, bit n = producer code n for codes below 96 -/
  balls : Nat
  /-- conflict bits as last seen, for CONFLICT events (R368) -/
  conflict : Nat
  /-- forced balls as last seen, for FORCE_BEGIN and FORCE_END (R368) -/
  forced : Nat
  /-- levels of the ADC limit comparators at bits 60 and 61 (Table Events-4) -/
  levels : Nat
deriving DecidableEq, Repr

/-- The timers beside their registers (R370 to R375). -/
structure TimerState where
  /-- prescaler count of each timer -/
  pre : List (Nat × Nat)
  /-- PERIOD, DUTY and PRESCALE in force, at keys 4 n, 4 n + 1, 4 n + 2 -/
  force : List (Nat × Nat)
  /-- TOGGLE level of each timer, bit n -/
  toggle : Nat
  /-- timers that wait for their START_CH edge, bit n -/
  waiting : Nat
  /-- timers that have expired and whose COUNT returns to 0 at their next tick, bit n -/
  expired : Nat
  /-- 5 ns ticks towards the next 40 ns tick of TIMER_MTIME -/
  phase : Nat
  /-- what a store has set TIMER_MTIME to from that tick on (R370) -/
  mtimeNext : Option DWord
deriving DecidableEq, Repr

/-- A fault input of Belay (Table Belay-3). -/
structure FaultInput where
  /-- source S -/
  source : Nat
  /-- CLASS of Table Belay-2 -/
  cls : Nat
  /-- UNIT -/
  unit : Nat
  /-- ADDR -/
  addr : Nat
  /-- DETAIL -/
  detail : Nat
  /-- caused by a Scree injection -/
  injected : Bool
deriving DecidableEq, Repr

/-- Belay and Scree beside their registers (R561 to R588). -/
structure BelayState where
  /-- highest class signalled on a source since its PEND bit was last cleared -/
  cls : List (Nat × Nat)
  /-- sources with a fault, since last cleared, that was not injected under FULL_REACT = 0 (R572), bit S -/
  real : Nat
  /-- sources that hold FAULT_N (R572), bit S -/
  holds : Nat
  /-- FAULT_N is driven low: since the reset began or a fault asserted it, until Belay releases it (R572) -/
  faultLow : Bool
  /-- SEQ of the last log entry since the system reset (Table Belay-5) -/
  seq : Nat
  /-- CRC-32C reference of each locked page, by page index (R567) -/
  crc : List (Nat × Nat)
  /-- pages whose reference Scree has flipped (Table Belay-8) -/
  crcFlips : List Nat
  /-- a RESET reaction is due, with the SYSCFG_RESET_CAUSE bit it will record (R573) -/
  resetDue : Option Nat
  /-- the self-test running: false after a reset, true on request (R569) -/
  test : Option Bool
  /-- the last self-test passed -/
  selfOk : Bool
  /-- fault inputs held while a self-test runs, oldest first -/
  held : List FaultInput
  /-- pairs whose next request copy Scree inverts, bit 0 A, bit 1 B (Table Belay-8) -/
  lockstepShots : Nat
  /-- pairs whose copies have differed since the system reset (R216), bit 0 A, bit 1 B -/
  mismatch : Nat
  /-- flit flips waiting: router, plane, two bits flipped -/
  flitShots : List (Nat × Nat × Bool)
  /-- move flips waiting: channel, first bit, second bit -/
  moveShots : List (Nat × Nat × Option Nat)
  /-- reference events since the last one SCREE_JITTER removed -/
  dropCount : Nat
  /-- owned picks of SCREE_PICK.RES since the last one released -/
  pickCount : Nat
deriving DecidableEq, Repr

/-- A live access waiting (R526). -/
structure LiveAccess where
  /-- physical address, a multiple of 4 -/
  addr : Nat
  /-- stores -/
  write : Bool
  /-- value stored -/
  value : BitVec 32
deriving DecidableEq, Repr

/-- The Tether window beside the TETHER page (Table Tether-3). -/
structure TetherState where
  /-- faults signalled since the last complete read (index 0x02) -/
  raised : Nat
  /-- RAISED has saturated -/
  raisedSat : Bool
  /-- class of the latest fault -/
  lastClass : Nat
  /-- write frames with at least one committed word, modulo 256 -/
  frames : Nat
  /-- LIVE_STATE: 0 IDLE, 1 BUSY, 2 DONE -/
  liveState : Nat
  /-- a live access ended with RESP ≠ OK since the last complete read -/
  liveErr : Bool
  /-- RESP of the latest completed access -/
  liveResp : Nat
  /-- an access was dropped on a full queue -/
  liveLost : Bool
  /-- accesses completed, modulo 65,536 -/
  liveOps : Nat
  /-- LIVE_DATA -/
  liveData : BitVec 32
  /-- LIVE_HI and LIVE_LO: the address held -/
  liveAddr : Nat
  /-- LIVE_LO.OP -/
  liveOp : Bool
  /-- accesses waiting, oldest first -/
  queue : List LiveAccess
  /-- bits MISO shifted out in the last frame, first bit first -/
  miso : List Bool
deriving DecidableEq, Repr

/-- A key slot that holds a key (R538). An empty slot is not listed. -/
structure KeySlot where
  /-- its 32 bytes; byte i is bits [8 i + 7 : 8 i] -/
  key : BitVec 256
  /-- USAGE: AES, HMAC, DERIVE, PKA -/
  usage : BitVec 4
deriving DecidableEq, Repr

/-- The chaining state of an open HASH context (R552). -/
structure HashChain where
  /-- the eight chaining words -/
  words : List Nat
  /-- bytes absorbed -/
  bytes : Nat
deriving DecidableEq, Repr

/-- A consumer that waits for DRBG blocks (R547). -/
inductive EntropyWait where
  /-- a CRYPTO item of this channel, with the blocks it takes -/
  | item (channel blocks : Nat)
  /-- the PKA_CMD operation -/
  | pkaCmd (blocks : Nat)
  /-- the unlock challenge (R155) -/
  | challenge
deriving DecidableEq, Repr

/-- OTP, key slots, TRNG and engines beside their registers (R535 to R560). -/
structure SecurityState where
  /-- OTP words by index 0–255 -/
  otp : List (Nat × Nat)
  /-- words with check bits that a cut pulse left partly set (R537) -/
  otpTorn : List Nat
  /-- key slots that hold a key -/
  slots : List (Nat × KeySlot)
  /-- DRBG blocks queued, head first (R544) -/
  queue : List (BitVec 128)
  /-- quarters of the head block already loaded (R547) -/
  quarters : Nat
  /-- generate requests since the last reseed -/
  requests : Nat
  /-- instantiations since the system reset -/
  instantiations : Nat
  /-- times of the last two health failures, ms ago at the last one, newest first (Table Keys-5) -/
  failures : List Nat
  /-- consumers waiting, oldest first -/
  waiting : List EntropyWait
  /-- open HASH contexts -/
  hash : List (Nat × HashChain)
  /-- channels whose items wait for an engine's self-test, with the port (R555) -/
  katWaiting : List (Nat × Nat)
  /-- result of the PKA_CMD operation under way, to appear with DONE: RESULT and output bytes -/
  pka : Option (Nat × List Byte)
deriving DecidableEq, Repr
/-- A live channel entry of Heddle (Table Heddle-1). -/
structure HeddleEntry where
  /-- KIND -/
  kind : Nat
  /-- INST -/
  inst : Nat
  /-- GEN -/
  gen : Nat
  /-- PRIO -/
  prio : Nat
  /-- HALT_ON_ERR -/
  haltOnErr : Bool
  /-- KICK_ADV -/
  kickAdv : Bool
  /-- CQ -/
  cq : Nat
  /-- PREFETCH -/
  prefetch : Nat
  /-- RING_ORDER -/
  order : Nat
  /-- RING_BASE, guest-physical -/
  base : Nat
  /-- PORT -/
  port : Nat
  /-- RES, when RES_EN = 1 -/
  res : Option Nat
  /-- CTX -/
  ctx : Nat
deriving DecidableEq, Repr

/-- A work item that Heddle has read (Table Heddle-3), with its progress. -/
structure HeddleItem where
  /-- ring index -/
  index : Nat
  /-- OP -/
  op : Nat
  /-- CQE -/
  cqe : Bool
  /-- IRQ -/
  irq : Bool
  /-- FENCE -/
  fence : Bool
  /-- CRC_EN -/
  crcEn : Bool
  /-- LEN, after the clamp of R401 -/
  len : Nat
  /-- SRC -/
  src : Nat
  /-- DST -/
  dst : Nat
  /-- CRC -/
  crc : Nat
  /-- PARAM -/
  param : Nat
  /-- channel GEN when the item was fetched -/
  gen : Nat
  /-- DETAIL of CLAMPED, 0 when nothing was clamped (R401) -/
  clamp : Nat
  /-- executing; false while only prefetched (R404) -/
  running : Bool
  /-- its first transaction, port transfer or engine block has been issued (R447) -/
  started : Bool
  /-- bytes of the item dealt with -/
  done : Nat
  /-- BYTES of its record -/
  bytes : Nat
  /-- CRC-32C running over the data read -/
  acc : Nat
  /-- stamp of the first sample moved (R396) -/
  phase : Option Nat
  /-- a HOLD item has crossed MOVE_ANGLE (R396) -/
  released : Bool
  /-- an ALIGN item has found its first sample -/
  aligned : Bool
  /-- STATUS and DETAIL, once decided -/
  status : Option (Nat × Nat)
  /-- its transactions outstanding (R397) -/
  out : Nat
deriving DecidableEq, Repr

/-- A completion record waiting for space in its queue (R398). -/
structure HeddleRecord where
  /-- queue -/
  cq : Nat
  /-- first word, P clear -/
  lo : Nat
  /-- second word, PHASE clear -/
  hi : Nat
  /-- PHASE, where it is that of the first sample moved (R396); else it is the phase as the record is issued -/
  phase : Option Nat
  /-- it signals its queue once written (R400) -/
  signal : Bool
  /-- it halts the channel once written (R402) -/
  halt : Bool
deriving DecidableEq, Repr

/-- A channel whose live state is not INVALID (R434). -/
structure HeddleChannel where
  /-- live entry -/
  e : HeddleEntry
  /-- HEDDLE_PEEK_STAT.STATE -/
  state : Nat
  /-- HEAD -/
  head : Nat
  /-- TAIL -/
  tail : Nat
  /-- pending bit of the intake (R395) -/
  pending : Bool
  /-- a CHC_INV waits for it to unpin (R390) -/
  dropping : Bool
  /-- items fetched and not ended, in ring order -/
  items : List HeddleItem
  /-- records waiting, oldest first -/
  waiting : List HeddleRecord
  /-- Loom transactions outstanding -/
  out : Nat
deriving DecidableEq, Repr

/-- A valid completion queue (Table Heddle-5, R398, R412). -/
structure HeddleQueue where
  /-- INST -/
  inst : Nat
  /-- ORDER -/
  order : Nat
  /-- IRQ -/
  irq : Nat
  /-- MSG -/
  msg : Nat
  /-- BASE, guest-physical -/
  base : Nat
  /-- head -/
  head : Nat
  /-- tail -/
  tail : Nat
  /-- P of the next record -/
  p : Bool
deriving DecidableEq, Repr

/-- The live copy of an instance entry (Table Instances-1) and its tokens. STATE and GEN are in HEDDLE_MGMT. -/
structure HeddleInstance where
  /-- G_MODE -/
  gMode : Nat
  /-- L3_PART -/
  part : Nat
  /-- PRIO_MAX -/
  prioMax : Nat
  /-- VMID -/
  vmid : Nat
  /-- ROOT -/
  root : Nat
  /-- CH_BASE -/
  chBase : Nat
  /-- CH_COUNT -/
  chCount : Nat
  /-- CQ_BASE -/
  cqBase : Nat
  /-- CQ_COUNT -/
  cqCount : Nat
  /-- TOKENS -/
  tokens : Nat
  /-- MSG_GROUPS -/
  msgGroups : Nat
  /-- RES_MASK -/
  resMask : Nat
  /-- transactions outstanding under the current GEN -/
  out : Nat
  /-- transactions outstanding under the GEN before the squash (R446) -/
  late : Nat
deriving DecidableEq, Repr

/-- The transactions a running IOTLB invalidation waits for (R407). -/
structure IotlbWait where
  /-- instance named -/
  inst : Nat
  /-- late ones (R446) -/
  late : Nat
  /-- those of each channel that were outstanding at the write -/
  ch : List (Nat × Nat)
deriving DecidableEq, Repr

/-- Heddle beside its registers (R388 to R459). -/
structure HeddleState where
  /-- channels not INVALID -/
  ch : List (Nat × HeddleChannel)
  /-- channel cache, most recently used first (R390) -/
  cache : List Nat
  /-- channel last served at each PRIO (R395) -/
  served : List (Nat × Nat)
  /-- valid queues -/
  cq : List (Nat × HeddleQueue)
  /-- instances not FREE -/
  inst : List (Nat × HeddleInstance)
  /-- IOTLB, newest first (R405) -/
  iotlb : List TlbEntry
  /-- what a running IOTLB invalidation waits for (R407) -/
  iotlbWait : Option IotlbWait
  /-- channel table in use when a soft reset of the page began, until the squashes it started have ended (R444, R458) -/
  oldTable : Option Nat
  /-- walk cache: non-leaf PTEs, tagged by instance (R404, R407) -/
  walk : List WalkEntry
  /-- channel the mover served last at each PRIO (R403) -/
  moved : List (Nat × Nat)
deriving DecidableEq, Repr

/-- A CODEC item under way (R415, R424), by its channel. -/
structure BobbinJob where
  /-- BOBBIN_CTX_CFG_n as read at the start of the item -/
  cfg : DWord
  /-- largest E among its blocks -/
  maxE : Nat
  /-- a SUMMARY block was emitted or decoded -/
  summary : Bool
deriving DecidableEq, Repr

/-- Bobbin beside its registers. -/
structure BobbinState where
  /-- items under way -/
  jobs : List (Nat × BobbinJob)
  /-- CODEC channel whose block was done last at each PRIO (R425) -/
  turn : List (Nat × Nat)
deriving DecidableEq, Repr


/-- A host pipe beside its registers (R464, R465, R472). -/
structure UsbPipe where
  /-- microframes for which it is still passed over after a NAK -/
  hold : Nat
  /-- consecutive transaction errors -/
  errs : Nat
  /-- the next OUT transaction is a PING -/
  ping : Bool
  /-- stage of its item: 0 setup or data not begun, 1 data, 2 status or closing zero-length packet -/
  stage : Nat
  /-- a non-periodic start-split holds a buffer of its TT -/
  split : Bool
  /-- microframes since its periodic start-split -/
  since : Option Nat
deriving DecidableEq, Repr

/-- A non-periodic buffer held in the TT of a hub port (R472). -/
structure TtBuffer where
  /-- port index 0–3 -/
  port : Nat
  /-- pipe it is held for -/
  pipe : Nat
  /-- device address -/
  addr : Nat
  /-- endpoint -/
  ep : Nat
  /-- direction IN -/
  dirIn : Bool
  /-- of a control endpoint, whose direction does not count (Table USB-10) -/
  control : Bool
deriving DecidableEq, Repr

/-- What an endpoint of the service port answers to a token (R477 to R479). -/
inductive UsbAnswer where
  /-- nothing -/
  | quiet
  /-- ACK -/
  | ack
  /-- NAK -/
  | nak
  /-- NYET -/
  | nyet
  /-- STALL -/
  | stall
  /-- a data packet -/
  | data (bytes : List Byte)
deriving DecidableEq, Repr

/-- An endpoint of the service port beside its registers (R475 to R479, R485). -/
structure UsbEndpoint where
  /-- data toggle -/
  toggle : Bool
  /-- packets in its FIFO, oldest first -/
  fifo : List (List Byte)
  /-- aborted, and no item published on its channel since -/
  aborted : Bool
  /-- its answer to the last token -/
  answer : UsbAnswer
deriving DecidableEq, Repr

/-- The USB complex beside its registers (R460 to R489). -/
structure UsbState where
  /-- host pipes, by number -/
  pipes : List (Nat × UsbPipe)
  /-- periodic pipes still to run in this microframe, with the transactions left -/
  due : List (Nat × Nat)
  /-- asynchronous pipe last served at each 2 × PRIO + bulk -/
  served : List (Nat × Nat)
  /-- start-splits of this microframe, by hub port -/
  starts : List (Nat × Nat)
  /-- TT buffers held, oldest first -/
  tt : List TtBuffer
  /-- what is attached to each hub port: an unlisted port has nothing; 1 low, 2 full, 3 high speed -/
  lines : List (Nat × Nat)
  /-- vendor and product identifiers in force since the last root reset (Table USB-11) -/
  hubId : Nat
  /-- data toggle of the hub's status-change endpoint -/
  hubToggle : Bool
  /-- the hub's status-change endpoint is halted -/
  hubHalt : Bool
  /-- endpoints of the service port by channel PORT − 0x70 -/
  eps : List (Nat × UsbEndpoint)
  /-- device address in force on the service port (R478) -/
  addr : Nat
  /-- 5 ns ticks since SUSPENDED was set (R480) -/
  idle : Nat
  /-- a RESUME write waits for the 5 ms idle -/
  wakeHeld : Bool
  /-- remote-wake K signals driven since the last suspend -/
  wakes : Nat
  /-- test selector of each hub port in a test mode (R469) -/
  test : List (Nat × Nat)
  /-- USBD_VBUS is valid at the ball, clocked or not (R487) -/
  vbus : Bool
deriving DecidableEq, Repr

/-- A frame in a MAC's RX FIFO (R495, R496). -/
structure EthFrame where
  /-- its bytes from the destination address on, without FCS -/
  bytes : List Byte
  /-- seconds of its stamp -/
  sec : Nat
  /-- nanoseconds of its stamp -/
  ns : Nat
deriving DecidableEq, Repr

/-- An Ethernet MAC beside its registers (R493 to R496). -/
structure EthMac where
  /-- RX FIFO, oldest first -/
  rx : List EthFrame
  /-- nanoseconds for which a PAUSE frame still halts transmission -/
  pause : Nat
  /-- the last frame sent, FCS included -/
  sent : List Byte
  /-- TX FIFO: the frame of the executing item, once it is whole (R494) -/
  tx : List Byte
deriving DecidableEq, Repr

/-- An entry of a UART's receive path: a character, or the end of a frame (R502). -/
inductive UartRx where
  | char (b : Byte) | frameEnd
deriving DecidableEq, Repr

/-- A character of a TX FIFO (R502). -/
structure UartTx where
  /-- as sent -/
  char : Byte
  /-- the last one of its item, or of the CRC after it -/
  last : Bool
  /-- the Modbus CRC of its frame follows it -/
  crc : Bool
deriving DecidableEq, Repr

/-- A UART beside its registers (R500 to R504). -/
structure UartPort where
  /-- RX FIFO, oldest first; frame ends take no room -/
  rx : List UartRx
  /-- TX FIFO, oldest first -/
  tx : List UartTx
  /-- Modbus CRC of the frame being sent -/
  txCrc : Nat
  /-- characters of the frame being received -/
  frame : List Byte
  /-- a gap above t1.5 was seen in it -/
  gap : Bool
  /-- a character of it was lost to a full FIFO -/
  lost : Bool
  /-- input is discarded until the line is idle (R502) -/
  discard : Bool
  /-- the last character sent -/
  shift : Byte
deriving DecidableEq, Repr

/-- An SPI controller beside its registers (R505, R506): the chip select held asserted, and what it has sent. -/
structure SpiPort where
  /-- CS_N number asserted -/
  cs : Option Nat
  /-- the bytes of the last transfer as they went out on MOSI, the first bit of each the highest -/
  mosi : List Byte
deriving DecidableEq, Repr

/-- An I²C controller beside its registers (R507). -/
structure I2cPort where
  /-- the bus is held after a NOSTOP transfer; the RX channel is served next -/
  hold : Bool
  /-- the last transfer was a TX item -/
  lastTx : Bool
deriving DecidableEq, Repr

/-- A sequence of conversions under way (R509, R510). -/
structure AdcSequence where
  /-- phase word of its trigger, when there was one -/
  stamp : Option Nat
  /-- conversions done -/
  done : Nat
  /-- ADC_SEQ in force -/
  seq : DWord
  /-- FORMAT in force -/
  format : Bool
  /-- CONT in force -/
  cont : Bool
  /-- its remaining samples are discarded (R511) -/
  dead : Bool
deriving DecidableEq, Repr

/-- An ADC beside its registers (R509 to R511). -/
structure AdcPort where
  /-- sequence under way -/
  run : Option AdcSequence
  /-- a held trigger with its stamp -/
  held : Option (Option Nat)
  /-- FIFO, oldest first: sample and stamp -/
  fifo : List (Nat × Option Nat)
  /-- the last raw code of each input converted since the start (R511) -/
  raws : List (Nat × Nat)
deriving DecidableEq, Repr

/-- Ethernet, PTP, serial lines and ADCs beside their registers (R490 to R518). -/
structure FieldState where
  /-- MACs -/
  eth : List (Nat × EthMac)
  /-- UARTs -/
  uart : List (Nat × UartPort)
  /-- SPI controllers -/
  spi : List (Nat × SpiPort)
  /-- I²C controllers -/
  i2c : List (Nat × I2cPort)
  /-- ADCs -/
  adc : List (Nat × AdcPort)
  /-- port errors held for the next item, by Heddle port (R491) -/
  held : List (Nat × Nat)
  /-- seconds [47:32] of the PTP time; the rest is in PTPCLK_TIME -/
  ptpHi : Nat
  /-- 2^−32 ns fraction of the PTP time -/
  ptpFrac : Nat
  /-- nanoseconds towards the next 8 ns tick -/
  ptpPhase : Nat
deriving DecidableEq, Repr

/-- The debug module (Table Harts-12). -/
structure DebugState where
  /-- JTAG instruction register -/
  ir : BitVec 5
  /-- hart that the last command selected -/
  hartsel : Nat
  /-- abstractcs.cmderr -/
  cmderr : Nat
  /-- data 0 and 1 -/
  data : DWord
  /-- program buffer, 8 words -/
  progbuf : List Word
  /-- sbcs.sberror -/
  sberror : Nat
  /-- system bus address -/
  sbaddress : BitVec 40
  /-- system bus data -/
  sbdata : DWord
  /-- harts whose reset has not been acknowledged (ackhavereset) -/
  haveReset : Nat
  /-- harts that have gone through their last resume request, bit h -/
  resumeAck : Nat
  /-- sbcs.sbaccess of the last system bus access -/
  sbaccess : Nat
  /-- sbcs.sbautoincrement -/
  sbauto : Bool
  /-- sbcs.sbreadonaddr -/
  sbReadOnAddr : Bool
  /-- sbcs.sbreadondata -/
  sbReadOnData : Bool
  /-- dmcontrol.dmactive -/
  active : Bool
  /-- dtmcs.dmistat -/
  dmistat : Nat
deriving DecidableEq, Repr

/-- The whole device. -/
structure State where
  /-- registers of the control pages that differ from `resetWord`, keyed by the address of the register -/
  regs : List (Nat × DWord)
  /-- memory as reads see it, byte by byte; an unlisted byte reads 0 (base camp, MRAM, DRAM, mask ROM) -/
  mem : List (Nat × Byte)
  /-- free values taken so far (the model's own field; notes/assumptions/2.md) -/
  fresh : Nat
  /-- answer to the last access (the model's own field) -/
  resp : Resp
  /-- writes held during a soft reset (R59) -/
  held : List HeldWrite
  /-- the device is an SRP-7240-4G (R2) -/
  code4G : Bool
  /-- supply, reset and clock circuits -/
  power : PowerState
  /-- first stage, boot flash, OSPI -/
  boot : BootState
  /-- Reed -/
  reed : ReedState
  /-- the four physical harts -/
  harts : Vector Hart 4
  /-- caches and memory controllers -/
  memory : MemState
  /-- Loom -/
  loom : LoomState
  /-- Cairn -/
  cairn : CairnState
  /-- Shuttle -/
  shuttle : ShuttleState
  /-- timers -/
  timer : TimerState
  /-- Belay and Scree -/
  belay : BelayState
  /-- Tether -/
  tether : TetherState
  /-- OTP, key slots, TRNG and engines -/
  sec : SecurityState
  /-- Heddle -/
  heddle : HeddleState
  /-- Bobbin -/
  bobbin : BobbinState
  /-- USB complex -/
  usb : UsbState
  /-- field I/O -/
  field : FieldState
  /-- debug module -/
  dm : DebugState
  /-- the commands waiting, first in, first out -/
  pending : List Instr
deriving DecidableEq, Repr

/-- The supply circuits after a power-on reset with VIN good and VBAT absent (R76, R77): the first strap sample has been
taken from straps left open (R78). -/
def PowerState.reset : PowerState :=
  { phase := .run, cause := 0, powerOn := true, awaitPorst := false, samples := [1], vinUp := true, vbatUp := false, pfail := false,
    grace := none, closing := none, mramClosed := false, heddleStopped := false, wakes := 0, wakePins := 0,
    rstoutN := false, pwrGood := true, thermHold := false, heldKicks := [], snapWait := 0, fromBivouac := false, measuring := false, rtcFraction := 0 }

/-- Nothing decided by the first stage, an erased boot flash. -/
def BootState.reset : BootState :=
  { phase := .start, resume := false, romHarts := [], service := none, received := 0, flash := [], command := none, sent := [], polling := none, wren := false, xip := [], resetPulses := 0, challengeLive := false }

/-- Reed disabled: every slot clear and nothing measured (R170, R189). -/
def ReedState.reset : ReedState :=
  { acc := 0#64, behind := 0, ahead := 0, slew := 0, slewRate := 0, sinceAccepted := 0, sinceReceived := 0, received := false,
    accepted := false, period := (200000000000, 50000), intervals := [], deviants := 0, holdTicks := 0, zcIn := false, zcLevel := false, zcHold := none,
    ptpReceived := 0, ptpAccepted := 0, slots := [],
    pendingSlots := [], pendingArms := [], comb := 0#64, combPending := false, combDue := [], due := [], reverseBy := 0, triggered := 0 }

/-- A hart in reset that will start at `pc` in M-mode (R130). -/
def Hart.reset (pc : Nat) : Hart :=
  { pc := BitVec.ofNat 64 pc, x := [], f := [], priv := 3, virt := false, csr := [], trig := [], acc := 0#128, lou := [],
    louArmed := true, louNext := 0, govern := [], windows := [], reservation := none, scout := none, wfi := false, debug := false,
    resetHalt := false, running := false, parked := false, fenced := false, itlb := [], dtlb := [], tlb := [], tlbLarge := [], walk := [], prog := none, stepping := false }

/-- Caches empty, no write queued, no error stored. -/
def MemState.reset : MemState :=
  { lines := [], stale := [], poison := [], linePoison := [], flips := [], mram := [], mramAhead := 0, maint := none, l3Scrub := 0, dmcScrub := (0, 0),
    sramScrub := 0, tempRate := 0, coolReadings := 0, refreshBank := (0, 0), refreshes := 0, dmc := [], checkBlocks := [],
    openRows := [] }

/-- No table committed. -/
def LoomTable.empty : LoomTable := { tag := 0, quota := [], res := [], picks := [] }

/-- No transaction outstanding, reset tables (R297). -/
def LoomState.reset : LoomState :=
  { txns := [], sent := [], seen := [], waiting := [], live := LoomTable.empty, shadow := none, queued := [], released := [],
    spec := [], began := 0, guar := [] }

/-- R592: priorities, enables, thresholds, latches, ACTIVE and claimers 0. -/
def CairnState.reset : CairnState := { prio := [], enable := [], threshold := [], gates := [] }

/-- Every channel disabled, every input ball low (R88). -/
def ShuttleState.reset : ShuttleState := { ch := [], balls := 0, conflict := 0, forced := 0, levels := 0 }

/-- Timers stopped. -/
def TimerState.reset : TimerState := { pre := [], force := [], toggle := 0, waiting := 0, expired := 0, phase := 0, mtimeNext := none }

/-- No fault signalled; the start-up self-test is due (R569). -/
def BelayState.reset : BelayState :=
  { cls := [], real := 0, holds := 0, faultLow := true, seq := 0, crc := [], crcFlips := [], resetDue := none, test := some false, selfOk := false, held := [],
    lockstepShots := 0, mismatch := 0, flitShots := [], moveShots := [], dropCount := 0, pickCount := 0 }

/-- The Tether window after a system reset (Table Tether-3). -/
def TetherState.reset : TetherState :=
  { raised := 0, raisedSat := false, lastClass := 0, frames := 0, liveState := 0, liveErr := false, liveResp := 0,
    liveLost := false, liveOps := 0, liveData := 0#32, liveAddr := 0, liveOp := false, queue := [], miso := [] }

/-- A blank OTP, every slot empty, TRNG off (R535, R538, Table Keys-5). -/
def SecurityState.reset : SecurityState :=
  { otp := [], otpTorn := [], slots := [], queue := [], quarters := 0, requests := 0, instantiations := 0, failures := [],
    waiting := [], hash := [], katWaiting := [], pka := none }

/-- Every instance FREE, nothing committed, nothing cached (R442). -/
def HeddleState.reset : HeddleState :=
  { ch := [], cache := [], served := [], cq := [], inst := [], iotlb := [], iotlbWait := none, oldTable := none, walk := [], moved := [] }

/-- No item in Bobbin. -/
def BobbinState.reset : BobbinState := { jobs := [], turn := [] }

/-- Hub unpowered and unconfigured, service port detached; VID and PID as Table USB-11 resets them. -/
def UsbState.reset : UsbState :=
  { pipes := [], due := [], served := [], starts := [], tt := [], lines := [], hubId := 0x7241F55E, hubToggle := false,
    hubHalt := false, eps := [], addr := 0, idle := 0, wakeHeld := false, wakes := 0, test := [], vbus := false }

/-- Nothing received, nothing queued, PTP time 0. -/
def FieldState.reset : FieldState :=
  { eth := [], uart := [], spi := [], i2c := [], adc := [], held := [], ptpHi := 0, ptpFrac := 0, ptpPhase := 0 }

/-- The debug module at rest. -/
def DebugState.reset : DebugState :=
  { ir := 1#5, hartsel := 0, cmderr := 0, data := 0#64, progbuf := List.replicate 8 0#32, sberror := 0, sbaddress := 0#40,
    sbdata := 0#64, haveReset := 15, resumeAck := 0, sbaccess := 2, sbauto := false, sbReadOnAddr := false, sbReadOnData := false,
    active := false, dmistat := 0 }

/-- The machine right after a power-on reset, at the PORST_N release (R22, R76, R77): every register at its reset value,
nothing written in memory, no command waiting. What the manual leaves open here is in notes/assumptions/1.md. -/
def State.reset : State :=
  { regs := [(R.SYSCFG_MODE, 5#64), (R.SYSCFG_RESET_CAUSE, 1#64), (R.SYSCFG_DEBUG_EN, 3#64)], mem := [], fresh := 0, resp := ⟨false, 0#64⟩, held := [], code4G := false,
    power := PowerState.reset, boot := BootState.reset, reed := ReedState.reset,
    harts := Vector.replicate 4 (Hart.reset 0), memory := MemState.reset, loom := LoomState.reset,
    cairn := CairnState.reset, shuttle := ShuttleState.reset, timer := TimerState.reset, belay := BelayState.reset, tether := TetherState.reset,
    sec := SecurityState.reset, heddle := HeddleState.reset, bobbin := BobbinState.reset,
    usb := UsbState.reset, field := FieldState.reset, dm := DebugState.reset,
    pending := [] }

end Sys2Proof.Machine
end

