-- ==== Sys2Proof/Machine/Access.lean ====
section
/-! DEFINITION. Named accessors to the registers of the control pages: stored words, fields, events, counters; and the
free values. Every other file reads and writes registers through these. -/
namespace Sys2Proof.Machine

/-- The stored word of the register at address `a`. -/
def State.raw (s : State) (a : Nat) : DWord := SMap.get resetWord s.regs a

/-- Store `v` as the word of the register at address `a`. -/
def State.setReg (s : State) (a : Nat) (v : DWord) : State := { s with regs := SMap.put resetWord s.regs a v }

/-- The value of a field. -/
def State.fld (s : State) (f : Fld) : Nat := Bits.get (s.raw f.reg) f.lo f.width

/-- Replace a field. -/
def State.setFld (s : State) (f : Fld) (v : Nat) : State := s.setReg f.reg (Bits.put (s.raw f.reg) f.lo f.width v)

/-- A field that is not 0. -/
def State.flag (s : State) (f : Fld) : Bool := s.fld f != 0

/-- Set or clear a one-bit field. -/
def State.setFlag (s : State) (f : Fld) (b : Bool) : State := s.setFld f (b2n b)

/-- Add `n` to a counter field that stops at its largest value. -/
def State.bumpBy (s : State) (f : Fld) (n : Nat) : State := s.setFld f (satAdd (2 ^ f.width - 1) (s.fld f) n)

/-- Add 1 to a counter field that stops at its largest value. -/
def State.bump (s : State) (f : Fld) : State := s.bumpBy f 1

/-- Add 1 to a counter that stops at its largest value and then sets its saturation flag (R58). -/
def State.bumpSat (s : State) (f sat : Fld) : State :=
  let s1 := s.bump f
  if s1.fld f = 2 ^ f.width - 1 then s1.setFld sat 1 else s1

/-- Add 1 to a counter that wraps. -/
def State.inc (s : State) (f : Fld) : State := s.setFld f (s.fld f + 1)

/-- R40: hardware sets event `bit` of the page at `p`. -/
def State.raise (s : State) (p bit : Nat) : State := s.setReg (R.EVT_RAW p) (Bits.put (s.raw (R.EVT_RAW p)) bit 1 1)

/-- R40: EVT_PEND = EVT_RAW AND EVT_EN. -/
def State.evtPend (s : State) (p : Nat) : DWord := s.raw (R.EVT_RAW p) &&& s.raw (R.EVT_EN p)

/-- R50: the block of page `p` runs. -/
def State.running (s : State) (p : Nat) : Bool := s.flag (F.PAGE_STAT_ENABLED p)

/-- R51: a soft reset of page `p` is in progress. -/
def State.resetting (s : State) (p : Nat) : Bool := s.flag (F.PAGE_STAT_RESETTING p)

/-- The next free value, and the state in which it has been taken. -/
def State.takeFree (s : State) : DWord × State := (Config.free s.fresh, { s with fresh := s.fresh + 1 })

/-- `n` free values. -/
def State.takeFrees : Nat → State → List DWord × State
  | 0, s => ([], s)
  | n + 1, s =>
    let (v, s1) := s.takeFree
    let (vs, s2) := State.takeFrees n s1
    (v :: vs, s2)

/-- R31: the device runs in Guarded mode. -/
def State.guarded (s : State) : Bool := s.flag F.SYSCFG_MODE_GUARDED

/-- R162: the Piton page lock of the page an address lies in. -/
def State.pageLocked (s : State) (a : Nat) : Bool :=
  match pageIndex a with
  | none => false
  | some i => (s.raw (R.PITON_PAGE_LOCK (i / 32))).toNat.testBit (i % 32)

/-- R28, Table Substation-4: the first address above visible DRAM. -/
def State.dramTop (s : State) : Nat := if s.code4G then 0x160000000 else 0xF0000000

/-- Apply `f` for each number below `n`, in ascending order. -/
def forEach (n : Nat) (f : Nat → State → State) (s : State) : State := (List.range n).foldl (fun t i => f i t) s

/-- Apply `f` for each member of a list, in order. -/
def forAll {α : Type} (l : List α) (f : α → State → State) (s : State) : State := l.foldl (fun t x => f x t) s

/-- Physical hart `h`. -/
def State.hart (s : State) (h : Nat) : Hart := s.harts.toList.getD h (Hart.reset 0)

/-- Replace physical hart `h`. -/
def State.setHart (s : State) (h : Nat) (v : Hart) : State :=
  if hl : h < 4 then { s with harts := s.harts.set h v hl } else s

/-- Change physical hart `h`. -/
def State.modHart (s : State) (h : Nat) (f : Hart → Hart) : State := s.setHart h (f (s.hart h))

/-- R102: the fabric is clocked: powered, out of reset and not in STOP. -/
def State.fabricRuns (s : State) : Bool := decide (s.power.phase = .run) && decide (s.fld F.PWR_STATE_CUR ≠ 3)

/-- R102, Table Supply-10: block `bit` of CLK_STOP_KEEP_0 is clocked: powered, out of reset, and in STOP only while its bit is set. -/
def State.kept (s : State) (bit : Nat) : Bool :=
  decide (s.power.phase = .run) && (! decide (s.fld F.PWR_STATE_CUR = 3) || (s.fld F.CLK_STOP_KEEP_0_KEEP).testBit bit)

/-- The same for UART `n` and CLK_STOP_KEEP_1. -/
def State.keptUart (s : State) (n : Nat) : Bool :=
  decide (s.power.phase = .run) && (! decide (s.fld F.PWR_STATE_CUR = 3) || (s.fld F.CLK_STOP_KEEP_1_KEEP).testBit n)

/-- The rails and the internal reset generator are on: held in reset or running. -/
def State.railsOn (s : State) : Bool := decide (s.power.phase = .run) || decide (s.power.phase = .reset)

/-- R95: the always-on domain is fed, from VIN above the UVLO falling threshold or from VBAT. -/
def State.aonFed (s : State) : Bool := s.power.vinUp || s.power.vbatUp

/-- R115: the AON clock runs from the RC: selected, or fallen back to on a loss of LSE with AUTO = 1. -/
def State.onRc (s : State) : Bool :=
  decide (s.fld F.CLK_AON_SRC = 1) || (s.flag F.CLK_AON_AUTO && ! s.flag F.CLK_STAT_LSE_OK)

/-- R115: the AON domain is fed and its clock ticks: from the RC, or from an LSE that oscillates. -/
def State.aonTicks (s : State) : Bool := s.aonFed && (s.onRc || s.flag F.CLK_STAT_LSE_OK)

/-- PWR_OUT.BANK_A to BANK_D. -/
def bankFld (bank : Nat) : Fld :=
  if bank = 0 then F.PWR_OUT_BANK_A else if bank = 1 then F.PWR_OUT_BANK_B else if bank = 2 then F.PWR_OUT_BANK_C else F.PWR_OUT_BANK_D

/-- R71, R77: bank `bank` (A to D) is powered and inside one of its windows: else its outputs float and its inputs read 0. -/
def State.bankLive (s : State) (bank : Nat) : Bool := s.railsOn && s.flag (bankFld bank)

/-- Do `f` when `b` holds. -/
def State.when (s : State) (b : Bool) (f : State → State) : State := if b then f s else s

end Sys2Proof.Machine
end

