-- ==== Sys2Proof/Machine/Signals.lean ====
section
/-! DEFINITION. Cairn's view of the device (R348 to R360): which sources exist and of what type, the level at each level
source, PENDING, which source a context is presented, and the raising of an edge. -/
namespace Sys2Proof.Machine

/-- The page whose summary a source is (R40, R348), with the part that a combined source shares. -/
def summaryPage (id : Nat) : Option Nat :=
  if id = 1 then some P.BELAY else if id = 2 then some P.PWR else if id = 6 then some P.CLK
  else if id = 7 then some P.SYSCFG else if id = 8 then some P.BOOT else if id = 9 then some P.PITON
  else if id = 10 then some P.CAIRN_CTL else if id = 11 then some P.WDOG else if id = 16 then some P.SCREE
  else if id = 32 then some P.LOOM_CFG
  else if 33 ≤ id ∧ id ≤ 48 then some (P.LOOM_NI (id - 33))
  else if 49 ≤ id ∧ id ≤ 56 then some (P.LOOM_PROBE (id - 49))
  else if id = 96 then some P.L3 else if id = 100 then some P.DMC else if id = 104 then some P.MRAMC
  else if id = 128 then some P.REED else if id = 223 then some P.SHUTTLE
  else if id = 224 then some P.USBH else if id = 225 then some P.USBHUB else if id = 226 then some P.USBD
  else if id = 240 ∨ id = 241 then some (P.ETH (id - 240)) else if id = 242 then some P.PTPCLK
  else if 272 ≤ id ∧ id ≤ 277 then some (P.UART (id - 272))
  else if id = 296 ∨ id = 297 then some (P.SPI (id - 296)) else if id = 298 ∨ id = 299 then some (P.I2C (id - 298))
  else if id = 312 ∨ id = 313 then some (P.ADC (id - 312)) else if id = 359 then some P.GPIO
  else if id = 360 then some P.TETHER
  else if id = 364 then some P.TRNG else if id = 365 then some P.AES else if id = 366 then some P.HASH
  else if id = 367 then some P.PKA else if id = 368 then some P.KEYS
  else if id = 388 then some P.TIMER else if id = 411 then some P.RTC
  else if id = 412 then some P.HEDDLE else if id = 413 then some P.BOBBIN else if id = 414 then some P.HEDDLE_MGMT
  else if id = 415 then some P.OSPI
  else none

/-- A counter of a Loom page has wrapped and raises its overflow source (R326): OF and IE set. -/
def overflowLevel (s : State) (of ie : Nat → Fld) (ks : List Nat) : Bool :=
  ks.any (fun k => s.flag (of k) && s.flag (ie k))

/-- Level sources beside the page summaries: PFAIL (R98), BELAY_PEND (R571), counter overflow, TETHER_REQ (R528), tamper (R556). -/
def otherLevel (s : State) (id : Nat) : Option Bool :=
  if id = 3 then some s.power.pfail
  else if id = 4 then some (s.raw R.BELAY_PEND != 0#64)
  else if 57 ≤ id ∧ id ≤ 72 then some (overflowLevel s (F.LOOM_NI_CNT_OF (id - 57)) (F.LOOM_NI_CNT_IE (id - 57)) [0, 1, 2, 3, 4, 7])
  else if 73 ≤ id ∧ id ≤ 80 then some (overflowLevel s (F.LOOM_PROBE_CNT_OF (id - 73)) (F.LOOM_PROBE_CNT_IE (id - 73)) [0, 1, 2, 3])
  else if id = 361 then some (decide ((s.raw R.TETHER_REQ &&& s.raw R.TETHER_REQ_EN) ≠ 0#64))
  else if id = 369 then some (s.flag F.KEYS_TAMPER_CFG_IRQ && s.flag F.KEYS_TAMPER_STAT_LATCHED)
  else none

/-- R348: an edge source (combined sources apart). -/
def isEdgeSource (id : Nat) : Bool :=
  decide ((12 ≤ id ∧ id ≤ 15) ∨ id = 129 ∨ (160 ≤ id ∧ id ≤ 222) ∨ id = 227 ∨ (328 ≤ id ∧ id ≤ 358) ∨ id = 362 ∨
    (380 ≤ id ∧ id ≤ 387) ∨ (512 ≤ id ∧ id ≤ 2047))

/-- R348: a combined source. -/
def isCombined (id : Nat) : Bool := decide (id = 223 ∨ id = 359)

/-- R348: a level source (combined sources apart). -/
def isLevelSource (id : Nat) : Bool :=
  ! isCombined id && ((summaryPage id).isSome ||
    decide (id = 3 ∨ id = 4 ∨ (57 ≤ id ∧ id ≤ 80) ∨ id = 361 ∨ id = 369))

/-- R55: every other ID is reserved. -/
def sourceReserved (id : Nat) : Bool := ! (isEdgeSource id || isCombined id || isLevelSource id)

/-- A gateway at rest. -/
def Gateway.idle : Gateway := ⟨false, false, 0⟩

/-- The gateway of a source. -/
def State.gate (s : State) (id : Nat) : Gateway := SMap.get (fun _ => Gateway.idle) s.cairn.gates id

/-- Replace a gateway. -/
def State.setGate (s : State) (id : Nat) (g : Gateway) : State :=
  { s with cairn := { s.cairn with gates := SMap.put (fun _ => Gateway.idle) s.cairn.gates id g } }

/-- R40, R350: the level at a level or combined source, as the registers and the supply circuits of its block give it. -/
def State.levelAt (s : State) (id : Nat) : Bool :=
  match summaryPage id with
  | some p => s.evtPend p != 0#64
  | none => (otherLevel s id).getD false

/-- R349 to R351: PENDING of a source. -/
def State.pendingOf (s : State) (id : Nat) : Bool :=
  let g := s.gate id
  if isEdgeSource id then g.latch
  else if isCombined id then ! g.active && (g.latch || s.levelAt id)
  else if isLevelSource id then ! g.active && s.levelAt id
  else false

/-- Priority of a source (Table Events-2). -/
def State.prioOf (s : State) (id : Nat) : Nat := SMap.get (fun _ => 0) s.cairn.prio id

/-- Enable word `w` of context `c`. -/
def State.enableWord (s : State) (c w : Nat) : Nat := SMap.get (fun _ => 0) s.cairn.enable (64 * c + w)

/-- THRESHOLD of context `c`. -/
def State.thresholdOf (s : State) (c : Nat) : Nat := SMap.get (fun _ => 0) s.cairn.threshold c

/-- R353: a context of a checker hart has no effect in Guarded mode. -/
def State.ctxAbsent (s : State) (c : Nat) : Bool := s.guarded && (c / 9) % 2 == 1

/-- R353, R573: contexts that present nothing: those of checker harts in Guarded mode and of fenced harts. -/
def State.ctxSilent (s : State) (c : Nat) : Bool :=
  s.ctxAbsent c || (match s.harts.toList[c / 9]? with | some h => h.fenced | none => true)

/-- R356: source `id` is presentable to context `c`. -/
def State.presentable (s : State) (c id : Nat) : Bool :=
  s.pendingOf id && ! (s.gate id).active && (s.enableWord c (id / 32)).testBit (id % 32) &&
    decide (s.thresholdOf c < s.prioOf id)

/-- The sources enabled in context `c`, in ascending order. -/
def State.enabledIn (s : State) (c : Nat) : List Nat :=
  (s.cairn.enable.filter (fun e => e.1 / 64 == c)).flatMap
    (fun e => ((List.range 32).filter (fun b => e.2.testBit b)).map (fun b => 32 * (e.1 % 64) + b))

/-- R357: the presentable source of highest priority, the lowest ID among equals; 0 when there is none. -/
def State.bestSource (s : State) (c : Nat) : Nat :=
  if s.ctxSilent c then 0 else
  ((s.enabledIn c).filter (fun id => s.presentable c id)).foldl
    (fun best id => if best = 0 then id else if s.prioOf best < s.prioOf id then id else best) 0

/-- R352: the interrupt line of context `c`. -/
def State.ctxLine (s : State) (c : Nat) : Bool := s.bestSource c != 0

/-- R360: the wake condition of physical hart `h`. -/
def State.wakeCond (s : State) (h : Nat) : Bool := (List.range 9).any (fun k => s.ctxLine (9 * h + k))

/-- Table Supply-6, Table Supply-10: source `id` is raised by a block of the peripheral domain that runs in STOP. The supply
circuits (2, 3), the message sources and the blocks of the fabric belong to no such block (R124). -/
def State.keptSource (s : State) (id : Nat) : Bool :=
  if id = 128 ∨ id = 129 then s.kept 0
  else if 160 ≤ id ∧ id ≤ 223 then s.kept 1
  else if id = 10 then s.kept 2
  else if 380 ≤ id ∧ id ≤ 388 then s.kept 3
  else if 11 ≤ id ∧ id ≤ 15 then s.kept 4
  else if 360 ≤ id ∧ id ≤ 362 then s.kept 5
  else if 328 ≤ id ∧ id ≤ 359 then s.kept 6
  else if id = 312 ∨ id = 313 then s.kept 7
  else if 272 ≤ id ∧ id ≤ 277 then s.keptUart (id - 272)
  else false

/-- R106, R360, Table Supply-6: a Cairn source ends STOP: presentable to a context, raised by a block that runs, and Cairn runs. -/
def State.stopCond (s : State) : Bool :=
  s.kept 2 && (List.range 36).any (fun c =>
    ! s.ctxSilent c && (s.enabledIn c).any (fun id => s.keptSource id && s.presentable c id))

/-- R349, R351: a rising edge at an edge or combined source sets its latch, or is coalesced and counted; a Cairn that is held in
reset, unpowered, or not clocked in STOP samples no edge (notes/assumptions/58.md). -/
def State.edge (s : State) (id : Nat) : State :=
  if ! (isEdgeSource id || isCombined id) || ! s.kept 2 then s
  else if (s.gate id).latch then
    ((s.bumpSat F.CAIRN_COALESCE_COUNT F.CAIRN_COALESCE_SAT).setFld F.CAIRN_COALESCE_LAST_ID id).raise
      P.CAIRN_CTL E.CAIRN_CTL_COALESCE
  else s.setGate id { s.gate id with latch := true }

/-- R371: MTIP of physical hart `h`; a checker hart takes it from its main hart. -/
def State.mtip (s : State) (h : Nat) : Bool :=
  let n := if s.guarded then h / 2 * 2 else h
  decide ((s.raw (R.TIMER_MTIMECMP n)).toNat ≤ (s.raw R.TIMER_MTIME).toNat)

end Sys2Proof.Machine
end

