-- ==== Sys2Proof/Machine/Levels.lean ====
section
/-! DEFINITION. The levels Shuttle routes (R362 to R368, Table Events-4): producers, channel outputs, the forces on the
AOUT and EVOUT balls and the level each ball is given; and which general timers run (R372, R373). -/
namespace Sys2Proof.Machine

/-- A channel at rest. -/
def ShuttleChannel.idle : ShuttleChannel := ⟨false, false, 0, none, 0, 0⟩

/-- Channel `n`. -/
def State.chan (s : State) (n : Nat) : ShuttleChannel := SMap.get (fun _ => ShuttleChannel.idle) s.shuttle.ch n

/-- Replace channel `n`. -/
def State.setChan (s : State) (n : Nat) (c : ShuttleChannel) : State :=
  { s with shuttle := { s.shuttle with ch := SMap.put (fun _ => ShuttleChannel.idle) s.shuttle.ch n c } }

/-- R372: general timer `n` counts. -/
def State.timerRuns (s : State) (n : Nat) : Bool :=
  s.flag (F.TIMER_CTRL_EN n) && s.running P.TIMER && ! s.timer.waiting.testBit n

/-- The value of PERIOD (key 0), DUTY (1) or PRESCALE (2) of timer `n` in force (R375). -/
def State.timerForce (s : State) (n k : Nat) : Nat := SMap.get (fun _ => 0) s.timer.force (4 * n + k)

/-- R373: the output of general timer `n`. -/
def State.timerOut (s : State) (n : Nat) : Bool :=
  if ! s.timerRuns n then false
  else if s.fld (F.TIMER_CTRL_OUT n) = 1 then s.timer.toggle.testBit n
  else if s.fld (F.TIMER_CTRL_OUT n) = 2 then decide (s.fld (F.TIMER_COUNT_COUNT n) < s.timerForce n 1)
  else false

/-- R71: the bank of a ball producer is inside a window; outside it the ball reads 0. GPIO_0–15 lie in bank C (the
OSPI, Ethernet and serial banks hold no producer), every other producer ball in bank D (Table Package-4). -/
def State.ballLive (s : State) (code : Nat) : Bool := s.bankLive (if 64 ≤ code ∧ code ≤ 79 then 2 else 3)

/-- Table Events-4: the level of a producer code, given the channel outputs. A pulse producer has no lasting level. -/
def producerLevel (s : State) (out : Nat → Bool) (code : Nat) : Bool :=
  if code = 1 then true
  else if (2 ≤ code ∧ code ≤ 14) ∨ (64 ≤ code ∧ code ≤ 95) then s.ballLive code && s.shuttle.balls.testBit code
  else if code = 33 then decide (s.fld F.REED_STATE_STATE = 2)
  else if 48 ≤ code ∧ code ≤ 55 then s.timerOut (code - 48)
  else if code = 60 ∨ code = 61 then s.shuttle.levels.testBit code
  else if code = 62 then s.power.pfail
  else if code = 63 then s.flag F.BELAY_STAT_FAULT
  else if 96 ≤ code ∧ code ≤ 103 then (s.fld F.SHUTTLE_SOFT_SOFT).testBit (code - 96)
  else if 128 ≤ code ∧ code ≤ 191 then out (code - 128)
  else false

/-- R362, R364: the producer of channel `n` ANDed with its gate, both after inversion, given the other outputs. -/
def gatedProducer (s : State) (out : Nat → Bool) (n : Nat) : Bool :=
  let p := producerLevel s out (s.fld (F.SHUTTLE_CH_SEL_PROD n)) ^^ s.flag (F.SHUTTLE_CH_SEL_INV_P n)
  let g := ! s.flag (F.SHUTTLE_CH_SEL_GATE_EN n) ||
    (producerLevel s out (s.fld (F.SHUTTLE_CH_SEL_GATE n)) ^^ s.flag (F.SHUTTLE_CH_SEL_INV_G n))
  p && g

/-- R362, R369: channel `n` is enabled and the page runs. -/
def State.chanOn (s : State) (n : Nat) : Bool :=
  s.flag (F.SHUTTLE_CH_SEL_EN n) && s.running P.SHUTTLE && ! s.resetting P.SHUTTLE

/-- R362 to R364: the output of channel `n`. An unclocked channel is combinational and reads only lower-numbered unclocked
channels, so 64 levels suffice. -/
def chanOutFuel : Nat → State → Nat → Bool
  | 0, _, _ => false
  | f + 1, s, n =>
    if ! s.chanOn n then false
    else if s.flag (F.SHUTTLE_CH_SEL_UNCLOCKED n) then gatedProducer s (chanOutFuel f s) n
    else (s.chan n).out

/-- R362: the output of channel `n`. -/
def State.chanOut (s : State) (n : Nat) : Bool := chanOutFuel 64 s n

/-- R368: the force channel `n` puts on balls: mask and level. A held force keeps the mask and level it latched. -/
def State.forceOf (s : State) (n : Nat) : Option (Nat × Bool) :=
  match (s.chan n).held with
  | some h => some h
  | none =>
    let mask := s.fld (F.SHUTTLE_CH_PIN_MASK n)
    let mode := s.fld (F.SHUTTLE_CH_PIN_MODE n)
    if ! s.chanOn n then none
    else if mode = 5 then (if s.chanOut n then some (mask, true) else none)
    else if mode = 6 then (if s.chanOut n then some (mask, false) else none)
    else if mode = 1 ∧ s.flag (F.SHUTTLE_CH_SEL_UNCLOCKED n) then some (mask, s.chanOut n)
    else none

/-- R368: the forces on ball `b`, lowest-numbered channel first. -/
def State.forcesOn (s : State) (b : Nat) : List Bool :=
  (List.range 64).filterMap (fun n =>
    match s.forceOf n with
    | some (m, l) => if m.testBit b then some l else none
    | none => none)

/-- A mask of the balls for which `f` holds. -/
def pinMask (f : Nat → Bool) : Nat := (List.range 16).foldl (fun m b => if f b then m + 2 ^ b else m) 0

/-- R368: balls forced. -/
def State.pinForced (s : State) : Nat := pinMask (fun b => ! (s.forcesOn b).isEmpty)

/-- R368: balls on which forces disagree. -/
def State.pinConflict (s : State) : Nat := pinMask (fun b => (s.forcesOn b).contains true && (s.forcesOn b).contains false)

/-- R367, R368: the level each ball is given: the force of the lowest-numbered channel, else its latch. -/
def State.pinState (s : State) : Nat :=
  pinMask (fun b => match s.forcesOn b with | l :: _ => l | [] => (s.fld F.SHUTTLE_PIN_LATCH_LATCH).testBit b)

end Sys2Proof.Machine
end

