-- ==== Sys2Proof/Machine/Views.lean ====
section
/-! DEFINITION. What a read of a register returns (R19): the stored word, with the fields that mirror other state
computed from it, so that no state is kept twice. -/
namespace Sys2Proof.Machine

/-- R578: SCREE_STAT.PERMITTED. -/
def State.screePermitted (s : State) : Bool :=
  (! (s.fld F.SYSCFG_LIFECYCLE_STATE = 1) || s.flag F.SYSCFG_DEBUG_EN_SCREE) && ! s.flag F.PITON_SCREE_LOCK_LOCK

/-- R578: Scree acts: enabled, armed and permitted. -/
def State.screeActs (s : State) : Bool :=
  s.running P.SCREE && s.flag F.SCREE_CTRL_ARM && s.screePermitted

/-- Table Belay-7: a perturbation is enabled in its register. -/
def State.perturbationOn (s : State) : Bool :=
  (List.range 4).any (fun n => s.flag (F.SCREE_DELAY_EN n)) || (List.range 2).any (fun n => s.flag (F.SCREE_BP_EN n)) ||
    s.flag F.SCREE_TOKEN_EN || s.flag F.SCREE_PICK_EN || s.flag F.SCREE_REFRESH_EN || s.flag F.SCREE_JITTER_EN ||
    decide (s.fld F.SCREE_ENTROPY_MODE = 3)

/-- A perturbation is active (R580). -/
def State.perturbed (s : State) : Bool := s.screeActs && s.perturbationOn

/-- R270, Table Belay-7: the refresh rate in force: 0 ×1, 1 ×2, 2 ×4. -/
def State.dmcRate (s : State) : Nat :=
  if s.screeActs && s.flag F.SCREE_REFRESH_EN && s.flag F.SCREE_REFRESH_RATE then s.fld F.SCREE_REFRESH_RATE else s.memory.tempRate

/-- R271, Table Belay-7: DMC_TEMP.HOT. -/
def State.dmcHot (s : State) : Bool :=
  s.dmcRate != 0 || (s.screeActs && s.flag F.SCREE_REFRESH_EN && s.flag F.SCREE_REFRESH_HOT)

/-- A word from a mask function on 32 bits. -/
def maskWord (f : Nat → Bool) : DWord :=
  BitVec.ofNat 64 ((List.range 32).foldl (fun m b => if f b then m + 2 ^ b else m) 0)

/-- CAIRN_CTL registers that show the gateways and the lines (Table Events-6). -/
def cairnView (s : State) (a : Nat) (w : DWord) : DWord :=
  if a = R.CAIRN_CTX_LINE 0 then maskWord (fun b => s.ctxLine b)
  else if a = R.CAIRN_CTX_LINE 1 then maskWord (fun b => decide (b < 4) && s.ctxLine (32 + b))
  else if a = R.CAIRN_QUERY_STAT then
    let id := s.fld F.CAIRN_QUERY_ID
    BitVec.ofNat 64 (b2n (s.pendingOf id) + 2 * b2n (s.gate id).active
      + 4 * b2n (isLevelSource id || isCombined id)
      + 8 * b2n ((isLevelSource id || isCombined id) && s.levelAt id)
      + 2 ^ 8 * (s.gate id).claimer + 2 ^ 16 * s.prioOf id)
  else if a = R.CAIRN_WAKE then maskWord (fun b => decide (b < 4) && s.wakeCond b)
  else if R.CAIRN_ACTIVE 0 ≤ a ∧ a ≤ R.CAIRN_ACTIVE 63 then
    maskWord (fun b => (s.gate (8 * (a - R.CAIRN_ACTIVE 0) + b)).active)
  else w

/-- SHUTTLE registers that show outputs and balls (Table Events-7). -/
def shuttleView (s : State) (a : Nat) (w : DWord) : DWord :=
  if a = R.SHUTTLE_PIN_SET then s.raw R.SHUTTLE_PIN_LATCH
  else if a = R.SHUTTLE_PIN_STATE then BitVec.ofNat 64 s.pinState
  else if a = R.SHUTTLE_PIN_FORCED then BitVec.ofNat 64 (s.pinForced + 2 ^ 16 * s.pinConflict)
  else if a = R.SHUTTLE_OUT 0 then maskWord s.chanOut
  else if a = R.SHUTTLE_OUT 1 then maskWord (fun b => s.chanOut (32 + b))
  else if a = R.SHUTTLE_HELD 0 then maskWord (fun b => (s.chan b).held.isSome)
  else if a = R.SHUTTLE_HELD 1 then maskWord (fun b => (s.chan (32 + b)).held.isSome)
  else w

/-- TIMER registers that show MTIP and the running timers (Table Events-8). -/
def timerView (s : State) (a : Nat) (w : DWord) : DWord :=
  if a = R.TIMER_MTIP then maskWord (fun b => decide (b < 4) && s.mtip b)
  else if a = R.TIMER_RUNNING then maskWord (fun b => decide (b < 8) && s.timerRuns b)
  else if a = R.TIMER_OUT then maskWord (fun b => decide (b < 8) && s.timerOut b)
  else w

/-- The GPIO input registers (R512): the levels of the balls. -/
def gpioView (s : State) (a : Nat) (w : DWord) : DWord :=
  if a = R.GPIO_SET then s.raw R.GPIO_OUT
  else if a = R.GPIO_IN then maskWord (fun b => s.ballLive (64 + b) && s.shuttle.balls.testBit (64 + b))
  else if a = R.GPIO_IN_EXT then maskWord (fun b => decide (b < 13) && s.ballLive (b + 2) && s.shuttle.balls.testBit (b + 2))
  else w

/-- R392, R399, R444: HEAD as it reads and as it is written back: the oldest item whose record has not been issued, or past every
item that has ended (notes/assumptions/18.md). -/
def HeddleChannel.headOut (k : HeddleChannel) : Nat :=
  match k.waiting with
  | r :: _ => r.hi % 65536
  | [] => k.head

/-- HEDDLE_PEEK_STAT and HEDDLE_MGMT pools: live indices of the channel named, and what no instance holds. -/
def heddleView (s : State) (a : Nat) (w : DWord) : DWord :=
  let sum (f : HeddleInstance → Nat) : Nat := s.heddle.inst.foldl (fun n e => n + f e.2) 0
  if a = R.HEDDLE_PEEK_STAT then
    let c := s.fld F.HEDDLE_PEEK_CH
    match AMap.get? s.heddle.ch c with
    | none => 0#64
    | some k => BitVec.ofNat 64 (k.headOut % 65536 + 2 ^ 16 * (k.tail % 65536) + 2 ^ 32 * k.state
        + 2 ^ 35 * b2n (s.heddle.cache.contains c) + 2 ^ 40 * (min k.out 127)
        + 2 ^ 48 * (k.items.filter (fun i => ! i.running)).length)
  else if a = R.HEDDLE_MGMT_POOL then
    BitVec.ofNat 64 (4096 - sum (fun i => i.chCount) + 2 ^ 16 * (1024 - sum (fun i => i.cqCount)))
  else if a = R.HEDDLE_MGMT_POOL_2 then
    BitVec.ofNat 64 (64 - sum (fun i => i.tokens)
      + 2 ^ 16 * clearBits 65535 (s.heddle.inst.foldl (fun m e => m ||| e.2.msgGroups) 0))
  else w

/-- R576: watchdog `n` is absent: a checker hart's in Guarded mode. -/
def State.wdogAbsent (s : State) (n : Nat) : Bool := s.guarded && n % 2 == 1

/-- R576: watchdog `n` counts: enabled, present, and not paused. -/
def State.wdogCounts (s : State) (n : Nat) : Bool :=
  s.flag (F.WDOG_CTRL_EN n) && ! s.wdogAbsent n && s.running P.WDOG && ! (s.hart n).debug && ! (s.hart n).fenced && s.kept 4

/-- Fields of the remaining pages that mirror other state. -/
def otherView (s : State) (a : Nat) (w : DWord) : DWord :=
  if a = R.SYSCFG_CHIP_ID then Bits.put w 8 8 (b2n s.code4G)
  else if a = R.DMC_CAP then BitVec.ofNat 64 (if s.code4G then 3584 + 2 ^ 16 * 4096 else 1792 + 2 ^ 16 * 2048)
  else if a = R.DMC_TEMP then Bits.put (Bits.put w 16 2 s.dmcRate) 24 1 (b2n s.dmcHot)
  else if a = R.DMC_REFRESH then Bits.put w 0 16 ([488, 244, 122].getD s.dmcRate 488)
  else if a = R.MRAMC_QUEUE then Bits.put (Bits.put w 0 10 s.memory.mram.length) 16 1 (b2n s.power.mramClosed)
  else if a = R.WDOG_INFO then (if s.guarded then 5#64 else 15#64)
  else if pageBase a = P.WDOG ∧ 0x80 ≤ a - P.WDOG ∧ s.guarded ∧ (a - P.WDOG - 0x80) / 32 % 2 = 1 then 0#64
  else if pageBase a = P.WDOG ∧ 0x80 ≤ a - P.WDOG ∧ (a - P.WDOG) % 32 = 0x14 then Bits.put w 0 1 (b2n (s.wdogCounts ((a - P.WDOG - 0x80) / 32)))
  else if a = R.KEYS_SLOT_STAT then
    let slot := s.fld F.KEYS_SLOT_CMD_SLOT
    BitVec.ofNat 64 (((List.range 16).foldl (fun m n => if (AMap.get? s.sec.slots n).isSome then m + 2 ^ n else m) 0)
      + 2 ^ 20 * (match AMap.get? s.sec.slots slot with | some k => k.usage.toNat | none => 0))
  else if a = R.TRNG_STAT then Bits.put w 8 7 s.sec.queue.length
  else if (a = R.I2C_STAT 0 ∨ a = R.I2C_STAT 1) ∧ ! s.bankLive 0 then Bits.put w 4 2 0
  else if a = R.TETHER_ATTN_SET then s.raw R.TETHER_ATTN
  else if a = R.SCREE_STAT then
    BitVec.ofNat 64 (b2n s.perturbed + 2 * b2n s.screePermitted + 4 * b2n (s.flag F.PITON_SCREE_LOCK_LOCK))
  else if a = R.PITON_STAT then
    Bits.put w 0 7 ((List.range 70).foldl (fun k p => k + b2n ((s.raw (R.PITON_PAGE_LOCK (p / 32))).toNat.testBit (p % 32))) 0)
  else w

/-- R19, R40, R41, R52: what the register at `a` reads, before a read clears anything. -/
def State.readReg (s : State) (a : Nat) : DWord :=
  let p := pageBase a
  let o := a - p
  let w := s.raw a
  if o = 0x08 then Bits.put w 2 1 (b2n (s.pageLocked a))
  else if o = 0x0C then Bits.put w 1 1 (b2n (s.pageLocked a))
  else if o = 0x18 then s.evtPend p
  else if o = 0x1C then s.raw (R.EVT_RAW p)
  else if p = P.CAIRN_CTL then cairnView s a w
  else if p = P.SHUTTLE then shuttleView s a w
  else if p = P.TIMER then timerView s a w
  else if p = P.GPIO then gpioView s a w
  else if p = P.HEDDLE ∨ p = P.HEDDLE_MGMT then heddleView s a w
  else otherView s a w

end Sys2Proof.Machine
end

