-- ==== Sys2Proof/Machine/Selvedge.lean ====
section
/-! DEFINITION. The selvedge rule (R19, R42 to R47): what each field of a written register stores, which fields clamp, and
how clamp events are logged and counted. -/
namespace Sys2Proof.Machine

/-- Base camp, as a physical range (Table Substation-3). -/
def inBaseCamp (a : Nat) : Bool := decide (0x01000000 ≤ a ∧ a < 0x01100000)

/-- MRAM, as a physical range. -/
def inMram (a : Nat) : Bool := decide (0x08000000 ≤ a ∧ a < 0x08800000)

/-- Visible DRAM of the ordering code fitted (R28). -/
def State.inDram (s : State) (a : Nat) : Bool := decide (0x80000000 ≤ a ∧ a < s.dramTop)

/-- `n` bytes from `a` lie wholly in base camp, MRAM or visible DRAM. -/
def State.inMain (s : State) (a n : Nat) : Bool :=
  (inBaseCamp a && inBaseCamp (a + n - 1)) || (inMram a && inMram (a + n - 1)) || (s.inDram a && s.inDram (a + n - 1))

/-- What a legal check answers: the value to store, or none to keep the old one; and whether the field clamps. -/
structure Legalized where
  /-- value to store -/
  val : Option Nat
  /-- the field counts a clamp event -/
  clamp : Bool
deriving DecidableEq, Repr

/-- A value inside Legal. -/
def Legalized.ok (v : Nat) : Legalized := ⟨some v, false⟩
/-- A numeric value outside Legal, replaced by the nearest. -/
def Legalized.to (v : Nat) : Legalized := ⟨some v, true⟩
/-- An illegal code: the previous value is kept. -/
def Legalized.keep : Legalized := ⟨none, true⟩

/-- R42: the nearest of a numeric range. -/
def clampRange (lo hi v : Nat) : Legalized :=
  if v < lo then .to lo else if hi < v then .to hi else .ok v

/-- R43: the nearest member of a set in ascending order; a tie goes to the lower member. -/
def clampSet (set : List Nat) (v : Nat) : Legalized :=
  if set.contains v then .ok v else
  match set with
  | [] => .keep
  | x :: xs => .to (xs.foldl (fun b c => if (c - v) + (v - c) < (b - v) + (v - b) then c else b) x)

/-- A listed code, or none. -/
def listed (ok : Bool) (v : Nat) : Legalized := if ok then .ok v else .keep

/-- R388, R436: the address of a table: while it is held the previous value stays, and writing that value is no clamp. -/
def tableBase (held ok : Bool) (old v : Nat) : Legalized := if held then (if v = old then .ok v else .keep) else listed ok v

/-- Table Reed-3: the largest TARGET an action accepts. -/
def slotTargetMax (action : Nat) : Nat := [0, 15, 7, 7, 7, 2, 4095].getD action 0

/-- Table Events-4: a producer code that is not reserved. -/
def producerListed (c : Nat) : Bool :=
  decide (c ≤ 14 ∨ (16 ≤ c ∧ c ≤ 33) ∨ (40 ≤ c ∧ c ≤ 103) ∨ (128 ≤ c ∧ c ≤ 191))

/-- Table Belay-3: reaction codes source `src` accepts: 0 SIGNAL, 1 FENCE, 2 RESET (R570). -/
def reactCodes (src : Nat) : List Nat :=
  if src = 1 ∨ src = 2 then [1, 2]
  else if src = 14 ∨ src = 19 ∨ src = 21 then [2]
  else if src = 17 ∨ (22 ≤ src ∧ src ≤ 25) then [0]
  else [0, 2]

/-- R581: the largest UNIT of an array: a physical hart for the L1s and L2, a router for flits, else 0. -/
def eccUnitMax (array : Nat) : Nat := if array ≤ 2 then 3 else if array = 10 then 11 else 0

/-- R581: the highest bit of an array's codeword: parity word of L1I, SEC-DED codewords of 72 bits, the 512 bits of a move. -/
def eccBitMax (array : Nat) : Nat := if array = 0 then 32 else if array = 11 then 511 else 71

/-- R436, R459: an instance other than instance 0 is not FREE in HEDDLE_MGMT_STATE, or instance 0 is not. -/
def State.anyInstance (s : State) : Bool := (List.range 4).any (fun n => s.fld (F.HEDDLE_MGMT_STATE_STATE n) != 0)

/-- Legal sets that depend on the register's index, on the rest of the write `w` or on other state. -/
def dynLegal (s : State) (k : DynLegal) (a : Nat) (f : FSpec) (v : Nat) (w : DWord) : Legalized :=
  match k with
  | .resumeAddr => listed (s.inMain (v * 256) 1) v
  | .hartRelease => listed (decide (v = 0) || s.inMain (v * 256) 1 || decide (0x20000000 ≤ v * 256 ∧ v * 256 < 0x30000000)) v
  | .slotTarget =>
    let act := if Bits.get w 0 4 ≤ 6 then Bits.get w 0 4 else Bits.get (s.raw a) 0 4
    clampRange 0 (slotTargetMax act) v
  | .imageBase => listed (s.inMain (v * 64) 3584) v
  | .statRole =>
    let n := (a - R.LOOM_NI_STAT_CFG 0) / 0x1000
    listed (if v = 0 then niInitiator n else niTarget n) v
  | .producer => listed (producerListed v) v
  | .pinMode =>
    let n := (a - R.SHUTTLE_CH_PIN 0) / 16
    listed (decide (v ≤ 6) && ! (decide (2 ≤ v ∧ v ≤ 4) && s.flag (F.SHUTTLE_CH_SEL_UNCLOCKED n))) v
  | .chtBase => tableBase (s.flag (F.PAGE_CTRL_ENABLE P.HEDDLE)) (s.inMain (v * 4096) 0x40000) (Bits.get (s.raw a) 12 28) v
  | .cqtBase => tableBase (s.flag (F.PAGE_CTRL_ENABLE P.HEDDLE)) (s.inMain (v * 4096) 0x4000) (Bits.get (s.raw a) 12 28) v
  | .instBase => if s.anyInstance then .keep else listed (s.inMain (v * 4096) 0x800) v
  | .ethSpeed =>
    let m := (a - R.ETH_CFG 0) / 0x1000
    let busy := s.heddle.ch.any (fun e => decide ((e.2.e.kind = 2 ∨ e.2.e.kind = 3) ∧ (e.2.e.port = 0x28 + 2 * m ∨ e.2.e.port = 0x29 + 2 * m)
      ∧ e.2.state ≠ 1))
    listed (decide (v ≤ 2) && (! busy || decide (v = Bits.get (s.raw a) 1 2))) v
  | .padFunc =>
    let p := (a - R.GPIO_PAD 0) / 4
    if v = 0 ∨ (32 ≤ p ∧ p ≤ 47) then .ok v else .to 0
  | .react =>
    let src := 16 * ((a - R.BELAY_REACT 0) / 4) + f.lo / 2
    listed ((reactCodes src).contains v) v
  | .wdogWindow => clampRange 0 (Bits.get (s.raw (a - 4)) 0 16 - 1) v
  | .eccUnit =>
    let arr := if Bits.get w 0 4 < 12 then Bits.get w 0 4 else s.fld F.SCREE_ECC_TARGET_ARRAY
    clampRange 0 (eccUnitMax arr) v
  | .eccBit => clampRange 0 (eccBitMax (s.fld F.SCREE_ECC_TARGET_ARRAY)) v
  | .pkaMem => listed (s.flag F.PKA_CMD_DONE) v
  | .releaseId => listed (decide (1 ≤ v ∧ v ≤ 2047)) v

/-- R42, R43: the legal check of one field. -/
def legalize (s : State) (a : Nat) (f : FSpec) (v : Nat) (w : DWord) : Legalized :=
  match f.legal with
  | .any => .ok v
  | .clamp lo hi => clampRange lo hi v
  | .sclamp lo hi =>
    let n := f.hi - f.lo + 1
    if sext n v < lo then .to (unsext n lo) else if hi < sext n v then .to (unsext n hi) else .ok v
  | .clampStep lo hi step => clampSet ((List.range ((hi - lo) / step + 1)).map (fun i => lo + step * i)) v
  | .clampPow2 lo hi => clampSet (((List.range 33).map (fun i => 2 ^ i)).filter (fun x => decide (lo ≤ x ∧ x ≤ hi))) v
  | .codes cs => listed (cs.contains v) v
  | .dyn k => dynLegal s k a f v w

/-- R19, R52, R578 and the chapters: a writable field that now behaves as RO. -/
def State.fieldFrozen (s : State) (p : PageSpec) (a : Nat) (f : FSpec) : Bool :=
  (decide (f.acc = .rwl) && s.pageLocked a) ||
  (decide (p.base = P.SCREE ∧ 0x40 ≤ a - P.SCREE) && ! s.screePermitted) ||
  (decide (p.base = P.SYSCFG) && s.guarded && decide (a = R.SYSCFG_HART_RELEASE 1 ∨ a = R.SYSCFG_HART_RELEASE 3)) ||
  (decide (p.base = P.WDOG ∧ 0x80 ≤ a - P.WDOG) && s.guarded && decide ((a - P.WDOG - 0x80) / 32 % 2 = 1)) ||
  (decide (a = R.PAGE_CTRL (pageBase a) ∧ f.lo = 1) && s.pageLocked a)

/-- The outcome of a full write of one register. -/
structure Written where
  /-- word stored -/
  word : DWord
  /-- values that WO fields act on, in their places -/
  act : DWord
  /-- lowest bit of each field that clamps -/
  clamps : List Nat
deriving DecidableEq, Repr

/-- Table Pages-2: one field of a write of `w` to the register at `a`. `read` is what the register reads. -/
def writeField (s : State) (p : PageSpec) (a : Nat) (read w : DWord) (o : Written) (f : FSpec) : Written :=
  let n := f.hi - f.lo + 1
  let v := Bits.get w f.lo n
  let old := Bits.get o.word f.lo n
  let ro : Written := if v = Bits.get read f.lo n then o else { o with clamps := o.clamps ++ [f.lo] }
  if s.fieldFrozen p a f then ro else
  match f.acc with
  | .ro | .rc => ro
  | .w1c => { o with word := Bits.put o.word f.lo n (clearBits old v) }
  | .w1s => { o with word := Bits.put o.word f.lo n (old ||| v) }
  | .rw | .rwl =>
    let l := legalize s a f v w
    { o with word := Bits.put o.word f.lo n (l.val.getD old), clamps := if l.clamp then o.clamps ++ [f.lo] else o.clamps }
  | .wo =>
    let l := legalize s a f v w
    { o with act := Bits.put o.act f.lo n (l.val.getD 0), clamps := if l.clamp then o.clamps ++ [f.lo] else o.clamps }

/-- R47: a bit that no field of the list holds. -/
def bitUnlisted (fs : List FSpec) (b : Nat) : Bool := fs.all (fun f => decide (b < f.lo ∨ f.hi < b))

/-- R47: the lowest bits of the maximal runs of unlisted bits in which `w` has a 1. -/
def reservedRuns (fs : List FSpec) (width : Nat) (w : DWord) : List Nat :=
  ((List.range width).foldl (fun (st : List Nat × Option (Nat × Bool)) b =>
    if bitUnlisted fs b then
      match st.2 with
      | none => (st.1, some (b, w.toNat.testBit b))
      | some (lo, hit) => (st.1, some (lo, hit || w.toNat.testBit b))
    else
      match st.2 with
      | some (lo, true) => (st.1 ++ [lo], none)
      | _ => (st.1, none)) ([], none)) |> fun st =>
    match st.2 with
    | some (lo, true) => st.1 ++ [lo]
    | _ => st.1

/-- R42: a full write of `w` to the register `r` at `a`, field by field. -/
def writeWord (s : State) (p : PageSpec) (r : RSpec) (a : Nat) (w : DWord) : Written :=
  let o := r.fields.foldl (writeField s p a (s.readReg a) w) ⟨s.raw a, 0#64, []⟩
  { o with clamps := o.clamps ++ reservedRuns r.fields (if r.wide then 64 else 32) w }

/-- R44, R58: `n` clamp events of the page at `p` for a write by NI `ni` at page offset `off`. -/
def State.clampEvents (s : State) (p ni off reason wrote kept n : Nat) : State :=
  if n = 0 then s else
  let s1 := s.raise p 31
  let s2 :=
    if s1.flag (F.CLAMP_ADDR_VALID p) then s1 else
    ((s1.setReg (R.CLAMP_ADDR p) (BitVec.ofNat 64 (off % 4096 + ni % 16 * 2 ^ 16 + reason % 128 * 2 ^ 24 + 2 ^ 31))).setReg
      (R.CLAMP_WROTE p) (BitVec.ofNat 64 (wrote % 2 ^ 32))).setReg (R.CLAMP_KEPT p) (BitVec.ofNat 64 (kept % 2 ^ 32))
  let s3 := s2.setFld (F.CLAMP_COUNT_COUNT p) (satAdd 65535 (s2.fld (F.CLAMP_COUNT_COUNT p)) n)
  if s3.fld (F.CLAMP_COUNT_COUNT p) = 65535 then s3.setFld (F.CLAMP_COUNT_SAT p) 1 else s3

/-- R46: a multi-field check refuses a write to the register at `a`. -/
def State.refuse (s : State) (ni a reason : Nat) (v : DWord) (detail : Nat) : State :=
  s.clampEvents (pageBase a) ni (a - pageBase a) reason v.toNat detail 1

/-- R44: log the clamps of a write of `v` to the register at `a`; for a 64-bit register the half that holds the lowest
clamped field. CLAMP_KEPT is what the register reads once the event and its log entry are there. -/
def State.logWrite (s : State) (ni a : Nat) (v : DWord) (clamps : List Nat) : State :=
  match clamps with
  | [] => s
  | c :: cs =>
    let lo := cs.foldl min c
    let sh := if lo < 32 then 0 else 32
    let log (kept : Nat) : State := s.clampEvents (pageBase a) ni (a - pageBase a + sh / 8) 0 (v.toNat >>> sh) kept clamps.length
    log (((log 0).readReg a).toNat >>> sh)

/-- R42: a full write of `v` to the register that starts at `a`, with no action of its own: the state after the store and
the log, and the values WO fields act on. An offset that no register occupies is one reserved field (R47). -/
def State.storeReg (s : State) (ni a : Nat) (v : DWord) : State × DWord :=
  match regAt a with
  | none => (if v.toNat % 2 ^ 32 = 0 then s else s.clampEvents (pageBase a) ni (a - pageBase a) 0 v.toNat 0 1, 0#64)
  | some (p, _, r, _) =>
    let o := writeWord s p r a v
    ((s.setReg a o.word).logWrite ni a v o.clamps, o.act)

end Sys2Proof.Machine
end

