-- ==== Sys2Proof/Machine/FlashBus.lean ====
section
/-! DEFINITION. What the OSPI controller sends to the flash (R147, R148, R151), and when its execute-in-place window answers (R29, R148,
R150). -/
namespace Sys2Proof.Machine

/-- R27: the address lies in the execute-in-place window. -/
def inXip (a : Nat) : Bool := decide (0x20000000 ≤ a ∧ a < 0x30000000)

/-- R150: a command or a program item has the flash. -/
def State.flashBusy (s : State) : Bool := s.boot.command.isSome || s.boot.polling.isSome

/-- R150: a load of the XIP window waits for the flash. -/
def State.xipHeld (s : State) : State := s.setFld F.OSPI_STAT_XIP_WAIT 1

/-- R29, R148: the XIP window answers a load of `n` bytes. -/
def State.xipReadable (s : State) (a n : Nat) : Bool :=
  s.running P.OSPI && s.flag F.OSPI_XIP_EN && decide (a - 0x20000000 + n ≤ 2 ^ s.fld F.OSPI_SIZE_LOG2) && decide (a + n ≤ 0x30000000)

/-- R147, R148: the flash address of a byte of the XIP window: 3 address bytes reach 16 MiB, 4 with OSPI_XIP.ADDR4 = 1 all of the window. -/
def State.xipOffset (s : State) (a : Nat) : Nat := if s.flag F.OSPI_XIP_ADDR4 then a % 2 ^ 28 else a % 2 ^ 24

/-- R147: how a transfer that starts now is driven. -/
def State.ospiBus (s : State) : OspiBus :=
  { proto := s.fld F.OSPI_CFG_PROTO, cmd16 := s.flag F.OSPI_CFG_CMD16, dqs := s.flag F.OSPI_CFG_DQS_EN, sample := s.fld F.OSPI_CFG_SAMPLE,
    div := s.fld F.OSPI_CFG_DIV }

/-- R147: the opcode byte, followed by its inverse with CMD16 = 1. -/
def OspiBus.opcode (b : OspiBus) (op : Nat) : List Byte :=
  let o := BitVec.ofNat 8 op
  if b.cmd16 then [o, ~~~ o] else [o]

/-- R147: an address in 3 or 4 bytes, most significant first. -/
def addressBytes (four : Bool) (a : Nat) : List Byte := (leBytes (if four then 4 else 3) a).reverse

/-- The flash passes to a new command, item or load. -/
def State.ospiTake (s : State) : State := { s with boot := { s.boot with sent := [] } }

/-- The controller has sent one transfer. -/
def State.ospiSend (s : State) (x : OspiTransfer) : State := { s with boot := { s.boot with sent := s.boot.sent ++ [x] } }

/-- A transfer of an opcode alone. -/
def OspiBus.bare (b : OspiBus) (op : Nat) : OspiTransfer := { bus := b, opcode := b.opcode op, addr := [], dummy := 0, out := [], reads := 0 }

/-- R148, R151: the read command of OSPI_XIP at flash address `a`, `n` bytes. -/
def State.readTransfer (s : State) (a n : Nat) : OspiTransfer :=
  let b := s.ospiBus
  { bus := b, opcode := b.opcode (s.fld F.OSPI_XIP_READ_OP), addr := addressBytes (s.flag F.OSPI_XIP_ADDR4) a,
    dummy := s.fld F.OSPI_XIP_DUMMY, out := [], reads := n }

/-- R148: a line of the window is read from the flash. -/
def State.xipFetch (s : State) (l : Nat) : State := s.ospiTake.ospiSend (s.readTransfer (s.xipOffset l) 64)

end Sys2Proof.Machine
end

