-- ==== Sys2Proof/Machine/MemOps.lean ====
section
/-! DEFINITION. Bytes of memory (R13, R27, R253 to R288): reading and writing the coherent view, poison marks, and the
MRAM queue, whose entries keep the word before and after until the write completes in the array. -/
namespace Sys2Proof.Machine

/-- What a byte of memory that nothing has written reads as. -/
def memDefault (_ : Nat) : Byte := 0#8

/-- The canonical form of memory: addresses strictly rising, no entry equal to what an unlisted byte reads as. -/
abbrev Memory.wf (m : List Host.Cell) : Bool := SMap.wf memDefault m

/-- The byte at `a` as every coherent reader sees it. -/
def State.byteAt (s : State) (a : Nat) : Byte := SMap.get memDefault s.mem a

/-- `n` bytes from `a`. -/
def State.bytesAt (s : State) (a n : Nat) : List Byte := (List.range n).map (fun i => s.byteAt (a + i))

/-- The little-endian number in `n` bytes from `a` (R13). -/
def State.numAt (s : State) (a n : Nat) : Nat := leNat (s.bytesAt a n)

/-- The entries for bytes at `a` and on: those that differ from what an unlisted byte reads as. -/
def byteEntries : Nat → List Byte → List (Nat × Byte)
  | _, [] => []
  | a, b :: bs => if b = memDefault a then byteEntries (a + 1) bs else (a, b) :: byteEntries (a + 1) bs

/-- Put bytes into the coherent view from `a`. -/
def putBytes (m : List (Nat × Byte)) (a : Nat) (bs : List Byte) : List (Nat × Byte) :=
  m.filter (fun e => decide (e.1 < a)) ++ (byteEntries a bs ++ m.filter (fun e => decide (a + bs.length ≤ e.1)))

/-- Memory with bytes written from `a` and nothing else changed. -/
def State.putMem (s : State) (a : Nat) (bs : List Byte) : State := { s with mem := putBytes s.mem a bs }

/-- The words of 8 bytes that a range touches. -/
def wordsOf (a n : Nat) : List Nat := if n = 0 then [] else (List.range ((a + n - 1) / 8 - a / 8 + 1)).map (fun i => (a / 8 + i) * 8)

/-- The line an address lies in. -/
def lineOf (a : Nat) : Nat := a / 64 * 64

/-- A copy of the line exists in some cache. -/
def State.lineHeld (s : State) (l : Nat) : Bool := s.memory.lines.any (fun x => x.line == l)

/-- The mask ROM (Table Substation-3). -/
def inRom (a : Nat) : Bool := decide (a < 0x20000)

/-! ### Stored codewords with wrong bits -/

/-- A bit changed twice is right again. -/
def toggleBit (bs : List Nat) (b : Nat) : List Nat := if bs.contains b then bs.erase b else bs ++ [b]

/-- The bits a flip names. -/
def EccFlip.bits (f : EccFlip) : List Nat := match f.bitB with | some b => [f.bitA, b] | none => [f.bitA]

/-- A flip of a codeword. -/
def EccFlip.isAt (f : EccFlip) (array unit w : Nat) : Bool := decide (f.array = array ∧ f.unit = unit ∧ f.addr = w)

/-- Flips stored in a codeword. -/
def State.flipsAt (s : State) (array unit w : Nat) : List EccFlip := s.memory.flips.filter (fun f => f.isAt array unit w)

/-- The wrong bits of a codeword: those flipped in storage and those of an upset. -/
def State.wrongBits (s : State) (array unit w : Nat) (up : List Nat) : List Nat :=
  (((s.flipsAt array unit w).flatMap EccFlip.bits) ++ up).foldl toggleBit []

/-- Replace the flips stored. -/
def State.setFlips (s : State) (l : List EccFlip) : State := { s with memory := { s.memory with flips := l } }

/-- The codeword is rewritten: its flips are gone. -/
def State.dropFlips (s : State) (array unit w : Nat) : State := s.setFlips (s.memory.flips.filter (fun f => ! f.isAt array unit w))

/-- A flip of a DRAM, MRAM or base-camp word among `ws`. -/
def EccFlip.inWords (f : EccFlip) (ws : List Nat) : Bool := decide (7 ≤ f.array ∧ f.array ≤ 9) && ws.contains f.addr

/-! ### Poison marks -/

/-- R256: a 64-bit word carries the mark in its memory. -/
def State.marked (s : State) (a : Nat) : Bool := s.memory.poison.contains (a / 8 * 8)

/-- R256: no mark can be written to the mask ROM: a word of it is uncorrectable while two of its bits are wrong. -/
def State.romBad (s : State) (a : Nat) : Bool := inRom a && decide (2 ≤ (s.wrongBits 9 0 (a / 8 * 8) []).length)

/-- R256: what a fill of a line takes as marked: words marked in their memory, or uncorrectable in the mask ROM. -/
def State.badBelow (s : State) (a : Nat) : Bool := s.marked a || s.romBad a

/-- R256: a 64-bit word reads as poisoned: as the caches hold its line, or, where none does, as its memory does. -/
def State.poisoned (s : State) (a : Nat) : Bool :=
  if s.lineHeld (lineOf a) then s.memory.linePoison.contains (a / 8 * 8) else s.badBelow a

/-- R256: a range holds a poisoned word. -/
def State.anyPoison (s : State) (a n : Nat) : Bool := (wordsOf a n).any s.poisoned

/-- R256, R283: what a write of `n` bytes from `a` clears: the marks of every line it covers whole in DRAM, of every word
it covers whole elsewhere. -/
def State.clearsPoison (s : State) (a n w : Nat) : Bool :=
  if s.inDram w then decide (a ≤ w / 64 * 64 ∧ w / 64 * 64 + 64 ≤ a + n) else decide (a ≤ w ∧ w + 8 ≤ a + n)

/-- Mark words in their memory (R256): in DRAM every word of the line. -/
def State.mark (s : State) (a : Nat) : State :=
  let ws := if s.inDram a then wordsOf (lineOf a) 64 else [a / 8 * 8]
  { s with memory := { s.memory with poison := s.memory.poison.filter (fun w => ! ws.contains w) ++ ws } }

/-- Every word of a line is marked in its memory: a poisoned line written there (R256). -/
def State.markLine (s : State) (l : Nat) : State := forAll (wordsOf l 64) (fun w t => t.mark w) s

/-- The marks that a held line carries are `ws`. -/
def State.setHeldMarks (s : State) (l : Nat) (ws : List Nat) : State :=
  { s with memory := { s.memory with linePoison := s.memory.linePoison.filter (fun w => lineOf w != l) ++ ws } }

/-- A held line becomes poisoned. -/
def State.markHeld (s : State) (l : Nat) : State := s.setHeldMarks l (wordsOf l 64)

/-- R108: an MRAM write into the snapshot range clears PWR_SNAP_CTRL.COMPLETE. -/
def State.touchSnapshot (s : State) (a n : Nat) : State :=
  let lo := 0x08000000 + s.fld F.PWR_SNAP_BASE_BASE * 4096
  let hi := lo + s.fld F.PWR_SNAP_CTRL_PAGES * 4096
  if a < hi ∧ lo < a + n then s.setFld F.PWR_SNAP_CTRL_COMPLETE 0 else s

/-- R275, Table Memory-6: the bank of an MRAM word, address bit [3]. -/
def mramBank (w : Nat) : Nat := w / 8 % 2

/-- Of the oldest `n` queued writes one less is left once the write at queue position `i` has completed. -/
def oneLess (n i : Nat) : Nat := if i < n then n - 1 else n

/-- R275, R99, R108: the oldest write queued for a bank completes; a snapshot commit and a PFAIL drain wait for one write less when
it was among those they wait for. While a PFAIL drain lasts, no newer write completes. -/
def State.mramComplete (s : State) (bank : Nat) : State :=
  match s.memory.mram.findIdx? (fun x => mramBank x.addr == bank) with
  | none => s
  | some i =>
    if s.memory.mramAhead ≠ 0 ∧ s.memory.mramAhead ≤ i then s else
    { s with memory := { s.memory with mram := s.memory.mram.eraseIdx i, mramAhead := oneLess s.memory.mramAhead i },
             power := { s.power with snapWait := oneLess s.power.snapWait i } }

/-- R99, R275: the oldest write of a bank completes; the drain that PFAIL put ahead ends when both banks are empty. -/
def State.mramDone (s : State) (bank : Nat) : State :=
  let s1 := s.mramComplete bank
  if s1.flag F.MRAMC_QUEUE_DRAINING && decide (s1.memory.mramAhead = 0) then (s1.setFld F.MRAMC_QUEUE_DRAINING 0).raise P.MRAMC E.MRAMC_DRAINED else s1

/-- R275: a bank queue holds its 256 words. -/
def State.mramFull (s : State) (bank : Nat) : Bool := decide (256 ≤ (s.memory.mram.filter (fun x => mramBank x.addr == bank)).length)

/-- R99, R275: writes complete, one after the other, while one of bank `bank` is `due`: the bank's oldest, and what PFAIL put ahead of it
first. -/
def State.mramUntil (s : State) (bank : Nat) (due : State → Bool) : State :=
  forEach s.memory.mram.length (fun _ t =>
    if ! due t then t
    else t.mramDone (if t.memory.mramAhead = 0 then bank else match t.memory.mram.head? with | some x => mramBank x.addr | none => bank)) s

/-- R275: a writer that found a bank queue full has waited for its token: a write of the bank has completed. -/
def State.mramRoom (s : State) (bank : Nat) : State := s.mramUntil bank (fun t => t.mramFull bank)

/-- R275: a write enters its bank queue. -/
def State.mramPush (s : State) (e : MramWrite) : State :=
  let t := s.mramRoom (mramBank e.addr)
  { t with memory := { t.memory with mram := t.memory.mram ++ [e] } }

/-- R275: the MRAMC accepts a write of bytes within one 64-bit word: it is queued, and reads see it at once. -/
def State.mramQueue (s : State) (a : Nat) (bs : List Byte) : State :=
  let w := a / 8 * 8
  let old := BitVec.ofNat 64 (s.numAt w 8)
  let s1 := s.putMem a bs
  let new := BitVec.ofNat 64 (s1.numAt w 8)
  (s1.mramPush ⟨w, old, new⟩).touchSnapshot a bs.length

/-- The bytes of a range cut at 64-bit words: offset of each piece in the range, and its length. -/
def wordPieces (a n : Nat) : List (Nat × Nat) :=
  (wordsOf a n).map (fun w => let lo := max w a; (lo - a, min (w + 8) (a + n) - lo))

/-- R256, R280: what `n` bytes written from `a` into a memory target leave of its marks and flips: their codewords are written anew, marks
they cover whole go, and bytes behind the caches are no longer older. -/
def State.freshen (s : State) (a n : Nat) : State :=
  { s with memory := { s.memory with
    poison := s.memory.poison.filter (fun w => ! s.clearsPoison a n w),
    flips := s.memory.flips.filter (fun f => ! f.inWords (wordsOf a n)),
    stale := s.memory.stale.filter (fun e => ! decide (a ≤ e.1 ∧ e.1 < a + n)) } }

/-- R275, R574: a word of the fault log passes through the port of its own, ahead of the bank queues and behind earlier writes to the same
word. -/
def State.portLand (s : State) (a : Nat) (bs : List Byte) : State :=
  let w := a / 8 * 8
  (((s.mramUntil (mramBank w) (fun t => t.memory.mram.any (fun x => x.addr == w))).freshen a bs.length).putMem a bs).touchSnapshot a bs.length

/-- R256, R275, R280: bytes land in a memory target; MRAM bytes pass through the write queue. -/
def State.land (s : State) (a : Nat) (bs : List Byte) : State :=
  let n := bs.length
  let s1 := s.freshen a n
  if inMram a then forAll (wordPieces a n) (fun p t => t.mramQueue (a + p.1) ((bs.drop p.1).take p.2)) s1
  else s1.putMem a bs

/-- R277: an address lies in a write-protected MRAM page. -/
def State.writeProtected (s : State) (a : Nat) : Bool :=
  let p := (a - 0x08000000) / 4096
  s.flag F.MRAMC_CFG_WP_EN && decide (s.fld F.MRAMC_WP_BASE_BASE ≤ p ∧ p < s.fld F.MRAMC_WP_LIMIT_LIMIT)

/-- R277, R286: the MRAMC refuses a write: closed, or into the protected range. -/
def State.mramRefuses (s : State) (a n : Nat) : Bool :=
  inMram a && (s.power.mramClosed || s.writeProtected a || s.writeProtected (a + n - 1))

end Sys2Proof.Machine
end

