-- ==== Sys2Proof/Machine/BelayOps.lean ====
section
/-! DEFINITION. Belay as one operation (R561 to R574): a fault input is classed, signalled, logged and answered by its
reaction; corrected errors; BELAY_COND and the guarantee; and the pulses that blocks put on Shuttle's producers. -/
namespace Sys2Proof.Machine

/-- R363, R365, Table Events-4: a pulse producer pulses: every channel that senses or gates with it sees the pulse high for 10 ns, two of its
cycles. -/
def State.pulse (s : State) (code : Nat) : State :=
  forEach 64 (fun n t =>
    let isP := decide (t.fld (F.SHUTTLE_CH_SEL_PROD n) = code)
    let isG := decide (t.fld (F.SHUTTLE_CH_SEL_GATE n) = code) && t.flag (F.SHUTTLE_CH_SEL_GATE_EN n)
    if t.flag (F.SHUTTLE_CH_SEL_EN n) && (isP || isG) then
      t.setChan n { t.chan n with pulse := if isP then 2 else (t.chan n).pulse, gatePulse := if isG then 2 else (t.chan n).gatePulse }
    else t) s

/-- Table Belay-3: the class of a source; source 7 is given its class by the reporter. -/
def sourceClass (src : Nat) : Nat :=
  if src = 1 ∨ src = 2 ∨ src = 14 ∨ src = 19 ∨ src = 21 then 4 else if 22 ≤ src ∧ src ≤ 25 then 2 else 3

/-- A fault input of class `sourceClass`. -/
def FaultInput.of (src unit addr detail : Nat) : FaultInput := ⟨src, sourceClass src, unit, addr, detail, false⟩

/-- BELAY_STAT.HIGHEST: the highest class pending. -/
def State.setHighest (s : State) : State :=
  s.setFld F.BELAY_STAT_HIGHEST (s.belay.cls.foldl (fun m e => max m e.2) 0)

/-- R573: the reaction that applies: as configured, SIGNAL for a failed start-up self-test (R569), and SIGNAL for an
injected fault while FULL_REACT = 0 (R580). -/
def State.reactionOf (s : State) (f : FaultInput) : Nat :=
  if f.source = 21 ∧ f.unit = 1 then 0
  else if f.injected && ! s.flag F.SCREE_CTRL_FULL_REACT then 0
  else s.fld (F.BELAY_REACT_REACT f.source)

/-- Table Belay-5: the 32 bytes of a log entry. -/
def State.logBytes (s : State) (f : FaultInput) (seq : Nat) (valid : Bool) : List Byte :=
  leBytes 8 (f.source + f.cls * 2 ^ 8 + b2n f.injected * 2 ^ 11 + s.reactionOf f * 2 ^ 12
      + b2n (s.flag F.BELAY_STAT_GUARANTEE) * 2 ^ 14 + b2n valid * 2 ^ 15 + f.unit * 2 ^ 16 + seq % 2 ^ 32 * 2 ^ 32)
    ++ leBytes 8 (s.fld F.RTC_COUNT_TICKS) ++ leBytes 8 f.addr
    ++ leBytes 8 (f.detail % 2 ^ 32 + s.fld F.REED_NOW_PHASE * 2 ^ 32)

/-- R574: copy an entry to BELAY_LAST_n. -/
def State.copyLast (s : State) (e : List Byte) : State :=
  forEach 8 (fun n t => t.setReg (R.BELAY_LAST n) (BitVec.ofNat 64 (leNat (slice (4 * n) 4 e)))) s

/-- R574: one entry lost to the log. -/
def State.logLost (s : State) : State :=
  (s.bumpSat F.BELAY_LOG_POS_LOST F.BELAY_LOG_POS_SAT).raise P.BELAY E.BELAY_LOG_LOST

/-- R574, R585: write a log entry: SEQ, BELAY_LAST_n, and the entry in MRAM word by word with word 0x00 last valid. -/
def State.logEntry (s : State) (f : FaultInput) : State :=
  let seq := s.belay.seq + 1
  let e := s.logBytes f seq true
  let s1 := ({ s with belay := { s.belay with seq := seq } }).copyLast e
  if ! s1.flag F.BELAY_LOG_CTRL_EN then s1 else
  let k := s1.fld F.BELAY_LOG_POS_NEXT % 2 ^ s1.fld F.BELAY_LOG_CTRL_ORDER
  let at0 := 0x08000000 + s1.fld F.BELAY_LOG_BASE_BASE * 4096 + 32 * k
  let s2 := s1.setFld F.BELAY_LOG_POS_NEXT ((k + 1) % 2 ^ s1.fld F.BELAY_LOG_CTRL_ORDER)
  if s2.power.mramClosed || decide (at0 + 31 > 0x087FFFFF) then s2.logLost
  else ((((s2.portLand at0 (slice 0 8 (s.logBytes f seq false))).portLand (at0 + 8) (slice 8 8 e)).portLand (at0 + 16)
      (slice 16 8 e)).portLand (at0 + 24) (slice 24 8 e)).portLand at0 (slice 0 8 e)

/-- R572: FAULT_N is asserted, and Shuttle producer 63 with it. -/
def State.assertFaultN (s : State) (src : Nat) : State :=
  let s1 := s.setFld F.BELAY_STAT_FAULT 1
  { s1 with belay := { s1.belay with holds := s1.belay.holds ||| 2 ^ src, faultLow := true } }

/-- R573: clock-stop a pair; its NI injects nothing further. -/
def State.fencePair (s : State) (pair : Nat) : State :=
  { s with harts := s.harts.mapFinIdx (fun i h _ => if i / 2 = pair then { h with fenced := true } else h) }

/-- R573: apply a reaction: FENCE stops the pair of source 1 or 2 at once, RESET falls due after RESET_DELAY; RESET
prevails over an earlier one only in being the same reset. -/
def State.react (s : State) (src code : Nat) : State :=
  if code = 1 then s.fencePair (src - 1)
  else if code = 2 then
    match s.belay.resetDue with
    | some _ => s
    | none => { s with belay := { s.belay with resetDue := some (if src = 18 then 4 else 5) } }
  else s

/-- R529: set TETHER_ATTN bits. -/
def State.attn (s : State) (bit : Nat) : State := s.setReg R.TETHER_ATTN (Bits.put (s.raw R.TETHER_ATTN) bit 1 1)

/-- R571, step 3: the counts and notices of a signalled fault. -/
def State.countSignalled (s : State) (cls : Nat) : State :=
  let s1 := (s.bumpSat F.BELAY_SIGNALLED_COUNT F.BELAY_SIGNALLED_SAT).attn 1
  let r := satAdd 65535 s1.tether.raised 1
  ({ s1 with tether := { s1.tether with raised := r, raisedSat := s1.tether.raisedSat || decide (r = 65535), lastClass := cls } }).raise
    P.BELAY E.BELAY_SIGNALLED

/-- R571: Belay signals a fault of class 2, 3 or 4. -/
def State.signalNow (s : State) (g : FaultInput) : State :=
  let f := { g with injected := g.injected || s.perturbed }
  let code := s.reactionOf f
  let asserts := decide (3 ≤ f.cls) || s.flag F.BELAY_CFG_SOFT_FAULT_N
  let quiet := f.injected && s.flag F.SCREE_CTRL_QUIET
  let s1 := s.setReg R.BELAY_PEND (Bits.put (s.raw R.BELAY_PEND) f.source 1 1)
  let s2 : State := { s1 with belay := { s1.belay with
    cls := SMap.put (fun _ => 0) s1.belay.cls f.source (max f.cls (SMap.get (fun _ => 0) s1.belay.cls f.source)),
    real := if f.injected && ! s.flag F.SCREE_CTRL_FULL_REACT then s1.belay.real else s1.belay.real ||| 2 ^ f.source } }
  let s3 := s2.setHighest
  let s4 := if ! asserts then s3 else if quiet then s3.setFld F.BELAY_STAT_WOULD 1 else s3.assertFaultN f.source
  ((s4.countSignalled f.cls).logEntry f).react f.source code

/-- R569, R571: a fault input reaches Belay; while a self-test runs it is held and processed when the test ends. -/
def State.signal (s : State) (f : FaultInput) : State :=
  match s.belay.test with
  | some _ => { s with belay := { s.belay with held := s.belay.held ++ [f] } }
  | none => s.signalNow f

/-- R570, R574: a corrected error is reported with CLASS 1: not signalled, logged while LOG_CE = 1. -/
def State.correctedInput (s : State) (f : FaultInput) : State :=
  let s1 := s.raise P.BELAY E.BELAY_CE
  if s.flag F.BELAY_CFG_LOG_CE then s1.logEntry { f with cls := 1, injected := f.injected || s.perturbed } else s1

/-- The same for an error that no injection caused. -/
def State.corrected (s : State) (src unit addr detail : Nat) : State := s.correctedInput ⟨src, 1, unit, addr, detail, false⟩

/-- R562: the bits of BELAY_COND, in the order listed. -/
def State.beltConditions (s : State) : List Bool :=
  let tj := sext 9 (s.fld F.PWR_THERM_TJ)
  [ s.guarded,
    s.flag F.L3_CFG_SCRUB_EN && decide (s.fld F.L3_SCRUB_INTERVAL ≤ 1200) && s.flag F.DMC_CTRL_SCRUB_EN
      && decide (s.fld F.DMC_SCRUB_INTERVAL ≤ if s.code4G then 735 else 1471),
    decide (4500 ≤ s.fld F.PWR_MON_VIN ∧ s.fld F.PWR_MON_VIN ≤ 36000) && decide (s.fld F.BELAY_MON_RAIL_OK = 255),
    decide (-40 ≤ tj ∧ tj ≤ 110),
    s.flag F.CLK_MON_CFG_XIN && s.flag F.CLK_MON_CFG_PLL && s.flag F.CLK_MON_CFG_LSE && s.flag F.BELAY_MON_VMON_EN,
    s.flag F.PITON_SCREE_LOCK_LOCK,
    s.belay.selfOk && s.belay.test.isNone ]

/-- R562: BELAY_COND as a word. -/
def State.condWord (s : State) : Nat := s.beltConditions.foldr (fun b m => b2n b + 2 * m) 0

/-- R562: Belay re-evaluates BELAY_COND and GUARANTEE; losing the guarantee signals COND_LOST. -/
def State.evaluateCond (s : State) : State :=
  let c := s.condWord
  let was := s.flag F.BELAY_STAT_GUARANTEE
  let is := decide (c = 127)
  let s1 := (s.setFld F.BELAY_COND_COND c).setFlag F.BELAY_STAT_GUARANTEE is
  if was && ! is then (s1.raise P.BELAY E.BELAY_GUARANTEE_LOST).signal (FaultInput.of 17 0 0 c)
  else if ! was && is then s1.raise P.BELAY E.BELAY_GUARANTEE_ON
  else s1

end Sys2Proof.Machine
end

