-- ==== Sys2Proof/Machine/LongOps.lean ====
section
/-! DEFINITION. The arithmetic of the LOU (R236 to R238, Tables Pipeline-5 and Pipeline-6): what each Xoroud operation computes
from its operands and ACC, its faults and default results. Where R237 only bounds the error, the result is a free one within
the bound (notes/assumptions/50.md). -/
namespace Sys2Proof.Machine

/-- The largest r with r² ≤ n among those of `bits` bits. -/
def isqrtBits : Nat → Nat → Nat → Nat
  | 0, _, r => r
  | b + 1, n, r => isqrtBits b n (if (r + 2 ^ b) * (r + 2 ^ b) ≤ n then r + 2 ^ b else r)

/-- Biased exponent of a binary64 pattern. -/
def f64exp (b : DWord) : Nat := Bits.get b 52 11

/-- Fraction of a binary64 pattern. -/
def f64frac (b : DWord) : Nat := Bits.get b 0 52

/-- Sign of a binary64 pattern. -/
def f64neg (b : DWord) : Bool := b.toNat.testBit 63

/-- A NaN. -/
def f64nan (b : DWord) : Bool := decide (f64exp b = 2047 ∧ f64frac b ≠ 0)

/-- An infinity. -/
def f64inf (b : DWord) : Bool := decide (f64exp b = 2047 ∧ f64frac b = 0)

/-- A zero. -/
def f64zero (b : DWord) : Bool := decide (f64exp b = 0 ∧ f64frac b = 0)

/-- Positive infinity. -/
def infPat : Nat := 0x7FF0000000000000

/-- The NaN that a DOMAIN fault gives. -/
def nanPat : Nat := 0x7FF8000000000000

/-- The magnitude of a finite pattern as significand and power of two. -/
def f64mag (b : DWord) : Nat × Int :=
  if f64exp b = 0 then (f64frac b, -1074) else (2 ^ 52 + f64frac b, (f64exp b : Int) - 1075)

/-- A pattern with a sign. -/
def withSign (neg : Bool) (p : Nat) : DWord := BitVec.ofNat 64 (p + if neg then 2 ^ 63 else 0)

/-- The pattern of the largest binary64 value not above n × 2^p, with whether n × 2^p lies in the lower half of the step to the next;
n × 2^p is at least 2^−1,022 and below 2^1,024. -/
def f64floor (n : Nat) (p : Int) : Nat × Bool :=
  let k := n.log2
  let m := if 52 ≤ k then n / 2 ^ (k - 52) else n * 2 ^ (52 - k)
  let low := if 53 ≤ k then decide (n % 2 ^ (k - 52) < 2 ^ (k - 53)) else true
  let e : Int := k + p + 1023
  (e.toNat * 2 ^ 52 + (m - 2 ^ 52), low)

/-- R237: one of the results within 2 ulp of an exact value that lies above pattern `p` and below the next, chosen by `c`; the ulp is
that of the exact value and of the result, where a power of two parts them. `low`: the value lies in the lower half of the step.
DEDUCED (assumption log 50). -/
def nearPattern (p : Nat) (low : Bool) (c : Nat) : Nat :=
  let under := if p % 2 ^ 52 ≠ 0 || low then [p - 1] else []
  let above := if p % 2 ^ 52 = 2 ^ 52 - 1 then [] else [p + 2]
  let all := under ++ [p, p + 1] ++ above
  min (all.getD (c % all.length) p) (infPat - 1)

/-- R237: one of the two patterns around an exact value, chosen by `c`: the error is less than 1 ulp. -/
def faithfulPattern (p c : Nat) : Nat := min (p + c % 2) (infPat - 1)

/-- The result of a long operation: the CODE of its fault (R238), what rd takes, and ACC after it. -/
structure LongResult where
  /-- 0 none, 1 DIV_ZERO, 2 DOMAIN, 3 RANGE -/
  code : Nat
  /-- value for rd -/
  rd : DWord
  /-- ACC -/
  acc : BitVec 128
deriving DecidableEq, Repr

/-- R236, Table Pipeline-6: LDIVU. -/
def ldivu (acc : BitVec 128) (a : DWord) : LongResult :=
  let d := a.toNat
  if d = 0 then ⟨1, 0xFFFFFFFFFFFFFFFF#64, acc⟩
  else if d ≤ acc.toNat / 2 ^ 64 then ⟨3, 0xFFFFFFFFFFFFFFFF#64, acc⟩
  else ⟨0, BitVec.ofNat 64 (acc.toNat / d), BitVec.ofNat 128 (acc.toNat % d)⟩

/-- R236: ISQRT. -/
def isqrt64 (a : DWord) : DWord := BitVec.ofNat 64 (isqrtBits 32 a.toNat 0)

/-- R237, R238: FRCP. Between two binary64 values the result is either of them. A subnormal input faults where its result lies above the
binary64 range, and has its result where that lies inside (notes/assumptions/52.md). -/
def frcp (a : DWord) : Nat × DWord :=
  let sg := f64neg a
  let e := f64exp a
  let f := f64frac a
  -- the significand in [2^52, 2^53), and the places a subnormal one was shifted
  let k := if e ≠ 0 then 0 else if 2 ^ 51 ≤ f then 1 else 2
  let n := if e ≠ 0 then 2 ^ 52 + f else f * 2 ^ k
  let top := 2045 + (if e = 0 then k - 1 else 0) - e
  if f64nan a then (2, BitVec.ofNat 64 nanPat)
  else if f64inf a then (0, withSign sg 0)
  else if f64zero a then (1, withSign sg infPat)
  else if e = 0 ∧ f ≤ 2 ^ 50 then (3, withSign sg infPat)
  else if 2045 < e ∨ (e = 2045 ∧ f ≠ 0) then (3, withSign sg 0)
  else if n = 2 ^ 52 then (0, withSign sg ((top + 1) * 2 ^ 52))
  else (0, withSign sg (faithfulPattern (top * 2 ^ 52 + (2 ^ 105 / n - 2 ^ 52)) (Config.approx 8 a).toNat))

/-- The first `n` fraction bits of log2(y / 2^w), for 2^w ≤ y < 2^(w+1): squaring, one bit at a time. -/
def log2Bits (w : Nat) : Nat → Nat → Nat → Nat
  | 0, _, r => r
  | n + 1, y, r =>
    let z := y * y / 2 ^ w
    if 2 ^ (w + 1) ≤ z then log2Bits w n (z / 2) (2 * r + 1) else log2Bits w n z (2 * r)

/-- R237, R238: FLOG2. A result that is not exact lies within 2 ulp of the true one. -/
def flog2 (a : DWord) : Nat × DWord :=
  if f64nan a then (2, BitVec.ofNat 64 nanPat)
  else if f64zero a then (1, withSign true infPat)
  else if f64neg a then (2, BitVec.ofNat 64 nanPat)
  else if f64inf a then (0, withSign false infPat)
  else
    let (n, p) := f64mag a
    let k : Int := n.log2 + p
    if n = 2 ^ n.log2 then
      (0, if k = 0 then 0#64 else withSign (decide (k < 0)) (f64floor k.natAbs 0).1)
    else
      let t : Int := k * ((2 ^ 192 : Nat) : Int) + ((log2Bits 420 192 (n * 2 ^ (420 - n.log2)) 0 : Nat) : Int)
      let neg := decide (t < 0)
      let m := if neg then (-t - 1).toNat else t.toNat
      let q := f64floor m (-192)
      (0, withSign neg (nearPattern q.1 q.2 (Config.approx 9 a).toNat))

/-- 2^(f / 2^n) × 2^192, for the low `n` bits of f: a square root for each bit, the least significant first. -/
def exp2Bits (f : Nat) : Nat → Nat → Nat → Nat
  | 0, _, y => y
  | n + 1, i, y => exp2Bits f n (i + 1) (isqrtBits 194 ((if f.testBit i then 2 * y else y) * 2 ^ 192) 0)

/-- R237, R238: FEXP2. A result that is not exact lies within 2 ulp of the true one. -/
def fexp2 (a : DWord) : Nat × DWord :=
  if f64nan a then (2, BitVec.ofNat 64 nanPat)
  else if f64inf a then (0, if f64neg a then 0#64 else withSign false infPat)
  else
    let (n, p) := f64mag a
    -- the operand in units of 2^−1,074, and its floor in units of 2^−160
    let v : Int := (if f64neg a then -1 else 1) * ((n * 2 ^ (p + 1074).toNat : Nat) : Int)
    let one : Int := ((2 ^ 1074 : Nat) : Int)
    if 1024 * one ≤ v then (3, withSign false infPat)
    else if v < -1022 * one then (3, 0#64)
    else
      let i := v / one
      let r := (v % one).toNat
      if r = 0 then (0, withSign false ((i + 1023).toNat * 2 ^ 52))
      else
        let y := exp2Bits (r / 2 ^ 914) 160 0 (2 ^ 192)
        let q := f64floor (min y (2 ^ 193 - 1)) (i - 192)
        (0, withSign false (nearPattern q.1 q.2 (Config.approx 10 a).toNat))

/-- Table Pipeline-5: a long operation on ACC and its sources. -/
def longOp (op : LongOp) (acc : BitVec 128) (a b : DWord) : LongResult :=
  match op with
  | .ldivu => ldivu acc a
  | .isqrt => ⟨0, isqrt64 a, acc⟩
  | .frcp => ⟨(frcp a).1, (frcp a).2, acc⟩
  | .flog2 => ⟨(flog2 a).1, (flog2 a).2, acc⟩
  | .fexp2 => ⟨(fexp2 a).1, (fexp2 a).2, acc⟩
  | .lmacu => ⟨0, 0#64, acc + BitVec.ofNat 128 (a.toNat * b.toNat)⟩
  | .lmacs => ⟨0, 0#64, acc + BitVec.ofInt 128 (a.toInt * b.toInt)⟩
  | .laccWr => ⟨0, 0#64, b ++ a⟩
  | .laccRdlo => ⟨0, acc.truncate 64, acc⟩
  | .laccRdhi => ⟨0, (acc >>> 64).truncate 64, acc⟩
  | .crc32c => ⟨0, BitVec.ofNat 64 (Crc.run32 0x82F63B78 (a.toNat % 2 ^ 32) (leBytes 8 b.toNat)), acc⟩

/-- Table Pipeline-5: funct7. -/
def LongOp.funct7 : LongOp → Nat
  | .ldivu => 0x01 | .isqrt => 0x02 | .frcp => 0x08 | .flog2 => 0x09 | .fexp2 => 0x0A | .lmacu => 0x10 | .lmacs => 0x11
  | .laccWr => 0x12 | .laccRdlo => 0x13 | .laccRdhi => 0x14 | .crc32c => 0x20

/-- Table Pipeline-5: an operation writes rd. -/
def LongOp.writesRd : LongOp → Bool
  | .lmacu | .lmacs | .laccWr => false
  | .ldivu | .isqrt | .frcp | .flog2 | .fexp2 | .laccRdlo | .laccRdhi | .crc32c => true

/-- R236: the 32 bits of a Xoroud instruction. -/
def xoroudBits (funct7 rd rs1 rs2 : Nat) : DWord := BitVec.ofNat 64 (funct7 * 2 ^ 25 + rs2 * 2 ^ 20 + rs1 * 2 ^ 15 + rd * 2 ^ 7 + 0x0B)

end Sys2Proof.Machine
end

