-- ==== Sys2Proof/Machine/HartOps.lean ====
section
/-! DEFINITION. The harts as shared operations (R191 to R231, R236 to R252): registers and CSRs with their legal values, the
values that govern while a settling window is open, retirement, interrupts in their order, taking a trap and returning from one,
and waking. What the RISC-V documents that R191 names fix is taken from them (notes/assumptions/51.md). -/
namespace Sys2Proof.Machine

/-! ### Registers -/

/-- Integer register `r`; x0 reads 0. -/
def Hart.xr (t : Hart) (r : Nat) : DWord := if r = 0 then 0#64 else SMap.get (fun _ => 0#64) t.x r

/-- Write integer register `r`; a write to x0 is discarded. -/
def Hart.setX (t : Hart) (r : Nat) (v : DWord) : Hart := if r = 0 then t else { t with x := SMap.put (fun _ => 0#64) t.x r v }

/-- Floating-point register `r`. -/
def Hart.fr (t : Hart) (r : Nat) : DWord := SMap.get (fun _ => 0#64) t.f r

/-- Write floating-point register `r`. -/
def Hart.setF (t : Hart) (r : Nat) (v : DWord) : Hart := { t with f := SMap.put (fun _ => 0#64) t.f r v }

/-- What a CSR holds after a hart reset (R220, Tables Harts-2 and Harts-6 to Harts-10). -/
def csrReset (n : Nat) : DWord :=
  if n = 0x300 ∨ n = 0x600 then (if n = 0x300 then 0xA00000000#64 else 0x200000000#64)
  else if n = 0x200 then 0x200000000#64
  else if n = 0x303 then 0x1444#64
  else if n = 0x7C0 then 0x2581000F#64
  else if n = 0x7C1 then 0x831#64
  else if n = 0x7C4 then 0x847#64
  else if n = 0x7B0 then 0x40000003#64
  else 0#64

/-- tdata1 (even) and tdata2 (odd) of the two triggers after reset: type 6, disabled. -/
def trigReset (k : Nat) : DWord := if k % 2 = 0 then 0x6000000000000000#64 else 0#64

/-- The stored word of a CSR. -/
def Hart.csrRaw (t : Hart) (n : Nat) : DWord := SMap.get csrReset t.csr n

/-- Store the word of a CSR. -/
def Hart.setCsr (t : Hart) (n : Nat) (v : DWord) : Hart := { t with csr := SMap.put csrReset t.csr n v }

/-- Bit `i` of a stored CSR. -/
def Hart.csrBit (t : Hart) (n i : Nat) : Bool := (t.csrRaw n).toNat.testBit i

/-- Replace bits of a stored CSR. -/
def Hart.putCsr (t : Hart) (n lo width v : Nat) : Hart := t.setCsr n (Bits.put (t.csrRaw n) lo width v)

/-- R212: the value of a vendor CSR that governs. -/
def Hart.gov (t : Hart) (n : Nat) : Nat := (match AMap.get? t.govern n with | some v => v | none => t.csrRaw n).toNat

/-- An integer register of hart `h`. -/
def State.hx (s : State) (h r : Nat) : DWord := (s.hart h).xr r

/-! ### CSRs -/

/-- Table Harts-1: the CSRs present. -/
def csrPresent (n : Nat) : Bool :=
  decide (1 ≤ n ∧ n ≤ 3) || [0x100, 0x104, 0x105, 0x106, 0x10A, 0x140, 0x141, 0x142, 0x143, 0x144, 0x14D, 0x180,
    0x200, 0x204, 0x205, 0x240, 0x241, 0x242, 0x243, 0x244, 0x24D, 0x280, 0x300, 0x301, 0x302, 0x303, 0x304, 0x305, 0x306,
    0x30A, 0x320, 0x340, 0x341, 0x342, 0x343, 0x344, 0x34A, 0x34B, 0x3A0, 0x3A2].contains n ||
  [0x5C2, 0x5C3, 0x600, 0x602, 0x603, 0x604, 0x605, 0x606, 0x607, 0x60A, 0x643, 0x644, 0x645, 0x64A, 0x680,
    0x7A0, 0x7A1, 0x7A2, 0x7A4, 0x7B0, 0x7B1, 0xDA0, 0xE12, 0xF11, 0xF12, 0xF13, 0xF14, 0xF15].contains n ||
  decide (0x323 ≤ n ∧ n ≤ 0x33F) || decide (0x3B0 ≤ n ∧ n ≤ 0x3BF) || decide (0x7C0 ≤ n ∧ n ≤ 0x7C5) ||
  decide (n = 0xB00 ∨ (0xB02 ≤ n ∧ n ≤ 0xB1F)) || decide (0xC00 ≤ n ∧ n ≤ 0xC1F)

/-- hgeip: the lines of the guest contexts (R194). -/
def State.hgeip (s : State) (h : Nat) : Nat :=
  (List.range 7).foldl (fun m k => m + (if s.ctxLine (9 * h + 2 + k) then 2 ^ (k + 1) else 0)) 0

/-- A supervisor timer compare with the time (R195): menvcfg.STCE, and henvcfg.STCE for the guest's. -/
def State.sstc (s : State) (h n : Nat) (delta : DWord) : Bool :=
  decide (((s.hart h).csrRaw n).toNat ≤ (s.raw R.TIMER_MTIME + delta).toNat)

/-- mip (R194): the bits that software holds, those that other units drive, and those of the guest. -/
def State.mip (s : State) (h : Nat) : Nat :=
  let t := s.hart h
  let soft := (t.csrRaw 0x344).toNat
  let hv := (t.csrRaw 0x645).toNat
  let ge := s.hgeip h
  let stce := t.csrBit 0x30A 63
  let stip := if stce then s.sstc h 0x14D 0#64 else soft.testBit 5
  let vstip := hv.testBit 6 || (stce && t.csrBit 0x60A 63 && s.sstc h 0x24D (t.csrRaw 0x605))
  b2n (soft.testBit 1) * 2 + b2n (hv.testBit 2) * 4 + b2n stip * 2 ^ 5 + b2n vstip * 2 ^ 6 + b2n (s.mtip h) * 2 ^ 7 +
    b2n (soft.testBit 9 || s.ctxLine (9 * h + 1)) * 2 ^ 9 + b2n (hv.testBit 10 || ge.testBit (Bits.get (t.csrRaw 0x600) 12 6)) * 2 ^ 10 +
    b2n (s.ctxLine (9 * h)) * 2 ^ 11 + b2n (ge &&& (t.csrRaw 0x607).toNat != 0) * 2 ^ 12 + b2n (soft.testBit 13) * 2 ^ 13

/-- Bits of mstatus that sstatus shows: SIE, SPIE, SPP, FS, SUM, MXR. -/
def sstatusMask : Nat := 0xC6122

/-- With SD: FS is dirty. -/
def withSd (v : Nat) : Nat := v % 2 ^ 63 + (if v / 2 ^ 13 % 4 = 3 then 2 ^ 63 else 0)

/-- R209, Table Harts-11: mguardst of physical hart `h`. -/
def State.mguardst (s : State) (h : Nat) : Nat :=
  let g := b2n s.guarded
  g + 2 * b2n (s.flag F.SYSCFG_MODE_FUSE_FORCED) + 4 * b2n (s.flag F.SYSCFG_MODE_STRAP) + 2 ^ 4 * h + 2 ^ 8 * (2 * g) + 2 ^ 16 * g +
    2 ^ 17 * b2n (s.belay.mismatch.testBit (h / 2))

/-- R200: the configuration byte of PMP entry `k`. -/
def Hart.pmpCfg (t : Hart) (k : Nat) : Nat := Bits.get (t.csrRaw (if k < 8 then 0x3A0 else 0x3A2)) (8 * (k % 8)) 8

/-- R200: what pmpaddr of entry `k` reads under its mode. -/
def Hart.pmpAddr (t : Hart) (k : Nat) : Nat :=
  let a := (t.csrRaw (0x3B0 + k)).toNat % 2 ^ 38
  if t.pmpCfg k / 8 % 4 = 3 then a ||| 0x1FF else a / 1024 * 1024

/-- What a read of a CSR returns, machine registers under their own numbers. -/
def State.csrRead (s : State) (h n : Nat) : DWord :=
  let t := s.hart h
  let w (v : Nat) : DWord := BitVec.ofNat 64 v
  let md := (t.csrRaw 0x303).toNat
  let hd := (t.csrRaw 0x603).toNat
  let mie := (t.csrRaw 0x304).toNat
  if n = 1 then w (Bits.get (t.csrRaw 3) 0 5)
  else if n = 2 then w (Bits.get (t.csrRaw 3) 5 3)
  else if n = 0x100 then w (withSd (((t.csrRaw 0x300).toNat &&& sstatusMask) + 0x200000000))
  else if n = 0x300 ∨ n = 0x200 then w (withSd (t.csrRaw n).toNat)
  else if n = 0x104 then w (mie &&& md &&& 0x2222)
  else if n = 0x144 then w (s.mip h &&& md &&& 0x2222)
  else if n = 0x204 then w ((mie &&& hd &&& 0x444) / 2)
  else if n = 0x244 then w ((s.mip h &&& hd &&& 0x444) / 2)
  else if n = 0x604 then w (mie &&& 0x1444)
  else if n = 0x644 then w (s.mip h &&& 0x1444)
  else if n = 0x344 then w (s.mip h)
  else if n = 0xE12 then w (s.hgeip h)
  else if n = 0x301 then 0x80000000009411AD#64
  else if n = 0xF12 then 0x7240#64
  else if n = 0xF13 then 0xB1#64
  else if n = 0xF14 then w h
  else if n = 0xF11 ∨ n = 0xF15 then 0#64
  else if n = 0x7C5 then w (s.mguardst h)
  else if n = 0x5C2 then (if Bits.get (t.csrRaw 0x7C2) 16 2 = 3 then 0#64 else t.csrRaw 0x7C2)
  else if n = 0x5C3 then (if Bits.get (t.csrRaw 0x7C2) 16 2 = 3 then 0#64 else t.csrRaw 0x7C3)
  else if n = 0xC01 then s.raw R.TIMER_MTIME
  else if 0xC00 ≤ n ∧ n ≤ 0xC1F then (if n ≤ 0xC0A then t.csrRaw (n - 0x100) else 0#64)
  else if 0xB0B ≤ n ∧ n ≤ 0xB1F then 0#64
  else if n = 0xDA0 then w ((List.range 8).foldl (fun m k => m + b2n (t.csrBit (0x323 + k) 63) * 2 ^ (k + 3)) 0)
  else if n = 0x7A1 ∨ n = 0x7A2 then SMap.get trigReset t.trig (2 * (t.csrRaw 0x7A0).toNat + (n - 0x7A1))
  else if n = 0x7A4 then 0x40#64
  else if 0x3B0 ≤ n ∧ n ≤ 0x3BF then w (t.pmpAddr (n - 0x3B0))
  else if n = 0x60A then (t.csrRaw n &&& (t.csrRaw 0x30A ||| 0x3FFFFFFFFFFFFFFF#64))
  else t.csrRaw n

/-- The value `v` with only the bits of `m`, over the other bits of `old`. -/
def maskIn (m : Nat) (old v : DWord) : DWord := (v &&& BitVec.ofNat 64 m) ||| (old &&& ~~~ (BitVec.ofNat 64 m))

/-- Table Harts-2: mstatus; MPP of 2 keeps the previous value. -/
def mstatusWrite (old v : DWord) : DWord :=
  let n := maskIn 0xC0007E79AA old v
  if Bits.get v 11 2 = 2 then Bits.put n 11 2 (Bits.get old 11 2) else n

/-- Table Harts-2: xtvec. -/
def tvecWrite (old v : DWord) : DWord :=
  if Bits.get v 0 2 = 0 then v else if Bits.get v 0 2 = 1 then Bits.put v 2 6 0 else old

/-- Table Harts-2, R223: satp, vsatp and hgatp. -/
def atpWrite (g : Bool) (old v : DWord) : DWord :=
  if [0, 8, 9].contains (Bits.get v 60 4) then (if g then maskIn 0xF3FFFFFFFFFFFFFC 0#64 v else v) else old

/-- Table Harts-2: xenvcfg; CBIE of 2 keeps the previous value. -/
def envcfgWrite (m : Nat) (old v : DWord) : DWord :=
  let n := maskIn m 0#64 v
  if Bits.get v 4 2 = 2 then Bits.put n 4 2 (Bits.get old 4 2) else n

/-- R200: one pmpcfg byte; NA4 keeps the previous A, a locked entry ignores the write. Of the reserved R = 0 with W = 1, for
which R200 gives no legal value, W is stored as 0. PRESUMED (assumption log 71). -/
def pmpByte (old v : Nat) : Nat :=
  if old.testBit 7 then old else
  let n := if v % 4 = 2 then (v &&& 0x9F) - 2 else v &&& 0x9F
  if n / 8 % 4 = 2 then (n &&& 0x87) + (old &&& 0x18) else n

/-- A field in a legal range, the nearest bound otherwise. -/
def nearField (lo width a b : Nat) (v : DWord) : Nat := max a (min b (Bits.get v lo width)) * 2 ^ lo

/-- R210, Tables Harts-6 to Harts-10: what a vendor CSR stores. -/
def vendorWrite (n : Nat) (old v : DWord) : DWord :=
  let w (x : Nat) : DWord := BitVec.ofNat 64 x
  if n = 0x7C0 then w (nearField 20 10 64 600 v + nearField 8 10 16 256 v + v.toNat % 16)
  else if n = 0x7C1 then w (nearField 8 4 1 8 v + v.toNat % 64)
  else if n = 0x7C2 then
    let a := maskIn 0x7F071787 0#64 v
    let b := if Bits.get v 16 2 = 2 then Bits.put a 16 2 (Bits.get old 16 2) else a
    if 4 ≤ Bits.get v 0 3 then Bits.put b 0 3 (Bits.get old 0 3) else b
  else if n = 0x7C3 then maskIn (2 ^ 64 - 2) 0#64 v
  else if n = 0x7C4 then w (nearField 8 8 1 32 v + nearField 4 4 1 8 v + v.toNat % 8)
  else old

/-- Table Counting-2: mhpmeventN. -/
def hpmEventWrite (v : DWord) : DWord :=
  let e := Bits.get v 0 8
  Bits.put (maskIn 0xFC00000000000000 0#64 v) 0 8 (if e ≤ 0x1E then e else 0)

/-- Table Harts-12: tdata1: type 6, match 0, 2 or 3, action 0 or 1, else the previous value; only trigger 0 chains, only debug mode
sets dmode, and action 1 stands only beside dmode = 1. -/
def tdataWrite (chain dbg : Bool) (old v : DWord) : DWord :=
  let a := maskIn (if chain then 0x180085F else 0x180005F) 0#64 v
  let b := Bits.put a 7 4 (if [0, 2, 3].contains (Bits.get v 7 4) then Bits.get v 7 4 else Bits.get old 7 4)
  let dmode := if dbg then Bits.get v 59 1 else 0
  let c := Bits.put b 12 4 (min dmode (if Bits.get v 12 4 ≤ 1 then Bits.get v 12 4 else Bits.get old 12 4))
  Bits.put (Bits.put c 59 1 dmode) 60 4 6

/-- A write to a CSR, machine registers under their own numbers, with the legal values of Tables Harts-2 and Harts-6 to Harts-10,
R200 and R204. A read-only CSR ignores it. -/
def Hart.csrWrite (t : Hart) (n : Nat) (v : DWord) : Hart :=
  let old := t.csrRaw n
  let set (m : Nat) : Hart := t.setCsr n (maskIn m old v)
  let md := (t.csrRaw 0x303).toNat
  let hd := (t.csrRaw 0x603).toNat
  if n = 1 then t.putCsr 3 0 5 (v.toNat % 32)
  else if n = 2 then t.putCsr 3 5 3 (v.toNat % 8)
  else if n = 3 then set 0xFF
  else if n = 0x300 then t.setCsr n (mstatusWrite old v)
  else if n = 0x100 then t.setCsr 0x300 (maskIn sstatusMask (t.csrRaw 0x300) v)
  else if n = 0x200 then set sstatusMask
  else if n = 0x600 then
    let vg := Bits.get v 12 6
    t.setCsr n (maskIn (if vg ≤ 7 then 0x73F3C0 else 0x7003C0) old v)
  else if n = 0x302 then set 0x1F0B7FF
  else if n = 0x602 then set 0x100B1FF
  else if n = 0x303 then set 0x2222
  else if n = 0x603 then set 0x444
  else if n = 0x304 then set 0x3EE6
  else if n = 0x104 then t.setCsr 0x304 (maskIn (md &&& 0x2222) (t.csrRaw 0x304) v)
  else if n = 0x604 then t.setCsr 0x304 (maskIn 0x1444 (t.csrRaw 0x304) v)
  else if n = 0x204 then t.setCsr 0x304 (maskIn (hd &&& 0x444) (t.csrRaw 0x304) (v <<< 1))
  else if n = 0x344 then
    (t.setCsr n (maskIn (if t.csrBit 0x30A 63 then 0x2202 else 0x2222) old v)).setCsr 0x645 (maskIn 4 (t.csrRaw 0x645) v)
  else if n = 0x144 then t.setCsr 0x344 (maskIn (md &&& 0x2002) (t.csrRaw 0x344) v)
  else if n = 0x644 then t.setCsr 0x645 (maskIn 4 (t.csrRaw 0x645) v)
  else if n = 0x645 then set 0x444
  else if n = 0x244 then t.setCsr 0x645 (maskIn (hd &&& 4) (t.csrRaw 0x645) (v <<< 1))
  else if n = 0x305 ∨ n = 0x105 ∨ n = 0x205 then t.setCsr n (tvecWrite old v)
  else if n = 0x341 ∨ n = 0x141 ∨ n = 0x241 ∨ n = 0x7B1 then set (2 ^ 64 - 2)
  else if n = 0x180 ∨ n = 0x280 then t.setCsr n (atpWrite false old v)
  else if n = 0x680 then t.setCsr n (atpWrite true old v)
  else if n = 0x30A then t.setCsr n (envcfgWrite 0xC0000000000000F1 old v)
  else if n = 0x60A then
    t.setCsr n (envcfgWrite (0xF1 + ((t.csrRaw 0x30A).toNat &&& 0xC000000000000000)) old v)
  else if n = 0x10A then t.setCsr n (envcfgWrite 0xF1 old v)
  else if n = 0x106 ∨ n = 0x306 ∨ n = 0x606 then set 0xFFFFFFFF
  else if n = 0x607 then set 0xFE
  else if n = 0x320 then set 0x7FD
  else if 0x323 ≤ n ∧ n ≤ 0x32A then t.setCsr n (hpmEventWrite v)
  else if 0x32B ≤ n ∧ n ≤ 0x33F then t
  else if n = 0x3A0 ∨ n = 0x3A2 then
    t.setCsr n (BitVec.ofNat 64 ((List.range 8).foldl (fun m k =>
      m + pmpByte (Bits.get old (8 * k) 8) (Bits.get v (8 * k) 8) * 2 ^ (8 * k)) 0))
  else if 0x3B0 ≤ n ∧ n ≤ 0x3BF then
    let k := n - 0x3B0
    let next := t.pmpCfg (k + 1)
    if (t.pmpCfg k).testBit 7 || (decide (k < 15) && next.testBit 7 && decide (next / 8 % 4 = 1)) then t else set (2 ^ 38 - 1)
  else if 0x7C0 ≤ n ∧ n ≤ 0x7C4 then t.setCsr n (vendorWrite n old v)
  else if n = 0x5C2 ∨ n = 0x5C3 then
    if Bits.get (t.csrRaw 0x7C2) 16 2 = 3 then t
    else t.setCsr (n + 0x200) (vendorWrite (n + 0x200) (t.csrRaw (n + 0x200)) v)
  else if n = 0x7A0 then set 1
  else if n = 0x7A1 ∨ n = 0x7A2 then
    let k := 2 * (t.csrRaw 0x7A0).toNat
    let o := SMap.get trigReset t.trig k
    if o.toNat.testBit 59 && ! t.debug then t
    else { t with trig := SMap.put trigReset t.trig (k + (n - 0x7A1)) (if n = 0x7A1 then tdataWrite (decide (k = 0)) t.debug o v else v) }
  else if n = 0x7B0 then t.setCsr n (Bits.put (maskIn 0x3BC04 old v) 0 2 (if v.toNat % 4 = 2 then Bits.get old 0 2 else v.toNat % 4)
    |> fun w => Bits.put w 5 1 (Bits.get v 5 1))
  else if 0xB0B ≤ n ∧ n ≤ 0xB1F then t
  else if 0xC00 ≤ n then t
  else if n = 0x301 ∨ n = 0x7A4 ∨ n = 0x7C5 then t
  else t.setCsr n v

/-! ### Which harts run -/

/-- R102, R215: the visible harts: all four in Split mode, harts 0 and 2 in Guarded mode. -/
def State.visible (s : State) : List Nat := if s.guarded then [0, 2] else [0, 1, 2, 3]

/-- The physical harts that act with visible hart `h`: its checker too in Guarded mode. -/
def State.pairOf (s : State) (h : Nat) : List Nat := if s.guarded then [h, h + 1] else [h]

/-- R215, R252: the checker of a pair does what its main hart does. -/
def State.mirror (s : State) (h : Nat) : State := if s.guarded then s.modHart (h + 1) (fun _ => s.hart h) else s

/-- Hart `h` is visible and executes: running, clocked, neither fenced nor in the ROM's release loop, and in debug mode
only while the program buffer runs. -/
def State.hartLive (s : State) (h : Nat) : Bool :=
  let t := s.hart h
  s.visible.contains h && t.running && ! t.fenced && (! t.debug || decide (t.prog = some false)) && ! t.parked && s.fabricRuns && decide (s.fld F.PWR_STATE_CUR ≤ 1)

/-! ### Counters, windows and retirement -/

/-- Table Counting-2: the bit of mhpmeventN that stops counting in a mode. -/
def inhibitBit (priv : Nat) (virt : Bool) : Nat :=
  if priv = 3 then 62 else if ! virt then (if priv = 1 then 61 else 60) else if priv = 1 then 59 else 58

/-- R326: counter `n` (3 to 10) wraps: OF, and LCOFI if OF was 0. -/
def Hart.counterWrap (t : Hart) (n : Nat) : Hart :=
  let u := (t.setCsr (0xB00 + n) 0#64).putCsr (0x320 + n) 63 1 1
  if t.csrBit (0x320 + n) 63 then u else u.putCsr 0x344 13 1 1

/-- R219: dcsr.stopcount stops the counters of a hart in debug mode. -/
def Hart.stopsCount (t : Hart) : Bool := t.debug && t.csrBit 0x7B0 10

/-- R324 to R326: event `code` of Table Counting-3 occurs in a mode: each counter that selects it counts. -/
def Hart.count (t : Hart) (code priv : Nat) (virt : Bool) : Hart :=
  if t.stopsCount then t else
  (List.range 8).foldl (fun (u : Hart) k =>
    let ev := u.csrRaw (0x323 + k)
    if Bits.get ev 0 8 = code ∧ ! ev.toNat.testBit (inhibitBit priv virt) ∧ ! u.csrBit 0x320 (k + 3) then
      (if u.csrRaw (0xB03 + k) = 0xFFFFFFFFFFFFFFFF#64 then u.counterWrap (k + 3) else u.setCsr (0xB03 + k) (u.csrRaw (0xB03 + k) + 1#64))
    else u) t

/-- R212: `n` instructions retire: each window open counts them, and the value of one that ends governs. -/
def Hart.tickWindows (t : Hart) (n : Nat) : Hart :=
  let ended := t.windows.filter (fun w => decide (w.left ≤ n))
  let rest := (t.windows.filter (fun w => ! decide (w.left ≤ n))).map (fun w => { w with left := w.left - n })
  let gov := ended.foldl (fun (g : List (Nat × DWord)) w =>
    if rest.any (fun r => r.csr == w.csr) then AMap.put g w.csr w.value else SMap.erase g w.csr) t.govern
  { t with windows := rest, govern := gov }

/-- R213: every open window ends. -/
def Hart.endWindows (t : Hart) : Hart := { t with windows := [], govern := [] }

/-- R239: minstret counts `n` instructions unless it is inhibited or stopped. -/
def Hart.instret (t : Hart) (n : Nat) : Hart :=
  if t.csrBit 0x320 2 || t.stopsCount then t else t.setCsr 0xB02 (t.csrRaw 0xB02 + BitVec.ofNat 64 n)

/-- Debug mode is entered (R213, R219): dpc, dcsr, the windows end. -/
def Hart.enterDebug (t : Hart) (cause : Nat) : Hart :=
  let d := Bits.put (Bits.put (Bits.put (t.csrRaw 0x7B0) 6 3 cause) 5 1 (b2n t.virt)) 0 2 t.priv
  { ((t.endWindows.setCsr 0x7B0 d).setCsr 0x7B1 t.pc) with debug := true, wfi := false, stepping := false }

/-! ### Completion of long operations, and the end of a single step -/

/-- An integer register written by a completion: in a Scout run the checkpoint takes it too (R235). -/
def Hart.setArchX (t : Hart) (r : Nat) (v : DWord) : Hart :=
  let u := t.setX r v
  match t.scout with
  | some c => if r = 0 then u else { u with scout := some { c with x := SMap.put (fun _ => 0#64) c.x r v } }
  | none => u

/-- R238, R239: the oldest operation not yet complete completes; a faulted one writes its default result and keeps its entry. -/
def Hart.completeOldest (t : Hart) : Hart :=
  match t.lou.find? (fun e => e.fault.isNone) with
  | none => t
  | some e =>
    let r := longOp e.op t.acc e.rs1 e.rs2
    let u := { (if e.op.writesRd then t.setArchX e.rd r.rd else t) with acc := r.acc }
    if r.code = 0 then { u with lou := u.lou.filter (fun x => x.slot != e.slot) }
    else { u with lou := u.lou.map (fun x => if x.slot = e.slot then { x with fault := some r.code } else x) }

/-- R243: every operation held completes. -/
def Hart.drainLou (t : Hart) : Hart := (List.range t.lou.length).foldl (fun u _ => u.completeOldest) t

/-- R217, R243: a single step ends: debug mode is entered once the LOU has drained. -/
def Hart.stepEnd (t : Hart) : Hart := if t.stepping then t.drainLou.enterDebug 4 else t

/-- `n` instructions retire and leave the pc given: minstret and the windows count them. -/
def Hart.retired (t : Hart) (n : Nat) (pc : DWord) : Hart := { (t.instret n).tickWindows n with pc := pc }

/-- An instruction of `len` bytes retires: the pc moves on, minstret and the windows count it, and a single step ends. -/
def Hart.retire (t : Hart) (len : Nat) : Hart := (t.retired 1 (t.pc + BitVec.ofNat 64 len)).stepEnd

/-! ### Traps -/

/-- R205, item 2: the order of interrupts, by cause. -/
def interruptOrder : List Nat := [11, 7, 9, 1, 5, 12, 10, 2, 6, 13]

/-- The mode an interrupt is taken in: 3 M, 1 HS, 2 VS. -/
def Hart.interruptTo (t : Hart) (c : Nat) : Nat :=
  if ! t.csrBit 0x303 c then 3 else if ! t.csrBit 0x603 c then 1 else 2

/-- The mode `to` lets an interrupt through: the hart runs below it, or at it with interrupts enabled. -/
def Hart.lets (t : Hart) (tgt : Nat) : Bool :=
  if tgt = 3 then decide (t.priv < 3) || t.csrBit 0x300 3
  else if tgt = 1 then t.virt || decide (t.priv = 0) || (decide (t.priv = 1) && t.csrBit 0x300 1)
  else t.virt && (decide (t.priv = 0) || t.csrBit 0x200 1)

/-- The interrupt that is due: pending, enabled, let through, the highest target mode first and then the order of R205. -/
def State.interruptDue (s : State) (h : Nat) : Option Nat :=
  let t := s.hart h
  let p := s.mip h &&& (t.csrRaw 0x304).toNat
  let at' (tgt : Nat) : Option Nat := interruptOrder.find? (fun c => p.testBit c && decide (t.interruptTo c = tgt) && t.lets tgt)
  if t.debug || (t.stepping && ! t.csrBit 0x7B0 11) then none else
  (at' 3).orElse (fun _ => (at' 1).orElse (fun _ => at' 2))

/-- R196: an interrupt is pending under the local rules: pending and enabled in mie, whatever the global enables. -/
def State.localPending (s : State) (h : Nat) : Bool := s.mip h &&& ((s.hart h).csrRaw 0x304).toNat != 0

/-- What a trap carries: cause, xtval, the guest-physical address of a guest-page fault, and xtinst. -/
structure Trap where
  /-- interrupt -/
  intr : Bool
  /-- exception code -/
  cause : Nat
  /-- xtval -/
  tval : DWord
  /-- guest-physical address -/
  gpa : Nat
  /-- xtinst -/
  tinst : Nat
  /-- xtval is a guest's virtual address though the hart runs in no guest: HLV, HSV, MPRV with MPV -/
  guest : Bool
deriving DecidableEq, Repr

/-- An exception with nothing but its code and xtval. -/
def Trap.exc (cause : Nat) (tval : DWord) : Trap := ⟨false, cause, tval, 0, 0, false⟩

/-- The mode an exception is taken in: 3 M, 1 HS, 2 VS (R204). -/
def Hart.exceptionTo (t : Hart) (c : Nat) : Nat :=
  if t.priv = 3 || ! t.csrBit 0x302 c then 3 else if t.virt && t.csrBit 0x602 c then 2 else 1

/-- The exceptions whose xtval holds a virtual address. -/
def tvalAddress (c : Nat) : Bool := [0, 1, 3, 4, 5, 6, 7, 12, 13, 15, 20, 21, 23, 24].contains c

/-- GVA: xtval holds a guest's virtual address. -/
def Hart.gva (t : Hart) (r : Trap) : Bool := (t.virt || r.guest) && ! r.intr && tvalAddress r.cause

/-- The address of a handler under xtvec. -/
def vectorOf (tvec : DWord) (intr : Bool) (code : Nat) : DWord :=
  let base := tvec &&& ~~~ 3#64
  if intr && Bits.get tvec 0 2 == 1 then base + BitVec.ofNat 64 (4 * code) else base

/-- mcause, scause or vscause. -/
def causeWord (intr : Bool) (code : Nat) : DWord := BitVec.ofNat 64 (code + if intr then 2 ^ 63 else 0)

/-- A trap into M-mode. -/
def Hart.trapM (t : Hart) (r : Trap) : Hart :=
  let gva := t.gva r
  let st := t.csrRaw 0x300
  let st1 := Bits.put (Bits.put (Bits.put (Bits.put (Bits.put st 11 2 t.priv) 39 1 (b2n t.virt)) 38 1 (b2n gva)) 7 1 (Bits.get st 3 1)) 3 1 0
  let u := ((((((t.setCsr 0x300 st1).setCsr 0x341 t.pc).setCsr 0x342 (causeWord r.intr r.cause)).setCsr 0x343 r.tval).setCsr 0x34B
    (BitVec.ofNat 64 (r.gpa / 4))).setCsr 0x34A (BitVec.ofNat 64 r.tinst))
  { u with priv := 3, virt := false, pc := vectorOf (t.csrRaw 0x305) r.intr r.cause }

/-- A trap into HS-mode. -/
def Hart.trapS (t : Hart) (r : Trap) : Hart :=
  let gva := t.gva r
  let st := t.csrRaw 0x300
  let st1 := Bits.put (Bits.put (Bits.put st 8 1 t.priv) 5 1 (Bits.get st 1 1)) 1 1 0
  let hs := Bits.put (Bits.put (t.csrRaw 0x600) 7 1 (b2n t.virt)) 6 1 (b2n gva)
  let hs1 := if t.virt then Bits.put hs 8 1 t.priv else hs
  let u := (((((((t.setCsr 0x300 st1).setCsr 0x600 hs1).setCsr 0x141 t.pc).setCsr 0x142 (causeWord r.intr r.cause)).setCsr 0x143 r.tval).setCsr
    0x643 (BitVec.ofNat 64 (r.gpa / 4))).setCsr 0x64A (BitVec.ofNat 64 r.tinst))
  { u with priv := 1, virt := false, pc := vectorOf (t.csrRaw 0x105) r.intr r.cause }

/-- A trap into VS-mode: an interrupt has the code of the supervisor's own. -/
def Hart.trapVs (t : Hart) (r : Trap) : Hart :=
  let code := if r.intr then r.cause - 1 else r.cause
  let st := t.csrRaw 0x200
  let st1 := Bits.put (Bits.put (Bits.put st 8 1 t.priv) 5 1 (Bits.get st 1 1)) 1 1 0
  let u := (((t.setCsr 0x200 st1).setCsr 0x241 t.pc).setCsr 0x242 (causeWord r.intr code)).setCsr 0x243 r.tval
  { u with priv := 1, virt := true, pc := vectorOf (t.csrRaw 0x205) r.intr code }

/-- R204, R213: a trap is taken at the pc as it stands: saved registers, status, mode, handler; every window ends. An exception in the
program buffer of the debug module ends it and changes nothing else. -/
def Hart.trap (t : Hart) (r : Trap) : Hart :=
  if t.prog.isSome then { t with prog := some true } else
  let tgt := if r.intr then t.interruptTo r.cause else t.exceptionTo r.cause
  let t1 := { (t.count (if r.intr then 0x1A else 0x1B) t.priv t.virt).endWindows with wfi := false }
  let u := if tgt = 3 then t1.trapM r else if tgt = 1 then t1.trapS r else t1.trapVs r
  u.stepEnd

/-! ### Returns and waking -/

/-- mret. -/
def Hart.mret (t : Hart) : Hart :=
  let st := t.csrRaw 0x300
  let p := Bits.get st 11 2
  let v := p != 3 && st.toNat.testBit 39
  let st1 := Bits.put (Bits.put (Bits.put (Bits.put st 3 1 (Bits.get st 7 1)) 7 1 1) 11 2 0) 39 1 0
  let st2 := if p = 3 then st1 else Bits.put st1 17 1 0
  { t.setCsr 0x300 st2 with priv := p, virt := v, pc := t.csrRaw 0x341 }

/-- sret in M- or HS-mode. -/
def Hart.sretHs (t : Hart) : Hart :=
  let st := t.csrRaw 0x300
  let st1 := Bits.put (Bits.put (Bits.put (Bits.put st 1 1 (Bits.get st 5 1)) 5 1 1) 8 1 0) 17 1 0
  { (t.setCsr 0x300 st1).putCsr 0x600 7 1 0 with priv := Bits.get st 8 1, virt := t.csrBit 0x600 7, pc := t.csrRaw 0x141 }

/-- sret in VS-mode. -/
def Hart.sretVs (t : Hart) : Hart :=
  let st := t.csrRaw 0x200
  let st1 := Bits.put (Bits.put (Bits.put st 1 1 (Bits.get st 5 1)) 5 1 1) 8 1 0
  { (t.setCsr 0x200 st1).putCsr 0x300 17 1 0 with priv := Bits.get st 8 1, virt := true, pc := t.csrRaw 0x241 }

/-- R196, R360: a hart in WFI wakes and goes on behind the WFI. A parked hart's loop waits again. -/
def Hart.wake (t : Hart) : Hart := if t.wfi && ! t.parked then { t with wfi := false }.retire 4 else t

/-- R360: every visible hart that meets a wake condition wakes. -/
def State.wakeHarts (s : State) : State :=
  forAll s.visible (fun h t => if t.wakeCond h || t.localPending h then (t.modHart h Hart.wake).mirror h else t) s

end Sys2Proof.Machine
end

