-- ==== Sys2Proof/Machine/EccBase.lean ====
section
/-! DEFINITION. What a codeword with wrong bits does to the block that holds it (R255, R256, R563, R570, R590): the counters, the ECC_ADDR
logs and the reports to Belay. Array codes are those of R581, and 10 for the tags of an L2, which Scree does not reach. -/
namespace Sys2Proof.Machine

/-- The address that names a codeword: a parity word of 32 bits in L1I, the line for tags and entries, else 64 bits. -/
def codewordOf (array a : Nat) : Nat :=
  if array = 0 then a / 4 * 4 else if array = 4 ∨ array = 5 ∨ array = 6 ∨ array = 10 then lineOf a else a / 8 * 8

/-- An array of tags or entries: one codeword a line. -/
def tagArray (array : Nat) : Bool := decide (array = 4 ∨ array = 5 ∨ array = 6 ∨ array = 10)

/-- R254: the slice a line has its home in. -/
def sliceOf (l : Nat) : Nat := l / 64 % 2

/-- R265: the DMC channel of a DRAM address. -/
def dmcChannel (a : Nat) : Nat := (a - 0x80000000) / 256 % 2

/-- R215: the main hart of the pair that a physical hart belongs to. -/
def State.mainOf (s : State) (h : Nat) : Nat := if s.guarded then h / 2 * 2 else h

/-- Hart `h` counts an event, and its checker with it. -/
def State.countHart (s : State) (h code : Nat) : State := (s.modHart h (fun t => t.count code t.priv t.virt)).mirror h

/-- The fault input an array reports under (Table Belay-3). -/
def eccInput (array unit w source : Nat) (inj : Bool) : FaultInput :=
  if array ≤ 2 ∨ array = 10 then ⟨3, 3, unit, lineOf w, 0, inj⟩
  else if array ≤ 6 then ⟨4, 3, sliceOf (lineOf w), lineOf w, array - 3, inj⟩
  else if array = 7 then ⟨8, 3, dmcChannel w, lineOf w, source, inj⟩
  else if array = 8 then ⟨9, 3, 0, w, 0, inj⟩
  else ⟨10, 3, b2n (inRom w), w, 0, inj⟩

/-- R255, R590: the CE counter of the array's block; L1D and L2 count as events of their hart (Table Counting-4, 0x19), a checker's as those of
its pair (notes/assumptions/87.md). -/
def State.countCe (s : State) (array unit w : Nat) : State :=
  if array = 0 then s
  else if array ≤ 2 ∨ array = 10 then s.countHart (s.mainOf unit) 0x19
  else if array ≤ 6 then (s.bumpSat F.L3_ECC_CE_COUNT F.L3_ECC_CE_SAT).raise P.L3 E.L3_CE
  else if array = 7 then (s.bumpSat F.DMC_ECC_CE_COUNT F.DMC_ECC_CE_SAT).raise P.DMC E.DMC_CE
  else if array = 8 then (s.bumpSat F.MRAMC_ECC_CE_COUNT F.MRAMC_ECC_CE_SAT).raise P.MRAMC E.MRAMC_CE
  else if inRom w then s.bumpSat F.BELAY_ROM_ECC_CE F.BELAY_ROM_ECC_CSAT
  else s.bumpSat F.BELAY_BC_ECC_CE F.BELAY_BC_ECC_CSAT

/-- R255: the UE counter and the ECC_ADDR log of the array's block. -/
def State.countUe (s : State) (array w source : Nat) : State :=
  if array ≤ 2 ∨ array = 10 then s
  else if array ≤ 6 then
    let s1 := (s.bumpSat F.L3_ECC_UE_COUNT F.L3_ECC_UE_SAT).raise P.L3 E.L3_UE
    if s1.flag F.L3_ECC_ADDR_VALID then s1
    else (((s1.setFld F.L3_ECC_ADDR_ADDR (lineOf w)).setFld F.L3_ECC_ADDR_WHERE (array - 3)).setFld F.L3_ECC_ADDR_SLICE
      (sliceOf (lineOf w))).setFld F.L3_ECC_ADDR_VALID 1
  else if array = 7 then
    let s1 := (s.bumpSat F.DMC_ECC_UE_COUNT F.DMC_ECC_UE_SAT).raise P.DMC E.DMC_UE
    if s1.flag F.DMC_ECC_ADDR_VALID then s1
    else ((s1.setFld F.DMC_ECC_ADDR_ADDR (lineOf w)).setFld F.DMC_ECC_ADDR_SOURCE source).setFld F.DMC_ECC_ADDR_VALID 1
  else if array = 8 then (s.bumpSat F.MRAMC_ECC_UE_COUNT F.MRAMC_ECC_UE_SAT).raise P.MRAMC E.MRAMC_UE
  else if inRom w then s.bumpSat F.BELAY_ROM_ECC_UE F.BELAY_ROM_ECC_USAT
  else s.bumpSat F.BELAY_BC_ECC_UE F.BELAY_BC_ECC_USAT

/-- A corrected codeword: counted, and reported with CLASS 1 (R570); DMC_ECC_SYN names the bit in DRAM. -/
def State.eccCorrected (s : State) (array unit w source bit : Nat) (inj : Bool) : State :=
  let s1 := if array = 7 then
      ((s.setFld F.DMC_ECC_SYN_SYNDROME bit).setFld F.DMC_ECC_SYN_CHANNEL (dmcChannel w)).setFld F.DMC_ECC_SYN_WORD (w / 8 % 8)
    else s
  (s1.countCe array unit w).correctedInput (eccInput array unit w source inj)

/-- An uncorrectable codeword is counted, logged and reported to Belay. -/
def State.eccReport (s : State) (array unit w source : Nat) (inj : Bool) : State :=
  (s.countUe array w source).signal (eccInput array unit w source inj)

/-- R563: three or more wrong bits may be miscorrected, or go unseen: the data are then not the ones written. -/
def State.wrongWord (s : State) (array w : Nat) : State :=
  if tagArray array then s else
  let (v, s1) := s.takeFree
  s1.putMem w (leBytes 8 v.toNat)

/-- SEC-DED on a codeword with wrong bits `bits`: one is corrected, two are uncorrectable and do `lost`, and of three or more a free
value says which happens (R563). -/
def State.secDed (s : State) (array unit w source : Nat) (inj : Bool) (bits : List Nat) (lost : State → State) : State :=
  match bits with
  | [] => s
  | [b] => s.eccCorrected array unit w source b inj
  | [_, _] => lost s
  | _ =>
    let (v, s1) := s.takeFree
    if v.toNat % 3 = 0 then lost s1
    else if v.toNat % 3 = 1 then (s1.wrongWord array w).eccCorrected array unit w source (v.toNat / 4 % 72) inj
    else s1.wrongWord array w

/-- The codewords, by array, unit and address, of a list of flips: each once. -/
def codewordsOf (l : List EccFlip) : List (Nat × Nat × Nat) :=
  l.foldl (fun acc f => if acc.contains (f.array, f.unit, f.addr) then acc else acc ++ [(f.array, f.unit, f.addr)]) []

/-- The array code and unit of a cache. -/
def CacheId.array : CacheId → Nat × Nat
  | .l1i h => (0, h)
  | .l1d h => (1, h)
  | .l2 h => (2, h)
  | .l3 => (3, 0)

/-- A flip in the copy of line `l` that array `c` holds, or the checker's array that mirrors it (R215). -/
def State.flipOf (s : State) (c : CacheId) (l : Nat) (f : EccFlip) : Bool :=
  let (array, unit) := c.array
  decide (f.array = array ∧ s.mainOf f.unit = s.mainOf unit ∧ lineOf f.addr = l)

/-- The copy of line `l` in array `c` is written anew, or gone: its flips are too. -/
def State.rewritten (s : State) (c : CacheId) (l : Nat) : State :=
  s.setFlips (s.memory.flips.filter (fun f => ! s.flipOf c l f))

/-- Table Memory-2: the data of a line leave an array: in a dirty line each error is corrected, or the line goes onward poisoned and the error
is reported to Belay; those of a clean line are gone with it. -/
def State.leaveArray (s : State) (c : CacheId) (l : Nat) (dirty : Bool) : State :=
  let s1 := s.rewritten c l
  if ! dirty then s1 else
  forAll (codewordsOf (s.memory.flips.filter (s.flipOf c l))) (fun k t =>
    let inj := (s.flipsAt k.1 k.2.1 k.2.2).any (fun f => f.scree)
    t.secDed k.1 k.2.1 k.2.2 0 inj (s.wrongBits k.1 k.2.1 k.2.2 []) (fun u => (u.markHeld l).eccReport k.1 k.2.1 k.2.2 0 inj)) s1

end Sys2Proof.Machine
end

