-- ==== Sys2Proof/Machine/Gate.lean ====
section
/-! DEFINITION. The gate in front of a register write (R48, R59): the privilege check of its page, the answer on the Loom,
and the holding of a write to a block-specific register while its page is soft-reset. -/
namespace Sys2Proof.Machine

/-- The answer to an access. -/
def State.respond (s : State) (error : Bool) (data : DWord) : State := { s with resp := ⟨error, data⟩ }

/-- R48: the page an address lies in needs machine privilege. -/
def pageMachine (a : Nat) : Bool := match pageOf a with | some (p, _) => p.machine | none => false

/-- R48, item 1: the address lies in a control page. -/
def pageListed (a : Nat) : Bool := (pageOf a).isSome

/-- R48, R59: a full write of `v` to the register at `a`; `op` is what the register does with it. -/
def State.gateWrite (s : State) (q : Req) (a : Nat) (size : Size) (v : DWord) (op : State → State) : State :=
  if ! pageListed a || (pageMachine a && ! q.priv) then s.respond true 0#64
  else
    let s1 := s.respond false 0#64
    if s.resetting (pageBase a) && decide (0x40 ≤ a - pageBase a) then { s1 with held := s1.held ++ [(⟨q, a, size, v⟩ : HeldWrite)] }
    else op s1

/-- R51: the block-specific registers of the page at `p` and EVT_RAW[30:0] take their reset values. -/
def State.resetPage (s : State) (p : Nat) : State :=
  ({ s with regs := s.regs.filter (fun e => ! decide (p + 0x40 ≤ e.1 ∧ e.1 < p + 0x1000)) } : State).setReg (R.EVT_RAW p)
    (s.raw (R.EVT_RAW p) &&& 0x80000000#64)

/-- A field of a value being written. -/
def Fld.of (f : Fld) (v : DWord) : Nat := Bits.get v f.lo f.width

/-- A value put into the place of a field. -/
def Fld.at (f : Fld) (v : Nat) : Nat := v % 2 ^ f.width * 2 ^ f.lo

end Sys2Proof.Machine
end

