-- ==== Sys2Proof/Machine/Targets.lean ====
section
/-! DEFINITION. The memory targets themselves (R255, R256, R265 to R268, R283, R590): a codeword of DRAM, MRAM, ROM or base camp is read, bytes
are written and merged, the check-byte cache is touched, and the DRAM controller performs the requests it holds. -/
namespace Sys2Proof.Machine

/-- How a Loom transaction ends (Table Loom-2 STATUS), or that the initiator timed out (R317). -/
inductive LoomEnd where
  | ok | busError | poison | timeout
deriving DecidableEq, Repr

/-- R283: a write that leaves part of a marked word, or of a poisoned DRAM line, uncovered in its memory. -/
def State.partialPoison (s : State) (a n : Nat) : Bool := (wordsOf a n).any (fun w => s.marked w && ! s.clearsPoison a n w)

/-- R267, R275: the bytes are whole units of their target, written without a read: a line in DRAM, words elsewhere. -/
def State.wholeUnits (s : State) (a n : Nat) : Bool := (wordsOf a n).all (s.clearsPoison a n)

/-- R256, R584: a read of marked words is counted and logged by their target, and not signalled again. -/
def State.countPoison (s : State) (a : Nat) : State :=
  if s.inDram a then
    let s1 := (s.bumpSat F.DMC_ECC_UE_COUNT F.DMC_ECC_UE_SAT).raise P.DMC E.DMC_UE
    if s1.flag F.DMC_ECC_ADDR_VALID then s1
    else ((s1.setFld F.DMC_ECC_ADDR_ADDR (lineOf a)).setFld F.DMC_ECC_ADDR_SOURCE 0).setFld F.DMC_ECC_ADDR_VALID 1
  else if inMram a then (s.bumpSat F.MRAMC_ECC_UE_COUNT F.MRAMC_ECC_UE_SAT).raise P.MRAMC E.MRAMC_UE
  else if inBaseCamp a then s.bumpSat F.BELAY_BC_ECC_UE F.BELAY_BC_ECC_USAT
  else s

/-! ### Codewords -/

/-- R255, R256, R590: a read of one codeword of array 7, 8 or 9, with an upset's bits beside those flipped in storage; `source` is SOURCE of
DMC_ECC_ADDR. One in the mask ROM stays: nothing can rewrite it. -/
def State.memWord (s : State) (array w source : Nat) (up : List Nat) : State :=
  let bits := s.wrongBits array 0 w up
  let inj := (s.flipsAt array 0 w).any (fun f => f.scree)
  let rom := decide (array = 9) && inRom w
  let s1 := if rom then s else s.dropFlips array 0 w
  if bits.isEmpty || s.marked w then s1
  else s1.secDed array 0 w source inj bits (fun t => (if rom then t else t.mark w).eccReport array 0 w source inj)

/-- A read of every codeword of a line of such an array, the upset lying in word `word` of it. -/
def State.memLine (s : State) (array l source word : Nat) (up : List Nat) : State :=
  forEach 8 (fun i t => t.memWord array (l + 8 * i) source (if i = word then up else [])) s

/-- R255: the flips of `ws` are met by a read of their target. -/
def State.meetFlips (s : State) (ws : List Nat) : State :=
  forAll (codewordsOf (s.memory.flips.filter (fun f => f.inWords ws))) (fun k t => t.memWord k.1 k.2.2 0 []) s

/-! ### Check bytes -/

/-- R265: the channel-local address of a DRAM address. -/
def dmcLocal (a : Nat) : Nat := let o := a - 0x80000000; o / 512 * 256 + o % 256

/-- R266: the check block of a DRAM line: twice its channel-local address, plus the channel. -/
def checkBlock (s : State) (l : Nat) : Nat :=
  2 * (((if s.code4G then 0x70000000 else 0x38000000) + dmcLocal l / 8) / 64 * 64) + dmcChannel l

/-- Replace the check blocks held; DMC_CHAN_STAT.CBC_DIRTY says whether one is dirty. -/
def State.setChecks (s : State) (l : List CheckBlock) : State :=
  ({ s with memory := { s.memory with checkBlocks := l } }).setFlag F.DMC_CHAN_STAT_CBC_DIRTY (l.any (fun x => x.dirty))

/-- R267: two blocks share a set: their channel, and one of 64 sets. -/
def checkPeers (b c : Nat) : Bool := decide (b % 2 = c % 2 ∧ b / 128 % 64 = c / 128 % 64)

/-- R267: an access to DRAM line `l` finds its check block in the cache or brings it in; a line write leaves it dirty. Which of the 8
blocks a full set gives up, written back if dirty, is not stated: a free value picks it (notes/assumptions/12.md). -/
def State.touchCheck (s : State) (l : Nat) (write : Bool) : State :=
  let b := checkBlock s l
  let held := s.memory.checkBlocks
  if held.any (fun x => x.block == b) then
    s.setChecks (held.map (fun x => if x.block = b then { x with dirty := x.dirty || write } else x))
  else
    let peers := held.filter (fun x => checkPeers x.block b)
    if peers.length < 8 then s.setChecks (held ++ [⟨b, write⟩])
    else
      let (v, s1) := s.takeFree
      match peers[v.toNat % peers.length]? with
      | some x => s1.setChecks (held.erase x ++ [⟨b, write⟩])
      | none => s1

/-- R267: every dirty check block is written back. -/
def State.cleanChecks (s : State) : State := s.setChecks (s.memory.checkBlocks.map (fun x => { x with dirty := false }))

/-! ### Writes -/

/-- R267, R275, R283: a write reaches its target. A partial one is merged with a read there, and refused where that finds poison. -/
def State.targetWrite (s : State) (a : Nat) (bs : List Byte) : State × LoomEnd :=
  let n := bs.length
  if s.partialPoison a n then (s.countPoison a, .busError)
  else
    let s1 := if s.memory.flips.isEmpty || s.wholeUnits a n then s else
      s.meetFlips (if s.inDram a then wordsOf (lineOf a) 64 else wordsOf a n)
    if s1.partialPoison a n then (s1, .busError)
    else ((s1.land a bs).when (s1.inDram a) (fun t => t.touchCheck (lineOf a) true), .ok)

/-! ### The DRAM controller -/

/-- R265, R268: the bank and the row that a DRAM address lies in. Which they are is not stated: `Config.dramPlace` says. -/
def rowOf (a : Nat) : OpenRow := let p := Config.dramPlace (dmcLocal a / 64); ⟨dmcChannel a, p % 8, p / 8⟩

/-- Rows of a bank are closed. -/
def State.closeRow (s : State) (channel bank : Nat) : State :=
  { s with memory := { s.memory with openRows := s.memory.openRows.filter (fun r => ! decide (r.channel = channel ∧ r.bank = bank)) } }

/-- A request opens its row, in place of the one its bank had open. -/
def State.openRow (s : State) (r : OpenRow) : State :=
  let s1 := s.closeRow r.channel r.bank
  { s1 with memory := { s1.memory with openRows := s1.memory.openRows ++ [r] } }

/-- DMC_QUEUE_STAT shows the buffers in use and the guaranteed requests queued. -/
def State.showQueues (s : State) : State :=
  let n (c : Nat) : Nat := (s.memory.dmc.filter (fun r => r.channel == c)).length
  let g (c : Nat) : Nat := (s.memory.dmc.filter (fun r => r.channel == c && r.queue == 0)).length
  (((s.setFld F.DMC_QUEUE_STAT_OCC_A (n 0)).setFld F.DMC_QUEUE_STAT_OCC_B (n 1)).setFld F.DMC_QUEUE_STAT_GUAR_A (g 0)).setFld
    F.DMC_QUEUE_STAT_GUAR_B (g 1)

/-- Replace the requests held. -/
def State.setDmc (s : State) (l : List DmcRequest) : State := ({ s with memory := { s.memory with dmc := l } } : State).showQueues

/-- What memory holds behind the caches. -/
def State.byteBelow (s : State) (a : Nat) : Byte := match s.memory.stale.find? (fun e => e.1 == a) with | some e => e.2 | none => s.byteAt a

/-- R272: a scrub reads its line with the check bytes: corrected, or marked and logged; a line already marked counts as an uncorrectable
read. -/
def State.dmcScrubLine (s : State) (l word : Nat) (up : List Nat) : State :=
  let s1 := s.touchCheck l false
  if s1.marked l then s1.countUe 7 l 1 else s1.memLine 7 l 1 word up

/-- R256, R267, R283: a request is performed. -/
def State.dmcPerform (s : State) (r : DmcRequest) : State :=
  match r.scrub with
  | some (word, up) => s.dmcScrubLine (lineOf r.addr) word up
  | none =>
    if r.data.isEmpty then
      let s0 := s.touchCheck (lineOf r.addr) false
      if s0.marked r.addr then (s0.countPoison r.addr).respond true 0#64
      else
        let s1 := s0.memLine 7 (lineOf r.addr) 0 0 []
        if s1.marked r.addr then s1.respond true 0#64
        else s1.respond false (BitVec.ofNat 64 (leNat ((List.range (min 8 r.len)).map (fun i => s1.byteBelow (r.addr + i)))))
    else
      let (s1, e) := s.targetWrite r.addr r.data
      s1.respond (decide (e ≠ .ok)) 0#64

/-- R268: the buffer at position `i` is served: its row is open from then on. -/
def State.dmcServeAt (s : State) (i : Nat) : State :=
  match s.memory.dmc[i]? with
  | none => s
  | some r => ((s.setDmc (s.memory.dmc.eraseIdx i)).openRow (rowOf r.addr)).dmcPerform r

/-- R268, R280: the requests accepted for line `l` are performed, in order, before a later access of the line. -/
def State.serveLine (s : State) (l : Nat) : State :=
  forEach s.memory.dmc.length (fun _ t =>
    match t.memory.dmc.findIdx? (fun r => lineOf r.addr == l) with
    | some i => { t.dmcServeAt i with resp := t.resp }
    | none => t) s

end Sys2Proof.Machine
end

