-- ==== Sys2Proof/Machine/CacheOps.lean ====
section
/-! DEFINITION. The cache hierarchy as shared operations (R253 to R264): lines and their MESI states, the bytes behind a
dirty line, write-backs, snoops, allocation under L3 partitions, and how harts, Heddle and the other initiators read and
write coherent memory. Data are always taken from the coherent view; a line only says where it is held. -/
namespace Sys2Proof.Machine

/-- R197, Table Harts-3: cacheable memory. -/
def State.cacheable (s : State) (a : Nat) : Bool :=
  decide (a < 0x20000) || inBaseCamp a || inMram a || decide (0x20000000 ≤ a ∧ a < 0x30000000) || s.inDram a

/-- The copy of line `l` in array `c`. -/
def State.lineIn (s : State) (c : CacheId) (l : Nat) : Option CacheLine :=
  s.memory.lines.find? (fun x => decide (x.cache = c ∧ x.line = l))

/-- R215: the array that an array mirrors: in Guarded mode the checker's L1 and L2 hold what those of its main hart hold. -/
def State.mirrored (s : State) (c : CacheId) : CacheId :=
  match c with
  | .l1i h => .l1i (s.mainOf h)
  | .l1d h => .l1d (s.mainOf h)
  | .l2 h => .l2 (s.mainOf h)
  | .l3 => .l3

/-- R215, R253: the copy of line `l` that array `c` holds, a checker's arrays included. -/
def State.arrayLine (s : State) (c : CacheId) (l : Nat) : Option CacheLine := s.lineIn (s.mirrored c) l

/-- Replace the lines held. -/
def State.setLines (s : State) (ls : List CacheLine) : State := { s with memory := { s.memory with lines := ls } }

/-- Change the copies of a line. -/
def State.mapLine (s : State) (l : Nat) (f : CacheLine → CacheLine) : State :=
  s.setLines (s.memory.lines.map (fun x => if x.line = l then f x else x))

/-- A copy enters an array. A line new to the caches finds the requests performed that the DMC had accepted for it (R268), and takes the marks
of the memory it comes from (R256). -/
def State.addLine (s : State) (x : CacheLine) : State :=
  let s0 := if s.lineHeld x.line then s else s.serveLine x.line
  let s1 := if s0.lineHeld x.line then s0 else s0.setHeldMarks x.line ((wordsOf x.line 64).filter s0.badBelow)
  s1.setLines (s1.memory.lines ++ [x])

/-- Drop a copy: with the last one the line's marks in the caches go. -/
def State.dropLine (s : State) (c : CacheId) (l : Nat) : State :=
  let s1 := (s.leaveArray c l false).setLines (s.memory.lines.filter (fun x => ! decide (x.cache = c ∧ x.line = l)))
  if s1.lineHeld l then s1 else s1.setHeldMarks l []

/-- Drop every copy of a line. -/
def State.dropAll (s : State) (l : Nat) : State :=
  ((s.setFlips (s.memory.flips.filter (fun f => ! decide (f.array ≤ 3 ∧ lineOf f.addr = l)))).setLines
    (s.memory.lines.filter (fun x => x.line != l))).setHeldMarks l []

/-- A dirty copy of the line exists. -/
def State.lineDirty (s : State) (l : Nat) : Bool := s.memory.lines.any (fun x => x.line == l && x.dirty)

/-- Bytes of the mask ROM, base camp, MRAM and DRAM come from memory. A line of the XIP window comes from the flash (R148), from
which a bank A outside its windows reads 0 (R71), or is the older copy that a cache still holds after the flash, its bank or
OSPI_XIP has changed (R150, R202). -/
def State.byteSeen (s : State) (a : Nat) : Byte :=
  if 0x20000000 ≤ a ∧ a < 0x30000000 then
    match (if s.lineHeld (lineOf a) then s.memory.stale.find? (fun e => e.1 == a) else none) with
    | some e => e.2
    | none => if s.bankLive 0 then SMap.get (fun _ => 0xFF#8) s.boot.flash (s.xipOffset a) else 0#8
  else s.byteAt a

/-- Remember the bytes that memory behind the caches still holds, before `n` bytes from `a` change in a cache. -/
def State.noteStale (s : State) (a n : Nat) : State :=
  let m := (List.range n).foldl (fun (m : List (Nat × Byte)) i =>
    if m.any (fun e => e.1 == a + i) then m else SMap.insert m (a + i) (s.byteSeen (a + i))) s.memory.stale
  { s with memory := { s.memory with stale := m } }

/-- The older bytes of a line. -/
def State.staleOf (s : State) (l : Nat) : List (Nat × Byte) := s.memory.stale.filter (fun e => decide (l ≤ e.1 ∧ e.1 < l + 64))

/-- Forget the older bytes of a line: memory behind the caches now holds the newer ones. -/
def State.dropStale (s : State) (l : Nat) : State :=
  { s with memory := { s.memory with stale := s.memory.stale.filter (fun e => ! decide (l ≤ e.1 ∧ e.1 < l + 64)) } }

/-- The flash is about to change: the lines of the XIP window that caches hold keep the bytes they have (R150). -/
def State.noteXip (s : State) : State :=
  forAll (s.memory.lines.filter (fun x => decide (0x20000000 ≤ x.line ∧ x.line < 0x30000000))) (fun x t => t.noteStale x.line 64) s

/-- R148: a line of the XIP window that no cache holds is about to be filled: it is read from the flash. -/
def State.freshXip (s : State) (l : Nat) : State := if inXip l && ! s.lineHeld l then (s.xipFetch l).dropStale l else s

/-- Dirty data of a line are lost: the older bytes are the memory again. -/
def State.discardLine (s : State) (l : Nat) : State :=
  (forAll (s.staleOf l) (fun e t => t.putMem e.1 [e.2]) s).dropStale l

/-- R267, R268: a line of DRAM that no cache holds is read, behind the requests accepted for it: its check block too. -/
def State.readChecks (s : State) (l : Nat) : State := if s.inDram l && ! s.lineHeld l then (s.serveLine l).touchCheck l false else s

/-- R277: a refused write into the protected range raises WP_VIOLATION. -/
def State.noteRefused (s : State) (a n : Nat) : State :=
  s.when (! s.power.mramClosed && (s.writeProtected a || s.writeProtected (a + n - 1)))
    (fun t => t.raise P.MRAMC E.MRAMC_WP_VIOLATION)

/-- R256: a whole line has been written to its memory: codewords anew, and marked where the line carries marks. -/
def State.writtenLine (s : State) (l : Nat) : State :=
  let ws := wordsOf l 64
  let bad := ws.any (fun w => s.memory.linePoison.contains w)
  let s1 : State := { s with memory := { s.memory with
    flips := s.memory.flips.filter (fun f => ! f.inWords ws), poison := s.memory.poison.filter (fun w => ! ws.contains w) } }
  if bad then s1.markLine l else s1

/-- R275, R286: the 8 words of a written-back MRAM line enter the queue; a refused one is lost with its dirty data. -/
def State.mramLine (s : State) (l : Nat) : State :=
  if s.mramRefuses l 64 then
    let s1 := (s.noteRefused l 64).discardLine l
    s1.setHeldMarks l ((wordsOf l 64).filter s1.badBelow)
  else
  let st := s.staleOf l
  ((forAll (wordsOf l 64) (fun w t =>
    let old := (List.range 8).map (fun i => match st.find? (fun e => e.1 == w + i) with | some e => e.2 | none => t.byteAt (w + i))
    t.mramPush ⟨w, BitVec.ofNat 64 (leNat old), BitVec.ofNat 64 (t.numAt w 8)⟩) (s.writtenLine l)).dropStale l).touchSnapshot l 64

/-- A dirty line is written back to its memory and stays held clean; a poisoned one is written onward poisoned (R255). -/
def State.writeBack (s : State) (l : Nat) : State :=
  if ! s.lineDirty l then s else
  let sv := s.serveLine l
  let s0 := forAll (sv.memory.lines.filter (fun x => x.line == l && x.dirty)) (fun x t => t.leaveArray x.cache l true) sv
  let s1 := s0.mapLine l (fun x => { x with dirty := false })
  if inMram l then s1.mramLine l
  else ((s1.writtenLine l).dropStale l).when (s1.inDram l) (fun t => t.touchCheck l true)

/-- Sets of an array: 128, 128, 512 and 2 × 1,024 (Table Memory-1). -/
def cacheSets (c : CacheId) : Nat := match c with | .l1i _ => 128 | .l1d _ => 128 | .l2 _ => 512 | .l3 => 2048

/-- Ways of an array. -/
def cacheWays (c : CacheId) : Nat := match c with | .l1i _ => 4 | .l1d _ => 4 | .l2 _ => 8 | .l3 => 16

/-- R263: the allocation mask of L3 partition `p`. -/
def State.partMask (s : State) (p : Nat) : Nat := s.fld (F.L3_PART_MASK_WAYS p)

/-- R263: the L3 partition of physical hart `h`. -/
def State.hartPart (s : State) (h : Nat) : Nat :=
  let n := s.mainOf h
  if n = 0 then s.fld F.L3_HART_PART_HART_0 else if n = 1 then s.fld F.L3_HART_PART_HART_1
  else if n = 2 then s.fld F.L3_HART_PART_HART_2 else s.fld F.L3_HART_PART_HART_3

/-- The copy in an array is dirty. -/
def State.dirtyIn (s : State) (c : CacheId) (l : Nat) : Bool := match s.lineIn c l with | some x => x.dirty | none => false

/-- The L1 copies of a line of hart `h` leave; a dirty one passes its data to the L2 copy (R253: L1s are held in the L2). -/
def State.dropL1 (s : State) (h l : Nat) : State :=
  let d := s.dirtyIn (.l1d h) l
  let s1 := ((s.when d (fun t => (t.leaveArray (.l1d h) l true).rewritten (.l2 h) l)).dropLine (.l1d h) l).dropLine (.l1i h) l
  s1.mapLine l (fun x => if x.cache = .l2 h ∧ d then { x with dirty := true } else x)

/-- The dirty data of the L2 copy of hart `h` go to the L3 copy. -/
def State.passToL3 (s : State) (h l : Nat) : State :=
  if ! s.dirtyIn (.l2 h) l then s else
  ((s.leaveArray (.l2 h) l true).rewritten .l3 l).mapLine l (fun x => { x with dirty := decide (x.cache = .l3) })

/-- A line leaves the L2 of hart `h` for a snoop: dirty data go to the L3 copy, or to memory. -/
def State.recallL2 (s : State) (h l : Nat) : State :=
  let s1 := s.dropL1 h l
  let s2 := if (s1.lineIn .l3 l).isSome then s1.passToL3 h l else if s1.dirtyIn (.l2 h) l then s1.writeBack l else s1
  s2.dropLine (.l2 h) l

/-- A line leaves the L3: dirty data are written back. -/
def State.dropL3 (s : State) (l : Nat) : State := ((if s.dirtyIn .l3 l then s.writeBack l else s)).dropLine .l3 l

/-- Put a line into an array, within the ways of `mask`; `leave` is what the line does whose way is taken. The way a full set gives up is
not stated: a free value picks it; the set is picked by the low bits of the line's number (DESIGN CHOICE, notes/assumptions/12.md). An empty mask allocates nothing (R263). -/
def State.placeLine (s : State) (leave : Nat → State → State) (c : CacheId) (l mask : Nat) (st : Mesi) (dirty : Bool) : State :=
  let ws := (List.range (cacheWays c)).filter (fun w => mask.testBit w)
  let inSet := s.memory.lines.filter (fun x => decide (x.cache = c) && x.line / 64 % cacheSets c == l / 64 % cacheSets c)
  match ws.find? (fun w => ! inSet.any (fun x => x.way == w)) with
  | some w => s.addLine ⟨c, l, st, dirty, w⟩
  | none =>
    if ws.isEmpty then s else
    let (v, s1) := s.takeFree
    let w := ws.getD (v.toNat % ws.length) 0
    let s2 := match inSet.find? (fun x => x.way == w) with | some x => leave x.line s1 | none => s1
    s2.addLine ⟨c, l, st, dirty, w⟩

/-- A line enters the L3. -/
def State.allocL3 (s : State) (l mask : Nat) (st : Mesi) (dirty : Bool) : State := s.placeLine (fun v t => t.dropL3 v) .l3 l mask st dirty

/-- R253: the L2 of hart `h` gives up a line: dirty data go to the L3, which allocates the line in the hart's partition, or to memory
where that partition has no way. -/
def State.evictL2 (s : State) (h l : Nat) : State :=
  let s1 := s.dropL1 h l
  let mask := s1.partMask (s1.hartPart h)
  let s2 :=
    if ! s1.dirtyIn (.l2 h) l then s1
    else if (s1.lineIn .l3 l).isSome then s1.passToL3 h l
    else if mask = 0 then s1.writeBack l
    else ((s1.leaveArray (.l2 h) l true).mapLine l (fun x => { x with dirty := false })).allocL3 l mask .m true
  s2.dropLine (.l2 h) l

/-- Put a line into an array. -/
def State.allocate (s : State) (c : CacheId) (l mask : Nat) (st : Mesi) (dirty : Bool) : State :=
  match c with
  | .l3 => s.allocL3 l mask st dirty
  | .l2 h => s.placeLine (fun v t => t.evictL2 h v) c l mask st dirty
  | .l1d h => s.placeLine (fun v t => t.dropL1 h v) c l mask st dirty
  | .l1i h => s.placeLine (fun v t => t.dropLine (.l1i h) v) c l mask st dirty

/-- A line leaves an array, its dirty data going home. -/
def State.evict (s : State) (c : CacheId) (l : Nat) : State :=
  match c with
  | .l1i h => s.dropLine (.l1i h) l
  | .l1d h => s.dropL1 h l
  | .l2 h => s.recallL2 h l
  | .l3 => s.dropL3 l

/-- R257: snoop kinds of Table Loom-2: 0 SHARE, 1 INVAL, 2 BACK_INVAL. A SHARE takes dirty data home and leaves the copies
shared; the others take dirty data home and drop the copies. Each L2 that holds the line receives it and counts it (Table Counting-3).
`except` keeps the requester's own copies. -/
def State.snoop (s : State) (kind l : Nat) (except : Option Nat) : State :=
  forEach 4 (fun h t =>
    if except = some h || (t.lineIn (.l2 h) l).isNone then t else
    let t1 := t.countHart h (if kind = 2 then 0x18 else 0x17)
    if kind = 0 then
      let t2 := (t1.dropL1 h l).mapLine l (fun x => if x.cache = .l2 h then { x with state := .s } else x)
      if (t2.lineIn .l3 l).isSome then t2.passToL3 h l else t2.writeBack l
    else t1.recallL2 h l) s

/-- R258: the lines that the snoop filter records in a set: those that an L2 holds. The low bits of a line's number within its slice pick
the set (DESIGN CHOICE, notes/assumptions/12.md). -/
def State.filterLines (s : State) (set : Nat) : List Nat :=
  s.memory.lines.foldl (fun acc x =>
    if x.line / 64 % 2048 == set && (match x.cache with | .l2 _ => true | _ => false) && ! acc.contains x.line then acc ++ [x.line] else acc) []

/-- R258: a line new to the L2s needs an entry of its snoop-filter set, of 1,024 sets of 16 ways a slice: a full set back-invalidates a
line, which a free value picks (notes/assumptions/12.md). -/
def State.filterRoom (s : State) (l : Nat) : State :=
  let ls := s.filterLines (l / 64 % 2048)
  if ls.contains l || decide (ls.length < 16) then s else
  let (v, s1) := s.takeFree
  s1.snoop 2 (ls.getD (v.toNat % ls.length) 0) none

/-- The L2 of hart `h` satisfies a demand by itself: it holds the line, and as the only copy where `excl` asks for that. -/
def State.ownL2 (s : State) (h l : Nat) (excl : Bool) : Bool :=
  match s.lineIn (.l2 h) l with | some x => ! excl || decide (x.state ≠ .s) | none => false

/-- R253, R257, R263, R325: a demand of hart `h` brings a line into its L2, and into the L3 within its partition; `excl` asks for
the only copy. The home snoops the other L2s for a demand that the own L2 does not satisfy. -/
def State.hartFill (s : State) (h l : Nat) (excl : Bool) : State :=
  let s1 := if s.ownL2 h l excl then s else (s.freshXip l).snoop (if excl then 1 else 0) l (some h)
  let s2 := match s1.lineIn .l3 l with
    | some _ => s1
    | none => if (s1.lineIn (.l2 h) l).isSome then s1 else s1.allocL3 l (s1.partMask (s1.hartPart h)) .e false
  match s2.lineIn (.l2 h) l with
  | some x => if excl ∧ x.state = .s then s2.mapLine l (fun y => if y.cache = .l2 h then { y with state := .e } else y) else s2
  | none =>
    let s3 := s2.filterRoom l
    let others := (List.range 4).any (fun k => k != h && (s3.lineIn (.l2 k) l).isSome)
    s3.allocate (.l2 h) l 0xFF (if others then .s else .e) false

/-- A line also enters an L1 of the hart. -/
def State.hartL1 (s : State) (h l : Nat) (fetch : Bool) : State :=
  let c := if fetch then CacheId.l1i h else CacheId.l1d h
  match s.lineIn c l with
  | some _ => s
  | none => s.allocate c l 0xF .s false

/-- R253, R257: a cached store of hart `h`: the only copy in an L2 is its own, in state M and dirty; one in the L3 is older. -/
def State.hartStore (s : State) (h a : Nat) (bs : List Byte) : State :=
  let l := lineOf a
  let s1 := ((s.hartFill h l true).hartL1 h l false).noteStale a bs.length
  (s1.putMem a bs).mapLine l (fun x =>
    if x.cache = .l1d h ∨ x.cache = .l2 h then { x with state := .m, dirty := true } else { x with dirty := false })

/-- R202: cbo.zero of hart `h` in cacheable memory: a full-line write, which needs no read and leaves no mark. -/
def State.hartZero (s : State) (h l : Nat) : State :=
  (((s.hartStore h l (List.replicate 64 0#8)).leaveArray (.l1d h) l false).leaveArray (.l2 h) l false).setHeldMarks l []

end Sys2Proof.Machine
end

