-- ==== Sys2Proof/Machine/EccOps.lean ====
section
/-! DEFINITION. Reads of stored codewords (R253 to R256, R272, R279, R563, R581, R590): what a read that meets wrong bits does in each
array, and which flips an access meets. Array codes are those of R581, and 10 for the tags of an L2. -/
namespace Sys2Proof.Machine

/-- The cache an array code and unit name. -/
def eccCache (array unit : Nat) : CacheId :=
  if array = 0 then .l1i unit else if array = 1 then .l1d unit else if array = 2 then .l2 unit else .l3

/-- R255: an uncorrectable tag, directory or snoop-filter entry: the lines of its set are written back and leave. -/
def State.dropSet (s : State) (array unit l : Nat) : State :=
  let set (c : CacheId) : List Nat :=
    (s.memory.lines.filter (fun x => x.cache == c && x.line / 64 % cacheSets c == l / 64 % cacheSets c)).map (fun x => x.line)
  if array = 10 then forAll (set (.l2 (s.mainOf unit))) (fun x t => t.recallL2 (s.mainOf unit) x) s
  else if array = 6 then forAll (s.filterLines (l / 64 % 2048)) (fun x t => t.snoop 2 x none) s
  else forAll (set .l3) (fun x t => t.dropL3 x) s

/-- Table Memory-2, R256: an uncorrectable codeword of a cache. -/
def State.eccUncorrectable (s : State) (array unit w source : Nat) (inj : Bool) : State :=
  let l := lineOf w
  let c := s.mirrored (eccCache array unit)
  if tagArray array then (s.dropSet array unit l).eccReport array unit w source inj
  else if s.dirtyIn c l then ((s.markHeld l).evict c l).eccReport array unit w source inj else s.evict c l

/-- A read of one codeword, with an upset's bits beside those flipped in storage; `source` is SOURCE of DMC_ECC_ADDR. A checker's array holds
the lines that its main hart's does (R215). -/
def State.eccWord (s : State) (array unit w source : Nat) (up : List Nat) : State :=
  if 7 ≤ array ∧ array ≤ 9 then s.memWord array w source up else
  let bits := s.wrongBits array unit w up
  let inj := (s.flipsAt array unit w).any (fun f => f.scree)
  let s1 := s.dropFlips array unit w
  if bits.isEmpty then s1
  else if array = 0 then s1.dropLine (s.mirrored (.l1i unit)) (lineOf w)
  else if array ≤ 3 ∧ (s.arrayLine (eccCache array unit) (lineOf w)).isNone then s1
  else s1.secDed array unit w source inj bits (fun t => t.eccUncorrectable array unit w source inj)

/-- A read of every codeword of a line, the upset lying in word `word` of it. -/
def State.eccLine (s : State) (array unit l source word : Nat) (up : List Nat) : State :=
  if tagArray array then s.eccWord array unit l source up
  else if array = 0 then forEach 16 (fun i t => t.eccWord 0 unit (l + 4 * i) source (if i / 2 = word then up else [])) s
  else forEach 8 (fun i t => t.eccWord array unit (l + 8 * i) source (if i = word then up else [])) s

/-- R265: the physical address of channel-local address `x` of channel `c`. -/
def dmcAddr (c x : Nat) : Nat := 0x80000000 + x / 256 * 512 + c * 256 + x % 256

/-- R266, R267: an uncorrectable check block poisons the 8 lines it serves. -/
def State.checkBlockLost (s : State) (l : Nat) : State :=
  let c := dmcChannel l
  let base := dmcLocal l / 512 * 512
  ((forEach 8 (fun i t => t.markLine (dmcAddr c (base + 64 * i))) s).countUe 7 l 2).signal (eccInput 7 0 l 2 false)

/-- A stored flip that an access to line `l` by hart `who` (none: another initiator) meets. -/
def State.flipMet (s : State) (who : Option Nat) (fetch : Bool) (l : Nat) (f : EccFlip) : Bool :=
  let own := who.map s.mainOf == some (s.mainOf f.unit)
  let main := s.mainOf f.unit
  let missesL2 : Bool := match who with
    | some h => (s.lineIn (.l2 h) l).isNone
    | none => true
  if f.array = 0 then own && fetch && lineOf f.addr == l
  else if f.array = 1 then lineOf f.addr == l && (if own then ! fetch else s.dirtyIn (.l1d main) l)
  else if f.array = 2 then
    lineOf f.addr == l && (if own then (s.lineIn (if fetch then .l1i main else .l1d main) l).isNone else s.dirtyIn (.l2 main) l)
  else if f.array = 3 then lineOf f.addr == l && missesL2
  else if f.array ≤ 6 then missesL2 && f.addr / 64 % 2048 == l / 64 % 2048
  else if f.array ≤ 9 then lineOf f.addr == l && ! s.lineHeld l
  else false

/-- An access meets the flips stored where it reads. -/
def State.eccAccess (s : State) (who : Option Nat) (fetch : Bool) (a : Nat) : State :=
  forAll (codewordsOf (s.memory.flips.filter (s.flipMet who fetch (lineOf a)))) (fun k t => t.eccWord k.1 k.2.1 k.2.2 0 []) s

/-- R255, R267: an access reads the arrays and the memory it reaches: stored flips are met, and a DRAM line's check block is read. -/
def State.readsArrays (s : State) (who : Option Nat) (fetch : Bool) (a : Nat) : State :=
  (if s.memory.flips.isEmpty then s else s.eccAccess who fetch a).readChecks (lineOf a)

end Sys2Proof.Machine
end

