-- ==== Sys2Proof/Machine/Coherent.lean ====
section
/-! DEFINITION. How initiators that hold no lines of their own (Heddle, the debug module, Tether) read and write memory (R256,
R259, R277, R283, R286). -/
namespace Sys2Proof.Machine

/-- A write of an initiator that holds no lines (Heddle, the debug module, Tether): R257, R259, R277, R283, R286. `part` is the
L3 partition it allocates in, none when it does not allocate. A full-line write invalidates every copy and then allocates or goes to
memory; a partial one merges in the L3 where that holds the line or allocates it, and else at its target. -/
def State.coherentWrite (s : State) (a : Nat) (bs : List Byte) (part : Option Nat) : State × LoomEnd :=
  let n := bs.length
  let l := lineOf a
  if s.mramRefuses a n then (s.noteRefused a n, .busError)
  else
    let whole := decide (a = l ∧ n = 64)
    let mask := match part with | some p => s.partMask p | none => 0
    let s1 := s.snoop 1 l none
    if mask = 0 && (whole || (s1.lineIn .l3 l).isNone) then ((s1.dropLine .l3 l).serveLine l).targetWrite a bs
    else
      let s2 := if whole then s1.dropLine .l3 l else s1.readsArrays none false a
      let s3 := if (s2.lineIn .l3 l).isSome then s2 else s2.allocL3 l mask .m false
      let s4 := ((s3.noteStale a n).putMem a bs).mapLine l (fun x => { x with state := .m, dirty := true })
      (s4.setHeldMarks l (s4.memory.linePoison.filter (fun w => lineOf w == l && ! s4.clearsPoison a n w)), .ok)

/-- R27, R29: memory that a read on the Loom reaches: main memory, the mask ROM, and the execute-in-place window where it answers. -/
def State.busMemory (s : State) (a n : Nat) : Bool := s.inMain a n || decide (a + n ≤ 0x20000) || (inXip a && s.xipReadable a n)

/-- A read of such an initiator: the latest data, with poison of the words touched (R256, R259, R291). -/
def State.coherentRead (s : State) (a n : Nat) : State × LoomEnd × List Byte :=
  let s0 := (s.when (inXip a && ! s.lineHeld (lineOf a)) (fun t => t.xipFetch (lineOf a))).readsArrays none false a
  let bs := (List.range n).map (fun i => s0.byteSeen (a + i))
  let s1 := if inMram a || s0.inDram a || inBaseCamp a then s0.snoop 0 (lineOf a) none else s0
  let bad := s.anyPoison a n
  (s1.when (bad && ! s.lineHeld (lineOf a)) (fun t => t.countPoison a), if bad || s1.anyPoison a n then .poison else .ok, bs)

end Sys2Proof.Machine
end

