-- ==== Sys2Proof/Machine/LoomPackets.lean ====
section
/-! DEFINITION. Planes and packets (R289 to R292): the header words of Table Loom-2 of a transaction, the flits of its packets, and the
routers they cross. -/
namespace Sys2Proof.Machine

/-! ### Headers -/

/-- REQ flit 0. -/
def LoomTxn.req0 (t : LoomTxn) : Nat :=
  t.target + 2 ^ 4 * t.init + 2 ^ 8 * t.prio + 2 ^ 10 * b2n t.guar + 2 ^ 11 * b2n t.priv + 2 ^ 12 * t.op + 2 ^ 15 * t.txid + 2 ^ 24 * t.addr

/-- REQ flit 1: RES is 0 without GUAR. -/
def LoomTxn.req1 (t : LoomTxn) : Nat :=
  t.seq + 2 ^ 8 * t.ctx + 2 ^ 16 * (if t.guar then t.res.getD 0 else 0) + 2 ^ 22 * b2n t.pref + 2 ^ 24 * t.len

/-- R291: TYPE of the response to OP with a STATUS: a read answers READ_DATA, or READ_ERROR when it fails. -/
def responseType (op status : Nat) : Nat := if op ≤ 2 then (if status = 1 then 1 else 4) else if op = 5 then 3 else 0

/-- R291: types 0–3 travel on RSP, 4 and 5 on DAT. -/
def responsePlane (type : Nat) : Nat := if type ≤ 3 then 1 else 3

/-- The response header; [33:32] say which 32-byte halves are poisoned and belong to DAT alone. -/
def LoomTxn.response (t : LoomTxn) (status halves : Nat) : Nat :=
  let type := responseType t.op status
  t.init + 2 ^ 4 * t.target + 2 ^ 8 * t.txid + 2 ^ 14 * type + 2 ^ 17 * status + 2 ^ 19 * t.ctx + 2 ^ 27 * (t.seq % 32) +
    (if type = 4 then 2 ^ 32 * halves else 0)

/-- The SNP flit of home `home` to the L2 at NI `l2`. -/
def snoopFlit (l2 home txid kind requester line : Nat) : Nat :=
  l2 + 2 ^ 4 * home + 2 ^ 8 * txid + 2 ^ 14 * kind + 2 ^ 16 * requester + 2 ^ 30 * (line / 64)

/-! ### Flits -/

/-- R290: the data flits of a write: one for each 8-byte word touched; of bytes outside [ADDR, ADDR + LEN) nothing is taken. -/
def LoomTxn.dataFlits (t : LoomTxn) : List (List (Option Byte)) :=
  if t.data.isEmpty then [] else
  (List.range ((t.addr + t.data.length - 1) / 8 - t.addr / 8 + 1)).map (fun i => (List.range 8).map (fun b =>
    let a := (t.addr / 8 + i) * 8 + b
    if a < t.addr then none else t.data[a - t.addr]?))

/-- Table Loom-1: length of a request packet. -/
def LoomTxn.reqFlits (t : LoomTxn) : Nat := 2 + t.dataFlits.length

/-- Table Loom-1, R290: length of a response packet: read data in 32-byte flits. -/
def LoomTxn.responseFlits (t : LoomTxn) (status : Nat) : Nat :=
  if responseType t.op status = 4 then 1 + ((t.addr + t.len) / 32 - t.addr / 32 + 1) else 1

/-! ### What may cross a plane -/

/-- The answers of an L2 to a home's snoop: SNOOP_ACK on RSP, SNOOP_DATA on DAT. -/
def snoopAnswer (type : Nat) : Bool := type == 2 || type == 5

/-- Tables Loom-1, Loom-2: the header of a packet of `flits` flits on a plane: no reserved code, reserved bits 0, an L2 and a home at the ends of
a snoop and of its answer, and a length that the plane carries. -/
def headLegal (plane head flit1 flits : Nat) : Bool :=
  let f (lo w : Nat) : Nat := head / 2 ^ lo % 2 ^ w
  let home (n : Nat) : Bool := n == 4 || n == 5
  if plane = 0 then decide (f 12 3 ≤ 5 ∧ f 21 3 = 0 ∧ flit1 / 2 ^ 23 % 2 = 0 ∧ 2 ≤ flits ∧ flits ≤ 10) && (head.testBit 10 || flit1 / 2 ^ 16 % 64 == 0)
  else if plane = 2 then
    decide (f 0 4 ≤ 3 ∧ f 14 2 ≤ 2 ∧ flits = 1 ∧ head = snoopFlit (f 0 4) (f 4 4) (f 8 6) (f 14 2) (f 16 4) (64 * f 30 34)) && home (f 4 4)
  else
    decide (f 14 3 ≤ 5 ∧ responsePlane (f 14 3) = plane ∧ f 17 2 ≤ 2 ∧ 1 ≤ flits ∧ flits ≤ (if plane = 1 then 1 else 3)) &&
      (! snoopAnswer (f 14 3) || (home (f 0 4) && decide (f 4 4 ≤ 3)))

/-! ### Routes -/

/-- Fuel and steps of an XY route: links as router and port (R292, R333). -/
def xyPath : Nat → Nat → Nat → List (Nat × Nat)
  | 0, _, _ => []
  | f + 1, a, b =>
    if a % 4 < b % 4 then (a, 1) :: xyPath f (a + 1) b
    else if b % 4 < a % 4 then (a, 3) :: xyPath f (a - 1) b
    else if a / 4 < b / 4 then (a, 2) :: xyPath f (a + 4) b
    else if b / 4 < a / 4 then (a, 0) :: xyPath f (a - 4) b
    else []

/-- The links from one NI to another. -/
def niPath (a b : Nat) : List (Nat × Nat) := xyPath 6 (niRouter a) (niRouter b)

/-- The routers from one NI to another. -/
def niRouters (a b : Nat) : List Nat := (niPath a b).map (fun l => l.1) ++ [niRouter b]

/-- R292: a packet of a transaction on a plane crosses a router: its request, its response, or a snoop of the home it went to and the L2's
answer. -/
def LoomTxn.crosses (t : LoomTxn) (plane router : Nat) : Bool :=
  let snooped (f : Nat → List Nat) : Bool := (t.target == 4 || t.target == 5) && (List.range 4).any (fun h => (f h).contains router)
  if plane = 0 then (niRouters t.init t.target).contains router
  else if plane = 2 then snooped (fun h => niRouters t.target h)
  else (niRouters t.target t.init).contains router || snooped (fun h => niRouters h t.target)

end Sys2Proof.Machine
end

