-- ==== Sys2Proof/Machine/LoomOps.lean ====
section
/-! DEFINITION. The Loom as shared operations (R289 to R321): tokens, injection, the end of a transaction with its
statistics, reservations and picks, and the checks of a table image. -/
namespace Sys2Proof.Machine

/-! ### Reservation entries -/

/-- Fields of the first 8 bytes of a reservation entry (Table Loom-6). -/
def resValid (w : Nat) : Bool := w.testBit 0
/-- PROTECT. -/
def resProtect (w : Nat) : Bool := w.testBit 1
/-- DRAM. -/
def resDram (w : Nat) : Bool := w.testBit 3
/-- INIT. -/
def resInit (w : Nat) : Nat := w / 2 ^ 4 % 16
/-- TARGET. -/
def resTarget (w : Nat) : Nat := w / 2 ^ 8 % 16
/-- PAIR. -/
def resPair (w : Nat) : Bool := w.testBit 12

/-- A word of the live table entry of reservation `r`. -/
def LoomTable.word (t : LoomTable) (r : Nat) : Nat := match AMap.get? t.res r with | some w => w.toNat | none => 0

/-! ### Tokens and transactions -/

/-- R321, R573: the initiator of an NI is clocked. -/
def State.niClocked (s : State) (i : Nat) : Bool :=
  s.fabricRuns &&
  (if i ≤ 3 then (s.hart i).running && ! (s.hart i).fenced && decide (s.fld F.PWR_STATE_CUR ≠ 2) && ! (s.guarded && i % 2 == 1)
   else if i = 8 then ! s.power.heddleStopped else true)

/-- Table Belay-7: the quota of an initiator towards a target that is in use. -/
def State.quotaInUse (s : State) (i t : Nat) : Nat :=
  let q := s.fld (F.LOOM_NI_TOKEN_QUOTA i t)
  if s.screeActs && s.flag F.SCREE_TOKEN_EN && decide (s.fld F.SCREE_TOKEN_INIT = i ∧ s.fld F.SCREE_TOKEN_TARGET = t ∧ 0 < q)
  then max (q - s.fld F.SCREE_TOKEN_WITHHOLD) 1 else q

/-- R294: `out` tokens of an initiator towards a target are in use. -/
def State.setTokens (s : State) (i t out : Nat) : State :=
  (s.setFld (F.LOOM_NI_TOKEN_OUT i t) out).setFld (F.LOOM_NI_TOKEN_HELD i t) (s.fld (F.LOOM_NI_TOKEN_QUOTA i t) - out)

/-- A new live quota. -/
def State.setQuota (s : State) (i t q : Nat) : State :=
  (s.setFld (F.LOOM_NI_TOKEN_QUOTA i t) q).setTokens i t (s.fld (F.LOOM_NI_TOKEN_OUT i t))

/-- Guaranteed transactions outstanding under reservation `r` towards target `t`. -/
def State.guarOut (s : State) (r t : Nat) : Nat := (s.loom.txns.filter (fun x => x.res == some r && x.target == t)).length

/-- The target of a live reservation. -/
def LoomTable.targetOf (t : LoomTable) (r : Nat) : Option Nat := (AMap.get? t.res r).map (fun w => resTarget w.toNat)

/-- R310: no initiator has more outstanding towards `t`, under a quota or under a reservation, than the live tables grant it. -/
def State.tokensFit (s : State) (t : Nat) : Bool :=
  (List.range 16).all (fun i => match AMap.get? s.loom.live.quota (16 * i + t) with
    | some q => decide (s.fld (F.LOOM_NI_TOKEN_OUT i t) ≤ q) | none => true) &&
  s.loom.txns.all (fun x => match x.res with
    | some r => x.target != t || decide (s.guarOut r t ≤ if s.loom.live.targetOf r = some t then s.fld (F.LOOM_RES_PICKS_G r) else 0)
    | none => true)

/-- The guaranteed tokens of reservation `r` in force (R310). -/
def State.guarTokens (s : State) (r : Nat) : Nat := SMap.get (fun _ => 0) s.loom.guar r

/-- R310: quotas and guaranteed tokens towards target `t` follow the live tables: a fall at once, a rise once no initiator has more
outstanding than they grant. -/
def State.settleQuota (s : State) (t : Nat) : State :=
  let ready := s.tokensFit t
  let s1 := forEach 16 (fun i u =>
    match AMap.get? s.loom.live.quota (16 * i + t) with
    | none => u
    | some q => if q ≤ u.fld (F.LOOM_NI_TOKEN_QUOTA i t) || ready then u.setQuota i t q else u) s
  forAll (s.loom.live.res.filter (fun e => resTarget e.2.toNat == t)) (fun e u =>
    let g := u.fld (F.LOOM_RES_PICKS_G e.1)
    if g ≤ u.guarTokens e.1 || ready then { u with loom := { u.loom with guar := SMap.put (fun _ => 0) u.loom.guar e.1 g } } else u) s1

/-- Take one token. -/
def State.takeToken (s : State) (i t : Nat) : Option State :=
  let out := s.fld (F.LOOM_NI_TOKEN_OUT i t)
  if s.quotaInUse i t ≤ out then none else some (s.setTokens i t (out + 1))

/-- Return one token. -/
def State.returnToken (s : State) (i t : Nat) : State := (s.setTokens i t (s.fld (F.LOOM_NI_TOKEN_OUT i t) - 1)).settleQuota t

/-- Tokens taken ahead of a prefetch read (R296). -/
def State.aheadOf (s : State) (i t : Nat) : Nat := SMap.get (fun _ => 0) s.loom.spec (16 * i + t)

/-- Set their number. -/
def State.setAhead (s : State) (i t n : Nat) : State :=
  { s with loom := { s.loom with spec := SMap.put (fun _ => 0) s.loom.spec (16 * i + t) n } }

/-- A transaction outstanding. -/
def State.txn (s : State) (i x : Nat) : Option LoomTxn := s.loom.txns.find? (fun t => t.init == i && t.txid == x)

/-- A free transaction number: each initiator has 64 (R294). -/
def State.txidFree (s : State) (i : Nat) : Option Nat := (List.range 64).find? (fun x => (s.txn i x).isNone)

/-- The key of SEQ counters: initiator, target, GUAR (R295). -/
def seqKey (i t : Nat) (guar : Bool) : Nat := 512 * i + 32 * t + b2n guar

/-- R295: a target sees a SEQ other than the one expected. -/
def State.seqGap (s : State) (i t : Nat) : State :=
  ((s.bumpSat (F.LOOM_NI_ERR_COUNT t 1) (F.LOOM_NI_ERR_SAT t 1)).raise (P.LOOM_NI t) E.LOOM_NI_SEQ_ERROR).signal (FaultInput.of 6 t 0 i)

/-- R295: request `q` arrives at its target. -/
def State.seqArrive (s : State) (i t q : Nat) (guar : Bool) : State :=
  let k := seqKey i t guar
  let s1 := if SMap.get (fun _ => 0) s.loom.seen k = q then s else s.seqGap i t
  { s1 with loom := { s1.loom with seen := SMap.put (fun _ => 0) s1.loom.seen k ((q + 1) % 256) } }

/-- Two transactions of one source, destination and GUAR value (R295). -/
def LoomTxn.pair (t u : LoomTxn) : Bool := decide (t.init = u.init ∧ t.target = u.target ∧ t.guar = u.guar)

/-- R295: a packet of `t` has reached its target, and so has every earlier one of its pair that no router discarded: none overtakes another. -/
def State.arrive (s : State) (t : LoomTxn) : State :=
  let due := ((s.loom.txns.takeWhile (fun u => ! (u.init == t.init && u.txid == t.txid))) ++ [t]).filter
    (fun u => u.pair t && ! u.arrived && ! u.lost)
  let s1 := forAll due (fun u r => r.seqArrive u.init u.target u.seq u.guar) s
  { s1 with loom := { s1.loom with txns := s1.loom.txns.map (fun u =>
      if due.any (fun d => d.init == u.init && d.txid == u.txid) then { u with arrived := true } else u) } }

/-- R295: a packet of `t` on a plane, arbitrated at `level`, raises the earlier packets of its pair on that plane to that level: requests sent
before it and still under way, or responses that wait and that came before it. -/
def State.liftEarlier (s : State) (plane : Nat) (t : LoomTxn) (level : Nat) : State :=
  let ts := s.loom.txns.takeWhile (fun u => ! (u.init == t.init && u.txid == t.txid))
  let ws := s.loom.waiting.takeWhile (fun w => ! (w.plane == plane && w.init == t.init && w.txid == t.txid))
  let sent (i x : Nat) : Bool := ts.any (fun u => u.init == i && u.txid == x && u.pair t && ! u.arrived)
  let answered (w : WaitingPacket) : Bool := ws.contains w && (match s.txn w.init w.txid with | some u => u.pair t | none => false)
  { s with loom := { s.loom with
      txns := s.loom.txns.map (fun u => if plane = 0 ∧ sent u.init u.txid ∧ u.level < level then { u with level := level } else u),
      waiting := s.loom.waiting.map (fun w =>
        if w.plane = plane ∧ w.level < level ∧ (if plane = 0 then sent w.init w.txid else answered w) then { w with level := level } else w) } }

/-- R290, R294, R295: a transaction whose token is taken is injected. Its TXID and SEQ are set here. -/
def State.inject (s : State) (t : LoomTxn) : State :=
  match s.txidFree t.init with
  | none => s
  | some x =>
    let k := seqKey t.init t.target t.guar
    let q := SMap.get (fun _ => 0) s.loom.sent k
    let s1 := s.liftEarlier 0 { t with txid := x } t.prio
    let s2 : State := { s1 with loom := { s1.loom with
      txns := s1.loom.txns ++ [{ t with txid := x, seq := q }], sent := SMap.put (fun _ => 0) s1.loom.sent k ((q + 1) % 256) } }
    let s3 := s2.setFld (F.LOOM_NI_OUTSTANDING_OUT t.init) (s2.fld (F.LOOM_NI_OUTSTANDING_OUT t.init) + 1)
    s3.setFld (F.LOOM_NI_OUTSTANDING_GUAR t.init) (s3.fld (F.LOOM_NI_OUTSTANDING_GUAR t.init) + b2n t.guar)

/-- The end of a transaction: its TXID is free and its token home. A transaction of a reservation holds a guaranteed token,
which its absence from the list frees (R304). -/
def State.dropTxn (s : State) (t : LoomTxn) : State :=
  let s1 : State := { s with loom := { s.loom with
    txns := s.loom.txns.filter (fun u => ! (u.init == t.init && u.txid == t.txid)),
    waiting := s.loom.waiting.filter (fun w => ! (w.init == t.init && w.txid == t.txid)) } }
  let s2 := s1.setFld (F.LOOM_NI_OUTSTANDING_OUT t.init) (s1.fld (F.LOOM_NI_OUTSTANDING_OUT t.init) - 1)
  let s3 := s2.setFld (F.LOOM_NI_OUTSTANDING_GUAR t.init) (s2.fld (F.LOOM_NI_OUTSTANDING_GUAR t.init) - b2n t.guar)
  match t.res with
  | some _ => s3.settleQuota t.target
  | none => s3.returnToken t.init t.target

/-- Change a transaction outstanding. -/
def State.modTxn (s : State) (i x : Nat) (f : LoomTxn → LoomTxn) : State :=
  { s with loom := { s.loom with txns := s.loom.txns.map (fun u => if u.init = i ∧ u.txid = x then f u else u) } }

/-! ### Statistics -/

/-- R322, R323, R341: an event counter of 48 bits counts `n` and notes a wrap in OF. -/
def State.count48 (s : State) (v of : Fld) (n : Nat) : State :=
  let x := s.fld v + n
  (s.setFld v x).when (decide (2 ^ 48 ≤ x)) (fun t => t.setFld of 1)

/-- An accumulator stays at its largest value with SAT set (R323). -/
def State.accumulate (s : State) (v sat : Fld) (n : Nat) : State :=
  let s1 := s.bumpBy v n
  s1.when (decide (s1.fld v = 2 ^ v.width - 1)) (fun t => t.setFld sat 1)

/-- R330: the histogram bin of a latency. -/
def histBin (shift base l : Nat) : Nat := if l < base then 0 else min 15 ((l - base) / 2 ^ shift + 1)

/-- R327: the filters of NI `n` pass a transaction with this peer. -/
def State.statPasses (s : State) (n role peer : Nat) (guar : Bool) (res : Option Nat) : Bool :=
  s.flag (F.LOOM_NI_STAT_CFG_EN n) && s.fld (F.LOOM_NI_STAT_CFG_ROLE n) == role &&
  (s.fld (F.LOOM_NI_STAT_CFG_PEER_MASK n)).testBit peer &&
  (match s.fld (F.LOOM_NI_STAT_CFG_GUAR_SEL n) with | 1 => guar | 2 => ! guar | _ => true) &&
  (! s.flag (F.LOOM_NI_STAT_CFG_RES_EN n) ||
    (let r := s.fld (F.LOOM_NI_STAT_CFG_RES n)
     match res with
     | some x => x == r || (x == r + 1 && (s.loom.live.word r).testBit 12)
     | none => false))

/-- R327 to R330: NI `n` counts a transaction that has ended after `l` cycles. -/
def State.statEnd (s : State) (n role peer : Nat) (t : LoomTxn) (ok : Bool) (l : Nat) : State :=
  if ! s.statPasses n role peer t.guar t.res then s else
  let wr := b2n (decide (3 ≤ t.op))
  let s1 := s.count48 (F.LOOM_NI_CNT_VALUE n wr) (F.LOOM_NI_CNT_OF n wr) 1
  let s2 := s1.when ok (fun u => u.count48 (F.LOOM_NI_CNT_VALUE n (2 + wr)) (F.LOOM_NI_CNT_OF n (2 + wr)) (t.len + 1))
  let op := s.fld (F.LOOM_NI_STAT_CFG_LAT_OP n)
  if op ≠ 2 ∧ op ≠ wr then s2 else
  let s3 := s2.count48 (F.LOOM_NI_CNT_VALUE n 4) (F.LOOM_NI_CNT_OF n 4) 1
  let s4 := s3.accumulate (F.LOOM_NI_CNT_5_LAT_SUM n) (F.LOOM_NI_CNT_5_SAT n) l
  let s5 := s4.accumulate (F.LOOM_NI_CNT_6_LAT_MAX n) (F.LOOM_NI_CNT_6_SAT n) (l - s4.fld (F.LOOM_NI_CNT_6_LAT_MAX n))
  let b := histBin (s.fld (F.LOOM_NI_STAT_CFG_HIST_SHIFT n)) (s.fld (F.LOOM_NI_STAT_CFG_HIST_BASE n)) l
  s5.accumulate (F.LOOM_NI_HIST_COUNT n b) (F.LOOM_NI_HIST_SAT n b) 1

/-- R331: every statistic of NI `n` is 0. -/
def State.statClear (s : State) (n : Nat) : State :=
  let s1 := forAll [0, 1, 2, 3, 4, 7] (fun k t => (t.setFld (F.LOOM_NI_CNT_VALUE n k) 0).setFld (F.LOOM_NI_CNT_OF n k) 0) s
  forEach 16 (fun k t => t.setReg (R.LOOM_NI_HIST n k) 0#64) ((s1.setReg (R.LOOM_NI_CNT_5 n) 0#64).setReg (R.LOOM_NI_CNT_6 n) 0#64)

/-- R317: an initiator NI gives up a transaction: counted, logged and reported. -/
def State.loomTimeout (s : State) (i t addr : Nat) : State :=
  let s1 := (s.bumpSat (F.LOOM_NI_ERR_COUNT i 0) (F.LOOM_NI_ERR_SAT i 0)).raise (P.LOOM_NI i) E.LOOM_NI_TIMEOUT
  let s2 := ((s1.bumpSat F.LOOM_TIMEOUT_COUNT F.LOOM_TIMEOUT_SAT).setFld F.LOOM_TIMEOUT_LAST_NI i).raise P.LOOM_CFG E.LOOM_CFG_TIMEOUT
  s2.signal { FaultInput.of 7 i addr t with cls := if (11 ≤ t ∧ t ≤ 13) ∨ i = 15 then 2 else 3 }

/-! ### Reservations and picks -/

/-- R308: the reservations a pick entry names. -/
def pickNames (w : Nat) : List Nat := (List.range 8).filterMap (fun k => if w.testBit (8 * k + 7) then some (w / 2 ^ (8 * k) % 64) else none)

/-- The valid reservations that own request pick `p`, in ascending order. -/
def LoomTable.owners (t : LoomTable) (p : Nat) : List Nat :=
  let ns := match AMap.get? t.picks p with | some w => pickNames w.toNat | none => []
  (List.range 64).filter (fun r => ns.contains r && resValid (t.word r))

/-- picks(r), ascending. -/
def LoomTable.picksOf (t : LoomTable) (r : Nat) : List Nat := (List.range 256).filter (fun p => (t.owners p).contains r)

/-- G(r): the most of these picks that lie in 11 consecutive ones, modulo 256. -/
def picksG (ps : List Nat) : Nat := ps.foldl (fun m p => max m (ps.filter (fun q => decide ((q + 256 - p) % 256 < 11))).length) 0

/-- R307, R403: the reservation a transaction travels under: of a pair, the one for its DMC channel; Heddle's own unpaired one also for the other
channel, as a fallback packet; none where the one named is not live for this initiator and target. -/
def State.resFor (s : State) (i t addr r : Nat) : Option Nat :=
  let r1 := if resPair (s.loom.live.word r) then r + dmcChannel addr else r
  let w := s.loom.live.word r1
  if ! resValid w || resInit w != i then none
  else if resDram w then (if s.inDram addr && (resTarget w == 6 + dmcChannel addr || i == 8) then some r1 else none)
  else if resTarget w = t then some r1 else none

/-- Transactions outstanding under reservation `r`. -/
def State.outRes (s : State) (r : Nat) : Nat := (s.loom.txns.filter (fun t => t.res == some r)).length

/-- The picks that have begun since reset, modulo 2^32. -/
def State.pickNow (s : State) : Nat := s.fld F.LOOM_ROUND_ROUND * 256 + s.fld F.LOOM_ROUND_PICK

/-- R300: how many picks ago a guaranteed transaction was injected. -/
def State.pickAge (s : State) (t : LoomTxn) : Nat := (s.pickNow + 2 ^ 32 - t.pick) % 2 ^ 32

/-- The transactions that wait for a pick of reservation `r`, oldest first (R320). -/
def State.queuedRes (s : State) (r : Nat) : List LoomTxn := SMap.get (fun _ => []) s.loom.queued r

/-- Replace them. -/
def State.setQueued (s : State) (r : Nat) (q : List LoomTxn) : State :=
  { s with loom := { s.loom with queued := SMap.put (fun _ => []) s.loom.queued r q } }

/-- R180: a window holds an angle. -/
def inWindow (start stop angle : Nat) : Bool := decide ((angle + 65536 - start) % 65536 < (stop + 65536 - start) % 65536)

/-- R304: the pick of a reservation may be used as a guaranteed one: no window, or the phase lies in it. -/
def State.windowOpen (s : State) (w : Nat) : Bool :=
  ! w.testBit 2 || (s.flag F.REED_STATE_VALID &&
    inWindow (w / 2 ^ 32 % 65536) (w / 2 ^ 48 % 65536) (s.fld F.LOOM_PICK_PHASE_PHASE % 65536))

/-- R300, R304, R320, R321, R403: what the owner `r` does with pick `p`. `shed` says that the pick is released. -/
def State.pickInject (s : State) (r p : Nat) (shed : Bool) : State :=
  let w := s.loom.live.word r
  match s.queuedRes r with
  | [] => s
  | t :: rest =>
    if ! s.niClocked t.init || s.guarTokens r ≤ s.outRes r || (s.txidFree t.init).isNone then s
    else
      let t1 : LoomTxn := if s.windowOpen w && ! shed && t.target == resTarget w then { t with guar := true, pick := s.fld F.LOOM_ROUND_ROUND * 256 + p }
        else { t with guar := false, prio := w / 2 ^ 14 % 4, level := w / 2 ^ 14 % 4 }
      (s.setQueued r rest).inject t1

/-- Count picks that reservation `r` releases (R311). -/
def State.countShed (s : State) (r n : Nat) : State := s.accumulate (F.LOOM_RES_SHED_COUNT r) (F.LOOM_RES_SHED_SAT r) n

/-- Table Belay-7: SCREE_PICK releases this owned pick of `r`. -/
def State.screePick (s : State) (r : Nat) : Bool × State :=
  if ! (s.screeActs && s.flag F.SCREE_PICK_EN && s.fld F.SCREE_PICK_RES == r) then (false, s)
  else if s.belay.pickCount + 1 < s.fld F.SCREE_PICK_EVERY then
    (false, { s with belay := { s.belay with pickCount := s.belay.pickCount + 1 } })
  else (true, ({ s with belay := { s.belay with pickCount := 0 } } : State).countShed r 1)

/-- R335: every running probe that counts fabric cycles counts `n`. -/
def State.probeRuns (s : State) (i : Nat) : Bool :=
  s.running (P.LOOM_PROBE i) && ! s.resetting (P.LOOM_PROBE i) &&
    (! s.flag (F.LOOM_PROBE_TRIG_GATE_EN i) || s.chanOut (s.fld (F.LOOM_PROBE_TRIG_GATE_CH i)))

/-- EVT_SEL_k of probe `i`. -/
def State.evtSel (s : State) (i k : Nat) : Nat := Bits.get (s.raw (R.LOOM_PROBE_CTRL i)) (12 + 4 * k) 4

/-- R336, Table Events-4: probe `i` pulses its Shuttle producer if OUT_SEL selects this event. -/
def State.probePulse (s : State) (i sel : Nat) : State := s.when (s.fld (F.LOOM_PROBE_TRIG_OUT_SEL i) == sel) (fun t => t.pulse (40 + i))

/-- A counter of probe `i` counts `n`; a wrap of counter 0 is an event of R336. -/
def State.probeCount (s : State) (i k n : Nat) : State :=
  let wraps := decide (k = 0 ∧ 2 ^ 48 ≤ s.fld (F.LOOM_PROBE_CNT_VALUE i k) + n)
  (s.count48 (F.LOOM_PROBE_CNT_VALUE i k) (F.LOOM_PROBE_CNT_OF i k) n).when wraps (fun t => t.probePulse i 2)

/-- R335, EVT_SEL 4: `n` fabric cycles pass. -/
def State.probeCycles (s : State) (n : Nat) : State :=
  forEach 8 (fun i t => if t.probeRuns i then forEach 4 (fun k u => if u.evtSel i k = 4 then u.probeCount i k n else u) t else t) s

/-- R299, R300: the owners of request pick `p` take it. -/
def State.takePick (s : State) (p : Nat) : State :=
  forAll (s.loom.live.owners p) (fun r t =>
    let (out, t1) := t.screePick r
    t1.pickInject r p (out || t1.loom.released.contains (256 * r + p))) s

/-- R299: request picks begin, each once and in order, up to pick `p` of this round. -/
def State.pickTo (s : State) (p : Nat) : State :=
  if p < s.loom.began then s else
  let s1 := ((s.probeCycles (32 * (p - s.fld F.LOOM_ROUND_PICK))).setFld F.LOOM_ROUND_PICK p).setFld F.LOOM_PICK_PHASE_PHASE (s.fld F.REED_NOW_PHASE)
  let s2 : State := { s1 with loom := { s1.loom with began := p + 1 } }
  forAll ((List.range (p + 1)).drop s.loom.began) (fun k t => t.takePick k) s2

/-- PICK_START: request pick `p` begins, and before it those of the round that have not begun; one that has begun does not begin again. -/
def State.opPickStart (s : State) (p : Nat) : State := if s.fabricRuns then s.pickTo p else s

/-! ### Table images -/

/-- NI_4 to NI_7 have dual ports (R300). -/
def dualPort (t : Nat) : Bool := decide (4 ≤ t ∧ t ≤ 7)

/-- C1, C2: two reservations meet on their request paths, or on their return paths. -/
def resMeet (ret : Bool) (v w : Nat) : Bool :=
  let path (x : Nat) : List (Nat × Nat) := if ret then niPath (resTarget x) (resInit x) else niPath (resInit x) (resTarget x)
  resInit v == resInit w || (resTarget v == resTarget w && ! dualPort (resTarget v)) || (path v).any (fun l => (path w).contains l)

/-- The first two of a list that meet. -/
def firstMeet (m : Nat → Nat → Bool) : List Nat → Option (Nat × Nat)
  | [] => none
  | a :: rest =>
    match rest.find? (fun b => m a b) with
    | some b => some (a, b)
    | none => firstMeet m rest

/-- The 32-bit word at offset `o` of an image. -/
def imageWord (img : List Byte) (o : Nat) : Nat := leNat (slice o 4 img)

/-- R306: byte `t` of token entry `i` is legal. -/
def quotaLegal (guarded : Bool) (i t q : Nat) : Bool :=
  i == 10 || (decide (q ≤ 32) && (q == 0 || (niInitiator i && niTarget t && t != i && ! (guarded && (i == 1 || i == 3)))))

/-- Table Loom-6, R307: word 0 of entry `r`, with that of entry r + 1. -/
def resLegal (guarded : Bool) (r w next : Nat) : Bool :=
  let i := resInit w
  let t := resTarget w
  [0, 1, 2, 3, 8, 15].contains i && ! (guarded && (i == 1 || i == 3)) && niTarget t && (resDram w == (t == 6 || t == 7)) &&
    ! w.testBit 13 && w / 2 ^ 16 % 65536 == 0 &&
    (! resPair w || (r % 2 == 0 && resDram w && t == 6 && resValid next && resInit next == i && resDram next && resTarget next == 7))

/-- R14, R308: byte `k` of a pick entry is legal: it names no reservation that an earlier byte names. Its reserved bit 6 is ignored. -/
def pickByteLegal (bs : List Nat) (k : Nat) : Bool :=
  let b := bs.getD k 0
  ! (b.testBit 7 && (bs.take k).any (fun c => c.testBit 7 && c % 64 == b % 64))

/-- A list in pieces of `n`, `k` of them. -/
def piecesOf {α : Type} (n : Nat) : Nat → List α → List (List α)
  | 0, _ => []
  | k + 1, l => l.take n :: piecesOf n k (l.drop n)

/-- Word `k` of the head of an image is legal: MAGIC and VERSION; reserved bits are ignored (R14). -/
def headWordLegal (k w : Nat) : Bool := if k = 0 then w == 0x4D4F4F4C else if k = 1 then w % 256 == 1 else true

/-- R306: word `k` of the token entries is legal. -/
def quotaWordLegal (guarded : Bool) (k w : Nat) : Bool :=
  (List.range 4).all (fun b => quotaLegal guarded (k / 4) (4 * (k % 4) + b) (w / 2 ^ (8 * b) % 256))

/-- Table Loom-6, R307: the first illegal word of entry `r`, whose words are `ws`; `next` is word 0 of entry r + 1. -/
def resBadWord (guarded : Bool) (r : Nat) (ws : List Nat) (next : Nat) : Option Nat :=
  let w0 := ws.getD 0 0
  if ! resValid w0 then none
  else if ! resLegal guarded r w0 next then some 0
  else if ws.getD 2 0 ≠ 0 then some 2
  else if ws.getD 3 0 ≠ 0 then some 3
  else none

/-- The image offset of the first illegal word of the entries from `r` on. -/
def resFormat (guarded : Bool) : Nat → List (List Nat) → Option Nat
  | _, [] => none
  | r, ws :: rest =>
    match resBadWord guarded r ws ((rest.headD []).getD 0 0) with
    | some k => some (0x200 + 16 * r + 4 * k)
    | none => resFormat guarded (r + 1) rest

/-- R308: word `k` of the pick entry with bytes `bs` is legal. -/
def pickWordLegal (bs : List Nat) (k : Nat) : Bool := (List.range 4).all (fun b => pickByteLegal bs (4 * k + b))

/-- Tables Loom-5, Loom-6: the image offset of the first word that breaks the format. -/
def imageFormat (guarded : Bool) (img : List Byte) : Option Nat :=
  let ws := (piecesOf 4 384 img).map leNat
  match (ws.take 64).zipIdx.find? (fun e => ! headWordLegal e.2 e.1) with
  | some e => some (4 * e.2)
  | none =>
    match ((ws.drop 64).take 64).zipIdx.find? (fun e => ! quotaWordLegal guarded e.2 e.1) with
    | some e => some (0x100 + 4 * e.2)
    | none =>
      match resFormat guarded 0 (piecesOf 4 64 (ws.drop 128)) with
      | some o => some o
      | none =>
        ((piecesOf 8 256 (img.drop 0x600)).zipIdx.findSome? (fun e =>
          let bs := e.1.map (fun b => b.toNat)
          if ! pickWordLegal bs 0 then some (0x600 + 8 * e.2) else if ! pickWordLegal bs 1 then some (0x604 + 8 * e.2) else none))

/-- The tables of a well-formed image. -/
def imageTable (img : List Byte) : LoomTable :=
  { tag := imageWord img 8,
    quota := (((img.drop 0x100).take 256).zipIdx.filterMap (fun e =>
      let k := e.2
      if niInitiator (k / 16) && niTarget (k % 16) && k / 16 != k % 16 && k / 16 != 10 then some (k, e.1.toNat) else none)),
    res := ((piecesOf 16 64 (img.drop 0x200)).zipIdx.filterMap (fun e =>
      let w := leNat (e.1.take 8)
      if resValid w then some (e.2, BitVec.ofNat 64 w) else none)),
    picks := ((piecesOf 8 256 (img.drop 0x600)).zipIdx.filterMap (fun e =>
      let w := leNat e.1
      if w = 0 then none else some (e.2, BitVec.ofNat 64 w))) }

/-- The valid reservations of a table with their entries and picks. -/
def LoomTable.reservations (t : LoomTable) : List (Nat × Nat × List Nat) := t.res.map (fun e => (e.1, e.2.toNat, t.picksOf e.1))

/-- QUOTA(i, t), with the fixed row of NI_10 (R297). -/
def LoomTable.quotaOf (t : LoomTable) (i n : Nat) : Nat :=
  if i = 10 then b2n (decide (n = 4 ∨ n = 5)) else (AMap.get? t.quota (16 * i + n)).getD 0

/-- The first of a list of numbers for which `f` answers. -/
def firstOf {α : Type} (l : List Nat) (f : Nat → Option α) : Option α := l.findSome? f

/-- R309, Table Loom-7: the checks C1 to C7 in order: reason and CLAMP_KEPT of the first that fails. -/
def tableRefusal (t : LoomTable) (hotsafe : Bool) : Option (Nat × Nat) :=
  let rs := t.reservations
  let owners := (List.range 256).map t.owners
  let g (f : Nat → Bool) : Nat := rs.foldl (fun n e => if f e.2.1 then n + picksG e.2.2 else n) 0
  let n (f : Nat → Bool) : Nat := rs.foldl (fun n e => if f e.2.1 then n + e.2.2.length else n) 0
  let link (ret : Bool) : Option (Nat × Nat) := firstOf (List.range 256) (fun p =>
    (firstMeet (fun a b => resMeet ret (t.word a) (t.word b)) (owners.getD p [])).map
      (fun ab => (3, p + 2 ^ 8 * ab.1 + 2 ^ 16 * ab.2 + 2 ^ 24 * b2n ret)))
  let port : Option (Nat × Nat) := firstOf (List.range 256) (fun p => firstOf [4, 5, 6, 7] (fun x =>
    if 2 < ((owners.getD p []).filter (fun r => resTarget (t.word r) == x)).length then some (4, p + 2 ^ 8 * x) else none))
  let target : Option (Nat × Nat) := firstOf (List.range 16) (fun x =>
    let sum := ((List.range 16).map (fun i => t.quotaOf i x)).foldl (· + ·) (g (fun w => resTarget w == x))
    if niTarget x && decide (niDepth x < sum) then some (5, x + 2 ^ 8 * sum) else none)
  let initiator : Option (Nat × Nat) := firstOf (List.range 16) (fun i =>
    let sum := ((List.range 16).map (fun x => t.quotaOf i x)).foldl (· + ·) (g (fun w => resInit w == i))
    if 64 < sum then some (6, i + 2 ^ 8 * sum) else none)
  let all := n resDram
  let prot := n (fun w => resDram w && resProtect w)
  (link false).orElse fun _ => (link true).orElse fun _ => port.orElse fun _ => target.orElse fun _ => initiator.orElse fun _ =>
    if (if hotsafe then 857 else 960) < all then some (7, all) else if 857 < prot then some (8, prot) else none

/-- R254, R293: the L3 home of a line. -/
def homeOf (a : Nat) : Nat := 4 + sliceOf (lineOf a)

/-- R295, R297, R305, R327: a read of one image line is a transaction of NI_10 with its home: its SEQ, and in the statistics of both its
latencies, which are free. -/
def State.imageTxn (s : State) (counts : Bool) (a : Nat) (ok : Bool) : State :=
  let t := homeOf a
  let k := seqKey 10 t false
  let q := SMap.get (fun _ => 0) s.loom.sent k
  let s1 : State := { s with loom := { s.loom with sent := SMap.put (fun _ => 0) s.loom.sent k ((q + 1) % 256) } }
  let s2 := s1.seqArrive 10 t q false
  if ! counts then s2 else
  let (v, s3) := s2.takeFree
  let x : LoomTxn := ⟨10, t, 0, 0, a, 63, 0, false, none, 0, q, true, false, [], .nothing, 0, true, 0, false, false⟩
  (s3.statEnd 10 0 t x ok (v.toNat % 2 ^ 32)).statEnd t 1 10 x ok (v.toNat / 2 ^ 32)

/-- R27, R28, R305: the Loom reads an image coherently through NI_10, line by line, up to one whose read ends in an error: the bytes read, and
the offset of that line. A line of the execute-in-place window that finds the flash busy ends as R317 ends it (notes/assumptions/88.md). -/
def readImage (counts : Bool) : Nat → State → Nat → Nat → List Byte → State × List Byte × Option Nat
  | 0, s, _, _, acc => (s, acc, none)
  | f + 1, s, a, o, acc =>
    if ! s.busMemory (a + o) 64 || (inXip (a + o) && s.flashBusy) then (s.imageTxn counts (a + o) false, acc, some o) else
    match s.coherentRead (a + o) 64 with
    | (s1, .ok, bs) => readImage counts f (s1.imageTxn counts (a + o) true) a (o + 64) (acc ++ bs)
    | (s1, _, _) => (s1.imageTxn counts (a + o) false, acc, some o)

/-- R309: a commit is refused. -/
def State.commitRefused (s : State) (ni : Nat) (v : DWord) (reason detail : Nat) : State :=
  ((s.refuse ni R.LOOM_COMMIT reason v detail).setFld F.LOOM_COMMIT_STAT_LAST_REASON reason).raise P.LOOM_CFG E.LOOM_CFG_COMMIT_REFUSED

/-- Table Loom-7, in its order: FORMAT of the words read, then IMAGE_READ, then the checks C1 to C7: reason and CLAMP_KEPT of the first that
fails. -/
def imageRefusal (guarded hotsafe : Bool) (img : List Byte) (unread : Option Nat) : Option (Nat × Nat) :=
  match imageFormat guarded (img ++ List.replicate (3584 - img.length) 0#8), unread with
  | some f, some o => if f < o then some (1, f) else some (2, o)
  | some f, none => some (1, f)
  | none, some o => some (2, o)
  | none, none => tableRefusal (imageTable img) hotsafe

/-- R309, R316: a write to LOOM_COMMIT. -/
def State.opCommit (s : State) (ni : Nat) (v : DWord) : State :=
  if F.LOOM_COMMIT_GO.of v = 0 then (s.storeReg ni R.LOOM_COMMIT v).1
  else if s.fld F.LOOM_COMMIT_STAT_STATE ≠ 0 then s.commitRefused ni v 9 (s.fld F.LOOM_COMMIT_STAT_STATE)
  else
    let counts := [4, 5, 10].any (fun n => s.flag (F.LOOM_NI_STAT_CFG_EN n))
    let (s1, img, unread) := readImage counts 56 s (s.fld F.LOOM_IMAGE_BASE_ADDR * 64) 0 []
    match imageRefusal s.guarded (s.flag F.LOOM_ADMIT_HOTSAFE) img unread with
    | some (r, d) => s1.commitRefused ni v r d
    | none =>
      let s2 := (s1.storeReg ni R.LOOM_COMMIT v).1
      ({ s2 with loom := { s2.loom with shadow := some (imageTable img) } }).setFld F.LOOM_COMMIT_STAT_STATE 3

/-- The registers that show the live tables. -/
def State.showTables (s : State) : State :=
  let rs := s.loom.live.reservations
  let n (f : Nat → Bool) : Nat := rs.foldl (fun n e => if f e.2.1 then n + e.2.2.length else n) 0
  let s1 := ((s.setFld F.LOOM_LIVE_TAG_TAG s.loom.live.tag).setFld F.LOOM_DRAM_PICKS_ALL (n resDram)).setFld F.LOOM_DRAM_PICKS_PROT
    (n (fun w => resDram w && resProtect w))
  forEach 64 (fun r t =>
    match rs.find? (fun e => e.1 == r) with
    | none => t.setReg (R.LOOM_RES_PICKS r) 0#64
    | some e => t.setReg (R.LOOM_RES_PICKS r) (BitVec.ofNat 64 (e.2.2.length + 2 ^ 12 * picksG e.2.2 + 2 ^ 16 * b2n (resDram e.2.1)
        + 2 ^ 17 * b2n (resProtect e.2.1) + 2 ^ 18))) s1

/-- R310: checked shadows become live. -/
def State.opSwap (s : State) : State :=
  match s.loom.shadow with
  | none => s
  | some t =>
    let s1 : State := { s with loom := { s.loom with 
      live := t, shadow := none, guar := s.loom.guar.filter (fun e => s.loom.live.targetOf e.1 == t.targetOf e.1) } }
    let s2 := (s1.showTables.setFld F.LOOM_COMMIT_STAT_STATE 0).setFld F.LOOM_COMMIT_STAT_LAST_REASON 0
    (forEach 16 (fun x u => u.settleQuota x) s2).raise P.LOOM_CFG E.LOOM_CFG_COMMIT_DONE

/-- R311: the largest k of 1–256 that brings `all` down to 857. -/
def shedK (all : Nat) (ns : List Nat) : Nat :=
  ((List.range 256).reverse.find? (fun k => decide (all - (ns.map (fun n => n / (k + 1))).foldl (· + ·) 0 ≤ 857))).map (· + 1) |>.getD 1

/-- R311: the picks of a reservation that are released: those numbered k, 2k, 3k and so on. -/
def shedPicks (k : Nat) (ps : List Nat) : List Nat := (ps.zipIdx.filter (fun e => (e.2 + 1) % k == 0)).map (fun e => e.1)

/-- R311, R312: the shedding state at a round boundary. -/
def State.shed (s : State) : State :=
  let all := s.fld F.LOOM_DRAM_PICKS_ALL
  let was := s.flag F.LOOM_SHED_ACTIVE
  if s.dmcHot && decide (857 < all) then
    let rs := s.loom.live.reservations.filter (fun e => resDram e.2.1 && ! resProtect e.2.1)
    let k := shedK all (rs.map (fun e => e.2.2.length))
    let out := rs.map (fun e => (e.1, shedPicks k e.2.2))
    let s1 : State := { s with loom := { s.loom with released := out.flatMap (fun e => e.2.map (fun p => 256 * e.1 + p)) } }
    let s2 := forAll out (fun e t => t.countShed e.1 e.2.length) s1
    let s3 := ((s2.setFld F.LOOM_SHED_ACTIVE 1).setFld F.LOOM_SHED_K k).setFld F.LOOM_SHED_RELEASED s1.loom.released.length
    s3.when (! was) (fun t => t.raise P.LOOM_CFG E.LOOM_CFG_HOT_SHED)
  else
    let s1 := ({ s with loom := { s.loom with released := [] } }).setReg R.LOOM_SHED 0#64
    s1.when was (fun t => t.raise P.LOOM_CFG E.LOOM_CFG_SHED_END)

/-- R299, R310, R311, R315: a new round, behind the picks of the old one: its count, the swap of a checked commit, then the shedding state. -/
def State.opRoundBoundary (s : State) : State :=
  if ! s.fabricRuns then s else
  let s1 := s.pickTo 255
  let s2 := s1.probeCycles (32 * (256 - s1.fld F.LOOM_ROUND_PICK))
  let s3 : State := { s2 with loom := { s2.loom with began := 0 } }
  ((s3.setFld F.LOOM_ROUND_PICK 0).inc F.LOOM_ROUND_ROUND).opSwap.shed

/-- R310, R315: COMMIT_SWAP: the round boundary at which checked shadows become live. -/
def State.opCommitSwap (s : State) : State := if s.loom.shadow.isNone then s else s.opRoundBoundary

end Sys2Proof.Machine
end

