-- ==== Sys2Proof/Machine/Walk.lean ====
section
/-! DEFINITION. The page-table walk that harts and Heddle share (R206 to R208, R405): Sv39, Sv48, Sv39x4 and Sv48x4, the
checks of a PTE, the setting of A and D, and the matching of held translations. -/
namespace Sys2Proof.Machine

/-- How a translation fails: a page fault of the stage; a guest-page fault met below it, with its guest-physical address and the
pseudoinstruction of the access (Table Harts-2); an access fault; an A or D update that a prefetch defers (R404); or a PTE in the
execute-in-place window, at a physical address, that waits for the flash (R150). -/
inductive WalkFail where
  | page
  | guest (gpa tinst : Nat)
  | access
  | deferred
  | waits (pa : Nat)
deriving DecidableEq, Repr

/-- One stage of translation: MODE of satp or hgatp, the address of its root table, whether it is a G-stage, and the
applicable PBMTE (R208). -/
structure Stage where
  /-- MODE: 0 Bare, 8 Sv39, 9 Sv48 -/
  mode : Nat
  /-- root table -/
  root : Nat
  /-- a G-stage: two more bits at the top level -/
  gstage : Bool
  /-- PBMT may be non-zero -/
  pbmte : Bool
deriving DecidableEq, Repr

/-- Levels of a stage. -/
def Stage.levels (st : Stage) : Nat := if st.mode = 9 then 4 else 3

/-- A leaf PTE found: the page it maps, its level and its bits. -/
structure Leaf where
  /-- base address of the page -/
  base : Nat
  /-- 0 4 KiB, 1 2 MiB, 2 1 GiB, 3 512 GiB -/
  level : Nat
  /-- the PTE, with A and D as updated -/
  pte : Nat
deriving DecidableEq, Repr

/-- A read of a PTE: its value and its physical address, or why it failed. -/
inductive PteRead where
  | ok (pte pa : Nat)
  | fail (f : WalkFail)
deriving DecidableEq, Repr

/-- The address has no bits beyond the stage: sign-extended for Sv39 and Sv48, within 41 or 50 bits for a G-stage
(Table Harts-4). -/
def Stage.canonical (st : Stage) (va : Nat) : Bool :=
  let n := 12 + 9 * st.levels
  if st.gstage then decide (va < 2 ^ (n + 2))
  else decide (va % 2 ^ 64 < 2 ^ (n - 1) ∨ 2 ^ 64 - 2 ^ (n - 1) ≤ va % 2 ^ 64)

/-- R208 and the Privileged Architecture: a PTE that no translation may use. -/
def pteBad (pbmte : Bool) (pte : Nat) : Bool :=
  let leaf := pte.testBit 1 || pte.testBit 3
  let pbmt := pte / 2 ^ 61 % 4
  ! pte.testBit 0 || (pte.testBit 2 && ! pte.testBit 1) || pte / 2 ^ 54 % 128 != 0 || pte.testBit 63 ||
    pbmt == 3 || (pbmt != 0 && (! pbmte || ! leaf))

/-- A PTE names the next table: it is valid, no leaf, and none that R208 refuses. -/
def pteTable (pbmte : Bool) (pte : Nat) : Bool := ! (pte.testBit 1 || pte.testBit 3) && ! pteBad pbmte pte

/-- An entry enters a structure of `cap` entries; in a full one it takes the place of the entry that `choice` picks. -/
def placeIn {α : Type} (cap choice : Nat) (l : List α) (e : α) : List α := e :: (if l.length < cap then l else l.eraseIdx (choice % cap))

/-- R207: the PTE with A set, and D for a store. -/
def pteTouched (store : Bool) (pte : Nat) : Nat := pte ||| 0x40 ||| (if store then 0x80 else 0)

/-- The walk, from the table of a level down. `rd` reads a PTE, `wr` sets its A and D bits, `ok` checks the leaf's
permissions. -/
def walkFrom (rd : State → Nat → State × PteRead) (wr : State → Nat → Nat → State × Option WalkFail) (st : Stage)
    (ok : Nat → Bool) (store : Bool) : Nat → State → Nat → Nat → State × Except WalkFail Leaf
  | 0, s, _, _ => (s, .error .page)
  | i + 1, s, table, va =>
    let idx := va / 2 ^ (12 + 9 * i) % (if st.gstage && i + 1 == st.levels then 2048 else 512)
    match rd s (table + 8 * idx) with
    | (s1, .fail f) => (s1, .error f)
    | (s1, .ok pte pa) =>
      let ppn := pte / 2 ^ 10 % 2 ^ 44
      if pteBad st.pbmte pte then (s1, .error .page)
      else if ! (pte.testBit 1 || pte.testBit 3) then walkFrom rd wr st ok store i s1 (ppn * 4096) va
      else if ! ok pte || ppn % 2 ^ (9 * i) != 0 then (s1, .error .page)
      else
        let t := pteTouched store pte
        let leaf : Leaf := ⟨ppn * 4096, i, t⟩
        let r := if t = pte then (s1, none) else wr s1 pa t
        match r with
        | (s2, some f) => (s2, .error f)
        | (s2, none) => (s2, .ok leaf)

/-- A whole walk of one stage. -/
def walk (rd : State → Nat → State × PteRead) (wr : State → Nat → Nat → State × Option WalkFail) (st : Stage)
    (ok : Nat → Bool) (store : Bool) (s : State) (va : Nat) : State × Except WalkFail Leaf :=
  if ! st.canonical va then (s, .error .page)
  else walkFrom rd wr st ok store st.levels s st.root va

/-- R208: a leaf gives `va` a physical address of more than 40 bits. -/
def Leaf.beyond (l : Leaf) (va : Nat) : Bool := decide (2 ^ 40 ≤ l.base + va % 2 ^ (12 + 9 * l.level))

/-- The address a leaf gives for `va`. -/
def Leaf.addr (l : Leaf) (va : Nat) : Nat := l.base + va % 2 ^ (12 + 9 * l.level)

/-- The permission and attribute bits a held translation keeps: bits 0 to 7 of the PTE and PBMT in bits 9:8. -/
def Leaf.perm (l : Leaf) : Nat := l.pte % 256 + l.pte / 2 ^ 61 % 4 * 256

/-- A held translation covers page `vpn` of a stage. -/
def TlbEntry.hits (e : TlbEntry) (stage asid vmid vpn : Nat) : Bool :=
  decide (e.stage = stage ∧ e.vmid = vmid ∧ e.vpn / 2 ^ (9 * e.level) = vpn / 2 ^ (9 * e.level)) &&
    (e.global || decide (e.asid = asid))

/-- The address a held translation gives. -/
def TlbEntry.addr (e : TlbEntry) (va : Nat) : Nat := e.ppn * 4096 + va % 2 ^ (12 + 9 * e.level)

/-- The translation a leaf gives, ready to hold. -/
def Leaf.entry (l : Leaf) (stage asid vmid va : Nat) : TlbEntry :=
  ⟨va / 4096 / 2 ^ (9 * l.level) * 2 ^ (9 * l.level), l.level, asid, l.pte.testBit 5, vmid, stage, l.base / 4096, l.perm⟩

end Sys2Proof.Machine
end

