-- ==== Sys2Proof/Machine/HeddleOps.lean ====
section
/-! DEFINITION. Heddle as shared operations (R388 to R413): live channels and their cache, translation through the owning
instance's G-stage, reads and writes of memory for an item, completion records and queues, and the end of an item. -/
namespace Sys2Proof.Machine

/-- Live channel `c`; none while INVALID. -/
def State.hch (s : State) (c : Nat) : Option HeddleChannel := AMap.get? s.heddle.ch c

/-- Replace live channel `c`. -/
def State.setHch (s : State) (c : Nat) (k : HeddleChannel) : State :=
  { s with heddle := { s.heddle with ch := AMap.put s.heddle.ch c k } }

/-- Channel `c` becomes INVALID. -/
def State.delHch (s : State) (c : Nat) : State := { s with heddle := { s.heddle with ch := SMap.erase s.heddle.ch c } }

/-- Live queue `q`; none while INVALID. -/
def State.hcq (s : State) (q : Nat) : Option HeddleQueue := AMap.get? s.heddle.cq q

/-- Replace live queue `q`. -/
def State.setHcq (s : State) (q : Nat) (v : HeddleQueue) : State :=
  { s with heddle := { s.heddle with cq := AMap.put s.heddle.cq q v } }

/-- The live allotment of instance `i`; none while FREE. -/
def State.hinst (s : State) (i : Nat) : Option HeddleInstance := AMap.get? s.heddle.inst i

/-- Replace the live allotment of instance `i`. -/
def State.setHinst (s : State) (i : Nat) (v : HeddleInstance) : State :=
  { s with heddle := { s.heddle with inst := AMap.put s.heddle.inst i v } }

/-- Change the live allotment of instance `i`. -/
def State.modHinst (s : State) (i : Nat) (f : HeddleInstance → HeddleInstance) : State :=
  { s with heddle := { s.heddle with inst := AMap.modify s.heddle.inst i f } }

/-- HEDDLE_MGMT_STATE_n: the state of instance `i`: 0 FREE, 1 ACTIVE, 2 DRAINING, 3 SQUASHING (Table Instances-5). -/
def instStateF (i : Nat) : Fld := ⟨R.HEDDLE_MGMT_STATE (i / 16), 2 * (i % 16), 2⟩

/-- HEDDLE_MGMT_GEN_n: the GEN of instance `i` (R445). -/
def instGenF (i : Nat) : Fld := ⟨R.HEDDLE_MGMT_GEN (i / 4), 8 * (i % 4), 8⟩

/-- R445: the GEN after `g`. -/
def nextGen (g : Nat) : Nat := if g = 255 then 1 else g + 1

/-- Address of channel entry `c` (R388). -/
def State.chEntryAt (s : State) (c : Nat) : Nat := s.fld F.HEDDLE_CHT_BASE_ADDR * 4096 + 64 * c

/-- Heddle may start work: the page runs and Heddle is clocked. -/
def State.heddleRuns (s : State) : Bool := s.running P.HEDDLE && ! s.resetting P.HEDDLE && ! s.power.heddleStopped

/-- R390: an entry is pinned while an item executes, items are prefetched or a record waits. -/
def HeddleChannel.pinned (k : HeddleChannel) : Bool := ! k.items.isEmpty || ! k.waiting.isEmpty

/-- The ring's size. -/
def HeddleChannel.size (k : HeddleChannel) : Nat := 2 ^ k.e.order

/-- R259, R263: the L3 partition a Heddle write of instance `i` allocates in. -/
def State.heddlePart (s : State) (i : Nat) : Option Nat :=
  if s.flag F.L3_CFG_HEDDLE_ALLOC then (s.hinst i).map (fun v => v.part) else none

/-- R389: write the HEAD and TAIL shadows of channel `c` back to its entry. -/
def State.writeShadows (s : State) (c : Nat) : State :=
  match s.hch c with
  | none => s
  | some k =>
    let reset := s.fld (instStateF k.e.inst) = 2 ∨ s.fld (instStateF k.e.inst) = 3
    let a := (match s.heddle.oldTable with | some t => (if reset then t + 64 * c else s.chEntryAt c) | none => s.chEntryAt c) + 0x10
    if s.inMain a 4 then (s.coherentWrite a (leBytes 4 (k.headOut % 65536 + k.tail % 65536 * 65536)) (s.heddlePart k.e.inst)).1 else s

/-- The channel leaves the channel cache; its shadows are written back (R389). -/
def State.uncache (s : State) (c : Nat) : State :=
  if ! s.heddle.cache.contains c then s else
  let s1 := s.writeShadows c
  let s2 : State := { s1 with heddle := { s1.heddle with cache := s1.heddle.cache.filter (fun x => x != c) } }
  match s2.hch c with
  | some k => s2.setHch c { k with pending := k.pending || (k.state != 4 && k.head != k.tail) }
  | none => s2

/-- R389: the entry of channel `c` is read as it enters the cache, as the most recently used. What a commit made live governs,
whatever the entry has come to hold since (notes/assumptions/77.md). -/
def State.fetchEntry (s : State) (c : Nat) : State :=
  let a := s.chEntryAt c
  let s1 := if s.inMain a 64 then (s.coherentRead a 64).1 else s
  { s1 with heddle := { s1.heddle with cache := c :: s1.heddle.cache } }

/-- R390: channel `c` enters the cache as the most recently used; of 128 entries the least recently used unpinned one
leaves. False when all 128 are pinned. -/
def State.cacheChannel (s : State) (c : Nat) : State × Bool :=
  if s.heddle.cache.contains c then
    ({ s with heddle := { s.heddle with cache := c :: s.heddle.cache.filter (fun x => x != c) } }, true)
  else if s.heddle.cache.length < 128 then (s.fetchEntry c, true)
  else
    match s.heddle.cache.reverse.find? (fun x => match s.hch x with | some k => ! k.pinned | none => true) with
    | none => (s, false)
    | some v => ((s.uncache v).fetchEntry c, true)

/-- R390: the cached entry of channel `c` is used: it is the most recently used one. -/
def State.touchChannel (s : State) (c : Nat) : State :=
  if ! s.heddle.cache.contains c then s
  else { s with heddle := { s.heddle with cache := c :: s.heddle.cache.filter (fun x => x != c) } }

/-- R404: the prefetched items of a channel are discarded; executing ones stay. -/
def HeddleChannel.dropPrefetched (k : HeddleChannel) : HeddleChannel := { k with items := k.items.filter (fun i => i.running) }

/-- Table Heddle-8: IDLE or ACTIVE by what is left to do. -/
def HeddleChannel.settle (k : HeddleChannel) : HeddleChannel :=
  if k.state = 4 then k
  else if ! k.waiting.isEmpty then { k with state := 3 }
  else { k with state := if k.items.isEmpty && k.head == k.tail then 1 else 2 }

/-- R402, R447: the items that stay when what has not started is discarded: those up to the last that has started moving. One ahead of it
that moves nothing has its status already, and its record keeps its place. -/
def HeddleChannel.keepStarted (k : HeddleChannel) : HeddleChannel :=
  { k with items := (k.items.reverse.dropWhile (fun i => ! (i.running && i.started))).reverse }

/-- R404, R407: the translations of an instance, or of one guest page, are dropped with the items prefetched under them. -/
def State.dropTranslations (s : State) (i : Nat) (page : Option Nat) : State :=
  let keep (e : TlbEntry) : Bool := e.vmid != i ||
    (match page with | some g => e.vpn / 2 ^ (9 * e.level) != g / 2 ^ (9 * e.level) | none => false)
  { s with heddle := { s.heddle with
    iotlb := s.heddle.iotlb.filter keep,
    walk := s.heddle.walk.filter (fun e => e.vmid != i),
    ch := s.heddle.ch.map (fun e => if e.2.e.inst = i then (e.1, e.2.dropPrefetched) else e) } }

/-- R390: a channel waiting to be invalidated leaves the cache once it unpins; the CHC_INV then completes. -/
def State.afterUnpin (s : State) (c : Nat) : State :=
  match s.hch c with
  | none => s
  | some k =>
    if k.dropping && ! k.pinned then
      (s.setHch c { k with dropping := false }).uncache c
    else s

/-- The G-stage of an instance. PBMT bits are accepted: no PBMTE applies to Heddle (notes/assumptions/14.md). -/
def HeddleInstance.stage (i : HeddleInstance) : Stage := ⟨i.gMode, i.root, true, true⟩

/-- A PTE read of Heddle: coherent, from main memory (R405). -/
def heddleRd (s : State) (a : Nat) : State × PteRead :=
  if ! s.inMain a 8 then (s, .fail .access) else
  match s.coherentRead a 8 with
  | (s1, .ok, bs) => (s1, .ok (leNat bs) a)
  | (s1, _, _) => (s1, .fail .access)

/-- R404, R405, R407: a PTE read with the walk cache in front: a non-leaf PTE that it holds for the instance is not read again. How many
it holds, and which one makes room, is not stated (notes/assumptions/78.md). -/
def heddleWalkRd (i : Nat) (s : State) (a : Nat) : State × PteRead :=
  match s.heddle.walk.find? (fun e => decide (e.vmid = i ∧ e.addr = a)) with
  | some e => (s, .ok e.pte a)
  | none =>
    match heddleRd s a with
    | (s1, .ok pte pa) =>
      if Config.heddleWalkEntries ≠ 0 ∧ pteTable true pte then
        let (v, s2) := s1.takeFree
        ({ s2 with heddle := { s2.heddle with walk := placeIn Config.heddleWalkEntries v.toNat s2.heddle.walk ⟨2, 0, i, a, pte⟩ } }, .ok pte pa)
      else (s1, .ok pte pa)
    | r => r

/-- A translation enters the IOTLB of 256 entries; which one makes room is not stated: a free value picks it. -/
def State.holdIotlb (s : State) (e : TlbEntry) : State :=
  let (v, s1) := if s.heddle.iotlb.length < 256 then (0#64, s) else s.takeFree
  { s1 with heddle := { s1.heddle with iotlb := placeIn 256 v.toNat s1.heddle.iotlb e } }

/-- The A and D update of a Heddle walk; a prefetch defers it (R207, R404). -/
def heddleWr (prefetch : Bool) (part : Option Nat) (s : State) (a v : Nat) : State × Option WalkFail :=
  if prefetch then (s, some .deferred) else
  match s.coherentWrite a (leBytes 8 v) part with
  | (s1, .ok) => (s1, none)
  | (s1, _) => (s1, some .access)

/-- The leaf permits the access: a G-stage access is a user access. -/
def heddleOk (write : Bool) (pte : Nat) : Bool := pte.testBit 4 && (if write then pte.testBit 2 else pte.testBit 1)

/-- R405, R407: translate a guest-physical address of instance `i`. -/
def State.heddleXlate (s : State) (i gpa : Nat) (write prefetch : Bool) : State × Except WalkFail Nat :=
  match s.hinst i with
  | none => (s, .error .access)
  | some inst =>
    if inst.gMode = 0 then (s, if gpa < 2 ^ 40 then .ok gpa else .error .access)
    else
      match (if inst.stage.canonical gpa then s.heddle.iotlb.find? (fun e =>
          e.hits 2 0 i (gpa / 4096) && heddleOk write e.perm && (! write || e.perm.testBit 7)) else none) with
      | some e => (s, .ok (e.addr gpa))
      | none =>
        match walk (heddleWalkRd i) (heddleWr prefetch (s.heddlePart i)) inst.stage (heddleOk write) write s gpa with
        | (s1, .error f) => (s1, .error f)
        | (s1, .ok l) =>
          if l.beyond gpa then (s1, .error .access) else
          (s1.holdIotlb (l.entry 2 0 i gpa), .ok (l.addr gpa))

/-- R405: a translation fault of channel `c` is logged and raised. -/
def State.heddleFault (s : State) (c i gpa which : Nat) : State :=
  let s1 := s.raise P.HEDDLE E.HEDDLE_TRANSLATE_FAULT
  if s1.flag F.HEDDLE_FAULT_INFO_VALID then s1 else
  ((((s1.setFld F.HEDDLE_FAULT_ADDR_ADDR gpa).setFld F.HEDDLE_FAULT_INFO_CH c).setFld F.HEDDLE_FAULT_INFO_INST i).setFld
    F.HEDDLE_FAULT_INFO_WHICH which).setFld F.HEDDLE_FAULT_INFO_VALID 1

/-- R406: a translated address that Heddle may read. -/
def State.heddleReadable (s : State) (a n : Nat) : Bool :=
  s.inMain a n || decide (a + n ≤ 0x20000) || (inXip a && decide (a + n ≤ 0x30000000))

/-- How far a transfer of an item has come: the state, the data read so far, and the status that ended it. -/
structure Xfer where
  /-- the state -/
  s : State
  /-- data -/
  data : List Byte
  /-- bytes written -/
  done : Nat
  /-- STATUS and DETAIL of a failure -/
  fail : Option (Nat × Nat)

/-- The pieces of a range that do not cross a 64-byte line (R320): address and length. -/
def linePieces (a n : Nat) : List (Nat × Nat) :=
  if n = 0 then [] else
  (List.range ((a + n - 1) / 64 - a / 64 + 1)).map (fun i =>
    let lo := max ((a / 64 + i) * 64) a
    (lo, min ((a / 64 + i + 1) * 64) (a + n) - lo))

/-- One read of at most a line for channel `c` of instance `i` (R405, R406, R410); `which` names the address in the
DETAIL of TRANSLATE_FAULT. -/
def heddleReadPiece (c i which : Nat) (x : Xfer) (p : Nat × Nat) : Xfer :=
  if x.fail.isSome then x else
  match x.s.heddleXlate i p.1 false false with
  | (s1, .error _) => { x with s := s1.heddleFault c i p.1 which, fail := some (2, which) }
  | (s1, .ok pa) =>
    if ! s1.heddleReadable pa p.2 then { x with s := s1, fail := some (3, 3) }
    else if inXip pa && ! s1.xipReadable pa p.2 then { x with s := s1, fail := some (3, 2) }
    else
      match s1.coherentRead pa p.2 with
      | (s2, .ok, bs) => { x with s := s2, data := x.data ++ bs }
      | (s2, .poison, _) => { x with s := s2, fail := some (3, 1) }
      | (s2, _, _) => { x with s := s2, fail := some (3, 2) }

/-- Read `n` bytes of instance `i` from guest-physical `a` for channel `c`. -/
def State.heddleRead (s : State) (c i which a n : Nat) : Xfer :=
  (linePieces a n).foldl (heddleReadPiece c i which) ⟨s, [], 0, none⟩

/-- R150: a read of `n` bytes of instance `i` from guest-physical `a` waits for the flash. -/
def State.heddleStalls (s : State) (i a n : Nat) : Bool :=
  s.flashBusy && (linePieces a n).any (fun p =>
    match (s.heddleXlate i p.1 false false).2 with
    | .ok pa => inXip pa && s.xipReadable pa p.2 && ! s.lineHeld (lineOf pa)
    | _ => false)

/-- One write of at most a line. -/
def heddleWritePiece (c i a0 : Nat) (bs : List Byte) (x : Xfer) (p : Nat × Nat) : Xfer :=
  if x.fail.isSome then x else
  match x.s.heddleXlate i p.1 true false with
  | (s1, .error _) => { x with s := s1.heddleFault c i p.1 2, fail := some (2, 2) }
  | (s1, .ok pa) =>
    if ! s1.inMain pa p.2 then { x with s := s1, fail := some (3, 3) }
    else
      match s1.coherentWrite pa (slice (p.1 - a0) p.2 bs) (s1.heddlePart i) with
      | (s2, .ok) => { x with s := s2, done := x.done + p.2 }
      | (s2, .poison) => { x with s := s2, fail := some (3, 1) }
      | (s2, _) => { x with s := s2, fail := some (3, 2) }

/-- Write bytes of instance `i` at guest-physical `a` for channel `c`. -/
def State.heddleWrite (s : State) (c i a : Nat) (bs : List Byte) : Xfer :=
  (linePieces a bs.length).foldl (heddleWritePiece c i a bs) ⟨s, [], 0, none⟩

/-- R392, R403: the address of ring item `k` of a channel. -/
def HeddleChannel.itemAt (h : HeddleChannel) (k : Nat) : Nat := h.e.base + 32 * k

/-- An item whose words could not be read: only its index, GEN and status are known. -/
def HeddleItem.blank (index gen : Nat) (running : Bool) (status : Option (Nat × Nat)) : HeddleItem :=
  { index := index, op := 0, cqe := false, irq := false, fence := false, crcEn := false, len := 0, src := 0, dst := 0,
    crc := 0, param := 0, gen := gen, clamp := 0, running := running, started := false, done := 0, bytes := 0, acc := 0,
    phase := none, released := false, aligned := false, status := status, out := 0 }

/-- Table Heddle-4 and the port chapters: an OP listed for the kind and port. -/
def opListed (kind port op : Nat) : Bool :=
  match kind with
  | 0 => op == 0
  | 1 => decide (op ≤ 2)
  | 2 => op == 0
  | 3 => op == 0
  | 4 => decide (op ≤ 3)
  | 5 => decide (op ≤ 1)
  | 6 => if port = 0x80 then decide (op ≤ 2) else if port = 0x81 then decide (op ≤ 2) else decide (op ≤ 6)
  | _ => decide (op ≤ 1)

/-- R401: the largest LEN of a kind. -/
def lenLimit (kind : Nat) : Nat := if kind = 4 then 8192 else 16777215

/-- R401, Table Heddle-3: the item in 32 bytes. A reserved bit or an unlisted OP clamps with DETAIL 1, a LEN of 0 with
DETAIL 2, and both move nothing; a LEN over its kind's limit, or an odd one of ANGLE_CAP, is cut and noted. That a reserved bit is refused is
what R401 states, against R14 (DESIGN CHOICE, notes/assumptions/79.md). -/
def parseItem (kind port index gen : Nat) (running : Bool) (bs : List Byte) : HeddleItem :=
  let w0 := leNat (slice 0 8 bs)
  let w3 := leNat (slice 24 8 bs)
  let op := w0 % 256
  let len0 := w0 / 2 ^ 16 % 2 ^ 24
  let bad := w0 / 2 ^ 12 % 16 != 0 || w0 / 2 ^ 40 != 0 || ! opListed kind port op
  let len1 := min len0 (lenLimit kind)
  let len := if kind = 4 then len1 / 2 * 2 else len1
  { index := index, op := op, cqe := w0.testBit 8, irq := w0.testBit 9, fence := w0.testBit 10, crcEn := w0.testBit 11,
    len := len, src := leNat (slice 8 8 bs), dst := leNat (slice 16 8 bs), crc := w3 % 2 ^ 32, param := w3 / 2 ^ 32,
    gen := gen, clamp := if bad then 1 else if len0 = 0 ∨ len ≠ len0 then 2 else 0, running := running, started := false,
    done := 0, bytes := 0, acc := if kind = 1 then w3 % 2 ^ 32 else 0, phase := none, released := false,
    aligned := false, status := if bad then some (11, 1) else if len0 = 0 ∨ len = 0 then some (11, 2) else none, out := 0 }

/-- Read the item at ring index `k` of channel `c`; `which` 3 marks a fault of the ring itself. -/
def State.readItem (s : State) (c : Nat) (h : HeddleChannel) (k : Nat) (running : Bool) : State × HeddleItem :=
  let x := s.heddleRead c h.e.inst 3 (h.itemAt k) 32
  match x.fail with
  | none => (x.s, parseItem h.e.kind h.e.port k h.e.gen running x.data)
  | some f => (x.s, HeddleItem.blank k h.e.gen running (some f))

/-- The first item of channel `c` that executes and has no status yet, if it may move (R403: a FENCE item waits for every
earlier record; R398: nothing starts while a record waits). -/
def HeddleChannel.current (k : HeddleChannel) : Option HeddleItem :=
  match k.items.find? (fun i => i.running && i.status.isNone) with
  | none => none
  | some i =>
    if i.fence && (k.items.head?.map (fun j => j.index) != some i.index) then none
    else if ! i.started && ! k.waiting.isEmpty then none
    else some i

/-- Replace the item of channel `c` with the same ring index. -/
def HeddleChannel.putItem (k : HeddleChannel) (i : HeddleItem) : HeddleChannel :=
  { k with items := k.items.map (fun j => if j.index = i.index then i else j) }

/-- R398: the queue holds 2^ORDER − 1 records. -/
def HeddleQueue.full (q : HeddleQueue) : Bool := (q.tail + 1) % 2 ^ q.order == q.head

/-- R397, R400, R412: write one record into its queue, advance the tail, and signal. A record whose address does not
translate into main memory is not written (notes/assumptions/15.md). -/
def State.putRecord (s : State) (c : Nat) (r : HeddleRecord) : State :=
  match s.hcq r.cq with
  | none => s
  | some q =>
    let phase := r.phase.getD (s.fld F.REED_NOW_PHASE) % 2 ^ 32
    let bs := leBytes 8 (r.lo + b2n q.p * 2 ^ 15) ++ leBytes 8 (r.hi + phase * 2 ^ 32)
    let a := q.base + 16 * q.tail
    let s1 := match s.heddleXlate q.inst a true false with
      | (s1, .error _) => s1.heddleFault c q.inst a 0
      | (s1, .ok pa) => if s1.inMain pa 16 then (s1.coherentWrite pa bs (s1.heddlePart q.inst)).1 else s1
    let t := (q.tail + 1) % 2 ^ q.order
    let s2 := s1.setHcq r.cq { q with tail := t, p := if t = 0 then ! q.p else q.p }
    if ! r.signal then s2 else if q.irq = 1 then s2.edge (512 + r.cq) else if q.irq = 2 then s2.edge q.msg else s2

/-- R402: the channel enters HALTED: prefetched items go, items that have started moving finish. -/
def State.enterHalted (s : State) (c : Nat) : State :=
  match s.hch c with
  | none => s
  | some k =>
    ((s.setHch c { k.keepStarted with state := 4 }).writeShadows c).raise P.HEDDLE E.HEDDLE_HALT

/-- R398: a record of channel `c`: written, or kept while its queue is full. -/
def State.postRecord (s : State) (c : Nat) (r : HeddleRecord) : State :=
  match s.hch c, s.hcq r.cq with
  | some k, some q =>
    if q.full || ! k.waiting.isEmpty then
      (s.setHch c { k with waiting := k.waiting ++ [r], state := if k.state = 4 then 4 else 3 }).raise P.HEDDLE E.HEDDLE_CQ_WAIT
    else
      let s1 := s.putRecord c r
      if r.halt then s1.enterHalted c else s1
  | _, _ => if r.halt then s.enterHalted c else s

/-- R398: write the waiting records of channel `c` while there is space. -/
def drainRecords : Nat → State → Nat → State
  | 0, s, _ => s
  | n + 1, s, c =>
    match s.hch c with
    | none => s
    | some k =>
      match k.waiting with
      | [] => s
      | r :: rs =>
        match s.hcq r.cq with
        | none => drainRecords n (s.setHch c { k with waiting := rs }) c
        | some q =>
          if q.full then s else
          let s1 := (s.putRecord c r).setHch c { k with waiting := rs }
          let s2 := if r.halt then s1.enterHalted c else
            s1.setHch c (({ k with waiting := rs } : HeddleChannel).settle)
          drainRecords n s2 c

/-- R452: space has appeared in queue `q`: every channel waiting on it writes what fits. -/
def State.queueSpace (s : State) (q : Nat) : State :=
  forAll (s.heddle.ch.map (fun e => e.1)) (fun c t =>
    match t.hch c with
    | some k => if k.waiting.any (fun r => r.cq == q) then (drainRecords k.waiting.length t c).afterUnpin c else t
    | none => t) s

/-- Table Heddle-7: statuses that halt a channel with HALT_ON_ERR = 1. -/
def statusHalts (st : Nat) : Bool := [2, 3, 4, 5, 8, 9].contains st

/-- Table Heddle-6: the record of an item, P clear. -/
def recordOf (c : Nat) (e : HeddleEntry) (i : HeddleItem) (st detail : Nat) (halt : Bool) : HeddleRecord :=
  { cq := e.cq, lo := c + i.gen * 2 ^ 16 + st * 2 ^ 24 + i.bytes % 2 ^ 24 * 2 ^ 32,
    hi := i.index + detail % 65536 * 2 ^ 16, phase := i.phase,
    signal := i.irq || (decide (st ≠ 0) && decide (st ≠ 1)), halt := halt }

/-- `n` transactions come home to the items of a channel, the oldest first. -/
def ackItems : Nat → List HeddleItem → List HeddleItem
  | _, [] => []
  | n, i :: r => { i with out := i.out - n } :: ackItems (n - i.out) r

/-- R407: `n` transactions of channel `c` that a running invalidation waits for have come home. -/
def IotlbWait.acked (w : IotlbWait) (c n : Nat) : IotlbWait :=
  { w with ch := w.ch.map (fun e => if e.1 = c then (c, e.2 - n) else e) }

/-- R407: nothing is left to wait for. -/
def IotlbWait.over (w : IotlbWait) : Bool := w.late == 0 && w.ch.all (fun e => e.2 == 0)

/-- Transactions of channel `c` come home, at most `n` and the oldest first, under the current GEN. -/
def State.ackMoves (s : State) (c n : Nat) : State :=
  match s.hch c with
  | none => s
  | some k =>
    let m := min n k.out
    let s1 := (s.setHch c { k with out := k.out - m, items := ackItems m k.items }).modHinst k.e.inst (fun v => { v with out := v.out - m })
    { s1 with heddle := { s1.heddle with iotlbWait := s1.heddle.iotlbWait.map (fun w => w.acked c m) } }

/-- R446: a transaction of instance `i` under the GEN before the squash has ended: a late result is dropped and counted, its token comes
home. One that its initiator NI gives up brings no result (R317). -/
def State.lateHome (s : State) (i : Nat) (result : Bool) : State :=
  let s1 := s.modHinst i (fun v => { v with late := v.late - 1 })
  let s2 : State := { s1 with heddle := { s1.heddle with
    iotlbWait := s1.heddle.iotlbWait.map (fun w => if w.inst = i then { w with late := w.late - 1 } else w) } }
  s2.when result (fun t => t.bumpSat F.HEDDLE_MGMT_LATE_COUNT F.HEDDLE_MGMT_LATE_SAT)

/-- A pipe at rest. -/
def UsbPipe.idle : UsbPipe := ⟨0, 0, false, 0, false, none⟩

/-- Pipe `n` beside its registers. -/
def State.pipe (s : State) (n : Nat) : UsbPipe := SMap.get (fun _ => UsbPipe.idle) s.usb.pipes n

/-- Replace pipe `n`. -/
def State.setPipe (s : State) (n : Nat) (p : UsbPipe) : State :=
  { s with usb := { s.usb with pipes := SMap.put (fun _ => UsbPipe.idle) s.usb.pipes n p } }

/-- An endpoint at rest. -/
def UsbEndpoint.idle : UsbEndpoint := ⟨false, [], false, .quiet⟩

/-- Service-port endpoint of channel PORT 0x70 + `e`. -/
def State.ep (s : State) (e : Nat) : UsbEndpoint := SMap.get (fun _ => UsbEndpoint.idle) s.usb.eps e

/-- Replace it. -/
def State.setEp (s : State) (e : Nat) (v : UsbEndpoint) : State :=
  { s with usb := { s.usb with eps := SMap.put (fun _ => UsbEndpoint.idle) s.usb.eps e v } }

/-- The endpoint sends to the host. -/
def epIn (e : Nat) : Bool := e == 1 || (decide (2 ≤ e ∧ e ≤ 7))

/-- Endpoint number of channel PORT 0x70 + `e`. -/
def epNumber (e : Nat) : Nat := if e < 2 then 0 else if e < 8 then e - 1 else e - 7

/-- The halt bit of an endpoint in USBD_HALT. -/
def epHaltF (e : Nat) : Fld := ⟨R.USBD_HALT, if epIn e then epNumber e else 8 + epNumber e, 1⟩

/-- R479: what an item's status does to USB port `port`: a halting one halts a host pipe, and sets the functional halt of a service-port
endpoint but for PERIPH_ERROR DETAIL 8. -/
def State.usbHalts (s : State) (port st detail : Nat) : State :=
  if ! statusHalts st then s
  else if 0x40 ≤ port ∧ port < 0x70 then (s.setFld (F.USBH_PIPE_STAT_HALTED (port - 0x40)) 1).raise P.USBH E.USBH_PIPE_HALT
  else if 0x72 ≤ port ∧ ¬ (st = 4 ∧ detail = 8) then s.setFld (epHaltF (port - 0x70)) 1
  else s

/-- An item of USB port `port` has its status: the stage of a host pipe ends with it and the pipe keeps a PERIPH_ERROR detail; packets of it
that an IN endpoint has not sent are dropped (DESIGN CHOICE, notes/assumptions/41.md); R479 follows. -/
def State.usbEnded (s : State) (port st detail : Nat) : State :=
  let n := port - 0x40
  let e := port - 0x70
  let s1 := if port < 0x70 then s.setPipe n { s.pipe n with stage := 0, errs := 0, since := none }
    else if epIn e then s.setEp e { s.ep e with fifo := [] } else s
  (s1.when (decide (port < 0x70 ∧ st = 4)) (fun t => t.setFld (F.USBH_PIPE_STAT_LAST_DETAIL n) detail)).usbHalts port st detail

/-- R397 to R402: the oldest item of channel `c` ends with its status: its own writes, the oldest of the channel, are acknowledged, HEAD passes it, its
record is written unless it is OK without CQE, and a halting status halts the channel. A channel holds one waiting record
(Table Heddle-9): no further item ends until it is written. -/
def State.endItem (s : State) (c : Nat) : State :=
  match s.hch c with
  | none => s
  | some k =>
    match k.items with
    | [] => s
    | it :: _ =>
      match it.status with
      | none => s
      | some (st0, d0) =>
        if ! it.running || ! k.waiting.isEmpty then s else
        let (st, d) := if st0 = 0 ∧ it.clamp ≠ 0 then (11, it.clamp) else (st0, d0)
        let s1 := (s.touchChannel c).ackMoves c it.out
        let s2 := match s1.hch c with
          | some k1 => s1.setHch c ({ k1 with items := k1.items.drop 1, head := (it.index + 1) % k.size }.settle)
          | none => s1
        let s3 := if st = 8 then (s2.bumpSat F.HEDDLE_CRC_ERR_COUNT F.HEDDLE_CRC_ERR_SAT).raise P.HEDDLE E.HEDDLE_CRC_MISMATCH else s2
        let s3 := if k.e.kind = 7 ∧ ! it.started then s3.usbHalts k.e.port st d else s3
        let halt := statusHalts st && (k.e.haltOnErr || k.e.kind == 7) && k.state != 4
        let s4 := if st ≠ 0 ∨ it.cqe then
            s3.postRecord c (recordOf c k.e it st d halt)
          else s3
        s4.afterUnpin c

/-- The item of channel `c` at ring index `idx` gets its status: an item of Bobbin leaves it (R415), and one of a USB port may halt its pipe
or endpoint (R479). -/
def State.decideItem (s : State) (c idx st detail : Nat) : State :=
  match s.hch c with
  | none => s
  | some k =>
    let s1 := s.setHch c { k with items := k.items.map (fun i => if i.index = idx then { i with started := true, status := some (st, detail) } else i) }
    if k.e.kind = 5 then { s1 with bobbin := { s1.bobbin with jobs := SMap.erase s1.bobbin.jobs c } }
    else if k.e.kind = 7 then s1.usbEnded k.e.port st detail
    else s1

/-- Change the item of channel `c` at ring index `idx`. -/
def State.modItem (s : State) (c idx : Nat) (f : HeddleItem → HeddleItem) : State :=
  match s.hch c with
  | none => s
  | some k => s.setHch c { k with items := k.items.map (fun i => if i.index = idx then f i else i) }

/-- The channel of a port kind that holds `port`, with the item it executes (R440: no other valid channel holds it); none
while Heddle is clock-stopped. -/
def State.portItem (s : State) (kind port : Nat) : Option (Nat × HeddleChannel × HeddleItem) :=
  if s.power.heddleStopped then none else
  match s.heddle.ch.find? (fun e => decide (e.2.e.kind = kind ∧ e.2.e.port = port)) with
  | none => none
  | some (c, k) => (k.current).map (fun i => (c, k, i))

/-- The item a CODEC, CRYPTO or port command of channel `c` works on: executing and undecided, on a channel of that kind. -/
def State.itemOf (s : State) (c kind : Nat) : Option (HeddleChannel × HeddleItem) :=
  match s.hch c with
  | none => none
  | some k => if k.e.kind = kind then (k.current).map (fun i => (k, i)) else none

/-! ### The mover's order and its credits -/

/-- R403: how far round channel `c` comes after the channel served last, by this list of the last at each PRIO. -/
def turnOf (last : List (Nat × Nat)) (prio c : Nat) : Nat := (c + 4095 - (AMap.get? last prio).getD 4095) % 4096

/-- R403: channel `e` goes before channel `c`: of a higher PRIO, or of the same and earlier in turn. -/
def goesFirst (last : List (Nat × Nat)) (c : Nat) (k : HeddleChannel) (e : Nat × HeddleChannel) : Bool :=
  decide (k.e.prio < e.2.e.prio) || (e.2.e.prio == k.e.prio && decide (turnOf last k.e.prio e.1 < turnOf last k.e.prio c))

/-- R403, R437: the channel and its instance have a transaction left. -/
def State.mayMove (s : State) (k : HeddleChannel) : Bool :=
  decide (k.out < s.fld F.HEDDLE_CFG_CH_OUT_MAX) &&
    (match s.hinst k.e.inst with | some v => decide (v.out + v.late < v.tokens) | none => false)

/-- The addresses that the next piece of an item reads, then those it writes, each marked. -/
def movePieceAddrs (e : HeddleEntry) (it : HeddleItem) : List (Nat × Bool) :=
  if e.kind = 0 then [(it.src + it.done, false), (it.dst + it.done, true)]
  else if e.kind = 1 ∧ it.op = 0 then [(it.dst + it.done, true)]
  else if e.kind = 1 ∨ e.kind = 3 ∨ (e.kind = 7 ∧ epIn (e.port - 0x70)) then [(it.src + it.done, false)]
  else [(it.dst + it.done, true)]

/-- R294, R304, R403, R457: NI_8 has a token for a transaction at an address of the channel's instance: a guaranteed one of the live
reservation the channel names, even outside its window, else one for the L3 home of the line. Pages keep the line's place in them. -/
def State.moveToken (s : State) (k : HeddleChannel) (write : Bool) (a : Nat) : Bool :=
  let best := decide (s.fld (F.LOOM_NI_TOKEN_OUT 8 (homeOf a)) < s.quotaInUse 8 (homeOf a))
  match k.e.res with
  | none => best
  | some r =>
    match (s.heddleXlate k.e.inst a write true).2 with
    | .ok pa => match s.resFor 8 (homeOf pa) pa r with
      | some r1 => decide (s.outRes r1 < s.guarTokens r1)
      | none => best
    | .error _ => best

/-- R294, R457: there is a token for each line that the next piece of an item touches. -/
def State.moveTokens (s : State) (k : HeddleChannel) (it : HeddleItem) : Bool :=
  (movePieceAddrs k.e it).all (fun a => s.moveToken k a.2 a.1)

/-- Bytes of the next piece of an item: within a line at both ends (R320), at most what is left. -/
def HeddleItem.piece (it : HeddleItem) (src dst : Bool) : Nat :=
  min (it.len - it.done) (min (if src then 64 - (it.src + it.done) % 64 else 64) (if dst then 64 - (it.dst + it.done) % 64 else 64))

/-- R150: the source that an item reads next lies in the flash, which is busy. -/
def State.itemStalls (s : State) (k : HeddleChannel) (it : HeddleItem) : Bool :=
  s.flashBusy && [0, 1, 3, 5, 6].contains k.e.kind && ! (k.e.kind == 1 && it.op == 0) &&
    s.heddleStalls k.e.inst (it.src + it.done) (if k.e.kind ≤ 1 then it.piece true (k.e.kind == 0) else it.len - it.done)

/-- A COPY or FILL_CRC channel with an item that can move now: memory is always ready. -/
def State.moveReady (s : State) (k : HeddleChannel) : Bool :=
  decide (k.e.kind ≤ 1) && s.mayMove k && (match k.current with | some it => s.moveTokens k it && ! s.itemStalls k it | none => false)

/-- R403: strict PRIO, round-robin within it: of the memory channels ready to move, none goes before channel `c`. A port or an engine is
ready when its own command comes. -/
def State.moverPicks (s : State) (c : Nat) (k : HeddleChannel) : Bool :=
  s.heddle.ch.all (fun e => ! (s.moveReady e.2 && goesFirst s.heddle.moved c k e))

/-- R403, R425: of the channels of a kind with an item to work on and a transaction left, the order selects channel `c`, by this list of
the last at each PRIO. -/
def State.kindPicks (s : State) (last : List (Nat × Nat)) (c : Nat) (k : HeddleChannel) : Bool :=
  s.heddle.ch.all (fun e => ! (e.2.e.kind == k.e.kind && e.2.current.isSome && s.mayMove e.2 && goesFirst last c k e))

/-- R150, R403, R437: channel `c` may issue a transaction for the item it works on: a credit, its turn, and no wait for the flash. -/
def State.mayIssue (s : State) (c : Nat) (k : HeddleChannel) : Bool :=
  s.mayMove k && s.moverPicks c k && (match k.current with | some it => ! s.itemStalls k it | none => true)

/-- R403: channel `c` at PRIO `prio` has had its turn. -/
def State.tookTurn (s : State) (prio c : Nat) : State :=
  { s with heddle := { s.heddle with moved := AMap.put s.heddle.moved prio c } }

/-- R403, R437: one more transaction is outstanding for the item of channel `c` at ring index `idx`, which it takes on as `f` says; the
channel has had its turn. Of the transactions that one command of a port or an engine makes, the last is still outstanding at its end
(DESIGN CHOICE, notes/assumptions/93.md). -/
def State.progress (s : State) (c idx : Nat) (f : HeddleItem → HeddleItem) : State :=
  match s.hch c with
  | none => s
  | some k =>
    let s1 := s.setHch c { k with out := k.out + 1, items := k.items.map (fun i => if i.index = idx then { f i with out := i.out + 1 } else i) }
    (s1.modHinst k.e.inst (fun v => { v with out := v.out + 1 })).tookTurn k.e.prio c

/-- R408: the move check fails: nothing leaves, the item ends, Belay is told. -/
def State.moveCorrupt (s : State) (c : Nat) (k : HeddleChannel) (it : HeddleItem) (injected : Bool) : State :=
  (s.decideItem c it.index 8 1).signal { FaultInput.of 11 k.e.inst 0 c with injected := injected }

/-- R408, Table Belay-8: a shot of Scree that waits for a move of channel `c` corrupts its data before the move check. -/
def State.takeShot (s : State) (c : Nat) (k : HeddleChannel) (it : HeddleItem) : Option State :=
  (s.belay.moveShots.find? (fun x => x.1 == c)).map (fun x =>
    ({ s with belay := { s.belay with moveShots := s.belay.moveShots.erase x } } : State).moveCorrupt c k it true)

/-- R491: an error of a port: the executing item ends with it, or it is held for the next item to start. -/
def State.portError (s : State) (kind port detail : Nat) : State :=
  match s.portItem kind port with
  | some (c, _, it) => s.decideItem c it.index 4 detail
  | none =>
    match AMap.get? s.field.held port with
    | some _ => s
    | none => { s with field := { s.field with held := AMap.put s.field.held port detail } }

/-- R491: an item of a serial, Ethernet or ADC port that starts takes a held error and ends at once. -/
def State.takeHeld (s : State) (c : Nat) : State :=
  match s.hch c with
  | none => s
  | some k =>
    if ! (k.e.kind == 2 || k.e.kind == 3 || k.e.kind == 4) then s else
    match k.current, AMap.get? s.field.held k.e.port with
    | some it, some d =>
      if it.started then s else
      { s with field := { s.field with held := SMap.erase s.field.held k.e.port } }.decideItem c it.index 4 d
    | _, _ => s

/-- The item has issued its first transfer (R447). -/
def State.startItem (s : State) (c idx : Nat) : State := s.modItem c idx (fun i => { i with started := true })

/-- A dropped doorbell, kick or head write is counted; LAST_CH names its channel, if any. A kick dropped at a full ring is counted alone
(R394). -/
def State.dbCount (s : State) (c : Option Nat) : State :=
  let s1 := s.bumpSat F.HEDDLE_DB_ERR_COUNT F.HEDDLE_DB_ERR_SAT
  match c with
  | some n => s1.setFld F.HEDDLE_DB_ERR_LAST_CH n
  | none => s1

/-- R394, R409, R451: a doorbell, a kick of a channel that is not VALID or a head write is dropped, counted and reported. -/
def State.dbError (s : State) (c : Option Nat) : State := (s.dbCount c).raise P.HEDDLE E.HEDDLE_DB_BAD

/-- R443: a doorbell, kick or head write of an instance that takes none. -/
def State.dbRefused (s : State) (i : Nat) : State :=
  ((s.bumpSat F.HEDDLE_MGMT_DB_REFUSED_COUNT F.HEDDLE_MGMT_DB_REFUSED_SAT).setFld F.HEDDLE_MGMT_DB_REFUSED_LAST_INST i).raise
    P.HEDDLE_MGMT E.HEDDLE_MGMT_DB_REFUSED

/-- R394, R395: the channel is to be examined by the intake. -/
def State.setPending (s : State) (c : Nat) : State :=
  match s.hch c with
  | some k => s.setHch c { k with pending := true }
  | none => s

/-- R394, R402, R409, R443: a kick of a channel by its global number. -/
def State.kick (s : State) (c : Nat) : State :=
  match s.hch c with
  | none => s.dbError (some c)
  | some k =>
    if s.fld (instStateF k.e.inst) ≠ 1 then s.dbRefused k.e.inst
    else if ! k.e.kickAdv then s.setPending c
    else if (k.tail + 1) % k.size = k.headOut then s.dbCount (some c)
    else (s.setHch c { k with tail := (k.tail + 1) % k.size, state := if k.state = 1 then 2 else k.state }).setPending c

/-- R177: kicks that come while Heddle is stopped in STOP are held and served after the wake; `reed` marks one of a Reed slot. -/
def State.kickOrHold (s : State) (c : Nat) (reed : Bool) : State :=
  if s.power.heddleStopped then { s with power := { s.power with heldKicks := s.power.heldKicks ++ [(c, reed)] } } else s.kick c

end Sys2Proof.Machine
end

