-- ==== Sys2Proof/Machine/KeyOps.lean ====
section
/-! DEFINITION. OTP, key slots and the TRNG as shared operations (R535 to R548): which words may be programmed and read, the
slot commands, the DRBG queue and its states. -/
namespace Sys2Proof.Machine

/-- The word at OTP index `i` as programmed. -/
def State.otpRaw (s : State) (i : Nat) : Nat := SMap.get (fun _ => 0) s.sec.otp i

/-- R535: LIFECYCLE, POLICY and SVN carry no check bits. -/
def otpChecked (i : Nat) : Bool := ! decide (4 ≤ i ∧ i ≤ 9)

/-- R537: a word with check bits that a cut pulse left partly set reads as 0. -/
def State.otpWord (s : State) (i : Nat) : Nat := if otpChecked i && s.sec.otpTorn.contains i then 0 else s.otpRaw i

/-- Bytes of an OTP field of `n` words from index `i`. -/
def State.otpBytes (s : State) (i n : Nat) : List Byte := (List.range n).flatMap (fun k => leBytes 4 (s.otpWord (i + k)))

/-- R535: a field is blank while all its bits read 0. -/
def State.otpBlank (s : State) (i n : Nat) : Bool := (List.range n).all (fun k => s.otpWord (i + k) == 0)

/-- Set bits of an OTP word; they never return to 0. -/
def State.otpSet (s : State) (i bits : Nat) : State :=
  { s with sec := { s.sec with otp := SMap.put (fun _ => 0) s.sec.otp i ((s.otpRaw i ||| bits) % 2 ^ 32) } }

/-- Table Keys-1: LIFECYCLE as the marks give it, RMA over SECURED: 0 OPEN, 1 SECURED, 2 RMA. -/
def State.otpLifecycle (s : State) : Nat :=
  let w := s.otpRaw 4
  if 5 ≤ popcount 8 (w / 256) then 2 else if 5 ≤ popcount 8 w then 1 else 0

/-- Table Keys-1: POLICY, each bit the majority of three copies. -/
def State.otpPolicy (s : State) : Nat := maj3 (s.otpRaw 5) (s.otpRaw 6) (s.otpRaw 7)

/-- Table Keys-1: SVN, the number of 1 bits. -/
def State.otpSvn (s : State) : Nat := popcount 32 (s.otpRaw 8) + popcount 32 (s.otpRaw 9)

/-- Table Keys-1: the lifecycle that `lc` is lists word `i` as programmable for these bits. -/
def otpProgrammable (lc i bits : Nat) : Bool :=
  let both := decide (lc ≤ 1)
  let opn := decide (lc = 0)
  if i ≤ 3 then opn
  else if i = 4 then false
  else if i ≤ 7 then
    (clearBits bits 0xF3F == 0) && (if clearBits bits 0xF27 == 0 then both else opn)
  else if i ≤ 9 then both
  else if i = 10 then opn
  else if i ≤ 15 then false
  else if i ≤ 71 then opn
  else if i ≤ 127 then both
  else if i ≤ 159 then opn
  else both

/-- R536: a secret word. -/
def otpSecret (i : Nat) : Bool := decide (128 ≤ i)

/-- R537: a PROGRAM of word `i` is refused with this reason. -/
def State.otpRefusal (s : State) (i bits : Nat) : Option Nat :=
  if s.flag F.PITON_OTP_LOCK_LOCK || s.power.pfail || decide (s.fld F.PWR_MON_VIN < 4500) || decide (i = 4) ||
      ! otpProgrammable (s.fld F.SYSCFG_LIFECYCLE_STATE) i bits then some 7
  else if otpChecked i && s.otpWord i != 0 then some 8
  else none

/-- R536, R537: a PROGRAM pulse on word `i`; `cut` holds the bits that a pulse cut short by UVLO has set. A POLICY word sets
all three copies. -/
def State.otpProgram (s : State) (i bits : Nat) (cut : Option (BitVec 32)) : State :=
  let set := match cut with | some m => bits &&& m.toNat | none => bits
  let s1 := if 5 ≤ i ∧ i ≤ 7 then ((s.otpSet 5 set).otpSet 6 set).otpSet 7 set else s.otpSet i set
  match cut with
  | some _ => if otpChecked i then { s1 with sec := { s1.sec with otpTorn := s1.sec.otpTorn ++ [i] } } else s1
  | none => s1

/-- R46: a refusal whose detail the chapter does not state: CLAMP_KEPT holds a free value. -/
def State.refuseFree (s : State) (ni a reason : Nat) (v : DWord) : State :=
  let (d, s1) := s.takeFree
  s1.refuse ni a reason v (d.toNat % 2 ^ 32)

/-- R536, R537: a write to KEYS_OTP_CTRL. `cut` says whether UVLO cuts a PROGRAM pulse. -/
def State.opOtpCtrl (s : State) (ni : Nat) (v : DWord) (cut : Option (BitVec 32)) : State :=
  let a := R.KEYS_OTP_CTRL
  let cmd := F.KEYS_OTP_CTRL_CMD.of v
  let i := F.KEYS_OTP_CTRL_ADDR.of v
  let data := s.fld F.KEYS_OTP_DATA_DATA
  if ! (cmd = 1 ∨ cmd = 2 ∨ cmd = 3) then (s.storeReg ni a v).1
  else if s.flag F.KEYS_OTP_CTRL_BUSY || s.flag F.KEYS_SLOT_STAT_BUSY then s.refuseFree ni a 1 v
  else if ! s.running P.KEYS then s.refuseFree ni a 9 v
  else
    match (if cmd = 2 then s.otpRefusal i data else none) with
    | some r => s.refuseFree ni a r v
    | none =>
      let s1 := (s.storeReg ni a v).1
      let ue := otpChecked i && s1.sec.otpTorn.contains i
      let s2 :=
        if cmd = 1 then
          ((s1.setFld F.KEYS_OTP_DATA_DATA (if otpSecret i && s1.flag F.PITON_FUSE_WIN_CLOSED then 0 else s1.otpWord i)).setFlag
            F.KEYS_OTP_CTRL_UE ue)
        else if cmd = 2 then s1.otpProgram i data cut
        else (s1.setFlag F.KEYS_OTP_CTRL_MATCH (s1.otpWord i == data)).setFlag F.KEYS_OTP_CTRL_UE ue
      s2.raise P.KEYS E.KEYS_OTP_DONE

/-- The key in slot `n`. -/
def State.slot (s : State) (n : Nat) : Option KeySlot := AMap.get? s.sec.slots n

/-- Fill slot `n`. -/
def State.setSlot (s : State) (n : Nat) (key : List Byte) (usage : Nat) : State :=
  { s with sec := { s.sec with slots := AMap.put s.sec.slots n ⟨BitVec.ofNat 256 (leNat key), BitVec.ofNat 4 usage⟩ } }

/-- Empty slot `n`. -/
def State.clearSlot (s : State) (n : Nat) : State := { s with sec := { s.sec with slots := SMap.erase s.sec.slots n } }

/-- The 32 bytes of a slot's key (R538). -/
def KeySlot.bytes (k : KeySlot) : List Byte := leBytes 32 k.key.toNat

/-- R539: slot `n` is read-locked. -/
def State.slotRLocked (s : State) (n : Nat) : Bool := (s.fld F.PITON_KEY_RLOCK_RLOCK).testBit n

/-- R541: slot `n` is use-locked. -/
def State.slotULocked (s : State) (n : Nat) : Bool := (s.fld F.PITON_KEY_ULOCK_ULOCK).testBit n

/-- DEVICE_ROOT, OTP words 152–159. -/
def State.deviceRoot (s : State) : List Byte := s.otpBytes 152 8

/-- R540: the derived key. -/
def State.kdf (s : State) (src : List Byte) : List Byte :=
  let label := (List.range 6).flatMap (fun n => leBytes 4 (s.fld (F.KEYS_LABEL_LABEL n)))
  hmac 0 src (beBytes 4 1 ++ label ++ [0#8] ++ s.otpBytes 0 4 ++ beBytes 4 256)

/-- Table Keys-3: why a slot command is refused. -/
def State.slotRefusal (s : State) (op n src : Nat) : Option Nat :=
  let fills := decide (op = 1 ∨ op = 3 ∨ op = 4 ∨ op = 5)
  if s.flag F.KEYS_SLOT_STAT_BUSY || s.flag F.KEYS_OTP_CTRL_BUSY then some 1
  else if ! s.running P.KEYS then some 9
  else if (op == 2 && s.slotRLocked n) || (fills && (s.slotRLocked n || s.slotULocked n)) ||
      (op == 4 && decide (src < 16) && s.slotULocked src) then some 2
  else if (op == 2 && (s.slot n).isNone) || (op == 4 && decide (src < 16) && (s.slot src).isNone) then some 3
  else if op == 4 && decide (src < 16) && (match s.slot src with | some k => ! k.usage.toNat.testBit 2 | none => true) then some 4
  else if op == 5 && s.fld F.TRNG_STAT_STATE != 2 then some 5
  else if op == 4 && decide (src = 16) && (decide (s.fld F.SYSCFG_LIFECYCLE_STATE = 2) || s.otpBlank 152 8) then some 6
  else none

/-- R544: 16 blocks for the queue. -/
def State.generate (s : State) : State :=
  let (ws, s1) := s.takeFrees 32
  let bs := (List.range 16).map (fun i => ((ws.getD (2 * i) 0#64) ++ (ws.getD (2 * i + 1) 0#64) : BitVec 128))
  { s1 with sec := { s1.sec with queue := (s1.sec.queue ++ bs).take 64, requests := s1.sec.requests + 1 } }

/-- R547: a consumer takes `n` whole blocks at once, as bytes. A head block already read in part is not handed on. -/
def State.takeBlocks (s : State) (n : Nat) : Option (List Byte × State) :=
  let q := if s.sec.quarters = 0 then s.sec.queue else s.sec.queue.drop 1
  if q.length < n then none
  else some ((q.take n).flatMap (fun b => leBytes 16 b.toNat), { s with sec := { s.sec with queue := q.drop n, quarters := 0 } })

/-- R544, R547: `n` blocks in READY, after a generate request when the queue is short. -/
def State.blocksNow (s : State) (n : Nat) : List Byte × State :=
  match s.takeBlocks n with
  | some r => r
  | none => match s.generate.takeBlocks n with | some r => r | none => ([], s)

/-- R538, R539: the effect of a slot command that is not refused. -/
def State.slotEffect (s : State) (op n src usage : Nat) : State :=
  let data := (List.range 8).flatMap (fun k => leBytes 4 (s.fld (F.KEYS_SLOT_DATA_DATA k)))
  if op = 1 then forEach 8 (fun k t => t.setFld (F.KEYS_SLOT_DATA_DATA k) 0) (s.setSlot n data usage)
  else if op = 2 then
    match s.slot n with
    | some k => forEach 8 (fun w t => t.setFld (F.KEYS_SLOT_DATA_DATA w) (leNat (slice (4 * w) 4 k.bytes))) s
    | none => s
  else if op = 3 then s.clearSlot n
  else if op = 4 then
    s.setSlot n (s.kdf (if src = 16 then s.deviceRoot else match s.slot src with | some k => k.bytes | none => [])) usage
  else
    let (bs, s1) := s.blocksNow 2
    s1.setSlot n bs usage

/-- R539: a write to KEYS_SLOT_CMD. -/
def State.opSlotCmd (s : State) (ni : Nat) (v : DWord) : State :=
  let a := R.KEYS_SLOT_CMD
  let op := F.KEYS_SLOT_CMD_OP.of v
  let n := F.KEYS_SLOT_CMD_SLOT.of v
  let src := min (F.KEYS_SLOT_CMD_SRC.of v) 16
  if ! (1 ≤ op ∧ op ≤ 5) then (s.storeReg ni a v).1
  else
    match s.slotRefusal op n src with
    | some r => s.refuse ni a r v n
    | none => (((s.storeReg ni a v).1).slotEffect op n src (F.KEYS_SLOT_CMD_USAGE.of v)).raise P.KEYS E.KEYS_CMD_DONE

/-- Table Keys-5: leave the DRBG empty. -/
def State.drbgZero (s : State) : State :=
  { s with sec := { s.sec with queue := [], quarters := 0, requests := 0 } }

/-- R50, Table Keys-5: ENABLE takes the TRNG from OFF to STARTUP, or back to OFF with DRBG and queue zeroed; FATAL stays. -/
def State.trngEnable (s : State) (on : Bool) : State :=
  if s.fld F.TRNG_STAT_STATE = 4 then s
  else if on then (if s.fld F.TRNG_STAT_STATE = 0 then s.setFld F.TRNG_STAT_STATE 1 else s)
  else (s.drbgZero).setFld F.TRNG_STAT_STATE 0

/-- R547: a 64-bit load of TRNG_DATA: a quarter of the head block, or VALID = 0. -/
def State.opTrngData (s : State) : State × DWord :=
  match s.sec.queue with
  | b :: rest =>
    if s.fld F.TRNG_STAT_STATE ≠ 2 ∨ ! s.running P.TRNG then (s, 0#64)
    else
      let w := b.toNat / 2 ^ (32 * s.sec.quarters) % 2 ^ 32
      let last := decide (s.sec.quarters = 3)
      ({ s with sec := { s.sec with queue := if last then rest else b :: rest, quarters := if last then 0 else s.sec.quarters + 1 } },
        BitVec.ofNat 64 (w + 2 ^ 32))
  | [] => (s, 0#64)

/-- R548: a 64-bit load of TRNG_RAW. -/
def State.opTrngRaw (s : State) : State × DWord :=
  if s.fld F.SYSCFG_LIFECYCLE_STATE = 0 ∧ ! s.flag F.PITON_SCREE_LOCK_LOCK ∧ s.fld F.TRNG_STAT_STATE ≠ 0 then
    let (v, s1) := s.takeFree
    (s1, BitVec.ofNat 64 (v.toNat % 2 ^ 32 + 2 ^ 32))
  else (s, 0#64)

end Sys2Proof.Machine
end

