-- ==== Sys2Proof/Machine/CryptoOps.lean ====
section
/-! DEFINITION. The AES, HASH and PKA engines (R549 to R555): what an item or PKA_CMD operation computes, what it waits for,
and how it ends. -/
namespace Sys2Proof.Machine

/-- The registers an engine counts and reports in. -/
structure Engine where
  /-- PORT -/
  port : Nat
  /-- page -/
  page : Nat
  /-- KAT BUSY -/
  katBusy : Fld
  /-- KAT PASS -/
  katPass : Fld
  /-- KAT FAIL -/
  katFail : Fld
  /-- EVT bit KAT_DONE -/
  katDone : Nat
  /-- EVT bit ERROR -/
  error : Nat
  /-- errors -/
  errCount : Fld
  /-- their saturation -/
  errSat : Fld
  /-- LAST_DETAIL -/
  errDetail : Fld
  /-- items -/
  items : Fld
  /-- their saturation -/
  itemsSat : Fld
  /-- STAT.CH -/
  ch : Fld
  /-- STAT.BUSY -/
  busy : Fld
  /-- STAT.ECTX, of the engines with contexts -/
  ectx : Option Fld

/-- AES. -/
def Engine.aes : Engine :=
  ⟨0x80, P.AES, F.AES_KAT_BUSY, F.AES_KAT_PASS, F.AES_KAT_FAIL, E.AES_KAT_DONE, E.AES_ERROR, F.AES_ERR_COUNT, F.AES_ERR_SAT,
    F.AES_ERR_LAST_DETAIL, F.AES_ITEMS_COUNT, F.AES_ITEMS_SAT, F.AES_STAT_CH, F.AES_STAT_BUSY, some F.AES_STAT_ECTX⟩

/-- HASH. -/
def Engine.hash : Engine :=
  ⟨0x81, P.HASH, F.HASH_KAT_BUSY, F.HASH_KAT_PASS, F.HASH_KAT_FAIL, E.HASH_KAT_DONE, E.HASH_ERROR, F.HASH_ERR_COUNT,
    F.HASH_ERR_SAT, F.HASH_ERR_LAST_DETAIL, F.HASH_ITEMS_COUNT, F.HASH_ITEMS_SAT, F.HASH_STAT_CH,
    F.HASH_STAT_BUSY, some F.HASH_STAT_ECTX⟩

/-- PKA. -/
def Engine.pka : Engine :=
  ⟨0x82, P.PKA, F.PKA_KAT_BUSY, F.PKA_KAT_PASS, F.PKA_KAT_FAIL, E.PKA_KAT_DONE, E.PKA_ERROR, F.PKA_ERR_COUNT, F.PKA_ERR_SAT,
    F.PKA_ERR_LAST_DETAIL, F.PKA_COUNT_COUNT, F.PKA_COUNT_SAT, F.PKA_STAT_CH,
    F.PKA_STAT_BUSY, none⟩

/-- The engine behind a CRYPTO port. -/
def engineOf (port : Nat) : Engine := if port = 0x80 then Engine.aes else if port = 0x81 then Engine.hash else Engine.pka

/-- ECTX of a CRYPTO channel (R549). -/
def HeddleEntry.ectx (e : HeddleEntry) : Nat := e.ctx / 16 % 8

/-- An engine shows the channel and context of the item it works on. -/
def State.engineShows (s : State) (g : Engine) (c : Nat) (e : HeddleEntry) : State :=
  let s1 := s.setFld g.ch c
  match g.ectx with
  | some f => s1.setFld f e.ectx
  | none => s1

/-- R554: the PKA runs a PKA_CMD operation. -/
def State.pkaTaken (s : State) : Bool := s.flag F.PKA_STAT_FROM_CMD

/-- An engine has no item under way any more; BUSY stays while the PKA runs a command. -/
def State.engineIdle (s : State) (g : Engine) : State :=
  if g.port = 0x82 ∧ s.pkaTaken then s else s.setFld g.busy 0

/-- An engine ends the item of channel `c`: counted, a PERIPH_ERROR with its DETAIL. -/
def State.engineEnd (s : State) (g : Engine) (c : Nat) (e : HeddleEntry) (idx st detail : Nat) : State :=
  let s1 := ((s.bumpSat g.items g.itemsSat).engineShows g c e).engineIdle g
  let s2 := if st = 4 then (((s1.bumpSat g.errCount g.errSat).setFld g.errDetail detail).raise g.page g.error) else s1
  let s3 := if g.port = 0x80 then s2.setFld (F.AES_CTX_STATE_LAST_STATUS e.ectx) st else s2
  s3.decideItem c idx st detail

/-- R538, R541: the key of the slot an item names, for an engine whose USAGE bit is `bit`; or the DETAIL. -/
def State.engineKey (s : State) (n bit : Nat) : Except Nat (List Byte) :=
  match s.slot n with
  | none => .error 1
  | some k => if ! k.usage.toNat.testBit bit then .error 1 else if s.slotULocked n then .error 2 else .ok k.bytes

/-- R547: what a consumer of entropy gets now: its blocks, or that it waits, or that it fails. -/
inductive EntropyNow where
  | blocks (bs : List Byte) (s : State)
  | wait
  | fail

/-- R547, Table Keys-7: a request for `n` blocks, behind those that reached the TRNG earlier. -/
def State.askEntropy (s : State) (n : Nat) : EntropyNow :=
  let st := s.fld F.TRNG_STAT_STATE
  if st = 1 then .wait
  else if st = 2 then
    if ! s.sec.waiting.isEmpty then .wait else
    match s.takeBlocks n with
    | some (bs, s1) => .blocks bs s1
    | none => .wait
  else .fail

/-- The IV or counter block of context `e`. -/
def State.aesIv (s : State) (e : Nat) : List Byte := (List.range 4).flatMap (fun w => leBytes 4 (s.fld (F.AES_CTX_IV_IV e w)))

/-- Write back the next IV or counter block of context `e`. -/
def State.setAesIv (s : State) (e : Nat) (iv : List Byte) : State :=
  forEach 4 (fun w t => t.setFld (F.AES_CTX_IV_IV e w) (leNat (slice (4 * w) 4 iv))) s

/-- AES_CTX_TAG_e. -/
def State.setAesTag (s : State) (e : Nat) (tag : List Byte) : State :=
  forEach 4 (fun w t => t.setFld (F.AES_CTX_TAG_TAG e w) (leNat (slice (4 * w) 4 tag))) s

/-- Write the output of an item and end it: OK, or as the write failed. BYTES counts what was written. -/
def State.engineOut (s : State) (g : Engine) (c : Nat) (k : HeddleChannel) (it : HeddleItem) (out : List Byte) (st detail : Nat) : State :=
  let x := s.heddleWrite c k.e.inst it.dst out
  let s1 := x.s.progress c it.index (fun i => { i with bytes := x.done, done := it.len })
  match x.fail with
  | some (f, d) => s1.engineEnd g c k.e it.index f d
  | none => s1.engineEnd g c k.e it.index st detail

/-- R550: why an AES item is not allowed: DETAIL 4 for LEN, PARAM, CTX or OP against the mode, 7 for a lost chain. -/
def State.aesCheck (s : State) (k : HeddleChannel) (it : HeddleItem) : Option Nat :=
  let e := k.e.ectx
  let mode := s.fld (F.AES_CTX_CFG_MODE e)
  let gen := s.flag (F.AES_CTX_CFG_IVGEN e)
  let aad := it.param % 65536
  if k.e.ctx / 128 != 0 || (mode == 4) != (it.op == 2) || (decide (mode ≤ 1) && it.len % 16 != 0)
      || (mode != 3 && aad != 0) || (mode == 3 && it.op == 0 && decide (it.len < aad))
      || (mode == 3 && it.op == 1 && decide (it.len < aad + 16)) then some 4
  else if decide (1 ≤ mode ∧ mode ≤ 3) && ! s.flag (F.AES_CTX_STATE_CHAIN_VALID e) && ! gen then some 7
  else none

/-- R550: what an AES item computes from its key, its input and, with IVGEN = 1, its drawn IV. -/
def State.aesRun (s : State) (c : Nat) (k : HeddleChannel) (it : HeddleItem) (key data : List Byte) (drawn : Option (List Byte)) : State :=
  let g := Engine.aes
  let e := k.e.ectx
  let mode := s.fld (F.AES_CTX_CFG_MODE e)
  let rks := Aes.roundKeys (if s.flag (F.AES_CTX_CFG_KEY256 e) then key else key.take 16)
  let iv := s.aesIv e
  if mode = 0 then
    s.engineOut g c k it ((Aes.blocks data).flatMap (if it.op = 0 then Aes.encryptBlock rks else Aes.decryptBlock rks)) 0 0
  else if mode = 1 then
    let r := if it.op = 0 then Aes.cbcEncrypt rks iv data else Aes.cbcDecrypt rks iv data
    (s.setAesIv e r.2).engineOut g c k it r.1 0 0
  else if mode = 2 then
    let r := Aes.ctr rks iv data
    (s.setAesIv e r.2).engineOut g c k it r.1 0 0
  else if mode = 4 then
    let t := Aes.cmac rks data
    (s.setAesTag e t).engineOut g c k it t 0 0
  else
    let aad := data.take (it.param % 65536)
    let body := data.drop (it.param % 65536)
    if it.op = 0 then
      let iv12 := match drawn with | some d => d.take 12 | none => iv.take 12
      let ct := Gcm.ctr rks iv12 2 body
      let tag := Gcm.tag rks iv12 aad ct
      let s1 := s.setAesTag e tag
      let s2 := match drawn with
        | some _ => s1
        | none => s1.setAesIv e (beBytes 12 (beNat iv12 + 1) ++ iv.drop 12)
      s2.engineOut g c k it ((match drawn with | some _ => iv12 | none => []) ++ ct ++ tag) 0 0
    else
      let ct := body.take (body.length - 16)
      let tag := Gcm.tag rks (iv.take 12) aad ct
      let ok := decide (tag = body.drop (body.length - 16))
      let s1 := (s.setAesTag e tag).when (! ok) (fun t => t.bumpSat F.AES_GCM_FAIL_COUNT F.AES_GCM_FAIL_SAT)
      s1.engineOut g c k it (Gcm.ctr rks (iv.take 12) 2 ct) (if ok then 0 else 4) (if ok then 0 else 3)

/-- Put a consumer at the end of the entropy queue, once. -/
def State.waitEntropy (s : State) (w : EntropyWait) : State :=
  if s.sec.waiting.contains w then s else { s with sec := { s.sec with waiting := s.sec.waiting ++ [w] } }

/-- R547: the item of channel `c` waits in its engine for `n` blocks. -/
def State.engineWait (s : State) (g : Engine) (c : Nat) (e : HeddleEntry) (idx n : Nat) : State :=
  (((s.startItem c idx).engineShows g c e).setFld g.busy 1).waitEntropy (.item c n)

/-- R547, R550: an AES item, `bs` its entropy if it has been handed some. -/
def State.aesItem (s : State) (c : Nat) (k : HeddleChannel) (it : HeddleItem) (bs : Option (List Byte)) : State :=
  let g := Engine.aes
  match s.engineKey (k.e.ctx % 16) 0 with
  | .error d => s.engineEnd g c k.e it.index 4 d
  | .ok key =>
    match s.aesCheck k it with
    | some d => s.engineEnd g c k.e it.index 4 d
    | none =>
      let draws := s.flag (F.AES_CTX_CFG_IVGEN k.e.ectx) && decide (s.fld (F.AES_CTX_CFG_MODE k.e.ectx) = 3) && it.op == 0
      let go (t : State) (d : Option (List Byte)) : State :=
        let x := t.heddleRead c k.e.inst 1 it.src it.len
        match x.fail with
        | some (f, dd) => x.s.engineEnd g c k.e it.index f dd
        | none => x.s.aesRun c k it key x.data d
      if ! draws then go s none
      else match bs with
        | some b => go s (some b)
        | none =>
          match s.askEntropy 1 with
          | .blocks b t => go t (some b)
          | .wait => s.engineWait g c k.e it.index 1
          | .fail => s.engineEnd g c k.e it.index 5 0

/-- The chaining state of HASH context `e`: as left, or fresh with the key block absorbed under HMAC. -/
def State.hashChain (s : State) (e : Nat) (key : List Byte) : HashChain :=
  match AMap.get? s.sec.hash e with
  | some h => h
  | none =>
    let a := s.fld (F.HASH_CTX_CFG_ALG e)
    let (p, iv, _) := Sha.alg a
    if s.flag (F.HASH_CTX_CFG_HMAC e) then ⟨Sha.compress p iv (Sha.keyBlock a key 0x36#8), p.w * 2⟩ else ⟨iv, 0⟩

/-- R552: close or replace the chaining state of context `e`. -/
def State.setHashChain (s : State) (e : Nat) (h : Option HashChain) : State :=
  let s1 := s.setFlag (F.HASH_CTX_STATE_OPEN e) h.isSome
  { s1 with sec := { s1.sec with hash := match h with
    | some v => AMap.put s1.sec.hash e v
    | none => SMap.erase s1.sec.hash e } }

/-- R552: absorb data into context `e`, finish it, and give the digest or tag. -/
def State.hashFinish (s : State) (e : Nat) (key data : List Byte) (h : HashChain) : List Byte :=
  let a := s.fld (F.HASH_CTX_CFG_ALG e)
  let (p, _, n) := Sha.alg a
  let d := Sha.finish p n h.words (h.bytes + data.length) data
  if s.flag (F.HASH_CTX_CFG_HMAC e) then Sha.hash a (Sha.keyBlock a key 0x5C#8 ++ d) else d

/-- R552: a HASH item. -/
def State.hashItem (s : State) (c : Nat) (k : HeddleChannel) (it : HeddleItem) : State :=
  let g := Engine.hash
  let e := k.e.ectx
  let useKey := s.flag (F.HASH_CTX_CFG_HMAC e)
  match (if useKey then s.engineKey (k.e.ctx % 16) 1 else .ok []) with
  | .error d => s.engineEnd g c k.e it.index 4 d
  | .ok key =>
    let p := (Sha.alg (s.fld (F.HASH_CTX_CFG_ALG e))).1
    if k.e.ctx / 128 != 0 || (it.op == 0 && it.len % (p.w * 2) != 0) then s.engineEnd g c k.e it.index 4 4
    else
      let x := s.heddleRead c k.e.inst 1 it.src it.len
      match x.fail with
      | some (f, d) => x.s.engineEnd g c k.e it.index f d
      | none =>
        let s0 := if it.op = 2 then (x.s.setHashChain e none).setFld (F.HASH_CTX_LEN_BYTES e) 0 else x.s
        let s1 := if (AMap.get? s0.sec.hash e).isNone then s0.setFld (F.HASH_CTX_LEN_BYTES e) 0 else s0
        let h := s1.hashChain e key
        let s2 := s1.setFld (F.HASH_CTX_LEN_BYTES e) (s1.fld (F.HASH_CTX_LEN_BYTES e) + it.len)
        if it.op = 0 then
          ((s2.setHashChain e (some ⟨Sha.absorb p (it.len / (p.w * 2)) h.words x.data, h.bytes + it.len⟩)).progress c it.index
            (fun i => { i with done := it.len })).engineEnd g c k.e it.index 0 0
        else
          let d := s2.hashFinish e key x.data h
          let s3 := forEach 16 (fun w t => t.setFld (F.HASH_CTX_DIGEST_DIGEST e w) (beNat (slice (4 * w) 4 d))) (s2.setHashChain e none)
          s3.engineOut g c k it d 0 0

/-- A PKA operation as asked for (Table Keys-9). -/
structure PkaJob where
  /-- OP -/
  op : Nat
  /-- P-384 -/
  wide : Bool
  /-- the private key comes from this slot -/
  slot : Option Nat
  /-- input bytes -/
  input : List Byte
deriving DecidableEq, Repr

/-- The curve of a job. -/
def PkaJob.curve (j : PkaJob) : Curve := if j.wide then Curve.p384 else Curve.p256

/-- Bytes of a private key in memory, ahead of the inputs (R553). -/
def PkaJob.keyBytes (j : PkaJob) : Nat :=
  if j.slot.isSome then 0
  else if j.op = 0 ∨ j.op = 2 then j.curve.s else if j.op = 4 ∨ j.op = 5 then 32 else 0

/-- Table Keys-9: bytes of SRC after the key, and whether more may follow. -/
def PkaJob.inputBytes (j : PkaJob) : Nat × Bool :=
  let n := j.curve.s
  match j.op with
  | 0 => (n, false) | 1 => (5 * n, false) | 2 => (2 * n, false) | 3 => (0, true) | 4 => (32, false) | 5 => (32, true) | _ => (96, true)

/-- Blocks of entropy an operation takes (Table Keys-7). -/
def PkaJob.blocks (j : PkaJob) : Nat := if j.op = 0 ∨ j.op = 3 then (if j.wide then 4 else 3) else 0

/-- The `i`-th big-endian operand of `n` bytes. -/
def operand (n i : Nat) (bs : List Byte) : Nat := beNat (slice (n * i) n bs)

/-- What a PKA operation answers: its output, and a key to put into a slot. -/
structure PkaOut where
  /-- output bytes -/
  bytes : List Byte
  /-- private key for the slot (KEYGEN with KEY_SLOT = 1) -/
  key : Option (List Byte)
deriving DecidableEq, Repr

/-- R553: the operation itself: its output or a DETAIL. `key` is the private key, `ent` the entropy drawn. -/
def PkaJob.compute (j : PkaJob) (key ent : List Byte) : Except Nat PkaOut :=
  let cv := j.curve
  let n := cv.s
  let inp := j.input.drop j.keyBytes
  let d := beNat key
  let k := leNat ent % cv.n
  let badKey := d == 0 || decide (cv.n ≤ d)
  match j.op with
  | 0 => if badKey then .error 5 else .ok ⟨cv.sign d (operand n 0 inp % cv.n) k, none⟩
  | 1 =>
    let qx := operand n 1 inp
    let qy := operand n 2 inp
    if ! cv.on qx qy then .error 5
    else .ok ⟨leBytes 4 (if cv.verify (operand n 0 inp % cv.n) qx qy (operand n 3 inp) (operand n 4 inp) then 0 else 1), none⟩
  | 2 =>
    let qx := operand n 0 inp
    let qy := operand n 1 inp
    if badKey || ! cv.on qx qy then .error 5
    else match cv.mul d (some (qx, qy)) with
      | some (x, _) => .ok ⟨cv.out x, none⟩
      | none => .error 5
  | 3 =>
    match cv.mul k cv.g with
    | some (x, y) =>
      if j.slot.isSome then .ok ⟨cv.out x ++ cv.out y, some (cv.out k)⟩ else .ok ⟨cv.out k ++ cv.out x ++ cv.out y, none⟩
    | none => .error 5
  | 4 =>
    let r := x25519 key (inp.take 32)
    if r.all (fun b => b == 0#8) then .error 5 else .ok ⟨r, none⟩
  | 5 => .ok ⟨ed25519Sign key (inp.take 32) (inp.drop 32), none⟩
  | _ =>
    match Ed.decode (inp.take 32) with
    | none => .error 5
    | some _ => .ok ⟨leBytes 4 (if ed25519Verify (inp.take 32) (slice 32 64 inp) (inp.drop 96) then 0 else 1), none⟩

/-- R553: DETAIL 4 when LEN, PARAM or CTX do not suit the operation. -/
def PkaJob.shapeOk (j : PkaJob) (len : Nat) : Bool :=
  let (n, more) := j.inputBytes
  let need := j.keyBytes + n
  (if more then decide (need ≤ len) else len == need) && ! (j.wide && j.slot.isSome) && (decide (j.op ≤ 3) || ! j.wide)

/-- The private key of a job: from its slot or its input; or a DETAIL. -/
def State.pkaKey (s : State) (j : PkaJob) : Except Nat (List Byte) :=
  match j.slot with
  | some n =>
    if j.op = 3 then (if s.slotRLocked n || s.slotULocked n then .error 2 else .ok [])
    else if j.op = 1 ∨ j.op = 6 then .ok []
    else s.engineKey n 3
  | none => .ok (j.input.take j.keyBytes)

/-- Run a job with its entropy in hand: output bytes or a DETAIL; KEYGEN fills its slot. -/
def State.pkaRun (s : State) (j : PkaJob) (ent : List Byte) : State × Except Nat (List Byte) :=
  match s.pkaKey j with
  | .error d => (s, .error d)
  | .ok key =>
    match j.compute key ent with
    | .error d => (s, .error d)
    | .ok o =>
      match o.key, j.slot with
      | some d, some n => (s.setSlot n d 8, .ok o.bytes)
      | _, _ => (s, .ok o.bytes)

/-- R553: the job of a PKA item. -/
def pkaJobOf (k : HeddleChannel) (it : HeddleItem) (input : List Byte) : PkaJob :=
  ⟨it.op, it.param.testBit 0, if k.e.ctx.testBit 7 then some (k.e.ctx % 16) else none, input⟩

/-- R554: the PKA holds an item that waits for entropy, of a channel other than `c`. -/
def State.pkaHeld (s : State) (c : Option Nat) : Bool :=
  s.sec.waiting.any (fun w => match w with
    | .item d _ => some d != c && (match s.hch d with | some k => k.e.port == 0x82 | none => false)
    | _ => false)

/-- R547, R553: a PKA item, `bs` its entropy if it has been handed some; it waits its turn behind what came earlier. -/
def State.pkaItem (s : State) (c : Nat) (k : HeddleChannel) (it : HeddleItem) (bs : Option (List Byte)) : State :=
  let g := Engine.pka
  if bs.isNone && (s.pkaTaken || s.pkaHeld (some c)) then s
  else if k.e.ctx / 256 != 0 || ! (pkaJobOf k it []).shapeOk it.len then s.engineEnd g c k.e it.index 4 4
  else
    match s.pkaKey (pkaJobOf k it []) with
    | .error d => s.engineEnd g c k.e it.index 4 d
    | .ok _ =>
      let need := (pkaJobOf k it []).blocks
      let go (t : State) (ent : List Byte) : State :=
        let x := t.heddleRead c k.e.inst 1 it.src (if it.op = 3 then 0 else it.len)
        match x.fail with
        | some (f, d) => x.s.engineEnd g c k.e it.index f d
        | none =>
          match x.s.pkaRun (pkaJobOf k it x.data) ent with
          | (t1, .error d) => t1.engineEnd g c k.e it.index 4 d
          | (t1, .ok out) => t1.engineOut g c k it out 0 0
      if need = 0 then go s []
      else match bs with
        | some b => go s b
        | none =>
          match s.askEntropy need with
          | .blocks b t => go t b
          | .wait => s.engineWait g c k.e it.index need
          | .fail => s.engineEnd g c k.e it.index 5 0

/-- The engine of an item works on it. -/
def State.engineItem (s : State) (c : Nat) (k : HeddleChannel) (it : HeddleItem) (bs : Option (List Byte)) : State :=
  if k.e.port = 0x80 then s.aesItem c k it bs else if k.e.port = 0x81 then s.hashItem c k it else s.pkaItem c k it bs

/-- R401, R549: a reserved bit of PARAM is set. -/
def engineParamBad (port param : Nat) : Bool :=
  if port = 0x80 then param / 65536 != 0 else if port = 0x81 then param != 0 else param / 2 != 0

/-- R549, R555: a CRYPTO item reaches its engine: a page that does not run ends it with DETAIL 9, a running self-test makes it
wait, a failed one ends it with DETAIL 6, reserved PARAM bits clamp it (R401). It starts when its channel may issue a transaction (R403, R437), and
entropy it has waited for goes to it at once. -/
def State.cryptoItem (s : State) (c : Nat) (bs : Option (List Byte)) : State :=
  match s.itemOf c 6 with
  | none => s
  | some (k, it) =>
    let g := engineOf k.e.port
    if ! s.running g.page || s.resetting g.page then s.engineEnd g c k.e it.index 4 9
    else if s.flag g.katBusy then
      let s1 := s.startItem c it.index
      if s1.sec.katWaiting.contains (c, g.port) then s1
      else { s1 with sec := { s1.sec with katWaiting := s1.sec.katWaiting ++ [(c, g.port)] } }
    else if s.flag g.katFail then s.engineEnd g c k.e it.index 4 6
    else if engineParamBad g.port it.param then s.decideItem c it.index 11 1
    else if bs.isSome then s.engineItem c k it bs
    else if ! s.mayIssue c k then s
    else (s.takeShot c k it).getD (s.engineItem c k it none)

/-- R554: end the PKA_CMD operation with this RESULT and output, to appear with DONE. -/
def State.pkaCmdResult (s : State) (r : Nat) (out : List Byte) : State := { s with sec := { s.sec with pka := some (r, out) } }

/-- The bytes of PKA_MEM from offset `o`. -/
def State.pkaMem (s : State) (o n : Nat) : List Byte := (slice o n ((List.range 256).flatMap (fun w => leBytes 4 (s.fld (F.PKA_MEM_DATA w)))))

/-- R554: the job of PKA_CMD. -/
def State.pkaCmdJob (s : State) : PkaJob :=
  ⟨s.fld F.PKA_CMD_OP, s.flag F.PKA_CMD_CURVE, if s.flag F.PKA_CMD_KEY_SLOT then some (s.fld F.PKA_CMD_SLOT) else none,
    s.pkaMem 0 (s.fld F.PKA_LEN_LEN)⟩

/-- R547, R554, R555: run the PKA_CMD operation, `bs` its entropy if it has been handed some. -/
def State.pkaCmdRun (s : State) (bs : Option (List Byte)) : State :=
  let j := s.pkaCmdJob
  if s.flag F.PKA_KAT_BUSY || s.pkaHeld none then s
  else if ! s.running P.PKA then s.pkaCmdResult 9 []
  else if s.flag F.PKA_KAT_FAIL then s.pkaCmdResult 6 []
  else if ! j.shapeOk j.input.length then s.pkaCmdResult 4 []
  else
    let go (t : State) (ent : List Byte) : State :=
      match t.pkaRun j ent with
      | (t1, .error d) => t1.pkaCmdResult d []
      | (t1, .ok out) => t1.pkaCmdResult 0 out
    if j.blocks = 0 then go s []
    else match bs with
      | some b => go s b
      | none =>
        match s.askEntropy j.blocks with
        | .blocks b t => go t b
        | .wait => s.waitEntropy (.pkaCmd j.blocks)
        | .fail => (s.bumpSat F.PKA_NONCE_FAIL_COUNT F.PKA_NONCE_FAIL_SAT).pkaCmdResult 10 []

/-- R554: a write to PKA_CMD. -/
def State.opPkaCmd (s : State) (ni : Nat) (v : DWord) : State :=
  let a := R.PKA_CMD
  if F.PKA_CMD_GO.of v = 1 ∧ ! s.flag F.PKA_CMD_DONE then s.refuseFree ni a 1 v
  else
    let s1 := (s.storeReg ni a v).1
    if F.PKA_CMD_GO.of v = 0 then s1
    else ((((s1.setFld F.PKA_CMD_DONE 0).setFld F.PKA_CMD_RESULT 0).setFld F.PKA_STAT_BUSY 1).setFld F.PKA_STAT_FROM_CMD 1).pkaCmdRun none

/-- R554: an operation that waited behind an item runs once that item has ended. -/
def State.pkaTurn (s : State) : State :=
  if s.pkaTaken && s.sec.pka.isNone && ! s.sec.waiting.any (fun w => match w with | .pkaCmd _ => true | _ => false) then s.pkaCmdRun none else s

/-- R554: the PKA_CMD operation completes after `us` µs: outputs from offset 0x200, RESULT, DONE; the private-key bytes in
PKA_MEM are zeroed. -/
def State.opPkaDone (s0 : State) (us : Nat) : State :=
  let s := s0.pkaTurn
  match s.sec.pka with
  | none => s
  | some (r, out) =>
    let j := s.pkaCmdJob
    let mem := s.pkaMem 0 1024
    let m1 := List.replicate j.keyBytes 0#8 ++ mem.drop j.keyBytes
    let m2 := m1.take 0x200 ++ out ++ m1.drop (0x200 + out.length)
    let s1 := forEach 256 (fun w t => t.setFld (F.PKA_MEM_DATA w) (leNat (slice (4 * w) 4 m2))) s
    let s2 := ((((s1.setFld F.PKA_CMD_DONE 1).setFld F.PKA_CMD_RESULT r).setFld F.PKA_STAT_BUSY 0).setFld F.PKA_STAT_FROM_CMD 0).setFld
      F.PKA_TIME_US us
    ({ s2 with sec := { s2.sec with pka := none } }.bumpSat F.PKA_COUNT_COUNT F.PKA_COUNT_SAT).raise P.PKA E.PKA_CMD_DONE

/-- R155: the challenge is filled with 32 bytes, or has failed for want of entropy. -/
def State.fillChallenge (s : State) (bs : List Byte) : State :=
  { (forEach 8 (fun n t => t.setFld (F.SYSCFG_UNLOCK_CHAL_CHAL n) (leNat (slice (4 * n) 4 bs))) s).setFld F.SYSCFG_UNLOCK_STAT_STATE 2
    with boot := { s.boot with challengeLive := true } }

/-- R547: serve the waiting consumers in order while the queue holds what the first one takes. -/
def serveEntropy : Nat → State → State
  | 0, s => s
  | n + 1, s =>
    match s.sec.waiting with
    | [] => s
    | w :: ws =>
      let need := match w with | .item _ b => b | .pkaCmd b => b | .challenge => 2
      if s.fld F.TRNG_STAT_STATE ≠ 2 then s else
      match s.takeBlocks need with
      | none => s
      | some (bs, s1) =>
        let s2 : State := { s1 with sec := { s1.sec with waiting := ws } }
        serveEntropy n (match w with
          | .item c _ => s2.cryptoItem c (some bs)
          | .pkaCmd _ => s2.pkaCmdRun (some bs)
          | .challenge => s2.fillChallenge bs)

/-- R547: what has become available is handed out. -/
def State.serveWaiting (s : State) : State := serveEntropy s.sec.waiting.length s

/-- R544: a generate request while the TRNG is READY and the queue holds 48 blocks or fewer. `ms` is the time since the last
reseed, `fresh` says that 768 fresh raw bits are ready; a reseed that is due waits for them. -/
def State.opGenerate (s : State) (ms : Nat) (fresh : Bool) : State :=
  if s.fld F.TRNG_STAT_STATE ≠ 2 ∨ 48 < s.sec.queue.length then s
  else
    let due := decide (s.fld F.TRNG_RESEED_REQUESTS ≤ s.sec.requests) || decide (s.fld F.TRNG_RESEED_PERIOD ≤ ms) || s.flag F.TRNG_CFG_PR
    if due && ! fresh then s
    else
      let s1 : State := if due then { s with sec := { s.sec with requests := 0 } } else s
      (s1.generate).serveWaiting

/-- R544, R546, Table Keys-5: STARTUP or RECOVER ends: the test passed, 768 bits seeded the DRBG. Raw bits that Scree holds
constant never pass (R580). -/
def State.opTrngReady (s : State) (rate : Nat) : State :=
  let st := s.fld F.TRNG_STAT_STATE
  if ! (st = 1 ∨ st = 3) ∨ (s.screeActs && decide (s.fld F.SCREE_ENTROPY_MODE = 3)) then s
  else
    let s1 := (((s.setFld F.TRNG_STAT_STATE 2).setFld F.TRNG_RATE_RATE rate).raise P.TRNG E.TRNG_READY)
    { s1 with sec := { s1.sec with requests := 0, instantiations := s1.sec.instantiations + b2n (st = 1) } }

/-- R545, R547, R557: every waiting request ends; a challenge ends only in FATAL (Table Keys-7). -/
def State.failWaiting (s : State) (fatal : Bool) : State :=
  let s1 : State := { s with sec := { s.sec with waiting := if fatal then [] else s.sec.waiting.filter (fun w => w == .challenge) } }
  forAll s.sec.waiting (fun w t =>
    match w with
    | .item c _ =>
      (match t.itemOf c 6 with
       | some (k, it) => t.engineEnd (engineOf k.e.port) c k.e it.index 5 0
       | none => t)
    | .pkaCmd _ => (t.bumpSat F.PKA_NONCE_FAIL_COUNT F.PKA_NONCE_FAIL_SAT).pkaCmdResult 10 []
    | .challenge => if fatal then t.setFld F.SYSCFG_UNLOCK_STAT_STATE 6 else t) s1

/-- R545, R557, Table Keys-5: a health test fails, `ms` after the previous failure: 1 repetition, 2 proportion; `inj` says that
Scree injected it (R580). -/
def State.opHealthFail (s : State) (test ms : Nat) (inj : Bool) : State :=
  let st := s.fld F.TRNG_STAT_STATE
  if st = 0 ∨ st = 4 then s else
  let times := (0 :: s.sec.failures.map (fun a => a + ms)).take 3
  let fatal := decide (times.length = 3 ∧ times.getD 2 0 ≤ 1000)
  let s1 : State := { s with sec := { s.sec with queue := [], quarters := 0, failures := times } }
  let s2 := ((((s1.bumpSat F.TRNG_FAIL_COUNT F.TRNG_FAIL_SAT).setFld F.TRNG_FAIL_LAST_TEST test).setFld F.TRNG_STAT_FAILS
    (times.filter (fun a => decide (a ≤ 1000))).length).raise P.TRNG E.TRNG_HEALTH_FAIL).failWaiting fatal
  if fatal then
    ((s2.drbgZero.setFld F.TRNG_STAT_STATE 4).raise P.TRNG E.TRNG_FATAL).signal { FaultInput.of 22 0 0 0 with injected := inj }
  else s2.setFld F.TRNG_STAT_STATE 3

/-- R555: a write of GO to an engine's KAT register. -/
def State.opKatGo (s : State) (ni a : Nat) (g : Engine) (v : DWord) : State :=
  let (s1, act) := s.storeReg ni a v
  if Bits.get act 0 1 = 1 then s1.setFld g.katBusy 1 else s1

/-- R555: the known-answer tests end; what waited for them resumes or ends with DETAIL 6. -/
def State.opKatDone (s : State) (g : Engine) (pass : Bool) : State :=
  if ! s.flag g.katBusy then s else
  let s1 := (((s.setFld g.katBusy 0).setFlag g.katPass pass).setFlag g.katFail (! pass)).raise g.page g.katDone
  let ws := s1.sec.katWaiting.filter (fun w => w.2 == g.port)
  let s2 : State := { s1 with sec := { s1.sec with katWaiting := s1.sec.katWaiting.filter (fun w => w.2 != g.port) } }
  let s3 := if g.port = 0x82 && s2.flag F.PKA_STAT_FROM_CMD && s2.sec.pka.isNone then s2.pkaCmdRun none else s2
  forAll ws (fun w t => t.cryptoItem w.1 none) s3

/-- R551: the abort of a channel's engine work: chaining and hash states are lost. -/
def State.cryptoAbort (s : State) (c : Nat) (e : HeddleEntry) : State :=
  let held := s.sec.waiting.any (fun w => match w with | .item d _ => d == c | _ => false)
  let s1 : State := { s.when held (fun t => t.engineIdle (engineOf e.port)) with sec := { s.sec with
    waiting := s.sec.waiting.filter (fun w => match w with | .item d _ => d != c | _ => true),
    katWaiting := s.sec.katWaiting.filter (fun w => w.1 != c) } }
  if e.port = 0x80 then s1.setFld (F.AES_CTX_STATE_CHAIN_VALID e.ectx) 0
  else if e.port = 0x81 then s1.setHashChain e.ectx none
  else s1

/-- R556, R558: a tamper erasure: slots, engine key copies, PKA_MEM and DRBG zeroed, running items and the running PKA_CMD
operation end with 8, the TRNG starts again. -/
def State.eraseKeys (s : State) : State :=
  let running := s.heddle.ch.filter (fun e => decide (e.2.e.kind = 6))
  let s1 := forAll running (fun e t =>
    match t.itemOf e.1 6 with
    | some (k, it) => if it.started then t.engineEnd (engineOf k.e.port) e.1 k.e it.index 4 8 else t
    | none => t) s
  let s2 := if s1.pkaTaken then s1.pkaCmdResult 8 [] else s1
  let s3 := forEach 256 (fun w t => t.setFld (F.PKA_MEM_DATA w) 0)
    { s2 with sec := { s2.sec with slots := [], hash := [], waiting := s2.sec.waiting.filter (fun w => w == .challenge), katWaiting := [] } }
  let s4 := forEach 8 (fun e t => t.setFld (F.HASH_CTX_STATE_OPEN e) 0) s3.drbgZero
  if s4.fld F.TRNG_STAT_STATE = 4 then s4
  else if s4.running P.TRNG then s4.setFld F.TRNG_STAT_STATE 1 else s4

end Sys2Proof.Machine
end

