-- ==== Sys2Proof/Machine/ResetOps.lean ====
section
/-! DEFINITION. System resets and losses of supply as shared operations (R22, R31, R95, R97, R130, R220, R273, R538, R592):
what keeps its value, what takes its reset value, what the fuses give, and the start of the harts. -/
namespace Sys2Proof.Machine

/-- The bits of a field, as a mask. -/
def Fld.mask (f : Fld) : DWord := Bits.put 0#64 f.lo f.width (2 ^ f.width - 1)

/-- Bits that show what is measured or outside the device, so that no reset sets them. -/
def measuredMask (a : Nat) : DWord :=
  if a = R.PWR_MON ∨ a = R.PWR_OUT ∨ a = R.CLK_STAT ∨ a = R.CLK_XIN then 0xFFFFFFFF#64
  else if a = R.PWR_THERM then F.PWR_THERM_TJ.mask
  else if a = R.DMC_TEMP then 0xFFFF#64
  else if a = R.BELAY_MON then 0xFF#64
  else if a = R.KEYS_TAMPER_STAT then F.KEYS_TAMPER_STAT_LEVEL.mask
  else 0#64

/-- R31, R78: the straps and the mode keep what the last release latched, but for those that this reset latches anew. -/
def strapMask (cause : Nat) (powerOn : Bool) (a : Nat) : DWord :=
  if a = R.SYSCFG_MODE then (if powerOn then 0#64 else 0xFFFFFFFF#64)
  else if a = R.BOOT_STRAP then (if powerOn then 0#64 else if cause = 1 then F.BOOT_STRAP_GUARD.mask else 0x1F#64)
  else 0#64

/-- Registers after a reset: `keep` masks the bits that stay. -/
def State.resetRegs (s : State) (keep : Nat → DWord) : State :=
  { s with regs := SMap.mapEntries resetWord (fun a w => (w &&& keep a) ||| (resetWord a &&& ~~~ (keep a))) s.regs }

/-- R273: lines still dirty in a cache are lost: memory behind the caches holds the older bytes. -/
def State.restoreStale (s : State) : State :=
  let s1 := forAll (s.memory.stale.filter (fun e => ! decide (0x20000000 ≤ e.1 ∧ e.1 < 0x30000000))) (fun e t => t.putMem e.1 [e.2]) s
  { s1 with memory := { s1.memory with stale := [] } }

/-- R108: every write a commit waited for has completed. -/
def State.finishCommit (s : State) : State :=
  s.when (s.flag F.PWR_SNAP_CTRL_BUSY) (fun t => (t.setFld F.PWR_SNAP_CTRL_BUSY 0).setFld F.PWR_SNAP_CTRL_COMPLETE 1)

/-- R117, R287: power fails with writes queued: each bank's oldest write, which is in progress, completes or does not; every
later one leaves its word as the writes before it left it. -/
def State.rollback (s : State) : State :=
  let (w, s1) := s.takeFree
  let q := s1.memory.mram
  let heads := (List.range 2).filterMap (fun b => q.findIdx? (fun x => mramBank x.addr == b))
  let undo := (List.range q.length).filter (fun i => ! (heads.contains i && w.toNat.testBit i))
  let s2 := forAll undo.reverse (fun i t =>
    match q[i]? with
    | some e => { t with mem := putBytes t.mem e.addr (leBytes 8 e.old.toNat) }
    | none => t) s1
  let s3 : State := { s2 with memory := { s2.memory with mram := [], mramAhead := 0 } }
  if s.power.snapWait = 0 then s3.finishCommit else s3.setFld F.PWR_SNAP_CTRL_BUSY 0

/-- Table Boot-9, Table Boot-10, R535: what the fuses set at a reset. -/
def State.latchOtp (s : State) : State :=
  let lc := s.otpLifecycle
  let p := s.otpPolicy
  let s1 := forEach 4 (fun n t => t.setFld (F.SYSCFG_UID_UID n) (t.otpWord n)) s
  let s2 := ((s1.setFld F.SYSCFG_LIFECYCLE_STATE lc).setFld F.SYSCFG_LIFECYCLE_PENDING lc).setReg R.SYSCFG_DEBUG_EN
    (if lc = 1 then 0#64 else 3#64)
  let s3 := (s2.setFld F.BOOT_OTP_SVN_SVN s2.otpSvn).setFlag F.TETHER_CFG_LIVE_EN (lc != 1)
  let set (base words count : Nat) : Nat :=
    (List.range count).foldl (fun m k => if s.otpBlank (base + words * k) words then m else m + 2 ^ k) 0
  s3.setReg R.BOOT_POLICY (BitVec.ofNat 64
    (p % 32 + 2 ^ 8 * set 16 8 4 + 2 ^ 12 * (p / 256 % 16) + 2 ^ 16 * set 48 8 2 + 2 ^ 18 * b2n (p.testBit 5)))

/-- R31, R78: a power-on reset still owes its strap samples: no sample has been latched, and so no mode set, since power returned. -/
def State.strapsOwed (s : State) : Bool := s.power.powerOn && ! s.flag F.BOOT_STRAP_LATCHED

/-- The supply circuits as a system reset leaves them. A reset waits for PORST_N when power was lost, when PORST_N caused it, or
when the reset it cuts short did; samples taken and not yet latched stand otherwise. What the device heads for without return is
not called off (R118, R120), nor is the hold of a thermal trip (R114); a grace window that still runs is dropped. DESIGN CHOICE
(assumption log 84). -/
def State.resetPower (s : State) (cause : Nat) (powerOn : Bool) : PowerState :=
  let porst := powerOn || cause == 1
  let heads := ! powerOn && s.power.closing.isSome
  { s.power with phase := .reset, cause := cause, powerOn := powerOn || s.strapsOwed, awaitPorst := porst || s.power.awaitPorst,
                 samples := if porst || s.flag F.BOOT_STRAP_LATCHED then [] else s.power.samples, grace := none,
                 closing := if heads then s.power.closing else none, mramClosed := heads && s.power.mramClosed,
                 heddleStopped := heads, wakes := if heads then s.power.wakes else 0, rstoutN := false,
                 thermHold := ! powerOn && s.power.thermHold, heldKicks := [], snapWait := 0, fromBivouac := false, measuring := false }

/-- R273: the writes that the DMC has accepted reach the DRAM before the DMC is reset. -/
def State.landRequests (s : State) : State :=
  forAll (s.memory.dmc.filter (fun r => ! r.data.isEmpty)) (fun r t => if t.partialPoison r.addr r.data.length then t else t.land r.addr r.data) s

/-- A system reset begins (R220, R538, R592): every block takes its reset state; the always-on domain, the contents that had
reached DRAM, MRAM and base camp, the flash, the fuses and what lies outside the device keep theirs. The debug module is reset
with the SoC die's power alone. -/
def State.startReset (s : State) (cause : Nat) (powerOn : Bool) : State :=
  let s0 := s.restoreStale.landRequests.finishCommit
  let s1 := s0.resetRegs (fun a => aonMask a ||| measuredMask a ||| strapMask cause (powerOn || s.strapsOwed) a)
  let s2 : State := { s1 with
    held := [],
    power := s.resetPower cause powerOn,
    boot := { BootState.reset with flash := s1.boot.flash, resetPulses := s1.boot.resetPulses },
    reed := { ReedState.reset with zcIn := s1.reed.zcIn }, harts := s1.harts.map (fun h => { Hart.reset 0 with resetHalt := ! powerOn && h.resetHalt }),
    memory := { MemState.reset with poison := s1.memory.poison, flips := s1.memory.flips.filter (fun f => decide (7 ≤ f.array ∧ f.array ≤ 9)) },
    loom := LoomState.reset, cairn := CairnState.reset, shuttle := { ShuttleState.reset with balls := s1.shuttle.balls },
    timer := TimerState.reset, belay := BelayState.reset, tether := TetherState.reset,
    sec := { SecurityState.reset with otp := s1.sec.otp, otpTorn := s1.sec.otpTorn },
    heddle := HeddleState.reset, bobbin := BobbinState.reset, usb := { UsbState.reset with vbus := s1.usb.vbus }, field := FieldState.reset,
    dm := if powerOn then DebugState.reset else { s1.dm with haveReset := 15 } }
  (s2.setFld F.SYSCFG_RESET_CAUSE_CAUSE (2 ^ cause)).latchOtp

/-- Every rail except VAON is off (R97, R100, R107): only the always-on domain, MRAM and the fuses keep what they hold. -/
def State.goDark (s : State) (phase : PowerPhase) : State :=
  let s1 := s.restoreStale.rollback
  let s2 : State := { s1 with
    mem := s1.mem.filter (fun e => decide (e.1 < 0x20000) || inMram e.1),
    memory := { s1.memory with dmc := [], poison := s1.memory.poison.filter inMram, flips := s1.memory.flips.filter (fun f => decide (f.array = 8)) } }
  let s3 := ((s2.startReset 0 true).setFld F.PWR_OUT_V3V3_OC 0).setFld F.PWR_OUT_V1V8_OC 0
  { s3 with power := { s3.power with phase := phase, pwrGood := false, pfail := decide (phase = .halted) } }

/-- R115: CLK_STAT.AON_ON_RC shows the source of the AON clock. -/
def State.noteAon (s : State) : State := s.setFlag F.CLK_STAT_AON_ON_RC s.onRc

/-- R122: the always-on domain is lost and powers up fresh. -/
def State.loseAon (s : State) : State :=
  let s1 := (s.resetRegs (fun a => (~~~ (aonMask a)) ||| measuredMask a)).noteAon
  { s1 with power := { s1.power with wakes := 0, rtcFraction := 0 } }

/-- R76: power returns to the SoC die: it waits for the PORST_N release of a power-on reset. -/
def State.powerUp (s : State) (cause : Nat) (fromBivouac : Bool) : State :=
  ({ s with power := { s.power with phase := .reset, cause := cause, powerOn := true, awaitPorst := true, pwrGood := true, fromBivouac := fromBivouac } }).setFld
    F.SYSCFG_RESET_CAUSE_CAUSE (2 ^ cause)

/-- R104, R130, R220: every visible hart starts in M-mode at `pc`, with its registers and CSRs at their reset values; one with
a halt request set on reset halts at once (Table Harts-12). In the ROM, at 0, all but the boot hart will park (R131). -/
def State.startHarts (s : State) (pc : Nat) : State :=
  let s1 := forAll s.visible (fun v t => forAll (t.pairOf v) (fun h u =>
    u.modHart h (fun x => { Hart.reset pc with
      running := true, resetHalt := x.resetHalt, debug := x.resetHalt,
      csr := if x.resetHalt then [(0x7B0, 0x40000143#64), (0x7B1, BitVec.ofNat 64 pc)] else [] })) t) s
  { s1 with boot := { s1.boot with romHarts := if pc = 0 then s.visible.filter (fun h => h != 0) else [] } }

/-- R127, R128, Table Boot-1: the boot mode that BOOTSEL and the fuses select, and whether a forbidden one fell back. -/
def State.bootMode (s : State) : Nat × Bool :=
  let b := s.fld F.BOOT_STRAP_BOOTSEL
  if b ≠ 0 ∧ (s.raw R.BOOT_POLICY).toNat.testBit (b - 1) then (0, true) else (b, false)

/-- R139, Table Keys-2: one slot from its OTP field, unless the field is blank or the lifecycle is RMA. -/
def State.loadSlot (s : State) (n word usage : Nat) : State :=
  if s.fld F.SYSCFG_LIFECYCLE_STATE = 2 ∨ s.otpBlank word 8 then s.clearSlot n else s.setSlot n (s.otpBytes word 8) usage

/-- R139, step 1: slots 0 to 2. -/
def State.loadSlots (s : State) : State := ((s.loadSlot 0 128 1).loadSlot 1 136 1).loadSlot 2 144 2

/-- R145: VID and PID from OTP, each 0xF55E or 0x7240 where its fuses are blank, and the endpoint. -/
def State.servicePort (s : State) : ServicePort :=
  let w := s.otpWord 10
  { vid := if w % 2 ^ 16 = 0 then 0xF55E else w % 2 ^ 16, pid := if w / 2 ^ 16 = 0 then 0x7240 else w / 2 ^ 16,
    cls := 0xFF, packetFs := 64, packetHs := 512 }

/-- R145: the first stage attaches the service port: its PLL and page are enabled and ATTACH is set; the pull-up follows as R461 and
R474 state. -/
def State.attachService (s : State) : State :=
  let s1 := ((s.setFld F.CLK_USB_PLL_EN 1).setFld (F.PAGE_CTRL_ENABLE P.USBD) 1).setFld F.USBD_CTRL_ATTACH 1
  { s1 with boot := { s1.boot with service := some s.servicePort } }

/-- R137, R145: the service port detaches, and its page and PLL are left at their reset values. -/
def State.detachService (s : State) : State :=
  if s.boot.service.isNone then s else
  let s1 := (((s.setFld (F.PAGE_CTRL_ENABLE P.USBD) 0).setFld (F.PAGE_STAT_ENABLED P.USBD) 0).resetPage P.USBD).setReg R.CLK_USB (resetWord R.CLK_USB)
  let s2 := s1.setFld F.CLK_STAT_LOCK (clearBits (s1.fld F.CLK_STAT_LOCK) 16)
  { s2 with boot := { s2.boot with service := none }, usb := { s2.usb with addr := 0, eps := [] } }

/-- The first stage's preparation of a recovery mode: slots loaded, the service port attached in USB recovery (R145), and LIVE_EN set
in Tether recovery (R144, R527). -/
def State.enterRecovery (s : State) : State :=
  let m := s.fld F.BOOT_STRAP_MODE_USED
  if m = 2 then s.loadSlots.attachService else if m = 3 then s.loadSlots.setFld F.TETHER_CFG_LIVE_EN 1 else s

/-- R128 to R130: at the end of a system reset the boot mode is decided and the visible harts start in the ROM; in LOADER mode
the loader holds them, but for a resume from Bivouac. -/
def State.bootHarts (s : State) : State :=
  let (m, fb) := s.bootMode
  let s1 := (s.setFld F.BOOT_STRAP_MODE_USED m).setFlag F.BOOT_STRAP_FALLBACK fb
  if s1.power.fromBivouac ∧ s1.flag F.PWR_SNAP_CTRL_COMPLETE then
    let s2 := s1.startHarts 0
    { s2 with boot := { s2.boot with resume := true } }
  else if m = 1 then s1 else (s1.startHarts 0).enterRecovery

end Sys2Proof.Machine
end

