-- ==== Sys2Proof/Machine/PowerOps.lean ====
section
/-! DEFINITION. Supply, power states, wakes and the always-on clock as shared operations (R93 to R125). -/
namespace Sys2Proof.Machine

/-- Replace the supply state. -/
def State.modPower (s : State) (f : PowerState → PowerState) : State := { s with power := f s.power }

/-- The modules run: powered and out of reset. -/
def State.awake (s : State) : Bool := decide (s.power.phase = .run)

/-- R120, R106: a wake source that fires now is latched: in STOP, in Bivouac, and once an entry into Bivouac is under way. The
RTC alarm also ends DOZE. -/
def State.latchesWakes (s : State) : Bool :=
  decide (s.power.phase = .bivouac) || decide (s.power.closing = some 2 ∨ s.power.closing = some 3) ||
    (s.awake && (decide (s.fld F.PWR_STATE_CUR = 3) || decide (s.fld F.PWR_REQ_IDLE = 3)))

/-- Latch a wake by its bit of PWR_WAKE_STAT. -/
def State.latchWake (s : State) (bit : Nat) : State := s.modPower (fun p => { p with wakes := p.wakes ||| 2 ^ bit })

/-- Table Supply-6: WAKE_n inputs enabled and at their set level. -/
def State.wakePinsUp (s : State) : Nat :=
  (List.range 4).foldl (fun m n =>
    if (s.fld F.PWR_WAKE_CFG_WAKE_EN).testBit n && ((s.power.wakePins.testBit n) == (s.fld F.PWR_WAKE_CFG_POL).testBit n) then m + 2 ^ n else m) 0

/-- R103: every visible hart is in WFI. -/
def State.allWfi (s : State) : Bool := s.visible.all (fun h => (s.hart h).running && (s.hart h).wfi && ! (s.hart h).debug)

/-- Table Supply-5, Table Heddle-8: Heddle holds no work: every channel is IDLE, with HEAD at TAIL, or HALTED, and has nothing
outstanding. -/
def State.heddleIdle (s : State) : Bool :=
  s.heddle.ch.all (fun e => decide (e.2.state = 1 ∨ e.2.state = 4) && e.2.items.isEmpty && e.2.waiting.isEmpty && decide (e.2.out = 0))

/-- Table Supply-5: the conditions of an entry into STOP or Bivouac. -/
def State.mayStop (s : State) : Bool :=
  s.awake && decide (s.fld F.PWR_STATE_CUR ≤ 1) && s.allWfi && s.heddleIdle && s.loom.txns.isEmpty && s.memory.dmc.isEmpty

/-- R105, R113: the operating point wanted: 0 RUN_FULL, 1 RUN_COOL. -/
def State.wantedPoint (s : State) : Nat := if s.flag F.PWR_STATE_FORCED_COOL then 1 else s.fld F.PWR_REQ_RUN

/-- R105: start a change of operating point when another is wanted. -/
def State.startSwitch (s : State) : State :=
  s.when (decide (s.wantedPoint ≠ s.fld F.CLK_HART_OP)) (fun t => t.setFld F.PWR_STATE_SWITCHING 1)

/-- R103, R105, R120: a write to PWR_REQ. An entry into Bivouac that has begun is withdrawn no more; the wakes latched for a request
for Bivouac go with the request. -/
def State.opPwrReq (s : State) (ni : Nat) (v : DWord) : State :=
  let s1 := (s.storeReg ni R.PWR_REQ v).1
  let gone := decide (s1.fld F.PWR_REQ_IDLE ≠ 3) && s1.power.closing.isNone && decide (s1.fld F.PWR_STATE_CUR ≤ 1)
  let s2 := s1.setFlag F.PWR_REQ_PENDING (s1.fld F.PWR_REQ_IDLE != 0 && s1.power.closing.isNone)
  (s2.when gone (fun t => t.modPower (fun p => { p with wakes := 0 }))).startSwitch

/-- R119: a write to PWR_PFAIL disarms until VIN has stayed above the new threshold. -/
def State.opPwrPfail (s : State) (ni : Nat) (v : DWord) : State := ((s.storeReg ni R.PWR_PFAIL v).1).setFld F.PWR_PFAIL_ARMED 0

/-- R42: PAGES as a write of `v` would store it. -/
def snapPages (v : DWord) : Nat := min 64 (max 1 (F.PWR_SNAP_CTRL_PAGES.of v))

/-- R108, R109: a write to PWR_SNAP_CTRL. With COMMIT and INVALIDATE both 1 COMPLETE clears and the commit starts; a COMMIT while
BUSY starts the wait again over every write queued by then (notes/assumptions/59.md). -/
def State.opSnapCtrl (s : State) (ni : Nat) (v : DWord) : State :=
  let sum := s.fld F.PWR_SNAP_BASE_BASE + snapPages v
  if F.PWR_SNAP_CTRL_COMMIT.of v = 1 ∧ 2048 < sum then s.refuse ni R.PWR_SNAP_CTRL 1 v sum
  else
    let (s1, act) := s.storeReg ni R.PWR_SNAP_CTRL v
    let s2 := s1.when (F.PWR_SNAP_CTRL_INVALIDATE.of act == 1) (fun t => t.setFld F.PWR_SNAP_CTRL_COMPLETE 0)
    s2.when (F.PWR_SNAP_CTRL_COMMIT.of act == 1) (fun t =>
      (t.setFld F.PWR_SNAP_CTRL_BUSY 1).modPower (fun p => { p with snapWait := t.memory.mram.length }))

/-- R115: a write to CLK_MEAS_CTRL. -/
def State.opMeasCtrl (s : State) (ni : Nat) (v : DWord) : State :=
  let (s1, act) := s.storeReg ni R.CLK_MEAS_CTRL v
  s1.when (F.CLK_MEAS_CTRL_START.of act == 1) (fun t =>
    (t.setFld F.CLK_MEAS_RESULT_DONE 0).modPower (fun p => { p with measuring := true }))

/-- R220: a write to SYSCFG_RESET_REQ. -/
def State.opResetReq (s : State) (ni : Nat) (v : DWord) : State :=
  let (s1, act) := s.storeReg ni R.SYSCFG_RESET_REQ v
  s1.when (F.SYSCFG_RESET_REQ_KEY.of act == 0xC1A5) (fun t => t.startReset 2 false)

/-- R116: the RTC alarm fires. -/
def State.fireAlarm (s : State) : State :=
  let s1 := (s.setFld F.RTC_STAT_ALARM 1).when s.awake (fun t => t.raise P.RTC E.RTC_ALARM)
  let doze := s.awake && decide (s.fld F.PWR_STATE_CUR = 2)
  s1.when (doze || (s1.latchesWakes && s1.flag F.PWR_WAKE_CFG_RTC_EN)) (fun t => t.latchWake 4)

/-- R116: the alarm is due: running, enabled, TICKS at or past ALARM. -/
def State.alarmDue (s : State) : Bool :=
  s.flag F.RTC_CTRL_EN && s.flag F.RTC_CTRL_ALARM_EN && decide (s.fld F.RTC_ALARM_ALARM ≤ s.fld F.RTC_COUNT_TICKS)

/-- R116, R126: a write to RTC_COUNT, RTC_ALARM or RTC_CTRL: a write of RTC_COUNT makes the time valid, and an alarm already
passed fires at once. -/
def State.opRtc (s : State) (ni a : Nat) (v : DWord) : State :=
  let s1 := (s.storeReg ni a v).1
  let s2 := s1.when (decide (a = R.RTC_COUNT)) (fun t => t.setFld F.RTC_STAT_VALID 1)
  s2.when s2.alarmDue State.fireAlarm

/-- R116: the periodic event. -/
def State.firePeriod (s : State) : State := (s.setFld F.RTC_STAT_PERIOD 1).when s.awake (fun t => t.raise P.RTC E.RTC_PERIOD)

/-- R116: `n` AON ticks pass: the alarm when TICKS reaches ALARM, the periodic event at each multiple of 2^SHIFT ticks. -/
def State.rtcTicks (s : State) (n : Nat) : State :=
  if n = 0 ∨ ! s.flag F.RTC_CTRL_EN then s else
  let t0 := s.fld F.RTC_COUNT_TICKS
  let t1 := t0 + n
  let al := s.fld F.RTC_ALARM_ALARM
  let p := 2 ^ s.fld F.RTC_PERIOD_SHIFT
  let s1 := s.setFld F.RTC_COUNT_TICKS t1
  let s2 := s1.when (s1.flag F.RTC_CTRL_ALARM_EN && decide (t0 < al ∧ al ≤ t1)) State.fireAlarm
  s2.when (s2.flag F.RTC_CTRL_PERIOD_EN && decide (t0 / p < t1 / p)) State.firePeriod

/-- R115, R116: `n` 5 ns ticks pass on the AON clock, if it ticks, corrected by RTC_CAL in 0.1 ppm. The RC is taken to run at 32,768 Hz
whatever CLK_RC_TRIM holds. DESIGN CHOICE (assumption log 85). -/
def State.rtcElapse (s : State) (n : Nat) : State :=
  if ! s.aonTicks then s else
  let rate := (10000000 + sext 16 (s.fld F.RTC_CAL_CAL)).toNat
  let acc := s.power.rtcFraction + n * rate
  let tick := 200000000 * 10000000 / 32768
  (s.modPower (fun p => { p with rtcFraction := acc % tick })).rtcTicks (acc / tick)

/-- R556: tamper input `n` signals an event. -/
def State.opTamper (s : State) (n : Nat) : State :=
  if ! (s.fld F.KEYS_TAMPER_CFG_EN).testBit n ∨ ! s.aonFed then s else
  let pol := (s.fld F.KEYS_TAMPER_CFG_POL).testBit n
  let lvl := s.fld F.KEYS_TAMPER_STAT_LEVEL
  let s1 := ((s.setFld F.KEYS_TAMPER_STAT_LATCHED (s.fld F.KEYS_TAMPER_STAT_LATCHED ||| 2 ^ n)).bump F.KEYS_TAMPER_STAT_COUNT).setFld
    F.KEYS_TAMPER_STAT_LEVEL (if pol then lvl ||| 2 ^ n else clearBits lvl (2 ^ n))
  let s2 := s1.setFld F.RTC_TAMPER_STAMP_STAMP (s1.fld F.RTC_COUNT_TICKS)
  let s3 := s2.when (s2.flag F.KEYS_TAMPER_CFG_ERASE_RETAIN) (fun t => forEach 16 (fun k u => u.setFld (F.PWR_RETAIN_DATA k) 0) t)
  let s4 := s3.when (s3.flag F.KEYS_TAMPER_CFG_KILL_SNAP) (fun t => t.setFld F.PWR_SNAP_CTRL_COMPLETE 0)
  let s5 := s4.when s4.latchesWakes (fun t => t.latchWake 6)
  s5.when (s5.awake && s5.flag F.KEYS_TAMPER_CFG_ERASE_KEYS) State.eraseKeys

/-- R115: a write to CLK_AON. -/
def State.opClkAon (s : State) (ni : Nat) (v : DWord) : State := (s.storeReg ni R.CLK_AON v).1.noteAon

/-- R113: the force of RUN_COOL follows TJ and WARN: from WARN on it acts, from WARN − 5 °C down it is released. -/
def State.thermForce (s : State) : State :=
  let t := sext 9 (s.fld F.PWR_THERM_TJ)
  let warn : Int := s.fld F.PWR_THERM_WARN
  if ! s.awake then s
  else if warn ≤ t then
    let s1 := s.when (! s.flag F.PWR_THERM_HOT) (fun u => u.raise P.PWR E.PWR_THERM_HOT)
    ((s1.setFld F.PWR_THERM_HOT 1).setFld F.PWR_STATE_FORCED_COOL 1).startSwitch
  else if t ≤ warn - 5 then ((s.setFld F.PWR_THERM_HOT 0).setFld F.PWR_STATE_FORCED_COOL 0).startSwitch
  else s

/-- R113: a write to PWR_THERM: the force follows the new WARN. -/
def State.opPwrTherm (s : State) (ni : Nat) (v : DWord) : State := (s.storeReg ni R.PWR_THERM v).1.thermForce

/-- R113, R114: a reading of the junction temperature while the rails are on: from 112 °C on a system reset is taken and held, down to
100 °C the hold ends, and the force of RUN_COOL follows. -/
def State.readTj (s : State) (tj : Nat) : State :=
  let t := sext 9 tj
  if ! s.railsOn then s else
  let s1 := s.setFld F.PWR_THERM_TJ tj
  if s.power.thermHold then s1.modPower (fun p => { p with thermHold := decide (100 < t) })
  else if 112 ≤ t then
    ((s1.startReset 6 false).setFld F.PWR_STATE_THERM_TRIP 1).modPower (fun p => { p with thermHold := true })
  else s1.thermForce

/-- R100, R107, step 1: harts and Heddle are clock-stopped, and the device heads for `act`. -/
def State.clockStop (s : State) (act : Nat) : State :=
  (({ s with harts := s.harts.map (fun h => { h with running := false }) } : State).setFld F.CLK_HART_GATED 15).modPower
    (fun p => { p with closing := some act, heddleStopped := true })

/-- R104: every cache is cleaned and emptied. -/
def State.cleanCaches (s : State) : State :=
  let s1 := forAll s.memory.lines (fun x t => t.writeBack x.line) s
  s1.setLines []

/-- R273: both dies enter self-refresh, the dirty check blocks written back first. -/
def State.selfRefresh (s : State) : State :=
  (s.cleanChecks.setFld F.DMC_SELFREF_IN_SR 1).bumpSat F.DMC_SELFREF_ENTRIES F.DMC_SELFREF_SAT

end Sys2Proof.Machine
end

