-- ==== Sys2Proof/Machine/SuperviseOps.lean ====
section
/-! DEFINITION. Belay's release of FAULT_N, its self-test, page CRCs and monitors; the hart watchdogs; and Scree's one-shots (R562 to
R588). -/
namespace Sys2Proof.Machine

/-- Change Belay's own state. -/
def State.modBelay (s : State) (f : BelayState → BelayState) : State := { s with belay := f s.belay }

/-! ### FAULT_N -/

/-- R572: a write to BELAY_ARM. -/
def State.opBelayArm (s : State) (ni : Nat) (v : DWord) : State :=
  let (s1, act) := s.storeReg ni R.BELAY_ARM v
  if Bits.get act 0 16 = 0x5AFE then s1.setFld F.BELAY_STAT_ARMED 1 else s1

/-- R572: clearing the PEND bit of `src` is ignored: a class 4 source with a fault since the last clear that was not injected while
FULL_REACT = 0. -/
def State.pendSticks (s : State) (src : Nat) : Bool := decide (sourceClass src = 4) && s.belay.real.testBit src

/-- R572: a source's PEND bit is cleared: it no longer holds FAULT_N. -/
def State.clearPend (s : State) (src : Nat) : State :=
  s.modBelay (fun b => { b with cls := SMap.erase b.cls src, real := clearBits b.real (2 ^ src), holds := clearBits b.holds (2 ^ src) })

/-- R20, R572: a write to BELAY_PEND. -/
def State.opPendClear (s : State) (ni : Nat) (v : DWord) : State :=
  let old := s.raw R.BELAY_PEND
  let s1 := (s.storeReg ni R.BELAY_PEND v).1
  let s2 := forEach 26 (fun src t =>
    if old.toNat.testBit src && v.toNat.testBit src then
      (if t.pendSticks src then t.setReg R.BELAY_PEND (Bits.put (t.raw R.BELAY_PEND) src 1 1) else t.clearPend src)
    else t) s1
  s2.setHighest

/-- R572: the conditions for the release of FAULT_N hold, `ms` after the latest signalling that asserted it. -/
def State.mayRelease (s : State) (ms : Nat) : Bool :=
  decide (s.power.phase = .run) && s.flag F.BELAY_STAT_STARTUP_DONE && s.flag F.BELAY_STAT_ARMED && s.belay.holds == 0 &&
    decide (s.fld F.BELAY_CFG_MIN_LOW ≤ ms)

/-- R572: Belay releases FAULT_N once it may. -/
def State.releaseFaultN (s : State) (ms : Nat) : State :=
  if s.belay.faultLow && s.mayRelease ms then
    (s.setFld F.BELAY_STAT_FAULT 0).modBelay (fun b => { b with faultLow := false })
  else s

/-- R573: the RESET reaction that is due. -/
def State.belayReset (s : State) : State :=
  match s.belay.resetDue with
  | none => s
  | some cause => s.startReset cause false

/-! ### Self-test -/

/-- R569: the self-test starts; BELAY_COND.SELF_OK reads 0 meanwhile. -/
def State.startSelftest (s : State) : State :=
  match s.belay.test with
  | some _ => s
  | none =>
    let s1 := s.modBelay (fun b => { b with test := some true })
    (((s1.setFld F.BELAY_SELFTEST_BUSY 1).setFld F.BELAY_SELFTEST_PASS 0).setFld F.BELAY_SELFTEST_FAIL 0).evaluateCond

/-- R569: a write to BELAY_SELFTEST. -/
def State.opSelftest (s : State) (ni : Nat) (v : DWord) : State :=
  let (s1, act) := s.storeReg ni R.BELAY_SELFTEST v
  if F.BELAY_SELFTEST_GO.of act = 1 then s1.startSelftest else s1

/-- R569: the self-test ends; a failure of the one after a reset has UNIT 1, of one on request UNIT 2; the fault inputs held are
then processed. -/
def State.endSelftest (s : State) (pass : Bool) : State :=
  match s.belay.test with
  | none => s
  | some onRequest =>
    let held := s.belay.held
    let s1 := s.modBelay (fun b => { b with test := none, selfOk := pass, held := [] })
    let s2 := (((s1.setFld F.BELAY_SELFTEST_BUSY 0).setFlag F.BELAY_SELFTEST_PASS pass).setFlag F.BELAY_SELFTEST_FAIL (! pass)).raise
      P.BELAY E.BELAY_SELFTEST_DONE
    let s3 := if pass then s2.when (! onRequest) (fun t => t.setFld F.BELAY_STAT_STARTUP_DONE 1)
      else s2.signal (FaultInput.of 21 (if onRequest then 2 else 1) 0 0)
    (forAll held (fun f t => t.signal f) s3).evaluateCond

/-- R570: a write to BELAY_SOFT. -/
def State.opBelaySoft (s : State) (ni : Nat) (v : DWord) : State :=
  (s.storeReg ni R.BELAY_SOFT v).1.signal (FaultInput.of 24 0 0 (Bits.get v 0 8))

/-! ### Page CRCs -/

/-- The base address and the registers of page `index` (R162) that may hold RWL fields: PAGE_CTRL, with ENABLE where it is not
fixed (Table Pages-7), and the block-specific ones. -/
def pageAtIndex (index : Nat) : Option (Nat × List RSpec) :=
  (Specs.pages.find? (fun p => decide (p.index ≤ index ∧ index < p.index + p.count))).map
    (fun p => (p.base + 0x1000 * (index - p.index), (headerSpec p 0x08).toList ++ p.regs))

/-- The bits of a register that RWL fields hold. -/
def rwlMask (r : RSpec) : DWord :=
  r.fields.foldl (fun m f => if f.acc = .rwl then Bits.put m f.lo (f.hi - f.lo + 1) (2 ^ 64 - 1) else m) 0#64

/-- R567: the RWL fields of a page, register by register. -/
def State.rwlBytes (s : State) (base : Nat) (regs : List RSpec) : List Byte :=
  regs.flatMap (fun r =>
    let m := rwlMask r
    if m = 0#64 then [] else (List.range r.count).flatMap (fun i => leBytes 8 (s.raw (base + r.off + r.stride * i) &&& m).toNat))

/-- R567: the CRC-32C of a page's RWL fields. Their order is not stated: registers in ascending offset, 8 bytes each. -/
def State.pageCrc (s : State) (index : Nat) : Nat :=
  match pageAtIndex index with
  | none => 0
  | some (base, regs) => crc32c (s.rwlBytes base regs)

/-- R52, R567: Belay takes the reference of a page whose lock has been set. -/
def State.takeReference (s : State) (index : Nat) : State :=
  match AMap.get? s.belay.crc index with
  | some _ => s
  | none =>
    let c := s.pageCrc index
    (s.modBelay (fun b => { b with crc := AMap.put b.crc index c })).setFld F.BELAY_CRC_STAT_PAGES (s.belay.crc.length + 1)

/-- R567: one locked page is compared with its reference. DETAIL is the CRC computed, whose serialisation is not stated. -/
def State.comparePage (s : State) (index ref : Nat) : State :=
  if s.pageCrc index = ref then s else
  let (v, s1) := s.takeFree
  let base := match pageAtIndex index with | some p => p.1 | none => 0
  (s1.setFld F.BELAY_CRC_STAT_LAST_BAD index).signal
    { FaultInput.of 13 index base (v.toNat % 2 ^ 32) with injected := s.belay.crcFlips.contains index }

/-- A fault changes bit `bit` of the RWL fields of the register at `a`, in a locked page. -/
def State.upsetField (s : State) (a bit : Nat) : State :=
  match regAt a with
  | none => s
  | some (_, _, r, _) =>
    if s.pageLocked a && (rwlMask r).toNat.testBit bit then s.setReg a (s.raw a ^^^ BitVec.ofNat 64 (2 ^ bit)) else s

/-- R567: a pass over every locked page, which took `us` µs. -/
def State.crcPass (s : State) (us : Nat) : State :=
  (forAll s.belay.crc (fun e t => t.comparePage e.1 e.2) s).setFld F.BELAY_CRC_STAT_PASS_US us

/-! ### Monitors -/

/-- R568: one copy of monitor `target` stands out of its window, or both: 0–7 rails, 8 XIN, 9–14 PLLs. -/
def monitorFault (target : Nat) (both : Bool) : FaultInput :=
  if ! both then FaultInput.of 20 target 0 0
  else if target ≤ 7 then FaultInput.of 16 target 0 0
  else if target = 8 then FaultInput.of 14 0 0 0
  else FaultInput.of 15 (target - 9) 0 0

/-- CLK_MON_CFG, BELAY_MON.VMON_EN: monitor `target` watches. -/
def State.monitorOn (s : State) (target : Nat) : Bool :=
  if target ≤ 7 then s.flag F.BELAY_MON_VMON_EN else if target = 8 then s.flag F.CLK_MON_CFG_XIN else s.flag F.CLK_MON_CFG_PLL

/-- R562, Table Belay-9: what BELAY_MON and CLK_STAT show of a rail or clock. -/
def State.showMonitor (s : State) (target : Nat) (good : Bool) : State :=
  if target ≤ 7 then s.setReg R.BELAY_MON (Bits.put (s.raw R.BELAY_MON) target 1 (b2n good))
  else if target = 8 then s.setFlag F.CLK_STAT_XIN_OK good
  else s.setReg R.CLK_STAT (Bits.put (s.raw R.CLK_STAT) (3 + target - 9) 1 (b2n good))

/-- R562, R568: a rail switched off by the power state is not watched: VCORE (0) in STOP. -/
def State.railOff (s : State) (target : Nat) : Bool := decide (target = 0 ∧ s.fld F.PWR_STATE_CUR = 3)

/-- R568: a rail or clock leaves its window for both copies, comes back into it, or only one copy says that it left. -/
def State.monitorEvent (s : State) (target : Nat) (k : MonitorEvent) : State :=
  if s.railOff target || ! s.railsOn then s else
  match k with
  | .back => s.showMonitor target true
  | .oneCopy => if s.monitorOn target then s.signal (monitorFault target false) else s
  | .left =>
    let s1 := s.showMonitor target false
    if s.monitorOn target then s1.signal (monitorFault target true) else s1

/-! ### Watchdogs -/

/-- R576: the count starts again from TIMEOUT. -/
def State.wdogRestart (s : State) (n : Nat) : State := s.setFld (F.WDOG_LEFT_MS n) (s.fld (F.WDOG_TIMEOUT_MS n))

/-- R576: an expiry. -/
def State.wdogExpire (s : State) (n : Nat) : State :=
  let s1 := ((s.setFld (F.WDOG_STAT_EXPIRED n) 1).bumpSat F.WDOG_COUNT_COUNT F.WDOG_COUNT_SAT).raise P.WDOG E.WDOG_EXPIRED
  (s1.signal (FaultInput.of 18 n 0 0)).wdogRestart n

/-- R576: a write to WDOG_CTRL_n: EN starts the count. -/
def State.opWdogCtrl (s : State) (ni n : Nat) (v : DWord) : State :=
  let was := s.flag (F.WDOG_CTRL_EN n)
  let s1 := (s.storeReg ni (R.WDOG_CTRL n) v).1
  if s1.flag (F.WDOG_CTRL_EN n) && ! was then (s1.wdogRestart n).setFld (F.WDOG_STAT_RUNNING n) 1 else s1

/-- R576: a write to WDOG_KICK_n, `ms` after the last restart. -/
def State.opWdogKick (s : State) (ni n : Nat) (v : DWord) (ms : Nat) : State :=
  let s1 := (s.storeReg ni (R.WDOG_KICK n) v).1
  if s.wdogAbsent n then s1
  else if Bits.get v 0 32 ≠ 0x4B1C then s1.bump (F.WDOG_BAD_COUNT n)
  else if ! s1.flag (F.WDOG_CTRL_EN n) then s1
  else if ms < s1.fld (F.WDOG_WINDOW_MS n) then (s1.setFld (F.WDOG_STAT_EARLY n) 1).wdogExpire n
  else s1.wdogRestart n

/-- R576: LEFT reaches a non-zero WARN. -/
def State.wdogWarn (s : State) (n : Nat) : State :=
  let w := s.fld (F.WDOG_WARN_MS n)
  if s.wdogCounts n ∧ w ≠ 0 ∧ w ≤ s.fld (F.WDOG_LEFT_MS n) then
    (((s.setFld (F.WDOG_LEFT_MS n) w).setFld (F.WDOG_STAT_WARNED n) 1).raise P.WDOG E.WDOG_WARNED).edge (12 + n)
  else s

/-! ### Scree -/

/-- R579: one-shots not yet applied are cancelled; perturbations end with ARM, ENABLE or the lock themselves. -/
def State.screeEnd (s : State) : State :=
  if s.screeActs then s
  else s.modBelay (fun b => { b with lockstepShots := 0, flitShots := [], moveShots := [], dropCount := 0, pickCount := 0 })

/-- A one-shot has acted: SCREE_LAST, SCREE_COUNT and EVT_RAW.INJECTED. -/
def State.shotApplied (s : State) (off : Nat) : State :=
  ((s.setFld F.SCREE_LAST_OFFSET off).bumpSat F.SCREE_COUNT_COUNT F.SCREE_COUNT_SAT).raise P.SCREE E.SCREE_INJECTED

/-- R581: a one-shot found nothing to hit. -/
def State.shotMissed (s : State) : State := (s.setFld F.SCREE_ECC_GO_MISSED 1).raise P.SCREE E.SCREE_MISSED

/-- R581: the codeword that a target names exists: a cached line held, an address of the memory named. -/
def State.eccTarget (s : State) (array unit a : Nat) : Bool :=
  if array ≤ 2 then (s.lineIn (eccCache array unit) (lineOf a)).isSome
  else if array ≤ 5 then (s.lineIn .l3 (lineOf a)).isSome
  else if array = 6 then (List.range 4).any (fun h => (s.lineIn (.l2 h) (lineOf a)).isSome)
  else if array = 7 then s.inDram a else if array = 8 then inMram a else if array = 9 then inBaseCamp a
  else true

/-- R581, Table Belay-8: SCREE_ECC_GO. -/
def State.eccGo (s : State) : State :=
  let array := s.fld F.SCREE_ECC_TARGET_ARRAY
  let unit := s.fld F.SCREE_ECC_TARGET_UNIT
  let a := s.fld F.SCREE_ECC_ADDR_ADDR
  let bitA := s.fld F.SCREE_ECC_MASK_BIT_A
  let bitB := if s.flag F.SCREE_ECC_MASK_DOUBLE then some (s.fld F.SCREE_ECC_MASK_BIT_B) else none
  let s0 := (s.setFld F.SCREE_ECC_GO_DONE 0).setFld F.SCREE_ECC_GO_MISSED 0
  if ! s.eccTarget array unit a then s0.shotMissed
  else
    let s1 : State :=
      if array = 10 then s0.modBelay (fun b => { b with flitShots := b.flitShots ++ [(unit, a % 4, bitB.isSome)] })
      else if array = 11 then s0.modBelay (fun b => { b with moveShots := b.moveShots ++ [(a % 4096, bitA, bitB)] })
      else { s0 with memory := { s0.memory with flips := s0.memory.flips ++ [⟨array, if array ≤ 2 then unit else 0, codewordOf array a, bitA, bitB, true⟩] } }
    (s1.setFld F.SCREE_ECC_GO_DONE 1).shotApplied 0xBC

/-- A write to a SCREE register whose GO then acts: only while Scree acts (R578). -/
def State.screeGo (s : State) (ni a : Nat) (go : Fld) (v : DWord) (f : State → State) : State :=
  let (s1, act) := s.storeReg ni a v
  if go.of act = 1 && s1.screeActs then f s1 else s1

/-- A write to SCREE_ECC_GO. -/
def State.opEccGo (s : State) (ni : Nat) (v : DWord) : State :=
  s.screeGo ni R.SCREE_ECC_GO F.SCREE_ECC_GO_GO v (fun t => if t.flag F.SCREE_ECC_GO_BUSY then t else t.eccGo)

/-- A write to SCREE_LOCKSTEP. -/
def State.opLockstepGo (s : State) (ni : Nat) (v : DWord) : State :=
  s.screeGo ni R.SCREE_LOCKSTEP F.SCREE_LOCKSTEP_GO v (fun t =>
    (t.modBelay (fun b => { b with lockstepShots := b.lockstepShots ||| 2 ^ t.fld F.SCREE_LOCKSTEP_PAIR })).shotApplied 0xC0)

/-- A write to SCREE_DUP. -/
def State.opDupGo (s : State) (ni : Nat) (v : DWord) : State :=
  s.screeGo ni R.SCREE_DUP F.SCREE_DUP_GO v (fun t =>
    (t.shotApplied 0xC4).signal { FaultInput.of 12 (t.fld F.SCREE_DUP_UNIT) 0 0 with injected := true })

/-- A write to SCREE_CRC: bit 0 of the reference of a locked page flips. -/
def State.opCrcGo (s : State) (ni : Nat) (v : DWord) : State :=
  s.screeGo ni R.SCREE_CRC F.SCREE_CRC_GO v (fun t =>
    let p := t.fld F.SCREE_CRC_PAGE
    match AMap.get? t.belay.crc p with
    | none => t.shotMissed
    | some c =>
      (t.modBelay (fun b => { b with crc := AMap.put b.crc p (c ^^^ 1),
                                     crcFlips := if b.crcFlips.contains p then b.crcFlips.erase p else b.crcFlips ++ [p] })).shotApplied 0xC8)

/-- A write to SCREE_MON: one copy, or both, of a monitor are held out of window for 2 µs. -/
def State.opMonGo (s : State) (ni : Nat) (v : DWord) : State :=
  s.screeGo ni R.SCREE_MON F.SCREE_MON_GO v (fun t =>
    let target := t.fld F.SCREE_MON_TARGET
    let t1 := t.shotApplied 0xCC
    if t1.monitorOn target && ! t1.railOff target then
      t1.signal { monitorFault target (! t.flag F.SCREE_MON_COPY_A_ONLY) with injected := true }
    else t1)

/-- A write to SCREE_ENTROPY, `ms` after the previous failure of a health test: MODE 1 repetition, 2 proportion. -/
def State.opEntropyGo (s : State) (ni ms : Nat) (v : DWord) : State :=
  s.screeGo ni R.SCREE_ENTROPY F.SCREE_ENTROPY_GO v (fun t =>
    let mode := t.fld F.SCREE_ENTROPY_MODE
    if mode = 1 ∨ mode = 2 then (t.shotApplied 0xA8).opHealthFail mode ms true else t)

end Sys2Proof.Machine
end

