-- ==== Sys2Proof/Machine/Belay.lean ====
section
/-! DEFINITION. The commands of Belay, the watchdogs and Scree (R561 to R588). -/
namespace Sys2Proof.Machine

/-- FAULT_SIGNAL (R571): a mechanism of Table Belay-3 reports a fault; the class of source 7 follows its target and initiator. Without
its rails Belay is off (R587). -/
def execFaultSignal (src : Fin 26) (soft : Bool) (unit : Byte) (addr : BitVec 40) (detail : BitVec 32) (s : State) :
    Host.Outcome State Fault Refusal :=
  .next (if src.val = 0 ∨ ! s.railsOn then s
    else s.signal ⟨src.val, if src.val = 7 ∧ soft then 2 else sourceClass src.val, unit.toNat, addr.toNat, detail.toNat, false⟩)

/-- BELAY_RESET_REACTION (R573). -/
def execBelayResetReaction (s : State) : Host.Outcome State Fault Refusal := .next s.belayReset

/-- BELAY_ARM (R572): a write of `key`. -/
def execBelayArm (q : Req) (key : BitVec 16) (s : State) : Host.Outcome State Fault Refusal :=
  .next (s.gateWrite q R.BELAY_ARM .w (key.zeroExtend 64) (fun t => t.opBelayArm q.ni.val (key.zeroExtend 64)))

/-- PEND_CLEAR (R572). -/
def execPendClear (q : Req) (m : BitVec 32) (s : State) : Host.Outcome State Fault Refusal :=
  .next (s.gateWrite q R.BELAY_PEND .w (m.zeroExtend 64) (fun t => t.opPendClear q.ni.val (m.zeroExtend 64)))

/-- FAULT_N_RELEASE (R572): `ms` after the latest signalling that asserted FAULT_N. -/
def execFaultNRelease (ms : BitVec 32) (s : State) : Host.Outcome State Fault Refusal := .next (s.releaseFaultN ms.toNat)

/-- COND_EVALUATION (R562, R113, R114): Belay re-evaluates with the readings of VIN, in mV, and TJ, in °C, which act on the supply
circuits as any reading does. Without its rails Belay is off (R587). -/
def execCondEvaluation (vin : BitVec 16) (tj : BitVec 9) (s : State) : Host.Outcome State Fault Refusal :=
  .next (if s.railsOn then ((s.setFld F.PWR_MON_VIN vin.toNat).readTj tj.toNat).evaluateCond else s)

/-- CRC_PASS (R567): a pass that took `us` µs; `hit` is a bit of a register that a fault changed before it. -/
def execCrcPass (us : BitVec 16) (hit : Option (BitVec 32 × Fin 64)) (s : State) : Host.Outcome State Fault Refusal :=
  .next (s.when s.railsOn (fun u => (match hit with | some (a, b) => u.upsetField a.toNat b.val | none => u).crcPass us.toNat))

/-- R566, R587: the two copies of the control logic of unit `unit` are clocked and compared. -/
def State.dupCompared (s : State) (unit : Nat) : Bool :=
  if unit = 0 then s.fabricRuns && ! s.power.heddleStopped else if unit = 1 then s.kept 2 else if unit = 2 then s.kept 0 else s.kept 1

/-- DUP_MISMATCH (R566): 0 Heddle, 1 Cairn, 2 Reed, 3 Shuttle. -/
def execDupMismatch (unit : Fin 4) (s : State) : Host.Outcome State Fault Refusal :=
  .next (s.when (s.dupCompared unit.val) (fun t => t.signal (FaultInput.of 12 unit.val 0 0)))

/-- MONITOR_EXCURSION (R568): monitor 0–7 rails, 8 XIN, 9–14 PLLs. -/
def execMonitorExcursion (target : Fin 15) (k : MonitorEvent) (s : State) : Host.Outcome State Fault Refusal :=
  .next (s.monitorEvent target.val k)

/-- SELFTEST (R569): a write of BELAY_SELFTEST.GO. -/
def execSelftest (q : Req) (s : State) : Host.Outcome State Fault Refusal :=
  .next (s.gateWrite q R.BELAY_SELFTEST .w 1#64 (fun t => t.opSelftest q.ni.val 1#64))

/-- BELAY_SOFT (R570). -/
def execBelaySoft (q : Req) (code : Byte) (s : State) : Host.Outcome State Fault Refusal :=
  .next (s.gateWrite q R.BELAY_SOFT .w (code.zeroExtend 64) (fun t => t.opBelaySoft q.ni.val (code.zeroExtend 64)))

/-- WDOG_KICK (R576): a write of `key`, `ms` after the last restart. -/
def execWdogKick (q : Req) (n : Fin 4) (key : BitVec 32) (ms : Nat) (s : State) : Host.Outcome State Fault Refusal :=
  .next (s.gateWrite q (R.WDOG_KICK n.val) .w (key.zeroExtend 64) (fun t => t.opWdogKick q.ni.val n.val (key.zeroExtend 64) ms))

/-- WDOG_WARN (R576). -/
def execWdogWarn (n : Fin 4) (s : State) : Host.Outcome State Fault Refusal := .next (s.wdogWarn n.val)

/-- WDOG_EXPIRY (R576). -/
def execWdogExpiry (n : Fin 4) (s : State) : Host.Outcome State Fault Refusal :=
  .next (if s.wdogCounts n.val then s.wdogExpire n.val else s)

/-- SCREE_END (R579). -/
def execScreeEnd (s : State) : Host.Outcome State Fault Refusal := .next s.screeEnd

/-- ECC_GO (R581). -/
def execEccGo (q : Req) (s : State) : Host.Outcome State Fault Refusal :=
  .next (s.gateWrite q R.SCREE_ECC_GO .w 1#64 (fun t => t.opEccGo q.ni.val 1#64))

/-- LOCKSTEP_GO (Table Belay-8): PAIR and GO. -/
def execLockstepGo (q : Req) (pairB : Bool) (s : State) : Host.Outcome State Fault Refusal :=
  let v := BitVec.ofNat 64 (F.SCREE_LOCKSTEP_PAIR.at (b2n pairB) + F.SCREE_LOCKSTEP_GO.at 1)
  .next (s.gateWrite q R.SCREE_LOCKSTEP .w v (fun t => t.opLockstepGo q.ni.val v))

/-- DUP_GO (Table Belay-8): UNIT and GO. -/
def execDupGo (q : Req) (unit : Fin 4) (s : State) : Host.Outcome State Fault Refusal :=
  let v := BitVec.ofNat 64 (F.SCREE_DUP_UNIT.at unit.val + F.SCREE_DUP_GO.at 1)
  .next (s.gateWrite q R.SCREE_DUP .w v (fun t => t.opDupGo q.ni.val v))

/-- CRC_GO (Table Belay-8): PAGE and GO. -/
def execCrcGo (q : Req) (page : BitVec 7) (s : State) : Host.Outcome State Fault Refusal :=
  let v := BitVec.ofNat 64 (F.SCREE_CRC_PAGE.at page.toNat + F.SCREE_CRC_GO.at 1)
  .next (s.gateWrite q R.SCREE_CRC .w v (fun t => t.opCrcGo q.ni.val v))

/-- MON_GO (Table Belay-8): TARGET, COPY_A_ONLY and GO. -/
def execMonGo (q : Req) (target : Fin 16) (copyAOnly : Bool) (s : State) : Host.Outcome State Fault Refusal :=
  let v := BitVec.ofNat 64 (F.SCREE_MON_TARGET.at target.val + F.SCREE_MON_COPY_A_ONLY.at (b2n copyAOnly) + F.SCREE_MON_GO.at 1)
  .next (s.gateWrite q R.SCREE_MON .w v (fun t => t.opMonGo q.ni.val v))

/-- ENTROPY_GO (Table Belay-7): MODE and GO, `ms` after the previous failure of a health test. -/
def execEntropyGo (q : Req) (mode : Fin 4) (ms : Nat) (s : State) : Host.Outcome State Fault Refusal :=
  let v := BitVec.ofNat 64 (F.SCREE_ENTROPY_MODE.at mode.val + F.SCREE_ENTROPY_GO.at 1)
  .next (s.gateWrite q R.SCREE_ENTROPY .w v (fun t => t.opEntropyGo q.ni.val ms v))

/-- SELFTEST_DONE (R569). -/
def execSelftestDone (pass : Bool) (s : State) : Host.Outcome State Fault Refusal := .next (s.endSelftest pass)

end Sys2Proof.Machine
end

