-- ==== Sys2Proof/Machine/BobbinCodec.lean ====
section
/-! DEFINITION. Bobbin's code as pure functions (R414 to R423, R429): prediction, quantisation, Rice coding, the block
header, and the decoding of a block. -/
namespace Sys2Proof.Machine

/-- R417: limit a value to 16 bits. -/
def clamp16 (v : Int) : Int := if v < -32768 then -32768 else if 32767 < v then 32767 else v

/-- R414: the samples of channel `c` of a block of `n` channels. -/
def Bobbin.channel (c n : Nat) (bs : List Byte) : List Int :=
  (List.range (bs.length / (2 * n))).map (fun t => sext 16 (leNat (slice (2 * (t * n + c)) 2 bs)))

/-- R417: the prediction of effective order `ord` from the last two reconstructed samples. -/
def Bobbin.predict (ord : Nat) (h1 h2 : Int) : Int :=
  if ord = 0 then 0 else if ord = 1 then h1 else clamp16 (2 * h1 - h2)

/-- R418: the quantised residual. -/
def Bobbin.quantise (e : Nat) (r : Int) : Int :=
  let j : Int := ((r.natAbs + e) / (2 * e + 1) : Nat)
  if r < 0 then -j else j

/-- R419: a quantised residual as an unsigned code. -/
def Bobbin.fold (m : Int) : Nat := if 0 ≤ m then (2 * m).toNat else (-2 * m - 1).toNat

/-- R419 read backwards. -/
def Bobbin.unfold (u : Nat) : Int := if u % 2 = 1 then -(((u + 1) / 2 : Nat) : Int) else ((u / 2 : Nat) : Int)

/-- R417, R418: the codes of a channel under prediction order `order` and bound `e`. -/
def Bobbin.codes (order e : Nat) : Nat → Int → Int → List Int → List Nat
  | _, _, _, [] => []
  | t, h1, h2, x :: xs =>
    let p := Bobbin.predict (min t order) h1 h2
    let m := Bobbin.quantise e (x - p)
    let y := clamp16 (p + m * (2 * e + 1 : Nat))
    Bobbin.fold m :: Bobbin.codes order e (t + 1) y h1 xs

/-- R420: bits of one code. -/
def Bobbin.codeLen (k u : Nat) : Nat := if u / 2 ^ k < 16 then u / 2 ^ k + 1 + k else 33

/-- R420: bits of a group under parameter `k`. -/
def Bobbin.groupLen (us : List Nat) (k : Nat) : Nat := us.foldl (fun n u => n + Bobbin.codeLen k u) 4

/-- The number below `n` with the smallest measure, the smaller on a tie. -/
def Bobbin.argmin (n : Nat) (f : Nat → Nat) : Nat :=
  (List.range n).foldl (fun b k => if f k < f b then k else b) 0

/-- R420: groups of 16. -/
def Bobbin.groups (us : List Nat) : List (List Nat) := (List.range ((us.length + 15) / 16)).map (fun i => (us.drop (16 * i)).take 16)

/-- The `n` low bits of a number, most significant first. -/
def bitsOfNat (n v : Nat) : List Bool := (List.range n).map (fun i => v.testBit (n - 1 - i))

/-- R420: the bits of one code. -/
def Bobbin.codeBits (k u : Nat) : List Bool :=
  let q := u / 2 ^ k
  if q < 16 then List.replicate q true ++ [false] ++ bitsOfNat k u else List.replicate 16 true ++ bitsOfNat 17 u

/-- R420: the bits of one group. -/
def Bobbin.groupBits (us : List Nat) : List Bool :=
  let k := Bobbin.argmin 16 (Bobbin.groupLen us)
  bitsOfNat 4 k ++ us.flatMap (Bobbin.codeBits k)

/-- R417: the order with the fewest bits and the bits of the channel. -/
def Bobbin.channelBits (e : Nat) (xs : List Int) : Nat × List Bool :=
  let f (o : Nat) := (Bobbin.groups (Bobbin.codes o e 0 0 0 xs)).flatMap Bobbin.groupBits
  let o := Bobbin.argmin 3 (fun o => (f o).length)
  (o, f o)

/-- R421: bits packed from the most significant bit of each byte down, the last byte filled with zeros. -/
def packBits (bs : List Bool) : List Byte :=
  (List.range ((bs.length + 7) / 8)).map (fun i =>
    BitVec.ofNat 8 ((List.range 8).foldl (fun n j => 2 * n + b2n ((bs[8 * i + j]?).getD false)) 0))

/-- Table Bobbin-2: a block with its check computed over it (R423). -/
def Bobbin.block (ty mode c l e pred seq : Nat) (payload : List Byte) : List Byte :=
  let h (check : Nat) := leBytes 4 (0xB6 + ty * 2 ^ 8 + mode * 2 ^ 10 + (c - 1) * 2 ^ 12 + (l / 16 - 1) * 2 ^ 16 + e * 2 ^ 24)
    ++ leBytes 4 (16 + payload.length + pred * 2 ^ 16) ++ leBytes 4 seq ++ leBytes 4 check
  h (crc32c (h 0 ++ payload)) ++ payload

/-- R421, R423: the CODED block at bound `e`. -/
def Bobbin.coded (mode c l e seq : Nat) (bs : List Byte) : List Byte :=
  let chs := (List.range c).map (fun i => Bobbin.channelBits e (Bobbin.channel i c bs))
  let pred := (chs.foldr (fun x n => x.1 + 4 * n) 0)
  Bobbin.block 0 mode c l e pred seq (packBits (chs.flatMap (fun x => x.2)))

/-- R422: the RAW block. -/
def Bobbin.raw (mode c l seq : Nat) (bs : List Byte) : List Byte := Bobbin.block 1 mode c l 0 0 seq bs

/-- Table Bobbin-3: the SUMMARY block. -/
def Bobbin.summary (mode c l seq : Nat) (bs : List Byte) : List Byte :=
  Bobbin.block 2 mode c l 0 0 seq ((List.range c).flatMap (fun i =>
    let xs := Bobbin.channel i c bs
    let mn := xs.foldl min (xs.headD 0)
    let mx := xs.foldl max (xs.headD 0)
    leBytes 2 (unsext 16 mn) ++ leBytes 2 (unsext 16 mx) ++ leBytes 4 (unsext 32 (xs.foldl (· + ·) 0))
      ++ leBytes 8 (xs.foldl (fun n x => n + x.natAbs * x.natAbs) 0)))

/-- R416: the rungs of BUDGET. -/
def Bobbin.ladder : List Nat := [0, 1, 2, 4, 8, 16, 32, 64, 128, 255]

/-- R422: the smaller of the coded and RAW blocks at bound `e`, RAW on a tie, with the E of its header. -/
def Bobbin.atBound (mode c l e seq : Nat) (bs : List Byte) : List Byte × Nat :=
  let k := Bobbin.coded mode c l e seq bs
  if 16 + 2 * c * l ≤ k.length then (Bobbin.raw mode c l seq bs, 0) else (k, e)

/-- R415 to R422: the block a context of this mode emits, its E, and whether it is a SUMMARY. -/
def Bobbin.encode (mode c l e n seq : Nat) (bs : List Byte) : List Byte × Nat × Bool :=
  if mode = 0 then let r := Bobbin.atBound mode c l 0 seq bs; (r.1, r.2, false)
  else if mode = 1 then let r := Bobbin.atBound mode c l e seq bs; (r.1, r.2, false)
  else
    match Bobbin.ladder.findSome? (fun r =>
      let b := if r = 0 then Bobbin.atBound mode c l 0 seq bs else (Bobbin.coded mode c l r seq bs, r)
      if b.1.length ≤ n then some b else none) with
    | some b => (b.1, b.2, false)
    | none => (Bobbin.summary mode c l seq bs, 0, true)

/-- The header fields of Table Bobbin-2. -/
structure Bobbin.Header where
  /-- TYPE -/
  ty : Nat
  /-- channels -/
  c : Nat
  /-- samples per channel -/
  l : Nat
  /-- E -/
  e : Nat
  /-- LENGTH -/
  length : Nat
  /-- PRED -/
  pred : Nat
  /-- CHECK -/
  check : Nat
deriving DecidableEq, Repr

/-- Read a header. -/
def Bobbin.header (h : List Byte) : Bobbin.Header :=
  let w0 := leNat (slice 0 4 h)
  let w1 := leNat (slice 4 4 h)
  ⟨w0 / 2 ^ 8 % 4, w0 / 2 ^ 12 % 8 + 1, (w0 / 2 ^ 16 % 64 + 1) * 16, w0 / 2 ^ 24, w1 % 65536, w1 / 65536, leNat (slice 12 4 h)⟩

/-- R429, DETAIL 2: every header field obeys its Legal column. -/
def Bobbin.headerOk (h : List Byte) : Bool :=
  let w0 := leNat (slice 0 4 h)
  let d := Bobbin.header h
  decide (w0 % 256 = 0xB6) && decide (d.ty ≤ 2) && ! w0.testBit 15 && decide (w0 / 2 ^ 22 % 4 = 0) && decide (64 ≤ d.l) &&
    decide (w0 / 2 ^ 10 % 4 ≤ 2) && (decide (d.ty = 0) || decide (d.e = 0)) &&
    (if d.ty = 0 then (List.range 8).all (fun i => let p := d.pred / 4 ^ i % 4; if i < d.c then decide (p ≤ 2) else p == 0)
     else d.pred == 0)

/-- R429, DETAIL 3: LENGTH suits TYPE, as far as it can be told before the bitstream is read. -/
def Bobbin.lengthOk (d : Bobbin.Header) : Bool :=
  if d.ty = 1 then d.length == 16 + 2 * d.c * d.l else if d.ty = 2 then d.length == 16 + 16 * d.c else decide (16 ≤ d.length)

/-- Read `n` bits, most significant first; none past the end. -/
def takeBits : Nat → List Bool → Option (Nat × List Bool)
  | 0, bs => some (0, bs)
  | _ + 1, [] => none
  | n + 1, b :: bs => (takeBits n bs).map (fun r => (b2n b * 2 ^ n + r.1, r.2))

/-- Read one-bits up to 16, and the zero-bit that ends fewer. -/
def takeOnes : Nat → List Bool → Option (Nat × List Bool)
  | 0, bs => some (0, bs)
  | _ + 1, [] => none
  | _ + 1, false :: bs => some (0, bs)
  | n + 1, true :: bs => (takeOnes n bs).map (fun r => (r.1 + 1, r.2))

/-- R420: read one code. -/
def Bobbin.readCode (k : Nat) (bs : List Bool) : Option (Nat × List Bool) :=
  match takeOnes 16 bs with
  | none => none
  | some (q, r) => if q = 16 then takeBits 17 r else (takeBits k r).map (fun x => (q * 2 ^ k + x.1, x.2))

/-- Read `n` codes. -/
def Bobbin.readCodes (k : Nat) : Nat → List Bool → Option (List Nat × List Bool)
  | 0, bs => some ([], bs)
  | n + 1, bs =>
    match Bobbin.readCode k bs with
    | none => none
    | some (u, r) => (Bobbin.readCodes k n r).map (fun x => (u :: x.1, x.2))

/-- Read `g` groups. -/
def Bobbin.readGroups : Nat → List Bool → Option (List Nat × List Bool)
  | 0, bs => some ([], bs)
  | g + 1, bs =>
    match takeBits 4 bs with
    | none => none
    | some (k, r) =>
      match Bobbin.readCodes k 16 r with
      | none => none
      | some (us, r2) => (Bobbin.readGroups g r2).map (fun x => (us ++ x.1, x.2))

/-- R417, R418: the samples that a channel's codes rebuild. -/
def Bobbin.rebuild (order e : Nat) : Nat → Int → Int → List Nat → List Int
  | _, _, _, [] => []
  | t, h1, h2, u :: us =>
    let x := clamp16 (Bobbin.predict (min t order) h1 h2 + Bobbin.unfold u * (2 * e + 1 : Nat))
    x :: Bobbin.rebuild order e (t + 1) x h1 us

/-- R421: the channels of a CODED payload, and the fill bits left. -/
def Bobbin.readChannels (d : Bobbin.Header) : List Nat → List Bool → Option (List (List Int) × List Bool)
  | [], bs => some ([], bs)
  | c :: cs, bs =>
    match Bobbin.readGroups (d.l / 16) bs with
    | none => none
    | some (us, r) => (Bobbin.readChannels d cs r).map (fun x => (Bobbin.rebuild (d.pred / 4 ^ c % 4) d.e 0 0 0 us :: x.1, x.2))

/-- R414: channels interleaved. -/
def Bobbin.interleave (l : Nat) (chs : List (List Int)) : List Byte :=
  (List.range l).flatMap (fun t => chs.flatMap (fun xs => leBytes 2 (unsext 16 ((xs[t]?).getD 0))))

/-- R424: SUM ÷ L to the nearest whole number, halves away from zero, in 16 bits. -/
def Bobbin.mean (sum : Int) (l : Nat) : Int :=
  let q : Int := ((2 * sum.natAbs + l) / (2 * l) : Nat)
  clamp16 (if sum < 0 then -q else q)

/-- R424, R429: the samples of a block whose header, LENGTH and CHECK are good; none when its bitstream is not. -/
def Bobbin.decodePayload (d : Bobbin.Header) (payload : List Byte) : Option (List Byte) :=
  if d.ty = 1 then some payload
  else if d.ty = 2 then
    some (Bobbin.interleave d.l ((List.range d.c).map (fun i =>
      List.replicate d.l (Bobbin.mean (sext 32 (leNat (slice (16 * i + 4) 4 payload))) d.l))))
  else
    match Bobbin.readChannels d (List.range d.c) (payload.flatMap bitsMsb) with
    | none => none
    | some (chs, fill) => if fill.length < 8 ∧ fill.all (fun b => ! b) then some (Bobbin.interleave d.l chs) else none

end Sys2Proof.Machine
end

