-- ==== Sys2Proof/Machine/Bobbin.lean ====
section
/-! DEFINITION. CODEC items (R424 to R433): the start of an item, one block at a time, and the end of an item. -/
namespace Sys2Proof.Machine

/-- The job of channel `c`. -/
def State.bobJob (s : State) (c : Nat) : Option BobbinJob := AMap.get? s.bobbin.jobs c

/-- Replace the job of channel `c`. -/
def State.setBobJob (s : State) (c : Nat) (j : BobbinJob) : State := { s with bobbin := { s.bobbin with jobs := AMap.put s.bobbin.jobs c j } }

/-- R415: the item of channel `c` reads its context's configuration when it starts. -/
def State.bobStart (s : State) (c : Nat) (k : HeddleChannel) (it : HeddleItem) : State :=
  match s.bobJob c with
  | some _ => s
  | none => (s.setBobJob c ⟨s.raw (R.BOBBIN_CTX_CFG (k.e.ctx % 16)), 0, false⟩).startItem c it.index

/-- R425: the block of channel `c` at PRIO `prio` has been Bobbin's last. -/
def State.bobTurn (s : State) (prio c : Nat) : State := { s with bobbin := { s.bobbin with turn := AMap.put s.bobbin.turn prio c } }

/-- R429: a corrupt block. -/
def State.bobCorrupt (s : State) (c idx detail : Nat) : State :=
  (((s.bumpSat F.BOBBIN_ERR_COUNT F.BOBBIN_ERR_SAT).setFld F.BOBBIN_ERR_LAST_DETAIL detail).raise P.BOBBIN E.BOBBIN_DECODE_ERROR).decideItem
    c idx 4 detail

/-- R424, R427: the status of an item whose blocks are all done; `rest` bytes of an ENCODE item were ignored. -/
def State.bobFinish (s : State) (c idx : Nat) (j : BobbinJob) (encode : Bool) (rest : Nat) : State :=
  if encode && rest != 0 then s.decideItem c idx 11 2
  else if j.summary then s.decideItem c idx 6 0
  else s.decideItem c idx 0 (if encode then j.maxE else 0)

/-- R428: the output of a block lands, or passes the capacity of DST. -/
def State.bobWrite (s : State) (c : Nat) (k : HeddleChannel) (it : HeddleItem) (taken : Nat) (out : List Byte) : State × Bool :=
  if it.param % 2 ^ 24 < it.bytes + out.length then ((s.raise P.BOBBIN E.BOBBIN_CAPACITY).decideItem c it.index 4 1, false)
  else
    let x := s.heddleWrite c k.e.inst (it.dst + it.bytes) out
    match x.fail with
    | some (st, d) => ((x.s.modItem c it.index (fun i => { i with bytes := it.bytes + x.done })).decideItem c it.index st d, false)
    | none => (x.s.progress c it.index (fun i => { i with done := it.done + taken, bytes := it.bytes + out.length }), true)

/-- R416 to R428: one ENCODE block of channel `c`: SEQ is taken first, then the input is read, coded and written whole. -/
def State.bobEncodeBlock (s : State) (c : Nat) (k : HeddleChannel) (it : HeddleItem) (j : BobbinJob) : State :=
  let g := fun (f : Nat → Fld) => (f 0).of j.cfg
  let ch := g F.BOBBIN_CTX_CFG_CHANNELS
  let l := g F.BOBBIN_CTX_CFG_BLOCK_LEN
  let n := 2 * ch * l
  let rest := it.len - it.done
  if rest < n then s.bobFinish c it.index j true rest else
  let seqF := F.BOBBIN_CTX_SEQ_SEQ (k.e.ctx % 16)
  let seq := s.fld seqF
  let s1 := (s.inc seqF).setFld F.BOBBIN_STAT_CH c
  let x := s1.heddleRead c k.e.inst 1 (it.src + it.done) n
  match x.fail with
  | some (st, d) => x.s.decideItem c it.index st d
  | none =>
    let (out, e, sum) := Bobbin.encode (g F.BOBBIN_CTX_CFG_MODE) ch l (g F.BOBBIN_CTX_CFG_E) (g F.BOBBIN_CTX_CFG_N) seq x.data
    match x.s.bobWrite c k it n out with
    | (s2, false) => s2
    | (s2, true) =>
      let s3 := s2.when sum (fun t => (t.bumpSat F.BOBBIN_SUMMARY_COUNT_COUNT F.BOBBIN_SUMMARY_COUNT_SAT).raise P.BOBBIN E.BOBBIN_SUMMARY)
      let j1 : BobbinJob := { j with maxE := max j.maxE e, summary := j.summary || sum }
      let s4 := s3.setBobJob c j1
      if rest - n < n then s4.bobFinish c it.index j1 true (rest - n) else s4

/-- R424, R428, R429: one DECODE block of channel `c`. -/
def State.bobDecodeBlock (s : State) (c : Nat) (k : HeddleChannel) (it : HeddleItem) (j : BobbinJob) : State :=
  let rest := it.len - it.done
  if rest = 0 then s.bobFinish c it.index j false 0
  else if rest < 16 then s.bobCorrupt c it.index 3
  else
    let s0 := s.setFld F.BOBBIN_STAT_CH c
    let x := s0.heddleRead c k.e.inst 1 (it.src + it.done) 16
    match x.fail with
    | some (st, d) => x.s.decideItem c it.index st d
    | none =>
      let h := Bobbin.header x.data
      if ! Bobbin.headerOk x.data then x.s.bobCorrupt c it.index 2
      else if ! Bobbin.lengthOk h || decide (rest < h.length) then x.s.bobCorrupt c it.index 3
      else
        let y := x.s.heddleRead c k.e.inst 1 (it.src + it.done + 16) (h.length - 16)
        match y.fail with
        | some (st, d) => y.s.decideItem c it.index st d
        | none =>
          if crc32c (slice 0 12 x.data ++ List.replicate 4 0#8 ++ y.data) ≠ h.check then y.s.bobCorrupt c it.index 4
          else
            match Bobbin.decodePayload h y.data with
            | none => y.s.bobCorrupt c it.index 3
            | some out =>
              match y.s.bobWrite c k it h.length out with
              | (s3, false) => s3
              | (s3, true) =>
                let j1 : BobbinJob := { j with summary := j.summary || h.ty == 2 }
                let s4 := s3.setBobJob c j1
                if rest = h.length then s4.bobFinish c it.index j1 false 0 else s4

/-- R425: Bobbin takes its next block from the CODEC channel that the order selects, by the blocks it has done itself; the channel may issue
a transaction. -/
def State.bobTakes (s : State) (c : Nat) (k : HeddleChannel) : Bool := s.kindPicks s.bobbin.turn c k && s.mayIssue c k

/-- R408, R425, R426, R433: Bobbin does one block of the item channel `c` executes. While ENABLED = 0 the item ends; while a soft reset runs with
ENABLE = 1 it waits. -/
def State.opBobbinBlock (s : State) (c : Nat) : State :=
  match s.itemOf c 5 with
  | none => s
  | some (k, it) =>
    if ! s.running P.BOBBIN then s.decideItem c it.index 4 5
    else if s.resetting P.BOBBIN || ! s.bobTakes c k then s
    else
      match s.takeShot c k it with
      | some t => t
      | none =>
        let s1 := (s.bobTurn k.e.prio c).bobStart c k it
        match s1.bobJob c with
        | none => s1
        | some j => if it.op = 0 then s1.bobEncodeBlock c k it j else s1.bobDecodeBlock c k it j

/-- Blocks of the item at ring index `idx` in turn, until it has a status. -/
def bobbinBlocks : Nat → State → Nat → Nat → State
  | 0, s, _, _ => s
  | n + 1, s, c, idx =>
    match s.itemOf c 5 with
    | none => s
    | some (_, it) => if it.index = idx then bobbinBlocks n (s.opBobbinBlock c) c idx else s

/-- R424: a whole item of the given OP. The smallest block takes 16 bytes of LEN. -/
def State.opCodec (s : State) (c op : Nat) : State :=
  match s.itemOf c 5 with
  | none => s
  | some (_, it) => if it.op = op then bobbinBlocks (it.len / 16 + 1) s c it.index else s

/-- R433: Bobbin stops: every item in it ends. -/
def State.bobbinStop (s : State) : State :=
  let s1 := forAll s.bobbin.jobs (fun j t =>
    match t.itemOf j.1 5 with
    | some (_, it) => t.decideItem j.1 it.index 4 5
    | none => t) s
  { s1 with bobbin := { s1.bobbin with turn := [] } }

/-- R449: the abort of a channel's block: it is not written. -/
def State.bobbinAbort (s : State) (c : Nat) : State := { s with bobbin := { s.bobbin with jobs := SMap.erase s.bobbin.jobs c } }

/-- ENCODE: the ENCODE item that channel `ch` executes runs to its end. -/
def execEncode (ch : BitVec 12) (s : State) : Host.Outcome State Fault Refusal := .next (s.opCodec ch.toNat 0)

/-- DECODE: the DECODE item that channel `ch` executes runs to its end. -/
def execDecode (ch : BitVec 12) (s : State) : Host.Outcome State Fault Refusal := .next (s.opCodec ch.toNat 1)

/-- BOBBIN_BLOCK: one block of the item that channel `ch` executes. -/
def execBobbinBlock (ch : BitVec 12) (s : State) : Host.Outcome State Fault Refusal := .next (s.opBobbinBlock ch.toNat)

end Sys2Proof.Machine
end

