-- ==== Sys2Proof/Machine/FieldOps.lean ====
section
/-! DEFINITION. Ethernet frames, the PTP clock, the serial lines and the ADCs as shared operations (R490 to R518). -/
namespace Sys2Proof.Machine

/-- R102: the block of page `p` is clocked; in STOP only the UARTs, the ADCs and GPIO can be, as CLK_STOP_KEEP_n says. -/
def State.pageClocked (s : State) (p : Nat) : Bool :=
  if p = P.GPIO then s.kept 6
  else if p = P.ADC 0 ∨ p = P.ADC 1 then s.kept 7
  else match (List.range 6).find? (fun n => decide (p = P.UART n)) with
    | some n => s.keptUart n
    | none => s.fabricRuns

/-- The page at `p` works: enabled, not in soft reset, and clocked. -/
def State.ioLive (s : State) (p : Nat) : Bool := s.pageClocked p && s.running p && ! s.resetting p

/-- The item a port command works on, when its PARAM is legal: R490 clamps a reserved PARAM bit with DETAIL 1. -/
def State.ioItemAny (s : State) (kind port legalParam : Nat) : State × Option (Nat × HeddleChannel × HeddleItem) :=
  match s.portItem kind port with
  | none => (s, none)
  | some (c, k, it) =>
    if clearBits it.param legalParam = 0 then (s, some (c, k, it))
    else ((s.modItem c it.index (fun i => { i with clamp := 1 })).decideItem c it.index 11 1, none)

/-- The item a port command moves bytes for, when its channel may issue a transaction (R150, R403, R437). A shot of Scree that waits for it
fails its move check (R408). -/
def State.ioItem (s : State) (kind port legalParam : Nat) : State × Option (Nat × HeddleChannel × HeddleItem) :=
  match s.ioItemAny kind port legalParam with
  | (s1, none) => (s1, none)
  | (s1, some (c, k, it)) =>
    if ! s1.mayIssue c k then (s1, none)
    else match s1.takeShot c k it with
      | some t => (t, none)
      | none => (s1, some (c, k, it))

/-- R491: the items of a page's ports end with DETAIL 9. -/
def State.ioStopPort (s : State) (kind port : Nat) : State :=
  let s1 := match s.portItem kind port with
    | some (c, _, it) => s.decideItem c it.index 4 9
    | none => s
  { s1 with field := { s1.field with held := SMap.erase s1.field.held port } }

/-! ### PTP clock -/

/-- The PTP time in units of 2^−32 ns, seconds folded in. -/
def State.ptpNow (s : State) : Nat :=
  ((s.field.ptpHi * 2 ^ 32 + s.fld F.PTPCLK_TIME_SEC) * 1000000000 + s.fld F.PTPCLK_TIME_NS) * 2 ^ 32 + s.field.ptpFrac

/-- Set the PTP time; seconds wrap at 48 bits. -/
def State.setPtp (s : State) (t : Nat) : State :=
  let ns := t / 2 ^ 32
  let sec := ns / 1000000000 % 2 ^ 48
  let s1 := (s.setFld F.PTPCLK_TIME_SEC sec).setFld F.PTPCLK_TIME_NS (ns % 1000000000)
  { s1 with field := { s1.field with ptpHi := sec / 2 ^ 32, ptpFrac := t % 2 ^ 32 } }

/-- PTPCLK_TARGET in the same units. -/
def State.ptpTarget (s : State) : Nat :=
  ((s.fld F.PTPCLK_TARGET_HI_SEC_HI * 2 ^ 32 + s.fld F.PTPCLK_TARGET_SEC) * 1000000000 + s.fld F.PTPCLK_TARGET_NS) * 2 ^ 32

/-- R498: the target is reached: producer 57 pulses once, TARGET is set and ARMED clears. -/
def State.ptpReached (s : State) : State :=
  if s.flag F.PTPCLK_TARGET_HI_ARMED && decide (s.ptpTarget ≤ s.ptpNow) then
    ((s.setFld F.PTPCLK_TARGET_HI_ARMED 0).raise P.PTPCLK E.PTPCLK_TARGET).pulse 57
  else s

/-- R498: the time moves forward to `t`: a second boundary pulses producer 56. -/
def State.ptpForward (s : State) (t : Nat) : State :=
  let sec (x : Nat) : Nat := x / 2 ^ 32 / 1000000000
  let s1 := s.setPtp t
  let s2 := if sec s.ptpNow < sec t then (s1.raise P.PTPCLK E.PTPCLK_SECOND).pulse 56 else s1
  s2.ptpReached

/-- R497: 8 ns and the rate, in 2^−32 ns. -/
def State.ptpTick (s : State) : Nat := (8 * 2 ^ 32 + sext 32 (s.fld F.PTPCLK_RATE_RATE)).toNat

/-- The PTP clock runs. -/
def State.ptpRuns (s : State) : Bool := s.flag F.PTPCLK_CTRL_EN && s.ioLive P.PTPCLK

/-- `n` ticks of the 125 MHz clock. -/
def State.ptpTicks (s : State) (n : Nat) : State :=
  if s.ptpRuns && n != 0 then s.ptpForward (s.ptpNow + n * s.ptpTick) else s

/-- `n` ticks of 5 ns pass for the PTP clock. -/
def State.ptpElapse (s : State) (n : Nat) : State :=
  let t := s.field.ptpPhase + 5 * n
  ({ s with field := { s.field with ptpPhase := t % 8 } }).ptpTicks (t / 8)

/-- R498: a write to PTPCLK_TIME. -/
def State.opPtpTime (s : State) (ni : Nat) (v : DWord) : State :=
  let s1 := (s.storeReg ni R.PTPCLK_TIME v).1
  ({ s1 with field := { s1.field with ptpHi := s1.fld F.PTPCLK_TIME_HI_SEC_HI, ptpFrac := 0 } }).ptpReached

/-- R498: a write to PTPCLK_STEP; a step below zero wraps the 48-bit seconds. -/
def State.opPtpStep (s : State) (ni : Nat) (v : DWord) : State :=
  let (s1, act) := s.storeReg ni R.PTPCLK_STEP v
  let d := sext 32 (F.PTPCLK_STEP_NS.of act) * (2 ^ 32 : Nat)
  if 0 ≤ d then s1.ptpForward (s1.ptpNow + d.toNat)
  else s1.setPtp (((s1.ptpNow : Int) + d) % ((2 ^ 48 * 1000000000 * 2 ^ 32 : Nat) : Int)).toNat

/-- R498: a 64-bit load of PTPCLK_TIME latches SEC[47:32]. -/
def State.ptpLatch (s : State) : State := s.setFld F.PTPCLK_TIME_HI_SEC_HI s.field.ptpHi

/-- The PTP time with `ns` added, as seconds and nanoseconds. -/
def State.ptpStamp (s : State) (ns : Int) : Nat × Nat :=
  let t := ((s.ptpNow / 2 ^ 32 : Nat) : Int) + ns
  let u := (t % ((2 ^ 48 * 1000000000 : Nat) : Int)).toNat
  (u / 1000000000, u % 1000000000)

/-! ### Ethernet -/

/-- A MAC at rest. -/
def EthMac.idle : EthMac := ⟨[], 0, [], []⟩

/-- MAC `n`. -/
def State.eth (s : State) (n : Nat) : EthMac := SMap.get (fun _ => EthMac.idle) s.field.eth n

/-- Replace MAC `n`; ETH_STAT shows the FIFOs. -/
def State.setEth (s : State) (n : Nat) (m : EthMac) : State :=
  let s1 : State := { s with field := { s.field with eth := SMap.put (fun _ => EthMac.idle) s.field.eth n m } }
  (s1.setFld (F.ETH_STAT_RX_LEVEL n) (m.rx.foldl (fun k f => k + f.bytes.length) 0 / 2)).setFld (F.ETH_STAT_TX_LEVEL n) (m.tx.length / 2)

/-- Big-endian 16 bits at offset `o`. -/
def be16 (bs : List Byte) (o : Nat) : Nat := beNat (slice o 2 bs)

/-- The one's complement sum of the 16-bit words of a list, folded to 16 bits. -/
def onesSum (init : Nat) (bs : List Byte) : Nat :=
  let rec go : Nat → List Byte → Nat
    | k, a :: b :: r => go (k + a.toNat * 256 + b.toNat) r
    | k, [a] => k + a.toNat * 256
    | k, [] => k
  let t := go init bs
  let u := t % 65536 + t / 65536
  u % 65536 + u / 65536

/-- Where the layers of a frame lie: offset of the IP header, of the transport header, transport bytes, protocol, and
whether it is IPv6. -/
structure IpLayout where
  /-- IP header -/
  ip : Nat
  /-- transport header -/
  l4 : Nat
  /-- transport length -/
  len : Nat
  /-- protocol number -/
  proto : Nat
  /-- IPv6 -/
  v6 : Bool
deriving DecidableEq, Repr

/-- R494, R496: an IPv4 or IPv6 packet with TCP, UDP or ICMP, without IPv6 extension headers, whole and not a fragment. -/
def ipLayout (f : List Byte) : Option IpLayout :=
  let l2 := if be16 f 12 = 0x8100 then 18 else 14
  let ty := be16 f (l2 - 2)
  if ty = 0x0800 ∧ l2 + 20 ≤ f.length then
    let ihl := (f.getD l2 0#8).toNat % 16 * 4
    let total := be16 f (l2 + 2)
    let proto := (f.getD (l2 + 9) 0#8).toNat
    let frag := be16 f (l2 + 6) % 0x4000
    if (f.getD l2 0#8).toNat / 16 = 4 ∧ 20 ≤ ihl ∧ ihl ≤ total ∧ l2 + total ≤ f.length ∧ frag = 0
      ∧ (proto = 6 ∨ proto = 17 ∨ proto = 1) then some ⟨l2, l2 + ihl, total - ihl, proto, false⟩
    else none
  else if ty = 0x86DD ∧ l2 + 40 ≤ f.length then
    let len := be16 f (l2 + 4)
    let proto := (f.getD (l2 + 6) 0#8).toNat
    if (f.getD l2 0#8).toNat / 16 = 6 ∧ l2 + 40 + len ≤ f.length ∧ (proto = 6 ∨ proto = 17 ∨ proto = 58) then
      some ⟨l2, l2 + 40, len, proto, true⟩
    else none
  else none

/-- Offset of the checksum in the transport header. -/
def IpLayout.sumAt (i : IpLayout) : Nat := if i.proto = 6 then 16 else if i.proto = 17 then 6 else 2

/-- The transport bytes are long enough to hold their checksum. -/
def IpLayout.whole (i : IpLayout) : Bool := decide (i.sumAt + 2 ≤ i.len)

/-- The sum of the pseudo-header; ICMP over IPv4 has none. -/
def IpLayout.pseudo (i : IpLayout) (f : List Byte) : Nat :=
  if i.proto = 1 then 0
  else if i.v6 then onesSum (i.len + i.proto) (slice (i.ip + 8) 32 f)
  else onesSum (i.len + i.proto) (slice (i.ip + 12) 8 f)

/-- Bytes of a frame replaced from offset `o`. -/
def splice (f : List Byte) (o : Nat) (bs : List Byte) : List Byte := f.take o ++ bs ++ f.drop (o + bs.length)

/-- Offset and length of the IPv4 header of a frame, whatever it carries. -/
def ipv4Header (f : List Byte) : Option (Nat × Nat) :=
  let l2 := if be16 f 12 = 0x8100 then 18 else 14
  let n := (f.getD l2 0#8).toNat % 16 * 4
  if be16 f (l2 - 2) = 0x0800 ∧ (f.getD l2 0#8).toNat / 16 = 4 ∧ 20 ≤ n ∧ l2 + n ≤ f.length then some (l2, n) else none

/-- R494, CSUM: the IPv4 header checksum. -/
def fillHeader (f : List Byte) : List Byte :=
  match ipv4Header f with
  | none => f
  | some (o, n) =>
    let g := splice f (o + 10) [0#8, 0#8]
    splice g (o + 10) (beBytes 2 (65535 - onesSum 0 (slice o n g)))

/-- R494, CSUM: the IPv4 header checksum and the transport checksum are filled in. -/
def fillChecksums (f : List Byte) : List Byte :=
  let f1 := fillHeader f
  match ipLayout f1 with
  | none => f1
  | some i =>
    if ! i.whole then f1 else
    let g := splice f1 (i.l4 + i.sumAt) [0#8, 0#8]
    let c := 65535 - onesSum (i.pseudo g) (slice i.l4 i.len g)
    splice g (i.l4 + i.sumAt) (beBytes 2 (if c = 0 ∧ i.proto = 17 then 65535 else c))

/-- R496: IP_OK and L4_OK of a recognised packet; none where the spec states no result (no IPv4 header to check). -/
def checksumsOk (f : List Byte) (i : IpLayout) : Option Bool × Bool :=
  let ip := if i.v6 then none else some (onesSum 0 (slice i.ip (i.l4 - i.ip) f) == 65535)
  let none4 := ! i.v6 && i.proto == 17 && be16 f (i.l4 + 6) == 0
  (ip, none4 || (i.whole && onesSum (i.pseudo f) (slice i.l4 i.len f) == 65535))

/-- One drop of a received frame, counted in ETH_ERR_k (R495). -/
def State.ethDrop (s : State) (n k : Nat) : State :=
  (s.bumpSat (F.ETH_ERR_COUNT n k) (F.ETH_ERR_SAT n k)).raise (P.ETH n) E.ETH_RX_DROP

/-- R71: MAC `n` works, and its inputs are not held at 0 by bank B outside its windows. -/
def State.ethHears (s : State) (n : Nat) : Bool := s.ioLive (P.ETH n) && s.bankLive 1

/-- R495: the quanta of a PAUSE frame, 512 bit times each, halt transmission. -/
def State.opPause (s : State) (n quanta : Nat) : State :=
  if ! (s.ethHears n && s.flag (F.ETH_CFG_PAUSE_EN n)) then s else
  let bit := if s.fld (F.ETH_CFG_SPEED n) = 0 then 100 else if s.fld (F.ETH_CFG_SPEED n) = 1 then 10 else 1
  (s.setEth n { s.eth n with pause := quanta * 512 * bit }).raise (P.ETH n) E.ETH_PAUSED

/-- R495: the address filter. -/
def State.ethAccepts (s : State) (n : Nat) (f : List Byte) : Bool :=
  let dest := slice 0 6 f
  let multi := (f.getD 0 0#8).toNat.testBit 0
  s.flag (F.ETH_FILTER_PROMISC n) || leNat dest == s.fld (F.ETH_MAC_ADDR n)
    || (decide (dest = List.replicate 6 0xFF#8) && s.flag (F.ETH_FILTER_BCAST n))
    || (multi && decide (dest ≠ List.replicate 6 0xFF#8) && (s.flag (F.ETH_FILTER_ALL_MULTI n)
        || (s.raw (R.ETH_HASH n)).toNat.testBit (crc32 dest / 2 ^ 26)))

/-- R495: the VLAN filter. -/
def State.vlanAccepts (s : State) (n : Nat) (f : List Byte) : Bool :=
  ! s.flag (F.ETH_FILTER_VLAN_FILT n) ||
    (if be16 f 12 = 0x8100 then be16 f 14 % 4096 == s.fld (F.ETH_VLAN_VID n) else s.flag (F.ETH_FILTER_UNTAGGED n))

/-- R495, R497, R514: a frame arrives; `f` is its bytes without FCS. -/
def State.opEthRx (s : State) (n : Nat) (f : List Byte) (fcsOk : Bool) : State :=
  if ! s.ethHears n then s else
  let len := f.length + 4
  let tag := be16 f 12 = 0x8100
  if ! fcsOk then s.ethDrop n 0
  else if len < 64 ∨ s.fld (F.ETH_MAXLEN_MAXLEN n) + (if tag then 4 else 0) < len then s.ethDrop n 1
  else if be16 f 12 = 0x8808 then (if be16 f 14 = 1 then s.opPause n (be16 f 16) else s)
  else if ! s.ethAccepts n f || ! s.vlanAccepts n f then s.ethDrop n 3
  else
    let m := s.eth n
    if 32768 < m.rx.foldl (fun k x => k + x.bytes.length) 0 + f.length then s.ethDrop n 2
    else
      let (sec, ns) := s.ptpStamp (-(s.fld (F.ETH_TS_LAT_RX n) : Int))
      s.setEth n { m with rx := m.rx ++ [⟨f, sec, ns⟩] }

/-- R496, Table Field-2: the metadata and bytes an item stores for a frame; free bits where a field is not valid. -/
def State.ethDeliver (s : State) (n : Nat) (x : EthFrame) : State × List Byte :=
  let strip := s.flag (F.ETH_VLAN_STRIP n) && be16 x.bytes 12 == 0x8100
  let body := if strip then x.bytes.take 12 ++ x.bytes.drop 16 else x.bytes
  let (s1, parsed, ipOk, l4Ok) := match ipLayout x.bytes with
    | none =>
      let (v, t) := s.takeFree
      (t, 0, v.toNat % 2, v.toNat / 2 % 2)
    | some i =>
      match checksumsOk x.bytes i with
      | (some a, b) => (s, 1, b2n a, b2n b)
      | (none, b) => let (v, t) := s.takeFree; (t, 1, v.toNat % 2, b2n b)
  let w0 := body.length + 2 ^ 16 * b2n strip + 2 ^ 17 * parsed + 2 ^ 18 * ipOk + 2 ^ 19 * l4Ok
    + 2 ^ 32 * (if strip then be16 x.bytes 14 else 0) + 2 ^ 48 * (x.sec / 2 ^ 32)
  (s1, leBytes 8 w0 ++ leBytes 8 (x.ns + 2 ^ 32 * (x.sec % 2 ^ 32)) ++ body)

/-- R496: the executing RX item of MAC `n` takes the oldest frame. -/
def State.opEthItem (s : State) (n : Nat) : State :=
  let port := 0x28 + 2 * n
  match s.ioItem 2 port 0 with
  | (s0, none) => s0
  | (s0, some (c, k, it)) =>
    if ! s0.ioLive (P.ETH n) then s0 else
    match (s0.eth n).rx with
    | [] => s0
    | x :: rest =>
      let (s1, bs) := (s0.setEth n { s0.eth n with rx := rest }).ethDeliver n x
      let y := s1.heddleWrite c k.e.inst it.dst (bs.take it.len)
      let s2 := y.s.progress c it.index (fun i => { i with started := true, bytes := y.done })
      match y.fail with
      | some (st, d) => s2.decideItem c it.index st d
      | none =>
        if it.len < bs.length then s2.decideItem c it.index 4 3
        else if it.len = bs.length then s2.decideItem c it.index 0 0
        else s2.decideItem c it.index 1 0

/-- R494: a frame as the MAC sends it: checksums, tag, pad and FCS. The pad bytes are not stated: free values. -/
def State.ethFrameOut (s : State) (f : List Byte) (param : Nat) : State × List Byte :=
  let f1 := if param.testBit 2 then fillChecksums f else f
  let f2 := if param.testBit 1 then f1.take 12 ++ [0x81#8, 0x00#8] ++ beBytes 2 (param / 2 ^ 16) ++ f1.drop 12 else f1
  let (vs, s1) := s.takeFrees (60 - f2.length)
  let f3 := f2 ++ vs.map (fun v => v.truncate 8)
  (s1, f3 ++ leBytes 4 (crc32 f3))

/-- R494, Table Field-1: the frame of the executing TX item of MAC `n` enters the TX FIFO, or the item ends. -/
def State.ethLoad (s : State) (n : Nat) : State :=
  match s.ioItem 3 (0x29 + 2 * n) (0xFFFF0000 + 7) with
  | (s0, none) => s0
  | (s0, some (c, k, it)) =>
    if ! s0.ioLive (P.ETH n) || it.started then s0
    else if it.len < 14 then s0.decideItem c it.index 4 2
    else
      let x := s0.heddleRead c k.e.inst 1 it.src it.len
      match x.fail with
      | some (st, d) => x.s.decideItem c it.index st d
      | none =>
        if s0.fld (F.ETH_MAXLEN_MAXLEN n) < it.len + (if be16 x.data 12 = 0x8100 then 0 else 4) then x.s.decideItem c it.index 4 1
        else (x.s.setEth n { x.s.eth n with tx := x.data }).progress c it.index (fun i => { i with started := true })

/-- R494, R497: the frame in the TX FIFO leaves, its item writes the timestamp it asks for, and ends. -/
def State.ethLeave (s : State) (n : Nat) (c : Nat) (k : HeddleChannel) (it : HeddleItem) : State :=
  let (s1, f) := s.ethFrameOut (s.eth n).tx it.param
  let s2 := (s1.setEth n { s1.eth n with sent := f, tx := [] }).modItem c it.index (fun i => { i with bytes := it.len })
  if ! it.param.testBit 0 then s2.decideItem c it.index 0 0
  else
    let (sec, ns) := s2.ptpStamp (s2.fld (F.ETH_TS_LAT_TX n))
    let y := s2.heddleWrite c k.e.inst it.dst (leBytes 8 (ns + 2 ^ 32 * (sec % 2 ^ 32)) ++ leBytes 8 (sec / 2 ^ 32))
    let s3 := y.s.modItem c it.index (fun i => { i with bytes := it.len + y.done })
    match y.fail with
    | some (st, d) => s3.decideItem c it.index st d
    | none => s3.decideItem c it.index 0 0

/-- R494, R515: the executing TX item of MAC `n` sends its frame, which is in the FIFO or enters it now. -/
def State.opEthTx (s : State) (n : Nat) : State :=
  let s1 := s.ethLoad n
  match s1.portItem 3 (0x29 + 2 * n) with
  | some (c, k, it) =>
    if ! s1.ioLive (P.ETH n) || ! it.started || decide ((s1.eth n).pause ≠ 0) then s1 else s1.ethLeave n c k it
  | none => s1

/-- R492: the abort of an Ethernet port: a frame that has begun to leave is cut short after a free number of bytes, and ends with an inverted FCS;
one that a PAUSE holds back never leaves. A frame that an item waits to take is dropped (DESIGN CHOICE, notes/assumptions/94.md). -/
def State.ethAbort (s : State) (n : Nat) (tx : Bool) (it : Option HeddleItem) : State :=
  let m := s.eth n
  if ! tx then (if it.isSome then s.setEth n { m with rx := m.rx.drop 1 } else s)
  else if m.tx.isEmpty then s
  else if m.pause ≠ 0 then s.setEth n { m with tx := [] }
  else
    let (s1, f) := s.ethFrameOut m.tx (match it with | some i => i.param | none => 0)
    let (v, s2) := s1.takeFree
    let cut := f.take (v.toNat % (f.length - 3))
    s2.setEth n { m with tx := [], sent := cut ++ leBytes 4 (2 ^ 32 - 1 - crc32 cut) }

/-- R493, R71: a write to ETH_MDIO. A read returns what the PHY answers, or 0 while bank B is outside its windows. -/
def State.opMdio (s : State) (ni n : Nat) (v : DWord) (answer : Nat) : State :=
  let (s1, act) := s.storeReg ni (R.ETH_MDIO n) v
  if (F.ETH_MDIO_GO n).of act = 0 then s1 else
  let s2 := if s1.flag (F.ETH_MDIO_READ n) then s1.setFld (F.ETH_MDIO_DATA n) (if s1.bankLive 1 then answer else 0) else s1
  s2.raise (P.ETH n) E.ETH_MDIO_DONE

/-- Time passes for a PAUSE: `n` ticks of 5 ns. -/
def State.ethElapse (s : State) (n : Nat) : State :=
  forEach 2 (fun m t => if (t.eth m).pause = 0 then t else t.setEth m { t.eth m with pause := (t.eth m).pause - 5 * n }) s

/-! ### UARTs -/

/-- A UART at rest. -/
def UartPort.idle : UartPort := ⟨[], [], 0xFFFF, [], false, false, false, 0#8⟩

/-- UART `n`. -/
def State.uart (s : State) (n : Nat) : UartPort := SMap.get (fun _ => UartPort.idle) s.field.uart n

/-- Characters in an RX FIFO. -/
def UartPort.level (u : UartPort) : Nat := (u.rx.filter (fun x => match x with | .char _ => true | .frameEnd => false)).length

/-- Replace UART `n`; UART_STAT shows the FIFOs and DE. -/
def State.setUart (s : State) (n : Nat) (u : UartPort) : State :=
  let s1 : State := { s with field := { s.field with uart := SMap.put (fun _ => UartPort.idle) s.field.uart n u } }
  ((s1.setFld (F.UART_STAT_RX_LEVEL n) u.level).setFld (F.UART_STAT_TX_LEVEL n) u.tx.length).setFlag (F.UART_STAT_DE n)
    (s1.flag (F.UART_DE_EN n) && ! u.tx.isEmpty)

/-- R491, R504: an error of UART `n` is counted, and ends the executing RX item or is held. -/
def State.uartError (s : State) (n detail : Nat) : State :=
  (((s.bumpSat (F.UART_ERR_COUNT n) (F.UART_ERR_SAT n)).setFld (F.UART_ERR_LAST_DETAIL n) detail).raise (P.UART n) E.UART_ERROR).portError
    2 n detail

/-- The characters of a receive path up to its first frame end, at most `m`; what stays; whether a frame end follows. -/
def takeChars : Nat → List UartRx → List Byte × List UartRx
  | m + 1, .char b :: r => let x := takeChars m r; (b :: x.1, x.2)
  | _, r => ([], r)

/-- A frame end whose characters have all gone to items that have ended ends no further item. -/
def dropFrameEnd (u : UartPort) : UartPort :=
  match u.rx with
  | .frameEnd :: more => { u with rx := more }
  | _ => u

/-- R502: characters in the FIFO move into the executing RX item; LEN ends it with OK, a frame end with SHORT. Where frames are checked, an item that is
full waits for the end of the frame, unless a character follows. -/
def State.uartMove (s : State) (n lim : Nat) : State :=
  match s.ioItem 2 n 0 with
  | (s0, none) => s0
  | (s0, some (c, k, it)) =>
    let u := if it.done = 0 then dropFrameEnd (s0.uart n) else s0.uart n
    let (bs, rest) := takeChars (min lim (it.len - it.done)) u.rx
    let x := s0.heddleWrite c k.e.inst (it.dst + it.done) bs
    let moved : State := if bs.isEmpty then x.s else
      x.s.progress c it.index (fun i => { i with started := true, done := it.done + x.done, bytes := it.bytes + x.done })
    let s1 := moved.setUart n { u with rx := rest }
    match x.fail with
    | some (st, d) => s1.decideItem c it.index st d
    | none =>
      match rest with
      | .frameEnd :: more =>
        (s1.setUart n { u with rx := more }).decideItem c it.index (if it.done + bs.length = it.len then 0 else 1) 0
      | _ =>
        if it.done + bs.length = it.len ∧ (s1.fld (F.UART_CFG_MODE n) = 0 ∨ ! rest.isEmpty) then s1.decideItem c it.index 0 0 else s1

/-- Every character in the FIFO moves that can. -/
def State.uartDrain (s : State) (n : Nat) : State := s.uartMove n 64

/-- R502: the checks of a frame that has ended: 0 for none failed, else the DETAIL. -/
def State.frameCheck (s : State) (n : Nat) (u : UartPort) : Nat :=
  let f := u.frame
  if u.lost ∧ s.fld (F.UART_CFG_MODE n) ≠ 0 then 3
  else if s.fld (F.UART_CFG_MODE n) = 1 then
    if u.gap then 4
    else if s.flag (F.UART_CFG_CRC_CHK n) ∧ (f.length < 2 ∨ crc16Modbus (f.take (f.length - 2)) ≠ leNat (f.drop (f.length - 2))) then 5
    else 0
  else if s.fld (F.UART_CFG_MODE n) = 2 then
    let b (i : Nat) : Nat := (f.getD i 0#8).toNat
    let last := b (f.length - 1)
    let sum (o m : Nat) : Nat := (slice o m f).foldl (fun k x => (k + x.toNat) % 256) 0
    if b 0 = 0xE5 ∧ f.length = 1 then 0
    else if b 0 = 0x10 then (if last ≠ 0x16 then 6 else if sum 1 2 ≠ b 3 then 7 else 0)
    else if b 0 = 0x68 then
      (if b 1 ≠ b 2 ∨ b 3 ≠ 0x68 ∨ last ≠ 0x16 then 6 else if sum 4 (b 1) ≠ b (4 + b 1) then 7 else 0)
    else 6
  else 0

/-- R502: a frame ends: its characters move, it is checked, and the RX item ends; the next character begins a frame. -/
def State.uartFrameEnd (s : State) (n : Nat) : State :=
  let u := s.uart n
  if u.frame.isEmpty && ! u.lost then s else
  let d := s.frameCheck n u
  let clean : UartPort := { u with frame := [], gap := false, lost := false, discard := decide (d ≠ 0 ∧ s.fld (F.UART_CFG_MODE n) = 2) }
  let s1 := s.raise (P.UART n) E.UART_FRAME_END
  if d ≠ 0 then
    let s2 := (s1.setUart n clean).uartDrain n
    s2.uartError n d
  else (s1.setUart n { clean with rx := u.rx ++ [.frameEnd] }).uartDrain n

/-- R502: the M-Bus frame so far is complete. -/
def mbusWhole (f : List Byte) : Bool :=
  let b (i : Nat) : Nat := (f.getD i 0#8).toNat
  if f.isEmpty then false
  else if b 0 = 0x10 then decide (5 ≤ f.length)
  else if b 0 = 0x68 then decide (2 ≤ f.length ∧ b 1 + 6 ≤ f.length)
  else true

/-- R503: t1.5 and t3.5 in sixteenths of a bit. -/
def State.uartGaps (s : State) (n : Nat) : Nat × Nat :=
  let c := 1 + (if s.flag (F.UART_CFG_DATA7 n) then 7 else 8) + b2n (decide (s.fld (F.UART_CFG_PARITY n) ≠ 0)) + 1 + s.fld (F.UART_CFG_STOP2 n)
  if ! s.flag (F.UART_FRAME_AUTO n) then (8 * s.fld (F.UART_FRAME_T15 n), 8 * s.fld (F.UART_FRAME_T35 n))
  else if 166667 ≤ s.fld (F.UART_BAUD_DIV n) then (24 * c, 56 * c)
  else (38400000 / s.fld (F.UART_BAUD_DIV n), 89600000 / s.fld (F.UART_BAUD_DIV n))

/-- R500 to R504, R514: a character is received. -/
def State.uartRx (s : State) (n : Nat) (b : Byte) (framing parity : Bool) (gap : Nat) : State :=
  let u := s.uart n
  if s.flag (F.UART_STAT_DE n) && ! s.flag (F.UART_CFG_ECHO n) then s else
  let s0 := (s.setFld (F.UART_STAT_BREAK n) 0).setFld (F.UART_STAT_RX_IDLE n) 0
  if u.discard then s0 else
  let mode := s0.fld (F.UART_CFG_MODE n)
  let drop (t : State) (d : Nat) : State :=
    ((t.setUart n { t.uart n with discard := decide (mode = 2), frame := if mode = 2 then [] else (t.uart n).frame }).uartDrain n).uartError n d
  if framing then drop s0 1
  else if parity ∧ s0.fld (F.UART_CFG_PARITY n) ≠ 0 then drop s0 2
  else
    let t15 := (s0.uartGaps n).1
    let t35 := (s0.uartGaps n).2
    let s1 := if mode = 1 ∧ ! u.frame.isEmpty ∧ t35 ≤ gap then s0.uartFrameEnd n else s0
    let v := s1.uart n
    let gapSeen := v.gap || (mode == 1 && ! v.frame.isEmpty && decide (t15 < gap ∧ gap < t35))
    if 64 ≤ v.level then
      let t := (s1.setUart n { v with gap := gapSeen, lost := true }).uartError n 3
      if mode = 2 then t.uartFrameEnd n else t
    else
      let ch := if s1.flag (F.UART_CFG_DATA7 n) then b &&& 0x7F#8 else b
      let f := v.frame ++ [ch]
      let s2 := s1.setUart n { v with rx := v.rx ++ [.char ch], frame := f, gap := gapSeen }
      if mode = 2 ∧ mbusWhole f then s2.uartFrameEnd n else s2

/-- R502, R504: RX is low for 2 character times: the frame under way is over and the executing RX item ends with DETAIL 8; in
MBUS mode input is then discarded until the line is idle. A receiver that DE mutes sees none (R501). -/
def State.uartBreak (s : State) (n : Nat) : State :=
  if s.flag (F.UART_STAT_DE n) && ! s.flag (F.UART_CFG_ECHO n) then s else
  let s1 := ((s.setFld (F.UART_STAT_BREAK n) 1).setFld (F.UART_STAT_RX_IDLE n) 0).raise (P.UART n) E.UART_BREAK
  let u := s1.uart n
  let rest : UartPort := { u with frame := [], gap := false, lost := false, discard := u.discard || s1.fld (F.UART_CFG_MODE n) == 2 }
  ((s1.setUart n rest).uartDrain n).uartError n 8

/-- R500 to R502: the next character of the TX FIFO is sent; a frame's CRC follows its last one, and the next frame's begins anew. -/
def State.uartTx (s : State) (n : Nat) : State :=
  let u := s.uart n
  match u.tx with
  | [] => s
  | x :: rest =>
    let c := Crc.run32 0xA001 u.txCrc [x.char]
    let tail : List UartTx := if x.crc then (leBytes 2 c).mapIdx (fun i b => ⟨b, i == 1, false⟩) else []
    s.setUart n { u with tx := tail ++ rest, shift := x.char, txCrc := if x.last then 0xFFFF else c }

/-- R500: a character of 7 or 8 bits. -/
def State.uartChar (s : State) (n : Nat) (b : Byte) : Byte := if s.flag (F.UART_CFG_DATA7 n) then b &&& 0x7F#8 else b

/-- R500, R502: bytes of the executing TX item enter the TX FIFO; in MODBUS mode with CRC_TX the CRC follows the last one. -/
def State.uartFill (s : State) (n : Nat) : State :=
  match s.ioItem 3 (8 + n) 0 with
  | (s0, none) => s0
  | (s0, some (c, k, it)) =>
    let u := s0.uart n
    let m := min (64 - u.tx.length) (it.len - it.done)
    if m = 0 then s0 else
    let x := s0.heddleRead c k.e.inst 1 (it.src + it.done) m
    match x.fail with
    | some (st, d) => x.s.decideItem c it.index st d
    | none =>
      let last := it.done + m = it.len
      let crc := last ∧ x.s.fld (F.UART_CFG_MODE n) = 1 ∧ x.s.flag (F.UART_CFG_CRC_TX n)
      let es : List UartTx := x.data.mapIdx (fun i b => ⟨x.s.uartChar n b, decide (last ∧ i + 1 = m), decide (crc ∧ i + 1 = m)⟩)
      let s1 := (x.s.progress c it.index (fun i => { i with started := true, done := it.done + m, bytes := it.bytes + m })).setUart n
        { u with tx := u.tx ++ es }
      if last then s1.decideItem c it.index 0 0 else s1

/-! ### SPI -/

/-- Controller `n`. -/
def State.spi (s : State) (n : Nat) : SpiPort := SMap.get (fun _ => ⟨none, []⟩) s.field.spi n

/-- Replace controller `n`; SPI_STAT.CS shows what is asserted, held chip selects included. -/
def State.setSpi (s : State) (n : Nat) (p : SpiPort) : State :=
  let s1 : State := { s with field := { s.field with spi := SMap.put (fun _ => ⟨none, []⟩) s.field.spi n p } }
  s1.setFld (F.SPI_STAT_CS n) (s1.fld (F.SPI_CS_FORCE n) ||| (match p.cs with | some k => 2 ^ k | none => 0))

/-- R506: CS is released: the executing RX item that received bytes while it was asserted ends. -/
def State.csRelease (s : State) (n : Nat) : State :=
  match (s.spi n).cs with
  | none => s
  | some _ =>
    let s1 := s.setSpi n { s.spi n with cs := none }
    match s1.portItem 2 (0x10 + 2 * n) with
    | some (c, _, it) => if it.started then s1.decideItem c it.index (if it.done = it.len then 0 else 1) 0 else s1
    | none => s1

/-- R506: a received byte goes to the executing RX item, or is discarded and counted. -/
def spiByte (n : Nat) (s : State) (b : Byte) : State :=
  match s.ioItemAny 2 (0x10 + 2 * n) 0 with
  | (s0, none) => s0.bumpSat (F.SPI_DISCARD_COUNT n) (F.SPI_DISCARD_SAT n)
  | (s0, some (c, k, it)) =>
    let x := s0.heddleWrite c k.e.inst (it.dst + it.done) [b]
    match x.fail with
    | some (st, d) => x.s.decideItem c it.index st d
    | none =>
      let s1 := x.s.modItem c it.index (fun i => { i with started := true, done := it.done + 1, bytes := it.bytes + 1 })
      if it.done + 1 = it.len then s1.decideItem c it.index 0 0 else s1

/-- A byte with its bits in the other order. -/
def flipByte (b : Byte) : Byte := BitVec.ofNat 8 ((List.range 8).foldl (fun k i => 2 * k + b2n (b.getLsbD i)) 0)

/-- R505: a byte as its bits pass on the wire, the first the highest; the same turns a byte from the wire into the byte received. -/
def State.spiWire (s : State) (n : Nat) (b : Byte) : Byte := if s.flag (F.SPI_CFG_LSB_FIRST n) then flipByte b else b

/-- R506: the channel whose executing item takes the bytes that controller `n` receives. -/
def State.spiRx (s : State) (n : Nat) : Option (Nat × HeddleChannel × HeddleItem) := s.portItem 2 (0x10 + 2 * n)

/-- R506: SCK pauses while the executing RX item may take no byte: its channel may issue no transaction. -/
def State.spiPaused (s : State) (n : Nat) : Bool := match s.spiRx n with | some (c, k, _) => ! s.mayIssue c k | none => false

/-- R506, R408: the bytes `bs` that came in on MISO go to the executing RX item, one transaction, or are discarded. -/
def State.spiReceive (s : State) (n : Nat) (bs : List Byte) : State :=
  let bytes := bs.map (fun b => s.spiWire n (if s.bankLive 0 then b else 0#8))
  match s.spiRx n with
  | some (c, k, it) =>
    match s.takeShot c k it with
    | some t => bytes.foldl (spiByte n) t
    | none => (bytes.foldl (spiByte n) s).progress c it.index id
  | none => bytes.foldl (spiByte n) s

/-- R505, R506: the executing TX item of controller `n` clocks as many bytes as `miso` has come in, each bit in wire order; after its last byte
CS is released unless HOLD = 1. An item for the other CS first releases the one held. -/
def State.opSpi (s : State) (n : Nat) (miso : List Byte) : State :=
  match s.ioItem 3 (0x11 + 2 * n) 0xFF07 with
  | (s0, none) => s0
  | (s0, some (c, k, it)) =>
    if ! s0.ioLive (P.SPI n) || s0.spiPaused n then s0 else
    let cs := it.param % 2
    let s1 := match (s0.spi n).cs with
      | some h => if h = cs then s0 else s0.csRelease n
      | none => s0
    let m := min miso.length (it.len - it.done)
    let x : Xfer := if it.param.testBit 2 then ⟨s1, List.replicate m (BitVec.ofNat 8 (it.param / 256)), 0, none⟩
      else s1.heddleRead c k.e.inst 1 (it.src + it.done) m
    let s2 := (x.s.setSpi n ⟨some cs, x.data.map (s1.spiWire n)⟩).setFld (F.SPI_STAT_BUSY n) 1
    match x.fail with
    | some (st, d) => ((s2.setFld (F.SPI_STAT_BUSY n) 0).decideItem c it.index st d).csRelease n
    | none =>
      let s3 := s2.progress c it.index (fun i => { i with started := true, done := it.done + m, bytes := it.bytes + m })
      let s4 := s3.spiReceive n (miso.take m)
      if it.done + m < it.len then s4
      else
        let s5 := (s4.setFld (F.SPI_STAT_BUSY n) 0).decideItem c it.index 0 0
        if it.param.testBit 1 then s5 else s5.csRelease n

/-! ### I²C -/

/-- Controller `n`. -/
def State.i2c (s : State) (n : Nat) : I2cPort := SMap.get (fun _ => ⟨false, false⟩) s.field.i2c n

/-- Replace controller `n`; a bus held after NOSTOP is busy. -/
def State.setI2c (s : State) (n : Nat) (p : I2cPort) : State :=
  let s1 : State := { s with field := { s.field with i2c := SMap.put (fun _ => ⟨false, false⟩) s.field.i2c n p } }
  s1.setFlag (F.I2C_STAT_BUS_BUSY n) p.hold

/-- R507: the item served next: the RX channel after NOSTOP, else TX and RX alternately, TX first after a reset. -/
def State.i2cNext (s : State) (n : Nat) : State × Option (Bool × Nat × HeddleChannel × HeddleItem) :=
  let (s1, tx) := s.ioItem 3 (0x15 + 2 * n) 0xFFF
  let (s2, rx) := s1.ioItem 2 (0x14 + 2 * n) 0x7FF
  let p := s2.i2c n
  let useRx : Bool := rx.isSome && (p.hold || tx.isNone || p.lastTx)
  if useRx then (s2, rx.map (fun x => (false, x.1, x.2.1, x.2.2)))
  else if p.hold then (s2, none)
  else (s2, tx.map (fun x => (true, x.1, x.2.1, x.2.2)))

/-- R508: a failed transfer: counted, and the item ends with its DETAIL. -/
def State.i2cFail (s : State) (n c idx bytes detail : Nat) : State :=
  ((((s.modItem c idx (fun i => { i with started := true, bytes := bytes })).bumpSat (F.I2C_ERR_COUNT n) (F.I2C_ERR_SAT n)).setFld
    (F.I2C_ERR_LAST_DETAIL n) detail).raise (P.I2C n) E.I2C_ERROR).decideItem c idx 4 detail

/-- R507, R508: `b` bytes of a transfer that fails with `detail` have moved: a TX item's were read, and an RX item's, which the
command does not give, are stored as free values. -/
def State.i2cPart (s : State) (n c : Nat) (k : HeddleChannel) (it : HeddleItem) (tx : Bool) (b detail : Nat) : State :=
  let m := min b it.len
  let x : Xfer := if tx then s.heddleRead c k.e.inst 1 it.src m else
    let (vs, s1) := s.takeFrees m
    s1.heddleWrite c k.e.inst it.dst (vs.map (fun v => v.truncate 8))
  match x.fail with
  | some (st, d) => (x.s.progress c it.index (fun i => { i with started := true, bytes := x.done })).decideItem c it.index st d
  | none => (if m = 0 then x.s else x.s.progress c it.index id).i2cFail n c it.index m detail

/-- R507, R508, R516: one transfer of controller `n`. While bank A is outside its windows SDA and SCL read 0, so the item finds them low
before START (R71). -/
def State.opI2c (s : State) (n : Nat) (r : I2cResult) : State :=
  if ! s.ioLive (P.I2C n) then s else
  match s.i2cNext n with
  | (s0, none) => s0
  | (s0, some (tx, c, k, it)) =>
    let idle : I2cPort := ⟨false, tx⟩
    match (if s0.bankLive 0 then r else .stuck) with
    | .addrNack => (s0.setI2c n idle).i2cFail n c it.index 0 1
    | .dataNack b => (s0.setI2c n idle).i2cPart n c k it tx b 2
    | .lost b => (s0.setI2c n idle).i2cPart n c k it tx b 3
    | .stretched b => (s0.setI2c n idle).i2cPart n c k it tx b 4
    | .stuck => ((s0.setI2c n idle).setFld (F.I2C_STAT_BUS_STUCK n) 1).i2cFail n c it.index 0 4
    | .done data =>
      if tx then
        let x := s0.heddleRead c k.e.inst 1 it.src it.len
        match x.fail with
        | some (st, d) => (x.s.setI2c n idle).decideItem c it.index st d
        | none =>
          ((x.s.progress c it.index (fun i => { i with started := true, bytes := it.len })).setI2c n ⟨it.param.testBit 11, true⟩).decideItem
            c it.index 0 0
      else
        let (vs, s1) := s0.takeFrees (it.len - data.length)
        let bs := data.take it.len ++ vs.map (fun v => v.truncate 8)
        let x := s1.heddleWrite c k.e.inst it.dst bs
        let s2 := (x.s.progress c it.index (fun i => { i with started := true, bytes := x.done })).setI2c n idle
        match x.fail with
        | some (st, d) => s2.decideItem c it.index st d
        | none => s2.decideItem c it.index 0 0

/-- R508: a write to I2C_RECOVER: 9 clocks and a STOP; `freed` says whether the bus came free. -/
def State.opI2cRecover (s : State) (ni n : Nat) (v : DWord) (freed : Bool) : State :=
  let (s1, act) := s.storeReg ni (R.I2C_RECOVER n) v
  if (F.I2C_RECOVER_GO n).of act = 0 then s1 else
  let s2 := s1.setI2c n { s1.i2c n with hold := false }
  if freed && s2.bankLive 0 then ((s2.setFld (F.I2C_STAT_BUS_STUCK n) 0).setFld (F.I2C_STAT_SDA n) 1).setFld (F.I2C_STAT_SCL n) 1 else s2

/-! ### ADCs -/

/-- An ADC at rest. -/
def AdcPort.idle : AdcPort := ⟨none, none, [], []⟩

/-- ADC `n`. -/
def State.adc (s : State) (n : Nat) : AdcPort := SMap.get (fun _ => AdcPort.idle) s.field.adc n

/-- Replace ADC `n`; ADC_FIFO shows it. -/
def State.setAdc (s : State) (n : Nat) (p : AdcPort) : State :=
  let s1 : State := { s with field := { s.field with adc := SMap.put (fun _ => AdcPort.idle) s.field.adc n p } }
  (((s1.setFld (F.ADC_FIFO_LEVEL n) p.fifo.length).setFld (F.ADC_FIFO_PEAK n) (max (s1.fld (F.ADC_FIFO_PEAK n)) p.fifo.length)).setFlag
    (F.ADC_FIFO_PENDING n) p.held.isSome).setFlag (F.ADC_FIFO_BUSY n) p.run.isSome

/-- R165, R510: the phase word of this instant; none while Reed is not valid. -/
def State.phaseNow (s : State) : Option Nat :=
  if s.flag F.REED_STATE_VALID then some (s.fld F.REED_NOW_PHASE) else none

/-- R509: a sequence starts, under the configuration written by then (R518). -/
def State.adcStart (s : State) (n : Nat) (stamp : Option Nat) : State :=
  s.setAdc n { s.adc n with run := some ⟨stamp, 0, s.raw (R.ADC_SEQ n), s.flag (F.ADC_CFG_FORMAT n), s.flag (F.ADC_CFG_CONT n), false⟩ }

/-- R510: a trigger at the ADC: starts a sequence, is held, or is missed. -/
def State.adcTrigger (s : State) (n : Nat) (stamp : Option Nat) : State :=
  let p := s.adc n
  if p.run.isNone then s.adcStart n stamp
  else if p.held.isNone then s.setAdc n { p with held := some stamp }
  else (s.bumpSat (F.ADC_STAT_MISSED n) (F.ADC_STAT_MSAT n)).raise (P.ADC n) E.ADC_MISSED

/-- R509: a trigger of a source that ADC_TRIG accepts. -/
def State.adcFromAt (s : State) (n : Nat) (src : AdcSource) (stamp : Option Nat) : State :=
  let en := match src with
    | .reed => s.flag (F.ADC_TRIG_REED n)
    | .shuttle => s.flag (F.ADC_TRIG_SHUTTLE n)
    | .sw => s.flag (F.ADC_TRIG_SW n)
  if en && s.ioLive (P.ADC n) then s.adcTrigger n stamp else s

/-- A trigger stamped with the phase of this instant. -/
def State.adcFrom (s : State) (n : Nat) (src : AdcSource) : State := s.adcFromAt n src s.phaseNow

/-- R511: a raw code calibrated and formatted. -/
def adcSample (raw gain : Nat) (offset : Int) (format : Bool) : Nat :=
  let v := ((raw * gain / 32768 : Nat) : Int) + offset
  let u := if v < 0 then 0 else if 65535 < v then 65535 else v.toNat
  if format then (u + 32768) % 65536 else u

/-- The input a sequence converts next. -/
def AdcSequence.input (q : AdcSequence) : Nat := Bits.get q.seq (3 * q.done) 3

/-- R511: the limit comparator judges the last raw code of its input; producer 60 or 61 is its level. -/
def State.adcCompare (s : State) (n : Nat) : State :=
  let out := s.flag (F.ADC_LIMIT_EN n) && (match AMap.get? (s.adc n).raws (s.fld (F.ADC_LIMIT_INPUT n)) with
    | some raw => decide (raw < s.fld (F.ADC_LIMIT_LOW n) ∨ s.fld (F.ADC_LIMIT_HIGH n) < raw)
    | none => false)
  let was := s.shuttle.levels.testBit (60 + n)
  let l := clearBits s.shuttle.levels (2 ^ (60 + n)) + (if out then 2 ^ (60 + n) else 0)
  let s1 : State := { s with shuttle := { s.shuttle with levels := l } }
  if out && ! was then s1.raise (P.ADC n) E.ADC_LIMIT else s1

/-- R511: a raw code of input `input`. -/
def State.adcRaw (s : State) (n input raw : Nat) : State :=
  (s.setAdc n { s.adc n with raws := AMap.put (s.adc n).raws input raw }).adcCompare n

/-- R511: the next conversion of the sequence under way brings the raw code `raw`. -/
def State.opConversion (s : State) (n raw : Nat) : State :=
  if ! s.ioLive (P.ADC n) then s else
  let p := s.adc n
  match p.run with
  | none => s
  | some q =>
    if Bits.get q.seq 24 3 < q.done then s else
    let input := q.input
    let s1 := s.adcRaw n input raw
    let p := s1.adc n
    let q1 : AdcSequence := { q with done := q.done + 1 }
    if q.dead then s1.setAdc n { p with run := some q1 }
    else if 4096 ≤ p.fifo.length then
      (((s1.setAdc n { p with run := some { q1 with dead := true }, fifo := [] }).bumpSat (F.ADC_STAT_OVERFLOWS n) (F.ADC_STAT_OSAT n)).raise
        (P.ADC n) E.ADC_OVERFLOW).portError 4 (0x20 + n) 1
    else
      let v := adcSample raw (s1.fld (F.ADC_CAL_GAIN n)) (sext 16 (s1.fld (F.ADC_CAL_OFFSET n))) q.format
      let (angle, s2) := match q.stamp with
        | some w => (w % 65536, s1)
        | none => let (x, t) := s1.takeFree; (x.toNat % 65536, t)
      ((s2.setAdc n { p with run := some q1, fifo := p.fifo ++ [(v, q.stamp)] }).setFld (F.ADC_LAST_SAMPLE n input) v).setFld
        (F.ADC_LAST_ANGLE n input) angle

/-- R509, R510: a sequence whose conversions are done ends: producer 58 or 59 pulses, and a held trigger starts the next, or
CONT does. -/
def State.opSequenceEnd (s : State) (n : Nat) : State :=
  if ! s.ioLive (P.ADC n) then s else
  let p := s.adc n
  match p.run with
  | none => s
  | some q =>
    if q.done ≤ Bits.get q.seq 24 3 then s else
    let s1 := s.pulse (58 + n)
    match p.held with
    | some st => (s1.setAdc n { p with run := none, held := none }).adcStart n st
    | none =>
      let s2 := s1.setAdc n { p with run := none }
      if q.cont then s2.adcStart n s2.phaseNow else s2

/-- R509: a write to ADC_CFG; FLUSH empties the FIFO. -/
def State.opAdcCfg (s : State) (ni n : Nat) (v : DWord) : State :=
  let (s1, act) := s.storeReg ni (R.ADC_CFG n) v
  if (F.ADC_CFG_FLUSH n).of act = 0 then s1 else s1.setAdc n { s1.adc n with fifo := [] }

/-- R509: a write to ADC_SW_TRIG. -/
def State.opSwTrig (s : State) (ni n : Nat) (v : DWord) : State :=
  let (s1, act) := s.storeReg ni (R.ADC_SW_TRIG n) v
  if (F.ADC_SW_TRIG_GO n).of act = 0 then s1 else s1.adcFrom n .sw

/-- R396: the samples before the first stamped with START_ANGLE. -/
def alignDrop (angle : Nat) : List (Nat × Option Nat) → List (Nat × Option Nat)
  | [] => []
  | (v, st) :: r => if st.any (fun w => w % 65536 == angle) then (v, st) :: r else alignDrop angle r

/-- R396: the executing ANGLE_CAP item of ADC `n` moves the next part that may move. -/
def State.adcMove (s : State) (n : Nat) : State :=
  match s.portItem 4 (0x20 + n) with
  | none => s
  | some (c, k, it0) =>
    let align := it0.op.testBit 0
    let s0 := if align ∧ ! it0.aligned then s.setAdc n { s.adc n with fifo := alignDrop (it0.param % 65536) (s.adc n).fifo } else s
    let fifo := (s0.adc n).fifo
    let found := ! align || it0.aligned || ! fifo.isEmpty
    let it := { it0 with aligned := it0.aligned || (align && ! fifo.isEmpty) }
    let s1 := s0.modItem c it.index (fun i => { i with aligned := it.aligned })
    if ! found || (it.op.testBit 1 && ! it.released) then s1
    else
      let m := min 64 (it.len - it.done)
      if fifo.length < m / 2 then s1
      else
        let part := fifo.take (m / 2)
        let x := s1.heddleWrite c k.e.inst (it.dst + it.done) (part.flatMap (fun e => leBytes 2 e.1))
        let (ph, s2) := match it.phase, part with
          | none, (_, some w) :: _ => (some w, x.s)
          | none, (_, none) :: _ => let (v, t) := x.s.takeFree; (some (v.toNat % 2 ^ 32), t)
          | p, _ => (p, x.s)
        let s3 := (s2.progress c it.index (fun i => { i with started := true, done := it.done + x.done, bytes := it.bytes + x.done, phase := ph })).setAdc n
          { s2.adc n with fifo := fifo.drop (m / 2) }
        match x.fail with
        | some (st, d) => s3.decideItem c it.index st d
        | none => if it.done + m = it.len then s3.decideItem c it.index 0 0 else s3

/-- R396: the phase word, in ac, goes on from `a` to `b` and crosses an angle on the way. -/
def crossesAngle (angle a b : Nat) : Bool := decide (a + (angle + 65535 - a % 65536) % 65536 + 1 ≤ b)

/-- R396, R411: the phase word goes on from `a` to `b`: where it crosses the MOVE_ANGLE of the HOLD item of ADC `n`, all of whose samples are
in the FIFO, they may move. -/
def State.adcRelease (s : State) (n a b : Nat) : State :=
  match s.portItem 4 (0x20 + n) with
  | none => s
  | some (c, _, it) =>
    let fifo := if it.op.testBit 0 ∧ ! it.aligned then alignDrop (it.param % 65536) (s.adc n).fifo else (s.adc n).fifo
    if it.op.testBit 1 && ! it.released && decide (it.len / 2 ≤ fifo.length) && s.flag F.REED_STATE_VALID &&
        crossesAngle (it.param / 65536 % 65536) a b then
      s.modItem c it.index (fun i => { i with released := true })
    else s

/-- R396: both ADCs see the phase word go on from `a` to `b`. -/
def State.adcReleases (s : State) (a b : Nat) : State := (s.adcRelease 0 a b).adcRelease 1 a b

/-- R396: the item that ADC `n` works on is a HOLD item whose samples may move. -/
def State.adcReleased (s : State) (n : Nat) : Bool :=
  match s.portItem 4 (0x20 + n) with | some (_, _, it) => it.op.testBit 1 && it.released | none => false

/-! ### GPIO -/

/-- R512: bits of GPIO_OUT are set. -/
def State.opGpioSet (s : State) (m : Nat) : State := s.setReg R.GPIO_OUT (s.raw R.GPIO_OUT ||| BitVec.ofNat 64 (m % 2 ^ 32))

/-- R512: bits of GPIO_OUT are cleared. -/
def State.opGpioClr (s : State) (m : Nat) : State := s.setReg R.GPIO_OUT (s.raw R.GPIO_OUT &&& ~~~ BitVec.ofNat 64 (m % 2 ^ 32))

/-- The level of a ball producer changes. -/
def State.setBall (s : State) (code : Nat) (level : Bool) : State :=
  { s with shuttle := { s.shuttle with balls := clearBits s.shuttle.balls (2 ^ code) + (if level then 2 ^ code else 0) } }

/-- R513, R71: ball GPIO_n has held its new level for the filter's length: an edge that MODE selects is latched and raised. A bank
outside its windows shows no rise. -/
def State.opGpioEdge (s : State) (n : Nat) (rising : Bool) : State :=
  if rising && ! s.ballLive (64 + n) then s else
  let was := s.shuttle.balls.testBit (64 + n)
  let s1 := s.setBall (64 + n) rising
  let mode := Bits.get (s1.raw (R.GPIO_IRQ_CFG (n / 16))) (2 * (n % 16)) 2
  if was = rising ∨ ! s1.ioLive P.GPIO ∨ ! (if rising then mode.testBit 0 else mode.testBit 1) then s1
  else ((s1.setReg R.GPIO_IRQ_STAT (s1.raw R.GPIO_IRQ_STAT ||| BitVec.ofNat 64 (2 ^ n))).raise P.GPIO E.GPIO_EDGE).edge (328 + n)

/-! ### Aborts and stops -/

/-- R492: the abort of a port, which was at work on item `it`. -/
def State.fieldAbort (s : State) (port : Nat) (it : Option HeddleItem) : State :=
  if port ≤ 5 ∨ (8 ≤ port ∧ port ≤ 13) then
    let n := port % 8
    s.setUart n { s.uart n with rx := [], tx := [], frame := [], gap := false, lost := false, txCrc := 0xFFFF }
  else if 0x10 ≤ port ∧ port ≤ 0x13 then (s.setFld (F.SPI_STAT_BUSY ((port - 0x10) / 2)) 0).csRelease ((port - 0x10) / 2)
  else if 0x14 ≤ port ∧ port ≤ 0x17 then s.setI2c ((port - 0x14) / 2) ⟨false, port % 2 == 1⟩
  else if port = 0x20 ∨ port = 0x21 then s.setAdc (port - 0x20) { s.adc (port - 0x20) with fifo := [] }
  else if 0x28 ≤ port ∧ port ≤ 0x2B then s.ethAbort ((port - 0x28) / 2) (port % 2 == 1) it
  else s

/-- R491, R518: a UART page stops. -/
def State.uartStop (s : State) (n : Nat) : State :=
  ((s.ioStopPort 2 n).ioStopPort 3 (8 + n)).setUart n UartPort.idle

/-- An Ethernet page stops. -/
def State.ethStop (s : State) (n : Nat) : State :=
  ((s.ioStopPort 2 (0x28 + 2 * n)).ioStopPort 3 (0x29 + 2 * n)).setEth n EthMac.idle

/-- An SPI page stops. -/
def State.spiStop (s : State) (n : Nat) : State :=
  (((s.ioStopPort 2 (0x10 + 2 * n)).ioStopPort 3 (0x11 + 2 * n)).setFld (F.SPI_STAT_BUSY n) 0).setSpi n ⟨none, []⟩

/-- An I²C page stops. -/
def State.i2cStop (s : State) (n : Nat) : State :=
  ((s.ioStopPort 2 (0x14 + 2 * n)).ioStopPort 3 (0x15 + 2 * n)).setI2c n ⟨false, false⟩

/-- An ADC page stops. -/
def State.adcStop (s : State) (n : Nat) : State := ((s.ioStopPort 4 (0x20 + n)).setAdc n AdcPort.idle).adcCompare n

end Sys2Proof.Machine
end

