-- ==== Sys2Proof/Machine/Ospi.lean ====
section
/-! DEFINITION. The OSPI controller (R147 to R153): indirect commands and their polls, loads of the execute-in-place window,
the reset pulse, and Heddle's flash items. What the flash itself answers to a command comes with the event; the contents of
its array are kept, so that reads, programs and loads agree. -/
namespace Sys2Proof.Machine

/-- A byte that the flash sends for its array: an erased one is 0xFF, and with bank A outside its windows the controller reads 0 (R71). -/
def State.flashByte (s : State) (a : Nat) : Byte := if s.bankLive 0 then SMap.get (fun _ => 0xFF#8) s.boot.flash a else 0#8

/-- `n` bytes of the array from `a`. -/
def State.flashBytes (s : State) (a n : Nat) : List Byte := (List.range n).map (fun i => s.flashByte (a + i))

/-- Programming clears bits of the array. -/
def programBytes : List (Nat × Byte) → Nat → List Byte → List (Nat × Byte)
  | m, _, [] => m
  | m, a, b :: bs => programBytes (SMap.put (fun _ => 0xFF#8) m a (SMap.get (fun _ => 0xFF#8) m a &&& b)) (a + 1) bs

/-- The flash programs `bs` at `a`; it hears nothing while bank A is outside its windows. -/
def State.flashProgram (s : State) (a : Nat) (bs : List Byte) : State :=
  let t := s.noteXip
  t.when (t.bankLive 0) (fun u => { u with boot := { u.boot with flash := programBytes u.boot.flash a bs } })

/-- The flash erases the block of 2^`k` bytes that holds `a`. -/
def State.flashErase (s : State) (a k : Nat) : State :=
  let t := s.noteXip
  t.when (t.bankLive 0) (fun u => { u with boot := { u.boot with flash := u.boot.flash.filter (fun e => e.1 / 2 ^ k != a / 2 ^ k) } })

/-! ### What the controller sends -/

/-- What a command sends before its poll. -/
def OspiCommand.transfer (c : OspiCommand) : OspiTransfer :=
  { bus := c.bus, opcode := c.bus.opcode c.op, addr := c.addrBytes, dummy := c.dummy, out := c.data, reads := c.reads }

/-- A read of the status register. -/
def OspiCommand.pollTransfer (c : OspiCommand) : OspiTransfer := { c.bus.bare c.pollOp with reads := 1 }

/-! ### Loads of the window -/

/-- R148: a load of the window by NI `ni` is performed: its data, or a bus error. One of a hart goes through its caches, which fill the line
where none holds it; one of another initiator reads the line that the caches hold, or the flash. -/
def State.xipRead (s : State) (ni a n : Nat) : State :=
  let l := lineOf a
  if ! s.lineHeld l && ! s.xipReadable a n then s.respond true 0#64
  else
    let s1 := if ni < 4 then ((s.readsArrays (some ni) false a).hartFill ni l false).hartL1 ni l false
      else if s.lineHeld l then s else s.xipFetch l
    s1.respond false (BitVec.ofNat 64 (leNat ((List.range n).map (fun i => s1.byteSeen (a + i)))))

/-- Bytes of an access size. -/
def sizeBytes : Size → Nat
  | .b => 1 | .h => 2 | .w => 4 | .d => 8

/-- A load that waited gets the flash; a hart or the debug module asks again by itself. -/
def State.xipAnswer (s : State) (x : XipLoad) : State :=
  match x.origin with
  | .command => s.xipRead x.req.ni.val x.addr (sizeBytes x.size)
  | _ => s

/-- R150: the first `n` loads that waited are performed in order. -/
def State.xipServe (s : State) (n : Nat) : State :=
  (forAll (s.boot.xip.take n) (fun x t => t.xipAnswer x) { s with boot := { s.boot with xip := s.boot.xip.drop n } }).setFlag F.OSPI_STAT_XIP_WAIT
    (decide (n < s.boot.xip.length))

/-! ### Indirect commands -/

/-- R149: what a command starts with. The array read command is OSPI_XIP.READ_OP, the program command OSPI_HEDDLE.PROG_OP and the
write enable OSPI_WREN.OP (notes/assumptions/61.md). -/
def State.ospiCommand (s : State) : OspiCommand :=
  let op := s.fld F.OSPI_CMD_OP
  let write := s.flag F.OSPI_CMD_WRITE
  let addrEn := s.flag F.OSPI_CMD_ADDR_EN
  let len := s.fld F.OSPI_LEN_LEN
  let effect :=
    if op = s.fld F.OSPI_WREN_OP ∧ len = 0 then 1
    else if write && addrEn && op == s.fld F.OSPI_HEDDLE_PROG_OP then 2
    else if ! write && addrEn && op == s.fld F.OSPI_XIP_READ_OP then 3
    else if write then 0 else if len = 0 then 4 else 0
  let four := s.flag F.OSPI_CMD_ADDR4
  { bus := s.ospiBus, op := op, effect := effect, poll := s.flag F.OSPI_CMD_POLL, mask := s.fld F.OSPI_POLL_MASK, want := s.fld F.OSPI_POLL_MATCH,
    pollOp := s.fld F.OSPI_POLL_OP, addr := s.fld F.OSPI_ADDR_ADDR % (if four then 2 ^ 32 else 2 ^ 24),
    addrBytes := if addrEn then addressBytes four (s.fld F.OSPI_ADDR_ADDR) else [], dummy := s.fld F.OSPI_CMD_DUMMY,
    reads := if write then 0 else len, performed := false, after := s.boot.xip.length,
    data := if write then (List.range len).map (fun i => BitVec.ofNat 8 (s.fld (F.OSPI_DATA_DATA (i / 4)) / 2 ^ (8 * (i % 4)))) else [] }

/-- R149: a write to OSPI_CMD. Behind a program item the command waits (R150). -/
def State.opOspiCmd (s : State) (ni : Nat) (v : DWord) : State :=
  if F.OSPI_CMD_GO.of v = 0 then (s.storeReg ni R.OSPI_CMD v).1
  else
    match s.boot.command with
    | some c => s.refuse ni R.OSPI_CMD 1 v c.op
    | none =>
      let s1 := (s.storeReg ni R.OSPI_CMD v).1
      if ! s1.ioLive P.OSPI then s1
      else ({ s1 with boot := { s1.boot with command := some s1.ospiCommand } }).setFld F.OSPI_STAT_BUSY 1

/-- Put bytes into OSPI_DATA_n. -/
def State.ospiData (s : State) (bs : List Byte) : State :=
  forAll bs.zipIdx (fun e t =>
    let f := F.OSPI_DATA_DATA (e.2 / 4)
    t.setFld ⟨f.reg, 8 * (e.2 % 4), 8⟩ e.1.toNat) s

/-- The command is over; loads that waited follow. -/
def State.ospiEnd (s : State) : State :=
  (({ s with boot := { s.boot with command := none } }).setFld F.OSPI_STAT_BUSY 0).xipServe s.boot.xip.length

/-- What the flash does with a command once OSPI_CS_N has risen: a write enable, a program, or the erase of a block of 2^`erased`
bytes. -/
def State.flashTakes (s : State) (c : OspiCommand) (erased : Option Nat) : State :=
  let spend (t : State) : State := { t with boot := { t.boot with wren := false } }
  if c.effect = 1 then { s with boot := { s.boot with wren := true } }
  else if c.effect = 2 && s.boot.wren then spend (s.flashProgram c.addr c.data)
  else match erased with
    | some k => if c.effect = 4 && s.boot.wren then spend (s.flashErase c.addr k) else s
    | none => s

/-- R149: opcode, address, idle cycles and data: OSPI_CS_N rises, and the data read stand in OSPI_DATA_n. -/
def State.ospiPerform (s : State) (c : OspiCommand) (answer : List Byte) (erased : Option Nat) : State :=
  if c.performed then s else
  let s1 := (s.ospiTake.ospiSend c.transfer).ospiData
    (if c.effect = 3 then s.flashBytes c.addr c.reads else if s.bankLive 0 then answer.take c.reads else List.replicate c.reads 0#8)
  { s1.flashTakes c erased with boot := { (s1.flashTakes c erased).boot with command := some { c with performed := true } } }

/-- What a poll reads: 0 while bank A is outside its windows. -/
def State.polled (s : State) (status : Nat) : Nat := if s.bankLive 0 then status else 0

/-- R149: OSPI_CS_N rises after the command, and with POLL its status is read: the command ends unless the poll does not match.
`answer` is what the flash sends for a command that is no array read; `erased` is the log2 of the block a command has erased. -/
def State.opOspiDone (s : State) (answer : List Byte) (status : Nat) (erased : Option Nat) : State :=
  match s.boot.command with
  | none => s
  | some c =>
    if s.boot.polling.isSome || ! s.ioLive P.OSPI then s else
    let s1 := s.ospiPerform c answer erased
    let st := s1.polled status
    let s2 := s1.when c.poll (fun t => (t.ospiSend c.pollTransfer).setFld F.OSPI_STAT_STATUS st)
    if c.poll && st &&& c.mask != c.want then s2
    else ((s2.setFld F.OSPI_STAT_DONE 1).raise P.OSPI E.OSPI_CMD_DONE).ospiEnd

/-- R151: a failed item or poll timeout is counted. -/
def State.ospiError (s : State) (detail : Nat) : State := (s.bumpSat F.OSPI_ERR_COUNT F.OSPI_ERR_SAT).setFld F.OSPI_ERR_LAST_DETAIL detail

/-- R149: OSPI_TIMEOUT.US has passed without a match; the command itself has run. -/
def State.opOspiTimeout (s : State) (answer : List Byte) (status : Nat) (erased : Option Nat) : State :=
  match s.boot.command with
  | none => s
  | some c =>
    if ! c.poll || s.boot.polling.isSome || ! s.ioLive P.OSPI then s
    else
      let s1 := (s.ospiPerform c answer erased).ospiSend c.pollTransfer
      ((((s1.setFld F.OSPI_STAT_STATUS (s1.polled status)).ospiError 1).setFld F.OSPI_STAT_TIMEOUT 1).raise P.OSPI E.OSPI_TIMEOUT).ospiEnd

/-- R148, R150, R317: a load of the window reaches the controller. Behind a command or a program item it waits; `late` says that
this lasts its 100 µs. -/
def State.opXipLoad (s : State) (q : Req) (off : Nat) (size : Size) (late : Bool) : State :=
  let a := 0x20000000 + off
  if ! s.flashBusy || s.lineHeld (lineOf a) then s.xipRead q.ni.val a (sizeBytes size)
  else if late then
    let s1 := (s.bumpSat (F.LOOM_NI_ERR_COUNT 9 3) (F.LOOM_NI_ERR_SAT 9 3)).raise (P.LOOM_NI 9) E.LOOM_NI_ABANDON
    (s1.loomTimeout q.ni.val 9 a).respond true 0#64
  else
    let w : XipLoad := { req := q, addr := a, size := size, origin := .command }
    ({ s with boot := { s.boot with xip := s.boot.xip ++ [w] } } : State).xipHeld

/-- R152: a write to OSPI_RESET. -/
def State.opOspiReset (s : State) (ni : Nat) (v : DWord) : State :=
  if F.OSPI_RESET_PULSE.of v = 0 then (s.storeReg ni R.OSPI_RESET v).1
  else if s.boot.command.isSome then s.refuseFree ni R.OSPI_RESET 1 v
  else
    let s1 := (s.storeReg ni R.OSPI_RESET v).1
    { s1 with boot := { s1.boot with resetPulses := s1.boot.resetPulses + 1, wren := false } }

/-- An OSPI item fails with a DETAIL of Table Boot-13. -/
def State.ospiItemFail (s : State) (c idx detail : Nat) : State :=
  ((s.ospiError detail).raise P.OSPI E.OSPI_ITEM_ERROR).decideItem c idx 4 detail

/-- R152: a command stopped at a byte boundary before its last one: how far its data came is open. The flash takes what it got. -/
def State.ospiCut (s : State) (c : OspiCommand) : State :=
  if c.performed || s.boot.polling.isSome then s else
  let (w, s1) := s.takeFree
  let k := w.toNat % (c.reads + c.data.length + 1)
  let (ws, s2) := s1.takeFrees (min c.reads k)
  s2.ospiPerform { c with reads := min c.reads k, data := c.data.take k, effect := if k = 0 ∧ c.effect ≠ 1 then 0 else c.effect }
    (ws.map (fun x => x.truncate 8)) none

/-- R152: ENABLE = 0 or a soft reset stops what runs. -/
def State.ospiStop (s : State) : State :=
  let s1 := match s.boot.command with
    | some c => (((s.ospiCut c).setFld F.OSPI_STAT_TIMEOUT 1).raise P.OSPI E.OSPI_TIMEOUT)
    | none => s
  let stop (kind port : Nat) (t : State) : State :=
    match t.portItem kind port with
    | some (c, _, it) => if it.started then t.ospiItemFail c it.index 9 else t
    | none => t
  let s2 := stop 3 0x31 (stop 2 0x30 s1)
  ({ s2 with boot := { s2.boot with polling := none } } : State).noteXip.ospiEnd

/-- R151, port 0x30: the flash bytes of an item go to memory. -/
def State.ospiReadItem (s : State) (c : Nat) (k : HeddleChannel) (it : HeddleItem) : State :=
  let a := it.param % 2 ^ 28
  if 2 ^ s.fld F.OSPI_SIZE_LOG2 < a + it.len then s.ospiItemFail c it.index 3
  else
    let at0 := if s.flag F.OSPI_XIP_ADDR4 then a else a % 2 ^ 24
    let x := ((s.ospiTake.ospiSend (s.readTransfer a it.len)).startItem c it.index).heddleWrite c k.e.inst it.dst (s.flashBytes at0 it.len)
    let s1 := x.s.progress c it.index (fun i => { i with bytes := x.done, done := x.done })
    match x.fail with
    | some (st, d) => s1.decideItem c it.index st d
    | none => s1.decideItem c it.index 0 0

/-- R151: what a program item sends before its poll: the write enable, then PROG_OP with the address and the data. The address has 4
bytes when OSPI_XIP.ADDR4 is set or 3 cannot hold it (notes/assumptions/62.md). -/
def State.ospiProgramSend (s : State) (a : Nat) (bs : List Byte) : State :=
  let b := s.ospiBus
  let prog : OspiTransfer := { b.bare (s.fld F.OSPI_HEDDLE_PROG_OP) with
    addr := addressBytes (s.flag F.OSPI_XIP_ADDR4 || decide (2 ^ 24 ≤ a)) a, out := bs }
  let s1 := ((s.ospiTake.ospiSend (b.bare (s.fld F.OSPI_WREN_OP))).ospiSend prog).flashProgram a bs
  { s1 with boot := { s1.boot with wren := false } }

/-- R149: the bus and the poll of a command that waited are those in force as it starts (R150). -/
def State.ospiRenew (s : State) (c : OspiCommand) : OspiCommand :=
  { c with bus := s.ospiBus, mask := s.fld F.OSPI_POLL_MASK, want := s.fld F.OSPI_POLL_MATCH, pollOp := s.fld F.OSPI_POLL_OP }

/-- R150: a program item leaves the flash: the loads that came before a waiting command, then that command, else every load. -/
def State.pollEnd (s : State) : State :=
  let s1 : State := { s with boot := { s.boot with polling := none } }
  match s1.boot.command with
  | none => s1.xipServe s1.boot.xip.length
  | some c =>
    let s2 := s1.xipServe c.after
    { s2 with boot := { s2.boot with command := some (s2.ospiRenew c) } }

/-- R150, R151: how the item at `idx` of channel `c` polls, as it starts. -/
def State.itemPoll (s : State) (c idx : Nat) : OspiPoll :=
  { ch := c, idx := idx, bus := s.ospiBus, op := s.fld F.OSPI_POLL_OP, mask := s.fld F.OSPI_POLL_MASK, want := s.fld F.OSPI_POLL_MATCH }

/-- R151: the poll of a program item: `polled` is the status read last, none when OSPI_TIMEOUT has passed without a match. -/
def State.ospiItemPoll (s : State) (p : OspiPoll) (len : Nat) (polled : Option Nat) : State :=
  let s1 := s.ospiSend { p.bus.bare p.op with reads := 1 }
  match polled with
  | none => (s1.ospiItemFail p.ch p.idx 1).pollEnd
  | some st =>
    let v := s1.polled st
    let s2 := s1.setFld F.OSPI_STAT_STATUS v
    if v &&& p.mask != p.want then s2
    else ((s2.modItem p.ch p.idx (fun i => { i with bytes := len, done := len })).decideItem p.ch p.idx 0 0).pollEnd

/-- R151, port 0x31: an item reads its bytes, programs a page and polls. A range that crosses a page and also passes the flash size
gets DETAIL 2 (notes/assumptions/63.md). -/
def State.ospiProgramItem (s : State) (c : Nat) (k : HeddleChannel) (it : HeddleItem) (polled : Option Nat) : State :=
  let a := it.param % 2 ^ 28
  let page := 2 ^ s.fld F.OSPI_HEDDLE_PAGE_LOG2
  if page < it.len ∨ a / page ≠ (a + it.len - 1) / page then s.ospiItemFail c it.index 2
  else if 2 ^ s.fld F.OSPI_SIZE_LOG2 < a + it.len then s.ospiItemFail c it.index 3
  else
    let x := (s.startItem c it.index).heddleRead c k.e.inst 1 it.src it.len
    match x.fail with
    | some (st, d) => x.s.decideItem c it.index st d
    | none =>
      let s1 := (x.s.progress c it.index id).ospiProgramSend a x.data
      let p := s1.itemPoll c it.index
      ({ s1 with boot := { s1.boot with polling := some p } } : State).ospiItemPoll p it.len polled

/-- R150, R151: the poll of the program item that holds the flash goes on; an item that Heddle has given up leaves the flash here. -/
def State.ospiPollOn (s : State) (polled : Option Nat) : State :=
  match s.boot.polling with
  | none => s
  | some p =>
    match s.portItem 3 0x31 with
    | some (c, _, it) => if c = p.ch ∧ it.index = p.idx then s.ospiItemPoll p it.len polled else s.pollEnd
    | none => s.pollEnd

/-- R151: the item of a flash port runs; behind a command or a program item it waits (R150). -/
def State.opOspiItem (s : State) (program : Bool) (polled : Option Nat) : State :=
  if ! s.ioLive P.OSPI then s
  else if s.boot.polling.isSome then s.when program (fun t => t.ospiPollOn polled)
  else if s.boot.command.isSome then s else
  match s.ioItem (if program then 3 else 2) (if program then 0x31 else 0x30) 0x0FFFFFFF with
  | (s1, none) => s1
  | (s1, some (c, k, it)) => if program then s1.ospiProgramItem c k it polled else s1.ospiReadItem c k it

/-- OSPI_CMD_GO. -/
def execOspiCmdGo (q : Req) (op : Byte) (addrEn addr4 write poll : Bool) (dummy : BitVec 5) (s : State) : Host.Outcome State Fault Refusal :=
  let v := BitVec.ofNat 64 (F.OSPI_CMD_OP.at op.toNat + F.OSPI_CMD_ADDR_EN.at (b2n addrEn) + F.OSPI_CMD_ADDR4.at (b2n addr4)
    + F.OSPI_CMD_WRITE.at (b2n write) + F.OSPI_CMD_POLL.at (b2n poll) + F.OSPI_CMD_DUMMY.at dummy.toNat + F.OSPI_CMD_GO.at 1)
  .next (s.gateWrite q R.OSPI_CMD .w v (fun t => t.opOspiCmd q.ni.val v))

/-- OSPI_CMD_DONE. -/
def execOspiCmdDone (answer : List Byte) (status : Byte) (erased : Option (Fin 29)) (s : State) : Host.Outcome State Fault Refusal :=
  .next (s.opOspiDone answer status.toNat (erased.map (fun k => k.val)))

/-- OSPI_POLL_TIMEOUT. -/
def execOspiPollTimeout (answer : List Byte) (status : Byte) (erased : Option (Fin 29)) (s : State) : Host.Outcome State Fault Refusal :=
  .next (s.opOspiTimeout answer status.toNat (erased.map (fun k => k.val)))

/-- XIP_LOAD at an offset of the window. -/
def execXipLoad (q : Req) (off : BitVec 28) (size : Size) (late : Bool) (s : State) : Host.Outcome State Fault Refusal :=
  .next (s.opXipLoad q off.toNat size late)

/-- OSPI_RESET_PULSE. -/
def execOspiResetPulse (q : Req) (s : State) : Host.Outcome State Fault Refusal :=
  .next (s.gateWrite q R.OSPI_RESET .w 1#64 (fun t => t.opOspiReset q.ni.val 1#64))

/-- OSPI_ITEM on port 0x31 (`program`) or 0x30. -/
def execOspiItem (program : Bool) (polled : Option Byte) (s : State) : Host.Outcome State Fault Refusal :=
  .next (s.opOspiItem program (polled.map (fun b => b.toNat)))

end Sys2Proof.Machine
end

