-- ==== Sys2Proof/Machine/BootOps.lean ====
section
/-! DEFINITION. First stage, lifecycle and debug unlock as shared operations (R127 to R161): slots, locks, image checks, hand-over,
snapshots, recovery. -/
namespace Sys2Proof.Machine

/-- Start of base camp. -/
def baseCamp : Nat := 0x01000000
/-- Start of the first stage's scratch (R136). -/
def scratch : Nat := 0x010F0000

/-- R136: the scratch is zeroed. -/
def State.zeroScratch (s : State) : State :=
  let out (a : Nat) : Bool := ! decide (scratch ≤ a ∧ a < scratch + 0x10000)
  { s with mem := s.mem.filter (fun e => out e.1),
           memory := { s.memory with stale := s.memory.stale.filter (fun e => out e.1), poison := s.memory.poison.filter out,
                                     linePoison := s.memory.linePoison.filter out,
                                     flips := s.memory.flips.filter (fun f => decide (f.array ≠ 9) || out f.addr) } }

/-- R139: what the first stage locks and clears. -/
def State.applyLocks (s : State) : State :=
  let s1 := (s.setFld F.PITON_KEY_RLOCK_RLOCK (s.fld F.PITON_KEY_RLOCK_RLOCK ||| 7)).setFld F.PITON_KEY_ULOCK_ULOCK
    (s.fld F.PITON_KEY_ULOCK_ULOCK ||| 3)
  let s2 := (((s1.setFld F.PITON_FUSE_WIN_CLOSED 1).setFld F.PITON_STAT_FIRST_STAGE_DONE 1).raise P.PITON E.PITON_LOCK_SET).zeroScratch
  let s3 := ((s2.resetPage P.AES).resetPage P.HASH).resetPage P.PKA
  { s3 with sec := { s3.sec with hash := [], pka := none } }

/-- A header word. -/
def hdr (h : List Byte) (o : Nat) : Nat := leNat (slice o 4 h)

/-- Table Boot-2: the fields of an image header that the checks and the hand-over use. -/
structure Image where
  /-- AUTH -/
  auth : Nat
  /-- KEY_INDEX -/
  key : Nat
  /-- ENCRYPTED -/
  enc : Bool
  /-- DKEY -/
  dkey : Nat
  /-- MODE_REQ -/
  mode : Nat
  /-- LENGTH -/
  len : Nat
  /-- ENTRY -/
  entry : Nat
  /-- SVN -/
  svn : Nat
  /-- BUILD -/
  build : Nat
deriving DecidableEq, Repr

/-- The fields of a header. -/
def Image.of (h : List Byte) : Image :=
  let w := hdr h 4
  ⟨w / 2 ^ 8 % 4, w / 2 ^ 12 % 4, w.testBit 16, w / 2 ^ 17 % 2, w / 2 ^ 20 % 4, hdr h 8, hdr h 12, hdr h 16, hdr h 20⟩

/-- Check 2: MAGIC, VERSION and reserved bits. No check of Table Boot-3 names an SVN above 64, or a PUBKEY that is not 0 beside an AUTH
that is not 0, so such a header passes this one (DESIGN CHOICE, notes/assumptions/89.md). -/
def formatOk (h : List Byte) : Bool :=
  let w := hdr h 4
  hdr h 0 == 0x53525031 && w % 256 == 1 && w / 2 ^ 10 % 4 == 0 && w / 2 ^ 14 % 4 == 0 && w / 2 ^ 18 % 4 == 0 && w / 2 ^ 22 == 0 &&
    leNat (slice 0x18 8 h) == 0 && leNat (slice 0x90 48 h) == 0

/-- Check 3: LENGTH and ENTRY. -/
def geometryOk (i : Image) (loader : Bool) : Bool :=
  decide (64 ≤ i.len ∧ i.len ≤ 982784 ∧ i.len % 64 = 0 ∧ i.entry % 4 = 0 ∧ i.entry < i.len) && (! loader || i.entry == 0)

/-- Check 5: AUTH as Table Boot-6 and, for the hardware loader, R138 allow it. -/
def State.authOk (s : State) (i : Image) (loader : Bool) : Bool :=
  let lc := s.fld F.SYSCFG_LIFECYCLE_STATE
  let byPolicy :=
    if i.auth = 0 then true
    else if i.auth = 1 then decide (lc = 0) || (decide (lc = 1) && s.flag F.BOOT_POLICY_PINNED_ALLOWED)
    else if i.auth = 2 then decide (lc = 0) && decide (s.fld F.BOOT_POLICY_ROTPK_SET = 0 ∧ s.fld F.BOOT_POLICY_PINNED_SET = 0)
    else false
  byPolicy && (! loader || i.auth == 1)

/-- Check 8: the root key. -/
def State.rootKeyOk (s : State) (h : List Byte) (i : Image) : Bool :=
  i.auth != 0 || (! (s.fld F.BOOT_POLICY_ROTPK_REVOKED).testBit i.key && sha256 (slice 0x50 64 h) == s.otpBytes (16 + 8 * i.key) 8)

/-- An ECDSA P-256 signature with SHA-256 over `m`, with the key X, Y and r, s as big-endian byte strings. -/
def ecdsaOk (key sig m : List Byte) : Bool :=
  let x := beNat (slice 0 32 key)
  let y := beNat (slice 32 32 key)
  Curve.p256.on x y && Curve.p256.verify (beNat (sha256 m)) x y (beNat (slice 0 32 sig)) (beNat (slice 32 32 sig))

/-- Check 9 for AUTH = 0: the signature over the signed region. -/
def signatureOk (h : List Byte) (i : Image) : Bool := i.auth != 0 || ecdsaOk (slice 0x50 64 h) (slice 0xC0 64 h) (slice 0 0xC0 h)

/-- Check 9 for AUTH = 1: H equals a pinned hash that is not blank. -/
def State.pinnedOk (s : State) (h : List Byte) (i : Image) : Bool :=
  let d := sha256 (slice 0 0xC0 h)
  i.auth != 1 || (List.range 2).any (fun k => ! s.otpBlank (48 + 8 * k) 8 && d == s.otpBytes (48 + 8 * k) 8)

/-- Table Boot-3, checks 2 to 10: the step, its FAILCODE, and whether it passes. -/
def State.imageChecks (s : State) (h payload : List Byte) (loader : Bool) : List (Nat × Nat × Bool) :=
  let i := Image.of h
  [ (2, 0x02, formatOk h),
    (3, 0x03, geometryOk i loader && payload.length == i.len),
    (4, 0x04, i.mode == 0 || (i.mode == 1 && ! s.guarded) || (i.mode == 2 && s.guarded)),
    (5, 0x05, s.authOk i loader),
    (6, 0x06, decide (s.fld F.BOOT_OTP_SVN_SVN ≤ i.svn)),
    (7, 0x07, ! i.enc || (! loader && (s.slot i.dkey).isSome)),
    (8, 0x08, s.rootKeyOk h i),
    (9, 0x09, signatureOk h i),
    (9, 0x0A, s.pinnedOk h i),
    (10, 0x0B, sha256 payload == slice 0x20 32 h) ]

/-- R135: the FAILCODE of the first check that fails; `err` is the step at which ROM or base camp shows an uncorrectable
error, code 0x0C. -/
def firstFail (err : Option Nat) : List (Nat × Nat × Bool) → Option Nat
  | [] => err.map (fun _ => 0x0C)
  | (step, code, ok) :: rest =>
    match err with
    | some e => if e ≤ step then some 0x0C else if ok then firstFail err rest else some code
    | none => if ok then firstFail err rest else some code

/-- Base camp with `n` bytes from `a` undefined: free values, word by word. -/
def State.freeFill (s : State) (a n : Nat) : State :=
  ({ s with fresh := s.fresh + n / 8 } : State).putMem a
    ((List.range (n / 8)).flatMap (fun k => leBytes 8 (Config.free (s.fresh + k)).toNat))

/-- Bytes written to base camp by the first stage, through full words (R136, R256). -/
def State.campWrite (s : State) (a : Nat) (bs : List Byte) : State := s.land a bs

/-- R136, R137: an image that passed stands decrypted in base camp, what follows it there is undefined, and the status
registers describe it. -/
def State.acceptImage (s : State) (h payload : List Byte) (slot us : Nat) : State :=
  let i := Image.of h
  let key := match s.slot i.dkey with | some k => k.bytes | none => []
  let plain := if i.enc then (Aes.ctr (Aes.roundKeys key) (slice 0x40 16 h) payload).1 else payload
  let s1 := (s.campWrite baseCamp plain).freeFill (baseCamp + i.len) (scratch - (baseCamp + i.len))
  let s2 := ((((s1.setFld F.BOOT_STATUS_SLOT slot).setFld F.BOOT_STATUS_AUTH i.auth).setFld F.BOOT_STATUS_KEY_INDEX i.key).setFlag
    F.BOOT_STATUS_ENCRYPTED i.enc).setFld F.BOOT_STATUS_SVN i.svn
  let s3 := (s2.setFld F.BOOT_IMAGE_BUILD_BUILD i.build).setFld F.BOOT_TIME_US us
  { s3 with boot := { s3.boot with phase := .passed i.entry } }

/-- R148: the OSPI page as discovery leaves it, the window open. -/
def State.ospiFound (s : State) (f : FlashId) : State :=
  let s1 := (s.setFld (F.PAGE_CTRL_ENABLE P.OSPI) 1).setFld (F.PAGE_STAT_ENABLED P.OSPI) 1
  let s2 := (((s1.setFld F.OSPI_CFG_PROTO f.proto.val).setFlag F.OSPI_CFG_CMD16 f.cmd16).setFlag F.OSPI_CFG_DQS_EN f.dqs).setFld
    F.OSPI_CFG_DIV (max 1 f.div.val)
  ((((s2.setFld F.OSPI_SIZE_LOG2 (min 28 (max 16 f.log2.val))).setFld F.OSPI_XIP_EN 1).setFlag F.OSPI_XIP_ADDR4 f.addr4).setFld
    F.OSPI_XIP_READ_OP f.readOp.toNat).setFld F.OSPI_XIP_DUMMY f.dummy.val

/-- R133: offset of a slot in the flash. -/
def slotOffset (slot : Nat) : Nat := if slot = 0 then 0 else 0x400000

/-- R129, R143: the resume path comes first. -/
def State.resumeDue (s : State) : Bool := s.boot.resume

/-- The first stage may act: straps latched, nothing decided yet, boot mode `m`. -/
def State.stageReady (s : State) (m : Nat) : Bool :=
  s.awake && s.flag F.BOOT_STRAP_LATCHED && decide (s.boot.phase = .start ∧ s.fld F.BOOT_STRAP_MODE_USED = m) && ! s.resumeDue

/-- R136: by step 10 the payload stands in base camp as stored: what a failure there leaves. `c` is the FAILCODE, `err` the step at
which a memory error showed. -/
def State.storePayload (s : State) (c : Nat) (err : Option Nat) (payload : List Byte) : State :=
  if c = 0x0B ∨ (c = 0x0C ∧ err = some 10) then s.campWrite baseCamp payload else s

/-- The attempt on slot `slot` has failed with FAILCODE `c`. -/
def State.bootFailed (s : State) (c slot : Nat) : State := { s with boot := { s.boot with phase := .failed c slot } }

/-- The boot hart executes the first stage: it runs, and no debugger has halted it. -/
def State.romRuns (s : State) : Bool := (s.hart 0).running && ! (s.hart 0).debug

/-- R135 to R137: the ROM flash flow up to its verdict. -/
def State.opFirstStage (s : State) (id : Option FlashId) (err : Option Nat) (us : Nat) : State :=
  if ! s.stageReady 0 ∨ ! s.romRuns then s else
  let s0 := s.loadSlots
  let slot := s0.fld F.BOOT_PREF_SLOT
  match id with
  | none => s0.bootFailed (match err with | some 0 => 0x0C | _ => 0x01) slot
  | some f =>
    if 2 ^ f.log2.val < slotOffset slot + 256 then s0.bootFailed 0x01 slot else
    let h := s0.flashBytes (slotOffset slot) 256
    let i := Image.of h
    let payload := if geometryOk i false then s0.flashBytes (slotOffset slot + 256) i.len else []
    match firstFail err (s0.imageChecks h payload false) with
    | some c => (s0.storePayload c err payload).bootFailed c slot
    | none => (s0.acceptImage h payload slot us).ospiFound f

/-- R137: the boot hart leaves the first stage at `pc` with a0 = mhartid and `a1`. -/
def State.jumpBoot (s : State) (pc a1 : Nat) : State :=
  forAll (s.pairOf 0) (fun h t => t.modHart h (fun x =>
    { Hart.reset pc with running := x.running, resetHalt := x.resetHalt, x := if a1 = 0 then [] else [(11, BitVec.ofNat 64 a1)] })) s

/-- R137, R527: hand-over of an image that passed. -/
def State.handOver (s : State) (entry : Nat) : State :=
  let tether := decide (s.fld F.BOOT_STRAP_MODE_USED = 3)
  let s1 := (s.applyLocks.setFld F.BOOT_STATUS_DONE 1).attn 3
  let s2 := s1.when tether (fun t => (t.setReg R.TETHER_REQ (Bits.put (t.raw R.TETHER_REQ) 2 1 0)).setFlag F.TETHER_CFG_LIVE_EN
    (t.fld F.SYSCFG_LIFECYCLE_STATE != 1))
  { s2.jumpBoot (baseCamp + entry) (s2.raw R.BOOT_STATUS).toNat with boot := { s2.boot with phase := .done } }

/-- HAND_OVER: an image has passed; in USB recovery the port detaches first (R145). A first stage that a debugger has halted goes no further. -/
def State.opHandOver (s : State) : State :=
  match s.boot.phase with
  | .passed entry => if s.fld F.BOOT_STRAP_MODE_USED = 2 || ! s.romRuns then s else s.handOver entry
  | _ => s

/-- R140: a failed check is recorded, the slot flips, the locks are set and the retry wait begins. -/
def State.opBootFail (s : State) : State :=
  match s.boot.phase with
  | .failed code slot =>
    let k := s.fld F.BOOT_RETRY_COUNT
    let s1 := ((s.setFld F.BOOT_FAILCODE_CODE code).setFld F.BOOT_FAILCODE_SLOT slot).bumpSat F.BOOT_RETRY_COUNT F.BOOT_RETRY_SAT
    let s2 := (s1.setFld F.BOOT_PREF_SLOT (1 - s1.fld F.BOOT_PREF_SLOT)).applyLocks
    { s2 with boot := { s2.boot with phase := .waiting (min (2 ^ min k 6) 64) } }
  | _ => s

/-- R140, step 6: the wait ends in a system reset. -/
def State.opRetryEnd (s : State) : State :=
  match s.boot.phase with
  | .waiting _ => s.startReset 3 false
  | _ => s

/-- R138: the hardware loader; `answers` says whether the flash answers. -/
def State.opLoader (s : State) (answers : Bool) (err : Option Nat) (us : Nat) : State :=
  if ! s.stageReady 1 then s else
  let s0 := s.loadSlots
  let slot := s0.fld F.BOOT_PREF_SLOT
  let h := s0.flashBytes (slotOffset slot) 256
  let payload := if geometryOk (Image.of h) true then s0.flashBytes (slotOffset slot + 256) (Image.of h).len else []
  match (if answers then firstFail err (s0.imageChecks h payload true) else some 0x01) with
  | some c => (s0.storePayload c err payload).bootFailed c slot
  | none =>
    let fast := s0.flag F.BOOT_POLICY_LOADER_BUS
    let s1 := (s0.acceptImage h payload slot us).applyLocks
    let s2 := (((s1.setFld (F.PAGE_CTRL_ENABLE P.OSPI) 1).setFld (F.PAGE_STAT_ENABLED P.OSPI) 1).setFld F.OSPI_CFG_PROTO
      (if fast then 3 else 0)).setFld F.OSPI_CFG_DIV (if fast then 1 else 4)
    let s3 := ((s2.setFld F.BOOT_STATUS_DONE 1).attn 3).startHarts baseCamp
    { s3 with boot := { s3.boot with phase := .done } }

/-- R131: source 1,536 + h of a parked hart. -/
def parkSource (h : Nat) : Nat := 1536 + h

/-- Cairn: set or clear the enable bit of source `id` in context `c`. -/
def State.setEnable (s : State) (c id : Nat) (on : Bool) : State :=
  let w := s.enableWord c (id / 32)
  let v := if on then w ||| 2 ^ (id % 32) else clearBits w (2 ^ (id % 32))
  { s with cairn := { s.cairn with enable := SMap.put (fun _ => 0) s.cairn.enable (64 * c + id / 32) v } }

/-- Cairn: set the priority of a source. -/
def State.setPrio (s : State) (id p : Nat) : State := { s with cairn := { s.cairn with prio := SMap.put (fun _ => 0) s.cairn.prio id p } }

/-- Cairn: set the THRESHOLD of a context. -/
def State.setThreshold (s : State) (c p : Nat) : State :=
  { s with cairn := { s.cairn with threshold := SMap.put (fun _ => 0) s.cairn.threshold c p } }

/-- R131, R589: a visible hart other than the boot hart, started in the ROM and still there, enables its message source and waits. -/
def State.opPark (s : State) (h : Nat) : State :=
  let x := s.hart h
  if ! s.boot.romHarts.contains h ∨ ! x.running ∨ x.parked ∨ x.debug ∨ x.pc ≠ 0#64 then s else
  let s0 : State := { s with boot := { s.boot with romHarts := s.boot.romHarts.filter (fun g => g != h) } }
  let s1 := ((s0.setPrio (parkSource h) 1).setEnable (9 * h) (parkSource h) true).setThreshold (9 * h) 0
  let idle := s1.fld (F.SYSCFG_HART_RELEASE_ADDR h) = 0
  forAll (s.pairOf h) (fun g t => t.modHart g (fun y => { y with parked := true, wfi := decide idle })) s1

/-- R139, R589: every lock is set: code that does not belong to the first stage may run. -/
def State.locksSet (s : State) : Bool := match s.boot.phase with | .done | .waiting _ => true | _ => false

/-- R131: a parked hart that finds its release claims and completes its source, disables it and jumps, once the locks of R139 are set. -/
def State.opRelease (s : State) (h : Nat) : State :=
  let x := s.hart h
  let a := s.fld (F.SYSCFG_HART_RELEASE_ADDR h)
  let src := parkSource h
  if ! s.locksSet ∨ ! x.parked ∨ ! x.running ∨ x.debug ∨ a = 0 ∨ (x.wfi ∧ ! s.pendingOf src) then s else
  let s1 := (s.setGate src { s.gate src with latch := false }).setEnable (9 * h) src false
  forAll (s.pairOf h) (fun g t => t.modHart g (fun y =>
    { Hart.reset (256 * a) with running := true, resetHalt := y.resetHalt, x := if h = 0 then [] else [(10, BitVec.ofNat 64 h)] })) s1

/-- R142, Table Boot-7: the snapshot's bytes. -/
def State.snapshot (s : State) : Nat × Nat := (0x08000000 + s.fld F.PWR_SNAP_BASE_BASE * 4096, s.fld F.PWR_SNAP_CTRL_PAGES * 4096)

/-- Table Boot-7: the header is legal. -/
def State.snapHeaderOk (s : State) (h : List Byte) : Bool :=
  let (base, size) := s.snapshot
  let w := hdr h 4
  let e := leNat (slice 8 8 h)
  hdr h 0 == 0x53525053 && w % 256 == 1 && w / 256 % 256 == s.fld F.PWR_SNAP_CTRL_PAGES && w / 2 ^ 17 == 0 &&
    leNat (slice 0x14 12 h) == 0 &&
    (if w.testBit 16 then decide (baseCamp ≤ e ∧ e < scratch) else decide (base ≤ e ∧ e < base + size))

/-- R142: the tag, keyed by slot 2. -/
def State.snapTagOk (s : State) (b : List Byte) : Bool :=
  match s.slot 2 with
  | none => false
  | some k => hmac 0 k.bytes (b.take 0x20 ++ b.drop 0x40) == slice 0x20 32 b

/-- R143: the resume path: COMPLETE, the header fields, then the tag; a snapshot that fails is rejected and the boot goes on cold. -/
def State.opResume (s : State) : State :=
  if ! (s.awake ∧ s.flag F.BOOT_STRAP_LATCHED ∧ s.boot.phase = .start ∧ s.resumeDue ∧ s.romRuns) then s else
  let s0 : State := { s.loadSlots with boot := { s.loadSlots.boot with resume := false } }
  let (base, size) := s0.snapshot
  let b := s0.bytesAt base size
  if s0.flag F.PWR_SNAP_CTRL_COMPLETE ∧ base + size ≤ 0x08800000 ∧ ! s0.anyPoison base size ∧ s0.snapHeaderOk b ∧ s0.snapTagOk b then
    let s1 := s0.setFld F.PWR_SNAP_CTRL_COMPLETE 0
    let s2 := (s1.when ((hdr b 4).testBit 16) (fun t => t.campWrite baseCamp (b.drop 0x40))).applyLocks
    let s3 := (((s2.setFld F.PWR_WAKE_STAT_RESUMED 1).setFld F.BOOT_STATUS_RESUMED 1).setFld F.BOOT_STATUS_DONE 1).attn 3
    { s3.jumpBoot (leNat (slice 8 8 b)) (hdr b 16) with boot := { s3.boot with phase := .done } }
  else
    let s1 := ((s0.setFld F.PWR_SNAP_CTRL_COMPLETE 0).setFld F.BOOT_STATUS_SNAP_REJECT 1).setFld F.PWR_WAKE_STAT_COLD 1
    let s2 : State := if s1.fld F.BOOT_STRAP_MODE_USED = 1 then
        { s1 with harts := s1.harts.map (fun h => { Hart.reset 0 with resetHalt := h.resetHalt }), boot := { s1.boot with romHarts := [] } } else s1
    s2.enterRecovery

/-- R529: BOOT_RECOVERY.STATE takes a value; the partner is told when it changes. -/
def State.recState (s : State) (v : Nat) : State :=
  if s.fld F.BOOT_RECOVERY_STATE = v then s else (s.setFld F.BOOT_RECOVERY_STATE v).attn 3

/-- R144: an image is refused. -/
def State.refuseImage (s : State) (code : Nat) : State :=
  (((s.bump F.BOOT_RECOVERY_REFUSED).setFld F.BOOT_RECOVERY_FAILCODE code).raise P.BOOT E.BOOT_RECOVERY_REFUSED).recState 3

/-- The recovery flow waits for an image or receives one. -/
def State.inRecovery (s : State) (m : Nat) : Bool := s.stageReady m && s.romRuns

/-- R145, R474: the port is attached as the first stage set it up: a host reaches it. -/
def State.serviceUp (s : State) : Bool := s.boot.service.isSome && s.flag F.USBD_STAT_ATTACHED

/-- R145: data of the image arrive over USB; with `finish` the transfer has ended and checks 2 to 10 run. -/
def State.usbImage (s : State) (chunk : List Byte) (finish : Bool) (flash : Option FlashId) (err : Option Nat) (us : Nat) : State :=
  if ! s.inRecovery 2 ∨ ! s.serviceUp ∨ ! (s.fld F.BOOT_RECOVERY_STATE ≤ 1) then s else
  let n := s.boot.received
  let toHdr := chunk.take (256 - n)
  let rest := chunk.drop (256 - n)
  let at0 := baseCamp + (n - 256)
  let s1 := ((s.putMem (scratch + n) toHdr).putMem at0 (rest.take (scratch - at0))).recState 1
  let s2 : State := { s1 with boot := { s1.boot with received := n + chunk.length } }
  if ! finish then s2 else
  let h := s2.bytesAt scratch 256
  let i := Image.of h
  let payload := if geometryOk i false && s2.boot.received == 256 + i.len then s2.bytesAt baseCamp i.len else []
  match firstFail err (s2.imageChecks h payload false) with
  | some c => s2.refuseImage c
  | none =>
    let s3 := (s2.acceptImage h payload 0 us).recState 4
    match flash with | some f => s3.ospiFound f | none => s3

/-- R146: the image that the partner placed in base camp is checked after BOOT_GO. -/
def State.tetherImage (s : State) (flash : Option FlashId) (err : Option Nat) (us : Nat) : State :=
  if ! s.inRecovery 3 ∨ s.fld F.BOOT_RECOVERY_STATE ≠ 2 then s else
  let h := s.bytesAt 0x010EFF00 256
  let i := Image.of h
  let payload := if geometryOk i false then s.bytesAt baseCamp i.len else []
  let err1 := if s.anyPoison 0x010EFF00 256 then some 2 else if s.anyPoison baseCamp payload.length then
    (match err with | some e => some (min e 10) | none => some 10) else err
  match firstFail err1 (s.imageChecks h payload false) with
  | some c => (s.refuseImage c).setReg R.TETHER_REQ (Bits.put (s.raw R.TETHER_REQ) 2 1 0)
  | none =>
    let s3 := (s.acceptImage h payload 0 us).recState 4
    match flash with | some f => s3.ospiFound f | none => s3

/-- R145: GET_STATE answers; a DONE that is read starts the detach. -/
def State.opGetState (s : State) : State :=
  if ! s.awake ∨ ! s.serviceUp then s else
  let st := s.fld F.BOOT_RECOVERY_STATE
  let s1 := s.respond false (BitVec.ofNat 64 (st + 2 ^ 8 * s.fld F.BOOT_RECOVERY_FAILCODE + 2 ^ 32 * (s.boot.received % 2 ^ 32)))
  match s1.boot.phase with
  | .passed entry => { s1 with boot := { s1.boot with phase := .detaching entry } }
  | _ => s1

/-- R145: ABORT discards a partial image. Table Boot-8 does not say what it does once an image has passed: nothing then (DESIGN CHOICE,
notes/assumptions/89.md). -/
def State.opAbort (s : State) : State :=
  if ! s.inRecovery 2 ∨ ! s.serviceUp ∨ 3 < s.fld F.BOOT_RECOVERY_STATE then s else
  let s1 := s.recState 0
  { s1 with boot := { s1.boot with received := 0 } }

/-- R145: 10 ms after DONE was read the port detaches and the first stage hands over. -/
def State.opDetach (s : State) : State :=
  match s.boot.phase with
  | .detaching entry => if s.romRuns then s.detachService.handOver entry else s
  | _ => s

/-- R146: the partner has set BOOT_GO. -/
def State.bootGo (s : State) : State :=
  if s.inRecovery 3 ∧ (s.fld F.BOOT_RECOVERY_STATE = 0 ∨ s.fld F.BOOT_RECOVERY_STATE = 3) then s.recState 2 else s

/-- R161: a write to SYSCFG_LIFECYCLE_REQ. -/
def State.opLifecycleReq (s : State) (ni : Nat) (v : DWord) : State :=
  let a := R.SYSCFG_LIFECYCLE_REQ
  let code := F.SYSCFG_LIFECYCLE_REQ_CODE.of v
  if ! (code = 0x5C ∨ code = 0xA3) then (s.storeReg ni a v).1
  else
    let rma := decide (code = 0xA3)
    let why :=
      if s.flag F.PITON_OTP_LOCK_LOCK then some 1
      else if rma && ! (s.fld F.SYSCFG_UNLOCK_STAT_GRANTED).testBit 2 then some 2
      else if s.fld F.SYSCFG_LIFECYCLE_PENDING ≠ b2n rma then some 3
      else none
    match why with
    | some r => (s.refuse ni a r v (s.raw R.SYSCFG_LIFECYCLE).toNat).raise P.SYSCFG E.SYSCFG_LIFECYCLE_REFUSED
    | none =>
      (((s.storeReg ni a v).1).otpSet 4 (if rma then 0xFF00 else 0xFF)).setFld F.SYSCFG_LIFECYCLE_PENDING (1 + b2n rma)

/-- R155: the bytes of the unlock strings. -/
def State.unlockBytes (s : State) (f : Nat → Fld) (n : Nat) : List Byte := (List.range n).flatMap (fun k => leBytes 4 (s.fld (f k)))

/-- R155: an unlock is refused. -/
def State.refuseUnlock (s : State) : State := (s.setFld F.SYSCFG_UNLOCK_STAT_STATE 5).bump F.SYSCFG_UNLOCK_STAT_REFUSALS

/-- R155, step 1: CHALLENGE. -/
def State.challenge (s : State) : State :=
  let s0 : State := { s with boot := { s.boot with challengeLive := false } }
  if s0.flag F.PITON_DEBUG_LOCK_LOCK then s0.refuseUnlock
  else
    let s1 := if s0.running P.TRNG then s0 else
      ((s0.setFld (F.PAGE_CTRL_ENABLE P.TRNG) 1).setFld (F.PAGE_STAT_ENABLED P.TRNG) 1).trngEnable true
    if s1.fld F.TRNG_STAT_STATE = 4 then s1.setFld F.SYSCFG_UNLOCK_STAT_STATE 6
    else
      let s2 := s1.setFld F.SYSCFG_UNLOCK_STAT_STATE 1
      if s2.sec.waiting.contains .challenge then s2 else s2.waitEntropy .challenge

/-- R155, step 3: SUBMIT. EVT_RAW.UNLOCK_DONE, whose moment the spec does not state, rises here alone, granted or refused, and not when
a CHALLENGE ends in REFUSED or ENTROPY_FAIL (DESIGN CHOICE, notes/assumptions/65.md). -/
def State.submit (s : State) : State :=
  let scope := s.fld F.SYSCFG_UNLOCK_CTRL_SCOPE
  let key := s.unlockBytes F.SYSCFG_UNLOCK_KEY_KEY 16
  let sig := s.unlockBytes F.SYSCFG_UNLOCK_SIG_SIG 16
  let msg := s.unlockBytes F.SYSCFG_UNLOCK_CHAL_CHAL 8 ++ [BitVec.ofNat 8 scope]
  let ok := s.boot.challengeLive && sha256 key == s.otpBytes 64 8 && ecdsaOk key sig msg
  let s1 : State := { s with boot := { s.boot with challengeLive := false } }
  let s2 := if ok then
      let g := s1.fld F.SYSCFG_UNLOCK_STAT_GRANTED ||| scope
      let t := (s1.setFld F.SYSCFG_UNLOCK_STAT_STATE 4).setFld F.SYSCFG_UNLOCK_STAT_GRANTED g
      if t.fld F.SYSCFG_LIFECYCLE_STATE = 1 then t.setReg R.SYSCFG_DEBUG_EN (BitVec.ofNat 64 (g % 8)) else t
    else s1.refuseUnlock
  s2.raise P.SYSCFG E.SYSCFG_UNLOCK_DONE

/-- R155: a write to SYSCFG_UNLOCK_CTRL. -/
def State.opUnlockCtrl (s : State) (ni : Nat) (v : DWord) : State :=
  let (s1, act) := s.storeReg ni R.SYSCFG_UNLOCK_CTRL v
  let s2 := s1.when (F.SYSCFG_UNLOCK_CTRL_CHALLENGE.of act == 1) State.challenge
  s2.when (F.SYSCFG_UNLOCK_CTRL_SUBMIT.of act == 1) State.submit

/-- R155: DRBG output is available to the challenge, or the TRNG is FATAL. -/
def State.opChallengeReady (s : State) : State :=
  if ! s.sec.waiting.contains .challenge then s
  else if s.fld F.TRNG_STAT_STATE = 4 then
    ({ s with sec := { s.sec with waiting := s.sec.waiting.filter (fun w => w != .challenge) } } : State).setFld F.SYSCFG_UNLOCK_STAT_STATE 6
  else if s.fld F.TRNG_STAT_STATE ≠ 2 then s
  else ((if s.sec.queue.length ≤ 48 then s.generate else s)).serveWaiting

end Sys2Proof.Machine
end

