-- ==== Sys2Proof/Machine/Boot.lean ====
section
/-! DEFINITION. The commands of the first stage, the lifecycle and debug unlock (R127 to R161). -/
namespace Sys2Proof.Machine

/-- FIRST_STAGE_FLASH: what discovery found, the step at which a memory error shows, and the time since the first ROM
instruction in µs. -/
def execFirstStageFlash (id : Option FlashId) (err : Option (Fin 11)) (us : BitVec 24) (s : State) : Host.Outcome State Fault Refusal :=
  .next (s.opFirstStage id (err.map (·.val)) us.toNat)

/-- HAND_OVER. -/
def execHandOver (s : State) : Host.Outcome State Fault Refusal := .next s.opHandOver

/-- BOOT_FAIL. -/
def execBootFail (s : State) : Host.Outcome State Fault Refusal := .next s.opBootFail

/-- RETRY_WAIT_END. -/
def execRetryWaitEnd (s : State) : Host.Outcome State Fault Refusal := .next s.opRetryEnd

/-- LOADER_FLOW. -/
def execLoaderFlow (answers : Bool) (err : Option (Fin 11)) (us : BitVec 24) (s : State) : Host.Outcome State Fault Refusal :=
  .next (s.opLoader answers (err.map (·.val)) us.toNat)

/-- HART_PARK. -/
def execHartPark (h : Fin 4) (s : State) : Host.Outcome State Fault Refusal := .next (s.opPark h.val)

/-- HART_RELEASE. -/
def execHartRelease (h : Fin 4) (s : State) : Host.Outcome State Fault Refusal := .next (s.opRelease h.val)

/-- SNAPSHOT_RESUME. -/
def execSnapshotResume (s : State) : Host.Outcome State Fault Refusal := .next s.opResume

/-- RECOVERY_IMAGE: in USB recovery `chunk` arrives, in Tether recovery the image in base camp is checked. -/
def execRecoveryImage (chunk : List Byte) (finish : Bool) (flash : Option FlashId) (err : Option (Fin 11)) (us : BitVec 24) (s : State) :
    Host.Outcome State Fault Refusal :=
  .next (if s.fld F.BOOT_STRAP_MODE_USED = 2 then s.usbImage chunk finish flash (err.map (·.val)) us.toNat
    else s.tetherImage flash (err.map (·.val)) us.toNat)

/-- GET_STATE. -/
def execGetState (s : State) : Host.Outcome State Fault Refusal := .next s.opGetState

/-- ABORT. -/
def execAbort (s : State) : Host.Outcome State Fault Refusal := .next s.opAbort

/-- RECOVERY_DETACH. -/
def execRecoveryDetach (s : State) : Host.Outcome State Fault Refusal := .next s.opDetach

/-- SECURE: a write of 0x5C to SYSCFG_LIFECYCLE_REQ. -/
def execSecure (q : Req) (s : State) : Host.Outcome State Fault Refusal :=
  .next (s.gateWrite q R.SYSCFG_LIFECYCLE_REQ .w 0x5C#64 (fun t => t.opLifecycleReq q.ni.val 0x5C#64))

/-- RMA: a write of 0xA3 to SYSCFG_LIFECYCLE_REQ. -/
def execRma (q : Req) (s : State) : Host.Outcome State Fault Refusal :=
  .next (s.gateWrite q R.SYSCFG_LIFECYCLE_REQ .w 0xA3#64 (fun t => t.opLifecycleReq q.ni.val 0xA3#64))

/-- CHALLENGE: a write of SYSCFG_UNLOCK_CTRL with CHALLENGE = 1. -/
def execChallenge (q : Req) (scope : Fin 8) (s : State) : Host.Outcome State Fault Refusal :=
  let v := BitVec.ofNat 64 (F.SYSCFG_UNLOCK_CTRL_CHALLENGE.at 1 + F.SYSCFG_UNLOCK_CTRL_SCOPE.at scope.val)
  .next (s.gateWrite q R.SYSCFG_UNLOCK_CTRL .w v (fun t => t.opUnlockCtrl q.ni.val v))

/-- CHALLENGE_READY. -/
def execChallengeReady (s : State) : Host.Outcome State Fault Refusal := .next s.opChallengeReady

/-- SUBMIT: a write of SYSCFG_UNLOCK_CTRL with SUBMIT = 1. -/
def execSubmit (q : Req) (scope : Fin 8) (s : State) : Host.Outcome State Fault Refusal :=
  let v := BitVec.ofNat 64 (F.SYSCFG_UNLOCK_CTRL_SUBMIT.at 1 + F.SYSCFG_UNLOCK_CTRL_SCOPE.at scope.val)
  .next (s.gateWrite q R.SYSCFG_UNLOCK_CTRL .w v (fun t => t.opUnlockCtrl q.ni.val v))

end Sys2Proof.Machine
end

