-- ==== Sys2Proof/Machine/Crypto.lean ====
section
/-! DEFINITION. The commands of OTP, key slots, TRNG and engines (R535 to R555). -/
namespace Sys2Proof.Machine

/-- KEYS_OTP_CTRL with this command on this word. -/
def State.otpCommand (s : State) (q : Req) (cmd : Nat) (addr : BitVec 8) (cut : Option (BitVec 32)) : State :=
  let v := BitVec.ofNat 64 (F.KEYS_OTP_CTRL_ADDR.at addr.toNat + F.KEYS_OTP_CTRL_CMD.at cmd)
  s.gateWrite q R.KEYS_OTP_CTRL .w v (fun t => t.opOtpCtrl q.ni.val v cut)

/-- READ of OTP word `addr` (R536). -/
def execRead (q : Req) (addr : BitVec 8) (s : State) : Host.Outcome State Fault Refusal := .next (s.otpCommand q 1 addr none)

/-- PROGRAM of OTP word `addr` (R536, R537); `cut` gives the bits that a pulse cut short by UVLO has set. -/
def execProgram (q : Req) (addr : BitVec 8) (cut : Option (BitVec 32)) (s : State) : Host.Outcome State Fault Refusal := .next (s.otpCommand q 2 addr cut)

/-- CHECK of OTP word `addr` (R536). -/
def execCheck (q : Req) (addr : BitVec 8) (s : State) : Host.Outcome State Fault Refusal := .next (s.otpCommand q 3 addr none)

/-- KEYS_SLOT_CMD with this operation. -/
def State.slotCommand (s : State) (q : Req) (op : Nat) (slot : Fin 16) (src : BitVec 5) (usage : BitVec 4) : State :=
  let v := BitVec.ofNat 64 (F.KEYS_SLOT_CMD_OP.at op + F.KEYS_SLOT_CMD_SLOT.at slot.val + F.KEYS_SLOT_CMD_SRC.at src.toNat
    + F.KEYS_SLOT_CMD_USAGE.at usage.toNat)
  s.gateWrite q R.KEYS_SLOT_CMD .w v (fun t => t.opSlotCmd q.ni.val v)

/-- LOAD into a slot (R539). -/
def execLoad (q : Req) (slot : Fin 16) (usage : BitVec 4) (s : State) : Host.Outcome State Fault Refusal := .next (s.slotCommand q 1 slot 0#5 usage)

/-- READ of a slot (R539). -/
def execSlotRead (q : Req) (slot : Fin 16) (s : State) : Host.Outcome State Fault Refusal := .next (s.slotCommand q 2 slot 0#5 0#4)

/-- CLEAR of a slot (R539). -/
def execClear (q : Req) (slot : Fin 16) (s : State) : Host.Outcome State Fault Refusal := .next (s.slotCommand q 3 slot 0#5 0#4)

/-- DERIVE into a slot (R540). -/
def execDerive (q : Req) (slot : Fin 16) (src : BitVec 5) (usage : BitVec 4) (s : State) : Host.Outcome State Fault Refusal := .next (s.slotCommand q 4 slot src usage)

/-- GENERATE into a slot (R539). -/
def execGenerate (q : Req) (slot : Fin 16) (usage : BitVec 4) (s : State) : Host.Outcome State Fault Refusal := .next (s.slotCommand q 5 slot 0#5 usage)

/-- TRNG_READY, with the raw rate measured (R546). -/
def execTrngReady (rate : BitVec 13) (s : State) : Host.Outcome State Fault Refusal := .next (s.opTrngReady rate.toNat)

/-- HEALTH_FAIL: the repetition test, or the `proportion` test, fails `ms` after the previous failure (R545). -/
def execHealthFail (proportion : Bool) (ms : Nat) (s : State) : Host.Outcome State Fault Refusal := .next (s.opHealthFail (if proportion then 2 else 1) ms false)

/-- DRBG_GENERATE, `ms` after the last reseed; `fresh` says that 768 fresh raw bits are ready (R544). -/
def execDrbgGenerate (ms : Nat) (fresh : Bool) (s : State) : Host.Outcome State Fault Refusal := .next (s.opGenerate ms fresh)

/-- TRNG_DATA_LOAD (R547). -/
def execTrngDataLoad (_q : Req) (s : State) : Host.Outcome State Fault Refusal :=
  let (s1, v) := s.opTrngData
  .next (s1.respond false v)

/-- The CRYPTO item that channel `c` executes, when it is this operation of this port. -/
def State.cryptoOp (s : State) (c port op : Nat) : State :=
  match s.itemOf c 6 with
  | none => s
  | some (k, it) => if k.e.port = port ∧ it.op = op then s.cryptoItem c none else s

/-- ENCRYPT on channel `ch` (R550 to R553). -/
def execEncrypt (ch : BitVec 12) (s : State) : Host.Outcome State Fault Refusal := .next (s.cryptoOp ch.toNat 0x80 0)

/-- DECRYPT on channel `ch` (R550 to R553). -/
def execDecrypt (ch : BitVec 12) (s : State) : Host.Outcome State Fault Refusal := .next (s.cryptoOp ch.toNat 0x80 1)

/-- MAC on channel `ch` (R550 to R553). -/
def execMac (ch : BitVec 12) (s : State) : Host.Outcome State Fault Refusal := .next (s.cryptoOp ch.toNat 0x80 2)

/-- UPDATE on channel `ch` (R550 to R553). -/
def execUpdate (ch : BitVec 12) (s : State) : Host.Outcome State Fault Refusal := .next (s.cryptoOp ch.toNat 0x81 0)

/-- FINAL on channel `ch` (R550 to R553). -/
def execFinal (ch : BitVec 12) (s : State) : Host.Outcome State Fault Refusal := .next (s.cryptoOp ch.toNat 0x81 1)

/-- ONESHOT on channel `ch` (R550 to R553). -/
def execOneshot (ch : BitVec 12) (s : State) : Host.Outcome State Fault Refusal := .next (s.cryptoOp ch.toNat 0x81 2)

/-- ECDSA_SIGN on channel `ch` (R550 to R553). -/
def execEcdsaSign (ch : BitVec 12) (s : State) : Host.Outcome State Fault Refusal := .next (s.cryptoOp ch.toNat 0x82 0)

/-- ECDSA_VERIFY on channel `ch` (R550 to R553). -/
def execEcdsaVerify (ch : BitVec 12) (s : State) : Host.Outcome State Fault Refusal := .next (s.cryptoOp ch.toNat 0x82 1)

/-- ECDH on channel `ch` (R550 to R553). -/
def execEcdh (ch : BitVec 12) (s : State) : Host.Outcome State Fault Refusal := .next (s.cryptoOp ch.toNat 0x82 2)

/-- KEYGEN on channel `ch` (R550 to R553). -/
def execKeygen (ch : BitVec 12) (s : State) : Host.Outcome State Fault Refusal := .next (s.cryptoOp ch.toNat 0x82 3)

/-- X25519 on channel `ch` (R550 to R553). -/
def execX25519 (ch : BitVec 12) (s : State) : Host.Outcome State Fault Refusal := .next (s.cryptoOp ch.toNat 0x82 4)

/-- ED25519_SIGN on channel `ch` (R550 to R553). -/
def execEd25519Sign (ch : BitVec 12) (s : State) : Host.Outcome State Fault Refusal := .next (s.cryptoOp ch.toNat 0x82 5)

/-- ED25519_VERIFY on channel `ch` (R550 to R553). -/
def execEd25519Verify (ch : BitVec 12) (s : State) : Host.Outcome State Fault Refusal := .next (s.cryptoOp ch.toNat 0x82 6)

/-- PKA_CMD_GO: PKA_CMD is written with GO = 1 (R554). -/
def execPkaCmdGo (q : Req) (op : BitVec 4) (wide keySlot : Bool) (slot : Fin 16) (s : State) : Host.Outcome State Fault Refusal :=
  let v := BitVec.ofNat 64 (F.PKA_CMD_OP.at op.toNat + F.PKA_CMD_CURVE.at (b2n wide) + F.PKA_CMD_KEY_SLOT.at (b2n keySlot)
    + F.PKA_CMD_SLOT.at slot.val + F.PKA_CMD_GO.at 1)
  .next (s.gateWrite q R.PKA_CMD .w v (fun t => t.opPkaCmd q.ni.val v))

/-- The engine number `n` of KAT_GO and KAT_DONE: 0 AES, 1 HASH, 2 PKA, with its KAT register. -/
def katEngine (n : Fin 3) : Engine × Nat :=
  if n.val = 0 then (Engine.aes, R.AES_KAT) else if n.val = 1 then (Engine.hash, R.HASH_KAT) else (Engine.pka, R.PKA_KAT)

/-- KAT_GO of an engine (R555). -/
def execKatGo (q : Req) (engine : Fin 3) (s : State) : Host.Outcome State Fault Refusal :=
  .next (s.gateWrite q (katEngine engine).2 .w 1#64 (fun t => t.opKatGo q.ni.val (katEngine engine).2 (katEngine engine).1 1#64))

/-- KAT_DONE of an engine, with its outcome (R555). -/
def execKatDone (engine : Fin 3) (pass : Bool) (s : State) : Host.Outcome State Fault Refusal := .next (s.opKatDone (katEngine engine).1 pass)

/-- PKA_CMD_DONE after `us` µs (R554). -/
def execPkaCmdDone (us : BitVec 16) (s : State) : Host.Outcome State Fault Refusal := .next (s.opPkaDone us.toNat)

end Sys2Proof.Machine
end

