-- ==== Sys2Proof/Machine/CairnOps.lean ====
section
/-! DEFINITION. Cairn's arrays, claims, completions and messages (R348 to R360, R376 to R381, Table Events-2). -/
namespace Sys2Proof.Machine

/-- First address of the Cairn arrays. -/
def cairnBase : Nat := 0x04000000

/-- What an array offset names (Table Events-2). -/
inductive CairnWord where
  | prio (w : Nat) | pend (w : Nat) | enable (c w : Nat) | threshold (c : Nat) | claim (c : Nat) | message (id : Nat) | none
deriving DecidableEq, Repr

/-- Table Events-2: the word at an array offset. -/
def cairnWordAt (o : Nat) : CairnWord :=
  if o < 0x800 then .prio (o / 4)
  else if 0x1000 ≤ o ∧ o < 0x1100 then .pend ((o - 0x1000) / 4)
  else if 0x2000 ≤ o ∧ o < 0x2000 + 0x100 * 36 then .enable ((o - 0x2000) / 0x100) ((o - 0x2000) % 0x100 / 4)
  else if 0x200000 ≤ o ∧ o < 0x200000 + 0x1000 * 36 then
    (if o % 0x1000 = 0 then .threshold ((o - 0x200000) / 0x1000) else if o % 0x1000 = 4 then .claim ((o - 0x200000) / 0x1000) else .none)
  else if 0x3F0000 ≤ o ∧ o < 0x400000 ∧ o % 0x1000 < 0x80 then .message (1536 + 32 * ((o - 0x3F0000) / 0x1000) + o % 0x1000 / 4)
  else .none

/-- R357: a claim by context `c`: the ID, and the state with the source active. -/
def State.claim (s : State) (c : Nat) : Nat × State :=
  let id := s.bestSource c
  if id = 0 then (0, s) else (id, s.setGate id { s.gate id with latch := false, active := true, claimer := c })

/-- R350, R358: completion: ACTIVE clears, and the gateway follows its latch and level again. -/
def State.completeSource (s : State) (id : Nat) : State := s.setGate id { s.gate id with active := false, claimer := 0 }

/-- R44, R355: clamp events of the arrays: OFFSET 0, and the array offset as kept. -/
def State.cairnClamp (s : State) (ni reason wrote off n : Nat) : State := s.clampEvents P.CAIRN_CTL ni 0 reason wrote off n

/-- R358: a write of `id` to CLAIM of context `c`. -/
def State.complete (s : State) (ni c id : Nat) : State :=
  if decide (id ≠ 0 ∧ id ≤ 2047) && (s.gate id).active && (s.gate id).claimer == c && ! s.ctxAbsent c then s.completeSource id
  else (s.cairnClamp ni 2 id (0x200004 + 0x1000 * c) 1).raise P.CAIRN_CTL E.CAIRN_CTL_BAD_COMPLETE

/-- R355: a priority write: the lanes, with the number of reserved fields written with a 1. -/
def State.writePrio (s : State) (w v : Nat) : State × Nat :=
  (List.range 4).foldl (fun (r : State × Nat) i =>
    let id := 4 * w + i
    let b := v / 2 ^ (8 * i) % 256
    if sourceReserved id then (r.1, r.2 + b2n (b != 0))
    else ({ r.1 with cairn := { r.1.cairn with prio := SMap.put (fun _ => 0) r.1.cairn.prio id (b % 32) } }, r.2 + b2n (32 ≤ b))) (s, 0)

/-- R355: the runs of adjacent reserved bits of enable word `w` in which `v` has a 1. -/
def reservedEnableRuns (w v : Nat) : Nat :=
  ((List.range 33).foldl (fun (r : Nat × Bool) b =>
    if b < 32 ∧ sourceReserved (32 * w + b) then (r.1, r.2 || v.testBit b) else (r.1 + b2n r.2, false)) (0, false)).1

/-- The bits of an enable word that a source stands behind. -/
def enableBits (w v : Nat) : Nat :=
  (List.range 32).foldl (fun m b => if v.testBit b && ! sourceReserved (32 * w + b) then m + 2 ^ b else m) 0

/-- PENDING word `w`. -/
def State.pendWord (s : State) (w : Nat) : Nat := (List.range 32).foldl (fun m b => if s.pendingOf (32 * w + b) then m + 2 ^ b else m) 0

/-- Priority word `w`. -/
def State.prioWord (s : State) (w : Nat) : Nat := (List.range 4).foldl (fun m i => m + s.prioOf (4 * w + i) * 2 ^ (8 * i)) 0

/-- R354, R355: an aligned 32-bit write of `v` at array offset `o`. -/
def State.cairnStore (s : State) (ni o v : Nat) : State :=
  match cairnWordAt o with
  | .prio w => let (t, n) := s.writePrio w v; t.cairnClamp ni 1 v o n
  | .pend w => s.cairnClamp ni 1 v o (b2n (v != s.pendWord w))
  | .enable c w =>
    ({ s with cairn := { s.cairn with enable := SMap.put (fun _ => 0) s.cairn.enable (64 * c + w) (enableBits w v) } } : State).cairnClamp ni 1 v o
      (reservedEnableRuns w v)
  | .threshold c =>
    ({ s with cairn := { s.cairn with threshold := SMap.put (fun _ => 0) s.cairn.threshold c (v % 32) } } : State).cairnClamp ni 1 v o (b2n (32 ≤ v))
  | .claim c => s.complete ni c v
  | .message id => s.edge id
  | .none => s.cairnClamp ni 1 v o (b2n (v != 0))

/-- An aligned 32-bit read at array offset `o`. -/
def State.cairnLoad (s : State) (o : Nat) : Nat × State :=
  match cairnWordAt o with
  | .prio w => (s.prioWord w, s)
  | .pend w => (s.pendWord w, s)
  | .enable c w => (s.enableWord c w, s)
  | .threshold c => (s.thresholdOf c, s)
  | .claim c => s.claim c
  | .message _ => (0, s)
  | .none => (0, s)

/-- R354: Heddle reaches only the message window. -/
def cairnBars (ni o : Nat) : Bool := ni == 8 && (match cairnWordAt o with | .message _ => false | _ => true)

/-- R354, R355: a write access to the arrays. -/
def State.cairnWrite (s : State) (ni o : Nat) (size : Size) (v : DWord) : State :=
  if cairnBars ni o then s.respond true 0#64
  else if size ≠ .w ∨ o % 4 ≠ 0 then (s.cairnClamp ni 3 v.toNat o 1).respond false 0#64
  else (s.cairnStore ni o (v.toNat % 2 ^ 32)).respond false 0#64

/-- R354, R355: a read access to the arrays. -/
def State.cairnRead (s : State) (ni o : Nat) (size : Size) : State :=
  if cairnBars ni o then s.respond true 0#64
  else if size ≠ .w ∨ o % 4 ≠ 0 then (s.cairnClamp ni 3 0 o 1).respond false 0#64
  else let (v, t) := s.cairnLoad o; t.respond false (BitVec.ofNat 64 v)

/-- R380: a write to CAIRN_RELEASE; a value outside Legal does not act. -/
def State.opCairnRelease (s : State) (ni : Nat) (v : DWord) : State :=
  let s1 := (s.storeReg ni R.CAIRN_RELEASE v).1
  let id := F.CAIRN_RELEASE_ID.of v
  let c := F.CAIRN_RELEASE_CTX.of v
  if F.CAIRN_RELEASE_ALL.of v = 1 then
    if c ≤ 35 then forAll (s1.cairn.gates.filter (fun e => e.2.active && e.2.claimer == c)) (fun e t => t.completeSource e.1) s1 else s1
  else if id = 0 then s1
  else if (s1.gate id).active then s1.completeSource id else s1

end Sys2Proof.Machine
end

