-- ==== Sys2Proof/Machine/ShuttleOps.lean ====
section
/-! DEFINITION. Shuttle as shared operations (R362 to R369, R382 to R385): what a rising output does, the path check of a
configuration write, sensing by a clocked channel, and the settling of unclocked channels, forces and holds. -/
namespace Sys2Proof.Machine

/-- R374: timers that wait for a rising output of channel `n` start counting. -/
def State.startWaiting (s : State) (n : Nat) : State :=
  forEach 8 (fun k t =>
    if t.timer.waiting.testBit k && decide (t.fld (F.TIMER_CTRL_START_CH k) = n) then
      { t with timer := { t.timer with waiting := clearBits t.timer.waiting (2 ^ k) } }
    else t) s

/-- R366: a trigger of Shuttle at ADC `k`; one that coincides with a trigger of Reed, the tick that passed last, is the same trigger
(DESIGN CHOICE, notes/assumptions/92.md). -/
def State.shuttleAdc (s : State) (k : Nat) : State :=
  if s.flag (F.ADC_TRIG_SHUTTLE k) && s.reed.triggered.testBit k then
    { s with reed := { s.reed with triggered := clearBits s.reed.triggered (2 ^ k) } }
  else s.adcFrom k .shuttle

/-- R336: a probe gated by channel `n` starts to run. -/
def State.openGates (s : State) (n : Nat) : State :=
  forEach 8 (fun i t =>
    if t.running (P.LOOM_PROBE i) && t.flag (F.LOOM_PROBE_TRIG_GATE_EN i) && decide (t.fld (F.LOOM_PROBE_TRIG_GATE_CH i) = n) then
      t.raise (P.LOOM_PROBE i) E.LOOM_PROBE_GATE_OPEN
    else t) s

/-- R366: the consumers of channel `n` on a rising edge of its output. -/
def State.channelRise (s : State) (n : Nat) : State :=
  let adc := s.fld (F.SHUTTLE_CH_CONS_ADC n)
  let s1 := s.when (s.flag (F.SHUTTLE_CH_CONS_IRQ n)) (fun t => t.edge (160 + n))
  let s2 := forEach 2 (fun k t => if adc.testBit k then t.shuttleAdc k else t) s1
  let s3 := s2.when (s2.flag (F.SHUTTLE_CH_CONS_KICK_EN n)) (fun t => t.kickOrHold (t.fld (F.SHUTTLE_CH_CONS_KICK n)) false)
  (s3.startWaiting n).openGates n

/-- R368: the force of channel `n` is held: mask and level as they stand. -/
def State.holdForce (s : State) (n : Nat) : State :=
  let mode := s.fld (F.SHUTTLE_CH_PIN_MODE n)
  if s.flag (F.SHUTTLE_CH_PIN_HOLD n) && s.flag (F.SHUTTLE_CH_SEL_UNCLOCKED n) && (mode == 5 || mode == 6) && (s.chan n).held.isNone && s.chanOut n then
    (s.setChan n { s.chan n with held := some (s.fld (F.SHUTTLE_CH_PIN_MASK n), mode == 5) }).raise P.SHUTTLE E.SHUTTLE_HELD
  else s

/-- R364, R366: an unclocked channel's output as it now stands; a rise drives the consumers and may be held. -/
def State.settleChannel (s : State) (n : Nat) : State :=
  if ! s.flag (F.SHUTTLE_CH_SEL_UNCLOCKED n) then s else
  let now := s.chanOut n
  let was := (s.chan n).out
  let s1 := if now = was then s else s.setChan n { s.chan n with out := now }
  (if now && ! was then s1.channelRise n else s1).holdForce n

/-- R368: FORCE_BEGIN, FORCE_END and CONFLICT against what was last seen. -/
def State.noteForces (s : State) : State :=
  let f := s.pinForced
  let c := s.pinConflict
  let s1 := s.when (clearBits f s.shuttle.forced != 0) (fun t => t.raise P.SHUTTLE E.SHUTTLE_FORCE_BEGIN)
  let s2 := s1.when (clearBits s.shuttle.forced f != 0) (fun t => t.raise P.SHUTTLE E.SHUTTLE_FORCE_END)
  let s3 := s2.when (clearBits c s.shuttle.conflict != 0) (fun t => t.raise P.SHUTTLE E.SHUTTLE_CONFLICT)
  { s3 with shuttle := { s3.shuttle with forced := f, conflict := c } }

/-- Unclocked channels, holds and forces follow a change. -/
def State.settle (s : State) : State := (forEach 64 (fun n t => t.settleChannel n) s).noteForces

/-- The mask of ball producers among 96 bits of levels (Table Events-4). -/
def ballCodes : Nat := 2 ^ 15 - 4 + (2 ^ 96 - 2 ^ 64)

/-- The ball producers take the levels of `b`. -/
def State.setBalls (s : State) (b : Nat) : State := { s with shuttle := { s.shuttle with balls := b &&& ballCodes } }

/-- R102, R369: Shuttle's clock runs. -/
def State.shuttleClocked (s : State) : Bool :=
  s.kept 1

/-- The producer of channel `n` after inversion, a pulse counting as high. -/
def State.sensedProducer (s : State) (n : Nat) : Bool :=
  ((s.chan n).pulse != 0 || producerLevel s s.chanOut (s.fld (F.SHUTTLE_CH_SEL_PROD n))) ^^ s.flag (F.SHUTTLE_CH_SEL_INV_P n)

/-- The gate of channel `n` after inversion, true without a gate. -/
def State.sensedGate (s : State) (n : Nat) : Bool :=
  ! s.flag (F.SHUTTLE_CH_SEL_GATE_EN n) ||
    (((s.chan n).gatePulse != 0 || producerLevel s s.chanOut (s.fld (F.SHUTTLE_CH_SEL_GATE n))) ^^ s.flag (F.SHUTTLE_CH_SEL_INV_G n))

/-- R363: the producer is sensed true: 0 LEVEL, 1 RISE, 2 FALL, 3 BOTH. -/
def sensedTrue (sense : Nat) (now before gate : Bool) : Bool :=
  gate && (if sense = 0 then now else if sense = 1 then now && ! before else if sense = 2 then ! now && before else now != before)

/-- R367: what a clocked channel writes to the latch in a cycle. -/
def State.latchWrite (s : State) (n : Nat) (out rise : Bool) : State :=
  let mode := s.fld (F.SHUTTLE_CH_PIN_MODE n)
  let m := s.fld (F.SHUTTLE_CH_PIN_MASK n)
  let l := s.fld F.SHUTTLE_PIN_LATCH_LATCH
  let f := F.SHUTTLE_PIN_LATCH_LATCH
  if mode = 1 then s.setFld f (if out then l ||| m else clearBits l m)
  else if ! rise then s
  else if mode = 2 then s.setFld f (l ||| m) else if mode = 3 then s.setFld f (clearBits l m) else if mode = 4 then s.setFld f (l ^^^ m) else s

/-- R363, R366, R367: one peripheral cycle of clocked channel `n`. -/
def State.senseChannel (s : State) (n : Nat) : State :=
  if ! s.shuttleClocked || ! s.chanOn n || s.flag (F.SHUTTLE_CH_SEL_UNCLOCKED n) then s else
  let c := s.chan n
  let now := s.sensedProducer n
  let hit := sensedTrue (s.fld (F.SHUTTLE_CH_SEL_SENSE n)) now c.sensed (s.sensedGate n)
  let out := hit || c.stretch != 0
  let s1 := s.setChan n { c with out := out, sensed := now, pulse := c.pulse - 1, gatePulse := c.gatePulse - 1,
                                 stretch := if hit then s.fld (F.SHUTTLE_CH_SEL_STRETCH n) else c.stretch - 1 }
  let rise := out && ! c.out
  ((if rise then s1.channelRise n else s1).latchWrite n out rise).settle

/-- R364: a code an unclocked channel `n` may take as producer or gate. -/
def State.unclockedCode (s : State) (n code : Nat) : Bool :=
  decide (code ≤ 14 ∨ (64 ≤ code ∧ code ≤ 95)) ||
    (decide (128 ≤ code ∧ code < 128 + n) && s.flag (F.SHUTTLE_CH_SEL_UNCLOCKED (code - 128)))

/-- R364: why a write that would store `w` in SHUTTLE_CH_SEL_n is refused: reason and detail. -/
def State.pathRefusal (s : State) (n : Nat) (w : DWord) : Option (Nat × Nat) :=
  let g (f : Nat → Fld) : Nat := (f n).of w
  if g F.SHUTTLE_CH_SEL_UNCLOCKED = 1 then
    let mode := s.fld (F.SHUTTLE_CH_PIN_MODE n)
    if ! s.unclockedCode n (g F.SHUTTLE_CH_SEL_PROD) || (g F.SHUTTLE_CH_SEL_GATE_EN == 1 && ! s.unclockedCode n (g F.SHUTTLE_CH_SEL_GATE)) ||
        g F.SHUTTLE_CH_SEL_SENSE != 0 || g F.SHUTTLE_CH_SEL_STRETCH != 0 || decide (2 ≤ mode ∧ mode ≤ 4) then some (1, n) else none
  else
    match (List.range 64).find? (fun m => decide (n < m) && s.flag (F.SHUTTLE_CH_SEL_UNCLOCKED m) &&
        (decide (s.fld (F.SHUTTLE_CH_SEL_PROD m) = 128 + n) ||
          (s.flag (F.SHUTTLE_CH_SEL_GATE_EN m) && decide (s.fld (F.SHUTTLE_CH_SEL_GATE m) = 128 + n)))) with
    | some m => some (2, n + m * 256)
    | none => none

/-- R363: sensing of channel `n` restarts from the levels in force; a channel that is off, or no longer clocked, drives 0. -/
def State.restartSense (s : State) (n : Nat) : State :=
  let c : ShuttleChannel := { s.chan n with pulse := 0, gatePulse := 0 }
  let s1 := s.setChan n c
  if s1.flag (F.SHUTTLE_CH_SEL_UNCLOCKED n) then s1
  else if ! s1.chanOn n then s1.setChan n { c with out := false, stretch := 0, sensed := false }
  else s1.setChan n { c with sensed := s1.sensedProducer n }

/-- R363: what of SHUTTLE_CH_SEL_n makes sensing restart when it changes: all but STRETCH. -/
def senseWord (w : DWord) : DWord := let f := F.SHUTTLE_CH_SEL_STRETCH 0; Bits.put w f.lo f.width 0

/-- R363, R364, R383: a write to SHUTTLE_CH_SEL_n. -/
def State.opShuttleSel (s : State) (ni n : Nat) (v : DWord) : State :=
  let a := R.SHUTTLE_CH_SEL n
  match regAt a with
  | none => s
  | some (p, _, r, _) =>
    match s.pathRefusal n (writeWord s p r a v).word with
    | some (reason, detail) => s.refuse ni a reason v detail
    | none =>
      let was := s.flag (F.SHUTTLE_CH_SEL_UNCLOCKED n)
      let s1 := (s.storeReg ni a v).1
      let s2 := if senseWord (s1.raw a) = senseWord (s.raw a) then s1 else s1.restartSense n
      let s3 := if was && ! s2.flag (F.SHUTTLE_CH_SEL_UNCLOCKED n) then s2.setChan n { s2.chan n with out := false, stretch := 0 } else s2
      s3.settle

/-- R367: a write to SHUTTLE_PIN_LATCH. -/
def State.opPinLatch (s : State) (ni : Nat) (v : DWord) : State := (s.storeReg ni R.SHUTTLE_PIN_LATCH v).1

/-- R367: a write to SHUTTLE_PIN_SET: 1s set the latch. -/
def State.opPinSet (s : State) (ni : Nat) (v : DWord) : State :=
  let s1 := ((s.storeReg ni R.SHUTTLE_PIN_SET v).1).setReg R.SHUTTLE_PIN_SET 0#64
  s1.setFld F.SHUTTLE_PIN_LATCH_LATCH (s1.fld F.SHUTTLE_PIN_LATCH_LATCH ||| F.SHUTTLE_PIN_SET_SET.of v)

/-- R368: a write to SHUTTLE_HELD_n: held forces named are released, but not while their output is high. -/
def State.opHeld (s : State) (ni k : Nat) (v : DWord) : State :=
  let s1 := ((s.storeReg ni (R.SHUTTLE_HELD k) v).1).setReg (R.SHUTTLE_HELD k) 0#64
  (forEach 32 (fun b t =>
    if v.toNat.testBit b && ! t.chanOut (32 * k + b) then t.setChan (32 * k + b) { t.chan (32 * k + b) with held := none } else t) s1).settle

/-- A write to a Shuttle register without a rule of its own; forces and unclocked outputs follow. -/
def State.opShuttle (s : State) (ni a : Nat) (v : DWord) : State := ((s.storeReg ni a v).1).settle

/-- R369: the page stops or is soft-reset: outputs fall, forces and holds are released. -/
def State.shuttleStop (s : State) : State :=
  ({ s with shuttle := { s.shuttle with ch := [] } } : State).noteForces

/-- R51: a soft reset has returned the registers of SHUTTLE: nothing is forced, and EVT_RAW keeps its reset value. -/
def State.shuttleQuiet (s : State) : State := { s with shuttle := { s.shuttle with forced := s.pinForced, conflict := s.pinConflict } }

/-- R50, R363: the page starts: every clocked channel senses from the levels in force. -/
def State.shuttleStart (s : State) : State := (forEach 64 (fun n t => t.restartSense n) s).settle

end Sys2Proof.Machine
end

