-- ==== Sys2Proof/Machine/TimerOps.lean ====
section
/-! DEFINITION. The timers (R370 to R375, R386, R387): MTIME, and the eight general timers by ticks of 5 ns. -/
namespace Sys2Proof.Machine

/-- Change the timers' own state. -/
def State.modTimer (s : State) (f : TimerState → TimerState) : State := { s with timer := f s.timer }

/-- R375: the registers of timer `n` govern from here. -/
def State.timerLoad (s : State) (n : Nat) : State :=
  let put (m : List (Nat × Nat)) (k v : Nat) : List (Nat × Nat) := SMap.put (fun _ => 0) m (4 * n + k) v
  let m := put (put (put s.timer.force 0 (s.fld (F.TIMER_PERIOD_PERIOD n))) 1 (s.fld (F.TIMER_DUTY_DUTY n))) 2 (s.fld (F.TIMER_CTRL_PRESCALE n))
  s.modTimer (fun t => { t with force := m })

/-- R373, R374: EN of timer `n` has been set: it starts from 0, or waits for its channel. -/
def State.timerStart (s : State) (n : Nat) : State :=
  let s1 := (s.setFld (F.TIMER_COUNT_COUNT n) 0).timerLoad n
  s1.modTimer (fun t => { t with
    pre := SMap.put (fun _ => 0) t.pre n 0, toggle := clearBits t.toggle (2 ^ n), expired := clearBits t.expired (2 ^ n),
    waiting := if s1.flag (F.TIMER_CTRL_START_EN n) then t.waiting ||| 2 ^ n else clearBits t.waiting (2 ^ n) })

/-- R372, R375: timer `n` expires: its event, its source, its output in TOGGLE; the writes made since its last expiry govern from here. -/
def State.timerExpire (s : State) (n : Nat) : State :=
  let s1 := s.raise P.TIMER (E.TIMER_EXPIRED_0 + n)
  let s2 := s1.when (s1.flag (F.TIMER_CTRL_IRQ_EN n)) (fun t => t.edge (380 + n))
  (s2.modTimer (fun t => { t with toggle := t.toggle ^^^ 2 ^ n, expired := t.expired ||| 2 ^ n })).timerLoad n

/-- R372: COUNT of timer `n` returns to 0 in the tick after an expiry, where a one-shot stops. -/
def State.timerReturn (s : State) (n : Nat) : State :=
  let s1 := (s.setFld (F.TIMER_COUNT_COUNT n) 0).modTimer (fun t => { t with expired := clearBits t.expired (2 ^ n) })
  if s.flag (F.TIMER_CTRL_ONESHOT n) then s1.setFld (F.TIMER_CTRL_EN n) 0 else s1

/-- R372, R387: one tick of the prescaled clock: COUNT advances, or returns to 0; a tick that finds it at PERIOD − 1 is an expiry. With
PERIOD = 1 COUNT never leaves 0 (notes/assumptions/76.md). -/
def State.timerStep (s : State) (n : Nat) : State :=
  let c := s.fld (F.TIMER_COUNT_COUNT n)
  let s1 := if s.timer.expired.testBit n then s.timerReturn n
    else if c + 1 < s.timerForce n 0 then s.setFld (F.TIMER_COUNT_COUNT n) (c + 1) else s
  if s1.flag (F.TIMER_CTRL_EN n) ∧ s1.fld (F.TIMER_COUNT_COUNT n) + 1 = s1.timerForce n 0 then s1.timerExpire n else s1

/-- R102, R375: the general timers are clocked. -/
def State.timersClocked (s : State) : Bool :=
  s.kept 3

/-- One 5 ns tick of timer `n`. -/
def State.timerTick (s : State) (n : Nat) : State :=
  if ! s.timersClocked || ! s.timerRuns n then s else
  let p := SMap.get (fun _ => 0) s.timer.pre n
  let put (v : Nat) (t : TimerState) : TimerState := { t with pre := SMap.put (fun _ => 0) t.pre n v }
  if p < s.timerForce n 2 then s.modTimer (put (p + 1)) else (s.modTimer (put 0)).timerStep n

/-- One 5 ns tick of the eight general timers. -/
def State.timersTick (s : State) : State := forEach 8 (fun n t => t.timerTick n) s

/-- `k` ticks of the general timers. -/
def State.timerTicks : Nat → State → State
  | 0, s => s
  | k + 1, s => State.timerTicks k s.timersTick

/-- R370: TIMER_MTIME after `k` ticks of 5 ns; it counts while XIN runs. A store that waits takes the place of the count at the next tick. -/
def State.mtimeTicks (s : State) (k : Nat) : State :=
  if s.power.phase ≠ .run then s else
  let t := s.timer.phase + k
  let s1 := s.modTimer (fun x => { x with phase := t % 8, mtimeNext := if t < 8 then x.mtimeNext else none })
  if t < 8 then s1
  else match s.timer.mtimeNext with
  | some v => s1.setReg R.TIMER_MTIME (v + BitVec.ofNat 64 (t / 8 - 1))
  | none => s1.setReg R.TIMER_MTIME (s.raw R.TIMER_MTIME + BitVec.ofNat 64 (t / 8))

/-- R370: a 64-bit store to TIMER_MTIME, which governs from the next tick of 40 ns. -/
def State.opMtime (s : State) (ni : Nat) (v : DWord) : State :=
  let s1 := (s.storeReg ni R.TIMER_MTIME v).1
  (s1.setReg R.TIMER_MTIME (s.raw R.TIMER_MTIME)).modTimer (fun x => { x with mtimeNext := some (s1.raw R.TIMER_MTIME) })

/-- R373: a tick in which timer `n` expires, and nothing more when it does not. -/
def State.expiryTick (s : State) (n : Nat) : State :=
  let t := s.timersTick
  let p := s.timerForce n 0
  if s.timerRuns n ∧ t.timer.toggle.testBit n ≠ s.timer.toggle.testBit n ∧ p ≠ 0 then t else s

/-- R373: a tick in which COUNT of timer `n` reaches DUTY in PWM mode. -/
def State.dutyTick (s : State) (n : Nat) : State :=
  let t := s.timersTick
  if s.timerRuns n ∧ s.fld (F.TIMER_CTRL_OUT n) = 2 ∧ s.timerOut n ∧ ! t.timerOut n then t else s

/-- R374: EN of timer `n` as a write leaves it. -/
def State.timerFollow (s : State) (n : Nat) (was : Bool) : State :=
  let now := s.flag (F.TIMER_CTRL_EN n)
  if now && ! was then s.timerStart n
  else if was && ! now then s.modTimer (fun t => { t with waiting := clearBits t.waiting (2 ^ n), toggle := clearBits t.toggle (2 ^ n) })
  else s

/-- R374: a write to TIMER_CTRL_n. -/
def State.opTimerCtrl (s : State) (ni n : Nat) (v : DWord) : State :=
  ((s.storeReg ni (R.TIMER_CTRL n) v).1).timerFollow n (s.flag (F.TIMER_CTRL_EN n))

/-- R374: a write to TIMER_START or TIMER_STOP: EN of the timers named. -/
def State.opTimerEn (s : State) (ni a : Nat) (on : Bool) (v : DWord) : State :=
  let s1 := (s.storeReg ni a v).1
  forEach 8 (fun n t =>
    if v.toNat.testBit n then (t.setFlag (F.TIMER_CTRL_EN n) on).timerFollow n (t.flag (F.TIMER_CTRL_EN n)) else t) s1

end Sys2Proof.Machine
end

