-- ==== Sys2Proof/Machine/Events.lean ====
section
/-! DEFINITION. The commands of Cairn, Shuttle and the timers (R348 to R387). -/
namespace Sys2Proof.Machine

/-- EDGE_SOURCE (R349, R351): a rising edge at source `id`. -/
def execEdgeSource (id : BitVec 11) (s : State) : Host.Outcome State Fault Refusal := .next (s.edge id.toNat)

/-- LEVEL_SOURCE_CHANGE (R350): the level of source `id` has come to be `level`. The level is a register or a circuit of the
source's block (R40, R98, R528, R556, R571), which changed it before this event is reported, and PENDING is read off it
(State.levelAt, State.pendingOf): the gateway holds nothing to change. -/
def execLevelSourceChange (_id : BitVec 11) (_level : Bool) (s : State) : Host.Outcome State Fault Refusal :=
  .next s

/-- CLAIM (R357): a read of CLAIM of context `ctx`. -/
def execClaim (q : Req) (ctx : Fin 36) (s : State) : Host.Outcome State Fault Refusal :=
  .next (s.cairnRead q.ni.val (0x200004 + 0x1000 * ctx.val) .w)

/-- COMPLETE (R358): a write of `id` to CLAIM of context `ctx`. -/
def execComplete (q : Req) (ctx : Fin 36) (id : BitVec 32) (s : State) : Host.Outcome State Fault Refusal :=
  .next (s.cairnWrite q.ni.val (0x200004 + 0x1000 * ctx.val) .w (id.zeroExtend 64))

/-- MESSAGE (R359): a write of any value to message word `j` of group `g`. -/
def execMessage (q : Req) (g : Fin 16) (j : Fin 32) (v : BitVec 32) (s : State) : Host.Outcome State Fault Refusal :=
  .next (s.cairnWrite q.ni.val (0x3F0000 + 0x1000 * g.val + 4 * j.val) .w (v.zeroExtend 64))

/-- CAIRN_ARRAY_WRITE (R354, R355): a write access at an offset of the array region. -/
def execCairnArrayWrite (q : Req) (off : BitVec 22) (size : Size) (v : DWord) (s : State) : Host.Outcome State Fault Refusal :=
  .next (s.cairnWrite q.ni.val off.toNat size v)

/-- CAIRN_RELEASE (R380). -/
def execCairnRelease (q : Req) (id : BitVec 11) (ctx : BitVec 6) (all : Bool) (s : State) : Host.Outcome State Fault Refusal :=
  let v := BitVec.ofNat 64 (F.CAIRN_RELEASE_ID.at id.toNat + F.CAIRN_RELEASE_CTX.at ctx.toNat + F.CAIRN_RELEASE_ALL.at (b2n all))
  .next (s.gateWrite q R.CAIRN_RELEASE .w v (fun t => t.opCairnRelease q.ni.val v))

/-- CHANNEL_SENSE (R363): one peripheral cycle of clocked channel `n`, with the levels of the ball producers, bit c for code c. -/
def execChannelSense (n : Fin 64) (balls : BitVec 96) (s : State) : Host.Outcome State Fault Refusal :=
  .next ((s.setBalls balls.toNat).settle.senseChannel n.val)

/-- UNCLOCKED_FORCE (R364, R368): the ball producers change, and the unclocked channels with them. -/
def execUnclockedForce (balls : BitVec 96) (s : State) : Host.Outcome State Fault Refusal := .next (s.setBalls balls.toNat).settle

/-- SHUTTLE_CH_SEL_WRITE (R363, R364). -/
def execShuttleChSelWrite (q : Req) (n : Fin 64) (v : BitVec 32) (s : State) : Host.Outcome State Fault Refusal :=
  .next (s.gateWrite q (R.SHUTTLE_CH_SEL n.val) .w (v.zeroExtend 64) (fun t => t.opShuttleSel q.ni.val n.val (v.zeroExtend 64)))

/-- PIN_LATCH_CLEAR (R367). -/
def execPinLatchClear (q : Req) (m : BitVec 16) (s : State) : Host.Outcome State Fault Refusal :=
  .next (s.gateWrite q R.SHUTTLE_PIN_LATCH .w (m.zeroExtend 64) (fun t => t.opPinLatch q.ni.val (m.zeroExtend 64)))

/-- PIN_SET (R367). -/
def execPinSet (q : Req) (m : BitVec 16) (s : State) : Host.Outcome State Fault Refusal :=
  .next (s.gateWrite q R.SHUTTLE_PIN_SET .w (m.zeroExtend 64) (fun t => t.opPinSet q.ni.val (m.zeroExtend 64)))

/-- HELD_RELEASE (R368): a write to SHUTTLE_HELD_k. -/
def execHeldRelease (q : Req) (k : Fin 2) (m : BitVec 32) (s : State) : Host.Outcome State Fault Refusal :=
  .next (s.gateWrite q (R.SHUTTLE_HELD k.val) .w (m.zeroExtend 64) (fun t => t.opHeld q.ni.val k.val (m.zeroExtend 64)))

/-- MTIME_WRITE (R370): a 64-bit store to TIMER_MTIME. -/
def execMtimeWrite (q : Req) (v : DWord) (s : State) : Host.Outcome State Fault Refusal :=
  .next (s.gateWrite q R.TIMER_MTIME .d v (fun t => t.opMtime q.ni.val v))

/-- TIMER_EXPIRY (R372): after `dt` ticks of 5 ns, the tick in which timer `n` expires. -/
def execTimerExpiry (dt : BitVec 32) (n : Fin 8) (s : State) : Host.Outcome State Fault Refusal :=
  .next ((s.timerTicks dt.toNat).expiryTick n.val)

/-- TIMER_START (R374). -/
def execTimerStart (q : Req) (m : Byte) (s : State) : Host.Outcome State Fault Refusal :=
  .next (s.gateWrite q R.TIMER_START .w (m.zeroExtend 64) (fun t => t.opTimerEn q.ni.val R.TIMER_START true (m.zeroExtend 64)))

/-- TIMER_STOP (R374). -/
def execTimerStop (q : Req) (m : Byte) (s : State) : Host.Outcome State Fault Refusal :=
  .next (s.gateWrite q R.TIMER_STOP .w (m.zeroExtend 64) (fun t => t.opTimerEn q.ni.val R.TIMER_STOP false (m.zeroExtend 64)))

/-- PWM_DUTY_REACHED (R373): after `dt` ticks of 5 ns, the tick in which COUNT of timer `n` reaches DUTY. -/
def execPwmDutyReached (dt : BitVec 32) (n : Fin 8) (s : State) : Host.Outcome State Fault Refusal :=
  .next ((s.timerTicks dt.toNat).dutyTick n.val)

end Sys2Proof.Machine
end

