-- ==== Sys2Proof/Machine/ReedOps.lean ====
section
/-! DEFINITION. Reed as shared operations (R163 to R189): the phase and its tick, slots and comb, the lock state machine, steps
and slews. One tick is 5 ns of the 200 MHz peripheral clock. -/
namespace Sys2Proof.Machine

/-- One ac in units of the accumulator. -/
def ac : Nat := 2 ^ 32
/-- One cycle in units of the accumulator. -/
def cycleUnits : Nat := 2 ^ 48

/-- Change Reed's own state. -/
def State.modReed (s : State) (f : ReedState → ReedState) : State := { s with reed := f s.reed }

/-- REED_STATE.STATE: 0 DISABLED, 1 ACQUIRE, 2 LOCKED, 3 GLITCH, 4 HOLDOVER, 5 FREE. -/
def State.reedSt (s : State) : Nat := s.fld F.REED_STATE_STATE

/-- Set the phase; REED_NOW shows its top 32 bits (R163). -/
def State.setAcc (s : State) (acc : Nat) : State :=
  (s.modReed (fun r => { r with acc := BitVec.ofNat 64 acc })).setFld F.REED_NOW_PHASE (acc / ac % 2 ^ 32)

/-- REED_NOMINAL as a period: ticks and divisor. -/
def State.nominal (s : State) : Nat × Nat := (200000000000, s.fld F.REED_NOMINAL_NOM)

/-- R164, R170, Table Reed-2: the rate at which the phase advances, as a period. -/
def State.reedRate (s : State) : Nat × Nat :=
  if s.reedSt = 0 ∨ ! s.reed.accepted ∨ s.fld F.REED_SRC_SRC = 3 ∨ (s.reedSt = 5 ∧ s.flag F.REED_CTRL_FREE_AT_NOM) then s.nominal
  else s.reed.period

/-- A quotient as a register shows it. The worked values of R164 and of the example under R180 lie less than half above an integer and
are shown as that integer; whether one that lies half or more above it is shown as the next is open (notes/assumptions/19.md). -/
def shownQuotient (n d : Nat) : Nat := if 2 * (n % d) < d then n / d else n / d + b2n (Config.roundsUp n d)

/-- R164: REED_PERIOD and REED_INC show that rate. -/
def State.showRate (s : State) : State :=
  let (n, d) := s.reedRate
  (s.setFld F.REED_PERIOD_T (shownQuotient (5 * n) d)).setFld F.REED_INC_INC (shownQuotient (2 ^ 48 * d) n)

/-- Enter a state: STATE, VALID, BLOCK_STAT and the rate shown. EVT_RAW.LOCKED rises on every entry into LOCKED, from GLITCH and HOLDOVER
too (DESIGN CHOICE, notes/assumptions/68.md). -/
def State.reedGo (s : State) (st : Nat) : State :=
  let s1 := ((s.setFld F.REED_STATE_STATE st).setFlag F.REED_STATE_VALID (st != 0)).setFld (F.PAGE_STAT_BLOCK_STAT P.REED)
    (Bits.put (BitVec.ofNat 64 (s.fld (F.PAGE_STAT_BLOCK_STAT P.REED))) 0 3 st).toNat
  let s2 := if st = 2 then s1.raise P.REED E.REED_LOCKED else if st = 4 then s1.raise P.REED E.REED_HOLDOVER
    else if st = 5 then s1.raise P.REED E.REED_FREE else s1
  s2.showRate

/-- Drop what remains of a slew. -/
def ReedState.noSlew (r : ReedState) : ReedState := { r with slew := 0, slewRate := 0 }

/-- R171, R172: enter ACQUIRE: averaging starts afresh, and so does the lock count, which Table Reed-2 counts within ACQUIRE
(DESIGN CHOICE, notes/assumptions/67.md). -/
def State.reedAcquire (s : State) : State :=
  ((s.modReed (fun r => { r.noSlew with intervals := [], deviants := 0 })).setFld F.REED_STATE_LOCK_RUN 0).reedGo 1

/-- Enter FREE. -/
def State.reedFree (s : State) : State := (s.modReed ReedState.noSlew).reedGo 5

/-- R172, R181: enter HOLDOVER, and FREE at once when CYCLES = 0. -/
def State.reedHold (s : State) : State :=
  let c := s.fld F.REED_HOLD_CYCLES
  let s1 := ((s.modReed (fun r => { r.noSlew with holdTicks := 0, deviants := 0 })).setFld F.REED_STATE_HOLD_LEFT c).reedGo 4
  if c = 0 then s1.reedFree else s1

/-- R172: a slew by −`err` ac: removed evenly over the next period, or at 1 % of REED_INC when it is larger than 655 ac. The rate per
tick is rounded down, so a slew may outlast the period by a few ticks (DESIGN CHOICE, notes/assumptions/91.md). -/
def State.startSlew (s : State) (err : Int) : State :=
  let inc := s.fld F.REED_INC_INC
  let m := err.natAbs
  s.modReed (fun r => { r with slew := - err * (ac : Int), slewRate := if m ≤ 655 then max 1 (m * inc / 65536) else inc / 100 })

/-! ### Slots and comb -/

/-- A slot in force; an unlisted one is disarmed. -/
def State.reedSlot (s : State) (n : Nat) : Option ReedSlot := AMap.get? s.reed.slots n

/-- REED_SLOT_ARMED shows the arming in force. -/
def State.showArmed (s : State) : State :=
  forEach 4 (fun w t => t.setReg (R.REED_SLOT_ARMED w) (BitVec.ofNat 64 ((List.range 32).foldl (fun m b =>
    match t.reedSlot (32 * w + b) with
    | some k => if k.armed then m + 2 ^ b else m
    | none => m) 0))) s

/-- R174, R175, R185: the contents of slot `n` in the registers take effect; an armed slot counts from SKIP. -/
def State.loadReedSlot (s : State) (n : Nat) : State :=
  let arm := s.flag (F.REED_SLOT_B_ARM n)
  let k : ReedSlot := ⟨s.raw (R.REED_SLOT_A n), s.raw (R.REED_SLOT_B n), true, s.fld (F.REED_SLOT_B_SKIP n), false⟩
  let l := if arm then AMap.put s.reed.slots n k else SMap.erase s.reed.slots n
  s.modReed (fun r => { r with slots := l })

/-- R175: the writes pending for the crossing take effect together. -/
def State.applyPending (s : State) : State :=
  let s1 := (forAll s.reed.pendingSlots (fun n t => t.loadReedSlot n) s).showArmed
  s1.modReed (fun r => { r with pendingSlots := [], pendingArms := [], combPending := false, comb := if r.combPending then s1.raw R.REED_COMB else r.comb })

/-- R174: slot `n` is passed in a new cycle at angle `angle`: it falls due when its count is 0. -/
def State.passSlot (s : State) (n cycle : Nat) (after step : Bool) : State :=
  match s.reedSlot n with
  | none => s
  | some k =>
    if ! k.armed || k.spent then s
    else if k.count ≠ 0 then s.modReed (fun r => { r with slots := AMap.put r.slots n { k with count := k.count - 1 } })
    else
      let one := Bits.get k.b 24 1 = 1
      let d : ReedDue := ⟨n, k.b, cycle % 65536 * 65536 + Bits.get k.a 0 16, 0, after, step⟩
      s.modReed (fun r => { r with due := r.due ++ [d], slots := AMap.put r.slots n { k with count := Bits.get k.a 16 16 - 1, spent := one } })

/-- The angle of a slot in force. -/
def ReedSlot.angle (k : ReedSlot) : Nat := Bits.get k.a 0 16

/-- R178: `angle` is a comb point of the comb in force. -/
def State.combPoint (s : State) (angle : Nat) : Bool :=
  let c := s.reed.comb
  let n := Bits.get c 4 11
  Bits.get c 0 1 == 1 && n != 0 && (angle + 65536 - Bits.get c 16 16) % (65536 / n) == 0

/-- R178: a comb point falls due, for the ADCs of the comb in force. -/
def State.combFalls (s : State) (stamp : Nat) : State :=
  s.modReed (fun r => { r with combDue := r.combDue ++ [(stamp, Bits.get r.comb 1 2)] })

/-- R176, R178: everything at angle `angle` of cycle `cycle` falls due. -/
def State.passAngle (s : State) (cycle angle : Nat) (after step : Bool) : State :=
  let s1 := forAll (s.reed.slots.filter (fun e => e.2.angle == angle)) (fun e t => t.passSlot e.1 cycle after step) s
  if s1.combPoint angle then s1.combFalls (cycle % 65536 * 65536 + angle) else s1

/-- R367, R385: an AOUT action acts on the latch; whether it reaches the ball is the GPIO function's (R177). -/
def State.aoutAct (s : State) (action t : Nat) : State :=
  let l := s.fld F.SHUTTLE_PIN_LATCH_LATCH
  s.setFld F.SHUTTLE_PIN_LATCH_LATCH (if action = 2 then l ||| 2 ^ t else if action = 3 then clearBits l (2 ^ t) else l ^^^ 2 ^ t)

/-- R509: a trigger of Reed at the ADCs of a mask. -/
def State.reedAdc (s : State) (mask stamp : Nat) : State :=
  forEach 2 (fun n t =>
    if ! mask.testBit n then t
    else (if t.flag (F.ADC_TRIG_REED n) then t.modReed (fun r => { r with triggered := r.triggered ||| 2 ^ n }) else t).adcFromAt n .reed (some stamp)) s

/-- ADCs that slot contents trigger, as a mask: TARGET 0, 1, or 2 for both. -/
def slotAdcs (b : DWord) : Nat :=
  if Bits.get b 0 4 = 5 then (let t := Bits.get b 4 12; if t = 0 then 1 else if t = 1 then 2 else 3) else 0

/-- Table Reed-3: the action of a firing; `taken` are ADCs the comb triggers in the same tick (R178). -/
def State.slotAction (s : State) (d : ReedDue) (taken : Nat) : State :=
  let act := Bits.get d.b 0 4
  let t := Bits.get d.b 4 12
  if act = 1 then s.pulse (16 + t)
  else if act = 2 ∨ act = 3 ∨ act = 4 then s.aoutAct act t
  else if act = 5 then s.reedAdc (clearBits (slotAdcs d.b) taken) d.stamp
  else if act = 6 then s.kickOrHold t true
  else s

/-- R176, R184: this firing comes more than 10 ns after its instant. -/
def ReedDue.late (d : ReedDue) : Bool := d.step || decide (3 ≤ d.waited) || (decide (d.waited = 2) && d.after)

/-- R174, R175: a ONESHOT slot disarms in the tick of its firing, unless newer contents are in force or wait for the next crossing. -/
def State.disarm (s : State) (n : Nat) : State :=
  match s.reedSlot n with
  | none => s
  | some k =>
    if ! k.spent then s else
    let s1 := s.modReed (fun r => { r with slots := SMap.erase r.slots n })
    (if s1.reed.pendingArms.contains n then s1 else s1.setFld (F.REED_SLOT_B_ARM n) 0).showArmed

/-- R176: the slot at the head of the queue fires. -/
def State.fireSlot (s : State) (d : ReedDue) (taken : Nat) : State :=
  let bit := 2 ^ (d.slot % 32)
  let f := F.REED_SLOT_FIRED_FIRED (d.slot / 32)
  let l := F.REED_SLOT_LATE_LATE (d.slot / 32)
  let s1 := (s.disarm d.slot).setFld f (s.fld f ||| bit)
  let s2 := if d.late then (s1.setFld l (s1.fld l ||| bit)).raise P.REED E.REED_SLOT_LATE else s1
  s2.slotAction d taken

/-- R176, R178: one tick of firing: the oldest comb point on its own line, and at most one slot. -/
def State.fireTick (s : State) : State :=
  let (taken, s1) := match s.reed.combDue with
    | [] => (0, s)
    | (stamp, mask) :: rest => (mask, (s.modReed (fun r => { r with combDue := rest })).reedAdc mask stamp)
  match s1.reed.due with
  | [] => s1
  | d :: rest =>
    (s1.modReed (fun r => { r with due := rest.map (fun e => { e with waited := e.waited + 1 }) })).fireSlot d taken

/-- R175: the crossing of angle 0 into cycle `cycle`: pending writes, REED_CYCLE and source 129, then angle 0. -/
def State.reedCross (s : State) (cycle : Nat) (after : Bool) : State :=
  ((((s.applyPending.raise P.REED E.REED_CYCLE).pulse 32).edge 129)).passAngle cycle 0 after false

/-! ### The tick -/

/-- R172: what the slew adds to this tick's increment. -/
def ReedState.slewStep (r : ReedState) : Int :=
  if 0 ≤ r.slew then min r.slew (r.slewRate : Int) else max r.slew (-(r.slewRate : Int))

/-- R163, R174 to R176: the phase advances by one tick; angles reached for the first time are passed. An instant exactly midway between
two ticks is taken by the earlier one (DESIGN CHOICE, notes/assumptions/91.md). -/
def State.reedAdvance (s : State) : State :=
  let r := s.reed
  let sl := r.slewStep
  let d := ((s.fld F.REED_INC_INC : Int) + sl).toNat
  let p := r.acc.toNat
  let h := p + r.behind
  let e := h + r.ahead
  let p1 := p + d
  let h1 := max h p1
  let e1 := if h ≤ p1 then max e (p1 + d / 2) else e
  let s0 := (s.adcReleases (p / ac) (p1 / ac)).setAcc p1
  let s1 := s0.modReed (fun q => { q with behind := h1 - p1, ahead := e1 - h1, slew := q.slew - sl })
  let s2 := if h / cycleUnits < h1 / cycleUnits then s1.reedCross (h1 / cycleUnits) (h1 % cycleUnits != 0) else s1
  forAll ((List.range (e1 / ac - e / ac)).map (fun i => e / ac + 1 + i)) (fun x t =>
    if x % 65536 = 0 then t else t.passAngle (x / 65536) (x % 65536) (decide (x * ac < p1)) false) s2

/-- R172, R181: the timeouts of LOCKED, GLITCH and HOLDOVER. -/
def State.reedTimeouts (s : State) : State :=
  let (n, d) := s.reed.period
  let st := s.reedSt
  if (st = 2 ∨ st = 3) ∧ (5 * n : Int) ≤ (4 * d : Nat) * s.reed.sinceAccepted then s.reedHold
  else if st = 4 then
    let k := s.reed.holdTicks + d
    if k < n then s.modReed (fun r => { r with holdTicks := k })
    else
      let left := s.fld F.REED_STATE_HOLD_LEFT - 1
      let s1 := (s.modReed (fun r => { r with holdTicks := k - n })).setFld F.REED_STATE_HOLD_LEFT left
      if left = 0 then s1.reedFree else s1
  else s

/-! ### Steps, errors and events -/

/-- R183: the phase steps by `d` ac: a forward step passes over angles, a backward step takes the whole phase word back. What remains
of a slew is dropped: its error is older (R172). -/
def State.reedStep (s : State) (d : Int) : State :=
  let r := s.reed
  let p := r.acc.toNat
  let h := p + r.behind
  let e := h + r.ahead
  let s0 := (s.modReed ReedState.noSlew).raise P.REED E.REED_STEP
  if d < 0 then
    let m := d.natAbs * ac
    (s0.setAcc ((p + 2 ^ 64 - m) % 2 ^ 64)).modReed (fun q => { q with behind := q.behind + m })
  else
    let p1 := p + d.toNat * ac
    let h1 := max h p1
    let e1 := max e h1
    let s1 := ((s0.adcReleases (p / ac) (p1 / ac)).setAcc p1).modReed (fun q => { q with behind := h1 - p1, ahead := e1 - h1 })
    let crosses := decide (h / cycleUnits < h1 / cycleUnits)
    let s2 := if crosses then ((s1.applyPending.raise P.REED E.REED_CYCLE).pulse 32).edge 129 else s1
    let early := (List.range (e / ac - h / ac)).map (fun i => h / ac + 1 + i)
    let xs := early.filter (fun x => x % 65536 == 0 && decide (x ≤ h1 / ac)) ++ (List.range (e1 / ac - e / ac)).map (fun i => e / ac + 1 + i)
    let s3 := forEach 128 (fun n t =>
      match t.reedSlot n with
      | none => t
      | some k => match xs.find? (fun x => x % 65536 == k.angle) with
        | some x => t.passSlot n (x / 65536) true true
        | none => t) s2
    forAll xs (fun x t => if t.combPoint (x % 65536) then t.combFalls (x / 65536 % 65536 * 65536 + x % 65536) else t) s3

/-- R165, R167: in ac, the phase at an event, when it lies `ahead` 2^−32 ac beyond the present phase. -/
def State.phaseAt (s : State) (ahead : Int) : Int := ((s.reed.acc.toNat : Int) + ahead) / (ac : Int)

/-- R171: the signed error of that phase against an angle. -/
def State.reedError (s : State) (ahead : Int) (angle : Nat) : Int := sext 16 (unsext 16 (s.phaseAt ahead - (angle : Int)))

/-- REED_ERR shows an error. -/
def State.noteError (s : State) (e : Int) : State :=
  (s.setFld F.REED_ERR_LAST (unsext 16 e)).setFld F.REED_ERR_MAX (max (s.fld F.REED_ERR_MAX) e.natAbs)

/-- R171: an accepted interval enters the mean of at most 8. -/
def State.noteInterval (s : State) (iv : Nat) : State :=
  let l := (iv :: s.reed.intervals).take 8
  s.modReed (fun r => { r with intervals := l, period := (l.foldl (· + ·) 0, l.length), accepted := true })

/-- R172: the lock count after an accepted event. -/
def State.lockCount (s : State) (e : Int) : State :=
  s.setFld F.REED_STATE_LOCK_RUN (if e.natAbs ≤ 65 then min 8 (s.fld F.REED_STATE_LOCK_RUN + 1) else 0)

/-- R172: the correction of an accepted event in ACQUIRE, and LOCKED when the count is complete. -/
def State.acquireEvent (s : State) (e : Int) : State :=
  let s1 := s.lockCount e
  let s2 := if s1.flag F.REED_CTRL_STEP && decide (655 < e.natAbs) then s1.reedStep (-e) else s1.startSlew e
  if s2.fld F.REED_STATE_LOCK_RUN = 8 then s2.reedGo 2 else s2

/-- What a source makes legal: the shortest and longest interval in ticks (Table Reed-1); PTP intervals are judged on the PTP
clock. -/
def State.legalInterval (s : State) : Nat × Nat :=
  if s.fld F.REED_SRC_SRC = 0 then (2857200, 5000000)
  else (max 100000 (100 * s.fld F.REED_ENC_CPT), 200000000)

/-- A reference event as it reaches the lock state machine. -/
structure RefEvent where
  /-- its angle in Table Reed-1 -/
  angle : Nat
  /-- when it happened, in ticks from now -/
  shift : Int
  /-- how far its phase lies beyond the present one, in 2^−32 ac -/
  ahead : Int
  /-- for the PTP source: by how much the PTP time has passed it, in 2^−32 ns, and its CYCLE (R169) -/
  ptp : Option (Nat × Nat)

/-- What the PTP clock has counted since a reference event that happens now. -/
def RefEvent.past (e : RefEvent) : Nat := match e.ptp with | some (o, _) => o | none => 0

/-- The event has been received: the next interval can be measured from it. -/
def RefEvent.receive (e : RefEvent) (r : ReedState) : ReedState :=
  { r with sinceReceived := -e.shift, received := true, ptpReceived := e.past }

/-- R171: an event is accepted, which met the phase `ph` with the error `err`: stamps, error, mean, rate. -/
def State.takeEvent (s : State) (ev : RefEvent) (iv : Nat) (ph err : Int) : State :=
  let s1 := ((s.noteError err).noteInterval iv).modReed (fun r =>
    { ev.receive r with sinceAccepted := -ev.shift, deviants := 0, ptpAccepted := ev.past })
  (s1.setFld F.REED_EDGE_STAMP_PHASE (unsext 32 ph)).showRate

/-- R171, R182, R187: a deviant event in LOCKED or GLITCH. EVT_RAW.GLITCH rises with each one discarded (DESIGN CHOICE,
notes/assumptions/68.md). -/
def State.deviantEvent (s : State) (ev : RefEvent) : State :=
  let k := s.reed.deviants + 1
  let s1 := s.modReed (fun r => { (ev.receive r).noSlew with deviants := k })
  if 3 ≤ k then
    ((s1.bumpSat F.REED_COUNTS_RELOCK F.REED_COUNTS_RSAT).raise P.REED E.REED_RELOCK).reedAcquire
  else
    let s2 := (s1.bumpSat F.REED_COUNTS_GLITCH F.REED_COUNTS_GSAT).raise P.REED E.REED_GLITCH
    if s2.reedSt = 2 then s2.reedGo 3 else s2

/-- R166: the interval of an event is legal for its source: exactly PERIOD on the PTP clock, or inside the range of Table Reed-1. -/
def State.legalEvent (s : State) (ev : RefEvent) (iv : Nat) : Bool :=
  match ev.ptp with
  | some (past, _) =>
    (if s.reedSt = 2 ∨ s.reedSt = 3 then s.reed.ptpAccepted else s.reed.ptpReceived) == s.fld F.REED_PTP_PERIOD_PERIOD * 2 ^ 32 + past
  | none => let (lo, hi) := s.legalInterval; decide (lo ≤ iv ∧ iv ≤ hi)

/-- R169: CYCLE takes the count of whole PTP periods: that of the crossing of angle 0 nearest to the event. It is set at each accepted
event (DESIGN CHOICE, notes/assumptions/91.md). -/
def State.syncCycle (s : State) (ev : RefEvent) : State :=
  match ev.ptp with
  | some (_, c) =>
    let a := s.reed.acc.toNat % cycleUnits
    s.setAcc (a + (if a < cycleUnits / 2 then c else c + 65535) % 65536 * cycleUnits)
  | none => s

/-- R166, R171, R172: a reference event. In HOLDOVER an event that is ignored leaves REED_ERR and REED_EDGE_STAMP as they are, and one
with 65 < |error| ≤ 6,554 is handled as the first event of the ACQUIRE it starts (DESIGN CHOICE, notes/assumptions/69.md). -/
def State.reedEvent (s : State) (ev : RefEvent) : State :=
  let st := s.reedSt
  if st = 0 then s else
  let iv := ((if st = 2 ∨ st = 3 then s.reed.sinceAccepted else s.reed.sinceReceived) + ev.shift).toNat
  let legal := s.legalEvent ev iv
  let (n, d) := s.reed.period
  let strays := decide (10 * iv * d < 9 * n ∨ 11 * n < 10 * iv * d)
  let e := s.reedError ev.ahead ev.angle
  let u := s.syncCycle ev
  let ph := u.phaseAt ev.ahead
  if st = 2 ∨ st = 3 then
    if ! legal ∨ strays then s.deviantEvent ev
    else
      let s1 := (u.takeEvent ev iv ph e).lockCount e
      (if st = 3 then s1.reedGo 2 else s1).startSlew e
  else if ! s.reed.received ∨ ! legal then s.modReed ev.receive
  else if st = 1 then (u.takeEvent ev iv ph e).acquireEvent e
  else if st = 4 then
    if 6554 < e.natAbs then s.modReed ev.receive
    else if e.natAbs ≤ 65 then (((u.takeEvent ev iv ph e).lockCount e).reedGo 2).startSlew e
    else (u.reedAcquire.takeEvent ev iv ph e).acquireEvent e
  else if s.fld F.REED_SRC_SRC = 3 then s
  else (u.reedAcquire.takeEvent ev iv ph e).acquireEvent e

/-- R580, Table Belay-7: Scree removes every DROP-th reference event and shifts the others by at most NS ns. -/
def State.reedJitter (s : State) : Option (State × Int) :=
  if ! (s.screeActs && s.flag F.SCREE_JITTER_EN) then some (s, 0) else
  let drop := s.fld F.SCREE_JITTER_DROP
  let k := s.belay.dropCount + 1
  if drop ≠ 0 ∧ drop ≤ k then none
  else
    let (w, s1) := s.takeFree
    let m := s1.fld F.SCREE_JITTER_NS / 5
    some ({ s1 with belay := { s1.belay with dropCount := k } }, ((w.toNat % (2 * m + 1) : Nat) : Int) - (m : Int))

/-- A reference event `back` ticks ago, since when the phase has moved by `moved`, shifted or dropped by Scree's jitter. -/
def State.reedReference (s : State) (angle back moved : Nat) (ptp : Option (Nat × Nat)) : State :=
  match s.reedJitter with
  | none => { s with belay := { s.belay with dropCount := 0 } }
  | some (t, sh) => t.reedEvent ⟨angle, sh - (back : Int), sh * (t.fld F.REED_INC_INC : Int) - (moved : Int), ptp⟩

/-! ### Zero crossings and PTP time -/

/-- R71, R167: the level of ZC_IN that Reed samples; a bank D outside its windows reads 0. -/
def State.zcSees (s : State) : Bool := s.reed.zcIn && s.bankLive 3

/-- R166: the edge into `level` is the one that REED_ZC.EDGE sets. -/
def State.zcEdge (s : State) (level : Bool) : Bool := s.fld F.REED_SRC_SRC == 0 && level != s.flag F.REED_ZC_EDGE

/-- R167: one sample of the glitch filter: a level that has held for the FILT in force at its transition is accepted, and an event
is timed at that transition. -/
def State.zcTick (s : State) : State :=
  let l := s.zcSees
  let hold (h : Option ZcHold) : State := s.modReed (fun r => { r with zcHold := h })
  if l = s.reed.zcLevel then (if s.reed.zcHold.isSome then hold none else s)
  else match s.reed.zcHold with
  | none => hold (some ⟨0, 200 * s.fld F.REED_ZC_FILT, s.reed.acc⟩)
  | some z =>
    if z.ticks + 1 < z.need then hold (some { z with ticks := z.ticks + 1 })
    else
      let t := s.modReed (fun r => { r with zcHold := none, zcLevel := l })
      if t.zcEdge l then t.reedReference (t.fld F.REED_ZC_EDGE_ANGLE) z.need (s.reed.acc - z.acc).toNat none else t

/-- R169: the PTP time in units of 2^−32 ns since OFFSET, modulo PERIOD, at a PTP time. -/
def State.ptpSince (s : State) (t : Nat) : Int :=
  (t : Int) - ((s.fld F.REED_PTP_OFFSET_OFFSET % s.fld F.REED_PTP_PERIOD_PERIOD * 2 ^ 32 : Nat) : Int)

/-- R166, R169, R499: 5 ns pass for the PTP clock. With SRC = PTP a tick of it that reaches a time t with (t − OFFSET) mod PERIOD = 0 is a
reference event; a set or step of the clock moves the times themselves (notes/assumptions/70.md). -/
def State.ptpTick5 (s : State) : State :=
  let t := s.ptpElapse 1
  if s.reedSt = 0 ∨ s.fld F.REED_SRC_SRC ≠ 2 ∨ ! s.kept 0 ∨ ! s.ptpRuns ∨ s.field.ptpPhase + 5 < 8 then t else
  let u := t.modReed (fun r => { r with ptpReceived := r.ptpReceived + s.ptpTick, ptpAccepted := r.ptpAccepted + s.ptpTick })
  let m : Int := (s.fld F.REED_PTP_PERIOD_PERIOD * 2 ^ 32 : Nat)
  let now := s.ptpSince (s.ptpNow + s.ptpTick)
  if s.ptpSince s.ptpNow / m < now / m then u.reedReference 0 0 0 (some ((now % m).toNat, (now / m % 65536).toNat)) else u

/-! ### The whole tick -/

/-- R102, R177: Reed is clocked: powered, and in STOP only with CLK_STOP_KEEP_0 bit 0. -/
def State.reedClocked (s : State) : Bool :=
  s.kept 0

/-- What a 5 ns tick makes due: the phase advances, the timeouts run, and a reference event of this tick may step the phase. -/
def State.reedDue (s : State) : State :=
  let s1 := s.modReed (fun r => { r with sinceAccepted := r.sinceAccepted + 1, sinceReceived := r.sinceReceived + 1, triggered := 0 })
  s1.reedAdvance.reedTimeouts.zcTick.ptpTick5

/-- One 5 ns tick of Reed, and of the PTP clock beside it: what it makes due, a step of the phase included (R183), fires from this tick
on. -/
def State.reedTick (s : State) : State :=
  if s.reedSt = 0 ∨ ! s.reedClocked then s.ptpTick5 else s.reedDue.fireTick

/-- `n` ticks of Reed. -/
def State.reedTicks : Nat → State → State
  | 0, s => s
  | n + 1, s => State.reedTicks n s.reedTick

/-- R499: Reed takes its reference from the PTP clock. -/
def State.reedOnPtp (s : State) : Bool := s.reedSt != 0 && s.fld F.REED_SRC_SRC == 2

/-- The PTP clock runs on until its time is at least `t`. Reed passes the same ticks when it follows that clock (R499); seconds passed over
without a Shuttle cycle in between are one pulse to Shuttle, which keeps a pulse until it senses. -/
def State.ptpUntil (s : State) (t : Nat) : State :=
  let n := (t - s.ptpNow + s.ptpTick - 1) / s.ptpTick
  if s.reedOnPtp && s.ptpRuns then State.reedTicks ((8 * n - s.field.ptpPhase + 4) / 5) s else s.ptpTicks n

/-! ### Encoder -/

/-- R168: count `k` of a turn as an angle, halves rounded up. -/
def encAngle (cpt k : Nat) : Nat := (2 * k * 65536 + cpt) / (2 * cpt) % 65536

/-- R168: the encoder is followed: with bank D outside its windows no input moves (R71). -/
def State.encLive (s : State) : Bool := decide (s.reedSt ≠ 0 ∧ s.fld F.REED_SRC_SRC = 1) && s.reedClocked && s.bankLive 3

/-- R168: an illegal transition. -/
def State.encIllegal (s : State) : State :=
  if ! s.encLive then s else (s.bumpSat F.REED_COUNTS_GLITCH F.REED_COUNTS_GSAT).raise P.REED E.REED_ENC_ERROR

/-- R168: POS moves by one count, modulo CPT without the index. -/
def State.encMove (s : State) (up : Bool) : State :=
  let m := if s.flag F.REED_ENC_Z_EN then 65536 else s.fld F.REED_ENC_CPT
  let p := s.fld F.REED_ENC_POS_POS
  s.setFld F.REED_ENC_POS_POS ((if up then p + 1 else p + m - 1) % m)

/-- R168, R172: one legal count. -/
def State.encCount (s : State) (forward : Bool) : State :=
  if ! s.encLive then s
  else if ! forward then
    ((s.encMove false).setFld F.REED_ENC_POS_REVERSE 1).modReed (fun r => { r with reverseBy := r.reverseBy + 1 })
  else if s.reed.reverseBy ≠ 0 then
    let k := s.reed.reverseBy - 1
    ((s.encMove true).setFlag F.REED_ENC_POS_REVERSE (k != 0)).modReed (fun r => { r with reverseBy := k })
  else
    let s1 := s.encMove true
    let pos := s1.fld F.REED_ENC_POS_POS
    if ! s1.flag F.REED_ENC_Z_EN ∧ pos = 0 then s1.reedReference 0 0 0 none
    else
      let e := s1.reedError 0 (encAngle (s1.fld F.REED_ENC_CPT) pos)
      let s2 := s1.noteError e
      if s2.reedSt = 1 ∨ s2.reedSt = 2 then s2.startSlew e else s2

/-- R168: an index pulse. -/
def State.encIndex (s : State) : State :=
  if ! s.encLive ∨ ! s.flag F.REED_ENC_Z_EN ∨ s.flag F.REED_ENC_POS_REVERSE then s
  else (s.setFld F.REED_ENC_POS_POS 0).reedReference 0 0 0 none

/-! ### Enable, disable, register writes -/

/-- R189: Reed leaves DISABLED: the phase starts at 0 and every slot armed in the registers arms afresh. -/
def State.reedStart (s : State) : State :=
  let s1 := (s.modReed (fun r => { ReedState.reset with
    reverseBy := r.reverseBy, zcIn := r.zcIn, zcLevel := s.zcSees, period := s.nominal, comb := s.raw R.REED_COMB })).setAcc 0
  let s2 := (forEach 128 (fun n t => t.loadReedSlot n) s1).showArmed
  if s2.fld F.REED_SRC_SRC = 3 then s2.reedFree else s2.reedAcquire

/-- R189: Reed enters DISABLED: slots disarm, the comb stops, the phase word reads 0. -/
def State.reedStop (s : State) : State :=
  ((s.modReed (fun r => { ReedState.reset with reverseBy := r.reverseBy, zcIn := r.zcIn, period := s.nominal })).setAcc 0).showArmed.reedGo 0

/-- R175: a write to a slot register waits for the next crossing unless Reed is DISABLED. -/
def State.opReedSlot (s : State) (ni a : Nat) (v : DWord) (n : Nat) : State :=
  let s1 := (s.storeReg ni a v).1
  if s1.reedSt = 0 then (s1.loadReedSlot n).showArmed
  else
    let listed (l : List Nat) : List Nat := if l.contains n then l else l ++ [n]
    s1.modReed (fun r => { r with
      pendingSlots := listed r.pendingSlots, pendingArms := if a = R.REED_SLOT_B n then listed r.pendingArms else r.pendingArms })

/-- R175: a write to REED_COMB. -/
def State.opReedComb (s : State) (ni : Nat) (v : DWord) : State :=
  let s1 := (s.storeReg ni R.REED_COMB v).1
  if s1.reedSt = 0 then s1.modReed (fun r => { r with comb := s1.raw R.REED_COMB }) else s1.modReed (fun r => { r with combPending := true })

/-- R171: a write to REED_SRC with a different source. -/
def State.opReedSrc (s : State) (ni : Nat) (v : DWord) : State :=
  let s1 := (s.storeReg ni R.REED_SRC v).1
  if s1.reedSt = 0 ∨ s1.fld F.REED_SRC_SRC = s.fld F.REED_SRC_SRC then s1
  else
    let s2 := s1.modReed (fun r => { r with received := false })
    if s2.fld F.REED_SRC_SRC = 3 then s2.reedFree else s2.reedAcquire

/-- R164, R170: a write to REED_CTRL or REED_NOMINAL shows in the rate; T follows NOMINAL until an event has been accepted. -/
def State.opReedRate (s : State) (ni a : Nat) (v : DWord) : State :=
  let s1 := (s.storeReg ni a v).1
  (if s1.reed.accepted then s1 else s1.modReed (fun r => { r with period := s1.nominal })).showRate

/-- The highest phase reached (R183), in 2^−32 ac. -/
def State.reedHighest (s : State) : Nat := s.reed.acc.toNat + s.reed.behind

/-- The CYCLE of that phase, which wraps (R188). -/
def State.reedCycle (s : State) : Nat := s.reedHighest / cycleUnits % 65536

/-- The next tick, when `happens` holds of the states before and after it. -/
def State.tickIf (s : State) (happens : State → State → Bool) : State :=
  let t := s.reedTick
  if s.reedSt ≠ 0 ∧ happens s t then t else s

/-- R168: a quadrature step; REED_ENC.DIR says which direction is forward. -/
def State.encStep (s : State) (k : EncStep) : State :=
  match k with
  | .illegal => s.encIllegal
  | .aLeads => s.encCount (! s.flag F.REED_ENC_DIR)
  | .bLeads => s.encCount (s.flag F.REED_ENC_DIR)

/-- R168: a pulse shorter than 10 ns, two samples, is rejected. -/
def State.encHeld (s : State) (samples : Nat) (f : State → State) : State := if samples < 2 then s else f s

/-- R166: the next reference event of the encoder: its index, or the count that closes a turn of CPT. -/
def State.encReference (s : State) : State :=
  if s.flag F.REED_ENC_Z_EN then s.encIndex
  else if s.fld F.REED_ENC_POS_POS + 1 = s.fld F.REED_ENC_CPT ∧ ! s.flag F.REED_ENC_POS_REVERSE then s.encCount true else s

/-- An event reached Reed between two states: it was received, or Scree dropped it (R580). -/
def referenceSeen (a b : State) : Bool := decide (b.reed.sinceReceived < a.reed.sinceReceived) || decide (b.belay.dropCount < a.belay.dropCount)

/-- R166 to R169: the reference of the selected source: ZC_IN takes `level` and holds it for `hold` ticks; the tick in which the PTP
time reaches a multiple of PERIOD; or the encoder's event. -/
def State.referenceNow (s : State) (level : Bool) (hold : Nat) : State :=
  let src := s.fld F.REED_SRC_SRC
  if src = 0 then State.reedTicks hold (s.modReed (fun r => { r with zcIn := level }))
  else if src = 1 then s.encReference
  else if src = 2 then s.tickIf referenceSeen
  else s

/-- R50, R189: PAGE_STAT.ENABLED of Reed follows PAGE_CTRL.ENABLE. -/
def State.reedEnable (s : State) : State :=
  let on := s.flag (F.PAGE_CTRL_ENABLE P.REED)
  if on = s.running P.REED then s
  else
    let s1 := s.setFlag (F.PAGE_STAT_ENABLED P.REED) on
    if s1.resetting P.REED then s1 else if on then s1.reedStart else s1.reedStop

end Sys2Proof.Machine
end

