-- ==== Sys2Proof/Machine/Field.lean ====
section
/-! DEFINITION. The commands of Ethernet, PTP, the serial lines, the ADCs and GPIO (R490 to R518). -/
namespace Sys2Proof.Machine

/-- ETH_TX_FRAME of MAC `n`. -/
def execEthTxFrame (n : Fin 2) (s : State) : Host.Outcome State Fault Refusal := .next (s.opEthTx n.val)

/-- ETH_RX_FRAME at MAC `n`: the frame's bytes without FCS, and whether the FCS is right. -/
def execEthRxFrame (n : Fin 2) (frame : List Byte) (fcsOk : Bool) (s : State) : Host.Outcome State Fault Refusal :=
  .next (s.opEthRx n.val frame fcsOk)

/-- ETH_RX_ITEM of MAC `n`. -/
def execEthRxItem (n : Fin 2) (s : State) : Host.Outcome State Fault Refusal := .next (s.opEthItem n.val)

/-- PAUSE received by MAC `n`. -/
def execPause (n : Fin 2) (quanta : BitVec 16) (s : State) : Host.Outcome State Fault Refusal := .next (s.opPause n.val quanta.toNat)

/-- MDIO_GO: ETH_MDIO of ETH_0 is written with GO = 1; a read is answered `answer`. -/
def execMdioGo (q : Req) (data : BitVec 16) (reg phy : BitVec 5) (read : Bool) (answer : BitVec 16) (s : State) : Host.Outcome State Fault Refusal :=
  let v := BitVec.ofNat 64 ((F.ETH_MDIO_DATA 0).at data.toNat + (F.ETH_MDIO_REG 0).at reg.toNat + (F.ETH_MDIO_PHY 0).at phy.toNat
    + (F.ETH_MDIO_READ 0).at (b2n read) + (F.ETH_MDIO_GO 0).at 1)
  .next (s.gateWrite q (R.ETH_MDIO 0) .w v (fun t => t.opMdio q.ni.val 0 v answer.toNat))

/-- PTP_SECOND: the PTP clock runs on to its next second boundary. -/
def execPtpSecond (s : State) : Host.Outcome State Fault Refusal :=
  .next (s.ptpUntil ((s.ptpNow / 2 ^ 32 / 1000000000 + 1) * 1000000000 * 2 ^ 32))

/-- PTP_TARGET: the PTP clock runs on to its target. -/
def execPtpTarget (s : State) : Host.Outcome State Fault Refusal :=
  .next (if ! (s.ptpRuns && s.flag F.PTPCLK_TARGET_HI_ARMED) then s else (s.ptpUntil s.ptpTarget).ptpReached)

/-- PTP_SET: a 64-bit store to PTPCLK_TIME. -/
def execPtpSet (q : Req) (v : BitVec 64) (s : State) : Host.Outcome State Fault Refusal :=
  .next (s.gateWrite q R.PTPCLK_TIME .d v (fun t => t.opPtpTime q.ni.val v))

/-- PTP_STEP: a write to PTPCLK_STEP. -/
def execPtpStep (q : Req) (ns : BitVec 32) (s : State) : Host.Outcome State Fault Refusal :=
  .next (s.gateWrite q R.PTPCLK_STEP .w (ns.zeroExtend 64) (fun t => t.opPtpStep q.ni.val (ns.zeroExtend 64)))

/-- UART_CHARACTER at UART `n`. RX of a bank outside its windows reads 0 and brings no character (R71). -/
def execUartCharacter (n : Fin 6) (c : UartChar) (s : State) : Host.Outcome State Fault Refusal :=
  .next (if ! s.ioLive (P.UART n.val) then s else match c with
    | .tx => s.uartTx n.val
    | .rx b framing parity gap => s.when (s.bankLive 2) (fun t => t.uartRx n.val b framing parity gap))

/-- FRAME_END at UART `n`: the line has been idle for IDLE characters, for t3.5 in MODBUS mode. RX of a bank outside its windows
reads 0 and is never idle (R71). -/
def execFrameEnd (n : Fin 6) (s : State) : Host.Outcome State Fault Refusal :=
  let t := s.setFld (F.UART_STAT_RX_IDLE n.val) 1
  .next (if ! s.ioLive (P.UART n.val) || ! s.bankLive 2 then s
    else if s.fld (F.UART_CFG_MODE n.val) = 2 then t.setUart n.val { t.uart n.val with discard := false }
    else if s.fld (F.UART_CFG_MODE n.val) = 0 ∧ s.fld (F.UART_FRAME_IDLE n.val) = 0 then t
    else t.uartFrameEnd n.val)

/-- BREAK at UART `n`: RX has been low for 2 character times. -/
def execBreak (n : Fin 6) (s : State) : Host.Outcome State Fault Refusal :=
  .next (s.when (s.ioLive (P.UART n.val)) (fun t => t.uartBreak n.val))

/-- SPI_TRANSFER of controller `n`: as many bytes are clocked as come in. -/
def execSpiTransfer (n : Fin 2) (miso : List Byte) (s : State) : Host.Outcome State Fault Refusal := .next (s.opSpi n.val miso)

/-- CS_RELEASE of controller `n`: not while a transfer runs. -/
def execCsRelease (n : Fin 2) (s : State) : Host.Outcome State Fault Refusal :=
  .next (if s.flag (F.SPI_STAT_BUSY n.val) then s else s.csRelease n.val)

/-- I2C_TRANSFER of controller `n`. -/
def execI2cTransfer (n : Fin 2) (r : I2cResult) (s : State) : Host.Outcome State Fault Refusal := .next (s.opI2c n.val r)

/-- I2C_RECOVER: I2C_RECOVER is written with GO = 1. -/
def execI2cRecover (q : Req) (n : Fin 2) (freed : Bool) (s : State) : Host.Outcome State Fault Refusal :=
  .next (s.gateWrite q (R.I2C_RECOVER n.val) .w 1#64 (fun t => t.opI2cRecover q.ni.val n.val 1#64 freed))

/-- ADC_TRIGGER at ADC `n`. -/
def execAdcTrigger (n : Fin 2) (src : AdcSource) (s : State) : Host.Outcome State Fault Refusal := .next (s.adcFrom n.val src)

/-- ADC_SW_TRIG: ADC_SW_TRIG is written with GO = 1. -/
def execAdcSwTrig (q : Req) (n : Fin 2) (s : State) : Host.Outcome State Fault Refusal :=
  .next (s.gateWrite q (R.ADC_SW_TRIG n.val) .w 1#64 (fun t => t.opSwTrig q.ni.val n.val 1#64))

/-- ADC_CONVERSION of ADC `n`. -/
def execAdcConversion (n : Fin 2) (raw : BitVec 16) (s : State) : Host.Outcome State Fault Refusal := .next (s.opConversion n.val raw.toNat)

/-- SEQUENCE_END of ADC `n`. -/
def execSequenceEnd (n : Fin 2) (s : State) : Host.Outcome State Fault Refusal := .next (s.opSequenceEnd n.val)

/-- FLUSH: ADC_CFG is written with FLUSH = 1. -/
def execFlush (q : Req) (n : Fin 2) (format cont : Bool) (s : State) : Host.Outcome State Fault Refusal :=
  let v := BitVec.ofNat 64 ((F.ADC_CFG_FORMAT 0).at (b2n format) + (F.ADC_CFG_CONT 0).at (b2n cont) + (F.ADC_CFG_FLUSH 0).at 1)
  .next (s.gateWrite q (R.ADC_CFG n.val) .w v (fun t => t.opAdcCfg q.ni.val n.val v))

/-- MOVE_ANGLE_CROSSING (R396): the next tick of Reed, if in it the phase word crosses the MOVE_ANGLE of the HOLD item of ADC `n`. -/
def execMoveAngleCrossing (n : Fin 2) (s : State) : Host.Outcome State Fault Refusal :=
  .next (s.tickIf (fun a b => ! a.adcReleased n.val && b.adcReleased n.val))

/-- GPIO_EDGE: ball GPIO_n has held its new level for GPIO_FILT.CYCLES. -/
def execGpioEdge (n : Fin 32) (rising : Bool) (s : State) : Host.Outcome State Fault Refusal := .next (s.opGpioEdge n.val rising).settle

/-- GPIO_SET: a write to GPIO_SET. -/
def execGpioSet (q : Req) (m : BitVec 32) (s : State) : Host.Outcome State Fault Refusal :=
  .next (s.gateWrite q R.GPIO_SET .w (m.zeroExtend 64) (fun t => t.opGpioSet m.toNat))

/-- GPIO_CLR: a write to GPIO_CLR. -/
def execGpioClr (q : Req) (m : BitVec 32) (s : State) : Host.Outcome State Fault Refusal :=
  .next (s.gateWrite q R.GPIO_CLR .w (m.zeroExtend 64) (fun t => t.opGpioClr m.toNat))

end Sys2Proof.Machine
end

