-- ==== Sys2Proof/Machine/LouOps.lean ====
section
/-! DEFINITION. The LOU as shared operations (R239 to R244): completion in program order, the waits of Table Pipeline-1, delivery of
a fault, and how every hart instruction begins: a fault due first (R205), then triggers, then its own effect. -/
namespace Sys2Proof.Machine

/-- R244: the fault that may be delivered: the oldest, once an xRET has retired since the last one left others behind, and not in
debug mode (R243). -/
def Hart.louDue (t : Hart) : Option LouEntry := if t.louArmed && ! t.debug then t.lou.find? (fun e => e.fault.isSome) else none

/-- Completions until `busy` no longer holds, at most `n`, or until a fault is due. -/
def Hart.completeWhile (busy : Hart → Bool) : Nat → Hart → Hart
  | 0, t => t
  | n + 1, t => if busy t && t.louDue.isNone then Hart.completeWhile busy n t.completeOldest else t

/-- R242: the record of a fault, in mloufsr and mloufpc; while they are occupied only MULTI is set (R227). A record written while CODE is 0
clears a MULTI still set, on which R242 is silent (DESIGN CHOICE, notes/assumptions/90.md). -/
def Hart.recordFault (t : Hart) (e : LouEntry) (code : Nat) : Hart :=
  if Bits.get (t.csrRaw 0x7C2) 0 3 ≠ 0 then t.putCsr 0x7C2 7 1 1
  else (t.setCsr 0x7C2 (BitVec.ofNat 64 (code + 2 ^ 8 * e.slot + 2 ^ 12 * b2n e.precise + 2 ^ 16 * e.priv + 2 ^ 18 * b2n e.virt +
    2 ^ 24 * e.op.funct7))).setCsr 0x7C3 e.pc

/-- R242 to R244: the fault of entry `e` is taken as a trap with cause 24; faults left behind wait for an xRET or an LBAR. -/
def Hart.deliver (t : Hart) (e : LouEntry) : Hart :=
  if t.prog.isSome then { t with prog := some true } else
  let rest := t.lou.filter (fun x => x.slot != e.slot)
  let u := ({ t with lou := rest, louArmed := rest.all (fun x => x.fault.isNone) } : Hart).count 0x0D e.priv e.virt
  (u.recordFault e (e.fault.getD 0)).trap (Trap.exc 24 e.pc)

/-- A trap whose entry waits for the LOU; a fault found is taken first (R243). -/
def Hart.trapDrained (t : Hart) (r : Trap) : Hart :=
  let u := t.drainLou
  match u.louDue with
  | some e => u.deliver e
  | none => u.trap r

/-- The fault due is delivered, the LOU having drained (R243). -/
def Hart.deliverDue (t : Hart) : Hart :=
  let u := t.drainLou
  match u.louDue with
  | some e => u.deliver e
  | none => t

/-- A register that an operation under way will write (R240). -/
def Hart.awaits (t : Hart) (regs : List Nat) : Bool :=
  t.lou.any (fun e => e.fault.isNone && e.op.writesRd && e.rd != 0 && regs.contains e.rd)

/-- R240: the operations complete that write `regs`: in Scout an instruction waits for them as outside it, and no fault is taken. -/
def Hart.completeFor (t : Hart) (regs : List Nat) : Hart :=
  (List.range t.lou.length).foldl (fun (u : Hart) _ => if u.awaits regs then u.completeOldest else u) t

/-! ### Triggers -/

/-- Table Harts-12: trigger `k` matches an access of kind `bit` (0 load, 1 store, 2 execute) at `a`. -/
def Hart.trigMatch (t : Hart) (k bit a : Nat) : Bool :=
  let d := SMap.get trigReset t.trig (2 * k)
  let v := (SMap.get trigReset t.trig (2 * k + 1)).toNat
  let mode := if t.priv = 3 then 6 else if t.virt then (if t.priv = 1 then 24 else 23) else if t.priv = 1 then 4 else 3
  let m := Bits.get d 7 4
  d.toNat.testBit bit && d.toNat.testBit mode &&
    (if m = 2 then decide (v ≤ a) else if m = 3 then decide (a < v) else decide (a = v))

/-- The triggers that fire outside debug mode, trigger 0 chained to trigger 1 when its chain bit is set. -/
def Hart.trigFired (t : Hart) (bit a : Nat) : List Nat :=
  if t.debug then []
  else if (SMap.get trigReset t.trig 0).toNat.testBit 11 then (if t.trigMatch 0 bit a && t.trigMatch 1 bit a then [1] else [])
  else (List.range 2).filter (fun k => t.trigMatch k bit a)

/-- Entry into debug mode waits for the LOU and delivers no fault (R243). -/
def Hart.halt (t : Hart) (cause : Nat) : Hart := (if t.wfi then t.drainLou.wake else t.drainLou).enterDebug cause

/-- A trigger fires before the access: debug mode, or a breakpoint exception. -/
def Hart.fire (t : Hart) (ks : List Nat) : Hart :=
  if ks.any (fun k => Bits.get (SMap.get trigReset t.trig (2 * k)) 12 4 == 1) then t.halt 2 else t.trapDrained (Trap.exc 3 t.pc)

/-! ### How an instruction begins -/

/-- R233, R234: an instruction issues in Scout: it counts against MAX_INSN, and the last one ends issue (R325, event 0x12). -/
def Hart.scoutIssue (t : Hart) (inv len : Nat) (clear : Nat) : Hart :=
  match t.scout with
  | none => t
  | some c =>
    if c.stopped then t else
    let n := c.insns + 1
    let full := decide (t.gov 0x7C0 / 2 ^ 8 % 1024 ≤ n)
    let c1 := { c with insns := n, inv := clearBits c.inv clear ||| inv, stopped := full }
    let v := t.count 0x0F t.priv t.virt
    let u := if full then v.count 0x12 t.priv t.virt else v
    { u with pc := t.pc + BitVec.ofNat 64 len, scout := some c1 }

/-- Table Pipeline-3: not performed in Scout; the destination is INV. -/
def Hart.scoutSkip (rd len : Nat) (t : Hart) : Hart := t.scoutIssue (if rd = 0 then 0 else 2 ^ rd) len 0

/-- Table Pipeline-3: the instruction stops the run. -/
def Hart.scoutStop (t : Hart) : Hart := { t with scout := t.scout.map (fun c => { c with stopped := true }) }

/-- R205, R239, R240: an instruction of hart `h` at its pc: in Scout it does `scout`; else a fault due comes first, then a trigger; it
waits for the operations that write `regs`, and a fault that falls due meanwhile comes before it; then it does `f`. -/
def State.instr (s : State) (h : Nat) (regs : List Nat) (scout : Hart → Hart) (f : State → State) : State :=
  let t := s.hart h
  if ! s.hartLive h || t.wfi then s
  else if t.scout.isSome then (s.modHart h (fun u => scout (u.completeFor regs))).mirror h
  else if t.louDue.isSome then (s.modHart h Hart.deliverDue).mirror h
  else
    let fired := t.trigFired 2 t.pc.toNat
    if ! fired.isEmpty then (s.modHart h (fun u => u.fire fired)).mirror h
    else
      let u := t.completeWhile (fun x => x.awaits regs) t.lou.length
      if u.louDue.isSome then (s.modHart h (fun _ => u.deliverDue)).mirror h
      else (f (s.modHart h (fun _ => u))).mirror h

/-! ### The Xoroud instructions -/

/-- R221, R236: the exception of a Xoroud instruction that may not run, if any. -/
def Hart.xoroudBarred (t : Hart) (zeros : Bool) : Option Nat :=
  let cfg := t.gov 0x7C1
  if ! cfg.testBit 0 || ! zeros then some 2
  else if t.virt then (if ! cfg.testBit 5 || (decide (t.priv = 0) && ! cfg.testBit 4) then some 22 else none)
  else if t.priv = 0 && ! cfg.testBit 4 then some 2
  else none

/-- R236: the register fields that Table Pipeline-5 marks 0 are 0. -/
def LongOp.fieldsOk (op : LongOp) (rd rs1 rs2 : Nat) : Bool :=
  match op with
  | .ldivu | .isqrt | .frcp | .flog2 | .fexp2 => decide (rs2 = 0)
  | .lmacu | .lmacs | .laccWr => decide (rd = 0)
  | .laccRdlo | .laccRdhi => decide (rs1 = 0 ∧ rs2 = 0)
  | .crc32c => true

/-- R239, R242: the instruction cannot be handed over yet: DEPTH entries are held, or it is precise and the LOU is not empty. -/
def Hart.louBusy (t : Hart) : Bool :=
  let cfg := t.gov 0x7C1
  decide (cfg / 2 ^ 8 % 16 ≤ t.lou.length) || (cfg.testBit 1 && ! t.lou.isEmpty)

/-- R239: the LOU entry a hand-over takes: the eight are taken in turn, passing over one that is still held. DEDUCED (assumption log 53). -/
def Hart.freeSlot (t : Hart) : Nat :=
  (((List.range 8).map (fun k => (t.louNext + k) % 8)).find? (fun k => t.lou.all (fun e => e.slot != k))).getD 0

/-- R239, R242: the hand-over of an operation. A precise one completes before anything else, or faults without an effect. -/
def Hart.handOver (t : Hart) (op : LongOp) (rd rs1 rs2 : Nat) : Hart :=
  let e : LouEntry := ⟨t.freeSlot, op, t.xr rs1, t.xr rs2, rd, t.pc, t.priv, t.virt, (t.gov 0x7C1).testBit 1, none⟩
  let u := ({ t with louNext := (e.slot + 1) % 8 } : Hart).count 0x0C t.priv t.virt
  if ! e.precise then { u with lou := u.lou ++ [e] }.retire 4
  else
    let r := longOp op t.acc e.rs1 e.rs2
    if r.code ≠ 0 then u.deliver { e with fault := some r.code }
    else { (if op.writesRd then u.setX rd r.rd else u) with acc := r.acc }.retire 4

/-- R221, R236, R239: a Xoroud instruction once its registers are ready. It stalls while the LOU is full, and a fault that falls due
meanwhile is taken before it. -/
def Hart.xoroud (t : Hart) (op : LongOp) (rd rs1 rs2 : Nat) : Hart :=
  match t.xoroudBarred (op.fieldsOk rd rs1 rs2) with
  | some c => t.trapDrained (Trap.exc c (xoroudBits op.funct7 rd rs1 rs2))
  | none =>
    let u := t.completeWhile Hart.louBusy t.lou.length
    if u.louDue.isSome then u.deliverDue else if u.louBusy then u else u.handOver op rd rs1 rs2

/-- Table Pipeline-3: in Scout it is not performed and its destination is INV; one that would trap stops the run. -/
def LongOp.inScout (op : LongOp) (rd rs1 rs2 : Nat) (t : Hart) : Hart :=
  if (t.xoroudBarred (op.fieldsOk rd rs1 rs2)).isSome then t.scoutStop else t.scoutSkip (if op.writesRd then rd else 0) 4

/-- A Xoroud instruction of hart `h`. -/
def State.xoroud (s : State) (h : Nat) (op : LongOp) (rd rs1 rs2 : Nat) : State :=
  s.instr h [rd, rs1, rs2] (op.inScout rd rs1 rs2) (fun s1 => s1.modHart h (fun t => t.xoroud op rd rs1 rs2))

/-- R242: LBAR: every earlier operation completes; the oldest fault is delivered here, or the LBAR retires. -/
def Hart.lbar (t : Hart) (rd rs1 rs2 : Nat) : Hart :=
  match t.xoroudBarred (decide (rd = 0 ∧ rs1 = 0 ∧ rs2 = 0)) with
  | some c => t.trapDrained (Trap.exc c (xoroudBits 0x7F rd rs1 rs2))
  | none =>
    let u := t.drainLou
    match u.lou.find? (fun e => e.fault.isSome) with
    | some e => u.deliver e
    | none => u.retire 4

/-! ### Scout -/

/-- R234: the checkpoint is restored; Scout's results, INV tags and store shadow are gone. -/
def Hart.scoutRestore (t : Hart) : Hart :=
  match t.scout with
  | none => t
  | some c => { t with pc := c.pc, x := c.x, f := c.f, scout := none }

/-- R232: mscout allows Scout in the current mode. -/
def Hart.scoutEnabled (t : Hart) : Bool :=
  (t.gov 0x7C0).testBit (if t.virt then 3 else if t.priv = 3 then 0 else if t.priv = 1 then 1 else 2)

end Sys2Proof.Machine
end

