-- ==== Sys2Proof/Machine/Power.lean ====
section
/-! DEFINITION. The commands of the supply, reset and clock circuits (R71 to R125, R130, R220, R556): PORST_N, straps, supply
thresholds, power states, wakes, thermal limits, snapshots, the RTC and clock measurement. An event that cannot occur in the
present state leaves it as it is. -/
namespace Sys2Proof.Machine

/-- R76, R91: the internal power-on reset may release: VIN has risen above UVLO, every internal rail is good, XIN oscillates. -/
def State.porReleases (s : State) : Bool :=
  s.power.vinUp && decide (s.fld F.BELAY_MON_RAIL_OK = 255) && s.flag F.CLK_STAT_XIN_OK

/-- R114, R118, R120: the device stays in reset: a thermal trip holds it, or it heads for HALTED or Bivouac. -/
def State.resetHeld (s : State) : Bool := s.power.thermHold || s.power.closing.isSome

/-- R76, R78, R91: PORST_N release: reset ends, unless something else holds it, and the first strap sample is taken. -/
def State.opPorstRelease (s : State) (guard : Bool) (bootsel : Nat) : State :=
  if s.power.phase = .reset ∧ s.power.awaitPorst ∧ s.porReleases then
    (s.modPower (fun p => { p with phase := if s.resetHeld then .reset else .run, awaitPorst := false,
                                   samples := [b2n guard + 2 * bootsel] })).thermForce
  else s

/-- PORST_N_RELEASE. -/
def execPorstNRelease (guard : Bool) (bootsel : Fin 4) (s : State) : Host.Outcome State Fault Refusal :=
  .next (s.opPorstRelease guard bootsel.val)

/-- R31, R37, R78, R86: the second and third samples are in: the majority is latched, GUARD and the mode only at the end of a
power-on reset. -/
def State.opStrapLatch (s : State) (b c : Nat) : State :=
  match s.power.samples with
  | [a] =>
    if ! s.railsOn then s else
    let fresh := s.power.powerOn
    let m := maj3 a b c
    let differ := if fresh then ! (a == b && b == c) else ! (a / 2 == b / 2 && b / 2 == c / 2)
    let s1 := ((s.setFld F.BOOT_STRAP_BOOTSEL (m / 2)).setFld F.BOOT_STRAP_LATCHED 1).setFlag F.BOOT_STRAP_UNSTABLE differ
    let s2 := s1.when differ (fun t => t.raise P.BOOT E.BOOT_STRAP_UNSTABLE)
    let fuse := s.flag F.BOOT_POLICY_GUARDED_FUSE
    let s3 := s2.when fresh (fun t => (((t.setFld F.BOOT_STRAP_GUARD (m % 2)).setFld F.SYSCFG_MODE_STRAP (m % 2)).setFlag
      F.SYSCFG_MODE_FUSE_FORCED fuse).setFlag F.SYSCFG_MODE_GUARDED (fuse || m % 2 == 1))
    s3.modPower (fun p => { p with samples := [] })
  | _ => s

/-- STRAP_LATCH. -/
def execStrapLatch (guard2 : Bool) (bootsel2 : Fin 4) (guard3 : Bool) (bootsel3 : Fin 4) (s : State) :
    Host.Outcome State Fault Refusal :=
  .next (s.opStrapLatch (b2n guard2 + 2 * bootsel2.val) (b2n guard3 + 2 * bootsel3.val))

/-- R87: a low pulse on PORST_N. Between 1 and 10 µs it resets the device completely or has no effect, as a free value says. A pulse
that comes before the straps of a power-on release are latched leaves that release's samples owed: GUARD is sampled again and
the mode is set at the new release (State.strapsOwed, notes/assumptions/57.md). -/
def State.opPorstPulse (s : State) (ns : Nat) : State :=
  if ! s.railsOn ∨ ns < 1000 then s
  else if 10000 ≤ ns then s.startReset 1 false
  else
    let (w, s1) := s.takeFree
    if w.toNat.testBit 0 then s1.startReset 1 false else s1

/-- PORST_N_PULSE. -/
def execPorstNPulse (ns : BitVec 32) (s : State) : Host.Outcome State Fault Refusal := .next (s.opPorstPulse ns.toNat)

/-- R77: the reset stretch ends and RSTOUT_N is driven high. -/
def State.opRstout (s : State) : State := if s.awake then s.modPower (fun p => { p with rstoutN := true }) else s

/-- RSTOUT_N_RELEASE. -/
def execRstoutNRelease (s : State) : Host.Outcome State Fault Refusal := .next s.opRstout

/-- R71: a bank supply leaves both windows. Its monitor watches it whenever the rails are on, in a reset too. -/
def State.opBankExit (s : State) (bank : Nat) : State :=
  if s.railsOn then (((s.when (bank == 0) State.noteXip).setFld (bankFld bank) 0).raise P.PWR E.PWR_BANK_WINDOW).settle else s

/-- BANK_WINDOW_EXIT. -/
def execBankWindowExit (bank : Fin 4) (s : State) : Host.Outcome State Fault Refusal := .next (s.opBankExit bank.val)

/-- R92: a bank outside both windows resumes in the mode of the window its supply is back in. -/
def State.opBankReturn (s : State) (bank : Nat) (v33 : Bool) : State :=
  if s.railsOn ∧ s.fld (bankFld bank) = 0 then ((s.when (bank == 0) State.noteXip).setFld (bankFld bank) (if v33 then 2 else 1)).settle else s

/-- BANK_WINDOW_RETURN. -/
def execBankWindowReturn (bank : Fin 4) (v33 : Bool) (s : State) : Host.Outcome State Fault Refusal :=
  .next (s.opBankReturn bank.val v33)

/-- R97, R121, Table Supply-6: VIN rises through the UVLO rising threshold. -/
def State.opUvloRise (s : State) : State :=
  if s.power.vinUp then s else
  let s1 := s.modPower (fun p => { p with vinUp := true })
  if s1.power.phase = .off then s1.powerUp 0 false
  else if s1.power.phase = .bivouac ∧ s1.flag F.PWR_WAKE_CFG_VIN_EN then s1.latchWake 5
  else s1

/-- UVLO_RISE. -/
def execUvloRise (s : State) : Host.Outcome State Fault Refusal := .next s.opUvloRise

/-- R95, R97, R121: VIN falls through the UVLO falling threshold; `vbat` says whether VBAT is within its range. -/
def State.opUvloFall (s : State) (vbat : Bool) : State :=
  if ! s.power.vinUp then s else
  let s1 := s.modPower (fun p => { p with vinUp := false, vbatUp := vbat })
  let s2 := if s1.power.phase = .bivouac then s1 else s1.goDark .off
  if vbat then s2 else (s2.loseAon).modPower (fun p => { p with phase := .off })

/-- UVLO_FALL. -/
def execUvloFall (vbat : Bool) (s : State) : Host.Outcome State Fault Refusal := .next (s.opUvloFall vbat)

/-- R122: both VIN and VBAT are lost. -/
def State.opAonLoss (s : State) : State :=
  if s.power.vinUp then s else (s.loseAon).modPower (fun p => { p with vbatUp := false, phase := .off })

/-- AON_LOSS. -/
def execAonLoss (s : State) : Host.Outcome State Fault Refusal := .next s.opAonLoss

/-- R98 to R100, R124, R125, R529: VIN falls below the PFAIL threshold, and PFAIL_N asserts whenever the rails are on: the writes
queued so far go ahead of every newer one, and an armed action opens its grace window unless the device heads for HALTED or
Bivouac already. -/
def State.opPfailAssert (s : State) : State :=
  if s.power.pfail ∨ ! s.railsOn then s else
  let act := s.fld F.PWR_PFAIL_ACTION
  let n := s.memory.mram.length
  let s1 := ((s.raise P.PWR E.PWR_PFAIL).attn 2).setFlag F.MRAMC_QUEUE_DRAINING (n != 0)
  let opens := s.flag F.PWR_PFAIL_ARMED && act != 0 && s.power.grace.isNone && s.power.closing.isNone
  ({ s1 with memory := { s1.memory with mramAhead := n } } : State).modPower
    (fun p => { p with pfail := true, grace := if opens then some act else p.grace })

/-- PFAIL_ASSERT. -/
def execPfailAssert (s : State) : Host.Outcome State Fault Refusal := .next s.opPfailAssert

/-- R98, R118: PFAIL_N releases, and cancels an action still in its grace window. -/
def State.opPfailClear (s : State) : State :=
  if ! s.power.pfail ∨ ! s.railsOn then s else
  (s.raise P.PWR E.PWR_PFAIL_CLEAR).modPower (fun p => { p with pfail := false, grace := none })

/-- PFAIL_CLEAR. -/
def execPfailClear (s : State) : Host.Outcome State Fault Refusal := .next s.opPfailClear

/-- R100, R286: the grace window ends: harts and Heddle are clock-stopped, the MRAMC is closed. -/
def State.opGraceEnd (s : State) : State :=
  match s.power.grace with
  | none => s
  | some act => (s.clockStop act).modPower (fun p => { p with grace := none, mramClosed := true })

/-- GRACE_END. -/
def execGraceEnd (s : State) : Host.Outcome State Fault Refusal := .next s.opGraceEnd

/-- R100, R118: HALTED, once every accepted MRAM write has completed; PFAIL_N stays asserted there. -/
def State.opHaltedEntry (s : State) : State :=
  if s.power.closing = some 1 ∧ s.memory.mram.isEmpty then (s.goDark .halted).setFld F.PWR_STATE_PFAIL_HALT 1 else s

/-- HALTED_ENTRY. -/
def execHaltedEntry (s : State) : Host.Outcome State Fault Refusal := .next s.opHaltedEntry

/-- Table Supply-5: VIN above threshold plus hysteresis for 10 ms ends HALTED with a cold start. -/
def State.opHaltedRestart (s : State) : State :=
  if s.power.phase = .halted ∧ s.power.vinUp then (s.modPower (fun p => { p with pfail := false })).powerUp 7 false else s

/-- HALTED_RESTART. -/
def execHaltedRestart (s : State) : Host.Outcome State Fault Refusal := .next s.opHaltedRestart

/-- R119: VIN has stayed above THRESH plus hysteresis for 1 ms. -/
def State.opPfailArmed (s : State) : State := if s.power.pfail ∨ ! s.awake then s else s.setFld F.PWR_PFAIL_ARMED 1

/-- PFAIL_ARMED. -/
def execPfailArmed (s : State) : Host.Outcome State Fault Refusal := .next s.opPfailArmed

/-- RUN_POINT_CHANGE: a write of PWR_REQ.RUN, with IDLE as it stands (R103, R105). -/
def execRunPointChange (q : Req) (run : Fin 2) (s : State) : Host.Outcome State Fault Refusal :=
  let v := BitVec.ofNat 64 (F.PWR_REQ_RUN.at run.val + F.PWR_REQ_IDLE.at (s.fld F.PWR_REQ_IDLE) + F.PWR_REQ_PENDING.at (s.fld F.PWR_REQ_PENDING))
  .next (s.gateWrite q R.PWR_REQ .w v (fun t => t.opPwrReq q.ni.val v))

/-- R105: the change of operating point is complete. -/
def State.opOppointDone (s : State) : State :=
  if ! s.flag F.PWR_STATE_SWITCHING then s else
  let w := s.wantedPoint
  let s1 := ((s.setFld F.PWR_STATE_SWITCHING 0).setFld F.CLK_HART_OP w).raise P.PWR E.PWR_OPPOINT_DONE
  s1.when (decide (s1.fld F.PWR_STATE_CUR ≤ 1)) (fun t => t.setFld F.PWR_STATE_CUR w)

/-- OPPOINT_DONE. -/
def execOppointDone (s : State) : Host.Outcome State Fault Refusal := .next s.opOppointDone

/-- IDLE_REQUEST: a write of PWR_REQ.IDLE, with RUN as it stands (R103). -/
def execIdleRequest (q : Req) (idle : Fin 8) (s : State) : Host.Outcome State Fault Refusal :=
  let v := BitVec.ofNat 64 (F.PWR_REQ_RUN.at (s.fld F.PWR_REQ_RUN) + F.PWR_REQ_IDLE.at idle.val + F.PWR_REQ_PENDING.at (s.fld F.PWR_REQ_PENDING))
  .next (s.gateWrite q R.PWR_REQ .w v (fun t => t.opPwrReq q.ni.val v))

/-- R103, Table Supply-5: DOZE, once every visible hart is in WFI. -/
def State.opDozeEntry (s : State) : State :=
  if s.awake ∧ s.fld F.PWR_REQ_IDLE = 1 ∧ s.fld F.PWR_STATE_CUR ≤ 1 ∧ s.allWfi then
    ((s.setFld F.PWR_STATE_CUR 2).setFld F.PWR_REQ_PENDING 0).setFld F.CLK_HART_GATED 15
  else s

/-- DOZE_ENTRY. -/
def execDozeEntry (s : State) : Host.Outcome State Fault Refusal := .next s.opDozeEntry

/-- R104, R360, Table Supply-6: a wake ends DOZE; the IDLE request stands again. -/
def State.opDozeWake (s : State) : State :=
  if s.awake ∧ s.fld F.PWR_STATE_CUR = 2 ∧ s.power.closing.isNone ∧ (s.visible.any (fun h => s.wakeCond h || s.localPending h) ∨ s.power.wakes.testBit 4) then
    let s1 := (((s.setFld F.PWR_STATE_CUR (s.fld F.CLK_HART_OP)).setFld F.CLK_HART_GATED 0).setFlag F.PWR_REQ_PENDING
      (s.fld F.PWR_REQ_IDLE != 0)).modPower (fun p => { p with wakes := clearBits p.wakes 16 })
    s1.wakeHarts
  else s

/-- DOZE_WAKE. -/
def execDozeWake (s : State) : Host.Outcome State Fault Refusal := .next s.opDozeWake

/-- R104, R273: STOP: the caches are cleaned, DRAM enters self-refresh, the harts lose power and their state. -/
def State.opStopEntry (s : State) : State :=
  if s.fld F.PWR_REQ_IDLE = 2 ∧ s.mayStop then
    let s1 := s.cleanCaches.selfRefresh
    let s2 : State := { s1 with harts := s1.harts.map (fun h => { Hart.reset 0 with resetHalt := h.resetHalt, fenced := h.fenced }) }
    (((s2.setFld F.PWR_STATE_CUR 3).setFld F.PWR_REQ_PENDING 0).setFld F.CLK_HART_GATED 15).modPower
      (fun p => { p with heddleStopped := true, wakes := p.wakes ||| s.wakePinsUp })
  else s

/-- STOP_ENTRY. -/
def execStopEntry (s : State) : Host.Outcome State Fault Refusal := .next s.opStopEntry

/-- R104, R106, R124, R177, R533: a wake source of Table Supply-6 ends STOP; `cs` is a fall of TETHER_CS_N, which a bank A outside
its windows does not show. -/
def State.opStopWake (s : State) (cs : Bool) : State :=
  if s.awake ∧ s.fld F.PWR_STATE_CUR = 3 ∧ s.power.closing.isNone ∧
      (s.power.wakes ≠ 0 ∨ (cs ∧ s.bankLive 0) ∨ s.power.heldKicks.any (fun k => k.2) ∨ s.stopCond) then
    let s1 := s.setReg R.PWR_WAKE_STAT (s.raw R.PWR_WAKE_STAT ||| BitVec.ofNat 64 s.power.wakes)
    let s2 := (((s1.setFld F.PWR_STATE_CUR (s1.fld F.CLK_HART_OP)).setFld F.CLK_HART_GATED 0).setFld F.PWR_REQ_IDLE 0).setFld
      F.DMC_SELFREF_IN_SR 0
    let s3 := (s2.modPower (fun p => { p with wakes := 0, heddleStopped := false, heldKicks := [] })).startHarts
      (256 * s2.fld F.PWR_RESUME_ADDR)
    let s4 : State := { s3 with harts := s3.harts.mapFinIdx (fun i h _ => if (s.hart i).fenced then { h with fenced := true, running := false } else h) }
    let s5 : State := { s4 with dm := { s4.dm with haveReset := 15 } }
    forAll s.power.heldKicks (fun k t => t.kick k.1) s5
  else s

/-- STOP_WAKE. -/
def execStopWake (cs : Bool) (s : State) : Host.Outcome State Fault Refusal := .next (s.opStopWake cs)

/-- R107, steps 2 to 5: once the MRAMC is empty an entry under way is completed; wakes latched meanwhile stand. -/
def State.finishBivouac (s : State) : State :=
  if ! s.memory.mram.isEmpty then s else
  let s1 := (s.goDark .bivouac).when (decide (s.power.closing = some 2)) (fun t => t.setFld F.PWR_WAKE_STAT_PFAIL_BIV 1)
  s1.modPower (fun p => { p with wakes := s.power.wakes ||| s.wakePinsUp })

/-- R103, R107, R120, R125: Bivouac, by a PFAIL action that has closed the MRAMC, or on request, which takes effect at once when the
conditions of Table Supply-5 hold: it always completes, so an action whose grace window runs falls due no more. An entry that finds
writes queued stays under way until a later one finds none. -/
def State.opBivouacEntry (s : State) : State :=
  if s.power.closing = some 2 ∨ s.power.closing = some 3 then s.finishBivouac
  else if s.fld F.PWR_REQ_IDLE = 3 ∧ s.mayStop then
    (((s.setFld F.PWR_REQ_PENDING 0).clockStop 3).modPower (fun p => { p with grace := none })).finishBivouac
  else s

/-- BIVOUAC_ENTRY. -/
def execBivouacEntry (s : State) : Host.Outcome State Fault Refusal := .next s.opBivouacEntry

/-- R106, R111, R121: a recorded wake ends Bivouac once VIN is present: power-on, with a cold start when no snapshot is
complete. RTC_WAKE_STAMP takes TICKS as the resume starts (notes/assumptions/60.md). -/
def State.opBivouacWake (s : State) : State :=
  if s.power.phase = .bivouac ∧ s.power.wakes ≠ 0 ∧ s.power.vinUp then
    let s1 := (s.setReg R.PWR_WAKE_STAT (s.raw R.PWR_WAKE_STAT ||| BitVec.ofNat 64 s.power.wakes)).setFld F.RTC_WAKE_STAMP_STAMP
      (s.fld F.RTC_COUNT_TICKS)
    let s2 := s1.when (! s1.flag F.PWR_SNAP_CTRL_COMPLETE) (fun t => t.setFld F.PWR_WAKE_STAT_COLD 1)
    (s2.modPower (fun p => { p with wakes := 0 })).powerUp 0 true
  else s

/-- BIVOUAC_WAKE. -/
def execBivouacWake (s : State) : Host.Outcome State Fault Refusal := .next s.opBivouacWake

/-- R106, R120: a filtered WAKE_n input takes a level: at its set polarity it raises WAKE_PIN, and wakes when enabled. -/
def State.opWakePin (s : State) (n : Nat) (level : Bool) : State :=
  if ! s.aonFed then s else
  let s1 := s.modPower (fun p => { p with wakePins := if level then p.wakePins ||| 2 ^ n else clearBits p.wakePins (2 ^ n) })
  if level != (s1.fld F.PWR_WAKE_CFG_POL).testBit n then s1 else
  let s2 := s1.when s1.awake (fun t => t.raise P.PWR E.PWR_WAKE_PIN)
  s2.when (s2.latchesWakes && (s2.fld F.PWR_WAKE_CFG_WAKE_EN).testBit n) (fun t => t.latchWake n)

/-- WAKE_PIN. -/
def execWakePin (n : Fin 4) (level : Bool) (s : State) : Host.Outcome State Fault Refusal := .next (s.opWakePin n.val level)

/-- THERM_HOT (R113): a reading of the junction temperature, in °C. -/
def execThermHot (tj : BitVec 9) (s : State) : Host.Outcome State Fault Refusal := .next (s.readTj tj.toNat)

/-- THERM_TRIP (R114): a reading of the junction temperature, in °C. -/
def execThermTrip (tj : BitVec 9) (s : State) : Host.Outcome State Fault Refusal := .next (s.readTj tj.toNat)

/-- R96, R123: an external output, on whenever the rails are, begins or ends limiting. -/
def State.opOutputLimit (s : State) (v18 on : Bool) : State :=
  if ! s.railsOn then s else
  let f := if v18 then F.PWR_OUT_V1V8_OC else F.PWR_OUT_V3V3_OC
  (s.setFlag f on).when on (fun t => t.raise P.PWR (if v18 then E.PWR_V1V8_OC else E.PWR_V3V3_OC))

/-- OUTPUT_LIMIT. -/
def execOutputLimit (v18 on : Bool) (s : State) : Host.Outcome State Fault Refusal := .next (s.opOutputLimit v18 on)

/-- SNAP_COMMIT: a write of PWR_SNAP_CTRL with COMMIT = 1 (R108, R109); COMPLETE and BUSY are written as they read. -/
def execSnapCommit (q : Req) (pages : BitVec 8) (s : State) : Host.Outcome State Fault Refusal :=
  let v := BitVec.ofNat 64 (F.PWR_SNAP_CTRL_COMMIT.at 1 + F.PWR_SNAP_CTRL_PAGES.at pages.toNat
    + F.PWR_SNAP_CTRL_COMPLETE.at (s.fld F.PWR_SNAP_CTRL_COMPLETE) + F.PWR_SNAP_CTRL_BUSY.at (s.fld F.PWR_SNAP_CTRL_BUSY))
  .next (s.gateWrite q R.PWR_SNAP_CTRL .w v (fun t => t.opSnapCtrl q.ni.val v))

/-- R108: every write queued before the commit has completed. -/
def State.opSnapDone (s : State) : State :=
  if s.flag F.PWR_SNAP_CTRL_BUSY ∧ s.power.snapWait = 0 then s.finishCommit.raise P.PWR E.PWR_SNAP_DONE else s

/-- SNAP_DONE. -/
def execSnapDone (s : State) : Host.Outcome State Fault Refusal := .next s.opSnapDone

/-- SNAP_INVALIDATE: a write of PWR_SNAP_CTRL with INVALIDATE = 1 and everything else as it reads (R108). -/
def execSnapInvalidate (q : Req) (s : State) : Host.Outcome State Fault Refusal :=
  let v := BitVec.ofNat 64 (F.PWR_SNAP_CTRL_INVALIDATE.at 1 + F.PWR_SNAP_CTRL_PAGES.at (s.fld F.PWR_SNAP_CTRL_PAGES)
    + F.PWR_SNAP_CTRL_COMPLETE.at (s.fld F.PWR_SNAP_CTRL_COMPLETE) + F.PWR_SNAP_CTRL_BUSY.at (s.fld F.PWR_SNAP_CTRL_BUSY))
  .next (s.gateWrite q R.PWR_SNAP_CTRL .w v (fun t => t.opSnapCtrl q.ni.val v))

/-- R115, Table Belay-3: LSE is lost, or oscillates again. -/
def State.opLseLoss (s : State) (back : Bool) : State :=
  let s1 := (s.setFlag F.CLK_STAT_LSE_OK back).noteAon
  if ! back ∧ s1.awake ∧ s1.flag F.CLK_MON_CFG_LSE then
    ((s1.setFld F.CLK_MON_STAT_LOST (s1.fld F.CLK_MON_STAT_LOST ||| 2)).raise P.CLK E.CLK_LSE_LOST).signal (FaultInput.of 25 0 0 0)
  else s1

/-- LSE_LOSS: `back` says that LSE, which it reported lost, oscillates again. -/
def execLseLoss (back : Bool) (s : State) : Host.Outcome State Fault Refusal := .next (s.opLseLoss back)

/-- R116: TICKS reaches ALARM. -/
def State.opRtcAlarm (s : State) : State :=
  if s.aonTicks ∧ s.flag F.RTC_CTRL_EN ∧ s.flag F.RTC_CTRL_ALARM_EN then
    (s.setFld F.RTC_COUNT_TICKS (max (s.fld F.RTC_COUNT_TICKS) (s.fld F.RTC_ALARM_ALARM))).fireAlarm
  else s

/-- RTC_ALARM. -/
def execRtcAlarm (s : State) : Host.Outcome State Fault Refusal := .next s.opRtcAlarm

/-- R116: a period of 2^SHIFT ticks ends: TICKS stands at the next multiple. -/
def State.opRtcPeriod (s : State) : State :=
  if s.aonTicks ∧ s.flag F.RTC_CTRL_EN ∧ s.flag F.RTC_CTRL_PERIOD_EN then
    let p := 2 ^ s.fld F.RTC_PERIOD_SHIFT
    s.rtcTicks (p - s.fld F.RTC_COUNT_TICKS % p)
  else s

/-- RTC_PERIOD_EVENT. -/
def execRtcPeriodEvent (s : State) : Host.Outcome State Fault Refusal := .next s.opRtcPeriod

/-- CLK_MEAS_START: a write of CLK_MEAS_CTRL with START = 1 (R115). -/
def execClkMeasStart (q : Req) (sel : Fin 8) (s : State) : Host.Outcome State Fault Refusal :=
  let v := BitVec.ofNat 64 (F.CLK_MEAS_CTRL_SEL.at sel.val + F.CLK_MEAS_CTRL_START.at 1)
  .next (s.gateWrite q R.CLK_MEAS_CTRL .w v (fun t => t.opMeasCtrl q.ni.val v))

/-- R115: the measurement ends with the count the clocks gave. -/
def State.opMeasDone (s : State) (count : Nat) : State :=
  if s.awake ∧ s.power.measuring then
    (((s.setFld F.CLK_MEAS_RESULT_COUNT count).setFld F.CLK_MEAS_RESULT_DONE 1).raise P.CLK E.CLK_MEAS_DONE).modPower
      (fun p => { p with measuring := false })
  else s

/-- MEAS_DONE. -/
def execMeasDone (count : BitVec 28) (s : State) : Host.Outcome State Fault Refusal := .next (s.opMeasDone count.toNat)

/-- R130: the end of a system reset. A reset that waits for no PORST_N release ends here, unless something holds it; the harts start
once the straps are latched. -/
def State.opSystemReset (s : State) : State :=
  let s1 := if s.power.phase = .reset ∧ ! s.power.awaitPorst ∧ ! s.resetHeld then
      (s.modPower (fun p => { p with phase := .run })).thermForce else s
  if s1.awake ∧ s1.boot.phase = .start ∧ s1.flag F.BOOT_STRAP_LATCHED ∧ s1.fld F.PWR_STATE_CUR ≤ 1 ∧
      s1.harts.all (fun h => ! h.running) then s1.bootHarts
  else s1

/-- SYSTEM_RESET. -/
def execSystemReset (s : State) : Host.Outcome State Fault Refusal := .next s.opSystemReset

/-- RESET_REQ: a write of 0xC1A5 to SYSCFG_RESET_REQ (R220). -/
def execResetReq (q : Req) (s : State) : Host.Outcome State Fault Refusal :=
  .next (s.gateWrite q R.SYSCFG_RESET_REQ .w 0xC1A5#64 (fun t => t.opResetReq q.ni.val 0xC1A5#64))

/-- TAMPER_EVENT: tamper input `n` has held its level for the filter time (R556). -/
def execTamperEvent (n : Fin 2) (s : State) : Host.Outcome State Fault Refusal := .next (s.opTamper n.val)

end Sys2Proof.Machine
end

