-- ==== Sys2Proof/Machine/Harts.lean ====
section
/-! DEFINITION. The hart commands that touch no memory (R191 to R252, R326, R360, R371): Xoroud, traps and returns, vendor CSRs,
WFI, fences, Scout's limits and ends, counters and waking. -/
namespace Sys2Proof.Machine

/-- LDIVU. -/
def execLdivu (h : Fin 4) (rd rs1 rs2 : Fin 32) (s : State) : Host.Outcome State Fault Refusal := .next (s.xoroud h .ldivu rd rs1 rs2)

/-- ISQRT. -/
def execIsqrt (h : Fin 4) (rd rs1 rs2 : Fin 32) (s : State) : Host.Outcome State Fault Refusal := .next (s.xoroud h .isqrt rd rs1 rs2)

/-- FRCP. -/
def execFrcp (h : Fin 4) (rd rs1 rs2 : Fin 32) (s : State) : Host.Outcome State Fault Refusal := .next (s.xoroud h .frcp rd rs1 rs2)

/-- FLOG2. -/
def execFlog2 (h : Fin 4) (rd rs1 rs2 : Fin 32) (s : State) : Host.Outcome State Fault Refusal := .next (s.xoroud h .flog2 rd rs1 rs2)

/-- FEXP2. -/
def execFexp2 (h : Fin 4) (rd rs1 rs2 : Fin 32) (s : State) : Host.Outcome State Fault Refusal := .next (s.xoroud h .fexp2 rd rs1 rs2)

/-- LMACU. -/
def execLmacu (h : Fin 4) (rd rs1 rs2 : Fin 32) (s : State) : Host.Outcome State Fault Refusal := .next (s.xoroud h .lmacu rd rs1 rs2)

/-- LMACS. -/
def execLmacs (h : Fin 4) (rd rs1 rs2 : Fin 32) (s : State) : Host.Outcome State Fault Refusal := .next (s.xoroud h .lmacs rd rs1 rs2)

/-- LACC.WR. -/
def execLaccWr (h : Fin 4) (rd rs1 rs2 : Fin 32) (s : State) : Host.Outcome State Fault Refusal := .next (s.xoroud h .laccWr rd rs1 rs2)

/-- LACC.RDLO. -/
def execLaccRdlo (h : Fin 4) (rd rs1 rs2 : Fin 32) (s : State) : Host.Outcome State Fault Refusal := .next (s.xoroud h .laccRdlo rd rs1 rs2)

/-- LACC.RDHI. -/
def execLaccRdhi (h : Fin 4) (rd rs1 rs2 : Fin 32) (s : State) : Host.Outcome State Fault Refusal := .next (s.xoroud h .laccRdhi rd rs1 rs2)

/-- CRC32C. -/
def execCrc32c (h : Fin 4) (rd rs1 rs2 : Fin 32) (s : State) : Host.Outcome State Fault Refusal := .next (s.xoroud h .crc32c rd rs1 rs2)

/-- R242: LBAR of hart `h`. -/
def State.opLbar (s : State) (h rd rs1 rs2 : Nat) : State :=
  s.instr h [] Hart.scoutStop (fun s1 => s1.modHart h (fun t => t.lbar rd rs1 rs2))

/-- LBAR. -/
def execLbar (h : Fin 4) (rd rs1 rs2 : Fin 32) (s : State) : Host.Outcome State Fault Refusal := .next (s.opLbar h rd rs1 rs2)

/-- R239, R244: the oldest long operation completes; one that faults wakes a hart in WFI. -/
def State.opLongComplete (s : State) (h : Nat) : State :=
  if ! s.hartLive h then s else
  (s.modHart h (fun t => let u := t.completeOldest; if u.louDue.isSome then u.wake else u)).mirror h

/-- LONG_OP_COMPLETE. -/
def execLongOpComplete (h : Fin 4) (s : State) : Host.Outcome State Fault Refusal := .next (s.opLongComplete h)

/-- A request of hart `h` on the Loom whose response the hart's load or fetch waits for. -/
def LoomTxn.feeds (h : Nat) (x : LoomTxn) : Bool :=
  x.init == h && (match x.use with | .load _ | .fetch _ => true | _ => false)

/-- R245: a load of hart `h` to an I/O region is outstanding: a trap waits for it. -/
def State.ioLoadOut (s : State) (h : Nat) : Bool := s.loom.txns.any (fun x => x.feeds h && ! s.cacheable x.addr)

/-- R245: the outstanding loads of hart `h` to cacheable memory are abandoned: nothing waits for their data any more, or for the flash. -/
def State.abandonLoads (s : State) (h : Nat) : State :=
  if ! s.loom.txns.any (LoomTxn.feeds h) && ! s.boot.xip.any (fun w => w.origin.ofHart h) then s else
  let rest := s.boot.xip.filter (fun w => ! w.origin.ofHart h)
  ({ s with loom := { s.loom with txns := s.loom.txns.map (fun x => if x.feeds h && s.cacheable x.addr then { x with use := .nothing } else x) },
            boot := { s.boot with xip := rest } } : State).setFlag F.OSPI_STAT_XIP_WAIT (! rest.isEmpty)

/-- R242, R244, R250: the fault that is due is delivered, once no Scout run is under way. -/
def State.opLongFault (s : State) (h : Nat) : State :=
  let t := s.hart h
  if ! s.hartLive h || t.scout.isSome || t.louDue.isNone || s.ioLoadOut h then s
  else ((s.abandonLoads h).modHart h (fun u => u.wake.deliverDue)).mirror h

/-- LONG_OP_FAULT. -/
def execLongOpFault (h : Fin 4) (s : State) : Host.Outcome State Fault Refusal := .next (s.opLongFault h)

/-- The code of a system call in the mode it is made in. -/
def Hart.ecallCause (t : Hart) : Nat := if t.priv = 3 then 11 else if t.priv = 1 then (if t.virt then 10 else 9) else 8

/-- R204, Table Harts-1: codes that an instruction of the standard's own raises. -/
def exceptionListed (c : Nat) : Bool := [0, 1, 2, 3, 4, 5, 6, 7, 12, 13, 15, 20, 21, 22, 23].contains c

/-- Table Harts-2: only a guest-page fault has a guest-physical address and an xtinst other than 0. -/
def Trap.guestOnly (r : Trap) : Trap := if r.cause = 20 ∨ r.cause = 21 ∨ r.cause = 23 then r else { r with gpa := 0, tinst := 0 }

/-- R205, R226, R243, R245: a due trap is entered. An interrupt ends a Scout run and wakes a hart in WFI; an exception is one of the
instruction at the pc. -/
def State.opTrap (s : State) (h : Nat) (e : TrapEvent) : State :=
  let t := s.hart h
  if ! s.hartLive h then s else
  match e with
  | .interrupt =>
    match (if s.ioLoadOut h then none else s.interruptDue h) with
    | none => s
    | some c => ((s.abandonLoads h).modHart h (fun u => u.scoutRestore.wake.trapDrained ⟨true, c, 0#64, 0, 0, false⟩)).mirror h
  | .ecall => s.instr h [] Hart.scoutStop (fun s1 => s1.modHart h (fun u => u.trapDrained (Trap.exc u.ecallCause 0#64)))
  | .exception c tval gpa tinst =>
    if ! exceptionListed c || (decide (20 ≤ c.val ∧ c.val ≤ 23) && ! t.virt && decide (c.val = 22)) then s
    else s.instr h [] Hart.scoutStop (fun s1 => s1.modHart h (fun u => u.trapDrained (Trap.guestOnly ⟨false, c, tval, gpa.toNat, tinst.toNat, decide (c.val = 20 ∨ c.val = 21 ∨ c.val = 23)⟩)))

/-- TRAP_ENTRY. -/
def execTrapEntry (h : Fin 4) (e : TrapEvent) (s : State) : Host.Outcome State Fault Refusal := .next (s.opTrap h e)

/-- The exception of an xRET in a mode that may not execute it. -/
def Hart.xretBarred (t : Hart) (k : XretKind) : Option Nat :=
  match k with
  | .mret => if t.priv = 3 then none else some 2
  | .sret =>
    if t.priv = 3 then none
    else if t.priv = 0 then some (if t.virt then 22 else 2)
    else if t.virt then (if t.csrBit 0x600 22 then some 22 else none)
    else if t.csrBit 0x300 22 then some 2 else none

/-- R213, R243, R244: an xRET waits for the LOU; a fault found is taken first and the xRET executes again later. -/
def Hart.xret (t : Hart) (k : XretKind) : Hart :=
  match t.xretBarred k with
  | some c => t.trapDrained (Trap.exc c (match k with | .mret => 0x30200073#64 | .sret => 0x10200073#64))
  | none =>
    let u := t.drainLou
    match u.louDue with
    | some e => u.deliver e
    | none =>
      let v := u.endWindows.instret 1
      let w := match k with | .mret => v.mret | .sret => if v.virt then v.sretVs else v.sretHs
      ({ w with louArmed := true } : Hart).stepEnd

/-- R243: an xRET of hart `h`. -/
def State.opXret (s : State) (h : Nat) (k : XretKind) : State := s.instr h [] Hart.scoutStop (fun s1 => s1.modHart h (fun t => t.xret k))

/-- XRET. -/
def execXret (h : Fin 4) (k : XretKind) (s : State) : Host.Outcome State Fault Refusal := .next (s.opXret h k)

/-- Table Harts-5: CSR numbers. -/
def vendorNum : VendorCsr → Nat
  | .mscout => 0x7C0 | .mloucfg => 0x7C1 | .mloufsr => 0x7C2 | .mloufpc => 0x7C3 | .mprefetch => 0x7C4 | .mguardst => 0x7C5
  | .sloufsr => 0x5C2 | .sloufpc => 0x5C3

/-- The ebreak bit of dcsr for the hart's mode. -/
def Hart.ebreakBit (t : Hart) : Nat :=
  if t.priv = 3 then 15 else if t.virt then (if t.priv = 1 then 17 else 16) else if t.priv = 1 then 13 else 12

/-- R203, R217: ebreak enters debug mode where dcsr says so, else it is a breakpoint exception. -/
def Hart.ebreak (t : Hart) : Hart := if t.csrBit 0x7B0 t.ebreakBit then t.halt 1 else t.trapDrained (Trap.exc 3 t.pc)

/-- R209: the exception of an access to a vendor CSR that the mode does not permit. -/
def Hart.vendorBarred (t : Hart) (c : VendorCsr) : Option Nat :=
  let cfg := t.gov 0x7C1
  let low := decide (c = .sloufsr ∨ c = .sloufpc)
  if t.priv = 3 then none
  else if t.virt then (if low && decide (t.priv = 1) && cfg.testBit 2 && cfg.testBit 3 then none else some 22)
  else if low && decide (t.priv = 1) && cfg.testBit 2 then none else some 2

/-- The value a Zicsr instruction writes, from the old value and its source; none where it writes nothing. -/
def csrNew (t : Hart) (op : CsrOp) (src : CsrSrc) (old : DWord) : Option DWord :=
  let (v, z) : DWord × Bool := match src with
    | .reg r => (t.xr r, decide (r.val = 0))
    | .imm i => (BitVec.ofNat 64 i.val, decide (i.val = 0))
  match op with
  | .write => some v
  | .set => if z then none else some (old ||| v)
  | .clear => if z then none else some (old &&& ~~~ v)

/-- The 32 bits of a Zicsr instruction. -/
def zicsrBits (n : Nat) (op : CsrOp) (src : CsrSrc) (rd : Nat) : DWord :=
  let f := match op with | .write => 1 | .set => 2 | .clear => 3
  let (v, i) : Nat × Nat := match src with | .reg r => (r.val, 0) | .imm x => (x.val, 4)
  BitVec.ofNat 64 (n * 2 ^ 20 + v * 2 ^ 15 + (f + i) * 2 ^ 12 + rd * 2 ^ 7 + 0x73)

/-- The vendor CSR a number stores into: the machine register behind a view (R211). -/
def vendorStore (n : Nat) : Nat := if n = 0x5C2 then 0x7C2 else if n = 0x5C3 then 0x7C3 else n

/-- R210 to R214: the write stores at once; the value in force goes on governing until 4 further instructions have retired. -/
def Hart.vendorSet (t : Hart) (n : Nat) (v : DWord) : Hart :=
  let m := vendorStore n
  let inForce := BitVec.ofNat 64 (t.gov m)
  let u := t.csrWrite n v
  { u with govern := AMap.put u.govern m inForce, windows := u.windows ++ [⟨m, u.csrRaw m, 4⟩] }

/-- R209 to R212: an access to vendor CSR `c`, given what it reads. -/
def Hart.vendorCsr (t : Hart) (c : VendorCsr) (op : CsrOp) (src : CsrSrc) (rd : Nat) (old : DWord) : Hart :=
  match t.vendorBarred c with
  | some x => t.trapDrained (Trap.exc x (zicsrBits (vendorNum c) op src rd))
  | none =>
    let u := (t.setX rd old).retired 1 (t.pc + 4#64)
    let w : Hart := match csrNew t op src old with
      | none => u
      | some v => if c = .mguardst then u else u.vendorSet (vendorNum c) v
    w.stepEnd

/-- The registers a Zicsr instruction reads and writes. -/
def csrSrcRegs (src : CsrSrc) (rd : Nat) : List Nat := match src with | .reg r => [rd, r.val] | .imm _ => [rd]

/-- A Zicsr instruction only reads: it sets or clears with x0 or 0. -/
def csrReads (op : CsrOp) : CsrSrc → Bool
  | .reg r => decide (op ≠ .write ∧ r.val = 0)
  | .imm v => decide (op ≠ .write ∧ v.val = 0)

/-- Table Pipeline-3: a Zicsr instruction that only reads leaves an INV result; one that writes, or would trap, stops the run. -/
def csrInScout (op : CsrOp) (src : CsrSrc) (rd : Nat) (barred : Hart → Option Nat) (t : Hart) : Hart :=
  if csrReads op src && (barred t).isNone then t.scoutSkip rd 4 else t.scoutStop

/-- R212: a vendor CSR instruction of hart `h`. -/
def State.opVendorCsr (s : State) (h : Nat) (c : VendorCsr) (op : CsrOp) (src : CsrSrc) (rd : Nat) : State :=
  s.instr h (csrSrcRegs src rd) (csrInScout op src rd (fun t => t.vendorBarred c)) (fun s1 => s1.modHart h (fun t => t.vendorCsr c op src rd (s1.csrRead h (vendorNum c))))

/-- VENDOR_CSR_WRITE. -/
def execVendorCsrWrite (h : Fin 4) (csr : VendorCsr) (op : CsrOp) (src : CsrSrc) (rd : Fin 32) (s : State) : Host.Outcome State Fault Refusal :=
  .next (s.opVendorCsr h csr op src rd)

/-- R212: the instructions left in the oldest window retire, and leave the pc given; a single step ends behind the first. -/
def Hart.settle (t : Hart) (pc : DWord) : Hart :=
  match t.windows with
  | [] => t
  | w :: _ =>
    let n := if t.stepping then 1 else w.left
    (t.retired n pc).stepEnd

/-- R212: the oldest window of hart `h` ends. -/
def State.opSettlingEnd (s : State) (h : Nat) (pc : DWord) : State := s.instr h [] id (fun s1 => s1.modHart h (fun t => t.settle pc))

/-- SETTLING_END. -/
def execSettlingEnd (h : Fin 4) (pc : DWord) (s : State) : Host.Outcome State Fault Refusal := .next (s.opSettlingEnd h pc)

/-- R196: the exception that TW or VTW makes of WFI. -/
def Hart.wfiBarred (t : Hart) : Option Nat :=
  if t.priv ≠ 3 ∧ t.csrBit 0x300 21 then some 2
  else if t.virt ∧ t.priv = 1 ∧ t.csrBit 0x600 21 then some 22
  else none

/-- R196, R244, R360: WFI goes on at once when it is already awake: a wake condition holds or a fault is held; and it acts as a NOP under
a single step and in debug mode, as the debug specification of R217 has it. -/
def State.opWfi (s : State) (h : Nat) : State :=
  s.instr h [] Hart.scoutStop (fun s1 =>
    let up := s1.wakeCond h || s1.localPending h || (s1.hart h).louDue.isSome || (s1.hart h).stepping || (s1.hart h).debug
    s1.modHart h (fun t =>
      match t.wfiBarred with
      | some c => t.trapDrained (Trap.exc c 0x10500073#64)
      | none => if up then t.retire 4 else { t with wfi := true }))

/-- WFI. -/
def execWfi (h : Fin 4) (s : State) : Host.Outcome State Fault Refusal := .next (s.opWfi h)

/-- The instruction bits of a translation fence. -/
def vmaFenceBits (k : VmaFence) (rs1 rs2 : Nat) : DWord :=
  BitVec.ofNat 64 ((match k with | .sfenceVma => 0x09 | .hfenceVvma => 0x11 | .hfenceGvma => 0x31) * 2 ^ 25 + rs2 * 2 ^ 20 + rs1 * 2 ^ 15 + 0x73)

/-- The exception of a translation fence in a mode that may not execute it. -/
def Hart.fenceBarred (t : Hart) (k : VmaFence) : Option Nat :=
  match k with
  | .sfenceVma =>
    if t.priv = 3 then none
    else if t.priv = 0 then some (if t.virt then 22 else 2)
    else if t.virt then (if t.csrBit 0x600 20 then some 22 else none)
    else if t.csrBit 0x300 20 then some 2 else none
  | .hfenceVvma => if t.virt then some 22 else if t.priv = 0 then some 2 else none
  | .hfenceGvma => if t.virt then some 22 else if t.priv = 0 ∨ (t.priv = 1 ∧ t.csrBit 0x300 20) then some 2 else none

/-- VMID of hgatp. -/
def Hart.vmid (t : Hart) : Nat := Bits.get (t.csrRaw 0x680) 44 14

/-- R206: a held translation that a fence drops; `va` and `id` are none for x0. -/
def Hart.fenced' (t : Hart) (k : VmaFence) (va id : Option Nat) (e : TlbEntry) : Bool :=
  let page := match va with | none => true | some a => decide (a / 4096 / 2 ^ (9 * e.level) = e.vpn / 2 ^ (9 * e.level))
  match k with
  | .hfenceGvma => decide (e.stage = 2) && page && (match id with | none => true | some v => decide (e.vmid = v % 2 ^ 14))
  | k =>
    let guest := t.virt || decide (k = .hfenceVvma)
    decide (e.stage = b2n guest) && (! guest || decide (e.vmid = t.vmid)) && page &&
      (match id with | none => true | some v => decide (e.asid = v % 2 ^ 16) && ! e.global)

/-- R206: a non-leaf PTE held that a fence drops: a fence for one address orders leaf PTEs alone, and leaves it. -/
def Hart.fencedWalk (t : Hart) (k : VmaFence) (va id : Option Nat) (e : WalkEntry) : Bool :=
  va.isNone && t.fenced' k none id { vpn := 0, level := 0, asid := e.asid, global := false, vmid := e.vmid, stage := e.stage, ppn := 0, perm := 0 }

/-- R206: a translation fence acts on the hart's own structures. -/
def Hart.vmaFence (t : Hart) (k : VmaFence) (rs1 rs2 : Nat) : Hart :=
  match t.fenceBarred k with
  | some c => t.trapDrained (Trap.exc c (vmaFenceBits k rs1 rs2))
  | none =>
    let a := (t.xr rs1).toNat
    let va := if rs1 = 0 then none else some (if k = .hfenceGvma then 4 * a else a)
    let id := if rs2 = 0 then none else some (t.xr rs2).toNat
    let keep (l : List TlbEntry) : List TlbEntry := l.filter (fun e => ! t.fenced' k va id e)
    { t with itlb := keep t.itlb, dtlb := keep t.dtlb, tlb := keep t.tlb, tlbLarge := keep t.tlbLarge,
             walk := t.walk.filter (fun e => ! t.fencedWalk k va id e) }.retire 4

/-- R206: a translation fence of hart `h`. -/
def State.opVmaFence (s : State) (h : Nat) (k : VmaFence) (rs1 rs2 : Nat) : State :=
  s.instr h [rs1, rs2] Hart.scoutStop (fun s1 => s1.modHart h (fun t => t.vmaFence k rs1 rs2))

/-- SFENCE_VMA. -/
def execSfenceVma (h : Fin 4) (k : VmaFence) (rs1 rs2 : Fin 32) (s : State) : Host.Outcome State Fault Refusal := .next (s.opVmaFence h k rs1 rs2)

/-- R260: a FENCE. Every access of the hart has completed when its command has, so nothing is left to wait for, whatever the sets. -/
def State.opFence (s : State) (h : Nat) (_pred _succ : Nat) : State := s.instr h [] Hart.scoutStop (fun s1 => s1.modHart h (fun t => t.retire 4))

/-- FENCE. -/
def execFence (h : Fin 4) (pred succ : Fin 16) (s : State) : Host.Outcome State Fault Refusal := .next (s.opFence h pred succ)

/-- R262: fence.i: the hart's fetch sees its own earlier stores: its L1I copies go. -/
def State.opFenceI (s : State) (h : Nat) : State :=
  s.instr h [] Hart.scoutStop (fun s1 =>
    (s1.setLines (s1.memory.lines.filter (fun x => ! decide (x.cache = .l1i h)))).modHart h (fun t => t.retire 4))

/-- FENCE_I. -/
def execFenceI (h : Fin 4) (s : State) : Host.Outcome State Fault Refusal := .next (s.opFenceI h)

/-- R234: a limit is reached: instructions, or cycles; nothing more issues. -/
def State.opScoutLimit (s : State) (h : Nat) (cycles : Bool) : State :=
  match (s.hart h).scout with
  | none => s
  | some c =>
    if ! s.hartLive h || c.stopped then s else
    let lim := (s.hart h).gov 0x7C0
    let c1 := if cycles then { c with cycles := lim / 2 ^ 20 % 1024, stopped := true } else { c with insns := lim / 2 ^ 8 % 1024, stopped := true }
    (s.modHart h (fun u => { u.count 0x12 u.priv u.virt with scout := some c1 })).mirror h

/-- SCOUT_LIMIT. -/
def execScoutLimit (h : Fin 4) (cycles : Bool) (s : State) : Host.Outcome State Fault Refusal := .next (s.opScoutLimit h cycles)

/-- R234, R246, R248: the run ends and the checkpoint is restored: the data are back and the load at the pc completes by its own
access; an interrupt is pending; or a debugger has asked for a halt, which then follows. -/
def State.opScoutEnd (s : State) (h : Nat) (k : ScoutEnd) : State :=
  if ! s.hartLive h || (s.hart h).scout.isNone || (decide (k = .interrupt) && ! s.localPending h) then s
  else (s.modHart h (fun t => if k = .halt then t.scoutRestore.halt 3 else t.scoutRestore)).mirror h

/-- SCOUT_END. -/
def execScoutEnd (h : Fin 4) (k : ScoutEnd) (s : State) : Host.Outcome State Fault Refusal := .next (s.opScoutEnd h k)

/-- R326: hpm counter `n` of hart `h` wraps; it stands still in debug mode with dcsr.stopcount = 1 (R219). -/
def State.opCounterWrap (s : State) (h n : Nat) : State :=
  if ! s.visible.contains h || ! (s.hart h).running || (s.hart h).stopsCount || decide (n < 3 ∨ 10 < n) then s else (s.modHart h (fun t => t.counterWrap n)).mirror h

/-- COUNTER_WRAP. -/
def execCounterWrap (h : Fin 4) (n : Fin 32) (s : State) : Host.Outcome State Fault Refusal := .next (s.opCounterWrap h n)

/-- R360: a source presentable to a context of the hart wakes it from WFI, and from DOZE. -/
def State.opHartWake (s : State) (h : Nat) : State :=
  if ! s.visible.contains h || ! s.wakeCond h then s
  else if s.fld F.PWR_STATE_CUR = 2 then s.opDozeWake
  else if s.hartLive h then (s.modHart h Hart.wake).mirror h else s

/-- HART_WAKE. -/
def execHartWake (h : Fin 4) (s : State) : Host.Outcome State Fault Refusal := .next (s.opHartWake h)

/-- R371: MTIP of the hart has changed: it wakes the hart, from WFI and from DOZE, under the local rules. -/
def State.opMtipChange (s : State) (h : Nat) : State :=
  if ! s.visible.contains h || ! s.mtip h || ! s.localPending h then s
  else if s.fld F.PWR_STATE_CUR = 2 then s.opDozeWake
  else if s.hartLive h then (s.modHart h Hart.wake).mirror h else s

/-- MTIP_CHANGE. -/
def execMtipChange (h : Fin 4) (s : State) : Host.Outcome State Fault Refusal := .next (s.opMtipChange h)

/-- R216, R565: the two copies of a pair's request for `a` are compared before injection. -/
def State.opLockstep (s : State) (pair a : Nat) (differ : Bool) : State :=
  let h := 2 * pair
  if ! s.guarded || ! (s.hart h).running || (s.hart h).fenced || ! s.fabricRuns then s else
  let shot := s.belay.lockstepShots.testBit pair
  let s1 : State := { s with belay := { s.belay with
    lockstepShots := clearBits s.belay.lockstepShots (2 ^ pair),
    mismatch := if differ || shot then s.belay.mismatch ||| 2 ^ pair else s.belay.mismatch } }
  if differ then s1.signal (FaultInput.of (1 + pair) h a 0)
  else if shot then s1.signal { FaultInput.of (1 + pair) h a 0 with injected := true }
  else s1

/-- LOCKSTEP_COMPARE. -/
def execLockstepCompare (pair : Fin 2) (addr : BitVec 40) (differ : Bool) (s : State) : Host.Outcome State Fault Refusal :=
  .next (s.opLockstep pair addr.toNat differ)

end Sys2Proof.Machine
end

