-- ==== Sys2Proof/Machine/UsbOps.lean ====
section
/-! DEFINITION. The USB complex as shared operations (R460 to R489): hub ports, transaction translators and the hub's
requests; host pipes, their admission and the transactions of their items. -/
namespace Sys2Proof.Machine

/-- The complex is clocked: the SoC runs and is not in STOP (R487). -/
def State.usbClocked (s : State) : Bool := decide (s.power.phase = .run) && s.fld F.PWR_STATE_CUR != 3

/-- The part of the complex on the page at `p` works. -/
def State.usbLive (s : State) (p : Nat) : Bool := s.usbClocked && s.running p && ! s.resetting p

/-! ### Items -/

/-- An item of the channel on USB port `port` that executes and is undecided. -/
def State.usbItem (s : State) (port : Nat) : Option (Nat × HeddleChannel × HeddleItem) := s.portItem 7 port

/-- An item on a USB port gets its status. -/
def State.usbEnd (s : State) (port st detail : Nat) : State :=
  match s.usbItem port with
  | none => s
  | some (c, _, it) => s.decideItem c it.index st detail

/-- R408: channel `c` moves data of its item as `f` does, unless a shot of Scree waits for the move check. -/
def State.moving (s : State) (c : Nat) (k : HeddleChannel) (it : HeddleItem) (f : State → State) : State :=
  match s.takeShot c k it with
  | some t => t
  | none => f s

/-! ### Hub ports -/

/-- A bit of wPortStatus of hub port index `p` (USB 2.0; notes/assumptions/40.md). -/
def portBitF (p b : Nat) : Fld := ⟨R.USBHUB_PORT p, b, 1⟩

/-- wPortStatus bits: connection, enable, suspend, over-current, reset, power, low speed, high speed. -/
def State.portIs (s : State) (p b : Nat) : Bool := s.flag (portBitF p b)

/-- A bit of wPortChange is set and reported. -/
def State.portChange (s : State) (p b : Nat) : State := (s.setFld (portBitF p (16 + b)) 1).raise P.USBHUB E.USBHUB_PORT_CHANGE

/-- The speed of what is attached to hub port index `p`: 0 nothing, 1 low, 2 full, 3 high. -/
def State.portLine (s : State) (p : Nat) : Nat := SMap.get (fun _ => 0) s.usb.lines p

/-- What is attached to hub port index `p` changes. -/
def State.setLine (s : State) (p v : Nat) : State := { s with usb := { s.usb with lines := SMap.put (fun _ => 0) s.usb.lines p v } }

/-- A line as a number. -/
def lineCode (l : UsbLine) : Nat := match l with | .low => 1 | .full => 2 | .high => 3

/-- R473: USBH_PIPE_STAT_n.SUSPENDED follows the port of each pipe. -/
def State.syncSuspended (s : State) : State :=
  forEach 48 (fun n t =>
    let p := t.fld (F.USBH_PIPE_CFG_PORT n)
    t.setFlag (F.USBH_PIPE_STAT_SUSPENDED n) (decide (1 ≤ p ∧ p ≤ 4) && t.portIs (p - 1) 2)) s

/-- USBHUB_TT_n.NP_USED counts the buffers held. -/
def State.countTt (s : State) : State :=
  forEach 4 (fun p t => t.setFld (F.USBHUB_TT_NP_USED p) (t.usb.tt.filter (fun b => b.port == p)).length) s

/-- TT buffers that `f` names are freed, and their pipes hold none. -/
def State.freeTt (s : State) (f : TtBuffer → Bool) : State :=
  let gone := s.usb.tt.filter f
  (forAll gone (fun b t => t.setPipe b.pipe { t.pipe b.pipe with split := false })
    { s with usb := { s.usb with tt := s.usb.tt.filter (fun b => ! f b) } }).countTt

/-- R484: items in progress on pipes behind hub port index `p` end. -/
def State.portGone (s : State) (p : Nat) : State :=
  forEach 48 (fun n t => if t.fld (F.USBH_PIPE_CFG_PORT n) = p + 1 then t.usbEnd (0x40 + n) 4 4 else t) s

/-- R470: port index `p` disconnects and is disabled. -/
def State.disconnect (s : State) (p : Nat) : State :=
  let s1 := if s.portIs p 0 then s.portChange p 0 else s
  ((((((s1.setFld (portBitF p 0) 0).setFld (portBitF p 1) 0).setFld (portBitF p 2) 0).setFld (portBitF p 9) 0).setFld
    (portBitF p 10) 0).portGone p).syncSuspended

/-- R470: PORT_POWER: refused while the filtered over-current input is low; else the port is powered, and what is attached
to it connects. -/
def State.opPortPower (s : State) (p : Nat) : State :=
  if s.flag (F.USBHUB_OC_ACTIVE p) then (s.setFld (portBitF p 8) 0).setFld (portBitF p 3) 1
  else
    let s1 := s.setFld (portBitF p 8) 1
    if s1.portLine p ≠ 0 ∧ ! s1.portIs p 0 then
      ((s1.setFld (portBitF p 0) 1).setFlag (portBitF p 9) (s1.portLine p == 1)).portChange p 0
    else s1

/-- R470: the port's power goes, and the port disconnects. -/
def State.opClearPortPower (s : State) (p : Nat) : State :=
  ((s.setFld (portBitF p 8) 0).disconnect p).freeTt (fun b => b.port == p)

/-- R470, R483: an over-current switches the port off at once and is counted. -/
def State.opOverCurrent (s : State) (p : Nat) : State :=
  let s1 := ((s.setFld (portBitF p 8) 0).setFld (portBitF p 1) 0).setFld (portBitF p 3) 1
  ((((s1.portChange p 3).setFld (F.USBHUB_OC_ACTIVE p) 1).bumpSat (F.USBHUB_OC_COUNT p) (F.USBHUB_OC_SAT p)).raise
    P.USBHUB E.USBHUB_OVER_CURRENT).portGone p

/-- R470: the input has been high for OC_FILT. -/
def State.opOverCurrentClear (s : State) (p : Nat) : State := (s.setFld (F.USBHUB_OC_ACTIVE p) 0).setFld (portBitF p 3) 0

/-- R471, R482: the reset of a powered, connected port ends: its speed follows the chirp or the idle line, and it is
enabled. -/
def State.opPortReset (s : State) (p : Nat) : State :=
  if ! (s.portIs p 8 && s.portIs p 0) then s else
  (((((s.setFld (portBitF p 4) 0).setFld (portBitF p 2) 0).setFld (portBitF p 1) 1).setFlag (portBitF p 9) (s.portLine p == 1)).setFlag
    (portBitF p 10) (s.portLine p == 3)).portChange p 4 |>.syncSuspended

/-- R473: an enabled port is suspended. -/
def State.opPortSuspend (s : State) (p : Nat) : State :=
  if s.portIs p 1 then (s.setFld (portBitF p 2) 1).syncSuspended else s

/-- R473: a suspended port resumes. -/
def State.opPortResume (s : State) (p : Nat) : State :=
  if s.portIs p 2 then ((s.setFld (portBitF p 2) 0).portChange p 2).syncSuspended else s

/-- R472: ClearTTBuffer for the named endpoint; a control endpoint has no direction. -/
def State.opClearTt (s : State) (p addr ep : Nat) (dirIn : Bool) : State :=
  s.freeTt (fun b => b.port == p && b.addr == addr && b.ep == ep && (b.control || b.dirIn == dirIn))

/-- R472: ResetTT: every buffer and entry of the port's TT. -/
def State.opResetTt (s : State) (p : Nat) : State :=
  let s1 := s.freeTt (fun b => b.port == p)
  forEach 48 (fun n t => if t.fld (F.USBH_PIPE_CFG_PORT n) = p + 1 then t.setPipe n { t.pipe n with since := none } else t) s1

/-- R484: a device leaves port index `p`, and the hub disables the port. -/
def State.opDetached (s : State) (p : Nat) : State := (s.setLine p 0).disconnect p

/-- R467: the internal link is reset: the hub returns to its default state, its ports as if power had been removed. -/
def State.opRootReset (s : State) : State :=
  let s1 := forEach 4 (fun p t => ((t.opClearPortPower p).opResetTt p).setReg (R.USBHUB_PORT p) 0#64) s
  let s2 : State := { s1 with usb := { s1.usb with hubId := (s1.raw R.USBHUB_ID).toNat % 2 ^ 32, hubToggle := false, hubHalt := false, test := [] } }
  (((s2.setReg R.USBHUB_STAT 0#64).setFld F.USBH_STAT_HUB_ADDR 0).setFld F.USBH_STAT_RESETTING 0).raise P.USBH E.USBH_ROOT_RESET_DONE

/-! ### Requests of the hub -/

/-- Table USB-7: the device descriptor. -/
def hubDevice (s : State) : List Byte :=
  [18#8, 1#8, 0#8, 2#8, 9#8, 0#8, 2#8, 64#8] ++ leBytes 4 s.usb.hubId ++ [0xB1#8, 0#8, 0#8, 0#8, 0#8, 1#8]

/-- Table USB-7: one alternate setting: interface and endpoint. -/
def hubInterface (alt : Nat) : List Byte :=
  [9#8, 4#8, 0#8, BitVec.ofNat 8 alt, 1#8, 9#8, 0#8, BitVec.ofNat 8 (alt + 1), 0#8, 7#8, 5#8, 0x81#8, 3#8, 1#8, 0#8, 12#8]

/-- Table USB-7: the configuration descriptor. -/
def hubConfiguration : List Byte := [9#8, 2#8, 41#8, 0#8, 1#8, 1#8, 0#8, 0xC0#8, 0#8] ++ hubInterface 0 ++ hubInterface 1

/-- Table USB-7: the hub descriptor. -/
def hubDescriptor (s : State) : List Byte :=
  [9#8, 0x29#8, 4#8, 9#8, 0#8, BitVec.ofNat 8 (s.fld F.USBHUB_CFG_PWR_GOOD), 0#8, 0#8, 0xFF#8]

/-- Table USB-7: the status-change byte on endpoint 0x81. -/
def hubChanges (s : State) : Nat :=
  (List.range 4).foldl (fun m p => if s.fld (F.USBHUB_PORT_CHANGE p) != 0 then m + 2 ^ (p + 1) else m) 0

/-- R469: a port request; port numbers are 1 to 4. A port enters the test mode that the selector names. -/
def hubPortRequest (s : State) (set : Bool) (feature index : Nat) : Option State :=
  let p := index % 256 - 1
  if index % 256 = 0 ∨ 4 < index % 256 then none
  else if set then
    if feature = 2 then some (s.opPortSuspend p)
    else if feature = 4 then some (s.opPortReset p)
    else if feature = 8 then some (s.opPortPower p)
    else if feature = 21 then
      (if 1 ≤ index / 256 % 256 ∧ index / 256 % 256 ≤ 5 then
        some ({ s with usb := { s.usb with test := AMap.put s.usb.test p (index / 256 % 256) } }.setFld (portBitF p 11) 1)
       else none)
    else none
  else if feature = 1 then some (((s.setFld (portBitF p 1) 0).portGone p))
  else if feature = 2 then some (s.opPortResume p)
  else if feature = 8 then some (s.opClearPortPower p)
  else if 16 ≤ feature ∧ feature ≤ 20 then some (s.setFld (portBitF p feature) 0)
  else none

/-- R469: the standard requests of the hub: the state after and the data answered, or none for STALL. -/
def hubStandard (s : State) (ty req value index : Nat) : Option (State × List Byte) :=
  if ty = 0x80 ∧ req = 0 then some (s, [1#8, 0#8])
  else if ty = 0x81 ∧ req = 0 then some (s, [0#8, 0#8])
  else if ty = 0x82 ∧ req = 0 then
    (if index % 256 = 0 then some (s, [0#8, 0#8])
     else if index % 256 = 0x81 then some (s, [BitVec.ofNat 8 (b2n s.usb.hubHalt), 0#8]) else none)
  else if ty = 0 ∧ req = 1 then (if value = 1 then some (s, []) else none)
  else if ty = 2 ∧ (req = 1 ∨ req = 3) then
    (if value = 0 ∧ index % 256 = 0x81 then
       some ({ s with usb := { s.usb with hubHalt := decide (req = 3), hubToggle := if req = 1 then false else s.usb.hubToggle } }, [])
     else none)
  else if ty = 0 ∧ req = 5 then
    some ((s.setFld F.USBHUB_STAT_ADDR (value % 128)).setFld F.USBH_STAT_HUB_ADDR (value % 128), [])
  else if ty = 0x80 ∧ req = 6 then
    (if value / 256 = 1 then some (s, hubDevice s) else if value / 256 = 2 then some (s, hubConfiguration)
     else if value / 256 = 0x29 then some (s, hubDescriptor s) else none)
  else if ty = 0x80 ∧ req = 8 then some (s, [BitVec.ofNat 8 (s.fld F.USBHUB_STAT_CONFIGURED)])
  else if ty = 0 ∧ req = 9 then
    (if value ≤ 1 then some ((({ s with usb := { s.usb with hubToggle := false, hubHalt := false } }.setFld F.USBHUB_STAT_CONFIGURED value).setFld
      F.USBHUB_STAT_ALT 0), []) else none)
  else if ty = 0x81 ∧ req = 10 then some (s, [BitVec.ofNat 8 (s.fld F.USBHUB_STAT_ALT)])
  else if ty = 1 ∧ req = 11 then
    (if value ≤ 1 then some (({ s with usb := { s.usb with hubToggle := false } }.setFld F.USBHUB_STAT_ALT value), []) else none)
  else none

/-- R469: the hub-class requests. -/
def hubClass (s : State) (ty req value index : Nat) : Option (State × List Byte) :=
  if ty = 0xA0 ∧ req = 6 then some (s, hubDescriptor s)
  else if ty = 0xA0 ∧ req = 0 then some (s, [0#8, 0#8, 0#8, 0#8])
  else if ty = 0xA3 ∧ req = 0 then
    (if 1 ≤ index % 256 ∧ index % 256 ≤ 4 then some (s, leBytes 4 (s.raw (R.USBHUB_PORT (index % 256 - 1))).toNat) else none)
  else if ty = 0x20 ∧ req = 1 then (if value ≤ 1 then some (s, []) else none)
  else if ty = 0x23 ∧ req = 1 then (hubPortRequest s false value index).map (fun t => (t, []))
  else if ty = 0x23 ∧ req = 3 then (hubPortRequest s true value index).map (fun t => (t, []))
  else if ty = 0x23 ∧ req = 8 then
    (if 1 ≤ index % 256 ∧ index % 256 ≤ 4 then
      some (s.opClearTt (index % 256 - 1) (value / 16 % 128) (value % 16) (value.testBit 15), []) else none)
  else if ty = 0x23 ∧ req = 9 then
    (if 1 ≤ index % 256 ∧ index % 256 ≤ 4 then some (s.opResetTt (index % 256 - 1), []) else none)
  else none

/-- R469: the hub's answer to a setup packet: data cut to wLength, or none for STALL. -/
def hubRequest (s : State) (setup : Nat) : Option (State × List Byte) :=
  let ty := setup % 256
  let req := setup / 2 ^ 8 % 256
  let value := setup / 2 ^ 16 % 2 ^ 16
  let index := setup / 2 ^ 32 % 2 ^ 16
  let len := setup / 2 ^ 48 % 2 ^ 16
  let r := if ty / 32 % 4 = 0 then hubStandard s ty req value index else hubClass s ty req value index
  r.map (fun x => (x.1, x.2.take len))

/-! ### Pipes and their admission -/

/-- The fields of a pipe configuration word. -/
structure PipeCfg where
  /-- ADDR -/
  addr : Nat
  /-- EP -/
  ep : Nat
  /-- DIR IN -/
  dirIn : Bool
  /-- TYPE: 0 control, 1 isochronous, 2 bulk, 3 interrupt -/
  ty : Nat
  /-- SPEED: 0 HS, 1 FS, 2 LS -/
  speed : Nat
  /-- MPS -/
  mps : Nat
  /-- MULT -/
  mult : Nat
  /-- EN -/
  en : Bool
  /-- INTERVAL -/
  interval : Nat
  /-- PHASE -/
  phase : Nat
  /-- PORT -/
  port : Nat
deriving DecidableEq, Repr

/-- USBH_PIPE_CFG_n as fields. -/
def PipeCfg.of (v : DWord) : PipeCfg :=
  ⟨(F.USBH_PIPE_CFG_ADDR 0).of v, (F.USBH_PIPE_CFG_EP 0).of v, (F.USBH_PIPE_CFG_DIR 0).of v != 0, (F.USBH_PIPE_CFG_TYPE 0).of v,
   (F.USBH_PIPE_CFG_SPEED 0).of v, (F.USBH_PIPE_CFG_MPS 0).of v, (F.USBH_PIPE_CFG_MULT 0).of v, (F.USBH_PIPE_CFG_EN 0).of v != 0,
   (F.USBH_PIPE_CFG_INTERVAL 0).of v, (F.USBH_PIPE_CFG_PHASE 0).of v, (F.USBH_PIPE_CFG_PORT 0).of v⟩

/-- The configuration of pipe `n`. -/
def State.pipeCfg (s : State) (n : Nat) : PipeCfg := PipeCfg.of (s.raw (R.USBH_PIPE_CFG n))

/-- Isochronous or interrupt. -/
def PipeCfg.periodic (c : PipeCfg) : Bool := c.ty == 1 || c.ty == 3

/-- The pipe is reached by split transactions. -/
def PipeCfg.viaTt (c : PipeCfg) : Bool := c.speed != 0

/-- Table USB-6. -/
def PipeCfg.mpsLegal (c : PipeCfg) : Bool :=
  if c.ty = 0 then (if c.speed = 0 then c.mps == 64 else if c.speed = 1 then [8, 16, 32, 64].contains c.mps else c.mps == 8)
  else if c.ty = 2 then (if c.speed = 0 then c.mps == 512 else if c.speed = 1 then [8, 16, 32, 64].contains c.mps else false)
  else if c.ty = 3 then
    decide (1 ≤ c.mps ∧ c.mps ≤ if c.speed = 0 then 1024 else if c.speed = 1 then 64 else 8)
  else if c.speed = 2 then false else decide (1 ≤ c.mps ∧ c.mps ≤ if c.speed = 0 then 1024 else 1023)

/-- Table USB-5, reason 5. -/
def PipeCfg.fieldBad (c : PipeCfg) : Bool :=
  decide (2 < c.speed) || ! c.mpsLegal || c.mult == 0 || (c.mult != 1 && ! (c.speed == 0 && c.periodic)) ||
    decide (4 < c.port) || (c.port == 0 && c.speed != 0) || decide (12 < c.interval) || decide (2 ^ c.interval ≤ c.phase) ||
    (c.viaTt && c.periodic && (decide (c.interval < 3) || decide (3 < c.phase % 8)))

/-- R465: the pipe is due in microframe `m`. -/
def PipeCfg.due (c : PipeCfg) (m : Nat) : Bool := m % 2 ^ c.interval == c.phase

/-- R466 (U1): what the pipe adds to the high-speed load of microframe `m`. -/
def PipeCfg.hsLoad (c : PipeCfg) (m : Nat) : Nat :=
  if ! c.viaTt then (if c.due m then c.mult * (c.mps + 64) else 0)
  else
    (if c.due m then 40 + (if c.dirIn then 0 else c.mps) else 0) +
      ([2, 3, 4].foldl (fun k d => if c.due ((m + 4096 - d) % 4096) then k + 40 + (if c.dirIn then c.mps else 0) else k) 0)

/-- R466 (U3): the bus time of a split transaction behind the TT. -/
def PipeCfg.ttCost (c : PipeCfg) : Nat := if c.speed = 2 then 8 * (c.mps + 12) else c.mps + 12

/-- R466 (U3): what the pipe adds in frame `f`. -/
def PipeCfg.ttLoad (c : PipeCfg) (f : Nat) : Nat :=
  (List.range 8).foldl (fun k u => if c.due (8 * f + u) then k + c.ttCost else k) 0

/-- A sum over pipes. -/
def sumOver (ps : List PipeCfg) (f : PipeCfg → Nat) : Nat := ps.foldl (fun k c => k + f c) 0

/-- The enabled periodic pipes, but for pipe `n`. -/
def State.livePeriodic (s : State) (n : Nat) : List PipeCfg :=
  ((List.range 48).filter (fun k => k != n)).filterMap (fun k =>
    let c := s.pipeCfg k
    if c.en && c.periodic then some c else none)

/-- The split pipes of a hub port. -/
def splitsOn (ps : List PipeCfg) (port : Nat) : List PipeCfg := ps.filter (fun c => c.viaTt && c.port == port)

/-- R466: the first admission condition that fails, as a refusal reason and CLAMP_KEPT. -/
def admission (ps : List PipeCfg) : Option (Nat × Nat) :=
  match (List.range 4096).find? (fun m => decide (6000 < sumOver ps (fun c => c.hsLoad m))) with
  | some m => some (1, m + 2 ^ 16 * sumOver ps (fun c => c.hsLoad m))
  | none =>
    match ((List.range 4).flatMap (fun p => (List.range 4096).map (fun m => (p + 1, m)))).find?
        (fun x => decide (16 < ((splitsOn ps x.1).filter (fun c => c.due x.2)).length)) with
    | some (p, m) => some (2, m + 2 ^ 12 * p)
    | none =>
      match ((List.range 4).flatMap (fun p => (List.range 512).map (fun f => (p + 1, f)))).find?
          (fun x => decide (1157 < sumOver (splitsOn ps x.1) (fun c => c.ttLoad x.2))) with
      | some (p, f) => some (3, f + 2 ^ 12 * p)
      | none => none

/-- R466: USBH_LOAD shows the largest live sums. -/
def State.updateLoad (s : State) : State :=
  let ps := s.livePeriodic 48
  let hs := if ps.isEmpty then 0 else (List.range 4096).foldl (fun k m => max k (sumOver ps (fun c => c.hsLoad m))) 0
  let fs := (List.range 4).foldl (fun k p =>
    let qs := splitsOn ps (p + 1)
    if qs.isEmpty then k else (List.range 512).foldl (fun j f => max j (sumOver qs (fun c => c.ttLoad f))) k) 0
  (s.setFld F.USBH_LOAD_HS_MAX hs).setFld F.USBH_LOAD_FS_MAX fs

/-- R463: the channel bound to pipe `n` is ACTIVE or WAIT_CQ. -/
def State.pipeBusy (s : State) (n : Nat) : Bool :=
  s.heddle.ch.any (fun e => decide (e.2.e.kind = 7 ∧ e.2.e.port = 0x40 + n) && (e.2.state == 2 || e.2.state == 3))

/-- R463, R466: a write to USBH_PIPE_CFG_n: the checks of Table USB-5 in order; refused whole or stored. -/
def State.opPipeCfg (s : State) (ni n : Nat) (v : DWord) : State :=
  let a := R.USBH_PIPE_CFG n
  let c := PipeCfg.of v
  let old := s.pipeCfg n
  if c.fieldBad then s.refuse ni a 5 v n
  else if decide ({ c with en := old.en } ≠ old) && s.pipeBusy n then s.refuse ni a 4 v n
  else
    match (if c.periodic then admission (s.livePeriodic n ++ [c]) else none) with
    | some (reason, detail) => (s.refuse ni a reason v detail).raise P.USBH E.USBH_SCHED_REFUSED
    | none => ((s.storeReg ni a v).1.updateLoad).syncSuspended

/-- R463, R467: a write to USBH_CTRL. -/
def State.opUsbhCtrl (s : State) (ni : Nat) (v : DWord) : State :=
  let (s1, act) := s.storeReg ni R.USBH_CTRL v
  let s2 := s1.setFlag F.USBH_STAT_RUNNING (s1.flag F.USBH_CTRL_RUN && s1.running P.USBH)
  if F.USBH_CTRL_ROOT_RESET.of act = 0 ∨ ! s2.usbLive P.USBH then s2 else s2.opRootReset

/-! ### Transactions of host pipes -/

/-- R465, R479: an item is ready on pipe `n`, which is not halted, and its port passes traffic: not suspended. -/
def State.pipeReady (s : State) (n : Nat) : Bool :=
  (s.usbItem (0x40 + n)).isSome && ! s.flag (F.USBH_PIPE_STAT_SUSPENDED n) && ! s.flag (F.USBH_PIPE_STAT_HALTED n)

/-- Table USB-4: a reason that ends the item of pipe `n` before any token: not enabled, or its hub port is not usable. -/
def State.pipeBlocked (s : State) (n : Nat) : Option Nat :=
  let c := s.pipeCfg n
  if ! c.en then some 7
  else if c.port ≠ 0 ∧ ! (s.portIs (c.port - 1) 0 && s.portIs (c.port - 1) 1 && s.portIs (c.port - 1) 8) then some 4
  else none

/-- R462, R401: the OP of an item fits the pipe, and its reserved PARAM bits are 0. -/
def usbOpBad (control : Bool) (it : HeddleItem) : Bool := decide (it.op ≠ b2n control) || it.param / 2 != 0

/-- R464: PRIO of the channel on pipe `n`. -/
def State.pipePrio (s : State) (n : Nat) : Nat :=
  match s.usbItem (0x40 + n) with | some (_, k, _) => k.e.prio | none => 0

/-- R464: the asynchronous pipe whose turn it is: one whose transaction has just failed, else the highest PRIO, control before bulk,
round-robin among equals. -/
def State.asyncTurn (s : State) : Option Nat :=
  let cand := (List.range 48).filter (fun n =>
    let c := s.pipeCfg n
    c.en && ! c.periodic && s.pipeReady n && (s.pipe n).hold == 0)
  let key (n : Nat) : Nat := 2 * s.pipePrio n + b2n (decide ((s.pipeCfg n).ty = 0))
  match cand, cand.find? (fun n => (s.pipe n).errs != 0) with
  | [], _ => none
  | _, some n => some n
  | _, none =>
    let m := cand.foldl (fun b n => max b (key n)) 0
    let cs := cand.filter (fun n => key n == m)
    let last := (AMap.get? s.usb.served m).getD 47
    (cs.find? (fun n => decide (last < n))).orElse (fun _ => cs.head?)

/-- R464: a due periodic pipe can still make a transaction in this microframe. -/
def State.periodicLeft (s : State) : Bool :=
  s.usb.due.any (fun e => s.pipeReady e.1 && (s.pipeBlocked e.1).isNone &&
    (match s.usbItem (0x40 + e.1) with | some (c, k, it) => s.mayIssue c k && ! usbOpBad false it | none => false))

/-- R464, R465: pipe `n` may send a token now: it is due in this microframe, or no periodic pipe is left and its turn has
come. -/
def State.mayToken (s : State) (n : Nat) : Bool :=
  s.usbLive P.USBH && s.flag F.USBH_CTRL_RUN && s.pipeReady n &&
    (if (s.pipeCfg n).periodic then s.usb.due.any (fun e => e.1 == n) else ! s.periodicLeft && decide (s.asyncTurn = some n))

/-- One turn of pipe `n` is used. -/
def State.useTurn (s : State) (n : Nat) : State :=
  if (s.pipeCfg n).periodic then
    { s with usb := { s.usb with due := s.usb.due.filterMap (fun e =>
        if e.1 = n then (if e.2 ≤ 1 then none else some (n, e.2 - 1)) else some e) } }
  else
    let key := 2 * s.pipePrio n + b2n (decide ((s.pipeCfg n).ty = 0))
    { s with usb := { s.usb with served := AMap.put s.usb.served key n } }

/-- The toggle of pipe `n`. -/
def State.flipToggle (s : State) (n : Nat) : State := s.setFlag (F.USBH_PIPE_STAT_TOGGLE n) (! s.flag (F.USBH_PIPE_STAT_TOGGLE n))

/-- R464: a transaction error: counted; retried at once (State.asyncTurn; a high-speed interrupt pipe stays due), and the third in a
row ends the item. -/
def State.xactError (s : State) (n : Nat) : State :=
  let s1 := (s.bumpSat F.USBH_ERR_COUNT F.USBH_ERR_SAT).raise P.USBH E.USBH_XACT_ERR
  let e := (s1.pipe n).errs + 1
  if 3 ≤ e then s1.usbEnd (0x40 + n) 4 2
  else
    let c := s1.pipeCfg n
    let s2 : State := if c.periodic && ! c.viaTt then { s1 with usb := { s1.usb with due := s1.usb.due ++ [(n, 1)] } } else s1
    s2.setPipe n { s2.pipe n with errs := e }

/-- R464, R465: an answer NAK: an asynchronous pipe is passed over for NAK_HOLDOFF microframes, an interrupt pipe waits for its next due
microframe. -/
def State.xactNak (s : State) (n : Nat) (ping : Bool) : State :=
  if (s.pipeCfg n).periodic then
    ({ s with usb := { s.usb with due := s.usb.due.filter (fun e => e.1 != n) } } : State).setPipe n { s.pipe n with errs := 0 }
  else s.setPipe n { s.pipe n with hold := s.fld F.USBH_CTRL_NAK_HOLDOFF, ping := ping, errs := 0 }

/-- R464: a high-speed OUT packet answered NYET was taken, and a PING goes before the next. -/
def State.xactNyet (s : State) (n : Nat) : State := s.setPipe n { s.pipe n with ping := true, errs := 0 }

/-- The errors in a row are over. -/
def State.xactGood (s : State) (n : Nat) : State := s.setPipe n { s.pipe n with errs := 0 }

/-- One transaction of an item that sends data: the next packet at most MPS long, then a zero-length packet when asked for. -/
def State.pipeOut (s : State) (n : Nat) (cfg : PipeCfg) (c : Nat) (k : HeddleChannel) (it : HeddleItem) (r : UsbReply) : State :=
  let port := 0x40 + n
  let size := min cfg.mps (it.len - it.done)
  let zlp := it.param % 2 = 1 ∧ it.len % cfg.mps = 0 ∧ cfg.ty ≠ 1
  if (s.pipe n).ping && r == .ack then s.setPipe n { s.pipe n with ping := false, errs := 0 }
  else s.moving c k it fun s =>
    let x := s.heddleRead c k.e.inst 1 (it.src + it.done) size
    match x.fail with
    | some (st, d) => x.s.usbEnd port st d
    | none =>
      let s1 := x.s
      let took := r == .ack || r == .nyet || cfg.ty == 1
      if took then
        let s2 := (s1.progress c it.index (fun i => { i with started := true, done := it.done + size, bytes := it.bytes + size })).xactGood n
        let s3 := if cfg.ty = 1 then s2 else s2.flipToggle n
        let s4 := if r == .nyet && cfg.speed == 0 then s3.xactNyet n else s3
        if it.done + size < it.len then s4
        else if zlp ∧ (s.pipe n).stage ≠ 2 ∧ size ≠ 0 then s4.setPipe n { s4.pipe n with stage := 2 }
        else s4.usbEnd port 0 0
      else match r with
        | .nak => s1.xactNak n (decide (cfg.speed = 0 ∧ (cfg.ty = 0 ∨ cfg.ty = 2)))
        | .stall => s1.usbEnd port 4 1
        | .babble => s1.usbEnd port 4 3
        | .ttErr => s1.usbEnd port 4 5
        | _ => s1.xactError n

/-- One transaction of an item that takes data: a packet with the wrong toggle is acknowledged and dropped. -/
def State.pipeIn (s : State) (n : Nat) (cfg : PipeCfg) (c : Nat) (k : HeddleChannel) (it : HeddleItem) (r : UsbReply) : State :=
  let port := 0x40 + n
  let len := if cfg.ty = 1 then min it.len (cfg.mps * cfg.mult) else it.len
  match r with
  | .data t bs =>
    if cfg.ty ≠ 1 ∧ t ≠ s.flag (F.USBH_PIPE_STAT_TOGGLE n) then s.xactGood n
    else if cfg.mps < bs.length ∨ len - it.done < bs.length then s.usbEnd port 4 3
    else s.moving c k it fun s =>
      let x := s.heddleWrite c k.e.inst (it.dst + it.done) bs
      let s1 := (x.s.progress c it.index (fun i => { i with started := true, done := it.done + x.done, bytes := it.bytes + x.done })).xactGood n
      match x.fail with
      | some (st, d) => s1.usbEnd port st d
      | none =>
        let s2 := if cfg.ty = 1 then s1 else s1.flipToggle n
        if it.done + bs.length = len then s2.usbEnd port 0 0
        else if bs.length < cfg.mps then s2.usbEnd port 1 0
        else if cfg.ty = 1 ∧ ! s2.usb.due.any (fun e => e.1 == n) then s2.usbEnd port 1 0
        else s2
  | .nak => s.xactNak n false
  | .stall => s.usbEnd port 4 1
  | .babble => s.usbEnd port 4 3
  | .ttErr => s.usbEnd port 4 5
  | _ =>
    if cfg.ty = 1 then
      (((s.bumpSat F.USBH_ERR_COUNT F.USBH_ERR_SAT).raise P.USBH E.USBH_XACT_ERR).modItem c it.index
        (fun i => { i with started := true, bytes := 0 })).usbEnd port 1 0
    else s.xactError n

/-- R461, R465: the LEN of an isochronous item is at most MPS × MULT; a longer one is cut and noted (R401). -/
def State.isoCut (s : State) (iso : Bool) (most c : Nat) (it : HeddleItem) : State :=
  if iso ∧ most < it.len then s.modItem c it.index (fun i => { i with len := most, clamp := 2 }) else s

/-- R461, R464: one transaction of a DATA item on pipe `n`. -/
def State.dataXact (s : State) (n : Nat) (r : UsbReply) : State :=
  match s.usbItem (0x40 + n) with
  | none => s
  | some (c, k, it) =>
    let cfg := s.pipeCfg n
    let s1 := s.isoCut (cfg.ty == 1) (cfg.mps * cfg.mult) c it
    let it1 := if cfg.ty = 1 then { it with len := min it.len (cfg.mps * cfg.mult) } else it
    if cfg.dirIn then s1.pipeIn n cfg c k it1 r else s1.pipeOut n cfg c k it1 r

/-- R462, Table USB-3: the setup packet of a CONTROL item, or none when its LEN disagrees with it; a failed read ends it. -/
def State.controlSetup (s : State) (n c : Nat) (k : HeddleChannel) (it : HeddleItem) : State × Option Nat :=
  let x := s.heddleRead c k.e.inst 1 it.src 8
  match x.fail with
  | some (st, d) => (x.s.usbEnd (0x40 + n) st d, none)
  | none =>
    let v := leNat x.data
    let w := v / 2 ^ 48 % 2 ^ 16
    if it.len = (if v.testBit 7 then 8 else 8 + w) then (x.s, some v) else (x.s.usbEnd (0x40 + n) 11 2, none)

/-- The status of a CONTROL item whose stages are done. -/
def State.controlDone (s : State) (n v bytes : Nat) : State :=
  if v.testBit 7 ∧ bytes < v / 2 ^ 48 % 2 ^ 16 then s.usbEnd (0x40 + n) 1 0 else s.usbEnd (0x40 + n) 0 0

/-- A CONTROL transfer to the embedded hub, whose answer the model gives itself. -/
def State.controlHub (s : State) (n c : Nat) (k : HeddleChannel) (it : HeddleItem) (v : Nat) : State :=
  match hubRequest s v with
  | none => s.usbEnd (0x40 + n) 4 1
  | some (s1, bs) =>
    if ! v.testBit 7 then
      (s1.modItem c it.index (fun i => { i with started := true, bytes := v / 2 ^ 48 % 2 ^ 16 })).controlDone n v 0
    else s1.moving c k it fun s1 =>
      let x := s1.heddleWrite c k.e.inst it.dst bs
      let s2 := x.s.progress c it.index (fun i => { i with started := true, bytes := x.done })
      match x.fail with
      | some (st, d) => s2.usbEnd (0x40 + n) st d
      | none => s2.controlDone n v bs.length

/-- One transaction of a CONTROL item on pipe `n` with a device that is not the hub: setup, data, then status. -/
def State.controlXact (s : State) (n : Nat) (c : Nat) (k : HeddleChannel) (it : HeddleItem) (v : Nat) (r : UsbReply) : State :=
  let port := 0x40 + n
  let cfg := s.pipeCfg n
  let w := v / 2 ^ 48 % 2 ^ 16
  let inn := v.testBit 7
  let stage := (s.pipe n).stage
  let fail (t : State) : State := match r with
    | .nak => t.xactNak n false
    | .stall => t.usbEnd port 4 1
    | .babble => t.usbEnd port 4 3
    | .ttErr => t.usbEnd port 4 5
    | _ => t.xactError n
  if stage = 0 then
    if r == .ack then
      ((s.startItem c it.index).setFld (F.USBH_PIPE_STAT_TOGGLE n) 1).setPipe n { s.pipe n with stage := if w = 0 then 2 else 1, errs := 0, ping := false }
    else fail s
  else if stage = 1 ∧ inn then
    match r with
    | .data t bs =>
      if t ≠ s.flag (F.USBH_PIPE_STAT_TOGGLE n) then s.xactGood n
      else if cfg.mps < bs.length ∨ w - it.bytes < bs.length then s.usbEnd port 4 3
      else s.moving c k it fun s =>
        let x := s.heddleWrite c k.e.inst (it.dst + it.bytes) bs
        let s1 := (x.s.progress c it.index (fun i => { i with bytes := it.bytes + x.done })).flipToggle n
        match x.fail with
        | some (st, d) => s1.usbEnd port st d
        | none =>
          if it.bytes + bs.length = w ∨ bs.length < cfg.mps then
            (s1.setFld (F.USBH_PIPE_STAT_TOGGLE n) 1).setPipe n { s1.pipe n with stage := 2, errs := 0 }
          else s1.xactGood n
    | _ => fail s
  else if stage = 1 then
    let size := min cfg.mps (w - it.bytes)
    if (s.pipe n).ping && r == .ack then s.setPipe n { s.pipe n with ping := false, errs := 0 }
    else if r == .ack || r == .nyet then s.moving c k it fun s =>
      let x := s.heddleRead c k.e.inst 1 (it.src + 8 + it.bytes) size
      match x.fail with
      | some (st, d) => x.s.usbEnd port st d
      | none =>
        let s1 := ((x.s.progress c it.index (fun i => { i with bytes := it.bytes + size })).flipToggle n).xactGood n
        if it.bytes + size = w then
          (s1.setFld (F.USBH_PIPE_STAT_TOGGLE n) 1).setPipe n { s1.pipe n with stage := 2, ping := false }
        else if r == .nyet && cfg.speed == 0 then s1.xactNyet n
        else s1
    else if r == .nak then s.xactNak n (decide (cfg.speed = 0))
    else fail s
  else
    let good := if inn ∧ 0 < w then r == .ack else (match r with | .data _ bs => bs.isEmpty | _ => false)
    if good then (s.setFld (F.USBH_PIPE_STAT_TOGGLE n) 0).controlDone n v it.bytes else fail s

/-- R461, R462: one transaction of a CONTROL item. The hub answers at its own address; no other device is on the root port. -/
def State.controlTurn (s : State) (n : Nat) (r : UsbReply) : State :=
  match s.usbItem (0x40 + n) with
  | none => s
  | some (c, k, it) =>
    match s.controlSetup n c k it with
    | (s1, none) => s1
    | (s1, some v) =>
      let cfg := s1.pipeCfg n
      if cfg.port = 0 then
        if cfg.addr = s1.fld F.USBHUB_STAT_ADDR ∧ cfg.ep = 0 ∧ s1.usbLive P.USBHUB then s1.controlHub n c k it v else s1.xactError n
      else s1.controlXact n c k it v r

/-- Table USB-7: what the hub answers on its status-change endpoint: the change byte, or NAK while nothing has changed. -/
def State.hubReply (s : State) (cfg : PipeCfg) : UsbReply :=
  if ! (s.usbLive P.USBHUB && s.flag F.USBHUB_STAT_CONFIGURED && decide (cfg.addr = s.fld F.USBHUB_STAT_ADDR ∧ cfg.ep = 1) && cfg.dirIn) then .error
  else if s.usb.hubHalt then .stall
  else if hubChanges s = 0 then .nak
  else .data s.usb.hubToggle [BitVec.ofNat 8 (hubChanges s)]

/-- A DATA transaction on pipe `n`, the hub's own endpoint answered by the model. -/
def State.dataTurn (s : State) (n : Nat) (r : UsbReply) : State :=
  let cfg := s.pipeCfg n
  if cfg.port = 0 then
    let r1 := s.hubReply cfg
    let s1 := s.dataXact n r1
    match r1 with
    | .data _ _ => { s1 with usb := { s1.usb with hubToggle := ! s1.usb.hubToggle } }
    | _ => s1
  else s.dataXact n r

/-- R461 to R465: the host gives pipe `n` a transaction of a DATA (false) or CONTROL (true) item, if it may. -/
def State.hostTurn (s : State) (n : Nat) (control : Bool) (r : UsbReply) : State :=
  match s.usbItem (0x40 + n) with
  | none => s
  | some (c, k, it) =>
    if ! s.usbLive P.USBH || ! s.mayIssue c k then s
    else if usbOpBad (decide ((s.pipeCfg n).ty = 0)) it then
      (s.modItem c it.index (fun i => { i with clamp := 1 })).usbEnd (0x40 + n) 11 1
    else if decide (it.op ≠ b2n control) then s
    else match s.pipeBlocked n with
      | some d => s.usbEnd (0x40 + n) 4 d
      | none =>
        if ! s.mayToken n || (s.pipeCfg n).viaTt then s
        else
          let s1 := s.useTurn n
          if control then s1.controlTurn n r else s1.dataTurn n r

/-! ### Split transactions -/

/-- R472: start-splits of this microframe to port index `p`. -/
def State.startsOn (s : State) (p : Nat) : Nat := SMap.get (fun _ => 0) s.usb.starts p

/-- One more start-split in this microframe, and USBHUB_TT_n.P_PEAK. -/
def State.countStart (s : State) (p : Nat) : State :=
  let k := s.startsOn p + 1
  let s1 : State := { s with usb := { s.usb with starts := SMap.put (fun _ => 0) s.usb.starts p k } }
  s1.setFld (F.USBHUB_TT_P_PEAK p) (max (s1.fld (F.USBHUB_TT_P_PEAK p)) (min k 31))

/-- R472: a start-split of pipe `n`: a periodic one takes an entry, a non-periodic one a buffer, or is NAKed with 4 held. -/
def State.startSplit (s : State) (n : Nat) (cfg : PipeCfg) : State :=
  let p := cfg.port - 1
  if cfg.periodic then ((s.useTurn n).countStart p).setPipe n { s.pipe n with since := some 0 }
  else if 4 ≤ (s.usb.tt.filter (fun b => b.port == p)).length then
    let s1 := (s.useTurn n).bump (F.USBHUB_TT_NAKS p)
    let s2 := if s1.fld (F.USBHUB_TT_NAKS p) = 65535 then s1.setFld (F.USBHUB_TT_SAT p) 1 else s1
    (s2.raise P.USBHUB E.USBHUB_TT_NAK).xactNak n false
  else
    let s1 := (s.useTurn n).setPipe n { s.pipe n with split := true }
    ({ s1 with usb := { s1.usb with tt := s1.usb.tt ++ [(⟨p, n, cfg.addr, cfg.ep, cfg.dirIn, cfg.ty == 0⟩ : TtBuffer)] } } : State).countTt

/-- R462, R472: the first split of a CONTROL item finds out whether its LEN agrees with its setup packet. -/
def State.beginSplit (s : State) (n : Nat) (cfg : PipeCfg) (c : Nat) (k : HeddleChannel) (it : HeddleItem) : State :=
  if cfg.ty = 0 then
    match s.controlSetup n c k it with
    | (s1, none) => s1
    | (s1, some _) => s1.startSplit n cfg
  else s.startSplit n cfg

/-- R465, R472: the result a complete-split brings ends the split and is dealt with as the transaction's. -/
def State.endSplit (s : State) (n : Nat) (cfg : PipeCfg) (r : UsbReply) : State :=
  let s1 := if cfg.periodic then s.setPipe n { s.pipe n with since := none } else s.freeTt (fun b => b.pipe == n)
  if cfg.ty = 0 then s1.controlTurn n r else s1.dataXact n r

/-- R465, R472: a split transaction of pipe `n`; a complete-split without a result is NYET. -/
def State.opSplit (s : State) (n : Nat) (complete : Bool) (r : Option UsbReply) : State :=
  let cfg := s.pipeCfg n
  match s.usbItem (0x40 + n) with
  | none => s
  | some (c, k, it) =>
    if ! s.usbLive P.USBH || ! cfg.viaTt || ! s.mayIssue c k then s
    else if usbOpBad (decide (cfg.ty = 0)) it then
      (s.modItem c it.index (fun i => { i with clamp := 1 })).usbEnd (0x40 + n) 11 1
    else match s.pipeBlocked n with
      | some d => s.usbEnd (0x40 + n) 4 d
      | none =>
        let pipe := s.pipe n
        if ! complete then
          if s.mayToken n && ! pipe.split && pipe.since.isNone then s.beginSplit n cfg c k it else s
        else
          let ready := s.flag F.USBH_CTRL_RUN && s.pipeReady n && (if cfg.periodic then
              (match pipe.since with | some m => decide (2 ≤ m ∧ m ≤ 4) | none => false)
            else pipe.split && s.mayToken n)
          if ! ready then s else
          match r with
          | none => if cfg.periodic then s else s.useTurn n
          | some x => (if cfg.periodic then s else s.useTurn n).endSplit n cfg x

/-! ### Microframes -/

/-- R465: the periodic work of microframe `m`: an isochronous pipe without an item counts a miss, any other due pipe gets its
transactions. -/
def State.duePipe (s : State) (m n : Nat) : State :=
  let cfg := s.pipeCfg n
  if ! (cfg.en && cfg.periodic && cfg.due m) then s
  else if cfg.ty = 1 ∧ (s.usbItem (0x40 + n)).isNone then
    (s.bump (F.USBH_PIPE_STAT_MISSED n)).raise P.USBH E.USBH_MISSED
  else { s with usb := { s.usb with due := s.usb.due ++ [(n, if cfg.viaTt then 1 else cfg.mult)] } }

/-- R464, R465, R467: the next 125 µs microframe: SOF, holdoffs and split counts advance, and the periodic pipes due in it
are listed. -/
def State.hostMicroframe (s : State) : State :=
  if ! (s.usbLive P.USBH && s.flag F.USBH_CTRL_RUN) then s else
  let m := (s.fld F.USBH_FRAME_UFRAME + 8 * s.fld F.USBH_FRAME_FRAME + 1) % 16384
  let s1 := (s.setFld F.USBH_FRAME_UFRAME m).setFld F.USBH_FRAME_FRAME (m / 8)
  let s2 : State := { s1 with usb := { s1.usb with due := [], starts := [] } }
  let s3 := forAll s2.usb.pipes (fun e t => t.setPipe e.1 { t.pipe e.1 with
    hold := (t.pipe e.1).hold - 1
    since := match (t.pipe e.1).since with | some k => (if k < 4 then some (k + 1) else none) | none => none }) s2
  forEach 48 (fun n t => t.duePipe (m % 4096) n) s3

/-- R460: the service port receives an SOF of frame `f`: the last SOF. At high speed a frame has eight, at full speed one. -/
def State.serviceSof (s : State) (f : Nat) : State :=
  if ! (s.usbLive P.USBD && s.flag F.USBD_STAT_ATTACHED && ! s.flag F.USBD_STAT_SUSPENDED) then s else
  let u := if s.fld F.USBD_STAT_SPEED = 2 ∧ s.fld F.USBD_FRAME_FRAME = f then (s.fld F.USBD_FRAME_UFRAME + 1) % 8 else 0
  (s.setFld F.USBD_FRAME_FRAME f).setFld F.USBD_FRAME_UFRAME u

/-- R460, R464: a microframe of the host controller passes, and the service port's host sends the SOF of frame `sof`, if it does. -/
def State.opMicroframe (s : State) (sof : Option Nat) : State :=
  match sof with
  | some f => s.hostMicroframe.serviceSof f
  | none => s.hostMicroframe

/-- R479: an endpoint clear releases the halted channel of USB port `port`. -/
def State.releaseChannel (s : State) (port : Nat) : State :=
  match s.heddle.ch.find? (fun e => decide (e.2.e.kind = 7 ∧ e.2.e.port = port)) with
  | none => s
  | some (c, k) =>
    if k.state ≠ 4 then s else
    let k1 := ({ k with state := 1 } : HeddleChannel).settle
    s.setHch c { k1 with pending := k1.pending || k1.head != k1.tail }

/-- R479: the endpoint clear of host pipe `n`. -/
def State.opPipeClear (s : State) (n : Nat) : State :=
  (((s.setFld (F.USBH_PIPE_STAT_TOGGLE n) 0).setFld (F.USBH_PIPE_STAT_HALTED n) 0).setPipe n
    { s.pipe n with errs := 0, ping := false, stage := 0 }).releaseChannel (0x40 + n)

/-- A write to USBH_PIPE_CTRL_n. -/
def State.opPipeCtrl (s : State) (ni n : Nat) (v : DWord) : State :=
  let (s1, act) := s.storeReg ni (R.USBH_PIPE_CTRL n) v
  if act.toNat % 2 = 0 then s1 else s1.opPipeClear n

/-- R488: USBH is disabled or soft-reset: items on its pipes end, and every pipe returns to its reset configuration. -/
def State.usbhStop (s : State) : State :=
  let s1 := forEach 48 (fun n t => t.usbEnd (0x40 + n) 4 9) s
  let s2 := forEach 48 (fun n t => t.setReg (R.USBH_PIPE_CFG n) (resetWord (R.USBH_PIPE_CFG n))) s1
  ({ s2 with usb := { s2.usb with pipes := [], due := [], served := [], starts := [], tt := [] } }.updateLoad).setFld F.USBH_STAT_RUNNING 0
    |>.countTt

/-- R488: USBHUB is disabled or soft-reset: port power switches off. -/
def State.hubStop (s : State) : State :=
  let s1 := forEach 4 (fun p t => t.opClearPortPower p) s
  { s1 with usb := { s1.usb with test := [] } }

end Sys2Proof.Machine
end

