-- ==== Sys2Proof/Machine/Usb.lean ====
section
/-! DEFINITION. The service port (R474 to R480, R486, R488), the abort of USB channels (R485), and the USB commands. -/
namespace Sys2Proof.Machine

/-- The configuration register of an endpoint other than EP0, and its number 1 to 6. -/
def epReg (e : Nat) : Nat := if epIn e then R.USBD_EPIN_CFG (e - 2) else R.USBD_EPOUT_CFG (e - 8)

/-- MPS of an endpoint; EP0 has 64 bytes. -/
def State.epMps (s : State) (e : Nat) : Nat := if e < 2 then 64 else (F.USBD_EPIN_CFG_MPS 0).of (s.raw (epReg e))

/-- Bytes of its FIFO. -/
def State.epRoom (s : State) (e : Nat) : Nat := if e < 2 then 64 else 64 * (F.USBD_EPIN_CFG_FIFO 0).of (s.raw (epReg e))

/-- TYPE of an endpoint: 1 isochronous, 2 bulk, 3 interrupt; EP0 is 0. -/
def State.epType (s : State) (e : Nat) : Nat := if e < 2 then 0 else (F.USBD_EPIN_CFG_TYPE 0).of (s.raw (epReg e))

/-- The endpoint is enabled. -/
def State.epOn (s : State) (e : Nat) : Bool := decide (e < 2) || (F.USBD_EPIN_CFG_EN 0).of (s.raw (epReg e)) != 0

/-- R479: the endpoint answers STALL. -/
def State.epStalled (s : State) (e : Nat) : Bool := if e < 2 then s.flag F.USBD_EP0_CTRL_STALLED else s.flag (epHaltF e)

/-- The endpoint answers tokens: attached, clocked, running and not suspended (R480, R487). -/
def State.epAnswers (s : State) (e : Nat) : Bool :=
  s.usbLive P.USBD && s.flag F.USBD_STAT_ATTACHED && ! s.flag F.USBD_STAT_SUSPENDED && s.epOn e

/-- An item of a service-port channel gets its status. -/
def State.epEnd (s : State) (e st detail : Nat) : State := s.usbEnd (0x70 + e) st detail

/-- Bytes in the FIFO of an endpoint. -/
def State.epHeld (s : State) (e : Nat) : Nat := (s.ep e).fifo.foldl (fun k p => k + p.length) 0

/-- R477: the FIFO of an OUT endpoint has room for MPS bytes. -/
def State.epSpace (s : State) (e : Nat) : Bool := decide (s.epHeld e + s.epMps e ≤ s.epRoom e)

/-- MULT of an endpoint; EP0 has one packet. -/
def State.epMult (s : State) (e : Nat) : Nat := if e < 2 then 1 else (F.USBD_EPIN_CFG_MULT 0).of (s.raw (epReg e))

/-- R476: packets that the FIFO of an IN endpoint takes: MULT, or twice as many where they fit. -/
def State.epDepth (s : State) (e : Nat) : Nat :=
  s.epMult e * (if 2 ≤ e ∧ 2 * s.epMps e * s.epMult e ≤ s.epRoom e then 2 else 1)

/-- An endpoint answers a token. -/
def State.epReply (s : State) (e : Nat) (a : UsbAnswer) : State := s.setEp e { s.ep e with answer := a }

/-- R477: packets in an OUT FIFO move into the item; LEN or a short packet ends it. Bytes beyond LEN stay for the next item
(notes/assumptions/41.md). -/
def drainOut : Nat → State → Nat → State
  | 0, s, _ => s
  | n + 1, s, e =>
    match s.usbItem (0x70 + e), (s.ep e).fifo with
    | some (c, k, it), p :: ps =>
      let m := min p.length (it.len - it.done)
      let x := s.heddleWrite c k.e.inst (it.dst + it.done) (p.take m)
      let s1 := x.s.modItem c it.index (fun i => { i with started := true, done := it.done + x.done, bytes := it.bytes + x.done })
      match x.fail with
      | some (st, d) => s1.epEnd e st d
      | none =>
        let rest := p.drop m
        let s2 := s1.setEp e { s1.ep e with fifo := if rest.isEmpty then ps else rest :: ps }
        if it.done + m = it.len then s2.epEnd e 0 0
        else if p.length < s2.epMps e then s2.epEnd e 1 0
        else drainOut n s2 e
    | _, _ => s

/-- Table USB-3, R476, R477: bytes of the next packet that enters an IN FIFO for item `it`: of its data, or the zero-length one that an empty
item or ZLP asks for; none when the FIFO is full or the item is in it. -/
def State.epNext (s : State) (e : Nat) (it : HeddleItem) : Option Nat :=
  let fifo := (s.ep e).fifo
  let loaded := it.done + s.epHeld e
  if s.epDepth e ≤ fifo.length then none
  else if loaded < it.len then some (min (s.epMps e) (it.len - loaded))
  else if it.len = 0 then (if fifo.isEmpty then some 0 else none)
  else if it.param % 2 = 1 ∧ it.len % s.epMps e = 0 ∧ ! fifo.isEmpty ∧ fifo.getLast? ≠ some [] then some 0
  else none

/-- R476, R477: packets of the item enter an IN FIFO. -/
def fillIn : Nat → State → Nat → State
  | 0, s, _ => s
  | n + 1, s, e =>
    match s.usbItem (0x70 + e) with
    | none => s
    | some (c, k, it) =>
      match s.epNext e it with
      | none => s
      | some m =>
        let x := s.heddleRead c k.e.inst 1 (it.src + it.done + s.epHeld e) m
        match x.fail with
        | some (st, d) => x.s.epEnd e st d
        | none => fillIn n ((x.s.startItem c it.index).setEp e { x.s.ep e with fifo := (x.s.ep e).fifo ++ [x.data] }) e

/-- The item of an endpoint has data to move: a packet has come, or one may be loaded. -/
def State.epMoves (s : State) (e : Nat) (it : HeddleItem) : Bool := if epIn e then (s.epNext e it).isSome else ! (s.ep e).fifo.isEmpty

/-- R461, R477: the data of the item move between memory and the FIFO of its endpoint. -/
def State.epMove (s : State) (e c : Nat) (k : HeddleChannel) (it : HeddleItem) : State :=
  if ! s.epMoves e it then s
  else s.moving c k it fun s =>
    (if epIn e then fillIn (s.epDepth e) s e else drainOut ((s.ep e).fifo.length + 1) s e).progress c it.index id

/-- R401, R461, R462, R477: the item of an endpoint goes on, if its channel may issue a transaction: one with an OP or PARAM that does not fit ends,
an isochronous one that is too long is cut. -/
def State.epWork (s : State) (e : Nat) : State :=
  match s.usbItem (0x70 + e) with
  | none => s
  | some (c, k, it) =>
    if ! s.mayIssue c k then s
    else if usbOpBad false it then (s.modItem c it.index (fun i => { i with clamp := 1 })).epEnd e 11 1
    else if ! (s.usbLive P.USBD && s.epOn e) || s.epStalled e then s
    else
      let most := s.epMps e * s.epMult e
      let it1 := if s.epType e = 1 then { it with len := min it.len most } else it
      (s.isoCut (s.epType e == 1) most c it).epMove e c k it1

/-- R485: items are published on the channel of USB port `port`, of an ACTIVE instance. -/
def State.portPublished (s : State) (port : Nat) : Bool :=
  s.heddle.ch.any (fun x => decide (x.2.e.kind = 7 ∧ x.2.e.port = port) && x.2.head != x.2.tail && s.fld (instStateF x.2.e.inst) == 1)

/-- R485: an aborted endpoint takes packets again once new items are published. -/
def State.epRevive (s : State) (e : Nat) : State :=
  if (s.ep e).aborted && s.portPublished (0x70 + e) then s.setEp e { s.ep e with aborted := false } else s

/-- R478: a token to EP0 in this direction is the status stage of the request in USBD_SETUP. -/
def State.statusStage (s : State) (e : Nat) : Bool :=
  let inn := (s.raw (R.USBD_SETUP 0)).toNat.testBit 7 && decide ((s.raw (R.USBD_SETUP 1)).toNat / 2 ^ 16 % 2 ^ 16 ≠ 0)
  decide (e < 2) && decide (epIn e ≠ inn)

/-- R477: an OUT packet: accepted while the FIFO has room for MPS bytes, and answered ACK, or NYET at high speed when that was the last room; a
repeated toggle is acknowledged and dropped. An isochronous packet has no answer. -/
def State.epOut (s : State) (e : Nat) (t : Bool) (bs : List Byte) : State :=
  let iso := s.epType e = 1
  let q := s.ep e
  if s.epMps e < bs.length then (s.bumpSat F.USBD_ERR_COUNT F.USBD_ERR_SAT).epReply e .quiet
  else if s.statusStage e then s.epReply e (if s.flag F.USBD_EP0_CTRL_SETUP_PENDING then .nak else .ack)
  else if q.aborted || ! s.epSpace e then s.epReply e (if iso then .quiet else .nak)
  else if ¬ iso ∧ t ≠ q.toggle then s.epReply e .ack
  else
    let s1 := s.setEp e { q with toggle := if iso then q.toggle else ! q.toggle, fifo := q.fifo ++ [bs] }
    let full := decide (s.fld F.USBD_STAT_SPEED = 2) && ! s1.epSpace e
    (s1.epReply e (if iso then .quiet else if full then .nyet else .ack)).epWork e

/-- R477: an IN packet has been sent and taken: the item advances, and ends after its last packet. -/
def State.epSent (s : State) (e : Nat) : State :=
  match (s.ep e).fifo with
  | [] => s
  | p :: ps =>
    let s1 := s.setEp e { s.ep e with toggle := if s.epType e = 1 then (s.ep e).toggle else ! (s.ep e).toggle, fifo := ps }
    match s1.usbItem (0x70 + e) with
    | none => s1
    | some (c, _, it) =>
      let done := it.done + p.length
      let s2 := s1.modItem c it.index (fun i => { i with done := done, bytes := done })
      if done < it.len ∨ ! ps.isEmpty then s2
      else if it.len ≠ 0 ∧ it.param % 2 = 1 ∧ it.len % s.epMps e = 0 ∧ ! p.isEmpty then s2.setEp e { s2.ep e with fifo := [[]] }
      else s2.epEnd e 0 0

/-- R477, R478: an IN token and the host's handshake `r` to what the endpoint sends: its oldest packet; with none, NAK, or a zero-length packet
from an isochronous endpoint. The status stage of EP0 is a zero-length packet once firmware has answered the request. -/
def State.epInToken (s : State) (e : Nat) (r : UsbReply) : State :=
  if s.statusStage e then s.epReply e (if s.flag F.USBD_EP0_CTRL_SETUP_PENDING then .nak else .data [])
  else
    let s1 := s.epReply e (match (s.ep e).fifo with
      | p :: _ => .data p
      | [] => if s.epType e = 1 then .data [] else .nak)
    if r == .ack || s.epType e == 1 then s1.epSent e
    else if r == .error && ! (s.ep e).fifo.isEmpty then s1.bumpSat F.USBD_ERR_COUNT F.USBD_ERR_SAT
    else s1

/-- R477: a packet or a PING for an OUT endpoint. -/
def State.epOutToken (s : State) (e : Nat) (r : UsbReply) : State :=
  match r with
  | .data t bs => s.epOut e t bs
  | .ping => s.epReply e (if (s.ep e).aborted || ! s.epSpace e then .nak else .ack)
  | .error => (s.bumpSat F.USBD_ERR_COUNT F.USBD_ERR_SAT).epReply e .quiet
  | _ => s

/-- R461, R477 to R480, R485: one transaction on a service-port endpoint: a data packet to an OUT endpoint, or the host's handshake to the packet an
IN endpoint sends. -/
def State.epTurn (s : State) (e : Nat) (r : UsbReply) : State :=
  let s1 := (s.epRevive e).epWork e
  if ! s1.epAnswers e then s1
  else if s1.epStalled e then s1.epReply e .stall
  else if epIn e then s1.epInToken e r
  else s1.epOutToken e r

/-- R475, R486: what a bus reset does: items end with DETAIL 8, halts and the EP0 stall clear, toggles return to DATA0, the
FIFOs are emptied and the address is 0. -/
def State.busResetSteps (s : State) : State :=
  let s1 := forEach 14 (fun e t => t.epEnd e 4 8) s
  let s2 := (((s1.setReg R.USBD_HALT 0#64).setFld F.USBD_EP0_CTRL_STALLED 0).setFld F.USBD_EP0_CTRL_SETUP_PENDING 0).setFld F.USBD_ADDR_ADDR 0
  { s2 with usb := { s2.usb with eps := [], addr := 0, wakeHeld := false } }

/-- R474, R475: a bus reset; `answered` says whether the host answered the chirp in time. -/
def State.opBusReset (s : State) (answered : Bool) : State :=
  if ! (s.usbLive P.USBD && s.flag F.USBD_STAT_ATTACHED) then s else
  let hs := s.flag F.USBD_CTRL_HS_EN
  ((((s.busResetSteps.setFld F.USBD_STAT_SUSPENDED 0).setFld F.USBD_STAT_SPEED (if hs && answered then 2 else 1)).setFlag
    F.USBD_STAT_CHIRP_FAILED (hs && ! answered)).raise P.USBD E.USBD_BUS_RESET)

/-- R474: the pull-up is on while ATTACH = 1 and USBD_VBUS is valid. -/
def State.pullUp (s : State) : State :=
  let on := s.flag F.USBD_CTRL_ATTACH && s.flag F.USBD_STAT_VBUS && s.usbLive P.USBD
  if on && ! s.flag F.USBD_STAT_ATTACHED then (s.setFld F.USBD_STAT_ATTACHED 1).setFld F.USBD_STAT_SPEED 1
  else if ! on && s.flag F.USBD_STAT_ATTACHED then
    ((s.setFld F.USBD_STAT_ATTACHED 0).setFld F.USBD_STAT_SPEED 0).setFld F.USBD_STAT_SUSPENDED 0
  else s

/-- R474, R486, R487: USBD_STAT.VBUS follows the ball while the complex is clocked. Once VBUS is lost the port acts as if bus-reset and detaches. -/
def State.vbusSync (s : State) : State :=
  if ! s.usbClocked || s.flag F.USBD_STAT_VBUS == s.usb.vbus then s
  else if s.usb.vbus then ((s.setFld F.USBD_STAT_VBUS 1).raise P.USBD E.USBD_VBUS_CHANGE).pullUp
  else (((s.setFld F.USBD_STAT_VBUS 0).raise P.USBD E.USBD_VBUS_CHANGE).busResetSteps.setFld F.USBD_STAT_SPEED 0).pullUp

/-- R474, R486: USBD_VBUS becomes valid, or is lost. -/
def State.setVbus (s : State) (on : Bool) : State := ({ s with usb := { s.usb with vbus := on } } : State).vbusSync

/-- R479: a functional halt of an endpoint: the item in progress ends HALTED, and the channel stays HALTED. -/
def State.opHalt (s : State) (e : Nat) : State :=
  let s1 := (s.usbEnd (0x70 + e) 10 0).setFld (epHaltF e) 1
  match s1.heddle.ch.find? (fun x => decide (x.2.e.kind = 7 ∧ x.2.e.port = 0x70 + e)) with
  | some (c, k) => if k.state = 4 then s1 else s1.enterHalted c
  | none => s1

/-- R479: the host's endpoint clear. -/
def State.opEndpointClear (s : State) (e : Nat) : State :=
  let s1 := s.setFld (epHaltF e) 0
  (s1.setEp e { s1.ep e with toggle := false }).releaseChannel (0x70 + e)

/-- R479: a write to USBD_HALT sets functional halts. -/
def State.opUsbdHalt (s : State) (ni : Nat) (v : DWord) : State :=
  let old := s.raw R.USBD_HALT
  let s1 := (s.storeReg ni R.USBD_HALT v).1
  forEach 14 (fun e t =>
    if 2 ≤ e ∧ v.toNat.testBit (epHaltF e).lo ∧ ! old.toNat.testBit (epHaltF e).lo then t.opHalt e else t) s1

/-- R480: remote-wake K: driven at once after 5 ms of idle, or held until then. -/
def State.opRemoteWake (s : State) : State :=
  if ! (s.usbLive P.USBD && s.flag F.USBD_STAT_SUSPENDED && s.flag F.USBD_CTRL_RWAKE_EN) then s
  else if 400000 ≤ s.usb.idle then { s with usb := { s.usb with wakes := s.usb.wakes + 1, wakeHeld := false } }
  else { s with usb := { s.usb with wakeHeld := true } }

/-- R474, R480: a write to USBD_CTRL. -/
def State.opUsbdCtrl (s : State) (ni : Nat) (v : DWord) : State :=
  let (s1, act) := s.storeReg ni R.USBD_CTRL v
  let s2 := s1.pullUp
  if F.USBD_CTRL_RESUME.of act = 0 then s2 else s2.opRemoteWake

/-- R478: the status stage completes; a new address takes effect. -/
def State.opAck (s : State) : State :=
  let s1 := s.setFld F.USBD_EP0_CTRL_SETUP_PENDING 0
  { s1 with usb := { s1.usb with addr := s1.fld F.USBD_ADDR_ADDR } }

/-- R479: EP0 answers STALL until the next SETUP. -/
def State.opStall (s : State) : State := (s.setFld F.USBD_EP0_CTRL_STALLED 1).setFld F.USBD_EP0_CTRL_SETUP_PENDING 0

/-- R478, R479: a write to USBD_EP0_CTRL. -/
def State.opEp0Ctrl (s : State) (ni : Nat) (v : DWord) : State :=
  let (s1, act) := s.storeReg ni R.USBD_EP0_CTRL v
  let s2 := if F.USBD_EP0_CTRL_ACK.of act = 0 then s1 else s1.opAck
  if F.USBD_EP0_CTRL_STALL.of act = 0 then s2 else s2.opStall

/-- The endpoint a wIndex names, as channel PORT − 0x70, when it is enabled. -/
def State.epOfIndex (s : State) (w : Nat) : Option Nat :=
  let k := w % 16
  let e := if w % 256 / 128 = 1 then k + 1 else k + 7
  if 1 ≤ k ∧ k ≤ 6 ∧ s.epOn e then some e else none

/-- R478: the requests the device answers itself: GET_STATUS with the halt of the endpoint in bit 0. -/
def State.ownRequest (s : State) (v : Nat) : Option State :=
  match s.epOfIndex (v / 2 ^ 32 % 2 ^ 16) with
  | none => none
  | some e =>
    if v % 2 ^ 16 = 0x0102 ∧ v / 2 ^ 16 % 2 ^ 16 = 0 then some ((s.opEndpointClear e).raise P.USBD E.USBD_HALT_CLEARED)
    else if v % 2 ^ 16 = 0x0302 ∧ v / 2 ^ 16 % 2 ^ 16 = 0 then some ((s.opHalt e).raise P.USBD E.USBD_HALT_SET)
    else if v % 2 ^ 16 = 0x0082 then
      some (s.setEp 1 { s.ep 1 with fifo := [[BitVec.ofNat 8 (b2n (s.epStalled e)), 0#8].take (v / 2 ^ 48)] })
    else none

/-- R478: a SETUP packet: stored, reported, source 227 raised, the EP0 stall cleared; EP0's data stage begins at DATA1. -/
def State.opSetup (s : State) (v : BitVec 64) : State :=
  if ! (s.usbLive P.USBD && s.flag F.USBD_STAT_ATTACHED && ! s.flag F.USBD_STAT_SUSPENDED) then s else
  let s1 := (s.setReg (R.USBD_SETUP 0) (BitVec.ofNat 64 (v.toNat % 2 ^ 32))).setReg (R.USBD_SETUP 1) (BitVec.ofNat 64 (v.toNat / 2 ^ 32))
  let s2 := ((s1.raise P.USBD E.USBD_SETUP).edge 227).setFld F.USBD_EP0_CTRL_STALLED 0
  let s3 := (s2.setEp 0 { UsbEndpoint.idle with toggle := true, answer := .ack }).setEp 1 { UsbEndpoint.idle with toggle := true }
  match s3.ownRequest v.toNat with
  | some t => t.setFld F.USBD_EP0_CTRL_SETUP_PENDING 0
  | none => s3.setFld F.USBD_EP0_CTRL_SETUP_PENDING 1

/-- R480: 3.0 ms of bus idle. -/
def State.opSuspend (s : State) : State :=
  if ! (s.usbLive P.USBD && s.flag F.USBD_STAT_ATTACHED) || s.flag F.USBD_STAT_SUSPENDED then s else
  let s1 := (s.setFld F.USBD_STAT_SUSPENDED 1).raise P.USBD E.USBD_SUSPEND
  { s1 with usb := { s1.usb with idle := 0, wakeHeld := false, wakes := 0 } }

/-- R480: host resume K. -/
def State.opHostResume (s : State) : State :=
  if ! (s.usbLive P.USBD && s.flag F.USBD_STAT_SUSPENDED) then s else
  let s1 := (s.setFld F.USBD_STAT_SUSPENDED 0).raise P.USBD E.USBD_RESUME
  { s1 with usb := { s1.usb with wakeHeld := false } }

/-- R480, R487: time passes for the clocked port: 2 ms after SUSPENDED the bus has been idle for 5 ms, and a held RESUME drives K. -/
def State.usbElapse (s0 : State) (n : Nat) : State :=
  let s := s0.vbusSync
  if ! (s.usbClocked && s.flag F.USBD_STAT_SUSPENDED) then s else
  let s1 : State := { s with usb := { s.usb with idle := s.usb.idle + n } }
  if s1.usb.wakeHeld && decide (400000 ≤ s1.usb.idle) then s1.opRemoteWake else s1

/-- R476: FIFO units of the enabled endpoints other than `e`. -/
def State.fifoUnits (s : State) (e : Nat) : Nat :=
  (List.range 14).foldl (fun k x => if 2 ≤ x ∧ x ≠ e ∧ s.epOn x then k + (F.USBD_EPIN_CFG_FIFO 0).of (s.raw (epReg x)) else k) 0

/-- R476: a write to USBD_EPIN_CFG_k or USBD_EPOUT_CFG_k of endpoint `e`, refused whole or stored. A value outside the
Legal column is refused with reason 2 (notes/assumptions/42.md). -/
def State.opEpCfg (s : State) (ni e : Nat) (v : DWord) : State :=
  let a := epReg e
  let en := (F.USBD_EPIN_CFG_EN 0).of v
  let fifo := (F.USBD_EPIN_CFG_FIFO 0).of v
  let mps := (F.USBD_EPIN_CFG_MPS 0).of v
  let mult := (F.USBD_EPIN_CFG_MULT 0).of v
  let ty := (F.USBD_EPIN_CFG_TYPE 0).of v
  let kept := epNumber e + (if epIn e then 0 else 8)
  if en = 1 ∧ 126 < s.fifoUnits e + fifo then s.refuse ni a 1 v kept
  else if 64 * fifo < mps * mult ∨ (ty = 2 ∧ mult ≠ 1) ∨ mps = 0 ∨ 1024 < mps ∨ mult = 0 ∨ ty = 0 ∨ fifo = 0 ∨ 126 < fifo then
    s.refuse ni a 2 v kept
  else if en = 1 ∧ s.epOn e ∧ Bits.put v 31 1 0 &&& 0x7F7FFF#64 ≠ Bits.put (s.raw a) 31 1 0 &&& 0x7F7FFF#64 then s.refuse ni a 3 v kept
  else
    let s1 := (s.storeReg ni a v).1
    if en = 0 then s1.setEp e UsbEndpoint.idle else s1

/-- R488: USBD is disabled or soft-reset: items end, the port detaches, every endpoint returns to its reset configuration. -/
def State.usbdStop (s : State) : State :=
  let s1 := forEach 14 (fun e t => t.usbEnd (0x70 + e) 4 9) s
  let s2 := forEach 14 (fun e t => if 2 ≤ e then t.setReg (epReg e) (resetWord (epReg e)) else t) s1
  let s3 := (((s2.setFld F.USBD_CTRL_ATTACH 0).setFld F.USBD_STAT_ATTACHED 0).setFld F.USBD_STAT_SPEED 0).setFld F.USBD_STAT_SUSPENDED 0
  { s3 with usb := { s3.usb with eps := [], wakeHeld := false } }

/-- R485: the abort of a USB channel: a host pipe's TT buffer is freed and its toggle stays; an endpoint's FIFO is emptied, and
it answers NAK from then on. -/
def State.usbAbort (s : State) (port : Nat) : State :=
  if port < 0x70 then
    let n := port - 0x40
    (s.freeTt (fun b => b.pipe == n)).setPipe n { s.pipe n with stage := 0, errs := 0, since := none }
  else s.setEp (port - 0x70) { s.ep (port - 0x70) with fifo := [], aborted := true }

/-! ### Commands -/

/-- DATA: one transaction on USB_EP port 0x40 + `port` (Table USB-2). -/
def execData (port : Fin 62) (r : UsbReply) (s : State) : Host.Outcome State Fault Refusal :=
  .next (if port.val < 48 then s.hostTurn port.val false r else s.epTurn (port.val - 48) r)

/-- CONTROL: one transaction of the CONTROL item on pipe `n`. -/
def execControl (n : Fin 48) (r : UsbReply) (s : State) : Host.Outcome State Fault Refusal := .next (s.hostTurn n.val true r)

/-- USBH_PIPE_CFG_WRITE: a 64-bit write to USBH_PIPE_CFG_n. -/
def execUsbhPipeCfgWrite (q : Req) (n : Fin 48) (v : BitVec 64) (s : State) : Host.Outcome State Fault Refusal :=
  .next (s.gateWrite q (R.USBH_PIPE_CFG n.val) .d v (fun t => t.opPipeCfg q.ni.val n.val v))

/-- MICROFRAME, with the frame of an SOF that the service port receives. -/
def execMicroframe (sof : Option (BitVec 11)) (s : State) : Host.Outcome State Fault Refusal :=
  .next (s.opMicroframe (sof.map BitVec.toNat))

/-- ROOT_RESET: USBH_CTRL is written with ROOT_RESET = 1. -/
def execRootReset (q : Req) (run : Bool) (holdoff : BitVec 6) (s : State) : Host.Outcome State Fault Refusal :=
  let v := BitVec.ofNat 64 (F.USBH_CTRL_RUN.at (b2n run) + F.USBH_CTRL_ROOT_RESET.at 1 + F.USBH_CTRL_NAK_HOLDOFF.at holdoff.toNat)
  .next (s.gateWrite q R.USBH_CTRL .w v (fun t => t.opUsbhCtrl q.ni.val v))

/-- HUB_STANDARD_REQUEST: the hub is sent a setup packet. A STALL changes nothing. -/
def execHubStandardRequest (setup : BitVec 64) (s : State) : Host.Outcome State Fault Refusal :=
  .next (if ! s.usbLive P.USBHUB then s else match hubRequest s setup.toNat with | some (t, _) => t | none => s)

/-- PORT_POWER of port index `p`, to which `line` is attached. -/
def execPortPower (p : Fin 4) (line : Option UsbLine) (s : State) : Host.Outcome State Fault Refusal :=
  .next (if ! s.usbLive P.USBHUB then s else
    (s.setLine p.val (match line with | some l => lineCode l | none => 0)).opPortPower p.val)

/-- CLEAR_PORT_POWER. -/
def execClearPortPower (p : Fin 4) (s : State) : Host.Outcome State Fault Refusal :=
  .next (if ! s.usbLive P.USBHUB then s else s.opClearPortPower p.val)

/-- OVER_CURRENT: USB_OC_N has been low for OC_FILT. -/
def execOverCurrent (p : Fin 4) (s : State) : Host.Outcome State Fault Refusal :=
  .next (if ! s.usbLive P.USBHUB then s else s.opOverCurrent p.val)

/-- PORT_RESET of port index `p`, whose line shows `line`. -/
def execPortReset (p : Fin 4) (line : UsbLine) (s : State) : Host.Outcome State Fault Refusal :=
  .next (if ! s.usbLive P.USBHUB then s else
    (if s.portIs p.val 8 && s.portIs p.val 0 then s.setLine p.val (lineCode line) else s).opPortReset p.val)

/-- PORT_SUSPEND. -/
def execPortSuspend (p : Fin 4) (s : State) : Host.Outcome State Fault Refusal :=
  .next (if ! s.usbLive P.USBHUB then s else s.opPortSuspend p.val)

/-- PORT_RESUME. -/
def execPortResume (p : Fin 4) (s : State) : Host.Outcome State Fault Refusal :=
  .next (if ! s.usbLive P.USBHUB then s else s.opPortResume p.val)

/-- CLEAR_TT_BUFFER for endpoint `ep` of device `addr`. -/
def execClearTtBuffer (p : Fin 4) (addr : BitVec 7) (ep : BitVec 4) (dirIn : Bool) (s : State) : Host.Outcome State Fault Refusal :=
  .next (if ! s.usbLive P.USBHUB then s else s.opClearTt p.val addr.toNat ep.toNat dirIn)

/-- RESET_TT. -/
def execResetTt (p : Fin 4) (s : State) : Host.Outcome State Fault Refusal :=
  .next (if ! s.usbLive P.USBHUB then s else s.opResetTt p.val)

/-- SPLIT_TRANSACTION of pipe `n`: a start-split, or a complete-split with the result the TT holds, if it has one. -/
def execSplitTransaction (n : Fin 48) (complete : Bool) (r : Option UsbReply) (s : State) : Host.Outcome State Fault Refusal :=
  .next (s.opSplit n.val complete r)

/-- ATTACH: USBD_VBUS is valid. -/
def execAttach (s : State) : Host.Outcome State Fault Refusal := .next (s.setVbus true)

/-- BUS_RESET. -/
def execBusReset (answered : Bool) (s : State) : Host.Outcome State Fault Refusal := .next (s.opBusReset answered)

/-- SETUP. -/
def execSetup (setup : BitVec 64) (s : State) : Host.Outcome State Fault Refusal := .next (s.opSetup setup)

/-- ACK: USBD_EP0_CTRL is written with ACK = 1. -/
def execAck (q : Req) (s : State) : Host.Outcome State Fault Refusal :=
  let v := BitVec.ofNat 64 (F.USBD_EP0_CTRL_ACK.at 1) ||| (s.raw R.USBD_EP0_CTRL &&& 0x300#64)
  .next (s.gateWrite q R.USBD_EP0_CTRL .w v (fun t => t.opEp0Ctrl q.ni.val v))

/-- STALL: USBD_EP0_CTRL is written with STALL = 1. -/
def execStall (q : Req) (s : State) : Host.Outcome State Fault Refusal :=
  let v := BitVec.ofNat 64 (F.USBD_EP0_CTRL_STALL.at 1) ||| (s.raw R.USBD_EP0_CTRL &&& 0x300#64)
  .next (s.gateWrite q R.USBD_EP0_CTRL .w v (fun t => t.opEp0Ctrl q.ni.val v))

/-- USBD_EP_CFG_WRITE of endpoint number `k` + 1. -/
def execUsbdEpCfgWrite (q : Req) (dirIn : Bool) (k : Fin 6) (v : BitVec 32) (s : State) : Host.Outcome State Fault Refusal :=
  let e := if dirIn then k.val + 2 else k.val + 8
  .next (s.gateWrite q (epReg e) .w (v.zeroExtend 64) (fun t => t.opEpCfg q.ni.val e (v.zeroExtend 64)))

/-- ENDPOINT_HALT of endpoint number `k` + 1: by a write to USBD_HALT, or by the host. -/
def execEndpointHalt (q : Option Req) (dirIn : Bool) (k : Fin 6) (s : State) : Host.Outcome State Fault Refusal :=
  let e := if dirIn then k.val + 2 else k.val + 8
  match q with
  | some r =>
    let v := BitVec.ofNat 64 (2 ^ (epHaltF e).lo)
    .next (s.gateWrite r R.USBD_HALT .w v (fun t => t.opUsbdHalt r.ni.val v))
  | none =>
    .next (if s.epAnswers e then (s.opHalt e).raise P.USBD E.USBD_HALT_SET else s)

/-- ENDPOINT_CLEAR. -/
def execEndpointClear (t : UsbClear) (s : State) : Host.Outcome State Fault Refusal :=
  match t with
  | .endpoint dirIn k =>
    let e := if dirIn then k.val + 2 else k.val + 8
    .next (if s.epAnswers e then (s.opEndpointClear e).raise P.USBD E.USBD_HALT_CLEARED else s)
  | .pipe q n => .next (s.gateWrite q (R.USBH_PIPE_CTRL n.val) .w 1#64 (fun u => u.opPipeCtrl q.ni.val n.val 1#64))

/-- SUSPEND. -/
def execSuspend (s : State) : Host.Outcome State Fault Refusal := .next s.opSuspend

/-- RESUME. -/
def execResume (r : UsbResume) (s : State) : Host.Outcome State Fault Refusal :=
  match r with
  | .hostK => .next s.opHostResume
  | .write q attach hsEn rwakeEn test =>
    let v := BitVec.ofNat 64 (F.USBD_CTRL_ATTACH.at (b2n attach) + F.USBD_CTRL_HS_EN.at (b2n hsEn)
      + F.USBD_CTRL_RWAKE_EN.at (b2n rwakeEn) + F.USBD_CTRL_RESUME.at 1 + F.USBD_CTRL_TEST.at test.toNat)
    .next (s.gateWrite q R.USBD_CTRL .w v (fun t => t.opUsbdCtrl q.ni.val v))

/-- VBUS_LOST. -/
def execVbusLost (s : State) : Host.Outcome State Fault Refusal := .next (s.setVbus false)

/-- DEVICE_DETACHED from port index `p`. -/
def execDeviceDetached (p : Fin 4) (s : State) : Host.Outcome State Fault Refusal :=
  .next (if ! s.usbLive P.USBHUB then s else s.opDetached p.val)

/-- OVER_CURRENT_CLEAR: USB_OC_N has been high for OC_FILT. -/
def execOverCurrentClear (p : Fin 4) (s : State) : Host.Outcome State Fault Refusal :=
  .next (if ! s.usbLive P.USBHUB || ! s.bankLive 2 then s else s.opOverCurrentClear p.val)

end Sys2Proof.Machine
end

