-- ==== Sys2Proof/Machine/Move.lean ====
section
/-! DEFINITION. The mover (R396, R403, R406, R408, R410, R437): one transaction of at most 64 bytes of the item a channel
executes, its move check, and the credits it takes and gives back. -/
namespace Sys2Proof.Machine

/-- Table Heddle-4: bytes `o` to `o + n` of a FILL. -/
def fillBytes (param o n : Nat) : List Byte := (List.range n).map (fun i => BitVec.ofNat 8 (param / 2 ^ (8 * ((o + i) % 4))))

/-- R408: the status of a COPY whose data are all written. -/
def HeddleItem.copyStatus (it : HeddleItem) (acc : Nat) : Nat × Nat := if it.crcEn ∧ acc ≠ it.crc then (8, 2) else (0, 0)

/-- One COPY piece. -/
def State.moveCopy (s : State) (c : Nat) (k : HeddleChannel) (it : HeddleItem) : State :=
  let n := it.piece true true
  let x := s.heddleRead c k.e.inst 1 (it.src + it.done) n
  match x.fail with
  | some (st, d) => x.s.decideItem c it.index st d
  | none =>
    let y := x.s.heddleWrite c k.e.inst (it.dst + it.done) x.data
    let acc := Crc.run32 0x82F63B78 it.acc x.data
    let s1 := y.s.progress c it.index (fun i => { i with started := true, done := it.done + n, bytes := it.bytes + y.done, acc := acc })
    match y.fail with
    | some (st, d) => s1.decideItem c it.index st d
    | none =>
      let r := it.copyStatus acc
      if it.done + n = it.len then s1.decideItem c it.index r.1 r.2 else s1

/-- One FILL piece. -/
def State.moveFill (s : State) (c : Nat) (k : HeddleChannel) (it : HeddleItem) : State :=
  let n := it.piece false true
  let y := s.heddleWrite c k.e.inst (it.dst + it.done) (fillBytes it.param it.done n)
  let s1 := y.s.progress c it.index (fun i => { i with started := true, done := it.done + n, bytes := it.bytes + y.done })
  match y.fail with
  | some (st, d) => s1.decideItem c it.index st d
  | none => if it.done + n = it.len then s1.decideItem c it.index 0 0 else s1

/-- One CRC or CHECK piece; the last writes the result of a CRC. What a CHECK compares with is not stated: a free bit gives
its verdict (notes/assumptions/16.md). -/
def State.moveCrc (s : State) (c : Nat) (k : HeddleChannel) (it : HeddleItem) : State :=
  let n := it.piece true false
  let x := s.heddleRead c k.e.inst 1 (it.src + it.done) n
  match x.fail with
  | some (st, d) => x.s.decideItem c it.index st d
  | none =>
    let acc := Crc.run32 0x82F63B78 it.acc x.data
    let s1 := x.s.progress c it.index (fun i => { i with started := true, done := it.done + n, acc := acc })
    if it.done + n ≠ it.len then s1
    else if it.op = 2 then
      let (v, s2) := s1.takeFree
      if v.toNat % 2 = 0 then s2.decideItem c it.index 0 0 else s2.decideItem c it.index 8 2
    else
      let y := s1.heddleWrite c k.e.inst it.dst (leBytes 4 acc)
      let s2 := y.s.modItem c it.index (fun i => { i with bytes := y.done })
      match y.fail with
      | some (st, d) => s2.decideItem c it.index st d
      | none => s2.decideItem c it.index 0 0

/-- One piece of the item channel `c` executes, by its kind. The other ports have commands of their own. An Ethernet
frame enters the TX FIFO, and an endpoint of the service port moves its packets to or from its FIFO (R477). -/
def State.movePiece (s : State) (c : Nat) (k : HeddleChannel) (it : HeddleItem) : State :=
  if k.e.kind = 0 then s.moveCopy c k it
  else if k.e.kind = 1 then (if it.op = 0 then s.moveFill c k it else s.moveCrc c k it)
  else if k.e.kind = 2 ∧ k.e.port ≤ 5 then s.uartMove k.e.port 64
  else if k.e.kind = 3 ∧ 8 ≤ k.e.port ∧ k.e.port ≤ 13 then s.uartFill (k.e.port - 8)
  else if k.e.kind = 3 ∧ (k.e.port = 0x29 ∨ k.e.port = 0x2B) then s.ethLoad ((k.e.port - 0x29) / 2)
  else if k.e.kind = 4 then s.adcMove (k.e.port - 0x20)
  else if k.e.kind = 7 ∧ 0x70 ≤ k.e.port then s.epWork (k.e.port - 0x70)
  else s

/-- R317: a transaction of the next piece times out: the first of it, or the last when the piece had been moved all the same. -/
def State.moveTimeout (s : State) (c : Nat) (k : HeddleChannel) (it : HeddleItem) (moved : Bool) : State :=
  let as := movePieceAddrs k.e it
  let (a, write) := if moved then as.getLastD (0, true) else as.headD (0, false)
  let r := s.heddleXlate k.e.inst a write false
  let pa := match r.2 with | .ok x => x | .error _ => a
  ((if moved then r.1.movePiece c k it else r.1).loomTimeout 8 (homeOf a) pa).decideItem c it.index 9 0

/-- The mover itself moves the data of these kinds; the other ports and the engines do so in commands of their own. -/
def HeddleEntry.selfMoved (e : HeddleEntry) : Bool :=
  decide (e.kind ≤ 1) || (decide (e.kind = 2) && decide (e.port ≤ 5)) || (decide (e.kind = 3) && decide ((8 ≤ e.port ∧ e.port ≤ 13) ∨ e.port = 0x29 ∨ e.port = 0x2B)) ||
    decide (e.kind = 4) || decide (e.kind = 7 ∧ 0x70 ≤ e.port)

/-- R317, R403, R408, R437: channel `c` may move a piece of its item `it` now. -/
def State.mayPiece (s : State) (c : Nat) (k : HeddleChannel) (it : HeddleItem) : Bool :=
  let inst := s.fld (instStateF k.e.inst)
  s.heddleRuns && (inst == 1 || (inst == 2 && it.started)) && s.mayIssue c k && s.moveTokens k it

/-- R408, R437: the mover issues a transaction for channel `c`; `acked` earlier ones have come home. A transaction of any kind of channel may fail. -/
def State.opMove (s0 : State) (c acked : Nat) (e : MoveEnd) : State :=
  let s := s0.ackMoves c acked
  match s.hch c with
  | none => s
  | some k =>
    match k.current with
    | none => s
    | some it =>
      if ! s.mayPiece c k it || (e == .ok && ! k.e.selfMoved) then s
      else
        match e, s.takeShot c k it with
        | _, some t => t
        | .corrupt, none => s.moveCorrupt c k it false
        | .busError, none => (s.startItem c it.index).decideItem c it.index 3 2
        | .timeout, none =>
          let (v, s1) := s.takeFree
          s1.moveTimeout c k it (decide (v.toNat % 2 = 1))
        | .ok, none => s.movePiece c k it

/-- MOVE for channel `ch`. -/
def execMove (ch : BitVec 12) (acked : Nat) (e : MoveEnd) (s : State) : Host.Outcome State Fault Refusal := .next (s.opMove ch.toNat acked e)

end Sys2Proof.Machine
end

