-- ==== Sys2Proof/Machine/InstanceOps.lean ====
section
/-! DEFINITION. The manager's commands on Heddle as shared operations (R434 to R459): table entries and their checks, the
pools, commits, and the two resets of an instance. -/
namespace Sys2Proof.Machine

/-- A refused command: reason and CLAMP_KEPT (Table Instances-3). -/
abbrev Refused := Nat × Nat

/-- R437: two ranges meet. -/
def rangesMeet (b1 n1 b2 n2 : Nat) : Bool := decide (0 < n1 ∧ 0 < n2 ∧ b1 < b2 + n2 ∧ b2 < b1 + n1)

/-- The state of an instance (Table Instances-5). -/
def State.instState (s : State) (i : Nat) : Nat := s.fld (instStateF i)

/-- CLAMP_KEPT of reason 3. -/
def State.stateDetail (s : State) (i : Nat) : Nat := i % 32 + 2 ^ 8 * s.instState (i % 32)

/-- Read a table entry of `n` bytes at `a`; a failed read answers the byte offset. -/
def State.tableRead (s : State) (a n : Nat) : State × Except Nat (List Byte) :=
  if ! s.busMemory a n then (s, .error 0) else
  match s.coherentRead a n with
  | (s1, .ok, bs) => (s1, .ok bs)
  | (s1, .poison, _) => (s1, .error (((wordsOf a n).find? s.poisoned).getD a - a))
  | (s1, _, _) => (s1, .error 0)

/-- 64-bit word `k` of an entry. -/
def entryWord (bs : List Byte) (k : Nat) : Nat := leNat (slice (8 * k) 8 bs)

/-- Bits [hi:lo] of a number. -/
def bitsOf (w lo hi : Nat) : Nat := w / 2 ^ lo % 2 ^ (hi - lo + 1)

/-- The byte offset of the first word of a list of checks that fails. -/
def firstBad (ok : List Bool) : Option Nat := (ok.findIdx? (fun b => ! b)).map (fun i => 8 * i)

/-! ### Instance entries -/

/-- Table Instances-1: an instance entry, or the offset of its first illegal word. -/
def State.parseInstance (s : State) (bs : List Byte) : Except Nat HeddleInstance :=
  let w (k : Nat) : Nat := entryWord bs k
  let mode := bitsOf (w 0) 4 7
  let root := bitsOf (w 1) 14 39 * 2 ^ 14
  let ok := [
    (w 0).testBit 0 && decide (mode = 0 ∨ mode = 8 ∨ mode = 9) && bitsOf (w 0) 1 3 == 0 && bitsOf (w 0) 11 13 == 0
      && bitsOf (w 0) 30 31 == 0 && w 0 / 2 ^ 40 == 0,
    decide (w 1 = root) && (if mode = 0 then root == 0 else s.inMain root 0x4000),
    bitsOf (w 2) 12 15 == 0 && bitsOf (w 2) 29 31 == 0 && bitsOf (w 2) 42 47 == 0 && w 2 / 2 ^ 59 == 0
      && decide (bitsOf (w 2) 0 11 + bitsOf (w 2) 16 28 ≤ 4096) && decide (bitsOf (w 2) 32 41 + bitsOf (w 2) 48 58 ≤ 1024),
    decide (1 ≤ bitsOf (w 3) 0 6 ∧ bitsOf (w 3) 0 6 ≤ 64) && bitsOf (w 3) 7 15 == 0 && w 3 / 2 ^ 32 == 0,
    true, w 5 == 0, w 6 == 0, w 7 == 0]
  match firstBad ok with
  | some o => .error o
  | none => .ok ⟨mode, bitsOf (w 0) 8 10, bitsOf (w 0) 14 15, bitsOf (w 0) 16 29, root, bitsOf (w 2) 0 11, bitsOf (w 2) 16 28,
      bitsOf (w 2) 32 41, bitsOf (w 2) 48 58, bitsOf (w 3) 0 6, bitsOf (w 3) 16 31, w 4, 0, 0⟩

/-- R437: the first collision of an allotment with those of the other instances. -/
def State.poolsRefuse (s : State) (i : Nat) (v : HeddleInstance) : Option Refused :=
  let others := s.heddle.inst.filter (fun e => e.1 != i)
  let hit (k : Nat) (f : HeddleInstance → Bool) : Option Refused := (others.find? (fun e => f e.2)).map (fun e => (6, e.1 + 2 ^ 8 * k))
  let sum := others.foldl (fun n e => n + e.2.tokens) v.tokens
  (hit 0 (fun o => rangesMeet v.chBase v.chCount o.chBase o.chCount)).orElse fun _ =>
    (hit 1 (fun o => rangesMeet v.cqBase v.cqCount o.cqBase o.cqCount)).orElse fun _ =>
      (hit 2 (fun o => v.msgGroups &&& o.msgGroups != 0)).orElse fun _ =>
        (hit 3 (fun o => v.resMask &&& o.resMask != 0)).orElse fun _ =>
          if 64 < sum then some (7, sum) else none

/-- Address of instance entry `i` (R436). -/
def State.instEntryAt (s : State) (i : Nat) : Nat := s.fld F.HEDDLE_MGMT_INST_BASE_ADDR * 4096 + 64 * i

/-- R436: Heddle writes the GEN field of an instance entry. -/
def State.writeGen (s : State) (i : Nat) : State :=
  let a := s.instEntryAt i + 4
  if s.inMain a 1 then (s.coherentWrite a [BitVec.ofNat 8 (s.fld (instGenF i))] (s.heddlePart i)).1 else s

/-- R445: GEN of an instance advances. -/
def State.advanceGen (s : State) (i : Nat) : State := s.setFld (instGenF i) (nextGen (s.fld (instGenF i)))

/-- R439: CREATE and ASSIGN read and check their entry. -/
def State.instanceEntry (s : State) (i : Nat) : State × Except Refused HeddleInstance :=
  match s.tableRead (s.instEntryAt i) 64 with
  | (s1, .error o) => (s1, .error (5, o))
  | (s1, .ok bs) =>
    match s1.parseInstance bs with
    | .error o => (s1, .error (4, o))
    | .ok v =>
      match s1.poolsRefuse i v with
      | some r => (s1, .error r)
      | none => (s1, .ok v)

/-- CREATE (Table Instances-2). -/
def State.cmdCreate (s : State) (i : Nat) : State × Option Refused :=
  if 32 ≤ i then (s, some (2, 0))
  else if s.instState i ≠ 0 then (s, some (3, s.stateDetail i))
  else
    match s.instanceEntry i with
    | (s1, .error r) => (s1, some r)
    | (s1, .ok v) => ((((s1.setHinst i v).advanceGen i).setFld (instStateF i) 1).writeGen i, none)

/-- The first channel or queue that ASSIGN would leave outside the new allotment, or whose reservation or message group it
would take away. -/
def State.assignInUse (s : State) (i : Nat) (v : HeddleInstance) : Option Nat :=
  let chs := s.heddle.ch.filter (fun e => e.2.e.inst == i)
  let qs := s.heddle.cq.filter (fun e => e.2.inst == i)
  ((chs.find? (fun e => decide (e.1 < v.chBase ∨ v.chBase + v.chCount ≤ e.1))).map (fun e => e.1)).orElse fun _ =>
    ((qs.find? (fun e => decide (e.1 < v.cqBase ∨ v.cqBase + v.cqCount ≤ e.1))).map (fun e => e.1)).orElse fun _ =>
      ((chs.find? (fun e => match e.2.e.res with | some r => ! v.resMask.testBit r | none => false)).map (fun e => e.1)).orElse fun _ =>
        (qs.find? (fun e => decide (e.2.irq = 2) && ! v.msgGroups.testBit ((e.2.msg - 1536) / 32))).map (fun e => e.1)

/-- ASSIGN (Table Instances-2): a change of translation acts on the instance as HEDDLE_IOTLB_INV does. -/
def State.cmdAssign (s : State) (i : Nat) : State × Option Refused :=
  if 32 ≤ i then (s, some (2, 0))
  else if s.instState i ≠ 1 then (s, some (3, s.stateDetail i))
  else
    match s.instanceEntry i with
    | (s1, .error r) => (s1, some r)
    | (s1, .ok v) =>
      match s1.hinst i, s1.assignInUse i v with
      | _, some n => (s1, some (8, n))
      | none, none => (s1, none)
      | some o, none =>
        let s2 := s1.setHinst i { v with out := o.out, late := o.late }
        (if o.gMode ≠ v.gMode ∨ o.root ≠ v.root ∨ o.vmid ≠ v.vmid then s2.dropTranslations i none else s2, none)

/-! ### Commits -/

/-- Table Heddle-2: PORT is one of KIND's. -/
def portLegal (kind port : Nat) : Bool :=
  match kind with
  | 0 | 1 => port == 0
  | 2 => decide (port ≤ 5) || [0x10, 0x12, 0x14, 0x16, 0x28, 0x2A, 0x30].contains port
  | 3 => decide (8 ≤ port ∧ port ≤ 13) || [0x11, 0x13, 0x15, 0x17, 0x29, 0x2B, 0x31].contains port
  | 4 => port == 0x20 || port == 0x21
  | 5 => port == 0x90
  | 6 => decide (0x80 ≤ port ∧ port ≤ 0x82)
  | _ => decide (0x40 ≤ port ∧ port ≤ 0x7D)

/-- CTX is legal for KIND (Table Heddle-2, R415). -/
def ctxLegal (kind ctx : Nat) : Bool := if kind = 5 then decide (ctx < 16) else if kind = 6 then decide (ctx < 256) else ctx == 0

/-- Table Heddle-1: a valid channel entry with its HEAD and TAIL, or the offset of its first illegal word. -/
def parseChannel (bs : List Byte) : Except Nat (HeddleEntry × Nat × Nat) :=
  let w (k : Nat) : Nat := entryWord bs k
  let kind := bitsOf (w 0) 1 4
  let order := bitsOf (w 0) 56 60
  let base := bitsOf (w 1) 12 49 * 4096
  let head := bitsOf (w 2) 0 15
  let tail := bitsOf (w 2) 16 31
  let port := bitsOf (w 2) 48 55
  let ok := [
    decide (kind ≤ 7) && bitsOf (w 0) 5 7 == 0 && bitsOf (w 0) 13 15 == 0 && bitsOf (w 0) 16 23 != 0 && bitsOf (w 0) 28 31 == 0
      && bitsOf (w 0) 42 47 == 0 && decide (bitsOf (w 0) 48 51 ≤ 8) && bitsOf (w 0) 52 55 == 0
      && decide (3 ≤ order ∧ order ≤ 16) && w 0 / 2 ^ 61 == 0,
    decide (w 1 = base),
    decide (head < 2 ^ order ∧ tail < 2 ^ order) && bitsOf (w 2) 32 47 == 0 && w 2 / 2 ^ 56 == 0 && portLegal kind port,
    (w 3).testBit 6 == false && ctxLegal kind (bitsOf (w 3) 8 23) && w 3 / 2 ^ 24 == 0,
    w 4 == 0, w 5 == 0, w 6 == 0, w 7 == 0]
  match firstBad ok with
  | some o => .error o
  | none => .ok (⟨kind, bitsOf (w 0) 8 12, bitsOf (w 0) 16 23, bitsOf (w 0) 24 25, (w 0).testBit 26, (w 0).testBit 27, bitsOf (w 0) 32 41,
      bitsOf (w 0) 48 51, order, base, port, if (w 3).testBit 7 then some (bitsOf (w 3) 0 5) else none, bitsOf (w 3) 8 23⟩, head, tail)

/-- R440: channel `c` lies in the range of ACTIVE instance `i`. -/
def State.ownsChannel (s : State) (i c : Nat) : Bool :=
  decide (s.instState i = 1) && (match s.hinst i with | some v => decide (v.chBase ≤ c ∧ c < v.chBase + v.chCount) | none => false)

/-- R441: queue `q` lies in the range of instance `i`. -/
def State.ownsQueue (s : State) (i q : Nat) : Bool :=
  match s.hinst i with | some v => decide (v.cqBase ≤ q ∧ q < v.cqBase + v.cqCount) | none => false

/-- R440: the live channel is INVALID, IDLE or HALTED: none, or its Table Heddle-8 code otherwise. A halted channel of which an item
or a record is still on its way is not yet one with nothing in progress (R402, R456, notes/assumptions/77.md). -/
def State.channelBusy (s : State) (c : Nat) : Option Nat :=
  match s.hch c with
  | some k => if k.state = 2 ∨ k.state = 3 ∨ (k.state = 4 ∧ k.pinned) then some k.state else none
  | none => none

/-- R455: a channel or queue that an instance in DRAINING or SQUASHING holds; `mine` tells whether an allotment covers it. -/
def State.inReset (s : State) (mine : HeddleInstance → Bool) : Bool :=
  s.heddle.inst.any (fun e => (s.instState e.1 == 2 || s.instState e.1 == 3) && mine e.2)

/-- R440: the checks of a valid entry, in order. -/
def State.channelRefuse (s : State) (c : Nat) (e : HeddleEntry) : Option Refused :=
  if ! s.ownsChannel e.inst c then some (9, e.inst)
  else if e.gen ≠ s.fld (instGenF e.inst) then some (10, s.fld (instGenF e.inst))
  else match s.channelBusy c with
    | some st => some (11, st)
    | none =>
      if ! (s.ownsQueue e.inst e.cq && (s.hcq e.cq).isSome) then some (12, e.cq)
      else match s.hinst e.inst with
        | none => some (9, e.inst)
        | some v =>
          if v.prioMax < e.prio then some (15, v.prioMax)
          else
            let res := match e.res with
              | none => none
              | some r =>
                let w := ((AMap.get? s.loom.live.res r).getD 0#64).toNat
                if v.resMask.testBit r && w.testBit 0 && bitsOf w 4 7 == 8 then none else some (14, r)
            match res with
            | some x => some x
            | none =>
              if e.kind = 2 ∨ e.kind = 3 ∨ e.kind = 4 ∨ e.kind = 7 then
                (s.heddle.ch.find? (fun x => decide (x.1 ≠ c ∧ x.2.e.port = e.port) && [2, 3, 4, 7].contains x.2.e.kind)).map (fun x => (13, x.1))
              else none

/-- R479: the channel of a service-port endpoint under a functional halt stays HALTED, even across a commit. -/
def State.portHalted (s : State) (e : HeddleEntry) : Bool := decide (e.kind = 7 ∧ 0x72 ≤ e.port) && s.flag (epHaltF (e.port - 0x70))

/-- R440: the records of the items that FLUSH discards, in ring order. -/
def State.flushItems (s : State) (c : Nat) (e : HeddleEntry) (head n : Nat) : State :=
  forEach n (fun i t =>
    t.postRecord c (recordOf c e (HeddleItem.blank ((head + i) % 2 ^ e.order) e.gen false none) 10 0 false)) s

/-- R440: the new entry of channel `c` goes live. FLUSH acts on a HALTED channel alone. -/
def State.commitLive (s : State) (c : Nat) (e : HeddleEntry) (head tail : Nat) (flush : Bool) : State :=
  let old := s.hch c
  let halted : Bool := match old with | some k => k.state == 4 | none => false
  let n := if flush && halted then (tail + 2 ^ e.order - head) % 2 ^ e.order else 0
  let waiting := match old with | some k => k.waiting | none => []
  let out := match old with | some k => k.out | none => 0
  let k : HeddleChannel := ⟨e, 1, if flush && halted then tail else head, tail, false, false, [], waiting, out⟩
  let k1 := if s.portHalted e then { k with state := 4 } else { k.settle with pending := k.settle.state == 2 }
  (s.setHch c k1).flushItems c e head n

/-- COMMIT of a channel (R440), whose entry has left the cache. -/
def State.commitEntry (s : State) (c : Nat) (flush : Bool) : State × Option Refused :=
  match s.tableRead (s.chEntryAt c) 64 with
  | (s1, .error o) => (s1, some (5, o))
  | (s1, .ok bs) =>
    if s1.inReset (fun v => decide (v.chBase ≤ c ∧ c < v.chBase + v.chCount)) then (s1, some (9, bitsOf (entryWord bs 0) 8 12))
    else if ! (entryWord bs 0).testBit 0 then
      let i := bitsOf (entryWord bs 0) 8 12
      if ! s1.ownsChannel i c then (s1, some (9, i))
      else match s1.channelBusy c with
        | some st => (s1, some (11, st))
        | none => (s1.delHch c, none)
    else match parseChannel bs with
      | .error o => (s1, some (4, o))
      | .ok (e, head, tail) =>
        match s1.channelRefuse c e with
        | some r => (s1, some r)
        | none => (s1.commitLive c e head tail flush, none)

/-- COMMIT of a channel (R390, R440): the cached entry is invalidated, its shadows written back, before the new entry is fetched, so a channel that was
cached keeps its HEAD and TAIL. A refused commit leaves the cache as it was (R439). -/
def State.cmdCommitChannel (s : State) (c : Nat) (flush : Bool) : State × Option Refused :=
  if 4096 ≤ c then (s, some (2, 0)) else
  match (s.uncache c).commitEntry c flush with
  | (t, none) => (t, none)
  | (_, some _) => s.commitEntry c flush

/-- Table Heddle-5: a valid descriptor, or the offset of its first illegal word. -/
def parseQueue (bs : List Byte) : Except Nat HeddleQueue :=
  let w (k : Nat) : Nat := entryWord bs k
  let order := bitsOf (w 0) 16 20
  let irq := bitsOf (w 0) 24 25
  let msg := bitsOf (w 0) 32 42
  let base := bitsOf (w 1) 12 49 * 4096
  let ok := [
    bitsOf (w 0) 1 7 == 0 && bitsOf (w 0) 13 15 == 0 && decide (3 ≤ order ∧ order ≤ 16) && bitsOf (w 0) 21 23 == 0 && decide (irq ≤ 2)
      && bitsOf (w 0) 26 31 == 0 && w 0 / 2 ^ 43 == 0 && decide (1536 ≤ msg),
    decide (w 1 = base)]
  match firstBad ok with
  | some o => .error o
  | none => .ok ⟨bitsOf (w 0) 8 12, order, irq, msg, base, 0, 0, true⟩

/-- COMMIT of a queue (R441). -/
def State.cmdCommitQueue (s : State) (q : Nat) : State × Option Refused :=
  if 1024 ≤ q then (s, some (2, 0)) else
  match s.tableRead (s.fld F.HEDDLE_CQT_BASE_ADDR * 4096 + 16 * q) 16 with
  | (s1, .error o) => (s1, some (5, o))
  | (s1, .ok bs) =>
    if s1.inReset (fun v => decide (v.cqBase ≤ q ∧ q < v.cqBase + v.cqCount)) then (s1, some (9, bitsOf (entryWord bs 0) 8 12)) else
    match s1.heddle.ch.find? (fun e => e.2.e.cq == q) with
    | some e => (s1, some (8, e.1))
    | none =>
      if ! (entryWord bs 0).testBit 0 then
        ({ s1 with heddle := { s1.heddle with cq := SMap.erase s1.heddle.cq q } }, none)
      else match parseQueue bs with
        | .error o => (s1, some (4, o))
        | .ok v =>
          if s1.instState v.inst ≠ 1 ∨ ! s1.ownsQueue v.inst q then (s1, some (9, v.inst))
          else
            let groups := match s1.hinst v.inst with | some x => x.msgGroups | none => 0
            if v.irq = 2 ∧ ! groups.testBit ((v.msg - 1536) / 32) then (s1, some (16, v.msg))
            else (s1.setHcq q v, none)

/-! ### Resets -/

/-- R447: a started item waits for port input: reception, an angle capture, or a USB item that takes data, whose next input has not come. What
lies in a FIFO has come; the flash gives its bytes when it is asked. -/
def State.waitsForInput (s : State) (e : HeddleEntry) (it : HeddleItem) : Bool :=
  if e.kind = 2 ∧ e.port ≤ 5 then
    let rx := (s.uart e.port).rx
    ! (rx.contains .frameEnd || decide (it.len - it.done ≤ rx.length))
  else if e.kind = 2 ∧ (e.port = 0x28 ∨ e.port = 0x2A) then (s.eth ((e.port - 0x28) / 2)).rx.isEmpty
  else if e.kind = 2 then e.port != 0x30
  else if e.kind = 4 then
    let fifo := (s.adc (e.port - 0x20)).fifo
    let mine := if it.op.testBit 0 ∧ ! it.aligned then alignDrop (it.param % 65536) fifo else fifo
    decide (mine.length < (it.len - it.done) / 2)
  else if e.kind = 7 then
    (if e.port < 0x70 then (s.pipeCfg (e.port - 0x40)).dirIn && (s.pipeCfg (e.port - 0x40)).ty != 0
      else ! epIn (e.port - 0x70) && (s.ep (e.port - 0x70)).fifo.isEmpty)
  else false

/-- R447: a drain begins in one channel: what has not started is discarded, what waits for input ends SHORT. -/
def State.drainChannel (s : State) (c : Nat) : State :=
  match s.hch c with
  | none => s
  | some k =>
    let k1 := k.keepStarted
    let items := k1.items.map (fun i =>
      if i.running && i.status.isNone && s.waitsForInput k.e i then { i with started := true, status := some (1, 0) } else i)
    (s.setHch c { k1 with items := items, pending := false }).afterUnpin c

/-- The channels of an instance. -/
def State.channelsOf (s : State) (i : Nat) : List Nat := (s.heddle.ch.filter (fun e => e.2.e.inst == i)).map (fun e => e.1)

/-- RESET_DRAIN (R447). -/
def State.cmdDrain (s : State) (i : Nat) : State × Option Refused :=
  if 32 ≤ i then (s, some (2, 0))
  else if s.instState i ≠ 1 then (s, some (3, s.stateDetail i))
  else (forAll (s.channelsOf i) (fun c t => t.drainChannel c) (s.setFld (instStateF i) 2), none)

/-- R449: a port, at work on item `it` of channel `c`, receives an abort. -/
def State.abortPort (s : State) (c : Nat) (e : HeddleEntry) (it : Option HeddleItem) : State :=
  if e.kind = 2 ∨ e.kind = 3 ∨ e.kind = 4 then s.fieldAbort e.port it
  else if e.kind = 5 then s.bobbinAbort c
  else if e.kind = 6 then s.cryptoAbort c e
  else if e.kind = 7 then s.usbAbort e.port
  else s

/-- A transaction that the mover makes for channel `c`. -/
def LoomTxn.ofChannel (t : LoomTxn) (c : Nat) : Bool := match t.use with | .move d => t.init == 8 && d.toNat == c | _ => false

/-- R449: the requests of channel `c` that wait for a pick are never sent. -/
def State.dropQueued (s : State) (c : Nat) : State :=
  forAll s.loom.queued (fun e t => t.setQueued e.1 ((t.queuedRes e.1).filter (fun x => ! x.ofChannel c))) s

/-- R449: a squash begins in one channel: every item is discarded without a record, its transactions become late, requests not sent are dropped,
its port is aborted. -/
def State.squashChannel (s : State) (c : Nat) : State :=
  match s.hch c with
  | none => s
  | some k =>
    (((s.setHch c { k with items := [], waiting := [], head := k.headOut, out := 0, pending := false }).dropQueued c).afterUnpin c).abortPort c k.e k.current

/-- R407, R446: what a running invalidation waits for becomes late with its instance, which has `n` transactions outstanding. -/
def IotlbWait.squashed (w : IotlbWait) (i n : Nat) : IotlbWait :=
  if w.inst = i then { w with late := w.late + n, ch := [] } else w

/-- R449: the squash of an ACTIVE instance. -/
def State.squash (s : State) (i : Nat) : State :=
  let s1 := (s.advanceGen i).setFld (instStateF i) 3
  let n := match s1.hinst i with | some v => v.out | none => 0
  let s2 := (forAll (s1.channelsOf i) (fun c t => t.squashChannel c) s1).modHinst i (fun v => { v with late := v.late + n, out := 0 })
  { s2 with heddle := { s2.heddle with iotlbWait := s2.heddle.iotlbWait.map (fun w => w.squashed i n) } }

/-- RESET_SQUASH (R449). -/
def State.cmdSquash (s : State) (i : Nat) : State × Option Refused :=
  if 32 ≤ i then (s, some (2, 0))
  else if s.instState i ≠ 1 then (s, some (3, s.stateDetail i))
  else (s.squash i, none)

/-- R449, R457: a request of the mover for channel `c` waits for a pick or is outstanding in the fabric. -/
def State.onLoom (s : State) (c : Nat) : Bool :=
  s.loom.txns.any (fun t => t.ofChannel c) || s.loom.queued.any (fun e => e.2.any (fun t => t.ofChannel c))

/-- R447, R449, R457: nothing of the instance is in progress: no item, no waiting record, no token out, no request on the Loom. -/
def State.resetQuiet (s : State) (i : Nat) : Bool :=
  (s.heddle.ch.all (fun e => decide (e.2.e.inst ≠ i) || (e.2.items.isEmpty && e.2.waiting.isEmpty && e.2.out == 0 && ! s.onLoom e.1))) &&
    (match s.hinst i with | some v => v.out == 0 && v.late == 0 | none => true)

/-- R458: once no instance is being reset, HEDDLE_CHT_BASE alone says where entries are. -/
def State.tablesMeet (s : State) : State :=
  if (List.range 32).any (fun i => s.instState i == 2 || s.instState i == 3) then s
  else { s with heddle := { s.heddle with oldTable := none } }

/-- R444: the end of a reset, in one step. -/
def State.opResetDone (s : State) (i us : Nat) : State :=
  if ! (s.instState i = 2 ∨ s.instState i = 3) ∨ ! s.resetQuiet i then s else
  let s0 := if s.instState i = 2 then s.advanceGen i else s
  let s1 := forAll (s0.channelsOf i) (fun c t =>
    let u := (t.writeShadows c).delHch c
    { u with heddle := { u.heddle with cache := u.heddle.cache.filter (fun x => x != c) } }) s0
  let s2 := ({ s1 with heddle := { s1.heddle with cq := s1.heddle.cq.filter (fun e => e.2.inst != i) } }).dropTranslations i none
  let s3 := (((s2.writeGen i).setFld (instStateF i) 1).setFld F.HEDDLE_MGMT_RESET_TIME_US us).setFld F.HEDDLE_MGMT_RESET_TIME_INST i
  (s3.tablesMeet).raise P.HEDDLE_MGMT E.HEDDLE_MGMT_RESET_DONE

/-- DESTROY (Table Instances-2). -/
def State.cmdDestroy (s : State) (i : Nat) : State × Option Refused :=
  if 32 ≤ i then (s, some (2, 0))
  else if i = 0 ∨ s.instState i ≠ 1 then (s, some (3, s.stateDetail i))
  else match s.heddle.ch.find? (fun e => e.2.e.inst == i), s.heddle.cq.find? (fun e => e.2.inst == i) with
    | some e, _ => (s, some (8, e.1))
    | none, some e => (s, some (8, e.1))
    | none, none =>
      let s1 := (s.setFld (instStateF i) 0).dropTranslations i none
      ({ s1 with heddle := { s1.heddle with inst := SMap.erase s1.heddle.inst i } }, none)

/-- R438, R439: a write to HEDDLE_MGMT_CMD. A command takes effect at once, so BUSY never reads 1 (notes/assumptions/17.md). -/
def State.opMgmtCmd (s : State) (ni : Nat) (v : DWord) : State :=
  let a := R.HEDDLE_MGMT_CMD
  let op := F.HEDDLE_MGMT_CMD_OP.of v
  let t := F.HEDDLE_MGMT_CMD_TARGET.of v
  let r : State × Option Refused :=
    if op = 1 then s.cmdCreate t
    else if op = 2 then s.cmdAssign t
    else if op = 3 then
      (if F.HEDDLE_MGMT_CMD_Q.of v = 0 then s.cmdCommitChannel t (F.HEDDLE_MGMT_CMD_FLUSH.of v != 0) else s.cmdCommitQueue t)
    else if op = 4 then s.cmdDrain t
    else if op = 5 then s.cmdSquash t
    else if op = 6 then s.cmdDestroy t
    else (s, some (2, 0))
  let s1 := r.1.setFld F.HEDDLE_MGMT_CMD_STAT_LAST_OP op
  match r.2 with
  | none => ((s1.storeReg ni a v).1.setFld F.HEDDLE_MGMT_CMD_STAT_LAST_REASON 0).raise P.HEDDLE_MGMT E.HEDDLE_MGMT_CMD_DONE
  | some (reason, detail) =>
    ((s1.refuse ni a reason v (if reason = 2 then v.toNat else detail)).setFld F.HEDDLE_MGMT_CMD_STAT_LAST_REASON reason).raise
      P.HEDDLE_MGMT E.HEDDLE_MGMT_CMD_REFUSED

/-- A command word (Table Instances-7). -/
def mgmtWord (op : Nat) (queue flush : Bool) (target : BitVec 13) : DWord :=
  BitVec.ofNat 64 (F.HEDDLE_MGMT_CMD_OP.at op + F.HEDDLE_MGMT_CMD_Q.at (b2n queue) + F.HEDDLE_MGMT_CMD_FLUSH.at (b2n flush)
    + F.HEDDLE_MGMT_CMD_TARGET.at target.toNat)

/-- A command of the manager as a write of its word. -/
def State.mgmtWrite (s : State) (q : Req) (v : DWord) : State :=
  s.gateWrite q R.HEDDLE_MGMT_CMD .w v (fun t => t.opMgmtCmd q.ni.val v)

/-- R458: a soft reset of the HEDDLE page squashes every ACTIVE instance. -/
def State.squashAll (s : State) : State := forEach 32 (fun i t => if t.instState i = 1 then t.squash i else t) s

end Sys2Proof.Machine
end

