-- ==== Sys2Proof/Machine/Heddle.lean ====
section
/-! DEFINITION. Heddle's commands (R388 to R413, R446, R451, R452): doorbells, kicks, head writes, the intake, item reads and
prefetch, item ends, and the two invalidation registers. -/
namespace Sys2Proof.Machine

/-- R392, R394, R402, R409, R443, R451: a new TAIL for local channel `j` of instance `i`, an index modulo the ring. -/
def State.opDoorbell (s : State) (i j tail : Nat) : State :=
  match s.hinst i with
  | none => s.dbRefused i
  | some inst =>
    if s.fld (instStateF i) ≠ 1 then s.dbRefused i
    else if inst.chCount ≤ j then s.dbError none
    else
      let c := inst.chBase + j
      match s.hch c with
      | none => s.dbError (some c)
      | some k =>
        let n := k.size
        let t := tail % n
        if (t + n - k.headOut) % n < (k.tail + n - k.headOut) % n then s.dbError (some c)
        else if t = k.tail then s.kick c
        else s.setHch c { k with tail := t, pending := true, state := if k.state = 1 then 2 else k.state }

/-- R443, R448, R451, R452: a new head for local queue `j` of instance `i`, an index modulo the queue. -/
def State.opQueueHead (s : State) (i j head : Nat) : State :=
  match s.hinst i with
  | none => s.dbRefused i
  | some inst =>
    if s.fld (instStateF i) = 3 ∨ s.fld (instStateF i) = 0 then s.dbRefused i
    else if inst.cqCount ≤ j then s.dbError none
    else
      let q := inst.cqBase + j
      match s.hcq q with
      | none => s.dbError none
      | some v =>
        let n := 2 ^ v.order
        let h := head % n
        if (v.tail + n - v.head) % n < (h + n - v.head) % n then s.dbError none
        else (s.setHcq q { v with head := h }).queueSpace q

/-- R451, Table Instances-6: an aligned 32-bit store at offset `o` of doorbell page `i`; every other store is dropped. -/
def State.dbStore (s : State) (i o v : Nat) (word : Bool) : State :=
  if ! word || o % 4 != 0 then s.dbError none
  else if o < 0xC00 then s.opDoorbell i (o / 4) (v % 65536)
  else if o < 0xF00 then s.opQueueHead i ((o - 0xC00) / 4) (v % 65536)
  else if o = 0xF80 then s.opDoorbell i (v / 2 ^ 16 % 4096) (v % 65536)
  else if o = 0xF84 then s.opQueueHead i (v / 2 ^ 16 % 1024) (v % 65536)
  else s.dbError none

/-- R451, Table Instances-6: the word at offset `o` (a multiple of 4) of doorbell page `i`. -/
def State.dbWord (s : State) (i o : Nat) : Nat :=
  match s.hinst i with
  | none => 0
  | some inst =>
    if o < 0xC00 then
      if o / 4 < inst.chCount then
        match s.hch (inst.chBase + o / 4) with | some k => k.tail + 2 ^ 16 * k.headOut | none => 0
      else 0
    else if o < 0xF00 then
      if (o - 0xC00) / 4 < inst.cqCount then
        match s.hcq (inst.cqBase + (o - 0xC00) / 4) with | some q => q.head + 2 ^ 16 * q.tail | none => 0
      else 0
    else if o = 0xF00 then i + 2 ^ 8 * s.fld (instGenF i) + 2 ^ 16 * s.fld (instStateF i)
    else if o = 0xF04 then inst.chBase + 2 ^ 16 * inst.chCount
    else if o = 0xF08 then inst.cqBase + 2 ^ 16 * inst.cqCount
    else if o = 0xF0C then inst.msgGroups
    else 0

/-- R395: the pending channel the intake serves next: highest PRIO, round-robin within it, of instances that are ACTIVE. -/
def State.nextPending (s : State) : Option Nat :=
  let cand := s.heddle.ch.filter (fun e => e.2.pending && ! e.2.dropping && s.fld (instStateF e.2.e.inst) == 1)
  match cand with
  | [] => none
  | _ =>
    let p := cand.foldl (fun m e => max m e.2.e.prio) 0
    let cs := (cand.filter (fun e => e.2.e.prio == p)).map (fun e => e.1)
    let last := (AMap.get? s.heddle.served p).getD 4095
    (cs.find? (fun c => decide (last < c))).orElse (fun _ => cs.head?)

/-- R390, R395, R402: the intake serves the next pending channel: its entry enters the channel cache and, unless it is
HALTED, it becomes ACTIVE if its ring holds items. -/
def State.opChannelFetch (s : State) : State :=
  if ! s.heddleRuns then s else
  match s.nextPending with
  | none => s
  | some c =>
    match s.cacheChannel c with
    | (_, false) => s
    | (s1, true) =>
      match s1.hch c with
      | none => s1
      | some k =>
        let s2 := s1.setHch c (({ k with pending := false } : HeddleChannel).settle)
        { s2 with heddle := { s2.heddle with served := AMap.put s2.heddle.served k.e.prio c } }

/-- The channel may read items: cached, served by the intake, ACTIVE, no record waiting, its instance ACTIVE, and not being invalidated. -/
def State.mayFetch (s : State) (c : Nat) (k : HeddleChannel) : Bool :=
  s.heddleRuns && s.heddle.cache.contains c && k.state == 2 && (! k.pending || ! k.items.isEmpty) && k.waiting.isEmpty && ! k.dropping &&
    s.fld (instStateF k.e.inst) == 1

/-- R150: the next ring item of channel `c` lies in the flash, which is busy. -/
def State.ringStalls (s : State) (k : HeddleChannel) : Bool :=
  s.heddleStalls k.e.inst (k.itemAt ((k.head + k.items.length) % k.size)) 32

/-- R403, R404, R491: the item at its turn: a prefetched one starts, with a held fault logged now; else the next published item
is read. -/
def State.opItemFetch (s : State) (c : Nat) : State :=
  match s.hch c with
  | none => s
  | some k =>
    if ! s.mayFetch c k then s else
    match k.items.find? (fun i => ! i.running) with
    | some it =>
      let s1 := match it.status with
        | some (2, w) => s.heddleFault c k.e.inst (if w = 1 then it.src else if w = 2 then it.dst else k.itemAt it.index) w
        | _ => s
      ((s1.touchChannel c).modItem c it.index (fun i => { i with running := true })).takeHeld c
    | none =>
      let idx := (k.head + k.items.length) % k.size
      if k.size ≤ k.items.length + 1 ∨ k.items.length = (k.tail + k.size - k.head) % k.size ∨ s.ringStalls k then s else
      let (s1, it) := (s.touchChannel c).readItem c k idx true
      match s1.hch c with
      | some k1 => (s1.setHch c { k1 with items := k1.items ++ [it] }).takeHeld c
      | none => s1

/-- R404: translate one address of a prefetched item; a fault is held, a walk that needs an A or D update is deferred. -/
def prefetchAddr (i a which : Nat) (write : Bool) (x : State × Option (Nat × Nat)) : State × Option (Nat × Nat) :=
  match x.2 with
  | some _ => x
  | none =>
    match x.1.heddleXlate i a write true with
    | (s1, .error .deferred) => (s1, none)
    | (s1, .error _) => (s1, some (2, which))
    | (s1, .ok _) => (s1, none)

/-- Tables Heddle-4 and USB-3: the item has a source in memory. -/
def State.readsSrc (s : State) (e : HeddleEntry) (it : HeddleItem) : Bool :=
  if e.kind = 7 then (if e.port < 0x70 then it.op == 1 || ! (s.pipeCfg (e.port - 0x40)).dirIn else epIn (e.port - 0x70))
  else [0, 1, 3, 5, 6].contains e.kind && ! (e.kind == 1 && it.op == 0)

/-- Tables Heddle-4 and USB-3: the item has a destination in memory. -/
def State.writesDst (s : State) (e : HeddleEntry) (it : HeddleItem) : Bool :=
  if e.kind = 7 then (if e.port < 0x70 then it.op == 1 || (s.pipeCfg (e.port - 0x40)).dirIn else ! epIn (e.port - 0x70))
  else [0, 1, 2, 4, 5, 6].contains e.kind && ! (e.kind == 1 && it.op == 2)

/-- R404: read and translate the item after those already read, up to PREFETCH beyond the executing ones. A fault of the
read itself is held as well. -/
def State.opItemPrefetch (s : State) (c : Nat) : State :=
  match s.hch c with
  | none => s
  | some k =>
    if ! s.mayFetch c k || decide (k.e.prefetch ≤ (k.items.filter (fun i => ! i.running)).length)
      || decide (k.items.length = (k.tail + k.size - k.head) % k.size) || s.ringStalls k then s
    else
      let idx := (k.head + k.items.length) % k.size
      let i := k.e.inst
      match (s.touchChannel c).heddleXlate i (k.itemAt idx) false true with
      | (s1, .error .deferred) => s1
      | (s1, .error _) => s1.setHch c { k with items := k.items ++ [HeddleItem.blank idx k.e.gen false (some (2, 3))] }
      | (s1, .ok _) =>
        let (s2, it) := s1.readItem c k idx false
        let src := s2.readsSrc k.e it
        let dst := s2.writesDst k.e it
        let x1 := if src && it.status.isNone then prefetchAddr i it.src 1 false (s2, none) else (s2, none)
        let x2 := if dst && it.status.isNone then prefetchAddr i it.dst 2 true x1 else x1
        match x2.1.hch c with
        | some k1 => x2.1.setHch c { k1 with items := k1.items ++ [{ it with status := if it.status.isSome then it.status else x2.2 }] }
        | none => x2.1

/-- R390, R413: a write to HEDDLE_CHC_INV. -/
def State.opChcInv (s : State) (ni : Nat) (v : DWord) : State :=
  let a := R.HEDDLE_CHC_INV
  if s.flag F.HEDDLE_CHC_INV_BUSY then s.refuse ni a 1 v (s.readReg a).toNat else
  let (s1, act) := s.storeReg ni a v
  if F.HEDDLE_CHC_INV_GO.of act = 0 then s1
  else if s1.flag F.HEDDLE_CHC_INV_ALL then
    (forAll s1.heddle.cache (fun c t => match t.hch c with
      | some k => if k.pinned then t else t.uncache c
      | none => t.uncache c) s1).setFld F.HEDDLE_CHC_INV_BUSY 1
  else
    let c := s1.fld F.HEDDLE_CHC_INV_CH
    if ! s1.heddle.cache.contains c then s1.raise P.HEDDLE E.HEDDLE_INV_DONE
    else
      let s2 := match s1.hch c with
        | some k => if k.pinned then
              (s1.setHch c { k.dropPrefetched with dropping := true }).afterUnpin c
            else s1.uncache c
        | none => s1.uncache c
      s2.setFld F.HEDDLE_CHC_INV_BUSY 1

/-- R407, R413: a write to HEDDLE_IOTLB_INV. -/
def State.opIotlbInv (s : State) (ni : Nat) (v : DWord) : State :=
  let a := R.HEDDLE_IOTLB_INV
  if s.flag F.HEDDLE_IOTLB_INV_BUSY then s.refuse ni a 1 v (s.readReg a).toNat else
  let (s1, act) := s.storeReg ni a v
  if F.HEDDLE_IOTLB_INV_GO.of act = 0 then s1 else
  let i := s1.fld F.HEDDLE_IOTLB_INV_INST
  let g := if s1.flag F.HEDDLE_IOTLB_INV_PAGE then some (s1.fld F.HEDDLE_IOTLB_INV_GPA) else none
  let late := match s1.hinst i with | some v => v.late | none => 0
  let out := (s1.heddle.ch.filter (fun e => e.2.e.inst == i)).map (fun e => (e.1, e.2.out))
  let s2 := (s1.dropTranslations i g).setFld F.HEDDLE_IOTLB_INV_BUSY 1
  { s2 with heddle := { s2.heddle with iotlbWait := some ⟨i, late, out⟩ } }

/-- R390, R407: the invalidation under way completes: false HEDDLE_CHC_INV, true HEDDLE_IOTLB_INV. It does not while its
channel is pinned, or while a transaction issued under an invalidated translation is outstanding. -/
def State.opInvDone (s : State) (iotlb : Bool) : State :=
  if iotlb then
    if s.flag F.HEDDLE_IOTLB_INV_BUSY && (match s.heddle.iotlbWait with | some w => w.over | none => true) then
      ({ s with heddle := { s.heddle with iotlbWait := none } }.setFld F.HEDDLE_IOTLB_INV_BUSY 0).raise P.HEDDLE E.HEDDLE_INV_DONE
    else s
  else if s.flag F.HEDDLE_CHC_INV_BUSY && ! s.heddle.ch.any (fun e => e.2.dropping) then
    (s.setFld F.HEDDLE_CHC_INV_BUSY 0).raise P.HEDDLE E.HEDDLE_INV_DONE
  else s

/-- R446: a result under the GEN before the squash comes back. -/
def State.opLateResult (s : State) (i : Nat) : State :=
  match s.hinst i with
  | none => s
  | some v => if v.late = 0 then s else s.lateHome i true

/-- DOORBELL: a store of a new TAIL on doorbell page `inst`, in the word of local channel `j` or, `indirect`, through
offset 0xF80. -/
def execDoorbell (inst : Fin 32) (j : BitVec 12) (indirect : Bool) (tail : BitVec 16) (s : State) : Host.Outcome State Fault Refusal :=
  let o := if indirect then 0xF80 else 4 * j.toNat
  if ! indirect && decide (768 ≤ j.toNat) then .next s
  else .next (s.dbStore inst.val o (tail.toNat + (if indirect then j.toNat * 2 ^ 16 else 0)) true)

/-- KICK: a Reed slot (`reed`) or a Shuttle channel kicks channel `ch`. -/
def execKick (ch : BitVec 12) (reed : Bool) (s : State) : Host.Outcome State Fault Refusal := .next (s.kickOrHold ch.toNat reed)

/-- CHANNEL_FETCH. -/
def execChannelFetch (s : State) : Host.Outcome State Fault Refusal := .next s.opChannelFetch

/-- ITEM_FETCH for channel `ch`. -/
def execItemFetch (ch : BitVec 12) (s : State) : Host.Outcome State Fault Refusal := .next (s.opItemFetch ch.toNat)

/-- ITEM_PREFETCH for channel `ch`. -/
def execItemPrefetch (ch : BitVec 12) (s : State) : Host.Outcome State Fault Refusal := .next (s.opItemPrefetch ch.toNat)

/-- R447: an item of a draining instance that has come to wait for port input ends SHORT. -/
def State.drainShort (s : State) (c : Nat) : State :=
  match s.hch c with
  | none => s
  | some k =>
    match k.current with
    | some it => if s.fld (instStateF k.e.inst) = 2 ∧ it.started ∧ s.waitsForInput k.e it then s.decideItem c it.index 1 0 else s
    | none => s

/-- ITEM_END: the oldest item of channel `ch` ends. -/
def execItemEnd (ch : BitVec 12) (s : State) : Host.Outcome State Fault Refusal := .next ((s.drainShort ch.toNat).endItem ch.toNat)

/-- CHC_INV: HEDDLE_CHC_INV is written with GO = 1. -/
def execChcInv (q : Req) (ch : BitVec 12) (all : Bool) (s : State) : Host.Outcome State Fault Refusal :=
  let v := BitVec.ofNat 64 (F.HEDDLE_CHC_INV_CH.at ch.toNat + F.HEDDLE_CHC_INV_ALL.at (b2n all) + F.HEDDLE_CHC_INV_GO.at 1)
  .next (s.gateWrite q R.HEDDLE_CHC_INV .w v (fun t => t.opChcInv q.ni.val v))

/-- IOTLB_INV: HEDDLE_IOTLB_INV is written with GO = 1. -/
def execIotlbInv (q : Req) (inst : Fin 32) (page : Bool) (gpa : BitVec 38) (s : State) : Host.Outcome State Fault Refusal :=
  let v := BitVec.ofNat 64 (F.HEDDLE_IOTLB_INV_INST.at inst.val + F.HEDDLE_IOTLB_INV_PAGE.at (b2n page)
    + F.HEDDLE_IOTLB_INV_GO.at 1 + F.HEDDLE_IOTLB_INV_GPA.at gpa.toNat)
  .next (s.gateWrite q R.HEDDLE_IOTLB_INV .d v (fun t => t.opIotlbInv q.ni.val v))

/-- INV_DONE. -/
def execInvDone (iotlb : Bool) (s : State) : Host.Outcome State Fault Refusal := .next (s.opInvDone iotlb)

/-- LATE_RESULT of instance `inst`. -/
def execLateResult (inst : Fin 32) (s : State) : Host.Outcome State Fault Refusal := .next (s.opLateResult inst.val)

/-- QUEUE_HEAD_WRITE: a store of a new head on doorbell page `inst`, in the word of local queue `j` or, `indirect`,
through offset 0xF84. -/
def execQueueHeadWrite (inst : Fin 32) (j : BitVec 10) (indirect : Bool) (head : BitVec 16) (s : State) : Host.Outcome State Fault Refusal :=
  let o := if indirect then 0xF84 else 0xC00 + 4 * j.toNat
  if ! indirect && decide (192 ≤ j.toNat) then .next s
  else .next (s.dbStore inst.val o (head.toNat + (if indirect then j.toNat * 2 ^ 16 else 0)) true)

end Sys2Proof.Machine
end

