-- ==== Sys2Proof/Machine/Loom.lean ====
section
/-! DEFINITION. The Loom's commands (R289 to R347): requests, responses and what ends or delays a transaction, picks and
rounds, commits, flit errors, statistics and probes. The data a transaction carries are the effect of the command of its
initiator; here it takes its token, its number and its place in the counts. -/
namespace Sys2Proof.Machine

/-! ### Requests -/

/-- R254, R293: NI `t` serves a request of NI `i` to `addr`: main memory at the L3 home of the line, which a home forwards to DRAM or NI_9;
pages at NI_10, the Cairn arrays at NI_14; and Heddle's data moves at the peripherals of NI_11, NI_12 and NI_13. -/
def State.loomServes (s : State) (i t addr : Nat) : Bool :=
  if i = 4 ∨ i = 5 then decide (i = homeOf addr) && (if s.inDram addr then t == 6 + dmcChannel addr else s.cacheable addr && t == 9)
  else if s.cacheable addr then decide (t = homeOf addr)
  else if 0x04000000 ≤ addr ∧ addr < 0x04400000 then t == 14
  else if 0x10000000 ≤ addr ∧ addr < 0x20000000 then t == 10
  else i == 8 && decide (11 ≤ t ∧ t ≤ 13)

/-- The channel whose request a packet is. -/
def State.packetChannel (s : State) (k : LoomPacket) : Option HeddleChannel :=
  match k.use with
  | .move c => if k.ini.val = 8 then s.hch c.toNat else none
  | _ => none

/-- R307: the reservation a packet names: a hart or NI_15 the one bound, for reads and writes of addresses that are no memory and of NC and IO
pages; a Heddle channel its own. Cacheable accesses use none. -/
def State.packetRes (s : State) (k : LoomPacket) : Option Nat :=
  let i := k.ini.val
  let io := k.io || ! s.cacheable k.addr.toNat
  if i ≤ 3 ∨ i = 15 then
    (if io && decide (k.op.val = 0 ∨ k.op.val = 3) && s.flag (F.LOOM_NI_CFG_BIND_EN i) then some (s.fld (F.LOOM_NI_CFG_RES_BIND i)) else none)
  else (s.packetChannel k).bind (fun c => c.e.res)

/-- R298: PRIO of a packet; none where no block sends it: a request of Heddle is a channel's, and a home reads for a miss that it holds. Only
the write-back of a home has no PRIO that a rule fixes. -/
def State.packetPrio (s : State) (k : LoomPacket) : Option Nat :=
  let i := k.ini.val
  if i ≤ 3 ∨ i = 15 then some (s.fld (F.LOOM_NI_CFG_PRIO i))
  else match k.cause, s.packetChannel k with
  | some (i0, x0), _ =>
    (s.txn i0.val x0.val).bind (fun u => if u.target = i ∧ lineOf u.addr = lineOf k.addr.toNat ∧ (i = 4 ∨ i = 5) then some u.prio else none)
  | none, some c => some c.e.prio
  | none, none => if (i = 4 ∨ i = 5) ∧ 3 ≤ k.op.val then some k.prio.val else none

/-- R290: CTX: the GEN of Heddle's instance, 0 for every other initiator. -/
def State.packetCtx (s : State) (k : LoomPacket) : Nat :=
  match s.packetChannel k with | some c => s.fld (instGenF c.e.inst) | none => 0

/-- The transaction of a packet, under reservation `res`. -/
def State.packetTxn (s : State) (k : LoomPacket) (t prio : Nat) (res : Option Nat) : LoomTxn :=
  ⟨k.ini.val, t, 0, k.op.val, k.addr.toNat, k.len.val, prio, false, res, s.packetCtx k, 0, k.priv, k.pref, k.data, k.use, prio, false, 0, false, false⟩

/-- R294 to R298, R307: an NI takes a request. NI_10 makes none but the image reads of a commit (R297). -/
def State.opLoomRequest (s : State) (k : LoomPacket) : State :=
  let i := k.ini.val
  let addr := k.addr.toNat
  let res := (s.packetRes k).bind (fun r => s.resFor i k.target.val addr r)
  let t := match res with
    | some r => if resDram (s.loom.live.word r) then 6 + dmcChannel addr else resTarget (s.loom.live.word r)
    | none => k.target.val
  let pref := k.pref && decide (i ≤ 3 ∧ k.op.val ≤ 2)
  match s.packetPrio k with
  | none => s
  | some prio =>
    let x := s.packetTxn k t prio res
    if ! niInitiator i || i == 10 || ! niTarget t || t = i || ! s.niClocked i || lineOf addr != lineOf (addr + k.len.val) then s
    else
      match res with
      | some r => if resDram (s.loom.live.word r) || s.loomServes i t addr then s.setQueued r (s.queuedRes r ++ [x]) else s
      | none =>
        if ! s.loomServes i t addr then s
        else if k.ahead && pref then
          match s.takeToken i t with
          | some s1 => s1.setAhead i t (s1.aheadOf i t + 1)
          | none => s
        else if (s.txidFree i).isNone then s
        else if 0 < s.aheadOf i t ∧ pref then (s.setAhead i t (s.aheadOf i t - 1)).inject x
        else
          match s.takeToken i t with
          | some s1 => s1.inject x
          | none => s

/-- R296, R328: a token taken ahead of a prefetch read goes back unused. -/
def State.opSpecReturn (s : State) (i t : Nat) : State :=
  if s.aheadOf i t = 0 ∨ ! s.fabricRuns then s else
  let s1 := (s.setAhead i t (s.aheadOf i t - 1)).returnToken i t
  s1.when (s1.statPasses i 0 t false none) (fun u => u.count48 (F.LOOM_NI_CNT_VALUE i 7) (F.LOOM_NI_CNT_OF i 7) 1)

/-! ### Responses -/

/-- R205, R291, R317: the block of an initiator takes an error: a hart its access fault, a Heddle move its status and DETAIL, the debug module
sberror 2. -/
def State.loomFault (s : State) (t : LoomTxn) (move : Nat × Nat) : State :=
  let fault (cause : Nat) (va : DWord) : State :=
    if s.hartLive t.init then (s.modHart t.init (fun h => h.scoutRestore.trapDrained (Trap.exc cause va))).mirror t.init else s
  match t.use with
  | .nothing => s
  | .fetch va => fault 1 va
  | .load va => fault 5 va
  | .store va => fault 7 va
  | .move c =>
    match (s.hch c.toNat).bind (fun k => k.current) with
    | some it => s.decideItem c.toNat it.index move.1 move.2
    | none => s
  | .systemBus => { s with dm := { s.dm with sberror := 2 } }

/-- R446: the instance for which the mover made a transaction, when its GEN has moved on since. -/
def State.staleFor (s : State) (t : LoomTxn) : Option Nat :=
  match t.use with
  | .move c => if t.init = 8 then
      (s.hch c.toNat).bind (fun k => if t.ctx ≠ s.fld (instGenF k.e.inst) then some k.e.inst else none) else none
  | _ => none

/-- R303: the response of a guaranteed transaction has missed its return pick. -/
def State.isLate (s : State) (t : LoomTxn) : Bool := s.loom.waiting.any (fun w => w.init == t.init && w.txid == t.txid && w.plane != 0)

/-- R300: return pick p + 2 begins 304 ns after request pick p: no guaranteed response is launched earlier. -/
def State.returnOpen (s : State) (t : LoomTxn) : Bool := ! t.guar || decide (9 ≤ s.pickAge t)

/-- R291: the 32-byte halves of the line that a read asks for which hold a poisoned word. -/
def State.poisonedHalves (s : State) (t : LoomTxn) : Nat :=
  let l := lineOf t.addr
  if 3 ≤ t.op ∨ ! s.cacheable l then 0 else b2n (s.anyPoison l 32) + 2 * b2n (s.anyPoison (l + 32) 32)

/-- R291, R294, R327 to R329, R342, R446: the response of a transaction arrives with its STATUS. A read that does not fail brings POISON for the
halves that are marked, and for those that this read finds poisoned. -/
def State.opLoomResponse (s : State) (i x status halves li lt : Nat) : State :=
  match s.txn i x with
  | none => s
  | some t =>
    let poison := if t.op < 3 ∧ status ≠ 1 then s.poisonedHalves t ||| (if status = 2 then halves else 0) else 0
    let st := if status = 1 then 1 else if poison = 0 then 0 else 2
    if t.abandoned || t.lost || ! s.returnOpen t || (status == 2 && poison == 0) then s
    else
      let ok := decide (st = 0)
      let s1 := ((((s.arrive t).dropTxn t).statEnd i 0 t.target t ok li).statEnd t.target 1 i t ok lt).respond (! ok)
        (BitVec.ofNat 64 (t.response st poison))
      match s.staleFor t with
      | some n => s1.lateHome n true
      | none => if ok then s1 else s1.loomFault t (3, if st = 2 then 1 else 2)

/-- R302: the L3 home of the line of a guaranteed DRAM transaction resolves coherence: L2 copies are snooped; a write leaves no copy. -/
def State.opHomeCheck (s : State) (i x : Nat) : State :=
  match s.txn i x with
  | none => s
  | some t =>
    let l := lineOf t.addr
    if t.res.isNone || ! (t.target == 6 || t.target == 7) || t.abandoned || t.lost then s
    else if 3 ≤ t.op then (((s.arrive t).snoop 1 l none).evict .l3 l)
    else (s.arrive t).snoop 0 l none

/-- R303: a guaranteed response misses its return pick and goes on as a best-effort packet at priority 3. -/
def State.opLateReturn (s : State) (i x : Nat) : State :=
  match s.txn i x with
  | none => s
  | some t =>
    let w : WaitingPacket := ⟨responsePlane (responseType t.op 0), niRouter t.target, i, x, 3⟩
    if ! t.guar || t.abandoned || t.lost || t.target == 6 || t.target == 7 || decide (s.pickAge t < 10) || s.isLate t then s
    else
      let s0 := s.arrive t
      let s1 := ({ s0 with loom := { s0.loom with waiting := s0.loom.waiting ++ [w] } } : State).liftEarlier w.plane t 3
      (s1.bumpSat (F.LOOM_NI_ERR_COUNT t.target 2) (F.LOOM_NI_ERR_SAT t.target 2)).raise (P.LOOM_NI t.target) E.LOOM_NI_LATE_RETURN

/-- R292, R298: a packet has waited 1,024 cycles in one router of its route; the level it gains passes to those before it (R295). -/
def State.opAging (s : State) (router plane i x : Nat) : State :=
  match s.txn i x with
  | none => s
  | some t =>
    if ! s.flag F.LOOM_CTRL_AGING || (t.guar && (plane == 0 || ! s.isLate t)) || t.lost || plane == 2 || ! t.crosses plane router ||
        (plane == 0 && t.arrived) then s else
    let was := match s.loom.waiting.find? (fun w => w.plane == plane && w.router == router && w.init == i && w.txid == x) with
      | some w => w.level
      | none => if plane = 0 then t.level else if t.guar then 3 else t.prio
    let now : WaitingPacket := ⟨plane, router, i, x, min 3 (was + 1)⟩
    let mine (w : WaitingPacket) : Bool := w.plane == plane && w.init == i && w.txid == x
    let ws := if s.loom.waiting.any mine then s.loom.waiting.map (fun w => if mine w then now else w) else s.loom.waiting ++ [now]
    ({ s with loom := { s.loom with waiting := ws } } : State).liftEarlier plane t now.level

/-- R317: the target has held a request for 90 µs. -/
def State.opAbandon (s : State) (i x : Nat) : State :=
  match s.txn i x with
  | none => s
  | some t =>
    if t.abandoned || t.lost then s
    else (((s.arrive t).modTxn i x (fun u => { u with abandoned := true })).bumpSat (F.LOOM_NI_ERR_COUNT t.target 3)
      (F.LOOM_NI_ERR_SAT t.target 3)).raise (P.LOOM_NI t.target) E.LOOM_NI_ABANDON

/-- R150, R317: the oldest access of NI `i` that waits for the flash has waited 100 µs: it ends as any timeout does. -/
def State.xipTimeout (s : State) (i : Nat) : State :=
  match s.boot.xip.find? (fun w => w.req.ni.val == i) with
  | none => s
  | some w =>
    let rest := s.boot.xip.erase w
    let s1 := (({ s with boot := { s.boot with xip := rest } } : State).setFlag F.OSPI_STAT_XIP_WAIT (! rest.isEmpty)).loomTimeout i 9 w.addr
    match w.origin with
    | .command => s1.respond true 0#64
    | .hart h cause va => if s1.hartLive h then (s1.modHart h (fun t => t.scoutRestore.trapDrained (Trap.exc cause va))).mirror h else s1
    | .systemBus => { s1 with dm := { s1.dm with sberror := 2 } }

/-- R317: a transaction has been outstanding for 100 µs; a number that names none is that of an access that waits for the flash. -/
def State.opInitiatorTimeout (s : State) (i x : Nat) : State :=
  match s.txn i x with
  | none => s.xipTimeout i
  | some t =>
    let s1 := ((if t.lost then s else s.arrive t).dropTxn t).loomTimeout i t.target t.addr
    match s.staleFor t with
    | some n => s1.lateHome n false
    | none => s1.loomFault t (9, 0)

/-- R292, R318, Table Belay-8: a flit error at `router` on `plane` in a packet of transaction `x` of NI `i`. A packet of a transaction held
crosses only the routers of its route. -/
def State.opFlitEcc (s : State) (router plane : Nat) (ue : Bool) (i x : Nat) : State :=
  let off := match s.txn i x with | some t => ! t.crosses plane router | none => false
  if off || ! s.fabricRuns then s else
  let shot := s.belay.flitShots.contains (router, plane, ue)
  let s0 : State := { s with belay := { s.belay with flitShots := s.belay.flitShots.erase (router, plane, ue) } }
  if ! ue then ((s0.bumpSat F.LOOM_ECC_CE_COUNT F.LOOM_ECC_CE_SAT).raise P.LOOM_CFG E.LOOM_CFG_ECC_CE).corrected 5 router 0 plane
  else
    let s1 := (s0.bumpSat F.LOOM_ECC_UE_COUNT F.LOOM_ECC_UE_SAT).raise P.LOOM_CFG E.LOOM_CFG_ECC_UE
    let s2 := if s1.flag F.LOOM_ECC_WHERE_VALID then s1
      else s1.setReg R.LOOM_ECC_WHERE (BitVec.ofNat 64 (router + 2 ^ 4 * plane + 2 ^ 31))
    let s3 := match s2.txn i x with
      | some t => (if plane = 0 then s2 else s2.arrive t).modTxn i x (fun u => { u with lost := true })
      | none => s2
    s3.signal { FaultInput.of 5 router 0 plane with injected := shot }

/-! ### Statistics and probes -/

/-- R331: a write to LOOM_NI_STAT_CFG of NI `n`. -/
def State.opStatCfg (s : State) (ni n : Nat) (v : DWord) : State :=
  let (s1, act) := s.storeReg ni (R.LOOM_NI_STAT_CFG n) v
  s1.when (decide ((F.LOOM_NI_STAT_CFG_CLEAR n).of act = 1)) (fun t => t.statClear n)

/-- R337: a write to LOOM_PROBE_CTRL of probe `n`; a change of TRACE_EN from 0 to 1 starts the trace afresh. -/
def State.opProbeCtrl (s : State) (ni n : Nat) (v : DWord) : State :=
  let s1 := (s.storeReg ni (R.LOOM_PROBE_CTRL n) v).1
  s1.when (! s.flag (F.LOOM_PROBE_CTRL_TRACE_EN n) && s1.flag (F.LOOM_PROBE_CTRL_TRACE_EN n))
    (fun t => t.setReg (R.LOOM_PROBE_TRACE_STAT n) 0#64)

/-- Table Counting-4: the two words of a record. -/
def State.traceRecord (s : State) (plane head flit1 cycle : Nat) : Nat × Nat :=
  let time := (s.fld F.LOOM_ROUND_ROUND * 8192 + s.fld F.LOOM_ROUND_PICK * 32 + cycle) % 2 ^ 32
  (time + 2 ^ 32 * plane + 2 ^ 34 * flit1, head)

/-- R337: a matching packet reaches the trace of probe `n`. -/
def State.trace (s : State) (n plane head flit1 cycle : Nat) : State :=
  if ! s.flag (F.LOOM_PROBE_CTRL_TRACE_EN n) then s
  else if s.flag (F.LOOM_PROBE_TRACE_STAT_STOPPED n) then
    (s.bumpSat (F.LOOM_PROBE_TRACE_STAT_LOST n) (F.LOOM_PROBE_TRACE_STAT_SAT n)).raise (P.LOOM_PROBE n) E.LOOM_PROBE_TRACE_LOST
  else
    let p := s.fld (F.LOOM_PROBE_TRACE_STAT_PTR n)
    let r := s.traceRecord plane head flit1 cycle
    let s1 := ((s.setReg (R.LOOM_PROBE_TRACE n (2 * p)) (BitVec.ofNat 64 r.1)).setReg (R.LOOM_PROBE_TRACE n (2 * p + 1)) (BitVec.ofNat 64 r.2)).setFld
      (F.LOOM_PROBE_TRACE_STAT_PTR n) (p + 1)
    if p < 127 then s1
    else if s.flag (F.LOOM_PROBE_CTRL_TRACE_WRAP n) then s1.setFld (F.LOOM_PROBE_TRACE_STAT_WRAPPED n) 1
    else ((s1.setFld (F.LOOM_PROBE_TRACE_STAT_STOPPED n) 1).raise (P.LOOM_PROBE n) E.LOOM_PROBE_TRACE_FULL).probePulse n 3

/-- R333, R345: a port of a router that carries packets. -/
def portCarries (router port : Nat) : Bool :=
  if port = 0 then decide (4 ≤ router) else if port = 1 then decide (router % 4 < 3) else if port = 2 then decide (router < 8)
  else if port = 3 then decide (0 < router % 4) else decide (port ≤ 5)

/-- R335: what a matching packet adds to a counter with this EVT_SEL. -/
def probeAdds (sel plane head flit1 flits waited : Nat) : Nat :=
  if sel = 0 then 1
  else if sel = 1 then flits
  else if sel = 2 then b2n (plane == 0 && head.testBit 10)
  else if sel = 3 then waited
  else if sel = 5 then b2n ((plane == 1 || plane == 3) && (head / 2 ^ 17 % 4 != 0 || (plane == 3 && head / 2 ^ 32 % 4 != 0)))
  else if sel = 6 then b2n (plane == 0 && flit1.testBit 22)
  else 0

/-- R289, R290: a packet with this header and length may cross a plane: its layout is legal, and one that belongs to a transaction outstanding is
that transaction's request or response. -/
def State.carries (s : State) (plane head flit1 flits : Nat) : Bool :=
  headLegal plane head flit1 flits &&
  (if plane = 0 then
    match s.txn (head / 2 ^ 4 % 16) (head / 2 ^ 15 % 64) with
    | some t => head == t.req0 && flit1 == t.req1 && flits == t.reqFlits
    | none => true
  else if plane = 2 ∨ snoopAnswer (head / 2 ^ 14 % 8) then true
  else
    match s.txn (head % 16) (head / 2 ^ 8 % 64) with
    | some t => let st := head / 2 ^ 17 % 4; head == t.response st (head / 2 ^ 32) && flits == t.responseFlits st
    | none => true)

/-- R333 to R337: a header crosses the port that probe `n` watches, after waiting there, in this cycle of the pick. -/
def State.opProbeMatch (s : State) (n head flit1 flits waited cycle : Nat) : State :=
  let plane := s.fld (F.LOOM_PROBE_CTRL_PLANE n)
  let h := if plane = 1 then head % 2 ^ 32 else if plane = 3 then head % 2 ^ 34 else head
  let f := if plane = 0 then flit1 else 0
  let word (k : Nat) : Nat := (s.raw (R.LOOM_PROBE_MATCH n k)).toNat
  let hit := decide (h &&& word 1 = word 0 &&& word 1) && decide (f &&& word 3 = word 2 &&& word 3)
  if ! s.fabricRuns || ! s.probeRuns n || ! hit || ! s.carries plane h f flits || ! portCarries (s.fld (F.LOOM_PROBE_CTRL_ROUTER n)) (s.fld (F.LOOM_PROBE_CTRL_PORT n)) then s
  else
    let s1 := forEach 4 (fun k t => t.probeCount n k (probeAdds (t.evtSel n k) plane h f flits waited)) s
    (s1.probePulse n 1).trace n plane h f cycle

/-! ### Commands -/

/-- LOOM_REQUEST. -/
def execLoomRequest (k : LoomPacket) (s : State) : Host.Outcome State Fault Refusal := .next (s.opLoomRequest k)

/-- LOOM_RESPONSE with its STATUS, the poisoned halves, and the latencies seen at the initiator and at the target. -/
def execLoomResponse (ini : Fin 16) (txid : Fin 64) (status : Fin 3) (halves : Fin 4) (li lt : BitVec 32) (s : State) :
    Host.Outcome State Fault Refusal :=
  .next (s.opLoomResponse ini.val txid.val status.val halves.val li.toNat lt.toNat)

/-- SPEC_TOKEN_RETURN. -/
def execSpecTokenReturn (hart : Fin 4) (target : Fin 16) (s : State) : Host.Outcome State Fault Refusal :=
  .next (s.opSpecReturn hart.val target.val)

/-- PICK_START of request pick `pick`. -/
def execPickStart (pick : Byte) (s : State) : Host.Outcome State Fault Refusal := .next (s.opPickStart pick.toNat)

/-- HOME_CHECK of the line of a transaction. -/
def execHomeCheck (ini : Fin 16) (txid : Fin 64) (s : State) : Host.Outcome State Fault Refusal := .next (s.opHomeCheck ini.val txid.val)

/-- LATE_RETURN. -/
def execLateReturn (ini : Fin 16) (txid : Fin 64) (s : State) : Host.Outcome State Fault Refusal := .next (s.opLateReturn ini.val txid.val)

/-- AGING. -/
def execAging (router : Fin 12) (plane : Fin 4) (ini : Fin 16) (txid : Fin 64) (s : State) : Host.Outcome State Fault Refusal :=
  .next (s.opAging router.val plane.val ini.val txid.val)

/-- COMMIT: a write of LOOM_COMMIT with GO = 1. -/
def execCommit (q : Req) (s : State) : Host.Outcome State Fault Refusal :=
  .next (s.gateWrite q R.LOOM_COMMIT .w 1#64 (fun t => t.opCommit q.ni.val 1#64))

/-- COMMIT_SWAP. -/
def execCommitSwap (s : State) : Host.Outcome State Fault Refusal := .next s.opCommitSwap

/-- ROUND_BOUNDARY. -/
def execRoundBoundary (s : State) : Host.Outcome State Fault Refusal := .next s.opRoundBoundary

/-- TARGET_ABANDON. -/
def execTargetAbandon (ini : Fin 16) (txid : Fin 64) (s : State) : Host.Outcome State Fault Refusal := .next (s.opAbandon ini.val txid.val)

/-- INITIATOR_TIMEOUT. -/
def execInitiatorTimeout (ini : Fin 16) (txid : Fin 64) (s : State) : Host.Outcome State Fault Refusal :=
  .next (s.opInitiatorTimeout ini.val txid.val)

/-- FLIT_ECC. -/
def execFlitEcc (router : Fin 12) (plane : Fin 4) (ue : Bool) (ini : Fin 16) (txid : Fin 64) (s : State) : Host.Outcome State Fault Refusal :=
  .next (s.opFlitEcc router.val plane.val ue ini.val txid.val)

/-- STAT_CLEAR: a write of LOOM_NI_STAT_CFG of NI `n` with CLEAR = 1 and these other fields. -/
def execStatClear (q : Req) (n : Fin 16) (v : DWord) (s : State) : Host.Outcome State Fault Refusal :=
  .next (s.gateWrite q (R.LOOM_NI_STAT_CFG n.val) .d (v ||| 2#64) (fun t => t.opStatCfg q.ni.val n.val (v ||| 2#64)))

/-- PROBE_MATCH. -/
def execProbeMatch (n : Fin 8) (head : DWord) (flit1 : BitVec 30) (flits : Fin 11) (waited : BitVec 16) (cycle : Fin 32) (s : State) :
    Host.Outcome State Fault Refusal :=
  .next (s.opProbeMatch n.val head.toNat flit1.toNat flits.val waited.toNat cycle.val)

end Sys2Proof.Machine
end

