-- ==== Sys2Proof/Machine/MemCtlOps.lean ====
section
/-! DEFINITION. L3 maintenance, the scrubbers, the DRAM controller's temperatures, refresh and queues, and the MRAMC's bank
queues (R263 to R288). -/
namespace Sys2Proof.Machine

/-- Bits of an upset. -/
def upsetBits (u : EccUpset) : List Nat :=
  match u with
  | .none => []
  | .one a => [a.val]
  | .two a b => [a.val, b.val]
  | .three a b c => [a.val, b.val, c.val]

/-! ### L3 maintenance -/

/-- R288: a write to L3_MAINT: an operation starts, or is refused with reason 1 while one runs. -/
def State.opL3Maint (s : State) (ni : Nat) (v : DWord) : State :=
  let op := F.L3_MAINT_OP.of v
  if s.flag F.L3_MAINT_BUSY && op != 0 then
    s.refuse ni R.L3_MAINT 1 v (match s.memory.maint with | some m => m.1 | none => 0)
  else
    let (s1, act) := s.storeReg ni R.L3_MAINT v
    let k := F.L3_MAINT_OP.of act
    if k = 0 then s1
    else
      let s2 := s1.setFld F.L3_MAINT_BUSY 1
      { s2 with memory := { s2.memory with maint := some (k, s2.partMask (s2.fld F.L3_MAINT_PART)) } }

/-- R288: the walk and the write-backs of the operation under way end. -/
def State.maintDone (s : State) : State :=
  match s.memory.maint with
  | none => s
  | some (op, ways) =>
    if ! s.fabricRuns then s else
    let ls := s.memory.lines.filter (fun x => x.cache == .l3)
    let s1 := if op = 1 then forAll (ls.filter (fun x => x.dirty)) (fun x t => t.writeBack x.line) s
      else forAll (ls.filter (fun x => ways.testBit x.way)) (fun x t => t.dropL3 x.line) s
    let s2 : State := { s1 with memory := { s1.memory with maint := none } }
    (s2.setFld F.L3_MAINT_BUSY 0).raise P.L3 E.L3_MAINT_DONE

/-! ### Scrubbing -/

/-- The line in a set and way of the L3. -/
def State.l3At (s : State) (set way : Nat) : Option Nat :=
  (s.memory.lines.find? (fun x => decide (x.cache = .l3 ∧ x.line / 64 % 2048 = set ∧ x.way = way))).map (fun x => x.line)

/-- R279: one slice of the L3 reads one line with its tag and directory entries, and the snoop-filter entry of the same set and way; an upset
lies in array `hit`. -/
def State.scrubSlice (s : State) (slice index hit word : Nat) (up : List Nat) : State :=
  let set := 2 * (index / 16) + slice
  let read (k l : Nat) (t : State) : State := t.eccLine k 0 l 1 word (if k = hit then up else [])
  let s1 := match s.l3At set (index % 16) with
    | none => s
    | some l => forAll [3, 4, 5] (fun k t => if k ≠ 3 ∧ (t.lineIn .l3 l).isNone then t else read k l t) s
  match (s1.filterLines set)[index % 16]? with
  | none => s1
  | some l => read 6 l s1

/-- R279: both slices scrub the next line; a pass of 16,384 lines shows in BELAY_SCRUB_STAT. -/
def State.scrubL3 (s : State) (slice hit word : Nat) (up : List Nat) : State :=
  if ! s.flag F.L3_CFG_SCRUB_EN || ! s.fabricRuns then s else
  let k := s.memory.l3Scrub
  let s1 := forEach 2 (fun c t => t.scrubSlice c k hit word (if c = slice then up else [])) s
  let s2 : State := { s1 with memory := { s1.memory with l3Scrub := (k + 1) % 16384 } }
  if k + 1 = 16384 then s2.setFld F.BELAY_SCRUB_STAT_L3_PASS_US (16384 * s2.fld F.L3_SCRUB_INTERVAL / 1000) else s2

/-- The line in a set and way of a cache array. -/
def State.lineAt (s : State) (c : CacheId) (index : Nat) : Option Nat :=
  let n := cacheSets c
  (s.memory.lines.find? (fun x => x.cache == c && x.line / 64 % n == index / cacheWays c % n && x.way == index % cacheWays c)).map (fun x => x.line)

/-- R279: one line of each fixed-rate array: L1I, L1D and L2 of every hart, the L2 with its tags, and base camp; an upset lies in the array
named. -/
def State.scrubSram (s : State) (hit : SramArray) (word : Nat) (up : List Nat) : State :=
  if ! s.fabricRuns then s else
  let k := s.memory.sramScrub
  let one (c : CacheId) (array h : Nat) (isHit : Bool) (t : State) : State :=
    match t.lineAt (t.mirrored c) k with
    | some l => t.eccLine array h l 1 word (if isHit then up else [])
    | none => t
  let s1 := forEach 4 (fun h t =>
    one (.l2 h) 10 h (match hit with | .l2tag x => x.val == h | _ => false)
      (one (.l2 h) 2 h (match hit with | .l2 x => x.val == h | _ => false)
      (one (.l1d h) 1 h (match hit with | .l1d x => x.val == h | _ => false)
        (one (.l1i h) 0 h (match hit with | .l1i x => x.val == h | _ => false) t)))) s
  let s2 := s1.eccLine 9 0 (0x01000000 + 64 * k) 1 word (match hit with | .baseCamp => up | _ => [])
  let s3 : State := { s2 with memory := { s2.memory with sramScrub := (k + 1) % 16384 } }
  if k + 1 = 16384 then
    let (v, s4) := s3.takeFree
    s4.setFld F.BELAY_SCRUB_STAT_SRAM_PASS_US (v.toNat % 10001)
  else s3

/-- Visible lines of a channel. -/
def State.channelLines (s : State) : Nat := (s.dramTop - 0x80000000) / 128

/-! ### Temperature and refresh -/

/-- Table Memory-5: the rate a temperature selects. -/
def tempRateOf (t : Int) : Nat := if t ≤ 85 then 0 else if t ≤ 105 then 1 else 2

/-- R270: the rate and the count of cool readings after a reading of the hotter die. -/
def nextRate (rate cool : Nat) (t : Int) : Nat × Nat :=
  if rate < tempRateOf t then (tempRateOf t, 0)
  else if rate = 0 then (0, 0)
  else if t ≤ (if rate = 2 then 102 else 82) then (if cool + 1 = 10 then (rate - 1, 0) else (rate, cool + 1))
  else (rate, 0)

/-- R270, R271: events of a change of the rate in force and of HOT. -/
def State.noteRate (s before : State) : State :=
  let s1 := s.when (s.dmcRate != before.dmcRate) (fun t => t.raise P.DMC E.DMC_RATE_CHANGE)
  s1.when (s.dmcHot && ! before.dmcHot) (fun t => t.raise P.DMC E.DMC_HOT)

/-- R270: the DMC reads both die temperatures. -/
def State.readTemps (s : State) (a b : Byte) : State :=
  let t := max a.toInt b.toInt
  let (r, c) := nextRate s.memory.tempRate s.memory.coolReadings t
  let s1 := (s.setFld F.DMC_TEMP_DIE_A a.toNat).setFld F.DMC_TEMP_DIE_B b.toNat
  ({ s1 with memory := { s1.memory with tempRate := r, coolReadings := c } } : State).noteRate s

/-- R270: the next bank of a channel is refreshed, round-robin, which closes its row; in self-refresh the dies refresh themselves. -/
def State.refresh (s : State) (channel : Nat) : State :=
  if s.flag F.DMC_SELFREF_IN_SR || ! decide (s.power.phase = .run) then s else
  let (a, b) := s.memory.refreshBank
  let s1 := s.closeRow channel (if channel = 0 then a else b)
  { s1 with memory := { s1.memory with refreshes := s.memory.refreshes + 1,
                                       refreshBank := if channel = 0 then ((a + 1) % 8, b) else (a, (b + 1) % 8) } }

/-! ### DMC queues -/

/-- All 128 buffers of a channel are in use. -/
def State.dmcFull (s : State) (c : Nat) : Bool := decide (128 ≤ (s.memory.dmc.filter (fun r => r.channel == c)).length)

/-- R268: a request enters its queue; with all 128 buffers of the channel in use it waits for a token and nothing changes. A
request outside visible DRAM, or across two lines, reaches no channel. What caches hold of a line that is written here goes home first, and
they keep no copy (notes/assumptions/23.md). -/
def State.dmcAccept (s : State) (a len : Nat) (data : List Byte) (guar : Bool) (prio : Nat) : State :=
  let c := dmcChannel a
  let n := len + data.length
  if ! s.inDram a || n = 0 || lineOf a != lineOf (a + n - 1) || s.dmcFull c then s
  else
    let s1 := if data.isEmpty then s else (s.writeBack (lineOf a)).dropAll (lineOf a)
    s1.setDmc (s1.memory.dmc ++ [⟨c, a, if guar then 0 else if 2 ≤ prio then 1 else 2, len, data, none⟩])

/-- R268: position `i` of the buffers holds a request of the channel and queue that no older request to the same line holds back. -/
def State.dmcReady (s : State) (channel queue i : Nat) : Bool :=
  match s.memory.dmc[i]? with
  | none => false
  | some r => r.channel == channel && r.queue == queue && ! (s.memory.dmc.take i).any (fun o => lineOf o.addr == lineOf r.addr)

/-- R268: the next request of a queue: the oldest that hits an open row, else the oldest. -/
def State.dmcPick (s : State) (channel queue : Nat) : Option Nat :=
  let ready := (List.range s.memory.dmc.length).filter (s.dmcReady channel queue)
  (ready.find? (fun i => match s.memory.dmc[i]? with | some r => s.memory.openRows.contains (rowOf r.addr) | none => false)).orElse
    fun _ => ready.head?

/-- R268: the channel serves its next request: guaranteed, then urgent, then normal. -/
def State.dmcServe (s : State) (channel : Nat) : State :=
  match [0, 1, 2].findSome? (s.dmcPick channel) with
  | none => s
  | some i => s.dmcServeAt i

/-- R268: the `k`-th request of the channel's normal queue has waited `ns`: past NORMAL_AGE it moves to the urgent queue. -/
def State.dmcAge (s : State) (channel k ns : Nat) : State :=
  if ns ≤ s.fld F.DMC_QOS_NORMAL_AGE then s else
  match ((List.range s.memory.dmc.length).filter (fun i =>
    match s.memory.dmc[i]? with | some r => r.channel == channel && r.queue == 2 | none => false))[k]? with
  | none => s
  | some i => s.setDmc (s.memory.dmc.mapIdx (fun j r => if j = i then { r with queue := 1 } else r))

/-- R268: the open row of a bank has been idle for `ns`: from PAGE_IDLE × 8 ns on it is closed. -/
def State.dmcIdle (s : State) (channel bank ns : Nat) : State :=
  if s.fld F.DMC_CTRL_PAGE_IDLE * 8 ≤ ns then s.closeRow channel bank else s

/-- R102, R268: one step of a channel, which stands still while the DMC is not clocked. -/
def State.dramStep (s : State) (k : DramStep) : State :=
  if ! s.fabricRuns then s else
  match k with
  | .accept addr (some bs) _ guar prio => s.dmcAccept addr.toNat 0 (bs.take 64) guar prio.val
  | .accept addr none len guar prio => s.dmcAccept addr.toNat len.val [] guar prio.val
  | .serve channel => s.dmcServe channel.val
  | .age channel k ns => s.dmcAge channel.val k.val ns
  | .idle channel bank ns => s.dmcIdle channel.val bank.val ns

/-! ### The DMC scrub -/

/-- R272: the scrub read of a channel enters its normal queue; one that finds the channel idle is served at once. -/
def State.scrubIssue (s : State) (channel word : Nat) (up : List Nat) : State :=
  let l := dmcAddr channel (64 * s.memory.dmcScrub.1)
  let idle := ! s.memory.dmc.any (fun r => r.channel == channel)
  (s.setDmc (s.memory.dmc ++ [⟨channel, l, 2, 64, [], some (word, up)⟩])).when idle (fun t => { t.dmcServe channel with resp := s.resp })

/-- R272, R280: both channels scrub the next line in ascending order. A scrub read that finds no buffer free, or the one before it still
waiting, waits too, and nothing changes (notes/assumptions/24.md). -/
def State.scrubDmc (s : State) (channel word : Nat) (up : List Nat) : State :=
  if ! s.flag F.DMC_CTRL_SCRUB_EN || s.flag F.DMC_SELFREF_IN_SR || ! s.fabricRuns then s
  else if s.dmcFull 0 || s.dmcFull 1 || s.memory.dmc.any (fun r => r.scrub.isSome) then s else
  let k := s.memory.dmcScrub.1
  let s1 := forEach 2 (fun c t => t.scrubIssue c word (if c = channel then up else [])) s
  let n := (k + 1) % s1.channelLines
  let s2 := ({ s1 with memory := { s1.memory with dmcScrub := (n, n) } } : State).setFld F.DMC_SCRUB_POS_LINE n
  if n = 0 then (s2.setFld F.DMC_SCRUB_POS_WRAPPED 1).raise P.DMC E.DMC_SCRUB_PASS else s2

/-- The flips of an upset, one for each bit. -/
def upsetFlips (array unit w : Nat) (up : List Nat) : List EccFlip := up.map (fun b => ⟨array, unit, w, b, none, false⟩)

/-- R255, R590: a demand read of the codeword at `a`. An upset of one bit in a check block is one of the bits 64–71 of a codeword. One
in the mask ROM stays: nothing can rewrite it. -/
def State.demandEcc (s : State) (array unit a : Nat) (check : Bool) (up : List Nat) : State :=
  let w := codewordOf array a
  if array = 7 ∧ ! s.inDram a ∨ array = 8 ∧ ! inMram a ∨ array = 9 ∧ ! (inBaseCamp a || inRom a) ∨ array = 10 ∧ (s.arrayLine (.l2 unit) w).isNone then s
  else if array = 7 ∧ check ∧ 2 ≤ up.length then s.checkBlockLost (lineOf a)
  else if array = 9 ∧ inRom w then (s.setFlips (s.memory.flips ++ upsetFlips 9 0 w up)).eccWord 9 0 w 0 []
  else s.eccWord array unit w 0 (if array = 7 ∧ check then up.map (fun b => 64 + b % 8) else up)

/-! ### MRAM -/

/-- R100, R275, R277, R283, R286: a write of the bytes of `mask` in the 64-bit word at `w`. One that finds its bank queue full waits for a
token, and nothing changes; where the fabric is unpowered, in reset or not clocked none reaches the MRAMC. -/
def State.mramWrite (s : State) (w mask : Nat) (data : DWord) : State :=
  let merged (t : State) : List Byte :=
    (List.range 8).map (fun i => if mask.testBit i then BitVec.ofNat 8 (data.toNat / 2 ^ (8 * i)) else t.byteAt (w + i))
  if ! s.fabricRuns then s
  else if s.mramRefuses w 8 then (s.noteRefused w 8).respond true 0#64
  else if s.mramFull (mramBank w) then s
  else if s.marked w ∧ mask ≠ 255 then (s.countPoison w).respond true 0#64
  else
    let s1 := if mask = 255 then s else s.eccWord 8 0 w 0 []
    if s1.marked w ∧ mask ≠ 255 then s1.respond true 0#64 else (s1.land w (merged s1)).respond false 0#64

end Sys2Proof.Machine
end

