-- ==== Sys2Proof/Machine/Memory.lean ====
section
/-! DEFINITION. The commands of the caches and memory controllers (R253 to R288): L3 maintenance, snoops, errors that reads and
scrubs find, DRAM refresh, and the queues of the DMC and the MRAMC. -/
namespace Sys2Proof.Machine

/-- CLEAN_ALL (R288): a write of L3_MAINT with OP = 1. -/
def execCleanAll (q : Req) (part : Fin 8) (s : State) : Host.Outcome State Fault Refusal :=
  let v := BitVec.ofNat 64 (F.L3_MAINT_OP.at 1 + F.L3_MAINT_PART.at part.val)
  .next (s.gateWrite q R.L3_MAINT .w v (fun t => t.opL3Maint q.ni.val v))

/-- FLUSH_WAYS (R288): a write of L3_MAINT with OP = 2. -/
def execFlushWays (q : Req) (part : Fin 8) (s : State) : Host.Outcome State Fault Refusal :=
  let v := BitVec.ofNat 64 (F.L3_MAINT_OP.at 2 + F.L3_MAINT_PART.at part.val)
  .next (s.gateWrite q R.L3_MAINT .w v (fun t => t.opL3Maint q.ni.val v))

/-- MAINT_DONE (R288). -/
def execMaintDone (s : State) : Host.Outcome State Fault Refusal := .next s.maintDone

/-- SNOOP (R257): kind 0 SHARE, 1 INVAL, 2 BACK_INVAL (Table Loom-2) for a request of `except`, whose own copies stay. -/
def execSnoop (kind : Fin 3) (line : BitVec 34) (except : Option (Fin 4)) (s : State) : Host.Outcome State Fault Refusal :=
  .next (s.snoop kind.val (line.toNat * 64) (except.map (fun h => h.val)))

/-- BACK_INVALIDATION (R258): the snoop filter gives up its entry for a line. -/
def execBackInvalidation (line : BitVec 34) (s : State) : Host.Outcome State Fault Refusal :=
  .next (s.snoop 2 (line.toNat * 64) none)

/-- DEMAND_ECC_ERROR (R255, R256, R590): a demand read meets a codeword of array `array` (codes of R581, 10 for L2 tags) of hart `unit` at `addr`;
`check` says that the upset lies in the DRAM check block of the line. -/
def execDemandEccError (array : Fin 11) (unit : Fin 4) (addr : BitVec 40) (check : Bool) (up : EccUpset) (s : State) :
    Host.Outcome State Fault Refusal :=
  .next (s.demandEcc array.val (if array.val ≤ 2 ∨ array.val = 10 then unit.val else 0) addr.toNat check (upsetBits up))

/-- L3_SCRUB (R279): an upset lies in word `word`, array `hit` of `slice`: 0 data, 1 tag, 2 directory, 3 snoop filter. -/
def execL3Scrub (slice : Fin 2) (hit : Fin 4) (word : Fin 8) (up : EccUpset) (s : State) : Host.Outcome State Fault Refusal :=
  .next (s.scrubL3 slice.val (3 + hit.val) word.val (upsetBits up))

/-- SRAM_SCRUB (R279). -/
def execSramScrub (hit : SramArray) (word : Fin 8) (up : EccUpset) (s : State) : Host.Outcome State Fault Refusal :=
  .next (s.scrubSram hit word.val (upsetBits up))

/-- DMC_SCRUB (R272): an upset lies in word `word` of the line that `channel` reads. -/
def execDmcScrub (channel : Fin 2) (word : Fin 8) (up : EccUpset) (s : State) : Host.Outcome State Fault Refusal :=
  .next (s.scrubDmc channel.val word.val (upsetBits up))

/-- DMC_TEMP_READING (R270): the temperatures of both dies in °C, two's complement. -/
def execDmcTempReading (dieA dieB : Byte) (s : State) : Host.Outcome State Fault Refusal := .next (s.readTemps dieA dieB)

/-- REFRESH (R270). -/
def execRefresh (channel : Fin 2) (s : State) : Host.Outcome State Fault Refusal := .next (s.refresh channel.val)

/-- DRAM_REQUEST (R268). -/
def execDramRequest (step : DramStep) (s : State) : Host.Outcome State Fault Refusal := .next (s.dramStep step)

/-- MRAM_WRITE (R275): a write of the bytes of `mask` in word `word` of the MRAM. -/
def execMramWrite (word : BitVec 20) (mask : Byte) (data : DWord) (s : State) : Host.Outcome State Fault Refusal :=
  .next (s.mramWrite (0x08000000 + 8 * word.toNat) mask.toNat data)

/-- MRAM_WRITE_DONE (R275). -/
def execMramWriteDone (bank : Fin 2) (s : State) : Host.Outcome State Fault Refusal := .next (s.mramDone bank.val)

end Sys2Proof.Machine
end

