-- ==== Sys2Proof/Machine/Reed.lean ====
section
/-! DEFINITION. The commands of Reed (R163 to R189). Reed runs by its tick, so every command of this family first lets the 5 ns
ticks pass that lie before it; a command that stands for something Reed does by itself then takes the tick in which that happens,
and changes nothing more when it does not happen there. -/
namespace Sys2Proof.Machine

/-- REFERENCE_EVENT (R166 to R172): after `dt` ticks the selected source moves: ZC_IN takes `level` and holds it for `hold` ticks, so
that an edge which outlasts FILT µs is an event and a shorter one is none (R167); or the PTP time reaches a multiple of PERIOD in
the next tick; or the encoder gives its index or closes a turn. -/
def execReferenceEvent (dt : BitVec 32) (level : Bool) (hold : BitVec 20) (s : State) : Host.Outcome State Fault Refusal :=
  .next ((s.reedTicks dt.toNat).referenceNow level hold.toNat)

/-- REED_HOLDOVER (R181). -/
def execReedHoldover (dt : BitVec 32) (s : State) : Host.Outcome State Fault Refusal :=
  .next ((s.reedTicks dt.toNat).tickIf (fun a b => decide (a.reedSt = 2 ∨ a.reedSt = 3) && decide (b.reedSt = 4 ∨ b.reedSt = 5)))

/-- HOLD_LEFT_TICK (R172). -/
def execHoldLeftTick (dt : BitVec 32) (s : State) : Host.Outcome State Fault Refusal :=
  .next ((s.reedTicks dt.toNat).tickIf (fun a b => decide (a.reedSt = 4) && decide (b.fld F.REED_STATE_HOLD_LEFT ≠ a.fld F.REED_STATE_HOLD_LEFT)))

/-- ENC_COUNT (R168): after `dt` ticks the encoder moves by one quadrature step, which it holds for `hold` samples. -/
def execEncCount (dt : BitVec 32) (step : EncStep) (hold : BitVec 8) (s : State) : Host.Outcome State Fault Refusal :=
  .next ((s.reedTicks dt.toNat).encHeld hold.toNat (fun t => t.encStep step))

/-- ENC_INDEX (R168): a pulse of ENC_Z, `hold` samples long. -/
def execEncIndex (dt : BitVec 32) (hold : BitVec 8) (s : State) : Host.Outcome State Fault Refusal :=
  .next ((s.reedTicks dt.toNat).encHeld hold.toNat State.encIndex)

/-- REED_SRC_CHANGE (R171): a write of `src` to REED_SRC. -/
def execReedSrcChange (q : Req) (src : BitVec 2) (s : State) : Host.Outcome State Fault Refusal :=
  let v := BitVec.ofNat 64 (F.REED_SRC_SRC.at src.toNat)
  .next (s.gateWrite q R.REED_SRC .w v (fun t => t.opReedSrc q.ni.val v))

/-- REED_ENABLE (R50, R189): the block follows PAGE_CTRL.ENABLE. -/
def execReedEnable (s : State) : Host.Outcome State Fault Refusal := .next s.reedEnable

/-- ANGLE_ZERO_CROSSING (R175). -/
def execAngleZeroCrossing (dt : BitVec 32) (s : State) : Host.Outcome State Fault Refusal :=
  .next ((s.reedTicks dt.toNat).tickIf (fun a _ => a.reedAdvance.reedCycle != a.reedCycle))

/-- SLOT_FIRE (R176): after `dt` ticks slot `n` is at the head of the slots due, and fires. -/
def execSlotFire (dt : BitVec 32) (n : Fin 128) (s : State) : Host.Outcome State Fault Refusal :=
  .next ((s.reedTicks dt.toNat).tickIf (fun a _ => match a.reedDue.reed.due with | d :: _ => d.slot == n.val | [] => false))

/-- COMB_TRIGGER (R178). -/
def execCombTrigger (dt : BitVec 32) (s : State) : Host.Outcome State Fault Refusal :=
  .next ((s.reedTicks dt.toNat).tickIf (fun a _ => ! a.reedDue.reed.combDue.isEmpty))

end Sys2Proof.Machine
end

