-- ==== Sys2Proof/Machine/TetherOps.lean ====
section
/-! DEFINITION. The Tether port (R519 to R534): frames and their CRC, the window and its side effects, live accesses up to their
issue, requests and notices, and the partner watchdog. -/
namespace Sys2Proof.Machine

/-- Change the port's own state. -/
def State.modTether (s : State) (f : TetherState → TetherState) : State := { s with tether := f s.tether }

/-- R519: the port is live from PORST_N release until the next system reset, except in Bivouac and HALTED. -/
def State.tetherLive (s : State) : Bool := decide (s.power.phase = .run)

/-- R71: what the partner sends reaches the port: not while bank A is outside its windows. -/
def State.tetherHears (s : State) : Bool := s.tetherLive && s.bankLive 0

/-- R529: TETHER_IRQ_N is driven low. -/
def State.tetherIrqLow (s : State) : Bool := decide ((s.raw R.TETHER_ATTN &&& s.raw R.TETHER_ATTN_EN) ≠ 0#64)

/-- R523: an abort with its reason. -/
def State.tetherAbort (s : State) (reason : Nat) : State :=
  ((s.bumpSat F.TETHER_ABORT_COUNT_COUNT F.TETHER_ABORT_COUNT_SAT).setFld F.TETHER_ABORT_COUNT_LAST reason).raise P.TETHER E.TETHER_ABORT

/-! ### Live accesses -/

/-- LIVE_STATE, which TETHER_STAT shows too. -/
def State.setLive (s : State) (st : Nat) : State := (s.modTether (fun t => { t with liveState := st })).setFld F.TETHER_STAT_LIVE_STATE st

/-- R526: an access ends with RESP; a read's data enter LIVE_DATA. -/
def State.liveEnd (s : State) (x : LiveAccess) (resp : Nat) (data : BitVec 32) : State :=
  let s1 := s.modTether (fun t => { t with
    liveResp := resp, liveErr := t.liveErr || resp != 0, liveOps := (t.liveOps + 1) % 65536,
    liveData := if x.write || resp != 0 then t.liveData else data })
  let s2 := if ! x.write ∨ s1.tether.queue.isEmpty then s1.setLive 2 else s1
  s2.when (resp != 0) (fun t => t.raise P.TETHER E.TETHER_LIVE_ERR)

/-- R527: an access is refused: live access is off, or it stores into base camp while BOOT_GO = 1. -/
def State.liveRefused (s : State) (x : LiveAccess) : Bool :=
  ! s.flag F.TETHER_CFG_LIVE_EN || (x.write && inBaseCamp x.addr && (s.fld F.TETHER_REQ_REQ).testBit 2)

/-- R526, R527: a commit queues an access, or finds the queue full; one that is refused with nothing ahead of it ends at once. -/
def State.liveCommit (s : State) (x : LiveAccess) : State :=
  if 4 ≤ s.tether.queue.length then s.modTether (fun t => { t with liveLost := true })
  else if s.tether.queue.isEmpty && s.liveRefused x then s.liveEnd x 4 0#32
  else (s.modTether (fun t => { t with queue := t.queue ++ [x] })).setLive 1

/-- R526: a commit of LIVE_LO. -/
def State.liveLo (s : State) (v : Nat) : State :=
  let s1 := s.modTether (fun t => { t with liveAddr := t.liveAddr / 2 ^ 32 * 2 ^ 32 + v % 2 ^ 32 / 4 * 4, liveOp := v.testBit 0 })
  s1.liveCommit ⟨s1.tether.liveAddr, s1.tether.liveOp, s1.tether.liveData⟩

/-- R526: a commit of LIVE_STREAM. -/
def State.liveStream (s : State) (v : Nat) : State :=
  (s.liveCommit ⟨s.tether.liveAddr, true, BitVec.ofNat 32 v⟩).modTether (fun t => { t with liveAddr := (t.liveAddr + 4) % 2 ^ 40 })

/-! ### Requests, notices, watchdog -/

/-- R146, R528: the partner writes 1s to REQ. -/
def State.tetherReq (s : State) (v : Nat) : State :=
  let m := v % 65536
  if m = 0 then s else
  let s1 := (s.setFld F.TETHER_REQ_REQ (s.fld F.TETHER_REQ_REQ ||| m)).raise P.TETHER E.TETHER_REQ
  if m.testBit 2 then s1.bootGo else s1

/-- R529: a write to TETHER_ATTN_SET: bits 0 and 8–15 set notices; 7–1 are reserved. -/
def State.opAttnSet (s : State) (ni : Nat) (v : DWord) : State :=
  let s1 := s.setReg R.TETHER_ATTN (s.raw R.TETHER_ATTN ||| (v &&& 0xFF01#64))
  let s2 := ((s1.storeReg ni R.TETHER_ATTN_SET v).1).setReg R.TETHER_ATTN_SET 0#64
  s2.clampEvents P.TETHER ni 0x58 0 v.toNat (s2.raw R.TETHER_ATTN).toNat (b2n ((v &&& 0xFE#64) != 0#64))

/-- R531: a KICK. -/
def State.tetherKick (s : State) (v : Nat) : State :=
  if v % 2 ^ 32 = 0x7A7A then
    (if s.flag F.TETHER_PWDG_EN then s.setFld F.TETHER_PWDG_STAT_LEFT (s.fld F.TETHER_PWDG_TIMEOUT) else s)
  else s.bump F.TETHER_PWDG_STAT_BAD

/-- R531: a write to TETHER_PWDG; setting EN starts the count. -/
def State.opPwdg (s : State) (ni : Nat) (v : DWord) : State :=
  let was := s.flag F.TETHER_PWDG_EN
  let s1 := (s.storeReg ni R.TETHER_PWDG v).1
  let now := s1.flag F.TETHER_PWDG_EN
  if now && ! was then s1.setFld F.TETHER_PWDG_STAT_LEFT (s1.fld F.TETHER_PWDG_TIMEOUT)
  else if ! now then s1.setFld F.TETHER_PWDG_STAT_LEFT 0 else s1

/-- R531: the partner watchdog counts: started, not expired, and clocked. -/
def State.pwdgCounts (s : State) : Bool :=
  s.flag F.TETHER_PWDG_EN && s.flag F.TETHER_PWDG_STAT_LEFT && s.tetherLive && s.kept 5

/-- R531: the partner watchdog expires. -/
def State.pwdgExpire (s : State) : State :=
  if ! s.pwdgCounts then s else
  let s1 := (((s.setFld F.TETHER_PWDG_STAT_LEFT 0).setFld F.TETHER_PWDG_STAT_EXPIRED 1).raise P.TETHER E.TETHER_PWDG).edge 362
  if s1.flag F.TETHER_PWDG_ACTION then s1.signal (FaultInput.of 23 0 0 0) else s1

/-! ### The window (Table Tether-3) -/

/-- What the window word at `i` reads. -/
def State.windowRead (s : State) (i : Nat) : Nat :=
  let t := s.tether
  if i = 0 then 0x724001B1
  else if i = 1 then
    s.fld F.PWR_STATE_CUR + 8 * b2n s.guarded + 16 * s.fld F.SYSCFG_LIFECYCLE_STATE + 64 * b2n (s.flag F.BOOT_STATUS_DONE) +
      128 * b2n (s.flag F.BELAY_STAT_FAULT) + 256 * b2n s.power.pfail + 512 * b2n (s.flag F.TETHER_CFG_LIVE_EN)
  else if i = 2 then t.raised + 2 ^ 16 * t.lastClass + 2 ^ 24 * b2n (s.flag F.BELAY_STAT_FAULT) + 2 ^ 31 * b2n t.raisedSat
  else if i = 3 then (s.raw R.BOOT_RECOVERY).toNat % 2 ^ 32
  else if i = 4 then s.fld F.TETHER_ABORT_COUNT_COUNT + 2 ^ 16 * s.fld F.TETHER_ABORT_COUNT_LAST + 2 ^ 24 * t.frames
  else if i = 8 then s.fld F.TETHER_REQ_REQ
  else if i = 9 then s.fld F.TETHER_ATTN_ATTN
  else if i = 10 then s.fld F.TETHER_ATTN_EN_EN
  else if 0x10 ≤ i ∧ i ≤ 0x17 then s.fld (F.TETHER_MBOX_IN_DATA (i - 0x10))
  else if 0x18 ≤ i ∧ i ≤ 0x1F then s.fld (F.TETHER_MBOX_OUT_DATA (i - 0x18))
  else if i = 0x20 then
    t.liveState + 8 * b2n t.liveErr + 16 * t.liveResp + 128 * b2n t.liveLost + 256 * t.queue.length + 65536 * t.liveOps
  else if i = 0x21 then t.liveData.toNat
  else if i = 0x22 then t.liveAddr / 2 ^ 32
  else if i = 0x23 then t.liveAddr % 2 ^ 32 + b2n t.liveOp
  else 0

/-- R21, R521: what a complete read of word `i` clears. -/
def State.windowClear (s : State) (i : Nat) : State :=
  if i = 2 then s.modTether (fun t => { t with raised := 0, raisedSat := false })
  else if i = 0x20 then s.modTether (fun t => { t with liveErr := false, liveLost := false })
  else s

/-- R525: a committed write of `v` to word `i`. -/
def State.windowWrite (s : State) (i v : Nat) : State :=
  if i = 8 then s.tetherReq v
  else if i = 9 then s.setFld F.TETHER_ATTN_ATTN (clearBits (s.fld F.TETHER_ATTN_ATTN) (v % 65536))
  else if i = 10 then s.setFld F.TETHER_ATTN_EN_EN v
  else if i = 11 then s.tetherKick v
  else if 0x10 ≤ i ∧ i ≤ 0x17 then s.setFld (F.TETHER_MBOX_IN_DATA (i - 0x10)) v
  else if i = 0x21 then s.modTether (fun t => { t with liveData := BitVec.ofNat 32 v })
  else if i = 0x22 then s.modTether (fun t => { t with liveAddr := v % 256 * 2 ^ 32 + t.liveAddr % 2 ^ 32 })
  else if i = 0x23 then s.liveLo v
  else if i = 0x24 then s.liveStream v
  else s

/-! ### Frames -/

/-- Bits as a number, first bit most significant (R15). -/
def bitsNum (bs : List Bool) : Nat := bs.foldl (fun n b => 2 * n + b2n b) 0

/-- The `n` bits of a number, most significant first. -/
def numBits (n v : Nat) : List Bool := (List.range n).map (fun i => v.testBit (n - 1 - i))

/-- The bytes of a bit sequence, in the order sent. -/
def bitBytes : Nat → List Bool → List Byte
  | 0, _ => []
  | k + 1, bs => if bs.isEmpty then [] else BitVec.ofNat 8 (bitsNum (bs.take 8)) :: bitBytes k (bs.drop 8)

/-- Write words at `i`, `i` + 1 and on, modulo 256. -/
def State.windowWords (s : State) (i : Nat) : List Nat → State
  | [] => s
  | v :: vs => (s.windowWrite (i % 256) v).windowWords (i + 1) vs

/-- The whole 32-bit words of a bit sequence. -/
def wholeWords : Nat → List Bool → List Nat
  | 0, _ => []
  | k + 1, bs => if bs.length < 32 then [] else bitsNum (bs.take 32) :: wholeWords k (bs.drop 32)

/-- A write frame that commits its words: FRAMES counts it. -/
def State.commitFrame (s : State) (i : Nat) (ws : List Nat) : State :=
  let s1 := s.windowWords i ws
  if ws.isEmpty then s1 else s1.modTether (fun t => { t with frames := (t.frames + 1) % 256 })

/-- R521: the data words of a read without CRC: each is sampled whole, and clears what it clears once its last bit is out. -/
def State.readWords : Nat → State → Nat → Nat → List Bool × State
  | 0, s, _, _ => ([], s)
  | k + 1, s, i, n =>
    if n = 0 then ([], s) else
    let w := numBits 32 (s.windowRead (i % 256))
    if n < 32 then (w.take n, s.tetherAbort 2) else
    let (out, t) := State.readWords k (s.windowClear (i % 256)) (i + 1) (n - 32)
    (w ++ out, t)

/-- R522: the data words of a read with CRC, each followed by the CRC over the command and every data byte so far. -/
def State.readCrcWords : Nat → State → Nat → Nat → List Byte → List Bool × State
  | 0, s, _, _, _ => ([], s)
  | k + 1, s, i, n, sent =>
    if n = 0 then ([], s) else
    let w := s.windowRead (i % 256)
    let sent1 := sent ++ beBytes 4 w
    let bits := numBits 32 w ++ numBits 8 (crc8 sent1)
    if n < 40 then (bits.take n, s.tetherAbort 2) else
    let (out, t) := State.readCrcWords k (s.windowClear (i % 256)) (i + 1) (n - 40) sent1
    (bits ++ out, t)

/-- R521, R522: the frame after a legal command: bits on MISO after the command, and the state. -/
def State.frameBody (s : State) (rd crc : Bool) (i : Nat) (command body : List Bool) : List Bool × State :=
  let n := body.length
  let zeros := List.replicate n false
  if n = 0 then ([], s)
  else if ! rd && ! crc then
    let s1 := s.commitFrame i (wholeWords n body)
    (zeros, if n % 32 = 0 then s1 else s1.tetherAbort 2)
  else if ! rd then
    let k := (n - 8) / 32
    if n < 40 ∨ (n - 8) % 32 ≠ 0 ∨ 16 < k then (zeros, s.tetherAbort 4)
    else if crc8 (bitBytes (n + 16) (command ++ body.take (n - 8))) ≠ bitsNum (body.drop (n - 8)) then (zeros, s.tetherAbort 3)
    else (zeros, s.commitFrame i (wholeWords n (body.take (n - 8))))
  else if ! crc then s.readWords n i n
  else if n < 8 then (zeros, s.tetherAbort 1)
  else if crc8 (bitBytes 2 command) ≠ bitsNum (body.take 8) then (zeros, s.tetherAbort 3)
  else
    let (out, t) := s.readCrcWords n i (n - 8) (bitBytes 2 command)
    (List.replicate 8 false ++ out, t)

/-- R520 to R523: a frame of the bits that MOSI carried at the rising edges of SCK. -/
def State.tetherFrame (s : State) (bits : List Bool) : State :=
  if ! s.tetherHears || bits.isEmpty then s else
  let command := bits.take 16
  let body := bits.drop 16
  let state := (numBits 16 (s.windowRead 1)).take bits.length
  let word := bitsNum command
  let (out, t) : List Bool × State :=
    if bits.length < 16 then ([], s.tetherAbort 1)
    else if body.isEmpty then ([], s)
    else if word / 2 ^ 8 % 64 ≠ 0 then (List.replicate body.length false, s.tetherAbort 5)
    else if ! word.testBit 14 && s.flag F.TETHER_CFG_CRC_REQ then (List.replicate body.length false, s.tetherAbort 6)
    else s.frameBody (word.testBit 15) (word.testBit 14) (word % 256) command body
  t.modTether (fun x => { x with miso := state ++ out })

/-- The bits of a CRC write frame at index `i` with these words and CRC byte. -/
def crcFrame (i : Nat) (ws : List Nat) (crc : Nat) : List Bool :=
  numBits 16 (0x4000 + i) ++ ws.flatMap (numBits 32) ++ numBits 8 crc

end Sys2Proof.Machine
end

