-- ==== Sys2Proof/Machine/BridgeOps.lean ====
section
/-! DEFINITION. The register-page bridge (R38 to R63): what a full write does to each register, header and block-specific; page
locks, soft resets, starts and stops of blocks; narrow accesses; and loads with the fields they clear. -/
namespace Sys2Proof.Machine

/-- The index of the copy of a register family that starts at `a`. -/
def copyOf (first stride count a : Nat) : Option Nat :=
  if first ≤ a ∧ (a - first) % stride = 0 ∧ (a - first) / stride < count then some ((a - first) / stride) else none

/-- Do `f` for the copy of a register family at `a`, if one starts there; else `g`. -/
def onCopy {α : Type} (first stride count a : Nat) (f : Nat → α) (g : α) : α :=
  match copyOf first stride count a with
  | some n => f n
  | none => g

/-- A full write with nothing but what R42 stores. -/
def State.plain (s : State) (ni a : Nat) (v : DWord) : State := (s.storeReg ni a v).1

/-! ### What a write starts, page by page -/

/-- SYSCFG. -/
def State.sysWrite (s : State) (ni a : Nat) (v : DWord) : State :=
  if a = R.SYSCFG_RESET_REQ then s.opResetReq ni v
  else if a = R.SYSCFG_LIFECYCLE_REQ then s.opLifecycleReq ni v
  else if a = R.SYSCFG_UNLOCK_CTRL then s.opUnlockCtrl ni v
  else s.plain ni a v

/-- PWR, CLK and RTC. -/
def State.pwrWrite (s : State) (ni a : Nat) (v : DWord) : State :=
  if a = R.PWR_REQ then s.opPwrReq ni v
  else if a = R.PWR_PFAIL then s.opPwrPfail ni v
  else if a = R.PWR_SNAP_CTRL then s.opSnapCtrl ni v
  else if a = R.PWR_THERM then s.opPwrTherm ni v
  else if a = R.CLK_MEAS_CTRL then s.opMeasCtrl ni v
  else if a = R.CLK_AON then s.opClkAon ni v
  else if pageBase a = P.RTC then s.opRtc ni a v
  else if a = R.CLK_MON_CFG then (s.plain ni a v).evaluateCond
  else s.plain ni a v

/-- BELAY, WDOG. -/
def State.belayWrite (s : State) (ni a : Nat) (v : DWord) : State :=
  if a = R.BELAY_ARM then s.opBelayArm ni v
  else if a = R.BELAY_PEND then s.opPendClear ni v
  else if a = R.BELAY_SELFTEST then s.opSelftest ni v
  else if a = R.BELAY_SOFT then s.opBelaySoft ni v
  else if a = R.BELAY_MON then (s.plain ni a v).evaluateCond
  else onCopy (R.WDOG_CTRL 0) 32 4 a (fun n => s.opWdogCtrl ni n v)
    (onCopy (R.WDOG_KICK 0) 32 4 a (fun n => let (ms, t) := s.takeFree; t.opWdogKick ni n v (ms.toNat % 65536)) (s.plain ni a v))

/-- SCREE: an access that ends Scree's actions cancels its one-shots (R579); the refresh rate may change. -/
def State.screeWrite (s : State) (ni a : Nat) (v : DWord) : State :=
  if a = R.SCREE_ECC_GO then s.opEccGo ni v
  else if a = R.SCREE_LOCKSTEP then s.opLockstepGo ni v
  else if a = R.SCREE_DUP then s.opDupGo ni v
  else if a = R.SCREE_CRC then s.opCrcGo ni v
  else if a = R.SCREE_MON then s.opMonGo ni v
  else if a = R.SCREE_ENTROPY then let (ms, t) := s.takeFree; t.opEntropyGo ni (ms.toNat % 65536) v
  else ((s.plain ni a v).screeEnd).noteRate s

/-- R52: the lock of page `index` is set: Belay takes its reference. -/
def State.pageLock (s : State) (index : Nat) : State :=
  let f : Fld := ⟨R.PITON_PAGE_LOCK (index / 32), index % 32, 1⟩
  if s.flag f then s else ((s.setFld f 1).raise P.PITON E.PITON_LOCK_SET).takeReference index

/-- R162, Table Boot-11: a write to a PITON lock register. Page locks beyond 69 are reserved bits. -/
def State.pitonWrite (s : State) (ni a : Nat) (v : DWord) : State :=
  onCopy (R.PITON_PAGE_LOCK 0) 4 3 a (fun n =>
    let legal := if n = 2 then v &&& 0x3F#64 else v &&& 0xFFFFFFFF#64
    let s1 := (List.range 32).foldl (fun t b => if legal.toNat.testBit b then State.pageLock t (32 * n + b) else t) s
    s1.logWrite ni a v (if n = 2 ∧ v.toNat % 2 ^ 32 / 64 ≠ 0 then [6] else []))
    (let s1 := s.plain ni a v
     let s2 := s1.when (s1.raw a != s.raw a) (fun t => t.raise P.PITON E.PITON_LOCK_SET)
     let s3 := s2.when (s2.flag F.PITON_FUSE_WIN_CLOSED) (fun t => t.setFld F.PITON_STAT_FIRST_STAGE_DONE 1)
     if a = R.PITON_SCREE_LOCK then (s3.screeEnd.noteRate s).evaluateCond else s3)

/-- TIMER: a write may change the outputs that Shuttle routes. -/
def State.timerWrite (s : State) (ni a : Nat) (v : DWord) : State :=
  (if a = R.TIMER_START then s.opTimerEn ni a true v
   else if a = R.TIMER_STOP then s.opTimerEn ni a false v
   else if a = R.TIMER_MTIME then s.opMtime ni v
   else onCopy (R.TIMER_CTRL 0) 16 8 a (fun n => s.opTimerCtrl ni n v) (s.plain ni a v)).settle

/-- REED. -/
def State.reedWrite (s : State) (ni a : Nat) (v : DWord) : State :=
  if a = R.REED_SRC then s.opReedSrc ni v
  else if a = R.REED_COMB then s.opReedComb ni v
  else if a = R.REED_CTRL ∨ a = R.REED_NOMINAL then s.opReedRate ni a v
  else onCopy (R.REED_SLOT_A 0) 4 256 a (fun n => s.opReedSlot ni a v (n / 2)) (s.plain ni a v)

/-- SHUTTLE. -/
def State.shuttleWrite (s : State) (ni a : Nat) (v : DWord) : State :=
  if a = R.SHUTTLE_PIN_LATCH then s.opPinLatch ni v
  else if a = R.SHUTTLE_PIN_SET then s.opPinSet ni v
  else onCopy (R.SHUTTLE_HELD 0) 4 2 a (fun k => s.opHeld ni k v)
    (onCopy (R.SHUTTLE_CH_SEL 0) 16 64 a (fun n => s.opShuttleSel ni n v) (s.opShuttle ni a v))

/-- LOOM pages. -/
def State.loomWrite (s : State) (ni a : Nat) (v : DWord) : State :=
  if a = R.LOOM_COMMIT then s.opCommit ni v
  else onCopy (R.LOOM_NI_STAT_CFG 0) 0x1000 16 a (fun n => s.opStatCfg ni n v)
    (onCopy (R.LOOM_PROBE_CTRL 0) 0x1000 8 a (fun n => s.opProbeCtrl ni n v) (s.plain ni a v))

/-- L3, DMC and MRAMC. -/
def State.memWrite (s : State) (ni a : Nat) (v : DWord) : State :=
  if a = R.L3_MAINT then s.opL3Maint ni v
  else if a = R.L3_CFG ∨ a = R.L3_SCRUB ∨ a = R.DMC_CTRL ∨ a = R.DMC_SCRUB then (s.plain ni a v).evaluateCond
  else s.plain ni a v

/-- HEDDLE and HEDDLE_MGMT. -/
def State.heddleWriteReg (s : State) (ni a : Nat) (v : DWord) : State :=
  if a = R.HEDDLE_CHC_INV then s.opChcInv ni v
  else if a = R.HEDDLE_IOTLB_INV then s.opIotlbInv ni v
  else if a = R.HEDDLE_MGMT_CMD then s.opMgmtCmd ni v
  else s.plain ni a v

/-- USB pages. -/
def State.usbWrite (s : State) (ni a : Nat) (v : DWord) : State :=
  if a = R.USBH_CTRL then s.opUsbhCtrl ni v
  else if a = R.USBD_CTRL then s.opUsbdCtrl ni v
  else if a = R.USBD_EP0_CTRL then s.opEp0Ctrl ni v
  else if a = R.USBD_HALT then s.opUsbdHalt ni v
  else onCopy (R.USBH_PIPE_CFG 0) 16 48 a (fun n => s.opPipeCfg ni n v)
    (onCopy (R.USBH_PIPE_CTRL 0) 16 48 a (fun n => s.opPipeCtrl ni n v)
      (match (List.range 14).find? (fun e => decide (2 ≤ e) && epReg e == a) with
       | some e => s.opEpCfg ni e v
       | none => s.plain ni a v))

/-- Field I/O pages. What the outside answers to an MDIO read or an I²C recovery is free. -/
def State.fieldWrite (s : State) (ni a : Nat) (v : DWord) : State :=
  if a = R.PTPCLK_TIME then s.opPtpTime ni v
  else if a = R.PTPCLK_STEP then s.opPtpStep ni v
  else if a = R.PTPCLK_TARGET ∨ a = R.PTPCLK_TARGET_HI then (s.plain ni a v).ptpReached
  else if a = R.GPIO_SET then s.opGpioSet v.toNat
  else if a = R.GPIO_CLR then s.opGpioClr v.toNat
  else onCopy (R.ETH_MDIO 0) 0x1000 1 a (fun n => let (x, t) := s.takeFree; t.opMdio ni n v (x.toNat % 65536))
    (onCopy (R.I2C_RECOVER 0) 0x1000 2 a (fun n => let (x, t) := s.takeFree; t.opI2cRecover ni n v (x.toNat.testBit 0))
      (onCopy (R.ADC_CFG 0) 0x1000 2 a (fun n => s.opAdcCfg ni n v)
        (onCopy (R.ADC_LIMIT 0) 0x1000 2 a (fun n => (s.plain ni a v).adcCompare n) (onCopy (R.ADC_SW_TRIG 0) 0x1000 2 a (fun n => s.opSwTrig ni n v)
          (onCopy (R.UART_DE 0) 0x1000 6 a (fun n => let t := s.plain ni a v; t.setUart n (t.uart n))
            (onCopy (R.SPI_CS 0) 0x1000 2 a (fun n => let t := s.plain ni a v; t.setSpi n (t.spi n)) (s.plain ni a v)))))))

/-- TETHER. -/
def State.tetherWrite (s : State) (ni a : Nat) (v : DWord) : State :=
  if a = R.TETHER_ATTN_SET then s.opAttnSet ni v
  else if a = R.TETHER_PWDG then s.opPwdg ni v
  else s.plain ni a v

/-- Security pages: an IV write sets CHAIN_VALID (R551), a hash configuration restarts its context (R552). -/
def State.secWrite (s : State) (ni a : Nat) (v : DWord) : State :=
  if a = R.KEYS_OTP_CTRL then s.opOtpCtrl ni v none
  else if a = R.KEYS_SLOT_CMD then s.opSlotCmd ni v
  else if a = R.PKA_CMD then s.opPkaCmd ni v
  else if a = R.AES_KAT then s.opKatGo ni a Engine.aes v
  else if a = R.HASH_KAT then s.opKatGo ni a Engine.hash v
  else if a = R.PKA_KAT then s.opKatGo ni a Engine.pka v
  else onCopy (R.AES_CTX_IV 0 0) 4 32 a (fun k => (s.plain ni a v).setFld (F.AES_CTX_STATE_CHAIN_VALID (k / 4)) 1)
    (onCopy (R.HASH_CTX_CFG 0) 4 8 a (fun e => (s.plain ni a v).setHashChain e none) (s.plain ni a v))

/-- OSPI. -/
def State.ospiWrite (s : State) (ni a : Nat) (v : DWord) : State :=
  if a = R.OSPI_CMD then s.opOspiCmd ni v
  else if a = R.OSPI_RESET then s.opOspiReset ni v
  else if a = R.OSPI_XIP then s.noteXip.plain ni a v
  else s.plain ni a v

/-- R140, Table Boot-10: BOOT_RETRY.SAT is cleared with COUNT. -/
def State.bootWrite (s : State) (ni a : Nat) (v : DWord) : State :=
  let s1 := s.plain ni a v
  if a = R.BOOT_RETRY ∧ s1.fld F.BOOT_RETRY_COUNT = 0 then s1.setFld F.BOOT_RETRY_SAT 0 else s1

/-- A full write to a block-specific register. -/
def State.blockWrite (s : State) (ni a : Nat) (v : DWord) : State :=
  let p := pageBase a
  if p = P.SYSCFG then s.sysWrite ni a v
  else if p = P.PWR ∨ p = P.CLK ∨ p = P.RTC then s.pwrWrite ni a v
  else if p = P.BOOT then s.bootWrite ni a v
  else if p = P.PITON then s.pitonWrite ni a v
  else if p = P.BELAY ∨ p = P.WDOG then s.belayWrite ni a v
  else if p = P.SCREE then s.screeWrite ni a v
  else if p = P.TIMER then s.timerWrite ni a v
  else if p = P.REED then s.reedWrite ni a v
  else if p = P.SHUTTLE then s.shuttleWrite ni a v
  else if a = R.CAIRN_RELEASE then s.opCairnRelease ni v
  else if P.LOOM_CFG ≤ p ∧ p < P.L3 then s.loomWrite ni a v
  else if p = P.L3 ∨ p = P.DMC ∨ p = P.MRAMC then s.memWrite ni a v
  else if p = P.HEDDLE ∨ p = P.HEDDLE_MGMT then s.heddleWriteReg ni a v
  else if P.USBH ≤ p ∧ p < P.ETH 0 then s.usbWrite ni a v
  else if P.ETH 0 ≤ p ∧ p < P.TETHER then s.fieldWrite ni a v
  else if p = P.TETHER then s.tetherWrite ni a v
  else if P.TRNG ≤ p ∧ p < P.OSPI then s.secWrite ni a v
  else if p = P.OSPI then s.ospiWrite ni a v
  else s.plain ni a v

/-! ### Starts, stops and soft resets -/

/-- R549, R558: items that a CRYPTO engine executes, and its PKA_CMD operation, end with 9. -/
def State.cryptoStop (s : State) (g : Engine) : State :=
  let s1 := forAll (s.heddle.ch.filter (fun e => decide (e.2.e.kind = 6 ∧ e.2.e.port = g.port))) (fun e t =>
    match t.itemOf e.1 6 with
    | some (k, it) => if it.started then (t.cryptoAbort e.1 k.e).engineEnd g e.1 k.e it.index 4 9 else t
    | none => t) s
  if g.port = 0x82 && s1.flag F.PKA_STAT_FROM_CMD then s1.pkaCmdResult 9 [] else s1

/-- A block stops (R50), page by page. -/
def State.blockStop (s : State) (p : Nat) : State :=
  if p = P.SCREE then s.screeEnd
  else if p = P.TIMER then s.settle
  else if p = P.REED then s.reedStop
  else if p = P.SHUTTLE then s.shuttleStop
  else if p = P.BOBBIN then s.bobbinStop
  else if p = P.USBH then s.usbhStop
  else if p = P.USBHUB then s.hubStop
  else if p = P.USBD then s.usbdStop
  else if p = P.TRNG then s.trngEnable false
  else if p = P.AES then s.cryptoStop Engine.aes
  else if p = P.HASH then s.cryptoStop Engine.hash
  else if p = P.PKA then s.cryptoStop Engine.pka
  else if p = P.OSPI then s.ospiStop
  else onCopy (P.ETH 0) 0x1000 2 p s.ethStop (onCopy (P.UART 0) 0x1000 6 p s.uartStop (onCopy (P.SPI 0) 0x1000 2 p s.spiStop
    (onCopy (P.I2C 0) 0x1000 2 p s.i2cStop (onCopy (P.ADC 0) 0x1000 2 p s.adcStop s))))

/-- A block starts. -/
def State.blockStart (s : State) (p : Nat) : State :=
  if p = P.TIMER then
    (forEach 8 (fun n t => if t.flag (F.TIMER_CTRL_EN n) then
      (t.timerLoad n).modTimer (fun x => { x with toggle := clearBits x.toggle (2 ^ n) }) else t) s).settle
  else if p = P.REED then s.reedStart
  else if p = P.SHUTTLE then s.shuttleStart
  else if p = P.TRNG then s.trngEnable true
  else if p = P.USBH then s.setFlag F.USBH_STAT_RUNNING (s.flag F.USBH_CTRL_RUN)
  else if p = P.USBD then s.vbusSync.pullUp
  else s

/-- R461: a USB page starts only once the USB PLL is enabled and locked. -/
def State.mayRun (s : State) (p : Nat) : Bool :=
  ! (decide (p = P.USBH ∨ p = P.USBHUB ∨ p = P.USBD)) || (s.flag F.CLK_USB_PLL_EN && (s.fld F.CLK_STAT_LOCK).testBit 4)

/-- R50: PAGE_STAT.ENABLED of the page at `p` follows ENABLE, and the block starts or stops. -/
def State.opBlockEnabled (s : State) (p : Nat) : State :=
  if p = P.REED then s.reedEnable
  else
    let on := s.flag (F.PAGE_CTRL_ENABLE p)
    if on = s.running p || (on && ! s.mayRun p) then s
    else
      let s1 := s.setFlag (F.PAGE_STAT_ENABLED p) on
      let s2 := if s1.resetting p then s1 else if on then s1.blockStart p else s1.blockStop p
      if p = P.SCREE then s2.noteRate s else s2

/-- R51: internal state beside the registers that a soft reset returns to its reset values. -/
def State.blockClear (s : State) (p : Nat) : State :=
  if p = P.TIMER then s.modTimer (fun t => { TimerState.reset with phase := t.phase, mtimeNext := t.mtimeNext })
  else if p = P.PTPCLK then { s with field := { s.field with ptpHi := 0, ptpFrac := 0 } }
  else if p = P.HASH then { s with sec := { s.sec with hash := [] } }
  else if p = P.PKA then { s with sec := { s.sec with pka := none } }
  else if p = P.REED then s.modReed (fun r => { ReedState.reset with period := r.period, zcIn := r.zcIn })
  else if p = P.TRNG then { s with sec := { s.sec with failures := [] } }
  else if p = P.HEDDLE then
    ({ s with heddle := { s.heddle with iotlb := [], walk := [], iotlbWait := none, oldTable := some (s.chEntryAt 0) } } : State).tablesMeet
  else s

/-- What a soft reset leaves of a page's registers beside R51: MTIME and MTIMECMP (R370), FATAL of the TRNG (Table Keys-5), and the
TIMEOUT that stopping an OSPI command sets (R152). `old` is the state before the reset. -/
def State.keepOver (s old : State) (p : Nat) : State :=
  if p = P.TIMER then
    forEach 4 (fun n t => t.setReg (R.TIMER_MTIMECMP n) (old.raw (R.TIMER_MTIMECMP n))) (s.setReg R.TIMER_MTIME (old.raw R.TIMER_MTIME))
  else if p = P.TRNG then (if old.fld F.TRNG_STAT_STATE = 4 then s.setFld F.TRNG_STAT_STATE 4 else s)
  else if p = P.OSPI then s.setFlag F.OSPI_STAT_TIMEOUT old.boot.command.isSome
  else s

/-- R51, R458: a soft reset of the page at `p` begins. -/
def State.softReset (s : State) (p : Nat) : State :=
  if s.resetting p then s else
  let s1 := (if p = P.HEDDLE then s.squashAll else s.blockStop p).setFlag (F.PAGE_STAT_RESETTING p) true
  let s2 := ((s1.blockClear p).resetPage p).keepOver s p
  let s3 := if p = P.SCREE then s2.screeEnd.noteRate s else if p = P.SHUTTLE then s2.shuttleQuiet else s2
  if p = P.TIMER ∨ p = P.SHUTTLE ∨ p = P.GPIO then s3.settle else s3

/-! ### Header registers -/

/-- R577: a write of ENABLE = 0 to WDOG is barred while a watchdog is on. -/
def State.wdogHolds (s : State) (p : Nat) (v : DWord) : Bool :=
  decide (p = P.WDOG) && ! v.toNat.testBit 0 && (List.range 4).any (fun n => s.flag (F.WDOG_CTRL_EN n))

/-- A write to PAGE_CTRL, checked as R577 adds. -/
def State.storeCtrl (s : State) (ni p : Nat) (v : DWord) : State × DWord :=
  let a := R.PAGE_CTRL p
  if ! s.wdogHolds p v then s.storeReg ni a v
  else match regAt a with
  | none => (s, 0#64)
  | some (g, _, r, _) =>
    let o := writeWord s g r a (v ||| 1#64)
    ((s.setReg a o.word).logWrite ni a v (o.clamps ++ [0]), o.act)

/-- R50 to R52, R60: a write to PAGE_CTRL of the page at `p`: stored as an unlocked write first, then the soft reset, then the lock. -/
def State.opPageCtrl (s : State) (ni p : Nat) (v : DWord) : State :=
  let (s1, act) := s.storeCtrl ni p v
  let s2 := if act.toNat.testBit 1 then s1.softReset p else s1
  if v.toNat.testBit 2 then (match pageIndex p with | some i => s2.pageLock i | none => s2) else s2

/-- R20, R45, R57: a write to EVT_RAW: a 1 in CLAMP re-arms the log before this write's own clamps are logged. -/
def State.opEvtRaw (s : State) (ni p : Nat) (v : DWord) : State :=
  let s1 := if v.toNat.testBit 31 then s.setFld (F.CLAMP_ADDR_VALID p) 0 else s
  s1.plain ni (R.EVT_RAW p) v

/-- R41: a write to EVT_SET sets bits of EVT_RAW. -/
def State.opEvtSet (s : State) (ni p : Nat) (v : DWord) : State :=
  let a := R.EVT_SET p
  match regAt a with
  | none => s
  | some (g, _, r, _) =>
    let o := writeWord s g r a v
    (s.setReg (R.EVT_RAW p) (s.raw (R.EVT_RAW p) ||| o.word)).logWrite ni a v o.clamps

/-- The aligned 32 bits that hold `a`, as they read. -/
def State.readWord32 (s : State) (a : Nat) : Nat :=
  match regAt a with
  | none => 0
  | some (_, _, _, b) => (s.readReg b).toNat / 2 ^ (8 * (a / 4 * 4 - b)) % 2 ^ 32

/-- The clamp log of the page at `p` holds an entry of a write that clamped a field (reason 0) of the register at `a`. -/
def State.logsClamp (s : State) (p a : Nat) : Bool :=
  let o := s.fld (F.CLAMP_ADDR_OFFSET p)
  s.flag (F.CLAMP_ADDR_VALID p) && s.fld (F.CLAMP_ADDR_REASON p) == 0 && (o == a - p || o == a + 4 - p)

/-- R44: CLAMP_KEPT of an entry that this write put into the log is what the register reads once the write has acted. -/
def State.keptAfter (s : State) (empty : Bool) (p a : Nat) : State :=
  if empty && s.logsClamp p a then s.setReg (R.CLAMP_KEPT p) (BitVec.ofNat 64 (s.readWord32 (p + s.fld (F.CLAMP_ADDR_OFFSET p)))) else s

/-- A full write of `v` to the register that starts at `a`, by NI `ni`. -/
def State.fullWrite (s : State) (ni a : Nat) (v : DWord) : State :=
  let p := pageBase a
  let t := if 0x40 ≤ a - p then s.blockWrite ni a v
    else if a - p = 0x08 then s.opPageCtrl ni p v
    else if a - p = 0x10 then s.opEvtRaw ni p v
    else if a - p = 0x1C then s.opEvtSet ni p v
    else s.plain ni a v
  t.keptAfter (! s.flag (F.CLAMP_ADDR_VALID p) || (decide (a - p = 0x10) && v.toNat.testBit 31)) p a

/-! ### Accesses -/

/-- Bytes of an access. -/
def sizeLen (z : Size) : Nat := match z with | .b => 1 | .h => 2 | .w => 4 | .d => 8

/-- A register of 64 bits holds the byte at `a`. -/
def wideAt (a : Nat) : Bool := match regAt a with | some (_, _, r, _) => r.wide | none => false

/-- R49: a store that is no full access: nothing changes, and one clamp event is counted. -/
def State.narrowStore (s : State) (ni a : Nat) (v lane : Nat) : State :=
  let log (kept : Nat) : State := s.clampEvents (pageBase a) ni (a - pageBase a) 0 (v * 2 ^ (8 * lane)) kept 1
  log ((log 0).readWord32 a)

/-- R49: a store of `v` at `a` of a control page that is open to it. -/
def State.pageStore (s : State) (ni a : Nat) (z : Size) (v : DWord) : State :=
  match z with
  | .b => s.narrowStore ni a (v.toNat % 2 ^ 8) (a % 4)
  | .h => s.narrowStore ni a (v.toNat % 2 ^ 16) (a % 4)
  | .w => if wideAt a then s.narrowStore ni a (v.toNat % 2 ^ 32) 0 else s.fullWrite ni a (v &&& 0xFFFFFFFF#64)
  | .d =>
    if wideAt a then s.fullWrite ni a v
    else (s.fullWrite ni a (v &&& 0xFFFFFFFF#64)).fullWrite ni (a + 4) (v >>> 32)

/-- R42, R48, R49, R59: a store to a control page. -/
def State.regWrite (s : State) (q : Req) (a : Nat) (z : Size) (v : DWord) : State :=
  s.gateWrite q a z v (fun t => t.pageStore q.ni a z v)

/-- R19, R21: the RC fields of a register clear. -/
def State.clearRc (s : State) (r : RSpec) (a : Nat) : State :=
  r.fields.foldl (fun (t : State) f => if f.acc = .rc then t.setFld ⟨a, f.lo, f.hi - f.lo + 1⟩ 0 else t) s

/-- A full read of the register that starts at `a`: its value, and what the read changes (R21, R498, R547, R548). -/
def State.fullRead (s : State) (a : Nat) : State × DWord :=
  match regAt a with
  | none => (s, 0#64)
  | some (_, _, r, b) =>
    if b = R.TRNG_DATA then s.opTrngData
    else if b = R.TRNG_RAW then s.opTrngRaw
    else if b = R.PTPCLK_TIME then (s.ptpLatch, s.readReg b)
    else (s.clearRc r b, s.readReg b)

/-- The value a register would give a full read, nothing being taken. -/
def State.peekReg (s : State) (a : Nat) : DWord := (s.fullRead a).2

/-- R49: a load at `a` of a control page that is open to it. -/
def State.pageLoad (s : State) (a : Nat) (z : Size) : State × DWord :=
  match regAt a with
  | none => if z = .d ∧ (regAt (a + 4)).isSome then (let (t, v) := s.fullRead (a + 4); (t, v <<< 32)) else (s, 0#64)
  | some (_, _, r, b) =>
    let part : DWord := BitVec.ofNat 64 ((s.peekReg b).toNat / 2 ^ (8 * (a - b)) % 2 ^ (8 * sizeLen z))
    match z with
    | .b | .h => (s, part)
    | .w => if r.wide then (s, part) else s.fullRead a
    | .d =>
      if r.wide then s.fullRead a
      else
        let (s1, lo) := s.fullRead a
        let (s2, hi) := if (regAt (a + 4)).isSome then s1.fullRead (a + 4) else (s1, 0#64)
        (s2, lo ||| (hi <<< 32))

/-- R21, R48, R49: a load from a control page. -/
def State.regRead (s : State) (q : Req) (a : Nat) (z : Size) : State :=
  if ! pageListed a || (pageMachine a && ! q.priv) then s.respond true 0#64
  else let (t, v) := s.pageLoad a z; t.respond false v

/-- R51, R59: the soft reset of the page at `p` completes: held writes are applied in order, and an enabled block runs again. -/
def State.opSoftResetDone (s : State) (p : Nat) : State :=
  if ! s.resetting p then s else
  let s1 := s.setFlag (F.PAGE_STAT_RESETTING p) false
  let s2 := if s1.running p then s1.blockStart p else s1
  let mine := s2.held.filter (fun w => pageBase w.addr == p)
  let s3 : State := { s2 with held := s2.held.filter (fun w => pageBase w.addr != p) }
  forAll mine (fun w t => t.regWrite w.req w.addr w.size w.value) s3

/-! ### Every address -/

/-- R39, R451: an access to a doorbell page. -/
def inDoorbell (a : Nat) : Bool := decide (0x10060000 ≤ a ∧ a < 0x10080000)

/-- R27, R28: a write of an initiator of the Loom that holds no lines. -/
def State.busWrite (s : State) (q : Req) (a : Nat) (z : Size) (v : DWord) : State × LoomEnd :=
  let n := sizeLen z
  if 0x10000000 ≤ a ∧ a < 0x20000000 then
    if inDoorbell a then
      ((s.respond false 0#64).dbStore ((a - 0x10060000) / 0x1000) (a % 0x1000) (v.toNat % 2 ^ 32) (decide (z = .w)), .ok)
    else let t := s.regWrite q a z v; (t, if t.resp.error then .busError else .ok)
  else if cairnBase ≤ a ∧ a < cairnBase + 0x400000 then
    let t := s.cairnWrite q.ni (a - cairnBase) z v.toNat
    (t, if t.resp.error then .busError else .ok)
  else if s.inMain a n then s.coherentWrite a (leBytes n v.toNat) none
  else (s, .busError)

/-- The bytes of a doorbell page (R451). -/
def State.dbLoad (s : State) (a : Nat) (z : Size) : DWord :=
  let i := (a - 0x10060000) / 0x1000
  let o := a % 0x1000
  match z with
  | .d => BitVec.ofNat 64 (s.dbWord i (o / 4 * 4) + 2 ^ 32 * s.dbWord i (o / 4 * 4 + 4))
  | _ => BitVec.ofNat 64 (s.dbWord i (o / 4 * 4) / 2 ^ (8 * (o % 4)) % 2 ^ (8 * sizeLen z))

/-- R150: the XIP window answers only once the flash is free. -/
def State.xipBusy (s : State) (a : Nat) : Bool := inXip a && s.flashBusy

/-- R27 to R29: a read of such an initiator. -/
def State.busRead (s : State) (q : Req) (a : Nat) (z : Size) : State × LoomEnd × DWord :=
  let n := sizeLen z
  if 0x10000000 ≤ a ∧ a < 0x20000000 then
    if inDoorbell a then (s.respond false (s.dbLoad a z), .ok, s.dbLoad a z)
    else let t := s.regRead q a z; (t, if t.resp.error then .busError else .ok, t.resp.data)
  else if cairnBase ≤ a ∧ a < cairnBase + 0x400000 then
    let t := s.cairnRead q.ni (a - cairnBase) z
    (t, if t.resp.error then .busError else .ok, t.resp.data)
  else if s.busMemory a n then
    let (t, e, bs) := s.coherentRead a n
    (t, e, BitVec.ofNat 64 (leNat bs))
  else (s, .busError, 0#64)

end Sys2Proof.Machine
end

