-- ==== Sys2Proof/Machine/Fp.lean ====
section
/-! DEFINITION. The arithmetic of the F and D extensions (R191): IEEE 754 values of both formats, exact results rounded once, and the flags
that fcsr accrues (Unprivileged ISA, chapters 11 and 12). -/
namespace Sys2Proof.Machine

/-- Fraction bits of a format: binary64 when `d`, else binary32. -/
def fpM (d : Bool) : Nat := if d then 52 else 23

/-- Exponent bits of a format. -/
def fpE (d : Bool) : Nat := if d then 11 else 8

/-- Exponent bias of a format. -/
def fpBias (d : Bool) : Nat := 2 ^ (fpE d - 1) - 1

/-- The canonical NaN. -/
def fpNan (d : Bool) : Nat := (2 ^ fpE d - 1) * 2 ^ fpM d + 2 ^ (fpM d - 1)

/-- Infinity of a format. -/
def fpInf (d : Bool) : Nat := (2 ^ fpE d - 1) * 2 ^ fpM d

/-- A pattern with a sign bit. -/
def fpSigned (d neg : Bool) (p : Nat) : Nat := p + if neg then 2 ^ (fpM d + fpE d) else 0

/-- A value taken apart: NaN (and signalling), infinity, or ± m × 2^e. -/
structure FpVal where
  /-- NaN -/
  nan : Bool
  /-- a signalling one -/
  snan : Bool
  /-- infinity -/
  inf : Bool
  /-- sign -/
  neg : Bool
  /-- significand -/
  m : Nat
  /-- power of two -/
  e : Int
deriving DecidableEq, Repr

/-- A pattern taken apart. -/
def fpVal (d : Bool) (p : Nat) : FpVal :=
  let frac := p % 2 ^ fpM d
  let ex := p / 2 ^ fpM d % 2 ^ fpE d
  let neg := p.testBit (fpM d + fpE d)
  let top := decide (ex = 2 ^ fpE d - 1)
  { nan := top && frac != 0, snan := top && frac != 0 && ! frac.testBit (fpM d - 1), inf := top && frac == 0, neg,
    m := if top then 0 else if ex = 0 then frac else 2 ^ fpM d + frac,
    e := (max ex 1 : Nat) - (fpBias d : Int) - (fpM d : Int) }

/-- A value is a zero. -/
def FpVal.zero (v : FpVal) : Bool := ! v.nan && ! v.inf && v.m == 0

/-- A result: its pattern and the flags it raises: NX bit 0, UF 1, OF 2, DZ 3, NV 4. -/
structure FpRes where
  /-- pattern -/
  bits : Nat
  /-- flags -/
  flags : Nat
deriving DecidableEq, Repr

/-- A rounding mode adds one to a cut significand: `odd` is its last bit, `rest` the part cut off as less than, equal to or above one half
(1, 2, 3), 0 for nothing. -/
def fpUp (rm : Nat) (neg odd : Bool) (rest : Nat) : Bool :=
  if rm = 0 then decide (rest = 3) || (decide (rest = 2) && odd)
  else if rm = 2 then neg && rest != 0
  else if rm = 3 then ! neg && rest != 0
  else if rm = 4 then decide (2 ≤ rest)
  else false

/-- The part of `n` below bit `k`, against one half. -/
def fpRest (n k : Nat) : Nat :=
  let r := n % 2 ^ k
  if r = 0 then 0 else if 2 * r < 2 ^ k then 1 else if 2 * r = 2 ^ k then 2 else 3

/-- n / 2^k rounded to a whole number. -/
def fpCut (rm : Nat) (neg : Bool) (n k : Nat) : Nat := n / 2 ^ k + b2n (fpUp rm neg (n / 2 ^ k % 2 == 1) (fpRest n k))

/-- ± n × 2^e in a format, rounded once. -/
def fpRound (d : Bool) (rm : Nat) (neg : Bool) (n : Nat) (e : Int) : FpRes :=
  if n = 0 then ⟨fpSigned d neg 0, 0⟩ else
  let top : Int := n.log2 + e
  let low : Int := 1 - (fpBias d : Int)
  let q : Int := max top low - (fpM d : Int)
  let (m, nx) : Nat × Bool := if q ≤ e then (n * 2 ^ (e - q).toNat, false)
    else (fpCut rm neg n (q - e).toNat, fpRest n (q - e).toNat != 0)
  -- the significand with its hidden bit, one exponent below it
  let p := (q + (fpM d : Int) + (fpBias d : Int) - 1).toNat * 2 ^ fpM d + m
  -- tiny: even with an unbounded exponent the rounded result lies below the normal numbers
  let free := (top - (fpM d : Int) - e)
  let tiny := decide (top < low) && (decide (top < low - 1) || decide (free ≤ 0) || decide (fpCut rm neg n free.toNat < 2 ^ (fpM d + 1)))
  if fpInf d ≤ p then
    ⟨fpSigned d neg (if rm = 1 ∨ (rm = 2 ∧ ! neg) ∨ (rm = 3 ∧ neg) then fpInf d - 1 else fpInf d), 5⟩
  else ⟨fpSigned d neg p, b2n nx + 2 * b2n (nx && tiny)⟩

/-- The NaN result: NV for a signalling operand or an operation without a value. -/
def fpNanRes (d invalid : Bool) : FpRes := ⟨fpNan d, 16 * b2n invalid⟩

/-- a × b + c, rounded once. -/
def fpFma (d : Bool) (rm : Nat) (a b c : FpVal) : FpRes :=
  let ps := a.neg != b.neg
  if (a.inf && b.zero) || (a.zero && b.inf) then fpNanRes d true
  else if a.nan || b.nan || c.nan then fpNanRes d (a.snan || b.snan || c.snan)
  else if a.inf || b.inf then (if c.inf && c.neg != ps then fpNanRes d true else ⟨fpSigned d ps (fpInf d), 0⟩)
  else if c.inf then ⟨fpSigned d c.neg (fpInf d), 0⟩
  else
    let e := min (a.e + b.e) c.e
    let x : Int := ((a.m * b.m * 2 ^ (a.e + b.e - e).toNat : Nat) : Int)
    let y : Int := ((c.m * 2 ^ (c.e - e).toNat : Nat) : Int)
    let v := (if ps then -x else x) + (if c.neg then -y else y)
    if v = 0 then ⟨fpSigned d (if x = 0 ∧ y = 0 ∧ ps = c.neg then ps else decide (rm = 2)) 0, 0⟩
    else fpRound d rm (decide (v < 0)) v.natAbs e

/-- One. -/
def FpVal.one : FpVal := ⟨false, false, false, false, 1, 0⟩

/-- A zero with the sign of a product. -/
def fpZeroOf (a b : FpVal) : FpVal := ⟨false, false, false, a.neg != b.neg, 0, 0⟩

/-- The value negated. -/
def FpVal.negate (v : FpVal) : FpVal := { v with neg := ! v.neg }

/-- a + b. -/
def fpAdd (d : Bool) (rm : Nat) (a b : FpVal) : FpRes := fpFma d rm a FpVal.one b

/-- a × b. -/
def fpMul (d : Bool) (rm : Nat) (a b : FpVal) : FpRes := fpFma d rm a b (fpZeroOf a b)

/-- a ÷ b: the quotient to 120 places with a sticky bit. -/
def fpDiv (d : Bool) (rm : Nat) (a b : FpVal) : FpRes :=
  let neg := a.neg != b.neg
  if a.nan || b.nan then fpNanRes d (a.snan || b.snan)
  else if (a.inf && b.inf) || (a.zero && b.zero) then fpNanRes d true
  else if a.inf then ⟨fpSigned d neg (fpInf d), 0⟩
  else if b.inf || a.zero then ⟨fpSigned d neg 0, 0⟩
  else if b.zero then ⟨fpSigned d neg (fpInf d), 8⟩
  else
    let n := a.m * 2 ^ 120
    fpRound d rm neg (2 * (n / b.m) + b2n (n % b.m != 0)) (a.e - b.e - 121)

/-- √a: the root of the significand widened to an even power, with a sticky bit. -/
def fpSqrt (d : Bool) (rm : Nat) (a : FpVal) : FpRes :=
  if a.nan then fpNanRes d a.snan
  else if a.zero then ⟨fpSigned d a.neg 0, 0⟩
  else if a.neg then fpNanRes d true
  else if a.inf then ⟨fpInf d, 0⟩
  else
    let k : Nat := 140 + (a.e % 2).toNat
    let n := a.m * 2 ^ k
    let r := isqrtBits 98 n 0
    fpRound d rm false (2 * r + b2n (r * r != n)) ((a.e - (k : Int)) / 2 - 1)

/-- a < b, and a = b, of two that are no NaN. -/
def fpLess (a b : FpVal) : Bool × Bool :=
  let key (v : FpVal) (e : Int) : Int := let x : Int := ((v.m * 2 ^ (v.e - e).toNat : Nat) : Int); if v.neg then -x else x
  let rank (v : FpVal) : Int := if v.inf then (if v.neg then -1 else 1) else 0
  if a.inf || b.inf then (decide (rank a < rank b), decide (rank a = rank b))
  else let e := min a.e b.e; (decide (key a e < key b e), decide (key a e = key b e))

/-- feq, flt and fle (2, 1, 0): the quiet comparison alone takes a quiet NaN without NV. -/
def fpCompare (f3 : Nat) (a b : FpVal) : FpRes :=
  if a.nan || b.nan then ⟨0, 16 * b2n (f3 != 2 || a.snan || b.snan)⟩
  else let (l, q) := fpLess a b; ⟨b2n (if f3 = 2 then q else if f3 = 1 then l else l || q), 0⟩

/-- fmin and fmax: −0 is less than +0, and a number wins over a NaN. -/
def fpMinMax (d isMax : Bool) (pa pb : Nat) : FpRes :=
  let a := fpVal d pa
  let b := fpVal d pb
  let flags := 16 * b2n (a.snan || b.snan)
  if a.nan && b.nan then ⟨fpNan d, flags⟩
  else if a.nan then ⟨pb, flags⟩
  else if b.nan then ⟨pa, flags⟩
  else
    let (l, q) := fpLess a b
    let aLess := l || (q && a.neg)
    ⟨if aLess != isMax then pa else pb, flags⟩

/-- fclass. -/
def fpClass (d : Bool) (p : Nat) : Nat :=
  let v := fpVal d p
  if v.nan then (if v.snan then 2 ^ 8 else 2 ^ 9)
  else if v.inf then (if v.neg then 1 else 2 ^ 7)
  else if v.m = 0 then (if v.neg then 2 ^ 3 else 2 ^ 4)
  else if v.m < 2 ^ fpM d then (if v.neg then 2 ^ 2 else 2 ^ 5)
  else if v.neg then 2 else 2 ^ 6

/-- A conversion to a whole number of `n` bits: out of range it saturates with NV; a NaN converts as +∞. -/
def fpToInt (signed : Bool) (n rm : Nat) (v : FpVal) : FpRes :=
  let hi : Int := (((if signed then 2 ^ (n - 1) else 2 ^ n) : Nat) : Int) - 1
  let lo : Int := if signed then -((2 ^ (n - 1) : Nat) : Int) else 0
  let pat (x : Int) : Nat := unsext n x
  if v.nan || v.inf then ⟨pat (if v.neg && ! v.nan then lo else hi), 16⟩
  else
    let (m, nx) : Nat × Bool := if 0 ≤ v.e then (v.m * 2 ^ v.e.toNat, false)
      else (fpCut rm v.neg v.m (-v.e).toNat, fpRest v.m (-v.e).toNat != 0)
    let x : Int := if v.neg then -(m : Int) else (m : Int)
    if hi < x then ⟨pat hi, 16⟩ else if x < lo then ⟨pat lo, 16⟩ else ⟨pat x, b2n nx⟩

/-- A conversion from a whole number. -/
def fpFromInt (d : Bool) (rm : Nat) (x : Int) : FpRes := fpRound d rm (decide (x < 0)) x.natAbs 0

/-- A conversion between the formats. -/
def fpConvert (d : Bool) (rm : Nat) (v : FpVal) : FpRes :=
  if v.nan then fpNanRes d v.snan
  else if v.inf then ⟨fpSigned d v.neg (fpInf d), 0⟩
  else fpRound d rm v.neg v.m v.e

end Sys2Proof.Machine
end

