-- ==== Sys2Proof/Machine/HartMemOps.lean ====
section
/-! DEFINITION. A hart's way to memory as shared operations (R197 to R202, R205 to R208, R253 to R263): the mode an access is made in,
PMP and PMA, two-stage translation, and cached and uncached reads and writes. -/
namespace Sys2Proof.Machine

/-- What an access does: fetch, load or store; an AMO or an SC counts as a store. -/
inductive AccessKind where
  | fetch | load | store
deriving DecidableEq, Repr

/-- How an access is made: its kind, the privilege and virtualisation it is checked with, whether HLVX asks for execute permission, the
transformed instruction (Table Harts-2), and whether it is made in Scout, where no A or D bit is set. -/
structure AccessMode where
  /-- fetch, load or store -/
  kind : AccessKind
  /-- effective privilege -/
  priv : Nat
  /-- effective virtualisation mode -/
  virt : Bool
  /-- HLVX -/
  execRead : Bool
  /-- transformed instruction -/
  tinst : Nat
  /-- no A or D update -/
  scout : Bool
deriving DecidableEq, Repr

/-- R197: the access fault of a kind. -/
def AccessKind.accessFault : AccessKind → Nat
  | .fetch => 1 | .load => 5 | .store => 7

/-- The page fault of a kind. -/
def AccessKind.pageFault : AccessKind → Nat
  | .fetch => 12 | .load => 13 | .store => 15

/-- The guest-page fault of a kind. -/
def AccessKind.guestFault : AccessKind → Nat
  | .fetch => 20 | .load => 21 | .store => 23

/-- The mode of a fetch or, under mstatus.MPRV outside debug mode, of a load or store. -/
def Hart.accessMode (t : Hart) (kind : AccessKind) (tinst : Nat) : AccessMode :=
  let st := t.csrRaw 0x300
  let as := kind != .fetch && st.toNat.testBit 17 && ! t.debug
  let p := if as then Bits.get st 11 2 else t.priv
  let v := if as then p != 3 && st.toNat.testBit 39 else t.virt
  ⟨kind, p, v, false, tinst, t.scout.isSome⟩

/-- The mode of a load or store of the hypervisor extension: the guest's, at hstatus.SPVP. -/
def Hart.guestMode (t : Hart) (kind : AccessKind) (x : Bool) (tinst : Nat) : AccessMode :=
  ⟨kind, b2n (t.csrBit 0x600 8), true, x, tinst, t.scout.isSome⟩

/-! ### PMP and PMA -/

/-- R200: PMP entry `k` matches address `a`. -/
def Hart.pmpMatch (t : Hart) (k a : Nat) : Bool :=
  let mode := t.pmpCfg k / 8 % 4
  let top := (t.csrRaw (0x3B0 + k)).toNat % 2 ^ 38
  if mode = 1 then
    let low := if k = 0 then 0 else (t.csrRaw (0x3B0 + k - 1)).toNat % 2 ^ 38 / 1024 * 4096
    decide (low ≤ a ∧ a < top / 1024 * 4096)
  else if mode = 3 then
    let y := top ||| 0x1FF
    let i := ((List.range 38).find? (fun b => ! y.testBit b)).getD 38
    decide (a / 2 ^ (i + 3) = y / 2 ^ (i + 1))
  else false

/-- R200: PMP permits an access of a kind at privilege `priv`: the lowest entry that matches rules; in M-mode only a locked one does, and
below M-mode no match denies. -/
def Hart.pmpOk (t : Hart) (kind : AccessKind) (priv a : Nat) : Bool :=
  match (List.range 16).find? (fun k => t.pmpMatch k a) with
  | none => decide (priv = 3)
  | some k =>
    let c := t.pmpCfg k
    (decide (priv = 3) && ! c.testBit 7) || c.testBit (match kind with | .load => 0 | .store => 1 | .fetch => 2)

/-- Table Harts-3: the regions that are main memory. -/
def State.mainMemory (s : State) (a : Nat) : Bool := s.cacheable a

/-- Table Harts-3: I/O regions. -/
def ioRegion (a : Nat) : Bool := decide (0x04000000 ≤ a ∧ a < 0x04400000) || decide (0x10000000 ≤ a ∧ a < 0x20000000)

/-- R197: the attributes permit an access of a kind. -/
def State.pmaOk (s : State) (kind : AccessKind) (a : Nat) : Bool :=
  match kind with
  | .fetch => s.mainMemory a
  | .load => s.mainMemory a || ioRegion a
  | .store => s.inMain a 1 || ioRegion a

/-- Table Harts-3: AMO, LR and SC are permitted. -/
def State.pmaAtomic (s : State) (a : Nat) : Bool := s.inMain a 1

/-! ### Cached and uncached data -/

/-- The 32-byte half of a line is what a line read returns POISON for (R256). -/
def State.halfPoisoned (s : State) (a n : Nat) : Bool := s.anyPoison (a / 32 * 32) ((a + n - 1) / 32 * 32 + 32 - a / 32 * 32)

/-- R150: the flash is busy, and no cache holds the line. -/
def State.xipWaits (s : State) (a : Nat) : Bool := inXip a && s.flashBusy && ! s.lineHeld (lineOf a)

/-- R205, R253: a read of hart `h` through its L2, and into an L1 too when `l1` says so: the bytes, or none for an error that makes
the access fault. -/
def State.lineRead (s : State) (h a n : Nat) (fetch excl l1 : Bool) : State × Option (List Byte) :=
  let l := lineOf a
  if inXip a && ! s.lineHeld l && ! s.xipReadable l 64 then (s, none) else
  let s1 := s.readsArrays (some h) fetch a
  if s1.halfPoisoned a n then (s1.when (s.anyPoison l 64 && ! s.lineHeld l) (fun t => t.countPoison a), none)
  else
    let s2 := s1.hartFill h l excl
    let s3 := if l1 then s2.hartL1 h l fetch else s2
    (s3, some ((List.range n).map (fun i => s3.byteSeen (a + i))))

/-- R205, R253: a cached read of hart `h`. -/
def State.cachedRead (s : State) (h a n : Nat) (fetch excl : Bool) : State × Option (List Byte) := s.lineRead h a n fetch excl true

/-- R205: a cached store of hart `h`: its bytes are merged into the line, which stays poisoned if it was. -/
def State.cachedWrite (s : State) (h a : Nat) (bs : List Byte) : State :=
  (s.readsArrays (some h) false a).hartStore h a bs

/-- The request of hart `h` on the Loom (R48): machine privilege follows the effective mode. -/
def hartReq (h priv : Nat) : Req := ⟨⟨h % 16, Nat.mod_lt _ (by decide)⟩, decide (priv = 3)⟩

/-- R150, R317: an access of hart `h` to `pa` waits for the flash; ended after 100 µs, it takes the access fault `cause`. -/
def State.hartWaits (s : State) (h pa cause : Nat) (va : DWord) : State :=
  let w : XipLoad := { req := hartReq h 3, addr := pa, size := .d, origin := .hart h cause va }
  let others := s.boot.xip.filter (fun x => match x.origin with | .hart g _ _ => g != h | _ => true)
  ({ s with boot := { s.boot with xip := others ++ [w] } } : State).xipHeld

/-- The size of an access of `n` bytes. -/
def sizeOfLen (n : Nat) : Size := if n = 1 then .b else if n = 2 then .h else if n = 4 then .w else .d

/-- R197 to R199, R205: a read of `n` bytes by hart `h` at a checked address, `pbmt` being its Svpbmt type: none is an access fault. -/
def State.hartRead (s : State) (h priv a n pbmt : Nat) (fetch excl : Bool) : State × Option (List Byte) :=
  if ioRegion a then
    let (t, e, v) := s.busRead (hartReq h priv) a (sizeOfLen n)
    (t, if e = .ok then some (leBytes n v.toNat) else none)
  else if pbmt = 0 then s.cachedRead h a n fetch excl
  else if inXip a && ! s.xipReadable a n then (s, none)
  else
    let (t, e, bs) := s.coherentRead a n
    (t, if e = .ok then some bs else none)

/-- R197 to R199, R205: a write of hart `h` at a checked address: false is an access fault. -/
def State.hartWrite (s : State) (h priv a pbmt : Nat) (bs : List Byte) : State × Bool :=
  if ioRegion a then
    let (t, e) := s.busWrite (hartReq h priv) a (sizeOfLen bs.length) (BitVec.ofNat 64 (leNat bs))
    (t, decide (e = .ok))
  else if pbmt = 0 then (s.cachedWrite h a bs, true)
  else
    let (t, e) := s.coherentWrite a bs none
    (t, decide (e = .ok))

/-! ### Translation -/

/-- R206, R207: a PTE read of hart `h` at a physical address, through its L2; in Scout it leaves no trace in the L1D (R235). -/
def hartRd (h : Nat) (s : State) (a : Nat) : State × PteRead :=
  if ! s.cacheable a || ! (s.hart h).pmpOk .load 1 a then (s, .fail .access)
  else if s.xipWaits a then (s, .fail (.waits a))
  else match s.lineRead h a 8 false false (s.hart h).scout.isNone with
  | (s1, some bs) => (s1, .ok (leNat bs) a)
  | (s1, none) => (s1, .fail .access)

/-- R207: the A and D update, a coherent read-modify-write in the L3, under PMA and PMP. -/
def hartWr (h : Nat) (scout : Bool) (s : State) (a v : Nat) : State × Option WalkFail :=
  if scout then (s, some .deferred)
  else if ! s.inMain a 8 || ! (s.hart h).pmpOk .store 1 a then (s, some .access)
  else match s.coherentWrite a (leBytes 8 v) (some (s.hartPart h)) with
  | (s1, .ok) => (s1, none)
  | (s1, _) => (s1, some .access)

/-- A leaf permits the access, of one stage at privilege `priv`: `sum` and `mxr` are those of the stage's status register. -/
def leafOk (m : AccessMode) (priv : Nat) (sum mxr : Bool) (pte : Nat) : Bool :=
  let u := pte.testBit 4
  (if priv = 0 then u else ! u || (sum && m.kind != .fetch)) &&
    (match m.kind with
     | .fetch => pte.testBit 3
     | .store => pte.testBit 2
     | .load => if m.execRead then pte.testBit 3 else pte.testBit 1 || (mxr && pte.testBit 3))

/-- The stage of an atp register: MODE and root table. -/
def stageOf (atp : DWord) (g pbmte : Bool) : Stage := ⟨Bits.get atp 60 4, Bits.get atp 0 44 * 4096, g, pbmte⟩

/-! ### The translation structures (Table Harts-4) -/

/-- The set of the L2 TLB that a 4 KiB page lies in: its low page-number bits. DESIGN CHOICE (assumption log 72). -/
def tlbSet (e : TlbEntry) : Nat := e.vpn % 256

/-- Another entry of the same page. -/
def TlbEntry.same (e x : TlbEntry) : Bool :=
  decide (e.stage = x.stage ∧ e.vpn = x.vpn ∧ e.level = x.level ∧ e.asid = x.asid ∧ e.vmid = x.vmid)

/-- The L1 TLB of an access. -/
def Hart.l1Tlb (t : Hart) (fetch : Bool) : List TlbEntry := if fetch then t.itlb else t.dtlb

/-- A translation enters an L1 TLB. -/
def Hart.holdL1 (t : Hart) (fetch : Bool) (choice : Nat) (e : TlbEntry) : Hart :=
  let l := placeIn 32 choice ((t.l1Tlb fetch).filter (fun x => ! e.same x)) e
  if fetch then { t with itlb := l } else { t with dtlb := l }

/-- A translation enters the L2 TLB: a 4 KiB page one of the 4 ways of its set, a larger one the 64 entries for larger pages. -/
def Hart.holdL2 (t : Hart) (choice : Nat) (e : TlbEntry) : Hart :=
  if e.level = 0 then
    let rest := t.tlb.filter (fun x => ! e.same x)
    let set := rest.filter (fun x => tlbSet x == tlbSet e)
    { t with tlb := placeIn 4 choice set e ++ rest.filter (fun x => tlbSet x != tlbSet e) }
  else { t with tlbLarge := placeIn 64 choice (t.tlbLarge.filter (fun x => ! e.same x)) e }

/-- The structures a translation enters have no room for it. -/
def Hart.tlbFull (t : Hart) (fetch l2 : Bool) (e : TlbEntry) : Bool :=
  decide (32 ≤ (t.l1Tlb fetch).length) ||
    (l2 && (if e.level = 0 then decide (4 ≤ (t.tlb.filter (fun x => tlbSet x == tlbSet e)).length) else decide (64 ≤ t.tlbLarge.length)))

/-- R206: hart `h` holds a translation: in the L1 TLB of the access and, new to it, in the L2 TLB. Which entry a full structure gives up is
not stated: a free value picks it (assumption log 72). -/
def State.holdXlate (s : State) (h : Nat) (fetch l2 : Bool) (e : TlbEntry) : State :=
  let (v, s1) := if (s.hart h).tlbFull fetch l2 e then s.takeFree else (0#64, s)
  s1.modHart h (fun t =>
    let u := t.holdL1 fetch (v.toNat % 2 ^ 32) e
    if l2 then u.holdL2 (v.toNat / 2 ^ 32) e else u)

/-- The stages that share 32 entries of the walk cache: the G-stage, and the others. -/
def WalkEntry.peers (e x : WalkEntry) : Bool := decide (e.stage = 2) == decide (x.stage = 2)

/-- R206: a non-leaf PTE enters the walk cache of hart `h`. -/
def State.holdWalk (s : State) (h : Nat) (e : WalkEntry) : State :=
  let peers := (s.hart h).walk.filter e.peers
  let (v, s1) := if peers.length < 32 then (0#64, s) else s.takeFree
  s1.modHart h (fun t => { t with walk := placeIn 32 v.toNat peers e ++ t.walk.filter (fun x => ! e.peers x) })

/-- R206: a PTE read with the walk cache of hart `h` in front: a non-leaf PTE it holds is not read again. -/
def walkRd (h : Nat) (pbmte : Bool) (stage asid vmid : Nat) (rd : State → Nat → State × PteRead) (s : State) (a : Nat) : State × PteRead :=
  match (s.hart h).walk.find? (fun e => decide (e.stage = stage ∧ e.asid = asid ∧ e.vmid = vmid ∧ e.addr = a)) with
  | some e => (s, .ok e.pte a)
  | none =>
    match rd s a with
    | (s1, .ok pte pa) => (if pteTable pbmte pte then s1.holdWalk h ⟨stage, asid, vmid, a, pte⟩ else s1, .ok pte pa)
    | r => r

/-- R206 to R208: one stage: the address and its PBMT, from a held translation or a walk. -/
def State.oneStage (s : State) (h : Nat) (m : AccessMode) (st : Stage) (stage asid vmid : Nat) (ok : Nat → Bool)
    (rd : State → Nat → State × PteRead) (wr : State → Nat → Nat → State × Option WalkFail) (va : Nat) :
    State × Except WalkFail (Nat × Nat) :=
  let store := decide (m.kind = .store)
  let fetch := decide (m.kind = .fetch)
  let held (l : List TlbEntry) : Option TlbEntry := if st.canonical va then l.find? (fun e =>
    e.hits stage asid vmid (va / 4096 % 2 ^ 52) && ok e.perm && (! store || e.perm.testBit 7)) else none
  match held ((s.hart h).l1Tlb fetch) with
  | some e => (s, .ok (e.addr va, e.perm / 256 % 4))
  | none =>
    let s0 := s.modHart h (fun t => t.count 0x05 t.priv t.virt)
    match held ((s.hart h).tlb ++ (s.hart h).tlbLarge) with
    | some e => (s0.holdXlate h fetch false e, .ok (e.addr va, e.perm / 256 % 4))
    | none =>
      match walk (walkRd h st.pbmte stage asid vmid rd) wr st ok store (s0.modHart h (fun t => t.count 0x06 t.priv t.virt)) va with
      | (s1, .error f) => (s1, .error f)
      | (s1, .ok l) =>
        if stage ≠ 1 ∧ l.beyond va then (s1, .error .access)
        else (s1.holdXlate h fetch true (l.entry stage asid vmid va), .ok (l.addr va, l.pte / 2 ^ 61 % 4))

/-- The G-stage of hart `h`: guest-physical to physical, a user access; `tinst` goes with a guest-page fault. -/
def State.gStage (s : State) (h : Nat) (m : AccessMode) (tinst gpa : Nat) : State × Except WalkFail (Nat × Nat) :=
  let t := s.hart h
  let st := stageOf (t.csrRaw 0x680) true (t.csrBit 0x30A 62)
  if st.mode = 0 then (s, if gpa < 2 ^ 40 then .ok (gpa, 0) else .error .access)
  else match s.oneStage h m st 2 0 t.vmid (leafOk m 0 false (t.csrBit 0x300 19)) (hartRd h) (hartWr h m.scout) gpa with
  | (s1, .error .page) => (s1, .error (.guest gpa tinst))
  | r => r

/-- A PTE read of the VS-stage: through the G-stage, as an implicit load. -/
def guestRd (h : Nat) (scout : Bool) (s : State) (a : Nat) : State × PteRead :=
  match s.gStage h ⟨.load, 0, true, false, 0, scout⟩ 0x3000 a with
  | (s1, .error f) => (s1, .fail f)
  | (s1, .ok (pa, _)) =>
    match hartRd h s1 pa with
    | (s2, .ok pte _) => (s2, .ok pte a)
    | r => r

/-- An A and D update of the VS-stage: through the G-stage, as an implicit store. -/
def guestWr (h : Nat) (scout : Bool) (s : State) (a v : Nat) : State × Option WalkFail :=
  if scout then (s, some .deferred) else
  match s.gStage h ⟨.store, 0, true, false, 0, scout⟩ 0x3020 a with
  | (s1, .error f) => (s1, some f)
  | (s1, .ok (pa, _)) => hartWr h scout s1 pa v

/-- R206 to R208: the whole translation of hart `h`: physical address and PBMT. -/
def State.hartXlate (s : State) (h : Nat) (m : AccessMode) (va : Nat) : State × Except WalkFail (Nat × Nat) :=
  let t := s.hart h
  let mxr := t.csrBit 0x300 19
  let bare (a : Nat) : Except WalkFail (Nat × Nat) := if a < 2 ^ 40 then .ok (a, 0) else .error .access
  if m.priv = 3 then (s, bare va)
  else if ! m.virt then
    let st := stageOf (t.csrRaw 0x180) false (t.csrBit 0x30A 62)
    if st.mode = 0 then (s, bare va)
    else s.oneStage h m st 0 (Bits.get (t.csrRaw 0x180) 44 16) 0 (leafOk m m.priv (t.csrBit 0x300 18) mxr) (hartRd h) (hartWr h m.scout) va
  else
    let st := stageOf (t.csrRaw 0x280) false (t.csrBit 0x30A 62 && t.csrBit 0x60A 62)
    let r := if st.mode = 0 then (s, .ok (va, 0))
      else s.oneStage h m st 1 (Bits.get (t.csrRaw 0x280) 44 16) t.vmid
        (leafOk m m.priv (t.csrBit 0x200 18) (mxr || t.csrBit 0x200 19)) (guestRd h m.scout) (guestWr h m.scout) va
    match r with
    | (s1, .error f) => (s1, .error f)
    | (s1, .ok (gpa, b1)) =>
      match s1.gStage h m m.tinst gpa with
      | (s2, .error f) => (s2, .error f)
      | (s2, .ok (pa, b2)) => (s2, .ok (pa, if b1 = 0 then b2 else b1))

/-- An exception of an access at `va`: GVA follows the mode that the access is made in (Table Harts-2). -/
def AccessMode.exc (m : AccessMode) (cause : Nat) (va : DWord) : Trap := { Trap.exc cause va with guest := m.virt }

/-- R150: the PTE that a translation waits for, while the flash is busy. -/
def State.walkWaits (s : State) (h : Nat) (m : AccessMode) (va : DWord) : Option Nat :=
  if ! s.flashBusy then none else
  match (s.hartXlate h m va.toNat).2 with
  | .error (.waits pa) => some pa
  | _ => none

/-- The trap of a failed translation; a deferred one raises nothing. -/
def AccessMode.trapOf (m : AccessMode) (va : DWord) : WalkFail → Trap
  | .page => m.exc m.kind.pageFault va
  | .guest gpa tinst => { m.exc m.kind.guestFault va with gpa := gpa, tinst := tinst }
  | .access | .deferred | .waits _ => m.exc m.kind.accessFault va

/-- R197, R200: the address translated may be accessed by attributes and PMP. -/
def State.mayAccess (s : State) (h : Nat) (m : AccessMode) (pa : Nat) : Bool := s.pmaOk m.kind pa && (s.hart h).pmpOk m.kind m.priv pa

/-- An explicit access of `n` bytes up to its data: translated and checked, or its trap (R197 to R199). `atomic` is the misaligned cause of
an AMO, LR or SC (R198), which needs a region that permits it and PBMT 0. A misaligned access that crosses a line and fails translation,
PMA or PMP too raises the page or access fault: the spec does not order the two. DESIGN CHOICE (assumption log 51). -/
def State.hartAddress (s : State) (h : Nat) (m : AccessMode) (va : DWord) (n : Nat) (atomic : Option Nat) : State × Except Trap (Nat × Nat) :=
  let odd := va.toNat % n != 0
  match (if odd then atomic else none) with
  | some c => (s, .error (m.exc c va))
  | none =>
    match s.hartXlate h m va.toNat with
    | (s1, .error f) => (s1, .error (m.trapOf va f))
    | (s1, .ok (pa, pbmt)) =>
      if ! s1.mayAccess h m pa || (atomic.isSome && (! s1.pmaAtomic pa || pbmt != 0)) || (odd && ioRegion pa) then
        (s1, .error (m.exc m.kind.accessFault va))
      else if odd && decide (64 < pa % 64 + n) then (s1, .error (m.exc (if m.kind = .store then 6 else 4) va))
      else (s1, .ok (pa, pbmt))

end Sys2Proof.Machine
end

