-- ==== Sys2Proof/Machine/HartMem.lean ====
section
/-! DEFINITION. A hart's loads, stores, atomics, hints and cache-block operations (R197 to R202, R205, R235, R260, R285). -/
namespace Sys2Proof.Machine

/-! ### Encodings, for xtval and xtinst -/

/-- funct3 of a load or store size. -/
def sizeF3 : Size → Nat
  | .b => 0 | .h => 1 | .w => 2 | .d => 3

/-- funct5 of an AMO. -/
def amoF5 : AmoOp → Nat
  | .add => 0 | .swap => 1 | .xor => 4 | .or => 8 | .and => 12 | .min => 16 | .max => 20 | .minu => 24 | .maxu => 28

/-- An I-type word. -/
def iType (imm rs1 f3 rd opcode : Nat) : Nat := imm % 2 ^ 12 * 2 ^ 20 + rs1 * 2 ^ 15 + f3 * 2 ^ 12 + rd * 2 ^ 7 + opcode

/-- An R-type word. -/
def rType (f7 rs2 rs1 f3 rd opcode : Nat) : Nat := f7 * 2 ^ 25 + rs2 * 2 ^ 20 + rs1 * 2 ^ 15 + f3 * 2 ^ 12 + rd * 2 ^ 7 + opcode

/-- An S-type word. -/
def sType (imm rs2 rs1 f3 opcode : Nat) : Nat :=
  imm / 32 % 128 * 2 ^ 25 + rs2 * 2 ^ 20 + rs1 * 2 ^ 15 + f3 * 2 ^ 12 + imm % 32 * 2 ^ 7 + opcode

/-- funct7 and rs2 of a load of the hypervisor extension. -/
def hlvCode (x signed : Bool) (z : Size) : Nat × Nat := (0x30 + 2 * sizeF3 z, if x then 3 else if signed then 0 else 1)

/-- The 32 bits of an access. -/
def accessBits (a : HartAccess) : Nat :=
  match a with
  | .fetch => 0
  | .load rd fp signed z rs1 imm => iType imm.toNat rs1 (sizeF3 z + (if signed || fp then 0 else 4)) rd (if fp then 0x07 else 0x03)
  | .store rs2 fp z rs1 imm => sType imm.toNat rs2 rs1 (sizeF3 z) (if fp then 0x27 else 0x23)
  | .lr rd wide rs1 aqrl => rType (0x08 + aqrl) 0 rs1 (if wide then 3 else 2) rd 0x2F
  | .sc rd rs2 wide rs1 aqrl => rType (0x0C + aqrl) rs2 rs1 (if wide then 3 else 2) rd 0x2F
  | .amo op rd rs2 wide rs1 aqrl => rType (4 * amoF5 op + aqrl) rs2 rs1 (if wide then 3 else 2) rd 0x2F
  | .hlv rd x signed z rs1 => let (f7, r2) := hlvCode x signed z; rType f7 r2 rs1 4 rd 0x73
  | .hsv rs2 z rs1 => rType (0x31 + 2 * sizeF3 z) rs2 rs1 4 0 0x73
  | .hint k rs1 imm => sType (imm.toNat / 32 * 32) k rs1 6 0x13

/-- The instruction exists: no floating-point access narrower than a word, no unsigned doubleword. -/
def accessExists (a : HartAccess) : Bool :=
  match a with
  | .load _ fp signed z _ _ => if fp then decide (z = .w ∨ z = .d) else signed || decide (z ≠ .d)
  | .store _ fp z _ _ => ! fp || decide (z = .w ∨ z = .d)
  | .hlv _ x signed z _ => if x then ! signed && decide (z = .h ∨ z = .w) else signed || decide (z ≠ .d)
  | .hint k _ imm => decide (k.val ≠ 2) && decide (imm.toNat % 32 = 0)
  | _ => true

/-- A register of the short forms, x8 to x15. -/
def shortReg (r : Nat) : Bool := decide (8 ≤ r ∧ r ≤ 15)

/-- The 16 bits of a compressed load or store: `f3` and `q` name it, `wide` selects the scaling; none where no short form exists. The
forms over sp take the bits of the offset of Table 16.2 of the Unprivileged ISA. -/
def compressedBits (a : HartAccess) : Option Nat :=
  let short (f3 imm rs1 r : Nat) (wide : Bool) : Nat :=
    f3 * 2 ^ 13 + imm / 8 % 8 * 2 ^ 10 + (rs1 - 8) * 2 ^ 7 +
      (if wide then imm / 64 % 4 * 2 ^ 5 else imm / 4 % 2 * 2 ^ 6 + imm / 64 % 2 * 2 ^ 5) + (r - 8) * 4
  match a with
  | .load rd fp signed z rs1 imm =>
    let v := imm.toNat
    let wide := decide (z = .d)
    if (z = .b ∨ z = .h) ∨ (fp ∧ ! wide) ∨ ! accessExists a ∨ ! (signed || fp) ∨ v % (if wide then 8 else 4) ≠ 0 then none
    else
      let f3 := if fp then 1 else if wide then 3 else 2
      if rs1.val = 2 ∧ (fp ∨ rd.val ≠ 0) ∧ v < (if wide then 512 else 256) then
        some (f3 * 2 ^ 13 + v / 32 % 2 * 2 ^ 12 + rd * 2 ^ 7 +
          (if wide then v / 8 % 4 * 2 ^ 5 + v / 64 % 8 * 4 else v / 4 % 8 * 2 ^ 4 + v / 64 % 4 * 4) + 2)
      else if shortReg rs1 ∧ shortReg rd ∧ v < (if wide then 256 else 128) then some (short f3 v rs1 rd wide)
      else none
  | .store rs2 fp z rs1 imm =>
    let v := imm.toNat
    let wide := decide (z = .d)
    if (z = .b ∨ z = .h) ∨ (fp ∧ ! wide) ∨ v % (if wide then 8 else 4) ≠ 0 then none
    else
      let f3 := if fp then 5 else if wide then 7 else 6
      if rs1.val = 2 ∧ v < (if wide then 512 else 256) then
        some (f3 * 2 ^ 13 + (if wide then v / 8 % 8 * 2 ^ 10 + v / 64 % 8 * 2 ^ 7 else v / 4 % 16 * 2 ^ 9 + v / 64 % 4 * 2 ^ 7) + rs2 * 4 + 2)
      else if shortReg rs1 ∧ shortReg rs2 ∧ v < (if wide then 256 else 128) then some (short f3 v rs1 rs2 wide)
      else none
  | _ => none

/-- The transformed instruction (Table Harts-2): the offset and rs1 are 0, and bit 1 is 0 for a compressed one. -/
def transformed (a : HartAccess) (compressed : Bool) : Nat :=
  let w := accessBits a
  let cleared := match a with
    | .load .. => w % 2 ^ 15
    | .store .. => w / 2 ^ 20 % 32 * 2 ^ 20 + w / 2 ^ 12 % 8 * 2 ^ 12 + w % 128
    | _ => w / 2 ^ 20 * 2 ^ 20 + w % 2 ^ 15
  if compressed then cleared - 2 else cleared

/-! ### Values -/

/-- Sign-extend the low `n` bytes. -/
def extendBytes (signed : Bool) (n v : Nat) : DWord :=
  let w := v % 2 ^ (8 * n)
  if signed && w.testBit (8 * n - 1) then BitVec.ofNat 64 (2 ^ 64 - 2 ^ (8 * n) + w) else BitVec.ofNat 64 w

/-- A loaded value enters register `rd`; a single is NaN-boxed, and FS becomes dirty. -/
def Hart.load (t : Hart) (rd : Nat) (fp signed : Bool) (n v : Nat) : Hart :=
  if fp then
    let w := if n = 4 then BitVec.ofNat 64 (0xFFFFFFFF00000000 + v % 2 ^ 32) else BitVec.ofNat 64 v
    let u := (t.setF rd w).putCsr 0x300 13 2 3
    if t.virt then u.putCsr 0x200 13 2 3 else u
  else t.setX rd (extendBytes signed n v)

/-- What an AMO writes. -/
def amoResult (op : AmoOp) (n old b : Nat) : Nat :=
  let m : Nat := 2 ^ (8 * n)
  let sg (x : Nat) : Int := if x.testBit (8 * n - 1) then (x : Int) - (m : Int) else (x : Int)
  let a : Nat := old % m
  let c : Nat := b % m
  match op with
  | .swap => c
  | .add => (a + c) % m
  | .xor => a ^^^ c
  | .and => a &&& c
  | .or => a ||| c
  | .min => if sg a ≤ sg c then a else c
  | .max => if sg a ≤ sg c then c else a
  | .minu => if a ≤ c then a else c
  | .maxu => if a ≤ c then c else a

/-! ### Accesses -/

/-- Bytes of an access. -/
def accessLen : HartAccess → Nat
  | .fetch => 2
  | .load _ _ _ z _ _ => sizeLen z
  | .store _ _ z _ _ => sizeLen z
  | .lr _ w .. => if w then 8 else 4
  | .sc _ _ w .. => if w then 8 else 4
  | .amo _ _ _ w .. => if w then 8 else 4
  | .hlv _ _ _ z _ => sizeLen z
  | .hsv _ z _ => sizeLen z
  | .hint .. => 1

/-- Base register and offset of an access. -/
def accessBase : HartAccess → Nat × Nat
  | .fetch => (0, 0)
  | .load _ _ _ _ rs1 imm => (rs1, (imm.signExtend 64).toNat)
  | .store _ _ _ rs1 imm => (rs1, (imm.signExtend 64).toNat)
  | .lr _ _ rs1 _ => (rs1, 0)
  | .sc _ _ _ rs1 _ => (rs1, 0)
  | .amo _ _ _ _ rs1 _ => (rs1, 0)
  | .hlv _ _ _ _ rs1 => (rs1, 0)
  | .hsv _ _ rs1 => (rs1, 0)
  | .hint _ rs1 imm => (rs1, (imm.signExtend 64).toNat)

/-- The virtual address of an access. -/
def Hart.accessVa (t : Hart) (a : HartAccess) : DWord :=
  match a with
  | .fetch => t.pc
  | a => let (r, o) := accessBase a; t.xr r + BitVec.ofNat 64 o

/-- The integer registers an access waits for (R240). -/
def accessRegs : HartAccess → List Nat
  | .fetch => []
  | .load rd fp _ _ rs1 _ => if fp then [rs1] else [rd, rs1]
  | .store rs2 fp _ rs1 _ => if fp then [rs1] else [rs2, rs1]
  | .lr rd _ rs1 _ => [rd, rs1]
  | .sc rd rs2 _ rs1 _ => [rd, rs2, rs1]
  | .amo _ rd rs2 _ rs1 _ => [rd, rs2, rs1]
  | .hlv rd _ _ _ rs1 => [rd, rs1]
  | .hsv rs2 _ rs1 => [rs2, rs1]
  | .hint _ rs1 _ => [rs1]

/-- How the access of an instruction is made. -/
def Hart.modeOf (t : Hart) (a : HartAccess) (compressed : Bool) : AccessMode :=
  let ti := transformed a compressed
  match a with
  | .fetch => t.accessMode .fetch 0
  | .load .. | .lr .. | .hint .. => t.accessMode .load ti
  | .store .. | .sc .. | .amo .. => t.accessMode .store ti
  | .hlv _ x .. => t.guestMode .load x ti
  | .hsv .. => t.guestMode .store false ti

/-- The instruction may not run: an FP access with FS = 0, or HLV and HSV without the right to them. -/
def Hart.accessBarred (t : Hart) (a : HartAccess) : Option Nat :=
  let off := decide (Bits.get (t.csrRaw 0x300) 13 2 = 0) || (t.virt && decide (Bits.get (t.csrRaw 0x200) 13 2 = 0))
  let guest := if t.virt then some 22 else if t.priv = 0 ∧ ! t.csrBit 0x600 9 then some 2 else none
  match a with
  | .load _ true .. => if off then some 2 else none
  | .store _ true .. => if off then some 2 else none
  | .hlv .. => guest
  | .hsv .. => guest
  | _ => none

/-- The triggers an access can fire, before it is made. -/
def Hart.accessTriggers (t : Hart) (a : HartAccess) : List Nat :=
  let v := (t.accessVa a).toNat
  match a with
  | .fetch | .hint .. => []
  | .load .. | .lr .. | .hlv .. => t.trigFired 0 v
  | .store .. | .sc .. | .hsv .. => t.trigFired 1 v
  | .amo .. => let l := t.trigFired 0 v; if l.isEmpty then t.trigFired 1 v else l

/-- The bytes a store writes. -/
def Hart.storeBytes (t : Hart) (a : HartAccess) : List Byte :=
  match a with
  | .store rs2 fp z _ _ => leBytes (sizeLen z) (if fp then t.fr rs2 else t.xr rs2).toNat
  | .hsv rs2 z _ => leBytes (sizeLen z) (t.xr rs2).toNat
  | .sc _ rs2 w .. => leBytes (if w then 8 else 4) (t.xr rs2).toNat
  | _ => []

/-- R325: demand misses of hart `h` for a line. -/
def State.countMiss (s : State) (h a : Nat) (fetch : Bool) : State :=
  let l := lineOf a
  if ! s.cacheable a then s else
  let l1 := (s.lineIn (if fetch then .l1i h else .l1d h) l).isNone
  let l2 := (s.lineIn (.l2 h) l).isNone
  let l3 := ! s.lineHeld l
  s.modHart h (fun t =>
    let u := if l1 then t.count (if fetch then 1 else 2) t.priv t.virt else t
    let v := if l2 && ! fetch then u.count 3 t.priv t.virt else u
    if l2 && l3 && ! fetch then v.count 4 t.priv t.virt else v)

/-- A trap of hart `h`, behind what the access has changed so far. -/
def State.accessTrap (s : State) (h : Nat) (r : Trap) : State := s.modHart h (fun t => t.trapDrained r)

/-- R205: the access fault of an access at `va`. -/
def State.accessFault (s : State) (h : Nat) (m : AccessMode) (va : DWord) : State := s.accessTrap h (m.exc m.kind.accessFault va)

/-- R199: an SC succeeds: the reservation names these bytes, and the line is still the hart's own. -/
def State.scHolds (s : State) (h pa n : Nat) : Bool :=
  decide ((s.hart h).reservation = some (pa, n)) && (s.lineIn (.l2 h) (lineOf pa)).isSome

/-- The access itself, at its physical address. -/
def State.performAccess (s : State) (h : Nat) (a : HartAccess) (m : AccessMode) (va : DWord) (pa pbmt len : Nat) : State :=
  let n := accessLen a
  let s0 := if pbmt = 0 then s.countMiss h pa (decide (a = .fetch)) else s
  let fault (t : State) : State := t.accessFault h m va
  let read (fetch excl : Bool) (k : State → Nat → State) : State :=
    match s0.hartRead h m.priv pa n pbmt fetch excl with
    | (t, none) => fault t
    | (t, some bs) => k t (leNat bs)
  let wrote : State :=
    match s0.hartWrite h m.priv pa pbmt ((s.hart h).storeBytes a) with
    | (t, false) => fault t
    | (t, true) => t.modHart h (fun u => u.retire len)
  match a with
  | .fetch => s0
  | .load rd fp signed _ _ _ => read false false (fun t v => t.modHart h (fun u => (u.load rd fp signed n v).retire len))
  | .hlv rd _ signed _ _ => read false false (fun t v => t.modHart h (fun u => (u.load rd false signed n v).retire len))
  | .store .. => wrote
  | .hsv .. => wrote
  | .lr rd _ _ _ =>
    read false true (fun t v => t.modHart h (fun u => { u.load rd false true n v with reservation := some (pa, n) }.retire len))
  | .amo op rd rs2 _ _ _ =>
    read false true (fun t v =>
      (t.cachedWrite h pa (leBytes n (amoResult op n v ((s.hart h).xr rs2).toNat))).modHart h (fun u => (u.load rd false true n v).retire len))
  | .sc rd _ _ _ _ =>
    if s0.scHolds h pa n then
      read false true (fun t _ => (t.cachedWrite h pa ((s.hart h).storeBytes a)).modHart h (fun u =>
        { u.setX rd 0#64 with reservation := none }.retire len))
    else s.modHart h (fun u => { u.setX rd 1#64 with reservation := none }.retire len)
  | .hint .. => s0

/-- R202: a Zicbop hint: ignored while HINTS = 0, and never a fault; else the line is fetched, which event 0x15 counts. -/
def State.hint (s : State) (h : Nat) (kind : Nat) (m : AccessMode) (va : DWord) : State :=
  if ! ((s.hart h).gov 0x7C4).testBit 2 then s else
  let m1 := { m with kind := if kind = 0 then .fetch else if kind = 3 then .store else .load }
  match s.hartAddress h { m1 with scout := true } va 1 none with
  | (s1, .error _) => s1
  | (s1, .ok (pa, pbmt)) =>
    if ioRegion pa ∨ pbmt ≠ 0 ∨ s1.xipWaits pa then s1
    else ((s1.modHart h (fun t => t.count 0x15 t.priv t.virt)).cachedRead h pa 1 (decide (kind = 0)) (decide (kind = 3))).1

/-- The length of an access's instruction. -/
def instrLen (compressed : Bool) : Nat := if compressed then 2 else 4

/-- R198: the cause of a misaligned AMO, LR or SC. -/
def atomicCause : HartAccess → Option Nat
  | .amo .. => some 6
  | .lr .. | .sc .. => some 4
  | _ => none

/-- R197: an access outside Scout. One that waits for the flash does nothing else yet. -/
def State.demandAccess (s : State) (h : Nat) (a : HartAccess) (compressed : Bool) : State :=
  let t := s.hart h
  let va := t.accessVa a
  let bits := if compressed then (compressedBits a).getD 0 else accessBits a
  let fired := t.accessTriggers a
  match t.accessBarred a with
  | some c => s.accessTrap h (Trap.exc c (BitVec.ofNat 64 bits))
  | none =>
    if ! fired.isEmpty then s.modHart h (fun u => u.fire fired)
    else
      let m := t.modeOf a compressed
      match a with
      | .hint k _ _ => (s.hint h k m va).modHart h (fun u => u.retire 4)
      | a =>
        match s.walkWaits h m va with
        | some pa => s.hartWaits h pa m.kind.accessFault va
        | none =>
        match s.hartAddress h m va (accessLen a) (atomicCause a) with
        | (s1, .error r) => s1.accessTrap h r
        | (s1, .ok (pa, pbmt)) =>
          if s1.xipWaits pa then s.hartWaits h pa m.kind.accessFault va else s1.performAccess h a m va pa pbmt (instrLen compressed)

/-! ### In Scout (Table Pipeline-3) -/

/-- A register tagged INV; floating-point registers count on from 32. -/
def Scout.isInv (c : Scout) (r : Nat) : Bool := c.inv.testBit r

/-- The byte that the store shadow holds for an address, newest store first. -/
def Scout.shadowByte (c : Scout) (a : Nat) : Option (Option Byte) :=
  c.shadow.findSome? (fun e => if e.1 ≤ a ∧ a < e.1 + e.2.length then e.2[a - e.1]? else none)

/-- R233: a store in Scout would trap: its translation, PMP, PMA or alignment raises an exception. An A or D bit still to be set raises none. -/
def State.scoutTraps (s : State) (h : Nat) (m : AccessMode) (va : DWord) (n : Nat) : State × Bool :=
  match s.hartXlate h m va.toNat with
  | (s1, .error .deferred) => (s1, false)
  | (s1, .error (.waits _)) => (s1, false)
  | (s1, .error _) => (s1, true)
  | (s1, .ok (pa, _)) =>
    let odd := va.toNat % n != 0
    (s1, ! s1.mayAccess h m pa || (odd && (ioRegion pa || decide (64 < pa % 64 + n))))

/-- A store in Scout: held in the shadow of 8 entries; its data may be INV. Which of the stores a full shadow keeps is not stated: a free
value picks the one that is lost; one at an INV address is not held (DESIGN CHOICE, assumption log 73). One that would trap stops the run. -/
def State.scoutStore (s : State) (h : Nat) (c : Scout) (m : AccessMode) (a : HartAccess) (src len : Nat) : State :=
  let t := s.hart h
  let va := t.accessVa a
  let bs := t.storeBytes a
  let data := if c.isInv src then bs.map (fun _ => none) else bs.map some
  if c.isInv (accessBase a).1 then s.modHart h (fun u => u.scoutIssue 0 len 0)
  else match s.scoutTraps h m va (accessLen a) with
  | (s1, true) => s1.modHart h Hart.scoutStop
  | (s1, false) =>
    let (v, s2) := if c.shadow.length < 8 then (0#64, s1) else s1.takeFree
    let all := (va.toNat, data) :: c.shadow
    let kept := if c.shadow.length < 8 then all else all.eraseIdx (v.toNat % all.length)
    s2.modHart h (fun u => let w := u.scoutIssue 0 len 0; { w with scout := w.scout.map (fun k => { k with shadow := kept }) })

/-- A load in Scout: its data, from the shadow and, on a hit, from L2; a miss issues a prefetch read, into the L2 alone (Table Pipeline-4).
The inner none is INV; the outer one a load that would trap, and stops the run. -/
def State.scoutData (s : State) (h : Nat) (c : Scout) (m : AccessMode) (va : DWord) (n : Nat) : State × Option (Option Nat) :=
  match s.hartAddress h m va n none with
  | (s1, .error r) => (s1, if r.cause = 4 then none else some none)
  | (s1, .ok (pa, pbmt)) =>
    if ! s1.cacheable pa || pbmt != 0 then (s1, some none)
    else
      let s2 := s1.modHart h (fun t => t.count 0x10 t.priv t.virt)
      let hit := (s2.lineIn (.l2 h) (lineOf pa)).isSome
      let (s3, mem) : State × Option (List Byte) :=
        if s2.xipWaits pa then (s2, none) else let (t, r) := s2.lineRead h pa n false false false; (t, if hit then r else none)
      let byte (i : Nat) : Option Byte :=
        match c.shadowByte ((va.toNat + i) % 2 ^ 64) with
        | some b => b
        | none => mem.bind (fun bs => bs[i]?)
      let bs := (List.range n).map byte
      (s3, some (if bs.all (fun b => b.isSome) then some (leNat (bs.map (fun b => b.getD 0#8))) else none))

/-- A load in Scout into a register. -/
def State.scoutLoad (s : State) (h : Nat) (c : Scout) (a : HartAccess) (m : AccessMode) (len rd : Nat) (fp signed : Bool) : State :=
  let tag := if fp then 2 ^ (32 + rd) else if rd = 0 then 0 else 2 ^ rd
  if c.isInv (accessBase a).1 then s.modHart h (fun u => u.scoutIssue tag len 0)
  else match s.scoutData h c m ((s.hart h).accessVa a) (accessLen a) with
  | (s1, none) => s1.modHart h Hart.scoutStop
  | (s1, some none) => s1.modHart h (fun u => u.scoutIssue tag len 0)
  | (s1, some (some v)) => s1.modHart h (fun u =>
      let w := (if fp then u.setF rd (if accessLen a = 4 then BitVec.ofNat 64 (0xFFFFFFFF00000000 + v % 2 ^ 32) else BitVec.ofNat 64 v)
        else u.setX rd (extendBytes signed (accessLen a) v))
      w.scoutIssue 0 len tag)

/-- A load, store, atomic or hint in Scout. -/
def State.scoutAccess (s : State) (h : Nat) (c : Scout) (a : HartAccess) (compressed : Bool) : State :=
  let t := s.hart h
  let len := instrLen compressed
  let m := t.modeOf a compressed
  if c.stopped then s
  else if (t.accessBarred a).isSome then s.modHart h Hart.scoutStop
  else match a with
  | .fetch => s
  | .load rd fp signed _ _ _ => s.scoutLoad h c a m len rd fp signed
  | .hlv rd _ signed _ _ => s.scoutLoad h c a m len rd false signed
  | .store rs2 fp _ _ _ => s.scoutStore h c m a (if fp then 32 + rs2.val else rs2.val) len
  | .hsv rs2 _ _ => s.scoutStore h c m a rs2 len
  | .lr rd .. => s.modHart h (Hart.scoutSkip rd len)
  | .sc rd .. => s.modHart h (Hart.scoutSkip rd len)
  | .amo _ rd .. => s.modHart h (Hart.scoutSkip rd len)
  | .hint k _ _ => ((if c.isInv (accessBase a).1 then s else s.hint h k m (t.accessVa a)).modHart h (fun u => u.scoutIssue 0 4 0))

/-- The command names an instruction: it exists, in the length given. -/
def accessNamed (a : HartAccess) (compressed : Bool) : Bool :=
  accessExists a && (! compressed || decide (a = .fetch) || (compressedBits a).isSome)

/-- R197: a load, store, atomic or hint of hart `h`. -/
def State.opAccess (s : State) (h : Nat) (a : HartAccess) (compressed : Bool) : State :=
  if ! accessNamed a compressed then s else
  match (s.hart h).scout with
  | some _ =>
    if ! s.hartLive h || (s.hart h).wfi then s else
    let s1 := s.modHart h (fun t => t.completeFor (accessRegs a))
    (match (s1.hart h).scout with | some c => s1.scoutAccess h c a compressed | none => s1).mirror h
  | none => s.instr h (accessRegs a) id (fun s1 => s1.demandAccess h a compressed)

/-- The destination of a load: register, and whether it is a floating-point one. -/
def loadDest : HartAccess → Option (Nat × Bool)
  | .load rd fp .. => some (rd, fp)
  | .hlv rd .. => some (rd, false)
  | _ => none

/-- R232: the demand load `a` at the pc of hart `h` misses its L2 in cacheable memory: its translation has been made. -/
def State.scoutMiss (s : State) (h : Nat) (a : HartAccess) (compressed : Bool) : Option State :=
  let t := s.hart h
  match s.hartAddress h (t.modeOf a compressed) (t.accessVa a) (accessLen a) none with
  | (_, .error _) => none
  | (s1, .ok (pa, pbmt)) => if s1.cacheable pa && pbmt == 0 && (s1.lineIn (.l2 h) (lineOf pa)).isNone then some s1 else none

/-- R232: a demand load at the pc misses L2: checkpoint, INV destination, and fetch goes on behind the load. -/
def State.opScoutEntry (s : State) (h : Nat) (a : HartAccess) (compressed : Bool) : State :=
  let t := s.hart h
  match loadDest a with
  | none => s
  | some (rd, fp) =>
    if ! s.hartLive h || t.debug || t.wfi || t.scout.isSome || ! t.scoutEnabled || t.louDue.isSome || ! accessNamed a compressed ||
        (t.accessBarred a).isSome || t.awaits (accessRegs a) || ! (t.trigFired 2 t.pc.toNat).isEmpty || ! (t.accessTriggers a).isEmpty then s
    else match s.scoutMiss h a compressed with
    | none => s
    | some s1 =>
      let inv := if fp then 2 ^ (32 + rd) else if rd = 0 then 0 else 2 ^ rd
      let c : Scout := ⟨t.pc, t.x, t.f, 0, 0, false, inv, []⟩
      (s1.modHart h (fun u => { u.count 0x0E u.priv u.virt with
        pc := u.pc + BitVec.ofNat 64 (instrLen compressed), scout := some c })).mirror h

/-- SCOUT_ENTRY. -/
def execScoutEntry (h : Fin 4) (load : HartAccess) (compressed : Bool) (s : State) : Host.Outcome State Fault Refusal :=
  .next (s.opScoutEntry h load compressed)

/-! ### Cache-block operations -/

/-- The CMO operations. -/
inductive CacheBlock where
  | clean | flush | inval | zero
deriving DecidableEq, Repr

/-- Bits of an instruction of Zicbom or Zicboz. -/
def cboBits (k : CacheBlock) (rs1 : Nat) : DWord :=
  BitVec.ofNat 64 (iType (match k with | .inval => 0 | .clean => 1 | .flush => 2 | .zero => 4) rs1 2 0 0x0F)

/-- CBIE of an xenvcfg. -/
def Hart.cbie (t : Hart) (n : Nat) : Nat := Bits.get (t.csrRaw n) 4 2

/-- The exception of a cache-block operation that the xenvcfg of the mode do not permit. -/
def Hart.cboBarred (t : Hart) (k : CacheBlock) : Option Nat :=
  let on (n : Nat) : Bool := match k with
    | .inval => t.cbie n != 0
    | .zero => t.csrBit n 7
    | _ => t.csrBit n 6
  if t.priv = 3 then none
  else if ! on 0x30A then some 2
  else if t.virt then (if ! on 0x60A || (decide (t.priv = 0) && ! on 0x10A) then some 22 else none)
  else if t.priv = 0 && ! on 0x10A then some 2 else none

/-- R201, item 3: cbo.inval performs a flush: some CBIE that applies is 0b01. -/
def Hart.invalFlushes (t : Hart) : Bool :=
  if t.priv = 3 then false
  else t.cbie 0x30A == 1 || (t.virt && t.cbie 0x60A == 1) || (decide (t.priv = 0) && t.cbie 0x10A == 1)

/-- The address of a block operation: translated and permitted as a load or, failing that, as a store; cbo.zero as a store. Its faults are
those of a store, and ROM and the XIP window refuse cbo.zero (R202). -/
def State.cboAddress (s : State) (h : Nat) (k : CacheBlock) (va : DWord) : State × Except Trap (Nat × Nat) :=
  let t := s.hart h
  let base : DWord := va &&& ~~~ 63#64
  let ms := t.accessMode .store 0
  let ml := t.accessMode .load 0
  let asStore (s1 : State) : State × Except Trap (Nat × Nat) :=
    match s1.hartXlate h { ms with kind := if k = .zero then .store else .load } base.toNat with
    | (s2, .error f) => (s2, .error (ms.trapOf va f))
    | (s2, .ok (pa, pbmt)) =>
      let ok := if k = .zero then s2.mayAccess h ms pa && ! ioRegion pa
        else s2.mayAccess h ml pa || s2.mayAccess h ms pa
      (s2, if ok then .ok (pa, pbmt) else .error (ms.exc 7 va))
  asStore s

/-- R150: the PTE that the translation of a block operation waits for. -/
def State.cboWaits (s : State) (h : Nat) (k : CacheBlock) (va : DWord) : Option Nat :=
  s.walkWaits h { (s.hart h).accessMode .store 0 with kind := if k = .zero then .store else .load } (va &&& ~~~ 63#64)

/-- R201, R202: clean, flush and inval of the line at `l`: on memory that is not cacheable and on ROM they do nothing more. -/
def State.cboLine (s : State) (k : CacheBlock) (l pbmt : Nat) : State :=
  let xip := decide (0x20000000 ≤ l ∧ l < 0x30000000)
  if ! s.cacheable l || pbmt != 0 || inRom l then s
  else match k with
  | .clean => if xip then s else s.writeBack l
  | .flush => if xip then s.dropAll l else (s.writeBack l).dropAll l
  | .inval => if xip then s.dropAll l else (s.discardLine l).dropAll l
  | .zero => s

/-- R201, R202: cbo.zero: in cacheable memory the line is allocated without a read; with PBMT = NC or IO it is an uncached write. -/
def State.cboZero (s : State) (h l pbmt : Nat) (va : DWord) : State :=
  let zeros := List.replicate 64 0#8
  if pbmt ≠ 0 then
    match s.hartWrite h 3 l pbmt zeros with
    | (t, true) => t.modHart h (fun u => u.retire 4)
    | (t, false) => t.accessFault h ((s.hart h).accessMode .store 0) va
  else
    (s.hartZero h l).modHart h (fun u => u.retire 4)

/-- R201, R202: a cache-block operation of hart `h`. -/
def State.opCbo (s : State) (h : Nat) (k : CacheBlock) (rs1 : Nat) : State :=
  s.instr h [rs1] (fun t => if (t.cboBarred k).isSome then t.scoutStop else t.scoutSkip 0 4) (fun s1 =>
    let t := s1.hart h
    let va := t.xr rs1
    match t.cboBarred k with
    | some c => s1.accessTrap h (Trap.exc c (cboBits k rs1))
    | none =>
      match s1.cboWaits h k va with
      | some pa => s1.hartWaits h pa 7 va
      | none =>
      match s1.cboAddress h k va with
      | (s2, .error r) => s2.accessTrap h r
      | (s2, .ok (pa, pbmt)) =>
        if k = .zero then s2.cboZero h (lineOf pa) pbmt va
        else (s2.cboLine (if k = .inval ∧ t.invalFlushes then .flush else k) (lineOf pa) pbmt).modHart h (fun u => u.retire 4))

/-- CBO_CLEAN. -/
def execCboClean (h : Fin 4) (rs1 : Fin 32) (s : State) : Host.Outcome State Fault Refusal := .next (s.opCbo h .clean rs1)

/-- CBO_FLUSH. -/
def execCboFlush (h : Fin 4) (rs1 : Fin 32) (s : State) : Host.Outcome State Fault Refusal := .next (s.opCbo h .flush rs1)

/-- CBO_INVAL. -/
def execCboInval (h : Fin 4) (rs1 : Fin 32) (s : State) : Host.Outcome State Fault Refusal := .next (s.opCbo h .inval rs1)

/-- CBO_ZERO. -/
def execCboZero (h : Fin 4) (rs1 : Fin 32) (s : State) : Host.Outcome State Fault Refusal := .next (s.opCbo h .zero rs1)

end Sys2Proof.Machine
end

