-- ==== Sys2Proof/Machine/Rv.lean ====
section
/-! DEFINITION. The standard instructions that Table Harts-1 makes present and that no row of the opcode table names (R191): the
expansion of compressed instructions, the integer, bit-manipulation and branch instructions, F and D, and Zicsr. What the RISC-V documents that
R191 names fix is taken from them (notes/assumptions/51.md). -/
namespace Sys2Proof.Machine

/-! ### Encodings -/

/-- Bits [lo + n − 1 : lo] of an instruction. -/
def insBits (w lo n : Nat) : Nat := w / 2 ^ lo % 2 ^ n

/-- A B-type word. -/
def bType (imm rs2 rs1 f3 : Nat) : Nat :=
  insBits imm 12 1 * 2 ^ 31 + insBits imm 5 6 * 2 ^ 25 + rs2 * 2 ^ 20 + rs1 * 2 ^ 15 + f3 * 2 ^ 12 + insBits imm 1 4 * 2 ^ 8 +
    insBits imm 11 1 * 2 ^ 7 + 0x63

/-- A J-type word. -/
def jType (imm rd : Nat) : Nat :=
  insBits imm 20 1 * 2 ^ 31 + insBits imm 1 10 * 2 ^ 21 + insBits imm 11 1 * 2 ^ 20 + insBits imm 12 8 * 2 ^ 12 + rd * 2 ^ 7 + 0x6F

/-- A field of `n` bits sign-extended to 64. -/
def signed64 (n v : Nat) : Nat := unsext 64 (sext n v)

/-- Quadrant 0 of the C extension: over registers x8 to x15. -/
def expandC0 (c : Nat) : Option Nat :=
  let rd := 8 + insBits c 2 3
  let rs1 := 8 + insBits c 7 3
  let uw := insBits c 10 3 * 8 + insBits c 6 1 * 4 + insBits c 5 1 * 64
  let ud := insBits c 10 3 * 8 + insBits c 5 2 * 64
  match insBits c 13 3 with
  | 0 =>
    let i := insBits c 11 2 * 16 + insBits c 7 4 * 64 + insBits c 6 1 * 4 + insBits c 5 1 * 8
    if i = 0 then none else some (iType i 2 0 rd 0x13)
  | 1 => some (iType ud rs1 3 rd 0x07)
  | 2 => some (iType uw rs1 2 rd 0x03)
  | 3 => some (iType ud rs1 3 rd 0x03)
  | 5 => some (sType ud rd rs1 3 0x27)
  | 6 => some (sType uw rd rs1 2 0x23)
  | 7 => some (sType ud rd rs1 3 0x23)
  | _ => none

/-- The arithmetic of quadrant 1 over registers x8 to x15. -/
def expandC1Arith (c : Nat) : Option Nat :=
  let rd := 8 + insBits c 7 3
  let rs2 := 8 + insBits c 2 3
  let sh := insBits c 12 1 * 32 + insBits c 2 5
  match insBits c 10 2 with
  | 0 => some (iType sh rd 5 rd 0x13)
  | 1 => some (iType (0x400 + sh) rd 5 rd 0x13)
  | 2 => some (iType (signed64 6 sh) rd 7 rd 0x13)
  | _ =>
    match insBits c 12 1, insBits c 5 2 with
    | 0, 0 => some (rType 0x20 rs2 rd 0 rd 0x33)
    | 0, 1 => some (rType 0 rs2 rd 4 rd 0x33)
    | 0, 2 => some (rType 0 rs2 rd 6 rd 0x33)
    | 0, _ => some (rType 0 rs2 rd 7 rd 0x33)
    | _, 0 => some (rType 0x20 rs2 rd 0 rd 0x3B)
    | _, 1 => some (rType 0 rs2 rd 0 rd 0x3B)
    | _, _ => none

/-- Quadrant 1 of the C extension. -/
def expandC1 (c : Nat) : Option Nat :=
  let rd := insBits c 7 5
  let imm := signed64 6 (insBits c 12 1 * 32 + insBits c 2 5)
  let jump := signed64 12 (insBits c 12 1 * 2048 + insBits c 11 1 * 16 + insBits c 9 2 * 256 + insBits c 8 1 * 1024 +
    insBits c 7 1 * 64 + insBits c 6 1 * 128 + insBits c 3 3 * 2 + insBits c 2 1 * 32)
  let branch := signed64 9 (insBits c 12 1 * 256 + insBits c 10 2 * 8 + insBits c 5 2 * 64 + insBits c 3 2 * 2 + insBits c 2 1 * 32)
  match insBits c 13 3 with
  | 0 => some (iType imm rd 0 rd 0x13)
  | 1 => if rd = 0 then none else some (iType imm rd 0 rd 0x1B)
  | 2 => some (iType imm 0 0 rd 0x13)
  | 3 =>
    if imm = 0 then none
    else if rd = 2 then
      some (iType (signed64 10 (insBits c 12 1 * 512 + insBits c 6 1 * 16 + insBits c 5 1 * 64 + insBits c 3 2 * 128 + insBits c 2 1 * 32)) 2 0 2 0x13)
    else some (imm % 2 ^ 20 * 2 ^ 12 + rd * 2 ^ 7 + 0x37)
  | 4 => expandC1Arith c
  | 5 => some (jType jump 0)
  | 6 => some (bType branch 0 (8 + insBits c 7 3) 0)
  | _ => some (bType branch 0 (8 + insBits c 7 3) 1)

/-- Quadrant 2 of the C extension. -/
def expandC2 (c : Nat) : Option Nat :=
  let rd := insBits c 7 5
  let rs2 := insBits c 2 5
  let ld := insBits c 12 1 * 32 + insBits c 5 2 * 8 + insBits c 2 3 * 64
  let sd := insBits c 10 3 * 8 + insBits c 7 3 * 64
  match insBits c 13 3 with
  | 0 => some (iType (insBits c 12 1 * 32 + rs2) rd 1 rd 0x13)
  | 1 => some (iType ld 2 3 rd 0x07)
  | 2 => if rd = 0 then none else some (iType (insBits c 12 1 * 32 + insBits c 4 3 * 4 + insBits c 2 2 * 64) 2 2 rd 0x03)
  | 3 => if rd = 0 then none else some (iType ld 2 3 rd 0x03)
  | 4 =>
    if insBits c 12 1 = 0 then
      if rs2 ≠ 0 then some (rType 0 rs2 0 0 rd 0x33) else if rd = 0 then none else some (iType 0 rd 0 0 0x67)
    else if rs2 ≠ 0 then some (rType 0 rs2 rd 0 rd 0x33)
    else if rd = 0 then some 0x00100073 else some (iType 0 rd 0 1 0x67)
  | 5 => some (sType sd rs2 2 3 0x27)
  | 6 => some (sType (insBits c 9 4 * 4 + insBits c 7 2 * 64) rs2 2 2 0x23)
  | _ => some (sType sd rs2 2 3 0x23)

/-- The 32-bit instruction that a compressed one expands to (R228, D1); none for a reserved encoding. -/
def expandC (c : Nat) : Option Nat :=
  match c % 4 with
  | 0 => expandC0 c
  | 1 => expandC1 c
  | 2 => expandC2 c
  | _ => none

/-! ### Integer arithmetic: I, M, Zba, Zbb, Zbs -/

/-- A value of 32 bits, sign-extended. -/
def word64 (v : Nat) : DWord := BitVec.ofNat 64 (signed64 32 v)

/-- The quotient and remainder of the M extension on `n` bits: by zero all ones and the dividend; the overflow wraps. -/
def divRem (n : Nat) (sgn : Bool) (a b : Nat) : Nat × Nat :=
  let x := a % 2 ^ n
  let y := b % 2 ^ n
  if y = 0 then (2 ^ n - 1, x)
  else if sgn then (unsext n ((sext n x).tdiv (sext n y)), unsext n ((sext n x).tmod (sext n y)))
  else (x / y, x % y)

/-- Rotate `n` bits right. -/
def rotateRight (n v k : Nat) : Nat := (v % 2 ^ n / 2 ^ (k % n)) + v % 2 ^ n * 2 ^ ((n - k % n) % n) % 2 ^ n * (if k % n = 0 then 0 else 1)

/-- Leading zeros of `n` bits. -/
def leadingZeros (n v : Nat) : Nat := if v % 2 ^ n = 0 then n else n - 1 - (v % 2 ^ n).log2

/-- Trailing zeros of `n` bits. -/
def trailingZeros (n v : Nat) : Nat := (lowestBit n v).getD n

/-- A register-register operation of OP on 64 bits; none for an encoding that is absent. -/
def rvOp (f7 f3 : Nat) (a b : DWord) : Option DWord :=
  let x := a.toNat
  let y := b.toNat
  let k := y % 64
  let bit := 2 ^ k
  let of (n : Nat) : Option DWord := some (BitVec.ofNat 64 n)
  let both (q : Nat × Nat) (rem : Bool) : Option DWord := of (if rem then q.2 else q.1)
  match f7, f3 with
  | 0x00, 0 => some (a + b)
  | 0x20, 0 => some (a - b)
  | 0x00, 1 => some (a <<< k)
  | 0x00, 2 => of (b2n (decide (a.toInt < b.toInt)))
  | 0x00, 3 => of (b2n (decide (x < y)))
  | 0x00, 4 => some (a ^^^ b)
  | 0x00, 5 => some (a >>> k)
  | 0x20, 5 => some (a.sshiftRight k)
  | 0x00, 6 => some (a ||| b)
  | 0x00, 7 => some (a &&& b)
  | 0x01, 0 => some (a * b)
  | 0x01, 1 => of (unsext 128 (a.toInt * b.toInt) / 2 ^ 64)
  | 0x01, 2 => of (unsext 128 (a.toInt * (y : Int)) / 2 ^ 64)
  | 0x01, 3 => of (x * y / 2 ^ 64)
  | 0x01, 4 => both (divRem 64 true x y) false
  | 0x01, 5 => both (divRem 64 false x y) false
  | 0x01, 6 => both (divRem 64 true x y) true
  | 0x01, 7 => both (divRem 64 false x y) true
  | 0x10, 2 => some (a <<< 1 + b)
  | 0x10, 4 => some (a <<< 2 + b)
  | 0x10, 6 => some (a <<< 3 + b)
  | 0x20, 7 => some (a &&& ~~~ b)
  | 0x20, 6 => some (a ||| ~~~ b)
  | 0x20, 4 => some (~~~ (a ^^^ b))
  | 0x05, 4 => some (if a.toInt ≤ b.toInt then a else b)
  | 0x05, 5 => some (if x ≤ y then a else b)
  | 0x05, 6 => some (if a.toInt ≤ b.toInt then b else a)
  | 0x05, 7 => some (if x ≤ y then b else a)
  | 0x30, 1 => of (rotateRight 64 x (64 - k))
  | 0x30, 5 => of (rotateRight 64 x k)
  | 0x24, 1 => of (clearBits x bit)
  | 0x24, 5 => of (x / bit % 2)
  | 0x34, 1 => of (x ^^^ bit)
  | 0x14, 1 => of (x ||| bit)
  | _, _ => none

/-- A register-register operation of OP-32; `rs2` is the register number, for zext.h. -/
def rvOp32 (f7 f3 rs2 : Nat) (a b : DWord) : Option DWord :=
  let x := a.toNat % 2 ^ 32
  let y := b.toNat % 2 ^ 32
  let k := y % 32
  let zx : DWord := BitVec.ofNat 64 x
  match f7, f3 with
  | 0x00, 0 => some (word64 (x + y))
  | 0x20, 0 => some (word64 (2 ^ 32 + x - y))
  | 0x00, 1 => some (word64 (x * 2 ^ k))
  | 0x00, 5 => some (word64 (x / 2 ^ k))
  | 0x20, 5 => some (word64 (unsext 32 (sext 32 x / ((2 ^ k : Nat) : Int))))
  | 0x01, 0 => some (word64 (x * y))
  | 0x01, 4 => some (word64 (divRem 32 true x y).1)
  | 0x01, 5 => some (word64 (divRem 32 false x y).1)
  | 0x01, 6 => some (word64 (divRem 32 true x y).2)
  | 0x01, 7 => some (word64 (divRem 32 false x y).2)
  | 0x04, 0 => some (zx + b)
  | 0x10, 2 => some (zx <<< 1 + b)
  | 0x10, 4 => some (zx <<< 2 + b)
  | 0x10, 6 => some (zx <<< 3 + b)
  | 0x30, 1 => some (word64 (rotateRight 32 x (32 - k)))
  | 0x30, 5 => some (word64 (rotateRight 32 x k))
  | 0x04, 4 => if rs2 = 0 then some (BitVec.ofNat 64 (x % 2 ^ 16)) else none
  | _, _ => none

/-- The operations of one operand that OP-IMM and OP-IMM-32 name by bits [24:20]. -/
def rvUnary (n k : Nat) (a : DWord) : Option DWord :=
  let x := a.toNat
  match k with
  | 0 => some (BitVec.ofNat 64 (leadingZeros n x))
  | 1 => some (BitVec.ofNat 64 (trailingZeros n x))
  | 2 => some (BitVec.ofNat 64 (popcount n x))
  | 4 => if n = 64 then some (BitVec.ofNat 64 (signed64 8 x)) else none
  | 5 => if n = 64 then some (BitVec.ofNat 64 (signed64 16 x)) else none
  | _ => none

/-- orc.b: each byte that is not 0 becomes 0xFF. -/
def orcBytes (a : DWord) : DWord := BitVec.ofNat 64 (leNat ((leBytes 8 a.toNat).map (fun b => if b = 0#8 then 0#8 else 0xFF#8)))

/-- A register-immediate operation of OP-IMM: `imm` holds bits [31:20]. -/
def rvOpImm (imm f3 : Nat) (a : DWord) : Option DWord :=
  let sh : DWord := BitVec.ofNat 64 (imm % 64)
  match f3 with
  | 1 =>
    match imm / 64 with
    | 0x00 => rvOp 0 1 a sh
    | 0x0A => rvOp 0x14 1 a sh
    | 0x12 => rvOp 0x24 1 a sh
    | 0x1A => rvOp 0x34 1 a sh
    | 0x18 => rvUnary 64 (imm % 64) a
    | _ => none
  | 5 =>
    if imm = 0x287 then some (orcBytes a)
    else if imm = 0x6B8 then some (BitVec.ofNat 64 (beNat (leBytes 8 a.toNat)))
    else match imm / 64 with
    | 0x00 => rvOp 0 5 a sh
    | 0x10 => rvOp 0x20 5 a sh
    | 0x18 => rvOp 0x30 5 a sh
    | 0x12 => rvOp 0x24 5 a sh
    | _ => none
  | f3 => rvOp 0 f3 a (BitVec.ofNat 64 (signed64 12 imm))

/-- A register-immediate operation of OP-IMM-32. -/
def rvOpImm32 (imm f3 : Nat) (a : DWord) : Option DWord :=
  let sh : DWord := BitVec.ofNat 64 (imm % 32)
  match f3 with
  | 0 => some (word64 (a.toNat + signed64 12 imm))
  | 1 =>
    if imm / 64 = 2 then some (BitVec.ofNat 64 (a.toNat % 2 ^ 32) <<< (imm % 64))
    else if imm / 32 = 0 then rvOp32 0 1 0 a sh
    else if imm / 32 = 0x30 then rvUnary 32 (imm % 32) a
    else none
  | 5 =>
    match imm / 32 with
    | 0x00 => rvOp32 0 5 0 a sh
    | 0x20 => rvOp32 0x20 5 0 a sh
    | 0x30 => rvOp32 0x30 5 0 a sh
    | _ => none
  | _ => none

/-- A branch of BRANCH is taken; none for an encoding that is absent. -/
def rvTaken (f3 : Nat) (a b : DWord) : Option Bool :=
  match f3 with
  | 0 => some (a == b)
  | 1 => some (a != b)
  | 4 => some (decide (a.toInt < b.toInt))
  | 5 => some (! decide (a.toInt < b.toInt))
  | 6 => some (decide (a.toNat < b.toNat))
  | 7 => some (! decide (a.toNat < b.toNat))
  | _ => none

/-! ### What an instruction of registers alone does -/

/-- The effect of an instruction on registers and pc. -/
structure RvEffect where
  /-- integer register written, 0 for none -/
  rd : Nat
  /-- floating-point register written -/
  fd : Option Nat
  /-- value written -/
  value : DWord
  /-- flags that fcsr accrues -/
  flags : Nat
  /-- where a jump or a taken branch goes -/
  jump : Option DWord
  /-- a branch or jump: which counters of Table Counting-3 it may move -/
  branch : Bool
  /-- where a branch goes when it is taken: its target does not depend on registers -/
  target : Option DWord
  /-- registers read; floating-point ones count on from 32 -/
  src : List Nat
deriving DecidableEq, Repr

/-- A value for an integer register. -/
def RvEffect.int (rd : Nat) (src : List Nat) (v : DWord) : RvEffect := ⟨rd, none, v, 0, none, false, none, src⟩

/-- LUI, AUIPC, jumps, branches and the integer operations; `w` is the 32-bit form and `len` the length fetched. -/
def Hart.rvInteger (t : Hart) (w len : Nat) : Option RvEffect :=
  let rd := insBits w 7 5
  let f3 := insBits w 12 3
  let rs1 := insBits w 15 5
  let rs2 := insBits w 20 5
  let f7 := insBits w 25 7
  let a := t.xr rs1
  let b := t.xr rs2
  let link := t.pc + BitVec.ofNat 64 len
  let at' (n v : Nat) : DWord := t.pc + BitVec.ofNat 64 (signed64 n v)
  match insBits w 0 7 with
  | 0x37 => some (.int rd [] (word64 (insBits w 12 20 * 2 ^ 12)))
  | 0x17 => some (.int rd [] (t.pc + word64 (insBits w 12 20 * 2 ^ 12)))
  | 0x6F =>
    let dest := at' 21 (insBits w 31 1 * 2 ^ 20 + insBits w 12 8 * 2 ^ 12 + insBits w 20 1 * 2 ^ 11 + insBits w 21 10 * 2)
    some { RvEffect.int rd [] link with jump := some dest, branch := true, target := some dest }
  | 0x67 =>
    if f3 = 0 then some { RvEffect.int rd [rs1] link with
      jump := some ((a + BitVec.ofNat 64 (signed64 12 (insBits w 20 12))) &&& ~~~ 1#64), branch := true }
    else none
  | 0x63 =>
    let dest := at' 13 (insBits w 31 1 * 2 ^ 12 + insBits w 7 1 * 2 ^ 11 + insBits w 25 6 * 2 ^ 5 + insBits w 8 4 * 2)
    (rvTaken f3 a b).map (fun y => { RvEffect.int 0 [rs1, rs2] 0#64 with jump := if y then some dest else none, branch := true, target := some dest })
  | 0x13 => (rvOpImm (insBits w 20 12) f3 a).map (RvEffect.int rd [rs1])
  | 0x1B => (rvOpImm32 (insBits w 20 12) f3 a).map (RvEffect.int rd [rs1])
  | 0x33 => (rvOp f7 f3 a b).map (RvEffect.int rd [rs1, rs2])
  | 0x3B => (rvOp32 f7 f3 rs2 a b).map (RvEffect.int rd [rs1, rs2])
  | _ => none

/-- A floating-point operand: a single that is not NaN-boxed is the canonical NaN. -/
def Hart.fpPat (t : Hart) (d : Bool) (r : Nat) : Nat :=
  let v := (t.fr r).toNat
  if d then v else if v / 2 ^ 32 = 2 ^ 32 - 1 then v % 2 ^ 32 else fpNan false

/-- A result NaN-boxed. -/
def fpBox (d : Bool) (p : Nat) : DWord := BitVec.ofNat 64 (if d then p else 0xFFFFFFFF00000000 + p % 2 ^ 32)

/-- The rounding mode of an instruction: its own, or frm; none where neither is one. -/
def Hart.roundMode (t : Hart) (f3 : Nat) : Option Nat :=
  let m := if f3 = 7 then Bits.get (t.csrRaw 3) 5 3 else f3
  if m ≤ 4 then some m else none

/-- A floating-point result. -/
def RvEffect.fp (d : Bool) (rd : Nat) (src : List Nat) (r : FpRes) : RvEffect := ⟨0, some rd, fpBox d r.bits, r.flags, none, false, none, src.map (· + 32)⟩

/-- OP-FP without a rounding mode: sign injection, minimum and maximum, comparison, classification and moves. -/
def Hart.rvFpPlain (t : Hart) (w : Nat) (d : Bool) : Option RvEffect :=
  let rd := insBits w 7 5
  let f3 := insBits w 12 3
  let rs1 := insBits w 15 5
  let rs2 := insBits w 20 5
  let pa := t.fpPat d rs1
  let pb := t.fpPat d rs2
  let sign := 2 ^ (fpM d + fpE d)
  let neg (p : Nat) : Bool := decide (p / sign % 2 = 1)
  let inj (s : Bool) : Option RvEffect := some (.fp d rd [rs1, rs2] ⟨fpSigned d s (pa % sign), 0⟩)
  match insBits w 27 5, f3 with
  | 0x04, 0 => inj (neg pb)
  | 0x04, 1 => inj (! neg pb)
  | 0x04, 2 => inj (neg pa != neg pb)
  | 0x05, 0 => some (.fp d rd [rs1, rs2] (fpMinMax d false pa pb))
  | 0x05, 1 => some (.fp d rd [rs1, rs2] (fpMinMax d true pa pb))
  | 0x14, f3 =>
    if 2 < f3 then none else
    let r := fpCompare f3 (fpVal d pa) (fpVal d pb)
    some { RvEffect.int rd [32 + rs1, 32 + rs2] (BitVec.ofNat 64 r.bits) with flags := r.flags }
  | 0x1C, 0 =>
    if rs2 ≠ 0 then none
    else some (.int rd [32 + rs1] (if d then t.fr rs1 else word64 (t.fr rs1).toNat))
  | 0x1C, 1 => if rs2 ≠ 0 then none else some (.int rd [32 + rs1] (BitVec.ofNat 64 (fpClass d pa)))
  | 0x1E, 0 =>
    if rs2 ≠ 0 then none
    else some { RvEffect.fp d rd [] ⟨(t.xr rs1).toNat % 2 ^ (if d then 64 else 32), 0⟩ with src := [rs1] }
  | _, _ => none

/-- OP-FP under a rounding mode, and the fused multiply-adds. -/
def Hart.rvFpRounded (t : Hart) (w : Nat) (d : Bool) (rm : Nat) : Option RvEffect :=
  let rd := insBits w 7 5
  let rs1 := insBits w 15 5
  let rs2 := insBits w 20 5
  let rs3 := insBits w 27 5
  let a := fpVal d (t.fpPat d rs1)
  let b := fpVal d (t.fpPat d rs2)
  let c := fpVal d (t.fpPat d rs3)
  let two (r : FpRes) : Option RvEffect := some (.fp d rd [rs1, rs2] r)
  let fused (x z : FpVal) : Option RvEffect := some (.fp d rd [rs1, rs2, rs3] (fpFma d rm x b z))
  let width := if rs2 < 2 then 32 else 64
  match insBits w 0 7 with
  | 0x43 => fused a c
  | 0x47 => fused a c.negate
  | 0x4B => fused a.negate c
  | 0x4F => fused a.negate c.negate
  | 0x53 =>
    match insBits w 27 5 with
    | 0x00 => two (fpAdd d rm a b)
    | 0x01 => two (fpAdd d rm a b.negate)
    | 0x02 => two (fpMul d rm a b)
    | 0x03 => two (fpDiv d rm a b)
    | 0x0B => if rs2 = 0 then some (.fp d rd [rs1] (fpSqrt d rm a)) else none
    | 0x08 => if rs2 = b2n (! d) then some (.fp d rd [rs1] (fpConvert d rm (fpVal (! d) (t.fpPat (! d) rs1)))) else none
    | 0x18 =>
      if 3 < rs2 then none else
      let r := fpToInt (rs2 % 2 == 0) width rm a
      some { RvEffect.int rd [32 + rs1] (if width = 32 then word64 r.bits else BitVec.ofNat 64 r.bits) with flags := r.flags }
    | 0x1A =>
      if 3 < rs2 then none else
      let x := (t.xr rs1).toNat % 2 ^ width
      some { RvEffect.fp d rd [] (fpFromInt d rm (if rs2 % 2 = 0 then sext width x else (x : Int))) with src := [rs1] }
    | _ => none
  | _ => none

/-- F and D are off: mstatus.FS, or vsstatus.FS for a guest. -/
def Hart.fpOff (t : Hart) : Bool :=
  decide (Bits.get (t.csrRaw 0x300) 13 2 = 0) || (t.virt && decide (Bits.get (t.csrRaw 0x200) 13 2 = 0))

/-- F and D: formats single and double alone, FS not off, and a rounding mode that is one. -/
def Hart.rvFloat (t : Hart) (w : Nat) : Option RvEffect :=
  if ! [0x43, 0x47, 0x4B, 0x4F, 0x53].contains (insBits w 0 7) || decide (1 < insBits w 25 2) || t.fpOff then none
  else
    let d := decide (insBits w 25 2 = 1)
    (if insBits w 0 7 = 0x53 then t.rvFpPlain w d else none).orElse (fun _ =>
      match t.roundMode (insBits w 12 3) with
      | some rm => t.rvFpRounded w d rm
      | none => none)

/-- R191: what an instruction of registers alone does; none for every other encoding. -/
def Hart.rvEffect (t : Hart) (w len : Nat) : Option RvEffect := (t.rvInteger w len).orElse (fun _ => t.rvFloat w)

/-- mstatus.FS becomes dirty, and vsstatus.FS in a guest. -/
def Hart.dirtyFp (t : Hart) : Hart :=
  let u := t.putCsr 0x300 13 2 3
  if t.virt then u.putCsr 0x200 13 2 3 else u

/-- The effect takes place, and the instruction retires; `miss` says that its branch was mispredicted. -/
def Hart.doEffect (t : Hart) (len : Nat) (e : RvEffect) (miss : Bool) : Hart :=
  let u := match e.fd with
    | some r => (t.setF r e.value).dirtyFp
    | none => t.setX e.rd e.value
  let v := if e.flags = 0 then u else (u.putCsr 3 0 5 (Bits.get (u.csrRaw 3) 0 5 ||| e.flags)).dirtyFp
  let c := if e.branch && miss then v.count 0x07 t.priv t.virt else v
  let d := if e.jump.isSome then c.count 0x08 t.priv t.virt else c
  (d.retired 1 (e.jump.getD (t.pc + BitVec.ofNat 64 len))).stepEnd

/-- Table Pipeline-3: in Scout the result is held in the checkpointed copy alone, INV where a source is; a branch whose condition or target
is INV follows its prediction, `guess`. -/
def Hart.scoutEffect (t : Hart) (c : Scout) (len : Nat) (e : RvEffect) (guess : DWord) : Hart :=
  let bad := e.src.any (fun r => c.inv.testBit r)
  let tag := match e.fd with
    | some r => 2 ^ (32 + r)
    | none => if e.rd = 0 then 0 else 2 ^ e.rd
  let inv := bad && ! e.branch
  let u := if inv then t else match e.fd with
    | some r => t.setF r e.value
    | none => t.setX e.rd e.value
  let v := u.scoutIssue (if inv then tag else 0) len tag
  if c.stopped then t
  else if e.branch then
    let next := t.pc + BitVec.ofNat 64 len
    let dest := if bad then (match e.target with
        | some a => if guess.toNat % 2 = 1 then a else next
        | none => guess &&& ~~~ 1#64)
      else e.jump.getD next
    { v with pc := dest }
  else v

/-! ### Zicsr -/

/-- The CSR that a number names in the mode: a guest's supervisor CSRs are the VS ones. -/
def Hart.csrAlias (t : Hart) (n : Nat) : Nat :=
  if t.virt && [0x100, 0x104, 0x105, 0x140, 0x141, 0x142, 0x143, 0x144, 0x14D, 0x180].contains n then n + 0x100 else n

/-- The exception of a Zicsr instruction that the mode may not execute (R191, R209, R219): privilege, read-only CSRs, TVM and VTVM, the counter
enables, STCE, FS, and debug mode's own. -/
def Hart.csrCause (t : Hart) (n : Nat) (write : Bool) : Option Nat :=
  let p := n / 256 % 4
  let low := decide (t.priv < 3)
  let kind := if t.virt then some 22 else some 2
  let need (on : Bool) (c : Option Nat) (rest : Option Nat) : Option Nat := if on then c else rest
  if ! csrPresent n || (write && decide (0xC00 ≤ n)) then some 2
  else if 0x7B0 ≤ n ∧ n ≤ 0x7BF then (if t.debug then none else some 2)
  else if p = 3 then (if t.priv = 3 then none else some 2)
  else if p = 2 then
    need t.virt (if n = 0x24D ∧ ! t.csrBit 0x30A 63 then some 2 else some 22) (need (t.priv == 0) (some 2)
      (need (n == 0x680 && low && t.csrBit 0x300 20) (some 2)
        (need (n == 0x24D && low && (! t.csrBit 0x306 1 || ! t.csrBit 0x30A 63)) (some 2) none)))
  else if p = 1 then
    need (t.priv == 0) kind
      (need (n == 0x180 && low && (if t.virt then t.csrBit 0x600 20 else t.csrBit 0x300 20)) kind
        (need (n == 0x14D && low && (! t.csrBit 0x306 1 || ! t.csrBit 0x30A 63)) (some 2)
          (need (n == 0x14D && t.virt && (! t.csrBit 0x606 1 || ! t.csrBit 0x60A 63)) (some 22) none)))
  else if n ≤ 3 then (if t.fpOff then some 2 else none)
  else
    let b := n % 32
    need (low && ! t.csrBit 0x306 b) (some 2)
      (need (t.virt && ! t.csrBit 0x606 b) (some 22) (need (t.priv == 0 && ! t.csrBit 0x106 b) kind none))

/-- What a Zicsr instruction reads: scountovf shows the counters that the mode may read; time in a guest is that of htimedelta. -/
def State.csrSeen (s : State) (h n : Nat) : DWord :=
  let t := s.hart h
  let v := s.csrRead h n
  if n = 0xDA0 then
    let m := if t.priv < 3 then v &&& t.csrRaw 0x306 else v
    if t.virt then m &&& t.csrRaw 0x606 else m
  else if n = 0xC01 ∧ t.virt then v + t.csrRaw 0x605
  else v

/-- The old value from which a set or clear computes: of mip, SEIP is the bit that software holds. -/
def State.csrBase (s : State) (h n : Nat) : DWord :=
  if n = 0x344 then Bits.put (s.csrSeen h n) 9 1 (Bits.get ((s.hart h).csrRaw n) 9 1) else s.csrSeen h n

/-- A Zicsr instruction of a standard CSR, once its registers are ready. fcsr makes FS dirty. What is written to minstret stands: the write
takes the place of the count of its own instruction. -/
def State.zicsr (s : State) (h n : Nat) (op : CsrOp) (src : CsrSrc) (rd : Nat) : State :=
  let t := s.hart h
  let writes := ! csrReads op src
  match t.csrCause n writes with
  | some c => s.modHart h (fun u => u.trapDrained (Trap.exc c (zicsrBits n op src rd)))
  | none =>
    let m := t.csrAlias n
    let old := s.csrSeen h m
    let new := csrNew t op src (s.csrBase h m)
    s.modHart h (fun u =>
      let a := match new with
        | some v => (let b := u.csrWrite m v; if m ≤ 3 then b.dirtyFp else b)
        | none => u
      let b := (a.setX rd old).retired 1 (t.pc + 4#64)
      (if m = 0xB02 ∧ new.isSome then b.setCsr m (a.csrRaw m) else b).stepEnd)

end Sys2Proof.Machine
end

