-- ==== Sys2Proof/Machine/HartRun.lean ====
section
/-! DEFINITION. The instruction at a hart's pc (R191, R197, R228, R233, R236): fetched, expanded, decoded from its bits, and executed as the
command of its row or by what the RISC-V documents say of it; an encoding that is absent raises an illegal-instruction exception. -/
namespace Sys2Proof.Machine

/-! ### Decoding the instructions that rows name -/

/-- A size by its funct3. -/
def sizeOfF3 (f3 : Nat) : Size := if f3 % 4 = 0 then .b else if f3 % 4 = 1 then .h else if f3 % 4 = 2 then .w else .d

/-- An AMO by its funct5. -/
def amoOfF5 (f5 : Nat) : Option AmoOp :=
  match f5 with
  | 0 => some .add | 1 => some .swap | 4 => some .xor | 8 => some .or | 12 => some .and
  | 16 => some .min | 20 => some .max | 24 => some .minu | 28 => some .maxu
  | _ => none

/-- A register field. -/
def regField (w lo : Nat) : Fin 32 := ⟨insBits w lo 5, Nat.mod_lt _ (by decide)⟩

/-- The aq and rl bits. -/
def aqrlField (w : Nat) : Fin 4 := ⟨insBits w 25 2, Nat.mod_lt _ (by decide)⟩

/-- Loads and stores of the hypervisor extension, by funct7 and rs2. -/
def guestOfWord (w : Nat) : Option HartAccess :=
  let rd := regField w 7
  let rs1 := regField w 15
  let rs2 := regField w 20
  match insBits w 25 7, rs2.val with
  | 0x30, 0 => some (.hlv rd false true .b rs1)
  | 0x30, 1 => some (.hlv rd false false .b rs1)
  | 0x32, 0 => some (.hlv rd false true .h rs1)
  | 0x32, 1 => some (.hlv rd false false .h rs1)
  | 0x32, 3 => some (.hlv rd true false .h rs1)
  | 0x34, 0 => some (.hlv rd false true .w rs1)
  | 0x34, 1 => some (.hlv rd false false .w rs1)
  | 0x34, 3 => some (.hlv rd true false .w rs1)
  | 0x36, 0 => some (.hlv rd false true .d rs1)
  | 0x31, _ => if rd.val = 0 then some (.hsv rs2 .b rs1) else none
  | 0x33, _ => if rd.val = 0 then some (.hsv rs2 .h rs1) else none
  | 0x35, _ => if rd.val = 0 then some (.hsv rs2 .w rs1) else none
  | 0x37, _ => if rd.val = 0 then some (.hsv rs2 .d rs1) else none
  | _, _ => none

/-- The access that a word encodes (MEMORY_ACCESS). -/
def accessOfWord (w : Nat) : Option HartAccess :=
  let rd := regField w 7
  let rs1 := regField w 15
  let rs2 := regField w 20
  let f3 := insBits w 12 3
  let immI : BitVec 12 := BitVec.ofNat 12 (insBits w 20 12)
  let immS : BitVec 12 := BitVec.ofNat 12 (insBits w 25 7 * 32 + insBits w 7 5)
  let wide := decide (f3 = 3)
  let a : Option HartAccess :=
    match insBits w 0 7 with
    | 0x03 => if f3 = 7 then none else some (.load rd false (decide (f3 < 4)) (sizeOfF3 f3) rs1 immI)
    | 0x07 => if f3 = 2 ∨ f3 = 3 then some (.load rd true true (sizeOfF3 f3) rs1 immI) else none
    | 0x23 => if f3 < 4 then some (.store rs2 false (sizeOfF3 f3) rs1 immS) else none
    | 0x27 => if f3 = 2 ∨ f3 = 3 then some (.store rs2 true (sizeOfF3 f3) rs1 immS) else none
    | 0x13 =>
      if f3 = 6 ∧ rd.val = 0 ∧ (rs2.val = 0 ∨ rs2.val = 1 ∨ rs2.val = 3) then
        some (.hint ⟨rs2.val % 4, Nat.mod_lt _ (by decide)⟩ rs1 (BitVec.ofNat 12 (insBits w 25 7 * 32)))
      else none
    | 0x2F =>
      if f3 ≠ 2 ∧ f3 ≠ 3 then none
      else if insBits w 27 5 = 2 then (if rs2.val = 0 then some (.lr rd wide rs1 (aqrlField w)) else none)
      else if insBits w 27 5 = 3 then some (.sc rd rs2 wide rs1 (aqrlField w))
      else (amoOfF5 (insBits w 27 5)).map (fun op => .amo op rd rs2 wide rs1 (aqrlField w))
    | 0x73 => if f3 = 4 then guestOfWord w else none
    | _ => none
  a.filter accessExists

/-- The Xoroud operation of a funct7 (Table Pipeline-5). -/
def longOfF7 (f7 : Nat) : Option LongOp :=
  [LongOp.ldivu, .isqrt, .frcp, .flog2, .fexp2, .lmacu, .lmacs, .laccWr, .laccRdlo, .laccRdhi, .crc32c].find? (fun op => op.funct7 == f7)

/-- A vendor CSR by its number (Table Harts-5). -/
def vendorOfNum (n : Nat) : Option VendorCsr :=
  [VendorCsr.mscout, .mloucfg, .mloufsr, .mloufpc, .mprefetch, .mguardst, .sloufsr, .sloufpc].find? (fun c => vendorNum c == n)

/-! ### Executing -/

/-- R191: an encoding that is absent: an illegal-instruction exception, xtval being its bits. In Scout it stops the run. -/
def State.illegal (s : State) (h bits : Nat) : State :=
  s.instr h [] Hart.scoutStop (fun s1 => s1.modHart h (fun t => t.trapDrained (Trap.exc 2 (BitVec.ofNat 64 bits))))

/-- A Zicsr instruction: of a vendor CSR by its row, else of a standard one. -/
def State.runCsr (s : State) (h w bits : Nat) : State :=
  let f3 := insBits w 12 3
  let n := insBits w 20 12
  let src : CsrSrc := if f3 < 4 then .reg (regField w 15) else .imm (regField w 15)
  let rd := insBits w 7 5
  match (match f3 % 4 with | 1 => some CsrOp.write | 2 => some .set | 3 => some .clear | _ => none) with
  | none => s.illegal h bits
  | some op =>
    match vendorOfNum n with
    | some c => s.opVendorCsr h c op src rd
    | none => s.instr h (csrSrcRegs src rd) (csrInScout op src rd (fun t => t.csrCause n (! csrReads op src))) (fun s1 => s1.zicsr h n op src rd)

/-- The instructions of SYSTEM with funct3 0. -/
def State.runSystem (s : State) (h w bits : Nat) : State :=
  let rs1 := insBits w 15 5
  let rs2 := insBits w 20 5
  if w = 0x00000073 then s.opTrap h .ecall
  else if w = 0x00100073 then s.instr h [] Hart.scoutStop (fun s1 => s1.modHart h Hart.ebreak)
  else if w = 0x30200073 then s.opXret h .mret
  else if w = 0x10200073 then s.opXret h .sret
  else if w = 0x10500073 then s.opWfi h
  else if insBits w 7 5 = 0 ∧ insBits w 25 7 = 0x09 then s.opVmaFence h .sfenceVma rs1 rs2
  else if insBits w 7 5 = 0 ∧ insBits w 25 7 = 0x11 then s.opVmaFence h .hfenceVvma rs1 rs2
  else if insBits w 7 5 = 0 ∧ insBits w 25 7 = 0x31 then s.opVmaFence h .hfenceGvma rs1 rs2
  else s.illegal h bits

/-- The instructions of MISC-MEM. -/
def State.runMiscMem (s : State) (h w bits : Nat) : State :=
  let rs1 := insBits w 15 5
  match insBits w 12 3 with
  | 0 => s.opFence h (insBits w 24 4) (insBits w 20 4)
  | 1 => s.opFenceI h
  | 2 =>
    if insBits w 7 5 ≠ 0 then s.illegal h bits else
    (match insBits w 20 12 with
     | 0 => s.opCbo h .inval rs1
     | 1 => s.opCbo h .clean rs1
     | 2 => s.opCbo h .flush rs1
     | 4 => s.opCbo h .zero rs1
     | _ => s.illegal h bits)
  | _ => s.illegal h bits

/-- R236: a word of custom-0: an unlisted funct7, or a funct3 that is not 0, is illegal. -/
def State.runXoroud (s : State) (h w bits : Nat) : State :=
  let rd := insBits w 7 5
  let rs1 := insBits w 15 5
  let rs2 := insBits w 20 5
  if insBits w 12 3 ≠ 0 then s.illegal h bits
  else if insBits w 25 7 = 0x7F then s.opLbar h rd rs1 rs2
  else match longOfF7 (insBits w 25 7) with
  | some op => s.xoroud h op rd rs1 rs2
  | none => s.illegal h bits

/-- An instruction of registers alone; whether a branch is mispredicted, and what an INV one follows in Scout, is free. -/
def State.runEffect (s : State) (h w len : Nat) (e : RvEffect) : State :=
  let branchFree (t : State) : DWord × State := if e.branch then t.takeFree else (0#64, t)
  match (s.hart h).scout with
  | some c =>
    if ! s.hartLive h || (s.hart h).wfi then s else
    let (v, s1) := branchFree s
    (s1.modHart h (fun t =>
      let u := t.completeFor (e.rd :: e.src.filter (fun r => decide (r < 32)))
      match u.rvEffect w len with | some x => u.scoutEffect c len x v | none => u)).mirror h
  | none =>
    s.instr h (e.rd :: e.src.filter (fun r => decide (r < 32))) id (fun s1 =>
      let (v, s2) := branchFree s1
      s2.modHart h (fun t => match t.rvEffect w len with | some x => t.doEffect len x (v.toNat % 2 == 1) | none => t))

/-- R191: the instruction `w` of hart `h`, `len` bytes long as fetched, `bits` its own bits. -/
def State.execWord (s : State) (h w len bits : Nat) : State :=
  match accessOfWord w with
  | some a => s.opAccess h a (decide (len = 2))
  | none =>
    match (s.hart h).rvEffect w len with
    | some e => s.runEffect h w len e
    | none =>
      match insBits w 0 7 with
      | 0x0B => s.runXoroud h w bits
      | 0x0F => s.runMiscMem h w bits
      | 0x73 => if insBits w 12 3 = 0 then s.runSystem h w bits else s.runCsr h w bits
      | _ => s.illegal h bits

/-- An instruction by its first 32 bits: a compressed one is expanded. -/
def State.execBits (s : State) (h b : Nat) : State :=
  if b % 4 = 3 then s.execWord h (b % 2 ^ 32) 4 (b % 2 ^ 32)
  else match expandC (b % 2 ^ 16) with
  | some w => if w = 0x00100073 then s.instr h [] Hart.scoutStop (fun s1 => s1.modHart h Hart.ebreak) else s.execWord h w 2 (b % 2 ^ 16)
  | none => s.illegal h (b % 2 ^ 16)

/-! ### Fetching -/

/-- R197, R205, R228: a fetch of 16 bits at `va`: what it reads, or its trap, or none where it waits for the flash, or in Scout would touch
non-cacheable memory (R235). -/
def State.fetchHalf (s : State) (h : Nat) (va : DWord) : State × Except (Option Trap) Nat :=
  let m := (s.hart h).accessMode .fetch 0
  match s.walkWaits h m va with
  | some pa => (if m.scout then s else s.hartWaits h pa 1 va, .error none)
  | none =>
  match s.hartAddress h m va 2 none with
  | (s1, .error r) => (s1, .error (some r))
  | (s1, .ok (pa, pbmt)) =>
    if m.scout && pbmt != 0 then (s1, .error none)
    else if s1.xipWaits pa then (if m.scout then s1 else s.hartWaits h pa 1 va, .error none)
    else match (if pbmt = 0 then s1.countMiss h pa true else s1).hartRead h m.priv pa 2 pbmt true false with
    | (t, some bs) => (t, .ok (leNat bs))
    | (t, none) => (t, .error (some (m.exc 1 va)))

/-- The instruction at the pc: its 16 or 32 bits. -/
def State.fetchBits (s : State) (h : Nat) : State × Except (Option Trap) Nat :=
  let pc := (s.hart h).pc
  match s.fetchHalf h pc with
  | (s1, .ok lo) =>
    if lo % 4 ≠ 3 then (s1, .ok lo)
    else match s1.fetchHalf h (pc + 2#64) with
    | (s2, .ok hi) => (s2, .ok (lo + 2 ^ 16 * hi))
    | r => r
  | r => r

/-- R191, R197: hart `h` fetches the instruction at its pc and executes it. In Scout a fetch that would trap, or would wait, stops the run. -/
def State.opFetch (s : State) (h : Nat) : State :=
  match (s.hart h).scout with
  | some c =>
    if ! s.hartLive h || (s.hart h).wfi || c.stopped then s else
    (match s.fetchBits h with
     | (s1, .ok b) => s1.execBits h b
     | (s1, .error _) => (s1.modHart h Hart.scoutStop).mirror h)
  | none =>
    s.instr h [] id (fun s1 =>
      match s1.fetchBits h with
      | (s2, .ok b) => s2.execBits h b
      | (s2, .error (some r)) => s2.accessTrap h r
      | (s2, .error none) => s2)

/-- R197: an access of hart `h`. -/
def State.opMemory (s : State) (h : Nat) (a : HartAccess) (compressed : Bool) : State :=
  match a with
  | .fetch => s.opFetch h
  | a => s.opAccess h a compressed

/-- MEMORY_ACCESS. -/
def execMemoryAccess (h : Fin 4) (access : HartAccess) (compressed : Bool) (s : State) : Host.Outcome State Fault Refusal :=
  .next (s.opMemory h access compressed)

/-! ### The program buffer of the debug module -/

/-- R217: the bits at byte offset `o` of the program buffer. -/
def progBits (prog : List Word) (o : Nat) : Nat :=
  leNat (slice o 4 (prog.flatMap (fun w => leBytes 4 w.toNat)))

/-- R217: the program buffer of 8 words runs on hart `h` in debug mode, from its start up to an ebreak, its end (impebreak) or an
exception; at most `n` instructions. -/
def State.progLoop (h : Nat) : Nat → State → State
  | 0, s => s
  | n + 1, s =>
    let t := s.hart h
    let o := t.pc.toNat
    let b := progBits s.dm.progbuf o
    if t.prog ≠ some false then s
    else if 32 ≤ o ∨ b % 2 ^ 32 = 0x00100073 ∨ b % 2 ^ 16 = 0x9002 then s.modHart h (fun u => { u with prog := none })
    else State.progLoop h n (s.execBits h b)

/-- R217: the program buffer on hart `h`: machine privilege, and pc, privilege and mode of the hart as they were afterwards; whether it ended in an
exception. The pc counts from the start of the buffer (assumption log 8). -/
def State.progRun (s : State) (h : Nat) : State × Bool :=
  let t := s.hart h
  let s1 := State.progLoop h 256 (s.modHart h (fun u => { u with pc := 0#64, priv := 3, virt := false, prog := some false }))
  let bad := decide ((s1.hart h).prog = some true)
  (s1.modHart h (fun u => { u.drainLou with pc := t.pc, priv := t.priv, virt := t.virt, prog := none }), bad)

end Sys2Proof.Machine
end

