-- ==== Sys2Proof/Machine/Debug.lean ====
section
/-! DEFINITION. The debug module (R155, R156, R213, R215, R217 to R220, R243): run control, abstract commands, system bus access and
ndmreset; the registers that the TAP and the module show. Every command comes through the dmi register of the TAP. -/
namespace Sys2Proof.Machine

/-- Change the debug module's own state. -/
def State.modDebug (s : State) (f : DebugState → DebugState) : State := { s with dm := f s.dm }

/-- R156: the debug module is open: the device is not SECURED, or HART_DEBUG is granted. -/
def State.debugOpen (s : State) : Bool := s.fld F.SYSCFG_LIFECYCLE_STATE != 1 || s.flag F.SYSCFG_DEBUG_EN_HART_DEBUG

/-- R71, R217: a DMI operation reaches the module while the fabric is clocked and bank A, which carries the TAP, is inside a window;
after one that failed none does until dmireset (notes/assumptions/74.md). -/
def State.dmi (s : State) (f : State → State) : State :=
  if ! s.fabricRuns || ! s.bankLive 0 || s.dm.dmistat != 0 then s else f (s.modDebug (fun d => { d with ir := 0x11#5 }))

/-- R156: the module refuses a DMI operation itself: dmistat says that it failed. -/
def State.dmiRefused (s : State) : State := { s.modDebug (fun d => { d with dmistat := 2 }) with resp := ⟨true, 0#64⟩ }

/-- Hart `h` can be selected (R215); the selection is kept, and the module is active from then on. -/
def State.dmiHart (s : State) (h : Nat) (f : State → State) : State :=
  s.dmi (fun t =>
    let u := t.modDebug (fun d => { d with hartsel := h, active := true })
    if ! s.debugOpen then t.dmiRefused else if s.visible.contains h then f u else u)

/-- Hart `h` executes or waits, and a halt can reach it: a parked hart too. -/
def State.haltable (s : State) (h : Nat) : Bool :=
  let t := s.hart h
  t.running && ! t.fenced && ! t.debug && decide (s.fld F.PWR_STATE_CUR ≤ 1)

/-- R217: a resume: pc, privilege and virtualisation mode come from dpc and dcsr; MPRV goes below M-mode. -/
def Hart.resume (t : Hart) : Hart :=
  if ! t.debug then t else
  let d := t.csrRaw 0x7B0
  let p := Bits.get d 0 2
  let u := if p = 3 then t else t.putCsr 0x300 17 1 0
  { u with debug := false, pc := t.csrRaw 0x7B1, priv := p, virt := p != 3 && d.toNat.testBit 5, stepping := d.toNat.testBit 2 }

/-- A step under way ends behind an instruction outside the table. -/
def Hart.stepped (t : Hart) (pc : DWord) : Hart :=
  if t.stepping then (t.retired 1 pc).stepEnd else t

/-! ### What the TAP and the module show (Table Harts-12) -/

/-- IDCODE: version 1, part 0x7240, and the manufacturer identity registered for Oroud, which the spec does not state. -/
def idcode : Nat := 2 ^ 28 + 0x7240 * 2 ^ 12 + Config.jtagManufacturer.toNat * 2 + 1

/-- dtmcs: version 1, abits 7, dmistat, idle 1. -/
def State.dtmcs (s : State) : Nat := 1 + 7 * 2 ^ 4 + s.dm.dmistat % 4 * 2 ^ 10 + 1 * 2 ^ 12

/-- The data register that an IR code selects: IDCODE and dtmcs; BYPASS, and every code that is no other, shifts a 0. -/
def State.tapReg (s : State) (ir : Nat) : Nat := if ir = 0x01 then idcode else if ir = 0x10 then s.dtmcs else 0

/-- dmcontrol: the selected hart; hasel and hartreset read 0, and so do the requests that are only written; dmactive. -/
def State.dmcontrol (s : State) : Nat := s.dm.hartsel % 4 * 2 ^ 16 + b2n s.dm.active

/-- dmstatus of the selected hart: version 3, authenticated, hasresethaltreq, impebreak; existence (R215), and its state. -/
def State.dmstatus (s : State) : Nat :=
  let h := s.dm.hartsel
  let t := s.hart h
  let known := s.visible.contains h
  let up := known && t.running && ! t.fenced
  let pair (on : Bool) (lo : Nat) : Nat := if on then 3 * 2 ^ lo else 0
  3 + 2 ^ 5 + b2n s.debugOpen * 2 ^ 7 + pair (up && t.debug) 8 + pair (up && ! t.debug) 10 + pair (known && ! up) 12 + pair (! known) 14 +
    pair (s.dm.resumeAck.testBit h) 16 + pair (s.dm.haveReset.testBit h) 18 + 2 ^ 22

/-- abstractcs: datacount 2, cmderr, never busy between commands, progbufsize 8. -/
def State.abstractcs (s : State) : Nat := 2 + s.dm.cmderr * 2 ^ 8 + 8 * 2 ^ 24

/-- sbcs: sbversion 1, sbasize 40, accesses of 32 and 64 bits. -/
def State.sbcs (s : State) : Nat :=
  4 + 8 + 40 * 2 ^ 5 + s.dm.sberror * 2 ^ 12 + b2n s.dm.sbReadOnData * 2 ^ 15 + b2n s.dm.sbauto * 2 ^ 16 + s.dm.sbaccess % 8 * 2 ^ 17 +
    b2n s.dm.sbReadOnAddr * 2 ^ 20 + 2 ^ 29

/-- A register of the debug module at a DMI address; an option that is absent reads 0. -/
def State.dmiReg (s : State) (a : Nat) : Nat :=
  let half (v : Nat) (k : Nat) : Nat := v / 2 ^ (32 * k) % 2 ^ 32
  if a = 0x04 ∨ a = 0x05 then half s.dm.data.toNat (a - 4)
  else if a = 0x10 then s.dmcontrol
  else if a = 0x11 then s.dmstatus
  else if a = 0x16 then s.abstractcs
  else if 0x20 ≤ a ∧ a ≤ 0x27 then (s.dm.progbuf.getD (a - 0x20) 0#32).toNat
  else if a = 0x38 then s.sbcs
  else if a = 0x39 ∨ a = 0x3A then half s.dm.sbaddress.toNat (a - 0x39)
  else if a = 0x3C ∨ a = 0x3D then half s.dm.sbdata.toNat (a - 0x3C)
  else if a = 0x40 then (List.range 4).foldl (fun m h => m + b2n (s.visible.contains h && (s.hart h).debug) * 2 ^ h) 0
  else 0

/-- R217: cmderr is set. -/
def State.cmdErr (s : State) (e : Nat) : State := s.modDebug (fun d => { d with cmderr := e })

/-- Table Harts-12: the transfer of Access Register on a halted hart: `n` bytes of register `r`. A write narrower than the register
leaves its upper half free. -/
def State.dmTransfer (s : State) (h r n : Nat) (write : Bool) : State :=
  let data := s.dm.data
  let old : DWord := if r < 0x1000 then s.csrRead h r else if r < 0x1020 then s.hx h (r - 0x1000) else (s.hart h).fr (r - 0x1020)
  if ! write then
    s.modDebug (fun d => { d with data := if n = 8 then old else (data &&& 0xFFFFFFFF00000000#64) ||| (old &&& 0xFFFFFFFF#64) })
  else
    let (x, s1) := if n = 8 then (0#64, s) else s.takeFree
    let v := if n = 8 then data else (x &&& 0xFFFFFFFF00000000#64) ||| (data &&& 0xFFFFFFFF#64)
    s1.modHart h (fun t =>
      if 0x1020 ≤ r then t.setF (r - 0x1020) v
      else if 0x1000 ≤ r then t.setX (r - 0x1000) v
      else if (0x7C0 ≤ r ∧ r ≤ 0x7C4) ∨ r = 0x5C2 ∨ r = 0x5C3 then t.vendorSet r v
      else t.csrWrite r v)

/-- R217: an abstract command with its data and, with postexec, the program buffer. cmderr is sticky: 2 not supported, 3 exception, 4 the
hart is not halted. -/
def State.abstractRun (s : State) (h : Nat) (command : Word) : State :=
  let c := command.toNat
  let r := c % 2 ^ 16
  let size := c / 2 ^ 20 % 8
  let transfer := c.testBit 17
  let write := c.testBit 16
  if s.dm.cmderr ≠ 0 then s
  else if c / 2 ^ 24 ≠ 0 ∨ c.testBit 19 ∨ (transfer ∧ size ≠ 2 ∧ size ≠ 3) then s.cmdErr 2
  else if ! (s.hart h).debug then s.cmdErr 4
  else if transfer && decide (0x1040 ≤ r) then s.cmdErr 2
  else if transfer && decide (r < 0x1000) && (! csrPresent r || (write && decide (0xC00 ≤ r))) then s.cmdErr 3
  else
    let s1 := if transfer then s.dmTransfer h r (if size = 3 then 8 else 4) write else s
    if ! c.testBit 18 then s1 else
    (match s1.progRun h with
     | (t, true) => t.cmdErr 3
     | (t, false) => t)

/-- R217, R218: an abstract command for hart `h`; `clear` writes ones to cmderr first. -/
def State.opAbstract (s : State) (h : Nat) (command : Word) (data : DWord) (prog : List Word) (clear : Bool) : State :=
  s.dmiHart h (fun t =>
    let t1 := t.modDebug (fun d => { d with
      cmderr := if clear then 0 else d.cmderr, data := data, progbuf := (prog ++ d.progbuf.drop prog.length).take 8 })
    (t1.abstractRun h command).mirror h)

/-- ABSTRACT_COMMAND. -/
def execAbstractCommand (h : Fin 4) (command : Word) (data : DWord) (prog : List Word) (clear : Bool) (s : State) :
    Host.Outcome State Fault Refusal :=
  .next (s.opAbstract h command data prog clear)

/-- sberror is set. -/
def State.sbErr (s : State) (e : Nat) : State := s.modDebug (fun d => { d with sberror := e })

/-- R156: what `n` bytes at `a` the debug module may reach in SECURED without a grant: all inside SYSCFG 0x048 or 0x080 to 0x17F. -/
def dmReaches (a n : Nat) : Bool :=
  let o := a - P.SYSCFG
  decide (P.SYSCFG ≤ a) && (decide (0x048 ≤ o ∧ o + n ≤ 0x04C) || decide (0x080 ≤ o ∧ o + n ≤ 0x180))

/-- R217: the system bus access at sbaddress: sberror 4 for a size not supported, 3 misaligned, 2 a bus error. -/
def State.sbRun (s : State) (size : Nat) (op : SbOp) (auto : Bool) : State :=
  let a := s.dm.sbaddress.toNat
  let n := 2 ^ size
  let z : Size := if size = 3 then .d else .w
  let q : Req := ⟨15, true⟩
  let next (t : State) : State := if auto then t.modDebug (fun d => { d with sbaddress := d.sbaddress + BitVec.ofNat 40 n }) else t
  if s.dm.sberror ≠ 0 then s
  else if size ≠ 2 ∧ size ≠ 3 then s.sbErr 4
  else if a % n ≠ 0 then s.sbErr 3
  else match op with
  | .write v =>
    let s1 := s.modDebug (fun d => { d with sbdata := if size = 3 then v else (d.sbdata &&& 0xFFFFFFFF00000000#64) ||| (v &&& 0xFFFFFFFF#64) })
    (match s1.busWrite q a z v with
     | (t, .ok) => next t
     | (t, _) => t.sbErr 2)
  | .read =>
    if s.xipBusy a then
      let w : XipLoad := { req := q, addr := a, size := z, origin := .systemBus }
      (if s.boot.xip.any (fun x => x.origin == .systemBus) then s else { s with boot := { s.boot with xip := s.boot.xip ++ [w] } } : State).xipHeld
    else
    match s.busRead q a z with
    | (t, .ok, v) => next (t.modDebug (fun d => { d with
        sbdata := if size = 3 then v else (d.sbdata &&& 0xFFFFFFFF00000000#64) ||| (v &&& 0xFFFFFFFF#64) }))
    | (t, _, _) => t.sbErr 2

/-- R156: DMI addresses of the system bus registers, which stay open for the requests of a debug unlock. -/
def dmiSystemBus (a : Nat) : Bool := decide (0x38 ≤ a ∧ a ≤ 0x3D)

/-- R156: the system bus request of `n` bytes that an access of a DMI register would start is one that the module refuses. -/
def State.sbBarred (s : State) (a n : Nat) : Bool := ! s.debugOpen && ! dmReaches a n

/-- R156, R217: a system bus access; `addr` writes sbaddress first, `clear` writes ones to sberror first. -/
def State.opSystemBus (s : State) (addr : Option (BitVec 40)) (size : Nat) (op : SbOp) (auto clear : Bool) : State :=
  let a := addr.getD s.dm.sbaddress
  let reads := decide (op = .read)
  if s.sbBarred a.toNat (2 ^ size) then s.dmi State.dmiRefused
  else s.dmi (fun t => (t.modDebug (fun d => { d with
      sbaddress := a, sberror := if clear then 0 else d.sberror,
      sbaccess := size, sbauto := auto, sbReadOnAddr := reads && addr.isSome, sbReadOnData := reads && addr.isNone,
      active := true })).sbRun size op auto)

/-- SYSTEM_BUS_ACCESS. -/
def execSystemBusAccess (addr : Option (BitVec 40)) (size : Fin 8) (op : SbOp) (auto clear : Bool) (s : State) :
    Host.Outcome State Fault Refusal :=
  .next (s.opSystemBus addr size op auto clear)

/-- R217, R218, R234: haltreq: the hart halts, and a Scout run is discarded first. -/
def State.dmHalt (s : State) (h : Nat) : State :=
  if s.haltable h then ((s.abandonLoads h).modHart h (fun u => u.scoutRestore.halt 3)).mirror h else s

/-- R217, R218: resumereq clears the acknowledgement of the hart; a halted hart resumes and acknowledges. -/
def State.dmResume (s : State) (h : Nat) : State :=
  ((s.modHart h Hart.resume).mirror h).modDebug (fun d => { d with
    resumeAck := if (s.hart h).debug then d.resumeAck ||| 2 ^ h else clearBits d.resumeAck (2 ^ h) })

/-- ackhavereset. -/
def State.dmAckReset (s : State) (h : Nat) : State := s.modDebug (fun d => { d with haveReset := clearBits d.haveReset (2 ^ h) })

/-- setresethaltreq and clrresethaltreq. -/
def State.dmResetHalt (s : State) (h : Nat) (on : Bool) : State := (s.modHart h (fun u => { u with resetHalt := on })).mirror h

/-- dmactive = 0: the module takes its reset state, and every request for a halt on reset goes; which harts have been reset stands. -/
def State.dmOff (s : State) : State :=
  let t := s.modDebug (fun d => { DebugState.reset with ir := d.ir, haveReset := d.haveReset })
  { t with harts := t.harts.map (fun h => { h with resetHalt := false }) }

/-- A write of dmcontrol: while dmactive is 0 nothing else of it is written; haltreq goes before resumereq; hartsel beyond the harts that
exist takes no request (R215). -/
def State.dmControl (s : State) (v : Word) : State :=
  let bit (k : Nat) : Bool := v.toNat.testBit k
  let h := v.toNat / 2 ^ 16 % 4
  if ! bit 0 then s.dmOff
  else if ! s.dm.active then s.modDebug (fun d => { d with active := true })
  else
    let s1 := s.modDebug (fun d => { d with hartsel := h })
    let s2 := if ! s.visible.contains h then s1 else
      let t1 := if bit 31 then s1.dmHalt h else if bit 30 then s1.dmResume h else s1
      let t2 := t1.when (bit 28) (fun t => t.dmAckReset h)
      let t3 := t2.when (bit 2) (fun t => t.dmResetHalt h false)
      t3.when (bit 3) (fun t => t.dmResetHalt h true)
    s2.when (bit 1) (fun t => t.startReset 8 false)

/-- Bits [32 k + 31 : 32 k] of a double word replaced. -/
def putHalf (w : Nat) (k : Nat) (v : Word) : Nat := if k = 0 then w / 2 ^ 32 * 2 ^ 32 + v.toNat else w % 2 ^ 32 + v.toNat * 2 ^ 32

/-- A write of a register of the active module (Table Harts-12): a register that is absent ignores it. Requests on the system bus follow
sbaddress0 with sbreadonaddr, and sbdata0. -/
def State.dmiStore (s : State) (a : Nat) (v : Word) : State :=
  let d := s.dm
  let n := 2 ^ d.sbaccess
  if a = 0x04 ∨ a = 0x05 then s.modDebug (fun d => { d with data := BitVec.ofNat 64 (putHalf d.data.toNat (a - 4) v) })
  else if a = 0x16 then s.modDebug (fun d => { d with cmderr := clearBits d.cmderr (v.toNat / 2 ^ 8 % 8) })
  else if a = 0x17 then
    (if s.visible.contains d.hartsel then (s.abstractRun d.hartsel v).mirror d.hartsel else if d.cmderr = 0 then s.cmdErr 4 else s)
  else if 0x20 ≤ a ∧ a ≤ 0x27 then s.modDebug (fun d => { d with progbuf := d.progbuf.set (a - 0x20) v })
  else if a = 0x38 then s.modDebug (fun d => { d with
      sberror := clearBits d.sberror (v.toNat / 2 ^ 12 % 8), sbReadOnData := v.toNat.testBit 15, sbauto := v.toNat.testBit 16,
      sbaccess := v.toNat / 2 ^ 17 % 8, sbReadOnAddr := v.toNat.testBit 20 })
  else if a = 0x39 then
    let x := BitVec.ofNat 40 (putHalf d.sbaddress.toNat 0 v)
    let s1 := s.modDebug (fun d => { d with sbaddress := x })
    (if ! d.sbReadOnAddr then s1 else if s.sbBarred x.toNat n then s1.dmiRefused else s1.sbRun d.sbaccess .read d.sbauto)
  else if a = 0x3A then s.modDebug (fun d => { d with sbaddress := BitVec.ofNat 40 (putHalf d.sbaddress.toNat 1 v) })
  else if a = 0x3C then
    (if s.sbBarred d.sbaddress.toNat n then s.dmiRefused
     else s.sbRun d.sbaccess (.write (BitVec.ofNat 64 (putHalf d.sbdata.toNat 0 v))) d.sbauto)
  else if a = 0x3D then s.modDebug (fun d => { d with sbdata := BitVec.ofNat 64 (putHalf d.sbdata.toNat 1 v) })
  else s

/-- A DMI write: dmcontrol, or a register of a module that is active. A module that is closed takes those of the system bus alone (R156). -/
def State.dmiWrite (s : State) (a : Nat) (v : Word) : State :=
  if ! s.debugOpen && ! dmiSystemBus a then s.dmiRefused
  else { (if a = 0x10 then s.dmControl v else if s.dm.active then s.dmiStore a v else s) with resp := ⟨false, 0#64⟩ }

/-- A DMI read answers; with sbreadondata a read of sbdata0 starts the next request. A module that is closed answers for the system bus
alone (R156). -/
def State.dmiAnswer (s : State) (a : Nat) : State :=
  if ! s.debugOpen && ! dmiSystemBus a then s.dmiRefused else
  let next := decide (a = 0x3C) && s.dm.sbReadOnData
  if next && s.sbBarred s.dm.sbaddress.toNat (2 ^ s.dm.sbaccess) then s.dmiRefused else
  { (s.when next (fun t => t.sbRun t.dm.sbaccess .read t.dm.sbauto)) with resp := ⟨false, BitVec.ofNat 64 (s.dmiReg a)⟩ }

/-- R213, R217, R218, R234, R243: run control of hart `h`, and reads and writes of what the module shows. A hart that does not exist
(R215) takes no request, and dmstatus says so. -/
def State.opDebug (s : State) (h : Nat) (r : DebugRequest) : State :=
  match r with
  | .halt => s.dmiHart h (fun t => t.dmHalt h)
  | .resume => s.dmiHart h (fun t => t.dmResume h)
  | .ackHaveReset => s.dmiHart h (fun t => t.dmAckReset h)
  | .setResetHalt on => s.dmiHart h (fun t => t.dmResetHalt h on)
  | .stepped pc => s.instr h [] id (fun t => t.modHart h (fun u => u.stepped pc))
  | .execute => s.instr h [] id id
  | .ebreak _ => s.instr h [] Hart.scoutStop (fun t => t.modHart h Hart.ebreak)
  | .readDmi a => s.dmi (fun t => (t.when s.debugOpen (fun u => u.modDebug (fun d => { d with hartsel := h }))).dmiAnswer a.toNat)
  | .writeDmi a v => s.dmi (fun t => t.dmiWrite a.toNat v)
  | .readTap ir =>
    if s.bankLive 0 then { s with dm := { s.dm with ir := ir }, resp := ⟨false, BitVec.ofNat 64 (s.tapReg ir.toNat)⟩ } else s
  | .dmiReset => if s.bankLive 0 then s.modDebug (fun d => { d with ir := 0x10#5, dmistat := 0 }) else s

/-- DEBUG_HALT. -/
def execDebugHalt (h : Fin 4) (request : DebugRequest) (s : State) : Host.Outcome State Fault Refusal := .next (s.opDebug h request)

/-- R217, R220: ndmreset: a system reset with SYSCFG_RESET_CAUSE bit 8. -/
def State.opNdmreset (s : State) : State :=
  s.dmi (fun t => if s.debugOpen then (t.modDebug (fun d => { d with active := true })).startReset 8 false else t.dmiRefused)

/-- NDMRESET. -/
def execNdmreset (s : State) : Host.Outcome State Fault Refusal := .next s.opNdmreset

end Sys2Proof.Machine
end

