-- ==== Sys2Proof/Machine/Instances.lean ====
section
/-! DEFINITION. The manager's commands (R438 to R449): one write of HEDDLE_MGMT_CMD each, and the end of a reset. -/
namespace Sys2Proof.Machine

/-- CREATE of instance `target`. -/
def execCreate (q : Req) (target : BitVec 13) (s : State) : Host.Outcome State Fault Refusal := .next (s.mgmtWrite q (mgmtWord 1 false false target))

/-- ASSIGN of instance `target`. -/
def execAssign (q : Req) (target : BitVec 13) (s : State) : Host.Outcome State Fault Refusal := .next (s.mgmtWrite q (mgmtWord 2 false false target))

/-- COMMIT_CHANNEL of channel `target`. -/
def execCommitChannel (q : Req) (target : BitVec 13) (flush : Bool) (s : State) : Host.Outcome State Fault Refusal :=
  .next (s.mgmtWrite q (mgmtWord 3 false flush target))

/-- COMMIT_QUEUE of queue `target`. -/
def execCommitQueue (q : Req) (target : BitVec 13) (s : State) : Host.Outcome State Fault Refusal := .next (s.mgmtWrite q (mgmtWord 3 true false target))

/-- RESET_DRAIN of instance `target`. -/
def execResetDrain (q : Req) (target : BitVec 13) (s : State) : Host.Outcome State Fault Refusal := .next (s.mgmtWrite q (mgmtWord 4 false false target))

/-- RESET_SQUASH of instance `target`. -/
def execResetSquash (q : Req) (target : BitVec 13) (s : State) : Host.Outcome State Fault Refusal := .next (s.mgmtWrite q (mgmtWord 5 false false target))

/-- DESTROY of instance `target`. -/
def execDestroy (q : Req) (target : BitVec 13) (s : State) : Host.Outcome State Fault Refusal := .next (s.mgmtWrite q (mgmtWord 6 false false target))

/-- RESET_DONE of instance `inst`, `us` microseconds after its command. -/
def execResetDone (inst : Fin 32) (us : BitVec 24) (s : State) : Host.Outcome State Fault Refusal := .next (s.opResetDone inst.val us.toNat)

end Sys2Proof.Machine
end

