-- ==== Sys2Proof/Machine/Pages.lean ====
section
/-! DEFINITION. The commands of the register pages (R38 to R63) and the end of a live access of the Tether port (R526, R527). -/
namespace Sys2Proof.Machine

/-- An address aligned to the size of its access. -/
def alignTo (z : Size) (a : Nat) : Nat := a / sizeLen z * sizeLen z

/-- A write from NI `q.ni` to the register region; an address outside it is no register write. -/
def State.opRegisterWrite (s : State) (q : Req) (a : Nat) (z : Size) (v : DWord) : State :=
  if 0x10000000 ≤ a ∧ a < 0x20000000 then (s.busWrite q (alignTo z a) z v).1 else s

/-- REGISTER_WRITE. -/
def execRegisterWrite (q : Req) (addr : BitVec 40) (size : Size) (v : DWord) (s : State) : Host.Outcome State Fault Refusal :=
  .next (s.opRegisterWrite q addr.toNat size v)

/-- R48: an access that ends in a bus error: to no page of the region, or to a page marked M without machine privilege. Any other is not
this event. -/
def State.opBusError (s : State) (q : Req) (a : Nat) : State :=
  if decide (0x10000000 ≤ a ∧ a < 0x20000000) && ! inDoorbell a && (! pageListed a || (pageMachine a && ! q.priv)) then s.respond true 0#64 else s

/-- REGISTER_BUS_ERROR. -/
def execRegisterBusError (q : Req) (addr : BitVec 40) (s : State) : Host.Outcome State Fault Refusal := .next (s.opBusError q addr.toNat)

/-- A read from the register region. -/
def State.opReadClear (s : State) (q : Req) (a : Nat) (z : Size) : State :=
  if 0x10000000 ≤ a ∧ a < 0x20000000 then (s.busRead q (alignTo z a) z).1 else s

/-- READ_CLEAR (R21). -/
def execReadClear (q : Req) (addr : BitVec 40) (size : Size) (s : State) : Host.Outcome State Fault Refusal :=
  .next (s.opReadClear q addr.toNat size)

/-- The base of the page with index `i` (R162). -/
def pageAt (i : Fin 70) : Nat := (pageOfIndex i).getD 0

/-- A write to the header register at offset `o` of page `i`. -/
def State.headerWrite (s : State) (q : Req) (i : Fin 70) (o : Nat) (v : DWord) : State := s.regWrite q (pageAt i + o) .w v

/-- EVT_SET (R41). -/
def execEvtSet (q : Req) (page : Fin 70) (v : Word) (s : State) : Host.Outcome State Fault Refusal :=
  .next (s.headerWrite q page 0x1C (v.zeroExtend 64))

/-- EVT_RAW_CLEAR (R20, R40, R45). -/
def execEvtRawClear (q : Req) (page : Fin 70) (v : Word) (s : State) : Host.Outcome State Fault Refusal :=
  .next (s.headerWrite q page 0x10 (v.zeroExtend 64))

/-- PAGE_ENABLE (R50): a write of PAGE_CTRL with ENABLE = `on`. -/
def execPageEnable (q : Req) (page : Fin 70) (on : Bool) (s : State) : Host.Outcome State Fault Refusal :=
  .next (s.headerWrite q page 0x08 (BitVec.ofNat 64 (b2n on)))

/-- BLOCK_ENABLED (R50). -/
def execBlockEnabled (page : Fin 70) (s : State) : Host.Outcome State Fault Refusal := .next (s.opBlockEnabled (pageAt page))

/-- ENABLE of page `i` as it stands. -/
def State.enableOf (s : State) (i : Fin 70) : Nat := s.fld (F.PAGE_CTRL_ENABLE (pageAt i))

/-- SOFT_RESET (R51): a write of PAGE_CTRL with SOFT_RESET = 1 and ENABLE as it stands. -/
def execSoftReset (q : Req) (page : Fin 70) (s : State) : Host.Outcome State Fault Refusal :=
  .next (s.headerWrite q page 0x08 (BitVec.ofNat 64 (s.enableOf page + 2)))

/-- SOFT_RESET_COMPLETE (R51, R59). -/
def execSoftResetComplete (page : Fin 70) (s : State) : Host.Outcome State Fault Refusal := .next (s.opSoftResetDone (pageAt page))

/-- PAGE_LOCK (R52, R60, R162): through PAGE_CTRL with ENABLE as it stands, or through PITON_PAGE_LOCK_n. -/
def execPageLock (q : Req) (page : Fin 70) (piton : Bool) (s : State) : Host.Outcome State Fault Refusal :=
  .next (if piton then s.regWrite q (R.PITON_PAGE_LOCK (page.val / 32)) .w (BitVec.ofNat 64 (2 ^ (page.val % 32)))
    else s.headerWrite q page 0x08 (BitVec.ofNat 64 (s.enableOf page + 4)))

/-- The answer a live access is given. -/
def liveResp : LoomEnd → Nat
  | .ok => 0 | .busError => 1 | .poison => 2 | .timeout => 3

/-- R526: the access itself, through NI_15 with machine privilege. -/
def State.livePerform (s : State) (x : LiveAccess) : State × LoomEnd × BitVec 32 :=
  let q : Req := ⟨15, true⟩
  if x.write then let (t, e) := s.busWrite q x.addr .w (x.value.zeroExtend 64); (t, e, 0#32)
  else let (t, e, v) := s.busRead q x.addr .w; (t, e, v.truncate 32)

/-- R317, R526, R527: the oldest live access ends. It does not issue in STOP; `timeout` says that no answer came within 100 µs, and
whether its target acted all the same is free. -/
def State.opLiveDone (s : State) (target : Nat) (timeout : Bool) : State :=
  match s.tether.queue with
  | [] => s
  | x :: rest =>
    let s1 := s.modTether (fun t => { t with queue := rest })
    if s.liveRefused x then s1.liveEnd x 4 0#32
    else if ! s.fabricRuns then s
    else if s.xipBusy x.addr && ! timeout then s.xipHeld
    else if timeout then
      let (v, s2) := s1.takeFree
      let s3 := if v.toNat.testBit 0 then (s2.livePerform x).1 else s2
      (s3.loomTimeout 15 target x.addr).liveEnd x 3 0#32
    else
      let (s2, e, v) := s1.livePerform x
      s2.liveEnd x (liveResp e) v

/-- LIVE_ACCESS_DONE. -/
def execLiveAccessDone (target : Fin 16) (timeout : Bool) (s : State) : Host.Outcome State Fault Refusal := .next (s.opLiveDone target timeout)

end Sys2Proof.Machine
end

