-- ==== Sys2Proof/Machine/Tether.lean ====
section
/-! DEFINITION. The commands of the Tether port (R519 to R534), and BOOT_GO (R146). LIVE_ACCESS_DONE stands with the routing of
accesses. -/
namespace Sys2Proof.Machine

/-- BOOT_GO (R146): the partner sets REQ bit 2. -/
def execBootGo (s : State) : Host.Outcome State Fault Refusal := .next (if s.tetherHears then s.tetherReq 4 else s)

/-- TETHER_FRAME (R520, R521): the bits MOSI carried between a fall and the next rise of CS_N. -/
def execTetherFrame (bits : List Bool) (s : State) : Host.Outcome State Fault Refusal := .next (s.tetherFrame bits)

/-- TETHER_CRC_COMMIT (R522): a CRC write frame of whole words at `index` with this CRC byte. -/
def execTetherCrcCommit (index : Byte) (words : List (BitVec 32)) (crc : Byte) (s : State) : Host.Outcome State Fault Refusal :=
  .next (s.tetherFrame (crcFrame index.toNat (words.map (fun w => w.toNat)) crc.toNat))

/-- TETHER_ABORT (R523): a frame ended with the fault of reason 1 to 6 (Table Tether-2). -/
def execTetherAbort (reason : Fin 6) (s : State) : Host.Outcome State Fault Refusal :=
  .next (if s.tetherHears then s.tetherAbort (reason.val + 1) else s)

/-- LIVE_LO_COMMIT (R526). -/
def execLiveLoCommit (v : BitVec 32) (s : State) : Host.Outcome State Fault Refusal :=
  .next (if s.tetherHears then s.liveLo v.toNat else s)

/-- LIVE_STREAM (R526). -/
def execLiveStream (v : BitVec 32) (s : State) : Host.Outcome State Fault Refusal :=
  .next (if s.tetherHears then s.liveStream v.toNat else s)

/-- REQ (R528). -/
def execReq (v : BitVec 16) (s : State) : Host.Outcome State Fault Refusal := .next (if s.tetherHears then s.tetherReq v.toNat else s)

/-- ATTN_SET (R529): a write to TETHER_ATTN_SET. -/
def execAttnSet (q : Req) (v : BitVec 16) (s : State) : Host.Outcome State Fault Refusal :=
  .next (s.gateWrite q R.TETHER_ATTN_SET .w (v.zeroExtend 64) (fun t => t.opAttnSet q.ni.val (v.zeroExtend 64)))

/-- TETHER_KICK (R531). -/
def execTetherKick (v : BitVec 32) (s : State) : Host.Outcome State Fault Refusal :=
  .next (if s.tetherHears then s.tetherKick v.toNat else s)

/-- PWDG_EXPIRY (R531). -/
def execPwdgExpiry (s : State) : Host.Outcome State Fault Refusal := .next s.pwdgExpire

end Sys2Proof.Machine
end

