-- ==== Sys2Proof/Machine/Dispatch.lean ====
section
/-! DEFINITION. One arm per command: the command's meaning. -/
namespace Sys2Proof.Machine

def exec (i : Instr) (s : State) : Host.Outcome State Fault Refusal :=
  match i with
  | .registerWrite q addr size v => Sys2Proof.Machine.execRegisterWrite q addr size v s
  | .registerBusError q addr => Sys2Proof.Machine.execRegisterBusError q addr s
  | .readClear q addr size => Sys2Proof.Machine.execReadClear q addr size s
  | .evtSet q page v => Sys2Proof.Machine.execEvtSet q page v s
  | .evtRawClear q page v => Sys2Proof.Machine.execEvtRawClear q page v s
  | .pageEnable q page on => Sys2Proof.Machine.execPageEnable q page on s
  | .blockEnabled page => Sys2Proof.Machine.execBlockEnabled page s
  | .softReset q page => Sys2Proof.Machine.execSoftReset q page s
  | .softResetComplete page => Sys2Proof.Machine.execSoftResetComplete page s
  | .pageLock q page piton => Sys2Proof.Machine.execPageLock q page piton s
  | .porstNRelease guard bootsel => Sys2Proof.Machine.execPorstNRelease guard bootsel s
  | .strapLatch guard2 bootsel2 guard3 bootsel3 => Sys2Proof.Machine.execStrapLatch guard2 bootsel2 guard3 bootsel3 s
  | .porstNPulse ns => Sys2Proof.Machine.execPorstNPulse ns s
  | .rstoutNRelease => Sys2Proof.Machine.execRstoutNRelease s
  | .bankWindowExit bank => Sys2Proof.Machine.execBankWindowExit bank s
  | .bankWindowReturn bank v33 => Sys2Proof.Machine.execBankWindowReturn bank v33 s
  | .uvloRise => Sys2Proof.Machine.execUvloRise s
  | .uvloFall vbat => Sys2Proof.Machine.execUvloFall vbat s
  | .aonLoss => Sys2Proof.Machine.execAonLoss s
  | .pfailAssert => Sys2Proof.Machine.execPfailAssert s
  | .pfailClear => Sys2Proof.Machine.execPfailClear s
  | .graceEnd => Sys2Proof.Machine.execGraceEnd s
  | .haltedEntry => Sys2Proof.Machine.execHaltedEntry s
  | .haltedRestart => Sys2Proof.Machine.execHaltedRestart s
  | .pfailArmed => Sys2Proof.Machine.execPfailArmed s
  | .runPointChange q run => Sys2Proof.Machine.execRunPointChange q run s
  | .oppointDone => Sys2Proof.Machine.execOppointDone s
  | .idleRequest q idle => Sys2Proof.Machine.execIdleRequest q idle s
  | .dozeEntry => Sys2Proof.Machine.execDozeEntry s
  | .dozeWake => Sys2Proof.Machine.execDozeWake s
  | .stopEntry => Sys2Proof.Machine.execStopEntry s
  | .stopWake cs => Sys2Proof.Machine.execStopWake cs s
  | .bivouacEntry => Sys2Proof.Machine.execBivouacEntry s
  | .bivouacWake => Sys2Proof.Machine.execBivouacWake s
  | .wakePin n level => Sys2Proof.Machine.execWakePin n level s
  | .thermHot tj => Sys2Proof.Machine.execThermHot tj s
  | .thermTrip tj => Sys2Proof.Machine.execThermTrip tj s
  | .outputLimit v18 on => Sys2Proof.Machine.execOutputLimit v18 on s
  | .snapCommit q pages => Sys2Proof.Machine.execSnapCommit q pages s
  | .snapDone => Sys2Proof.Machine.execSnapDone s
  | .snapInvalidate q => Sys2Proof.Machine.execSnapInvalidate q s
  | .lseLoss back => Sys2Proof.Machine.execLseLoss back s
  | .rtcAlarm => Sys2Proof.Machine.execRtcAlarm s
  | .rtcPeriodEvent => Sys2Proof.Machine.execRtcPeriodEvent s
  | .clkMeasStart q sel => Sys2Proof.Machine.execClkMeasStart q sel s
  | .measDone count => Sys2Proof.Machine.execMeasDone count s
  | .systemReset => Sys2Proof.Machine.execSystemReset s
  | .resetReq q => Sys2Proof.Machine.execResetReq q s
  | .firstStageFlash id err us => Sys2Proof.Machine.execFirstStageFlash id err us s
  | .handOver => Sys2Proof.Machine.execHandOver s
  | .bootFail => Sys2Proof.Machine.execBootFail s
  | .retryWaitEnd => Sys2Proof.Machine.execRetryWaitEnd s
  | .loaderFlow answers err us => Sys2Proof.Machine.execLoaderFlow answers err us s
  | .hartPark h => Sys2Proof.Machine.execHartPark h s
  | .hartRelease h => Sys2Proof.Machine.execHartRelease h s
  | .snapshotResume => Sys2Proof.Machine.execSnapshotResume s
  | .recoveryImage chunk finish flash err us => Sys2Proof.Machine.execRecoveryImage chunk finish flash err us s
  | .getState => Sys2Proof.Machine.execGetState s
  | .abort => Sys2Proof.Machine.execAbort s
  | .recoveryDetach => Sys2Proof.Machine.execRecoveryDetach s
  | .bootGo => Sys2Proof.Machine.execBootGo s
  | .ospiCmdGo q op addrEn addr4 write poll dummy => Sys2Proof.Machine.execOspiCmdGo q op addrEn addr4 write poll dummy s
  | .ospiCmdDone answer status erased => Sys2Proof.Machine.execOspiCmdDone answer status erased s
  | .ospiPollTimeout answer status erased => Sys2Proof.Machine.execOspiPollTimeout answer status erased s
  | .xipLoad q off size late => Sys2Proof.Machine.execXipLoad q off size late s
  | .ospiResetPulse q => Sys2Proof.Machine.execOspiResetPulse q s
  | .ospiItem program polled => Sys2Proof.Machine.execOspiItem program polled s
  | .secure q => Sys2Proof.Machine.execSecure q s
  | .rma q => Sys2Proof.Machine.execRma q s
  | .challenge q scope => Sys2Proof.Machine.execChallenge q scope s
  | .challengeReady => Sys2Proof.Machine.execChallengeReady s
  | .submit q scope => Sys2Proof.Machine.execSubmit q scope s
  | .referenceEvent dt level hold => Sys2Proof.Machine.execReferenceEvent dt level hold s
  | .reedHoldover dt => Sys2Proof.Machine.execReedHoldover dt s
  | .holdLeftTick dt => Sys2Proof.Machine.execHoldLeftTick dt s
  | .encCount dt step hold => Sys2Proof.Machine.execEncCount dt step hold s
  | .encIndex dt hold => Sys2Proof.Machine.execEncIndex dt hold s
  | .reedSrcChange q src => Sys2Proof.Machine.execReedSrcChange q src s
  | .reedEnable => Sys2Proof.Machine.execReedEnable s
  | .angleZeroCrossing dt => Sys2Proof.Machine.execAngleZeroCrossing dt s
  | .slotFire dt n => Sys2Proof.Machine.execSlotFire dt n s
  | .combTrigger dt => Sys2Proof.Machine.execCombTrigger dt s
  | .ldivu h rd rs1 rs2 => Sys2Proof.Machine.execLdivu h rd rs1 rs2 s
  | .isqrt h rd rs1 rs2 => Sys2Proof.Machine.execIsqrt h rd rs1 rs2 s
  | .frcp h rd rs1 rs2 => Sys2Proof.Machine.execFrcp h rd rs1 rs2 s
  | .flog2 h rd rs1 rs2 => Sys2Proof.Machine.execFlog2 h rd rs1 rs2 s
  | .fexp2 h rd rs1 rs2 => Sys2Proof.Machine.execFexp2 h rd rs1 rs2 s
  | .lmacu h rd rs1 rs2 => Sys2Proof.Machine.execLmacu h rd rs1 rs2 s
  | .lmacs h rd rs1 rs2 => Sys2Proof.Machine.execLmacs h rd rs1 rs2 s
  | .laccWr h rd rs1 rs2 => Sys2Proof.Machine.execLaccWr h rd rs1 rs2 s
  | .laccRdlo h rd rs1 rs2 => Sys2Proof.Machine.execLaccRdlo h rd rs1 rs2 s
  | .laccRdhi h rd rs1 rs2 => Sys2Proof.Machine.execLaccRdhi h rd rs1 rs2 s
  | .crc32c h rd rs1 rs2 => Sys2Proof.Machine.execCrc32c h rd rs1 rs2 s
  | .lbar h rd rs1 rs2 => Sys2Proof.Machine.execLbar h rd rs1 rs2 s
  | .longOpComplete h => Sys2Proof.Machine.execLongOpComplete h s
  | .longOpFault h => Sys2Proof.Machine.execLongOpFault h s
  | .trapEntry h e => Sys2Proof.Machine.execTrapEntry h e s
  | .xret h k => Sys2Proof.Machine.execXret h k s
  | .vendorCsrWrite h csr op src rd => Sys2Proof.Machine.execVendorCsrWrite h csr op src rd s
  | .settlingEnd h pc => Sys2Proof.Machine.execSettlingEnd h pc s
  | .wfi h => Sys2Proof.Machine.execWfi h s
  | .cboClean h rs1 => Sys2Proof.Machine.execCboClean h rs1 s
  | .cboFlush h rs1 => Sys2Proof.Machine.execCboFlush h rs1 s
  | .cboInval h rs1 => Sys2Proof.Machine.execCboInval h rs1 s
  | .cboZero h rs1 => Sys2Proof.Machine.execCboZero h rs1 s
  | .sfenceVma h k rs1 rs2 => Sys2Proof.Machine.execSfenceVma h k rs1 rs2 s
  | .fence h pred succ => Sys2Proof.Machine.execFence h pred succ s
  | .fenceI h => Sys2Proof.Machine.execFenceI h s
  | .memoryAccess h access compressed => Sys2Proof.Machine.execMemoryAccess h access compressed s
  | .scoutEntry h load compressed => Sys2Proof.Machine.execScoutEntry h load compressed s
  | .scoutLimit h cycles => Sys2Proof.Machine.execScoutLimit h cycles s
  | .scoutEnd h k => Sys2Proof.Machine.execScoutEnd h k s
  | .counterWrap h n => Sys2Proof.Machine.execCounterWrap h n s
  | .debugHalt h request => Sys2Proof.Machine.execDebugHalt h request s
  | .abstractCommand h command data prog clear => Sys2Proof.Machine.execAbstractCommand h command data prog clear s
  | .systemBusAccess addr size op auto clear => Sys2Proof.Machine.execSystemBusAccess addr size op auto clear s
  | .ndmreset => Sys2Proof.Machine.execNdmreset s
  | .lockstepCompare pair addr differ => Sys2Proof.Machine.execLockstepCompare pair addr differ s
  | .cleanAll q part => Sys2Proof.Machine.execCleanAll q part s
  | .flushWays q part => Sys2Proof.Machine.execFlushWays q part s
  | .maintDone => Sys2Proof.Machine.execMaintDone s
  | .snoop kind line except => Sys2Proof.Machine.execSnoop kind line except s
  | .backInvalidation line => Sys2Proof.Machine.execBackInvalidation line s
  | .demandEccError array unit addr check up => Sys2Proof.Machine.execDemandEccError array unit addr check up s
  | .l3Scrub slice hit word up => Sys2Proof.Machine.execL3Scrub slice hit word up s
  | .sramScrub hit word up => Sys2Proof.Machine.execSramScrub hit word up s
  | .dmcScrub channel word up => Sys2Proof.Machine.execDmcScrub channel word up s
  | .dmcTempReading dieA dieB => Sys2Proof.Machine.execDmcTempReading dieA dieB s
  | .refresh channel => Sys2Proof.Machine.execRefresh channel s
  | .dramRequest step => Sys2Proof.Machine.execDramRequest step s
  | .mramWrite word mask data => Sys2Proof.Machine.execMramWrite word mask data s
  | .mramWriteDone bank => Sys2Proof.Machine.execMramWriteDone bank s
  | .loomRequest k => Sys2Proof.Machine.execLoomRequest k s
  | .loomResponse ini txid status halves li lt => Sys2Proof.Machine.execLoomResponse ini txid status halves li lt s
  | .specTokenReturn hart target => Sys2Proof.Machine.execSpecTokenReturn hart target s
  | .pickStart pick => Sys2Proof.Machine.execPickStart pick s
  | .homeCheck ini txid => Sys2Proof.Machine.execHomeCheck ini txid s
  | .lateReturn ini txid => Sys2Proof.Machine.execLateReturn ini txid s
  | .aging router plane ini txid => Sys2Proof.Machine.execAging router plane ini txid s
  | .commit q => Sys2Proof.Machine.execCommit q s
  | .commitSwap => Sys2Proof.Machine.execCommitSwap s
  | .roundBoundary => Sys2Proof.Machine.execRoundBoundary s
  | .targetAbandon ini txid => Sys2Proof.Machine.execTargetAbandon ini txid s
  | .initiatorTimeout ini txid => Sys2Proof.Machine.execInitiatorTimeout ini txid s
  | .flitEcc router plane ue ini txid => Sys2Proof.Machine.execFlitEcc router plane ue ini txid s
  | .statClear q n v => Sys2Proof.Machine.execStatClear q n v s
  | .probeMatch n head flit1 flits waited cycle => Sys2Proof.Machine.execProbeMatch n head flit1 flits waited cycle s
  | .edgeSource id => Sys2Proof.Machine.execEdgeSource id s
  | .levelSourceChange id level => Sys2Proof.Machine.execLevelSourceChange id level s
  | .claim q ctx => Sys2Proof.Machine.execClaim q ctx s
  | .complete q ctx id => Sys2Proof.Machine.execComplete q ctx id s
  | .message q g j v => Sys2Proof.Machine.execMessage q g j v s
  | .cairnArrayWrite q off size v => Sys2Proof.Machine.execCairnArrayWrite q off size v s
  | .cairnRelease q id ctx all => Sys2Proof.Machine.execCairnRelease q id ctx all s
  | .hartWake h => Sys2Proof.Machine.execHartWake h s
  | .channelSense n balls => Sys2Proof.Machine.execChannelSense n balls s
  | .unclockedForce balls => Sys2Proof.Machine.execUnclockedForce balls s
  | .shuttleChSelWrite q n v => Sys2Proof.Machine.execShuttleChSelWrite q n v s
  | .pinLatchClear q m => Sys2Proof.Machine.execPinLatchClear q m s
  | .pinSet q m => Sys2Proof.Machine.execPinSet q m s
  | .heldRelease q k m => Sys2Proof.Machine.execHeldRelease q k m s
  | .mtimeWrite q v => Sys2Proof.Machine.execMtimeWrite q v s
  | .mtipChange h => Sys2Proof.Machine.execMtipChange h s
  | .timerExpiry dt n => Sys2Proof.Machine.execTimerExpiry dt n s
  | .timerStart q m => Sys2Proof.Machine.execTimerStart q m s
  | .timerStop q m => Sys2Proof.Machine.execTimerStop q m s
  | .doorbell inst j indirect tail => Sys2Proof.Machine.execDoorbell inst j indirect tail s
  | .kick ch reed => Sys2Proof.Machine.execKick ch reed s
  | .channelFetch => Sys2Proof.Machine.execChannelFetch s
  | .itemFetch ch => Sys2Proof.Machine.execItemFetch ch s
  | .itemPrefetch ch => Sys2Proof.Machine.execItemPrefetch ch s
  | .move ch acked e => Sys2Proof.Machine.execMove ch acked e s
  | .itemEnd ch => Sys2Proof.Machine.execItemEnd ch s
  | .chcInv q ch all => Sys2Proof.Machine.execChcInv q ch all s
  | .iotlbInv q inst page gpa => Sys2Proof.Machine.execIotlbInv q inst page gpa s
  | .invDone iotlb => Sys2Proof.Machine.execInvDone iotlb s
  | .encode ch => Sys2Proof.Machine.execEncode ch s
  | .decode ch => Sys2Proof.Machine.execDecode ch s
  | .bobbinBlock ch => Sys2Proof.Machine.execBobbinBlock ch s
  | .create q target => Sys2Proof.Machine.execCreate q target s
  | .assign q target => Sys2Proof.Machine.execAssign q target s
  | .commitChannel q target flush => Sys2Proof.Machine.execCommitChannel q target flush s
  | .commitQueue q target => Sys2Proof.Machine.execCommitQueue q target s
  | .resetDrain q target => Sys2Proof.Machine.execResetDrain q target s
  | .resetSquash q target => Sys2Proof.Machine.execResetSquash q target s
  | .destroy q target => Sys2Proof.Machine.execDestroy q target s
  | .resetDone inst us => Sys2Proof.Machine.execResetDone inst us s
  | .lateResult inst => Sys2Proof.Machine.execLateResult inst s
  | .queueHeadWrite inst j indirect head => Sys2Proof.Machine.execQueueHeadWrite inst j indirect head s
  | .data port r => Sys2Proof.Machine.execData port r s
  | .control n r => Sys2Proof.Machine.execControl n r s
  | .usbhPipeCfgWrite q n v => Sys2Proof.Machine.execUsbhPipeCfgWrite q n v s
  | .microframe sof => Sys2Proof.Machine.execMicroframe sof s
  | .rootReset q run holdoff => Sys2Proof.Machine.execRootReset q run holdoff s
  | .hubStandardRequest setup => Sys2Proof.Machine.execHubStandardRequest setup s
  | .portPower p line => Sys2Proof.Machine.execPortPower p line s
  | .clearPortPower p => Sys2Proof.Machine.execClearPortPower p s
  | .overCurrent p => Sys2Proof.Machine.execOverCurrent p s
  | .portReset p line => Sys2Proof.Machine.execPortReset p line s
  | .portSuspend p => Sys2Proof.Machine.execPortSuspend p s
  | .portResume p => Sys2Proof.Machine.execPortResume p s
  | .clearTtBuffer p addr ep dirIn => Sys2Proof.Machine.execClearTtBuffer p addr ep dirIn s
  | .resetTt p => Sys2Proof.Machine.execResetTt p s
  | .splitTransaction n complete r => Sys2Proof.Machine.execSplitTransaction n complete r s
  | .attach => Sys2Proof.Machine.execAttach s
  | .busReset answered => Sys2Proof.Machine.execBusReset answered s
  | .setup setup => Sys2Proof.Machine.execSetup setup s
  | .ack q => Sys2Proof.Machine.execAck q s
  | .stall q => Sys2Proof.Machine.execStall q s
  | .usbdEpCfgWrite q dirIn k v => Sys2Proof.Machine.execUsbdEpCfgWrite q dirIn k v s
  | .endpointHalt q dirIn k => Sys2Proof.Machine.execEndpointHalt q dirIn k s
  | .endpointClear t => Sys2Proof.Machine.execEndpointClear t s
  | .suspend => Sys2Proof.Machine.execSuspend s
  | .resume r => Sys2Proof.Machine.execResume r s
  | .vbusLost => Sys2Proof.Machine.execVbusLost s
  | .ethTxFrame n => Sys2Proof.Machine.execEthTxFrame n s
  | .ethRxFrame n frame fcsOk => Sys2Proof.Machine.execEthRxFrame n frame fcsOk s
  | .ethRxItem n => Sys2Proof.Machine.execEthRxItem n s
  | .pause n quanta => Sys2Proof.Machine.execPause n quanta s
  | .mdioGo q data reg phy read answer => Sys2Proof.Machine.execMdioGo q data reg phy read answer s
  | .ptpSecond => Sys2Proof.Machine.execPtpSecond s
  | .ptpTarget => Sys2Proof.Machine.execPtpTarget s
  | .ptpSet q v => Sys2Proof.Machine.execPtpSet q v s
  | .ptpStep q ns => Sys2Proof.Machine.execPtpStep q ns s
  | .uartCharacter n c => Sys2Proof.Machine.execUartCharacter n c s
  | .frameEnd n => Sys2Proof.Machine.execFrameEnd n s
  | .break n => Sys2Proof.Machine.execBreak n s
  | .spiTransfer n miso => Sys2Proof.Machine.execSpiTransfer n miso s
  | .csRelease n => Sys2Proof.Machine.execCsRelease n s
  | .i2cTransfer n r => Sys2Proof.Machine.execI2cTransfer n r s
  | .i2cRecover q n freed => Sys2Proof.Machine.execI2cRecover q n freed s
  | .adcTrigger n src => Sys2Proof.Machine.execAdcTrigger n src s
  | .adcSwTrig q n => Sys2Proof.Machine.execAdcSwTrig q n s
  | .adcConversion n raw => Sys2Proof.Machine.execAdcConversion n raw s
  | .sequenceEnd n => Sys2Proof.Machine.execSequenceEnd n s
  | .flush q n format cont => Sys2Proof.Machine.execFlush q n format cont s
  | .gpioEdge n rising => Sys2Proof.Machine.execGpioEdge n rising s
  | .gpioSet q m => Sys2Proof.Machine.execGpioSet q m s
  | .gpioClr q m => Sys2Proof.Machine.execGpioClr q m s
  | .tetherFrame bits => Sys2Proof.Machine.execTetherFrame bits s
  | .tetherCrcCommit index words crc => Sys2Proof.Machine.execTetherCrcCommit index words crc s
  | .tetherAbort reason => Sys2Proof.Machine.execTetherAbort reason s
  | .liveLoCommit v => Sys2Proof.Machine.execLiveLoCommit v s
  | .liveStream v => Sys2Proof.Machine.execLiveStream v s
  | .liveAccessDone target timeout => Sys2Proof.Machine.execLiveAccessDone target timeout s
  | .req v => Sys2Proof.Machine.execReq v s
  | .attnSet q v => Sys2Proof.Machine.execAttnSet q v s
  | .tetherKick v => Sys2Proof.Machine.execTetherKick v s
  | .pwdgExpiry => Sys2Proof.Machine.execPwdgExpiry s
  | .read q addr => Sys2Proof.Machine.execRead q addr s
  | .program q addr cut => Sys2Proof.Machine.execProgram q addr cut s
  | .check q addr => Sys2Proof.Machine.execCheck q addr s
  | .load q slot usage => Sys2Proof.Machine.execLoad q slot usage s
  | .slotRead q slot => Sys2Proof.Machine.execSlotRead q slot s
  | .clear q slot => Sys2Proof.Machine.execClear q slot s
  | .derive q slot src usage => Sys2Proof.Machine.execDerive q slot src usage s
  | .generate q slot usage => Sys2Proof.Machine.execGenerate q slot usage s
  | .trngReady rate => Sys2Proof.Machine.execTrngReady rate s
  | .healthFail proportion ms => Sys2Proof.Machine.execHealthFail proportion ms s
  | .drbgGenerate ms fresh => Sys2Proof.Machine.execDrbgGenerate ms fresh s
  | .trngDataLoad _q => Sys2Proof.Machine.execTrngDataLoad _q s
  | .encrypt ch => Sys2Proof.Machine.execEncrypt ch s
  | .decrypt ch => Sys2Proof.Machine.execDecrypt ch s
  | .mac ch => Sys2Proof.Machine.execMac ch s
  | .update ch => Sys2Proof.Machine.execUpdate ch s
  | .final ch => Sys2Proof.Machine.execFinal ch s
  | .oneshot ch => Sys2Proof.Machine.execOneshot ch s
  | .ecdsaSign ch => Sys2Proof.Machine.execEcdsaSign ch s
  | .ecdsaVerify ch => Sys2Proof.Machine.execEcdsaVerify ch s
  | .ecdh ch => Sys2Proof.Machine.execEcdh ch s
  | .keygen ch => Sys2Proof.Machine.execKeygen ch s
  | .x25519 ch => Sys2Proof.Machine.execX25519 ch s
  | .ed25519Sign ch => Sys2Proof.Machine.execEd25519Sign ch s
  | .ed25519Verify ch => Sys2Proof.Machine.execEd25519Verify ch s
  | .pkaCmdGo q op wide keySlot slot => Sys2Proof.Machine.execPkaCmdGo q op wide keySlot slot s
  | .katGo q engine => Sys2Proof.Machine.execKatGo q engine s
  | .tamperEvent n => Sys2Proof.Machine.execTamperEvent n s
  | .faultSignal src soft unit addr detail => Sys2Proof.Machine.execFaultSignal src soft unit addr detail s
  | .belayResetReaction => Sys2Proof.Machine.execBelayResetReaction s
  | .belayArm q key => Sys2Proof.Machine.execBelayArm q key s
  | .pendClear q m => Sys2Proof.Machine.execPendClear q m s
  | .faultNRelease ms => Sys2Proof.Machine.execFaultNRelease ms s
  | .condEvaluation vin tj => Sys2Proof.Machine.execCondEvaluation vin tj s
  | .crcPass us hit => Sys2Proof.Machine.execCrcPass us hit s
  | .dupMismatch unit => Sys2Proof.Machine.execDupMismatch unit s
  | .monitorExcursion target k => Sys2Proof.Machine.execMonitorExcursion target k s
  | .selftest q => Sys2Proof.Machine.execSelftest q s
  | .belaySoft q code => Sys2Proof.Machine.execBelaySoft q code s
  | .wdogKick q n key ms => Sys2Proof.Machine.execWdogKick q n key ms s
  | .wdogWarn n => Sys2Proof.Machine.execWdogWarn n s
  | .wdogExpiry n => Sys2Proof.Machine.execWdogExpiry n s
  | .screeEnd => Sys2Proof.Machine.execScreeEnd s
  | .eccGo q => Sys2Proof.Machine.execEccGo q s
  | .lockstepGo q pairB => Sys2Proof.Machine.execLockstepGo q pairB s
  | .dupGo q unit => Sys2Proof.Machine.execDupGo q unit s
  | .crcGo q page => Sys2Proof.Machine.execCrcGo q page s
  | .monGo q target copyAOnly => Sys2Proof.Machine.execMonGo q target copyAOnly s
  | .entropyGo q mode ms => Sys2Proof.Machine.execEntropyGo q mode ms s
  | .selftestDone pass => Sys2Proof.Machine.execSelftestDone pass s
  | .katDone engine pass => Sys2Proof.Machine.execKatDone engine pass s
  | .pkaCmdDone us => Sys2Proof.Machine.execPkaCmdDone us s
  | .deviceDetached p => Sys2Proof.Machine.execDeviceDetached p s
  | .overCurrentClear p => Sys2Proof.Machine.execOverCurrentClear p s
  | .moveAngleCrossing n => Sys2Proof.Machine.execMoveAngleCrossing n s
  | .pwmDutyReached dt n => Sys2Proof.Machine.execPwmDutyReached dt n s

end Sys2Proof.Machine
end

