-- ==== Sys2Proof/Machine/Elapse.lean ====
section
/-! DEFINITION. One 5 ns tick of the device's own time (R116, R163, R370, R372, R480, R495, R497): the clocks that count whatever is
commanded. Step takes it on an empty queue (notes/assumptions/3.md). -/
namespace Sys2Proof.Machine

/-- One 5 ns tick passes for Reed and the PTP clock, the timers, TIMER_MTIME, the RTC, PAUSE and a suspended service port. -/
def State.elapse (s : State) : State :=
  ((((s.reedTick.timersTick).mtimeTicks 1).rtcElapse 1).ethElapse 1).usbElapse 1

end Sys2Proof.Machine
end

