-- ==== Sys2Proof/Machine/Balls.lean ====
section
/-! DEFINITION. What the device puts on its balls (R71, R75, R77, R89, R90, Table Package-7), read off the state between two commands.
What a block sends within a command is not held. -/
namespace Sys2Proof.Machine

/-- What the device puts on a ball. -/
inductive Drive where
  /-- high impedance, no pull -/
  | floats
  /-- high impedance or input, pulled up or down -/
  | pulled (up : Bool)
  /-- driven to a level -/
  | driven (level : Bool)
  /-- in the hands of its block or oscillator -/
  | byBlock
deriving DecidableEq, Repr

/-- Table Package-4 over the ball order of R512: the bank of bank ball `p`, 0 for A. -/
def padBank (p : Nat) : Nat :=
  if p ≤ 15 then 2 else if p ≤ 60 then 3 else if p ≤ 86 then 2 else if p ≤ 117 then 0 else 1

/-- A pull code of GPIO_PAD_p: 0 none, 1 down, 2 up. -/
def Drive.ofPull (c : Nat) : Drive := if c = 0 then .floats else .pulled (c == 2)

/-- Table Package-7, column PORST_N low: AOUT, EVOUT and OSPI_RST_N are driven low, every other bank ball floats with its pull. -/
def resetDrive (p : Nat) : Drive := if (32 ≤ p ∧ p ≤ 47) ∨ p = 98 then .driven false else .ofPull (padPull p)

/-- The page of the block that a bank ball without a function of its own in this file belongs to (R512). -/
def padPage (p : Nat) : Nat :=
  if 61 ≤ p ∧ p ≤ 78 then P.UART ((p - 61) / 3)
  else if 87 ≤ p ∧ p ≤ 97 then P.OSPI
  else if 104 ≤ p ∧ p ≤ 113 then P.SPI ((p - 104) / 5)
  else if 114 ≤ p ∧ p ≤ 117 then P.I2C ((p - 114) / 2)
  else if 118 ≤ p ∧ p ≤ 131 then P.ETH 0
  else P.ETH 1

/-- A bank ball out of reset: configured by its block, or with its pull until firmware configures it. -/
def State.runDrive (s : State) (p : Nat) : Drive :=
  let pull : Drive := .ofPull (s.fld (F.GPIO_PAD_PULL p))
  if p ≤ 31 then (if (s.fld F.GPIO_DIR_DIR).testBit p then .driven ((s.fld F.GPIO_OUT_OUT).testBit p) else pull)
  else if p ≤ 47 then (if s.flag (F.GPIO_PAD_FUNC p) then pull else .driven (s.pinState.testBit (p - 32)))
  else if p ≤ 60 ∨ (83 ≤ p ∧ p ≤ 86) ∨ (99 ≤ p ∧ p ≤ 102) then pull
  else if 79 ≤ p ∧ p ≤ 82 then (if s.running P.USBHUB then .driven (! s.flag (portBitF (p - 79) 8)) else pull)
  else if p = 98 then .driven true
  else if p = 103 then (if s.tetherIrqLow then .driven false else .floats)
  else if s.running (padPage p) then .byBlock else pull

/-- R71, R77, R89: bank ball `p`, in the order of R512. A bank outside its windows or without power floats. -/
def State.bankBall (s : State) (p : Nat) : Drive :=
  if ! s.bankLive (padBank p) then .floats
  else if s.power.phase = .reset then resetDrive p
  else s.runDrive p

/-- The signals of Table Package-7 outside the banks, and TDO, which no GPIO_PAD register sets. -/
inductive Signal where
  | tck | trstN | tms | tdi | porstN | guard | bootsel (n : Fin 2) | wake (n : Fin 4) | tamper (n : Fin 2) | adcIn (n : Fin 12)
  | tdo | usbh (n : Fin 4) | usbd | vrefOut | rstoutN | faultN | pwrGood | pfailN | xin | lse
deriving DecidableEq, Repr

/-- R75, R77, R90: a signal outside the banks. A 100 kΩ resistor holds RSTOUT_N, FAULT_N and PWR_GOOD low where the device cannot drive
them. The TAP stands in no shift state between two debug accesses, so TDO floats. In Bivouac the pulls of WAKE and TAMPER are off
(assumption log 86). -/
def State.ball (s : State) : Signal → Drive
  | .tck | .trstN => if s.bankLive 0 then .pulled false else .floats
  | .tms | .tdi => if s.bankLive 0 then .pulled true else .floats
  | .porstN | .guard => if s.railsOn then .pulled true else .floats
  | .bootsel _ => if s.railsOn then .pulled false else .floats
  | .wake _ | .tamper _ => if s.aonFed && ! decide (s.power.phase = .bivouac) then .pulled false else .floats
  | .adcIn _ => .floats
  | .tdo => .floats
  | .usbh _ => if s.awake then .pulled false else .floats
  | .usbd => if s.awake && s.flag F.USBD_STAT_ATTACHED then .pulled true else .floats
  | .vrefOut => if s.awake && (s.running (P.ADC 0) || s.running (P.ADC 1)) then .byBlock else .driven false
  | .rstoutN => if s.railsOn then .driven (s.awake && s.power.rstoutN) else .pulled false
  | .faultN => if s.railsOn then .driven (s.awake && ! s.belay.faultLow) else .pulled false
  | .pwrGood => if s.railsOn then .driven s.power.pwrGood else if s.aonFed then .driven false else .pulled false
  | .pfailN => if s.power.pfail then .driven false else .floats
  | .xin => if s.railsOn then .byBlock else .floats
  | .lse => if s.aonFed then .byBlock else .floats

end Sys2Proof.Machine
end

