-- ==== Sys2Proof/Safety.lean ====
section
/-! DEFINITION. The terms the statements use: what a command leaves as it was, when a register page is open to a write, and the
canonical form that every command keeps. -/
namespace Sys2Proof.Machine

/-- Every register but those of the list holds what it held. -/
def KeepsRegs (s t : State) (l : List Nat) : Prop := ∀ a, a ∉ l → t.raw a = s.raw a

/-- Every register of every page but those of the list holds what it held. -/
def KeepsPages (s t : State) (ps : List Nat) : Prop := ∀ a, pageBase a ∉ ps → t.raw a = s.raw a

/-- Every byte of memory reads as it did. -/
def KeepsMem (s t : State) : Prop := ∀ a, t.byteAt a = s.byteAt a

/-- Every byte of memory but the `n` bytes from `a` reads as it did. -/
def KeepsMemBut (s t : State) (a n : Nat) : Prop := ∀ x, ¬ (a ≤ x ∧ x < a + n) → t.byteAt x = s.byteAt x

/-- R48, R59: the page at `p` answers a register write of `q`: the request carries machine privilege where the page needs it,
and the page is not being soft-reset. -/
def OpenTo (s : State) (q : Req) (p : Nat) : Prop := (pageMachine p = true → q.priv = true) ∧ s.resetting p = false

/-- R40: bit `bit` of EVT_RAW of the page at `p` is set. -/
def State.event (s : State) (p bit : Nat) : Bool := (s.raw (R.EVT_RAW p)).getLsbD bit

/-- R41: the block of the page at `p` defines bit `b` of EVT_RAW, or it is CLAMP. -/
def eventDefined (p b : Nat) : Bool := b == 31 || (match pageOf p with | some (x, _) => decide (b < x.events) | none => false)

/-- R50, Table Pages-3: ENABLE of the page at `p` is fixed at 1. -/
def enableFixed (p : Nat) : Bool := match pageOf p with | some (x, _) => x.fixed | none => false

/-- R51, Table Pages-3: the page at `p` has a soft reset. -/
def softResettable (p : Nat) : Bool := match pageOf p with | some (x, _) => x.soft | none => false

/-- R44: the header registers of the page at `p` that a clamp event writes. -/
def logRegs (p : Nat) : List Nat := [R.EVT_RAW p, R.CLAMP_ADDR p, R.CLAMP_WROTE p, R.CLAMP_KEPT p, R.CLAMP_COUNT p]

/-- R155: the key, signature and challenge standing in SYSCFG, with this scope, unlock the device. -/
def State.unlockGood (s : State) (scope : Nat) : Bool :=
  sha256 (s.unlockBytes F.SYSCFG_UNLOCK_KEY_KEY 16) == s.otpBytes 64 8 &&
    ecdsaOk (s.unlockBytes F.SYSCFG_UNLOCK_KEY_KEY 16) (s.unlockBytes F.SYSCFG_UNLOCK_SIG_SIG 16)
      (s.unlockBytes F.SYSCFG_UNLOCK_CHAL_CHAL 8 ++ [BitVec.ofNat 8 scope])

/-- R367, R368: no Shuttle channel is unclocked, and none outputs, holds or forces anything. -/
def State.ShuttleStill (s : State) : Prop :=
  (∀ n : Fin 64, s.flag (F.SHUTTLE_CH_SEL_UNCLOCKED n.val) = false) ∧ s.shuttle.ch = [] ∧ s.shuttle.forced = 0 ∧ s.shuttle.conflict = 0

/-- What a system reset sets from its cause and the fuses (R535), and PWR_SNAP_CTRL, whose running commit it completes (R108). -/
def latchedRegs : List Nat :=
  [R.SYSCFG_RESET_CAUSE, R.SYSCFG_UID 0, R.SYSCFG_UID 1, R.SYSCFG_UID 2, R.SYSCFG_UID 3, R.SYSCFG_LIFECYCLE, R.SYSCFG_DEBUG_EN,
    R.BOOT_OTP_SVN, R.TETHER_CFG, R.BOOT_POLICY, R.PWR_SNAP_CTRL]

/-- R220, R538, R592: every block holds its reset state; the fuses, the flash and what lies outside the device are as they were. -/
def State.BlocksReset (s t : State) : Prop :=
  t.held = [] ∧ t.boot = { BootState.reset with flash := s.boot.flash, resetPulses := s.boot.resetPulses } ∧
    t.reed = { ReedState.reset with zcIn := s.reed.zcIn } ∧ t.memory.lines = [] ∧ t.memory.mram = [] ∧ t.memory.dmc = [] ∧
    t.loom = LoomState.reset ∧ t.cairn = CairnState.reset ∧ t.shuttle = { ShuttleState.reset with balls := s.shuttle.balls } ∧
    t.timer = TimerState.reset ∧ t.belay = BelayState.reset ∧ t.tether = TetherState.reset ∧
    t.sec = { SecurityState.reset with otp := s.sec.otp, otpTorn := s.sec.otpTorn } ∧ t.heddle = HeddleState.reset ∧
    t.bobbin = BobbinState.reset ∧ t.usb = { UsbState.reset with vbus := s.usb.vbus } ∧ t.field = FieldState.reset

/-- R31, R78, R87, R220: a system reset of this cause has begun from `s`. Every register but those of `l` keeps the bits of the always-on
domain, what is measured and the straps that the reset does not latch anew, and has every other bit at its reset value; the harts are in
reset; the memories keep what has reached them. -/
def State.ResetBegun (s t : State) (cause : Nat) (l : List Nat) : Prop :=
  t.power.phase = .reset ∧ t.power.cause = cause ∧ t.power.rstoutN = false ∧ t.power = s.resetPower cause false ∧
    t.fld F.SYSCFG_RESET_CAUSE_CAUSE = 2 ^ cause ∧
    (∀ a, a ∉ latchedRegs → a ∉ l → t.raw a &&& ~~~ (aonMask a ||| measuredMask a ||| strapMask cause s.strapsOwed a) =
        resetWord a &&& ~~~ (aonMask a ||| measuredMask a ||| strapMask cause s.strapsOwed a) ∧
      t.raw a &&& (aonMask a ||| measuredMask a ||| strapMask cause s.strapsOwed a) =
        s.raw a &&& (aonMask a ||| measuredMask a ||| strapMask cause s.strapsOwed a)) ∧
    (s.flag F.PWR_SNAP_CTRL_BUSY = true → t.flag F.PWR_SNAP_CTRL_COMPLETE = true) ∧
    (s.flag F.PWR_SNAP_CTRL_BUSY = false → t.flag F.PWR_SNAP_CTRL_COMPLETE = s.flag F.PWR_SNAP_CTRL_COMPLETE) ∧
    (∀ h : Fin 4, t.hart h.val = { Hart.reset 0 with resetHalt := (s.hart h.val).resetHalt }) ∧ s.BlocksReset t ∧
    (s.memory.stale = [] → s.memory.dmc = [] → KeepsMem s t) ∧ t.dm = { s.dm with haveReset := 15 } ∧ t.fresh = s.fresh ∧
    t.pending = s.pending ∧ t.code4G = s.code4G

/-- R97, R100, R107, R117: every rail but VAON has been switched off, from `s`. Every register but those of `l` keeps the bits of the
always-on domain and what is measured; MRAM and the ROM keep what they hold but for writes in progress, and every other byte is lost. -/
def State.WentDark (s t : State) (l : List Nat) : Prop :=
  t.power.rstoutN = false ∧ t.power.pwrGood = false ∧ t.power.grace = none ∧ t.power.closing = none ∧ t.power.thermHold = false ∧
    (∀ a, a ∉ latchedRegs → a ∉ R.PWR_OUT :: l → t.raw a &&& ~~~ (aonMask a ||| measuredMask a) = resetWord a &&& ~~~ (aonMask a ||| measuredMask a) ∧
      t.raw a &&& (aonMask a ||| measuredMask a) = s.raw a &&& (aonMask a ||| measuredMask a)) ∧
    (∀ h : Fin 4, t.hart h.val = Hart.reset 0) ∧ s.BlocksReset t ∧
    (∀ a, 0x20000 ≤ a → inMram a = false → t.byteAt a = 0#8) ∧
    (s.memory.stale = [] → s.memory.mram = [] → ∀ a, a < 0x20000 ∨ inMram a = true → t.byteAt a = s.byteAt a) ∧
    t.dm = DebugState.reset ∧ t.pending = s.pending ∧ t.code4G = s.code4G

/-- R133, R135: the header that the first stage reads from the flash, in the slot of BOOT_PREF. -/
def State.bootHeader (s : State) : List Byte := s.loadSlots.flashBytes (slotOffset (s.fld F.BOOT_PREF_SLOT)) 256

/-- R136: the payload behind it, of the length a legal header gives. -/
def State.bootPayload (s : State) (loader : Bool) : List Byte :=
  if geometryOk (Image.of s.bootHeader) loader then
    s.loadSlots.flashBytes (slotOffset (s.fld F.BOOT_PREF_SLOT) + 256) (Image.of s.bootHeader).len
  else []

/-- Table Boot-3: the FAILCODE of the first check that fails, `err` being the step at which a memory error shows. -/
def State.bootVerdict (s : State) (err : Option (Fin 11)) (loader : Bool) : Option Nat :=
  firstFail (err.map (·.val)) (s.loadSlots.imageChecks s.bootHeader (s.bootPayload loader) loader)

/-- R139: what is locked and cleared before foreign code runs: slots 0 to 2 against reading, 0 and 1 against use, the fuse window, the
scratch, and the engines. -/
def State.LocksApplied (s t : State) : Prop :=
  t.fld F.PITON_KEY_RLOCK_RLOCK = s.fld F.PITON_KEY_RLOCK_RLOCK ||| 7 ∧ t.fld F.PITON_KEY_ULOCK_ULOCK = s.fld F.PITON_KEY_ULOCK_ULOCK ||| 3 ∧
    t.flag F.PITON_FUSE_WIN_CLOSED = true ∧ t.flag F.PITON_STAT_FIRST_STAGE_DONE = true ∧ t.event P.PITON E.PITON_LOCK_SET = true ∧
    (∀ a, scratch ≤ a → a < scratch + 0x10000 → t.byteAt a = 0#8) ∧ t.sec.hash = [] ∧ t.sec.pka = none ∧ t.sec.otp = s.sec.otp

/-- Reed has no slot in force, no comb point due, no write waiting for the crossing, no slew under way and no new level of ZC_IN; the
PTP clock stands. -/
def State.ReedQuiet (s : State) : Prop :=
  s.reed.slots = [] ∧ s.reed.pendingSlots = [] ∧ s.reed.combPending = false ∧ Bits.get s.reed.comb 0 1 = 0 ∧ s.reed.slew = 0 ∧
    s.zcSees = s.reed.zcLevel ∧ s.reed.zcHold = none ∧ s.ptpRuns = false

/-- The state that Reed's own ticks of 5 ns, `dt` of them, reach from `s`. -/
abbrev State.later (s : State) (dt : BitVec 32) : State := s.reedTicks dt.toNat

/-- R166, R171: in LOCKED, an event that happens now, at the interval that the last accepted one leaves, is in the range of the encoder
and within a tenth of T. -/
def State.InStride (s : State) : Prop :=
  (s.legalInterval.1 : Int) ≤ s.reed.sinceAccepted ∧ s.reed.sinceAccepted ≤ (s.legalInterval.2 : Int) ∧
    9 * (s.reed.period.1 : Int) ≤ 10 * s.reed.sinceAccepted * s.reed.period.2 ∧
    10 * s.reed.sinceAccepted * s.reed.period.2 ≤ 11 * (s.reed.period.1 : Int)

/-- The state that the general timers' own ticks of 5 ns, `dt` of them, reach from `s`. -/
abbrev State.timersAt (s : State) (dt : BitVec 32) : State := s.timerTicks dt.toNat

/-- R372: timer `n` runs, its next tick of 5 ns is one of its prescaled clock, and its period fits COUNT. -/
def State.Counting (s : State) (n : Nat) : Prop :=
  s.timerRuns n = true ∧ SMap.get (fun _ => 0) s.timer.pre n = s.timerForce n 2 ∧ s.timerForce n 0 < 2 ^ 32

/-- R434, R440: port `port` of channel kind `kind` is held by live channel `c`, whose entry and items are `k`, `it` is the item it
works on, it may issue a transaction for it (R403, R437), and no shot of Scree waits for it. -/
def State.PortWork (s : State) (kind port c : Nat) (k : HeddleChannel) (it : HeddleItem) : Prop :=
  s.portItem kind port = some (c, k, it) ∧ s.hch c = some k ∧ s.mayIssue c k = true ∧ s.belay.moveShots = []

/-- The item of live channel `c` at a ring index. -/
def State.itemAt (s : State) (c idx : Nat) : Option HeddleItem := (s.hch c).bind (fun k => k.items.find? (fun i => decide (i.index = idx)))

/-- STATUS and DETAIL that the item of channel `c` at a ring index has ended with, if it has (R397, Table Heddle-7). -/
def State.itemStatus (s : State) (c idx : Nat) : Option (Nat × Nat) := (s.itemAt c idx).bind (fun i => i.status)

/-- Only hart `h` has changed, and its checker with it in Guarded mode (R215): every other hart and the rest of the device are as they were. -/
def OnlyHart (s t : State) (h : Nat) : Prop :=
  (∀ k : Fin 4, k.val ∉ s.pairOf h → t.hart k.val = s.hart k.val) ∧ (s.guarded = true → t.hart (h + 1) = t.hart h) ∧ t = { s with harts := t.harts }

/-- The next instruction of hart `h` is its own: the hart runs, waits for nothing, holds no long operation, is neither in a Scout run nor
in a single step nor in the program buffer, and no trigger fires at its pc. -/
def State.Issues (s : State) (h : Nat) : Prop :=
  s.hartLive h = true ∧ (s.hart h).prog = none ∧ (s.hart h).wfi = false ∧ (s.hart h).scout = none ∧ (s.hart h).stepping = false ∧ (s.hart h).lou = [] ∧
    (s.hart h).trigFired 2 (s.hart h).pc.toNat = []

/-- R242: the long operations of hart `h` are precise: each completes before anything else. -/
def State.IssuesPrecise (s : State) (h : Nat) : Prop :=
  s.Issues h ∧ ((s.hart h).gov 0x7C1).testBit 1 = true ∧ 0 < (s.hart h).gov 0x7C1 / 2 ^ 8 % 16

/-- The CSRs that count: minstret, the hpm counters with their events' OF bits, and LCOFI (R239, R324 to R326). -/
def countingCsrs : List Nat := [0x344, 0xB02, 0xB03, 0xB04, 0xB05, 0xB06, 0xB07, 0xB08, 0xB09, 0xB0A,
  0x323, 0x324, 0x325, 0x326, 0x327, 0x328, 0x329, 0x32A]

/-- A hart that goes on behind an instruction of 4 bytes: but for the integer registers of `rds`, ACC, the LOU, what counts and the
settling windows, it is as it was. -/
def Hart.GoesOn (t u : Hart) (rds : List Nat) : Prop :=
  u.pc = t.pc + 4#64 ∧ (∀ r, r ∉ rds → u.xr r = t.xr r) ∧ (∀ n, n ∉ countingCsrs → u.csrRaw n = t.csrRaw n) ∧
    u.windows = (t.tickWindows 1).windows ∧ u.govern = (t.tickWindows 1).govern ∧
    u = { t with pc := u.pc, x := u.x, csr := u.csr, acc := u.acc, lou := u.lou, louNext := u.louNext, windows := u.windows, govern := u.govern }

/-- A trap or a return of a hart: but for the pc, the mode, the CSRs of `l`, what counts and the LOU, it is as it was, and every settling
window has ended (R213). -/
def Hart.Enters (t u : Hart) (l : List Nat) : Prop :=
  u.windows = [] ∧ u.govern = [] ∧ (∀ n, n ∉ l → n ∉ countingCsrs → u.csrRaw n = t.csrRaw n) ∧
    u = { t with pc := u.pc, csr := u.csr, priv := u.priv, virt := u.virt, windows := u.windows, govern := u.govern, lou := u.lou,
                 louArmed := u.louArmed, louNext := u.louNext }

/-- The CSRs that a trap into M-mode, HS-mode and VS-mode writes (R204). -/
def trapCsrsM : List Nat := [0x300, 0x341, 0x342, 0x343, 0x34A, 0x34B]
def trapCsrsS : List Nat := [0x300, 0x600, 0x141, 0x142, 0x143, 0x643, 0x64A]
def trapCsrsVs : List Nat := [0x200, 0x241, 0x242, 0x243]

/-- What a translation fence with x0 for both operands drops (R206): sfence.vma the translations of the mode it runs in, hfence.vvma
those of the guest's first stage under the current VMID, and hfence.gvma those of the second stage. -/
def Hart.wholeFence (t : Hart) (k : VmaFence) (stage vmid : Nat) : Bool :=
  match k with
  | .sfenceVma => if t.virt then decide (stage = 1 ∧ vmid = t.vmid) else decide (stage = 0)
  | .hfenceVvma => decide (stage = 1 ∧ vmid = t.vmid)
  | .hfenceGvma => decide (stage = 2)

/-- The hart with the translations and the walk cache of another. -/
def Hart.translatesAs (u t : Hart) : Hart :=
  { u with itlb := t.itlb, dtlb := t.dtlb, tlb := t.tlb, tlbLarge := t.tlbLarge, walk := t.walk }

/-- A trap of hart `h` into M-mode with this cause and value; but for what the entry writes, it and the device are as they were. -/
def State.TrapsM (s t : State) (h cause : Nat) (tval : DWord) : Prop :=
  OnlyHart s t h ∧ (t.hart h).csrRaw 0x341 = (s.hart h).pc ∧ (t.hart h).csrRaw 0x342 = BitVec.ofNat 64 cause ∧
    (t.hart h).csrRaw 0x343 = tval ∧ (t.hart h).pc = (s.hart h).csrRaw 0x305 &&& ~~~ 3#64 ∧ (t.hart h).priv = 3 ∧
    (t.hart h).virt = false ∧ (s.hart h).Enters (t.hart h) trapCsrsM

/-- The command of a long operation. -/
def xoroudCommand (op : LongOp) (h : Fin 4) (rd rs1 rs2 : Fin 32) : Instr :=
  match op with
  | .ldivu => .ldivu h rd rs1 rs2
  | .isqrt => .isqrt h rd rs1 rs2
  | .frcp => .frcp h rd rs1 rs2
  | .flog2 => .flog2 h rd rs1 rs2
  | .fexp2 => .fexp2 h rd rs1 rs2
  | .lmacu => .lmacu h rd rs1 rs2
  | .lmacs => .lmacs h rd rs1 rs2
  | .laccWr => .laccWr h rd rs1 rs2
  | .laccRdlo => .laccRdlo h rd rs1 rs2
  | .laccRdhi => .laccRdhi h rd rs1 rs2
  | .crc32c => .crc32c h rd rs1 rs2

/-- The caches hold no line, and nothing stored is wrong: no upset and no poison mark. -/
def State.QuietMemory (s : State) : Prop :=
  s.memory.lines = [] ∧ s.memory.flips = [] ∧ s.memory.poison = [] ∧ s.memory.linePoison = [] ∧ s.memory.dmc = []

/-- Hart `h` runs in machine mode without MPRV, and no trigger fires on a load or a store at `va`, an address of main memory that is a
multiple of `n` and that PMP permits. -/
def State.PlainAccess (s : State) (h va n : Nat) : Prop :=
  s.Issues h ∧ (s.hart h).priv = 3 ∧ (s.hart h).csrBit 0x300 17 = false ∧ s.inMain va 1 = true ∧ va % n = 0 ∧
    (s.hart h).trigFired 0 va = [] ∧ (s.hart h).trigFired 1 va = [] ∧ (s.hart h).pmpOk .load 3 va = true ∧ (s.hart h).pmpOk .store 3 va = true

/-- R71, R217: a DMI operation reaches the debug module: the fabric is clocked, bank A is inside a window, and none has failed. -/
def State.TapReaches (s : State) : Prop := s.fabricRuns = true ∧ s.bankLive 0 = true ∧ s.dm.dmistat = 0

/-- A request for hart `h` over the DMI: the fabric is clocked, the debug module is open, and the hart is visible. -/
def State.Debugs (s : State) (h : Nat) : Prop := s.TapReaches ∧ s.debugOpen = true ∧ s.visible.contains h = true

/-- Such a request has changed nothing but the harts of the pair and the debug module, whose TAP has dmi selected and which shows hart `h`. -/
def State.OnlyDebug (s t : State) (h : Nat) : Prop :=
  (∀ k : Fin 4, k.val ∉ s.pairOf h → t.hart k.val = s.hart k.val) ∧ (s.guarded = true → t.hart (h + 1) = t.hart h) ∧
    t.dm.ir = 0x11#5 ∧ t.dm.hartsel = h ∧ t.dm.active = true ∧ t = { s with harts := t.harts, dm := t.dm }

/-- The command of a cache-block operation. -/
def cboCommand (k : CacheBlock) (h : Fin 4) (rs1 : Fin 32) : Instr :=
  match k with
  | .clean => .cboClean h rs1
  | .flush => .cboFlush h rs1
  | .inval => .cboInval h rs1
  | .zero => .cboZero h rs1

/-- An access of hart `h` has changed nothing but the hart (with its checker), bytes of memory, where lines are held and what lies behind
them, and the check blocks the DMC holds, of which DMC_CHAN_STAT shows whether one is dirty (R267). -/
def State.OnlyAccess (s t : State) (h : Nat) : Prop :=
  (∀ k : Fin 4, k.val ∉ s.pairOf h → t.hart k.val = s.hart k.val) ∧ (s.guarded = true → t.hart (h + 1) = t.hart h) ∧
    KeepsRegs s t [R.DMC_CHAN_STAT] ∧
    t = { s with regs := t.regs, harts := t.harts, mem := t.mem, fresh := t.fresh,
                 memory := { s.memory with lines := t.memory.lines, stale := t.memory.stale, checkBlocks := t.memory.checkBlocks } }

/-- Lines have moved between the caches and the memory: nothing has changed but what harts count, where lines are held and what lies behind
them, and the check blocks the DMC holds (R267). -/
def State.OnlyCaches (s t : State) : Prop :=
  (∀ h : Fin 4, s.visible.contains h.val = true →
    (∀ n, n ∉ countingCsrs → (t.hart h.val).csrRaw n = (s.hart h.val).csrRaw n) ∧ t.hart h.val = { s.hart h.val with csr := (t.hart h.val).csr }) ∧
    KeepsRegs s t [R.DMC_CHAN_STAT] ∧
    t = { s with regs := t.regs, harts := t.harts, fresh := t.fresh,
                 memory := { s.memory with lines := t.memory.lines, stale := t.memory.stale, checkBlocks := t.memory.checkBlocks } }

/-- R563, R590: a corrected error that Belay does not log is counted in `count` and raises the event of its page, and of Belay. -/
def State.Corrected (s t : State) (count : Fld) : Prop :=
  t.fld count = min (2 ^ count.width - 1) (s.fld count + 1) ∧ t.event P.BELAY E.BELAY_CE = true

/-- Nothing stored is wrong: no upset and no poison mark. -/
def State.StoredRight (s : State) : Prop := s.memory.flips = [] ∧ s.memory.poison = [] ∧ s.memory.linePoison = []

/-- The caches may hold lines, but nothing stored is wrong, and the DRAM controller holds no request. -/
def State.SoundMemory (s : State) : Prop := s.StoredRight ∧ s.memory.dmc = []

/-- Every channel and every queue that Heddle lists is the one its number names. -/
def State.TablesKeyed (s : State) : Prop := (∀ e ∈ s.heddle.ch, s.hch e.1 = some e.2) ∧ (∀ e ∈ s.heddle.cq, s.hcq e.1 = some e.2)

/-- Channels other than `c` are as they were. -/
def OtherChannels (s t : State) (c : Nat) : Prop := ∀ x : Fin 4096, x.val ≠ c → t.hch x.val = s.hch x.val

/-- R267: memory and registers are as they were, but for the check blocks that reads of DRAM have found or brought in. -/
def State.OnlyReads (s t : State) : Prop :=
  KeepsRegs s t [R.DMC_CHAN_STAT] ∧
    t = { s with regs := t.regs, fresh := t.fresh, heddle := t.heddle, memory := { s.memory with checkBlocks := t.memory.checkBlocks } }

/-- The mover has changed nothing but bytes of memory, the check blocks behind them, channel `c`, the transactions of its instance and whose
turn it is (R403). -/
def State.OnlyMove (s t : State) (c : Nat) : Prop :=
  OtherChannels s t c ∧ KeepsRegs s t [R.DMC_CHAN_STAT] ∧ t.heddle = { s.heddle with ch := t.heddle.ch, inst := t.heddle.inst, moved := t.heddle.moved, iotlbWait := t.heddle.iotlbWait } ∧
    t = { s with regs := t.regs, mem := t.mem, fresh := t.fresh, heddle := t.heddle, memory := { s.memory with stale := t.memory.stale, checkBlocks := t.memory.checkBlocks } }

/-- R403, R437: it is the turn of channel `ch`, of kind `kind` and an instance `inst` without translation, in its item `it`, of which nothing
has been moved; the memory holds nothing cached or wrong, and writes of Heddle allocate nothing. -/
def State.MoverTurn (s : State) (ch kind : Nat) (k : HeddleChannel) (it : HeddleItem) (inst : HeddleInstance) : Prop :=
  s.hch ch = some k ∧ k.current = some it ∧ k.e.kind = kind ∧ s.heddleRuns = true ∧ s.fld (instStateF k.e.inst) = 1 ∧ s.mayIssue ch k = true ∧
    s.moveTokens k it = true ∧ s.belay.moveShots = [] ∧ s.hinst k.e.inst = some inst ∧ inst.gMode = 0 ∧
    it.done = 0 ∧ 0 < it.len ∧ s.QuietMemory ∧ s.flag F.L3_CFG_HEDDLE_ALLOC = false

/-- The next item of channel `c`, at ring index HEAD, may be read: it lies in one line of main memory. -/
def State.NextItem (s : State) (c : Nat) (k : HeddleChannel) (inst : HeddleInstance) : Prop :=
  s.hch c = some k ∧ s.mayFetch c k = true ∧ k.items = [] ∧ k.e.kind ≤ 1 ∧ k.head < k.size ∧ k.tail < k.size ∧ k.head ≠ k.tail ∧
    s.hinst k.e.inst = some inst ∧ inst.gMode = 0 ∧ s.inMain (k.itemAt k.head) 32 = true ∧ k.itemAt k.head % 64 ≤ 32 ∧ s.QuietMemory

/-- The oldest item of channel `c`, the only one left, executes and has its status, and no record waits (R397, R402). -/
def State.LastItem (s : State) (c : Nat) (k : HeddleChannel) (it : HeddleItem) (st detail : Nat) : Prop :=
  s.hch c = some k ∧ k.items = [it] ∧ it.running = true ∧ it.status = some (st, detail) ∧ it.clamp = 0 ∧ k.waiting = [] ∧ k.dropping = false ∧
    k.state = 2 ∧ k.e.kind ≠ 7

/-- The end of an item has changed nothing of Heddle but channel `c`, the queues, and the transactions that came home. -/
def State.OnlyItemEnd (s t : State) (c : Nat) : Prop :=
  OtherChannels s t c ∧ t.heddle = { s.heddle with ch := t.heddle.ch, cq := t.heddle.cq, inst := t.heddle.inst, iotlbWait := t.heddle.iotlbWait }

/-- The record of an item has its place in a queue `q` with space, in main memory outside MRAM that nothing has disturbed. -/
def State.RecordFits (s : State) (n : Nat) (q : HeddleQueue) (inst : HeddleInstance) : Prop :=
  s.hcq n = some q ∧ q.full = false ∧ s.hinst q.inst = some inst ∧ inst.gMode = 0 ∧ s.inMain (q.base + 16 * q.tail) 16 = true ∧
    (q.base + 16 * q.tail) % 16 = 0 ∧ inMram (q.base + 16 * q.tail) = false ∧ s.QuietMemory ∧ s.flag F.L3_CFG_HEDDLE_ALLOC = false

/-- R424: channel `c`, of an instance without translation, works on CODEC item `it` of operation `op`, of which no block is done yet; the
mover's order selects the channel and leaves it a transaction (R353, R354), and the bytes it reads and may write lie in main memory, the written ones outside MRAM. -/
def State.CodecWork (s : State) (c : Nat) (k : HeddleChannel) (it : HeddleItem) (op : Nat) : Prop :=
  s.itemOf c 5 = some (k, it) ∧ s.running P.BOBBIN = true ∧ s.resetting P.BOBBIN = false ∧ s.bobTakes c k = true ∧ s.belay.moveShots = [] ∧
    s.bobJob c = none ∧ it.op = op ∧ it.done = 0 ∧ it.bytes = 0 ∧ (s.hinst k.e.inst).map (fun v => v.gMode) = some 0 ∧ s.QuietMemory ∧ s.flag F.L3_CFG_HEDDLE_ALLOC = false ∧
    s.inMain it.src it.len = true ∧ s.inMain it.dst (it.param % 2 ^ 24) = true ∧ inMram it.dst = false

/-- Instance `i` does not translate, and the `n` bytes from `a` are main memory outside MRAM that nothing has disturbed. -/
def State.PlainRange (s : State) (i a n : Nat) : Prop :=
  (s.hinst i).map (fun v => v.gMode) = some 0 ∧ s.QuietMemory ∧ s.flag F.L3_CFG_HEDDLE_ALLOC = false ∧ s.inMain a n = true ∧ inMram a = false

/-- R464, R465: it is the turn of pipe `n`, behind a usable hub port, which is to do work of operation `op` for channel `c`. -/
def State.PipeTurn (s : State) (n c : Nat) (k : HeddleChannel) (it : HeddleItem) (op : Nat) : Prop :=
  s.PortWork 7 (0x40 + n) c k it ∧ s.usbLive P.USBH = true ∧ s.pipeBlocked n = none ∧ s.mayToken n = true ∧ it.op = op ∧ it.param < 2 ∧
    (s.pipeCfg n).viaTt = false ∧ (s.pipeCfg n).port ≠ 0 ∧ (s.pipe n).ping = false

/-- R549, R555: channel `c` works on CRYPTO item `it` of operation `op` at port `port`, whose page runs and whose self-tests neither run nor
have failed; what the item reads and may write, at most `n` bytes, is undisturbed main memory. -/
def State.CryptoWork (s : State) (c : Nat) (k : HeddleChannel) (it : HeddleItem) (port op n : Nat) : Prop :=
  s.itemOf c 6 = some (k, it) ∧ k.e.port = port ∧ it.op = op ∧ s.running (engineOf port).page = true ∧ s.resetting (engineOf port).page = false ∧
    s.flag (engineOf port).katBusy = false ∧ s.flag (engineOf port).katFail = false ∧ s.PlainRange k.e.inst it.src it.len ∧
    s.PlainRange k.e.inst it.dst n

/-- R549: an engine has ended an item with `st` and `detail`, counted it, and reports the channel. -/
def State.EngineEnds (s t : State) (g : Engine) (c idx st detail : Nat) : Prop :=
  t.itemStatus c idx = some (st, detail) ∧ t.fld g.items = min (2 ^ g.items.width - 1) (s.fld g.items + 1) ∧ t.fld g.ch = c

/-- R553: how a PKA item ends whose job answers `r`: its output is written from DST on, and a key it has made is in its slot; or the item ends
with the DETAIL and writes nothing. -/
def State.PkaEnds (s t : State) (c : Nat) (it : HeddleItem) (j : PkaJob) (r : Except Nat PkaOut) : Prop :=
  match r with
  | .ok o => o.bytes.length ≤ 144 → s.EngineEnds t Engine.pka c it.index 0 0 ∧ t.bytesAt it.dst o.bytes.length = o.bytes ∧
      KeepsMemBut s t it.dst o.bytes.length ∧
      (match o.key, j.slot with
       | some d, some n => t.slot n = some ⟨BitVec.ofNat 256 (leNat d), 8#4⟩
       | _, _ => t.sec.slots = s.sec.slots)
  | .error d => s.EngineEnds t Engine.pka c it.index 4 d ∧ KeepsMem s t ∧ t.sec.slots = s.sec.slots

/-- R292, R297, R321: an NI that makes requests and is clocked is handed a request to another NI, within one line. -/
def State.Requests (s : State) (k : LoomPacket) (target : Nat) : Prop :=
  niInitiator k.ini.val = true ∧ k.ini ≠ 10 ∧ niTarget target = true ∧ target ≠ k.ini.val ∧ s.niClocked k.ini.val = true ∧
    lineOf k.addr.toNat = lineOf (k.addr.toNat + k.len.val)

/-- SEQ of the next request of a source to a destination (R295). -/
def State.nextSeq (s : State) (i t : Nat) (guar : Bool) : Nat := SMap.get (fun _ => 0) s.loom.sent (seqKey i t guar)

/-- The one transaction outstanding is live, and its target has it, or takes it as the next in sequence (R295). -/
def State.OneTxn (s : State) (t0 : LoomTxn) : Prop :=
  s.loom.txns = [t0] ∧ t0.init < 16 ∧ t0.txid < 64 ∧ t0.target < 16 ∧ t0.abandoned = false ∧ t0.lost = false ∧
    (t0.arrived = true ∨ SMap.get (fun _ => 0) s.loom.seen (seqKey t0.init t0.target t0.guar) = t0.seq)

/-- No statistics are counted at an NI. -/
def State.Uncounted (s : State) (n : Nat) : Prop := s.flag (F.LOOM_NI_STAT_CFG_EN n) = false

/-- R295, R297: the requests of NI_10 for image lines have reached their homes in sequence. -/
def State.ImageInSequence (s : State) : Prop :=
  ∀ t ∈ [4, 5], SMap.get (fun _ => 0) s.loom.seen (seqKey 10 t false) = s.nextSeq 10 t false ∧ s.nextSeq 10 t false < 256

/-- A commit has changed nothing but registers, the shadow tables, the sequence numbers of its reads, the check blocks they found (R267), and
the answer. -/
def State.OnlyImage (s t : State) : Prop :=
  t = { s with regs := t.regs, fresh := t.fresh, resp := ⟨false, 0#64⟩, memory := { s.memory with checkBlocks := t.memory.checkBlocks },
               loom := { s.loom with shadow := t.loom.shadow, sent := t.loom.sent, seen := t.loom.seen } }

/-- No Loom probe runs. -/
def State.NoProbes (s : State) : Prop := ∀ i : Fin 8, s.running (P.LOOM_PROBE i.val) = false

/-- Channels other than `c`, the queues and the instances of Heddle are as they were. -/
def OnlyChannel (s t : State) (c : Nat) : Prop :=
  (∀ x : Fin 4096, x.val ≠ c → t.hch x.val = s.hch x.val) ∧ t.heddle = { s.heddle with ch := t.heddle.ch }

/-- R403, R437: a command that works on an item of channel `c` has changed nothing of Heddle but that channel, the transactions that its instance
has outstanding, by at most one, and whose turn it is. -/
def OnlyWork (s t : State) (c : Nat) : Prop :=
  OtherChannels s t c ∧ t.heddle = { s.heddle with ch := t.heddle.ch, inst := t.heddle.inst, moved := t.heddle.moved } ∧
    (∀ i : Fin 32, t.hinst i.val = s.hinst i.val ∨
      (s.hch c).map (fun k => k.e.inst) = some i.val ∧ t.hinst i.val = (s.hinst i.val).map (fun v => { v with out := v.out + 1 }))

/-- R571: Belay, which runs no self-test and copies no log to MRAM, answers a fault of `source` with SIGNAL alone. -/
def State.SignalsOnly (s : State) (source : Nat) : Prop :=
  s.belay.test = none ∧ s.flag F.BELAY_LOG_CTRL_EN = false ∧ s.fld (F.BELAY_REACT_REACT source) = 0 ∧ ∀ e ∈ s.belay.cls, e.2 ≤ 4

/-- R571, R572, R574: Belay has signalled the fault `g`: its PEND bit, the class held for its source and the highest class, the count and the
notices, FAULT_N for a class above 2 that Scree does not keep quiet, and a log entry, the next in order, in BELAY_LAST_n. -/
def State.Signalled (s t : State) (g : FaultInput) : Prop :=
  (t.raw R.BELAY_PEND).getLsbD g.source = true ∧
    SMap.get (fun _ => 0) t.belay.cls g.source = max g.cls (SMap.get (fun _ => 0) s.belay.cls g.source) ∧
    t.fld F.BELAY_STAT_HIGHEST = t.belay.cls.foldl (fun m e => max m e.2) 0 ∧
    (3 ≤ g.cls → (g.injected || s.perturbed) = false → t.flag F.BELAY_STAT_FAULT = true ∧ t.belay.faultLow = true ∧ t.belay.holds.testBit g.source = true) ∧
    (3 ≤ g.cls → (g.injected || s.perturbed) = true → s.flag F.SCREE_CTRL_QUIET = true → t.flag F.BELAY_STAT_WOULD = true ∧ t.belay.holds = s.belay.holds) ∧
    t.fld F.BELAY_SIGNALLED_COUNT = min (2 ^ 16 - 1) (s.fld F.BELAY_SIGNALLED_COUNT + 1) ∧ (t.raw R.TETHER_ATTN).getLsbD 1 = true ∧
    t.event P.BELAY E.BELAY_SIGNALLED = true ∧ t.belay.seq = s.belay.seq + 1 ∧
    (∀ n : Fin 8, t.raw (R.BELAY_LAST n.val) = BitVec.ofNat 64 (leNat (slice (4 * n.val) 4
      (t.logBytes { g with injected := g.injected || s.perturbed } t.belay.seq true))))

/-- R562: the state with these readings of VIN, in mV, and of TJ. -/
def State.withReadings (s : State) (vin : BitVec 16) (tj : BitVec 9) : State := (s.setFld F.PWR_MON_VIN vin.toNat).setFld F.PWR_THERM_TJ tj.toNat

/-- R46: a write of `q` to the register at `a` has been refused as one clamp event, with this reason code and this detail in an empty log. -/
def State.Refused (s t : State) (q : Req) (a reason detail : Nat) : Prop :=
  let p := pageBase a
  t.event p 31 = true ∧ t.fld (F.CLAMP_COUNT_COUNT p) = min 65535 (s.fld (F.CLAMP_COUNT_COUNT p) + 1) ∧
    (s.flag (F.CLAMP_ADDR_VALID p) = true → t.raw (R.CLAMP_ADDR p) = s.raw (R.CLAMP_ADDR p) ∧ t.raw (R.CLAMP_KEPT p) = s.raw (R.CLAMP_KEPT p) ∧
      t.raw (R.CLAMP_WROTE p) = s.raw (R.CLAMP_WROTE p)) ∧
    (s.flag (F.CLAMP_ADDR_VALID p) = false → t.flag (F.CLAMP_ADDR_VALID p) = true ∧ t.fld (F.CLAMP_ADDR_OFFSET p) = a - p ∧
      t.fld (F.CLAMP_ADDR_REASON p) = reason ∧ t.fld (F.CLAMP_ADDR_INITIATOR p) = q.ni.val % 16 ∧ t.raw (R.CLAMP_KEPT p) = BitVec.ofNat 64 (detail % 2 ^ 32))

/-- R438, Table Instances-3: the manager's command `op` of `q` has been refused with this reason and detail, and nothing else has changed. -/
def State.CommandRefused (s t : State) (q : Req) (op reason detail : Nat) : Prop :=
  s.Refused t q R.HEDDLE_MGMT_CMD reason detail ∧ t.fld F.HEDDLE_MGMT_CMD_STAT_LAST_OP = op ∧ t.fld F.HEDDLE_MGMT_CMD_STAT_LAST_REASON = reason ∧
    t.event P.HEDDLE_MGMT E.HEDDLE_MGMT_CMD_REFUSED = true ∧ KeepsRegs s t (R.HEDDLE_MGMT_CMD_STAT :: logRegs P.HEDDLE_MGMT) ∧
    t = { s with regs := t.regs, resp := ⟨false, 0#64⟩ }

/-- R581: a one-shot of Scree has acted, named by the offset of its register. -/
def State.ShotActed (s t : State) (off : Nat) : Prop :=
  t.fld F.SCREE_LAST_OFFSET = off ∧ t.fld F.SCREE_COUNT_COUNT = min (2 ^ 16 - 1) (s.fld F.SCREE_COUNT_COUNT + 1) ∧
    t.event P.SCREE E.SCREE_INJECTED = true

/-- The registers and the memory are in their canonical form: keys rise, and nothing is listed at the value it has unlisted. -/
def State.Canonical (s : State) : Prop := SMap.wf resetWord s.regs = true ∧ Memory.wf s.mem = true

/-- A command that neither stops nor leaves the canonical form. -/
def SafeFrom (c : Instr) (s : State) : Prop := ∃ t, exec c s = .next t ∧ t.Canonical

end Sys2Proof.Machine
end

