-- ==== Sys2Proof/Certificates/Slice0/Obligations.lean ====
section
/-! DEFINITION. The statements for the provers: every family of commands and every kind of state, from the rules of spec/. -/
open Sys2Proof Sys2Proof.Machine

/-- A step takes the command in front; the tick on an empty queue is the model's choice (assumption log 3). -/
def Obligations.StepRunsTheCommandInFront : Prop :=
  (∀ (c : Instr) (s : State) (rest : List Instr), s.pending = c :: rest → step s = exec c { s with pending := rest }) ∧
  (∀ s : State, s.pending = [] → step s = .next s.elapse)

/-- State.reset; where the tables give no value, the values are those of assumption log 1. -/
def Obligations.ResetIsCanonicalAndIdle : Prop :=
  State.reset.Canonical ∧ State.reset.TablesKeyed ∧ State.reset.pending = [] ∧ State.reset.mem = [] ∧ State.reset.held = [] ∧
    (∀ h : Fin 4, State.reset.hart h.val = Hart.reset 0) ∧
    (∀ a : Nat, a ∉ [R.SYSCFG_MODE, R.SYSCFG_RESET_CAUSE, R.SYSCFG_DEBUG_EN] → State.reset.raw a = resetWord a)

/-- No command stops, and none touches the queue or the ordering code. -/
def Obligations.EveryCommandAnswersAndKeepsTheQueue : Prop :=
  ∀ (c : Instr) (s : State), ∃ t, exec c s = .next t ∧ t.pending = s.pending ∧ t.code4G = s.code4G

/-- The invariant that every step keeps: equal registers and equal memories are equal data. -/
def Obligations.StepKeepsCanonical : Prop := ∀ s t : State, s.Canonical → step s = .next t → t.Canonical

/-- REGISTER_WRITE, REGISTER_BUS_ERROR, READ_CLEAR, EVT_SET, EVT_RAW_CLEAR, PAGE_ENABLE, BLOCK_ENABLED, SOFT_RESET,
SOFT_RESET_COMPLETE and PAGE_LOCK. -/
def Obligations.RegisterPageAccesses : Prop :=
  (∀ (s : State) (q : Req) (n : Fin 16) (v : Word), OpenTo s q P.PWR →
    ∃ t, exec (.registerWrite q (BitVec.ofNat 40 (R.PWR_RETAIN n.val)) .w (v.zeroExtend 64)) s = .next t ∧
      t.fld (F.PWR_RETAIN_DATA n.val) = v.toNat ∧ t.resp = ⟨false, 0#64⟩ ∧
      KeepsRegs s t ([R.PWR_RETAIN n.val] ++ logRegs P.PWR) ∧ t = { s with regs := t.regs, resp := t.resp }) ∧
--w State.reset; ⟨3, true⟩; 15; 0xDEADBEEF
  (∀ (s : State) (q : Req) (a : BitVec 40), 0x10000000 ≤ a.toNat → a.toNat < 0x20000000 → inDoorbell a.toNat = false →
      (pageListed a.toNat = false ∨ (pageMachine a.toNat = true ∧ q.priv = false)) →
    ∃ t, exec (.registerBusError q a) s = .next t ∧ t = { s with resp := ⟨true, 0#64⟩ }) ∧
--w State.reset; ⟨3, false⟩; 0x10000040
--w State.reset; ⟨3, true⟩; 0x1FFFFFFF
  (∀ (s : State) (q : Req) (page : Fin 70) (v : Word), OpenTo s q (pageAt page) →
    ∃ t, exec (.registerWrite q (BitVec.ofNat 40 (R.EVT_EN (pageAt page))) .w (v.zeroExtend 64)) s = .next t ∧
      (∀ b : Fin 32, (t.raw (R.EVT_EN (pageAt page))).getLsbD b.val =
        (if eventDefined (pageAt page) b.val then v.getLsbD b.val else (s.raw (R.EVT_EN (pageAt page))).getLsbD b.val)) ∧
      t.resp = ⟨false, 0#64⟩ ∧ KeepsRegs s t ([R.EVT_EN (pageAt page)] ++ logRegs (pageAt page)) ∧
      t = { s with regs := t.regs, resp := t.resp }) ∧
--w State.reset; ⟨3, true⟩; 69; 0xFFFFFFFF
--w State.reset; ⟨3, true⟩; 0; 1
  (∀ (s : State) (q : Req) (a : BitVec 40) (size : Size) (v : DWord), 0x10000000 ≤ a.toNat → a.toNat < 0x20000000 →
      inDoorbell a.toNat = false → (pageListed a.toNat = false ∨ (pageMachine a.toNat = true ∧ q.priv = false)) →
    ∃ t, exec (.registerWrite q a size v) s = .next t ∧ t = { s with resp := ⟨true, 0#64⟩ } ∧ exec (.readClear q a size) s = .next t) ∧
--w State.reset; ⟨3, false⟩; 0x10000040; .d; 5
--w State.reset; ⟨3, true⟩; 0x1FFFFFFF; .b; 7
  (∀ (s : State) (q : Req) (page : Fin 70), (pageMachine (pageAt page) = true → q.priv = true) →
    ∃ t, exec (.readClear q (BitVec.ofNat 40 (R.CLAMP_COUNT (pageAt page))) .w) s = .next t ∧
      t.resp = ⟨false, s.raw (R.CLAMP_COUNT (pageAt page))⟩ ∧ t.fld (F.CLAMP_COUNT_COUNT (pageAt page)) = 0 ∧
      t.fld (F.CLAMP_COUNT_SAT (pageAt page)) = 0 ∧ KeepsRegs s t [R.CLAMP_COUNT (pageAt page)] ∧
      t = { s with regs := t.regs, resp := t.resp }) ∧
--w State.reset.setReg (R.CLAMP_COUNT P.PWR) 0x8000FFFF; ⟨3, true⟩; 1
--w State.reset.setReg (R.CLAMP_COUNT P.OSPI) 0x3; ⟨3, true⟩; 69
  (∀ (s : State) (q : Req) (page : Fin 70) (v : Word), OpenTo s q (pageAt page) →
    ∃ t, exec (.evtSet q page v) s = .next t ∧
      (∀ b : Fin 31, t.event (pageAt page) b.val = (s.event (pageAt page) b.val || (v.getLsbD b.val && eventDefined (pageAt page) b.val))) ∧
      ((∀ b : Fin 32, v.getLsbD b.val = true → eventDefined (pageAt page) b.val = true) →
        t.event (pageAt page) 31 = (s.event (pageAt page) 31 || v.getLsbD 31) ∧ KeepsRegs s t [R.EVT_RAW (pageAt page)]) ∧
      ((∃ b : Fin 32, v.getLsbD b.val = true ∧ eventDefined (pageAt page) b.val = false) → t.event (pageAt page) 31 = true) ∧
      t.resp = ⟨false, 0#64⟩ ∧
      KeepsRegs s t (logRegs (pageAt page)) ∧ t = { s with regs := t.regs, resp := t.resp }) ∧
--w State.reset; ⟨3, true⟩; 69; 0x80000000
--w State.reset; ⟨3, true⟩; 0; 0x80000000
  (∀ (s : State) (q : Req) (page : Fin 70) (v : Word), OpenTo s q (pageAt page) →
      (∀ b : Fin 32, v.getLsbD b.val = true → eventDefined (pageAt page) b.val = true) →
    ∃ t, exec (.evtRawClear q page v) s = .next t ∧
      (∀ b : Fin 32, t.event (pageAt page) b.val = (s.event (pageAt page) b.val && ! v.getLsbD b.val)) ∧
      t.flag (F.CLAMP_ADDR_VALID (pageAt page)) = (s.flag (F.CLAMP_ADDR_VALID (pageAt page)) && ! v.getLsbD 31) ∧ t.resp = ⟨false, 0#64⟩ ∧
      KeepsRegs s t [R.EVT_RAW (pageAt page), R.CLAMP_ADDR (pageAt page)] ∧ t = { s with regs := t.regs, resp := t.resp }) ∧
--w State.reset.setReg (R.EVT_RAW P.OSPI) 0xFFFFFFFF; ⟨3, true⟩; 69; 0x80000000
--w State.reset.setReg (R.EVT_RAW P.OSPI) 0xFFFFFFFF; ⟨3, true⟩; 69; 1
  (∀ (s : State) (q : Req) (page : Fin 70) (v : Word), OpenTo s q (pageAt page) →
      (∃ b : Fin 32, v.getLsbD b.val = true ∧ eventDefined (pageAt page) b.val = false) →
    ∃ t, exec (.evtRawClear q page v) s = .next t ∧
      (∀ b : Fin 31, eventDefined (pageAt page) b.val = true → t.event (pageAt page) b.val = (s.event (pageAt page) b.val && ! v.getLsbD b.val)) ∧
      t.event (pageAt page) 31 = true ∧ t.flag (F.CLAMP_ADDR_VALID (pageAt page)) = true ∧ t.resp = ⟨false, 0#64⟩ ∧
      KeepsRegs s t (logRegs (pageAt page)) ∧ t = { s with regs := t.regs, resp := t.resp }) ∧
--w State.reset; ⟨3, true⟩; 69; 0x7FFFFFFF
  (∀ (s : State) (q : Req) (page : Fin 70) (on : Bool), s.pageLocked (pageAt page) = false → OpenTo s q (pageAt page) →
      (enableFixed (pageAt page) = true → s.flag (F.PAGE_CTRL_ENABLE (pageAt page)) = true) →
    ∃ t, exec (.pageEnable q page on) s = .next t ∧
      t.flag (F.PAGE_CTRL_ENABLE (pageAt page)) = (on || enableFixed (pageAt page) || (! on && s.wdogHolds (pageAt page) 0#64)) ∧
      t.resp = ⟨false, 0#64⟩ ∧ KeepsRegs s t ([R.PAGE_CTRL (pageAt page)] ++ logRegs (pageAt page)) ∧
      t = { s with regs := t.regs, resp := t.resp }) ∧
--w State.reset; ⟨3, true⟩; 43; true
--w State.reset; ⟨3, true⟩; 0; false
--w State.reset.setFld (F.PAGE_CTRL_ENABLE P.OSPI) 1; ⟨3, true⟩; 69; false
  (∀ (s : State) (page : Fin 70), s.flag (F.PAGE_CTRL_ENABLE (pageAt page)) = true → s.running (pageAt page) = false →
      s.mayRun (pageAt page) = true →
    ∃ t, exec (.blockEnabled page) s = .next t ∧ t.running (pageAt page) = true ∧ KeepsMem s t ∧ t.harts = s.harts ∧ t.power = s.power) ∧
--w ((State.reset.setFld (F.PAGE_CTRL_ENABLE P.USBD) 1).setFld F.CLK_USB_PLL_EN 1).setFld F.CLK_STAT_LOCK 31; 46
--w State.reset.setFld (F.PAGE_CTRL_ENABLE P.OSPI) 1; 69
  (∀ (s : State) (page : Fin 70), s.flag (F.PAGE_CTRL_ENABLE (pageAt page)) = false → s.running (pageAt page) = true →
      s.resetting (pageAt page) = true →
    ∃ t, exec (.blockEnabled page) s = .next t ∧ t.running (pageAt page) = false ∧ KeepsMem s t) ∧
--w (State.reset.setFld (F.PAGE_STAT_ENABLED P.OSPI) 1).setFld (F.PAGE_STAT_RESETTING P.OSPI) 1; 69
  (∀ (s : State) (page : Fin 70), s.flag (F.PAGE_CTRL_ENABLE (pageAt page)) = true → s.running (pageAt page) = false →
      s.mayRun (pageAt page) = false →
    ∃ t, exec (.blockEnabled page) s = .next t ∧ t = s) ∧
--w (State.reset.setFld (F.PAGE_CTRL_ENABLE P.USBD) 1).setFld F.CLK_STAT_LOCK 15; 46
  (∀ (s : State) (q : Req) (n : Fin 8), OpenTo s q (P.LOOM_PROBE n.val) → s.pageLocked (P.LOOM_PROBE n.val) = false →
    ∃ t, exec (.softReset q ⟨30 + n.val, by omega⟩) s = .next t ∧ t.resetting (P.LOOM_PROBE n.val) = true ∧
      (∀ o : Fin 0xFC0, t.raw (P.LOOM_PROBE n.val + 0x40 + o.val) = resetWord (P.LOOM_PROBE n.val + 0x40 + o.val)) ∧
      (∀ b : Fin 31, t.event (P.LOOM_PROBE n.val) b.val = false) ∧
      t.raw (R.EVT_EN (P.LOOM_PROBE n.val)) = s.raw (R.EVT_EN (P.LOOM_PROBE n.val)) ∧
      t.raw (R.CLAMP_COUNT (P.LOOM_PROBE n.val)) = s.raw (R.CLAMP_COUNT (P.LOOM_PROBE n.val)) ∧
      KeepsPages s t [P.LOOM_PROBE n.val] ∧ t = { s with regs := t.regs, resp := t.resp }) ∧
--w (State.reset.setReg (R.LOOM_PROBE_CTRL 7) 1).setReg (R.EVT_RAW (P.LOOM_PROBE 7)) 3; ⟨3, true⟩; 7
  (∀ (s : State) (q : Req) (page : Fin 70), OpenTo s q (pageAt page) → s.pageLocked (pageAt page) = false → softResettable (pageAt page) = true →
      s.wdogHolds (pageAt page) 0#64 = false →
    ∃ t, exec (.softReset q page) s = .next t ∧ t.resetting (pageAt page) = true ∧
      (∀ b : Fin 31, t.event (pageAt page) b.val = false) ∧ t.flag (F.PAGE_CTRL_ENABLE (pageAt page)) = s.flag (F.PAGE_CTRL_ENABLE (pageAt page)) ∧
      t.raw (R.EVT_EN (pageAt page)) = s.raw (R.EVT_EN (pageAt page)) ∧ t.resp = ⟨false, 0#64⟩) ∧
--w on (State.reset.setReg (R.EVT_RAW P.OSPI) 3) P.OSPI; ⟨3, true⟩; 69
  (∀ (s : State) (page : Fin 70), s.resetting (pageAt page) = true → s.running (pageAt page) = false → s.held = [] →
    ∃ t, exec (.softResetComplete page) s = .next t ∧ t.resetting (pageAt page) = false ∧
      KeepsRegs s t [R.PAGE_STAT (pageAt page)] ∧ t = { s with regs := t.regs }) ∧
--w State.reset.setFld (F.PAGE_STAT_RESETTING P.OSPI) 1; 69
  (∀ (s : State) (q : Req) (page : Fin 70), OpenTo s q (pageAt page) → s.pageLocked (pageAt page) = false →
    ∃ t, exec (.pageLock q page false) s = .next t ∧ t.pageLocked (pageAt page) = true ∧ t.resp = ⟨false, 0#64⟩ ∧
      t.event P.PITON E.PITON_LOCK_SET = true ∧ (AMap.get? t.belay.crc page.val).isSome = true ∧
      KeepsRegs s t ([R.PITON_PAGE_LOCK (page.val / 32), R.EVT_RAW P.PITON, F.BELAY_CRC_STAT_PAGES.reg] ++ [R.PAGE_CTRL (pageAt page)] ++ logRegs (pageAt page)) ∧
      t = { s with regs := t.regs, resp := t.resp, belay := t.belay }) ∧
--w State.reset; ⟨3, true⟩; 69
--w State.reset; ⟨3, true⟩; 43
  (∀ (s : State) (q : Req) (page : Fin 70), OpenTo s q P.PITON → s.pageLocked (pageAt page) = false →
    ∃ t, exec (.pageLock q page true) s = .next t ∧ t.pageLocked (pageAt page) = true ∧ t.resp = ⟨false, 0#64⟩ ∧
      t.event P.PITON E.PITON_LOCK_SET = true ∧ (AMap.get? t.belay.crc page.val).isSome = true ∧
      KeepsRegs s t [R.PITON_PAGE_LOCK (page.val / 32), R.EVT_RAW P.PITON, F.BELAY_CRC_STAT_PAGES.reg] ∧
      t = { s with regs := t.regs, resp := t.resp, belay := t.belay }) ∧
--w State.reset; ⟨3, true⟩; 69
--w { State.reset with belay := { BelayState.reset with crc := [(5, 7)] } }; ⟨3, true⟩; 5
  (∀ (s : State) (q : Req) (page : Fin 70), OpenTo s q P.PITON → s.pageLocked (pageAt page) = true →
    ∃ t, exec (.pageLock q page true) s = .next t ∧ t = { s with resp := ⟨false, 0#64⟩ })
--w State.reset.setFld ⟨R.PITON_PAGE_LOCK 2, 5, 1⟩ 1; ⟨3, true⟩; 69

/-- PORST_N_RELEASE, STRAP_LATCH, RSTOUT_N_RELEASE, BANK_WINDOW_EXIT and BANK_WINDOW_RETURN (R71, R76 to R78, R91, R92, R114). -/
def Obligations.ReleaseStrapsAndBanks : Prop :=
  (∀ (s : State) (g : Bool) (b : Fin 4), s.power.phase = .reset → s.power.awaitPorst = true → s.porReleases = true → s.resetHeld = false →
    ∃ t, exec (.porstNRelease g b) s = .next t ∧
      t.power = { s.power with phase := .run, awaitPorst := false, samples := [b2n g + 2 * b.val] } ∧
      ((s.fld F.PWR_THERM_WARN : Int) ≤ sext 9 (s.fld F.PWR_THERM_TJ) → t.flag F.PWR_STATE_FORCED_COOL = true) ∧
      ((s.fld F.PWR_THERM_WARN : Int) - 5 < sext 9 (s.fld F.PWR_THERM_TJ) → sext 9 (s.fld F.PWR_THERM_TJ) < (s.fld F.PWR_THERM_WARN : Int) →
        t.regs = s.regs) ∧
      KeepsRegs s t [R.PWR_THERM, R.PWR_STATE, R.EVT_RAW P.PWR] ∧ t = { s with regs := t.regs, power := t.power }) ∧
--w { State.reset with power := { PowerState.reset with phase := .reset, awaitPorst := true } }; true; 2
  (∀ (s : State) (g : Bool) (b : Fin 4), s.power.phase = .reset → s.power.awaitPorst = true → s.porReleases = true → s.resetHeld = true →
    ∃ t, exec (.porstNRelease g b) s = .next t ∧
      t = { s with power := { s.power with awaitPorst := false, samples := [b2n g + 2 * b.val] } }) ∧
--w { State.reset with power := { PowerState.reset with phase := .reset, awaitPorst := true, thermHold := true } }; true; 2
  (∀ (s : State) (g : Bool) (b : Fin 4), (s.power.phase ≠ .reset ∨ s.power.awaitPorst = false ∨ s.porReleases = false) →
    ∃ t, exec (.porstNRelease g b) s = .next t ∧ t = s) ∧
--w { State.reset with power := { PowerState.reset with phase := .reset, awaitPorst := true, vinUp := false } }; true; 2
  (∀ (s : State) (a : Nat) (g2 g3 : Bool) (b2 b3 : Fin 4), s.railsOn = true → s.power.samples = [a] →
    ∃ t, exec (.strapLatch g2 b2 g3 b3) s = .next t ∧
      t.fld F.BOOT_STRAP_BOOTSEL = maj3 a (b2n g2 + 2 * b2.val) (b2n g3 + 2 * b3.val) / 2 % 4 ∧
      t.flag F.BOOT_STRAP_LATCHED = true ∧
      (s.power.powerOn = true → t.flag F.SYSCFG_MODE_GUARDED =
          (s.flag F.BOOT_POLICY_GUARDED_FUSE || maj3 a (b2n g2 + 2 * b2.val) (b2n g3 + 2 * b3.val) % 2 == 1) ∧
        t.flag F.BOOT_STRAP_UNSTABLE = ! (a == b2n g2 + 2 * b2.val && a == b2n g3 + 2 * b3.val)) ∧
      (s.power.powerOn = false → t.raw R.SYSCFG_MODE = s.raw R.SYSCFG_MODE ∧ t.fld F.BOOT_STRAP_GUARD = s.fld F.BOOT_STRAP_GUARD ∧
        t.flag F.BOOT_STRAP_UNSTABLE = ! (a / 2 == b2.val && a / 2 == b3.val)) ∧
      (t.flag F.BOOT_STRAP_UNSTABLE = true → t.event P.BOOT E.BOOT_STRAP_UNSTABLE = true) ∧
      (t.flag F.BOOT_STRAP_UNSTABLE = false → t.raw (R.EVT_RAW P.BOOT) = s.raw (R.EVT_RAW P.BOOT)) ∧
      t.power = { s.power with samples := [] } ∧
      KeepsRegs s t [R.BOOT_STRAP, R.SYSCFG_MODE, R.EVT_RAW P.BOOT] ∧
      t = { s with regs := t.regs, power := t.power }) ∧
--w { State.reset with power := { PowerState.reset with samples := [3] } }; 3; true; false; 1; 3
--w { State.reset with power := { PowerState.reset with samples := [0], powerOn := false } }; 0; true; false; 1; 3
  (∀ s : State, s.power.phase = .run →
    ∃ t, exec .rstoutNRelease s = .next t ∧ t = { s with power := { s.power with rstoutN := true } }) ∧
--w State.reset
  (∀ (s : State) (b : Fin 4), s.railsOn = true →
    ∃ t, exec (.bankWindowExit b) s = .next t ∧ t.fld (bankFld b.val) = 0 ∧ t.event P.PWR E.PWR_BANK_WINDOW = true ∧ t.bankLive b.val = false ∧
      (s.ShuttleStill → KeepsRegs s t [R.PWR_OUT, R.EVT_RAW P.PWR] ∧ KeepsMem s t ∧
        (0 < b.val ∨ s.memory.lines = [] → t = { s with regs := t.regs }))) ∧
--w State.reset; 3
  (∀ (s : State) (b : Fin 4) (v33 : Bool), s.railsOn = true → s.fld (bankFld b.val) = 0 →
    ∃ t, exec (.bankWindowReturn b v33) s = .next t ∧ t.fld (bankFld b.val) = (if v33 then 2 else 1) ∧ t.bankLive b.val = true ∧
      (s.ShuttleStill → KeepsRegs s t [R.PWR_OUT] ∧ KeepsMem s t ∧ (0 < b.val ∨ s.memory.lines = [] → t = { s with regs := t.regs })))
--w State.reset.setFld F.PWR_OUT_BANK_C 0; 2; true

/-- PFAIL_ASSERT, PFAIL_CLEAR, GRACE_END, PFAIL_ARMED, THERM_HOT, THERM_TRIP, OUTPUT_LIMIT and LSE_LOSS. -/
def Obligations.SupplyWarningsAndLimits : Prop :=
  (∀ s : State, s.railsOn = true → s.power.pfail = false →
    ∃ t, exec .pfailAssert s = .next t ∧ t.power.pfail = true ∧ t.event P.PWR E.PWR_PFAIL = true ∧ (t.raw R.TETHER_ATTN).getLsbD 2 = true ∧
      t.power = { s.power with pfail := true, grace := t.power.grace } ∧
      (s.fld F.PWR_PFAIL_ACTION ≠ 0 → s.flag F.PWR_PFAIL_ARMED = true → s.power.grace = none → s.power.closing = none →
        t.power.grace = some (s.fld F.PWR_PFAIL_ACTION)) ∧
      (s.fld F.PWR_PFAIL_ACTION = 0 ∨ s.flag F.PWR_PFAIL_ARMED = false ∨ s.power.closing ≠ none → t.power.grace = s.power.grace) ∧
      t.flag F.MRAMC_QUEUE_DRAINING = (s.memory.mram.length != 0) ∧ t.memory = { s.memory with mramAhead := s.memory.mram.length } ∧
      KeepsRegs s t [R.EVT_RAW P.PWR, R.TETHER_ATTN, R.MRAMC_QUEUE] ∧ t = { s with regs := t.regs, power := t.power, memory := t.memory }) ∧
--w (State.reset.setFld F.PWR_PFAIL_ACTION 2).setFld F.PWR_PFAIL_ARMED 1
  (∀ s : State, s.railsOn = true → s.power.pfail = true →
    ∃ t, exec .pfailClear s = .next t ∧ t.power = { s.power with pfail := false, grace := none } ∧
      t.event P.PWR E.PWR_PFAIL_CLEAR = true ∧ KeepsRegs s t [R.EVT_RAW P.PWR] ∧ t = { s with regs := t.regs, power := t.power }) ∧
--w { State.reset with power := { PowerState.reset with pfail := true, grace := some 1 } }
  (∀ (s : State) (act : Nat), s.power.grace = some act →
    ∃ t, exec .graceEnd s = .next t ∧
      t.power = { s.power with grace := none, closing := some act, mramClosed := true, heddleStopped := true } ∧
      t.fld F.CLK_HART_GATED = 15 ∧ (∀ h : Fin 4, t.hart h.val = { s.hart h.val with running := false }) ∧
      KeepsRegs s t [F.CLK_HART_GATED.reg] ∧ t = { s with regs := t.regs, power := t.power, harts := t.harts }) ∧
--w { State.reset with power := { PowerState.reset with grace := some 2 } }; 2
  (∀ s : State, s.power.phase = .run → s.power.pfail = false →
    ∃ t, exec .pfailArmed s = .next t ∧ t.flag F.PWR_PFAIL_ARMED = true ∧ KeepsRegs s t [R.PWR_PFAIL] ∧ t = { s with regs := t.regs }) ∧
--w State.reset
  (∀ (s : State) (tj : BitVec 9), s.power.phase = .run → s.power.thermHold = false → sext 9 tj.toNat < 112 →
      (s.fld F.PWR_THERM_WARN : Int) ≤ sext 9 tj.toNat →
    ∃ t, exec (.thermHot tj) s = .next t ∧ t.fld F.PWR_THERM_TJ = tj.toNat ∧ t.flag F.PWR_THERM_HOT = true ∧
      t.flag F.PWR_STATE_FORCED_COOL = true ∧ (s.fld F.CLK_HART_OP ≠ 1 → t.flag F.PWR_STATE_SWITCHING = true) ∧
      (s.flag F.PWR_THERM_HOT = false → t.event P.PWR E.PWR_THERM_HOT = true) ∧
      KeepsRegs s t [R.PWR_THERM, R.PWR_STATE, R.EVT_RAW P.PWR] ∧ t = { s with regs := t.regs }) ∧
--w State.reset; 106
  (∀ (s : State) (tj : BitVec 9), s.power.phase = .run → s.power.thermHold = false → sext 9 tj.toNat < 112 →
      sext 9 tj.toNat ≤ (s.fld F.PWR_THERM_WARN : Int) - 5 →
    ∃ t, exec (.thermHot tj) s = .next t ∧ t.fld F.PWR_THERM_TJ = tj.toNat ∧ t.flag F.PWR_THERM_HOT = false ∧
      t.flag F.PWR_STATE_FORCED_COOL = false ∧ KeepsRegs s t [R.PWR_THERM, R.PWR_STATE] ∧ t = { s with regs := t.regs }) ∧
--w State.reset.setFld F.PWR_THERM_HOT 1; 99
  (∀ (s : State) (tj : BitVec 9), s.railsOn = true → s.power.thermHold = false → 112 ≤ sext 9 tj.toNat →
    ∃ t, exec (.thermTrip tj) s = .next t ∧ t.power.phase = .reset ∧ t.power.thermHold = true ∧ t.power.cause = 6 ∧ t.power.rstoutN = false ∧
      t.fld F.SYSCFG_RESET_CAUSE_CAUSE = 64 ∧ t.flag F.PWR_STATE_THERM_TRIP = true ∧ t.fld F.PWR_THERM_TJ = tj.toNat ∧
      (∀ h : Fin 4, t.hart h.val = { Hart.reset 0 with resetHalt := (s.hart h.val).resetHalt }) ∧ s.BlocksReset t ∧
      (s.memory.stale = [] → s.memory.dmc = [] → KeepsMem s t) ∧ t.pending = s.pending ∧ t.code4G = s.code4G) ∧
--w State.reset; 112
  (∀ (s : State) (tj : BitVec 9), s.railsOn = true → s.power.thermHold = true →
    ∃ t, exec (.thermTrip tj) s = .next t ∧ t.fld F.PWR_THERM_TJ = tj.toNat ∧
      t.power = { s.power with thermHold := decide (100 < sext 9 tj.toNat) } ∧ KeepsRegs s t [R.PWR_THERM] ∧
      t = { s with regs := t.regs, power := t.power }) ∧
--w { State.reset with power := { PowerState.reset with phase := .reset, thermHold := true } }; 100
  (∀ (s : State) (v18 on : Bool), s.railsOn = true →
    ∃ t, exec (.outputLimit v18 on) s = .next t ∧ t.flag (if v18 then F.PWR_OUT_V1V8_OC else F.PWR_OUT_V3V3_OC) = on ∧
      (on = true → t.event P.PWR (if v18 then E.PWR_V1V8_OC else E.PWR_V3V3_OC) = true) ∧
      (on = false → t.raw (R.EVT_RAW P.PWR) = s.raw (R.EVT_RAW P.PWR)) ∧
      KeepsRegs s t [R.PWR_OUT, R.EVT_RAW P.PWR] ∧ t = { s with regs := t.regs }) ∧
--w State.reset; true; true
--w State.reset; false; true
--w State.reset.setFld F.PWR_OUT_V3V3_OC 1; false; false
  (∀ (s : State) (back : Bool), (back = true ∨ s.power.phase ≠ .run ∨ s.flag F.CLK_MON_CFG_LSE = false) →
    ∃ t, exec (.lseLoss back) s = .next t ∧ t.flag F.CLK_STAT_LSE_OK = back ∧
      t.flag F.CLK_STAT_AON_ON_RC = (decide (s.fld F.CLK_AON_SRC = 1) || (s.flag F.CLK_AON_AUTO && ! back)) ∧
      KeepsRegs s t [R.CLK_STAT] ∧ t = { s with regs := t.regs }) ∧
--w (State.reset.setFld F.CLK_AON_AUTO 1).setFld F.CLK_MON_CFG_LSE 0; false
--w State.reset; true
  (∀ s : State, s.power.phase = .run → s.flag F.CLK_MON_CFG_LSE = true →
    ∃ t, exec (.lseLoss false) s = .next t ∧ t.flag F.CLK_STAT_LSE_OK = false ∧
      t.flag F.CLK_STAT_AON_ON_RC = (decide (s.fld F.CLK_AON_SRC = 1) || s.flag F.CLK_AON_AUTO) ∧
      (t.fld F.CLK_MON_STAT_LOST).testBit 1 = true ∧ t.event P.CLK E.CLK_LSE_LOST = true ∧
      (s.SignalsOnly 25 → (t.raw R.BELAY_PEND).getLsbD 25 = true ∧ KeepsMem s t))
--w belayQuiet (State.reset.setFld F.CLK_MON_CFG_LSE 1)

/-- PORST_N_PULSE, UVLO_RISE, UVLO_FALL, AON_LOSS, HALTED_ENTRY, HALTED_RESTART, BIVOUAC_ENTRY and BIVOUAC_WAKE. What an entry into HALTED or
Bivouac leaves of MRAM writes still in progress is never asked: both wait until there are none. -/
def Obligations.SupplyLossAndReturn : Prop :=
  (∀ (s : State) (ns : BitVec 32), s.railsOn = true → 10000 ≤ ns.toNat →
    ∃ t, exec (.porstNPulse ns) s = .next t ∧ s.ResetBegun t 1 [] ∧ t.power.awaitPorst = true) ∧
--w State.reset; 10000
--w { State.reset with power := { PowerState.reset with phase := .reset } }; 0xFFFFFFFF
  (∀ (s : State) (ns : BitVec 32), s.railsOn = true → 1000 ≤ ns.toNat → ns.toNat < 10000 →
    ∃ t, exec (.porstNPulse ns) s = .next t ∧
      (t = { s with fresh := s.fresh + 1 } ∨ ({ s with fresh := s.fresh + 1 } : State).ResetBegun t 1 [])) ∧
--w State.reset; 1000
--w State.reset; 9999
  (∀ (s : State) (ns : BitVec 32), (s.railsOn = false ∨ ns.toNat < 1000) →
    ∃ t, exec (.porstNPulse ns) s = .next t ∧ t = s) ∧
--w State.reset; 999
--w { State.reset with power := { PowerState.reset with phase := .off } }; 10000
  (∀ s : State, s.power.phase = .off → s.power.vinUp = false →
    ∃ t, exec .uvloRise s = .next t ∧ t.power.phase = .reset ∧
      t.power = { s.power with vinUp := true, phase := .reset, cause := 0, powerOn := true, awaitPorst := true, pwrGood := true, fromBivouac := false } ∧
      t.fld F.SYSCFG_RESET_CAUSE_CAUSE = 1 ∧ KeepsRegs s t [R.SYSCFG_RESET_CAUSE] ∧
      t = { s with regs := t.regs, power := t.power }) ∧
--w { State.reset with power := { PowerState.reset with phase := .off, vinUp := false } }
  (∀ s : State, s.power.phase = .bivouac → s.power.vinUp = false →
    ∃ t, exec .uvloRise s = .next t ∧
      t = { s with power := { s.power with vinUp := true, wakes := if s.flag F.PWR_WAKE_CFG_VIN_EN then s.power.wakes ||| 32 else s.power.wakes } }) ∧
--w { State.reset.setFld F.PWR_WAKE_CFG_VIN_EN 1 with power := { PowerState.reset with phase := .bivouac, vinUp := false } }
  (∀ s : State, s.power.phase ≠ .off → s.power.phase ≠ .bivouac → s.power.vinUp = false →
    ∃ t, exec .uvloRise s = .next t ∧ t = { s with power := { s.power with vinUp := true } }) ∧
--w { State.reset with power := { PowerState.reset with phase := .halted, vinUp := false } }
  (∀ s : State, s.power.vinUp = true → s.power.phase ≠ .bivouac →
    ∃ t, exec (.uvloFall true) s = .next t ∧ t.power.phase = .off ∧ t.power.vinUp = false ∧ t.power.vbatUp = true ∧ t.power.pfail = false ∧
      s.WentDark t []) ∧
--w (State.reset.putMem 0x01000000 [1#8]).putMem 0x08000000 [2#8]
  (∀ s : State, s.power.vinUp = true → s.power.phase ≠ .bivouac →
    ∃ t, exec (.uvloFall false) s = .next t ∧ t.power.phase = .off ∧ t.power.vinUp = false ∧ t.power.vbatUp = false ∧ t.power.wakes = 0 ∧
      t.power.rtcFraction = 0 ∧ (∀ h : Fin 4, t.hart h.val = Hart.reset 0) ∧ s.BlocksReset t ∧
      (∀ a, a ∉ R.CLK_STAT :: R.PWR_OUT :: latchedRegs → t.raw a &&& ~~~ measuredMask a = resetWord a &&& ~~~ measuredMask a) ∧
      (∀ a, 0x20000 ≤ a → inMram a = false → t.byteAt a = 0#8) ∧ t.pending = s.pending ∧ t.code4G = s.code4G) ∧
--w (State.reset.putMem 0x01000000 [1#8]).setFld F.RTC_COUNT_TICKS 5
  (∀ s : State, s.power.vinUp = true → s.power.phase = .bivouac →
    ∃ t, exec (.uvloFall true) s = .next t ∧ t = { s with power := { s.power with vinUp := false, vbatUp := true } }) ∧
--w { State.reset with power := { PowerState.reset with phase := .bivouac } }
  (∀ (s : State) (vbat : Bool), s.power.vinUp = false → ∃ t, exec (.uvloFall vbat) s = .next t ∧ t = s) ∧
--w { State.reset with power := { PowerState.reset with phase := .off, vinUp := false } }; true
  (∀ s : State, s.power.vinUp = false →
    ∃ t, exec .aonLoss s = .next t ∧ t.power = { s.power with phase := .off, vbatUp := false, wakes := 0, rtcFraction := 0 } ∧
      (∀ a, a ≠ R.CLK_STAT → t.raw a &&& (aonMask a &&& ~~~ measuredMask a) = resetWord a &&& (aonMask a &&& ~~~ measuredMask a) ∧
        t.raw a &&& (~~~ (aonMask a) ||| measuredMask a) = s.raw a &&& (~~~ (aonMask a) ||| measuredMask a)) ∧
      t = { s with regs := t.regs, power := t.power }) ∧
--w { State.reset.setFld F.RTC_COUNT_TICKS 9 with power := { PowerState.reset with phase := .bivouac, vinUp := false, wakes := 3 } }
  (∀ s : State, s.power.closing = some 1 → s.memory.mram = [] →
    ∃ t, exec .haltedEntry s = .next t ∧ t.power.phase = .halted ∧ t.power.pfail = true ∧ t.flag F.PWR_STATE_PFAIL_HALT = true ∧
      s.WentDark t [R.PWR_STATE]) ∧
--w { State.reset with power := { PowerState.reset with closing := some 1 } }
  (∀ s : State, (s.power.closing ≠ some 1 ∨ s.memory.mram ≠ []) → ∃ t, exec .haltedEntry s = .next t ∧ t = s) ∧
--w State.reset
  (∀ s : State, s.power.phase = .halted → s.power.vinUp = true →
    ∃ t, exec .haltedRestart s = .next t ∧
      t.power = { s.power with pfail := false, phase := .reset, cause := 7, powerOn := true, awaitPorst := true, pwrGood := true, fromBivouac := false } ∧
      t.fld F.SYSCFG_RESET_CAUSE_CAUSE = 128 ∧ KeepsRegs s t [R.SYSCFG_RESET_CAUSE] ∧
      t = { s with regs := t.regs, power := t.power }) ∧
--w { State.reset with power := { PowerState.reset with phase := .halted } }
  (∀ (s : State) (act : Fin 4), s.power.closing = some act.val → 2 ≤ act.val → s.memory.mram = [] →
    ∃ t, exec .bivouacEntry s = .next t ∧ t.power.phase = .bivouac ∧ t.power.pfail = false ∧ t.power.wakes = s.power.wakes ||| s.wakePinsUp ∧
      (act.val = 2 → t.flag F.PWR_WAKE_STAT_PFAIL_BIV = true) ∧ (act.val = 3 → t.raw R.PWR_WAKE_STAT = s.raw R.PWR_WAKE_STAT) ∧
      (∀ p : Fin 144, t.bankBall p.val = .floats) ∧ s.WentDark t [R.PWR_WAKE_STAT]) ∧
--w { State.reset with power := { PowerState.reset with closing := some 2 } }; 2
--w { State.reset with power := { PowerState.reset with closing := some 3 } }; 3
  (∀ s : State, s.power.closing = none → s.fld F.PWR_REQ_IDLE = 3 → s.mayStop = true → s.memory.mram = [] →
    ∃ t, exec .bivouacEntry s = .next t ∧ t.power.phase = .bivouac ∧ t.power.pfail = false ∧ t.power.wakes = s.power.wakes ||| s.wakePinsUp ∧
      t.raw R.PWR_WAKE_STAT = s.raw R.PWR_WAKE_STAT ∧ s.WentDark t []) ∧
--w { State.reset.setFld F.PWR_REQ_IDLE 3 with harts := Vector.replicate 4 { Hart.reset 0 with running := true, wfi := true } }
  (∀ s : State, s.power.closing = none → s.fld F.PWR_REQ_IDLE = 3 → s.mayStop = true → s.memory.mram ≠ [] →
    ∃ t, exec .bivouacEntry s = .next t ∧ t.flag F.PWR_REQ_PENDING = false ∧ t.fld F.CLK_HART_GATED = 15 ∧
      t.power = { s.power with closing := some 3, heddleStopped := true, grace := none } ∧ (∀ h : Fin 4, t.hart h.val = { s.hart h.val with running := false }) ∧
      KeepsRegs s t [R.PWR_REQ, F.CLK_HART_GATED.reg] ∧ t = { s with regs := t.regs, power := t.power, harts := t.harts }) ∧
--w { State.reset.setFld F.PWR_REQ_IDLE 3 with harts := Vector.replicate 4 { Hart.reset 0 with running := true, wfi := true }, memory := { MemState.reset with mram := [⟨0x08000000, 0, 5⟩] } }
  (∀ s : State, s.power.phase = .bivouac → s.power.wakes ≠ 0 → s.power.vinUp = true →
    ∃ t, exec .bivouacWake s = .next t ∧
      t.power = { s.power with wakes := 0, phase := .reset, cause := 0, powerOn := true, awaitPorst := true, pwrGood := true, fromBivouac := true } ∧
      t.fld F.RTC_WAKE_STAMP_STAMP = s.fld F.RTC_COUNT_TICKS ∧ t.fld F.SYSCFG_RESET_CAUSE_CAUSE = 1 ∧
      (s.flag F.PWR_SNAP_CTRL_COMPLETE = false → t.flag F.PWR_WAKE_STAT_COLD = true) ∧
      (∀ b : Fin 7, s.power.wakes.testBit b.val = true → (t.raw R.PWR_WAKE_STAT).getLsbD b.val = true) ∧
      KeepsRegs s t [R.PWR_WAKE_STAT, R.RTC_WAKE_STAMP, R.SYSCFG_RESET_CAUSE] ∧
      t = { s with regs := t.regs, power := t.power })
--w { State.reset with power := { PowerState.reset with phase := .bivouac, wakes := 16 } }

/-- RUN_POINT_CHANGE, OPPOINT_DONE, IDLE_REQUEST, DOZE_ENTRY, DOZE_WAKE, STOP_ENTRY, STOP_WAKE and WAKE_PIN. -/
def Obligations.PowerStateTransitions : Prop :=
  (∀ (s : State) (q : Req) (run : Fin 2), OpenTo s q P.PWR →
    ∃ t, exec (.runPointChange q run) s = .next t ∧ t.fld F.PWR_REQ_RUN = run.val ∧ t.fld F.PWR_REQ_IDLE = s.fld F.PWR_REQ_IDLE ∧
      (t.wantedPoint ≠ s.fld F.CLK_HART_OP → t.flag F.PWR_STATE_SWITCHING = true) ∧
      t.power = (if s.fld F.PWR_REQ_IDLE ≠ 3 ∧ s.power.closing = none ∧ s.fld F.PWR_STATE_CUR ≤ 1 then { s.power with wakes := 0 } else s.power) ∧
      t.resp = ⟨false, 0#64⟩ ∧ KeepsRegs s t ([R.PWR_REQ, R.PWR_STATE] ++ logRegs P.PWR) ∧
      t = { s with regs := t.regs, resp := t.resp, power := t.power }) ∧
--w State.reset; ⟨0, true⟩; 0
  (∀ s : State, s.flag F.PWR_STATE_SWITCHING = true →
    ∃ t, exec .oppointDone s = .next t ∧ t.flag F.PWR_STATE_SWITCHING = false ∧ t.fld F.CLK_HART_OP = s.wantedPoint ∧
      t.event P.PWR E.PWR_OPPOINT_DONE = true ∧ (s.fld F.PWR_STATE_CUR ≤ 1 → t.fld F.PWR_STATE_CUR = s.wantedPoint) ∧
      (2 ≤ s.fld F.PWR_STATE_CUR → t.fld F.PWR_STATE_CUR = s.fld F.PWR_STATE_CUR) ∧
      KeepsRegs s t [R.PWR_STATE, F.CLK_HART_OP.reg, R.EVT_RAW P.PWR] ∧ t = { s with regs := t.regs }) ∧
--w (State.reset.setFld F.PWR_STATE_SWITCHING 1).setFld F.PWR_REQ_RUN 0
  (∀ (s : State) (q : Req) (idle : Fin 4), OpenTo s q P.PWR →
    ∃ t, exec (.idleRequest q ⟨idle.val, by omega⟩) s = .next t ∧ t.fld F.PWR_REQ_IDLE = idle.val ∧
      t.fld F.PWR_REQ_RUN = s.fld F.PWR_REQ_RUN ∧ t.flag F.PWR_REQ_PENDING = (idle.val != 0 && s.power.closing.isNone) ∧
      t.power = (if idle.val ≠ 3 ∧ s.power.closing = none ∧ s.fld F.PWR_STATE_CUR ≤ 1 then { s.power with wakes := 0 } else s.power) ∧
      t.resp = ⟨false, 0#64⟩ ∧ KeepsRegs s t ([R.PWR_REQ, R.PWR_STATE] ++ logRegs P.PWR) ∧
      t = { s with regs := t.regs, resp := t.resp, power := t.power }) ∧
--w State.reset; ⟨1, true⟩; 2
--w { State.reset with power := { PowerState.reset with wakes := 4 } }; ⟨1, true⟩; 0
  (∀ s : State, s.power.phase = .run → s.fld F.PWR_REQ_IDLE = 1 → s.fld F.PWR_STATE_CUR ≤ 1 → s.allWfi = true →
    ∃ t, exec .dozeEntry s = .next t ∧ t.fld F.PWR_STATE_CUR = 2 ∧ t.flag F.PWR_REQ_PENDING = false ∧
      t.fld F.CLK_HART_GATED = 15 ∧ t.fld F.PWR_REQ_IDLE = 1 ∧ KeepsRegs s t [R.PWR_STATE, R.PWR_REQ, F.CLK_HART_GATED.reg] ∧
      t = { s with regs := t.regs }) ∧
--w { State.reset.setFld F.PWR_REQ_IDLE 1 with harts := Vector.replicate 4 { Hart.reset 0 with running := true, wfi := true } }
  (∀ s : State, s.power.phase = .run → s.fld F.PWR_STATE_CUR = 2 → s.power.closing = none →
      (s.power.wakes.testBit 4 = true ∨ s.visible.any (fun h => s.wakeCond h || s.localPending h) = true) →
    ∃ t, exec .dozeWake s = .next t ∧ t.fld F.PWR_STATE_CUR = s.fld F.CLK_HART_OP ∧ t.fld F.CLK_HART_GATED = 0 ∧
      t.flag F.PWR_REQ_PENDING = (s.fld F.PWR_REQ_IDLE != 0) ∧ t.power = { s.power with wakes := clearBits s.power.wakes 16 } ∧
      (∀ h : Fin 4, h.val ∈ s.visible → t.hart h.val = if s.wakeCond h.val || s.localPending h.val then (s.hart h.val).wake else s.hart h.val) ∧
      KeepsRegs s t [R.PWR_STATE, R.PWR_REQ, F.CLK_HART_GATED.reg] ∧
      t = { s with regs := t.regs, power := t.power, harts := t.harts }) ∧
--w { State.reset.setFld F.PWR_STATE_CUR 2 with power := { PowerState.reset with wakes := 16 } }
--w ((State.reset.modHart 2 (fun x => { x with running := true, wfi := true, csr := [(0x304, 0x80)] })).setFld F.PWR_STATE_CUR 2).setReg (R.TIMER_MTIMECMP 2) 0
  (∀ s : State, s.fld F.PWR_REQ_IDLE = 2 → s.mayStop = true →
    ∃ t, exec .stopEntry s = .next t ∧ t.fld F.PWR_STATE_CUR = 3 ∧ t.flag F.PWR_REQ_PENDING = false ∧
      t.fld F.CLK_HART_GATED = 15 ∧ t.flag F.DMC_SELFREF_IN_SR = true ∧ t.memory.lines = [] ∧
      t.power = { s.power with heddleStopped := true, wakes := s.power.wakes ||| s.wakePinsUp } ∧
      (∀ h : Fin 4, t.hart h.val = { Hart.reset 0 with resetHalt := (s.hart h.val).resetHalt, fenced := (s.hart h.val).fenced }) ∧
      (s.memory.lines = [] → s.memory.checkBlocks = [] →
        KeepsRegs s t [R.PWR_STATE, R.PWR_REQ, F.CLK_HART_GATED.reg, F.DMC_SELFREF_IN_SR.reg, F.DMC_SELFREF_ENTRIES.reg, F.DMC_SELFREF_SAT.reg] ∧
        t = { s with regs := t.regs, power := t.power, harts := t.harts }) ∧
      KeepsMem s t ∧ t.pending = s.pending ∧ t.code4G = s.code4G) ∧
--w { State.reset.setFld F.PWR_REQ_IDLE 2 with harts := Vector.replicate 4 { Hart.reset 0 with running := true, wfi := true, x := [(1, 5#64)] } }
  (∀ (s : State) (cs : Bool), s.power.phase = .run → s.fld F.PWR_STATE_CUR = 3 → s.power.closing = none → s.power.heldKicks = [] →
      (s.power.wakes ≠ 0 ∨ (cs = true ∧ s.bankLive 0 = true) ∨ s.stopCond = true) →
    ∃ t, exec (.stopWake cs) s = .next t ∧ t.fld F.PWR_STATE_CUR = s.fld F.CLK_HART_OP ∧ t.fld F.PWR_REQ_IDLE = 0 ∧
      t.fld F.CLK_HART_GATED = 0 ∧ t.flag F.DMC_SELFREF_IN_SR = false ∧ t.power = { s.power with wakes := 0, heddleStopped := false } ∧
      (∀ b : Fin 7, s.power.wakes.testBit b.val = true → (t.raw R.PWR_WAKE_STAT).getLsbD b.val = true) ∧
      (∀ h : Fin 4, h.val ∈ s.visible → (s.hart h.val).fenced = false → (s.hart h.val).resetHalt = false →
        t.hart h.val = { Hart.reset (256 * s.fld F.PWR_RESUME_ADDR) with running := true }) ∧
      (∀ h : Fin 4, (s.hart h.val).fenced = true → (t.hart h.val).running = false) ∧
      KeepsRegs s t [R.PWR_WAKE_STAT, R.PWR_STATE, R.PWR_REQ, F.CLK_HART_GATED.reg, F.DMC_SELFREF_IN_SR.reg] ∧
      t = { s with regs := t.regs, power := t.power, harts := t.harts, boot := t.boot, dm := { s.dm with haveReset := 15 } }) ∧
--w State.reset.setFld F.PWR_STATE_CUR 3; true
--w { State.reset.setFld F.PWR_STATE_CUR 3 with power := { PowerState.reset with wakes := 8 } }; false
  (∀ (s : State) (n : Fin 4) (level : Bool), s.aonFed = true → level = (s.fld F.PWR_WAKE_CFG_POL).testBit n.val →
    ∃ t, exec (.wakePin n level) s = .next t ∧ t.power.wakePins.testBit n.val = level ∧
      (∀ k : Fin 4, k ≠ n → t.power.wakePins.testBit k.val = s.power.wakePins.testBit k.val) ∧
      (s.power.phase = .run → t.event P.PWR E.PWR_WAKE_PIN = true) ∧
      t.power.wakes = (if s.latchesWakes ∧ (s.fld F.PWR_WAKE_CFG_WAKE_EN).testBit n.val then s.power.wakes ||| 2 ^ n.val else s.power.wakes) ∧
      t.power = { s.power with wakePins := t.power.wakePins, wakes := t.power.wakes } ∧
      KeepsRegs s t [R.EVT_RAW P.PWR] ∧ t = { s with regs := t.regs, power := t.power }) ∧
--w (State.reset.setFld F.PWR_STATE_CUR 3).setFld F.PWR_WAKE_CFG_WAKE_EN 15; 3; false
  (∀ (s : State) (n : Fin 4) (level : Bool), s.aonFed = true → level ≠ (s.fld F.PWR_WAKE_CFG_POL).testBit n.val →
    ∃ t, exec (.wakePin n level) s = .next t ∧ t.power.wakePins.testBit n.val = level ∧
      t = { s with power := { s.power with wakePins := t.power.wakePins } })
--w State.reset; 1; true

/-- SNAP_COMMIT, SNAP_DONE, SNAP_INVALIDATE, RTC_ALARM, RTC_PERIOD_EVENT, CLK_MEAS_START and MEAS_DONE. -/
def Obligations.SnapshotsRtcAndClockMeasurement : Prop :=
  (∀ (s : State) (q : Req) (n : Fin 65), OpenTo s q P.PWR → 1 ≤ n.val → s.fld F.PWR_SNAP_BASE_BASE + n.val ≤ 2048 →
    ∃ t, exec (.snapCommit q (BitVec.ofNat 8 n.val)) s = .next t ∧ t.flag F.PWR_SNAP_CTRL_BUSY = true ∧
      t.fld F.PWR_SNAP_CTRL_PAGES = n.val ∧ t.power = { s.power with snapWait := s.memory.mram.length } ∧ t.resp = ⟨false, 0#64⟩ ∧
      t.flag F.PWR_SNAP_CTRL_COMPLETE = s.flag F.PWR_SNAP_CTRL_COMPLETE ∧
      KeepsRegs s t ([R.PWR_SNAP_CTRL] ++ logRegs P.PWR) ∧ t = { s with regs := t.regs, resp := t.resp, power := t.power }) ∧
--w State.reset; ⟨2, true⟩; 64
  (∀ (s : State) (q : Req) (n : Fin 65), OpenTo s q P.PWR → 1 ≤ n.val → 2048 < s.fld F.PWR_SNAP_BASE_BASE + n.val →
    ∃ t, exec (.snapCommit q (BitVec.ofNat 8 n.val)) s = .next t ∧ t.event P.PWR 31 = true ∧
      (s.flag (F.CLAMP_ADDR_VALID P.PWR) = false → t.fld (F.CLAMP_ADDR_REASON P.PWR) = 1) ∧
      KeepsRegs s t (logRegs P.PWR) ∧ t = { s with regs := t.regs, resp := t.resp }) ∧
--w State.reset.setFld F.PWR_SNAP_BASE_BASE 2040; ⟨2, true⟩; 9
  (∀ s : State, s.flag F.PWR_SNAP_CTRL_BUSY = true → s.power.snapWait = 0 →
    ∃ t, exec .snapDone s = .next t ∧ t.flag F.PWR_SNAP_CTRL_BUSY = false ∧ t.flag F.PWR_SNAP_CTRL_COMPLETE = true ∧
      t.event P.PWR E.PWR_SNAP_DONE = true ∧ KeepsRegs s t [R.PWR_SNAP_CTRL, R.EVT_RAW P.PWR] ∧ t = { s with regs := t.regs }) ∧
--w State.reset.setFld F.PWR_SNAP_CTRL_BUSY 1
  (∀ (s : State) (q : Req), OpenTo s q P.PWR →
    ∃ t, exec (.snapInvalidate q) s = .next t ∧ t.flag F.PWR_SNAP_CTRL_COMPLETE = false ∧
      t.flag F.PWR_SNAP_CTRL_BUSY = s.flag F.PWR_SNAP_CTRL_BUSY ∧
      KeepsRegs s t ([R.PWR_SNAP_CTRL] ++ logRegs P.PWR) ∧ t = { s with regs := t.regs, resp := t.resp }) ∧
--w State.reset.setFld F.PWR_SNAP_CTRL_COMPLETE 1; ⟨2, true⟩
  (∀ s : State, s.aonTicks = true → s.flag F.RTC_CTRL_EN = true → s.flag F.RTC_CTRL_ALARM_EN = true →
    ∃ t, exec .rtcAlarm s = .next t ∧ t.flag F.RTC_STAT_ALARM = true ∧
      t.fld F.RTC_COUNT_TICKS = max (s.fld F.RTC_COUNT_TICKS) (s.fld F.RTC_ALARM_ALARM) ∧
      (s.power.phase = .run → t.event P.RTC E.RTC_ALARM = true) ∧
      t.power = { s.power with wakes := if (s.power.phase = .run ∧ s.fld F.PWR_STATE_CUR = 2) ∨ (s.latchesWakes ∧ s.flag F.PWR_WAKE_CFG_RTC_EN)
        then s.power.wakes ||| 16 else s.power.wakes } ∧
      KeepsRegs s t [R.RTC_COUNT, R.RTC_STAT, R.EVT_RAW P.RTC] ∧ t = { s with regs := t.regs, power := t.power }) ∧
--w (((State.reset.setFld F.RTC_CTRL_EN 1).setFld F.RTC_CTRL_ALARM_EN 1).setFld F.RTC_ALARM_ALARM 77).setFld F.CLK_STAT_LSE_OK 1
  (∀ s : State, s.aonTicks = true → s.flag F.RTC_CTRL_EN = true → s.flag F.RTC_CTRL_PERIOD_EN = true →
      s.flag F.RTC_CTRL_ALARM_EN = false →
    ∃ t, exec .rtcPeriodEvent s = .next t ∧ t.flag F.RTC_STAT_PERIOD = true ∧ (s.power.phase = .run → t.event P.RTC E.RTC_PERIOD = true) ∧
      t.fld F.RTC_COUNT_TICKS =
        (s.fld F.RTC_COUNT_TICKS / 2 ^ s.fld F.RTC_PERIOD_SHIFT + 1) * 2 ^ s.fld F.RTC_PERIOD_SHIFT % 2 ^ F.RTC_COUNT_TICKS.width ∧
      KeepsRegs s t [R.RTC_COUNT, R.RTC_STAT, R.EVT_RAW P.RTC] ∧ t = { s with regs := t.regs }) ∧
--w ((((State.reset.setFld F.RTC_CTRL_EN 1).setFld F.RTC_CTRL_PERIOD_EN 1).setFld F.RTC_PERIOD_SHIFT 5).setFld F.RTC_COUNT_TICKS 70).setFld F.CLK_STAT_LSE_OK 1
  (∀ (s : State) (q : Req) (sel : Fin 8), OpenTo s q P.CLK →
    ∃ t, exec (.clkMeasStart q sel) s = .next t ∧ t.power = { s.power with measuring := true } ∧ t.flag F.CLK_MEAS_RESULT_DONE = false ∧
      t.fld F.CLK_MEAS_CTRL_SEL = sel.val ∧ t.resp = ⟨false, 0#64⟩ ∧
      KeepsRegs s t ([R.CLK_MEAS_CTRL, R.CLK_MEAS_RESULT] ++ logRegs P.CLK) ∧
      t = { s with regs := t.regs, resp := t.resp, power := t.power }) ∧
--w State.reset.setFld F.CLK_MEAS_RESULT_DONE 1; ⟨0, true⟩; 3
  (∀ (s : State) (count : BitVec 28), s.power.phase = .run → s.power.measuring = true →
    ∃ t, exec (.measDone count) s = .next t ∧ t.fld F.CLK_MEAS_RESULT_COUNT = count.toNat ∧
      t.flag F.CLK_MEAS_RESULT_DONE = true ∧ t.event P.CLK E.CLK_MEAS_DONE = true ∧ t.power = { s.power with measuring := false } ∧
      KeepsRegs s t [R.CLK_MEAS_RESULT, R.EVT_RAW P.CLK] ∧ t = { s with regs := t.regs, power := t.power })
--w { State.reset with power := { PowerState.reset with measuring := true } }; 0xFFFFFFF#28

/-- FIRST_STAGE_FLASH, HAND_OVER, BOOT_FAIL, RETRY_WAIT_END and LOADER_FLOW (R135 to R140). -/
def Obligations.FirstStageBootsAndRetries : Prop :=
  (∀ (s : State) (f : FlashId) (us : BitVec 24), s.stageReady 0 = true → (s.hart 0).running = true →
      slotOffset (s.fld F.BOOT_PREF_SLOT) + 256 ≤ 2 ^ f.log2.val → s.bootVerdict none false = none →
    ∃ t, exec (.firstStageFlash (some f) none us) s = .next t ∧ t.boot = { s.boot with phase := .passed (Image.of s.bootHeader).entry } ∧
      t.fld F.BOOT_STATUS_SLOT = s.fld F.BOOT_PREF_SLOT % 2 ∧ t.fld F.BOOT_STATUS_AUTH = (Image.of s.bootHeader).auth ∧
      t.fld F.BOOT_STATUS_KEY_INDEX = (Image.of s.bootHeader).key ∧ t.flag F.BOOT_STATUS_ENCRYPTED = (Image.of s.bootHeader).enc ∧
      t.fld F.BOOT_STATUS_SVN = (Image.of s.bootHeader).svn % 2 ^ F.BOOT_STATUS_SVN.width ∧
      t.fld F.BOOT_IMAGE_BUILD_BUILD = (Image.of s.bootHeader).build % 2 ^ 32 ∧ t.fld F.BOOT_TIME_US = us.toNat ∧
      ((Image.of s.bootHeader).enc = false → t.bytesAt baseCamp (Image.of s.bootHeader).len = s.bootPayload false) ∧
      t.flag F.OSPI_XIP_EN = true ∧ t.running P.OSPI = true ∧ t.sec.otp = s.sec.otp ∧
      KeepsPages s t [P.BOOT, P.OSPI, P.KEYS] ∧ KeepsMemBut s t baseCamp 0xF0000 ∧
      t = { s with regs := t.regs, mem := t.mem, memory := t.memory, fresh := t.fresh, boot := t.boot, sec := t.sec }) ∧
--w bootable 0 0; flashId; 77
  (∀ (s : State) (f : FlashId) (err : Option (Fin 11)) (us : BitVec 24) (c : Nat), s.stageReady 0 = true → (s.hart 0).running = true →
      slotOffset (s.fld F.BOOT_PREF_SLOT) + 256 ≤ 2 ^ f.log2.val → s.bootVerdict err false = some c →
    ∃ t, exec (.firstStageFlash (some f) err us) s = .next t ∧ t.boot = { s.boot with phase := .failed c (s.fld F.BOOT_PREF_SLOT) } ∧
      t.sec.otp = s.sec.otp ∧ KeepsPages s t [P.KEYS] ∧ KeepsMemBut s t baseCamp 0xF0000 ∧ (c < 0x0B → KeepsMem s t) ∧
      t = { s with regs := t.regs, mem := t.mem, memory := t.memory, boot := t.boot, sec := t.sec }) ∧
--w { bootable 0 0 with boot := BootState.reset }; flashId; none; 77; 2
--w bootable 0 0; flashId; some 10; 77; 12
  (∀ (s : State) (err : Option (Fin 11)) (us : BitVec 24), s.stageReady 0 = true → (s.hart 0).running = true →
    ∃ t, exec (.firstStageFlash none err us) s = .next t ∧
      t.boot = { s.boot with phase := .failed (if err = some 0 then 12 else 1) (s.fld F.BOOT_PREF_SLOT) } ∧
      t.sec.otp = s.sec.otp ∧ KeepsPages s t [P.KEYS] ∧ t = { s with regs := t.regs, boot := t.boot, sec := t.sec }) ∧
--w bootable 0 0; none; 5
  (∀ (s : State) (entry : Nat), s.boot.phase = .passed entry → s.fld F.BOOT_STRAP_MODE_USED ≠ 2 → s.romRuns = true →
    ∃ t, exec .handOver s = .next t ∧ t.boot = { s.boot with phase := .done } ∧ t.flag F.BOOT_STATUS_DONE = true ∧ s.LocksApplied t ∧
      t.hart 0 = { Hart.reset (baseCamp + entry) with running := (s.hart 0).running, resetHalt := (s.hart 0).resetHalt, x := [(11, t.raw R.BOOT_STATUS)] } ∧
      (∀ h : Fin 4, h.val ∉ s.pairOf 0 → t.hart h.val = s.hart h.val) ∧
      KeepsPages s t [P.PITON, P.BOOT, P.TETHER, P.AES, P.HASH, P.PKA] ∧ KeepsMemBut s t scratch 0x10000 ∧
      t = { s with regs := t.regs, mem := t.mem, memory := t.memory, harts := t.harts, boot := t.boot, sec := t.sec }) ∧
--w { (State.reset.setFlag F.SYSCFG_MODE_GUARDED false).modHart 0 (fun t => { t with running := true }) with boot := { BootState.reset with phase := .passed 64 } }; 64
--w { State.reset.modHart 0 (fun t => { t with running := true }) with boot := { BootState.reset with phase := .passed 64 } }; 64
  (∀ (s : State), (s.hart 0).debug = true →
    ∃ t, exec .handOver s = .next t ∧ t = s) ∧
--w { State.reset.modHart 0 (fun t => { t with running := true, debug := true }) with boot := { BootState.reset with phase := .passed 64 } }
  (∀ (s : State) (entry : Nat), s.boot.phase = .passed entry → s.fld F.BOOT_STRAP_MODE_USED = 2 →
    ∃ t, exec .handOver s = .next t ∧ t = s) ∧
--w { recov 2 with boot := { BootState.reset with phase := .passed 64 } }; 64
  (∀ (s : State) (code slot : Nat), s.boot.phase = .failed code slot → code < 128 → slot < 2 →
    ∃ t, exec .bootFail s = .next t ∧ t.fld F.BOOT_FAILCODE_CODE = code ∧ t.fld F.BOOT_FAILCODE_SLOT = slot ∧
      t.boot = { s.boot with phase := .waiting (min (2 ^ min (s.fld F.BOOT_RETRY_COUNT) 6) 64) } ∧
      t.fld F.BOOT_RETRY_COUNT = min (2 ^ F.BOOT_RETRY_COUNT.width - 1) (s.fld F.BOOT_RETRY_COUNT + 1) ∧
      t.fld F.BOOT_PREF_SLOT = 1 - s.fld F.BOOT_PREF_SLOT ∧ s.LocksApplied t ∧
      KeepsPages s t [P.PITON, P.BOOT, P.AES, P.HASH, P.PKA] ∧ KeepsMemBut s t scratch 0x10000 ∧
      t = { s with regs := t.regs, mem := t.mem, memory := t.memory, boot := t.boot, sec := t.sec }) ∧
--w { State.reset with boot := { BootState.reset with phase := .failed 11 1 } }; 11; 1
  (∀ (s : State) (n : Nat), s.boot.phase = .waiting n →
    ∃ t, exec .retryWaitEnd s = .next t ∧ s.ResetBegun t 3 []) ∧
--w { State.reset with boot := { BootState.reset with phase := .waiting 4 } }; 4
  (∀ (s : State) (us : BitVec 24), s.stageReady 1 = true → s.bootVerdict none true = none →
    ∃ t, exec (.loaderFlow true none us) s = .next t ∧ t.boot.phase = .done ∧ t.flag F.BOOT_STATUS_DONE = true ∧
      t.fld F.BOOT_STATUS_SLOT = s.fld F.BOOT_PREF_SLOT % 2 ∧ t.fld F.BOOT_STATUS_SVN = (Image.of s.bootHeader).svn % 2 ^ F.BOOT_STATUS_SVN.width ∧
      t.fld F.BOOT_TIME_US = us.toNat ∧ s.LocksApplied t ∧ t.running P.OSPI = true ∧
      (t.fld F.OSPI_CFG_PROTO = if s.flag F.BOOT_POLICY_LOADER_BUS then 3 else 0) ∧
      (t.fld F.OSPI_CFG_DIV = if s.flag F.BOOT_POLICY_LOADER_BUS then 1 else 4) ∧
      (∀ h : Fin 4, h.val ∈ s.visible → (s.hart h.val).resetHalt = false → t.hart h.val = { Hart.reset baseCamp with running := true }) ∧
      t.bytesAt baseCamp 64 = (s.bootPayload true).take 64 ∧
      KeepsPages s t [P.PITON, P.BOOT, P.TETHER, P.OSPI, P.KEYS, P.AES, P.HASH, P.PKA] ∧ KeepsMemBut s t baseCamp 0x100000 ∧
      t = { s with regs := t.regs, mem := t.mem, memory := t.memory, fresh := t.fresh, harts := t.harts, boot := t.boot, sec := t.sec }) ∧
--w bootable 1 1; 99
  (∀ (s : State) (us : BitVec 24), s.stageReady 1 = true →
    ∃ t, exec (.loaderFlow false none us) s = .next t ∧ t.boot = { s.boot with phase := .failed 1 (s.fld F.BOOT_PREF_SLOT) } ∧
      KeepsPages s t [P.KEYS] ∧ t = { s with regs := t.regs, boot := t.boot, sec := t.sec })
--w bootable 1 1; 99

/-- HART_PARK, HART_RELEASE, SNAPSHOT_RESUME, RECOVERY_IMAGE, GET_STATE, ABORT, RECOVERY_DETACH and BOOT_GO. -/
def Obligations.HartParkingResumeAndRecovery : Prop :=
  (∀ (s : State) (h : Fin 4), h.val ∈ s.boot.romHarts → (s.hart h.val).running = true → (s.hart h.val).parked = false →
      (s.hart h.val).debug = false → (s.hart h.val).pc = 0#64 →
    ∃ t, exec (.hartPark h) s = .next t ∧
      t.hart h.val = { s.hart h.val with parked := true, wfi := decide (s.fld (F.SYSCFG_HART_RELEASE_ADDR h.val) = 0) } ∧
      (∀ g : Fin 4, g.val ∉ s.pairOf h.val → t.hart g.val = s.hart g.val) ∧ h.val ∉ t.boot.romHarts ∧ t.prioOf (1536 + h.val) = 1 ∧
      t.thresholdOf (9 * h.val) = 0 ∧ (t.enableWord (9 * h.val) 48).testBit h.val = true ∧
      t.boot = { s.boot with romHarts := t.boot.romHarts } ∧ t = { s with harts := t.harts, cairn := t.cairn, boot := t.boot }) ∧
--w { free0 with harts := State.reset.harts.map (fun x => { x with running := true }), boot := { BootState.reset with romHarts := [1, 2, 3] } }; 3
  (∀ (s : State) (h : Fin 4), s.locksSet = true → (s.hart h.val).parked = true → (s.hart h.val).running = true →
      (s.hart h.val).debug = false → s.fld (F.SYSCFG_HART_RELEASE_ADDR h.val) ≠ 0 →
      ((s.hart h.val).wfi = false ∨ s.pendingOf (1536 + h.val) = true) →
    ∃ t, exec (.hartRelease h) s = .next t ∧
      t.hart h.val = { Hart.reset (256 * s.fld (F.SYSCFG_HART_RELEASE_ADDR h.val)) with
        running := true, resetHalt := (s.hart h.val).resetHalt, x := if h.val = 0 then [] else [(10, BitVec.ofNat 64 h.val)] } ∧
      (t.gate (1536 + h.val)).latch = false ∧ (t.enableWord (9 * h.val) 48).testBit h.val = false ∧
      (∀ g : Fin 4, g.val ∉ s.pairOf h.val → t.hart g.val = s.hart g.val) ∧ t = { s with harts := t.harts, cairn := t.cairn }) ∧
--w { free0.setFld (F.SYSCFG_HART_RELEASE_ADDR 2) 0x10000 with harts := State.reset.harts.map (fun x => { x with running := true, parked := true }), boot := { BootState.reset with phase := .done } }; 2
  (∀ (s : State) (h : Fin 4), (s.locksSet = false ∨ (s.hart h.val).parked = false ∨ s.fld (F.SYSCFG_HART_RELEASE_ADDR h.val) = 0) →
    ∃ t, exec (.hartRelease h) s = .next t ∧ t = s) ∧
--w free0; 2
  (∀ (s : State), s.power.phase = .run → s.flag F.BOOT_STRAP_LATCHED = true → s.boot.phase = .start → s.resumeDue = true →
      (s.hart 0).running = true → s.flag F.PWR_SNAP_CTRL_COMPLETE = true → s.snapshot.1 + s.snapshot.2 ≤ 0x08800000 →
      s.anyPoison s.snapshot.1 s.snapshot.2 = false → s.snapHeaderOk (s.bytesAt s.snapshot.1 s.snapshot.2) = true →
      s.loadSlots.snapTagOk (s.bytesAt s.snapshot.1 s.snapshot.2) = true →
    ∃ t, exec .snapshotResume s = .next t ∧ t.boot = { s.boot with phase := .done, resume := false } ∧
      t.flag F.PWR_SNAP_CTRL_COMPLETE = false ∧ t.flag F.BOOT_STATUS_RESUMED = true ∧ t.flag F.PWR_WAKE_STAT_RESUMED = true ∧
      t.flag F.BOOT_STATUS_DONE = true ∧ s.LocksApplied t ∧
      (t.hart 0).pc = BitVec.ofNat 64 (leNat (slice 8 8 (s.bytesAt s.snapshot.1 s.snapshot.2))) ∧
      (t.hart 0).xr 11 = BitVec.ofNat 64 (hdr (s.bytesAt s.snapshot.1 s.snapshot.2) 16) ∧
      (∀ h : Fin 4, h.val ∉ s.pairOf 0 → t.hart h.val = s.hart h.val) ∧
      ((hdr (s.bytesAt s.snapshot.1 s.snapshot.2) 4).testBit 16 = false → KeepsMemBut s t scratch 0x10000) ∧
      KeepsPages s t [P.PITON, P.PWR, P.BOOT, P.TETHER, P.KEYS, P.AES, P.HASH, P.PKA] ∧
      t = { s with regs := t.regs, mem := t.mem, memory := t.memory, harts := t.harts, boot := t.boot, sec := t.sec }) ∧
--w snapState true
  (∀ (s : State), s.power.phase = .run → s.flag F.BOOT_STRAP_LATCHED = true → s.boot.phase = .start → s.resumeDue = true →
      (s.hart 0).running = true → s.fld F.BOOT_STRAP_MODE_USED = 0 →
      (s.flag F.PWR_SNAP_CTRL_COMPLETE = false ∨ s.snapHeaderOk (s.bytesAt s.snapshot.1 s.snapshot.2) = false) →
    ∃ t, exec .snapshotResume s = .next t ∧ t.boot = { s.boot with resume := false } ∧ t.flag F.PWR_SNAP_CTRL_COMPLETE = false ∧
      t.flag F.BOOT_STATUS_SNAP_REJECT = true ∧ t.flag F.PWR_WAKE_STAT_COLD = true ∧ t.sec.otp = s.sec.otp ∧
      KeepsPages s t [P.PWR, P.BOOT, P.KEYS] ∧ t = { s with regs := t.regs, boot := t.boot, sec := t.sec }) ∧
--w snapState false
--w (snapState true).setFld F.PWR_SNAP_CTRL_COMPLETE 0
  (∀ (s : State) (chunk : List Byte) (us : BitVec 24), s.inRecovery 2 = true → s.serviceUp = true → s.fld F.BOOT_RECOVERY_STATE ≤ 1 →
    ∃ t, exec (.recoveryImage chunk false none none us) s = .next t ∧
      t.boot = { s.boot with received := s.boot.received + chunk.length } ∧
      t.fld F.BOOT_RECOVERY_STATE = 1 ∧ KeepsMemBut s t baseCamp 0x100000 ∧
      (256 ≤ s.boot.received → s.boot.received + chunk.length ≤ 0xF0100 → t.bytesAt (baseCamp + (s.boot.received - 256)) chunk.length = chunk) ∧
      (s.boot.received + chunk.length ≤ 256 → t.bytesAt (scratch + s.boot.received) chunk.length = chunk) ∧
      KeepsRegs s t [F.BOOT_RECOVERY_STATE.reg, R.TETHER_ATTN] ∧ t = { s with regs := t.regs, mem := t.mem, boot := t.boot }) ∧
--w { recovU with boot := { recovU.boot with received := 300 } }; [1#8, 2#8, 3#8]; 9
--w recovU; [1#8, 2#8, 3#8]; 9
  (∀ s : State, s.power.phase = .run → s.serviceUp = true →
    ∃ t, exec .getState s = .next t ∧ t.resp = ⟨false, BitVec.ofNat 64 (s.fld F.BOOT_RECOVERY_STATE +
        2 ^ 8 * s.fld F.BOOT_RECOVERY_FAILCODE + 2 ^ 32 * (s.boot.received % 2 ^ 32))⟩ ∧
      (∀ entry : Nat, s.boot.phase = .passed entry → t.boot = { s.boot with phase := .detaching entry }) ∧
      (s.boot.phase = .start → t.boot = s.boot) ∧ t = { s with resp := t.resp, boot := t.boot }) ∧
--w recovU
--w { recovU with boot := { recovU.boot with phase := .passed 64 } }
  (∀ s : State, s.inRecovery 2 = true → s.serviceUp = true → s.fld F.BOOT_RECOVERY_STATE ≤ 3 →
    ∃ t, exec .abort s = .next t ∧ t.fld F.BOOT_RECOVERY_STATE = 0 ∧ t.boot = { s.boot with received := 0 } ∧
      KeepsRegs s t [F.BOOT_RECOVERY_STATE.reg, R.TETHER_ATTN] ∧ t = { s with regs := t.regs, boot := t.boot }) ∧
--w { recovU.setFld F.BOOT_RECOVERY_STATE 3 with boot := { recovU.boot with received := 300 } }
  (∀ (s : State) (entry : Nat), s.boot.phase = .detaching entry → s.fld F.BOOT_STRAP_MODE_USED = 2 → s.romRuns = true →
    ∃ t, exec .recoveryDetach s = .next t ∧ t.boot = { s.boot with phase := .done, service := none } ∧ t.flag F.BOOT_STATUS_DONE = true ∧
      s.LocksApplied t ∧
      t.hart 0 = { Hart.reset (baseCamp + entry) with running := (s.hart 0).running, resetHalt := (s.hart 0).resetHalt, x := [(11, t.raw R.BOOT_STATUS)] } ∧
      (∀ h : Fin 4, h.val ∉ s.pairOf 0 → t.hart h.val = s.hart h.val) ∧
      (s.boot.service ≠ none → t.running P.USBD = false) ∧ KeepsMemBut s t scratch 0x10000 ∧
      KeepsPages s t [P.PITON, P.BOOT, P.TETHER, P.AES, P.HASH, P.PKA, P.USBD, P.CLK] ∧
      t = { s with regs := t.regs, mem := t.mem, memory := t.memory, harts := t.harts, boot := t.boot, sec := t.sec, usb := t.usb }) ∧
--w { recovU.setFlag F.SYSCFG_MODE_GUARDED false with boot := { recovU.boot with phase := .detaching 64 } }; 64
  (∀ s : State, s.tetherHears = true → s.inRecovery 3 = true → (s.fld F.BOOT_RECOVERY_STATE = 0 ∨ s.fld F.BOOT_RECOVERY_STATE = 3) →
    ∃ t, exec .bootGo s = .next t ∧ t.fld F.BOOT_RECOVERY_STATE = 2 ∧ (t.fld F.TETHER_REQ_REQ).testBit 2 = true ∧
      t.event P.TETHER E.TETHER_REQ = true ∧
      KeepsRegs s t [F.BOOT_RECOVERY_STATE.reg, R.TETHER_ATTN, R.TETHER_REQ, R.EVT_RAW P.TETHER] ∧ t = { s with regs := t.regs })
--w recov 3

/-- SECURE, RMA, CHALLENGE, CHALLENGE_READY, SUBMIT, RESET_REQ, SYSTEM_RESET and TAMPER_EVENT. -/
def Obligations.LifecycleUnlockAndResetRequests : Prop :=
  (∀ (s : State) (q : Req), OpenTo s q P.SYSCFG → s.flag F.PITON_OTP_LOCK_LOCK = false → s.fld F.SYSCFG_LIFECYCLE_PENDING = 0 →
    ∃ t, exec (.secure q) s = .next t ∧ t.fld F.SYSCFG_LIFECYCLE_PENDING = 1 ∧ t.otpRaw 4 = (s.otpRaw 4 ||| 0xFF) % 2 ^ 32 ∧
      (∀ i : Fin 256, i.val ≠ 4 → t.otpRaw i.val = s.otpRaw i.val) ∧ t.fld F.SYSCFG_LIFECYCLE_STATE = s.fld F.SYSCFG_LIFECYCLE_STATE ∧
      t.resp = ⟨false, 0#64⟩ ∧ KeepsRegs s t ([R.SYSCFG_LIFECYCLE, R.SYSCFG_LIFECYCLE_REQ] ++ logRegs P.SYSCFG) ∧
      t = { s with regs := t.regs, resp := t.resp, sec := { s.sec with otp := t.sec.otp } }) ∧
--w State.reset; ⟨0, true⟩
  (∀ (s : State) (q : Req), OpenTo s q P.SYSCFG → (s.flag F.PITON_OTP_LOCK_LOCK = true ∨ s.fld F.SYSCFG_LIFECYCLE_PENDING ≠ 0) →
    ∃ t, exec (.secure q) s = .next t ∧ t.event P.SYSCFG E.SYSCFG_LIFECYCLE_REFUSED = true ∧
      (s.flag (F.CLAMP_ADDR_VALID P.SYSCFG) = false →
        t.fld (F.CLAMP_ADDR_REASON P.SYSCFG) = (if s.flag F.PITON_OTP_LOCK_LOCK then 1 else 3)) ∧
      KeepsRegs s t (logRegs P.SYSCFG) ∧ t = { s with regs := t.regs, resp := t.resp }) ∧
--w State.reset.setFld F.SYSCFG_LIFECYCLE_PENDING 1; ⟨0, true⟩
  (∀ (s : State) (q : Req), OpenTo s q P.SYSCFG → s.flag F.PITON_OTP_LOCK_LOCK = false →
      (s.fld F.SYSCFG_UNLOCK_STAT_GRANTED).testBit 2 = true → s.fld F.SYSCFG_LIFECYCLE_PENDING = 1 →
    ∃ t, exec (.rma q) s = .next t ∧ t.fld F.SYSCFG_LIFECYCLE_PENDING = 2 ∧ t.otpRaw 4 = (s.otpRaw 4 ||| 0xFF00) % 2 ^ 32 ∧
      (∀ i : Fin 256, i.val ≠ 4 → t.otpRaw i.val = s.otpRaw i.val) ∧ t.fld F.SYSCFG_LIFECYCLE_STATE = s.fld F.SYSCFG_LIFECYCLE_STATE ∧
      t.resp = ⟨false, 0#64⟩ ∧
      KeepsRegs s t ([R.SYSCFG_LIFECYCLE, R.SYSCFG_LIFECYCLE_REQ] ++ logRegs P.SYSCFG) ∧
      t = { s with regs := t.regs, resp := t.resp, sec := { s.sec with otp := t.sec.otp } }) ∧
--w (State.reset.setFld F.SYSCFG_UNLOCK_STAT_GRANTED 4).setFld F.SYSCFG_LIFECYCLE_PENDING 1; ⟨0, true⟩
  (∀ (s : State) (q : Req), OpenTo s q P.SYSCFG → (s.flag F.PITON_OTP_LOCK_LOCK = true ∨
      (s.fld F.SYSCFG_UNLOCK_STAT_GRANTED).testBit 2 = false ∨ s.fld F.SYSCFG_LIFECYCLE_PENDING ≠ 1) →
    ∃ t, exec (.rma q) s = .next t ∧ t.event P.SYSCFG E.SYSCFG_LIFECYCLE_REFUSED = true ∧
      (s.flag (F.CLAMP_ADDR_VALID P.SYSCFG) = false → t.fld (F.CLAMP_ADDR_REASON P.SYSCFG) =
        (if s.flag F.PITON_OTP_LOCK_LOCK then 1 else if (s.fld F.SYSCFG_UNLOCK_STAT_GRANTED).testBit 2 then 3 else 2)) ∧
      KeepsRegs s t (logRegs P.SYSCFG) ∧ t = { s with regs := t.regs, resp := t.resp }) ∧
--w State.reset; ⟨0, true⟩
  (∀ (s : State) (q : Req) (scope : Fin 8), OpenTo s q P.SYSCFG → s.flag F.PITON_DEBUG_LOCK_LOCK = false → s.running P.TRNG = true →
      s.fld F.TRNG_STAT_STATE ≠ 4 →
    ∃ t, exec (.challenge q scope) s = .next t ∧ t.fld F.SYSCFG_UNLOCK_STAT_STATE = 1 ∧
      t.sec.waiting = (if s.sec.waiting.contains .challenge then s.sec.waiting else s.sec.waiting ++ [.challenge]) ∧
      t.boot = { s.boot with challengeLive := false } ∧ t.fld F.SYSCFG_UNLOCK_CTRL_SCOPE = scope.val ∧ t.resp = ⟨false, 0#64⟩ ∧
      KeepsRegs s t ([R.SYSCFG_UNLOCK_CTRL, R.SYSCFG_UNLOCK_STAT] ++ logRegs P.SYSCFG) ∧
      t = { s with regs := t.regs, resp := t.resp, sec := { s.sec with waiting := t.sec.waiting }, boot := t.boot }) ∧
--w State.reset.setFld (F.PAGE_STAT_ENABLED P.TRNG) 1; ⟨0, true⟩; 5
  (∀ (s : State) (q : Req) (scope : Fin 8), OpenTo s q P.SYSCFG → s.flag F.PITON_DEBUG_LOCK_LOCK = true →
    ∃ t, exec (.challenge q scope) s = .next t ∧ t.fld F.SYSCFG_UNLOCK_STAT_STATE = 5 ∧ t.boot = { s.boot with challengeLive := false } ∧
      KeepsRegs s t ([R.SYSCFG_UNLOCK_CTRL, R.SYSCFG_UNLOCK_STAT] ++ logRegs P.SYSCFG) ∧
      t = { s with regs := t.regs, resp := t.resp, boot := t.boot }) ∧
--w State.reset.setFld F.PITON_DEBUG_LOCK_LOCK 1; ⟨0, true⟩; 5
  (∀ (s : State), s.sec.waiting = [.challenge] → s.fld F.TRNG_STAT_STATE = 2 → s.sec.quarters = 0 → 48 < s.sec.queue.length →
    ∃ t, exec .challengeReady s = .next t ∧ t.fld F.SYSCFG_UNLOCK_STAT_STATE = 2 ∧ t.boot.challengeLive = true ∧
      t.sec.waiting = [] ∧ t.sec.queue = s.sec.queue.drop 2 ∧
      (∀ n : Fin 8, t.fld (F.SYSCFG_UNLOCK_CHAL_CHAL n.val) =
        leNat (slice (4 * n.val) 4 ((s.sec.queue.take 2).flatMap (fun b => leBytes 16 b.toNat)))) ∧
      t.boot = { s.boot with challengeLive := true } ∧ t.sec = { s.sec with waiting := [], queue := s.sec.queue.drop 2 } ∧
      KeepsPages s t [P.SYSCFG, P.TRNG] ∧ t = { s with regs := t.regs, boot := t.boot, sec := t.sec }) ∧
--w { State.reset.setFld F.TRNG_STAT_STATE 2 with sec := { SecurityState.reset with waiting := [.challenge], queue := (List.range 60).map (fun i => BitVec.ofNat 128 (i * 77777777777777777)) } }
  (∀ (s : State) (q : Req) (scope : Fin 8), OpenTo s q P.SYSCFG → s.boot.challengeLive = true →
    ∃ t, exec (.submit q scope) s = .next t ∧
      t.fld F.SYSCFG_UNLOCK_STAT_STATE = (if s.unlockGood scope.val then 4 else 5) ∧
      t.fld F.SYSCFG_UNLOCK_STAT_GRANTED =
        (if s.unlockGood scope.val then s.fld F.SYSCFG_UNLOCK_STAT_GRANTED ||| scope.val else s.fld F.SYSCFG_UNLOCK_STAT_GRANTED) ∧
      t.event P.SYSCFG E.SYSCFG_UNLOCK_DONE = true ∧ t.boot = { s.boot with challengeLive := false } ∧
      KeepsRegs s t ([R.SYSCFG_UNLOCK_CTRL, R.SYSCFG_UNLOCK_STAT, R.SYSCFG_DEBUG_EN] ++ logRegs P.SYSCFG) ∧
      t = { s with regs := t.regs, resp := t.resp, boot := t.boot }) ∧
--w { State.reset with boot := { BootState.reset with challengeLive := true } }; ⟨0, true⟩; 1
  (∀ (s : State) (q : Req), OpenTo s q P.SYSCFG →
    ∃ t, exec (.resetReq q) s = .next t ∧ s.ResetBegun t 2 [R.SYSCFG_RESET_REQ] ∧ t.resp = ⟨false, 0#64⟩) ∧
--w State.reset; ⟨0, true⟩
  (∀ (s : State), s.power.phase = .run → s.guarded = false → s.boot.phase = .start → s.flag F.BOOT_STRAP_LATCHED = true →
      s.fld F.PWR_STATE_CUR ≤ 1 → s.fld F.BOOT_STRAP_BOOTSEL = 0 → s.power.fromBivouac = false →
      (∀ h : Fin 4, (s.hart h.val).running = false ∧ (s.hart h.val).resetHalt = false) →
    ∃ t, exec .systemReset s = .next t ∧ t.fld F.BOOT_STRAP_MODE_USED = 0 ∧ t.flag F.BOOT_STRAP_FALLBACK = false ∧
      (∀ h : Fin 4, t.hart h.val = { Hart.reset 0 with running := true }) ∧ t.boot = { s.boot with romHarts := [1, 2, 3] } ∧
      KeepsRegs s t [R.BOOT_STRAP] ∧ t = { s with regs := t.regs, harts := t.harts, boot := t.boot }) ∧
--w free0.setFld F.BOOT_STRAP_LATCHED 1
  (∀ (s : State), s.power.phase = .reset → s.power.awaitPorst = false → s.resetHeld = false → s.flag F.BOOT_STRAP_LATCHED = false →
    ∃ t, exec .systemReset s = .next t ∧ t.power = { s.power with phase := .run } ∧
      KeepsRegs s t [R.PWR_THERM, R.PWR_STATE, R.EVT_RAW P.PWR] ∧ t = { s with regs := t.regs, power := t.power }) ∧
--w { State.reset with power := { PowerState.reset with phase := .reset } }
  (∀ (s : State) (n : Fin 2), s.aonFed = true → (s.fld F.KEYS_TAMPER_CFG_EN).testBit n.val = true →
      (s.power.phase ≠ .run ∨ s.flag F.KEYS_TAMPER_CFG_ERASE_KEYS = false) →
    ∃ t, exec (.tamperEvent n) s = .next t ∧ (t.fld F.KEYS_TAMPER_STAT_LATCHED).testBit n.val = true ∧
      t.fld F.KEYS_TAMPER_STAT_COUNT = satAdd (2 ^ F.KEYS_TAMPER_STAT_COUNT.width - 1) (s.fld F.KEYS_TAMPER_STAT_COUNT) 1 ∧
      t.fld F.RTC_TAMPER_STAMP_STAMP = s.fld F.RTC_COUNT_TICKS ∧
      (s.flag F.KEYS_TAMPER_CFG_KILL_SNAP = true → t.flag F.PWR_SNAP_CTRL_COMPLETE = false) ∧
      (s.flag F.KEYS_TAMPER_CFG_ERASE_RETAIN = true → ∀ k : Fin 16, t.fld (F.PWR_RETAIN_DATA k.val) = 0) ∧
      (s.flag F.KEYS_TAMPER_CFG_ERASE_RETAIN = false → ∀ k : Fin 16, t.raw (R.PWR_RETAIN k.val) = s.raw (R.PWR_RETAIN k.val)) ∧
      t.power = { s.power with wakes := if s.latchesWakes then s.power.wakes ||| 64 else s.power.wakes } ∧
      KeepsRegs s t ([R.KEYS_TAMPER_STAT, R.RTC_TAMPER_STAMP, R.PWR_SNAP_CTRL] ++ (List.range 16).map R.PWR_RETAIN) ∧
      t = { s with regs := t.regs, power := t.power }) ∧
--w ((State.reset.setFld F.KEYS_TAMPER_CFG_EN 3).setFld F.KEYS_TAMPER_CFG_ERASE_KEYS 0).setFld F.KEYS_TAMPER_CFG_ERASE_RETAIN 0; 1
--w (((State.reset.setFld F.KEYS_TAMPER_CFG_EN 3).setFld F.KEYS_TAMPER_CFG_ERASE_KEYS 0).setFld F.KEYS_TAMPER_CFG_ERASE_RETAIN 1).setFld (F.PWR_RETAIN_DATA 3) 7; 0
  (∀ (s : State) (n : Fin 2), s.power.phase = .run → (s.power.vinUp || s.power.vbatUp) = true →
      (s.fld F.KEYS_TAMPER_CFG_EN).testBit n.val = true → s.flag F.KEYS_TAMPER_CFG_ERASE_KEYS = true →
    ∃ t, exec (.tamperEvent n) s = .next t ∧ (t.fld F.KEYS_TAMPER_STAT_LATCHED).testBit n.val = true ∧ t.sec.slots = [] ∧ t.sec.otp = s.sec.otp)
--w keysS.setFld F.KEYS_TAMPER_CFG_EN 3 |>.setFld F.KEYS_TAMPER_CFG_ERASE_KEYS 1; 1

/-- OSPI_CMD_GO, OSPI_CMD_DONE, OSPI_POLL_TIMEOUT, XIP_LOAD, OSPI_RESET_PULSE and OSPI_ITEM (R147 to R152). Which opcode the flash takes
for what, and the address bytes of a program item, are the model's reading (assumption log 61, 62). -/
def Obligations.OspiCommandsWindowAndItems : Prop :=
  (∀ (s : State) (q : Req) (op : Byte) (ae a4 w pl : Bool) (dm : BitVec 5), OpenTo s q P.OSPI → s.boot.command = none → s.ioLive P.OSPI = true →
    ∃ t, exec (.ospiCmdGo q op ae a4 w pl dm) s = .next t ∧ t.flag F.OSPI_STAT_BUSY = true ∧
      t.boot = { s.boot with command := some t.ospiCommand } ∧
      t.ospiCommand.op = op.toNat ∧ t.ospiCommand.poll = pl ∧ t.ospiCommand.dummy = dm.toNat ∧ t.ospiCommand.performed = false ∧
      t.ospiCommand.addrBytes = (if ae then addressBytes a4 (s.fld F.OSPI_ADDR_ADDR) else []) ∧
      t.ospiCommand.reads = (if w then 0 else s.fld F.OSPI_LEN_LEN) ∧ t.ospiCommand.data.length = (if w then s.fld F.OSPI_LEN_LEN else 0) ∧
      t.resp = ⟨false, 0#64⟩ ∧ KeepsRegs s t ([R.OSPI_CMD, R.OSPI_STAT] ++ logRegs P.OSPI) ∧
      t = { s with regs := t.regs, resp := t.resp, boot := t.boot }) ∧
--w on State.reset P.OSPI; ⟨0, true⟩; 0x9F; false; false; false; true; 8
--w (on State.reset P.OSPI).setFld F.OSPI_LEN_LEN 3; ⟨0, true⟩; 0x02; true; true; true; true; 0
  (∀ (s : State) (q : Req) (op : Byte) (ae a4 w pl : Bool) (dm : BitVec 5) (c : OspiCommand), OpenTo s q P.OSPI → s.boot.command = some c →
    ∃ t, exec (.ospiCmdGo q op ae a4 w pl dm) s = .next t ∧ s.Refused t q R.OSPI_CMD 1 c.op ∧
      KeepsRegs s t (logRegs P.OSPI) ∧ t = { s with regs := t.regs, resp := t.resp }) ∧
--w { State.reset with boot := { BootState.reset with command := some cmd0 } }; ⟨0, true⟩; 0x9F; false; false; false; true; 8; cmd0
  (∀ (s : State) (c : OspiCommand) (answer : List Byte) (st : Byte), s.ioLive P.OSPI = true → s.bankLive 0 = true → s.boot.polling = none →
      s.boot.command = some c → c.performed = false → c.poll = false → c.reads ≤ 256 → answer.length = c.reads → s.boot.xip = [] →
    ∃ t, exec (.ospiCmdDone answer st none) s = .next t ∧ t.flag F.OSPI_STAT_DONE = true ∧ t.flag F.OSPI_STAT_BUSY = false ∧
      t.event P.OSPI E.OSPI_CMD_DONE = true ∧ t.boot.command = none ∧ t.boot.sent = [c.transfer] ∧
      (c.effect = 1 → t.boot.wren = true ∧ t.boot.flash = s.boot.flash) ∧
      (c.effect = 2 → s.boot.wren = true → t.boot.wren = false ∧ t.boot.flash = programBytes s.boot.flash c.addr c.data) ∧
      (c.effect ≠ 2 → t.boot.flash = s.boot.flash) ∧
      (c.effect ≠ 3 → ∀ i : Fin 256, i.val < c.reads →
        t.fld (F.OSPI_DATA_DATA (i.val / 4)) / 2 ^ (8 * (i.val % 4)) % 256 = (answer.getD i.val 0#8).toNat) ∧
      KeepsMem s t ∧ KeepsPages s t [P.OSPI] ∧ (s.memory.lines = [] → t = { s with regs := t.regs, boot := t.boot })) ∧
--w on { State.reset with boot := { BootState.reset with command := some { cmd0 with poll := false, effect := 1, reads := 3 } } } P.OSPI; { cmd0 with poll := false, effect := 1, reads := 3 }; [1#8, 2#8, 3#8]; 0
--w on { State.reset with boot := { BootState.reset with wren := true, command := some { cmd0 with poll := false, effect := 2, data := [3#8] } } } P.OSPI; { cmd0 with poll := false, effect := 2, data := [3#8] }; []; 0
  (∀ (s : State) (c : OspiCommand) (answer : List Byte) (st : Byte), s.ioLive P.OSPI = true → s.bankLive 0 = true → s.boot.polling = none →
      s.boot.command = some c → c.performed = true → c.poll = true → s.boot.xip = [] →
    ∃ t, exec (.ospiCmdDone answer st none) s = .next t ∧ t.fld F.OSPI_STAT_STATUS = st.toNat ∧
      (st.toNat &&& c.mask = c.want → t.flag F.OSPI_STAT_DONE = true ∧ t.flag F.OSPI_STAT_BUSY = false ∧
        t.event P.OSPI E.OSPI_CMD_DONE = true ∧ t.boot.command = none) ∧
      (st.toNat &&& c.mask ≠ c.want → t.boot.command = some c ∧ KeepsRegs s t [R.OSPI_STAT]) ∧
      t.boot = { s.boot with command := t.boot.command, sent := s.boot.sent ++ [c.pollTransfer] } ∧
      KeepsRegs s t [R.OSPI_STAT, R.EVT_RAW P.OSPI] ∧ t = { s with regs := t.regs, boot := t.boot }) ∧
--w on { State.reset with boot := { BootState.reset with command := some { cmd0 with performed := true } } } P.OSPI; { cmd0 with performed := true }; []; 0xFE
--w on { State.reset with boot := { BootState.reset with command := some { cmd0 with performed := true } } } P.OSPI; { cmd0 with performed := true }; []; 1
  (∀ (s : State) (c : OspiCommand) (st : Byte), s.ioLive P.OSPI = true → s.bankLive 0 = true → s.boot.polling = none →
      s.boot.command = some c → c.performed = true → c.poll = true → s.boot.xip = [] →
    ∃ t, exec (.ospiPollTimeout [] st none) s = .next t ∧ t.flag F.OSPI_STAT_TIMEOUT = true ∧ t.flag F.OSPI_STAT_BUSY = false ∧
      t.fld F.OSPI_STAT_STATUS = st.toNat ∧ t.fld F.OSPI_ERR_LAST_DETAIL = 1 ∧ t.event P.OSPI E.OSPI_TIMEOUT = true ∧
      KeepsRegs s t [R.OSPI_STAT, F.OSPI_ERR_COUNT.reg, R.EVT_RAW P.OSPI] ∧
      t = { s with regs := t.regs, boot := { s.boot with command := none, sent := s.boot.sent ++ [c.pollTransfer] } }) ∧
--w on { State.reset with boot := { BootState.reset with command := some { cmd0 with performed := true } } } P.OSPI; { cmd0 with performed := true }; 0xA5
  (∀ (s : State) (q : Req) (off : BitVec 28) (z : Size), s.flashBusy = false → 4 ≤ q.ni.val → s.lineHeld (lineOf (0x20000000 + off.toNat)) = false →
      s.xipReadable (0x20000000 + off.toNat) (sizeBytes z) = true → off.toNat % 64 + sizeBytes z ≤ 64 →
    ∃ t, exec (.xipLoad q off z false) s = .next t ∧
      t = { s with
        resp := ⟨false, BitVec.ofNat 64 (leNat ((List.range (sizeBytes z)).map (fun i => s.flashByte (s.xipOffset (0x20000000 + off.toNat + i)))))⟩,
        boot := { s.boot with sent := [s.readTransfer (s.xipOffset (lineOf (0x20000000 + off.toNat))) 64] } }) ∧
--w (on (bootable 0 0) P.OSPI).setFld F.OSPI_XIP_EN 1 |>.setFld F.OSPI_SIZE_LOG2 20; ⟨15, true⟩; 4; .d
  (∀ (s : State) (q : Req) (h : Fin 4) (off : BitVec 28) (z : Size), s.flashBusy = false → q.ni.val = h.val → s.QuietMemory →
      s.xipReadable (0x20000000 + off.toNat) (sizeBytes z) = true → off.toNat % 64 + sizeBytes z ≤ 64 →
    ∃ t, exec (.xipLoad q off z false) s = .next t ∧
      t.resp = ⟨false, BitVec.ofNat 64 (leNat ((List.range (sizeBytes z)).map (fun i => s.flashByte (s.xipOffset (0x20000000 + off.toNat + i)))))⟩ ∧
      t.boot = { s.boot with sent := [s.readTransfer (s.xipOffset (lineOf (0x20000000 + off.toNat))) 64] } ∧
      (t.lineIn (.l1d h.val) (lineOf (0x20000000 + off.toNat))).isSome = true ∧ KeepsMem s t ∧ s.OnlyCaches { t with resp := s.resp, boot := s.boot }) ∧
--w (on (bootable 0 0) P.OSPI).setFld F.OSPI_XIP_EN 1 |>.setFld F.OSPI_SIZE_LOG2 20; ⟨2, true⟩; 2; 8; .d
  (∀ (s : State) (q : Req) (off : BitVec 28) (z : Size), s.flashBusy = true → s.lineHeld (lineOf (0x20000000 + off.toNat)) = false →
    ∃ t, exec (.xipLoad q off z false) s = .next t ∧ t.flag F.OSPI_STAT_XIP_WAIT = true ∧
      t.boot = { s.boot with xip := s.boot.xip ++ [⟨q, 0x20000000 + off.toNat, z, .command⟩] } ∧
      KeepsRegs s t [R.OSPI_STAT] ∧ t = { s with regs := t.regs, boot := t.boot }) ∧
--w { State.reset with boot := { BootState.reset with command := some cmd0 } }; ⟨0, true⟩; 4; .d
  (∀ (s : State) (q : Req) (off : BitVec 28) (z : Size), s.flashBusy = false → s.lineHeld (lineOf (0x20000000 + off.toNat)) = false →
      s.xipReadable (0x20000000 + off.toNat) (sizeBytes z) = false →
    ∃ t, exec (.xipLoad q off z false) s = .next t ∧ t = { s with resp := ⟨true, 0#64⟩ }) ∧
--w State.reset; ⟨0, true⟩; 4; .d
  (∀ (s : State) (q : Req), OpenTo s q P.OSPI → s.boot.command = none →
    ∃ t, exec (.ospiResetPulse q) s = .next t ∧ t.boot = { s.boot with resetPulses := s.boot.resetPulses + 1, wren := false } ∧
      t.resp = ⟨false, 0#64⟩ ∧
      KeepsRegs s t ([R.OSPI_RESET] ++ logRegs P.OSPI) ∧ t = { s with regs := t.regs, resp := t.resp, boot := t.boot }) ∧
--w State.reset; ⟨0, true⟩
  (∀ (s : State) (q : Req) (c : OspiCommand), OpenTo s q P.OSPI → s.boot.command = some c →
    ∃ t, exec (.ospiResetPulse q) s = .next t ∧ t.event P.OSPI 31 = true ∧
      (s.flag (F.CLAMP_ADDR_VALID P.OSPI) = false → t.fld (F.CLAMP_ADDR_REASON P.OSPI) = 1) ∧
      KeepsRegs s t (logRegs P.OSPI) ∧ t = { s with regs := t.regs, resp := t.resp, fresh := s.fresh + 1 }) ∧
--w { State.reset with boot := { BootState.reset with command := some cmd0 } }; ⟨0, true⟩; cmd0
  (∀ (s : State) (c : Nat) (k : HeddleChannel) (it : HeddleItem), s.flashBusy = false → s.ioLive P.OSPI = true →
      s.PortWork 2 0x30 c k it → it.param < 2 ^ 28 → it.param + it.len ≤ 2 ^ s.fld F.OSPI_SIZE_LOG2 → s.PlainRange k.e.inst it.dst it.len →
    ∃ t, exec (.ospiItem false none) s = .next t ∧ t.itemStatus c it.index = some (0, 0) ∧
      t.bytesAt it.dst it.len = s.flashBytes (if s.flag F.OSPI_XIP_ADDR4 then it.param else it.param % 2 ^ 24) it.len ∧
      KeepsMemBut s t it.dst it.len ∧ t.boot = { s.boot with sent := [s.readTransfer it.param it.len] } ∧ OnlyWork s t c ∧
      KeepsRegs s t [] ∧ t = { s with mem := t.mem, boot := t.boot, heddle := t.heddle, memory := t.memory }) ∧
--w on (((work 2 0x30 item0)).setFld F.L3_CFG_HEDDLE_ALLOC 0) P.OSPI; 9; chan0 2 0x30 item0; item0
  (∀ (s : State) (c : Nat) (k : HeddleChannel) (it : HeddleItem) (st : Byte), s.flashBusy = false → s.ioLive P.OSPI = true → s.bankLive 0 = true →
      s.PortWork 3 0x31 c k it → it.param < 2 ^ 28 → it.param + it.len ≤ 2 ^ s.fld F.OSPI_SIZE_LOG2 → 0 < it.len →
      it.param / 2 ^ s.fld F.OSPI_HEDDLE_PAGE_LOG2 = (it.param + it.len - 1) / 2 ^ s.fld F.OSPI_HEDDLE_PAGE_LOG2 →
      s.PlainRange k.e.inst it.src it.len → s.boot.xip = [] → st.toNat &&& s.fld F.OSPI_POLL_MASK = s.fld F.OSPI_POLL_MATCH →
    ∃ t, exec (.ospiItem true (some st)) s = .next t ∧ t.itemStatus c it.index = some (0, 0) ∧ t.fld F.OSPI_STAT_STATUS = st.toNat ∧
      t.boot = { s.boot with flash := programBytes s.boot.flash it.param (s.bytesAt it.src it.len), wren := false, sent := t.boot.sent } ∧
      t.boot.sent.map (fun x => x.opcode) = [s.ospiBus.opcode (s.fld F.OSPI_WREN_OP), s.ospiBus.opcode (s.fld F.OSPI_HEDDLE_PROG_OP),
        s.ospiBus.opcode (s.fld F.OSPI_POLL_OP)] ∧
      KeepsMem s t ∧ OnlyWork s t c ∧ KeepsRegs s t [R.OSPI_STAT])
--w on (((work 3 0x31 item0)).setFld F.L3_CFG_HEDDLE_ALLOC 0) P.OSPI; 9; chan0 3 0x31 item0; item0; 0

/-- REFERENCE_EVENT, REED_HOLDOVER, HOLD_LEFT_TICK, ENC_COUNT, ENC_INDEX, REED_SRC_CHANGE, REED_ENABLE, ANGLE_ZERO_CROSSING, SLOT_FIRE and
COMB_TRIGGER, each from the state that Reed's own ticks reach (R163 to R189). -/
def Obligations.ReedReferenceEncoderAndSlots : Prop :=
  (∀ (s : State) (dt : BitVec 32) (level : Bool) (hold : BitVec 20), (s.later dt).reedSt = 2 → (s.later dt).fld F.REED_SRC_SRC = 1 →
      (s.later dt).encLive = true → (s.later dt).flag F.REED_ENC_Z_EN = true → (s.later dt).flag F.REED_ENC_POS_REVERSE = false →
      (s.later dt).screeActs = false → (s.later dt).InStride →
    ∃ t, exec (.referenceEvent dt level hold) s = .next t ∧ t.reedSt = 2 ∧ t.reed.deviants = 0 ∧ t.reed.sinceAccepted = 0 ∧
      t.reed.sinceReceived = 0 ∧ t.reed.intervals = ((s.later dt).reed.sinceAccepted.toNat :: (s.later dt).reed.intervals).take 8 ∧
      t.reed.accepted = true ∧ t.fld F.REED_EDGE_STAMP_PHASE = unsext 32 ((s.later dt).phaseAt 0) ∧
      t.fld F.REED_ERR_LAST = unsext 16 ((s.later dt).reedError 0 0) ∧ t.fld F.REED_ENC_POS_POS = 0 ∧
      KeepsPages (s.later dt) t [P.REED] ∧ t = { s.later dt with regs := t.regs, reed := t.reed }) ∧
--w ((reedOn 2 1).setFld F.REED_ENC_Z_EN 1).modReed (fun r => { r with sinceAccepted := 4000000 }); 0; true; 0
  (∀ (s : State) (dt : BitVec 32) (level : Bool), (s.later dt).fld F.REED_SRC_SRC = 0 →
    ∃ t, exec (.referenceEvent dt level 0) s = .next t ∧ t = { s.later dt with reed := { (s.later dt).reed with zcIn := level } }) ∧
--w reedOn 2 0; 1; true
  (∀ (s : State) (dt : BitVec 32) (level : Bool) (k need : Nat) (a : BitVec 64), (s.later dt).reedSt = 1 → (s.later dt).fld F.REED_SRC_SRC = 0 →
      (s.later dt).reedClocked = true → (s.later dt).bankLive 3 = true → (s.later dt).screeActs = false → (s.later dt).ptpRuns = false →
      (s.later dt).reed.slots = [] → (s.later dt).reed.pendingSlots = [] → (s.later dt).reed.combPending = false →
      Bits.get (s.later dt).reed.comb 0 1 = 0 → (s.later dt).reed.due = [] → (s.later dt).reed.combDue = [] →
      (s.later dt).reedHighest / cycleUnits = ((s.later dt).reed.acc.toNat + (s.later dt).fld F.REED_INC_INC) / cycleUnits →
      (s.later dt).reed.slew = 0 → (s.later dt).reed.received = false →
      (s.later dt).reed.zcLevel = (! level) → level = ! (s.later dt).flag F.REED_ZC_EDGE → (s.later dt).reed.zcHold = some ⟨k, need, a⟩ → need ≤ k + 1 →
    ∃ t, exec (.referenceEvent dt level 1) s = .next t ∧ t.reedSt = 1 ∧ t.reed.zcLevel = level ∧ t.reed.zcHold = none ∧
      t.reed.received = true ∧ t.reed.sinceReceived = need ∧
      t.reed.acc = BitVec.ofNat 64 ((s.later dt).reed.acc.toNat + (s.later dt).fld F.REED_INC_INC) ∧
      KeepsPages (s.later dt) t [P.REED] ∧ t = { s.later dt with regs := t.regs, reed := t.reed, field := t.field }) ∧
--w (reedOn 1 0).modReed (fun r => { r with zcHold := some ⟨9999, 10000, 7#64⟩, zcLevel := false }); 0; true; 9999; 10000; 7
  (∀ (s : State) (dt : BitVec 32), (s.later dt).reedSt = 2 → (s.later dt).reedClocked = true →
      (s.later dt).ReedQuiet → (s.later dt).reed.due = [] → (s.later dt).reed.combDue = [] →
      (s.later dt).reedHighest / cycleUnits = ((s.later dt).reed.acc.toNat + (s.later dt).fld F.REED_INC_INC) / cycleUnits →
      (s.later dt).fld F.REED_HOLD_CYCLES ≠ 0 →
      (5 * (s.later dt).reed.period.1 : Int) ≤ (4 * (s.later dt).reed.period.2 : Nat) * ((s.later dt).reed.sinceAccepted + 1) →
    ∃ t, exec (.reedHoldover dt) s = .next t ∧ t.reedSt = 4 ∧ t.event P.REED E.REED_HOLDOVER = true ∧
      t.fld F.REED_STATE_HOLD_LEFT = (s.later dt).fld F.REED_HOLD_CYCLES ∧ t.reed.holdTicks = 0 ∧ t.reed.deviants = 0 ∧
      KeepsPages (s.later dt) t [P.REED] ∧ t = { s.later dt with regs := t.regs, reed := t.reed, field := t.field }) ∧
--w ((reedOn 2 0).setFld F.REED_HOLD_CYCLES 9).modReed (fun r => { r with sinceAccepted := 4999999 }); 0
  (∀ (s : State) (dt : BitVec 32), (s.later dt).reedSt = 4 → (s.later dt).reedClocked = true →
      (s.later dt).ReedQuiet → (s.later dt).reed.due = [] → (s.later dt).reed.combDue = [] →
      (s.later dt).reedHighest / cycleUnits = ((s.later dt).reed.acc.toNat + (s.later dt).fld F.REED_INC_INC) / cycleUnits →
      2 ≤ (s.later dt).fld F.REED_STATE_HOLD_LEFT → (s.later dt).reed.holdTicks < (s.later dt).reed.period.1 →
      (s.later dt).reed.period.1 ≤ (s.later dt).reed.holdTicks + (s.later dt).reed.period.2 →
    ∃ t, exec (.holdLeftTick dt) s = .next t ∧ t.reedSt = 4 ∧
      t.fld F.REED_STATE_HOLD_LEFT = (s.later dt).fld F.REED_STATE_HOLD_LEFT - 1 ∧
      t.reed.holdTicks = (s.later dt).reed.holdTicks + (s.later dt).reed.period.2 - (s.later dt).reed.period.1 ∧
      KeepsPages (s.later dt) t [P.REED] ∧ t = { s.later dt with regs := t.regs, reed := t.reed, field := t.field }) ∧
--w ((reedOn 4 0).setFld F.REED_STATE_HOLD_LEFT 9).modReed (fun r => { r with holdTicks := 3999999 }); 0
  (∀ (s : State) (dt : BitVec 32), (s.later dt).reedSt = 4 → (s.later dt).reedClocked = true →
      (s.later dt).ReedQuiet → (s.later dt).reed.due = [] → (s.later dt).reed.combDue = [] →
      (s.later dt).reedHighest / cycleUnits = ((s.later dt).reed.acc.toNat + (s.later dt).fld F.REED_INC_INC) / cycleUnits →
      (s.later dt).fld F.REED_STATE_HOLD_LEFT = 1 → (s.later dt).reed.period.1 ≤ (s.later dt).reed.holdTicks + (s.later dt).reed.period.2 →
    ∃ t, exec (.holdLeftTick dt) s = .next t ∧ t.reedSt = 5 ∧ t.fld F.REED_STATE_HOLD_LEFT = 0 ∧ t.event P.REED E.REED_FREE = true ∧
      KeepsPages (s.later dt) t [P.REED] ∧ t = { s.later dt with regs := t.regs, reed := t.reed, field := t.field }) ∧
--w ((reedOn 4 0).setFld F.REED_STATE_HOLD_LEFT 1).modReed (fun r => { r with holdTicks := 3999999 }); 0
  (∀ (s : State) (dt : BitVec 32) (hold : BitVec 8), 2 ≤ hold.toNat → (s.later dt).encLive = true → (s.later dt).reed.reverseBy = 0 →
      (s.later dt).flag F.REED_ENC_DIR = false → (s.later dt).flag F.REED_ENC_Z_EN = true →
    ∃ t, exec (.encCount dt .aLeads hold) s = .next t ∧
      t.fld F.REED_ENC_POS_POS = ((s.later dt).fld F.REED_ENC_POS_POS + 1) % 65536 ∧
      t.fld F.REED_ERR_LAST = unsext 16 ((s.later dt).reedError 0
        (encAngle ((s.later dt).fld F.REED_ENC_CPT) (((s.later dt).fld F.REED_ENC_POS_POS + 1) % 65536))) ∧
      KeepsRegs (s.later dt) t [R.REED_ENC_POS, R.REED_ERR] ∧ t = { s.later dt with regs := t.regs, reed := t.reed }) ∧
--w ((reedOn 2 1).setFld F.REED_ENC_POS_POS 65535).setFld F.REED_ENC_Z_EN 1; 2; 2
  (∀ (s : State) (dt : BitVec 32) (hold : BitVec 8), 2 ≤ hold.toNat → (s.later dt).encLive = true → (s.later dt).flag F.REED_ENC_DIR = false →
      (s.later dt).flag F.REED_ENC_Z_EN = true →
    ∃ t, exec (.encCount dt .bLeads hold) s = .next t ∧
      t.fld F.REED_ENC_POS_POS = ((s.later dt).fld F.REED_ENC_POS_POS + 65535) % 65536 ∧
      t.flag F.REED_ENC_POS_REVERSE = true ∧ t.reed = { (s.later dt).reed with reverseBy := (s.later dt).reed.reverseBy + 1 } ∧
      KeepsRegs (s.later dt) t [R.REED_ENC_POS] ∧ t = { s.later dt with regs := t.regs, reed := t.reed }) ∧
--w ((reedOn 2 1).setFld F.REED_ENC_POS_POS 0).setFld F.REED_ENC_Z_EN 1; 2; 255
  (∀ (s : State) (dt : BitVec 32) (hold : BitVec 8), 2 ≤ hold.toNat → (s.later dt).encLive = true →
    ∃ t, exec (.encCount dt .illegal hold) s = .next t ∧ t.event P.REED E.REED_ENC_ERROR = true ∧
      t.fld F.REED_COUNTS_GLITCH = min (2 ^ F.REED_COUNTS_GLITCH.width - 1) ((s.later dt).fld F.REED_COUNTS_GLITCH + 1) ∧
      KeepsRegs (s.later dt) t [R.REED_COUNTS, R.EVT_RAW P.REED] ∧ t = { s.later dt with regs := t.regs }) ∧
--w reedOn 2 1; 0; 2
  (∀ (s : State) (dt : BitVec 32) (k : EncStep) (hold : BitVec 8), hold.toNat < 2 →
    ∃ t, exec (.encCount dt k hold) s = .next t ∧ t = s.later dt) ∧
--w reedOn 2 1; 1; .aLeads; 1
  (∀ (s : State) (dt : BitVec 32) (hold : BitVec 8), 2 ≤ hold.toNat → (s.later dt).encLive = true → (s.later dt).reedSt = 1 →
      (s.later dt).flag F.REED_ENC_Z_EN = true → (s.later dt).flag F.REED_ENC_POS_REVERSE = false →
      (s.later dt).screeActs = false → (s.later dt).reed.received = false →
    ∃ t, exec (.encIndex dt hold) s = .next t ∧ t.fld F.REED_ENC_POS_POS = 0 ∧
      t.reed = { (s.later dt).reed with received := true, sinceReceived := 0, ptpReceived := 0 } ∧
      KeepsRegs (s.later dt) t [R.REED_ENC_POS] ∧ t = { s.later dt with regs := t.regs, reed := t.reed }) ∧
--w ((reedOn 1 1).setFld F.REED_ENC_POS_POS 77).setFld F.REED_ENC_Z_EN 1; 2; 2
  (∀ (s : State) (q : Req), OpenTo s q P.REED → s.reedSt ≠ 0 → s.fld F.REED_SRC_SRC ≠ 3 →
    ∃ t, exec (.reedSrcChange q 3#2) s = .next t ∧ t.fld F.REED_SRC_SRC = 3 ∧ t.reedSt = 5 ∧ t.event P.REED E.REED_FREE = true ∧
      t.reed = { s.reed.noSlew with received := false } ∧ t.resp = ⟨false, 0#64⟩ ∧
      KeepsPages s t [P.REED] ∧ t = { s with regs := t.regs, resp := t.resp, reed := t.reed }) ∧
--w reedOn 2 0; ⟨0, false⟩
  (∀ (s : State) (q : Req) (src : Fin 3), OpenTo s q P.REED → s.reedSt ≠ 0 → s.fld F.REED_SRC_SRC ≠ src.val →
    ∃ t, exec (.reedSrcChange q (BitVec.ofNat 2 src.val)) s = .next t ∧ t.fld F.REED_SRC_SRC = src.val ∧ t.reedSt = 1 ∧
      t.fld F.REED_STATE_LOCK_RUN = 0 ∧ t.reed = { s.reed.noSlew with received := false, intervals := [], deviants := 0 } ∧
      t.resp = ⟨false, 0#64⟩ ∧ KeepsPages s t [P.REED] ∧ t = { s with regs := t.regs, resp := t.resp, reed := t.reed }) ∧
--w reedOn 2 0; ⟨0, false⟩; 2
  (∀ (s : State), s.flag (F.PAGE_CTRL_ENABLE P.REED) = true → s.running P.REED = false → s.resetting P.REED = false →
    ∃ t, exec .reedEnable s = .next t ∧ t.running P.REED = true ∧ t.reedSt = (if s.fld F.REED_SRC_SRC = 3 then 5 else 1) ∧
      t.reed.acc = 0#64 ∧ t.fld F.REED_NOW_PHASE = 0 ∧ t.reed.comb = s.raw R.REED_COMB ∧
      (∀ n : Fin 128, (t.reedSlot n.val).map (fun k => (k.a, k.b, k.count)) =
        if s.flag (F.REED_SLOT_B_ARM n.val) then some (s.raw (R.REED_SLOT_A n.val), s.raw (R.REED_SLOT_B n.val), s.fld (F.REED_SLOT_B_SKIP n.val)) else none) ∧
      KeepsPages s t [P.REED] ∧ t = { s with regs := t.regs, reed := t.reed }) ∧
--w (State.reset.setFld (F.PAGE_CTRL_ENABLE P.REED) 1).setFld (F.REED_SLOT_B_ARM 5) 1
  (∀ (s : State), s.flag (F.PAGE_CTRL_ENABLE P.REED) = false → s.running P.REED = true → s.resetting P.REED = false →
    ∃ t, exec .reedEnable s = .next t ∧ t.running P.REED = false ∧ t.reedSt = 0 ∧ t.reed.acc = 0#64 ∧ t.fld F.REED_NOW_PHASE = 0 ∧
      t.reed.slots = [] ∧ t.reed.due = [] ∧ t.reed.combDue = [] ∧ KeepsPages s t [P.REED] ∧ t = { s with regs := t.regs, reed := t.reed }) ∧
--w (reedOn 2 0).setFld (F.PAGE_CTRL_ENABLE P.REED) 0
  (∀ (s : State) (dt : BitVec 32), (s.later dt).reedSt = 5 → (s.later dt).reedClocked = true → (s.later dt).kept 2 = true →
      (s.later dt).ReedQuiet → (s.later dt).reed.due = [] → (s.later dt).reed.combDue = [] →
      (s.later dt).reedHighest / cycleUnits < ((s.later dt).reed.acc.toNat + (s.later dt).fld F.REED_INC_INC) / cycleUnits →
    ∃ t, exec (.angleZeroCrossing dt) s = .next t ∧ t.event P.REED E.REED_CYCLE = true ∧ (t.gate 129).latch = true ∧
      t.reed.acc = BitVec.ofNat 64 ((s.later dt).reed.acc.toNat + (s.later dt).fld F.REED_INC_INC) ∧
      KeepsPages (s.later dt) t [P.REED, P.CAIRN_CTL] ∧
      t = { s.later dt with regs := t.regs, reed := t.reed, field := t.field, cairn := t.cairn, shuttle := t.shuttle }) ∧
--w ((reedOn 5 3).setFld F.REED_INC_INC 60000).modReed (fun r => { r with acc := 0xFFFFFFFFFFFFFFF0#64 }); 0
  (∀ (s : State) (dt : BitVec 32) (n : Fin 128) (d : ReedDue), (s.later dt).reedSt = 5 →
      (s.later dt).reedClocked = true → (s.later dt).ReedQuiet → (s.later dt).reed.combDue = [] →
      (s.later dt).reed.due = [d] → d.slot = n.val → Bits.get d.b 0 4 = 2 → Bits.get d.b 4 12 < 16 → d.late = false →
      (s.later dt).reedHighest / cycleUnits = ((s.later dt).reed.acc.toNat + (s.later dt).fld F.REED_INC_INC) / cycleUnits →
    ∃ t, exec (.slotFire dt n) s = .next t ∧ (t.fld (F.REED_SLOT_FIRED_FIRED (n.val / 32))).testBit (n.val % 32) = true ∧
      (t.fld F.SHUTTLE_PIN_LATCH_LATCH) = (s.later dt).fld F.SHUTTLE_PIN_LATCH_LATCH ||| 2 ^ Bits.get d.b 4 12 ∧ t.reed.due = [] ∧
      KeepsPages (s.later dt) t [P.REED, P.SHUTTLE] ∧ t = { s.later dt with regs := t.regs, reed := t.reed, field := t.field }) ∧
--w ((reedOn 5 3).setFld F.REED_INC_INC 60000).modReed (fun r => { r with due := [⟨127, 0xF2#64, 5, 0, false, false⟩] }); 0; 127; ⟨127, 0xF2#64, 5, 0, false, false⟩
  (∀ (s : State) (dt : BitVec 32) (stamp mask : Nat), (s.later dt).reedSt = 5 → (s.later dt).reedClocked = true →
      (s.later dt).ReedQuiet → (s.later dt).reed.due = [] → (s.later dt).reed.combDue = [(stamp, mask)] →
      (s.later dt).reedHighest / cycleUnits = ((s.later dt).reed.acc.toNat + (s.later dt).fld F.REED_INC_INC) / cycleUnits →
    ∃ t, exec (.combTrigger dt) s = .next t ∧ t.reed.combDue = [] ∧
      t.field.adc = ((s.later dt).reedAdc mask stamp).field.adc ∧
      KeepsPages (s.later dt) t [P.REED, P.ADC 0, P.ADC 1] ∧ t.mem = (s.later dt).mem ∧ t.harts = (s.later dt).harts ∧ t.pending = s.pending)
--w ((reedOn 5 3).setFld F.REED_INC_INC 60000).modReed (fun r => { r with combDue := [(77, 1)] }); 0; 77; 1

/-- EDGE_SOURCE, LEVEL_SOURCE_CHANGE, CLAIM, COMPLETE, MESSAGE, CAIRN_ARRAY_WRITE, CAIRN_RELEASE and HART_WAKE. -/
def Obligations.CairnSourcesClaimsAndMessages : Prop :=
  (∀ (s : State) (id : BitVec 11), (isEdgeSource id.toNat || isCombined id.toNat) = true → s.kept 2 = true → (s.gate id.toNat).latch = false →
    ∃ t, exec (.edgeSource id) s = .next t ∧ t.gate id.toNat = { s.gate id.toNat with latch := true } ∧
      (∀ j : Fin 2048, j.val ≠ id.toNat → t.gate j.val = s.gate j.val) ∧ t = { s with cairn := t.cairn }) ∧
--w State.reset; 12
--w State.reset; 2047
--w State.reset; 223
  (∀ (s : State) (id : BitVec 11), (isEdgeSource id.toNat || isCombined id.toNat) = true → s.kept 2 = true → (s.gate id.toNat).latch = true →
    ∃ t, exec (.edgeSource id) s = .next t ∧ t.cairn = s.cairn ∧ t.fld F.CAIRN_COALESCE_LAST_ID = id.toNat ∧
      t.fld F.CAIRN_COALESCE_COUNT = min 65535 (s.fld F.CAIRN_COALESCE_COUNT + 1) ∧ t.event P.CAIRN_CTL E.CAIRN_CTL_COALESCE = true ∧
      KeepsRegs s t [R.CAIRN_COALESCE, R.EVT_RAW P.CAIRN_CTL] ∧ t = { s with regs := t.regs }) ∧
--w State.reset.setGate 2047 ⟨true, false, 0⟩; 2047
--w (State.reset.setGate 359 ⟨true, false, 0⟩).setFld F.CAIRN_COALESCE_COUNT 65535; 359
  (∀ (s : State) (id : BitVec 11), ((isEdgeSource id.toNat || isCombined id.toNat) = false ∨ s.kept 2 = false) →
    ∃ t, exec (.edgeSource id) s = .next t ∧ t = s) ∧
--w State.reset; 0
--w { State.reset with power := { PowerState.reset with phase := .off } }; 2047
  (∀ (s : State) (id : BitVec 11) (level : Bool), (isLevelSource id.toNat || isCombined id.toNat) = true → s.levelAt id.toNat = level →
    ∃ t, exec (.levelSourceChange id level) s = .next t ∧ t = s ∧
      t.pendingOf id.toNat = (! (t.gate id.toNat).active && ((isCombined id.toNat && (t.gate id.toNat).latch) || level))) ∧
--w { State.reset with power := { PowerState.reset with pfail := true } }; 3; true
--w State.reset; 1; false
--w State.reset.setGate 223 ⟨true, false, 0⟩; 223; false
  (∀ (s : State) (q : Req) (ctx : Fin 36), q.ni ≠ 8 → s.bestSource ctx.val ≠ 0 →
    ∃ t, exec (.claim q ctx) s = .next t ∧ t.resp = ⟨false, BitVec.ofNat 64 (s.bestSource ctx.val)⟩ ∧
      t.gate (s.bestSource ctx.val) = { s.gate (s.bestSource ctx.val) with latch := false, active := true, claimer := ctx.val } ∧
      (∀ j : Fin 2048, j.val ≠ s.bestSource ctx.val → t.gate j.val = s.gate j.val) ∧
      t = { s with cairn := t.cairn, resp := t.resp }) ∧
--w cairnPending; ⟨0, true⟩; 0
  (∀ (s : State) (q : Req) (ctx : Fin 36), q.ni ≠ 8 → s.bestSource ctx.val = 0 →
    ∃ t, exec (.claim q ctx) s = .next t ∧ t = { s with resp := ⟨false, 0#64⟩ }) ∧
--w State.reset; ⟨0, true⟩; 35
  (∀ (s : State) (q : Req) (ctx : Fin 36), q.ni = 8 → ∃ t, exec (.claim q ctx) s = .next t ∧ t = { s with resp := ⟨true, 0#64⟩ }) ∧
--w cairnPending; ⟨8, true⟩; 0
  (∀ (s : State) (q : Req) (ctx : Fin 36) (id : BitVec 32), q.ni = 8 →
    ∃ t, exec (.complete q ctx id) s = .next t ∧ t = { s with resp := ⟨true, 0#64⟩ }) ∧
--w State.reset.setGate 2047 ⟨false, true, 0⟩; ⟨8, true⟩; 0; 2047
  (∀ (s : State) (q : Req) (ctx : Fin 36) (id : BitVec 32), q.ni ≠ 8 → id ≠ 0 → id.toNat ≤ 2047 → (s.gate id.toNat).active = true →
      (s.gate id.toNat).claimer = ctx.val → s.ctxAbsent ctx.val = false →
    ∃ t, exec (.complete q ctx id) s = .next t ∧ t.gate id.toNat = { s.gate id.toNat with active := false, claimer := 0 } ∧
      (∀ j : Fin 2048, j.val ≠ id.toNat → t.gate j.val = s.gate j.val) ∧ t = { s with cairn := t.cairn, resp := ⟨false, 0#64⟩ }) ∧
--w State.reset.setGate 2047 ⟨true, true, 0⟩; ⟨3, true⟩; 0; 2047
  (∀ (s : State) (q : Req) (ctx : Fin 36) (id : BitVec 32), q.ni ≠ 8 →
      (id = 0 ∨ 2047 < id.toNat ∨ (s.gate id.toNat).active = false ∨ (s.gate id.toNat).claimer ≠ ctx.val ∨ s.ctxAbsent ctx.val = true) →
    ∃ t, exec (.complete q ctx id) s = .next t ∧ t.event P.CAIRN_CTL E.CAIRN_CTL_BAD_COMPLETE = true ∧ t.event P.CAIRN_CTL 31 = true ∧
      KeepsRegs s t (logRegs P.CAIRN_CTL) ∧ t = { s with regs := t.regs, resp := ⟨false, 0#64⟩ }) ∧
--w State.reset; ⟨3, true⟩; 0; 2048
--w State.reset.setGate 2047 ⟨true, true, 0⟩; ⟨3, true⟩; 1; 2047
--w (State.reset.setGate 2047 ⟨true, true, 9⟩).setFlag F.SYSCFG_MODE_GUARDED true; ⟨3, true⟩; 9; 2047
  (∀ (s : State) (q : Req) (g : Fin 16) (j : Fin 32) (v : BitVec 32), s.kept 2 = true → (s.gate (1536 + 32 * g.val + j.val)).latch = false →
    ∃ t, exec (.message q g j v) s = .next t ∧
      t.gate (1536 + 32 * g.val + j.val) = { s.gate (1536 + 32 * g.val + j.val) with latch := true } ∧
      (∀ i : Fin 2048, i.val ≠ 1536 + 32 * g.val + j.val → t.gate i.val = s.gate i.val) ∧
      t = { s with cairn := t.cairn, resp := ⟨false, 0#64⟩ }) ∧
--w State.reset; ⟨8, false⟩; 15; 31; 7
--w State.reset; ⟨0, true⟩; 0; 0; 7
  (∀ (s : State) (q : Req) (g : Fin 16) (j : Fin 32) (v : BitVec 32), s.kept 2 = true → (s.gate (1536 + 32 * g.val + j.val)).latch = true →
    ∃ t, exec (.message q g j v) s = .next t ∧ t.fld F.CAIRN_COALESCE_LAST_ID = 1536 + 32 * g.val + j.val ∧
      t.fld F.CAIRN_COALESCE_COUNT = min 65535 (s.fld F.CAIRN_COALESCE_COUNT + 1) ∧ t.event P.CAIRN_CTL E.CAIRN_CTL_COALESCE = true ∧
      KeepsRegs s t [R.CAIRN_COALESCE, R.EVT_RAW P.CAIRN_CTL] ∧ t = { s with regs := t.regs, resp := ⟨false, 0#64⟩ }) ∧
--w State.reset.setGate 2047 ⟨true, false, 0⟩; ⟨8, false⟩; 15; 31; 7
  (∀ (s : State) (q : Req) (c : Fin 36) (v : Word), q.ni ≠ 8 →
    ∃ t, exec (.cairnArrayWrite q (BitVec.ofNat 22 (0x200000 + 0x1000 * c.val)) .w (v.zeroExtend 64)) s = .next t ∧
      t.thresholdOf c.val = v.toNat % 32 ∧ (∀ d : Fin 36, d ≠ c → t.thresholdOf d.val = s.thresholdOf d.val) ∧
      (32 ≤ v.toNat → t.event P.CAIRN_CTL 31 = true) ∧ KeepsRegs s t (if 32 ≤ v.toNat then logRegs P.CAIRN_CTL else []) ∧
      t.cairn = { s.cairn with threshold := t.cairn.threshold } ∧ t = { s with regs := t.regs, cairn := t.cairn, resp := ⟨false, 0#64⟩ }) ∧
--w State.reset; ⟨0, true⟩; 35; 31
--w State.reset; ⟨0, true⟩; 0; 0xFFFFFFFF
  (∀ (s : State) (q : Req) (c : Fin 36) (w : Fin 64) (v : Word), q.ni ≠ 8 →
    ∃ t, exec (.cairnArrayWrite q (BitVec.ofNat 22 (0x2000 + 0x100 * c.val + 4 * w.val)) .w (v.zeroExtend 64)) s = .next t ∧
      t.enableWord c.val w.val = enableBits w.val v.toNat ∧
      (∀ d : Fin 36, ∀ x : Fin 64, (d ≠ c ∨ x ≠ w) → t.enableWord d.val x.val = s.enableWord d.val x.val) ∧
      (reservedEnableRuns w.val v.toNat ≠ 0 → t.event P.CAIRN_CTL 31 = true) ∧
      KeepsRegs s t (if reservedEnableRuns w.val v.toNat = 0 then [] else logRegs P.CAIRN_CTL) ∧
      t.cairn = { s.cairn with enable := t.cairn.enable } ∧ t = { s with regs := t.regs, cairn := t.cairn, resp := ⟨false, 0#64⟩ }) ∧
--w State.reset; ⟨0, true⟩; 35; 63; 0xFFFFFFFF
--w State.reset; ⟨0, true⟩; 0; 0; 14
--w State.reset; ⟨0, true⟩; 0; 0; 0xFFFFFFFF
  (∀ (s : State) (q : Req) (w : Fin 512) (v : Word), q.ni ≠ 8 →
    ∃ t, exec (.cairnArrayWrite q (BitVec.ofNat 22 (4 * w.val)) .w (v.zeroExtend 64)) s = .next t ∧
      (∀ i : Fin 4, t.prioOf (4 * w.val + i.val) =
        if sourceReserved (4 * w.val + i.val) then s.prioOf (4 * w.val + i.val) else v.toNat / 2 ^ (8 * i.val) % 32) ∧
      (∀ j : Fin 2048, j.val / 4 ≠ w.val → t.prioOf j.val = s.prioOf j.val) ∧ KeepsRegs s t (logRegs P.CAIRN_CTL) ∧
      ((∀ i : Fin 4, sourceReserved (4 * w.val + i.val) = false) → v &&& 0xE0E0E0E0#32 = 0 → t.regs = s.regs) ∧
      t.cairn = { s.cairn with prio := t.cairn.prio } ∧ t = { s with regs := t.regs, cairn := t.cairn, resp := ⟨false, 0#64⟩ }) ∧
--w State.reset; ⟨0, true⟩; 511; 0x1F00011E
--w State.reset; ⟨0, true⟩; 0; 0xFFFFFFFF
  (∀ (s : State) (q : Req) (off : BitVec 22) (size : Size) (v : DWord), q.ni ≠ 8 → (size ≠ .w ∨ off.toNat % 4 ≠ 0) →
    ∃ t, exec (.cairnArrayWrite q off size v) s = .next t ∧ t.event P.CAIRN_CTL 31 = true ∧
      (s.flag (F.CLAMP_ADDR_VALID P.CAIRN_CTL) = false → t.fld (F.CLAMP_ADDR_REASON P.CAIRN_CTL) = 3) ∧
      KeepsRegs s t (logRegs P.CAIRN_CTL) ∧ t = { s with regs := t.regs, resp := ⟨false, 0#64⟩ }) ∧
--w State.reset; ⟨0, true⟩; 0x200001; .w; 1
--w State.reset; ⟨0, true⟩; 0; .d; 0
  (∀ (s : State) (q : Req) (off : BitVec 22) (v : Word), q.ni ≠ 8 → off.toNat % 4 = 0 → cairnWordAt off.toNat = .none →
    ∃ t, exec (.cairnArrayWrite q off .w (v.zeroExtend 64)) s = .next t ∧ (v ≠ 0 → t.event P.CAIRN_CTL 31 = true) ∧
      KeepsRegs s t (if v = 0 then [] else logRegs P.CAIRN_CTL) ∧ t = { s with regs := t.regs, resp := ⟨false, 0#64⟩ }) ∧
--w State.reset; ⟨0, true⟩; 0x800; 0
--w State.reset; ⟨0, true⟩; 0x200008; 1
  (∀ (s : State) (q : Req) (off : BitVec 22) (size : Size) (v : DWord), q.ni = 8 → off.toNat < 0x3F0000 →
    ∃ t, exec (.cairnArrayWrite q off size v) s = .next t ∧ t = { s with resp := ⟨true, 0#64⟩ }) ∧
--w State.reset; ⟨8, true⟩; 0x3EFFFF; .d; 1
  (∀ (s : State) (q : Req) (id : BitVec 11) (ctx : BitVec 6), OpenTo s q P.CAIRN_CTL → id ≠ 0 → (s.gate id.toNat).active = true →
    ∃ t, exec (.cairnRelease q id ctx false) s = .next t ∧ t.gate id.toNat = { s.gate id.toNat with active := false, claimer := 0 } ∧
      (∀ j : Fin 2048, j.val ≠ id.toNat → t.gate j.val = s.gate j.val) ∧
      KeepsRegs s t (R.CAIRN_RELEASE :: logRegs P.CAIRN_CTL) ∧ t = { s with regs := t.regs, cairn := t.cairn, resp := ⟨false, 0#64⟩ }) ∧
--w State.reset.setGate 2047 ⟨true, true, 0⟩; ⟨3, true⟩; 2047; 0
  (∀ (s : State) (q : Req) (id : BitVec 11) (ctx : BitVec 6), OpenTo s q P.CAIRN_CTL → (id = 0 ∨ (s.gate id.toNat).active = false) →
    ∃ t, exec (.cairnRelease q id ctx false) s = .next t ∧ t.cairn = s.cairn ∧
      KeepsRegs s t (R.CAIRN_RELEASE :: logRegs P.CAIRN_CTL) ∧ t = { s with regs := t.regs, resp := ⟨false, 0#64⟩ }) ∧
--w State.reset; ⟨3, true⟩; 0; 63
--w State.reset; ⟨3, true⟩; 2047; 0
  (∀ (s : State) (q : Req) (id : BitVec 11) (ctx : BitVec 6), OpenTo s q P.CAIRN_CTL → ctx.toNat ≤ 35 →
      SMap.wf (fun _ => Gateway.idle) s.cairn.gates = true →
    ∃ t, exec (.cairnRelease q id ctx true) s = .next t ∧
      (∀ j : Fin 2048, t.gate j.val = if (s.gate j.val).active ∧ (s.gate j.val).claimer = ctx.toNat then
        { s.gate j.val with active := false, claimer := 0 } else s.gate j.val) ∧
      KeepsRegs s t (R.CAIRN_RELEASE :: logRegs P.CAIRN_CTL) ∧ t = { s with regs := t.regs, cairn := t.cairn, resp := ⟨false, 0#64⟩ }) ∧
--w (State.reset.setGate 2047 ⟨false, true, 35⟩).setGate 600 ⟨false, true, 35⟩; ⟨3, true⟩; 0; 35
  (∀ (s : State) (h : Fin 4), s.power.phase = .run → s.fld F.PWR_STATE_CUR = 2 → s.power.closing = none → h.val ∈ s.visible →
      s.wakeCond h.val = true →
    ∃ t, exec (.hartWake h) s = .next t ∧ exec .dozeWake s = .next t ∧ t.fld F.PWR_STATE_CUR = s.fld F.CLK_HART_OP ∧
      t.fld F.CLK_HART_GATED = 0) ∧
--w (cairnPending.modHart 0 (fun t => { t with running := true, wfi := true, parked := false })).setFld F.PWR_STATE_CUR 2; 0
  (∀ (s : State) (h : Fin 4), s.wakeCond h.val = false → ∃ t, exec (.hartWake h) s = .next t ∧ t = s) ∧
--w State.reset; 0
  (∀ (s : State) (h : Fin 4), s.hartLive h.val = true → s.wakeCond h.val = true → (s.hart h.val).wfi = true → (s.hart h.val).stepping = false →
    ∃ t, exec (.hartWake h) s = .next t ∧ (t.hart h.val).wfi = false ∧ (t.hart h.val).pc = (s.hart h.val).pc + 4#64 ∧
      OnlyHart s t h.val)
--w (cairnPending.setFlag F.SYSCFG_MODE_GUARDED false).modHart 0 (fun t => { t with running := true, wfi := true, parked := false }); 0
--w cairnPending.modHart 0 (fun t => { t with running := true, wfi := true, parked := false }); 0

/-- CHANNEL_SENSE, UNCLOCKED_FORCE, SHUTTLE_CH_SEL_WRITE, PIN_LATCH_CLEAR, PIN_SET and HELD_RELEASE. -/
def Obligations.ShuttleChannelsPinsAndHolds : Prop :=
  (∀ (s : State) (n : Fin 64) (balls : BitVec 96), s.shuttleClocked = true → s.chanOn n.val = true →
      (∀ m : Fin 64, s.flag (F.SHUTTLE_CH_SEL_UNCLOCKED m.val) = false) → s.raw (R.SHUTTLE_CH_CONS n.val) = 0#64 → s.timer.waiting = 0 →
      (∀ i : Fin 8, s.running (P.LOOM_PROBE i.val) = false) →
    ∃ t, exec (.channelSense n balls) s = .next t ∧
      t.chan n.val = { s.chan n.val with
        out := sensedTrue (s.fld (F.SHUTTLE_CH_SEL_SENSE n.val)) ((s.setBalls balls.toNat).sensedProducer n.val) (s.chan n.val).sensed
          ((s.setBalls balls.toNat).sensedGate n.val) || (s.chan n.val).stretch != 0,
        sensed := (s.setBalls balls.toNat).sensedProducer n.val, pulse := (s.chan n.val).pulse - 1, gatePulse := (s.chan n.val).gatePulse - 1,
        stretch := if sensedTrue (s.fld (F.SHUTTLE_CH_SEL_SENSE n.val)) ((s.setBalls balls.toNat).sensedProducer n.val) (s.chan n.val).sensed
          ((s.setBalls balls.toNat).sensedGate n.val) then s.fld (F.SHUTTLE_CH_SEL_STRETCH n.val) else (s.chan n.val).stretch - 1 } ∧
      t.fld F.SHUTTLE_PIN_LATCH_LATCH = (s.latchWrite n.val (t.chan n.val).out ((t.chan n.val).out && ! (s.chan n.val).out)).fld F.SHUTTLE_PIN_LATCH_LATCH ∧
      (∀ m : Fin 64, m ≠ n → t.chan m.val = s.chan m.val) ∧
      KeepsRegs s t [R.SHUTTLE_PIN_LATCH, R.EVT_RAW P.SHUTTLE] ∧ t = { s with regs := t.regs, shuttle := t.shuttle }) ∧
--w shutOn; 5; 4
--w (shutOn.setFld (F.SHUTTLE_CH_PIN_MODE 5) 4).setFld (F.SHUTTLE_CH_PIN_MASK 5) 3; 5; 4
  (∀ (s : State) (n : Fin 64) (balls : BitVec 96), s.shuttleClocked = true → s.chanOn n.val = true → s.kept 2 = true →
      s.ShuttleStill → s.raw (R.SHUTTLE_CH_CONS n.val) = 1#64 → s.fld (F.SHUTTLE_CH_PIN_MODE n.val) = 0 → s.timer.waiting = 0 →
      (∀ i : Fin 8, s.running (P.LOOM_PROBE i.val) = false) → s.fld (F.SHUTTLE_CH_SEL_SENSE n.val) = 0 →
      (s.setBalls balls.toNat).sensedProducer n.val = true → (s.setBalls balls.toNat).sensedGate n.val = true →
      n.val < 63 → (s.gate (160 + n.val)).latch = false →
    ∃ t, exec (.channelSense n balls) s = .next t ∧ (t.chan n.val).out = true ∧
      t.gate (160 + n.val) = { s.gate (160 + n.val) with latch := true } ∧
      (∀ j : Fin 2048, j.val ≠ 160 + n.val → t.gate j.val = s.gate j.val) ∧ (∀ m : Fin 64, m ≠ n → t.chan m.val = s.chan m.val) ∧
      t = { s with shuttle := t.shuttle, cairn := t.cairn }) ∧
--w shutOn.setReg (R.SHUTTLE_CH_CONS 5) 1; 5; 4
  (∀ (s : State) (n : Fin 64) (balls : BitVec 96), s.ShuttleStill → (s.shuttleClocked = false ∨ s.chanOn n.val = false) →
    ∃ t, exec (.channelSense n balls) s = .next t ∧ t.shuttle = { s.shuttle with balls := balls.toNat &&& ballCodes } ∧
      t.regs = s.regs ∧ t = { s with shuttle := t.shuttle }) ∧
--w shutOn; 6; 4
--w { shutOn with power := { PowerState.reset with phase := .off } }; 5; 4
  (∀ (s : State) (balls : BitVec 96), (∀ m : Fin 64, s.flag (F.SHUTTLE_CH_SEL_UNCLOCKED m.val) = false) →
    ∃ t, exec (.unclockedForce balls) s = .next t ∧ t.shuttle.balls = balls.toNat &&& ballCodes ∧ t.shuttle.ch = s.shuttle.ch ∧
      t.shuttle.forced = s.pinForced ∧ t.shuttle.conflict = s.pinConflict ∧
      KeepsRegs s t [R.EVT_RAW P.SHUTTLE] ∧ t = { s with regs := t.regs, shuttle := t.shuttle }) ∧
--w shutOn; 0xFFFFFFFFFFFFFFFFFFFFFFFF
  (∀ (s : State) (n : Fin 64) (balls : BitVec 96), s.chanOn n.val = true → s.flag (F.SHUTTLE_CH_SEL_UNCLOCKED n.val) = true →
      (∀ m : Fin 64, m ≠ n → s.flag (F.SHUTTLE_CH_SEL_UNCLOCKED m.val) = false) → s.raw (R.SHUTTLE_CH_CONS n.val) = 0#64 →
      s.timer.waiting = 0 → (∀ i : Fin 8, s.running (P.LOOM_PROBE i.val) = false) → s.flag (F.SHUTTLE_CH_PIN_HOLD n.val) = false →
    ∃ t, exec (.unclockedForce balls) s = .next t ∧
      t.chan n.val = { s.chan n.val with out := gatedProducer (s.setBalls balls.toNat) (fun _ => false) n.val } ∧
      (∀ m : Fin 64, m ≠ n → t.chan m.val = s.chan m.val) ∧
      KeepsRegs s t [R.EVT_RAW P.SHUTTLE] ∧ t = { s with regs := t.regs, shuttle := t.shuttle }) ∧
--w shutOn.setFld (F.SHUTTLE_CH_SEL_UNCLOCKED 5) 1; 5; 4
  (∀ (s : State) (q : Req) (n : Fin 64), OpenTo s q P.SHUTTLE → s.pageLocked P.SHUTTLE = false → (∀ m : Fin 64, s.flag (F.SHUTTLE_CH_SEL_UNCLOCKED m.val) = false) →
    ∃ t, exec (.shuttleChSelWrite q n 0#32) s = .next t ∧ t.raw (R.SHUTTLE_CH_SEL n.val) = 0#64 ∧ t.chanOn n.val = false ∧
      (t.chan n.val).out = (if senseWord (s.raw (R.SHUTTLE_CH_SEL n.val)) = 0#64 then (s.chan n.val).out else false) ∧
      (∀ m : Fin 64, m ≠ n → t.chan m.val = s.chan m.val) ∧
      KeepsRegs s t ([R.SHUTTLE_CH_SEL n.val] ++ logRegs P.SHUTTLE) ∧
      t = { s with regs := t.regs, shuttle := t.shuttle, resp := ⟨false, 0#64⟩ }) ∧
--w shutOn; ⟨3, false⟩; 5
  (∀ (s : State) (q : Req) (n : Fin 64) (v : BitVec 32), OpenTo s q P.SHUTTLE → s.pageLocked P.SHUTTLE = false →
      (∀ m : Fin 64, s.flag (F.SHUTTLE_CH_SEL_UNCLOCKED m.val) = false) → v.getLsbD 21 = false → v.getLsbD 30 = false →
      producerListed (v.toNat % 256) = true → producerListed (v.toNat / 256 % 256) = true → senseWord (s.raw (R.SHUTTLE_CH_SEL n.val)) ≠ senseWord (v.zeroExtend 64) →
    ∃ t, exec (.shuttleChSelWrite q n v) s = .next t ∧ t.raw (R.SHUTTLE_CH_SEL n.val) = v.zeroExtend 64 ∧
      (t.chan n.val).pulse = 0 ∧ (t.chan n.val).gatePulse = 0 ∧ (t.chan n.val).held = (s.chan n.val).held ∧
      (t.chanOn n.val = true → t.chan n.val = { s.chan n.val with pulse := 0, gatePulse := 0, sensed := t.sensedProducer n.val }) ∧
      (t.chanOn n.val = false → (t.chan n.val).out = false ∧ (t.chan n.val).stretch = 0) ∧
      (∀ m : Fin 64, m ≠ n → t.chan m.val = s.chan m.val) ∧
      KeepsRegs s t ([R.SHUTTLE_CH_SEL n.val] ++ logRegs P.SHUTTLE) ∧
      t = { s with regs := t.regs, shuttle := t.shuttle, resp := ⟨false, 0#64⟩ }) ∧
--w shutOn; ⟨3, false⟩; 5; 0x80080001
--w shutOn; ⟨3, false⟩; 5; 0x00080001
  (∀ (s : State) (q : Req) (n : Fin 64) (v : BitVec 32), OpenTo s q P.SHUTTLE → s.pageLocked P.SHUTTLE = false → v.getLsbD 21 = true →
      ((F.SHUTTLE_CH_SEL_SENSE n.val).of (v.zeroExtend 64) ≠ 0 ∨ (F.SHUTTLE_CH_SEL_STRETCH n.val).of (v.zeroExtend 64) ≠ 0 ∨
        (2 ≤ s.fld (F.SHUTTLE_CH_PIN_MODE n.val) ∧ s.fld (F.SHUTTLE_CH_PIN_MODE n.val) ≤ 4)) →
    ∃ t, exec (.shuttleChSelWrite q n v) s = .next t ∧ s.Refused t q (R.SHUTTLE_CH_SEL n.val) 1 n.val ∧
      t.shuttle = s.shuttle ∧ KeepsRegs s t (logRegs P.SHUTTLE) ∧ t = { s with regs := t.regs, resp := ⟨false, 0#64⟩ }) ∧
--w shutOn; ⟨3, false⟩; 5; 0x280000
--w shutOn; ⟨3, false⟩; 5; 0x600000
--w shutOn.setFld (F.SHUTTLE_CH_PIN_MODE 5) 4; ⟨3, false⟩; 5; 0x200000
  (∀ (s : State) (q : Req) (m : BitVec 16), OpenTo s q P.SHUTTLE →
    ∃ t, exec (.pinLatchClear q m) s = .next t ∧ t.fld F.SHUTTLE_PIN_LATCH_LATCH = clearBits (s.fld F.SHUTTLE_PIN_LATCH_LATCH) m.toNat ∧
      KeepsRegs s t ([R.SHUTTLE_PIN_LATCH] ++ logRegs P.SHUTTLE) ∧ t = { s with regs := t.regs, resp := ⟨false, 0#64⟩ }) ∧
--w shutOn.setFld F.SHUTTLE_PIN_LATCH_LATCH 0xFFFF; ⟨3, false⟩; 0x8001
  (∀ (s : State) (q : Req) (m : BitVec 16), OpenTo s q P.SHUTTLE →
    ∃ t, exec (.pinSet q m) s = .next t ∧ t.fld F.SHUTTLE_PIN_LATCH_LATCH = s.fld F.SHUTTLE_PIN_LATCH_LATCH ||| m.toNat ∧
      KeepsRegs s t ([R.SHUTTLE_PIN_LATCH, R.SHUTTLE_PIN_SET] ++ logRegs P.SHUTTLE) ∧ t = { s with regs := t.regs, resp := ⟨false, 0#64⟩ }) ∧
--w shutOn.setFld F.SHUTTLE_PIN_LATCH_LATCH 0x0FF0; ⟨3, false⟩; 0x8001
  (∀ (s : State) (q : Req) (k : Fin 2) (m : BitVec 32), OpenTo s q P.SHUTTLE →
      (∀ n : Fin 64, s.flag (F.SHUTTLE_CH_SEL_UNCLOCKED n.val) = false) →
    ∃ t, exec (.heldRelease q k m) s = .next t ∧ t.shuttle.forced = t.pinForced ∧ t.shuttle.conflict = t.pinConflict ∧
      (∀ n : Fin 64, t.chan n.val = if n.val / 32 = k.val ∧ m.toNat.testBit (n.val % 32) ∧ s.chanOut n.val = false then
        { s.chan n.val with held := none } else s.chan n.val) ∧
      KeepsRegs s t ([R.SHUTTLE_HELD k.val] ++ logRegs P.SHUTTLE) ∧ t.shuttle.balls = s.shuttle.balls ∧ t.shuttle.levels = s.shuttle.levels ∧
      t = { s with regs := t.regs, shuttle := t.shuttle, resp := ⟨false, 0#64⟩ })
--w shutOn.setChan 63 { ShuttleChannel.idle with held := some (3, true) }; ⟨3, false⟩; 1; 0x80000000

/-- MTIME_WRITE, MTIP_CHANGE, TIMER_EXPIRY, PWM_DUTY_REACHED, TIMER_START and TIMER_STOP. -/
def Obligations.TimersCountExpireStartAndStop : Prop :=
  (∀ (s : State) (q : Req) (v : DWord), OpenTo s q P.TIMER →
    ∃ t, exec (.mtimeWrite q v) s = .next t ∧ KeepsRegs s t [] ∧
      (∀ k : Byte, s.power.phase = .run → 8 ≤ s.timer.phase + k.toNat →
        (t.mtimeTicks k.toNat).raw R.TIMER_MTIME = v + BitVec.ofNat 64 ((s.timer.phase + k.toNat) / 8 - 1)) ∧
      t = { s with regs := t.regs, timer := { s.timer with mtimeNext := some v }, resp := ⟨false, 0#64⟩ }) ∧
--w State.reset; ⟨0, true⟩; 0xFFFFFFFFFFFFFFFF
  (∀ (s : State) (h : Fin 4), s.hartLive h.val = true → s.mtip h.val = true → s.localPending h.val = true →
      (s.hart h.val).wfi = true → (s.hart h.val).stepping = false →
    ∃ t, exec (.mtipChange h) s = .next t ∧ (t.hart h.val).wfi = false ∧ (t.hart h.val).pc = (s.hart h.val).pc + 4#64 ∧ OnlyHart s t h.val) ∧
--w (State.reset.setReg (R.TIMER_MTIMECMP 2) 0).modHart 2 (fun t => { t.setCsr 0x304 0x80 with running := true, wfi := true, parked := false }); 2
  (∀ (s : State) (h : Fin 4), s.power.phase = .run → s.fld F.PWR_STATE_CUR = 2 → s.power.closing = none → h.val ∈ s.visible →
      s.mtip h.val = true → s.localPending h.val = true →
    ∃ t, exec (.mtipChange h) s = .next t ∧ exec .dozeWake s = .next t ∧ t.fld F.PWR_STATE_CUR = s.fld F.CLK_HART_OP ∧
      t.fld F.CLK_HART_GATED = 0) ∧
--w ((State.reset.setReg (R.TIMER_MTIMECMP 2) 0).modHart 2 (fun t => { t.setCsr 0x304 0x80 with running := true, wfi := true, parked := false })).setFld F.PWR_STATE_CUR 2; 2
  (∀ (s : State) (h : Fin 4), (s.mtip h.val = false ∨ s.localPending h.val = false) → ∃ t, exec (.mtipChange h) s = .next t ∧ t = s) ∧
--w State.reset; 2
--w State.reset.setReg (R.TIMER_MTIMECMP 2) 0; 2
  (∀ (s : State) (dt : BitVec 32) (n : Fin 8), (s.timersAt dt).timersClocked = true → (∀ m : Fin 8, m ≠ n → (s.timersAt dt).timerRuns m.val = false) →
      (s.timersAt dt).Counting n.val → (s.timersAt dt).timer.expired.testBit n.val = false → (s.timersAt dt).fld (F.TIMER_COUNT_COUNT n.val) + 2 = (s.timersAt dt).timerForce n.val 0 →
      ((s.timersAt dt).flag (F.TIMER_CTRL_IRQ_EN n.val) = false ∨
        ((s.timersAt dt).kept 2 = true ∧ ((s.timersAt dt).gate (380 + n.val)).latch = false)) →
    ∃ t, exec (.timerExpiry dt n) s = .next t ∧ t.event P.TIMER (E.TIMER_EXPIRED_0 + n.val) = true ∧
      t.timer.toggle = (s.timersAt dt).timer.toggle ^^^ 2 ^ n.val ∧
      t.fld (F.TIMER_COUNT_COUNT n.val) = (s.timersAt dt).fld (F.TIMER_COUNT_COUNT n.val) + 1 ∧
      t.gate (380 + n.val) = { (s.timersAt dt).gate (380 + n.val) with
        latch := (s.timersAt dt).flag (F.TIMER_CTRL_IRQ_EN n.val) || ((s.timersAt dt).gate (380 + n.val)).latch } ∧
      (∀ j : Fin 2048, j.val ≠ 380 + n.val → t.gate j.val = (s.timersAt dt).gate j.val) ∧
      KeepsRegs (s.timersAt dt) t [R.TIMER_COUNT n.val, R.EVT_RAW P.TIMER] ∧
      t = { s.timersAt dt with regs := t.regs, timer := t.timer, cairn := t.cairn }) ∧
--w timOn 7 9 0; 0; 7
--w (timOn 7 9 0).setFld (F.TIMER_CTRL_IRQ_EN 7) 1; 0; 7
--w (timOn 7 9 0).setFld (F.TIMER_COUNT_COUNT 7) 5; 2; 7
  (∀ (s : State) (n : Fin 8), s.timersClocked = true → (∀ m : Fin 8, m ≠ n → s.timerRuns m.val = false) → s.Counting n.val →
      s.timer.expired.testBit n.val = true → s.flag (F.TIMER_CTRL_ONESHOT n.val) = true →
    ∃ t, exec (.timerExpiry 1#32 n) s = .next t ∧ t.flag (F.TIMER_CTRL_EN n.val) = false ∧ t.fld (F.TIMER_COUNT_COUNT n.val) = 0 ∧
      t.timer.toggle = s.timer.toggle ∧ KeepsRegs s t [R.TIMER_COUNT n.val, R.TIMER_CTRL n.val] ∧
      t = { s with regs := t.regs, timer := t.timer }) ∧
--w (((timOn 7 9 0).setFld (F.TIMER_COUNT_COUNT 7) 8).setFld (F.TIMER_CTRL_ONESHOT 7) 1).modTimer (fun x => { x with expired := 128 }); 7
  (∀ (s : State) (dt : BitVec 32) (n : Fin 8), (s.timersAt dt).timersClocked = true → (∀ m : Fin 8, m ≠ n → (s.timersAt dt).timerRuns m.val = false) →
      (s.timersAt dt).Counting n.val → (s.timersAt dt).timer.expired.testBit n.val = false → (s.timersAt dt).fld (F.TIMER_COUNT_COUNT n.val) + 2 < (s.timersAt dt).timerForce n.val 0 →
      (s.timersAt dt).fld (F.TIMER_CTRL_OUT n.val) = 2 → (s.timersAt dt).fld (F.TIMER_COUNT_COUNT n.val) + 1 = (s.timersAt dt).timerForce n.val 1 →
    ∃ t, exec (.pwmDutyReached dt n) s = .next t ∧ (s.timersAt dt).timerOut n.val = true ∧ t.timerOut n.val = false ∧
      t.fld (F.TIMER_COUNT_COUNT n.val) = (s.timersAt dt).fld (F.TIMER_COUNT_COUNT n.val) + 1 ∧
      KeepsRegs (s.timersAt dt) t [R.TIMER_COUNT n.val] ∧ t = { s.timersAt dt with regs := t.regs, timer := t.timer }) ∧
--w (timOn 6 20 8).setFld (F.TIMER_CTRL_OUT 6) 2; 0; 6
--w ((timOn 6 20 8).setFld (F.TIMER_CTRL_OUT 6) 2).setFld (F.TIMER_COUNT_COUNT 6) 4; 3; 6
  (∀ (s : State) (q : Req) (m : Byte), OpenTo s q P.TIMER →
    ∃ t, exec (.timerStart q m) s = .next t ∧
      (∀ n : Fin 8, t.flag (F.TIMER_CTRL_EN n.val) = (m.toNat.testBit n.val || s.flag (F.TIMER_CTRL_EN n.val))) ∧
      (∀ n : Fin 8, m.toNat.testBit n.val = true → s.flag (F.TIMER_CTRL_EN n.val) = false →
        t.fld (F.TIMER_COUNT_COUNT n.val) = 0 ∧ t.timer.toggle.testBit n.val = false ∧
        t.timer.waiting.testBit n.val = s.flag (F.TIMER_CTRL_START_EN n.val) ∧
        t.timerForce n.val 0 = s.fld (F.TIMER_PERIOD_PERIOD n.val) ∧ t.timerForce n.val 1 = s.fld (F.TIMER_DUTY_DUTY n.val) ∧
        t.timerForce n.val 2 = s.fld (F.TIMER_CTRL_PRESCALE n.val)) ∧
      (∀ n : Fin 8, (m.toNat.testBit n.val = false ∨ s.flag (F.TIMER_CTRL_EN n.val) = true) →
        t.raw (R.TIMER_CTRL n.val) = s.raw (R.TIMER_CTRL n.val) ∧ t.raw (R.TIMER_COUNT n.val) = s.raw (R.TIMER_COUNT n.val) ∧
        t.timer.toggle.testBit n.val = s.timer.toggle.testBit n.val ∧ t.timer.waiting.testBit n.val = s.timer.waiting.testBit n.val) ∧
      KeepsRegs s t (R.TIMER_START :: (logRegs P.TIMER ++ (List.range 8).map R.TIMER_CTRL ++ (List.range 8).map R.TIMER_COUNT)) ∧
      t = { s with regs := t.regs, timer := t.timer, resp := ⟨false, 0#64⟩ }) ∧
--w timOn 6 20 8; ⟨0, true⟩; 0xC1
  (∀ (s : State) (q : Req) (m : Byte), OpenTo s q P.TIMER →
    ∃ t, exec (.timerStop q m) s = .next t ∧
      (∀ n : Fin 8, t.flag (F.TIMER_CTRL_EN n.val) = (! m.toNat.testBit n.val && s.flag (F.TIMER_CTRL_EN n.val))) ∧
      (∀ n : Fin 8, m.toNat.testBit n.val = true → t.timerOut n.val = false) ∧ t.timer.force = s.timer.force ∧ t.timer.pre = s.timer.pre ∧
      (∀ n : Fin 8, m.toNat.testBit n.val = false → t.raw (R.TIMER_CTRL n.val) = s.raw (R.TIMER_CTRL n.val) ∧ t.timerOut n.val = s.timerOut n.val) ∧
      KeepsRegs s t (R.TIMER_STOP :: (logRegs P.TIMER ++ (List.range 8).map R.TIMER_CTRL)) ∧
      t = { s with regs := t.regs, timer := t.timer, resp := ⟨false, 0#64⟩ })
--w timOn 6 20 8; ⟨0, true⟩; 0xC1

/-- LDIVU, ISQRT, FRCP, FLOG2, FEXP2, LMACU, LMACS, LACC.WR, LACC.RDLO, LACC.RDHI and CRC32C. -/
def Obligations.XoroudResults : Prop :=
  (∀ (s : State) (h : Fin 4) (rd rs1 : Fin 32), s.IssuesPrecise h.val → (s.hart h.val).xoroudBarred true = none →
      (s.hart h.val).acc.toNat / 2 ^ 64 < ((s.hart h.val).xr rs1.val).toNat →
    ∃ t, exec (.ldivu h rd rs1 0) s = .next t ∧ OnlyHart s t h.val ∧ (t.hart h.val).lou = [] ∧
      (rd ≠ 0 → ((t.hart h.val).xr rd.val).toNat = (s.hart h.val).acc.toNat / ((s.hart h.val).xr rs1.val).toNat) ∧ (t.hart h.val).acc = BitVec.ofNat 128 ((s.hart h.val).acc.toNat % ((s.hart h.val).xr rs1.val).toNat) ∧ (s.hart h.val).GoesOn (t.hart h.val) [rd.val]) ∧
--w hartR 0 prec; 0; 5; 6
--w hartS 3 prec; 3; 6; 6
--w hartR 0 prec; 0; 0; 6
  (∀ (s : State) (h : Fin 4) (rd rs1 : Fin 32), s.IssuesPrecise h.val → (s.hart h.val).xoroudBarred true = none →
    ∃ t, exec (.isqrt h rd rs1 0) s = .next t ∧ OnlyHart s t h.val ∧ (t.hart h.val).lou = [] ∧
      (rd ≠ 0 → ((t.hart h.val).xr rd.val).toNat ^ 2 ≤ ((s.hart h.val).xr rs1.val).toNat ∧ ((s.hart h.val).xr rs1.val).toNat < (((t.hart h.val).xr rd.val).toNat + 1) ^ 2) ∧ (t.hart h.val).acc = (s.hart h.val).acc ∧ (s.hart h.val).GoesOn (t.hart h.val) [rd.val]) ∧
--w hartR 0 prec; 0; 5; 7
--w hartS 3 prec; 3; 6; 6
  (∀ (s : State) (h : Fin 4) (rd rs1 : Fin 32), s.IssuesPrecise h.val → (s.hart h.val).xoroudBarred true = none →
      f64exp ((s.hart h.val).xr rs1.val) ≠ 0 →
      f64exp ((s.hart h.val).xr rs1.val) < 2045 →
    ∃ t, exec (.frcp h rd rs1 0) s = .next t ∧ OnlyHart s t h.val ∧ (t.hart h.val).lou = [] ∧
      (rd ≠ 0 → ∃ c : Fin 2, (t.hart h.val).xr rd.val = withSign (f64neg ((s.hart h.val).xr rs1.val)) ((2045 - f64exp ((s.hart h.val).xr rs1.val)) * 2 ^ 52 + (2 ^ 105 / (2 ^ 52 + f64frac ((s.hart h.val).xr rs1.val)) - 2 ^ 52) + (if f64frac ((s.hart h.val).xr rs1.val) = 0 then 0 else c.val))) ∧ (t.hart h.val).acc = (s.hart h.val).acc ∧ (s.hart h.val).GoesOn (t.hart h.val) [rd.val]) ∧
--w hartR 0 (fun t => (prec t).setX 6 0x4008000000000000); 0; 5; 6
--w hartR 0 (fun t => (prec t).setX 6 0x4010000000000000); 0; 5; 6
  (∀ (s : State) (h : Fin 4) (rd rs1 : Fin 32) (e : Fin 2048), s.IssuesPrecise h.val → (s.hart h.val).xoroudBarred true = none →
      (s.hart h.val).xr rs1.val = BitVec.ofNat 64 (e.val * 2 ^ 52) →
      1 ≤ e.val →
      e.val ≤ 2046 →
    ∃ t, exec (.flog2 h rd rs1 0) s = .next t ∧ OnlyHart s t h.val ∧ (t.hart h.val).lou = [] ∧
      (rd ≠ 0 → (t.hart h.val).xr rd.val = if e.val = 1023 then 0#64 else withSign (decide (e.val < 1023)) (f64floor ((e.val : Int) - 1023).natAbs 0).1) ∧ (t.hart h.val).acc = (s.hart h.val).acc ∧ (s.hart h.val).GoesOn (t.hart h.val) [rd.val]) ∧
--w hartR 0 (fun t => (prec t).setX 6 0x4070000000000000); 0; 5; 6; 0x407
--w hartR 0 (fun t => (prec t).setX 6 0x3FF0000000000000); 0; 5; 6; 1023
--w hartR 0 (fun t => (prec t).setX 6 0x0010000000000000); 0; 5; 6; 1
  (∀ (s : State) (h : Fin 4) (rd rs1 : Fin 32), s.IssuesPrecise h.val → (s.hart h.val).xoroudBarred true = none →
      (f64zero ((s.hart h.val).xr rs1.val) ∨ f64inf ((s.hart h.val).xr rs1.val)) →
    ∃ t, exec (.fexp2 h rd rs1 0) s = .next t ∧ OnlyHart s t h.val ∧ (t.hart h.val).lou = [] ∧
      (rd ≠ 0 → (t.hart h.val).xr rd.val = if f64zero ((s.hart h.val).xr rs1.val) then 0x3FF0000000000000#64 else if f64neg ((s.hart h.val).xr rs1.val) then 0#64 else 0x7FF0000000000000#64) ∧ (t.hart h.val).acc = (s.hart h.val).acc ∧ (s.hart h.val).GoesOn (t.hart h.val) [rd.val]) ∧
--w hartR 0 (fun t => (prec t).setX 6 0x8000000000000000); 0; 5; 6
--w hartR 0 (fun t => (prec t).setX 6 0xFFF0000000000000); 0; 5; 6
  (∀ (s : State) (h : Fin 4) (rd rs1 : Fin 32) (neg : Bool) (n : Fin 1024), s.IssuesPrecise h.val → (s.hart h.val).xoroudBarred true = none →
      1 ≤ n.val → (neg = true → n.val ≤ 1022) → (s.hart h.val).xr rs1.val = withSign neg (f64floor n.val 0).1 →
    ∃ t, exec (.fexp2 h rd rs1 0) s = .next t ∧ OnlyHart s t h.val ∧ (t.hart h.val).lou = [] ∧
      (rd ≠ 0 → (t.hart h.val).xr rd.val = BitVec.ofNat 64 ((if neg then 1023 - n.val else 1023 + n.val) * 2 ^ 52)) ∧
      (t.hart h.val).acc = (s.hart h.val).acc ∧ (s.hart h.val).GoesOn (t.hart h.val) [rd.val]) ∧
--w hartR 0 (fun t => (prec t).setX 6 0x408FF80000000000); 0; 5; 6; false; 1023
--w hartR 0 (fun t => (prec t).setX 6 0xC08FF00000000000); 0; 5; 6; true; 1022
--w hartR 0 (fun t => (prec t).setX 6 0x4008000000000000); 0; 5; 6; false; 3
  (∀ (s : State) (h : Fin 4) (rs1 rs2 : Fin 32), s.IssuesPrecise h.val → (s.hart h.val).xoroudBarred true = none →
    ∃ t, exec (.lmacu h 0 rs1 rs2) s = .next t ∧ OnlyHart s t h.val ∧ (t.hart h.val).lou = [] ∧
      (t.hart h.val).acc = (s.hart h.val).acc + BitVec.ofNat 128 (((s.hart h.val).xr rs1.val).toNat * ((s.hart h.val).xr rs2.val).toNat) ∧ (s.hart h.val).GoesOn (t.hart h.val) []) ∧
--w hartR 0 prec; 0; 7; 7
  (∀ (s : State) (h : Fin 4) (rs1 rs2 : Fin 32), s.IssuesPrecise h.val → (s.hart h.val).xoroudBarred true = none →
    ∃ t, exec (.lmacs h 0 rs1 rs2) s = .next t ∧ OnlyHart s t h.val ∧ (t.hart h.val).lou = [] ∧
      (t.hart h.val).acc = (s.hart h.val).acc + BitVec.ofInt 128 (((s.hart h.val).xr rs1.val).toInt * ((s.hart h.val).xr rs2.val).toInt) ∧ (s.hart h.val).GoesOn (t.hart h.val) []) ∧
--w hartR 0 prec; 0; 7; 6
  (∀ (s : State) (h : Fin 4) (rs1 rs2 : Fin 32), s.IssuesPrecise h.val → (s.hart h.val).xoroudBarred true = none →
    ∃ t, exec (.laccWr h 0 rs1 rs2) s = .next t ∧ OnlyHart s t h.val ∧ (t.hart h.val).lou = [] ∧
      (t.hart h.val).acc = (s.hart h.val).xr rs2.val ++ (s.hart h.val).xr rs1.val ∧ (s.hart h.val).GoesOn (t.hart h.val) []) ∧
--w hartR 0 prec; 0; 7; 6
  (∀ (s : State) (h : Fin 4) (rd : Fin 32), s.IssuesPrecise h.val → (s.hart h.val).xoroudBarred true = none →
    ∃ t, exec (.laccRdlo h rd 0 0) s = .next t ∧ OnlyHart s t h.val ∧ (t.hart h.val).lou = [] ∧
      (rd ≠ 0 → (t.hart h.val).xr rd.val = (s.hart h.val).acc.truncate 64) ∧ (t.hart h.val).acc = (s.hart h.val).acc ∧ (s.hart h.val).GoesOn (t.hart h.val) [rd.val]) ∧
--w hartR 0 prec; 0; 31
  (∀ (s : State) (h : Fin 4) (rd : Fin 32), s.IssuesPrecise h.val → (s.hart h.val).xoroudBarred true = none →
    ∃ t, exec (.laccRdhi h rd 0 0) s = .next t ∧ OnlyHart s t h.val ∧ (t.hart h.val).lou = [] ∧
      (rd ≠ 0 → (t.hart h.val).xr rd.val = ((s.hart h.val).acc >>> 64).truncate 64) ∧ (t.hart h.val).acc = (s.hart h.val).acc ∧ (s.hart h.val).GoesOn (t.hart h.val) [rd.val]) ∧
--w hartR 0 prec; 0; 31
  (∀ (s : State) (h : Fin 4) (rd rs1 rs2 : Fin 32), s.IssuesPrecise h.val → (s.hart h.val).xoroudBarred true = none →
    ∃ t, exec (.crc32c h rd rs1 rs2) s = .next t ∧ OnlyHart s t h.val ∧ (t.hart h.val).lou = [] ∧
      (rd ≠ 0 → (t.hart h.val).xr rd.val = BitVec.ofNat 64 (Crc.run32 0x82F63B78 (((s.hart h.val).xr rs1.val).toNat % 2 ^ 32) (leBytes 8 ((s.hart h.val).xr rs2.val).toNat))) ∧ (t.hart h.val).acc = (s.hart h.val).acc ∧ (s.hart h.val).GoesOn (t.hart h.val) [rd.val]) ∧
--w hartR 0 prec; 0; 31; 6; 7
  (∀ (s : State) (h : Fin 4) (op : LongOp) (rd rs1 rs2 : Fin 32), s.IssuesPrecise h.val →
      (s.hart h.val).xoroudBarred (op.fieldsOk rd.val rs1.val rs2.val) = none →
      (longOp op (s.hart h.val).acc ((s.hart h.val).xr rs1.val) ((s.hart h.val).xr rs2.val)).code = 0 →
    ∃ t, exec (xoroudCommand op h rd rs1 rs2) s = .next t ∧ OnlyHart s t h.val ∧ (t.hart h.val).lou = [] ∧
      (op.writesRd = true → rd ≠ 0 →
        (t.hart h.val).xr rd.val = (longOp op (s.hart h.val).acc ((s.hart h.val).xr rs1.val) ((s.hart h.val).xr rs2.val)).rd) ∧
      (t.hart h.val).acc = (longOp op (s.hart h.val).acc ((s.hart h.val).xr rs1.val) ((s.hart h.val).xr rs2.val)).acc ∧
      (s.hart h.val).GoesOn (t.hart h.val) (if op.writesRd then [rd.val] else [])) ∧
--w hartR 0 (fun t => (prec t).setX 6 0x4008000000000000); 0; .lmacs; 0; 6; 7
--w hartS 3 (fun t => (prec t).setX 6 0x7FF0000000000000); 3; .flog2; 5; 6; 0
  (∀ (s : State) (h : Fin 4) (op : LongOp) (rd rs1 rs2 : Fin 32), s.IssuesPrecise h.val →
      (s.hart h.val).xoroudBarred (op.fieldsOk rd.val rs1.val rs2.val) = none → (s.hart h.val).priv < 4 →
      (longOp op (s.hart h.val).acc ((s.hart h.val).xr rs1.val) ((s.hart h.val).xr rs2.val)).code ≠ 0 →
      Bits.get ((s.hart h.val).csrRaw 0x7C2) 0 3 = 0 → (s.hart h.val).exceptionTo 24 = 3 →
    ∃ t, exec (xoroudCommand op h rd rs1 rs2) s = .next t ∧ OnlyHart s t h.val ∧ (t.hart h.val).lou = [] ∧
      (t.hart h.val).csrRaw 0x341 = (s.hart h.val).pc ∧ (t.hart h.val).csrRaw 0x342 = 24#64 ∧ (t.hart h.val).csrRaw 0x343 = (s.hart h.val).pc ∧
      Bits.get ((t.hart h.val).csrRaw 0x7C2) 0 3 = (longOp op (s.hart h.val).acc ((s.hart h.val).xr rs1.val) ((s.hart h.val).xr rs2.val)).code ∧
      (t.hart h.val).csrBit 0x7C2 12 = true ∧ (t.hart h.val).csrRaw 0x7C3 = (s.hart h.val).pc ∧ (t.hart h.val).priv = 3 ∧
      (t.hart h.val).virt = false ∧ (t.hart h.val).pc = (s.hart h.val).csrRaw 0x305 &&& ~~~ 3#64 ∧
      (s.hart h.val).Enters (t.hart h.val) (trapCsrsM ++ [0x7C2, 0x7C3]))
--w hartR 0 (fun t => (prec t).setX 6 0); 0; .ldivu; 5; 6; 0
--w hartR 0 (fun t => { (prec t).setX 6 3 with acc := 0xFFFFFFFFFFFFFFFFFFFFFFFFFFFFFFFF }); 0; .ldivu; 5; 6; 0
--w hartR 0 (fun t => (prec t).setX 6 0xBFF0000000000000); 0; .flog2; 5; 6; 0

/-- All Xoroud rows, LONG_OP_COMPLETE, LONG_OP_FAULT, LBAR, TRAP_ENTRY and XRET. -/
def Obligations.LongOperationsAndTraps : Prop :=
  (∀ (s : State) (h : Fin 4) (op : LongOp) (rd rs1 rs2 : Fin 32), s.Issues h.val → ((s.hart h.val).gov 0x7C1).testBit 1 = false →
      0 < (s.hart h.val).gov 0x7C1 / 2 ^ 8 % 16 → (s.hart h.val).xoroudBarred (op.fieldsOk rd.val rs1.val rs2.val) = none →
    ∃ t, exec (xoroudCommand op h rd rs1 rs2) s = .next t ∧ OnlyHart s t h.val ∧
      (t.hart h.val).lou = [⟨0, op, (s.hart h.val).xr rs1.val, (s.hart h.val).xr rs2.val, rd.val, (s.hart h.val).pc, (s.hart h.val).priv,
        (s.hart h.val).virt, false, none⟩] ∧
      (t.hart h.val).acc = (s.hart h.val).acc ∧ (s.hart h.val).GoesOn (t.hart h.val) []) ∧
--w hartR 0 id; 0; .frcp; 5; 6; 0
--w hartS 3 id; 3; .crc32c; 5; 6; 31
  (∀ (s : State) (h : Fin 4) (op : LongOp) (rd rs1 rs2 : Fin 32), s.Issues h.val → (s.hart h.val).priv = 3 → (s.hart h.val).virt = false →
      (((s.hart h.val).gov 0x7C1).testBit 0 = false ∨ op.fieldsOk rd.val rs1.val rs2.val = false) →
    ∃ t, exec (xoroudCommand op h rd rs1 rs2) s = .next t ∧ OnlyHart s t h.val ∧ (t.hart h.val).csrRaw 0x341 = (s.hart h.val).pc ∧
      (t.hart h.val).csrRaw 0x342 = 2#64 ∧ (t.hart h.val).csrRaw 0x343 = xoroudBits op.funct7 rd.val rs1.val rs2.val ∧
      (t.hart h.val).pc = (s.hart h.val).csrRaw 0x305 &&& ~~~ 3#64 ∧ (t.hart h.val).lou = [] ∧
      (s.hart h.val).Enters (t.hart h.val) trapCsrsM) ∧
--w hartR 0 (fun t => t.setCsr 0x305 0x1003); 0; .frcp; 5; 6; 1
--w hartR 0 (fun t => t.setCsr 0x7C1 0); 0; .crc32c; 5; 6; 1
  (∀ (s : State) (h : Fin 4) (e : LouEntry) (rest : List LouEntry), s.hartLive h.val = true → (s.hart h.val).lou = e :: rest →
      (∀ x ∈ e :: rest, x.fault = none) → (∀ x ∈ rest, x.slot ≠ e.slot) → (s.hart h.val).scout = none →
      (longOp e.op (s.hart h.val).acc e.rs1 e.rs2).code = 0 →
    ∃ t, exec (.longOpComplete h) s = .next t ∧ OnlyHart s t h.val ∧
      t.hart h.val = { (if e.op.writesRd then (s.hart h.val).setX e.rd (longOp e.op (s.hart h.val).acc e.rs1 e.rs2).rd else s.hart h.val) with
        acc := (longOp e.op (s.hart h.val).acc e.rs1 e.rs2).acc, lou := rest }) ∧
--w hartR 0 (fun t => { t with lou := [⟨0, .lmacs, 3, 5, 0, 0x100, 3, false, false, none⟩, ⟨1, .laccRdlo, 3, 5, 9, 0x104, 3, false, false, none⟩] }); 0; ⟨0, .lmacs, 3, 5, 0, 0x100, 3, false, false, none⟩; [⟨1, .laccRdlo, 3, 5, 9, 0x104, 3, false, false, none⟩]
--w hartR 0 (fun t => { t with lou := [⟨1, .laccRdlo, 3, 5, 9, 0x104, 3, false, false, none⟩] }); 0; ⟨1, .laccRdlo, 3, 5, 9, 0x104, 3, false, false, none⟩; []
  (∀ (s : State) (h : Fin 4) (e : LouEntry), s.hartLive h.val = true → (s.hart h.val).lou = [e] → e.fault = none →
      (s.hart h.val).scout = none → (s.hart h.val).wfi = false → e.op.writesRd = true → e.rd ≠ 0 →
      (longOp e.op (s.hart h.val).acc e.rs1 e.rs2).code ≠ 0 →
    ∃ t, exec (.longOpComplete h) s = .next t ∧ OnlyHart s t h.val ∧
      (t.hart h.val).lou = [{ e with fault := some (longOp e.op (s.hart h.val).acc e.rs1 e.rs2).code }] ∧
      (t.hart h.val).xr e.rd = (longOp e.op (s.hart h.val).acc e.rs1 e.rs2).rd ∧
      (∀ r : Fin 32, r.val ≠ e.rd → (t.hart h.val).xr r.val = (s.hart h.val).xr r.val) ∧ (t.hart h.val).pc = (s.hart h.val).pc ∧
      t.hart h.val = { s.hart h.val with x := (t.hart h.val).x, lou := (t.hart h.val).lou }) ∧
--w hartR 0 (fun t => { t with lou := [⟨1, .ldivu, 0, 5, 9, 0x104, 3, false, false, none⟩] }); 0; ⟨1, .ldivu, 0, 5, 9, 0x104, 3, false, false, none⟩
  (∀ (s : State) (h : Fin 4) (e : LouEntry) (code : Fin 8), s.hartLive h.val = true → (s.hart h.val).prog = none → (s.hart h.val).scout = none →
      (s.hart h.val).wfi = false → (s.hart h.val).stepping = false → (s.hart h.val).louArmed = true → (s.hart h.val).lou = [e] →
      e.fault = some code.val → e.slot < 16 → e.priv < 4 → Bits.get ((s.hart h.val).csrRaw 0x7C2) 0 3 = 0 →
      (s.hart h.val).exceptionTo 24 = 3 →
    ∃ t, exec (.longOpFault h) s = .next t ∧ OnlyHart s t h.val ∧ (t.hart h.val).lou = [] ∧
      (t.hart h.val).csrRaw 0x341 = (s.hart h.val).pc ∧ (t.hart h.val).csrRaw 0x342 = 24#64 ∧ (t.hart h.val).csrRaw 0x343 = e.pc ∧
      Bits.get ((t.hart h.val).csrRaw 0x7C2) 0 3 = code.val ∧ (t.hart h.val).csrRaw 0x7C3 = e.pc ∧ (t.hart h.val).priv = 3 ∧
      (t.hart h.val).virt = false ∧ (t.hart h.val).pc = (s.hart h.val).csrRaw 0x305 &&& ~~~ 3#64 ∧
      (s.hart h.val).Enters (t.hart h.val) (trapCsrsM ++ [0x7C2, 0x7C3])) ∧
--w hartR 0 (fun t => { t with louArmed := true, lou := [⟨1, .ldivu, 0, 5, 9, 0x104, 3, false, false, some 1⟩] }); 0; ⟨1, .ldivu, 0, 5, 9, 0x104, 3, false, false, some 1⟩; 1
  (∀ (s : State) (h : Fin 4), s.Issues h.val → (s.hart h.val).xoroudBarred true = none →
    ∃ t, exec (.lbar h 0 0 0) s = .next t ∧ OnlyHart s t h.val ∧ (t.hart h.val).lou = [] ∧ (t.hart h.val).acc = (s.hart h.val).acc ∧
      (s.hart h.val).GoesOn (t.hart h.val) []) ∧
--w hartR 0 id; 0
  (∀ (s : State) (h : Fin 4) (rd rs1 rs2 : Fin 32), s.Issues h.val → (s.hart h.val).priv = 3 → (s.hart h.val).virt = false →
      (((s.hart h.val).gov 0x7C1).testBit 0 = false ∨ ¬ (rd = 0 ∧ rs1 = 0 ∧ rs2 = 0)) →
    ∃ t, exec (.lbar h rd rs1 rs2) s = .next t ∧ OnlyHart s t h.val ∧ (t.hart h.val).csrRaw 0x341 = (s.hart h.val).pc ∧
      (t.hart h.val).csrRaw 0x342 = 2#64 ∧ (t.hart h.val).csrRaw 0x343 = xoroudBits 0x7F rd.val rs1.val rs2.val ∧
      (t.hart h.val).pc = (s.hart h.val).csrRaw 0x305 &&& ~~~ 3#64 ∧ (s.hart h.val).Enters (t.hart h.val) trapCsrsM) ∧
--w hartR 0 id; 0; 1; 0; 0
--w hartR 0 (fun t => t.setCsr 0x7C1 0); 0; 0; 0; 0
  (∀ (s : State) (h : Fin 4) (c : Nat), s.hartLive h.val = true → (s.hart h.val).prog = none → s.interruptDue h.val = some c →
      (s.hart h.val).interruptTo c = 3 →
      (s.hart h.val).scout = none → (s.hart h.val).wfi = false → (s.hart h.val).stepping = false → (s.hart h.val).lou = [] →
    ∃ t, exec (.trapEntry h .interrupt) s = .next t ∧ OnlyHart s t h.val ∧ (t.hart h.val).csrRaw 0x341 = (s.hart h.val).pc ∧
      (t.hart h.val).csrRaw 0x342 = BitVec.ofNat 64 (2 ^ 63 + c) ∧ (t.hart h.val).csrBit 0x300 3 = false ∧
      (t.hart h.val).csrBit 0x300 7 = (s.hart h.val).csrBit 0x300 3 ∧
      Bits.get ((t.hart h.val).csrRaw 0x300) 11 2 = (s.hart h.val).priv % 4 ∧ (t.hart h.val).csrBit 0x300 39 = (s.hart h.val).virt ∧
      (t.hart h.val).pc = vectorOf ((s.hart h.val).csrRaw 0x305) true c ∧ (t.hart h.val).priv = 3 ∧ (t.hart h.val).virt = false ∧
      (s.hart h.val).Enters (t.hart h.val) trapCsrsM) ∧
--w (hartR 0 (fun t => ((t.setCsr 0x304 0x80).setCsr 0x300 8).setCsr 0x305 0x2001)).setReg (R.TIMER_MTIMECMP 0) 0; 0; 7
  (∀ (s : State) (h : Fin 4) (c : Nat), s.hartLive h.val = true → (s.hart h.val).prog = none → s.interruptDue h.val = some c →
      (s.hart h.val).interruptTo c = 1 → (s.hart h.val).scout = none → (s.hart h.val).wfi = false → (s.hart h.val).stepping = false →
      (s.hart h.val).lou = [] →
    ∃ t, exec (.trapEntry h .interrupt) s = .next t ∧ OnlyHart s t h.val ∧ (t.hart h.val).csrRaw 0x141 = (s.hart h.val).pc ∧
      (t.hart h.val).csrRaw 0x142 = BitVec.ofNat 64 (2 ^ 63 + c) ∧ (t.hart h.val).csrBit 0x300 1 = false ∧
      (t.hart h.val).csrBit 0x300 5 = (s.hart h.val).csrBit 0x300 1 ∧ (t.hart h.val).csrBit 0x600 7 = (s.hart h.val).virt ∧
      (t.hart h.val).pc = vectorOf ((s.hart h.val).csrRaw 0x105) true c ∧ (t.hart h.val).priv = 1 ∧ (t.hart h.val).virt = false ∧
      (s.hart h.val).Enters (t.hart h.val) trapCsrsS) ∧
--w hartR 0 (fun t => { (((t.setCsr 0x304 2).setCsr 0x303 2).setCsr 0x344 2).setCsr 0x105 0x2001 with priv := 0 }); 0; 1
  (∀ (s : State) (h : Fin 4) (c : Nat), s.hartLive h.val = true → (s.hart h.val).prog = none → s.interruptDue h.val = some c →
      (s.hart h.val).interruptTo c = 2 → (s.hart h.val).scout = none → (s.hart h.val).wfi = false → (s.hart h.val).stepping = false →
      (s.hart h.val).lou = [] →
    ∃ t, exec (.trapEntry h .interrupt) s = .next t ∧ OnlyHart s t h.val ∧ (t.hart h.val).csrRaw 0x241 = (s.hart h.val).pc ∧
      (t.hart h.val).csrRaw 0x242 = BitVec.ofNat 64 (2 ^ 63 + (c - 1)) ∧ (t.hart h.val).csrBit 0x200 1 = false ∧
      (t.hart h.val).csrBit 0x200 5 = (s.hart h.val).csrBit 0x200 1 ∧
      (t.hart h.val).pc = vectorOf ((s.hart h.val).csrRaw 0x205) true (c - 1) ∧ (t.hart h.val).priv = 1 ∧ (t.hart h.val).virt = true ∧
      (s.hart h.val).Enters (t.hart h.val) trapCsrsVs) ∧
--w hartR 0 (fun t => { ((((t.setCsr 0x304 4).setCsr 0x303 4).setCsr 0x603 4).setCsr 0x645 4).setCsr 0x205 0x2001 with priv := 0, virt := true }); 0; 2
  (∀ (s : State) (h : Fin 4), s.hartLive h.val = true → s.interruptDue h.val = none → ∃ t, exec (.trapEntry h .interrupt) s = .next t ∧ t = s) ∧
--w hartR 0 id; 0
  (∀ (s : State) (h : Fin 4), s.Issues h.val → (s.hart h.val).exceptionTo (s.hart h.val).ecallCause = 3 →
    ∃ t, exec (.trapEntry h .ecall) s = .next t ∧ OnlyHart s t h.val ∧ (t.hart h.val).csrRaw 0x341 = (s.hart h.val).pc ∧
      (t.hart h.val).csrRaw 0x342 = BitVec.ofNat 64 (s.hart h.val).ecallCause ∧ (t.hart h.val).csrRaw 0x343 = 0#64 ∧
      (t.hart h.val).csrBit 0x300 3 = false ∧ (t.hart h.val).csrBit 0x300 7 = (s.hart h.val).csrBit 0x300 3 ∧
      Bits.get ((t.hart h.val).csrRaw 0x300) 11 2 = (s.hart h.val).priv % 4 ∧ (t.hart h.val).csrBit 0x300 39 = (s.hart h.val).virt ∧
      (t.hart h.val).pc = (s.hart h.val).csrRaw 0x305 &&& ~~~ 3#64 ∧ (t.hart h.val).priv = 3 ∧ (t.hart h.val).virt = false ∧
      (s.hart h.val).Enters (t.hart h.val) trapCsrsM) ∧
--w hartR 0 id; 0
--w hartR 0 (fun t => { t with priv := 1, virt := true }); 0
  (∀ (s : State) (h : Fin 4) (c : Fin 24) (tval gpa tinst : DWord), s.Issues h.val → exceptionListed c.val = true → (c.val = 22 → (s.hart h.val).virt = true) →
      (s.hart h.val).exceptionTo c.val = 3 →
    ∃ t, exec (.trapEntry h (.exception c tval gpa tinst)) s = .next t ∧ OnlyHart s t h.val ∧ (t.hart h.val).csrRaw 0x341 = (s.hart h.val).pc ∧
      (t.hart h.val).csrRaw 0x342 = BitVec.ofNat 64 c.val ∧ (t.hart h.val).csrRaw 0x343 = tval ∧
      (t.hart h.val).csrRaw 0x34B = (if c.val ∈ [20, 21, 23] then BitVec.ofNat 64 (gpa.toNat / 4) else 0#64) ∧
      (t.hart h.val).csrRaw 0x34A = (if c.val ∈ [20, 21, 23] then tinst else 0#64) ∧
      (t.hart h.val).csrBit 0x300 3 = false ∧ (t.hart h.val).csrBit 0x300 7 = (s.hart h.val).csrBit 0x300 3 ∧
      Bits.get ((t.hart h.val).csrRaw 0x300) 11 2 = (s.hart h.val).priv % 4 ∧ (t.hart h.val).csrBit 0x300 39 = (s.hart h.val).virt ∧
      (t.hart h.val).pc = (s.hart h.val).csrRaw 0x305 &&& ~~~ 3#64 ∧ (t.hart h.val).priv = 3 ∧ (t.hart h.val).virt = false ∧
      (s.hart h.val).Enters (t.hart h.val) trapCsrsM) ∧
--w hartR 0 id; 0; 13; 0x1234; 0; 0
--w hartR 0 (fun t => { t with priv := 0, virt := true }); 0; 21; 0x1234; 0x5678; 0x3003
  (∀ (s : State) (h : Fin 4) (c : Fin 24) (tval gpa tinst : DWord), s.Issues h.val → exceptionListed c.val = true → (c.val = 22 → (s.hart h.val).virt = true) →
      (s.hart h.val).exceptionTo c.val = 1 →
    ∃ t, exec (.trapEntry h (.exception c tval gpa tinst)) s = .next t ∧ OnlyHart s t h.val ∧ (t.hart h.val).csrRaw 0x141 = (s.hart h.val).pc ∧
      (t.hart h.val).csrRaw 0x142 = BitVec.ofNat 64 c.val ∧ (t.hart h.val).csrRaw 0x143 = tval ∧
      (t.hart h.val).csrRaw 0x643 = (if c.val ∈ [20, 21, 23] then BitVec.ofNat 64 (gpa.toNat / 4) else 0#64) ∧
      (t.hart h.val).csrRaw 0x64A = (if c.val ∈ [20, 21, 23] then tinst else 0#64) ∧
      (t.hart h.val).csrBit 0x300 1 = false ∧ (t.hart h.val).csrBit 0x300 5 = (s.hart h.val).csrBit 0x300 1 ∧
      (t.hart h.val).csrBit 0x600 7 = (s.hart h.val).virt ∧ (t.hart h.val).pc = (s.hart h.val).csrRaw 0x105 &&& ~~~ 3#64 ∧
      (t.hart h.val).priv = 1 ∧ (t.hart h.val).virt = false ∧ (s.hart h.val).Enters (t.hart h.val) trapCsrsS) ∧
--w hartR 0 (fun t => { t.setCsr 0x302 0xFFFFFF with priv := 0 }); 0; 13; 0x1234; 8; 8
--w hartR 0 (fun t => { t.setCsr 0x302 0xFFFFFF with priv := 0, virt := true }); 0; 23; 0x1234; 0x5678; 0x3023
  (∀ (s : State) (h : Fin 4) (c : Fin 24) (tval gpa tinst : DWord), s.Issues h.val → exceptionListed c.val = true →
      (s.hart h.val).exceptionTo c.val = 2 →
    ∃ t, exec (.trapEntry h (.exception c tval gpa tinst)) s = .next t ∧ OnlyHart s t h.val ∧ (t.hart h.val).csrRaw 0x241 = (s.hart h.val).pc ∧
      (t.hart h.val).csrRaw 0x242 = BitVec.ofNat 64 c.val ∧ (t.hart h.val).csrRaw 0x243 = tval ∧
      (t.hart h.val).csrBit 0x200 1 = false ∧ (t.hart h.val).csrBit 0x200 5 = (s.hart h.val).csrBit 0x200 1 ∧
      (t.hart h.val).pc = (s.hart h.val).csrRaw 0x205 &&& ~~~ 3#64 ∧ (t.hart h.val).priv = 1 ∧ (t.hart h.val).virt = true ∧
      (s.hart h.val).Enters (t.hart h.val) trapCsrsVs) ∧
--w hartR 0 (fun t => { (t.setCsr 0x302 0xFFFFFF).setCsr 0x602 0xFFFFFF with priv := 0, virt := true }); 0; 13; 0x1234; 0; 0
  (∀ (s : State) (h : Fin 4), s.Issues h.val → (s.hart h.val).priv = 3 →
    ∃ t, exec (.xret h .mret) s = .next t ∧ OnlyHart s t h.val ∧ (t.hart h.val).pc = (s.hart h.val).csrRaw 0x341 ∧
      (t.hart h.val).priv = Bits.get ((s.hart h.val).csrRaw 0x300) 11 2 ∧
      (t.hart h.val).virt = (Bits.get ((s.hart h.val).csrRaw 0x300) 11 2 != 3 && (s.hart h.val).csrBit 0x300 39) ∧
      (t.hart h.val).csrBit 0x300 3 = (s.hart h.val).csrBit 0x300 7 ∧ (t.hart h.val).csrBit 0x300 7 = true ∧
      Bits.get ((t.hart h.val).csrRaw 0x300) 11 2 = 0 ∧ (t.hart h.val).csrBit 0x300 39 = false ∧ (t.hart h.val).louArmed = true ∧
      (s.hart h.val).Enters (t.hart h.val) [0x300]) ∧
--w hartR 0 (fun t => (t.setCsr 0x341 0x80).setCsr 0x300 0x8000000880); 0
  (∀ (s : State) (h : Fin 4), s.Issues h.val → (s.hart h.val).virt = false →
      ((s.hart h.val).priv = 3 ∨ ((s.hart h.val).priv = 1 ∧ (s.hart h.val).csrBit 0x300 22 = false)) →
    ∃ t, exec (.xret h .sret) s = .next t ∧ OnlyHart s t h.val ∧ (t.hart h.val).pc = (s.hart h.val).csrRaw 0x141 ∧
      (t.hart h.val).priv = Bits.get ((s.hart h.val).csrRaw 0x300) 8 1 ∧ (t.hart h.val).virt = (s.hart h.val).csrBit 0x600 7 ∧
      (t.hart h.val).csrBit 0x300 1 = (s.hart h.val).csrBit 0x300 5 ∧ (t.hart h.val).csrBit 0x300 5 = true ∧
      Bits.get ((t.hart h.val).csrRaw 0x300) 8 1 = 0 ∧ (t.hart h.val).csrBit 0x600 7 = false ∧ (t.hart h.val).louArmed = true ∧
      (s.hart h.val).Enters (t.hart h.val) [0x300, 0x600]) ∧
--w hartR 0 (fun t => { (t.setCsr 0x141 0x80).setCsr 0x300 0x122 with priv := 1 }); 0
--w hartR 0 (fun t => ((t.setCsr 0x141 0x80).setCsr 0x300 0x122).setCsr 0x600 0x80); 0
  (∀ (s : State) (h : Fin 4), s.Issues h.val → (s.hart h.val).virt = true → (s.hart h.val).priv = 1 → (s.hart h.val).csrBit 0x600 22 = false →
    ∃ t, exec (.xret h .sret) s = .next t ∧ OnlyHart s t h.val ∧ (t.hart h.val).pc = (s.hart h.val).csrRaw 0x241 ∧
      (t.hart h.val).priv = Bits.get ((s.hart h.val).csrRaw 0x200) 8 1 ∧ (t.hart h.val).virt = true ∧
      (t.hart h.val).csrBit 0x200 1 = (s.hart h.val).csrBit 0x200 5 ∧ (t.hart h.val).csrBit 0x200 5 = true ∧
      Bits.get ((t.hart h.val).csrRaw 0x200) 8 1 = 0 ∧ (t.hart h.val).csrBit 0x300 17 = false ∧ (t.hart h.val).louArmed = true ∧
      (s.hart h.val).Enters (t.hart h.val) [0x200, 0x300]) ∧
--w hartR 0 (fun t => { (t.setCsr 0x241 0x80).setCsr 0x200 0x122 with priv := 1, virt := true }); 0
  (∀ (s : State) (h : Fin 4) (k : XretKind) (c : Nat), s.Issues h.val → (s.hart h.val).xretBarred k = some c → (s.hart h.val).exceptionTo c = 3 →
    ∃ t, exec (.xret h k) s = .next t ∧ OnlyHart s t h.val ∧ (t.hart h.val).csrRaw 0x341 = (s.hart h.val).pc ∧
      (t.hart h.val).csrRaw 0x342 = BitVec.ofNat 64 c ∧ (t.hart h.val).csrRaw 0x343 = (if k = .mret then 0x30200073#64 else 0x10200073#64) ∧
      (t.hart h.val).pc = (s.hart h.val).csrRaw 0x305 &&& ~~~ 3#64 ∧ (s.hart h.val).Enters (t.hart h.val) trapCsrsM)
--w hartR 0 (fun t => { t with priv := 1 }); 0; .mret; 2
--w hartR 0 (fun t => { t with priv := 0, virt := true }); 0; .sret; 22

/-- VENDOR_CSR_WRITE, SETTLING_END, WFI, SFENCE_VMA, FENCE, FENCE_I, SCOUT_ENTRY, SCOUT_LIMIT, SCOUT_END and COUNTER_WRAP. -/
def Obligations.HartStateFencesAndScout : Prop :=
  (∀ (s : State) (h : Fin 4) (c : VendorCsr) (op : CsrOp) (src : CsrSrc) (rd : Fin 32) (v : DWord), s.Issues h.val →
      (s.hart h.val).vendorBarred c = none → c ∈ [.mscout, .mloucfg, .mloufsr, .mloufpc, .mprefetch] → (s.hart h.val).windows = [] →
      csrNew (s.hart h.val) op src ((s.hart h.val).csrRaw (vendorNum c)) = some v →
    ∃ t, exec (.vendorCsrWrite h c op src rd) s = .next t ∧ OnlyHart s t h.val ∧
      (rd ≠ 0 → (t.hart h.val).xr rd.val = (s.hart h.val).csrRaw (vendorNum c)) ∧
      (t.hart h.val).csrRaw (vendorNum c) = vendorWrite (vendorNum c) ((s.hart h.val).csrRaw (vendorNum c)) v ∧
      (t.hart h.val).gov (vendorNum c) = (s.hart h.val).gov (vendorNum c) ∧
      (t.hart h.val).windows = [⟨vendorNum c, (t.hart h.val).csrRaw (vendorNum c), 4⟩] ∧ (t.hart h.val).pc = (s.hart h.val).pc + 4#64 ∧
      (∀ q : Fin 32, q ≠ rd → (t.hart h.val).xr q.val = (s.hart h.val).xr q.val) ∧
      (∀ n : Fin 4096, n.val ∉ vendorNum c :: countingCsrs → (t.hart h.val).csrRaw n.val = (s.hart h.val).csrRaw n.val) ∧
      t.hart h.val = { s.hart h.val with
        pc := (t.hart h.val).pc, x := (t.hart h.val).x, csr := (t.hart h.val).csr, windows := (t.hart h.val).windows, govern := (t.hart h.val).govern }) ∧
--w hartR 0 (fun t => t.setX 6 0x25000400); 0; .mscout; .write; .reg 6; 5; 0x25000400
--w hartR 0 (fun t => t.setX 6 0xFFFFFFFFFFFFFFFF); 0; .mloucfg; .write; .reg 6; 6; 0xFFFFFFFFFFFFFFFF
--w hartR 0 (fun t => t.setCsr 0x7C2 0x7F0117F7); 0; .mloufsr; .clear; .imm 7; 6; 0x7F0117F0
  (∀ (s : State) (h : Fin 4) (c : VendorCsr) (op : CsrOp) (src : CsrSrc) (rd : Fin 32), s.Issues h.val →
      (s.hart h.val).vendorBarred c = none →
      (c = .mguardst ∨ csrNew (s.hart h.val) op src (s.csrRead h.val (vendorNum c)) = none) →
    ∃ t, exec (.vendorCsrWrite h c op src rd) s = .next t ∧ OnlyHart s t h.val ∧
      (rd ≠ 0 → (t.hart h.val).xr rd.val = s.csrRead h.val (vendorNum c)) ∧ (s.hart h.val).GoesOn (t.hart h.val) [rd.val]) ∧
--w hartR 2 id; 2; .mguardst; .write; .imm 31; 5
--w hartR 0 id; 0; .sloufpc; .set; .reg 0; 0
  (∀ (s : State) (h : Fin 4) (c : VendorCsr) (op : CsrOp) (src : CsrSrc) (rd : Fin 32) (v : DWord), s.Issues h.val →
      (s.hart h.val).vendorBarred c = none → c ∈ [.sloufsr, .sloufpc] → (s.hart h.val).windows = [] →
      Bits.get ((s.hart h.val).csrRaw 0x7C2) 16 2 ≠ 3 →
      csrNew (s.hart h.val) op src ((s.hart h.val).csrRaw (vendorNum c + 0x200)) = some v →
    ∃ t, exec (.vendorCsrWrite h c op src rd) s = .next t ∧ OnlyHart s t h.val ∧
      (rd ≠ 0 → (t.hart h.val).xr rd.val = (s.hart h.val).csrRaw (vendorNum c + 0x200)) ∧
      (t.hart h.val).csrRaw (vendorNum c + 0x200) = vendorWrite (vendorNum c + 0x200) ((s.hart h.val).csrRaw (vendorNum c + 0x200)) v ∧
      (t.hart h.val).windows = [⟨vendorNum c + 0x200, (t.hart h.val).csrRaw (vendorNum c + 0x200), 4⟩] ∧
      (t.hart h.val).pc = (s.hart h.val).pc + 4#64 ∧
      (∀ n : Fin 4096, n.val ∉ (vendorNum c + 0x200) :: countingCsrs → (t.hart h.val).csrRaw n.val = (s.hart h.val).csrRaw n.val)) ∧
--w hartR 0 (fun t => { t.setCsr 0x7C1 0x805 with priv := 1 }); 0; .sloufpc; .write; .reg 6; 5; 0
  (∀ (s : State) (h : Fin 4) (c : VendorCsr) (op : CsrOp) (src : CsrSrc) (rd : Fin 32) (x : Nat), s.Issues h.val →
      (s.hart h.val).vendorBarred c = some x → (s.hart h.val).exceptionTo x = 3 →
    ∃ t, exec (.vendorCsrWrite h c op src rd) s = .next t ∧ s.TrapsM t h.val x (zicsrBits (vendorNum c) op src rd.val)) ∧
--w hartR 0 (fun t => { t with priv := 1 }); 0; .mscout; .write; .reg 6; 5; 2
--w hartR 0 (fun t => { t with priv := 0, virt := true }); 0; .sloufsr; .set; .reg 0; 5; 22
  (∀ (s : State) (h : Fin 4) (pc : DWord) (w : Settling), s.Issues h.val → (s.hart h.val).windows = [w] →
      (s.hart h.val).csrRaw w.csr = w.value → w.csr ≠ 0xB02 →
    ∃ t, exec (.settlingEnd h pc) s = .next t ∧ OnlyHart s t h.val ∧ (t.hart h.val).windows = [] ∧
      (t.hart h.val).gov w.csr = w.value.toNat ∧ (t.hart h.val).pc = pc ∧
      (t.hart h.val).csrRaw 0xB02 = (if (s.hart h.val).csrBit 0x320 2 ∨ (s.hart h.val).stopsCount then (s.hart h.val).csrRaw 0xB02
        else (s.hart h.val).csrRaw 0xB02 + BitVec.ofNat 64 w.left) ∧
      (∀ n : Fin 4096, n.val ≠ 0xB02 → (t.hart h.val).csrRaw n.val = (s.hart h.val).csrRaw n.val) ∧
      t.hart h.val = { s.hart h.val with pc := pc, csr := (t.hart h.val).csr, windows := [], govern := (t.hart h.val).govern }) ∧
--w hartR 0 (fun t => { t.setCsr 0x7C0 5 with windows := [⟨0x7C0, 5, 3⟩], govern := [(0x7C0, 7)] }); 0; 0x500; ⟨0x7C0, 5, 3⟩
  (∀ (s : State) (h : Fin 4), s.Issues h.val → (s.hart h.val).wfiBarred = none → s.wakeCond h.val = false → s.localPending h.val = false →
    ∃ t, exec (.wfi h) s = .next t ∧ OnlyHart s t h.val ∧ t.hart h.val = { s.hart h.val with wfi := true }) ∧
--w hartR 0 id; 0
  (∀ (s : State) (h : Fin 4), s.Issues h.val → (s.hart h.val).wfiBarred = none → (s.wakeCond h.val = true ∨ s.localPending h.val = true) →
    ∃ t, exec (.wfi h) s = .next t ∧ OnlyHart s t h.val ∧ (s.hart h.val).GoesOn (t.hart h.val) [] ∧ (t.hart h.val).wfi = false) ∧
--w (hartR 0 (fun t => t.setCsr 0x304 0x80)).setReg (R.TIMER_MTIMECMP 0) 0; 0
--w cairnPending.modHart 0 (fun t => { t with running := true, parked := false }); 0
  (∀ (s : State) (h : Fin 4) (x : Nat), s.Issues h.val → (s.hart h.val).wfiBarred = some x → (s.hart h.val).exceptionTo x = 3 →
    ∃ t, exec (.wfi h) s = .next t ∧ s.TrapsM t h.val x 0x10500073#64) ∧
--w hartR 0 (fun t => { t.setCsr 0x300 0x200000 with priv := 0 }); 0; 2
  (∀ (s : State) (h : Fin 4) (k : VmaFence), s.Issues h.val → (s.hart h.val).fenceBarred k = none →
    ∃ t, exec (.sfenceVma h k 0 0) s = .next t ∧ OnlyHart s t h.val ∧
      (t.hart h.val).itlb = (s.hart h.val).itlb.filter (fun e => ! (s.hart h.val).wholeFence k e.stage e.vmid) ∧
      (t.hart h.val).dtlb = (s.hart h.val).dtlb.filter (fun e => ! (s.hart h.val).wholeFence k e.stage e.vmid) ∧
      (t.hart h.val).tlb = (s.hart h.val).tlb.filter (fun e => ! (s.hart h.val).wholeFence k e.stage e.vmid) ∧
      (t.hart h.val).tlbLarge = (s.hart h.val).tlbLarge.filter (fun e => ! (s.hart h.val).wholeFence k e.stage e.vmid) ∧
      (t.hart h.val).walk = (s.hart h.val).walk.filter (fun e => ! (s.hart h.val).wholeFence k e.stage e.vmid) ∧
      (s.hart h.val).GoesOn ((t.hart h.val).translatesAs (s.hart h.val)) []) ∧
--w hartR 0 (fun t => { t with tlb := [⟨5, 0, 3, false, 0, 0, 9, 0xCF⟩, ⟨5, 0, 3, false, 2, 1, 9, 0xCF⟩], walk := [⟨0, 3, 0, 0x80000000, 1⟩] }); 0; .sfenceVma
--w hartR 0 (fun t => { t with tlb := [⟨5, 0, 3, false, 0, 0, 9, 0xCF⟩, ⟨5, 0, 3, false, 0, 1, 9, 0xCF⟩], walk := [⟨2, 3, 0, 0x80000000, 1⟩] }); 0; .hfenceVvma
  (∀ (s : State) (h : Fin 4) (k : VmaFence) (rs1 rs2 : Fin 32), s.Issues h.val → (s.hart h.val).fenceBarred k = none → k ≠ .hfenceGvma →
      (s.hart h.val).virt = false → k = .sfenceVma → rs1 ≠ 0 → rs2 ≠ 0 →
    ∃ t, exec (.sfenceVma h k rs1 rs2) s = .next t ∧ OnlyHart s t h.val ∧
      (t.hart h.val).dtlb = (s.hart h.val).dtlb.filter (fun e => ! (decide (e.stage = 0) && ! e.global &&
        decide (e.asid = ((s.hart h.val).xr rs2.val).toNat % 2 ^ 16) &&
        decide (((s.hart h.val).xr rs1.val).toNat / 4096 / 2 ^ (9 * e.level) = e.vpn / 2 ^ (9 * e.level)))) ∧
      (t.hart h.val).walk = (s.hart h.val).walk ∧ (s.hart h.val).GoesOn ((t.hart h.val).translatesAs (s.hart h.val)) []) ∧
--w hartR 0 (fun t => { (t.setX 6 0x5000).setX 7 3 with dtlb := [⟨5, 0, 3, false, 0, 0, 9, 0xCF⟩, ⟨6, 0, 3, false, 0, 0, 9, 0xCF⟩] }); 0; .sfenceVma; 6; 7
  (∀ (s : State) (h : Fin 4) (k : VmaFence) (rs1 rs2 : Fin 32) (x : Nat), s.Issues h.val → (s.hart h.val).fenceBarred k = some x →
      (s.hart h.val).exceptionTo x = 3 →
    ∃ t, exec (.sfenceVma h k rs1 rs2) s = .next t ∧ s.TrapsM t h.val x (vmaFenceBits k rs1.val rs2.val)) ∧
--w hartR 0 (fun t => { t with priv := 0 }); 0; .sfenceVma; 6; 7; 2
--w hartR 0 (fun t => { t with priv := 1, virt := true }); 0; .hfenceGvma; 6; 7; 22
  (∀ (s : State) (h : Fin 4) (pred succ : Fin 16), s.Issues h.val →
    ∃ t, exec (.fence h pred succ) s = .next t ∧ OnlyHart s t h.val ∧ (s.hart h.val).GoesOn (t.hart h.val) [] ∧
      (t.hart h.val).acc = (s.hart h.val).acc ∧ (t.hart h.val).lou = []) ∧
--w hartR 0 id; 0; 15; 0
  (∀ (s : State) (h : Fin 4), s.Issues h.val →
    ∃ t, exec (.fenceI h) s = .next t ∧ (∀ k : Fin 4, k.val ∉ s.pairOf h.val → t.hart k.val = s.hart k.val) ∧ (s.hart h.val).GoesOn (t.hart h.val) [] ∧
      (s.guarded = true → t.hart (h.val + 1) = t.hart h.val) ∧
      t.memory.lines = s.memory.lines.filter (fun x => ! decide (x.cache = .l1i h.val)) ∧
      t = { s with harts := t.harts, memory := { s.memory with lines := t.memory.lines } }) ∧
--w hartR 0 id; 0
  (∀ (s : State) (h : Fin 4) (rd rs1 : Fin 32) (signed : Bool) (z : Size) (imm : BitVec 12), s.Issues h.val → (s.hart h.val).priv = 3 →
      (s.hart h.val).csrBit 0x300 17 = false → (signed = true ∨ z ≠ .d) → (s.hart h.val).scoutEnabled = true →
      ((s.hart h.val).xr rs1.val + imm.signExtend 64).toNat % sizeLen z = 0 →
      s.inMain ((s.hart h.val).xr rs1.val + imm.signExtend 64).toNat 1 = true →
      (s.hart h.val).pmpOk .load 3 ((s.hart h.val).xr rs1.val + imm.signExtend 64).toNat = true →
      (s.hart h.val).trigFired 0 ((s.hart h.val).xr rs1.val + imm.signExtend 64).toNat = [] →
      s.lineIn (.l2 h.val) (lineOf ((s.hart h.val).xr rs1.val + imm.signExtend 64).toNat) = none →
    ∃ t, exec (.scoutEntry h (.load rd false signed z rs1 imm) false) s = .next t ∧ OnlyHart s t h.val ∧
      (t.hart h.val).pc = (s.hart h.val).pc + 4#64 ∧
      (t.hart h.val).scout = some ⟨(s.hart h.val).pc, (s.hart h.val).x, (s.hart h.val).f, 0, 0, false, if rd = 0 then 0 else 2 ^ rd.val, []⟩ ∧
      (∀ n, n ∉ countingCsrs → (t.hart h.val).csrRaw n = (s.hart h.val).csrRaw n) ∧
      t.hart h.val = { s.hart h.val with pc := (t.hart h.val).pc, csr := (t.hart h.val).csr, scout := (t.hart h.val).scout }) ∧
--w memR; 0; 31; 6; true; .d; 0
--w memR; 0; 0; 6; false; .b; 4
  (∀ (s : State) (h : Fin 4) (a : HartAccess) (compressed : Bool), ((s.hart h.val).scoutEnabled = false ∨ loadDest a = none ∨ s.hartLive h.val = false) →
    ∃ t, exec (.scoutEntry h a compressed) s = .next t ∧ t = s) ∧
--w memR; 0; .store 5 false .d 6 0; false
  (∀ (s : State) (h : Fin 4) (c : Scout), s.hartLive h.val = true → (s.hart h.val).scout = some c → c.stopped = false →
    ∃ t, exec (.scoutLimit h false) s = .next t ∧ OnlyHart s t h.val ∧
      (t.hart h.val).scout = some { c with insns := (s.hart h.val).gov 0x7C0 / 2 ^ 8 % 1024, stopped := true } ∧
      (∀ n, n ∉ countingCsrs → (t.hart h.val).csrRaw n = (s.hart h.val).csrRaw n) ∧
      t.hart h.val = { s.hart h.val with csr := (t.hart h.val).csr, scout := (t.hart h.val).scout }) ∧
--w hartR 0 (fun t => { t with scout := some ⟨4, [], [], 2, 0, false, 0, []⟩ }); 0; ⟨4, [], [], 2, 0, false, 0, []⟩
  (∀ (s : State) (h : Fin 4) (c : Scout), s.hartLive h.val = true → (s.hart h.val).scout = some c → c.stopped = false →
    ∃ t, exec (.scoutLimit h true) s = .next t ∧ OnlyHart s t h.val ∧
      (t.hart h.val).scout = some { c with cycles := (s.hart h.val).gov 0x7C0 / 2 ^ 20 % 1024, stopped := true } ∧
      (∀ n, n ∉ countingCsrs → (t.hart h.val).csrRaw n = (s.hart h.val).csrRaw n) ∧
      t.hart h.val = { s.hart h.val with csr := (t.hart h.val).csr, scout := (t.hart h.val).scout }) ∧
--w hartR 0 (fun t => { t with scout := some ⟨4, [], [], 2, 0, false, 0, []⟩ }); 0; ⟨4, [], [], 2, 0, false, 0, []⟩
  (∀ (s : State) (h : Fin 4) (c : Scout) (k : ScoutEnd), s.hartLive h.val = true → (s.hart h.val).scout = some c →
      (k = .data ∨ (k = .interrupt ∧ s.localPending h.val = true)) →
    ∃ t, exec (.scoutEnd h k) s = .next t ∧ OnlyHart s t h.val ∧
      t.hart h.val = { s.hart h.val with pc := c.pc, x := c.x, f := c.f, scout := none }) ∧
--w hartR 0 (fun t => { t with scout := some ⟨4, [], [], 2, 0, false, 0, []⟩ }); 0; ⟨4, [], [], 2, 0, false, 0, []⟩; .data
--w (hartR 0 (fun t => { t.setCsr 0x304 0x80 with scout := some ⟨4, [], [], 2, 0, false, 0, []⟩ })).setReg (R.TIMER_MTIMECMP 0) 0; 0; ⟨4, [], [], 2, 0, false, 0, []⟩; .interrupt
  (∀ (s : State) (h : Fin 4) (c : Scout), s.hartLive h.val = true → (s.hart h.val).scout = some c → (s.hart h.val).lou = [] →
      (s.hart h.val).wfi = false →
    ∃ t, exec (.scoutEnd h .halt) s = .next t ∧ OnlyHart s t h.val ∧ (t.hart h.val).debug = true ∧ (t.hart h.val).scout = none ∧
      (t.hart h.val).csrRaw 0x7B1 = c.pc ∧ Bits.get ((t.hart h.val).csrRaw 0x7B0) 6 3 = 3 ∧ (t.hart h.val).x = c.x ∧ (t.hart h.val).f = c.f) ∧
--w hartR 0 (fun t => { t with scout := some ⟨4, [], [], 2, 0, false, 0, []⟩ }); 0; ⟨4, [], [], 2, 0, false, 0, []⟩
  (∀ (s : State) (h : Fin 4) (n : Fin 32), s.visible.contains h.val = true → (s.hart h.val).running = true → 3 ≤ n.val → n.val ≤ 10 →
      (s.hart h.val).stopsCount = false →
    ∃ t, exec (.counterWrap h n) s = .next t ∧ OnlyHart s t h.val ∧ (t.hart h.val).csrRaw (0xB00 + n.val) = 0#64 ∧
      (t.hart h.val).csrBit (0x320 + n.val) 63 = true ∧
      (t.hart h.val).csrBit 0x344 13 = (! (s.hart h.val).csrBit (0x320 + n.val) 63 || (s.hart h.val).csrBit 0x344 13) ∧
      (∀ m : Fin 4096, m.val ∉ [0xB00 + n.val, 0x320 + n.val, 0x344] → (t.hart h.val).csrRaw m.val = (s.hart h.val).csrRaw m.val) ∧
      t.hart h.val = { s.hart h.val with csr := (t.hart h.val).csr }) ∧
--w hartR 0 id; 0; 10
--w hartR 0 (fun t => t.putCsr 0x323 63 1 1); 0; 3
  (∀ (s : State) (h : Fin 4) (n : Fin 32), ((s.hart h.val).stopsCount = true ∨ n.val < 3 ∨ 10 < n.val) →
    ∃ t, exec (.counterWrap h n) s = .next t ∧ t = s)
--w hartR 0 (fun t => { t.setCsr 0x7B0 0x400 with debug := true }); 0; 10
--w hartR 0 id; 0; 2

/-- MEMORY_ACCESS, CBO_CLEAN, CBO_FLUSH, CBO_INVAL and CBO_ZERO. -/
def Obligations.HartLoadsStoresAtomicsAndCacheBlocks : Prop :=
  (∀ (s : State) (h : Fin 4) (rd rs1 : Fin 32) (signed : Bool) (z : Size) (imm : BitVec 12),
      s.PlainAccess h.val ((s.hart h.val).xr rs1.val + imm.signExtend 64).toNat (sizeLen z) → s.QuietMemory → (signed = true ∨ z ≠ .d) →
    ∃ t, exec (.memoryAccess h (.load rd false signed z rs1 imm) false) s = .next t ∧
      (rd ≠ 0 → (t.hart h.val).xr rd.val = extendBytes signed (sizeLen z) (s.numAt ((s.hart h.val).xr rs1.val + imm.signExtend 64).toNat (sizeLen z))) ∧
      (s.hart h.val).GoesOn (t.hart h.val) [rd.val] ∧ KeepsMem s t ∧ s.OnlyAccess t h.val) ∧
--w memR; 0; 5; 6; true; .w; 4
--w memR; 0; 6; 6; false; .h; 6
--w memR; 0; 6; 6; true; .b; 0
--w (hartR 0 (fun t => t.setX 6 0x80000100)).putMem 0x80000100 [0x80]; 0; 5; 6; true; .b; 0
  (∀ (s : State) (h : Fin 4) (rd rs1 : Fin 32) (z : Size) (imm : BitVec 12), s.PlainAccess h.val ((s.hart h.val).xr rs1.val + imm.signExtend 64).toNat (sizeLen z) → s.QuietMemory →
      (z = .w ∨ z = .d) → Bits.get ((s.hart h.val).csrRaw 0x300) 13 2 ≠ 0 → (s.hart h.val).virt = false →
    ∃ t, exec (.memoryAccess h (.load rd true true z rs1 imm) false) s = .next t ∧
      (t.hart h.val).fr rd.val = BitVec.ofNat 64 ((if z = .w then 0xFFFFFFFF00000000 else 0) + s.numAt ((s.hart h.val).xr rs1.val + imm.signExtend 64).toNat (sizeLen z)) ∧
      (∀ r : Fin 32, r ≠ rd → (t.hart h.val).fr r.val = (s.hart h.val).fr r.val) ∧ Bits.get ((t.hart h.val).csrRaw 0x300) 13 2 = 3 ∧
      (∀ n, n ∉ 0x300 :: countingCsrs → (t.hart h.val).csrRaw n = (s.hart h.val).csrRaw n) ∧ (t.hart h.val).pc = (s.hart h.val).pc + 4#64 ∧ (t.hart h.val).x = (s.hart h.val).x ∧
      KeepsMem s t ∧ s.OnlyAccess t h.val) ∧
--w memR.modHart 0 (fun t => t.setCsr 0x300 0x2000); 0; 5; 6; .w; 4
--w memR.modHart 0 (fun t => t.setCsr 0x300 0x2000); 0; 5; 6; .d; 0
  (∀ (s : State) (h : Fin 4) (rs2 rs1 : Fin 32) (z : Size) (imm : BitVec 12), s.PlainAccess h.val ((s.hart h.val).xr rs1.val + imm.signExtend 64).toNat (sizeLen z) → s.QuietMemory →
    ∃ t, exec (.memoryAccess h (.store rs2 false z rs1 imm) false) s = .next t ∧
      t.numAt ((s.hart h.val).xr rs1.val + imm.signExtend 64).toNat (sizeLen z) = ((s.hart h.val).xr rs2.val).toNat % 2 ^ (8 * sizeLen z) ∧
      KeepsMemBut s t ((s.hart h.val).xr rs1.val + imm.signExtend 64).toNat (sizeLen z) ∧
      (s.hart h.val).GoesOn (t.hart h.val) [] ∧ s.OnlyAccess t h.val) ∧
--w memR; 0; 7; 6; .w; 4
--w memR; 0; 6; 6; .d; 0
  (∀ (s : State) (h : Fin 4) (rs2 rs1 : Fin 32) (z : Size) (imm : BitVec 12), s.PlainAccess h.val ((s.hart h.val).xr rs1.val + imm.signExtend 64).toNat (sizeLen z) → s.QuietMemory →
      (z = .w ∨ z = .d) → Bits.get ((s.hart h.val).csrRaw 0x300) 13 2 ≠ 0 → (s.hart h.val).virt = false →
    ∃ t, exec (.memoryAccess h (.store rs2 true z rs1 imm) false) s = .next t ∧
      t.numAt ((s.hart h.val).xr rs1.val + imm.signExtend 64).toNat (sizeLen z) = ((s.hart h.val).fr rs2.val).toNat % 2 ^ (8 * sizeLen z) ∧
      KeepsMemBut s t ((s.hart h.val).xr rs1.val + imm.signExtend 64).toNat (sizeLen z) ∧ (s.hart h.val).GoesOn (t.hart h.val) [] ∧ s.OnlyAccess t h.val) ∧
--w memR.modHart 0 (fun t => (t.setCsr 0x300 0x2000).setF 7 0x123456789ABCDEF0); 0; 7; 6; .w; 4
  (∀ (s : State) (h : Fin 4) (rd rs1 : Fin 32) (z : Size) (imm : BitVec 12), s.Issues h.val → (z = .w ∨ z = .d) →
      Bits.get ((s.hart h.val).csrRaw 0x300) 13 2 = 0 → (s.hart h.val).exceptionTo 2 = 3 →
    ∃ t, exec (.memoryAccess h (.load rd true true z rs1 imm) false) s = .next t ∧
      s.TrapsM t h.val 2 (BitVec.ofNat 64 (accessBits (.load rd true true z rs1 imm)))) ∧
--w memR.modHart 0 (fun t => t.setCsr 0x300 0); 0; 5; 6; .w; 4
  (∀ (s : State) (h : Fin 4) (rd rs1 : Fin 32) (wide : Bool) (aqrl : Fin 4), s.PlainAccess h.val ((s.hart h.val).xr rs1.val).toNat (if wide then 8 else 4) → s.QuietMemory →
    ∃ t, exec (.memoryAccess h (.lr rd wide rs1 aqrl) false) s = .next t ∧
      (t.hart h.val).reservation = some (((s.hart h.val).xr rs1.val).toNat, (if wide then 8 else 4)) ∧ (rd ≠ 0 → (t.hart h.val).xr rd.val = extendBytes true (if wide then 8 else 4) (s.numAt ((s.hart h.val).xr rs1.val).toNat (if wide then 8 else 4))) ∧
      (s.hart h.val).GoesOn { (t.hart h.val) with reservation := (s.hart h.val).reservation } [rd.val] ∧ KeepsMem s t ∧ s.OnlyAccess t h.val) ∧
--w memR; 0; 5; 6; true; 0
--w memR; 0; 5; 6; false; 3
  (∀ (s : State) (h : Fin 4) (rd rs2 rs1 : Fin 32) (wide : Bool) (aqrl : Fin 4), s.PlainAccess h.val ((s.hart h.val).xr rs1.val).toNat (if wide then 8 else 4) →
      ((s.hart h.val).reservation ≠ some (((s.hart h.val).xr rs1.val).toNat, (if wide then 8 else 4)) ∨ s.lineIn (.l2 h.val) (lineOf ((s.hart h.val).xr rs1.val).toNat) = none) →
    ∃ t, exec (.memoryAccess h (.sc rd rs2 wide rs1 aqrl) false) s = .next t ∧ OnlyHart s t h.val ∧ (rd ≠ 0 → (t.hart h.val).xr rd.val = 1#64) ∧
      (t.hart h.val).reservation = none ∧ (s.hart h.val).GoesOn { (t.hart h.val) with reservation := (s.hart h.val).reservation } [rd.val]) ∧
--w memR; 0; 5; 7; 6; false; 1
--w memR.modHart 0 (fun t => { t with reservation := some (0x01000100, 8) }); 0; 5; 7; 6; true; 1
  (∀ (s : State) (h : Fin 4) (rd rs2 rs1 : Fin 32) (wide : Bool) (aqrl : Fin 4) (w : Fin 8), s.PlainAccess h.val ((s.hart h.val).xr rs1.val).toNat (if wide then 8 else 4) → s.SoundMemory →
      (s.hart h.val).reservation = some (((s.hart h.val).xr rs1.val).toNat, (if wide then 8 else 4)) → s.memory.lines = [⟨.l2 h.val, lineOf ((s.hart h.val).xr rs1.val).toNat, .e, false, w.val⟩] →
    ∃ t, exec (.memoryAccess h (.sc rd rs2 wide rs1 aqrl) false) s = .next t ∧ (rd ≠ 0 → (t.hart h.val).xr rd.val = 0#64) ∧
      t.numAt ((s.hart h.val).xr rs1.val).toNat (if wide then 8 else 4) = ((s.hart h.val).xr rs2.val).toNat % 2 ^ (8 * (if wide then 8 else 4)) ∧ KeepsMemBut s t ((s.hart h.val).xr rs1.val).toNat (if wide then 8 else 4) ∧ t.lineDirty (lineOf ((s.hart h.val).xr rs1.val).toNat) = true ∧
      (t.hart h.val).reservation = none ∧ (s.hart h.val).GoesOn { (t.hart h.val) with reservation := (s.hart h.val).reservation } [rd.val] ∧ s.OnlyAccess t h.val) ∧
--w (memR.modHart 0 (fun t => { t with reservation := some (0x01000100, 8) })).setLines [⟨.l2 0, 0x01000100, .e, false, 2⟩]; 0; 5; 7; 6; true; 1; 2
  (∀ (s : State) (h : Fin 4) (op : AmoOp) (rd rs2 rs1 : Fin 32) (wide : Bool) (aqrl : Fin 4), s.PlainAccess h.val ((s.hart h.val).xr rs1.val).toNat (if wide then 8 else 4) → s.QuietMemory →
    ∃ t, exec (.memoryAccess h (.amo op rd rs2 wide rs1 aqrl) false) s = .next t ∧
      (rd ≠ 0 → (t.hart h.val).xr rd.val = extendBytes true (if wide then 8 else 4) (s.numAt ((s.hart h.val).xr rs1.val).toNat (if wide then 8 else 4))) ∧
      t.numAt ((s.hart h.val).xr rs1.val).toNat (if wide then 8 else 4) = amoResult op (if wide then 8 else 4) (s.numAt ((s.hart h.val).xr rs1.val).toNat (if wide then 8 else 4)) ((s.hart h.val).xr rs2.val).toNat ∧
      KeepsMemBut s t ((s.hart h.val).xr rs1.val).toNat (if wide then 8 else 4) ∧ (s.hart h.val).GoesOn (t.hart h.val) [rd.val] ∧ s.OnlyAccess t h.val) ∧
--w memR; 0; .min; 5; 7; 6; true; 0
--w memR; 0; .add; 6; 7; 6; false; 2
  (∀ (s : State) (h : Fin 4) (rd rs1 : Fin 32) (signed : Bool) (z : Size) (imm : BitVec 12), s.Issues h.val → (s.hart h.val).priv = 3 →
      (s.hart h.val).csrBit 0x300 17 = false → (signed = true ∨ z ≠ .d) → (s.hart h.val).trigFired 0 ((s.hart h.val).xr rs1.val + imm.signExtend 64).toNat = [] →
      s.inMain ((s.hart h.val).xr rs1.val + imm.signExtend 64).toNat 1 = true → (s.hart h.val).pmpOk .load 3 ((s.hart h.val).xr rs1.val + imm.signExtend 64).toNat = true → ((s.hart h.val).xr rs1.val + imm.signExtend 64).toNat % sizeLen z ≠ 0 → 64 < ((s.hart h.val).xr rs1.val + imm.signExtend 64).toNat % 64 + sizeLen z →
    ∃ t, exec (.memoryAccess h (.load rd false signed z rs1 imm) false) s = .next t ∧ s.TrapsM t h.val 4 ((s.hart h.val).xr rs1.val + imm.signExtend 64)) ∧
--w memR; 0; 5; 6; true; .w; 61
  (∀ (s : State) (h : Fin 4) (rs2 rs1 : Fin 32) (z : Size) (imm : BitVec 12), s.Issues h.val → (s.hart h.val).priv = 3 →
      (s.hart h.val).csrBit 0x300 17 = false → (s.hart h.val).trigFired 1 ((s.hart h.val).xr rs1.val + imm.signExtend 64).toNat = [] → ((s.hart h.val).xr rs1.val + imm.signExtend 64).toNat % sizeLen z = 0 →
      (2 ^ 40 ≤ ((s.hart h.val).xr rs1.val + imm.signExtend 64).toNat ∨ (s.inMain ((s.hart h.val).xr rs1.val + imm.signExtend 64).toNat 1 = false ∧ ioRegion ((s.hart h.val).xr rs1.val + imm.signExtend 64).toNat = false) ∨ (s.hart h.val).pmpOk .store 3 ((s.hart h.val).xr rs1.val + imm.signExtend 64).toNat = false) →
    ∃ t, exec (.memoryAccess h (.store rs2 false z rs1 imm) false) s = .next t ∧ s.TrapsM t h.val 7 ((s.hart h.val).xr rs1.val + imm.signExtend 64)) ∧
--w memR; 0; 7; 0; .w; 4
--w memR.modHart 0 (fun t => (t.setX 6 0x10000000000)); 0; 7; 6; .b; 0
  (∀ (s : State) (h : Fin 4) (op : AmoOp) (rd rs2 rs1 : Fin 32) (wide : Bool) (aqrl : Fin 4), s.Issues h.val → (s.hart h.val).priv = 3 →
      (s.hart h.val).trigFired 0 ((s.hart h.val).xr rs1.val).toNat = [] → (s.hart h.val).trigFired 1 ((s.hart h.val).xr rs1.val).toNat = [] → ((s.hart h.val).xr rs1.val).toNat % (if wide then 8 else 4) ≠ 0 →
    ∃ t, exec (.memoryAccess h (.amo op rd rs2 wide rs1 aqrl) false) s = .next t ∧ s.TrapsM t h.val 6 ((s.hart h.val).xr rs1.val)) ∧
--w memR.modHart 0 (fun t => t.setX 6 0x01000102); 0; .add; 5; 7; 6; false; 0
  (∀ (s : State) (h : Fin 4) (kind : Fin 4) (rs1 : Fin 32) (imm : BitVec 12), s.Issues h.val → kind.val ≠ 2 → imm.toNat % 32 = 0 →
      ((s.hart h.val).gov 0x7C4).testBit 2 = false →
    ∃ t, exec (.memoryAccess h (.hint kind rs1 imm) false) s = .next t ∧ OnlyHart s t h.val ∧ (s.hart h.val).GoesOn (t.hart h.val) []) ∧
--w memR.modHart 0 (fun t => t.setCsr 0x7C4 0x801); 0; 1; 6; 32
  (∀ (s : State) (h : Fin 4) (rd rs1 : Fin 32) (imm : BitVec 12), s.Issues h.val → (s.hart h.val).priv = 3 → s.QuietMemory → s.inMain (s.hart h.val).pc.toNat 1 = true →
      (s.hart h.val).pc.toNat % 64 = 0 → (s.hart h.val).pmpOk .fetch 3 (s.hart h.val).pc.toNat = true → (s.hart h.val).pmpOk .fetch 3 ((s.hart h.val).pc.toNat + 2) = true →
      s.numAt (s.hart h.val).pc.toNat 4 = iType imm.toNat rs1.val 0 rd.val 0x13 →
    ∃ t, exec (.memoryAccess h .fetch false) s = .next t ∧ (rd ≠ 0 → (t.hart h.val).xr rd.val = (s.hart h.val).xr rs1.val + imm.signExtend 64) ∧
      (s.hart h.val).GoesOn (t.hart h.val) [rd.val] ∧ KeepsMem s t ∧ s.OnlyAccess t h.val) ∧
--w (hartR 0 (fun t => { t with pc := 0x01000040 })).putMem 0x01000040 (leBytes 4 (iType 0xFFF 0 0 5 0x13)); 0; 5; 0; 0xFFF
--w (hartR 0 (fun t => { t with pc := 0x80000040 })).putMem 0x80000040 (leBytes 4 (iType 7 5 0 5 0x13)); 0; 5; 5; 7
  (∀ (s : State) (h : Fin 4) (rs1 : Fin 32), s.PlainAccess h.val (lineOf ((s.hart h.val).xr rs1.val).toNat) 64 →
      inMram (lineOf ((s.hart h.val).xr rs1.val).toNat) = false → s.SoundMemory → s.lineDirty (lineOf ((s.hart h.val).xr rs1.val).toNat) = true →
    ∃ t, exec (.cboClean h rs1) s = .next t ∧ t.lineDirty (lineOf ((s.hart h.val).xr rs1.val).toNat) = false ∧
      t.memory.lines = s.memory.lines.map (fun x => if x.line = (lineOf ((s.hart h.val).xr rs1.val).toNat) then { x with dirty := false } else x) ∧
      t.memory.stale = s.memory.stale.filter (fun e => ! decide ((lineOf ((s.hart h.val).xr rs1.val).toNat) ≤ e.1 ∧ e.1 < (lineOf ((s.hart h.val).xr rs1.val).toNat) + 64)) ∧ (s.hart h.val).GoesOn (t.hart h.val) [] ∧
      KeepsMem s t ∧ s.OnlyAccess t h.val) ∧
--w dirtyR 0x80000080; 0; 6
--w dirtyR 0x01000080; 0; 6
  (∀ (s : State) (h : Fin 4) (rs1 : Fin 32), s.PlainAccess h.val (lineOf ((s.hart h.val).xr rs1.val).toNat) 64 → inMram (lineOf ((s.hart h.val).xr rs1.val).toNat) = true → s.SoundMemory → s.lineDirty (lineOf ((s.hart h.val).xr rs1.val).toNat) = true →
      s.mramRefuses (lineOf ((s.hart h.val).xr rs1.val).toNat) 64 = false → s.memory.mram = [] →
    ∃ t, exec (.cboClean h rs1) s = .next t ∧ t.lineDirty (lineOf ((s.hart h.val).xr rs1.val).toNat) = false ∧ t.memory.mram.map (fun e => e.addr) = wordsOf (lineOf ((s.hart h.val).xr rs1.val).toNat) 64 ∧
      (∀ e ∈ t.memory.mram, e.new.toNat = s.numAt e.addr 8) ∧ (s.hart h.val).GoesOn (t.hart h.val) [] ∧ KeepsMem s t ∧
      KeepsRegs s t [R.PWR_SNAP_CTRL] ∧ t = { s with regs := t.regs, harts := t.harts, memory := t.memory }) ∧
--w dirtyR 0x08000080; 0; 6
  (∀ (s : State) (h : Fin 4) (rs1 : Fin 32), s.PlainAccess h.val (lineOf ((s.hart h.val).xr rs1.val).toNat) 64 → inMram (lineOf ((s.hart h.val).xr rs1.val).toNat) = false → s.SoundMemory →
    ∃ t, exec (.cboFlush h rs1) s = .next t ∧ t.lineHeld (lineOf ((s.hart h.val).xr rs1.val).toNat) = false ∧
      t.memory.lines = s.memory.lines.filter (fun x => x.line != (lineOf ((s.hart h.val).xr rs1.val).toNat)) ∧ (s.hart h.val).GoesOn (t.hart h.val) [] ∧ KeepsMem s t ∧ s.OnlyAccess t h.val) ∧
--w dirtyR 0x80000080; 0; 6
--w memR; 0; 6
  (∀ (s : State) (h : Fin 4) (rs1 : Fin 32) (a : Nat) (b : Byte), s.PlainAccess h.val (lineOf ((s.hart h.val).xr rs1.val).toNat) 64 → s.SoundMemory →
      s.staleOf (lineOf ((s.hart h.val).xr rs1.val).toNat) = [(a, b)] →
    ∃ t, exec (.cboInval h rs1) s = .next t ∧ t.byteAt a = b ∧ KeepsMemBut s t a 1 ∧
      t.lineHeld (lineOf ((s.hart h.val).xr rs1.val).toNat) = false ∧ t.memory.lines = s.memory.lines.filter (fun x => x.line != (lineOf ((s.hart h.val).xr rs1.val).toNat)) ∧
      (s.hart h.val).GoesOn (t.hart h.val) [] ∧ s.OnlyAccess t h.val) ∧
--w dirtyR 0x80000080; 0; 6; 0x80000085; 0x55
--w dirtyR 0x01000080; 0; 6; 0x01000085; 0x55
  (∀ (s : State) (h : Fin 4) (rs1 : Fin 32), s.PlainAccess h.val (lineOf ((s.hart h.val).xr rs1.val).toNat) 64 → s.QuietMemory →
    ∃ t, exec (.cboZero h rs1) s = .next t ∧
      (∀ i : Fin 64, t.byteAt ((lineOf ((s.hart h.val).xr rs1.val).toNat) + i.val) = 0#8) ∧
      KeepsMemBut s t (lineOf ((s.hart h.val).xr rs1.val).toNat) 64 ∧ (s.hart h.val).GoesOn (t.hart h.val) [] ∧ s.OnlyAccess t h.val) ∧
--w memR; 0; 6
  (∀ (s : State) (h : Fin 4) (k : CacheBlock) (rs1 : Fin 32), s.Issues h.val → (s.hart h.val).priv = 3 → (s.hart h.val).csrBit 0x300 17 = false → k ≠ .zero →
      ((s.hart h.val).xr rs1.val).toNat < 0x20000 → (s.hart h.val).pmpOk .load 3 (lineOf ((s.hart h.val).xr rs1.val).toNat) = true →
    ∃ t, exec (cboCommand k h rs1) s = .next t ∧ OnlyHart s t h.val ∧ (s.hart h.val).GoesOn (t.hart h.val) []) ∧
--w memR; 0; .inval; 0
  (∀ (s : State) (h : Fin 4) (k : CacheBlock) (rs1 : Fin 32) (x : Nat), s.Issues h.val → (s.hart h.val).cboBarred k = some x → (s.hart h.val).exceptionTo x = 3 →
    ∃ t, exec (cboCommand k h rs1) s = .next t ∧ s.TrapsM t h.val x (cboBits k rs1.val))
--w memR.modHart 0 (fun t => { t.setCsr 0x30A 0 with priv := 0 }); 0; .zero; 6; 2
--w memR.modHart 0 (fun t => { t.setCsr 0x30A 0xF0 with priv := 1, virt := true }); 0; .inval; 6; 22

/-- DEBUG_HALT, ABSTRACT_COMMAND, SYSTEM_BUS_ACCESS, NDMRESET and LOCKSTEP_COMPARE. -/
def Obligations.DebugModuleAndLockstep : Prop :=
  (∀ (s : State) (h : Fin 4), s.Debugs h.val → s.haltable h.val = true → (s.hart h.val).scout = none → (s.hart h.val).wfi = false → (s.hart h.val).lou = [] →
    ∃ t, exec (.debugHalt h .halt) s = .next t ∧ (t.hart h.val).debug = true ∧ (t.hart h.val).csrRaw 0x7B1 = (s.hart h.val).pc ∧
      Bits.get ((t.hart h.val).csrRaw 0x7B0) 6 3 = 3 ∧ Bits.get ((t.hart h.val).csrRaw 0x7B0) 0 2 = (s.hart h.val).priv % 4 ∧
      (∀ n : Fin 4096, n.val ≠ 0x7B0 → n.val ≠ 0x7B1 → (t.hart h.val).csrRaw n.val = (s.hart h.val).csrRaw n.val) ∧
      (t.hart h.val) = { (s.hart h.val) with csr := (t.hart h.val).csr, windows := [], govern := [], debug := true, stepping := false } ∧
      t.dm = { s.dm with ir := 0x11#5, hartsel := h.val, active := true } ∧ s.OnlyDebug t h.val) ∧
--w hartR 2 (fun t => { t with pc := 0x440, priv := 1, virt := true }); 2
  (∀ (s : State) (h : Fin 4), s.Debugs h.val → (s.hart h.val).debug = true →
    ∃ t, exec (.debugHalt h .resume) s = .next t ∧ (t.hart h.val).debug = false ∧ (t.hart h.val).pc = (s.hart h.val).csrRaw 0x7B1 ∧
      (t.hart h.val).priv = Bits.get ((s.hart h.val).csrRaw 0x7B0) 0 2 ∧ (t.hart h.val).stepping = (s.hart h.val).csrBit 0x7B0 2 ∧
      (t.hart h.val).virt = (Bits.get ((s.hart h.val).csrRaw 0x7B0) 0 2 != 3 && (s.hart h.val).csrBit 0x7B0 5) ∧
      (∀ n : Fin 4096, n.val ≠ 0x300 → (t.hart h.val).csrRaw n.val = (s.hart h.val).csrRaw n.val) ∧
      (t.hart h.val) = { (s.hart h.val) with pc := (t.hart h.val).pc, priv := (t.hart h.val).priv, virt := (t.hart h.val).virt, csr := (t.hart h.val).csr, debug := false, stepping := (t.hart h.val).stepping } ∧
      t.dm = { s.dm with ir := 0x11#5, hartsel := h.val, active := true, resumeAck := s.dm.resumeAck ||| 2 ^ h.val } ∧ s.OnlyDebug t h.val) ∧
--w hartR 2 (fun t => { (t.setCsr 0x7B1 0x880).setCsr 0x7B0 0x40000005 with debug := true }); 2
  (∀ (s : State) (h : Fin 4) (on : Bool), s.Debugs h.val →
    ∃ t, exec (.debugHalt h (.setResetHalt on)) s = .next t ∧ (t.hart h.val) = { (s.hart h.val) with resetHalt := on } ∧
      exec (.debugHalt h .ackHaveReset) s = .next { s with dm := { t.dm with haveReset := clearBits s.dm.haveReset (2 ^ h.val) } } ∧
      t.dm = { s.dm with ir := 0x11#5, hartsel := h.val, active := true } ∧ s.OnlyDebug t h.val) ∧
--w hartR 2 id; 2; true
  (∀ (s : State) (h : Fin 4) (compressed : Bool), s.Issues h.val → (s.hart h.val).csrBit 0x7B0 (s.hart h.val).ebreakBit = false → (s.hart h.val).exceptionTo 3 = 3 →
    ∃ t, exec (.debugHalt h (.ebreak compressed)) s = .next t ∧ s.TrapsM t h.val 3 (s.hart h.val).pc) ∧
--w hartR 2 id; 2; false
  (∀ (s : State) (h : Fin 4) (compressed : Bool), s.Issues h.val → (s.hart h.val).csrBit 0x7B0 (s.hart h.val).ebreakBit = true →
    ∃ t, exec (.debugHalt h (.ebreak compressed)) s = .next t ∧ OnlyHart s t h.val ∧ (t.hart h.val).debug = true ∧ (t.hart h.val).csrRaw 0x7B1 = (s.hart h.val).pc ∧
      Bits.get ((t.hart h.val).csrRaw 0x7B0) 6 3 = 1) ∧
--w hartR 2 (fun t => t.setCsr 0x7B0 0x40008003); 2; false
  (∀ (s : State) (h : Fin 4) (a : BitVec 7), s.TapReaches → s.debugOpen = true → (a ≠ 0x3C ∨ s.dm.sbReadOnData = false) →
    ∃ t, exec (.debugHalt h (.readDmi a)) s = .next t ∧ t.resp = ⟨false, BitVec.ofNat 64 (t.dmiReg a.toNat)⟩ ∧
      t = { s with dm := { s.dm with ir := 0x11#5, hartsel := h.val }, resp := t.resp }) ∧
--w hartR 2 id; 2; 0x11
  (∀ (s : State) (h : Fin 4) (v : Word), s.TapReaches → s.debugOpen = true → s.dm.active = true → v.toNat < 2 ^ 26 → v.toNat % 4 = 1 →
      v.toNat / 4 % 2 ^ 14 = 0 → s.visible.contains (v.toNat / 2 ^ 16 % 4) = true →
    ∃ t, exec (.debugHalt h (.writeDmi 0x10 v)) s = .next t ∧ t = { s with dm := { s.dm with ir := 0x11#5, hartsel := v.toNat / 2 ^ 16 % 4 }, resp := ⟨false, 0#64⟩ }) ∧
--w { hartR 2 id with dm := { DebugState.reset with active := true } }; 2; 0x00020001
  (∀ (s : State) (h : Fin 4) (v : Word), s.TapReaches → s.debugOpen = true → v.getLsbD 0 = false →
    ∃ t, exec (.debugHalt h (.writeDmi 0x10 v)) s = .next t ∧ t.dm.active = false ∧
      t.dm = { DebugState.reset with ir := 0x11#5, haveReset := s.dm.haveReset } ∧
      (∀ k : Fin 4, (t.hart k.val).resetHalt = false) ∧ t = { s with dm := t.dm, harts := t.harts, resp := ⟨false, 0#64⟩ }) ∧
--w hartR 2 id; 2; 0x80000000
  (∀ (s : State) (h : Fin 4), s.bankLive 0 = true →
    ∃ t, exec (.debugHalt h .dmiReset) s = .next t ∧ t = { s with dm := { s.dm with ir := 0x10#5, dmistat := 0 } }) ∧
--w { State.reset with dm := { DebugState.reset with dmistat := 2 } }; 0
  (∀ (s : State) (h : Fin 4) (r : DebugRequest), s.bankLive 0 = false → (r = .halt ∨ r = .resume ∨ r = .ackHaveReset ∨ r = .dmiReset) →
    ∃ t, exec (.debugHalt h r) s = .next t ∧ t = s) ∧
--w (hartR 2 id).setFld (bankFld 0) 0; 0; .halt
  (∀ (s : State) (h : Fin 4) (ir : BitVec 5), s.bankLive 0 = true →
    ∃ t, exec (.debugHalt h (.readTap ir)) s = .next t ∧ t = { s with dm := { s.dm with ir := ir }, resp := ⟨false, BitVec.ofNat 64 (s.tapReg ir.toNat)⟩ }) ∧
--w State.reset; 0; 0x10
  (∀ (s : State) (h : Fin 4) (command : Word) (data : DWord) (prog : List Word) (clear : Bool), s.TapReaches → s.debugOpen = false →
    ∃ t, exec (.debugHalt h .halt) s = .next t ∧ exec (.debugHalt h .resume) s = .next t ∧
      exec (.abstractCommand h command data prog clear) s = .next t ∧ exec .ndmreset s = .next t ∧
      t = { s with dm := { s.dm with ir := 0x11#5, dmistat := 2 }, resp := ⟨true, 0#64⟩ }) ∧
--w ((hartR 2 id).setFld F.SYSCFG_LIFECYCLE_STATE 1).setFld F.SYSCFG_DEBUG_EN_HART_DEBUG 0; 2; 0; 0; []; true
  (∀ (s : State) (h : Fin 4) (r : Fin 32) (data : DWord) (prog : List Word) (clear : Bool), s.Debugs h.val → (s.hart h.val).debug = true →
      (clear = true ∨ s.dm.cmderr = 0) →
    ∃ t, exec (.abstractCommand h (BitVec.ofNat 32 (0x00331000 + r.val)) data prog clear) s = .next t ∧
      (r ≠ 0 → (t.hart h.val).xr r.val = data) ∧ (∀ q : Fin 32, q ≠ r → (t.hart h.val).xr q.val = (s.hart h.val).xr q.val) ∧
      (t.hart h.val) = { (s.hart h.val) with x := (t.hart h.val).x } ∧ t.dm.cmderr = 0 ∧ t.dm.data = data ∧ s.OnlyDebug t h.val) ∧
--w hartR 2 (fun t => { t with debug := true }); 2; 31; 0x123456789ABCDEF0; []; false
  (∀ (s : State) (h : Fin 4) (r : Fin 32) (data : DWord) (prog : List Word) (clear : Bool), s.Debugs h.val → (s.hart h.val).debug = true →
      (clear = true ∨ s.dm.cmderr = 0) →
    ∃ t, exec (.abstractCommand h (BitVec.ofNat 32 (0x00321000 + r.val)) data prog clear) s = .next t ∧
      t.dm.data = (s.hart h.val).xr r.val ∧ t.dm.cmderr = 0 ∧ (t.hart h.val) = (s.hart h.val) ∧ s.OnlyDebug t h.val) ∧
--w hartR 2 (fun t => { t.setX 31 77 with debug := true }); 2; 31; 0x123456789ABCDEF0; []; false
  (∀ (s : State) (h : Fin 4) (n : Fin 4096) (data : DWord), s.Debugs h.val → (s.hart h.val).debug = true → s.dm.cmderr = 0 →
    ∃ t, exec (.abstractCommand h (BitVec.ofNat 32 (0x00320000 + n.val)) data [] false) s = .next t ∧ (t.hart h.val) = (s.hart h.val) ∧
      t.dm.data = (if csrPresent n.val then s.csrRead h.val n.val else data) ∧ t.dm.cmderr = (if csrPresent n.val then 0 else 3) ∧
      s.OnlyDebug t h.val) ∧
--w hartR 2 (fun t => { t.setCsr 0x341 0x80 with debug := true }); 2; 0x341; 0
--w hartR 2 (fun t => { t with debug := true }); 2; 0x800; 7
  (∀ (s : State) (h : Fin 4) (rd : Fin 32) (imm : BitVec 12) (data : DWord), s.Debugs h.val → (s.hart h.val).debug = true → (s.hart h.val).running = true → (s.hart h.val).fenced = false →
      (s.hart h.val).parked = false → (s.hart h.val).wfi = false → (s.hart h.val).scout = none → (s.hart h.val).lou = [] → (s.hart h.val).prog = none → (s.hart h.val).stepping = false →
      s.fld F.PWR_STATE_CUR ≤ 1 → s.dm.cmderr = 0 → s.dm.progbuf.length = 8 →
    ∃ t, exec (.abstractCommand h 0x00040000#32 data [BitVec.ofNat 32 (iType imm.toNat rd.val 0 rd.val 0x13), 0x00100073#32] false) s = .next t ∧
      (rd ≠ 0 → (t.hart h.val).xr rd.val = (s.hart h.val).xr rd.val + imm.signExtend 64) ∧ (∀ q : Fin 32, q ≠ rd → (t.hart h.val).xr q.val = (s.hart h.val).xr q.val) ∧
      (t.hart h.val).pc = (s.hart h.val).pc ∧ (t.hart h.val).priv = (s.hart h.val).priv ∧ (t.hart h.val).virt = (s.hart h.val).virt ∧ (t.hart h.val).debug = true ∧ (t.hart h.val).prog = none ∧ t.dm.cmderr = 0 ∧
      s.OnlyDebug t h.val) ∧
--w hartR 2 (fun t => { t.setX 5 8 with debug := true }); 2; 5; 0xFFF; 0
  (∀ (s : State) (h : Fin 4) (command : Word) (data : DWord) (prog : List Word), s.Debugs h.val →
      (s.hart h.val).debug = false → s.dm.cmderr = 0 → command.toNat < 2 ^ 24 → command.getLsbD 19 = false → command.getLsbD 17 = false →
    ∃ t, exec (.abstractCommand h command data prog false) s = .next t ∧ t.dm.cmderr = 4 ∧ (t.hart h.val) = (s.hart h.val) ∧ s.OnlyDebug t h.val) ∧
--w hartR 2 id; 2; 0x1005; 4; []
  (∀ (s : State) (h : Fin 4) (command : Word) (data : DWord) (prog : List Word), s.Debugs h.val → s.dm.cmderr = 0 →
      (2 ^ 24 ≤ command.toNat ∨ command.getLsbD 19 = true) →
    ∃ t, exec (.abstractCommand h command data prog false) s = .next t ∧ t.dm.cmderr = 2 ∧ (t.hart h.val) = (s.hart h.val) ∧ s.OnlyDebug t h.val) ∧
--w hartR 2 id; 2; 0x02000000; 4; []
  (∀ (s : State) (a : BitVec 40) (v : DWord) (size : Fin 8) (auto clear : Bool), s.TapReaches → s.debugOpen = true →
      (clear = true ∨ s.dm.sberror = 0) → (size = 2 ∨ size = 3) → s.inMain a.toNat 1 = true → inMram a.toNat = false →
      a.toNat % 2 ^ size.val = 0 → s.QuietMemory →
    ∃ t, exec (.systemBusAccess (some a) size (.write v) auto clear) s = .next t ∧ t.numAt a.toNat (2 ^ size.val) = v.toNat % 2 ^ (8 * 2 ^ size.val) ∧
      KeepsMemBut s t a.toNat (2 ^ size.val) ∧ t.dm.sberror = 0 ∧ t.dm.sbaddress = (if auto then a + BitVec.ofNat 40 (2 ^ size.val) else a) ∧
      KeepsRegs s t [R.DMC_CHAN_STAT] ∧
      t = { s with regs := t.regs, mem := t.mem, fresh := t.fresh, dm := t.dm, memory := { s.memory with stale := t.memory.stale, checkBlocks := t.memory.checkBlocks } }) ∧
--w State.reset; 0x01000FFC; 0x12345678; 2; false; false
--w State.reset; 0x80000FF8; 0x12345678ABCDEF01; 3; true; true
  (∀ (s : State) (a : BitVec 40) (size : Fin 8) (auto clear : Bool), s.TapReaches → s.debugOpen = true →
      (clear = true ∨ s.dm.sberror = 0) → (size = 2 ∨ size = 3) → s.inMain a.toNat 1 = true → a.toNat % 2 ^ size.val = 0 → s.QuietMemory →
    ∃ t, exec (.systemBusAccess (some a) size .read auto clear) s = .next t ∧
      t.dm.sbdata.toNat % 2 ^ (8 * 2 ^ size.val) = s.numAt a.toNat (2 ^ size.val) ∧
      t.dm.sberror = 0 ∧ t.dm.sbaddress = (if auto then a + BitVec.ofNat 40 (2 ^ size.val) else a) ∧ KeepsMem s t ∧
      KeepsRegs s t [R.DMC_CHAN_STAT] ∧
      t = { s with regs := t.regs, fresh := t.fresh, dm := t.dm, memory := { s.memory with checkBlocks := t.memory.checkBlocks } }) ∧
--w memR; 0x01000100; 3; true; false
--w memR.putMem 0x80000104 [7]; 0x80000104; 2; false; false
  (∀ (s : State) (a : BitVec 40) (size : Fin 8) (op : SbOp) (auto : Bool), s.TapReaches → s.debugOpen = true → s.dm.sberror = 0 →
      ((size ≠ 2 ∧ size ≠ 3) ∨ a.toNat % 2 ^ size.val ≠ 0) →
    ∃ t, exec (.systemBusAccess (some a) size op auto false) s = .next t ∧
      t.dm.sberror = (if size ≠ 2 ∧ size ≠ 3 then 4 else 3) ∧ t.dm.sbaddress = a ∧ t = { s with dm := t.dm }) ∧
--w State.reset; 0x01000FFC; 3; .read; true
--w State.reset; 0x01000FFC; 1; .read; true
  (∀ (s : State) (a : BitVec 40) (size : Fin 8) (op : SbOp) (auto clear : Bool), s.TapReaches → s.debugOpen = false →
      dmReaches a.toNat (2 ^ size.val) = false →
    ∃ t, exec (.systemBusAccess (some a) size op auto clear) s = .next t ∧
      t = { s with dm := { s.dm with ir := 0x11#5, dmistat := 2 }, resp := ⟨true, 0#64⟩ }) ∧
--w (State.reset.setFld F.SYSCFG_LIFECYCLE_STATE 1).setFld F.SYSCFG_DEBUG_EN_HART_DEBUG 0; 0x01000FFC; 2; .read; true; true
  (∀ (s : State), s.TapReaches → s.debugOpen = true →
    ∃ t, exec .ndmreset s = .next t ∧ ({ s with dm := { s.dm with ir := 0x11#5, active := true } } : State).ResetBegun t 8 []) ∧
--w hartR 2 id
  (∀ (s : State) (pair : Fin 2) (a : BitVec 40), s.guarded = true → s.fabricRuns = true → (s.hart (2 * pair.val)).running = true →
      (s.hart (2 * pair.val)).fenced = false → s.belay.test = none → s.flag F.BELAY_LOG_CTRL_EN = false →
      s.fld (F.BELAY_REACT_REACT (1 + pair.val)) = 0 →
    ∃ t, exec (.lockstepCompare pair a true) s = .next t ∧ t.belay.mismatch.testBit pair.val = true ∧
      (t.raw R.BELAY_PEND).getLsbD (1 + pair.val) = true ∧ t.event P.BELAY E.BELAY_SIGNALLED = true ∧
      t.fld F.BELAY_SIGNALLED_COUNT = min 65535 (s.fld F.BELAY_SIGNALLED_COUNT + 1) ∧
      KeepsPages s t [P.BELAY, P.TETHER] ∧ t = { s with regs := t.regs, belay := t.belay, tether := t.tether }) ∧
--w ((belayQuiet (hartR 2 id)).setFld (F.BELAY_REACT_REACT 2) 0).setFld F.BELAY_LOG_CTRL_EN 0; 1; 0x80001000
  (∀ (s : State) (pair : Fin 2) (a : BitVec 40), s.belay.lockstepShots.testBit pair.val = false →
    ∃ t, exec (.lockstepCompare pair a false) s = .next t ∧ t.belay.mismatch = s.belay.mismatch ∧ t = { s with belay := t.belay } ∧
      t.belay = { s.belay with lockstepShots := t.belay.lockstepShots }) ∧
--w hartR 2 id; 1; 0x80001000
  (∀ (s : State) (pair : Fin 2) (a : BitVec 40) (differ : Bool), s.guarded = false →
    ∃ t, exec (.lockstepCompare pair a differ) s = .next t ∧ t = s)
--w free0; 1; 0x80001000; true

/-- CLEAN_ALL, FLUSH_WAYS, MAINT_DONE, SNOOP, BACK_INVALIDATION, DEMAND_ECC_ERROR, L3_SCRUB and SRAM_SCRUB (R255 to R258, R279, R288). -/
def Obligations.CachesAreMaintainedSnoopedAndChecked : Prop :=
  (∀ (s : State) (q : Req) (part : Fin 8), OpenTo s q P.L3 → s.flag F.L3_MAINT_BUSY = false →
    ∃ t, exec (.cleanAll q part) s = .next t ∧ t.flag F.L3_MAINT_BUSY = true ∧ t.memory.maint = some (1, s.partMask part.val) ∧
      KeepsRegs s t ([R.L3_MAINT] ++ logRegs P.L3) ∧
      t = { s with regs := t.regs, resp := ⟨false, 0#64⟩, memory := { s.memory with maint := t.memory.maint } }) ∧
--w State.reset; ⟨0, true⟩; 7
  (∀ (s : State) (q : Req) (part : Fin 8), OpenTo s q P.L3 → s.flag F.L3_MAINT_BUSY = false →
    ∃ t, exec (.flushWays q part) s = .next t ∧ t.flag F.L3_MAINT_BUSY = true ∧ t.memory.maint = some (2, s.partMask part.val) ∧
      KeepsRegs s t ([R.L3_MAINT] ++ logRegs P.L3) ∧
      t = { s with regs := t.regs, resp := ⟨false, 0#64⟩, memory := { s.memory with maint := t.memory.maint } }) ∧
--w State.reset; ⟨0, true⟩; 7
  (∀ (s : State) (q : Req) (part : Fin 8) (op ways : Nat), OpenTo s q P.L3 → s.flag F.L3_MAINT_BUSY = true → s.memory.maint = some (op, ways) →
    ∃ t, exec (.flushWays q part) s = .next t ∧ ∃ u, exec (.cleanAll q part) s = .next u ∧
      s.Refused t q R.L3_MAINT 1 op ∧ KeepsRegs s t (logRegs P.L3) ∧ t = { s with regs := t.regs, resp := ⟨false, 0#64⟩ } ∧
      s.Refused u q R.L3_MAINT 1 op ∧ KeepsRegs s u (logRegs P.L3) ∧ u = { s with regs := u.regs, resp := ⟨false, 0#64⟩ }) ∧
--w (maintS 2 []).setFld F.L3_MAINT_BUSY 1; ⟨0, true⟩; 7; 2; 15
  (∀ (s : State) (l way ways : Nat), s.fabricRuns = true → s.memory.maint = some (1, ways) → s.inDram l = true → s.SoundMemory →
      s.memory.lines = [⟨.l3, l, .m, true, way⟩] →
    ∃ t, exec .maintDone s = .next t ∧ t.flag F.L3_MAINT_BUSY = false ∧ t.event P.L3 E.L3_MAINT_DONE = true ∧
      t.memory = { s.memory with maint := none, lines := [⟨.l3, l, .m, false, way⟩], stale := (s.dropStale l).memory.stale, checkBlocks := t.memory.checkBlocks } ∧
      KeepsRegs s t [R.L3_MAINT, R.EVT_RAW P.L3, R.DMC_CHAN_STAT] ∧ t = { s with regs := t.regs, memory := t.memory, fresh := t.fresh }) ∧
--w maintS 1 [⟨.l3, 0x80000040, .m, true, 3⟩]; 0x80000040; 3; 15
  (∀ (s : State) (l way ways : Nat), s.fabricRuns = true → s.memory.maint = some (2, ways) → s.memory.lines = [⟨.l3, l, .e, false, way⟩] → s.SoundMemory →
    ∃ t, exec .maintDone s = .next t ∧ t.flag F.L3_MAINT_BUSY = false ∧ t.event P.L3 E.L3_MAINT_DONE = true ∧
      t.memory = { s.memory with maint := none, lines := if ways.testBit way then [] else s.memory.lines } ∧
      KeepsRegs s t [R.L3_MAINT, R.EVT_RAW P.L3] ∧ t = { s with regs := t.regs, memory := t.memory }) ∧
--w maintS 2 [⟨.l3, 0x80000040, .e, false, 3⟩]; 0x80000040; 3; 15
--w maintS 2 [⟨.l3, 0x80000040, .e, false, 4⟩]; 0x80000040; 4; 15
  (∀ (s : State) (l way ways : Nat), s.fabricRuns = true → s.memory.maint = some (2, ways) → ways.testBit way = true → s.inDram l = true → s.SoundMemory →
      s.memory.lines = [⟨.l3, l, .m, true, way⟩] →
    ∃ t, exec .maintDone s = .next t ∧ t.flag F.L3_MAINT_BUSY = false ∧ t.event P.L3 E.L3_MAINT_DONE = true ∧
      t.memory = { s.memory with maint := none, lines := [], stale := (s.dropStale l).memory.stale, checkBlocks := t.memory.checkBlocks } ∧
      KeepsRegs s t [R.L3_MAINT, R.EVT_RAW P.L3, R.DMC_CHAN_STAT] ∧ t = { s with regs := t.regs, memory := t.memory, fresh := t.fresh }) ∧
--w maintS 2 [⟨.l3, 0x80000040, .m, true, 3⟩]; 0x80000040; 3; 15
  (∀ (s : State), s.memory.maint = none →
    ∃ t, exec .maintDone s = .next t ∧ t = s) ∧
--w State.reset
  (∀ (s : State) (h : Fin 4) (line : BitVec 34) (way : Nat), s.visible.contains h.val = true → s.inDram (line.toNat * 64) = true → s.SoundMemory →
      s.memory.lines = [⟨.l2 h.val, line.toNat * 64, .m, true, way⟩] →
    ∃ t, exec (.snoop 0 line none) s = .next t ∧ t.memory.lines = [⟨.l2 h.val, line.toNat * 64, .s, false, way⟩] ∧
      t.memory.stale = (s.dropStale (line.toNat * 64)).memory.stale ∧ s.OnlyCaches t) ∧
--w maintS 1 [⟨.l2 2, 0x80000040, .m, true, 3⟩]; 2; 0x2000001; 3
  (∀ (s : State) (h : Fin 4) (line : BitVec 34) (way : Nat), s.visible.contains h.val = true → s.inDram (line.toNat * 64) = true → s.SoundMemory →
      s.memory.lines = [⟨.l2 h.val, line.toNat * 64, .m, true, way⟩] →
    ∃ t, exec (.snoop 1 line none) s = .next t ∧ ∃ u, exec (.backInvalidation line) s = .next u ∧
      t.memory.lines = [] ∧ t.memory.stale = (s.dropStale (line.toNat * 64)).memory.stale ∧ s.OnlyCaches t ∧
      u.memory.lines = [] ∧ u.memory.stale = (s.dropStale (line.toNat * 64)).memory.stale ∧ s.OnlyCaches u) ∧
--w maintS 1 [⟨.l2 2, 0x80000040, .m, true, 3⟩]; 2; 0x2000001; 3
  (∀ (s : State) (h : Fin 4) (line : BitVec 34) (way : Nat), s.visible.contains h.val = true → s.SoundMemory →
      s.memory.lines = [⟨.l2 h.val, line.toNat * 64, .e, false, way⟩] →
    ∃ t, exec (.snoop 0 line none) s = .next t ∧ ∃ u, exec (.snoop 1 line none) s = .next u ∧
      t.memory = { s.memory with lines := [⟨.l2 h.val, line.toNat * 64, .s, false, way⟩] } ∧ s.OnlyCaches t ∧ t.regs = s.regs ∧
      u.memory = { s.memory with lines := [] } ∧ s.OnlyCaches u ∧ u.regs = s.regs) ∧
--w maintS 1 [⟨.l2 2, 0x80000040, .e, false, 3⟩]; 2; 0x2000001; 3
  (∀ (s : State) (h : Fin 4) (line : BitVec 34) (way : Nat), s.visible.contains h.val = true → s.SoundMemory →
      s.memory.lines = [⟨.l3, line.toNat * 64, .m, true, 0⟩, ⟨.l2 h.val, line.toNat * 64, .m, true, way⟩] →
    ∃ t, exec (.snoop 0 line none) s = .next t ∧ ∃ u, exec (.snoop 1 line none) s = .next u ∧
      t.memory = { s.memory with lines := [⟨.l3, line.toNat * 64, .m, true, 0⟩, ⟨.l2 h.val, line.toNat * 64, .s, false, way⟩] } ∧ s.OnlyCaches t ∧ t.regs = s.regs ∧
      u.memory = { s.memory with lines := [⟨.l3, line.toNat * 64, .m, true, 0⟩] } ∧ s.OnlyCaches u ∧ u.regs = s.regs) ∧
--w maintS 1 [⟨.l3, 0x80000040, .m, true, 0⟩, ⟨.l2 2, 0x80000040, .m, true, 3⟩]; 2; 0x2000001; 3
  (∀ (s : State) (k : Fin 3) (h : Fin 4) (line : BitVec 34) (x : CacheLine), s.memory.lines = [x] → x.cache = .l2 h.val ∨ x.line ≠ line.toNat * 64 →
    ∃ t, exec (.snoop k line (some h)) s = .next t ∧ t = s) ∧
--w maintS 1 [⟨.l2 2, 0x80000040, .m, true, 3⟩]; 1; 2; 0x2000001; ⟨.l2 2, 0x80000040, .m, true, 3⟩
--w maintS 1 [⟨.l2 2, 0x80000080, .m, true, 3⟩]; 0; 1; 0x2000001; ⟨.l2 2, 0x80000080, .m, true, 3⟩
  (∀ (s : State) (a : BitVec 40) (b : Fin 72), inBaseCamp a.toNat = true → s.SoundMemory → s.flag F.BELAY_CFG_LOG_CE = false →
    ∃ t, exec (.demandEccError 9 0 a false (.one b)) s = .next t ∧ s.Corrected t F.BELAY_BC_ECC_CE ∧
      KeepsRegs s t [R.BELAY_BC_ECC, R.EVT_RAW P.BELAY] ∧ t = { s with regs := t.regs }) ∧
--w State.reset; 0x010FFFFF; 71
  (∀ (s : State) (a : BitVec 40) (b : Fin 72), inMram a.toNat = true → s.SoundMemory → s.flag F.BELAY_CFG_LOG_CE = false →
    ∃ t, exec (.demandEccError 8 0 a false (.one b)) s = .next t ∧ s.Corrected t F.MRAMC_ECC_CE_COUNT ∧ t.event P.MRAMC E.MRAMC_CE = true ∧
      KeepsRegs s t [R.MRAMC_ECC_CE, R.EVT_RAW P.MRAMC, R.EVT_RAW P.BELAY] ∧ t = { s with regs := t.regs }) ∧
--w State.reset; 0x087FFFFF; 0
  (∀ (s : State) (a : BitVec 40) (b : Fin 72), s.inDram a.toNat = true → s.SoundMemory → s.flag F.BELAY_CFG_LOG_CE = false →
    ∃ t, exec (.demandEccError 7 0 a false (.one b)) s = .next t ∧ s.Corrected t F.DMC_ECC_CE_COUNT ∧ t.event P.DMC E.DMC_CE = true ∧
      t.fld F.DMC_ECC_SYN_SYNDROME = b.val ∧ t.fld F.DMC_ECC_SYN_CHANNEL = dmcChannel (a.toNat / 8 * 8) ∧ t.fld F.DMC_ECC_SYN_WORD = a.toNat / 8 % 8 ∧
      KeepsRegs s t [R.DMC_ECC_CE, R.DMC_ECC_SYN, R.EVT_RAW P.DMC, R.EVT_RAW P.BELAY] ∧ t = { s with regs := t.regs }) ∧
--w State.reset; 0x80000308; 71
  (∀ (s : State) (a : BitVec 40) (b c : Fin 72), inBaseCamp a.toNat = true → b ≠ c → s.SoundMemory →
      s.belay.test = none → s.flag F.BELAY_LOG_CTRL_EN = false → s.fld (F.BELAY_REACT_REACT 10) = 0 →
    ∃ t, exec (.demandEccError 9 0 a false (.two b c)) s = .next t ∧ t.memory = { s.memory with poison := [a.toNat / 8 * 8] } ∧
      t.fld F.BELAY_BC_ECC_UE = min (2 ^ F.BELAY_BC_ECC_UE.width - 1) (s.fld F.BELAY_BC_ECC_UE + 1) ∧ (t.raw R.BELAY_PEND).getLsbD 10 = true ∧
      t.event P.BELAY E.BELAY_SIGNALLED = true ∧ t.mem = s.mem ∧ KeepsPages s t [P.BELAY, P.TETHER]) ∧
--w (belayQuiet State.reset).setFld (F.BELAY_REACT_REACT 10) 0; 0x010FFFFF; 71; 0
  (∀ (s : State) (a : BitVec 40) (b c : Fin 72), s.inDram a.toNat = true → b ≠ c → s.SoundMemory →
      s.belay.test = none → s.flag F.BELAY_LOG_CTRL_EN = false → s.fld (F.BELAY_REACT_REACT 8) = 0 → s.flag F.DMC_ECC_ADDR_VALID = false →
    ∃ t, exec (.demandEccError 7 0 a false (.two b c)) s = .next t ∧ t.memory = { s.memory with poison := wordsOf (lineOf a.toNat) 64 } ∧
      t.fld F.DMC_ECC_UE_COUNT = min (2 ^ F.DMC_ECC_UE_COUNT.width - 1) (s.fld F.DMC_ECC_UE_COUNT + 1) ∧ t.event P.DMC E.DMC_UE = true ∧
      t.flag F.DMC_ECC_ADDR_VALID = true ∧ t.fld F.DMC_ECC_ADDR_SOURCE = 0 ∧ (t.raw R.BELAY_PEND).getLsbD 8 = true ∧
      t.event P.BELAY E.BELAY_SIGNALLED = true ∧ t.mem = s.mem ∧ KeepsPages s t [P.BELAY, P.TETHER, P.DMC]) ∧
--w (belayQuiet State.reset).setFld (F.BELAY_REACT_REACT 8) 0; 0x80000308; 71; 0
  (∀ (s : State) (h : Fin 4) (a : BitVec 40) (way : Nat) (b : Fin 72), s.visible.contains h.val = true → s.memory.lines = [⟨.l1i h.val, lineOf a.toNat, .s, false, way⟩] → s.SoundMemory →
    ∃ t, exec (.demandEccError 0 h a false (.one b)) s = .next t ∧ t = { s with memory := { s.memory with lines := [] } }) ∧
--w maintS 1 [⟨.l1i 2, 0x80000040, .s, false, 3⟩]; 2; 0x80000045; 3; 31
  (∀ (s : State) (pair : Fin 2) (a : BitVec 40) (way : Nat) (b : Fin 72), s.guarded = true → s.memory.lines = [⟨.l1i (2 * pair.val), lineOf a.toNat, .s, false, way⟩] → s.SoundMemory →
    ∃ t, exec (.demandEccError 0 ⟨2 * pair.val + 1, by omega⟩ a false (.one b)) s = .next t ∧ t = { s with memory := { s.memory with lines := [] } }) ∧
--w (maintS 1 [⟨.l1i 2, 0x80000040, .s, false, 3⟩]).setFlag F.SYSCFG_MODE_GUARDED true; 1; 0x80000045; 3; 31
  (∀ (s : State) (k : Fin 11) (h : Fin 4) (a : BitVec 40) (up : EccUpset), k.val ≤ 3 → s.QuietMemory →
    ∃ t, exec (.demandEccError k h a false up) s = .next t ∧ t = s) ∧
--w State.reset; 2; 3; 0x80000045; .three 3 4 5
  (∀ (s : State) (slice : Fin 2) (hit : Fin 4) (word : Fin 8) (up : EccUpset), s.flag F.L3_CFG_SCRUB_EN = true → s.fabricRuns = true →
      s.memory.lines = [] → s.memory.l3Scrub + 1 < 16384 →
    ∃ t, exec (.l3Scrub slice hit word up) s = .next t ∧ t = { s with memory := { s.memory with l3Scrub := s.memory.l3Scrub + 1 } }) ∧
--w State.reset; 1; 3; 7; .one 3
  (∀ (s : State) (slice : Fin 2) (hit : Fin 4) (word : Fin 8) (up : EccUpset), s.flag F.L3_CFG_SCRUB_EN = true → s.fabricRuns = true →
      s.memory.lines = [] → s.memory.l3Scrub = 16383 →
    ∃ t, exec (.l3Scrub slice hit word up) s = .next t ∧
      t.fld F.BELAY_SCRUB_STAT_L3_PASS_US = (16384 * s.fld F.L3_SCRUB_INTERVAL / 1000) % 2 ^ F.BELAY_SCRUB_STAT_L3_PASS_US.width ∧
      KeepsRegs s t [F.BELAY_SCRUB_STAT_L3_PASS_US.reg] ∧ t = { s with regs := t.regs, memory := { s.memory with l3Scrub := 0 } }) ∧
--w { State.reset with memory := { MemState.reset with l3Scrub := 16383 } }; 1; 3; 7; .one 3
  (∀ (s : State) (slice : Fin 2) (l way : Nat) (word : Fin 8) (b : Fin 72), s.flag F.L3_CFG_SCRUB_EN = true → s.fabricRuns = true → s.SoundMemory →
      s.memory.lines = [⟨.l3, l, .e, false, way⟩] → way < 16 → l % 64 = 0 → l / 64 % 2 = slice.val → s.memory.l3Scrub = 16 * (l / 64 % 2048 / 2) + way →
      s.memory.l3Scrub + 1 < 16384 → s.flag F.BELAY_CFG_LOG_CE = false →
    ∃ t, exec (.l3Scrub slice 0 word (.one b)) s = .next t ∧ s.Corrected t F.L3_ECC_CE_COUNT ∧ t.event P.L3 E.L3_CE = true ∧
      KeepsRegs s t [R.L3_ECC_CE, R.EVT_RAW P.L3, R.EVT_RAW P.BELAY] ∧
      t = { s with regs := t.regs, memory := { s.memory with l3Scrub := s.memory.l3Scrub + 1 } }) ∧
--w { State.reset with memory := { MemState.reset with lines := [⟨.l3, 0x80000040, .e, false, 5⟩], l3Scrub := 5 } }; 1; 0x80000040; 5; 7; 3
  (∀ (s : State) (slice : Fin 2) (hit : Fin 4) (word : Fin 8) (up : EccUpset), s.flag F.L3_CFG_SCRUB_EN = false ∨ s.fabricRuns = false →
    ∃ t, exec (.l3Scrub slice hit word up) s = .next t ∧ t = s) ∧
--w State.reset.setFld F.L3_CFG_SCRUB_EN 0; 1; 0; 7; .one 3
  (∀ (s : State) (word : Fin 8) (b : Fin 72), s.fabricRuns = true → s.memory.lines = [] → s.SoundMemory →
      s.memory.sramScrub + 1 < 16384 → s.flag F.BELAY_CFG_LOG_CE = false →
    ∃ t, exec (.sramScrub .baseCamp word (.one b)) s = .next t ∧ s.Corrected t F.BELAY_BC_ECC_CE ∧
      KeepsRegs s t [R.BELAY_BC_ECC, R.EVT_RAW P.BELAY] ∧
      t = { s with regs := t.regs, memory := { s.memory with sramScrub := s.memory.sramScrub + 1 } }) ∧
--w State.reset; 7; 70
  (∀ (s : State) (hit : SramArray) (word : Fin 8) (up : EccUpset), s.fabricRuns = false →
    ∃ t, exec (.sramScrub hit word up) s = .next t ∧ t = s)
--w { State.reset with power := { PowerState.reset with phase := .reset } }; .baseCamp; 7; .one 70

/-- DMC_SCRUB, DMC_TEMP_READING, REFRESH, DRAM_REQUEST, MRAM_WRITE and MRAM_WRITE_DONE (R265, R267, R268, R270 to R272, R275, R277, R283). -/
def Obligations.MemoryControllersScrubRefreshAndQueue : Prop :=
  (∀ (s : State) (channel : Fin 2) (word : Fin 8), s.flag F.DMC_CTRL_SCRUB_EN = true → s.flag F.DMC_SELFREF_IN_SR = false →
      s.fabricRuns = true → s.SoundMemory → s.memory.dmc = [] → s.memory.dmcScrub.1 + 1 < s.channelLines →
    ∃ t, exec (.dmcScrub channel word .none) s = .next t ∧
      t.memory = { s.memory with dmcScrub := (s.memory.dmcScrub.1 + 1, s.memory.dmcScrub.1 + 1), checkBlocks := t.memory.checkBlocks, openRows := t.memory.openRows } ∧
      t.fld F.DMC_SCRUB_POS_LINE = (s.memory.dmcScrub.1 + 1) % 2 ^ F.DMC_SCRUB_POS_LINE.width ∧
      KeepsRegs s t [R.DMC_SCRUB_POS, R.DMC_QUEUE_STAT, R.DMC_CHAN_STAT] ∧ t = { s with regs := t.regs, memory := t.memory, fresh := t.fresh }) ∧
--w State.reset; 1; 3
  (∀ (s : State) (channel : Fin 2) (word : Fin 8), s.flag F.DMC_CTRL_SCRUB_EN = true → s.flag F.DMC_SELFREF_IN_SR = false →
      s.fabricRuns = true → s.SoundMemory → s.memory.dmc = [] → s.memory.dmcScrub.1 + 1 = s.channelLines →
    ∃ t, exec (.dmcScrub channel word .none) s = .next t ∧ t.memory = { s.memory with dmcScrub := (0, 0), checkBlocks := t.memory.checkBlocks, openRows := t.memory.openRows } ∧
      t.fld F.DMC_SCRUB_POS_LINE = 0 ∧ t.flag F.DMC_SCRUB_POS_WRAPPED = true ∧
      t.event P.DMC E.DMC_SCRUB_PASS = true ∧ KeepsRegs s t [R.DMC_SCRUB_POS, R.DMC_QUEUE_STAT, R.EVT_RAW P.DMC, R.DMC_CHAN_STAT] ∧
      t = { s with regs := t.regs, memory := t.memory, fresh := t.fresh }) ∧
--w { State.reset with memory := { MemState.reset with dmcScrub := (State.reset.channelLines - 1, 0) } }; 1; 3
  (∀ (s : State) (channel : Fin 2) (word : Fin 8) (b : Fin 72), s.flag F.DMC_CTRL_SCRUB_EN = true → s.flag F.DMC_SELFREF_IN_SR = false →
      s.fabricRuns = true → s.SoundMemory → s.memory.dmc = [] → s.memory.dmcScrub.1 + 1 < s.channelLines → s.flag F.BELAY_CFG_LOG_CE = false →
    ∃ t, exec (.dmcScrub channel word (.one b)) s = .next t ∧ s.Corrected t F.DMC_ECC_CE_COUNT ∧ t.event P.DMC E.DMC_CE = true ∧
      t.fld F.DMC_ECC_SYN_SYNDROME = b.val ∧ t.fld F.DMC_ECC_SYN_CHANNEL = channel.val ∧ t.fld F.DMC_ECC_SYN_WORD = word.val ∧
      t.memory = { s.memory with dmcScrub := (s.memory.dmcScrub.1 + 1, s.memory.dmcScrub.1 + 1), checkBlocks := t.memory.checkBlocks, openRows := t.memory.openRows } ∧
      KeepsRegs s t [R.DMC_SCRUB_POS, R.DMC_QUEUE_STAT, R.DMC_CHAN_STAT, R.DMC_ECC_CE, R.DMC_ECC_SYN, R.EVT_RAW P.DMC, R.EVT_RAW P.BELAY] ∧
      t = { s with regs := t.regs, memory := t.memory, fresh := t.fresh }) ∧
--w State.reset; 1; 3; 71
  (∀ (s : State) (channel : Fin 2) (word : Fin 8) (up : EccUpset) (r : DmcRequest), s.flag F.DMC_CTRL_SCRUB_EN = true → s.flag F.DMC_SELFREF_IN_SR = false →
      s.fabricRuns = true → s.memory.dmc = [r, { r with channel := 1 - r.channel }] → r.channel ≤ 1 → r.scrub = none →
    ∃ t, exec (.dmcScrub channel word up) s = .next t ∧ (t.memory.dmc.drop 2).map (fun x => (x.channel, x.queue, x.addr)) =
        [0, 1].map (fun c => (c, 2, dmcAddr c (64 * s.memory.dmcScrub.1))) ∧
      t.memory = { s.memory with dmcScrub := t.memory.dmcScrub, dmc := t.memory.dmc } ∧
      KeepsRegs s t [R.DMC_SCRUB_POS, R.DMC_QUEUE_STAT, R.EVT_RAW P.DMC] ∧ t = { s with regs := t.regs, memory := t.memory }) ∧
--w { State.reset with memory := { MemState.reset with dmc := [⟨1, 0x80000100, 2, 8, [], none⟩, ⟨0, 0x80000100, 2, 8, [], none⟩] } }; 1; 3; .one 71; ⟨1, 0x80000100, 2, 8, [], none⟩
  (∀ (s : State) (channel : Fin 2) (word : Fin 8) (up : EccUpset), s.memory.dmc.any (fun r => r.scrub.isSome) = true →
    ∃ t, exec (.dmcScrub channel word up) s = .next t ∧ t = s) ∧
--w { State.reset with memory := { MemState.reset with dmc := [⟨1, 0x80000100, 2, 64, [], some (3, [])⟩] } }; 1; 3; .one 71
  (∀ (s : State) (channel : Fin 2) (word : Fin 8) (up : EccUpset),
      s.flag F.DMC_CTRL_SCRUB_EN = false ∨ s.flag F.DMC_SELFREF_IN_SR = true ∨ s.fabricRuns = false →
    ∃ t, exec (.dmcScrub channel word up) s = .next t ∧ t = s) ∧
--w State.reset.setFld F.DMC_CTRL_SCRUB_EN 0; 1; 3; .one 3
  (∀ (s : State) (a b : Byte),
    ∃ t, exec (.dmcTempReading a b) s = .next t ∧ t.fld F.DMC_TEMP_DIE_A = a.toNat ∧ t.fld F.DMC_TEMP_DIE_B = b.toNat ∧
      (t.memory.tempRate, t.memory.coolReadings) = nextRate s.memory.tempRate s.memory.coolReadings (max a.toInt b.toInt) ∧
      t.memory = { s.memory with tempRate := t.memory.tempRate, coolReadings := t.memory.coolReadings } ∧
      (105 < max a.toInt b.toInt → s.memory.tempRate ≤ 2 → t.memory.tempRate = 2) ∧
      (t.dmcRate ≠ s.dmcRate → t.event P.DMC E.DMC_RATE_CHANGE = true) ∧ (t.dmcHot = true → s.dmcHot = false → t.event P.DMC E.DMC_HOT = true) ∧
      KeepsRegs s t [R.DMC_TEMP, R.EVT_RAW P.DMC] ∧ t = { s with regs := t.regs, memory := t.memory }) ∧
--w State.reset; 106; 0x80
--w State.reset; 20; 0x80
  (∀ (s : State) (channel : Fin 2), s.flag F.DMC_SELFREF_IN_SR = false → s.power.phase = .run →
    ∃ t, exec (.refresh channel) s = .next t ∧
      t.memory.refreshBank = (if channel = 0 then ((s.memory.refreshBank.1 + 1) % 8, s.memory.refreshBank.2) else (s.memory.refreshBank.1, (s.memory.refreshBank.2 + 1) % 8)) ∧
      t.memory.openRows = s.memory.openRows.filter (fun r => ! decide (r.channel = channel.val ∧ r.bank = (if channel = 0 then s.memory.refreshBank.1 else s.memory.refreshBank.2))) ∧
      t = { s with memory := { s.memory with refreshes := s.memory.refreshes + 1, refreshBank := t.memory.refreshBank, openRows := t.memory.openRows } }) ∧
--w State.reset; 0
--w State.reset; 1
  (∀ (s : State) (channel : Fin 2), s.flag F.DMC_SELFREF_IN_SR = true ∨ s.power.phase ≠ .run →
    ∃ t, exec (.refresh channel) s = .next t ∧ t = s) ∧
--w State.reset.setFld F.DMC_SELFREF_IN_SR 1; 1
  (∀ (s : State) (a : BitVec 40) (len : Fin 65) (guar : Bool) (prio : Fin 4), s.fabricRuns = true → s.inDram a.toNat = true → len ≠ 0 →
      a.toNat % 64 + len.val ≤ 64 → s.memory.dmc = [] →
    ∃ t, exec (.dramRequest (.accept a none len guar prio)) s = .next t ∧
      t.memory = { s.memory with dmc := [⟨dmcChannel a.toNat, a.toNat, (if guar then 0 else if 2 ≤ prio.val then 1 else 2), len.val, [], none⟩] } ∧
      t.fld F.DMC_QUEUE_STAT_OCC_A + t.fld F.DMC_QUEUE_STAT_OCC_B = 1 ∧
      t.fld F.DMC_QUEUE_STAT_GUAR_A + t.fld F.DMC_QUEUE_STAT_GUAR_B = b2n guar ∧
      KeepsRegs s t [R.DMC_QUEUE_STAT] ∧ t = { s with regs := t.regs, memory := t.memory }) ∧
--w State.reset; 0x800001F8; 8; true; 0
  (∀ (s : State) (r : DmcRequest), s.fabricRuns = true → s.memory.dmc = [r] → r.channel = 1 → r.queue ≤ 2 → r.data = [] → r.len = 8 → r.scrub = none → s.StoredRight →
      s.staleOf r.addr = [] → r.addr % 64 = 0 →
    ∃ t, exec (.dramRequest (.serve 1)) s = .next t ∧ t.resp = ⟨false, BitVec.ofNat 64 (s.numAt r.addr 8)⟩ ∧
      rowOf r.addr ∈ t.memory.openRows ∧
      t.memory = { s.memory with dmc := [], openRows := t.memory.openRows, checkBlocks := t.memory.checkBlocks } ∧ t.fld F.DMC_QUEUE_STAT_OCC_B = 0 ∧
      KeepsRegs s t [R.DMC_QUEUE_STAT, R.DMC_CHAN_STAT] ∧ t = { s with regs := t.regs, memory := t.memory, resp := t.resp, fresh := t.fresh }) ∧
--w { memR with memory := { MemState.reset with dmc := [⟨1, 0x80000100, 2, 8, [], none⟩] } }; ⟨1, 0x80000100, 2, 8, [], none⟩
  (∀ (s : State) (r : DmcRequest), s.fabricRuns = true → s.memory.dmc = [r] → r.channel = 0 → r.queue ≤ 2 → r.data.length = 8 → r.scrub = none → s.inDram r.addr = true → r.addr % 8 = 0 → s.StoredRight →
    ∃ t, exec (.dramRequest (.serve 0)) s = .next t ∧ t.resp = ⟨false, 0#64⟩ ∧ t.bytesAt r.addr 8 = r.data ∧ KeepsMemBut s t r.addr 8 ∧
      t.memory = { s.memory with dmc := [], openRows := t.memory.openRows, checkBlocks := t.memory.checkBlocks, stale := t.memory.stale } ∧
      KeepsRegs s t [R.DMC_QUEUE_STAT, R.DMC_CHAN_STAT] ∧ t = { s with regs := t.regs, mem := t.mem, memory := t.memory, resp := t.resp, fresh := t.fresh }) ∧
--w { memR with memory := { MemState.reset with dmc := [⟨0, 0x80000208, 1, 0, leBytes 8 0x0102030405060708, none⟩] } }; ⟨0, 0x80000208, 1, 0, leBytes 8 0x0102030405060708, none⟩
  (∀ (s : State) (r : DmcRequest) (ns : Nat), s.fabricRuns = true → s.memory.dmc = [r] → r.channel = 1 → r.queue = 2 →
    ∃ t, exec (.dramRequest (.age 1 0 ns)) s = .next t ∧
      (ns ≤ s.fld F.DMC_QOS_NORMAL_AGE → t = s) ∧
      (s.fld F.DMC_QOS_NORMAL_AGE < ns → t.memory = { s.memory with dmc := [{ r with queue := 1 }] } ∧ KeepsRegs s t [R.DMC_QUEUE_STAT] ∧
        t = { s with regs := t.regs, memory := t.memory })) ∧
--w { State.reset with memory := { MemState.reset with dmc := [⟨1, 0x80000100, 2, 8, [], none⟩] } }; ⟨1, 0x80000100, 2, 8, [], none⟩; 100000
--w { State.reset with memory := { MemState.reset with dmc := [⟨1, 0x80000100, 2, 8, [], none⟩] } }; ⟨1, 0x80000100, 2, 8, [], none⟩; 0
  (∀ (s : State) (channel : Fin 2) (bank : Fin 8) (ns : Nat), s.fabricRuns = true →
    ∃ t, exec (.dramRequest (.idle channel bank ns)) s = .next t ∧
      t = { s with memory := { s.memory with openRows := (if s.fld F.DMC_CTRL_PAGE_IDLE * 8 ≤ ns then s.memory.openRows.filter (fun r => ! decide (r.channel = channel.val ∧ r.bank = bank.val)) else s.memory.openRows) } }) ∧
--w { State.reset with memory := { MemState.reset with openRows := [⟨1, 5, 77⟩] } }; 1; 5; 100000
--w { State.reset with memory := { MemState.reset with openRows := [⟨1, 5, 77⟩] } }; 1; 5; 0
  (∀ (s : State) (word : BitVec 20) (mask : Byte) (data : DWord), s.fabricRuns = true → s.mramRefuses (0x08000000 + 8 * word.toNat) 8 = false →
      s.SoundMemory → s.memory.mram = [] →
    ∃ t, exec (.mramWrite word mask data) s = .next t ∧
      (∀ i : Fin 8, t.byteAt (0x08000000 + 8 * word.toNat + i.val) = if mask.getLsbD i.val then BitVec.ofNat 8 (data.toNat / 2 ^ (8 * i.val))
        else s.byteAt (0x08000000 + 8 * word.toNat + i.val)) ∧
      t.memory.mram = [⟨0x08000000 + 8 * word.toNat, BitVec.ofNat 64 (s.numAt (0x08000000 + 8 * word.toNat) 8), BitVec.ofNat 64 (t.numAt (0x08000000 + 8 * word.toNat) 8)⟩] ∧
      t.resp = ⟨false, 0#64⟩ ∧ KeepsMemBut s t (0x08000000 + 8 * word.toNat) 8 ∧ KeepsRegs s t [R.PWR_SNAP_CTRL] ∧
      t = { s with regs := t.regs, mem := t.mem, memory := { s.memory with mram := t.memory.mram, stale := t.memory.stale }, resp := t.resp }) ∧
--w State.reset; 0xFFFFF; 0x81; 0x1122334455667788
  (∀ (s : State) (word : BitVec 20) (mask : Byte) (data : DWord), s.fabricRuns = true → s.power.mramClosed = true →
    ∃ t, exec (.mramWrite word mask data) s = .next t ∧ t = { s with resp := ⟨true, 0#64⟩ }) ∧
--w { State.reset with power := { PowerState.reset with mramClosed := true } }; 0xFFFFF; 0x81; 0x1122334455667788
  (∀ (s : State) (word : BitVec 20) (mask : Byte) (data : DWord), s.fabricRuns = true → s.power.mramClosed = false → s.writeProtected (0x08000000 + 8 * word.toNat) = true →
    ∃ t, exec (.mramWrite word mask data) s = .next t ∧ t.event P.MRAMC E.MRAMC_WP_VIOLATION = true ∧ t.resp = ⟨true, 0#64⟩ ∧
      KeepsRegs s t [R.EVT_RAW P.MRAMC] ∧ t = { s with regs := t.regs, resp := t.resp }) ∧
--w ((State.reset.setFld F.MRAMC_CFG_WP_EN 1).setFld F.MRAMC_WP_BASE_BASE 0).setFld F.MRAMC_WP_LIMIT_LIMIT 2048; 0xFFFFF; 0x81; 0x1122334455667788
  (∀ (s : State) (e : MramWrite) (bank : Fin 2), s.memory.mram = [e] → mramBank e.addr = bank.val → s.flag F.MRAMC_QUEUE_DRAINING = true →
    ∃ t, exec (.mramWriteDone bank) s = .next t ∧ t.memory = { s.memory with mram := [], mramAhead := s.memory.mramAhead - 1 } ∧
      (s.memory.mramAhead ≤ 1 → t.flag F.MRAMC_QUEUE_DRAINING = false ∧ t.event P.MRAMC E.MRAMC_DRAINED = true) ∧
      t.power = { s.power with snapWait := s.power.snapWait - 1 } ∧
      KeepsRegs s t [R.MRAMC_QUEUE, R.EVT_RAW P.MRAMC] ∧ t = { s with regs := t.regs, memory := t.memory, power := t.power }) ∧
--w { State.reset.setFld F.MRAMC_QUEUE_DRAINING 1 with memory := { MemState.reset with mram := [⟨0x08000008, 1, 2⟩], mramAhead := 1 } }; ⟨0x08000008, 1, 2⟩; 1
  (∀ (s : State) (bank : Fin 2), s.memory.mram = [] → s.flag F.MRAMC_QUEUE_DRAINING = false →
    ∃ t, exec (.mramWriteDone bank) s = .next t ∧ t = s)
--w State.reset; 1

/-- LOOM_REQUEST, LOOM_RESPONSE, SPEC_TOKEN_RETURN and PICK_START (R205, R290, R291, R293 to R300, R307, R327 to R329). -/
def Obligations.LoomRequestsResponsesAndPicks : Prop :=
  (∀ (s : State) (k : LoomPacket) (prio : Nat), s.Requests k k.target.val → s.packetRes k = none → s.packetPrio k = some prio → k.ahead = false →
      s.loomServes k.ini.val k.target.val k.addr.toNat = true → s.loom.txns = [] → s.loom.waiting = [] → s.aheadOf k.ini.val k.target.val = 0 →
      s.fld (F.LOOM_NI_TOKEN_OUT k.ini.val k.target.val) < s.quotaInUse k.ini.val k.target.val →
      s.fld (F.LOOM_NI_TOKEN_OUT k.ini.val k.target.val) + 1 < 2 ^ (F.LOOM_NI_TOKEN_OUT k.ini.val k.target.val).width →
    ∃ t, exec (.loomRequest k) s = .next t ∧
      t.loom.txns = [{ s.packetTxn k k.target.val prio none with seq := s.nextSeq k.ini.val k.target.val false }] ∧
      t.fld (F.LOOM_NI_TOKEN_OUT k.ini.val k.target.val) = s.fld (F.LOOM_NI_TOKEN_OUT k.ini.val k.target.val) + 1 ∧
      t.nextSeq k.ini.val k.target.val false = (s.nextSeq k.ini.val k.target.val false + 1) % 256 ∧
      KeepsRegs s t [(F.LOOM_NI_TOKEN_OUT k.ini.val k.target.val).reg, R.LOOM_NI_OUTSTANDING k.ini.val] ∧
      t = { s with regs := t.regs, loom := { s.loom with txns := t.loom.txns, sent := t.loom.sent } }) ∧
--w hartS 3 id; { pkt0 with ini := 3, target := 4, addr := 0x80000000, len := 63 }; (hartS 3 id).fld (F.LOOM_NI_CFG_PRIO 3)
--w State.reset; { pkt0 with ini := 4, target := 6, addr := 0x80000000, len := 63, prio := 2, op := 4 }; 2
  (∀ (s : State) (k : LoomPacket), s.packetRes k = none → s.aheadOf k.ini.val k.target.val = 0 →
      s.quotaInUse k.ini.val k.target.val ≤ s.fld (F.LOOM_NI_TOKEN_OUT k.ini.val k.target.val) →
    ∃ t, exec (.loomRequest k) s = .next t ∧ t = s) ∧
--w (hartS 3 id).setFld (F.LOOM_NI_TOKEN_QUOTA 3 4) 0; { pkt0 with ini := 3, target := 4 }
  (∀ (s : State) (k : LoomPacket), k.ini.val ≤ 3 → s.Requests k k.target.val → s.packetRes k = none → k.ahead = true → k.pref = true → k.op.val ≤ 2 →
      s.loomServes k.ini.val k.target.val k.addr.toNat = true →
      s.fld (F.LOOM_NI_TOKEN_OUT k.ini.val k.target.val) < s.quotaInUse k.ini.val k.target.val →
      s.fld (F.LOOM_NI_TOKEN_OUT k.ini.val k.target.val) + 1 < 2 ^ (F.LOOM_NI_TOKEN_OUT k.ini.val k.target.val).width →
    ∃ t, exec (.loomRequest k) s = .next t ∧ t.aheadOf k.ini.val k.target.val = s.aheadOf k.ini.val k.target.val + 1 ∧
      t.fld (F.LOOM_NI_TOKEN_OUT k.ini.val k.target.val) = s.fld (F.LOOM_NI_TOKEN_OUT k.ini.val k.target.val) + 1 ∧
      KeepsRegs s t [(F.LOOM_NI_TOKEN_OUT k.ini.val k.target.val).reg] ∧
      t = { s with regs := t.regs, loom := { s.loom with spec := t.loom.spec } }) ∧
--w hartS 3 id; { pkt0 with ini := 3, target := 4, pref := true, ahead := true, op := 2 }
  (∀ (s : State) (k : LoomPacket), k.ini.val ≤ 3 → s.Requests k k.target.val → s.packetRes k = none → k.ahead = false → k.pref = true → k.op.val ≤ 2 →
      s.loomServes k.ini.val k.target.val k.addr.toNat = true → s.loom.txns = [] → s.loom.waiting = [] → 0 < s.aheadOf k.ini.val k.target.val →
    ∃ t, exec (.loomRequest k) s = .next t ∧ t.aheadOf k.ini.val k.target.val = s.aheadOf k.ini.val k.target.val - 1 ∧
      t.loom.txns = [{ s.packetTxn k k.target.val (s.fld (F.LOOM_NI_CFG_PRIO k.ini.val)) none with seq := s.nextSeq k.ini.val k.target.val false }] ∧
      KeepsRegs s t [R.LOOM_NI_OUTSTANDING k.ini.val] ∧
      t = { s with regs := t.regs, loom := { s.loom with txns := t.loom.txns, sent := t.loom.sent, spec := t.loom.spec } }) ∧
--w (hartS 3 id).setAhead 3 4 1; { pkt0 with ini := 3, target := 4, pref := true, op := 2 }
  (∀ (s : State) (k : LoomPacket) (r : Fin 64) (prio : Nat), (s.packetRes k).bind (fun n => s.resFor k.ini.val k.target.val k.addr.toNat n) = some r.val →
      s.Requests k (resTarget (s.loom.live.word r.val)) → s.packetPrio k = some prio →
      resDram (s.loom.live.word r.val) = true ∨ s.loomServes k.ini.val (resTarget (s.loom.live.word r.val)) k.addr.toNat = true →
    ∃ t, exec (.loomRequest k) s = .next t ∧
      t.queuedRes r.val = s.queuedRes r.val ++ [s.packetTxn k (resTarget (s.loom.live.word r.val)) prio (some r.val)] ∧
      (∀ q : Fin 64, q ≠ r → t.queuedRes q.val = s.queuedRes q.val) ∧ t = { s with loom := { s.loom with queued := t.loom.queued } }) ∧
--w { (hartS 3 (fun t => t)).setFld (F.LOOM_NI_CFG_BIND_EN 3) 1 |>.setFld (F.LOOM_NI_CFG_RES_BIND 3) 5 with loom := { LoomState.reset with live := { LoomState.reset.live with res := [(5, BitVec.ofNat 64 (1 + 16 * 3 + 256 * 10))] } } }; { pkt0 with ini := 3, target := 10, addr := 0x10000000, len := 3, io := true }; 5; ((hartS 3 id).fld (F.LOOM_NI_CFG_PRIO 3))
  (∀ (s : State) (t0 : LoomTxn) (status : Fin 3) (halves : Fin 4) (li lt : BitVec 32), s.OneTxn t0 → t0.guar = false → t0.res = none → t0.use = .nothing →
      (status = 2 → t0.op < 3 ∧ halves ≠ 0) → s.poisonedHalves t0 = 0 → s.loom.live.quota = [] → s.Uncounted t0.init → s.Uncounted t0.target → 1 ≤ s.fld (F.LOOM_NI_TOKEN_OUT t0.init t0.target) →
    ∃ t, exec (.loomResponse (Fin.ofNat 16 t0.init) (Fin.ofNat 64 t0.txid) status halves li lt) s = .next t ∧ t.loom.txns = [] ∧
      t.fld (F.LOOM_NI_TOKEN_OUT t0.init t0.target) = s.fld (F.LOOM_NI_TOKEN_OUT t0.init t0.target) - 1 ∧
      t.fld (F.LOOM_NI_OUTSTANDING_OUT t0.init) = s.fld (F.LOOM_NI_OUTSTANDING_OUT t0.init) - 1 ∧
      t.resp = ⟨status ≠ 0, BitVec.ofNat 64 (t0.response status.val (if status = 2 then halves.val else 0))⟩ ∧
      KeepsRegs s t [(F.LOOM_NI_TOKEN_OUT t0.init t0.target).reg, R.LOOM_NI_OUTSTANDING t0.init] ∧
      t = { s with regs := t.regs, resp := t.resp, loom := { s.loom with txns := [], seen := t.loom.seen, waiting := t.loom.waiting, guar := t.loom.guar } }) ∧
--w ((txnS txn0).setFld (F.LOOM_NI_STAT_CFG_EN 3) 0).setFld (F.LOOM_NI_STAT_CFG_EN 6) 0; txn0; 0; 3; 5; 6
--w ((txnS txn0).setFld (F.LOOM_NI_STAT_CFG_EN 3) 0).setFld (F.LOOM_NI_STAT_CFG_EN 6) 0; txn0; 2; 3; 5; 6
  (∀ (s : State) (t0 : LoomTxn) (h : Fin 4) (va : DWord) (status : Fin 3) (halves : Fin 4) (li lt : BitVec 32), s.OneTxn t0 → t0.guar = false → t0.res = none →
      t0.init = h.val → t0.use = .load va → t0.op = 0 → status ≠ 0 → (status = 2 → halves ≠ 0) → s.Issues h.val → (s.hart h.val).exceptionTo 5 = 3 →
      s.loom.live.quota = [] → s.Uncounted t0.init → s.Uncounted t0.target →
    ∃ t, exec (.loomResponse (Fin.ofNat 16 t0.init) (Fin.ofNat 64 t0.txid) status halves li lt) s = .next t ∧ t.loom.txns = [] ∧
      s.TrapsM { t with regs := s.regs, loom := s.loom, resp := s.resp } h.val 5 va ∧
      KeepsRegs s t [(F.LOOM_NI_TOKEN_OUT t0.init t0.target).reg, R.LOOM_NI_OUTSTANDING t0.init]) ∧
--w ((txnS { txn0 with use := .load 0x80000123 }).setFld (F.LOOM_NI_STAT_CFG_EN 3) 0).setFld (F.LOOM_NI_STAT_CFG_EN 6) 0; { txn0 with use := .load 0x80000123 }; 3; 0x80000123; 1; 0; 5; 6
  (∀ (s : State) (t0 : LoomTxn) (li lt : BitVec 32), s.OneTxn t0 → t0.guar = false → t0.res = none →
      t0.init ≠ t0.target → t0.op = 0 → t0.len < 64 → s.poisonedHalves t0 = 0 → s.loom.live.quota = [] →
      s.statPasses t0.init 0 t0.target false none = true → s.Uncounted t0.target → s.fld (F.LOOM_NI_STAT_CFG_LAT_OP t0.init) = 2 →
    ∃ t, exec (.loomResponse (Fin.ofNat 16 t0.init) (Fin.ofNat 64 t0.txid) 0 0 li lt) s = .next t ∧ t.loom.txns = [] ∧
      t.fld (F.LOOM_NI_CNT_VALUE t0.init 0) = (s.fld (F.LOOM_NI_CNT_VALUE t0.init 0) + 1) % 2 ^ 48 ∧
      t.fld (F.LOOM_NI_CNT_VALUE t0.init 2) = (s.fld (F.LOOM_NI_CNT_VALUE t0.init 2) + t0.len + 1) % 2 ^ 48 ∧
      t.fld (F.LOOM_NI_CNT_VALUE t0.init 4) = (s.fld (F.LOOM_NI_CNT_VALUE t0.init 4) + 1) % 2 ^ 48 ∧
      t.fld (F.LOOM_NI_CNT_VALUE t0.init 1) = s.fld (F.LOOM_NI_CNT_VALUE t0.init 1) ∧
      KeepsPages s t [P.LOOM_NI t0.init] ∧ t = { s with regs := t.regs, loom := t.loom, resp := t.resp }) ∧
--w (((txnS txn0).setFld (F.LOOM_NI_STAT_CFG_EN 6) 0).setFld (F.LOOM_NI_STAT_CFG_PEER_MASK 3) 0xFFFF).setFld (F.LOOM_NI_STAT_CFG_LAT_OP 3) 2; txn0; 5; 6
  (∀ (s : State) (t0 : LoomTxn) (li lt : BitVec 32), s.OneTxn t0 → t0.guar = false → t0.res = none → t0.use = .nothing →
      t0.op < 3 → s.poisonedHalves t0 ≠ 0 → s.loom.live.quota = [] → s.Uncounted t0.init → s.Uncounted t0.target →
    ∃ t, exec (.loomResponse (Fin.ofNat 16 t0.init) (Fin.ofNat 64 t0.txid) 0 0 li lt) s = .next t ∧ t.loom.txns = [] ∧
      t.resp = ⟨true, BitVec.ofNat 64 (t0.response 2 (s.poisonedHalves t0))⟩ ∧
      KeepsRegs s t [(F.LOOM_NI_TOKEN_OUT t0.init t0.target).reg, R.LOOM_NI_OUTSTANDING t0.init]) ∧
--w { (((txnS txn0).setFld (F.LOOM_NI_STAT_CFG_EN 3) 0).setFld (F.LOOM_NI_STAT_CFG_EN 6) 0) with memory := { State.reset.memory with poison := [0x80000020] } }; txn0; 5; 6
  (∀ (s : State) (ini : Fin 16) (txid : Fin 64) (status : Fin 3) (halves : Fin 4) (li lt : BitVec 32), s.txn ini.val txid.val = none →
    ∃ t, exec (.loomResponse ini txid status halves li lt) s = .next t ∧ t = s) ∧
--w txnS txn0; 3; 8; 1; 0; 5; 6
  (∀ (s : State) (h : Fin 4) (target : Fin 16), s.fabricRuns = true → 0 < s.aheadOf h.val target.val → s.loom.live.quota = [] → s.Uncounted h.val →
    ∃ t, exec (.specTokenReturn h target) s = .next t ∧ t.aheadOf h.val target.val = s.aheadOf h.val target.val - 1 ∧
      t.fld (F.LOOM_NI_TOKEN_OUT h.val target.val) = s.fld (F.LOOM_NI_TOKEN_OUT h.val target.val) - 1 ∧
      KeepsRegs s t [(F.LOOM_NI_TOKEN_OUT h.val target.val).reg] ∧
      t = { s with regs := t.regs, loom := { s.loom with spec := t.loom.spec, guar := t.loom.guar } }) ∧
--w { ((hartS 3 id).setFld (F.LOOM_NI_TOKEN_OUT 3 6) 2).setFld (F.LOOM_NI_STAT_CFG_EN 3) 0 with loom := { LoomState.reset with spec := [(54, 1)] } }; 3; 6
  (∀ (s : State) (h : Fin 4) (target : Fin 16), s.aheadOf h.val target.val = 0 ∨ s.fabricRuns = false →
    ∃ t, exec (.specTokenReturn h target) s = .next t ∧ t = s) ∧
--w State.reset; 3; 6
  (∀ (s : State) (p : Byte), s.fabricRuns = true → s.loom.began ≤ p.toNat → s.loom.live.picks = [] →
      (∀ i : Fin 8, s.running (P.LOOM_PROBE i.val) = false) →
    ∃ t, exec (.pickStart p) s = .next t ∧ t.fld F.LOOM_ROUND_PICK = p.toNat ∧ t.fld F.LOOM_PICK_PHASE_PHASE = s.fld F.REED_NOW_PHASE ∧
      KeepsRegs s t [R.LOOM_ROUND, R.LOOM_PICK_PHASE] ∧ t.fld F.LOOM_ROUND_ROUND = s.fld F.LOOM_ROUND_ROUND ∧
      t = { s with regs := t.regs, loom := { s.loom with began := p.toNat + 1 } }) ∧
--w State.reset; 255
  (∀ (s : State) (p : Byte), p.toNat < s.loom.began ∨ s.fabricRuns = false →
    ∃ t, exec (.pickStart p) s = .next t ∧ t = s) ∧
--w { State.reset with loom := { LoomState.reset with began := 256 } }; 255
  (∀ (s : State) (p : Byte) (r : Fin 64) (x : LoomTxn), s.fabricRuns = true → s.loom.began = p.toNat →
      s.loom.live.owners p.toNat = [r.val] → (∀ i : Fin 8, s.running (P.LOOM_PROBE i.val) = false) → s.screeActs = false →
      s.loom.txns = [] → s.loom.waiting = [] → s.queuedRes r.val = [x] → s.niClocked x.init = true → x.init < 16 →
      0 < s.guarTokens r.val → (s.loom.live.word r.val).testBit 2 = false →
    ∃ t, exec (.pickStart p) s = .next t ∧ t.queuedRes r.val = [] ∧
      (s.loom.released = [] → t.loom.txns = [{ x with guar := true, txid := 0, seq := s.nextSeq x.init x.target true, pick := s.fld F.LOOM_ROUND_ROUND * 256 + p.toNat }]) ∧
      (s.loom.released = [256 * r.val + p.toNat] → t.loom.txns = [{ x with guar := false, txid := 0, seq := s.nextSeq x.init x.target false, prio := s.loom.live.word r.val / 2 ^ 14 % 4, level := s.loom.live.word r.val / 2 ^ 14 % 4 }]) ∧
      t.fld F.LOOM_ROUND_PICK = p.toNat ∧ KeepsRegs s t [R.LOOM_ROUND, R.LOOM_PICK_PHASE, R.LOOM_NI_OUTSTANDING x.init] ∧
      t = { s with regs := t.regs, loom := { s.loom with txns := t.loom.txns, sent := t.loom.sent, queued := t.loom.queued, began := p.toNat + 1 } })
--w pickS []; 9; 5; resTxn
--w pickS [256 * 5 + 9]; 9; 5; resTxn

/-- HOME_CHECK, LATE_RETURN, AGING, TARGET_ABANDON, INITIATOR_TIMEOUT and FLIT_ECC (R292, R298, R302, R303, R317, R318). -/
def Obligations.LoomHomeChecksLateReturnsAndErrors : Prop :=
  (∀ (s : State) (ini : Fin 16) (txid : Fin 64) (t0 : LoomTxn) (way : Nat), s.OneTxn t0 → t0.init = ini.val → t0.txid = txid.val → t0.res ≠ none →
      t0.target = 6 ∨ t0.target = 7 → 3 ≤ t0.op → s.inDram (lineOf t0.addr) = true → s.SoundMemory →
      s.memory.lines = [⟨.l3, lineOf t0.addr, .m, true, way⟩] →
    ∃ t, exec (.homeCheck ini txid) s = .next t ∧
      t.memory = { s.memory with lines := [], stale := (s.dropStale (lineOf t0.addr)).memory.stale, checkBlocks := t.memory.checkBlocks } ∧
      t.loom = { s.loom with txns := [{ t0 with arrived := true }], seen := t.loom.seen } ∧
      KeepsRegs s t [R.DMC_CHAN_STAT] ∧ t = { s with regs := t.regs, memory := t.memory, loom := t.loom, fresh := t.fresh }) ∧
--w { (txnS { resTxn with target := 6, addr := 0x8000004F, op := 3 }) with memory := (maintS 1 [⟨.l3, 0x80000040, .m, true, 3⟩]).memory }; 8; 0; { resTxn with target := 6, addr := 0x8000004F, op := 3 }; 3
  (∀ (s : State) (ini : Fin 16) (txid : Fin 64) (t0 : LoomTxn) (h : Fin 4) (way : Nat), s.OneTxn t0 → t0.init = ini.val → t0.txid = txid.val → t0.res ≠ none →
      t0.target = 6 ∨ t0.target = 7 → t0.op ≤ 2 → s.inDram (lineOf t0.addr) = true → s.SoundMemory → s.visible.contains h.val = true →
      s.memory.lines = [⟨.l2 h.val, lineOf t0.addr, .m, true, way⟩] →
    ∃ t, exec (.homeCheck ini txid) s = .next t ∧ t.memory.lines = [⟨.l2 h.val, lineOf t0.addr, .s, false, way⟩] ∧
      t.memory.stale = (s.dropStale (lineOf t0.addr)).memory.stale ∧ t.loom = { s.loom with txns := [{ t0 with arrived := true }], seen := t.loom.seen } ∧
      s.OnlyCaches { t with loom := s.loom }) ∧
--w { (txnS { resTxn with target := 6, addr := 0x8000004F, op := 0 }) with memory := (maintS 1 [⟨.l2 2, 0x80000040, .m, true, 3⟩]).memory }; 8; 0; { resTxn with target := 6, addr := 0x8000004F, op := 0 }; 2; 3
  (∀ (s : State) (ini : Fin 16) (txid : Fin 64) (t0 : LoomTxn), s.txn ini.val txid.val = some t0 → t0.res = none ∨ t0.abandoned = true ∨ t0.lost = true →
    ∃ t, exec (.homeCheck ini txid) s = .next t ∧ t = s) ∧
--w txnS txn0; 3; 7; txn0
  (∀ (s : State) (ini : Fin 16) (txid : Fin 64) (t0 : LoomTxn), s.OneTxn t0 → t0.init = ini.val → t0.txid = txid.val → t0.guar = true →
      t0.target ≠ 6 → t0.target ≠ 7 → s.loom.waiting = [] → 10 ≤ s.pickAge t0 →
    ∃ t, exec (.lateReturn ini txid) s = .next t ∧
      t.loom = { s.loom with waiting := [⟨responsePlane (responseType t0.op 0), niRouter t0.target, ini.val, txid.val, 3⟩], txns := [{ t0 with arrived := true }], seen := t.loom.seen } ∧
      t.fld (F.LOOM_NI_ERR_COUNT t0.target 2) = min (2 ^ (F.LOOM_NI_ERR_COUNT t0.target 2).width - 1) (s.fld (F.LOOM_NI_ERR_COUNT t0.target 2) + 1) ∧
      t.event (P.LOOM_NI t0.target) E.LOOM_NI_LATE_RETURN = true ∧
      KeepsRegs s t [R.LOOM_NI_ERR t0.target 2, R.EVT_RAW (P.LOOM_NI t0.target)] ∧ t = { s with regs := t.regs, loom := t.loom }) ∧
--w (txnS { txn0 with guar := true, target := 4 }).setFld F.LOOM_ROUND_PICK 10; 3; 7; { txn0 with guar := true, target := 4 }
  (∀ (s : State) (ini : Fin 16) (txid : Fin 64) (t0 : LoomTxn), s.txn ini.val txid.val = some t0 →
      t0.guar = false ∨ t0.target = 6 ∨ t0.target = 7 ∨ s.pickAge t0 < 10 →
    ∃ t, exec (.lateReturn ini txid) s = .next t ∧ t = s) ∧
--w (txnS { txn0 with guar := true, target := 4 }).setFld F.LOOM_ROUND_PICK 9; 3; 7; { txn0 with guar := true, target := 4 }
  (∀ (s : State) (router : Fin 12) (plane : Fin 4) (ini : Fin 16) (txid : Fin 64) (t0 : LoomTxn), s.txn ini.val txid.val = some t0 → s.flag F.LOOM_CTRL_AGING = true →
      t0.guar = false → t0.lost = false → s.loom.waiting = [] → plane ≠ 2 → t0.crosses plane.val router.val = true → (plane = 0 → t0.arrived = false) →
    ∃ t, exec (.aging router plane ini txid) s = .next t ∧
      t = { s with loom := { s.loom with waiting := [⟨plane.val, router.val, ini.val, txid.val, min 3 ((if plane = 0 then t0.level else t0.prio) + 1)⟩] } }) ∧
--w (txnS txn0).setFld F.LOOM_CTRL_AGING 1; ⟨niRouter 6, by decide⟩; 0; 3; 7; txn0
--w (txnS txn0).setFld F.LOOM_CTRL_AGING 1; ⟨niRouter 3, by decide⟩; 3; 3; 7; txn0
  (∀ (s : State) (router : Fin 12) (plane : Fin 4) (ini : Fin 16) (txid : Fin 64) (t0 : LoomTxn), s.txn ini.val txid.val = some t0 →
      s.flag F.LOOM_CTRL_AGING = false ∨ t0.crosses plane.val router.val = false →
    ∃ t, exec (.aging router plane ini txid) s = .next t ∧ t = s) ∧
--w (txnS { txn0 with target := 4, init := 0 }).setFld F.LOOM_CTRL_AGING 1; 11; 0; 0; 7; { txn0 with target := 4, init := 0 }
  (∀ (s : State) (ini : Fin 16) (txid : Fin 64) (t0 : LoomTxn), s.OneTxn t0 → t0.init = ini.val → t0.txid = txid.val →
    ∃ t, exec (.targetAbandon ini txid) s = .next t ∧
      t.loom = { s.loom with txns := [{ t0 with arrived := true, abandoned := true }], seen := t.loom.seen } ∧
      t.fld (F.LOOM_NI_ERR_COUNT t0.target 3) = min (2 ^ (F.LOOM_NI_ERR_COUNT t0.target 3).width - 1) (s.fld (F.LOOM_NI_ERR_COUNT t0.target 3) + 1) ∧
      t.event (P.LOOM_NI t0.target) E.LOOM_NI_ABANDON = true ∧
      KeepsRegs s t [R.LOOM_NI_ERR t0.target 3, R.EVT_RAW (P.LOOM_NI t0.target)] ∧ t = { s with regs := t.regs, loom := t.loom }) ∧
--w txnS txn0; 3; 7; txn0
  (∀ (s : State) (ini : Fin 16) (txid : Fin 64) (t0 : LoomTxn), s.OneTxn t0 → t0.init = ini.val → t0.txid = txid.val → t0.res = none → t0.use = .nothing →
      s.loom.live.quota = [] → s.belay.test = none → s.flag F.BELAY_LOG_CTRL_EN = false → s.fld (F.BELAY_REACT_REACT 7) = 0 →
    ∃ t, exec (.initiatorTimeout ini txid) s = .next t ∧ t.loom.txns = [] ∧
      t.fld (F.LOOM_NI_TOKEN_OUT t0.init t0.target) = s.fld (F.LOOM_NI_TOKEN_OUT t0.init t0.target) - 1 ∧
      t.event (P.LOOM_NI ini.val) E.LOOM_NI_TIMEOUT = true ∧ t.event P.LOOM_CFG E.LOOM_CFG_TIMEOUT = true ∧
      t.fld F.LOOM_TIMEOUT_LAST_NI = ini.val ∧ (t.raw R.BELAY_PEND).getLsbD 7 = true ∧
      KeepsPages s t [P.LOOM_NI ini.val, P.LOOM_CFG, P.BELAY, P.TETHER] ∧
      t = { s with regs := t.regs, loom := t.loom, belay := t.belay, tether := t.tether }) ∧
--w (belayQuiet (txnS txn0)).setFld (F.BELAY_REACT_REACT 7) 0; 3; 7; txn0
  (∀ (s : State) (ini : Fin 16) (txid : Fin 64) (t0 : LoomTxn) (h : Fin 4) (va : DWord), s.OneTxn t0 → t0.init = ini.val → t0.txid = txid.val → t0.res = none →
      t0.use = .store va → ini.val = h.val → s.Issues h.val → (s.hart h.val).exceptionTo 7 = 3 →
      s.loom.live.quota = [] → s.belay.test = none → s.flag F.BELAY_LOG_CTRL_EN = false → s.fld (F.BELAY_REACT_REACT 7) = 0 →
    ∃ t, exec (.initiatorTimeout ini txid) s = .next t ∧ t.loom.txns = [] ∧ t.event P.LOOM_CFG E.LOOM_CFG_TIMEOUT = true ∧
      KeepsPages s t [P.LOOM_NI ini.val, P.LOOM_CFG, P.BELAY, P.TETHER] ∧
      s.TrapsM { t with regs := s.regs, loom := s.loom, belay := s.belay, tether := s.tether } h.val 7 va) ∧
--w (belayQuiet (txnS { txn0 with use := .store 0x80000FF8 })).setFld (F.BELAY_REACT_REACT 7) 0; 3; 7; { txn0 with use := .store 0x80000FF8 }; 3; 0x80000FF8
  (∀ (s : State) (ini : Fin 16) (txid : Fin 64) (t0 : LoomTxn) (c : BitVec 12) (k : HeddleChannel) (it : HeddleItem), s.OneTxn t0 → t0.init = ini.val →
      t0.txid = txid.val → t0.res = none → t0.use = .move c → s.hch c.toNat = some k → k.current = some it →
      s.loom.live.quota = [] → s.belay.test = none → s.flag F.BELAY_LOG_CTRL_EN = false → s.fld (F.BELAY_REACT_REACT 7) = 0 →
    ∃ t, exec (.initiatorTimeout ini txid) s = .next t ∧ t.loom.txns = [] ∧ t.event P.LOOM_CFG E.LOOM_CFG_TIMEOUT = true ∧
      KeepsPages s t [P.LOOM_NI ini.val, P.LOOM_CFG, P.BELAY, P.TETHER] ∧
      t.itemStatus c.toNat it.index = some (9, 0) ∧ OnlyChannel s t c.toNat ∧
      t = { s with regs := t.regs, loom := t.loom, belay := t.belay, tether := t.tether, heddle := t.heddle }) ∧
--w { (belayQuiet (work 0 0 item0)).setFld (F.BELAY_REACT_REACT 7) 0 with loom := { LoomState.reset with txns := [{ txn0 with init := 8, target := 4, use := .move 9 }], live := { LoomState.reset.live with quota := [] } } }; 8; 7; { txn0 with init := 8, target := 4, use := .move 9 }; 9; chan0 0 0 item0; item0
  (∀ (s : State) (ini : Fin 16) (txid : Fin 64), s.txn ini.val txid.val = none → s.boot.xip = [] →
    ∃ t, exec (.initiatorTimeout ini txid) s = .next t ∧ t = s) ∧
--w State.reset; 3; 7
  (∀ (s : State) (router : Fin 12) (plane : Fin 4) (ini : Fin 16) (txid : Fin 64), s.fabricRuns = true → s.txn ini.val txid.val = none → s.belay.flitShots = [] →
      s.flag F.BELAY_CFG_LOG_CE = false →
    ∃ t, exec (.flitEcc router plane false ini txid) s = .next t ∧ s.Corrected t F.LOOM_ECC_CE_COUNT ∧ t.event P.LOOM_CFG E.LOOM_CFG_ECC_CE = true ∧
      KeepsRegs s t [F.LOOM_ECC_CE_COUNT.reg, R.EVT_RAW P.LOOM_CFG, R.EVT_RAW P.BELAY] ∧ t = { s with regs := t.regs }) ∧
--w State.reset; 11; 3; 0; 0
  (∀ (s : State) (router : Fin 12) (plane : Fin 4) (ini : Fin 16) (txid : Fin 64), s.fabricRuns = true → s.loom.txns = [] → s.belay.flitShots = [] → s.belay.test = none →
      s.flag F.BELAY_LOG_CTRL_EN = false → s.fld (F.BELAY_REACT_REACT 5) = 0 → s.flag F.LOOM_ECC_WHERE_VALID = false →
    ∃ t, exec (.flitEcc router plane true ini txid) s = .next t ∧
      t.fld F.LOOM_ECC_UE_COUNT = min (2 ^ F.LOOM_ECC_UE_COUNT.width - 1) (s.fld F.LOOM_ECC_UE_COUNT + 1) ∧
      t.raw R.LOOM_ECC_WHERE = BitVec.ofNat 64 (router.val + 2 ^ 4 * plane.val + 2 ^ 31) ∧ t.event P.LOOM_CFG E.LOOM_CFG_ECC_UE = true ∧
      (t.raw R.BELAY_PEND).getLsbD 5 = true ∧ KeepsPages s t [P.LOOM_CFG, P.BELAY, P.TETHER] ∧
      t = { s with regs := t.regs, belay := t.belay, tether := t.tether }) ∧
--w (belayQuiet State.reset).setFld (F.BELAY_REACT_REACT 5) 0; 11; 3; 0; 0
  (∀ (s : State) (router : Fin 12) (plane : Fin 4) (ini : Fin 16) (txid : Fin 64) (t0 : LoomTxn), s.OneTxn t0 → t0.init = ini.val → t0.txid = txid.val →
      s.fabricRuns = true → t0.crosses plane.val router.val = true → s.belay.flitShots = [] → s.belay.test = none →
      s.flag F.BELAY_LOG_CTRL_EN = false → s.fld (F.BELAY_REACT_REACT 5) = 0 →
    ∃ t, exec (.flitEcc router plane true ini txid) s = .next t ∧
      t.loom = { s.loom with txns := [{ t0 with arrived := t0.arrived || plane ≠ 0, lost := true }], seen := t.loom.seen } ∧
      t.event P.LOOM_CFG E.LOOM_CFG_ECC_UE = true ∧ (t.raw R.BELAY_PEND).getLsbD 5 = true ∧ KeepsPages s t [P.LOOM_CFG, P.BELAY, P.TETHER] ∧
      t = { s with regs := t.regs, loom := t.loom, belay := t.belay, tether := t.tether }) ∧
--w (belayQuiet (txnS txn0)).setFld (F.BELAY_REACT_REACT 5) 0; ⟨niRouter 6, by decide⟩; 0; 3; 7; txn0
  (∀ (s : State) (router : Fin 12) (plane : Fin 4) (ue : Bool) (ini : Fin 16) (txid : Fin 64) (t0 : LoomTxn), s.txn ini.val txid.val = some t0 →
      t0.crosses plane.val router.val = false ∨ s.fabricRuns = false →
    ∃ t, exec (.flitEcc router plane ue ini txid) s = .next t ∧ t = s)
--w txnS { txn0 with target := 4, init := 0 }; 11; 0; true; 0; 7; { txn0 with target := 4, init := 0 }

/-- COMMIT, COMMIT_SWAP, ROUND_BOUNDARY, STAT_CLEAR and PROBE_MATCH (R299, R305, R309 to R312, R315, R316, R331, R333 to R337). -/
def Obligations.LoomTablesRoundsAndProbes : Prop :=
  (∀ (s : State) (q : Req), OpenTo s q P.LOOM_CFG → s.fld F.LOOM_COMMIT_STAT_STATE = 0 → s.QuietMemory → s.Uncounted 4 → s.Uncounted 5 → s.Uncounted 10 →
      s.ImageInSequence → s.inMain (s.fld F.LOOM_IMAGE_BASE_ADDR * 64) 3584 = true →
      imageFormat s.guarded (s.bytesAt (s.fld F.LOOM_IMAGE_BASE_ADDR * 64) 3584) = none →
      tableRefusal (imageTable (s.bytesAt (s.fld F.LOOM_IMAGE_BASE_ADDR * 64) 3584)) (s.flag F.LOOM_ADMIT_HOTSAFE) = none →
    ∃ t, exec (.commit q) s = .next t ∧ t.fld F.LOOM_COMMIT_STAT_STATE = 3 ∧
      t.loom.shadow = some (imageTable (s.bytesAt (s.fld F.LOOM_IMAGE_BASE_ADDR * 64) 3584)) ∧
      KeepsRegs s t ([R.LOOM_COMMIT, R.LOOM_COMMIT_STAT, R.DMC_CHAN_STAT] ++ logRegs P.LOOM_CFG) ∧ s.OnlyImage t) ∧
--w quietLoom imageS; ⟨0, true⟩
  (∀ (s : State) (q : Req), OpenTo s q P.LOOM_CFG → s.fld F.LOOM_COMMIT_STAT_STATE ≠ 0 →
    ∃ t, exec (.commit q) s = .next t ∧ s.Refused t q R.LOOM_COMMIT 9 (s.fld F.LOOM_COMMIT_STAT_STATE) ∧
      t.fld F.LOOM_COMMIT_STAT_LAST_REASON = 9 ∧ t.event P.LOOM_CFG E.LOOM_CFG_COMMIT_REFUSED = true ∧
      t.fld F.LOOM_COMMIT_STAT_STATE = s.fld F.LOOM_COMMIT_STAT_STATE ∧
      KeepsRegs s t ([R.LOOM_COMMIT_STAT] ++ logRegs P.LOOM_CFG) ∧ t = { s with regs := t.regs, resp := ⟨false, 0#64⟩ }) ∧
--w imageS.setFld F.LOOM_COMMIT_STAT_STATE 3; ⟨0, true⟩
  (∀ (s : State) (q : Req) (reason detail : Nat), OpenTo s q P.LOOM_CFG → s.fld F.LOOM_COMMIT_STAT_STATE = 0 → s.QuietMemory → s.Uncounted 4 → s.Uncounted 5 →
      s.Uncounted 10 → s.ImageInSequence → s.inMain (s.fld F.LOOM_IMAGE_BASE_ADDR * 64) 3584 = true →
      imageRefusal s.guarded (s.flag F.LOOM_ADMIT_HOTSAFE) (s.bytesAt (s.fld F.LOOM_IMAGE_BASE_ADDR * 64) 3584) none = some (reason, detail) →
    ∃ t, exec (.commit q) s = .next t ∧ s.Refused t q R.LOOM_COMMIT reason detail ∧
      t.fld F.LOOM_COMMIT_STAT_LAST_REASON = reason ∧ t.event P.LOOM_CFG E.LOOM_CFG_COMMIT_REFUSED = true ∧
      t.fld F.LOOM_COMMIT_STAT_STATE = 0 ∧ t.loom.shadow = s.loom.shadow ∧
      KeepsRegs s t ([R.LOOM_COMMIT_STAT, R.DMC_CHAN_STAT] ++ logRegs P.LOOM_CFG) ∧ s.OnlyImage t) ∧
--w quietLoom (State.reset.setFld F.LOOM_IMAGE_BASE_ADDR 0x40000); ⟨0, true⟩; 1; 0
  (∀ (s : State) (q : Req), OpenTo s q P.LOOM_CFG → s.fld F.LOOM_COMMIT_STAT_STATE = 0 → s.Uncounted 4 → s.Uncounted 5 →
      s.Uncounted 10 → s.ImageInSequence → s.busMemory (s.fld F.LOOM_IMAGE_BASE_ADDR * 64) 64 = false →
    ∃ t, exec (.commit q) s = .next t ∧ s.Refused t q R.LOOM_COMMIT 2 0 ∧
      t.fld F.LOOM_COMMIT_STAT_LAST_REASON = 2 ∧ t.event P.LOOM_CFG E.LOOM_CFG_COMMIT_REFUSED = true ∧
      t.fld F.LOOM_COMMIT_STAT_STATE = 0 ∧ KeepsRegs s t ([R.LOOM_COMMIT_STAT] ++ logRegs P.LOOM_CFG) ∧ s.OnlyImage t) ∧
--w (quietLoom State.reset).setFld F.LOOM_IMAGE_BASE_ADDR 0x1000000; ⟨0, true⟩
  (∀ (s : State) (tab : LoomTable), s.fabricRuns = true → s.loom.shadow = some tab → s.loom.live.picks = [] → s.loom.began ≤ 255 → s.NoProbes → s.dmcHot = false →
    ∃ t, exec .commitSwap s = .next t ∧ exec .roundBoundary s = .next t ∧ t.loom.live = tab ∧ t.loom.shadow = none ∧ t.loom.began = 0 ∧ t.loom.released = [] ∧
      t.fld F.LOOM_COMMIT_STAT_STATE = 0 ∧ t.fld F.LOOM_COMMIT_STAT_LAST_REASON = 0 ∧ t.fld F.LOOM_LIVE_TAG_TAG = tab.tag % 2 ^ 32 ∧
      t.fld F.LOOM_ROUND_PICK = 0 ∧ t.fld F.LOOM_ROUND_ROUND = (s.fld F.LOOM_ROUND_ROUND + 1) % 2 ^ F.LOOM_ROUND_ROUND.width ∧
      t.event P.LOOM_CFG E.LOOM_CFG_COMMIT_DONE = true ∧
      KeepsPages s t (P.LOOM_CFG :: (List.range 16).map P.LOOM_NI) ∧
      t = { s with regs := t.regs, loom := { s.loom with live := tab, shadow := none, began := 0, released := [], guar := t.loom.guar } }) ∧
--w { State.reset with loom := { LoomState.reset with shadow := some { LoomState.reset.live with tag := 77, quota := [(54, 4)] } } }; { LoomState.reset.live with tag := 77, quota := [(54, 4)] }
  (∀ (s : State), s.loom.shadow = none →
    ∃ t, exec .commitSwap s = .next t ∧ t = s) ∧
--w State.reset
  (∀ (s : State), s.fabricRuns = true → s.loom.shadow = none → s.loom.live.picks = [] → s.loom.began ≤ 255 → s.NoProbes → s.dmcHot = false →
    ∃ t, exec .roundBoundary s = .next t ∧ t.fld F.LOOM_ROUND_PICK = 0 ∧
      t.fld F.LOOM_ROUND_ROUND = (s.fld F.LOOM_ROUND_ROUND + 1) % 2 ^ F.LOOM_ROUND_ROUND.width ∧ t.raw R.LOOM_SHED = 0#64 ∧
      t.fld F.LOOM_PICK_PHASE_PHASE = s.fld F.REED_NOW_PHASE ∧ t.loom = { s.loom with released := [], began := 0 } ∧
      (s.flag F.LOOM_SHED_ACTIVE = true → t.event P.LOOM_CFG E.LOOM_CFG_SHED_END = true) ∧
      KeepsRegs s t [R.LOOM_ROUND, R.LOOM_PICK_PHASE, R.LOOM_SHED, R.EVT_RAW P.LOOM_CFG] ∧ t = { s with regs := t.regs, loom := t.loom }) ∧
--w (State.reset.setFld F.LOOM_ROUND_ROUND 0xFFFFFFFF).setFld F.LOOM_SHED_ACTIVE 1
  (∀ (s : State) (r : Fin 64) (w : DWord) (n : Nat), s.fabricRuns = true → s.loom.shadow = none → s.loom.live.picks = [] → s.loom.began = 256 → s.NoProbes →
      s.dmcHot = true → s.fld F.LOOM_DRAM_PICKS_ALL = n → 857 < n → s.loom.live.res = [(r.val, w)] → resDram w.toNat = true → resProtect w.toNat = false →
    ∃ t, exec .roundBoundary s = .next t ∧ t.flag F.LOOM_SHED_ACTIVE = true ∧ t.loom = { s.loom with released := [], began := 0 } ∧
      t.fld F.LOOM_SHED_K = shedK n [0] % 2 ^ F.LOOM_SHED_K.width ∧ t.fld F.LOOM_SHED_RELEASED = 0 ∧
      (s.flag F.LOOM_SHED_ACTIVE = false → t.event P.LOOM_CFG E.LOOM_CFG_HOT_SHED = true) ∧
      KeepsPages s t [P.LOOM_CFG] ∧ t = { s with regs := t.regs, loom := t.loom }) ∧
--w hotLoom; 5; 0x9; 900
  (∀ (s : State), s.fabricRuns = false →
    ∃ t, exec .roundBoundary s = .next t ∧ exec .commitSwap s = .next t ∧ t = s) ∧
--w { State.reset with power := { PowerState.reset with phase := .reset } }
  (∀ (s : State) (q : Req) (n : Fin 16) (v : DWord), OpenTo s q (P.LOOM_NI n.val) →
    ∃ t, exec (.statClear q n v) s = .next t ∧ (∀ k : Fin 16, t.raw (R.LOOM_NI_HIST n.val k.val) = 0#64) ∧
      (∀ k : Fin 8, k.val ≠ 5 → k.val ≠ 6 → t.fld (F.LOOM_NI_CNT_VALUE n.val k.val) = 0 ∧ t.fld (F.LOOM_NI_CNT_OF n.val k.val) = 0) ∧
      t.raw (R.LOOM_NI_CNT_5 n.val) = 0#64 ∧ t.raw (R.LOOM_NI_CNT_6 n.val) = 0#64 ∧
      KeepsPages s t [P.LOOM_NI n.val] ∧ t = { s with regs := t.regs, resp := ⟨false, 0#64⟩ }) ∧
--w (State.reset.setFld (F.LOOM_NI_CNT_VALUE 15 7) 9).setFld (F.LOOM_NI_HIST_COUNT 15 15) 9; ⟨0, true⟩; 15; 0
  (∀ (s : State) (n : Fin 8) (head : DWord) (flit1 : BitVec 30) (flits : Fin 11) (waited : BitVec 16) (cycle : Fin 32), s.fabricRuns = true →
      s.carries 0 head.toNat flit1.toNat flits.val = true →
      s.probeRuns n.val = true → portCarries (s.fld (F.LOOM_PROBE_CTRL_ROUTER n.val)) (s.fld (F.LOOM_PROBE_CTRL_PORT n.val)) = true →
      s.fld (F.LOOM_PROBE_CTRL_PLANE n.val) = 0 → s.raw (R.LOOM_PROBE_MATCH n.val 1) = 0#64 → s.raw (R.LOOM_PROBE_MATCH n.val 3) = 0#64 →
      s.flag (F.LOOM_PROBE_CTRL_TRACE_EN n.val) = false → s.fld (F.LOOM_PROBE_TRIG_OUT_SEL n.val) = 0 →
    ∃ t, exec (.probeMatch n head flit1 flits waited cycle) s = .next t ∧
      (∀ k : Fin 4, t.fld (F.LOOM_PROBE_CNT_VALUE n.val k.val) = (s.fld (F.LOOM_PROBE_CNT_VALUE n.val k.val) +
        probeAdds (s.evtSel n.val k.val) 0 head.toNat flit1.toNat flits.val waited.toNat) % 2 ^ 48) ∧
      KeepsPages s t [P.LOOM_PROBE n.val] ∧ t = { s with regs := t.regs }) ∧
--w probeS; 7; 0x400; 5; 9; 100; 31
  (∀ (s : State) (n : Fin 8) (head : DWord) (flit1 : BitVec 30) (flits : Fin 11) (waited : BitVec 16) (cycle : Fin 32), s.fabricRuns = true →
      s.carries 0 head.toNat flit1.toNat flits.val = true →
      s.probeRuns n.val = true → portCarries (s.fld (F.LOOM_PROBE_CTRL_ROUTER n.val)) (s.fld (F.LOOM_PROBE_CTRL_PORT n.val)) = true →
      s.fld (F.LOOM_PROBE_CTRL_PLANE n.val) = 0 → s.raw (R.LOOM_PROBE_MATCH n.val 1) = 0#64 → s.raw (R.LOOM_PROBE_MATCH n.val 3) = 0#64 →
      s.flag (F.LOOM_PROBE_CTRL_TRACE_EN n.val) = true → s.fld (F.LOOM_PROBE_TRIG_OUT_SEL n.val) = 0 →
      s.flag (F.LOOM_PROBE_TRACE_STAT_STOPPED n.val) = false → s.fld (F.LOOM_PROBE_TRACE_STAT_PTR n.val) = 0 →
    ∃ t, exec (.probeMatch n head flit1 flits waited cycle) s = .next t ∧ t.fld (F.LOOM_PROBE_TRACE_STAT_PTR n.val) = 1 ∧
      t.raw (R.LOOM_PROBE_TRACE n.val 1) = head ∧
      t.raw (R.LOOM_PROBE_TRACE n.val 0) = BitVec.ofNat 64 ((s.fld F.LOOM_ROUND_ROUND * 8192 + s.fld F.LOOM_ROUND_PICK * 32 + cycle.val) % 2 ^ 32 +
        2 ^ 34 * flit1.toNat) ∧
      (∀ k : Fin 4, t.fld (F.LOOM_PROBE_CNT_VALUE n.val k.val) = (s.fld (F.LOOM_PROBE_CNT_VALUE n.val k.val) +
        probeAdds (s.evtSel n.val k.val) 0 head.toNat flit1.toNat flits.val waited.toNat) % 2 ^ 48) ∧
      KeepsPages s t [P.LOOM_PROBE n.val] ∧ t = { s with regs := t.regs }) ∧
--w probeS.setFld (F.LOOM_PROBE_CTRL_TRACE_EN 7) 1; 7; 0x400; 5; 9; 100; 31
  (∀ (s : State) (n : Fin 8) (head : DWord) (flit1 : BitVec 30) (flits : Fin 11) (waited : BitVec 16) (cycle : Fin 32),
      s.fabricRuns = false ∨ s.probeRuns n.val = false ∨ (s.fld (F.LOOM_PROBE_CTRL_PLANE n.val) = 0 ∧ s.carries 0 head.toNat flit1.toNat flits.val = false) ∨
        (s.fld (F.LOOM_PROBE_CTRL_PLANE n.val) = 0 ∧ s.raw (R.LOOM_PROBE_MATCH n.val 1) = BitVec.allOnes 64 ∧ s.raw (R.LOOM_PROBE_MATCH n.val 0) ≠ head) →
    ∃ t, exec (.probeMatch n head flit1 flits waited cycle) s = .next t ∧ t = s)
--w ((probeS.setReg (R.LOOM_PROBE_MATCH 7 1) (BitVec.allOnes 64)).setReg (R.LOOM_PROBE_MATCH 7 0) 0x401); 7; 0x400; 5; 9; 100; 31

/-- DOORBELL, KICK, CHANNEL_FETCH, ITEM_FETCH, ITEM_PREFETCH and MOVE (R177, R389, R390, R392, R394 to R396, R402 to R404, R408, R409, R437, R443, R451). -/
def Obligations.HeddleDoorbellsFetchesAndMoves : Prop :=
  (∀ (s : State) (i : Fin 32) (j : BitVec 12) (indirect : Bool) (tail : BitVec 16) (inst : HeddleInstance) (k : HeddleChannel), s.hinst i.val = some inst →
      s.fld (instStateF i.val) = 1 → (indirect = false → j.toNat < 768) → j.toNat < inst.chCount → s.hch (inst.chBase + j.toNat) = some k →
      (k.tail + k.size - k.headOut) % k.size ≤ (tail.toNat % k.size + k.size - k.headOut) % k.size → tail.toNat % k.size ≠ k.tail →
    ∃ t, exec (.doorbell i j indirect tail) s = .next t ∧
      t.hch (inst.chBase + j.toNat) = some { k with tail := tail.toNat % k.size, pending := true, state := if k.state = 1 then 2 else k.state } ∧
      OtherChannels s t (inst.chBase + j.toNat) ∧ t = { s with heddle := { s.heddle with ch := t.heddle.ch } }) ∧
--w work 0 0 item0; 0; 9; false; 7; inst0; chan0 0 0 item0
--w work 0 0 item0; 0; 9; true; 0x107; inst0; chan0 0 0 item0
  (∀ (s : State) (i : Fin 32) (j : BitVec 12) (indirect : Bool) (tail : BitVec 16) (inst : HeddleInstance) (k : HeddleChannel), s.hinst i.val = some inst →
      s.fld (instStateF i.val) = 1 → (indirect = false → j.toNat < 768) → j.toNat < inst.chCount → s.hch (inst.chBase + j.toNat) = some k →
      (tail.toNat % k.size + k.size - k.headOut) % k.size < (k.tail + k.size - k.headOut) % k.size →
    ∃ t, exec (.doorbell i j indirect tail) s = .next t ∧ t.event P.HEDDLE E.HEDDLE_DB_BAD = true ∧
      t.fld F.HEDDLE_DB_ERR_LAST_CH = (inst.chBase + j.toNat) % 2 ^ F.HEDDLE_DB_ERR_LAST_CH.width ∧
      t.fld F.HEDDLE_DB_ERR_COUNT = min (2 ^ F.HEDDLE_DB_ERR_COUNT.width - 1) (s.fld F.HEDDLE_DB_ERR_COUNT + 1) ∧
      KeepsRegs s t [F.HEDDLE_DB_ERR_COUNT.reg, R.EVT_RAW P.HEDDLE] ∧ t = { s with regs := t.regs }) ∧
--w work 0 0 item0; 0; 9; false; 0xFFF3; inst0; chan0 0 0 item0
  (∀ (s : State) (i : Fin 32) (j : BitVec 12) (indirect : Bool) (tail : BitVec 16), s.hinst i.val = none ∨ s.fld (instStateF i.val) ≠ 1 →
      (indirect = false → j.toNat < 768) →
    ∃ t, exec (.doorbell i j indirect tail) s = .next t ∧ t.event P.HEDDLE_MGMT E.HEDDLE_MGMT_DB_REFUSED = true ∧
      t.fld F.HEDDLE_MGMT_DB_REFUSED_LAST_INST = i.val ∧
      t.fld F.HEDDLE_MGMT_DB_REFUSED_COUNT = min (2 ^ F.HEDDLE_MGMT_DB_REFUSED_COUNT.width - 1) (s.fld F.HEDDLE_MGMT_DB_REFUSED_COUNT + 1) ∧
      KeepsRegs s t [F.HEDDLE_MGMT_DB_REFUSED_COUNT.reg, R.EVT_RAW P.HEDDLE_MGMT] ∧ t = { s with regs := t.regs }) ∧
--w State.reset; 31; 9; true; 7
--w State.reset; 31; 767; false; 7
  (∀ (s : State) (ch : BitVec 12) (reed : Bool) (k : HeddleChannel), s.power.heddleStopped = false → s.hch ch.toNat = some k →
      s.fld (instStateF k.e.inst) = 1 → k.e.kickAdv = false →
    ∃ t, exec (.kick ch reed) s = .next t ∧ t.hch ch.toNat = some { k with pending := true } ∧
      OtherChannels s t ch.toNat ∧ t = { s with heddle := { s.heddle with ch := t.heddle.ch } }) ∧
--w work 0 0 item0; 9; true; chan0 0 0 item0
  (∀ (s : State) (ch : BitVec 12) (reed : Bool) (k : HeddleChannel), s.power.heddleStopped = false → s.hch ch.toNat = some k →
      s.fld (instStateF k.e.inst) = 1 → k.e.kickAdv = true → (k.tail + 1) % k.size ≠ k.headOut →
    ∃ t, exec (.kick ch reed) s = .next t ∧
      t.hch ch.toNat = some { k with tail := (k.tail + 1) % k.size, state := if k.state = 1 then 2 else k.state, pending := true } ∧
      OtherChannels s t ch.toNat ∧ t = { s with heddle := { s.heddle with ch := t.heddle.ch } }) ∧
--w (work 0 0 item0).setHch 9 { chan0 0 0 item0 with e := { ent0 0 0 with kickAdv := true } }; 9; true; { chan0 0 0 item0 with e := { ent0 0 0 with kickAdv := true } }
  (∀ (s : State) (ch : BitVec 12) (reed : Bool), s.power.heddleStopped = false → s.hch ch.toNat = none →
    ∃ t, exec (.kick ch reed) s = .next t ∧ t.event P.HEDDLE E.HEDDLE_DB_BAD = true ∧ t.fld F.HEDDLE_DB_ERR_LAST_CH = ch.toNat ∧
      t.fld F.HEDDLE_DB_ERR_COUNT = min (2 ^ F.HEDDLE_DB_ERR_COUNT.width - 1) (s.fld F.HEDDLE_DB_ERR_COUNT + 1) ∧
      KeepsRegs s t [F.HEDDLE_DB_ERR_COUNT.reg, R.EVT_RAW P.HEDDLE] ∧ t = { s with regs := t.regs }) ∧
--w work 0 0 item0; 0xFFF; true
  (∀ (s : State) (ch : BitVec 12) (reed : Bool), s.power.heddleStopped = true →
    ∃ t, exec (.kick ch reed) s = .next t ∧ t = { s with power := { s.power with heldKicks := s.power.heldKicks ++ [(ch.toNat, reed)] } }) ∧
--w { State.reset with power := { PowerState.reset with heddleStopped := true } }; 0xFFF; true
  (∀ (s : State) (c : Nat) (k : HeddleChannel), s.heddleRuns = true → s.nextPending = some c → s.heddle.cache.contains c = true →
      s.hch c = some k →
    ∃ t, exec .channelFetch s = .next t ∧ t.hch c = some ({ k with pending := false } : HeddleChannel).settle ∧
      t.heddle.cache = c :: s.heddle.cache.filter (fun x => x != c) ∧ AMap.get? t.heddle.served k.e.prio = some c ∧ OtherChannels s t c ∧
      t = { s with heddle := { s.heddle with ch := t.heddle.ch, cache := t.heddle.cache, served := t.heddle.served } }) ∧
--w (work 0 0 item0).setHch 9 { chan0 0 0 item0 with pending := true }; 9; { chan0 0 0 item0 with pending := true }
  (∀ (s : State) (c : Nat) (k : HeddleChannel), s.heddleRuns = true → s.nextPending = some c → s.heddle.cache.contains c = false →
      s.heddle.cache.length < 128 → s.hch c = some k → s.QuietMemory →
    ∃ t, exec .channelFetch s = .next t ∧ t.hch c = some ({ k with pending := false } : HeddleChannel).settle ∧
      t.heddle.cache = c :: s.heddle.cache ∧ AMap.get? t.heddle.served k.e.prio = some c ∧ OtherChannels s t c ∧
      t.heddle = { s.heddle with ch := t.heddle.ch, cache := t.heddle.cache, served := t.heddle.served } ∧ s.OnlyReads t) ∧
--w { (work 0 0 item0) with heddle := { (work 0 0 item0).heddle with cache := [], ch := [(9, { chan0 0 0 item0 with pending := true })] } }; 9; { chan0 0 0 item0 with pending := true }
  (∀ (s : State), s.heddleRuns = false ∨ s.nextPending = none →
    ∃ t, exec .channelFetch s = .next t ∧ t = s) ∧
--w work 0 0 item0
  (∀ (s : State) (ch : BitVec 12) (k : HeddleChannel) (inst : HeddleInstance), s.NextItem ch.toNat k inst →
    ∃ t, exec (.itemFetch ch) s = .next t ∧
      t.hch ch.toNat = some { k with items := [parseItem k.e.kind k.e.port k.head k.e.gen true (s.bytesAt (k.itemAt k.head) 32)] } ∧
      OnlyChannel s t ch.toNat ∧ s.OnlyReads t) ∧
--w (work 0 0 item0).setHch 9 { chan0 0 0 item0 with items := [] }; 9; { chan0 0 0 item0 with items := [] }; inst0
--w (work 0 0 item0).setHch 9 { chan0 0 0 item0 with items := [], e := { ent0 0 0 with base := 0x80001000 } }; 9; { chan0 0 0 item0 with items := [], e := { ent0 0 0 with base := 0x80001000 } }; inst0
  (∀ (s : State) (ch : BitVec 12) (k : HeddleChannel) (it : HeddleItem), s.hch ch.toNat = some k → s.mayFetch ch.toNat k = true → k.items = [it] →
      it.running = false → it.status = none → k.e.kind ≤ 1 →
    ∃ t, exec (.itemFetch ch) s = .next t ∧ t.hch ch.toNat = some { k with items := [{ it with running := true }] } ∧
      OnlyChannel s t ch.toNat ∧ t = { s with heddle := t.heddle }) ∧
--w (work 0 0 item0).setHch 9 { chan0 0 0 item0 with items := [{ item0 with running := false }] }; 9; { chan0 0 0 item0 with items := [{ item0 with running := false }] }; { item0 with running := false }
  (∀ (s : State) (ch : BitVec 12), s.hch ch.toNat = none ∨ s.heddleRuns = false →
    ∃ t, exec (.itemFetch ch) s = .next t ∧ exec (.itemPrefetch ch) s = .next t ∧ t = s) ∧
--w work 0 0 item0; 10
  (∀ (s : State) (ch : BitVec 12) (k : HeddleChannel) (inst : HeddleInstance), s.NextItem ch.toNat k inst → 0 < k.e.prefetch →
      (parseItem k.e.kind k.e.port k.head k.e.gen false (s.bytesAt (k.itemAt k.head) 32)).src < 2 ^ 40 →
      (parseItem k.e.kind k.e.port k.head k.e.gen false (s.bytesAt (k.itemAt k.head) 32)).dst < 2 ^ 40 →
    ∃ t, exec (.itemPrefetch ch) s = .next t ∧
      t.hch ch.toNat = some { k with items := [parseItem k.e.kind k.e.port k.head k.e.gen false (s.bytesAt (k.itemAt k.head) 32)] } ∧
      OnlyChannel s t ch.toNat ∧ s.OnlyReads t) ∧
--w (work 0 0 item0).setHch 9 { chan0 0 0 item0 with items := [], e := { ent0 0 0 with prefetch := 2 } }; 9; { chan0 0 0 item0 with items := [], e := { ent0 0 0 with prefetch := 2 } }; inst0
  (∀ (s : State) (ch : BitVec 12) (k : HeddleChannel) (it : HeddleItem) (inst : HeddleInstance), s.MoverTurn ch.toNat 0 k it inst →
      it.piece true true = it.len → it.crcEn = false → s.inMain it.src it.len = true → s.inMain it.dst it.len = true → inMram it.dst = false →
    ∃ t, exec (.move ch 0 .ok) s = .next t ∧ t.bytesAt it.dst it.len = s.bytesAt it.src it.len ∧ KeepsMemBut s t it.dst it.len ∧
      t.itemStatus ch.toNat it.index = some (0, 0) ∧ (t.hch ch.toNat).map (fun x => x.out) = some (k.out + 1) ∧
      t.hinst k.e.inst = some { inst with out := inst.out + 1 } ∧ s.OnlyMove t ch.toNat) ∧
--w (work 0 0 item0).setFld F.L3_CFG_HEDDLE_ALLOC 0; 9; chan0 0 0 item0; item0; inst0
--w (work 0 0 { item0 with src := 0x80000100, dst := 0x80000300 }).setFld F.L3_CFG_HEDDLE_ALLOC 0; 9; chan0 0 0 { item0 with src := 0x80000100, dst := 0x80000300 }; { item0 with src := 0x80000100, dst := 0x80000300 }; inst0
  (∀ (s : State) (ch : BitVec 12) (k : HeddleChannel) (it : HeddleItem) (inst : HeddleInstance), s.MoverTurn ch.toNat 1 k it inst → it.op = 0 →
      it.piece false true = it.len → s.inMain it.dst it.len = true → inMram it.dst = false →
    ∃ t, exec (.move ch 0 .ok) s = .next t ∧
      t.bytesAt it.dst it.len = (List.range it.len).map (fun i => BitVec.ofNat 8 (it.param / 2 ^ (8 * (i % 4)))) ∧
      KeepsMemBut s t it.dst it.len ∧ t.itemStatus ch.toNat it.index = some (0, 0) ∧ (t.hch ch.toNat).map (fun x => x.out) = some (k.out + 1) ∧
      t.hinst k.e.inst = some { inst with out := inst.out + 1 } ∧ s.OnlyMove t ch.toNat) ∧
--w (work 1 0 { item0 with param := 0x11223344, len := 7 }).setFld F.L3_CFG_HEDDLE_ALLOC 0; 9; chan0 1 0 { item0 with param := 0x11223344, len := 7 }; { item0 with param := 0x11223344, len := 7 }; inst0
  (∀ (s : State) (ch : BitVec 12) (k : HeddleChannel) (it : HeddleItem) (inst : HeddleInstance), s.MoverTurn ch.toNat 1 k it inst → it.op = 1 →
      it.piece true false = it.len → s.inMain it.src it.len = true → s.inMain it.dst 4 = true → it.dst % 64 ≤ 60 → inMram it.dst = false →
    ∃ t, exec (.move ch 0 .ok) s = .next t ∧ t.bytesAt it.dst 4 = leBytes 4 (Crc.run32 0x82F63B78 it.acc (s.bytesAt it.src it.len)) ∧
      KeepsMemBut s t it.dst 4 ∧ t.itemStatus ch.toNat it.index = some (0, 0) ∧ (t.hch ch.toNat).map (fun x => x.out) = some (k.out + 1) ∧
      t.hinst k.e.inst = some { inst with out := inst.out + 1 } ∧ s.OnlyMove t ch.toNat) ∧
--w (work 1 0 { item0 with op := 1, acc := 0xFFFFFFFF, len := 7 }).setFld F.L3_CFG_HEDDLE_ALLOC 0; 9; chan0 1 0 { item0 with op := 1, acc := 0xFFFFFFFF, len := 7 }; { item0 with op := 1, acc := 0xFFFFFFFF, len := 7 }; inst0
  (∀ (s : State) (ch : BitVec 12) (k : HeddleChannel) (it : HeddleItem) (inst : HeddleInstance), s.MoverTurn ch.toNat 0 k it inst →
    ∃ t, exec (.move ch 0 .busError) s = .next t ∧ t.itemStatus ch.toNat it.index = some (3, 2) ∧ OtherChannels s t ch.toNat ∧ KeepsMem s t ∧
      s.OnlyMove t ch.toNat) ∧
--w (work 0 0 item0).setFld F.L3_CFG_HEDDLE_ALLOC 0; 9; chan0 0 0 item0; item0; inst0
  (∀ (s : State) (ch : BitVec 12) (k : HeddleChannel) (it : HeddleItem) (inst : HeddleInstance), s.MoverTurn ch.toNat 0 k it inst →
      s.belay.test = none → s.flag F.BELAY_LOG_CTRL_EN = false → s.fld (F.BELAY_REACT_REACT 11) = 0 →
    ∃ t, exec (.move ch 0 .corrupt) s = .next t ∧ t.itemStatus ch.toNat it.index = some (8, 1) ∧ (t.raw R.BELAY_PEND).getLsbD 11 = true ∧
      KeepsPages s t [P.BELAY, P.TETHER] ∧ s.OnlyMove { t with regs := s.regs, belay := s.belay, tether := s.tether } ch.toNat) ∧
--w (((belayQuiet (work 0 0 item0)).setFld F.L3_CFG_HEDDLE_ALLOC 0).setFld (F.BELAY_REACT_REACT 11) 0); 9; chan0 0 0 item0; item0; inst0
  (∀ (s : State) (ch : BitVec 12) (k : HeddleChannel) (it : HeddleItem) (inst : HeddleInstance), s.MoverTurn ch.toNat 0 k it inst →
    ∃ t, exec (.move ch 0 .timeout) s = .next t ∧ t.itemStatus ch.toNat it.index = some (9, 0) ∧ t.event (P.LOOM_NI 8) E.LOOM_NI_TIMEOUT = true ∧
      t.event P.LOOM_CFG E.LOOM_CFG_TIMEOUT = true ∧ t.fld F.LOOM_TIMEOUT_LAST_NI = 8) ∧
--w (work 0 0 item0).setFld F.L3_CFG_HEDDLE_ALLOC 0; 9; chan0 0 0 item0; item0; inst0
  (∀ (s : State) (ch : BitVec 12) (acked : Nat) (e : MoveEnd), s.hch ch.toNat = none →
    ∃ t, exec (.move ch acked e) s = .next t ∧ t = s)
--w work 0 0 item0; 10; 3; .timeout

/-- ITEM_END, CHC_INV, IOTLB_INV, INV_DONE, LATE_RESULT and QUEUE_HEAD_WRITE (R389, R390, R397, R398, R402, R404, R407, R413, R446, R448, R452). -/
def Obligations.HeddleItemEndsRecordsAndInvalidations : Prop :=
  (∀ (s : State) (ch : BitVec 12) (k : HeddleChannel) (it : HeddleItem), s.LastItem ch.toNat k it 0 0 → it.cqe = false →
    ∃ t, exec (.itemEnd ch) s = .next t ∧
      t.hch ch.toNat = some { k with items := [], head := (it.index + 1) % k.size, out := 0, state := if (it.index + 1) % k.size = k.tail then 1 else 2 } ∧
      s.OnlyItemEnd t ch.toNat ∧ t = { s with heddle := t.heddle }) ∧
--w (work 0 0 item0).setHch 9 (chan0 0 0 { item0 with cqe := false, status := some (0, 0) }); 9; chan0 0 0 { item0 with cqe := false, status := some (0, 0) }; { item0 with cqe := false, status := some (0, 0) }
  (∀ (s : State) (ch : BitVec 12) (k : HeddleChannel) (it : HeddleItem) (q : HeddleQueue) (inst : HeddleInstance), s.LastItem ch.toNat k it 0 0 →
      it.cqe = true → it.irq = false → it.phase = some 5 → s.RecordFits k.e.cq q inst →
    ∃ t, exec (.itemEnd ch) s = .next t ∧
      t.bytesAt (q.base + 16 * q.tail) 16 = leBytes 8 (ch.toNat + it.gen * 2 ^ 16 + it.bytes % 2 ^ 24 * 2 ^ 32 + b2n q.p * 2 ^ 15) ++
        leBytes 8 (it.index + 5 * 2 ^ 32) ∧
      KeepsMemBut s t (q.base + 16 * q.tail) 16 ∧
      t.hcq k.e.cq = some { q with tail := (q.tail + 1) % 2 ^ q.order, p := if (q.tail + 1) % 2 ^ q.order = 0 then ! q.p else q.p } ∧
      t.hch ch.toNat = some { k with items := [], head := (it.index + 1) % k.size, out := 0, state := if (it.index + 1) % k.size = k.tail then 1 else 2 } ∧
      s.OnlyItemEnd t ch.toNat ∧ KeepsRegs s t [R.DMC_CHAN_STAT] ∧
      t = { s with regs := t.regs, mem := t.mem, fresh := t.fresh, heddle := t.heddle, memory := { s.memory with stale := t.memory.stale, checkBlocks := t.memory.checkBlocks } }) ∧
--w (work 0 0 { item0 with status := some (0, 0), phase := some 5, bytes := 8 }).setFld F.L3_CFG_HEDDLE_ALLOC 0; 9; chan0 0 0 { item0 with status := some (0, 0), phase := some 5, bytes := 8 }; { item0 with status := some (0, 0), phase := some 5, bytes := 8 }; cq0; inst0
  (∀ (s : State) (ch : BitVec 12) (k : HeddleChannel) (it : HeddleItem) (q : HeddleQueue), s.LastItem ch.toNat k it 0 0 →
      it.cqe = true → it.phase = some 5 → s.hcq k.e.cq = some q → q.full = true →
    ∃ t, exec (.itemEnd ch) s = .next t ∧
      t.hch ch.toNat = some { k with items := [], head := (it.index + 1) % k.size, out := 0, state := 3, waiting := [recordOf ch.toNat k.e it 0 0 false] } ∧
      t.event P.HEDDLE E.HEDDLE_CQ_WAIT = true ∧ t.heddle.cq = s.heddle.cq ∧ s.OnlyItemEnd t ch.toNat ∧ KeepsRegs s t [R.EVT_RAW P.HEDDLE] ∧
      t = { s with regs := t.regs, heddle := t.heddle }) ∧
--w (work 0 0 { item0 with status := some (0, 0), phase := some 5 }).setHcq 5 { cq0 with tail := 15 }; 9; chan0 0 0 { item0 with status := some (0, 0), phase := some 5 }; { item0 with status := some (0, 0), phase := some 5 }; { cq0 with tail := 15 }
  (∀ (s : State) (ch : BitVec 12) (k : HeddleChannel) (it : HeddleItem) (d : Nat), s.LastItem ch.toNat k it 3 d → k.e.haltOnErr = true →
      s.hcq k.e.cq = none → s.inMain (s.chEntryAt ch.toNat + 0x10) 4 = false →
    ∃ t, exec (.itemEnd ch) s = .next t ∧
      t.hch ch.toNat = some { k with items := [], head := (it.index + 1) % k.size, out := 0, state := 4 } ∧
      t.event P.HEDDLE E.HEDDLE_HALT = true ∧ s.OnlyItemEnd t ch.toNat ∧ (s.heddle.oldTable = none → KeepsRegs s t [R.EVT_RAW P.HEDDLE] ∧
      t = { s with regs := t.regs, heddle := t.heddle })) ∧
--w (work 0 0 item0).setFld F.HEDDLE_CHT_BASE_ADDR 0 |>.setHch 9 { chan0 0 0 { item0 with status := some (3, 1) } with e := { ent0 0 0 with haltOnErr := true, cq := 77 } }; 9; { chan0 0 0 { item0 with status := some (3, 1) } with e := { ent0 0 0 with haltOnErr := true, cq := 77 } }; { item0 with status := some (3, 1) }; 1
  (∀ (s : State) (ch : BitVec 12), (s.hch ch.toNat).bind (fun k => k.items.head?) = none ∨ ((s.hch ch.toNat).bind (fun k => k.items.head?)).bind (fun i => i.status) = none →
    ∃ t, exec (.itemEnd ch) s = .next t ∧ t = s) ∧
--w work 0 0 item0; 9
--w work 0 0 item0; 10
  (∀ (s : State) (q : Req) (ch : BitVec 12), OpenTo s q P.HEDDLE → s.flag F.HEDDLE_CHC_INV_BUSY = false → s.heddle.cache.contains ch.toNat = false →
    ∃ t, exec (.chcInv q ch false) s = .next t ∧ t.event P.HEDDLE E.HEDDLE_INV_DONE = true ∧ t.flag F.HEDDLE_CHC_INV_BUSY = false ∧
      KeepsRegs s t ([R.HEDDLE_CHC_INV] ++ logRegs P.HEDDLE) ∧ t = { s with regs := t.regs, resp := ⟨false, 0#64⟩ }) ∧
--w work 0 0 item0; ⟨0, true⟩; 10
  (∀ (s : State) (q : Req) (ch : BitVec 12) (k : HeddleChannel), OpenTo s q P.HEDDLE → s.flag F.HEDDLE_CHC_INV_BUSY = false →
      s.heddle.cache.contains ch.toNat = true → s.hch ch.toNat = some k → k.items = [] → k.waiting = [] → s.inMain (s.chEntryAt ch.toNat + 0x10) 4 = true →
      inMram (s.chEntryAt ch.toNat + 0x10) = false → s.heddle.oldTable = none → s.QuietMemory → s.flag F.L3_CFG_HEDDLE_ALLOC = false →
    ∃ t, exec (.chcInv q ch false) s = .next t ∧ t.flag F.HEDDLE_CHC_INV_BUSY = true ∧
      t.heddle.cache = s.heddle.cache.filter (fun x => x != ch.toNat) ∧
      t.numAt (s.chEntryAt ch.toNat + 0x10) 4 = k.headOut % 65536 + k.tail % 65536 * 65536 ∧
      t.hch ch.toNat = some { k with pending := k.pending || (k.state != 4 && k.head != k.tail) } ∧ OtherChannels s t ch.toNat ∧
      KeepsMemBut s t (s.chEntryAt ch.toNat + 0x10) 4 ∧ KeepsRegs s t ([R.HEDDLE_CHC_INV, R.DMC_CHAN_STAT] ++ logRegs P.HEDDLE) ∧
      t.heddle = { s.heddle with ch := t.heddle.ch, cache := t.heddle.cache } ∧
      t = { s with regs := t.regs, mem := t.mem, fresh := t.fresh, resp := ⟨false, 0#64⟩, heddle := t.heddle, memory := { s.memory with stale := t.memory.stale, checkBlocks := t.memory.checkBlocks } }) ∧
--w (work 0 0 item0).setHch 9 { chan0 0 0 item0 with items := [] } |>.setFld F.HEDDLE_CHT_BASE_ADDR 0x1008 |>.setFld F.L3_CFG_HEDDLE_ALLOC 0; ⟨0, true⟩; 9; { chan0 0 0 item0 with items := [] }
  (∀ (s : State) (q : Req) (ch : BitVec 12) (k : HeddleChannel), OpenTo s q P.HEDDLE → s.flag F.HEDDLE_CHC_INV_BUSY = false →
      s.heddle.cache.contains ch.toNat = true → s.hch ch.toNat = some k → k.items.any (fun i => i.running) = true →
    ∃ t, exec (.chcInv q ch false) s = .next t ∧ t.flag F.HEDDLE_CHC_INV_BUSY = true ∧
      t.hch ch.toNat = some { k with items := k.items.filter (fun i => i.running), dropping := true } ∧ OnlyChannel s t ch.toNat ∧
      KeepsRegs s t ([R.HEDDLE_CHC_INV] ++ logRegs P.HEDDLE) ∧ t = { s with regs := t.regs, resp := ⟨false, 0#64⟩, heddle := t.heddle }) ∧
--w work 0 0 item0; ⟨0, true⟩; 9; chan0 0 0 item0
  (∀ (s : State) (q : Req) (ch : BitVec 12), OpenTo s q P.HEDDLE → s.flag F.HEDDLE_CHC_INV_BUSY = false → s.heddle.cache = [] →
    ∃ t, exec (.chcInv q ch true) s = .next t ∧ t.flag F.HEDDLE_CHC_INV_BUSY = true ∧
      KeepsRegs s t ([R.HEDDLE_CHC_INV] ++ logRegs P.HEDDLE) ∧ t = { s with regs := t.regs, resp := ⟨false, 0#64⟩ }) ∧
--w { (work 0 0 item0) with heddle := { (work 0 0 item0).heddle with cache := [] } }; ⟨0, true⟩; 9
  (∀ (s : State) (q : Req) (ch : BitVec 12) (all : Bool), OpenTo s q P.HEDDLE → s.flag F.HEDDLE_CHC_INV_BUSY = true →
    ∃ t, exec (.chcInv q ch all) s = .next t ∧ s.Refused t q R.HEDDLE_CHC_INV 1 (s.readReg R.HEDDLE_CHC_INV).toNat ∧
      KeepsRegs s t (logRegs P.HEDDLE) ∧ t = { s with regs := t.regs, resp := ⟨false, 0#64⟩ }) ∧
--w (work 0 0 item0).setFld F.HEDDLE_CHC_INV_BUSY 1; ⟨0, true⟩; 9; true
  (∀ (s : State) (q : Req) (i : Fin 32) (page : Bool) (gpa : BitVec 38) (inst : HeddleInstance), OpenTo s q P.HEDDLE → s.flag F.HEDDLE_IOTLB_INV_BUSY = false →
      s.hinst i.val = some inst →
    ∃ t, exec (.iotlbInv q i page gpa) s = .next t ∧ t.flag F.HEDDLE_IOTLB_INV_BUSY = true ∧
      (∀ e, e ∈ t.heddle.iotlb → e ∈ s.heddle.iotlb) ∧ (page = false → ∀ e ∈ t.heddle.iotlb, e.vmid ≠ i.val) ∧
      (∀ e ∈ s.heddle.iotlb, e.vmid ≠ i.val → e ∈ t.heddle.iotlb) ∧ (∀ e ∈ t.heddle.walk, e.vmid ≠ i.val) ∧
      (∀ e ∈ s.heddle.ch, e.2.e.inst ≠ i.val → e ∈ t.heddle.ch) ∧ (∀ e ∈ s.heddle.ch, e.2.e.inst = i.val → (e.1, e.2.dropPrefetched) ∈ t.heddle.ch) ∧
      t.heddle.iotlbWait = some ⟨i.val, inst.late, (s.heddle.ch.filter (fun e => e.2.e.inst == i.val)).map (fun e => (e.1, e.2.out))⟩ ∧
      KeepsRegs s t ([R.HEDDLE_IOTLB_INV] ++ logRegs P.HEDDLE) ∧
      t.heddle = { s.heddle with iotlb := t.heddle.iotlb, walk := t.heddle.walk, ch := t.heddle.ch, iotlbWait := t.heddle.iotlbWait } ∧
      t = { s with regs := t.regs, heddle := t.heddle, resp := ⟨false, 0#64⟩ }) ∧
--w { (work 0 0 item0) with heddle := { (work 0 0 item0).heddle with iotlb := [⟨5, 0, 0, false, 0, 2, 6, 255⟩] } }; ⟨0, true⟩; 0; false; 0; inst0
--w work 0 0 item0; ⟨0, true⟩; 0; true; 5; inst0
  (∀ (s : State) (q : Req) (i : Fin 32) (page : Bool) (gpa : BitVec 38), OpenTo s q P.HEDDLE → s.flag F.HEDDLE_IOTLB_INV_BUSY = true →
    ∃ t, exec (.iotlbInv q i page gpa) s = .next t ∧ s.Refused t q R.HEDDLE_IOTLB_INV 1 (s.readReg R.HEDDLE_IOTLB_INV).toNat ∧
      KeepsRegs s t (logRegs P.HEDDLE) ∧ t = { s with regs := t.regs, resp := ⟨false, 0#64⟩ }) ∧
--w (work 0 0 item0).setFld F.HEDDLE_IOTLB_INV_BUSY 1; ⟨0, true⟩; 9; true; 0
  (∀ (s : State), s.flag F.HEDDLE_IOTLB_INV_BUSY = true → s.heddle.iotlbWait.all (fun w => w.over) = true →
    ∃ t, exec (.invDone true) s = .next t ∧ t.flag F.HEDDLE_IOTLB_INV_BUSY = false ∧ t.event P.HEDDLE E.HEDDLE_INV_DONE = true ∧
      KeepsRegs s t [R.HEDDLE_IOTLB_INV, R.EVT_RAW P.HEDDLE] ∧ t = { s with regs := t.regs, heddle := { s.heddle with iotlbWait := none } }) ∧
--w { (work 0 0 item0).setFld F.HEDDLE_IOTLB_INV_BUSY 1 with heddle := { (work 0 0 item0).heddle with iotlbWait := some ⟨0, 0, [(9, 0)]⟩ } }
  (∀ (s : State), s.flag F.HEDDLE_CHC_INV_BUSY = true → s.heddle.ch.any (fun e => e.2.dropping) = false →
    ∃ t, exec (.invDone false) s = .next t ∧ t.flag F.HEDDLE_CHC_INV_BUSY = false ∧ t.event P.HEDDLE E.HEDDLE_INV_DONE = true ∧
      KeepsRegs s t [R.HEDDLE_CHC_INV, R.EVT_RAW P.HEDDLE] ∧ t = { s with regs := t.regs }) ∧
--w (work 0 0 item0).setFld F.HEDDLE_CHC_INV_BUSY 1
  (∀ (s : State), s.heddle.iotlbWait.any (fun w => ! w.over) = true → s.heddle.ch.any (fun e => e.2.dropping) = true →
    ∃ t, exec (.invDone true) s = .next t ∧ exec (.invDone false) s = .next t ∧ t = s) ∧
--w { (work 0 0 item0) with heddle := { (work 0 0 item0).heddle with iotlbWait := some ⟨0, 1, [(9, 1)]⟩, ch := [(9, { chan0 0 0 item0 with dropping := true })] } }
  (∀ (s : State) (i : Fin 32) (v : HeddleInstance), s.hinst i.val = some v → 0 < v.late →
    ∃ t, exec (.lateResult i) s = .next t ∧ t.hinst i.val = some { v with late := v.late - 1 } ∧
      (∀ x : Fin 32, x ≠ i → t.hinst x.val = s.hinst x.val) ∧
      t.heddle.iotlbWait = s.heddle.iotlbWait.map (fun w => if w.inst = i.val then { w with late := w.late - 1 } else w) ∧
      t.fld F.HEDDLE_MGMT_LATE_COUNT = min (2 ^ F.HEDDLE_MGMT_LATE_COUNT.width - 1) (s.fld F.HEDDLE_MGMT_LATE_COUNT + 1) ∧
      KeepsRegs s t [F.HEDDLE_MGMT_LATE_COUNT.reg] ∧ t = { s with regs := t.regs, heddle := { s.heddle with inst := t.heddle.inst, iotlbWait := t.heddle.iotlbWait } }) ∧
--w (work 0 0 item0).setHinst 0 { inst0 with late := 2 }; 0; { inst0 with late := 2 }
  (∀ (s : State) (i : Fin 32), (s.hinst i.val).map (fun v => v.late) = none ∨ (s.hinst i.val).map (fun v => v.late) = some 0 →
    ∃ t, exec (.lateResult i) s = .next t ∧ t = s) ∧
--w work 0 0 item0; 0
  (∀ (s : State) (i : Fin 32) (j : BitVec 10) (indirect : Bool) (head : BitVec 16) (inst : HeddleInstance) (v : HeddleQueue), s.hinst i.val = some inst →
      s.fld (instStateF i.val) = 1 ∨ s.fld (instStateF i.val) = 2 → (indirect = false → j.toNat < 192) → j.toNat < inst.cqCount →
      s.hcq (inst.cqBase + j.toNat) = some v → head.toNat < 2 ^ v.order →
      (head.toNat + 2 ^ v.order - v.head) % 2 ^ v.order ≤ (v.tail + 2 ^ v.order - v.head) % 2 ^ v.order →
      s.heddle.ch.all (fun e => e.2.waiting.isEmpty) = true →
    ∃ t, exec (.queueHeadWrite i j indirect head) s = .next t ∧ t.hcq (inst.cqBase + j.toNat) = some { v with head := head.toNat } ∧
      (∀ x : Fin 1024, x.val ≠ inst.cqBase + j.toNat → t.hcq x.val = s.hcq x.val) ∧ t = { s with heddle := { s.heddle with cq := t.heddle.cq } }) ∧
--w (work 0 0 item0).setHcq 5 { cq0 with tail := 3 }; 0; 5; false; 3; inst0; { cq0 with tail := 3 }
--w (work 0 0 item0).setHcq 5 { cq0 with tail := 3 }; 0; 5; true; 3; inst0; { cq0 with tail := 3 }
  (∀ (s : State) (i : Fin 32) (j : BitVec 10) (indirect : Bool) (head : BitVec 16), s.hinst i.val = none ∨ s.fld (instStateF i.val) = 3 →
      (indirect = false → j.toNat < 192) →
    ∃ t, exec (.queueHeadWrite i j indirect head) s = .next t ∧ t.event P.HEDDLE_MGMT E.HEDDLE_MGMT_DB_REFUSED = true ∧
      t.fld F.HEDDLE_MGMT_DB_REFUSED_LAST_INST = i.val ∧
      t.fld F.HEDDLE_MGMT_DB_REFUSED_COUNT = min (2 ^ F.HEDDLE_MGMT_DB_REFUSED_COUNT.width - 1) (s.fld F.HEDDLE_MGMT_DB_REFUSED_COUNT + 1) ∧
      KeepsRegs s t [F.HEDDLE_MGMT_DB_REFUSED_COUNT.reg, R.EVT_RAW P.HEDDLE_MGMT] ∧ t = { s with regs := t.regs })
--w State.reset; 31; 9; true; 7

/-- CREATE, ASSIGN, COMMIT_CHANNEL, COMMIT_QUEUE, RESET_DRAIN, RESET_SQUASH, DESTROY and RESET_DONE. -/
def Obligations.InstanceCommandsOfTheManager : Prop :=
  (∀ (s : State) (q : Req) (target : BitVec 13) (v : HeddleInstance), OpenTo s q P.HEDDLE_MGMT → target.toNat < 32 → s.instState target.toNat = 0 →
      s.QuietMemory → s.flag F.L3_CFG_HEDDLE_ALLOC = false → s.inMain (s.instEntryAt target.toNat) 64 = true → inMram (s.instEntryAt target.toNat) = false →
      (s.parseInstance (s.bytesAt (s.instEntryAt target.toNat) 64)).toOption = some v → s.poolsRefuse target.toNat v = none →
    ∃ t, exec (.create q target) s = .next t ∧ t.hinst target.toNat = some v ∧ t.instState target.toNat = 1 ∧
      t.fld (instGenF target.toNat) = nextGen (s.fld (instGenF target.toNat)) ∧
      t.byteAt (s.instEntryAt target.toNat + 4) = BitVec.ofNat 8 (nextGen (s.fld (instGenF target.toNat))) ∧
      KeepsMemBut s t (s.instEntryAt target.toNat + 4) 1 ∧
      t.fld F.HEDDLE_MGMT_CMD_STAT_LAST_REASON = 0 ∧ t.event P.HEDDLE_MGMT E.HEDDLE_MGMT_CMD_DONE = true ∧
      (∀ i : Fin 32, i.val ≠ target.toNat → t.hinst i.val = s.hinst i.val ∧ t.instState i.val = s.instState i.val) ∧
      KeepsRegs s t ([R.HEDDLE_MGMT_CMD, R.HEDDLE_MGMT_CMD_STAT, (instStateF target.toNat).reg, (instGenF target.toNat).reg, R.DMC_CHAN_STAT] ++ logRegs P.HEDDLE_MGMT) ∧
      t.heddle = { s.heddle with inst := t.heddle.inst } ∧
      t = { s with regs := t.regs, mem := t.mem, fresh := t.fresh, memory := { s.memory with stale := t.memory.stale, checkBlocks := t.memory.checkBlocks }, heddle := t.heddle, resp := ⟨false, 0#64⟩ }) ∧
--w mgmtS.setFld F.L3_CFG_HEDDLE_ALLOC 0; ⟨2, true⟩; 3; okInst mgmtS 3
  (∀ (s : State) (q : Req) (target : BitVec 13), OpenTo s q P.HEDDLE_MGMT → target.toNat < 32 → s.instState target.toNat ≠ 0 →
    ∃ t, exec (.create q target) s = .next t ∧ s.CommandRefused t q 1 3 (s.stateDetail target.toNat)) ∧
--w mgmtA; ⟨2, true⟩; 3
  (∀ (s : State) (q : Req) (target : BitVec 13), OpenTo s q P.HEDDLE_MGMT → target.toNat < 32 → s.instState target.toNat ≠ 1 →
    ∃ t, exec (.assign q target) s = .next t ∧ s.CommandRefused t q 2 3 (s.stateDetail target.toNat)) ∧
--w mgmtA; ⟨2, true⟩; 4
  (∀ (s : State) (q : Req) (target : BitVec 13), OpenTo s q P.HEDDLE_MGMT → target.toNat < 32 → s.instState target.toNat ≠ 1 →
    ∃ t, exec (.resetDrain q target) s = .next t ∧ s.CommandRefused t q 4 3 (s.stateDetail target.toNat)) ∧
--w mgmtA; ⟨2, true⟩; 4
  (∀ (s : State) (q : Req) (target : BitVec 13), OpenTo s q P.HEDDLE_MGMT → target.toNat < 32 → s.instState target.toNat ≠ 1 →
    ∃ t, exec (.resetSquash q target) s = .next t ∧ s.CommandRefused t q 5 3 (s.stateDetail target.toNat)) ∧
--w mgmtA; ⟨2, true⟩; 4
  (∀ (s : State) (q : Req) (target : BitVec 13), OpenTo s q P.HEDDLE_MGMT → target.toNat < 32 → target.toNat = 0 ∨ s.instState target.toNat ≠ 1 →
    ∃ t, exec (.destroy q target) s = .next t ∧ s.CommandRefused t q 6 3 (s.stateDetail target.toNat)) ∧
--w mgmtA; ⟨2, true⟩; 0
  (∀ (s : State) (q : Req) (target : BitVec 13) (c : Nat) (k : HeddleChannel), OpenTo s q P.HEDDLE_MGMT → 0 < target.toNat → target.toNat < 32 →
      s.instState target.toNat = 1 → s.heddle.ch.find? (fun e => e.2.e.inst == target.toNat) = some (c, k) →
    ∃ t, exec (.destroy q target) s = .next t ∧ s.CommandRefused t q 6 8 c) ∧
--w mgmtC; ⟨2, true⟩; 3; 200; { chan0 0 0 item0 with e := { ent0 0 0 with inst := 3, cq := 100 } }
  (∀ (s : State) (q : Req) (target : BitVec 13), OpenTo s q P.HEDDLE_MGMT → 32 ≤ target.toNat →
    ∃ t, exec (.destroy q target) s = .next t ∧ s.CommandRefused t q 6 2 (mgmtWord 6 false false target).toNat) ∧
--w mgmtA; ⟨2, true⟩; 4095
  (∀ (s : State) (q : Req) (target : BitVec 13) (v o : HeddleInstance), OpenTo s q P.HEDDLE_MGMT → target.toNat < 32 →
      s.instState target.toNat = 1 → s.QuietMemory → s.inMain (s.instEntryAt target.toNat) 64 = true → s.hinst target.toNat = some o →
      (s.parseInstance (s.bytesAt (s.instEntryAt target.toNat) 64)).toOption = some v → s.poolsRefuse target.toNat v = none →
      s.assignInUse target.toNat v = none →
    ∃ t, exec (.assign q target) s = .next t ∧ t.hinst target.toNat = some { v with out := o.out, late := o.late } ∧
      (o.gMode ≠ v.gMode ∨ o.root ≠ v.root ∨ o.vmid ≠ v.vmid → t.heddle.iotlb = s.heddle.iotlb.filter (fun e => e.vmid != target.toNat) ∧
        t.heddle.walk = s.heddle.walk.filter (fun e => e.vmid != target.toNat)) ∧
      (o.gMode = v.gMode → o.root = v.root → o.vmid = v.vmid → t.heddle.iotlb = s.heddle.iotlb ∧ t.heddle.walk = s.heddle.walk) ∧
      (∀ i : Fin 32, i.val ≠ target.toNat → t.hinst i.val = s.hinst i.val) ∧
      t.fld F.HEDDLE_MGMT_CMD_STAT_LAST_REASON = 0 ∧ t.event P.HEDDLE_MGMT E.HEDDLE_MGMT_CMD_DONE = true ∧
      KeepsRegs s t ([R.HEDDLE_MGMT_CMD, R.HEDDLE_MGMT_CMD_STAT, R.DMC_CHAN_STAT] ++ logRegs P.HEDDLE_MGMT) ∧
      t.heddle = { s.heddle with inst := t.heddle.inst, iotlb := t.heddle.iotlb, walk := t.heddle.walk } ∧
      t = { s with regs := t.regs, fresh := t.fresh, memory := { s.memory with checkBlocks := t.memory.checkBlocks }, heddle := t.heddle, resp := ⟨false, 0#64⟩ }) ∧
--w mgmtA; ⟨2, true⟩; 3; okInst mgmtS 3; { inst0 with chBase := 192, chCount := 64, cqBase := 96, cqCount := 32, tokens := 2, msgGroups := 8 }
  (∀ (s : State) (q : Req) (target : BitVec 13) (flush : Bool) (e : HeddleEntry) (head tail : Nat), OpenTo s q P.HEDDLE_MGMT →
      target.toNat < 4096 → s.QuietMemory → s.inMain (s.chEntryAt target.toNat) 64 = true → s.hch target.toNat = none →
      s.heddle.cache.contains target.toNat = false →
      (s.bytesAt (s.chEntryAt target.toNat) 64).getD 0 0#8 &&& 1#8 = 1#8 →
      (parseChannel (s.bytesAt (s.chEntryAt target.toNat) 64)).toOption = some (e, head, tail) → s.channelRefuse target.toNat e = none →
      s.inReset (fun v => decide (v.chBase ≤ target.toNat ∧ target.toNat < v.chBase + v.chCount)) = false → s.portHalted e = false →
    ∃ t, exec (.commitChannel q target flush) s = .next t ∧
      t.hch target.toNat = some ⟨e, if head = tail then 1 else 2, head, tail, head != tail, false, [], [], 0⟩ ∧
      (∀ c : Fin 4096, c.val ≠ target.toNat → t.hch c.val = s.hch c.val) ∧
      t.fld F.HEDDLE_MGMT_CMD_STAT_LAST_REASON = 0 ∧ t.event P.HEDDLE_MGMT E.HEDDLE_MGMT_CMD_DONE = true ∧
      KeepsRegs s t ([R.HEDDLE_MGMT_CMD, R.HEDDLE_MGMT_CMD_STAT, R.DMC_CHAN_STAT] ++ logRegs P.HEDDLE_MGMT) ∧
      t.heddle = { s.heddle with ch := t.heddle.ch } ∧ t = { s with regs := t.regs, fresh := t.fresh, memory := { s.memory with checkBlocks := t.memory.checkBlocks }, heddle := t.heddle, resp := ⟨false, 0#64⟩ }) ∧
--w mgmtA; ⟨2, true⟩; 200; true; { ent0 0 0 with inst := 3, gen := 1, prio := 0, cq := 100, base := 0x01006000 }; 3; 5
  (∀ (s : State) (q : Req) (target : BitVec 13) (flush : Bool), OpenTo s q P.HEDDLE_MGMT → target.toNat < 4096 → s.QuietMemory →
      s.inMain (s.chEntryAt target.toNat) 64 = true → s.heddle.cache.contains target.toNat = false →
      (s.bytesAt (s.chEntryAt target.toNat) 64).getD 0 0#8 &&& 1#8 = 0#8 →
      s.ownsChannel (bitsOf (entryWord (s.bytesAt (s.chEntryAt target.toNat) 64) 0) 8 12) target.toNat = true → s.channelBusy target.toNat = none →
      s.inReset (fun v => decide (v.chBase ≤ target.toNat ∧ target.toNat < v.chBase + v.chCount)) = false →
    ∃ t, exec (.commitChannel q target flush) s = .next t ∧ t.hch target.toNat = none ∧
      (∀ c : Fin 4096, c.val ≠ target.toNat → t.hch c.val = s.hch c.val) ∧
      t.fld F.HEDDLE_MGMT_CMD_STAT_LAST_REASON = 0 ∧ t.event P.HEDDLE_MGMT E.HEDDLE_MGMT_CMD_DONE = true ∧
      KeepsRegs s t ([R.HEDDLE_MGMT_CMD, R.HEDDLE_MGMT_CMD_STAT, R.DMC_CHAN_STAT] ++ logRegs P.HEDDLE_MGMT) ∧
      t.heddle = { s.heddle with ch := t.heddle.ch } ∧ t = { s with regs := t.regs, fresh := t.fresh, memory := { s.memory with checkBlocks := t.memory.checkBlocks }, heddle := t.heddle, resp := ⟨false, 0#64⟩ }) ∧
--w (mgmtA.putMem (0x01010000 + 64 * 200) [0#8, 3#8]).setHch 200 { chan0 0 0 item0 with state := 4, items := [] }; ⟨2, true⟩; 200; false
  (∀ (s : State) (q : Req) (target : BitVec 13) (v : HeddleQueue), OpenTo s q P.HEDDLE_MGMT → target.toNat < 1024 → s.QuietMemory →
      s.inMain (s.fld F.HEDDLE_CQT_BASE_ADDR * 4096 + 16 * target.toNat) 16 = true → s.heddle.ch.find? (fun e => e.2.e.cq == target.toNat) = none →
      (s.bytesAt (s.fld F.HEDDLE_CQT_BASE_ADDR * 4096 + 16 * target.toNat) 16).getD 0 0#8 &&& 1#8 = 1#8 →
      (parseQueue (s.bytesAt (s.fld F.HEDDLE_CQT_BASE_ADDR * 4096 + 16 * target.toNat) 16)).toOption = some v →
      s.instState v.inst = 1 → s.ownsQueue v.inst target.toNat = true →
      s.inReset (fun x => decide (x.cqBase ≤ target.toNat ∧ target.toNat < x.cqBase + x.cqCount)) = false →
      (v.irq = 2 → (s.hinst v.inst).map (fun x => x.msgGroups.testBit ((v.msg - 1536) / 32)) = some true) →
    ∃ t, exec (.commitQueue q target) s = .next t ∧ t.hcq target.toNat = some v ∧ v.head = 0 ∧ v.tail = 0 ∧ v.p = true ∧
      (∀ c : Fin 1024, c.val ≠ target.toNat → t.hcq c.val = s.hcq c.val) ∧
      t.fld F.HEDDLE_MGMT_CMD_STAT_LAST_REASON = 0 ∧ t.event P.HEDDLE_MGMT E.HEDDLE_MGMT_CMD_DONE = true ∧
      KeepsRegs s t ([R.HEDDLE_MGMT_CMD, R.HEDDLE_MGMT_CMD_STAT, R.DMC_CHAN_STAT] ++ logRegs P.HEDDLE_MGMT) ∧
      t.heddle = { s.heddle with cq := t.heddle.cq } ∧ t = { s with regs := t.regs, fresh := t.fresh, memory := { s.memory with checkBlocks := t.memory.checkBlocks }, heddle := t.heddle, resp := ⟨false, 0#64⟩ }) ∧
--w mgmtA; ⟨2, true⟩; 100; ⟨3, 4, 1, 1536, 0x01007000, 0, 0, true⟩
  (∀ (s : State) (q : Req) (target : BitVec 13), OpenTo s q P.HEDDLE_MGMT → target.toNat < 1024 → s.QuietMemory →
      s.inMain (s.fld F.HEDDLE_CQT_BASE_ADDR * 4096 + 16 * target.toNat) 16 = true → s.heddle.ch.find? (fun e => e.2.e.cq == target.toNat) = none →
      (s.bytesAt (s.fld F.HEDDLE_CQT_BASE_ADDR * 4096 + 16 * target.toNat) 16).getD 0 0#8 &&& 1#8 = 0#8 →
      s.inReset (fun x => decide (x.cqBase ≤ target.toNat ∧ target.toNat < x.cqBase + x.cqCount)) = false →
    ∃ t, exec (.commitQueue q target) s = .next t ∧ t.heddle = { s.heddle with cq := SMap.erase s.heddle.cq target.toNat } ∧
      t.fld F.HEDDLE_MGMT_CMD_STAT_LAST_REASON = 0 ∧ t.event P.HEDDLE_MGMT E.HEDDLE_MGMT_CMD_DONE = true ∧
      KeepsRegs s t ([R.HEDDLE_MGMT_CMD, R.HEDDLE_MGMT_CMD_STAT, R.DMC_CHAN_STAT] ++ logRegs P.HEDDLE_MGMT) ∧
      t = { s with regs := t.regs, fresh := t.fresh, memory := { s.memory with checkBlocks := t.memory.checkBlocks }, heddle := t.heddle, resp := ⟨false, 0#64⟩ }) ∧
--w mgmtA.putMem (0x01005000 + 16 * 100) [0#8]; ⟨2, true⟩; 100
  (∀ (s : State) (q : Req) (target : BitVec 13) (flush : Bool), OpenTo s q P.HEDDLE_MGMT → 4096 ≤ target.toNat →
    ∃ t, exec (.commitChannel q target flush) s = .next t ∧ s.CommandRefused t q 3 2 (mgmtWord 3 false flush target).toNat) ∧
--w mgmtA; ⟨2, true⟩; 4096; true
  (∀ (s : State) (q : Req) (target : BitVec 13), OpenTo s q P.HEDDLE_MGMT → 1024 ≤ target.toNat →
    ∃ t, exec (.commitQueue q target) s = .next t ∧ s.CommandRefused t q 3 2 (mgmtWord 3 true false target).toNat) ∧
--w mgmtA; ⟨2, true⟩; 1024
  (∀ (s : State) (q : Req) (target : BitVec 13), OpenTo s q P.HEDDLE_MGMT → target.toNat < 32 → s.instState target.toNat = 1 → s.TablesKeyed →
      (∀ e ∈ s.heddle.ch, e.2.dropping = false) →
    ∃ t, exec (.resetDrain q target) s = .next t ∧ t.instState target.toNat = 2 ∧
      (∀ e ∈ s.heddle.ch, t.hch e.1 = some (if e.2.e.inst = target.toNat then
        { e.2 with pending := false, items := e.2.keepStarted.items.map (fun i =>
            if i.running && i.status.isNone && s.waitsForInput e.2.e i then { i with started := true, status := some (1, 0) } else i) } else e.2)) ∧
      (∀ e ∈ t.heddle.ch, (s.hch e.1).isSome = true) ∧
      t.fld F.HEDDLE_MGMT_CMD_STAT_LAST_REASON = 0 ∧ t.event P.HEDDLE_MGMT E.HEDDLE_MGMT_CMD_DONE = true ∧
      KeepsRegs s t ([R.HEDDLE_MGMT_CMD, R.HEDDLE_MGMT_CMD_STAT, (instStateF target.toNat).reg] ++ logRegs P.HEDDLE_MGMT) ∧
      t.heddle = { s.heddle with ch := t.heddle.ch } ∧ t = { s with regs := t.regs, heddle := t.heddle, resp := ⟨false, 0#64⟩ }) ∧
--w mgmtC; ⟨2, true⟩; 3
  (∀ (s : State) (q : Req) (target : BitVec 13) (v : HeddleInstance), OpenTo s q P.HEDDLE_MGMT → target.toNat < 32 → s.instState target.toNat = 1 →
      s.TablesKeyed → s.hinst target.toNat = some v → (∀ e ∈ s.heddle.ch, e.2.e.inst = target.toNat → e.2.e.kind ≤ 1 ∧ e.2.dropping = false) →
    ∃ t, exec (.resetSquash q target) s = .next t ∧ t.instState target.toNat = 3 ∧
      t.fld (instGenF target.toNat) = nextGen (s.fld (instGenF target.toNat)) ∧
      t.hinst target.toNat = some { v with late := v.late + v.out, out := 0 } ∧
      (∀ e ∈ s.heddle.ch, t.hch e.1 = some (if e.2.e.inst = target.toNat then
        { e.2 with items := [], waiting := [], head := e.2.headOut, out := 0, pending := false } else e.2)) ∧
      t.fld F.HEDDLE_MGMT_CMD_STAT_LAST_REASON = 0 ∧ t.event P.HEDDLE_MGMT E.HEDDLE_MGMT_CMD_DONE = true ∧
      KeepsRegs s t ([R.HEDDLE_MGMT_CMD, R.HEDDLE_MGMT_CMD_STAT, (instStateF target.toNat).reg, (instGenF target.toNat).reg] ++ logRegs P.HEDDLE_MGMT) ∧
      t.heddle.iotlbWait = s.heddle.iotlbWait.map (fun w => if w.inst = target.toNat then { w with late := w.late + v.out, ch := [] } else w) ∧
      (∀ r, t.queuedRes r = (s.queuedRes r).filter (fun x => ! (s.channelsOf target.toNat).any (fun c => x.ofChannel c))) ∧
      t.heddle = { s.heddle with ch := t.heddle.ch, inst := t.heddle.inst, iotlbWait := t.heddle.iotlbWait } ∧
      t = { s with regs := t.regs, heddle := t.heddle, loom := { s.loom with queued := t.loom.queued }, resp := ⟨false, 0#64⟩ }) ∧
--w mgmtC; ⟨2, true⟩; 3; { inst0 with chBase := 192, chCount := 64, cqBase := 96, cqCount := 32, tokens := 2, msgGroups := 8 }
  (∀ (s : State) (q : Req) (target : BitVec 13), OpenTo s q P.HEDDLE_MGMT → 0 < target.toNat → target.toNat < 32 → s.instState target.toNat = 1 →
      s.heddle.ch.find? (fun e => e.2.e.inst == target.toNat) = none → s.heddle.cq.find? (fun e => e.2.inst == target.toNat) = none →
    ∃ t, exec (.destroy q target) s = .next t ∧ t.instState target.toNat = 0 ∧ t.hinst target.toNat = none ∧
      (∀ i : Fin 32, i.val ≠ target.toNat → t.hinst i.val = s.hinst i.val) ∧ t.heddle.iotlb = s.heddle.iotlb.filter (fun e => e.vmid != target.toNat) ∧
      t.heddle.walk = s.heddle.walk.filter (fun e => e.vmid != target.toNat) ∧
      t.fld F.HEDDLE_MGMT_CMD_STAT_LAST_REASON = 0 ∧ t.event P.HEDDLE_MGMT E.HEDDLE_MGMT_CMD_DONE = true ∧
      KeepsRegs s t ([R.HEDDLE_MGMT_CMD, R.HEDDLE_MGMT_CMD_STAT, (instStateF target.toNat).reg] ++ logRegs P.HEDDLE_MGMT) ∧
      t.heddle = { s.heddle with inst := t.heddle.inst, iotlb := t.heddle.iotlb, walk := t.heddle.walk } ∧ t = { s with regs := t.regs, heddle := t.heddle, resp := ⟨false, 0#64⟩ }) ∧
--w { mgmtA with heddle := { mgmtA.heddle with cq := [] } }; ⟨2, true⟩; 3
  (∀ (s : State) (inst : Fin 32) (us : BitVec 24), s.instState inst.val = 2 ∨ s.instState inst.val = 3 → s.resetQuiet inst.val = true → s.TablesKeyed →
    ∃ t, exec (.resetDone inst us) s = .next t ∧ t.instState inst.val = 1 ∧
      t.fld (instGenF inst.val) = (if s.instState inst.val = 2 then nextGen (s.fld (instGenF inst.val)) else s.fld (instGenF inst.val)) ∧
      t.fld F.HEDDLE_MGMT_RESET_TIME_US = us.toNat ∧ t.fld F.HEDDLE_MGMT_RESET_TIME_INST = inst.val ∧
      t.event P.HEDDLE_MGMT E.HEDDLE_MGMT_RESET_DONE = true ∧
      (∀ e ∈ s.heddle.ch, t.hch e.1 = if e.2.e.inst = inst.val then none else some e.2) ∧
      (∀ e ∈ s.heddle.cq, t.hcq e.1 = if e.2.inst = inst.val then none else some e.2) ∧
      t.heddle.iotlb = s.heddle.iotlb.filter (fun e => e.vmid != inst.val) ∧ t.heddle.walk = s.heddle.walk.filter (fun e => e.vmid != inst.val) ∧
      t.heddle.inst = s.heddle.inst ∧ t.heddle.moved = s.heddle.moved ∧ t.harts = s.harts ∧ t.power = s.power ∧ t.loom = s.loom) ∧
--w (mgmtC.setFld (instStateF 3) 2).setHch 200 { chan0 0 0 item0 with items := [], e := { ent0 0 0 with inst := 3, cq := 100 } }; 3; 0xABCDEF
  (∀ (s : State) (inst : Fin 32) (us : BitVec 24), s.resetQuiet inst.val = false ∨ s.instState inst.val = 0 ∨ s.instState inst.val = 1 →
    ∃ t, exec (.resetDone inst us) s = .next t ∧ t = s)
--w mgmtC; 3; 0xABCDEF

/-- ENCODE, DECODE and BOBBIN_BLOCK. -/
def Obligations.BobbinItemsAndBlocks : Prop :=
  (∀ (s : State) (ch : BitVec 12) (k : HeddleChannel) (it : HeddleItem) (out : List Byte) (e : Nat) (sum : Bool), s.CodecWork ch.toNat k it 0 →
      it.len = 2 * s.fld (F.BOBBIN_CTX_CFG_CHANNELS (k.e.ctx % 16)) * s.fld (F.BOBBIN_CTX_CFG_BLOCK_LEN (k.e.ctx % 16)) → 16 ≤ it.len →
      Bobbin.encode (s.fld (F.BOBBIN_CTX_CFG_MODE (k.e.ctx % 16))) (s.fld (F.BOBBIN_CTX_CFG_CHANNELS (k.e.ctx % 16)))
        (s.fld (F.BOBBIN_CTX_CFG_BLOCK_LEN (k.e.ctx % 16))) (s.fld (F.BOBBIN_CTX_CFG_E (k.e.ctx % 16)))
        (s.fld (F.BOBBIN_CTX_CFG_N (k.e.ctx % 16))) (s.fld (F.BOBBIN_CTX_SEQ_SEQ (k.e.ctx % 16))) (s.bytesAt it.src it.len) = (out, e, sum) →
      0 < out.length → out.length ≤ it.param % 2 ^ 24 →
    ∃ t, exec (.encode ch) s = .next t ∧ t.bytesAt it.dst out.length = out ∧ KeepsMemBut s t it.dst out.length ∧
      t.itemStatus ch.toNat it.index = some (if sum then (6, 0) else (0, e)) ∧
      (t.itemAt ch.toNat it.index).map (fun x => (x.done, x.bytes)) = some (it.len, out.length) ∧
      t.fld (F.BOBBIN_CTX_SEQ_SEQ (k.e.ctx % 16)) = (s.fld (F.BOBBIN_CTX_SEQ_SEQ (k.e.ctx % 16)) + 1) % 2 ^ (F.BOBBIN_CTX_SEQ_SEQ 0).width ∧
      t.fld F.BOBBIN_STAT_CH = ch.toNat ∧ t.bobJob ch.toNat = none ∧ (sum = true → t.event P.BOBBIN E.BOBBIN_SUMMARY = true) ∧
      KeepsRegs s t [F.BOBBIN_STAT_CH.reg, (F.BOBBIN_CTX_SEQ_SEQ (k.e.ctx % 16)).reg, F.BOBBIN_SUMMARY_COUNT_COUNT.reg, R.EVT_RAW P.BOBBIN,
        R.DMC_CHAN_STAT] ∧
      t = { s with regs := t.regs, mem := t.mem, memory := t.memory, heddle := t.heddle, bobbin := t.bobbin }) ∧
--w bobS 0 128 (bobCfg 1 2); 9; bobK 0 128; bobIt 0 128; (Bobbin.encode 1 1 64 2 40 0 bobIn).1; (Bobbin.encode 1 1 64 2 40 0 bobIn).2.1; (Bobbin.encode 1 1 64 2 40 0 bobIn).2.2
  (∀ (s : State) (ch : BitVec 12) (k : HeddleChannel) (it : HeddleItem) (h : Bobbin.Header) (out : List Byte), s.CodecWork ch.toNat k it 1 → 16 ≤ it.len →
      Bobbin.headerOk (s.bytesAt it.src 16) = true → Bobbin.header (s.bytesAt it.src 16) = h → Bobbin.lengthOk h = true → h.length = it.len →
      crc32c (slice 0 12 (s.bytesAt it.src 16) ++ List.replicate 4 0#8 ++ s.bytesAt (it.src + 16) (it.len - 16)) = h.check →
      Bobbin.decodePayload h (s.bytesAt (it.src + 16) (it.len - 16)) = some out → 0 < out.length → out.length ≤ it.param % 2 ^ 24 →
    ∃ t, exec (.decode ch) s = .next t ∧ t.bytesAt it.dst out.length = out ∧ KeepsMemBut s t it.dst out.length ∧
      t.itemStatus ch.toNat it.index = some (if h.ty = 2 then (6, 0) else (0, 0)) ∧
      (t.itemAt ch.toNat it.index).map (fun x => (x.done, x.bytes)) = some (it.len, out.length) ∧ t.bobJob ch.toNat = none ∧
      KeepsRegs s t [F.BOBBIN_STAT_CH.reg, R.DMC_CHAN_STAT] ∧
      t = { s with regs := t.regs, mem := t.mem, memory := t.memory, heddle := t.heddle, bobbin := t.bobbin }) ∧
--w (bobS 1 32 (bobCfg 1 2)).putMem 0x01000100 bobRaw; 9; bobK 1 32; bobIt 1 32; Bobbin.header bobRaw; (List.range 128).map (fun i => if i % 2 = 0 then 0x8D#8 else 0xFF#8)
  (∀ (s : State) (ch : BitVec 12) (k : HeddleChannel) (it : HeddleItem), s.CodecWork ch.toNat k it 1 → 16 ≤ it.len →
      Bobbin.headerOk (s.bytesAt it.src 16) = false →
    ∃ t, exec (.decode ch) s = .next t ∧ t.itemStatus ch.toNat it.index = some (4, 2) ∧ KeepsMem s t ∧ t.fld F.BOBBIN_ERR_LAST_DETAIL = 2 ∧
      t.fld F.BOBBIN_ERR_COUNT = min (2 ^ F.BOBBIN_ERR_COUNT.width - 1) (s.fld F.BOBBIN_ERR_COUNT + 1) ∧
      t.event P.BOBBIN E.BOBBIN_DECODE_ERROR = true ∧
      KeepsRegs s t [F.BOBBIN_STAT_CH.reg, F.BOBBIN_ERR_COUNT.reg, R.EVT_RAW P.BOBBIN] ∧
      t = { s with regs := t.regs, memory := t.memory, heddle := t.heddle, bobbin := t.bobbin }) ∧
--w bobS 1 32 (bobCfg 1 2); 9; bobK 1 32; bobIt 1 32
  (∀ (s : State) (ch : BitVec 12) (k : HeddleChannel) (it : HeddleItem) (n : Nat) (out : List Byte) (e : Nat) (sum : Bool), s.CodecWork ch.toNat k it 0 →
      n = 2 * s.fld (F.BOBBIN_CTX_CFG_CHANNELS (k.e.ctx % 16)) * s.fld (F.BOBBIN_CTX_CFG_BLOCK_LEN (k.e.ctx % 16)) → 0 < n → 2 * n ≤ it.len →
      Bobbin.encode (s.fld (F.BOBBIN_CTX_CFG_MODE (k.e.ctx % 16))) (s.fld (F.BOBBIN_CTX_CFG_CHANNELS (k.e.ctx % 16)))
        (s.fld (F.BOBBIN_CTX_CFG_BLOCK_LEN (k.e.ctx % 16))) (s.fld (F.BOBBIN_CTX_CFG_E (k.e.ctx % 16)))
        (s.fld (F.BOBBIN_CTX_CFG_N (k.e.ctx % 16))) (s.fld (F.BOBBIN_CTX_SEQ_SEQ (k.e.ctx % 16))) (s.bytesAt it.src n) = (out, e, sum) →
      0 < out.length → out.length ≤ it.param % 2 ^ 24 →
    ∃ t, exec (.bobbinBlock ch) s = .next t ∧ t.bytesAt it.dst out.length = out ∧ KeepsMemBut s t it.dst out.length ∧
      (s.itemAt ch.toNat it.index = some it → t.itemAt ch.toNat it.index = some { it with started := true, done := n, bytes := out.length, out := it.out + 1 }) ∧ OnlyWork s t ch.toNat ∧
      t.bobJob ch.toNat = some ⟨s.raw (R.BOBBIN_CTX_CFG (k.e.ctx % 16)), e, sum⟩ ∧
      t.fld (F.BOBBIN_CTX_SEQ_SEQ (k.e.ctx % 16)) = (s.fld (F.BOBBIN_CTX_SEQ_SEQ (k.e.ctx % 16)) + 1) % 2 ^ (F.BOBBIN_CTX_SEQ_SEQ 0).width ∧
      KeepsRegs s t [F.BOBBIN_STAT_CH.reg, (F.BOBBIN_CTX_SEQ_SEQ (k.e.ctx % 16)).reg, F.BOBBIN_SUMMARY_COUNT_COUNT.reg, R.EVT_RAW P.BOBBIN,
        R.DMC_CHAN_STAT] ∧
      t = { s with regs := t.regs, mem := t.mem, memory := t.memory, heddle := t.heddle, bobbin := t.bobbin }) ∧
--w bobS 0 300 (bobCfg 1 2); 9; bobK 0 300; bobIt 0 300; 128; (Bobbin.encode 1 1 64 2 40 0 bobIn).1; (Bobbin.encode 1 1 64 2 40 0 bobIn).2.1; (Bobbin.encode 1 1 64 2 40 0 bobIn).2.2
  (∀ (s : State) (ch : BitVec 12) (k : HeddleChannel) (it : HeddleItem) (h : Bobbin.Header) (out : List Byte), s.CodecWork ch.toNat k it 1 → 16 ≤ it.len →
      Bobbin.headerOk (s.bytesAt it.src 16) = true → Bobbin.header (s.bytesAt it.src 16) = h → Bobbin.lengthOk h = true → h.length < it.len →
      crc32c (slice 0 12 (s.bytesAt it.src 16) ++ List.replicate 4 0#8 ++ s.bytesAt (it.src + 16) (h.length - 16)) = h.check →
      Bobbin.decodePayload h (s.bytesAt (it.src + 16) (h.length - 16)) = some out → 0 < out.length → out.length ≤ it.param % 2 ^ 24 →
    ∃ t, exec (.bobbinBlock ch) s = .next t ∧ t.bytesAt it.dst out.length = out ∧ KeepsMemBut s t it.dst out.length ∧
      (s.itemAt ch.toNat it.index = some it → t.itemAt ch.toNat it.index = some { it with started := true, done := h.length, bytes := out.length, out := it.out + 1 }) ∧
      OnlyWork s t ch.toNat ∧
      t.bobJob ch.toNat = some ⟨s.raw (R.BOBBIN_CTX_CFG (k.e.ctx % 16)), 0, decide (h.ty = 2)⟩ ∧
      KeepsRegs s t [F.BOBBIN_STAT_CH.reg, R.DMC_CHAN_STAT] ∧
      t = { s with regs := t.regs, mem := t.mem, memory := t.memory, heddle := t.heddle, bobbin := t.bobbin }) ∧
--w (bobS 1 300 (bobCfg 1 2)).putMem 0x01000100 bobRaw; 9; bobK 1 300; bobIt 1 300; Bobbin.header bobRaw; (List.range 128).map (fun i => if i % 2 = 0 then 0x8D#8 else 0xFF#8)
  (∀ (s : State) (ch : BitVec 12) (k : HeddleChannel) (it : HeddleItem) (out : List Byte) (e : Nat) (sum : Bool), s.CodecWork ch.toNat k it 0 →
      it.len = 2 * s.fld (F.BOBBIN_CTX_CFG_CHANNELS (k.e.ctx % 16)) * s.fld (F.BOBBIN_CTX_CFG_BLOCK_LEN (k.e.ctx % 16)) → 16 ≤ it.len →
      Bobbin.encode (s.fld (F.BOBBIN_CTX_CFG_MODE (k.e.ctx % 16))) (s.fld (F.BOBBIN_CTX_CFG_CHANNELS (k.e.ctx % 16)))
        (s.fld (F.BOBBIN_CTX_CFG_BLOCK_LEN (k.e.ctx % 16))) (s.fld (F.BOBBIN_CTX_CFG_E (k.e.ctx % 16)))
        (s.fld (F.BOBBIN_CTX_CFG_N (k.e.ctx % 16))) (s.fld (F.BOBBIN_CTX_SEQ_SEQ (k.e.ctx % 16))) (s.bytesAt it.src it.len) = (out, e, sum) →
      it.param % 2 ^ 24 < out.length →
    ∃ t, exec (.encode ch) s = .next t ∧ KeepsMem s t ∧ t.itemStatus ch.toNat it.index = some (4, 1) ∧
      (t.itemAt ch.toNat it.index).map (fun x => x.bytes) = (s.itemAt ch.toNat it.index).map (fun x => x.bytes) ∧
      t.fld (F.BOBBIN_CTX_SEQ_SEQ (k.e.ctx % 16)) = (s.fld (F.BOBBIN_CTX_SEQ_SEQ (k.e.ctx % 16)) + 1) % 2 ^ (F.BOBBIN_CTX_SEQ_SEQ 0).width ∧
      t.event P.BOBBIN E.BOBBIN_CAPACITY = true ∧ t.bobJob ch.toNat = none ∧
      KeepsRegs s t [F.BOBBIN_STAT_CH.reg, (F.BOBBIN_CTX_SEQ_SEQ (k.e.ctx % 16)).reg, R.EVT_RAW P.BOBBIN] ∧
      t = { s with regs := t.regs, memory := t.memory, heddle := t.heddle, bobbin := t.bobbin }) ∧
--w (bobS 0 128 (bobCfg 1 2)).setHch 9 { bobK 0 128 with items := [{ bobIt 0 128 with param := 15 }] }; 9; { bobK 0 128 with items := [{ bobIt 0 128 with param := 15 }] }; { bobIt 0 128 with param := 15 }; (Bobbin.encode 1 1 64 2 40 0 bobIn).1; (Bobbin.encode 1 1 64 2 40 0 bobIn).2.1; (Bobbin.encode 1 1 64 2 40 0 bobIn).2.2
  (∀ (s : State) (ch : BitVec 12) (k : HeddleChannel) (it : HeddleItem), s.CodecWork ch.toNat k it 0 →
      it.len < 2 * s.fld (F.BOBBIN_CTX_CFG_CHANNELS (k.e.ctx % 16)) * s.fld (F.BOBBIN_CTX_CFG_BLOCK_LEN (k.e.ctx % 16)) → 0 < it.len →
    ∃ t, exec (.encode ch) s = .next t ∧ t.itemStatus ch.toNat it.index = some (11, 2) ∧
      (t.itemAt ch.toNat it.index).map (fun x => x.bytes) = (s.itemAt ch.toNat it.index).map (fun x => x.bytes) ∧ t.bobJob ch.toNat = none ∧
      t = { s with heddle := t.heddle, bobbin := t.bobbin }) ∧
--w bobS 0 100 (bobCfg 1 2); 9; bobK 0 100; bobIt 0 100
  (∀ (s : State) (ch : BitVec 12) (k : HeddleChannel) (it : HeddleItem) (d : Nat), s.CodecWork ch.toNat k it 1 → 0 < it.len →
      ((it.len < 16 ∧ d = 3) ∨
       (16 ≤ it.len ∧ Bobbin.headerOk (s.bytesAt it.src 16) = true ∧
        (Bobbin.lengthOk (Bobbin.header (s.bytesAt it.src 16)) = false ∨ it.len < (Bobbin.header (s.bytesAt it.src 16)).length) ∧ d = 3) ∨
       (16 ≤ it.len ∧ Bobbin.headerOk (s.bytesAt it.src 16) = true ∧ Bobbin.lengthOk (Bobbin.header (s.bytesAt it.src 16)) = true ∧
        (Bobbin.header (s.bytesAt it.src 16)).length ≤ it.len ∧
        crc32c (slice 0 12 (s.bytesAt it.src 16) ++ List.replicate 4 0#8 ++
          s.bytesAt (it.src + 16) ((Bobbin.header (s.bytesAt it.src 16)).length - 16)) ≠ (Bobbin.header (s.bytesAt it.src 16)).check ∧ d = 4)) →
    ∃ t, exec (.decode ch) s = .next t ∧ t.itemStatus ch.toNat it.index = some (4, d) ∧ KeepsMem s t ∧ t.fld F.BOBBIN_ERR_LAST_DETAIL = d ∧
      t.fld F.BOBBIN_ERR_COUNT = min (2 ^ F.BOBBIN_ERR_COUNT.width - 1) (s.fld F.BOBBIN_ERR_COUNT + 1) ∧
      t.event P.BOBBIN E.BOBBIN_DECODE_ERROR = true ∧
      KeepsRegs s t [F.BOBBIN_STAT_CH.reg, F.BOBBIN_ERR_COUNT.reg, R.EVT_RAW P.BOBBIN, R.DMC_CHAN_STAT] ∧
      t = { s with regs := t.regs, memory := t.memory, heddle := t.heddle, bobbin := t.bobbin }) ∧
--w bobS 1 15 (bobCfg 1 2); 9; bobK 1 15; bobIt 1 15; 3
--w (bobS 1 31 (bobCfg 1 2)).putMem 0x01000100 bobRaw; 9; bobK 1 31; bobIt 1 31; 3
--w (bobS 1 32 (bobCfg 1 2)).putMem 0x01000100 (bobRaw.take 31 ++ [1#8]); 9; bobK 1 32; bobIt 1 32; 4
  (∀ (s : State) (ch : BitVec 12) (k : HeddleChannel) (it : HeddleItem), s.itemOf ch.toNat 5 = some (k, it) →
      s.running P.BOBBIN = false →
    ∃ t, exec (.bobbinBlock ch) s = .next t ∧ t.itemStatus ch.toNat it.index = some (4, 5) ∧
      (t.itemAt ch.toNat it.index).map (fun x => x.bytes) = (s.itemAt ch.toNat it.index).map (fun x => x.bytes) ∧ t.bobJob ch.toNat = none ∧
      t = { s with heddle := t.heddle, bobbin := t.bobbin }) ∧
--w (bobS 0 128 (bobCfg 1 2)).setReg (R.PAGE_CTRL P.BOBBIN) 0#64 |>.setReg (R.PAGE_STAT P.BOBBIN) 0#64; 9; bobK 0 128; bobIt 0 128
  (∀ (s : State) (ch : BitVec 12) (k : HeddleChannel) (it : HeddleItem), s.itemOf ch.toNat 5 = some (k, it) →
      s.running P.BOBBIN = true → (s.resetting P.BOBBIN = true ∨ s.bobTakes ch.toNat k = false) →
    ∃ t, exec (.bobbinBlock ch) s = .next t ∧ t = s) ∧
--w (bobS 0 128 (bobCfg 1 2)).setFld F.HEDDLE_CFG_CH_OUT_MAX 0; 9; bobK 0 128; bobIt 0 128
  (∀ (s : State) (ch : BitVec 12), s.itemOf ch.toNat 5 = none →
    ∃ t, exec (.encode ch) s = .next t ∧ t = s ∧ exec (.decode ch) s = .next t ∧ exec (.bobbinBlock ch) s = .next t) ∧
--w State.reset; 9
  (∀ (s : State) (ch : BitVec 12) (k : HeddleChannel) (it : HeddleItem), s.itemOf ch.toNat 5 = some (k, it) → it.op ≠ 0 →
    ∃ t, exec (.encode ch) s = .next t ∧ t = s) ∧
--w bobS 1 32 (bobCfg 1 2); 9; bobK 1 32; bobIt 1 32
  (∀ (s : State) (ch : BitVec 12) (k : HeddleChannel) (it : HeddleItem), s.itemOf ch.toNat 5 = some (k, it) → it.op ≠ 1 →
    ∃ t, exec (.decode ch) s = .next t ∧ t = s)
--w bobS 0 128 (bobCfg 1 2); 9; bobK 0 128; bobIt 0 128

/-- DATA (host) and CONTROL. -/
def Obligations.UsbHostPacketsAndControlStages : Prop :=
  (∀ (s : State) (port : Fin 62) (c : Nat) (k : HeddleChannel) (it : HeddleItem), port.val < 48 → s.PipeTurn port.val c k it 0 →
      (s.pipeCfg port.val).ty = 2 → (s.pipeCfg port.val).dirIn = false → it.done < it.len → it.len - it.done ≤ (s.pipeCfg port.val).mps →
      (it.param = 0 ∨ it.len % (s.pipeCfg port.val).mps ≠ 0) → s.PlainRange k.e.inst (it.src + it.done) (it.len - it.done) →
    ∃ t, exec (.data port .ack) s = .next t ∧ t.itemStatus c it.index = some (0, 0) ∧
      (t.itemAt c it.index).map (fun x => x.done) = some it.len ∧
      t.flag (F.USBH_PIPE_STAT_TOGGLE port.val) = ! s.flag (F.USBH_PIPE_STAT_TOGGLE port.val) ∧
      (∀ m : Fin 48, m.val ≠ port.val → t.pipe m.val = s.pipe m.val) ∧ OnlyWork s t c ∧ KeepsMem s t ∧
      KeepsRegs s t [R.USBH_PIPE_STAT port.val] ∧ t = { s with regs := t.regs, memory := t.memory, heddle := t.heddle, usb := t.usb }) ∧
--w usbH usbIt (pipeWord 0 2 0 512 0 0 1); 1; 9; chan0 7 0x41 usbIt; usbIt
  (∀ (s : State) (port : Fin 62) (c : Nat) (k : HeddleChannel) (it : HeddleItem), port.val < 48 → s.PipeTurn port.val c k it 0 →
      (s.pipeCfg port.val).ty = 2 → (s.pipeCfg port.val).dirIn = false → it.param = 1 → it.len - it.done = (s.pipeCfg port.val).mps →
      0 < (s.pipeCfg port.val).mps → it.len % (s.pipeCfg port.val).mps = 0 → (s.pipe port.val).stage ≠ 2 →
      s.PlainRange k.e.inst (it.src + it.done) (it.len - it.done) →
    ∃ t, exec (.data port .ack) s = .next t ∧ (t.itemAt c it.index).map (fun x => x.done) = some it.len ∧
      t.itemStatus c it.index = s.itemStatus c it.index ∧ (t.pipe port.val).stage = 2 ∧
      t.flag (F.USBH_PIPE_STAT_TOGGLE port.val) = (! s.flag (F.USBH_PIPE_STAT_TOGGLE port.val)) ∧
      (∀ m : Fin 48, m.val ≠ port.val → t.pipe m.val = s.pipe m.val) ∧ OnlyWork s t c ∧ KeepsMem s t ∧
      KeepsRegs s t [R.USBH_PIPE_STAT port.val] ∧ t = { s with regs := t.regs, memory := t.memory, heddle := t.heddle, usb := t.usb }) ∧
--w usbH { usbIt with param := 1, len := 512 } (pipeWord 0 2 0 512 0 0 1); 1; 9; chan0 7 0x41 { usbIt with param := 1, len := 512 }; { usbIt with param := 1, len := 512 }
  (∀ (s : State) (port : Fin 62) (c : Nat) (k : HeddleChannel) (it : HeddleItem), port.val < 48 → s.PipeTurn port.val c k it 0 →
      (s.pipeCfg port.val).ty = 2 → (s.pipeCfg port.val).dirIn = false → it.param = 1 → it.done = it.len → (s.pipe port.val).stage = 2 →
    ∃ t, exec (.data port .ack) s = .next t ∧ t.itemStatus c it.index = some (0, 0) ∧
      t.flag (F.USBH_PIPE_STAT_TOGGLE port.val) = (! s.flag (F.USBH_PIPE_STAT_TOGGLE port.val)) ∧
      (∀ m : Fin 48, m.val ≠ port.val → t.pipe m.val = s.pipe m.val) ∧ OnlyWork s t c ∧ KeepsMem s t ∧
      KeepsRegs s t [R.USBH_PIPE_STAT port.val] ∧ t = { s with regs := t.regs, memory := t.memory, heddle := t.heddle, usb := t.usb }) ∧
--w (usbH { usbIt with param := 1, done := 8 } (pipeWord 0 2 0 512 0 0 1)).setPipe 1 { UsbPipe.idle with stage := 2 }; 1; 9; chan0 7 0x41 { usbIt with param := 1, done := 8 }; { usbIt with param := 1, done := 8 }
  (∀ (s : State) (port : Fin 62) (c : Nat) (k : HeddleChannel) (it : HeddleItem) (bs : List Byte), port.val < 48 → s.PipeTurn port.val c k it 0 →
      (s.pipeCfg port.val).ty = 2 → (s.pipeCfg port.val).dirIn = true → 0 < bs.length → it.done + bs.length < it.len →
      bs.length < (s.pipeCfg port.val).mps → s.PlainRange k.e.inst (it.dst + it.done) bs.length →
    ∃ t, exec (.data port (.data (s.flag (F.USBH_PIPE_STAT_TOGGLE port.val)) bs)) s = .next t ∧ t.itemStatus c it.index = some (1, 0) ∧
      t.bytesAt (it.dst + it.done) bs.length = bs ∧ KeepsMemBut s t (it.dst + it.done) bs.length ∧
      (t.itemAt c it.index).map (fun x => x.bytes) = some (it.bytes + bs.length) ∧
      t.flag (F.USBH_PIPE_STAT_TOGGLE port.val) = (! s.flag (F.USBH_PIPE_STAT_TOGGLE port.val)) ∧
      (∀ m : Fin 48, m.val ≠ port.val → t.pipe m.val = s.pipe m.val) ∧ OnlyWork s t c ∧
      KeepsRegs s t [R.USBH_PIPE_STAT port.val, R.DMC_CHAN_STAT] ∧
      t = { s with regs := t.regs, mem := t.mem, memory := t.memory, heddle := t.heddle, usb := t.usb }) ∧
--w usbH usbIt (pipeWord 1 2 0 512 0 0 1); 1; 9; chan0 7 0x41 usbIt; usbIt; [1#8, 2#8, 3#8]
  (∀ (s : State) (port : Fin 62) (c : Nat) (k : HeddleChannel) (it : HeddleItem) (bs : List Byte), port.val < 48 → s.PipeTurn port.val c k it 0 →
      (s.pipeCfg port.val).ty = 2 → (s.pipeCfg port.val).dirIn = true →
    ∃ t, exec (.data port (.data (! s.flag (F.USBH_PIPE_STAT_TOGGLE port.val)) bs)) s = .next t ∧
      t.pipe port.val = { s.pipe port.val with errs := 0 } ∧ (∀ m : Fin 48, m.val ≠ port.val → t.pipe m.val = s.pipe m.val) ∧
      t = { s with usb := t.usb }) ∧
--w usbH usbIt (pipeWord 1 2 0 512 0 0 1); 1; 9; chan0 7 0x41 usbIt; usbIt; [1#8, 2#8, 3#8]
  (∀ (s : State) (port : Fin 62) (c : Nat) (k : HeddleChannel) (it : HeddleItem) (bs : List Byte), port.val < 48 → s.PipeTurn port.val c k it 0 →
      (s.pipeCfg port.val).ty = 2 → (s.pipeCfg port.val).dirIn = true →
      ((s.pipeCfg port.val).mps < bs.length ∨ it.len - it.done < bs.length) →
    ∃ t, exec (.data port (.data (s.flag (F.USBH_PIPE_STAT_TOGGLE port.val)) bs)) s = .next t ∧ t.itemStatus c it.index = some (4, 3) ∧
      t.flag (F.USBH_PIPE_STAT_HALTED port.val) = true ∧ t.fld (F.USBH_PIPE_STAT_LAST_DETAIL port.val) = 3 ∧
      t.event P.USBH E.USBH_PIPE_HALT = true ∧ OnlyWork s t c ∧
      KeepsRegs s t [R.USBH_PIPE_STAT port.val, R.EVT_RAW P.USBH] ∧ t = { s with regs := t.regs, heddle := t.heddle, usb := t.usb }) ∧
--w usbH usbIt (pipeWord 1 2 0 512 0 0 1); 1; 9; chan0 7 0x41 usbIt; usbIt; List.replicate 9 7#8
  (∀ (s : State) (port : Fin 62) (c : Nat) (k : HeddleChannel) (it : HeddleItem) (bs : List Byte), port.val < 48 → s.PipeTurn port.val c k it 0 →
      (s.pipeCfg port.val).ty = 2 → (s.pipeCfg port.val).dirIn = true → 0 < bs.length → it.done + bs.length = it.len →
      bs.length ≤ (s.pipeCfg port.val).mps → s.PlainRange k.e.inst (it.dst + it.done) bs.length →
    ∃ t, exec (.data port (.data (s.flag (F.USBH_PIPE_STAT_TOGGLE port.val)) bs)) s = .next t ∧ t.itemStatus c it.index = some (0, 0) ∧
      t.bytesAt (it.dst + it.done) bs.length = bs ∧ KeepsMemBut s t (it.dst + it.done) bs.length ∧
      t.flag (F.USBH_PIPE_STAT_TOGGLE port.val) = ! s.flag (F.USBH_PIPE_STAT_TOGGLE port.val) ∧
      (∀ m : Fin 48, m.val ≠ port.val → t.pipe m.val = s.pipe m.val) ∧ OnlyWork s t c ∧
      KeepsRegs s t [R.USBH_PIPE_STAT port.val, R.DMC_CHAN_STAT] ∧
      t = { s with regs := t.regs, mem := t.mem, memory := t.memory, heddle := t.heddle, usb := t.usb }) ∧
--w usbH usbIt (pipeWord 1 2 0 512 0 0 1); 1; 9; chan0 7 0x41 usbIt; usbIt; [1#8, 2#8, 3#8, 4#8, 5#8, 6#8, 7#8, 8#8]
  (∀ (s : State) (port : Fin 62) (c : Nat) (k : HeddleChannel) (it : HeddleItem), port.val < 48 → s.PipeTurn port.val c k it 0 →
      (s.pipeCfg port.val).ty = 2 → (s.pipeCfg port.val).dirIn = true →
    ∃ t, exec (.data port .nak) s = .next t ∧
      t.pipe port.val = { s.pipe port.val with hold := s.fld F.USBH_CTRL_NAK_HOLDOFF, ping := false, errs := 0 } ∧
      (∀ m : Fin 48, m.val ≠ port.val → t.pipe m.val = s.pipe m.val) ∧ t = { s with usb := t.usb }) ∧
--w (usbH usbIt (pipeWord 1 2 0 512 0 0 1)).setFld F.USBH_CTRL_NAK_HOLDOFF 7; 1; 9; chan0 7 0x41 usbIt; usbIt
  (∀ (s : State) (port : Fin 62) (c : Nat) (k : HeddleChannel) (it : HeddleItem), port.val < 48 → s.PipeTurn port.val c k it 0 →
      (s.pipeCfg port.val).ty = 2 → (s.pipeCfg port.val).dirIn = true →
    ∃ t, exec (.data port .stall) s = .next t ∧ t.itemStatus c it.index = some (4, 1) ∧ t.flag (F.USBH_PIPE_STAT_HALTED port.val) = true ∧
      t.fld (F.USBH_PIPE_STAT_LAST_DETAIL port.val) = 1 ∧ t.event P.USBH E.USBH_PIPE_HALT = true ∧ OnlyWork s t c ∧
      KeepsRegs s t [R.USBH_PIPE_STAT port.val, R.EVT_RAW P.USBH] ∧ t = { s with regs := t.regs, heddle := t.heddle, usb := t.usb }) ∧
--w usbH usbIt (pipeWord 1 2 0 512 0 0 1); 1; 9; chan0 7 0x41 usbIt; usbIt
  (∀ (s : State) (port : Fin 62) (c : Nat) (k : HeddleChannel) (it : HeddleItem), port.val < 48 → s.PipeTurn port.val c k it 0 →
      (s.pipeCfg port.val).ty = 2 → (s.pipeCfg port.val).dirIn = true →
    ∃ t, exec (.data port .error) s = .next t ∧ t.event P.USBH E.USBH_XACT_ERR = true ∧
      t.fld F.USBH_ERR_COUNT = min (2 ^ F.USBH_ERR_COUNT.width - 1) (s.fld F.USBH_ERR_COUNT + 1) ∧
      (2 ≤ (s.pipe port.val).errs → t.itemStatus c it.index = some (4, 2)) ∧
      ((s.pipe port.val).errs < 2 → t.pipe port.val = { s.pipe port.val with errs := (s.pipe port.val).errs + 1 } ∧ t.heddle = s.heddle) ∧
      KeepsRegs s t [R.USBH_ERR, R.USBH_PIPE_STAT port.val, R.EVT_RAW P.USBH] ∧
      t = { s with regs := t.regs, heddle := t.heddle, usb := t.usb }) ∧
--w usbH usbIt (pipeWord 1 2 0 512 0 0 1); 1; 9; chan0 7 0x41 usbIt; usbIt
--w (usbH usbIt (pipeWord 1 2 0 512 0 0 1)).setPipe 1 { UsbPipe.idle with errs := 2 }; 1; 9; chan0 7 0x41 usbIt; usbIt
  (∀ (s : State) (n : Fin 48) (c : Nat) (k : HeddleChannel) (it : HeddleItem), s.PipeTurn n.val c k it 1 → (s.pipeCfg n.val).ty = 0 →
      s.PlainRange k.e.inst it.src 8 → (leNat (s.bytesAt it.src 8)).testBit 7 = true → it.len = 8 → (s.pipe n.val).stage = 0 →
    ∃ t, exec (.control n .ack) s = .next t ∧ t.flag (F.USBH_PIPE_STAT_TOGGLE n.val) = true ∧
      (t.pipe n.val).stage = (if leNat (s.bytesAt it.src 8) / 2 ^ 48 % 2 ^ 16 = 0 then 2 else 1) ∧
      (s.itemAt c it.index = some it → t.itemAt c it.index = some { it with started := true }) ∧ OnlyWork s t c ∧ KeepsMem s t ∧
      KeepsRegs s t [R.USBH_PIPE_STAT n.val] ∧ t = { s with regs := t.regs, memory := t.memory, heddle := t.heddle, usb := t.usb }) ∧
--w (usbH { usbIt with op := 1 } (pipeWord 0 0 0 64 0 0 1)).putMem 0x01000100 [0x80#8, 6#8, 0#8, 1#8, 0#8, 0#8, 18#8, 0#8]; 1; 9; chan0 7 0x41 { usbIt with op := 1 }; { usbIt with op := 1 }
  (∀ (s : State) (n : Fin 48) (c : Nat) (k : HeddleChannel) (it : HeddleItem), s.PipeTurn n.val c k it 1 → (s.pipeCfg n.val).ty = 0 →
      s.PlainRange k.e.inst it.src 8 → (leNat (s.bytesAt it.src 8)).testBit 7 = false →
      it.len = 8 + leNat (s.bytesAt it.src 8) / 2 ^ 48 % 2 ^ 16 → (s.pipe n.val).stage = 2 →
    ∃ t, exec (.control n (.data true [])) s = .next t ∧ t.itemStatus c it.index = some (0, 0) ∧
      t.flag (F.USBH_PIPE_STAT_TOGGLE n.val) = false ∧ (t.pipe n.val).stage = 0 ∧ OnlyWork s t c ∧ KeepsMem s t ∧
      KeepsRegs s t [R.USBH_PIPE_STAT n.val] ∧ t = { s with regs := t.regs, memory := t.memory, heddle := t.heddle, usb := t.usb }) ∧
--w ((usbH { usbIt with op := 1 } (pipeWord 0 0 0 64 0 0 1)).putMem 0x01000100 [0#8, 9#8, 1#8, 0#8, 0#8, 0#8, 0#8, 0#8]).setPipe 1 { UsbPipe.idle with stage := 2 }; 1; 9; chan0 7 0x41 { usbIt with op := 1 }; { usbIt with op := 1 }
  (∀ (s : State) (n : Fin 48) (port : Fin 62) (c : Nat) (k : HeddleChannel) (it : HeddleItem) (r : UsbReply), port.val = n.val →
      s.PortWork 7 (0x40 + n.val) c k it → s.usbLive P.USBH = true → (it.op ≠ b2n (decide ((s.pipeCfg n.val).ty = 0)) ∨ 2 ≤ it.param) →
    ∃ t, exec (.data port r) s = .next t ∧ t.itemStatus c it.index = some (11, 1) ∧ OnlyWork s t c ∧ exec (.control n r) s = .next t ∧
      t = { s with heddle := t.heddle, usb := t.usb }) ∧
--w usbH { usbIt with op := 1 } (pipeWord 1 2 0 512 0 0 1); 1; 1; 9; chan0 7 0x41 { usbIt with op := 1 }; { usbIt with op := 1 }; .ack
--w usbH { usbIt with param := 2 } (pipeWord 1 2 0 512 0 0 1); 1; 1; 9; chan0 7 0x41 { usbIt with param := 2 }; { usbIt with param := 2 }; .ack
  (∀ (s : State) (n : Fin 48) (port : Fin 62) (c : Nat) (k : HeddleChannel) (it : HeddleItem) (r : UsbReply) (d : Nat), port.val = n.val →
      s.PortWork 7 (0x40 + n.val) c k it → s.usbLive P.USBH = true → it.op = b2n (decide ((s.pipeCfg n.val).ty = 0)) → it.param < 2 →
      s.pipeBlocked n.val = some d →
    ∃ t, (if it.op = 0 then exec (.data port r) s else exec (.control n r) s) = .next t ∧ t.itemStatus c it.index = some (4, d) ∧
      t.fld (F.USBH_PIPE_STAT_LAST_DETAIL n.val) = d ∧ OnlyWork s t c ∧
      KeepsRegs s t [R.USBH_PIPE_STAT n.val, R.EVT_RAW P.USBH] ∧ t = { s with regs := t.regs, heddle := t.heddle, usb := t.usb }) ∧
--w (usbH usbIt (pipeWord 1 2 0 512 0 0 1)).setReg (R.USBHUB_PORT 0) 0#64; 1; 1; 9; chan0 7 0x41 usbIt; usbIt; .ack; 4
  (∀ (s : State) (n : Fin 48) (port : Fin 62) (r : UsbReply), port.val = n.val →
      (s.usbItem (0x40 + n.val) = none ∨ s.usbLive P.USBH = false ∨
       (s.usbItem (0x40 + n.val)).any (fun x => ! s.mayMove x.2.1) = true) →
    ∃ t, exec (.data port r) s = .next t ∧ t = s ∧ exec (.control n r) s = .next t)
--w State.reset; 47; 47; .ack
--w (usbH usbIt (pipeWord 1 2 0 512 0 0 1)).setFld F.HEDDLE_CFG_CH_OUT_MAX 0; 1; 1; .ack

/-- USBH_PIPE_CFG_WRITE, MICROFRAME, ROOT_RESET and SPLIT_TRANSACTION. -/
def Obligations.UsbHostScheduleAndSplitTransactions : Prop :=
  (∀ (s : State) (q : Req) (n : Fin 48) (v : BitVec 64), OpenTo s q P.USBH → (PipeCfg.of v).fieldBad = false →
      s.pipeBusy n.val = false → ((PipeCfg.of v).periodic = true → admission (s.livePeriodic n.val ++ [PipeCfg.of v]) = none) →
    ∃ t, exec (.usbhPipeCfgWrite q n v) s = .next t ∧ t.pipeCfg n.val = PipeCfg.of v ∧
      (∀ m : Fin 48, m.val ≠ n.val → t.pipeCfg m.val = s.pipeCfg m.val) ∧
      t.flag (F.USBH_PIPE_STAT_SUSPENDED n.val) =
        (decide (1 ≤ (PipeCfg.of v).port ∧ (PipeCfg.of v).port ≤ 4) && s.portIs ((PipeCfg.of v).port - 1) 2) ∧
      KeepsPages s t [P.USBH] ∧ t = { s with regs := t.regs, resp := t.resp }) ∧
--w State.reset; ⟨0, true⟩; 47; BitVec.ofNat 64 (pipeWord 1 2 0 512 0 0 1)
  (∀ (s : State) (q : Req) (n : Fin 48) (v : BitVec 64), OpenTo s q P.USBH → (PipeCfg.of v).fieldBad = true →
    ∃ t, exec (.usbhPipeCfgWrite q n v) s = .next t ∧ t.event P.USBH 31 = true ∧
      (s.flag (F.CLAMP_ADDR_VALID P.USBH) = false → t.fld (F.CLAMP_ADDR_REASON P.USBH) = 5) ∧
      KeepsRegs s t (logRegs P.USBH) ∧ t = { s with regs := t.regs, resp := t.resp }) ∧
--w State.reset; ⟨0, true⟩; 47; BitVec.ofNat 64 (pipeWord 1 2 0 511 0 0 1)
  (∀ (s : State) (q : Req) (n : Fin 48) (v : BitVec 64), OpenTo s q P.USBH → (PipeCfg.of v).fieldBad = false → s.pipeBusy n.val = true →
      { PipeCfg.of v with en := (s.pipeCfg n.val).en } ≠ s.pipeCfg n.val →
    ∃ t, exec (.usbhPipeCfgWrite q n v) s = .next t ∧ t.event P.USBH 31 = true ∧
      (s.flag (F.CLAMP_ADDR_VALID P.USBH) = false → t.fld (F.CLAMP_ADDR_REASON P.USBH) = 4) ∧
      KeepsRegs s t (logRegs P.USBH) ∧ t = { s with regs := t.regs, resp := t.resp }) ∧
--w usbH usbIt (pipeWord 1 2 0 512 0 0 1); ⟨0, true⟩; 1; BitVec.ofNat 64 (pipeWord 0 2 0 512 0 0 1)
  (∀ (s : State) (q : Req) (n : Fin 48) (v : BitVec 64) (reason detail : Nat), OpenTo s q P.USBH → (PipeCfg.of v).fieldBad = false →
      s.pipeBusy n.val = false → (PipeCfg.of v).periodic = true → admission (s.livePeriodic n.val ++ [PipeCfg.of v]) = some (reason, detail) →
    ∃ t, exec (.usbhPipeCfgWrite q n v) s = .next t ∧ t.event P.USBH 31 = true ∧ t.event P.USBH E.USBH_SCHED_REFUSED = true ∧
      (s.flag (F.CLAMP_ADDR_VALID P.USBH) = false → t.fld (F.CLAMP_ADDR_REASON P.USBH) = reason) ∧
      KeepsRegs s t (logRegs P.USBH) ∧ t = { s with regs := t.regs, resp := t.resp }) ∧
--w (State.reset.setReg (R.USBH_PIPE_CFG 3) (BitVec.ofNat 64 (pipeWord 1 1 0 1024 0 0 1 + 2 ^ 28))).setReg (R.USBH_PIPE_CFG 4) (BitVec.ofNat 64 (pipeWord 1 1 0 1024 0 0 1 + 2 ^ 28)); ⟨0, true⟩; 47; BitVec.ofNat 64 (pipeWord 1 3 0 1024 0 0 1); 1; 2 ^ 16 * 7616
  (∀ (s : State), s.usbLive P.USBH = true → s.flag F.USBH_CTRL_RUN = true → SMap.wf (fun _ => UsbPipe.idle) s.usb.pipes = true →
    ∃ t, exec (.microframe none) s = .next t ∧
      t.fld F.USBH_FRAME_UFRAME + 8 * t.fld F.USBH_FRAME_FRAME = (s.fld F.USBH_FRAME_UFRAME + 8 * s.fld F.USBH_FRAME_FRAME + 1) % 16384 ∧
      t.usb.starts = [] ∧
      (∀ n : Fin 48, t.usb.due.any (fun e => e.1 == n.val) = ((s.pipeCfg n.val).en && (s.pipeCfg n.val).periodic &&
        (s.pipeCfg n.val).due ((s.fld F.USBH_FRAME_UFRAME + 8 * s.fld F.USBH_FRAME_FRAME + 1) % 4096) &&
        ! (decide ((s.pipeCfg n.val).ty = 1) && (s.usbItem (0x40 + n.val)).isNone))) ∧
      (∀ n : Fin 48, t.pipe n.val = { s.pipe n.val with
        hold := (s.pipe n.val).hold - 1, since := (s.pipe n.val).since.bind (fun k => if k < 4 then some (k + 1) else none) }) ∧
      KeepsPages s t [P.USBH] ∧ t = { s with regs := t.regs, usb := { s.usb with due := t.usb.due, starts := [], pipes := t.usb.pipes } }) ∧
--w (usbH usbIt (pipeWord 1 3 0 64 0 0 1)).setPipe 7 { UsbPipe.idle with hold := 3, since := some 2 }
  (∀ (s : State) (f : BitVec 11), (s.usbLive P.USBH && s.flag F.USBH_CTRL_RUN) = false → s.usbLive P.USBD = true →
      s.flag F.USBD_STAT_ATTACHED = true → s.flag F.USBD_STAT_SUSPENDED = false →
    ∃ t, exec (.microframe (some f)) s = .next t ∧ t.fld F.USBD_FRAME_FRAME = f.toNat ∧
      t.fld F.USBD_FRAME_UFRAME = (if s.fld F.USBD_STAT_SPEED = 2 ∧ s.fld F.USBD_FRAME_FRAME = f.toNat then (s.fld F.USBD_FRAME_UFRAME + 1) % 8 else 0) ∧
      KeepsRegs s t [R.USBD_FRAME] ∧ t = { s with regs := t.regs }) ∧
--w (usbD 0x72 usbIt).setFld F.USBD_STAT_SPEED 2 |>.setFld F.USBD_FRAME_FRAME 77; 77
--w usbD 0x72 usbIt; 5
  (∀ (s : State) (f : BitVec 11), s.flag F.USBD_STAT_SUSPENDED = true ∨ s.usbLive P.USBD = false →
    (s.usbLive P.USBH && s.flag F.USBH_CTRL_RUN) = false → ∃ t, exec (.microframe (some f)) s = .next t ∧ t = s) ∧
--w State.reset; 5
  (∀ (s : State), (s.usbLive P.USBH && s.flag F.USBH_CTRL_RUN) = false → ∃ t, exec (.microframe none) s = .next t ∧ t = s) ∧
--w State.reset
  (∀ (s : State) (q : Req) (run : Bool) (holdoff : BitVec 6), OpenTo s q P.USBH →
      s.usbLive P.USBH = true → (∀ n : Fin 48, s.usbItem (0x40 + n.val) = none ∨ (s.pipeCfg n.val).port = 0) →
    ∃ t, exec (.rootReset q run holdoff) s = .next t ∧ t.raw R.USBHUB_STAT = 0#64 ∧ t.fld F.USBH_STAT_HUB_ADDR = 0 ∧
      (∀ p : Fin 4, t.raw (R.USBHUB_PORT p.val) = 0#64) ∧ t.usb.hubToggle = false ∧ t.usb.hubHalt = false ∧
      t.usb.hubId = (s.raw R.USBHUB_ID).toNat % 2 ^ 32 ∧ t.flag F.USBH_CTRL_RUN = run ∧
      t.event P.USBH E.USBH_ROOT_RESET_DONE = true ∧ KeepsPages s t [P.USBH, P.USBHUB] ∧
      t = { s with regs := t.regs, resp := t.resp, usb := t.usb }) ∧
--w usbH usbIt (pipeWord 1 3 0 64 0 0 0); ⟨0, true⟩; true; 9
  (∀ (s : State) (n : Fin 48) (c : Nat) (k : HeddleChannel) (it : HeddleItem), s.PortWork 7 (0x40 + n.val) c k it → s.usbLive P.USBH = true →
      s.pipeBlocked n.val = none → s.mayToken n.val = true → it.op = 0 → it.param = 0 → (s.pipeCfg n.val).speed = 1 → (s.pipeCfg n.val).ty = 2 →
      1 ≤ (s.pipeCfg n.val).port → (s.pipeCfg n.val).port ≤ 4 → (s.pipe n.val).split = false → (s.pipe n.val).since = none →
      (s.usb.tt.filter (fun b => b.port == (s.pipeCfg n.val).port - 1)).length < 4 →
    ∃ t, exec (.splitTransaction n false none) s = .next t ∧
      t.usb.tt = s.usb.tt ++ [⟨(s.pipeCfg n.val).port - 1, n.val, (s.pipeCfg n.val).addr, (s.pipeCfg n.val).ep, (s.pipeCfg n.val).dirIn, false⟩] ∧
      t.pipe n.val = { s.pipe n.val with split := true } ∧
      t.fld (F.USBHUB_TT_NP_USED ((s.pipeCfg n.val).port - 1)) = (s.usb.tt.filter (fun b => b.port == (s.pipeCfg n.val).port - 1)).length + 1 ∧
      (∀ m : Fin 48, m.val ≠ n.val → t.pipe m.val = s.pipe m.val) ∧ KeepsRegs s t ((List.range 4).map R.USBHUB_TT) ∧
      t = { s with regs := t.regs, usb := t.usb }) ∧
--w usbH usbIt (pipeWord 0 2 1 64 0 0 1); 1; 9; chan0 7 0x41 usbIt; usbIt
  (∀ (s : State) (n : Fin 48) (c : Nat) (k : HeddleChannel) (it : HeddleItem), s.PortWork 7 (0x40 + n.val) c k it → s.usbLive P.USBH = true →
      s.pipeBlocked n.val = none → s.mayToken n.val = true → it.op = 0 → it.param = 0 → (s.pipeCfg n.val).speed = 1 → (s.pipeCfg n.val).ty = 2 →
      1 ≤ (s.pipeCfg n.val).port → (s.pipeCfg n.val).port ≤ 4 → (s.pipe n.val).split = false → (s.pipe n.val).since = none →
      4 ≤ (s.usb.tt.filter (fun b => b.port == (s.pipeCfg n.val).port - 1)).length →
    ∃ t, exec (.splitTransaction n false none) s = .next t ∧ t.event P.USBHUB E.USBHUB_TT_NAK = true ∧
      t.fld (F.USBHUB_TT_NAKS ((s.pipeCfg n.val).port - 1)) = min 65535 (s.fld (F.USBHUB_TT_NAKS ((s.pipeCfg n.val).port - 1)) + 1) ∧
      t.pipe n.val = { s.pipe n.val with hold := s.fld F.USBH_CTRL_NAK_HOLDOFF, ping := false, errs := 0 } ∧
      (∀ m : Fin 48, m.val ≠ n.val → t.pipe m.val = s.pipe m.val) ∧ t.usb.tt = s.usb.tt ∧
      KeepsRegs s t [R.USBHUB_TT ((s.pipeCfg n.val).port - 1), R.EVT_RAW P.USBHUB] ∧ t = { s with regs := t.regs, usb := t.usb }) ∧
--w fullTt; 1; 9; chan0 7 0x41 usbIt; usbIt
  (∀ (s : State) (n : Fin 48) (c : Nat) (k : HeddleChannel) (it : HeddleItem), s.PortWork 7 (0x40 + n.val) c k it → s.usbLive P.USBH = true →
      s.pipeBlocked n.val = none → s.mayToken n.val = true → it.op = 0 → it.param = 0 → (s.pipeCfg n.val).speed = 1 → (s.pipeCfg n.val).ty = 3 →
      1 ≤ (s.pipeCfg n.val).port → (s.pipeCfg n.val).port ≤ 4 → (s.pipe n.val).split = false → (s.pipe n.val).since = none →
    ∃ t, exec (.splitTransaction n false none) s = .next t ∧ t.pipe n.val = { s.pipe n.val with since := some 0 } ∧
      t.startsOn ((s.pipeCfg n.val).port - 1) = s.startsOn ((s.pipeCfg n.val).port - 1) + 1 ∧
      (∀ m : Fin 48, m.val ≠ n.val → t.pipe m.val = s.pipe m.val) ∧ t.usb.tt = s.usb.tt ∧
      KeepsRegs s t [R.USBHUB_TT ((s.pipeCfg n.val).port - 1)] ∧ t = { s with regs := t.regs, usb := t.usb }) ∧
--w dueS; 1; 9; chan0 7 0x41 usbIt; usbIt
  (∀ (s : State) (n : Fin 48) (complete : Bool) (r : Option UsbReply),
      (s.usbItem (0x40 + n.val) = none ∨ s.usbLive P.USBH = false ∨ (s.pipeCfg n.val).viaTt = false) →
    ∃ t, exec (.splitTransaction n complete r) s = .next t ∧ t = s) ∧
--w State.reset; 47; true; some .ack
--w usbH usbIt (pipeWord 1 2 0 512 0 0 1); 1; true; some .ack
  (∀ (s : State) (n : Fin 48) (c : Nat) (k : HeddleChannel) (it : HeddleItem), s.PortWork 7 (0x40 + n.val) c k it → s.usbLive P.USBH = true →
      s.pipeBlocked n.val = none → s.mayToken n.val = true → it.op = 0 → it.param = 0 → (s.pipeCfg n.val).speed = 1 → (s.pipeCfg n.val).ty = 2 →
      (s.pipeCfg n.val).dirIn = false → (s.pipe n.val).split = true → (s.pipe n.val).ping = false → it.done < it.len →
      it.len - it.done ≤ (s.pipeCfg n.val).mps → s.PlainRange k.e.inst (it.src + it.done) (it.len - it.done) →
    ∃ t, exec (.splitTransaction n true (some .ack)) s = .next t ∧ t.itemStatus c it.index = some (0, 0) ∧
      t.usb.tt = s.usb.tt.filter (fun b => b.pipe != n.val) ∧
      t.flag (F.USBH_PIPE_STAT_TOGGLE n.val) = ! s.flag (F.USBH_PIPE_STAT_TOGGLE n.val) ∧ OnlyWork s t c ∧ KeepsMem s t ∧
      KeepsRegs s t (R.USBH_PIPE_STAT n.val :: (List.range 4).map R.USBHUB_TT) ∧
      t = { s with regs := t.regs, memory := t.memory, heddle := t.heddle, usb := t.usb })
--w splitS; 1; 9; chan0 7 0x41 usbIt; usbIt

/-- PORT_POWER, CLEAR_PORT_POWER, OVER_CURRENT, OVER_CURRENT_CLEAR, PORT_RESET, PORT_SUSPEND and PORT_RESUME. -/
def Obligations.UsbHubPortPowerResetAndSuspend : Prop :=
  (∀ (s : State) (p : Fin 4) (line : UsbLine), s.usbLive P.USBHUB = true → s.flag (F.USBHUB_OC_ACTIVE p.val) = false → s.portIs p.val 0 = false →
    ∃ t, exec (.portPower p (some line)) s = .next t ∧ t.portIs p.val 8 = true ∧ t.portIs p.val 0 = true ∧
      t.portIs p.val 9 = decide (line = .low) ∧ t.flag (portBitF p.val 16) = true ∧ t.portLine p.val = lineCode line ∧
      t.event P.USBHUB E.USBHUB_PORT_CHANGE = true ∧
      (∀ b : Fin 32, b.val ≠ 8 → b.val ≠ 0 → b.val ≠ 9 → b.val ≠ 16 → t.flag (portBitF p.val b.val) = s.flag (portBitF p.val b.val)) ∧
      KeepsRegs s t [R.USBHUB_PORT p.val, R.EVT_RAW P.USBHUB] ∧ t = { s with regs := t.regs, usb := { s.usb with lines := t.usb.lines } }) ∧
--w on State.reset P.USBHUB; 3; .low
  (∀ (s : State) (p : Fin 4) (line : Option UsbLine), s.usbLive P.USBHUB = true → s.flag (F.USBHUB_OC_ACTIVE p.val) = true →
    ∃ t, exec (.portPower p line) s = .next t ∧ t.portIs p.val 8 = false ∧ t.portIs p.val 3 = true ∧
      KeepsRegs s t [R.USBHUB_PORT p.val] ∧ t = { s with regs := t.regs, usb := { s.usb with lines := t.usb.lines } }) ∧
--w (on State.reset P.USBHUB).setFld (F.USBHUB_OC_ACTIVE 3) 1; 3; some .low
  (∀ (s : State) (p : Fin 4), s.usbLive P.USBHUB = true → (∀ n : Fin 48, (s.pipeCfg n.val).port = p.val + 1 → s.usbItem (0x40 + n.val) = none) →
    ∃ t, exec (.clearPortPower p) s = .next t ∧ t.portIs p.val 8 = false ∧ t.portIs p.val 0 = false ∧ t.portIs p.val 1 = false ∧
      t.portIs p.val 2 = false ∧ (s.portIs p.val 0 = true → t.flag (portBitF p.val 16) = true ∧ t.event P.USBHUB E.USBHUB_PORT_CHANGE = true) ∧
      t.usb.tt = s.usb.tt.filter (fun b => b.port != p.val) ∧ t.fld (F.USBHUB_TT_NP_USED p.val) = 0 ∧
      (∀ k : Fin 4, k.val ≠ p.val → t.raw (R.USBHUB_PORT k.val) = s.raw (R.USBHUB_PORT k.val)) ∧
      KeepsPages s t [P.USBH, P.USBHUB] ∧ t = { s with regs := t.regs, usb := t.usb }) ∧
--w splitS; 1
  (∀ (s : State) (p : Fin 4), s.usbLive P.USBHUB = true → s.TablesKeyed →
    ∃ t, exec (.overCurrent p) s = .next t ∧ t.portIs p.val 8 = false ∧ t.portIs p.val 1 = false ∧ t.portIs p.val 3 = true ∧
      t.portIs p.val 0 = s.portIs p.val 0 ∧ t.flag (portBitF p.val 19) = true ∧ t.flag (F.USBHUB_OC_ACTIVE p.val) = true ∧
      t.fld (F.USBHUB_OC_COUNT p.val) = min (2 ^ (F.USBHUB_OC_COUNT 0).width - 1) (s.fld (F.USBHUB_OC_COUNT p.val) + 1) ∧
      t.event P.USBHUB E.USBHUB_OVER_CURRENT = true ∧ t.event P.USBHUB E.USBHUB_PORT_CHANGE = true ∧
      (∀ n : Fin 48, (s.pipeCfg n.val).port = p.val + 1 → (s.usbItem (0x40 + n.val)).all (fun x => t.itemStatus x.1 x.2.2.index == some (4, 4)) = true) ∧
      KeepsPages s t [P.USBH, P.USBHUB] ∧ t = { s with regs := t.regs, heddle := t.heddle, usb := t.usb }) ∧
--w usbH usbIt (pipeWord 1 2 0 512 0 0 1); 0
--w (on State.reset P.USBHUB).setFld (F.USBHUB_OC_COUNT 3) 0xFFFF; 3
  (∀ (s : State) (p : Fin 4), s.usbLive P.USBHUB = true → s.bankLive 2 = true →
    ∃ t, exec (.overCurrentClear p) s = .next t ∧ t.flag (F.USBHUB_OC_ACTIVE p.val) = false ∧ t.portIs p.val 3 = false ∧
      t.portIs p.val 8 = s.portIs p.val 8 ∧ t.fld (F.USBHUB_OC_COUNT p.val) = s.fld (F.USBHUB_OC_COUNT p.val) ∧
      KeepsRegs s t [R.USBHUB_PORT p.val, R.USBHUB_OC p.val] ∧ t = { s with regs := t.regs }) ∧
--w ((on State.reset P.USBHUB).setFld (F.USBHUB_OC_ACTIVE 3) 1).setFld (F.USBHUB_OC_COUNT 3) 5; 3
  (∀ (s : State) (p : Fin 4) (line : UsbLine), s.usbLive P.USBHUB = true → s.portIs p.val 8 = true → s.portIs p.val 0 = true →
    ∃ t, exec (.portReset p line) s = .next t ∧ t.portIs p.val 1 = true ∧ t.portIs p.val 2 = false ∧ t.portIs p.val 4 = false ∧
      t.portIs p.val 9 = decide (line = .low) ∧ t.portIs p.val 10 = decide (line = .high) ∧ t.flag (portBitF p.val 20) = true ∧
      t.event P.USBHUB E.USBHUB_PORT_CHANGE = true ∧
      KeepsRegs s t (R.USBHUB_PORT p.val :: R.EVT_RAW P.USBHUB :: (List.range 48).map R.USBH_PIPE_STAT) ∧
      t = { s with regs := t.regs, usb := { s.usb with lines := t.usb.lines } }) ∧
--w (on State.reset P.USBHUB).setReg (R.USBHUB_PORT 2) 0x101#64; 2; .high
  (∀ (s : State) (p : Fin 4), s.usbLive P.USBHUB = true → s.portIs p.val 1 = true →
    ∃ t, exec (.portSuspend p) s = .next t ∧ t.portIs p.val 2 = true ∧
      (∀ n : Fin 48, (s.pipeCfg n.val).port = p.val + 1 → t.flag (F.USBH_PIPE_STAT_SUSPENDED n.val) = true) ∧
      (∀ b : Fin 32, b.val ≠ 2 → t.flag (portBitF p.val b.val) = s.flag (portBitF p.val b.val)) ∧
      KeepsRegs s t (R.USBHUB_PORT p.val :: (List.range 48).map R.USBH_PIPE_STAT) ∧ t = { s with regs := t.regs }) ∧
--w usbH usbIt (pipeWord 1 2 0 512 0 0 1); 0
  (∀ (s : State) (p : Fin 4), s.usbLive P.USBHUB = true → s.portIs p.val 2 = true →
    ∃ t, exec (.portResume p) s = .next t ∧ t.portIs p.val 2 = false ∧ t.flag (portBitF p.val 18) = true ∧
      t.event P.USBHUB E.USBHUB_PORT_CHANGE = true ∧
      (∀ n : Fin 48, (s.pipeCfg n.val).port = p.val + 1 → t.flag (F.USBH_PIPE_STAT_SUSPENDED n.val) = false) ∧
      KeepsRegs s t (R.USBHUB_PORT p.val :: R.EVT_RAW P.USBHUB :: (List.range 48).map R.USBH_PIPE_STAT) ∧ t = { s with regs := t.regs }) ∧
--w (usbH usbIt (pipeWord 1 2 0 512 0 0 1)).setReg (R.USBHUB_PORT 0) 0x107#64; 0
  (∀ (s : State) (p : Fin 4), s.usbLive P.USBHUB = true → s.flag (F.USBHUB_OC_ACTIVE p.val) = false →
    ∃ t, exec (.portPower p none) s = .next t ∧ t.portIs p.val 8 = true ∧ t.portLine p.val = 0 ∧
      (∀ b : Fin 32, b.val ≠ 8 → t.flag (portBitF p.val b.val) = s.flag (portBitF p.val b.val)) ∧
      KeepsRegs s t [R.USBHUB_PORT p.val] ∧ t = { s with regs := t.regs, usb := { s.usb with lines := t.usb.lines } }) ∧
--w on State.reset P.USBHUB; 3
  (∀ (s : State) (p : Fin 4) (line : UsbLine), s.usbLive P.USBHUB = true → (s.portIs p.val 8 && s.portIs p.val 0) = false →
    ∃ t, exec (.portReset p line) s = .next t ∧ t = s) ∧
--w on State.reset P.USBHUB; 3; .high
  (∀ (s : State) (p : Fin 4), (s.usbLive P.USBHUB = false ∨ s.portIs p.val 1 = false) → ∃ t, exec (.portSuspend p) s = .next t ∧ t = s) ∧
--w on State.reset P.USBHUB; 3
  (∀ (s : State) (p : Fin 4), (s.usbLive P.USBHUB = false ∨ s.portIs p.val 2 = false) → ∃ t, exec (.portResume p) s = .next t ∧ t = s) ∧
--w on State.reset P.USBHUB; 3
  (∀ (s : State) (p : Fin 4), (s.usbLive P.USBHUB = false ∨ s.bankLive 2 = false) → ∃ t, exec (.overCurrentClear p) s = .next t ∧ t = s) ∧
--w State.reset; 3
  (∀ (s : State) (p : Fin 4) (line : Option UsbLine) (shown : UsbLine), s.usbLive P.USBHUB = false →
    ∃ t, exec (.portPower p line) s = .next t ∧ t = s ∧ exec (.clearPortPower p) s = .next t ∧ exec (.overCurrent p) s = .next t ∧
      exec (.portReset p shown) s = .next t)
--w State.reset; 3; none; .low

/-- CLEAR_TT_BUFFER, RESET_TT, DEVICE_DETACHED and HUB_STANDARD_REQUEST. -/
def Obligations.UsbHubRequestsAndTranslators : Prop :=
  (∀ (s : State) (p : Fin 4) (addr : BitVec 7) (ep : BitVec 4) (dirIn : Bool), s.usbLive P.USBHUB = true →
    ∃ t, exec (.clearTtBuffer p addr ep dirIn) s = .next t ∧
      t.usb.tt = s.usb.tt.filter (fun b => ! (b.port == p.val && b.addr == addr.toNat && b.ep == ep.toNat && (b.control || b.dirIn == dirIn))) ∧
      (∀ b ∈ s.usb.tt, b.port = p.val → b.addr = addr.toNat → b.ep = ep.toNat → (b.control = true ∨ b.dirIn = dirIn) → (t.pipe b.pipe).split = false) ∧
      KeepsRegs s t ((List.range 4).map R.USBHUB_TT) ∧ t = { s with regs := t.regs, usb := { s.usb with tt := t.usb.tt, pipes := t.usb.pipes } }) ∧
--w splitS; 0; 5; 2; false
  (∀ (s : State) (p : Fin 4), s.usbLive P.USBHUB = true →
    ∃ t, exec (.resetTt p) s = .next t ∧ t.usb.tt = s.usb.tt.filter (fun b => b.port != p.val) ∧ t.fld (F.USBHUB_TT_NP_USED p.val) = 0 ∧
      (∀ n : Fin 48, (s.pipeCfg n.val).port = p.val + 1 → (t.pipe n.val).since = none) ∧
      KeepsRegs s t ((List.range 4).map R.USBHUB_TT) ∧ t = { s with regs := t.regs, usb := { s.usb with tt := t.usb.tt, pipes := t.usb.pipes } }) ∧
--w splitS; 0
  (∀ (s : State) (p : Fin 4), s.usbLive P.USBHUB = true → (∀ n : Fin 48, (s.pipeCfg n.val).port = p.val + 1 → s.usbItem (0x40 + n.val) = none) →
    ∃ t, exec (.deviceDetached p) s = .next t ∧ t.portLine p.val = 0 ∧ t.portIs p.val 0 = false ∧ t.portIs p.val 1 = false ∧
      t.portIs p.val 8 = s.portIs p.val 8 ∧ (s.portIs p.val 0 = true → t.event P.USBHUB E.USBHUB_PORT_CHANGE = true) ∧
      (∀ k : Fin 4, k.val ≠ p.val → t.raw (R.USBHUB_PORT k.val) = s.raw (R.USBHUB_PORT k.val)) ∧
      KeepsRegs s t (R.USBHUB_PORT p.val :: R.EVT_RAW P.USBHUB :: (List.range 48).map R.USBH_PIPE_STAT) ∧
      t = { s with regs := t.regs, usb := { s.usb with lines := t.usb.lines } }) ∧
--w splitS.setReg (R.USBHUB_PORT 2) 0x103#64; 2
  (∀ (s : State) (addr : BitVec 7), s.usbLive P.USBHUB = true →
    ∃ t, exec (.hubStandardRequest (BitVec.ofNat 64 (0x0500 + 2 ^ 16 * addr.toNat))) s = .next t ∧ t.fld F.USBHUB_STAT_ADDR = addr.toNat ∧
      t.fld F.USBH_STAT_HUB_ADDR = addr.toNat ∧ t.flag F.USBHUB_STAT_CONFIGURED = s.flag F.USBHUB_STAT_CONFIGURED ∧
      KeepsRegs s t [R.USBHUB_STAT, R.USBH_STAT] ∧ t = { s with regs := t.regs }) ∧
--w on State.reset P.USBHUB; 0x55
  (∀ (s : State) (cfg : Bool), s.usbLive P.USBHUB = true →
    ∃ t, exec (.hubStandardRequest (BitVec.ofNat 64 (0x0900 + 2 ^ 16 * b2n cfg))) s = .next t ∧ t.flag F.USBHUB_STAT_CONFIGURED = cfg ∧
      t.flag F.USBHUB_STAT_ALT = false ∧ t.fld F.USBHUB_STAT_ADDR = s.fld F.USBHUB_STAT_ADDR ∧ t.usb.hubToggle = false ∧ t.usb.hubHalt = false ∧
      KeepsRegs s t [R.USBHUB_STAT] ∧ t = { s with regs := t.regs, usb := { s.usb with hubToggle := false, hubHalt := false } }) ∧
--w on State.reset P.USBHUB; true
  (∀ (s : State) (index len : BitVec 16), s.usbLive P.USBHUB = true →
    ∃ t, exec (.hubStandardRequest (BitVec.ofNat 64 (0x0680 + 2 ^ 24 + 2 ^ 32 * index.toNat + 2 ^ 48 * len.toNat))) s = .next t ∧ t = s) ∧
--w on State.reset P.USBHUB; 0; 18
  (∀ (s : State) (p : Fin 4) (line : UsbLine), s.usbLive P.USBHUB = true → s.flag (F.USBHUB_OC_ACTIVE p.val) = false → s.portIs p.val 0 = false →
      s.portLine p.val = lineCode line →
    ∃ t, exec (.hubStandardRequest (BitVec.ofNat 64 (0x0323 + 2 ^ 16 * 8 + 2 ^ 32 * (p.val + 1)))) s = .next t ∧ t.portIs p.val 8 = true ∧
      t.portIs p.val 0 = true ∧ t.flag (portBitF p.val 16) = true ∧ t.event P.USBHUB E.USBHUB_PORT_CHANGE = true ∧
      KeepsRegs s t [R.USBHUB_PORT p.val, R.EVT_RAW P.USBHUB] ∧ t = { s with regs := t.regs }) ∧
--w (on State.reset P.USBHUB).setLine 3 3; 3; .high
  (∀ (s : State) (p : Fin 4) (feature : Fin 5), s.usbLive P.USBHUB = true →
    ∃ t, exec (.hubStandardRequest (BitVec.ofNat 64 (0x0123 + 2 ^ 16 * (16 + feature.val) + 2 ^ 32 * (p.val + 1)))) s = .next t ∧
      t.flag (portBitF p.val (16 + feature.val)) = false ∧
      (∀ b : Fin 32, b.val ≠ 16 + feature.val → t.flag (portBitF p.val b.val) = s.flag (portBitF p.val b.val)) ∧
      KeepsRegs s t [R.USBHUB_PORT p.val] ∧ t = { s with regs := t.regs }) ∧
--w (on State.reset P.USBHUB).setReg (R.USBHUB_PORT 3) 0x1F0103#64; 3; 4
  (∀ (s : State) (setup : BitVec 64), (s.usbLive P.USBHUB = false ∨ hubRequest s setup.toNat = none) →
    ∃ t, exec (.hubStandardRequest setup) s = .next t ∧ t = s) ∧
--w on State.reset P.USBHUB; 0x0000000000000723#64
  (∀ (s : State) (p : Fin 4) (addr : BitVec 7) (ep : BitVec 4) (dirIn : Bool), s.usbLive P.USBHUB = false →
    ∃ t, exec (.clearTtBuffer p addr ep dirIn) s = .next t ∧ t = s ∧ exec (.resetTt p) s = .next t ∧ exec (.deviceDetached p) s = .next t)
--w State.reset; 3; 5; 2; true

/-- DATA (endpoint), ATTACH, VBUS_LOST, BUS_RESET, SETUP, ACK and STALL. -/
def Obligations.UsbServicePortPacketsAndAttach : Prop :=
  (∀ (s : State) (port : Fin 62) (e c : Nat) (k : HeddleChannel) (it : HeddleItem) (bs : List Byte), port.val = 48 + e → 8 ≤ e →
      s.PortWork 7 (0x70 + e) c k it → it.op = 0 → it.param = 0 → s.epAnswers e = true → s.epStalled e = false → (s.ep e).fifo = [] →
      (s.ep e).aborted = false → 0 < bs.length → it.done + bs.length = it.len → bs.length ≤ s.epMps e → s.epMps e ≤ s.epRoom e → s.epType e ≠ 1 →
      s.PlainRange k.e.inst (it.dst + it.done) bs.length →
    ∃ t, exec (.data port (.data (s.ep e).toggle bs)) s = .next t ∧ t.itemStatus c it.index = some (0, 0) ∧
      t.bytesAt (it.dst + it.done) bs.length = bs ∧ KeepsMemBut s t (it.dst + it.done) bs.length ∧
      t.ep e = ⟨! (s.ep e).toggle, [], false, if s.fld F.USBD_STAT_SPEED = 2 ∧ s.epRoom e < s.epMps e + bs.length then .nyet else .ack⟩ ∧
      (∀ x : Fin 14, x.val ≠ e → t.ep x.val = s.ep x.val) ∧ OnlyWork s t c ∧
      KeepsRegs s t [R.DMC_CHAN_STAT] ∧ t = { s with regs := t.regs, mem := t.mem, memory := t.memory, heddle := t.heddle, usb := t.usb }) ∧
--w usbD 0x78 usbIt; 56; 8; 9; chan0 7 0x78 usbIt; usbIt; [1#8, 2#8, 3#8, 4#8, 5#8, 6#8, 7#8, 8#8]
  (∀ (s : State) (port : Fin 62) (e c : Nat) (k : HeddleChannel) (it : HeddleItem), port.val = 48 + e → 1 ≤ e → e ≤ 7 →
      s.PortWork 7 (0x70 + e) c k it → it.op = 0 → it.param = 0 → s.epAnswers e = true → s.epStalled e = false → (s.ep e).fifo = [] →
      s.epType e ≠ 1 → s.statusStage e = false → 0 < s.epMult e → (s.ep e).aborted = false →
      it.done < it.len → it.len - it.done ≤ s.epMps e → s.PlainRange k.e.inst (it.src + it.done) (it.len - it.done) →
    ∃ t, exec (.data port .ack) s = .next t ∧ t.itemStatus c it.index = some (0, 0) ∧
      (t.itemAt c it.index).map (fun x => x.done) = some it.len ∧ t.ep e = ⟨! (s.ep e).toggle, [], false, .data (s.bytesAt (it.src + it.done) (it.len - it.done))⟩ ∧
      (∀ x : Fin 14, x.val ≠ e → t.ep x.val = s.ep x.val) ∧ OnlyWork s t c ∧ KeepsMem s t ∧ KeepsRegs s t [] ∧
      t = { s with regs := t.regs, memory := t.memory, heddle := t.heddle, usb := t.usb }) ∧
--w usbD 0x72 usbIt; 50; 2; 9; chan0 7 0x72 usbIt; usbIt
  (∀ (s : State), s.usbClocked = true → s.flag F.USBD_STAT_VBUS = false → s.flag F.USBD_CTRL_ATTACH = true → s.usbLive P.USBD = true →
      s.flag F.USBD_STAT_ATTACHED = false →
    ∃ t, exec .attach s = .next t ∧ t.flag F.USBD_STAT_VBUS = true ∧ t.flag F.USBD_STAT_ATTACHED = true ∧ t.fld F.USBD_STAT_SPEED = 1 ∧
      t.event P.USBD E.USBD_VBUS_CHANGE = true ∧ KeepsRegs s t [R.USBD_STAT, R.EVT_RAW P.USBD] ∧
      t = { s with regs := t.regs, usb := { s.usb with vbus := true } }) ∧
--w (on State.reset P.USBD).setFld F.USBD_CTRL_ATTACH 1
  (∀ (s : State), s.usbClocked = true → s.flag F.USBD_STAT_VBUS = true → (∀ e : Fin 14, s.usbItem (0x70 + e.val) = none) →
    ∃ t, exec .vbusLost s = .next t ∧ t.flag F.USBD_STAT_VBUS = false ∧ t.flag F.USBD_STAT_ATTACHED = false ∧ t.fld F.USBD_STAT_SPEED = 0 ∧
      (s.flag F.USBD_STAT_ATTACHED = true → t.flag F.USBD_STAT_SUSPENDED = false) ∧ t.event P.USBD E.USBD_VBUS_CHANGE = true ∧
      t.raw R.USBD_HALT = 0#64 ∧ t.fld F.USBD_ADDR_ADDR = 0 ∧
      KeepsRegs s t [R.USBD_STAT, R.USBD_HALT, R.USBD_EP0_CTRL, R.USBD_ADDR, R.EVT_RAW P.USBD] ∧
      t = { s with regs := t.regs, usb := { s.usb with eps := [], addr := 0, wakeHeld := false, vbus := false } }) ∧
--w (usbD 0x70 usbIt).delHch 9
  (∀ (s : State), s.usbClocked = false →
    (∃ t, exec .attach s = .next t ∧ t = { s with usb := { s.usb with vbus := true } }) ∧
    ∃ t, exec .vbusLost s = .next t ∧ t = { s with usb := { s.usb with vbus := false } }) ∧
--w State.reset.setFld F.PWR_STATE_CUR 3
  (∀ (s : State) (answered : Bool), s.usbLive P.USBD = true → s.flag F.USBD_STAT_ATTACHED = true → s.TablesKeyed →
    ∃ t, exec (.busReset answered) s = .next t ∧ t.flag F.USBD_STAT_SUSPENDED = false ∧
      t.fld F.USBD_STAT_SPEED = (if s.flag F.USBD_CTRL_HS_EN && answered then 2 else 1) ∧
      t.flag F.USBD_STAT_CHIRP_FAILED = (s.flag F.USBD_CTRL_HS_EN && ! answered) ∧ t.raw R.USBD_HALT = 0#64 ∧
      t.flag F.USBD_EP0_CTRL_STALLED = false ∧ t.flag F.USBD_EP0_CTRL_SETUP_PENDING = false ∧ t.fld F.USBD_ADDR_ADDR = 0 ∧
      t.event P.USBD E.USBD_BUS_RESET = true ∧
      (∀ e : Fin 14, (s.usbItem (0x70 + e.val)).all (fun x => t.itemStatus x.1 x.2.2.index == some (4, 8)) = true) ∧
      KeepsRegs s t [R.USBD_STAT, R.USBD_HALT, R.USBD_EP0_CTRL, R.USBD_ADDR, R.EVT_RAW P.USBD] ∧
      t = { s with regs := t.regs, heddle := t.heddle, usb := { s.usb with eps := [], addr := 0, wakeHeld := false } }) ∧
--w usbD 0x72 usbIt; true
  (∀ (s : State) (setup : BitVec 64), s.usbLive P.USBD = true → s.flag F.USBD_STAT_ATTACHED = true → s.flag F.USBD_STAT_SUSPENDED = false →
      s.ownRequest setup.toNat = none →
    ∃ t, exec (.setup setup) s = .next t ∧ t.fld (F.USBD_SETUP_SETUP 0) + 2 ^ 32 * t.fld (F.USBD_SETUP_SETUP 1) = setup.toNat ∧
      t.flag F.USBD_EP0_CTRL_SETUP_PENDING = true ∧ t.flag F.USBD_EP0_CTRL_STALLED = false ∧ t.event P.USBD E.USBD_SETUP = true ∧
      t.ep 0 = ⟨true, [], false, .ack⟩ ∧ t.ep 1 = ⟨true, [], false, .quiet⟩ ∧ (∀ x : Fin 14, 2 ≤ x.val → t.ep x.val = s.ep x.val) ∧ t.cairn = (s.edge 227).cairn ∧
      KeepsPages s t [P.USBD, P.CAIRN_CTL] ∧ t = { s with regs := t.regs, cairn := t.cairn, usb := { s.usb with eps := t.usb.eps } }) ∧
--w usbD 0x72 usbIt; 0x0012000001000680
  (∀ (s : State) (q : Req), OpenTo s q P.USBD →
    ∃ t, exec (.ack q) s = .next t ∧ t.flag F.USBD_EP0_CTRL_SETUP_PENDING = false ∧ t.usb = { s.usb with addr := s.fld F.USBD_ADDR_ADDR } ∧
      t.flag F.USBD_EP0_CTRL_STALLED = s.flag F.USBD_EP0_CTRL_STALLED ∧
      KeepsRegs s t (R.USBD_EP0_CTRL :: logRegs P.USBD) ∧ t = { s with regs := t.regs, resp := t.resp, usb := t.usb }) ∧
--w (usbD 0x72 usbIt).setFld F.USBD_ADDR_ADDR 0x35 |>.setFld F.USBD_EP0_CTRL_SETUP_PENDING 1; ⟨0, true⟩
  (∀ (s : State) (q : Req), OpenTo s q P.USBD →
    ∃ t, exec (.stall q) s = .next t ∧ t.flag F.USBD_EP0_CTRL_STALLED = true ∧ t.flag F.USBD_EP0_CTRL_SETUP_PENDING = false ∧
      KeepsRegs s t (R.USBD_EP0_CTRL :: logRegs P.USBD) ∧ t = { s with regs := t.regs, resp := t.resp }) ∧
--w (usbD 0x72 usbIt).setFld F.USBD_EP0_CTRL_SETUP_PENDING 1; ⟨0, true⟩
  (∀ (s : State) (port : Fin 62) (e : Nat) (r : UsbReply), port.val = 48 + e → s.usbItem (0x70 + e) = none → (s.ep e).aborted = false →
      s.epAnswers e = false →
    ∃ t, exec (.data port r) s = .next t ∧ t = s) ∧
--w State.reset; 61; 13; .data true [1#8]
  (∀ (s : State) (port : Fin 62) (e : Nat) (r : UsbReply), port.val = 48 + e → s.usbItem (0x70 + e) = none → (s.ep e).aborted = false →
      s.epAnswers e = true → s.epStalled e = true →
    ∃ t, exec (.data port r) s = .next t ∧ t = s.setEp e { s.ep e with answer := .stall }) ∧
--w ((usbD 0x78 usbIt).delHch 9).setFld (epHaltF 8) 1; 56; 8; .data true [1#8]
  (∀ (s : State) (port : Fin 62) (e : Nat) (r : UsbReply), port.val = 48 + e → s.usbItem (0x70 + e) = none → (s.ep e).aborted = false →
      s.epAnswers e = true → s.epStalled e = false → epIn e = true → (s.ep e).fifo = [] → s.statusStage e = false →
    ∃ t, exec (.data port r) s = .next t ∧ t = s.setEp e { s.ep e with answer := if s.epType e = 1 then .data [] else .nak }) ∧
--w (usbD 0x72 usbIt).delHch 9; 50; 2; .ack
  (∀ (s : State) (port : Fin 62) (e : Nat) (toggle : Bool) (bs : List Byte), port.val = 48 + e → 8 ≤ e → s.usbItem (0x70 + e) = none →
      s.epAnswers e = true → s.epStalled e = false → s.epType e ≠ 1 → bs.length ≤ s.epMps e →
      ((s.ep e).aborted = true ∧ s.portPublished (0x70 + e) = false ∨ (s.ep e).aborted = false ∧ s.epRoom e < s.epHeld e + s.epMps e) →
    ∃ t, exec (.data port (.data toggle bs)) s = .next t ∧ t = s.setEp e { s.ep e with answer := .nak }) ∧
--w ((usbD 0x78 usbIt).delHch 9).setEp 8 { UsbEndpoint.idle with aborted := true }; 56; 8; true; [1#8]
--w ((usbD 0x78 usbIt).delHch 9).setEp 8 { UsbEndpoint.idle with fifo := List.replicate 8 (List.replicate 64 5#8) }; 56; 8; true; [1#8]
  (∀ (s : State) (port : Fin 62), port.val = 49 → s.usbItem 0x71 = none → (s.ep 1).aborted = false → s.epAnswers 1 = true → s.epStalled 1 = false →
      s.statusStage 1 = true →
    ∃ t, exec (.data port .ack) s = .next t ∧ t = s.setEp 1 { s.ep 1 with answer := if s.flag F.USBD_EP0_CTRL_SETUP_PENDING then .nak else .data [] }) ∧
--w (usbD 0x72 usbIt).setFld F.USBD_EP0_CTRL_SETUP_PENDING 1; 49
--w usbD 0x72 usbIt; 49
  (∀ (s : State) (port : Fin 62) (e c : Nat) (k : HeddleChannel) (it : HeddleItem) (bs : List Byte), port.val = 48 + e → 8 ≤ e →
      s.PortWork 7 (0x70 + e) c k it → it.op = 0 → it.param < 2 → s.epAnswers e = true → s.epStalled e = false → (s.ep e).fifo = [] →
      (s.ep e).aborted = false → bs.length ≤ s.epMps e → s.epMps e ≤ s.epRoom e → s.epType e ≠ 1 →
    ∃ t, exec (.data port (.data (! (s.ep e).toggle) bs)) s = .next t ∧ t = s.setEp e { s.ep e with answer := .ack }) ∧
--w usbD 0x78 usbIt; 56; 8; 9; chan0 7 0x78 usbIt; usbIt; [1#8, 2#8]
  (∀ (s : State) (port : Fin 62) (e c : Nat) (k : HeddleChannel) (it : HeddleItem) (bs : List Byte), port.val = 48 + e → 8 ≤ e →
      s.PortWork 7 (0x70 + e) c k it → it.op = 0 → it.param < 2 → s.epAnswers e = true → s.epStalled e = false → (s.ep e).fifo = [] →
      (s.ep e).aborted = false → bs.length < s.epMps e → it.done + bs.length < it.len → s.epMps e ≤ s.epRoom e → s.epType e ≠ 1 → 0 < bs.length →
      s.PlainRange k.e.inst (it.dst + it.done) bs.length →
    ∃ t, exec (.data port (.data (s.ep e).toggle bs)) s = .next t ∧ t.itemStatus c it.index = some (1, 0) ∧
      t.bytesAt (it.dst + it.done) bs.length = bs ∧ KeepsMemBut s t (it.dst + it.done) bs.length ∧
      t.ep e = ⟨! (s.ep e).toggle, [], false, if s.fld F.USBD_STAT_SPEED = 2 ∧ s.epRoom e < s.epMps e + bs.length then .nyet else .ack⟩ ∧
      (∀ x : Fin 14, x.val ≠ e → t.ep x.val = s.ep x.val) ∧ OnlyWork s t c ∧
      KeepsRegs s t [R.DMC_CHAN_STAT] ∧ t = { s with regs := t.regs, mem := t.mem, memory := t.memory, heddle := t.heddle, usb := t.usb }) ∧
--w usbD 0x78 usbIt; 56; 8; 9; chan0 7 0x78 usbIt; usbIt; [1#8, 2#8]
  (∀ (s : State) (port : Fin 62) (e c : Nat) (k : HeddleChannel) (it : HeddleItem), port.val = 48 + e → s.PortWork 7 (0x70 + e) c k it →
      (it.op ≠ 0 ∨ 2 ≤ it.param) →
    ∃ t, exec (.data port .ack) s = .next t ∧ t.itemStatus c it.index = some (11, 1) ∧ OnlyWork s t c ∧ t = { s with heddle := t.heddle }) ∧
--w usbD 0x78 { usbIt with op := 1 }; 56; 8; 9; chan0 7 0x78 { usbIt with op := 1 }; { usbIt with op := 1 }
  (∀ (s : State), s.usbClocked = true → s.flag F.USBD_STAT_VBUS = false → (s.flag F.USBD_CTRL_ATTACH && s.usbLive P.USBD) = false → s.flag F.USBD_STAT_ATTACHED = false →
    ∃ t, exec .attach s = .next t ∧ t.flag F.USBD_STAT_VBUS = true ∧ t.event P.USBD E.USBD_VBUS_CHANGE = true ∧
      t.flag F.USBD_STAT_ATTACHED = false ∧ KeepsRegs s t [R.USBD_STAT, R.EVT_RAW P.USBD] ∧
      t = { s with regs := t.regs, usb := { s.usb with vbus := true } }) ∧
--w { State.reset with power := { State.reset.power with phase := .run } }
  (∀ (s : State), s.flag F.USBD_STAT_VBUS = false → ∃ t, exec .vbusLost s = .next t ∧ t = { s with usb := { s.usb with vbus := false } }) ∧
--w State.reset
  (∀ (s : State) (answered : Bool) (setup : BitVec 64), (s.usbLive P.USBD && s.flag F.USBD_STAT_ATTACHED) = false →
    ∃ t, exec (.busReset answered) s = .next t ∧ t = s ∧ exec (.setup setup) s = .next t)
--w State.reset; true; 0x0012000001000680

/-- USBD_EP_CFG_WRITE, ENDPOINT_HALT, ENDPOINT_CLEAR, SUSPEND and RESUME. -/
def Obligations.UsbServicePortEndpointsAndSuspend : Prop :=
  (∀ (s : State) (q : Req) (dirIn : Bool) (k : Fin 6) (mps : Fin 1025) (ty mult : Fin 4) (fifo : Fin 127), OpenTo s q P.USBD →
      0 < mps.val → 0 < ty.val → 0 < mult.val → 0 < fifo.val → s.epOn (if dirIn then k.val + 2 else k.val + 8) = false →
      s.fifoUnits (if dirIn then k.val + 2 else k.val + 8) + fifo.val ≤ 126 → mps.val * mult.val ≤ 64 * fifo.val → (ty.val = 2 → mult.val = 1) →
    ∃ t, exec (.usbdEpCfgWrite q dirIn k (BitVec.ofNat 32 (mps.val + 2 ^ 11 * ty.val + 2 ^ 13 * mult.val + 2 ^ 16 * fifo.val + 2 ^ 31))) s = .next t ∧
      t.epOn (if dirIn then k.val + 2 else k.val + 8) = true ∧ t.epMps (if dirIn then k.val + 2 else k.val + 8) = mps.val ∧
      t.epType (if dirIn then k.val + 2 else k.val + 8) = ty.val ∧ t.epRoom (if dirIn then k.val + 2 else k.val + 8) = 64 * fifo.val ∧
      KeepsRegs s t (epReg (if dirIn then k.val + 2 else k.val + 8) :: logRegs P.USBD) ∧ t = { s with regs := t.regs, resp := t.resp }) ∧
--w on State.reset P.USBD; ⟨0, true⟩; true; 5; 1024; 1; 3; 126
  (∀ (s : State) (q : Req) (dirIn : Bool) (k : Fin 6) (v : BitVec 32), OpenTo s q P.USBD → (F.USBD_EPIN_CFG_EN 0).of (v.zeroExtend 64) = 1 →
      126 < s.fifoUnits (if dirIn then k.val + 2 else k.val + 8) + (F.USBD_EPIN_CFG_FIFO 0).of (v.zeroExtend 64) →
    ∃ t, exec (.usbdEpCfgWrite q dirIn k v) s = .next t ∧ t.event P.USBD 31 = true ∧
      (s.flag (F.CLAMP_ADDR_VALID P.USBD) = false → t.fld (F.CLAMP_ADDR_REASON P.USBD) = 1) ∧
      KeepsRegs s t (logRegs P.USBD) ∧ t = { s with regs := t.regs, resp := t.resp }) ∧
--w on State.reset P.USBD; ⟨0, true⟩; false; 5; 0x807F2840#32
  (∀ (s : State) (dirIn : Bool) (k : Fin 6), s.epAnswers (if dirIn then k.val + 2 else k.val + 8) = true →
      s.heddle.ch.find? (fun x => decide (x.2.e.kind = 7 ∧ x.2.e.port = 0x70 + (if dirIn then k.val + 2 else k.val + 8))) = none →
    ∃ t, exec (.endpointHalt none dirIn k) s = .next t ∧ t.flag (epHaltF (if dirIn then k.val + 2 else k.val + 8)) = true ∧
      t.event P.USBD E.USBD_HALT_SET = true ∧ KeepsRegs s t [R.USBD_HALT, R.EVT_RAW P.USBD] ∧ t = { s with regs := t.regs }) ∧
--w (usbD 0x72 usbIt).delHch 9; true; 0
  (∀ (s : State) (q : Req) (dirIn : Bool) (k : Fin 6), OpenTo s q P.USBD →
      s.heddle.ch.find? (fun x => decide (x.2.e.kind = 7 ∧ x.2.e.port = 0x70 + (if dirIn then k.val + 2 else k.val + 8))) = none →
    ∃ t, exec (.endpointHalt (some q) dirIn k) s = .next t ∧ t.flag (epHaltF (if dirIn then k.val + 2 else k.val + 8)) = true ∧
      KeepsRegs s t (R.USBD_HALT :: logRegs P.USBD) ∧ t = { s with regs := t.regs, resp := t.resp }) ∧
--w (usbD 0x72 usbIt).delHch 9; ⟨0, true⟩; false; 5
  (∀ (s : State) (dirIn : Bool) (k : Fin 6), s.epAnswers (if dirIn then k.val + 2 else k.val + 8) = true →
      s.heddle.ch.find? (fun x => decide (x.2.e.kind = 7 ∧ x.2.e.port = 0x70 + (if dirIn then k.val + 2 else k.val + 8))) = none →
    ∃ t, exec (.endpointClear (.endpoint dirIn k)) s = .next t ∧ t.flag (epHaltF (if dirIn then k.val + 2 else k.val + 8)) = false ∧
      (t.ep (if dirIn then k.val + 2 else k.val + 8)).toggle = false ∧ t.event P.USBD E.USBD_HALT_CLEARED = true ∧
      KeepsRegs s t [R.USBD_HALT, R.EVT_RAW P.USBD] ∧ t = { s with regs := t.regs, usb := { s.usb with eps := t.usb.eps } }) ∧
--w ((usbD 0x72 usbIt).delHch 9).setFld (epHaltF 2) 1; true; 0
  (∀ (s : State) (q : Req) (n : Fin 48), OpenTo s q P.USBH → (∀ e ∈ s.heddle.ch, e.2.e.kind = 7 → e.2.e.port ≠ 0x40 + n.val) →
    ∃ t, exec (.endpointClear (.pipe q n)) s = .next t ∧ t.flag (F.USBH_PIPE_STAT_TOGGLE n.val) = false ∧
      t.flag (F.USBH_PIPE_STAT_HALTED n.val) = false ∧ (t.pipe n.val).errs = 0 ∧
      KeepsRegs s t ([R.USBH_PIPE_STAT n.val, R.USBH_PIPE_CTRL n.val] ++ logRegs P.USBH) ∧
      t = { s with regs := t.regs, resp := t.resp, usb := { s.usb with pipes := t.usb.pipes } }) ∧
--w ((on State.reset P.USBH).setFld (F.USBH_PIPE_STAT_HALTED 7) 1).setFld (F.USBH_PIPE_STAT_TOGGLE 7) 1; ⟨0, true⟩; 7
  (∀ (s : State), s.usbLive P.USBD = true → s.flag F.USBD_STAT_ATTACHED = true → s.flag F.USBD_STAT_SUSPENDED = false →
    ∃ t, exec .suspend s = .next t ∧ t.flag F.USBD_STAT_SUSPENDED = true ∧ t.event P.USBD E.USBD_SUSPEND = true ∧
      KeepsRegs s t [R.USBD_STAT, R.EVT_RAW P.USBD] ∧ t = { s with regs := t.regs, usb := { s.usb with idle := 0, wakeHeld := false, wakes := 0 } }) ∧
--w usbD 0x72 usbIt
  (∀ (s : State), s.usbLive P.USBD = true → s.flag F.USBD_STAT_SUSPENDED = true →
    ∃ t, exec (.resume .hostK) s = .next t ∧ t.flag F.USBD_STAT_SUSPENDED = false ∧ t.event P.USBD E.USBD_RESUME = true ∧
      KeepsRegs s t [R.USBD_STAT, R.EVT_RAW P.USBD] ∧ t = { s with regs := t.regs, usb := { s.usb with wakeHeld := false } }) ∧
--w (usbD 0x72 usbIt).setFld F.USBD_STAT_SUSPENDED 1
  (∀ (s : State) (q : Req) (hs : Bool) (test : Fin 6), OpenTo s q P.USBD → s.usbLive P.USBD = true → s.flag F.USBD_STAT_SUSPENDED = true →
      s.flag F.USBD_STAT_ATTACHED = true → s.flag F.USBD_STAT_VBUS = true →
    ∃ t, exec (.resume (.write q true hs true (BitVec.ofNat 3 test.val))) s = .next t ∧ t.flag F.USBD_CTRL_HS_EN = hs ∧ t.fld F.USBD_CTRL_TEST = test.val ∧
      t.usb = (if 400000 ≤ s.usb.idle then { s.usb with wakes := s.usb.wakes + 1, wakeHeld := false } else { s.usb with wakeHeld := true }) ∧
      KeepsRegs s t (R.USBD_CTRL :: logRegs P.USBD) ∧ t = { s with regs := t.regs, resp := t.resp, usb := t.usb }) ∧
--w (usbD 0x72 usbIt).setFld F.USBD_STAT_SUSPENDED 1; ⟨0, true⟩; true; 5
  (∀ (s : State) (q : Req) (attach hs : Bool) (test : Fin 6), OpenTo s q P.USBD →
      (s.flag F.USBD_STAT_ATTACHED = (attach && s.flag F.USBD_STAT_VBUS && s.usbLive P.USBD)) →
    ∃ t, exec (.resume (.write q attach hs false (BitVec.ofNat 3 test.val))) s = .next t ∧ t.flag F.USBD_CTRL_ATTACH = attach ∧
      t.flag F.USBD_CTRL_HS_EN = hs ∧ t.fld F.USBD_CTRL_TEST = test.val ∧ KeepsRegs s t (R.USBD_CTRL :: logRegs P.USBD) ∧
      t = { s with regs := t.regs, resp := t.resp }) ∧
--w (usbD 0x72 usbIt).setFld F.USBD_STAT_SUSPENDED 1; ⟨0, true⟩; true; true; 5
  (∀ (s : State) (q : Req) (dirIn : Bool) (k : Fin 6) (v : BitVec 32), OpenTo s q P.USBD → (F.USBD_EPIN_CFG_EN 0).of (v.zeroExtend 64) = 0 →
      (F.USBD_EPIN_CFG_MPS 0).of (v.zeroExtend 64) = 0 →
    ∃ t, exec (.usbdEpCfgWrite q dirIn k v) s = .next t ∧ t.event P.USBD 31 = true ∧
      (s.flag (F.CLAMP_ADDR_VALID P.USBD) = false → t.fld (F.CLAMP_ADDR_REASON P.USBD) = 2) ∧
      KeepsRegs s t (logRegs P.USBD) ∧ t = { s with regs := t.regs, resp := t.resp }) ∧
--w on State.reset P.USBD; ⟨0, true⟩; false; 5; 0x00012800#32
  (∀ (s : State) (dirIn : Bool) (k : Fin 6), s.epAnswers (if dirIn then k.val + 2 else k.val + 8) = false →
    ∃ t, exec (.endpointHalt none dirIn k) s = .next t ∧ t = s ∧ exec (.endpointClear (.endpoint dirIn k)) s = .next t) ∧
--w State.reset; true; 5
  (∀ (s : State), ((s.usbLive P.USBD && s.flag F.USBD_STAT_ATTACHED) = false ∨ s.flag F.USBD_STAT_SUSPENDED = true) →
    ∃ t, exec .suspend s = .next t ∧ t = s) ∧
--w State.reset
  (∀ (s : State), (s.usbLive P.USBD && s.flag F.USBD_STAT_SUSPENDED) = false → ∃ t, exec (.resume .hostK) s = .next t ∧ t = s)
--w State.reset

/-- ETH_TX_FRAME, ETH_RX_FRAME and ETH_RX_ITEM. -/
def Obligations.EthernetFramesSentAndReceived : Prop :=
  (∀ (s : State) (n : Fin 2) (c : Nat) (k : HeddleChannel) (it : HeddleItem) (f1 f2 : List Byte), s.PortWork 3 (0x29 + 2 * n.val) c k it →
      s.ioLive (P.ETH n.val) = true → (s.eth n.val).pause = 0 → it.started = false → 14 ≤ it.len → it.param % 2 = 0 → clearBits it.param 0xFFFF0007 = 0 →
      s.PlainRange k.e.inst it.src it.len → it.len + 4 ≤ s.fld (F.ETH_MAXLEN_MAXLEN n.val) →
      f1 = (if it.param.testBit 2 then fillChecksums (s.bytesAt it.src it.len) else s.bytesAt it.src it.len) →
      f2 = (if it.param.testBit 1 then f1.take 12 ++ [0x81#8, 0x00#8] ++ beBytes 2 (it.param / 2 ^ 16) ++ f1.drop 12 else f1) → 60 ≤ f2.length →
    ∃ t, exec (.ethTxFrame n) s = .next t ∧ (t.eth n.val).sent = f2 ++ leBytes 4 (crc32 f2) ∧ (t.eth n.val).tx = [] ∧ (t.eth n.val).rx = (s.eth n.val).rx ∧
      t.itemStatus c it.index = some (0, 0) ∧ (t.itemAt c it.index).map (fun x => x.bytes) = some it.len ∧ OnlyWork s t c ∧ KeepsMem s t ∧
      KeepsRegs s t [R.ETH_STAT n.val] ∧
      t = { s with regs := t.regs, memory := t.memory, heddle := t.heddle, field := { s.field with eth := t.field.eth } }) ∧
--w ethTxS 60 0; 1; 9; chan0 3 0x2B (ethIt 60 0); ethIt 60 0; ipFrame; ipFrame
--w ethTxS 60 (6 + 2 ^ 16 * 0x123); 1; 9; chan0 3 0x2B (ethIt 60 (6 + 2 ^ 16 * 0x123)); ethIt 60 (6 + 2 ^ 16 * 0x123); ipFrame; ipFrame.take 12 ++ [0x81#8, 0x00#8, 1#8, 0x23#8] ++ ipFrame.drop 12
  (∀ (s : State) (n : Fin 2) (c : Nat) (k : HeddleChannel) (it : HeddleItem), s.PortWork 3 (0x29 + 2 * n.val) c k it →
      s.ioLive (P.ETH n.val) = true → (s.eth n.val).pause = 0 → it.started = false → 14 ≤ it.len → it.len < 60 → it.param = 0 → s.PlainRange k.e.inst it.src it.len →
      it.len + 4 ≤ s.fld (F.ETH_MAXLEN_MAXLEN n.val) →
    ∃ t, exec (.ethTxFrame n) s = .next t ∧ (t.eth n.val).sent.length = 64 ∧ (t.eth n.val).sent.take it.len = s.bytesAt it.src it.len ∧
      (t.eth n.val).sent.drop 60 = leBytes 4 (crc32 ((t.eth n.val).sent.take 60)) ∧ t.itemStatus c it.index = some (0, 0) ∧
      OnlyWork s t c ∧ KeepsMem s t ∧ KeepsRegs s t [R.ETH_STAT n.val] ∧
      t = { s with regs := t.regs, memory := t.memory, heddle := t.heddle, fresh := t.fresh, field := { s.field with eth := t.field.eth } }) ∧
--w ethTxS 20 0; 1; 9; chan0 3 0x2B (ethIt 20 0); ethIt 20 0
  (∀ (s : State) (n : Fin 2) (c : Nat) (k : HeddleChannel) (it : HeddleItem), s.PortWork 3 (0x29 + 2 * n.val) c k it →
      s.ioLive (P.ETH n.val) = true → (s.eth n.val).pause = 0 → it.started = false → 60 ≤ it.len → it.param = 1 → s.PlainRange k.e.inst it.src it.len →
      s.PlainRange k.e.inst it.dst 16 → it.len + 4 ≤ s.fld (F.ETH_MAXLEN_MAXLEN n.val) →
    ∃ t, exec (.ethTxFrame n) s = .next t ∧
      t.bytesAt it.dst 16 = leBytes 8 ((s.ptpStamp (s.fld (F.ETH_TS_LAT_TX n.val))).2 + 2 ^ 32 * ((s.ptpStamp (s.fld (F.ETH_TS_LAT_TX n.val))).1 % 2 ^ 32)) ++
        leBytes 8 ((s.ptpStamp (s.fld (F.ETH_TS_LAT_TX n.val))).1 / 2 ^ 32) ∧ KeepsMemBut s t it.dst 16 ∧
      t.itemStatus c it.index = some (0, 0) ∧ OnlyWork s t c ∧ KeepsRegs s t [R.ETH_STAT n.val, R.DMC_CHAN_STAT] ∧
      t = { s with regs := t.regs, mem := t.mem, memory := t.memory, heddle := t.heddle, field := { s.field with eth := t.field.eth } }) ∧
--w ethTxS 60 1; 1; 9; chan0 3 0x2B (ethIt 60 1); ethIt 60 1
  (∀ (s : State) (n : Fin 2) (f : List Byte), s.ethHears n.val = true → 60 ≤ f.length → f.length + 4 ≤ s.fld (F.ETH_MAXLEN_MAXLEN n.val) →
      be16 f 12 ≠ 0x8808 → s.ethAccepts n.val f = true → s.vlanAccepts n.val f = true →
      (s.eth n.val).rx.foldl (fun k x => k + x.bytes.length) 0 + f.length ≤ 32768 →
    ∃ t, exec (.ethRxFrame n f true) s = .next t ∧
      t.eth n.val = { s.eth n.val with rx := (s.eth n.val).rx ++ [⟨f, (s.ptpStamp (-(s.fld (F.ETH_TS_LAT_RX n.val) : Int))).1,
        (s.ptpStamp (-(s.fld (F.ETH_TS_LAT_RX n.val) : Int))).2⟩] } ∧
      (∀ m : Fin 2, m ≠ n → t.eth m.val = s.eth m.val) ∧ KeepsRegs s t [R.ETH_STAT n.val] ∧
      t = { s with regs := t.regs, field := { s.field with eth := t.field.eth } }) ∧
--w (fieldS 0 0 item0).setFld (F.ETH_FILTER_PROMISC 1) 1; 1; ipFrame
  (∀ (s : State) (n : Fin 2) (f : List Byte), s.ethHears n.val = true →
    ∃ t, exec (.ethRxFrame n f false) s = .next t ∧ t.event (P.ETH n.val) E.ETH_RX_DROP = true ∧
      t.fld (F.ETH_ERR_COUNT n.val 0) = min (2 ^ (F.ETH_ERR_COUNT 0 0).width - 1) (s.fld (F.ETH_ERR_COUNT n.val 0) + 1) ∧
      KeepsRegs s t [R.ETH_ERR n.val 0, R.EVT_RAW (P.ETH n.val)] ∧ t = { s with regs := t.regs }) ∧
--w fieldS 0 0 item0; 1; ipFrame
  (∀ (s : State) (n : Fin 2) (f : List Byte), s.ethHears n.val = true → 60 ≤ f.length → f.length + 4 ≤ s.fld (F.ETH_MAXLEN_MAXLEN n.val) →
      be16 f 12 ≠ 0x8808 → (s.ethAccepts n.val f && s.vlanAccepts n.val f) = false →
    ∃ t, exec (.ethRxFrame n f true) s = .next t ∧ t.event (P.ETH n.val) E.ETH_RX_DROP = true ∧
      t.fld (F.ETH_ERR_COUNT n.val 3) = min (2 ^ (F.ETH_ERR_COUNT 0 0).width - 1) (s.fld (F.ETH_ERR_COUNT n.val 3) + 1) ∧
      KeepsRegs s t [R.ETH_ERR n.val 3, R.EVT_RAW (P.ETH n.val)] ∧ t = { s with regs := t.regs }) ∧
--w (fieldS 0 0 item0).setFld (F.ETH_FILTER_VLAN_FILT 1) 1 |>.setFld (F.ETH_FILTER_UNTAGGED 1) 0; 1; ipFrame
  (∀ (s : State) (n : Fin 2) (c : Nat) (k : HeddleChannel) (it : HeddleItem) (x : EthFrame) (rest : List EthFrame),
      s.PortWork 2 (0x28 + 2 * n.val) c k it → s.ioLive (P.ETH n.val) = true → it.param = 0 → (s.eth n.val).rx = x :: rest →
      s.flag (F.ETH_VLAN_STRIP n.val) = false → 16 + x.bytes.length ≤ it.len → x.bytes.length < 65536 → x.ns < 2 ^ 32 →
      s.PlainRange k.e.inst it.dst (16 + x.bytes.length) →
    ∃ t, exec (.ethRxItem n) s = .next t ∧ t.bytesAt (it.dst + 16) x.bytes.length = x.bytes ∧ t.numAt it.dst 2 = x.bytes.length ∧
      t.numAt (it.dst + 8) 8 = x.ns + 2 ^ 32 * (x.sec % 2 ^ 32) ∧ KeepsMemBut s t it.dst (16 + x.bytes.length) ∧
      (∀ i ∈ (ipLayout x.bytes).toList, ∀ a ∈ (checksumsOk x.bytes i).1.toList,
        t.numAt it.dst 8 / 2 ^ 17 % 8 = 1 + 2 * b2n a + 4 * b2n (checksumsOk x.bytes i).2) ∧
      t.eth n.val = { s.eth n.val with rx := rest } ∧
      t.itemStatus c it.index = some (if it.len = 16 + x.bytes.length then (0, 0) else (1, 0)) ∧ OnlyWork s t c ∧
      KeepsRegs s t [R.ETH_STAT n.val, R.DMC_CHAN_STAT] ∧
      t = { s with regs := t.regs, mem := t.mem, memory := t.memory, heddle := t.heddle, fresh := t.fresh, field := { s.field with eth := t.field.eth } }) ∧
--w ethRxS ipFrame 76; 1; 9; chan0 2 0x2A (ethIt 76 0); ethIt 76 0; ⟨ipFrame, 3 + 2 ^ 33, 77⟩; []
--w ethRxS payload64 200; 1; 9; chan0 2 0x2A (ethIt 200 0); ethIt 200 0; ⟨payload64, 3 + 2 ^ 33, 77⟩; []
  (∀ (s : State) (n : Fin 2) (c : Nat) (k : HeddleChannel) (it : HeddleItem) (x : EthFrame) (rest : List EthFrame),
      s.PortWork 2 (0x28 + 2 * n.val) c k it → s.ioLive (P.ETH n.val) = true → it.param = 0 → (s.eth n.val).rx = x :: rest →
      s.flag (F.ETH_VLAN_STRIP n.val) = true → be16 x.bytes 12 = 0x8100 → 16 ≤ x.bytes.length → 12 + x.bytes.length ≤ it.len →
      x.bytes.length < 65536 → s.PlainRange k.e.inst it.dst (12 + x.bytes.length) →
    ∃ t, exec (.ethRxItem n) s = .next t ∧ t.bytesAt (it.dst + 16) (x.bytes.length - 4) = x.bytes.take 12 ++ x.bytes.drop 16 ∧
      t.numAt it.dst 2 = x.bytes.length - 4 ∧ t.numAt (it.dst + 4) 2 = be16 x.bytes 14 ∧ (t.numAt it.dst 8).testBit 16 = true ∧
      KeepsMemBut s t it.dst (12 + x.bytes.length) ∧ t.eth n.val = { s.eth n.val with rx := rest } ∧
      t.itemStatus c it.index = some (if it.len = 12 + x.bytes.length then (0, 0) else (1, 0)) ∧ OnlyWork s t c ∧
      KeepsRegs s t [R.ETH_STAT n.val, R.DMC_CHAN_STAT] ∧
      t = { s with regs := t.regs, mem := t.mem, memory := t.memory, heddle := t.heddle, fresh := t.fresh, field := { s.field with eth := t.field.eth } }) ∧
--w (ethRxS tagFrame 200).setFld (F.ETH_VLAN_STRIP 1) 1; 1; 9; chan0 2 0x2A (ethIt 200 0); ethIt 200 0; ⟨tagFrame, 3 + 2 ^ 33, 77⟩; []
  (∀ (s : State) (n : Fin 2) (c : Nat) (k : HeddleChannel) (it : HeddleItem) (x : EthFrame) (rest : List EthFrame),
      s.PortWork 2 (0x28 + 2 * n.val) c k it → s.ioLive (P.ETH n.val) = true → it.param = 0 → (s.eth n.val).rx = x :: rest →
      s.flag (F.ETH_VLAN_STRIP n.val) = false → it.len < 16 + x.bytes.length → 16 ≤ it.len → s.PlainRange k.e.inst it.dst it.len →
    ∃ t, exec (.ethRxItem n) s = .next t ∧ t.bytesAt (it.dst + 16) (it.len - 16) = x.bytes.take (it.len - 16) ∧
      KeepsMemBut s t it.dst it.len ∧ t.eth n.val = { s.eth n.val with rx := rest } ∧ t.itemStatus c it.index = some (4, 3) ∧
      OnlyWork s t c ∧ KeepsRegs s t [R.ETH_STAT n.val, R.DMC_CHAN_STAT] ∧
      t = { s with regs := t.regs, mem := t.mem, memory := t.memory, heddle := t.heddle, fresh := t.fresh, field := { s.field with eth := t.field.eth } }) ∧
--w ethRxS ipFrame 40; 1; 9; chan0 2 0x2A (ethIt 40 0); ethIt 40 0; ⟨ipFrame, 3 + 2 ^ 33, 77⟩; []
  (∀ (s : State) (n : Fin 2) (c : Nat) (k : HeddleChannel) (it : HeddleItem), s.PortWork 3 (0x29 + 2 * n.val) c k it →
      s.ioLive (P.ETH n.val) = true → it.started = false → clearBits it.param 0xFFFF0007 = 0 → it.len < 14 →
    ∃ t, exec (.ethTxFrame n) s = .next t ∧ t.itemStatus c it.index = some (4, 2) ∧ OnlyWork s t c ∧ t = { s with heddle := t.heddle }) ∧
--w ethTxS 13 0; 1; 9; chan0 3 0x2B (ethIt 13 0); ethIt 13 0
  (∀ (s : State) (n : Fin 2) (c : Nat) (k : HeddleChannel) (it : HeddleItem), s.PortWork 3 (0x29 + 2 * n.val) c k it →
      s.ioLive (P.ETH n.val) = true → it.started = false → clearBits it.param 0xFFFF0007 = 0 → 14 ≤ it.len →
      s.PlainRange k.e.inst it.src it.len → s.fld (F.ETH_MAXLEN_MAXLEN n.val) < it.len →
    ∃ t, exec (.ethTxFrame n) s = .next t ∧ t.itemStatus c it.index = some (4, 1) ∧ OnlyWork s t c ∧ KeepsMem s t ∧ KeepsRegs s t [] ∧
      t = { s with regs := t.regs, memory := t.memory, heddle := t.heddle }) ∧
--w (ethTxS 60 0).setFld (F.ETH_MAXLEN_MAXLEN 1) 59; 1; 9; chan0 3 0x2B (ethIt 60 0); ethIt 60 0
  (∀ (s : State) (n : Fin 2) (c : Nat) (k : HeddleChannel) (it : HeddleItem), s.PortWork 3 (0x29 + 2 * n.val) c k it →
      clearBits it.param 0xFFFF0007 = 0 → (s.ioLive (P.ETH n.val) = false ∨ (s.eth n.val).pause ≠ 0 ∧ it.started = true) →
    ∃ t, exec (.ethTxFrame n) s = .next t ∧ t = s) ∧
--w (ethTxS 60 0).setFld (F.PAGE_CTRL_ENABLE (P.ETH 1)) 0 |>.setFld (F.PAGE_STAT_ENABLED (P.ETH 1)) 0; 1; 9; chan0 3 0x2B (ethIt 60 0); ethIt 60 0
--w ((ethTxS 60 0).setHch 9 (chan0 3 0x2B { ethIt 60 0 with started := true })).setEth 1 ⟨[], 5, [], ipFrame⟩; 1; 9; chan0 3 0x2B { ethIt 60 0 with started := true }; { ethIt 60 0 with started := true }
  (∀ (s : State) (n : Fin 2) (c : Nat) (k : HeddleChannel) (it : HeddleItem), s.PortWork 3 (0x29 + 2 * n.val) c k it →
      s.ioLive (P.ETH n.val) = true → (s.eth n.val).pause ≠ 0 → it.started = false → clearBits it.param 0xFFFF0007 = 0 → 14 ≤ it.len →
      s.PlainRange k.e.inst it.src it.len → it.len + 4 ≤ s.fld (F.ETH_MAXLEN_MAXLEN n.val) →
    ∃ t, exec (.ethTxFrame n) s = .next t ∧ t.eth n.val = { s.eth n.val with tx := s.bytesAt it.src it.len } ∧
      t.fld (F.ETH_STAT_TX_LEVEL n.val) = it.len / 2 % 2 ^ (F.ETH_STAT_TX_LEVEL 0).width ∧ t.itemStatus c it.index = it.status ∧
      (t.itemAt c it.index).map (fun x => x.started) = some true ∧ OnlyWork s t c ∧ KeepsMem s t ∧ KeepsRegs s t [R.ETH_STAT n.val] ∧
      t = { s with regs := t.regs, memory := t.memory, heddle := t.heddle, field := { s.field with eth := t.field.eth } }) ∧
--w (ethTxS 60 0).setEth 1 ⟨[], 5, [], []⟩; 1; 9; chan0 3 0x2B (ethIt 60 0); ethIt 60 0
  (∀ (s : State) (n : Fin 2) (c : Nat) (k : HeddleChannel) (it : HeddleItem) (f2 : List Byte), s.PortWork 3 (0x29 + 2 * n.val) c k it →
      s.ioLive (P.ETH n.val) = true → (s.eth n.val).pause = 0 → it.started = true → it.param = 0 → (s.eth n.val).tx = f2 → 60 ≤ f2.length →
    ∃ t, exec (.ethTxFrame n) s = .next t ∧ (t.eth n.val).sent = f2 ++ leBytes 4 (crc32 f2) ∧ (t.eth n.val).tx = [] ∧
      t.itemStatus c it.index = some (0, 0) ∧ OnlyWork s t c ∧ KeepsMem s t ∧ KeepsRegs s t [R.ETH_STAT n.val] ∧
      t = { s with regs := t.regs, heddle := t.heddle, field := { s.field with eth := t.field.eth } }) ∧
--w ((ethTxS 60 0).setHch 9 (chan0 3 0x2B { ethIt 60 0 with started := true })).setEth 1 ⟨[], 0, [], ipFrame⟩; 1; 9; chan0 3 0x2B { ethIt 60 0 with started := true }; { ethIt 60 0 with started := true }; ipFrame
  (∀ (s : State) (n : Fin 2), s.portItem 3 (0x29 + 2 * n.val) = none → ∃ t, exec (.ethTxFrame n) s = .next t ∧ t = s) ∧
--w State.reset; 1
  (∀ (s : State) (n : Fin 2) (c : Nat) (k : HeddleChannel) (it : HeddleItem), s.PortWork 3 (0x29 + 2 * n.val) c k it →
      clearBits it.param 0xFFFF0007 ≠ 0 →
    ∃ t, exec (.ethTxFrame n) s = .next t ∧ t.itemStatus c it.index = some (11, 1) ∧ OnlyWork s t c ∧ t = { s with heddle := t.heddle }) ∧
--w ethTxS 60 8; 1; 9; chan0 3 0x2B (ethIt 60 8); ethIt 60 8
  (∀ (s : State) (n : Fin 2), (s.portItem 2 (0x28 + 2 * n.val) = none ∨
      (s.eth n.val).rx = [] ∧ (s.portItem 2 (0x28 + 2 * n.val)).all (fun x => x.2.2.param == 0) = true) →
    ∃ t, exec (.ethRxItem n) s = .next t ∧ t = s) ∧
--w State.reset; 1
  (∀ (s : State) (n : Fin 2) (f : List Byte) (fcsOk : Bool) (quanta : BitVec 16), s.ethHears n.val = false →
    ∃ t, exec (.ethRxFrame n f fcsOk) s = .next t ∧ t = s ∧ exec (.pause n quanta) s = .next t) ∧
--w State.reset; 1; ipFrame; true; 7
  (∀ (s : State) (n : Fin 2) (f : List Byte), s.ethHears n.val = true →
      (f.length < 60 ∨ s.fld (F.ETH_MAXLEN_MAXLEN n.val) + (if be16 f 12 = 0x8100 then 4 else 0) < f.length + 4) →
    ∃ t, exec (.ethRxFrame n f true) s = .next t ∧ t.event (P.ETH n.val) E.ETH_RX_DROP = true ∧
      t.fld (F.ETH_ERR_COUNT n.val 1) = min (2 ^ (F.ETH_ERR_COUNT 0 0).width - 1) (s.fld (F.ETH_ERR_COUNT n.val 1) + 1) ∧
      KeepsRegs s t [R.ETH_ERR n.val 1, R.EVT_RAW (P.ETH n.val)] ∧ t = { s with regs := t.regs }) ∧
--w fieldS 0 0 item0; 1; ipFrame.take 59
  (∀ (s : State) (n : Fin 2) (f : List Byte), s.ethHears n.val = true → 60 ≤ f.length → f.length + 4 ≤ s.fld (F.ETH_MAXLEN_MAXLEN n.val) →
      be16 f 12 ≠ 0x8808 → (s.ethAccepts n.val f && s.vlanAccepts n.val f) = true →
      32768 < (s.eth n.val).rx.foldl (fun k x => k + x.bytes.length) 0 + f.length →
    ∃ t, exec (.ethRxFrame n f true) s = .next t ∧ t.event (P.ETH n.val) E.ETH_RX_DROP = true ∧
      t.fld (F.ETH_ERR_COUNT n.val 2) = min (2 ^ (F.ETH_ERR_COUNT 0 0).width - 1) (s.fld (F.ETH_ERR_COUNT n.val 2) + 1) ∧
      KeepsRegs s t [R.ETH_ERR n.val 2, R.EVT_RAW (P.ETH n.val)] ∧ t = { s with regs := t.regs }) ∧
--w ((fieldS 0 0 item0).setFld (F.ETH_FILTER_PROMISC 1) 1).setEth 1 ⟨[⟨List.replicate 32760 1, 3, 4⟩], 0, [], []⟩; 1; ipFrame
  (∀ (s : State) (n : Fin 2) (f : List Byte), s.ethHears n.val = true → s.flag (F.ETH_CFG_PAUSE_EN n.val) = true → 60 ≤ f.length →
      f.length + 4 ≤ s.fld (F.ETH_MAXLEN_MAXLEN n.val) → be16 f 12 = 0x8808 → be16 f 14 = 1 →
    ∃ t, exec (.ethRxFrame n f true) s = .next t ∧ exec (.pause n (BitVec.ofNat 16 (be16 f 16))) s = .next t ∧
      t.event (P.ETH n.val) E.ETH_PAUSED = true)
--w (fieldS 0 0 item0).setFld (F.ETH_CFG_PAUSE_EN 1) 1; 1; List.replicate 12 2 ++ [0x88, 8, 0, 1, 1, 2] ++ List.replicate 42 0

/-- PAUSE, MDIO_GO, PTP_SECOND, PTP_TARGET, PTP_SET and PTP_STEP. -/
def Obligations.PauseMdioAndThePtpClock : Prop :=
  (∀ (s : State) (n : Fin 2) (quanta : BitVec 16), s.ethHears n.val = true → s.flag (F.ETH_CFG_PAUSE_EN n.val) = true →
    ∃ t, exec (.pause n quanta) s = .next t ∧ t.eth n.val = { s.eth n.val with pause := quanta.toNat * 512 *
        (if s.fld (F.ETH_CFG_SPEED n.val) = 0 then 100 else if s.fld (F.ETH_CFG_SPEED n.val) = 1 then 10 else 1) } ∧
      t.event (P.ETH n.val) E.ETH_PAUSED = true ∧ KeepsRegs s t [R.ETH_STAT n.val, R.EVT_RAW (P.ETH n.val)] ∧
      t = { s with regs := t.regs, field := { s.field with eth := t.field.eth } }) ∧
--w (fieldS 0 0 item0).setFld (F.ETH_CFG_PAUSE_EN 0) 1; 0; 0xFFFF
  (∀ (s : State) (q : Req) (data : BitVec 16) (reg phy : BitVec 5) (read : Bool) (answer : BitVec 16), OpenTo s q (P.ETH 0) →
    ∃ t, exec (.mdioGo q data reg phy read answer) s = .next t ∧ t.fld (F.ETH_MDIO_DATA 0) =
        (if read then (if s.bankLive 1 then answer.toNat else 0) else data.toNat) ∧
      t.fld (F.ETH_MDIO_REG 0) = reg.toNat ∧ t.fld (F.ETH_MDIO_PHY 0) = phy.toNat ∧ t.flag (F.ETH_MDIO_READ 0) = read ∧
      t.event (P.ETH 0) E.ETH_MDIO_DONE = true ∧ KeepsRegs s t (R.ETH_MDIO 0 :: logRegs (P.ETH 0)) ∧ t = { s with regs := t.regs, resp := t.resp }) ∧
--w fieldS 0 0 item0; ⟨0, true⟩; 0x1234; 17; 9; true; 0xBEEF
  (∀ (s : State) (b : Nat), s.ptpRuns = true → s.reedOnPtp = false → s.flag F.PTPCLK_TARGET_HI_ARMED = false → b = (s.ptpNow / 2 ^ 32 / 1000000000 + 1) * 1000000000 * 2 ^ 32 →
      b + s.ptpTick < 2 ^ 48 * 1000000000 * 2 ^ 32 →
    ∃ t, exec .ptpSecond s = .next t ∧ b ≤ t.ptpNow ∧ t.ptpNow < b + s.ptpTick ∧ t.event P.PTPCLK E.PTPCLK_SECOND = true ∧
      t.shuttle = (s.pulse 56).shuttle ∧ KeepsRegs s t [R.PTPCLK_TIME, R.EVT_RAW P.PTPCLK] ∧
      t = { s with regs := t.regs, shuttle := t.shuttle, field := { s.field with ptpHi := t.field.ptpHi, ptpFrac := t.field.ptpFrac } }) ∧
--w ptpS; 42 * 1000000000 * 2 ^ 32
  (∀ (s : State), s.ptpRuns = true → s.reedOnPtp = false → s.flag F.PTPCLK_TARGET_HI_ARMED = true → s.ptpNow < s.ptpTarget →
      s.ptpTarget + s.ptpTick < 2 ^ 48 * 1000000000 * 2 ^ 32 →
    ∃ t, exec .ptpTarget s = .next t ∧ s.ptpTarget ≤ t.ptpNow ∧ t.ptpNow < s.ptpTarget + s.ptpTick ∧
      t.flag F.PTPCLK_TARGET_HI_ARMED = false ∧ t.event P.PTPCLK E.PTPCLK_TARGET = true ∧
      KeepsRegs s t [R.PTPCLK_TIME, R.PTPCLK_TARGET_HI, R.EVT_RAW P.PTPCLK] ∧
      t = { s with regs := t.regs, shuttle := t.shuttle, field := { s.field with ptpHi := t.field.ptpHi, ptpFrac := t.field.ptpFrac } }) ∧
--w ((ptpS.setFld F.PTPCLK_TARGET_HI_ARMED 1).setFld F.PTPCLK_TARGET_SEC 41).setFld F.PTPCLK_TARGET_NS 999999999
  (∀ (s : State) (b : Nat), s.ptpRuns = true → s.reedOnPtp = true → b = (s.ptpNow / 2 ^ 32 / 1000000000 + 1) * 1000000000 * 2 ^ 32 →
    ∃ t, exec .ptpSecond s = .next t ∧
      t = s.reedTicks ((8 * ((b - s.ptpNow + s.ptpTick - 1) / s.ptpTick) - s.field.ptpPhase + 4) / 5)) ∧
--w ((((ptpS.setFld F.REED_SRC_SRC 2).setFld F.REED_STATE_STATE 1).setFld F.PTPCLK_TIME_NS 999999990)); 42 * 1000000000 * 2 ^ 32
  (∀ (s : State) (q : Req) (sec : BitVec 32) (ns : Fin 1000000000), OpenTo s q P.PTPCLK → s.flag F.PTPCLK_TARGET_HI_ARMED = false →
    ∃ t, exec (.ptpSet q (BitVec.ofNat 64 (ns.val + 2 ^ 32 * sec.toNat))) s = .next t ∧ t.fld F.PTPCLK_TIME_SEC = sec.toNat ∧
      t.fld F.PTPCLK_TIME_NS = ns.val ∧ t.field = { s.field with ptpHi := s.fld F.PTPCLK_TIME_HI_SEC_HI, ptpFrac := 0 } ∧
      KeepsRegs s t (R.PTPCLK_TIME :: logRegs P.PTPCLK) ∧ t = { s with regs := t.regs, resp := t.resp, field := t.field }) ∧
--w ptpS; ⟨0, true⟩; 0xFFFFFFFF; 999999999
  (∀ (s : State) (q : Req) (ns : Fin 1000000000), OpenTo s q P.PTPCLK → s.flag F.PTPCLK_TARGET_HI_ARMED = false →
      s.ptpNow + ns.val * 2 ^ 32 < 2 ^ 48 * 1000000000 * 2 ^ 32 →
    ∃ t, exec (.ptpStep q (BitVec.ofNat 32 ns.val)) s = .next t ∧ t.ptpNow = s.ptpNow + ns.val * 2 ^ 32 ∧
      (s.ptpNow / 2 ^ 32 / 1000000000 < t.ptpNow / 2 ^ 32 / 1000000000 → t.event P.PTPCLK E.PTPCLK_SECOND = true ∧ t.shuttle = (s.pulse 56).shuttle) ∧
      KeepsRegs s t ([R.PTPCLK_TIME, R.PTPCLK_STEP] ++ logRegs P.PTPCLK) ∧ t = { s with regs := t.regs, resp := t.resp, shuttle := t.shuttle, field := t.field }) ∧
--w ptpS; ⟨0, true⟩; 999999999
  (∀ (s : State) (q : Req) (ns : Fin 1000000000), OpenTo s q P.PTPCLK → 0 < ns.val → ns.val * 2 ^ 32 ≤ s.ptpNow → s.ptpNow < 2 ^ 48 * 1000000000 * 2 ^ 32 →
    ∃ t, exec (.ptpStep q (BitVec.ofInt 32 (-(ns.val : Int)))) s = .next t ∧ t.ptpNow = s.ptpNow - ns.val * 2 ^ 32 ∧
      KeepsRegs s t ([R.PTPCLK_TIME, R.PTPCLK_STEP] ++ logRegs P.PTPCLK) ∧ t = { s with regs := t.regs, resp := t.resp, field := t.field }) ∧
--w ptpS; ⟨0, true⟩; 999999999
  (∀ (s : State) (q : Req) (sec : BitVec 32) (ns : Fin 1000000000), OpenTo s q P.PTPCLK → s.flag F.PTPCLK_TARGET_HI_ARMED = true →
      s.ptpTarget ≤ ((s.fld F.PTPCLK_TIME_HI_SEC_HI * 2 ^ 32 + sec.toNat) * 1000000000 + ns.val) * 2 ^ 32 →
    ∃ t, exec (.ptpSet q (BitVec.ofNat 64 (ns.val + 2 ^ 32 * sec.toNat))) s = .next t ∧ t.fld F.PTPCLK_TIME_SEC = sec.toNat ∧
      t.fld F.PTPCLK_TIME_NS = ns.val ∧ t.flag F.PTPCLK_TARGET_HI_ARMED = false ∧ t.event P.PTPCLK E.PTPCLK_TARGET = true ∧
      t.shuttle = (s.pulse 57).shuttle ∧
      KeepsRegs s t ([R.PTPCLK_TIME, R.PTPCLK_TARGET_HI, R.EVT_RAW P.PTPCLK] ++ logRegs P.PTPCLK) ∧
      t = { s with regs := t.regs, resp := t.resp, field := t.field, shuttle := t.shuttle }) ∧
--w (ptpS.setFld F.PTPCLK_TARGET_HI_ARMED 1).setFld F.PTPCLK_TARGET_SEC 41; ⟨0, true⟩; 41; 5
  (∀ (s : State), (s.ptpRuns && s.flag F.PTPCLK_TARGET_HI_ARMED) = false → ∃ t, exec .ptpTarget s = .next t ∧ t = s) ∧
--w State.reset
  (∀ (s : State), s.ptpRuns = false → ∃ t, exec .ptpSecond s = .next t ∧ t = s) ∧
--w State.reset
  (∀ (s : State) (n : Fin 2) (quanta : BitVec 16), (s.ethHears n.val && s.flag (F.ETH_CFG_PAUSE_EN n.val)) = false →
    ∃ t, exec (.pause n quanta) s = .next t ∧ t = s)
--w State.reset; 1; 5

/-- UART_CHARACTER, FRAME_END and BREAK. -/
def Obligations.UartCharactersFramesAndBreaks : Prop :=
  (∀ (s : State) (n : Fin 6) (b : Byte) (last : Bool) (rest : List UartTx), s.ioLive (P.UART n.val) = true → (s.uart n.val).tx = ⟨b, last, false⟩ :: rest →
    ∃ t, exec (.uartCharacter n .tx) s = .next t ∧ (t.uart n.val).tx = rest ∧ (t.uart n.val).shift = b ∧
      (t.uart n.val).txCrc = (if last then 0xFFFF else Crc.run32 0xA001 (s.uart n.val).txCrc [b]) ∧
      (t.uart n.val).rx = (s.uart n.val).rx ∧ (∀ m : Fin 6, m ≠ n → t.uart m.val = s.uart m.val) ∧
      KeepsRegs s t [R.UART_STAT n.val] ∧ t = { s with regs := t.regs, field := { s.field with uart := t.field.uart } }) ∧
--w uartS 3 10 8 { UartPort.idle with tx := [⟨0x41#8, false, false⟩, ⟨0x42#8, true, true⟩] }; 2; 0x41; false; [⟨0x42#8, true, true⟩]
  (∀ (s : State) (n : Fin 6) (b : Byte), s.ioLive (P.UART n.val) = true → (s.uart n.val).tx = [⟨b, true, true⟩] →
    ∃ t, exec (.uartCharacter n .tx) s = .next t ∧ (t.uart n.val).shift = b ∧ (t.uart n.val).txCrc = 0xFFFF ∧
      (t.uart n.val).tx = [⟨(leBytes 2 (Crc.run32 0xA001 (s.uart n.val).txCrc [b])).getD 0 0#8, false, false⟩,
        ⟨(leBytes 2 (Crc.run32 0xA001 (s.uart n.val).txCrc [b])).getD 1 0#8, true, false⟩] ∧
      KeepsRegs s t [R.UART_STAT n.val] ∧ t = { s with regs := t.regs, field := { s.field with uart := t.field.uart } }) ∧
--w uartS 3 10 8 { UartPort.idle with tx := [⟨0x42#8, true, true⟩] }; 2; 0x42
  (∀ (s : State) (n : Fin 6) (b : Byte) (gap : Nat), s.ioLive (P.UART n.val) = true → s.bankLive 2 = true → s.flag (F.UART_STAT_DE n.val) = false →
      (s.uart n.val).discard = false → s.fld (F.UART_CFG_MODE n.val) = 0 → s.flag (F.UART_CFG_DATA7 n.val) = false → (s.uart n.val).level < 64 →
    ∃ t, exec (.uartCharacter n (.rx b false false gap)) s = .next t ∧
      t.uart n.val = { s.uart n.val with rx := (s.uart n.val).rx ++ [.char b], frame := (s.uart n.val).frame ++ [b] } ∧
      t.fld (F.UART_STAT_RX_LEVEL n.val) = (s.uart n.val).level + 1 ∧ t.flag (F.UART_STAT_RX_IDLE n.val) = false ∧
      t.flag (F.UART_STAT_BREAK n.val) = false ∧ (∀ m : Fin 6, m ≠ n → t.uart m.val = s.uart m.val) ∧
      KeepsRegs s t [R.UART_STAT n.val] ∧ t = { s with regs := t.regs, field := { s.field with uart := t.field.uart } }) ∧
--w uartS 0 0 8 UartPort.idle; 2; 0x41; 3
  (∀ (s : State) (n : Fin 6) (b : Byte) (parity : Bool) (gap : Nat), s.ioLive (P.UART n.val) = true → s.bankLive 2 = true → s.flag (F.UART_STAT_DE n.val) = false →
      (s.uart n.val).discard = false → s.fld (F.UART_CFG_MODE n.val) ≠ 2 → s.portItem 2 n.val = none →
    ∃ t, exec (.uartCharacter n (.rx b true parity gap)) s = .next t ∧ t.fld (F.UART_ERR_LAST_DETAIL n.val) = 1 ∧
      t.fld (F.UART_ERR_COUNT n.val) = min (2 ^ (F.UART_ERR_COUNT 0).width - 1) (s.fld (F.UART_ERR_COUNT n.val) + 1) ∧
      t.event (P.UART n.val) E.UART_ERROR = true ∧ AMap.get? t.field.held n.val = some ((AMap.get? s.field.held n.val).getD 1) ∧
      (t.uart n.val).rx = (s.uart n.val).rx ∧ KeepsRegs s t [R.UART_STAT n.val, R.UART_ERR n.val, R.EVT_RAW (P.UART n.val)] ∧
      t = { s with regs := t.regs, field := { s.field with uart := t.field.uart, held := t.field.held } }) ∧
--w uartS 0 0 8 UartPort.idle; 2; 0x41; false; 3
  (∀ (s : State) (n : Fin 6) (c : Nat) (k : HeddleChannel) (it : HeddleItem) (bs : List Byte), s.ioLive (P.UART n.val) = true → s.bankLive 2 = true →
      s.fld (F.UART_CFG_MODE n.val) = 0 → s.fld (F.UART_FRAME_IDLE n.val) ≠ 0 → s.PortWork 2 n.val c k it → it.param = 0 →
      (s.uart n.val).frame ≠ [] → (s.uart n.val).rx = bs.map .char → 0 < bs.length → bs.length ≤ 64 → it.done + bs.length < it.len →
      s.PlainRange k.e.inst (it.dst + it.done) bs.length →
    ∃ t, exec (.frameEnd n) s = .next t ∧ t.bytesAt (it.dst + it.done) bs.length = bs ∧ KeepsMemBut s t (it.dst + it.done) bs.length ∧
      t.itemStatus c it.index = some (1, 0) ∧ (t.uart n.val).rx = [] ∧ (t.uart n.val).frame = [] ∧ t.flag (F.UART_STAT_RX_IDLE n.val) = true ∧
      t.event (P.UART n.val) E.UART_FRAME_END = true ∧ OnlyWork s t c ∧
      KeepsRegs s t [R.UART_STAT n.val, R.EVT_RAW (P.UART n.val), R.DMC_CHAN_STAT] ∧
      t = { s with regs := t.regs, mem := t.mem, memory := t.memory, heddle := t.heddle, field := { s.field with uart := t.field.uart } }) ∧
--w (uartS 2 2 8 { UartPort.idle with rx := [.char 1, .char 2, .char 3], frame := [1, 2, 3] }).setFld (F.UART_FRAME_IDLE 2) 4; 2; 9; chan0 2 2 (serIt 8 0); serIt 8 0; [1, 2, 3]
  (∀ (s : State) (n : Fin 6), s.ioLive (P.UART n.val) = true → s.portItem 2 n.val = none →
    ∃ t, exec (.break n) s = .next t ∧ t.flag (F.UART_STAT_BREAK n.val) = true ∧ t.event (P.UART n.val) E.UART_BREAK = true ∧
      t.event (P.UART n.val) E.UART_ERROR = true ∧ t.fld (F.UART_ERR_LAST_DETAIL n.val) = 8 ∧
      t.fld (F.UART_ERR_COUNT n.val) = min (2 ^ (F.UART_ERR_COUNT 0).width - 1) (s.fld (F.UART_ERR_COUNT n.val) + 1) ∧
      AMap.get? t.field.held n.val = some ((AMap.get? s.field.held n.val).getD 8) ∧
      t.uart n.val = { s.uart n.val with
        frame := [], gap := false, lost := false, discard := (s.uart n.val).discard || decide (s.fld (F.UART_CFG_MODE n.val) = 2) } ∧
      (∀ m : Fin 6, m ≠ n → t.uart m.val = s.uart m.val) ∧
      KeepsRegs s t [R.UART_STAT n.val, R.UART_ERR n.val, R.EVT_RAW (P.UART n.val)] ∧
      t = { s with regs := t.regs, field := { s.field with uart := t.field.uart, held := t.field.held } }) ∧
--w uartS 0 0 8 { UartPort.idle with frame := [1, 2] }; 2
  (∀ (s : State) (n : Fin 6), s.ioLive (P.UART n.val) = true → (s.uart n.val).tx = [] → ∃ t, exec (.uartCharacter n .tx) s = .next t ∧ t = s) ∧
--w uartS 0 0 8 UartPort.idle; 2
  (∀ (s : State) (n : Fin 6) (b : Byte) (framing parity : Bool) (gap : Nat), s.ioLive (P.UART n.val) = true →
      (s.bankLive 2 = false ∨ s.flag (F.UART_STAT_DE n.val) = true ∧ s.flag (F.UART_CFG_ECHO n.val) = false) →
    ∃ t, exec (.uartCharacter n (.rx b framing parity gap)) s = .next t ∧ t = s) ∧
--w (uartS 0 0 8 UartPort.idle).setFld F.PWR_OUT_BANK_C 0; 2; 5; false; false; 7
  (∀ (s : State) (n : Fin 6) (b : Byte) (gap : Nat), s.ioLive (P.UART n.val) = true → s.bankLive 2 = true → s.flag (F.UART_STAT_DE n.val) = false →
      (s.uart n.val).discard = false → s.fld (F.UART_CFG_MODE n.val) = 0 → 64 ≤ (s.uart n.val).level → s.portItem 2 n.val = none →
    ∃ t, exec (.uartCharacter n (.rx b false false gap)) s = .next t ∧ t.uart n.val = { s.uart n.val with lost := true } ∧
      t.fld (F.UART_ERR_LAST_DETAIL n.val) = 3 ∧ t.event (P.UART n.val) E.UART_ERROR = true ∧
      t.fld (F.UART_ERR_COUNT n.val) = min (2 ^ (F.UART_ERR_COUNT 0).width - 1) (s.fld (F.UART_ERR_COUNT n.val) + 1) ∧
      KeepsRegs s t [R.UART_STAT n.val, R.UART_ERR n.val, R.EVT_RAW (P.UART n.val)] ∧
      t = { s with regs := t.regs, field := { s.field with uart := t.field.uart, held := t.field.held } }) ∧
--w uartS 0 0 8 { UartPort.idle with rx := List.replicate 64 (.char 5) }; 2; 5; 7
  (∀ (s : State) (n : Fin 6), s.ioLive (P.UART n.val) = true → s.bankLive 2 = true → s.fld (F.UART_CFG_MODE n.val) = 2 →
    ∃ t, exec (.frameEnd n) s = .next t ∧ t.uart n.val = { s.uart n.val with discard := false } ∧ t.flag (F.UART_STAT_RX_IDLE n.val) = true ∧
      (∀ m : Fin 6, m ≠ n → t.uart m.val = s.uart m.val) ∧ KeepsRegs s t [R.UART_STAT n.val] ∧
      t = { s with regs := t.regs, field := { s.field with uart := t.field.uart } }) ∧
--w (uartS 0 0 8 { UartPort.idle with discard := true }).setFld (F.UART_CFG_MODE 2) 2; 2
  (∀ (s : State) (n : Fin 6), s.ioLive (P.UART n.val) = true → s.bankLive 2 = true → s.fld (F.UART_CFG_MODE n.val) = 0 →
      s.fld (F.UART_FRAME_IDLE n.val) = 0 →
    ∃ t, exec (.frameEnd n) s = .next t ∧ t.flag (F.UART_STAT_RX_IDLE n.val) = true ∧ KeepsRegs s t [R.UART_STAT n.val] ∧ t = { s with regs := t.regs }) ∧
--w (uartS 0 0 8 UartPort.idle).setFld (F.UART_FRAME_IDLE 2) 0; 2
  (∀ (s : State) (n : Fin 6), (s.ioLive (P.UART n.val) && s.bankLive 2) = false → ∃ t, exec (.frameEnd n) s = .next t ∧ t = s) ∧
--w State.reset; 2
  (∀ (s : State) (n : Fin 6) (x : UartChar), s.ioLive (P.UART n.val) = false →
    ∃ t, exec (.uartCharacter n x) s = .next t ∧ t = s ∧ exec (.break n) s = .next t)
--w State.reset; 2; .tx

/-- SPI_TRANSFER, CS_RELEASE, I2C_TRANSFER and I2C_RECOVER. -/
def Obligations.SpiAndI2cTransfers : Prop :=
  (∀ (s : State) (n : Fin 2) (c : Nat) (k : HeddleChannel) (it : HeddleItem) (miso : List Byte), s.PortWork 3 (0x11 + 2 * n.val) c k it →
      s.portItem 2 (0x10 + 2 * n.val) = none → s.ioLive (P.SPI n.val) = true → it.param ≤ 1 → (s.spi n.val).cs = none → it.done + miso.length = it.len →
      0 < miso.length → s.PlainRange k.e.inst (it.src + it.done) miso.length →
    ∃ t, exec (.spiTransfer n miso) s = .next t ∧ t.itemStatus c it.index = some (0, 0) ∧
      (t.itemAt c it.index).map (fun x => x.done) = some it.len ∧ (t.spi n.val).cs = none ∧ (t.spi n.val).mosi.length = miso.length ∧
      (∀ (m : Fin miso.length) (b : Fin 8), ((t.spi n.val).mosi.getD m.val 0#8).getLsbD (7 - b.val) =
        ((s.bytesAt (it.src + it.done) miso.length).getD m.val 0#8).getLsbD (if s.flag (F.SPI_CFG_LSB_FIRST n.val) then b.val else 7 - b.val)) ∧ t.flag (F.SPI_STAT_BUSY n.val) = false ∧
      t.fld (F.SPI_DISCARD_COUNT n.val) = min (2 ^ (F.SPI_DISCARD_COUNT 0).width - 1) (s.fld (F.SPI_DISCARD_COUNT n.val) + miso.length) ∧
      OnlyWork s t c ∧ KeepsMem s t ∧ KeepsRegs s t [R.SPI_STAT n.val, R.SPI_DISCARD n.val] ∧
      t = { s with regs := t.regs, memory := t.memory, heddle := t.heddle, field := { s.field with spi := t.field.spi } }) ∧
--w (spiS 0).delHch 10; 1; 9; chan0 3 0x13 (serIt 3 1); serIt 3 1; [1, 2, 3]
--w ((spiS 0).delHch 10).setFld (F.SPI_CFG_LSB_FIRST 1) 1; 1; 9; chan0 3 0x13 (serIt 3 1); serIt 3 1; [1, 2, 3]
  (∀ (s : State) (n : Fin 2) (c : Nat) (k : HeddleChannel) (it : HeddleItem) (miso : List Byte), s.PortWork 3 (0x11 + 2 * n.val) c k it →
      s.portItem 2 (0x10 + 2 * n.val) = none → s.ioLive (P.SPI n.val) = true → it.param % 256 = 4 → it.param < 65536 → (s.spi n.val).cs = none →
      it.done + miso.length = it.len → 0 < miso.length → s.flag (F.SPI_CFG_LSB_FIRST n.val) = false →
    ∃ t, exec (.spiTransfer n miso) s = .next t ∧ t.itemStatus c it.index = some (0, 0) ∧
      (t.spi n.val) = ⟨none, List.replicate miso.length (BitVec.ofNat 8 (it.param / 256))⟩ ∧ OnlyWork s t c ∧ KeepsMem s t ∧
      KeepsRegs s t [R.SPI_STAT n.val, R.SPI_DISCARD n.val]) ∧
--w (((spiS 0).delHch 10).setHch 9 (chan0 3 0x13 (serIt 3 0x5A04))); 1; 9; chan0 3 0x13 (serIt 3 0x5A04); serIt 3 0x5A04; [1, 2, 3]
  (∀ (s : State) (n : Fin 2) (c d : Nat) (k l : HeddleChannel) (it jt : HeddleItem) (miso : List Byte), s.PortWork 3 (0x11 + 2 * n.val) c k it →
      s.PortWork 2 (0x10 + 2 * n.val) d l jt → s.ioLive (P.SPI n.val) = true → s.bankLive 0 = true → it.param = 2 ∨ it.param = 3 → jt.param = 0 → jt.done = 0 → c ≠ d →
      (s.spi n.val).cs = none → s.flag (F.SPI_CFG_LSB_FIRST n.val) = false → it.done + miso.length = it.len → miso.length = jt.len → 0 < miso.length → jt.dst % 64 + miso.length ≤ 64 →
      s.PlainRange k.e.inst (it.src + it.done) miso.length → s.PlainRange l.e.inst jt.dst miso.length →
    ∃ t, exec (.spiTransfer n miso) s = .next t ∧ t.itemStatus c it.index = some (0, 0) ∧ t.itemStatus d jt.index = some (0, 0) ∧
      t.bytesAt jt.dst miso.length = miso ∧ KeepsMemBut s t jt.dst miso.length ∧ (t.spi n.val).cs = some (it.param % 2) ∧
      (∀ m : Fin 4096, m.val ≠ c → m.val ≠ d → t.hch m.val = s.hch m.val) ∧ t.flag (F.SPI_STAT_BUSY n.val) = false ∧ KeepsRegs s t [R.SPI_STAT n.val, R.DMC_CHAN_STAT] ∧
      t = { s with regs := t.regs, mem := t.mem, memory := t.memory, heddle := t.heddle, field := { s.field with spi := t.field.spi } }) ∧
--w spiS 2; 1; 9; 10; chan0 3 0x13 (serIt 3 3); { chan0 2 0x12 (serIt 3 0) with e := { ent0 2 0x12 with cq := 6 } }; serIt 3 3; serIt 3 0; [1, 2, 3]
  (∀ (s : State) (n : Fin 2) (c : Nat) (k : HeddleChannel) (it : HeddleItem) (x : Nat), s.flag (F.SPI_STAT_BUSY n.val) = false →
      (s.spi n.val).cs = some x → s.PortWork 2 (0x10 + 2 * n.val) c k it → it.started = true →
    ∃ t, exec (.csRelease n) s = .next t ∧ (t.spi n.val).cs = none ∧ t.fld (F.SPI_STAT_CS n.val) = s.fld (F.SPI_CS_FORCE n.val) ∧
      t.itemStatus c it.index = some (if it.done = it.len then (0, 0) else (1, 0)) ∧ OnlyWork s t c ∧ KeepsMem s t ∧
      KeepsRegs s t [R.SPI_STAT n.val] ∧ t = { s with regs := t.regs, heddle := t.heddle, field := { s.field with spi := t.field.spi } }) ∧
--w spiHeld; 1; 10; heldRx; { serIt 3 0 with started := true, done := 1, bytes := 1 }; 1
  (∀ (s : State) (n : Fin 2) (c : Nat) (k : HeddleChannel) (it : HeddleItem) (data : List Byte), s.PortWork 3 (0x15 + 2 * n.val) c k it →
      s.portItem 2 (0x14 + 2 * n.val) = none → s.ioLive (P.I2C n.val) = true → s.bankLive 0 = true → clearBits it.param 0xFFF = 0 → (s.i2c n.val).hold = false →
      s.PlainRange k.e.inst it.src it.len →
    ∃ t, exec (.i2cTransfer n (.done data)) s = .next t ∧ t.itemStatus c it.index = some (0, 0) ∧ t.i2c n.val = ⟨it.param.testBit 11, true⟩ ∧
      (t.itemAt c it.index).map (fun x => x.bytes) = some it.len ∧ t.flag (F.I2C_STAT_BUS_BUSY n.val) = it.param.testBit 11 ∧
      OnlyWork s t c ∧ KeepsMem s t ∧ KeepsRegs s t [R.I2C_STAT n.val] ∧
      t = { s with regs := t.regs, memory := t.memory, heddle := t.heddle, field := { s.field with i2c := t.field.i2c } }) ∧
--w i2cS 3 0x15 0x850; 0; 9; chan0 3 0x15 (serIt 4 0x850); serIt 4 0x850; []
  (∀ (s : State) (n : Fin 2) (c : Nat) (k : HeddleChannel) (it : HeddleItem) (data : List Byte), s.PortWork 2 (0x14 + 2 * n.val) c k it →
      s.portItem 3 (0x15 + 2 * n.val) = none → s.ioLive (P.I2C n.val) = true → s.bankLive 0 = true → clearBits it.param 0x7FF = 0 → data.length = it.len → 0 < it.len →
      s.PlainRange k.e.inst it.dst it.len →
    ∃ t, exec (.i2cTransfer n (.done data)) s = .next t ∧ t.itemStatus c it.index = some (0, 0) ∧ t.bytesAt it.dst it.len = data ∧
      KeepsMemBut s t it.dst it.len ∧ t.i2c n.val = ⟨false, false⟩ ∧ OnlyWork s t c ∧ KeepsRegs s t [R.I2C_STAT n.val, R.DMC_CHAN_STAT] ∧
      t = { s with regs := t.regs, mem := t.mem, memory := t.memory, heddle := t.heddle, field := { s.field with i2c := t.field.i2c } }) ∧
--w i2cS 2 0x14 0x50; 0; 9; chan0 2 0x14 (serIt 4 0x50); serIt 4 0x50; [1, 2, 3, 4]
  (∀ (s : State) (n : Fin 2) (c : Nat) (k : HeddleChannel) (it : HeddleItem), s.PortWork 3 (0x15 + 2 * n.val) c k it →
      s.portItem 2 (0x14 + 2 * n.val) = none → s.ioLive (P.I2C n.val) = true → s.bankLive 0 = true → clearBits it.param 0xFFF = 0 → (s.i2c n.val).hold = false →
    ∃ t, exec (.i2cTransfer n .addrNack) s = .next t ∧ t.itemStatus c it.index = some (4, 1) ∧ t.fld (F.I2C_ERR_LAST_DETAIL n.val) = 1 ∧
      t.fld (F.I2C_ERR_COUNT n.val) = min (2 ^ (F.I2C_ERR_COUNT 0).width - 1) (s.fld (F.I2C_ERR_COUNT n.val) + 1) ∧
      t.event (P.I2C n.val) E.I2C_ERROR = true ∧ OnlyWork s t c ∧ KeepsRegs s t [R.I2C_STAT n.val, R.I2C_ERR n.val, R.EVT_RAW (P.I2C n.val)] ∧
      t = { s with regs := t.regs, heddle := t.heddle, field := { s.field with i2c := t.field.i2c } }) ∧
--w i2cS 3 0x15 0x50; 0; 9; chan0 3 0x15 (serIt 4 0x50); serIt 4 0x50
  (∀ (s : State) (q : Req) (n : Fin 2) (freed : Bool), OpenTo s q (P.I2C n.val) →
    ∃ t, exec (.i2cRecover q n freed) s = .next t ∧ (t.i2c n.val).hold = false ∧ t.flag (F.I2C_STAT_BUS_BUSY n.val) = false ∧
      (freed = true → s.bankLive 0 = true → t.flag (F.I2C_STAT_BUS_STUCK n.val) = false ∧ t.flag (F.I2C_STAT_SDA n.val) = true ∧ t.flag (F.I2C_STAT_SCL n.val) = true) ∧
      KeepsRegs s t ([R.I2C_RECOVER n.val, R.I2C_STAT n.val] ++ logRegs (P.I2C n.val)) ∧
      t = { s with regs := t.regs, resp := t.resp, field := { s.field with i2c := t.field.i2c } }) ∧
--w (fieldS 0 0 item0).setFld (F.I2C_STAT_BUS_STUCK 1) 1; ⟨0, true⟩; 1; true
  (∀ (s : State) (n : Fin 2) (c : Nat) (k : HeddleChannel) (it : HeddleItem) (b : Nat), s.PortWork 3 (0x15 + 2 * n.val) c k it →
      s.portItem 2 (0x14 + 2 * n.val) = none → s.ioLive (P.I2C n.val) = true → s.bankLive 0 = true → clearBits it.param 0xFFF = 0 →
      (s.i2c n.val).hold = false → s.PlainRange k.e.inst it.src it.len → b ≤ it.len →
    ∃ t, exec (.i2cTransfer n (.dataNack b)) s = .next t ∧ t.itemStatus c it.index = some (4, 2) ∧ t.fld (F.I2C_ERR_LAST_DETAIL n.val) = 2 ∧
      (t.itemAt c it.index).map (fun x => x.bytes) = some b ∧ t.event (P.I2C n.val) E.I2C_ERROR = true ∧ OnlyWork s t c ∧ KeepsMem s t ∧
      KeepsRegs s t [R.I2C_STAT n.val, R.I2C_ERR n.val, R.EVT_RAW (P.I2C n.val)] ∧
      t = { s with regs := t.regs, memory := t.memory, heddle := t.heddle, field := { s.field with i2c := t.field.i2c } }) ∧
--w i2cS 3 0x15 0x50; 0; 9; chan0 3 0x15 (serIt 4 0x50); serIt 4 0x50; 2
  (∀ (s : State) (n : Fin 2) (c : Nat) (k : HeddleChannel) (it : HeddleItem) (r : I2cResult), s.PortWork 3 (0x15 + 2 * n.val) c k it →
      s.portItem 2 (0x14 + 2 * n.val) = none → s.ioLive (P.I2C n.val) = true → clearBits it.param 0xFFF = 0 → (s.i2c n.val).hold = false →
      (r = .stuck ∧ s.bankLive 0 = true ∨ s.bankLive 0 = false ∧ s.PlainRange k.e.inst it.src 0) →
    ∃ t, exec (.i2cTransfer n r) s = .next t ∧ t.itemStatus c it.index = some (4, 4) ∧ t.fld (F.I2C_ERR_LAST_DETAIL n.val) = 4 ∧
      (s.bankLive 0 = true → t.flag (F.I2C_STAT_BUS_STUCK n.val) = true) ∧ t.event (P.I2C n.val) E.I2C_ERROR = true ∧ OnlyWork s t c ∧
      KeepsMem s t ∧ KeepsRegs s t [R.I2C_STAT n.val, R.I2C_ERR n.val, R.EVT_RAW (P.I2C n.val)] ∧
      t = { s with regs := t.regs, memory := t.memory, heddle := t.heddle, field := { s.field with i2c := t.field.i2c } }) ∧
--w i2cS 3 0x15 0x50; 0; 9; chan0 3 0x15 (serIt 4 0x50); serIt 4 0x50; .stuck
  (∀ (s : State) (n : Fin 2) (r : I2cResult), (s.ioLive (P.I2C n.val) = false ∨
      s.portItem 3 (0x15 + 2 * n.val) = none ∧ s.portItem 2 (0x14 + 2 * n.val) = none) →
    ∃ t, exec (.i2cTransfer n r) s = .next t ∧ t = s) ∧
--w State.reset; 0; .stuck
  (∀ (s : State) (n : Fin 2) (miso : List Byte), (s.portItem 3 (0x11 + 2 * n.val) = none ∨
      s.ioLive (P.SPI n.val) = false ∧ (s.portItem 3 (0x11 + 2 * n.val)).all (fun x => clearBits x.2.2.param 0xFF07 == 0) = true) →
    ∃ t, exec (.spiTransfer n miso) s = .next t ∧ t = s) ∧
--w State.reset; 0; [1, 2]
  (∀ (s : State) (n : Fin 2) (c : Nat) (k : HeddleChannel) (it : HeddleItem) (miso : List Byte), s.PortWork 3 (0x11 + 2 * n.val) c k it →
      clearBits it.param 0xFF07 ≠ 0 →
    ∃ t, exec (.spiTransfer n miso) s = .next t ∧ t.itemStatus c it.index = some (11, 1) ∧ OnlyWork s t c ∧ t = { s with heddle := t.heddle }) ∧
--w (spiS 0).setHch 9 (chan0 3 0x13 (serIt 3 8)); 1; 9; chan0 3 0x13 (serIt 3 8); serIt 3 8; [1]
  (∀ (s : State) (n : Fin 2) (x : Nat), s.flag (F.SPI_STAT_BUSY n.val) = false → (s.spi n.val).cs = some x →
      (s.portItem 2 (0x10 + 2 * n.val)).all (fun y => ! y.2.2.started) = true →
    ∃ t, exec (.csRelease n) s = .next t ∧ (t.spi n.val).cs = none ∧ t.fld (F.SPI_STAT_CS n.val) = s.fld (F.SPI_CS_FORCE n.val) ∧
      KeepsRegs s t [R.SPI_STAT n.val] ∧ t = { s with regs := t.regs, field := { s.field with spi := t.field.spi } }) ∧
--w (spiS 0).setSpi 1 ⟨some 1, []⟩; 1; 1
  (∀ (s : State) (n : Fin 2), (s.flag (F.SPI_STAT_BUSY n.val) = true ∨ (s.spi n.val).cs = none) →
    ∃ t, exec (.csRelease n) s = .next t ∧ t = s)
--w State.reset; 1

/-- ADC_TRIGGER, ADC_SW_TRIG, ADC_CONVERSION, SEQUENCE_END and FLUSH. -/
def Obligations.AdcTriggersConversionsAndSequences : Prop :=
  (∀ (s : State) (n : Fin 2), s.ioLive (P.ADC n.val) = true → s.flag (F.ADC_TRIG_REED n.val) = true → (s.adc n.val).run = none →
    ∃ t, exec (.adcTrigger n .reed) s = .next t ∧
      t.adc n.val = { s.adc n.val with run := some ⟨s.phaseNow, 0, s.raw (R.ADC_SEQ n.val), s.flag (F.ADC_CFG_FORMAT n.val), s.flag (F.ADC_CFG_CONT n.val), false⟩ } ∧
      t.flag (F.ADC_FIFO_BUSY n.val) = true ∧ KeepsRegs s t [R.ADC_FIFO n.val] ∧
      t = { s with regs := t.regs, field := { s.field with adc := t.field.adc } }) ∧
--w adcS AdcPort.idle; 1
  (∀ (s : State) (n : Fin 2), s.ioLive (P.ADC n.val) = true → s.flag (F.ADC_TRIG_SHUTTLE n.val) = true → (s.adc n.val).run.isSome = true →
      (s.adc n.val).held = none →
    ∃ t, exec (.adcTrigger n .shuttle) s = .next t ∧ t.adc n.val = { s.adc n.val with held := some s.phaseNow } ∧
      t.flag (F.ADC_FIFO_PENDING n.val) = true ∧ KeepsRegs s t [R.ADC_FIFO n.val] ∧
      t = { s with regs := t.regs, field := { s.field with adc := t.field.adc } }) ∧
--w adcS { AdcPort.idle with run := some (adcQ 1) }; 1
  (∀ (s : State) (n : Fin 2), s.ioLive (P.ADC n.val) = true → s.flag (F.ADC_TRIG_SHUTTLE n.val) = true → (s.adc n.val).run.isSome = true →
      (s.adc n.val).held.isSome = true →
    ∃ t, exec (.adcTrigger n .shuttle) s = .next t ∧ t.event (P.ADC n.val) E.ADC_MISSED = true ∧
      t.fld (F.ADC_STAT_MISSED n.val) = min (2 ^ (F.ADC_STAT_MISSED 0).width - 1) (s.fld (F.ADC_STAT_MISSED n.val) + 1) ∧
      KeepsRegs s t [R.ADC_STAT n.val, R.EVT_RAW (P.ADC n.val)] ∧ t = { s with regs := t.regs }) ∧
--w adcS { AdcPort.idle with run := some (adcQ 1), held := some none }; 1
  (∀ (s : State) (q : Req) (n : Fin 2), OpenTo s q (P.ADC n.val) → s.ioLive (P.ADC n.val) = true → s.flag (F.ADC_TRIG_SW n.val) = true →
      (s.adc n.val).run = none →
    ∃ t, exec (.adcSwTrig q n) s = .next t ∧
      t.adc n.val = { s.adc n.val with run := some ⟨s.phaseNow, 0, s.raw (R.ADC_SEQ n.val), s.flag (F.ADC_CFG_FORMAT n.val), s.flag (F.ADC_CFG_CONT n.val), false⟩ } ∧
      KeepsRegs s t ([R.ADC_FIFO n.val, R.ADC_SW_TRIG n.val] ++ logRegs (P.ADC n.val)) ∧
      t = { s with regs := t.regs, resp := t.resp, field := { s.field with adc := t.field.adc } }) ∧
--w adcS AdcPort.idle; ⟨0, true⟩; 1
  (∀ (s : State) (n : Fin 2) (raw : BitVec 16) (q : AdcSequence) (w : Nat), s.ioLive (P.ADC n.val) = true → (s.adc n.val).run = some q →
      q.done ≤ Bits.get q.seq 24 3 → q.dead = false → q.stamp = some w → (s.adc n.val).fifo.length < 4096 → s.flag (F.ADC_LIMIT_EN n.val) = false →
    ∃ t, exec (.adcConversion n raw) s = .next t ∧
      t.adc n.val = { s.adc n.val with
        run := some { q with done := q.done + 1 }, raws := AMap.put (s.adc n.val).raws q.input raw.toNat
        fifo := (s.adc n.val).fifo ++ [(adcSample raw.toNat (s.fld (F.ADC_CAL_GAIN n.val)) (sext 16 (s.fld (F.ADC_CAL_OFFSET n.val))) q.format, some w)] } ∧
      t.fld (F.ADC_LAST_SAMPLE n.val q.input) =
        adcSample raw.toNat (s.fld (F.ADC_CAL_GAIN n.val)) (sext 16 (s.fld (F.ADC_CAL_OFFSET n.val))) q.format ∧
      t.fld (F.ADC_LAST_ANGLE n.val q.input) = w % 65536 ∧ t.fld (F.ADC_FIFO_LEVEL n.val) = (s.adc n.val).fifo.length + 1 ∧
      KeepsRegs s t [R.ADC_FIFO n.val, R.ADC_LAST n.val q.input] ∧
      t = { s with
        regs := t.regs, field := { s.field with adc := t.field.adc }
        shuttle := { s.shuttle with levels := clearBits s.shuttle.levels (2 ^ (60 + n.val)) } }) ∧
--w adcS { AdcPort.idle with run := some (adcQ 2) }; 1; 0xFFFF; adcQ 2; 0x12345678
  (∀ (s : State) (n : Fin 2) (raw : BitVec 16) (q : AdcSequence), s.ioLive (P.ADC n.val) = true → (s.adc n.val).run = some q →
      q.done ≤ Bits.get q.seq 24 3 → q.dead = false → 4096 ≤ (s.adc n.val).fifo.length → s.flag (F.ADC_LIMIT_EN n.val) = false →
      s.portItem 4 (0x20 + n.val) = none →
    ∃ t, exec (.adcConversion n raw) s = .next t ∧ t.adc n.val = { s.adc n.val with
        run := some { q with done := q.done + 1, dead := true }, raws := AMap.put (s.adc n.val).raws q.input raw.toNat, fifo := [] } ∧ t.event (P.ADC n.val) E.ADC_OVERFLOW = true ∧
      t.fld (F.ADC_STAT_OVERFLOWS n.val) = min (2 ^ (F.ADC_STAT_OVERFLOWS 0).width - 1) (s.fld (F.ADC_STAT_OVERFLOWS n.val) + 1) ∧
      KeepsRegs s t [R.ADC_FIFO n.val, R.ADC_STAT n.val, R.EVT_RAW (P.ADC n.val)] ∧
      t = { s with
        regs := t.regs, field := { s.field with adc := t.field.adc, held := t.field.held }
        shuttle := { s.shuttle with levels := clearBits s.shuttle.levels (2 ^ (60 + n.val)) } }) ∧
--w ((adcS AdcPort.idle).delHch 9).setAdc 1 { AdcPort.idle with run := some (adcQ 2), fifo := List.replicate 4096 (7, none) }; 1; 5; adcQ 2
  (∀ (s : State) (n : Fin 2) (raw : BitVec 16) (q : AdcSequence), s.ioLive (P.ADC n.val) = true → (s.adc n.val).run = some q →
      q.done ≤ Bits.get q.seq 24 3 → q.dead = true → s.flag (F.ADC_LIMIT_EN n.val) = true → s.fld (F.ADC_LIMIT_INPUT n.val) = q.input →
      s.shuttle.levels.testBit (60 + n.val) = false →
    ∃ t, exec (.adcConversion n raw) s = .next t ∧ t.adc n.val = { s.adc n.val with
        run := some { q with done := q.done + 1 }, raws := AMap.put (s.adc n.val).raws q.input raw.toNat } ∧
      t.shuttle.levels.testBit (60 + n.val) =
        decide (raw.toNat < s.fld (F.ADC_LIMIT_LOW n.val) ∨ s.fld (F.ADC_LIMIT_HIGH n.val) < raw.toNat) ∧
      (t.shuttle.levels.testBit (60 + n.val) = true → t.event (P.ADC n.val) E.ADC_LIMIT = true) ∧
      KeepsRegs s t [R.ADC_FIFO n.val, R.EVT_RAW (P.ADC n.val)] ∧
      t = { s with regs := t.regs, field := { s.field with adc := t.field.adc }, shuttle := { s.shuttle with levels := t.shuttle.levels } }) ∧
--w (((adcS { AdcPort.idle with run := some { adcQ 2 with dead := true } }).setFld (F.ADC_LIMIT_EN 1) 1).setFld (F.ADC_LIMIT_HIGH 1) 4).setFld (F.ADC_LIMIT_INPUT 1) (adcQ 2).input; 1; 5; { adcQ 2 with dead := true }
  (∀ (s : State) (n : Fin 2) (q : AdcSequence) (st : Option Nat), s.ioLive (P.ADC n.val) = true → (s.adc n.val).run = some q →
      Bits.get q.seq 24 3 < q.done → (s.adc n.val).held = some st →
    ∃ t, exec (.sequenceEnd n) s = .next t ∧
      t.adc n.val = { s.adc n.val with held := none, run := some ⟨st, 0, s.raw (R.ADC_SEQ n.val), s.flag (F.ADC_CFG_FORMAT n.val), s.flag (F.ADC_CFG_CONT n.val), false⟩ } ∧
      t.shuttle = (s.pulse (58 + n.val)).shuttle ∧ KeepsRegs s t [R.ADC_FIFO n.val] ∧
      t = { s with regs := t.regs, shuttle := t.shuttle, field := { s.field with adc := t.field.adc } }) ∧
--w adcS { AdcPort.idle with run := some (adcQ 4), held := some (some 9) }; 1; adcQ 4; some 9
  (∀ (s : State) (n : Fin 2) (q : AdcSequence), s.ioLive (P.ADC n.val) = true → (s.adc n.val).run = some q →
      Bits.get q.seq 24 3 < q.done → (s.adc n.val).held = none → q.cont = false →
    ∃ t, exec (.sequenceEnd n) s = .next t ∧ t.adc n.val = { s.adc n.val with run := none } ∧ t.flag (F.ADC_FIFO_BUSY n.val) = false ∧
      t.shuttle = (s.pulse (58 + n.val)).shuttle ∧ KeepsRegs s t [R.ADC_FIFO n.val] ∧
      t = { s with regs := t.regs, shuttle := t.shuttle, field := { s.field with adc := t.field.adc } }) ∧
--w adcS { AdcPort.idle with run := some (adcQ 4) }; 1; adcQ 4
  (∀ (s : State) (n : Fin 2) (q : AdcSequence), s.ioLive (P.ADC n.val) = true → (s.adc n.val).run = some q →
      Bits.get q.seq 24 3 < q.done → (s.adc n.val).held = none → q.cont = true →
    ∃ t, exec (.sequenceEnd n) s = .next t ∧
      t.adc n.val = { s.adc n.val with run := some ⟨s.phaseNow, 0, s.raw (R.ADC_SEQ n.val), s.flag (F.ADC_CFG_FORMAT n.val), s.flag (F.ADC_CFG_CONT n.val), false⟩ } ∧
      t.shuttle = (s.pulse (58 + n.val)).shuttle ∧ KeepsRegs s t [R.ADC_FIFO n.val] ∧
      t = { s with regs := t.regs, shuttle := t.shuttle, field := { s.field with adc := t.field.adc } }) ∧
--w adcS { AdcPort.idle with run := some { adcQ 4 with cont := true } }; 1; { adcQ 4 with cont := true }
  (∀ (s : State) (n : Fin 2) (src : AdcSource), (s.ioLive (P.ADC n.val) = false ∨
      (match src with | .reed => s.flag (F.ADC_TRIG_REED n.val) | .shuttle => s.flag (F.ADC_TRIG_SHUTTLE n.val) | .sw => s.flag (F.ADC_TRIG_SW n.val)) = false) →
    ∃ t, exec (.adcTrigger n src) s = .next t ∧ t = s) ∧
--w State.reset; 1; .sw
  (∀ (s : State) (n : Fin 2) (raw : BitVec 16), (s.ioLive (P.ADC n.val) = false ∨ (s.adc n.val).run = none) →
    ∃ t, exec (.adcConversion n raw) s = .next t ∧ t = s ∧ exec (.sequenceEnd n) s = .next t) ∧
--w State.reset; 1; 5
  (∀ (s : State) (q : Req) (n : Fin 2) (format cont : Bool), OpenTo s q (P.ADC n.val) →
    ∃ t, exec (.flush q n format cont) s = .next t ∧ t.adc n.val = { s.adc n.val with fifo := [] } ∧ t.fld (F.ADC_FIFO_LEVEL n.val) = 0 ∧
      t.flag (F.ADC_CFG_FORMAT n.val) = format ∧ t.flag (F.ADC_CFG_CONT n.val) = cont ∧
      KeepsRegs s t ([R.ADC_FIFO n.val, R.ADC_CFG n.val] ++ logRegs (P.ADC n.val)) ∧
      t = { s with regs := t.regs, resp := t.resp, field := { s.field with adc := t.field.adc } })
--w adcS { AdcPort.idle with fifo := [(1, none)] }; ⟨0, true⟩; 1; true; true

/-- MOVE_ANGLE_CROSSING, GPIO_EDGE, GPIO_SET and GPIO_CLR. -/
def Obligations.GpioEdgesOutputsAndMoveAngle : Prop :=
  (∀ (s : State) (n : Fin 2) (c : Nat) (k : HeddleChannel) (it : HeddleItem), s.PortWork 4 (0x20 + n.val) c k it → it.op = 2 → it.released = false → c < 4096 →
      s.portItem 4 (0x21 - n.val) = none → it.len / 2 ≤ (s.adc n.val).fifo.length → s.flag F.REED_STATE_VALID = true → s.reedSt = 5 →
      s.reedClocked = true → s.ReedQuiet → s.reed.due = [] → s.reed.combDue = [] →
      s.reedHighest / cycleUnits = (s.reed.acc.toNat + s.fld F.REED_INC_INC) / cycleUnits →
      crossesAngle (it.param / 65536 % 65536) (s.reed.acc.toNat / ac) ((s.reed.acc.toNat + s.fld F.REED_INC_INC) / ac) = true →
    ∃ t, exec (.moveAngleCrossing n) s = .next t ∧ t.itemAt c it.index = some { it with released := true } ∧ OtherChannels s t c ∧
      t.heddle = { s.heddle with ch := t.heddle.ch } ∧ t.reed.acc = BitVec.ofNat 64 (s.reed.acc.toNat + s.fld F.REED_INC_INC) ∧
      KeepsPages s t [P.REED] ∧ t = { s with regs := t.regs, heddle := t.heddle, reed := t.reed, field := t.field }) ∧
--w (((fieldS 4 0x21 angIt).setAdc 1 { AdcPort.idle with fifo := List.replicate 4 (7, none) }).setFld F.REED_STATE_VALID 1 |> fun s => ((on s P.REED).setFld F.REED_STATE_STATE 5).setFld F.REED_SRC_SRC 3 |>.setFld F.REED_INC_INC 60000).modReed (fun r => { r with acc := 0x00001233FFFFFFF0#64, accepted := true, period := (4000000, 1) }); 1; 9; chan0 4 0x21 angIt; angIt
  (∀ (s : State) (n : Fin 2), s.reedSt = 0 ∨ s.reedTick.adcReleased n.val = false ∨ s.adcReleased n.val = true →
    ∃ t, exec (.moveAngleCrossing n) s = .next t ∧ t = s) ∧
--w State.reset; 1
  (∀ (s : State) (n : Fin 32), s.ballLive (64 + n.val) = true → s.ioLive P.GPIO = true → s.shuttle.balls.testBit (64 + n.val) = false →
      (Bits.get (s.raw (R.GPIO_IRQ_CFG (n.val / 16))) (2 * (n.val % 16)) 2).testBit 0 = true →
      (∀ m : Fin 64, s.flag (F.SHUTTLE_CH_SEL_UNCLOCKED m.val) = false) →
    ∃ t, exec (.gpioEdge n true) s = .next t ∧ t.shuttle.balls.testBit (64 + n.val) = true ∧ (t.raw R.GPIO_IRQ_STAT).getLsbD n.val = true ∧
      (∀ m : Fin 32, m ≠ n → (t.raw R.GPIO_IRQ_STAT).getLsbD m.val = (s.raw R.GPIO_IRQ_STAT).getLsbD m.val) ∧
      t.event P.GPIO E.GPIO_EDGE = true ∧ t.cairn = (s.edge (328 + n.val)).cairn ∧ KeepsPages s t [P.GPIO, P.CAIRN_CTL, P.SHUTTLE] ∧
      t = { s with regs := t.regs, shuttle := t.shuttle, cairn := t.cairn }) ∧
--w ((fieldS 0 0 item0).setReg (R.GPIO_IRQ_CFG 1) 0xFFFFFFFF#64).setFlag F.PWR_OUT_BANK_C true |>.setFlag F.PWR_OUT_BANK_D true; 31
  (∀ (s : State) (n : Fin 32), s.ballLive (64 + n.val) = true → s.shuttle.balls.testBit (64 + n.val) = true →
      (Bits.get (s.raw (R.GPIO_IRQ_CFG (n.val / 16))) (2 * (n.val % 16)) 2).testBit 1 = false →
      (∀ m : Fin 64, s.flag (F.SHUTTLE_CH_SEL_UNCLOCKED m.val) = false) →
    ∃ t, exec (.gpioEdge n false) s = .next t ∧ t.shuttle.balls.testBit (64 + n.val) = false ∧ KeepsPages s t [P.SHUTTLE] ∧
      t = { s with regs := t.regs, shuttle := t.shuttle }) ∧
--w ((fieldS 0 0 item0).setBall 95 true).setFlag F.PWR_OUT_BANK_D true; 31
  (∀ (s : State) (q : Req) (m : BitVec 32), OpenTo s q P.GPIO →
    ∃ t, exec (.gpioSet q m) s = .next t ∧ t.raw R.GPIO_OUT = s.raw R.GPIO_OUT ||| m.zeroExtend 64 ∧ KeepsRegs s t [R.GPIO_OUT] ∧
      t = { s with regs := t.regs, resp := t.resp }) ∧
--w fieldS 0 0 item0; ⟨0, true⟩; 0xA5A5A5A5
  (∀ (s : State) (q : Req) (m : BitVec 32), OpenTo s q P.GPIO →
    ∃ t, exec (.gpioClr q m) s = .next t ∧ t.raw R.GPIO_OUT = s.raw R.GPIO_OUT &&& ~~~ m.zeroExtend 64 ∧ KeepsRegs s t [R.GPIO_OUT] ∧
      t = { s with regs := t.regs, resp := t.resp }) ∧
--w (fieldS 0 0 item0).setReg R.GPIO_OUT 0xFFFFFFFF#64; ⟨0, true⟩; 0xA5A5A5A5
  (∀ (s : State) (n : Fin 2), ((s.portItem 4 (0x20 + n.val)).all (fun x => ! x.2.2.op.testBit 1) = true ∨ s.flag F.REED_STATE_VALID = false ∨
      (s.portItem 4 (0x20 + n.val)).all (fun x => decide ((s.adc n.val).fifo.length < x.2.2.len / 2)) = true ∧
        (s.portItem 4 (0x20 + n.val)).all (fun x => ! x.2.2.op.testBit 0) = true) →
    ∃ t, exec (.moveAngleCrossing n) s = .next t ∧ t = s) ∧
--w ((fieldS 4 0x21 { serIt 8 0 with op := 2 }).setAdc 1 { AdcPort.idle with fifo := List.replicate 3 (7, none) }).setFld F.REED_STATE_VALID 1; 1
  (∀ (s : State) (n : Fin 32) (rising : Bool), s.shuttle.balls.testBit (64 + n.val) = rising →
      (∀ m : Fin 64, s.flag (F.SHUTTLE_CH_SEL_UNCLOCKED m.val) = false) →
    ∃ t, exec (.gpioEdge n rising) s = .next t ∧ t.shuttle.balls.testBit (64 + n.val) = rising ∧ KeepsPages s t [P.SHUTTLE] ∧
      t = { s with regs := t.regs, shuttle := t.shuttle }) ∧
--w (fieldS 0 0 item0).setReg (R.GPIO_IRQ_CFG 1) 0xFFFFFFFF#64; 31; false
  (∀ (s : State) (n : Fin 32), s.ballLive (64 + n.val) = false → (∀ m : Fin 64, s.flag (F.SHUTTLE_CH_SEL_UNCLOCKED m.val) = false) →
    ∃ t, exec (.gpioEdge n true) s = .next t ∧ t.shuttle.balls = s.shuttle.balls ∧ KeepsPages s t [P.SHUTTLE] ∧
      t = { s with regs := t.regs, shuttle := t.shuttle })
--w (fieldS 0 0 item0).setFld F.PWR_OUT_BANK_D 0; 31

/-- TETHER_FRAME, TETHER_CRC_COMMIT and TETHER_ABORT. -/
def Obligations.TetherFramesCommitsAndAborts : Prop :=
  (∀ (s : State) (i : Fin 256), s.tetherHears = true → s.flag F.TETHER_CFG_CRC_REQ = false →
    ∃ t, exec (.tetherFrame (numBits 16 (0x8000 + i.val) ++ List.replicate 32 false)) s = .next t ∧
      t.tether.miso = numBits 16 (s.windowRead 1) ++ numBits 32 (s.windowRead i.val) ∧
      (i.val = 2 → t.tether.raised = 0 ∧ t.tether.raisedSat = false) ∧ (i.val = 0x20 → t.tether.liveErr = false ∧ t.tether.liveLost = false) ∧
      (i.val ≠ 2 → i.val ≠ 0x20 → t.tether = { s.tether with miso := t.tether.miso }) ∧ t = { s with tether := t.tether }) ∧
--w tethS (fun t => { t with raised := 77, raisedSat := true }); 2
--w tethS id; 0
  (∀ (s : State) (n : Fin 8) (v : BitVec 32), s.tetherHears = true → s.flag F.TETHER_CFG_CRC_REQ = false →
    ∃ t, exec (.tetherFrame (numBits 16 (0x10 + n.val) ++ numBits 32 v.toNat)) s = .next t ∧ t.fld (F.TETHER_MBOX_IN_DATA n.val) = v.toNat ∧
      t.tether = { s.tether with frames := (s.tether.frames + 1) % 256, miso := numBits 16 (s.windowRead 1) ++ List.replicate 32 false } ∧
      KeepsRegs s t [R.TETHER_MBOX_IN n.val] ∧ t = { s with regs := t.regs, tether := t.tether }) ∧
--w tethS (fun t => { t with frames := 255 }); 7; 0xDEADBEEF
  (∀ (s : State) (bits : List Bool), s.tetherHears = true → 0 < bits.length → bits.length < 16 →
    ∃ t, exec (.tetherFrame bits) s = .next t ∧ t.fld F.TETHER_ABORT_COUNT_LAST = 1 ∧ t.event P.TETHER E.TETHER_ABORT = true ∧
      t.fld F.TETHER_ABORT_COUNT_COUNT = min (2 ^ F.TETHER_ABORT_COUNT_COUNT.width - 1) (s.fld F.TETHER_ABORT_COUNT_COUNT + 1) ∧
      t.tether = { s.tether with miso := (numBits 16 (s.windowRead 1)).take bits.length } ∧
      KeepsRegs s t [R.TETHER_ABORT_COUNT, R.EVT_RAW P.TETHER] ∧ t = { s with regs := t.regs, tether := t.tether }) ∧
--w tethS id; [true, false, true]
  (∀ (s : State) (bits : List Bool), s.tetherHears = true → 16 < bits.length → bitsNum (bits.take 16) / 2 ^ 8 % 64 = 0 →
      (bitsNum (bits.take 16)).testBit 14 = false → s.flag F.TETHER_CFG_CRC_REQ = true →
    ∃ t, exec (.tetherFrame bits) s = .next t ∧ t.fld F.TETHER_ABORT_COUNT_LAST = 6 ∧ t.event P.TETHER E.TETHER_ABORT = true ∧
      t.tether = { s.tether with miso := numBits 16 (s.windowRead 1) ++ List.replicate (bits.length - 16) false } ∧
      KeepsRegs s t [R.TETHER_ABORT_COUNT, R.EVT_RAW P.TETHER] ∧ t = { s with regs := t.regs, tether := t.tether }) ∧
--w (tethS id).setFld F.TETHER_CFG_CRC_REQ 1; numBits 16 0x10 ++ numBits 32 5
  (∀ (s : State) (n : Fin 8) (words : List (BitVec 32)) (crc : Byte), s.tetherHears = true → 0 < words.length → n.val + words.length ≤ 8 →
      crc8 (beBytes 2 (0x4010 + n.val) ++ words.flatMap (fun w => beBytes 4 w.toNat)) = crc.toNat →
    ∃ t, exec (.tetherCrcCommit (BitVec.ofNat 8 (0x10 + n.val)) words crc) s = .next t ∧
      (∀ j : Fin 8, n.val ≤ j.val → j.val < n.val + words.length → t.fld (F.TETHER_MBOX_IN_DATA j.val) = (words.getD (j.val - n.val) 0#32).toNat) ∧
      t.tether.frames = (s.tether.frames + 1) % 256 ∧ KeepsRegs s t ((List.range words.length).map (fun k => R.TETHER_MBOX_IN (n.val + k))) ∧
      t = { s with regs := t.regs, tether := { s.tether with frames := t.tether.frames, miso := t.tether.miso } }) ∧
--w tethS id; 6; [0xDEADBEEF#32, 0x12345678#32]; BitVec.ofNat 8 (crc8 (beBytes 2 0x4016 ++ beBytes 4 0xDEADBEEF ++ beBytes 4 0x12345678))
  (∀ (s : State) (n : Fin 8) (words : List (BitVec 32)) (crc : Byte), s.tetherHears = true → 0 < words.length → words.length ≤ 16 →
      crc8 (beBytes 2 (0x4010 + n.val) ++ words.flatMap (fun w => beBytes 4 w.toNat)) ≠ crc.toNat →
    ∃ t, exec (.tetherCrcCommit (BitVec.ofNat 8 (0x10 + n.val)) words crc) s = .next t ∧ t.fld F.TETHER_ABORT_COUNT_LAST = 3 ∧
      t.event P.TETHER E.TETHER_ABORT = true ∧ KeepsRegs s t [R.TETHER_ABORT_COUNT, R.EVT_RAW P.TETHER] ∧
      t = { s with regs := t.regs, tether := { s.tether with miso := t.tether.miso } }) ∧
--w tethS id; 6; [0xDEADBEEF#32]; BitVec.ofNat 8 (crc8 (beBytes 2 0x4016 ++ beBytes 4 0xDEADBEEF) + 1)
  (∀ (s : State) (reason : Fin 6), s.tetherHears = true →
    ∃ t, exec (.tetherAbort reason) s = .next t ∧ t.fld F.TETHER_ABORT_COUNT_LAST = reason.val + 1 ∧ t.event P.TETHER E.TETHER_ABORT = true ∧
      t.fld F.TETHER_ABORT_COUNT_COUNT = min (2 ^ F.TETHER_ABORT_COUNT_COUNT.width - 1) (s.fld F.TETHER_ABORT_COUNT_COUNT + 1) ∧
      KeepsRegs s t [R.TETHER_ABORT_COUNT, R.EVT_RAW P.TETHER] ∧ t = { s with regs := t.regs }) ∧
--w (tethS id).setFld F.TETHER_ABORT_COUNT_COUNT 0xFFFF; 5
  (∀ (s : State) (i : Fin 256), s.tetherHears = true →
    ∃ t, exec (.tetherFrame (numBits 16 (0xC000 + i.val) ++ numBits 8 (crc8 (beBytes 2 (0xC000 + i.val))) ++ List.replicate 40 false)) s = .next t ∧
      t.tether.miso = numBits 16 (s.windowRead 1) ++ List.replicate 8 false ++ numBits 32 (s.windowRead i.val) ++
        numBits 8 (crc8 (beBytes 2 (0xC000 + i.val) ++ beBytes 4 (s.windowRead i.val))) ∧
      (i.val = 2 → t.tether.raised = 0 ∧ t.tether.raisedSat = false) ∧ (i.val = 0x20 → t.tether.liveErr = false ∧ t.tether.liveLost = false) ∧
      (i.val ≠ 2 → i.val ≠ 0x20 → t.tether = { s.tether with miso := t.tether.miso }) ∧ t = { s with tether := t.tether }) ∧
--w tethS (fun t => { t with raised := 77, raisedSat := true }); 2
  (∀ (s : State) (bits : List Bool), s.tetherHears = true → 16 < bits.length → bitsNum (bits.take 16) / 2 ^ 8 % 64 ≠ 0 →
    ∃ t, exec (.tetherFrame bits) s = .next t ∧ t.fld F.TETHER_ABORT_COUNT_LAST = 5 ∧ t.event P.TETHER E.TETHER_ABORT = true ∧
      t.tether = { s.tether with miso := numBits 16 (s.windowRead 1) ++ List.replicate (bits.length - 16) false } ∧
      KeepsRegs s t [R.TETHER_ABORT_COUNT, R.EVT_RAW P.TETHER] ∧ t = { s with regs := t.regs, tether := t.tether }) ∧
--w tethS id; numBits 16 0x8100 ++ numBits 32 5
  (∀ (s : State) (n : Fin 8) (v : BitVec 32) (extra : List Bool), s.tetherHears = true → s.flag F.TETHER_CFG_CRC_REQ = false →
      0 < extra.length → extra.length < 32 →
    ∃ t, exec (.tetherFrame (numBits 16 (0x10 + n.val) ++ numBits 32 v.toNat ++ extra)) s = .next t ∧
      t.fld (F.TETHER_MBOX_IN_DATA n.val) = v.toNat ∧ t.fld F.TETHER_ABORT_COUNT_LAST = 2 ∧ t.event P.TETHER E.TETHER_ABORT = true ∧
      t.tether.frames = (s.tether.frames + 1) % 256 ∧
      KeepsRegs s t [R.TETHER_MBOX_IN n.val, R.TETHER_ABORT_COUNT, R.EVT_RAW P.TETHER] ∧
      t = { s with regs := t.regs, tether := { s.tether with frames := t.tether.frames, miso := t.tether.miso } }) ∧
--w tethS id; 7; 0xDEADBEEF; [true, false]
  (∀ (s : State) (index crc : Byte) (words : List (BitVec 32)), s.tetherHears = true → (words = [] ∨ 16 < words.length) →
    ∃ t, exec (.tetherCrcCommit index words crc) s = .next t ∧ t.fld F.TETHER_ABORT_COUNT_LAST = 4 ∧ t.event P.TETHER E.TETHER_ABORT = true ∧
      KeepsRegs s t [R.TETHER_ABORT_COUNT, R.EVT_RAW P.TETHER] ∧ t = { s with regs := t.regs, tether := { s.tether with miso := t.tether.miso } }) ∧
--w tethS id; 0x10; 5; List.replicate 17 7#32
  (∀ (s : State) (bits : List Bool) (index crc : Byte) (words : List (BitVec 32)) (reason : Fin 6), s.tetherHears = false →
    ∃ t, exec (.tetherFrame bits) s = .next t ∧ t = s ∧ exec (.tetherCrcCommit index words crc) s = .next t ∧ exec (.tetherAbort reason) s = .next t)
--w (tethS id).setFld F.PWR_OUT_BANK_A 0; [true]; 0x10; 5; [7#32]; 2

/-- LIVE_LO_COMMIT, LIVE_STREAM, LIVE_ACCESS_DONE, REQ, ATTN_SET, TETHER_KICK and PWDG_EXPIRY. -/
def Obligations.TetherLiveAccessesNoticesAndWatchdog : Prop :=
  (∀ (s : State) (v : BitVec 32), s.tetherHears = true → s.tether.queue = [] → s.flag F.TETHER_CFG_LIVE_EN = true →
      (s.fld F.TETHER_REQ_REQ).testBit 2 = false →
    ∃ t, exec (.liveLoCommit v) s = .next t ∧
      t.tether = { s.tether with liveAddr := s.tether.liveAddr / 2 ^ 32 * 2 ^ 32 + v.toNat / 4 * 4, liveOp := v.getLsbD 0, liveState := 1, queue := [⟨s.tether.liveAddr / 2 ^ 32 * 2 ^ 32 + v.toNat / 4 * 4, v.getLsbD 0, s.tether.liveData⟩] } ∧
      t.fld F.TETHER_STAT_LIVE_STATE = 1 ∧ KeepsRegs s t [R.TETHER_STAT] ∧ t = { s with regs := t.regs, tether := t.tether }) ∧
--w tethS id; 0x80000101
  (∀ (s : State) (v : BitVec 32), s.tetherHears = true → s.tether.queue = [] → s.flag F.TETHER_CFG_LIVE_EN = false →
    ∃ t, exec (.liveLoCommit v) s = .next t ∧ t.tether.liveResp = 4 ∧ t.tether.liveErr = true ∧ t.tether.liveState = 2 ∧
      t.tether.liveOps = (s.tether.liveOps + 1) % 65536 ∧ t.tether.queue = [] ∧ t.tether.liveData = s.tether.liveData ∧
      t.event P.TETHER E.TETHER_LIVE_ERR = true ∧ KeepsRegs s t [R.TETHER_STAT, R.EVT_RAW P.TETHER] ∧ t = { s with regs := t.regs, tether := t.tether }) ∧
--w State.reset.setFld F.TETHER_CFG_LIVE_EN 0; 0x80000101
  (∀ (s : State) (v : BitVec 32), s.tetherHears = true → s.tether.queue.length < 4 → 0 < s.tether.queue.length →
    ∃ t, exec (.liveStream v) s = .next t ∧
      t.tether = { s.tether with liveAddr := (s.tether.liveAddr + 4) % 2 ^ 40, liveState := 1, queue := s.tether.queue ++ [⟨s.tether.liveAddr, true, v⟩] } ∧
      KeepsRegs s t [R.TETHER_STAT] ∧ t = { s with regs := t.regs, tether := t.tether }) ∧
--w tethS (fun t => { t with queue := [⟨4, true, 5⟩], liveAddr := 0xFFFFFFFFFC }); 0x12345678
  (∀ (s : State) (v : BitVec 32), s.tetherHears = true → 4 ≤ s.tether.queue.length →
    ∃ t, exec (.liveStream v) s = .next t ∧
      t = { s with tether := { s.tether with liveAddr := (s.tether.liveAddr + 4) % 2 ^ 40, liveLost := true } }) ∧
--w tethS (fun t => { t with queue := List.replicate 4 ⟨4, true, 5⟩ }); 0x12345678
  (∀ (s : State) (target : Fin 16) (n : Fin 16) (rest : List LiveAccess), s.tether.queue = ⟨R.PWR_RETAIN n.val, false, 0#32⟩ :: rest →
      s.flag F.TETHER_CFG_LIVE_EN = true → s.fabricRuns = true →
    ∃ t, exec (.liveAccessDone target false) s = .next t ∧ t.tether.liveData.toNat = s.fld (F.PWR_RETAIN_DATA n.val) ∧ t.tether.liveResp = 0 ∧
      t.tether.liveState = 2 ∧ t.tether.queue = rest ∧ t.tether.liveErr = s.tether.liveErr ∧ t.tether.liveOps = (s.tether.liveOps + 1) % 65536 ∧
      KeepsRegs s t [R.TETHER_STAT] ∧ t = { s with regs := t.regs, tether := t.tether, resp := t.resp }) ∧
--w (tethS (fun t => { t with queue := [⟨R.PWR_RETAIN 7, false, 0⟩] })).setFld (F.PWR_RETAIN_DATA 7) 0xCAFE; 3; 7; []
  (∀ (s : State) (target : Fin 16) (n : Fin 16) (v : BitVec 32), s.tether.queue = [⟨R.PWR_RETAIN n.val, true, v⟩] →
      s.flag F.TETHER_CFG_LIVE_EN = true → s.fabricRuns = true → s.resetting P.PWR = false →
    ∃ t, exec (.liveAccessDone target false) s = .next t ∧ t.fld (F.PWR_RETAIN_DATA n.val) = v.toNat ∧ t.tether.liveResp = 0 ∧
      t.tether.liveState = 2 ∧ t.tether.queue = [] ∧ t.tether.liveData = s.tether.liveData ∧
      KeepsRegs s t ([R.TETHER_STAT, R.PWR_RETAIN n.val] ++ logRegs P.PWR) ∧ t = { s with regs := t.regs, tether := t.tether, resp := t.resp }) ∧
--w tethS (fun t => { t with queue := [⟨R.PWR_RETAIN 7, true, 0xCAFE⟩] }); 3; 7; 0xCAFE
  (∀ (s : State) (v : BitVec 16), s.tetherHears = true → v ≠ 0#16 → v.getLsbD 2 = false →
    ∃ t, exec (.req v) s = .next t ∧ t.fld F.TETHER_REQ_REQ = s.fld F.TETHER_REQ_REQ ||| v.toNat ∧ t.event P.TETHER E.TETHER_REQ = true ∧
      KeepsRegs s t [R.TETHER_REQ, R.EVT_RAW P.TETHER] ∧ t = { s with regs := t.regs }) ∧
--w (tethS id).setFld F.TETHER_REQ_REQ 0x101; 0xFFFB
  (∀ (s : State) (q : Req) (v : BitVec 16), OpenTo s q P.TETHER → v &&& 0xFE#16 = 0#16 →
    ∃ t, exec (.attnSet q v) s = .next t ∧ t.raw R.TETHER_ATTN = s.raw R.TETHER_ATTN ||| v.zeroExtend 64 ∧
      KeepsRegs s t ([R.TETHER_ATTN, R.TETHER_ATTN_SET] ++ logRegs P.TETHER) ∧ t = { s with regs := t.regs, resp := t.resp }) ∧
--w (tethS id).setFld F.TETHER_ATTN_ATTN 0x101; ⟨0, true⟩; 0xFF01
  (∀ (s : State), s.tetherHears = true → s.flag F.TETHER_PWDG_EN = true →
    ∃ t, exec (.tetherKick 0x7A7A#32) s = .next t ∧ t.fld F.TETHER_PWDG_STAT_LEFT = s.fld F.TETHER_PWDG_TIMEOUT ∧
      t.fld F.TETHER_PWDG_STAT_BAD = s.fld F.TETHER_PWDG_STAT_BAD ∧ KeepsRegs s t [R.TETHER_PWDG_STAT] ∧ t = { s with regs := t.regs }) ∧
--w ((tethS id).setFld F.TETHER_PWDG_EN 1).setFld F.TETHER_PWDG_TIMEOUT 500
  (∀ (s : State) (v : BitVec 32), s.tetherHears = true → v ≠ 0x7A7A#32 →
    ∃ t, exec (.tetherKick v) s = .next t ∧ t.fld F.TETHER_PWDG_STAT_LEFT = s.fld F.TETHER_PWDG_STAT_LEFT ∧
      t.fld F.TETHER_PWDG_STAT_BAD = min 255 (s.fld F.TETHER_PWDG_STAT_BAD + 1) ∧ KeepsRegs s t [R.TETHER_PWDG_STAT] ∧ t = { s with regs := t.regs }) ∧
--w (tethS id).setFld F.TETHER_PWDG_STAT_BAD 255; 0x10007A7A
  (∀ (s : State), s.pwdgCounts = true → s.flag F.TETHER_PWDG_ACTION = false →
    ∃ t, exec .pwdgExpiry s = .next t ∧ t.fld F.TETHER_PWDG_STAT_LEFT = 0 ∧ t.flag F.TETHER_PWDG_STAT_EXPIRED = true ∧
      t.event P.TETHER E.TETHER_PWDG = true ∧ t.cairn = (s.edge 362).cairn ∧ KeepsPages s t [P.TETHER, P.CAIRN_CTL] ∧
      t = { s with regs := t.regs, cairn := t.cairn }) ∧
--w ((tethS id).setFld F.TETHER_PWDG_EN 1).setFld F.TETHER_PWDG_STAT_LEFT 5
  (∀ (s : State), s.pwdgCounts = false → ∃ t, exec .pwdgExpiry s = .next t ∧ t = s) ∧
--w tethS id
  (∀ (s : State), s.tetherHears = true → s.flag F.TETHER_PWDG_EN = false → ∃ t, exec (.tetherKick 0x7A7A#32) s = .next t ∧ t = s) ∧
--w tethS id
  (∀ (s : State) (v : BitVec 32), s.tetherHears = true → s.tether.queue = [] → s.flag F.TETHER_CFG_LIVE_EN = true →
      inBaseCamp s.tether.liveAddr = true → (s.fld F.TETHER_REQ_REQ).testBit 2 = true →
    ∃ t, exec (.liveStream v) s = .next t ∧ t.tether.liveResp = 4 ∧ t.tether.liveErr = true ∧ t.tether.liveState = 2 ∧ t.tether.queue = [] ∧
      t.tether.liveAddr = (s.tether.liveAddr + 4) % 2 ^ 40 ∧ t.event P.TETHER E.TETHER_LIVE_ERR = true ∧ KeepsMem s t ∧
      KeepsRegs s t [R.TETHER_STAT, R.EVT_RAW P.TETHER] ∧ t = { s with regs := t.regs, tether := t.tether }) ∧
--w (tethS (fun t => { t with liveAddr := 0x01000000 })).setFld F.TETHER_REQ_REQ 4; 5
  (∀ (s : State) (target : Fin 16) (timeout : Bool), s.tether.queue = [] → ∃ t, exec (.liveAccessDone target timeout) s = .next t ∧ t = s) ∧
--w tethS id; 3; false
  (∀ (s : State), s.tetherHears = true → ∃ t, exec (.req 0#16) s = .next t ∧ t = s) ∧
--w tethS id
  (∀ (s : State) (v : BitVec 32) (r : BitVec 16), s.tetherHears = false →
    ∃ t, exec (.liveLoCommit v) s = .next t ∧ t = s ∧ exec (.liveStream v) s = .next t ∧ exec (.req r) s = .next t ∧ exec (.tetherKick v) s = .next t)
--w (tethS id).setFld F.PWR_OUT_BANK_A 0; 5; 7

/-- READ, PROGRAM and CHECK. -/
def Obligations.OtpReadsProgramsAndChecks : Prop :=
  (∀ (s : State) (q : Req) (addr : BitVec 8), OpenTo s q P.KEYS → s.running P.KEYS = true → s.flag F.KEYS_OTP_CTRL_BUSY = false →
      s.flag F.KEYS_SLOT_STAT_BUSY = false →
    ∃ t, exec (.read q addr) s = .next t ∧
      t.fld F.KEYS_OTP_DATA_DATA = (if otpSecret addr.toNat && s.flag F.PITON_FUSE_WIN_CLOSED then 0 else s.otpWord addr.toNat) % 2 ^ 32 ∧
      t.flag F.KEYS_OTP_CTRL_UE = (otpChecked addr.toNat && s.sec.otpTorn.contains addr.toNat) ∧ t.event P.KEYS E.KEYS_OTP_DONE = true ∧
      KeepsRegs s t ([R.KEYS_OTP_CTRL, R.KEYS_OTP_DATA] ++ logRegs P.KEYS) ∧ t = { s with regs := t.regs, resp := t.resp }) ∧
--w keysS; ⟨0, true⟩; 20
--w keysS.setFld F.PITON_FUSE_WIN_CLOSED 1; ⟨0, true⟩; 152
  (∀ (s : State) (q : Req) (addr : BitVec 8), OpenTo s q P.KEYS → s.flag F.KEYS_OTP_CTRL_BUSY = true →
    ∃ t, exec (.read q addr) s = .next t ∧ t.event P.KEYS 31 = true ∧
      (s.flag (F.CLAMP_ADDR_VALID P.KEYS) = false → t.fld (F.CLAMP_ADDR_REASON P.KEYS) = 1) ∧
      KeepsRegs s t (logRegs P.KEYS) ∧ t = { s with regs := t.regs, resp := t.resp, fresh := t.fresh }) ∧
--w keysS.setFld F.KEYS_OTP_CTRL_BUSY 1; ⟨0, true⟩; 20
  (∀ (s : State) (q : Req) (addr : BitVec 8), OpenTo s q P.KEYS → s.running P.KEYS = true → s.flag F.KEYS_OTP_CTRL_BUSY = false →
      s.flag F.KEYS_SLOT_STAT_BUSY = false → s.otpRefusal addr.toNat (s.fld F.KEYS_OTP_DATA_DATA) = none →
    ∃ t, exec (.program q addr none) s = .next t ∧
      (¬ (5 ≤ addr.toNat ∧ addr.toNat ≤ 7) → t.otpRaw addr.toNat = (s.otpRaw addr.toNat ||| s.fld F.KEYS_OTP_DATA_DATA) % 2 ^ 32 ∧
        ∀ i : Fin 256, i.val ≠ addr.toNat → t.otpRaw i.val = s.otpRaw i.val) ∧
      (5 ≤ addr.toNat → addr.toNat ≤ 7 → ∀ i : Fin 256, t.otpRaw i.val =
        (if 5 ≤ i.val ∧ i.val ≤ 7 then (s.otpRaw i.val ||| s.fld F.KEYS_OTP_DATA_DATA) % 2 ^ 32 else s.otpRaw i.val)) ∧
      t.event P.KEYS E.KEYS_OTP_DONE = true ∧ KeepsRegs s t (R.KEYS_OTP_CTRL :: logRegs P.KEYS) ∧
      t = { s with regs := t.regs, resp := t.resp, sec := { s.sec with otp := t.sec.otp } }) ∧
--w keysS.setFld F.KEYS_OTP_DATA_DATA 0x80000001; ⟨0, true⟩; 21
--w keysS.setFld F.KEYS_OTP_DATA_DATA 1; ⟨0, true⟩; 6
  (∀ (s : State) (q : Req) (addr : BitVec 8) (r : Nat), OpenTo s q P.KEYS → s.running P.KEYS = true → s.flag F.KEYS_OTP_CTRL_BUSY = false →
      s.flag F.KEYS_SLOT_STAT_BUSY = false → s.otpRefusal addr.toNat (s.fld F.KEYS_OTP_DATA_DATA) = some r →
    ∃ t, exec (.program q addr none) s = .next t ∧ t.event P.KEYS 31 = true ∧
      (s.flag (F.CLAMP_ADDR_VALID P.KEYS) = false → t.fld (F.CLAMP_ADDR_REASON P.KEYS) = r) ∧
      KeepsRegs s t (logRegs P.KEYS) ∧ t = { s with regs := t.regs, resp := t.resp, fresh := t.fresh }) ∧
--w keysS; ⟨0, true⟩; 20; 8
--w keysS; ⟨0, true⟩; 4; 7
  (∀ (s : State) (q : Req) (addr : BitVec 8), OpenTo s q P.KEYS → s.running P.KEYS = true → s.flag F.KEYS_OTP_CTRL_BUSY = false →
      s.flag F.KEYS_SLOT_STAT_BUSY = false →
    ∃ t, exec (.check q addr) s = .next t ∧ t.flag F.KEYS_OTP_CTRL_MATCH = (s.otpWord addr.toNat == s.fld F.KEYS_OTP_DATA_DATA) ∧
      t.event P.KEYS E.KEYS_OTP_DONE = true ∧ KeepsRegs s t (R.KEYS_OTP_CTRL :: logRegs P.KEYS) ∧ t = { s with regs := t.regs, resp := t.resp }) ∧
--w keysS.setFld F.KEYS_OTP_DATA_DATA 0x1234; ⟨0, true⟩; 20
  (∀ (s : State) (q : Req) (addr : BitVec 8) (cut m : BitVec 32), OpenTo s q P.KEYS → s.running P.KEYS = true → s.flag F.KEYS_OTP_CTRL_BUSY = false →
      s.flag F.KEYS_SLOT_STAT_BUSY = false → s.otpRefusal addr.toNat (s.fld F.KEYS_OTP_DATA_DATA) = none → otpChecked addr.toNat = true →
      m = BitVec.ofNat 32 (s.fld F.KEYS_OTP_DATA_DATA) &&& cut → ¬ (5 ≤ addr.toNat ∧ addr.toNat ≤ 7) →
    ∃ t, exec (.program q addr (some cut)) s = .next t ∧ t.otpRaw addr.toNat = (s.otpRaw addr.toNat ||| m.toNat) % 2 ^ 32 ∧
      t.otpWord addr.toNat = 0 ∧ (∀ i : Fin 256, i.val ≠ addr.toNat → t.otpRaw i.val = s.otpRaw i.val ∧ t.otpWord i.val = s.otpWord i.val) ∧
      t.event P.KEYS E.KEYS_OTP_DONE = true ∧ KeepsRegs s t (R.KEYS_OTP_CTRL :: logRegs P.KEYS) ∧
      t = { s with regs := t.regs, resp := t.resp, sec := { s.sec with otp := t.sec.otp, otpTorn := t.sec.otpTorn } }) ∧
--w keysS.setFld F.KEYS_OTP_DATA_DATA 0x80000003; ⟨0, true⟩; 21; 0x80000001; 0x80000001
  (∀ (s : State) (q : Req) (addr : BitVec 8) (cut : Option (BitVec 32)), OpenTo s q P.KEYS → (s.flag F.KEYS_OTP_CTRL_BUSY || s.flag F.KEYS_SLOT_STAT_BUSY) = true →
    ∃ t, exec (.check q addr) s = .next t ∧ t.event P.KEYS 31 = true ∧
      (s.flag (F.CLAMP_ADDR_VALID P.KEYS) = false → t.fld (F.CLAMP_ADDR_REASON P.KEYS) = 1) ∧
      KeepsRegs s t (logRegs P.KEYS) ∧ t = { s with regs := t.regs, resp := t.resp, fresh := t.fresh } ∧
      ∃ u, exec (.program q addr cut) s = .next u ∧ u.event P.KEYS 31 = true ∧
        (s.flag (F.CLAMP_ADDR_VALID P.KEYS) = false → u.fld (F.CLAMP_ADDR_REASON P.KEYS) = 1) ∧
        KeepsRegs s u (logRegs P.KEYS) ∧ u = { s with regs := u.regs, resp := u.resp, fresh := u.fresh }) ∧
--w keysS.setFld F.KEYS_SLOT_STAT_BUSY 1; ⟨0, true⟩; 20; none
  (∀ (s : State) (q : Req) (addr : BitVec 8), OpenTo s q P.KEYS → s.flag F.KEYS_OTP_CTRL_BUSY = false → s.flag F.KEYS_SLOT_STAT_BUSY = false →
      s.running P.KEYS = false →
    ∃ t, exec (.read q addr) s = .next t ∧ t.event P.KEYS 31 = true ∧
      (s.flag (F.CLAMP_ADDR_VALID P.KEYS) = false → t.fld (F.CLAMP_ADDR_REASON P.KEYS) = 9) ∧
      KeepsRegs s t (logRegs P.KEYS) ∧ t = { s with regs := t.regs, resp := t.resp, fresh := t.fresh })
--w keysOff; ⟨0, true⟩; 20

/-- LOAD, SLOT_READ, CLEAR, DERIVE, GENERATE, TRNG_READY, HEALTH_FAIL, DRBG_GENERATE and TRNG_DATA_LOAD. -/
def Obligations.KeySlotsAndTheTrng : Prop :=
  (∀ (s : State) (q : Req) (slot : Fin 16) (usage : BitVec 4), OpenTo s q P.KEYS → s.slotRefusal 1 slot.val 0 = none →
    ∃ t, exec (.load q slot usage) s = .next t ∧
      t.slot slot.val = some ⟨BitVec.ofNat 256 (leNat ((List.range 8).flatMap (fun k => leBytes 4 (s.fld (F.KEYS_SLOT_DATA_DATA k))))), usage⟩ ∧
      (∀ m : Fin 16, m ≠ slot → t.slot m.val = s.slot m.val) ∧ (∀ k : Fin 8, t.fld (F.KEYS_SLOT_DATA_DATA k.val) = 0) ∧
      t.event P.KEYS E.KEYS_CMD_DONE = true ∧ KeepsRegs s t (R.KEYS_SLOT_CMD :: (List.range 8).map R.KEYS_SLOT_DATA ++ logRegs P.KEYS) ∧
      t = { s with regs := t.regs, resp := t.resp, sec := { s.sec with slots := t.sec.slots } }) ∧
--w keysS.setFld (F.KEYS_SLOT_DATA_DATA 7) 0xDEADBEEF; ⟨0, true⟩; 15; 9
  (∀ (s : State) (q : Req) (slot : Fin 16) (usage : BitVec 4) (r : Nat), OpenTo s q P.KEYS → s.slotRefusal 1 slot.val 0 = some r →
    ∃ t, exec (.load q slot usage) s = .next t ∧ t.event P.KEYS 31 = true ∧
      (s.flag (F.CLAMP_ADDR_VALID P.KEYS) = false → t.fld (F.CLAMP_ADDR_REASON P.KEYS) = r) ∧
      KeepsRegs s t (logRegs P.KEYS) ∧ t = { s with regs := t.regs, resp := t.resp }) ∧
--w keysS.setFld F.PITON_KEY_RLOCK_RLOCK 0x8000; ⟨0, true⟩; 15; 9; 2
  (∀ (s : State) (q : Req) (slot : Fin 16) (x : KeySlot), OpenTo s q P.KEYS → s.slotRefusal 2 slot.val 0 = none → s.slot slot.val = some x →
    ∃ t, exec (.slotRead q slot) s = .next t ∧ (∀ w : Fin 8, t.fld (F.KEYS_SLOT_DATA_DATA w.val) = leNat (slice (4 * w.val) 4 x.bytes)) ∧
      t.event P.KEYS E.KEYS_CMD_DONE = true ∧ KeepsRegs s t (R.KEYS_SLOT_CMD :: (List.range 8).map R.KEYS_SLOT_DATA ++ logRegs P.KEYS) ∧
      t = { s with regs := t.regs, resp := t.resp }) ∧
--w keysS; ⟨0, true⟩; 3; ⟨BitVec.ofNat 256 (leNat key32), 15⟩
  (∀ (s : State) (q : Req) (slot : Fin 16), OpenTo s q P.KEYS → s.slotRefusal 3 slot.val 0 = none →
    ∃ t, exec (.clear q slot) s = .next t ∧ t.slot slot.val = none ∧ (∀ m : Fin 16, m ≠ slot → t.slot m.val = s.slot m.val) ∧
      t.event P.KEYS E.KEYS_CMD_DONE = true ∧ KeepsRegs s t (R.KEYS_SLOT_CMD :: logRegs P.KEYS) ∧
      t = { s with regs := t.regs, resp := t.resp, sec := { s.sec with slots := t.sec.slots } }) ∧
--w keysS; ⟨0, true⟩; 3
  (∀ (s : State) (q : Req) (slot src : Fin 16) (usage : BitVec 4) (x : KeySlot), OpenTo s q P.KEYS → s.slotRefusal 4 slot.val src.val = none →
      s.slot src.val = some x →
    ∃ t, exec (.derive q slot (BitVec.ofNat 5 src.val) usage) s = .next t ∧
      t.slot slot.val = some ⟨BitVec.ofNat 256 (leNat (s.kdf x.bytes)), usage⟩ ∧ (∀ m : Fin 16, m ≠ slot → t.slot m.val = s.slot m.val) ∧
      t.event P.KEYS E.KEYS_CMD_DONE = true ∧ KeepsRegs s t (R.KEYS_SLOT_CMD :: logRegs P.KEYS) ∧
      t = { s with regs := t.regs, resp := t.resp, sec := { s.sec with slots := t.sec.slots } }) ∧
--w keysS; ⟨0, true⟩; 9; 3; 2; ⟨BitVec.ofNat 256 (leNat key32), 15⟩
  (∀ (s : State) (q : Req) (slot : Fin 16) (usage : BitVec 4), OpenTo s q P.KEYS → s.slotRefusal 4 slot.val 16 = none →
    ∃ t, exec (.derive q slot 16#5 usage) s = .next t ∧ t.slot slot.val = some ⟨BitVec.ofNat 256 (leNat (s.kdf s.deviceRoot)), usage⟩ ∧
      (∀ m : Fin 16, m ≠ slot → t.slot m.val = s.slot m.val) ∧ KeepsRegs s t (R.KEYS_SLOT_CMD :: logRegs P.KEYS) ∧
      t = { s with regs := t.regs, resp := t.resp, sec := { s.sec with slots := t.sec.slots } }) ∧
--w keysS; ⟨0, true⟩; 9; 2
  (∀ (s : State) (q : Req) (slot : Fin 16) (usage : BitVec 4) (b0 b1 : BitVec 128) (rest : List (BitVec 128)), OpenTo s q P.KEYS →
      s.slotRefusal 5 slot.val 0 = none → s.sec.quarters = 0 → s.sec.queue = b0 :: b1 :: rest →
    ∃ t, exec (.generate q slot usage) s = .next t ∧
      t.slot slot.val = some ⟨BitVec.ofNat 256 (leNat (leBytes 16 b0.toNat ++ leBytes 16 b1.toNat)), usage⟩ ∧
      (∀ m : Fin 16, m ≠ slot → t.slot m.val = s.slot m.val) ∧ t.sec.queue = rest ∧ t.event P.KEYS E.KEYS_CMD_DONE = true ∧
      KeepsRegs s t (R.KEYS_SLOT_CMD :: logRegs P.KEYS) ∧
      t = { s with regs := t.regs, resp := t.resp, sec := { s.sec with slots := t.sec.slots, queue := rest } }) ∧
--w keysS.setFld F.TRNG_STAT_STATE 2; ⟨0, true⟩; 9; 2; 1; 2; [3, 4]
  (∀ (s : State) (rate : BitVec 13), s.fld F.TRNG_STAT_STATE = 1 → s.screeActs = false →
    ∃ t, exec (.trngReady rate) s = .next t ∧ t.fld F.TRNG_STAT_STATE = 2 ∧ t.fld F.TRNG_RATE_RATE = rate.toNat ∧
      t.event P.TRNG E.TRNG_READY = true ∧ KeepsRegs s t [R.TRNG_STAT, R.TRNG_RATE, R.EVT_RAW P.TRNG] ∧
      t = { s with regs := t.regs, sec := { s.sec with requests := 0, instantiations := s.sec.instantiations + 1 } }) ∧
--w keysS.setFld F.TRNG_STAT_STATE 1; 0x1FFF
  (∀ (s : State) (proportion : Bool) (ms : Nat), s.fld F.TRNG_STAT_STATE ≠ 0 → s.fld F.TRNG_STAT_STATE ≠ 4 → s.sec.failures.length ≤ 1 → s.sec.waiting = [] →
    ∃ t, exec (.healthFail proportion ms) s = .next t ∧ t.fld F.TRNG_STAT_STATE = 3 ∧ t.sec.queue = [] ∧
      t.fld F.TRNG_FAIL_LAST_TEST = (if proportion then 2 else 1) ∧
      t.fld F.TRNG_FAIL_COUNT = min (2 ^ F.TRNG_FAIL_COUNT.width - 1) (s.fld F.TRNG_FAIL_COUNT + 1) ∧
      t.event P.TRNG E.TRNG_HEALTH_FAIL = true ∧ KeepsRegs s t [R.TRNG_STAT, R.TRNG_FAIL, R.EVT_RAW P.TRNG] ∧
      t = { s with regs := t.regs, sec := { s.sec with queue := [], quarters := 0, failures := t.sec.failures } }) ∧
--w keysS.setFld F.TRNG_STAT_STATE 2; true; 10
  (∀ (s : State) (proportion : Bool) (ms a b : Nat), s.fld F.TRNG_STAT_STATE ≠ 0 → s.fld F.TRNG_STAT_STATE ≠ 4 → s.sec.failures = [a, b] → b + ms ≤ 1000 →
      s.sec.waiting = [] → s.belay.test = none → s.flag F.BELAY_LOG_CTRL_EN = false → s.fld (F.BELAY_REACT_REACT 22) = 0 →
    ∃ t, exec (.healthFail proportion ms) s = .next t ∧ t.fld F.TRNG_STAT_STATE = 4 ∧ t.sec.queue = [] ∧ t.event P.TRNG E.TRNG_FATAL = true ∧
      KeepsPages s t [P.TRNG, P.BELAY, P.TETHER] ∧ KeepsMem s t) ∧
--w (belayQuiet keysS).setFld F.TRNG_STAT_STATE 2 |> fun s => { s with sec := { s.sec with failures := [10, 900] } }; false; 100; 10; 900
  (∀ (s : State) (ms : Nat), s.fld F.TRNG_STAT_STATE = 2 → s.sec.queue.length ≤ 48 → s.sec.requests < s.fld F.TRNG_RESEED_REQUESTS →
      ms < s.fld F.TRNG_RESEED_PERIOD → s.flag F.TRNG_CFG_PR = false → s.sec.waiting = [] →
    ∃ t, exec (.drbgGenerate ms false) s = .next t ∧ t.sec.queue.length = s.sec.queue.length + 16 ∧
      t.sec.queue.take s.sec.queue.length = s.sec.queue ∧ t.sec.requests = s.sec.requests + 1 ∧
      t = { s with fresh := t.fresh, sec := { s.sec with queue := t.sec.queue, requests := t.sec.requests } }) ∧
--w keysS.setFld F.TRNG_STAT_STATE 2; 0
  (∀ (s : State) (q : Req) (b : BitVec 128) (rest : List (BitVec 128)), s.fld F.TRNG_STAT_STATE = 2 → s.running P.TRNG = true → s.sec.queue = b :: rest →
      s.sec.quarters < 3 →
    ∃ t, exec (.trngDataLoad q) s = .next t ∧ t.resp = ⟨false, BitVec.ofNat 64 (b.toNat / 2 ^ (32 * s.sec.quarters) % 2 ^ 32 + 2 ^ 32)⟩ ∧
      t = { s with resp := t.resp, sec := { s.sec with quarters := s.sec.quarters + 1 } }) ∧
--w keysS.setFld F.TRNG_STAT_STATE 2; ⟨0, true⟩; 1; [2, 3, 4]
  (∀ (s : State) (q : Req), s.fld F.TRNG_STAT_STATE ≠ 2 ∨ s.sec.queue = [] →
    ∃ t, exec (.trngDataLoad q) s = .next t ∧ t = { s with resp := ⟨false, 0#64⟩ }) ∧
--w keysS.setFld F.TRNG_STAT_STATE 1; ⟨0, true⟩
  (∀ (s : State) (q : Req) (slot : Fin 16) (r : Nat), OpenTo s q P.KEYS → s.slotRefusal 2 slot.val 0 = some r →
    ∃ t, exec (.slotRead q slot) s = .next t ∧ t.event P.KEYS 31 = true ∧
      (s.flag (F.CLAMP_ADDR_VALID P.KEYS) = false → t.fld (F.CLAMP_ADDR_REASON P.KEYS) = r) ∧
      KeepsRegs s t (logRegs P.KEYS) ∧ t = { s with regs := t.regs, resp := t.resp }) ∧
--w keysS; ⟨0, true⟩; 4; 3
  (∀ (s : State) (q : Req) (slot : Fin 16) (r : Nat), OpenTo s q P.KEYS → s.slotRefusal 3 slot.val 0 = some r →
    ∃ t, exec (.clear q slot) s = .next t ∧ t.event P.KEYS 31 = true ∧
      (s.flag (F.CLAMP_ADDR_VALID P.KEYS) = false → t.fld (F.CLAMP_ADDR_REASON P.KEYS) = r) ∧
      KeepsRegs s t (logRegs P.KEYS) ∧ t = { s with regs := t.regs, resp := t.resp }) ∧
--w keysS.setFld F.PITON_KEY_ULOCK_ULOCK 8; ⟨0, true⟩; 3; 2
  (∀ (s : State) (q : Req) (slot : Fin 16) (src : Fin 17) (usage : BitVec 4) (r : Nat), OpenTo s q P.KEYS → s.slotRefusal 4 slot.val src.val = some r →
    ∃ t, exec (.derive q slot (BitVec.ofNat 5 src.val) usage) s = .next t ∧ t.event P.KEYS 31 = true ∧
      (s.flag (F.CLAMP_ADDR_VALID P.KEYS) = false → t.fld (F.CLAMP_ADDR_REASON P.KEYS) = r) ∧
      KeepsRegs s t (logRegs P.KEYS) ∧ t = { s with regs := t.regs, resp := t.resp }) ∧
--w keysS; ⟨0, true⟩; 9; 5; 2; 3
  (∀ (s : State) (q : Req) (slot : Fin 16) (usage : BitVec 4) (r : Nat), OpenTo s q P.KEYS → s.slotRefusal 5 slot.val 0 = some r →
    ∃ t, exec (.generate q slot usage) s = .next t ∧ t.event P.KEYS 31 = true ∧
      (s.flag (F.CLAMP_ADDR_VALID P.KEYS) = false → t.fld (F.CLAMP_ADDR_REASON P.KEYS) = r) ∧
      KeepsRegs s t (logRegs P.KEYS) ∧ t = { s with regs := t.regs, resp := t.resp }) ∧
--w keysS; ⟨0, true⟩; 9; 2; 5
  (∀ (s : State) (q : Req) (b : BitVec 128) (rest : List (BitVec 128)), s.fld F.TRNG_STAT_STATE = 2 → s.running P.TRNG = true → s.sec.queue = b :: rest →
      s.sec.quarters = 3 →
    ∃ t, exec (.trngDataLoad q) s = .next t ∧ t.resp = ⟨false, BitVec.ofNat 64 (b.toNat / 2 ^ 96 % 2 ^ 32 + 2 ^ 32)⟩ ∧
      t = { s with resp := t.resp, sec := { s.sec with queue := rest, quarters := 0 } }) ∧
--w lastQuarter; ⟨0, true⟩; 1; [2, 3, 4]
  (∀ (s : State) (rate : BitVec 13), s.fld F.TRNG_STAT_STATE ≠ 1 → s.fld F.TRNG_STAT_STATE ≠ 3 → ∃ t, exec (.trngReady rate) s = .next t ∧ t = s) ∧
--w keysS; 5
  (∀ (s : State) (rate : BitVec 13), s.fld F.TRNG_STAT_STATE = 3 → s.screeActs = false →
    ∃ t, exec (.trngReady rate) s = .next t ∧ t.fld F.TRNG_STAT_STATE = 2 ∧ t.fld F.TRNG_RATE_RATE = rate.toNat ∧
      t.event P.TRNG E.TRNG_READY = true ∧ KeepsRegs s t [R.TRNG_STAT, R.TRNG_RATE, R.EVT_RAW P.TRNG] ∧
      t = { s with regs := t.regs, sec := { s.sec with requests := 0 } }) ∧
--w keysS.setFld F.TRNG_STAT_STATE 3; 0x1FFF
  (∀ (s : State) (proportion : Bool) (ms : Nat), (s.fld F.TRNG_STAT_STATE = 0 ∨ s.fld F.TRNG_STAT_STATE = 4) →
    ∃ t, exec (.healthFail proportion ms) s = .next t ∧ t = s) ∧
--w keysS; true; 10
  (∀ (s : State) (ms : Nat), s.fld F.TRNG_STAT_STATE = 2 → s.sec.queue.length ≤ 48 →
      (s.fld F.TRNG_RESEED_REQUESTS ≤ s.sec.requests ∨ s.fld F.TRNG_RESEED_PERIOD ≤ ms ∨ s.flag F.TRNG_CFG_PR = true) → s.sec.waiting = [] →
    ∃ t, exec (.drbgGenerate ms true) s = .next t ∧ t.sec.queue.length = s.sec.queue.length + 16 ∧
      t.sec.queue.take s.sec.queue.length = s.sec.queue ∧ t.sec.requests = 1 ∧
      t = { s with fresh := t.fresh, sec := { s.sec with queue := t.sec.queue, requests := t.sec.requests } } ∧
      exec (.drbgGenerate ms false) s = .next s) ∧
--w keysS.setFld F.TRNG_STAT_STATE 2; 1000000000
  (∀ (s : State) (ms : Nat) (fresh : Bool), (s.fld F.TRNG_STAT_STATE ≠ 2 ∨ 48 < s.sec.queue.length) →
    ∃ t, exec (.drbgGenerate ms fresh) s = .next t ∧ t = s)
--w keysS; 0; true

/-- ENCRYPT, DECRYPT, MAC, UPDATE, FINAL and ONESHOT. -/
def Obligations.AesAndHashItems : Prop :=
  (∀ (s : State) (ch : BitVec 12) (k : HeddleChannel) (it : HeddleItem) (key out : List Byte), s.CryptoWork ch.toNat k it 0x80 0 it.len →
      it.param = 0 → s.fld (F.AES_CTX_CFG_MODE k.e.ectx) = 0 → s.aesCheck k it = none → s.slot (k.e.ctx % 16) ≠ none →
      (s.engineKey (k.e.ctx % 16) 0).toOption = some key →
      (Aes.blocks (s.bytesAt it.src it.len)).flatMap (Aes.encryptBlock (Aes.roundKeys (if s.flag (F.AES_CTX_CFG_KEY256 k.e.ectx) then key else key.take 16))) = out →
      0 < out.length → out.length ≤ it.len →
    ∃ t, exec (.encrypt ch) s = .next t ∧ s.EngineEnds t Engine.aes ch.toNat it.index 0 0 ∧ t.bytesAt it.dst out.length = out ∧
      KeepsMemBut s t it.dst out.length ∧ t.fld (F.AES_CTX_STATE_LAST_STATUS k.e.ectx) = 0 ∧ OnlyWork s t ch.toNat ∧
      KeepsRegs s t [R.AES_ITEMS, R.AES_STAT, R.AES_CTX_STATE k.e.ectx, R.DMC_CHAN_STAT] ∧ t = { s with regs := t.regs, mem := t.mem, memory := t.memory, heddle := t.heddle }) ∧
--w crA 0 (crIt 0 16 0); 9; crK 0x80 0x13 (crIt 0 16 0); crIt 0 16 0; key32; (Aes.blocks (payload64.take 16)).flatMap (Aes.encryptBlock (Aes.roundKeys (key32.take 16)))
  (∀ (s : State) (ch : BitVec 12) (k : HeddleChannel) (it : HeddleItem) (key out : List Byte), s.CryptoWork ch.toNat k it 0x80 1 it.len →
      it.param = 0 → s.fld (F.AES_CTX_CFG_MODE k.e.ectx) = 0 → s.aesCheck k it = none → s.slot (k.e.ctx % 16) ≠ none →
      (s.engineKey (k.e.ctx % 16) 0).toOption = some key →
      (Aes.blocks (s.bytesAt it.src it.len)).flatMap (Aes.decryptBlock (Aes.roundKeys (if s.flag (F.AES_CTX_CFG_KEY256 k.e.ectx) then key else key.take 16))) = out →
      0 < out.length → out.length ≤ it.len →
    ∃ t, exec (.decrypt ch) s = .next t ∧ s.EngineEnds t Engine.aes ch.toNat it.index 0 0 ∧ t.bytesAt it.dst out.length = out ∧
      KeepsMemBut s t it.dst out.length ∧ t.fld (F.AES_CTX_STATE_LAST_STATUS k.e.ectx) = 0 ∧ OnlyWork s t ch.toNat ∧
      KeepsRegs s t [R.AES_ITEMS, R.AES_STAT, R.AES_CTX_STATE k.e.ectx, R.DMC_CHAN_STAT] ∧ t = { s with regs := t.regs, mem := t.mem, memory := t.memory, heddle := t.heddle }) ∧
--w crA 0 (crIt 1 16 0); 9; crK 0x80 0x13 (crIt 1 16 0); crIt 1 16 0; key32; (Aes.blocks (payload64.take 16)).flatMap (Aes.decryptBlock (Aes.roundKeys (key32.take 16)))
  (∀ (s : State) (ch : BitVec 12) (k : HeddleChannel) (it : HeddleItem) (key out iv : List Byte), s.CryptoWork ch.toNat k it 0x80 0 it.len →
      it.param = 0 → s.fld (F.AES_CTX_CFG_MODE k.e.ectx) = 1 → s.aesCheck k it = none → (s.engineKey (k.e.ctx % 16) 0).toOption = some key →
      Aes.cbcEncrypt (Aes.roundKeys (if s.flag (F.AES_CTX_CFG_KEY256 k.e.ectx) then key else key.take 16)) (s.aesIv k.e.ectx) (s.bytesAt it.src it.len) = (out, iv) →
      0 < out.length → out.length ≤ it.len → s.flag (F.AES_CTX_CFG_IVGEN k.e.ectx) = false →
    ∃ t, exec (.encrypt ch) s = .next t ∧ s.EngineEnds t Engine.aes ch.toNat it.index 0 0 ∧ t.bytesAt it.dst out.length = out ∧
      KeepsMemBut s t it.dst out.length ∧ (∀ w : Fin 4, t.fld (F.AES_CTX_IV_IV k.e.ectx w.val) = leNat (slice (4 * w.val) 4 iv)) ∧
      KeepsRegs s t ([R.AES_ITEMS, R.AES_STAT, R.AES_CTX_STATE k.e.ectx, R.DMC_CHAN_STAT] ++ (List.range 4).map (R.AES_CTX_IV k.e.ectx)) ∧
      t = { s with regs := t.regs, mem := t.mem, memory := t.memory, heddle := t.heddle }) ∧
--w (crA 1 (crIt 0 16 0)).setFld (F.AES_CTX_STATE_CHAIN_VALID 1) 1; 9; crK 0x80 0x13 (crIt 0 16 0); crIt 0 16 0; key32; (Aes.cbcEncrypt (Aes.roundKeys (key32.take 16)) (List.replicate 16 0#8) (payload64.take 16)).1; (Aes.cbcEncrypt (Aes.roundKeys (key32.take 16)) (List.replicate 16 0#8) (payload64.take 16)).2
  (∀ (s : State) (ch : BitVec 12) (k : HeddleChannel) (it : HeddleItem) (key : List Byte), s.CryptoWork ch.toNat k it 0x80 1 it.len →
      it.param = 0 → s.fld (F.AES_CTX_CFG_MODE k.e.ectx) = 3 → s.aesCheck k it = none → (s.engineKey (k.e.ctx % 16) 0).toOption = some key →
      Gcm.tag (Aes.roundKeys (if s.flag (F.AES_CTX_CFG_KEY256 k.e.ectx) then key else key.take 16)) ((s.aesIv k.e.ectx).take 12) []
        (s.bytesAt it.src (it.len - 16)) ≠ s.bytesAt (it.src + (it.len - 16)) 16 → 16 ≤ it.len →
    ∃ t, exec (.decrypt ch) s = .next t ∧ t.itemStatus ch.toNat it.index = some (4, 3) ∧ t.fld F.AES_ERR_LAST_DETAIL = 3 ∧
      t.fld F.AES_GCM_FAIL_COUNT = min (2 ^ F.AES_GCM_FAIL_COUNT.width - 1) (s.fld F.AES_GCM_FAIL_COUNT + 1) ∧ t.event P.AES E.AES_ERROR = true ∧
      KeepsMemBut s t it.dst it.len ∧ t = { s with regs := t.regs, mem := t.mem, memory := t.memory, heddle := t.heddle }) ∧
--w (crA 3 (crIt 1 16 0)).setFld (F.AES_CTX_STATE_CHAIN_VALID 1) 1; 9; crK 0x80 0x13 (crIt 1 16 0); crIt 1 16 0; key32
  (∀ (s : State) (ch : BitVec 12) (k : HeddleChannel) (it : HeddleItem), s.CryptoWork ch.toNat k it 0x80 0 it.len → it.param = 0 →
      s.slot (k.e.ctx % 16) = none →
    ∃ t, exec (.encrypt ch) s = .next t ∧ s.EngineEnds t Engine.aes ch.toNat it.index 4 1 ∧ t.event P.AES E.AES_ERROR = true ∧
      t.fld F.AES_ERR_LAST_DETAIL = 1 ∧ KeepsMem s t ∧
      KeepsRegs s t [R.AES_ITEMS, R.AES_STAT, R.AES_CTX_STATE k.e.ectx, R.DMC_CHAN_STAT, R.AES_ERR, R.EVT_RAW P.AES] ∧ t = { s with regs := t.regs, heddle := t.heddle }) ∧
--w crS 0x80 0x14 (crIt 0 16 0); 9; crK 0x80 0x14 (crIt 0 16 0); crIt 0 16 0
  (∀ (s : State) (ch : BitVec 12) (k : HeddleChannel) (it : HeddleItem) (key tag : List Byte), s.CryptoWork ch.toNat k it 0x80 2 16 →
      it.param = 0 → s.fld (F.AES_CTX_CFG_MODE k.e.ectx) = 4 → s.aesCheck k it = none → (s.engineKey (k.e.ctx % 16) 0).toOption = some key →
      Aes.cmac (Aes.roundKeys (if s.flag (F.AES_CTX_CFG_KEY256 k.e.ectx) then key else key.take 16)) (s.bytesAt it.src it.len) = tag →
      0 < tag.length → tag.length ≤ 16 →
    ∃ t, exec (.mac ch) s = .next t ∧ s.EngineEnds t Engine.aes ch.toNat it.index 0 0 ∧ t.bytesAt it.dst tag.length = tag ∧
      KeepsMemBut s t it.dst tag.length ∧ (∀ w : Fin 4, t.fld (F.AES_CTX_TAG_TAG k.e.ectx w.val) = leNat (slice (4 * w.val) 4 tag)) ∧
      KeepsRegs s t ([R.AES_ITEMS, R.AES_STAT, R.AES_CTX_STATE k.e.ectx, R.DMC_CHAN_STAT] ++ (List.range 4).map (R.AES_CTX_TAG k.e.ectx)) ∧
      t = { s with regs := t.regs, mem := t.mem, memory := t.memory, heddle := t.heddle }) ∧
--w crA 4 (crIt 2 16 0); 9; crK 0x80 0x13 (crIt 2 16 0); crIt 2 16 0; key32; Aes.cmac (Aes.roundKeys (key32.take 16)) (payload64.take 16)
  (∀ (s : State) (ch : BitVec 12) (k : HeddleChannel) (it : HeddleItem) (h : HashChain), s.CryptoWork ch.toNat k it 0x81 0 it.len → it.param = 0 →
      k.e.ctx / 128 = 0 → s.flag (F.HASH_CTX_CFG_HMAC k.e.ectx) = false → s.fld (F.HASH_CTX_CFG_ALG k.e.ectx) = 0 → it.len % 64 = 0 →
      AMap.get? s.sec.hash k.e.ectx = some h → s.fld (F.HASH_CTX_LEN_BYTES k.e.ectx) + it.len < 2 ^ 64 →
    ∃ t, exec (.update ch) s = .next t ∧ s.EngineEnds t Engine.hash ch.toNat it.index 0 0 ∧
      AMap.get? t.sec.hash k.e.ectx = some ⟨Sha.absorb (Sha.alg 0).1 (it.len / 64) h.words (s.bytesAt it.src it.len), h.bytes + it.len⟩ ∧
      t.flag (F.HASH_CTX_STATE_OPEN k.e.ectx) = true ∧
      t.fld (F.HASH_CTX_LEN_BYTES k.e.ectx) = s.fld (F.HASH_CTX_LEN_BYTES k.e.ectx) + it.len ∧ KeepsMem s t ∧ OnlyWork s t ch.toNat ∧
      KeepsRegs s t [R.HASH_ITEMS, R.HASH_STAT, R.HASH_CTX_STATE k.e.ectx, R.HASH_CTX_LEN k.e.ectx] ∧ t = { s with regs := t.regs, memory := t.memory, heddle := t.heddle, sec := { s.sec with hash := t.sec.hash } }) ∧
--w hashOn (crS 0x81 0x13 (crIt 0 64 0)); 9; crK 0x81 0x13 (crIt 0 64 0); crIt 0 64 0; ⟨(Sha.alg 0).2.1, 0⟩
  (∀ (s : State) (ch : BitVec 12) (k : HeddleChannel) (it : HeddleItem) (h : HashChain) (d : List Byte), s.CryptoWork ch.toNat k it 0x81 1 64 → it.param = 0 →
      k.e.ctx / 128 = 0 → s.flag (F.HASH_CTX_CFG_HMAC k.e.ectx) = false → AMap.get? s.sec.hash k.e.ectx = some h →
      s.hashFinish k.e.ectx [] (s.bytesAt it.src it.len) h = d → 0 < d.length → d.length ≤ 64 →
    ∃ t, exec (.final ch) s = .next t ∧ s.EngineEnds t Engine.hash ch.toNat it.index 0 0 ∧ t.bytesAt it.dst d.length = d ∧
      KeepsMemBut s t it.dst d.length ∧ AMap.get? t.sec.hash k.e.ectx = none ∧ t.flag (F.HASH_CTX_STATE_OPEN k.e.ectx) = false ∧
      (∀ w : Fin 16, t.fld (F.HASH_CTX_DIGEST_DIGEST k.e.ectx w.val) = beNat (slice (4 * w.val) 4 d)) ∧
      KeepsRegs s t ([R.HASH_ITEMS, R.HASH_STAT, R.HASH_CTX_STATE k.e.ectx, R.HASH_CTX_LEN k.e.ectx, R.DMC_CHAN_STAT] ++ (List.range 16).map (R.HASH_CTX_DIGEST k.e.ectx)) ∧
      t = { s with regs := t.regs, mem := t.mem, memory := t.memory, heddle := t.heddle, sec := { s.sec with hash := t.sec.hash } }) ∧
--w hashOn (crS 0x81 0x13 (crIt 1 20 0)); 9; crK 0x81 0x13 (crIt 1 20 0); crIt 1 20 0; ⟨(Sha.alg 0).2.1, 0⟩; sha256 (payload64.take 20)
  (∀ (s : State) (ch : BitVec 12) (k : HeddleChannel) (it : HeddleItem), s.CryptoWork ch.toNat k it 0x81 2 32 → it.param = 0 →
      k.e.ctx / 128 = 0 → s.flag (F.HASH_CTX_CFG_HMAC k.e.ectx) = false → s.fld (F.HASH_CTX_CFG_ALG k.e.ectx) = 0 →
    ∃ t, exec (.oneshot ch) s = .next t ∧ s.EngineEnds t Engine.hash ch.toNat it.index 0 0 ∧ t.bytesAt it.dst 32 = sha256 (s.bytesAt it.src it.len) ∧
      KeepsMemBut s t it.dst 32 ∧ AMap.get? t.sec.hash k.e.ectx = none ∧ t.flag (F.HASH_CTX_STATE_OPEN k.e.ectx) = false ∧
      t.fld (F.HASH_CTX_LEN_BYTES k.e.ectx) = it.len % 2 ^ 64 ∧
      KeepsRegs s t ([R.HASH_ITEMS, R.HASH_STAT, R.HASH_CTX_STATE k.e.ectx, R.HASH_CTX_LEN k.e.ectx, R.DMC_CHAN_STAT] ++ (List.range 16).map (R.HASH_CTX_DIGEST k.e.ectx)) ∧
      t = { s with regs := t.regs, mem := t.mem, memory := t.memory, heddle := t.heddle, sec := { s.sec with hash := t.sec.hash } }) ∧
--w crS 0x81 0x13 (crIt 2 20 0); 9; crK 0x81 0x13 (crIt 2 20 0); crIt 2 20 0
  (∀ (s : State) (ch : BitVec 12) (k : HeddleChannel) (it : HeddleItem), s.itemOf ch.toNat 6 = some (k, it) → k.e.port = 0x80 → it.op < 3 →
      (s.running P.AES && ! s.resetting P.AES) = false →
    ∃ t, (if it.op = 0 then exec (.encrypt ch) s else if it.op = 1 then exec (.decrypt ch) s else exec (.mac ch) s) = .next t ∧
      s.EngineEnds t Engine.aes ch.toNat it.index 4 9 ∧ t.event P.AES Engine.aes.error = true ∧ KeepsRegs s t ([R.AES_ITEMS, R.AES_STAT, R.AES_CTX_STATE k.e.ectx, R.AES_ERR, R.EVT_RAW P.AES]) ∧ t = { s with regs := t.regs, heddle := t.heddle }) ∧
--w (crS 0x80 0x03 (crIt 1 16 0)).setReg (R.PAGE_CTRL P.AES) 0#64 |>.setReg (R.PAGE_STAT P.AES) 0#64; 9; crK 0x80 0x03 (crIt 1 16 0); crIt 1 16 0
  (∀ (s : State) (ch : BitVec 12) (k : HeddleChannel) (it : HeddleItem), s.itemOf ch.toNat 6 = some (k, it) → k.e.port = 0x80 → it.op < 3 →
      (s.running P.AES && ! s.resetting P.AES) = true → s.flag Engine.aes.katBusy = true →
    ∃ t, (if it.op = 0 then exec (.encrypt ch) s else if it.op = 1 then exec (.decrypt ch) s else exec (.mac ch) s) = .next t ∧
      (t.itemAt ch.toNat it.index).map (fun x => x.started) = some true ∧ (ch.toNat, 0x80) ∈ t.sec.katWaiting ∧
      t = { s with heddle := t.heddle, sec := { s.sec with katWaiting := t.sec.katWaiting } }) ∧
--w (crS 0x80 0x03 (crIt 1 16 0)).setFld F.AES_KAT_BUSY 1; 9; crK 0x80 0x03 (crIt 1 16 0); crIt 1 16 0
  (∀ (s : State) (ch : BitVec 12) (k : HeddleChannel) (it : HeddleItem), s.itemOf ch.toNat 6 = some (k, it) → k.e.port = 0x80 → it.op < 3 →
      (s.running P.AES && ! s.resetting P.AES) = true → s.flag Engine.aes.katBusy = false → s.flag Engine.aes.katFail = true →
    ∃ t, (if it.op = 0 then exec (.encrypt ch) s else if it.op = 1 then exec (.decrypt ch) s else exec (.mac ch) s) = .next t ∧
      s.EngineEnds t Engine.aes ch.toNat it.index 4 6 ∧ t.event P.AES Engine.aes.error = true ∧ KeepsRegs s t ([R.AES_ITEMS, R.AES_STAT, R.AES_CTX_STATE k.e.ectx, R.AES_ERR, R.EVT_RAW P.AES]) ∧ t = { s with regs := t.regs, heddle := t.heddle }) ∧
--w (crS 0x80 0x03 (crIt 1 16 0)).setFld F.AES_KAT_FAIL 1; 9; crK 0x80 0x03 (crIt 1 16 0); crIt 1 16 0
  (∀ (s : State) (ch : BitVec 12) (k : HeddleChannel) (it : HeddleItem), s.itemOf ch.toNat 6 = some (k, it) → k.e.port = 0x80 → it.op < 3 →
      (s.running P.AES && ! s.resetting P.AES) = true → s.flag Engine.aes.katBusy = false → s.flag Engine.aes.katFail = false → 65536 ≤ it.param →
    ∃ t, (if it.op = 0 then exec (.encrypt ch) s else if it.op = 1 then exec (.decrypt ch) s else exec (.mac ch) s) = .next t ∧
      t.itemStatus ch.toNat it.index = some (11, 1) ∧ t = { s with heddle := t.heddle }) ∧
--w crS 0x80 0x03 (crIt 1 16 65536); 9; crK 0x80 0x03 (crIt 1 16 65536); crIt 1 16 65536
  (∀ (s : State) (ch : BitVec 12), (s.itemOf ch.toNat 6).all (fun x => x.1.e.port != 0x80) = true →
    ∃ t, exec (.encrypt ch) s = .next t ∧ t = s ∧ exec (.decrypt ch) s = .next t ∧ exec (.mac ch) s = .next t) ∧
--w State.reset; 9
  (∀ (s : State) (ch : BitVec 12) (k : HeddleChannel) (it : HeddleItem), s.itemOf ch.toNat 6 = some (k, it) → k.e.port = 0x81 → it.op < 3 →
      (s.running P.HASH && ! s.resetting P.HASH) = false →
    ∃ t, (if it.op = 0 then exec (.update ch) s else if it.op = 1 then exec (.final ch) s else exec (.oneshot ch) s) = .next t ∧
      s.EngineEnds t Engine.hash ch.toNat it.index 4 9 ∧ t.event P.HASH Engine.hash.error = true ∧ KeepsRegs s t ([R.HASH_ITEMS, R.HASH_STAT, R.HASH_CTX_STATE k.e.ectx, R.HASH_ERR, R.EVT_RAW P.HASH]) ∧ t = { s with regs := t.regs, heddle := t.heddle }) ∧
--w (crS 0x81 0x03 (crIt 1 20 0)).setReg (R.PAGE_CTRL P.HASH) 0#64 |>.setReg (R.PAGE_STAT P.HASH) 0#64; 9; crK 0x81 0x03 (crIt 1 20 0); crIt 1 20 0
  (∀ (s : State) (ch : BitVec 12) (k : HeddleChannel) (it : HeddleItem), s.itemOf ch.toNat 6 = some (k, it) → k.e.port = 0x81 → it.op < 3 →
      (s.running P.HASH && ! s.resetting P.HASH) = true → s.flag Engine.hash.katBusy = true →
    ∃ t, (if it.op = 0 then exec (.update ch) s else if it.op = 1 then exec (.final ch) s else exec (.oneshot ch) s) = .next t ∧
      (t.itemAt ch.toNat it.index).map (fun x => x.started) = some true ∧ (ch.toNat, 0x81) ∈ t.sec.katWaiting ∧
      t = { s with heddle := t.heddle, sec := { s.sec with katWaiting := t.sec.katWaiting } }) ∧
--w (crS 0x81 0x03 (crIt 1 20 0)).setFld F.HASH_KAT_BUSY 1; 9; crK 0x81 0x03 (crIt 1 20 0); crIt 1 20 0
  (∀ (s : State) (ch : BitVec 12) (k : HeddleChannel) (it : HeddleItem), s.itemOf ch.toNat 6 = some (k, it) → k.e.port = 0x81 → it.op < 3 →
      (s.running P.HASH && ! s.resetting P.HASH) = true → s.flag Engine.hash.katBusy = false → s.flag Engine.hash.katFail = true →
    ∃ t, (if it.op = 0 then exec (.update ch) s else if it.op = 1 then exec (.final ch) s else exec (.oneshot ch) s) = .next t ∧
      s.EngineEnds t Engine.hash ch.toNat it.index 4 6 ∧ t.event P.HASH Engine.hash.error = true ∧ KeepsRegs s t ([R.HASH_ITEMS, R.HASH_STAT, R.HASH_CTX_STATE k.e.ectx, R.HASH_ERR, R.EVT_RAW P.HASH]) ∧ t = { s with regs := t.regs, heddle := t.heddle }) ∧
--w (crS 0x81 0x03 (crIt 1 20 0)).setFld F.HASH_KAT_FAIL 1; 9; crK 0x81 0x03 (crIt 1 20 0); crIt 1 20 0
  (∀ (s : State) (ch : BitVec 12) (k : HeddleChannel) (it : HeddleItem), s.itemOf ch.toNat 6 = some (k, it) → k.e.port = 0x81 → it.op < 3 →
      (s.running P.HASH && ! s.resetting P.HASH) = true → s.flag Engine.hash.katBusy = false → s.flag Engine.hash.katFail = false → it.param ≠ 0 →
    ∃ t, (if it.op = 0 then exec (.update ch) s else if it.op = 1 then exec (.final ch) s else exec (.oneshot ch) s) = .next t ∧
      t.itemStatus ch.toNat it.index = some (11, 1) ∧ t = { s with heddle := t.heddle }) ∧
--w crS 0x81 0x03 (crIt 1 20 1); 9; crK 0x81 0x03 (crIt 1 20 1); crIt 1 20 1
  (∀ (s : State) (ch : BitVec 12), (s.itemOf ch.toNat 6).all (fun x => x.1.e.port != 0x81) = true →
    ∃ t, exec (.update ch) s = .next t ∧ t = s ∧ exec (.final ch) s = .next t ∧ exec (.oneshot ch) s = .next t)
--w State.reset; 9

/-- ECDSA_SIGN, ECDSA_VERIFY, ECDH, KEYGEN, X25519, ED25519_SIGN, ED25519_VERIFY, PKA_CMD_GO, KAT_GO, KAT_DONE and PKA_CMD_DONE. -/
def Obligations.PkaItemsCommandsAndSelfTests : Prop :=
  (∀ (s : State) (ch : BitVec 12) (k : HeddleChannel) (it : HeddleItem) (j : PkaJob) (key : List Byte), s.CryptoWork ch.toNat k it 0x82 0 144 →
      it.param ≤ 1 → s.pkaTaken = false → s.sec.waiting = [] → j = ⟨0, it.param.testBit 0, if k.e.ctx.testBit 7 then some (k.e.ctx % 16) else none, s.bytesAt it.src it.len⟩ →
      j.shapeOk it.len = true → 0 < it.len → (s.pkaKey j).toOption = some key → s.fld F.TRNG_STAT_STATE = 2 → s.sec.quarters = 0 → (if it.param.testBit 0 then 4 else 3) ≤ s.sec.queue.length →
    ∃ t, exec (.ecdsaSign ch) s = .next t ∧ s.PkaEnds t ch.toNat it j (j.compute key ((s.sec.queue.take (if it.param.testBit 0 then 4 else 3)).flatMap (fun b => leBytes 16 b.toNat))) ∧ OnlyWork s t ch.toNat ∧
      t.sec.queue = s.sec.queue.drop (if it.param.testBit 0 then 4 else 3) ∧
      KeepsPages s t [P.PKA, P.DMC] ∧ t = { s with regs := t.regs, mem := t.mem, memory := t.memory, heddle := t.heddle, sec := t.sec }) ∧
--w (crS 0x82 0x03 (crIt 0 64 0)).putMem 0x01000140 (payload64 ++ payload64); 9; crK 0x82 0x03 (crIt 0 64 0); crIt 0 64 0; ⟨0, false, none, (payload64 ++ payload64 ++ payload64).take 64⟩; payload64.take 32
  (∀ (s : State) (ch : BitVec 12) (k : HeddleChannel) (it : HeddleItem) (j : PkaJob) (key : List Byte), s.CryptoWork ch.toNat k it 0x82 1 144 →
      it.param ≤ 1 → s.pkaTaken = false → s.sec.waiting = [] → j = ⟨1, it.param.testBit 0, if k.e.ctx.testBit 7 then some (k.e.ctx % 16) else none, s.bytesAt it.src it.len⟩ →
      j.shapeOk it.len = true → 0 < it.len → (s.pkaKey j).toOption = some key →
    ∃ t, exec (.ecdsaVerify ch) s = .next t ∧ s.PkaEnds t ch.toNat it j (j.compute key []) ∧ OnlyWork s t ch.toNat ∧
      KeepsPages s t [P.PKA, P.DMC] ∧ t = { s with regs := t.regs, mem := t.mem, memory := t.memory, heddle := t.heddle, sec := t.sec }) ∧
--w (crS 0x82 0x03 (crIt 1 160 0)).putMem 0x01000140 (payload64 ++ payload64); 9; crK 0x82 0x03 (crIt 1 160 0); crIt 1 160 0; ⟨1, false, none, (payload64 ++ payload64 ++ payload64).take 160⟩; payload64.take 0
  (∀ (s : State) (ch : BitVec 12) (k : HeddleChannel) (it : HeddleItem) (j : PkaJob) (key : List Byte), s.CryptoWork ch.toNat k it 0x82 2 144 →
      it.param ≤ 1 → s.pkaTaken = false → s.sec.waiting = [] → j = ⟨2, it.param.testBit 0, if k.e.ctx.testBit 7 then some (k.e.ctx % 16) else none, s.bytesAt it.src it.len⟩ →
      j.shapeOk it.len = true → 0 < it.len → (s.pkaKey j).toOption = some key →
    ∃ t, exec (.ecdh ch) s = .next t ∧ s.PkaEnds t ch.toNat it j (j.compute key []) ∧ OnlyWork s t ch.toNat ∧
      KeepsPages s t [P.PKA, P.DMC] ∧ t = { s with regs := t.regs, mem := t.mem, memory := t.memory, heddle := t.heddle, sec := t.sec }) ∧
--w (crS 0x82 0x03 (crIt 2 96 0)).putMem 0x01000140 (payload64 ++ payload64); 9; crK 0x82 0x03 (crIt 2 96 0); crIt 2 96 0; ⟨2, false, none, (payload64 ++ payload64 ++ payload64).take 96⟩; payload64.take 32
  (∀ (s : State) (ch : BitVec 12) (k : HeddleChannel) (it : HeddleItem) (j : PkaJob) (key : List Byte), s.CryptoWork ch.toNat k it 0x82 3 144 →
      it.param ≤ 1 → s.pkaTaken = false → s.sec.waiting = [] → j = ⟨3, it.param.testBit 0, if k.e.ctx.testBit 7 then some (k.e.ctx % 16) else none, s.bytesAt it.src 0⟩ →
      j.shapeOk it.len = true → (s.pkaKey j).toOption = some key → s.fld F.TRNG_STAT_STATE = 2 → s.sec.quarters = 0 → (if it.param.testBit 0 then 4 else 3) ≤ s.sec.queue.length →
    ∃ t, exec (.keygen ch) s = .next t ∧ s.PkaEnds t ch.toNat it j (j.compute key ((s.sec.queue.take (if it.param.testBit 0 then 4 else 3)).flatMap (fun b => leBytes 16 b.toNat))) ∧ OnlyWork s t ch.toNat ∧
      t.sec.queue = s.sec.queue.drop (if it.param.testBit 0 then 4 else 3) ∧
      KeepsPages s t [P.PKA, P.DMC] ∧ t = { s with regs := t.regs, mem := t.mem, memory := t.memory, heddle := t.heddle, sec := t.sec }) ∧
--w crS 0x82 0x83 (crIt 3 0 0); 9; crK 0x82 0x83 (crIt 3 0 0); crIt 3 0 0; ⟨3, false, some 3, []⟩; []
--w crS 0x82 0x03 (crIt 3 0 1); 9; crK 0x82 0x03 (crIt 3 0 1); crIt 3 0 1; ⟨3, true, none, []⟩; []
  (∀ (s : State) (ch : BitVec 12) (k : HeddleChannel) (it : HeddleItem) (j : PkaJob) (key : List Byte), s.CryptoWork ch.toNat k it 0x82 4 144 →
      it.param ≤ 1 → s.pkaTaken = false → s.sec.waiting = [] → j = ⟨4, it.param.testBit 0, if k.e.ctx.testBit 7 then some (k.e.ctx % 16) else none, s.bytesAt it.src it.len⟩ →
      j.shapeOk it.len = true → 0 < it.len → (s.pkaKey j).toOption = some key →
    ∃ t, exec (.x25519 ch) s = .next t ∧ s.PkaEnds t ch.toNat it j (j.compute key []) ∧ OnlyWork s t ch.toNat ∧
      KeepsPages s t [P.PKA, P.DMC] ∧ t = { s with regs := t.regs, mem := t.mem, memory := t.memory, heddle := t.heddle, sec := t.sec }) ∧
--w (crS 0x82 0x03 (crIt 4 64 0)).putMem 0x01000140 (payload64 ++ payload64); 9; crK 0x82 0x03 (crIt 4 64 0); crIt 4 64 0; ⟨4, false, none, (payload64 ++ payload64 ++ payload64).take 64⟩; payload64.take 32
  (∀ (s : State) (ch : BitVec 12) (k : HeddleChannel) (it : HeddleItem) (j : PkaJob) (key : List Byte), s.CryptoWork ch.toNat k it 0x82 5 144 →
      it.param ≤ 1 → s.pkaTaken = false → s.sec.waiting = [] → j = ⟨5, it.param.testBit 0, if k.e.ctx.testBit 7 then some (k.e.ctx % 16) else none, s.bytesAt it.src it.len⟩ →
      j.shapeOk it.len = true → 0 < it.len → (s.pkaKey j).toOption = some key →
    ∃ t, exec (.ed25519Sign ch) s = .next t ∧ s.PkaEnds t ch.toNat it j (j.compute key []) ∧ OnlyWork s t ch.toNat ∧
      KeepsPages s t [P.PKA, P.DMC] ∧ t = { s with regs := t.regs, mem := t.mem, memory := t.memory, heddle := t.heddle, sec := t.sec }) ∧
--w (crS 0x82 0x03 (crIt 5 80 0)).putMem 0x01000140 (payload64 ++ payload64); 9; crK 0x82 0x03 (crIt 5 80 0); crIt 5 80 0; ⟨5, false, none, (payload64 ++ payload64 ++ payload64).take 80⟩; payload64.take 32
  (∀ (s : State) (ch : BitVec 12) (k : HeddleChannel) (it : HeddleItem) (j : PkaJob) (key : List Byte), s.CryptoWork ch.toNat k it 0x82 6 144 →
      it.param ≤ 1 → s.pkaTaken = false → s.sec.waiting = [] → j = ⟨6, it.param.testBit 0, if k.e.ctx.testBit 7 then some (k.e.ctx % 16) else none, s.bytesAt it.src it.len⟩ →
      j.shapeOk it.len = true → 0 < it.len → (s.pkaKey j).toOption = some key →
    ∃ t, exec (.ed25519Verify ch) s = .next t ∧ s.PkaEnds t ch.toNat it j (j.compute key []) ∧ OnlyWork s t ch.toNat ∧
      KeepsPages s t [P.PKA, P.DMC] ∧ t = { s with regs := t.regs, mem := t.mem, memory := t.memory, heddle := t.heddle, sec := t.sec }) ∧
--w (crS 0x82 0x03 (crIt 6 100 0)).putMem 0x01000140 (payload64 ++ payload64); 9; crK 0x82 0x03 (crIt 6 100 0); crIt 6 100 0; ⟨6, false, none, (payload64 ++ payload64 ++ payload64).take 100⟩; payload64.take 0
  (∀ (s : State) (q : Req) (op : BitVec 4) (wide keySlot : Bool) (slot : Fin 16) (j : PkaJob), OpenTo s q P.PKA → s.flag F.PKA_CMD_DONE = true →
      s.running P.PKA = true → s.flag F.PKA_KAT_BUSY = false → s.flag F.PKA_KAT_FAIL = false → s.sec.waiting = [] → op.toNat = 1 ∨ op.toNat = 6 →
      j = ⟨op.toNat, wide, if keySlot then some slot.val else none, s.pkaMem 0 (s.fld F.PKA_LEN_LEN)⟩ → j.shapeOk j.input.length = true →
    ∃ t, exec (.pkaCmdGo q op wide keySlot slot) s = .next t ∧ t.flag F.PKA_CMD_DONE = false ∧ t.flag F.PKA_STAT_BUSY = true ∧
      t.flag F.PKA_STAT_FROM_CMD = true ∧ t.sec.pka = some (match j.compute [] [] with | .ok o => (0, o.bytes) | .error d => (d, [])) ∧
      KeepsRegs s t ([R.PKA_CMD, R.PKA_STAT] ++ logRegs P.PKA) ∧ t = { s with regs := t.regs, resp := t.resp, sec := { s.sec with pka := t.sec.pka } }) ∧
--w ((on State.reset P.PKA).setFld F.PKA_CMD_DONE 1).setFld F.PKA_LEN_LEN 160; ⟨0, true⟩; 1; false; false; 0; ⟨1, false, none, List.replicate 160 0#8⟩
  (∀ (s : State) (q : Req) (op : BitVec 4) (wide keySlot : Bool) (slot : Fin 16), OpenTo s q P.PKA → s.flag F.PKA_CMD_DONE = false →
    ∃ t, exec (.pkaCmdGo q op wide keySlot slot) s = .next t ∧ t.event P.PKA 31 = true ∧
      (s.flag (F.CLAMP_ADDR_VALID P.PKA) = false → t.fld (F.CLAMP_ADDR_REASON P.PKA) = 1) ∧
      KeepsRegs s t (logRegs P.PKA) ∧ t = { s with regs := t.regs, resp := t.resp, fresh := t.fresh }) ∧
--w (on State.reset P.PKA).setFld F.PKA_CMD_DONE 0; ⟨0, true⟩; 1; false; false; 0
  (∀ (s : State) (q : Req) (engine : Fin 3), OpenTo s q (katEngine engine).1.page →
    ∃ t, exec (.katGo q engine) s = .next t ∧ t.flag (katEngine engine).1.katBusy = true ∧
      KeepsRegs s t ((katEngine engine).2 :: logRegs (katEngine engine).1.page) ∧ t = { s with regs := t.regs, resp := t.resp }) ∧
--w on State.reset P.PKA; ⟨0, true⟩; 2
--w on State.reset P.AES; ⟨0, true⟩; 0
  (∀ (s : State) (engine : Fin 3) (pass : Bool), s.flag (katEngine engine).1.katBusy = true → s.sec.katWaiting = [] →
      s.flag F.PKA_STAT_FROM_CMD = false →
    ∃ t, exec (.katDone engine pass) s = .next t ∧ t.flag (katEngine engine).1.katBusy = false ∧ t.flag (katEngine engine).1.katPass = pass ∧
      t.flag (katEngine engine).1.katFail = (! pass) ∧ t.event (katEngine engine).1.page (katEngine engine).1.katDone = true ∧
      KeepsRegs s t [(katEngine engine).2, R.EVT_RAW (katEngine engine).1.page] ∧ t = { s with regs := t.regs }) ∧
--w (on State.reset P.HASH).setFld F.HASH_KAT_BUSY 1; 1; false
  (∀ (s : State) (us : BitVec 16) (r : Nat) (out : List Byte), s.sec.pka = some (r, out) → out.length ≤ 144 → r < 16 →
    ∃ t, exec (.pkaCmdDone us) s = .next t ∧ t.flag F.PKA_CMD_DONE = true ∧ t.fld F.PKA_CMD_RESULT = r ∧ t.flag F.PKA_STAT_BUSY = false ∧
      t.fld F.PKA_TIME_US = us.toNat ∧ t.event P.PKA E.PKA_CMD_DONE = true ∧ t.pkaMem 0x200 out.length = out ∧
      t.fld F.PKA_COUNT_COUNT = min (2 ^ F.PKA_COUNT_COUNT.width - 1) (s.fld F.PKA_COUNT_COUNT + 1) ∧
      KeepsPages s t [P.PKA] ∧ t = { s with regs := t.regs, sec := { s.sec with pka := none } }) ∧
--w { on State.reset P.PKA with sec := { State.reset.sec with pka := some (0, payload64) } }; 0xFFFF; 0; payload64
  (∀ (s : State) (ch : BitVec 12) (k : HeddleChannel) (it : HeddleItem), s.itemOf ch.toNat 6 = some (k, it) → k.e.port = 0x82 → it.op < 7 →
      (s.running P.PKA && ! s.resetting P.PKA) = false →
    ∃ t, (if it.op = 0 then exec (.ecdsaSign ch) s else if it.op = 1 then exec (.ecdsaVerify ch) s else if it.op = 2 then exec (.ecdh ch) s else if it.op = 3 then exec (.keygen ch) s else if it.op = 4 then exec (.x25519 ch) s else if it.op = 5 then exec (.ed25519Sign ch) s else exec (.ed25519Verify ch) s) = .next t ∧
      s.EngineEnds t Engine.pka ch.toNat it.index 4 9 ∧ t.event P.PKA Engine.pka.error = true ∧ KeepsRegs s t ([R.PKA_COUNT, R.PKA_STAT, R.PKA_ERR, R.EVT_RAW P.PKA]) ∧ t = { s with regs := t.regs, heddle := t.heddle }) ∧
--w (crS 0x82 0x03 (crIt 4 64 0)).setReg (R.PAGE_CTRL P.PKA) 0#64 |>.setReg (R.PAGE_STAT P.PKA) 0#64; 9; crK 0x82 0x03 (crIt 4 64 0); crIt 4 64 0
  (∀ (s : State) (ch : BitVec 12) (k : HeddleChannel) (it : HeddleItem), s.itemOf ch.toNat 6 = some (k, it) → k.e.port = 0x82 → it.op < 7 →
      (s.running P.PKA && ! s.resetting P.PKA) = true → s.flag Engine.pka.katBusy = true →
    ∃ t, (if it.op = 0 then exec (.ecdsaSign ch) s else if it.op = 1 then exec (.ecdsaVerify ch) s else if it.op = 2 then exec (.ecdh ch) s else if it.op = 3 then exec (.keygen ch) s else if it.op = 4 then exec (.x25519 ch) s else if it.op = 5 then exec (.ed25519Sign ch) s else exec (.ed25519Verify ch) s) = .next t ∧
      (t.itemAt ch.toNat it.index).map (fun x => x.started) = some true ∧ (ch.toNat, 0x82) ∈ t.sec.katWaiting ∧
      t = { s with heddle := t.heddle, sec := { s.sec with katWaiting := t.sec.katWaiting } }) ∧
--w (crS 0x82 0x03 (crIt 4 64 0)).setFld F.PKA_KAT_BUSY 1; 9; crK 0x82 0x03 (crIt 4 64 0); crIt 4 64 0
  (∀ (s : State) (ch : BitVec 12) (k : HeddleChannel) (it : HeddleItem), s.itemOf ch.toNat 6 = some (k, it) → k.e.port = 0x82 → it.op < 7 →
      (s.running P.PKA && ! s.resetting P.PKA) = true → s.flag Engine.pka.katBusy = false → s.flag Engine.pka.katFail = true →
    ∃ t, (if it.op = 0 then exec (.ecdsaSign ch) s else if it.op = 1 then exec (.ecdsaVerify ch) s else if it.op = 2 then exec (.ecdh ch) s else if it.op = 3 then exec (.keygen ch) s else if it.op = 4 then exec (.x25519 ch) s else if it.op = 5 then exec (.ed25519Sign ch) s else exec (.ed25519Verify ch) s) = .next t ∧
      s.EngineEnds t Engine.pka ch.toNat it.index 4 6 ∧ t.event P.PKA Engine.pka.error = true ∧ KeepsRegs s t ([R.PKA_COUNT, R.PKA_STAT, R.PKA_ERR, R.EVT_RAW P.PKA]) ∧ t = { s with regs := t.regs, heddle := t.heddle }) ∧
--w (crS 0x82 0x03 (crIt 4 64 0)).setFld F.PKA_KAT_FAIL 1; 9; crK 0x82 0x03 (crIt 4 64 0); crIt 4 64 0
  (∀ (s : State) (ch : BitVec 12) (k : HeddleChannel) (it : HeddleItem), s.itemOf ch.toNat 6 = some (k, it) → k.e.port = 0x82 → it.op < 7 →
      (s.running P.PKA && ! s.resetting P.PKA) = true → s.flag Engine.pka.katBusy = false → s.flag Engine.pka.katFail = false → 2 ≤ it.param →
    ∃ t, (if it.op = 0 then exec (.ecdsaSign ch) s else if it.op = 1 then exec (.ecdsaVerify ch) s else if it.op = 2 then exec (.ecdh ch) s else if it.op = 3 then exec (.keygen ch) s else if it.op = 4 then exec (.x25519 ch) s else if it.op = 5 then exec (.ed25519Sign ch) s else exec (.ed25519Verify ch) s) = .next t ∧
      t.itemStatus ch.toNat it.index = some (11, 1) ∧ t = { s with heddle := t.heddle }) ∧
--w crS 0x82 0x03 (crIt 4 64 2); 9; crK 0x82 0x03 (crIt 4 64 2); crIt 4 64 2
  (∀ (s : State) (ch : BitVec 12), (s.itemOf ch.toNat 6).all (fun x => x.1.e.port != 0x82) = true →
    ∃ t, exec (.ecdsaSign ch) s = .next t ∧ t = s ∧ exec (.ecdsaVerify ch) s = .next t ∧ exec (.ecdh ch) s = .next t ∧ exec (.keygen ch) s = .next t ∧ exec (.x25519 ch) s = .next t ∧ exec (.ed25519Sign ch) s = .next t ∧ exec (.ed25519Verify ch) s = .next t) ∧
--w State.reset; 9
  (∀ (s : State) (engine : Fin 3) (pass : Bool), s.flag (katEngine engine).1.katBusy = false → ∃ t, exec (.katDone engine pass) s = .next t ∧ t = s) ∧
--w State.reset; 1; true
  (∀ (s : State) (us : BitVec 16), s.sec.pka = none → s.pkaTaken = false → ∃ t, exec (.pkaCmdDone us) s = .next t ∧ t = s) ∧
--w State.reset; 5
  (∀ (s : State) (q : Req) (op : BitVec 4) (wide keySlot : Bool) (slot : Fin 16) (r : Nat), OpenTo s q P.PKA → s.flag F.PKA_CMD_DONE = true →
      s.flag F.PKA_KAT_BUSY = false → s.sec.waiting = [] →
      (s.running P.PKA = false ∧ r = 9 ∨ s.running P.PKA = true ∧ s.flag F.PKA_KAT_FAIL = true ∧ r = 6) →
    ∃ t, exec (.pkaCmdGo q op wide keySlot slot) s = .next t ∧ t.flag F.PKA_CMD_DONE = false ∧ t.flag F.PKA_STAT_BUSY = true ∧
      t.flag F.PKA_STAT_FROM_CMD = true ∧ t.sec.pka = some (r, []) ∧
      KeepsRegs s t ([R.PKA_CMD, R.PKA_STAT] ++ logRegs P.PKA) ∧ t = { s with regs := t.regs, resp := t.resp, sec := { s.sec with pka := t.sec.pka } })
--w State.reset.setFld F.PKA_CMD_DONE 1; ⟨0, true⟩; 1; false; false; 0; 9

/-- FAULT_SIGNAL, BELAY_SOFT, BELAY_ARM, PEND_CLEAR, FAULT_N_RELEASE and BELAY_RESET_REACTION. -/
def Obligations.FaultsAreSignalledLoggedAndReleased : Prop :=
  (∀ (s : State) (src : Fin 26) (soft : Bool) (unit : Byte) (addr : BitVec 40) (detail : BitVec 32), src.val ≠ 0 → s.railsOn = true → s.SignalsOnly src.val →
    ∃ t, exec (.faultSignal src soft unit addr detail) s = .next t ∧
      s.Signalled t ⟨src.val, if src.val = 7 ∧ soft = true then 2 else sourceClass src.val, unit.toNat, addr.toNat, detail.toNat, false⟩ ∧
      KeepsPages s t [P.BELAY, P.TETHER] ∧ t = { s with regs := t.regs, belay := t.belay, tether := t.tether }) ∧
--w belayQuiet State.reset; 3; false; 1; 0x80000040; 0xDEADBEEF
--w belayQuiet (State.reset.setFld F.BELAY_SIGNALLED_COUNT 65535); 7; true; 3; 0xFFFFFFFFFF; 0xFFFFFFFF
  (∀ (s : State) (src : Fin 26) (soft : Bool) (unit : Byte) (addr : BitVec 40) (detail : BitVec 32) (a : Nat), src.val ≠ 0 → s.railsOn = true → s.belay.test = none →
      s.fld (F.BELAY_REACT_REACT src.val) = 0 → s.flag F.BELAY_LOG_CTRL_EN = true → s.power.mramClosed = false →
      s.fld F.BELAY_LOG_POS_NEXT < 2 ^ s.fld F.BELAY_LOG_CTRL_ORDER → s.fld F.BELAY_LOG_CTRL_ORDER ≤ 12 → s.memory.lines = [] → s.memory.stale = [] →
      a = 0x08000000 + s.fld F.BELAY_LOG_BASE_BASE * 4096 + 32 * s.fld F.BELAY_LOG_POS_NEXT → a + 31 ≤ 0x087FFFFF →
    ∃ t, exec (.faultSignal src soft unit addr detail) s = .next t ∧
      t.bytesAt a 32 = t.logBytes ⟨src.val, if src.val = 7 ∧ soft = true then 2 else sourceClass src.val, unit.toNat, addr.toNat, detail.toNat, s.perturbed⟩
        t.belay.seq true ∧ t.belay.seq = s.belay.seq + 1 ∧
      t.fld F.BELAY_LOG_POS_NEXT = (s.fld F.BELAY_LOG_POS_NEXT + 1) % 2 ^ s.fld F.BELAY_LOG_CTRL_ORDER ∧ KeepsMemBut s t a 32 ∧
      KeepsPages s t [P.BELAY, P.TETHER] ∧ t = { s with regs := t.regs, mem := t.mem, memory := t.memory, belay := t.belay, tether := t.tether }) ∧
--w (((belayQuiet State.reset).setFld F.BELAY_LOG_CTRL_EN 1).setFld F.BELAY_LOG_CTRL_ORDER 3).setFld F.BELAY_LOG_POS_NEXT 7; 5; false; 2; 0x1234; 0x99; 0x080000E0
  (∀ (s : State) (src : Fin 26) (soft : Bool) (unit : Byte) (addr : BitVec 40) (detail : BitVec 32) (r : Bool), src.val ≠ 0 → s.railsOn = true → s.belay.test = some r →
    ∃ t, exec (.faultSignal src soft unit addr detail) s = .next t ∧ t = { s with belay := { s.belay with held := s.belay.held ++
      [⟨src.val, if src.val = 7 ∧ soft = true then 2 else sourceClass src.val, unit.toNat, addr.toNat, detail.toNat, false⟩] } }) ∧
--w State.reset; 2; false; 1; 0x80000040; 0xDEADBEEF; false
  (∀ (s : State) (src : Fin 26) (soft : Bool) (unit : Byte) (addr : BitVec 40) (detail : BitVec 32), src.val ≠ 0 → s.railsOn = true → s.belay.test = none →
      s.flag F.BELAY_LOG_CTRL_EN = false → s.fld (F.BELAY_REACT_REACT src.val) = 2 → s.perturbed = false → s.belay.resetDue = none →
    ∃ t, exec (.faultSignal src soft unit addr detail) s = .next t ∧ t.belay.resetDue = some (if src.val = 18 then 4 else 5) ∧
      (t.raw R.BELAY_PEND).getLsbD src.val = true ∧
      KeepsPages s t [P.BELAY, P.TETHER] ∧ t = { s with regs := t.regs, belay := t.belay, tether := t.tether }) ∧
--w (belayQuiet State.reset).setFld (F.BELAY_REACT_REACT 18) 2; 18; false; 1; 0; 0
--w (belayQuiet State.reset).setFld (F.BELAY_REACT_REACT 4) 2; 4; false; 1; 0; 0
  (∀ (s : State) (src : Fin 26) (soft : Bool) (unit : Byte) (addr : BitVec 40) (detail : BitVec 32), src.val = 1 ∨ src.val = 2 → s.railsOn = true → s.belay.test = none →
      s.flag F.BELAY_LOG_CTRL_EN = false → s.fld (F.BELAY_REACT_REACT src.val) = 1 → s.perturbed = false →
    ∃ t, exec (.faultSignal src soft unit addr detail) s = .next t ∧
      (∀ h : Fin 4, t.hart h.val = if h.val / 2 = src.val - 1 then { s.hart h.val with fenced := true } else s.hart h.val) ∧
      (t.raw R.BELAY_PEND).getLsbD src.val = true ∧
      KeepsPages s t [P.BELAY, P.TETHER] ∧ t = { s with regs := t.regs, harts := t.harts, belay := t.belay, tether := t.tether }) ∧
--w (belayQuiet State.reset).setFld (F.BELAY_REACT_REACT 2) 1; 2; false; 1; 0; 0
  (∀ (s : State) (src : Fin 26) (soft : Bool) (unit : Byte) (addr : BitVec 40) (detail : BitVec 32), s.railsOn = false →
    ∃ t, exec (.faultSignal src soft unit addr detail) s = .next t ∧ t = s) ∧
--w { State.reset with power := { PowerState.reset with phase := .off } }; 2; false; 1; 0; 0
  (∀ (s : State) (q : Req) (code : Byte), OpenTo s q P.BELAY → s.SignalsOnly 24 →
    ∃ t, exec (.belaySoft q code) s = .next t ∧ s.Signalled t ⟨24, 2, 0, 0, code.toNat, false⟩ ∧ t.fld F.BELAY_SOFT_CODE = s.fld F.BELAY_SOFT_CODE ∧
      KeepsPages s t [P.BELAY, P.TETHER] ∧ t = { s with regs := t.regs, belay := t.belay, tether := t.tether, resp := ⟨false, 0#64⟩ }) ∧
--w belayQuiet State.reset; ⟨0, true⟩; 0xA5
  (∀ (s : State) (q : Req) (key : BitVec 16), OpenTo s q P.BELAY →
    ∃ t, exec (.belayArm q key) s = .next t ∧ (key = 0x5AFE#16 → t.flag F.BELAY_STAT_ARMED = true) ∧
      (key ≠ 0x5AFE#16 → t.raw R.BELAY_STAT = s.raw R.BELAY_STAT) ∧
      KeepsRegs s t (R.BELAY_ARM :: R.BELAY_STAT :: logRegs P.BELAY) ∧ t = { s with regs := t.regs, resp := ⟨false, 0#64⟩ }) ∧
--w State.reset; ⟨0, true⟩; 0x5AFE
--w State.reset; ⟨0, true⟩; 0x5AFF
  (∀ (s : State) (q : Req) (m : BitVec 32) (src : Fin 26), OpenTo s q P.BELAY → m.toNat = 2 ^ src.val → src.val ≠ 0 →
      (s.raw R.BELAY_PEND).getLsbD src.val = true → s.pendSticks src.val = false →
    ∃ t, exec (.pendClear q m) s = .next t ∧ (t.raw R.BELAY_PEND).getLsbD src.val = false ∧
      (∀ x : Fin 26, x ≠ src → (t.raw R.BELAY_PEND).getLsbD x.val = (s.raw R.BELAY_PEND).getLsbD x.val) ∧
      t.belay = { s.belay with cls := SMap.erase s.belay.cls src.val, real := clearBits s.belay.real (2 ^ src.val), holds := clearBits s.belay.holds (2 ^ src.val) } ∧
      KeepsRegs s t (R.BELAY_PEND :: R.BELAY_STAT :: logRegs P.BELAY) ∧ t = { s with regs := t.regs, belay := t.belay, resp := ⟨false, 0#64⟩ }) ∧
--w { State.reset.setReg R.BELAY_PEND 0x30#64 with belay := { State.reset.belay with holds := 0x30, real := 0x30, cls := [(4, 3), (5, 3)] } }; ⟨0, true⟩; 0x20; 5
  (∀ (s : State) (q : Req) (m : BitVec 32) (src : Fin 26), OpenTo s q P.BELAY → m.toNat = 2 ^ src.val →
      (s.raw R.BELAY_PEND).getLsbD src.val = true → s.pendSticks src.val = true →
    ∃ t, exec (.pendClear q m) s = .next t ∧ (t.raw R.BELAY_PEND).getLsbD src.val = true ∧ t.belay = s.belay ∧
      KeepsRegs s t (R.BELAY_PEND :: R.BELAY_STAT :: logRegs P.BELAY) ∧ t = { s with regs := t.regs, resp := ⟨false, 0#64⟩ }) ∧
--w { State.reset.setReg R.BELAY_PEND 0x4#64 with belay := { State.reset.belay with holds := 4, real := 4, cls := [(2, 4)] } }; ⟨0, true⟩; 0x4; 2
  (∀ (s : State) (ms : BitVec 32), s.belay.faultLow = true → s.power.phase = .run → s.flag F.BELAY_STAT_STARTUP_DONE = true →
      s.flag F.BELAY_STAT_ARMED = true → s.belay.holds = 0 → s.fld F.BELAY_CFG_MIN_LOW ≤ ms.toNat →
    ∃ t, exec (.faultNRelease ms) s = .next t ∧ t.belay = { s.belay with faultLow := false } ∧ t.flag F.BELAY_STAT_FAULT = false ∧
      KeepsRegs s t [R.BELAY_STAT] ∧ t = { s with regs := t.regs, belay := t.belay }) ∧
--w (State.reset.setFld F.BELAY_STAT_ARMED 1).setFld F.BELAY_STAT_STARTUP_DONE 1; 255
  (∀ (s : State) (ms : BitVec 32), s.flag F.BELAY_STAT_STARTUP_DONE = false ∨ s.flag F.BELAY_STAT_ARMED = false ∨ s.belay.holds ≠ 0 ∨
      ms.toNat < s.fld F.BELAY_CFG_MIN_LOW →
    ∃ t, exec (.faultNRelease ms) s = .next t ∧ t = s) ∧
--w State.reset; 255
  (∀ (s : State) (cause : Nat), s.belay.resetDue = some cause →
    ∃ t, exec .belayResetReaction s = .next t ∧ t.power.phase = .reset ∧ t.power.cause = cause ∧ t.belay.resetDue = none ∧
      t.power.rstoutN = false ∧ (∀ h : Fin 4, (t.hart h.val).running = false) ∧ t.code4G = s.code4G ∧ t.pending = s.pending)
--w { State.reset with belay := { BelayState.reset with resetDue := some 5 }, harts := State.reset.harts.map (fun h => { h with running := true }) }; 5

/-- COND_EVALUATION, CRC_PASS, DUP_MISMATCH, MONITOR_EXCURSION, SELFTEST and SELFTEST_DONE. -/
def Obligations.ConditionsCrcsMonitorsAndSelfTest : Prop :=
  (∀ (s : State) (vin : BitVec 16) (tj : BitVec 9), s.railsOn = true → s.power.thermHold = true ∨ sext 9 tj.toNat < 112 →
      s.flag F.BELAY_STAT_GUARANTEE = false ∨ (s.withReadings vin tj).condWord = 127 →
    ∃ t, exec (.condEvaluation vin tj) s = .next t ∧ t.fld F.BELAY_COND_COND = (s.withReadings vin tj).condWord ∧ t.flag F.BELAY_STAT_GUARANTEE = decide ((s.withReadings vin tj).condWord = 127) ∧
      t.fld F.PWR_MON_VIN = vin.toNat ∧ t.fld F.PWR_THERM_TJ = tj.toNat ∧
      (s.flag F.BELAY_STAT_GUARANTEE = false → (s.withReadings vin tj).condWord = 127 → t.event P.BELAY E.BELAY_GUARANTEE_ON = true) ∧
      (s.power.phase = .run → s.power.thermHold = false → (s.fld F.PWR_THERM_WARN : Int) ≤ sext 9 tj.toNat → t.flag F.PWR_STATE_FORCED_COOL = true) ∧
      KeepsRegs s t [R.PWR_MON, R.PWR_THERM, R.PWR_STATE, R.BELAY_COND, R.BELAY_STAT, R.EVT_RAW P.BELAY, R.EVT_RAW P.PWR] ∧
      t = { s with regs := t.regs, power := { s.power with thermHold := s.power.thermHold && decide (100 < sext 9 tj.toNat) } }) ∧
--w State.reset; 3000; 0x1FF
--w { State.reset with power := { PowerState.reset with phase := .reset, thermHold := true } }; 3000; 100
  (∀ (s : State) (vin : BitVec 16) (tj : BitVec 9), s.railsOn = true → s.power.thermHold = true ∨ sext 9 tj.toNat < 112 →
      s.flag F.BELAY_STAT_GUARANTEE = true → (s.withReadings vin tj).condWord ≠ 127 → s.SignalsOnly 17 →
    ∃ t, exec (.condEvaluation vin tj) s = .next t ∧ t.fld F.BELAY_COND_COND = (s.withReadings vin tj).condWord ∧ t.flag F.BELAY_STAT_GUARANTEE = false ∧
      t.event P.BELAY E.BELAY_GUARANTEE_LOST = true ∧ s.Signalled t ⟨17, 3, 0, 0, (s.withReadings vin tj).condWord, false⟩ ∧
      KeepsPages s t [P.PWR, P.BELAY, P.TETHER] ∧ 
      t = { s with regs := t.regs, belay := t.belay, tether := t.tether, power := { s.power with thermHold := s.power.thermHold && decide (100 < sext 9 tj.toNat) } }) ∧
--w (belayQuiet State.reset).setFld F.BELAY_STAT_GUARANTEE 1; 3000; 0x6F
  (∀ (s : State) (vin : BitVec 16) (tj : BitVec 9), s.railsOn = true → s.power.thermHold = false → 112 ≤ sext 9 tj.toNat →
    ∃ t, exec (.condEvaluation vin tj) s = .next t ∧ t.power.phase = .reset ∧ t.power.cause = 6 ∧ t.power.thermHold = true ∧
      t.flag F.PWR_STATE_THERM_TRIP = true ∧ t.pending = s.pending ∧ t.code4G = s.code4G) ∧
--w State.reset; 3000; 112
  (∀ (s : State) (vin : BitVec 16) (tj : BitVec 9), s.railsOn = false →
    ∃ t, exec (.condEvaluation vin tj) s = .next t ∧ t = s) ∧
--w { State.reset with power := { PowerState.reset with phase := .bivouac } }; 3000; 0x6F
  (∀ (s : State) (us : BitVec 16), s.railsOn = true → (∀ e ∈ s.belay.crc, s.pageCrc e.1 = e.2) →
    ∃ t, exec (.crcPass us none) s = .next t ∧ t = s.setFld F.BELAY_CRC_STAT_PASS_US us.toNat) ∧
--w { State.reset with belay := { BelayState.reset with crc := [(9, State.reset.pageCrc 9)] } }; 1000
  (∀ (s : State) (us : BitVec 16) (a : BitVec 32) (b : Fin 64) (n c : Nat) (base : Nat) (regs : List RSpec), s.railsOn = true → s.SignalsOnly 13 →
      s.belay.crc = [(n, c)] → (s.upsetField a.toNat b.val).pageCrc n ≠ c → n < 70 → pageAtIndex n = some (base, regs) →
    ∃ t, exec (.crcPass us (some (a, b))) s = .next t ∧ t.fld F.BELAY_CRC_STAT_PASS_US = us.toNat ∧ t.fld F.BELAY_CRC_STAT_LAST_BAD = n ∧
      (s.upsetField a.toNat b.val).Signalled t ⟨13, 3, n, base, (Config.free s.fresh).toNat % 2 ^ 32, s.belay.crcFlips.contains n⟩ ∧ t.fresh = s.fresh + 1 ∧
      KeepsPages (s.upsetField a.toNat b.val) t [P.BELAY, P.TETHER] ∧ t = { s with regs := t.regs, belay := t.belay, tether := t.tether, fresh := t.fresh }) ∧
--w crcS; 1000; 0x10009000; 0; 9; 5; 0x10009000; (match pageAtIndex 9 with | some p => p.2 | none => [])
  (∀ (s : State) (us : BitVec 16) (hit : Option (BitVec 32 × Fin 64)), s.railsOn = false →
    ∃ t, exec (.crcPass us hit) s = .next t ∧ t = s) ∧
--w { State.reset with power := { PowerState.reset with phase := .off } }; 1000; none
  (∀ (s : State) (unit : Fin 4), s.dupCompared unit.val = false →
    ∃ t, exec (.dupMismatch unit) s = .next t ∧ t = s) ∧
--w { State.reset with power := { PowerState.reset with phase := .reset } }; 1
  (∀ (s : State) (unit : Fin 4), s.dupCompared unit.val = true → s.SignalsOnly 12 →
    ∃ t, exec (.dupMismatch unit) s = .next t ∧ s.Signalled t ⟨12, 3, unit.val, 0, 0, false⟩ ∧
      KeepsPages s t [P.BELAY, P.TETHER] ∧ t = { s with regs := t.regs, belay := t.belay, tether := t.tether }) ∧
--w (belayQuiet State.reset).setFld (F.BELAY_REACT_REACT 12) 0; 3
  (∀ (s : State) (target : Fin 15), s.railsOn = true → s.monitorOn target.val = true → s.railOff target.val = false → s.SignalsOnly (monitorFault target.val true).source →
    ∃ t, exec (.monitorExcursion target .left) s = .next t ∧ s.Signalled t (monitorFault target.val true) ∧
      (target.val < 8 → (t.raw R.BELAY_MON).getLsbD target.val = false) ∧ (target.val = 8 → t.flag F.CLK_STAT_XIN_OK = false) ∧
      (8 < target.val → (t.raw R.CLK_STAT).getLsbD (target.val - 6) = false) ∧
      KeepsPages s t [P.BELAY, P.CLK, P.TETHER] ∧ t = { s with regs := t.regs, belay := t.belay, tether := t.tether }) ∧
--w (belayQuiet State.reset).setFld F.BELAY_MON_VMON_EN 1; 7
--w ((belayQuiet State.reset).setFld F.CLK_MON_CFG_XIN 1).setFld (F.BELAY_REACT_REACT 14) 0; 8
--w ((belayQuiet State.reset).setFld F.CLK_MON_CFG_PLL 1).setFld (F.BELAY_REACT_REACT 15) 0; 14
  (∀ (s : State) (target : Fin 15), s.railsOn = true → s.monitorOn target.val = false → s.railOff target.val = false →
    ∃ t, exec (.monitorExcursion target .left) s = .next t ∧
      (target.val < 8 → (t.raw R.BELAY_MON).getLsbD target.val = false) ∧ (target.val = 8 → t.flag F.CLK_STAT_XIN_OK = false) ∧
      (8 < target.val → (t.raw R.CLK_STAT).getLsbD (target.val - 6) = false) ∧
      KeepsRegs s t [R.BELAY_MON, R.CLK_STAT] ∧ t = { s with regs := t.regs }) ∧
--w ((belayQuiet State.reset).setFld F.BELAY_MON_VMON_EN 0).setFld F.CLK_MON_CFG_XIN 0; 7
  (∀ (s : State) (target : Fin 15), s.railsOn = true → s.monitorOn target.val = true → s.railOff target.val = false → s.SignalsOnly 20 →
    ∃ t, exec (.monitorExcursion target .oneCopy) s = .next t ∧ s.Signalled t ⟨20, 3, target.val, 0, 0, false⟩ ∧
      KeepsPages s t [P.BELAY, P.TETHER] ∧ t = { s with regs := t.regs, belay := t.belay, tether := t.tether }) ∧
--w (belayQuiet State.reset).setFld F.BELAY_MON_VMON_EN 1; 7
  (∀ (s : State) (target : Fin 15), s.railsOn = true → s.railOff target.val = false →
    ∃ t, exec (.monitorExcursion target .back) s = .next t ∧
      (target.val < 8 → (t.raw R.BELAY_MON).getLsbD target.val = true) ∧ (target.val = 8 → t.flag F.CLK_STAT_XIN_OK = true) ∧
      (8 < target.val → (t.raw R.CLK_STAT).getLsbD (target.val - 6) = true) ∧
      KeepsRegs s t [R.BELAY_MON, R.CLK_STAT] ∧ t = { s with regs := t.regs }) ∧
--w State.reset; 14
  (∀ (s : State) (target : Fin 15) (k : MonitorEvent), s.railsOn = false ∨ s.railOff target.val = true →
    ∃ t, exec (.monitorExcursion target k) s = .next t ∧ t = s) ∧
--w State.reset.setFld F.PWR_STATE_CUR 3; 0; .left
--w { State.reset with power := { PowerState.reset with phase := .off } }; 9; .left
  (∀ (s : State) (q : Req), OpenTo s q P.BELAY → s.belay.test = none → s.flag F.BELAY_STAT_GUARANTEE = false →
    ∃ t, exec (.selftest q) s = .next t ∧ t.belay = { s.belay with test := some true } ∧ t.flag F.BELAY_SELFTEST_BUSY = true ∧
      t.flag F.BELAY_SELFTEST_PASS = false ∧ t.flag F.BELAY_SELFTEST_FAIL = false ∧ t.fld F.BELAY_COND_COND / 2 ^ 6 = 0 ∧
      t.flag F.BELAY_STAT_GUARANTEE = false ∧
      KeepsRegs s t ([R.BELAY_SELFTEST, R.BELAY_COND, R.BELAY_STAT] ++ logRegs P.BELAY) ∧ t = { s with regs := t.regs, belay := t.belay, resp := ⟨false, 0#64⟩ }) ∧
--w belayQuiet State.reset; ⟨0, true⟩
  (∀ (s : State) (q : Req), OpenTo s q P.BELAY → s.belay.test = none → s.flag F.BELAY_STAT_GUARANTEE = true →
    ∃ t, exec (.selftest q) s = .next t ∧ t.belay.test = some true ∧ t.flag F.BELAY_SELFTEST_BUSY = true ∧ t.flag F.BELAY_STAT_GUARANTEE = false ∧
      t.event P.BELAY E.BELAY_GUARANTEE_LOST = true ∧ t.belay.held = s.belay.held ++ [⟨17, 3, 0, 0, t.fld F.BELAY_COND_COND, false⟩] ∧
      KeepsRegs s t ([R.BELAY_SELFTEST, R.BELAY_COND, R.BELAY_STAT] ++ logRegs P.BELAY) ∧ t = { s with regs := t.regs, belay := t.belay, resp := ⟨false, 0#64⟩ }) ∧
--w (belayQuiet State.reset).setFld F.BELAY_STAT_GUARANTEE 1; ⟨0, true⟩
  (∀ (s : State) (onRequest : Bool), s.belay.test = some onRequest → s.belay.held = [] → s.flag F.BELAY_STAT_GUARANTEE = false →
    ∃ t, exec (.selftestDone true) s = .next t ∧ t.belay = { s.belay with test := none, selfOk := true } ∧ t.flag F.BELAY_SELFTEST_BUSY = false ∧
      t.flag F.BELAY_SELFTEST_PASS = true ∧ t.flag F.BELAY_SELFTEST_FAIL = false ∧ t.event P.BELAY E.BELAY_SELFTEST_DONE = true ∧
      (onRequest = false → t.flag F.BELAY_STAT_STARTUP_DONE = true) ∧ (onRequest = true → t.flag F.BELAY_STAT_STARTUP_DONE = s.flag F.BELAY_STAT_STARTUP_DONE) ∧
      t.flag F.BELAY_STAT_GUARANTEE = decide (t.condWord = 127) ∧ t.fld F.BELAY_COND_COND = t.condWord ∧
      KeepsRegs s t [R.BELAY_SELFTEST, R.BELAY_COND, R.BELAY_STAT, R.EVT_RAW P.BELAY] ∧ t = { s with regs := t.regs, belay := t.belay }) ∧
--w State.reset; false
  (∀ (s : State) (onRequest : Bool), s.belay.test = some onRequest → s.belay.held = [] → s.flag F.BELAY_STAT_GUARANTEE = false →
      s.flag F.BELAY_LOG_CTRL_EN = false → s.fld (F.BELAY_REACT_REACT 21) = 0 → (∀ e ∈ s.belay.cls, e.2 ≤ 4) → s.perturbed = false →
    ∃ t, exec (.selftestDone false) s = .next t ∧ s.Signalled t ⟨21, 4, if onRequest = true then 2 else 1, 0, 0, false⟩ ∧ t.belay.test = none ∧
      t.belay.selfOk = false ∧ t.flag F.BELAY_SELFTEST_BUSY = false ∧
      t.flag F.BELAY_SELFTEST_PASS = false ∧ t.flag F.BELAY_SELFTEST_FAIL = true ∧ t.event P.BELAY E.BELAY_SELFTEST_DONE = true ∧
      t.flag F.BELAY_STAT_STARTUP_DONE = s.flag F.BELAY_STAT_STARTUP_DONE ∧ t.flag F.BELAY_STAT_GUARANTEE = false ∧
      KeepsPages s t [P.BELAY, P.TETHER] ∧ t = { s with regs := t.regs, belay := t.belay, tether := t.tether })
--w State.reset.setFld (F.BELAY_REACT_REACT 21) 0; false

/-- WDOG_KICK, WDOG_WARN and WDOG_EXPIRY (R576). -/
def Obligations.WatchdogsKickWarnAndExpire : Prop :=
  (∀ (s : State) (q : Req) (n : Fin 4) (ms : Nat), OpenTo s q P.WDOG → s.wdogAbsent n.val = false → s.flag (F.WDOG_CTRL_EN n.val) = true →
      s.fld (F.WDOG_WINDOW_MS n.val) ≤ ms →
    ∃ t, exec (.wdogKick q n 0x4B1C#32 ms) s = .next t ∧ t.fld (F.WDOG_LEFT_MS n.val) = s.fld (F.WDOG_TIMEOUT_MS n.val) ∧
      KeepsRegs s t ([R.WDOG_KICK n.val, R.WDOG_LEFT n.val] ++ logRegs P.WDOG) ∧ t = { s with regs := t.regs, resp := ⟨false, 0#64⟩ }) ∧
--w (State.reset.setFld (F.WDOG_CTRL_EN 2) 1).setFld (F.WDOG_WINDOW_MS 2) 5; ⟨0, true⟩; 2; 5
  (∀ (s : State) (q : Req) (n : Fin 4) (ms : Nat), OpenTo s q P.WDOG → s.wdogAbsent n.val = false → s.flag (F.WDOG_CTRL_EN n.val) = true →
      ms < s.fld (F.WDOG_WINDOW_MS n.val) → s.SignalsOnly 18 →
    ∃ t, exec (.wdogKick q n 0x4B1C#32 ms) s = .next t ∧ t.flag (F.WDOG_STAT_EARLY n.val) = true ∧ t.flag (F.WDOG_STAT_EXPIRED n.val) = true ∧
      t.fld (F.WDOG_LEFT_MS n.val) = s.fld (F.WDOG_TIMEOUT_MS n.val) ∧ s.Signalled t ⟨18, 3, n.val, 0, 0, false⟩ ∧
      t.fld F.WDOG_COUNT_COUNT = min (2 ^ 16 - 1) (s.fld F.WDOG_COUNT_COUNT + 1) ∧ t.event P.WDOG E.WDOG_EXPIRED = true ∧
      KeepsPages s t [P.WDOG, P.BELAY, P.TETHER] ∧ t = { s with regs := t.regs, belay := t.belay, tether := t.tether, resp := ⟨false, 0#64⟩ }) ∧
--w (((belayQuiet State.reset).setFld (F.WDOG_CTRL_EN 2) 1).setFld (F.WDOG_WINDOW_MS 2) 5).setFld (F.BELAY_REACT_REACT 18) 0; ⟨0, true⟩; 2; 4
  (∀ (s : State) (q : Req) (n : Fin 4) (key : BitVec 32) (ms : Nat), OpenTo s q P.WDOG → s.wdogAbsent n.val = false → key ≠ 0x4B1C#32 →
    ∃ t, exec (.wdogKick q n key ms) s = .next t ∧
      t.fld (F.WDOG_BAD_COUNT n.val) = min (2 ^ 8 - 1) (s.fld (F.WDOG_BAD_COUNT n.val) + 1) ∧
      KeepsRegs s t ([R.WDOG_KICK n.val, R.WDOG_BAD n.val] ++ logRegs P.WDOG) ∧ t = { s with regs := t.regs, resp := ⟨false, 0#64⟩ }) ∧
--w State.reset; ⟨0, true⟩; 0; 0x14B1C; 5
  (∀ (s : State) (n : Fin 4), s.wdogCounts n.val = true → s.fld (F.WDOG_WARN_MS n.val) ≠ 0 → s.fld (F.WDOG_WARN_MS n.val) ≤ s.fld (F.WDOG_LEFT_MS n.val) →
    ∃ t, exec (.wdogWarn n) s = .next t ∧ t.fld (F.WDOG_LEFT_MS n.val) = s.fld (F.WDOG_WARN_MS n.val) ∧ t.flag (F.WDOG_STAT_WARNED n.val) = true ∧
      t.event P.WDOG E.WDOG_WARNED = true ∧ KeepsPages s t [P.WDOG, P.CAIRN_CTL] ∧
      ((s.gate (12 + n.val)).latch = false → t.gate (12 + n.val) = { s.gate (12 + n.val) with latch := true }) ∧ t = { s with regs := t.regs, cairn := t.cairn }) ∧
--w wdogS; 2
  (∀ (s : State) (n : Fin 4), s.wdogCounts n.val = true → s.SignalsOnly 18 →
    ∃ t, exec (.wdogExpiry n) s = .next t ∧ t.flag (F.WDOG_STAT_EXPIRED n.val) = true ∧
      t.fld (F.WDOG_LEFT_MS n.val) = s.fld (F.WDOG_TIMEOUT_MS n.val) ∧ s.Signalled t ⟨18, 3, n.val, 0, 0, false⟩ ∧
      t.fld F.WDOG_COUNT_COUNT = min (2 ^ 16 - 1) (s.fld F.WDOG_COUNT_COUNT + 1) ∧ t.event P.WDOG E.WDOG_EXPIRED = true ∧
      KeepsPages s t [P.WDOG, P.BELAY, P.TETHER] ∧ t = { s with regs := t.regs, belay := t.belay, tether := t.tether }) ∧
--w wdogS; 2
  (∀ (s : State) (n : Fin 4), s.wdogCounts n.val = false →
    ∃ t, exec (.wdogExpiry n) s = .next t ∧ t = s)
--w State.reset; 3

/-- ECC_GO. -/
def Obligations.ScreeDisturbsACodeword : Prop :=
  (∀ (s : State) (q : Req), OpenTo s q P.SCREE → s.screeActs = true → s.flag F.SCREE_ECC_GO_BUSY = false →
      s.fld F.SCREE_ECC_TARGET_ARRAY ≠ 10 → s.fld F.SCREE_ECC_TARGET_ARRAY ≠ 11 →
      s.eccTarget (s.fld F.SCREE_ECC_TARGET_ARRAY) (s.fld F.SCREE_ECC_TARGET_UNIT) (s.fld F.SCREE_ECC_ADDR_ADDR) = true →
    ∃ t, exec (.eccGo q) s = .next t ∧ s.ShotActed t 0xBC ∧ t.flag F.SCREE_ECC_GO_DONE = true ∧ t.flag F.SCREE_ECC_GO_MISSED = false ∧
      t.memory = { s.memory with flips := s.memory.flips ++ [⟨s.fld F.SCREE_ECC_TARGET_ARRAY, if s.fld F.SCREE_ECC_TARGET_ARRAY ≤ 2 then s.fld F.SCREE_ECC_TARGET_UNIT else 0,
        codewordOf (s.fld F.SCREE_ECC_TARGET_ARRAY) (s.fld F.SCREE_ECC_ADDR_ADDR), s.fld F.SCREE_ECC_MASK_BIT_A,
        if s.flag F.SCREE_ECC_MASK_DOUBLE = true then some (s.fld F.SCREE_ECC_MASK_BIT_B) else none, true⟩] } ∧
      KeepsRegs s t ([R.SCREE_ECC_GO, R.SCREE_LAST, R.SCREE_COUNT] ++ logRegs P.SCREE) ∧ t = { s with regs := t.regs, memory := t.memory, resp := ⟨false, 0#64⟩ }) ∧
--w ((screeS.setFld F.SCREE_ECC_TARGET_ARRAY 9).setFld F.SCREE_ECC_ADDR_ADDR 0x01000048).setFld F.SCREE_ECC_MASK_DOUBLE 1; ⟨0, true⟩
  (∀ (s : State) (q : Req), OpenTo s q P.SCREE → s.screeActs = true → s.flag F.SCREE_ECC_GO_BUSY = false → s.fld F.SCREE_ECC_TARGET_ARRAY = 10 →
    ∃ t, exec (.eccGo q) s = .next t ∧ s.ShotActed t 0xBC ∧ t.flag F.SCREE_ECC_GO_DONE = true ∧
      t.belay = { s.belay with flitShots := s.belay.flitShots ++ [(s.fld F.SCREE_ECC_TARGET_UNIT, s.fld F.SCREE_ECC_ADDR_ADDR % 4, s.flag F.SCREE_ECC_MASK_DOUBLE)] } ∧
      KeepsRegs s t ([R.SCREE_ECC_GO, R.SCREE_LAST, R.SCREE_COUNT] ++ logRegs P.SCREE) ∧ t = { s with regs := t.regs, belay := t.belay, resp := ⟨false, 0#64⟩ }) ∧
--w (screeS.setFld F.SCREE_ECC_TARGET_ARRAY 10).setFld F.SCREE_ECC_ADDR_ADDR 3; ⟨0, true⟩
  (∀ (s : State) (q : Req), OpenTo s q P.SCREE → s.screeActs = true → s.flag F.SCREE_ECC_GO_BUSY = false → s.fld F.SCREE_ECC_TARGET_ARRAY = 11 →
    ∃ t, exec (.eccGo q) s = .next t ∧ s.ShotActed t 0xBC ∧ t.flag F.SCREE_ECC_GO_DONE = true ∧
      t.belay = { s.belay with moveShots := s.belay.moveShots ++ [(s.fld F.SCREE_ECC_ADDR_ADDR % 4096, s.fld F.SCREE_ECC_MASK_BIT_A,
        if s.flag F.SCREE_ECC_MASK_DOUBLE = true then some (s.fld F.SCREE_ECC_MASK_BIT_B) else none)] } ∧
      KeepsRegs s t ([R.SCREE_ECC_GO, R.SCREE_LAST, R.SCREE_COUNT] ++ logRegs P.SCREE) ∧ t = { s with regs := t.regs, belay := t.belay, resp := ⟨false, 0#64⟩ }) ∧
--w (screeS.setFld F.SCREE_ECC_TARGET_ARRAY 11).setFld F.SCREE_ECC_ADDR_ADDR 0x1005; ⟨0, true⟩
  (∀ (s : State) (q : Req), OpenTo s q P.SCREE → s.screeActs = true → s.flag F.SCREE_ECC_GO_BUSY = false →
      s.eccTarget (s.fld F.SCREE_ECC_TARGET_ARRAY) (s.fld F.SCREE_ECC_TARGET_UNIT) (s.fld F.SCREE_ECC_ADDR_ADDR) = false →
    ∃ t, exec (.eccGo q) s = .next t ∧ t.flag F.SCREE_ECC_GO_MISSED = true ∧ t.flag F.SCREE_ECC_GO_DONE = false ∧ t.event P.SCREE E.SCREE_MISSED = true ∧
      KeepsRegs s t (R.SCREE_ECC_GO :: logRegs P.SCREE) ∧ t = { s with regs := t.regs, resp := ⟨false, 0#64⟩ }) ∧
--w screeS.setFld F.SCREE_ECC_TARGET_ARRAY 5; ⟨0, true⟩
  (∀ (s : State) (q : Req), OpenTo s q P.SCREE → s.screeActs = false →
    ∃ t, exec (.eccGo q) s = .next t ∧ KeepsRegs s t (R.SCREE_ECC_GO :: logRegs P.SCREE) ∧ t = { s with regs := t.regs, resp := ⟨false, 0#64⟩ })
--w State.reset; ⟨0, true⟩

/-- LOCKSTEP_GO, DUP_GO, CRC_GO, MON_GO, ENTROPY_GO and SCREE_END. -/
def Obligations.ScreeOneShotsActAndEnd : Prop :=
  (∀ (s : State) (q : Req) (b : Bool), OpenTo s q P.SCREE → s.screeActs = true →
    ∃ t, exec (.lockstepGo q b) s = .next t ∧ s.ShotActed t 0xC0 ∧ t.belay = { s.belay with lockstepShots := s.belay.lockstepShots ||| (if b = true then 2 else 1) } ∧
      KeepsRegs s t ([R.SCREE_LOCKSTEP, R.SCREE_LAST, R.SCREE_COUNT] ++ logRegs P.SCREE) ∧ t = { s with regs := t.regs, belay := t.belay, resp := ⟨false, 0#64⟩ }) ∧
--w screeS; ⟨0, true⟩; true
  (∀ (s : State) (q : Req) (b : Bool), OpenTo s q P.SCREE → s.screeActs = false →
    ∃ t, exec (.lockstepGo q b) s = .next t ∧ KeepsRegs s t (R.SCREE_LOCKSTEP :: logRegs P.SCREE) ∧ t = { s with regs := t.regs, resp := ⟨false, 0#64⟩ }) ∧
--w State.reset; ⟨0, true⟩; true
  (∀ (s : State) (q : Req) (unit : Fin 4), OpenTo s q P.SCREE → s.screeActs = true → s.belay.test = none → s.flag F.BELAY_LOG_CTRL_EN = false →
      s.flag F.SCREE_CTRL_FULL_REACT = false → (∀ e ∈ s.belay.cls, e.2 ≤ 4) →
    ∃ t, exec (.dupGo q unit) s = .next t ∧ s.ShotActed t 0xC4 ∧ s.Signalled t ⟨12, 3, unit.val, 0, 0, true⟩ ∧ t.belay.real = s.belay.real ∧
      t.belay.resetDue = s.belay.resetDue ∧
      KeepsPages s t [P.SCREE, P.BELAY, P.TETHER] ∧ t = { s with regs := t.regs, belay := t.belay, tether := t.tether, resp := ⟨false, 0#64⟩ }) ∧
--w belayQuiet (screeS.setFld F.SCREE_CTRL_QUIET 1); ⟨0, true⟩; 2
  (∀ (s : State) (q : Req) (page : BitVec 7) (c : Nat), OpenTo s q P.SCREE → s.screeActs = true → page.toNat < 70 → AMap.get? s.belay.crc page.toNat = some c →
    ∃ t, exec (.crcGo q page) s = .next t ∧ s.ShotActed t 0xC8 ∧ AMap.get? t.belay.crc page.toNat = some (c ^^^ 1) ∧
      (∀ x : Fin 70, x.val ≠ page.toNat → AMap.get? t.belay.crc x.val = AMap.get? s.belay.crc x.val) ∧
      (s.belay.crcFlips.contains page.toNat = false → t.belay.crcFlips = s.belay.crcFlips ++ [page.toNat]) ∧
      (s.belay.crcFlips.contains page.toNat = true → t.belay.crcFlips = s.belay.crcFlips.erase page.toNat) ∧
      KeepsRegs s t ([R.SCREE_CRC, R.SCREE_LAST, R.SCREE_COUNT] ++ logRegs P.SCREE) ∧ t = { s with regs := t.regs, resp := ⟨false, 0#64⟩, belay := { s.belay with crc := t.belay.crc, crcFlips := t.belay.crcFlips } }) ∧
--w { screeS with belay := { screeS.belay with crc := [(3, 5), (9, 6)] } }; ⟨0, true⟩; 9; 6
  (∀ (s : State) (q : Req) (page : BitVec 7), OpenTo s q P.SCREE → s.screeActs = true → page.toNat < 70 → AMap.get? s.belay.crc page.toNat = none →
    ∃ t, exec (.crcGo q page) s = .next t ∧ t.flag F.SCREE_ECC_GO_MISSED = true ∧ t.event P.SCREE E.SCREE_MISSED = true ∧
      KeepsRegs s t ([R.SCREE_CRC, R.SCREE_ECC_GO] ++ logRegs P.SCREE) ∧ t = { s with regs := t.regs, resp := ⟨false, 0#64⟩ }) ∧
--w screeS; ⟨0, true⟩; 69
  (∀ (s : State) (q : Req) (target : Fin 16) (one : Bool), OpenTo s q P.SCREE → s.screeActs = true → s.belay.test = none → target.val < 15 →
      s.flag F.BELAY_LOG_CTRL_EN = false → s.flag F.SCREE_CTRL_FULL_REACT = false → (∀ e ∈ s.belay.cls, e.2 ≤ 4) →
      s.monitorOn target.val = true → s.railOff target.val = false →
    ∃ t, exec (.monGo q target one) s = .next t ∧ s.ShotActed t 0xCC ∧ s.Signalled t { monitorFault target.val (! one) with injected := true } ∧
      t.raw R.BELAY_MON = s.raw R.BELAY_MON ∧ t.belay.resetDue = s.belay.resetDue ∧
      KeepsPages s t [P.SCREE, P.BELAY, P.TETHER] ∧ t = { s with regs := t.regs, belay := t.belay, tether := t.tether, resp := ⟨false, 0#64⟩ }) ∧
--w belayQuiet (screeS.setFld F.BELAY_MON_VMON_EN 1); ⟨0, true⟩; 7; true
--w belayQuiet (screeS.setFld F.CLK_MON_CFG_PLL 1); ⟨0, true⟩; 14; false
  (∀ (s : State) (q : Req) (mode : Fin 4) (ms : Nat), OpenTo s q P.SCREE → s.screeActs = true → mode.val = 1 ∨ mode.val = 2 → s.fld F.TRNG_STAT_STATE = 2 →
      s.sec.failures = [] → s.sec.waiting = [] →
    ∃ t, exec (.entropyGo q mode ms) s = .next t ∧ s.ShotActed t 0xA8 ∧ t.fld F.TRNG_STAT_STATE = 3 ∧ t.fld F.TRNG_FAIL_LAST_TEST = mode.val ∧
      t.fld F.TRNG_FAIL_COUNT = min (2 ^ F.TRNG_FAIL_COUNT.width - 1) (s.fld F.TRNG_FAIL_COUNT + 1) ∧ t.event P.TRNG E.TRNG_HEALTH_FAIL = true ∧
      t.sec = { s.sec with queue := [], quarters := 0, failures := [0] } ∧
      KeepsPages s t [P.SCREE, P.TRNG] ∧ t = { s with regs := t.regs, sec := t.sec, resp := ⟨false, 0#64⟩ }) ∧
--w screeS.setFld F.TRNG_STAT_STATE 2; ⟨0, true⟩; 2; 7
  (∀ (s : State) (q : Req) (unit : Fin 4), OpenTo s q P.SCREE → s.screeActs = false →
    ∃ t, exec (.dupGo q unit) s = .next t ∧ KeepsRegs s t (R.SCREE_DUP :: logRegs P.SCREE) ∧ t = { s with regs := t.regs, resp := ⟨false, 0#64⟩ }) ∧
--w State.reset; ⟨0, true⟩; 1
  (∀ (s : State) (q : Req) (page : BitVec 7), OpenTo s q P.SCREE → s.screeActs = false →
    ∃ t, exec (.crcGo q page) s = .next t ∧ KeepsRegs s t (R.SCREE_CRC :: logRegs P.SCREE) ∧ t = { s with regs := t.regs, resp := ⟨false, 0#64⟩ }) ∧
--w State.reset; ⟨0, true⟩; 9
  (∀ (s : State) (q : Req) (target : Fin 16) (one : Bool), OpenTo s q P.SCREE → s.screeActs = false →
    ∃ t, exec (.monGo q target one) s = .next t ∧ KeepsRegs s t (R.SCREE_MON :: logRegs P.SCREE) ∧ t = { s with regs := t.regs, resp := ⟨false, 0#64⟩ }) ∧
--w State.reset; ⟨0, true⟩; 3; true
  (∀ (s : State) (q : Req) (mode : Fin 4) (ms : Nat), OpenTo s q P.SCREE → s.screeActs = false →
    ∃ t, exec (.entropyGo q mode ms) s = .next t ∧ KeepsRegs s t (R.SCREE_ENTROPY :: logRegs P.SCREE) ∧ t = { s with regs := t.regs, resp := ⟨false, 0#64⟩ }) ∧
--w State.reset; ⟨0, true⟩; 1; 5
  (∀ (s : State), s.screeActs = false →
    ∃ t, exec .screeEnd s = .next t ∧
      t = { s with belay := { s.belay with lockstepShots := 0, flitShots := [], moveShots := [], dropCount := 0, pickCount := 0 } })
--w { State.reset with belay := { BelayState.reset with lockstepShots := 3, flitShots := [(1, 2, false)] } }

/-- R109. -/
def Obligations.SnapshotCommitBeyondTheEndIsRefused : Prop :=
  (∀ (s : State) (q : Req) (pages : BitVec 8), OpenTo s q P.PWR → 2048 < s.fld F.PWR_SNAP_BASE_BASE + min 64 (max 1 pages.toNat) →
    ∃ t, exec (.snapCommit q pages) s = .next t ∧ s.Refused t q R.PWR_SNAP_CTRL 1 (s.fld F.PWR_SNAP_BASE_BASE + min 64 (max 1 pages.toNat)) ∧
      t.raw R.PWR_SNAP_CTRL = s.raw R.PWR_SNAP_CTRL ∧ (s.flag F.PWR_SNAP_CTRL_COMPLETE = false → t.flag F.PWR_SNAP_CTRL_COMPLETE = false) ∧
      KeepsRegs s t (logRegs P.PWR) ∧ t = { s with regs := t.regs, resp := ⟨false, 0#64⟩ })
--w State.reset.setFld F.PWR_SNAP_BASE_BASE 2047; ⟨5, true⟩; 2
--w (State.reset.setFld F.PWR_SNAP_BASE_BASE 1985).setFld F.PWR_SNAP_CTRL_COMPLETE 1; ⟨5, true⟩; 255

/-- R316. -/
def Obligations.LoomGoDuringACommitIsRefused : Prop :=
  (∀ (s : State) (q : Req), OpenTo s q P.LOOM_CFG → s.fld F.LOOM_COMMIT_STAT_STATE = 1 ∨ s.fld F.LOOM_COMMIT_STAT_STATE = 2 ∨ s.fld F.LOOM_COMMIT_STAT_STATE = 3 →
    ∃ t, exec (.commit q) s = .next t ∧ s.Refused t q R.LOOM_COMMIT 9 (s.fld F.LOOM_COMMIT_STAT_STATE) ∧ t.loom = s.loom ∧
      t.fld F.LOOM_COMMIT_STAT_STATE = s.fld F.LOOM_COMMIT_STAT_STATE ∧ t.fld F.LOOM_COMMIT_STAT_LAST_REASON = 9 ∧
      KeepsRegs s t (R.LOOM_COMMIT_STAT :: logRegs P.LOOM_CFG) ∧ t = { s with regs := t.regs, resp := ⟨false, 0#64⟩ })
--w State.reset.setFld F.LOOM_COMMIT_STAT_STATE 3; ⟨5, true⟩
--w State.reset.setFld F.LOOM_COMMIT_STAT_STATE 1; ⟨0, true⟩

/-- R413. -/
def Obligations.InvalidationWhileBusyIsRefused : Prop :=
  (∀ (s : State) (q : Req) (ch : BitVec 12) (all : Bool), OpenTo s q P.HEDDLE → s.flag F.HEDDLE_CHC_INV_BUSY = true →
    ∃ t, exec (.chcInv q ch all) s = .next t ∧ s.Refused t q R.HEDDLE_CHC_INV 1 (s.readReg R.HEDDLE_CHC_INV).toNat ∧
      KeepsRegs s t (logRegs P.HEDDLE) ∧ t = { s with regs := t.regs, resp := ⟨false, 0#64⟩ }) ∧
--w State.reset.setFld F.HEDDLE_CHC_INV_BUSY 1; ⟨5, true⟩; 0xFFF; true
  (∀ (s : State) (q : Req) (inst : Fin 32) (page : Bool) (gpa : BitVec 38), OpenTo s q P.HEDDLE → s.flag F.HEDDLE_IOTLB_INV_BUSY = true →
    ∃ t, exec (.iotlbInv q inst page gpa) s = .next t ∧ s.Refused t q R.HEDDLE_IOTLB_INV 1 (s.readReg R.HEDDLE_IOTLB_INV).toNat ∧
      KeepsRegs s t (logRegs P.HEDDLE) ∧ t = { s with regs := t.regs, resp := ⟨false, 0#64⟩ }) ∧
--w State.reset.setFld F.HEDDLE_IOTLB_INV_BUSY 1; ⟨5, true⟩; 31; true; 0x3FFFFFFFFF
  (∀ (s : State) (q : Req) (v : Word), OpenTo s q P.HEDDLE → s.flag F.HEDDLE_CHC_INV_BUSY = true →
    ∃ t, exec (.registerWrite q (BitVec.ofNat 40 R.HEDDLE_CHC_INV) .w (v.zeroExtend 64)) s = .next t ∧
      s.Refused t q R.HEDDLE_CHC_INV 1 (s.readReg R.HEDDLE_CHC_INV).toNat ∧ KeepsRegs s t (logRegs P.HEDDLE) ∧ t = { s with regs := t.regs, resp := ⟨false, 0#64⟩ }) ∧
--w State.reset.setFld F.HEDDLE_CHC_INV_BUSY 1; ⟨5, true⟩; 0
  (∀ (s : State) (q : Req) (v : DWord), OpenTo s q P.HEDDLE → s.flag F.HEDDLE_IOTLB_INV_BUSY = true →
    ∃ t, exec (.registerWrite q (BitVec.ofNat 40 R.HEDDLE_IOTLB_INV) .d v) s = .next t ∧
      s.Refused t q R.HEDDLE_IOTLB_INV 1 (s.readReg R.HEDDLE_IOTLB_INV).toNat ∧ KeepsRegs s t (logRegs P.HEDDLE) ∧ t = { s with regs := t.regs, resp := ⟨false, 0#64⟩ })
--w State.reset.setFld F.HEDDLE_IOTLB_INV_BUSY 1; ⟨5, true⟩; 0xFFFFFFFFFFFFFFFF

/-- R577. -/
def Obligations.WatchdogPageStaysEnabled : Prop :=
  (∀ (s : State) (q : Req) (n : Fin 4), OpenTo s q P.WDOG → s.raw (R.PAGE_CTRL P.WDOG) = 1#64 → s.flag (F.WDOG_CTRL_EN n.val) = true →
    ∃ t, exec (.pageEnable q ⟨7, by decide⟩ false) s = .next t ∧ t.flag (F.PAGE_CTRL_ENABLE P.WDOG) = true ∧ t.event P.WDOG 31 = true ∧
      t.fld (F.CLAMP_COUNT_COUNT P.WDOG) = min 65535 (s.fld (F.CLAMP_COUNT_COUNT P.WDOG) + 1) ∧
      KeepsRegs s t (logRegs P.WDOG) ∧ t = { s with regs := t.regs, resp := ⟨false, 0#64⟩ }) ∧
--w (on State.reset P.WDOG).setFld (F.WDOG_CTRL_EN 3) 1; ⟨0, true⟩; 3
  (∀ (s : State) (q : Req) (n : Fin 4) (v : Word), OpenTo s q P.WDOG → s.flag (F.PAGE_CTRL_ENABLE P.WDOG) = true → s.flag (F.WDOG_CTRL_EN n.val) = true →
      v.getLsbD 0 = false →
    ∃ t, exec (.registerWrite q (BitVec.ofNat 40 (R.PAGE_CTRL P.WDOG)) .w (v.zeroExtend 64)) s = .next t ∧
      t.flag (F.PAGE_CTRL_ENABLE P.WDOG) = true ∧ t.event P.WDOG 31 = true ∧
      (s.fld (F.CLAMP_COUNT_COUNT P.WDOG) < t.fld (F.CLAMP_COUNT_COUNT P.WDOG) ∨ t.fld (F.CLAMP_COUNT_COUNT P.WDOG) = 65535))
--w (on State.reset P.WDOG).setFld (F.WDOG_CTRL_EN 0) 1; ⟨0, true⟩; 0; 0xFFFFFFFE

/-- R585. -/
def Obligations.LogEntryAfterMramClosesIsLost : Prop :=
  (∀ (s : State) (src : Fin 26) (soft : Bool) (unit : Byte) (addr : BitVec 40) (detail : BitVec 32), src.val ≠ 0 → s.railsOn = true →
      s.belay.test = none → s.flag F.BELAY_LOG_CTRL_EN = true → s.power.mramClosed = true →
    ∃ t, exec (.faultSignal src soft unit addr detail) s = .next t ∧ t.mem = s.mem ∧ t.memory = s.memory ∧
      t.fld F.BELAY_LOG_POS_LOST = min 32767 (s.fld F.BELAY_LOG_POS_LOST + 1) ∧ t.event P.BELAY E.BELAY_LOG_LOST = true ∧
      (∀ n : Fin 8, t.raw (R.BELAY_LAST n.val) = BitVec.ofNat 64 (leNat (slice (4 * n.val) 4
        (t.logBytes ⟨src.val, if src.val = 7 ∧ soft = true then 2 else sourceClass src.val, unit.toNat, addr.toNat, detail.toNat, s.perturbed⟩
          t.belay.seq true)))) ∧ t.belay.seq = s.belay.seq + 1)
--w { (belayQuiet State.reset).setFld F.BELAY_LOG_CTRL_EN 1 with power := { PowerState.reset with mramClosed := true } }; 5; false; 2; 0x1234; 0x99
--w { ((belayQuiet State.reset).setFld F.BELAY_LOG_CTRL_EN 1).setFld F.BELAY_LOG_POS_LOST 32767 with power := { PowerState.reset with mramClosed := true } }; 1; false; 0; 0; 0
end

