-- ==== Sys2Proof/Laws/Bits.lean ====
section
/-! SUPPORT. Laws of bit fields: what a field reads after it, or another field of the same register, has been replaced. -/
namespace Sys2Proof.Machine

theorem Bits.get_lt (w : DWord) (lo width : Nat) : Bits.get w lo width < 2 ^ width :=
  Nat.mod_lt _ (Nat.two_pow_pos width)

theorem Bits.testBit_get (w : DWord) (lo width i : Nat) :
    (Bits.get w lo width).testBit i = (decide (i < width) && w.getLsbD (lo + i)) := by
  simp [Bits.get, Nat.testBit_mod_two_pow, Nat.testBit_shiftRight, BitVec.getLsbD]

theorem Bits.getLsbD_put (w : DWord) (lo width v i : Nat) (hi : i < 64) :
    (Bits.put w lo width v).getLsbD i =
      if lo ≤ i ∧ i < lo + width then v.testBit (i - lo) else w.getLsbD i := by
  simp only [Bits.put, BitVec.getLsbD_or, BitVec.getLsbD_and, BitVec.getLsbD_not, BitVec.getLsbD_ofNat, hi,
    decide_true, Bool.true_and, Nat.testBit_mul_two_pow, Nat.testBit_two_pow_sub_one, Nat.testBit_mod_two_pow]
  by_cases h1 : lo ≤ i
  · by_cases h2 : i < lo + width
    · have : i - lo < width := by omega
      simp [h1, h2, this]
    · have : ¬ i - lo < width := by omega
      simp [h1, h2, this]
  · have : ¬ (lo ≤ i ∧ i < lo + width) := by omega
    simp [h1]

/-- A field just written holds the value, cut to its width. -/
theorem Bits.get_put (w : DWord) (lo width v : Nat) (h : lo + width ≤ 64) :
    Bits.get (Bits.put w lo width v) lo width = v % 2 ^ width := by
  apply Nat.eq_of_testBit_eq
  intro i
  rw [Bits.testBit_get, Nat.testBit_mod_two_pow]
  by_cases hi : i < width
  · rw [Bits.getLsbD_put _ _ _ _ _ (by omega)]
    simp [hi]
  · simp [hi]

/-- A field beside the one written keeps its value. -/
theorem Bits.get_put_ne (w : DWord) (lo width v lo2 width2 : Nat) (h : lo2 + width2 ≤ lo ∨ lo + width ≤ lo2)
    : Bits.get (Bits.put w lo width v) lo2 width2 = Bits.get w lo2 width2 := by
  apply Nat.eq_of_testBit_eq
  intro i
  rw [Bits.testBit_get, Bits.testBit_get]
  by_cases hi : i < width2
  · by_cases h64 : lo2 + i < 64
    · rw [Bits.getLsbD_put _ _ _ _ _ h64]
      have : ¬ (lo ≤ lo2 + i ∧ lo2 + i < lo + width) := by omega
      simp [this]
    · have h1 := BitVec.getLsbD_of_ge (Bits.put w lo width v) (lo2 + i) (by omega)
      have h2 := BitVec.getLsbD_of_ge w (lo2 + i) (by omega)
      rw [h1, h2]
  · simp [hi]

/-- Replacing a field by what it holds changes nothing. -/
theorem Bits.put_get (w : DWord) (lo width : Nat) : Bits.put w lo width (Bits.get w lo width) = w := by
  apply BitVec.eq_of_getLsbD_eq
  intro i hi
  rw [Bits.getLsbD_put _ _ _ _ _ hi, Bits.testBit_get]
  split
  · rename_i h
    have h1 : i - lo < width := by omega
    have h2 : lo + (i - lo) = i := by omega
    simp [h1, h2]
  · rfl

@[simp] theorem b2n_true : b2n true = 1 := rfl
@[simp] theorem b2n_false : b2n false = 0 := rfl

theorem b2n_lt (b : Bool) : b2n b < 2 := by cases b <;> decide

theorem satAdd_le (lim a b : Nat) : satAdd lim a b ≤ lim := by unfold satAdd; split <;> omega

theorem le_satAdd (lim a b : Nat) (h : a ≤ lim) : a ≤ satAdd lim a b := by unfold satAdd; split <;> omega

end Sys2Proof.Machine
end

