-- ==== Sys2Proof/Laws/SMap.lean ====
section
/-! SUPPORT. Laws of the sparse maps: a read after a write, and the canonical form kept by every operation. -/
namespace Sys2Proof.Machine

theorem SMap.get_erase {α : Type} (d : Nat → α) (m : List (Nat × α)) (k j : Nat) :
    SMap.get d (SMap.erase m k) j = if j = k then d k else SMap.get d m j := by
  induction m with
  | nil => simp [SMap.erase, SMap.get]; intro h; rw [h]
  | cons e m ih =>
    obtain ⟨a, v⟩ := e
    by_cases h : a = k
    · have : SMap.erase ((a, v) :: m) k = SMap.erase m k := by simp [SMap.erase, h]
      rw [this, ih]
      by_cases hj : j = k
      · simp [hj]
      · simp [hj, SMap.get, show a ≠ j by omega]
    · have : SMap.erase ((a, v) :: m) k = (a, v) :: SMap.erase m k := by simp [SMap.erase, h]
      rw [this]
      simp only [SMap.get, ih]
      by_cases hj : j = k
      · simp [hj, h]
      · simp [hj]

theorem SMap.get_insert {α : Type} (d : Nat → α) (m : List (Nat × α)) (k j : Nat) (v : α) (h : ∀ e ∈ m, e.1 ≠ k) :
    SMap.get d (SMap.insert m k v) j = if j = k then v else SMap.get d m j := by
  induction m with
  | nil => simp [SMap.insert, SMap.get, eq_comm]
  | cons e m ih =>
    obtain ⟨a, w⟩ := e
    have ha : a ≠ k := h (a, w) (by simp)
    have ih' := ih (fun e he => h e (by simp [he]))
    by_cases hk : k < a
    · simp [SMap.insert, hk, SMap.get, eq_comm]
    · simp only [SMap.insert, hk, if_false, SMap.get, ih']
      by_cases hj : j = k
      · simp [hj, ha]
      · simp [hj]

theorem SMap.erase_ne {α : Type} (m : List (Nat × α)) (k : Nat) : ∀ e ∈ SMap.erase m k, e.1 ≠ k := by
  intro e he
  simpa using (List.mem_filter.1 he).2

/-- A read after a write: the value written at its key, every other key as before. -/
theorem SMap.get_put {α : Type} [DecidableEq α] (d : Nat → α) (m : List (Nat × α)) (k j : Nat) (v : α) :
    SMap.get d (SMap.put d m k v) j = if j = k then v else SMap.get d m j := by
  unfold SMap.put
  split
  · rename_i h
    rw [SMap.get_erase, ← h]
  · rw [SMap.get_insert d _ k j v (SMap.erase_ne m k), SMap.get_erase]
    by_cases hj : j = k <;> simp [hj]

/-- Keys below a bound that rises. -/
theorem SMap.sortedFrom_mono {α : Type} (m : List (Nat × α)) (lo hi : Nat) (h : hi ≤ lo)
    (hs : SMap.sortedFrom lo m = true) : SMap.sortedFrom hi m = true := by
  cases m with
  | nil => rfl
  | cons e m =>
    simp only [SMap.sortedFrom, Bool.and_eq_true, decide_eq_true_eq] at hs ⊢
    exact ⟨by omega, hs.2⟩

theorem SMap.sortedFrom_filter {α : Type} (p : Nat × α → Bool) (m : List (Nat × α)) (lo : Nat)
    (hs : SMap.sortedFrom lo m = true) : SMap.sortedFrom lo (m.filter p) = true := by
  induction m generalizing lo with
  | nil => rfl
  | cons e m ih =>
    simp only [SMap.sortedFrom, Bool.and_eq_true, decide_eq_true_eq] at hs
    rw [List.filter_cons]
    split
    · simp only [SMap.sortedFrom, Bool.and_eq_true, decide_eq_true_eq]
      exact ⟨hs.1, ih _ hs.2⟩
    · exact ih lo (SMap.sortedFrom_mono m _ _ (by omega) hs.2)

theorem SMap.sortedFrom_insert {α : Type} (m : List (Nat × α)) (lo k : Nat) (v : α) (hl : lo ≤ k)
    (hk : ∀ e ∈ m, e.1 ≠ k) (hs : SMap.sortedFrom lo m = true) : SMap.sortedFrom lo (SMap.insert m k v) = true := by
  induction m generalizing lo with
  | nil => simp [SMap.insert, SMap.sortedFrom, hl]
  | cons e m ih =>
    obtain ⟨a, w⟩ := e
    have ha : a ≠ k := hk (a, w) (by simp)
    simp only [SMap.sortedFrom, Bool.and_eq_true, decide_eq_true_eq] at hs
    unfold SMap.insert
    split
    · simp only [SMap.sortedFrom, Bool.and_eq_true, decide_eq_true_eq]
      exact ⟨hl, by omega, hs.2⟩
    · simp only [SMap.sortedFrom, Bool.and_eq_true, decide_eq_true_eq]
      exact ⟨hs.1, ih _ (by omega) (fun e he => hk e (by simp [he])) hs.2⟩

theorem SMap.mem_insert {α : Type} (m : List (Nat × α)) (k : Nat) (v : α) (e : Nat × α) (h : e ∈ SMap.insert m k v) :
    e = (k, v) ∨ e ∈ m := by
  induction m with
  | nil => simpa [SMap.insert] using h
  | cons x m ih =>
    obtain ⟨a, w⟩ := x
    unfold SMap.insert at h
    split at h
    · simpa using h
    · rcases List.mem_cons.1 h with h | h
      · exact .inr (by simp [h])
      · rcases ih h with h | h
        · exact .inl h
        · exact .inr (by simp [h])

theorem SMap.wf_filter {α : Type} [DecidableEq α] (d : Nat → α) (p : Nat × α → Bool) (m : List (Nat × α))
    (h : SMap.wf d m = true) : SMap.wf d (m.filter p) = true := by
  simp only [SMap.wf, Bool.and_eq_true, List.all_eq_true, decide_eq_true_eq] at h ⊢
  exact ⟨SMap.sortedFrom_filter p m 0 h.1, fun e he => h.2 e (List.mem_filter.1 he).1⟩

/-- A write keeps the canonical form. -/
theorem SMap.wf_put {α : Type} [DecidableEq α] (d : Nat → α) (m : List (Nat × α)) (k : Nat) (v : α)
    (h : SMap.wf d m = true) : SMap.wf d (SMap.put d m k v) = true := by
  have he := SMap.wf_filter d (fun e => e.1 != k) m h
  unfold SMap.put
  split
  · exact he
  · rename_i hv
    simp only [SMap.wf, Bool.and_eq_true, List.all_eq_true, decide_eq_true_eq] at he ⊢
    refine ⟨SMap.sortedFrom_insert _ 0 k v (Nat.zero_le k) (SMap.erase_ne m k) he.1, fun e hm => ?_⟩
    rcases SMap.mem_insert _ k v e hm with h1 | h1
    · rw [h1]; exact hv
    · exact he.2 e h1

theorem SMap.wf_foldl {α β : Type} [DecidableEq α] (d : Nat → α) (k : β → Nat) (g : β → α) (l : List β)
    (acc : List (Nat × α)) (h : SMap.wf d acc = true) :
    SMap.wf d (l.foldl (fun acc e => SMap.put d acc (k e) (g e)) acc) = true := by
  induction l generalizing acc with
  | nil => exact h
  | cons e l ih => exact ih _ (SMap.wf_put d acc _ _ h)

theorem SMap.wf_mapEntries {α : Type} [DecidableEq α] (d : Nat → α) (g : Nat → α → α) (m : List (Nat × α)) :
    SMap.wf d (SMap.mapEntries d g m) = true := by
  unfold SMap.mapEntries
  exact SMap.wf_foldl d (fun e : Nat × α => e.1) (fun e : Nat × α => g e.1 e.2) m [] rfl

end Sys2Proof.Machine
end

