-- ==== Sys2Proof/Laws/State.lean ====
section
/-! SUPPORT. Laws of the state: what every basic update leaves in every field of State, and what a register or a field of a
register reads after a register has been written. -/
namespace Sys2Proof.Machine

variable (s : State)

@[simp] theorem State.setReg_mem (a : Nat) (v : DWord) : (s.setReg a v).mem = s.mem := rfl
@[simp] theorem State.setReg_fresh (a : Nat) (v : DWord) : (s.setReg a v).fresh = s.fresh := rfl
@[simp] theorem State.setReg_resp (a : Nat) (v : DWord) : (s.setReg a v).resp = s.resp := rfl
@[simp] theorem State.setReg_held (a : Nat) (v : DWord) : (s.setReg a v).held = s.held := rfl
@[simp] theorem State.setReg_code4G (a : Nat) (v : DWord) : (s.setReg a v).code4G = s.code4G := rfl
@[simp] theorem State.setReg_power (a : Nat) (v : DWord) : (s.setReg a v).power = s.power := rfl
@[simp] theorem State.setReg_boot (a : Nat) (v : DWord) : (s.setReg a v).boot = s.boot := rfl
@[simp] theorem State.setReg_reed (a : Nat) (v : DWord) : (s.setReg a v).reed = s.reed := rfl
@[simp] theorem State.setReg_harts (a : Nat) (v : DWord) : (s.setReg a v).harts = s.harts := rfl
@[simp] theorem State.setReg_memory (a : Nat) (v : DWord) : (s.setReg a v).memory = s.memory := rfl
@[simp] theorem State.setReg_loom (a : Nat) (v : DWord) : (s.setReg a v).loom = s.loom := rfl
@[simp] theorem State.setReg_cairn (a : Nat) (v : DWord) : (s.setReg a v).cairn = s.cairn := rfl
@[simp] theorem State.setReg_shuttle (a : Nat) (v : DWord) : (s.setReg a v).shuttle = s.shuttle := rfl
@[simp] theorem State.setReg_timer (a : Nat) (v : DWord) : (s.setReg a v).timer = s.timer := rfl
@[simp] theorem State.setReg_belay (a : Nat) (v : DWord) : (s.setReg a v).belay = s.belay := rfl
@[simp] theorem State.setReg_tether (a : Nat) (v : DWord) : (s.setReg a v).tether = s.tether := rfl
@[simp] theorem State.setReg_sec (a : Nat) (v : DWord) : (s.setReg a v).sec = s.sec := rfl
@[simp] theorem State.setReg_heddle (a : Nat) (v : DWord) : (s.setReg a v).heddle = s.heddle := rfl
@[simp] theorem State.setReg_bobbin (a : Nat) (v : DWord) : (s.setReg a v).bobbin = s.bobbin := rfl
@[simp] theorem State.setReg_usb (a : Nat) (v : DWord) : (s.setReg a v).usb = s.usb := rfl
@[simp] theorem State.setReg_field (a : Nat) (v : DWord) : (s.setReg a v).field = s.field := rfl
@[simp] theorem State.setReg_dm (a : Nat) (v : DWord) : (s.setReg a v).dm = s.dm := rfl
@[simp] theorem State.setReg_pending (a : Nat) (v : DWord) : (s.setReg a v).pending = s.pending := rfl

@[simp] theorem State.setFld_mem (f : Fld) (v : Nat) : (s.setFld f v).mem = s.mem := rfl
@[simp] theorem State.setFld_fresh (f : Fld) (v : Nat) : (s.setFld f v).fresh = s.fresh := rfl
@[simp] theorem State.setFld_resp (f : Fld) (v : Nat) : (s.setFld f v).resp = s.resp := rfl
@[simp] theorem State.setFld_held (f : Fld) (v : Nat) : (s.setFld f v).held = s.held := rfl
@[simp] theorem State.setFld_code4G (f : Fld) (v : Nat) : (s.setFld f v).code4G = s.code4G := rfl
@[simp] theorem State.setFld_power (f : Fld) (v : Nat) : (s.setFld f v).power = s.power := rfl
@[simp] theorem State.setFld_boot (f : Fld) (v : Nat) : (s.setFld f v).boot = s.boot := rfl
@[simp] theorem State.setFld_reed (f : Fld) (v : Nat) : (s.setFld f v).reed = s.reed := rfl
@[simp] theorem State.setFld_harts (f : Fld) (v : Nat) : (s.setFld f v).harts = s.harts := rfl
@[simp] theorem State.setFld_memory (f : Fld) (v : Nat) : (s.setFld f v).memory = s.memory := rfl
@[simp] theorem State.setFld_loom (f : Fld) (v : Nat) : (s.setFld f v).loom = s.loom := rfl
@[simp] theorem State.setFld_cairn (f : Fld) (v : Nat) : (s.setFld f v).cairn = s.cairn := rfl
@[simp] theorem State.setFld_shuttle (f : Fld) (v : Nat) : (s.setFld f v).shuttle = s.shuttle := rfl
@[simp] theorem State.setFld_timer (f : Fld) (v : Nat) : (s.setFld f v).timer = s.timer := rfl
@[simp] theorem State.setFld_belay (f : Fld) (v : Nat) : (s.setFld f v).belay = s.belay := rfl
@[simp] theorem State.setFld_tether (f : Fld) (v : Nat) : (s.setFld f v).tether = s.tether := rfl
@[simp] theorem State.setFld_sec (f : Fld) (v : Nat) : (s.setFld f v).sec = s.sec := rfl
@[simp] theorem State.setFld_heddle (f : Fld) (v : Nat) : (s.setFld f v).heddle = s.heddle := rfl
@[simp] theorem State.setFld_bobbin (f : Fld) (v : Nat) : (s.setFld f v).bobbin = s.bobbin := rfl
@[simp] theorem State.setFld_usb (f : Fld) (v : Nat) : (s.setFld f v).usb = s.usb := rfl
@[simp] theorem State.setFld_field (f : Fld) (v : Nat) : (s.setFld f v).field = s.field := rfl
@[simp] theorem State.setFld_dm (f : Fld) (v : Nat) : (s.setFld f v).dm = s.dm := rfl
@[simp] theorem State.setFld_pending (f : Fld) (v : Nat) : (s.setFld f v).pending = s.pending := rfl

@[simp] theorem State.setFlag_mem (f : Fld) (b : Bool) : (s.setFlag f b).mem = s.mem := rfl
@[simp] theorem State.setFlag_fresh (f : Fld) (b : Bool) : (s.setFlag f b).fresh = s.fresh := rfl
@[simp] theorem State.setFlag_resp (f : Fld) (b : Bool) : (s.setFlag f b).resp = s.resp := rfl
@[simp] theorem State.setFlag_held (f : Fld) (b : Bool) : (s.setFlag f b).held = s.held := rfl
@[simp] theorem State.setFlag_code4G (f : Fld) (b : Bool) : (s.setFlag f b).code4G = s.code4G := rfl
@[simp] theorem State.setFlag_power (f : Fld) (b : Bool) : (s.setFlag f b).power = s.power := rfl
@[simp] theorem State.setFlag_boot (f : Fld) (b : Bool) : (s.setFlag f b).boot = s.boot := rfl
@[simp] theorem State.setFlag_reed (f : Fld) (b : Bool) : (s.setFlag f b).reed = s.reed := rfl
@[simp] theorem State.setFlag_harts (f : Fld) (b : Bool) : (s.setFlag f b).harts = s.harts := rfl
@[simp] theorem State.setFlag_memory (f : Fld) (b : Bool) : (s.setFlag f b).memory = s.memory := rfl
@[simp] theorem State.setFlag_loom (f : Fld) (b : Bool) : (s.setFlag f b).loom = s.loom := rfl
@[simp] theorem State.setFlag_cairn (f : Fld) (b : Bool) : (s.setFlag f b).cairn = s.cairn := rfl
@[simp] theorem State.setFlag_shuttle (f : Fld) (b : Bool) : (s.setFlag f b).shuttle = s.shuttle := rfl
@[simp] theorem State.setFlag_timer (f : Fld) (b : Bool) : (s.setFlag f b).timer = s.timer := rfl
@[simp] theorem State.setFlag_belay (f : Fld) (b : Bool) : (s.setFlag f b).belay = s.belay := rfl
@[simp] theorem State.setFlag_tether (f : Fld) (b : Bool) : (s.setFlag f b).tether = s.tether := rfl
@[simp] theorem State.setFlag_sec (f : Fld) (b : Bool) : (s.setFlag f b).sec = s.sec := rfl
@[simp] theorem State.setFlag_heddle (f : Fld) (b : Bool) : (s.setFlag f b).heddle = s.heddle := rfl
@[simp] theorem State.setFlag_bobbin (f : Fld) (b : Bool) : (s.setFlag f b).bobbin = s.bobbin := rfl
@[simp] theorem State.setFlag_usb (f : Fld) (b : Bool) : (s.setFlag f b).usb = s.usb := rfl
@[simp] theorem State.setFlag_field (f : Fld) (b : Bool) : (s.setFlag f b).field = s.field := rfl
@[simp] theorem State.setFlag_dm (f : Fld) (b : Bool) : (s.setFlag f b).dm = s.dm := rfl
@[simp] theorem State.setFlag_pending (f : Fld) (b : Bool) : (s.setFlag f b).pending = s.pending := rfl

@[simp] theorem State.bumpBy_mem (f : Fld) (n : Nat) : (s.bumpBy f n).mem = s.mem := rfl
@[simp] theorem State.bumpBy_fresh (f : Fld) (n : Nat) : (s.bumpBy f n).fresh = s.fresh := rfl
@[simp] theorem State.bumpBy_resp (f : Fld) (n : Nat) : (s.bumpBy f n).resp = s.resp := rfl
@[simp] theorem State.bumpBy_held (f : Fld) (n : Nat) : (s.bumpBy f n).held = s.held := rfl
@[simp] theorem State.bumpBy_code4G (f : Fld) (n : Nat) : (s.bumpBy f n).code4G = s.code4G := rfl
@[simp] theorem State.bumpBy_power (f : Fld) (n : Nat) : (s.bumpBy f n).power = s.power := rfl
@[simp] theorem State.bumpBy_boot (f : Fld) (n : Nat) : (s.bumpBy f n).boot = s.boot := rfl
@[simp] theorem State.bumpBy_reed (f : Fld) (n : Nat) : (s.bumpBy f n).reed = s.reed := rfl
@[simp] theorem State.bumpBy_harts (f : Fld) (n : Nat) : (s.bumpBy f n).harts = s.harts := rfl
@[simp] theorem State.bumpBy_memory (f : Fld) (n : Nat) : (s.bumpBy f n).memory = s.memory := rfl
@[simp] theorem State.bumpBy_loom (f : Fld) (n : Nat) : (s.bumpBy f n).loom = s.loom := rfl
@[simp] theorem State.bumpBy_cairn (f : Fld) (n : Nat) : (s.bumpBy f n).cairn = s.cairn := rfl
@[simp] theorem State.bumpBy_shuttle (f : Fld) (n : Nat) : (s.bumpBy f n).shuttle = s.shuttle := rfl
@[simp] theorem State.bumpBy_timer (f : Fld) (n : Nat) : (s.bumpBy f n).timer = s.timer := rfl
@[simp] theorem State.bumpBy_belay (f : Fld) (n : Nat) : (s.bumpBy f n).belay = s.belay := rfl
@[simp] theorem State.bumpBy_tether (f : Fld) (n : Nat) : (s.bumpBy f n).tether = s.tether := rfl
@[simp] theorem State.bumpBy_sec (f : Fld) (n : Nat) : (s.bumpBy f n).sec = s.sec := rfl
@[simp] theorem State.bumpBy_heddle (f : Fld) (n : Nat) : (s.bumpBy f n).heddle = s.heddle := rfl
@[simp] theorem State.bumpBy_bobbin (f : Fld) (n : Nat) : (s.bumpBy f n).bobbin = s.bobbin := rfl
@[simp] theorem State.bumpBy_usb (f : Fld) (n : Nat) : (s.bumpBy f n).usb = s.usb := rfl
@[simp] theorem State.bumpBy_field (f : Fld) (n : Nat) : (s.bumpBy f n).field = s.field := rfl
@[simp] theorem State.bumpBy_dm (f : Fld) (n : Nat) : (s.bumpBy f n).dm = s.dm := rfl
@[simp] theorem State.bumpBy_pending (f : Fld) (n : Nat) : (s.bumpBy f n).pending = s.pending := rfl

@[simp] theorem State.bump_mem (f : Fld) : (s.bump f).mem = s.mem := rfl
@[simp] theorem State.bump_fresh (f : Fld) : (s.bump f).fresh = s.fresh := rfl
@[simp] theorem State.bump_resp (f : Fld) : (s.bump f).resp = s.resp := rfl
@[simp] theorem State.bump_held (f : Fld) : (s.bump f).held = s.held := rfl
@[simp] theorem State.bump_code4G (f : Fld) : (s.bump f).code4G = s.code4G := rfl
@[simp] theorem State.bump_power (f : Fld) : (s.bump f).power = s.power := rfl
@[simp] theorem State.bump_boot (f : Fld) : (s.bump f).boot = s.boot := rfl
@[simp] theorem State.bump_reed (f : Fld) : (s.bump f).reed = s.reed := rfl
@[simp] theorem State.bump_harts (f : Fld) : (s.bump f).harts = s.harts := rfl
@[simp] theorem State.bump_memory (f : Fld) : (s.bump f).memory = s.memory := rfl
@[simp] theorem State.bump_loom (f : Fld) : (s.bump f).loom = s.loom := rfl
@[simp] theorem State.bump_cairn (f : Fld) : (s.bump f).cairn = s.cairn := rfl
@[simp] theorem State.bump_shuttle (f : Fld) : (s.bump f).shuttle = s.shuttle := rfl
@[simp] theorem State.bump_timer (f : Fld) : (s.bump f).timer = s.timer := rfl
@[simp] theorem State.bump_belay (f : Fld) : (s.bump f).belay = s.belay := rfl
@[simp] theorem State.bump_tether (f : Fld) : (s.bump f).tether = s.tether := rfl
@[simp] theorem State.bump_sec (f : Fld) : (s.bump f).sec = s.sec := rfl
@[simp] theorem State.bump_heddle (f : Fld) : (s.bump f).heddle = s.heddle := rfl
@[simp] theorem State.bump_bobbin (f : Fld) : (s.bump f).bobbin = s.bobbin := rfl
@[simp] theorem State.bump_usb (f : Fld) : (s.bump f).usb = s.usb := rfl
@[simp] theorem State.bump_field (f : Fld) : (s.bump f).field = s.field := rfl
@[simp] theorem State.bump_dm (f : Fld) : (s.bump f).dm = s.dm := rfl
@[simp] theorem State.bump_pending (f : Fld) : (s.bump f).pending = s.pending := rfl

@[simp] theorem State.bumpSat_mem (f g : Fld) : (s.bumpSat f g).mem = s.mem := by unfold State.bumpSat; simp only []; split <;> rfl
@[simp] theorem State.bumpSat_fresh (f g : Fld) : (s.bumpSat f g).fresh = s.fresh := by unfold State.bumpSat; simp only []; split <;> rfl
@[simp] theorem State.bumpSat_resp (f g : Fld) : (s.bumpSat f g).resp = s.resp := by unfold State.bumpSat; simp only []; split <;> rfl
@[simp] theorem State.bumpSat_held (f g : Fld) : (s.bumpSat f g).held = s.held := by unfold State.bumpSat; simp only []; split <;> rfl
@[simp] theorem State.bumpSat_code4G (f g : Fld) : (s.bumpSat f g).code4G = s.code4G := by unfold State.bumpSat; simp only []; split <;> rfl
@[simp] theorem State.bumpSat_power (f g : Fld) : (s.bumpSat f g).power = s.power := by unfold State.bumpSat; simp only []; split <;> rfl
@[simp] theorem State.bumpSat_boot (f g : Fld) : (s.bumpSat f g).boot = s.boot := by unfold State.bumpSat; simp only []; split <;> rfl
@[simp] theorem State.bumpSat_reed (f g : Fld) : (s.bumpSat f g).reed = s.reed := by unfold State.bumpSat; simp only []; split <;> rfl
@[simp] theorem State.bumpSat_harts (f g : Fld) : (s.bumpSat f g).harts = s.harts := by unfold State.bumpSat; simp only []; split <;> rfl
@[simp] theorem State.bumpSat_memory (f g : Fld) : (s.bumpSat f g).memory = s.memory := by unfold State.bumpSat; simp only []; split <;> rfl
@[simp] theorem State.bumpSat_loom (f g : Fld) : (s.bumpSat f g).loom = s.loom := by unfold State.bumpSat; simp only []; split <;> rfl
@[simp] theorem State.bumpSat_cairn (f g : Fld) : (s.bumpSat f g).cairn = s.cairn := by unfold State.bumpSat; simp only []; split <;> rfl
@[simp] theorem State.bumpSat_shuttle (f g : Fld) : (s.bumpSat f g).shuttle = s.shuttle := by unfold State.bumpSat; simp only []; split <;> rfl
@[simp] theorem State.bumpSat_timer (f g : Fld) : (s.bumpSat f g).timer = s.timer := by unfold State.bumpSat; simp only []; split <;> rfl
@[simp] theorem State.bumpSat_belay (f g : Fld) : (s.bumpSat f g).belay = s.belay := by unfold State.bumpSat; simp only []; split <;> rfl
@[simp] theorem State.bumpSat_tether (f g : Fld) : (s.bumpSat f g).tether = s.tether := by unfold State.bumpSat; simp only []; split <;> rfl
@[simp] theorem State.bumpSat_sec (f g : Fld) : (s.bumpSat f g).sec = s.sec := by unfold State.bumpSat; simp only []; split <;> rfl
@[simp] theorem State.bumpSat_heddle (f g : Fld) : (s.bumpSat f g).heddle = s.heddle := by unfold State.bumpSat; simp only []; split <;> rfl
@[simp] theorem State.bumpSat_bobbin (f g : Fld) : (s.bumpSat f g).bobbin = s.bobbin := by unfold State.bumpSat; simp only []; split <;> rfl
@[simp] theorem State.bumpSat_usb (f g : Fld) : (s.bumpSat f g).usb = s.usb := by unfold State.bumpSat; simp only []; split <;> rfl
@[simp] theorem State.bumpSat_field (f g : Fld) : (s.bumpSat f g).field = s.field := by unfold State.bumpSat; simp only []; split <;> rfl
@[simp] theorem State.bumpSat_dm (f g : Fld) : (s.bumpSat f g).dm = s.dm := by unfold State.bumpSat; simp only []; split <;> rfl
@[simp] theorem State.bumpSat_pending (f g : Fld) : (s.bumpSat f g).pending = s.pending := by unfold State.bumpSat; simp only []; split <;> rfl

@[simp] theorem State.inc_mem (f : Fld) : (s.inc f).mem = s.mem := rfl
@[simp] theorem State.inc_fresh (f : Fld) : (s.inc f).fresh = s.fresh := rfl
@[simp] theorem State.inc_resp (f : Fld) : (s.inc f).resp = s.resp := rfl
@[simp] theorem State.inc_held (f : Fld) : (s.inc f).held = s.held := rfl
@[simp] theorem State.inc_code4G (f : Fld) : (s.inc f).code4G = s.code4G := rfl
@[simp] theorem State.inc_power (f : Fld) : (s.inc f).power = s.power := rfl
@[simp] theorem State.inc_boot (f : Fld) : (s.inc f).boot = s.boot := rfl
@[simp] theorem State.inc_reed (f : Fld) : (s.inc f).reed = s.reed := rfl
@[simp] theorem State.inc_harts (f : Fld) : (s.inc f).harts = s.harts := rfl
@[simp] theorem State.inc_memory (f : Fld) : (s.inc f).memory = s.memory := rfl
@[simp] theorem State.inc_loom (f : Fld) : (s.inc f).loom = s.loom := rfl
@[simp] theorem State.inc_cairn (f : Fld) : (s.inc f).cairn = s.cairn := rfl
@[simp] theorem State.inc_shuttle (f : Fld) : (s.inc f).shuttle = s.shuttle := rfl
@[simp] theorem State.inc_timer (f : Fld) : (s.inc f).timer = s.timer := rfl
@[simp] theorem State.inc_belay (f : Fld) : (s.inc f).belay = s.belay := rfl
@[simp] theorem State.inc_tether (f : Fld) : (s.inc f).tether = s.tether := rfl
@[simp] theorem State.inc_sec (f : Fld) : (s.inc f).sec = s.sec := rfl
@[simp] theorem State.inc_heddle (f : Fld) : (s.inc f).heddle = s.heddle := rfl
@[simp] theorem State.inc_bobbin (f : Fld) : (s.inc f).bobbin = s.bobbin := rfl
@[simp] theorem State.inc_usb (f : Fld) : (s.inc f).usb = s.usb := rfl
@[simp] theorem State.inc_field (f : Fld) : (s.inc f).field = s.field := rfl
@[simp] theorem State.inc_dm (f : Fld) : (s.inc f).dm = s.dm := rfl
@[simp] theorem State.inc_pending (f : Fld) : (s.inc f).pending = s.pending := rfl

@[simp] theorem State.raise_mem (p b : Nat) : (s.raise p b).mem = s.mem := rfl
@[simp] theorem State.raise_fresh (p b : Nat) : (s.raise p b).fresh = s.fresh := rfl
@[simp] theorem State.raise_resp (p b : Nat) : (s.raise p b).resp = s.resp := rfl
@[simp] theorem State.raise_held (p b : Nat) : (s.raise p b).held = s.held := rfl
@[simp] theorem State.raise_code4G (p b : Nat) : (s.raise p b).code4G = s.code4G := rfl
@[simp] theorem State.raise_power (p b : Nat) : (s.raise p b).power = s.power := rfl
@[simp] theorem State.raise_boot (p b : Nat) : (s.raise p b).boot = s.boot := rfl
@[simp] theorem State.raise_reed (p b : Nat) : (s.raise p b).reed = s.reed := rfl
@[simp] theorem State.raise_harts (p b : Nat) : (s.raise p b).harts = s.harts := rfl
@[simp] theorem State.raise_memory (p b : Nat) : (s.raise p b).memory = s.memory := rfl
@[simp] theorem State.raise_loom (p b : Nat) : (s.raise p b).loom = s.loom := rfl
@[simp] theorem State.raise_cairn (p b : Nat) : (s.raise p b).cairn = s.cairn := rfl
@[simp] theorem State.raise_shuttle (p b : Nat) : (s.raise p b).shuttle = s.shuttle := rfl
@[simp] theorem State.raise_timer (p b : Nat) : (s.raise p b).timer = s.timer := rfl
@[simp] theorem State.raise_belay (p b : Nat) : (s.raise p b).belay = s.belay := rfl
@[simp] theorem State.raise_tether (p b : Nat) : (s.raise p b).tether = s.tether := rfl
@[simp] theorem State.raise_sec (p b : Nat) : (s.raise p b).sec = s.sec := rfl
@[simp] theorem State.raise_heddle (p b : Nat) : (s.raise p b).heddle = s.heddle := rfl
@[simp] theorem State.raise_bobbin (p b : Nat) : (s.raise p b).bobbin = s.bobbin := rfl
@[simp] theorem State.raise_usb (p b : Nat) : (s.raise p b).usb = s.usb := rfl
@[simp] theorem State.raise_field (p b : Nat) : (s.raise p b).field = s.field := rfl
@[simp] theorem State.raise_dm (p b : Nat) : (s.raise p b).dm = s.dm := rfl
@[simp] theorem State.raise_pending (p b : Nat) : (s.raise p b).pending = s.pending := rfl

@[simp] theorem State.respond_regs (e : Bool) (v : DWord) : (s.respond e v).regs = s.regs := rfl
@[simp] theorem State.respond_mem (e : Bool) (v : DWord) : (s.respond e v).mem = s.mem := rfl
@[simp] theorem State.respond_fresh (e : Bool) (v : DWord) : (s.respond e v).fresh = s.fresh := rfl
@[simp] theorem State.respond_held (e : Bool) (v : DWord) : (s.respond e v).held = s.held := rfl
@[simp] theorem State.respond_code4G (e : Bool) (v : DWord) : (s.respond e v).code4G = s.code4G := rfl
@[simp] theorem State.respond_power (e : Bool) (v : DWord) : (s.respond e v).power = s.power := rfl
@[simp] theorem State.respond_boot (e : Bool) (v : DWord) : (s.respond e v).boot = s.boot := rfl
@[simp] theorem State.respond_reed (e : Bool) (v : DWord) : (s.respond e v).reed = s.reed := rfl
@[simp] theorem State.respond_harts (e : Bool) (v : DWord) : (s.respond e v).harts = s.harts := rfl
@[simp] theorem State.respond_memory (e : Bool) (v : DWord) : (s.respond e v).memory = s.memory := rfl
@[simp] theorem State.respond_loom (e : Bool) (v : DWord) : (s.respond e v).loom = s.loom := rfl
@[simp] theorem State.respond_cairn (e : Bool) (v : DWord) : (s.respond e v).cairn = s.cairn := rfl
@[simp] theorem State.respond_shuttle (e : Bool) (v : DWord) : (s.respond e v).shuttle = s.shuttle := rfl
@[simp] theorem State.respond_timer (e : Bool) (v : DWord) : (s.respond e v).timer = s.timer := rfl
@[simp] theorem State.respond_belay (e : Bool) (v : DWord) : (s.respond e v).belay = s.belay := rfl
@[simp] theorem State.respond_tether (e : Bool) (v : DWord) : (s.respond e v).tether = s.tether := rfl
@[simp] theorem State.respond_sec (e : Bool) (v : DWord) : (s.respond e v).sec = s.sec := rfl
@[simp] theorem State.respond_heddle (e : Bool) (v : DWord) : (s.respond e v).heddle = s.heddle := rfl
@[simp] theorem State.respond_bobbin (e : Bool) (v : DWord) : (s.respond e v).bobbin = s.bobbin := rfl
@[simp] theorem State.respond_usb (e : Bool) (v : DWord) : (s.respond e v).usb = s.usb := rfl
@[simp] theorem State.respond_field (e : Bool) (v : DWord) : (s.respond e v).field = s.field := rfl
@[simp] theorem State.respond_dm (e : Bool) (v : DWord) : (s.respond e v).dm = s.dm := rfl
@[simp] theorem State.respond_pending (e : Bool) (v : DWord) : (s.respond e v).pending = s.pending := rfl

@[simp] theorem State.takeFree_regs : (s.takeFree.2).regs = s.regs := rfl
@[simp] theorem State.takeFree_mem : (s.takeFree.2).mem = s.mem := rfl
@[simp] theorem State.takeFree_resp : (s.takeFree.2).resp = s.resp := rfl
@[simp] theorem State.takeFree_held : (s.takeFree.2).held = s.held := rfl
@[simp] theorem State.takeFree_code4G : (s.takeFree.2).code4G = s.code4G := rfl
@[simp] theorem State.takeFree_power : (s.takeFree.2).power = s.power := rfl
@[simp] theorem State.takeFree_boot : (s.takeFree.2).boot = s.boot := rfl
@[simp] theorem State.takeFree_reed : (s.takeFree.2).reed = s.reed := rfl
@[simp] theorem State.takeFree_harts : (s.takeFree.2).harts = s.harts := rfl
@[simp] theorem State.takeFree_memory : (s.takeFree.2).memory = s.memory := rfl
@[simp] theorem State.takeFree_loom : (s.takeFree.2).loom = s.loom := rfl
@[simp] theorem State.takeFree_cairn : (s.takeFree.2).cairn = s.cairn := rfl
@[simp] theorem State.takeFree_shuttle : (s.takeFree.2).shuttle = s.shuttle := rfl
@[simp] theorem State.takeFree_timer : (s.takeFree.2).timer = s.timer := rfl
@[simp] theorem State.takeFree_belay : (s.takeFree.2).belay = s.belay := rfl
@[simp] theorem State.takeFree_tether : (s.takeFree.2).tether = s.tether := rfl
@[simp] theorem State.takeFree_sec : (s.takeFree.2).sec = s.sec := rfl
@[simp] theorem State.takeFree_heddle : (s.takeFree.2).heddle = s.heddle := rfl
@[simp] theorem State.takeFree_bobbin : (s.takeFree.2).bobbin = s.bobbin := rfl
@[simp] theorem State.takeFree_usb : (s.takeFree.2).usb = s.usb := rfl
@[simp] theorem State.takeFree_field : (s.takeFree.2).field = s.field := rfl
@[simp] theorem State.takeFree_dm : (s.takeFree.2).dm = s.dm := rfl
@[simp] theorem State.takeFree_pending : (s.takeFree.2).pending = s.pending := rfl

@[simp] theorem State.putMem_regs (a : Nat) (bs : List Byte) : (s.putMem a bs).regs = s.regs := rfl
@[simp] theorem State.putMem_fresh (a : Nat) (bs : List Byte) : (s.putMem a bs).fresh = s.fresh := rfl
@[simp] theorem State.putMem_resp (a : Nat) (bs : List Byte) : (s.putMem a bs).resp = s.resp := rfl
@[simp] theorem State.putMem_held (a : Nat) (bs : List Byte) : (s.putMem a bs).held = s.held := rfl
@[simp] theorem State.putMem_code4G (a : Nat) (bs : List Byte) : (s.putMem a bs).code4G = s.code4G := rfl
@[simp] theorem State.putMem_power (a : Nat) (bs : List Byte) : (s.putMem a bs).power = s.power := rfl
@[simp] theorem State.putMem_boot (a : Nat) (bs : List Byte) : (s.putMem a bs).boot = s.boot := rfl
@[simp] theorem State.putMem_reed (a : Nat) (bs : List Byte) : (s.putMem a bs).reed = s.reed := rfl
@[simp] theorem State.putMem_harts (a : Nat) (bs : List Byte) : (s.putMem a bs).harts = s.harts := rfl
@[simp] theorem State.putMem_memory (a : Nat) (bs : List Byte) : (s.putMem a bs).memory = s.memory := rfl
@[simp] theorem State.putMem_loom (a : Nat) (bs : List Byte) : (s.putMem a bs).loom = s.loom := rfl
@[simp] theorem State.putMem_cairn (a : Nat) (bs : List Byte) : (s.putMem a bs).cairn = s.cairn := rfl
@[simp] theorem State.putMem_shuttle (a : Nat) (bs : List Byte) : (s.putMem a bs).shuttle = s.shuttle := rfl
@[simp] theorem State.putMem_timer (a : Nat) (bs : List Byte) : (s.putMem a bs).timer = s.timer := rfl
@[simp] theorem State.putMem_belay (a : Nat) (bs : List Byte) : (s.putMem a bs).belay = s.belay := rfl
@[simp] theorem State.putMem_tether (a : Nat) (bs : List Byte) : (s.putMem a bs).tether = s.tether := rfl
@[simp] theorem State.putMem_sec (a : Nat) (bs : List Byte) : (s.putMem a bs).sec = s.sec := rfl
@[simp] theorem State.putMem_heddle (a : Nat) (bs : List Byte) : (s.putMem a bs).heddle = s.heddle := rfl
@[simp] theorem State.putMem_bobbin (a : Nat) (bs : List Byte) : (s.putMem a bs).bobbin = s.bobbin := rfl
@[simp] theorem State.putMem_usb (a : Nat) (bs : List Byte) : (s.putMem a bs).usb = s.usb := rfl
@[simp] theorem State.putMem_field (a : Nat) (bs : List Byte) : (s.putMem a bs).field = s.field := rfl
@[simp] theorem State.putMem_dm (a : Nat) (bs : List Byte) : (s.putMem a bs).dm = s.dm := rfl
@[simp] theorem State.putMem_pending (a : Nat) (bs : List Byte) : (s.putMem a bs).pending = s.pending := rfl

@[simp] theorem State.setGate_regs (n : Nat) (g : Gateway) : (s.setGate n g).regs = s.regs := rfl
@[simp] theorem State.setGate_mem (n : Nat) (g : Gateway) : (s.setGate n g).mem = s.mem := rfl
@[simp] theorem State.setGate_fresh (n : Nat) (g : Gateway) : (s.setGate n g).fresh = s.fresh := rfl
@[simp] theorem State.setGate_resp (n : Nat) (g : Gateway) : (s.setGate n g).resp = s.resp := rfl
@[simp] theorem State.setGate_held (n : Nat) (g : Gateway) : (s.setGate n g).held = s.held := rfl
@[simp] theorem State.setGate_code4G (n : Nat) (g : Gateway) : (s.setGate n g).code4G = s.code4G := rfl
@[simp] theorem State.setGate_power (n : Nat) (g : Gateway) : (s.setGate n g).power = s.power := rfl
@[simp] theorem State.setGate_boot (n : Nat) (g : Gateway) : (s.setGate n g).boot = s.boot := rfl
@[simp] theorem State.setGate_reed (n : Nat) (g : Gateway) : (s.setGate n g).reed = s.reed := rfl
@[simp] theorem State.setGate_harts (n : Nat) (g : Gateway) : (s.setGate n g).harts = s.harts := rfl
@[simp] theorem State.setGate_memory (n : Nat) (g : Gateway) : (s.setGate n g).memory = s.memory := rfl
@[simp] theorem State.setGate_loom (n : Nat) (g : Gateway) : (s.setGate n g).loom = s.loom := rfl
@[simp] theorem State.setGate_shuttle (n : Nat) (g : Gateway) : (s.setGate n g).shuttle = s.shuttle := rfl
@[simp] theorem State.setGate_timer (n : Nat) (g : Gateway) : (s.setGate n g).timer = s.timer := rfl
@[simp] theorem State.setGate_belay (n : Nat) (g : Gateway) : (s.setGate n g).belay = s.belay := rfl
@[simp] theorem State.setGate_tether (n : Nat) (g : Gateway) : (s.setGate n g).tether = s.tether := rfl
@[simp] theorem State.setGate_sec (n : Nat) (g : Gateway) : (s.setGate n g).sec = s.sec := rfl
@[simp] theorem State.setGate_heddle (n : Nat) (g : Gateway) : (s.setGate n g).heddle = s.heddle := rfl
@[simp] theorem State.setGate_bobbin (n : Nat) (g : Gateway) : (s.setGate n g).bobbin = s.bobbin := rfl
@[simp] theorem State.setGate_usb (n : Nat) (g : Gateway) : (s.setGate n g).usb = s.usb := rfl
@[simp] theorem State.setGate_field (n : Nat) (g : Gateway) : (s.setGate n g).field = s.field := rfl
@[simp] theorem State.setGate_dm (n : Nat) (g : Gateway) : (s.setGate n g).dm = s.dm := rfl
@[simp] theorem State.setGate_pending (n : Nat) (g : Gateway) : (s.setGate n g).pending = s.pending := rfl

@[simp] theorem State.setHart_regs (h : Nat) (v : Hart) : (s.setHart h v).regs = s.regs := by unfold State.setHart; split <;> rfl
@[simp] theorem State.setHart_mem (h : Nat) (v : Hart) : (s.setHart h v).mem = s.mem := by unfold State.setHart; split <;> rfl
@[simp] theorem State.setHart_fresh (h : Nat) (v : Hart) : (s.setHart h v).fresh = s.fresh := by unfold State.setHart; split <;> rfl
@[simp] theorem State.setHart_resp (h : Nat) (v : Hart) : (s.setHart h v).resp = s.resp := by unfold State.setHart; split <;> rfl
@[simp] theorem State.setHart_held (h : Nat) (v : Hart) : (s.setHart h v).held = s.held := by unfold State.setHart; split <;> rfl
@[simp] theorem State.setHart_code4G (h : Nat) (v : Hart) : (s.setHart h v).code4G = s.code4G := by unfold State.setHart; split <;> rfl
@[simp] theorem State.setHart_power (h : Nat) (v : Hart) : (s.setHart h v).power = s.power := by unfold State.setHart; split <;> rfl
@[simp] theorem State.setHart_boot (h : Nat) (v : Hart) : (s.setHart h v).boot = s.boot := by unfold State.setHart; split <;> rfl
@[simp] theorem State.setHart_reed (h : Nat) (v : Hart) : (s.setHart h v).reed = s.reed := by unfold State.setHart; split <;> rfl
@[simp] theorem State.setHart_memory (h : Nat) (v : Hart) : (s.setHart h v).memory = s.memory := by unfold State.setHart; split <;> rfl
@[simp] theorem State.setHart_loom (h : Nat) (v : Hart) : (s.setHart h v).loom = s.loom := by unfold State.setHart; split <;> rfl
@[simp] theorem State.setHart_cairn (h : Nat) (v : Hart) : (s.setHart h v).cairn = s.cairn := by unfold State.setHart; split <;> rfl
@[simp] theorem State.setHart_shuttle (h : Nat) (v : Hart) : (s.setHart h v).shuttle = s.shuttle := by unfold State.setHart; split <;> rfl
@[simp] theorem State.setHart_timer (h : Nat) (v : Hart) : (s.setHart h v).timer = s.timer := by unfold State.setHart; split <;> rfl
@[simp] theorem State.setHart_belay (h : Nat) (v : Hart) : (s.setHart h v).belay = s.belay := by unfold State.setHart; split <;> rfl
@[simp] theorem State.setHart_tether (h : Nat) (v : Hart) : (s.setHart h v).tether = s.tether := by unfold State.setHart; split <;> rfl
@[simp] theorem State.setHart_sec (h : Nat) (v : Hart) : (s.setHart h v).sec = s.sec := by unfold State.setHart; split <;> rfl
@[simp] theorem State.setHart_heddle (h : Nat) (v : Hart) : (s.setHart h v).heddle = s.heddle := by unfold State.setHart; split <;> rfl
@[simp] theorem State.setHart_bobbin (h : Nat) (v : Hart) : (s.setHart h v).bobbin = s.bobbin := by unfold State.setHart; split <;> rfl
@[simp] theorem State.setHart_usb (h : Nat) (v : Hart) : (s.setHart h v).usb = s.usb := by unfold State.setHart; split <;> rfl
@[simp] theorem State.setHart_field (h : Nat) (v : Hart) : (s.setHart h v).field = s.field := by unfold State.setHart; split <;> rfl
@[simp] theorem State.setHart_dm (h : Nat) (v : Hart) : (s.setHart h v).dm = s.dm := by unfold State.setHart; split <;> rfl
@[simp] theorem State.setHart_pending (h : Nat) (v : Hart) : (s.setHart h v).pending = s.pending := by unfold State.setHart; split <;> rfl

@[simp] theorem State.modHart_regs (h : Nat) (f : Hart → Hart) : (s.modHart h f).regs = s.regs := by unfold State.modHart State.setHart; split <;> rfl
@[simp] theorem State.modHart_mem (h : Nat) (f : Hart → Hart) : (s.modHart h f).mem = s.mem := by unfold State.modHart State.setHart; split <;> rfl
@[simp] theorem State.modHart_fresh (h : Nat) (f : Hart → Hart) : (s.modHart h f).fresh = s.fresh := by unfold State.modHart State.setHart; split <;> rfl
@[simp] theorem State.modHart_resp (h : Nat) (f : Hart → Hart) : (s.modHart h f).resp = s.resp := by unfold State.modHart State.setHart; split <;> rfl
@[simp] theorem State.modHart_held (h : Nat) (f : Hart → Hart) : (s.modHart h f).held = s.held := by unfold State.modHart State.setHart; split <;> rfl
@[simp] theorem State.modHart_code4G (h : Nat) (f : Hart → Hart) : (s.modHart h f).code4G = s.code4G := by unfold State.modHart State.setHart; split <;> rfl
@[simp] theorem State.modHart_power (h : Nat) (f : Hart → Hart) : (s.modHart h f).power = s.power := by unfold State.modHart State.setHart; split <;> rfl
@[simp] theorem State.modHart_boot (h : Nat) (f : Hart → Hart) : (s.modHart h f).boot = s.boot := by unfold State.modHart State.setHart; split <;> rfl
@[simp] theorem State.modHart_reed (h : Nat) (f : Hart → Hart) : (s.modHart h f).reed = s.reed := by unfold State.modHart State.setHart; split <;> rfl
@[simp] theorem State.modHart_memory (h : Nat) (f : Hart → Hart) : (s.modHart h f).memory = s.memory := by unfold State.modHart State.setHart; split <;> rfl
@[simp] theorem State.modHart_loom (h : Nat) (f : Hart → Hart) : (s.modHart h f).loom = s.loom := by unfold State.modHart State.setHart; split <;> rfl
@[simp] theorem State.modHart_cairn (h : Nat) (f : Hart → Hart) : (s.modHart h f).cairn = s.cairn := by unfold State.modHart State.setHart; split <;> rfl
@[simp] theorem State.modHart_shuttle (h : Nat) (f : Hart → Hart) : (s.modHart h f).shuttle = s.shuttle := by unfold State.modHart State.setHart; split <;> rfl
@[simp] theorem State.modHart_timer (h : Nat) (f : Hart → Hart) : (s.modHart h f).timer = s.timer := by unfold State.modHart State.setHart; split <;> rfl
@[simp] theorem State.modHart_belay (h : Nat) (f : Hart → Hart) : (s.modHart h f).belay = s.belay := by unfold State.modHart State.setHart; split <;> rfl
@[simp] theorem State.modHart_tether (h : Nat) (f : Hart → Hart) : (s.modHart h f).tether = s.tether := by unfold State.modHart State.setHart; split <;> rfl
@[simp] theorem State.modHart_sec (h : Nat) (f : Hart → Hart) : (s.modHart h f).sec = s.sec := by unfold State.modHart State.setHart; split <;> rfl
@[simp] theorem State.modHart_heddle (h : Nat) (f : Hart → Hart) : (s.modHart h f).heddle = s.heddle := by unfold State.modHart State.setHart; split <;> rfl
@[simp] theorem State.modHart_bobbin (h : Nat) (f : Hart → Hart) : (s.modHart h f).bobbin = s.bobbin := by unfold State.modHart State.setHart; split <;> rfl
@[simp] theorem State.modHart_usb (h : Nat) (f : Hart → Hart) : (s.modHart h f).usb = s.usb := by unfold State.modHart State.setHart; split <;> rfl
@[simp] theorem State.modHart_field (h : Nat) (f : Hart → Hart) : (s.modHart h f).field = s.field := by unfold State.modHart State.setHart; split <;> rfl
@[simp] theorem State.modHart_dm (h : Nat) (f : Hart → Hart) : (s.modHart h f).dm = s.dm := by unfold State.modHart State.setHart; split <;> rfl
@[simp] theorem State.modHart_pending (h : Nat) (f : Hart → Hart) : (s.modHart h f).pending = s.pending := by unfold State.modHart State.setHart; split <;> rfl

/-- A register read after one has been written. -/
@[simp] theorem State.raw_setReg (a b : Nat) (v : DWord) : (s.setReg a v).raw b = if b = a then v else s.raw b :=
  SMap.get_put resetWord s.regs a b v

theorem State.raw_setFld (f : Fld) (v b : Nat) :
    (s.setFld f v).raw b = if b = f.reg then Bits.put (s.raw f.reg) f.lo f.width v else s.raw b :=
  s.raw_setReg _ _ _

theorem State.raw_setFld_ne (f : Fld) (v b : Nat) (h : b ≠ f.reg) : (s.setFld f v).raw b = s.raw b := by
  rw [State.raw_setFld, if_neg h]

theorem State.raw_setFlag_ne (f : Fld) (v : Bool) (b : Nat) (h : b ≠ f.reg) : (s.setFlag f v).raw b = s.raw b :=
  s.raw_setFld_ne f _ b h

theorem State.raw_bumpBy_ne (f : Fld) (n b : Nat) (h : b ≠ f.reg) : (s.bumpBy f n).raw b = s.raw b := s.raw_setFld_ne f _ b h

theorem State.raw_bump_ne (f : Fld) (b : Nat) (h : b ≠ f.reg) : (s.bump f).raw b = s.raw b := s.raw_setFld_ne f _ b h

theorem State.raw_inc_ne (f : Fld) (b : Nat) (h : b ≠ f.reg) : (s.inc f).raw b = s.raw b := s.raw_setFld_ne f _ b h

theorem State.raw_bumpSat_ne (f g : Fld) (b : Nat) (h : b ≠ f.reg) (h2 : b ≠ g.reg) : (s.bumpSat f g).raw b = s.raw b := by
  unfold State.bumpSat
  simp only []
  split
  · rw [State.raw_setFld_ne _ _ _ _ h2, State.raw_bump_ne _ _ _ h]
  · exact s.raw_bump_ne f b h

theorem State.raw_raise_ne (p k b : Nat) (h : b ≠ R.EVT_RAW p) : (s.raise p k).raw b = s.raw b := by
  simp [State.raise, h]

/-- The event register after an event of its page (R40). -/
theorem State.raw_raise (p k : Nat) : (s.raise p k).raw (R.EVT_RAW p) = Bits.put (s.raw (R.EVT_RAW p)) k 1 1 := by
  simp [State.raise]

@[simp] theorem State.raw_respond (e : Bool) (v : DWord) (b : Nat) : (s.respond e v).raw b = s.raw b := rfl

@[simp] theorem State.raw_takeFree (b : Nat) : s.takeFree.2.raw b = s.raw b := rfl

@[simp] theorem State.raw_putMem (a : Nat) (bs : List Byte) (b : Nat) : (s.putMem a bs).raw b = s.raw b := rfl

@[simp] theorem State.raw_setGate (n : Nat) (g : Gateway) (b : Nat) : (s.setGate n g).raw b = s.raw b := rfl

@[simp] theorem State.raw_setHart (h : Nat) (v : Hart) (b : Nat) : (s.setHart h v).raw b = s.raw b := by
  simp [State.raw]

@[simp] theorem State.raw_modHart (h : Nat) (f : Hart → Hart) (b : Nat) : (s.modHart h f).raw b = s.raw b := by
  simp [State.raw]

/-- A field just written holds the value, cut to its width (R11). -/
theorem State.fld_setFld (f : Fld) (v : Nat) (h : f.lo + f.width ≤ 64) : (s.setFld f v).fld f = v % 2 ^ f.width := by
  simp [State.fld, State.raw_setFld, Bits.get_put _ _ _ _ h]

/-- A field of another register, or of other bits of the same one, keeps its value. -/
theorem State.fld_setFld_ne (f g : Fld) (v : Nat)
    (h : g.reg ≠ f.reg ∨ g.lo + g.width ≤ f.lo ∨ f.lo + f.width ≤ g.lo) : (s.setFld f v).fld g = s.fld g := by
  unfold State.fld
  rw [State.raw_setFld]
  split
  · rename_i e
    rw [e]
    exact Bits.get_put_ne _ _ _ _ _ _ (by omega)
  · rfl

theorem State.fld_setReg_ne (a : Nat) (v : DWord) (g : Fld) (h : g.reg ≠ a) : (s.setReg a v).fld g = s.fld g := by
  simp [State.fld, h]

theorem State.flag_setFlag (f : Fld) (b : Bool) (h : f.lo + f.width ≤ 64) (hw : 0 < f.width) : (s.setFlag f b).flag f = b := by
  have h1 : (1 : Nat) < 2 ^ f.width := Nat.one_lt_two_pow (by omega)
  cases b <;> simp [State.flag, State.setFlag, State.fld_setFld _ _ _ h, Nat.mod_eq_of_lt h1]

theorem State.flag_setFld_ne (f g : Fld) (v : Nat)
    (h : g.reg ≠ f.reg ∨ g.lo + g.width ≤ f.lo ∨ f.lo + f.width ≤ g.lo) : (s.setFld f v).flag g = s.flag g := by
  unfold State.flag
  rw [State.fld_setFld_ne _ _ _ _ h]

/-- The hart just written. -/
theorem State.hart_setHart (h : Nat) (v : Hart) (hl : h < 4) : (s.setHart h v).hart h = v := by
  simp [State.hart, State.setHart, hl, Vector.toList]

/-- The other harts. -/
theorem State.hart_setHart_ne (h k : Nat) (v : Hart) (hk : k ≠ h) : (s.setHart h v).hart k = s.hart k := by
  unfold State.setHart State.hart
  split
  · simp [Vector.toList, List.getD_eq_getElem?_getD, Ne.symm hk]
  · rfl

/-- The gateway just written, and the others. -/
theorem State.gate_setGate (n k : Nat) (g : Gateway) : (s.setGate n g).gate k = if k = n then g else s.gate k :=
  SMap.get_put (fun _ => Gateway.idle) s.cairn.gates n k g

/-- Registers keep their canonical form. -/
theorem State.wf_setReg (a : Nat) (v : DWord) (h : SMap.wf resetWord s.regs = true) :
    SMap.wf resetWord (s.setReg a v).regs = true :=
  SMap.wf_put resetWord s.regs a v h

theorem byteEntries_ge (bs : List Byte) (a : Nat) : ∀ e ∈ byteEntries a bs, a ≤ e.1 ∧ e.1 < a + bs.length := by
  induction bs generalizing a with
  | nil => intro e h; simp [byteEntries] at h
  | cons b bs ih =>
    intro e h
    unfold byteEntries at h
    split at h
    · have := ih (a + 1) e h; simp only [List.length_cons]; omega
    · rcases List.mem_cons.1 h with h | h
      · subst h; simp
      · have := ih (a + 1) e h; simp only [List.length_cons]; omega

theorem byteEntries_ne (bs : List Byte) (a : Nat) : ∀ e ∈ byteEntries a bs, e.2 ≠ memDefault e.1 := by
  induction bs generalizing a with
  | nil => intro e h; simp [byteEntries] at h
  | cons b bs ih =>
    intro e h
    unfold byteEntries at h
    split at h
    · exact ih (a + 1) e h
    · rename_i hb
      rcases List.mem_cons.1 h with h | h
      · subst h; exact hb
      · exact ih (a + 1) e h

theorem SMap.sortedFrom_append {α : Type} (m n : List (Nat × α)) (lo k : Nat) (hm : SMap.sortedFrom lo m = true)
    (hk : ∀ e ∈ m, e.1 < k) (hl : lo ≤ k) (hn : SMap.sortedFrom k n = true) : SMap.sortedFrom lo (m ++ n) = true := by
  induction m generalizing lo with
  | nil => exact SMap.sortedFrom_mono n k lo hl hn
  | cons e m ih =>
    simp only [SMap.sortedFrom, List.cons_append, Bool.and_eq_true, decide_eq_true_eq] at hm ⊢
    have := hk e (by simp)
    exact ⟨hm.1, ih _ hm.2 (fun x hx => hk x (by simp [hx])) (by omega)⟩

theorem byteEntries_sorted (bs : List Byte) (a : Nat) : SMap.sortedFrom a (byteEntries a bs) = true := by
  induction bs generalizing a with
  | nil => rfl
  | cons b bs ih =>
    unfold byteEntries
    split
    · exact SMap.sortedFrom_mono _ (a + 1) a (by omega) (ih (a + 1))
    · simp only [SMap.sortedFrom, Bool.and_eq_true, decide_eq_true_eq]
      exact ⟨Nat.le_refl a, ih (a + 1)⟩

theorem SMap.sortedFrom_ge {α : Type} (m : List (Nat × α)) (lo k : Nat) (hm : SMap.sortedFrom lo m = true) (hk : ∀ e ∈ m, k ≤ e.1) :
    SMap.sortedFrom k m = true := by
  cases m with
  | nil => rfl
  | cons e m =>
    simp only [SMap.sortedFrom, Bool.and_eq_true, decide_eq_true_eq] at hm ⊢
    exact ⟨hk e (by simp), hm.2⟩

/-- Memory keeps its canonical form under a write of any number of bytes. -/
theorem putBytes_wf (m : List (Nat × Byte)) (a : Nat) (bs : List Byte) (h : SMap.wf memDefault m = true) :
    SMap.wf memDefault (putBytes m a bs) = true := by
  have h1 := SMap.wf_filter memDefault (fun e => decide (e.1 < a)) m h
  have h2 := SMap.wf_filter memDefault (fun e => decide (a + bs.length ≤ e.1)) m h
  unfold putBytes
  simp only [SMap.wf, Bool.and_eq_true, List.all_eq_true, decide_eq_true_eq] at h1 h2 ⊢
  refine ⟨SMap.sortedFrom_append _ _ 0 a h1.1 (fun e he => by simpa using (List.mem_filter.1 he).2) (Nat.zero_le a) ?_, ?_⟩
  · refine SMap.sortedFrom_append _ _ a (a + bs.length) (byteEntries_sorted bs a) (fun e he => (byteEntries_ge bs a e he).2) (by omega) ?_
    exact SMap.sortedFrom_ge _ 0 _ h2.1 (fun e he => by simpa using (List.mem_filter.1 he).2)
  · intro e he
    rcases List.mem_append.1 he with he | he
    · exact h1.2 e he
    · rcases List.mem_append.1 he with he | he
      · exact byteEntries_ne bs a e he
      · exact h2.2 e he

theorem State.wf_putMem (a : Nat) (bs : List Byte) (h : SMap.wf memDefault s.mem = true) :
    SMap.wf memDefault (s.putMem a bs).mem = true :=
  putBytes_wf s.mem a bs h

theorem SMap.get_append {α : Type} (d : Nat → α) (m n : List (Nat × α)) (x : Nat) (h : ∀ e ∈ m, e.1 ≠ x) :
    SMap.get d (m ++ n) x = SMap.get d n x := by
  induction m with
  | nil => rfl
  | cons e m ih =>
    have h1 : e.1 ≠ x := h e (by simp)
    simp only [List.cons_append, SMap.get, if_neg h1]
    exact ih (fun e he => h e (by simp [he]))

theorem SMap.get_none {α : Type} (d : Nat → α) (m : List (Nat × α)) (x : Nat) (h : ∀ e ∈ m, e.1 ≠ x) : SMap.get d m x = d x := by
  have := SMap.get_append d m [] x h
  simpa [SMap.get] using this

theorem SMap.get_left {α : Type} (d : Nat → α) (m n : List (Nat × α)) (x : Nat) (h : ∀ e ∈ n, e.1 ≠ x) :
    SMap.get d (m ++ n) x = SMap.get d m x := by
  induction m with
  | nil => exact SMap.get_none d n x h
  | cons e m ih =>
    simp only [List.cons_append, SMap.get]
    split
    · rfl
    · exact ih

theorem SMap.get_filter {α : Type} (d : Nat → α) (p : Nat → Bool) (m : List (Nat × α)) (x : Nat) :
    SMap.get d (m.filter (fun e => p e.1)) x = if p x then SMap.get d m x else d x := by
  induction m with
  | nil => simp [SMap.get]
  | cons e m ih =>
    obtain ⟨a, v⟩ := e
    rw [List.filter_cons]
    by_cases hp : p a = true
    · rw [if_pos hp]
      simp only [SMap.get, ih]
      by_cases hx : a = x
      · subst hx; simp [hp]
      · simp [hx]
    · rw [if_neg hp, ih]
      simp only [SMap.get]
      by_cases hx : a = x
      · subst hx; simp [hp]
      · simp [hx]

theorem byteEntries_get (bs : List Byte) (a x : Nat) :
    SMap.get memDefault (byteEntries a bs) x = if a ≤ x ∧ x < a + bs.length then bs.getD (x - a) 0#8 else memDefault x := by
  induction bs generalizing a with
  | nil =>
    have h : ¬ (a ≤ x ∧ x < a + ([] : List Byte).length) := by simp
    rw [if_neg h]
    rfl
  | cons b bs ih =>
    have hc : SMap.get memDefault (byteEntries a (b :: bs)) x = if x = a then b else SMap.get memDefault (byteEntries (a + 1) bs) x := by
      have he : byteEntries a (b :: bs) =
          if b = memDefault a then byteEntries (a + 1) bs else (a, b) :: byteEntries (a + 1) bs := rfl
      rw [he]
      split
      · rename_i hb
        split
        · rename_i hx
          subst hx
          rw [ih, if_neg (by omega), hb]
        · rfl
      · simp only [SMap.get]
        by_cases hx : x = a
        · simp [hx]
        · simp [hx, show a ≠ x by omega]
    rw [hc, ih]
    simp only [List.length_cons]
    by_cases h1 : x = a
    · subst h1
      simp
    · rw [if_neg h1]
      by_cases h2 : a + 1 ≤ x ∧ x < a + 1 + bs.length
      · have h3 : a ≤ x ∧ x < a + (bs.length + 1) := by omega
        have h4 : x - a = (x - (a + 1)) + 1 := by omega
        simp [h2, h3, h4]
      · have h3 : ¬ (a ≤ x ∧ x < a + (bs.length + 1)) := by omega
        rw [if_neg h2, if_neg h3]

/-- A byte read after bytes have been written: the byte written there, every other byte as before. -/
theorem putBytes_get (m : List (Nat × Byte)) (a : Nat) (bs : List Byte) (x : Nat) :
    SMap.get memDefault (putBytes m a bs) x =
      if a ≤ x ∧ x < a + bs.length then bs.getD (x - a) 0#8 else SMap.get memDefault m x := by
  unfold putBytes
  have h3 := SMap.get_filter memDefault (fun k => decide (a + bs.length ≤ k)) m x
  have h1 := SMap.get_filter memDefault (fun k => decide (k < a)) m x
  have hb := byteEntries_get bs a x
  by_cases hx : x < a
  · have hn : ¬ (a ≤ x ∧ x < a + bs.length) := by omega
    rw [if_neg hn, SMap.get_left _ _ _ _ ?_, h1]
    · rw [if_pos (decide_eq_true hx)]
    · intro e he
      rcases List.mem_append.1 he with he | he
      · have := (byteEntries_ge bs a e he).1; omega
      · have : a + bs.length ≤ e.1 := by simpa using (List.mem_filter.1 he).2
        omega
  · rw [SMap.get_append _ _ _ _ (fun e he => by have : e.1 < a := by simpa using (List.mem_filter.1 he).2
                                                omega)]
    by_cases hy : x < a + bs.length
    · rw [SMap.get_left _ _ _ _ (fun e he => by have : a + bs.length ≤ e.1 := by simpa using (List.mem_filter.1 he).2
                                                omega), hb, if_pos ⟨by omega, hy⟩, if_pos ⟨by omega, hy⟩]
    · rw [SMap.get_append _ _ _ _ (fun e he => by have := (byteEntries_ge bs a e he).2; omega), h3]
      have hz : a + bs.length ≤ x := by omega
      have hn : ¬ (a ≤ x ∧ x < a + bs.length) := by omega
      rw [if_pos (decide_eq_true hz), if_neg hn]

theorem State.byteAt_putMem (a : Nat) (bs : List Byte) (x : Nat) :
    (s.putMem a bs).byteAt x = if a ≤ x ∧ x < a + bs.length then bs.getD (x - a) 0#8 else s.byteAt x :=
  putBytes_get s.mem a bs x

end Sys2Proof.Machine
end

