-- ==== Sys2Proof/Laws/Frames.lean ====
section
/-! SUPPORT. Frames are built up along a meaning: each basic update keeps every register, page and byte it does not name; the events
and the clamp log as the shared operations write them. -/
namespace Sys2Proof.Machine

theorem KeepsRegs.refl (s : State) (l : List Nat) : KeepsRegs s s l := fun _ _ => rfl
theorem KeepsPages.refl (s : State) (ps : List Nat) : KeepsPages s s ps := fun _ _ => rfl
theorem KeepsMem.refl (s : State) : KeepsMem s s := fun _ => rfl

theorem KeepsRegs.trans {s t u : State} {l : List Nat} (h1 : KeepsRegs s t l) (h2 : KeepsRegs t u l) : KeepsRegs s u l :=
  fun a ha => (h2 a ha).trans (h1 a ha)
theorem KeepsPages.trans {s t u : State} {l : List Nat} (h1 : KeepsPages s t l) (h2 : KeepsPages t u l) : KeepsPages s u l :=
  fun a ha => (h2 a ha).trans (h1 a ha)
theorem KeepsMem.trans {s t u : State} (h1 : KeepsMem s t) (h2 : KeepsMem t u) : KeepsMem s u :=
  fun a => (h2 a).trans (h1 a)

/-- An update that leaves the register file alone keeps every register. -/
theorem KeepsRegs.of_regs {s t u : State} {l : List Nat} (h : KeepsRegs s t l) (e : u.regs = t.regs) : KeepsRegs s u l :=
  fun a ha => (by unfold State.raw; rw [e]; exact h a ha)
theorem KeepsPages.of_regs {s t u : State} {l : List Nat} (h : KeepsPages s t l) (e : u.regs = t.regs) : KeepsPages s u l :=
  fun a ha => (by unfold State.raw; rw [e]; exact h a ha)
theorem KeepsMem.of_mem {s t u : State} (h : KeepsMem s t) (e : u.mem = t.mem) : KeepsMem s u :=
  fun a => (by unfold State.byteAt; rw [e]; exact h a)

theorem KeepsRegs.mono {s t : State} {l m : List Nat} (h : KeepsRegs s t l) (hl : ∀ a ∈ l, a ∈ m) : KeepsRegs s t m :=
  fun a ha => h a (fun hm => ha (hl a hm))
/-- Registers kept by name are kept by page. -/
theorem KeepsRegs.pages {s t : State} {l ps : List Nat} (h : KeepsRegs s t l) (hl : ∀ a ∈ l, pageBase a ∈ ps) : KeepsPages s t ps :=
  fun a ha => h a (fun hm => ha (hl a hm))

theorem KeepsRegs.setReg {s t : State} {l : List Nat} {a : Nat} {v : DWord} (h : KeepsRegs s t l) (ha : a ∈ l) :
    KeepsRegs s (t.setReg a v) l := by
  intro b hb
  have : b ≠ a := fun e => hb (e ▸ ha)
  rw [State.raw_setReg, if_neg this]
  exact h b hb
theorem KeepsRegs.setFld {s t : State} {l : List Nat} {f : Fld} {v : Nat} (h : KeepsRegs s t l) (ha : f.reg ∈ l) :
    KeepsRegs s (t.setFld f v) l := h.setReg ha
theorem KeepsRegs.setFlag {s t : State} {l : List Nat} {f : Fld} {b : Bool} (h : KeepsRegs s t l) (ha : f.reg ∈ l) :
    KeepsRegs s (t.setFlag f b) l := h.setReg ha
theorem KeepsRegs.bumpBy {s t : State} {l : List Nat} {f : Fld} {n : Nat} (h : KeepsRegs s t l) (ha : f.reg ∈ l) :
    KeepsRegs s (t.bumpBy f n) l := h.setReg ha
theorem KeepsRegs.bump {s t : State} {l : List Nat} {f : Fld} (h : KeepsRegs s t l) (ha : f.reg ∈ l) :
    KeepsRegs s (t.bump f) l := h.setReg ha
theorem KeepsRegs.inc {s t : State} {l : List Nat} {f : Fld} (h : KeepsRegs s t l) (ha : f.reg ∈ l) :
    KeepsRegs s (t.inc f) l := h.setReg ha
theorem KeepsRegs.bumpSat {s t : State} {l : List Nat} {f g : Fld} (h : KeepsRegs s t l) (ha : f.reg ∈ l) (hg : g.reg ∈ l) :
    KeepsRegs s (t.bumpSat f g) l := by
  unfold State.bumpSat
  simp only []
  split
  · exact (h.bump ha).setFld hg
  · exact h.bump ha
theorem KeepsRegs.raise {s t : State} {l : List Nat} {p b : Nat} (h : KeepsRegs s t l) (ha : R.EVT_RAW p ∈ l) :
    KeepsRegs s (t.raise p b) l := h.setReg ha
theorem KeepsRegs.when {s t : State} {l : List Nat} {b : Bool} {f : State → State} (h : KeepsRegs s t l)
    (hf : ∀ u, KeepsRegs s u l → KeepsRegs s (f u) l) : KeepsRegs s (t.when b f) l := by
  unfold State.when
  split
  · exact hf t h
  · exact h

theorem KeepsPages.setReg {s t : State} {l : List Nat} {a : Nat} {v : DWord} (h : KeepsPages s t l) (ha : pageBase a ∈ l) :
    KeepsPages s (t.setReg a v) l := by
  intro b hb
  have : b ≠ a := fun e => hb (e ▸ ha)
  rw [State.raw_setReg, if_neg this]
  exact h b hb
theorem KeepsPages.setFld {s t : State} {l : List Nat} {f : Fld} {v : Nat} (h : KeepsPages s t l) (ha : pageBase f.reg ∈ l) :
    KeepsPages s (t.setFld f v) l := h.setReg ha
theorem KeepsPages.setFlag {s t : State} {l : List Nat} {f : Fld} {b : Bool} (h : KeepsPages s t l) (ha : pageBase f.reg ∈ l) :
    KeepsPages s (t.setFlag f b) l := h.setReg ha
theorem KeepsPages.bumpBy {s t : State} {l : List Nat} {f : Fld} {n : Nat} (h : KeepsPages s t l) (ha : pageBase f.reg ∈ l) :
    KeepsPages s (t.bumpBy f n) l := h.setReg ha
theorem KeepsPages.bump {s t : State} {l : List Nat} {f : Fld} (h : KeepsPages s t l) (ha : pageBase f.reg ∈ l) :
    KeepsPages s (t.bump f) l := h.setReg ha
theorem KeepsPages.inc {s t : State} {l : List Nat} {f : Fld} (h : KeepsPages s t l) (ha : pageBase f.reg ∈ l) :
    KeepsPages s (t.inc f) l := h.setReg ha
theorem KeepsPages.bumpSat {s t : State} {l : List Nat} {f g : Fld} (h : KeepsPages s t l) (ha : pageBase f.reg ∈ l)
    (hg : pageBase g.reg ∈ l) : KeepsPages s (t.bumpSat f g) l := by
  unfold State.bumpSat
  simp only []
  split
  · exact (h.bump ha).setFld hg
  · exact h.bump ha
theorem KeepsPages.raise {s t : State} {l : List Nat} {p b : Nat} (h : KeepsPages s t l) (ha : pageBase (R.EVT_RAW p) ∈ l) :
    KeepsPages s (t.raise p b) l := h.setReg ha
theorem KeepsPages.when {s t : State} {l : List Nat} {b : Bool} {f : State → State} (h : KeepsPages s t l)
    (hf : ∀ u, KeepsPages s u l → KeepsPages s (f u) l) : KeepsPages s (t.when b f) l := by
  unfold State.when
  split
  · exact hf t h
  · exact h

/-- An event sets its bit of EVT_RAW (R40) … -/
theorem State.event_raise (s : State) (p b : Nat) (h : b < 64) : (s.raise p b).event p b = true := by
  simp only [State.event, State.raw_raise]
  rw [Bits.getLsbD_put _ _ _ _ _ h]
  simp
/-- … and clears none. -/
theorem State.event_raise_mono (s : State) (p b q c : Nat) (h : s.event q c = true) : (s.raise p b).event q c = true := by
  by_cases hc : c < 64
  · unfold State.event State.raise at *
    rw [State.raw_setReg]
    split
    · rename_i e
      rw [Bits.getLsbD_put _ _ _ _ _ hc]
      split
      · rename_i h2
        have : c - b = 0 := by omega
        rw [this]; rfl
      · rw [← e]; exact h
    · exact h
  · unfold State.event at h
    rw [BitVec.getLsbD_of_ge _ _ (by omega)] at h
    exact absurd h (by decide)
theorem State.event_setReg_ne (s : State) (p b a : Nat) (v : DWord) (h : R.EVT_RAW p ≠ a) : (s.setReg a v).event p b = s.event p b := by
  simp [State.event, h]
theorem State.event_setFld_ne (s : State) (p b : Nat) (f : Fld) (v : Nat) (h : R.EVT_RAW p ≠ f.reg) :
    (s.setFld f v).event p b = s.event p b := s.event_setReg_ne p b _ _ h

/-- R44: a clamp event writes nothing but the log of its page. -/
theorem KeepsRegs.clampEvents {s t : State} {l : List Nat} {p ni off reason wrote kept n : Nat} (h : KeepsRegs s t l)
    (hl : ∀ a ∈ logRegs p, a ∈ l) : KeepsRegs s (t.clampEvents p ni off reason wrote kept n) l := by
  have h1 : R.EVT_RAW p ∈ l := hl _ (by simp [logRegs])
  have h2 : R.CLAMP_ADDR p ∈ l := hl _ (by simp [logRegs])
  have h3 : R.CLAMP_WROTE p ∈ l := hl _ (by simp [logRegs])
  have h4 : R.CLAMP_KEPT p ∈ l := hl _ (by simp [logRegs])
  have h5 : R.CLAMP_COUNT p ∈ l := hl _ (by simp [logRegs])
  unfold State.clampEvents
  split
  · exact h
  · have k1 := h.raise (b := 31) h1
    simp only []
    split <;> split
    · exact (k1.setFld h5).setFld h5
    · exact k1.setFld h5
    · exact ((((k1.setReg h2).setReg h3).setReg h4).setFld h5).setFld h5
    · exact (((k1.setReg h2).setReg h3).setReg h4).setFld h5

theorem KeepsRegs.refuse {s t : State} {l : List Nat} {ni a reason detail : Nat} {v : DWord} (h : KeepsRegs s t l)
    (hl : ∀ x ∈ logRegs (pageBase a), x ∈ l) : KeepsRegs s (t.refuse ni a reason v detail) l := h.clampEvents hl

theorem KeepsRegs.logWrite {s t : State} {l : List Nat} {ni a : Nat} {v : DWord} {c : List Nat} (h : KeepsRegs s t l)
    (hl : ∀ x ∈ logRegs (pageBase a), x ∈ l) : KeepsRegs s (t.logWrite ni a v c) l := by
  unfold State.logWrite
  split
  · exact h
  · exact h.clampEvents hl

/-- R42, R47: a full write stores into its own register and the log of its page, nowhere else. -/
theorem KeepsRegs.storeReg {s t : State} {l : List Nat} {ni a : Nat} {v : DWord} (h : KeepsRegs s t l) (ha : a ∈ l)
    (hl : ∀ x ∈ logRegs (pageBase a), x ∈ l) : KeepsRegs s (t.storeReg ni a v).1 l := by
  unfold State.storeReg
  split
  · dsimp only
    split
    · exact h
    · exact h.clampEvents hl
  · rename_i p _ r _ _
    dsimp only
    generalize writeWord t p r a v = o
    have k : KeepsRegs s (t.setReg a o.word) l := h.setReg ha
    exact k.logWrite hl

theorem State.only_setReg {s t : State} {a : Nat} {v : DWord} (h : t = { s with regs := t.regs }) :
    t.setReg a v = { s with regs := (t.setReg a v).regs } := by
  rw [h]
  rfl
theorem State.only_setFld {s t : State} {f : Fld} {v : Nat} (h : t = { s with regs := t.regs }) :
    t.setFld f v = { s with regs := (t.setFld f v).regs } := State.only_setReg h
theorem State.only_raise {s t : State} {p b : Nat} (h : t = { s with regs := t.regs }) :
    t.raise p b = { s with regs := (t.raise p b).regs } := State.only_setReg h

/-- R44: a clamp event changes nothing beside registers. -/
theorem State.clampEvents_rest (s : State) (p ni off reason wrote kept n : Nat) :
    s.clampEvents p ni off reason wrote kept n = { s with regs := (s.clampEvents p ni off reason wrote kept n).regs } := by
  unfold State.clampEvents
  split
  · rfl
  · have k1 : s.raise p 31 = { s with regs := (s.raise p 31).regs } := State.only_raise rfl
    simp only []
    split <;> split
    · exact State.only_setFld (State.only_setFld k1)
    · exact State.only_setFld k1
    · exact State.only_setFld (State.only_setFld (State.only_setReg (State.only_setReg (State.only_setReg k1))))
    · exact State.only_setFld (State.only_setReg (State.only_setReg (State.only_setReg k1)))
theorem State.logWrite_rest (s : State) (ni a : Nat) (v : DWord) (c : List Nat) :
    s.logWrite ni a v c = { s with regs := (s.logWrite ni a v c).regs } := by
  unfold State.logWrite
  split
  · rfl
  · exact s.clampEvents_rest _ _ _ _ _ _ _
theorem State.rest_setReg {s u : State} {a : Nat} {v : DWord} (h : u = { s.setReg a v with regs := u.regs }) :
    u = { s with regs := u.regs } := h
/-- R42: a full write changes nothing beside registers. -/
theorem State.storeReg_rest (s : State) (ni a : Nat) (v : DWord) :
    (s.storeReg ni a v).1 = { s with regs := (s.storeReg ni a v).1.regs } := by
  unfold State.storeReg
  split
  · dsimp only
    split
    · rfl
    · exact s.clampEvents_rest _ _ _ _ _ _ _
  · rename_i p _ r _ _
    dsimp only
    generalize writeWord s p r a v = o
    exact State.rest_setReg ((s.setReg a o.word).logWrite_rest ni a v o.clamps)

/-- R48, R59: on a page that is open, a register write does what its register does with it. -/
theorem State.gate_open (s : State) (q : Req) (a : Nat) (z : Size) (v : DWord) (op : State → State)
    (h1 : pageListed a = true) (h2 : pageMachine a = true → q.priv = true) (h3 : s.resetting (pageBase a) = false) :
    s.gateWrite q a z v op = op (s.respond false 0#64) := by
  unfold State.gateWrite
  rw [h1, h3]
  cases hm : pageMachine a <;> simp_all

/-! Fields of the register file after the shared writes. -/

theorem State.fld_setReg_same (s : State) (f : Fld) (v : DWord) : (s.setReg f.reg v).fld f = Bits.get v f.lo f.width := by
  simp [State.fld]
theorem State.fld_raise_ne (s : State) (p b : Nat) (f : Fld) (h : f.reg ≠ R.EVT_RAW p) : (s.raise p b).fld f = s.fld f := by
  simp [State.fld, State.raw_raise_ne _ _ _ _ h]
theorem State.flag_raise_ne (s : State) (p b : Nat) (f : Fld) (h : f.reg ≠ R.EVT_RAW p) : (s.raise p b).flag f = s.flag f := by
  simp [State.flag, State.fld_raise_ne _ _ _ _ h]
theorem State.fld_setFlag (s : State) (f : Fld) (b : Bool) (h : f.lo + f.width ≤ 64) (hw : 0 < f.width) : (s.setFlag f b).fld f = b2n b := by
  have h1 : (1 : Nat) < 2 ^ f.width := Nat.one_lt_two_pow (by omega)
  cases b <;> simp [State.setFlag, State.fld_setFld _ _ _ h, Nat.mod_eq_of_lt h1]
theorem State.fld_setFlag_ne (s : State) (f g : Fld) (b : Bool)
    (h : g.reg ≠ f.reg ∨ g.lo + g.width ≤ f.lo ∨ f.lo + f.width ≤ g.lo) : (s.setFlag f b).fld g = s.fld g := s.fld_setFld_ne f g _ h
theorem State.flag_setFlag_ne (s : State) (f g : Fld) (b : Bool)
    (h : g.reg ≠ f.reg ∨ g.lo + g.width ≤ f.lo ∨ f.lo + f.width ≤ g.lo) : (s.setFlag f b).flag g = s.flag g := s.flag_setFld_ne f g _ h
theorem State.event_setFlag_ne (s : State) (p b : Nat) (f : Fld) (v : Bool) (h : R.EVT_RAW p ≠ f.reg) :
    (s.setFlag f v).event p b = s.event p b := s.event_setReg_ne p b _ _ h
theorem State.event_regs (s t : State) (p b : Nat) (h : s.regs = t.regs) : s.event p b = t.event p b := by simp [State.event, State.raw, h]

end Sys2Proof.Machine
end

