-- ==== Sys2Proof/Laws/Hashes.lean ====
section
/-! SUPPORT. Lengths of what the SHA-256 functions answer: eight words at every stage, so 32 bytes of digest and of tag. -/
namespace Sys2Proof.Machine

theorem length_leBytes (n v : Nat) : (leBytes n v).length = n := by
  induction n generalizing v with
  | zero => rfl
  | succ n ih => simp [leBytes, ih]

theorem length_beBytes (n v : Nat) : (beBytes n v).length = n := by simp [beBytes, length_leBytes]

theorem Sha.length_round (p : Sha.Params) (h : List Nat) (kw : Nat × Nat) : (Sha.round p h kw).length = h.length := by
  unfold Sha.round
  split <;> rfl

theorem Sha.length_rounds (p : Sha.Params) (kws : List (Nat × Nat)) (h : List Nat) :
    (kws.foldl (Sha.round p) h).length = h.length := by
  induction kws generalizing h with
  | nil => rfl
  | cons kw kws ih => rw [List.foldl_cons, ih, Sha.length_round]

theorem Sha.length_compress (p : Sha.Params) (h : List Nat) (b : List Byte) : (Sha.compress p h b).length = h.length := by
  simp [Sha.compress, Sha.length_rounds]

theorem Sha.length_absorb (p : Sha.Params) (n : Nat) (h : List Nat) (bs : List Byte) : (Sha.absorb p n h bs).length = h.length := by
  induction n generalizing h bs with
  | zero => rfl
  | succ n ih => rw [Sha.absorb, ih, Sha.length_compress]

/-- A SHA-256 digest has 32 bytes. -/
theorem Sha.length_hash_zero (m : List Byte) : (Sha.hash 0 m).length = 32 := by
  have e : Sha.hash 0 m = Sha.finish Sha.p256 32 Sha.h256 m.length m := rfl
  have w : Sha.p256.w / 8 = 4 := rfl
  have l : Sha.h256.length = 8 := rfl
  simp [e, Sha.finish, List.length_flatMap, length_beBytes, Sha.length_absorb, w, l]

/-- A tag of HMAC with SHA-256 has 32 bytes. -/
theorem length_hmac_zero (k m : List Byte) : (hmac 0 k m).length = 32 := Sha.length_hash_zero _

end Sys2Proof.Machine
end

