-- ==== Sys2Proof/Laws/Memory.lean ====
section
/-! SUPPORT. Laws of memory beside the read after a write (Laws/State.lean): what stays outside a write, what a write of bytes reads
back as, and the canonical form kept by every way in which memory and registers are written. -/
namespace Sys2Proof.Machine

/-- What a loss of power or the first stage leaves of memory is in canonical form (State.goDark, State.zeroScratch). -/
theorem Memory.wf_filter (m : List (Nat × Byte)) (p : Nat × Byte → Bool) (h : Memory.wf m = true) : Memory.wf (m.filter p) = true :=
  SMap.wf_filter memDefault p m h

theorem State.reset_mem_wf : Memory.wf State.reset.mem = true := rfl

theorem State.byteAt_putMem_out (s : State) (a k : Nat) (bs : List Byte) (h : k < a ∨ a + bs.length ≤ k) :
    (s.putMem a bs).byteAt k = s.byteAt k := by
  rw [State.byteAt_putMem, if_neg (by omega)]

theorem State.bytesAt_putMem (s : State) (a : Nat) (bs : List Byte) : (s.putMem a bs).bytesAt a bs.length = bs := by
  apply List.ext_getElem
  · simp [State.bytesAt]
  · intro i h1 h2
    simp [State.bytesAt, State.byteAt_putMem, h2]

/-- A write to memory keeps the canonical form of the state. -/
theorem State.Canonical.putMem {s : State} (h : s.Canonical) (a : Nat) (bs : List Byte) : (s.putMem a bs).Canonical :=
  ⟨h.1, putBytes_wf s.mem a bs h.2⟩

/-- A write of a register keeps the canonical form of the state. -/
theorem State.Canonical.setReg {s : State} (h : s.Canonical) (a : Nat) (v : DWord) : (s.setReg a v).Canonical :=
  ⟨SMap.wf_put resetWord s.regs a v h.1, h.2⟩

theorem State.Canonical.setFld {s : State} (h : s.Canonical) (f : Fld) (v : Nat) : (s.setFld f v).Canonical :=
  State.Canonical.setReg h _ _

end Sys2Proof.Machine
end

