-- ==== Sys2Proof/WellFormed.lean ====
section
/-! DEFINITION. Which terms stand for a command that the hardware can be given: the checks that the operand types leave over. -/
namespace Sys2Proof

/-- R563: the bits that an upset changes differ. -/
def EccUpset.wellFormed : EccUpset → Bool
  | .none => true
  | .one _ => true
  | .two a b => decide (a ≠ b)
  | .three a b c => decide (a ≠ b ∧ a ≠ c ∧ b ≠ c)

/-- R290, Table Loom-2: a request of 1 to 64 bytes never crosses a 64-byte line; a write and a writeback carry their bytes. -/
def LoomPacket.wellFormed (k : LoomPacket) : Bool :=
  decide (k.addr.toNat % 64 + k.len.val < 64) && decide (k.data.length = if k.op.val = 3 ∨ k.op.val = 4 then k.len.val + 1 else 0)

/-- R268, R290: a request to a DRAM channel carries 1 to 64 bytes, which never cross a 64-byte line. -/
def DramStep.wellFormed : DramStep → Bool
  | .accept a (some bs) len _ _ => decide (len.val = bs.length ∧ 1 ≤ len.val ∧ a.toNat % 64 + len.val ≤ 64)
  | .accept a none len _ _ => decide (1 ≤ len.val ∧ a.toNat % 64 + len.val ≤ 64)
  | .serve _ => true
  | .age _ _ _ => true
  | .idle _ _ _ => true

/-- R463, R476: a data packet carries at most 1,024 bytes, the largest MPS of any transfer type. -/
def UsbReply.wellFormed : UsbReply → Bool
  | .data _ bs => decide (bs.length ≤ 1024)
  | .ack => true | .nak => true | .nyet => true | .stall => true | .ttErr => true | .error => true | .babble => true | .ping => true

/-- A term stands for a command: every check that its operands' types leave over. -/
def Instr.wellFormed : Instr → Bool
  | .demandEccError _ _ _ _ up => up.wellFormed
  | .l3Scrub _ _ _ up => up.wellFormed
  | .sramScrub _ _ up => up.wellFormed
  | .dmcScrub _ _ up => up.wellFormed
  | .loomRequest k => k.wellFormed
  | .dramRequest d => d.wellFormed
  | .data _ r => r.wellFormed
  | .control _ r => r.wellFormed
  | .splitTransaction _ _ (some r) => r.wellFormed
  | _ => true

end Sys2Proof
end

