-- ==== Sys2Proof/Tests/Slice0.lean ====
section
/-! SUPPORT. Checks of the model: terms that stand for no command, the manual's worked examples, published check values of the
standards it names, and, for every statement that assumes something, a state and operands that meet what it assumes. -/

namespace Sys2Proof.Tests
open Sys2Proof Sys2Proof.Machine

set_option Elab.async false

/-! ### States the theorems below are about -/

def payload64 : List Byte := (List.range 64).map (fun i => BitVec.ofNat 8 (i * 7))
def flashId : FlashId := ⟨0, false, false, 4, false, 0x0B#8, 8, 24⟩
/-- image header, AUTH = 2 (mode 0) or pinned (auth 1) -/
def imgHdr (auth : Nat) : List Byte :=
  leBytes 4 0x53525031 ++ leBytes 4 (1 + 256 * auth) ++ leBytes 4 64 ++ leBytes 4 (if auth = 1 then 0 else 4) ++ leBytes 4 0 ++ leBytes 4 5 ++ leBytes 8 0 ++ leBytes 32 87160620330775364919012828342971831526961142162586828282553824369943622434008 ++ List.replicate (256 - 64) 0#8
def bootable (mode pin : Nat) : State :=
  let h := imgHdr (if pin = 1 then 1 else 2)
  let img := h ++ payload64
  let fl := img.zipIdx.map (fun e => (e.2, e.1))
  let s := ((State.reset.setFld F.BOOT_STRAP_LATCHED 1).setFld F.BOOT_STRAP_MODE_USED mode).setFld F.BOOT_STRAP_BOOTSEL mode
  let s1 := { s with boot := { s.boot with flash := fl }, harts := s.harts.map (fun x => { x with running := true }) }
  if pin = 1 then { s1 with sec := { s1.sec with otp := (List.range 8).map (fun k => (48 + k, 86940253124852169114749925771239304525720328785233175201943511610058337887668 / 2 ^ (32 * k) % 2 ^ 32)) } } else s1
def recov (m : Nat) : State :=
  let s := (State.reset.setFld F.BOOT_STRAP_LATCHED 1).setFld F.BOOT_STRAP_MODE_USED m
  { s with harts := s.harts.map (fun x => { x with running := true }) }
/-- USB recovery with the service port attached -/
def recovU : State :=
  let s := (recov 2).attachService.setFld F.USBD_STAT_ATTACHED 1
  (s.setFld (F.PAGE_STAT_ENABLED P.USBD) 1).setFld F.USBD_STAT_VBUS 1
def snapKey : List Nat := [1, 2, 3, 4, 5, 6, 7, 8]
/-- snapshot header up to its tag (Table Boot-7) -/
def snapHead (good : Bool) : List Byte :=
  leBytes 4 (if good then 0x53525053 else 1) ++ leBytes 4 (1 + 256) ++ leBytes 8 0x08000040 ++ leBytes 4 7 ++ leBytes 12 0
/-- what the header's tag and the rest of the page hold -/
def snapRest : List Byte := List.replicate (4096 - 64) 0#8
/-- the tag of a snapshot (R142), keyed by what slot 2 loads from the OTP -/
def snapTag (good : Bool) : List Byte := hmac 0 (leBytes 32 0x0000000800000007000000060000000500000004000000030000000200000001) (snapHead good ++ snapRest)
def snapBytes (good : Bool) : List Byte := snapHead good ++ (snapTag good ++ snapRest)
/-- woken from Bivouac with a snapshot of one page declared and the key of slot 2 in the OTP -/
def snapBase : State :=
  let s := ((((recov 0).setFld F.PWR_SNAP_CTRL_COMPLETE 1).setFld F.PWR_SNAP_CTRL_PAGES 1).setFld F.PWR_SNAP_BASE_BASE 0)
  { s with power := { s.power with fromBivouac := true }, boot := { s.boot with resume := true }, sec := { s.sec with otp := (List.range 8).map (fun k => (144 + k, snapKey.getD k 0)) } }
def snapState (good : Bool) : State := snapBase.putMem 0x08000000 (snapBytes good)
def free0 : State := State.reset.setFlag F.SYSCFG_MODE_GUARDED false
def item0 : HeddleItem := { HeddleItem.blank 3 1 true none with cqe := true, len := 8, src := 0x01000100, dst := 0x01000200 }
def ent0 (kind port : Nat) : HeddleEntry := { kind := kind, inst := 0, gen := 1, prio := 1, haltOnErr := false, kickAdv := false, cq := 5, prefetch := 0, order := 4, base := 0x01001000, port := port, res := none, ctx := 0 }
def chan0 (kind port : Nat) (it : HeddleItem) : HeddleChannel := { e := ent0 kind port, state := 2, head := 3, tail := 4, pending := false, dropping := false, items := [it], waiting := [], out := 0 }
def inst0 : HeddleInstance := { gMode := 0, part := 0, prioMax := 3, vmid := 0, root := 0, chBase := 0, chCount := 4096, cqBase := 0, cqCount := 1024, tokens := 64, msgGroups := 65535, resMask := 0, out := 0, late := 0 }
def cq0 : HeddleQueue := { inst := 0, order := 4, irq := 1, msg := 0, base := 0x01002000, head := 0, tail := 0, p := true }
def work (kind port : Nat) (it : HeddleItem) : State :=
  let s := ((State.reset.setFld (F.PAGE_CTRL_ENABLE P.HEDDLE) 1).setFld (F.PAGE_STAT_ENABLED P.HEDDLE) 1)
  ({ (s.setFld F.HEDDLE_CHT_BASE_ADDR 0x8000).setFld (instStateF 0) 1 with heddle := { HeddleState.reset with ch := [(9, chan0 kind port it)], cache := [9], cq := [(5, cq0)], inst := [(0, inst0)] }, power := { PowerState.reset with heddleStopped := false } } : State).putMem 0x01000100 (payload64)
def on (s : State) (p : Nat) : State := (s.setFld (F.PAGE_CTRL_ENABLE p) 1).setFld (F.PAGE_STAT_ENABLED p) 1
def bus0 : OspiBus := ⟨0, false, false, 0, 4⟩
def cmd0 : OspiCommand := { bus := bus0, op := 5, effect := 0, poll := true, mask := 1, want := 0, pollOp := 5, addr := 0, addrBytes := [], dummy := 0, reads := 0, data := [], performed := false, after := 0 }
def reedOn (st src : Nat) : State :=
  let s := on State.reset P.REED
  ((s.setFld F.REED_STATE_STATE st).setFld F.REED_SRC_SRC src).modReed (fun r => { r with acc := 0x0000FFFF00000000#64, accepted := true, period := (4000000, 1) })
def cairnPending : State := ((State.reset.setGate 600 ⟨true, false, 0⟩).cairnStore 0 (4 * 150) 7).cairnStore 0 (0x2000 + 4 * 18) (2 ^ 24)
def shutOn : State := ((on State.reset P.SHUTTLE).setFld (F.SHUTTLE_CH_SEL_EN 5) 1).setFld (F.SHUTTLE_CH_SEL_PROD 5) 2
def timOn (n per duty : Nat) : State :=
  let s := ((on State.reset P.TIMER).setFld (F.TIMER_CTRL_EN n) 1).setFld (F.TIMER_COUNT_COUNT n) (if duty = 0 then per - 2 else duty - 1)
  { s with timer := { s.timer with force := if duty = 0 then [(4 * n, per)] else [(4 * n, per), (4 * n + 1, duty)] } }
def hartR (h : Nat) (f : Hart → Hart) : State := State.reset.modHart h (fun t => f { t with running := true, parked := false })
def hartS (h : Nat) (f : Hart → Hart) : State := free0.modHart h (fun t => f { t with running := true, parked := false })
def prec (t : Hart) : Hart := { (((t.setX 6 1000#64).setX 7 0xFFFFFFFFFFFFFFFD#64).setCsr 0x7C1 0x833#64) with acc := 0x1FF0000000000000012#128 }
def memR : State := (hartR 0 (fun t => (t.setX 6 0x01000100).setX 7 0xFFFFFFFFFFFFFF85)).putMem 0x01000100 [0x80#8, 1#8, 2#8, 3#8, 4#8, 5#8, 6#8, 0x87#8]
def dirtyR (l : Nat) : State :=
  let s := hartR 0 (fun t => t.setX 6 (BitVec.ofNat 64 l))
  { s with memory := { s.memory with lines := [⟨.l2 0, l, .m, true, 3⟩, ⟨.l1d 0, l, .m, true, 1⟩, ⟨.l2 0, l + 64, .m, true, 4⟩], stale := [(l + 5, 0x55#8)] } }
def belayQuiet (s : State) : State := { s with belay := { s.belay with test := none } }
def maintS (op : Nat) (ls : List CacheLine) : State :=
  { State.reset with memory := { MemState.reset with maint := some (op, 15), lines := ls, stale := [(0x80000045, 1#8)] } }
def txn0 : LoomTxn := { init := 3, target := 6, txid := 7, op := 0, addr := 0x80000000, len := 63, prio := 1, guar := false, res := none, ctx := 0, seq := 0, priv := false, pref := false, data := [], use := .nothing, level := 1, arrived := false, pick := 0, abandoned := false, lost := false }
def txnS (t : LoomTxn) : State := { ((hartS 3 id).setTokens t.init t.target 1).setFld (F.LOOM_NI_OUTSTANDING_OUT t.init) 1 with loom := { LoomState.reset with txns := [t], live := { LoomState.reset.live with quota := [] } } }
/-- a best-effort READ of one byte -/
def pkt0 : LoomPacket := { ini := 0, target := 6, op := 0, addr := 0x80000000, len := 0, prio := 0, priv := true, pref := false, io := false, ahead := false, cause := none, use := .nothing, data := [] }
def resTxn : LoomTxn := { txn0 with init := 8, target := 4, txid := 0, addr := 0x1000000, prio := 2, level := 2, res := some 5, ctx := 9 }
def reservedS : State := { State.reset with power := { PowerState.reset with phase := .run, heddleStopped := false }, loom := { LoomState.reset with live := { LoomState.reset.live with res := [(5, BitVec.ofNat 64 (1 + 16 * 8 + 256 * 4))] } } }
def pickS (released : List Nat) : State := { reservedS with loom := { reservedS.loom with queued := [(5, [resTxn])], guar := [(5, 1)], released := released, began := 9, live := { reservedS.loom.live with picks := [(9, 0x85#64)] } } }
def imageBytes : List Byte := leBytes 4 0x4D4F4F4C ++ leBytes 4 1 ++ leBytes 4 0x99 ++ List.replicate 3572 0#8
def imageS : State := (State.reset.putMem 0x01000000 imageBytes).setFld F.LOOM_IMAGE_BASE_ADDR 0x40000
def quietLoom (s : State) : State := ((s.setFld (F.LOOM_NI_STAT_CFG_EN 4) 0).setFld (F.LOOM_NI_STAT_CFG_EN 5) 0).setFld (F.LOOM_NI_STAT_CFG_EN 10) 0
def hotLoom : State := { State.reset.setFld F.LOOM_DRAM_PICKS_ALL 900 with loom := { LoomState.reset with began := 256, live := { LoomTable.empty with res := [(5, 0x9)] } }, memory := { MemState.reset with tempRate := 2 } }
def probeS : State := (on State.reset (P.LOOM_PROBE 7)).setFld (F.LOOM_PROBE_CTRL_PORT 7) 1
def instBytes (i : Nat) : List Byte := leBytes 8 (1 + 2 ^ 14 + 2 ^ 16 * 7) ++ leBytes 8 0 ++ leBytes 8 (64 * i + 2 ^ 16 * 64 + 2 ^ 32 * (32 * i) + 2 ^ 48 * 32) ++ leBytes 8 (2 + 2 ^ 16 * 2 ^ i) ++ List.replicate 32 0#8
def chanBytes (i gen q base : Nat) : List Byte := leBytes 8 (1 + 2 ^ 8 * i + 2 ^ 16 * gen + 2 ^ 32 * q + 2 ^ 56 * 4) ++ leBytes 8 base ++ leBytes 8 (3 + 2 ^ 16 * 5) ++ List.replicate 40 0#8
def queueBytes (i base : Nat) : List Byte := leBytes 8 (1 + 2 ^ 8 * i + 2 ^ 16 * 4 + 2 ^ 24 + 2 ^ 32 * 1536) ++ leBytes 8 base
def mgmtS : State :=
  let s := (((on (on State.reset P.HEDDLE) P.HEDDLE_MGMT).setFld F.HEDDLE_MGMT_INST_BASE_ADDR 0x1004).setFld F.HEDDLE_CHT_BASE_ADDR 0x1010).setFld F.HEDDLE_CQT_BASE_ADDR 0x1005
  let t := ((s.putMem (0x01004000 + 64 * 3) (instBytes 3)).putMem (0x01010000 + 64 * 200) (chanBytes 3 1 100 0x01006000)).putMem (0x01005000 + 16 * 100) (queueBytes 3 0x01007000)
  { t with power := { t.power with heddleStopped := false } }
def mgmtA : State := { (mgmtS.setFld (instStateF 3) 1).setFld (instGenF 3) 1 with heddle := { mgmtS.heddle with inst := [(3, { inst0 with chBase := 192, chCount := 64, cqBase := 96, cqCount := 32, tokens := 2, msgGroups := 8 })], cq := [(100, { cq0 with inst := 3 })] } }
def mgmtC : State := { mgmtA with heddle := { mgmtA.heddle with ch := [(200, { chan0 0 0 item0 with e := { ent0 0 0 with inst := 3, cq := 100 } }), (201, { chan0 0 0 item0 with e := ent0 0 0 })] } }
def okInst (s : State) (i : Nat) : HeddleInstance := match s.parseInstance (s.bytesAt (s.instEntryAt i) 64) with | .ok v => v | .error _ => inst0
def bobIt (op len : Nat) : HeddleItem := { item0 with op := op, len := len, param := 4096, src := 0x01000100, dst := 0x01008000 }
def bobK (op len : Nat) : HeddleChannel := { chan0 5 0x90 (bobIt op len) with e := { ent0 5 0x90 with ctx := 3 } }
def bobIn : List Byte := List.replicate 120 0#8 ++ leBytes 8 0x0011001000100010
def bobCfg (mode e : Nat) : Nat := mode + 4 * 1 + 64 * 64 + 2 ^ 24 * e + 2 ^ 32 * 40
def bobS (op len cfg : Nat) : State := ((on ((work 5 0x90 (bobIt op len)).setHch 9 (bobK op len)) P.BOBBIN).setFld F.L3_CFG_HEDDLE_ALLOC 0).putMem 0x01000100 bobIn |>.setReg (R.BOBBIN_CTX_CFG 3) (BitVec.ofNat 64 cfg)
def bobRaw : List Byte := leBytes 32 128893446777991801841433979636549117378633646408319301659695970978486
def pipeWord (dir ty speed mps interval phase port : Nat) : Nat := 5 + 2 ^ 7 * 2 + 2 ^ 11 * dir + 2 ^ 12 * ty + 2 ^ 14 * speed + 2 ^ 16 * mps + 2 ^ 27 + 2 ^ 31 + 2 ^ 32 * interval + 2 ^ 36 * phase + 2 ^ 48 * port
def usbIt : HeddleItem := { item0 with param := 0 }
def usbS (port : Nat) (it : HeddleItem) : State := (on (on (on (work 7 port it) P.USBH) P.USBHUB) P.USBD).setFld F.L3_CFG_HEDDLE_ALLOC 0
def usbH (it : HeddleItem) (w : Nat) : State := (((usbS 0x41 it).setReg (R.USBH_PIPE_CFG 1) (BitVec.ofNat 64 w)).setFld F.USBH_CTRL_RUN 1).setReg (R.USBHUB_PORT 0) 0x103#64
def splitS : State := let x := (usbH usbIt (pipeWord 0 2 1 64 0 0 1)).setPipe 1 { UsbPipe.idle with split := true }; ({ x with usb := { x.usb with tt := [⟨0, 1, 5, 2, false, false⟩] } } : State)
def dueS : State := let x := usbH usbIt (pipeWord 0 3 1 64 3 0 1); ({ x with usb := { x.usb with due := [(1, 1)] } } : State)
def fullTt : State := let x := usbH usbIt (pipeWord 0 2 1 64 0 0 1); ({ x with usb := { x.usb with tt := List.replicate 4 ⟨0, 7, 5, 2, false, false⟩ } } : State)
def usbD (port : Nat) (it : HeddleItem) : State :=
  let s := (((usbS port it).setFld F.USBD_CTRL_ATTACH 1).setFld F.USBD_STAT_VBUS 1).setFld F.USBD_STAT_ATTACHED 1
  (s.setFld (F.USBD_EPIN_CFG_EN 0) 1).setFld (F.USBD_EPOUT_CFG_EN 0) 1
def fieldS (kind port : Nat) (it : HeddleItem) : State :=
  let s := (work kind port it).setFld F.L3_CFG_HEDDLE_ALLOC 0
  let ps := [P.ETH 0, P.ETH 1, P.PTPCLK, P.UART 0, P.UART 2, P.SPI 0, P.SPI 1, P.I2C 0, P.ADC 0, P.ADC 1, P.GPIO]
  ps.foldl on s
def ethIt (len param : Nat) : HeddleItem := { item0 with len := len, param := param, src := 0x01000100, dst := 0x01008000 }
def ipFrame : List Byte := fillChecksums (List.replicate 6 0xFF#8 ++ List.replicate 6 2#8 ++ [8#8, 0#8] ++ [0x45#8, 0#8, 0#8, 46#8, 0#8, 1#8, 0#8, 0#8, 64#8, 17#8, 0#8, 0#8, 10#8, 0#8, 0#8, 1#8, 10#8, 0#8, 0#8, 2#8] ++ [0#8, 9#8, 0#8, 9#8, 0#8, 26#8, 0#8, 0#8] ++ List.replicate 18 7#8)
def tagFrame : List Byte := ipFrame.take 12 ++ [0x81#8, 0x00#8, 1#8, 0x23#8] ++ ipFrame.drop 12
def ethTxS (len param : Nat) : State := (fieldS 3 0x2B (ethIt len param)).putMem 0x01000100 (ipFrame ++ List.replicate 40 9#8)
def ethRxS (f : List Byte) (len : Nat) : State := (fieldS 2 0x2A (ethIt len 0)).setEth 1 ⟨[⟨f, 3 + 2 ^ 33, 77⟩], 0, [], []⟩
def ptpS : State := (((fieldS 0 0 item0).setFld F.PTPCLK_CTRL_EN 1).setFld F.PTPCLK_TIME_SEC 41).setFld F.PTPCLK_TIME_NS 999999000
def serIt (len param : Nat) : HeddleItem := { item0 with len := len, param := param, src := 0x01000100, dst := 0x01008000 }
def angIt : HeddleItem := { serIt 8 0x12340000 with op := 2 }
def uartS (kind port len : Nat) (u : UartPort) : State := (fieldS kind port (serIt len 0)).setUart 2 u
def spiS (hold : Nat) : State :=
  let s := fieldS 3 0x13 (serIt 3 (1 + hold))
  let k : HeddleChannel := { chan0 2 0x12 (serIt 3 0) with e := { ent0 2 0x12 with cq := 6 } }
  s.setHch 10 k
def heldRx : HeddleChannel := { chan0 2 0x12 { serIt 3 0 with started := true, done := 1, bytes := 1 } with e := { ent0 2 0x12 with cq := 6 } }
def spiHeld : State := ((spiS 0).setHch 10 heldRx).setSpi 1 ⟨some 1, []⟩
def i2cS (kind port param : Nat) : State := fieldS kind port (serIt 4 param)
def adcQ (done : Nat) : AdcSequence := ⟨some 0x12345678, done, BitVec.ofNat 64 (2 ^ 24 * 3 + 0o76543210), false, false, false⟩
def adcS (p : AdcPort) : State := ((fieldS 4 0x21 (serIt 8 0)).setAdc 1 p).setReg (R.ADC_TRIG 1) 7#64
def tethS (f : TetherState → TetherState) : State := (State.reset.setFld F.TETHER_CFG_LIVE_EN 1).modTether f
def key32 : List Byte := (List.range 32).map (fun i => BitVec.ofNat 8 (i * 3 + 1))
def keysS : State :=
  let s := (on (on State.reset P.KEYS) P.TRNG).setFld F.PWR_MON_VIN 24000
  { (s.setSlot 3 key32 15) with sec := { (s.setSlot 3 key32 15).sec with otp := [(20, 0x1234), (152, 5)], queue := [1#128, 2#128, 3#128, 4#128] } }
def lastQuarter : State := let x := keysS.setFld F.TRNG_STAT_STATE 2; { x with sec := { x.sec with quarters := 3 } }
def keysOff : State := (keysS.setReg (R.PAGE_CTRL P.KEYS) 0#64).setReg (R.PAGE_STAT P.KEYS) 0#64
def crIt (op len param : Nat) : HeddleItem := { item0 with op := op, len := len, param := param, src := 0x01000100, dst := 0x01008000 }
def crK (port ctx : Nat) (it : HeddleItem) : HeddleChannel := { chan0 6 port it with e := { ent0 6 port with ctx := ctx } }
def crS (port ctx : Nat) (it : HeddleItem) : State :=
  let s := (work 6 port it).setHch 9 (crK port ctx it)
  let s1 := ([P.AES, P.HASH, P.PKA, P.KEYS, P.TRNG].foldl on s).setFld F.L3_CFG_HEDDLE_ALLOC 0 |>.setFld F.TRNG_STAT_STATE 2
  { (s1.setSlot 3 key32 15) with sec := { (s1.setSlot 3 key32 15).sec with queue := [1#128, 2#128, 3#128, 4#128] } }
def pkaJ (op : Nat) (it : HeddleItem) (s : State) : PkaJob := ⟨op, it.param.testBit 0, none, s.bytesAt it.src (if op = 3 then 0 else it.len)⟩
def hashOn (x : State) : State := { x with sec := { x.sec with hash := [(1, ⟨(Sha.alg 0).2.1, 0⟩)] } }
def crA (mode : Nat) (it : HeddleItem) : State := (crS 0x80 0x13 it).setReg (R.AES_CTX_CFG 1) (BitVec.ofNat 64 mode)
def crcS : State := let s := (belayQuiet State.reset).setFld (F.BELAY_REACT_REACT 13) 0; ({ s with belay := { s.belay with crc := [(9, 5)] } } : State)
def wdogS : State := ((((on (belayQuiet free0) P.WDOG).setFld (F.WDOG_CTRL_EN 2) 1).setFld (F.WDOG_WARN_MS 2) 5).setFld (F.WDOG_LEFT_MS 2) 9).setFld (F.BELAY_REACT_REACT 18) 0
def screeS : State := (on State.reset P.SCREE).setFld F.SCREE_CTRL_ARM 1
/-! ### Terms that stand for no command (WellFormed) -/

/-- R563: an upset of two bits changes two different bits. -/
theorem test_wf_upset : Instr.wellFormed (.demandEccError 3 0 0x80000000 true (.two 5 5)) = false ∧
    Instr.wellFormed (.demandEccError 3 0 0x80000000 true (.two 5 6)) = true := by decide +kernel
theorem test_wf_l3_scrub : Instr.wellFormed (.l3Scrub 0 0 0 (.three 1 2 1)) = false := by decide +kernel
theorem test_wf_sram_scrub : Instr.wellFormed (.sramScrub .baseCamp 0 (.two 71 71)) = false := by decide +kernel
theorem test_wf_dmc_scrub : Instr.wellFormed (.dmcScrub 1 0 (.three 0 0 1)) = false := by decide +kernel
/-- R290: a request never crosses a line. -/
theorem test_wf_loom_request : Instr.wellFormed (.loomRequest { pkt0 with addr := 0x80000020, len := 32 }) = false ∧
    Instr.wellFormed (.loomRequest { pkt0 with addr := 0x80000020, len := 31 }) = true := by decide +kernel
/-- R268: 1 to 64 bytes of one line; a write carries the bytes it says. -/
theorem test_wf_dram_request : Instr.wellFormed (.dramRequest (.accept 0x80000001 none 64 false 0)) = false ∧
    Instr.wellFormed (.dramRequest (.accept 0x80000000 (some [1#8]) 2 false 0)) = false ∧
    Instr.wellFormed (.dramRequest (.accept 0x80000000 none 64 false 0)) = true := by decide +kernel
/-- R463: no packet is longer than 1,024 bytes. -/
theorem test_wf_data : Instr.wellFormed (.data 0 (.data false (List.replicate 1025 0#8))) = false := by decide +kernel
theorem test_wf_control : Instr.wellFormed (.control 0 (.data true (List.replicate 1025 0#8))) = false := by decide +kernel
theorem test_wf_split : Instr.wellFormed (.splitTransaction 0 true (some (.data true (List.replicate 1025 0#8)))) = false := by decide +kernel

/-- The state an outcome answers. -/
def after (o : Host.Outcome State Fault Refusal) : State := match o with | .next t => t | _ => State.reset

/-- The opcode table gives no row any bits, so no word spells a command. -/
theorem test_no_word_spells_a_command : decodeTableWord 32 0xFFFFFFFF = none := by decide
theorem test_idle : (after (step State.reset)).pending = [] ∧ (after (step State.reset)).regs ≠ [] := by decide +kernel

/-! ### The manual's worked examples -/

/-- 02: hart 0 stores 0x103 to BELAY PAGE_CTRL: two clamp events, one log entry. -/
theorem test_clamp_two_fields : let t := after (exec (.registerWrite ⟨0, true⟩ 0x10005008 .w 0x103) State.reset)
    t.raw (R.CLAMP_ADDR P.BELAY) = 0x80000008 ∧ t.raw (R.CLAMP_WROTE P.BELAY) = 0x103 ∧ t.raw (R.CLAMP_KEPT P.BELAY) = 1 ∧
      t.raw (R.CLAMP_COUNT P.BELAY) = 2 := by decide +kernel
/-- 02, step 4: a further clamp leaves a full log alone. -/
theorem test_clamp_full_log : let s := (State.reset.setReg (R.CLAMP_ADDR P.BELAY) 0x80000008).setReg (R.CLAMP_COUNT P.BELAY) 2
    let t := after (exec (.registerWrite ⟨0, true⟩ 0x10005018 .w 0xFFFFFFFF) s)
    t.raw (R.CLAMP_ADDR P.BELAY) = 0x80000008 ∧ t.raw (R.CLAMP_COUNT P.BELAY) = 3 := by decide +kernel
/-- R43: 48 is stored as 32 and 5,000 as 1,024, where powers of two from 16 to 1,024 are legal. -/
theorem test_nearest_member : (clampSet [16, 32, 64, 128, 256, 512, 1024] 48).val = some 32 ∧
    (clampSet [16, 32, 64, 128, 256, 512, 1024] 5000).val = some 1024 := by decide +kernel
/-- 05: slot A fails check 9: FAILCODE 9, slot B next, BOOT_RETRY 1. -/
theorem test_boot_fail : let t := after (exec .bootFail { State.reset with boot := { BootState.reset with phase := .failed 9 0 } })
    t.raw R.BOOT_FAILCODE = 9 ∧ t.fld F.BOOT_RETRY_COUNT = 1 ∧ t.fld F.BOOT_PREF_SLOT = 1 := by decide +kernel
/-- 08: a precise LDIVU by zero that takes entry 1. -/
theorem test_precise_divide_by_zero :
    let s := hartS 0 (fun t => { t.setCsr 0x7C1 0x833#64 with pc := 0x80001004#64, louNext := 1 })
    let t := (after (exec (.ldivu 0 5 6 0) s)).hart 0
    t.csrRaw 0x7C2 = 0x01031101#64 ∧ t.csrRaw 0x7C3 = 0x80001004#64 ∧ t.csrRaw 0x341 = 0x80001004#64 ∧ t.csrRaw 0x343 = 0x80001004#64 ∧
      t.csrRaw 0x342 = 24#64 ∧ t.xr 5 = 0#64 := by decide +kernel
/-- 08: CRC32C x10, x10, x11 encodes as 0x40B5_050B. -/
theorem test_crc32c_encoding : xoroudBits (LongOp.funct7 .crc32c) 10 10 11 = 0x40B5050B#64 := by decide +kernel
/-- Table Pipeline-5: exact results. -/
theorem test_long_operations : isqrt64 99#64 = 9#64 ∧ flog2 0x4020000000000000#64 = (0, 0x4008000000000000#64) ∧
    fexp2 0x4008000000000000#64 = (0, 0x4020000000000000#64) ∧ frcp 0#64 = (1, 0x7FF0000000000000#64) := by decide +kernel
/-- 09: 0x8123_4B40 lies in channel B at local address 0x0091_A540; its check block is 0x3812_3480. -/
theorem test_dram_map : dmcChannel 0x81234B40 = 1 ∧ dmcLocal 0x81234B40 = 0x0091A540 ∧ checkBlock State.reset 0x81234B40 = 2 * 0x38123480 + 1 := by
  decide +kernel
/-- 10, step 4: k = 6 releases 21, 21, 42 and 32 picks. -/
theorem test_shed : shedK 960 [128, 128, 256, 192] = 6 ∧ [128, 128, 256, 192].map (fun n => n / 6) = [21, 21, 42, 32] := by decide +kernel
/-- 11: with W = 32 and B = 136, bin 15 starts at 584. -/
theorem test_hist_bins : histBin 5 136 583 = 14 ∧ histBin 5 136 584 = 15 ∧ histBin 5 136 135 = 0 ∧ histBin 5 136 136 = 1 := by decide +kernel
/-- 12: TRIP_IN rises on an unclocked channel that forces AOUT_0–3 low and holds. -/
theorem test_trip_force :
    let s := (((on free0 P.SHUTTLE).setReg 0x10011404 0x000E000F).setReg 0x10011408 1).setReg 0x10011400 0x8020000A
    let t := after (exec (.unclockedForce (BitVec.ofNat 96 (2 ^ 10))) s)
    t.readReg R.SHUTTLE_PIN_FORCED = 0xF ∧ t.readReg (R.SHUTTLE_HELD 0) = 1 ∧ t.pinState = 0 := by decide +kernel
/-- 13: the fields of channel entry 100. -/
theorem test_channel_entry : (parseChannel (leBytes 8 0x0302002806010309 ++ leBytes 8 0 ++ leBytes 8 0x0020000000000000 ++ leBytes 8 0x86 ++
      List.replicate 32 0#8)).toOption.map (fun e => (e.1.kind, e.1.inst, e.1.gen, e.1.prio, e.1.cq, e.1.port)) = some (4, 3, 1, 2, 40, 0x20) := by decide +kernel
/-- 14: the codes of the first group at E = 2, and its 65 bits. -/
theorem test_bobbin_group : let u := Bobbin.codes 2 2 0 0 0 [100, 130, 161, 190, 218, 243, 266, 286, 302, 315, 324, 329, 330, 327, 320, 309]
    u = [40, 12, 0, 0, 0, 1, 1, 0, 1, 0, 1, 1, 1, 1, 0, 1] ∧ (Bobbin.groupBits u).length = 65 := by decide +kernel
/-- 15: GEN 255 advances to 1. -/
theorem test_gen_wraps : let t := after (exec (.resetSquash ⟨0, true⟩ 3) (mgmtA.setFld (instGenF 3) 255))
    t.fld (instGenF 3) = 1 ∧ t.fld (F.CLAMP_COUNT_COUNT P.HEDDLE_MGMT) = 0 := by decide +kernel
/-- 16: pipe 5 would put 6,528 into microframe 0: refused with reason 1 and that detail. -/
theorem test_pipe_refused :
    let w (addr interval phase port : Nat) : DWord := BitVec.ofNat 64 (addr + 2 ^ 7 + 3 * 2 ^ 12 + 1024 * 2 ^ 16 + 3 * 2 ^ 27 + 2 ^ 31 +
      2 ^ 32 * interval + 2 ^ 36 * phase + 2 ^ 48 * port)
    let s := (on (on State.reset P.USBH) P.USBHUB).setReg (R.USBH_PIPE_CFG 4) (w 6 0 0 3)
    let t := after (exec (.usbhPipeCfgWrite ⟨0, true⟩ 5 (w 7 0 0 4)) s)
    t.raw (R.CLAMP_KEPT P.USBH) = 0x19800000 ∧ t.fld (F.CLAMP_ADDR_REASON P.USBH) = 1 := by decide +kernel
/-- 18: the CRC-8 of the acknowledging frame, which commits REQ and clears ATTN. -/
theorem test_tether_ack : crc8 [0x40#8, 0x08#8, 0#8, 0#8, 0#8, 2#8, 0#8, 0#8, 0#8, 2#8] = 0x4D ∧
    (let t := after (exec (.tetherCrcCommit 8 [2#32, 2#32] 0x4D) ((tethS id).setReg R.TETHER_ATTN 2#64))
     t.fld F.TETHER_REQ_REQ = 2 ∧ t.raw R.TETHER_ATTN = 0#64 ∧ t.tether.frames = 1) := by decide +kernel
/-- 20: word 0x00 of the log entry of an injected DRAM error: 0x0000_0001_0001_8B08. -/
theorem test_log_entry : leNat ((State.reset.logBytes ⟨8, 3, 1, 0x81234B40, 0, true⟩ 1 true).take 8) = 0x0000000100018B08 := by decide +kernel

/-! ### Published check values of the standards the manual names -/

/-- CRC-32C of "123456789". -/
theorem test_crc32c : crc32c [0x31#8, 0x32#8, 0x33#8, 0x34#8, 0x35#8, 0x36#8, 0x37#8, 0x38#8, 0x39#8] = 0xE3069283 := by decide +kernel
/-- SHA-256 of "abc" (FIPS 180-4). -/
theorem test_sha256 : beNat (sha256 [0x61#8, 0x62#8, 0x63#8]) = 0xBA7816BF8F01CFEA414140DE5DAE2223B00361A396177A9CB410FF61F20015AD := by decide +kernel
/-- HMAC with SHA-256 of RFC 4231, test case 2. -/
theorem test_hmac_sha256 : beNat (hmac 0 (beBytes 4 0x4A656665) (beBytes 28 0x7768617420646F2079612077616E7420666F72206E6F7468696E673F)) =
    0x5BDCC146BF60754E6A042426089575C75A003F089D2739839DEC58B964EC3843 := by decide +kernel
/-- AES-128 of FIPS 197, appendix B. -/
theorem test_aes128 : beNat (Aes.encryptBlock (Aes.roundKeys (beBytes 16 0x2B7E151628AED2A6ABF7158809CF4F3C))
    (beBytes 16 0x3243F6A8885A308D313198A2E0370734)) = 0x3925841D02DC09FBDC118597196A0B32 := by decide +kernel

/-! ### What the statements assume is met -/

/-- What StepRunsTheCommandInFront assumes is met. -/
theorem witness_StepRunsTheCommandInFront : (∃ (c : Instr) (s : State) (rest : List Instr), s.pending = c :: rest) ∧ (∃ s : State, s.pending = []) :=
  ⟨⟨.bootFail, State.reset.withFront .bootFail, [], rfl⟩, ⟨State.reset, rfl⟩⟩

/-- What ResetIsCanonicalAndIdle assumes of an address is met. -/
theorem witness_ResetIsCanonicalAndIdle : ∃ a : Nat, a ∉ [R.SYSCFG_MODE, R.SYSCFG_RESET_CAUSE, R.SYSCFG_DEBUG_EN] ∧ State.reset.raw a ≠ 0 :=
  ⟨F.PWR_MON_VIN.reg, by decide +kernel⟩

/-- What StepKeepsCanonical assumes is met, by a step that runs a command and by one that lets a tick pass. -/
theorem witness_StepKeepsCanonical :
    (∃ s t : State, s.Canonical ∧ s.pending ≠ [] ∧ step s = .next t) ∧ (∃ s t : State, s.Canonical ∧ s.pending = [] ∧ step s = .next t) :=
  ⟨⟨_, _, by unfold State.Canonical; decide +kernel, by decide +kernel, show step (State.reset.withFront .bootFail) = _ from rfl⟩, ⟨State.reset, _, by unfold State.Canonical; decide +kernel, rfl, rfl⟩⟩

/-- What the clauses of RegisterPageAccesses assume is met. -/
theorem witness_RegisterPageAccesses :
    (∃ (s : State) (q : Req), OpenTo s q P.PWR) ∧
    (∃ (q : Req) (a : BitVec 40), 0x10000000 ≤ a.toNat ∧ a.toNat < 0x20000000 ∧ inDoorbell a.toNat = false ∧ (pageListed a.toNat = false ∨ (pageMachine a.toNat = true ∧ q.priv = false))) ∧
    (∃ (s : State) (q : Req) (page : Fin 70), OpenTo s q (pageAt page)) ∧
    (∃ (q : Req) (page : Fin 70), ((pageMachine (pageAt page) = true → q.priv = true))) ∧
    (∃ (s : State) (q : Req) (page : Fin 70) (v : Word), OpenTo s q (pageAt page) ∧ ((∀ b : Fin 32, v.getLsbD b.val = true → eventDefined (pageAt page) b.val = true))) ∧
    (∃ (s : State) (q : Req) (page : Fin 70) (v : Word), OpenTo s q (pageAt page) ∧ (∃ b : Fin 32, v.getLsbD b.val = true ∧ eventDefined (pageAt page) b.val = false)) ∧
    (∃ (s : State) (q : Req) (page : Fin 70), s.pageLocked (pageAt page) = false ∧ OpenTo s q (pageAt page) ∧ ((enableFixed (pageAt page) = true → s.flag (F.PAGE_CTRL_ENABLE (pageAt page)) = true))) ∧
    (∃ (s : State) (page : Fin 70), s.flag (F.PAGE_CTRL_ENABLE (pageAt page)) = true ∧ s.running (pageAt page) = false ∧ s.mayRun (pageAt page) = true) ∧
    (∃ (s : State) (page : Fin 70), s.flag (F.PAGE_CTRL_ENABLE (pageAt page)) = false ∧ s.running (pageAt page) = true ∧ s.resetting (pageAt page) = true) ∧
    (∃ (s : State) (page : Fin 70), s.flag (F.PAGE_CTRL_ENABLE (pageAt page)) = true ∧ s.running (pageAt page) = false ∧ s.mayRun (pageAt page) = false) ∧
    (∃ (s : State) (q : Req) (n : Fin 8), OpenTo s q (P.LOOM_PROBE n.val) ∧ s.pageLocked (P.LOOM_PROBE n.val) = false) ∧
    (∃ (s : State) (q : Req) (page : Fin 70), OpenTo s q (pageAt page) ∧ s.pageLocked (pageAt page) = false ∧ softResettable (pageAt page) = true ∧ s.wdogHolds (pageAt page) 0#64 = false) ∧
    (∃ (s : State) (page : Fin 70), s.resetting (pageAt page) = true ∧ s.running (pageAt page) = false ∧ s.held = []) ∧
    (∃ (s : State) (q : Req) (page : Fin 70), OpenTo s q (pageAt page) ∧ s.pageLocked (pageAt page) = false) ∧
    (∃ (s : State) (q : Req) (page : Fin 70), OpenTo s q P.PITON ∧ s.pageLocked (pageAt page) = false) ∧
    (∃ (s : State) (q : Req) (page : Fin 70), OpenTo s q P.PITON ∧ s.pageLocked (pageAt page) = true) :=
  ⟨⟨State.reset, ⟨3, true⟩, by unfold OpenTo; decide +kernel⟩,
   ⟨⟨3, false⟩, 0x10000040, by decide +kernel⟩,
   ⟨State.reset, ⟨3, true⟩, 69, by unfold OpenTo; decide +kernel⟩,
   ⟨⟨3, true⟩, 1, by decide +kernel⟩,
   ⟨State.reset.setReg (R.EVT_RAW P.OSPI) 0xFFFFFFFF, ⟨3, true⟩, 69, 0x80000000, by unfold OpenTo; decide +kernel⟩,
   ⟨State.reset, ⟨3, true⟩, 69, 0x7FFFFFFF, by unfold OpenTo; decide +kernel⟩,
   ⟨State.reset, ⟨3, true⟩, 43, by unfold OpenTo; decide +kernel⟩,
   ⟨((State.reset.setFld (F.PAGE_CTRL_ENABLE P.USBD) 1).setFld F.CLK_USB_PLL_EN 1).setFld F.CLK_STAT_LOCK 31, 46, by decide +kernel⟩,
   ⟨(State.reset.setFld (F.PAGE_STAT_ENABLED P.OSPI) 1).setFld (F.PAGE_STAT_RESETTING P.OSPI) 1, 69, by decide +kernel⟩,
   ⟨(State.reset.setFld (F.PAGE_CTRL_ENABLE P.USBD) 1).setFld F.CLK_STAT_LOCK 15, 46, by decide +kernel⟩,
   ⟨(State.reset.setReg (R.LOOM_PROBE_CTRL 7) 1).setReg (R.EVT_RAW (P.LOOM_PROBE 7)) 3, ⟨3, true⟩, 7, by unfold OpenTo; decide +kernel⟩,
   ⟨on (State.reset.setReg (R.EVT_RAW P.OSPI) 3) P.OSPI, ⟨3, true⟩, 69, by unfold OpenTo; decide +kernel⟩,
   ⟨State.reset.setFld (F.PAGE_STAT_RESETTING P.OSPI) 1, 69, by decide +kernel⟩,
   ⟨State.reset, ⟨3, true⟩, 69, by unfold OpenTo; decide +kernel⟩,
   ⟨State.reset, ⟨3, true⟩, 69, by unfold OpenTo; decide +kernel⟩,
   ⟨State.reset.setFld ⟨R.PITON_PAGE_LOCK 2, 5, 1⟩ 1, ⟨3, true⟩, 69, by unfold OpenTo; decide +kernel⟩⟩

/-- What the clauses of ReleaseStrapsAndBanks assume is met. -/
theorem witness_ReleaseStrapsAndBanks :
    (∃ (s : State), s.power.phase = .reset ∧ s.power.awaitPorst = true ∧ s.porReleases = true ∧ s.resetHeld = false) ∧
    (∃ (s : State), s.power.phase = .reset ∧ s.power.awaitPorst = true ∧ s.porReleases = true ∧ s.resetHeld = true) ∧
    (∃ (s : State), (s.power.phase ≠ .reset ∨ s.power.awaitPorst = false ∨ s.porReleases = false)) ∧
    (∃ (s : State) (a : Nat), s.railsOn = true ∧ s.power.samples = [a]) ∧
    (∃ (s : State), s.power.phase = .run) ∧
    (∃ (s : State), s.railsOn = true) ∧
    (∃ (s : State) (b : Fin 4), s.railsOn = true ∧ s.fld (bankFld b.val) = 0) :=
  ⟨⟨{ State.reset with power := { PowerState.reset with phase := .reset, awaitPorst := true } }, by decide +kernel⟩,
   ⟨{ State.reset with power := { PowerState.reset with phase := .reset, awaitPorst := true, thermHold := true } }, by decide +kernel⟩,
   ⟨{ State.reset with power := { PowerState.reset with phase := .reset, awaitPorst := true, vinUp := false } }, by decide +kernel⟩,
   ⟨{ State.reset with power := { PowerState.reset with samples := [3] } }, 3, by decide +kernel⟩,
   ⟨State.reset, by decide +kernel⟩,
   ⟨State.reset, by decide +kernel⟩,
   ⟨State.reset.setFld F.PWR_OUT_BANK_C 0, 2, by decide +kernel⟩⟩

/-- What the clauses of SupplyWarningsAndLimits assume is met. -/
theorem witness_SupplyWarningsAndLimits :
    (∃ (s : State), s.railsOn = true ∧ s.power.pfail = false) ∧
    (∃ (s : State), s.railsOn = true ∧ s.power.pfail = true) ∧
    (∃ (s : State) (act : Nat), s.power.grace = some act) ∧
    (∃ (s : State), s.power.phase = .run ∧ s.power.pfail = false) ∧
    (∃ (s : State) (tj : BitVec 9), s.power.phase = .run ∧ s.power.thermHold = false ∧ sext 9 tj.toNat < 112 ∧ (s.fld F.PWR_THERM_WARN : Int) ≤ sext 9 tj.toNat) ∧
    (∃ (s : State) (tj : BitVec 9), s.power.phase = .run ∧ s.power.thermHold = false ∧ sext 9 tj.toNat < 112 ∧ sext 9 tj.toNat ≤ (s.fld F.PWR_THERM_WARN : Int) - 5) ∧
    (∃ (s : State) (tj : BitVec 9), s.railsOn = true ∧ s.power.thermHold = false ∧ 112 ≤ sext 9 tj.toNat) ∧
    (∃ (s : State), s.railsOn = true ∧ s.power.thermHold = true) ∧
    (∃ (s : State), s.railsOn = true) ∧
    (∃ (s : State) (back : Bool), (back = true ∨ s.power.phase ≠ .run ∨ s.flag F.CLK_MON_CFG_LSE = false)) ∧
    (∃ (s : State), s.power.phase = .run ∧ s.flag F.CLK_MON_CFG_LSE = true) :=
  ⟨⟨(State.reset.setFld F.PWR_PFAIL_ACTION 2).setFld F.PWR_PFAIL_ARMED 1, by decide +kernel⟩,
   ⟨{ State.reset with power := { PowerState.reset with pfail := true, grace := some 1 } }, by decide +kernel⟩,
   ⟨{ State.reset with power := { PowerState.reset with grace := some 2 } }, 2, by decide +kernel⟩,
   ⟨State.reset, by decide +kernel⟩,
   ⟨State.reset, 106, by decide +kernel⟩,
   ⟨State.reset.setFld F.PWR_THERM_HOT 1, 99, by decide +kernel⟩,
   ⟨State.reset, 112, by decide +kernel⟩,
   ⟨{ State.reset with power := { PowerState.reset with phase := .reset, thermHold := true } }, by decide +kernel⟩,
   ⟨State.reset, by decide +kernel⟩,
   ⟨(State.reset.setFld F.CLK_AON_AUTO 1).setFld F.CLK_MON_CFG_LSE 0, false, by decide +kernel⟩,
   ⟨belayQuiet (State.reset.setFld F.CLK_MON_CFG_LSE 1), by decide +kernel⟩⟩

/-- What the clauses of SupplyLossAndReturn assume is met. -/
theorem witness_SupplyLossAndReturn :
    (∃ (s : State) (ns : BitVec 32), s.railsOn = true ∧ 10000 ≤ ns.toNat) ∧
    (∃ (s : State) (ns : BitVec 32), s.railsOn = true ∧ 1000 ≤ ns.toNat ∧ ns.toNat < 10000) ∧
    (∃ (s : State) (ns : BitVec 32), (s.railsOn = false ∨ ns.toNat < 1000)) ∧
    (∃ (s : State), s.power.phase = .off ∧ s.power.vinUp = false) ∧
    (∃ (s : State), s.power.phase = .bivouac ∧ s.power.vinUp = false) ∧
    (∃ (s : State), s.power.phase ≠ .off ∧ s.power.phase ≠ .bivouac ∧ s.power.vinUp = false) ∧
    (∃ (s : State), s.power.vinUp = true ∧ s.power.phase ≠ .bivouac) ∧
    (∃ (s : State), s.power.vinUp = true ∧ s.power.phase = .bivouac) ∧
    (∃ (s : State), s.power.vinUp = false) ∧
    (∃ (s : State), s.power.closing = some 1 ∧ s.memory.mram = []) ∧
    (∃ (s : State), (s.power.closing ≠ some 1 ∨ s.memory.mram ≠ [])) ∧
    (∃ (s : State), s.power.phase = .halted ∧ s.power.vinUp = true) ∧
    (∃ (s : State) (act : Fin 4), s.power.closing = some act.val ∧ 2 ≤ act.val ∧ s.memory.mram = []) ∧
    (∃ (s : State), s.power.closing = none ∧ s.fld F.PWR_REQ_IDLE = 3 ∧ s.mayStop = true ∧ s.memory.mram = []) ∧
    (∃ (s : State), s.power.closing = none ∧ s.fld F.PWR_REQ_IDLE = 3 ∧ s.mayStop = true ∧ s.memory.mram ≠ []) ∧
    (∃ (s : State), s.power.phase = .bivouac ∧ s.power.wakes ≠ 0 ∧ s.power.vinUp = true) :=
  ⟨⟨State.reset, 10000, by decide +kernel⟩,
   ⟨State.reset, 1000, by decide +kernel⟩,
   ⟨State.reset, 999, by decide +kernel⟩,
   ⟨{ State.reset with power := { PowerState.reset with phase := .off, vinUp := false } }, by decide +kernel⟩,
   ⟨{ State.reset.setFld F.PWR_WAKE_CFG_VIN_EN 1 with power := { PowerState.reset with phase := .bivouac, vinUp := false } }, by decide +kernel⟩,
   ⟨{ State.reset with power := { PowerState.reset with phase := .halted, vinUp := false } }, by decide +kernel⟩,
   ⟨(State.reset.putMem 0x01000000 [1#8]).putMem 0x08000000 [2#8], by decide +kernel⟩,
   ⟨{ State.reset with power := { PowerState.reset with phase := .bivouac } }, by decide +kernel⟩,
   ⟨{ State.reset with power := { PowerState.reset with phase := .off, vinUp := false } }, by decide +kernel⟩,
   ⟨{ State.reset with power := { PowerState.reset with closing := some 1 } }, by decide +kernel⟩,
   ⟨State.reset, by decide +kernel⟩,
   ⟨{ State.reset with power := { PowerState.reset with phase := .halted } }, by decide +kernel⟩,
   ⟨{ State.reset with power := { PowerState.reset with closing := some 2 } }, 2, by decide +kernel⟩,
   ⟨{ State.reset.setFld F.PWR_REQ_IDLE 3 with harts := Vector.replicate 4 { Hart.reset 0 with running := true, wfi := true } }, by decide +kernel⟩,
   ⟨{ State.reset.setFld F.PWR_REQ_IDLE 3 with harts := Vector.replicate 4 { Hart.reset 0 with running := true, wfi := true }, memory := { MemState.reset with mram := [⟨0x08000000, 0, 5⟩] } }, by decide +kernel⟩,
   ⟨{ State.reset with power := { PowerState.reset with phase := .bivouac, wakes := 16 } }, by decide +kernel⟩⟩

/-- What the clauses of PowerStateTransitions assume is met. -/
theorem witness_PowerStateTransitions :
    (∃ (s : State) (q : Req), OpenTo s q P.PWR) ∧
    (∃ (s : State), s.flag F.PWR_STATE_SWITCHING = true) ∧
    (∃ (s : State), s.power.phase = .run ∧ s.fld F.PWR_REQ_IDLE = 1 ∧ s.fld F.PWR_STATE_CUR ≤ 1 ∧ s.allWfi = true) ∧
    (∃ (s : State), s.power.phase = .run ∧ s.fld F.PWR_STATE_CUR = 2 ∧ s.power.closing = none ∧ (s.power.wakes.testBit 4 = true ∨ s.visible.any (fun h => s.wakeCond h || s.localPending h) = true)) ∧
    (∃ (s : State), s.fld F.PWR_REQ_IDLE = 2 ∧ s.mayStop = true) ∧
    (∃ (s : State) (cs : Bool), s.power.phase = .run ∧ s.fld F.PWR_STATE_CUR = 3 ∧ s.power.closing = none ∧ s.power.heldKicks = [] ∧ (s.power.wakes ≠ 0 ∨ (cs = true ∧ s.bankLive 0 = true) ∨ s.stopCond = true)) ∧
    (∃ (s : State) (n : Fin 4) (level : Bool), s.aonFed = true ∧ level = (s.fld F.PWR_WAKE_CFG_POL).testBit n.val) ∧
    (∃ (s : State) (n : Fin 4) (level : Bool), s.aonFed = true ∧ level ≠ (s.fld F.PWR_WAKE_CFG_POL).testBit n.val) :=
  ⟨⟨State.reset, ⟨0, true⟩, by unfold OpenTo; decide +kernel⟩,
   ⟨(State.reset.setFld F.PWR_STATE_SWITCHING 1).setFld F.PWR_REQ_RUN 0, by decide +kernel⟩,
   ⟨{ State.reset.setFld F.PWR_REQ_IDLE 1 with harts := Vector.replicate 4 { Hart.reset 0 with running := true, wfi := true } }, by decide +kernel⟩,
   ⟨{ State.reset.setFld F.PWR_STATE_CUR 2 with power := { PowerState.reset with wakes := 16 } }, by decide +kernel⟩,
   ⟨{ State.reset.setFld F.PWR_REQ_IDLE 2 with harts := Vector.replicate 4 { Hart.reset 0 with running := true, wfi := true, x := [(1, 5#64)] } }, by decide +kernel⟩,
   ⟨State.reset.setFld F.PWR_STATE_CUR 3, true, by decide +kernel⟩,
   ⟨(State.reset.setFld F.PWR_STATE_CUR 3).setFld F.PWR_WAKE_CFG_WAKE_EN 15, 3, false, by decide +kernel⟩,
   ⟨State.reset, 1, true, by decide +kernel⟩⟩

/-- What the clauses of SnapshotsRtcAndClockMeasurement assume is met. -/
theorem witness_SnapshotsRtcAndClockMeasurement :
    (∃ (s : State) (q : Req) (n : Fin 65), OpenTo s q P.PWR ∧ 1 ≤ n.val ∧ s.fld F.PWR_SNAP_BASE_BASE + n.val ≤ 2048) ∧
    (∃ (s : State) (q : Req) (n : Fin 65), OpenTo s q P.PWR ∧ 1 ≤ n.val ∧ 2048 < s.fld F.PWR_SNAP_BASE_BASE + n.val) ∧
    (∃ (s : State), s.flag F.PWR_SNAP_CTRL_BUSY = true ∧ s.power.snapWait = 0) ∧
    (∃ (s : State) (q : Req), OpenTo s q P.PWR) ∧
    (∃ (s : State), s.aonTicks = true ∧ s.flag F.RTC_CTRL_EN = true ∧ s.flag F.RTC_CTRL_ALARM_EN = true) ∧
    (∃ (s : State), s.aonTicks = true ∧ s.flag F.RTC_CTRL_EN = true ∧ s.flag F.RTC_CTRL_PERIOD_EN = true ∧ s.flag F.RTC_CTRL_ALARM_EN = false) ∧
    (∃ (s : State) (q : Req), OpenTo s q P.CLK) ∧
    (∃ (s : State), s.power.phase = .run ∧ s.power.measuring = true) :=
  ⟨⟨State.reset, ⟨2, true⟩, 64, by unfold OpenTo; decide +kernel⟩,
   ⟨State.reset.setFld F.PWR_SNAP_BASE_BASE 2040, ⟨2, true⟩, 9, by unfold OpenTo; decide +kernel⟩,
   ⟨State.reset.setFld F.PWR_SNAP_CTRL_BUSY 1, by decide +kernel⟩,
   ⟨State.reset.setFld F.PWR_SNAP_CTRL_COMPLETE 1, ⟨2, true⟩, by unfold OpenTo; decide +kernel⟩,
   ⟨(((State.reset.setFld F.RTC_CTRL_EN 1).setFld F.RTC_CTRL_ALARM_EN 1).setFld F.RTC_ALARM_ALARM 77).setFld F.CLK_STAT_LSE_OK 1, by decide +kernel⟩,
   ⟨((((State.reset.setFld F.RTC_CTRL_EN 1).setFld F.RTC_CTRL_PERIOD_EN 1).setFld F.RTC_PERIOD_SHIFT 5).setFld F.RTC_COUNT_TICKS 70).setFld F.CLK_STAT_LSE_OK 1, by decide +kernel⟩,
   ⟨State.reset.setFld F.CLK_MEAS_RESULT_DONE 1, ⟨0, true⟩, by unfold OpenTo; decide +kernel⟩,
   ⟨{ State.reset with power := { PowerState.reset with measuring := true } }, by decide +kernel⟩⟩

/-- What the clauses of FirstStageBootsAndRetries assume is met. -/
theorem witness_FirstStageBootsAndRetries :
    (∃ (s : State) (f : FlashId), s.stageReady 0 = true ∧ (s.hart 0).running = true ∧ slotOffset (s.fld F.BOOT_PREF_SLOT) + 256 ≤ 2 ^ f.log2.val ∧ s.bootVerdict none false = none) ∧
    (∃ (s : State) (f : FlashId) (err : Option (Fin 11)) (c : Nat), s.stageReady 0 = true ∧ (s.hart 0).running = true ∧ slotOffset (s.fld F.BOOT_PREF_SLOT) + 256 ≤ 2 ^ f.log2.val ∧ s.bootVerdict err false = some c) ∧
    (∃ (s : State), s.stageReady 0 = true ∧ (s.hart 0).running = true) ∧
    (∃ (s : State) (entry : Nat), s.boot.phase = .passed entry ∧ s.fld F.BOOT_STRAP_MODE_USED ≠ 2 ∧ s.romRuns = true) ∧
    (∃ (s : State), (s.hart 0).debug = true) ∧
    (∃ (s : State) (entry : Nat), s.boot.phase = .passed entry ∧ s.fld F.BOOT_STRAP_MODE_USED = 2) ∧
    (∃ (s : State) (code : Nat) (slot : Nat), s.boot.phase = .failed code slot ∧ code < 128 ∧ slot < 2) ∧
    (∃ (s : State) (n : Nat), s.boot.phase = .waiting n) ∧
    (∃ (s : State), s.stageReady 1 = true ∧ s.bootVerdict none true = none) ∧
    (∃ (s : State), s.stageReady 1 = true) :=
  ⟨⟨bootable 0 0, flashId, by decide +kernel⟩,
   ⟨{ bootable 0 0 with boot := BootState.reset }, flashId, none, 2, by decide +kernel⟩,
   ⟨bootable 0 0, by decide +kernel⟩,
   ⟨{ (State.reset.setFlag F.SYSCFG_MODE_GUARDED false).modHart 0 (fun t => { t with running := true }) with boot := { BootState.reset with phase := .passed 64 } }, 64, by decide +kernel⟩,
   ⟨{ State.reset.modHart 0 (fun t => { t with running := true, debug := true }) with boot := { BootState.reset with phase := .passed 64 } }, by decide +kernel⟩,
   ⟨{ recov 2 with boot := { BootState.reset with phase := .passed 64 } }, 64, by decide +kernel⟩,
   ⟨{ State.reset with boot := { BootState.reset with phase := .failed 11 1 } }, 11, 1, by decide +kernel⟩,
   ⟨{ State.reset with boot := { BootState.reset with phase := .waiting 4 } }, 4, by decide +kernel⟩,
   ⟨bootable 1 1, by decide +kernel⟩,
   ⟨bootable 1 1, by decide +kernel⟩⟩

theorem snapHead_length (good : Bool) : (snapHead good).length = 32 := by simp [snapHead, length_leBytes]
theorem snapTag_length (good : Bool) : (snapTag good).length = 32 := length_hmac_zero _ _
theorem snapBytes_length (good : Bool) : (snapBytes good).length = 4096 := by
  simp only [snapBytes, List.length_append, snapHead_length, snapTag_length, snapRest, List.length_replicate]

theorem snapState_range (good : Bool) : (snapState good).snapshot = (0x08000000, 4096) := by cases good <;> decide +kernel
theorem snapState_bytes (good : Bool) : (snapState good).bytesAt (snapState good).snapshot.1 (snapState good).snapshot.2 = snapBytes good := by
  rw [snapState_range]
  have h := State.bytesAt_putMem snapBase 0x08000000 (snapBytes good)
  rw [snapBytes_length] at h
  exact h
theorem snapState_slot : (snapState true).loadSlots.slot 2 = some ⟨0x0000000800000007000000060000000500000004000000030000000200000001#256, 2#4⟩ := by decide +kernel
theorem snapState_tag : (snapState true).loadSlots.snapTagOk (snapBytes true) = true := by
  have a : (snapBytes true).take 0x20 = snapHead true := by rw [snapBytes, List.take_left' (snapHead_length true)]
  have b : (snapBytes true).drop 0x20 = snapTag true ++ snapRest := by rw [snapBytes, List.drop_left' (snapHead_length true)]
  have c : (snapBytes true).drop 0x40 = snapRest := by
    rw [show 0x40 = 0x20 + 0x20 from rfl, ← List.drop_drop, b, List.drop_left' (snapTag_length true)]
  have d : slice 0x20 32 (snapBytes true) = snapTag true := by
    simp only [slice, b, List.take_left' (snapTag_length true), snapTag_length, Nat.sub_self, List.replicate_zero, List.append_nil]
  rw [State.snapTagOk, snapState_slot, a, c, d]
  exact beq_self_eq_true (snapTag true)
theorem snapState_header : (snapState true).snapHeaderOk (snapBytes true) = true := by decide +kernel
theorem snapState_good : (snapState true).power.phase = .run ∧ (snapState true).flag F.BOOT_STRAP_LATCHED = true ∧ (snapState true).boot.phase = .start ∧
    (snapState true).resumeDue = true ∧ ((snapState true).hart 0).running = true ∧ (snapState true).flag F.PWR_SNAP_CTRL_COMPLETE = true := by decide +kernel
theorem snapState_clean : (snapState true).anyPoison 0x08000000 4096 = false := by decide +kernel
theorem snapState_bad : (snapState false).power.phase = .run ∧ (snapState false).flag F.BOOT_STRAP_LATCHED = true ∧ (snapState false).boot.phase = .start ∧
    (snapState false).resumeDue = true ∧ ((snapState false).hart 0).running = true ∧ (snapState false).fld F.BOOT_STRAP_MODE_USED = 0 := by decide +kernel
theorem snapState_bad_header : (snapState false).snapHeaderOk (snapBytes false) = false := by decide +kernel

/-- What the clauses of HartParkingResumeAndRecovery assume is met. -/
theorem witness_HartParkingResumeAndRecovery :
    (∃ (s : State) (h : Fin 4), h.val ∈ s.boot.romHarts ∧ (s.hart h.val).running = true ∧ (s.hart h.val).parked = false ∧ (s.hart h.val).debug = false ∧ (s.hart h.val).pc = 0#64) ∧
    (∃ (s : State) (h : Fin 4), s.locksSet = true ∧ (s.hart h.val).parked = true ∧ (s.hart h.val).running = true ∧ (s.hart h.val).debug = false ∧ s.fld (F.SYSCFG_HART_RELEASE_ADDR h.val) ≠ 0 ∧ ((s.hart h.val).wfi = false ∨ s.pendingOf (1536 + h.val) = true)) ∧
    (∃ (s : State) (h : Fin 4), (s.locksSet = false ∨ (s.hart h.val).parked = false ∨ s.fld (F.SYSCFG_HART_RELEASE_ADDR h.val) = 0)) ∧
    (∃ (s : State), s.power.phase = .run ∧ s.flag F.BOOT_STRAP_LATCHED = true ∧ s.boot.phase = .start ∧ s.resumeDue = true ∧ (s.hart 0).running = true ∧ s.flag F.PWR_SNAP_CTRL_COMPLETE = true ∧ s.snapshot.1 + s.snapshot.2 ≤ 0x08800000 ∧ s.anyPoison s.snapshot.1 s.snapshot.2 = false ∧ s.snapHeaderOk (s.bytesAt s.snapshot.1 s.snapshot.2) = true ∧ s.loadSlots.snapTagOk (s.bytesAt s.snapshot.1 s.snapshot.2) = true) ∧
    (∃ (s : State), s.power.phase = .run ∧ s.flag F.BOOT_STRAP_LATCHED = true ∧ s.boot.phase = .start ∧ s.resumeDue = true ∧ (s.hart 0).running = true ∧ s.fld F.BOOT_STRAP_MODE_USED = 0 ∧ (s.flag F.PWR_SNAP_CTRL_COMPLETE = false ∨ s.snapHeaderOk (s.bytesAt s.snapshot.1 s.snapshot.2) = false)) ∧
    (∃ (s : State), s.inRecovery 2 = true ∧ s.serviceUp = true ∧ s.fld F.BOOT_RECOVERY_STATE ≤ 1) ∧
    (∃ (s : State), s.power.phase = .run ∧ s.serviceUp = true) ∧
    (∃ (s : State), s.inRecovery 2 = true ∧ s.serviceUp = true ∧ s.fld F.BOOT_RECOVERY_STATE ≤ 3) ∧
    (∃ (s : State) (entry : Nat), s.boot.phase = .detaching entry ∧ s.fld F.BOOT_STRAP_MODE_USED = 2 ∧ s.romRuns = true) ∧
    (∃ (s : State), s.tetherHears = true ∧ s.inRecovery 3 = true ∧ (s.fld F.BOOT_RECOVERY_STATE = 0 ∨ s.fld F.BOOT_RECOVERY_STATE = 3)) :=
  ⟨⟨{ free0 with harts := State.reset.harts.map (fun x => { x with running := true }), boot := { BootState.reset with romHarts := [1, 2, 3] } }, 3, by decide +kernel⟩,
   ⟨{ free0.setFld (F.SYSCFG_HART_RELEASE_ADDR 2) 0x10000 with harts := State.reset.harts.map (fun x => { x with running := true, parked := true }), boot := { BootState.reset with phase := .done } }, 2, by decide +kernel⟩,
   ⟨free0, 2, by decide +kernel⟩,
   ⟨snapState true, snapState_good.1, snapState_good.2.1, snapState_good.2.2.1, snapState_good.2.2.2.1, snapState_good.2.2.2.2.1, snapState_good.2.2.2.2.2,
    by rw [snapState_range]; decide, by rw [snapState_range]; exact snapState_clean, by rw [snapState_bytes]; exact snapState_header,
    by rw [snapState_bytes]; exact snapState_tag⟩,
   ⟨snapState false, snapState_bad.1, snapState_bad.2.1, snapState_bad.2.2.1, snapState_bad.2.2.2.1, snapState_bad.2.2.2.2.1, snapState_bad.2.2.2.2.2,
    .inr (by rw [snapState_bytes]; exact snapState_bad_header)⟩,
   ⟨{ recovU with boot := { recovU.boot with received := 300 } }, by decide +kernel⟩,
   ⟨recovU, by decide +kernel⟩,
   ⟨{ recovU.setFld F.BOOT_RECOVERY_STATE 3 with boot := { recovU.boot with received := 300 } }, by decide +kernel⟩,
   ⟨{ recovU.setFlag F.SYSCFG_MODE_GUARDED false with boot := { recovU.boot with phase := .detaching 64 } }, 64, by decide +kernel⟩,
   ⟨recov 3, by decide +kernel⟩⟩

/-- What the clauses of LifecycleUnlockAndResetRequests assume is met. -/
theorem witness_LifecycleUnlockAndResetRequests :
    (∃ (s : State) (q : Req), OpenTo s q P.SYSCFG ∧ s.flag F.PITON_OTP_LOCK_LOCK = false ∧ s.fld F.SYSCFG_LIFECYCLE_PENDING = 0) ∧
    (∃ (s : State) (q : Req), OpenTo s q P.SYSCFG ∧ (s.flag F.PITON_OTP_LOCK_LOCK = true ∨ s.fld F.SYSCFG_LIFECYCLE_PENDING ≠ 0)) ∧
    (∃ (s : State) (q : Req), OpenTo s q P.SYSCFG ∧ s.flag F.PITON_OTP_LOCK_LOCK = false ∧ (s.fld F.SYSCFG_UNLOCK_STAT_GRANTED).testBit 2 = true ∧ s.fld F.SYSCFG_LIFECYCLE_PENDING = 1) ∧
    (∃ (s : State) (q : Req), OpenTo s q P.SYSCFG ∧ (s.flag F.PITON_OTP_LOCK_LOCK = true ∨ (s.fld F.SYSCFG_UNLOCK_STAT_GRANTED).testBit 2 = false ∨ s.fld F.SYSCFG_LIFECYCLE_PENDING ≠ 1)) ∧
    (∃ (s : State) (q : Req), OpenTo s q P.SYSCFG ∧ s.flag F.PITON_DEBUG_LOCK_LOCK = false ∧ s.running P.TRNG = true ∧ s.fld F.TRNG_STAT_STATE ≠ 4) ∧
    (∃ (s : State) (q : Req), OpenTo s q P.SYSCFG ∧ s.flag F.PITON_DEBUG_LOCK_LOCK = true) ∧
    (∃ (s : State), s.sec.waiting = [.challenge] ∧ s.fld F.TRNG_STAT_STATE = 2 ∧ s.sec.quarters = 0 ∧ 48 < s.sec.queue.length) ∧
    (∃ (s : State) (q : Req), OpenTo s q P.SYSCFG ∧ s.boot.challengeLive = true) ∧
    (∃ (s : State) (q : Req), OpenTo s q P.SYSCFG) ∧
    (∃ (s : State), s.power.phase = .run ∧ s.guarded = false ∧ s.boot.phase = .start ∧ s.flag F.BOOT_STRAP_LATCHED = true ∧ s.fld F.PWR_STATE_CUR ≤ 1 ∧ s.fld F.BOOT_STRAP_BOOTSEL = 0 ∧ s.power.fromBivouac = false ∧ (∀ h : Fin 4, (s.hart h.val).running = false ∧ (s.hart h.val).resetHalt = false)) ∧
    (∃ (s : State), s.power.phase = .reset ∧ s.power.awaitPorst = false ∧ s.resetHeld = false ∧ s.flag F.BOOT_STRAP_LATCHED = false) ∧
    (∃ (s : State) (n : Fin 2), s.aonFed = true ∧ (s.fld F.KEYS_TAMPER_CFG_EN).testBit n.val = true ∧ (s.power.phase ≠ .run ∨ s.flag F.KEYS_TAMPER_CFG_ERASE_KEYS = false)) ∧
    (∃ (s : State) (n : Fin 2), s.power.phase = .run ∧ (s.power.vinUp || s.power.vbatUp) = true ∧ (s.fld F.KEYS_TAMPER_CFG_EN).testBit n.val = true ∧ s.flag F.KEYS_TAMPER_CFG_ERASE_KEYS = true) :=
  ⟨⟨State.reset, ⟨0, true⟩, by unfold OpenTo; decide +kernel⟩,
   ⟨State.reset.setFld F.SYSCFG_LIFECYCLE_PENDING 1, ⟨0, true⟩, by unfold OpenTo; decide +kernel⟩,
   ⟨(State.reset.setFld F.SYSCFG_UNLOCK_STAT_GRANTED 4).setFld F.SYSCFG_LIFECYCLE_PENDING 1, ⟨0, true⟩, by unfold OpenTo; decide +kernel⟩,
   ⟨State.reset, ⟨0, true⟩, by unfold OpenTo; decide +kernel⟩,
   ⟨State.reset.setFld (F.PAGE_STAT_ENABLED P.TRNG) 1, ⟨0, true⟩, by unfold OpenTo; decide +kernel⟩,
   ⟨State.reset.setFld F.PITON_DEBUG_LOCK_LOCK 1, ⟨0, true⟩, by unfold OpenTo; decide +kernel⟩,
   ⟨{ State.reset.setFld F.TRNG_STAT_STATE 2 with sec := { SecurityState.reset with waiting := [.challenge], queue := (List.range 60).map (fun i => BitVec.ofNat 128 (i * 77777777777777777)) } }, by decide +kernel⟩,
   ⟨{ State.reset with boot := { BootState.reset with challengeLive := true } }, ⟨0, true⟩, by unfold OpenTo; decide +kernel⟩,
   ⟨State.reset, ⟨0, true⟩, by unfold OpenTo; decide +kernel⟩,
   ⟨free0.setFld F.BOOT_STRAP_LATCHED 1, by decide +kernel⟩,
   ⟨{ State.reset with power := { PowerState.reset with phase := .reset } }, by decide +kernel⟩,
   ⟨((State.reset.setFld F.KEYS_TAMPER_CFG_EN 3).setFld F.KEYS_TAMPER_CFG_ERASE_KEYS 0).setFld F.KEYS_TAMPER_CFG_ERASE_RETAIN 0, 1, by decide +kernel⟩,
   ⟨keysS.setFld F.KEYS_TAMPER_CFG_EN 3 |>.setFld F.KEYS_TAMPER_CFG_ERASE_KEYS 1, 1, by decide +kernel⟩⟩

/-- What the clauses of OspiCommandsWindowAndItems assume is met. -/
theorem witness_OspiCommandsWindowAndItems :
    (∃ (s : State) (q : Req), OpenTo s q P.OSPI ∧ s.boot.command = none ∧ s.ioLive P.OSPI = true) ∧
    (∃ (s : State) (q : Req) (c : OspiCommand), OpenTo s q P.OSPI ∧ s.boot.command = some c) ∧
    (∃ (s : State) (c : OspiCommand) (answer : List Byte), s.ioLive P.OSPI = true ∧ s.bankLive 0 = true ∧ s.boot.polling = none ∧ s.boot.command = some c ∧ c.performed = false ∧ c.poll = false ∧ c.reads ≤ 256 ∧ answer.length = c.reads ∧ s.boot.xip = []) ∧
    (∃ (s : State) (c : OspiCommand), s.ioLive P.OSPI = true ∧ s.bankLive 0 = true ∧ s.boot.polling = none ∧ s.boot.command = some c ∧ c.performed = true ∧ c.poll = true ∧ s.boot.xip = []) ∧
    (∃ (s : State) (q : Req) (off : BitVec 28) (z : Size), s.flashBusy = false ∧ 4 ≤ q.ni.val ∧ s.lineHeld (lineOf (0x20000000 + off.toNat)) = false ∧ s.xipReadable (0x20000000 + off.toNat) (sizeBytes z) = true ∧ off.toNat % 64 + sizeBytes z ≤ 64) ∧
    (∃ (s : State) (q : Req) (h : Fin 4) (off : BitVec 28) (z : Size), s.flashBusy = false ∧ q.ni.val = h.val ∧ s.QuietMemory ∧ s.xipReadable (0x20000000 + off.toNat) (sizeBytes z) = true ∧ off.toNat % 64 + sizeBytes z ≤ 64) ∧
    (∃ (s : State) (off : BitVec 28), s.flashBusy = true ∧ s.lineHeld (lineOf (0x20000000 + off.toNat)) = false) ∧
    (∃ (s : State) (off : BitVec 28) (z : Size), s.flashBusy = false ∧ s.lineHeld (lineOf (0x20000000 + off.toNat)) = false ∧ s.xipReadable (0x20000000 + off.toNat) (sizeBytes z) = false) ∧
    (∃ (s : State) (q : Req), OpenTo s q P.OSPI ∧ s.boot.command = none) ∧
    (∃ (s : State) (c : Nat) (k : HeddleChannel) (it : HeddleItem), s.flashBusy = false ∧ s.ioLive P.OSPI = true ∧ s.PortWork 2 0x30 c k it ∧ it.param < 2 ^ 28 ∧ it.param + it.len ≤ 2 ^ s.fld F.OSPI_SIZE_LOG2 ∧ s.PlainRange k.e.inst it.dst it.len) ∧
    (∃ (s : State) (c : Nat) (k : HeddleChannel) (it : HeddleItem) (st : Byte), s.flashBusy = false ∧ s.ioLive P.OSPI = true ∧ s.bankLive 0 = true ∧ s.PortWork 3 0x31 c k it ∧ it.param < 2 ^ 28 ∧ it.param + it.len ≤ 2 ^ s.fld F.OSPI_SIZE_LOG2 ∧ 0 < it.len ∧ it.param / 2 ^ s.fld F.OSPI_HEDDLE_PAGE_LOG2 = (it.param + it.len - 1) / 2 ^ s.fld F.OSPI_HEDDLE_PAGE_LOG2 ∧ s.PlainRange k.e.inst it.src it.len ∧ s.boot.xip = [] ∧ st.toNat &&& s.fld F.OSPI_POLL_MASK = s.fld F.OSPI_POLL_MATCH) :=
  ⟨⟨on State.reset P.OSPI, ⟨0, true⟩, by unfold OpenTo; decide +kernel⟩,
   ⟨{ State.reset with boot := { BootState.reset with command := some cmd0 } }, ⟨0, true⟩, cmd0, by unfold OpenTo; decide +kernel⟩,
   ⟨on { State.reset with boot := { BootState.reset with command := some { cmd0 with poll := false, effect := 1, reads := 3 } } } P.OSPI, { cmd0 with poll := false, effect := 1, reads := 3 }, [1#8, 2#8, 3#8], by decide +kernel⟩,
   ⟨on { State.reset with boot := { BootState.reset with command := some { cmd0 with performed := true } } } P.OSPI, { cmd0 with performed := true }, by decide +kernel⟩,
   ⟨(on (bootable 0 0) P.OSPI).setFld F.OSPI_XIP_EN 1 |>.setFld F.OSPI_SIZE_LOG2 20, ⟨15, true⟩, 4, .d, by decide +kernel⟩,
   ⟨(on (bootable 0 0) P.OSPI).setFld F.OSPI_XIP_EN 1 |>.setFld F.OSPI_SIZE_LOG2 20, ⟨2, true⟩, 2, 8, .d, by unfold State.QuietMemory; decide +kernel⟩,
   ⟨{ State.reset with boot := { BootState.reset with command := some cmd0 } }, 4, by decide +kernel⟩,
   ⟨State.reset, 4, .d, by decide +kernel⟩,
   ⟨State.reset, ⟨0, true⟩, by unfold OpenTo; decide +kernel⟩,
   ⟨on (((work 2 0x30 item0)).setFld F.L3_CFG_HEDDLE_ALLOC 0) P.OSPI, 9, chan0 2 0x30 item0, item0, by unfold State.PortWork State.PlainRange State.QuietMemory; decide +kernel⟩,
   ⟨on (((work 3 0x31 item0)).setFld F.L3_CFG_HEDDLE_ALLOC 0) P.OSPI, 9, chan0 3 0x31 item0, item0, 0, by unfold State.PortWork State.PlainRange State.QuietMemory; decide +kernel⟩⟩

/-- What the clauses of ReedReferenceEncoderAndSlots assume is met. -/
theorem witness_ReedReferenceEncoderAndSlots :
    (∃ (s : State) (dt : BitVec 32), (s.later dt).reedSt = 2 ∧ (s.later dt).fld F.REED_SRC_SRC = 1 ∧ (s.later dt).encLive = true ∧ (s.later dt).flag F.REED_ENC_Z_EN = true ∧ (s.later dt).flag F.REED_ENC_POS_REVERSE = false ∧ (s.later dt).screeActs = false ∧ (s.later dt).InStride) ∧
    (∃ (s : State) (dt : BitVec 32), (s.later dt).fld F.REED_SRC_SRC = 0) ∧
    (∃ (s : State) (dt : BitVec 32) (level : Bool) (k : Nat) (need : Nat) (a : BitVec 64), (s.later dt).reedSt = 1 ∧ (s.later dt).fld F.REED_SRC_SRC = 0 ∧ (s.later dt).reedClocked = true ∧ (s.later dt).bankLive 3 = true ∧ (s.later dt).screeActs = false ∧ (s.later dt).ptpRuns = false ∧ (s.later dt).reed.slots = [] ∧ (s.later dt).reed.pendingSlots = [] ∧ (s.later dt).reed.combPending = false ∧ Bits.get (s.later dt).reed.comb 0 1 = 0 ∧ (s.later dt).reed.due = [] ∧ (s.later dt).reed.combDue = [] ∧ (s.later dt).reedHighest / cycleUnits = ((s.later dt).reed.acc.toNat + (s.later dt).fld F.REED_INC_INC) / cycleUnits ∧ (s.later dt).reed.slew = 0 ∧ (s.later dt).reed.received = false ∧ (s.later dt).reed.zcLevel = (! level) ∧ level = ! (s.later dt).flag F.REED_ZC_EDGE ∧ (s.later dt).reed.zcHold = some ⟨k, need, a⟩ ∧ need ≤ k + 1) ∧
    (∃ (s : State) (dt : BitVec 32), (s.later dt).reedSt = 2 ∧ (s.later dt).reedClocked = true ∧ (s.later dt).ReedQuiet ∧ (s.later dt).reed.due = [] ∧ (s.later dt).reed.combDue = [] ∧ (s.later dt).reedHighest / cycleUnits = ((s.later dt).reed.acc.toNat + (s.later dt).fld F.REED_INC_INC) / cycleUnits ∧ (s.later dt).fld F.REED_HOLD_CYCLES ≠ 0 ∧ (5 * (s.later dt).reed.period.1 : Int) ≤ (4 * (s.later dt).reed.period.2 : Nat) * ((s.later dt).reed.sinceAccepted + 1)) ∧
    (∃ (s : State) (dt : BitVec 32), (s.later dt).reedSt = 4 ∧ (s.later dt).reedClocked = true ∧ (s.later dt).ReedQuiet ∧ (s.later dt).reed.due = [] ∧ (s.later dt).reed.combDue = [] ∧ (s.later dt).reedHighest / cycleUnits = ((s.later dt).reed.acc.toNat + (s.later dt).fld F.REED_INC_INC) / cycleUnits ∧ 2 ≤ (s.later dt).fld F.REED_STATE_HOLD_LEFT ∧ (s.later dt).reed.holdTicks < (s.later dt).reed.period.1 ∧ (s.later dt).reed.period.1 ≤ (s.later dt).reed.holdTicks + (s.later dt).reed.period.2) ∧
    (∃ (s : State) (dt : BitVec 32), (s.later dt).reedSt = 4 ∧ (s.later dt).reedClocked = true ∧ (s.later dt).ReedQuiet ∧ (s.later dt).reed.due = [] ∧ (s.later dt).reed.combDue = [] ∧ (s.later dt).reedHighest / cycleUnits = ((s.later dt).reed.acc.toNat + (s.later dt).fld F.REED_INC_INC) / cycleUnits ∧ (s.later dt).fld F.REED_STATE_HOLD_LEFT = 1 ∧ (s.later dt).reed.period.1 ≤ (s.later dt).reed.holdTicks + (s.later dt).reed.period.2) ∧
    (∃ (s : State) (dt : BitVec 32) (hold : BitVec 8), 2 ≤ hold.toNat ∧ (s.later dt).encLive = true ∧ (s.later dt).reed.reverseBy = 0 ∧ (s.later dt).flag F.REED_ENC_DIR = false ∧ (s.later dt).flag F.REED_ENC_Z_EN = true) ∧
    (∃ (s : State) (dt : BitVec 32) (hold : BitVec 8), 2 ≤ hold.toNat ∧ (s.later dt).encLive = true ∧ (s.later dt).flag F.REED_ENC_DIR = false ∧ (s.later dt).flag F.REED_ENC_Z_EN = true) ∧
    (∃ (s : State) (dt : BitVec 32) (hold : BitVec 8), 2 ≤ hold.toNat ∧ (s.later dt).encLive = true) ∧
    (∃ (hold : BitVec 8), hold.toNat < 2) ∧
    (∃ (s : State) (dt : BitVec 32) (hold : BitVec 8), 2 ≤ hold.toNat ∧ (s.later dt).encLive = true ∧ (s.later dt).reedSt = 1 ∧ (s.later dt).flag F.REED_ENC_Z_EN = true ∧ (s.later dt).flag F.REED_ENC_POS_REVERSE = false ∧ (s.later dt).screeActs = false ∧ (s.later dt).reed.received = false) ∧
    (∃ (s : State) (q : Req), OpenTo s q P.REED ∧ s.reedSt ≠ 0 ∧ s.fld F.REED_SRC_SRC ≠ 3) ∧
    (∃ (s : State) (q : Req) (src : Fin 3), OpenTo s q P.REED ∧ s.reedSt ≠ 0 ∧ s.fld F.REED_SRC_SRC ≠ src.val) ∧
    (∃ (s : State), s.flag (F.PAGE_CTRL_ENABLE P.REED) = true ∧ s.running P.REED = false ∧ s.resetting P.REED = false) ∧
    (∃ (s : State), s.flag (F.PAGE_CTRL_ENABLE P.REED) = false ∧ s.running P.REED = true ∧ s.resetting P.REED = false) ∧
    (∃ (s : State) (dt : BitVec 32), (s.later dt).reedSt = 5 ∧ (s.later dt).reedClocked = true ∧ (s.later dt).kept 2 = true ∧ (s.later dt).ReedQuiet ∧ (s.later dt).reed.due = [] ∧ (s.later dt).reed.combDue = [] ∧ (s.later dt).reedHighest / cycleUnits < ((s.later dt).reed.acc.toNat + (s.later dt).fld F.REED_INC_INC) / cycleUnits) ∧
    (∃ (s : State) (dt : BitVec 32) (n : Fin 128) (d : ReedDue), (s.later dt).reedSt = 5 ∧ (s.later dt).reedClocked = true ∧ (s.later dt).ReedQuiet ∧ (s.later dt).reed.combDue = [] ∧ (s.later dt).reed.due = [d] ∧ d.slot = n.val ∧ Bits.get d.b 0 4 = 2 ∧ Bits.get d.b 4 12 < 16 ∧ d.late = false ∧ (s.later dt).reedHighest / cycleUnits = ((s.later dt).reed.acc.toNat + (s.later dt).fld F.REED_INC_INC) / cycleUnits) ∧
    (∃ (s : State) (dt : BitVec 32) (stamp : Nat) (mask : Nat), (s.later dt).reedSt = 5 ∧ (s.later dt).reedClocked = true ∧ (s.later dt).ReedQuiet ∧ (s.later dt).reed.due = [] ∧ (s.later dt).reed.combDue = [(stamp, mask)] ∧ (s.later dt).reedHighest / cycleUnits = ((s.later dt).reed.acc.toNat + (s.later dt).fld F.REED_INC_INC) / cycleUnits) :=
  ⟨⟨((reedOn 2 1).setFld F.REED_ENC_Z_EN 1).modReed (fun r => { r with sinceAccepted := 4000000 }), 0, by unfold State.InStride; decide +kernel⟩,
   ⟨reedOn 2 0, 1, by decide +kernel⟩,
   ⟨(reedOn 1 0).modReed (fun r => { r with zcHold := some ⟨9999, 10000, 7#64⟩, zcLevel := false }), 0, true, 9999, 10000, 7, by decide +kernel⟩,
   ⟨((reedOn 2 0).setFld F.REED_HOLD_CYCLES 9).modReed (fun r => { r with sinceAccepted := 4999999 }), 0, by unfold State.ReedQuiet; decide +kernel⟩,
   ⟨((reedOn 4 0).setFld F.REED_STATE_HOLD_LEFT 9).modReed (fun r => { r with holdTicks := 3999999 }), 0, by unfold State.ReedQuiet; decide +kernel⟩,
   ⟨((reedOn 4 0).setFld F.REED_STATE_HOLD_LEFT 1).modReed (fun r => { r with holdTicks := 3999999 }), 0, by unfold State.ReedQuiet; decide +kernel⟩,
   ⟨((reedOn 2 1).setFld F.REED_ENC_POS_POS 65535).setFld F.REED_ENC_Z_EN 1, 2, 2, by decide +kernel⟩,
   ⟨((reedOn 2 1).setFld F.REED_ENC_POS_POS 0).setFld F.REED_ENC_Z_EN 1, 2, 255, by decide +kernel⟩,
   ⟨reedOn 2 1, 0, 2, by decide +kernel⟩,
   ⟨1, by decide +kernel⟩,
   ⟨((reedOn 1 1).setFld F.REED_ENC_POS_POS 77).setFld F.REED_ENC_Z_EN 1, 2, 2, by decide +kernel⟩,
   ⟨reedOn 2 0, ⟨0, false⟩, by unfold OpenTo; decide +kernel⟩,
   ⟨reedOn 2 0, ⟨0, false⟩, 2, by unfold OpenTo; decide +kernel⟩,
   ⟨(State.reset.setFld (F.PAGE_CTRL_ENABLE P.REED) 1).setFld (F.REED_SLOT_B_ARM 5) 1, by decide +kernel⟩,
   ⟨(reedOn 2 0).setFld (F.PAGE_CTRL_ENABLE P.REED) 0, by decide +kernel⟩,
   ⟨((reedOn 5 3).setFld F.REED_INC_INC 60000).modReed (fun r => { r with acc := 0xFFFFFFFFFFFFFFF0#64 }), 0, by unfold State.ReedQuiet; decide +kernel⟩,
   ⟨((reedOn 5 3).setFld F.REED_INC_INC 60000).modReed (fun r => { r with due := [⟨127, 0xF2#64, 5, 0, false, false⟩] }), 0, 127, ⟨127, 0xF2#64, 5, 0, false, false⟩, by unfold State.ReedQuiet; decide +kernel⟩,
   ⟨((reedOn 5 3).setFld F.REED_INC_INC 60000).modReed (fun r => { r with combDue := [(77, 1)] }), 0, 77, 1, by unfold State.ReedQuiet; decide +kernel⟩⟩

/-- What the clauses of CairnSourcesClaimsAndMessages assume is met. -/
theorem witness_CairnSourcesClaimsAndMessages :
    (∃ (s : State) (id : BitVec 11), (isEdgeSource id.toNat || isCombined id.toNat) = true ∧ s.kept 2 = true ∧ (s.gate id.toNat).latch = false) ∧
    (∃ (s : State) (id : BitVec 11), (isEdgeSource id.toNat || isCombined id.toNat) = true ∧ s.kept 2 = true ∧ (s.gate id.toNat).latch = true) ∧
    (∃ (s : State) (id : BitVec 11), ((isEdgeSource id.toNat || isCombined id.toNat) = false ∨ s.kept 2 = false)) ∧
    (∃ (s : State) (id : BitVec 11) (level : Bool), (isLevelSource id.toNat || isCombined id.toNat) = true ∧ s.levelAt id.toNat = level) ∧
    (∃ (s : State) (q : Req) (ctx : Fin 36), q.ni ≠ 8 ∧ s.bestSource ctx.val ≠ 0) ∧
    (∃ (s : State) (q : Req) (ctx : Fin 36), q.ni ≠ 8 ∧ s.bestSource ctx.val = 0) ∧
    (∃ (q : Req), q.ni = 8) ∧
    (∃ (s : State) (q : Req) (ctx : Fin 36) (id : BitVec 32), q.ni ≠ 8 ∧ id ≠ 0 ∧ id.toNat ≤ 2047 ∧ (s.gate id.toNat).active = true ∧ (s.gate id.toNat).claimer = ctx.val ∧ s.ctxAbsent ctx.val = false) ∧
    (∃ (s : State) (q : Req) (ctx : Fin 36) (id : BitVec 32), q.ni ≠ 8 ∧ (id = 0 ∨ 2047 < id.toNat ∨ (s.gate id.toNat).active = false ∨ (s.gate id.toNat).claimer ≠ ctx.val ∨ s.ctxAbsent ctx.val = true)) ∧
    (∃ (s : State) (g : Fin 16) (j : Fin 32), s.kept 2 = true ∧ (s.gate (1536 + 32 * g.val + j.val)).latch = false) ∧
    (∃ (s : State) (g : Fin 16) (j : Fin 32), s.kept 2 = true ∧ (s.gate (1536 + 32 * g.val + j.val)).latch = true) ∧
    (∃ (q : Req), q.ni ≠ 8) ∧
    (∃ (q : Req) (off : BitVec 22) (size : Size), q.ni ≠ 8 ∧ (size ≠ .w ∨ off.toNat % 4 ≠ 0)) ∧
    (∃ (q : Req) (off : BitVec 22), q.ni ≠ 8 ∧ off.toNat % 4 = 0 ∧ cairnWordAt off.toNat = .none) ∧
    (∃ (q : Req) (off : BitVec 22), q.ni = 8 ∧ off.toNat < 0x3F0000) ∧
    (∃ (s : State) (q : Req) (id : BitVec 11), OpenTo s q P.CAIRN_CTL ∧ id ≠ 0 ∧ (s.gate id.toNat).active = true) ∧
    (∃ (s : State) (q : Req) (id : BitVec 11), OpenTo s q P.CAIRN_CTL ∧ (id = 0 ∨ (s.gate id.toNat).active = false)) ∧
    (∃ (s : State) (q : Req) (ctx : BitVec 6), OpenTo s q P.CAIRN_CTL ∧ ctx.toNat ≤ 35 ∧ SMap.wf (fun _ => Gateway.idle) s.cairn.gates = true) ∧
    (∃ (s : State) (h : Fin 4), s.power.phase = .run ∧ s.fld F.PWR_STATE_CUR = 2 ∧ s.power.closing = none ∧ h.val ∈ s.visible ∧ s.wakeCond h.val = true) ∧
    (∃ (s : State) (h : Fin 4), s.wakeCond h.val = false) ∧
    (∃ (s : State) (h : Fin 4), s.hartLive h.val = true ∧ s.wakeCond h.val = true ∧ (s.hart h.val).wfi = true ∧ (s.hart h.val).stepping = false) :=
  ⟨⟨State.reset, 12, by decide +kernel⟩,
   ⟨State.reset.setGate 2047 ⟨true, false, 0⟩, 2047, by decide +kernel⟩,
   ⟨State.reset, 0, by decide +kernel⟩,
   ⟨{ State.reset with power := { PowerState.reset with pfail := true } }, 3, true, by decide +kernel⟩,
   ⟨cairnPending, ⟨0, true⟩, 0, by decide +kernel⟩,
   ⟨State.reset, ⟨0, true⟩, 35, by decide +kernel⟩,
   ⟨⟨8, true⟩, by decide +kernel⟩,
   ⟨State.reset.setGate 2047 ⟨true, true, 0⟩, ⟨3, true⟩, 0, 2047, by decide +kernel⟩,
   ⟨State.reset, ⟨3, true⟩, 0, 2048, by decide +kernel⟩,
   ⟨State.reset, 15, 31, by decide +kernel⟩,
   ⟨State.reset.setGate 2047 ⟨true, false, 0⟩, 15, 31, by decide +kernel⟩,
   ⟨⟨0, true⟩, by decide +kernel⟩,
   ⟨⟨0, true⟩, 0x200001, .w, by decide +kernel⟩,
   ⟨⟨0, true⟩, 0x800, by decide +kernel⟩,
   ⟨⟨8, true⟩, 0x3EFFFF, by decide +kernel⟩,
   ⟨State.reset.setGate 2047 ⟨true, true, 0⟩, ⟨3, true⟩, 2047, by unfold OpenTo; decide +kernel⟩,
   ⟨State.reset, ⟨3, true⟩, 0, by unfold OpenTo; decide +kernel⟩,
   ⟨(State.reset.setGate 2047 ⟨false, true, 35⟩).setGate 600 ⟨false, true, 35⟩, ⟨3, true⟩, 35, by unfold OpenTo; decide +kernel⟩,
   ⟨(cairnPending.modHart 0 (fun t => { t with running := true, wfi := true, parked := false })).setFld F.PWR_STATE_CUR 2, 0, by decide +kernel⟩,
   ⟨State.reset, 0, by decide +kernel⟩,
   ⟨(cairnPending.setFlag F.SYSCFG_MODE_GUARDED false).modHart 0 (fun t => { t with running := true, wfi := true, parked := false }), 0, by decide +kernel⟩⟩

/-- What the clauses of ShuttleChannelsPinsAndHolds assume is met. -/
theorem witness_ShuttleChannelsPinsAndHolds :
    (∃ (s : State) (n : Fin 64), s.shuttleClocked = true ∧ s.chanOn n.val = true ∧ (∀ m : Fin 64, s.flag (F.SHUTTLE_CH_SEL_UNCLOCKED m.val) = false) ∧ s.raw (R.SHUTTLE_CH_CONS n.val) = 0#64 ∧ s.timer.waiting = 0 ∧ (∀ i : Fin 8, s.running (P.LOOM_PROBE i.val) = false)) ∧
    (∃ (s : State) (n : Fin 64) (balls : BitVec 96), s.shuttleClocked = true ∧ s.chanOn n.val = true ∧ s.kept 2 = true ∧ s.ShuttleStill ∧ s.raw (R.SHUTTLE_CH_CONS n.val) = 1#64 ∧ s.fld (F.SHUTTLE_CH_PIN_MODE n.val) = 0 ∧ s.timer.waiting = 0 ∧ (∀ i : Fin 8, s.running (P.LOOM_PROBE i.val) = false) ∧ s.fld (F.SHUTTLE_CH_SEL_SENSE n.val) = 0 ∧ (s.setBalls balls.toNat).sensedProducer n.val = true ∧ (s.setBalls balls.toNat).sensedGate n.val = true ∧ n.val < 63 ∧ (s.gate (160 + n.val)).latch = false) ∧
    (∃ (s : State) (n : Fin 64), s.ShuttleStill ∧ (s.shuttleClocked = false ∨ s.chanOn n.val = false)) ∧
    (∃ (s : State), (∀ m : Fin 64, s.flag (F.SHUTTLE_CH_SEL_UNCLOCKED m.val) = false)) ∧
    (∃ (s : State) (n : Fin 64), s.chanOn n.val = true ∧ s.flag (F.SHUTTLE_CH_SEL_UNCLOCKED n.val) = true ∧ ((∀ m : Fin 64, m ≠ n → s.flag (F.SHUTTLE_CH_SEL_UNCLOCKED m.val) = false)) ∧ s.raw (R.SHUTTLE_CH_CONS n.val) = 0#64 ∧ s.timer.waiting = 0 ∧ (∀ i : Fin 8, s.running (P.LOOM_PROBE i.val) = false) ∧ s.flag (F.SHUTTLE_CH_PIN_HOLD n.val) = false) ∧
    (∃ (s : State) (q : Req), OpenTo s q P.SHUTTLE ∧ s.pageLocked P.SHUTTLE = false ∧ (∀ m : Fin 64, s.flag (F.SHUTTLE_CH_SEL_UNCLOCKED m.val) = false)) ∧
    (∃ (s : State) (q : Req) (n : Fin 64) (v : BitVec 32), OpenTo s q P.SHUTTLE ∧ s.pageLocked P.SHUTTLE = false ∧ (∀ m : Fin 64, s.flag (F.SHUTTLE_CH_SEL_UNCLOCKED m.val) = false) ∧ v.getLsbD 21 = false ∧ v.getLsbD 30 = false ∧ producerListed (v.toNat % 256) = true ∧ producerListed (v.toNat / 256 % 256) = true ∧ senseWord (s.raw (R.SHUTTLE_CH_SEL n.val)) ≠ senseWord (v.zeroExtend 64)) ∧
    (∃ (s : State) (q : Req) (n : Fin 64) (v : BitVec 32), OpenTo s q P.SHUTTLE ∧ s.pageLocked P.SHUTTLE = false ∧ v.getLsbD 21 = true ∧ ((F.SHUTTLE_CH_SEL_SENSE n.val).of (v.zeroExtend 64) ≠ 0 ∨ (F.SHUTTLE_CH_SEL_STRETCH n.val).of (v.zeroExtend 64) ≠ 0 ∨ (2 ≤ s.fld (F.SHUTTLE_CH_PIN_MODE n.val) ∧ s.fld (F.SHUTTLE_CH_PIN_MODE n.val) ≤ 4))) ∧
    (∃ (s : State) (q : Req), OpenTo s q P.SHUTTLE) ∧
    (∃ (s : State) (q : Req), OpenTo s q P.SHUTTLE ∧ (∀ n : Fin 64, s.flag (F.SHUTTLE_CH_SEL_UNCLOCKED n.val) = false)) :=
  ⟨⟨shutOn, 5, by decide +kernel⟩,
   ⟨shutOn.setReg (R.SHUTTLE_CH_CONS 5) 1, 5, 4, by unfold State.ShuttleStill; decide +kernel⟩,
   ⟨shutOn, 6, by unfold State.ShuttleStill; decide +kernel⟩,
   ⟨shutOn, by decide +kernel⟩,
   ⟨shutOn.setFld (F.SHUTTLE_CH_SEL_UNCLOCKED 5) 1, 5, by decide +kernel⟩,
   ⟨shutOn, ⟨3, false⟩, by unfold OpenTo; decide +kernel⟩,
   ⟨shutOn, ⟨3, false⟩, 5, 0x80080001, by unfold OpenTo; decide +kernel⟩,
   ⟨shutOn, ⟨3, false⟩, 5, 0x280000, by unfold OpenTo; decide +kernel⟩,
   ⟨shutOn.setFld F.SHUTTLE_PIN_LATCH_LATCH 0xFFFF, ⟨3, false⟩, by unfold OpenTo; decide +kernel⟩,
   ⟨shutOn.setChan 63 { ShuttleChannel.idle with held := some (3, true) }, ⟨3, false⟩, by unfold OpenTo; decide +kernel⟩⟩

/-- What the clauses of TimersCountExpireStartAndStop assume is met. -/
theorem witness_TimersCountExpireStartAndStop :
    (∃ (s : State) (q : Req), OpenTo s q P.TIMER) ∧
    (∃ (s : State) (h : Fin 4), s.hartLive h.val = true ∧ s.mtip h.val = true ∧ s.localPending h.val = true ∧ (s.hart h.val).wfi = true ∧ (s.hart h.val).stepping = false) ∧
    (∃ (s : State) (h : Fin 4), s.power.phase = .run ∧ s.fld F.PWR_STATE_CUR = 2 ∧ s.power.closing = none ∧ h.val ∈ s.visible ∧ s.mtip h.val = true ∧ s.localPending h.val = true) ∧
    (∃ (s : State) (h : Fin 4), (s.mtip h.val = false ∨ s.localPending h.val = false)) ∧
    (∃ (s : State) (dt : BitVec 32) (n : Fin 8), (s.timersAt dt).timersClocked = true ∧ ((∀ m : Fin 8, m ≠ n → (s.timersAt dt).timerRuns m.val = false)) ∧ (s.timersAt dt).Counting n.val ∧ (s.timersAt dt).timer.expired.testBit n.val = false ∧ (s.timersAt dt).fld (F.TIMER_COUNT_COUNT n.val) + 2 = (s.timersAt dt).timerForce n.val 0 ∧ ((s.timersAt dt).flag (F.TIMER_CTRL_IRQ_EN n.val) = false ∨ ((s.timersAt dt).kept 2 = true ∧ ((s.timersAt dt).gate (380 + n.val)).latch = false))) ∧
    (∃ (s : State) (n : Fin 8), s.timersClocked = true ∧ ((∀ m : Fin 8, m ≠ n → s.timerRuns m.val = false)) ∧ s.Counting n.val ∧ s.timer.expired.testBit n.val = true ∧ s.flag (F.TIMER_CTRL_ONESHOT n.val) = true) ∧
    (∃ (s : State) (dt : BitVec 32) (n : Fin 8), (s.timersAt dt).timersClocked = true ∧ ((∀ m : Fin 8, m ≠ n → (s.timersAt dt).timerRuns m.val = false)) ∧ (s.timersAt dt).Counting n.val ∧ (s.timersAt dt).timer.expired.testBit n.val = false ∧ (s.timersAt dt).fld (F.TIMER_COUNT_COUNT n.val) + 2 < (s.timersAt dt).timerForce n.val 0 ∧ (s.timersAt dt).fld (F.TIMER_CTRL_OUT n.val) = 2 ∧ (s.timersAt dt).fld (F.TIMER_COUNT_COUNT n.val) + 1 = (s.timersAt dt).timerForce n.val 1) :=
  ⟨⟨State.reset, ⟨0, true⟩, by unfold OpenTo; decide +kernel⟩,
   ⟨(State.reset.setReg (R.TIMER_MTIMECMP 2) 0).modHart 2 (fun t => { t.setCsr 0x304 0x80 with running := true, wfi := true, parked := false }), 2, by decide +kernel⟩,
   ⟨((State.reset.setReg (R.TIMER_MTIMECMP 2) 0).modHart 2 (fun t => { t.setCsr 0x304 0x80 with running := true, wfi := true, parked := false })).setFld F.PWR_STATE_CUR 2, 2, by decide +kernel⟩,
   ⟨State.reset, 2, by decide +kernel⟩,
   ⟨timOn 7 9 0, 0, 7, by unfold State.Counting; decide +kernel⟩,
   ⟨(((timOn 7 9 0).setFld (F.TIMER_COUNT_COUNT 7) 8).setFld (F.TIMER_CTRL_ONESHOT 7) 1).modTimer (fun x => { x with expired := 128 }), 7, by unfold State.Counting; decide +kernel⟩,
   ⟨(timOn 6 20 8).setFld (F.TIMER_CTRL_OUT 6) 2, 0, 6, by unfold State.Counting; decide +kernel⟩⟩

/-- What the clauses of XoroudResults assume is met. -/
theorem witness_XoroudResults :
    (∃ (s : State) (h : Fin 4) (rs1 : Fin 32), s.IssuesPrecise h.val ∧ (s.hart h.val).xoroudBarred true = none ∧ (s.hart h.val).acc.toNat / 2 ^ 64 < ((s.hart h.val).xr rs1.val).toNat) ∧
    (∃ (s : State) (h : Fin 4), s.IssuesPrecise h.val ∧ (s.hart h.val).xoroudBarred true = none) ∧
    (∃ (s : State) (h : Fin 4) (rs1 : Fin 32), s.IssuesPrecise h.val ∧ (s.hart h.val).xoroudBarred true = none ∧ f64exp ((s.hart h.val).xr rs1.val) ≠ 0 ∧ f64exp ((s.hart h.val).xr rs1.val) < 2045) ∧
    (∃ (s : State) (h : Fin 4) (rs1 : Fin 32) (e : Fin 2048), s.IssuesPrecise h.val ∧ (s.hart h.val).xoroudBarred true = none ∧ (s.hart h.val).xr rs1.val = BitVec.ofNat 64 (e.val * 2 ^ 52) ∧ 1 ≤ e.val ∧ e.val ≤ 2046) ∧
    (∃ (s : State) (h : Fin 4) (rs1 : Fin 32), s.IssuesPrecise h.val ∧ (s.hart h.val).xoroudBarred true = none ∧ (f64zero ((s.hart h.val).xr rs1.val) ∨ f64inf ((s.hart h.val).xr rs1.val))) ∧
    (∃ (s : State) (h : Fin 4) (rs1 : Fin 32) (neg : Bool) (n : Fin 1024), s.IssuesPrecise h.val ∧ (s.hart h.val).xoroudBarred true = none ∧ 1 ≤ n.val ∧ ((neg = true → n.val ≤ 1022)) ∧ (s.hart h.val).xr rs1.val = withSign neg (f64floor n.val 0).1) ∧
    (∃ (s : State) (h : Fin 4) (op : LongOp) (rd : Fin 32) (rs1 : Fin 32) (rs2 : Fin 32), s.IssuesPrecise h.val ∧ (s.hart h.val).xoroudBarred (op.fieldsOk rd.val rs1.val rs2.val) = none ∧ (longOp op (s.hart h.val).acc ((s.hart h.val).xr rs1.val) ((s.hart h.val).xr rs2.val)).code = 0) ∧
    (∃ (s : State) (h : Fin 4) (op : LongOp) (rd : Fin 32) (rs1 : Fin 32) (rs2 : Fin 32), s.IssuesPrecise h.val ∧ (s.hart h.val).xoroudBarred (op.fieldsOk rd.val rs1.val rs2.val) = none ∧ (s.hart h.val).priv < 4 ∧ (longOp op (s.hart h.val).acc ((s.hart h.val).xr rs1.val) ((s.hart h.val).xr rs2.val)).code ≠ 0 ∧ Bits.get ((s.hart h.val).csrRaw 0x7C2) 0 3 = 0 ∧ (s.hart h.val).exceptionTo 24 = 3) :=
  ⟨⟨hartR 0 prec, 0, 6, by unfold State.IssuesPrecise State.Issues; decide +kernel⟩,
   ⟨hartR 0 prec, 0, by unfold State.IssuesPrecise State.Issues; decide +kernel⟩,
   ⟨hartR 0 (fun t => (prec t).setX 6 0x4008000000000000), 0, 6, by unfold State.IssuesPrecise State.Issues; decide +kernel⟩,
   ⟨hartR 0 (fun t => (prec t).setX 6 0x4070000000000000), 0, 6, 0x407, by unfold State.IssuesPrecise State.Issues; decide +kernel⟩,
   ⟨hartR 0 (fun t => (prec t).setX 6 0x8000000000000000), 0, 6, by unfold State.IssuesPrecise State.Issues; decide +kernel⟩,
   ⟨hartR 0 (fun t => (prec t).setX 6 0x408FF80000000000), 0, 6, false, 1023, by unfold State.IssuesPrecise State.Issues; decide +kernel⟩,
   ⟨hartR 0 (fun t => (prec t).setX 6 0x4008000000000000), 0, .lmacs, 0, 6, 7, by unfold State.IssuesPrecise State.Issues; decide +kernel⟩,
   ⟨hartR 0 (fun t => (prec t).setX 6 0), 0, .ldivu, 5, 6, 0, by unfold State.IssuesPrecise State.Issues; decide +kernel⟩⟩

/-- What the clauses of LongOperationsAndTraps assume is met. -/
theorem witness_LongOperationsAndTraps :
    (∃ (s : State) (h : Fin 4) (op : LongOp) (rd : Fin 32) (rs1 : Fin 32) (rs2 : Fin 32), s.Issues h.val ∧ ((s.hart h.val).gov 0x7C1).testBit 1 = false ∧ 0 < (s.hart h.val).gov 0x7C1 / 2 ^ 8 % 16 ∧ (s.hart h.val).xoroudBarred (op.fieldsOk rd.val rs1.val rs2.val) = none) ∧
    (∃ (s : State) (h : Fin 4) (op : LongOp) (rd : Fin 32) (rs1 : Fin 32) (rs2 : Fin 32), s.Issues h.val ∧ (s.hart h.val).priv = 3 ∧ (s.hart h.val).virt = false ∧ (((s.hart h.val).gov 0x7C1).testBit 0 = false ∨ op.fieldsOk rd.val rs1.val rs2.val = false)) ∧
    (∃ (s : State) (h : Fin 4) (e : LouEntry) (rest : List LouEntry), s.hartLive h.val = true ∧ (s.hart h.val).lou = e :: rest ∧ (∀ x ∈ e :: rest, x.fault = none) ∧ (∀ x ∈ rest, x.slot ≠ e.slot) ∧ (s.hart h.val).scout = none ∧ (longOp e.op (s.hart h.val).acc e.rs1 e.rs2).code = 0) ∧
    (∃ (s : State) (h : Fin 4) (e : LouEntry), s.hartLive h.val = true ∧ (s.hart h.val).lou = [e] ∧ e.fault = none ∧ (s.hart h.val).scout = none ∧ (s.hart h.val).wfi = false ∧ e.op.writesRd = true ∧ e.rd ≠ 0 ∧ (longOp e.op (s.hart h.val).acc e.rs1 e.rs2).code ≠ 0) ∧
    (∃ (s : State) (h : Fin 4) (e : LouEntry) (code : Fin 8), s.hartLive h.val = true ∧ (s.hart h.val).prog = none ∧ (s.hart h.val).scout = none ∧ (s.hart h.val).wfi = false ∧ (s.hart h.val).stepping = false ∧ (s.hart h.val).louArmed = true ∧ (s.hart h.val).lou = [e] ∧ e.fault = some code.val ∧ e.slot < 16 ∧ e.priv < 4 ∧ Bits.get ((s.hart h.val).csrRaw 0x7C2) 0 3 = 0 ∧ (s.hart h.val).exceptionTo 24 = 3) ∧
    (∃ (s : State) (h : Fin 4), s.Issues h.val ∧ (s.hart h.val).xoroudBarred true = none) ∧
    (∃ (s : State) (h : Fin 4) (rd : Fin 32) (rs1 : Fin 32) (rs2 : Fin 32), s.Issues h.val ∧ (s.hart h.val).priv = 3 ∧ (s.hart h.val).virt = false ∧ (((s.hart h.val).gov 0x7C1).testBit 0 = false ∨ ¬ (rd = 0 ∧ rs1 = 0 ∧ rs2 = 0))) ∧
    (∃ (s : State) (h : Fin 4) (c : Nat), s.hartLive h.val = true ∧ (s.hart h.val).prog = none ∧ s.interruptDue h.val = some c ∧ (s.hart h.val).interruptTo c = 3 ∧ (s.hart h.val).scout = none ∧ (s.hart h.val).wfi = false ∧ (s.hart h.val).stepping = false ∧ (s.hart h.val).lou = []) ∧
    (∃ (s : State) (h : Fin 4) (c : Nat), s.hartLive h.val = true ∧ (s.hart h.val).prog = none ∧ s.interruptDue h.val = some c ∧ (s.hart h.val).interruptTo c = 1 ∧ (s.hart h.val).scout = none ∧ (s.hart h.val).wfi = false ∧ (s.hart h.val).stepping = false ∧ (s.hart h.val).lou = []) ∧
    (∃ (s : State) (h : Fin 4) (c : Nat), s.hartLive h.val = true ∧ (s.hart h.val).prog = none ∧ s.interruptDue h.val = some c ∧ (s.hart h.val).interruptTo c = 2 ∧ (s.hart h.val).scout = none ∧ (s.hart h.val).wfi = false ∧ (s.hart h.val).stepping = false ∧ (s.hart h.val).lou = []) ∧
    (∃ (s : State) (h : Fin 4), s.hartLive h.val = true ∧ s.interruptDue h.val = none) ∧
    (∃ (s : State) (h : Fin 4), s.Issues h.val ∧ (s.hart h.val).exceptionTo (s.hart h.val).ecallCause = 3) ∧
    (∃ (s : State) (h : Fin 4) (c : Fin 24), s.Issues h.val ∧ exceptionListed c.val = true ∧ ((c.val = 22 → (s.hart h.val).virt = true)) ∧ (s.hart h.val).exceptionTo c.val = 3) ∧
    (∃ (s : State) (h : Fin 4) (c : Fin 24), s.Issues h.val ∧ exceptionListed c.val = true ∧ ((c.val = 22 → (s.hart h.val).virt = true)) ∧ (s.hart h.val).exceptionTo c.val = 1) ∧
    (∃ (s : State) (h : Fin 4) (c : Fin 24), s.Issues h.val ∧ exceptionListed c.val = true ∧ (s.hart h.val).exceptionTo c.val = 2) ∧
    (∃ (s : State) (h : Fin 4), s.Issues h.val ∧ (s.hart h.val).priv = 3) ∧
    (∃ (s : State) (h : Fin 4), s.Issues h.val ∧ (s.hart h.val).virt = false ∧ ((s.hart h.val).priv = 3 ∨ ((s.hart h.val).priv = 1 ∧ (s.hart h.val).csrBit 0x300 22 = false))) ∧
    (∃ (s : State) (h : Fin 4), s.Issues h.val ∧ (s.hart h.val).virt = true ∧ (s.hart h.val).priv = 1 ∧ (s.hart h.val).csrBit 0x600 22 = false) ∧
    (∃ (s : State) (h : Fin 4) (k : XretKind) (c : Nat), s.Issues h.val ∧ (s.hart h.val).xretBarred k = some c ∧ (s.hart h.val).exceptionTo c = 3) :=
  ⟨⟨hartR 0 id, 0, .frcp, 5, 6, 0, by unfold State.Issues; decide +kernel⟩,
   ⟨hartR 0 (fun t => t.setCsr 0x305 0x1003), 0, .frcp, 5, 6, 1, by unfold State.Issues; decide +kernel⟩,
   ⟨hartR 0 (fun t => { t with lou := [⟨0, .lmacs, 3, 5, 0, 0x100, 3, false, false, none⟩, ⟨1, .laccRdlo, 3, 5, 9, 0x104, 3, false, false, none⟩] }), 0, ⟨0, .lmacs, 3, 5, 0, 0x100, 3, false, false, none⟩, [⟨1, .laccRdlo, 3, 5, 9, 0x104, 3, false, false, none⟩], by decide +kernel⟩,
   ⟨hartR 0 (fun t => { t with lou := [⟨1, .ldivu, 0, 5, 9, 0x104, 3, false, false, none⟩] }), 0, ⟨1, .ldivu, 0, 5, 9, 0x104, 3, false, false, none⟩, by decide +kernel⟩,
   ⟨hartR 0 (fun t => { t with louArmed := true, lou := [⟨1, .ldivu, 0, 5, 9, 0x104, 3, false, false, some 1⟩] }), 0, ⟨1, .ldivu, 0, 5, 9, 0x104, 3, false, false, some 1⟩, 1, by decide +kernel⟩,
   ⟨hartR 0 id, 0, by unfold State.Issues; decide +kernel⟩,
   ⟨hartR 0 id, 0, 1, 0, 0, by unfold State.Issues; decide +kernel⟩,
   ⟨(hartR 0 (fun t => ((t.setCsr 0x304 0x80).setCsr 0x300 8).setCsr 0x305 0x2001)).setReg (R.TIMER_MTIMECMP 0) 0, 0, 7, by decide +kernel⟩,
   ⟨hartR 0 (fun t => { (((t.setCsr 0x304 2).setCsr 0x303 2).setCsr 0x344 2).setCsr 0x105 0x2001 with priv := 0 }), 0, 1, by decide +kernel⟩,
   ⟨hartR 0 (fun t => { ((((t.setCsr 0x304 4).setCsr 0x303 4).setCsr 0x603 4).setCsr 0x645 4).setCsr 0x205 0x2001 with priv := 0, virt := true }), 0, 2, by decide +kernel⟩,
   ⟨hartR 0 id, 0, by decide +kernel⟩,
   ⟨hartR 0 id, 0, by unfold State.Issues; decide +kernel⟩,
   ⟨hartR 0 id, 0, 13, by unfold State.Issues; decide +kernel⟩,
   ⟨hartR 0 (fun t => { t.setCsr 0x302 0xFFFFFF with priv := 0 }), 0, 13, by unfold State.Issues; decide +kernel⟩,
   ⟨hartR 0 (fun t => { (t.setCsr 0x302 0xFFFFFF).setCsr 0x602 0xFFFFFF with priv := 0, virt := true }), 0, 13, by unfold State.Issues; decide +kernel⟩,
   ⟨hartR 0 (fun t => (t.setCsr 0x341 0x80).setCsr 0x300 0x8000000880), 0, by unfold State.Issues; decide +kernel⟩,
   ⟨hartR 0 (fun t => { (t.setCsr 0x141 0x80).setCsr 0x300 0x122 with priv := 1 }), 0, by unfold State.Issues; decide +kernel⟩,
   ⟨hartR 0 (fun t => { (t.setCsr 0x241 0x80).setCsr 0x200 0x122 with priv := 1, virt := true }), 0, by unfold State.Issues; decide +kernel⟩,
   ⟨hartR 0 (fun t => { t with priv := 1 }), 0, .mret, 2, by unfold State.Issues; decide +kernel⟩⟩

/-- What the clauses of HartStateFencesAndScout assume is met. -/
theorem witness_HartStateFencesAndScout :
    (∃ (s : State) (h : Fin 4) (c : VendorCsr) (op : CsrOp) (src : CsrSrc) (v : DWord), s.Issues h.val ∧ (s.hart h.val).vendorBarred c = none ∧ c ∈ [.mscout, .mloucfg, .mloufsr, .mloufpc, .mprefetch] ∧ (s.hart h.val).windows = [] ∧ csrNew (s.hart h.val) op src ((s.hart h.val).csrRaw (vendorNum c)) = some v) ∧
    (∃ (s : State) (h : Fin 4) (c : VendorCsr) (op : CsrOp) (src : CsrSrc), s.Issues h.val ∧ (s.hart h.val).vendorBarred c = none ∧ (c = .mguardst ∨ csrNew (s.hart h.val) op src (s.csrRead h.val (vendorNum c)) = none)) ∧
    (∃ (s : State) (h : Fin 4) (c : VendorCsr) (op : CsrOp) (src : CsrSrc) (v : DWord), s.Issues h.val ∧ (s.hart h.val).vendorBarred c = none ∧ c ∈ [.sloufsr, .sloufpc] ∧ (s.hart h.val).windows = [] ∧ Bits.get ((s.hart h.val).csrRaw 0x7C2) 16 2 ≠ 3 ∧ csrNew (s.hart h.val) op src ((s.hart h.val).csrRaw (vendorNum c + 0x200)) = some v) ∧
    (∃ (s : State) (h : Fin 4) (c : VendorCsr) (x : Nat), s.Issues h.val ∧ (s.hart h.val).vendorBarred c = some x ∧ (s.hart h.val).exceptionTo x = 3) ∧
    (∃ (s : State) (h : Fin 4) (w : Settling), s.Issues h.val ∧ (s.hart h.val).windows = [w] ∧ (s.hart h.val).csrRaw w.csr = w.value ∧ w.csr ≠ 0xB02) ∧
    (∃ (s : State) (h : Fin 4), s.Issues h.val ∧ (s.hart h.val).wfiBarred = none ∧ s.wakeCond h.val = false ∧ s.localPending h.val = false) ∧
    (∃ (s : State) (h : Fin 4), s.Issues h.val ∧ (s.hart h.val).wfiBarred = none ∧ (s.wakeCond h.val = true ∨ s.localPending h.val = true)) ∧
    (∃ (s : State) (h : Fin 4) (x : Nat), s.Issues h.val ∧ (s.hart h.val).wfiBarred = some x ∧ (s.hart h.val).exceptionTo x = 3) ∧
    (∃ (s : State) (h : Fin 4) (k : VmaFence), s.Issues h.val ∧ (s.hart h.val).fenceBarred k = none) ∧
    (∃ (s : State) (h : Fin 4) (k : VmaFence) (rs1 : Fin 32) (rs2 : Fin 32), s.Issues h.val ∧ (s.hart h.val).fenceBarred k = none ∧ k ≠ .hfenceGvma ∧ (s.hart h.val).virt = false ∧ k = .sfenceVma ∧ rs1 ≠ 0 ∧ rs2 ≠ 0) ∧
    (∃ (s : State) (h : Fin 4) (k : VmaFence) (x : Nat), s.Issues h.val ∧ (s.hart h.val).fenceBarred k = some x ∧ (s.hart h.val).exceptionTo x = 3) ∧
    (∃ (s : State) (h : Fin 4), s.Issues h.val) ∧
    (∃ (s : State) (h : Fin 4) (rs1 : Fin 32) (signed : Bool) (z : Size) (imm : BitVec 12), s.Issues h.val ∧ (s.hart h.val).priv = 3 ∧ (s.hart h.val).csrBit 0x300 17 = false ∧ (signed = true ∨ z ≠ .d) ∧ (s.hart h.val).scoutEnabled = true ∧ ((s.hart h.val).xr rs1.val + imm.signExtend 64).toNat % sizeLen z = 0 ∧ s.inMain ((s.hart h.val).xr rs1.val + imm.signExtend 64).toNat 1 = true ∧ (s.hart h.val).pmpOk .load 3 ((s.hart h.val).xr rs1.val + imm.signExtend 64).toNat = true ∧ (s.hart h.val).trigFired 0 ((s.hart h.val).xr rs1.val + imm.signExtend 64).toNat = [] ∧ s.lineIn (.l2 h.val) (lineOf ((s.hart h.val).xr rs1.val + imm.signExtend 64).toNat) = none) ∧
    (∃ (s : State) (h : Fin 4) (a : HartAccess), ((s.hart h.val).scoutEnabled = false ∨ loadDest a = none ∨ s.hartLive h.val = false)) ∧
    (∃ (s : State) (h : Fin 4) (c : Scout), s.hartLive h.val = true ∧ (s.hart h.val).scout = some c ∧ c.stopped = false) ∧
    (∃ (s : State) (h : Fin 4) (c : Scout) (k : ScoutEnd), s.hartLive h.val = true ∧ (s.hart h.val).scout = some c ∧ (k = .data ∨ (k = .interrupt ∧ s.localPending h.val = true))) ∧
    (∃ (s : State) (h : Fin 4) (c : Scout), s.hartLive h.val = true ∧ (s.hart h.val).scout = some c ∧ (s.hart h.val).lou = [] ∧ (s.hart h.val).wfi = false) ∧
    (∃ (s : State) (h : Fin 4) (n : Fin 32), s.visible.contains h.val = true ∧ (s.hart h.val).running = true ∧ 3 ≤ n.val ∧ n.val ≤ 10 ∧ (s.hart h.val).stopsCount = false) ∧
    (∃ (s : State) (h : Fin 4) (n : Fin 32), ((s.hart h.val).stopsCount = true ∨ n.val < 3 ∨ 10 < n.val)) :=
  ⟨⟨hartR 0 (fun t => t.setX 6 0x25000400), 0, .mscout, .write, .reg 6, 0x25000400, by unfold State.Issues; decide +kernel⟩,
   ⟨hartR 2 id, 2, .mguardst, .write, .imm 31, by unfold State.Issues; decide +kernel⟩,
   ⟨hartR 0 (fun t => { t.setCsr 0x7C1 0x805 with priv := 1 }), 0, .sloufpc, .write, .reg 6, 0, by unfold State.Issues; decide +kernel⟩,
   ⟨hartR 0 (fun t => { t with priv := 1 }), 0, .mscout, 2, by unfold State.Issues; decide +kernel⟩,
   ⟨hartR 0 (fun t => { t.setCsr 0x7C0 5 with windows := [⟨0x7C0, 5, 3⟩], govern := [(0x7C0, 7)] }), 0, ⟨0x7C0, 5, 3⟩, by unfold State.Issues; decide +kernel⟩,
   ⟨hartR 0 id, 0, by unfold State.Issues; decide +kernel⟩,
   ⟨(hartR 0 (fun t => t.setCsr 0x304 0x80)).setReg (R.TIMER_MTIMECMP 0) 0, 0, by unfold State.Issues; decide +kernel⟩,
   ⟨hartR 0 (fun t => { t.setCsr 0x300 0x200000 with priv := 0 }), 0, 2, by unfold State.Issues; decide +kernel⟩,
   ⟨hartR 0 (fun t => { t with tlb := [⟨5, 0, 3, false, 0, 0, 9, 0xCF⟩, ⟨5, 0, 3, false, 2, 1, 9, 0xCF⟩], walk := [⟨0, 3, 0, 0x80000000, 1⟩] }), 0, .sfenceVma, by unfold State.Issues; decide +kernel⟩,
   ⟨hartR 0 (fun t => { (t.setX 6 0x5000).setX 7 3 with dtlb := [⟨5, 0, 3, false, 0, 0, 9, 0xCF⟩, ⟨6, 0, 3, false, 0, 0, 9, 0xCF⟩] }), 0, .sfenceVma, 6, 7, by unfold State.Issues; decide +kernel⟩,
   ⟨hartR 0 (fun t => { t with priv := 0 }), 0, .sfenceVma, 2, by unfold State.Issues; decide +kernel⟩,
   ⟨hartR 0 id, 0, by unfold State.Issues; decide +kernel⟩,
   ⟨memR, 0, 6, true, .d, 0, by unfold State.Issues; decide +kernel⟩,
   ⟨memR, 0, .store 5 false .d 6 0, by decide +kernel⟩,
   ⟨hartR 0 (fun t => { t with scout := some ⟨4, [], [], 2, 0, false, 0, []⟩ }), 0, ⟨4, [], [], 2, 0, false, 0, []⟩, by decide +kernel⟩,
   ⟨hartR 0 (fun t => { t with scout := some ⟨4, [], [], 2, 0, false, 0, []⟩ }), 0, ⟨4, [], [], 2, 0, false, 0, []⟩, .data, by decide +kernel⟩,
   ⟨hartR 0 (fun t => { t with scout := some ⟨4, [], [], 2, 0, false, 0, []⟩ }), 0, ⟨4, [], [], 2, 0, false, 0, []⟩, by decide +kernel⟩,
   ⟨hartR 0 id, 0, 10, by decide +kernel⟩,
   ⟨hartR 0 (fun t => { t.setCsr 0x7B0 0x400 with debug := true }), 0, 10, by decide +kernel⟩⟩

/-- What the clauses of HartLoadsStoresAtomicsAndCacheBlocks assume is met. -/
theorem witness_HartLoadsStoresAtomicsAndCacheBlocks :
    (∃ (s : State) (h : Fin 4) (rs1 : Fin 32) (signed : Bool) (z : Size) (imm : BitVec 12), s.PlainAccess h.val ((s.hart h.val).xr rs1.val + imm.signExtend 64).toNat (sizeLen z) ∧ s.QuietMemory ∧ (signed = true ∨ z ≠ .d)) ∧
    (∃ (s : State) (h : Fin 4) (rs1 : Fin 32) (z : Size) (imm : BitVec 12), s.PlainAccess h.val ((s.hart h.val).xr rs1.val + imm.signExtend 64).toNat (sizeLen z) ∧ s.QuietMemory ∧ (z = .w ∨ z = .d) ∧ Bits.get ((s.hart h.val).csrRaw 0x300) 13 2 ≠ 0 ∧ (s.hart h.val).virt = false) ∧
    (∃ (s : State) (h : Fin 4) (rs1 : Fin 32) (z : Size) (imm : BitVec 12), s.PlainAccess h.val ((s.hart h.val).xr rs1.val + imm.signExtend 64).toNat (sizeLen z) ∧ s.QuietMemory) ∧
    (∃ (s : State) (h : Fin 4) (z : Size), s.Issues h.val ∧ (z = .w ∨ z = .d) ∧ Bits.get ((s.hart h.val).csrRaw 0x300) 13 2 = 0 ∧ (s.hart h.val).exceptionTo 2 = 3) ∧
    (∃ (s : State) (h : Fin 4) (rs1 : Fin 32) (wide : Bool), s.PlainAccess h.val ((s.hart h.val).xr rs1.val).toNat (if wide then 8 else 4) ∧ s.QuietMemory) ∧
    (∃ (s : State) (h : Fin 4) (rs1 : Fin 32) (wide : Bool), s.PlainAccess h.val ((s.hart h.val).xr rs1.val).toNat (if wide then 8 else 4) ∧ ((s.hart h.val).reservation ≠ some (((s.hart h.val).xr rs1.val).toNat, (if wide then 8 else 4)) ∨ s.lineIn (.l2 h.val) (lineOf ((s.hart h.val).xr rs1.val).toNat) = none)) ∧
    (∃ (s : State) (h : Fin 4) (rs1 : Fin 32) (wide : Bool) (w : Fin 8), s.PlainAccess h.val ((s.hart h.val).xr rs1.val).toNat (if wide then 8 else 4) ∧ s.SoundMemory ∧ (s.hart h.val).reservation = some (((s.hart h.val).xr rs1.val).toNat, (if wide then 8 else 4)) ∧ s.memory.lines = [⟨.l2 h.val, lineOf ((s.hart h.val).xr rs1.val).toNat, .e, false, w.val⟩]) ∧
    (∃ (s : State) (h : Fin 4) (rs1 : Fin 32) (signed : Bool) (z : Size) (imm : BitVec 12), s.Issues h.val ∧ (s.hart h.val).priv = 3 ∧ (s.hart h.val).csrBit 0x300 17 = false ∧ (signed = true ∨ z ≠ .d) ∧ (s.hart h.val).trigFired 0 ((s.hart h.val).xr rs1.val + imm.signExtend 64).toNat = [] ∧ s.inMain ((s.hart h.val).xr rs1.val + imm.signExtend 64).toNat 1 = true ∧ (s.hart h.val).pmpOk .load 3 ((s.hart h.val).xr rs1.val + imm.signExtend 64).toNat = true ∧ ((s.hart h.val).xr rs1.val + imm.signExtend 64).toNat % sizeLen z ≠ 0 ∧ 64 < ((s.hart h.val).xr rs1.val + imm.signExtend 64).toNat % 64 + sizeLen z) ∧
    (∃ (s : State) (h : Fin 4) (rs1 : Fin 32) (z : Size) (imm : BitVec 12), s.Issues h.val ∧ (s.hart h.val).priv = 3 ∧ (s.hart h.val).csrBit 0x300 17 = false ∧ (s.hart h.val).trigFired 1 ((s.hart h.val).xr rs1.val + imm.signExtend 64).toNat = [] ∧ ((s.hart h.val).xr rs1.val + imm.signExtend 64).toNat % sizeLen z = 0 ∧ (2 ^ 40 ≤ ((s.hart h.val).xr rs1.val + imm.signExtend 64).toNat ∨ (s.inMain ((s.hart h.val).xr rs1.val + imm.signExtend 64).toNat 1 = false ∧ ioRegion ((s.hart h.val).xr rs1.val + imm.signExtend 64).toNat = false) ∨ (s.hart h.val).pmpOk .store 3 ((s.hart h.val).xr rs1.val + imm.signExtend 64).toNat = false)) ∧
    (∃ (s : State) (h : Fin 4) (rs1 : Fin 32) (wide : Bool), s.Issues h.val ∧ (s.hart h.val).priv = 3 ∧ (s.hart h.val).trigFired 0 ((s.hart h.val).xr rs1.val).toNat = [] ∧ (s.hart h.val).trigFired 1 ((s.hart h.val).xr rs1.val).toNat = [] ∧ ((s.hart h.val).xr rs1.val).toNat % (if wide then 8 else 4) ≠ 0) ∧
    (∃ (s : State) (h : Fin 4) (kind : Fin 4) (imm : BitVec 12), s.Issues h.val ∧ kind.val ≠ 2 ∧ imm.toNat % 32 = 0 ∧ ((s.hart h.val).gov 0x7C4).testBit 2 = false) ∧
    (∃ (s : State) (h : Fin 4) (rd : Fin 32) (rs1 : Fin 32) (imm : BitVec 12), s.Issues h.val ∧ (s.hart h.val).priv = 3 ∧ s.QuietMemory ∧ s.inMain (s.hart h.val).pc.toNat 1 = true ∧ (s.hart h.val).pc.toNat % 64 = 0 ∧ (s.hart h.val).pmpOk .fetch 3 (s.hart h.val).pc.toNat = true ∧ (s.hart h.val).pmpOk .fetch 3 ((s.hart h.val).pc.toNat + 2) = true ∧ s.numAt (s.hart h.val).pc.toNat 4 = iType imm.toNat rs1.val 0 rd.val 0x13) ∧
    (∃ (s : State) (h : Fin 4) (rs1 : Fin 32), s.PlainAccess h.val (lineOf ((s.hart h.val).xr rs1.val).toNat) 64 ∧ inMram (lineOf ((s.hart h.val).xr rs1.val).toNat) = false ∧ s.SoundMemory ∧ s.lineDirty (lineOf ((s.hart h.val).xr rs1.val).toNat) = true) ∧
    (∃ (s : State) (h : Fin 4) (rs1 : Fin 32), s.PlainAccess h.val (lineOf ((s.hart h.val).xr rs1.val).toNat) 64 ∧ inMram (lineOf ((s.hart h.val).xr rs1.val).toNat) = true ∧ s.SoundMemory ∧ s.lineDirty (lineOf ((s.hart h.val).xr rs1.val).toNat) = true ∧ s.mramRefuses (lineOf ((s.hart h.val).xr rs1.val).toNat) 64 = false ∧ s.memory.mram = []) ∧
    (∃ (s : State) (h : Fin 4) (rs1 : Fin 32), s.PlainAccess h.val (lineOf ((s.hart h.val).xr rs1.val).toNat) 64 ∧ inMram (lineOf ((s.hart h.val).xr rs1.val).toNat) = false ∧ s.SoundMemory) ∧
    (∃ (s : State) (h : Fin 4) (rs1 : Fin 32) (a : Nat) (b : Byte), s.PlainAccess h.val (lineOf ((s.hart h.val).xr rs1.val).toNat) 64 ∧ s.SoundMemory ∧ s.staleOf (lineOf ((s.hart h.val).xr rs1.val).toNat) = [(a, b)]) ∧
    (∃ (s : State) (h : Fin 4) (rs1 : Fin 32), s.PlainAccess h.val (lineOf ((s.hart h.val).xr rs1.val).toNat) 64 ∧ s.QuietMemory) ∧
    (∃ (s : State) (h : Fin 4) (k : CacheBlock) (rs1 : Fin 32), s.Issues h.val ∧ (s.hart h.val).priv = 3 ∧ (s.hart h.val).csrBit 0x300 17 = false ∧ k ≠ .zero ∧ ((s.hart h.val).xr rs1.val).toNat < 0x20000 ∧ (s.hart h.val).pmpOk .load 3 (lineOf ((s.hart h.val).xr rs1.val).toNat) = true) ∧
    (∃ (s : State) (h : Fin 4) (k : CacheBlock) (x : Nat), s.Issues h.val ∧ (s.hart h.val).cboBarred k = some x ∧ (s.hart h.val).exceptionTo x = 3) :=
  ⟨⟨memR, 0, 6, true, .w, 4, by unfold State.QuietMemory State.PlainAccess State.Issues; decide +kernel⟩,
   ⟨memR.modHart 0 (fun t => t.setCsr 0x300 0x2000), 0, 6, .w, 4, by unfold State.QuietMemory State.PlainAccess State.Issues; decide +kernel⟩,
   ⟨memR, 0, 6, .w, 4, by unfold State.QuietMemory State.PlainAccess State.Issues; decide +kernel⟩,
   ⟨memR.modHart 0 (fun t => t.setCsr 0x300 0), 0, .w, by unfold State.Issues; decide +kernel⟩,
   ⟨memR, 0, 6, true, by unfold State.QuietMemory State.PlainAccess State.Issues; decide +kernel⟩,
   ⟨memR, 0, 6, false, by unfold State.PlainAccess State.Issues; decide +kernel⟩,
   ⟨(memR.modHart 0 (fun t => { t with reservation := some (0x01000100, 8) })).setLines [⟨.l2 0, 0x01000100, .e, false, 2⟩], 0, 6, true, 2, by unfold State.PlainAccess State.Issues State.SoundMemory State.StoredRight; decide +kernel⟩,
   ⟨memR, 0, 6, true, .w, 61, by unfold State.Issues; decide +kernel⟩,
   ⟨memR, 0, 0, .w, 4, by unfold State.Issues; decide +kernel⟩,
   ⟨memR.modHart 0 (fun t => t.setX 6 0x01000102), 0, 6, false, by unfold State.Issues; decide +kernel⟩,
   ⟨memR.modHart 0 (fun t => t.setCsr 0x7C4 0x801), 0, 1, 32, by unfold State.Issues; decide +kernel⟩,
   ⟨(hartR 0 (fun t => { t with pc := 0x01000040 })).putMem 0x01000040 (leBytes 4 (iType 0xFFF 0 0 5 0x13)), 0, 5, 0, 0xFFF, by unfold State.Issues State.QuietMemory; decide +kernel⟩,
   ⟨dirtyR 0x80000080, 0, 6, by unfold State.PlainAccess State.Issues State.SoundMemory State.StoredRight; decide +kernel⟩,
   ⟨dirtyR 0x08000080, 0, 6, by unfold State.PlainAccess State.Issues State.SoundMemory State.StoredRight; decide +kernel⟩,
   ⟨dirtyR 0x80000080, 0, 6, by unfold State.PlainAccess State.Issues State.SoundMemory State.StoredRight; decide +kernel⟩,
   ⟨dirtyR 0x80000080, 0, 6, 0x80000085, 0x55, by unfold State.PlainAccess State.Issues State.SoundMemory State.StoredRight; decide +kernel⟩,
   ⟨memR, 0, 6, by unfold State.QuietMemory State.PlainAccess State.Issues; decide +kernel⟩,
   ⟨memR, 0, .inval, 0, by unfold State.Issues; decide +kernel⟩,
   ⟨memR.modHart 0 (fun t => { t.setCsr 0x30A 0 with priv := 0 }), 0, .zero, 2, by unfold State.Issues; decide +kernel⟩⟩

/-- What the clauses of DebugModuleAndLockstep assume is met. -/
theorem witness_DebugModuleAndLockstep :
    (∃ (s : State) (h : Fin 4), s.Debugs h.val ∧ s.haltable h.val = true ∧ (s.hart h.val).scout = none ∧ (s.hart h.val).wfi = false ∧ (s.hart h.val).lou = []) ∧
    (∃ (s : State) (h : Fin 4), s.Debugs h.val ∧ (s.hart h.val).debug = true) ∧
    (∃ (s : State) (h : Fin 4), s.Debugs h.val) ∧
    (∃ (s : State) (h : Fin 4), s.Issues h.val ∧ (s.hart h.val).csrBit 0x7B0 (s.hart h.val).ebreakBit = false ∧ (s.hart h.val).exceptionTo 3 = 3) ∧
    (∃ (s : State) (h : Fin 4), s.Issues h.val ∧ (s.hart h.val).csrBit 0x7B0 (s.hart h.val).ebreakBit = true) ∧
    (∃ (s : State) (a : BitVec 7), s.TapReaches ∧ s.debugOpen = true ∧ (a ≠ 0x3C ∨ s.dm.sbReadOnData = false)) ∧
    (∃ (s : State) (v : Word), s.TapReaches ∧ s.debugOpen = true ∧ s.dm.active = true ∧ v.toNat < 2 ^ 26 ∧ v.toNat % 4 = 1 ∧ v.toNat / 4 % 2 ^ 14 = 0 ∧ s.visible.contains (v.toNat / 2 ^ 16 % 4) = true) ∧
    (∃ (s : State) (v : Word), s.TapReaches ∧ s.debugOpen = true ∧ v.getLsbD 0 = false) ∧
    (∃ (s : State), s.bankLive 0 = true) ∧
    (∃ (s : State) (r : DebugRequest), s.bankLive 0 = false ∧ (r = .halt ∨ r = .resume ∨ r = .ackHaveReset ∨ r = .dmiReset)) ∧
    (∃ (s : State), s.TapReaches ∧ s.debugOpen = false) ∧
    (∃ (s : State) (h : Fin 4) (clear : Bool), s.Debugs h.val ∧ (s.hart h.val).debug = true ∧ (clear = true ∨ s.dm.cmderr = 0)) ∧
    (∃ (s : State) (h : Fin 4), s.Debugs h.val ∧ (s.hart h.val).debug = true ∧ s.dm.cmderr = 0) ∧
    (∃ (s : State) (h : Fin 4), s.Debugs h.val ∧ (s.hart h.val).debug = true ∧ (s.hart h.val).running = true ∧ (s.hart h.val).fenced = false ∧ (s.hart h.val).parked = false ∧ (s.hart h.val).wfi = false ∧ (s.hart h.val).scout = none ∧ (s.hart h.val).lou = [] ∧ (s.hart h.val).prog = none ∧ (s.hart h.val).stepping = false ∧ s.fld F.PWR_STATE_CUR ≤ 1 ∧ s.dm.cmderr = 0 ∧ s.dm.progbuf.length = 8) ∧
    (∃ (s : State) (h : Fin 4) (command : Word), s.Debugs h.val ∧ (s.hart h.val).debug = false ∧ s.dm.cmderr = 0 ∧ command.toNat < 2 ^ 24 ∧ command.getLsbD 19 = false ∧ command.getLsbD 17 = false) ∧
    (∃ (s : State) (h : Fin 4) (command : Word), s.Debugs h.val ∧ s.dm.cmderr = 0 ∧ (2 ^ 24 ≤ command.toNat ∨ command.getLsbD 19 = true)) ∧
    (∃ (s : State) (a : BitVec 40) (size : Fin 8) (clear : Bool), s.TapReaches ∧ s.debugOpen = true ∧ (clear = true ∨ s.dm.sberror = 0) ∧ (size = 2 ∨ size = 3) ∧ s.inMain a.toNat 1 = true ∧ inMram a.toNat = false ∧ a.toNat % 2 ^ size.val = 0 ∧ s.QuietMemory) ∧
    (∃ (s : State) (a : BitVec 40) (size : Fin 8) (clear : Bool), s.TapReaches ∧ s.debugOpen = true ∧ (clear = true ∨ s.dm.sberror = 0) ∧ (size = 2 ∨ size = 3) ∧ s.inMain a.toNat 1 = true ∧ a.toNat % 2 ^ size.val = 0 ∧ s.QuietMemory) ∧
    (∃ (s : State) (a : BitVec 40) (size : Fin 8), s.TapReaches ∧ s.debugOpen = true ∧ s.dm.sberror = 0 ∧ ((size ≠ 2 ∧ size ≠ 3) ∨ a.toNat % 2 ^ size.val ≠ 0)) ∧
    (∃ (s : State) (a : BitVec 40) (size : Fin 8), s.TapReaches ∧ s.debugOpen = false ∧ dmReaches a.toNat (2 ^ size.val) = false) ∧
    (∃ (s : State), s.TapReaches ∧ s.debugOpen = true) ∧
    (∃ (s : State) (pair : Fin 2), s.guarded = true ∧ s.fabricRuns = true ∧ (s.hart (2 * pair.val)).running = true ∧ (s.hart (2 * pair.val)).fenced = false ∧ s.belay.test = none ∧ s.flag F.BELAY_LOG_CTRL_EN = false ∧ s.fld (F.BELAY_REACT_REACT (1 + pair.val)) = 0) ∧
    (∃ (s : State) (pair : Fin 2), s.belay.lockstepShots.testBit pair.val = false) ∧
    (∃ (s : State), s.guarded = false) :=
  ⟨⟨hartR 2 (fun t => { t with pc := 0x440, priv := 1, virt := true }), 2, by unfold State.Debugs State.TapReaches; decide +kernel⟩,
   ⟨hartR 2 (fun t => { (t.setCsr 0x7B1 0x880).setCsr 0x7B0 0x40000005 with debug := true }), 2, by unfold State.Debugs State.TapReaches; decide +kernel⟩,
   ⟨hartR 2 id, 2, by unfold State.Debugs State.TapReaches; decide +kernel⟩,
   ⟨hartR 2 id, 2, by unfold State.Issues; decide +kernel⟩,
   ⟨hartR 2 (fun t => t.setCsr 0x7B0 0x40008003), 2, by unfold State.Issues; decide +kernel⟩,
   ⟨hartR 2 id, 0x11, by unfold State.TapReaches; decide +kernel⟩,
   ⟨{ hartR 2 id with dm := { DebugState.reset with active := true } }, 0x00020001, by unfold State.TapReaches; decide +kernel⟩,
   ⟨hartR 2 id, 0x80000000, by unfold State.TapReaches; decide +kernel⟩,
   ⟨{ State.reset with dm := { DebugState.reset with dmistat := 2 } }, by decide +kernel⟩,
   ⟨(hartR 2 id).setFld (bankFld 0) 0, .halt, by decide +kernel⟩,
   ⟨((hartR 2 id).setFld F.SYSCFG_LIFECYCLE_STATE 1).setFld F.SYSCFG_DEBUG_EN_HART_DEBUG 0, by unfold State.TapReaches; decide +kernel⟩,
   ⟨hartR 2 (fun t => { t with debug := true }), 2, false, by unfold State.Debugs State.TapReaches; decide +kernel⟩,
   ⟨hartR 2 (fun t => { t.setCsr 0x341 0x80 with debug := true }), 2, by unfold State.Debugs State.TapReaches; decide +kernel⟩,
   ⟨hartR 2 (fun t => { t.setX 5 8 with debug := true }), 2, by unfold State.Debugs State.TapReaches; decide +kernel⟩,
   ⟨hartR 2 id, 2, 0x1005, by unfold State.Debugs State.TapReaches; decide +kernel⟩,
   ⟨hartR 2 id, 2, 0x02000000, by unfold State.Debugs State.TapReaches; decide +kernel⟩,
   ⟨State.reset, 0x01000FFC, 2, false, by unfold State.QuietMemory State.TapReaches; decide +kernel⟩,
   ⟨memR, 0x01000100, 3, false, by unfold State.QuietMemory State.TapReaches; decide +kernel⟩,
   ⟨State.reset, 0x01000FFC, 3, by unfold State.TapReaches; decide +kernel⟩,
   ⟨(State.reset.setFld F.SYSCFG_LIFECYCLE_STATE 1).setFld F.SYSCFG_DEBUG_EN_HART_DEBUG 0, 0x01000FFC, 2, by unfold State.TapReaches; decide +kernel⟩,
   ⟨hartR 2 id, by unfold State.TapReaches; decide +kernel⟩,
   ⟨((belayQuiet (hartR 2 id)).setFld (F.BELAY_REACT_REACT 2) 0).setFld F.BELAY_LOG_CTRL_EN 0, 1, by decide +kernel⟩,
   ⟨hartR 2 id, 1, by decide +kernel⟩,
   ⟨free0, by decide +kernel⟩⟩

/-- What the clauses of CachesAreMaintainedSnoopedAndChecked assume is met. -/
theorem witness_CachesAreMaintainedSnoopedAndChecked :
    (∃ (s : State) (q : Req), OpenTo s q P.L3 ∧ s.flag F.L3_MAINT_BUSY = false) ∧
    (∃ (s : State) (q : Req) (op : Nat) (ways : Nat), OpenTo s q P.L3 ∧ s.flag F.L3_MAINT_BUSY = true ∧ s.memory.maint = some (op, ways)) ∧
    (∃ (s : State) (l : Nat) (way : Nat) (ways : Nat), s.fabricRuns = true ∧ s.memory.maint = some (1, ways) ∧ s.inDram l = true ∧ s.SoundMemory ∧ s.memory.lines = [⟨.l3, l, .m, true, way⟩]) ∧
    (∃ (s : State) (l : Nat) (way : Nat) (ways : Nat), s.fabricRuns = true ∧ s.memory.maint = some (2, ways) ∧ s.memory.lines = [⟨.l3, l, .e, false, way⟩] ∧ s.SoundMemory) ∧
    (∃ (s : State) (l : Nat) (way : Nat) (ways : Nat), s.fabricRuns = true ∧ s.memory.maint = some (2, ways) ∧ ways.testBit way = true ∧ s.inDram l = true ∧ s.SoundMemory ∧ s.memory.lines = [⟨.l3, l, .m, true, way⟩]) ∧
    (∃ (s : State), s.memory.maint = none) ∧
    (∃ (s : State) (h : Fin 4) (line : BitVec 34) (way : Nat), s.visible.contains h.val = true ∧ s.inDram (line.toNat * 64) = true ∧ s.SoundMemory ∧ s.memory.lines = [⟨.l2 h.val, line.toNat * 64, .m, true, way⟩]) ∧
    (∃ (s : State) (h : Fin 4) (line : BitVec 34) (way : Nat), s.visible.contains h.val = true ∧ s.SoundMemory ∧ s.memory.lines = [⟨.l2 h.val, line.toNat * 64, .e, false, way⟩]) ∧
    (∃ (s : State) (h : Fin 4) (line : BitVec 34) (way : Nat), s.visible.contains h.val = true ∧ s.SoundMemory ∧ s.memory.lines = [⟨.l3, line.toNat * 64, .m, true, 0⟩, ⟨.l2 h.val, line.toNat * 64, .m, true, way⟩]) ∧
    (∃ (s : State) (h : Fin 4) (line : BitVec 34) (x : CacheLine), s.memory.lines = [x] ∧ (x.cache = .l2 h.val ∨ x.line ≠ line.toNat * 64)) ∧
    (∃ (s : State) (a : BitVec 40), inBaseCamp a.toNat = true ∧ s.SoundMemory ∧ s.flag F.BELAY_CFG_LOG_CE = false) ∧
    (∃ (s : State) (a : BitVec 40), inMram a.toNat = true ∧ s.SoundMemory ∧ s.flag F.BELAY_CFG_LOG_CE = false) ∧
    (∃ (s : State) (a : BitVec 40), s.inDram a.toNat = true ∧ s.SoundMemory ∧ s.flag F.BELAY_CFG_LOG_CE = false) ∧
    (∃ (s : State) (a : BitVec 40) (b : Fin 72) (c : Fin 72), inBaseCamp a.toNat = true ∧ b ≠ c ∧ s.SoundMemory ∧ s.belay.test = none ∧ s.flag F.BELAY_LOG_CTRL_EN = false ∧ s.fld (F.BELAY_REACT_REACT 10) = 0) ∧
    (∃ (s : State) (a : BitVec 40) (b : Fin 72) (c : Fin 72), s.inDram a.toNat = true ∧ b ≠ c ∧ s.SoundMemory ∧ s.belay.test = none ∧ s.flag F.BELAY_LOG_CTRL_EN = false ∧ s.fld (F.BELAY_REACT_REACT 8) = 0 ∧ s.flag F.DMC_ECC_ADDR_VALID = false) ∧
    (∃ (s : State) (h : Fin 4) (a : BitVec 40) (way : Nat), s.visible.contains h.val = true ∧ s.memory.lines = [⟨.l1i h.val, lineOf a.toNat, .s, false, way⟩] ∧ s.SoundMemory) ∧
    (∃ (s : State) (pair : Fin 2) (a : BitVec 40) (way : Nat), s.guarded = true ∧ s.memory.lines = [⟨.l1i (2 * pair.val), lineOf a.toNat, .s, false, way⟩] ∧ s.SoundMemory) ∧
    (∃ (s : State) (k : Fin 11), k.val ≤ 3 ∧ s.QuietMemory) ∧
    (∃ (s : State), s.flag F.L3_CFG_SCRUB_EN = true ∧ s.fabricRuns = true ∧ s.memory.lines = [] ∧ s.memory.l3Scrub + 1 < 16384) ∧
    (∃ (s : State), s.flag F.L3_CFG_SCRUB_EN = true ∧ s.fabricRuns = true ∧ s.memory.lines = [] ∧ s.memory.l3Scrub = 16383) ∧
    (∃ (s : State) (slice : Fin 2) (l : Nat) (way : Nat), s.flag F.L3_CFG_SCRUB_EN = true ∧ s.fabricRuns = true ∧ s.SoundMemory ∧ s.memory.lines = [⟨.l3, l, .e, false, way⟩] ∧ way < 16 ∧ l % 64 = 0 ∧ l / 64 % 2 = slice.val ∧ s.memory.l3Scrub = 16 * (l / 64 % 2048 / 2) + way ∧ s.memory.l3Scrub + 1 < 16384 ∧ s.flag F.BELAY_CFG_LOG_CE = false) ∧
    (∃ (s : State), (s.flag F.L3_CFG_SCRUB_EN = false ∨ s.fabricRuns = false)) ∧
    (∃ (s : State), s.fabricRuns = true ∧ s.memory.lines = [] ∧ s.SoundMemory ∧ s.memory.sramScrub + 1 < 16384 ∧ s.flag F.BELAY_CFG_LOG_CE = false) ∧
    (∃ (s : State), s.fabricRuns = false) :=
  ⟨⟨State.reset, ⟨0, true⟩, by unfold OpenTo; decide +kernel⟩,
   ⟨(maintS 2 []).setFld F.L3_MAINT_BUSY 1, ⟨0, true⟩, 2, 15, by unfold OpenTo; decide +kernel⟩,
   ⟨maintS 1 [⟨.l3, 0x80000040, .m, true, 3⟩], 0x80000040, 3, 15, by unfold State.SoundMemory State.StoredRight; decide +kernel⟩,
   ⟨maintS 2 [⟨.l3, 0x80000040, .e, false, 3⟩], 0x80000040, 3, 15, by unfold State.SoundMemory State.StoredRight; decide +kernel⟩,
   ⟨maintS 2 [⟨.l3, 0x80000040, .m, true, 3⟩], 0x80000040, 3, 15, by unfold State.SoundMemory State.StoredRight; decide +kernel⟩,
   ⟨State.reset, by decide +kernel⟩,
   ⟨maintS 1 [⟨.l2 2, 0x80000040, .m, true, 3⟩], 2, 0x2000001, 3, by unfold State.SoundMemory State.StoredRight; decide +kernel⟩,
   ⟨maintS 1 [⟨.l2 2, 0x80000040, .e, false, 3⟩], 2, 0x2000001, 3, by unfold State.SoundMemory State.StoredRight; decide +kernel⟩,
   ⟨maintS 1 [⟨.l3, 0x80000040, .m, true, 0⟩, ⟨.l2 2, 0x80000040, .m, true, 3⟩], 2, 0x2000001, 3, by unfold State.SoundMemory State.StoredRight; decide +kernel⟩,
   ⟨maintS 1 [⟨.l2 2, 0x80000040, .m, true, 3⟩], 2, 0x2000001, ⟨.l2 2, 0x80000040, .m, true, 3⟩, by decide +kernel⟩,
   ⟨State.reset, 0x010FFFFF, by unfold State.SoundMemory State.StoredRight; decide +kernel⟩,
   ⟨State.reset, 0x087FFFFF, by unfold State.SoundMemory State.StoredRight; decide +kernel⟩,
   ⟨State.reset, 0x80000308, by unfold State.SoundMemory State.StoredRight; decide +kernel⟩,
   ⟨(belayQuiet State.reset).setFld (F.BELAY_REACT_REACT 10) 0, 0x010FFFFF, 71, 0, by unfold State.SoundMemory State.StoredRight; decide +kernel⟩,
   ⟨(belayQuiet State.reset).setFld (F.BELAY_REACT_REACT 8) 0, 0x80000308, 71, 0, by unfold State.SoundMemory State.StoredRight; decide +kernel⟩,
   ⟨maintS 1 [⟨.l1i 2, 0x80000040, .s, false, 3⟩], 2, 0x80000045, 3, by unfold State.SoundMemory State.StoredRight; decide +kernel⟩,
   ⟨(maintS 1 [⟨.l1i 2, 0x80000040, .s, false, 3⟩]).setFlag F.SYSCFG_MODE_GUARDED true, 1, 0x80000045, 3, by unfold State.SoundMemory State.StoredRight; decide +kernel⟩,
   ⟨State.reset, 2, by unfold State.QuietMemory; decide +kernel⟩,
   ⟨State.reset, by decide +kernel⟩,
   ⟨{ State.reset with memory := { MemState.reset with l3Scrub := 16383 } }, by decide +kernel⟩,
   ⟨{ State.reset with memory := { MemState.reset with lines := [⟨.l3, 0x80000040, .e, false, 5⟩], l3Scrub := 5 } }, 1, 0x80000040, 5, by unfold State.SoundMemory State.StoredRight; decide +kernel⟩,
   ⟨State.reset.setFld F.L3_CFG_SCRUB_EN 0, by decide +kernel⟩,
   ⟨State.reset, by unfold State.SoundMemory State.StoredRight; decide +kernel⟩,
   ⟨{ State.reset with power := { PowerState.reset with phase := .reset } }, by decide +kernel⟩⟩

/-- What the clauses of MemoryControllersScrubRefreshAndQueue assume is met. -/
theorem witness_MemoryControllersScrubRefreshAndQueue :
    (∃ (s : State), s.flag F.DMC_CTRL_SCRUB_EN = true ∧ s.flag F.DMC_SELFREF_IN_SR = false ∧ s.fabricRuns = true ∧ s.SoundMemory ∧ s.memory.dmc = [] ∧ s.memory.dmcScrub.1 + 1 < s.channelLines) ∧
    (∃ (s : State), s.flag F.DMC_CTRL_SCRUB_EN = true ∧ s.flag F.DMC_SELFREF_IN_SR = false ∧ s.fabricRuns = true ∧ s.SoundMemory ∧ s.memory.dmc = [] ∧ s.memory.dmcScrub.1 + 1 = s.channelLines) ∧
    (∃ (s : State), s.flag F.DMC_CTRL_SCRUB_EN = true ∧ s.flag F.DMC_SELFREF_IN_SR = false ∧ s.fabricRuns = true ∧ s.SoundMemory ∧ s.memory.dmc = [] ∧ s.memory.dmcScrub.1 + 1 < s.channelLines ∧ s.flag F.BELAY_CFG_LOG_CE = false) ∧
    (∃ (s : State) (channel : Fin 2) (r : DmcRequest), s.flag F.DMC_CTRL_SCRUB_EN = true ∧ s.flag F.DMC_SELFREF_IN_SR = false ∧ s.fabricRuns = true ∧ s.memory.dmc = [r, { r with channel := 1 - r.channel }] ∧ r.channel ≤ 1 ∧ r.scrub = none) ∧
    (∃ (s : State), s.memory.dmc.any (fun r => r.scrub.isSome) = true) ∧
    (∃ (s : State), (s.flag F.DMC_CTRL_SCRUB_EN = false ∨ s.flag F.DMC_SELFREF_IN_SR = true ∨ s.fabricRuns = false)) ∧
    (∃ (s : State), s.flag F.DMC_SELFREF_IN_SR = false ∧ s.power.phase = .run) ∧
    (∃ (s : State), (s.flag F.DMC_SELFREF_IN_SR = true ∨ s.power.phase ≠ .run)) ∧
    (∃ (s : State) (a : BitVec 40) (len : Fin 65), s.fabricRuns = true ∧ s.inDram a.toNat = true ∧ len ≠ 0 ∧ a.toNat % 64 + len.val ≤ 64 ∧ s.memory.dmc = []) ∧
    (∃ (s : State) (r : DmcRequest), s.fabricRuns = true ∧ s.memory.dmc = [r] ∧ r.channel = 1 ∧ r.queue ≤ 2 ∧ r.data = [] ∧ r.len = 8 ∧ r.scrub = none ∧ s.StoredRight ∧ s.staleOf r.addr = [] ∧ r.addr % 64 = 0) ∧
    (∃ (s : State) (r : DmcRequest), s.fabricRuns = true ∧ s.memory.dmc = [r] ∧ r.channel = 0 ∧ r.queue ≤ 2 ∧ r.data.length = 8 ∧ r.scrub = none ∧ s.inDram r.addr = true ∧ r.addr % 8 = 0 ∧ s.StoredRight) ∧
    (∃ (s : State) (r : DmcRequest), s.fabricRuns = true ∧ s.memory.dmc = [r] ∧ r.channel = 1 ∧ r.queue = 2) ∧
    (∃ (s : State), s.fabricRuns = true) ∧
    (∃ (s : State) (word : BitVec 20), s.fabricRuns = true ∧ s.mramRefuses (0x08000000 + 8 * word.toNat) 8 = false ∧ s.SoundMemory ∧ s.memory.mram = []) ∧
    (∃ (s : State), s.fabricRuns = true ∧ s.power.mramClosed = true) ∧
    (∃ (s : State) (word : BitVec 20), s.fabricRuns = true ∧ s.power.mramClosed = false ∧ s.writeProtected (0x08000000 + 8 * word.toNat) = true) ∧
    (∃ (s : State) (e : MramWrite) (bank : Fin 2), s.memory.mram = [e] ∧ mramBank e.addr = bank.val ∧ s.flag F.MRAMC_QUEUE_DRAINING = true) ∧
    (∃ (s : State), s.memory.mram = [] ∧ s.flag F.MRAMC_QUEUE_DRAINING = false) :=
  ⟨⟨State.reset, by unfold State.SoundMemory State.StoredRight; decide +kernel⟩,
   ⟨{ State.reset with memory := { MemState.reset with dmcScrub := (State.reset.channelLines - 1, 0) } }, by unfold State.SoundMemory State.StoredRight; decide +kernel⟩,
   ⟨State.reset, by unfold State.SoundMemory State.StoredRight; decide +kernel⟩,
   ⟨{ State.reset with memory := { MemState.reset with dmc := [⟨1, 0x80000100, 2, 8, [], none⟩, ⟨0, 0x80000100, 2, 8, [], none⟩] } }, 1, ⟨1, 0x80000100, 2, 8, [], none⟩, by decide +kernel⟩,
   ⟨{ State.reset with memory := { MemState.reset with dmc := [⟨1, 0x80000100, 2, 64, [], some (3, [])⟩] } }, by decide +kernel⟩,
   ⟨State.reset.setFld F.DMC_CTRL_SCRUB_EN 0, by decide +kernel⟩,
   ⟨State.reset, by decide +kernel⟩,
   ⟨State.reset.setFld F.DMC_SELFREF_IN_SR 1, by decide +kernel⟩,
   ⟨State.reset, 0x800001F8, 8, by decide +kernel⟩,
   ⟨{ memR with memory := { MemState.reset with dmc := [⟨1, 0x80000100, 2, 8, [], none⟩] } }, ⟨1, 0x80000100, 2, 8, [], none⟩, by unfold State.StoredRight; decide +kernel⟩,
   ⟨{ memR with memory := { MemState.reset with dmc := [⟨0, 0x80000208, 1, 0, leBytes 8 0x0102030405060708, none⟩] } }, ⟨0, 0x80000208, 1, 0, leBytes 8 0x0102030405060708, none⟩, by unfold State.StoredRight; decide +kernel⟩,
   ⟨{ State.reset with memory := { MemState.reset with dmc := [⟨1, 0x80000100, 2, 8, [], none⟩] } }, ⟨1, 0x80000100, 2, 8, [], none⟩, by decide +kernel⟩,
   ⟨{ State.reset with memory := { MemState.reset with openRows := [⟨1, 5, 77⟩] } }, by decide +kernel⟩,
   ⟨State.reset, 0xFFFFF, by unfold State.SoundMemory State.StoredRight; decide +kernel⟩,
   ⟨{ State.reset with power := { PowerState.reset with mramClosed := true } }, by decide +kernel⟩,
   ⟨((State.reset.setFld F.MRAMC_CFG_WP_EN 1).setFld F.MRAMC_WP_BASE_BASE 0).setFld F.MRAMC_WP_LIMIT_LIMIT 2048, 0xFFFFF, by decide +kernel⟩,
   ⟨{ State.reset.setFld F.MRAMC_QUEUE_DRAINING 1 with memory := { MemState.reset with mram := [⟨0x08000008, 1, 2⟩], mramAhead := 1 } }, ⟨0x08000008, 1, 2⟩, 1, by decide +kernel⟩,
   ⟨State.reset, by decide +kernel⟩⟩

/-- What the clauses of LoomRequestsResponsesAndPicks assume is met. -/
theorem witness_LoomRequestsResponsesAndPicks :
    (∃ (s : State) (k : LoomPacket) (prio : Nat), s.Requests k k.target.val ∧ s.packetRes k = none ∧ s.packetPrio k = some prio ∧ k.ahead = false ∧ s.loomServes k.ini.val k.target.val k.addr.toNat = true ∧ s.loom.txns = [] ∧ s.loom.waiting = [] ∧ s.aheadOf k.ini.val k.target.val = 0 ∧ s.fld (F.LOOM_NI_TOKEN_OUT k.ini.val k.target.val) < s.quotaInUse k.ini.val k.target.val ∧ s.fld (F.LOOM_NI_TOKEN_OUT k.ini.val k.target.val) + 1 < 2 ^ (F.LOOM_NI_TOKEN_OUT k.ini.val k.target.val).width) ∧
    (∃ (s : State) (k : LoomPacket), s.packetRes k = none ∧ s.aheadOf k.ini.val k.target.val = 0 ∧ s.quotaInUse k.ini.val k.target.val ≤ s.fld (F.LOOM_NI_TOKEN_OUT k.ini.val k.target.val)) ∧
    (∃ (s : State) (k : LoomPacket), k.ini.val ≤ 3 ∧ s.Requests k k.target.val ∧ s.packetRes k = none ∧ k.ahead = true ∧ k.pref = true ∧ k.op.val ≤ 2 ∧ s.loomServes k.ini.val k.target.val k.addr.toNat = true ∧ s.fld (F.LOOM_NI_TOKEN_OUT k.ini.val k.target.val) < s.quotaInUse k.ini.val k.target.val ∧ s.fld (F.LOOM_NI_TOKEN_OUT k.ini.val k.target.val) + 1 < 2 ^ (F.LOOM_NI_TOKEN_OUT k.ini.val k.target.val).width) ∧
    (∃ (s : State) (k : LoomPacket), k.ini.val ≤ 3 ∧ s.Requests k k.target.val ∧ s.packetRes k = none ∧ k.ahead = false ∧ k.pref = true ∧ k.op.val ≤ 2 ∧ s.loomServes k.ini.val k.target.val k.addr.toNat = true ∧ s.loom.txns = [] ∧ s.loom.waiting = [] ∧ 0 < s.aheadOf k.ini.val k.target.val) ∧
    (∃ (s : State) (k : LoomPacket) (r : Fin 64) (prio : Nat), (s.packetRes k).bind (fun n => s.resFor k.ini.val k.target.val k.addr.toNat n) = some r.val ∧ s.Requests k (resTarget (s.loom.live.word r.val)) ∧ s.packetPrio k = some prio ∧ (resDram (s.loom.live.word r.val) = true ∨ s.loomServes k.ini.val (resTarget (s.loom.live.word r.val)) k.addr.toNat = true)) ∧
    (∃ (s : State) (t0 : LoomTxn) (status : Fin 3) (halves : Fin 4), s.OneTxn t0 ∧ t0.guar = false ∧ t0.res = none ∧ t0.use = .nothing ∧ ((status = 2 → t0.op < 3 ∧ halves ≠ 0)) ∧ s.poisonedHalves t0 = 0 ∧ s.loom.live.quota = [] ∧ s.Uncounted t0.init ∧ s.Uncounted t0.target ∧ 1 ≤ s.fld (F.LOOM_NI_TOKEN_OUT t0.init t0.target)) ∧
    (∃ (s : State) (t0 : LoomTxn) (h : Fin 4) (va : DWord) (status : Fin 3) (halves : Fin 4), s.OneTxn t0 ∧ t0.guar = false ∧ t0.res = none ∧ t0.init = h.val ∧ t0.use = .load va ∧ t0.op = 0 ∧ status ≠ 0 ∧ ((status = 2 → halves ≠ 0)) ∧ s.Issues h.val ∧ (s.hart h.val).exceptionTo 5 = 3 ∧ s.loom.live.quota = [] ∧ s.Uncounted t0.init ∧ s.Uncounted t0.target) ∧
    (∃ (s : State) (t0 : LoomTxn), s.OneTxn t0 ∧ t0.guar = false ∧ t0.res = none ∧ t0.init ≠ t0.target ∧ t0.op = 0 ∧ t0.len < 64 ∧ s.poisonedHalves t0 = 0 ∧ s.loom.live.quota = [] ∧ s.statPasses t0.init 0 t0.target false none = true ∧ s.Uncounted t0.target ∧ s.fld (F.LOOM_NI_STAT_CFG_LAT_OP t0.init) = 2) ∧
    (∃ (s : State) (t0 : LoomTxn), s.OneTxn t0 ∧ t0.guar = false ∧ t0.res = none ∧ t0.use = .nothing ∧ t0.op < 3 ∧ s.poisonedHalves t0 ≠ 0 ∧ s.loom.live.quota = [] ∧ s.Uncounted t0.init ∧ s.Uncounted t0.target) ∧
    (∃ (s : State) (ini : Fin 16) (txid : Fin 64), s.txn ini.val txid.val = none) ∧
    (∃ (s : State) (h : Fin 4) (target : Fin 16), s.fabricRuns = true ∧ 0 < s.aheadOf h.val target.val ∧ s.loom.live.quota = [] ∧ s.Uncounted h.val) ∧
    (∃ (s : State) (h : Fin 4) (target : Fin 16), (s.aheadOf h.val target.val = 0 ∨ s.fabricRuns = false)) ∧
    (∃ (s : State) (p : Byte), s.fabricRuns = true ∧ s.loom.began ≤ p.toNat ∧ s.loom.live.picks = [] ∧ (∀ i : Fin 8, s.running (P.LOOM_PROBE i.val) = false)) ∧
    (∃ (s : State) (p : Byte), (p.toNat < s.loom.began ∨ s.fabricRuns = false)) ∧
    (∃ (s : State) (p : Byte) (r : Fin 64) (x : LoomTxn), s.fabricRuns = true ∧ s.loom.began = p.toNat ∧ s.loom.live.owners p.toNat = [r.val] ∧ (∀ i : Fin 8, s.running (P.LOOM_PROBE i.val) = false) ∧ s.screeActs = false ∧ s.loom.txns = [] ∧ s.loom.waiting = [] ∧ s.queuedRes r.val = [x] ∧ s.niClocked x.init = true ∧ x.init < 16 ∧ 0 < s.guarTokens r.val ∧ (s.loom.live.word r.val).testBit 2 = false) :=
  ⟨⟨hartS 3 id, { pkt0 with ini := 3, target := 4, addr := 0x80000000, len := 63 }, (hartS 3 id).fld (F.LOOM_NI_CFG_PRIO 3), by unfold State.Requests; decide +kernel⟩,
   ⟨(hartS 3 id).setFld (F.LOOM_NI_TOKEN_QUOTA 3 4) 0, { pkt0 with ini := 3, target := 4 }, by decide +kernel⟩,
   ⟨hartS 3 id, { pkt0 with ini := 3, target := 4, pref := true, ahead := true, op := 2 }, by unfold State.Requests; decide +kernel⟩,
   ⟨(hartS 3 id).setAhead 3 4 1, { pkt0 with ini := 3, target := 4, pref := true, op := 2 }, by unfold State.Requests; decide +kernel⟩,
   ⟨{ (hartS 3 (fun t => t)).setFld (F.LOOM_NI_CFG_BIND_EN 3) 1 |>.setFld (F.LOOM_NI_CFG_RES_BIND 3) 5 with loom := { LoomState.reset with live := { LoomState.reset.live with res := [(5, BitVec.ofNat 64 (1 + 16 * 3 + 256 * 10))] } } }, { pkt0 with ini := 3, target := 10, addr := 0x10000000, len := 3, io := true }, 5, ((hartS 3 id).fld (F.LOOM_NI_CFG_PRIO 3)), by unfold State.Requests; decide +kernel⟩,
   ⟨((txnS txn0).setFld (F.LOOM_NI_STAT_CFG_EN 3) 0).setFld (F.LOOM_NI_STAT_CFG_EN 6) 0, txn0, 0, 3, by unfold State.OneTxn State.Uncounted; decide +kernel⟩,
   ⟨((txnS { txn0 with use := .load 0x80000123 }).setFld (F.LOOM_NI_STAT_CFG_EN 3) 0).setFld (F.LOOM_NI_STAT_CFG_EN 6) 0, { txn0 with use := .load 0x80000123 }, 3, 0x80000123, 1, 0, by unfold State.Issues State.OneTxn State.Uncounted; decide +kernel⟩,
   ⟨(((txnS txn0).setFld (F.LOOM_NI_STAT_CFG_EN 6) 0).setFld (F.LOOM_NI_STAT_CFG_PEER_MASK 3) 0xFFFF).setFld (F.LOOM_NI_STAT_CFG_LAT_OP 3) 2, txn0, by unfold State.OneTxn State.Uncounted; decide +kernel⟩,
   ⟨{ (((txnS txn0).setFld (F.LOOM_NI_STAT_CFG_EN 3) 0).setFld (F.LOOM_NI_STAT_CFG_EN 6) 0) with memory := { State.reset.memory with poison := [0x80000020] } }, txn0, by unfold State.OneTxn State.Uncounted; decide +kernel⟩,
   ⟨txnS txn0, 3, 8, by decide +kernel⟩,
   ⟨{ ((hartS 3 id).setFld (F.LOOM_NI_TOKEN_OUT 3 6) 2).setFld (F.LOOM_NI_STAT_CFG_EN 3) 0 with loom := { LoomState.reset with spec := [(54, 1)] } }, 3, 6, by unfold State.Uncounted; decide +kernel⟩,
   ⟨State.reset, 3, 6, by decide +kernel⟩,
   ⟨State.reset, 255, by decide +kernel⟩,
   ⟨{ State.reset with loom := { LoomState.reset with began := 256 } }, 255, by decide +kernel⟩,
   ⟨pickS [], 9, 5, resTxn, by decide +kernel⟩⟩

/-- What the clauses of LoomHomeChecksLateReturnsAndErrors assume is met. -/
theorem witness_LoomHomeChecksLateReturnsAndErrors :
    (∃ (s : State) (ini : Fin 16) (txid : Fin 64) (t0 : LoomTxn) (way : Nat), s.OneTxn t0 ∧ t0.init = ini.val ∧ t0.txid = txid.val ∧ t0.res ≠ none ∧ (t0.target = 6 ∨ t0.target = 7) ∧ 3 ≤ t0.op ∧ s.inDram (lineOf t0.addr) = true ∧ s.SoundMemory ∧ s.memory.lines = [⟨.l3, lineOf t0.addr, .m, true, way⟩]) ∧
    (∃ (s : State) (ini : Fin 16) (txid : Fin 64) (t0 : LoomTxn) (h : Fin 4) (way : Nat), s.OneTxn t0 ∧ t0.init = ini.val ∧ t0.txid = txid.val ∧ t0.res ≠ none ∧ (t0.target = 6 ∨ t0.target = 7) ∧ t0.op ≤ 2 ∧ s.inDram (lineOf t0.addr) = true ∧ s.SoundMemory ∧ s.visible.contains h.val = true ∧ s.memory.lines = [⟨.l2 h.val, lineOf t0.addr, .m, true, way⟩]) ∧
    (∃ (s : State) (ini : Fin 16) (txid : Fin 64) (t0 : LoomTxn), s.txn ini.val txid.val = some t0 ∧ (t0.res = none ∨ t0.abandoned = true ∨ t0.lost = true)) ∧
    (∃ (s : State) (ini : Fin 16) (txid : Fin 64) (t0 : LoomTxn), s.OneTxn t0 ∧ t0.init = ini.val ∧ t0.txid = txid.val ∧ t0.guar = true ∧ t0.target ≠ 6 ∧ t0.target ≠ 7 ∧ s.loom.waiting = [] ∧ 10 ≤ s.pickAge t0) ∧
    (∃ (s : State) (ini : Fin 16) (txid : Fin 64) (t0 : LoomTxn), s.txn ini.val txid.val = some t0 ∧ (t0.guar = false ∨ t0.target = 6 ∨ t0.target = 7 ∨ s.pickAge t0 < 10)) ∧
    (∃ (s : State) (router : Fin 12) (plane : Fin 4) (ini : Fin 16) (txid : Fin 64) (t0 : LoomTxn), s.txn ini.val txid.val = some t0 ∧ s.flag F.LOOM_CTRL_AGING = true ∧ t0.guar = false ∧ t0.lost = false ∧ s.loom.waiting = [] ∧ plane ≠ 2 ∧ t0.crosses plane.val router.val = true ∧ ((plane = 0 → t0.arrived = false))) ∧
    (∃ (s : State) (router : Fin 12) (plane : Fin 4) (ini : Fin 16) (txid : Fin 64) (t0 : LoomTxn), s.txn ini.val txid.val = some t0 ∧ (s.flag F.LOOM_CTRL_AGING = false ∨ t0.crosses plane.val router.val = false)) ∧
    (∃ (s : State) (ini : Fin 16) (txid : Fin 64) (t0 : LoomTxn), s.OneTxn t0 ∧ t0.init = ini.val ∧ t0.txid = txid.val) ∧
    (∃ (s : State) (ini : Fin 16) (txid : Fin 64) (t0 : LoomTxn), s.OneTxn t0 ∧ t0.init = ini.val ∧ t0.txid = txid.val ∧ t0.res = none ∧ t0.use = .nothing ∧ s.loom.live.quota = [] ∧ s.belay.test = none ∧ s.flag F.BELAY_LOG_CTRL_EN = false ∧ s.fld (F.BELAY_REACT_REACT 7) = 0) ∧
    (∃ (s : State) (ini : Fin 16) (txid : Fin 64) (t0 : LoomTxn) (h : Fin 4) (va : DWord), s.OneTxn t0 ∧ t0.init = ini.val ∧ t0.txid = txid.val ∧ t0.res = none ∧ t0.use = .store va ∧ ini.val = h.val ∧ s.Issues h.val ∧ (s.hart h.val).exceptionTo 7 = 3 ∧ s.loom.live.quota = [] ∧ s.belay.test = none ∧ s.flag F.BELAY_LOG_CTRL_EN = false ∧ s.fld (F.BELAY_REACT_REACT 7) = 0) ∧
    (∃ (s : State) (ini : Fin 16) (txid : Fin 64) (t0 : LoomTxn) (c : BitVec 12) (k : HeddleChannel) (it : HeddleItem), s.OneTxn t0 ∧ t0.init = ini.val ∧ t0.txid = txid.val ∧ t0.res = none ∧ t0.use = .move c ∧ s.hch c.toNat = some k ∧ k.current = some it ∧ s.loom.live.quota = [] ∧ s.belay.test = none ∧ s.flag F.BELAY_LOG_CTRL_EN = false ∧ s.fld (F.BELAY_REACT_REACT 7) = 0) ∧
    (∃ (s : State) (ini : Fin 16) (txid : Fin 64), s.txn ini.val txid.val = none ∧ s.boot.xip = []) ∧
    (∃ (s : State) (ini : Fin 16) (txid : Fin 64), s.fabricRuns = true ∧ s.txn ini.val txid.val = none ∧ s.belay.flitShots = [] ∧ s.flag F.BELAY_CFG_LOG_CE = false) ∧
    (∃ (s : State), s.fabricRuns = true ∧ s.loom.txns = [] ∧ s.belay.flitShots = [] ∧ s.belay.test = none ∧ s.flag F.BELAY_LOG_CTRL_EN = false ∧ s.fld (F.BELAY_REACT_REACT 5) = 0 ∧ s.flag F.LOOM_ECC_WHERE_VALID = false) ∧
    (∃ (s : State) (router : Fin 12) (plane : Fin 4) (ini : Fin 16) (txid : Fin 64) (t0 : LoomTxn), s.OneTxn t0 ∧ t0.init = ini.val ∧ t0.txid = txid.val ∧ s.fabricRuns = true ∧ t0.crosses plane.val router.val = true ∧ s.belay.flitShots = [] ∧ s.belay.test = none ∧ s.flag F.BELAY_LOG_CTRL_EN = false ∧ s.fld (F.BELAY_REACT_REACT 5) = 0) ∧
    (∃ (s : State) (router : Fin 12) (plane : Fin 4) (ini : Fin 16) (txid : Fin 64) (t0 : LoomTxn), s.txn ini.val txid.val = some t0 ∧ (t0.crosses plane.val router.val = false ∨ s.fabricRuns = false)) :=
  ⟨⟨{ (txnS { resTxn with target := 6, addr := 0x8000004F, op := 3 }) with memory := (maintS 1 [⟨.l3, 0x80000040, .m, true, 3⟩]).memory }, 8, 0, { resTxn with target := 6, addr := 0x8000004F, op := 3 }, 3, by unfold State.SoundMemory State.StoredRight State.OneTxn; decide +kernel⟩,
   ⟨{ (txnS { resTxn with target := 6, addr := 0x8000004F, op := 0 }) with memory := (maintS 1 [⟨.l2 2, 0x80000040, .m, true, 3⟩]).memory }, 8, 0, { resTxn with target := 6, addr := 0x8000004F, op := 0 }, 2, 3, by unfold State.SoundMemory State.StoredRight State.OneTxn; decide +kernel⟩,
   ⟨txnS txn0, 3, 7, txn0, by decide +kernel⟩,
   ⟨(txnS { txn0 with guar := true, target := 4 }).setFld F.LOOM_ROUND_PICK 10, 3, 7, { txn0 with guar := true, target := 4 }, by unfold State.OneTxn; decide +kernel⟩,
   ⟨(txnS { txn0 with guar := true, target := 4 }).setFld F.LOOM_ROUND_PICK 9, 3, 7, { txn0 with guar := true, target := 4 }, by decide +kernel⟩,
   ⟨(txnS txn0).setFld F.LOOM_CTRL_AGING 1, ⟨niRouter 6, by decide⟩, 0, 3, 7, txn0, by decide +kernel⟩,
   ⟨(txnS { txn0 with target := 4, init := 0 }).setFld F.LOOM_CTRL_AGING 1, 11, 0, 0, 7, { txn0 with target := 4, init := 0 }, by decide +kernel⟩,
   ⟨txnS txn0, 3, 7, txn0, by unfold State.OneTxn; decide +kernel⟩,
   ⟨(belayQuiet (txnS txn0)).setFld (F.BELAY_REACT_REACT 7) 0, 3, 7, txn0, by unfold State.OneTxn; decide +kernel⟩,
   ⟨(belayQuiet (txnS { txn0 with use := .store 0x80000FF8 })).setFld (F.BELAY_REACT_REACT 7) 0, 3, 7, { txn0 with use := .store 0x80000FF8 }, 3, 0x80000FF8, by unfold State.Issues State.OneTxn; decide +kernel⟩,
   ⟨{ (belayQuiet (work 0 0 item0)).setFld (F.BELAY_REACT_REACT 7) 0 with loom := { LoomState.reset with txns := [{ txn0 with init := 8, target := 4, use := .move 9 }], live := { LoomState.reset.live with quota := [] } } }, 8, 7, { txn0 with init := 8, target := 4, use := .move 9 }, 9, chan0 0 0 item0, item0, by unfold State.OneTxn; decide +kernel⟩,
   ⟨State.reset, 3, 7, by decide +kernel⟩,
   ⟨State.reset, 0, 0, by decide +kernel⟩,
   ⟨(belayQuiet State.reset).setFld (F.BELAY_REACT_REACT 5) 0, by decide +kernel⟩,
   ⟨(belayQuiet (txnS txn0)).setFld (F.BELAY_REACT_REACT 5) 0, ⟨niRouter 6, by decide⟩, 0, 3, 7, txn0, by unfold State.OneTxn; decide +kernel⟩,
   ⟨txnS { txn0 with target := 4, init := 0 }, 11, 0, 0, 7, { txn0 with target := 4, init := 0 }, by decide +kernel⟩⟩

theorem imageBytes_length : imageBytes.length = 3584 := by simp only [imageBytes, List.length_append, length_leBytes, List.length_replicate]
theorem imageS_bytes : (quietLoom imageS).bytesAt 0x01000000 3584 = imageBytes := by
  have h := State.bytesAt_putMem State.reset 0x01000000 imageBytes
  rw [imageBytes_length] at h
  exact h
theorem imageS_base : (quietLoom imageS).fld F.LOOM_IMAGE_BASE_ADDR * 64 = 0x01000000 := by decide +kernel
theorem imageS_open : OpenTo (quietLoom imageS) ⟨0, true⟩ P.LOOM_CFG ∧ (quietLoom imageS).fld F.LOOM_COMMIT_STAT_STATE = 0 ∧ (quietLoom imageS).QuietMemory ∧
    (quietLoom imageS).inMain 0x01000000 3584 = true := by unfold OpenTo State.QuietMemory; decide +kernel
theorem imageS_uncounted : (quietLoom imageS).Uncounted 4 ∧ (quietLoom imageS).Uncounted 5 ∧ (quietLoom imageS).Uncounted 10 ∧
    (quietLoom imageS).ImageInSequence := by unfold State.Uncounted State.ImageInSequence; decide +kernel
theorem imageS_format : imageFormat (quietLoom imageS).guarded imageBytes = none := by decide +kernel
theorem imageS_table : tableRefusal (imageTable imageBytes) ((quietLoom imageS).flag F.LOOM_ADMIT_HOTSAFE) = none := by decide +kernel

/-- What the clauses of LoomTablesRoundsAndProbes assume is met. -/
theorem witness_LoomTablesRoundsAndProbes :
    (∃ (s : State) (q : Req), OpenTo s q P.LOOM_CFG ∧ s.fld F.LOOM_COMMIT_STAT_STATE = 0 ∧ s.QuietMemory ∧ s.Uncounted 4 ∧ s.Uncounted 5 ∧ s.Uncounted 10 ∧ s.ImageInSequence ∧ s.inMain (s.fld F.LOOM_IMAGE_BASE_ADDR * 64) 3584 = true ∧ imageFormat s.guarded (s.bytesAt (s.fld F.LOOM_IMAGE_BASE_ADDR * 64) 3584) = none ∧ tableRefusal (imageTable (s.bytesAt (s.fld F.LOOM_IMAGE_BASE_ADDR * 64) 3584)) (s.flag F.LOOM_ADMIT_HOTSAFE) = none) ∧
    (∃ (s : State) (q : Req), OpenTo s q P.LOOM_CFG ∧ s.fld F.LOOM_COMMIT_STAT_STATE ≠ 0) ∧
    (∃ (s : State) (q : Req) (reason : Nat) (detail : Nat), OpenTo s q P.LOOM_CFG ∧ s.fld F.LOOM_COMMIT_STAT_STATE = 0 ∧ s.QuietMemory ∧ s.Uncounted 4 ∧ s.Uncounted 5 ∧ s.Uncounted 10 ∧ s.ImageInSequence ∧ s.inMain (s.fld F.LOOM_IMAGE_BASE_ADDR * 64) 3584 = true ∧ imageRefusal s.guarded (s.flag F.LOOM_ADMIT_HOTSAFE) (s.bytesAt (s.fld F.LOOM_IMAGE_BASE_ADDR * 64) 3584) none = some (reason, detail)) ∧
    (∃ (s : State) (q : Req), OpenTo s q P.LOOM_CFG ∧ s.fld F.LOOM_COMMIT_STAT_STATE = 0 ∧ s.Uncounted 4 ∧ s.Uncounted 5 ∧ s.Uncounted 10 ∧ s.ImageInSequence ∧ s.busMemory (s.fld F.LOOM_IMAGE_BASE_ADDR * 64) 64 = false) ∧
    (∃ (s : State) (tab : LoomTable), s.fabricRuns = true ∧ s.loom.shadow = some tab ∧ s.loom.live.picks = [] ∧ s.loom.began ≤ 255 ∧ s.NoProbes ∧ s.dmcHot = false) ∧
    (∃ (s : State), s.loom.shadow = none) ∧
    (∃ (s : State), s.fabricRuns = true ∧ s.loom.shadow = none ∧ s.loom.live.picks = [] ∧ s.loom.began ≤ 255 ∧ s.NoProbes ∧ s.dmcHot = false) ∧
    (∃ (s : State) (r : Fin 64) (w : DWord) (n : Nat), s.fabricRuns = true ∧ s.loom.shadow = none ∧ s.loom.live.picks = [] ∧ s.loom.began = 256 ∧ s.NoProbes ∧ s.dmcHot = true ∧ s.fld F.LOOM_DRAM_PICKS_ALL = n ∧ 857 < n ∧ s.loom.live.res = [(r.val, w)] ∧ resDram w.toNat = true ∧ resProtect w.toNat = false) ∧
    (∃ (s : State), s.fabricRuns = false) ∧
    (∃ (s : State) (q : Req) (n : Fin 16), OpenTo s q (P.LOOM_NI n.val)) ∧
    (∃ (s : State) (n : Fin 8) (head : DWord) (flit1 : BitVec 30) (flits : Fin 11), s.fabricRuns = true ∧ s.carries 0 head.toNat flit1.toNat flits.val = true ∧ s.probeRuns n.val = true ∧ portCarries (s.fld (F.LOOM_PROBE_CTRL_ROUTER n.val)) (s.fld (F.LOOM_PROBE_CTRL_PORT n.val)) = true ∧ s.fld (F.LOOM_PROBE_CTRL_PLANE n.val) = 0 ∧ s.raw (R.LOOM_PROBE_MATCH n.val 1) = 0#64 ∧ s.raw (R.LOOM_PROBE_MATCH n.val 3) = 0#64 ∧ s.flag (F.LOOM_PROBE_CTRL_TRACE_EN n.val) = false ∧ s.fld (F.LOOM_PROBE_TRIG_OUT_SEL n.val) = 0) ∧
    (∃ (s : State) (n : Fin 8) (head : DWord) (flit1 : BitVec 30) (flits : Fin 11), s.fabricRuns = true ∧ s.carries 0 head.toNat flit1.toNat flits.val = true ∧ s.probeRuns n.val = true ∧ portCarries (s.fld (F.LOOM_PROBE_CTRL_ROUTER n.val)) (s.fld (F.LOOM_PROBE_CTRL_PORT n.val)) = true ∧ s.fld (F.LOOM_PROBE_CTRL_PLANE n.val) = 0 ∧ s.raw (R.LOOM_PROBE_MATCH n.val 1) = 0#64 ∧ s.raw (R.LOOM_PROBE_MATCH n.val 3) = 0#64 ∧ s.flag (F.LOOM_PROBE_CTRL_TRACE_EN n.val) = true ∧ s.fld (F.LOOM_PROBE_TRIG_OUT_SEL n.val) = 0 ∧ s.flag (F.LOOM_PROBE_TRACE_STAT_STOPPED n.val) = false ∧ s.fld (F.LOOM_PROBE_TRACE_STAT_PTR n.val) = 0) ∧
    (∃ (s : State) (n : Fin 8) (head : DWord) (flit1 : BitVec 30) (flits : Fin 11), (s.fabricRuns = false ∨ s.probeRuns n.val = false ∨ (s.fld (F.LOOM_PROBE_CTRL_PLANE n.val) = 0 ∧ s.carries 0 head.toNat flit1.toNat flits.val = false) ∨ (s.fld (F.LOOM_PROBE_CTRL_PLANE n.val) = 0 ∧ s.raw (R.LOOM_PROBE_MATCH n.val 1) = BitVec.allOnes 64 ∧ s.raw (R.LOOM_PROBE_MATCH n.val 0) ≠ head))) :=
  ⟨⟨quietLoom imageS, ⟨0, true⟩, imageS_open.1, imageS_open.2.1, imageS_open.2.2.1, imageS_uncounted.1, imageS_uncounted.2.1,
    imageS_uncounted.2.2.1, imageS_uncounted.2.2.2, by rw [imageS_base]; exact imageS_open.2.2.2,
    by rw [imageS_base, imageS_bytes]; exact imageS_format, by rw [imageS_base, imageS_bytes]; exact imageS_table⟩,
   ⟨imageS.setFld F.LOOM_COMMIT_STAT_STATE 3, ⟨0, true⟩, by unfold OpenTo; decide +kernel⟩,
   ⟨quietLoom (State.reset.setFld F.LOOM_IMAGE_BASE_ADDR 0x40000), ⟨0, true⟩, 1, 0, by unfold OpenTo State.QuietMemory State.Uncounted State.ImageInSequence; decide +kernel⟩,
   ⟨(quietLoom State.reset).setFld F.LOOM_IMAGE_BASE_ADDR 0x1000000, ⟨0, true⟩, by unfold OpenTo State.Uncounted State.ImageInSequence; decide +kernel⟩,
   ⟨{ State.reset with loom := { LoomState.reset with shadow := some { LoomState.reset.live with tag := 77, quota := [(54, 4)] } } }, { LoomState.reset.live with tag := 77, quota := [(54, 4)] }, by unfold State.NoProbes; decide +kernel⟩,
   ⟨State.reset, by decide +kernel⟩,
   ⟨(State.reset.setFld F.LOOM_ROUND_ROUND 0xFFFFFFFF).setFld F.LOOM_SHED_ACTIVE 1, by unfold State.NoProbes; decide +kernel⟩,
   ⟨hotLoom, 5, 0x9, 900, by unfold State.NoProbes; decide +kernel⟩,
   ⟨{ State.reset with power := { PowerState.reset with phase := .reset } }, by decide +kernel⟩,
   ⟨(State.reset.setFld (F.LOOM_NI_CNT_VALUE 15 7) 9).setFld (F.LOOM_NI_HIST_COUNT 15 15) 9, ⟨0, true⟩, 15, by unfold OpenTo; decide +kernel⟩,
   ⟨probeS, 7, 0x400, 5, 9, by decide +kernel⟩,
   ⟨probeS.setFld (F.LOOM_PROBE_CTRL_TRACE_EN 7) 1, 7, 0x400, 5, 9, by decide +kernel⟩,
   ⟨((probeS.setReg (R.LOOM_PROBE_MATCH 7 1) (BitVec.allOnes 64)).setReg (R.LOOM_PROBE_MATCH 7 0) 0x401), 7, 0x400, 5, 9, by decide +kernel⟩⟩

/-- What the clauses of HeddleDoorbellsFetchesAndMoves assume is met. -/
theorem witness_HeddleDoorbellsFetchesAndMoves :
    (∃ (s : State) (i : Fin 32) (j : BitVec 12) (indirect : Bool) (tail : BitVec 16) (inst : HeddleInstance) (k : HeddleChannel), s.hinst i.val = some inst ∧ s.fld (instStateF i.val) = 1 ∧ ((indirect = false → j.toNat < 768)) ∧ j.toNat < inst.chCount ∧ s.hch (inst.chBase + j.toNat) = some k ∧ (k.tail + k.size - k.headOut) % k.size ≤ (tail.toNat % k.size + k.size - k.headOut) % k.size ∧ tail.toNat % k.size ≠ k.tail) ∧
    (∃ (s : State) (i : Fin 32) (j : BitVec 12) (indirect : Bool) (tail : BitVec 16) (inst : HeddleInstance) (k : HeddleChannel), s.hinst i.val = some inst ∧ s.fld (instStateF i.val) = 1 ∧ ((indirect = false → j.toNat < 768)) ∧ j.toNat < inst.chCount ∧ s.hch (inst.chBase + j.toNat) = some k ∧ (tail.toNat % k.size + k.size - k.headOut) % k.size < (k.tail + k.size - k.headOut) % k.size) ∧
    (∃ (s : State) (i : Fin 32) (j : BitVec 12) (indirect : Bool), (s.hinst i.val = none ∨ s.fld (instStateF i.val) ≠ 1) ∧ ((indirect = false → j.toNat < 768))) ∧
    (∃ (s : State) (ch : BitVec 12) (k : HeddleChannel), s.power.heddleStopped = false ∧ s.hch ch.toNat = some k ∧ s.fld (instStateF k.e.inst) = 1 ∧ k.e.kickAdv = false) ∧
    (∃ (s : State) (ch : BitVec 12) (k : HeddleChannel), s.power.heddleStopped = false ∧ s.hch ch.toNat = some k ∧ s.fld (instStateF k.e.inst) = 1 ∧ k.e.kickAdv = true ∧ (k.tail + 1) % k.size ≠ k.headOut) ∧
    (∃ (s : State) (ch : BitVec 12), s.power.heddleStopped = false ∧ s.hch ch.toNat = none) ∧
    (∃ (s : State), s.power.heddleStopped = true) ∧
    (∃ (s : State) (c : Nat) (k : HeddleChannel), s.heddleRuns = true ∧ s.nextPending = some c ∧ s.heddle.cache.contains c = true ∧ s.hch c = some k) ∧
    (∃ (s : State) (c : Nat) (k : HeddleChannel), s.heddleRuns = true ∧ s.nextPending = some c ∧ s.heddle.cache.contains c = false ∧ s.heddle.cache.length < 128 ∧ s.hch c = some k ∧ s.QuietMemory) ∧
    (∃ (s : State), (s.heddleRuns = false ∨ s.nextPending = none)) ∧
    (∃ (s : State) (ch : BitVec 12) (k : HeddleChannel) (inst : HeddleInstance), s.NextItem ch.toNat k inst) ∧
    (∃ (s : State) (ch : BitVec 12) (k : HeddleChannel) (it : HeddleItem), s.hch ch.toNat = some k ∧ s.mayFetch ch.toNat k = true ∧ k.items = [it] ∧ it.running = false ∧ it.status = none ∧ k.e.kind ≤ 1) ∧
    (∃ (s : State) (ch : BitVec 12), (s.hch ch.toNat = none ∨ s.heddleRuns = false)) ∧
    (∃ (s : State) (ch : BitVec 12) (k : HeddleChannel) (inst : HeddleInstance), s.NextItem ch.toNat k inst ∧ 0 < k.e.prefetch ∧ (parseItem k.e.kind k.e.port k.head k.e.gen false (s.bytesAt (k.itemAt k.head) 32)).src < 2 ^ 40 ∧ (parseItem k.e.kind k.e.port k.head k.e.gen false (s.bytesAt (k.itemAt k.head) 32)).dst < 2 ^ 40) ∧
    (∃ (s : State) (ch : BitVec 12) (k : HeddleChannel) (it : HeddleItem) (inst : HeddleInstance), s.MoverTurn ch.toNat 0 k it inst ∧ it.piece true true = it.len ∧ it.crcEn = false ∧ s.inMain it.src it.len = true ∧ s.inMain it.dst it.len = true ∧ inMram it.dst = false) ∧
    (∃ (s : State) (ch : BitVec 12) (k : HeddleChannel) (it : HeddleItem) (inst : HeddleInstance), s.MoverTurn ch.toNat 1 k it inst ∧ it.op = 0 ∧ it.piece false true = it.len ∧ s.inMain it.dst it.len = true ∧ inMram it.dst = false) ∧
    (∃ (s : State) (ch : BitVec 12) (k : HeddleChannel) (it : HeddleItem) (inst : HeddleInstance), s.MoverTurn ch.toNat 1 k it inst ∧ it.op = 1 ∧ it.piece true false = it.len ∧ s.inMain it.src it.len = true ∧ s.inMain it.dst 4 = true ∧ it.dst % 64 ≤ 60 ∧ inMram it.dst = false) ∧
    (∃ (s : State) (ch : BitVec 12) (k : HeddleChannel) (it : HeddleItem) (inst : HeddleInstance), s.MoverTurn ch.toNat 0 k it inst) ∧
    (∃ (s : State) (ch : BitVec 12) (k : HeddleChannel) (it : HeddleItem) (inst : HeddleInstance), s.MoverTurn ch.toNat 0 k it inst ∧ s.belay.test = none ∧ s.flag F.BELAY_LOG_CTRL_EN = false ∧ s.fld (F.BELAY_REACT_REACT 11) = 0) ∧
    (∃ (s : State) (ch : BitVec 12), s.hch ch.toNat = none) :=
  ⟨⟨work 0 0 item0, 0, 9, false, 7, inst0, chan0 0 0 item0, by decide +kernel⟩,
   ⟨work 0 0 item0, 0, 9, false, 0xFFF3, inst0, chan0 0 0 item0, by decide +kernel⟩,
   ⟨State.reset, 31, 9, true, by decide +kernel⟩,
   ⟨work 0 0 item0, 9, chan0 0 0 item0, by decide +kernel⟩,
   ⟨(work 0 0 item0).setHch 9 { chan0 0 0 item0 with e := { ent0 0 0 with kickAdv := true } }, 9, { chan0 0 0 item0 with e := { ent0 0 0 with kickAdv := true } }, by decide +kernel⟩,
   ⟨work 0 0 item0, 0xFFF, by decide +kernel⟩,
   ⟨{ State.reset with power := { PowerState.reset with heddleStopped := true } }, by decide +kernel⟩,
   ⟨(work 0 0 item0).setHch 9 { chan0 0 0 item0 with pending := true }, 9, { chan0 0 0 item0 with pending := true }, by decide +kernel⟩,
   ⟨{ (work 0 0 item0) with heddle := { (work 0 0 item0).heddle with cache := [], ch := [(9, { chan0 0 0 item0 with pending := true })] } }, 9, { chan0 0 0 item0 with pending := true }, by unfold State.QuietMemory; decide +kernel⟩,
   ⟨work 0 0 item0, by decide +kernel⟩,
   ⟨(work 0 0 item0).setHch 9 { chan0 0 0 item0 with items := [] }, 9, { chan0 0 0 item0 with items := [] }, inst0, by unfold State.NextItem State.QuietMemory; decide +kernel⟩,
   ⟨(work 0 0 item0).setHch 9 { chan0 0 0 item0 with items := [{ item0 with running := false }] }, 9, { chan0 0 0 item0 with items := [{ item0 with running := false }] }, { item0 with running := false }, by decide +kernel⟩,
   ⟨work 0 0 item0, 10, by decide +kernel⟩,
   ⟨(work 0 0 item0).setHch 9 { chan0 0 0 item0 with items := [], e := { ent0 0 0 with prefetch := 2 } }, 9, { chan0 0 0 item0 with items := [], e := { ent0 0 0 with prefetch := 2 } }, inst0, by unfold State.NextItem State.QuietMemory; decide +kernel⟩,
   ⟨(work 0 0 item0).setFld F.L3_CFG_HEDDLE_ALLOC 0, 9, chan0 0 0 item0, item0, inst0, by unfold State.MoverTurn State.QuietMemory; decide +kernel⟩,
   ⟨(work 1 0 { item0 with param := 0x11223344, len := 7 }).setFld F.L3_CFG_HEDDLE_ALLOC 0, 9, chan0 1 0 { item0 with param := 0x11223344, len := 7 }, { item0 with param := 0x11223344, len := 7 }, inst0, by unfold State.MoverTurn State.QuietMemory; decide +kernel⟩,
   ⟨(work 1 0 { item0 with op := 1, acc := 0xFFFFFFFF, len := 7 }).setFld F.L3_CFG_HEDDLE_ALLOC 0, 9, chan0 1 0 { item0 with op := 1, acc := 0xFFFFFFFF, len := 7 }, { item0 with op := 1, acc := 0xFFFFFFFF, len := 7 }, inst0, by unfold State.MoverTurn State.QuietMemory; decide +kernel⟩,
   ⟨(work 0 0 item0).setFld F.L3_CFG_HEDDLE_ALLOC 0, 9, chan0 0 0 item0, item0, inst0, by unfold State.MoverTurn State.QuietMemory; decide +kernel⟩,
   ⟨(((belayQuiet (work 0 0 item0)).setFld F.L3_CFG_HEDDLE_ALLOC 0).setFld (F.BELAY_REACT_REACT 11) 0), 9, chan0 0 0 item0, item0, inst0, by unfold State.MoverTurn State.QuietMemory; decide +kernel⟩,
   ⟨work 0 0 item0, 10, by decide +kernel⟩⟩

/-- What the clauses of HeddleItemEndsRecordsAndInvalidations assume is met. -/
theorem witness_HeddleItemEndsRecordsAndInvalidations :
    (∃ (s : State) (ch : BitVec 12) (k : HeddleChannel) (it : HeddleItem), s.LastItem ch.toNat k it 0 0 ∧ it.cqe = false) ∧
    (∃ (s : State) (ch : BitVec 12) (k : HeddleChannel) (it : HeddleItem) (q : HeddleQueue) (inst : HeddleInstance), s.LastItem ch.toNat k it 0 0 ∧ it.cqe = true ∧ it.irq = false ∧ it.phase = some 5 ∧ s.RecordFits k.e.cq q inst) ∧
    (∃ (s : State) (ch : BitVec 12) (k : HeddleChannel) (it : HeddleItem) (q : HeddleQueue), s.LastItem ch.toNat k it 0 0 ∧ it.cqe = true ∧ it.phase = some 5 ∧ s.hcq k.e.cq = some q ∧ q.full = true) ∧
    (∃ (s : State) (ch : BitVec 12) (k : HeddleChannel) (it : HeddleItem) (d : Nat), s.LastItem ch.toNat k it 3 d ∧ k.e.haltOnErr = true ∧ s.hcq k.e.cq = none ∧ s.inMain (s.chEntryAt ch.toNat + 0x10) 4 = false) ∧
    (∃ (s : State) (ch : BitVec 12), ((s.hch ch.toNat).bind (fun k => k.items.head?) = none ∨ ((s.hch ch.toNat).bind (fun k => k.items.head?)).bind (fun i => i.status) = none)) ∧
    (∃ (s : State) (q : Req) (ch : BitVec 12), OpenTo s q P.HEDDLE ∧ s.flag F.HEDDLE_CHC_INV_BUSY = false ∧ s.heddle.cache.contains ch.toNat = false) ∧
    (∃ (s : State) (q : Req) (ch : BitVec 12) (k : HeddleChannel), OpenTo s q P.HEDDLE ∧ s.flag F.HEDDLE_CHC_INV_BUSY = false ∧ s.heddle.cache.contains ch.toNat = true ∧ s.hch ch.toNat = some k ∧ k.items = [] ∧ k.waiting = [] ∧ s.inMain (s.chEntryAt ch.toNat + 0x10) 4 = true ∧ inMram (s.chEntryAt ch.toNat + 0x10) = false ∧ s.heddle.oldTable = none ∧ s.QuietMemory ∧ s.flag F.L3_CFG_HEDDLE_ALLOC = false) ∧
    (∃ (s : State) (q : Req) (ch : BitVec 12) (k : HeddleChannel), OpenTo s q P.HEDDLE ∧ s.flag F.HEDDLE_CHC_INV_BUSY = false ∧ s.heddle.cache.contains ch.toNat = true ∧ s.hch ch.toNat = some k ∧ k.items.any (fun i => i.running) = true) ∧
    (∃ (s : State) (q : Req), OpenTo s q P.HEDDLE ∧ s.flag F.HEDDLE_CHC_INV_BUSY = false ∧ s.heddle.cache = []) ∧
    (∃ (s : State) (q : Req), OpenTo s q P.HEDDLE ∧ s.flag F.HEDDLE_CHC_INV_BUSY = true) ∧
    (∃ (s : State) (q : Req) (i : Fin 32) (inst : HeddleInstance), OpenTo s q P.HEDDLE ∧ s.flag F.HEDDLE_IOTLB_INV_BUSY = false ∧ s.hinst i.val = some inst) ∧
    (∃ (s : State) (q : Req), OpenTo s q P.HEDDLE ∧ s.flag F.HEDDLE_IOTLB_INV_BUSY = true) ∧
    (∃ (s : State), s.flag F.HEDDLE_IOTLB_INV_BUSY = true ∧ s.heddle.iotlbWait.all (fun w => w.over) = true) ∧
    (∃ (s : State), s.flag F.HEDDLE_CHC_INV_BUSY = true ∧ s.heddle.ch.any (fun e => e.2.dropping) = false) ∧
    (∃ (s : State), s.heddle.iotlbWait.any (fun w => ! w.over) = true ∧ s.heddle.ch.any (fun e => e.2.dropping) = true) ∧
    (∃ (s : State) (i : Fin 32) (v : HeddleInstance), s.hinst i.val = some v ∧ 0 < v.late) ∧
    (∃ (s : State) (i : Fin 32), ((s.hinst i.val).map (fun v => v.late) = none ∨ (s.hinst i.val).map (fun v => v.late) = some 0)) ∧
    (∃ (s : State) (i : Fin 32) (j : BitVec 10) (indirect : Bool) (head : BitVec 16) (inst : HeddleInstance) (v : HeddleQueue), s.hinst i.val = some inst ∧ (s.fld (instStateF i.val) = 1 ∨ s.fld (instStateF i.val) = 2) ∧ ((indirect = false → j.toNat < 192)) ∧ j.toNat < inst.cqCount ∧ s.hcq (inst.cqBase + j.toNat) = some v ∧ head.toNat < 2 ^ v.order ∧ (head.toNat + 2 ^ v.order - v.head) % 2 ^ v.order ≤ (v.tail + 2 ^ v.order - v.head) % 2 ^ v.order ∧ s.heddle.ch.all (fun e => e.2.waiting.isEmpty) = true) ∧
    (∃ (s : State) (i : Fin 32) (j : BitVec 10) (indirect : Bool), (s.hinst i.val = none ∨ s.fld (instStateF i.val) = 3) ∧ ((indirect = false → j.toNat < 192))) :=
  ⟨⟨(work 0 0 item0).setHch 9 (chan0 0 0 { item0 with cqe := false, status := some (0, 0) }), 9, chan0 0 0 { item0 with cqe := false, status := some (0, 0) }, { item0 with cqe := false, status := some (0, 0) }, by unfold State.LastItem; decide +kernel⟩,
   ⟨(work 0 0 { item0 with status := some (0, 0), phase := some 5, bytes := 8 }).setFld F.L3_CFG_HEDDLE_ALLOC 0, 9, chan0 0 0 { item0 with status := some (0, 0), phase := some 5, bytes := 8 }, { item0 with status := some (0, 0), phase := some 5, bytes := 8 }, cq0, inst0, by unfold State.LastItem State.RecordFits State.QuietMemory; decide +kernel⟩,
   ⟨(work 0 0 { item0 with status := some (0, 0), phase := some 5 }).setHcq 5 { cq0 with tail := 15 }, 9, chan0 0 0 { item0 with status := some (0, 0), phase := some 5 }, { item0 with status := some (0, 0), phase := some 5 }, { cq0 with tail := 15 }, by unfold State.LastItem; decide +kernel⟩,
   ⟨(work 0 0 item0).setFld F.HEDDLE_CHT_BASE_ADDR 0 |>.setHch 9 { chan0 0 0 { item0 with status := some (3, 1) } with e := { ent0 0 0 with haltOnErr := true, cq := 77 } }, 9, { chan0 0 0 { item0 with status := some (3, 1) } with e := { ent0 0 0 with haltOnErr := true, cq := 77 } }, { item0 with status := some (3, 1) }, 1, by unfold State.LastItem; decide +kernel⟩,
   ⟨work 0 0 item0, 9, by decide +kernel⟩,
   ⟨work 0 0 item0, ⟨0, true⟩, 10, by unfold OpenTo; decide +kernel⟩,
   ⟨(work 0 0 item0).setHch 9 { chan0 0 0 item0 with items := [] } |>.setFld F.HEDDLE_CHT_BASE_ADDR 0x1008 |>.setFld F.L3_CFG_HEDDLE_ALLOC 0, ⟨0, true⟩, 9, { chan0 0 0 item0 with items := [] }, by unfold OpenTo State.QuietMemory; decide +kernel⟩,
   ⟨work 0 0 item0, ⟨0, true⟩, 9, chan0 0 0 item0, by unfold OpenTo; decide +kernel⟩,
   ⟨{ (work 0 0 item0) with heddle := { (work 0 0 item0).heddle with cache := [] } }, ⟨0, true⟩, by unfold OpenTo; decide +kernel⟩,
   ⟨(work 0 0 item0).setFld F.HEDDLE_CHC_INV_BUSY 1, ⟨0, true⟩, by unfold OpenTo; decide +kernel⟩,
   ⟨{ (work 0 0 item0) with heddle := { (work 0 0 item0).heddle with iotlb := [⟨5, 0, 0, false, 0, 2, 6, 255⟩] } }, ⟨0, true⟩, 0, inst0, by unfold OpenTo; decide +kernel⟩,
   ⟨(work 0 0 item0).setFld F.HEDDLE_IOTLB_INV_BUSY 1, ⟨0, true⟩, by unfold OpenTo; decide +kernel⟩,
   ⟨{ (work 0 0 item0).setFld F.HEDDLE_IOTLB_INV_BUSY 1 with heddle := { (work 0 0 item0).heddle with iotlbWait := some ⟨0, 0, [(9, 0)]⟩ } }, by decide +kernel⟩,
   ⟨(work 0 0 item0).setFld F.HEDDLE_CHC_INV_BUSY 1, by decide +kernel⟩,
   ⟨{ (work 0 0 item0) with heddle := { (work 0 0 item0).heddle with iotlbWait := some ⟨0, 1, [(9, 1)]⟩, ch := [(9, { chan0 0 0 item0 with dropping := true })] } }, by decide +kernel⟩,
   ⟨(work 0 0 item0).setHinst 0 { inst0 with late := 2 }, 0, { inst0 with late := 2 }, by decide +kernel⟩,
   ⟨work 0 0 item0, 0, by decide +kernel⟩,
   ⟨(work 0 0 item0).setHcq 5 { cq0 with tail := 3 }, 0, 5, false, 3, inst0, { cq0 with tail := 3 }, by decide +kernel⟩,
   ⟨State.reset, 31, 9, true, by decide +kernel⟩⟩

/-- What the clauses of InstanceCommandsOfTheManager assume is met. -/
theorem witness_InstanceCommandsOfTheManager :
    (∃ (s : State) (q : Req) (target : BitVec 13) (v : HeddleInstance), OpenTo s q P.HEDDLE_MGMT ∧ target.toNat < 32 ∧ s.instState target.toNat = 0 ∧ s.QuietMemory ∧ s.flag F.L3_CFG_HEDDLE_ALLOC = false ∧ s.inMain (s.instEntryAt target.toNat) 64 = true ∧ inMram (s.instEntryAt target.toNat) = false ∧ (s.parseInstance (s.bytesAt (s.instEntryAt target.toNat) 64)).toOption = some v ∧ s.poolsRefuse target.toNat v = none) ∧
    (∃ (s : State) (q : Req) (target : BitVec 13), OpenTo s q P.HEDDLE_MGMT ∧ target.toNat < 32 ∧ s.instState target.toNat ≠ 0) ∧
    (∃ (s : State) (q : Req) (target : BitVec 13), OpenTo s q P.HEDDLE_MGMT ∧ target.toNat < 32 ∧ s.instState target.toNat ≠ 1) ∧
    (∃ (s : State) (q : Req) (target : BitVec 13), OpenTo s q P.HEDDLE_MGMT ∧ target.toNat < 32 ∧ (target.toNat = 0 ∨ s.instState target.toNat ≠ 1)) ∧
    (∃ (s : State) (q : Req) (target : BitVec 13) (c : Nat) (k : HeddleChannel), OpenTo s q P.HEDDLE_MGMT ∧ 0 < target.toNat ∧ target.toNat < 32 ∧ s.instState target.toNat = 1 ∧ s.heddle.ch.find? (fun e => e.2.e.inst == target.toNat) = some (c, k)) ∧
    (∃ (s : State) (q : Req) (target : BitVec 13), OpenTo s q P.HEDDLE_MGMT ∧ 32 ≤ target.toNat) ∧
    (∃ (s : State) (q : Req) (target : BitVec 13) (v : HeddleInstance) (o : HeddleInstance), OpenTo s q P.HEDDLE_MGMT ∧ target.toNat < 32 ∧ s.instState target.toNat = 1 ∧ s.QuietMemory ∧ s.inMain (s.instEntryAt target.toNat) 64 = true ∧ s.hinst target.toNat = some o ∧ (s.parseInstance (s.bytesAt (s.instEntryAt target.toNat) 64)).toOption = some v ∧ s.poolsRefuse target.toNat v = none ∧ s.assignInUse target.toNat v = none) ∧
    (∃ (s : State) (q : Req) (target : BitVec 13) (e : HeddleEntry) (head : Nat) (tail : Nat), OpenTo s q P.HEDDLE_MGMT ∧ target.toNat < 4096 ∧ s.QuietMemory ∧ s.inMain (s.chEntryAt target.toNat) 64 = true ∧ s.hch target.toNat = none ∧ s.heddle.cache.contains target.toNat = false ∧ (s.bytesAt (s.chEntryAt target.toNat) 64).getD 0 0#8 &&& 1#8 = 1#8 ∧ (parseChannel (s.bytesAt (s.chEntryAt target.toNat) 64)).toOption = some (e, head, tail) ∧ s.channelRefuse target.toNat e = none ∧ s.inReset (fun v => decide (v.chBase ≤ target.toNat ∧ target.toNat < v.chBase + v.chCount)) = false ∧ s.portHalted e = false) ∧
    (∃ (s : State) (q : Req) (target : BitVec 13), OpenTo s q P.HEDDLE_MGMT ∧ target.toNat < 4096 ∧ s.QuietMemory ∧ s.inMain (s.chEntryAt target.toNat) 64 = true ∧ s.heddle.cache.contains target.toNat = false ∧ (s.bytesAt (s.chEntryAt target.toNat) 64).getD 0 0#8 &&& 1#8 = 0#8 ∧ s.ownsChannel (bitsOf (entryWord (s.bytesAt (s.chEntryAt target.toNat) 64) 0) 8 12) target.toNat = true ∧ s.channelBusy target.toNat = none ∧ s.inReset (fun v => decide (v.chBase ≤ target.toNat ∧ target.toNat < v.chBase + v.chCount)) = false) ∧
    (∃ (s : State) (q : Req) (target : BitVec 13) (v : HeddleQueue), OpenTo s q P.HEDDLE_MGMT ∧ target.toNat < 1024 ∧ s.QuietMemory ∧ s.inMain (s.fld F.HEDDLE_CQT_BASE_ADDR * 4096 + 16 * target.toNat) 16 = true ∧ s.heddle.ch.find? (fun e => e.2.e.cq == target.toNat) = none ∧ (s.bytesAt (s.fld F.HEDDLE_CQT_BASE_ADDR * 4096 + 16 * target.toNat) 16).getD 0 0#8 &&& 1#8 = 1#8 ∧ (parseQueue (s.bytesAt (s.fld F.HEDDLE_CQT_BASE_ADDR * 4096 + 16 * target.toNat) 16)).toOption = some v ∧ s.instState v.inst = 1 ∧ s.ownsQueue v.inst target.toNat = true ∧ s.inReset (fun x => decide (x.cqBase ≤ target.toNat ∧ target.toNat < x.cqBase + x.cqCount)) = false ∧ ((v.irq = 2 → (s.hinst v.inst).map (fun x => x.msgGroups.testBit ((v.msg - 1536) / 32)) = some true))) ∧
    (∃ (s : State) (q : Req) (target : BitVec 13), OpenTo s q P.HEDDLE_MGMT ∧ target.toNat < 1024 ∧ s.QuietMemory ∧ s.inMain (s.fld F.HEDDLE_CQT_BASE_ADDR * 4096 + 16 * target.toNat) 16 = true ∧ s.heddle.ch.find? (fun e => e.2.e.cq == target.toNat) = none ∧ (s.bytesAt (s.fld F.HEDDLE_CQT_BASE_ADDR * 4096 + 16 * target.toNat) 16).getD 0 0#8 &&& 1#8 = 0#8 ∧ s.inReset (fun x => decide (x.cqBase ≤ target.toNat ∧ target.toNat < x.cqBase + x.cqCount)) = false) ∧
    (∃ (s : State) (q : Req) (target : BitVec 13), OpenTo s q P.HEDDLE_MGMT ∧ 4096 ≤ target.toNat) ∧
    (∃ (s : State) (q : Req) (target : BitVec 13), OpenTo s q P.HEDDLE_MGMT ∧ 1024 ≤ target.toNat) ∧
    (∃ (s : State) (q : Req) (target : BitVec 13), OpenTo s q P.HEDDLE_MGMT ∧ target.toNat < 32 ∧ s.instState target.toNat = 1 ∧ s.TablesKeyed ∧ (∀ e ∈ s.heddle.ch, e.2.dropping = false)) ∧
    (∃ (s : State) (q : Req) (target : BitVec 13) (v : HeddleInstance), OpenTo s q P.HEDDLE_MGMT ∧ target.toNat < 32 ∧ s.instState target.toNat = 1 ∧ s.TablesKeyed ∧ s.hinst target.toNat = some v ∧ ((∀ e ∈ s.heddle.ch, e.2.e.inst = target.toNat → e.2.e.kind ≤ 1 ∧ e.2.dropping = false))) ∧
    (∃ (s : State) (q : Req) (target : BitVec 13), OpenTo s q P.HEDDLE_MGMT ∧ 0 < target.toNat ∧ target.toNat < 32 ∧ s.instState target.toNat = 1 ∧ s.heddle.ch.find? (fun e => e.2.e.inst == target.toNat) = none ∧ s.heddle.cq.find? (fun e => e.2.inst == target.toNat) = none) ∧
    (∃ (s : State) (inst : Fin 32), (s.instState inst.val = 2 ∨ s.instState inst.val = 3) ∧ s.resetQuiet inst.val = true ∧ s.TablesKeyed) ∧
    (∃ (s : State) (inst : Fin 32), (s.resetQuiet inst.val = false ∨ s.instState inst.val = 0 ∨ s.instState inst.val = 1)) :=
  ⟨⟨mgmtS.setFld F.L3_CFG_HEDDLE_ALLOC 0, ⟨2, true⟩, 3, okInst mgmtS 3, by unfold OpenTo State.QuietMemory; decide +kernel⟩,
   ⟨mgmtA, ⟨2, true⟩, 3, by unfold OpenTo; decide +kernel⟩,
   ⟨mgmtA, ⟨2, true⟩, 4, by unfold OpenTo; decide +kernel⟩,
   ⟨mgmtA, ⟨2, true⟩, 0, by unfold OpenTo; decide +kernel⟩,
   ⟨mgmtC, ⟨2, true⟩, 3, 200, { chan0 0 0 item0 with e := { ent0 0 0 with inst := 3, cq := 100 } }, by unfold OpenTo; decide +kernel⟩,
   ⟨mgmtA, ⟨2, true⟩, 4095, by unfold OpenTo; decide +kernel⟩,
   ⟨mgmtA, ⟨2, true⟩, 3, okInst mgmtS 3, { inst0 with chBase := 192, chCount := 64, cqBase := 96, cqCount := 32, tokens := 2, msgGroups := 8 }, by unfold OpenTo State.QuietMemory; decide +kernel⟩,
   ⟨mgmtA, ⟨2, true⟩, 200, { ent0 0 0 with inst := 3, gen := 1, prio := 0, cq := 100, base := 0x01006000 }, 3, 5, by unfold OpenTo State.QuietMemory; decide +kernel⟩,
   ⟨(mgmtA.putMem (0x01010000 + 64 * 200) [0#8, 3#8]).setHch 200 { chan0 0 0 item0 with state := 4, items := [] }, ⟨2, true⟩, 200, by unfold OpenTo State.QuietMemory; decide +kernel⟩,
   ⟨mgmtA, ⟨2, true⟩, 100, ⟨3, 4, 1, 1536, 0x01007000, 0, 0, true⟩, by unfold OpenTo State.QuietMemory; decide +kernel⟩,
   ⟨mgmtA.putMem (0x01005000 + 16 * 100) [0#8], ⟨2, true⟩, 100, by unfold OpenTo State.QuietMemory; decide +kernel⟩,
   ⟨mgmtA, ⟨2, true⟩, 4096, by unfold OpenTo; decide +kernel⟩,
   ⟨mgmtA, ⟨2, true⟩, 1024, by unfold OpenTo; decide +kernel⟩,
   ⟨mgmtC, ⟨2, true⟩, 3, by unfold OpenTo State.TablesKeyed; decide +kernel⟩,
   ⟨mgmtC, ⟨2, true⟩, 3, { inst0 with chBase := 192, chCount := 64, cqBase := 96, cqCount := 32, tokens := 2, msgGroups := 8 }, by unfold OpenTo State.TablesKeyed; decide +kernel⟩,
   ⟨{ mgmtA with heddle := { mgmtA.heddle with cq := [] } }, ⟨2, true⟩, 3, by unfold OpenTo; decide +kernel⟩,
   ⟨(mgmtC.setFld (instStateF 3) 2).setHch 200 { chan0 0 0 item0 with items := [], e := { ent0 0 0 with inst := 3, cq := 100 } }, 3, by unfold State.TablesKeyed; decide +kernel⟩,
   ⟨mgmtC, 3, by decide +kernel⟩⟩

/-- What the clauses of BobbinItemsAndBlocks assume is met. -/
theorem witness_BobbinItemsAndBlocks :
    (∃ (s : State) (ch : BitVec 12) (k : HeddleChannel) (it : HeddleItem) (out : List Byte) (e : Nat) (sum : Bool), s.CodecWork ch.toNat k it 0 ∧ it.len = 2 * s.fld (F.BOBBIN_CTX_CFG_CHANNELS (k.e.ctx % 16)) * s.fld (F.BOBBIN_CTX_CFG_BLOCK_LEN (k.e.ctx % 16)) ∧ 16 ≤ it.len ∧ Bobbin.encode (s.fld (F.BOBBIN_CTX_CFG_MODE (k.e.ctx % 16))) (s.fld (F.BOBBIN_CTX_CFG_CHANNELS (k.e.ctx % 16))) (s.fld (F.BOBBIN_CTX_CFG_BLOCK_LEN (k.e.ctx % 16))) (s.fld (F.BOBBIN_CTX_CFG_E (k.e.ctx % 16))) (s.fld (F.BOBBIN_CTX_CFG_N (k.e.ctx % 16))) (s.fld (F.BOBBIN_CTX_SEQ_SEQ (k.e.ctx % 16))) (s.bytesAt it.src it.len) = (out, e, sum) ∧ 0 < out.length ∧ out.length ≤ it.param % 2 ^ 24) ∧
    (∃ (s : State) (ch : BitVec 12) (k : HeddleChannel) (it : HeddleItem) (h : Bobbin.Header) (out : List Byte), s.CodecWork ch.toNat k it 1 ∧ 16 ≤ it.len ∧ Bobbin.headerOk (s.bytesAt it.src 16) = true ∧ Bobbin.header (s.bytesAt it.src 16) = h ∧ Bobbin.lengthOk h = true ∧ h.length = it.len ∧ crc32c (slice 0 12 (s.bytesAt it.src 16) ++ List.replicate 4 0#8 ++ s.bytesAt (it.src + 16) (it.len - 16)) = h.check ∧ Bobbin.decodePayload h (s.bytesAt (it.src + 16) (it.len - 16)) = some out ∧ 0 < out.length ∧ out.length ≤ it.param % 2 ^ 24) ∧
    (∃ (s : State) (ch : BitVec 12) (k : HeddleChannel) (it : HeddleItem), s.CodecWork ch.toNat k it 1 ∧ 16 ≤ it.len ∧ Bobbin.headerOk (s.bytesAt it.src 16) = false) ∧
    (∃ (s : State) (ch : BitVec 12) (k : HeddleChannel) (it : HeddleItem) (n : Nat) (out : List Byte) (e : Nat) (sum : Bool), s.CodecWork ch.toNat k it 0 ∧ n = 2 * s.fld (F.BOBBIN_CTX_CFG_CHANNELS (k.e.ctx % 16)) * s.fld (F.BOBBIN_CTX_CFG_BLOCK_LEN (k.e.ctx % 16)) ∧ 0 < n ∧ 2 * n ≤ it.len ∧ Bobbin.encode (s.fld (F.BOBBIN_CTX_CFG_MODE (k.e.ctx % 16))) (s.fld (F.BOBBIN_CTX_CFG_CHANNELS (k.e.ctx % 16))) (s.fld (F.BOBBIN_CTX_CFG_BLOCK_LEN (k.e.ctx % 16))) (s.fld (F.BOBBIN_CTX_CFG_E (k.e.ctx % 16))) (s.fld (F.BOBBIN_CTX_CFG_N (k.e.ctx % 16))) (s.fld (F.BOBBIN_CTX_SEQ_SEQ (k.e.ctx % 16))) (s.bytesAt it.src n) = (out, e, sum) ∧ 0 < out.length ∧ out.length ≤ it.param % 2 ^ 24) ∧
    (∃ (s : State) (ch : BitVec 12) (k : HeddleChannel) (it : HeddleItem) (h : Bobbin.Header) (out : List Byte), s.CodecWork ch.toNat k it 1 ∧ 16 ≤ it.len ∧ Bobbin.headerOk (s.bytesAt it.src 16) = true ∧ Bobbin.header (s.bytesAt it.src 16) = h ∧ Bobbin.lengthOk h = true ∧ h.length < it.len ∧ crc32c (slice 0 12 (s.bytesAt it.src 16) ++ List.replicate 4 0#8 ++ s.bytesAt (it.src + 16) (h.length - 16)) = h.check ∧ Bobbin.decodePayload h (s.bytesAt (it.src + 16) (h.length - 16)) = some out ∧ 0 < out.length ∧ out.length ≤ it.param % 2 ^ 24) ∧
    (∃ (s : State) (ch : BitVec 12) (k : HeddleChannel) (it : HeddleItem) (out : List Byte) (e : Nat) (sum : Bool), s.CodecWork ch.toNat k it 0 ∧ it.len = 2 * s.fld (F.BOBBIN_CTX_CFG_CHANNELS (k.e.ctx % 16)) * s.fld (F.BOBBIN_CTX_CFG_BLOCK_LEN (k.e.ctx % 16)) ∧ 16 ≤ it.len ∧ Bobbin.encode (s.fld (F.BOBBIN_CTX_CFG_MODE (k.e.ctx % 16))) (s.fld (F.BOBBIN_CTX_CFG_CHANNELS (k.e.ctx % 16))) (s.fld (F.BOBBIN_CTX_CFG_BLOCK_LEN (k.e.ctx % 16))) (s.fld (F.BOBBIN_CTX_CFG_E (k.e.ctx % 16))) (s.fld (F.BOBBIN_CTX_CFG_N (k.e.ctx % 16))) (s.fld (F.BOBBIN_CTX_SEQ_SEQ (k.e.ctx % 16))) (s.bytesAt it.src it.len) = (out, e, sum) ∧ it.param % 2 ^ 24 < out.length) ∧
    (∃ (s : State) (ch : BitVec 12) (k : HeddleChannel) (it : HeddleItem), s.CodecWork ch.toNat k it 0 ∧ it.len < 2 * s.fld (F.BOBBIN_CTX_CFG_CHANNELS (k.e.ctx % 16)) * s.fld (F.BOBBIN_CTX_CFG_BLOCK_LEN (k.e.ctx % 16)) ∧ 0 < it.len) ∧
    (∃ (s : State) (ch : BitVec 12) (k : HeddleChannel) (it : HeddleItem) (d : Nat), s.CodecWork ch.toNat k it 1 ∧ 0 < it.len ∧ ((it.len < 16 ∧ d = 3) ∨ (16 ≤ it.len ∧ Bobbin.headerOk (s.bytesAt it.src 16) = true ∧ (Bobbin.lengthOk (Bobbin.header (s.bytesAt it.src 16)) = false ∨ it.len < (Bobbin.header (s.bytesAt it.src 16)).length) ∧ d = 3) ∨ (16 ≤ it.len ∧ Bobbin.headerOk (s.bytesAt it.src 16) = true ∧ Bobbin.lengthOk (Bobbin.header (s.bytesAt it.src 16)) = true ∧ (Bobbin.header (s.bytesAt it.src 16)).length ≤ it.len ∧ crc32c (slice 0 12 (s.bytesAt it.src 16) ++ List.replicate 4 0#8 ++ s.bytesAt (it.src + 16) ((Bobbin.header (s.bytesAt it.src 16)).length - 16)) ≠ (Bobbin.header (s.bytesAt it.src 16)).check ∧ d = 4))) ∧
    (∃ (s : State) (ch : BitVec 12) (k : HeddleChannel) (it : HeddleItem), s.itemOf ch.toNat 5 = some (k, it) ∧ s.running P.BOBBIN = false) ∧
    (∃ (s : State) (ch : BitVec 12) (k : HeddleChannel) (it : HeddleItem), s.itemOf ch.toNat 5 = some (k, it) ∧ s.running P.BOBBIN = true ∧ (s.resetting P.BOBBIN = true ∨ s.bobTakes ch.toNat k = false)) ∧
    (∃ (s : State) (ch : BitVec 12), s.itemOf ch.toNat 5 = none) ∧
    (∃ (s : State) (ch : BitVec 12) (k : HeddleChannel) (it : HeddleItem), s.itemOf ch.toNat 5 = some (k, it) ∧ it.op ≠ 0) ∧
    (∃ (s : State) (ch : BitVec 12) (k : HeddleChannel) (it : HeddleItem), s.itemOf ch.toNat 5 = some (k, it) ∧ it.op ≠ 1) :=
  ⟨⟨bobS 0 128 (bobCfg 1 2), 9, bobK 0 128, bobIt 0 128, _, _, _, by unfold State.CodecWork State.QuietMemory; decide +kernel, by decide +kernel, by decide +kernel, rfl, by decide +kernel, by decide +kernel⟩,
   ⟨(bobS 1 32 (bobCfg 1 2)).putMem 0x01000100 bobRaw, 9, bobK 1 32, bobIt 1 32, Bobbin.header bobRaw, (List.range 128).map (fun i => if i % 2 = 0 then 0x8D#8 else 0xFF#8), by unfold State.CodecWork State.QuietMemory; decide +kernel⟩,
   ⟨bobS 1 32 (bobCfg 1 2), 9, bobK 1 32, bobIt 1 32, by unfold State.CodecWork State.QuietMemory; decide +kernel⟩,
   ⟨bobS 0 300 (bobCfg 1 2), 9, bobK 0 300, bobIt 0 300, 128, _, _, _, by unfold State.CodecWork State.QuietMemory; decide +kernel, by decide +kernel, by decide +kernel, by decide +kernel, rfl, by decide +kernel, by decide +kernel⟩,
   ⟨(bobS 1 300 (bobCfg 1 2)).putMem 0x01000100 bobRaw, 9, bobK 1 300, bobIt 1 300, Bobbin.header bobRaw, (List.range 128).map (fun i => if i % 2 = 0 then 0x8D#8 else 0xFF#8), by unfold State.CodecWork State.QuietMemory; decide +kernel⟩,
   ⟨(bobS 0 128 (bobCfg 1 2)).setHch 9 { bobK 0 128 with items := [{ bobIt 0 128 with param := 15 }] }, 9, { bobK 0 128 with items := [{ bobIt 0 128 with param := 15 }] }, { bobIt 0 128 with param := 15 }, _, _, _, by unfold State.CodecWork State.QuietMemory; decide +kernel, by decide +kernel, by decide +kernel, rfl, by decide +kernel⟩,
   ⟨bobS 0 100 (bobCfg 1 2), 9, bobK 0 100, bobIt 0 100, by unfold State.CodecWork State.QuietMemory; decide +kernel⟩,
   ⟨bobS 1 15 (bobCfg 1 2), 9, bobK 1 15, bobIt 1 15, 3, by unfold State.CodecWork State.QuietMemory; decide +kernel⟩,
   ⟨(bobS 0 128 (bobCfg 1 2)).setReg (R.PAGE_CTRL P.BOBBIN) 0#64 |>.setReg (R.PAGE_STAT P.BOBBIN) 0#64, 9, bobK 0 128, bobIt 0 128, by decide +kernel⟩,
   ⟨(bobS 0 128 (bobCfg 1 2)).setFld F.HEDDLE_CFG_CH_OUT_MAX 0, 9, bobK 0 128, bobIt 0 128, by decide +kernel⟩,
   ⟨State.reset, 9, by decide +kernel⟩,
   ⟨bobS 1 32 (bobCfg 1 2), 9, bobK 1 32, bobIt 1 32, by decide +kernel⟩,
   ⟨bobS 0 128 (bobCfg 1 2), 9, bobK 0 128, bobIt 0 128, by decide +kernel⟩⟩

/-- What the clauses of UsbHostPacketsAndControlStages assume is met. -/
theorem witness_UsbHostPacketsAndControlStages :
    (∃ (s : State) (port : Fin 62) (c : Nat) (k : HeddleChannel) (it : HeddleItem), port.val < 48 ∧ s.PipeTurn port.val c k it 0 ∧ (s.pipeCfg port.val).ty = 2 ∧ (s.pipeCfg port.val).dirIn = false ∧ it.done < it.len ∧ it.len - it.done ≤ (s.pipeCfg port.val).mps ∧ (it.param = 0 ∨ it.len % (s.pipeCfg port.val).mps ≠ 0) ∧ s.PlainRange k.e.inst (it.src + it.done) (it.len - it.done)) ∧
    (∃ (s : State) (port : Fin 62) (c : Nat) (k : HeddleChannel) (it : HeddleItem), port.val < 48 ∧ s.PipeTurn port.val c k it 0 ∧ (s.pipeCfg port.val).ty = 2 ∧ (s.pipeCfg port.val).dirIn = false ∧ it.param = 1 ∧ it.len - it.done = (s.pipeCfg port.val).mps ∧ 0 < (s.pipeCfg port.val).mps ∧ it.len % (s.pipeCfg port.val).mps = 0 ∧ (s.pipe port.val).stage ≠ 2 ∧ s.PlainRange k.e.inst (it.src + it.done) (it.len - it.done)) ∧
    (∃ (s : State) (port : Fin 62) (c : Nat) (k : HeddleChannel) (it : HeddleItem), port.val < 48 ∧ s.PipeTurn port.val c k it 0 ∧ (s.pipeCfg port.val).ty = 2 ∧ (s.pipeCfg port.val).dirIn = false ∧ it.param = 1 ∧ it.done = it.len ∧ (s.pipe port.val).stage = 2) ∧
    (∃ (s : State) (port : Fin 62) (c : Nat) (k : HeddleChannel) (it : HeddleItem) (bs : List Byte), port.val < 48 ∧ s.PipeTurn port.val c k it 0 ∧ (s.pipeCfg port.val).ty = 2 ∧ (s.pipeCfg port.val).dirIn = true ∧ 0 < bs.length ∧ it.done + bs.length < it.len ∧ bs.length < (s.pipeCfg port.val).mps ∧ s.PlainRange k.e.inst (it.dst + it.done) bs.length) ∧
    (∃ (s : State) (port : Fin 62) (c : Nat) (k : HeddleChannel) (it : HeddleItem), port.val < 48 ∧ s.PipeTurn port.val c k it 0 ∧ (s.pipeCfg port.val).ty = 2 ∧ (s.pipeCfg port.val).dirIn = true) ∧
    (∃ (s : State) (port : Fin 62) (c : Nat) (k : HeddleChannel) (it : HeddleItem) (bs : List Byte), port.val < 48 ∧ s.PipeTurn port.val c k it 0 ∧ (s.pipeCfg port.val).ty = 2 ∧ (s.pipeCfg port.val).dirIn = true ∧ ((s.pipeCfg port.val).mps < bs.length ∨ it.len - it.done < bs.length)) ∧
    (∃ (s : State) (port : Fin 62) (c : Nat) (k : HeddleChannel) (it : HeddleItem) (bs : List Byte), port.val < 48 ∧ s.PipeTurn port.val c k it 0 ∧ (s.pipeCfg port.val).ty = 2 ∧ (s.pipeCfg port.val).dirIn = true ∧ 0 < bs.length ∧ it.done + bs.length = it.len ∧ bs.length ≤ (s.pipeCfg port.val).mps ∧ s.PlainRange k.e.inst (it.dst + it.done) bs.length) ∧
    (∃ (s : State) (n : Fin 48) (c : Nat) (k : HeddleChannel) (it : HeddleItem), s.PipeTurn n.val c k it 1 ∧ (s.pipeCfg n.val).ty = 0 ∧ s.PlainRange k.e.inst it.src 8 ∧ (leNat (s.bytesAt it.src 8)).testBit 7 = true ∧ it.len = 8 ∧ (s.pipe n.val).stage = 0) ∧
    (∃ (s : State) (n : Fin 48) (c : Nat) (k : HeddleChannel) (it : HeddleItem), s.PipeTurn n.val c k it 1 ∧ (s.pipeCfg n.val).ty = 0 ∧ s.PlainRange k.e.inst it.src 8 ∧ (leNat (s.bytesAt it.src 8)).testBit 7 = false ∧ it.len = 8 + leNat (s.bytesAt it.src 8) / 2 ^ 48 % 2 ^ 16 ∧ (s.pipe n.val).stage = 2) ∧
    (∃ (s : State) (n : Fin 48) (port : Fin 62) (c : Nat) (k : HeddleChannel) (it : HeddleItem), port.val = n.val ∧ s.PortWork 7 (0x40 + n.val) c k it ∧ s.usbLive P.USBH = true ∧ (it.op ≠ b2n (decide ((s.pipeCfg n.val).ty = 0)) ∨ 2 ≤ it.param)) ∧
    (∃ (s : State) (n : Fin 48) (port : Fin 62) (c : Nat) (k : HeddleChannel) (it : HeddleItem) (d : Nat), port.val = n.val ∧ s.PortWork 7 (0x40 + n.val) c k it ∧ s.usbLive P.USBH = true ∧ it.op = b2n (decide ((s.pipeCfg n.val).ty = 0)) ∧ it.param < 2 ∧ s.pipeBlocked n.val = some d) ∧
    (∃ (s : State) (n : Fin 48) (port : Fin 62), port.val = n.val ∧ (s.usbItem (0x40 + n.val) = none ∨ s.usbLive P.USBH = false ∨ (s.usbItem (0x40 + n.val)).any (fun x => ! s.mayMove x.2.1) = true)) :=
  ⟨⟨usbH usbIt (pipeWord 0 2 0 512 0 0 1), 1, 9, chan0 7 0x41 usbIt, usbIt, by unfold State.PlainRange State.QuietMemory State.PipeTurn State.PortWork; decide +kernel⟩,
   ⟨usbH { usbIt with param := 1, len := 512 } (pipeWord 0 2 0 512 0 0 1), 1, 9, chan0 7 0x41 { usbIt with param := 1, len := 512 }, { usbIt with param := 1, len := 512 }, by unfold State.PlainRange State.QuietMemory State.PipeTurn State.PortWork; decide +kernel⟩,
   ⟨(usbH { usbIt with param := 1, done := 8 } (pipeWord 0 2 0 512 0 0 1)).setPipe 1 { UsbPipe.idle with stage := 2 }, 1, 9, chan0 7 0x41 { usbIt with param := 1, done := 8 }, { usbIt with param := 1, done := 8 }, by unfold State.PipeTurn State.PortWork; decide +kernel⟩,
   ⟨usbH usbIt (pipeWord 1 2 0 512 0 0 1), 1, 9, chan0 7 0x41 usbIt, usbIt, [1#8, 2#8, 3#8], by unfold State.PlainRange State.QuietMemory State.PipeTurn State.PortWork; decide +kernel⟩,
   ⟨usbH usbIt (pipeWord 1 2 0 512 0 0 1), 1, 9, chan0 7 0x41 usbIt, usbIt, by unfold State.PipeTurn State.PortWork; decide +kernel⟩,
   ⟨usbH usbIt (pipeWord 1 2 0 512 0 0 1), 1, 9, chan0 7 0x41 usbIt, usbIt, List.replicate 9 7#8, by unfold State.PipeTurn State.PortWork; decide +kernel⟩,
   ⟨usbH usbIt (pipeWord 1 2 0 512 0 0 1), 1, 9, chan0 7 0x41 usbIt, usbIt, [1#8, 2#8, 3#8, 4#8, 5#8, 6#8, 7#8, 8#8], by unfold State.PlainRange State.QuietMemory State.PipeTurn State.PortWork; decide +kernel⟩,
   ⟨(usbH { usbIt with op := 1 } (pipeWord 0 0 0 64 0 0 1)).putMem 0x01000100 [0x80#8, 6#8, 0#8, 1#8, 0#8, 0#8, 18#8, 0#8], 1, 9, chan0 7 0x41 { usbIt with op := 1 }, { usbIt with op := 1 }, by unfold State.PlainRange State.QuietMemory State.PipeTurn State.PortWork; decide +kernel⟩,
   ⟨((usbH { usbIt with op := 1 } (pipeWord 0 0 0 64 0 0 1)).putMem 0x01000100 [0#8, 9#8, 1#8, 0#8, 0#8, 0#8, 0#8, 0#8]).setPipe 1 { UsbPipe.idle with stage := 2 }, 1, 9, chan0 7 0x41 { usbIt with op := 1 }, { usbIt with op := 1 }, by unfold State.PlainRange State.QuietMemory State.PipeTurn State.PortWork; decide +kernel⟩,
   ⟨usbH { usbIt with op := 1 } (pipeWord 1 2 0 512 0 0 1), 1, 1, 9, chan0 7 0x41 { usbIt with op := 1 }, { usbIt with op := 1 }, by unfold State.PortWork; decide +kernel⟩,
   ⟨(usbH usbIt (pipeWord 1 2 0 512 0 0 1)).setReg (R.USBHUB_PORT 0) 0#64, 1, 1, 9, chan0 7 0x41 usbIt, usbIt, 4, by unfold State.PortWork; decide +kernel⟩,
   ⟨State.reset, 47, 47, by decide +kernel⟩⟩

/-- What the clauses of UsbHostScheduleAndSplitTransactions assume is met. -/
theorem witness_UsbHostScheduleAndSplitTransactions :
    (∃ (s : State) (q : Req) (n : Fin 48) (v : BitVec 64), OpenTo s q P.USBH ∧ (PipeCfg.of v).fieldBad = false ∧ s.pipeBusy n.val = false ∧ (((PipeCfg.of v).periodic = true → admission (s.livePeriodic n.val ++ [PipeCfg.of v]) = none))) ∧
    (∃ (s : State) (q : Req) (v : BitVec 64), OpenTo s q P.USBH ∧ (PipeCfg.of v).fieldBad = true) ∧
    (∃ (s : State) (q : Req) (n : Fin 48) (v : BitVec 64), OpenTo s q P.USBH ∧ (PipeCfg.of v).fieldBad = false ∧ s.pipeBusy n.val = true ∧ { PipeCfg.of v with en := (s.pipeCfg n.val).en } ≠ s.pipeCfg n.val) ∧
    (∃ (s : State) (q : Req) (n : Fin 48) (v : BitVec 64) (reason : Nat) (detail : Nat), OpenTo s q P.USBH ∧ (PipeCfg.of v).fieldBad = false ∧ s.pipeBusy n.val = false ∧ (PipeCfg.of v).periodic = true ∧ admission (s.livePeriodic n.val ++ [PipeCfg.of v]) = some (reason, detail)) ∧
    (∃ (s : State), s.usbLive P.USBH = true ∧ s.flag F.USBH_CTRL_RUN = true ∧ SMap.wf (fun _ => UsbPipe.idle) s.usb.pipes = true) ∧
    (∃ (s : State), (s.usbLive P.USBH && s.flag F.USBH_CTRL_RUN) = false ∧ s.usbLive P.USBD = true ∧ s.flag F.USBD_STAT_ATTACHED = true ∧ s.flag F.USBD_STAT_SUSPENDED = false) ∧
    (∃ (s : State), (s.flag F.USBD_STAT_SUSPENDED = true ∨ s.usbLive P.USBD = false) ∧ (s.usbLive P.USBH && s.flag F.USBH_CTRL_RUN) = false) ∧
    (∃ (s : State), (s.usbLive P.USBH && s.flag F.USBH_CTRL_RUN) = false) ∧
    (∃ (s : State) (q : Req), OpenTo s q P.USBH ∧ s.usbLive P.USBH = true ∧ (∀ n : Fin 48, s.usbItem (0x40 + n.val) = none ∨ (s.pipeCfg n.val).port = 0)) ∧
    (∃ (s : State) (n : Fin 48) (c : Nat) (k : HeddleChannel) (it : HeddleItem), s.PortWork 7 (0x40 + n.val) c k it ∧ s.usbLive P.USBH = true ∧ s.pipeBlocked n.val = none ∧ s.mayToken n.val = true ∧ it.op = 0 ∧ it.param = 0 ∧ (s.pipeCfg n.val).speed = 1 ∧ (s.pipeCfg n.val).ty = 2 ∧ 1 ≤ (s.pipeCfg n.val).port ∧ (s.pipeCfg n.val).port ≤ 4 ∧ (s.pipe n.val).split = false ∧ (s.pipe n.val).since = none ∧ (s.usb.tt.filter (fun b => b.port == (s.pipeCfg n.val).port - 1)).length < 4) ∧
    (∃ (s : State) (n : Fin 48) (c : Nat) (k : HeddleChannel) (it : HeddleItem), s.PortWork 7 (0x40 + n.val) c k it ∧ s.usbLive P.USBH = true ∧ s.pipeBlocked n.val = none ∧ s.mayToken n.val = true ∧ it.op = 0 ∧ it.param = 0 ∧ (s.pipeCfg n.val).speed = 1 ∧ (s.pipeCfg n.val).ty = 2 ∧ 1 ≤ (s.pipeCfg n.val).port ∧ (s.pipeCfg n.val).port ≤ 4 ∧ (s.pipe n.val).split = false ∧ (s.pipe n.val).since = none ∧ 4 ≤ (s.usb.tt.filter (fun b => b.port == (s.pipeCfg n.val).port - 1)).length) ∧
    (∃ (s : State) (n : Fin 48) (c : Nat) (k : HeddleChannel) (it : HeddleItem), s.PortWork 7 (0x40 + n.val) c k it ∧ s.usbLive P.USBH = true ∧ s.pipeBlocked n.val = none ∧ s.mayToken n.val = true ∧ it.op = 0 ∧ it.param = 0 ∧ (s.pipeCfg n.val).speed = 1 ∧ (s.pipeCfg n.val).ty = 3 ∧ 1 ≤ (s.pipeCfg n.val).port ∧ (s.pipeCfg n.val).port ≤ 4 ∧ (s.pipe n.val).split = false ∧ (s.pipe n.val).since = none) ∧
    (∃ (s : State) (n : Fin 48), (s.usbItem (0x40 + n.val) = none ∨ s.usbLive P.USBH = false ∨ (s.pipeCfg n.val).viaTt = false)) ∧
    (∃ (s : State) (n : Fin 48) (c : Nat) (k : HeddleChannel) (it : HeddleItem), s.PortWork 7 (0x40 + n.val) c k it ∧ s.usbLive P.USBH = true ∧ s.pipeBlocked n.val = none ∧ s.mayToken n.val = true ∧ it.op = 0 ∧ it.param = 0 ∧ (s.pipeCfg n.val).speed = 1 ∧ (s.pipeCfg n.val).ty = 2 ∧ (s.pipeCfg n.val).dirIn = false ∧ (s.pipe n.val).split = true ∧ (s.pipe n.val).ping = false ∧ it.done < it.len ∧ it.len - it.done ≤ (s.pipeCfg n.val).mps ∧ s.PlainRange k.e.inst (it.src + it.done) (it.len - it.done)) :=
  ⟨⟨State.reset, ⟨0, true⟩, 47, BitVec.ofNat 64 (pipeWord 1 2 0 512 0 0 1), by unfold OpenTo; decide +kernel⟩,
   ⟨State.reset, ⟨0, true⟩, BitVec.ofNat 64 (pipeWord 1 2 0 511 0 0 1), by unfold OpenTo; decide +kernel⟩,
   ⟨usbH usbIt (pipeWord 1 2 0 512 0 0 1), ⟨0, true⟩, 1, BitVec.ofNat 64 (pipeWord 0 2 0 512 0 0 1), by unfold OpenTo; decide +kernel⟩,
   ⟨(State.reset.setReg (R.USBH_PIPE_CFG 3) (BitVec.ofNat 64 (pipeWord 1 1 0 1024 0 0 1 + 2 ^ 28))).setReg (R.USBH_PIPE_CFG 4) (BitVec.ofNat 64 (pipeWord 1 1 0 1024 0 0 1 + 2 ^ 28)), ⟨0, true⟩, 47, BitVec.ofNat 64 (pipeWord 1 3 0 1024 0 0 1), 1, 2 ^ 16 * 7616, by unfold OpenTo; decide +kernel⟩,
   ⟨(usbH usbIt (pipeWord 1 3 0 64 0 0 1)).setPipe 7 { UsbPipe.idle with hold := 3, since := some 2 }, by decide +kernel⟩,
   ⟨(usbD 0x72 usbIt).setFld F.USBD_STAT_SPEED 2 |>.setFld F.USBD_FRAME_FRAME 77, by decide +kernel⟩,
   ⟨State.reset, by decide +kernel⟩,
   ⟨State.reset, by decide +kernel⟩,
   ⟨usbH usbIt (pipeWord 1 3 0 64 0 0 0), ⟨0, true⟩, by unfold OpenTo; decide +kernel⟩,
   ⟨usbH usbIt (pipeWord 0 2 1 64 0 0 1), 1, 9, chan0 7 0x41 usbIt, usbIt, by unfold State.PortWork; decide +kernel⟩,
   ⟨fullTt, 1, 9, chan0 7 0x41 usbIt, usbIt, by unfold State.PortWork; decide +kernel⟩,
   ⟨dueS, 1, 9, chan0 7 0x41 usbIt, usbIt, by unfold State.PortWork; decide +kernel⟩,
   ⟨State.reset, 47, by decide +kernel⟩,
   ⟨splitS, 1, 9, chan0 7 0x41 usbIt, usbIt, by unfold State.PortWork State.PlainRange State.QuietMemory; decide +kernel⟩⟩

/-- What the clauses of UsbHubPortPowerResetAndSuspend assume is met. -/
theorem witness_UsbHubPortPowerResetAndSuspend :
    (∃ (s : State) (p : Fin 4), s.usbLive P.USBHUB = true ∧ s.flag (F.USBHUB_OC_ACTIVE p.val) = false ∧ s.portIs p.val 0 = false) ∧
    (∃ (s : State) (p : Fin 4), s.usbLive P.USBHUB = true ∧ s.flag (F.USBHUB_OC_ACTIVE p.val) = true) ∧
    (∃ (s : State) (p : Fin 4), s.usbLive P.USBHUB = true ∧ ((∀ n : Fin 48, (s.pipeCfg n.val).port = p.val + 1 → s.usbItem (0x40 + n.val) = none))) ∧
    (∃ (s : State), s.usbLive P.USBHUB = true ∧ s.TablesKeyed) ∧
    (∃ (s : State), s.usbLive P.USBHUB = true ∧ s.bankLive 2 = true) ∧
    (∃ (s : State) (p : Fin 4), s.usbLive P.USBHUB = true ∧ s.portIs p.val 8 = true ∧ s.portIs p.val 0 = true) ∧
    (∃ (s : State) (p : Fin 4), s.usbLive P.USBHUB = true ∧ s.portIs p.val 1 = true) ∧
    (∃ (s : State) (p : Fin 4), s.usbLive P.USBHUB = true ∧ s.portIs p.val 2 = true) ∧
    (∃ (s : State) (p : Fin 4), s.usbLive P.USBHUB = true ∧ s.flag (F.USBHUB_OC_ACTIVE p.val) = false) ∧
    (∃ (s : State) (p : Fin 4), s.usbLive P.USBHUB = true ∧ (s.portIs p.val 8 && s.portIs p.val 0) = false) ∧
    (∃ (s : State) (p : Fin 4), (s.usbLive P.USBHUB = false ∨ s.portIs p.val 1 = false)) ∧
    (∃ (s : State) (p : Fin 4), (s.usbLive P.USBHUB = false ∨ s.portIs p.val 2 = false)) ∧
    (∃ (s : State), (s.usbLive P.USBHUB = false ∨ s.bankLive 2 = false)) ∧
    (∃ (s : State), s.usbLive P.USBHUB = false) :=
  ⟨⟨on State.reset P.USBHUB, 3, by decide +kernel⟩,
   ⟨(on State.reset P.USBHUB).setFld (F.USBHUB_OC_ACTIVE 3) 1, 3, by decide +kernel⟩,
   ⟨splitS, 1, by decide +kernel⟩,
   ⟨usbH usbIt (pipeWord 1 2 0 512 0 0 1), by unfold State.TablesKeyed; decide +kernel⟩,
   ⟨((on State.reset P.USBHUB).setFld (F.USBHUB_OC_ACTIVE 3) 1).setFld (F.USBHUB_OC_COUNT 3) 5, by decide +kernel⟩,
   ⟨(on State.reset P.USBHUB).setReg (R.USBHUB_PORT 2) 0x101#64, 2, by decide +kernel⟩,
   ⟨usbH usbIt (pipeWord 1 2 0 512 0 0 1), 0, by decide +kernel⟩,
   ⟨(usbH usbIt (pipeWord 1 2 0 512 0 0 1)).setReg (R.USBHUB_PORT 0) 0x107#64, 0, by decide +kernel⟩,
   ⟨on State.reset P.USBHUB, 3, by decide +kernel⟩,
   ⟨on State.reset P.USBHUB, 3, by decide +kernel⟩,
   ⟨on State.reset P.USBHUB, 3, by decide +kernel⟩,
   ⟨on State.reset P.USBHUB, 3, by decide +kernel⟩,
   ⟨State.reset, by decide +kernel⟩,
   ⟨State.reset, by decide +kernel⟩⟩

/-- What the clauses of UsbHubRequestsAndTranslators assume is met. -/
theorem witness_UsbHubRequestsAndTranslators :
    (∃ (s : State), s.usbLive P.USBHUB = true) ∧
    (∃ (s : State) (p : Fin 4), s.usbLive P.USBHUB = true ∧ ((∀ n : Fin 48, (s.pipeCfg n.val).port = p.val + 1 → s.usbItem (0x40 + n.val) = none))) ∧
    (∃ (s : State) (p : Fin 4) (line : UsbLine), s.usbLive P.USBHUB = true ∧ s.flag (F.USBHUB_OC_ACTIVE p.val) = false ∧ s.portIs p.val 0 = false ∧ s.portLine p.val = lineCode line) ∧
    (∃ (s : State) (setup : BitVec 64), (s.usbLive P.USBHUB = false ∨ hubRequest s setup.toNat = none)) ∧
    (∃ (s : State), s.usbLive P.USBHUB = false) :=
  ⟨⟨splitS, by decide +kernel⟩,
   ⟨splitS.setReg (R.USBHUB_PORT 2) 0x103#64, 2, by decide +kernel⟩,
   ⟨(on State.reset P.USBHUB).setLine 3 3, 3, .high, by decide +kernel⟩,
   ⟨on State.reset P.USBHUB, 0x0000000000000723#64, by decide +kernel⟩,
   ⟨State.reset, by decide +kernel⟩⟩

/-- What the clauses of UsbServicePortPacketsAndAttach assume is met. -/
theorem witness_UsbServicePortPacketsAndAttach :
    (∃ (s : State) (port : Fin 62) (e : Nat) (c : Nat) (k : HeddleChannel) (it : HeddleItem) (bs : List Byte), port.val = 48 + e ∧ 8 ≤ e ∧ s.PortWork 7 (0x70 + e) c k it ∧ it.op = 0 ∧ it.param = 0 ∧ s.epAnswers e = true ∧ s.epStalled e = false ∧ (s.ep e).fifo = [] ∧ (s.ep e).aborted = false ∧ 0 < bs.length ∧ it.done + bs.length = it.len ∧ bs.length ≤ s.epMps e ∧ s.epMps e ≤ s.epRoom e ∧ s.epType e ≠ 1 ∧ s.PlainRange k.e.inst (it.dst + it.done) bs.length) ∧
    (∃ (s : State) (port : Fin 62) (e : Nat) (c : Nat) (k : HeddleChannel) (it : HeddleItem), port.val = 48 + e ∧ 1 ≤ e ∧ e ≤ 7 ∧ s.PortWork 7 (0x70 + e) c k it ∧ it.op = 0 ∧ it.param = 0 ∧ s.epAnswers e = true ∧ s.epStalled e = false ∧ (s.ep e).fifo = [] ∧ s.epType e ≠ 1 ∧ s.statusStage e = false ∧ 0 < s.epMult e ∧ (s.ep e).aborted = false ∧ it.done < it.len ∧ it.len - it.done ≤ s.epMps e ∧ s.PlainRange k.e.inst (it.src + it.done) (it.len - it.done)) ∧
    (∃ (s : State), s.usbClocked = true ∧ s.flag F.USBD_STAT_VBUS = false ∧ s.flag F.USBD_CTRL_ATTACH = true ∧ s.usbLive P.USBD = true ∧ s.flag F.USBD_STAT_ATTACHED = false) ∧
    (∃ (s : State), s.usbClocked = true ∧ s.flag F.USBD_STAT_VBUS = true ∧ (∀ e : Fin 14, s.usbItem (0x70 + e.val) = none)) ∧
    (∃ (s : State), s.usbClocked = false) ∧
    (∃ (s : State), s.usbLive P.USBD = true ∧ s.flag F.USBD_STAT_ATTACHED = true ∧ s.TablesKeyed) ∧
    (∃ (s : State) (setup : BitVec 64), s.usbLive P.USBD = true ∧ s.flag F.USBD_STAT_ATTACHED = true ∧ s.flag F.USBD_STAT_SUSPENDED = false ∧ s.ownRequest setup.toNat = none) ∧
    (∃ (s : State) (q : Req), OpenTo s q P.USBD) ∧
    (∃ (s : State) (port : Fin 62) (e : Nat), port.val = 48 + e ∧ s.usbItem (0x70 + e) = none ∧ (s.ep e).aborted = false ∧ s.epAnswers e = false) ∧
    (∃ (s : State) (port : Fin 62) (e : Nat), port.val = 48 + e ∧ s.usbItem (0x70 + e) = none ∧ (s.ep e).aborted = false ∧ s.epAnswers e = true ∧ s.epStalled e = true) ∧
    (∃ (s : State) (port : Fin 62) (e : Nat), port.val = 48 + e ∧ s.usbItem (0x70 + e) = none ∧ (s.ep e).aborted = false ∧ s.epAnswers e = true ∧ s.epStalled e = false ∧ epIn e = true ∧ (s.ep e).fifo = [] ∧ s.statusStage e = false) ∧
    (∃ (s : State) (port : Fin 62) (e : Nat) (bs : List Byte), port.val = 48 + e ∧ 8 ≤ e ∧ s.usbItem (0x70 + e) = none ∧ s.epAnswers e = true ∧ s.epStalled e = false ∧ s.epType e ≠ 1 ∧ bs.length ≤ s.epMps e ∧ ((s.ep e).aborted = true ∧ s.portPublished (0x70 + e) = false ∨ (s.ep e).aborted = false ∧ s.epRoom e < s.epHeld e + s.epMps e)) ∧
    (∃ (s : State) (port : Fin 62), port.val = 49 ∧ s.usbItem 0x71 = none ∧ (s.ep 1).aborted = false ∧ s.epAnswers 1 = true ∧ s.epStalled 1 = false ∧ s.statusStage 1 = true) ∧
    (∃ (s : State) (port : Fin 62) (e : Nat) (c : Nat) (k : HeddleChannel) (it : HeddleItem) (bs : List Byte), port.val = 48 + e ∧ 8 ≤ e ∧ s.PortWork 7 (0x70 + e) c k it ∧ it.op = 0 ∧ it.param < 2 ∧ s.epAnswers e = true ∧ s.epStalled e = false ∧ (s.ep e).fifo = [] ∧ (s.ep e).aborted = false ∧ bs.length ≤ s.epMps e ∧ s.epMps e ≤ s.epRoom e ∧ s.epType e ≠ 1) ∧
    (∃ (s : State) (port : Fin 62) (e : Nat) (c : Nat) (k : HeddleChannel) (it : HeddleItem) (bs : List Byte), port.val = 48 + e ∧ 8 ≤ e ∧ s.PortWork 7 (0x70 + e) c k it ∧ it.op = 0 ∧ it.param < 2 ∧ s.epAnswers e = true ∧ s.epStalled e = false ∧ (s.ep e).fifo = [] ∧ (s.ep e).aborted = false ∧ bs.length < s.epMps e ∧ it.done + bs.length < it.len ∧ s.epMps e ≤ s.epRoom e ∧ s.epType e ≠ 1 ∧ 0 < bs.length ∧ s.PlainRange k.e.inst (it.dst + it.done) bs.length) ∧
    (∃ (s : State) (port : Fin 62) (e : Nat) (c : Nat) (k : HeddleChannel) (it : HeddleItem), port.val = 48 + e ∧ s.PortWork 7 (0x70 + e) c k it ∧ (it.op ≠ 0 ∨ 2 ≤ it.param)) ∧
    (∃ (s : State), s.usbClocked = true ∧ s.flag F.USBD_STAT_VBUS = false ∧ (s.flag F.USBD_CTRL_ATTACH && s.usbLive P.USBD) = false ∧ s.flag F.USBD_STAT_ATTACHED = false) ∧
    (∃ (s : State), s.flag F.USBD_STAT_VBUS = false) ∧
    (∃ (s : State), (s.usbLive P.USBD && s.flag F.USBD_STAT_ATTACHED) = false) :=
  ⟨⟨usbD 0x78 usbIt, 56, 8, 9, chan0 7 0x78 usbIt, usbIt, [1#8, 2#8, 3#8, 4#8, 5#8, 6#8, 7#8, 8#8], by unfold State.PortWork State.PlainRange State.QuietMemory; decide +kernel⟩,
   ⟨usbD 0x72 usbIt, 50, 2, 9, chan0 7 0x72 usbIt, usbIt, by unfold State.PortWork State.PlainRange State.QuietMemory; decide +kernel⟩,
   ⟨(on State.reset P.USBD).setFld F.USBD_CTRL_ATTACH 1, by decide +kernel⟩,
   ⟨(usbD 0x70 usbIt).delHch 9, by decide +kernel⟩,
   ⟨State.reset.setFld F.PWR_STATE_CUR 3, by decide +kernel⟩,
   ⟨usbD 0x72 usbIt, by unfold State.TablesKeyed; decide +kernel⟩,
   ⟨usbD 0x72 usbIt, 0x0012000001000680, by decide +kernel⟩,
   ⟨(usbD 0x72 usbIt).setFld F.USBD_ADDR_ADDR 0x35 |>.setFld F.USBD_EP0_CTRL_SETUP_PENDING 1, ⟨0, true⟩, by unfold OpenTo; decide +kernel⟩,
   ⟨State.reset, 61, 13, by decide +kernel⟩,
   ⟨((usbD 0x78 usbIt).delHch 9).setFld (epHaltF 8) 1, 56, 8, by decide +kernel⟩,
   ⟨(usbD 0x72 usbIt).delHch 9, 50, 2, by decide +kernel⟩,
   ⟨((usbD 0x78 usbIt).delHch 9).setEp 8 { UsbEndpoint.idle with aborted := true }, 56, 8, [1#8], by decide +kernel⟩,
   ⟨(usbD 0x72 usbIt).setFld F.USBD_EP0_CTRL_SETUP_PENDING 1, 49, by decide +kernel⟩,
   ⟨usbD 0x78 usbIt, 56, 8, 9, chan0 7 0x78 usbIt, usbIt, [1#8, 2#8], by unfold State.PortWork; decide +kernel⟩,
   ⟨usbD 0x78 usbIt, 56, 8, 9, chan0 7 0x78 usbIt, usbIt, [1#8, 2#8], by unfold State.PortWork State.PlainRange State.QuietMemory; decide +kernel⟩,
   ⟨usbD 0x78 { usbIt with op := 1 }, 56, 8, 9, chan0 7 0x78 { usbIt with op := 1 }, { usbIt with op := 1 }, by unfold State.PortWork; decide +kernel⟩,
   ⟨{ State.reset with power := { State.reset.power with phase := .run } }, by decide +kernel⟩,
   ⟨State.reset, by decide +kernel⟩,
   ⟨State.reset, by decide +kernel⟩⟩

/-- What the clauses of UsbServicePortEndpointsAndSuspend assume is met. -/
theorem witness_UsbServicePortEndpointsAndSuspend :
    (∃ (s : State) (q : Req) (dirIn : Bool) (k : Fin 6) (mps : Fin 1025) (ty : Fin 4) (mult : Fin 4) (fifo : Fin 127), OpenTo s q P.USBD ∧ 0 < mps.val ∧ 0 < ty.val ∧ 0 < mult.val ∧ 0 < fifo.val ∧ s.epOn (if dirIn then k.val + 2 else k.val + 8) = false ∧ s.fifoUnits (if dirIn then k.val + 2 else k.val + 8) + fifo.val ≤ 126 ∧ mps.val * mult.val ≤ 64 * fifo.val ∧ ((ty.val = 2 → mult.val = 1))) ∧
    (∃ (s : State) (q : Req) (dirIn : Bool) (k : Fin 6) (v : BitVec 32), OpenTo s q P.USBD ∧ (F.USBD_EPIN_CFG_EN 0).of (v.zeroExtend 64) = 1 ∧ 126 < s.fifoUnits (if dirIn then k.val + 2 else k.val + 8) + (F.USBD_EPIN_CFG_FIFO 0).of (v.zeroExtend 64)) ∧
    (∃ (s : State) (dirIn : Bool) (k : Fin 6), s.epAnswers (if dirIn then k.val + 2 else k.val + 8) = true ∧ s.heddle.ch.find? (fun x => decide (x.2.e.kind = 7 ∧ x.2.e.port = 0x70 + (if dirIn then k.val + 2 else k.val + 8))) = none) ∧
    (∃ (s : State) (q : Req) (dirIn : Bool) (k : Fin 6), OpenTo s q P.USBD ∧ s.heddle.ch.find? (fun x => decide (x.2.e.kind = 7 ∧ x.2.e.port = 0x70 + (if dirIn then k.val + 2 else k.val + 8))) = none) ∧
    (∃ (s : State) (q : Req) (n : Fin 48), OpenTo s q P.USBH ∧ ((∀ e ∈ s.heddle.ch, e.2.e.kind = 7 → e.2.e.port ≠ 0x40 + n.val))) ∧
    (∃ (s : State), s.usbLive P.USBD = true ∧ s.flag F.USBD_STAT_ATTACHED = true ∧ s.flag F.USBD_STAT_SUSPENDED = false) ∧
    (∃ (s : State), s.usbLive P.USBD = true ∧ s.flag F.USBD_STAT_SUSPENDED = true) ∧
    (∃ (s : State) (q : Req), OpenTo s q P.USBD ∧ s.usbLive P.USBD = true ∧ s.flag F.USBD_STAT_SUSPENDED = true ∧ s.flag F.USBD_STAT_ATTACHED = true ∧ s.flag F.USBD_STAT_VBUS = true) ∧
    (∃ (s : State) (q : Req) (attach : Bool), OpenTo s q P.USBD ∧ (s.flag F.USBD_STAT_ATTACHED = (attach && s.flag F.USBD_STAT_VBUS && s.usbLive P.USBD))) ∧
    (∃ (s : State) (q : Req) (v : BitVec 32), OpenTo s q P.USBD ∧ (F.USBD_EPIN_CFG_EN 0).of (v.zeroExtend 64) = 0 ∧ (F.USBD_EPIN_CFG_MPS 0).of (v.zeroExtend 64) = 0) ∧
    (∃ (s : State) (dirIn : Bool) (k : Fin 6), s.epAnswers (if dirIn then k.val + 2 else k.val + 8) = false) ∧
    (∃ (s : State), ((s.usbLive P.USBD && s.flag F.USBD_STAT_ATTACHED) = false ∨ s.flag F.USBD_STAT_SUSPENDED = true)) ∧
    (∃ (s : State), (s.usbLive P.USBD && s.flag F.USBD_STAT_SUSPENDED) = false) :=
  ⟨⟨on State.reset P.USBD, ⟨0, true⟩, true, 5, 1024, 1, 3, 126, by unfold OpenTo; decide +kernel⟩,
   ⟨on State.reset P.USBD, ⟨0, true⟩, false, 5, 0x807F2840#32, by unfold OpenTo; decide +kernel⟩,
   ⟨(usbD 0x72 usbIt).delHch 9, true, 0, by decide +kernel⟩,
   ⟨(usbD 0x72 usbIt).delHch 9, ⟨0, true⟩, false, 5, by unfold OpenTo; decide +kernel⟩,
   ⟨((on State.reset P.USBH).setFld (F.USBH_PIPE_STAT_HALTED 7) 1).setFld (F.USBH_PIPE_STAT_TOGGLE 7) 1, ⟨0, true⟩, 7, by unfold OpenTo; decide +kernel⟩,
   ⟨usbD 0x72 usbIt, by decide +kernel⟩,
   ⟨(usbD 0x72 usbIt).setFld F.USBD_STAT_SUSPENDED 1, by decide +kernel⟩,
   ⟨(usbD 0x72 usbIt).setFld F.USBD_STAT_SUSPENDED 1, ⟨0, true⟩, by unfold OpenTo; decide +kernel⟩,
   ⟨(usbD 0x72 usbIt).setFld F.USBD_STAT_SUSPENDED 1, ⟨0, true⟩, true, by unfold OpenTo; decide +kernel⟩,
   ⟨on State.reset P.USBD, ⟨0, true⟩, 0x00012800#32, by unfold OpenTo; decide +kernel⟩,
   ⟨State.reset, true, 5, by decide +kernel⟩,
   ⟨State.reset, by decide +kernel⟩,
   ⟨State.reset, by decide +kernel⟩⟩

/-- What the clauses of EthernetFramesSentAndReceived assume is met. -/
theorem witness_EthernetFramesSentAndReceived :
    (∃ (s : State) (n : Fin 2) (c : Nat) (k : HeddleChannel) (it : HeddleItem) (f1 : List Byte) (f2 : List Byte), s.PortWork 3 (0x29 + 2 * n.val) c k it ∧ s.ioLive (P.ETH n.val) = true ∧ (s.eth n.val).pause = 0 ∧ it.started = false ∧ 14 ≤ it.len ∧ it.param % 2 = 0 ∧ clearBits it.param 0xFFFF0007 = 0 ∧ s.PlainRange k.e.inst it.src it.len ∧ it.len + 4 ≤ s.fld (F.ETH_MAXLEN_MAXLEN n.val) ∧ f1 = (if it.param.testBit 2 then fillChecksums (s.bytesAt it.src it.len) else s.bytesAt it.src it.len) ∧ f2 = (if it.param.testBit 1 then f1.take 12 ++ [0x81#8, 0x00#8] ++ beBytes 2 (it.param / 2 ^ 16) ++ f1.drop 12 else f1) ∧ 60 ≤ f2.length) ∧
    (∃ (s : State) (n : Fin 2) (c : Nat) (k : HeddleChannel) (it : HeddleItem), s.PortWork 3 (0x29 + 2 * n.val) c k it ∧ s.ioLive (P.ETH n.val) = true ∧ (s.eth n.val).pause = 0 ∧ it.started = false ∧ 14 ≤ it.len ∧ it.len < 60 ∧ it.param = 0 ∧ s.PlainRange k.e.inst it.src it.len ∧ it.len + 4 ≤ s.fld (F.ETH_MAXLEN_MAXLEN n.val)) ∧
    (∃ (s : State) (n : Fin 2) (c : Nat) (k : HeddleChannel) (it : HeddleItem), s.PortWork 3 (0x29 + 2 * n.val) c k it ∧ s.ioLive (P.ETH n.val) = true ∧ (s.eth n.val).pause = 0 ∧ it.started = false ∧ 60 ≤ it.len ∧ it.param = 1 ∧ s.PlainRange k.e.inst it.src it.len ∧ s.PlainRange k.e.inst it.dst 16 ∧ it.len + 4 ≤ s.fld (F.ETH_MAXLEN_MAXLEN n.val)) ∧
    (∃ (s : State) (n : Fin 2) (f : List Byte), s.ethHears n.val = true ∧ 60 ≤ f.length ∧ f.length + 4 ≤ s.fld (F.ETH_MAXLEN_MAXLEN n.val) ∧ be16 f 12 ≠ 0x8808 ∧ s.ethAccepts n.val f = true ∧ s.vlanAccepts n.val f = true ∧ (s.eth n.val).rx.foldl (fun k x => k + x.bytes.length) 0 + f.length ≤ 32768) ∧
    (∃ (s : State) (n : Fin 2), s.ethHears n.val = true) ∧
    (∃ (s : State) (n : Fin 2) (f : List Byte), s.ethHears n.val = true ∧ 60 ≤ f.length ∧ f.length + 4 ≤ s.fld (F.ETH_MAXLEN_MAXLEN n.val) ∧ be16 f 12 ≠ 0x8808 ∧ (s.ethAccepts n.val f && s.vlanAccepts n.val f) = false) ∧
    (∃ (s : State) (n : Fin 2) (c : Nat) (k : HeddleChannel) (it : HeddleItem) (x : EthFrame) (rest : List EthFrame), s.PortWork 2 (0x28 + 2 * n.val) c k it ∧ s.ioLive (P.ETH n.val) = true ∧ it.param = 0 ∧ (s.eth n.val).rx = x :: rest ∧ s.flag (F.ETH_VLAN_STRIP n.val) = false ∧ 16 + x.bytes.length ≤ it.len ∧ x.bytes.length < 65536 ∧ x.ns < 2 ^ 32 ∧ s.PlainRange k.e.inst it.dst (16 + x.bytes.length)) ∧
    (∃ (s : State) (n : Fin 2) (c : Nat) (k : HeddleChannel) (it : HeddleItem) (x : EthFrame) (rest : List EthFrame), s.PortWork 2 (0x28 + 2 * n.val) c k it ∧ s.ioLive (P.ETH n.val) = true ∧ it.param = 0 ∧ (s.eth n.val).rx = x :: rest ∧ s.flag (F.ETH_VLAN_STRIP n.val) = true ∧ be16 x.bytes 12 = 0x8100 ∧ 16 ≤ x.bytes.length ∧ 12 + x.bytes.length ≤ it.len ∧ x.bytes.length < 65536 ∧ s.PlainRange k.e.inst it.dst (12 + x.bytes.length)) ∧
    (∃ (s : State) (n : Fin 2) (c : Nat) (k : HeddleChannel) (it : HeddleItem) (x : EthFrame) (rest : List EthFrame), s.PortWork 2 (0x28 + 2 * n.val) c k it ∧ s.ioLive (P.ETH n.val) = true ∧ it.param = 0 ∧ (s.eth n.val).rx = x :: rest ∧ s.flag (F.ETH_VLAN_STRIP n.val) = false ∧ it.len < 16 + x.bytes.length ∧ 16 ≤ it.len ∧ s.PlainRange k.e.inst it.dst it.len) ∧
    (∃ (s : State) (n : Fin 2) (c : Nat) (k : HeddleChannel) (it : HeddleItem), s.PortWork 3 (0x29 + 2 * n.val) c k it ∧ s.ioLive (P.ETH n.val) = true ∧ it.started = false ∧ clearBits it.param 0xFFFF0007 = 0 ∧ it.len < 14) ∧
    (∃ (s : State) (n : Fin 2) (c : Nat) (k : HeddleChannel) (it : HeddleItem), s.PortWork 3 (0x29 + 2 * n.val) c k it ∧ s.ioLive (P.ETH n.val) = true ∧ it.started = false ∧ clearBits it.param 0xFFFF0007 = 0 ∧ 14 ≤ it.len ∧ s.PlainRange k.e.inst it.src it.len ∧ s.fld (F.ETH_MAXLEN_MAXLEN n.val) < it.len) ∧
    (∃ (s : State) (n : Fin 2) (c : Nat) (k : HeddleChannel) (it : HeddleItem), s.PortWork 3 (0x29 + 2 * n.val) c k it ∧ clearBits it.param 0xFFFF0007 = 0 ∧ (s.ioLive (P.ETH n.val) = false ∨ (s.eth n.val).pause ≠ 0 ∧ it.started = true)) ∧
    (∃ (s : State) (n : Fin 2) (c : Nat) (k : HeddleChannel) (it : HeddleItem), s.PortWork 3 (0x29 + 2 * n.val) c k it ∧ s.ioLive (P.ETH n.val) = true ∧ (s.eth n.val).pause ≠ 0 ∧ it.started = false ∧ clearBits it.param 0xFFFF0007 = 0 ∧ 14 ≤ it.len ∧ s.PlainRange k.e.inst it.src it.len ∧ it.len + 4 ≤ s.fld (F.ETH_MAXLEN_MAXLEN n.val)) ∧
    (∃ (s : State) (n : Fin 2) (c : Nat) (k : HeddleChannel) (it : HeddleItem) (f2 : List Byte), s.PortWork 3 (0x29 + 2 * n.val) c k it ∧ s.ioLive (P.ETH n.val) = true ∧ (s.eth n.val).pause = 0 ∧ it.started = true ∧ it.param = 0 ∧ (s.eth n.val).tx = f2 ∧ 60 ≤ f2.length) ∧
    (∃ (s : State) (n : Fin 2), s.portItem 3 (0x29 + 2 * n.val) = none) ∧
    (∃ (s : State) (n : Fin 2) (c : Nat) (k : HeddleChannel) (it : HeddleItem), s.PortWork 3 (0x29 + 2 * n.val) c k it ∧ clearBits it.param 0xFFFF0007 ≠ 0) ∧
    (∃ (s : State) (n : Fin 2), (s.portItem 2 (0x28 + 2 * n.val) = none ∨ (s.eth n.val).rx = [] ∧ (s.portItem 2 (0x28 + 2 * n.val)).all (fun x => x.2.2.param == 0) = true)) ∧
    (∃ (s : State) (n : Fin 2), s.ethHears n.val = false) ∧
    (∃ (s : State) (n : Fin 2) (f : List Byte), s.ethHears n.val = true ∧ (f.length < 60 ∨ s.fld (F.ETH_MAXLEN_MAXLEN n.val) + (if be16 f 12 = 0x8100 then 4 else 0) < f.length + 4)) ∧
    (∃ (s : State) (n : Fin 2) (f : List Byte), s.ethHears n.val = true ∧ 60 ≤ f.length ∧ f.length + 4 ≤ s.fld (F.ETH_MAXLEN_MAXLEN n.val) ∧ be16 f 12 ≠ 0x8808 ∧ (s.ethAccepts n.val f && s.vlanAccepts n.val f) = true ∧ 32768 < (s.eth n.val).rx.foldl (fun k x => k + x.bytes.length) 0 + f.length) ∧
    (∃ (s : State) (n : Fin 2) (f : List Byte), s.ethHears n.val = true ∧ s.flag (F.ETH_CFG_PAUSE_EN n.val) = true ∧ 60 ≤ f.length ∧ f.length + 4 ≤ s.fld (F.ETH_MAXLEN_MAXLEN n.val) ∧ be16 f 12 = 0x8808 ∧ be16 f 14 = 1) :=
  ⟨⟨ethTxS 60 0, 1, 9, chan0 3 0x2B (ethIt 60 0), ethIt 60 0, ipFrame, ipFrame, by unfold State.PortWork State.PlainRange State.QuietMemory; decide +kernel⟩,
   ⟨ethTxS 20 0, 1, 9, chan0 3 0x2B (ethIt 20 0), ethIt 20 0, by unfold State.PortWork State.PlainRange State.QuietMemory; decide +kernel⟩,
   ⟨ethTxS 60 1, 1, 9, chan0 3 0x2B (ethIt 60 1), ethIt 60 1, by unfold State.PortWork State.PlainRange State.QuietMemory; decide +kernel⟩,
   ⟨(fieldS 0 0 item0).setFld (F.ETH_FILTER_PROMISC 1) 1, 1, ipFrame, by decide +kernel⟩,
   ⟨fieldS 0 0 item0, 1, by decide +kernel⟩,
   ⟨(fieldS 0 0 item0).setFld (F.ETH_FILTER_VLAN_FILT 1) 1 |>.setFld (F.ETH_FILTER_UNTAGGED 1) 0, 1, ipFrame, by decide +kernel⟩,
   ⟨ethRxS ipFrame 76, 1, 9, chan0 2 0x2A (ethIt 76 0), ethIt 76 0, ⟨ipFrame, 3 + 2 ^ 33, 77⟩, [], by unfold State.PortWork State.PlainRange State.QuietMemory; decide +kernel⟩,
   ⟨(ethRxS tagFrame 200).setFld (F.ETH_VLAN_STRIP 1) 1, 1, 9, chan0 2 0x2A (ethIt 200 0), ethIt 200 0, ⟨tagFrame, 3 + 2 ^ 33, 77⟩, [], by unfold State.PortWork State.PlainRange State.QuietMemory; decide +kernel⟩,
   ⟨ethRxS ipFrame 40, 1, 9, chan0 2 0x2A (ethIt 40 0), ethIt 40 0, ⟨ipFrame, 3 + 2 ^ 33, 77⟩, [], by unfold State.PortWork State.PlainRange State.QuietMemory; decide +kernel⟩,
   ⟨ethTxS 13 0, 1, 9, chan0 3 0x2B (ethIt 13 0), ethIt 13 0, by unfold State.PortWork; decide +kernel⟩,
   ⟨(ethTxS 60 0).setFld (F.ETH_MAXLEN_MAXLEN 1) 59, 1, 9, chan0 3 0x2B (ethIt 60 0), ethIt 60 0, by unfold State.PortWork State.PlainRange State.QuietMemory; decide +kernel⟩,
   ⟨(ethTxS 60 0).setFld (F.PAGE_CTRL_ENABLE (P.ETH 1)) 0 |>.setFld (F.PAGE_STAT_ENABLED (P.ETH 1)) 0, 1, 9, chan0 3 0x2B (ethIt 60 0), ethIt 60 0, by unfold State.PortWork; decide +kernel⟩,
   ⟨(ethTxS 60 0).setEth 1 ⟨[], 5, [], []⟩, 1, 9, chan0 3 0x2B (ethIt 60 0), ethIt 60 0, by unfold State.PortWork State.PlainRange State.QuietMemory; decide +kernel⟩,
   ⟨((ethTxS 60 0).setHch 9 (chan0 3 0x2B { ethIt 60 0 with started := true })).setEth 1 ⟨[], 0, [], ipFrame⟩, 1, 9, chan0 3 0x2B { ethIt 60 0 with started := true }, { ethIt 60 0 with started := true }, ipFrame, by unfold State.PortWork; decide +kernel⟩,
   ⟨State.reset, 1, by decide +kernel⟩,
   ⟨ethTxS 60 8, 1, 9, chan0 3 0x2B (ethIt 60 8), ethIt 60 8, by unfold State.PortWork; decide +kernel⟩,
   ⟨State.reset, 1, by decide +kernel⟩,
   ⟨State.reset, 1, by decide +kernel⟩,
   ⟨fieldS 0 0 item0, 1, ipFrame.take 59, by decide +kernel⟩,
   ⟨((fieldS 0 0 item0).setFld (F.ETH_FILTER_PROMISC 1) 1).setEth 1 ⟨[⟨List.replicate 32760 1, 3, 4⟩], 0, [], []⟩, 1, ipFrame, by decide +kernel⟩,
   ⟨(fieldS 0 0 item0).setFld (F.ETH_CFG_PAUSE_EN 1) 1, 1, List.replicate 12 2 ++ [0x88, 8, 0, 1, 1, 2] ++ List.replicate 42 0, by decide +kernel⟩⟩

/-- What the clauses of PauseMdioAndThePtpClock assume is met. -/
theorem witness_PauseMdioAndThePtpClock :
    (∃ (s : State) (n : Fin 2), s.ethHears n.val = true ∧ s.flag (F.ETH_CFG_PAUSE_EN n.val) = true) ∧
    (∃ (s : State) (q : Req), OpenTo s q (P.ETH 0)) ∧
    (∃ (s : State) (b : Nat), s.ptpRuns = true ∧ s.reedOnPtp = false ∧ s.flag F.PTPCLK_TARGET_HI_ARMED = false ∧ b = (s.ptpNow / 2 ^ 32 / 1000000000 + 1) * 1000000000 * 2 ^ 32 ∧ b + s.ptpTick < 2 ^ 48 * 1000000000 * 2 ^ 32) ∧
    (∃ (s : State), s.ptpRuns = true ∧ s.reedOnPtp = false ∧ s.flag F.PTPCLK_TARGET_HI_ARMED = true ∧ s.ptpNow < s.ptpTarget ∧ s.ptpTarget + s.ptpTick < 2 ^ 48 * 1000000000 * 2 ^ 32) ∧
    (∃ (s : State) (b : Nat), s.ptpRuns = true ∧ s.reedOnPtp = true ∧ b = (s.ptpNow / 2 ^ 32 / 1000000000 + 1) * 1000000000 * 2 ^ 32) ∧
    (∃ (s : State) (q : Req), OpenTo s q P.PTPCLK ∧ s.flag F.PTPCLK_TARGET_HI_ARMED = false) ∧
    (∃ (s : State) (q : Req) (ns : Fin 1000000000), OpenTo s q P.PTPCLK ∧ s.flag F.PTPCLK_TARGET_HI_ARMED = false ∧ s.ptpNow + ns.val * 2 ^ 32 < 2 ^ 48 * 1000000000 * 2 ^ 32) ∧
    (∃ (s : State) (q : Req) (ns : Fin 1000000000), OpenTo s q P.PTPCLK ∧ 0 < ns.val ∧ ns.val * 2 ^ 32 ≤ s.ptpNow ∧ s.ptpNow < 2 ^ 48 * 1000000000 * 2 ^ 32) ∧
    (∃ (s : State) (q : Req) (sec : BitVec 32) (ns : Fin 1000000000), OpenTo s q P.PTPCLK ∧ s.flag F.PTPCLK_TARGET_HI_ARMED = true ∧ s.ptpTarget ≤ ((s.fld F.PTPCLK_TIME_HI_SEC_HI * 2 ^ 32 + sec.toNat) * 1000000000 + ns.val) * 2 ^ 32) ∧
    (∃ (s : State), (s.ptpRuns && s.flag F.PTPCLK_TARGET_HI_ARMED) = false) ∧
    (∃ (s : State), s.ptpRuns = false) ∧
    (∃ (s : State) (n : Fin 2), (s.ethHears n.val && s.flag (F.ETH_CFG_PAUSE_EN n.val)) = false) :=
  ⟨⟨(fieldS 0 0 item0).setFld (F.ETH_CFG_PAUSE_EN 0) 1, 0, by decide +kernel⟩,
   ⟨fieldS 0 0 item0, ⟨0, true⟩, by unfold OpenTo; decide +kernel⟩,
   ⟨ptpS, 42 * 1000000000 * 2 ^ 32, by decide +kernel⟩,
   ⟨((ptpS.setFld F.PTPCLK_TARGET_HI_ARMED 1).setFld F.PTPCLK_TARGET_SEC 41).setFld F.PTPCLK_TARGET_NS 999999999, by decide +kernel⟩,
   ⟨((((ptpS.setFld F.REED_SRC_SRC 2).setFld F.REED_STATE_STATE 1).setFld F.PTPCLK_TIME_NS 999999990)), 42 * 1000000000 * 2 ^ 32, by decide +kernel⟩,
   ⟨ptpS, ⟨0, true⟩, by unfold OpenTo; decide +kernel⟩,
   ⟨ptpS, ⟨0, true⟩, 999999999, by unfold OpenTo; decide +kernel⟩,
   ⟨ptpS, ⟨0, true⟩, 999999999, by unfold OpenTo; decide +kernel⟩,
   ⟨(ptpS.setFld F.PTPCLK_TARGET_HI_ARMED 1).setFld F.PTPCLK_TARGET_SEC 41, ⟨0, true⟩, 41, 5, by unfold OpenTo; decide +kernel⟩,
   ⟨State.reset, by decide +kernel⟩,
   ⟨State.reset, by decide +kernel⟩,
   ⟨State.reset, 1, by decide +kernel⟩⟩

/-- What the clauses of UartCharactersFramesAndBreaks assume is met. -/
theorem witness_UartCharactersFramesAndBreaks :
    (∃ (s : State) (n : Fin 6) (b : Byte) (last : Bool) (rest : List UartTx), s.ioLive (P.UART n.val) = true ∧ (s.uart n.val).tx = ⟨b, last, false⟩ :: rest) ∧
    (∃ (s : State) (n : Fin 6) (b : Byte), s.ioLive (P.UART n.val) = true ∧ (s.uart n.val).tx = [⟨b, true, true⟩]) ∧
    (∃ (s : State) (n : Fin 6), s.ioLive (P.UART n.val) = true ∧ s.bankLive 2 = true ∧ s.flag (F.UART_STAT_DE n.val) = false ∧ (s.uart n.val).discard = false ∧ s.fld (F.UART_CFG_MODE n.val) = 0 ∧ s.flag (F.UART_CFG_DATA7 n.val) = false ∧ (s.uart n.val).level < 64) ∧
    (∃ (s : State) (n : Fin 6), s.ioLive (P.UART n.val) = true ∧ s.bankLive 2 = true ∧ s.flag (F.UART_STAT_DE n.val) = false ∧ (s.uart n.val).discard = false ∧ s.fld (F.UART_CFG_MODE n.val) ≠ 2 ∧ s.portItem 2 n.val = none) ∧
    (∃ (s : State) (n : Fin 6) (c : Nat) (k : HeddleChannel) (it : HeddleItem) (bs : List Byte), s.ioLive (P.UART n.val) = true ∧ s.bankLive 2 = true ∧ s.fld (F.UART_CFG_MODE n.val) = 0 ∧ s.fld (F.UART_FRAME_IDLE n.val) ≠ 0 ∧ s.PortWork 2 n.val c k it ∧ it.param = 0 ∧ (s.uart n.val).frame ≠ [] ∧ (s.uart n.val).rx = bs.map .char ∧ 0 < bs.length ∧ bs.length ≤ 64 ∧ it.done + bs.length < it.len ∧ s.PlainRange k.e.inst (it.dst + it.done) bs.length) ∧
    (∃ (s : State) (n : Fin 6), s.ioLive (P.UART n.val) = true ∧ s.portItem 2 n.val = none) ∧
    (∃ (s : State) (n : Fin 6), s.ioLive (P.UART n.val) = true ∧ (s.uart n.val).tx = []) ∧
    (∃ (s : State) (n : Fin 6), s.ioLive (P.UART n.val) = true ∧ (s.bankLive 2 = false ∨ s.flag (F.UART_STAT_DE n.val) = true ∧ s.flag (F.UART_CFG_ECHO n.val) = false)) ∧
    (∃ (s : State) (n : Fin 6), s.ioLive (P.UART n.val) = true ∧ s.bankLive 2 = true ∧ s.flag (F.UART_STAT_DE n.val) = false ∧ (s.uart n.val).discard = false ∧ s.fld (F.UART_CFG_MODE n.val) = 0 ∧ 64 ≤ (s.uart n.val).level ∧ s.portItem 2 n.val = none) ∧
    (∃ (s : State) (n : Fin 6), s.ioLive (P.UART n.val) = true ∧ s.bankLive 2 = true ∧ s.fld (F.UART_CFG_MODE n.val) = 2) ∧
    (∃ (s : State) (n : Fin 6), s.ioLive (P.UART n.val) = true ∧ s.bankLive 2 = true ∧ s.fld (F.UART_CFG_MODE n.val) = 0 ∧ s.fld (F.UART_FRAME_IDLE n.val) = 0) ∧
    (∃ (s : State) (n : Fin 6), (s.ioLive (P.UART n.val) && s.bankLive 2) = false) ∧
    (∃ (s : State) (n : Fin 6), s.ioLive (P.UART n.val) = false) :=
  ⟨⟨uartS 3 10 8 { UartPort.idle with tx := [⟨0x41#8, false, false⟩, ⟨0x42#8, true, true⟩] }, 2, 0x41, false, [⟨0x42#8, true, true⟩], by decide +kernel⟩,
   ⟨uartS 3 10 8 { UartPort.idle with tx := [⟨0x42#8, true, true⟩] }, 2, 0x42, by decide +kernel⟩,
   ⟨uartS 0 0 8 UartPort.idle, 2, by decide +kernel⟩,
   ⟨uartS 0 0 8 UartPort.idle, 2, by decide +kernel⟩,
   ⟨(uartS 2 2 8 { UartPort.idle with rx := [.char 1, .char 2, .char 3], frame := [1, 2, 3] }).setFld (F.UART_FRAME_IDLE 2) 4, 2, 9, chan0 2 2 (serIt 8 0), serIt 8 0, [1, 2, 3], by unfold State.PortWork State.PlainRange State.QuietMemory; decide +kernel⟩,
   ⟨uartS 0 0 8 { UartPort.idle with frame := [1, 2] }, 2, by decide +kernel⟩,
   ⟨uartS 0 0 8 UartPort.idle, 2, by decide +kernel⟩,
   ⟨(uartS 0 0 8 UartPort.idle).setFld F.PWR_OUT_BANK_C 0, 2, by decide +kernel⟩,
   ⟨uartS 0 0 8 { UartPort.idle with rx := List.replicate 64 (.char 5) }, 2, by decide +kernel⟩,
   ⟨(uartS 0 0 8 { UartPort.idle with discard := true }).setFld (F.UART_CFG_MODE 2) 2, 2, by decide +kernel⟩,
   ⟨(uartS 0 0 8 UartPort.idle).setFld (F.UART_FRAME_IDLE 2) 0, 2, by decide +kernel⟩,
   ⟨State.reset, 2, by decide +kernel⟩,
   ⟨State.reset, 2, by decide +kernel⟩⟩

/-- What the clauses of SpiAndI2cTransfers assume is met. -/
theorem witness_SpiAndI2cTransfers :
    (∃ (s : State) (n : Fin 2) (c : Nat) (k : HeddleChannel) (it : HeddleItem) (miso : List Byte), s.PortWork 3 (0x11 + 2 * n.val) c k it ∧ s.portItem 2 (0x10 + 2 * n.val) = none ∧ s.ioLive (P.SPI n.val) = true ∧ it.param ≤ 1 ∧ (s.spi n.val).cs = none ∧ it.done + miso.length = it.len ∧ 0 < miso.length ∧ s.PlainRange k.e.inst (it.src + it.done) miso.length) ∧
    (∃ (s : State) (n : Fin 2) (c : Nat) (k : HeddleChannel) (it : HeddleItem) (miso : List Byte), s.PortWork 3 (0x11 + 2 * n.val) c k it ∧ s.portItem 2 (0x10 + 2 * n.val) = none ∧ s.ioLive (P.SPI n.val) = true ∧ it.param % 256 = 4 ∧ it.param < 65536 ∧ (s.spi n.val).cs = none ∧ it.done + miso.length = it.len ∧ 0 < miso.length ∧ s.flag (F.SPI_CFG_LSB_FIRST n.val) = false) ∧
    (∃ (s : State) (n : Fin 2) (c : Nat) (d : Nat) (k : HeddleChannel) (l : HeddleChannel) (it : HeddleItem) (jt : HeddleItem) (miso : List Byte), s.PortWork 3 (0x11 + 2 * n.val) c k it ∧ s.PortWork 2 (0x10 + 2 * n.val) d l jt ∧ s.ioLive (P.SPI n.val) = true ∧ s.bankLive 0 = true ∧ (it.param = 2 ∨ it.param = 3) ∧ jt.param = 0 ∧ jt.done = 0 ∧ c ≠ d ∧ (s.spi n.val).cs = none ∧ s.flag (F.SPI_CFG_LSB_FIRST n.val) = false ∧ it.done + miso.length = it.len ∧ miso.length = jt.len ∧ 0 < miso.length ∧ jt.dst % 64 + miso.length ≤ 64 ∧ s.PlainRange k.e.inst (it.src + it.done) miso.length ∧ s.PlainRange l.e.inst jt.dst miso.length) ∧
    (∃ (s : State) (n : Fin 2) (c : Nat) (k : HeddleChannel) (it : HeddleItem) (x : Nat), s.flag (F.SPI_STAT_BUSY n.val) = false ∧ (s.spi n.val).cs = some x ∧ s.PortWork 2 (0x10 + 2 * n.val) c k it ∧ it.started = true) ∧
    (∃ (s : State) (n : Fin 2) (c : Nat) (k : HeddleChannel) (it : HeddleItem), s.PortWork 3 (0x15 + 2 * n.val) c k it ∧ s.portItem 2 (0x14 + 2 * n.val) = none ∧ s.ioLive (P.I2C n.val) = true ∧ s.bankLive 0 = true ∧ clearBits it.param 0xFFF = 0 ∧ (s.i2c n.val).hold = false ∧ s.PlainRange k.e.inst it.src it.len) ∧
    (∃ (s : State) (n : Fin 2) (c : Nat) (k : HeddleChannel) (it : HeddleItem) (data : List Byte), s.PortWork 2 (0x14 + 2 * n.val) c k it ∧ s.portItem 3 (0x15 + 2 * n.val) = none ∧ s.ioLive (P.I2C n.val) = true ∧ s.bankLive 0 = true ∧ clearBits it.param 0x7FF = 0 ∧ data.length = it.len ∧ 0 < it.len ∧ s.PlainRange k.e.inst it.dst it.len) ∧
    (∃ (s : State) (n : Fin 2) (c : Nat) (k : HeddleChannel) (it : HeddleItem), s.PortWork 3 (0x15 + 2 * n.val) c k it ∧ s.portItem 2 (0x14 + 2 * n.val) = none ∧ s.ioLive (P.I2C n.val) = true ∧ s.bankLive 0 = true ∧ clearBits it.param 0xFFF = 0 ∧ (s.i2c n.val).hold = false) ∧
    (∃ (s : State) (q : Req) (n : Fin 2), OpenTo s q (P.I2C n.val)) ∧
    (∃ (s : State) (n : Fin 2) (c : Nat) (k : HeddleChannel) (it : HeddleItem) (b : Nat), s.PortWork 3 (0x15 + 2 * n.val) c k it ∧ s.portItem 2 (0x14 + 2 * n.val) = none ∧ s.ioLive (P.I2C n.val) = true ∧ s.bankLive 0 = true ∧ clearBits it.param 0xFFF = 0 ∧ (s.i2c n.val).hold = false ∧ s.PlainRange k.e.inst it.src it.len ∧ b ≤ it.len) ∧
    (∃ (s : State) (n : Fin 2) (c : Nat) (k : HeddleChannel) (it : HeddleItem) (r : I2cResult), s.PortWork 3 (0x15 + 2 * n.val) c k it ∧ s.portItem 2 (0x14 + 2 * n.val) = none ∧ s.ioLive (P.I2C n.val) = true ∧ clearBits it.param 0xFFF = 0 ∧ (s.i2c n.val).hold = false ∧ (r = .stuck ∧ s.bankLive 0 = true ∨ s.bankLive 0 = false ∧ s.PlainRange k.e.inst it.src 0)) ∧
    (∃ (s : State) (n : Fin 2), (s.ioLive (P.I2C n.val) = false ∨ s.portItem 3 (0x15 + 2 * n.val) = none ∧ s.portItem 2 (0x14 + 2 * n.val) = none)) ∧
    (∃ (s : State) (n : Fin 2), (s.portItem 3 (0x11 + 2 * n.val) = none ∨ s.ioLive (P.SPI n.val) = false ∧ (s.portItem 3 (0x11 + 2 * n.val)).all (fun x => clearBits x.2.2.param 0xFF07 == 0) = true)) ∧
    (∃ (s : State) (n : Fin 2) (c : Nat) (k : HeddleChannel) (it : HeddleItem), s.PortWork 3 (0x11 + 2 * n.val) c k it ∧ clearBits it.param 0xFF07 ≠ 0) ∧
    (∃ (s : State) (n : Fin 2) (x : Nat), s.flag (F.SPI_STAT_BUSY n.val) = false ∧ (s.spi n.val).cs = some x ∧ (s.portItem 2 (0x10 + 2 * n.val)).all (fun y => ! y.2.2.started) = true) ∧
    (∃ (s : State) (n : Fin 2), (s.flag (F.SPI_STAT_BUSY n.val) = true ∨ (s.spi n.val).cs = none)) :=
  ⟨⟨(spiS 0).delHch 10, 1, 9, chan0 3 0x13 (serIt 3 1), serIt 3 1, [1, 2, 3], by unfold State.PortWork State.PlainRange State.QuietMemory; decide +kernel⟩,
   ⟨(((spiS 0).delHch 10).setHch 9 (chan0 3 0x13 (serIt 3 0x5A04))), 1, 9, chan0 3 0x13 (serIt 3 0x5A04), serIt 3 0x5A04, [1, 2, 3], by unfold State.PortWork; decide +kernel⟩,
   ⟨spiS 2, 1, 9, 10, chan0 3 0x13 (serIt 3 3), { chan0 2 0x12 (serIt 3 0) with e := { ent0 2 0x12 with cq := 6 } }, serIt 3 3, serIt 3 0, [1, 2, 3], by unfold State.PortWork State.PlainRange State.QuietMemory; decide +kernel⟩,
   ⟨spiHeld, 1, 10, heldRx, { serIt 3 0 with started := true, done := 1, bytes := 1 }, 1, by unfold State.PortWork; decide +kernel⟩,
   ⟨i2cS 3 0x15 0x850, 0, 9, chan0 3 0x15 (serIt 4 0x850), serIt 4 0x850, by unfold State.PortWork State.PlainRange State.QuietMemory; decide +kernel⟩,
   ⟨i2cS 2 0x14 0x50, 0, 9, chan0 2 0x14 (serIt 4 0x50), serIt 4 0x50, [1, 2, 3, 4], by unfold State.PortWork State.PlainRange State.QuietMemory; decide +kernel⟩,
   ⟨i2cS 3 0x15 0x50, 0, 9, chan0 3 0x15 (serIt 4 0x50), serIt 4 0x50, by unfold State.PortWork; decide +kernel⟩,
   ⟨(fieldS 0 0 item0).setFld (F.I2C_STAT_BUS_STUCK 1) 1, ⟨0, true⟩, 1, by unfold OpenTo; decide +kernel⟩,
   ⟨i2cS 3 0x15 0x50, 0, 9, chan0 3 0x15 (serIt 4 0x50), serIt 4 0x50, 2, by unfold State.PortWork State.PlainRange State.QuietMemory; decide +kernel⟩,
   ⟨i2cS 3 0x15 0x50, 0, 9, chan0 3 0x15 (serIt 4 0x50), serIt 4 0x50, .stuck, by unfold State.PortWork State.PlainRange State.QuietMemory; decide +kernel⟩,
   ⟨State.reset, 0, by decide +kernel⟩,
   ⟨State.reset, 0, by decide +kernel⟩,
   ⟨(spiS 0).setHch 9 (chan0 3 0x13 (serIt 3 8)), 1, 9, chan0 3 0x13 (serIt 3 8), serIt 3 8, by unfold State.PortWork; decide +kernel⟩,
   ⟨(spiS 0).setSpi 1 ⟨some 1, []⟩, 1, 1, by decide +kernel⟩,
   ⟨State.reset, 1, by decide +kernel⟩⟩

/-- What the clauses of AdcTriggersConversionsAndSequences assume is met. -/
theorem witness_AdcTriggersConversionsAndSequences :
    (∃ (s : State) (n : Fin 2), s.ioLive (P.ADC n.val) = true ∧ s.flag (F.ADC_TRIG_REED n.val) = true ∧ (s.adc n.val).run = none) ∧
    (∃ (s : State) (n : Fin 2), s.ioLive (P.ADC n.val) = true ∧ s.flag (F.ADC_TRIG_SHUTTLE n.val) = true ∧ (s.adc n.val).run.isSome = true ∧ (s.adc n.val).held = none) ∧
    (∃ (s : State) (n : Fin 2), s.ioLive (P.ADC n.val) = true ∧ s.flag (F.ADC_TRIG_SHUTTLE n.val) = true ∧ (s.adc n.val).run.isSome = true ∧ (s.adc n.val).held.isSome = true) ∧
    (∃ (s : State) (q : Req) (n : Fin 2), OpenTo s q (P.ADC n.val) ∧ s.ioLive (P.ADC n.val) = true ∧ s.flag (F.ADC_TRIG_SW n.val) = true ∧ (s.adc n.val).run = none) ∧
    (∃ (s : State) (n : Fin 2) (q : AdcSequence) (w : Nat), s.ioLive (P.ADC n.val) = true ∧ (s.adc n.val).run = some q ∧ q.done ≤ Bits.get q.seq 24 3 ∧ q.dead = false ∧ q.stamp = some w ∧ (s.adc n.val).fifo.length < 4096 ∧ s.flag (F.ADC_LIMIT_EN n.val) = false) ∧
    (∃ (s : State) (n : Fin 2) (q : AdcSequence), s.ioLive (P.ADC n.val) = true ∧ (s.adc n.val).run = some q ∧ q.done ≤ Bits.get q.seq 24 3 ∧ q.dead = false ∧ 4096 ≤ (s.adc n.val).fifo.length ∧ s.flag (F.ADC_LIMIT_EN n.val) = false ∧ s.portItem 4 (0x20 + n.val) = none) ∧
    (∃ (s : State) (n : Fin 2) (q : AdcSequence), s.ioLive (P.ADC n.val) = true ∧ (s.adc n.val).run = some q ∧ q.done ≤ Bits.get q.seq 24 3 ∧ q.dead = true ∧ s.flag (F.ADC_LIMIT_EN n.val) = true ∧ s.fld (F.ADC_LIMIT_INPUT n.val) = q.input ∧ s.shuttle.levels.testBit (60 + n.val) = false) ∧
    (∃ (s : State) (n : Fin 2) (q : AdcSequence) (st : Option Nat), s.ioLive (P.ADC n.val) = true ∧ (s.adc n.val).run = some q ∧ Bits.get q.seq 24 3 < q.done ∧ (s.adc n.val).held = some st) ∧
    (∃ (s : State) (n : Fin 2) (q : AdcSequence), s.ioLive (P.ADC n.val) = true ∧ (s.adc n.val).run = some q ∧ Bits.get q.seq 24 3 < q.done ∧ (s.adc n.val).held = none ∧ q.cont = false) ∧
    (∃ (s : State) (n : Fin 2) (q : AdcSequence), s.ioLive (P.ADC n.val) = true ∧ (s.adc n.val).run = some q ∧ Bits.get q.seq 24 3 < q.done ∧ (s.adc n.val).held = none ∧ q.cont = true) ∧
    (∃ (s : State) (n : Fin 2) (src : AdcSource), (s.ioLive (P.ADC n.val) = false ∨ (match src with | .reed => s.flag (F.ADC_TRIG_REED n.val) | .shuttle => s.flag (F.ADC_TRIG_SHUTTLE n.val) | .sw => s.flag (F.ADC_TRIG_SW n.val)) = false)) ∧
    (∃ (s : State) (n : Fin 2), (s.ioLive (P.ADC n.val) = false ∨ (s.adc n.val).run = none)) ∧
    (∃ (s : State) (q : Req) (n : Fin 2), OpenTo s q (P.ADC n.val)) :=
  ⟨⟨adcS AdcPort.idle, 1, by decide +kernel⟩,
   ⟨adcS { AdcPort.idle with run := some (adcQ 1) }, 1, by decide +kernel⟩,
   ⟨adcS { AdcPort.idle with run := some (adcQ 1), held := some none }, 1, by decide +kernel⟩,
   ⟨adcS AdcPort.idle, ⟨0, true⟩, 1, by unfold OpenTo; decide +kernel⟩,
   ⟨adcS { AdcPort.idle with run := some (adcQ 2) }, 1, adcQ 2, 0x12345678, by decide +kernel⟩,
   ⟨((adcS AdcPort.idle).delHch 9).setAdc 1 { AdcPort.idle with run := some (adcQ 2), fifo := List.replicate 4096 (7, none) }, 1, adcQ 2, by decide +kernel⟩,
   ⟨(((adcS { AdcPort.idle with run := some { adcQ 2 with dead := true } }).setFld (F.ADC_LIMIT_EN 1) 1).setFld (F.ADC_LIMIT_HIGH 1) 4).setFld (F.ADC_LIMIT_INPUT 1) (adcQ 2).input, 1, { adcQ 2 with dead := true }, by decide +kernel⟩,
   ⟨adcS { AdcPort.idle with run := some (adcQ 4), held := some (some 9) }, 1, adcQ 4, some 9, by decide +kernel⟩,
   ⟨adcS { AdcPort.idle with run := some (adcQ 4) }, 1, adcQ 4, by decide +kernel⟩,
   ⟨adcS { AdcPort.idle with run := some { adcQ 4 with cont := true } }, 1, { adcQ 4 with cont := true }, by decide +kernel⟩,
   ⟨State.reset, 1, .sw, by decide +kernel⟩,
   ⟨State.reset, 1, by decide +kernel⟩,
   ⟨adcS { AdcPort.idle with fifo := [(1, none)] }, ⟨0, true⟩, 1, by unfold OpenTo; decide +kernel⟩⟩

/-- What the clauses of GpioEdgesOutputsAndMoveAngle assume is met. -/
theorem witness_GpioEdgesOutputsAndMoveAngle :
    (∃ (s : State) (n : Fin 2) (c : Nat) (k : HeddleChannel) (it : HeddleItem), s.PortWork 4 (0x20 + n.val) c k it ∧ it.op = 2 ∧ it.released = false ∧ c < 4096 ∧ s.portItem 4 (0x21 - n.val) = none ∧ it.len / 2 ≤ (s.adc n.val).fifo.length ∧ s.flag F.REED_STATE_VALID = true ∧ s.reedSt = 5 ∧ s.reedClocked = true ∧ s.ReedQuiet ∧ s.reed.due = [] ∧ s.reed.combDue = [] ∧ s.reedHighest / cycleUnits = (s.reed.acc.toNat + s.fld F.REED_INC_INC) / cycleUnits ∧ crossesAngle (it.param / 65536 % 65536) (s.reed.acc.toNat / ac) ((s.reed.acc.toNat + s.fld F.REED_INC_INC) / ac) = true) ∧
    (∃ (s : State) (n : Fin 2), (s.reedSt = 0 ∨ s.reedTick.adcReleased n.val = false ∨ s.adcReleased n.val = true)) ∧
    (∃ (s : State) (n : Fin 32), s.ballLive (64 + n.val) = true ∧ s.ioLive P.GPIO = true ∧ s.shuttle.balls.testBit (64 + n.val) = false ∧ (Bits.get (s.raw (R.GPIO_IRQ_CFG (n.val / 16))) (2 * (n.val % 16)) 2).testBit 0 = true ∧ (∀ m : Fin 64, s.flag (F.SHUTTLE_CH_SEL_UNCLOCKED m.val) = false)) ∧
    (∃ (s : State) (n : Fin 32), s.ballLive (64 + n.val) = true ∧ s.shuttle.balls.testBit (64 + n.val) = true ∧ (Bits.get (s.raw (R.GPIO_IRQ_CFG (n.val / 16))) (2 * (n.val % 16)) 2).testBit 1 = false ∧ (∀ m : Fin 64, s.flag (F.SHUTTLE_CH_SEL_UNCLOCKED m.val) = false)) ∧
    (∃ (s : State) (q : Req), OpenTo s q P.GPIO) ∧
    (∃ (s : State) (n : Fin 2), ((s.portItem 4 (0x20 + n.val)).all (fun x => ! x.2.2.op.testBit 1) = true ∨ s.flag F.REED_STATE_VALID = false ∨ (s.portItem 4 (0x20 + n.val)).all (fun x => decide ((s.adc n.val).fifo.length < x.2.2.len / 2)) = true ∧ (s.portItem 4 (0x20 + n.val)).all (fun x => ! x.2.2.op.testBit 0) = true)) ∧
    (∃ (s : State) (n : Fin 32) (rising : Bool), s.shuttle.balls.testBit (64 + n.val) = rising ∧ (∀ m : Fin 64, s.flag (F.SHUTTLE_CH_SEL_UNCLOCKED m.val) = false)) ∧
    (∃ (s : State) (n : Fin 32), s.ballLive (64 + n.val) = false ∧ (∀ m : Fin 64, s.flag (F.SHUTTLE_CH_SEL_UNCLOCKED m.val) = false)) :=
  ⟨⟨(((fieldS 4 0x21 angIt).setAdc 1 { AdcPort.idle with fifo := List.replicate 4 (7, none) }).setFld F.REED_STATE_VALID 1 |> fun s => ((on s P.REED).setFld F.REED_STATE_STATE 5).setFld F.REED_SRC_SRC 3 |>.setFld F.REED_INC_INC 60000).modReed (fun r => { r with acc := 0x00001233FFFFFFF0#64, accepted := true, period := (4000000, 1) }), 1, 9, chan0 4 0x21 angIt, angIt, by unfold State.ReedQuiet State.PortWork; decide +kernel⟩,
   ⟨State.reset, 1, by decide +kernel⟩,
   ⟨((fieldS 0 0 item0).setReg (R.GPIO_IRQ_CFG 1) 0xFFFFFFFF#64).setFlag F.PWR_OUT_BANK_C true |>.setFlag F.PWR_OUT_BANK_D true, 31, by decide +kernel⟩,
   ⟨((fieldS 0 0 item0).setBall 95 true).setFlag F.PWR_OUT_BANK_D true, 31, by decide +kernel⟩,
   ⟨fieldS 0 0 item0, ⟨0, true⟩, by unfold OpenTo; decide +kernel⟩,
   ⟨((fieldS 4 0x21 { serIt 8 0 with op := 2 }).setAdc 1 { AdcPort.idle with fifo := List.replicate 3 (7, none) }).setFld F.REED_STATE_VALID 1, 1, by decide +kernel⟩,
   ⟨(fieldS 0 0 item0).setReg (R.GPIO_IRQ_CFG 1) 0xFFFFFFFF#64, 31, false, by decide +kernel⟩,
   ⟨(fieldS 0 0 item0).setFld F.PWR_OUT_BANK_D 0, 31, by decide +kernel⟩⟩

/-- What the clauses of TetherFramesCommitsAndAborts assume is met. -/
theorem witness_TetherFramesCommitsAndAborts :
    (∃ (s : State), s.tetherHears = true ∧ s.flag F.TETHER_CFG_CRC_REQ = false) ∧
    (∃ (s : State) (bits : List Bool), s.tetherHears = true ∧ 0 < bits.length ∧ bits.length < 16) ∧
    (∃ (s : State) (bits : List Bool), s.tetherHears = true ∧ 16 < bits.length ∧ bitsNum (bits.take 16) / 2 ^ 8 % 64 = 0 ∧ (bitsNum (bits.take 16)).testBit 14 = false ∧ s.flag F.TETHER_CFG_CRC_REQ = true) ∧
    (∃ (s : State) (n : Fin 8) (words : List (BitVec 32)) (crc : Byte), s.tetherHears = true ∧ 0 < words.length ∧ n.val + words.length ≤ 8 ∧ crc8 (beBytes 2 (0x4010 + n.val) ++ words.flatMap (fun w => beBytes 4 w.toNat)) = crc.toNat) ∧
    (∃ (s : State) (n : Fin 8) (words : List (BitVec 32)) (crc : Byte), s.tetherHears = true ∧ 0 < words.length ∧ words.length ≤ 16 ∧ crc8 (beBytes 2 (0x4010 + n.val) ++ words.flatMap (fun w => beBytes 4 w.toNat)) ≠ crc.toNat) ∧
    (∃ (s : State), s.tetherHears = true) ∧
    (∃ (s : State) (bits : List Bool), s.tetherHears = true ∧ 16 < bits.length ∧ bitsNum (bits.take 16) / 2 ^ 8 % 64 ≠ 0) ∧
    (∃ (s : State) (extra : List Bool), s.tetherHears = true ∧ s.flag F.TETHER_CFG_CRC_REQ = false ∧ 0 < extra.length ∧ extra.length < 32) ∧
    (∃ (s : State) (words : List (BitVec 32)), s.tetherHears = true ∧ (words = [] ∨ 16 < words.length)) ∧
    (∃ (s : State), s.tetherHears = false) :=
  ⟨⟨tethS (fun t => { t with raised := 77, raisedSat := true }), by decide +kernel⟩,
   ⟨tethS id, [true, false, true], by decide +kernel⟩,
   ⟨(tethS id).setFld F.TETHER_CFG_CRC_REQ 1, numBits 16 0x10 ++ numBits 32 5, by decide +kernel⟩,
   ⟨tethS id, 6, [0xDEADBEEF#32, 0x12345678#32], BitVec.ofNat 8 (crc8 (beBytes 2 0x4016 ++ beBytes 4 0xDEADBEEF ++ beBytes 4 0x12345678)), by decide +kernel⟩,
   ⟨tethS id, 6, [0xDEADBEEF#32], BitVec.ofNat 8 (crc8 (beBytes 2 0x4016 ++ beBytes 4 0xDEADBEEF) + 1), by decide +kernel⟩,
   ⟨(tethS id).setFld F.TETHER_ABORT_COUNT_COUNT 0xFFFF, by decide +kernel⟩,
   ⟨tethS id, numBits 16 0x8100 ++ numBits 32 5, by decide +kernel⟩,
   ⟨tethS id, [true, false], by decide +kernel⟩,
   ⟨tethS id, List.replicate 17 7#32, by decide +kernel⟩,
   ⟨(tethS id).setFld F.PWR_OUT_BANK_A 0, by decide +kernel⟩⟩

/-- What the clauses of TetherLiveAccessesNoticesAndWatchdog assume is met. -/
theorem witness_TetherLiveAccessesNoticesAndWatchdog :
    (∃ (s : State), s.tetherHears = true ∧ s.tether.queue = [] ∧ s.flag F.TETHER_CFG_LIVE_EN = true ∧ (s.fld F.TETHER_REQ_REQ).testBit 2 = false) ∧
    (∃ (s : State), s.tetherHears = true ∧ s.tether.queue = [] ∧ s.flag F.TETHER_CFG_LIVE_EN = false) ∧
    (∃ (s : State), s.tetherHears = true ∧ s.tether.queue.length < 4 ∧ 0 < s.tether.queue.length) ∧
    (∃ (s : State), s.tetherHears = true ∧ 4 ≤ s.tether.queue.length) ∧
    (∃ (s : State) (n : Fin 16) (rest : List LiveAccess), s.tether.queue = ⟨R.PWR_RETAIN n.val, false, 0#32⟩ :: rest ∧ s.flag F.TETHER_CFG_LIVE_EN = true ∧ s.fabricRuns = true) ∧
    (∃ (s : State) (n : Fin 16) (v : BitVec 32), s.tether.queue = [⟨R.PWR_RETAIN n.val, true, v⟩] ∧ s.flag F.TETHER_CFG_LIVE_EN = true ∧ s.fabricRuns = true ∧ s.resetting P.PWR = false) ∧
    (∃ (s : State) (v : BitVec 16), s.tetherHears = true ∧ v ≠ 0#16 ∧ v.getLsbD 2 = false) ∧
    (∃ (s : State) (q : Req) (v : BitVec 16), OpenTo s q P.TETHER ∧ v &&& 0xFE#16 = 0#16) ∧
    (∃ (s : State), s.tetherHears = true ∧ s.flag F.TETHER_PWDG_EN = true) ∧
    (∃ (s : State) (v : BitVec 32), s.tetherHears = true ∧ v ≠ 0x7A7A#32) ∧
    (∃ (s : State), s.pwdgCounts = true ∧ s.flag F.TETHER_PWDG_ACTION = false) ∧
    (∃ (s : State), s.pwdgCounts = false) ∧
    (∃ (s : State), s.tetherHears = true ∧ s.flag F.TETHER_PWDG_EN = false) ∧
    (∃ (s : State), s.tetherHears = true ∧ s.tether.queue = [] ∧ s.flag F.TETHER_CFG_LIVE_EN = true ∧ inBaseCamp s.tether.liveAddr = true ∧ (s.fld F.TETHER_REQ_REQ).testBit 2 = true) ∧
    (∃ (s : State), s.tether.queue = []) ∧
    (∃ (s : State), s.tetherHears = true) ∧
    (∃ (s : State), s.tetherHears = false) :=
  ⟨⟨tethS id, by decide +kernel⟩,
   ⟨State.reset.setFld F.TETHER_CFG_LIVE_EN 0, by decide +kernel⟩,
   ⟨tethS (fun t => { t with queue := [⟨4, true, 5⟩], liveAddr := 0xFFFFFFFFFC }), by decide +kernel⟩,
   ⟨tethS (fun t => { t with queue := List.replicate 4 ⟨4, true, 5⟩ }), by decide +kernel⟩,
   ⟨(tethS (fun t => { t with queue := [⟨R.PWR_RETAIN 7, false, 0⟩] })).setFld (F.PWR_RETAIN_DATA 7) 0xCAFE, 7, [], by decide +kernel⟩,
   ⟨tethS (fun t => { t with queue := [⟨R.PWR_RETAIN 7, true, 0xCAFE⟩] }), 7, 0xCAFE, by decide +kernel⟩,
   ⟨(tethS id).setFld F.TETHER_REQ_REQ 0x101, 0xFFFB, by decide +kernel⟩,
   ⟨(tethS id).setFld F.TETHER_ATTN_ATTN 0x101, ⟨0, true⟩, 0xFF01, by unfold OpenTo; decide +kernel⟩,
   ⟨((tethS id).setFld F.TETHER_PWDG_EN 1).setFld F.TETHER_PWDG_TIMEOUT 500, by decide +kernel⟩,
   ⟨(tethS id).setFld F.TETHER_PWDG_STAT_BAD 255, 0x10007A7A, by decide +kernel⟩,
   ⟨((tethS id).setFld F.TETHER_PWDG_EN 1).setFld F.TETHER_PWDG_STAT_LEFT 5, by decide +kernel⟩,
   ⟨tethS id, by decide +kernel⟩,
   ⟨tethS id, by decide +kernel⟩,
   ⟨(tethS (fun t => { t with liveAddr := 0x01000000 })).setFld F.TETHER_REQ_REQ 4, by decide +kernel⟩,
   ⟨tethS id, by decide +kernel⟩,
   ⟨tethS id, by decide +kernel⟩,
   ⟨(tethS id).setFld F.PWR_OUT_BANK_A 0, by decide +kernel⟩⟩

/-- What the clauses of OtpReadsProgramsAndChecks assume is met. -/
theorem witness_OtpReadsProgramsAndChecks :
    (∃ (s : State) (q : Req), OpenTo s q P.KEYS ∧ s.running P.KEYS = true ∧ s.flag F.KEYS_OTP_CTRL_BUSY = false ∧ s.flag F.KEYS_SLOT_STAT_BUSY = false) ∧
    (∃ (s : State) (q : Req), OpenTo s q P.KEYS ∧ s.flag F.KEYS_OTP_CTRL_BUSY = true) ∧
    (∃ (s : State) (q : Req) (addr : BitVec 8), OpenTo s q P.KEYS ∧ s.running P.KEYS = true ∧ s.flag F.KEYS_OTP_CTRL_BUSY = false ∧ s.flag F.KEYS_SLOT_STAT_BUSY = false ∧ s.otpRefusal addr.toNat (s.fld F.KEYS_OTP_DATA_DATA) = none) ∧
    (∃ (s : State) (q : Req) (addr : BitVec 8) (r : Nat), OpenTo s q P.KEYS ∧ s.running P.KEYS = true ∧ s.flag F.KEYS_OTP_CTRL_BUSY = false ∧ s.flag F.KEYS_SLOT_STAT_BUSY = false ∧ s.otpRefusal addr.toNat (s.fld F.KEYS_OTP_DATA_DATA) = some r) ∧
    (∃ (s : State) (q : Req) (addr : BitVec 8) (cut : BitVec 32) (m : BitVec 32), OpenTo s q P.KEYS ∧ s.running P.KEYS = true ∧ s.flag F.KEYS_OTP_CTRL_BUSY = false ∧ s.flag F.KEYS_SLOT_STAT_BUSY = false ∧ s.otpRefusal addr.toNat (s.fld F.KEYS_OTP_DATA_DATA) = none ∧ otpChecked addr.toNat = true ∧ m = BitVec.ofNat 32 (s.fld F.KEYS_OTP_DATA_DATA) &&& cut ∧ ¬ (5 ≤ addr.toNat ∧ addr.toNat ≤ 7)) ∧
    (∃ (s : State) (q : Req), OpenTo s q P.KEYS ∧ (s.flag F.KEYS_OTP_CTRL_BUSY || s.flag F.KEYS_SLOT_STAT_BUSY) = true) ∧
    (∃ (s : State) (q : Req), OpenTo s q P.KEYS ∧ s.flag F.KEYS_OTP_CTRL_BUSY = false ∧ s.flag F.KEYS_SLOT_STAT_BUSY = false ∧ s.running P.KEYS = false) :=
  ⟨⟨keysS, ⟨0, true⟩, by unfold OpenTo; decide +kernel⟩,
   ⟨keysS.setFld F.KEYS_OTP_CTRL_BUSY 1, ⟨0, true⟩, by unfold OpenTo; decide +kernel⟩,
   ⟨keysS.setFld F.KEYS_OTP_DATA_DATA 0x80000001, ⟨0, true⟩, 21, by unfold OpenTo; decide +kernel⟩,
   ⟨keysS, ⟨0, true⟩, 20, 8, by unfold OpenTo; decide +kernel⟩,
   ⟨keysS.setFld F.KEYS_OTP_DATA_DATA 0x80000003, ⟨0, true⟩, 21, 0x80000001, 0x80000001, by unfold OpenTo; decide +kernel⟩,
   ⟨keysS.setFld F.KEYS_SLOT_STAT_BUSY 1, ⟨0, true⟩, by unfold OpenTo; decide +kernel⟩,
   ⟨keysOff, ⟨0, true⟩, by unfold OpenTo; decide +kernel⟩⟩

/-- What the clauses of KeySlotsAndTheTrng assume is met. -/
theorem witness_KeySlotsAndTheTrng :
    (∃ (s : State) (q : Req) (slot : Fin 16), OpenTo s q P.KEYS ∧ s.slotRefusal 1 slot.val 0 = none) ∧
    (∃ (s : State) (q : Req) (slot : Fin 16) (r : Nat), OpenTo s q P.KEYS ∧ s.slotRefusal 1 slot.val 0 = some r) ∧
    (∃ (s : State) (q : Req) (slot : Fin 16) (x : KeySlot), OpenTo s q P.KEYS ∧ s.slotRefusal 2 slot.val 0 = none ∧ s.slot slot.val = some x) ∧
    (∃ (s : State) (q : Req) (slot : Fin 16), OpenTo s q P.KEYS ∧ s.slotRefusal 3 slot.val 0 = none) ∧
    (∃ (s : State) (q : Req) (slot : Fin 16) (src : Fin 16) (x : KeySlot), OpenTo s q P.KEYS ∧ s.slotRefusal 4 slot.val src.val = none ∧ s.slot src.val = some x) ∧
    (∃ (s : State) (q : Req) (slot : Fin 16), OpenTo s q P.KEYS ∧ s.slotRefusal 4 slot.val 16 = none) ∧
    (∃ (s : State) (q : Req) (slot : Fin 16) (b0 : BitVec 128) (b1 : BitVec 128) (rest : List (BitVec 128)), OpenTo s q P.KEYS ∧ s.slotRefusal 5 slot.val 0 = none ∧ s.sec.quarters = 0 ∧ s.sec.queue = b0 :: b1 :: rest) ∧
    (∃ (s : State), s.fld F.TRNG_STAT_STATE = 1 ∧ s.screeActs = false) ∧
    (∃ (s : State), s.fld F.TRNG_STAT_STATE ≠ 0 ∧ s.fld F.TRNG_STAT_STATE ≠ 4 ∧ s.sec.failures.length ≤ 1 ∧ s.sec.waiting = []) ∧
    (∃ (s : State) (ms : Nat) (a : Nat) (b : Nat), s.fld F.TRNG_STAT_STATE ≠ 0 ∧ s.fld F.TRNG_STAT_STATE ≠ 4 ∧ s.sec.failures = [a, b] ∧ b + ms ≤ 1000 ∧ s.sec.waiting = [] ∧ s.belay.test = none ∧ s.flag F.BELAY_LOG_CTRL_EN = false ∧ s.fld (F.BELAY_REACT_REACT 22) = 0) ∧
    (∃ (s : State) (ms : Nat), s.fld F.TRNG_STAT_STATE = 2 ∧ s.sec.queue.length ≤ 48 ∧ s.sec.requests < s.fld F.TRNG_RESEED_REQUESTS ∧ ms < s.fld F.TRNG_RESEED_PERIOD ∧ s.flag F.TRNG_CFG_PR = false ∧ s.sec.waiting = []) ∧
    (∃ (s : State) (b : BitVec 128) (rest : List (BitVec 128)), s.fld F.TRNG_STAT_STATE = 2 ∧ s.running P.TRNG = true ∧ s.sec.queue = b :: rest ∧ s.sec.quarters < 3) ∧
    (∃ (s : State), (s.fld F.TRNG_STAT_STATE ≠ 2 ∨ s.sec.queue = [])) ∧
    (∃ (s : State) (q : Req) (slot : Fin 16) (r : Nat), OpenTo s q P.KEYS ∧ s.slotRefusal 2 slot.val 0 = some r) ∧
    (∃ (s : State) (q : Req) (slot : Fin 16) (r : Nat), OpenTo s q P.KEYS ∧ s.slotRefusal 3 slot.val 0 = some r) ∧
    (∃ (s : State) (q : Req) (slot : Fin 16) (src : Fin 17) (r : Nat), OpenTo s q P.KEYS ∧ s.slotRefusal 4 slot.val src.val = some r) ∧
    (∃ (s : State) (q : Req) (slot : Fin 16) (r : Nat), OpenTo s q P.KEYS ∧ s.slotRefusal 5 slot.val 0 = some r) ∧
    (∃ (s : State) (b : BitVec 128) (rest : List (BitVec 128)), s.fld F.TRNG_STAT_STATE = 2 ∧ s.running P.TRNG = true ∧ s.sec.queue = b :: rest ∧ s.sec.quarters = 3) ∧
    (∃ (s : State), s.fld F.TRNG_STAT_STATE ≠ 1 ∧ s.fld F.TRNG_STAT_STATE ≠ 3) ∧
    (∃ (s : State), s.fld F.TRNG_STAT_STATE = 3 ∧ s.screeActs = false) ∧
    (∃ (s : State), (s.fld F.TRNG_STAT_STATE = 0 ∨ s.fld F.TRNG_STAT_STATE = 4)) ∧
    (∃ (s : State) (ms : Nat), s.fld F.TRNG_STAT_STATE = 2 ∧ s.sec.queue.length ≤ 48 ∧ (s.fld F.TRNG_RESEED_REQUESTS ≤ s.sec.requests ∨ s.fld F.TRNG_RESEED_PERIOD ≤ ms ∨ s.flag F.TRNG_CFG_PR = true) ∧ s.sec.waiting = []) ∧
    (∃ (s : State), (s.fld F.TRNG_STAT_STATE ≠ 2 ∨ 48 < s.sec.queue.length)) :=
  ⟨⟨keysS.setFld (F.KEYS_SLOT_DATA_DATA 7) 0xDEADBEEF, ⟨0, true⟩, 15, by unfold OpenTo; decide +kernel⟩,
   ⟨keysS.setFld F.PITON_KEY_RLOCK_RLOCK 0x8000, ⟨0, true⟩, 15, 2, by unfold OpenTo; decide +kernel⟩,
   ⟨keysS, ⟨0, true⟩, 3, ⟨BitVec.ofNat 256 (leNat key32), 15⟩, by unfold OpenTo; decide +kernel⟩,
   ⟨keysS, ⟨0, true⟩, 3, by unfold OpenTo; decide +kernel⟩,
   ⟨keysS, ⟨0, true⟩, 9, 3, ⟨BitVec.ofNat 256 (leNat key32), 15⟩, by unfold OpenTo; decide +kernel⟩,
   ⟨keysS, ⟨0, true⟩, 9, by unfold OpenTo; decide +kernel⟩,
   ⟨keysS.setFld F.TRNG_STAT_STATE 2, ⟨0, true⟩, 9, 1, 2, [3, 4], by unfold OpenTo; decide +kernel⟩,
   ⟨keysS.setFld F.TRNG_STAT_STATE 1, by decide +kernel⟩,
   ⟨keysS.setFld F.TRNG_STAT_STATE 2, by decide +kernel⟩,
   ⟨(belayQuiet keysS).setFld F.TRNG_STAT_STATE 2 |> fun s => { s with sec := { s.sec with failures := [10, 900] } }, 100, 10, 900, by decide +kernel⟩,
   ⟨keysS.setFld F.TRNG_STAT_STATE 2, 0, by decide +kernel⟩,
   ⟨keysS.setFld F.TRNG_STAT_STATE 2, 1, [2, 3, 4], by decide +kernel⟩,
   ⟨keysS.setFld F.TRNG_STAT_STATE 1, by decide +kernel⟩,
   ⟨keysS, ⟨0, true⟩, 4, 3, by unfold OpenTo; decide +kernel⟩,
   ⟨keysS.setFld F.PITON_KEY_ULOCK_ULOCK 8, ⟨0, true⟩, 3, 2, by unfold OpenTo; decide +kernel⟩,
   ⟨keysS, ⟨0, true⟩, 9, 5, 3, by unfold OpenTo; decide +kernel⟩,
   ⟨keysS, ⟨0, true⟩, 9, 5, by unfold OpenTo; decide +kernel⟩,
   ⟨lastQuarter, 1, [2, 3, 4], by decide +kernel⟩,
   ⟨keysS, by decide +kernel⟩,
   ⟨keysS.setFld F.TRNG_STAT_STATE 3, by decide +kernel⟩,
   ⟨keysS, by decide +kernel⟩,
   ⟨keysS.setFld F.TRNG_STAT_STATE 2, 1000000000, by decide +kernel⟩,
   ⟨keysS, by decide +kernel⟩⟩

/-- What the clauses of AesAndHashItems assume is met. -/
theorem witness_AesAndHashItems :
    (∃ (s : State) (ch : BitVec 12) (k : HeddleChannel) (it : HeddleItem) (key : List Byte) (out : List Byte), s.CryptoWork ch.toNat k it 0x80 0 it.len ∧ it.param = 0 ∧ s.fld (F.AES_CTX_CFG_MODE k.e.ectx) = 0 ∧ s.aesCheck k it = none ∧ s.slot (k.e.ctx % 16) ≠ none ∧ (s.engineKey (k.e.ctx % 16) 0).toOption = some key ∧ (Aes.blocks (s.bytesAt it.src it.len)).flatMap (Aes.encryptBlock (Aes.roundKeys (if s.flag (F.AES_CTX_CFG_KEY256 k.e.ectx) then key else key.take 16))) = out ∧ 0 < out.length ∧ out.length ≤ it.len) ∧
    (∃ (s : State) (ch : BitVec 12) (k : HeddleChannel) (it : HeddleItem) (key : List Byte) (out : List Byte), s.CryptoWork ch.toNat k it 0x80 1 it.len ∧ it.param = 0 ∧ s.fld (F.AES_CTX_CFG_MODE k.e.ectx) = 0 ∧ s.aesCheck k it = none ∧ s.slot (k.e.ctx % 16) ≠ none ∧ (s.engineKey (k.e.ctx % 16) 0).toOption = some key ∧ (Aes.blocks (s.bytesAt it.src it.len)).flatMap (Aes.decryptBlock (Aes.roundKeys (if s.flag (F.AES_CTX_CFG_KEY256 k.e.ectx) then key else key.take 16))) = out ∧ 0 < out.length ∧ out.length ≤ it.len) ∧
    (∃ (s : State) (ch : BitVec 12) (k : HeddleChannel) (it : HeddleItem) (key : List Byte) (out : List Byte) (iv : List Byte), s.CryptoWork ch.toNat k it 0x80 0 it.len ∧ it.param = 0 ∧ s.fld (F.AES_CTX_CFG_MODE k.e.ectx) = 1 ∧ s.aesCheck k it = none ∧ (s.engineKey (k.e.ctx % 16) 0).toOption = some key ∧ Aes.cbcEncrypt (Aes.roundKeys (if s.flag (F.AES_CTX_CFG_KEY256 k.e.ectx) then key else key.take 16)) (s.aesIv k.e.ectx) (s.bytesAt it.src it.len) = (out, iv) ∧ 0 < out.length ∧ out.length ≤ it.len ∧ s.flag (F.AES_CTX_CFG_IVGEN k.e.ectx) = false) ∧
    (∃ (s : State) (ch : BitVec 12) (k : HeddleChannel) (it : HeddleItem) (key : List Byte), s.CryptoWork ch.toNat k it 0x80 1 it.len ∧ it.param = 0 ∧ s.fld (F.AES_CTX_CFG_MODE k.e.ectx) = 3 ∧ s.aesCheck k it = none ∧ (s.engineKey (k.e.ctx % 16) 0).toOption = some key ∧ Gcm.tag (Aes.roundKeys (if s.flag (F.AES_CTX_CFG_KEY256 k.e.ectx) then key else key.take 16)) ((s.aesIv k.e.ectx).take 12) [] (s.bytesAt it.src (it.len - 16)) ≠ s.bytesAt (it.src + (it.len - 16)) 16 ∧ 16 ≤ it.len) ∧
    (∃ (s : State) (ch : BitVec 12) (k : HeddleChannel) (it : HeddleItem), s.CryptoWork ch.toNat k it 0x80 0 it.len ∧ it.param = 0 ∧ s.slot (k.e.ctx % 16) = none) ∧
    (∃ (s : State) (ch : BitVec 12) (k : HeddleChannel) (it : HeddleItem) (key : List Byte) (tag : List Byte), s.CryptoWork ch.toNat k it 0x80 2 16 ∧ it.param = 0 ∧ s.fld (F.AES_CTX_CFG_MODE k.e.ectx) = 4 ∧ s.aesCheck k it = none ∧ (s.engineKey (k.e.ctx % 16) 0).toOption = some key ∧ Aes.cmac (Aes.roundKeys (if s.flag (F.AES_CTX_CFG_KEY256 k.e.ectx) then key else key.take 16)) (s.bytesAt it.src it.len) = tag ∧ 0 < tag.length ∧ tag.length ≤ 16) ∧
    (∃ (s : State) (ch : BitVec 12) (k : HeddleChannel) (it : HeddleItem) (h : HashChain), s.CryptoWork ch.toNat k it 0x81 0 it.len ∧ it.param = 0 ∧ k.e.ctx / 128 = 0 ∧ s.flag (F.HASH_CTX_CFG_HMAC k.e.ectx) = false ∧ s.fld (F.HASH_CTX_CFG_ALG k.e.ectx) = 0 ∧ it.len % 64 = 0 ∧ AMap.get? s.sec.hash k.e.ectx = some h ∧ s.fld (F.HASH_CTX_LEN_BYTES k.e.ectx) + it.len < 2 ^ 64) ∧
    (∃ (s : State) (ch : BitVec 12) (k : HeddleChannel) (it : HeddleItem) (h : HashChain) (d : List Byte), s.CryptoWork ch.toNat k it 0x81 1 64 ∧ it.param = 0 ∧ k.e.ctx / 128 = 0 ∧ s.flag (F.HASH_CTX_CFG_HMAC k.e.ectx) = false ∧ AMap.get? s.sec.hash k.e.ectx = some h ∧ s.hashFinish k.e.ectx [] (s.bytesAt it.src it.len) h = d ∧ 0 < d.length ∧ d.length ≤ 64) ∧
    (∃ (s : State) (ch : BitVec 12) (k : HeddleChannel) (it : HeddleItem), s.CryptoWork ch.toNat k it 0x81 2 32 ∧ it.param = 0 ∧ k.e.ctx / 128 = 0 ∧ s.flag (F.HASH_CTX_CFG_HMAC k.e.ectx) = false ∧ s.fld (F.HASH_CTX_CFG_ALG k.e.ectx) = 0) ∧
    (∃ (s : State) (ch : BitVec 12) (k : HeddleChannel) (it : HeddleItem), s.itemOf ch.toNat 6 = some (k, it) ∧ k.e.port = 0x80 ∧ it.op < 3 ∧ (s.running P.AES && ! s.resetting P.AES) = false) ∧
    (∃ (s : State) (ch : BitVec 12) (k : HeddleChannel) (it : HeddleItem), s.itemOf ch.toNat 6 = some (k, it) ∧ k.e.port = 0x80 ∧ it.op < 3 ∧ (s.running P.AES && ! s.resetting P.AES) = true ∧ s.flag Engine.aes.katBusy = true) ∧
    (∃ (s : State) (ch : BitVec 12) (k : HeddleChannel) (it : HeddleItem), s.itemOf ch.toNat 6 = some (k, it) ∧ k.e.port = 0x80 ∧ it.op < 3 ∧ (s.running P.AES && ! s.resetting P.AES) = true ∧ s.flag Engine.aes.katBusy = false ∧ s.flag Engine.aes.katFail = true) ∧
    (∃ (s : State) (ch : BitVec 12) (k : HeddleChannel) (it : HeddleItem), s.itemOf ch.toNat 6 = some (k, it) ∧ k.e.port = 0x80 ∧ it.op < 3 ∧ (s.running P.AES && ! s.resetting P.AES) = true ∧ s.flag Engine.aes.katBusy = false ∧ s.flag Engine.aes.katFail = false ∧ 65536 ≤ it.param) ∧
    (∃ (s : State) (ch : BitVec 12), (s.itemOf ch.toNat 6).all (fun x => x.1.e.port != 0x80) = true) ∧
    (∃ (s : State) (ch : BitVec 12) (k : HeddleChannel) (it : HeddleItem), s.itemOf ch.toNat 6 = some (k, it) ∧ k.e.port = 0x81 ∧ it.op < 3 ∧ (s.running P.HASH && ! s.resetting P.HASH) = false) ∧
    (∃ (s : State) (ch : BitVec 12) (k : HeddleChannel) (it : HeddleItem), s.itemOf ch.toNat 6 = some (k, it) ∧ k.e.port = 0x81 ∧ it.op < 3 ∧ (s.running P.HASH && ! s.resetting P.HASH) = true ∧ s.flag Engine.hash.katBusy = true) ∧
    (∃ (s : State) (ch : BitVec 12) (k : HeddleChannel) (it : HeddleItem), s.itemOf ch.toNat 6 = some (k, it) ∧ k.e.port = 0x81 ∧ it.op < 3 ∧ (s.running P.HASH && ! s.resetting P.HASH) = true ∧ s.flag Engine.hash.katBusy = false ∧ s.flag Engine.hash.katFail = true) ∧
    (∃ (s : State) (ch : BitVec 12) (k : HeddleChannel) (it : HeddleItem), s.itemOf ch.toNat 6 = some (k, it) ∧ k.e.port = 0x81 ∧ it.op < 3 ∧ (s.running P.HASH && ! s.resetting P.HASH) = true ∧ s.flag Engine.hash.katBusy = false ∧ s.flag Engine.hash.katFail = false ∧ it.param ≠ 0) ∧
    (∃ (s : State) (ch : BitVec 12), (s.itemOf ch.toNat 6).all (fun x => x.1.e.port != 0x81) = true) :=
  ⟨⟨crA 0 (crIt 0 16 0), 9, crK 0x80 0x13 (crIt 0 16 0), crIt 0 16 0, key32, _, by unfold State.CryptoWork State.PlainRange State.QuietMemory; decide +kernel, by decide +kernel, by decide +kernel, by decide +kernel, by decide +kernel, by decide +kernel, rfl, by decide +kernel, by decide +kernel⟩,
   ⟨crA 0 (crIt 1 16 0), 9, crK 0x80 0x13 (crIt 1 16 0), crIt 1 16 0, key32, _, by unfold State.CryptoWork State.PlainRange State.QuietMemory; decide +kernel, by decide +kernel, by decide +kernel, by decide +kernel, by decide +kernel, by decide +kernel, rfl, by decide +kernel, by decide +kernel⟩,
   ⟨(crA 1 (crIt 0 16 0)).setFld (F.AES_CTX_STATE_CHAIN_VALID 1) 1, 9, crK 0x80 0x13 (crIt 0 16 0), crIt 0 16 0, key32, _, _, by unfold State.CryptoWork State.PlainRange State.QuietMemory; decide +kernel, by decide +kernel, by decide +kernel, by decide +kernel, by decide +kernel, rfl, by decide +kernel, by decide +kernel, by decide +kernel⟩,
   ⟨(crA 3 (crIt 1 16 0)).setFld (F.AES_CTX_STATE_CHAIN_VALID 1) 1, 9, crK 0x80 0x13 (crIt 1 16 0), crIt 1 16 0, key32, by unfold State.CryptoWork State.PlainRange State.QuietMemory; decide +kernel⟩,
   ⟨crS 0x80 0x14 (crIt 0 16 0), 9, crK 0x80 0x14 (crIt 0 16 0), crIt 0 16 0, by unfold State.CryptoWork State.PlainRange State.QuietMemory; decide +kernel⟩,
   ⟨crA 4 (crIt 2 16 0), 9, crK 0x80 0x13 (crIt 2 16 0), crIt 2 16 0, key32, _, by unfold State.CryptoWork State.PlainRange State.QuietMemory; decide +kernel, by decide +kernel, by decide +kernel, by decide +kernel, by decide +kernel, rfl, by decide +kernel, by decide +kernel⟩,
   ⟨hashOn (crS 0x81 0x13 (crIt 0 64 0)), 9, crK 0x81 0x13 (crIt 0 64 0), crIt 0 64 0, ⟨(Sha.alg 0).2.1, 0⟩, by unfold State.CryptoWork State.PlainRange State.QuietMemory; decide +kernel⟩,
   ⟨hashOn (crS 0x81 0x13 (crIt 1 20 0)), 9, crK 0x81 0x13 (crIt 1 20 0), crIt 1 20 0, ⟨(Sha.alg 0).2.1, 0⟩, _, by unfold State.CryptoWork State.PlainRange State.QuietMemory; decide +kernel, by decide +kernel, by decide +kernel, by decide +kernel, by decide +kernel, rfl, by decide +kernel, by decide +kernel⟩,
   ⟨crS 0x81 0x13 (crIt 2 20 0), 9, crK 0x81 0x13 (crIt 2 20 0), crIt 2 20 0, by unfold State.CryptoWork State.PlainRange State.QuietMemory; decide +kernel⟩,
   ⟨(crS 0x80 0x03 (crIt 1 16 0)).setReg (R.PAGE_CTRL P.AES) 0#64 |>.setReg (R.PAGE_STAT P.AES) 0#64, 9, crK 0x80 0x03 (crIt 1 16 0), crIt 1 16 0, by decide +kernel⟩,
   ⟨(crS 0x80 0x03 (crIt 1 16 0)).setFld F.AES_KAT_BUSY 1, 9, crK 0x80 0x03 (crIt 1 16 0), crIt 1 16 0, by decide +kernel⟩,
   ⟨(crS 0x80 0x03 (crIt 1 16 0)).setFld F.AES_KAT_FAIL 1, 9, crK 0x80 0x03 (crIt 1 16 0), crIt 1 16 0, by decide +kernel⟩,
   ⟨crS 0x80 0x03 (crIt 1 16 65536), 9, crK 0x80 0x03 (crIt 1 16 65536), crIt 1 16 65536, by decide +kernel⟩,
   ⟨State.reset, 9, by decide +kernel⟩,
   ⟨(crS 0x81 0x03 (crIt 1 20 0)).setReg (R.PAGE_CTRL P.HASH) 0#64 |>.setReg (R.PAGE_STAT P.HASH) 0#64, 9, crK 0x81 0x03 (crIt 1 20 0), crIt 1 20 0, by decide +kernel⟩,
   ⟨(crS 0x81 0x03 (crIt 1 20 0)).setFld F.HASH_KAT_BUSY 1, 9, crK 0x81 0x03 (crIt 1 20 0), crIt 1 20 0, by decide +kernel⟩,
   ⟨(crS 0x81 0x03 (crIt 1 20 0)).setFld F.HASH_KAT_FAIL 1, 9, crK 0x81 0x03 (crIt 1 20 0), crIt 1 20 0, by decide +kernel⟩,
   ⟨crS 0x81 0x03 (crIt 1 20 1), 9, crK 0x81 0x03 (crIt 1 20 1), crIt 1 20 1, by decide +kernel⟩,
   ⟨State.reset, 9, by decide +kernel⟩⟩

/-- What the clauses of PkaItemsCommandsAndSelfTests assume is met. -/
theorem witness_PkaItemsCommandsAndSelfTests :
    (∃ (s : State) (ch : BitVec 12) (k : HeddleChannel) (it : HeddleItem) (j : PkaJob) (key : List Byte), s.CryptoWork ch.toNat k it 0x82 0 144 ∧ it.param ≤ 1 ∧ s.pkaTaken = false ∧ s.sec.waiting = [] ∧ j = ⟨0, it.param.testBit 0, if k.e.ctx.testBit 7 then some (k.e.ctx % 16) else none, s.bytesAt it.src it.len⟩ ∧ j.shapeOk it.len = true ∧ 0 < it.len ∧ (s.pkaKey j).toOption = some key ∧ s.fld F.TRNG_STAT_STATE = 2 ∧ s.sec.quarters = 0 ∧ (if it.param.testBit 0 then 4 else 3) ≤ s.sec.queue.length) ∧
    (∃ (s : State) (ch : BitVec 12) (k : HeddleChannel) (it : HeddleItem) (j : PkaJob) (key : List Byte), s.CryptoWork ch.toNat k it 0x82 1 144 ∧ it.param ≤ 1 ∧ s.pkaTaken = false ∧ s.sec.waiting = [] ∧ j = ⟨1, it.param.testBit 0, if k.e.ctx.testBit 7 then some (k.e.ctx % 16) else none, s.bytesAt it.src it.len⟩ ∧ j.shapeOk it.len = true ∧ 0 < it.len ∧ (s.pkaKey j).toOption = some key) ∧
    (∃ (s : State) (ch : BitVec 12) (k : HeddleChannel) (it : HeddleItem) (j : PkaJob) (key : List Byte), s.CryptoWork ch.toNat k it 0x82 2 144 ∧ it.param ≤ 1 ∧ s.pkaTaken = false ∧ s.sec.waiting = [] ∧ j = ⟨2, it.param.testBit 0, if k.e.ctx.testBit 7 then some (k.e.ctx % 16) else none, s.bytesAt it.src it.len⟩ ∧ j.shapeOk it.len = true ∧ 0 < it.len ∧ (s.pkaKey j).toOption = some key) ∧
    (∃ (s : State) (ch : BitVec 12) (k : HeddleChannel) (it : HeddleItem) (j : PkaJob) (key : List Byte), s.CryptoWork ch.toNat k it 0x82 3 144 ∧ it.param ≤ 1 ∧ s.pkaTaken = false ∧ s.sec.waiting = [] ∧ j = ⟨3, it.param.testBit 0, if k.e.ctx.testBit 7 then some (k.e.ctx % 16) else none, s.bytesAt it.src 0⟩ ∧ j.shapeOk it.len = true ∧ (s.pkaKey j).toOption = some key ∧ s.fld F.TRNG_STAT_STATE = 2 ∧ s.sec.quarters = 0 ∧ (if it.param.testBit 0 then 4 else 3) ≤ s.sec.queue.length) ∧
    (∃ (s : State) (ch : BitVec 12) (k : HeddleChannel) (it : HeddleItem) (j : PkaJob) (key : List Byte), s.CryptoWork ch.toNat k it 0x82 4 144 ∧ it.param ≤ 1 ∧ s.pkaTaken = false ∧ s.sec.waiting = [] ∧ j = ⟨4, it.param.testBit 0, if k.e.ctx.testBit 7 then some (k.e.ctx % 16) else none, s.bytesAt it.src it.len⟩ ∧ j.shapeOk it.len = true ∧ 0 < it.len ∧ (s.pkaKey j).toOption = some key) ∧
    (∃ (s : State) (ch : BitVec 12) (k : HeddleChannel) (it : HeddleItem) (j : PkaJob) (key : List Byte), s.CryptoWork ch.toNat k it 0x82 5 144 ∧ it.param ≤ 1 ∧ s.pkaTaken = false ∧ s.sec.waiting = [] ∧ j = ⟨5, it.param.testBit 0, if k.e.ctx.testBit 7 then some (k.e.ctx % 16) else none, s.bytesAt it.src it.len⟩ ∧ j.shapeOk it.len = true ∧ 0 < it.len ∧ (s.pkaKey j).toOption = some key) ∧
    (∃ (s : State) (ch : BitVec 12) (k : HeddleChannel) (it : HeddleItem) (j : PkaJob) (key : List Byte), s.CryptoWork ch.toNat k it 0x82 6 144 ∧ it.param ≤ 1 ∧ s.pkaTaken = false ∧ s.sec.waiting = [] ∧ j = ⟨6, it.param.testBit 0, if k.e.ctx.testBit 7 then some (k.e.ctx % 16) else none, s.bytesAt it.src it.len⟩ ∧ j.shapeOk it.len = true ∧ 0 < it.len ∧ (s.pkaKey j).toOption = some key) ∧
    (∃ (s : State) (q : Req) (op : BitVec 4) (wide : Bool) (keySlot : Bool) (slot : Fin 16) (j : PkaJob), OpenTo s q P.PKA ∧ s.flag F.PKA_CMD_DONE = true ∧ s.running P.PKA = true ∧ s.flag F.PKA_KAT_BUSY = false ∧ s.flag F.PKA_KAT_FAIL = false ∧ s.sec.waiting = [] ∧ (op.toNat = 1 ∨ op.toNat = 6) ∧ j = ⟨op.toNat, wide, if keySlot then some slot.val else none, s.pkaMem 0 (s.fld F.PKA_LEN_LEN)⟩ ∧ j.shapeOk j.input.length = true) ∧
    (∃ (s : State) (q : Req), OpenTo s q P.PKA ∧ s.flag F.PKA_CMD_DONE = false) ∧
    (∃ (s : State) (q : Req) (engine : Fin 3), OpenTo s q (katEngine engine).1.page) ∧
    (∃ (s : State) (engine : Fin 3), s.flag (katEngine engine).1.katBusy = true ∧ s.sec.katWaiting = [] ∧ s.flag F.PKA_STAT_FROM_CMD = false) ∧
    (∃ (s : State) (r : Nat) (out : List Byte), s.sec.pka = some (r, out) ∧ out.length ≤ 144 ∧ r < 16) ∧
    (∃ (s : State) (ch : BitVec 12) (k : HeddleChannel) (it : HeddleItem), s.itemOf ch.toNat 6 = some (k, it) ∧ k.e.port = 0x82 ∧ it.op < 7 ∧ (s.running P.PKA && ! s.resetting P.PKA) = false) ∧
    (∃ (s : State) (ch : BitVec 12) (k : HeddleChannel) (it : HeddleItem), s.itemOf ch.toNat 6 = some (k, it) ∧ k.e.port = 0x82 ∧ it.op < 7 ∧ (s.running P.PKA && ! s.resetting P.PKA) = true ∧ s.flag Engine.pka.katBusy = true) ∧
    (∃ (s : State) (ch : BitVec 12) (k : HeddleChannel) (it : HeddleItem), s.itemOf ch.toNat 6 = some (k, it) ∧ k.e.port = 0x82 ∧ it.op < 7 ∧ (s.running P.PKA && ! s.resetting P.PKA) = true ∧ s.flag Engine.pka.katBusy = false ∧ s.flag Engine.pka.katFail = true) ∧
    (∃ (s : State) (ch : BitVec 12) (k : HeddleChannel) (it : HeddleItem), s.itemOf ch.toNat 6 = some (k, it) ∧ k.e.port = 0x82 ∧ it.op < 7 ∧ (s.running P.PKA && ! s.resetting P.PKA) = true ∧ s.flag Engine.pka.katBusy = false ∧ s.flag Engine.pka.katFail = false ∧ 2 ≤ it.param) ∧
    (∃ (s : State) (ch : BitVec 12), (s.itemOf ch.toNat 6).all (fun x => x.1.e.port != 0x82) = true) ∧
    (∃ (s : State) (engine : Fin 3), s.flag (katEngine engine).1.katBusy = false) ∧
    (∃ (s : State), s.sec.pka = none ∧ s.pkaTaken = false) ∧
    (∃ (s : State) (q : Req) (r : Nat), OpenTo s q P.PKA ∧ s.flag F.PKA_CMD_DONE = true ∧ s.flag F.PKA_KAT_BUSY = false ∧ s.sec.waiting = [] ∧ (s.running P.PKA = false ∧ r = 9 ∨ s.running P.PKA = true ∧ s.flag F.PKA_KAT_FAIL = true ∧ r = 6)) :=
  ⟨⟨(crS 0x82 0x03 (crIt 0 64 0)).putMem 0x01000140 (payload64 ++ payload64), 9, crK 0x82 0x03 (crIt 0 64 0), crIt 0 64 0, ⟨0, false, none, (payload64 ++ payload64 ++ payload64).take 64⟩, payload64.take 32, by unfold State.CryptoWork State.PlainRange State.QuietMemory; decide +kernel⟩,
   ⟨(crS 0x82 0x03 (crIt 1 160 0)).putMem 0x01000140 (payload64 ++ payload64), 9, crK 0x82 0x03 (crIt 1 160 0), crIt 1 160 0, ⟨1, false, none, (payload64 ++ payload64 ++ payload64).take 160⟩, payload64.take 0, by unfold State.CryptoWork State.PlainRange State.QuietMemory; decide +kernel⟩,
   ⟨(crS 0x82 0x03 (crIt 2 96 0)).putMem 0x01000140 (payload64 ++ payload64), 9, crK 0x82 0x03 (crIt 2 96 0), crIt 2 96 0, ⟨2, false, none, (payload64 ++ payload64 ++ payload64).take 96⟩, payload64.take 32, by unfold State.CryptoWork State.PlainRange State.QuietMemory; decide +kernel⟩,
   ⟨crS 0x82 0x83 (crIt 3 0 0), 9, crK 0x82 0x83 (crIt 3 0 0), crIt 3 0 0, ⟨3, false, some 3, []⟩, [], by unfold State.CryptoWork State.PlainRange State.QuietMemory; decide +kernel⟩,
   ⟨(crS 0x82 0x03 (crIt 4 64 0)).putMem 0x01000140 (payload64 ++ payload64), 9, crK 0x82 0x03 (crIt 4 64 0), crIt 4 64 0, ⟨4, false, none, (payload64 ++ payload64 ++ payload64).take 64⟩, payload64.take 32, by unfold State.CryptoWork State.PlainRange State.QuietMemory; decide +kernel⟩,
   ⟨(crS 0x82 0x03 (crIt 5 80 0)).putMem 0x01000140 (payload64 ++ payload64), 9, crK 0x82 0x03 (crIt 5 80 0), crIt 5 80 0, ⟨5, false, none, (payload64 ++ payload64 ++ payload64).take 80⟩, payload64.take 32, by unfold State.CryptoWork State.PlainRange State.QuietMemory; decide +kernel⟩,
   ⟨(crS 0x82 0x03 (crIt 6 100 0)).putMem 0x01000140 (payload64 ++ payload64), 9, crK 0x82 0x03 (crIt 6 100 0), crIt 6 100 0, ⟨6, false, none, (payload64 ++ payload64 ++ payload64).take 100⟩, payload64.take 0, by unfold State.CryptoWork State.PlainRange State.QuietMemory; decide +kernel⟩,
   ⟨((on State.reset P.PKA).setFld F.PKA_CMD_DONE 1).setFld F.PKA_LEN_LEN 160, ⟨0, true⟩, 1, false, false, 0, ⟨1, false, none, List.replicate 160 0#8⟩, by unfold OpenTo; decide +kernel⟩,
   ⟨(on State.reset P.PKA).setFld F.PKA_CMD_DONE 0, ⟨0, true⟩, by unfold OpenTo; decide +kernel⟩,
   ⟨on State.reset P.PKA, ⟨0, true⟩, 2, by unfold OpenTo; decide +kernel⟩,
   ⟨(on State.reset P.HASH).setFld F.HASH_KAT_BUSY 1, 1, by decide +kernel⟩,
   ⟨{ on State.reset P.PKA with sec := { State.reset.sec with pka := some (0, payload64) } }, 0, payload64, by decide +kernel⟩,
   ⟨(crS 0x82 0x03 (crIt 4 64 0)).setReg (R.PAGE_CTRL P.PKA) 0#64 |>.setReg (R.PAGE_STAT P.PKA) 0#64, 9, crK 0x82 0x03 (crIt 4 64 0), crIt 4 64 0, by decide +kernel⟩,
   ⟨(crS 0x82 0x03 (crIt 4 64 0)).setFld F.PKA_KAT_BUSY 1, 9, crK 0x82 0x03 (crIt 4 64 0), crIt 4 64 0, by decide +kernel⟩,
   ⟨(crS 0x82 0x03 (crIt 4 64 0)).setFld F.PKA_KAT_FAIL 1, 9, crK 0x82 0x03 (crIt 4 64 0), crIt 4 64 0, by decide +kernel⟩,
   ⟨crS 0x82 0x03 (crIt 4 64 2), 9, crK 0x82 0x03 (crIt 4 64 2), crIt 4 64 2, by decide +kernel⟩,
   ⟨State.reset, 9, by decide +kernel⟩,
   ⟨State.reset, 1, by decide +kernel⟩,
   ⟨State.reset, by decide +kernel⟩,
   ⟨State.reset.setFld F.PKA_CMD_DONE 1, ⟨0, true⟩, 9, by unfold OpenTo; decide +kernel⟩⟩

/-- What the clauses of FaultsAreSignalledLoggedAndReleased assume is met. -/
theorem witness_FaultsAreSignalledLoggedAndReleased :
    (∃ (s : State) (src : Fin 26), src.val ≠ 0 ∧ s.railsOn = true ∧ s.SignalsOnly src.val) ∧
    (∃ (s : State) (src : Fin 26) (a : Nat), src.val ≠ 0 ∧ s.railsOn = true ∧ s.belay.test = none ∧ s.fld (F.BELAY_REACT_REACT src.val) = 0 ∧ s.flag F.BELAY_LOG_CTRL_EN = true ∧ s.power.mramClosed = false ∧ s.fld F.BELAY_LOG_POS_NEXT < 2 ^ s.fld F.BELAY_LOG_CTRL_ORDER ∧ s.fld F.BELAY_LOG_CTRL_ORDER ≤ 12 ∧ s.memory.lines = [] ∧ s.memory.stale = [] ∧ a = 0x08000000 + s.fld F.BELAY_LOG_BASE_BASE * 4096 + 32 * s.fld F.BELAY_LOG_POS_NEXT ∧ a + 31 ≤ 0x087FFFFF) ∧
    (∃ (s : State) (src : Fin 26) (r : Bool), src.val ≠ 0 ∧ s.railsOn = true ∧ s.belay.test = some r) ∧
    (∃ (s : State) (src : Fin 26), src.val ≠ 0 ∧ s.railsOn = true ∧ s.belay.test = none ∧ s.flag F.BELAY_LOG_CTRL_EN = false ∧ s.fld (F.BELAY_REACT_REACT src.val) = 2 ∧ s.perturbed = false ∧ s.belay.resetDue = none) ∧
    (∃ (s : State) (src : Fin 26), (src.val = 1 ∨ src.val = 2) ∧ s.railsOn = true ∧ s.belay.test = none ∧ s.flag F.BELAY_LOG_CTRL_EN = false ∧ s.fld (F.BELAY_REACT_REACT src.val) = 1 ∧ s.perturbed = false) ∧
    (∃ (s : State), s.railsOn = false) ∧
    (∃ (s : State) (q : Req), OpenTo s q P.BELAY ∧ s.SignalsOnly 24) ∧
    (∃ (s : State) (q : Req), OpenTo s q P.BELAY) ∧
    (∃ (s : State) (q : Req) (m : BitVec 32) (src : Fin 26), OpenTo s q P.BELAY ∧ m.toNat = 2 ^ src.val ∧ src.val ≠ 0 ∧ (s.raw R.BELAY_PEND).getLsbD src.val = true ∧ s.pendSticks src.val = false) ∧
    (∃ (s : State) (q : Req) (m : BitVec 32) (src : Fin 26), OpenTo s q P.BELAY ∧ m.toNat = 2 ^ src.val ∧ (s.raw R.BELAY_PEND).getLsbD src.val = true ∧ s.pendSticks src.val = true) ∧
    (∃ (s : State) (ms : BitVec 32), s.belay.faultLow = true ∧ s.power.phase = .run ∧ s.flag F.BELAY_STAT_STARTUP_DONE = true ∧ s.flag F.BELAY_STAT_ARMED = true ∧ s.belay.holds = 0 ∧ s.fld F.BELAY_CFG_MIN_LOW ≤ ms.toNat) ∧
    (∃ (s : State) (ms : BitVec 32), (s.flag F.BELAY_STAT_STARTUP_DONE = false ∨ s.flag F.BELAY_STAT_ARMED = false ∨ s.belay.holds ≠ 0 ∨ ms.toNat < s.fld F.BELAY_CFG_MIN_LOW)) ∧
    (∃ (s : State) (cause : Nat), s.belay.resetDue = some cause) :=
  ⟨⟨belayQuiet State.reset, 3, by unfold State.SignalsOnly; decide +kernel⟩,
   ⟨(((belayQuiet State.reset).setFld F.BELAY_LOG_CTRL_EN 1).setFld F.BELAY_LOG_CTRL_ORDER 3).setFld F.BELAY_LOG_POS_NEXT 7, 5, 0x080000E0, by decide +kernel⟩,
   ⟨State.reset, 2, false, by decide +kernel⟩,
   ⟨(belayQuiet State.reset).setFld (F.BELAY_REACT_REACT 18) 2, 18, by decide +kernel⟩,
   ⟨(belayQuiet State.reset).setFld (F.BELAY_REACT_REACT 2) 1, 2, by decide +kernel⟩,
   ⟨{ State.reset with power := { PowerState.reset with phase := .off } }, by decide +kernel⟩,
   ⟨belayQuiet State.reset, ⟨0, true⟩, by unfold OpenTo State.SignalsOnly; decide +kernel⟩,
   ⟨State.reset, ⟨0, true⟩, by unfold OpenTo; decide +kernel⟩,
   ⟨{ State.reset.setReg R.BELAY_PEND 0x30#64 with belay := { State.reset.belay with holds := 0x30, real := 0x30, cls := [(4, 3), (5, 3)] } }, ⟨0, true⟩, 0x20, 5, by unfold OpenTo; decide +kernel⟩,
   ⟨{ State.reset.setReg R.BELAY_PEND 0x4#64 with belay := { State.reset.belay with holds := 4, real := 4, cls := [(2, 4)] } }, ⟨0, true⟩, 0x4, 2, by unfold OpenTo; decide +kernel⟩,
   ⟨(State.reset.setFld F.BELAY_STAT_ARMED 1).setFld F.BELAY_STAT_STARTUP_DONE 1, 255, by decide +kernel⟩,
   ⟨State.reset, 255, by decide +kernel⟩,
   ⟨{ State.reset with belay := { BelayState.reset with resetDue := some 5 }, harts := State.reset.harts.map (fun h => { h with running := true }) }, 5, by decide +kernel⟩⟩

/-- What the clauses of ConditionsCrcsMonitorsAndSelfTest assume is met. -/
theorem witness_ConditionsCrcsMonitorsAndSelfTest :
    (∃ (s : State) (vin : BitVec 16) (tj : BitVec 9), s.railsOn = true ∧ (s.power.thermHold = true ∨ sext 9 tj.toNat < 112) ∧ (s.flag F.BELAY_STAT_GUARANTEE = false ∨ (s.withReadings vin tj).condWord = 127)) ∧
    (∃ (s : State) (vin : BitVec 16) (tj : BitVec 9), s.railsOn = true ∧ (s.power.thermHold = true ∨ sext 9 tj.toNat < 112) ∧ s.flag F.BELAY_STAT_GUARANTEE = true ∧ (s.withReadings vin tj).condWord ≠ 127 ∧ s.SignalsOnly 17) ∧
    (∃ (s : State) (tj : BitVec 9), s.railsOn = true ∧ s.power.thermHold = false ∧ 112 ≤ sext 9 tj.toNat) ∧
    (∃ (s : State), s.railsOn = false) ∧
    (∃ (s : State), s.railsOn = true ∧ (∀ e ∈ s.belay.crc, s.pageCrc e.1 = e.2)) ∧
    (∃ (s : State) (a : BitVec 32) (b : Fin 64) (n : Nat) (c : Nat) (base : Nat) (regs : List RSpec), s.railsOn = true ∧ s.SignalsOnly 13 ∧ s.belay.crc = [(n, c)] ∧ (s.upsetField a.toNat b.val).pageCrc n ≠ c ∧ n < 70 ∧ pageAtIndex n = some (base, regs)) ∧
    (∃ (s : State) (unit : Fin 4), s.dupCompared unit.val = false) ∧
    (∃ (s : State) (unit : Fin 4), s.dupCompared unit.val = true ∧ s.SignalsOnly 12) ∧
    (∃ (s : State) (target : Fin 15), s.railsOn = true ∧ s.monitorOn target.val = true ∧ s.railOff target.val = false ∧ s.SignalsOnly (monitorFault target.val true).source) ∧
    (∃ (s : State) (target : Fin 15), s.railsOn = true ∧ s.monitorOn target.val = false ∧ s.railOff target.val = false) ∧
    (∃ (s : State) (target : Fin 15), s.railsOn = true ∧ s.monitorOn target.val = true ∧ s.railOff target.val = false ∧ s.SignalsOnly 20) ∧
    (∃ (s : State) (target : Fin 15), s.railsOn = true ∧ s.railOff target.val = false) ∧
    (∃ (s : State) (target : Fin 15), (s.railsOn = false ∨ s.railOff target.val = true)) ∧
    (∃ (s : State) (q : Req), OpenTo s q P.BELAY ∧ s.belay.test = none ∧ s.flag F.BELAY_STAT_GUARANTEE = false) ∧
    (∃ (s : State) (q : Req), OpenTo s q P.BELAY ∧ s.belay.test = none ∧ s.flag F.BELAY_STAT_GUARANTEE = true) ∧
    (∃ (s : State) (onRequest : Bool), s.belay.test = some onRequest ∧ s.belay.held = [] ∧ s.flag F.BELAY_STAT_GUARANTEE = false) ∧
    (∃ (s : State) (onRequest : Bool), s.belay.test = some onRequest ∧ s.belay.held = [] ∧ s.flag F.BELAY_STAT_GUARANTEE = false ∧ s.flag F.BELAY_LOG_CTRL_EN = false ∧ s.fld (F.BELAY_REACT_REACT 21) = 0 ∧ (∀ e ∈ s.belay.cls, e.2 ≤ 4) ∧ s.perturbed = false) :=
  ⟨⟨State.reset, 3000, 0x1FF, by decide +kernel⟩,
   ⟨(belayQuiet State.reset).setFld F.BELAY_STAT_GUARANTEE 1, 3000, 0x6F, by unfold State.SignalsOnly; decide +kernel⟩,
   ⟨State.reset, 112, by decide +kernel⟩,
   ⟨{ State.reset with power := { PowerState.reset with phase := .bivouac } }, by decide +kernel⟩,
   ⟨{ State.reset with belay := { BelayState.reset with crc := [(9, State.reset.pageCrc 9)] } }, by decide +kernel⟩,
   ⟨crcS, 0x10009000, 0, 9, 5, 0x10009000, (match pageAtIndex 9 with | some p => p.2 | none => []), by unfold State.SignalsOnly; decide +kernel⟩,
   ⟨{ State.reset with power := { PowerState.reset with phase := .reset } }, 1, by decide +kernel⟩,
   ⟨(belayQuiet State.reset).setFld (F.BELAY_REACT_REACT 12) 0, 3, by unfold State.SignalsOnly; decide +kernel⟩,
   ⟨(belayQuiet State.reset).setFld F.BELAY_MON_VMON_EN 1, 7, by unfold State.SignalsOnly; decide +kernel⟩,
   ⟨((belayQuiet State.reset).setFld F.BELAY_MON_VMON_EN 0).setFld F.CLK_MON_CFG_XIN 0, 7, by decide +kernel⟩,
   ⟨(belayQuiet State.reset).setFld F.BELAY_MON_VMON_EN 1, 7, by unfold State.SignalsOnly; decide +kernel⟩,
   ⟨State.reset, 14, by decide +kernel⟩,
   ⟨State.reset.setFld F.PWR_STATE_CUR 3, 0, by decide +kernel⟩,
   ⟨belayQuiet State.reset, ⟨0, true⟩, by unfold OpenTo; decide +kernel⟩,
   ⟨(belayQuiet State.reset).setFld F.BELAY_STAT_GUARANTEE 1, ⟨0, true⟩, by unfold OpenTo; decide +kernel⟩,
   ⟨State.reset, false, by decide +kernel⟩,
   ⟨State.reset.setFld (F.BELAY_REACT_REACT 21) 0, false, by decide +kernel⟩⟩

/-- What the clauses of WatchdogsKickWarnAndExpire assume is met. -/
theorem witness_WatchdogsKickWarnAndExpire :
    (∃ (s : State) (q : Req) (n : Fin 4) (ms : Nat), OpenTo s q P.WDOG ∧ s.wdogAbsent n.val = false ∧ s.flag (F.WDOG_CTRL_EN n.val) = true ∧ s.fld (F.WDOG_WINDOW_MS n.val) ≤ ms) ∧
    (∃ (s : State) (q : Req) (n : Fin 4) (ms : Nat), OpenTo s q P.WDOG ∧ s.wdogAbsent n.val = false ∧ s.flag (F.WDOG_CTRL_EN n.val) = true ∧ ms < s.fld (F.WDOG_WINDOW_MS n.val) ∧ s.SignalsOnly 18) ∧
    (∃ (s : State) (q : Req) (n : Fin 4) (key : BitVec 32), OpenTo s q P.WDOG ∧ s.wdogAbsent n.val = false ∧ key ≠ 0x4B1C#32) ∧
    (∃ (s : State) (n : Fin 4), s.wdogCounts n.val = true ∧ s.fld (F.WDOG_WARN_MS n.val) ≠ 0 ∧ s.fld (F.WDOG_WARN_MS n.val) ≤ s.fld (F.WDOG_LEFT_MS n.val)) ∧
    (∃ (s : State) (n : Fin 4), s.wdogCounts n.val = true ∧ s.SignalsOnly 18) ∧
    (∃ (s : State) (n : Fin 4), s.wdogCounts n.val = false) :=
  ⟨⟨(State.reset.setFld (F.WDOG_CTRL_EN 2) 1).setFld (F.WDOG_WINDOW_MS 2) 5, ⟨0, true⟩, 2, 5, by unfold OpenTo; decide +kernel⟩,
   ⟨(((belayQuiet State.reset).setFld (F.WDOG_CTRL_EN 2) 1).setFld (F.WDOG_WINDOW_MS 2) 5).setFld (F.BELAY_REACT_REACT 18) 0, ⟨0, true⟩, 2, 4, by unfold OpenTo State.SignalsOnly; decide +kernel⟩,
   ⟨State.reset, ⟨0, true⟩, 0, 0x14B1C, by unfold OpenTo; decide +kernel⟩,
   ⟨wdogS, 2, by decide +kernel⟩,
   ⟨wdogS, 2, by unfold State.SignalsOnly; decide +kernel⟩,
   ⟨State.reset, 3, by decide +kernel⟩⟩

/-- What the clauses of ScreeDisturbsACodeword assume is met. -/
theorem witness_ScreeDisturbsACodeword :
    (∃ (s : State) (q : Req), OpenTo s q P.SCREE ∧ s.screeActs = true ∧ s.flag F.SCREE_ECC_GO_BUSY = false ∧ s.fld F.SCREE_ECC_TARGET_ARRAY ≠ 10 ∧ s.fld F.SCREE_ECC_TARGET_ARRAY ≠ 11 ∧ s.eccTarget (s.fld F.SCREE_ECC_TARGET_ARRAY) (s.fld F.SCREE_ECC_TARGET_UNIT) (s.fld F.SCREE_ECC_ADDR_ADDR) = true) ∧
    (∃ (s : State) (q : Req), OpenTo s q P.SCREE ∧ s.screeActs = true ∧ s.flag F.SCREE_ECC_GO_BUSY = false ∧ s.fld F.SCREE_ECC_TARGET_ARRAY = 10) ∧
    (∃ (s : State) (q : Req), OpenTo s q P.SCREE ∧ s.screeActs = true ∧ s.flag F.SCREE_ECC_GO_BUSY = false ∧ s.fld F.SCREE_ECC_TARGET_ARRAY = 11) ∧
    (∃ (s : State) (q : Req), OpenTo s q P.SCREE ∧ s.screeActs = true ∧ s.flag F.SCREE_ECC_GO_BUSY = false ∧ s.eccTarget (s.fld F.SCREE_ECC_TARGET_ARRAY) (s.fld F.SCREE_ECC_TARGET_UNIT) (s.fld F.SCREE_ECC_ADDR_ADDR) = false) ∧
    (∃ (s : State) (q : Req), OpenTo s q P.SCREE ∧ s.screeActs = false) :=
  ⟨⟨((screeS.setFld F.SCREE_ECC_TARGET_ARRAY 9).setFld F.SCREE_ECC_ADDR_ADDR 0x01000048).setFld F.SCREE_ECC_MASK_DOUBLE 1, ⟨0, true⟩, by unfold OpenTo; decide +kernel⟩,
   ⟨(screeS.setFld F.SCREE_ECC_TARGET_ARRAY 10).setFld F.SCREE_ECC_ADDR_ADDR 3, ⟨0, true⟩, by unfold OpenTo; decide +kernel⟩,
   ⟨(screeS.setFld F.SCREE_ECC_TARGET_ARRAY 11).setFld F.SCREE_ECC_ADDR_ADDR 0x1005, ⟨0, true⟩, by unfold OpenTo; decide +kernel⟩,
   ⟨screeS.setFld F.SCREE_ECC_TARGET_ARRAY 5, ⟨0, true⟩, by unfold OpenTo; decide +kernel⟩,
   ⟨State.reset, ⟨0, true⟩, by unfold OpenTo; decide +kernel⟩⟩

/-- What the clauses of ScreeOneShotsActAndEnd assume is met. -/
theorem witness_ScreeOneShotsActAndEnd :
    (∃ (s : State) (q : Req), OpenTo s q P.SCREE ∧ s.screeActs = true) ∧
    (∃ (s : State) (q : Req), OpenTo s q P.SCREE ∧ s.screeActs = false) ∧
    (∃ (s : State) (q : Req), OpenTo s q P.SCREE ∧ s.screeActs = true ∧ s.belay.test = none ∧ s.flag F.BELAY_LOG_CTRL_EN = false ∧ s.flag F.SCREE_CTRL_FULL_REACT = false ∧ (∀ e ∈ s.belay.cls, e.2 ≤ 4)) ∧
    (∃ (s : State) (q : Req) (page : BitVec 7) (c : Nat), OpenTo s q P.SCREE ∧ s.screeActs = true ∧ page.toNat < 70 ∧ AMap.get? s.belay.crc page.toNat = some c) ∧
    (∃ (s : State) (q : Req) (page : BitVec 7), OpenTo s q P.SCREE ∧ s.screeActs = true ∧ page.toNat < 70 ∧ AMap.get? s.belay.crc page.toNat = none) ∧
    (∃ (s : State) (q : Req) (target : Fin 16), OpenTo s q P.SCREE ∧ s.screeActs = true ∧ s.belay.test = none ∧ target.val < 15 ∧ s.flag F.BELAY_LOG_CTRL_EN = false ∧ s.flag F.SCREE_CTRL_FULL_REACT = false ∧ (∀ e ∈ s.belay.cls, e.2 ≤ 4) ∧ s.monitorOn target.val = true ∧ s.railOff target.val = false) ∧
    (∃ (s : State) (q : Req) (mode : Fin 4), OpenTo s q P.SCREE ∧ s.screeActs = true ∧ (mode.val = 1 ∨ mode.val = 2) ∧ s.fld F.TRNG_STAT_STATE = 2 ∧ s.sec.failures = [] ∧ s.sec.waiting = []) ∧
    (∃ (s : State), s.screeActs = false) :=
  ⟨⟨screeS, ⟨0, true⟩, by unfold OpenTo; decide +kernel⟩,
   ⟨State.reset, ⟨0, true⟩, by unfold OpenTo; decide +kernel⟩,
   ⟨belayQuiet (screeS.setFld F.SCREE_CTRL_QUIET 1), ⟨0, true⟩, by unfold OpenTo; decide +kernel⟩,
   ⟨{ screeS with belay := { screeS.belay with crc := [(3, 5), (9, 6)] } }, ⟨0, true⟩, 9, 6, by unfold OpenTo; decide +kernel⟩,
   ⟨screeS, ⟨0, true⟩, 69, by unfold OpenTo; decide +kernel⟩,
   ⟨belayQuiet (screeS.setFld F.BELAY_MON_VMON_EN 1), ⟨0, true⟩, 7, by unfold OpenTo; decide +kernel⟩,
   ⟨screeS.setFld F.TRNG_STAT_STATE 2, ⟨0, true⟩, 2, by unfold OpenTo; decide +kernel⟩,
   ⟨{ State.reset with belay := { BelayState.reset with lockstepShots := 3, flitShots := [(1, 2, false)] } }, by decide +kernel⟩⟩

/-- What SnapshotCommitBeyondTheEndIsRefused assumes is met. -/
theorem witness_SnapshotCommitBeyondTheEndIsRefused :
    ∃ (s : State) (q : Req) (pages : BitVec 8), OpenTo s q P.PWR ∧ 2048 < s.fld F.PWR_SNAP_BASE_BASE + min 64 (max 1 pages.toNat) :=
  ⟨State.reset.setFld F.PWR_SNAP_BASE_BASE 2047, ⟨5, true⟩, 2, by unfold OpenTo; decide +kernel⟩

/-- What LoomGoDuringACommitIsRefused assumes is met. -/
theorem witness_LoomGoDuringACommitIsRefused :
    ∃ (s : State) (q : Req), OpenTo s q P.LOOM_CFG ∧ (s.fld F.LOOM_COMMIT_STAT_STATE = 1 ∨ s.fld F.LOOM_COMMIT_STAT_STATE = 2 ∨ s.fld F.LOOM_COMMIT_STAT_STATE = 3) :=
  ⟨State.reset.setFld F.LOOM_COMMIT_STAT_STATE 3, ⟨5, true⟩, by unfold OpenTo; decide +kernel⟩

/-- What the clauses of InvalidationWhileBusyIsRefused assume is met. -/
theorem witness_InvalidationWhileBusyIsRefused :
    (∃ (s : State) (q : Req), OpenTo s q P.HEDDLE ∧ s.flag F.HEDDLE_CHC_INV_BUSY = true) ∧
    (∃ (s : State) (q : Req), OpenTo s q P.HEDDLE ∧ s.flag F.HEDDLE_IOTLB_INV_BUSY = true) :=
  ⟨⟨State.reset.setFld F.HEDDLE_CHC_INV_BUSY 1, ⟨5, true⟩, by unfold OpenTo; decide +kernel⟩,
   ⟨State.reset.setFld F.HEDDLE_IOTLB_INV_BUSY 1, ⟨5, true⟩, by unfold OpenTo; decide +kernel⟩⟩

/-- What the clauses of WatchdogPageStaysEnabled assume is met. -/
theorem witness_WatchdogPageStaysEnabled :
    (∃ (s : State) (q : Req) (n : Fin 4), OpenTo s q P.WDOG ∧ s.raw (R.PAGE_CTRL P.WDOG) = 1#64 ∧ s.flag (F.WDOG_CTRL_EN n.val) = true) ∧
    (∃ (s : State) (q : Req) (n : Fin 4) (v : Word), OpenTo s q P.WDOG ∧ s.flag (F.PAGE_CTRL_ENABLE P.WDOG) = true ∧ s.flag (F.WDOG_CTRL_EN n.val) = true ∧ v.getLsbD 0 = false) :=
  ⟨⟨(on State.reset P.WDOG).setFld (F.WDOG_CTRL_EN 3) 1, ⟨0, true⟩, 3, by unfold OpenTo; decide +kernel⟩,
   ⟨(on State.reset P.WDOG).setFld (F.WDOG_CTRL_EN 0) 1, ⟨0, true⟩, 0, 0xFFFFFFFE, by unfold OpenTo; decide +kernel⟩⟩

/-- What LogEntryAfterMramClosesIsLost assumes is met. -/
theorem witness_LogEntryAfterMramClosesIsLost :
    ∃ (s : State) (src : Fin 26), src.val ≠ 0 ∧ s.railsOn = true ∧ s.belay.test = none ∧ s.flag F.BELAY_LOG_CTRL_EN = true ∧ s.power.mramClosed = true :=
  ⟨{ (belayQuiet State.reset).setFld F.BELAY_LOG_CTRL_EN 1 with power := { PowerState.reset with mramClosed := true } }, 5, by decide +kernel⟩

end Sys2Proof.Tests
end

section
/-! What no command touches: the queue of waiting commands and the ordering code (R2). One rule per operation of the device. -/
namespace Sys2Proof.Machine

/-- The queue of waiting commands and the ordering code. -/
def State.untouched (s : State) : List Instr × Bool := (s.pending, s.code4G)

/- The proof is not `rfl` for the simplifier's sake: as a definitional rule it makes the kernel compare whole states. -/
@[simp] theorem State.untouched_fold (s : State) : (s.pending, s.code4G) = s.untouched := (rfl)

@[simp] theorem State.untouched_mk (regs mem fresh resp held c power boot reed harts memory loom cairn shuttle timer belay tether sec heddle bobbin
    usb field dm p) : (State.mk regs mem fresh resp held c power boot reed harts memory loom cairn shuttle timer belay tether sec heddle bobbin
    usb field dm p).untouched = (p, c) := (rfl)

/-! Branches and pairs. -/

@[simp] theorem untouched_ite (c : Prop) [Decidable c] (s t : State) :
    (if c then s else t).untouched = if c then s.untouched else t.untouched := apply_ite _ _ _ _

@[simp] theorem untouched_fst_ite {α : Type} (c : Prop) [Decidable c] (p q : State × α) :
    (if c then p else q).1.untouched = if c then p.1.untouched else q.1.untouched := by split <;> rfl

@[simp] theorem untouched_snd_ite {α : Type} (c : Prop) [Decidable c] (p q : α × State) :
    (if c then p else q).2.untouched = if c then p.2.untouched else q.2.untouched := by split <;> rfl

theorem untouched_of_pair_fst {α : Type} {s t : State} {p : State × α} {x : α} (h : p = (t, x)) (hp : p.1.untouched = s.untouched) :
    t.untouched = s.untouched := by subst h; exact hp

theorem untouched_of_pair_snd {α : Type} {s t : State} {p : α × State} {x : α} (h : p = (x, t)) (hp : p.2.untouched = s.untouched) :
    t.untouched = s.untouched := by subst h; exact hp

theorem untouched_ite_of {s t u : State} {c : Prop} [Decidable c] (ht : t.untouched = s.untouched) (hu : u.untouched = s.untouched) :
    (if c then t else u).untouched = s.untouched := by split <;> assumption

section
variable (s : State)

/-! ### Operations of Machine/Access -/

@[simp] theorem untouched_setReg (a : Nat) (v : DWord) : (s.setReg a v).untouched = s.untouched := by simp [State.setReg]
@[simp] theorem untouched_setFld (f : Fld) (v : Nat) : (s.setFld f v).untouched = s.untouched := by simp [State.setFld]
@[simp] theorem untouched_setFlag (f : Fld) (b : Bool) : (s.setFlag f b).untouched = s.untouched := by simp [State.setFlag]
@[simp] theorem untouched_bumpBy (f : Fld) (n : Nat) : (s.bumpBy f n).untouched = s.untouched := by simp [State.bumpBy]
@[simp] theorem untouched_bump (f : Fld) : (s.bump f).untouched = s.untouched := by simp [State.bump]
@[simp] theorem untouched_bumpSat (f sat : Fld) : (s.bumpSat f sat).untouched = s.untouched := by simp [State.bumpSat]
@[simp] theorem untouched_inc (f : Fld) : (s.inc f).untouched = s.untouched := by simp [State.inc]
@[simp] theorem untouched_raise (p bit : Nat) : (s.raise p bit).untouched = s.untouched := by simp [State.raise]
@[simp] theorem untouched_takeFree : s.takeFree.2.untouched = s.untouched := by simp [State.takeFree]

@[simp] theorem untouched_takeFrees (n : Nat) (s : State) : (s.takeFrees n).2.untouched = s.untouched := by
  induction n generalizing s with
  | zero => rfl
  | succ n ih => simp [State.takeFrees, ih]

@[simp] theorem untouched_foldl {α : Type} (f : State → α → State) (hf : ∀ t x, (f t x).untouched = t.untouched) (l : List α) (s : State) :
    (l.foldl f s).untouched = s.untouched := by
  induction l generalizing s with
  | nil => rfl
  | cons x l ih => rw [List.foldl_cons, ih, hf]

@[simp] theorem untouched_forEach (n : Nat) (f : Nat → State → State) (s : State) (hf : ∀ i t, (f i t).untouched = t.untouched) :
    (forEach n f s).untouched = s.untouched := untouched_foldl _ (fun t i => hf i t) _ s

@[simp] theorem untouched_forAll {α : Type} (l : List α) (f : α → State → State) (s : State) (hf : ∀ x t, (f x t).untouched = t.untouched) :
    (forAll l f s).untouched = s.untouched := untouched_foldl _ (fun t x => hf x t) l s

@[simp] theorem untouched_setHart (h : Nat) (v : Hart) : (s.setHart h v).untouched = s.untouched := by
  unfold State.setHart
  split <;> simp

@[simp] theorem untouched_modHart (h : Nat) (f : Hart → Hart) : (s.modHart h f).untouched = s.untouched := by simp [State.modHart]

@[simp] theorem untouched_when (s : State) (b : Bool) (f : State → State) (hf : (f s).untouched = s.untouched) :
    (s.when b f).untouched = s.untouched := by simp [State.when, hf]

/-! ### Operations of Machine/Signals -/

@[simp] theorem untouched_setGate (id : Nat) (g : Gateway) : (s.setGate id g).untouched = s.untouched := by simp [State.setGate]
@[simp] theorem untouched_edge (id : Nat) : (s.edge id).untouched = s.untouched := by simp [State.edge]

/-! ### Operations of Machine/Levels -/

@[simp] theorem untouched_setChan (n : Nat) (c : ShuttleChannel) : (s.setChan n c).untouched = s.untouched := by simp [State.setChan]

/-! ### Operations of Machine/Selvedge -/

@[simp] theorem untouched_clampEvents (p ni off reason wrote kept n : Nat) :
    (s.clampEvents p ni off reason wrote kept n).untouched = s.untouched := by simp [State.clampEvents]
@[simp] theorem untouched_refuse (ni a reason : Nat) (v : DWord) (detail : Nat) :
    (s.refuse ni a reason v detail).untouched = s.untouched := by simp [State.refuse]

@[simp] theorem untouched_logWrite (ni a : Nat) (v : DWord) (clamps : List Nat) : (s.logWrite ni a v clamps).untouched = s.untouched := by
  unfold State.logWrite
  split <;> simp

@[simp] theorem untouched_storeReg (ni a : Nat) (v : DWord) : (s.storeReg ni a v).1.untouched = s.untouched := by
  unfold State.storeReg
  split <;> simp

/-! ### Operations of Machine/FlashBus -/

@[simp] theorem untouched_xipHeld : s.xipHeld.untouched = s.untouched := by simp [State.xipHeld]
@[simp] theorem untouched_ospiTake : s.ospiTake.untouched = s.untouched := by simp [State.ospiTake]
@[simp] theorem untouched_ospiSend (x : OspiTransfer) : (s.ospiSend x).untouched = s.untouched := by simp [State.ospiSend]
@[simp] theorem untouched_xipFetch (l : Nat) : (s.xipFetch l).untouched = s.untouched := by simp [State.xipFetch]

/-! ### Operations of Machine/MemOps -/

@[simp] theorem untouched_putMem (a : Nat) (bs : List Byte) : (s.putMem a bs).untouched = s.untouched := by simp [State.putMem]
@[simp] theorem untouched_setFlips (l : List EccFlip) : (s.setFlips l).untouched = s.untouched := by simp [State.setFlips]
@[simp] theorem untouched_dropFlips (array unit w : Nat) : (s.dropFlips array unit w).untouched = s.untouched := by simp [State.dropFlips]
@[simp] theorem untouched_mark (a : Nat) : (s.mark a).untouched = s.untouched := by simp [State.mark]
@[simp] theorem untouched_markLine (l : Nat) : (s.markLine l).untouched = s.untouched := by simp [State.markLine]
@[simp] theorem untouched_setHeldMarks (l : Nat) (ws : List Nat) : (s.setHeldMarks l ws).untouched = s.untouched := by simp [State.setHeldMarks]
@[simp] theorem untouched_markHeld (l : Nat) : (s.markHeld l).untouched = s.untouched := by simp [State.markHeld]
@[simp] theorem untouched_touchSnapshot (a n : Nat) : (s.touchSnapshot a n).untouched = s.untouched := by simp [State.touchSnapshot]

@[simp] theorem untouched_mramComplete (bank : Nat) : (s.mramComplete bank).untouched = s.untouched := by
  unfold State.mramComplete
  split <;> simp

@[simp] theorem untouched_mramDone (bank : Nat) : (s.mramDone bank).untouched = s.untouched := by simp [State.mramDone]

@[simp] theorem untouched_mramUntil (s : State) (bank : Nat) (due : State → Bool) : (s.mramUntil bank due).untouched = s.untouched := by
  simp [State.mramUntil]

@[simp] theorem untouched_mramRoom (bank : Nat) : (s.mramRoom bank).untouched = s.untouched := by simp [State.mramRoom]
@[simp] theorem untouched_mramPush (e : MramWrite) : (s.mramPush e).untouched = s.untouched := by simp [State.mramPush]
@[simp] theorem untouched_mramQueue (a : Nat) (bs : List Byte) : (s.mramQueue a bs).untouched = s.untouched := by simp [State.mramQueue]
@[simp] theorem untouched_freshen (a n : Nat) : (s.freshen a n).untouched = s.untouched := by simp [State.freshen]
@[simp] theorem untouched_portLand (a : Nat) (bs : List Byte) : (s.portLand a bs).untouched = s.untouched := by simp [State.portLand]
@[simp] theorem untouched_land (a : Nat) (bs : List Byte) : (s.land a bs).untouched = s.untouched := by simp [State.land]

/-! ### Operations of Machine/BelayOps -/

@[simp] theorem untouched_pulse (code : Nat) : (s.pulse code).untouched = s.untouched := by simp [State.pulse]
@[simp] theorem untouched_setHighest : s.setHighest.untouched = s.untouched := by simp [State.setHighest]
@[simp] theorem untouched_copyLast (e : List Byte) : (s.copyLast e).untouched = s.untouched := by simp [State.copyLast]
@[simp] theorem untouched_logLost : s.logLost.untouched = s.untouched := by simp [State.logLost]

@[simp] theorem untouched_logEntry (f : FaultInput) : (s.logEntry f).untouched = s.untouched := by
  unfold State.logEntry
  dsimp only
  split
  · simp
  · split <;> simp

@[simp] theorem untouched_assertFaultN (src : Nat) : (s.assertFaultN src).untouched = s.untouched := by simp [State.assertFaultN]
@[simp] theorem untouched_fencePair (pair : Nat) : (s.fencePair pair).untouched = s.untouched := by simp [State.fencePair]

@[simp] theorem untouched_react (src code : Nat) : (s.react src code).untouched = s.untouched := by
  unfold State.react
  dsimp only
  repeat' split
  all_goals simp

@[simp] theorem untouched_attn (bit : Nat) : (s.attn bit).untouched = s.untouched := by simp [State.attn]
@[simp] theorem untouched_countSignalled (cls : Nat) : (s.countSignalled cls).untouched = s.untouched := by simp [State.countSignalled]
@[simp] theorem untouched_signalNow (g : FaultInput) : (s.signalNow g).untouched = s.untouched := by simp [State.signalNow]

@[simp] theorem untouched_signal (f : FaultInput) : (s.signal f).untouched = s.untouched := by
  unfold State.signal
  split <;> simp

@[simp] theorem untouched_correctedInput (f : FaultInput) : (s.correctedInput f).untouched = s.untouched := by simp [State.correctedInput]
@[simp] theorem untouched_corrected (src unit addr detail : Nat) :
    (s.corrected src unit addr detail).untouched = s.untouched := by simp [State.corrected]
@[simp] theorem untouched_evaluateCond : s.evaluateCond.untouched = s.untouched := by simp [State.evaluateCond]

/-! ### Operations of Machine/HartOps -/

@[simp] theorem untouched_mirror (h : Nat) : (s.mirror h).untouched = s.untouched := by simp [State.mirror]
@[simp] theorem untouched_wakeHarts : s.wakeHarts.untouched = s.untouched := by simp [State.wakeHarts]

/-! ### Operations of Machine/EccBase -/

@[simp] theorem untouched_countHart (h code : Nat) : (s.countHart h code).untouched = s.untouched := by simp [State.countHart]
@[simp] theorem untouched_countCe (array unit w : Nat) : (s.countCe array unit w).untouched = s.untouched := by simp [State.countCe]
@[simp] theorem untouched_countUe (array w source : Nat) : (s.countUe array w source).untouched = s.untouched := by simp [State.countUe]
@[simp] theorem untouched_eccCorrected (array unit w source bit : Nat) (inj : Bool) :
    (s.eccCorrected array unit w source bit inj).untouched = s.untouched := by simp [State.eccCorrected]
@[simp] theorem untouched_eccReport (array unit w source : Nat) (inj : Bool) :
    (s.eccReport array unit w source inj).untouched = s.untouched := by simp [State.eccReport]
@[simp] theorem untouched_wrongWord (array w : Nat) : (s.wrongWord array w).untouched = s.untouched := by simp [State.wrongWord]

@[simp] theorem untouched_secDed (s : State) (array unit w source : Nat) (inj : Bool) (bits : List Nat) (lost : State → State)
    (hl : ∀ t, (lost t).untouched = t.untouched) : (s.secDed array unit w source inj bits lost).untouched = s.untouched := by
  unfold State.secDed
  split <;> simp [hl]

@[simp] theorem untouched_rewritten (c : CacheId) (l : Nat) : (s.rewritten c l).untouched = s.untouched := by simp [State.rewritten]
@[simp] theorem untouched_leaveArray (c : CacheId) (l : Nat) (dirty : Bool) :
    (s.leaveArray c l dirty).untouched = s.untouched := by simp [State.leaveArray]

/-! ### Operations of Machine/Gate -/

@[simp] theorem untouched_respond (error : Bool) (data : DWord) : (s.respond error data).untouched = s.untouched := by simp [State.respond]

@[simp] theorem untouched_gateWrite (s : State) (q : Req) (a : Nat) (size : Size) (v : DWord) (op : State → State)
    (ho : ∀ t, (op t).untouched = t.untouched) : (s.gateWrite q a size v op).untouched = s.untouched := by
  simp [State.gateWrite, ho]

@[simp] theorem untouched_resetPage (p : Nat) : (s.resetPage p).untouched = s.untouched := by simp [State.resetPage]

/-! ### Operations of Machine/Targets -/

@[simp] theorem untouched_countPoison (a : Nat) : (s.countPoison a).untouched = s.untouched := by simp [State.countPoison]
@[simp] theorem untouched_memWord (array w source : Nat) (up : List Nat) :
    (s.memWord array w source up).untouched = s.untouched := by simp [State.memWord]
@[simp] theorem untouched_memLine (array l source word : Nat) (up : List Nat) :
    (s.memLine array l source word up).untouched = s.untouched := by simp [State.memLine]
@[simp] theorem untouched_meetFlips (ws : List Nat) : (s.meetFlips ws).untouched = s.untouched := by simp [State.meetFlips]
@[simp] theorem untouched_setChecks (l : List CheckBlock) : (s.setChecks l).untouched = s.untouched := by simp [State.setChecks]

@[simp] theorem untouched_touchCheck (l : Nat) (write : Bool) : (s.touchCheck l write).untouched = s.untouched := by
  unfold State.touchCheck
  dsimp only
  split
  · simp
  · split
    · simp
    · split <;> simp

@[simp] theorem untouched_cleanChecks : s.cleanChecks.untouched = s.untouched := by simp [State.cleanChecks]

@[simp] theorem untouched_targetWrite (a : Nat) (bs : List Byte) : (s.targetWrite a bs).1.untouched = s.untouched := by
  unfold State.targetWrite
  dsimp only
  split <;> simp

@[simp] theorem untouched_closeRow (channel bank : Nat) : (s.closeRow channel bank).untouched = s.untouched := by simp [State.closeRow]
@[simp] theorem untouched_openRow (r : OpenRow) : (s.openRow r).untouched = s.untouched := by simp [State.openRow]
@[simp] theorem untouched_showQueues : s.showQueues.untouched = s.untouched := by simp [State.showQueues]
@[simp] theorem untouched_setDmc (l : List DmcRequest) : (s.setDmc l).untouched = s.untouched := by simp [State.setDmc]
@[simp] theorem untouched_dmcScrubLine (l word : Nat) (up : List Nat) :
    (s.dmcScrubLine l word up).untouched = s.untouched := by simp [State.dmcScrubLine]

@[simp] theorem untouched_dmcPerform (r : DmcRequest) : (s.dmcPerform r).untouched = s.untouched := by
  unfold State.dmcPerform
  split <;> simp

@[simp] theorem untouched_dmcServeAt (i : Nat) : (s.dmcServeAt i).untouched = s.untouched := by
  unfold State.dmcServeAt
  split <;> simp

@[simp] theorem untouched_serveLine (s : State) (l : Nat) : (s.serveLine l).untouched = s.untouched := by
  refine untouched_forEach _ _ _ fun _ t => ?_
  split
  · exact untouched_dmcServeAt t _
  · rfl

/-! ### Operations of Machine/CacheOps -/

@[simp] theorem untouched_setLines (ls : List CacheLine) : (s.setLines ls).untouched = s.untouched := by simp [State.setLines]
@[simp] theorem untouched_mapLine (l : Nat) (f : CacheLine → CacheLine) : (s.mapLine l f).untouched = s.untouched := by simp [State.mapLine]
@[simp] theorem untouched_addLine (x : CacheLine) : (s.addLine x).untouched = s.untouched := by simp [State.addLine]
@[simp] theorem untouched_dropLine (c : CacheId) (l : Nat) : (s.dropLine c l).untouched = s.untouched := by simp [State.dropLine]
@[simp] theorem untouched_dropAll (l : Nat) : (s.dropAll l).untouched = s.untouched := by simp [State.dropAll]
@[simp] theorem untouched_noteStale (a n : Nat) : (s.noteStale a n).untouched = s.untouched := by simp [State.noteStale]
@[simp] theorem untouched_dropStale (l : Nat) : (s.dropStale l).untouched = s.untouched := by simp [State.dropStale]
@[simp] theorem untouched_noteXip : s.noteXip.untouched = s.untouched := by simp [State.noteXip]
@[simp] theorem untouched_freshXip (l : Nat) : (s.freshXip l).untouched = s.untouched := by simp [State.freshXip]
@[simp] theorem untouched_discardLine (l : Nat) : (s.discardLine l).untouched = s.untouched := by simp [State.discardLine]
@[simp] theorem untouched_readChecks (l : Nat) : (s.readChecks l).untouched = s.untouched := by simp [State.readChecks]
@[simp] theorem untouched_noteRefused (a n : Nat) : (s.noteRefused a n).untouched = s.untouched := by simp [State.noteRefused]
@[simp] theorem untouched_writtenLine (l : Nat) : (s.writtenLine l).untouched = s.untouched := by simp [State.writtenLine]
@[simp] theorem untouched_mramLine (l : Nat) : (s.mramLine l).untouched = s.untouched := by simp [State.mramLine]
@[simp] theorem untouched_writeBack (l : Nat) : (s.writeBack l).untouched = s.untouched := by simp [State.writeBack]
@[simp] theorem untouched_dropL1 (h l : Nat) : (s.dropL1 h l).untouched = s.untouched := by simp [State.dropL1]
@[simp] theorem untouched_passToL3 (h l : Nat) : (s.passToL3 h l).untouched = s.untouched := by simp [State.passToL3]
@[simp] theorem untouched_recallL2 (h l : Nat) : (s.recallL2 h l).untouched = s.untouched := by simp [State.recallL2]
@[simp] theorem untouched_dropL3 (l : Nat) : (s.dropL3 l).untouched = s.untouched := by simp [State.dropL3]

@[simp] theorem untouched_placeLine (s : State) (leave : Nat → State → State) (c : CacheId) (l mask : Nat) (st : Mesi) (dirty : Bool)
    (hl : ∀ n t, (leave n t).untouched = t.untouched) : (s.placeLine leave c l mask st dirty).untouched = s.untouched := by
  unfold State.placeLine
  dsimp only
  split
  · simp
  · split
    · rfl
    · split <;> simp [hl]

@[simp] theorem untouched_allocL3 (l mask : Nat) (st : Mesi) (dirty : Bool) :
    (s.allocL3 l mask st dirty).untouched = s.untouched := by simp [State.allocL3]
@[simp] theorem untouched_evictL2 (h l : Nat) : (s.evictL2 h l).untouched = s.untouched := by simp [State.evictL2]

@[simp] theorem untouched_allocate (c : CacheId) (l mask : Nat) (st : Mesi) (dirty : Bool) :
    (s.allocate c l mask st dirty).untouched = s.untouched := by
  unfold State.allocate
  split <;> simp

@[simp] theorem untouched_evict (c : CacheId) (l : Nat) : (s.evict c l).untouched = s.untouched := by
  unfold State.evict
  split <;> simp

@[simp] theorem untouched_snoop (kind l : Nat) (except : Option Nat) : (s.snoop kind l except).untouched = s.untouched := by simp [State.snoop]
@[simp] theorem untouched_filterRoom (l : Nat) : (s.filterRoom l).untouched = s.untouched := by simp [State.filterRoom]

@[simp] theorem untouched_hartFill (h l : Nat) (excl : Bool) : (s.hartFill h l excl).untouched = s.untouched := by
  unfold State.hartFill
  dsimp only
  repeat' split
  all_goals simp

@[simp] theorem untouched_hartL1 (h l : Nat) (fetch : Bool) : (s.hartL1 h l fetch).untouched = s.untouched := by
  unfold State.hartL1
  dsimp only
  split <;> simp

@[simp] theorem untouched_hartStore (h a : Nat) (bs : List Byte) : (s.hartStore h a bs).untouched = s.untouched := by simp [State.hartStore]
@[simp] theorem untouched_hartZero (h l : Nat) : (s.hartZero h l).untouched = s.untouched := by simp [State.hartZero]

/-! ### Operations of Machine/EccOps -/

@[simp] theorem untouched_dropSet (array unit l : Nat) : (s.dropSet array unit l).untouched = s.untouched := by simp [State.dropSet]
@[simp] theorem untouched_eccUncorrectable (array unit w source : Nat) (inj : Bool) :
    (s.eccUncorrectable array unit w source inj).untouched = s.untouched := by simp [State.eccUncorrectable]
@[simp] theorem untouched_eccWord (array unit w source : Nat) (up : List Nat) :
    (s.eccWord array unit w source up).untouched = s.untouched := by simp [State.eccWord]
@[simp] theorem untouched_eccLine (array unit l source word : Nat) (up : List Nat) :
    (s.eccLine array unit l source word up).untouched = s.untouched := by simp [State.eccLine]
@[simp] theorem untouched_checkBlockLost (l : Nat) : (s.checkBlockLost l).untouched = s.untouched := by simp [State.checkBlockLost]
@[simp] theorem untouched_eccAccess (who : Option Nat) (fetch : Bool) (a : Nat) :
    (s.eccAccess who fetch a).untouched = s.untouched := by simp [State.eccAccess]
@[simp] theorem untouched_readsArrays (who : Option Nat) (fetch : Bool) (a : Nat) :
    (s.readsArrays who fetch a).untouched = s.untouched := by simp [State.readsArrays]

/-! ### Operations of Machine/Coherent -/

@[simp] theorem untouched_coherentWrite (a : Nat) (bs : List Byte) (part : Option Nat) : (s.coherentWrite a bs part).1.untouched = s.untouched := by
  unfold State.coherentWrite
  dsimp only
  split <;> simp

@[simp] theorem untouched_coherentRead (a n : Nat) : (s.coherentRead a n).1.untouched = s.untouched := by simp [State.coherentRead]

/-! ### Operations of Machine/LoomOps -/

@[simp] theorem untouched_setTokens (i t out : Nat) : (s.setTokens i t out).untouched = s.untouched := by simp [State.setTokens]
@[simp] theorem untouched_setQuota (i t q : Nat) : (s.setQuota i t q).untouched = s.untouched := by simp [State.setQuota]

@[simp] theorem untouched_settleQuota (s : State) (t : Nat) : (s.settleQuota t).untouched = s.untouched := by
  unfold State.settleQuota
  dsimp only
  rw [untouched_forAll _ _ _ (fun e u => by split <;> rfl)]
  refine untouched_forEach _ _ _ fun i u => ?_
  split <;> simp

theorem untouched_takeToken {s t : State} {i n : Nat} (h : s.takeToken i n = some t) : t.untouched = s.untouched := by
  unfold State.takeToken at h
  dsimp only at h
  split at h
  · cases h
  · cases h; simp

@[simp] theorem untouched_returnToken (i t : Nat) : (s.returnToken i t).untouched = s.untouched := by simp [State.returnToken]
@[simp] theorem untouched_setAhead (i t n : Nat) : (s.setAhead i t n).untouched = s.untouched := by simp [State.setAhead]
@[simp] theorem untouched_seqGap (i t : Nat) : (s.seqGap i t).untouched = s.untouched := by simp [State.seqGap]
@[simp] theorem untouched_seqArrive (i t q : Nat) (guar : Bool) : (s.seqArrive i t q guar).untouched = s.untouched := by simp [State.seqArrive]
@[simp] theorem untouched_arrive (t : LoomTxn) : (s.arrive t).untouched = s.untouched := by simp [State.arrive]
@[simp] theorem untouched_liftEarlier (plane : Nat) (t : LoomTxn) (level : Nat) :
    (s.liftEarlier plane t level).untouched = s.untouched := by simp [State.liftEarlier]

@[simp] theorem untouched_inject (t : LoomTxn) : (s.inject t).untouched = s.untouched := by
  unfold State.inject
  split <;> simp

@[simp] theorem untouched_dropTxn (t : LoomTxn) : (s.dropTxn t).untouched = s.untouched := by
  unfold State.dropTxn
  split <;> simp

@[simp] theorem untouched_modTxn (i x : Nat) (f : LoomTxn → LoomTxn) : (s.modTxn i x f).untouched = s.untouched := by simp [State.modTxn]
@[simp] theorem untouched_count48 (v of : Fld) (n : Nat) : (s.count48 v of n).untouched = s.untouched := by simp [State.count48]
@[simp] theorem untouched_accumulate (v sat : Fld) (n : Nat) : (s.accumulate v sat n).untouched = s.untouched := by simp [State.accumulate]
@[simp] theorem untouched_statEnd (n role peer : Nat) (t : LoomTxn) (ok : Bool) (l : Nat) :
    (s.statEnd n role peer t ok l).untouched = s.untouched := by simp [State.statEnd]
@[simp] theorem untouched_statClear (n : Nat) : (s.statClear n).untouched = s.untouched := by simp [State.statClear]
@[simp] theorem untouched_loomTimeout (i t addr : Nat) : (s.loomTimeout i t addr).untouched = s.untouched := by simp [State.loomTimeout]
@[simp] theorem untouched_setQueued (r : Nat) (q : List LoomTxn) : (s.setQueued r q).untouched = s.untouched := by simp [State.setQueued]

@[simp] theorem untouched_pickInject (r p : Nat) (shed : Bool) : (s.pickInject r p shed).untouched = s.untouched := by
  unfold State.pickInject
  split <;> simp

@[simp] theorem untouched_countShed (r n : Nat) : (s.countShed r n).untouched = s.untouched := by simp [State.countShed]

@[simp] theorem untouched_screePick (r : Nat) : (s.screePick r).2.untouched = s.untouched := by
  unfold State.screePick
  dsimp only
  split <;> simp

@[simp] theorem untouched_probePulse (i sel : Nat) : (s.probePulse i sel).untouched = s.untouched := by simp [State.probePulse]
@[simp] theorem untouched_probeCount (i k n : Nat) : (s.probeCount i k n).untouched = s.untouched := by simp [State.probeCount]
@[simp] theorem untouched_probeCycles (n : Nat) : (s.probeCycles n).untouched = s.untouched := by simp [State.probeCycles]
@[simp] theorem untouched_takePick (p : Nat) : (s.takePick p).untouched = s.untouched := by simp [State.takePick]
@[simp] theorem untouched_pickTo (p : Nat) : (s.pickTo p).untouched = s.untouched := by simp [State.pickTo]
@[simp] theorem untouched_opPickStart (p : Nat) : (s.opPickStart p).untouched = s.untouched := by simp [State.opPickStart]
@[simp] theorem untouched_imageTxn (counts : Bool) (a : Nat) (ok : Bool) :
    (s.imageTxn counts a ok).untouched = s.untouched := by simp [State.imageTxn]

@[simp] theorem untouched_readImage (counts : Bool) (f : Nat) (s : State) (a o : Nat) (acc : List Byte) :
    (readImage counts f s a o acc).1.untouched = s.untouched := by
  induction f generalizing s o acc with
  | zero => rfl
  | succ f ih =>
    unfold readImage
    split
    · simp
    · split
      · rw [ih]
        simp [untouched_of_pair_fst ‹_› (untouched_coherentRead s (a + o) 64)]
      · simp [untouched_of_pair_fst ‹_› (untouched_coherentRead s (a + o) 64)]

@[simp] theorem untouched_commitRefused (ni : Nat) (v : DWord) (reason detail : Nat) :
    (s.commitRefused ni v reason detail).untouched = s.untouched := by simp [State.commitRefused]

@[simp] theorem untouched_opCommit (ni : Nat) (v : DWord) : (s.opCommit ni v).untouched = s.untouched := by
  unfold State.opCommit
  dsimp only
  split
  · simp
  · split
    · simp
    · split <;> simp

@[simp] theorem untouched_showTables (s : State)  : (s.showTables).untouched = s.untouched := by
  unfold State.showTables
  dsimp only
  rw [untouched_forEach]
  · simp
  · intro i t; split <;> simp

@[simp] theorem untouched_opSwap : s.opSwap.untouched = s.untouched := by
  unfold State.opSwap
  split <;> simp

@[simp] theorem untouched_shed : s.shed.untouched = s.untouched := by simp [State.shed]
@[simp] theorem untouched_opRoundBoundary : s.opRoundBoundary.untouched = s.untouched := by simp [State.opRoundBoundary]
@[simp] theorem untouched_opCommitSwap : s.opCommitSwap.untouched = s.untouched := by simp [State.opCommitSwap]

/-! ### Operations of Machine/Walk -/

theorem untouched_walkFrom {rd : State → Nat → State × PteRead} {wr : State → Nat → Nat → State × Option WalkFail}
    (hrd : ∀ s a, (rd s a).1.untouched = s.untouched) (hwr : ∀ s a v, (wr s a v).1.untouched = s.untouched) (st : Stage)
    (ok : Nat → Bool) (store : Bool) (i : Nat) (s : State) (table va : Nat) :
    (walkFrom rd wr st ok store i s table va).1.untouched = s.untouched := by
  induction i generalizing s table with
  | zero => rfl
  | succ i ih =>
    unfold walkFrom
    dsimp only
    have hr := hrd s (table + 8 * (va / 2 ^ (12 + 9 * i) % (if st.gstage && i + 1 == st.levels then 2048 else 512)))
    split
    · rename_i h; rw [h] at hr; exact hr
    · rename_i s1 pte pa h
      rw [h] at hr
      split
      · exact hr
      · split
        · rw [ih]; exact hr
        · split
          · exact hr
          · split
            · rename_i h2; split at h2
              · cases h2
              · exact (untouched_of_pair_fst h2 (hwr s1 _ _)).trans hr
            · rename_i h2; split at h2
              · cases h2; exact hr
              · exact (untouched_of_pair_fst h2 (hwr s1 _ _)).trans hr

theorem untouched_walk {rd : State → Nat → State × PteRead} {wr : State → Nat → Nat → State × Option WalkFail}
    (hrd : ∀ s a, (rd s a).1.untouched = s.untouched) (hwr : ∀ s a v, (wr s a v).1.untouched = s.untouched) (st : Stage)
    (ok : Nat → Bool) (store : Bool) (s : State) (va : Nat) : (walk rd wr st ok store s va).1.untouched = s.untouched := by
  unfold walk
  split
  · rfl
  · exact untouched_walkFrom hrd hwr st ok store _ s _ va

/-! ### Operations of Machine/HeddleOps -/

@[simp] theorem untouched_setHch (c : Nat) (k : HeddleChannel) : (s.setHch c k).untouched = s.untouched := by simp [State.setHch]
@[simp] theorem untouched_delHch (c : Nat) : (s.delHch c).untouched = s.untouched := by simp [State.delHch]
@[simp] theorem untouched_setHcq (q : Nat) (v : HeddleQueue) : (s.setHcq q v).untouched = s.untouched := by simp [State.setHcq]
@[simp] theorem untouched_setHinst (i : Nat) (v : HeddleInstance) : (s.setHinst i v).untouched = s.untouched := by simp [State.setHinst]
@[simp] theorem untouched_modHinst (i : Nat) (f : HeddleInstance → HeddleInstance) :
    (s.modHinst i f).untouched = s.untouched := by simp [State.modHinst]

@[simp] theorem untouched_writeShadows (c : Nat) : (s.writeShadows c).untouched = s.untouched := by
  unfold State.writeShadows
  split <;> simp

@[simp] theorem untouched_uncache (c : Nat) : (s.uncache c).untouched = s.untouched := by
  unfold State.uncache
  dsimp only
  split
  · simp
  · split <;> simp

@[simp] theorem untouched_fetchEntry (c : Nat) : (s.fetchEntry c).untouched = s.untouched := by simp [State.fetchEntry]

@[simp] theorem untouched_cacheChannel (c : Nat) : (s.cacheChannel c).1.untouched = s.untouched := by
  unfold State.cacheChannel
  dsimp only
  split
  · simp
  · split
    · simp
    · split <;> simp

@[simp] theorem untouched_touchChannel (c : Nat) : (s.touchChannel c).untouched = s.untouched := by simp [State.touchChannel]
@[simp] theorem untouched_dropTranslations (i : Nat) (page : Option Nat) :
    (s.dropTranslations i page).untouched = s.untouched := by simp [State.dropTranslations]

@[simp] theorem untouched_afterUnpin (c : Nat) : (s.afterUnpin c).untouched = s.untouched := by
  unfold State.afterUnpin
  split <;> simp

@[simp] theorem untouched_heddleRd (s : State) (a : Nat) : (heddleRd s a).1.untouched = s.untouched := by
  unfold heddleRd
  split
  · rfl
  · split <;> exact untouched_of_pair_fst ‹_› (by simp)

@[simp] theorem untouched_heddleWalkRd (i : Nat) (s : State) (a : Nat) : (heddleWalkRd i s a).1.untouched = s.untouched := by
  unfold heddleWalkRd
  split
  · rfl
  · split
    · have h := untouched_of_pair_fst ‹heddleRd s a = _› (untouched_heddleRd s a)
      split <;> simp [h]
    · exact untouched_heddleRd s a

@[simp] theorem untouched_holdIotlb (e : TlbEntry) : (s.holdIotlb e).untouched = s.untouched := by
  unfold State.holdIotlb
  dsimp only
  split <;> simp

@[simp] theorem untouched_heddleWr (prefetch : Bool) (part : Option Nat) (s : State) (a v : Nat) :
    (heddleWr prefetch part s a v).1.untouched = s.untouched := by
  unfold heddleWr
  split
  · rfl
  · split <;> exact untouched_of_pair_fst ‹_› (by simp)

@[simp] theorem untouched_heddleXlate (s : State) (i gpa : Nat) (write prefetch : Bool) :
    (s.heddleXlate i gpa write prefetch).1.untouched = s.untouched := by
  unfold State.heddleXlate
  split
  · rfl
  · split
    · rfl
    · split
      · rfl
      · have hw := fun st ok => untouched_walk (untouched_heddleWalkRd i) (untouched_heddleWr prefetch (s.heddlePart i)) st ok write s gpa
        split
        · exact untouched_of_pair_fst ‹_› (hw _ _)
        · have h := untouched_of_pair_fst ‹_› (hw _ _)
          split <;> simp [h]

@[simp] theorem untouched_heddleFault (c i gpa which : Nat) : (s.heddleFault c i gpa which).untouched = s.untouched := by simp [State.heddleFault]

theorem untouched_heddleReadPiece (c i which : Nat) (x : Xfer) (p : Nat × Nat) :
    (heddleReadPiece c i which x p).s.untouched = x.s.untouched := by
  unfold heddleReadPiece
  split
  · rfl
  · split
    · simp [untouched_of_pair_fst ‹_› (untouched_heddleXlate x.s _ _ _ _)]
    · have h := untouched_of_pair_fst ‹_› (untouched_heddleXlate x.s _ _ _ _)
      split
      · exact h
      · split
        · exact h
        · split <;> exact (untouched_of_pair_fst ‹_› (untouched_coherentRead _ _ _)).trans h

theorem untouched_transfers {f : Xfer → Nat × Nat → Xfer} (hf : ∀ x p, (f x p).s.untouched = x.s.untouched) (l : List (Nat × Nat)) (x : Xfer) :
    (l.foldl f x).s.untouched = x.s.untouched := by
  induction l generalizing x with
  | nil => rfl
  | cons p l ih => rw [List.foldl_cons, ih, hf]

@[simp] theorem untouched_heddleRead (s : State) (c i which a n : Nat) : (s.heddleRead c i which a n).s.untouched = s.untouched :=
  untouched_transfers (untouched_heddleReadPiece c i which) _ _

theorem untouched_heddleWritePiece (c i a0 : Nat) (bs : List Byte) (x : Xfer) (p : Nat × Nat) :
    (heddleWritePiece c i a0 bs x p).s.untouched = x.s.untouched := by
  unfold heddleWritePiece
  split
  · rfl
  · split
    · simp [untouched_of_pair_fst ‹_› (untouched_heddleXlate x.s _ _ _ _)]
    · have h := untouched_of_pair_fst ‹_› (untouched_heddleXlate x.s _ _ _ _)
      split
      · exact h
      · split <;> exact (untouched_of_pair_fst ‹_› (untouched_coherentWrite _ _ _ _)).trans h

@[simp] theorem untouched_heddleWrite (s : State) (c i a : Nat) (bs : List Byte) : (s.heddleWrite c i a bs).s.untouched = s.untouched :=
  untouched_transfers (untouched_heddleWritePiece c i a bs) _ _

@[simp] theorem untouched_readItem (c : Nat) (h : HeddleChannel) (k : Nat) (running : Bool) :
    (s.readItem c h k running).1.untouched = s.untouched := by
  unfold State.readItem
  dsimp only
  split <;> simp

@[simp] theorem untouched_putRecord (s : State) (c : Nat) (r : HeddleRecord) : (s.putRecord c r).untouched = s.untouched := by
  unfold State.putRecord
  split
  · rfl
  · extract_lets phase bs a s1 t s2
    have h1 : s1.untouched = s.untouched := by
      unfold s1
      split
      · simp [untouched_of_pair_fst ‹_› (untouched_heddleXlate s _ _ _ _)]
      · simp [untouched_of_pair_fst ‹_› (untouched_heddleXlate s _ _ _ _)]
    simp [s2, h1]

@[simp] theorem untouched_enterHalted (c : Nat) : (s.enterHalted c).untouched = s.untouched := by
  unfold State.enterHalted
  split <;> simp

@[simp] theorem untouched_postRecord (c : Nat) (r : HeddleRecord) : (s.postRecord c r).untouched = s.untouched := by
  unfold State.postRecord
  split <;> simp

@[simp] theorem untouched_drainRecords (n : Nat) (s : State) (c : Nat) : (drainRecords n s c).untouched = s.untouched := by
  induction n generalizing s with
  | zero => rfl
  | succ n ih =>
    unfold drainRecords
    split
    · rfl
    · split
      · rfl
      · split <;> simp [ih]

@[simp] theorem untouched_queueSpace (s : State) (q : Nat) : (s.queueSpace q).untouched = s.untouched := by
  refine untouched_forAll _ _ _ fun c t => ?_
  split <;> simp

@[simp] theorem untouched_ackMoves (c n : Nat) : (s.ackMoves c n).untouched = s.untouched := by
  unfold State.ackMoves
  split <;> simp

@[simp] theorem untouched_lateHome (i : Nat) (result : Bool) : (s.lateHome i result).untouched = s.untouched := by simp [State.lateHome]
@[simp] theorem untouched_setPipe (n : Nat) (p : UsbPipe) : (s.setPipe n p).untouched = s.untouched := by simp [State.setPipe]
@[simp] theorem untouched_setEp (e : Nat) (v : UsbEndpoint) : (s.setEp e v).untouched = s.untouched := by simp [State.setEp]
@[simp] theorem untouched_usbHalts (port st detail : Nat) : (s.usbHalts port st detail).untouched = s.untouched := by simp [State.usbHalts]
@[simp] theorem untouched_usbEnded (port st detail : Nat) : (s.usbEnded port st detail).untouched = s.untouched := by simp [State.usbEnded]

@[simp] theorem untouched_endItem (c : Nat) : (s.endItem c).untouched = s.untouched := by
  unfold State.endItem
  dsimp only
  repeat' split
  all_goals simp

@[simp] theorem untouched_decideItem (c idx st detail : Nat) : (s.decideItem c idx st detail).untouched = s.untouched := by
  unfold State.decideItem
  split <;> simp

@[simp] theorem untouched_modItem (c idx : Nat) (f : HeddleItem → HeddleItem) : (s.modItem c idx f).untouched = s.untouched := by
  unfold State.modItem
  split <;> simp

@[simp] theorem untouched_tookTurn (prio c : Nat) : (s.tookTurn prio c).untouched = s.untouched := by simp [State.tookTurn]

@[simp] theorem untouched_progress (c idx : Nat) (f : HeddleItem → HeddleItem) : (s.progress c idx f).untouched = s.untouched := by
  unfold State.progress
  split <;> simp

@[simp] theorem untouched_moveCorrupt (c : Nat) (k : HeddleChannel) (it : HeddleItem) (injected : Bool) :
    (s.moveCorrupt c k it injected).untouched = s.untouched := by simp [State.moveCorrupt]

theorem untouched_takeShot {s t : State} {c : Nat} {k : HeddleChannel} {it : HeddleItem} (h : s.takeShot c k it = some t) :
    t.untouched = s.untouched := by
  obtain ⟨x, _, rfl⟩ := Option.map_eq_some_iff.1 h
  simp

@[simp] theorem untouched_portError (kind port detail : Nat) : (s.portError kind port detail).untouched = s.untouched := by
  unfold State.portError
  dsimp only
  split
  · simp
  · split <;> simp

@[simp] theorem untouched_takeHeld (c : Nat) : (s.takeHeld c).untouched = s.untouched := by
  unfold State.takeHeld
  dsimp only
  split
  · simp
  · split
    · simp
    · split <;> simp

@[simp] theorem untouched_startItem (c idx : Nat) : (s.startItem c idx).untouched = s.untouched := by simp [State.startItem]

@[simp] theorem untouched_dbCount (c : Option Nat) : (s.dbCount c).untouched = s.untouched := by
  unfold State.dbCount
  split <;> simp

@[simp] theorem untouched_dbError (c : Option Nat) : (s.dbError c).untouched = s.untouched := by simp [State.dbError]
@[simp] theorem untouched_dbRefused (i : Nat) : (s.dbRefused i).untouched = s.untouched := by simp [State.dbRefused]

@[simp] theorem untouched_setPending (c : Nat) : (s.setPending c).untouched = s.untouched := by
  unfold State.setPending
  split <;> simp

@[simp] theorem untouched_kick (c : Nat) : (s.kick c).untouched = s.untouched := by
  unfold State.kick
  split <;> simp

@[simp] theorem untouched_kickOrHold (c : Nat) (reed : Bool) : (s.kickOrHold c reed).untouched = s.untouched := by simp [State.kickOrHold]

/-! ### Operations of Machine/KeyOps -/

@[simp] theorem untouched_otpSet (i bits : Nat) : (s.otpSet i bits).untouched = s.untouched := by simp [State.otpSet]

@[simp] theorem untouched_otpProgram (i bits : Nat) (cut : Option (BitVec 32)) : (s.otpProgram i bits cut).untouched = s.untouched := by
  unfold State.otpProgram
  split <;> simp

@[simp] theorem untouched_refuseFree (ni a reason : Nat) (v : DWord) :
    (s.refuseFree ni a reason v).untouched = s.untouched := by simp [State.refuseFree]

@[simp] theorem untouched_opOtpCtrl (ni : Nat) (v : DWord) (cut : Option (BitVec 32)) : (s.opOtpCtrl ni v cut).untouched = s.untouched := by
  unfold State.opOtpCtrl
  dsimp only
  repeat' split
  all_goals simp

@[simp] theorem untouched_setSlot (n : Nat) (key : List Byte) (usage : Nat) :
    (s.setSlot n key usage).untouched = s.untouched := by simp [State.setSlot]
@[simp] theorem untouched_clearSlot (n : Nat) : (s.clearSlot n).untouched = s.untouched := by simp [State.clearSlot]
@[simp] theorem untouched_generate : s.generate.untouched = s.untouched := by simp [State.generate]

theorem untouched_takeBlocks {s t : State} {n : Nat} {bs : List Byte} (h : s.takeBlocks n = some (bs, t)) : t.untouched = s.untouched := by
  simp only [State.takeBlocks, Option.ite_none_left_eq_some, Option.some.injEq, Prod.mk.injEq] at h
  obtain ⟨_, _, rfl⟩ := h
  rfl

@[simp] theorem untouched_blocksNow (s : State) (n : Nat) : (s.blocksNow n).2.untouched = s.untouched := by
  unfold State.blocksNow
  split
  · exact untouched_takeBlocks ‹_›
  · split
    · simp [untouched_takeBlocks ‹_›]
    · rfl

@[simp] theorem untouched_slotEffect (op n src usage : Nat) : (s.slotEffect op n src usage).untouched = s.untouched := by
  unfold State.slotEffect
  dsimp only
  repeat' split
  all_goals simp

@[simp] theorem untouched_opSlotCmd (ni : Nat) (v : DWord) : (s.opSlotCmd ni v).untouched = s.untouched := by
  unfold State.opSlotCmd
  dsimp only
  split
  · simp
  · split <;> simp

@[simp] theorem untouched_drbgZero : s.drbgZero.untouched = s.untouched := by simp [State.drbgZero]
@[simp] theorem untouched_trngEnable (on : Bool) : (s.trngEnable on).untouched = s.untouched := by simp [State.trngEnable]

@[simp] theorem untouched_opTrngData : s.opTrngData.1.untouched = s.untouched := by
  unfold State.opTrngData
  dsimp only
  split <;> simp

@[simp] theorem untouched_opTrngRaw : s.opTrngRaw.1.untouched = s.untouched := by
  unfold State.opTrngRaw
  split <;> simp

/-! ### Operations of Machine/CryptoOps -/

@[simp] theorem untouched_engineShows (g : Engine) (c : Nat) (e : HeddleEntry) : (s.engineShows g c e).untouched = s.untouched := by
  unfold State.engineShows
  split <;> simp

@[simp] theorem untouched_engineIdle (g : Engine) : (s.engineIdle g).untouched = s.untouched := by simp [State.engineIdle]
@[simp] theorem untouched_engineEnd (g : Engine) (c : Nat) (e : HeddleEntry) (idx st detail : Nat) :
    (s.engineEnd g c e idx st detail).untouched = s.untouched := by simp [State.engineEnd]

theorem untouched_askEntropy {s t : State} {n : Nat} {bs : List Byte} (h : s.askEntropy n = .blocks bs t) : t.untouched = s.untouched := by
  unfold State.askEntropy at h
  simp only [] at h
  split at h
  · cases h
  · split at h
    · split at h
      · cases h
      · split at h
        · cases h; exact untouched_takeBlocks ‹_›
        · cases h
    · cases h

@[simp] theorem untouched_setAesIv (e : Nat) (iv : List Byte) : (s.setAesIv e iv).untouched = s.untouched := by simp [State.setAesIv]
@[simp] theorem untouched_setAesTag (e : Nat) (tag : List Byte) : (s.setAesTag e tag).untouched = s.untouched := by simp [State.setAesTag]

@[simp] theorem untouched_engineOut (g : Engine) (c : Nat) (k : HeddleChannel) (it : HeddleItem) (out : List Byte) (st detail : Nat) :
    (s.engineOut g c k it out st detail).untouched = s.untouched := by
  unfold State.engineOut
  dsimp only
  split <;> simp

@[simp] theorem untouched_aesRun (c : Nat) (k : HeddleChannel) (it : HeddleItem) (key data : List Byte) (drawn : Option (List Byte)) :
    (s.aesRun c k it key data drawn).untouched = s.untouched := by
  unfold State.aesRun
  dsimp only
  repeat' split
  all_goals simp

@[simp] theorem untouched_waitEntropy (w : EntropyWait) : (s.waitEntropy w).untouched = s.untouched := by simp [State.waitEntropy]
@[simp] theorem untouched_engineWait (g : Engine) (c : Nat) (e : HeddleEntry) (idx n : Nat) :
    (s.engineWait g c e idx n).untouched = s.untouched := by simp [State.engineWait]

@[simp] theorem untouched_aesItem (s : State) (c : Nat) (k : HeddleChannel) (it : HeddleItem) (bs : Option (List Byte)) :
    (s.aesItem c k it bs).untouched = s.untouched := by
  unfold State.aesItem
  extract_lets g
  split
  · simp
  · split
    · simp
    · extract_lets go
      have hgo (t : State) (d : Option (List Byte)) : (go t d).untouched = t.untouched := by
        simp only [go]
        split <;> simp
      split
      · exact hgo s none
      · split
        · exact hgo s _
        · split
          · simp [hgo, untouched_askEntropy ‹_›]
          · simp
          · simp

@[simp] theorem untouched_setHashChain (e : Nat) (h : Option HashChain) : (s.setHashChain e h).untouched = s.untouched := by simp [State.setHashChain]

@[simp] theorem untouched_hashItem (c : Nat) (k : HeddleChannel) (it : HeddleItem) : (s.hashItem c k it).untouched = s.untouched := by
  unfold State.hashItem
  dsimp only
  split
  · simp
  · split
    · simp
    · split <;> simp

@[simp] theorem untouched_pkaRun (s : State) (j : PkaJob) (ent : List Byte) : (s.pkaRun j ent).1.untouched = s.untouched := by
  unfold State.pkaRun
  split
  · rfl
  · split
    · rfl
    · split <;> simp

@[simp] theorem untouched_pkaItem (s : State) (c : Nat) (k : HeddleChannel) (it : HeddleItem) (bs : Option (List Byte)) :
    (s.pkaItem c k it bs).untouched = s.untouched := by
  unfold State.pkaItem
  extract_lets g
  split
  · rfl
  · split
    · simp
    · split
      · simp
      · rename_i need go _ _ _ _ _
        have hgo (t : State) (ent : List Byte) : (go t ent).untouched = t.untouched := by
          simp only [go]
          split
          · simp
          · split <;> simp [untouched_of_pair_fst ‹_› (untouched_pkaRun _ _ _)]
        split
        · exact hgo s []
        · split
          · exact hgo s _
          · split
            · simp [hgo, untouched_askEntropy ‹_›]
            · simp
            · simp

@[simp] theorem untouched_engineItem (c : Nat) (k : HeddleChannel) (it : HeddleItem) (bs : Option (List Byte)) :
    (s.engineItem c k it bs).untouched = s.untouched := by simp [State.engineItem]

@[simp] theorem untouched_cryptoItem (s : State) (c : Nat) (bs : Option (List Byte)) : (s.cryptoItem c bs).untouched = s.untouched := by
  unfold State.cryptoItem
  split
  · rfl
  · cases h : s.takeShot c _ _ with
    | none => simp
    | some t => simp [untouched_takeShot h]

@[simp] theorem untouched_pkaCmdResult (r : Nat) (out : List Byte) : (s.pkaCmdResult r out).untouched = s.untouched := by simp [State.pkaCmdResult]

@[simp] theorem untouched_pkaCmdRun (s : State) (bs : Option (List Byte)) : (s.pkaCmdRun bs).untouched = s.untouched := by
  unfold State.pkaCmdRun
  extract_lets j go
  have hgo (t : State) (ent : List Byte) : (go t ent).untouched = t.untouched := by
    simp only [go]
    split <;> simp [untouched_of_pair_fst ‹_› (untouched_pkaRun _ _ _)]
  split
  · rfl
  iterate 3 (split; · simp)
  split
  · exact hgo s []
  · split
    · exact hgo s _
    · split
      · simp [hgo, untouched_askEntropy ‹_›]
      · simp
      · simp

@[simp] theorem untouched_opPkaCmd (ni : Nat) (v : DWord) : (s.opPkaCmd ni v).untouched = s.untouched := by simp [State.opPkaCmd]
@[simp] theorem untouched_pkaTurn : s.pkaTurn.untouched = s.untouched := by simp [State.pkaTurn]

@[simp] theorem untouched_opPkaDone (s : State) (us : Nat) : (s.opPkaDone us).untouched = s.untouched := by
  unfold State.opPkaDone
  extract_lets s1
  have h1 : s1.untouched = s.untouched := by simp [s1]
  split
  · exact h1
  · extract_lets m2 t1 t2 _
    calc _ = t2.untouched := by simp
      _ = t1.untouched := by simp [t2]
      _ = s1.untouched := by simp [t1]
      _ = s.untouched := h1

@[simp] theorem untouched_fillChallenge (s : State) (bs : List Byte) : (s.fillChallenge bs).untouched = s.untouched := by
  unfold State.fillChallenge
  rw [State.untouched_mk, State.untouched_fold]
  simp

@[simp] theorem untouched_serveEntropy (n : Nat) (s : State) : (serveEntropy n s).untouched = s.untouched := by
  induction n generalizing s with
  | zero => rfl
  | succ n ih =>
    unfold serveEntropy
    split
    · rfl
    · dsimp only
      split
      · rfl
      · split
        · rfl
        · rw [ih]
          split <;> simp [untouched_takeBlocks ‹_›]

@[simp] theorem untouched_serveWaiting : s.serveWaiting.untouched = s.untouched := by simp [State.serveWaiting]
@[simp] theorem untouched_opGenerate (ms : Nat) (fresh : Bool) : (s.opGenerate ms fresh).untouched = s.untouched := by simp [State.opGenerate]
@[simp] theorem untouched_opTrngReady (rate : Nat) : (s.opTrngReady rate).untouched = s.untouched := by simp [State.opTrngReady]

@[simp] theorem untouched_failWaiting (s : State) (fatal : Bool) : (s.failWaiting fatal).untouched = s.untouched := by
  refine untouched_forAll _ _ _ fun w t => ?_
  split
  · split <;> simp
  · simp
  · simp

@[simp] theorem untouched_opHealthFail (test ms : Nat) (inj : Bool) :
    (s.opHealthFail test ms inj).untouched = s.untouched := by simp [State.opHealthFail]
@[simp] theorem untouched_opKatGo (ni a : Nat) (g : Engine) (v : DWord) : (s.opKatGo ni a g v).untouched = s.untouched := by simp [State.opKatGo]
@[simp] theorem untouched_opKatDone (g : Engine) (pass : Bool) : (s.opKatDone g pass).untouched = s.untouched := by simp [State.opKatDone]
@[simp] theorem untouched_cryptoAbort (c : Nat) (e : HeddleEntry) : (s.cryptoAbort c e).untouched = s.untouched := by simp [State.cryptoAbort]

@[simp] theorem untouched_eraseKeys (s : State) : (s.eraseKeys).untouched = s.untouched := by
  unfold State.eraseKeys
  extract_lets running s1 s2 _ s3 s4
  have h1 : s1.untouched = s.untouched := by
    refine untouched_forAll _ _ _ fun e t => ?_
    split <;> simp
  simp [s4, s3, s2, h1]

/-! ### Operations of Machine/ResetOps -/

@[simp] theorem untouched_resetRegs (keep : Nat → DWord) : (s.resetRegs keep).untouched = s.untouched := by simp [State.resetRegs]
@[simp] theorem untouched_restoreStale : s.restoreStale.untouched = s.untouched := by simp [State.restoreStale]
@[simp] theorem untouched_finishCommit : s.finishCommit.untouched = s.untouched := by simp [State.finishCommit]

@[simp] theorem untouched_rollback (s : State) : (s.rollback).untouched = s.untouched := by
  unfold State.rollback
  split
  extract_lets q heads undo s2 _ s3
  have h2 : s2.untouched = s.untouched := by
    refine (untouched_forAll _ _ _ fun i t => ?_).trans (untouched_of_pair_snd ‹_› (by simp))
    split <;> rfl
  simp [s3, h2]

@[simp] theorem untouched_latchOtp : s.latchOtp.untouched = s.untouched := by simp [State.latchOtp]
@[simp] theorem untouched_landRequests : s.landRequests.untouched = s.untouched := by simp [State.landRequests]
@[simp] theorem untouched_startReset (cause : Nat) (powerOn : Bool) :
    (s.startReset cause powerOn).untouched = s.untouched := by simp [State.startReset]

@[simp] theorem untouched_goDark (s : State) (phase : PowerPhase) : (s.goDark phase).untouched = s.untouched := by
  unfold State.goDark
  extract_lets s1 _ s2 s3
  calc _ = s3.untouched := by simp
    _ = s2.untouched := by simp [s3]
    _ = s1.untouched := by simp [s2]
    _ = s.untouched := by simp [s1]

@[simp] theorem untouched_noteAon : s.noteAon.untouched = s.untouched := by simp [State.noteAon]
@[simp] theorem untouched_loseAon : s.loseAon.untouched = s.untouched := by simp [State.loseAon]
@[simp] theorem untouched_powerUp (cause : Nat) (fromBivouac : Bool) :
    (s.powerUp cause fromBivouac).untouched = s.untouched := by simp [State.powerUp]
@[simp] theorem untouched_startHarts (pc : Nat) : (s.startHarts pc).untouched = s.untouched := by simp [State.startHarts]
@[simp] theorem untouched_loadSlot (n word usage : Nat) : (s.loadSlot n word usage).untouched = s.untouched := by simp [State.loadSlot]
@[simp] theorem untouched_loadSlots : s.loadSlots.untouched = s.untouched := by simp [State.loadSlots]
@[simp] theorem untouched_attachService : s.attachService.untouched = s.untouched := by simp [State.attachService]
@[simp] theorem untouched_detachService : s.detachService.untouched = s.untouched := by simp [State.detachService]
@[simp] theorem untouched_enterRecovery : s.enterRecovery.untouched = s.untouched := by simp [State.enterRecovery]

@[simp] theorem untouched_bootHarts : s.bootHarts.untouched = s.untouched := by
  unfold State.bootHarts
  dsimp only
  split <;> simp

/-! ### Operations of Machine/PowerOps -/

@[simp] theorem untouched_modPower (f : PowerState → PowerState) : (s.modPower f).untouched = s.untouched := by simp [State.modPower]
@[simp] theorem untouched_latchWake (bit : Nat) : (s.latchWake bit).untouched = s.untouched := by simp [State.latchWake]
@[simp] theorem untouched_startSwitch : s.startSwitch.untouched = s.untouched := by simp [State.startSwitch]
@[simp] theorem untouched_opPwrReq (ni : Nat) (v : DWord) : (s.opPwrReq ni v).untouched = s.untouched := by simp [State.opPwrReq]
@[simp] theorem untouched_opPwrPfail (ni : Nat) (v : DWord) : (s.opPwrPfail ni v).untouched = s.untouched := by simp [State.opPwrPfail]
@[simp] theorem untouched_opSnapCtrl (ni : Nat) (v : DWord) : (s.opSnapCtrl ni v).untouched = s.untouched := by simp [State.opSnapCtrl]
@[simp] theorem untouched_opMeasCtrl (ni : Nat) (v : DWord) : (s.opMeasCtrl ni v).untouched = s.untouched := by simp [State.opMeasCtrl]
@[simp] theorem untouched_opResetReq (ni : Nat) (v : DWord) : (s.opResetReq ni v).untouched = s.untouched := by simp [State.opResetReq]
@[simp] theorem untouched_fireAlarm : s.fireAlarm.untouched = s.untouched := by simp [State.fireAlarm]
@[simp] theorem untouched_opRtc (ni a : Nat) (v : DWord) : (s.opRtc ni a v).untouched = s.untouched := by simp [State.opRtc]
@[simp] theorem untouched_firePeriod : s.firePeriod.untouched = s.untouched := by simp [State.firePeriod]
@[simp] theorem untouched_rtcTicks (n : Nat) : (s.rtcTicks n).untouched = s.untouched := by simp [State.rtcTicks]
@[simp] theorem untouched_opTamper (n : Nat) : (s.opTamper n).untouched = s.untouched := by simp [State.opTamper]
@[simp] theorem untouched_opClkAon (ni : Nat) (v : DWord) : (s.opClkAon ni v).untouched = s.untouched := by simp [State.opClkAon]
@[simp] theorem untouched_thermForce : s.thermForce.untouched = s.untouched := by simp [State.thermForce]
@[simp] theorem untouched_opPwrTherm (ni : Nat) (v : DWord) : (s.opPwrTherm ni v).untouched = s.untouched := by simp [State.opPwrTherm]
@[simp] theorem untouched_readTj (tj : Nat) : (s.readTj tj).untouched = s.untouched := by simp [State.readTj]
@[simp] theorem untouched_clockStop (act : Nat) : (s.clockStop act).untouched = s.untouched := by simp [State.clockStop]
@[simp] theorem untouched_cleanCaches : s.cleanCaches.untouched = s.untouched := by simp [State.cleanCaches]
@[simp] theorem untouched_selfRefresh : s.selfRefresh.untouched = s.untouched := by simp [State.selfRefresh]

/-! ### Operations of Machine/SuperviseOps -/

@[simp] theorem untouched_modBelay (f : BelayState → BelayState) : (s.modBelay f).untouched = s.untouched := by simp [State.modBelay]
@[simp] theorem untouched_opBelayArm (ni : Nat) (v : DWord) : (s.opBelayArm ni v).untouched = s.untouched := by simp [State.opBelayArm]
@[simp] theorem untouched_clearPend (src : Nat) : (s.clearPend src).untouched = s.untouched := by simp [State.clearPend]
@[simp] theorem untouched_opPendClear (ni : Nat) (v : DWord) : (s.opPendClear ni v).untouched = s.untouched := by simp [State.opPendClear]
@[simp] theorem untouched_releaseFaultN (ms : Nat) : (s.releaseFaultN ms).untouched = s.untouched := by simp [State.releaseFaultN]

@[simp] theorem untouched_belayReset : s.belayReset.untouched = s.untouched := by
  unfold State.belayReset
  split <;> simp

@[simp] theorem untouched_startSelftest : s.startSelftest.untouched = s.untouched := by
  unfold State.startSelftest
  split <;> simp

@[simp] theorem untouched_opSelftest (ni : Nat) (v : DWord) : (s.opSelftest ni v).untouched = s.untouched := by simp [State.opSelftest]

@[simp] theorem untouched_endSelftest (pass : Bool) : (s.endSelftest pass).untouched = s.untouched := by
  unfold State.endSelftest
  split <;> simp

@[simp] theorem untouched_opBelaySoft (ni : Nat) (v : DWord) : (s.opBelaySoft ni v).untouched = s.untouched := by simp [State.opBelaySoft]

@[simp] theorem untouched_takeReference (index : Nat) : (s.takeReference index).untouched = s.untouched := by
  unfold State.takeReference
  split <;> simp

@[simp] theorem untouched_comparePage (index ref : Nat) : (s.comparePage index ref).untouched = s.untouched := by simp [State.comparePage]

@[simp] theorem untouched_upsetField (a bit : Nat) : (s.upsetField a bit).untouched = s.untouched := by
  unfold State.upsetField
  split <;> simp

@[simp] theorem untouched_crcPass (us : Nat) : (s.crcPass us).untouched = s.untouched := by simp [State.crcPass]
@[simp] theorem untouched_showMonitor (target : Nat) (good : Bool) :
    (s.showMonitor target good).untouched = s.untouched := by simp [State.showMonitor]

@[simp] theorem untouched_monitorEvent (target : Nat) (k : MonitorEvent) : (s.monitorEvent target k).untouched = s.untouched := by
  unfold State.monitorEvent
  dsimp only
  split
  · simp
  · split <;> simp

@[simp] theorem untouched_wdogRestart (n : Nat) : (s.wdogRestart n).untouched = s.untouched := by simp [State.wdogRestart]
@[simp] theorem untouched_wdogExpire (n : Nat) : (s.wdogExpire n).untouched = s.untouched := by simp [State.wdogExpire]
@[simp] theorem untouched_opWdogCtrl (ni n : Nat) (v : DWord) : (s.opWdogCtrl ni n v).untouched = s.untouched := by simp [State.opWdogCtrl]
@[simp] theorem untouched_opWdogKick (ni n : Nat) (v : DWord) (ms : Nat) :
    (s.opWdogKick ni n v ms).untouched = s.untouched := by simp [State.opWdogKick]
@[simp] theorem untouched_wdogWarn (n : Nat) : (s.wdogWarn n).untouched = s.untouched := by simp [State.wdogWarn]
@[simp] theorem untouched_screeEnd : s.screeEnd.untouched = s.untouched := by simp [State.screeEnd]
@[simp] theorem untouched_shotApplied (off : Nat) : (s.shotApplied off).untouched = s.untouched := by simp [State.shotApplied]
@[simp] theorem untouched_shotMissed : s.shotMissed.untouched = s.untouched := by simp [State.shotMissed]
@[simp] theorem untouched_eccGo : s.eccGo.untouched = s.untouched := by simp [State.eccGo]

@[simp] theorem untouched_screeGo (s : State) (ni a : Nat) (go : Fld) (v : DWord) (f : State → State)
    (hf : ∀ t, (f t).untouched = t.untouched) : (s.screeGo ni a go v f).untouched = s.untouched := by
  simp [State.screeGo, hf]

@[simp] theorem untouched_opEccGo (ni : Nat) (v : DWord) : (s.opEccGo ni v).untouched = s.untouched := by simp [State.opEccGo]
@[simp] theorem untouched_opLockstepGo (ni : Nat) (v : DWord) : (s.opLockstepGo ni v).untouched = s.untouched := by simp [State.opLockstepGo]
@[simp] theorem untouched_opDupGo (ni : Nat) (v : DWord) : (s.opDupGo ni v).untouched = s.untouched := by simp [State.opDupGo]

@[simp] theorem untouched_opCrcGo (s : State) (ni : Nat) (v : DWord) : (s.opCrcGo ni v).untouched = s.untouched := by
  refine untouched_screeGo _ _ _ _ _ _ fun t => ?_
  dsimp only
  split <;> simp

@[simp] theorem untouched_opMonGo (ni : Nat) (v : DWord) : (s.opMonGo ni v).untouched = s.untouched := by simp [State.opMonGo]
@[simp] theorem untouched_opEntropyGo (ni ms : Nat) (v : DWord) : (s.opEntropyGo ni ms v).untouched = s.untouched := by simp [State.opEntropyGo]

/-! ### Operations of Machine/Bobbin -/

@[simp] theorem untouched_setBobJob (c : Nat) (j : BobbinJob) : (s.setBobJob c j).untouched = s.untouched := by simp [State.setBobJob]

@[simp] theorem untouched_bobStart (c : Nat) (k : HeddleChannel) (it : HeddleItem) : (s.bobStart c k it).untouched = s.untouched := by
  unfold State.bobStart
  split <;> simp

@[simp] theorem untouched_bobTurn (prio c : Nat) : (s.bobTurn prio c).untouched = s.untouched := by simp [State.bobTurn]
@[simp] theorem untouched_bobCorrupt (c idx detail : Nat) : (s.bobCorrupt c idx detail).untouched = s.untouched := by simp [State.bobCorrupt]
@[simp] theorem untouched_bobFinish (c idx : Nat) (j : BobbinJob) (encode : Bool) (rest : Nat) :
    (s.bobFinish c idx j encode rest).untouched = s.untouched := by simp [State.bobFinish]

@[simp] theorem untouched_bobWrite (c : Nat) (k : HeddleChannel) (it : HeddleItem) (taken : Nat) (out : List Byte) :
    (s.bobWrite c k it taken out).1.untouched = s.untouched := by
  unfold State.bobWrite
  dsimp only
  split
  · simp
  · split <;> simp

@[simp] theorem untouched_bobEncodeBlock (s : State) (c : Nat) (k : HeddleChannel) (it : HeddleItem) (j : BobbinJob) :
    (s.bobEncodeBlock c k it j).untouched = s.untouched := by
  unfold State.bobEncodeBlock
  dsimp only
  split
  · simp
  · split
    · simp
    · split
      · simp [untouched_of_pair_fst ‹_› (untouched_bobWrite _ _ _ _ _ _)]
      · simp [untouched_of_pair_fst ‹_› (untouched_bobWrite _ _ _ _ _ _)]

@[simp] theorem untouched_bobDecodeBlock (s : State) (c : Nat) (k : HeddleChannel) (it : HeddleItem) (j : BobbinJob) :
    (s.bobDecodeBlock c k it j).untouched = s.untouched := by
  unfold State.bobDecodeBlock
  dsimp only
  split
  · simp
  · split
    · simp
    · split
      · simp
      · split
        · simp
        · split
          · simp
          · split
            · simp
            · split
              · simp
              · split
                · simp
                · have h := untouched_bobWrite
                  split
                  · exact (untouched_of_pair_fst ‹_› (h _ _ _ _ _ _)).trans (by simp)
                  · simp [untouched_of_pair_fst ‹_› (h _ _ _ _ _ _)]

@[simp] theorem untouched_opBobbinBlock (s : State) (c : Nat) : (s.opBobbinBlock c).untouched = s.untouched := by
  unfold State.opBobbinBlock
  split
  · rfl
  · split
    · simp
    · split
      · rfl
      · split
        · exact untouched_takeShot ‹_›
        · dsimp only
          split <;> simp

@[simp] theorem untouched_bobbinBlocks (n : Nat) (s : State) (c idx : Nat) : (bobbinBlocks n s c idx).untouched = s.untouched := by
  induction n generalizing s with
  | zero => rfl
  | succ n ih =>
    unfold bobbinBlocks
    split <;> simp [ih]

@[simp] theorem untouched_opCodec (c op : Nat) : (s.opCodec c op).untouched = s.untouched := by
  unfold State.opCodec
  split <;> simp

@[simp] theorem untouched_bobbinStop (s : State) : (s.bobbinStop).untouched = s.untouched := by
  refine untouched_forAll _ _ _ fun j t => ?_
  split <;> simp

@[simp] theorem untouched_bobbinAbort (c : Nat) : (s.bobbinAbort c).untouched = s.untouched := by simp [State.bobbinAbort]

/-! ### Operations of Machine/FieldOps -/

@[simp] theorem untouched_ioItemAny (s : State) (kind port legalParam : Nat) : (s.ioItemAny kind port legalParam).1.untouched = s.untouched := by
  unfold State.ioItemAny
  split <;> simp

@[simp] theorem untouched_ioItem (s : State) (kind port legalParam : Nat) : (s.ioItem kind port legalParam).1.untouched = s.untouched := by
  unfold State.ioItem
  split
  · exact untouched_of_pair_fst ‹_› (by simp)
  · have h := untouched_of_pair_fst ‹_› (untouched_ioItemAny s _ _ _)
    split
    · exact h
    · split
      · exact (untouched_takeShot ‹_›).trans h
      · exact h

@[simp] theorem untouched_ioStopPort (kind port : Nat) : (s.ioStopPort kind port).untouched = s.untouched := by
  unfold State.ioStopPort
  split <;> simp

@[simp] theorem untouched_setPtp (t : Nat) : (s.setPtp t).untouched = s.untouched := by simp [State.setPtp]
@[simp] theorem untouched_ptpReached : s.ptpReached.untouched = s.untouched := by simp [State.ptpReached]
@[simp] theorem untouched_ptpForward (t : Nat) : (s.ptpForward t).untouched = s.untouched := by simp [State.ptpForward]
@[simp] theorem untouched_ptpTicks (n : Nat) : (s.ptpTicks n).untouched = s.untouched := by simp [State.ptpTicks]
@[simp] theorem untouched_ptpElapse (n : Nat) : (s.ptpElapse n).untouched = s.untouched := by simp [State.ptpElapse]
@[simp] theorem untouched_opPtpTime (ni : Nat) (v : DWord) : (s.opPtpTime ni v).untouched = s.untouched := by simp [State.opPtpTime]
@[simp] theorem untouched_opPtpStep (ni : Nat) (v : DWord) : (s.opPtpStep ni v).untouched = s.untouched := by simp [State.opPtpStep]
@[simp] theorem untouched_ptpLatch : s.ptpLatch.untouched = s.untouched := by simp [State.ptpLatch]
@[simp] theorem untouched_setEth (n : Nat) (m : EthMac) : (s.setEth n m).untouched = s.untouched := by simp [State.setEth]
@[simp] theorem untouched_ethDrop (n k : Nat) : (s.ethDrop n k).untouched = s.untouched := by simp [State.ethDrop]
@[simp] theorem untouched_opPause (n quanta : Nat) : (s.opPause n quanta).untouched = s.untouched := by simp [State.opPause]
@[simp] theorem untouched_opEthRx (n : Nat) (f : List Byte) (fcsOk : Bool) : (s.opEthRx n f fcsOk).untouched = s.untouched := by simp [State.opEthRx]

@[simp] theorem untouched_ethDeliver (n : Nat) (x : EthFrame) : (s.ethDeliver n x).1.untouched = s.untouched := by
  unfold State.ethDeliver
  dsimp only
  split
  · simp
  · split <;> simp

@[simp] theorem untouched_opEthItem (s : State) (n : Nat) : (s.opEthItem n).untouched = s.untouched := by
  unfold State.opEthItem
  dsimp only
  split
  · exact untouched_of_pair_fst ‹_› (by simp)
  · have h := untouched_of_pair_fst ‹_› (untouched_ioItem s _ _ _)
    split
    · exact h
    · split
      · exact h
      · split <;> simp [h]

@[simp] theorem untouched_ethFrameOut (f : List Byte) (param : Nat) : (s.ethFrameOut f param).1.untouched = s.untouched := by simp [State.ethFrameOut]

@[simp] theorem untouched_ethLoad (s : State) (n : Nat) : (s.ethLoad n).untouched = s.untouched := by
  unfold State.ethLoad
  split
  · exact untouched_of_pair_fst ‹_› (by simp)
  · have h := untouched_of_pair_fst ‹_› (untouched_ioItem s _ _ _)
    split
    · exact h
    · split
      · simp [h]
      · dsimp only
        split <;> simp [h]

@[simp] theorem untouched_ethLeave (n c : Nat) (k : HeddleChannel) (it : HeddleItem) : (s.ethLeave n c k it).untouched = s.untouched := by
  unfold State.ethLeave
  dsimp only
  split
  · simp
  · split <;> simp

@[simp] theorem untouched_opEthTx (n : Nat) : (s.opEthTx n).untouched = s.untouched := by
  unfold State.opEthTx
  dsimp only
  split <;> simp

@[simp] theorem untouched_ethAbort (n : Nat) (tx : Bool) (it : Option HeddleItem) :
    (s.ethAbort n tx it).untouched = s.untouched := by simp [State.ethAbort]
@[simp] theorem untouched_opMdio (ni n : Nat) (v : DWord) (answer : Nat) : (s.opMdio ni n v answer).untouched = s.untouched := by simp [State.opMdio]
@[simp] theorem untouched_setUart (n : Nat) (u : UartPort) : (s.setUart n u).untouched = s.untouched := by simp [State.setUart]
@[simp] theorem untouched_uartError (n detail : Nat) : (s.uartError n detail).untouched = s.untouched := by simp [State.uartError]

@[simp] theorem untouched_uartMove (s : State) (n lim : Nat) : (s.uartMove n lim).untouched = s.untouched := by
  unfold State.uartMove
  split
  · exact untouched_of_pair_fst ‹_› (by simp)
  · have h := untouched_of_pair_fst ‹_› (untouched_ioItem s _ _ _)
    dsimp only
    split
    · simp [h]
    · split <;> simp [h]

@[simp] theorem untouched_uartDrain (n : Nat) : (s.uartDrain n).untouched = s.untouched := by simp [State.uartDrain]
@[simp] theorem untouched_uartFrameEnd (n : Nat) : (s.uartFrameEnd n).untouched = s.untouched := by simp [State.uartFrameEnd]
@[simp] theorem untouched_uartRx (n : Nat) (b : Byte) (framing parity : Bool) (gap : Nat) :
    (s.uartRx n b framing parity gap).untouched = s.untouched := by simp [State.uartRx]
@[simp] theorem untouched_uartBreak (n : Nat) : (s.uartBreak n).untouched = s.untouched := by simp [State.uartBreak]

@[simp] theorem untouched_uartTx (n : Nat) : (s.uartTx n).untouched = s.untouched := by
  unfold State.uartTx
  dsimp only
  split <;> simp

@[simp] theorem untouched_uartFill (s : State) (n : Nat) : (s.uartFill n).untouched = s.untouched := by
  unfold State.uartFill
  split
  · exact untouched_of_pair_fst ‹_› (by simp)
  · have h := untouched_of_pair_fst ‹_› (untouched_ioItem s _ _ _)
    dsimp only
    split
    · exact h
    · split <;> simp [h]

@[simp] theorem untouched_setSpi (n : Nat) (p : SpiPort) : (s.setSpi n p).untouched = s.untouched := by simp [State.setSpi]

@[simp] theorem untouched_csRelease (n : Nat) : (s.csRelease n).untouched = s.untouched := by
  unfold State.csRelease
  dsimp only
  split
  · simp
  · split <;> simp

@[simp] theorem untouched_spiByte (n : Nat) (s : State) (b : Byte) : (spiByte n s b).untouched = s.untouched := by
  unfold spiByte
  split
  · simp [untouched_of_pair_fst ‹_› (untouched_ioItemAny s _ _ _)]
  · have h := untouched_of_pair_fst ‹_› (untouched_ioItemAny s _ _ _)
    dsimp only
    split <;> simp [h]

@[simp] theorem untouched_spiReceive (s : State) (n : Nat) (bs : List Byte) : (s.spiReceive n bs).untouched = s.untouched := by
  unfold State.spiReceive
  dsimp only
  split
  · split
    · simp [untouched_takeShot ‹_›]
    · simp
  · simp

@[simp] theorem untouched_opSpi (s : State) (n : Nat) (miso : List Byte) : (s.opSpi n miso).untouched = s.untouched := by
  unfold State.opSpi
  split
  · exact untouched_of_pair_fst ‹_› (by simp)
  · have h := untouched_of_pair_fst ‹_› (untouched_ioItem s _ _ _)
    split
    · exact h
    · extract_lets cs s1 m x s2
      have h1 : s1.untouched = s.untouched := by
        unfold s1
        split
        · simp [h]
        · exact h
      have hx : x.s.untouched = s.untouched := by
        unfold x
        split <;> simp [h1]
      split
      · simp [s2, hx]
      · rename_i s3 s4 s5 _ _
        simp [s5, s4, s3, s2, hx]

@[simp] theorem untouched_setI2c (n : Nat) (p : I2cPort) : (s.setI2c n p).untouched = s.untouched := by simp [State.setI2c]

@[simp] theorem untouched_i2cNext (n : Nat) : (s.i2cNext n).1.untouched = s.untouched := by
  unfold State.i2cNext
  dsimp only
  split <;> simp

@[simp] theorem untouched_i2cFail (n c idx bytes detail : Nat) : (s.i2cFail n c idx bytes detail).untouched = s.untouched := by simp [State.i2cFail]

@[simp] theorem untouched_i2cPart (n c : Nat) (k : HeddleChannel) (it : HeddleItem) (tx : Bool) (b detail : Nat) :
    (s.i2cPart n c k it tx b detail).untouched = s.untouched := by
  unfold State.i2cPart
  dsimp only
  repeat' split
  all_goals simp

@[simp] theorem untouched_opI2c (s : State) (n : Nat) (r : I2cResult) : (s.opI2c n r).untouched = s.untouched := by
  unfold State.opI2c
  split
  · rfl
  · split
    · exact untouched_of_pair_fst ‹_› (by simp)
    · have h := untouched_of_pair_fst ‹_› (untouched_i2cNext s n)
      dsimp only
      split
      · simp [h]
      · simp [h]
      · simp [h]
      · simp [h]
      · simp [h]
      · split
        · split <;> simp [h]
        · split <;> simp [h]

@[simp] theorem untouched_opI2cRecover (ni n : Nat) (v : DWord) (freed : Bool) :
    (s.opI2cRecover ni n v freed).untouched = s.untouched := by simp [State.opI2cRecover]
@[simp] theorem untouched_setAdc (n : Nat) (p : AdcPort) : (s.setAdc n p).untouched = s.untouched := by simp [State.setAdc]
@[simp] theorem untouched_adcStart (n : Nat) (stamp : Option Nat) : (s.adcStart n stamp).untouched = s.untouched := by simp [State.adcStart]
@[simp] theorem untouched_adcTrigger (n : Nat) (stamp : Option Nat) : (s.adcTrigger n stamp).untouched = s.untouched := by simp [State.adcTrigger]
@[simp] theorem untouched_adcFromAt (n : Nat) (src : AdcSource) (stamp : Option Nat) :
    (s.adcFromAt n src stamp).untouched = s.untouched := by simp [State.adcFromAt]
@[simp] theorem untouched_adcFrom (n : Nat) (src : AdcSource) : (s.adcFrom n src).untouched = s.untouched := by simp [State.adcFrom]
@[simp] theorem untouched_adcCompare (n : Nat) : (s.adcCompare n).untouched = s.untouched := by simp [State.adcCompare]
@[simp] theorem untouched_adcRaw (n input raw : Nat) : (s.adcRaw n input raw).untouched = s.untouched := by simp [State.adcRaw]

@[simp] theorem untouched_opConversion (n raw : Nat) : (s.opConversion n raw).untouched = s.untouched := by
  unfold State.opConversion
  dsimp only
  repeat' split
  all_goals simp

@[simp] theorem untouched_opSequenceEnd (n : Nat) : (s.opSequenceEnd n).untouched = s.untouched := by
  unfold State.opSequenceEnd
  dsimp only
  repeat' split
  all_goals simp

@[simp] theorem untouched_opAdcCfg (ni n : Nat) (v : DWord) : (s.opAdcCfg ni n v).untouched = s.untouched := by simp [State.opAdcCfg]
@[simp] theorem untouched_opSwTrig (ni n : Nat) (v : DWord) : (s.opSwTrig ni n v).untouched = s.untouched := by simp [State.opSwTrig]

@[simp] theorem untouched_adcMove (n : Nat) : (s.adcMove n).untouched = s.untouched := by
  unfold State.adcMove
  dsimp only
  repeat' split
  all_goals simp

@[simp] theorem untouched_adcRelease (n a b : Nat) : (s.adcRelease n a b).untouched = s.untouched := by
  unfold State.adcRelease
  split <;> simp

@[simp] theorem untouched_adcReleases (a b : Nat) : (s.adcReleases a b).untouched = s.untouched := by simp [State.adcReleases]
@[simp] theorem untouched_opGpioSet (m : Nat) : (s.opGpioSet m).untouched = s.untouched := by simp [State.opGpioSet]
@[simp] theorem untouched_opGpioClr (m : Nat) : (s.opGpioClr m).untouched = s.untouched := by simp [State.opGpioClr]
@[simp] theorem untouched_setBall (code : Nat) (level : Bool) : (s.setBall code level).untouched = s.untouched := by simp [State.setBall]
@[simp] theorem untouched_opGpioEdge (n : Nat) (rising : Bool) : (s.opGpioEdge n rising).untouched = s.untouched := by simp [State.opGpioEdge]
@[simp] theorem untouched_fieldAbort (port : Nat) (it : Option HeddleItem) :
    (s.fieldAbort port it).untouched = s.untouched := by simp [State.fieldAbort]
@[simp] theorem untouched_uartStop (n : Nat) : (s.uartStop n).untouched = s.untouched := by simp [State.uartStop]
@[simp] theorem untouched_ethStop (n : Nat) : (s.ethStop n).untouched = s.untouched := by simp [State.ethStop]
@[simp] theorem untouched_spiStop (n : Nat) : (s.spiStop n).untouched = s.untouched := by simp [State.spiStop]
@[simp] theorem untouched_i2cStop (n : Nat) : (s.i2cStop n).untouched = s.untouched := by simp [State.i2cStop]
@[simp] theorem untouched_adcStop (n : Nat) : (s.adcStop n).untouched = s.untouched := by simp [State.adcStop]

/-! ### Operations of Machine/Ospi -/

@[simp] theorem untouched_flashProgram (a : Nat) (bs : List Byte) : (s.flashProgram a bs).untouched = s.untouched := by simp [State.flashProgram]
@[simp] theorem untouched_flashErase (a k : Nat) : (s.flashErase a k).untouched = s.untouched := by simp [State.flashErase]
@[simp] theorem untouched_xipRead (ni a n : Nat) : (s.xipRead ni a n).untouched = s.untouched := by simp [State.xipRead]

@[simp] theorem untouched_xipAnswer (x : XipLoad) : (s.xipAnswer x).untouched = s.untouched := by
  unfold State.xipAnswer
  split <;> simp

@[simp] theorem untouched_xipServe (n : Nat) : (s.xipServe n).untouched = s.untouched := by simp [State.xipServe]

@[simp] theorem untouched_opOspiCmd (ni : Nat) (v : DWord) : (s.opOspiCmd ni v).untouched = s.untouched := by
  unfold State.opOspiCmd
  dsimp only
  split
  · simp
  · split <;> simp

@[simp] theorem untouched_ospiData (bs : List Byte) : (s.ospiData bs).untouched = s.untouched := by simp [State.ospiData]
@[simp] theorem untouched_ospiEnd : s.ospiEnd.untouched = s.untouched := by simp [State.ospiEnd]

@[simp] theorem untouched_flashTakes (c : OspiCommand) (erased : Option Nat) : (s.flashTakes c erased).untouched = s.untouched := by
  unfold State.flashTakes
  dsimp only
  split
  · simp
  · split
    · simp
    · split <;> simp

@[simp] theorem untouched_ospiPerform (c : OspiCommand) (answer : List Byte) (erased : Option Nat) :
    (s.ospiPerform c answer erased).untouched = s.untouched := by simp [State.ospiPerform]

@[simp] theorem untouched_opOspiDone (answer : List Byte) (status : Nat) (erased : Option Nat) :
    (s.opOspiDone answer status erased).untouched = s.untouched := by
  unfold State.opOspiDone
  split <;> simp

@[simp] theorem untouched_ospiError (detail : Nat) : (s.ospiError detail).untouched = s.untouched := by simp [State.ospiError]

@[simp] theorem untouched_opOspiTimeout (answer : List Byte) (status : Nat) (erased : Option Nat) :
    (s.opOspiTimeout answer status erased).untouched = s.untouched := by
  unfold State.opOspiTimeout
  split <;> simp

@[simp] theorem untouched_opXipLoad (q : Req) (off : Nat) (size : Size) (late : Bool) :
    (s.opXipLoad q off size late).untouched = s.untouched := by simp [State.opXipLoad]
@[simp] theorem untouched_opOspiReset (ni : Nat) (v : DWord) : (s.opOspiReset ni v).untouched = s.untouched := by simp [State.opOspiReset]
@[simp] theorem untouched_ospiItemFail (c idx detail : Nat) : (s.ospiItemFail c idx detail).untouched = s.untouched := by simp [State.ospiItemFail]
@[simp] theorem untouched_ospiCut (c : OspiCommand) : (s.ospiCut c).untouched = s.untouched := by simp [State.ospiCut]

@[simp] theorem untouched_ospiStop : s.ospiStop.untouched = s.untouched := by
  unfold State.ospiStop
  dsimp only
  repeat' split
  all_goals simp

@[simp] theorem untouched_ospiReadItem (c : Nat) (k : HeddleChannel) (it : HeddleItem) : (s.ospiReadItem c k it).untouched = s.untouched := by
  unfold State.ospiReadItem
  dsimp only
  split
  · simp
  · split <;> simp

@[simp] theorem untouched_ospiProgramSend (a : Nat) (bs : List Byte) :
    (s.ospiProgramSend a bs).untouched = s.untouched := by simp [State.ospiProgramSend]

@[simp] theorem untouched_pollEnd : s.pollEnd.untouched = s.untouched := by
  unfold State.pollEnd
  dsimp only
  split <;> simp

@[simp] theorem untouched_ospiItemPoll (p : OspiPoll) (len : Nat) (polled : Option Nat) : (s.ospiItemPoll p len polled).untouched = s.untouched := by
  unfold State.ospiItemPoll
  split <;> simp

@[simp] theorem untouched_ospiProgramItem (c : Nat) (k : HeddleChannel) (it : HeddleItem) (polled : Option Nat) :
    (s.ospiProgramItem c k it polled).untouched = s.untouched := by
  unfold State.ospiProgramItem
  dsimp only
  split
  · simp
  · split
    · simp
    · split <;> simp

@[simp] theorem untouched_ospiPollOn (s : State) (polled : Option Nat) : (s.ospiPollOn polled).untouched = s.untouched := by
  unfold State.ospiPollOn
  split
  · rfl
  · split <;> simp

@[simp] theorem untouched_opOspiItem (s : State) (program : Bool) (polled : Option Nat) : (s.opOspiItem program polled).untouched = s.untouched := by
  unfold State.opOspiItem
  split
  · rfl
  · split
    · simp
    · split
      · rfl
      · split
        · exact untouched_of_pair_fst ‹_› (by simp)
        · have h := untouched_of_pair_fst ‹_› (untouched_ioItem s _ _ _)
          split <;> simp [h]

/-! ### Operations of Machine/BootOps -/

@[simp] theorem untouched_zeroScratch : s.zeroScratch.untouched = s.untouched := by simp [State.zeroScratch]
@[simp] theorem untouched_applyLocks : s.applyLocks.untouched = s.untouched := by simp [State.applyLocks]
@[simp] theorem untouched_freeFill (a n : Nat) : (s.freeFill a n).untouched = s.untouched := by simp [State.freeFill]
@[simp] theorem untouched_campWrite (a : Nat) (bs : List Byte) : (s.campWrite a bs).untouched = s.untouched := by simp [State.campWrite]
@[simp] theorem untouched_acceptImage (h payload : List Byte) (slot us : Nat) :
    (s.acceptImage h payload slot us).untouched = s.untouched := by simp [State.acceptImage]
@[simp] theorem untouched_ospiFound (f : FlashId) : (s.ospiFound f).untouched = s.untouched := by simp [State.ospiFound]
@[simp] theorem untouched_storePayload (c : Nat) (err : Option Nat) (payload : List Byte) :
    (s.storePayload c err payload).untouched = s.untouched := by simp [State.storePayload]
@[simp] theorem untouched_bootFailed (c slot : Nat) : (s.bootFailed c slot).untouched = s.untouched := by simp [State.bootFailed]

@[simp] theorem untouched_opFirstStage (id : Option FlashId) (err : Option Nat) (us : Nat) : (s.opFirstStage id err us).untouched = s.untouched := by
  unfold State.opFirstStage
  dsimp only
  repeat' split
  all_goals simp

@[simp] theorem untouched_jumpBoot (pc a1 : Nat) : (s.jumpBoot pc a1).untouched = s.untouched := by simp [State.jumpBoot]
@[simp] theorem untouched_handOver (entry : Nat) : (s.handOver entry).untouched = s.untouched := by simp [State.handOver]

@[simp] theorem untouched_opHandOver : s.opHandOver.untouched = s.untouched := by
  unfold State.opHandOver
  split <;> simp

@[simp] theorem untouched_opBootFail : s.opBootFail.untouched = s.untouched := by
  unfold State.opBootFail
  split <;> simp

@[simp] theorem untouched_opRetryEnd : s.opRetryEnd.untouched = s.untouched := by
  unfold State.opRetryEnd
  split <;> simp

@[simp] theorem untouched_opLoader (answers : Bool) (err : Option Nat) (us : Nat) : (s.opLoader answers err us).untouched = s.untouched := by
  unfold State.opLoader
  dsimp only
  split
  · simp
  · split <;> simp

@[simp] theorem untouched_setEnable (c id : Nat) (on : Bool) : (s.setEnable c id on).untouched = s.untouched := by simp [State.setEnable]
@[simp] theorem untouched_setPrio (id p : Nat) : (s.setPrio id p).untouched = s.untouched := by simp [State.setPrio]
@[simp] theorem untouched_setThreshold (c p : Nat) : (s.setThreshold c p).untouched = s.untouched := by simp [State.setThreshold]
@[simp] theorem untouched_opPark (h : Nat) : (s.opPark h).untouched = s.untouched := by simp [State.opPark]
@[simp] theorem untouched_opRelease (h : Nat) : (s.opRelease h).untouched = s.untouched := by simp [State.opRelease]
@[simp] theorem untouched_opResume : s.opResume.untouched = s.untouched := by simp [State.opResume]
@[simp] theorem untouched_recState (v : Nat) : (s.recState v).untouched = s.untouched := by simp [State.recState]
@[simp] theorem untouched_refuseImage (code : Nat) : (s.refuseImage code).untouched = s.untouched := by simp [State.refuseImage]

@[simp] theorem untouched_usbImage (chunk : List Byte) (finish : Bool) (flash : Option FlashId) (err : Option Nat) (us : Nat) :
    (s.usbImage chunk finish flash err us).untouched = s.untouched := by
  unfold State.usbImage
  dsimp only
  repeat' split
  all_goals simp

@[simp] theorem untouched_tetherImage (flash : Option FlashId) (err : Option Nat) (us : Nat) :
    (s.tetherImage flash err us).untouched = s.untouched := by
  unfold State.tetherImage
  dsimp only
  split
  · simp
  · split
    · simp
    · split <;> simp

@[simp] theorem untouched_opGetState : s.opGetState.untouched = s.untouched := by
  unfold State.opGetState
  dsimp only
  split
  · simp
  · split <;> simp

@[simp] theorem untouched_opAbort : s.opAbort.untouched = s.untouched := by simp [State.opAbort]

@[simp] theorem untouched_opDetach : s.opDetach.untouched = s.untouched := by
  unfold State.opDetach
  split <;> simp

@[simp] theorem untouched_bootGo : s.bootGo.untouched = s.untouched := by simp [State.bootGo]

@[simp] theorem untouched_opLifecycleReq (ni : Nat) (v : DWord) : (s.opLifecycleReq ni v).untouched = s.untouched := by
  unfold State.opLifecycleReq
  dsimp only
  split
  · simp
  · split <;> simp

@[simp] theorem untouched_refuseUnlock : s.refuseUnlock.untouched = s.untouched := by simp [State.refuseUnlock]
@[simp] theorem untouched_challenge : s.challenge.untouched = s.untouched := by simp [State.challenge]
@[simp] theorem untouched_submit : s.submit.untouched = s.untouched := by simp [State.submit]
@[simp] theorem untouched_opUnlockCtrl (ni : Nat) (v : DWord) : (s.opUnlockCtrl ni v).untouched = s.untouched := by simp [State.opUnlockCtrl]
@[simp] theorem untouched_opChallengeReady : s.opChallengeReady.untouched = s.untouched := by simp [State.opChallengeReady]

/-! ### Operations of Machine/Crypto -/

@[simp] theorem untouched_otpCommand (q : Req) (cmd : Nat) (addr : BitVec 8) (cut : Option (BitVec 32)) :
    (s.otpCommand q cmd addr cut).untouched = s.untouched := by simp [State.otpCommand]
@[simp] theorem untouched_slotCommand (q : Req) (op : Nat) (slot : Fin 16) (src : BitVec 5) (usage : BitVec 4) :
    (s.slotCommand q op slot src usage).untouched = s.untouched := by simp [State.slotCommand]

@[simp] theorem untouched_cryptoOp (c port op : Nat) : (s.cryptoOp c port op).untouched = s.untouched := by
  unfold State.cryptoOp
  split <;> simp

/-! ### Operations of Machine/CairnOps -/

@[simp] theorem untouched_claim (c : Nat) : (s.claim c).2.untouched = s.untouched := by
  unfold State.claim
  dsimp only
  split <;> simp

@[simp] theorem untouched_completeSource (id : Nat) : (s.completeSource id).untouched = s.untouched := by simp [State.completeSource]
@[simp] theorem untouched_cairnClamp (ni reason wrote off n : Nat) :
    (s.cairnClamp ni reason wrote off n).untouched = s.untouched := by simp [State.cairnClamp]
@[simp] theorem untouched_complete (ni c id : Nat) : (s.complete ni c id).untouched = s.untouched := by simp [State.complete]

@[simp] theorem untouched_writePrio (s : State) (w v : Nat) : (s.writePrio w v).1.untouched = s.untouched := by
  unfold State.writePrio
  generalize List.range 4 = l
  suffices h : ∀ r : State × Nat, (l.foldl _ r).1.untouched = r.1.untouched from h (s, 0)
  induction l with
  | nil => exact fun r => rfl
  | cons i l ih =>
    intro r
    rw [List.foldl_cons, ih]
    dsimp only
    split <;> rfl

@[simp] theorem untouched_cairnStore (ni o v : Nat) : (s.cairnStore ni o v).untouched = s.untouched := by
  unfold State.cairnStore
  split <;> simp

@[simp] theorem untouched_cairnLoad (o : Nat) : (s.cairnLoad o).2.untouched = s.untouched := by
  unfold State.cairnLoad
  split <;> simp

@[simp] theorem untouched_cairnWrite (ni o : Nat) (size : Size) (v : DWord) :
    (s.cairnWrite ni o size v).untouched = s.untouched := by simp [State.cairnWrite]
@[simp] theorem untouched_cairnRead (ni o : Nat) (size : Size) : (s.cairnRead ni o size).untouched = s.untouched := by simp [State.cairnRead]
@[simp] theorem untouched_opCairnRelease (ni : Nat) (v : DWord) : (s.opCairnRelease ni v).untouched = s.untouched := by simp [State.opCairnRelease]

/-! ### Operations of Machine/ShuttleOps -/

@[simp] theorem untouched_startWaiting (n : Nat) : (s.startWaiting n).untouched = s.untouched := by simp [State.startWaiting]
@[simp] theorem untouched_shuttleAdc (k : Nat) : (s.shuttleAdc k).untouched = s.untouched := by simp [State.shuttleAdc]
@[simp] theorem untouched_openGates (n : Nat) : (s.openGates n).untouched = s.untouched := by simp [State.openGates]
@[simp] theorem untouched_channelRise (n : Nat) : (s.channelRise n).untouched = s.untouched := by simp [State.channelRise]
@[simp] theorem untouched_holdForce (n : Nat) : (s.holdForce n).untouched = s.untouched := by simp [State.holdForce]
@[simp] theorem untouched_settleChannel (n : Nat) : (s.settleChannel n).untouched = s.untouched := by simp [State.settleChannel]
@[simp] theorem untouched_noteForces : s.noteForces.untouched = s.untouched := by simp [State.noteForces]
@[simp] theorem untouched_settle : s.settle.untouched = s.untouched := by simp [State.settle]
@[simp] theorem untouched_setBalls (b : Nat) : (s.setBalls b).untouched = s.untouched := by simp [State.setBalls]
@[simp] theorem untouched_latchWrite (n : Nat) (out rise : Bool) : (s.latchWrite n out rise).untouched = s.untouched := by simp [State.latchWrite]
@[simp] theorem untouched_senseChannel (n : Nat) : (s.senseChannel n).untouched = s.untouched := by simp [State.senseChannel]
@[simp] theorem untouched_restartSense (n : Nat) : (s.restartSense n).untouched = s.untouched := by simp [State.restartSense]

@[simp] theorem untouched_opShuttleSel (ni n : Nat) (v : DWord) : (s.opShuttleSel ni n v).untouched = s.untouched := by
  unfold State.opShuttleSel
  dsimp only
  split
  · simp
  · split <;> simp

@[simp] theorem untouched_opPinLatch (ni : Nat) (v : DWord) : (s.opPinLatch ni v).untouched = s.untouched := by simp [State.opPinLatch]
@[simp] theorem untouched_opPinSet (ni : Nat) (v : DWord) : (s.opPinSet ni v).untouched = s.untouched := by simp [State.opPinSet]
@[simp] theorem untouched_opHeld (ni k : Nat) (v : DWord) : (s.opHeld ni k v).untouched = s.untouched := by simp [State.opHeld]
@[simp] theorem untouched_opShuttle (ni a : Nat) (v : DWord) : (s.opShuttle ni a v).untouched = s.untouched := by simp [State.opShuttle]
@[simp] theorem untouched_shuttleStop : s.shuttleStop.untouched = s.untouched := by simp [State.shuttleStop]
@[simp] theorem untouched_shuttleQuiet : s.shuttleQuiet.untouched = s.untouched := by simp [State.shuttleQuiet]
@[simp] theorem untouched_shuttleStart : s.shuttleStart.untouched = s.untouched := by simp [State.shuttleStart]

/-! ### Operations of Machine/TimerOps -/

@[simp] theorem untouched_modTimer (f : TimerState → TimerState) : (s.modTimer f).untouched = s.untouched := by simp [State.modTimer]
@[simp] theorem untouched_timerLoad (n : Nat) : (s.timerLoad n).untouched = s.untouched := by simp [State.timerLoad]
@[simp] theorem untouched_timerStart (n : Nat) : (s.timerStart n).untouched = s.untouched := by simp [State.timerStart]
@[simp] theorem untouched_timerExpire (n : Nat) : (s.timerExpire n).untouched = s.untouched := by simp [State.timerExpire]
@[simp] theorem untouched_timerReturn (n : Nat) : (s.timerReturn n).untouched = s.untouched := by simp [State.timerReturn]
@[simp] theorem untouched_timerStep (n : Nat) : (s.timerStep n).untouched = s.untouched := by simp [State.timerStep]
@[simp] theorem untouched_timerTick (n : Nat) : (s.timerTick n).untouched = s.untouched := by simp [State.timerTick]
@[simp] theorem untouched_timersTick : s.timersTick.untouched = s.untouched := by simp [State.timersTick]

@[simp] theorem untouched_timerTicks (k : Nat) (s : State) : (s.timerTicks k).untouched = s.untouched := by
  induction k generalizing s with
  | zero => rfl
  | succ k ih => simp [State.timerTicks, ih]

@[simp] theorem untouched_opMtime (ni : Nat) (v : DWord) : (s.opMtime ni v).untouched = s.untouched := by simp [State.opMtime]
@[simp] theorem untouched_expiryTick (n : Nat) : (s.expiryTick n).untouched = s.untouched := by simp [State.expiryTick]
@[simp] theorem untouched_dutyTick (n : Nat) : (s.dutyTick n).untouched = s.untouched := by simp [State.dutyTick]
@[simp] theorem untouched_timerFollow (n : Nat) (was : Bool) : (s.timerFollow n was).untouched = s.untouched := by simp [State.timerFollow]
@[simp] theorem untouched_opTimerCtrl (ni n : Nat) (v : DWord) : (s.opTimerCtrl ni n v).untouched = s.untouched := by simp [State.opTimerCtrl]
@[simp] theorem untouched_opTimerEn (ni a : Nat) (on : Bool) (v : DWord) :
    (s.opTimerEn ni a on v).untouched = s.untouched := by simp [State.opTimerEn]

/-! ### Operations of Machine/ReedOps -/

@[simp] theorem untouched_modReed (f : ReedState → ReedState) : (s.modReed f).untouched = s.untouched := by simp [State.modReed]
@[simp] theorem untouched_setAcc (acc : Nat) : (s.setAcc acc).untouched = s.untouched := by simp [State.setAcc]
@[simp] theorem untouched_showRate : s.showRate.untouched = s.untouched := by simp [State.showRate]
@[simp] theorem untouched_reedGo (st : Nat) : (s.reedGo st).untouched = s.untouched := by simp [State.reedGo]
@[simp] theorem untouched_reedAcquire : s.reedAcquire.untouched = s.untouched := by simp [State.reedAcquire]
@[simp] theorem untouched_reedFree : s.reedFree.untouched = s.untouched := by simp [State.reedFree]
@[simp] theorem untouched_reedHold : s.reedHold.untouched = s.untouched := by simp [State.reedHold]
@[simp] theorem untouched_startSlew (err : Int) : (s.startSlew err).untouched = s.untouched := by simp [State.startSlew]
@[simp] theorem untouched_showArmed : s.showArmed.untouched = s.untouched := by simp [State.showArmed]
@[simp] theorem untouched_loadReedSlot (n : Nat) : (s.loadReedSlot n).untouched = s.untouched := by simp [State.loadReedSlot]
@[simp] theorem untouched_applyPending : s.applyPending.untouched = s.untouched := by simp [State.applyPending]

@[simp] theorem untouched_passSlot (n cycle : Nat) (after step : Bool) : (s.passSlot n cycle after step).untouched = s.untouched := by
  unfold State.passSlot
  split <;> simp

@[simp] theorem untouched_combFalls (stamp : Nat) : (s.combFalls stamp).untouched = s.untouched := by simp [State.combFalls]
@[simp] theorem untouched_passAngle (cycle angle : Nat) (after step : Bool) :
    (s.passAngle cycle angle after step).untouched = s.untouched := by simp [State.passAngle]
@[simp] theorem untouched_aoutAct (action t : Nat) : (s.aoutAct action t).untouched = s.untouched := by simp [State.aoutAct]
@[simp] theorem untouched_reedAdc (mask stamp : Nat) : (s.reedAdc mask stamp).untouched = s.untouched := by simp [State.reedAdc]
@[simp] theorem untouched_slotAction (d : ReedDue) (taken : Nat) : (s.slotAction d taken).untouched = s.untouched := by simp [State.slotAction]

@[simp] theorem untouched_disarm (n : Nat) : (s.disarm n).untouched = s.untouched := by
  unfold State.disarm
  split <;> simp

@[simp] theorem untouched_fireSlot (d : ReedDue) (taken : Nat) : (s.fireSlot d taken).untouched = s.untouched := by simp [State.fireSlot]

@[simp] theorem untouched_fireTick : s.fireTick.untouched = s.untouched := by
  unfold State.fireTick
  dsimp only
  repeat' split
  all_goals simp

@[simp] theorem untouched_reedCross (cycle : Nat) (after : Bool) : (s.reedCross cycle after).untouched = s.untouched := by simp [State.reedCross]
@[simp] theorem untouched_reedAdvance : s.reedAdvance.untouched = s.untouched := by simp [State.reedAdvance]
@[simp] theorem untouched_reedTimeouts : s.reedTimeouts.untouched = s.untouched := by simp [State.reedTimeouts]

@[simp] theorem untouched_reedStep (s : State) (d : Int) : (s.reedStep d).untouched = s.untouched := by
  unfold State.reedStep
  extract_lets r p h e s0
  have h0 : s0.untouched = s.untouched := by simp [s0]
  split
  · simp [h0]
  · rename_i p1 h1 e1 s1 crosses s2 early xs s3 _
    have h2 : s2.untouched = s.untouched := by simp [s2, s1, h0]
    have h3 : s3.untouched = s.untouched := by
      refine (untouched_forEach _ _ _ fun n t => ?_).trans h2
      split
      · rfl
      · split <;> simp
    simp [h3]

@[simp] theorem untouched_noteError (e : Int) : (s.noteError e).untouched = s.untouched := by simp [State.noteError]
@[simp] theorem untouched_noteInterval (iv : Nat) : (s.noteInterval iv).untouched = s.untouched := by simp [State.noteInterval]
@[simp] theorem untouched_lockCount (e : Int) : (s.lockCount e).untouched = s.untouched := by simp [State.lockCount]
@[simp] theorem untouched_acquireEvent (e : Int) : (s.acquireEvent e).untouched = s.untouched := by simp [State.acquireEvent]
@[simp] theorem untouched_takeEvent (ev : RefEvent) (iv : Nat) (ph err : Int) :
    (s.takeEvent ev iv ph err).untouched = s.untouched := by simp [State.takeEvent]
@[simp] theorem untouched_deviantEvent (ev : RefEvent) : (s.deviantEvent ev).untouched = s.untouched := by simp [State.deviantEvent]

@[simp] theorem untouched_syncCycle (ev : RefEvent) : (s.syncCycle ev).untouched = s.untouched := by
  unfold State.syncCycle
  split <;> simp

@[simp] theorem untouched_reedEvent (ev : RefEvent) : (s.reedEvent ev).untouched = s.untouched := by simp [State.reedEvent]

theorem untouched_reedJitter {s t : State} {d : Int} (h : s.reedJitter = some (t, d)) : t.untouched = s.untouched := by
  unfold State.reedJitter at h
  split at h
  · cases h; rfl
  · dsimp only at h
    split at h
    · cases h
    · cases h; rfl

@[simp] theorem untouched_reedReference (s : State) (angle back moved : Nat) (ptp : Option (Nat × Nat)) :
    (s.reedReference angle back moved ptp).untouched = s.untouched := by
  unfold State.reedReference
  split
  · rfl
  · simp [untouched_reedJitter ‹_›]

@[simp] theorem untouched_zcTick : s.zcTick.untouched = s.untouched := by
  unfold State.zcTick
  dsimp only
  split
  · simp
  · split <;> simp

@[simp] theorem untouched_ptpTick5 : s.ptpTick5.untouched = s.untouched := by simp [State.ptpTick5]
@[simp] theorem untouched_reedDue : s.reedDue.untouched = s.untouched := by simp [State.reedDue]
@[simp] theorem untouched_reedTick : s.reedTick.untouched = s.untouched := by simp [State.reedTick]

@[simp] theorem untouched_reedTicks (n : Nat) (s : State) : (s.reedTicks n).untouched = s.untouched := by
  induction n generalizing s with
  | zero => rfl
  | succ n ih => simp [State.reedTicks, ih]

@[simp] theorem untouched_ptpUntil (t : Nat) : (s.ptpUntil t).untouched = s.untouched := by simp [State.ptpUntil]
@[simp] theorem untouched_encIllegal : s.encIllegal.untouched = s.untouched := by simp [State.encIllegal]
@[simp] theorem untouched_encMove (up : Bool) : (s.encMove up).untouched = s.untouched := by simp [State.encMove]
@[simp] theorem untouched_encCount (forward : Bool) : (s.encCount forward).untouched = s.untouched := by simp [State.encCount]
@[simp] theorem untouched_encIndex : s.encIndex.untouched = s.untouched := by simp [State.encIndex]
@[simp] theorem untouched_reedStart : s.reedStart.untouched = s.untouched := by simp [State.reedStart]
@[simp] theorem untouched_reedStop : s.reedStop.untouched = s.untouched := by simp [State.reedStop]
@[simp] theorem untouched_opReedSlot (ni a : Nat) (v : DWord) (n : Nat) :
    (s.opReedSlot ni a v n).untouched = s.untouched := by simp [State.opReedSlot]
@[simp] theorem untouched_opReedComb (ni : Nat) (v : DWord) : (s.opReedComb ni v).untouched = s.untouched := by simp [State.opReedComb]
@[simp] theorem untouched_opReedSrc (ni : Nat) (v : DWord) : (s.opReedSrc ni v).untouched = s.untouched := by simp [State.opReedSrc]
@[simp] theorem untouched_opReedRate (ni a : Nat) (v : DWord) : (s.opReedRate ni a v).untouched = s.untouched := by simp [State.opReedRate]

@[simp] theorem untouched_tickIf (s : State) (happens : State → State → Bool) : (s.tickIf happens).untouched = s.untouched := by
  simp [State.tickIf]

@[simp] theorem untouched_encStep (k : EncStep) : (s.encStep k).untouched = s.untouched := by
  unfold State.encStep
  split <;> simp

@[simp] theorem untouched_encHeld (s : State) (samples : Nat) (f : State → State) (hf : (f s).untouched = s.untouched) :
    (s.encHeld samples f).untouched = s.untouched := by simp [State.encHeld, hf]

@[simp] theorem untouched_encReference : s.encReference.untouched = s.untouched := by simp [State.encReference]
@[simp] theorem untouched_referenceNow (level : Bool) (hold : Nat) :
    (s.referenceNow level hold).untouched = s.untouched := by simp [State.referenceNow]
@[simp] theorem untouched_reedEnable : s.reedEnable.untouched = s.untouched := by simp [State.reedEnable]

/-! ### Operations of Machine/LouOps -/

@[simp] theorem untouched_instr (s : State) (h : Nat) (regs : List Nat) (scout : Hart → Hart) (f : State → State)
    (hf : ∀ t, (f t).untouched = t.untouched) : (s.instr h regs scout f).untouched = s.untouched := by
  simp [State.instr, hf]

@[simp] theorem untouched_xoroud (h : Nat) (op : LongOp) (rd rs1 rs2 : Nat) :
    (s.xoroud h op rd rs1 rs2).untouched = s.untouched := by simp [State.xoroud]

/-! ### Operations of Machine/Power -/

@[simp] theorem untouched_opPorstRelease (guard : Bool) (bootsel : Nat) :
    (s.opPorstRelease guard bootsel).untouched = s.untouched := by simp [State.opPorstRelease]

@[simp] theorem untouched_opStrapLatch (b c : Nat) : (s.opStrapLatch b c).untouched = s.untouched := by
  unfold State.opStrapLatch
  split <;> simp

@[simp] theorem untouched_opPorstPulse (ns : Nat) : (s.opPorstPulse ns).untouched = s.untouched := by simp [State.opPorstPulse]
@[simp] theorem untouched_opRstout : s.opRstout.untouched = s.untouched := by simp [State.opRstout]
@[simp] theorem untouched_opBankExit (bank : Nat) : (s.opBankExit bank).untouched = s.untouched := by simp [State.opBankExit]
@[simp] theorem untouched_opBankReturn (bank : Nat) (v33 : Bool) : (s.opBankReturn bank v33).untouched = s.untouched := by simp [State.opBankReturn]
@[simp] theorem untouched_opUvloRise : s.opUvloRise.untouched = s.untouched := by simp [State.opUvloRise]
@[simp] theorem untouched_opUvloFall (vbat : Bool) : (s.opUvloFall vbat).untouched = s.untouched := by simp [State.opUvloFall]
@[simp] theorem untouched_opAonLoss : s.opAonLoss.untouched = s.untouched := by simp [State.opAonLoss]
@[simp] theorem untouched_opPfailAssert : s.opPfailAssert.untouched = s.untouched := by simp [State.opPfailAssert]
@[simp] theorem untouched_opPfailClear : s.opPfailClear.untouched = s.untouched := by simp [State.opPfailClear]

@[simp] theorem untouched_opGraceEnd : s.opGraceEnd.untouched = s.untouched := by
  unfold State.opGraceEnd
  split <;> simp

@[simp] theorem untouched_opHaltedEntry : s.opHaltedEntry.untouched = s.untouched := by simp [State.opHaltedEntry]
@[simp] theorem untouched_opHaltedRestart : s.opHaltedRestart.untouched = s.untouched := by simp [State.opHaltedRestart]
@[simp] theorem untouched_opPfailArmed : s.opPfailArmed.untouched = s.untouched := by simp [State.opPfailArmed]
@[simp] theorem untouched_opOppointDone : s.opOppointDone.untouched = s.untouched := by simp [State.opOppointDone]
@[simp] theorem untouched_opDozeEntry : s.opDozeEntry.untouched = s.untouched := by simp [State.opDozeEntry]
@[simp] theorem untouched_opDozeWake : s.opDozeWake.untouched = s.untouched := by simp [State.opDozeWake]
@[simp] theorem untouched_opStopEntry : s.opStopEntry.untouched = s.untouched := by simp [State.opStopEntry]
@[simp] theorem untouched_opStopWake (cs : Bool) : (s.opStopWake cs).untouched = s.untouched := by simp [State.opStopWake]
@[simp] theorem untouched_finishBivouac : s.finishBivouac.untouched = s.untouched := by simp [State.finishBivouac]
@[simp] theorem untouched_opBivouacEntry : s.opBivouacEntry.untouched = s.untouched := by simp [State.opBivouacEntry]
@[simp] theorem untouched_opBivouacWake : s.opBivouacWake.untouched = s.untouched := by simp [State.opBivouacWake]
@[simp] theorem untouched_opWakePin (n : Nat) (level : Bool) : (s.opWakePin n level).untouched = s.untouched := by simp [State.opWakePin]
@[simp] theorem untouched_opOutputLimit (v18 on : Bool) : (s.opOutputLimit v18 on).untouched = s.untouched := by simp [State.opOutputLimit]
@[simp] theorem untouched_opSnapDone : s.opSnapDone.untouched = s.untouched := by simp [State.opSnapDone]
@[simp] theorem untouched_opLseLoss (back : Bool) : (s.opLseLoss back).untouched = s.untouched := by simp [State.opLseLoss]
@[simp] theorem untouched_opRtcAlarm : s.opRtcAlarm.untouched = s.untouched := by simp [State.opRtcAlarm]
@[simp] theorem untouched_opRtcPeriod : s.opRtcPeriod.untouched = s.untouched := by simp [State.opRtcPeriod]
@[simp] theorem untouched_opMeasDone (count : Nat) : (s.opMeasDone count).untouched = s.untouched := by simp [State.opMeasDone]
@[simp] theorem untouched_opSystemReset : s.opSystemReset.untouched = s.untouched := by simp [State.opSystemReset]

/-! ### Operations of Machine/Harts -/

@[simp] theorem untouched_opLbar (h rd rs1 rs2 : Nat) : (s.opLbar h rd rs1 rs2).untouched = s.untouched := by simp [State.opLbar]
@[simp] theorem untouched_opLongComplete (h : Nat) : (s.opLongComplete h).untouched = s.untouched := by simp [State.opLongComplete]
@[simp] theorem untouched_abandonLoads (h : Nat) : (s.abandonLoads h).untouched = s.untouched := by simp [State.abandonLoads]
@[simp] theorem untouched_opLongFault (h : Nat) : (s.opLongFault h).untouched = s.untouched := by simp [State.opLongFault]

@[simp] theorem untouched_opTrap (h : Nat) (e : TrapEvent) : (s.opTrap h e).untouched = s.untouched := by
  unfold State.opTrap
  dsimp only
  repeat' split
  all_goals simp

@[simp] theorem untouched_opXret (h : Nat) (k : XretKind) : (s.opXret h k).untouched = s.untouched := by simp [State.opXret]
@[simp] theorem untouched_opVendorCsr (h : Nat) (c : VendorCsr) (op : CsrOp) (src : CsrSrc) (rd : Nat) :
    (s.opVendorCsr h c op src rd).untouched = s.untouched := by simp [State.opVendorCsr]
@[simp] theorem untouched_opSettlingEnd (h : Nat) (pc : DWord) : (s.opSettlingEnd h pc).untouched = s.untouched := by simp [State.opSettlingEnd]
@[simp] theorem untouched_opWfi (h : Nat) : (s.opWfi h).untouched = s.untouched := by simp [State.opWfi]
@[simp] theorem untouched_opVmaFence (h : Nat) (k : VmaFence) (rs1 rs2 : Nat) :
    (s.opVmaFence h k rs1 rs2).untouched = s.untouched := by simp [State.opVmaFence]
@[simp] theorem untouched_opFence (h _pred _succ : Nat) : (s.opFence h _pred _succ).untouched = s.untouched := by simp [State.opFence]
@[simp] theorem untouched_opFenceI (h : Nat) : (s.opFenceI h).untouched = s.untouched := by simp [State.opFenceI]

@[simp] theorem untouched_opScoutLimit (h : Nat) (cycles : Bool) : (s.opScoutLimit h cycles).untouched = s.untouched := by
  unfold State.opScoutLimit
  split <;> simp

@[simp] theorem untouched_opScoutEnd (h : Nat) (k : ScoutEnd) : (s.opScoutEnd h k).untouched = s.untouched := by simp [State.opScoutEnd]
@[simp] theorem untouched_opCounterWrap (h n : Nat) : (s.opCounterWrap h n).untouched = s.untouched := by simp [State.opCounterWrap]
@[simp] theorem untouched_opHartWake (h : Nat) : (s.opHartWake h).untouched = s.untouched := by simp [State.opHartWake]
@[simp] theorem untouched_opMtipChange (h : Nat) : (s.opMtipChange h).untouched = s.untouched := by simp [State.opMtipChange]
@[simp] theorem untouched_opLockstep (pair a : Nat) (differ : Bool) :
    (s.opLockstep pair a differ).untouched = s.untouched := by simp [State.opLockstep]

/-! ### Operations of Machine/UsbOps -/

@[simp] theorem untouched_usbEnd (port st detail : Nat) : (s.usbEnd port st detail).untouched = s.untouched := by
  unfold State.usbEnd
  split <;> simp

@[simp] theorem untouched_moving (s : State) (c : Nat) (k : HeddleChannel) (it : HeddleItem) (f : State → State)
    (hf : (f s).untouched = s.untouched) : (s.moving c k it f).untouched = s.untouched := by
  unfold State.moving
  split
  · exact untouched_takeShot ‹_›
  · exact hf

@[simp] theorem untouched_portChange (p b : Nat) : (s.portChange p b).untouched = s.untouched := by simp [State.portChange]
@[simp] theorem untouched_setLine (p v : Nat) : (s.setLine p v).untouched = s.untouched := by simp [State.setLine]
@[simp] theorem untouched_syncSuspended : s.syncSuspended.untouched = s.untouched := by simp [State.syncSuspended]
@[simp] theorem untouched_countTt : s.countTt.untouched = s.untouched := by simp [State.countTt]
@[simp] theorem untouched_freeTt (f : TtBuffer → Bool) : (s.freeTt f).untouched = s.untouched := by simp [State.freeTt]
@[simp] theorem untouched_portGone (p : Nat) : (s.portGone p).untouched = s.untouched := by simp [State.portGone]
@[simp] theorem untouched_disconnect (p : Nat) : (s.disconnect p).untouched = s.untouched := by simp [State.disconnect]
@[simp] theorem untouched_opPortPower (p : Nat) : (s.opPortPower p).untouched = s.untouched := by simp [State.opPortPower]
@[simp] theorem untouched_opClearPortPower (p : Nat) : (s.opClearPortPower p).untouched = s.untouched := by simp [State.opClearPortPower]
@[simp] theorem untouched_opOverCurrent (p : Nat) : (s.opOverCurrent p).untouched = s.untouched := by simp [State.opOverCurrent]
@[simp] theorem untouched_opOverCurrentClear (p : Nat) : (s.opOverCurrentClear p).untouched = s.untouched := by simp [State.opOverCurrentClear]
@[simp] theorem untouched_opPortReset (p : Nat) : (s.opPortReset p).untouched = s.untouched := by simp [State.opPortReset]
@[simp] theorem untouched_opPortSuspend (p : Nat) : (s.opPortSuspend p).untouched = s.untouched := by simp [State.opPortSuspend]
@[simp] theorem untouched_opPortResume (p : Nat) : (s.opPortResume p).untouched = s.untouched := by simp [State.opPortResume]
@[simp] theorem untouched_opClearTt (p addr ep : Nat) (dirIn : Bool) :
    (s.opClearTt p addr ep dirIn).untouched = s.untouched := by simp [State.opClearTt]
@[simp] theorem untouched_opResetTt (p : Nat) : (s.opResetTt p).untouched = s.untouched := by simp [State.opResetTt]
@[simp] theorem untouched_opDetached (p : Nat) : (s.opDetached p).untouched = s.untouched := by simp [State.opDetached]
@[simp] theorem untouched_opRootReset : s.opRootReset.untouched = s.untouched := by simp [State.opRootReset]

theorem untouched_hubPortRequest (s : State) (set : Bool) (feature index : Nat) :
    ∀ t ∈ hubPortRequest s set feature index, t.untouched = s.untouched := by
  unfold hubPortRequest
  dsimp only
  repeat' split
  all_goals simp

theorem forall_mem_ite {α : Type} (c : Prop) [Decidable c] (a b : Option α) (P : α → Prop) :
    (∀ x ∈ (if c then a else b), P x) ↔ (c → ∀ x ∈ a, P x) ∧ (¬ c → ∀ x ∈ b, P x) := by
  split <;> simp [*]

theorem untouched_hubStandard (s : State) (ty req value index : Nat) :
    ∀ x ∈ hubStandard s ty req value index, x.1.untouched = s.untouched := by
  simp only [hubStandard, forall_mem_ite]
  simp

theorem untouched_hubClass (s : State) (ty req value index : Nat) :
    ∀ x ∈ hubClass s ty req value index, x.1.untouched = s.untouched := by
  have h := untouched_hubPortRequest s
  simp only [hubClass, forall_mem_ite]
  simp
  grind

theorem untouched_hubRequest {s t : State} {setup : Nat} {bs : List Byte} (h : hubRequest s setup = some (t, bs)) :
    t.untouched = s.untouched := by
  obtain ⟨x, hx, e⟩ := Option.map_eq_some_iff.1 h
  cases e
  split at hx
  · exact untouched_hubStandard _ _ _ _ _ x hx
  · exact untouched_hubClass _ _ _ _ _ x hx

@[simp] theorem untouched_updateLoad : s.updateLoad.untouched = s.untouched := by simp [State.updateLoad]

@[simp] theorem untouched_opPipeCfg (ni n : Nat) (v : DWord) : (s.opPipeCfg ni n v).untouched = s.untouched := by
  unfold State.opPipeCfg
  dsimp only
  split
  · simp
  · split
    · simp
    · split <;> simp

@[simp] theorem untouched_opUsbhCtrl (ni : Nat) (v : DWord) : (s.opUsbhCtrl ni v).untouched = s.untouched := by simp [State.opUsbhCtrl]
@[simp] theorem untouched_useTurn (n : Nat) : (s.useTurn n).untouched = s.untouched := by simp [State.useTurn]
@[simp] theorem untouched_flipToggle (n : Nat) : (s.flipToggle n).untouched = s.untouched := by simp [State.flipToggle]
@[simp] theorem untouched_xactError (n : Nat) : (s.xactError n).untouched = s.untouched := by simp [State.xactError]
@[simp] theorem untouched_xactNak (n : Nat) (ping : Bool) : (s.xactNak n ping).untouched = s.untouched := by simp [State.xactNak]
@[simp] theorem untouched_xactNyet (n : Nat) : (s.xactNyet n).untouched = s.untouched := by simp [State.xactNyet]
@[simp] theorem untouched_xactGood (n : Nat) : (s.xactGood n).untouched = s.untouched := by simp [State.xactGood]

@[simp] theorem untouched_pipeOut (s : State) (n : Nat) (cfg : PipeCfg) (c : Nat) (k : HeddleChannel) (it : HeddleItem) (r : UsbReply) :
    (s.pipeOut n cfg c k it r).untouched = s.untouched := by
  unfold State.pipeOut
  dsimp only
  split
  · simp
  · refine untouched_moving _ _ _ _ _ ?_
    split
    · simp
    · split
      · simp
      · split <;> simp

@[simp] theorem untouched_pipeIn (s : State) (n : Nat) (cfg : PipeCfg) (c : Nat) (k : HeddleChannel) (it : HeddleItem) (r : UsbReply) :
    (s.pipeIn n cfg c k it r).untouched = s.untouched := by
  unfold State.pipeIn
  extract_lets port len
  split
  · split
    · simp
    · split
      · simp
      · refine untouched_moving _ _ _ _ _ ?_
        extract_lets x s1
        split <;> simp +zetaDelta
  all_goals simp

@[simp] theorem untouched_isoCut (iso : Bool) (most c : Nat) (it : HeddleItem) :
    (s.isoCut iso most c it).untouched = s.untouched := by simp [State.isoCut]

@[simp] theorem untouched_dataXact (n : Nat) (r : UsbReply) : (s.dataXact n r).untouched = s.untouched := by
  unfold State.dataXact
  split <;> simp

@[simp] theorem untouched_controlSetup (n c : Nat) (k : HeddleChannel) (it : HeddleItem) : (s.controlSetup n c k it).1.untouched = s.untouched := by
  unfold State.controlSetup
  dsimp only
  split <;> simp

@[simp] theorem untouched_controlDone (n v bytes : Nat) : (s.controlDone n v bytes).untouched = s.untouched := by simp [State.controlDone]

@[simp] theorem untouched_controlHub (s : State) (n c : Nat) (k : HeddleChannel) (it : HeddleItem) (v : Nat) :
    (s.controlHub n c k it v).untouched = s.untouched := by
  unfold State.controlHub
  split
  · simp
  · have h := untouched_hubRequest ‹_›
    split
    · simp [h]
    · refine (untouched_moving _ _ _ _ _ ?_).trans h
      dsimp only
      split <;> simp

@[simp] theorem untouched_controlXact (s : State) (n c : Nat) (k : HeddleChannel) (it : HeddleItem) (v : Nat) (r : UsbReply) :
    (s.controlXact n c k it v r).untouched = s.untouched := by
  unfold State.controlXact
  extract_lets port cfg w inn stage fail
  have hfail (t : State) : (fail t).untouched = t.untouched := by
    unfold fail
    split <;> simp
  split
  · split
    · simp
    · exact hfail s
  · split
    · split
      · split
        · simp
        · split
          · simp
          · refine untouched_moving _ _ _ _ _ ?_
            dsimp only
            split <;> simp
      · exact hfail s
    · split
      · dsimp only
        split
        · simp
        · split
          · refine untouched_moving _ _ _ _ _ ?_
            split <;> simp
          · simp [hfail]
      · simp [hfail]

@[simp] theorem untouched_controlTurn (s : State) (n : Nat) (r : UsbReply) : (s.controlTurn n r).untouched = s.untouched := by
  unfold State.controlTurn
  split
  · rfl
  · split
    · exact untouched_of_pair_fst ‹_› (by simp)
    · simp [untouched_of_pair_fst ‹_› (untouched_controlSetup _ _ _ _ _)]

@[simp] theorem untouched_dataTurn (n : Nat) (r : UsbReply) : (s.dataTurn n r).untouched = s.untouched := by
  unfold State.dataTurn
  dsimp only
  split
  · split <;> simp
  · simp

@[simp] theorem untouched_hostTurn (n : Nat) (control : Bool) (r : UsbReply) : (s.hostTurn n control r).untouched = s.untouched := by
  unfold State.hostTurn
  dsimp only
  repeat' split
  all_goals simp

@[simp] theorem untouched_countStart (p : Nat) : (s.countStart p).untouched = s.untouched := by simp [State.countStart]
@[simp] theorem untouched_startSplit (n : Nat) (cfg : PipeCfg) : (s.startSplit n cfg).untouched = s.untouched := by simp [State.startSplit]

@[simp] theorem untouched_beginSplit (s : State) (n : Nat) (cfg : PipeCfg) (c : Nat) (k : HeddleChannel) (it : HeddleItem) :
    (s.beginSplit n cfg c k it).untouched = s.untouched := by
  unfold State.beginSplit
  split
  · split
    · exact untouched_of_pair_fst ‹_› (by simp)
    · simp [untouched_of_pair_fst ‹_› (untouched_controlSetup _ _ _ _ _)]
  · simp

@[simp] theorem untouched_endSplit (n : Nat) (cfg : PipeCfg) (r : UsbReply) : (s.endSplit n cfg r).untouched = s.untouched := by simp [State.endSplit]

@[simp] theorem untouched_opSplit (n : Nat) (complete : Bool) (r : Option UsbReply) : (s.opSplit n complete r).untouched = s.untouched := by
  unfold State.opSplit
  dsimp only
  repeat' split
  all_goals simp

@[simp] theorem untouched_duePipe (m n : Nat) : (s.duePipe m n).untouched = s.untouched := by simp [State.duePipe]
@[simp] theorem untouched_hostMicroframe : s.hostMicroframe.untouched = s.untouched := by simp [State.hostMicroframe]
@[simp] theorem untouched_serviceSof (f : Nat) : (s.serviceSof f).untouched = s.untouched := by simp [State.serviceSof]

@[simp] theorem untouched_opMicroframe (sof : Option Nat) : (s.opMicroframe sof).untouched = s.untouched := by
  unfold State.opMicroframe
  split <;> simp

@[simp] theorem untouched_releaseChannel (port : Nat) : (s.releaseChannel port).untouched = s.untouched := by
  unfold State.releaseChannel
  split <;> simp

@[simp] theorem untouched_opPipeClear (n : Nat) : (s.opPipeClear n).untouched = s.untouched := by simp [State.opPipeClear]
@[simp] theorem untouched_opPipeCtrl (ni n : Nat) (v : DWord) : (s.opPipeCtrl ni n v).untouched = s.untouched := by simp [State.opPipeCtrl]
@[simp] theorem untouched_usbhStop : s.usbhStop.untouched = s.untouched := by simp [State.usbhStop]
@[simp] theorem untouched_hubStop : s.hubStop.untouched = s.untouched := by simp [State.hubStop]

/-! ### Operations of Machine/Usb -/

@[simp] theorem untouched_epEnd (e st detail : Nat) : (s.epEnd e st detail).untouched = s.untouched := by simp [State.epEnd]
@[simp] theorem untouched_epReply (e : Nat) (a : UsbAnswer) : (s.epReply e a).untouched = s.untouched := by simp [State.epReply]

@[simp] theorem untouched_drainOut (n : Nat) (s : State) (e : Nat) : (drainOut n s e).untouched = s.untouched := by
  induction n generalizing s with
  | zero => rfl
  | succ n ih =>
    unfold drainOut
    split
    · dsimp only
      split <;> simp [ih]
    · rfl

@[simp] theorem untouched_fillIn (n : Nat) (s : State) (e : Nat) : (fillIn n s e).untouched = s.untouched := by
  induction n generalizing s with
  | zero => rfl
  | succ n ih =>
    unfold fillIn
    split
    · rfl
    · split
      · rfl
      · dsimp only
        split <;> simp [ih]

@[simp] theorem untouched_epMove (s : State) (e c : Nat) (k : HeddleChannel) (it : HeddleItem) : (s.epMove e c k it).untouched = s.untouched := by
  simp [State.epMove]

@[simp] theorem untouched_epWork (e : Nat) : (s.epWork e).untouched = s.untouched := by
  unfold State.epWork
  split <;> simp

@[simp] theorem untouched_epRevive (e : Nat) : (s.epRevive e).untouched = s.untouched := by simp [State.epRevive]
@[simp] theorem untouched_epOut (e : Nat) (t : Bool) (bs : List Byte) : (s.epOut e t bs).untouched = s.untouched := by simp [State.epOut]

@[simp] theorem untouched_epSent (e : Nat) : (s.epSent e).untouched = s.untouched := by
  unfold State.epSent
  dsimp only
  split
  · simp
  · split <;> simp

@[simp] theorem untouched_epInToken (e : Nat) (r : UsbReply) : (s.epInToken e r).untouched = s.untouched := by simp [State.epInToken]

@[simp] theorem untouched_epOutToken (e : Nat) (r : UsbReply) : (s.epOutToken e r).untouched = s.untouched := by
  unfold State.epOutToken
  split <;> simp

@[simp] theorem untouched_epTurn (e : Nat) (r : UsbReply) : (s.epTurn e r).untouched = s.untouched := by simp [State.epTurn]
@[simp] theorem untouched_busResetSteps : s.busResetSteps.untouched = s.untouched := by simp [State.busResetSteps]
@[simp] theorem untouched_opBusReset (answered : Bool) : (s.opBusReset answered).untouched = s.untouched := by simp [State.opBusReset]
@[simp] theorem untouched_pullUp : s.pullUp.untouched = s.untouched := by simp [State.pullUp]
@[simp] theorem untouched_vbusSync : s.vbusSync.untouched = s.untouched := by simp [State.vbusSync]
@[simp] theorem untouched_setVbus (on : Bool) : (s.setVbus on).untouched = s.untouched := by simp [State.setVbus]

@[simp] theorem untouched_opHalt (e : Nat) : (s.opHalt e).untouched = s.untouched := by
  unfold State.opHalt
  dsimp only
  split <;> simp

@[simp] theorem untouched_opEndpointClear (e : Nat) : (s.opEndpointClear e).untouched = s.untouched := by simp [State.opEndpointClear]
@[simp] theorem untouched_opUsbdHalt (ni : Nat) (v : DWord) : (s.opUsbdHalt ni v).untouched = s.untouched := by simp [State.opUsbdHalt]
@[simp] theorem untouched_opRemoteWake : s.opRemoteWake.untouched = s.untouched := by simp [State.opRemoteWake]
@[simp] theorem untouched_opUsbdCtrl (ni : Nat) (v : DWord) : (s.opUsbdCtrl ni v).untouched = s.untouched := by simp [State.opUsbdCtrl]
@[simp] theorem untouched_opAck : s.opAck.untouched = s.untouched := by simp [State.opAck]
@[simp] theorem untouched_opStall : s.opStall.untouched = s.untouched := by simp [State.opStall]
@[simp] theorem untouched_opEp0Ctrl (ni : Nat) (v : DWord) : (s.opEp0Ctrl ni v).untouched = s.untouched := by simp [State.opEp0Ctrl]

theorem untouched_ownRequest {s t : State} {v : Nat} (h : s.ownRequest v = some t) : t.untouched = s.untouched := by
  unfold State.ownRequest at h
  split at h
  · cases h
  · repeat' split at h
    all_goals (cases h; try simp)

@[simp] theorem untouched_opSetup (s : State) (v : BitVec 64) : (s.opSetup v).untouched = s.untouched := by
  unfold State.opSetup
  split
  · rfl
  · dsimp only
    split
    · simp [untouched_ownRequest ‹_›]
    · simp

@[simp] theorem untouched_opSuspend : s.opSuspend.untouched = s.untouched := by simp [State.opSuspend]
@[simp] theorem untouched_opHostResume : s.opHostResume.untouched = s.untouched := by simp [State.opHostResume]
@[simp] theorem untouched_opEpCfg (ni e : Nat) (v : DWord) : (s.opEpCfg ni e v).untouched = s.untouched := by simp [State.opEpCfg]
@[simp] theorem untouched_usbdStop : s.usbdStop.untouched = s.untouched := by simp [State.usbdStop]
@[simp] theorem untouched_usbAbort (port : Nat) : (s.usbAbort port).untouched = s.untouched := by simp [State.usbAbort]

/-! ### Operations of Machine/Move -/

@[simp] theorem untouched_moveCopy (c : Nat) (k : HeddleChannel) (it : HeddleItem) : (s.moveCopy c k it).untouched = s.untouched := by
  unfold State.moveCopy
  dsimp only
  split
  · simp
  · split <;> simp

@[simp] theorem untouched_moveFill (c : Nat) (k : HeddleChannel) (it : HeddleItem) : (s.moveFill c k it).untouched = s.untouched := by
  unfold State.moveFill
  dsimp only
  split <;> simp

@[simp] theorem untouched_moveCrc (c : Nat) (k : HeddleChannel) (it : HeddleItem) : (s.moveCrc c k it).untouched = s.untouched := by
  unfold State.moveCrc
  dsimp only
  repeat' split
  all_goals simp

@[simp] theorem untouched_movePiece (c : Nat) (k : HeddleChannel) (it : HeddleItem) :
    (s.movePiece c k it).untouched = s.untouched := by simp [State.movePiece]
@[simp] theorem untouched_moveTimeout (c : Nat) (k : HeddleChannel) (it : HeddleItem) (moved : Bool) :
    (s.moveTimeout c k it moved).untouched = s.untouched := by simp [State.moveTimeout]

@[simp] theorem untouched_opMove (s : State) (c acked : Nat) (e : MoveEnd) : (s.opMove c acked e).untouched = s.untouched := by
  unfold State.opMove
  dsimp only
  split
  · simp
  · split
    · simp
    · split
      · simp
      · split
        · exact (untouched_takeShot ‹_›).trans (by simp)
        all_goals simp

/-! ### Operations of Machine/InstanceOps -/

@[simp] theorem untouched_tableRead (s : State) (a n : Nat) : (s.tableRead a n).1.untouched = s.untouched := by
  unfold State.tableRead
  split
  · rfl
  · split <;> exact untouched_of_pair_fst ‹_› (by simp)

@[simp] theorem untouched_writeGen (i : Nat) : (s.writeGen i).untouched = s.untouched := by simp [State.writeGen]
@[simp] theorem untouched_advanceGen (i : Nat) : (s.advanceGen i).untouched = s.untouched := by simp [State.advanceGen]

@[simp] theorem untouched_instanceEntry (s : State) (i : Nat) : (s.instanceEntry i).1.untouched = s.untouched := by
  unfold State.instanceEntry
  split
  · exact untouched_of_pair_fst ‹_› (by simp)
  · have h := untouched_of_pair_fst ‹_› (untouched_tableRead _ _ _)
    split
    · exact h
    · split <;> exact h

@[simp] theorem untouched_cmdCreate (s : State) (i : Nat) : (s.cmdCreate i).1.untouched = s.untouched := by
  unfold State.cmdCreate
  split
  · rfl
  · split
    · rfl
    · split
      · exact untouched_of_pair_fst ‹_› (by simp)
      · simp [untouched_of_pair_fst ‹_› (untouched_instanceEntry _ _)]

@[simp] theorem untouched_cmdAssign (s : State) (i : Nat) : (s.cmdAssign i).1.untouched = s.untouched := by
  unfold State.cmdAssign
  split
  · rfl
  · split
    · rfl
    · split
      · exact untouched_of_pair_fst ‹_› (by simp)
      · have h := untouched_of_pair_fst ‹_› (untouched_instanceEntry _ _)
        split <;> simp [h]

@[simp] theorem untouched_flushItems (c : Nat) (e : HeddleEntry) (head n : Nat) :
    (s.flushItems c e head n).untouched = s.untouched := by simp [State.flushItems]
@[simp] theorem untouched_commitLive (c : Nat) (e : HeddleEntry) (head tail : Nat) (flush : Bool) :
    (s.commitLive c e head tail flush).untouched = s.untouched := by simp [State.commitLive]

@[simp] theorem untouched_commitEntry (s : State) (c : Nat) (flush : Bool) : (s.commitEntry c flush).1.untouched = s.untouched := by
  unfold State.commitEntry
  split
  · exact untouched_of_pair_fst ‹_› (by simp)
  · have h := untouched_of_pair_fst ‹_› (untouched_tableRead _ _ _)
    split
    · exact h
    · split
      · dsimp only
        split
        · exact h
        · split <;> simp [h]
      · split
        · exact h
        · split <;> simp [h]

@[simp] theorem untouched_cmdCommitChannel (s : State) (c : Nat) (flush : Bool) : (s.cmdCommitChannel c flush).1.untouched = s.untouched := by
  unfold State.cmdCommitChannel
  split
  · rfl
  · split
    · exact untouched_of_pair_fst ‹_› (by simp)
    · simp

@[simp] theorem untouched_cmdCommitQueue (s : State) (q : Nat) : (s.cmdCommitQueue q).1.untouched = s.untouched := by
  unfold State.cmdCommitQueue
  split
  · rfl
  · split
    · exact untouched_of_pair_fst ‹_› (by simp)
    · have h := untouched_of_pair_fst ‹_› (untouched_tableRead _ _ _)
      split
      · exact h
      · split
        · exact h
        · split
          · exact h
          · split
            · exact h
            · split
              · exact h
              · dsimp only
                split <;> simp [h]

@[simp] theorem untouched_drainChannel (c : Nat) : (s.drainChannel c).untouched = s.untouched := by
  unfold State.drainChannel
  split <;> simp

@[simp] theorem untouched_cmdDrain (s : State) (i : Nat) : (s.cmdDrain i).1.untouched = s.untouched := by
  simp [State.cmdDrain]

@[simp] theorem untouched_abortPort (c : Nat) (e : HeddleEntry) (it : Option HeddleItem) :
    (s.abortPort c e it).untouched = s.untouched := by simp [State.abortPort]
@[simp] theorem untouched_dropQueued (c : Nat) : (s.dropQueued c).untouched = s.untouched := by simp [State.dropQueued]

@[simp] theorem untouched_squashChannel (c : Nat) : (s.squashChannel c).untouched = s.untouched := by
  unfold State.squashChannel
  split <;> simp

@[simp] theorem untouched_squash (i : Nat) : (s.squash i).untouched = s.untouched := by simp [State.squash]

@[simp] theorem untouched_cmdSquash (s : State) (i : Nat) : (s.cmdSquash i).1.untouched = s.untouched := by
  simp [State.cmdSquash]

@[simp] theorem untouched_tablesMeet : s.tablesMeet.untouched = s.untouched := by simp [State.tablesMeet]
@[simp] theorem untouched_opResetDone (i us : Nat) : (s.opResetDone i us).untouched = s.untouched := by simp [State.opResetDone]

@[simp] theorem untouched_cmdDestroy (i : Nat) : (s.cmdDestroy i).1.untouched = s.untouched := by
  unfold State.cmdDestroy
  dsimp only
  split
  · simp
  · split
    · simp
    · split <;> simp

@[simp] theorem untouched_opMgmtCmd (ni : Nat) (v : DWord) : (s.opMgmtCmd ni v).untouched = s.untouched := by
  unfold State.opMgmtCmd
  dsimp only
  split <;> simp

@[simp] theorem untouched_mgmtWrite (q : Req) (v : DWord) : (s.mgmtWrite q v).untouched = s.untouched := by simp [State.mgmtWrite]
@[simp] theorem untouched_squashAll : s.squashAll.untouched = s.untouched := by simp [State.squashAll]

/-! ### Operations of Machine/Heddle -/

@[simp] theorem untouched_opDoorbell (i j tail : Nat) : (s.opDoorbell i j tail).untouched = s.untouched := by
  unfold State.opDoorbell
  dsimp only
  repeat' split
  all_goals simp

@[simp] theorem untouched_opQueueHead (i j head : Nat) : (s.opQueueHead i j head).untouched = s.untouched := by
  unfold State.opQueueHead
  dsimp only
  repeat' split
  all_goals simp

@[simp] theorem untouched_dbStore (i o v : Nat) (word : Bool) : (s.dbStore i o v word).untouched = s.untouched := by simp [State.dbStore]

theorem untouched_onCopy {s : State} {first stride count a : Nat} {f : Nat → State} {g : State}
    (hf : ∀ n, (f n).untouched = s.untouched) (hg : g.untouched = s.untouched) :
    (onCopy first stride count a f g).untouched = s.untouched := by
  unfold onCopy
  split
  · exact hf _
  · exact hg

@[simp] theorem untouched_opChannelFetch (s : State) : s.opChannelFetch.untouched = s.untouched := by
  unfold State.opChannelFetch
  split
  · rfl
  · split
    · rfl
    · split
      · rfl
      · have h := untouched_of_pair_fst ‹_› (untouched_cacheChannel s _)
        split <;> simp [h]

@[simp] theorem untouched_opItemFetch (c : Nat) : (s.opItemFetch c).untouched = s.untouched := by
  unfold State.opItemFetch
  dsimp only
  repeat' split
  all_goals simp

theorem untouched_prefetchAddr (i a which : Nat) (write : Bool) (x : State × Option (Nat × Nat)) :
    (prefetchAddr i a which write x).1.untouched = x.1.untouched := by
  unfold prefetchAddr
  split
  · rfl
  · split <;> exact untouched_of_pair_fst ‹_› (by simp)

@[simp] theorem untouched_opItemPrefetch (s : State) (c : Nat) : (s.opItemPrefetch c).untouched = s.untouched := by
  unfold State.opItemPrefetch
  split
  · rfl
  · split
    · rfl
    · extract_lets idx i
      have hx := untouched_heddleXlate
      split
      · exact (untouched_of_pair_fst ‹_› (hx _ _ _ _ _)).trans (by simp)
      · simp [untouched_of_pair_fst ‹_› (hx _ _ _ _ _)]
      · have h := untouched_of_pair_fst ‹_› (hx _ _ _ _ _)
        split
        rename_i s2 it e
        have h2 : s2.untouched = s.untouched := by
          rw [untouched_of_pair_fst e (untouched_readItem _ _ _ _ _), h]
          simp
        extract_lets src dst x1 x2
        have h1 : x1.1.untouched = s2.untouched := by
          unfold x1
          split
          · exact untouched_prefetchAddr _ _ _ _ _
          · rfl
        have hx2 : x2.1.untouched = s.untouched := by
          unfold x2
          split
          · rw [untouched_prefetchAddr, h1, h2]
          · rw [h1, h2]
        split <;> simp [hx2]

@[simp] theorem untouched_opChcInv (s : State) (ni : Nat) (v : DWord) : (s.opChcInv ni v).untouched = s.untouched := by
  unfold State.opChcInv
  dsimp only
  split
  · simp
  · split
    · simp
    · split
      · refine (untouched_setFld _ _ _).trans ((untouched_forAll _ _ _ fun c t => ?_).trans (by simp))
        split <;> simp
      · split
        · simp
        · split <;> simp

@[simp] theorem untouched_opIotlbInv (ni : Nat) (v : DWord) : (s.opIotlbInv ni v).untouched = s.untouched := by simp [State.opIotlbInv]
@[simp] theorem untouched_opInvDone (iotlb : Bool) : (s.opInvDone iotlb).untouched = s.untouched := by simp [State.opInvDone]

@[simp] theorem untouched_opLateResult (i : Nat) : (s.opLateResult i).untouched = s.untouched := by
  unfold State.opLateResult
  split <;> simp

@[simp] theorem untouched_drainShort (s : State) (c : Nat) : (s.drainShort c).untouched = s.untouched := by
  unfold State.drainShort
  split
  · rfl
  · split <;> simp

/-! ### Operations of Machine/Loom -/

@[simp] theorem untouched_opLoomRequest (s : State) (k : LoomPacket) : (s.opLoomRequest k).untouched = s.untouched := by
  unfold State.opLoomRequest
  extract_lets i addr res t pref
  clear_value t res
  split
  · rfl
  · dsimp only
    split
    · rfl
    · split
      · simp
      · split
        · rfl
        · split
          · split
            · simp [untouched_takeToken ‹_›]
            · rfl
          · split
            · rfl
            · split
              · simp
              · split
                · simp [untouched_takeToken ‹_›]
                · rfl

@[simp] theorem untouched_opSpecReturn (i t : Nat) : (s.opSpecReturn i t).untouched = s.untouched := by simp [State.opSpecReturn]

@[simp] theorem untouched_loomFault (t : LoomTxn) (move : Nat × Nat) : (s.loomFault t move).untouched = s.untouched := by
  unfold State.loomFault
  dsimp only
  repeat' split
  all_goals simp

@[simp] theorem untouched_opLoomResponse (i x status halves li lt : Nat) : (s.opLoomResponse i x status halves li lt).untouched = s.untouched := by
  unfold State.opLoomResponse
  dsimp only
  repeat' split
  all_goals simp

@[simp] theorem untouched_opHomeCheck (i x : Nat) : (s.opHomeCheck i x).untouched = s.untouched := by
  unfold State.opHomeCheck
  split <;> simp

@[simp] theorem untouched_opLateReturn (i x : Nat) : (s.opLateReturn i x).untouched = s.untouched := by
  unfold State.opLateReturn
  split <;> simp

@[simp] theorem untouched_opAging (router plane i x : Nat) : (s.opAging router plane i x).untouched = s.untouched := by
  unfold State.opAging
  split <;> simp

@[simp] theorem untouched_opAbandon (i x : Nat) : (s.opAbandon i x).untouched = s.untouched := by
  unfold State.opAbandon
  split <;> simp

@[simp] theorem untouched_xipTimeout (i : Nat) : (s.xipTimeout i).untouched = s.untouched := by
  unfold State.xipTimeout
  dsimp only
  split
  · simp
  · split <;> simp

@[simp] theorem untouched_opInitiatorTimeout (i x : Nat) : (s.opInitiatorTimeout i x).untouched = s.untouched := by
  unfold State.opInitiatorTimeout
  dsimp only
  split
  · simp
  · split <;> simp

@[simp] theorem untouched_opFlitEcc (router plane : Nat) (ue : Bool) (i x : Nat) : (s.opFlitEcc router plane ue i x).untouched = s.untouched := by
  unfold State.opFlitEcc
  dsimp only
  repeat' split
  all_goals simp

@[simp] theorem untouched_opStatCfg (ni n : Nat) (v : DWord) : (s.opStatCfg ni n v).untouched = s.untouched := by simp [State.opStatCfg]
@[simp] theorem untouched_opProbeCtrl (ni n : Nat) (v : DWord) : (s.opProbeCtrl ni n v).untouched = s.untouched := by simp [State.opProbeCtrl]
@[simp] theorem untouched_trace (n plane head flit1 cycle : Nat) : (s.trace n plane head flit1 cycle).untouched = s.untouched := by simp [State.trace]
@[simp] theorem untouched_opProbeMatch (n head flit1 flits waited cycle : Nat) :
    (s.opProbeMatch n head flit1 flits waited cycle).untouched = s.untouched := by simp [State.opProbeMatch]

/-! ### Operations of Machine/MemCtlOps -/

@[simp] theorem untouched_opL3Maint (ni : Nat) (v : DWord) : (s.opL3Maint ni v).untouched = s.untouched := by simp [State.opL3Maint]

@[simp] theorem untouched_maintDone : s.maintDone.untouched = s.untouched := by
  unfold State.maintDone
  split <;> simp

@[simp] theorem untouched_scrubSlice (slice index hit word : Nat) (up : List Nat) :
    (s.scrubSlice slice index hit word up).untouched = s.untouched := by
  unfold State.scrubSlice
  dsimp only
  repeat' split
  all_goals simp

@[simp] theorem untouched_scrubL3 (slice hit word : Nat) (up : List Nat) :
    (s.scrubL3 slice hit word up).untouched = s.untouched := by simp [State.scrubL3]

@[simp] theorem untouched_scrubSram (s : State) (hit : SramArray) (word : Nat) (up : List Nat) :
    (s.scrubSram hit word up).untouched = s.untouched := by
  unfold State.scrubSram
  split
  · rfl
  · extract_lets k one s1 s2 _ s3
    have hone (c : CacheId) (array h : Nat) (isHit : Bool) (t : State) : (one c array h isHit t).untouched = t.untouched := by
      unfold one
      split <;> simp
    have h1 : s1.untouched = s.untouched := untouched_forEach _ _ _ fun h t => by simp [hone]
    have h3 : s3.untouched = s.untouched := by simp [s3, s2, h1]
    simp [h3]

@[simp] theorem untouched_noteRate (s before : State) : (s.noteRate before).untouched = s.untouched := by simp [State.noteRate]

@[simp] theorem untouched_readTemps (a b : Byte) : (s.readTemps a b).untouched = s.untouched := by simp [State.readTemps]
@[simp] theorem untouched_refresh (channel : Nat) : (s.refresh channel).untouched = s.untouched := by simp [State.refresh]
@[simp] theorem untouched_dmcAccept (a len : Nat) (data : List Byte) (guar : Bool) (prio : Nat) :
    (s.dmcAccept a len data guar prio).untouched = s.untouched := by simp [State.dmcAccept]

@[simp] theorem untouched_dmcServe (channel : Nat) : (s.dmcServe channel).untouched = s.untouched := by
  unfold State.dmcServe
  split <;> simp

@[simp] theorem untouched_dmcAge (s : State) (channel k ns : Nat) : (s.dmcAge channel k ns).untouched = s.untouched := by
  unfold State.dmcAge
  split
  · rfl
  · split <;> simp

@[simp] theorem untouched_dmcIdle (channel bank ns : Nat) : (s.dmcIdle channel bank ns).untouched = s.untouched := by simp [State.dmcIdle]

@[simp] theorem untouched_dramStep (s : State) (k : DramStep) : (s.dramStep k).untouched = s.untouched := by
  unfold State.dramStep
  split
  · rfl
  · split <;> simp

@[simp] theorem untouched_scrubIssue (channel word : Nat) (up : List Nat) :
    (s.scrubIssue channel word up).untouched = s.untouched := by simp [State.scrubIssue]
@[simp] theorem untouched_scrubDmc (channel word : Nat) (up : List Nat) :
    (s.scrubDmc channel word up).untouched = s.untouched := by simp [State.scrubDmc]
@[simp] theorem untouched_demandEcc (array unit a : Nat) (check : Bool) (up : List Nat) :
    (s.demandEcc array unit a check up).untouched = s.untouched := by simp [State.demandEcc]
@[simp] theorem untouched_mramWrite (w mask : Nat) (data : DWord) : (s.mramWrite w mask data).untouched = s.untouched := by simp [State.mramWrite]

/-! ### Operations of Machine/TetherOps -/

@[simp] theorem untouched_modTether (f : TetherState → TetherState) : (s.modTether f).untouched = s.untouched := by simp [State.modTether]
@[simp] theorem untouched_tetherAbort (reason : Nat) : (s.tetherAbort reason).untouched = s.untouched := by simp [State.tetherAbort]
@[simp] theorem untouched_setLive (st : Nat) : (s.setLive st).untouched = s.untouched := by simp [State.setLive]
@[simp] theorem untouched_liveEnd (x : LiveAccess) (resp : Nat) (data : BitVec 32) :
    (s.liveEnd x resp data).untouched = s.untouched := by simp [State.liveEnd]
@[simp] theorem untouched_liveCommit (x : LiveAccess) : (s.liveCommit x).untouched = s.untouched := by simp [State.liveCommit]
@[simp] theorem untouched_liveLo (v : Nat) : (s.liveLo v).untouched = s.untouched := by simp [State.liveLo]
@[simp] theorem untouched_liveStream (v : Nat) : (s.liveStream v).untouched = s.untouched := by simp [State.liveStream]
@[simp] theorem untouched_tetherReq (v : Nat) : (s.tetherReq v).untouched = s.untouched := by simp [State.tetherReq]
@[simp] theorem untouched_opAttnSet (ni : Nat) (v : DWord) : (s.opAttnSet ni v).untouched = s.untouched := by simp [State.opAttnSet]
@[simp] theorem untouched_tetherKick (v : Nat) : (s.tetherKick v).untouched = s.untouched := by simp [State.tetherKick]
@[simp] theorem untouched_opPwdg (ni : Nat) (v : DWord) : (s.opPwdg ni v).untouched = s.untouched := by simp [State.opPwdg]
@[simp] theorem untouched_pwdgExpire : s.pwdgExpire.untouched = s.untouched := by simp [State.pwdgExpire]
@[simp] theorem untouched_windowClear (i : Nat) : (s.windowClear i).untouched = s.untouched := by simp [State.windowClear]
@[simp] theorem untouched_windowWrite (i v : Nat) : (s.windowWrite i v).untouched = s.untouched := by simp [State.windowWrite]

@[simp] theorem untouched_windowWords (s : State) (i : Nat) (ws : List Nat) : (s.windowWords i ws).untouched = s.untouched := by
  induction ws generalizing s i with
  | nil => rfl
  | cons v vs ih => simp [State.windowWords, ih]

@[simp] theorem untouched_commitFrame (i : Nat) (ws : List Nat) : (s.commitFrame i ws).untouched = s.untouched := by simp [State.commitFrame]

@[simp] theorem untouched_readWords (k : Nat) (s : State) (i n : Nat) : (s.readWords k i n).2.untouched = s.untouched := by
  induction k generalizing s i n with
  | zero => rfl
  | succ k ih =>
    unfold State.readWords
    dsimp only
    split
    · rfl
    · split <;> simp [ih]

@[simp] theorem untouched_readCrcWords (k : Nat) (s : State) (i n : Nat) (sent : List Byte) :
    (s.readCrcWords k i n sent).2.untouched = s.untouched := by
  induction k generalizing s i n sent with
  | zero => rfl
  | succ k ih =>
    unfold State.readCrcWords
    dsimp only
    split
    · rfl
    · split <;> simp [ih]

@[simp] theorem untouched_frameBody (rd crc : Bool) (i : Nat) (command body : List Bool) :
    (s.frameBody rd crc i command body).2.untouched = s.untouched := by
  unfold State.frameBody
  dsimp only
  split <;> simp

@[simp] theorem untouched_tetherFrame (bits : List Bool) : (s.tetherFrame bits).untouched = s.untouched := by
  unfold State.tetherFrame
  dsimp only
  split <;> simp

/-! ### Operations of Machine/BridgeOps -/

@[simp] theorem untouched_plain (ni a : Nat) (v : DWord) : (s.plain ni a v).untouched = s.untouched := by simp [State.plain]
@[simp] theorem untouched_sysWrite (ni a : Nat) (v : DWord) : (s.sysWrite ni a v).untouched = s.untouched := by simp [State.sysWrite]
@[simp] theorem untouched_pwrWrite (ni a : Nat) (v : DWord) : (s.pwrWrite ni a v).untouched = s.untouched := by simp [State.pwrWrite]

@[simp] theorem untouched_belayWrite (s : State) (ni a : Nat) (v : DWord) : (s.belayWrite ni a v).untouched = s.untouched := by
  unfold State.belayWrite
  iterate 5 refine untouched_ite_of (by simp) ?_
  iterate 2 refine untouched_onCopy (by simp) ?_
  simp

@[simp] theorem untouched_screeWrite (ni a : Nat) (v : DWord) : (s.screeWrite ni a v).untouched = s.untouched := by simp [State.screeWrite]
@[simp] theorem untouched_pageLock (index : Nat) : (s.pageLock index).untouched = s.untouched := by simp [State.pageLock]

@[simp] theorem untouched_pitonWrite (s : State) (ni a : Nat) (v : DWord) : (s.pitonWrite ni a v).untouched = s.untouched := by
  unfold State.pitonWrite
  exact untouched_onCopy (by simp) (by simp)

@[simp] theorem untouched_timerWrite (s : State) (ni a : Nat) (v : DWord) : (s.timerWrite ni a v).untouched = s.untouched := by
  unfold State.timerWrite
  rw [untouched_settle]
  iterate 3 refine untouched_ite_of (by simp) ?_
  exact untouched_onCopy (by simp) (by simp)

@[simp] theorem untouched_reedWrite (s : State) (ni a : Nat) (v : DWord) : (s.reedWrite ni a v).untouched = s.untouched := by
  unfold State.reedWrite
  iterate 3 refine untouched_ite_of (by simp) ?_
  iterate 1 refine untouched_onCopy (by simp) ?_
  simp

@[simp] theorem untouched_shuttleWrite (s : State) (ni a : Nat) (v : DWord) : (s.shuttleWrite ni a v).untouched = s.untouched := by
  unfold State.shuttleWrite
  iterate 2 refine untouched_ite_of (by simp) ?_
  iterate 2 refine untouched_onCopy (by simp) ?_
  simp

@[simp] theorem untouched_loomWrite (s : State) (ni a : Nat) (v : DWord) : (s.loomWrite ni a v).untouched = s.untouched := by
  unfold State.loomWrite
  iterate 1 refine untouched_ite_of (by simp) ?_
  iterate 2 refine untouched_onCopy (by simp) ?_
  simp

@[simp] theorem untouched_memWrite (ni a : Nat) (v : DWord) : (s.memWrite ni a v).untouched = s.untouched := by simp [State.memWrite]
@[simp] theorem untouched_heddleWriteReg (ni a : Nat) (v : DWord) :
    (s.heddleWriteReg ni a v).untouched = s.untouched := by simp [State.heddleWriteReg]

@[simp] theorem untouched_usbWrite (s : State) (ni a : Nat) (v : DWord) : (s.usbWrite ni a v).untouched = s.untouched := by
  unfold State.usbWrite
  iterate 4 refine untouched_ite_of (by simp) ?_
  iterate 2 refine untouched_onCopy (by simp) ?_
  split <;> simp

@[simp] theorem untouched_fieldWrite (s : State) (ni a : Nat) (v : DWord) : (s.fieldWrite ni a v).untouched = s.untouched := by
  unfold State.fieldWrite
  iterate 5 refine untouched_ite_of (by simp) ?_
  iterate 7 refine untouched_onCopy (by simp) ?_
  simp

@[simp] theorem untouched_tetherWrite (ni a : Nat) (v : DWord) : (s.tetherWrite ni a v).untouched = s.untouched := by simp [State.tetherWrite]

@[simp] theorem untouched_secWrite (s : State) (ni a : Nat) (v : DWord) : (s.secWrite ni a v).untouched = s.untouched := by
  unfold State.secWrite
  iterate 6 refine untouched_ite_of (by simp) ?_
  iterate 2 refine untouched_onCopy (by simp) ?_
  simp

@[simp] theorem untouched_ospiWrite (ni a : Nat) (v : DWord) : (s.ospiWrite ni a v).untouched = s.untouched := by simp [State.ospiWrite]
@[simp] theorem untouched_bootWrite (ni a : Nat) (v : DWord) : (s.bootWrite ni a v).untouched = s.untouched := by simp [State.bootWrite]
@[simp] theorem untouched_blockWrite (ni a : Nat) (v : DWord) : (s.blockWrite ni a v).untouched = s.untouched := by simp [State.blockWrite]

@[simp] theorem untouched_cryptoStop (s : State) (g : Engine) : (s.cryptoStop g).untouched = s.untouched := by
  unfold State.cryptoStop
  extract_lets s1
  have h1 : s1.untouched = s.untouched := by
    refine untouched_forAll _ _ _ fun e t => ?_
    split <;> simp
  simp [h1]

@[simp] theorem untouched_blockStop (s : State) (p : Nat) : (s.blockStop p).untouched = s.untouched := by
  unfold State.blockStop
  iterate 13 refine untouched_ite_of (by simp) ?_
  iterate 5 refine untouched_onCopy (by simp) ?_
  rfl

@[simp] theorem untouched_blockStart (p : Nat) : (s.blockStart p).untouched = s.untouched := by simp [State.blockStart]
@[simp] theorem untouched_opBlockEnabled (p : Nat) : (s.opBlockEnabled p).untouched = s.untouched := by simp [State.opBlockEnabled]
@[simp] theorem untouched_blockClear (p : Nat) : (s.blockClear p).untouched = s.untouched := by simp [State.blockClear]

@[simp] theorem untouched_keepOver (s old : State) (p : Nat) : (s.keepOver old p).untouched = s.untouched := by
  simp [State.keepOver]

@[simp] theorem untouched_softReset (p : Nat) : (s.softReset p).untouched = s.untouched := by simp [State.softReset]

@[simp] theorem untouched_storeCtrl (ni p : Nat) (v : DWord) : (s.storeCtrl ni p v).1.untouched = s.untouched := by
  unfold State.storeCtrl
  dsimp only
  split
  · simp
  · split <;> simp

@[simp] theorem untouched_opPageCtrl (ni p : Nat) (v : DWord) : (s.opPageCtrl ni p v).untouched = s.untouched := by
  unfold State.opPageCtrl
  dsimp only
  split
  · split <;> simp
  · simp

@[simp] theorem untouched_opEvtRaw (ni p : Nat) (v : DWord) : (s.opEvtRaw ni p v).untouched = s.untouched := by simp [State.opEvtRaw]

@[simp] theorem untouched_opEvtSet (ni p : Nat) (v : DWord) : (s.opEvtSet ni p v).untouched = s.untouched := by
  unfold State.opEvtSet
  dsimp only
  split <;> simp

@[simp] theorem untouched_keptAfter (empty : Bool) (p a : Nat) : (s.keptAfter empty p a).untouched = s.untouched := by simp [State.keptAfter]
@[simp] theorem untouched_fullWrite (ni a : Nat) (v : DWord) : (s.fullWrite ni a v).untouched = s.untouched := by simp [State.fullWrite]
@[simp] theorem untouched_narrowStore (ni a v lane : Nat) : (s.narrowStore ni a v lane).untouched = s.untouched := by simp [State.narrowStore]

@[simp] theorem untouched_pageStore (ni a : Nat) (z : Size) (v : DWord) : (s.pageStore ni a z v).untouched = s.untouched := by
  unfold State.pageStore
  split <;> simp

@[simp] theorem untouched_regWrite (q : Req) (a : Nat) (z : Size) (v : DWord) :
    (s.regWrite q a z v).untouched = s.untouched := by simp [State.regWrite]
@[simp] theorem untouched_clearRc (r : RSpec) (a : Nat) : (s.clearRc r a).untouched = s.untouched := by simp [State.clearRc]

@[simp] theorem untouched_fullRead (s : State) (a : Nat) : (s.fullRead a).1.untouched = s.untouched := by
  unfold State.fullRead
  split <;> simp

@[simp] theorem untouched_pageLoad (a : Nat) (z : Size) : (s.pageLoad a z).1.untouched = s.untouched := by
  unfold State.pageLoad
  dsimp only
  split
  · simp
  · split <;> simp

@[simp] theorem untouched_regRead (q : Req) (a : Nat) (z : Size) : (s.regRead q a z).untouched = s.untouched := by simp [State.regRead]
@[simp] theorem untouched_opSoftResetDone (p : Nat) : (s.opSoftResetDone p).untouched = s.untouched := by simp [State.opSoftResetDone]

@[simp] theorem untouched_busWrite (q : Req) (a : Nat) (z : Size) (v : DWord) : (s.busWrite q a z v).1.untouched = s.untouched := by
  unfold State.busWrite
  dsimp only
  split <;> simp

@[simp] theorem untouched_busRead (q : Req) (a : Nat) (z : Size) : (s.busRead q a z).1.untouched = s.untouched := by
  unfold State.busRead
  dsimp only
  split <;> simp

/-! ### Operations of Machine/HartMemOps -/

@[simp] theorem untouched_lineRead (h a n : Nat) (fetch excl l1 : Bool) : (s.lineRead h a n fetch excl l1).1.untouched = s.untouched := by
  unfold State.lineRead
  dsimp only
  split <;> simp

@[simp] theorem untouched_cachedRead (h a n : Nat) (fetch excl : Bool) :
    (s.cachedRead h a n fetch excl).1.untouched = s.untouched := by simp [State.cachedRead]
@[simp] theorem untouched_cachedWrite (h a : Nat) (bs : List Byte) : (s.cachedWrite h a bs).untouched = s.untouched := by simp [State.cachedWrite]
@[simp] theorem untouched_hartWaits (h pa cause : Nat) (va : DWord) : (s.hartWaits h pa cause va).untouched = s.untouched := by simp [State.hartWaits]

@[simp] theorem untouched_hartRead (h priv a n pbmt : Nat) (fetch excl : Bool) :
    (s.hartRead h priv a n pbmt fetch excl).1.untouched = s.untouched := by
  unfold State.hartRead
  dsimp only
  split <;> simp

@[simp] theorem untouched_hartWrite (h priv a pbmt : Nat) (bs : List Byte) : (s.hartWrite h priv a pbmt bs).1.untouched = s.untouched := by
  unfold State.hartWrite
  dsimp only
  split <;> simp

@[simp] theorem untouched_hartRd (h : Nat) (s : State) (a : Nat) : (hartRd h s a).1.untouched = s.untouched := by
  unfold hartRd
  split
  · rfl
  · split
    · rfl
    · split <;> exact untouched_of_pair_fst ‹_› (by simp)

@[simp] theorem untouched_hartWr (h : Nat) (scout : Bool) (s : State) (a v : Nat) : (hartWr h scout s a v).1.untouched = s.untouched := by
  unfold hartWr
  split
  · rfl
  · split
    · rfl
    · split <;> exact untouched_of_pair_fst ‹_› (by simp)

@[simp] theorem untouched_holdXlate (h : Nat) (fetch l2 : Bool) (e : TlbEntry) : (s.holdXlate h fetch l2 e).untouched = s.untouched := by
  unfold State.holdXlate
  dsimp only
  split <;> simp

@[simp] theorem untouched_holdWalk (h : Nat) (e : WalkEntry) : (s.holdWalk h e).untouched = s.untouched := by
  unfold State.holdWalk
  dsimp only
  split <;> simp

theorem untouched_walkRd {rd : State → Nat → State × PteRead} (hrd : ∀ s a, (rd s a).1.untouched = s.untouched) (h : Nat) (pbmte : Bool)
    (stage asid vmid : Nat) (s : State) (a : Nat) : (walkRd h pbmte stage asid vmid rd s a).1.untouched = s.untouched := by
  unfold walkRd
  split
  · rfl
  · split
    · simp [untouched_of_pair_fst ‹_› (hrd s a)]
    · exact hrd s a

theorem untouched_oneStage {rd : State → Nat → State × PteRead} {wr : State → Nat → Nat → State × Option WalkFail}
    (hrd : ∀ s a, (rd s a).1.untouched = s.untouched) (hwr : ∀ s a v, (wr s a v).1.untouched = s.untouched) (s : State) (h : Nat)
    (m : AccessMode) (st : Stage) (stage asid vmid : Nat) (ok : Nat → Bool) (va : Nat) :
    (s.oneStage h m st stage asid vmid ok rd wr va).1.untouched = s.untouched := by
  unfold State.oneStage
  extract_lets store fetch held
  split
  · rfl
  · rename_i s0 _ _
    split
    · simp [s0]
    · have hw := untouched_walk (untouched_walkRd hrd h st.pbmte stage asid vmid) hwr st ok store
        (s0.modHart h (fun t => t.count 0x06 t.priv t.virt)) va
      split
      · exact (untouched_of_pair_fst ‹_› hw).trans (by simp [s0])
      · have h1 : State.untouched _ = s.untouched := (untouched_of_pair_fst ‹_› hw).trans (by simp [s0])
        simp [h1]

@[simp] theorem untouched_gStage (s : State) (h : Nat) (m : AccessMode) (tinst gpa : Nat) : (s.gStage h m tinst gpa).1.untouched = s.untouched := by
  unfold State.gStage
  dsimp only
  split
  · rfl
  · have ho := fun st vmid ok => untouched_oneStage (untouched_hartRd h) (untouched_hartWr h m.scout) s h m st 2 0 vmid ok gpa
    split
    · exact untouched_of_pair_fst ‹_› (ho _ _ _)
    · exact ho _ _ _

@[simp] theorem untouched_guestRd (h : Nat) (scout : Bool) (s : State) (a : Nat) : (guestRd h scout s a).1.untouched = s.untouched := by
  unfold guestRd
  split
  · exact untouched_of_pair_fst ‹_› (by simp)
  · have h1 := untouched_of_pair_fst ‹_› (untouched_gStage s _ _ _ _)
    split
    · exact (untouched_of_pair_fst ‹_› (untouched_hartRd _ _ _)).trans h1
    · exact (untouched_hartRd _ _ _).trans h1

@[simp] theorem untouched_guestWr (h : Nat) (scout : Bool) (s : State) (a v : Nat) : (guestWr h scout s a v).1.untouched = s.untouched := by
  unfold guestWr
  split
  · rfl
  · split
    · exact untouched_of_pair_fst ‹_› (by simp)
    · simp [untouched_of_pair_fst ‹_› (untouched_gStage s _ _ _ _)]

@[simp] theorem untouched_hartXlate (s : State) (h : Nat) (m : AccessMode) (va : Nat) : (s.hartXlate h m va).1.untouched = s.untouched := by
  have hg := fun st stage asid vmid ok => untouched_oneStage (untouched_guestRd h m.scout) (untouched_guestWr h m.scout) s h m st stage asid vmid ok va
  have hh := fun st stage asid vmid ok => untouched_oneStage (untouched_hartRd h) (untouched_hartWr h m.scout) s h m st stage asid vmid ok va
  unfold State.hartXlate
  extract_lets t mxr bare
  split
  · rfl
  · split
    · simp [hh]
    · rename_i _ _ r _ _
      have hr : r.1.untouched = s.untouched := by
        simp [r, hg]
      clear_value r
      split
      · exact hr
      · split <;> exact (untouched_of_pair_fst ‹_› (untouched_gStage _ _ _ _ _)).trans hr

@[simp] theorem untouched_hartAddress (s : State) (h : Nat) (m : AccessMode) (va : DWord) (n : Nat) (atomic : Option Nat) :
    (s.hartAddress h m va n atomic).1.untouched = s.untouched := by
  unfold State.hartAddress
  dsimp only
  split
  · rfl
  · split
    · exact untouched_of_pair_fst ‹_› (by simp)
    · simp [untouched_of_pair_fst ‹_› (untouched_hartXlate s _ _ _)]

/-! ### Operations of Machine/HartMem -/

@[simp] theorem untouched_countMiss (h a : Nat) (fetch : Bool) : (s.countMiss h a fetch).untouched = s.untouched := by simp [State.countMiss]
@[simp] theorem untouched_accessTrap (h : Nat) (r : Trap) : (s.accessTrap h r).untouched = s.untouched := by simp [State.accessTrap]
@[simp] theorem untouched_accessFault (h : Nat) (m : AccessMode) (va : DWord) :
    (s.accessFault h m va).untouched = s.untouched := by simp [State.accessFault]

@[simp] theorem untouched_performAccess (s : State) (h : Nat) (a : HartAccess) (m : AccessMode) (va : DWord) (pa pbmt len : Nat) :
    (s.performAccess h a m va pa pbmt len).untouched = s.untouched := by
  unfold State.performAccess
  extract_lets n s0 fault read wrote
  have h0 : s0.untouched = s.untouched := by simp [s0]
  have hread (fetch excl : Bool) (k : State → Nat → State) (hk : ∀ t v, (k t v).untouched = t.untouched) :
      (read fetch excl k).untouched = s.untouched := by
    unfold read
    split
    · simp [fault, untouched_of_pair_fst ‹_› (untouched_hartRead s0 _ _ _ _ _ _ _), h0]
    · simp [hk, untouched_of_pair_fst ‹_› (untouched_hartRead s0 _ _ _ _ _ _ _), h0]
  have hwrote : wrote.untouched = s.untouched := by
    unfold wrote
    split
    · simp [fault, untouched_of_pair_fst ‹_› (untouched_hartWrite s0 _ _ _ _ _), h0]
    · simp [untouched_of_pair_fst ‹_› (untouched_hartWrite s0 _ _ _ _ _), h0]
  cases a <;> simp [h0, hread, hwrote]

@[simp] theorem untouched_hint (s : State) (h kind : Nat) (m : AccessMode) (va : DWord) : (s.hint h kind m va).untouched = s.untouched := by
  unfold State.hint
  split
  · rfl
  · dsimp only
    split
    · exact untouched_of_pair_fst ‹_› (by simp)
    · simp [untouched_of_pair_fst ‹_› (untouched_hartAddress s _ _ _ _ _)]

@[simp] theorem untouched_demandAccess (s : State) (h : Nat) (a : HartAccess) (compressed : Bool) :
    (s.demandAccess h a compressed).untouched = s.untouched := by
  unfold State.demandAccess
  extract_lets t va bits fired
  split
  · simp
  · split
    · simp
    · split
      · simp
      · split
        · simp
        · split
          · simp [untouched_of_pair_fst ‹_› (untouched_hartAddress s _ _ _ _ _)]
          · simp [untouched_of_pair_fst ‹_› (untouched_hartAddress s _ _ _ _ _)]

@[simp] theorem untouched_scoutTraps (s : State) (h : Nat) (m : AccessMode) (va : DWord) (n : Nat) :
    (s.scoutTraps h m va n).1.untouched = s.untouched := by
  unfold State.scoutTraps
  split <;> exact untouched_of_pair_fst ‹_› (by simp)

@[simp] theorem untouched_scoutStore (s : State) (h : Nat) (c : Scout) (m : AccessMode) (a : HartAccess) (src len : Nat) :
    (s.scoutStore h c m a src len).untouched = s.untouched := by
  unfold State.scoutStore
  extract_lets t va bs data
  split
  · simp
  · split
    · simp [untouched_of_pair_fst ‹_› (untouched_scoutTraps s _ _ _ _)]
    · have h1 := untouched_of_pair_fst ‹_› (untouched_scoutTraps s _ _ _ _)
      split
      simp [untouched_of_pair_snd ‹_› (s := s) (by simp [h1])]

@[simp] theorem untouched_scoutData (s : State) (h : Nat) (c : Scout) (m : AccessMode) (va : DWord) (n : Nat) :
    (s.scoutData h c m va n).1.untouched = s.untouched := by
  unfold State.scoutData
  split
  · exact untouched_of_pair_fst ‹_› (by simp)
  · have h1 := untouched_of_pair_fst ‹_› (untouched_hartAddress s _ _ _ _ _)
    split
    · exact h1
    · simp [h1]

@[simp] theorem untouched_scoutLoad (s : State) (h : Nat) (c : Scout) (a : HartAccess) (m : AccessMode) (len rd : Nat) (fp signed : Bool) :
    (s.scoutLoad h c a m len rd fp signed).untouched = s.untouched := by
  unfold State.scoutLoad
  dsimp only
  split
  · simp
  · split <;> simp [untouched_of_pair_fst ‹_› (untouched_scoutData s _ _ _ _ _)]

@[simp] theorem untouched_scoutAccess (h : Nat) (c : Scout) (a : HartAccess) (compressed : Bool) :
    (s.scoutAccess h c a compressed).untouched = s.untouched := by
  unfold State.scoutAccess
  split
  · simp
  · split <;> simp

@[simp] theorem untouched_opAccess (h : Nat) (a : HartAccess) (compressed : Bool) : (s.opAccess h a compressed).untouched = s.untouched := by
  unfold State.opAccess
  dsimp only
  repeat' split
  all_goals simp

theorem untouched_scoutMiss {s t : State} {h : Nat} {a : HartAccess} {compressed : Bool} (e : s.scoutMiss h a compressed = some t) :
    t.untouched = s.untouched := by
  unfold State.scoutMiss at e
  dsimp only at e
  split at e
  · cases e
  · split at e
    · cases e
      exact untouched_of_pair_fst ‹_› (untouched_hartAddress s _ _ _ _ _)
    · cases e

@[simp] theorem untouched_opScoutEntry (s : State) (h : Nat) (a : HartAccess) (compressed : Bool) :
    (s.opScoutEntry h a compressed).untouched = s.untouched := by
  unfold State.opScoutEntry
  extract_lets t
  split
  · rfl
  · split
    · rfl
    · split
      · rfl
      · simp [untouched_scoutMiss ‹_›]

@[simp] theorem untouched_cboAddress (s : State) (h : Nat) (k : CacheBlock) (va : DWord) : (s.cboAddress h k va).1.untouched = s.untouched := by
  unfold State.cboAddress
  dsimp only
  split <;> exact untouched_of_pair_fst ‹_› (by simp)

@[simp] theorem untouched_cboLine (k : CacheBlock) (l pbmt : Nat) : (s.cboLine k l pbmt).untouched = s.untouched := by
  unfold State.cboLine
  dsimp only
  split
  · simp
  · split <;> simp

@[simp] theorem untouched_cboZero (s : State) (h l pbmt : Nat) (va : DWord) : (s.cboZero h l pbmt va).untouched = s.untouched := by
  unfold State.cboZero
  dsimp only
  split
  · split <;> simp [untouched_of_pair_fst ‹_› (untouched_hartWrite s _ _ _ _ _)]
  · simp

@[simp] theorem untouched_opCbo (s : State) (h : Nat) (k : CacheBlock) (rs1 : Nat) : (s.opCbo h k rs1).untouched = s.untouched := by
  refine untouched_instr _ _ _ _ _ fun s1 => ?_
  dsimp only
  split
  · simp
  · split
    · simp
    · split <;> simp [untouched_of_pair_fst ‹_› (untouched_cboAddress s1 _ _ _)]

/-! ### Operations of Machine/Rv -/

@[simp] theorem untouched_zicsr (h n : Nat) (op : CsrOp) (src : CsrSrc) (rd : Nat) : (s.zicsr h n op src rd).untouched = s.untouched := by
  unfold State.zicsr
  dsimp only
  split <;> simp

/-! ### Operations of Machine/HartRun -/

@[simp] theorem untouched_illegal (h bits : Nat) : (s.illegal h bits).untouched = s.untouched := by simp [State.illegal]

@[simp] theorem untouched_runCsr (h w bits : Nat) : (s.runCsr h w bits).untouched = s.untouched := by
  unfold State.runCsr
  dsimp only
  split
  · simp
  · split <;> simp

@[simp] theorem untouched_runSystem (h w bits : Nat) : (s.runSystem h w bits).untouched = s.untouched := by simp [State.runSystem]

@[simp] theorem untouched_runMiscMem (h w bits : Nat) : (s.runMiscMem h w bits).untouched = s.untouched := by
  unfold State.runMiscMem
  dsimp only
  repeat' split
  all_goals simp

@[simp] theorem untouched_runXoroud (h w bits : Nat) : (s.runXoroud h w bits).untouched = s.untouched := by
  unfold State.runXoroud
  dsimp only
  split
  · simp
  · split
    · simp
    · split <;> simp

@[simp] theorem untouched_runEffect (h w len : Nat) (e : RvEffect) : (s.runEffect h w len e).untouched = s.untouched := by
  unfold State.runEffect
  dsimp only
  split <;> simp

@[simp] theorem untouched_execWord (s : State) (h w len bits : Nat) : (s.execWord h w len bits).untouched = s.untouched := by
  unfold State.execWord
  split
  · simp
  · split
    · simp
    · split <;> simp

@[simp] theorem untouched_execBits (s : State) (h b : Nat) : (s.execBits h b).untouched = s.untouched := by
  unfold State.execBits
  split
  · simp
  · split <;> simp

@[simp] theorem untouched_fetchHalf (s : State) (h : Nat) (va : DWord) : (s.fetchHalf h va).1.untouched = s.untouched := by
  unfold State.fetchHalf
  extract_lets m
  split
  · simp
  · split
    · exact untouched_of_pair_fst ‹_› (by simp)
    · have h1 := untouched_of_pair_fst ‹_› (untouched_hartAddress s _ _ _ _ _)
      split
      · exact h1
      · split
        · simp [h1]
        · split <;> exact (untouched_of_pair_fst ‹_› (untouched_hartRead _ _ _ _ _ _ _ _)).trans (by simp [h1])

@[simp] theorem untouched_fetchBits (s : State) (h : Nat) : (s.fetchBits h).1.untouched = s.untouched := by
  unfold State.fetchBits
  extract_lets pc
  split
  · have h1 := untouched_of_pair_fst ‹_› (untouched_fetchHalf s _ _)
    split
    · exact h1
    · split
      · exact (untouched_of_pair_fst ‹_› (untouched_fetchHalf _ _ _)).trans h1
      · exact (untouched_fetchHalf _ _ _).trans h1
  · exact untouched_fetchHalf s _ _

@[simp] theorem untouched_opFetch (s : State) (h : Nat) : (s.opFetch h).untouched = s.untouched := by
  unfold State.opFetch
  split
  · split
    · rfl
    · split <;> simp [untouched_of_pair_fst ‹_› (untouched_fetchBits s _)]
  · refine untouched_instr _ _ _ _ _ fun s1 => ?_
    split <;> simp [untouched_of_pair_fst ‹_› (untouched_fetchBits s1 _)]

@[simp] theorem untouched_opMemory (h : Nat) (a : HartAccess) (compressed : Bool) : (s.opMemory h a compressed).untouched = s.untouched := by
  unfold State.opMemory
  split <;> simp

@[simp] theorem untouched_progLoop (h n : Nat) (s : State) : (State.progLoop h n s).untouched = s.untouched := by
  induction n generalizing s with
  | zero => rfl
  | succ n ih => simp [State.progLoop, ih]

@[simp] theorem untouched_progRun (h : Nat) : (s.progRun h).1.untouched = s.untouched := by simp [State.progRun]

/-! ### Operations of Machine/Debug -/

@[simp] theorem untouched_modDebug (f : DebugState → DebugState) : (s.modDebug f).untouched = s.untouched := by simp [State.modDebug]

@[simp] theorem untouched_dmi (s : State) (f : State → State) (hf : ∀ t, (f t).untouched = t.untouched) :
    (s.dmi f).untouched = s.untouched := by simp [State.dmi, hf]

@[simp] theorem untouched_dmiRefused : s.dmiRefused.untouched = s.untouched := by simp [State.dmiRefused]

@[simp] theorem untouched_dmiHart (s : State) (h : Nat) (f : State → State) (hf : ∀ t, (f t).untouched = t.untouched) :
    (s.dmiHart h f).untouched = s.untouched := by simp [State.dmiHart, hf]

@[simp] theorem untouched_cmdErr (e : Nat) : (s.cmdErr e).untouched = s.untouched := by simp [State.cmdErr]

@[simp] theorem untouched_dmTransfer (h r n : Nat) (write : Bool) : (s.dmTransfer h r n write).untouched = s.untouched := by
  unfold State.dmTransfer
  dsimp only
  split <;> simp

@[simp] theorem untouched_abstractRun (s : State) (h : Nat) (command : Word) : (s.abstractRun h command).untouched = s.untouched := by
  unfold State.abstractRun
  extract_lets c r size transfer write
  split
  · rfl
  iterate 4 (split; · simp)
  rename_i s1 _ _ _ _ _
  have h1 : s1.untouched = s.untouched := by simp [s1]
  split
  · exact h1
  · split <;> simp [untouched_of_pair_fst ‹_› (untouched_progRun s1 _), h1]

@[simp] theorem untouched_opAbstract (h : Nat) (command : Word) (data : DWord) (prog : List Word) (clear : Bool) :
    (s.opAbstract h command data prog clear).untouched = s.untouched := by simp [State.opAbstract]
@[simp] theorem untouched_sbErr (e : Nat) : (s.sbErr e).untouched = s.untouched := by simp [State.sbErr]

@[simp] theorem untouched_sbRun (s : State) (size : Nat) (op : SbOp) (auto : Bool) : (s.sbRun size op auto).untouched = s.untouched := by
  unfold State.sbRun
  extract_lets a n z q next
  have hnext (t : State) : (next t).untouched = t.untouched := by simp [next]
  split
  · rfl
  iterate 2 (split; · simp)
  split
  · extract_lets s1
    split <;> simp [hnext, untouched_of_pair_fst ‹_› (untouched_busWrite s1 _ _ _ _), s1]
  · split
    · simp
    · split <;> simp [hnext, untouched_of_pair_fst ‹_› (untouched_busRead s _ _ _)]

@[simp] theorem untouched_opSystemBus (addr : Option (BitVec 40)) (size : Nat) (op : SbOp) (auto clear : Bool) :
    (s.opSystemBus addr size op auto clear).untouched = s.untouched := by simp [State.opSystemBus]
@[simp] theorem untouched_dmHalt (h : Nat) : (s.dmHalt h).untouched = s.untouched := by simp [State.dmHalt]
@[simp] theorem untouched_dmResume (h : Nat) : (s.dmResume h).untouched = s.untouched := by simp [State.dmResume]
@[simp] theorem untouched_dmAckReset (h : Nat) : (s.dmAckReset h).untouched = s.untouched := by simp [State.dmAckReset]
@[simp] theorem untouched_dmResetHalt (h : Nat) (on : Bool) : (s.dmResetHalt h on).untouched = s.untouched := by simp [State.dmResetHalt]
@[simp] theorem untouched_dmOff : s.dmOff.untouched = s.untouched := by simp [State.dmOff]
@[simp] theorem untouched_dmControl (v : Word) : (s.dmControl v).untouched = s.untouched := by simp [State.dmControl]
@[simp] theorem untouched_dmiStore (a : Nat) (v : Word) : (s.dmiStore a v).untouched = s.untouched := by simp [State.dmiStore]
@[simp] theorem untouched_dmiWrite (a : Nat) (v : Word) : (s.dmiWrite a v).untouched = s.untouched := by simp [State.dmiWrite]
@[simp] theorem untouched_dmiAnswer (a : Nat) : (s.dmiAnswer a).untouched = s.untouched := by simp [State.dmiAnswer]

@[simp] theorem untouched_opDebug (h : Nat) (r : DebugRequest) : (s.opDebug h r).untouched = s.untouched := by
  unfold State.opDebug
  split <;> simp

@[simp] theorem untouched_opNdmreset : s.opNdmreset.untouched = s.untouched := by simp [State.opNdmreset]

/-! ### Operations of Machine/Pages -/

@[simp] theorem untouched_opRegisterWrite (q : Req) (a : Nat) (z : Size) (v : DWord) :
    (s.opRegisterWrite q a z v).untouched = s.untouched := by simp [State.opRegisterWrite]
@[simp] theorem untouched_opBusError (q : Req) (a : Nat) : (s.opBusError q a).untouched = s.untouched := by simp [State.opBusError]
@[simp] theorem untouched_opReadClear (q : Req) (a : Nat) (z : Size) : (s.opReadClear q a z).untouched = s.untouched := by simp [State.opReadClear]
@[simp] theorem untouched_headerWrite (q : Req) (i : Fin 70) (o : Nat) (v : DWord) :
    (s.headerWrite q i o v).untouched = s.untouched := by simp [State.headerWrite]

@[simp] theorem untouched_livePerform (x : LiveAccess) : (s.livePerform x).1.untouched = s.untouched := by
  unfold State.livePerform
  split <;> simp

@[simp] theorem untouched_opLiveDone (target : Nat) (timeout : Bool) : (s.opLiveDone target timeout).untouched = s.untouched := by
  unfold State.opLiveDone
  split <;> simp

end

/-! ### The commands -/

theorem exec_doorbell (inst : Fin 32) (j : BitVec 12) (indirect : Bool) (tail : BitVec 16) (s : State) :
    ∃ t, execDoorbell inst j indirect tail s = .next t ∧ t.untouched = s.untouched := by
  unfold execDoorbell
  dsimp only
  split
  · exact ⟨s, rfl, rfl⟩
  · exact ⟨_, rfl, by simp⟩

theorem exec_queueHeadWrite (inst : Fin 32) (j : BitVec 10) (indirect : Bool) (head : BitVec 16) (s : State) :
    ∃ t, execQueueHeadWrite inst j indirect head s = .next t ∧ t.untouched = s.untouched := by
  unfold execQueueHeadWrite
  dsimp only
  split
  · exact ⟨s, rfl, rfl⟩
  · exact ⟨_, rfl, by simp⟩

theorem exec_endpointHalt (q : Option Req) (dirIn : Bool) (k : Fin 6) (s : State) :
    ∃ t, execEndpointHalt q dirIn k s = .next t ∧ t.untouched = s.untouched := by
  cases q <;> exact ⟨_, rfl, by simp⟩

theorem exec_endpointClear (u : UsbClear) (s : State) : ∃ t, execEndpointClear u s = .next t ∧ t.untouched = s.untouched := by
  cases u <;> exact ⟨_, rfl, by simp⟩

theorem exec_resume (r : UsbResume) (s : State) : ∃ t, execResume r s = .next t ∧ t.untouched = s.untouched := by
  cases r <;> exact ⟨_, rfl, by simp⟩

theorem exec_hubStandardRequest (setup : BitVec 64) (s : State) : ∃ t, execHubStandardRequest setup s = .next t ∧ t.untouched = s.untouched := by
  refine ⟨_, rfl, untouched_ite_of rfl ?_⟩
  split
  · exact untouched_hubRequest ‹_›
  · rfl

theorem exec_uartCharacter (n : Fin 6) (c : UartChar) (s : State) : ∃ t, execUartCharacter n c s = .next t ∧ t.untouched = s.untouched := by
  cases c <;> exact ⟨_, rfl, by simp⟩

theorem exec_crcPass (us : BitVec 16) (hit : Option (BitVec 32 × Fin 64)) (s : State) :
    ∃ t, execCrcPass us hit s = .next t ∧ t.untouched = s.untouched := by
  cases hit <;> exact ⟨_, rfl, by simp⟩

theorem exec_trngDataLoad (q : Req) (s : State) :
    ∃ t, execTrngDataLoad q s = .next t ∧ t.untouched = s.untouched := by
  exact ⟨s.opTrngData.1.respond false s.opTrngData.2, rfl, by simp⟩

/-- Every command answers a next state; an arm that is one operation is settled by that operation's rule. -/
theorem exec_answers (c : Instr) (s : State) : ∃ t, exec c s = .next t ∧ t.untouched = s.untouched := by
  cases c
  case doorbell => exact exec_doorbell ..
  case queueHeadWrite => exact exec_queueHeadWrite ..
  case endpointHalt => exact exec_endpointHalt ..
  case endpointClear => exact exec_endpointClear ..
  case resume => exact exec_resume ..
  case hubStandardRequest => exact exec_hubStandardRequest ..
  case uartCharacter => exact exec_uartCharacter ..
  case crcPass => exact exec_crcPass ..
  case trngDataLoad q => exact exec_trngDataLoad q s
  all_goals exact ⟨_, rfl, by simp⟩

/-- Settles O3: each command answers with one of the operations above (the model's choice, assumption log 9), which touch neither field. -/
theorem everyCommandAnswersAndKeepsTheQueue : Obligations.EveryCommandAnswersAndKeepsTheQueue := by
  intro c s
  obtain ⟨t, ht, hu⟩ := exec_answers c s
  exact ⟨t, ht, congrArg Prod.fst hu, congrArg Prod.snd hu⟩

end Sys2Proof.Machine
end

section
/-! Register pages: EVT_SET holds a word of its own in the model. A write of EVT_SET sets the events that this word names beside those that are
written, so where it is not 0, which no command brings about but the statement allows, an event is set that was not written as 1. -/
namespace Sys2Proof.Machine

/-- The state after reset, but with bit 0 in the word that the model keeps for EVT_SET of the OSPI page. -/
def State.wordBehindEvtSet : State := State.reset.setReg (R.EVT_SET (pageAt 69)) 1#64

/-- A write of 0 to EVT_SET of that page sets event 0, which was clear. -/
theorem evtSet_zero_sets_event :
    State.wordBehindEvtSet.event (pageAt 69) 0 = false ∧
      (State.wordBehindEvtSet.headerWrite ⟨3, true⟩ 69 0x1C ((0#32).zeroExtend 64)).event (pageAt 69) 0 = true := by decide +kernel

/-- Refutes O5: the clause of EVT_SET fails in `State.wordBehindEvtSet`, for a write of 0. -/
theorem not_registerPageAccesses : ¬ Obligations.RegisterPageAccesses := by
  unfold Obligations.RegisterPageAccesses
  intro h
  obtain ⟨-, -, -, -, -, hset, -⟩ := h
  have hopen : OpenTo State.wordBehindEvtSet ⟨3, true⟩ (pageAt 69) := by unfold OpenTo; decide +kernel
  obtain ⟨t, ht, hev, -⟩ := hset State.wordBehindEvtSet ⟨3, true⟩ 69 0#32 hopen
  obtain ⟨hclear, hsets⟩ := evtSet_zero_sets_event
  injection ht with ht
  subst ht
  have hsame := hev 0
  simp only [Fin.val_zero, hclear, BitVec.getLsbD_zero, Bool.false_and, Bool.or_false] at hsame
  rw [hsets] at hsame
  cases hsame

end Sys2Proof.Machine
end

section
/-! Harts: a misaligned AMO whose translation waits for the flash. In the model an access first asks whether the read of a page-table entry
waits for a busy flash (R150), and only then whether its address is aligned (R198). Where M-mode accesses memory as S-mode does
(mstatus.MPRV) through page tables in the XIP window, the misaligned AMO therefore waits, and no trap is taken yet. -/
namespace Sys2Proof.Machine

/-- Hart 0 in M-mode with MPRV set and MPP = S, Sv39 page tables at the start of the XIP window, which PMP entry 0 opens, and an address
in x6 that no word lies at. -/
def Hart.walksFlash : Hart :=
  { (((((Hart.reset 0).setX 6 0x01000102#64).setCsr 0x300 0x20800#64).setCsr 0x180 0x8000000000020000#64).setCsr 0x3A0 0x0F#64).setCsr
      0x3B0 0x3FFFFFFFFF#64 with running := true }

/-- The state after reset with that hart, while an item polls the status of the flash. -/
def State.flashPolled : State :=
  let s := State.reset.modHart 0 (fun _ => Hart.walksFlash)
  { s with boot := { s.boot with polling := some ⟨0, 0, State.reset.ospiBus, 5, 1, 0⟩ } }

/-- The misaligned `amoadd.w` that hart 0 has at its pc. -/
abbrev HartAccess.misalignedAmo : HartAccess := .amo .add 5 7 false 6 0

/-- It waits for the flash: mcause stays 0. -/
theorem misalignedAmo_waits_for_flash :
    ((State.flashPolled.opMemory 0 HartAccess.misalignedAmo false).hart 0).csrRaw 0x342 = 0#64 := by decide +kernel

/-- Refutes O22: the clause of misaligned AMOs fails in `State.flashPolled`. -/
theorem not_hartLoadsStoresAtomicsAndCacheBlocks : ¬ Obligations.HartLoadsStoresAtomicsAndCacheBlocks := by
  unfold Obligations.HartLoadsStoresAtomicsAndCacheBlocks
  intro h
  obtain ⟨-, -, -, -, -, -, -, -, -, -, -, hamo, -⟩ := h
  have hissues : State.flashPolled.Issues 0 := by unfold State.Issues; decide +kernel
  obtain ⟨t, ht, htrap⟩ :=
    hamo State.flashPolled 0 .add 5 7 6 false 0 hissues (by decide +kernel) (by decide +kernel) (by decide +kernel) (by decide +kernel)
  obtain ⟨-, -, hcause, -⟩ := htrap
  injection ht with ht
  subst ht
  have hwaits := misalignedAmo_waits_for_flash
  rw [show ((State.flashPolled.opMemory 0 HartAccess.misalignedAmo false).hart 0).csrRaw 0x342 = 6#64 from hcause] at hwaits
  cases hwaits

end Sys2Proof.Machine
end

section
/-! Shuttle follows a change (R364 to R368): what the consumers of its channels reach, and what a Shuttle leaves that no unclocked channel,
output, hold or force acts on. -/
namespace Sys2Proof.Machine

/-! ### The supply side, which no consumer of Shuttle reaches -/

/-- PWR_OUT, the events of the supply page, and the phase of the supply. -/
def State.supplySide (s : State) : DWord × DWord × PowerPhase := (s.raw R.PWR_OUT, s.raw (R.EVT_RAW P.PWR), s.power.phase)

theorem supplySide_setReg (s : State) {a : Nat} (v : DWord) (h : P.CLK ≤ a) : (s.setReg a v).supplySide = s.supplySide := by
  have hout : R.PWR_OUT ≠ a := ((by decide : R.PWR_OUT < P.CLK).trans_le h).ne
  have hevt : R.EVT_RAW P.PWR ≠ a := ((by decide : R.EVT_RAW P.PWR < P.CLK).trans_le h).ne
  simp [State.supplySide, hout, hevt]

theorem supplySide_setFld (s : State) {f : Fld} (v : Nat) (h : P.CLK ≤ f.reg) : (s.setFld f v).supplySide = s.supplySide :=
  supplySide_setReg s _ h

theorem supplySide_setFlag (s : State) {f : Fld} (b : Bool) (h : P.CLK ≤ f.reg) : (s.setFlag f b).supplySide = s.supplySide :=
  supplySide_setReg s _ h

theorem supplySide_raise (s : State) {p : Nat} (b : Nat) (h : P.CLK ≤ p) : (s.raise p b).supplySide = s.supplySide :=
  supplySide_setReg s _ (Nat.le_add_right_of_le h)

theorem supplySide_bumpSat (s : State) {f g : Fld} (hf : P.CLK ≤ f.reg) (hg : P.CLK ≤ g.reg) :
    (s.bumpSat f g).supplySide = s.supplySide := by
  unfold State.bumpSat
  dsimp only
  split
  · exact (supplySide_setFld _ _ hg).trans (supplySide_setFld s _ hf)
  · exact supplySide_setFld s _ hf

theorem supplySide_ite {s t u : State} {c : Prop} [Decidable c] (ht : t.supplySide = s.supplySide) (hu : u.supplySide = s.supplySide) :
    (if c then t else u).supplySide = s.supplySide := by split <;> assumption

theorem supplySide_when (s : State) (b : Bool) {f : State → State} (hf : (f s).supplySide = s.supplySide) :
    (s.when b f).supplySide = s.supplySide := supplySide_ite hf rfl

theorem supplySide_forEach (n : Nat) {f : Nat → State → State} (s : State) (hf : ∀ i t, (f i t).supplySide = t.supplySide) :
    (forEach n f s).supplySide = s.supplySide := by
  unfold forEach
  generalize List.range n = l
  induction l generalizing s with
  | nil => rfl
  | cons i l ih => exact (ih (f i s)).trans (hf i s)

theorem clk_le_of_adc {a i o : Nat} (h : a = P.ADC 0 + o + 0x1000 * i) : P.CLK ≤ a := by
  subst h
  exact Nat.le_add_right_of_le (Nat.le_add_right_of_le (by decide))

theorem supplySide_edge (s : State) (id : Nat) : (s.edge id).supplySide = s.supplySide := by
  unfold State.edge
  refine supplySide_ite rfl (supplySide_ite ?_ rfl)
  calc _ = ((s.bumpSat F.CAIRN_COALESCE_COUNT F.CAIRN_COALESCE_SAT).setFld F.CAIRN_COALESCE_LAST_ID id).supplySide :=
        supplySide_raise _ _ (by decide)
    _ = (s.bumpSat F.CAIRN_COALESCE_COUNT F.CAIRN_COALESCE_SAT).supplySide := supplySide_setFld _ _ (by decide)
    _ = s.supplySide := supplySide_bumpSat s (by decide) (by decide)

theorem supplySide_setAdc (s : State) (k : Nat) (p : AdcPort) : (s.setAdc k p).supplySide = s.supplySide := by
  have hfifo : P.CLK ≤ R.ADC_FIFO k := clk_le_of_adc (o := 0x50) rfl
  unfold State.setAdc
  rw [supplySide_setFlag _ _ hfifo, supplySide_setFlag _ _ hfifo, supplySide_setFld _ _ hfifo, supplySide_setFld _ _ hfifo]
  rfl

theorem supplySide_adcTrigger (s : State) (k : Nat) (stamp : Option Nat) : (s.adcTrigger k stamp).supplySide = s.supplySide := by
  have hstat : P.CLK ≤ R.ADC_STAT k := clk_le_of_adc (o := 0x54) rfl
  unfold State.adcTrigger
  refine supplySide_ite (supplySide_setAdc s k _) (supplySide_ite (supplySide_setAdc s k _) ?_)
  exact (supplySide_raise _ _ (clk_le_of_adc (o := 0) rfl)).trans (supplySide_bumpSat s hstat hstat)

theorem supplySide_shuttleAdc (s : State) (k : Nat) : (s.shuttleAdc k).supplySide = s.supplySide := by
  unfold State.shuttleAdc State.adcFrom State.adcFromAt
  exact supplySide_ite rfl (supplySide_ite (supplySide_adcTrigger s k _) rfl)

theorem supplySide_dbCount (s : State) (c : Option Nat) : (s.dbCount c).supplySide = s.supplySide := by
  have hcount : (s.bumpSat F.HEDDLE_DB_ERR_COUNT F.HEDDLE_DB_ERR_SAT).supplySide = s.supplySide :=
    supplySide_bumpSat s (by decide) (by decide)
  unfold State.dbCount
  cases c with
  | none => exact hcount
  | some n => exact (supplySide_setFld _ _ (by decide)).trans hcount

theorem supplySide_dbRefused (s : State) (i : Nat) : (s.dbRefused i).supplySide = s.supplySide :=
  calc _ = _ := supplySide_raise _ _ (by decide)
    _ = _ := supplySide_setFld _ _ (by decide)
    _ = s.supplySide := supplySide_bumpSat s (by decide) (by decide)

theorem supplySide_setPending (s : State) (c : Nat) : (s.setPending c).supplySide = s.supplySide := by
  unfold State.setPending
  split <;> rfl

theorem supplySide_kick (s : State) (c : Nat) : (s.kick c).supplySide = s.supplySide := by
  unfold State.kick
  split
  · exact (supplySide_raise _ _ (by decide)).trans (supplySide_dbCount s _)
  · exact supplySide_ite (supplySide_dbRefused s _) (supplySide_ite (supplySide_setPending s c)
      (supplySide_ite (supplySide_dbCount s _) (supplySide_setPending _ c)))

theorem supplySide_kickOrHold (s : State) (c : Nat) (reed : Bool) : (s.kickOrHold c reed).supplySide = s.supplySide :=
  supplySide_ite rfl (supplySide_kick s c)

theorem supplySide_startWaiting (s : State) (n : Nat) : (s.startWaiting n).supplySide = s.supplySide :=
  supplySide_forEach 8 s fun _ _ => supplySide_ite rfl rfl

theorem supplySide_openGates (s : State) (n : Nat) : (s.openGates n).supplySide = s.supplySide :=
  supplySide_forEach 8 s fun _ t => supplySide_ite (supplySide_raise t _ (Nat.le_add_right_of_le (by decide))) rfl

theorem supplySide_channelRise (s : State) (n : Nat) : (s.channelRise n).supplySide = s.supplySide :=
  calc _ = _ := supplySide_openGates _ n
    _ = _ := supplySide_startWaiting _ n
    _ = _ := supplySide_when _ _ (supplySide_kickOrHold _ _ _)
    _ = _ := supplySide_forEach 2 _ fun k t => supplySide_ite (supplySide_shuttleAdc t k) rfl
    _ = s.supplySide := supplySide_when s _ (supplySide_edge s _)

theorem supplySide_holdForce (s : State) (n : Nat) : (s.holdForce n).supplySide = s.supplySide :=
  supplySide_ite (supplySide_raise _ _ (by decide)) rfl

theorem supplySide_settleChannel (s : State) (n : Nat) : (s.settleChannel n).supplySide = s.supplySide := by
  unfold State.settleChannel
  refine supplySide_ite rfl ((supplySide_holdForce _ n).trans ?_)
  have hout : (if s.chanOut n = (s.chan n).out then s else s.setChan n { s.chan n with out := s.chanOut n }).supplySide = s.supplySide :=
    supplySide_ite rfl rfl
  exact supplySide_ite ((supplySide_channelRise _ n).trans hout) hout

theorem supplySide_noteForces (s : State) : s.noteForces.supplySide = s.supplySide :=
  calc _ = _ := supplySide_when _ _ (supplySide_raise _ _ (by decide))
    _ = _ := supplySide_when _ _ (supplySide_raise _ _ (by decide))
    _ = s.supplySide := supplySide_when s _ (supplySide_raise s _ (by decide))

/-- Whatever Shuttle's channels set off, the supply side stays as it was. -/
theorem supplySide_settle (s : State) : s.settle.supplySide = s.supplySide :=
  (supplySide_noteForces _).trans (supplySide_forEach 64 s fun n t => supplySide_settleChannel t n)

/-! ### A still Shuttle -/

theorem State.ShuttleStill.of_regs {s t : State} (h : s.ShuttleStill) (hsh : t.shuttle = s.shuttle)
    (hreg : ∀ n, t.raw (R.SHUTTLE_CH_SEL n) = s.raw (R.SHUTTLE_CH_SEL n)) : t.ShuttleStill := by
  obtain ⟨hun, hch, hforced, hconf⟩ := h
  refine ⟨fun n => ?_, hsh ▸ hch, hsh ▸ hforced, hsh ▸ hconf⟩
  rw [← hun n]
  simp [State.flag, State.fld, F.SHUTTLE_CH_SEL_UNCLOCKED, hreg]

theorem State.ShuttleStill.setReg {s : State} (h : s.ShuttleStill) {a : Nat} (v : DWord) (ha : a < P.SHUTTLE) :
    (s.setReg a v).ShuttleStill := by
  refine h.of_regs rfl fun n => ?_
  have hne : R.SHUTTLE_CH_SEL n ≠ a := (ha.trans_le (Nat.le_add_right_of_le (by decide))).ne'
  rw [State.raw_setReg, if_neg hne]

theorem State.ShuttleStill.chanOut_eq {s : State} (h : s.ShuttleStill) (n : Fin 64) : s.chanOut n = false := by
  obtain ⟨hun, hch, -, -⟩ := h
  rw [State.chanOut, chanOutFuel, hun n, State.chan, hch]
  simp [SMap.get, ShuttleChannel.idle]

theorem State.ShuttleStill.forceOf_eq {s : State} (h : s.ShuttleStill) (n : Fin 64) : s.forceOf n = none := by
  have hout := h.chanOut_eq n
  obtain ⟨hun, hch, -, -⟩ := h
  have hheld : (s.chan n).held = none := by rw [State.chan, hch]; rfl
  simp [State.forceOf, hheld, hout, hun n]

theorem State.ShuttleStill.forcesOn_eq {s : State} (h : s.ShuttleStill) (b : Nat) : s.forcesOn b = [] := by
  refine List.filterMap_eq_nil_iff.mpr fun n hn => ?_
  rw [h.forceOf_eq ⟨n, List.mem_range.mp hn⟩]

theorem State.ShuttleStill.pinForced_eq {s : State} (h : s.ShuttleStill) : s.pinForced = 0 := by
  unfold State.pinForced
  simp only [h.forcesOn_eq]
  rfl

theorem State.ShuttleStill.pinConflict_eq {s : State} (h : s.ShuttleStill) : s.pinConflict = 0 := by
  unfold State.pinConflict
  simp only [h.forcesOn_eq]
  rfl

theorem State.ShuttleStill.noteForces_eq {s : State} (h : s.ShuttleStill) : s.noteForces = s := by
  have hf := h.pinForced_eq
  have hc := h.pinConflict_eq
  obtain ⟨-, -, hforced, hconf⟩ := h
  have hshuttle : { s.shuttle with forced := s.shuttle.forced, conflict := s.shuttle.conflict } = s.shuttle := rfl
  rw [hforced, hconf] at hshuttle
  simp only [State.noteForces, hf, hc, hforced, hconf]
  exact congrArg (fun x => { s with shuttle := x }) hshuttle

theorem State.ShuttleStill.settleChannel_eq {s : State} (h : s.ShuttleStill) (n : Fin 64) : s.settleChannel n = s := by
  obtain ⟨hun, -⟩ := h
  simp [State.settleChannel, hun n]

theorem forEach_eq_self {n : Nat} {f : Nat → State → State} {s : State} (h : ∀ i < n, f i s = s) : forEach n f s = s :=
  List.foldlRecOn (motive := fun t => t = s) _ _ rfl fun _ ht i hi => ht ▸ h i (List.mem_range.mp hi)

/-- A still Shuttle does nothing. -/
theorem State.ShuttleStill.settle_eq {s : State} (h : s.ShuttleStill) : s.settle = s := by
  have hchannels : forEach 64 (fun n t => t.settleChannel n) s = s := forEach_eq_self fun n hn => h.settleChannel_eq ⟨n, hn⟩
  rw [State.settle, hchannels, h.noteForces_eq]

end Sys2Proof.Machine
end

section
/-! The release of PORST_N, the straps, RSTOUT_N and the bank windows (R71, R76 to R78, R91, R92, R113). -/
namespace Sys2Proof.Machine

/-! ### The force of RUN_COOL (R113) -/

theorem KeepsRegs.startSwitch {s t : State} {l : List Nat} (h : KeepsRegs s t l) (hl : R.PWR_STATE ∈ l) : KeepsRegs s t.startSwitch l :=
  h.when fun _ hu => hu.setFld hl

theorem State.startSwitch_rest (s : State) : s.startSwitch = { s with regs := s.startSwitch.regs } := by
  unfold State.startSwitch State.when
  split <;> rfl

theorem State.forcedCool_startSwitch (s : State) : s.startSwitch.flag F.PWR_STATE_FORCED_COOL = s.flag F.PWR_STATE_FORCED_COOL := by
  unfold State.startSwitch State.when
  split
  · exact State.flag_setFld_ne _ _ _ _ (by decide)
  · rfl

theorem State.thermForce_of_not_awake (s : State) (h : s.awake = false) : s.thermForce = s := by
  simp [State.thermForce, h]

theorem State.thermForce_between (s : State) (hlow : (s.fld F.PWR_THERM_WARN : Int) - 5 < sext 9 (s.fld F.PWR_THERM_TJ))
    (hhigh : sext 9 (s.fld F.PWR_THERM_TJ) < (s.fld F.PWR_THERM_WARN : Int)) : s.thermForce = s := by
  simp [State.thermForce, not_le.mpr hhigh, not_le.mpr hlow]

theorem State.thermForce_hot (s : State) (ha : s.awake = true)
    (h : (s.fld F.PWR_THERM_WARN : Int) ≤ sext 9 (s.fld F.PWR_THERM_TJ)) : s.thermForce.flag F.PWR_STATE_FORCED_COOL = true := by
  simp only [State.thermForce, ha, h, Bool.not_true, Bool.false_eq_true, if_false, if_true]
  rw [State.forcedCool_startSwitch, State.flag, State.fld_setFld _ _ _ (by decide)]
  rfl

theorem State.thermForce_keepsRegs (s : State) : KeepsRegs s s.thermForce [R.PWR_THERM, R.PWR_STATE, R.EVT_RAW P.PWR] := by
  have h := KeepsRegs.refl s [R.PWR_THERM, R.PWR_STATE, R.EVT_RAW P.PWR]
  unfold State.thermForce
  dsimp only
  split
  · exact h
  · split
    · exact (((h.when fun _ hu => hu.raise (by decide)).setFld (by decide)).setFld (by decide)).startSwitch (by decide)
    · split
      · exact ((h.setFld (by decide)).setFld (by decide)).startSwitch (by decide)
      · exact h

theorem State.thermForce_rest (s : State) : s.thermForce = { s with regs := s.thermForce.regs } := by
  unfold State.thermForce
  dsimp only
  split
  · rfl
  · split
    · rw [State.startSwitch_rest, State.when]
      split <;> rfl
    · split
      · rw [State.startSwitch_rest]
        rfl
      · rfl

theorem State.power_thermForce (s : State) : s.thermForce.power = s.power := by rw [State.thermForce_rest]

/-! ### PORST_N_RELEASE -/

/-- R76, R78: the reset that waits for the release has ended, with the first strap sample `sample`. -/
def State.released (s : State) (sample : Nat) : State :=
  { s with power := { s.power with phase := .run, awaitPorst := false, samples := [sample] } }

theorem State.opPorstRelease_free (s : State) (g : Bool) (b : Nat) (hphase : s.power.phase = .reset) (hwait : s.power.awaitPorst = true)
    (hgood : s.porReleases = true) (hfree : s.resetHeld = false) :
    s.opPorstRelease g b = (s.released (b2n g + 2 * b)).thermForce := by
  rw [State.opPorstRelease, if_pos ⟨hphase, hwait, hgood⟩]
  simp [State.modPower, State.released, hfree]

theorem State.opPorstRelease_held (s : State) (g : Bool) (b : Nat) (hphase : s.power.phase = .reset) (hwait : s.power.awaitPorst = true)
    (hgood : s.porReleases = true) (hheld : s.resetHeld = true) :
    s.opPorstRelease g b = { s with power := { s.power with awaitPorst := false, samples := [b2n g + 2 * b] } } := by
  rw [State.opPorstRelease, if_pos ⟨hphase, hwait, hgood⟩, State.thermForce_of_not_awake]
  · simp [State.modPower, hheld, ← hphase]
  · simp [State.awake, State.modPower, hheld]

theorem State.opPorstRelease_not_due (s : State) (g : Bool) (b : Nat)
    (h : s.power.phase ≠ .reset ∨ s.power.awaitPorst = false ∨ s.porReleases = false) : s.opPorstRelease g b = s := by
  refine if_neg ?_
  rintro ⟨hphase, hwait, hgood⟩
  rcases h with h | h | h
  · exact h hphase
  · simp [h] at hwait
  · simp [h] at hgood

/-! ### STRAP_LATCH -/

/-- R78: the samples differ, in GUARD too where it is latched. -/
def State.strapsDiffer (s : State) (a b c : Nat) : Bool :=
  if s.power.powerOn then ! (a == b && b == c) else ! (a / 2 == b / 2 && b / 2 == c / 2)

/-- R78: BOOT_STRAP and its event once the majority `m` of the samples is in, which differ or not. -/
def State.strapStored (s : State) (m : Nat) (differ : Bool) : State :=
  (((s.setFld F.BOOT_STRAP_BOOTSEL (m / 2)).setFld F.BOOT_STRAP_LATCHED 1).setFlag F.BOOT_STRAP_UNSTABLE differ).when differ
    (fun t => t.raise P.BOOT E.BOOT_STRAP_UNSTABLE)

/-- R31: GUARD and the mode, which the end of a power-on reset sets. -/
def State.modeSet (s : State) (m : Nat) (fuse : Bool) : State :=
  (((s.setFld F.BOOT_STRAP_GUARD (m % 2)).setFld F.SYSCFG_MODE_STRAP (m % 2)).setFlag F.SYSCFG_MODE_FUSE_FORCED fuse).setFlag
    F.SYSCFG_MODE_GUARDED (fuse || m % 2 == 1)

/-- The registers' part of STRAP_LATCH. -/
def State.strapsLatched (s : State) (a b c : Nat) : State :=
  (s.strapStored (maj3 a b c) (s.strapsDiffer a b c)).when s.power.powerOn
    (fun t => t.modeSet (maj3 a b c) (s.flag F.BOOT_POLICY_GUARDED_FUSE))

theorem State.opStrapLatch_of_sample (s : State) {a : Nat} (b c : Nat) (hon : s.railsOn = true) (ha : s.power.samples = [a]) :
    s.opStrapLatch b c = { s.strapsLatched a b c with power := { (s.strapsLatched a b c).power with samples := [] } } := by
  simp only [State.opStrapLatch, ha, hon, Bool.not_true, Bool.false_eq_true, if_false]
  rfl

section
variable (s : State) (m : Nat) (differ : Bool)

/-- The fields of BOOT_STRAP beside the event. -/
theorem State.fld_strapStored (f : Fld) (hf : f.reg = R.BOOT_STRAP) : (s.strapStored m differ).fld f =
    (((s.setFld F.BOOT_STRAP_BOOTSEL (m / 2)).setFld F.BOOT_STRAP_LATCHED 1).setFlag F.BOOT_STRAP_UNSTABLE differ).fld f := by
  unfold State.strapStored State.when
  split
  · exact State.fld_raise_ne _ _ _ _ (hf ▸ by decide)
  · rfl

theorem State.bootsel_strapStored : (s.strapStored m differ).fld F.BOOT_STRAP_BOOTSEL = m / 2 % 4 := by
  rw [State.fld_strapStored _ _ _ _ rfl, State.fld_setFlag_ne _ _ _ _ (by decide), State.fld_setFld_ne _ _ _ _ (by decide),
    State.fld_setFld _ _ _ (by decide)]
  rfl

theorem State.latched_strapStored : (s.strapStored m differ).flag F.BOOT_STRAP_LATCHED = true := by
  rw [State.flag, State.fld_strapStored _ _ _ _ rfl, State.fld_setFlag_ne _ _ _ _ (by decide), State.fld_setFld _ _ _ (by decide)]
  rfl

theorem State.unstable_strapStored : (s.strapStored m differ).flag F.BOOT_STRAP_UNSTABLE = differ := by
  rw [State.flag, State.fld_strapStored _ _ _ _ rfl]
  exact State.flag_setFlag _ _ _ (by decide) (by decide)

theorem State.guard_strapStored : (s.strapStored m differ).fld F.BOOT_STRAP_GUARD = s.fld F.BOOT_STRAP_GUARD := by
  rw [State.fld_strapStored _ _ _ _ rfl, State.fld_setFlag_ne _ _ _ _ (by decide), State.fld_setFld_ne _ _ _ _ (by decide),
    State.fld_setFld_ne _ _ _ _ (by decide)]

theorem State.strapStored_event : (s.strapStored m true).event P.BOOT E.BOOT_STRAP_UNSTABLE = true :=
  State.event_raise _ _ _ (by decide)

theorem State.strapStored_keepsRegs : KeepsRegs s (s.strapStored m differ) [R.BOOT_STRAP, R.EVT_RAW P.BOOT] :=
  ((((KeepsRegs.refl s _).setFld (by decide)).setFld (by decide)).setFlag (by decide)).when fun _ hu => hu.raise (by decide)

theorem State.strapStored_steady_keepsRegs : KeepsRegs s (s.strapStored m false) [R.BOOT_STRAP] :=
  (((KeepsRegs.refl s _).setFld (by decide)).setFld (by decide)).setFlag (by decide)

theorem State.strapStored_rest : s.strapStored m differ = { s with regs := (s.strapStored m differ).regs } := by
  unfold State.strapStored State.when
  split <;> rfl

theorem State.modeSet_keepsRegs (fuse : Bool) : KeepsRegs s (s.modeSet m fuse) [R.BOOT_STRAP, R.SYSCFG_MODE] :=
  ((((KeepsRegs.refl s _).setFld (by decide)).setFld (by decide)).setFlag (by decide)).setFlag (by decide)

/-- Of BOOT_STRAP the mode is latched with GUARD alone. -/
theorem State.fld_modeSet (fuse : Bool) (f : Fld) (hreg : f.reg = R.BOOT_STRAP) (hlo : 1 ≤ f.lo) : (s.modeSet m fuse).fld f = s.fld f := by
  have hmode : f.reg ≠ R.SYSCFG_MODE := hreg ▸ by decide
  unfold State.modeSet
  rw [State.fld_setFlag_ne _ _ _ _ (.inl hmode), State.fld_setFlag_ne _ _ _ _ (.inl hmode), State.fld_setFld_ne _ _ _ _ (.inl hmode),
    State.fld_setFld_ne _ F.BOOT_STRAP_GUARD f _ (.inr (.inr hlo))]

theorem State.guarded_modeSet (fuse : Bool) : (s.modeSet m fuse).flag F.SYSCFG_MODE_GUARDED = (fuse || m % 2 == 1) :=
  State.flag_setFlag _ _ _ (by decide) (by decide)

end

section
variable (s : State) (a b c : Nat)

/-- The mode set beside it leaves what BOOT_STRAP shows of the samples. -/
theorem State.fld_strapsLatched (f : Fld) (hreg : f.reg = R.BOOT_STRAP) (hlo : 1 ≤ f.lo) :
    (s.strapsLatched a b c).fld f = (s.strapStored (maj3 a b c) (s.strapsDiffer a b c)).fld f := by
  unfold State.strapsLatched State.when
  split
  · exact State.fld_modeSet _ _ _ _ hreg hlo
  · rfl

theorem State.unstable_strapsLatched : (s.strapsLatched a b c).flag F.BOOT_STRAP_UNSTABLE = s.strapsDiffer a b c := by
  rw [State.flag, State.fld_strapsLatched _ _ _ _ _ rfl (by decide)]
  exact State.unstable_strapStored _ _ _

theorem State.bootsel_strapsLatched : (s.strapsLatched a b c).fld F.BOOT_STRAP_BOOTSEL = maj3 a b c / 2 % 4 :=
  (s.fld_strapsLatched a b c _ rfl (by decide)).trans (s.bootsel_strapStored _ _)

theorem State.latched_strapsLatched : (s.strapsLatched a b c).flag F.BOOT_STRAP_LATCHED = true := by
  rw [State.flag, State.fld_strapsLatched _ _ _ _ _ rfl (by decide)]
  exact s.latched_strapStored _ _

theorem State.events_strapsLatched :
    (s.strapsLatched a b c).raw (R.EVT_RAW P.BOOT) = (s.strapStored (maj3 a b c) (s.strapsDiffer a b c)).raw (R.EVT_RAW P.BOOT) := by
  unfold State.strapsLatched State.when
  split
  · exact State.modeSet_keepsRegs _ _ _ _ (by decide)
  · rfl

theorem State.event_strapsLatched (h : s.strapsDiffer a b c = true) :
    (s.strapsLatched a b c).event P.BOOT E.BOOT_STRAP_UNSTABLE = true := by
  rw [State.event, State.events_strapsLatched, h]
  exact s.strapStored_event _

theorem State.events_strapsLatched_of_alike (h : s.strapsDiffer a b c = false) :
    (s.strapsLatched a b c).raw (R.EVT_RAW P.BOOT) = s.raw (R.EVT_RAW P.BOOT) := by
  rw [State.events_strapsLatched, h]
  exact s.strapStored_steady_keepsRegs _ _ (by decide)

theorem State.strapsLatched_keepsRegs : KeepsRegs s (s.strapsLatched a b c) [R.BOOT_STRAP, R.SYSCFG_MODE, R.EVT_RAW P.BOOT] :=
  ((s.strapStored_keepsRegs _ _).mono (by decide)).when fun u hu => hu.trans ((u.modeSet_keepsRegs _ _).mono (by decide))

theorem State.strapsLatched_rest : s.strapsLatched a b c = { s with regs := (s.strapsLatched a b c).regs } := by
  unfold State.strapsLatched State.when
  split
  · rw [State.strapStored_rest]
    rfl
  · exact State.strapStored_rest s _ _

theorem State.power_strapsLatched : (s.strapsLatched a b c).power = s.power := by rw [State.strapsLatched_rest]

theorem State.guarded_strapsLatched (h : s.power.powerOn = true) : (s.strapsLatched a b c).flag F.SYSCFG_MODE_GUARDED =
    (s.flag F.BOOT_POLICY_GUARDED_FUSE || maj3 a b c % 2 == 1) := by
  simp [State.strapsLatched, State.when, h, State.guarded_modeSet]

theorem State.mode_strapsLatched_at_later_reset (h : s.power.powerOn = false) :
    (s.strapsLatched a b c).raw R.SYSCFG_MODE = s.raw R.SYSCFG_MODE ∧
      (s.strapsLatched a b c).fld F.BOOT_STRAP_GUARD = s.fld F.BOOT_STRAP_GUARD := by
  have hstored : s.strapsLatched a b c = s.strapStored (maj3 a b c) (s.strapsDiffer a b c) := by
    simp [State.strapsLatched, State.when, h]
  exact ⟨hstored ▸ s.strapStored_keepsRegs _ _ _ (by decide), hstored ▸ s.guard_strapStored _ _⟩

theorem State.strapsDiffer_at_power_on (h : s.power.powerOn = true) : s.strapsDiffer a b c = ! (a == b && a == c) := by
  by_cases hab : a = b
  · simp [State.strapsDiffer, h, hab]
  · simp [State.strapsDiffer, h, beq_false_of_ne hab]

end

/-- BOOTSEL of a sample. -/
theorem sample_half (g : Bool) (k : Nat) : (b2n g + 2 * k) / 2 = k := by
  have := b2n_lt g
  omega

theorem State.strapsDiffer_at_later_reset (s : State) (h : s.power.powerOn = false) (a : Nat) (g2 g3 : Bool) (b2 b3 : Nat) :
    s.strapsDiffer a (b2n g2 + 2 * b2) (b2n g3 + 2 * b3) = ! (a / 2 == b2 && a / 2 == b3) := by
  by_cases hab : a / 2 = b2
  · simp [State.strapsDiffer, h, sample_half, hab]
  · simp [State.strapsDiffer, h, sample_half, beq_false_of_ne hab]

/-! ### RSTOUT_N_RELEASE -/

theorem State.opRstout_awake (s : State) (h : s.power.phase = .run) : s.opRstout = { s with power := { s.power with rstoutN := true } } := by
  rw [State.opRstout, if_pos (by simp [State.awake, h])]
  rfl

/-! ### BANK_WINDOW_EXIT and BANK_WINDOW_RETURN -/

theorem forAll_memory_rest {α : Type} {f : α → State → State} (hf : ∀ x t, f x t = { t with memory := (f x t).memory }) (l : List α)
    (s : State) : forAll l f s = { s with memory := (forAll l f s).memory } := by
  induction l generalizing s with
  | nil => rfl
  | cons x l ih =>
    have hcons : forAll (x :: l) f s = forAll l f (f x s) := rfl
    rw [hcons, ih (f x s)]
    generalize (forAll l f (f x s)).memory = m
    rw [hf x s]

/-- R150: what caches hold of the flash is noted with the memory, and nowhere else. -/
theorem State.noteXip_rest (s : State) : s.noteXip = { s with memory := s.noteXip.memory } :=
  forAll_memory_rest (fun _ _ => rfl) _ s

theorem State.noteXip_of_no_lines {s : State} (h : s.memory.lines = []) : s.noteXip = s := by
  simp [State.noteXip, h, forAll]

/-- PWR_OUT shows `v` for a bank, of whose window bank A's lines of the flash are noted first. -/
def State.bankShows (s : State) (bank v : Nat) : State := (s.when (bank == 0) State.noteXip).setFld (bankFld bank) v

section
variable (s : State) (bank v : Nat)

theorem bankFld_in_pwrOut : (bankFld bank).reg = R.PWR_OUT ∧ (bankFld bank).lo + (bankFld bank).width ≤ 64 ∧ (bankFld bank).width = 2 := by
  unfold bankFld
  split
  · decide
  · split
    · decide
    · split <;> decide

theorem State.bankShows_rest : ∃ m : MemState, s.bankShows bank v = { s.setFld (bankFld bank) v with memory := m } := by
  unfold State.bankShows State.when
  split
  · exact ⟨s.noteXip.memory, by rw [State.noteXip_rest]; rfl⟩
  · exact ⟨s.memory, rfl⟩

theorem State.bankShows_only_regs (h : 0 < bank ∨ s.memory.lines = []) : s.bankShows bank v = s.setFld (bankFld bank) v := by
  unfold State.bankShows State.when
  split
  · rename_i hbank
    rcases h with h | h
    · simp at hbank
      omega
    · rw [State.noteXip_of_no_lines h]
  · rfl

theorem State.fld_bankShows (hv : v < 4) : (s.bankShows bank v).fld (bankFld bank) = v := by
  obtain ⟨-, hfit, hwidth⟩ := bankFld_in_pwrOut bank
  rw [State.bankShows, State.fld_setFld _ _ _ hfit, hwidth]
  exact Nat.mod_eq_of_lt hv

theorem State.railsOn_bankShows : (s.bankShows bank v).railsOn = s.railsOn := by
  obtain ⟨m, hm⟩ := s.bankShows_rest bank v
  rw [hm]
  rfl

theorem State.bankShows_keepsRegs : KeepsRegs s (s.bankShows bank v) [R.PWR_OUT] := by
  obtain ⟨m, hm⟩ := s.bankShows_rest bank v
  obtain ⟨hreg, -⟩ := bankFld_in_pwrOut bank
  rw [hm]
  exact ((KeepsRegs.refl s _).setFld (by simp [hreg])).of_regs rfl

theorem State.bankShows_keepsMem : KeepsMem s (s.bankShows bank v) := by
  obtain ⟨m, hm⟩ := s.bankShows_rest bank v
  rw [hm]
  exact (KeepsMem.refl s).of_mem rfl

variable {s}

theorem State.ShuttleStill.bankShows (h : s.ShuttleStill) : (s.bankShows bank v).ShuttleStill := by
  obtain ⟨m, hm⟩ := s.bankShows_rest bank v
  obtain ⟨hreg, -⟩ := bankFld_in_pwrOut bank
  have hset : (s.setFld (bankFld bank) v).ShuttleStill := h.setReg _ (by rw [hreg]; decide)
  rw [hm]
  exact hset.of_regs rfl fun _ => rfl

end

theorem State.fld_bank_settle (s : State) (bank : Nat) : s.settle.fld (bankFld bank) = s.fld (bankFld bank) := by
  have hout : s.settle.raw R.PWR_OUT = s.raw R.PWR_OUT := congrArg Prod.fst (supplySide_settle s)
  rw [State.fld, State.fld, (bankFld_in_pwrOut bank).1, hout]

theorem State.event_pwr_settle (s : State) (b : Nat) : s.settle.event P.PWR b = s.event P.PWR b :=
  congrArg (fun x : DWord × DWord × PowerPhase => x.2.1.getLsbD b) (supplySide_settle s)

theorem State.railsOn_settle (s : State) : s.settle.railsOn = s.railsOn :=
  congrArg (fun x : DWord × DWord × PowerPhase => decide (x.2.2 = .run) || decide (x.2.2 = .reset)) (supplySide_settle s)

theorem State.opBankExit_of_railsOn {s : State} (bank : Nat) (h : s.railsOn = true) :
    s.opBankExit bank = ((s.bankShows bank 0).raise P.PWR E.PWR_BANK_WINDOW).settle := if_pos h

theorem State.opBankReturn_of_outside {s : State} (bank : Nat) (v33 : Bool) (h : s.railsOn = true) (hout : s.fld (bankFld bank) = 0) :
    s.opBankReturn bank v33 = (s.bankShows bank (if v33 then 2 else 1)).settle := if_pos ⟨h, hout⟩

theorem opBankExit_leaves_windows {s : State} (bank : Nat) (h : s.railsOn = true) :
    (s.opBankExit bank).fld (bankFld bank) = 0 ∧ (s.opBankExit bank).event P.PWR E.PWR_BANK_WINDOW = true ∧
      (s.opBankExit bank).bankLive bank = false := by
  have hfld : (s.opBankExit bank).fld (bankFld bank) = 0 := by
    have hreg : (bankFld bank).reg ≠ R.EVT_RAW P.PWR := (bankFld_in_pwrOut bank).1 ▸ by decide
    rw [State.opBankExit_of_railsOn bank h, State.fld_bank_settle, State.fld_raise_ne _ _ _ _ hreg, State.fld_bankShows _ _ _ (by decide)]
  refine ⟨hfld, ?_, by simp [State.bankLive, State.flag, hfld]⟩
  rw [State.opBankExit_of_railsOn bank h, State.event_pwr_settle]
  exact State.event_raise _ _ _ (by decide)

theorem opBankExit_frame {s : State} (bank : Nat) (h : s.railsOn = true) (hstill : s.ShuttleStill) :
    KeepsRegs s (s.opBankExit bank) [R.PWR_OUT, R.EVT_RAW P.PWR] ∧ KeepsMem s (s.opBankExit bank) ∧
      (0 < bank ∨ s.memory.lines = [] → s.opBankExit bank = { s with regs := (s.opBankExit bank).regs }) := by
  have hraised : ((s.bankShows bank 0).raise P.PWR E.PWR_BANK_WINDOW).ShuttleStill := (hstill.bankShows bank 0).setReg _ (by decide)
  rw [State.opBankExit_of_railsOn bank h, hraised.settle_eq]
  refine ⟨((s.bankShows_keepsRegs bank 0).mono (by decide)).raise (by decide), (s.bankShows_keepsMem bank 0).of_mem rfl, fun hb => ?_⟩
  rw [s.bankShows_only_regs bank 0 hb]
  rfl

theorem opBankReturn_shows_mode {s : State} (bank : Nat) (v33 : Bool) (h : s.railsOn = true) (hout : s.fld (bankFld bank) = 0) :
    (s.opBankReturn bank v33).fld (bankFld bank) = (if v33 then 2 else 1) ∧ (s.opBankReturn bank v33).bankLive bank = true := by
  have hfld : (s.opBankReturn bank v33).fld (bankFld bank) = if v33 then 2 else 1 := by
    rw [State.opBankReturn_of_outside bank v33 h hout, State.fld_bank_settle, State.fld_bankShows]
    split <;> decide
  have hon : (s.opBankReturn bank v33).railsOn = true := by
    rw [State.opBankReturn_of_outside bank v33 h hout, State.railsOn_settle, State.railsOn_bankShows, h]
  refine ⟨hfld, ?_⟩
  cases v33 <;> simp [State.bankLive, State.flag, hon, hfld]

theorem opBankReturn_frame {s : State} (bank : Nat) (v33 : Bool) (h : s.railsOn = true) (hout : s.fld (bankFld bank) = 0)
    (hstill : s.ShuttleStill) : KeepsRegs s (s.opBankReturn bank v33) [R.PWR_OUT] ∧ KeepsMem s (s.opBankReturn bank v33) ∧
      (0 < bank ∨ s.memory.lines = [] → s.opBankReturn bank v33 = { s with regs := (s.opBankReturn bank v33).regs }) := by
  rw [State.opBankReturn_of_outside bank v33 h hout, (hstill.bankShows bank _).settle_eq]
  refine ⟨s.bankShows_keepsRegs bank _, s.bankShows_keepsMem bank _, fun hb => ?_⟩
  rw [s.bankShows_only_regs bank _ hb]
  rfl

/-- Settles O6, clause by clause: the release by what R113 makes of it, the windows by what Shuttle cannot reach or, still, leaves alone. -/
theorem releaseStrapsAndBanks : Obligations.ReleaseStrapsAndBanks := by
  unfold Obligations.ReleaseStrapsAndBanks
  refine ⟨?_, ?_, ?_, ?_, ?_, ?_, ?_⟩
  · intro s g b hphase hwait hgood hfree
    let u := s.released (b2n g + 2 * b.val)
    exact ⟨u.thermForce, congrArg Host.Outcome.next (s.opPorstRelease_free g b.val hphase hwait hgood hfree), u.power_thermForce, u.thermForce_hot rfl,
      fun hlow hhigh => (congrArg State.regs (u.thermForce_between hlow hhigh)).trans rfl, u.thermForce_keepsRegs,
      u.power_thermForce ▸ u.thermForce_rest⟩
  · exact fun s g b hphase hwait hgood hheld => ⟨_, rfl, s.opPorstRelease_held g b.val hphase hwait hgood hheld⟩
  · exact fun s g b h => ⟨_, rfl, s.opPorstRelease_not_due g b.val h⟩
  · intro s a g2 g3 b2 b3 hon ha
    have hunstable := s.unstable_strapsLatched a (b2n g2 + 2 * b2.val) (b2n g3 + 2 * b3.val)
    have hpower := s.power_strapsLatched a (b2n g2 + 2 * b2.val) (b2n g3 + 2 * b3.val)
    refine ⟨_, congrArg Host.Outcome.next (s.opStrapLatch_of_sample _ _ hon ha), s.bootsel_strapsLatched _ _ _, s.latched_strapsLatched _ _ _,
      fun h => ⟨s.guarded_strapsLatched _ _ _ h, hunstable.trans (s.strapsDiffer_at_power_on _ _ _ h)⟩, fun h => ?_,
      fun h => s.event_strapsLatched _ _ _ (hunstable.symm.trans h),
      fun h => s.events_strapsLatched_of_alike _ _ _ (hunstable.symm.trans h),
      congrArg (fun p : PowerState => { p with samples := [] }) hpower, s.strapsLatched_keepsRegs _ _ _, ?_⟩
    · obtain ⟨hmode, hguard⟩ := s.mode_strapsLatched_at_later_reset a (b2n g2 + 2 * b2.val) (b2n g3 + 2 * b3.val) h
      exact ⟨hmode, hguard, hunstable.trans (s.strapsDiffer_at_later_reset h a g2 g3 b2.val b3.val)⟩
    · rw [s.strapsLatched_rest]
  · exact fun s h => ⟨_, rfl, s.opRstout_awake h⟩
  · intro s b hon
    obtain ⟨hfld, hevent, hlive⟩ := opBankExit_leaves_windows b.val hon
    exact ⟨_, rfl, hfld, hevent, hlive, opBankExit_frame b.val hon⟩
  · intro s b v33 hon hout
    obtain ⟨hfld, hlive⟩ := opBankReturn_shows_mode b.val v33 hon hout
    exact ⟨_, rfl, hfld, hlive, opBankReturn_frame b.val v33 hon hout⟩

end Sys2Proof.Machine
end

section
/-! Bivouac: a bit of PWR_WAKE_STAT that no field holds. The fields of PWR_WAKE_STAT lie in the always-on domain, and as the rails go off the model
returns every other bit of the register to its reset value. An entry into Bivouac on request is said to leave the whole register as it
was, so where such a bit is set, which no command brings about but the statement allows, the register changes. -/
namespace Sys2Proof.Machine

/-- The state after reset, but heading for Bivouac on request (R107) and with bit 7 of PWR_WAKE_STAT set, which is no field's. -/
def State.strayWakeBit : State :=
  { State.reset.setReg R.PWR_WAKE_STAT 0x80#64 with power := { PowerState.reset with closing := some 3 } }

/-- The state is in canonical form, and the entry into Bivouac clears the bit. -/
theorem bivouacEntry_clears_stray_wake_bit :
    State.strayWakeBit.Canonical ∧ State.strayWakeBit.raw R.PWR_WAKE_STAT = 0x80#64 ∧
      State.strayWakeBit.opBivouacEntry.raw R.PWR_WAKE_STAT = 0#64 := by
  unfold State.Canonical
  decide +kernel

/-- Refutes O8: the clause of an entry into Bivouac that is under way fails in `State.strayWakeBit`. -/
theorem not_supplyLossAndReturn : ¬ Obligations.SupplyLossAndReturn := by
  unfold Obligations.SupplyLossAndReturn
  intro h
  obtain ⟨-, -, -, -, -, -, -, -, -, -, -, -, -, -, hentry, -⟩ := h
  obtain ⟨-, hbefore, hafter⟩ := bivouacEntry_clears_stray_wake_bit
  obtain ⟨t, ht, -, -, -, -, hkeeps, -⟩ := hentry State.strayWakeBit 3 (by decide +kernel) (by decide) (by decide +kernel)
  injection ht with ht
  subst ht
  have hsame : State.strayWakeBit.opBivouacEntry.raw R.PWR_WAKE_STAT = _ := hkeeps rfl
  rw [hbefore, hafter] at hsame
  cases hsame

end Sys2Proof.Machine
end

section
/-! DOZE, STOP and wakes: a write-back that the MRAMC refuses. An entry into STOP writes every dirty line back (R104), and what a line holds
of a write-protected MRAM page is lost there (R277): memory reads as it did before the store, so an entry does not leave every byte. -/
namespace Sys2Proof.Machine

/-- The state after reset, but with page 0 of MRAM write-protected, the L3 holding 7 for its first byte, which reads 0 in the array, and every
hart in WFI with STOP requested. -/
def State.protectedDirtyLine : State :=
  let s := (((State.reset.setFld F.MRAMC_CFG_WP_EN 1).setFld F.MRAMC_WP_LIMIT_LIMIT 1).setFld F.PWR_REQ_IDLE 2).putMem 0x08000000 [7#8]
  { s with harts := Vector.replicate 4 { Hart.reset 0 with running := true, wfi := true },
           memory := { MemState.reset with lines := [⟨.l3, 0x08000000, .m, true, 0⟩], stale := [(0x08000000, 0#8)] } }

/-- STOP is entered, and the byte reads 0 where it read 7. -/
theorem stopEntry_loses_protected_byte :
    State.protectedDirtyLine.mayStop = true ∧ State.protectedDirtyLine.opStopEntry.fld F.PWR_STATE_CUR = 3 ∧
      State.protectedDirtyLine.byteAt 0x08000000 = 7#8 ∧ State.protectedDirtyLine.opStopEntry.byteAt 0x08000000 = 0#8 := by decide +kernel

/-- Refutes O9: the clause of an entry into STOP fails in `State.protectedDirtyLine`, which loses a byte of memory. -/
theorem not_powerStateTransitions : ¬ Obligations.PowerStateTransitions := by
  unfold Obligations.PowerStateTransitions
  intro h
  obtain ⟨-, -, -, -, -, hentry, -⟩ := h
  obtain ⟨hmay, -, hbefore, hafter⟩ := stopEntry_loses_protected_byte
  obtain ⟨t, ht, -, -, -, -, -, -, -, -, hmem, -⟩ := hentry State.protectedDirtyLine (by decide +kernel) hmay
  injection ht with ht
  subst ht
  have hsame := hmem 0x08000000
  rw [hafter, hbefore] at hsame
  cases hsame

end Sys2Proof.Machine
end

section
/-! Clock measurement: CLK_MEAS_CTRL.SEL lists codes 0 to 5, so a start that names 6 or 7 leaves SEL as it was (R42). -/
namespace Sys2Proof.Machine

/-- A start with the reserved code 6, from reset: SEL stays 0. -/
theorem clkMeasStart_keeps_sel_of_reserved_code :
    ∃ t, exec (.clkMeasStart ⟨0, true⟩ 6) State.reset = .next t ∧ t.fld F.CLK_MEAS_CTRL_SEL = 0 := ⟨_, rfl, by decide +kernel⟩

/-- Refutes O10: the clause of CLK_MEAS_START fails after reset for the reserved code 6. -/
theorem not_snapshotsRtcAndClockMeasurement : ¬ Obligations.SnapshotsRtcAndClockMeasurement := by
  unfold Obligations.SnapshotsRtcAndClockMeasurement
  intro h
  obtain ⟨-, -, -, -, -, -, hstart, -⟩ := h
  have hopen : OpenTo State.reset ⟨0, true⟩ P.CLK := by unfold OpenTo; decide +kernel
  obtain ⟨t, ht, -, -, hsel, -⟩ := hstart State.reset ⟨0, true⟩ 6 hopen
  obtain ⟨u, hu, hkept⟩ := clkMeasStart_keeps_sel_of_reserved_code
  rw [ht] at hu
  injection hu with hu
  subst hu
  rw [hkept] at hsel
  cases hsel

end Sys2Proof.Machine
end

section
/-! A refused write (R44, R46, R58): what its clamp event leaves in the header of its page, and the commit that runs past the end of MRAM
(R109). -/
namespace Sys2Proof.Machine

/-! ### What a frame leaves of fields, flags and events -/

theorem KeepsRegs.fld {s t : State} {l : List Nat} (h : KeepsRegs s t l) {f : Fld} (hf : f.reg ∉ l) : t.fld f = s.fld f := by
  rw [State.fld, State.fld, h _ hf]

theorem KeepsRegs.flag {s t : State} {l : List Nat} (h : KeepsRegs s t l) {f : Fld} (hf : f.reg ∉ l) : t.flag f = s.flag f := by
  rw [State.flag, State.flag, h.fld hf]

theorem KeepsRegs.event {s t : State} {l : List Nat} (h : KeepsRegs s t l) {p : Nat} (b : Nat) (hp : R.EVT_RAW p ∉ l) :
    t.event p b = s.event p b := by
  rw [State.event, State.event, h _ hp]

/-! ### One clamp event -/

/-- R44: an empty log of the page at `p` captures a write; a full one keeps what it holds. -/
def State.clampLogged (s : State) (p ni off reason wrote kept : Nat) : State :=
  if s.flag (F.CLAMP_ADDR_VALID p) then s else
    ((s.setReg (R.CLAMP_ADDR p) (BitVec.ofNat 64 (off % 4096 + ni % 16 * 2 ^ 16 + reason % 128 * 2 ^ 24 + 2 ^ 31))).setReg
      (R.CLAMP_WROTE p) (BitVec.ofNat 64 (wrote % 2 ^ 32))).setReg (R.CLAMP_KEPT p) (BitVec.ofNat 64 (kept % 2 ^ 32))

/-- R44, R58: CLAMP_COUNT after `n` clamp events. -/
def State.clampCounted (s : State) (p n : Nat) : State :=
  let t := s.setFld (F.CLAMP_COUNT_COUNT p) (satAdd 65535 (s.fld (F.CLAMP_COUNT_COUNT p)) n)
  if t.fld (F.CLAMP_COUNT_COUNT p) = 65535 then t.setFld (F.CLAMP_COUNT_SAT p) 1 else t

section
variable (s : State) (p ni off reason wrote kept : Nat)

theorem State.clampEvents_one :
    s.clampEvents p ni off reason wrote kept 1 = ((s.raise p 31).clampLogged p ni off reason wrote kept).clampCounted p 1 := rfl

theorem State.clampLogged_of_full (h : s.flag (F.CLAMP_ADDR_VALID p) = true) : s.clampLogged p ni off reason wrote kept = s := if_pos h

theorem State.clampLogged_keepsRegs :
    KeepsRegs s (s.clampLogged p ni off reason wrote kept) [R.CLAMP_ADDR p, R.CLAMP_WROTE p, R.CLAMP_KEPT p] := by
  unfold State.clampLogged
  split
  · exact KeepsRegs.refl s _
  · exact (((KeepsRegs.refl s _).setReg (by simp)).setReg (by simp)).setReg (by simp)

theorem State.clampCounted_keepsRegs (n : Nat) : KeepsRegs s (s.clampCounted p n) [R.CLAMP_COUNT p] := by
  have hset := (KeepsRegs.refl s [R.CLAMP_COUNT p]).setFld (f := F.CLAMP_COUNT_COUNT p)
    (v := satAdd 65535 (s.fld (F.CLAMP_COUNT_COUNT p)) n) (by simp [F.CLAMP_COUNT_COUNT])
  unfold State.clampCounted
  dsimp only
  split
  · exact hset.setFld (by simp [F.CLAMP_COUNT_SAT])
  · exact hset

theorem satAdd_eq_min (lim a b : Nat) : satAdd lim a b = min lim (a + b) := by
  unfold satAdd
  split <;> omega

theorem State.count_clampCounted (n : Nat) :
    (s.clampCounted p n).fld (F.CLAMP_COUNT_COUNT p) = min 65535 (s.fld (F.CLAMP_COUNT_COUNT p) + n) := by
  have hset : (s.setFld (F.CLAMP_COUNT_COUNT p) (satAdd 65535 (s.fld (F.CLAMP_COUNT_COUNT p)) n)).fld (F.CLAMP_COUNT_COUNT p) =
      min 65535 (s.fld (F.CLAMP_COUNT_COUNT p) + n) := by
    rw [State.fld_setFld _ _ _ (by simp [F.CLAMP_COUNT_COUNT]), satAdd_eq_min]
    exact Nat.mod_eq_of_lt (Nat.lt_succ_of_le (Nat.min_le_left _ _))
  unfold State.clampCounted
  dsimp only
  split
  · rw [State.fld_setFld_ne _ _ _ _ (by simp [F.CLAMP_COUNT_COUNT, F.CLAMP_COUNT_SAT]), hset]
  · exact hset

end

section
variable (s : State) (p ni off reason wrote kept : Nat)

theorem State.event_clampEvents : (s.clampEvents p ni off reason wrote kept 1).event p 31 = true := by
  have hlog := (s.raise p 31).clampLogged_keepsRegs p ni off reason wrote kept
  have hcount := ((s.raise p 31).clampLogged p ni off reason wrote kept).clampCounted_keepsRegs p 1
  rw [State.clampEvents_one, hcount.event _ (by simp [R.EVT_RAW, R.CLAMP_COUNT]),
    hlog.event _ (by simp [R.EVT_RAW, R.CLAMP_ADDR, R.CLAMP_WROTE, R.CLAMP_KEPT])]
  exact s.event_raise p 31 (by decide)

theorem State.count_clampEvents : (s.clampEvents p ni off reason wrote kept 1).fld (F.CLAMP_COUNT_COUNT p) =
    min 65535 (s.fld (F.CLAMP_COUNT_COUNT p) + 1) := by
  have hlog : ((s.raise p 31).clampLogged p ni off reason wrote kept).fld (F.CLAMP_COUNT_COUNT p) = s.fld (F.CLAMP_COUNT_COUNT p) := by
    rw [((s.raise p 31).clampLogged_keepsRegs p ni off reason wrote kept).fld
      (by simp [F.CLAMP_COUNT_COUNT, R.CLAMP_COUNT, R.CLAMP_ADDR, R.CLAMP_WROTE, R.CLAMP_KEPT])]
    exact s.fld_raise_ne _ _ _ (by simp [F.CLAMP_COUNT_COUNT, R.CLAMP_COUNT, R.EVT_RAW])
  rw [State.clampEvents_one, State.count_clampCounted, hlog]

/-- A full log keeps what it holds. -/
theorem State.clampEvents_keeps_full_log (h : s.flag (F.CLAMP_ADDR_VALID p) = true) {a : Nat} (hevt : a ≠ R.EVT_RAW p) (hcount : a ≠ R.CLAMP_COUNT p) :
    (s.clampEvents p ni off reason wrote kept 1).raw a = s.raw a := by
  have hfull : (s.raise p 31).flag (F.CLAMP_ADDR_VALID p) = true :=
    (s.flag_raise_ne _ _ _ (by simp [F.CLAMP_ADDR_VALID, R.CLAMP_ADDR, R.EVT_RAW])).trans h
  rw [State.clampEvents_one, State.clampLogged_of_full _ _ _ _ _ _ _ hfull, State.clampCounted_keepsRegs _ _ _ _ (by simpa using hcount),
    State.raw_raise_ne _ _ _ _ hevt]

/-- An empty log captures the write. -/
theorem State.clampEvents_fills_empty_log (h : s.flag (F.CLAMP_ADDR_VALID p) = false) :
    (s.clampEvents p ni off reason wrote kept 1).raw (R.CLAMP_ADDR p) =
        BitVec.ofNat 64 (off % 4096 + ni % 16 * 2 ^ 16 + reason % 128 * 2 ^ 24 + 2 ^ 31) ∧
      (s.clampEvents p ni off reason wrote kept 1).raw (R.CLAMP_KEPT p) = BitVec.ofNat 64 (kept % 2 ^ 32) := by
  have hempty : ¬ (s.raise p 31).flag (F.CLAMP_ADDR_VALID p) = true := by
    rw [State.flag_raise_ne _ _ _ _ (by simp [F.CLAMP_ADDR_VALID, R.CLAMP_ADDR, R.EVT_RAW]), h]
    decide
  rw [State.clampEvents_one, State.clampCounted_keepsRegs _ _ _ _ (by simp [R.CLAMP_ADDR, R.CLAMP_COUNT]),
    State.clampCounted_keepsRegs _ _ _ _ (by simp [R.CLAMP_KEPT, R.CLAMP_COUNT]), State.clampLogged, if_neg hempty]
  simp [R.CLAMP_ADDR, R.CLAMP_KEPT, R.CLAMP_WROTE]

end

/-- The fields of CLAMP_ADDR. -/
theorem clampAddr_fields (off ni reason : Nat) (hoff : off < 4096) (hreason : reason < 128) :
    let w := BitVec.ofNat 64 (off % 4096 + ni % 16 * 2 ^ 16 + reason % 128 * 2 ^ 24 + 2 ^ 31)
    Bits.get w 31 1 = 1 ∧ Bits.get w 0 12 = off ∧ Bits.get w 24 7 = reason ∧ Bits.get w 16 4 = ni % 16 := by
  simp only [Bits.get, BitVec.toNat_ofNat, Nat.shiftRight_eq_div_pow]
  omega

/-- R46: a refusal is the one clamp event that its register, its initiator, its reason and its detail describe. -/
theorem State.refused_refuse (s : State) (q : Req) (a reason : Nat) (v : DWord) (detail : Nat) (hreason : reason < 128) :
    s.Refused (s.refuse q.ni.val a reason v detail) q a reason detail := by
  have hoff : a - pageBase a < 4096 := by
    unfold pageBase
    omega
  refine ⟨State.event_clampEvents .., State.count_clampEvents .., fun hfull => ?_, fun hempty => ?_⟩
  · have hkeep := fun {b : Nat} => State.clampEvents_keeps_full_log s (pageBase a) q.ni.val (a - pageBase a) reason v.toNat detail hfull (a := b)
    exact ⟨hkeep (by simp [R.CLAMP_ADDR, R.EVT_RAW]) (by simp [R.CLAMP_ADDR, R.CLAMP_COUNT]),
      hkeep (by simp [R.CLAMP_KEPT, R.EVT_RAW]) (by simp [R.CLAMP_KEPT, R.CLAMP_COUNT]),
      hkeep (by simp [R.CLAMP_WROTE, R.EVT_RAW]) (by simp [R.CLAMP_WROTE, R.CLAMP_COUNT])⟩
  · obtain ⟨haddr, hkept⟩ := State.clampEvents_fills_empty_log s (pageBase a) q.ni.val (a - pageBase a) reason v.toNat detail hempty
    obtain ⟨hvalid, hoffset, hcode, hni⟩ := clampAddr_fields (a - pageBase a) q.ni.val reason hoff hreason
    rw [← haddr] at hvalid hoffset hcode hni
    exact ⟨congrArg (· != 0) hvalid, hoffset, hcode, hni, hkept⟩

/-! ### A commit past the end of MRAM -/

/-- What SNAP_COMMIT writes into PWR_SNAP_CTRL. -/
def State.snapCommitWord (s : State) (pages : BitVec 8) : DWord :=
  BitVec.ofNat 64 (F.PWR_SNAP_CTRL_COMMIT.at 1 + F.PWR_SNAP_CTRL_PAGES.at pages.toNat
    + F.PWR_SNAP_CTRL_COMPLETE.at (s.fld F.PWR_SNAP_CTRL_COMPLETE) + F.PWR_SNAP_CTRL_BUSY.at (s.fld F.PWR_SNAP_CTRL_BUSY))

theorem State.snapCommitWord_fields (s : State) (pages : BitVec 8) :
    F.PWR_SNAP_CTRL_COMMIT.of (s.snapCommitWord pages) = 1 ∧ F.PWR_SNAP_CTRL_PAGES.of (s.snapCommitWord pages) = pages.toNat := by
  have hpages := pages.isLt
  simp only [State.snapCommitWord, Fld.of, Fld.at, F.PWR_SNAP_CTRL_COMMIT, F.PWR_SNAP_CTRL_PAGES, F.PWR_SNAP_CTRL_COMPLETE,
    F.PWR_SNAP_CTRL_BUSY, Bits.get, BitVec.toNat_ofNat, Nat.shiftRight_eq_div_pow]
  omega

/-- R109: such a commit is refused, and the refusal is all that the write does. -/
theorem exec_snapCommit_past_end (s : State) (q : Req) (pages : BitVec 8) (hopen : OpenTo s q P.PWR)
    (hend : 2048 < s.fld F.PWR_SNAP_BASE_BASE + min 64 (max 1 pages.toNat)) :
    exec (.snapCommit q pages) s = .next ((s.respond false 0#64).refuse q.ni.val R.PWR_SNAP_CTRL 1 (s.snapCommitWord pages)
      (s.fld F.PWR_SNAP_BASE_BASE + min 64 (max 1 pages.toNat))) := by
  obtain ⟨hcommit, hpages⟩ := s.snapCommitWord_fields pages
  obtain ⟨hpriv, hrun⟩ := hopen
  have hstored : snapPages (s.snapCommitWord pages) = min 64 (max 1 pages.toNat) := by rw [snapPages, hpages]
  have hgate : s.gateWrite q R.PWR_SNAP_CTRL .w (s.snapCommitWord pages) (fun t => t.opSnapCtrl q.ni.val (s.snapCommitWord pages)) =
      (s.respond false 0#64).opSnapCtrl q.ni.val (s.snapCommitWord pages) := s.gate_open _ _ _ _ _ (by decide) hpriv hrun
  have hbeyond : F.PWR_SNAP_CTRL_COMMIT.of (s.snapCommitWord pages) = 1 ∧
      2048 < (s.respond false 0#64).fld F.PWR_SNAP_BASE_BASE + snapPages (s.snapCommitWord pages) := ⟨hcommit, hstored ▸ hend⟩
  refine congrArg Host.Outcome.next (hgate.trans ?_)
  rw [State.opSnapCtrl, if_pos hbeyond, hstored]
  rfl

/-- Settles O56: a commit past the end is refused (R109), a refusal is one clamp event (R46), and PWR_SNAP_CTRL is no register of its log. -/
theorem snapshotCommitBeyondTheEndIsRefused : Obligations.SnapshotCommitBeyondTheEndIsRefused := by
  intro s q pages hopen hend
  let u := s.respond false 0#64
  have hkeeps : KeepsRegs s (u.refuse q.ni.val R.PWR_SNAP_CTRL 1 (s.snapCommitWord pages)
      (s.fld F.PWR_SNAP_BASE_BASE + min 64 (max 1 pages.toNat))) (logRegs P.PWR) :=
    ((KeepsRegs.refl s _).of_regs rfl).refuse (t := u) fun _ ha => ha
  exact ⟨_, exec_snapCommit_past_end s q pages hopen hend, State.refused_refuse u q _ _ _ _ (by decide),
    hkeeps R.PWR_SNAP_CTRL (by decide), (hkeeps.flag (by decide)).trans, hkeeps, State.clampEvents_rest u _ _ _ _ _ _ _⟩

end Sys2Proof.Machine
end

section
/-! What a write into memory reaches beside memory and its queues (R99, R108, R273, R275): three registers and the count of a snapshot commit. -/
namespace Sys2Proof.Machine

/-! ### Registers listed once -/

/-- Every entry that the register file lists for the register at `a` is what the register reads: so it is in a canonical file, and so it
is of a register once written. -/
def State.ReadsOne (s : State) (a : Nat) : Prop := ∀ e ∈ s.regs, e.1 = a → e.2 = s.raw a

theorem SMap.mem_put {α : Type} [DecidableEq α] {d : Nat → α} {m : List (Nat × α)} {k : Nat} {v : α} {e : Nat × α}
    (h : e ∈ SMap.put d m k v) : e = (k, v) ∨ e ∈ m ∧ e.1 ≠ k := by
  have herase : ∀ x ∈ SMap.erase m k, x ∈ m ∧ x.1 ≠ k := fun x hx => ⟨(List.mem_filter.1 hx).1, SMap.erase_ne m k x hx⟩
  unfold SMap.put at h
  split at h
  · exact .inr (herase e h)
  · exact (SMap.mem_insert _ k v e h).imp_right (herase e)

theorem State.readsOne_setReg (s : State) (a : Nat) (v : DWord) : (s.setReg a v).ReadsOne a := by
  intro e he hea
  rw [State.raw_setReg, if_pos rfl]
  rcases SMap.mem_put he with rfl | ⟨-, hne⟩
  · rfl
  · exact absurd hea hne

theorem State.ReadsOne.setReg {s : State} {a : Nat} (h : s.ReadsOne a) (b : Nat) (v : DWord) : (s.setReg b v).ReadsOne a := by
  rcases eq_or_ne a b with rfl | hab
  · exact s.readsOne_setReg a v
  · intro e he hea
    rw [State.raw_setReg, if_neg hab]
    rcases SMap.mem_put he with rfl | ⟨hmem, -⟩
    · exact absurd hea.symm hab
    · exact h e hmem hea

/-- Entries written one after the other over `acc`, read at a key that each of them lists with the value `v`. -/
theorem SMap.get_foldl_put {α : Type} [DecidableEq α] (d : Nat → α) (g : Nat → α → α) (l acc : List (Nat × α)) (k : Nat) (v : α)
    (hv : ∀ e ∈ l, e.1 = k → e.2 = v) :
    SMap.get d (l.foldl (fun acc e => SMap.put d acc e.1 (g e.1 e.2)) acc) k = if l.any (fun e => e.1 == k) then g k v else SMap.get d acc k := by
  induction l generalizing acc with
  | nil => rfl
  | cons x l ih =>
    rw [List.foldl_cons, ih _ fun e he => hv e (List.mem_cons_of_mem _ he), SMap.get_put, List.any_cons]
    by_cases hx : x.1 = k
    · simp [hx, hv x List.mem_cons_self hx]
    · rw [beq_false_of_ne hx, Bool.false_or, if_neg (Ne.symm hx)]

/-- A map over entries, read at a key that every entry lists with one value. -/
theorem SMap.get_mapEntries {α : Type} [DecidableEq α] (d : Nat → α) (g : Nat → α → α) (m : List (Nat × α)) (k : Nat)
    (hone : ∀ e ∈ m, e.1 = k → e.2 = SMap.get d m k) (hd : g k (d k) = d k) :
    SMap.get d (SMap.mapEntries d g m) k = g k (SMap.get d m k) := by
  rw [SMap.mapEntries, SMap.get_foldl_put d g m [] k _ hone]
  split
  · rfl
  · rename_i hnone
    have habsent : SMap.get d m k = d k := SMap.get_none d m k fun e he hek => hnone (List.any_eq_true.2 ⟨e, he, beq_iff_eq.2 hek⟩)
    rw [habsent, hd]
    rfl

/-- R22: after a reset of the registers one keeps the bits that stay, and has its reset value in every other. -/
theorem State.raw_resetRegs {s : State} {a : Nat} (h : s.ReadsOne a) (keep : Nat → DWord) :
    (s.resetRegs keep).raw a = (s.raw a &&& keep a) ||| (resetWord a &&& ~~~ (keep a)) := by
  have hreset : (resetWord a &&& keep a) ||| (resetWord a &&& ~~~ (keep a)) = resetWord a := by
    rw [← BitVec.and_or_distrib_left, BitVec.or_not_self, BitVec.and_allOnes]
  exact SMap.get_mapEntries resetWord (fun a w => (w &&& keep a) ||| (resetWord a &&& ~~~ (keep a))) s.regs a h hreset

/-! ### The reach of memory writes -/

/-- The registers that a write into memory can change: a touched snapshot, and the end of a drain. -/
def memoryRegs : List Nat := [R.PWR_SNAP_CTRL, R.MRAMC_QUEUE, R.EVT_RAW P.MRAMC]

/-- Memory and what orders its writes may have changed: of the registers only `memoryRegs`, and of the blocks below nothing. -/
structure State.MemoryOnly (s t : State) : Prop where
  keeps : KeepsRegs s t memoryRegs
  readsOne : ∀ a, s.ReadsOne a → t.ReadsOne a
  boot : t.boot = s.boot
  reed : t.reed = s.reed
  harts : t.harts = s.harts
  shuttle : t.shuttle = s.shuttle
  sec : t.sec = s.sec
  usb : t.usb = s.usb

namespace State.MemoryOnly

theorem refl (s : State) : s.MemoryOnly s := ⟨.refl s _, fun _ h => h, rfl, rfl, rfl, rfl, rfl, rfl⟩

theorem trans {s t u : State} (h : s.MemoryOnly t) (k : t.MemoryOnly u) : s.MemoryOnly u :=
  ⟨h.keeps.trans k.keeps, fun a ha => k.readsOne a (h.readsOne a ha), k.boot.trans h.boot, k.reed.trans h.reed, k.harts.trans h.harts,
    k.shuttle.trans h.shuttle, k.sec.trans h.sec, k.usb.trans h.usb⟩

/-- The updates that are free: of the bytes, of what the memories keep, and of the supply. -/
theorem bytes (s : State) (m : List (Nat × Byte)) (v : MemState) (p : PowerState) : s.MemoryOnly { s with mem := m, memory := v, power := p } :=
  ⟨fun _ _ => rfl, fun _ h => h, rfl, rfl, rfl, rfl, rfl, rfl⟩

theorem setReg (s : State) {a : Nat} (v : DWord) (ha : a ∈ memoryRegs) : s.MemoryOnly (s.setReg a v) :=
  ⟨(KeepsRegs.refl s _).setReg ha, fun _ h => h.setReg a v, rfl, rfl, rfl, rfl, rfl, rfl⟩

theorem setFld (s : State) {f : Fld} (v : Nat) (hf : f.reg ∈ memoryRegs) : s.MemoryOnly (s.setFld f v) := setReg s _ hf

theorem foldl {α : Type} {f : State → α → State} (hf : ∀ (t : State) x, t.MemoryOnly (f t x)) (l : List α) (s : State) : s.MemoryOnly (l.foldl f s) := by
  induction l generalizing s with
  | nil => exact refl s
  | cons x l ih => exact (hf s x).trans (ih _)

end State.MemoryOnly

section
variable (s : State)

theorem State.memoryOnly_touchSnapshot (a n : Nat) : s.MemoryOnly (s.touchSnapshot a n) := by
  unfold State.touchSnapshot
  dsimp only
  split
  · exact .setFld s _ (by decide)
  · exact .refl s

theorem State.memoryOnly_mramComplete (bank : Nat) : s.MemoryOnly (s.mramComplete bank) := by
  unfold State.mramComplete
  split
  · exact .refl s
  · split
    · exact .refl s
    · exact .bytes s _ _ _

theorem State.memoryOnly_mramDone (bank : Nat) : s.MemoryOnly (s.mramDone bank) := by
  have hdone := s.memoryOnly_mramComplete bank
  unfold State.mramDone
  dsimp only
  split
  · exact (hdone.trans (.setFld _ _ (by decide))).trans (.setReg _ _ (by decide))
  · exact hdone

theorem State.memoryOnly_mramUntil (bank : Nat) (due : State → Bool) : s.MemoryOnly (s.mramUntil bank due) := by
  refine .foldl (fun t _ => ?_) _ s
  dsimp only
  split
  · exact .refl t
  · exact t.memoryOnly_mramDone _

theorem State.memoryOnly_mramPush (e : MramWrite) : s.MemoryOnly (s.mramPush e) :=
  (s.memoryOnly_mramUntil _ _).trans (.bytes _ _ _ _)

theorem State.memoryOnly_mramQueue (a : Nat) (bs : List Byte) : s.MemoryOnly (s.mramQueue a bs) :=
  ((State.MemoryOnly.bytes s (putBytes s.mem a bs) s.memory s.power).trans (State.memoryOnly_mramPush _ _)).trans
    (State.memoryOnly_touchSnapshot _ _ _)

theorem State.memoryOnly_land (a : Nat) (bs : List Byte) : s.MemoryOnly (s.land a bs) := by
  have hfresh : s.MemoryOnly (s.freshen a bs.length) := .bytes s _ _ _
  unfold State.land
  dsimp only
  split
  · exact hfresh.trans (.foldl (fun t p => t.memoryOnly_mramQueue _ _) _ _)
  · exact hfresh.trans (.bytes _ _ _ _)

theorem State.memoryOnly_portLand (a : Nat) (bs : List Byte) : s.MemoryOnly (s.portLand a bs) :=
  (((s.memoryOnly_mramUntil _ _).trans (State.MemoryOnly.bytes _ _ _ _)).trans (State.MemoryOnly.bytes _ _ _ _)).trans
    (State.memoryOnly_touchSnapshot _ _ _)

theorem State.memoryOnly_restoreStale : s.MemoryOnly s.restoreStale :=
  (State.MemoryOnly.foldl (fun t _ => .bytes t _ _ _) _ s).trans (.bytes _ _ _ _)

theorem State.memoryOnly_landRequests : s.MemoryOnly s.landRequests := by
  refine .foldl (fun t r => ?_) _ s
  dsimp only
  split
  · exact .refl t
  · exact t.memoryOnly_land _ _

theorem State.memoryOnly_finishCommit : s.MemoryOnly s.finishCommit := by
  unfold State.finishCommit State.when
  split
  · exact (State.MemoryOnly.setFld s _ (by decide)).trans (.setFld _ _ (by decide))
  · exact .refl s

end

end Sys2Proof.Machine
end

section
/-! A system reset as it begins (R22, R220, R538, R592): the registers, the harts, the blocks and the memory. -/
namespace Sys2Proof.Machine

theorem KeepsRegs.forEach {s t : State} {l : List Nat} {n : Nat} {f : Nat → State → State} (h : KeepsRegs s t l)
    (hf : ∀ i < n, ∀ u, KeepsRegs s u l → KeepsRegs s (f i u) l) : KeepsRegs s (forEach n f t) l :=
  List.foldlRecOn (motive := fun u => KeepsRegs s u l) _ _ h fun u hu i hi => hf i (List.mem_range.1 hi) u hu

theorem forEach_rest {n : Nat} {f : Nat → State → State} (hf : ∀ (i : Nat) (t : State), f i t = { t with regs := (f i t).regs }) (s : State) :
    forEach n f s = { s with regs := (forEach n f s).regs } := by
  refine List.foldlRecOn (motive := fun (t : State) => t = { s with regs := t.regs }) _ _ rfl fun t ht i _ => ?_
  rw [hf i t]
  generalize (f i t).regs = r
  rw [ht]

/-- A hart of a state whose harts have all been changed alike. -/
theorem State.hart_map {s t : State} {f : Hart → Hart} (h : t.harts = s.harts.map f) (k : Fin 4) : t.hart k.val = f (s.hart k.val) := by
  have hk : k.val < s.harts.toList.length := by simp
  have hkt : k.val < t.harts.toList.length := by simp
  rw [State.hart, State.hart, List.getD_eq_getElem _ _ hk, List.getD_eq_getElem _ _ hkt]
  simp [h]

/-- The registers that the fuses set at a reset (Table Boot-9, Table Boot-10, R535). -/
def fuseRegs : List Nat := [R.SYSCFG_UID 0, R.SYSCFG_UID 1, R.SYSCFG_UID 2, R.SYSCFG_UID 3, R.SYSCFG_LIFECYCLE, R.SYSCFG_DEBUG_EN,
  R.BOOT_OTP_SVN, R.TETHER_CFG, R.BOOT_POLICY]

section
variable (s : State)

theorem State.latchOtp_keepsRegs : KeepsRegs s s.latchOtp fuseRegs := by
  have huid : KeepsRegs s (forEach 4 (fun n t => t.setFld (F.SYSCFG_UID_UID n) (t.otpWord n)) s) fuseRegs :=
    (KeepsRegs.refl s _).forEach fun i hi u hu => hu.setFld (by revert i; decide)
  exact (((((huid.setFld (by decide)).setFld (by decide)).setReg (by decide)).setFld (by decide)).setFlag (by decide)).setReg (by decide)

theorem State.latchOtp_rest : s.latchOtp = { s with regs := s.latchOtp.regs } := by
  have huid := forEach_rest (n := 4) (f := fun n t => t.setFld (F.SYSCFG_UID_UID n) (t.otpWord n)) (fun _ _ => rfl) s
  unfold State.latchOtp
  dsimp only
  rw [huid]
  rfl

/-- The memory as a reset finds it: every accepted write landed, the running commit complete. -/
theorem State.memoryOnly_beforeReset : s.MemoryOnly s.restoreStale.landRequests.finishCommit :=
  (s.memoryOnly_restoreStale.trans (State.memoryOnly_landRequests _)).trans (State.memoryOnly_finishCommit _)

variable (cause : Nat) (powerOn : Bool)

theorem State.power_startReset : (s.startReset cause powerOn).power = s.resetPower cause powerOn := by
  unfold State.startReset
  rw [State.latchOtp_rest]
  rfl

theorem State.cause_startReset : (s.startReset cause powerOn).fld F.SYSCFG_RESET_CAUSE_CAUSE = 2 ^ cause % 2 ^ 9 := by
  unfold State.startReset
  rw [(State.latchOtp_keepsRegs _).fld (by decide)]
  exact State.fld_setFld _ _ _ (by decide)

/-- The bits of the register at `a` that the reset leaves: always-on, measured, or a strap not latched anew. -/
def State.resetKeeps (a : Nat) : DWord := aonMask a ||| measuredMask a ||| strapMask cause (powerOn || s.strapsOwed) a

/-- R22: a register that the reset does not latch keeps those bits, and has its reset value in every other. -/
theorem State.raw_startReset {a : Nat} (hone : s.ReadsOne a) (hl : a ∉ latchedRegs) (hm : a ∉ memoryRegs) :
    (s.startReset cause powerOn).raw a =
      (s.raw a &&& s.resetKeeps cause powerOn a) ||| (resetWord a &&& ~~~ (s.resetKeeps cause powerOn a)) := by
  have hbefore := s.memoryOnly_beforeReset
  have hfuse : a ∉ fuseRegs := fun h => hl ((by decide : ∀ x ∈ fuseRegs, x ∈ latchedRegs) a h)
  have hcause : a ≠ F.SYSCFG_RESET_CAUSE_CAUSE.reg := fun h => hl (h ▸ by decide)
  have hregs := State.raw_resetRegs (hbefore.readsOne a hone) (s.resetKeeps cause powerOn)
  rw [hbefore.keeps a hm] at hregs
  unfold State.startReset
  rw [State.latchOtp_keepsRegs _ _ hfuse, State.raw_setFld_ne _ _ _ _ hcause]
  exact hregs

theorem State.hart_startReset (h : Fin 4) : (s.startReset cause powerOn).hart h.val =
    { Hart.reset 0 with resetHalt := ! powerOn && (s.hart h.val).resetHalt } := by
  refine State.hart_map (f := fun h => { Hart.reset 0 with resetHalt := ! powerOn && h.resetHalt }) ?_ h
  unfold State.startReset
  rw [State.latchOtp_rest]
  exact congrArg (Vector.map _) s.memoryOnly_beforeReset.harts

theorem State.BlocksReset.of_rest {s t u : State} (h : s.BlocksReset t) (hu : u = { t with regs := u.regs }) : s.BlocksReset u := hu ▸ h

theorem State.blocksReset_startReset : s.BlocksReset (s.startReset cause powerOn) := by
  have hbefore := s.memoryOnly_beforeReset
  refine State.BlocksReset.of_rest ⟨rfl, ?_, ?_, rfl, rfl, rfl, rfl, rfl, ?_, rfl, rfl, rfl, ?_, rfl, rfl, ?_, rfl⟩ (State.latchOtp_rest _)
  · exact congrArg (fun b : BootState => { BootState.reset with flash := b.flash, resetPulses := b.resetPulses }) hbefore.boot
  · exact congrArg (fun r : ReedState => { ReedState.reset with zcIn := r.zcIn }) hbefore.reed
  · exact congrArg (fun x : ShuttleState => { ShuttleState.reset with balls := x.balls }) hbefore.shuttle
  · exact congrArg (fun x : SecurityState => { SecurityState.reset with otp := x.otp, otpTorn := x.otpTorn }) hbefore.sec
  · exact congrArg (fun x : UsbState => { UsbState.reset with vbus := x.vbus }) hbefore.usb

/-- R273: with nothing dirty in a cache and no write waiting in the DMC, memory holds what it held. -/
theorem State.mem_startReset (hstale : s.memory.stale = []) (hdmc : s.memory.dmc = []) : (s.startReset cause powerOn).mem = s.mem := by
  have hrestored : s.restoreStale = s := by
    rw [State.restoreStale, hstale]
    exact congrArg (fun l => { s with memory := { s.memory with stale := l } }) hstale.symm
  have hlanded : s.landRequests = s := by
    rw [State.landRequests, hdmc]
    rfl
  have hfinished : s.finishCommit.mem = s.mem := by
    unfold State.finishCommit State.when
    split <;> rfl
  unfold State.startReset
  rw [State.latchOtp_rest, hrestored, hlanded]
  exact hfinished

end

end Sys2Proof.Machine
end

section
/-! Belay signals a fault (R571 to R574): the registers that this reaches, and what stays of memory while no log is copied to MRAM. -/
namespace Sys2Proof.Machine

/-- The registers that a signalled fault changes beside BELAY_PEND: notices and counts, the last log entry, and what its copy to MRAM reaches. -/
def signalRegs : List Nat :=
  [R.BELAY_STAT, R.BELAY_SIGNALLED, R.TETHER_ATTN, R.EVT_RAW P.BELAY, R.BELAY_LOG_POS] ++ (List.range 8).map R.BELAY_LAST ++ memoryRegs

section
variable {s t : State}

theorem KeepsRegs.portLand (h : KeepsRegs s t signalRegs) (a : Nat) (bs : List Byte) : KeepsRegs s (t.portLand a bs) signalRegs :=
  h.trans ((t.memoryOnly_portLand a bs).keeps.mono (by decide))

theorem KeepsRegs.copyLast (h : KeepsRegs s t signalRegs) (e : List Byte) : KeepsRegs s (t.copyLast e) signalRegs :=
  h.forEach fun _ hn _ hu => hu.setReg (List.mem_append_left _ (List.mem_append_right _ (List.mem_map_of_mem (List.mem_range.2 hn))))

theorem KeepsRegs.logEntry (h : KeepsRegs s t signalRegs) (f : FaultInput) : KeepsRegs s (t.logEntry f) signalRegs := by
  have hlast : KeepsRegs s (({ t with belay := { t.belay with seq := t.belay.seq + 1 } } : State).copyLast (t.logBytes f (t.belay.seq + 1) true))
      signalRegs := (h.of_regs rfl).copyLast _
  unfold State.logEntry
  dsimp only
  split
  · exact hlast
  · split
    · exact ((hlast.setFld (by decide)).bumpSat (by decide) (by decide)).raise (by decide)
    · exact ((((hlast.setFld (by decide)).portLand _ _).portLand _ _).portLand _ _).portLand _ _ |>.portLand _ _

theorem KeepsRegs.countSignalled (h : KeepsRegs s t signalRegs) (cls : Nat) : KeepsRegs s (t.countSignalled cls) signalRegs :=
  (((h.bumpSat (by decide) (by decide)).setReg (by decide)).of_regs rfl).raise (by decide)

theorem State.regs_react (u : State) (src code : Nat) : (u.react src code).regs = u.regs := by
  unfold State.react
  split
  · rfl
  · split
    · split <;> rfl
    · rfl

theorem State.mem_react (u : State) (src code : Nat) : (u.react src code).mem = u.mem := by
  unfold State.react
  split
  · rfl
  · split
    · split <;> rfl
    · rfl

end

/-- R580: a fault as Belay takes it, injected while a perturbation is active. -/
def State.taken (s : State) (f : FaultInput) : FaultInput := { f with injected := f.injected || s.perturbed }

/-- R571: the state in which the source of `f` is pending. -/
def State.pended (s : State) (f : FaultInput) : State := s.setReg R.BELAY_PEND (Bits.put (s.raw R.BELAY_PEND) f.source 1 1)

/-- R571: such a state with the class held for the source, and the source named as real unless a masked injection made the fault. -/
def State.classed (s : State) (f : FaultInput) : State :=
  { s.pended f with belay := { s.belay with
    cls := SMap.put (fun _ => 0) s.belay.cls f.source (max f.cls (SMap.get (fun _ => 0) s.belay.cls f.source)),
    real := if f.injected && ! s.flag F.SCREE_CTRL_FULL_REACT then s.belay.real else s.belay.real ||| 2 ^ f.source } }

/-- R572: such a state once FAULT_N is asserted, or shown as what would have been, as `f` and the settings ask. -/
def State.answered (s : State) (f : FaultInput) : State :=
  if ! (decide (3 ≤ f.cls) || s.flag F.BELAY_CFG_SOFT_FAULT_N) then (s.classed f).setHighest
  else if f.injected && s.flag F.SCREE_CTRL_QUIET then (s.classed f).setHighest.setFld F.BELAY_STAT_WOULD 1
  else (s.classed f).setHighest.assertFaultN f.source

section
variable (s : State) (f : FaultInput)

theorem State.signalNow_eq :
    s.signalNow f = (((s.answered (s.taken f)).countSignalled f.cls).logEntry (s.taken f)).react f.source (s.reactionOf (s.taken f)) := rfl

theorem State.answered_keepsRegs : KeepsRegs (s.pended f) (s.answered f) [R.BELAY_STAT] := by
  have hclassed : KeepsRegs (s.pended f) (s.classed f) [R.BELAY_STAT] := fun _ _ => rfl
  have hhighest : KeepsRegs (s.pended f) (s.classed f).setHighest [R.BELAY_STAT] := hclassed.setFld (by decide)
  unfold State.answered
  split
  · exact hhighest
  · split
    · exact hhighest.setFld (by decide)
    · exact (hhighest.setFld (by decide)).of_regs rfl

theorem State.mem_answered : (s.answered f).mem = s.mem := by
  unfold State.answered
  split
  · rfl
  · split <;> rfl

theorem State.signalNow_keepsRegs : KeepsRegs (s.pended f) (s.signalNow f) signalRegs := by
  have hanswered : KeepsRegs (s.pended f) (s.answered (s.taken f)) signalRegs := (s.answered_keepsRegs (s.taken f)).mono (by decide)
  rw [State.signalNow_eq]
  exact ((hanswered.countSignalled f.cls).logEntry (s.taken f)).of_regs (State.regs_react _ _ _)

/-- R569: held or signalled at once, a fault input leaves every other register. -/
theorem State.signal_keepsRegs : KeepsRegs s (s.signal f) (R.BELAY_PEND :: signalRegs) := by
  have hpend : KeepsRegs s (s.pended f) (R.BELAY_PEND :: signalRegs) :=
    (KeepsRegs.refl s _).setReg (a := R.BELAY_PEND) List.mem_cons_self
  have hnow : KeepsRegs (s.pended f) (s.signalNow f) (R.BELAY_PEND :: signalRegs) :=
    (s.signalNow_keepsRegs f).mono fun _ h => List.mem_cons_of_mem _ h
  unfold State.signal
  split
  · exact (KeepsRegs.refl s _).of_regs rfl
  · exact hpend.trans hnow

theorem State.pend_signal (h : s.belay.test = none) (hsrc : f.source < 64) : ((s.signal f).raw R.BELAY_PEND).getLsbD f.source = true := by
  unfold State.signal
  rw [h]
  dsimp only
  rw [s.signalNow_keepsRegs f _ (by decide), State.pended, State.raw_setReg, if_pos rfl, Bits.getLsbD_put _ _ _ _ _ hsrc]
  simp

theorem State.mem_copyLast (e : List Byte) : (s.copyLast e).mem = s.mem :=
  List.foldlRecOn (motive := fun t : State => t.mem = s.mem) _ _ rfl fun _ ht _ _ => ht

/-- R574: while no log is copied to MRAM, an entry writes no memory. -/
theorem State.mem_logEntry (h : s.flag F.BELAY_LOG_CTRL_EN = false) : (s.logEntry f).mem = s.mem := by
  have hoff : (({ s with belay := { s.belay with seq := s.belay.seq + 1 } } : State).copyLast (s.logBytes f (s.belay.seq + 1) true)).flag
      F.BELAY_LOG_CTRL_EN = false := (((KeepsRegs.refl s signalRegs).of_regs rfl).copyLast _).flag (by decide) |>.trans h
  rw [State.logEntry, if_pos (by rw [hoff]; rfl), State.mem_copyLast]

theorem State.mem_signal (htest : s.belay.test = none) (hlog : s.flag F.BELAY_LOG_CTRL_EN = false) : (s.signal f).mem = s.mem := by
  have hsig : s.signal f = s.signalNow f := by rw [State.signal, htest]
  rw [hsig, State.signalNow_eq, State.mem_react, State.mem_logEntry, State.countSignalled, State.raise_mem]
  · exact (State.bumpSat_mem _ _ _).trans (s.mem_answered _)
  · have hanswered : KeepsRegs (s.pended f) (s.answered (s.taken f)) signalRegs := (s.answered_keepsRegs (s.taken f)).mono (by decide)
    rw [(hanswered.countSignalled f.cls).flag (by decide), State.pended, State.flag, State.fld_setReg_ne _ _ _ _ (by decide)]
    exact hlog

end

end Sys2Proof.Machine
end

section
/-! PFAIL, the grace window, the thermal limits, the output limits and the loss of LSE (R96, R98 to R100, R113 to R115, R119, R123). -/
namespace Sys2Proof.Machine

theorem State.railsOn_of_run {s : State} (h : s.power.phase = .run) : s.railsOn = true := by simp [State.railsOn, h]

/-! ### PFAIL and its grace window -/

/-- R99, R529: the registers' part of PFAIL_ASSERT. -/
def State.pfailNoted (s : State) : State := ((s.raise P.PWR E.PWR_PFAIL).attn 2).setFlag F.MRAMC_QUEUE_DRAINING (s.memory.mram.length != 0)

/-- R100: the grace window that runs once PFAIL_N has asserted. -/
def State.graceOpened (s : State) : Option Nat :=
  if s.flag F.PWR_PFAIL_ARMED && s.fld F.PWR_PFAIL_ACTION != 0 && s.power.grace.isNone && s.power.closing.isNone then
    some (s.fld F.PWR_PFAIL_ACTION) else s.power.grace

section
variable (s : State)

theorem State.opPfailAssert_of_released (hon : s.railsOn = true) (hp : s.power.pfail = false) :
    s.opPfailAssert = { s.pfailNoted with memory := { s.memory with mramAhead := s.memory.mram.length },
                                          power := { s.power with pfail := true, grace := s.graceOpened } } := by
  rw [State.opPfailAssert, if_neg (by simp [hon, hp])]
  rfl

theorem State.pfailNoted_event : s.pfailNoted.event P.PWR E.PWR_PFAIL = true := by
  rw [State.pfailNoted, State.event_setFlag_ne _ _ _ _ _ (by decide), State.attn, State.event_setReg_ne _ _ _ _ _ (by decide)]
  exact s.event_raise _ _ (by decide)

theorem State.pfailNoted_attn : (s.pfailNoted.raw R.TETHER_ATTN).getLsbD 2 = true := by
  rw [State.pfailNoted, State.raw_setFlag_ne _ _ _ _ (by decide), State.attn, State.raw_setReg, if_pos rfl,
    Bits.getLsbD_put _ _ _ _ _ (by decide)]
  rfl

theorem State.pfailNoted_draining : s.pfailNoted.flag F.MRAMC_QUEUE_DRAINING = (s.memory.mram.length != 0) :=
  State.flag_setFlag _ _ _ (by decide) (by decide)

theorem State.pfailNoted_keepsRegs : KeepsRegs s s.pfailNoted [R.EVT_RAW P.PWR, R.TETHER_ATTN, R.MRAMC_QUEUE] :=
  (((KeepsRegs.refl s _).raise (by decide)).setReg (a := R.TETHER_ATTN) (by decide)).setFlag (by decide)

theorem State.graceOpened_armed (hact : s.fld F.PWR_PFAIL_ACTION ≠ 0) (harmed : s.flag F.PWR_PFAIL_ARMED = true) (hgrace : s.power.grace = none)
    (hclosing : s.power.closing = none) : s.graceOpened = some (s.fld F.PWR_PFAIL_ACTION) :=
  if_pos (by simp [hact, harmed, hgrace, hclosing])

theorem State.graceOpened_not_due (h : s.fld F.PWR_PFAIL_ACTION = 0 ∨ s.flag F.PWR_PFAIL_ARMED = false ∨ s.power.closing ≠ none) :
    s.graceOpened = s.power.grace := by
  refine if_neg fun hall => ?_
  simp only [Bool.and_eq_true, bne_iff_ne, Option.isNone_iff_eq_none] at hall
  obtain ⟨⟨⟨harmed, hact⟩, -⟩, hclosing⟩ := hall
  rcases h with h | h | h
  · exact hact h
  · simp [h] at harmed
  · exact h hclosing

theorem State.opPfailClear_of_asserted (hon : s.railsOn = true) (hp : s.power.pfail = true) :
    s.opPfailClear = { s.raise P.PWR E.PWR_PFAIL_CLEAR with power := { s.power with pfail := false, grace := none } } := by
  rw [State.opPfailClear, if_neg (by simp [hon, hp])]
  rfl

/-- R100, R286: the harts and Heddle are stopped and the MRAMC closed for the action `act`. -/
theorem State.opGraceEnd_of_open {act : Nat} (h : s.power.grace = some act) :
    s.opGraceEnd = { s.setFld F.CLK_HART_GATED 15 with
      harts := s.harts.map (fun t => { t with running := false }),
      power := { s.power with grace := none, closing := some act, mramClosed := true, heddleStopped := true } } := by
  rw [State.opGraceEnd, h]
  rfl

theorem State.opPfailArmed_of_released (hrun : s.power.phase = .run) (hp : s.power.pfail = false) :
    s.opPfailArmed = s.setFld F.PWR_PFAIL_ARMED 1 := if_neg (by simp [State.awake, hrun, hp])

end

/-! ### The junction temperature -/

section
variable (s : State)

/-- A reading of TJ is held as it is. -/
theorem State.tj_setFld (tj : BitVec 9) : (s.setFld F.PWR_THERM_TJ tj.toNat).fld F.PWR_THERM_TJ = tj.toNat :=
  (State.fld_setFld _ _ _ (by decide)).trans (Nat.mod_eq_of_lt tj.isLt)

theorem State.warn_setFld_tj (v : Nat) : (s.setFld F.PWR_THERM_TJ v).fld F.PWR_THERM_WARN = s.fld F.PWR_THERM_WARN :=
  State.fld_setFld_ne _ _ _ _ (by decide)

theorem State.readTj_below_trip {tj : Nat} (hrun : s.power.phase = .run) (hfree : s.power.thermHold = false) (hlow : sext 9 tj < 112) :
    s.readTj tj = (s.setFld F.PWR_THERM_TJ tj).thermForce := by
  simp [State.readTj, State.railsOn_of_run hrun, hfree, not_le.mpr hlow]

theorem State.readTj_trip {tj : Nat} (hon : s.railsOn = true) (hfree : s.power.thermHold = false) (hhigh : 112 ≤ sext 9 tj) :
    s.readTj tj = (((s.setFld F.PWR_THERM_TJ tj).startReset 6 false).setFld F.PWR_STATE_THERM_TRIP 1).modPower
      (fun p => { p with thermHold := true }) := by
  simp only [State.readTj, hon, hfree, hhigh, Bool.not_true, Bool.false_eq_true, if_false, if_true]

theorem State.readTj_held {tj : Nat} (hon : s.railsOn = true) (hheld : s.power.thermHold = true) :
    s.readTj tj = { s.setFld F.PWR_THERM_TJ tj with power := { s.power with thermHold := decide (100 < sext 9 tj) } } := by
  simp only [State.readTj, hon, hheld, Bool.not_true, Bool.false_eq_true, if_false, if_true]
  rfl

/-- R113: the force of RUN_COOL, before the operating point follows. -/
def State.coolForced (s : State) : State :=
  ((s.when (! s.flag F.PWR_THERM_HOT) (fun u => u.raise P.PWR E.PWR_THERM_HOT)).setFld F.PWR_THERM_HOT 1).setFld F.PWR_STATE_FORCED_COOL 1

/-- R113: its release. -/
def State.coolReleased (s : State) : State := (s.setFld F.PWR_THERM_HOT 0).setFld F.PWR_STATE_FORCED_COOL 0

theorem State.thermForce_from_warn (ha : s.awake = true) (h : (s.fld F.PWR_THERM_WARN : Int) ≤ sext 9 (s.fld F.PWR_THERM_TJ)) :
    s.thermForce = s.coolForced.startSwitch := by
  simp only [State.thermForce, ha, h, Bool.not_true, Bool.false_eq_true, if_false, if_true]
  rfl

theorem State.thermForce_below_warn (ha : s.awake = true) (h : sext 9 (s.fld F.PWR_THERM_TJ) ≤ (s.fld F.PWR_THERM_WARN : Int) - 5) :
    s.thermForce = s.coolReleased.startSwitch := by
  have hlow : ¬ (s.fld F.PWR_THERM_WARN : Int) ≤ sext 9 (s.fld F.PWR_THERM_TJ) := by omega
  simp only [State.thermForce, ha, h, hlow, Bool.not_true, Bool.false_eq_true, if_false, if_true]
  rfl

theorem State.startSwitch_keepsRegs : KeepsRegs s s.startSwitch [R.PWR_STATE] := (KeepsRegs.refl s _).startSwitch (by decide)

/-- R105: a change of operating point starts where another is wanted. -/
theorem State.switching_startSwitch (h : s.wantedPoint ≠ s.fld F.CLK_HART_OP) : s.startSwitch.flag F.PWR_STATE_SWITCHING = true := by
  rw [State.startSwitch, State.when, if_pos (decide_eq_true h), State.flag, State.fld_setFld _ _ _ (by decide)]
  rfl

theorem State.forcedCool_coolForced : s.coolForced.flag F.PWR_STATE_FORCED_COOL = true := by
  rw [State.flag, State.coolForced, State.fld_setFld _ _ _ (by decide)]
  rfl

theorem State.hot_coolForced : s.coolForced.flag F.PWR_THERM_HOT = true := by
  rw [State.coolForced, State.flag_setFld_ne _ _ _ _ (by decide), State.flag, State.fld_setFld _ _ _ (by decide)]
  rfl

theorem State.coolForced_keepsRegs : KeepsRegs s s.coolForced [R.PWR_THERM, R.PWR_STATE, R.EVT_RAW P.PWR] :=
  (((KeepsRegs.refl s _).when fun _ hu => hu.raise (by decide)).setFld (by decide)).setFld (by decide)

theorem State.tj_coolForced : s.coolForced.fld F.PWR_THERM_TJ = s.fld F.PWR_THERM_TJ := by
  rw [State.coolForced, State.fld_setFld_ne _ _ _ _ (by decide), State.fld_setFld_ne _ _ _ _ (by decide), State.when]
  split
  · exact State.fld_raise_ne _ _ _ _ (by decide)
  · rfl

theorem State.event_coolForced (h : s.flag F.PWR_THERM_HOT = false) : s.coolForced.event P.PWR E.PWR_THERM_HOT = true := by
  rw [State.coolForced, State.event_setFld_ne _ _ _ _ _ (by decide), State.event_setFld_ne _ _ _ _ _ (by decide), State.when, if_pos (by simp [h])]
  exact s.event_raise _ _ (by decide)

theorem State.forcedCool_coolReleased : s.coolReleased.flag F.PWR_STATE_FORCED_COOL = false := by
  rw [State.flag, State.coolReleased, State.fld_setFld _ _ _ (by decide)]
  rfl

theorem State.hot_coolReleased : s.coolReleased.flag F.PWR_THERM_HOT = false := by
  rw [State.coolReleased, State.flag_setFld_ne _ _ _ _ (by decide), State.flag, State.fld_setFld _ _ _ (by decide)]
  rfl

theorem State.tj_coolReleased : s.coolReleased.fld F.PWR_THERM_TJ = s.fld F.PWR_THERM_TJ := by
  rw [State.coolReleased, State.fld_setFld_ne _ _ _ _ (by decide), State.fld_setFld_ne _ _ _ _ (by decide)]

theorem State.coolReleased_keepsRegs : KeepsRegs s s.coolReleased [R.PWR_THERM, R.PWR_STATE] :=
  ((KeepsRegs.refl s _).setFld (by decide)).setFld (by decide)

end

/-- R113: a reading from WARN on. -/
theorem State.thermForce_hot_reading (s : State) (ha : s.awake = true) (h : (s.fld F.PWR_THERM_WARN : Int) ≤ sext 9 (s.fld F.PWR_THERM_TJ)) :
    s.thermForce.fld F.PWR_THERM_TJ = s.fld F.PWR_THERM_TJ ∧ s.thermForce.flag F.PWR_THERM_HOT = true ∧
      s.thermForce.flag F.PWR_STATE_FORCED_COOL = true ∧ (s.fld F.CLK_HART_OP ≠ 1 → s.thermForce.flag F.PWR_STATE_SWITCHING = true) ∧
      (s.flag F.PWR_THERM_HOT = false → s.thermForce.event P.PWR E.PWR_THERM_HOT = true) := by
  have hswitch := s.coolForced.startSwitch_keepsRegs
  rw [s.thermForce_from_warn ha h]
  refine ⟨(hswitch.fld (by decide)).trans s.tj_coolForced, (hswitch.flag (by decide)).trans s.hot_coolForced,
    (State.forcedCool_startSwitch _).trans s.forcedCool_coolForced, fun hop => State.switching_startSwitch _ ?_,
    fun hhot => (hswitch.event _ (by decide)).trans (s.event_coolForced hhot)⟩
  rw [State.wantedPoint, if_pos s.forcedCool_coolForced, s.coolForced_keepsRegs.fld (by decide)]
  exact hop.symm

/-- R113: a reading 5 °C below WARN, or lower. -/
theorem State.thermForce_cool_reading (s : State) (ha : s.awake = true)
    (h : sext 9 (s.fld F.PWR_THERM_TJ) ≤ (s.fld F.PWR_THERM_WARN : Int) - 5) :
    s.thermForce.fld F.PWR_THERM_TJ = s.fld F.PWR_THERM_TJ ∧ s.thermForce.flag F.PWR_THERM_HOT = false ∧
      s.thermForce.flag F.PWR_STATE_FORCED_COOL = false ∧ KeepsRegs s s.thermForce [R.PWR_THERM, R.PWR_STATE] := by
  have hswitch := s.coolReleased.startSwitch_keepsRegs
  rw [s.thermForce_below_warn ha h]
  exact ⟨(hswitch.fld (by decide)).trans s.tj_coolReleased, (hswitch.flag (by decide)).trans s.hot_coolReleased,
    (State.forcedCool_startSwitch _).trans s.forcedCool_coolReleased, s.coolReleased_keepsRegs.trans (hswitch.mono (by decide))⟩

/-- A field whose bits a mask keeps. -/
theorem Fld.get_kept (f : Fld) (hf : f.lo + f.width ≤ 64) (w r : DWord) :
    Bits.get ((w &&& f.mask) ||| (r &&& ~~~ f.mask)) f.lo f.width = Bits.get w f.lo f.width := by
  apply Nat.eq_of_testBit_eq
  intro i
  rw [Bits.testBit_get, Bits.testBit_get]
  by_cases hi : i < f.width
  · have hmask : f.mask.getLsbD (f.lo + i) = true := by
      rw [Fld.mask, Bits.getLsbD_put _ _ _ _ _ (by omega), if_pos (by omega), Nat.testBit_two_pow_sub_one]
      exact decide_eq_true (by omega)
    simp [hmask]
  · simp [hi]

/-- R22: TJ shows what is measured, through a reset too. -/
theorem State.tj_startReset (s : State) (hone : s.ReadsOne R.PWR_THERM) (cause : Nat) (powerOn : Bool) :
    (s.startReset cause powerOn).fld F.PWR_THERM_TJ = s.fld F.PWR_THERM_TJ := by
  have hkeeps : s.resetKeeps cause powerOn R.PWR_THERM = F.PWR_THERM_TJ.mask := by
    have hstrap (b : Bool) : strapMask cause b R.PWR_THERM = 0#64 := by simp [strapMask, R.PWR_THERM, R.SYSCFG_MODE, R.BOOT_STRAP]
    rw [State.resetKeeps, hstrap]
    decide +kernel
  have hraw := s.raw_startReset cause powerOn hone (by decide) (by decide)
  rw [hkeeps] at hraw
  exact (congrArg (fun w => Bits.get w _ _) hraw).trans (Fld.get_kept F.PWR_THERM_TJ (by decide) _ _)

/-! ### Output limits -/

/-- PWR_OUT's flag and the event of an external output (Table Supply-4). -/
theorem State.opOutputLimit_of_railsOn (s : State) (v18 on : Bool) (h : s.railsOn = true) :
    s.opOutputLimit v18 on = (s.setFlag (if v18 then F.PWR_OUT_V1V8_OC else F.PWR_OUT_V3V3_OC) on).when on
      (fun t => t.raise P.PWR (if v18 then E.PWR_V1V8_OC else E.PWR_V3V3_OC)) := if_neg (by simp [h])

/-! ### LSE -/

/-- R115: CLK_STAT as LSE's loss or return leaves it. -/
def State.lseNoted (s : State) (back : Bool) : State := (s.setFlag F.CLK_STAT_LSE_OK back).noteAon

/-- Table Belay-3: what the monitor of LSE notes. -/
def State.lseLost (s : State) : State := (s.setFld F.CLK_MON_STAT_LOST (s.fld F.CLK_MON_STAT_LOST ||| 2)).raise P.CLK E.CLK_LSE_LOST

section
variable (s : State) (back : Bool)

theorem State.lseNoted_keepsRegs : KeepsRegs s (s.lseNoted back) [R.CLK_STAT] := ((KeepsRegs.refl s _).setFlag (by decide)).setFlag (by decide)

theorem State.lseOk_lseNoted : (s.lseNoted back).flag F.CLK_STAT_LSE_OK = back := by
  rw [State.lseNoted, State.noteAon, State.flag_setFlag_ne _ _ _ _ (by decide), State.flag_setFlag _ _ _ (by decide) (by decide)]

theorem State.onRc_lseNoted : (s.lseNoted back).flag F.CLK_STAT_AON_ON_RC = (decide (s.fld F.CLK_AON_SRC = 1) || (s.flag F.CLK_AON_AUTO && ! back)) := by
  have hset : KeepsRegs s (s.setFlag F.CLK_STAT_LSE_OK back) [R.CLK_STAT] := (KeepsRegs.refl s _).setFlag (by decide)
  rw [State.lseNoted, State.noteAon, State.flag_setFlag _ _ _ (by decide) (by decide), State.onRc, hset.fld (by decide), hset.flag (by decide),
    State.flag_setFlag _ _ _ (by decide) (by decide)]

theorem State.opLseLoss_unmonitored (h : back = true ∨ s.power.phase ≠ .run ∨ s.flag F.CLK_MON_CFG_LSE = false) :
    s.opLseLoss back = s.lseNoted back := by
  refine if_neg ?_
  rintro ⟨hlost, hawake, hmon⟩
  rcases h with rfl | h | h
  · cases hlost
  · exact h (of_decide_eq_true hawake)
  · have hflag := (s.lseNoted_keepsRegs back).flag (f := F.CLK_MON_CFG_LSE) (by decide)
    exact absurd (hflag.symm.trans hmon) (by simp [h])

theorem State.opLseLoss_monitored (hrun : s.power.phase = .run) (hmon : s.flag F.CLK_MON_CFG_LSE = true) :
    s.opLseLoss false = (s.lseNoted false).lseLost.signal (FaultInput.of 25 0 0 0) :=
  if_pos ⟨rfl, decide_eq_true hrun, ((s.lseNoted_keepsRegs false).flag (by decide)).trans hmon⟩

theorem State.lseLost_keepsRegs : KeepsRegs s s.lseLost [R.CLK_MON_STAT, R.EVT_RAW P.CLK] :=
  ((KeepsRegs.refl s _).setFld (by decide)).raise (by decide)

theorem State.lost_lseLost : (s.lseLost.fld F.CLK_MON_STAT_LOST).testBit 1 = true := by
  rw [State.lseLost, State.fld_raise_ne _ _ _ _ (by decide), State.fld_setFld _ _ _ (by decide)]
  rw [Nat.testBit_mod_two_pow, Nat.testBit_or, show Nat.testBit 2 1 = true by decide, Bool.or_true]
  rfl

theorem State.event_lseLost : s.lseLost.event P.CLK E.CLK_LSE_LOST = true := State.event_raise _ _ _ (by decide)

end

/-! ### What each excursion comes to -/

/-- R114: a trip, once its reset has begun from the reading `u`. -/
theorem State.trip_result {s u r : State} {tj : Nat} (hu : u = s.setFld F.PWR_THERM_TJ tj) (hr : r = u.startReset 6 false) :
    let t := (r.setFld F.PWR_STATE_THERM_TRIP 1).modPower (fun p => { p with thermHold := true })
    t.power.phase = .reset ∧ t.power.thermHold = true ∧ t.power.cause = 6 ∧ t.power.rstoutN = false ∧
      t.fld F.SYSCFG_RESET_CAUSE_CAUSE = 64 ∧ t.flag F.PWR_STATE_THERM_TRIP = true ∧ t.fld F.PWR_THERM_TJ = u.fld F.PWR_THERM_TJ ∧
      (∀ h : Fin 4, t.hart h.val = { Hart.reset 0 with resetHalt := (s.hart h.val).resetHalt }) ∧ s.BlocksReset t ∧
      (s.memory.stale = [] → s.memory.dmc = [] → KeepsMem s t) ∧ t.untouched = s.untouched := by
  have hpower : r.power = u.resetPower 6 false := hr ▸ u.power_startReset 6 false
  have hcause : r.fld F.SYSCFG_RESET_CAUSE_CAUSE = 64 := hr ▸ u.cause_startReset 6 false
  have htj : r.fld F.PWR_THERM_TJ = u.fld F.PWR_THERM_TJ := hr ▸ u.tj_startReset (hu ▸ s.readsOne_setReg _ _) 6 false
  have hharts (h : Fin 4) : r.hart h.val = { Hart.reset 0 with resetHalt := (u.hart h.val).resetHalt } := hr ▸ u.hart_startReset 6 false h
  have hblocks : u.BlocksReset r := hr ▸ u.blocksReset_startReset 6 false
  have hmem (hstale : u.memory.stale = []) (hdmc : u.memory.dmc = []) : r.mem = u.mem := hr ▸ u.mem_startReset 6 false hstale hdmc
  have huntouched : r.untouched = u.untouched := hr ▸ untouched_startReset u 6 false
  clear hr
  subst hu
  exact ⟨congrArg PowerState.phase hpower, rfl, congrArg PowerState.cause hpower, congrArg PowerState.rstoutN hpower,
    (State.fld_setFld_ne r _ _ _ (by decide)).trans hcause, r.flag_setFlag _ true (by decide) (by decide),
    (State.fld_setFld_ne r _ _ _ (by decide)).trans htj, hharts, hblocks, fun hstale hdmc => (KeepsMem.refl s).of_mem (hmem hstale hdmc), huntouched⟩

/-- R115, Table Belay-3: a monitored loss of LSE, which Belay hears of. -/
theorem State.lseLoss_signalled (s : State) (hrun : s.power.phase = .run) (hmon : s.flag F.CLK_MON_CFG_LSE = true) :
    ∃ t, exec (.lseLoss false) s = .next t ∧ t.flag F.CLK_STAT_LSE_OK = false ∧
      t.flag F.CLK_STAT_AON_ON_RC = (decide (s.fld F.CLK_AON_SRC = 1) || s.flag F.CLK_AON_AUTO) ∧
      (t.fld F.CLK_MON_STAT_LOST).testBit 1 = true ∧ t.event P.CLK E.CLK_LSE_LOST = true ∧
      (s.SignalsOnly 25 → (t.raw R.BELAY_PEND).getLsbD 25 = true ∧ KeepsMem s t) := by
  obtain ⟨u, hu⟩ : ∃ u, u = (s.lseNoted false).lseLost := ⟨_, rfl⟩
  have hclock : KeepsRegs (s.lseNoted false) u [R.CLK_MON_STAT, R.EVT_RAW P.CLK] := hu ▸ (s.lseNoted false).lseLost_keepsRegs
  have hsignal := u.signal_keepsRegs (FaultInput.of 25 0 0 0)
  have honRc := s.onRc_lseNoted false
  rw [Bool.not_false, Bool.and_true] at honRc
  refine ⟨_, congrArg Host.Outcome.next (hu ▸ s.opLseLoss_monitored hrun hmon), ?_, ?_, ?_, ?_, fun ⟨htest, hlog, _, _⟩ => ⟨?_, ?_⟩⟩
  · rw [hsignal.flag (by decide), hclock.flag (by decide), s.lseOk_lseNoted]
  · rw [hsignal.flag (by decide), hclock.flag (by decide), honRc]
  · rw [hsignal.fld (by decide), hu, State.lost_lseLost]
  · rw [hsignal.event _ (by decide), hu, State.event_lseLost]
  · exact u.pend_signal (FaultInput.of 25 0 0 0) (hu ▸ htest) (by decide)
  · have hquiet : u.flag F.BELAY_LOG_CTRL_EN = false := (hclock.flag (by decide)).trans (((s.lseNoted_keepsRegs false).flag (by decide)).trans hlog)
    have hmem : u.mem = s.mem := by rw [hu]; rfl
    exact (KeepsMem.refl s).of_mem ((u.mem_signal _ (hu ▸ htest) hquiet).trans hmem)

/-- R22, R113: the reading `tj` as it is held, before the force of RUN_COOL is looked at. -/
def State.tjHeld (s : State) (tj : BitVec 9) : State := s.setFld F.PWR_THERM_TJ tj.toNat

section
variable (s : State) (tj : BitVec 9)

theorem State.tjHeld_keepsRegs : KeepsRegs s (s.tjHeld tj) [R.PWR_THERM] := (KeepsRegs.refl s _).setFld (by decide)

theorem State.fld_tjHeld : (s.tjHeld tj).fld F.PWR_THERM_TJ = tj.toNat := s.tj_setFld tj

theorem State.warn_tjHeld : (s.tjHeld tj).fld F.PWR_THERM_WARN = s.fld F.PWR_THERM_WARN := s.warn_setFld_tj _

theorem State.hot_tjHeld : (s.tjHeld tj).flag F.PWR_THERM_HOT = s.flag F.PWR_THERM_HOT := State.flag_setFld_ne _ _ _ _ (by decide)

theorem State.thermForce_tjHeld_rest : (s.tjHeld tj).thermForce = { s with regs := (s.tjHeld tj).thermForce.regs } :=
  (s.tjHeld tj).thermForce_rest

/-- R113: a reading of TJ below a trip, from WARN on. -/
theorem State.thermHot_from_warn (hrun : s.power.phase = .run) (hfree : s.power.thermHold = false) (hlow : sext 9 tj.toNat < 112)
    (hwarn : (s.fld F.PWR_THERM_WARN : Int) ≤ sext 9 tj.toNat) :
    ∃ t, exec (.thermHot tj) s = .next t ∧ t.fld F.PWR_THERM_TJ = tj.toNat ∧ t.flag F.PWR_THERM_HOT = true ∧
      t.flag F.PWR_STATE_FORCED_COOL = true ∧ (s.fld F.CLK_HART_OP ≠ 1 → t.flag F.PWR_STATE_SWITCHING = true) ∧
      (s.flag F.PWR_THERM_HOT = false → t.event P.PWR E.PWR_THERM_HOT = true) ∧
      KeepsRegs s t [R.PWR_THERM, R.PWR_STATE, R.EVT_RAW P.PWR] ∧ t = { s with regs := t.regs } := by
  have hheld := s.tjHeld_keepsRegs tj
  have hforce : ((s.tjHeld tj).fld F.PWR_THERM_WARN : Int) ≤ sext 9 ((s.tjHeld tj).fld F.PWR_THERM_TJ) := by
    rw [s.fld_tjHeld, s.warn_tjHeld]
    exact hwarn
  obtain ⟨htj, hhot, hcool, hswitch, hevent⟩ := (s.tjHeld tj).thermForce_hot_reading (decide_eq_true hrun) hforce
  rw [hheld.fld (by decide)] at hswitch
  rw [s.hot_tjHeld] at hevent
  exact ⟨_, congrArg Host.Outcome.next (s.readTj_below_trip hrun hfree hlow), htj.trans (s.fld_tjHeld tj), hhot, hcool, hswitch, hevent,
    (hheld.mono (by decide)).trans (s.tjHeld tj).thermForce_keepsRegs, s.thermForce_tjHeld_rest tj⟩

/-- R113: a reading of TJ 5 °C below WARN, or lower. -/
theorem State.thermHot_below_warn (hrun : s.power.phase = .run) (hfree : s.power.thermHold = false) (hlow : sext 9 tj.toNat < 112)
    (hcold : sext 9 tj.toNat ≤ (s.fld F.PWR_THERM_WARN : Int) - 5) :
    ∃ t, exec (.thermHot tj) s = .next t ∧ t.fld F.PWR_THERM_TJ = tj.toNat ∧ t.flag F.PWR_THERM_HOT = false ∧
      t.flag F.PWR_STATE_FORCED_COOL = false ∧ KeepsRegs s t [R.PWR_THERM, R.PWR_STATE] ∧ t = { s with regs := t.regs } := by
  have hheld := s.tjHeld_keepsRegs tj
  have hrelease : sext 9 ((s.tjHeld tj).fld F.PWR_THERM_TJ) ≤ ((s.tjHeld tj).fld F.PWR_THERM_WARN : Int) - 5 := by
    rw [s.fld_tjHeld, s.warn_tjHeld]
    exact hcold
  obtain ⟨htj, hhot, hcool, hkeeps⟩ := (s.tjHeld tj).thermForce_cool_reading (decide_eq_true hrun) hrelease
  exact ⟨_, congrArg Host.Outcome.next (s.readTj_below_trip hrun hfree hlow), htj.trans (s.fld_tjHeld tj), hhot, hcool,
    (hheld.mono (by decide)).trans hkeeps, s.thermForce_tjHeld_rest tj⟩

/-- R114: a reading of 112 °C or more while no trip is held. -/
theorem State.thermTrip_reset (hon : s.railsOn = true) (hfree : s.power.thermHold = false) (hhigh : 112 ≤ sext 9 tj.toNat) :
    ∃ t, exec (.thermTrip tj) s = .next t ∧ t.power.phase = .reset ∧ t.power.thermHold = true ∧ t.power.cause = 6 ∧ t.power.rstoutN = false ∧
      t.fld F.SYSCFG_RESET_CAUSE_CAUSE = 64 ∧ t.flag F.PWR_STATE_THERM_TRIP = true ∧ t.fld F.PWR_THERM_TJ = tj.toNat ∧
      (∀ h : Fin 4, t.hart h.val = { Hart.reset 0 with resetHalt := (s.hart h.val).resetHalt }) ∧ s.BlocksReset t ∧
      (s.memory.stale = [] → s.memory.dmc = [] → KeepsMem s t) ∧ t.pending = s.pending ∧ t.code4G = s.code4G := by
  obtain ⟨u, hu⟩ : ∃ u, u = s.setFld F.PWR_THERM_TJ tj.toNat := ⟨_, rfl⟩
  obtain ⟨r, hr⟩ : ∃ r, r = u.startReset 6 false := ⟨_, rfl⟩
  have hexec := s.readTj_trip hon hfree hhigh
  rw [← hu, ← hr] at hexec
  obtain ⟨hphase, hhold, hcause, hrstout, hcode, htrip, htj, hharts, hblocks, hmem, huntouched⟩ := State.trip_result hu hr
  have hread : u.fld F.PWR_THERM_TJ = tj.toNat := hu ▸ s.tj_setFld tj
  exact ⟨_, congrArg Host.Outcome.next hexec, hphase, hhold, hcause, hrstout, hcode, htrip, htj.trans hread, hharts, hblocks, hmem,
    congrArg Prod.fst huntouched, congrArg Prod.snd huntouched⟩

/-- Table Supply-4: an output begins or ends limiting. -/
theorem State.outputLimit_noted (v18 on : Bool) (h : s.railsOn = true) :
    ∃ t, exec (.outputLimit v18 on) s = .next t ∧ t.flag (if v18 then F.PWR_OUT_V1V8_OC else F.PWR_OUT_V3V3_OC) = on ∧
      (on = true → t.event P.PWR (if v18 then E.PWR_V1V8_OC else E.PWR_V3V3_OC) = true) ∧
      (on = false → t.raw (R.EVT_RAW P.PWR) = s.raw (R.EVT_RAW P.PWR)) ∧
      KeepsRegs s t [R.PWR_OUT, R.EVT_RAW P.PWR] ∧ t = { s with regs := t.regs } := by
  obtain ⟨f, hf⟩ : ∃ f, f = if v18 then F.PWR_OUT_V1V8_OC else F.PWR_OUT_V3V3_OC := ⟨_, rfl⟩
  obtain ⟨e, he⟩ : ∃ e, e = if v18 then E.PWR_V1V8_OC else E.PWR_V3V3_OC := ⟨_, rfl⟩
  have hreg : f.reg = R.PWR_OUT := by cases v18 <;> subst hf <;> rfl
  have hflag : (s.setFlag f on).flag f = on := by
    cases v18 <;> subst hf <;> exact State.flag_setFlag _ _ _ (by decide) (by decide)
  have hbit : e < 64 := by cases v18 <;> subst he <;> decide
  have hne : f.reg ≠ R.EVT_RAW P.PWR := by rw [hreg]; decide
  have hshown : KeepsRegs s (s.setFlag f on) [R.PWR_OUT, R.EVT_RAW P.PWR] := (KeepsRegs.refl s _).setFlag (by rw [hreg]; decide)
  have hexec := s.opOutputLimit_of_railsOn v18 on h
  rw [← hf, ← he] at hexec ⊢
  refine ⟨_, congrArg Host.Outcome.next hexec, ?_⟩
  cases on with
  | false => exact ⟨hflag, fun h => absurd h (by decide), fun _ => State.raw_setFlag_ne _ _ _ _ hne.symm, hshown, rfl⟩
  | true =>
    exact ⟨(State.flag_raise_ne _ _ _ _ hne).trans hflag, fun _ => State.event_raise _ _ _ hbit, fun h => absurd h (by decide),
      hshown.raise (by decide), rfl⟩

end

/-! ### The statement -/

/-- Settles O7: each clause is the equation of its operation and the fields that it sets. A trip is the reset of R161 with cause 6, which
keeps TJ because TJ is measured; a monitored loss of LSE is Belay's source 25. What LSE's return does to AON_ON_RC is the model's choice
(assumption log 83). -/
theorem supplyWarningsAndLimits : Obligations.SupplyWarningsAndLimits := by
  unfold Obligations.SupplyWarningsAndLimits
  refine ⟨fun s hon hp => ?pfailAssert, fun s hon hp => ?pfailClear, fun s act hgrace => ?graceEnd, fun s hrun hp => ?pfailArmed,
    State.thermHot_from_warn, State.thermHot_below_warn, State.thermTrip_reset, fun s tj hon hheld => ?held, State.outputLimit_noted,
    fun s back h => ?lseUnmonitored, State.lseLoss_signalled⟩
  case pfailAssert =>
    exact ⟨_, congrArg Host.Outcome.next (s.opPfailAssert_of_released hon hp), rfl, s.pfailNoted_event, s.pfailNoted_attn, rfl,
      s.graceOpened_armed, s.graceOpened_not_due, s.pfailNoted_draining, rfl, s.pfailNoted_keepsRegs, rfl⟩
  case pfailClear =>
    exact ⟨_, congrArg Host.Outcome.next (s.opPfailClear_of_asserted hon hp), rfl, s.event_raise _ _ (by decide),
      (KeepsRegs.refl s _).raise (by decide), rfl⟩
  case graceEnd =>
    exact ⟨_, congrArg Host.Outcome.next (s.opGraceEnd_of_open hgrace), rfl, State.fld_setFld _ _ _ (by decide),
      State.hart_map (s := s) (f := fun t => { t with running := false }) rfl, (KeepsRegs.refl s _).setFld (by decide), rfl⟩
  case pfailArmed =>
    exact ⟨_, congrArg Host.Outcome.next (s.opPfailArmed_of_released hrun hp), s.flag_setFlag _ true (by decide) (by decide),
      (KeepsRegs.refl s _).setFld (by decide), rfl⟩
  case held =>
    exact ⟨_, congrArg Host.Outcome.next (s.readTj_held hon hheld), s.tj_setFld tj, rfl, (KeepsRegs.refl s _).setFld (by decide), rfl⟩
  case lseUnmonitored =>
    exact ⟨_, congrArg Host.Outcome.next (s.opLseLoss_unmonitored back h), s.lseOk_lseNoted back, s.onRc_lseNoted back,
      s.lseNoted_keepsRegs back, rfl⟩

end Sys2Proof.Machine
end

section
/-! The first stage under a debugger (R589): the model lets a boot hart that a debugger has halted go no further in the ROM, while the clauses
of the flash flow and of the resume ask only that the hart runs, which a halted one does. -/
namespace Sys2Proof.Machine

theorem State.romRuns_of_debug {s : State} (h : (s.hart 0).debug = true) : s.romRuns = false := by simp [State.romRuns, h]

theorem State.opFirstStage_of_debug {s : State} (h : (s.hart 0).debug = true) (id : Option FlashId) (err : Option Nat) (us : Nat) :
    s.opFirstStage id err us = s := by simp [State.opFirstStage, State.romRuns_of_debug h]

theorem State.opResume_of_debug {s : State} (h : (s.hart 0).debug = true) : s.opResume = s := by
  simp [State.opResume, State.romRuns_of_debug h]

/-- The state after reset, but with the straps latched, the boot hart in the ROM and halted there by a debugger, and a resume due or not. -/
def State.firstStageHalted (resume : Bool) : State :=
  { (State.reset.setFld F.BOOT_STRAP_LATCHED 1).modHart 0 (fun x => { x with running := true, debug := true }) with
    boot := { BootState.reset with resume := resume } }

theorem State.firstStageHalted_debug (resume : Bool) : ((State.firstStageHalted resume).hart 0).debug = true := by
  cases resume <;> decide +kernel

/-- Refutes O11: in `State.firstStageHalted` a flash that is not found leaves no FAILCODE, for the first stage stands still. -/
theorem not_firstStageBootsAndRetries : ¬ Obligations.FirstStageBootsAndRetries := by
  unfold Obligations.FirstStageBootsAndRetries
  intro h
  obtain ⟨-, -, hnotFound, -⟩ := h
  obtain ⟨t, ht, hboot, -⟩ := hnotFound (State.firstStageHalted false) none 0 (by decide +kernel) (by decide +kernel)
  injection ht with ht
  rw [State.opFirstStage_of_debug (State.firstStageHalted_debug false)] at ht
  subst ht
  have hphase : BootPhase.start = .failed 1 _ := congrArg BootState.phase hboot
  cases hphase

/-- Refutes O12: in `State.firstStageHalted` a resume without a complete snapshot stays due, for the first stage stands still. -/
theorem not_hartParkingResumeAndRecovery : ¬ Obligations.HartParkingResumeAndRecovery := by
  unfold Obligations.HartParkingResumeAndRecovery
  intro h
  obtain ⟨-, -, -, -, hturnedAway, -⟩ := h
  obtain ⟨t, ht, hboot, -⟩ := hturnedAway (State.firstStageHalted true) (by decide +kernel) (by decide +kernel) (by decide +kernel)
    (by decide +kernel) (by decide +kernel) (by decide +kernel) (.inl (by decide +kernel))
  injection ht with ht
  rw [State.opResume_of_debug (State.firstStageHalted_debug true)] at ht
  subst ht
  have hresume : true = false := congrArg BootState.resume hboot
  cases hresume

end Sys2Proof.Machine
end

section
/-! A system reset that finds a write to MRAM in the buffers of the DRAM controller. No command puts one there (R268), but the statement allows
it: the writes that the controller has accepted land as the reset begins (R273), and one into the range of the snapshot clears
PWR_SNAP_CTRL.COMPLETE (R108), which the statement says the reset keeps. -/
namespace Sys2Proof.Machine

/-- The state after reset, but with a complete snapshot of one page at the start of MRAM, and a write to its first byte held for DRAM. -/
def State.strayDramWrite : State :=
  { (State.reset.setFld F.PWR_SNAP_CTRL_PAGES 1).setFld F.PWR_SNAP_CTRL_COMPLETE 1 with
    memory := { MemState.reset with dmc := [⟨0, 0x08000000, 2, 0, [7#8], none⟩] } }

/-- The state is in canonical form, no commit runs, and the reset that RESET_REQ begins clears COMPLETE. -/
theorem resetReq_loses_snapshot :
    State.strayDramWrite.Canonical ∧ State.strayDramWrite.flag F.PWR_SNAP_CTRL_BUSY = false ∧
      State.strayDramWrite.flag F.PWR_SNAP_CTRL_COMPLETE = true ∧
      ∃ t, exec (.resetReq ⟨0, true⟩) State.strayDramWrite = .next t ∧ t.flag F.PWR_SNAP_CTRL_COMPLETE = false :=
  ⟨by unfold State.Canonical; decide +kernel, by decide +kernel, by decide +kernel, _, rfl, by decide +kernel⟩

/-- Refutes O13: the clause of RESET_REQ fails in `State.strayDramWrite`, whose snapshot the reset does not keep complete. -/
theorem not_lifecycleUnlockAndResetRequests : ¬ Obligations.LifecycleUnlockAndResetRequests := by
  unfold Obligations.LifecycleUnlockAndResetRequests
  intro h
  obtain ⟨-, -, -, -, -, -, -, -, hreset, -⟩ := h
  obtain ⟨-, hbusy, hbefore, u, hu, hafter⟩ := resetReq_loses_snapshot
  obtain ⟨t, ht, ⟨-, -, -, -, -, -, -, hkeeps, -⟩, -⟩ := hreset State.strayDramWrite ⟨0, true⟩ (by unfold OpenTo; decide +kernel)
  rw [ht] at hu
  injection hu with hu
  subst hu
  have hsame := hkeeps hbusy
  rw [hafter, hbefore] at hsame
  cases hsame

end Sys2Proof.Machine
end

section
/-! A flash item into DRAM (R151): the line that it writes leaves its check block dirty in the DRAM controller, and DMC_CHAN_STAT.CBC_DIRTY
shows it (R267). -/
namespace Sys2Proof.Machine

/-- An item that reads the first line of the flash into the first line of DRAM. -/
def flashToDramItem : HeddleItem := { HeddleItem.blank 0 1 true none with len := 64, dst := 0x80000000 }

/-- The channel of port 0x30 that holds it. -/
def flashToDramChannel : HeddleChannel :=
  { e := { kind := 2, inst := 0, gen := 1, prio := 0, haltOnErr := false, kickAdv := false, cq := 0, prefetch := 0, order := 4,
           base := 0x01001000, port := 0x30, res := none, ctx := 0 },
    state := 2, head := 0, tail := 1, pending := false, dropping := false, items := [flashToDramItem], waiting := [], out := 0 }

/-- The owner of the channel, whose addresses are physical ones. -/
def untranslatedInstance : HeddleInstance :=
  { gMode := 0, part := 0, prioMax := 3, vmid := 0, root := 0, chBase := 0, chCount := 4096, cqBase := 0, cqCount := 1024, tokens := 64,
    msgGroups := 65535, resMask := 0, out := 0, late := 0 }

/-- The state after reset, but with OSPI and Heddle enabled, writes of Heddle that allocate nothing in the L3, and the item at work. -/
def State.flashToDram : State :=
  { (((State.reset.setFld (F.PAGE_STAT_ENABLED P.OSPI) 1).setFld (F.PAGE_STAT_ENABLED P.HEDDLE) 1).setFld (instStateF 0) 1).setFld
      F.L3_CFG_HEDDLE_ALLOC 0 with
    heddle := { HeddleState.reset with ch := [(0, flashToDramChannel)], inst := [(0, untranslatedInstance)] } }

theorem State.flashToDram_works : State.flashToDram.PortWork 2 0x30 0 flashToDramChannel flashToDramItem := by
  unfold State.PortWork
  decide +kernel

theorem State.flashToDram_plain :
    State.flashToDram.PlainRange flashToDramChannel.e.inst flashToDramItem.dst flashToDramItem.len := by
  unfold State.PlainRange State.QuietMemory
  decide +kernel

/-- The item raises CBC_DIRTY. -/
theorem ospiItem_dirties_check_block :
    State.flashToDram.flag F.DMC_CHAN_STAT_CBC_DIRTY = false ∧
      ∃ t, exec (.ospiItem false none) State.flashToDram = .next t ∧ t.flag F.DMC_CHAN_STAT_CBC_DIRTY = true :=
  ⟨by decide +kernel, _, rfl, by decide +kernel⟩

/-- Refutes O14: the clause of an item that reads the flash says that no register changes, and in `State.flashToDram` DMC_CHAN_STAT does. -/
theorem not_ospiCommandsWindowAndItems : ¬ Obligations.OspiCommandsWindowAndItems := by
  unfold Obligations.OspiCommandsWindowAndItems
  intro h
  obtain ⟨-, -, -, -, -, -, -, -, -, -, -, hitem, -⟩ := h
  obtain ⟨hbefore, u, hu, hafter⟩ := ospiItem_dirties_check_block
  obtain ⟨t, ht, -, -, -, -, -, hkeeps, -⟩ := hitem State.flashToDram 0 flashToDramChannel flashToDramItem (by decide +kernel) (by decide +kernel)
    State.flashToDram_works (by decide) (by decide +kernel) State.flashToDram_plain
  rw [ht] at hu
  injection hu with hu
  subst hu
  have hsame := hkeeps.flag (f := F.DMC_CHAN_STAT_CBC_DIRTY) List.not_mem_nil
  rw [hafter, hbefore] at hsame
  cases hsame

end Sys2Proof.Machine
end

section
/-! Reed's tick and a HOLD item of an ADC (R396, R411): as the phase word crosses MOVE_ANGLE, the item's samples may move, which the model keeps
in the item. The frames that the clauses of O15 give a tick of Reed do not name Heddle. -/
namespace Sys2Proof.Machine

/-- An ANGLE_CAP item with HOLD of one sample, with MOVE_ANGLE = 0. -/
def angleZeroHoldItem : HeddleItem := { HeddleItem.blank 0 1 true none with op := 2, len := 2, dst := 0x01000200 }

/-- The channel of ADC 0 that executes it. -/
def angleZeroHoldChannel : HeddleChannel :=
  { e := { kind := 4, inst := 0, gen := 1, prio := 0, haltOnErr := false, kickAdv := false, cq := 0, prefetch := 0, order := 4,
           base := 0x01001000, port := 0x20, res := none, ctx := 0 },
    state := 2, head := 0, tail := 1, pending := false, dropping := false, items := [angleZeroHoldItem], waiting := [], out := 0 }

/-- The state after reset, but with Reed, ADC 0 and Heddle enabled, Reed in FREE by its own oscillator in the last unit before angle 0, the one
sample of the item in the FIFO, and the item waiting for its angle. -/
def State.holdAtAngleZero : State :=
  let s := ((State.reset.setFld (F.PAGE_STAT_ENABLED P.REED) 1).setFld (F.PAGE_STAT_ENABLED (P.ADC 0)) 1).setFld (F.PAGE_STAT_ENABLED P.HEDDLE) 1
  let free := (((s.setFld F.REED_SRC_SRC 3).setFld F.REED_STATE_STATE 5).setFld F.REED_STATE_VALID 1).setAcc (cycleUnits - 1)
  { free.setAdc 0 { AdcPort.idle with fifo := [(7, some 0xFFF0)] } with
    heddle := { HeddleState.reset with ch := [(0, angleZeroHoldChannel)] } }

theorem State.holdAtAngleZero_quiet : (State.holdAtAngleZero.later 0).ReedQuiet := by
  unfold State.ReedQuiet
  decide +kernel

/-- The crossing of angle 0 lets the item's samples move. -/
theorem angleZeroCrossing_releases_hold_item :
    (State.holdAtAngleZero.later 0).adcReleased 0 = false ∧
      ∃ t, exec (.angleZeroCrossing 0) State.holdAtAngleZero = .next t ∧ t.adcReleased 0 = true :=
  ⟨by decide +kernel, _, rfl, by decide +kernel⟩

/-- Under the frame of that clause no item of an ADC becomes released: what says so stands in Heddle and the supply, which it leaves as they were. -/
theorem State.adcReleased_of_crossing_frame {s t : State}
    (hframe : t = { s with regs := t.regs, reed := t.reed, field := t.field, cairn := t.cairn, shuttle := t.shuttle }) (n : Nat) :
    t.adcReleased n = s.adcReleased n := by
  have hheddle : t.heddle = s.heddle := by rw [hframe]
  have hpower : t.power = s.power := by rw [hframe]
  simp only [State.adcReleased, State.portItem, hheddle, hpower]

/-- Refutes O15: the clause of the crossing of angle 0 says that Heddle stays as it was, and in `State.holdAtAngleZero` an item of Heddle changes. -/
theorem not_reedReferenceEncoderAndSlots : ¬ Obligations.ReedReferenceEncoderAndSlots := by
  unfold Obligations.ReedReferenceEncoderAndSlots
  intro h
  obtain ⟨-, -, -, -, -, -, -, -, -, -, -, -, -, -, -, hcross, -⟩ := h
  obtain ⟨hbefore, u, hu, hafter⟩ := angleZeroCrossing_releases_hold_item
  obtain ⟨t, ht, -, -, -, -, hframe⟩ := hcross State.holdAtAngleZero 0 (by decide +kernel) (by decide +kernel) (by decide +kernel)
    State.holdAtAngleZero_quiet (by decide +kernel) (by decide +kernel) (by decide +kernel)
  rw [ht] at hu
  injection hu with hu
  subst hu
  have hsame := State.adcReleased_of_crossing_frame hframe 0
  rw [hafter, hbefore] at hsame
  cases hsame

end Sys2Proof.Machine
end

section
/-! A halt while a load of the hart is on the Loom (R245). In the model a hart that halts for a debugger abandons its outstanding loads to
cacheable memory: the transaction goes on, but nothing waits for its data any more. The frame that the clause of the halt gives names the harts
and the debug module alone. -/
namespace Sys2Proof.Machine

/-- A demand load of hart 0 on the Loom: 8 bytes of base camp, from the home of their line. -/
def baseCampLoad : LoomPacket :=
  { ini := 0, target := 4, op := 0, addr := 0x01000100, len := 7, prio := 0, priv := true, pref := false, io := false, ahead := false,
    cause := none, use := .load 0x01000100#64, data := [] }

/-- The state that this request leads to after reset, hart 0 running. -/
def State.loadOutstanding : State :=
  (State.reset.modHart 0 (fun t => { t with running := true })).opLoomRequest baseCampLoad

theorem State.loadOutstanding_debugs : State.loadOutstanding.Debugs 0 := by
  unfold State.Debugs State.TapReaches
  decide +kernel

/-- The load waits for its data, and behind the halt nothing does. -/
theorem halt_abandons_load :
    State.loadOutstanding.loom.txns.map LoomTxn.use = [.load 0x01000100#64] ∧
      ∃ t, exec (.debugHalt 0 .halt) State.loadOutstanding = .next t ∧ t.loom.txns.map LoomTxn.use = [.nothing] :=
  ⟨by decide +kernel, _, rfl, by decide +kernel⟩

/-- Refutes O23: the clause of the halt says that the Loom stays as it was, and in `State.loadOutstanding` the load of the hart is abandoned. -/
theorem not_debugModuleAndLockstep : ¬ Obligations.DebugModuleAndLockstep := by
  unfold Obligations.DebugModuleAndLockstep
  intro h
  obtain ⟨hhalt, -⟩ := h
  obtain ⟨hbefore, u, hu, hafter⟩ := halt_abandons_load
  obtain ⟨t, ht, -, -, -, -, -, -, -, hframe⟩ := hhalt State.loadOutstanding 0 State.loadOutstanding_debugs (by decide +kernel)
    (by decide +kernel) (by decide +kernel) (by decide +kernel)
  obtain ⟨-, -, -, -, -, honly⟩ := hframe
  rw [ht] at hu
  injection hu with hu
  subst hu
  have hloom : t.loom = State.loadOutstanding.loom := by rw [honly]
  rw [hloom, hbefore] at hafter
  cases hafter

end Sys2Proof.Machine
end

section
/-! What a command does to one hart: the registers and CSRs a change leaves, a change of a visible hart and its checker, and an instruction
that issues. -/
namespace Sys2Proof.Machine

/-! ### Tables by key -/

section
variable {α : Type} (m : List (Nat × α)) (k : Nat)

theorem AMap.get?_eq_none (h : ∀ e ∈ m, e.1 ≠ k) : AMap.get? m k = none := by
  induction m with
  | nil => rfl
  | cons e m ih =>
    rw [AMap.get?, if_neg (h e (by simp))]
    exact ih fun e he => h e (by simp [he])

@[simp] theorem AMap.get?_erase : AMap.get? (SMap.erase m k) k = none := AMap.get?_eq_none _ k (SMap.erase_ne m k)

theorem AMap.get?_insert (v : α) (h : ∀ e ∈ m, e.1 ≠ k) : AMap.get? (SMap.insert m k v) k = some v := by
  induction m with
  | nil => simp [SMap.insert, AMap.get?]
  | cons e m ih =>
    by_cases hk : k < e.1
    · simp [SMap.insert, hk, AMap.get?]
    · simp only [SMap.insert, hk, if_false, AMap.get?, if_neg (h e (by simp))]
      exact ih fun e he => h e (by simp [he])

@[simp] theorem AMap.get?_put (v : α) : AMap.get? (AMap.put m k v) k = some v := AMap.get?_insert _ k v (SMap.erase_ne m k)

end

/-! ### Registers and CSRs of a hart -/

section
variable (t : Hart)

theorem Hart.xr_setX (r q : Nat) (v : DWord) : (t.setX r v).xr q = if q = r ∧ r ≠ 0 then v else t.xr q := by
  by_cases hr : r = 0
  · simp [Hart.setX, hr]
  · by_cases hq : q = 0
    · simp [Hart.xr, hq, Ne.symm hr]
    · simp [Hart.setX, Hart.xr, hr, hq, SMap.get_put]

@[simp] theorem Hart.csrRaw_setX (r n : Nat) (v : DWord) : (t.setX r v).csrRaw n = t.csrRaw n := by unfold Hart.setX; split <;> rfl

theorem Hart.csrRaw_setCsr (n m : Nat) (v : DWord) : (t.setCsr n v).csrRaw m = if m = n then v else t.csrRaw m :=
  SMap.get_put csrReset t.csr n m v

@[simp] theorem Hart.csrRaw_setCsr_same (n : Nat) (v : DWord) : (t.setCsr n v).csrRaw n = v := by simp [Hart.csrRaw_setCsr]

theorem Hart.csrRaw_setCsr_ne {n m : Nat} (v : DWord) (h : m ≠ n) : (t.setCsr n v).csrRaw m = t.csrRaw m := by
  simp [Hart.csrRaw_setCsr, h]

end

/-- From `t` to `u` nothing of the hart has changed but CSRs of `l`. -/
def Hart.OnlyCsrs (t u : Hart) (l : List Nat) : Prop := (∀ n, n ∉ l → u.csrRaw n = t.csrRaw n) ∧ u = { t with csr := u.csr }

namespace Hart.OnlyCsrs
variable {t u v : Hart} {l m : List Nat}

theorem refl (t : Hart) (l : List Nat) : t.OnlyCsrs t l := ⟨fun _ _ => rfl, rfl⟩

theorem trans (h : t.OnlyCsrs u l) (k : u.OnlyCsrs v l) : t.OnlyCsrs v l := by
  obtain ⟨hcsr, hrest⟩ := h
  obtain ⟨kcsr, krest⟩ := k
  refine ⟨fun n hn => (kcsr n hn).trans (hcsr n hn), ?_⟩
  rw [krest, hrest]

theorem mono (h : t.OnlyCsrs u l) (hl : ∀ n ∈ l, n ∈ m) : t.OnlyCsrs u m := ⟨fun n hn => h.1 n fun hm => hn (hl n hm), h.2⟩

theorem setCsr (h : t.OnlyCsrs u l) {n : Nat} {w : DWord} (hn : n ∈ l) : t.OnlyCsrs (u.setCsr n w) l :=
  h.trans ⟨fun _ hm => u.csrRaw_setCsr_ne w fun e => hm (e ▸ hn), rfl⟩

theorem putCsr (h : t.OnlyCsrs u l) {n lo width w : Nat} (hn : n ∈ l) : t.OnlyCsrs (u.putCsr n lo width w) l := h.setCsr hn

end Hart.OnlyCsrs

section
variable (t : Hart)

/-- R326: a counter that wraps changes itself, the OF bit of its event, and LCOFI. -/
theorem Hart.onlyCsrs_counterWrap (n : Nat) : t.OnlyCsrs (t.counterWrap n) [0xB00 + n, 0x320 + n, 0x344] := by
  have h : t.OnlyCsrs ((t.setCsr (0xB00 + n) 0#64).putCsr (0x320 + n) 63 1 1) [0xB00 + n, 0x320 + n, 0x344] :=
    ((Hart.OnlyCsrs.refl t _).setCsr (by simp)).putCsr (by simp)
  unfold Hart.counterWrap
  dsimp only
  split
  · exact h
  · exact h.putCsr (by simp)

theorem mem_countingCsrs_of_wrap {k n : Nat} (hk : k < 8) (hn : n ∈ [0xB00 + (k + 3), 0x320 + (k + 3), 0x344]) : n ∈ countingCsrs := by
  simp only [List.mem_cons, List.not_mem_nil, or_false] at hn
  simp only [countingCsrs, List.mem_cons, List.not_mem_nil, or_false]
  omega

/-- R324 to R326: an event changes what counts alone. -/
theorem Hart.onlyCsrs_count (code priv : Nat) (virt : Bool) : t.OnlyCsrs (t.count code priv virt) countingCsrs := by
  unfold Hart.count
  split
  · exact .refl t _
  · refine List.foldlRecOn (motive := fun (u : Hart) => t.OnlyCsrs u countingCsrs) _ _ (.refl t _) fun u hu k hk => ?_
    have hk8 : k < 8 := List.mem_range.1 hk
    dsimp only
    split
    · split
      · exact hu.trans ((u.onlyCsrs_counterWrap (k + 3)).mono fun n => mem_countingCsrs_of_wrap hk8)
      · exact hu.setCsr (mem_countingCsrs_of_wrap hk8 (by simp; omega))
    · exact hu

theorem Hart.onlyCsrs_instret (n : Nat) : t.OnlyCsrs (t.instret n) [0xB02] := by
  unfold Hart.instret
  split
  · exact .refl t _
  · exact (Hart.OnlyCsrs.refl t _).setCsr (by simp)

/-- R239: minstret after `n` instructions. -/
theorem Hart.minstret_instret (n : Nat) : (t.instret n).csrRaw 0xB02 =
    if t.csrBit 0x320 2 ∨ t.stopsCount then t.csrRaw 0xB02 else t.csrRaw 0xB02 + BitVec.ofNat 64 n := by
  simp only [Hart.instret, Bool.or_eq_true]
  split <;> simp

end

/-! ### Retirement -/

theorem Hart.stepEnd_of_not_stepping {t : Hart} (h : t.stepping = false) : t.stepEnd = t := by simp [Hart.stepEnd, h]

/-- `n` instructions retire: but for the pc, minstret and the settling windows the hart is as it was. -/
theorem Hart.retired_eq (t : Hart) (n : Nat) (pc : DWord) :
    t.retired n pc = { t with pc := pc, csr := (t.instret n).csr, windows := (t.tickWindows n).windows, govern := (t.tickWindows n).govern } := by
  unfold Hart.retired
  rw [(t.onlyCsrs_instret n).2]
  rfl

theorem Hart.csrRaw_retired (t : Hart) (n : Nat) (pc : DWord) (m : Nat) : (t.retired n pc).csrRaw m = (t.instret n).csrRaw m := by
  rw [Hart.retired_eq]
  rfl

theorem Hart.xr_retired (t : Hart) (n : Nat) (pc : DWord) (r : Nat) : (t.retired n pc).xr r = t.xr r := by
  rw [Hart.retired_eq]
  rfl

@[simp] theorem Hart.retired_stepping (t : Hart) (n : Nat) (pc : DWord) : (t.retired n pc).stepping = t.stepping := by rw [Hart.retired_eq]

theorem Hart.retire_eq_retired {t : Hart} (h : t.stepping = false) : t.retire 4 = t.retired 1 (t.pc + 4#64) :=
  Hart.stepEnd_of_not_stepping (by simpa using h)

theorem Hart.setX_eq (t : Hart) (r : Nat) (v : DWord) : t.setX r v = { t with x := (t.setX r v).x } := by unfold Hart.setX; split <;> rfl

@[simp] theorem Hart.setX_stepping (t : Hart) (r : Nat) (v : DWord) : (t.setX r v).stepping = t.stepping := by rw [Hart.setX_eq]

theorem Hart.retired_setX_frame {t u : Hart} {r n : Nat} {v pc : DWord} (hu : u = (t.setX r v).retired n pc) :
    u = { t with pc := u.pc, x := u.x, csr := u.csr, windows := u.windows, govern := u.govern } := by
  rw [hu, Hart.retired_eq, Hart.setX_eq]

/-- A hart whose instruction of 4 bytes wrote integer register `rd` goes on behind it. -/
theorem Hart.goesOn_retired_setX (t : Hart) (rd : Nat) (v : DWord) : t.GoesOn ((t.setX rd v).retired 1 (t.pc + 4#64)) [rd] := by
  refine ⟨rfl, fun r hr => ?_, fun n hn => ?_, ?_⟩
  · rw [Hart.xr_retired, Hart.xr_setX, if_neg fun h => hr (by simp [h.1])]
  · have h2 : n ∉ [0xB02] := fun h => hn (by rw [List.mem_singleton.1 h]; decide)
    rw [Hart.csrRaw_retired, ((t.setX rd v).onlyCsrs_instret 1).1 n h2, Hart.csrRaw_setX]
  · rw [Hart.retired_eq, Hart.setX_eq]
    exact ⟨rfl, rfl, rfl⟩

theorem Hart.retire_frame {t : Hart} (h : t.stepping = false) : t.retire 4 =
    { t with pc := (t.retire 4).pc, csr := (t.retire 4).csr, windows := (t.retire 4).windows, govern := (t.retire 4).govern } := by
  rw [Hart.retire_eq_retired h, Hart.retired_eq]

/-- A hart whose instruction changed no register goes on behind it. -/
theorem Hart.goesOn_retire {t : Hart} (h : t.stepping = false) : t.GoesOn (t.retire 4) [] := by
  obtain ⟨hpc, hx, hrest⟩ := t.goesOn_retired_setX 0 0#64
  rw [Hart.retire_eq_retired h]
  exact ⟨hpc, fun r _ => Hart.xr_retired t 1 _ r, hrest⟩

/-! ### Traps into M-mode -/

@[simp] theorem Hart.drainLou_of_empty {t : Hart} (h : t.lou = []) : t.drainLou = t := by simp [Hart.drainLou, h]

@[simp] theorem Hart.louDue_of_empty {t : Hart} (h : t.lou = []) : t.louDue = none := by simp [Hart.louDue, h]

theorem Hart.trapDrained_of_empty {t : Hart} (h : t.lou = []) (r : Trap) : t.trapDrained r = t.trap r := by
  simp [Hart.trapDrained, h]

/-- What an exception finds: the event it counts, the settling windows it ends, and the wait it ends. -/
def Hart.excepted (t : Hart) : Hart := { (t.count 0x1B t.priv t.virt).endWindows with wfi := false }

theorem Hart.excepted_eq (t : Hart) : t.excepted = { t with csr := t.excepted.csr, windows := [], govern := [], wfi := false } := by
  have h := (t.onlyCsrs_count 0x1B t.priv t.virt).2
  unfold Hart.excepted Hart.endWindows
  rw [h]

theorem Hart.csrRaw_excepted (t : Hart) {n : Nat} (h : n ∉ countingCsrs) : t.excepted.csrRaw n = t.csrRaw n :=
  (t.onlyCsrs_count 0x1B t.priv t.virt).1 n h

/-- R204: a trap into M-mode writes its CSRs, and then the mode and the pc. -/
theorem Hart.trapM_spec (t : Hart) (r : Trap) : ∃ u, t.OnlyCsrs u trapCsrsM ∧
    t.trapM r = { u with priv := 3, virt := false, pc := vectorOf (t.csrRaw 0x305) r.intr r.cause } ∧
    u.csrRaw 0x341 = t.pc ∧ u.csrRaw 0x342 = causeWord r.intr r.cause ∧ u.csrRaw 0x343 = r.tval := by
  refine ⟨_, ?_, rfl, ?_, ?_, ?_⟩
  · exact ((((((Hart.OnlyCsrs.refl t _).setCsr (by decide)).setCsr (by decide)).setCsr (by decide)).setCsr (by decide)).setCsr
      (by decide)).setCsr (by decide)
  all_goals simp [Hart.csrRaw_setCsr]

/-- R204: an exception that M-mode takes while no long operation is held. -/
theorem Hart.trapDrained_exception {t : Hart} {c : Nat} {v : DWord} (hlou : t.lou = []) (hprog : t.prog = none) (hstep : t.stepping = false)
    (hto : t.exceptionTo c = 3) : t.trapDrained (Trap.exc c v) = t.excepted.trapM (Trap.exc c v) := by
  have hs : (t.excepted.trapM (Trap.exc c v)).stepping = false := by
    obtain ⟨u, ⟨-, hu⟩, he, -⟩ := t.excepted.trapM_spec (Trap.exc c v)
    rw [he, hu, Hart.excepted_eq]
    exact hstep
  rw [Hart.trapDrained_of_empty hlou]
  unfold Hart.trap
  simp only [hprog, Option.isSome_none, Bool.false_eq_true, if_false, Trap.exc, hto, if_true]
  exact Hart.stepEnd_of_not_stepping hs

/-! ### One hart of the state, and its checker -/

section
variable (s : State)

theorem State.lt_of_visible {h : Nat} (hv : s.visible.contains h = true) : h < 4 ∧ (s.guarded = true → h + 1 < 4) := by
  unfold State.visible at hv
  split at hv <;> simp at hv
  · omega
  · exact ⟨by omega, by simp_all⟩

theorem State.setHart_hart {h : Nat} (hl : h < 4) : s.setHart h (s.hart h) = s := by
  simp [State.setHart, State.hart, hl, Vector.toList]

theorem State.only_setHart (h : Nat) (v : Hart) : s.setHart h v = { s with harts := (s.setHart h v).harts } := by
  unfold State.setHart
  split <;> rfl

theorem State.only_harts_trans {s u t : State} (h : u = { s with harts := u.harts }) (k : t = { u with harts := t.harts }) :
    t = { s with harts := t.harts } := by
  rw [k, h]

/-- From `s` to `t` hart `h` has become `v`, its checker with it, and nothing else has changed. -/
def State.Turns (t : State) (h : Nat) (v : Hart) : Prop := OnlyHart s t h ∧ t.hart h = v

/-- R215, R252: a change of a visible hart, which its checker follows. -/
theorem State.turns_modHart {h : Nat} (hv : s.visible.contains h = true) {f : Hart → Hart} {v : Hart} (hf : f (s.hart h) = v) :
    s.Turns ((s.modHart h f).mirror h) h v := by
  subst hf
  obtain ⟨hl, hl1⟩ := s.lt_of_visible hv
  have hself : (s.modHart h f).hart h = f (s.hart h) := s.hart_setHart h _ hl
  have hne (k : Nat) (hk : k ≠ h) : (s.modHart h f).hart k = s.hart k := s.hart_setHart_ne h k _ hk
  have hrest : s.modHart h f = { s with harts := (s.modHart h f).harts } := s.only_setHart h _
  have hg : (s.modHart h f).guarded = s.guarded := by rw [hrest]; rfl
  unfold State.mirror
  rw [hg]
  split
  · rename_i hguard
    have hother : ((s.modHart h f).modHart (h + 1) fun _ => (s.modHart h f).hart h).hart h = (s.modHart h f).hart h :=
      State.hart_setHart_ne _ (h + 1) h _ (by omega)
    refine ⟨⟨fun k hk => ?_, fun _ => ?_, ?_⟩, hother.trans hself⟩
    · simp only [State.pairOf, hguard, if_true, List.mem_cons, List.not_mem_nil, or_false, not_or] at hk
      exact (State.hart_setHart_ne _ _ _ _ hk.2).trans (hne _ hk.1)
    · exact (State.hart_setHart _ _ _ (hl1 hguard)).trans hother.symm
    · exact State.only_harts_trans hrest (State.only_setHart _ _ _)
  · rename_i hguard
    refine ⟨⟨fun k hk => ?_, fun h1 => absurd h1 hguard, hrest⟩, hself⟩
    simp only [State.pairOf, hguard, Bool.false_eq_true, if_false, List.mem_singleton] at hk
    exact hne _ hk

theorem State.visible_of_live {h : Nat} (hl : s.hartLive h = true) : s.visible.contains h = true := by
  simp only [State.hartLive, Bool.and_eq_true] at hl
  obtain ⟨⟨⟨⟨⟨⟨hv, -⟩, -⟩, -⟩, -⟩, -⟩, -⟩ := hl
  exact hv

end

namespace State.Issues
variable {s : State} {h : Nat} (hi : s.Issues h)
include hi

theorem visible : s.visible.contains h = true := by
  obtain ⟨hlive, -⟩ := hi
  exact s.visible_of_live hlive

theorem not_waiting : (s.hart h).wfi = false := by
  obtain ⟨-, -, hwfi, -⟩ := hi
  exact hwfi

theorem not_stepping : (s.hart h).stepping = false := by
  obtain ⟨-, -, -, -, hstep, -⟩ := hi
  exact hstep

theorem empty : (s.hart h).lou = [] := by
  obtain ⟨-, -, -, -, -, hlou, -⟩ := hi
  exact hlou

theorem not_debug : (s.hart h).debug = false := by
  obtain ⟨hlive, hprog, -⟩ := hi
  simp only [State.hartLive, hprog, Bool.and_eq_true] at hlive
  obtain ⟨⟨⟨⟨-, hdebug⟩, -⟩, -⟩, -⟩ := hlive
  simpa using hdebug

/-- R205: nothing comes before the instruction of a hart that issues. -/
theorem instr (regs : List Nat) (scout : Hart → Hart) (f : State → State) : s.instr h regs scout f = (f s).mirror h := by
  obtain ⟨hlive, -, hwfi, hscout, -, hlou, htrig⟩ := hi
  have hself : (s.modHart h fun _ => s.hart h) = s := s.setHart_hart (s.lt_of_visible (s.visible_of_live hlive)).1
  simp [State.instr, hlive, hwfi, hscout, hlou, htrig, Hart.completeWhile, hself]

/-- An instruction that acts on its own hart alone. -/
theorem turns_instr (regs : List Nat) (scout : Hart → Hart) {f : State → Hart → Hart} {v : Hart} (hf : f s (s.hart h) = v) :
    s.Turns (s.instr h regs scout fun u => u.modHart h (f u)) h v := by
  rw [hi.instr]
  exact s.turns_modHart hi.visible hf

/-- One that changes nothing of its hart goes on behind itself. -/
theorem goesOn_retire {u : Hart} (hu : u = (s.hart h).retire 4) : (s.hart h).GoesOn u [] := hu ▸ Hart.goesOn_retire hi.not_stepping

/-- R204: an instruction that raises an exception of M-mode. -/
theorem trapsM {t : State} {c : Nat} {v : DWord} (hto : (s.hart h).exceptionTo c = 3) (ht : s.Turns t h ((s.hart h).trapDrained (Trap.exc c v))) :
    s.TrapsM t h c v := by
  obtain ⟨-, hprog, hwfi, -, hstep, hlou, -⟩ := hi
  obtain ⟨honly, hhart⟩ := ht
  obtain ⟨u, ⟨hcsr, hrest⟩, htrap, h341, h342, h343⟩ := (s.hart h).excepted.trapM_spec (Trap.exc c v)
  have he := (s.hart h).excepted_eq
  have hvec : (s.hart h).excepted.csrRaw 0x305 = (s.hart h).csrRaw 0x305 := (s.hart h).csrRaw_excepted (by decide)
  have hpc : (s.hart h).excepted.pc = (s.hart h).pc := by rw [he]
  rw [Hart.trapDrained_exception hlou hprog hstep hto, htrap] at hhart
  rw [hpc] at h341
  rw [hvec] at hhart
  refine ⟨honly, ?_⟩
  rw [hhart]
  refine ⟨h341, h342, h343, rfl, rfl, rfl, ?_⟩
  rw [hrest, he]
  refine ⟨rfl, rfl, fun n hn hc => ?_, ?_⟩
  · exact (hcsr n hn).trans ((s.hart h).csrRaw_excepted hc)
  · rw [hwfi]

end State.Issues

end Sys2Proof.Machine
end

section
/-! Harts: vendor CSRs and their settling windows, WFI, fences, Scout and counter wraps (R196, R206, R209 to R214, R232 to R235, R260, R262,
R326). -/
namespace Sys2Proof.Machine

/-! ### Vendor CSRs -/

/-- The settling window that opens as `w` is stored in vendor CSR `m` (R212). -/
def Hart.settling (t : Hart) (m : Nat) (w : DWord) : Hart :=
  { t.setCsr m w with govern := AMap.put t.govern m (BitVec.ofNat 64 (t.gov m)), windows := t.windows ++ [⟨m, w, 4⟩] }

section
variable (t : Hart) (m : Nat) (w : DWord)

theorem Hart.csrRaw_settling (n : Nat) : (t.settling m w).csrRaw n = if n = m then w else t.csrRaw n := t.csrRaw_setCsr m n w

@[simp] theorem Hart.settling_stepping : (t.settling m w).stepping = t.stepping := rfl

theorem Hart.gov_lt : t.gov m < 2 ^ 64 := BitVec.isLt _

/-- The value in force goes on governing. -/
theorem Hart.gov_settling : (t.settling m w).gov m = t.gov m := by
  conv_lhs => simp only [Hart.gov, Hart.settling, AMap.get?_put, BitVec.toNat_ofNat]
  exact Nat.mod_eq_of_lt (t.gov_lt m)

end

/-- R211: a supervisor view stores into the machine register, while the record it shows is no machine-mode one. -/
def Hart.storesVendor (t : Hart) (c : VendorCsr) : Prop :=
  c ≠ .mguardst ∧ (c ∈ [.sloufsr, .sloufpc] → Bits.get (t.csrRaw 0x7C2) 16 2 ≠ 3)

theorem Hart.csrWrite_vendor {t : Hart} {c : VendorCsr} (h : t.storesVendor c) (v : DWord) :
    t.csrWrite (vendorNum c) v = t.setCsr (vendorStore (vendorNum c))
      (vendorWrite (vendorStore (vendorNum c)) (t.csrRaw (vendorStore (vendorNum c))) v) := by
  obtain ⟨hstores, hview⟩ := h
  cases c <;> simp_all [Hart.csrWrite, vendorNum, vendorStore]

/-- R210 to R212: a vendor CSR instruction that writes. -/
theorem Hart.vendorCsr_write {t : Hart} {c : VendorCsr} {op : CsrOp} {src : CsrSrc} {v old : DWord} (rd : Nat) (hbar : t.vendorBarred c = none)
    (hstep : t.stepping = false) (hstores : t.storesVendor c) (hnew : csrNew t op src old = some v) :
    t.vendorCsr c op src rd old = ((t.setX rd old).retired 1 (t.pc + 4#64)).settling (vendorStore (vendorNum c))
      (vendorWrite (vendorStore (vendorNum c)) (t.csrRaw (vendorStore (vendorNum c))) v) := by
  have hcsr (n : Nat) (h : n ≠ 0xB02) : ((t.setX rd old).retired 1 (t.pc + 4#64)).csrRaw n = t.csrRaw n := by
    rw [Hart.csrRaw_retired, ((t.setX rd old).onlyCsrs_instret 1).1 n (by simpa using h), Hart.csrRaw_setX]
  have hm : vendorStore (vendorNum c) ≠ 0xB02 := by cases c <;> decide
  have hstores' : ((t.setX rd old).retired 1 (t.pc + 4#64)).storesVendor c := ⟨hstores.1, by rw [hcsr _ (by decide)]; exact hstores.2⟩
  have hset : ((t.setX rd old).retired 1 (t.pc + 4#64)).vendorSet (vendorNum c) v = ((t.setX rd old).retired 1 (t.pc + 4#64)).settling
      (vendorStore (vendorNum c)) (vendorWrite (vendorStore (vendorNum c)) (t.csrRaw (vendorStore (vendorNum c))) v) := by
    unfold Hart.vendorSet
    simp only [Hart.csrWrite_vendor hstores', hcsr _ hm, Hart.csrRaw_setCsr_same]
    rfl
  unfold Hart.vendorCsr
  simp only [hbar, hnew, if_neg hstores.1, hset]
  exact Hart.stepEnd_of_not_stepping (by simpa using hstep)

/-- R210 to R212: what it leaves, when no window was open. -/
theorem Hart.vendorCsr_write_spec {t u : Hart} {c : VendorCsr} {op : CsrOp} {src : CsrSrc} {v old : DWord} {rd m : Nat}
    (hbar : t.vendorBarred c = none) (hstep : t.stepping = false) (hstores : t.storesVendor c) (hnew : csrNew t op src old = some v)
    (hwin : t.windows = []) (hm : vendorStore (vendorNum c) = m) (hu : u = t.vendorCsr c op src rd old) :
    (rd ≠ 0 → u.xr rd = old) ∧ u.csrRaw m = vendorWrite m (t.csrRaw m) v ∧ u.gov m = t.gov m ∧ u.windows = [⟨m, u.csrRaw m, 4⟩] ∧
      u.pc = t.pc + 4#64 ∧ (∀ q, q ≠ rd → u.xr q = t.xr q) ∧ (∀ n, n ∉ m :: countingCsrs → u.csrRaw n = t.csrRaw n) ∧
      u = { t with pc := u.pc, x := u.x, csr := u.csr, windows := u.windows, govern := u.govern } := by
  obtain ⟨hpc, hx, hcsr, hwindows, hgovern, -⟩ := t.goesOn_retired_setX rd old
  have hrest := Hart.retired_setX_frame (t := t) (r := rd) (v := old) (n := 1) (pc := t.pc + 4#64) rfl
  rw [Hart.vendorCsr_write rd hbar hstep hstores hnew, hm] at hu
  have hm' : m ∉ countingCsrs := by rw [← hm]; cases c <;> decide
  have hxrd : (rd ≠ 0 → ((t.setX rd old).retired 1 (t.pc + 4#64)).xr rd = old) := fun h => by simp [Hart.xr_retired, Hart.xr_setX, h]
  have hgov : ((t.setX rd old).retired 1 (t.pc + 4#64)).gov m = t.gov m := by
    unfold Hart.gov
    rw [hcsr m hm', hgovern]
    simp [Hart.tickWindows, hwin]
  generalize (t.setX rd old).retired 1 (t.pc + 4#64) = r at *
  have hstored : u.csrRaw m = vendorWrite m (t.csrRaw m) v := by rw [hu, Hart.csrRaw_settling, if_pos rfl]
  refine ⟨?_, hstored, ?_, ?_, ?_, ?_, ?_, ?_⟩
  · intro h
    rw [hu]
    exact hxrd h
  · rw [hu, Hart.gov_settling, hgov]
  · have : r.windows = [] := by rw [hwindows]; simp [Hart.tickWindows, hwin]
    rw [hstored, hu]
    simp [Hart.settling, this]
  · rw [hu]
    exact hpc
  · intro q hq
    rw [hu]
    exact hx q (by simpa using hq)
  · intro n hn
    rw [List.mem_cons, not_or] at hn
    rw [hu, Hart.csrRaw_settling, if_neg hn.1, hcsr n hn.2]
  · rw [hu, hrest]
    rfl

/-- R209: one that does not write, or names MGUARDST, only reads. -/
theorem Hart.vendorCsr_read {t : Hart} {c : VendorCsr} {op : CsrOp} {src : CsrSrc} {old : DWord} (rd : Nat) (hbar : t.vendorBarred c = none)
    (hstep : t.stepping = false) (h : c = .mguardst ∨ csrNew t op src old = none) :
    t.vendorCsr c op src rd old = (t.setX rd old).retired 1 (t.pc + 4#64) := by
  have hs : ((t.setX rd old).retired 1 (t.pc + 4#64)).stepEnd = (t.setX rd old).retired 1 (t.pc + 4#64) :=
    Hart.stepEnd_of_not_stepping (by simpa using hstep)
  unfold Hart.vendorCsr
  rw [hbar]
  dsimp only
  cases hnew : csrNew t op src old with
  | none => exact hs
  | some v =>
    have hc : c = .mguardst := by simpa [hnew] using h
    simpa [hc] using hs

theorem Hart.vendorCsr_barred {t : Hart} {c : VendorCsr} {x : Nat} (op : CsrOp) (src : CsrSrc) (rd : Nat) (old : DWord)
    (hbar : t.vendorBarred c = some x) :
    t.vendorCsr c op src rd old = t.trapDrained (Trap.exc x (zicsrBits (vendorNum c) op src rd)) := by
  unfold Hart.vendorCsr
  rw [hbar]

theorem State.csrRead_vendor (s : State) (h : Nat) {c : VendorCsr} (hc : c ∈ [.mscout, .mloucfg, .mloufsr, .mloufpc, .mprefetch]) :
    s.csrRead h (vendorNum c) = (s.hart h).csrRaw (vendorNum c) := by
  simp only [List.mem_cons, List.not_mem_nil, or_false] at hc
  rcases hc with rfl | rfl | rfl | rfl | rfl <;> simp [State.csrRead, vendorNum]

/-- R211: what a supervisor view shows of a record that is no machine-mode one. -/
theorem State.csrRead_view (s : State) (h : Nat) {c : VendorCsr} (hc : c ∈ [.sloufsr, .sloufpc])
    (hmode : Bits.get ((s.hart h).csrRaw 0x7C2) 16 2 ≠ 3) : s.csrRead h (vendorNum c) = (s.hart h).csrRaw (vendorNum c + 0x200) := by
  simp only [List.mem_cons, List.not_mem_nil, or_false] at hc
  rcases hc with rfl | rfl <;> simp [State.csrRead, vendorNum, hmode]

/-- R212: the instructions left in the one window open retire. -/
theorem Hart.settle_eq {t : Hart} {w : Settling} (hstep : t.stepping = false) (hwin : t.windows = [w]) (pc : DWord) :
    t.settle pc = { t with pc := pc, csr := (t.instret w.left).csr, windows := [], govern := SMap.erase t.govern w.csr } := by
  have h : t.settle pc = t.retired w.left pc := by
    simp only [Hart.settle, hwin, hstep, Bool.false_eq_true, if_false]
    exact Hart.stepEnd_of_not_stepping (by simpa using hstep)
  rw [h, Hart.retired_eq]
  simp [Hart.tickWindows, hwin]

/-- R212: its value governs, and minstret has counted them. -/
theorem Hart.settle_spec {t u : Hart} {w : Settling} {pc : DWord} (hstep : t.stepping = false) (hwin : t.windows = [w])
    (hvalue : t.csrRaw w.csr = w.value) (hcsr : w.csr ≠ 0xB02) (hu : u = t.settle pc) :
    u.windows = [] ∧ u.gov w.csr = w.value.toNat ∧ u.pc = pc ∧
      u.csrRaw 0xB02 = (if t.csrBit 0x320 2 ∨ t.stopsCount then t.csrRaw 0xB02 else t.csrRaw 0xB02 + BitVec.ofNat 64 w.left) ∧
      (∀ n, n ≠ 0xB02 → u.csrRaw n = t.csrRaw n) ∧ u = { t with pc := pc, csr := u.csr, windows := [], govern := u.govern } := by
  rw [Hart.settle_eq hstep hwin] at hu
  have hraw (n : Nat) : u.csrRaw n = (t.instret w.left).csrRaw n := by rw [hu]; rfl
  have hkept (n : Nat) (hn : n ≠ 0xB02) : u.csrRaw n = t.csrRaw n := (hraw n).trans ((t.onlyCsrs_instret w.left).1 n (by simpa using hn))
  have hgov : u.gov w.csr = w.value.toNat := by
    have hgovern : u.govern = SMap.erase t.govern w.csr := by rw [hu]
    simp [Hart.gov, hgovern, hkept w.csr hcsr, hvalue]
  refine ⟨?_, hgov, ?_, (hraw _).trans (Hart.minstret_instret _ _), hkept, ?_⟩
  all_goals rw [hu]

/-! ### WFI -/

namespace State.Issues
variable {s : State} {h : Nat} (hi : s.Issues h)
include hi

/-- R196: a hart that is not awake waits. -/
theorem turns_wfi_waits (hbar : (s.hart h).wfiBarred = none) (hwake : s.wakeCond h = false) (hlocal : s.localPending h = false) :
    s.Turns (s.opWfi h) h { s.hart h with wfi := true } := by
  refine hi.turns_instr _ _ ?_
  obtain ⟨-, -, -, -, hstep, hlou, -⟩ := id hi
  simp [hbar, hwake, hlocal, hlou, hstep, hi.not_debug]

/-- R196, R360: one that is awake goes on. -/
theorem turns_wfi_awake (hbar : (s.hart h).wfiBarred = none) (hup : s.wakeCond h = true ∨ s.localPending h = true) :
    s.Turns (s.opWfi h) h ((s.hart h).retire 4) := by
  refine hi.turns_instr _ _ ?_
  rcases hup with hup | hup <;> simp [hbar, hup]

theorem turns_wfi_barred {x : Nat} (hbar : (s.hart h).wfiBarred = some x) :
    s.Turns (s.opWfi h) h ((s.hart h).trapDrained (Trap.exc x 0x10500073#64)) := by
  refine hi.turns_instr _ _ ?_
  simp [hbar]

end State.Issues

/-! ### Fences -/

/-- The translations of a hart take no part in retirement. -/
theorem Hart.retire_translations {t u : Hart} (hstep : t.stepping = false)
    (hu : u = { t with itlb := u.itlb, dtlb := u.dtlb, tlb := u.tlb, tlbLarge := u.tlbLarge, walk := u.walk }) :
    u.retire 4 = { t.retire 4 with itlb := u.itlb, dtlb := u.dtlb, tlb := u.tlb, tlbLarge := u.tlbLarge, walk := u.walk } := by
  have hstep' : u.stepping = false := by rw [hu]; exact hstep
  have hcsr : (u.instret 1).csr = (t.instret 1).csr := by
    rw [hu]
    simp only [Hart.instret, apply_ite Hart.csr]
    rfl
  rw [Hart.retire_eq_retired hstep, Hart.retire_eq_retired hstep', Hart.retired_eq, Hart.retired_eq, hcsr, hu]
  rfl

theorem Hart.translatesAs_retire {t : Hart} (hstep : t.stepping = false) : (t.retire 4).translatesAs t = t.retire 4 := by
  rw [Hart.retire_eq_retired hstep, Hart.retired_eq]
  rfl

/-- R206: a translation fence drops from every structure what it names, and the hart goes on. -/
theorem Hart.vmaFence_spec {t u : Hart} {k : VmaFence} {rs1 rs2 : Nat} {va id : Option Nat}
    (hbar : t.fenceBarred k = none) (hstep : t.stepping = false)
    (hva : va = if rs1 = 0 then none else some (if k = .hfenceGvma then 4 * (t.xr rs1).toNat else (t.xr rs1).toNat))
    (hid : id = if rs2 = 0 then none else some (t.xr rs2).toNat) (hu : u = t.vmaFence k rs1 rs2) :
    u.itlb = t.itlb.filter (fun e => ! t.fenced' k va id e) ∧ u.dtlb = t.dtlb.filter (fun e => ! t.fenced' k va id e) ∧
      u.tlb = t.tlb.filter (fun e => ! t.fenced' k va id e) ∧ u.tlbLarge = t.tlbLarge.filter (fun e => ! t.fenced' k va id e) ∧
      u.walk = t.walk.filter (fun e => ! t.fencedWalk k va id e) ∧ t.GoesOn (u.translatesAs t) [] := by
  unfold Hart.vmaFence at hu
  simp only [hbar, ← hva, ← hid] at hu
  rw [Hart.retire_translations hstep rfl] at hu
  have hback : u.translatesAs t = t.retire 4 := by
    rw [hu]
    exact Hart.translatesAs_retire hstep
  rw [hback, hu]
  exact ⟨rfl, rfl, rfl, rfl, rfl, Hart.goesOn_retire hstep⟩

theorem Hart.vmaFence_barred {t : Hart} {k : VmaFence} {x : Nat} (rs1 rs2 : Nat) (hbar : t.fenceBarred k = some x) :
    t.vmaFence k rs1 rs2 = t.trapDrained (Trap.exc x (vmaFenceBits k rs1 rs2)) := by
  unfold Hart.vmaFence
  rw [hbar]

theorem Hart.fenced'_whole (t : Hart) (k : VmaFence) (e : TlbEntry) : t.fenced' k none none e = t.wholeFence k e.stage e.vmid := by
  cases k with
  | sfenceVma => cases hv : t.virt <;> simp [Hart.fenced', Hart.wholeFence, hv]
  | hfenceVvma => simp [Hart.fenced', Hart.wholeFence]
  | hfenceGvma => simp [Hart.fenced', Hart.wholeFence]

theorem Hart.fencedWalk_whole (t : Hart) (k : VmaFence) (e : WalkEntry) : t.fencedWalk k none none e = t.wholeFence k e.stage e.vmid :=
  t.fenced'_whole k _

theorem Hart.fenced'_page {t : Hart} (hvirt : t.virt = false) (va id : Nat) (e : TlbEntry) : t.fenced' .sfenceVma (some va) (some id) e =
    (decide (e.stage = 0) && ! e.global && decide (e.asid = id % 2 ^ 16) &&
      decide (va / 4096 / 2 ^ (9 * e.level) = e.vpn / 2 ^ (9 * e.level))) := by
  simp [Hart.fenced', hvirt, Bool.and_assoc, Bool.and_comm, Bool.and_left_comm]

/-- R206: a fence for one address leaves the walk cache. -/
theorem Hart.fencedWalk_page (t : Hart) (k : VmaFence) (va : Nat) (id : Option Nat) (e : WalkEntry) : t.fencedWalk k (some va) id e = false := by
  simp [Hart.fencedWalk]

@[simp] theorem State.setLines_visible (s : State) (l : List CacheLine) : (s.setLines l).visible = s.visible := rfl

/-- R262: fence.i: the L1I copies of the hart go, and the hart goes on. -/
theorem State.Issues.turns_fenceI {s : State} {h : Nat} (hi : s.Issues h) :
    (s.setLines (s.memory.lines.filter (fun x => ! decide (x.cache = .l1i h)))).Turns (s.opFenceI h) h ((s.hart h).retire 4) := by
  have hvisible (l : List CacheLine) : (s.setLines l).visible.contains h = true := by rw [State.setLines_visible]; exact hi.visible
  unfold State.opFenceI
  rw [hi.instr]
  exact State.turns_modHart _ (hvisible _) rfl

/-! ### Scout -/

theorem State.cacheable_of_inMain {s : State} {a : Nat} (h : s.inMain a 1 = true) : s.cacheable a = true := by
  simp only [State.inMain, Nat.add_sub_cancel, Bool.and_self, Bool.or_eq_true] at h
  rcases h with (h | h) | h <;> simp [State.cacheable, h]

theorem State.lt_of_inMain {s : State} {a : Nat} (h : s.inMain a 1 = true) : a < 2 ^ 40 := by
  simp only [State.inMain, Nat.add_sub_cancel, Bool.and_self, Bool.or_eq_true, inBaseCamp, inMram, State.inDram, decide_eq_true_eq] at h
  have htop : s.dramTop ≤ 0x160000000 := by unfold State.dramTop; split <;> decide
  omega

/-- R197: an aligned load in machine mode from main memory that PMP permits: its address needs no translation. -/
theorem State.hartAddress_load {s : State} {h n : Nat} {m : AccessMode} {va : DWord} (hpriv : m.priv = 3) (hkind : m.kind = .load)
    (hmain : s.inMain va.toNat 1 = true) (halign : va.toNat % n = 0) (hpmp : (s.hart h).pmpOk .load 3 va.toNat = true) :
    s.hartAddress h m va n none = (s, .ok (va.toNat, 0)) := by
  have hx : s.hartXlate h m va.toNat = (s, .ok (va.toNat, 0)) := by
    simpa [State.hartXlate, hpriv] using State.lt_of_inMain hmain
  have hmay : s.mayAccess h m va.toNat = true := by
    simp [State.mayAccess, hkind, hpriv, hpmp, State.pmaOk, State.mainMemory, State.cacheable_of_inMain hmain]
  simp [State.hartAddress, halign, hx, hmay]

namespace Hart.OnlyCsrs
variable {t u v : Hart} {p : DWord} {c : Option Scout} (h : t.OnlyCsrs u countingCsrs)
include h

/-- An event is counted as a Scout run starts or changes. -/
theorem scout (hv : v = { u with scout := c }) :
    v.scout = c ∧ (∀ n, n ∉ countingCsrs → v.csrRaw n = t.csrRaw n) ∧ v = { t with csr := v.csr, scout := v.scout } := by
  obtain ⟨hcsr, hrest⟩ := h
  subst hv
  exact ⟨rfl, hcsr, by rw [hrest]⟩

/-- … and the pc moves on. -/
theorem scout_pc (hv : v = { u with pc := p, scout := c }) :
    v.pc = p ∧ v.scout = c ∧ (∀ n, n ∉ countingCsrs → v.csrRaw n = t.csrRaw n) ∧
      v = { t with pc := v.pc, csr := v.csr, scout := v.scout } := by
  obtain ⟨hcsr, hrest⟩ := h
  subst hv
  exact ⟨rfl, rfl, hcsr, by rw [hrest]⟩

end Hart.OnlyCsrs

/-- R232: a load of machine mode that misses the L2 starts a run: the checkpoint, the INV tag, and the pc behind the load. -/
theorem State.Issues.turns_scoutEntry {s : State} {h : Nat} (hi : s.Issues h) {rd rs1 : Fin 32} {signed : Bool} {z : Size} {imm : BitVec 12}
    {va : DWord} (hva : (s.hart h).xr rs1.val + imm.signExtend 64 = va) (hpriv : (s.hart h).priv = 3)
    (hmprv : (s.hart h).csrBit 0x300 17 = false) (hload : signed = true ∨ z ≠ .d) (hon : (s.hart h).scoutEnabled = true)
    (halign : va.toNat % sizeLen z = 0) (hmain : s.inMain va.toNat 1 = true) (hpmp : (s.hart h).pmpOk .load 3 va.toNat = true)
    (htrig : (s.hart h).trigFired 0 va.toNat = []) (hmiss : s.lineIn (.l2 h) (lineOf va.toNat) = none) :
    s.Turns (s.opScoutEntry h (.load rd false signed z rs1 imm) false) h
      { (s.hart h).count 0x0E (s.hart h).priv (s.hart h).virt with
        pc := (s.hart h).pc + 4#64,
        scout := some ⟨(s.hart h).pc, (s.hart h).x, (s.hart h).f, 0, 0, false, if rd = 0 then 0 else 2 ^ rd.val, []⟩ } := by
  have haccess : (s.hart h).accessVa (.load rd false signed z rs1 imm) = va := by simp [Hart.accessVa, accessBase, hva]
  have hnamed : accessNamed (.load rd false signed z rs1 imm) false = true := by
    rcases hload with h1 | h1 <;> simp [accessNamed, accessExists, h1]
  have hmode : ((s.hart h).modeOf (.load rd false signed z rs1 imm) false).priv = 3 := by
    have hbit : ((s.hart h).csrRaw 0x300).toNat.testBit 17 = false := hmprv
    simp [Hart.modeOf, Hart.accessMode, hbit, hpriv]
  have hmissed : s.scoutMiss h (.load rd false signed z rs1 imm) false = some s := by
    have haddress := State.hartAddress_load (m := (s.hart h).modeOf (.load rd false signed z rs1 imm) false) hmode rfl hmain halign hpmp
    unfold State.scoutMiss
    simp [haccess, accessLen, haddress, State.cacheable_of_inMain hmain, hmiss]
  obtain ⟨hlive, -, hwfi, hscout, -, hlou, hfetch⟩ := id hi
  unfold State.opScoutEntry
  simp only [loadDest, hlive, Bool.not_true, hi.not_debug, Bool.or_self, hwfi, hscout, Option.isSome_none, hon, hlou, Hart.louDue_of_empty,
    hnamed, Hart.accessBarred, Hart.awaits, List.any_nil, hfetch, List.isEmpty_nil, Hart.accessTriggers, haccess, htrig, Bool.false_eq_true,
    if_false, hmissed, Fin.val_eq_zero_iff]
  exact s.turns_modHart hi.visible (by rw [((s.hart h).onlyCsrs_count 0x0E _ _).2]; rfl)

theorem State.opScoutEntry_off (s : State) {h : Nat} {a : HartAccess} {compressed : Bool}
    (hoff : (s.hart h).scoutEnabled = false ∨ loadDest a = none ∨ s.hartLive h = false) : s.opScoutEntry h a compressed = s := by
  unfold State.opScoutEntry
  cases hdest : loadDest a with
  | none => rfl
  | some d =>
    have hoff' : (s.hart h).scoutEnabled = false ∨ s.hartLive h = false := by simpa [hdest] using hoff
    rcases hoff' with hoff' | hoff' <;> simp [hoff']

/-- R233, R234: a limit ends issue, and is counted. -/
theorem State.turns_scoutLimit {s : State} {h : Nat} {c : Scout} (hlive : s.hartLive h = true) (hscout : (s.hart h).scout = some c)
    (hissues : c.stopped = false) (cycles : Bool) :
    s.Turns (s.opScoutLimit h cycles) h
      { (s.hart h).count 0x12 (s.hart h).priv (s.hart h).virt with
        scout := some (if cycles then { c with cycles := (s.hart h).gov 0x7C0 / 2 ^ 20 % 1024, stopped := true }
          else { c with insns := (s.hart h).gov 0x7C0 / 2 ^ 8 % 1024, stopped := true }) } := by
  simp only [State.opScoutLimit, hscout, hlive, hissues, Bool.not_true, Bool.or_self, Bool.false_eq_true, if_false]
  exact s.turns_modHart (s.visible_of_live hlive) rfl

theorem Hart.scoutRestore_eq {t : Hart} {c : Scout} (h : t.scout = some c) :
    t.scoutRestore = { t with pc := c.pc, x := c.x, f := c.f, scout := none } := by
  simp only [Hart.scoutRestore, h]

/-- R234: the run ends, and a halt follows where a debugger has asked for one. -/
theorem State.turns_scoutEnd {s : State} {h : Nat} {c : Scout} {k : ScoutEnd} {v : Hart} (hlive : s.hartLive h = true)
    (hscout : (s.hart h).scout = some c) (hpending : k = .interrupt → s.localPending h = true)
    (hv : (if k = .halt then (s.hart h).scoutRestore.halt 3 else (s.hart h).scoutRestore) = v) : s.Turns (s.opScoutEnd h k) h v := by
  have hcond : (! s.hartLive h || (s.hart h).scout.isNone || (decide (k = .interrupt) && ! s.localPending h)) = false := by
    simpa [hlive, hscout] using hpending
  simp only [State.opScoutEnd, hcond, Bool.false_eq_true, if_false]
  exact s.turns_modHart (s.visible_of_live hlive) hv

/-- Debug mode is entered with dpc and the cause in dcsr. -/
theorem Hart.enterDebug_spec (t : Hart) {cause : Nat} (hc : cause < 8) :
    (t.enterDebug cause).csrRaw 0x7B1 = t.pc ∧ Bits.get ((t.enterDebug cause).csrRaw 0x7B0) 6 3 = cause := by
  have hcsr (n : Nat) : (t.enterDebug cause).csrRaw n = ((t.endWindows.setCsr 0x7B0 (Bits.put (Bits.put (Bits.put (t.csrRaw 0x7B0) 6 3 cause)
    5 1 (b2n t.virt)) 0 2 t.priv)).setCsr 0x7B1 t.pc).csrRaw n := rfl
  refine ⟨by simp [hcsr], ?_⟩
  rw [hcsr, Hart.csrRaw_setCsr_ne _ _ (by decide), Hart.csrRaw_setCsr_same, Bits.get_put_ne _ _ _ _ _ _ (by omega),
    Bits.get_put_ne _ _ _ _ _ _ (by omega), Bits.get_put _ _ _ _ (by omega), Nat.mod_eq_of_lt (by omega)]

theorem Hart.halt_of_idle {t : Hart} (hwfi : t.wfi = false) (hlou : t.lou = []) (cause : Nat) : t.halt cause = t.enterDebug cause := by
  simp [Hart.halt, hwfi, hlou]

/-! ### Counters -/

theorem Hart.csrBit_putCsr_one (t : Hart) (n : Nat) {i : Nat} (hi : i < 64) : (t.putCsr n i 1 1).csrBit n i = true := by
  have h := Bits.getLsbD_put (t.csrRaw n) i 1 1 i hi
  simp only [Hart.csrBit, Hart.putCsr, Hart.csrRaw_setCsr_same]
  simpa [BitVec.getLsbD] using h

theorem Hart.csrBit_setCsr_ne (t : Hart) {n m : Nat} (i : Nat) (w : DWord) (h : m ≠ n) : (t.setCsr n w).csrBit m i = t.csrBit m i := by
  rw [Hart.csrBit, Hart.csrRaw_setCsr_ne t w h]
  rfl

/-- R326: hpm counter `n` is 0, OF is set, and LCOFI too where OF was 0. -/
theorem Hart.counterWrap_spec (t : Hart) {n : Nat} (hn : n < 32) :
    (t.counterWrap n).csrRaw (0xB00 + n) = 0#64 ∧ (t.counterWrap n).csrBit (0x320 + n) 63 = true ∧
      (t.counterWrap n).csrBit 0x344 13 = (! t.csrBit (0x320 + n) 63 || t.csrBit 0x344 13) := by
  have hcounter (u : Hart) (m i w : Nat) (hm : 0xB00 + n ≠ m) : (u.putCsr m i 1 w).csrRaw (0xB00 + n) = u.csrRaw (0xB00 + n) :=
    u.csrRaw_setCsr_ne _ hm
  cases hof : t.csrBit (0x320 + n) 63 with
  | true =>
    simp only [Hart.counterWrap, hof, if_true]
    refine ⟨?_, Hart.csrBit_putCsr_one _ _ (by omega), ?_⟩
    · rw [hcounter _ _ _ _ (by omega), Hart.csrRaw_setCsr_same]
    · rw [Hart.putCsr, Hart.csrBit_setCsr_ne _ _ _ (by omega), Hart.csrBit_setCsr_ne _ _ _ (by omega)]
      rfl
  | false =>
    simp only [Hart.counterWrap, hof, Bool.false_eq_true, if_false]
    refine ⟨?_, ?_, Hart.csrBit_putCsr_one _ _ (by omega)⟩
    · rw [hcounter _ _ _ _ (by omega), hcounter _ _ _ _ (by omega), Hart.csrRaw_setCsr_same]
    · rw [Hart.putCsr, Hart.csrBit_setCsr_ne _ _ _ (by omega)]
      exact Hart.csrBit_putCsr_one _ _ (by omega)

theorem State.opCounterWrap_stands (s : State) (h : Nat) {n : Nat} (hstands : (s.hart h).stopsCount = true ∨ n < 3 ∨ 10 < n) :
    s.opCounterWrap h n = s := by
  unfold State.opCounterWrap
  rcases hstands with hstands | hstands <;> simp [hstands]

theorem State.turns_counterWrap {s : State} {h n : Nat} (hvisible : s.visible.contains h = true) (hrun : (s.hart h).running = true)
    (hlow : 3 ≤ n) (hhigh : n ≤ 10) (hcounts : (s.hart h).stopsCount = false) : s.Turns (s.opCounterWrap h n) h ((s.hart h).counterWrap n) := by
  have hn : ¬ (n < 3 ∨ 10 < n) := by omega
  simp only [State.opCounterWrap, hvisible, hrun, hcounts, hn, Bool.not_true, decide_false, Bool.or_self, Bool.false_eq_true, if_false]
  exact s.turns_modHart hvisible rfl

/-! ### The statement -/

section
variable {s : State} {h : Fin 4} (hi : s.Issues h.val)
include hi

theorem State.Issues.exec_vendorCsrWrite (c : VendorCsr) (op : CsrOp) (src : CsrSrc) (rd : Fin 32) :
    ∃ t, exec (.vendorCsrWrite h c op src rd) s = .next t ∧
      s.Turns t h.val ((s.hart h.val).vendorCsr c op src rd.val (s.csrRead h.val (vendorNum c))) := ⟨_, rfl, hi.turns_instr _ _ rfl⟩

theorem State.Issues.exec_settlingEnd (pc : DWord) : ∃ t, exec (.settlingEnd h pc) s = .next t ∧ s.Turns t h.val ((s.hart h.val).settle pc) :=
  ⟨_, rfl, hi.turns_instr _ _ rfl⟩

theorem State.Issues.exec_sfenceVma (k : VmaFence) (rs1 rs2 : Fin 32) : ∃ t, exec (.sfenceVma h k rs1 rs2) s = .next t ∧
    s.Turns t h.val ((s.hart h.val).vmaFence k rs1.val rs2.val) := ⟨_, rfl, hi.turns_instr _ _ rfl⟩

theorem State.Issues.exec_fence (pred succ : Fin 16) :
    ∃ t, exec (.fence h pred succ) s = .next t ∧ s.Turns t h.val ((s.hart h.val).retire 4) :=
  ⟨_, rfl, hi.turns_instr _ _ rfl⟩

end

/-- Settles O21: an instruction of a hart that issues acts on that hart alone, and its checker follows (`State.Issues.turns_instr`); what becomes
of the hart is said for each instruction above. -/
theorem hartStateFencesAndScout : Obligations.HartStateFencesAndScout := by
  unfold Obligations.HartStateFencesAndScout
  refine ⟨?vendorWrite, ?vendorRead, ?vendorView, ?vendorBarred, ?settlingEnd, ?wfiWaits, ?wfiAwake, ?wfiBarred, ?fenceWhole, ?fencePage,
    ?fenceBarred, ?fence, ?fenceI, ?scoutEntry, ?scoutOff, ?limitInsns, ?limitCycles, ?scoutEnd, ?scoutHalt, ?counterWraps, ?counterStands⟩
  case vendorWrite =>
    intro s h c op src rd v hi hbar hc hwin hnew
    obtain ⟨t, ht, honly, hhart⟩ := hi.exec_vendorCsrWrite c op src rd
    rw [s.csrRead_vendor h.val hc] at hhart
    have hm : vendorStore (vendorNum c) = vendorNum c := by cases c <;> simp_all [vendorNum, vendorStore]
    have hstores : (s.hart h.val).storesVendor c := by cases c <;> simp_all [Hart.storesVendor]
    obtain ⟨hold, hraw, hgov, hwindows, hpc, hx, hcsr, hframe⟩ := Hart.vendorCsr_write_spec hbar hi.not_stepping hstores hnew hwin hm hhart
    exact ⟨t, ht, honly, fun hrd => hold (Fin.val_ne_zero_iff.2 hrd), hraw, hgov, hwindows, hpc, fun q hq => hx q (Fin.val_ne_of_ne hq),
      fun n hn => hcsr n hn, hframe⟩
  case vendorRead =>
    intro s h c op src rd hi hbar hread
    obtain ⟨t, ht, honly, hhart⟩ := hi.exec_vendorCsrWrite c op src rd
    rw [Hart.vendorCsr_read _ hbar hi.not_stepping hread] at hhart
    refine ⟨t, ht, honly, fun hrd => ?_, hhart ▸ Hart.goesOn_retired_setX _ _ _⟩
    rw [hhart, Hart.xr_retired, Hart.xr_setX, if_pos ⟨rfl, Fin.val_ne_zero_iff.2 hrd⟩]
  case vendorView =>
    intro s h c op src rd v hi hbar hc hwin hmode hnew
    obtain ⟨t, ht, honly, hhart⟩ := hi.exec_vendorCsrWrite c op src rd
    rw [s.csrRead_view h.val hc hmode] at hhart
    have hm : vendorStore (vendorNum c) = vendorNum c + 0x200 := by cases c <;> simp_all [vendorNum, vendorStore]
    have hstores : (s.hart h.val).storesVendor c := ⟨by rintro rfl; simp at hc, fun _ => hmode⟩
    obtain ⟨hold, hraw, -, hwindows, hpc, -, hcsr, -⟩ := Hart.vendorCsr_write_spec hbar hi.not_stepping hstores hnew hwin hm hhart
    exact ⟨t, ht, honly, fun hrd => hold (Fin.val_ne_zero_iff.2 hrd), hraw, hwindows, hpc, fun n hn => hcsr n hn⟩
  case vendorBarred =>
    intro s h c op src rd x hi hbar hto
    obtain ⟨t, ht, hturns⟩ := hi.exec_vendorCsrWrite c op src rd
    rw [Hart.vendorCsr_barred _ _ _ _ hbar] at hturns
    exact ⟨t, ht, hi.trapsM hto hturns⟩
  case settlingEnd =>
    intro s h pc w hi hwin hvalue hw
    obtain ⟨t, ht, honly, hhart⟩ := hi.exec_settlingEnd pc
    obtain ⟨hwindows, hgov, hpc, hminstret, hcsr, hframe⟩ := Hart.settle_spec hi.not_stepping hwin hvalue hw hhart
    exact ⟨t, ht, honly, hwindows, hgov, hpc, hminstret, fun n hn => hcsr n hn, hframe⟩
  case wfiWaits =>
    intro s h hi hbar hwake hlocal
    exact ⟨_, rfl, hi.turns_wfi_waits hbar hwake hlocal⟩
  case wfiAwake =>
    intro s h hi hbar hup
    obtain ⟨honly, hhart⟩ := hi.turns_wfi_awake hbar hup
    have hwfi : ((s.hart h.val).retire 4).wfi = (s.hart h.val).wfi := by rw [Hart.retire_frame hi.not_stepping]
    exact ⟨_, rfl, honly, hi.goesOn_retire hhart, (congrArg Hart.wfi hhart).trans (hwfi.trans hi.not_waiting)⟩
  case wfiBarred =>
    intro s h x hi hbar hto
    exact ⟨_, rfl, hi.trapsM hto (hi.turns_wfi_barred hbar)⟩
  case fenceWhole =>
    intro s h k hi hbar
    obtain ⟨t, ht, honly, hhart⟩ := hi.exec_sfenceVma k 0 0
    obtain ⟨hitlb, hdtlb, htlb, hlarge, hwalk, hgoes⟩ := Hart.vmaFence_spec (va := none) (id := none) hbar hi.not_stepping rfl rfl hhart
    simp only [Hart.fenced'_whole] at hitlb hdtlb htlb hlarge
    simp only [Hart.fencedWalk_whole] at hwalk
    exact ⟨t, ht, honly, hitlb, hdtlb, htlb, hlarge, hwalk, hgoes⟩
  case fencePage =>
    intro s h k rs1 rs2 hi hbar _ hvirt hk hrs1 hrs2
    subst hk
    obtain ⟨t, ht, honly, hhart⟩ := hi.exec_sfenceVma .sfenceVma rs1 rs2
    obtain ⟨-, hdtlb, -, -, hwalk, hgoes⟩ := Hart.vmaFence_spec hbar hi.not_stepping (if_neg (Fin.val_ne_zero_iff.2 hrs1)).symm
      (if_neg (Fin.val_ne_zero_iff.2 hrs2)).symm hhart
    simp only [reduceCtorEq, if_false, Hart.fenced'_page hvirt] at hdtlb
    simp only [Hart.fencedWalk_page, Bool.not_false, List.filter_true] at hwalk
    exact ⟨t, ht, honly, hdtlb, hwalk, hgoes⟩
  case fenceBarred =>
    intro s h k rs1 rs2 x hi hbar hto
    obtain ⟨t, ht, hturns⟩ := hi.exec_sfenceVma k rs1 rs2
    rw [Hart.vmaFence_barred _ _ hbar] at hturns
    exact ⟨t, ht, hi.trapsM hto hturns⟩
  case fence =>
    intro s h pred succ hi
    obtain ⟨t, ht, honly, hhart⟩ := hi.exec_fence pred succ
    refine ⟨t, ht, honly, hi.goesOn_retire hhart, ?_⟩
    rw [hhart, Hart.retire_frame hi.not_stepping]
    exact ⟨rfl, hi.empty⟩
  case fenceI =>
    intro s h hi
    obtain ⟨⟨hothers, hchecker, hrest⟩, hhart⟩ := hi.turns_fenceI
    exact ⟨_, rfl, hothers, hi.goesOn_retire hhart, hchecker, by rw [hrest]; rfl, by rw [hrest]; rfl⟩
  case scoutEntry =>
    intro s h rd rs1 signed z imm hi hpriv hmprv hload hon halign hmain hpmp htrig hmiss
    obtain ⟨honly, hhart⟩ := hi.turns_scoutEntry rfl hpriv hmprv hload hon halign hmain hpmp htrig hmiss
    exact ⟨_, rfl, honly, ((s.hart h.val).onlyCsrs_count 0x0E _ _).scout_pc hhart⟩
  case scoutOff =>
    intro s h a compressed hoff
    exact ⟨_, rfl, s.opScoutEntry_off hoff⟩
  case limitInsns =>
    intro s h c hlive hscout hissues
    obtain ⟨honly, hhart⟩ := State.turns_scoutLimit hlive hscout hissues false
    exact ⟨_, rfl, honly, ((s.hart h.val).onlyCsrs_count 0x12 _ _).scout hhart⟩
  case limitCycles =>
    intro s h c hlive hscout hissues
    obtain ⟨honly, hhart⟩ := State.turns_scoutLimit hlive hscout hissues true
    exact ⟨_, rfl, honly, ((s.hart h.val).onlyCsrs_count 0x12 _ _).scout hhart⟩
  case scoutEnd =>
    intro s h c k hlive hscout hk
    have hpending : k = .interrupt → s.localPending h.val = true := by rintro rfl; simpa using hk
    have hhalt : k ≠ .halt := by rintro rfl; simp at hk
    exact ⟨_, rfl, State.turns_scoutEnd hlive hscout hpending ((if_neg hhalt).trans (Hart.scoutRestore_eq hscout))⟩
  case scoutHalt =>
    intro s h c hlive hscout hlou hwfi
    have hrestored := Hart.scoutRestore_eq hscout
    have hhalt : (s.hart h.val).scoutRestore.halt 3 = (s.hart h.val).scoutRestore.enterDebug 3 :=
      Hart.halt_of_idle (by rw [hrestored]; exact hwfi) (by rw [hrestored]; exact hlou) 3
    obtain ⟨honly, hhart⟩ := State.turns_scoutEnd (k := .halt) hlive hscout nofun ((if_pos rfl).trans hhalt)
    obtain ⟨hdpc, hcause⟩ := (s.hart h.val).scoutRestore.enterDebug_spec (cause := 3) (by omega)
    refine ⟨_, rfl, honly, ?_⟩
    rw [hhart, hdpc, hcause, hrestored]
    exact ⟨rfl, rfl, rfl, rfl, rfl, rfl⟩
  case counterWraps =>
    intro s h n hvisible hrun hlow hhigh hcounts
    obtain ⟨honly, hhart⟩ := State.turns_counterWrap hvisible hrun hlow hhigh hcounts
    obtain ⟨hzero, hof, hlcofi⟩ := (s.hart h.val).counterWrap_spec n.isLt
    obtain ⟨hcsr, hframe⟩ := (s.hart h.val).onlyCsrs_counterWrap n.val
    rw [← hhart] at hzero hof hlcofi hcsr hframe
    exact ⟨_, rfl, honly, hzero, hof, hlcofi, fun m hm => hcsr m hm, hframe⟩
  case counterStands =>
    intro s h n hstands
    exact ⟨_, rfl, s.opCounterWrap_stands h.val hstands⟩

end Sys2Proof.Machine
end

section
/-! The arithmetic of the long operations (R236 to R238): the square root, the fields of a binary64 pattern, and the operands whose results are
exact. -/
namespace Sys2Proof.Machine

/-! ### The integer square root -/

/-- The search keeps the root between `r` and `r + 2 ^ b`. -/
theorem isqrtBits_spec (b n r : Nat) (hlow : r ^ 2 ≤ n) (hhigh : n < (r + 2 ^ b) ^ 2) :
    isqrtBits b n r ^ 2 ≤ n ∧ n < (isqrtBits b n r + 1) ^ 2 := by
  induction b generalizing r with
  | zero => exact ⟨hlow, hhigh⟩
  | succ b ih =>
    rw [isqrtBits]
    split
    next h =>
      have htop : r + 2 ^ b + 2 ^ b = r + 2 ^ (b + 1) := by ring
      exact ih _ (by rwa [pow_two]) (by rwa [htop])
    next h => exact ih _ hlow (by rw [pow_two]; omega)

/-- R236, R237: ISQRT is exact. -/
theorem isqrt64_spec (a : DWord) : (isqrt64 a).toNat ^ 2 ≤ a.toNat ∧ a.toNat < ((isqrt64 a).toNat + 1) ^ 2 := by
  have ha : a.toNat < 2 ^ 64 := a.isLt
  obtain ⟨hlow, hhigh⟩ := isqrtBits_spec 32 a.toNat 0 (Nat.zero_le _) ha
  have hroot : isqrtBits 32 a.toNat 0 < 2 ^ 64 := (Nat.le_self_pow two_ne_zero _).trans_lt (hlow.trans_lt ha)
  rw [isqrt64, BitVec.toNat_ofNat, Nat.mod_eq_of_lt hroot]
  exact ⟨hlow, hhigh⟩

/-! ### The division -/

/-- R236, R238: a division whose quotient has 64 bits. -/
theorem ldivu_of_lt {acc : BitVec 128} {a : DWord} (h : acc.toNat / 2 ^ 64 < a.toNat) :
    ldivu acc a = ⟨0, BitVec.ofNat 64 (acc.toNat / a.toNat), BitVec.ofNat 128 (acc.toNat % a.toNat)⟩ := by
  unfold ldivu
  dsimp only
  rw [if_neg (Nat.ne_zero_of_lt h), if_neg (Nat.not_le.2 h)]

theorem toNat_quotient {acc : BitVec 128} {a : DWord} (h : acc.toNat / 2 ^ 64 < a.toNat) :
    (BitVec.ofNat 64 (acc.toNat / a.toNat)).toNat = acc.toNat / a.toNat := by
  rw [BitVec.toNat_ofNat]
  exact Nat.mod_eq_of_lt (Nat.div_lt_of_lt_mul (Nat.lt_mul_of_div_lt h (by decide)))

/-! ### Fields of a binary64 pattern -/

section
variable {e f : Nat} (neg : Bool) (he : e < 2048) (hf : f < 2 ^ 52)
include he hf

theorem toNat_withSign : (withSign neg (e * 2 ^ 52 + f)).toNat = e * 2 ^ 52 + f + if neg then 2 ^ 63 else 0 := by
  rw [withSign, BitVec.toNat_ofNat]
  cases neg <;> simp only [if_true, Bool.false_eq_true, if_false] <;> omega

theorem f64exp_withSign : f64exp (withSign neg (e * 2 ^ 52 + f)) = e := by
  rw [f64exp, Bits.get, toNat_withSign neg he hf, Nat.shiftRight_eq_div_pow]
  cases neg <;> simp only [if_true, Bool.false_eq_true, if_false] <;> omega

theorem f64frac_withSign : f64frac (withSign neg (e * 2 ^ 52 + f)) = f := by
  rw [f64frac, Bits.get, toNat_withSign neg he hf, Nat.shiftRight_eq_div_pow]
  cases neg <;> simp only [if_true, Bool.false_eq_true, if_false] <;> omega

theorem f64neg_withSign : f64neg (withSign neg (e * 2 ^ 52 + f)) = neg := by
  rw [f64neg, toNat_withSign neg he hf, Nat.testBit_eq_decide_div_mod_eq]
  cases neg <;> simp only [if_true, Bool.false_eq_true, if_false, decide_eq_true_eq, decide_eq_false_iff_not] <;> omega

end

theorem withSign_false (p : Nat) : withSign false p = BitVec.ofNat 64 p := rfl

theorem f64frac_lt (a : DWord) : f64frac a < 2 ^ 52 := Bits.get_lt a 0 52

section
variable {a : DWord}

theorem f64nan_of_finite (h : f64exp a < 2047) : f64nan a = false := by simp [f64nan, Nat.ne_of_lt h]

theorem f64inf_of_finite (h : f64exp a < 2047) : f64inf a = false := by simp [f64inf, Nat.ne_of_lt h]

theorem f64zero_of_normal (h : f64exp a ≠ 0) : f64zero a = false := by simp [f64zero, h]

theorem f64mag_of_normal (h : f64exp a ≠ 0) : f64mag a = (2 ^ 52 + f64frac a, (f64exp a : Int) - 1075) := if_neg h

end

/-! ### FRCP -/

/-- The reciprocal of a significand of 53 bits, in units of 2 ^ -105, has 53 bits again, and fewer than 2 ^ 53 but for a power of two. -/
theorem reciprocal_bounds {f : Nat} (hf : f < 2 ^ 52) (h0 : f ≠ 0) : 2 ^ 52 ≤ 2 ^ 105 / (2 ^ 52 + f) ∧ 2 ^ 105 / (2 ^ 52 + f) < 2 ^ 53 := by
  constructor
  · rw [Nat.le_div_iff_mul_le (by omega)]
    omega
  · rw [Nat.div_lt_iff_lt_mul (by omega)]
    omega

/-- R237: the reciprocal of a normal operand whose reciprocal is normal: one of the two patterns around it, and exact for a power of two. -/
theorem frcp_of_normal {a : DWord} (hnormal : f64exp a ≠ 0) (hhigh : f64exp a < 2045) : ∃ c : Fin 2,
    frcp a = (0, withSign (f64neg a) ((2045 - f64exp a) * 2 ^ 52 + (2 ^ 105 / (2 ^ 52 + f64frac a) - 2 ^ 52) +
      (if f64frac a = 0 then 0 else c.val))) := by
  have hrange : ¬ (2045 < f64exp a ∨ (f64exp a = 2045 ∧ f64frac a ≠ 0)) := by omega
  have hf := f64frac_lt a
  refine ⟨⟨(Config.approx 8 a).toNat % 2, Nat.mod_lt _ two_pos⟩, ?_⟩
  unfold frcp
  simp only [f64nan_of_finite (hhigh.trans (by decide)), f64inf_of_finite (hhigh.trans (by decide)), f64zero_of_normal hnormal, hnormal, hrange,
    Bool.false_eq_true, if_false, false_and, ne_eq, not_false_eq_true, if_true]
  by_cases h0 : f64frac a = 0
  · have hpattern : (2045 + 0 - f64exp a + 1) * 2 ^ 52 = (2045 - f64exp a) * 2 ^ 52 + (2 ^ 105 / (2 ^ 52 + 0) - 2 ^ 52) + 0 := by omega
    rw [if_pos (by omega), if_pos h0, h0, hpattern]
  · obtain ⟨hlow, htop⟩ := reciprocal_bounds hf h0
    have hpattern : faithfulPattern ((2045 - f64exp a) * 2 ^ 52 + (2 ^ 105 / (2 ^ 52 + f64frac a) - 2 ^ 52)) (Config.approx 8 a).toNat =
        (2045 - f64exp a) * 2 ^ 52 + (2 ^ 105 / (2 ^ 52 + f64frac a) - 2 ^ 52) + (Config.approx 8 a).toNat % 2 := by
      unfold faithfulPattern infPat
      omega
    rw [if_neg (by omega), if_neg h0]
    simp only [Nat.add_zero, hpattern]

/-! ### FLOG2 -/

/-- R237: the logarithm of a power of two is exact. -/
theorem flog2_of_pow_two {e : Nat} (hlow : 1 ≤ e) (hhigh : e ≤ 2046) : flog2 (BitVec.ofNat 64 (e * 2 ^ 52)) =
    (0, if e = 1023 then 0#64 else withSign (decide (e < 1023)) (f64floor ((e : Int) - 1023).natAbs 0).1) := by
  have ha : BitVec.ofNat 64 (e * 2 ^ 52) = withSign false (e * 2 ^ 52 + 0) := by simp [withSign]
  have hexp : f64exp (BitVec.ofNat 64 (e * 2 ^ 52)) = e := by rw [ha, f64exp_withSign false (by omega) (by decide)]
  have hfrac : f64frac (BitVec.ofNat 64 (e * 2 ^ 52)) = 0 := by rw [ha, f64frac_withSign false (by omega) (by decide)]
  have hneg : f64neg (BitVec.ofNat 64 (e * 2 ^ 52)) = false := by rw [ha, f64neg_withSign false (by omega) (by decide)]
  have hmag := f64mag_of_normal (a := BitVec.ofNat 64 (e * 2 ^ 52)) (by omega)
  rw [hexp, hfrac] at hmag
  have hk : ((Nat.log2 (2 ^ 52 + 0) : Nat) : Int) + ((e : Int) - 1075) = (e : Int) - 1023 := by
    rw [Nat.add_zero, Nat.log2_two_pow]
    omega
  have hzero : ((e : Int) - 1023 = 0) = (e = 1023) := propext (by omega)
  have hsign : ((e : Int) - 1023 < 0) = (e < 1023) := propext (by omega)
  unfold flog2
  rw [f64nan_of_finite (by omega), f64zero_of_normal (by omega), f64inf_of_finite (by omega), hneg, hmag]
  simp only [Bool.false_eq_true, if_false, hk, hzero, hsign]
  rw [if_pos (by rw [Nat.add_zero, Nat.log2_two_pow])]

/-! ### FEXP2 -/

/-- R237: the power of an integer from -1,022 to 1,023 is exact: `m` is its exponent in the pattern. -/
theorem fexp2_of_int {a : DWord} {m : Nat} (hfinite : f64exp a < 2047) (hlow : 1 ≤ m) (hhigh : m ≤ 2046)
    (hvalue : (if f64neg a then -1 else 1) * (((f64mag a).1 * 2 ^ ((f64mag a).2 + 1074).toNat : Nat) : Int) =
      ((m : Int) - 1023) * ((2 ^ 1074 : Nat) : Int)) : fexp2 a = (0, BitVec.ofNat 64 (m * 2 ^ 52)) := by
  have hpos : 0 < ((2 ^ 1074 : Nat) : Int) := Int.natCast_pos.2 (pow_pos two_pos 1074)
  have hexponent : ((m : Int) - 1023 + 1023).toNat = m := by rw [sub_add_cancel, Int.toNat_natCast]
  unfold fexp2
  rw [f64nan_of_finite hfinite, f64inf_of_finite hfinite]
  dsimp only
  rw [hvalue]
  generalize ((2 ^ 1074 : Nat) : Int) = one at hpos
  have htop : ¬ 1024 * one ≤ ((m : Int) - 1023) * one := by nlinarith
  have hbottom : ¬ ((m : Int) - 1023) * one < -1022 * one := by nlinarith
  rw [if_neg (by decide), if_neg (by decide), if_neg htop, if_neg hbottom, Int.mul_ediv_cancel _ hpos.ne', Int.mul_emod_left,
    if_pos Int.toNat_zero, hexponent, withSign_false]

/-- R238: the power of a zero is 1, that of -infinity is 0, and that of infinity is infinity. -/
theorem fexp2_of_zero_or_inf {a : DWord} (h : f64zero a ∨ f64inf a) : fexp2 a =
    (0, if f64zero a then 0x3FF0000000000000#64 else if f64neg a then 0#64 else 0x7FF0000000000000#64) := by
  by_cases hzero : f64zero a
  · obtain ⟨hexp, hfrac⟩ : f64exp a = 0 ∧ f64frac a = 0 := by simpa [f64zero] using hzero
    have hmag : f64mag a = (0, -1074) := by rw [f64mag, if_pos hexp, hfrac]
    have hvalue : ((1023 : Nat) : Int) - 1023 = 0 := rfl
    rw [fexp2_of_int (m := 1023) (by omega) (by decide) (by decide) (by rw [hmag, hvalue, Nat.zero_mul, Nat.cast_zero, mul_zero, zero_mul]),
      if_pos hzero]
    rfl
  · have hinf : f64inf a := h.resolve_left hzero
    obtain ⟨-, hfrac⟩ : f64exp a = 2047 ∧ f64frac a = 0 := by simpa [f64inf] using hinf
    have hnan : f64nan a = false := by simp [f64nan, hfrac]
    unfold fexp2
    rw [hnan, if_neg hzero, hinf]
    rfl

/-- The pattern of a positive integer of at most 52 bits. -/
theorem f64floor_int {n : Nat} (hn : n.log2 < 52) : (f64floor n 0).1 = (n.log2 + 1023) * 2 ^ 52 + (n * 2 ^ (52 - n.log2) - 2 ^ 52) := by
  have hexp : ((n.log2 : Int) + 0 + 1023).toNat = n.log2 + 1023 := by omega
  unfold f64floor
  dsimp only
  rw [if_neg (Nat.not_le.2 hn), hexp]

/-- A positive integer of at most 52 bits, scaled to a significand of 53 bits. -/
theorem significand_bounds {n : Nat} (h1 : 1 ≤ n) (hn : n.log2 < 52) : 2 ^ 52 ≤ n * 2 ^ (52 - n.log2) ∧ n * 2 ^ (52 - n.log2) < 2 ^ 53 := by
  have hlow : 2 ^ n.log2 ≤ n := Nat.log2_self_le (by omega)
  have hhigh : n < 2 ^ (n.log2 + 1) := Nat.lt_log2_self
  have hscale : 2 ^ n.log2 * 2 ^ (52 - n.log2) = 2 ^ 52 := by rw [← pow_add]; congr 1; omega
  have hpos := Nat.two_pow_pos (52 - n.log2)
  rw [pow_succ] at hhigh
  constructor <;> nlinarith

/-- R237: the power of an integer other than 0. -/
theorem fexp2_of_floor {a : DWord} {neg : Bool} {n : Nat} (h1 : 1 ≤ n) (hhigh : n < 1024) (hlow : neg = true → n ≤ 1022)
    (ha : a = withSign neg (f64floor n 0).1) : fexp2 a = (0, BitVec.ofNat 64 ((if neg then 1023 - n else 1023 + n) * 2 ^ 52)) := by
  obtain ⟨hexponent, hfrom, hto⟩ : (if neg then -1 else 1) * (n : Int) = ((if neg then 1023 - n else 1023 + n : Nat) : Int) - 1023 ∧
      1 ≤ (if neg then 1023 - n else 1023 + n) ∧ (if neg then 1023 - n else 1023 + n) ≤ 2046 := by
    cases neg with
    | false => simp only [Bool.false_eq_true, if_false]; omega
    | true =>
      have := hlow rfl
      simp only [if_true]
      omega
  have hlog : n.log2 < 10 := (Nat.log2_lt (by omega)).2 hhigh
  obtain ⟨hbottom, htop⟩ := significand_bounds h1 (by omega)
  rw [f64floor_int (by omega)] at ha
  have hexp : f64exp a = n.log2 + 1023 := by rw [ha, f64exp_withSign neg (by omega) (by omega)]
  have hfrac : f64frac a = n * 2 ^ (52 - n.log2) - 2 ^ 52 := by rw [ha, f64frac_withSign neg (by omega) (by omega)]
  have hneg : f64neg a = neg := by rw [ha, f64neg_withSign neg (by omega) (by omega)]
  have hsignificand : 2 ^ 52 + f64frac a = n * 2 ^ (52 - n.log2) := by omega
  have hshift : ((f64exp a : Int) - 1075 + 1074).toNat = n.log2 + 1022 := by omega
  have hpow : n * 2 ^ (52 - n.log2) * 2 ^ (n.log2 + 1022) = n * 2 ^ 1074 := by
    have hexponent : 52 - n.log2 + (n.log2 + 1022) = 1074 := by omega
    rw [mul_assoc, ← pow_add, hexponent]
  refine fexp2_of_int (by omega) hfrom hto ?_
  rw [f64mag_of_normal (by omega), hneg]
  dsimp only
  rw [hsignificand, hshift, hpow, Nat.cast_mul, ← mul_assoc, hexponent]

end Sys2Proof.Machine
end

section
/-! Precise long operations (R239, R242): the hart behind one that completes, and the trap of one that faults. -/
namespace Sys2Proof.Machine

/-! ### The hand-over -/

/-- R239: the hart that has handed an operation over: the next entry is chosen, and the hand-over has counted. -/
def Hart.handed (t : Hart) : Hart := ({ t with louNext := (t.freeSlot + 1) % 8 } : Hart).count 0x0C t.priv t.virt

/-- R239: the entry of a precise operation, with the fault found in it. -/
def Hart.preciseEntry (t : Hart) (op : LongOp) (rd rs1 rs2 : Nat) (fault : Option Nat) : LouEntry :=
  ⟨t.freeSlot, op, t.xr rs1, t.xr rs2, rd, t.pc, t.priv, t.virt, true, fault⟩

section
variable (t : Hart)

theorem Hart.onlyCsrs_handed : ({ t with louNext := (t.freeSlot + 1) % 8 } : Hart).OnlyCsrs t.handed countingCsrs := Hart.onlyCsrs_count _ _ _ _

theorem Hart.handed_eq : t.handed = { t with csr := t.handed.csr, louNext := t.handed.louNext } := by rw [t.onlyCsrs_handed.2]

theorem Hart.csrRaw_handed {n : Nat} (h : n ∉ countingCsrs) : t.handed.csrRaw n = t.csrRaw n := t.onlyCsrs_handed.1 n h

theorem Hart.xr_handed (r : Nat) : t.handed.xr r = t.xr r := by rw [t.handed_eq]; rfl

theorem Hart.freeSlot_lt : t.freeSlot < 8 := by
  unfold Hart.freeSlot
  cases hslot : ((List.range 8).map fun k => (t.louNext + k) % 8).find? fun k => t.lou.all fun e => e.slot != k with
  | none => decide
  | some k =>
    obtain ⟨j, -, rfl⟩ := List.mem_map.1 (List.mem_of_find?_eq_some hslot)
    exact Nat.mod_lt _ (by decide)

end

/-- R242: a precise operation whose hart holds none is handed over at once. -/
theorem Hart.xoroud_of_precise {t : Hart} {op : LongOp} {rd rs1 rs2 : Nat} (hbar : t.xoroudBarred (op.fieldsOk rd rs1 rs2) = none)
    (hlou : t.lou = []) (hdepth : 0 < t.gov 0x7C1 / 2 ^ 8 % 16) : t.xoroud op rd rs1 rs2 = t.handOver op rd rs1 rs2 := by
  have hready : t.louBusy = false := by
    simp [Hart.louBusy, hlou]
    omega
  unfold Hart.xoroud
  rw [hbar]
  simp only [hlou, List.length_nil, Hart.completeWhile, Hart.louDue_of_empty hlou, Option.isSome_none, hready, Bool.false_eq_true, if_false]

section
variable {t : Hart} {op : LongOp} {rd rs1 rs2 : Nat} {r : LongResult} (hprec : (t.gov 0x7C1).testBit 1 = true)
  (hr : longOp op t.acc (t.xr rs1) (t.xr rs2) = r)
include hprec hr

/-- R242: the operation completes before anything else. -/
theorem Hart.handOver_completes (hcode : r.code = 0) :
    t.handOver op rd rs1 rs2 = { (if op.writesRd then t.handed.setX rd r.rd else t.handed) with acc := r.acc }.retire 4 := by
  subst hr
  unfold Hart.handOver
  simp only [hprec, hcode, Bool.not_true, Bool.false_eq_true, if_false, ne_eq, not_true_eq_false]
  rfl

/-- R242: the operation faults without an effect. -/
theorem Hart.handOver_faults (hcode : r.code ≠ 0) :
    t.handOver op rd rs1 rs2 = t.handed.deliver (t.preciseEntry op rd rs1 rs2 (some r.code)) := by
  subst hr
  unfold Hart.handOver
  simp only [hprec, hcode, Bool.not_true, Bool.false_eq_true, if_false, ne_eq, not_false_eq_true, if_true]
  rfl

end

/-! ### Completion -/

/-- A hart that goes on from where the operation was handed over goes on from where it issued. -/
theorem Hart.GoesOn.of_handed {t u : Hart} {acc : BitVec 128} {rds : List Nat} (h : ({ t.handed with acc := acc } : Hart).GoesOn u rds) :
    t.GoesOn u rds := by
  obtain ⟨hpc, hx, hcsr, hwindows, hgovern, hrest⟩ := h
  have heq := t.handed_eq
  have hxr (r : Nat) : ({ t.handed with acc := acc } : Hart).xr r = t.xr r := t.xr_handed r
  refine ⟨?_, fun r hr => (hx r hr).trans (hxr r), fun n hn => (hcsr n hn).trans (t.csrRaw_handed hn), ?_, ?_, ?_⟩
  · rw [hpc, heq]
  · rw [hwindows, heq]
    rfl
  · rw [hgovern, heq]
    rfl
  · rw [hrest, heq]

/-- R239, R242: what a precise operation without fault leaves. -/
theorem Hart.handOver_spec {t u : Hart} {op : LongOp} {rd rs1 rs2 : Nat} {r : LongResult} (hprec : (t.gov 0x7C1).testBit 1 = true)
    (hstep : t.stepping = false) (hr : longOp op t.acc (t.xr rs1) (t.xr rs2) = r) (hcode : r.code = 0) (hu : u = t.handOver op rd rs1 rs2) :
    u.lou = t.lou ∧ (op.writesRd = true → rd ≠ 0 → u.xr rd = r.rd) ∧ u.acc = r.acc ∧ t.GoesOn u (if op.writesRd then [rd] else []) := by
  rw [Hart.handOver_completes hprec hr hcode] at hu
  have heq := t.handed_eq
  have hidle : ({ t.handed with acc := r.acc } : Hart).stepping = false := by rw [heq]; exact hstep
  cases hw : op.writesRd with
  | true =>
    have hset : ({ t.handed.setX rd r.rd with acc := r.acc } : Hart) = ({ t.handed with acc := r.acc } : Hart).setX rd r.rd := by
      unfold Hart.setX
      split <;> rfl
    rw [hw, if_pos rfl, hset, Hart.retire_eq_retired (by rwa [Hart.setX_stepping])] at hu
    have hpc : (({ t.handed with acc := r.acc } : Hart).setX rd r.rd).pc = ({ t.handed with acc := r.acc } : Hart).pc := by rw [Hart.setX_eq]
    rw [hpc] at hu
    refine ⟨?_, fun _ hrd => ?_, ?_, ?_⟩
    · rw [hu, Hart.retired_eq, Hart.setX_eq, heq]
    · rw [hu, Hart.xr_retired, Hart.xr_setX, if_pos ⟨rfl, hrd⟩]
    · rw [hu, Hart.retired_eq, Hart.setX_eq]
    · rw [hu]
      exact (Hart.goesOn_retired_setX _ rd r.rd).of_handed
  | false =>
    rw [hw, if_neg Bool.false_ne_true] at hu
    refine ⟨?_, nofun, ?_, ?_⟩
    · rw [hu, Hart.retire_frame hidle, heq]
    · rw [hu, Hart.retire_frame hidle]
    · rw [hu]
      exact (Hart.goesOn_retire hidle).of_handed

/-! ### The fault -/

/-- R242: the record of a fault while none is recorded: CODE, PRECISE and the address of the instruction. -/
theorem Hart.recordFault_spec {t : Hart} {e : LouEntry} {code : Nat} (hfree : Bits.get (t.csrRaw 0x7C2) 0 3 = 0) (hslot : e.slot < 8)
    (hcode : code < 4) : t.OnlyCsrs (t.recordFault e code) [0x7C2, 0x7C3] ∧ Bits.get ((t.recordFault e code).csrRaw 0x7C2) 0 3 = code ∧
      (t.recordFault e code).csrBit 0x7C2 12 = e.precise ∧ (t.recordFault e code).csrRaw 0x7C3 = e.pc := by
  unfold Hart.recordFault
  rw [if_neg (not_not.2 hfree)]
  refine ⟨((Hart.OnlyCsrs.refl t _).setCsr (by simp)).setCsr (by simp), ?_, ?_, Hart.csrRaw_setCsr_same _ _ _⟩
  · rw [Hart.csrRaw_setCsr_ne _ _ (by decide), Hart.csrRaw_setCsr_same, Bits.get, BitVec.toNat_ofNat]
    omega
  · rw [Hart.csrBit, Hart.csrRaw_setCsr_ne _ _ (by decide), Hart.csrRaw_setCsr_same, BitVec.toNat_ofNat, Nat.testBit_eq_decide_div_mod_eq]
    cases e.precise with
    | true => exact decide_eq_true (by rw [b2n_true]; omega)
    | false => exact decide_eq_false (by rw [b2n_false]; omega)

/-- R204: what an exception that M-mode takes leaves, while no long operation is held. -/
theorem Hart.trap_exception_spec {t u : Hart} {c : Nat} {v : DWord} (hlou : t.lou = []) (hprog : t.prog = none) (hwfi : t.wfi = false)
    (hstep : t.stepping = false) (hto : t.exceptionTo c = 3) (hu : u = t.trap (Trap.exc c v)) :
    u.lou = [] ∧ u.csrRaw 0x341 = t.pc ∧ u.csrRaw 0x342 = BitVec.ofNat 64 c ∧ u.csrRaw 0x343 = v ∧ u.priv = 3 ∧ u.virt = false ∧
      u.pc = t.csrRaw 0x305 &&& ~~~ 3#64 ∧ t.Enters u trapCsrsM := by
  obtain ⟨w, ⟨hcsr, hrest⟩, htrap, h341, h342, h343⟩ := t.excepted.trapM_spec (Trap.exc c v)
  have he := t.excepted_eq
  have hpc : t.excepted.pc = t.pc := by rw [he]
  rw [← Hart.trapDrained_of_empty hlou, Hart.trapDrained_exception hlou hprog hstep hto, htrap, t.csrRaw_excepted (by decide)] at hu
  subst hu
  refine ⟨?_, h341.trans hpc, h342, h343, rfl, rfl, rfl, ?_⟩
  · rw [hrest, he]
    exact hlou
  · rw [hrest, he]
    exact ⟨rfl, rfl, fun n hn hc => (hcsr n hn).trans (t.csrRaw_excepted hc), by rw [hwfi]⟩

/-- R238: the CODE of a fault. -/
theorem longOp_code_le (op : LongOp) (acc : BitVec 128) (a b : DWord) : (longOp op acc a b).code ≤ 3 := by
  cases op with
  | ldivu => simp only [longOp, ldivu]; split_ifs <;> simp
  | frcp => simp only [longOp, frcp]; split_ifs <;> simp
  | flog2 => simp only [longOp, flog2]; split_ifs <;> simp
  | fexp2 => simp only [longOp, fexp2]; split_ifs <;> simp
  | isqrt | lmacu | lmacs | laccWr | laccRdlo | laccRdhi | crc32c => exact Nat.zero_le 3

/-- R242, R244: the hart that has recorded the fault of entry `e` and let the entry go, and has yet to take the trap. -/
def Hart.recorded (t : Hart) (e : LouEntry) : Hart :=
  (({ t with lou := t.lou.filter (fun x => x.slot != e.slot),
             louArmed := (t.lou.filter (fun x => x.slot != e.slot)).all (fun x => x.fault.isNone) } : Hart).count 0x0D e.priv e.virt).recordFault
    e (e.fault.getD 0)

theorem Hart.deliver_eq {t : Hart} (hprog : t.prog = none) (e : LouEntry) : t.deliver e = (t.recorded e).trap (Trap.exc 24 e.pc) := by
  have hrun : ¬ t.prog.isSome = true := by simp [hprog]
  exact if_neg hrun

/-- R242: it has counted the fault and recorded it, when no operation is held and none is recorded. -/
theorem Hart.recorded_spec {t : Hart} {e : LouEntry} (hlou : t.lou = []) (hfree : Bits.get (t.csrRaw 0x7C2) 0 3 = 0) (hslot : e.slot < 8)
    (hcode : e.fault.getD 0 < 4) : ({ t with louArmed := true } : Hart).OnlyCsrs (t.recorded e) (countingCsrs ++ [0x7C2, 0x7C3]) ∧
      Bits.get ((t.recorded e).csrRaw 0x7C2) 0 3 = e.fault.getD 0 ∧ (t.recorded e).csrBit 0x7C2 12 = e.precise ∧
      (t.recorded e).csrRaw 0x7C3 = e.pc := by
  have hbase : t.recorded e = (({ t with louArmed := true } : Hart).count 0x0D e.priv e.virt).recordFault e (e.fault.getD 0) := by
    simp [Hart.recorded, hlou]
  have hcount := Hart.onlyCsrs_count ({ t with louArmed := true } : Hart) 0x0D e.priv e.virt
  have hsr : (({ t with louArmed := true } : Hart).count 0x0D e.priv e.virt).csrRaw 0x7C2 = t.csrRaw 0x7C2 := hcount.1 _ (by decide)
  obtain ⟨honly, hrecord⟩ := Hart.recordFault_spec (by rw [hsr]; exact hfree) hslot hcode
  rw [hbase]
  exact ⟨(hcount.mono (by simp +contextual)).trans (honly.mono (by simp +contextual)), hrecord⟩

/-- R242: the hart that takes the trap of a precise operation is, but for the LOU, what counts and the record, the one that issued it. -/
theorem Hart.Enters.of_faulted {t w u : Hart} (hkept : ∀ n, n ∉ countingCsrs ++ [0x7C2, 0x7C3] → w.csrRaw n = t.csrRaw n)
    (heq : w = { t with csr := w.csr, louArmed := w.louArmed, louNext := w.louNext }) (h : w.Enters u trapCsrsM) :
    t.Enters u (trapCsrsM ++ [0x7C2, 0x7C3]) := by
  obtain ⟨hwindows, hgovern, hcsr, hrest⟩ := h
  refine ⟨hwindows, hgovern, fun n hn hc => ?_, ?_⟩
  · rw [List.mem_append, not_or] at hn
    exact (hcsr n hn.1 hc).trans (hkept n (by rw [List.mem_append, not_or]; exact ⟨hc, hn.2⟩))
  · rw [hrest, heq]

theorem Hart.exceptionTo_congr {t u : Hart} (c : Nat) (hpriv : u.priv = t.priv) (hvirt : u.virt = t.virt)
    (h302 : u.csrRaw 0x302 = t.csrRaw 0x302) (h602 : u.csrRaw 0x602 = t.csrRaw 0x602) : u.exceptionTo c = t.exceptionTo c := by
  unfold Hart.exceptionTo Hart.csrBit
  rw [hpriv, hvirt, h302, h602]

/-- R238, R242: what a precise operation that faults leaves, when M-mode takes its trap. -/
theorem Hart.handOver_fault_spec {t u : Hart} {op : LongOp} {rd rs1 rs2 : Nat} {r : LongResult} (hprec : (t.gov 0x7C1).testBit 1 = true)
    (hlou : t.lou = []) (hprog : t.prog = none) (hwfi : t.wfi = false) (hstep : t.stepping = false)
    (hr : longOp op t.acc (t.xr rs1) (t.xr rs2) = r) (hcode : r.code ≠ 0) (hfree : Bits.get (t.csrRaw 0x7C2) 0 3 = 0)
    (hto : t.exceptionTo 24 = 3) (hu : u = t.handOver op rd rs1 rs2) :
    u.lou = [] ∧ u.csrRaw 0x341 = t.pc ∧ u.csrRaw 0x342 = 24#64 ∧ u.csrRaw 0x343 = t.pc ∧ Bits.get (u.csrRaw 0x7C2) 0 3 = r.code ∧
      u.csrBit 0x7C2 12 = true ∧ u.csrRaw 0x7C3 = t.pc ∧ u.priv = 3 ∧ u.virt = false ∧ u.pc = t.csrRaw 0x305 &&& ~~~ 3#64 ∧
      t.Enters u (trapCsrsM ++ [0x7C2, 0x7C3]) := by
  have hle : r.code < 4 := hr ▸ Nat.lt_succ_of_le (longOp_code_le _ _ _ _)
  have hhanded := t.handed_eq
  have hrun : t.handed.prog = none := by rw [hhanded]; exact hprog
  have hheld : t.handed.lou = [] := by rw [hhanded]; exact hlou
  have hfree' : Bits.get (t.handed.csrRaw 0x7C2) 0 3 = 0 := by rw [t.csrRaw_handed (by decide)]; exact hfree
  rw [Hart.handOver_faults hprec hr hcode, Hart.deliver_eq hrun] at hu
  obtain ⟨⟨hcounted, hrest⟩, hcodeField, hprecise, hpcField⟩ :=
    Hart.recorded_spec (e := t.preciseEntry op rd rs1 rs2 (some r.code)) hheld hfree' t.freeSlot_lt hle
  generalize t.handed.recorded (t.preciseEntry op rd rs1 rs2 (some r.code)) = w at *
  have heq : w = { t with csr := w.csr, louArmed := w.louArmed, louNext := w.louNext } := by rw [hrest, hhanded]
  have hkept (n : Nat) (hn : n ∉ countingCsrs ++ [0x7C2, 0x7C3]) : w.csrRaw n = t.csrRaw n :=
    (hcounted n hn).trans (t.csrRaw_handed fun hc => hn (List.mem_append_left _ hc))
  have hto' : w.exceptionTo 24 = 3 :=
    (Hart.exceptionTo_congr 24 (by rw [heq]) (by rw [heq]) (hkept _ (by decide)) (hkept _ (by decide))).trans hto
  have hpc : w.pc = t.pc := by rw [heq]
  obtain ⟨hempty, h341, h342, h343, hpriv, hvirt, hvec, henters⟩ := Hart.trap_exception_spec (by rw [heq]; exact hlou)
    (by rw [heq]; exact hprog) (by rw [heq]; exact hwfi) (by rw [heq]; exact hstep) hto' hu
  rw [hkept _ (by decide)] at hvec
  obtain ⟨-, -, hcsr, -⟩ := id henters
  refine ⟨hempty, h341.trans hpc, h342, h343, ?_, ?_, ?_, hpriv, hvirt, hvec, henters.of_faulted hkept heq⟩
  · rw [hcsr _ (by decide) (by decide)]
    exact hcodeField
  · rw [Hart.csrBit, hcsr _ (by decide) (by decide)]
    exact hprecise
  · rw [hcsr _ (by decide) (by decide)]
    exact hpcField

/-! ### The instruction -/

theorem exec_xoroudCommand (op : LongOp) (h : Fin 4) (rd rs1 rs2 : Fin 32) (s : State) :
    exec (xoroudCommand op h rd rs1 rs2) s = .next (s.xoroud h.val op rd.val rs1.val rs2.val) := by cases op <;> rfl

section
variable {s : State} {h : Fin 4} (hp : s.IssuesPrecise h.val) {op : LongOp} {rd rs1 rs2 : Fin 32}
  (hbar : (s.hart h.val).xoroudBarred (op.fieldsOk rd.val rs1.val rs2.val) = none)
include hp hbar

/-- R242: a precise operation is handed over at once, and acts on its own hart alone. -/
theorem State.IssuesPrecise.turns_xoroud :
    s.Turns (s.xoroud h.val op rd.val rs1.val rs2.val) h.val ((s.hart h.val).handOver op rd.val rs1.val rs2.val) := by
  obtain ⟨hi, -, hdepth⟩ := hp
  exact hi.turns_instr _ _ (Hart.xoroud_of_precise hbar hi.empty hdepth)

/-- R239, R242: a precise operation without fault. -/
theorem State.IssuesPrecise.completes {r : LongResult}
    (hr : longOp op (s.hart h.val).acc ((s.hart h.val).xr rs1.val) ((s.hart h.val).xr rs2.val) = r) (hcode : r.code = 0) :
    ∃ t, exec (xoroudCommand op h rd rs1 rs2) s = .next t ∧ OnlyHart s t h.val ∧ (t.hart h.val).lou = [] ∧
      (op.writesRd = true → rd ≠ 0 → (t.hart h.val).xr rd.val = r.rd) ∧ (t.hart h.val).acc = r.acc ∧
      (s.hart h.val).GoesOn (t.hart h.val) (if op.writesRd then [rd.val] else []) := by
  obtain ⟨honly, hhart⟩ := hp.turns_xoroud hbar
  obtain ⟨hi, hprec, -⟩ := hp
  obtain ⟨hlou, hrd, hacc, hgoes⟩ := Hart.handOver_spec hprec hi.not_stepping hr hcode hhart
  exact ⟨_, exec_xoroudCommand op h rd rs1 rs2 s, honly, hlou.trans hi.empty, fun hw h0 => hrd hw (Fin.val_ne_zero_iff.2 h0), hacc, hgoes⟩

variable {v : DWord} {acc : BitVec 128}
  (hr : longOp op (s.hart h.val).acc ((s.hart h.val).xr rs1.val) ((s.hart h.val).xr rs2.val) = ⟨0, v, acc⟩)
include hr

/-- … that writes rd. -/
theorem State.IssuesPrecise.writes (hw : op.writesRd = true) : ∃ t, exec (xoroudCommand op h rd rs1 rs2) s = .next t ∧ OnlyHart s t h.val ∧
    (t.hart h.val).lou = [] ∧ (rd ≠ 0 → (t.hart h.val).xr rd.val = v) ∧ (t.hart h.val).acc = acc ∧
      (s.hart h.val).GoesOn (t.hart h.val) [rd.val] := by
  obtain ⟨t, ht, honly, hlou, hrd, hacc, hgoes⟩ := hp.completes hbar hr rfl
  rw [hw, if_pos rfl] at hgoes
  exact ⟨t, ht, honly, hlou, hrd hw, hacc, hgoes⟩

/-- … that leaves its result in ACC alone. -/
theorem State.IssuesPrecise.accumulates (hw : op.writesRd = false) : ∃ t, exec (xoroudCommand op h rd rs1 rs2) s = .next t ∧
    OnlyHart s t h.val ∧ (t.hart h.val).lou = [] ∧ (t.hart h.val).acc = acc ∧ (s.hart h.val).GoesOn (t.hart h.val) [] := by
  obtain ⟨t, ht, honly, hlou, -, hacc, hgoes⟩ := hp.completes hbar hr rfl
  rw [hw, if_neg Bool.false_ne_true] at hgoes
  exact ⟨t, ht, honly, hlou, hacc, hgoes⟩

end

/-- Settles O19: what a precise operation leaves is said once for all eleven (`State.IssuesPrecise.completes`, `Hart.handOver_fault_spec`), and
what each computes by the arithmetic of its own. -/
theorem xoroudResults : Obligations.XoroudResults := by
  unfold Obligations.XoroudResults
  refine ⟨?ldivu, ?isqrt, ?frcp, ?flog2, ?fexp2Special, ?fexp2Int, ?lmacu, ?lmacs, ?laccWr, ?laccRdlo, ?laccRdhi, ?crc32c, ?completes, ?faults⟩
  case ldivu =>
    intro s h rd rs1 hp hbar hlt
    obtain ⟨t, ht, honly, hlou, hrd, hrest⟩ := hp.writes (op := .ldivu) (rs2 := 0) hbar (ldivu_of_lt hlt) rfl
    exact ⟨t, ht, honly, hlou, fun h0 => (congrArg BitVec.toNat (hrd h0)).trans (toNat_quotient hlt), hrest⟩
  case isqrt =>
    intro s h rd rs1 hp hbar
    obtain ⟨t, ht, honly, hlou, hrd, hrest⟩ := hp.writes (op := .isqrt) (rs2 := 0) hbar rfl rfl
    exact ⟨t, ht, honly, hlou, fun h0 => (hrd h0).symm ▸ isqrt64_spec _, hrest⟩
  case frcp =>
    intro s h rd rs1 hp hbar hnormal hhigh
    obtain ⟨c, hc⟩ := frcp_of_normal hnormal hhigh
    obtain ⟨t, ht, honly, hlou, hrd, hrest⟩ := hp.writes (op := .frcp) (rs2 := 0) hbar (by rw [longOp, hc]) rfl
    exact ⟨t, ht, honly, hlou, fun h0 => ⟨c, hrd h0⟩, hrest⟩
  case flog2 =>
    intro s h rd rs1 e hp hbar hpow hlow hhigh
    exact hp.writes (op := .flog2) (rs2 := 0) hbar (by rw [longOp, hpow, flog2_of_pow_two hlow hhigh]) rfl
  case fexp2Special =>
    intro s h rd rs1 hp hbar hspecial
    exact hp.writes (op := .fexp2) (rs2 := 0) hbar (by rw [longOp, fexp2_of_zero_or_inf hspecial]) rfl
  case fexp2Int =>
    intro s h rd rs1 neg n hp hbar hlow hneg hint
    exact hp.writes (op := .fexp2) (rs2 := 0) hbar (by rw [longOp, fexp2_of_floor hlow n.isLt hneg hint]) rfl
  case lmacu =>
    intro s h rs1 rs2 hp hbar
    exact hp.accumulates (op := .lmacu) (rd := 0) hbar rfl rfl
  case lmacs =>
    intro s h rs1 rs2 hp hbar
    exact hp.accumulates (op := .lmacs) (rd := 0) hbar rfl rfl
  case laccWr =>
    intro s h rs1 rs2 hp hbar
    exact hp.accumulates (op := .laccWr) (rd := 0) hbar rfl rfl
  case laccRdlo =>
    intro s h rd hp hbar
    exact hp.writes (op := .laccRdlo) (rs1 := 0) (rs2 := 0) hbar rfl rfl
  case laccRdhi =>
    intro s h rd hp hbar
    exact hp.writes (op := .laccRdhi) (rs1 := 0) (rs2 := 0) hbar rfl rfl
  case crc32c =>
    intro s h rd rs1 rs2 hp hbar
    exact hp.writes (op := .crc32c) hbar rfl rfl
  case completes =>
    intro s h op rd rs1 rs2 hp hbar hcode
    exact hp.completes hbar rfl hcode
  case faults =>
    intro s h op rd rs1 rs2 hp hbar _ hcode hfree hto
    obtain ⟨honly, hhart⟩ := hp.turns_xoroud hbar
    obtain ⟨hi, hprec, -⟩ := hp
    obtain ⟨-, hprog, -⟩ := id hi
    exact ⟨_, exec_xoroudCommand op h rd rs1 rs2 s, honly,
      Hart.handOver_fault_spec hprec hi.empty hprog hi.not_waiting hi.not_stepping rfl hcode hfree hto hhart⟩

end Sys2Proof.Machine
end

section
/-! Memory in which nothing stored is wrong (R255, R256): what the operations of caches, targets and codewords come to there. -/
namespace Sys2Proof.Machine

/-! ### One step of a loop that acts -/

theorem forEach_succ (n : Nat) (f : Nat → State → State) (s : State) : forEach (n + 1) f s = f n (forEach n f s) := by
  simp [forEach, List.range_succ]

/-- A loop of which one step alone acts does what that step does. -/
theorem forEach_only {n k : Nat} {f : Nat → State → State} {s : State} (hk : k < n) (hbefore : ∀ i, i ≠ k → f i s = s)
    (hafter : ∀ i, i ≠ k → f i (f k s) = f k s) : forEach n f s = f k s := by
  induction n with
  | zero => exact absurd hk (Nat.not_lt_zero k)
  | succ n ih =>
    rw [forEach_succ]
    rcases Nat.lt_succ_iff_lt_or_eq.1 hk with hlt | rfl
    · rw [ih hlt, hafter n (Nat.ne_of_gt hlt)]
    · rw [forEach_eq_self fun i hi => hbefore i (Nat.ne_of_lt hi)]

theorem forAll_nil {α : Type} (f : α → State → State) (s : State) : forAll [] f s = s := rfl

theorem forAll_one {α : Type} (x : α) (f : α → State → State) (s : State) : forAll [x] f s = f x s := rfl

/-! ### Counters that stop, and corrected errors that Belay does not log -/

/-- R58: a counter with a saturation flag beside it in its register. -/
theorem State.fld_bumpSat (s : State) {f sat : Fld} (hfit : f.lo + f.width ≤ 64)
    (hsat : f.reg ≠ sat.reg ∨ f.lo + f.width ≤ sat.lo ∨ sat.lo + sat.width ≤ f.lo) :
    (s.bumpSat f sat).fld f = min (2 ^ f.width - 1) (s.fld f + 1) := by
  have hpos := Nat.two_pow_pos f.width
  have hbump : (s.bump f).fld f = min (2 ^ f.width - 1) (s.fld f + 1) := by
    rw [State.bump, State.bumpBy, State.fld_setFld _ _ _ hfit, satAdd_eq_min]
    exact Nat.mod_eq_of_lt (by omega)
  unfold State.bumpSat
  dsimp only
  split
  · rw [State.fld_setFld_ne _ _ _ _ hsat, hbump]
  · exact hbump

theorem State.bumpSat_rest (s : State) (f sat : Fld) : s.bumpSat f sat = { s with regs := (s.bumpSat f sat).regs } := by
  unfold State.bumpSat
  dsimp only
  split <;> rfl

/-- R570: an error that Belay does not log raises CE there, and nothing more. -/
theorem State.correctedInput_unlogged {s : State} (h : s.flag F.BELAY_CFG_LOG_CE = false) (f : FaultInput) :
    s.correctedInput f = s.raise P.BELAY E.BELAY_CE := by
  simp [State.correctedInput, h]

/-- Once an error has been counted, the event of Belay makes it a corrected one. -/
theorem State.corrected_raise {s u : State} {count : Fld} (hcount : u.fld count = min (2 ^ count.width - 1) (s.fld count + 1))
    (hreg : count.reg ≠ R.EVT_RAW P.BELAY) : s.Corrected (u.raise P.BELAY E.BELAY_CE) count :=
  ⟨(State.fld_raise_ne _ _ _ _ hreg).trans hcount, State.event_raise _ _ _ (by decide)⟩

/-! ### No wrong bit and no mark -/

theorem State.setFlips_same {s : State} {l : List EccFlip} (h : l = s.memory.flips) : s.setFlips l = s := by rw [h]; rfl

namespace State.StoredRight
variable {s : State} (hr : s.StoredRight)
include hr

theorem flips : s.memory.flips = [] := And.left hr
theorem poison : s.memory.poison = [] := And.left (And.right hr)
theorem linePoison : s.memory.linePoison = [] := And.right (And.right hr)

theorem setFlips_filter (p : EccFlip → Bool) : s.setFlips (s.memory.flips.filter p) = s :=
  State.setFlips_same (by rw [hr.flips, List.filter_nil])

theorem dropFlips (array unit w : Nat) : s.dropFlips array unit w = s := hr.setFlips_filter _

theorem rewritten (c : CacheId) (l : Nat) : s.rewritten c l = s := hr.setFlips_filter _

theorem marked (a : Nat) : s.marked a = false := by simp [State.marked, hr.poison]

theorem wrongBits (array unit w : Nat) (up : List Nat) : s.wrongBits array unit w up = up.foldl toggleBit [] := by
  simp [State.wrongBits, State.flipsAt, hr.flips]

theorem setHeldMarks_nil (l : Nat) : s.setHeldMarks l [] = s := by
  have hmarks : s.memory.linePoison.filter (fun w => lineOf w != l) ++ [] = s.memory.linePoison := by rw [hr.linePoison]; rfl
  rw [State.setHeldMarks, hmarks]

theorem leaveArray (c : CacheId) (l : Nat) (dirty : Bool) : s.leaveArray c l dirty = s := by
  simp [State.leaveArray, hr.rewritten, hr.flips, codewordsOf, forAll_nil]

/-- A copy that leaves an array leaves nothing else behind. -/
theorem dropLine (c : CacheId) (l : Nat) :
    s.dropLine c l = s.setLines (s.memory.lines.filter (fun x => ! decide (x.cache = c ∧ x.line = l))) := by
  have hset : (s.setLines (s.memory.lines.filter (fun x => ! decide (x.cache = c ∧ x.line = l)))).StoredRight := hr
  unfold State.dropLine
  rw [hr.leaveArray]
  dsimp only
  rw [hset.setHeldMarks_nil, ite_self]

theorem writtenLine (l : Nat) : s.writtenLine l = s := by
  obtain ⟨hf, hp, hl⟩ := hr
  have hsame : ({ s with memory := { s.memory with flips := [], poison := [] } } : State) = s := by rw [← hf, ← hp]
  have hclean : ((wordsOf l 64).any fun w => s.memory.linePoison.contains w) = false := by simp [hl]
  simp only [State.writtenLine, hf, hp, hclean, List.filter_nil, Bool.false_eq_true, if_false]
  exact hsame

/-! ### Codewords -/

/-- A codeword that reads as it was written. -/
theorem memWord_right (array w source : Nat) : s.memWord array w source [] = s := by
  simp [State.memWord, hr.wrongBits, hr.dropFlips]

/-- R255: one wrong bit is corrected. -/
theorem memWord_one (array w source b : Nat) : s.memWord array w source [b] = s.eccCorrected array 0 w source b false := by
  simp [State.memWord, hr.wrongBits, hr.dropFlips, hr.marked, toggleBit, State.secDed, State.flipsAt, hr.flips]

/-- R256: two wrong bits, outside the mask ROM, mark the word. -/
theorem memWord_two {array w : Nat} (source : Nat) {b c : Nat} (hbc : b ≠ c) (hrom : inRom w = false) :
    s.memWord array w source [b, c] = (s.mark w).eccReport array 0 w source false := by
  simp [State.memWord, hr.wrongBits, hr.dropFlips, hr.marked, toggleBit, State.secDed, State.flipsAt, hr.flips, hrom, Ne.symm hbc]

theorem memLine_right (array l source word : Nat) : s.memLine array l source word [] = s :=
  forEach_eq_self fun i _ => by rw [ite_self, hr.memWord_right]

theorem eccWord_right (array unit w source : Nat) : s.eccWord array unit w source [] = s := by
  simp [State.eccWord, hr.wrongBits, hr.dropFlips, hr.memWord_right]

end State.StoredRight

end Sys2Proof.Machine
end

section
/-! Lines that move between the caches and the memory behind them (R253, R257, R267) where nothing stored is wrong. -/
namespace Sys2Proof.Machine

/-! ### Where an address lies -/

theorem State.inDram_iff (s : State) (a : Nat) : s.inDram a = true ↔ 0x80000000 ≤ a ∧ a < s.dramTop := by simp [State.inDram]

theorem inBaseCamp_iff (a : Nat) : inBaseCamp a = true ↔ 0x01000000 ≤ a ∧ a < 0x01100000 := by simp [inBaseCamp]

theorem inMram_iff (a : Nat) : inMram a = true ↔ 0x08000000 ≤ a ∧ a < 0x08800000 := by simp [inMram]

theorem inRom_eq_false_iff (a : Nat) : inRom a = false ↔ 0x20000 ≤ a := by simp [inRom]

theorem State.not_inMram_of_inDram {s : State} {a : Nat} (h : s.inDram a = true) : inMram a = false := by
  rw [State.inDram_iff] at h
  rw [← Bool.not_eq_true, inMram_iff]
  omega

/-! ### Check blocks -/

/-- R267: nothing has changed but the check blocks held, what DMC_CHAN_STAT shows of them, and the free values taken for them. -/
structure State.ChecksOnly (s t : State) : Prop where
  keeps : KeepsRegs s t [R.DMC_CHAN_STAT]
  rest : t = { s with regs := t.regs, fresh := t.fresh, memory := { s.memory with checkBlocks := t.memory.checkBlocks } }

theorem State.ChecksOnly.memory {s t : State} (h : s.ChecksOnly t) :
    t.memory = { s.memory with checkBlocks := t.memory.checkBlocks } := congrArg State.memory h.rest

theorem State.checksOnly_setChecks (s : State) (l : List CheckBlock) : s.ChecksOnly (s.setChecks l) :=
  ⟨((KeepsRegs.refl s _).of_regs (t := s) (u := { s with memory := { s.memory with checkBlocks := l } }) rfl).setFlag (by decide), rfl⟩

theorem State.checksOnly_takeFree (s : State) : s.ChecksOnly s.takeFree.2 := ⟨fun _ _ => rfl, rfl⟩

theorem State.ChecksOnly.setChecks {s t : State} (h : s.ChecksOnly t) (l : List CheckBlock) : s.ChecksOnly (t.setChecks l) :=
  ⟨h.keeps.trans (t.checksOnly_setChecks l).keeps, by rw [(t.checksOnly_setChecks l).rest, h.rest]⟩

theorem State.checksOnly_touchCheck (s : State) (l : Nat) (write : Bool) : s.ChecksOnly (s.touchCheck l write) := by
  unfold State.touchCheck
  dsimp only
  split
  · exact s.checksOnly_setChecks _
  · split
    · exact s.checksOnly_setChecks _
    · split
      · exact s.checksOnly_takeFree.setChecks _
      · exact s.checksOnly_takeFree

/-! ### Copies of a line -/

theorem State.setLines_same (s : State) : s.setLines s.memory.lines = s := rfl

theorem State.mapLine_same {s : State} {l : Nat} {f : CacheLine → CacheLine} (h : ∀ x ∈ s.memory.lines, x.line = l → f x = x) :
    s.mapLine l f = s := by
  have hmap : s.memory.lines.map (fun x => if x.line = l then f x else x) = s.memory.lines := by
    refine (List.map_congr_left fun x hx => ?_).trans (List.map_id _)
    split
    · exact h x hx ‹_›
    · rfl
  rw [State.mapLine, hmap, State.setLines_same]

theorem State.serveLine_of_empty {s : State} (h : s.memory.dmc = []) (l : Nat) : s.serveLine l = s := by
  rw [State.serveLine, h]
  rfl

namespace State.StoredRight
variable {s : State} (hr : s.StoredRight)
include hr

theorem dropLine_absent {c : CacheId} (hno : ∀ x ∈ s.memory.lines, x.cache ≠ c) (l : Nat) : s.dropLine c l = s := by
  have hall : s.memory.lines.filter (fun x => ! decide (x.cache = c ∧ x.line = l)) = s.memory.lines :=
    List.filter_eq_self.2 fun x hx => by simp [hno x hx]
  rw [hr.dropLine, hall, State.setLines_same]

/-- A hart whose L1s hold no line has none to give up. -/
theorem dropL1_absent {h : Nat} (hd : ∀ x ∈ s.memory.lines, x.cache ≠ .l1d h) (hi : ∀ x ∈ s.memory.lines, x.cache ≠ .l1i h) (l : Nat) :
    s.dropL1 h l = s := by
  have hnone : s.lineIn (.l1d h) l = none := List.find?_eq_none.2 fun x hx => by simp [hd x hx]
  have hclean : s.dirtyIn (.l1d h) l = false := by rw [State.dirtyIn, hnone]
  rw [State.dropL1, hclean]
  dsimp only [State.when]
  rw [if_neg Bool.false_ne_true, hr.dropLine_absent hd, hr.dropLine_absent hi]
  exact State.mapLine_same fun x _ _ => if_neg fun hx => Bool.false_ne_true hx.2

/-- R253: a dirty line of DRAM goes home and stays held clean. -/
theorem writeBack_dram {l : Nat} (hdmc : s.memory.dmc = []) (hdirty : s.lineDirty l = true) (hdram : s.inDram l = true) :
    s.writeBack l = ((s.mapLine l (fun x => { x with dirty := false })).dropStale l).touchCheck l true := by
  have hleft : forAll (s.memory.lines.filter (fun x => x.line == l && x.dirty)) (fun x t => t.leaveArray x.cache l true) s = s :=
    List.foldlRecOn (motive := fun t => t = s) _ _ rfl fun _ ht _ _ => ht ▸ hr.leaveArray _ _ _
  have hmapped : (s.mapLine l (fun x => { x with dirty := false })).StoredRight := hr
  have hhome : (((s.mapLine l (fun x => { x with dirty := false })).writtenLine l).dropStale l).inDram l = true := by
    rw [hmapped.writtenLine]
    exact hdram
  unfold State.writeBack
  dsimp only
  rw [hdirty, State.serveLine_of_empty hdmc, hleft, State.not_inMram_of_inDram hdram]
  simp only [Bool.not_true, Bool.false_eq_true, if_false, State.when]
  rw [hmapped.writtenLine]
  exact if_pos hdram

theorem passToL3_dirty {h l : Nat} (hdirty : s.dirtyIn (.l2 h) l = true) :
    s.passToL3 h l = s.mapLine l (fun x => { x with dirty := decide (x.cache = .l3) }) := by
  rw [State.passToL3, hdirty, hr.leaveArray, hr.rewritten]
  rfl

end State.StoredRight

theorem State.writeBack_clean {s : State} {l : Nat} (h : s.lineDirty l = false) : s.writeBack l = s := by simp [State.writeBack, h]

end Sys2Proof.Machine
end

section
/-! L3 maintenance and snoops (R257, R258, R288) where nothing stored is wrong. -/
namespace Sys2Proof.Machine

/-! ### An operation of L3_MAINT ends -/

/-- R288: the operation under way is over. -/
def State.maintEnded (s : State) : State :=
  (({ s with memory := { s.memory with maint := none } } : State).setFld F.L3_MAINT_BUSY 0).raise P.L3 E.L3_MAINT_DONE

section
variable (s : State)

theorem State.busy_maintEnded : s.maintEnded.flag F.L3_MAINT_BUSY = false := by
  rw [State.maintEnded, State.flag_raise_ne _ _ _ _ (by decide), State.flag, State.fld_setFld _ _ _ (by decide)]
  rfl

theorem State.event_maintEnded : s.maintEnded.event P.L3 E.L3_MAINT_DONE = true := State.event_raise _ _ _ (by decide)

theorem State.maintEnded_keepsRegs : KeepsRegs s s.maintEnded [R.L3_MAINT, R.EVT_RAW P.L3] :=
  (((KeepsRegs.refl s _).of_regs (t := s) (u := { s with memory := { s.memory with maint := none } }) rfl).setFld (by decide)).raise (by decide)

variable {s}

theorem State.maintDone_of_none (h : s.memory.maint = none) : s.maintDone = s := by rw [State.maintDone, h]

/-- R288: a clean writes back the one line that the L3 holds dirty. -/
theorem State.maintDone_clean {ways : Nat} {x : CacheLine} (hrun : s.fabricRuns = true) (hmaint : s.memory.maint = some (1, ways))
    (hlines : s.memory.lines = [x]) (hl3 : x.cache = .l3) (hdirty : x.dirty = true) : s.maintDone = (s.writeBack x.line).maintEnded := by
  simp [State.maintDone, hmaint, hrun, hlines, hl3, hdirty, forAll_one, State.maintEnded]

/-- R288: a flush takes the one line that the L3 holds out of the ways it flushes. -/
theorem State.maintDone_flush {ways : Nat} {x : CacheLine} (hrun : s.fabricRuns = true) (hmaint : s.memory.maint = some (2, ways))
    (hlines : s.memory.lines = [x]) (hl3 : x.cache = .l3) :
    s.maintDone = (if ways.testBit x.way then s.dropL3 x.line else s).maintEnded := by
  by_cases hway : ways.testBit x.way <;>
    simp [State.maintDone, hmaint, hrun, hlines, hl3, hway, forAll_one, forAll_nil, State.maintEnded]

end

/-- Lines have moved, older bytes of them have gone home, and nothing else has changed but the check blocks. -/
def State.WentHome (s t : State) (ls : List CacheLine) (stale : List (Nat × Byte)) : Prop :=
  ({ s with memory := { s.memory with lines := ls, stale := stale } } : State).ChecksOnly t

namespace State.WentHome
variable {s t : State} {ls : List CacheLine} {stale : List (Nat × Byte)} (h : s.WentHome t ls stale)
include h

theorem memory : t.memory = { s.memory with lines := ls, stale := stale, checkBlocks := t.memory.checkBlocks } := State.ChecksOnly.memory h

theorem keeps : KeepsRegs s t [R.DMC_CHAN_STAT] := by
  obtain ⟨hkeeps, -⟩ := h
  exact hkeeps

theorem rest : t = { s with regs := t.regs, fresh := t.fresh, memory := t.memory } := by
  obtain ⟨-, hrest⟩ := h
  rw [hrest]

theorem storedRight (hr : s.StoredRight) : t.StoredRight := by
  rw [State.StoredRight, h.memory]
  exact hr

theorem setLines (ms : List CacheLine) : s.WentHome (t.setLines ms) ms stale := by
  obtain ⟨hkeeps, hrest⟩ := h
  exact ⟨hkeeps, by rw [hrest]; rfl⟩

/-- The one copy that such a move has left is dropped. -/
theorem dropLine {x : CacheLine} (hls : ls = [x]) (hr : s.StoredRight) : s.WentHome (t.dropLine x.cache x.line) [] stale := by
  have hkept : t.memory.lines = [x] := (congrArg MemState.lines h.memory).trans hls
  have hdropped : t.dropLine x.cache x.line = t.setLines [] := by
    rw [(h.storedRight hr).dropLine, hkept]
    simp
  exact hdropped ▸ h.setLines []

/-- R288: what such a move leaves at the end of the operation that made it. -/
theorem maintEnded : t.maintEnded.memory = { s.memory with maint := none, lines := ls, stale := stale, checkBlocks := t.maintEnded.memory.checkBlocks } ∧
    KeepsRegs s t.maintEnded [R.L3_MAINT, R.EVT_RAW P.L3, R.DMC_CHAN_STAT] ∧
      t.maintEnded = { s with regs := t.maintEnded.regs, memory := t.maintEnded.memory, fresh := t.maintEnded.fresh } := by
  refine ⟨?_, (h.keeps.mono (by decide)).trans (t.maintEnded_keepsRegs.mono (by decide)), ?_⟩
  · exact congrArg (fun m : MemState => { m with maint := none }) h.memory
  · rw [State.maintEnded, h.rest]
    rfl

end State.WentHome

/-- R253: the one copy of a line of DRAM, dirty, goes home and stays held clean. -/
theorem State.wentHome_writeBack {s : State} {x : CacheLine} (hsound : s.SoundMemory) (hlines : s.memory.lines = [x]) (hdirty : x.dirty = true)
    (hdram : s.inDram x.line = true) :
    s.WentHome (s.writeBack x.line) [{ x with dirty := false }] (s.dropStale x.line).memory.stale := by
  obtain ⟨hr, hdmc⟩ := hsound
  have hmapped : s.mapLine x.line (fun x => { x with dirty := false }) = s.setLines [{ x with dirty := false }] := by simp [State.mapLine, hlines]
  rw [hr.writeBack_dram hdmc (by simp [State.lineDirty, hlines, hdirty]) hdram, hmapped]
  exact State.checksOnly_touchCheck _ _ _

/-- R288: such a line leaves the L3. -/
theorem State.wentHome_dropL3 {s : State} {x : CacheLine} (hsound : s.SoundMemory) (hlines : s.memory.lines = [x]) (hl3 : x.cache = .l3)
    (hdirty : x.dirty = true) (hdram : s.inDram x.line = true) : s.WentHome (s.dropL3 x.line) [] (s.dropStale x.line).memory.stale := by
  have hhome := State.wentHome_writeBack hsound hlines hdirty hdram
  obtain ⟨hr, -⟩ := hsound
  have hin : s.dirtyIn .l3 x.line = true := by simp [State.dirtyIn, State.lineIn, hlines, hl3, hdirty]
  rw [State.dropL3, hin, if_pos rfl, ← hl3]
  exact hhome.dropLine (x := { x with dirty := false }) rfl hr

/-! ### The commands -/

section
variable {s : State} {l way ways : Nat} (hrun : s.fabricRuns = true) (hsound : s.SoundMemory)
include hrun hsound

theorem State.exec_maintDone_clean (hmaint : s.memory.maint = some (1, ways)) (hdram : s.inDram l = true)
    (hlines : s.memory.lines = [⟨.l3, l, .m, true, way⟩]) :
    ∃ t, exec .maintDone s = .next t ∧ t.flag F.L3_MAINT_BUSY = false ∧ t.event P.L3 E.L3_MAINT_DONE = true ∧
      t.memory = { s.memory with maint := none, lines := [⟨.l3, l, .m, false, way⟩], stale := (s.dropStale l).memory.stale,
                                 checkBlocks := t.memory.checkBlocks } ∧
      KeepsRegs s t [R.L3_MAINT, R.EVT_RAW P.L3, R.DMC_CHAN_STAT] ∧ t = { s with regs := t.regs, memory := t.memory, fresh := t.fresh } :=
  ⟨_, congrArg Host.Outcome.next (State.maintDone_clean hrun hmaint hlines rfl rfl), State.busy_maintEnded _, State.event_maintEnded _,
    (State.wentHome_writeBack hsound hlines rfl hdram).maintEnded⟩

theorem State.exec_maintDone_flush_clean_line (hmaint : s.memory.maint = some (2, ways)) (hlines : s.memory.lines = [⟨.l3, l, .e, false, way⟩]) :
    ∃ t, exec .maintDone s = .next t ∧ t.flag F.L3_MAINT_BUSY = false ∧ t.event P.L3 E.L3_MAINT_DONE = true ∧
      t.memory = { s.memory with maint := none, lines := if ways.testBit way then [] else s.memory.lines } ∧
      KeepsRegs s t [R.L3_MAINT, R.EVT_RAW P.L3] ∧ t = { s with regs := t.regs, memory := t.memory } := by
  obtain ⟨hr, -⟩ := hsound
  have hdropped : s.dropL3 l = s.setLines [] := by
    have hclean : s.dirtyIn .l3 l = false := by simp [State.dirtyIn, State.lineIn, hlines]
    rw [State.dropL3, hclean, if_neg Bool.false_ne_true, hr.dropLine, hlines]
    simp
  have hleft : (if ways.testBit way then s.dropL3 l else s) = s.setLines (if ways.testBit way then [] else s.memory.lines) := by
    rw [hdropped]
    split <;> rfl
  refine ⟨_, congrArg Host.Outcome.next (State.maintDone_flush hrun hmaint hlines rfl), State.busy_maintEnded _, State.event_maintEnded _, ?_⟩
  dsimp only
  rw [hleft]
  exact ⟨rfl, ((KeepsRegs.refl s _).of_regs (t := s) rfl).trans (State.maintEnded_keepsRegs _), rfl⟩

theorem State.exec_maintDone_flush_dirty_line (hmaint : s.memory.maint = some (2, ways)) (hway : ways.testBit way = true) (hdram : s.inDram l = true)
    (hlines : s.memory.lines = [⟨.l3, l, .m, true, way⟩]) :
    ∃ t, exec .maintDone s = .next t ∧ t.flag F.L3_MAINT_BUSY = false ∧ t.event P.L3 E.L3_MAINT_DONE = true ∧
      t.memory = { s.memory with maint := none, lines := [], stale := (s.dropStale l).memory.stale, checkBlocks := t.memory.checkBlocks } ∧
      KeepsRegs s t [R.L3_MAINT, R.EVT_RAW P.L3, R.DMC_CHAN_STAT] ∧ t = { s with regs := t.regs, memory := t.memory, fresh := t.fresh } := by
  have hdone := State.maintDone_flush hrun hmaint hlines rfl
  rw [if_pos hway] at hdone
  exact ⟨_, congrArg Host.Outcome.next hdone, State.busy_maintEnded _, State.event_maintEnded _,
    (State.wentHome_dropL3 hsound hlines rfl rfl hdram).maintEnded⟩

end

end Sys2Proof.Machine
end

section
/-! Snoops of a line that one L2 holds (R257, R258), where nothing stored is wrong. -/
namespace Sys2Proof.Machine

/-! ### The count of a snoop -/

section
variable (s : State) (h code : Nat)

@[simp] theorem State.countHart_memory : (s.countHart h code).memory = s.memory := by
  unfold State.countHart State.mirror
  split <;> simp

@[simp] theorem State.countHart_regs : (s.countHart h code).regs = s.regs := by
  unfold State.countHart State.mirror
  split <;> simp

@[simp] theorem State.countHart_code4G : (s.countHart h code).code4G = s.code4G := by
  unfold State.countHart State.mirror
  split <;> simp

end

/-- No other visible hart acts with a visible hart (R215). -/
theorem State.not_mem_pairOf {s : State} {h k : Nat} (hh : s.visible.contains h = true) (hk : s.visible.contains k = true) (hne : k ≠ h) :
    k ∉ s.pairOf h := by
  unfold State.visible at hh hk
  unfold State.pairOf
  split at hh <;> simp_all
  omega

theorem State.rest_of_harts {s u t : State} (hu : u = { s with harts := u.harts })
    (ht : t = { u with regs := t.regs, fresh := t.fresh, memory := t.memory }) :
    t = { s with regs := t.regs, harts := t.harts, fresh := t.fresh, memory := t.memory } := by
  rw [ht, hu]

/-- Lines that move once a visible hart has counted the snoop leave what R257 and R267 name. -/
theorem State.WentHome.onlyCaches {s t : State} {h code : Nat} {ls : List CacheLine} {stale : List (Nat × Byte)}
    (hhome : (s.countHart h code).WentHome t ls stale) (hv : s.visible.contains h = true) : s.OnlyCaches t := by
  obtain ⟨⟨hothers, -, honly⟩, hself⟩ := s.turns_modHart hv (f := fun t => t.count code t.priv t.virt) rfl
  have hrest := State.rest_of_harts (s := s) honly hhome.rest
  have hmemory := hhome.memory
  rw [State.countHart_memory] at hmemory
  have hhart (k : Nat) : t.hart k = (s.countHart h code).hart k := by rw [hhome.rest]; rfl
  refine ⟨fun k hk => ?_, ((KeepsRegs.refl s _).of_regs (s.countHart_regs h code)).trans hhome.keeps, ?_⟩
  · rw [hhart]
    rcases eq_or_ne k.val h with hkh | hne
    · rw [hkh]
      obtain ⟨hcsr, hcount⟩ := (s.hart h).onlyCsrs_count code (s.hart h).priv (s.hart h).virt
      exact hself ▸ ⟨hcsr, hcount⟩
    · exact ⟨fun n _ => congrArg (fun t => Hart.csrRaw t n) (hothers k (State.not_mem_pairOf hv hk hne)),
        hothers k (State.not_mem_pairOf hv hk hne) ▸ rfl⟩
  · have hfields : ({ s.memory with lines := t.memory.lines, stale := t.memory.stale, checkBlocks := t.memory.checkBlocks } : MemState) = t.memory := by
      rw [hmemory]
    rw [hfields]
    exact hrest

/-! ### What the snoop does to one L2 -/

/-- R257: the L2 of hart `h` answers a snoop of a line it holds. -/
def State.answersSnoop (s : State) (kind l h : Nat) : State :=
  if kind = 0 then
    let t := (s.dropL1 h l).mapLine l (fun x => if x.cache = .l2 h then { x with state := .s } else x)
    if (t.lineIn .l3 l).isSome then t.passToL3 h l else t.writeBack l
  else s.recallL2 h l

/-- It counts the snoop first (Table Counting-3). -/
def State.snoopL2 (s : State) (kind l h : Nat) : State := (s.countHart h (if kind = 2 then 0x18 else 0x17)).answersSnoop kind l h

/-- Of the L2s at most that of hart `h` holds a line. -/
def State.OneL2 (s : State) (h : Nat) : Prop := ∀ x ∈ s.memory.lines, ∀ k, x.cache = .l2 k → k = h

section
variable {s : State} {h l : Nat}

theorem State.lineIn_eq_none {c : CacheId} (hno : ∀ x ∈ s.memory.lines, x.cache = c → x.line ≠ l) : s.lineIn c l = none :=
  List.find?_eq_none.2 fun x hx => by simpa using hno x hx

theorem State.OneL2.lineIn (ho : s.OneL2 h) {k : Nat} (hk : k ≠ h) (l : Nat) : s.lineIn (.l2 k) l = none :=
  State.lineIn_eq_none fun x hx hc => absurd (ho x hx k hc) hk

/-- The one L2 that holds the line is the one that receives the snoop. -/
theorem State.snoop_one (kind : Nat) (hh : h < 4) (hin : (s.lineIn (.l2 h) l).isSome = true) (hbefore : s.OneL2 h)
    (hafter : (s.snoopL2 kind l h).OneL2 h) : s.snoop kind l none = s.snoopL2 kind l h := by
  have hbody : (if none = some h || (s.lineIn (.l2 h) l).isNone then s else s.snoopL2 kind l h) = s.snoopL2 kind l h := by
    simp [Option.isNone_eq_false_iff.2 hin]
  refine (forEach_only (f := fun h t => if none = some h || (t.lineIn (.l2 h) l).isNone then t else t.snoopL2 kind l h) hh
    (fun i hi => ?_) fun i hi => ?_).trans hbody
  · simp [hbefore.lineIn hi]
  · rw [hbody]
    simp [hafter.lineIn hi]

/-- A snoop meets no L2 but the requester's own that holds the line: nothing happens. -/
theorem State.snoop_absent (kind : Nat) {except : Option Nat} (hno : ∀ k, except ≠ some k → s.lineIn (.l2 k) l = none) :
    s.snoop kind l except = s := by
  refine forEach_eq_self fun k _ => ?_
  by_cases hk : except = some k
  · simp [hk]
  · simp [hno k hk]

end

/-! ### One copy, in an L2 -/

section
variable {s : State} {h l way : Nat} {st : Mesi} {dirty : Bool} (hr : s.StoredRight) (hlines : s.memory.lines = [⟨.l2 h, l, st, dirty, way⟩])
include hr hlines

/-- No L1 of the hart holds a line. -/
theorem State.dropL1_alone : s.dropL1 h l = s := hr.dropL1_absent (by simp [hlines]) (by simp [hlines]) l

theorem State.answersSnoop_share_alone : s.answersSnoop 0 l h = (s.setLines [⟨.l2 h, l, .s, dirty, way⟩]).writeBack l := by
  have hshared : s.mapLine l (fun x => if x.cache = .l2 h then { x with state := .s } else x) = s.setLines [⟨.l2 h, l, .s, dirty, way⟩] := by
    simp [State.mapLine, hlines]
  have hnone : (s.setLines [⟨.l2 h, l, .s, dirty, way⟩]).lineIn .l3 l = none := State.lineIn_eq_none (by simp [State.setLines])
  rw [State.answersSnoop, if_pos rfl, State.dropL1_alone hr hlines, hshared]
  simp [hnone]

theorem State.answersSnoop_inval_alone {kind : Nat} (hkind : kind ≠ 0) :
    s.answersSnoop kind l h = (s.writeBack l).dropLine (.l2 h) l := by
  have hnone : s.lineIn .l3 l = none := State.lineIn_eq_none (by simp [hlines])
  have hin : s.dirtyIn (.l2 h) l = dirty := by simp [State.dirtyIn, State.lineIn, hlines]
  have hhome : (if dirty then s.writeBack l else s) = s.writeBack l := by
    cases dirty with
    | true => rfl
    | false => exact (State.writeBack_clean (by simp [State.lineDirty, hlines])).symm
  rw [State.answersSnoop, if_neg hkind, State.recallL2, State.dropL1_alone hr hlines]
  simp [hnone, hin, hhome]

end

/-! ### Copies in an L2 and, dirty, in the L3 -/

section
variable {s : State} {h l way : Nat} (hr : s.StoredRight) (hlines : s.memory.lines = [⟨.l3, l, .m, true, 0⟩, ⟨.l2 h, l, .m, true, way⟩])
include hr hlines

theorem State.answersSnoop_share_beside_l3 :
    s.answersSnoop 0 l h = s.setLines [⟨.l3, l, .m, true, 0⟩, ⟨.l2 h, l, .s, false, way⟩] := by
  let u := s.setLines [⟨.l3, l, .m, true, 0⟩, ⟨.l2 h, l, .s, true, way⟩]
  have hright : u.StoredRight := hr
  have hkept : s.dropL1 h l = s := hr.dropL1_absent (by simp [hlines]) (by simp [hlines]) l
  have hshared : s.mapLine l (fun x => if x.cache = .l2 h then { x with state := .s } else x) = u := by simp [State.mapLine, hlines, u]
  have hsome : (u.lineIn .l3 l).isSome = true := by simp [State.lineIn, State.setLines, u]
  have hdirty : u.dirtyIn (.l2 h) l = true := by simp [State.dirtyIn, State.lineIn, State.setLines, u]
  rw [State.answersSnoop, if_pos rfl, hkept, hshared]
  dsimp only
  rw [if_pos hsome, hright.passToL3_dirty hdirty]
  simp [State.mapLine, State.setLines, u]

theorem State.answersSnoop_inval_beside_l3 : s.answersSnoop 1 l h = s.setLines [⟨.l3, l, .m, true, 0⟩] := by
  let u := s.setLines [⟨.l3, l, .m, true, 0⟩, ⟨.l2 h, l, .m, false, way⟩]
  have hright : u.StoredRight := hr
  have hkept : s.dropL1 h l = s := hr.dropL1_absent (by simp [hlines]) (by simp [hlines]) l
  have hsome : (s.lineIn .l3 l).isSome = true := by simp [State.lineIn, hlines]
  have hdirty : s.dirtyIn (.l2 h) l = true := by simp [State.dirtyIn, State.lineIn, hlines]
  have hpassed : s.passToL3 h l = u := by
    rw [hr.passToL3_dirty hdirty]
    simp [State.mapLine, hlines, u]
  rw [State.answersSnoop, if_neg (by decide), State.recallL2, hkept]
  rw [if_pos hsome, hpassed, hright.dropLine]
  simp [State.setLines, u]

end

/-! ### The commands -/

/-- R257: a snoop that moves the lines of one visible L2 is what it comes to, and nothing beside the caches has changed. -/
theorem State.WentHome.snoop {s : State} {h kind l : Nat} {ls : List CacheLine} {stale : List (Nat × Byte)}
    (hhome : (s.countHart h (if kind = 2 then 0x18 else 0x17)).WentHome (s.snoopL2 kind l h) ls stale) (hv : s.visible.contains h = true)
    (hin : (s.lineIn (.l2 h) l).isSome = true) (hone : s.OneL2 h) (hls : ∀ x ∈ ls, ∀ k, x.cache = .l2 k → k = h) :
    s.snoop kind l none = s.snoopL2 kind l h ∧ (s.snoopL2 kind l h).memory.lines = ls ∧ (s.snoopL2 kind l h).memory.stale = stale ∧
      s.OnlyCaches (s.snoopL2 kind l h) := by
  have hkept : (s.snoopL2 kind l h).memory.lines = ls := congrArg MemState.lines hhome.memory
  refine ⟨State.snoop_one kind (s.lt_of_visible hv).1 hin hone ?_, hkept, congrArg MemState.stale hhome.memory, hhome.onlyCaches hv⟩
  rw [State.OneL2, hkept]
  exact hls

/-- A snoop that takes no data home changes the lines held, and what the hart counts. -/
theorem State.snoop_moves {s : State} {h kind l : Nat} {ls : List CacheLine}
    (hmoves : s.snoopL2 kind l h = (s.countHart h (if kind = 2 then 0x18 else 0x17)).setLines ls) (hv : s.visible.contains h = true)
    (hin : (s.lineIn (.l2 h) l).isSome = true) (hone : s.OneL2 h) (hls : ∀ x ∈ ls, ∀ k, x.cache = .l2 k → k = h) :
    s.snoop kind l none = s.snoopL2 kind l h ∧ (s.snoopL2 kind l h).memory = { s.memory with lines := ls } ∧
      s.OnlyCaches (s.snoopL2 kind l h) ∧ (s.snoopL2 kind l h).regs = s.regs := by
  have hhome : (s.countHart h (if kind = 2 then 0x18 else 0x17)).WentHome (s.snoopL2 kind l h) ls s.memory.stale := by
    rw [hmoves, ← s.countHart_memory h (if kind = 2 then 0x18 else 0x17)]
    exact ⟨KeepsRegs.refl _ _, rfl⟩
  obtain ⟨hsnoop, -, -, honly⟩ := hhome.snoop hv hin hone hls
  refine ⟨hsnoop, ?_, honly, ?_⟩
  · rw [hmoves, State.setLines, State.countHart_memory]
  · rw [hmoves]
    exact s.countHart_regs _ _

theorem State.SoundMemory.countHart {s : State} (hsound : s.SoundMemory) (h code : Nat) : (s.countHart h code).SoundMemory := by
  rw [State.SoundMemory, State.StoredRight, State.countHart_memory]
  exact hsound

section
variable {s : State} {h : Fin 4} {line : BitVec 34} {way : Nat} (hv : s.visible.contains h.val = true) (hsound : s.SoundMemory)
include hv hsound

section
variable (hdram : s.inDram (line.toNat * 64) = true) (hlines : s.memory.lines = [⟨.l2 h.val, line.toNat * 64, .m, true, way⟩])
include hdram hlines

/-- A snoop that moves the one dirty copy, counted by its hart, does what it does uncounted. -/
theorem State.snoop_dirty {kind : Nat} {ls : List CacheLine} (hls : ∀ x ∈ ls, ∀ k, x.cache = .l2 k → k = h.val)
    (hanswer : ∀ u : State, u.SoundMemory → u.inDram (line.toNat * 64) = true → u.memory.lines = [⟨.l2 h.val, line.toNat * 64, .m, true, way⟩] →
      u.WentHome (u.answersSnoop kind (line.toNat * 64) h.val) ls (u.dropStale (line.toNat * 64)).memory.stale) :
    ∃ t, s.snoop kind (line.toNat * 64) none = t ∧ t.memory.lines = ls ∧
      t.memory.stale = (s.dropStale (line.toNat * 64)).memory.stale ∧ s.OnlyCaches t := by
  obtain ⟨code, hcode⟩ : ∃ code, code = if kind = 2 then 0x18 else 0x17 := ⟨_, rfl⟩
  have hstale : ((s.countHart h.val code).dropStale (line.toNat * 64)).memory.stale = (s.dropStale (line.toNat * 64)).memory.stale := by
    rw [State.dropStale, State.dropStale, State.countHart_memory]
  have hdramCounted : (s.countHart h.val code).inDram (line.toNat * 64) = true := by
    rw [State.inDram, State.dramTop, State.countHart_code4G]
    exact hdram
  have hhome := hanswer (s.countHart h.val code) (hsound.countHart _ _) hdramCounted (by rw [State.countHart_memory, hlines])
  rw [hstale, hcode] at hhome
  obtain ⟨hsnoop, hresult⟩ := State.WentHome.snoop hhome hv (by simp [State.lineIn, hlines]) (by simp [State.OneL2, hlines]) hls
  exact ⟨_, hsnoop, hresult⟩

/-- R257: the dirty copy stays, shared and clean. -/
theorem State.exec_snoop_share_dirty : ∃ t, exec (.snoop 0 line none) s = .next t ∧
    t.memory.lines = [⟨.l2 h.val, line.toNat * 64, .s, false, way⟩] ∧
      t.memory.stale = (s.dropStale (line.toNat * 64)).memory.stale ∧ s.OnlyCaches t := by
  obtain ⟨t, ht, hresult⟩ := State.snoop_dirty hv hsound hdram hlines (kind := 0) (ls := [⟨.l2 h.val, line.toNat * 64, .s, false, way⟩]) (by simp)
    fun u hu hdramU hlinesU => by
      rw [State.answersSnoop_share_alone hu.1 hlinesU]
      exact State.wentHome_writeBack (s := u.setLines [⟨.l2 h.val, line.toNat * 64, .s, true, way⟩]) hu rfl rfl hdramU
  exact ⟨t, congrArg Host.Outcome.next ht, hresult⟩

/-- R257, R258: an INVAL or a back-invalidation drops it. -/
theorem State.snoop_inval_dirty {kind : Nat} (hkind : kind ≠ 0) : ∃ t, s.snoop kind (line.toNat * 64) none = t ∧ t.memory.lines = [] ∧
    t.memory.stale = (s.dropStale (line.toNat * 64)).memory.stale ∧ s.OnlyCaches t :=
  State.snoop_dirty hv hsound hdram hlines (by simp) fun u hu hdramU hlinesU => by
    rw [State.answersSnoop_inval_alone hu.1 hlinesU hkind]
    exact (State.wentHome_writeBack hu hlinesU rfl hdramU).dropLine (x := ⟨.l2 h.val, line.toNat * 64, .m, false, way⟩) rfl hu.1

/-- R257, R258: a dirty line leaves the one L2 that holds it, snooped by another request or given up by the snoop filter. -/
theorem State.exec_snoop_inval_dirty : ∃ t, exec (.snoop 1 line none) s = .next t ∧ ∃ u, exec (.backInvalidation line) s = .next u ∧
    t.memory.lines = [] ∧ t.memory.stale = (s.dropStale (line.toNat * 64)).memory.stale ∧ s.OnlyCaches t ∧
      u.memory.lines = [] ∧ u.memory.stale = (s.dropStale (line.toNat * 64)).memory.stale ∧ s.OnlyCaches u := by
  obtain ⟨t, ht, hlinesT, hstaleT, honlyT⟩ := State.snoop_inval_dirty hv hsound hdram hlines (kind := 1) (by decide)
  obtain ⟨u, hu, hresultU⟩ := State.snoop_inval_dirty hv hsound hdram hlines (kind := 2) (by decide)
  exact ⟨t, congrArg Host.Outcome.next ht, u, congrArg Host.Outcome.next hu, hlinesT, hstaleT, honlyT, hresultU⟩

end

/-- R257: a clean copy moves no data. -/
theorem State.exec_snoop_clean (hlines : s.memory.lines = [⟨.l2 h.val, line.toNat * 64, .e, false, way⟩]) :
    ∃ t, exec (.snoop 0 line none) s = .next t ∧ ∃ u, exec (.snoop 1 line none) s = .next u ∧
      t.memory = { s.memory with lines := [⟨.l2 h.val, line.toNat * 64, .s, false, way⟩] } ∧ s.OnlyCaches t ∧ t.regs = s.regs ∧
      u.memory = { s.memory with lines := [] } ∧ s.OnlyCaches u ∧ u.regs = s.regs := by
  obtain ⟨u, hu⟩ : ∃ u, u = s.countHart h.val 0x17 := ⟨_, rfl⟩
  have hcount : u.memory.lines = [⟨.l2 h.val, line.toNat * 64, .e, false, way⟩] := by rw [hu, State.countHart_memory, hlines]
  obtain ⟨hright, -⟩ : u.SoundMemory := hu ▸ hsound.countHart _ _
  have hshare : s.snoopL2 0 (line.toNat * 64) h.val = u.setLines [⟨.l2 h.val, line.toNat * 64, .s, false, way⟩] := by
    rw [State.snoopL2, if_neg (by decide), ← hu, State.answersSnoop_share_alone hright hcount,
      State.writeBack_clean (by simp [State.lineDirty, State.setLines])]
  have hinval : s.snoopL2 1 (line.toNat * 64) h.val = u.setLines [] := by
    rw [State.snoopL2, if_neg (by decide), ← hu, State.answersSnoop_inval_alone hright hcount (by decide),
      State.writeBack_clean (by simp [State.lineDirty, hcount]), hright.dropLine, hcount]
    simp
  have hin : (s.lineIn (.l2 h.val) (line.toNat * 64)).isSome = true := by simp [State.lineIn, hlines]
  have hone : s.OneL2 h.val := by simp [State.OneL2, hlines]
  rw [hu] at hshare hinval
  obtain ⟨hsnoop0, hresult0⟩ := State.snoop_moves hshare hv hin hone (by simp)
  obtain ⟨hsnoop1, hresult1⟩ := State.snoop_moves hinval hv hin hone (by simp)
  exact ⟨_, congrArg Host.Outcome.next hsnoop0, _, congrArg Host.Outcome.next hsnoop1, hresult0.1, hresult0.2.1, hresult0.2.2, hresult1⟩

/-- R257: beside a copy in the L3 the dirty data go there. -/
theorem State.exec_snoop_beside_l3
    (hlines : s.memory.lines = [⟨.l3, line.toNat * 64, .m, true, 0⟩, ⟨.l2 h.val, line.toNat * 64, .m, true, way⟩]) :
    ∃ t, exec (.snoop 0 line none) s = .next t ∧ ∃ u, exec (.snoop 1 line none) s = .next u ∧
      t.memory = { s.memory with lines := [⟨.l3, line.toNat * 64, .m, true, 0⟩, ⟨.l2 h.val, line.toNat * 64, .s, false, way⟩] } ∧
      s.OnlyCaches t ∧ t.regs = s.regs ∧
      u.memory = { s.memory with lines := [⟨.l3, line.toNat * 64, .m, true, 0⟩] } ∧ s.OnlyCaches u ∧ u.regs = s.regs := by
  obtain ⟨u, hu⟩ : ∃ u, u = s.countHart h.val 0x17 := ⟨_, rfl⟩
  have hcount : u.memory.lines = [⟨.l3, line.toNat * 64, .m, true, 0⟩, ⟨.l2 h.val, line.toNat * 64, .m, true, way⟩] := by
    rw [hu, State.countHart_memory, hlines]
  obtain ⟨hright, -⟩ : u.SoundMemory := hu ▸ hsound.countHart _ _
  have hshare : s.snoopL2 0 (line.toNat * 64) h.val =
      u.setLines [⟨.l3, line.toNat * 64, .m, true, 0⟩, ⟨.l2 h.val, line.toNat * 64, .s, false, way⟩] := by
    rw [State.snoopL2, if_neg (by decide), ← hu, State.answersSnoop_share_beside_l3 hright hcount]
  have hinval : s.snoopL2 1 (line.toNat * 64) h.val = u.setLines [⟨.l3, line.toNat * 64, .m, true, 0⟩] := by
    rw [State.snoopL2, if_neg (by decide), ← hu, State.answersSnoop_inval_beside_l3 hright hcount]
  have hin : (s.lineIn (.l2 h.val) (line.toNat * 64)).isSome = true := by simp [State.lineIn, hlines]
  have hone : s.OneL2 h.val := by simp [State.OneL2, hlines]
  rw [hu] at hshare hinval
  obtain ⟨hsnoop0, hmem0, honly0, hregs0⟩ := State.snoop_moves hshare hv hin hone (by simp)
  obtain ⟨hsnoop1, hresult1⟩ := State.snoop_moves hinval hv hin hone (by simp)
  exact ⟨_, congrArg Host.Outcome.next hsnoop0, _, congrArg Host.Outcome.next hsnoop1, hmem0, honly0, hregs0, hresult1⟩

end

/-- R257: the requester's own copy stays, and so do other lines. -/
theorem State.exec_snoop_own_or_other {s : State} {h : Fin 4} {line : BitVec 34} {x : CacheLine} (kind : Fin 3) (hlines : s.memory.lines = [x])
    (hx : x.cache = .l2 h.val ∨ x.line ≠ line.toNat * 64) : ∃ t, exec (.snoop kind line (some h)) s = .next t ∧ t = s := by
  refine ⟨_, rfl, State.snoop_absent kind.val fun k hk => State.lineIn_eq_none fun y hy hc => ?_⟩
  rw [hlines, List.mem_singleton] at hy
  subst hy
  rcases hx with hown | hother
  · rw [hown] at hc
    injection hc with hc
    exact absurd (congrArg some hc) hk
  · exact hother

end Sys2Proof.Machine
end

section
/-! A write of L3_MAINT (R288): it starts an operation, or is refused while one runs. -/
namespace Sys2Proof.Machine

/-! ### The register -/

/-- The fields of L3_MAINT: OP, PART and BUSY. -/
def Specs.l3Maint : RSpec := ⟨0x60, 4, 1, false, [⟨0, 1, .wo, 0, (.codes [0, 1, 2]), false⟩, ⟨4, 6, .rw, 0, .any, false⟩, ⟨8, 8, .ro, 0, .any, false⟩]⟩

theorem regAt_l3Maint : ∃ p, p.base = P.L3 ∧ regAt R.L3_MAINT = some (p, P.L3, Specs.l3Maint, R.L3_MAINT) := ⟨_, rfl, rfl⟩

section
variable {s : State} {p : PageSpec} (hp : p.base = P.L3)
include hp

theorem State.fieldFrozen_l3Maint {f : FSpec} (hacc : f.acc ≠ .rwl) : s.fieldFrozen p R.L3_MAINT f = false := by
  have hscree : P.L3 ≠ P.SCREE := by decide
  have hsyscfg : P.L3 ≠ P.SYSCFG := by decide
  have hwdog : P.L3 ≠ P.WDOG := by decide
  have hctrl : R.L3_MAINT ≠ R.PAGE_CTRL (pageBase R.L3_MAINT) := by decide
  simp [State.fieldFrozen, hacc, hp, hscree, hsyscfg, hwdog, hctrl]

/-- R42: of a legal write OP acts and PART is stored. -/
theorem writeWord_l3Maint {v : DWord} (hop : F.L3_MAINT_OP.of v ≤ 2) :
    (writeWord s p Specs.l3Maint R.L3_MAINT v).act = Bits.put 0#64 0 2 (F.L3_MAINT_OP.of v) ∧
      (writeWord s p Specs.l3Maint R.L3_MAINT v).word = Bits.put (s.raw R.L3_MAINT) 4 3 (F.L3_MAINT_PART.of v) := by
  have hlisted : [0, 1, 2].contains (Bits.get v 0 2) = true := by
    change Bits.get v 0 2 ≤ 2 at hop
    interval_cases Bits.get v 0 2 <;> rfl
  have hopField (read : DWord) (o : Written) : writeField s p R.L3_MAINT read v o ⟨0, 1, .wo, 0, .codes [0, 1, 2], false⟩ =
      { o with act := Bits.put o.act 0 2 (F.L3_MAINT_OP.of v) } := by
    rw [writeField, State.fieldFrozen_l3Maint hp (by decide)]
    simp only [Bool.false_eq_true, if_false, legalize, listed, hlisted, if_true]
    rfl
  have hpartField (read : DWord) (o : Written) : writeField s p R.L3_MAINT read v o ⟨4, 6, .rw, 0, .any, false⟩ =
      { o with word := Bits.put o.word 4 3 (F.L3_MAINT_PART.of v) } := by
    rw [writeField, State.fieldFrozen_l3Maint hp (by decide)]
    rfl
  have hbusyField (read : DWord) (o : Written) : (writeField s p R.L3_MAINT read v o ⟨8, 8, .ro, 0, .any, false⟩).act = o.act ∧
      (writeField s p R.L3_MAINT read v o ⟨8, 8, .ro, 0, .any, false⟩).word = o.word := by
    rw [writeField, State.fieldFrozen_l3Maint hp (by decide)]
    simp only [Bool.false_eq_true, if_false]
    split <;> exact ⟨rfl, rfl⟩
  simp only [writeWord, Specs.l3Maint, List.foldl_cons, List.foldl_nil, hopField, hpartField]
  exact hbusyField _ _

end

/-- What a legal write of it leaves: the operation it asks for, the partition it stores, and the frame of R44. -/
theorem State.storeReg_l3Maint (s : State) (ni : Nat) {v : DWord} (hop : F.L3_MAINT_OP.of v ≤ 2) :
    F.L3_MAINT_OP.of (s.storeReg ni R.L3_MAINT v).2 = F.L3_MAINT_OP.of v ∧
      (s.storeReg ni R.L3_MAINT v).1.fld F.L3_MAINT_PART = F.L3_MAINT_PART.of v := by
  obtain ⟨p, hp, hreg⟩ := regAt_l3Maint
  obtain ⟨hact, hword⟩ := writeWord_l3Maint (s := s) hp hop
  have hlogged (c : List Nat) (w : DWord) : KeepsRegs (s.setReg R.L3_MAINT w) ((s.setReg R.L3_MAINT w).logWrite ni R.L3_MAINT v c) (logRegs P.L3) :=
    (KeepsRegs.refl _ _).logWrite fun _ h => h
  unfold State.storeReg
  rw [hreg]
  dsimp only
  constructor
  · rw [hact]
    exact (Bits.get_put _ _ _ _ (by decide)).trans (Nat.mod_eq_of_lt (Bits.get_lt v 0 2))
  · rw [(hlogged _ _).fld (by decide), hword]
    exact (State.fld_setReg_same s F.L3_MAINT_PART _).trans ((Bits.get_put _ _ _ _ (by decide)).trans (Nat.mod_eq_of_lt (Bits.get_lt v 4 3)))

/-! ### The operation -/

/-- What CLEAN_ALL (OP = 1) and FLUSH_WAYS (OP = 2) write. -/
def maintWord (op part : Nat) : DWord := BitVec.ofNat 64 (F.L3_MAINT_OP.at op + F.L3_MAINT_PART.at part)

theorem maintWord_fields {op part : Nat} (hop : op < 4) (hpart : part < 8) :
    F.L3_MAINT_OP.of (maintWord op part) = op ∧ F.L3_MAINT_PART.of (maintWord op part) = part := by
  interval_cases op <;> interval_cases part <;> decide

section
variable {s : State} {ni op part : Nat} (hop : op = 1 ∨ op = 2) (hpart : part < 8)
include hop hpart

/-- R288: no operation runs: the one asked for starts with the ways of its partition. -/
theorem State.opL3Maint_starts (hbusy : s.flag F.L3_MAINT_BUSY = false) :
    (s.opL3Maint ni (maintWord op part)).flag F.L3_MAINT_BUSY = true ∧
      (s.opL3Maint ni (maintWord op part)).memory.maint = some (op, s.partMask part) ∧
      KeepsRegs s (s.opL3Maint ni (maintWord op part)) ([R.L3_MAINT] ++ logRegs P.L3) ∧
      s.opL3Maint ni (maintWord op part) = { s with regs := (s.opL3Maint ni (maintWord op part)).regs,
                                                    memory := { s.memory with maint := (s.opL3Maint ni (maintWord op part)).memory.maint } } := by
  obtain ⟨hopv, hpartv⟩ := maintWord_fields (op := op) (by omega) hpart
  obtain ⟨hact, hstored⟩ := s.storeReg_l3Maint ni (v := maintWord op part) (by omega)
  have hkeeps : KeepsRegs s (s.storeReg ni R.L3_MAINT (maintWord op part)).1 ([R.L3_MAINT] ++ logRegs P.L3) :=
    (KeepsRegs.refl s _).storeReg (by decide) (by decide)
  have hrest := s.storeReg_rest ni R.L3_MAINT (maintWord op part)
  rw [hopv] at hact
  rw [hpartv] at hstored
  generalize hst : s.storeReg ni R.L3_MAINT (maintWord op part) = st at hact hstored hkeeps hrest
  obtain ⟨t, act⟩ := st
  dsimp only at hact hstored hkeeps hrest
  have hshown := hkeeps.setFld (f := F.L3_MAINT_BUSY) (v := 1) (by decide)
  have hmask : (t.setFld F.L3_MAINT_BUSY 1).partMask part = s.partMask part :=
    hshown.fld (f := F.L3_PART_MASK_WAYS part) (by interval_cases part <;> decide)
  have hpartt : (t.setFld F.L3_MAINT_BUSY 1).fld F.L3_MAINT_PART = part := (State.fld_setFld_ne _ _ _ _ (by decide)).trans hstored
  have heq : s.opL3Maint ni (maintWord op part) =
      { t.setFld F.L3_MAINT_BUSY 1 with memory := { t.memory with maint := some (op, s.partMask part) } } := by
    rw [State.opL3Maint, hbusy, hst]
    simp only [Bool.false_and, Bool.false_eq_true, if_false, hact]
    rw [if_neg (by omega), hpartt, hmask]
    rfl
  rw [heq]
  refine ⟨?_, rfl, hshown.of_regs rfl, ?_⟩
  · exact State.flag_setFlag t F.L3_MAINT_BUSY true (by decide) (by decide)
  · rw [hrest]
    rfl

/-- R288: a write of an operation while one runs is refused with reason 1. -/
theorem State.opL3Maint_refused {running ways : Nat} (hbusy : s.flag F.L3_MAINT_BUSY = true) (hmaint : s.memory.maint = some (running, ways)) :
    s.opL3Maint ni (maintWord op part) = s.refuse ni R.L3_MAINT 1 (maintWord op part) running := by
  obtain ⟨hopv, -⟩ := maintWord_fields (op := op) (by omega) hpart
  have hasks : (op != 0) = true := by simpa using (by omega : op ≠ 0)
  rw [State.opL3Maint, hopv, hbusy, hasks, hmaint]
  rfl

end

/-! ### The commands -/

/-- R48: on an open page a write of L3_MAINT does what the register does with it. -/
theorem State.gateWrite_l3Maint {s : State} {q : Req} (h : OpenTo s q P.L3) (v : DWord) :
    s.gateWrite q R.L3_MAINT .w v (fun t => t.opL3Maint q.ni.val v) = (s.respond false 0#64).opL3Maint q.ni.val v := by
  obtain ⟨hpriv, hrun⟩ := h
  exact s.gate_open _ _ _ _ _ (by decide) hpriv hrun

section
variable {s : State} {q : Req} (part : Fin 8) (hopen : OpenTo s q P.L3)
include hopen

/-- An operation starts, given that its command writes its code. -/
theorem State.maint_starts {op : Nat} (hop : op = 1 ∨ op = 2) (hbusy : s.flag F.L3_MAINT_BUSY = false) :
    ∃ t, s.gateWrite q R.L3_MAINT .w (maintWord op part.val) (fun t => t.opL3Maint q.ni.val (maintWord op part.val)) = t ∧
      t.flag F.L3_MAINT_BUSY = true ∧ t.memory.maint = some (op, s.partMask part.val) ∧
      KeepsRegs s t ([R.L3_MAINT] ++ logRegs P.L3) ∧
      t = { s with regs := t.regs, resp := ⟨false, 0#64⟩, memory := { s.memory with maint := t.memory.maint } } :=
  ⟨_, State.gateWrite_l3Maint hopen _, State.opL3Maint_starts (s := s.respond false 0#64) hop part.isLt hbusy⟩

theorem State.exec_cleanAll_starts (hbusy : s.flag F.L3_MAINT_BUSY = false) :
    ∃ t, exec (.cleanAll q part) s = .next t ∧ t.flag F.L3_MAINT_BUSY = true ∧ t.memory.maint = some (1, s.partMask part.val) ∧
      KeepsRegs s t ([R.L3_MAINT] ++ logRegs P.L3) ∧
      t = { s with regs := t.regs, resp := ⟨false, 0#64⟩, memory := { s.memory with maint := t.memory.maint } } := by
  obtain ⟨t, ht, hresult⟩ := State.maint_starts part hopen (.inl rfl) hbusy
  exact ⟨t, congrArg Host.Outcome.next ht, hresult⟩

theorem State.exec_flushWays_starts (hbusy : s.flag F.L3_MAINT_BUSY = false) :
    ∃ t, exec (.flushWays q part) s = .next t ∧ t.flag F.L3_MAINT_BUSY = true ∧ t.memory.maint = some (2, s.partMask part.val) ∧
      KeepsRegs s t ([R.L3_MAINT] ++ logRegs P.L3) ∧
      t = { s with regs := t.regs, resp := ⟨false, 0#64⟩, memory := { s.memory with maint := t.memory.maint } } := by
  obtain ⟨t, ht, hresult⟩ := State.maint_starts part hopen (.inr rfl) hbusy
  exact ⟨t, congrArg Host.Outcome.next ht, hresult⟩

variable {running ways : Nat} (hbusy : s.flag F.L3_MAINT_BUSY = true) (hmaint : s.memory.maint = some (running, ways))
include hbusy hmaint

theorem State.maint_refused {op : Nat} (hop : op = 1 ∨ op = 2) :
    ∃ t, s.gateWrite q R.L3_MAINT .w (maintWord op part.val) (fun t => t.opL3Maint q.ni.val (maintWord op part.val)) = t ∧
      s.Refused t q R.L3_MAINT 1 running ∧ KeepsRegs s t (logRegs P.L3) ∧ t = { s with regs := t.regs, resp := ⟨false, 0#64⟩ } := by
  let u := s.respond false 0#64
  have hkeeps : KeepsRegs s (u.refuse q.ni.val R.L3_MAINT 1 (maintWord op part.val) running) (logRegs P.L3) :=
    ((KeepsRegs.refl s _).of_regs rfl).refuse (t := u) fun _ h => h
  exact ⟨_, (State.gateWrite_l3Maint hopen _).trans (State.opL3Maint_refused (s := u) hop part.isLt hbusy hmaint),
    State.refused_refuse u q _ _ _ _ (by decide), hkeeps, State.clampEvents_rest u _ _ _ _ _ _ _⟩

theorem State.exec_maint_refused :
    ∃ t, exec (.flushWays q part) s = .next t ∧ ∃ u, exec (.cleanAll q part) s = .next u ∧
      s.Refused t q R.L3_MAINT 1 running ∧ KeepsRegs s t (logRegs P.L3) ∧ t = { s with regs := t.regs, resp := ⟨false, 0#64⟩ } ∧
      s.Refused u q R.L3_MAINT 1 running ∧ KeepsRegs s u (logRegs P.L3) ∧ u = { s with regs := u.regs, resp := ⟨false, 0#64⟩ } := by
  obtain ⟨t, ht, hrefused, hkeeps, hrest⟩ := State.maint_refused part hopen hbusy hmaint (.inr rfl)
  obtain ⟨u, hu, hresult⟩ := State.maint_refused part hopen hbusy hmaint (.inl rfl)
  exact ⟨t, congrArg Host.Outcome.next ht, u, congrArg Host.Outcome.next hu, hrefused, hkeeps, hrest, hresult⟩

end

end Sys2Proof.Machine
end

section
/-! Errors that a demand read meets (R255, R256, R563, R570, R590) in memory where nothing else is wrong. -/
namespace Sys2Proof.Machine

/-! ### A corrected error -/

/-- R58, R570: an error counted in `f`, whose page raises `e`, and which Belay does not log. -/
theorem State.counted_spec (s : State) {f sat : Fld} {p e : Nat} (hfit : f.lo + f.width ≤ 64)
    (hsat : f.reg ≠ sat.reg ∨ f.lo + f.width ≤ sat.lo ∨ sat.lo + sat.width ≤ f.lo) (hpage : f.reg ≠ R.EVT_RAW p)
    (hbelay : f.reg ≠ R.EVT_RAW P.BELAY) (he : e < 64) :
    s.Corrected (((s.bumpSat f sat).raise p e).raise P.BELAY E.BELAY_CE) f ∧
      (((s.bumpSat f sat).raise p e).raise P.BELAY E.BELAY_CE).event p e = true ∧
      KeepsRegs s (((s.bumpSat f sat).raise p e).raise P.BELAY E.BELAY_CE) [f.reg, sat.reg, R.EVT_RAW p, R.EVT_RAW P.BELAY] ∧
      ((s.bumpSat f sat).raise p e).raise P.BELAY E.BELAY_CE =
        { s with regs := (((s.bumpSat f sat).raise p e).raise P.BELAY E.BELAY_CE).regs } := by
  refine ⟨State.corrected_raise ((State.fld_raise_ne _ _ _ _ hpage).trans (s.fld_bumpSat hfit hsat)) hbelay,
    State.event_raise_mono _ _ _ _ _ (State.event_raise _ _ _ he),
    (((KeepsRegs.refl s _).bumpSat (by simp) (by simp)).raise (by simp)).raise (by simp), ?_⟩
  exact State.only_raise (State.only_raise (s.bumpSat_rest f sat))

/-- R255: DMC_ECC_SYN names the bit corrected. -/
def State.synNoted (s : State) (w bit : Nat) : State :=
  ((s.setFld F.DMC_ECC_SYN_SYNDROME bit).setFld F.DMC_ECC_SYN_CHANNEL (dmcChannel w)).setFld F.DMC_ECC_SYN_WORD (w / 8 % 8)

theorem State.synNoted_keepsRegs (s : State) (w bit : Nat) : KeepsRegs s (s.synNoted w bit) [R.DMC_ECC_SYN] :=
  (((KeepsRegs.refl s _).setFld (by decide)).setFld (by decide)).setFld (by decide)

theorem State.synNoted_fields (s : State) (w : Nat) {bit : Nat} (hbit : bit < 256) :
    (s.synNoted w bit).fld F.DMC_ECC_SYN_SYNDROME = bit ∧ (s.synNoted w bit).fld F.DMC_ECC_SYN_CHANNEL = dmcChannel w ∧
      (s.synNoted w bit).fld F.DMC_ECC_SYN_WORD = w / 8 % 8 := by
  unfold State.synNoted
  refine ⟨?_, ?_, ?_⟩
  · rw [State.fld_setFld_ne _ _ _ _ (by decide), State.fld_setFld_ne _ _ _ _ (by decide), State.fld_setFld _ _ _ (by decide)]
    exact Nat.mod_eq_of_lt hbit
  · rw [State.fld_setFld_ne _ _ _ _ (by decide), State.fld_setFld _ _ _ (by decide)]
    exact Nat.mod_eq_of_lt (Nat.mod_lt _ (by decide))
  · rw [State.fld_setFld _ _ _ (by decide)]
    exact Nat.mod_eq_of_lt (Nat.mod_lt _ (by decide))

section
variable {s : State} (hlog : s.flag F.BELAY_CFG_LOG_CE = false) (unit w source bit : Nat) (inj : Bool)
include hlog

theorem State.eccCorrected_of_count {array : Nat} (harr : array ≠ 7)
    (hkeeps : (s.countCe array unit w).flag F.BELAY_CFG_LOG_CE = s.flag F.BELAY_CFG_LOG_CE) :
    s.eccCorrected array unit w source bit inj = (s.countCe array unit w).raise P.BELAY E.BELAY_CE := by
  rw [State.eccCorrected, if_neg harr]
  exact State.correctedInput_unlogged (hkeeps.trans hlog) _

/-- An error of base camp. -/
theorem State.eccCorrected_baseCamp (hrom : inRom w = false) :
    s.Corrected (s.eccCorrected 9 unit w source bit inj) F.BELAY_BC_ECC_CE ∧
      KeepsRegs s (s.eccCorrected 9 unit w source bit inj) [R.BELAY_BC_ECC, R.EVT_RAW P.BELAY] ∧
      s.eccCorrected 9 unit w source bit inj = { s with regs := (s.eccCorrected 9 unit w source bit inj).regs } := by
  have hcount : s.countCe 9 unit w = s.bumpSat F.BELAY_BC_ECC_CE F.BELAY_BC_ECC_CSAT := by simp [State.countCe, hrom]
  have hkeeps : KeepsRegs s (s.bumpSat F.BELAY_BC_ECC_CE F.BELAY_BC_ECC_CSAT) [R.BELAY_BC_ECC] :=
    (KeepsRegs.refl s _).bumpSat (by decide) (by decide)
  rw [State.eccCorrected_of_count hlog _ _ _ _ _ (by decide) (hcount ▸ hkeeps.flag (by decide)), hcount]
  exact ⟨State.corrected_raise (s.fld_bumpSat (by decide) (by decide)) (by decide), (hkeeps.mono (by decide)).raise (by decide),
    State.only_raise (s.bumpSat_rest _ _)⟩

/-- An error of MRAM. -/
theorem State.eccCorrected_mram : s.Corrected (s.eccCorrected 8 unit w source bit inj) F.MRAMC_ECC_CE_COUNT ∧
    (s.eccCorrected 8 unit w source bit inj).event P.MRAMC E.MRAMC_CE = true ∧
      KeepsRegs s (s.eccCorrected 8 unit w source bit inj) [R.MRAMC_ECC_CE, R.EVT_RAW P.MRAMC, R.EVT_RAW P.BELAY] ∧
      s.eccCorrected 8 unit w source bit inj = { s with regs := (s.eccCorrected 8 unit w source bit inj).regs } := by
  have hcount : s.countCe 8 unit w = (s.bumpSat F.MRAMC_ECC_CE_COUNT F.MRAMC_ECC_CE_SAT).raise P.MRAMC E.MRAMC_CE := rfl
  have hkeeps : KeepsRegs s ((s.bumpSat F.MRAMC_ECC_CE_COUNT F.MRAMC_ECC_CE_SAT).raise P.MRAMC E.MRAMC_CE) [R.MRAMC_ECC_CE, R.EVT_RAW P.MRAMC] :=
    ((KeepsRegs.refl s _).bumpSat (by decide) (by decide)).raise (by decide)
  rw [State.eccCorrected_of_count hlog _ _ _ _ _ (by decide) (hcount ▸ hkeeps.flag (by decide)), hcount]
  obtain ⟨hcorrected, hevent, hregs, hrest⟩ := s.counted_spec (f := F.MRAMC_ECC_CE_COUNT) (sat := F.MRAMC_ECC_CE_SAT) (p := P.MRAMC)
    (e := E.MRAMC_CE) (by decide) (by decide) (by decide) (by decide) (by decide)
  exact ⟨hcorrected, hevent, hregs.mono (by decide), hrest⟩

/-- An error of the data of the L3. -/
theorem State.eccCorrected_l3 : s.Corrected (s.eccCorrected 3 unit w source bit inj) F.L3_ECC_CE_COUNT ∧
    (s.eccCorrected 3 unit w source bit inj).event P.L3 E.L3_CE = true ∧
      KeepsRegs s (s.eccCorrected 3 unit w source bit inj) [R.L3_ECC_CE, R.EVT_RAW P.L3, R.EVT_RAW P.BELAY] ∧
      s.eccCorrected 3 unit w source bit inj = { s with regs := (s.eccCorrected 3 unit w source bit inj).regs } := by
  have hcount : s.countCe 3 unit w = (s.bumpSat F.L3_ECC_CE_COUNT F.L3_ECC_CE_SAT).raise P.L3 E.L3_CE := rfl
  have hkeeps : KeepsRegs s ((s.bumpSat F.L3_ECC_CE_COUNT F.L3_ECC_CE_SAT).raise P.L3 E.L3_CE) [R.L3_ECC_CE, R.EVT_RAW P.L3] :=
    ((KeepsRegs.refl s _).bumpSat (by decide) (by decide)).raise (by decide)
  rw [State.eccCorrected_of_count hlog _ _ _ _ _ (by decide) (hcount ▸ hkeeps.flag (by decide)), hcount]
  obtain ⟨hcorrected, hevent, hregs, hrest⟩ := s.counted_spec (f := F.L3_ECC_CE_COUNT) (sat := F.L3_ECC_CE_SAT) (p := P.L3)
    (e := E.L3_CE) (by decide) (by decide) (by decide) (by decide) (by decide)
  exact ⟨hcorrected, hevent, hregs.mono (by decide), hrest⟩

/-- An error of DRAM, which DMC_ECC_SYN names. -/
theorem State.eccCorrected_dram (hbit : bit < 256) : s.Corrected (s.eccCorrected 7 unit w source bit inj) F.DMC_ECC_CE_COUNT ∧
    (s.eccCorrected 7 unit w source bit inj).event P.DMC E.DMC_CE = true ∧
      ((s.eccCorrected 7 unit w source bit inj).fld F.DMC_ECC_SYN_SYNDROME = bit ∧
        (s.eccCorrected 7 unit w source bit inj).fld F.DMC_ECC_SYN_CHANNEL = dmcChannel w ∧
        (s.eccCorrected 7 unit w source bit inj).fld F.DMC_ECC_SYN_WORD = w / 8 % 8) ∧
      KeepsRegs s (s.eccCorrected 7 unit w source bit inj) [R.DMC_ECC_CE, R.DMC_ECC_SYN, R.EVT_RAW P.DMC, R.EVT_RAW P.BELAY] ∧
      s.eccCorrected 7 unit w source bit inj = { s with regs := (s.eccCorrected 7 unit w source bit inj).regs } := by
  obtain ⟨u, hu⟩ : ∃ u, u = s.synNoted w bit := ⟨_, rfl⟩
  have hsyn : KeepsRegs s u [R.DMC_ECC_SYN] := hu ▸ s.synNoted_keepsRegs w bit
  have hurest : u = { s with regs := u.regs } := by rw [hu]; rfl
  have hkeeps : KeepsRegs u ((u.bumpSat F.DMC_ECC_CE_COUNT F.DMC_ECC_CE_SAT).raise P.DMC E.DMC_CE) [R.DMC_ECC_CE, R.EVT_RAW P.DMC] :=
    ((KeepsRegs.refl u _).bumpSat (by decide) (by decide)).raise (by decide)
  have heq : s.eccCorrected 7 unit w source bit inj =
      ((u.bumpSat F.DMC_ECC_CE_COUNT F.DMC_ECC_CE_SAT).raise P.DMC E.DMC_CE).raise P.BELAY E.BELAY_CE := by
    rw [hu] at hkeeps hsyn ⊢
    exact State.correctedInput_unlogged ((hkeeps.flag (by decide)).trans ((hsyn.flag (by decide)).trans hlog)) _
  obtain ⟨⟨hcorrected, hce⟩, hevent, hregs, hrest⟩ := u.counted_spec (f := F.DMC_ECC_CE_COUNT) (sat := F.DMC_ECC_CE_SAT) (p := P.DMC)
    (e := E.DMC_CE) (by decide) (by decide) (by decide) (by decide) (by decide)
  obtain ⟨hsyndrome, hchannel, hword⟩ := s.synNoted_fields w hbit
  rw [← hu] at hsyndrome hchannel hword
  rw [heq]
  refine ⟨⟨hcorrected.trans ?_, hce⟩, hevent, ⟨?_, ?_, ?_⟩, (hsyn.mono (by decide)).trans (hregs.mono (by decide)), ?_⟩
  · rw [hsyn.fld (by decide)]
  · exact (hregs.fld (by decide)).trans hsyndrome
  · exact (hregs.fld (by decide)).trans hchannel
  · exact (hregs.fld (by decide)).trans hword
  · rw [hrest, hurest]

end

/-! ### A signalled fault, while no log is copied to MRAM -/

/-- The registers that a signalled fault changes then, beside BELAY_PEND. -/
def quietSignalRegs : List Nat :=
  [R.BELAY_STAT, R.BELAY_SIGNALLED, R.TETHER_ATTN, R.EVT_RAW P.BELAY] ++ (List.range 8).map R.BELAY_LAST

section
variable (s : State) (f : FaultInput)

theorem State.copyLast_keepsRegs (e : List Byte) : KeepsRegs s (s.copyLast e) ((List.range 8).map R.BELAY_LAST) :=
  (KeepsRegs.refl s _).forEach fun _ hn _ hu => hu.setReg (List.mem_map_of_mem (List.mem_range.2 hn))

theorem State.copyLast_rest (e : List Byte) : s.copyLast e = { s with regs := (s.copyLast e).regs } := forEach_rest (fun _ _ => rfl) s

/-- R574: the entry is copied to BELAY_LAST_n alone. -/
theorem State.logEntry_off (h : s.flag F.BELAY_LOG_CTRL_EN = false) :
    s.logEntry f = ({ s with belay := { s.belay with seq := s.belay.seq + 1 } } : State).copyLast (s.logBytes f (s.belay.seq + 1) true) := by
  have hoff := (State.copyLast_keepsRegs ({ s with belay := { s.belay with seq := s.belay.seq + 1 } } : State)
    (s.logBytes f (s.belay.seq + 1) true)).flag (f := F.BELAY_LOG_CTRL_EN) (by decide)
  rw [State.logEntry, if_pos (by rw [hoff]; exact congrArg (! ·) h)]

theorem State.memory_answered : (s.answered f).memory = s.memory := by
  unfold State.answered
  split
  · rfl
  · split <;> rfl

theorem State.memory_react (src code : Nat) : (s.react src code).memory = s.memory := by
  unfold State.react
  split
  · rfl
  · split
    · split <;> rfl
    · rfl

variable {s}

/-- R571: such a fault raises SIGNALLED, and reaches nothing of the memories. -/
theorem State.signal_quiet (htest : s.belay.test = none) (hlog : s.flag F.BELAY_LOG_CTRL_EN = false) :
    (s.signal f).event P.BELAY E.BELAY_SIGNALLED = true ∧ (s.signal f).memory = s.memory ∧
      KeepsRegs s (s.signal f) (R.BELAY_PEND :: quietSignalRegs) := by
  obtain ⟨u, hu⟩ : ∃ u, u = (s.answered (s.taken f)).countSignalled f.cls := ⟨_, rfl⟩
  have hnoticed : KeepsRegs s u (R.BELAY_PEND :: quietSignalRegs) := by
    have hpend : KeepsRegs s (s.pended (s.taken f)) (R.BELAY_PEND :: quietSignalRegs) :=
      (KeepsRegs.refl s _).setReg (a := R.BELAY_PEND) List.mem_cons_self
    have hanswered := hpend.trans ((s.answered_keepsRegs (s.taken f)).mono (by decide))
    exact hu ▸ (((hanswered.bumpSat (by decide) (by decide)).setReg (a := R.TETHER_ATTN) (by decide)).of_regs rfl).raise (by decide)
  have hsignalled : u.event P.BELAY E.BELAY_SIGNALLED = true := hu ▸ State.event_raise _ _ _ (by decide)
  have hmemory : u.memory = s.memory := hu ▸ (State.bumpSat_memory _ _ _).trans (s.memory_answered _)
  have hlogged := State.logEntry_off u (s.taken f) ((hnoticed.flag (by decide)).trans hlog)
  have hnow : s.signal f = (u.logEntry (s.taken f)).react f.source (s.reactionOf (s.taken f)) := by
    rw [State.signal, htest, hu]
    rfl
  obtain ⟨v, hv⟩ : ∃ v, v = ({ u with belay := { u.belay with seq := u.belay.seq + 1 } } : State) := ⟨_, rfl⟩
  have hcopied := v.copyLast_keepsRegs (u.logBytes (s.taken f) (u.belay.seq + 1) true)
  have hkept : KeepsRegs u (s.signal f) ((List.range 8).map R.BELAY_LAST) := by
    rw [hnow, hlogged, ← hv]
    exact (((KeepsRegs.refl u _).of_regs (by rw [hv])).trans hcopied).of_regs (State.regs_react _ _ _)
  refine ⟨(hkept.event _ (by decide)).trans hsignalled, ?_, hnoticed.trans (hkept.mono (by decide))⟩
  rw [hnow, State.memory_react, hlogged, State.copyLast_rest]
  exact hmemory

end

end Sys2Proof.Machine
end

section
/-! DEMAND_ECC_ERROR (R255, R256, R590): a demand read of one codeword, in memory where nothing else is wrong. -/
namespace Sys2Proof.Machine

/-! ### Words of base camp, MRAM and DRAM -/

theorem State.demandEcc_baseCamp (s : State) {a : Nat} (h : inBaseCamp a = true) (up : List Nat) :
    s.demandEcc 9 0 a false up = s.memWord 9 (a / 8 * 8) 0 up ∧ inRom (a / 8 * 8) = false ∧ s.inDram (a / 8 * 8) = false := by
  have hrom : inRom (a / 8 * 8) = false := by rw [inBaseCamp_iff] at h; rw [inRom_eq_false_iff]; omega
  have hdram : s.inDram (a / 8 * 8) = false := by
    rw [inBaseCamp_iff] at h
    rw [← Bool.not_eq_true, State.inDram_iff]
    omega
  exact ⟨by simp [State.demandEcc, codewordOf, State.eccWord, h, hrom], hrom, hdram⟩

theorem State.demandEcc_mram (s : State) {a : Nat} (h : inMram a = true) (up : List Nat) :
    s.demandEcc 8 0 a false up = s.memWord 8 (a / 8 * 8) 0 up := by
  simp [State.demandEcc, codewordOf, State.eccWord, h]

theorem State.demandEcc_dram {s : State} {a : Nat} (h : s.inDram a = true) (up : List Nat) :
    s.demandEcc 7 0 a false up = s.memWord 7 (a / 8 * 8) 0 up := by
  simp [State.demandEcc, codewordOf, State.eccWord, h]

/-! ### Two wrong bits -/

theorem State.StoredRight.mark_memory {s : State} (hr : s.StoredRight) (a : Nat) :
    (s.mark a).memory = { s.memory with poison := if s.inDram a then wordsOf (lineOf a) 64 else [a / 8 * 8] } := by
  simp [State.mark, hr.poison]

/-- R571: what a fault signalled behind its count in `l` shows, while no log is copied to MRAM. -/
theorem State.signal_counted {s c : State} {l : List Nat} (f : FaultInput) (hkeeps : KeepsRegs s c l) (hbelay : c.belay = s.belay)
    (hmem : c.mem = s.mem) (hsrc : f.source < 64) (htest : s.belay.test = none) (hlog : s.flag F.BELAY_LOG_CTRL_EN = false)
    (hl : F.BELAY_LOG_CTRL_EN.reg ∉ l) :
    ((c.signal f).raw R.BELAY_PEND).getLsbD f.source = true ∧ (c.signal f).event P.BELAY E.BELAY_SIGNALLED = true ∧
      (c.signal f).memory = c.memory ∧ (c.signal f).mem = s.mem ∧ KeepsRegs c (c.signal f) (R.BELAY_PEND :: quietSignalRegs) := by
  have htest' : c.belay.test = none := hbelay ▸ htest
  have hlog' : c.flag F.BELAY_LOG_CTRL_EN = false := (hkeeps.flag hl).trans hlog
  obtain ⟨hevent, hmemory, hregs⟩ := State.signal_quiet f htest' hlog'
  exact ⟨c.pend_signal f htest' hsrc, hevent, hmemory, (c.mem_signal f htest' hlog').trans hmem, hregs⟩

/-- R256, R584: a word of base camp with two wrong bits. -/
theorem State.demandEcc_baseCamp_two {s : State} {a b c : Nat} (hin : inBaseCamp a = true) (hbc : b ≠ c) (hr : s.StoredRight)
    (htest : s.belay.test = none) (hlog : s.flag F.BELAY_LOG_CTRL_EN = false) :
    ∃ t, s.demandEcc 9 0 a false [b, c] = t ∧ t.memory = { s.memory with poison := [a / 8 * 8] } ∧
      t.fld F.BELAY_BC_ECC_UE = min (2 ^ F.BELAY_BC_ECC_UE.width - 1) (s.fld F.BELAY_BC_ECC_UE + 1) ∧ (t.raw R.BELAY_PEND).getLsbD 10 = true ∧
      t.event P.BELAY E.BELAY_SIGNALLED = true ∧ t.mem = s.mem ∧ KeepsPages s t [P.BELAY, P.TETHER] := by
  obtain ⟨hdemand, hrom, hdram⟩ := s.demandEcc_baseCamp hin [b, c]
  obtain ⟨u, hu⟩ : ∃ u, u = s.mark (a / 8 * 8) := ⟨_, rfl⟩
  have hmarked : u.memory = { s.memory with poison := [a / 8 * 8] } := by
    rw [hu, hr.mark_memory, hdram, if_neg Bool.false_ne_true, Nat.mul_div_cancel _ (by decide)]
  obtain ⟨v, hv⟩ : ∃ v, v = u.bumpSat F.BELAY_BC_ECC_UE F.BELAY_BC_ECC_USAT := ⟨_, rfl⟩
  have hkeeps : KeepsRegs s v [R.BELAY_BC_ECC] :=
    hv ▸ ((KeepsRegs.refl s _).of_regs (u := u) (by rw [hu]; rfl)).bumpSat (by decide) (by decide)
  have hrest : v = { u with regs := v.regs } := hv ▸ State.bumpSat_rest _ _ _
  have hcount : v.fld F.BELAY_BC_ECC_UE = min (2 ^ F.BELAY_BC_ECC_UE.width - 1) (s.fld F.BELAY_BC_ECC_UE + 1) := by
    rw [hv, State.fld_bumpSat _ (by decide) (by decide), hu]
    rfl
  obtain ⟨hpend, hevent, hmemory, hmem, hsignal⟩ := State.signal_counted (s := s) (c := v) (eccInput 9 0 (a / 8 * 8) 0 false) hkeeps
    (by rw [hrest, hu]; rfl) (by rw [hrest, hu]; rfl) (Nat.lt_of_sub_eq_succ rfl) htest hlog (by decide)
  refine ⟨v.signal (eccInput 9 0 (a / 8 * 8) 0 false), ?_, by rw [hmemory, hrest, hmarked], (hsignal.fld (by decide)).trans hcount, hpend,
    hevent, hmem, ((hkeeps.mono (by decide)).trans (hsignal.mono (List.subset_cons_self R.BELAY_BC_ECC _))).pages (by decide)⟩
  rw [hdemand, hr.memWord_two 0 hbc hrom, ← hu, State.eccReport, hv]
  simp [State.countUe, hrom]

/-- R255: the UE count of DRAM, and the log that names the first error. -/
theorem State.countUe_dram {s : State} (w source : Nat) (hvalid : s.flag F.DMC_ECC_ADDR_VALID = false) (hsource : source < 2 ^ F.DMC_ECC_ADDR_SOURCE.width) :
    (s.countUe 7 w source).fld F.DMC_ECC_UE_COUNT = min (2 ^ F.DMC_ECC_UE_COUNT.width - 1) (s.fld F.DMC_ECC_UE_COUNT + 1) ∧
      (s.countUe 7 w source).event P.DMC E.DMC_UE = true ∧ (s.countUe 7 w source).flag F.DMC_ECC_ADDR_VALID = true ∧
      (s.countUe 7 w source).fld F.DMC_ECC_ADDR_SOURCE = source ∧
      KeepsRegs s (s.countUe 7 w source) [R.DMC_ECC_UE, R.EVT_RAW P.DMC, R.DMC_ECC_ADDR] ∧
      s.countUe 7 w source = { s with regs := (s.countUe 7 w source).regs } := by
  obtain ⟨u, hu⟩ : ∃ u, u = (s.bumpSat F.DMC_ECC_UE_COUNT F.DMC_ECC_UE_SAT).raise P.DMC E.DMC_UE := ⟨_, rfl⟩
  have hkeeps : KeepsRegs s u [R.DMC_ECC_UE, R.EVT_RAW P.DMC] :=
    hu ▸ ((KeepsRegs.refl s _).bumpSat (by decide) (by decide)).raise (by decide)
  have hrest : u = { s with regs := u.regs } := hu ▸ State.only_raise (s.bumpSat_rest _ _)
  have hvalid' : u.flag F.DMC_ECC_ADDR_VALID = false := (hkeeps.flag (by decide)).trans hvalid
  have hnow : s.countUe 7 w source =
      ((u.setFld F.DMC_ECC_ADDR_ADDR (lineOf w)).setFld F.DMC_ECC_ADDR_SOURCE source).setFld F.DMC_ECC_ADDR_VALID 1 := by
    simp [State.countUe, ← hu, hvalid']
  have hlogged : KeepsRegs u (s.countUe 7 w source) [R.DMC_ECC_ADDR] :=
    hnow ▸ (((KeepsRegs.refl u _).setFld (by decide)).setFld (by decide)).setFld (by decide)
  refine ⟨?_, ?_, ?_, ?_, (hkeeps.mono (by decide)).trans (hlogged.mono (by decide)), ?_⟩
  · rw [hlogged.fld (by decide), hu, State.fld_raise_ne _ _ _ _ (by decide), State.fld_bumpSat _ (by decide) (by decide)]
  · rw [hlogged.event _ (by decide), hu, State.event_raise _ _ _ (by decide)]
  · rw [hnow, State.flag, State.fld_setFld _ _ _ (by decide)]
    rfl
  · rw [hnow, State.fld_setFld_ne _ _ _ _ (by decide), State.fld_setFld _ _ _ (by decide)]
    exact Nat.mod_eq_of_lt hsource
  · rw [hnow, hrest]
    rfl

/-- R256, R584: a word of DRAM with two wrong bits. -/
theorem State.demandEcc_dram_two {s : State} {a b c : Nat} (hin : s.inDram a = true) (hbc : b ≠ c) (hr : s.StoredRight)
    (htest : s.belay.test = none) (hlog : s.flag F.BELAY_LOG_CTRL_EN = false) (hvalid : s.flag F.DMC_ECC_ADDR_VALID = false) :
    ∃ t, s.demandEcc 7 0 a false [b, c] = t ∧ t.memory = { s.memory with poison := wordsOf (lineOf a) 64 } ∧
      t.fld F.DMC_ECC_UE_COUNT = min (2 ^ F.DMC_ECC_UE_COUNT.width - 1) (s.fld F.DMC_ECC_UE_COUNT + 1) ∧ t.event P.DMC E.DMC_UE = true ∧
      t.flag F.DMC_ECC_ADDR_VALID = true ∧ t.fld F.DMC_ECC_ADDR_SOURCE = 0 ∧ (t.raw R.BELAY_PEND).getLsbD 8 = true ∧
      t.event P.BELAY E.BELAY_SIGNALLED = true ∧ t.mem = s.mem ∧ KeepsPages s t [P.BELAY, P.TETHER, P.DMC] := by
  have hbounds := (s.inDram_iff a).1 hin
  have hdram : s.inDram (a / 8 * 8) = true := by rw [State.inDram_iff]; omega
  have hrom : inRom (a / 8 * 8) = false := by rw [inRom_eq_false_iff]; omega
  obtain ⟨u, hu⟩ : ∃ u, u = s.mark (a / 8 * 8) := ⟨_, rfl⟩
  have hmarked : u.memory = { s.memory with poison := wordsOf (lineOf a) 64 } := by
    have hline : lineOf (a / 8 * 8) = lineOf a := by unfold lineOf; omega
    rw [hu, hr.mark_memory, hdram, if_pos rfl, hline]
  have huregs : u.regs = s.regs := by rw [hu]; rfl
  obtain ⟨v, hv⟩ : ∃ v, v = u.countUe 7 (a / 8 * 8) 0 := ⟨_, rfl⟩
  obtain ⟨hcount, hue, hnamed, hsource, hkeeps, hrest⟩ := State.countUe_dram (s := u) (a / 8 * 8) 0 (by rw [hu]; exact hvalid) (by decide)
  rw [← hv] at hcount hue hnamed hsource hkeeps hrest
  have hall : KeepsRegs s v [R.DMC_ECC_UE, R.EVT_RAW P.DMC, R.DMC_ECC_ADDR] := ((KeepsRegs.refl s _).of_regs huregs).trans hkeeps
  obtain ⟨hpend, hevent, hmemory, hmem, hsignal⟩ := State.signal_counted (s := s) (c := v) (eccInput 7 0 (a / 8 * 8) 0 false) hall
    (by rw [hrest, hu]; rfl) (by rw [hrest, hu]; rfl) (Nat.lt_of_sub_eq_succ rfl) htest hlog (by decide)
  refine ⟨v.signal (eccInput 7 0 (a / 8 * 8) 0 false), ?_, by rw [hmemory, hrest, hmarked], (hsignal.fld (by decide)).trans (hcount.trans ?_),
    (hsignal.event _ (by decide)).trans hue, (hsignal.flag (by decide)).trans hnamed, (hsignal.fld (by decide)).trans hsource, hpend,
    hevent, hmem, ?_⟩
  · rw [State.demandEcc_dram hin, hr.memWord_two 0 hbc hrom, ← hu, State.eccReport, hv]
  · rw [hu]
    rfl
  · exact ((hall.mono (List.subset_append_left _ (R.BELAY_PEND :: quietSignalRegs))).trans
      (hsignal.mono (List.subset_append_right _ _))).pages (by decide)

/-! ### Arrays of the caches -/

/-- R215: the main hart of a visible hart is the hart itself. -/
theorem State.mainOf_of_visible {s : State} {h : Nat} (hv : s.visible.contains h = true) : s.mainOf h = h := by
  unfold State.visible at hv
  unfold State.mainOf
  split at hv <;> simp_all
  omega

/-- R255: a parity error in an L1I drops the line, which its pair holds. -/
theorem State.demandEcc_l1i {s : State} {unit h a way b : Nat} (hmain : s.mainOf unit = h) (hr : s.StoredRight)
    (hlines : s.memory.lines = [⟨.l1i h, lineOf a, .s, false, way⟩]) :
    s.demandEcc 0 unit a false [b] = { s with memory := { s.memory with lines := [] } } := by
  have hline : lineOf (a / 4 * 4) = lineOf a := by unfold lineOf; omega
  have hdrop : s.demandEcc 0 unit a false [b] = s.dropLine (.l1i h) (lineOf a) := by
    simp [State.demandEcc, codewordOf, State.eccWord, hr.wrongBits, hr.dropFlips, toggleBit, State.mirrored, hmain, hline]
  rw [hdrop, hr.dropLine, hlines]
  simp [State.setLines]

/-- An array that holds no line meets nothing. -/
theorem State.demandEcc_empty {s : State} {k : Nat} (hk : k ≤ 3) (hlines : s.memory.lines = []) (hr : s.StoredRight) (unit a : Nat) (check : Bool)
    (up : List Nat) : s.demandEcc k unit a check up = s := by
  have hnone (c : CacheId) (l : Nat) : s.arrayLine c l = none := by simp [State.arrayLine, State.lineIn, hlines]
  have hword : s.demandEcc k unit a check up = s.eccWord k unit (codewordOf k a) 0 up := by
    unfold State.demandEcc
    rw [if_neg (by omega), if_neg (by omega), if_neg (by omega), if_neg (by omega)]
  rw [hword]
  unfold State.eccWord
  rw [if_neg (by omega)]
  dsimp only
  rw [hr.dropFlips]
  split
  · rfl
  · split
    · exact hr.dropLine_absent (by simp [hlines]) _
    · rw [if_pos ⟨hk, by rw [hnone]; rfl⟩]

/-! ### The command -/

section
variable {s : State} (a : BitVec 40)

theorem State.exec_demand_baseCamp_one (b : Fin 72) (hin : inBaseCamp a.toNat = true) (hr : s.StoredRight)
    (hlog : s.flag F.BELAY_CFG_LOG_CE = false) :
    ∃ t, exec (.demandEccError 9 0 a false (.one b)) s = .next t ∧ s.Corrected t F.BELAY_BC_ECC_CE ∧
      KeepsRegs s t [R.BELAY_BC_ECC, R.EVT_RAW P.BELAY] ∧ t = { s with regs := t.regs } := by
  obtain ⟨hdemand, hrom, -⟩ := s.demandEcc_baseCamp hin [b.val]
  exact ⟨_, congrArg Host.Outcome.next (hdemand.trans (hr.memWord_one _ _ _ _)), State.eccCorrected_baseCamp hlog _ _ _ _ _ hrom⟩

theorem State.exec_demand_mram_one (b : Fin 72) (hin : inMram a.toNat = true) (hr : s.StoredRight) (hlog : s.flag F.BELAY_CFG_LOG_CE = false) :
    ∃ t, exec (.demandEccError 8 0 a false (.one b)) s = .next t ∧ s.Corrected t F.MRAMC_ECC_CE_COUNT ∧ t.event P.MRAMC E.MRAMC_CE = true ∧
      KeepsRegs s t [R.MRAMC_ECC_CE, R.EVT_RAW P.MRAMC, R.EVT_RAW P.BELAY] ∧ t = { s with regs := t.regs } :=
  ⟨_, congrArg Host.Outcome.next ((s.demandEcc_mram hin _).trans (hr.memWord_one _ _ _ _)), State.eccCorrected_mram hlog _ _ _ _ _⟩

theorem State.exec_demand_dram_one (b : Fin 72) (hin : s.inDram a.toNat = true) (hr : s.StoredRight) (hlog : s.flag F.BELAY_CFG_LOG_CE = false) :
    ∃ t, exec (.demandEccError 7 0 a false (.one b)) s = .next t ∧ s.Corrected t F.DMC_ECC_CE_COUNT ∧ t.event P.DMC E.DMC_CE = true ∧
      t.fld F.DMC_ECC_SYN_SYNDROME = b.val ∧ t.fld F.DMC_ECC_SYN_CHANNEL = dmcChannel (a.toNat / 8 * 8) ∧ t.fld F.DMC_ECC_SYN_WORD = a.toNat / 8 % 8 ∧
      KeepsRegs s t [R.DMC_ECC_CE, R.DMC_ECC_SYN, R.EVT_RAW P.DMC, R.EVT_RAW P.BELAY] ∧ t = { s with regs := t.regs } := by
  obtain ⟨hcorrected, hevent, ⟨hsyndrome, hchannel, hword⟩, hregs, hrest⟩ :=
    State.eccCorrected_dram hlog 0 (a.toNat / 8 * 8) 0 b.val false (Nat.lt_trans b.isLt (by decide))
  rw [Nat.mul_div_cancel _ (by decide)] at hword
  exact ⟨_, congrArg Host.Outcome.next ((State.demandEcc_dram hin _).trans (hr.memWord_one _ _ _ _)), hcorrected, hevent, hsyndrome, hchannel,
    hword, hregs, hrest⟩

end

end Sys2Proof.Machine
end

section
/-! The scrubs of the L3 and of the fixed-rate arrays (R279), where nothing stored is wrong. -/
namespace Sys2Proof.Machine

/-! ### Lines read -/

namespace State.StoredRight
variable {s : State} (hr : s.StoredRight)
include hr

/-- A line that reads as it was written. -/
theorem eccLine_right (array unit l source word : Nat) : s.eccLine array unit l source word [] = s := by
  unfold State.eccLine
  split
  · exact hr.eccWord_right _ _ _ _
  · split <;> exact forEach_eq_self fun i _ => by rw [ite_self, hr.eccWord_right]

/-- An upset in one word of a line of a data array. -/
theorem eccLine_hit {array word : Nat} (htag : tagArray array = false) (harr : array ≠ 0) (unit l source : Nat) (up : List Nat) (hword : word < 8)
    (hright : (s.eccWord array unit (l + 8 * word) source up).StoredRight) :
    s.eccLine array unit l source word up = s.eccWord array unit (l + 8 * word) source up := by
  unfold State.eccLine
  rw [htag, if_neg Bool.false_ne_true, if_neg harr, forEach_only hword (fun i hi => by rw [if_neg hi, hr.eccWord_right])]
  · rw [if_pos rfl]
  · intro i hi
    rw [if_neg hi, if_pos rfl, hright.eccWord_right]

end State.StoredRight

/-! ### The L3 -/

/-- One position passes of the 16,384 of a slice. -/
theorem State.scrubL3_next {s t : State} {slice hit word : Nat} {up : List Nat} (hen : s.flag F.L3_CFG_SCRUB_EN = true) (hrun : s.fabricRuns = true)
    (hread : forEach 2 (fun c t => t.scrubSlice c s.memory.l3Scrub hit word (if c = slice then up else [])) s = t)
    (hk : s.memory.l3Scrub + 1 < 16384) :
    s.scrubL3 slice hit word up = { t with memory := { t.memory with l3Scrub := s.memory.l3Scrub + 1 } } := by
  unfold State.scrubL3
  rw [hen, hrun]
  dsimp only
  rw [hread, if_neg (by decide), if_neg (Nat.ne_of_lt hk), Nat.mod_eq_of_lt hk]

/-- An L3 that holds no line has nothing to read. -/
theorem State.scrubSlice_empty {s : State} (hlines : s.memory.lines = []) (slice index hit word : Nat) (up : List Nat) :
    s.scrubSlice slice index hit word up = s := by
  simp [State.scrubSlice, State.l3At, State.filterLines, hlines]

theorem State.scrubSlices_empty {s : State} (hlines : s.memory.lines = []) (k slice hit word : Nat) (up : List Nat) :
    forEach 2 (fun c t => t.scrubSlice c k hit word (if c = slice then up else [])) s = s :=
  forEach_eq_self fun _ _ => State.scrubSlice_empty hlines _ _ _ _ _

/-- No snoop-filter entry records a line that no L2 holds. -/
theorem State.filterLines_l3 {s : State} {l way : Nat} {st : Mesi} {dirty : Bool} (hlines : s.memory.lines = [⟨.l3, l, st, dirty, way⟩]) (set : Nat) :
    s.filterLines set = [] := by
  simp [State.filterLines, hlines]

namespace State.StoredRight
variable {s : State} (hr : s.StoredRight)
include hr

/-- A slice whose lines read as they were written. -/
theorem scrubSlice_right (slice index hit word : Nat) : s.scrubSlice slice index hit word [] = s := by
  unfold State.scrubSlice
  simp only [ite_self, forAll, List.foldl_cons, List.foldl_nil]
  cases s.l3At (2 * (index / 16) + slice) (index % 16) with
  | none => split <;> simp only [hr.eccLine_right]
  | some l =>
    simp only [hr.eccLine_right, ite_self]
    split <;> rfl

/-- A word of the one line that the L3 holds. -/
theorem eccWord_l3_one {l way word : Nat} (hlines : s.memory.lines = [⟨.l3, l, .e, false, way⟩]) (hl : l % 64 = 0) (hword : word < 8) (b : Nat) :
    s.eccWord 3 0 (l + 8 * word) 1 [b] = s.eccCorrected 3 0 (l + 8 * word) 1 b false := by
  have hline : lineOf (l + 8 * word) = l := by unfold lineOf; omega
  have hheld : (s.arrayLine .l3 l).isNone = false := by simp [State.arrayLine, State.mirrored, State.lineIn, hlines]
  simp [State.eccWord, hr.wrongBits, hr.dropFlips, toggleBit, eccCache, hline, hheld, State.secDed, State.flipsAt, hr.flips]

/-- The slice of the L3 that holds one line, at the position the line has there. -/
theorem scrubSlice_hit {slice l way word index : Nat} (hlines : s.memory.lines = [⟨.l3, l, .e, false, way⟩]) (hway : way < 16)
    (hslice : l / 64 % 2 = slice) (hindex : index = 16 * (l / 64 % 2048 / 2) + way) (hword : word < 8) (up : List Nat) {t : State}
    (ht : s.eccWord 3 0 (l + 8 * word) 1 up = t) (hright : t.StoredRight) (hkept : t.memory.lines = s.memory.lines) :
    s.scrubSlice slice index 3 word up = t := by
  have hset : 2 * (index / 16) + slice = l / 64 % 2048 := by omega
  have hat : s.l3At (2 * (index / 16) + slice) (index % 16) = some l := by
    have hwayAt : index % 16 = way := by omega
    rw [hset, hwayAt]
    simp [State.l3At, hlines]
  have hdata : s.eccLine 3 0 l 1 word up = t := (hr.eccLine_hit rfl (by decide) 0 l 1 up hword (ht.symm ▸ hright)).trans ht
  unfold State.scrubSlice
  dsimp only
  rw [hat]
  simp only [forAll, List.foldl_cons, List.foldl_nil]
  simp [hdata, hright.eccLine_right, State.filterLines_l3 (hkept.trans hlines)]

/-- Both slices, of which one holds a line with a wrong bit. -/
theorem scrubSlices_hit {slice word k : Nat} {up : List Nat} {t : State} (hslice : slice < 2) (ht : s.scrubSlice slice k 3 word up = t)
    (hright : t.StoredRight) : forEach 2 (fun c t => t.scrubSlice c k 3 word (if c = slice then up else [])) s = t := by
  rw [forEach_only hslice (fun c hc => by rw [if_neg hc, hr.scrubSlice_right])]
  · rw [if_pos rfl, ht]
  · intro c hc
    rw [if_neg hc, if_pos rfl, ht, hright.scrubSlice_right]

end State.StoredRight

/-! ### The commands -/

section
variable {s : State}

theorem State.exec_l3Scrub_empty (slice : Fin 2) (hit : Fin 4) (word : Fin 8) (up : EccUpset) (hen : s.flag F.L3_CFG_SCRUB_EN = true)
    (hrun : s.fabricRuns = true) (hlines : s.memory.lines = []) (hk : s.memory.l3Scrub + 1 < 16384) :
    ∃ t, exec (.l3Scrub slice hit word up) s = .next t ∧ t = { s with memory := { s.memory with l3Scrub := s.memory.l3Scrub + 1 } } :=
  ⟨_, congrArg Host.Outcome.next (State.scrubL3_next hen hrun (State.scrubSlices_empty hlines _ _ _ _ _) hk), rfl⟩

theorem State.exec_l3Scrub_pass (slice : Fin 2) (hit : Fin 4) (word : Fin 8) (up : EccUpset) (hen : s.flag F.L3_CFG_SCRUB_EN = true)
    (hrun : s.fabricRuns = true) (hlines : s.memory.lines = []) (hk : s.memory.l3Scrub = 16383) :
    ∃ t, exec (.l3Scrub slice hit word up) s = .next t ∧
      t.fld F.BELAY_SCRUB_STAT_L3_PASS_US = (16384 * s.fld F.L3_SCRUB_INTERVAL / 1000) % 2 ^ F.BELAY_SCRUB_STAT_L3_PASS_US.width ∧
      KeepsRegs s t [F.BELAY_SCRUB_STAT_L3_PASS_US.reg] ∧ t = { s with regs := t.regs, memory := { s.memory with l3Scrub := 0 } } := by
  obtain ⟨u, hu⟩ : ∃ u, u = ({ s with memory := { s.memory with l3Scrub := 0 } } : State) := ⟨_, rfl⟩
  have hscrub : s.scrubL3 slice.val (3 + hit.val) word.val (upsetBits up) =
      u.setFld F.BELAY_SCRUB_STAT_L3_PASS_US (16384 * u.fld F.L3_SCRUB_INTERVAL / 1000) := by
    unfold State.scrubL3
    rw [hen, hrun]
    dsimp only
    rw [State.scrubSlices_empty hlines, hk, hu]
    rfl
  refine ⟨_, congrArg Host.Outcome.next hscrub, ?_, ?_, ?_⟩
  · rw [State.fld_setFld _ _ _ (by decide), hu]
    rfl
  · exact ((KeepsRegs.refl s _).of_regs (by rw [hu])).setFld (by decide)
  · rw [hu]
    rfl

theorem State.exec_l3Scrub_one (slice : Fin 2) (l way : Nat) (word : Fin 8) (b : Fin 72) (hen : s.flag F.L3_CFG_SCRUB_EN = true)
    (hrun : s.fabricRuns = true) (hr : s.StoredRight) (hlines : s.memory.lines = [⟨.l3, l, .e, false, way⟩]) (hway : way < 16) (hl : l % 64 = 0)
    (hslice : l / 64 % 2 = slice.val) (hindex : s.memory.l3Scrub = 16 * (l / 64 % 2048 / 2) + way) (hk : s.memory.l3Scrub + 1 < 16384)
    (hlog : s.flag F.BELAY_CFG_LOG_CE = false) :
    ∃ t, exec (.l3Scrub slice 0 word (.one b)) s = .next t ∧ s.Corrected t F.L3_ECC_CE_COUNT ∧ t.event P.L3 E.L3_CE = true ∧
      KeepsRegs s t [R.L3_ECC_CE, R.EVT_RAW P.L3, R.EVT_RAW P.BELAY] ∧
      t = { s with regs := t.regs, memory := { s.memory with l3Scrub := s.memory.l3Scrub + 1 } } := by
  obtain ⟨t, ht⟩ : ∃ t, t = s.eccCorrected 3 0 (l + 8 * word.val) 1 b.val false := ⟨_, rfl⟩
  obtain ⟨hcorrected, hevent, hkeeps, hrest⟩ := State.eccCorrected_l3 hlog 0 (l + 8 * word.val) 1 b.val false
  rw [← ht] at hcorrected hevent hkeeps hrest
  have hmemory : t.memory = s.memory := by rw [hrest]
  have hright : t.StoredRight := by unfold State.StoredRight; rw [hmemory]; exact hr
  have hword := (hr.eccWord_l3_one hlines hl word.isLt b.val).trans ht.symm
  have hslices := hr.scrubSlices_hit slice.isLt (hr.scrubSlice_hit hlines hway hslice hindex word.isLt [b.val] hword hright (by rw [hmemory])) hright
  refine ⟨_, congrArg Host.Outcome.next (State.scrubL3_next hen hrun hslices hk), hcorrected, hevent, hkeeps.of_regs rfl, ?_⟩
  rw [hrest]

theorem State.exec_l3Scrub_stands (slice : Fin 2) (hit : Fin 4) (word : Fin 8) (up : EccUpset)
    (h : s.flag F.L3_CFG_SCRUB_EN = false ∨ s.fabricRuns = false) : ∃ t, exec (.l3Scrub slice hit word up) s = .next t ∧ t = s :=
  ⟨_, congrArg Host.Outcome.next (if_pos (by rcases h with h | h <;> simp [h])), rfl⟩

/-- Base camp is scrubbed when no cache holds a line. -/
theorem State.exec_sramScrub_baseCamp (word : Fin 8) (b : Fin 72) (hrun : s.fabricRuns = true) (hlines : s.memory.lines = []) (hr : s.StoredRight)
    (hk : s.memory.sramScrub + 1 < 16384) (hlog : s.flag F.BELAY_CFG_LOG_CE = false) :
    ∃ t, exec (.sramScrub .baseCamp word (.one b)) s = .next t ∧ s.Corrected t F.BELAY_BC_ECC_CE ∧
      KeepsRegs s t [R.BELAY_BC_ECC, R.EVT_RAW P.BELAY] ∧
      t = { s with regs := t.regs, memory := { s.memory with sramScrub := s.memory.sramScrub + 1 } } := by
  have hnone (c : CacheId) : s.lineAt c s.memory.sramScrub = none := by simp [State.lineAt, hlines]
  obtain ⟨w, hw⟩ : ∃ w, w = 0x01000000 + 64 * s.memory.sramScrub + 8 * word.val := ⟨_, rfl⟩
  have hrom : inRom w = false := by rw [inRom_eq_false_iff]; omega
  obtain ⟨t, ht⟩ : ∃ t, t = s.eccCorrected 9 0 w 1 b.val false := ⟨_, rfl⟩
  obtain ⟨hcorrected, hkeeps, hrest⟩ := State.eccCorrected_baseCamp hlog 0 w 1 b.val false hrom
  rw [← ht] at hcorrected hkeeps hrest
  have hmemory : t.memory = s.memory := by rw [hrest]
  have hright : t.StoredRight := by unfold State.StoredRight; rw [hmemory]; exact hr
  have hread : s.eccWord 9 0 (0x01000000 + 64 * s.memory.sramScrub + 8 * word.val) 1 [b.val] = t := by
    rw [← hw, ht, ← hr.memWord_one]
    rfl
  have hline : s.eccLine 9 0 (0x01000000 + 64 * s.memory.sramScrub) 1 word.val [b.val] = t :=
    (hr.eccLine_hit rfl (by decide) 0 _ 1 _ word.isLt (hread.symm ▸ hright)).trans hread
  have hscrub : s.scrubSram .baseCamp word.val [b.val] = { t with memory := { t.memory with sramScrub := s.memory.sramScrub + 1 } } := by
    unfold State.scrubSram
    rw [hrun, if_neg (by decide)]
    dsimp only
    rw [forEach_eq_self (fun h _ => by simp only [hnone]), hline, if_neg (Nat.ne_of_lt hk), Nat.mod_eq_of_lt hk]
  refine ⟨_, congrArg Host.Outcome.next hscrub, hcorrected, hkeeps.of_regs rfl, ?_⟩
  rw [hrest]

theorem State.exec_sramScrub_stands (hit : SramArray) (word : Fin 8) (up : EccUpset) (hrun : s.fabricRuns = false) :
    ∃ t, exec (.sramScrub hit word up) s = .next t ∧ t = s :=
  ⟨_, congrArg Host.Outcome.next (if_pos (by simp [hrun])), rfl⟩

end

end Sys2Proof.Machine
end

section
/-! The statement about the caches and the L3 (R253 to R258, R279, R288), assembled from the lemmas about its commands. -/
namespace Sys2Proof.Machine

/-- Settles O24: it holds. These are the model's choices: the set that a line's address picks, so the position at which the scrub finds it
(assumption log 12); that maintenance takes effect as MAINT_DONE reports it, with the ways taken when it started, and the order of the scrubs
(log 23); that a checker's array holds what its main hart's does (log 87). -/
theorem cachesAreMaintainedSnoopedAndChecked : Obligations.CachesAreMaintainedSnoopedAndChecked := by
  unfold Obligations.CachesAreMaintainedSnoopedAndChecked
  refine ⟨?_, ?_, ?_, ?_, ?_, ?_, ?_, ?_, ?_, ?_, ?_, ?_, ?_, ?_, ?_, ?_, ?_, ?_, ?_, ?_, ?_, ?_, ?_, ?_, ?_, ?_⟩
  -- L3_MAINT
  · exact fun s q part hopen hbusy => State.exec_cleanAll_starts part hopen hbusy
  · exact fun s q part hopen hbusy => State.exec_flushWays_starts part hopen hbusy
  · exact fun s q part op ways hopen hbusy hmaint => State.exec_maint_refused part hopen hbusy hmaint
  · exact fun s l way ways hrun hmaint hdram hsound hlines => State.exec_maintDone_clean hrun hsound hmaint hdram hlines
  · exact fun s l way ways hrun hmaint hlines hsound => State.exec_maintDone_flush_clean_line hrun hsound hmaint hlines
  · exact fun s l way ways hrun hmaint hway hdram hsound hlines => State.exec_maintDone_flush_dirty_line hrun hsound hmaint hway hdram hlines
  · exact fun s hmaint => ⟨s, congrArg Host.Outcome.next (State.maintDone_of_none hmaint), rfl⟩
  -- snoops
  · exact fun s h line way hv hdram hsound hlines => State.exec_snoop_share_dirty hv hsound hdram hlines
  · exact fun s h line way hv hdram hsound hlines => State.exec_snoop_inval_dirty hv hsound hdram hlines
  · exact fun s h line way hv hsound hlines => State.exec_snoop_clean hv hsound hlines
  · exact fun s h line way hv hsound hlines => State.exec_snoop_beside_l3 hv hsound hlines
  · exact fun s kind h line x hlines hx => State.exec_snoop_own_or_other kind hlines hx
  -- errors that a demand read meets
  · exact fun s a b hin ⟨hr, _⟩ hlog => State.exec_demand_baseCamp_one a b hin hr hlog
  · exact fun s a b hin ⟨hr, _⟩ hlog => State.exec_demand_mram_one a b hin hr hlog
  · exact fun s a b hin ⟨hr, _⟩ hlog => State.exec_demand_dram_one a b hin hr hlog
  · intro s a b c hin hbc ⟨hr, _⟩ htest hlog _
    obtain ⟨t, ht, hresult⟩ := State.demandEcc_baseCamp_two hin (Fin.val_ne_of_ne hbc) hr htest hlog
    exact ⟨t, congrArg Host.Outcome.next ht, hresult⟩
  · intro s a b c hin hbc ⟨hr, _⟩ htest hlog _ hvalid
    obtain ⟨t, ht, hresult⟩ := State.demandEcc_dram_two hin (Fin.val_ne_of_ne hbc) hr htest hlog hvalid
    exact ⟨t, congrArg Host.Outcome.next ht, hresult⟩
  · exact fun s h a way b hv hlines ⟨hr, _⟩ =>
      ⟨_, congrArg Host.Outcome.next (State.demandEcc_l1i (State.mainOf_of_visible hv) hr hlines), rfl⟩
  · intro s pair a way b hguard hlines ⟨hr, _⟩
    have hmain : s.mainOf (2 * pair.val + 1) = 2 * pair.val := by rw [State.mainOf, if_pos hguard]; omega
    exact ⟨_, congrArg Host.Outcome.next (State.demandEcc_l1i hmain hr hlines), rfl⟩
  · exact fun s k h a up hk ⟨hlines, hflips, hpoison, hmarks, _⟩ =>
      ⟨_, congrArg Host.Outcome.next (State.demandEcc_empty hk hlines ⟨hflips, hpoison, hmarks⟩ _ _ _ _), rfl⟩
  -- scrubs
  · exact fun s slice hit word up hen hrun hlines hk => State.exec_l3Scrub_empty slice hit word up hen hrun hlines hk
  · exact fun s slice hit word up hen hrun hlines hk => State.exec_l3Scrub_pass slice hit word up hen hrun hlines hk
  · exact fun s slice l way word b hen hrun ⟨hr, _⟩ hlines hway hl hslice hindex hk hlog =>
      State.exec_l3Scrub_one slice l way word b hen hrun hr hlines hway hl hslice hindex hk hlog
  · exact fun s slice hit word up h => State.exec_l3Scrub_stands slice hit word up h
  · exact fun s word b hrun hlines ⟨hr, _⟩ hk hlog => State.exec_sramScrub_baseCamp word b hrun hlines hr hk hlog
  · exact fun s hit word up hrun => State.exec_sramScrub_stands hit word up hrun

end Sys2Proof.Machine
end

section
/-! The DRAM controller serves what it holds (R265 to R268), and its scrub (R272, R280), where nothing stored is wrong. -/
namespace Sys2Proof.Machine

/-! ### What serving a request changes -/

/-- The registers that show the buffers and the check blocks of the DMC. -/
def dmcShown : List Nat := [R.DMC_QUEUE_STAT, R.DMC_CHAN_STAT]

/-- R267, R268: nothing has changed but the requests held, the rows open, the check blocks held, what shows of them, and the free values
taken. -/
structure State.DramServed (s t : State) : Prop where
  keeps : KeepsRegs s t dmcShown
  rest : t = { s with regs := t.regs, fresh := t.fresh,
                      memory := { s.memory with dmc := t.memory.dmc, checkBlocks := t.memory.checkBlocks, openRows := t.memory.openRows } }

theorem State.DramServed.trans {s t u : State} (hst : s.DramServed t) (htu : t.DramServed u) : s.DramServed u :=
  ⟨hst.keeps.trans htu.keeps, by rw [htu.rest, hst.rest]⟩

theorem State.ChecksOnly.dramServed {s t : State} (h : s.ChecksOnly t) : s.DramServed t :=
  ⟨h.keeps.mono (by decide), by rw [h.rest]⟩

theorem State.showQueues_keepsRegs (s : State) : KeepsRegs s s.showQueues [R.DMC_QUEUE_STAT] := by
  unfold State.showQueues
  exact ((((KeepsRegs.refl s _).setFld (by decide)).setFld (by decide)).setFld (by decide)).setFld (by decide)

theorem State.showQueues_rest (s : State) : s.showQueues = { s with regs := s.showQueues.regs } := rfl

theorem State.setDmc_keepsRegs (s : State) (l : List DmcRequest) : KeepsRegs s (s.setDmc l) [R.DMC_QUEUE_STAT] := by
  have hheld : KeepsRegs s ({ s with memory := { s.memory with dmc := l } } : State) [R.DMC_QUEUE_STAT] := fun _ _ => rfl
  exact hheld.trans (State.showQueues_keepsRegs _)

theorem State.setDmc_rest (s : State) (l : List DmcRequest) :
    s.setDmc l = { s with regs := (s.setDmc l).regs, memory := { s.memory with dmc := l } } :=
  State.showQueues_rest _

theorem State.dramServed_setDmc (s : State) (l : List DmcRequest) : s.DramServed (s.setDmc l) :=
  ⟨(s.setDmc_keepsRegs l).mono (by decide), by rw [s.setDmc_rest l]⟩

theorem State.dramServed_openRow (s : State) (r : OpenRow) : s.DramServed (s.openRow r) := ⟨fun _ _ => rfl, rfl⟩

theorem State.DramServed.storedRight {s t : State} (h : s.DramServed t) (hr : s.StoredRight) : t.StoredRight := by
  rw [h.rest]
  exact hr

/-! ### One request -/

/-- The buffers that a request has left, with its row open. -/
def State.opened (s : State) (r : DmcRequest) : State := (s.setDmc []).openRow (rowOf r.addr)

/-- R268: a channel with one request serves it. -/
theorem State.dmcServe_one {s : State} {r : DmcRequest} (hdmc : s.memory.dmc = [r]) (hqueue : r.queue ≤ 2) :
    s.dmcServe r.channel = (s.opened r).dmcPerform r := by
  have hready (q : Nat) : s.dmcReady r.channel q 0 = (r.queue == q) := by simp [State.dmcReady, hdmc]
  have hpick (q : Nat) : s.dmcPick r.channel q = if r.queue = q then some 0 else none := by
    have hlist : (List.range s.memory.dmc.length).filter (s.dmcReady r.channel q) = if r.queue = q then [0] else [] := by
      simp [hdmc, List.range_succ, List.filter_cons, hready]
    unfold State.dmcPick
    dsimp only
    rw [hlist]
    split
    · simp only [List.find?_cons, List.find?_nil, List.head?_cons]
      split <;> rfl
    · rfl
  have hfirst : [0, 1, 2].findSome? (s.dmcPick r.channel) = some 0 := by
    have hcases : r.queue = 0 ∨ r.queue = 1 ∨ r.queue = 2 := by omega
    rcases hcases with hq | hq | hq <;> simp [hpick, hq]
  simp [State.dmcServe, hfirst, State.dmcServeAt, hdmc, State.opened]

theorem State.dramServed_opened (s : State) (r : DmcRequest) : s.DramServed (s.opened r) :=
  (s.dramServed_setDmc []).trans (State.dramServed_openRow _ _)

theorem State.dmc_opened (s : State) (r : DmcRequest) : (s.opened r).memory.dmc = [] := rfl

theorem State.rowOf_mem_opened (s : State) (r : DmcRequest) : rowOf r.addr ∈ (s.opened r).memory.openRows := by
  simp [State.opened, State.openRow]

/-! ### The scrub read of a channel -/

theorem lineOf_dmcAddr (c k : Nat) : lineOf (dmcAddr c (64 * k)) = dmcAddr c (64 * k) := by
  unfold lineOf dmcAddr
  omega

/-- R265: the channel of a word of a channel's line, and its place there. -/
theorem dmcChannel_dmcAddr {c word : Nat} (hc : c < 2) (hword : word < 8) (k : Nat) :
    dmcChannel (dmcAddr c (64 * k) + 8 * word) = c ∧ (dmcAddr c (64 * k) + 8 * word) / 8 % 8 = word := by
  unfold dmcChannel dmcAddr
  omega

/-- R272: a scrub read that finds nothing queued reads its line at once. -/
theorem State.scrubIssue_idle {s : State} (hsound : s.SoundMemory) (c word : Nat) (up : List Nat) :
    ∃ v, s.DramServed v ∧ v.memory.dmc = [] ∧
      s.scrubIssue c word up = { v.memLine 7 (dmcAddr c (64 * s.memory.dmcScrub.1)) 1 word up with resp := s.resp } := by
  obtain ⟨hr, hdmc⟩ := hsound
  obtain ⟨l, hl⟩ : ∃ l, l = dmcAddr c (64 * s.memory.dmcScrub.1) := ⟨_, rfl⟩
  obtain ⟨r, hreq⟩ : ∃ r, r = (⟨c, l, 2, 64, [], some (word, up)⟩ : DmcRequest) := ⟨_, rfl⟩
  obtain ⟨u, hu⟩ : ∃ u, u = (s.setDmc [r]).opened r := ⟨_, rfl⟩
  have hserved : s.DramServed (u.touchCheck l false) := by
    rw [hu]
    exact ((s.dramServed_setDmc [r]).trans (State.dramServed_opened _ r)).trans (State.checksOnly_touchCheck _ _ _).dramServed
  have hnow : (s.setDmc [r]).dmcServe c = (u.touchCheck l false).memLine 7 l 1 word up := by
    have hone := State.dmcServe_one (s := s.setDmc [r]) (r := r) rfl (by rw [hreq])
    have hline : lineOf l = l := hl ▸ lineOf_dmcAddr _ _
    have hmarked := (hserved.storedRight hr).marked l
    rw [← hu, hreq] at hone
    simp only [State.dmcPerform, hline, State.dmcScrubLine, hmarked, Bool.false_eq_true, if_false] at hone
    rw [← hone, hreq]
  refine ⟨u.touchCheck l false, hserved, ?_, ?_⟩
  · have hempty : u.memory.dmc = [] := hu ▸ rfl
    rw [(u.checksOnly_touchCheck l false).memory, hempty]
  · rw [State.scrubIssue, hdmc, ← hl, List.nil_append, ← hreq, List.any_nil, Bool.not_false, State.when, if_pos rfl, hnow]

end Sys2Proof.Machine
end

section
/-! DMC_SCRUB (R272, R280). -/
namespace Sys2Proof.Machine

/-! ### The scrub reads of both channels -/

theorem State.DramServed.sound {s t : State} (h : s.DramServed t) (hsound : s.SoundMemory) (hdmc : t.memory.dmc = []) : t.SoundMemory :=
  ⟨h.storedRight hsound.1, hdmc⟩

theorem State.DramServed.resp {s t : State} (h : s.DramServed t) : t.resp = s.resp := by rw [h.rest]

/-- A scrub read that finds its line as it was written. -/
theorem State.scrubIssue_right {s : State} (hsound : s.SoundMemory) (c word : Nat) :
    s.DramServed (s.scrubIssue c word []) ∧ (s.scrubIssue c word []).memory.dmc = [] := by
  obtain ⟨v, hserved, hempty, hissue⟩ := State.scrubIssue_idle hsound c word []
  rw [(hserved.storedRight hsound.1).memLine_right, ← hserved.resp] at hissue
  rw [hissue]
  exact ⟨hserved, hempty⟩

/-- R255, R272: a scrub read has corrected bit `b` of word `word` of a line of channel `c`. -/
structure State.ScrubCorrected (s t : State) (c word b : Nat) : Prop where
  corrected : s.Corrected t F.DMC_ECC_CE_COUNT
  event : t.event P.DMC E.DMC_CE = true
  syndrome : t.fld F.DMC_ECC_SYN_SYNDROME = b
  channel : t.fld F.DMC_ECC_SYN_CHANNEL = c
  word : t.fld F.DMC_ECC_SYN_WORD = word
  keeps : KeepsRegs s t (dmcShown ++ [R.DMC_ECC_CE, R.DMC_ECC_SYN, R.EVT_RAW P.DMC, R.EVT_RAW P.BELAY])
  rest : t = { s with regs := t.regs, fresh := t.fresh,
                      memory := { s.memory with dmc := t.memory.dmc, checkBlocks := t.memory.checkBlocks, openRows := t.memory.openRows } }

section
variable {s t u : State} {c word b : Nat}

theorem State.ScrubCorrected.before (hserved : s.DramServed t) (h : t.ScrubCorrected u c word b) : s.ScrubCorrected u c word b where
  corrected := ⟨by rw [h.corrected.1, hserved.keeps.fld (by decide)], h.corrected.2⟩
  event := h.event
  syndrome := h.syndrome
  channel := h.channel
  word := h.word
  keeps := (hserved.keeps.mono (by decide)).trans h.keeps
  rest := by rw [h.rest, hserved.rest]

/-- What shows of it stays while other registers change. -/
theorem State.ScrubCorrected.kept {l : List Nat} (h : s.ScrubCorrected t c word b) (hkeeps : KeepsRegs t u l)
    (hl : ∀ a ∈ [R.DMC_ECC_CE, R.DMC_ECC_SYN, R.EVT_RAW P.DMC, R.EVT_RAW P.BELAY], a ∉ l) :
    s.Corrected u F.DMC_ECC_CE_COUNT ∧ u.event P.DMC E.DMC_CE = true ∧ u.fld F.DMC_ECC_SYN_SYNDROME = b ∧ u.fld F.DMC_ECC_SYN_CHANNEL = c ∧
      u.fld F.DMC_ECC_SYN_WORD = word :=
  ⟨⟨(hkeeps.fld (hl _ (by decide))).trans h.corrected.1, (hkeeps.event _ (hl _ (by decide))).trans h.corrected.2⟩,
    (hkeeps.event _ (hl _ (by decide))).trans h.event, (hkeeps.fld (hl _ (by decide))).trans h.syndrome,
    (hkeeps.fld (hl _ (by decide))).trans h.channel, (hkeeps.fld (hl _ (by decide))).trans h.word⟩

theorem State.ScrubCorrected.after (h : s.ScrubCorrected t c word b) (hserved : t.DramServed u) : s.ScrubCorrected u c word b := by
  obtain ⟨hcorrected, hevent, hsyndrome, hchannel, hword⟩ := h.kept hserved.keeps (by decide)
  exact ⟨hcorrected, hevent, hsyndrome, hchannel, hword, h.keeps.trans (hserved.keeps.mono (by decide)), by rw [hserved.rest, h.rest]⟩

theorem State.ScrubCorrected.sound (h : s.ScrubCorrected t c word b) (hsound : s.SoundMemory) (hdmc : t.memory.dmc = []) : t.SoundMemory := by
  refine ⟨?_, hdmc⟩
  rw [h.rest]
  exact hsound.1

end

/-- One bit of a word of the line is wrong. -/
theorem State.StoredRight.memLine_dram_one {s : State} (hr : s.StoredRight) {l word : Nat} (hword : word < 8) (b : Nat)
    (hright : (s.eccCorrected 7 0 (l + 8 * word) 1 b false).StoredRight) :
    s.memLine 7 l 1 word [b] = s.eccCorrected 7 0 (l + 8 * word) 1 b false := by
  rw [State.memLine, forEach_only hword (fun i hi => by rw [if_neg hi, hr.memWord_right]) (fun i hi => ?_)]
  · rw [if_pos rfl, hr.memWord_one]
  · rw [if_pos rfl, hr.memWord_one, if_neg hi, hright.memWord_right]

theorem State.scrubIssue_hit {s : State} {c word b : Nat} (hsound : s.SoundMemory) (hlog : s.flag F.BELAY_CFG_LOG_CE = false) (hc : c < 2)
    (hword : word < 8) (hbit : b < 256) :
    s.ScrubCorrected (s.scrubIssue c word [b]) c word b ∧ (s.scrubIssue c word [b]).memory.dmc = [] := by
  obtain ⟨v, hserved, hempty, hissue⟩ := State.scrubIssue_idle hsound c word [b]
  obtain ⟨w, hw⟩ : ∃ w, w = dmcAddr c (64 * s.memory.dmcScrub.1) + 8 * word := ⟨_, rfl⟩
  obtain ⟨t, ht⟩ : ∃ t, t = v.eccCorrected 7 0 w 1 b false := ⟨_, rfl⟩
  obtain ⟨hcorrected, hevent, ⟨hsyndrome, hchannel, hplace⟩, hkeeps, hrest⟩ :=
    State.eccCorrected_dram ((hserved.keeps.flag (by decide)).trans hlog) 0 w 1 b false hbit
  rw [← ht] at hcorrected hevent hsyndrome hchannel hplace hkeeps hrest
  obtain ⟨hchannelAt, hplaceAt⟩ := dmcChannel_dmcAddr hc hword s.memory.dmcScrub.1
  rw [← hw] at hchannelAt hplaceAt
  have hvr := hserved.storedRight hsound.1
  have htr : t.StoredRight := by rw [hrest]; exact hvr
  have hread : v.memLine 7 (dmcAddr c (64 * s.memory.dmcScrub.1)) 1 word [b] = t := by
    rw [hvr.memLine_dram_one hword b (by rw [← hw, ← ht]; exact htr), ← hw, ht]
  have hresp : t.resp = s.resp := by rw [hrest]; exact hserved.resp
  have hnow : s.scrubIssue c word [b] = t := by rw [hissue, hread, ← hresp]
  have hread : v.ScrubCorrected t c word b := ⟨hcorrected, hevent, hsyndrome, hchannel.trans hchannelAt, hplace.trans hplaceAt,
    hkeeps.mono (by decide), by rw [hrest]⟩
  rw [hnow]
  refine ⟨hread.before hserved, ?_⟩
  rw [hrest]
  exact hempty

/-- R272: both channels read a line. -/
def State.scrubReads (s : State) (channel word : Nat) (up : List Nat) : State :=
  forEach 2 (fun c t => t.scrubIssue c word (if c = channel then up else [])) s

theorem State.scrubReads_eq (s : State) (channel word : Nat) (up : List Nat) : s.scrubReads channel word up =
    (s.scrubIssue 0 word (if 0 = channel then up else [])).scrubIssue 1 word (if 1 = channel then up else []) := rfl

theorem State.scrubReads_right {s : State} (hsound : s.SoundMemory) (channel word : Nat) :
    s.DramServed (s.scrubReads channel word []) ∧ (s.scrubReads channel word []).memory.dmc = [] := by
  rw [State.scrubReads_eq, ite_self, ite_self]
  obtain ⟨hfirst, hempty⟩ := State.scrubIssue_right hsound 0 word
  obtain ⟨hsecond, hdone⟩ := State.scrubIssue_right (hfirst.sound hsound hempty) 1 word
  exact ⟨hfirst.trans hsecond, hdone⟩

theorem State.scrubReads_hit {s : State} {word b : Nat} (channel : Fin 2) (hsound : s.SoundMemory) (hlog : s.flag F.BELAY_CFG_LOG_CE = false)
    (hword : word < 8) (hbit : b < 256) :
    s.ScrubCorrected (s.scrubReads channel.val word [b]) channel.val word b ∧ (s.scrubReads channel.val word [b]).memory.dmc = [] := by
  rw [State.scrubReads_eq]
  match channel with
  | 0 =>
    obtain ⟨hfirst, hempty⟩ := State.scrubIssue_hit hsound hlog (c := 0) (by decide) hword hbit
    obtain ⟨hsecond, hdone⟩ := State.scrubIssue_right (hfirst.sound hsound hempty) 1 word
    exact ⟨hfirst.after hsecond, hdone⟩
  | 1 =>
    obtain ⟨hfirst, hempty⟩ := State.scrubIssue_right hsound 0 word
    obtain ⟨hsecond, hdone⟩ := State.scrubIssue_hit (hfirst.sound hsound hempty) ((hfirst.keeps.flag (by decide)).trans hlog) (c := 1) (by decide)
      hword hbit
    exact ⟨hsecond.before hfirst, hdone⟩

/-- R272: a scrub read behind other requests of its channel. -/
theorem State.scrubIssue_busy {s : State} {c : Nat} (hbusy : s.memory.dmc.any (fun r => r.channel == c) = true) (word : Nat) (up : List Nat) :
    s.scrubIssue c word up = s.setDmc (s.memory.dmc ++ [⟨c, dmcAddr c (64 * s.memory.dmcScrub.1), 2, 64, [], some (word, up)⟩]) := by
  simp [State.scrubIssue, hbusy, State.when]

theorem State.scrubReads_busy (hbusy : ∀ c < 2, s.memory.dmc.any (fun r => r.channel == c) = true) (channel word : Nat) (up : List Nat) :
    ∃ u, s.scrubReads channel word up = u ∧
      (u.memory.dmc.drop s.memory.dmc.length).map (fun x => (x.channel, x.queue, x.addr)) =
        [0, 1].map (fun c => (c, 2, dmcAddr c (64 * s.memory.dmcScrub.1))) ∧
      KeepsRegs s u [R.DMC_QUEUE_STAT] ∧ u = { s with regs := u.regs, memory := { s.memory with dmc := u.memory.dmc } } := by
  obtain ⟨l, hl⟩ : ∃ l, l = s.memory.dmc ++
    [(⟨0, dmcAddr 0 (64 * s.memory.dmcScrub.1), 2, 64, [], some (word, if 0 = channel then up else [])⟩ : DmcRequest)] := ⟨_, rfl⟩
  obtain ⟨u, hu⟩ : ∃ u, u = s.setDmc l := ⟨_, rfl⟩
  have hrest : u = { s with regs := u.regs, memory := { s.memory with dmc := l } } := hu ▸ s.setDmc_rest l
  have hfirst : s.scrubIssue 0 word (if 0 = channel then up else []) = u := by
    rw [State.scrubIssue_busy (hbusy 0 (by decide)), hu, hl]
  have hheld : u.memory = { s.memory with dmc := l } := congrArg State.memory hrest
  have hbusy' : u.memory.dmc.any (fun r => r.channel == 1) = true := by
    rw [hheld, hl, List.any_append, hbusy 1 (by decide), Bool.true_or]
  refine ⟨_, (State.scrubReads_eq s channel word up).trans (by rw [hfirst, State.scrubIssue_busy hbusy']), ?_, ?_, ?_⟩
  · rw [State.setDmc_rest, hheld, hl]
    simp
  · exact (hu ▸ s.setDmc_keepsRegs l : KeepsRegs s u _).trans (u.setDmc_keepsRegs _)
  · rw [State.setDmc_rest, hrest]

/-! ### The position -/

/-- R272: the position that the scrub goes on to. -/
def State.scrubbedTo (s : State) (n : Nat) : State :=
  ({ s with memory := { s.memory with dmcScrub := (n, n) } } : State).setFld F.DMC_SCRUB_POS_LINE n

theorem State.scrubbedTo_keepsRegs (s : State) (n : Nat) : KeepsRegs s (s.scrubbedTo n) [R.DMC_SCRUB_POS] :=
  ((KeepsRegs.refl s _).of_regs (t := s) (u := { s with memory := { s.memory with dmcScrub := (n, n) } }) rfl).setFld (by decide)

theorem State.line_scrubbedTo (s : State) (n : Nat) :
    (s.scrubbedTo n).fld F.DMC_SCRUB_POS_LINE = n % 2 ^ F.DMC_SCRUB_POS_LINE.width := State.fld_setFld _ _ _ (by decide)

theorem State.scrubbedTo_rest (s : State) (n : Nat) :
    s.scrubbedTo n = { s with regs := (s.scrubbedTo n).regs, memory := { s.memory with dmcScrub := (n, n) } } := rfl

/-- What both reads and the new position come to, beside the registers. -/
theorem State.scrubbed_rest {s u t : State} {n : Nat} (hdmc : s.memory.dmc = []) (hempty : u.memory.dmc = [])
    (hu : u = { s with regs := u.regs, fresh := u.fresh,
                       memory := { s.memory with dmc := u.memory.dmc, checkBlocks := u.memory.checkBlocks, openRows := u.memory.openRows } })
    (ht : t = { u with regs := t.regs, memory := { u.memory with dmcScrub := (n, n) } }) :
    t.memory = { s.memory with dmcScrub := (n, n), checkBlocks := t.memory.checkBlocks, openRows := t.memory.openRows } ∧
      t = { s with regs := t.regs, memory := t.memory, fresh := t.fresh } := by
  have hmemory : t.memory = { u.memory with dmcScrub := (n, n) } := congrArg State.memory ht
  refine ⟨?_, by rw [ht, hu]⟩
  rw [hmemory, hu, hempty, ← hdmc]

/-- R272: while the scrub is off, or the dies refresh themselves, or the fabric has no clock, it stands. -/
theorem State.exec_dmcScrub_stands {s : State} (channel : Fin 2) (word : Fin 8) (up : EccUpset)
    (h : s.flag F.DMC_CTRL_SCRUB_EN = false ∨ s.flag F.DMC_SELFREF_IN_SR = true ∨ s.fabricRuns = false) :
    ∃ t, exec (.dmcScrub channel word up) s = .next t ∧ t = s :=
  ⟨_, congrArg Host.Outcome.next (if_pos (by rcases h with h | h | h <;> simp [h])), rfl⟩

theorem State.exec_dmcScrub_waits {s : State} (channel : Fin 2) (word : Fin 8) (up : EccUpset)
    (hwait : s.memory.dmc.any (fun r => r.scrub.isSome) = true) : ∃ t, exec (.dmcScrub channel word up) s = .next t ∧ t = s := by
  refine ⟨s, congrArg Host.Outcome.next ?_, rfl⟩
  unfold State.scrubDmc
  split
  · rfl
  · exact if_pos (by rw [hwait, Bool.or_true])

section
variable {s : State} (hen : s.flag F.DMC_CTRL_SCRUB_EN = true) (hsr : s.flag F.DMC_SELFREF_IN_SR = false) (hrun : s.fabricRuns = true)
include hen hsr hrun

/-- R272: with a buffer free in each channel and no scrub read waiting, both channels read and the position goes on. -/
theorem State.scrubDmc_reads (hfull : ∀ c, s.dmcFull c = false) (hwait : s.memory.dmc.any (fun r => r.scrub.isSome) = false) {channel word : Nat}
    {up : List Nat} {u : State} (hu : s.scrubReads channel word up = u) (hlines : u.channelLines = s.channelLines) :
    s.scrubDmc channel word up =
      if (s.memory.dmcScrub.1 + 1) % s.channelLines = 0 then
        ((u.scrubbedTo ((s.memory.dmcScrub.1 + 1) % s.channelLines)).setFld F.DMC_SCRUB_POS_WRAPPED 1).raise P.DMC E.DMC_SCRUB_PASS
      else u.scrubbedTo ((s.memory.dmcScrub.1 + 1) % s.channelLines) := by
  unfold State.scrubDmc
  rw [hen, hsr, hrun, hfull, hfull, hwait]
  simp only [Bool.not_true, Bool.or_self, Bool.false_eq_true, if_false]
  rw [← State.scrubReads, hu, hlines]
  rfl

section
variable (hsound : s.SoundMemory) (channel : Fin 2) (word : Fin 8)
include hsound

/-- The scrub goes on to the next line. -/
theorem State.scrubDmc_next (hk : s.memory.dmcScrub.1 + 1 < s.channelLines) {up : List Nat} {u : State}
    (hu : s.scrubReads channel.val word.val up = u) (hlines : u.channelLines = s.channelLines) :
    s.scrubDmc channel.val word.val up = u.scrubbedTo (s.memory.dmcScrub.1 + 1) := by
  have hscrub := State.scrubDmc_reads hen hsr hrun (fun c => by simp [State.dmcFull, hsound.2]) (by simp [hsound.2]) hu hlines
  rwa [Nat.mod_eq_of_lt hk, if_neg (Nat.succ_ne_zero _)] at hscrub

theorem State.exec_dmcScrub_right (hk : s.memory.dmcScrub.1 + 1 < s.channelLines) :
    ∃ t, exec (.dmcScrub channel word .none) s = .next t ∧
      t.memory = { s.memory with dmcScrub := (s.memory.dmcScrub.1 + 1, s.memory.dmcScrub.1 + 1), checkBlocks := t.memory.checkBlocks,
                                 openRows := t.memory.openRows } ∧
      t.fld F.DMC_SCRUB_POS_LINE = (s.memory.dmcScrub.1 + 1) % 2 ^ F.DMC_SCRUB_POS_LINE.width ∧
      KeepsRegs s t [R.DMC_SCRUB_POS, R.DMC_QUEUE_STAT, R.DMC_CHAN_STAT] ∧ t = { s with regs := t.regs, memory := t.memory, fresh := t.fresh } := by
  obtain ⟨u, hu⟩ : ∃ u, u = s.scrubReads channel.val word.val [] := ⟨_, rfl⟩
  obtain ⟨hserved, hempty⟩ := State.scrubReads_right hsound channel.val word.val
  rw [← hu] at hserved hempty
  have hscrub := State.scrubDmc_next hen hsr hrun hsound channel word hk hu.symm (by rw [hserved.rest]; rfl)
  obtain ⟨hmemory, hrest⟩ := State.scrubbed_rest hsound.2 hempty hserved.rest (u.scrubbedTo_rest (s.memory.dmcScrub.1 + 1))
  exact ⟨_, congrArg Host.Outcome.next hscrub, hmemory, u.line_scrubbedTo _,
    (hserved.keeps.mono (by decide)).trans ((u.scrubbedTo_keepsRegs _).mono (by decide)), hrest⟩

/-- Behind the last line the scrub begins again, and says so. -/
theorem State.exec_dmcScrub_wraps (hk : s.memory.dmcScrub.1 + 1 = s.channelLines) :
    ∃ t, exec (.dmcScrub channel word .none) s = .next t ∧
      t.memory = { s.memory with dmcScrub := (0, 0), checkBlocks := t.memory.checkBlocks, openRows := t.memory.openRows } ∧
      t.fld F.DMC_SCRUB_POS_LINE = 0 ∧ t.flag F.DMC_SCRUB_POS_WRAPPED = true ∧
      t.event P.DMC E.DMC_SCRUB_PASS = true ∧ KeepsRegs s t [R.DMC_SCRUB_POS, R.DMC_QUEUE_STAT, R.EVT_RAW P.DMC, R.DMC_CHAN_STAT] ∧
      t = { s with regs := t.regs, memory := t.memory, fresh := t.fresh } := by
  obtain ⟨u, hu⟩ : ∃ u, u = s.scrubReads channel.val word.val [] := ⟨_, rfl⟩
  obtain ⟨hserved, hempty⟩ := State.scrubReads_right hsound channel.val word.val
  rw [← hu] at hserved hempty
  have hscrub := State.scrubDmc_reads hen hsr hrun (fun c => by simp [State.dmcFull, hsound.2]) (by simp [hsound.2]) hu.symm
    (by rw [hserved.rest]; rfl)
  rw [hk, Nat.mod_self, if_pos rfl] at hscrub
  obtain ⟨t, ht⟩ : ∃ t, t = ((u.scrubbedTo 0).setFld F.DMC_SCRUB_POS_WRAPPED 1).raise P.DMC E.DMC_SCRUB_PASS := ⟨_, rfl⟩
  have hkeeps : KeepsRegs s t [R.DMC_SCRUB_POS, R.DMC_QUEUE_STAT, R.EVT_RAW P.DMC, R.DMC_CHAN_STAT] :=
    ht ▸ (((hserved.keeps.mono (by decide)).trans ((u.scrubbedTo_keepsRegs 0).mono (by decide))).setFld (by decide)).raise (by decide)
  have htrest : t = { u with regs := t.regs, memory := { u.memory with dmcScrub := (0, 0) } } := by
    rw [ht]
    rfl
  obtain ⟨hmemory, hrest⟩ := State.scrubbed_rest hsound.2 hempty hserved.rest htrest
  refine ⟨t, congrArg Host.Outcome.next (hscrub.trans ht.symm), hmemory, ?_, ?_, ht ▸ State.event_raise _ _ _ (by decide), hkeeps, hrest⟩
  · rw [ht, State.fld_raise_ne _ _ _ _ (by decide), State.fld_setFld_ne _ _ _ _ (by decide), State.line_scrubbedTo]
    rfl
  · rw [ht, State.flag, State.fld_raise_ne _ _ _ _ (by decide), State.fld_setFld _ _ _ (by decide)]
    rfl

theorem State.exec_dmcScrub_one (b : Fin 72) (hk : s.memory.dmcScrub.1 + 1 < s.channelLines) (hlog : s.flag F.BELAY_CFG_LOG_CE = false) :
    ∃ t, exec (.dmcScrub channel word (.one b)) s = .next t ∧ s.Corrected t F.DMC_ECC_CE_COUNT ∧ t.event P.DMC E.DMC_CE = true ∧
      t.fld F.DMC_ECC_SYN_SYNDROME = b.val ∧ t.fld F.DMC_ECC_SYN_CHANNEL = channel.val ∧ t.fld F.DMC_ECC_SYN_WORD = word.val ∧
      t.memory = { s.memory with dmcScrub := (s.memory.dmcScrub.1 + 1, s.memory.dmcScrub.1 + 1), checkBlocks := t.memory.checkBlocks,
                                 openRows := t.memory.openRows } ∧
      KeepsRegs s t [R.DMC_SCRUB_POS, R.DMC_QUEUE_STAT, R.DMC_CHAN_STAT, R.DMC_ECC_CE, R.DMC_ECC_SYN, R.EVT_RAW P.DMC, R.EVT_RAW P.BELAY] ∧
      t = { s with regs := t.regs, memory := t.memory, fresh := t.fresh } := by
  obtain ⟨u, hu⟩ : ∃ u, u = s.scrubReads channel.val word.val [b.val] := ⟨_, rfl⟩
  obtain ⟨hhit, hempty⟩ := State.scrubReads_hit channel hsound hlog word.isLt (Nat.lt_trans b.isLt (by decide))
  rw [← hu] at hhit hempty
  have hscrub := State.scrubDmc_next hen hsr hrun hsound channel word hk hu.symm (by rw [hhit.rest]; rfl)
  obtain ⟨hmemory, hrest⟩ := State.scrubbed_rest hsound.2 hempty hhit.rest (u.scrubbedTo_rest (s.memory.dmcScrub.1 + 1))
  have hkeeps := u.scrubbedTo_keepsRegs (s.memory.dmcScrub.1 + 1)
  obtain ⟨hcorrected, hevent, hsyndrome, hchannel, hword⟩ := hhit.kept hkeeps (by decide)
  exact ⟨_, congrArg Host.Outcome.next hscrub, hcorrected, hevent, hsyndrome, hchannel, hword, hmemory,
    (hhit.keeps.mono (by decide)).trans (hkeeps.mono (by decide)), hrest⟩

end

theorem State.exec_dmcScrub_queued (channel : Fin 2) (word : Fin 8) (up : EccUpset) {r : DmcRequest}
    (hdmc : s.memory.dmc = [r, { r with channel := 1 - r.channel }]) (hchannel : r.channel ≤ 1) (hscrub : r.scrub = none) :
    ∃ t, exec (.dmcScrub channel word up) s = .next t ∧ (t.memory.dmc.drop 2).map (fun x => (x.channel, x.queue, x.addr)) =
        [0, 1].map (fun c => (c, 2, dmcAddr c (64 * s.memory.dmcScrub.1))) ∧
      t.memory = { s.memory with dmcScrub := t.memory.dmcScrub, dmc := t.memory.dmc } ∧
      KeepsRegs s t [R.DMC_SCRUB_POS, R.DMC_QUEUE_STAT, R.EVT_RAW P.DMC] ∧ t = { s with regs := t.regs, memory := t.memory } := by
  have hbusy (c : Nat) (hc : c < 2) : s.memory.dmc.any (fun x => x.channel == c) = true := by
    simp [hdmc]
    omega
  have hfull (c : Nat) : s.dmcFull c = false := by
    have hfew : (s.memory.dmc.filter (fun x => x.channel == c)).length ≤ s.memory.dmc.length := List.length_filter_le _ _
    have htwo : s.memory.dmc.length = 2 := by rw [hdmc]; rfl
    simp only [State.dmcFull, decide_eq_false_iff_not]
    omega
  have hwait : s.memory.dmc.any (fun x => x.scrub.isSome) = false := by simp [hdmc, hscrub]
  obtain ⟨u, hu, hqueued, hkeeps, hrest⟩ := State.scrubReads_busy hbusy channel.val word.val (upsetBits up)
  have hnow := State.scrubDmc_reads hen hsr hrun hfull hwait hu (by rw [hrest]; rfl)
  rw [hdmc] at hqueued
  obtain ⟨n, hn⟩ : ∃ n, n = (s.memory.dmcScrub.1 + 1) % s.channelLines := ⟨_, rfl⟩
  rw [← hn] at hnow
  obtain ⟨t, ht, hmoved, htrest⟩ : ∃ t, s.scrubDmc channel.val word.val (upsetBits up) = t ∧ KeepsRegs u t [R.DMC_SCRUB_POS, R.EVT_RAW P.DMC] ∧
      t = { u with regs := t.regs, memory := { u.memory with dmcScrub := (n, n) } } := by
    rw [hnow]
    split
    · exact ⟨_, rfl, (((u.scrubbedTo_keepsRegs n).mono (by decide)).setFld (by decide)).raise (by decide), rfl⟩
    · exact ⟨_, rfl, (u.scrubbedTo_keepsRegs n).mono (by decide), rfl⟩
  have hmemory : t.memory = { u.memory with dmcScrub := (n, n) } := congrArg State.memory htrest
  refine ⟨t, congrArg Host.Outcome.next ht, ?_, ?_, (hkeeps.mono (by decide)).trans (hmoved.mono (by decide)), by rw [htrest, hrest]⟩
  · rw [hmemory]
    exact hqueued
  · rw [hmemory, hrest]

end

end Sys2Proof.Machine
end

section
/-! DMC_TEMP_READING, REFRESH and DRAM_REQUEST (R265, R267, R268, R270, R271). -/
namespace Sys2Proof.Machine

/-! ### Temperatures -/

/-- The registers that decide, with Table Memory-5, which refresh rate is in force (R271, R578). -/
def rateRegs : List Nat := [F.PAGE_STAT_ENABLED P.SCREE, F.SCREE_CTRL_ARM, F.SYSCFG_LIFECYCLE_STATE, F.SYSCFG_DEBUG_EN_SCREE,
  F.PITON_SCREE_LOCK_LOCK, F.SCREE_REFRESH_EN, F.SCREE_REFRESH_RATE, F.SCREE_REFRESH_HOT].map Fld.reg

theorem KeepsRegs.screeActs {s t : State} {l : List Nat} (h : KeepsRegs s t l) (hl : ∀ a ∈ rateRegs, a ∉ l) : t.screeActs = s.screeActs := by
  unfold State.screeActs State.screePermitted State.running
  rw [h.flag (hl _ (by decide)), h.flag (hl _ (by decide)), h.fld (hl _ (by decide)), h.flag (hl _ (by decide)), h.flag (hl _ (by decide))]

theorem KeepsRegs.dmcRate {s t : State} {l : List Nat} (h : KeepsRegs s t l) (hl : ∀ a ∈ rateRegs, a ∉ l)
    (hrate : t.memory.tempRate = s.memory.tempRate) : t.dmcRate = s.dmcRate := by
  unfold State.dmcRate
  rw [h.screeActs hl, h.flag (hl _ (by decide)), h.flag (hl _ (by decide)), h.fld (hl _ (by decide)), hrate]

theorem KeepsRegs.dmcHot {s t : State} {l : List Nat} (h : KeepsRegs s t l) (hl : ∀ a ∈ rateRegs, a ∉ l)
    (hrate : t.memory.tempRate = s.memory.tempRate) : t.dmcHot = s.dmcHot := by
  unfold State.dmcHot
  rw [h.dmcRate hl hrate, h.screeActs hl, h.flag (hl _ (by decide)), h.flag (hl _ (by decide))]

theorem State.noteRate_keepsRegs (s before : State) : KeepsRegs s (s.noteRate before) [R.EVT_RAW P.DMC] := by
  unfold State.noteRate State.when
  dsimp only
  split <;> split
  · exact ((KeepsRegs.refl s _).raise (by decide)).raise (by decide)
  · exact (KeepsRegs.refl s _).raise (by decide)
  · exact (KeepsRegs.refl s _).raise (by decide)
  · exact KeepsRegs.refl s _

theorem State.noteRate_rest (s before : State) : s.noteRate before = { s with regs := (s.noteRate before).regs } := by
  unfold State.noteRate State.when
  dsimp only
  split <;> split <;> rfl

/-- R270: a change of the rate is an event. -/
theorem State.noteRate_changed {s before : State} (h : s.dmcRate ≠ before.dmcRate) : (s.noteRate before).event P.DMC E.DMC_RATE_CHANGE = true := by
  have hraised : (s.raise P.DMC E.DMC_RATE_CHANGE).event P.DMC E.DMC_RATE_CHANGE = true := State.event_raise _ _ _ (by decide)
  unfold State.noteRate State.when
  dsimp only
  simp only [bne_iff_ne.2 h, if_true]
  split
  · exact State.event_raise_mono _ _ _ _ _ hraised
  · exact hraised

/-- R271: so is HOT. -/
theorem State.noteRate_hot {s before : State} (h : s.dmcHot = true) (hbefore : before.dmcHot = false) :
    (s.noteRate before).event P.DMC E.DMC_HOT = true := by
  unfold State.noteRate
  rw [State.when, if_pos (by rw [h, hbefore]; rfl)]
  exact State.event_raise _ _ _ (by decide)

/-- Table Memory-5: above 105 °C the rate is the highest. -/
theorem nextRate_hot {rate cool : Nat} {t : Int} (ht : 105 < t) (hrate : rate ≤ 2) : (nextRate rate cool t).1 = 2 := by
  have htemp : tempRateOf t = 2 := by rw [tempRateOf, if_neg (by omega), if_neg (by omega)]
  unfold nextRate
  rw [htemp]
  split
  · rfl
  · have hmax : rate = 2 := by omega
    subst hmax
    simp only [Nat.reduceEqDiff, if_false, if_true]
    rw [if_neg (by omega)]

theorem State.exec_dmcTempReading (s : State) (a b : Byte) :
    ∃ t, exec (.dmcTempReading a b) s = .next t ∧ t.fld F.DMC_TEMP_DIE_A = a.toNat ∧ t.fld F.DMC_TEMP_DIE_B = b.toNat ∧
      (t.memory.tempRate, t.memory.coolReadings) = nextRate s.memory.tempRate s.memory.coolReadings (max a.toInt b.toInt) ∧
      t.memory = { s.memory with tempRate := t.memory.tempRate, coolReadings := t.memory.coolReadings } ∧
      (105 < max a.toInt b.toInt → s.memory.tempRate ≤ 2 → t.memory.tempRate = 2) ∧
      (t.dmcRate ≠ s.dmcRate → t.event P.DMC E.DMC_RATE_CHANGE = true) ∧ (t.dmcHot = true → s.dmcHot = false → t.event P.DMC E.DMC_HOT = true) ∧
      KeepsRegs s t [R.DMC_TEMP, R.EVT_RAW P.DMC] ∧ t = { s with regs := t.regs, memory := t.memory } := by
  obtain ⟨n, hn⟩ : ∃ n, n = nextRate s.memory.tempRate s.memory.coolReadings (max a.toInt b.toInt) := ⟨_, rfl⟩
  obtain ⟨v, hv⟩ : ∃ v, v = (s.setFld F.DMC_TEMP_DIE_A a.toNat).setFld F.DMC_TEMP_DIE_B b.toNat := ⟨_, rfl⟩
  obtain ⟨u, hu⟩ : ∃ u, u = ({ v with memory := { v.memory with tempRate := n.1, coolReadings := n.2 } } : State) := ⟨_, rfl⟩
  obtain ⟨t, ht⟩ : ∃ t, t = u.noteRate s := ⟨_, rfl⟩
  have hnow : s.readTemps a b = t := by rw [ht, hu, hv, hn]; rfl
  have hshown : KeepsRegs s v [R.DMC_TEMP] := hv ▸ ((KeepsRegs.refl s _).setFld (by decide)).setFld (by decide)
  have huregs : u.regs = v.regs := by rw [hu]
  have hkeeps : KeepsRegs u t [R.EVT_RAW P.DMC] := ht ▸ u.noteRate_keepsRegs s
  have hrest : t = { u with regs := t.regs } := ht ▸ u.noteRate_rest s
  have hmemory : t.memory = { s.memory with tempRate := n.1, coolReadings := n.2 } := by rw [hrest, hu, hv]; rfl
  have hsame : t.memory.tempRate = u.memory.tempRate := by rw [hrest]
  have hdieA : v.fld F.DMC_TEMP_DIE_A = a.toNat := by
    rw [hv, State.fld_setFld_ne _ _ _ _ (by decide), State.fld_setFld _ _ _ (by decide)]
    exact Nat.mod_eq_of_lt a.isLt
  have hdieB : v.fld F.DMC_TEMP_DIE_B = b.toNat := by
    rw [hv, State.fld_setFld _ _ _ (by decide)]
    exact Nat.mod_eq_of_lt b.isLt
  have hvt : KeepsRegs v t [R.EVT_RAW P.DMC] := ((KeepsRegs.refl v _).of_regs huregs).trans hkeeps
  refine ⟨t, congrArg Host.Outcome.next hnow, (hvt.fld (by decide)).trans hdieA, (hvt.fld (by decide)).trans hdieB, ?_, ?_, ?_, ?_, ?_,
    (hshown.mono (by decide)).trans (hvt.mono (by decide)), by rw [hrest, hu, hv]; rfl⟩
  · rw [hmemory, hn]
  · rw [hmemory]
  · intro hhot hrate
    rw [hmemory, hn]
    exact nextRate_hot hhot hrate
  · intro hchanged
    rw [hkeeps.dmcRate (by decide) hsame] at hchanged
    exact ht ▸ State.noteRate_changed hchanged
  · intro hhot hbefore
    rw [hkeeps.dmcHot (by decide) hsame] at hhot
    exact ht ▸ State.noteRate_hot hhot hbefore

/-! ### Refresh -/

theorem State.exec_refresh {s : State} (channel : Fin 2) (hsr : s.flag F.DMC_SELFREF_IN_SR = false) (hphase : s.power.phase = .run) :
    ∃ t, exec (.refresh channel) s = .next t ∧
      t.memory.refreshBank = (if channel = 0 then ((s.memory.refreshBank.1 + 1) % 8, s.memory.refreshBank.2)
        else (s.memory.refreshBank.1, (s.memory.refreshBank.2 + 1) % 8)) ∧
      t.memory.openRows = s.memory.openRows.filter (fun r => ! decide (r.channel = channel.val ∧
        r.bank = (if channel = 0 then s.memory.refreshBank.1 else s.memory.refreshBank.2))) ∧
      t = { s with memory := { s.memory with refreshes := s.memory.refreshes + 1, refreshBank := t.memory.refreshBank, openRows := t.memory.openRows } } := by
  have hruns : (s.flag F.DMC_SELFREF_IN_SR || ! decide (s.power.phase = .run)) = false := by simp [hsr, hphase]
  refine ⟨s.refresh channel.val, rfl, ?_⟩
  unfold State.refresh
  rw [hruns, if_neg Bool.false_ne_true]
  match channel with
  | 0 => exact ⟨rfl, rfl, rfl⟩
  | 1 => exact ⟨rfl, rfl, rfl⟩

theorem State.exec_refresh_stands {s : State} (channel : Fin 2) (h : s.flag F.DMC_SELFREF_IN_SR = true ∨ s.power.phase ≠ .run) :
    ∃ t, exec (.refresh channel) s = .next t ∧ t = s :=
  ⟨_, congrArg Host.Outcome.next (if_pos (by rcases h with h | h <;> simp [h])), rfl⟩

/-! ### What a channel does -/

section
variable {s : State} (hrun : s.fabricRuns = true)
include hrun

theorem State.exec_idle (channel : Fin 2) (bank : Fin 8) (ns : Nat) : ∃ t, exec (.dramRequest (.idle channel bank ns)) s = .next t ∧
    t = { s with memory := { s.memory with openRows := (if s.fld F.DMC_CTRL_PAGE_IDLE * 8 ≤ ns then
      s.memory.openRows.filter (fun r => ! decide (r.channel = channel.val ∧ r.bank = bank.val)) else s.memory.openRows) } } := by
  have hstep : s.dramStep (.idle channel bank ns) = s.dmcIdle channel.val bank.val ns := by simp [State.dramStep, hrun]
  refine ⟨_, congrArg Host.Outcome.next hstep, ?_⟩
  unfold State.dmcIdle
  split <;> rfl

end

end Sys2Proof.Machine
end

section
/-! DRAM_REQUEST: the queues (R268), and requests that the controller performs where nothing stored is wrong (R256, R267). -/
namespace Sys2Proof.Machine

/-! ### What DMC_QUEUE_STAT shows -/

section
variable (s : State) (l : List DmcRequest)

theorem State.occA_setDmc : (s.setDmc l).fld F.DMC_QUEUE_STAT_OCC_A =
    (l.filter (fun r => r.channel == 0)).length % 2 ^ F.DMC_QUEUE_STAT_OCC_A.width := by
  rw [State.setDmc, State.showQueues, State.fld_setFld_ne _ _ _ _ (by decide), State.fld_setFld_ne _ _ _ _ (by decide),
    State.fld_setFld_ne _ _ _ _ (by decide), State.fld_setFld _ _ _ (by decide)]

theorem State.occB_setDmc : (s.setDmc l).fld F.DMC_QUEUE_STAT_OCC_B =
    (l.filter (fun r => r.channel == 1)).length % 2 ^ F.DMC_QUEUE_STAT_OCC_B.width := by
  rw [State.setDmc, State.showQueues, State.fld_setFld_ne _ _ _ _ (by decide), State.fld_setFld_ne _ _ _ _ (by decide),
    State.fld_setFld _ _ _ (by decide)]

theorem State.guarA_setDmc : (s.setDmc l).fld F.DMC_QUEUE_STAT_GUAR_A =
    (l.filter (fun r => r.channel == 0 && r.queue == 0)).length % 2 ^ F.DMC_QUEUE_STAT_GUAR_A.width := by
  rw [State.setDmc, State.showQueues, State.fld_setFld_ne _ _ _ _ (by decide), State.fld_setFld _ _ _ (by decide)]

theorem State.guarB_setDmc : (s.setDmc l).fld F.DMC_QUEUE_STAT_GUAR_B =
    (l.filter (fun r => r.channel == 1 && r.queue == 0)).length % 2 ^ F.DMC_QUEUE_STAT_GUAR_B.width := by
  rw [State.setDmc, State.showQueues, State.fld_setFld _ _ _ (by decide)]

end

/-- One request held shows in the one count of its channel, and there alone. -/
theorem State.shown_setDmc_one (s : State) {r : DmcRequest} (hchannel : r.channel < 2) :
    (s.setDmc [r]).fld F.DMC_QUEUE_STAT_OCC_A + (s.setDmc [r]).fld F.DMC_QUEUE_STAT_OCC_B = 1 ∧
      (s.setDmc [r]).fld F.DMC_QUEUE_STAT_GUAR_A + (s.setDmc [r]).fld F.DMC_QUEUE_STAT_GUAR_B = b2n (decide (r.queue = 0)) := by
  rw [State.occA_setDmc, State.occB_setDmc, State.guarA_setDmc, State.guarB_setDmc]
  have htwo : r.channel = 0 ∨ r.channel = 1 := by omega
  rcases htwo with hc | hc <;> by_cases hq : r.queue = 0 <;> simp [hc, hq] <;> decide

/-! ### Acceptance, age -/

section
variable {s : State} (hrun : s.fabricRuns = true)
include hrun

theorem State.exec_accept_read (a : BitVec 40) (len : Fin 65) (guar : Bool) (prio : Fin 4) (hdram : s.inDram a.toNat = true) (hlen : len ≠ 0)
    (hline : a.toNat % 64 + len.val ≤ 64) (hdmc : s.memory.dmc = []) :
    ∃ t, exec (.dramRequest (.accept a none len guar prio)) s = .next t ∧
      t.memory = { s.memory with dmc := [⟨dmcChannel a.toNat, a.toNat, (if guar then 0 else if 2 ≤ prio.val then 1 else 2), len.val, [], none⟩] } ∧
      t.fld F.DMC_QUEUE_STAT_OCC_A + t.fld F.DMC_QUEUE_STAT_OCC_B = 1 ∧
      t.fld F.DMC_QUEUE_STAT_GUAR_A + t.fld F.DMC_QUEUE_STAT_GUAR_B = b2n guar ∧
      KeepsRegs s t [R.DMC_QUEUE_STAT] ∧ t = { s with regs := t.regs, memory := t.memory } := by
  obtain ⟨r, hr⟩ : ∃ r, r = (⟨dmcChannel a.toNat, a.toNat, (if guar then 0 else if 2 ≤ prio.val then 1 else 2), len.val, [], none⟩ : DmcRequest) :=
    ⟨_, rfl⟩
  have hpos : len.val ≠ 0 := fun h => hlen (Fin.ext h)
  have hone : lineOf a.toNat = lineOf (a.toNat + len.val - 1) := by unfold lineOf; omega
  have hstep : s.dramStep (.accept a none len guar prio) = s.setDmc [r] := by
    simp [State.dramStep, hrun, State.dmcAccept, hdram, hpos, ← hone, State.dmcFull, hdmc, hr]
  have hguar : b2n (decide (r.queue = 0)) = b2n guar := by
    rw [hr]
    cases guar with
    | true => rfl
    | false => simp only [Bool.false_eq_true, if_false]; split <;> rfl
  have hrest := s.setDmc_rest [r]
  obtain ⟨hocc, hqueued⟩ := s.shown_setDmc_one (r := r) (hr ▸ Nat.mod_lt _ (by decide))
  refine ⟨_, congrArg Host.Outcome.next hstep, ?_, hocc, hqueued.trans hguar, s.setDmc_keepsRegs [r], ?_⟩
  · rw [hrest, hr]
  · rw [hrest]

/-- R268: a normal request that has waited past NORMAL_AGE becomes urgent. -/
theorem State.exec_age {r : DmcRequest} (ns : Nat) (hdmc : s.memory.dmc = [r]) (hchannel : r.channel = 1) (hqueue : r.queue = 2) :
    ∃ t, exec (.dramRequest (.age 1 0 ns)) s = .next t ∧
      (ns ≤ s.fld F.DMC_QOS_NORMAL_AGE → t = s) ∧
      (s.fld F.DMC_QOS_NORMAL_AGE < ns → t.memory = { s.memory with dmc := [{ r with queue := 1 }] } ∧ KeepsRegs s t [R.DMC_QUEUE_STAT] ∧
        t = { s with regs := t.regs, memory := t.memory }) := by
  have hstep : s.dramStep (.age 1 0 ns) = s.dmcAge 1 0 ns := by simp [State.dramStep, hrun]
  refine ⟨_, congrArg Host.Outcome.next hstep, fun hyoung => if_pos hyoung, fun hold => ?_⟩
  have haged : s.dmcAge 1 0 ns = s.setDmc [{ r with queue := 1 }] := by
    rw [State.dmcAge, if_neg (Nat.not_le.2 hold)]
    simp [hdmc, List.range_succ, hchannel, hqueue]
  rw [haged]
  have hrest := s.setDmc_rest [{ r with queue := 1 }]
  exact ⟨congrArg State.memory hrest, s.setDmc_keepsRegs _, by rw [hrest]⟩

end

/-! ### Requests performed -/

theorem State.openRow_keepsRegs (s : State) (r : OpenRow) : KeepsRegs s (s.openRow r) [] := fun _ _ => rfl

theorem State.occB_served {s t : State} {r : DmcRequest} (hkeeps : KeepsRegs (s.opened r) t [R.DMC_CHAN_STAT]) :
    t.fld F.DMC_QUEUE_STAT_OCC_B = 0 := by
  rw [hkeeps.fld (by decide), State.opened, (State.openRow_keepsRegs _ _).fld List.not_mem_nil, State.occB_setDmc]
  rfl

/-- Memory behind the caches holds what they do, where nothing there is older. -/
theorem State.byteBelow_of_staleOf {s : State} {l x : Nat} (hstale : s.staleOf l = []) (hx : l ≤ x ∧ x < l + 64) : s.byteBelow x = s.byteAt x := by
  have hnone : s.memory.stale.find? (fun e => e.1 == x) = none := by
    refine List.find?_eq_none.2 fun e he hex => ?_
    have hin : e ∈ s.staleOf l := by
      rw [State.staleOf, List.mem_filter]
      exact ⟨he, by rw [eq_of_beq hex]; exact decide_eq_true hx⟩
    rw [hstale] at hin
    exact List.not_mem_nil hin
  rw [State.byteBelow, hnone]

/-- R268: a read is answered with what memory holds. -/
theorem State.dmcPerform_read {u : State} {r : DmcRequest} (hr : u.StoredRight) (hdata : r.data = []) (hlen : r.len = 8) (hscrub : r.scrub = none)
    (hstale : u.staleOf r.addr = []) :
    u.dmcPerform r = (u.touchCheck (lineOf r.addr) false).respond false (BitVec.ofNat 64 (u.numAt r.addr 8)) := by
  obtain ⟨v, hv⟩ : ∃ v, v = u.touchCheck (lineOf r.addr) false := ⟨_, rfl⟩
  have hrest := (u.checksOnly_touchCheck (lineOf r.addr) false).rest
  rw [← hv] at hrest
  have hvr : v.StoredRight := by rw [hrest]; exact hr
  have hvstale : v.staleOf r.addr = [] := by rw [hrest]; exact hstale
  have hbytes : (List.range 8).map (fun i => v.byteBelow (r.addr + i)) = u.bytesAt r.addr 8 := by
    refine List.map_congr_left fun i hi => ?_
    rw [List.mem_range] at hi
    rw [State.byteBelow_of_staleOf hvstale (by omega), hrest]
    rfl
  unfold State.dmcPerform
  rw [hscrub, hdata, hlen, ← hv]
  simp only [List.isEmpty_nil, if_true, hvr.marked, hvr.memLine_right, Bool.false_eq_true, if_false, Nat.min_self, hbytes]
  rfl

/-- R267: a write of part of a line merges with what its target holds. -/
theorem State.targetWrite_dram {u : State} {a : Nat} {bs : List Byte} (hr : u.StoredRight) (hdram : u.inDram a = true) :
    u.targetWrite a bs = (((u.freshen a bs.length).putMem a bs).touchCheck (lineOf a) true, .ok) := by
  have hclean : u.partialPoison a bs.length = false := by simp [State.partialPoison, hr.marked]
  have hland : u.land a bs = (u.freshen a bs.length).putMem a bs := by
    rw [State.land, State.not_inMram_of_inDram hdram]
    rfl
  unfold State.targetWrite
  dsimp only
  rw [hclean, hr.flips]
  simp [hclean, hdram, State.when, hland]

/-- Of what lies behind the caches, bytes that reach their target change what is older there, and nothing more. -/
theorem State.StoredRight.freshen_rest {s : State} (hr : s.StoredRight) (a n : Nat) :
    s.freshen a n = { s with memory := { s.memory with stale := (s.freshen a n).memory.stale } } := by
  have hmemory : (s.freshen a n).memory = { s.memory with stale := (s.freshen a n).memory.stale } := by
    rw [State.freshen, hr.poison, hr.flips, List.filter_nil, List.filter_nil, ← hr.poison, ← hr.flips]
  rw [← hmemory]
  rfl

section
variable {s : State} (hrun : s.fabricRuns = true) {r : DmcRequest} (hdmc : s.memory.dmc = [r]) (hqueue : r.queue ≤ 2) (hscrub : r.scrub = none)
  (hr : s.StoredRight)
include hrun hdmc hqueue hscrub hr

theorem State.exec_serve_read (hchannel : r.channel = 1) (hdata : r.data = []) (hlen : r.len = 8) (hstale : s.staleOf r.addr = []) :
    ∃ t, exec (.dramRequest (.serve 1)) s = .next t ∧ t.resp = ⟨false, BitVec.ofNat 64 (s.numAt r.addr 8)⟩ ∧
      rowOf r.addr ∈ t.memory.openRows ∧
      t.memory = { s.memory with dmc := [], openRows := t.memory.openRows, checkBlocks := t.memory.checkBlocks } ∧ t.fld F.DMC_QUEUE_STAT_OCC_B = 0 ∧
      KeepsRegs s t [R.DMC_QUEUE_STAT, R.DMC_CHAN_STAT] ∧ t = { s with regs := t.regs, memory := t.memory, resp := t.resp, fresh := t.fresh } := by
  obtain ⟨u, hu⟩ : ∃ u, u = s.opened r := ⟨_, rfl⟩
  have hserved : s.DramServed u := hu ▸ s.dramServed_opened r
  have hur : u.StoredRight := hserved.storedRight hr
  have hperform := State.dmcPerform_read hur hdata hlen hscrub (by rw [hserved.rest]; exact hstale)
  have hnum : u.numAt r.addr 8 = s.numAt r.addr 8 := by rw [hserved.rest]; rfl
  obtain ⟨v, hv⟩ : ∃ v, v = u.touchCheck (lineOf r.addr) false := ⟨_, rfl⟩
  have htouch : u.ChecksOnly v := hv ▸ u.checksOnly_touchCheck _ _
  have hstep : s.dramStep (.serve 1) = v.respond false (BitVec.ofNat 64 (s.numAt r.addr 8)) := by
    have hone := State.dmcServe_one hdmc hqueue
    rw [hchannel, ← hu, hperform, ← hv, hnum] at hone
    rw [← hone]
    simp [State.dramStep, hrun]
  have hempty : u.memory.dmc = [] := hu ▸ s.dmc_opened r
  have hall := hserved.trans htouch.dramServed
  have hmemory := congrArg State.memory hall.rest
  have hvdmc : v.memory.dmc = [] := by rw [htouch.memory]; exact hempty
  rw [hvdmc] at hmemory
  refine ⟨_, congrArg Host.Outcome.next hstep, rfl, ?_, hmemory, State.occB_served (s := s) (r := r) (hu ▸ htouch.keeps), hall.keeps, ?_⟩
  · have hrows : v.memory.openRows = u.memory.openRows := by rw [htouch.memory]
    have hin : rowOf r.addr ∈ v.memory.openRows := by rw [hrows, hu]; exact s.rowOf_mem_opened r
    exact hin
  · rw [hall.rest]
    rfl

theorem State.exec_serve_write (hchannel : r.channel = 0) (hdata : r.data.length = 8) (hdram : s.inDram r.addr = true) :
    ∃ t, exec (.dramRequest (.serve 0)) s = .next t ∧ t.resp = ⟨false, 0#64⟩ ∧ t.bytesAt r.addr 8 = r.data ∧ KeepsMemBut s t r.addr 8 ∧
      t.memory = { s.memory with dmc := [], openRows := t.memory.openRows, checkBlocks := t.memory.checkBlocks, stale := t.memory.stale } ∧
      KeepsRegs s t [R.DMC_QUEUE_STAT, R.DMC_CHAN_STAT] ∧
      t = { s with regs := t.regs, mem := t.mem, memory := t.memory, resp := t.resp, fresh := t.fresh } := by
  obtain ⟨u, hu⟩ : ∃ u, u = s.opened r := ⟨_, rfl⟩
  have hserved : s.DramServed u := hu ▸ s.dramServed_opened r
  have hur : u.StoredRight := hserved.storedRight hr
  obtain ⟨w, hw⟩ : ∃ w, w = (u.freshen r.addr r.data.length).putMem r.addr r.data := ⟨_, rfl⟩
  have hwrite := State.targetWrite_dram (u := u) (bs := r.data) hur (by rw [hserved.rest]; exact hdram)
  obtain ⟨v, hv⟩ : ∃ v, v = w.touchCheck (lineOf r.addr) true := ⟨_, rfl⟩
  have htouch : w.ChecksOnly v := hv ▸ w.checksOnly_touchCheck _ _
  rw [← hw, ← hv] at hwrite
  have hfull : r.data.isEmpty = false := by
    cases hd : r.data with
    | nil => rw [hd] at hdata; exact absurd hdata (by decide)
    | cons b bs => rfl
  have hstep : s.dramStep (.serve 0) = v.respond false 0#64 := by
    have hperform : u.dmcPerform r = v.respond false 0#64 := by
      unfold State.dmcPerform
      rw [hscrub, hfull, hwrite]
      rfl
    have hone := State.dmcServe_one hdmc hqueue
    rw [hchannel, ← hu, hperform] at hone
    rw [← hone]
    simp [State.dramStep, hrun]
  have hwrest : w = { u with mem := w.mem, memory := { u.memory with stale := w.memory.stale } } := by
    rw [hw, hur.freshen_rest]
    rfl
  have hwregs : w.regs = u.regs := by rw [hwrest]
  have hkeeps : KeepsRegs s v [R.DMC_QUEUE_STAT, R.DMC_CHAN_STAT] :=
    (hserved.keeps.of_regs hwregs).trans (htouch.keeps.mono (by decide))
  have hmemory : v.memory = { s.memory with dmc := [], openRows := v.memory.openRows, checkBlocks := v.memory.checkBlocks, stale := v.memory.stale } := by
    have hempty : u.memory.dmc = [] := hu ▸ s.dmc_opened r
    have hwmemory := congrArg State.memory hwrest
    have humemory := congrArg State.memory hserved.rest
    rw [hempty] at humemory
    rw [htouch.memory, hwmemory, humemory]
  have hvmem : v.mem = w.mem := by rw [htouch.rest]
  have hbytes (x : Nat) : v.byteAt x = ((s.putMem r.addr r.data).byteAt x) := by
    have hmem : w.mem = (s.putMem r.addr r.data).mem := by rw [hw, hserved.rest]; rfl
    rw [State.byteAt, State.byteAt, hvmem, hmem]
  refine ⟨_, congrArg Host.Outcome.next hstep, rfl, ?_, ?_, ?_, ?_, ?_⟩
  · have hput := s.bytesAt_putMem r.addr r.data
    rw [hdata] at hput
    exact (List.map_congr_left fun i _ => hbytes _).trans hput
  · intro x hx
    exact (hbytes x).trans (s.byteAt_putMem_out _ _ _ (by omega))
  · exact hmemory
  · exact hkeeps
  · rw [htouch.rest, hwrest, hserved.rest]
    rfl

end

end Sys2Proof.Machine
end

section
/-! MRAM_WRITE and MRAM_WRITE_DONE (R99, R100, R275, R277, R283). -/
namespace Sys2Proof.Machine

/-! ### A write that enters its bank queue -/

theorem State.mramPush_empty {s : State} (h : s.memory.mram = []) (e : MramWrite) :
    s.mramPush e = { s with memory := { s.memory with mram := [e] } } := by
  have hroom : s.mramRoom (mramBank e.addr) = s := by
    rw [State.mramRoom, State.mramUntil, h]
    rfl
  rw [State.mramPush, hroom, h]
  rfl

theorem State.touchSnapshot_keepsRegs (s : State) (a n : Nat) : KeepsRegs s (s.touchSnapshot a n) [R.PWR_SNAP_CTRL] := by
  unfold State.touchSnapshot
  dsimp only
  split
  · exact (KeepsRegs.refl s _).setFld (by decide)
  · exact KeepsRegs.refl s _

theorem State.touchSnapshot_rest (s : State) (a n : Nat) : s.touchSnapshot a n = { s with regs := (s.touchSnapshot a n).regs } := by
  unfold State.touchSnapshot
  dsimp only
  split <;> rfl

/-- A 64-bit word is one piece. -/
theorem wordPieces_word {w : Nat} (hw : w % 8 = 0) : wordPieces w 8 = [(0, 8)] := by
  have hwords : wordsOf w 8 = [w] := by
    have hcount : (w + 8 - 1) / 8 - w / 8 + 1 = 1 := by omega
    have hstart : (w / 8 + 0) * 8 = w := by omega
    rw [wordsOf, if_neg (by decide), hcount]
    simp only [List.range_one, List.map_cons, List.map_nil, hstart]
  rw [wordPieces, hwords]
  simp

/-- R275: a word that lands in MRAM while no write is queued. -/
def State.mramHeld (s : State) (w : Nat) (bs : List Byte) : State :=
  let u := (s.freshen w 8).putMem w bs
  { u with memory := { u.memory with mram := [⟨w, BitVec.ofNat 64 (s.numAt w 8), BitVec.ofNat 64 ((s.putMem w bs).numAt w 8)⟩] } }

theorem State.land_word {s : State} {w : Nat} {bs : List Byte} (hw : w % 8 = 0) (hin : inMram w = true) (hlen : bs.length = 8)
    (hempty : s.memory.mram = []) : s.land w bs = (s.mramHeld w bs).touchSnapshot w 8 := by
  have hword : w / 8 * 8 = w := by omega
  have hqueue : (s.freshen w 8).mramQueue w bs = (s.mramHeld w bs).touchSnapshot w 8 := by
    rw [State.mramQueue, hword, hlen, State.mramPush_empty (s := (s.freshen w 8).putMem w bs) hempty]
    rfl
  rw [State.land, hlen, hin, if_pos rfl, wordPieces_word hw, forAll_one]
  simpa [List.take_of_length_le (Nat.le_of_eq hlen)] using hqueue

theorem State.StoredRight.mramHeld_rest {s : State} (hr : s.StoredRight) (w : Nat) (bs : List Byte) :
    s.mramHeld w bs = { s with mem := (s.putMem w bs).mem,
                               memory := { s.memory with mram := (s.mramHeld w bs).memory.mram, stale := (s.mramHeld w bs).memory.stale } } := by
  unfold State.mramHeld
  rw [hr.freshen_rest]
  rfl

/-- The bytes of `mask` in a word come from the writer, the others from the word. -/
def State.mramMerged (s : State) (w mask : Nat) (data : DWord) : List Byte :=
  (List.range 8).map (fun i => if mask.testBit i then BitVec.ofNat 8 (data.toNat / 2 ^ (8 * i)) else s.byteAt (w + i))

theorem State.length_mramMerged (s : State) (w mask : Nat) (data : DWord) : (s.mramMerged w mask data).length = 8 := by simp [State.mramMerged]

theorem State.byteAt_putMem_merged (s : State) (w : Nat) (mask : Byte) (data : DWord) (i : Fin 8) :
    (s.putMem w (s.mramMerged w mask.toNat data)).byteAt (w + i.val) =
      if mask.getLsbD i.val then BitVec.ofNat 8 (data.toNat / 2 ^ (8 * i.val)) else s.byteAt (w + i.val) := by
  rw [State.byteAt_putMem, State.length_mramMerged, if_pos (by omega)]
  simp [State.mramMerged, List.getD, BitVec.testBit_toNat]

theorem State.mramWrite_accepted {s : State} {w : Nat} (hrun : s.fabricRuns = true) (hopen : s.mramRefuses w 8 = false) (hr : s.StoredRight)
    (hempty : s.memory.mram = []) (mask : Nat) (data : DWord) :
    s.mramWrite w mask data = (s.land w (s.mramMerged w mask data)).respond false 0#64 := by
  have hroom : s.mramFull (mramBank w) = false := by simp [State.mramFull, hempty]
  unfold State.mramWrite
  simp only [hrun, hopen, hroom, hr.marked, hr.eccWord_right, ite_self, Bool.not_true, Bool.false_eq_true, false_and, if_false]
  rfl

/-! ### The commands -/

section
variable {s : State} (word : BitVec 20) (mask : Byte) (data : DWord)

theorem inMram_word : inMram (0x08000000 + 8 * word.toNat) = true := by
  rw [inMram_iff]
  omega

variable (hrun : s.fabricRuns = true)
include hrun

theorem State.exec_mramWrite_accepted (hopen : s.mramRefuses (0x08000000 + 8 * word.toNat) 8 = false) (hr : s.StoredRight)
    (hempty : s.memory.mram = []) :
    ∃ t, exec (.mramWrite word mask data) s = .next t ∧
      (∀ i : Fin 8, t.byteAt (0x08000000 + 8 * word.toNat + i.val) = if mask.getLsbD i.val then BitVec.ofNat 8 (data.toNat / 2 ^ (8 * i.val))
        else s.byteAt (0x08000000 + 8 * word.toNat + i.val)) ∧
      t.memory.mram = [⟨0x08000000 + 8 * word.toNat, BitVec.ofNat 64 (s.numAt (0x08000000 + 8 * word.toNat) 8),
        BitVec.ofNat 64 (t.numAt (0x08000000 + 8 * word.toNat) 8)⟩] ∧
      t.resp = ⟨false, 0#64⟩ ∧ KeepsMemBut s t (0x08000000 + 8 * word.toNat) 8 ∧ KeepsRegs s t [R.PWR_SNAP_CTRL] ∧
      t = { s with regs := t.regs, mem := t.mem, memory := { s.memory with mram := t.memory.mram, stale := t.memory.stale }, resp := t.resp } := by
  obtain ⟨w, hw⟩ : ∃ w, w = 0x08000000 + 8 * word.toNat := ⟨_, rfl⟩
  have hin : inMram w = true := hw ▸ inMram_word word
  rw [← hw] at hopen ⊢
  obtain ⟨bs, hbs⟩ : ∃ bs, bs = s.mramMerged w mask.toNat data := ⟨_, rfl⟩
  have hlen : bs.length = 8 := hbs ▸ s.length_mramMerged _ _ _
  obtain ⟨u, hu⟩ : ∃ u, u = s.mramHeld w bs := ⟨_, rfl⟩
  obtain ⟨v, hv⟩ : ∃ v, v = u.touchSnapshot w 8 := ⟨_, rfl⟩
  have hnow : s.mramWrite w mask.toNat data = v.respond false 0#64 := by
    rw [State.mramWrite_accepted hrun hopen hr hempty, ← hbs, State.land_word (by omega) hin hlen hempty, ← hu, ← hv]
  have hurest := hr.mramHeld_rest w bs
  have hqueued : u.memory.mram = [⟨w, BitVec.ofNat 64 (s.numAt w 8), BitVec.ofNat 64 ((s.putMem w bs).numAt w 8)⟩] := hu ▸ rfl
  rw [← hu] at hurest
  have hvrest : v = { u with regs := v.regs } := hv ▸ u.touchSnapshot_rest w 8
  have hmem : v.mem = (s.putMem w bs).mem := by rw [hvrest, hurest]
  have hbytes (x : Nat) : v.byteAt x = (s.putMem w bs).byteAt x := by rw [State.byteAt, State.byteAt, hmem]
  have hnum : v.numAt w 8 = (s.putMem w bs).numAt w 8 := congrArg leNat (List.map_congr_left fun i _ => hbytes (w + i))
  have huregs : u.regs = s.regs := by rw [hurest]
  refine ⟨v.respond false 0#64, congrArg Host.Outcome.next (hw ▸ hnow), fun i => ?_, ?_, rfl, fun x hx => ?_, ?_, ?_⟩
  · exact (hbytes _).trans (hbs ▸ s.byteAt_putMem_merged w mask data i)
  · have hvqueued : v.memory.mram = u.memory.mram := by rw [hvrest]
    have hresult : v.memory.mram = [⟨w, BitVec.ofNat 64 (s.numAt w 8), BitVec.ofNat 64 (v.numAt w 8)⟩] := by rw [hvqueued, hqueued, hnum]
    exact hresult
  · exact (hbytes x).trans (s.byteAt_putMem_out _ _ _ (by omega))
  · exact ((KeepsRegs.refl s _).of_regs huregs).trans (hv ▸ u.touchSnapshot_keepsRegs w 8 : KeepsRegs u v _)
  · rw [hvrest, hurest]
    rfl

theorem State.exec_mramWrite_closed (hclosed : s.power.mramClosed = true) :
    ∃ t, exec (.mramWrite word mask data) s = .next t ∧ t = { s with resp := ⟨true, 0#64⟩ } := by
  have hrefused : s.mramRefuses (0x08000000 + 8 * word.toNat) 8 = true := by rw [State.mramRefuses, inMram_word, hclosed]; rfl
  have hquiet : s.noteRefused (0x08000000 + 8 * word.toNat) 8 = s := by simp [State.noteRefused, hclosed, State.when]
  refine ⟨_, congrArg Host.Outcome.next (?_ : s.mramWrite _ _ _ = s.respond true 0#64), rfl⟩
  simp [State.mramWrite, hrun, hrefused, hquiet]

theorem State.exec_mramWrite_protected (hopen : s.power.mramClosed = false) (hwp : s.writeProtected (0x08000000 + 8 * word.toNat) = true) :
    ∃ t, exec (.mramWrite word mask data) s = .next t ∧ t.event P.MRAMC E.MRAMC_WP_VIOLATION = true ∧ t.resp = ⟨true, 0#64⟩ ∧
      KeepsRegs s t [R.EVT_RAW P.MRAMC] ∧ t = { s with regs := t.regs, resp := t.resp } := by
  have hrefused : s.mramRefuses (0x08000000 + 8 * word.toNat) 8 = true := by rw [State.mramRefuses, inMram_word, hopen, hwp]; rfl
  have hnoted : s.noteRefused (0x08000000 + 8 * word.toNat) 8 = s.raise P.MRAMC E.MRAMC_WP_VIOLATION := by
    rw [State.noteRefused, State.when, if_pos (by rw [hopen, hwp]; rfl)]
  refine ⟨_, congrArg Host.Outcome.next (?_ : s.mramWrite _ _ _ = (s.raise P.MRAMC E.MRAMC_WP_VIOLATION).respond true 0#64), ?_, rfl, ?_, rfl⟩
  · simp [State.mramWrite, hrun, hrefused, hnoted]
  · exact State.event_raise s _ _ (by decide)
  · exact ((KeepsRegs.refl s _).raise (by decide)).of_regs rfl

end

section
variable {s : State} (bank : Fin 2)

/-- R99, R275: the one write queued completes. -/
theorem State.mramComplete_one {e : MramWrite} (hmram : s.memory.mram = [e]) (hbank : mramBank e.addr = bank.val) :
    s.mramComplete bank.val = { s with memory := { s.memory with mram := [], mramAhead := s.memory.mramAhead - 1 },
                                       power := { s.power with snapWait := s.power.snapWait - 1 } } := by
  have hfirst : s.memory.mram.findIdx? (fun x => mramBank x.addr == bank.val) = some 0 := by simp [hmram, hbank]
  have hless (n : Nat) : oneLess n 0 = n - 1 := by unfold oneLess; split <;> omega
  have hfree : ¬ (s.memory.mramAhead ≠ 0 ∧ s.memory.mramAhead ≤ 0) := by omega
  rw [State.mramComplete, hfirst]
  dsimp only
  rw [if_neg hfree, hless, hless, hmram]
  rfl

theorem State.exec_mramWriteDone_one {e : MramWrite} (hmram : s.memory.mram = [e]) (hbank : mramBank e.addr = bank.val)
    (hdraining : s.flag F.MRAMC_QUEUE_DRAINING = true) :
    ∃ t, exec (.mramWriteDone bank) s = .next t ∧ t.memory = { s.memory with mram := [], mramAhead := s.memory.mramAhead - 1 } ∧
      (s.memory.mramAhead ≤ 1 → t.flag F.MRAMC_QUEUE_DRAINING = false ∧ t.event P.MRAMC E.MRAMC_DRAINED = true) ∧
      t.power = { s.power with snapWait := s.power.snapWait - 1 } ∧
      KeepsRegs s t [R.MRAMC_QUEUE, R.EVT_RAW P.MRAMC] ∧ t = { s with regs := t.regs, memory := t.memory, power := t.power } := by
  obtain ⟨u, hu⟩ : ∃ u, u = s.mramComplete bank.val := ⟨_, rfl⟩
  have hrest := State.mramComplete_one bank hmram hbank
  rw [← hu] at hrest
  have hregs : u.regs = s.regs := by rw [hrest]
  have hstill : u.flag F.MRAMC_QUEUE_DRAINING = true := by rw [hrest]; exact hdraining
  have hahead : u.memory.mramAhead = s.memory.mramAhead - 1 := by rw [hrest]
  have hkeeps : KeepsRegs s u [R.MRAMC_QUEUE, R.EVT_RAW P.MRAMC] := (KeepsRegs.refl s _).of_regs hregs
  have hdone : s.mramDone bank.val = if u.memory.mramAhead = 0 then (u.setFld F.MRAMC_QUEUE_DRAINING 0).raise P.MRAMC E.MRAMC_DRAINED else u := by
    rw [State.mramDone, ← hu]
    simp [hstill]
  by_cases hlast : s.memory.mramAhead ≤ 1
  · rw [if_pos (by omega)] at hdone
    refine ⟨_, congrArg Host.Outcome.next hdone, ?_, fun _ => ⟨?_, State.event_raise _ _ _ (by decide)⟩, ?_,
      (hkeeps.setFld (by decide)).raise (by decide), ?_⟩
    · rw [hrest]
      rfl
    · rw [State.flag, State.fld_raise_ne _ _ _ _ (by decide), State.fld_setFld _ _ _ (by decide)]
      rfl
    · rw [hrest]
      rfl
    · rw [hrest]
      rfl
  · rw [if_neg (by omega)] at hdone
    refine ⟨u, congrArg Host.Outcome.next hdone, by rw [hrest], fun h => absurd h hlast, by rw [hrest], hkeeps, by rw [hrest]⟩

theorem State.exec_mramWriteDone_empty (hmram : s.memory.mram = []) (hidle : s.flag F.MRAMC_QUEUE_DRAINING = false) :
    ∃ t, exec (.mramWriteDone bank) s = .next t ∧ t = s := by
  have hnone : s.mramComplete bank.val = s := by rw [State.mramComplete, hmram]; rfl
  refine ⟨_, congrArg Host.Outcome.next (?_ : s.mramDone bank.val = s), rfl⟩
  rw [State.mramDone, hnone]
  simp [hidle]

end

end Sys2Proof.Machine
end

section
/-! The statement about the DMC and the MRAMC (R265 to R283), assembled from the lemmas about their commands. -/
namespace Sys2Proof.Machine

/-- Settles O25: it holds. These are the model's choices (assumption log 24): that DRAM_REQUEST is of the DMC alone, that a refresh closes
the open row of its bank, that a scrub read takes a buffer of the normal queue, waits while none is free or the one before it waits, and is
served at once on an idle channel, and that HOT reads 1 while the rate in force is not ×1. -/
theorem memoryControllersScrubRefreshAndQueue : Obligations.MemoryControllersScrubRefreshAndQueue := by
  unfold Obligations.MemoryControllersScrubRefreshAndQueue
  refine ⟨?_, ?_, ?_, ?_, ?_, ?_, ?_, ?_, ?_, ?_, ?_, ?_, ?_, ?_, ?_, ?_, ?_, ?_, ?_⟩
  -- the scrub of the DMC
  · exact fun s channel word hen hsr hrun hsound _ hk => State.exec_dmcScrub_right hen hsr hrun hsound channel word hk
  · exact fun s channel word hen hsr hrun hsound _ hk => State.exec_dmcScrub_wraps hen hsr hrun hsound channel word hk
  · exact fun s channel word b hen hsr hrun hsound _ hk hlog => State.exec_dmcScrub_one hen hsr hrun hsound channel word b hk hlog
  · exact fun s channel word up r hen hsr hrun hdmc hchannel hscrub =>
      State.exec_dmcScrub_queued hen hsr hrun channel word up hdmc hchannel hscrub
  · exact fun s channel word up hwait => State.exec_dmcScrub_waits channel word up hwait
  · exact fun s channel word up h => State.exec_dmcScrub_stands channel word up h
  -- temperatures and refresh
  · exact fun s a b => s.exec_dmcTempReading a b
  · exact fun s channel hsr hphase => State.exec_refresh channel hsr hphase
  · exact fun s channel h => State.exec_refresh_stands channel h
  -- the queues of the DMC
  · exact fun s a len guar prio hrun hdram hlen hline hdmc => State.exec_accept_read hrun a len guar prio hdram hlen hline hdmc
  · exact fun s r hrun hdmc hchannel hqueue hdata hlen hscrub hr hstale _ =>
      State.exec_serve_read hrun hdmc hqueue hscrub hr hchannel hdata hlen hstale
  · exact fun s r hrun hdmc hchannel hqueue hdata hscrub hdram _ hr => State.exec_serve_write hrun hdmc hqueue hscrub hr hchannel hdata hdram
  · exact fun s r ns hrun hdmc hchannel hqueue => State.exec_age hrun ns hdmc hchannel hqueue
  · exact fun s channel bank ns hrun => State.exec_idle hrun channel bank ns
  -- MRAM
  · exact fun s word mask data hrun hopen ⟨hr, _⟩ hempty => State.exec_mramWrite_accepted word mask data hrun hopen hr hempty
  · exact fun s word mask data hrun hclosed => State.exec_mramWrite_closed word mask data hrun hclosed
  · exact fun s word mask data hrun hopen hwp => State.exec_mramWrite_protected word mask data hrun hopen hwp
  · exact fun s e bank hmram hbank hdraining => State.exec_mramWriteDone_one bank hmram hbank hdraining
  · exact fun s bank hmram hidle => State.exec_mramWriteDone_empty bank hmram hidle

end Sys2Proof.Machine
end

section
/-! Requests of a Heddle channel with an unpaired DRAM reservation (R403). The address selects the DMC channel that takes a request, also where
the reservation's TARGET is the other one: it then waits for the pick as a fallback packet to the channel of its address. -/
namespace Sys2Proof.Machine

/-- R307, R403: a request under a live DRAM reservation waits for a pick of it, and its target is the DMC of its address. -/
theorem exec_loomRequest_dram_reserved {s : State} {k : LoomPacket} {r prio : Nat}
    (hres : (s.packetRes k).bind (fun n => s.resFor k.ini.val k.target.val k.addr.toNat n) = some r)
    (hdram : resDram (s.loom.live.word r) = true) (hrequests : s.Requests k (6 + dmcChannel k.addr.toNat))
    (hprio : s.packetPrio k = some prio) :
    exec (.loomRequest k) s =
      .next (s.setQueued r (s.queuedRes r ++ [s.packetTxn k (6 + dmcChannel k.addr.toNat) prio (some r)])) := by
  obtain ⟨hini, hnot10, htarget, hother, hclocked, hline⟩ := hrequests
  have hnot : k.ini.val ≠ 10 := fun e => hnot10 (Fin.ext e)
  refine congrArg Host.Outcome.next ?_
  simp [State.opLoomRequest, hres, hdram, hprio, hini, hnot, htarget, hother, hclocked, hline]

/-- Reservation 5, unpaired, of Heddle towards DMC channel 0, with pick 9. -/
def heddleDramTable : LoomTable :=
  { LoomTable.empty with res := [(5, BitVec.ofNat 64 (1 + 2 ^ 3 + 2 ^ 4 * 8 + 2 ^ 8 * 6))], picks := [(9, 0x85#64)] }

/-- A channel that copies a line of DMC channel 1 into base camp, under reservation 5. -/
def reservedCopyChannel : HeddleChannel :=
  { e := { kind := 0, inst := 0, gen := 1, prio := 2, haltOnErr := false, kickAdv := false, cq := 0, prefetch := 0, order := 4,
           base := 0x01001000, port := 0, res := some 5, ctx := 0 },
    state := 2, head := 0, tail := 1, pending := false, dropping := false,
    items := [{ HeddleItem.blank 0 1 true none with len := 64, src := 0x80000100, dst := 0x01000200 }], waiting := [], out := 0 }

/-- The state after reset, but with Heddle enabled, those tables made live by a swap, and that channel. -/
def State.fallbackCopy : State :=
  let swapped := ({ State.reset with loom := { LoomState.reset with shadow := some heddleDramTable } } : State).opSwap
  { swapped.setFld (F.PAGE_STAT_ENABLED P.HEDDLE) 1 with heddle := { HeddleState.reset with ch := [(0, reservedCopyChannel)] } }

/-- The copy's read of its source line. -/
def fallbackRead : LoomPacket :=
  { ini := 8, target := 6, op := 0, addr := 0x80000100, len := 63, prio := 0, priv := false, pref := false, io := false, ahead := false,
    cause := none, use := .move 0, data := [] }

/-- Reservation 5 is the one under which the read goes; of its TARGET, DMC 0, and of the DMC of the address, DMC 1, Heddle may make requests. -/
theorem State.fallbackCopy_reserved :
    (State.fallbackCopy.packetRes fallbackRead).bind
        (fun n => State.fallbackCopy.resFor fallbackRead.ini.val fallbackRead.target.val fallbackRead.addr.toNat n) = some 5 ∧
      resDram (State.fallbackCopy.loom.live.word 5) = true ∧ resTarget (State.fallbackCopy.loom.live.word 5) = 6 ∧
      dmcChannel fallbackRead.addr.toNat = 1 ∧ State.fallbackCopy.packetPrio fallbackRead = some 2 ∧
      State.fallbackCopy.Requests fallbackRead 6 ∧ State.fallbackCopy.Requests fallbackRead 7 := by
  unfold State.Requests
  decide +kernel

theorem State.queuedRes_setQueued (s : State) (r : Nat) (q : List LoomTxn) : (s.setQueued r q).queuedRes r = q := by
  simp [State.queuedRes, State.setQueued, SMap.get_put]

theorem State.packetTxn_target (s : State) (k : LoomPacket) (t prio : Nat) (res : Option Nat) : (s.packetTxn k t prio res).target = t := rfl

/-- Refutes O26: the clause of a request under a live reservation queues it for the TARGET of the reservation, and in `State.fallbackCopy` the
read waits as a fallback packet to the other DMC. -/
theorem not_loomRequestsResponsesAndPicks : ¬ Obligations.LoomRequestsResponsesAndPicks := by
  unfold Obligations.LoomRequestsResponsesAndPicks
  intro h
  obtain ⟨-, -, -, -, hreserved, -⟩ := h
  obtain ⟨hres, hdram, htarget, hchannel, hprio, hto6, hto7⟩ := State.fallbackCopy_reserved
  obtain ⟨t, ht, hqueued, -⟩ := hreserved State.fallbackCopy fallbackRead 5 2 hres (htarget ▸ hto6) hprio (.inl hdram)
  rw [exec_loomRequest_dram_reserved (r := (5 : Fin 64).val) hres hdram (hchannel ▸ hto7) hprio] at ht
  injection ht with ht
  subst ht
  rw [State.queuedRes_setQueued] at hqueued
  have htargets := congrArg LoomTxn.target (List.singleton_inj.1 (List.append_cancel_left hqueued))
  rw [State.packetTxn_target, State.packetTxn_target, hchannel] at htargets
  exact absurd (htargets.trans htarget) (by decide)

end Sys2Proof.Machine
end

section
/-! A write of LOOM_COMMIT.GO while a commit is in progress (R316): it is refused as one clamp event (R46), which LOOM_COMMIT_STAT notes (R309). -/
namespace Sys2Proof.Machine

/-- A refusal is told by the event and the log of its page, so what keeps both keeps it. -/
theorem State.Refused.of_log {s t u : State} {q : Req} {a reason detail : Nat} (h : s.Refused t q a reason detail)
    (hevent : u.event (pageBase a) 31 = true) (haddr : u.raw (R.CLAMP_ADDR (pageBase a)) = t.raw (R.CLAMP_ADDR (pageBase a)))
    (hwrote : u.raw (R.CLAMP_WROTE (pageBase a)) = t.raw (R.CLAMP_WROTE (pageBase a)))
    (hkept : u.raw (R.CLAMP_KEPT (pageBase a)) = t.raw (R.CLAMP_KEPT (pageBase a)))
    (hcount : u.raw (R.CLAMP_COUNT (pageBase a)) = t.raw (R.CLAMP_COUNT (pageBase a))) : s.Refused u q a reason detail := by
  obtain ⟨-, hcounted, hfull, hempty⟩ := h
  have hfld : ∀ lo width, u.fld ⟨R.CLAMP_ADDR (pageBase a), lo, width⟩ = t.fld ⟨R.CLAMP_ADDR (pageBase a), lo, width⟩ :=
    fun lo width => congrArg (Bits.get · lo width) haddr
  refine ⟨hevent, (congrArg (Bits.get · _ _) hcount).trans hcounted, fun hvalid => ?_, fun hvalid => ?_⟩
  · obtain ⟨ha, hk, hw⟩ := hfull hvalid
    exact ⟨haddr.trans ha, hkept.trans hk, hwrote.trans hw⟩
  · obtain ⟨hset, hoffset, hcode, hni, hdetail⟩ := hempty hvalid
    exact ⟨(congrArg (· != 0) (hfld _ _)).trans hset, (hfld _ _).trans hoffset, (hfld _ _).trans hcode, (hfld _ _).trans hni,
      hkept.trans hdetail⟩

section
variable (s : State) (ni : Nat) (v : DWord) (reason detail : Nat)

theorem State.commitRefused_keepsRegs :
    KeepsRegs s (s.commitRefused ni v reason detail) (R.LOOM_COMMIT_STAT :: logRegs P.LOOM_CFG) := by
  have hlog : KeepsRegs s (s.refuse ni R.LOOM_COMMIT reason v detail) (R.LOOM_COMMIT_STAT :: logRegs P.LOOM_CFG) :=
    (KeepsRegs.refl s _).refuse (fun _ ha => List.mem_cons_of_mem _ ha)
  exact (hlog.setFld List.mem_cons_self).raise (by simp [logRegs])

theorem State.commitRefused_rest :
    s.commitRefused ni v reason detail = { s with regs := (s.commitRefused ni v reason detail).regs } :=
  State.only_raise (State.only_setFld (s.clampEvents_rest _ _ _ _ _ _ _))

theorem State.lastReason_commitRefused (hreason : reason < 128) :
    (s.commitRefused ni v reason detail).fld F.LOOM_COMMIT_STAT_LAST_REASON = reason := by
  rw [State.commitRefused, State.fld_raise_ne _ _ _ _ (by decide), State.fld_setFld _ _ _ (by decide)]
  exact Nat.mod_eq_of_lt hreason

theorem State.commitState_commitRefused :
    (s.commitRefused ni v reason detail).fld F.LOOM_COMMIT_STAT_STATE = s.fld F.LOOM_COMMIT_STAT_STATE := by
  have hlog : KeepsRegs s (s.refuse ni R.LOOM_COMMIT reason v detail) (logRegs P.LOOM_CFG) := (KeepsRegs.refl s _).refuse fun _ ha => ha
  rw [State.commitRefused, State.fld_raise_ne _ _ _ _ (by decide), State.fld_setFld_ne _ _ _ _ (by decide), hlog.fld (by decide)]

end

/-- R309: a commit refused is one clamp event of LOOM_COMMIT. -/
theorem State.refused_commitRefused (s : State) (q : Req) (v : DWord) (reason detail : Nat) (hreason : reason < 128) :
    s.Refused (s.commitRefused q.ni.val v reason detail) q R.LOOM_COMMIT reason detail := by
  have hrefused := s.refused_refuse q R.LOOM_COMMIT reason v detail hreason
  have hevent := hrefused.1
  have hkeep : ∀ t : State, ∀ a, a ≠ R.LOOM_COMMIT_STAT → a ≠ R.EVT_RAW P.LOOM_CFG →
      ((t.setFld F.LOOM_COMMIT_STAT_LAST_REASON reason).raise P.LOOM_CFG E.LOOM_CFG_COMMIT_REFUSED).raw a = t.raw a :=
    fun t a hstat hevt => (State.raw_raise_ne _ _ _ _ hevt).trans (t.raw_setFld_ne _ _ _ hstat)
  refine hrefused.of_log ?_ (hkeep _ _ ?_ ?_) (hkeep _ _ ?_ ?_) (hkeep _ _ ?_ ?_) (hkeep _ _ ?_ ?_)
  · exact State.event_raise_mono _ _ _ _ _ ((State.event_setFld_ne _ _ _ _ _ (by decide)).trans hevent)
  all_goals decide

/-- R316: behind a commit in progress, the refusal is all that a write of GO does. -/
theorem exec_commit_in_progress (s : State) (q : Req) (hopen : OpenTo s q P.LOOM_CFG) (hbusy : s.fld F.LOOM_COMMIT_STAT_STATE ≠ 0) :
    exec (.commit q) s = .next ((s.respond false 0#64).commitRefused q.ni.val 1#64 9 (s.fld F.LOOM_COMMIT_STAT_STATE)) := by
  obtain ⟨hpriv, hrun⟩ := hopen
  have hgate : s.gateWrite q R.LOOM_COMMIT .w 1#64 (fun t => t.opCommit q.ni.val 1#64) = (s.respond false 0#64).opCommit q.ni.val 1#64 :=
    s.gate_open _ _ _ _ _ (by decide) hpriv hrun
  have hstate : (s.respond false 0#64).fld F.LOOM_COMMIT_STAT_STATE ≠ 0 := hbusy
  refine congrArg Host.Outcome.next (hgate.trans ?_)
  rw [State.opCommit, if_neg (by decide), if_pos hstate]
  rfl

/-- Settles O57: in LOADING, CHECKING and WAIT_ROUND alike LOOM_COMMIT_STAT.STATE is not IDLE, and behind any commit that is not, GO is
refused; the shadow and the live tables are no registers, and the refusal writes nothing else. -/
theorem loomGoDuringACommitIsRefused : Obligations.LoomGoDuringACommitIsRefused := by
  intro s q hopen hstate
  have hbusy : s.fld F.LOOM_COMMIT_STAT_STATE ≠ 0 := by omega
  let u := s.respond false 0#64
  have hrest := u.commitRefused_rest q.ni.val 1#64 9 (s.fld F.LOOM_COMMIT_STAT_STATE)
  exact ⟨_, exec_commit_in_progress s q hopen hbusy, u.refused_commitRefused q _ _ _ (by decide), (congrArg State.loom hrest :),
    u.commitState_commitRefused _ _ _ _, u.lastReason_commitRefused _ _ _ _ (by decide), u.commitRefused_keepsRegs _ _ _ _, hrest⟩

end Sys2Proof.Machine
end

section
/-! Shuttle: an unclocked channel whose producer is the output of a clocked one. No write gives an unclocked channel such a producer (R364), but the
statement allows it, and says of every producer that is a channel that it is low. -/
namespace Sys2Proof.Machine

/-- The state after reset, but with Shuttle running, channel 0 clocked and high, and channel 1 unclocked with channel 0 as its producer. -/
def State.producerClocked : State :=
  let s := (State.reset.setFld (F.PAGE_STAT_ENABLED P.SHUTTLE) 1).setFld (F.SHUTTLE_CH_SEL_EN 0) 1
  (((s.setFld (F.SHUTTLE_CH_SEL_EN 1) 1).setFld (F.SHUTTLE_CH_SEL_PROD 1) 128).setFld (F.SHUTTLE_CH_SEL_UNCLOCKED 1) 1).setChan 0
    { ShuttleChannel.idle with out := true }

/-- Its output rises. -/
theorem unclockedForce_follows_clocked_producer :
    ∃ t, exec (.unclockedForce 0) State.producerClocked = .next t ∧ (t.chan 1).out = true :=
  ⟨_, rfl, by decide +kernel⟩

/-- Refutes O17: the clause of one unclocked channel gives `State.producerClocked` a low output, and it is high. -/
theorem not_shuttleChannelsPinsAndHolds : ¬ Obligations.ShuttleChannelsPinsAndHolds := by
  unfold Obligations.ShuttleChannelsPinsAndHolds
  intro h
  obtain ⟨-, -, -, -, hunclocked, -⟩ := h
  obtain ⟨t, ht, hchan, -⟩ := hunclocked State.producerClocked 1 0 (by decide +kernel) (by decide +kernel) (by decide +kernel) (by decide +kernel)
    (by decide +kernel) (by decide +kernel) (by decide +kernel)
  obtain ⟨u, hu, hhigh⟩ := unclockedForce_follows_clocked_producer
  rw [ht] at hu
  injection hu with hu
  subst hu
  have hlow : gatedProducer (State.producerClocked.setBalls 0) (fun _ => false) 1 = false := by decide +kernel
  have hout := (congrArg ShuttleChannel.out hchan).trans hlow
  rw [show ((1 : Fin 64) : Nat) = 1 from rfl, hhigh] at hout
  cases hout

end Sys2Proof.Machine
end

section
/-! A wake from WFI and from DOZE by an interrupt source or by MTIP (R104, R196, R360, R371). -/
namespace Sys2Proof.Machine

/-! ### From WFI -/

theorem Hart.wake_spec {t : Hart} (hwfi : t.wfi = true) (hpark : t.parked = false) (hstep : t.stepping = false) :
    t.wake.wfi = false ∧ t.wake.pc = t.pc + 4#64 := by
  have hcond : (t.wfi && ! t.parked) = true := by simp [hwfi, hpark]
  have hwake : t.wake = ({ t with wfi := false } : Hart).retired 1 (t.pc + 4#64) :=
    (if_pos hcond).trans (Hart.retire_eq_retired (t := { t with wfi := false }) hstep)
  rw [hwake, Hart.retired_eq]
  exact ⟨rfl, rfl⟩

section
variable {s : State} {h : Nat}

theorem State.not_parked_of_live (hl : s.hartLive h = true) : (s.hart h).parked = false := by
  simp only [State.hartLive, Bool.and_eq_true] at hl
  obtain ⟨⟨⟨-, hpark⟩, -⟩, -⟩ := hl
  simpa using hpark

/-- No hart is live in DOZE. -/
theorem State.not_doze_of_live (hl : s.hartLive h = true) : s.fld F.PWR_STATE_CUR ≠ 2 := by
  simp only [State.hartLive, Bool.and_eq_true, decide_eq_true_eq] at hl
  obtain ⟨-, hcur⟩ := hl
  omega

/-- A live hart in WFI that wakes goes on behind the WFI. -/
theorem State.wakes_from_wfi (hl : s.hartLive h = true) (hwfi : (s.hart h).wfi = true) (hstep : (s.hart h).stepping = false) :
    let t := (s.modHart h Hart.wake).mirror h
    (t.hart h).wfi = false ∧ (t.hart h).pc = (s.hart h).pc + 4#64 ∧ OnlyHart s t h := by
  obtain ⟨honly, hhart⟩ := s.turns_modHart (s.visible_of_live hl) (f := Hart.wake) rfl
  obtain ⟨hawake, hpc⟩ := Hart.wake_spec hwfi (State.not_parked_of_live hl) hstep
  exact ⟨hhart ▸ hawake, hhart ▸ hpc, honly⟩

/-! ### From DOZE -/

theorem State.regs_wakeHarts : s.wakeHarts.regs = s.regs := by
  unfold State.wakeHarts forAll
  refine List.foldlRecOn (motive := fun (t : State) => t.regs = s.regs) _ _ rfl fun t ht k _ => ?_
  dsimp only
  split
  · rw [State.mirror]
    split <;> simpa using ht
  · exact ht

/-- R104: a hart that is woken ends DOZE: the operating point is in force again and no hart is clock-gated. -/
theorem State.opDozeWake_ends_doze (hrun : s.power.phase = .run) (hdoze : s.fld F.PWR_STATE_CUR = 2) (hclosing : s.power.closing = none)
    (hh : h ∈ s.visible) (hup : s.wakeCond h = true ∨ s.localPending h = true) :
    s.opDozeWake.fld F.PWR_STATE_CUR = s.fld F.CLK_HART_OP ∧ s.opDozeWake.fld F.CLK_HART_GATED = 0 := by
  have hcond : s.awake ∧ s.fld F.PWR_STATE_CUR = 2 ∧ s.power.closing.isNone ∧
      (s.visible.any (fun k => s.wakeCond k || s.localPending k) ∨ s.power.wakes.testBit 4) :=
    ⟨decide_eq_true hrun, hdoze, by rw [hclosing]; rfl, .inl (List.any_eq_true.2 ⟨h, hh, by simpa using hup⟩)⟩
  have hregs (f : Fld) : s.opDozeWake.fld f = (((s.setFld F.PWR_STATE_CUR (s.fld F.CLK_HART_OP)).setFld F.CLK_HART_GATED 0).setFlag
      F.PWR_REQ_PENDING (s.fld F.PWR_REQ_IDLE != 0)).fld f := by
    rw [State.opDozeWake, if_pos hcond, State.fld, State.raw, State.regs_wakeHarts]
    rfl
  have hop : s.fld F.CLK_HART_OP < 2 ^ 1 := Bits.get_lt _ _ _
  rw [hregs, hregs, State.fld_setFlag_ne _ _ _ _ (by decide), State.fld_setFlag_ne _ _ _ _ (by decide),
    State.fld_setFld_ne _ _ _ _ (by decide), State.fld_setFld _ _ _ (by decide), State.fld_setFld _ _ _ (by decide)]
  exact ⟨Nat.mod_eq_of_lt (hop.trans (by decide)), rfl⟩

/-! ### HART_WAKE and MTIP_CHANGE -/

theorem State.opHartWake_live (hl : s.hartLive h = true) (hup : s.wakeCond h = true) : s.opHartWake h = (s.modHart h Hart.wake).mirror h := by
  simp [State.opHartWake, -List.contains_eq_mem, s.visible_of_live hl, hup, State.not_doze_of_live hl, hl]

theorem State.opHartWake_doze (hdoze : s.fld F.PWR_STATE_CUR = 2) (hh : h ∈ s.visible) (hup : s.wakeCond h = true) : s.opHartWake h = s.opDozeWake := by
  simp [State.opHartWake, hh, hup, hdoze]

theorem State.opHartWake_none (hup : s.wakeCond h = false) : s.opHartWake h = s := by simp [State.opHartWake, hup]

theorem State.opMtipChange_live (hl : s.hartLive h = true) (hmtip : s.mtip h = true) (hup : s.localPending h = true) :
    s.opMtipChange h = (s.modHart h Hart.wake).mirror h := by
  simp [State.opMtipChange, -List.contains_eq_mem, s.visible_of_live hl, hmtip, hup, State.not_doze_of_live hl, hl]

theorem State.opMtipChange_doze (hdoze : s.fld F.PWR_STATE_CUR = 2) (hh : h ∈ s.visible) (hmtip : s.mtip h = true) (hup : s.localPending h = true) :
    s.opMtipChange h = s.opDozeWake := by
  simp [State.opMtipChange, hh, hmtip, hup, hdoze]

theorem State.opMtipChange_none (hno : s.mtip h = false ∨ s.localPending h = false) : s.opMtipChange h = s := by
  rcases hno with hno | hno <;> simp [State.opMtipChange, hno]

end

end Sys2Proof.Machine
end

section
/-! Edges at Cairn (R349, R351): the latch of a source, and what an edge at a latched source leaves. -/
namespace Sys2Proof.Machine

/-- R102, Table Supply-10: whether a block is clocked is read off the supply and two of its registers. -/
theorem KeepsRegs.kept {s t : State} {l : List Nat} (h : KeepsRegs s t l) (hpower : t.power = s.power) (hstate : R.PWR_STATE ∉ l)
    (hkeep : R.CLK_STOP_KEEP_0 ∉ l) (b : Nat) : t.kept b = s.kept b := by
  rw [State.kept, State.kept, hpower, h.fld (f := F.PWR_STATE_CUR) hstate, h.fld (f := F.CLK_STOP_KEEP_0_KEEP) hkeep]

section
variable {s : State} {id : Nat}

theorem State.edge_ignored (h : (isEdgeSource id || isCombined id) = false ∨ s.kept 2 = false) : s.edge id = s := by
  rcases h with h | h <;> simp only [State.edge, h, Bool.not_false, Bool.true_or, Bool.or_true, if_true]

variable (htakes : (isEdgeSource id || isCombined id) = true) (hclocked : s.kept 2 = true)
include htakes hclocked

theorem State.edge_latches (hfree : (s.gate id).latch = false) : s.edge id = s.setGate id { s.gate id with latch := true } := by
  simp only [State.edge, htakes, hclocked, hfree, Bool.not_true, Bool.or_self, Bool.false_eq_true, if_false]

/-- An edge at a latched source is coalesced: counted, and named. -/
theorem State.edge_coalesces (hid : id < 2048) (hlatched : (s.gate id).latch = true) :
    (s.edge id).fld F.CAIRN_COALESCE_LAST_ID = id ∧
      (s.edge id).fld F.CAIRN_COALESCE_COUNT = min 65535 (s.fld F.CAIRN_COALESCE_COUNT + 1) ∧
      (s.edge id).event P.CAIRN_CTL E.CAIRN_CTL_COALESCE = true ∧ KeepsRegs s (s.edge id) [R.CAIRN_COALESCE, R.EVT_RAW P.CAIRN_CTL] ∧
      s.edge id = { s with regs := (s.edge id).regs } := by
  have hedge : s.edge id = ((s.bumpSat F.CAIRN_COALESCE_COUNT F.CAIRN_COALESCE_SAT).setFld F.CAIRN_COALESCE_LAST_ID id).raise
      P.CAIRN_CTL E.CAIRN_CTL_COALESCE := by
    simp only [State.edge, htakes, hclocked, hlatched, Bool.not_true, Bool.or_self, Bool.false_eq_true, if_false, if_true]
  rw [hedge]
  refine ⟨?_, ?_, State.event_raise _ _ _ (by decide), ?_, State.only_raise (State.only_setFld (s.bumpSat_rest _ _))⟩
  · rw [State.fld_raise_ne _ _ _ _ (by decide), State.fld_setFld _ _ _ (by decide)]
    exact Nat.mod_eq_of_lt hid
  · rw [State.fld_raise_ne _ _ _ _ (by decide), State.fld_setFld_ne _ _ _ _ (by decide), State.fld_bumpSat _ (by decide) (by decide)]
    rfl
  · exact (((KeepsRegs.refl s _).bumpSat (by decide) (by decide)).setFld (by decide)).raise (by decide)

end

end Sys2Proof.Machine
end

section
/-! The general timers tick (R372, R373, R375, R387). -/
namespace Sys2Proof.Machine

/-! ### The registers of the timers -/

theorem timerCount_ne_ctrl (m n : Nat) : R.TIMER_CTRL m ≠ R.TIMER_COUNT n := by
  unfold R.TIMER_CTRL R.TIMER_COUNT
  omega

theorem timerCtrl_injective {m n : Nat} (h : m ≠ n) : R.TIMER_CTRL m ≠ R.TIMER_CTRL n := by
  unfold R.TIMER_CTRL
  omega

/-- The registers of the timers lie above the rest of their page, and above the supply's pages. -/
theorem ne_timerCtrl {a : Nat} (h : a < P.TIMER + 0x80) (n : Nat) : a ≠ R.TIMER_CTRL n := (Nat.lt_add_right _ h).ne

theorem ne_timerCount {a : Nat} (h : a < P.TIMER + 0x80) (n : Nat) : a ≠ R.TIMER_COUNT n :=
  (h.trans_le (Nat.le_add_right_of_le (by decide))).ne

/-- R372: whether timer `n` runs is read off its EN, its page and what waits. -/
theorem KeepsRegs.timerRuns {s t : State} {l : List Nat} (h : KeepsRegs s t l) (hwaiting : t.timer.waiting = s.timer.waiting) {n : Nat}
    (hctrl : R.TIMER_CTRL n ∉ l) (hstat : R.PAGE_STAT P.TIMER ∉ l) : t.timerRuns n = s.timerRuns n := by
  rw [State.timerRuns, State.timerRuns, h.flag (f := F.TIMER_CTRL_EN n) hctrl, State.running, State.running,
    h.flag (f := F.PAGE_STAT_ENABLED P.TIMER) hstat, hwaiting]

/-! ### One tick of 5 ns -/

theorem forEach_congr {n : Nat} {f g : Nat → State → State} (h : ∀ i < n, f i = g i) (s : State) : forEach n f s = forEach n g s :=
  List.foldl_ext _ _ _ fun _ i hi => by rw [h i (List.mem_range.1 hi)]

/-- A loop of which one step alone, of those that it takes, acts does what that step does. -/
theorem forEach_alone {n k : Nat} {f : Nat → State → State} {s : State} (hk : k < n) (hbefore : ∀ i < n, i ≠ k → f i s = s)
    (hafter : ∀ i < n, i ≠ k → f i (f k s) = f k s) : forEach n f s = f k s := by
  let g (i : Nat) (t : State) : State := if i < n then f i t else t
  have hg (i : Nat) (hi : i < n) : g i = f i := funext fun t => if_pos hi
  have hk' : g k s = f k s := congrFun (hg k hk) s
  rw [forEach_congr (g := g) (fun i hi => (hg i hi).symm), forEach_only hk, hk']
  · intro i hne
    by_cases hi : i < n
    · rw [hg i hi, hbefore i hi hne]
    · exact if_neg hi
  · intro i hne
    rw [hk']
    by_cases hi : i < n
    · rw [hg i hi, hafter i hi hne]
    · exact if_neg hi

/-- A tick of the prescaled clock of timer `n`, before the timer sees it. -/
def State.prescaled (s : State) (n : Nat) : State := s.modTimer fun t => { t with pre := SMap.put (fun _ => 0) t.pre n 0 }

section
variable {s : State} {n : Nat}

theorem State.timerTick_stands (h : s.timerRuns n = false) : s.timerTick n = s := by
  simp only [State.timerTick, h, Bool.not_false, Bool.or_true, if_true]

theorem State.timerTick_counting (hclk : s.timersClocked = true) (hc : s.Counting n) : s.timerTick n = (s.prescaled n).timerStep n := by
  obtain ⟨hruns, hpre, -⟩ := hc
  simp only [State.timerTick, hclk, hruns, hpre, Nat.lt_irrefl, Bool.not_true, Bool.or_self, Bool.false_eq_true, if_false]
  rfl

/-- A tick in which timer `n` alone runs is its own. -/
theorem State.timersTick_alone {n : Fin 8} (hothers : ∀ m : Fin 8, m ≠ n → s.timerRuns m.val = false)
    (hafter : ∀ m : Fin 8, m ≠ n → (s.timerTick n.val).timerRuns m.val = s.timerRuns m.val) : s.timersTick = s.timerTick n.val := by
  have hother (m : Nat) (hm : m < 8) (hne : m ≠ n.val) : s.timerRuns m = false := hothers ⟨m, hm⟩ (Fin.ne_of_val_ne hne)
  refine forEach_alone n.isLt (fun m hm hne => State.timerTick_stands (hother m hm hne)) fun m hm hne => State.timerTick_stands ?_
  exact (hafter ⟨m, hm⟩ (Fin.ne_of_val_ne hne)).trans (hother m hm hne)

theorem State.en_of_runs (h : s.timerRuns n = true) : s.flag (F.TIMER_CTRL_EN n) = true := by
  simp only [State.timerRuns, Bool.and_eq_true] at h
  exact h.1.1

/-- COUNT of timer `n` has advanced. -/
def State.counted (s : State) (n : Nat) : State := s.setFld (F.TIMER_COUNT_COUNT n) (s.fld (F.TIMER_COUNT_COUNT n) + 1)

theorem State.count_counted (hfit : s.fld (F.TIMER_COUNT_COUNT n) + 1 < 2 ^ 32) :
    (s.counted n).fld (F.TIMER_COUNT_COUNT n) = s.fld (F.TIMER_COUNT_COUNT n) + 1 :=
  (State.fld_setFld _ _ _ (by simp [F.TIMER_COUNT_COUNT])).trans (Nat.mod_eq_of_lt hfit)

theorem State.counted_keepsRegs : KeepsRegs s (s.counted n) [R.TIMER_COUNT n] := (KeepsRegs.refl s _).setFld (List.mem_singleton.2 rfl)

theorem State.flagCtrl_counted {f : Fld} (hf : f.reg = R.TIMER_CTRL n) : (s.counted n).flag f = s.flag f :=
  State.counted_keepsRegs.flag (by rw [hf, List.mem_singleton]; exact timerCount_ne_ctrl n n)

section
variable (hexpired : s.timer.expired.testBit n = false) (hfits : s.timerForce n 0 < 2 ^ 32)
include hexpired hfits

/-- R372: a tick that finds COUNT below PERIOD − 2. -/
theorem State.timerStep_counts (hcount : s.fld (F.TIMER_COUNT_COUNT n) + 2 < s.timerForce n 0) : s.timerStep n = s.counted n := by
  have hless : s.fld (F.TIMER_COUNT_COUNT n) + 1 < s.timerForce n 0 := by omega
  have hnot : ¬ ((s.counted n).flag (F.TIMER_CTRL_EN n) = true ∧
      (s.counted n).fld (F.TIMER_COUNT_COUNT n) + 1 = (s.counted n).timerForce n 0) := by
    rintro ⟨-, heq⟩
    rw [State.count_counted (by omega)] at heq
    exact Nat.ne_of_lt hcount heq
  simp only [State.timerStep, hexpired, Bool.false_eq_true, if_false, hless, if_true]
  exact if_neg hnot

/-- R372: a tick that finds COUNT at PERIOD − 2 is an expiry. -/
theorem State.timerStep_expires (hen : s.flag (F.TIMER_CTRL_EN n) = true) (hcount : s.fld (F.TIMER_COUNT_COUNT n) + 2 = s.timerForce n 0) :
    s.timerStep n = (s.counted n).timerExpire n := by
  have hless : s.fld (F.TIMER_COUNT_COUNT n) + 1 < s.timerForce n 0 := by omega
  have hdue : (s.counted n).flag (F.TIMER_CTRL_EN n) = true ∧
      (s.counted n).fld (F.TIMER_COUNT_COUNT n) + 1 = (s.counted n).timerForce n 0 :=
    ⟨(State.flagCtrl_counted rfl).trans hen, by rw [State.count_counted (by omega)]; exact hcount⟩
  simp only [State.timerStep, hexpired, Bool.false_eq_true, if_false, hless, if_true]
  exact if_pos hdue

end

/-- R372: in the tick after an expiry a one-shot has COUNT 0 and EN 0. -/
theorem State.timerReturn_oneshot (hone : s.flag (F.TIMER_CTRL_ONESHOT n) = true) :
    (s.timerReturn n).flag (F.TIMER_CTRL_EN n) = false ∧ (s.timerReturn n).fld (F.TIMER_COUNT_COUNT n) = 0 ∧
      (s.timerReturn n).timer = { s.timer with expired := clearBits s.timer.expired (2 ^ n) } ∧
      KeepsRegs s (s.timerReturn n) [R.TIMER_COUNT n, R.TIMER_CTRL n] ∧
      s.timerReturn n = { s with regs := (s.timerReturn n).regs, timer := (s.timerReturn n).timer } := by
  let u := (s.setFld (F.TIMER_COUNT_COUNT n) 0).modTimer fun t => { t with expired := clearBits t.expired (2 ^ n) }
  have hreturn : s.timerReturn n = u.setFld (F.TIMER_CTRL_EN n) 0 := if_pos hone
  have hcount : u.fld (F.TIMER_COUNT_COUNT n) = 0 := s.fld_setFld (F.TIMER_COUNT_COUNT n) 0 (by simp [F.TIMER_COUNT_COUNT])
  rw [hreturn]
  refine ⟨?_, ?_, rfl, ?_, rfl⟩
  · exact State.flag_setFlag u (F.TIMER_CTRL_EN n) false (by simp [F.TIMER_CTRL_EN]) (by simp [F.TIMER_CTRL_EN])
  · exact (State.fld_setFld_ne _ _ _ _ (.inl (timerCount_ne_ctrl n n).symm)).trans hcount
  · exact (((KeepsRegs.refl s _).setFld (f := F.TIMER_COUNT_COUNT n) (v := 0) List.mem_cons_self).of_regs (u := u) rfl).setFld
      (List.mem_cons_of_mem _ (List.mem_singleton.2 rfl))

theorem State.timerStep_returns_oneshot (hexpired : s.timer.expired.testBit n = true) (hone : s.flag (F.TIMER_CTRL_ONESHOT n) = true) :
    s.timerStep n = s.timerReturn n := by
  obtain ⟨hen, -⟩ := State.timerReturn_oneshot (s := s) (n := n) hone
  simp [State.timerStep, hexpired, hen]

/-! ### An expiry -/

/-- R348: the source of a general timer takes edges. -/
theorem timerSource_takes (hn : n < 8) : (isEdgeSource (380 + n) || isCombined (380 + n)) = true := by
  have hsource : isEdgeSource (380 + n) = true := by simp only [isEdgeSource, decide_eq_true_eq]; omega
  rw [hsource, Bool.true_or]

/-- R349, R372: the source of timer `n` has an edge where IRQ_EN is set. -/
def State.timerSignalled (s : State) (n : Nat) : State := s.when (s.flag (F.TIMER_CTRL_IRQ_EN n)) fun t => t.edge (380 + n)

theorem State.timerSignalled_spec (hn : n < 8)
    (hirq : s.flag (F.TIMER_CTRL_IRQ_EN n) = false ∨ (s.kept 2 = true ∧ (s.gate (380 + n)).latch = false)) :
    (s.timerSignalled n).gate (380 + n) = { s.gate (380 + n) with latch := s.flag (F.TIMER_CTRL_IRQ_EN n) || (s.gate (380 + n)).latch } ∧
      (∀ j, j ≠ 380 + n → (s.timerSignalled n).gate j = s.gate j) ∧ s.timerSignalled n = { s with cairn := (s.timerSignalled n).cairn } := by
  cases hen : s.flag (F.TIMER_CTRL_IRQ_EN n) with
  | false =>
    have ht : s.timerSignalled n = s := if_neg (by simp [hen])
    rw [ht]
    exact ⟨rfl, fun _ _ => rfl, rfl⟩
  | true =>
    obtain ⟨hclocked, hfree⟩ := hirq.resolve_left (by simp [hen])
    have ht : s.timerSignalled n = s.setGate (380 + n) { s.gate (380 + n) with latch := true } :=
      (if_pos hen).trans (State.edge_latches (timerSource_takes hn) hclocked hfree)
    rw [ht]
    exact ⟨(s.gate_setGate _ _ _).trans (if_pos rfl), fun j hj => (s.gate_setGate _ _ _).trans (if_neg hj), rfl⟩

theorem State.rest_of_cairn {u v : State} {x : TimerState} (hu : u = { s with regs := u.regs }) (hv : v = { u with cairn := v.cairn }) :
    ({ v with timer := x } : State) = { s with regs := v.regs, timer := x, cairn := v.cairn } := by
  rw [hv, hu]

/-- R372, R375: what an expiry comes to. -/
theorem State.timerExpire_spec (hn : n < 8)
    (hirq : s.flag (F.TIMER_CTRL_IRQ_EN n) = false ∨ (s.kept 2 = true ∧ (s.gate (380 + n)).latch = false)) :
    let t := s.timerExpire n
    t.event P.TIMER (E.TIMER_EXPIRED_0 + n) = true ∧ t.timer.toggle = s.timer.toggle ^^^ 2 ^ n ∧ t.timer.waiting = s.timer.waiting ∧
      t.gate (380 + n) = { s.gate (380 + n) with latch := s.flag (F.TIMER_CTRL_IRQ_EN n) || (s.gate (380 + n)).latch } ∧
      (∀ j, j ≠ 380 + n → t.gate j = s.gate j) ∧ KeepsRegs s t [R.EVT_RAW P.TIMER] ∧
      t = { s with regs := t.regs, timer := t.timer, cairn := t.cairn } := by
  let u := s.raise P.TIMER (E.TIMER_EXPIRED_0 + n)
  have hctrl : R.TIMER_CTRL n ≠ R.EVT_RAW P.TIMER := (ne_timerCtrl (by decide) n).symm
  have hflag : u.flag (F.TIMER_CTRL_IRQ_EN n) = s.flag (F.TIMER_CTRL_IRQ_EN n) := s.flag_raise_ne _ _ _ hctrl
  have hkeeps : KeepsRegs s u [R.EVT_RAW P.TIMER] := (KeepsRegs.refl s _).raise (List.mem_singleton.2 rfl)
  have hkept : u.kept 2 = s.kept 2 := hkeeps.kept rfl (by decide) (by decide) 2
  have hevent : u.event P.TIMER (E.TIMER_EXPIRED_0 + n) = true := s.event_raise _ _ (by simp only [E.TIMER_EXPIRED_0]; omega)
  obtain ⟨hself, hothers, hrest⟩ := State.timerSignalled_spec (s := u) hn (by rw [hflag, hkept]; exact hirq)
  have hframe : s.timerExpire n = { u.timerSignalled n with timer := (s.timerExpire n).timer } := rfl
  have htoggle : (s.timerExpire n).timer.toggle = (u.timerSignalled n).timer.toggle ^^^ 2 ^ n := rfl
  have hwaiting : (s.timerExpire n).timer.waiting = (u.timerSignalled n).timer.waiting := rfl
  have hregs : (s.timerExpire n).regs = u.regs := (congrArg State.regs hrest :)
  have htimer : (u.timerSignalled n).timer = s.timer := (congrArg State.timer hrest :)
  refine ⟨(State.event_regs _ _ _ _ hregs).trans hevent, htimer ▸ htoggle, htimer ▸ hwaiting, hself.trans (by rw [hflag]; rfl), hothers,
    hkeeps.of_regs hregs, hframe.trans (State.rest_of_cairn rfl hrest)⟩

end

/-! ### TIMER_EXPIRY and PWM_DUTY_REACHED -/

section
variable {s : State} {n : Fin 8} (hclk : s.timersClocked = true) (hothers : ∀ m : Fin 8, m ≠ n → s.timerRuns m.val = false)
  (hc : s.Counting n.val)
include hclk hothers hc

/-- A tick that finds one timer counting is one step of that timer, whatever of its own registers the step writes. -/
theorem State.timersTick_counting {l : List Nat} (hkeeps : KeepsRegs s ((s.prescaled n.val).timerStep n.val) l)
    (hwaiting : ((s.prescaled n.val).timerStep n.val).timer.waiting = s.timer.waiting)
    (hl : ∀ a ∈ l, a ∈ [R.TIMER_COUNT n.val, R.TIMER_CTRL n.val, R.EVT_RAW P.TIMER]) :
    s.timersTick = (s.prescaled n.val).timerStep n.val := by
  have htick := State.timerTick_counting hclk hc
  refine (State.timersTick_alone hothers fun m hne => ?_).trans htick
  have hctrl : R.TIMER_CTRL m.val ∉ l := by
    intro hm
    have hevt : R.TIMER_CTRL m.val ≠ R.EVT_RAW P.TIMER := (ne_timerCtrl (by decide) _).symm
    simpa [timerCount_ne_ctrl, timerCtrl_injective (Fin.val_ne_of_ne hne), hevt] using hl _ hm
  have hstat : R.PAGE_STAT P.TIMER ∉ l := by
    intro hm
    have hcount : R.PAGE_STAT P.TIMER ≠ R.TIMER_COUNT n.val := ne_timerCount (by decide) _
    have hctrl' : R.PAGE_STAT P.TIMER ≠ R.TIMER_CTRL n.val := ne_timerCtrl (by decide) _
    have hevt : R.PAGE_STAT P.TIMER ≠ R.EVT_RAW P.TIMER := by decide
    simpa [hcount, hctrl', hevt] using hl _ hm
  rw [htick]
  exact hkeeps.timerRuns hwaiting hctrl hstat

/-- R372: the tick of an expiry. -/
theorem State.expiryTick_spec (hexpired : s.timer.expired.testBit n.val = false)
    (hcount : s.fld (F.TIMER_COUNT_COUNT n.val) + 2 = s.timerForce n.val 0)
    (hirq : s.flag (F.TIMER_CTRL_IRQ_EN n.val) = false ∨ (s.kept 2 = true ∧ (s.gate (380 + n.val)).latch = false)) :
    let t := s.expiryTick n.val
    t.event P.TIMER (E.TIMER_EXPIRED_0 + n.val) = true ∧ t.timer.toggle = s.timer.toggle ^^^ 2 ^ n.val ∧
      t.fld (F.TIMER_COUNT_COUNT n.val) = s.fld (F.TIMER_COUNT_COUNT n.val) + 1 ∧
      t.gate (380 + n.val) = { s.gate (380 + n.val) with
        latch := s.flag (F.TIMER_CTRL_IRQ_EN n.val) || (s.gate (380 + n.val)).latch } ∧
      (∀ j, j ≠ 380 + n.val → t.gate j = s.gate j) ∧ KeepsRegs s t [R.TIMER_COUNT n.val, R.EVT_RAW P.TIMER] ∧
      t = { s with regs := t.regs, timer := t.timer, cairn := t.cairn } := by
  obtain ⟨hruns, -, hfits⟩ := id hc
  let u := (s.prescaled n.val).counted n.val
  have hu : u = { s with regs := u.regs, timer := u.timer } := rfl
  have hstep : (s.prescaled n.val).timerStep n.val = u.timerExpire n.val :=
    State.timerStep_expires (s := s.prescaled n.val) hexpired hfits (State.en_of_runs hruns) hcount
  have hcounted : KeepsRegs s u [R.TIMER_COUNT n.val] := (KeepsRegs.refl s _ |>.of_regs rfl).trans State.counted_keepsRegs
  have hcountu : u.fld (F.TIMER_COUNT_COUNT n.val) = s.fld (F.TIMER_COUNT_COUNT n.val) + 1 :=
    State.count_counted (s := s.prescaled n.val) (by change s.fld (F.TIMER_COUNT_COUNT n.val) + 1 < 2 ^ 32; omega)
  have hflag : u.flag (F.TIMER_CTRL_IRQ_EN n.val) = s.flag (F.TIMER_CTRL_IRQ_EN n.val) := State.flagCtrl_counted rfl
  have hkept : u.kept 2 = s.kept 2 := hcounted.kept rfl (by simp [ne_timerCount (a := R.PWR_STATE) (by decide)])
    (by simp [ne_timerCount (a := R.CLK_STOP_KEEP_0) (by decide)]) 2
  obtain ⟨hevent, htoggle, hwaiting, hself, hgates, hexp, hrest⟩ := State.timerExpire_spec (s := u) n.isLt (by rw [hflag, hkept]; exact hirq)
  have hkeeps : KeepsRegs s (u.timerExpire n.val) [R.TIMER_COUNT n.val, R.EVT_RAW P.TIMER] :=
    (hcounted.mono (by simp)).trans (hexp.mono (by simp))
  have htick : s.timersTick = u.timerExpire n.val :=
    (State.timersTick_counting hclk hothers hc (hstep ▸ hkeeps) (hstep ▸ hwaiting) (by simp)).trans hstep
  have hflips : s.timersTick.timer.toggle.testBit n.val ≠ s.timer.toggle.testBit n.val := by
    rw [htick, htoggle]
    simp [u, State.counted, State.prescaled, State.modTimer, Nat.testBit_xor]
  have hexpiry : s.expiryTick n.val = u.timerExpire n.val := (if_pos ⟨hruns, hflips, by omega⟩).trans htick
  have hcountt := hexp.fld (f := F.TIMER_COUNT_COUNT n.val) fun hm =>
    ne_timerCount (by decide) n.val (List.mem_singleton.1 hm).symm
  rw [hexpiry]
  exact ⟨hevent, htoggle, hcountt.trans hcountu, hself.trans (by rw [hflag]; rfl), hgates, hkeeps, hrest.trans (by rw [hu])⟩

/-- R372: the tick after the expiry of a one-shot. -/
theorem State.oneshotTick_spec (hexpired : s.timer.expired.testBit n.val = true) (hone : s.flag (F.TIMER_CTRL_ONESHOT n.val) = true) :
    let t := s.timersTick.expiryTick n.val
    t.flag (F.TIMER_CTRL_EN n.val) = false ∧ t.fld (F.TIMER_COUNT_COUNT n.val) = 0 ∧ t.timer.toggle = s.timer.toggle ∧
      KeepsRegs s t [R.TIMER_COUNT n.val, R.TIMER_CTRL n.val] ∧ t = { s with regs := t.regs, timer := t.timer } := by
  let u := s.prescaled n.val
  obtain ⟨hen, hcount, htimer, hkeeps, hrest⟩ := State.timerReturn_oneshot (s := u) (n := n.val) hone
  have hstep : u.timerStep n.val = u.timerReturn n.val := State.timerStep_returns_oneshot hexpired hone
  have hkeepss : KeepsRegs s (u.timerReturn n.val) [R.TIMER_COUNT n.val, R.TIMER_CTRL n.val] := (KeepsRegs.refl s _ |>.of_regs rfl).trans hkeeps
  have htick : s.timersTick = u.timerReturn n.val :=
    (State.timersTick_counting hclk hothers hc (hstep ▸ hkeepss) (hstep ▸ (congrArg TimerState.waiting htimer :)) (by simp)).trans hstep
  have hstands : (u.timerReturn n.val).timerRuns n.val = false := by rw [State.timerRuns, hen]; rfl
  have hexpiry : (u.timerReturn n.val).expiryTick n.val = u.timerReturn n.val := if_neg (by simp [hstands])
  rw [htick, hexpiry]
  exact ⟨hen, hcount, (congrArg TimerState.toggle htimer :), hkeepss, hrest⟩

/-- R373: the tick in which COUNT reaches DUTY in PWM mode. -/
theorem State.dutyTick_spec (hexpired : s.timer.expired.testBit n.val = false)
    (hbelow : s.fld (F.TIMER_COUNT_COUNT n.val) + 2 < s.timerForce n.val 0) (hpwm : s.fld (F.TIMER_CTRL_OUT n.val) = 2)
    (hduty : s.fld (F.TIMER_COUNT_COUNT n.val) + 1 = s.timerForce n.val 1) :
    let t := s.dutyTick n.val
    s.timerOut n.val = true ∧ t.timerOut n.val = false ∧ t.fld (F.TIMER_COUNT_COUNT n.val) = s.fld (F.TIMER_COUNT_COUNT n.val) + 1 ∧
      KeepsRegs s t [R.TIMER_COUNT n.val] ∧ t = { s with regs := t.regs, timer := t.timer } := by
  obtain ⟨hruns, -, hfits⟩ := id hc
  let u := (s.prescaled n.val).counted n.val
  have hstep : (s.prescaled n.val).timerStep n.val = u := State.timerStep_counts (s := s.prescaled n.val) hexpired hfits hbelow
  have hkeeps : KeepsRegs s u [R.TIMER_COUNT n.val] := (KeepsRegs.refl s _ |>.of_regs rfl).trans State.counted_keepsRegs
  have htick : s.timersTick = u := (State.timersTick_counting hclk hothers hc (hstep ▸ hkeeps) (hstep ▸ rfl) (by simp)).trans hstep
  have hcount : u.fld (F.TIMER_COUNT_COUNT n.val) = s.fld (F.TIMER_COUNT_COUNT n.val) + 1 :=
    State.count_counted (s := s.prescaled n.val) (by change s.fld (F.TIMER_COUNT_COUNT n.val) + 1 < 2 ^ 32; omega)
  have hctrl : R.TIMER_CTRL n.val ∉ [R.TIMER_COUNT n.val] := by simpa using timerCount_ne_ctrl n.val n.val
  have hrunsu : u.timerRuns n.val = true :=
    (hkeeps.timerRuns rfl hctrl (by simpa using ne_timerCount (a := R.PAGE_STAT P.TIMER) (by decide) n.val)).trans hruns
  have hpwmu : u.fld (F.TIMER_CTRL_OUT n.val) = 2 := (hkeeps.fld hctrl).trans hpwm
  have hhigh : s.timerOut n.val = true := by
    simp only [State.timerOut, hruns, hpwm]
    simpa using (by omega : s.fld (F.TIMER_COUNT_COUNT n.val) < s.timerForce n.val 1)
  have hlow : u.timerOut n.val = false := by
    simp only [State.timerOut, hrunsu, hpwmu, hcount]
    have hend : u.timerForce n.val 1 ≤ s.fld (F.TIMER_COUNT_COUNT n.val) + 1 := hduty.ge
    simpa using hend
  have hreached : s.dutyTick n.val = u := (if_pos ⟨hruns, hpwm, hhigh, by rw [htick, hlow]; rfl⟩).trans htick
  rw [hreached]
  exact ⟨hhigh, hlow, hcount, hkeeps, rfl⟩

end

end Sys2Proof.Machine
end

section
/-! MTIME, TIMER_START and TIMER_STOP (R370, R374, R375). -/
namespace Sys2Proof.Machine

/-! ### What is one timer's own -/

/-- A loop of whose steps one alone changes a part of the state leaves that part as the one step does. -/
theorem forEach_part {β : Type} {n j : Nat} {f : Nat → State → State} {part : State → β} (hj : j < n)
    (hother : ∀ i t, i ≠ j → part (f i t) = part t) (s : State) : ∃ t, part t = part s ∧ part (forEach n f s) = part (f j t) := by
  have hbelow (k : Nat) (hk : k ≤ j) : part (forEach k f s) = part s := by
    induction k with
    | zero => rfl
    | succ k ih => rw [forEach_succ, hother k _ (by omega), ih (by omega)]
  refine ⟨forEach j f s, hbelow j (Nat.le_refl j), ?_⟩
  induction n, hj using Nat.le_induction with
  | base => rw [forEach_succ]
  | succ n hn ih => rw [forEach_succ, hother n _ (by omega), ih]

theorem testBit_clearBits (a n m : Nat) : (clearBits a (2 ^ n)).testBit m = (a.testBit m && decide (m ≠ n)) := by
  unfold clearBits
  rw [Nat.testBit_xor, Nat.testBit_and, Nat.testBit_two_pow]
  by_cases h : m = n
  · simp [h]
  · simp [h, Ne.symm h]

theorem testBit_setBit (a n m : Nat) : (a ||| 2 ^ n).testBit m = (a.testBit m || decide (m = n)) := by
  rw [Nat.testBit_or, Nat.testBit_two_pow]
  simp [eq_comm]

/-- What is one timer's own. -/
structure TimerPart where
  /-- TIMER_CTRL_n -/
  ctrl : DWord
  /-- TIMER_COUNT_n -/
  count : DWord
  /-- TIMER_PERIOD_n -/
  period : DWord
  /-- TIMER_DUTY_n -/
  duty : DWord
  /-- its output in TOGGLE -/
  toggle : Bool
  /-- it waits for its channel -/
  waiting : Bool
  /-- PERIOD, DUTY and PRESCALE in force -/
  force : Nat × Nat × Nat

/-- Timer `n`. -/
def State.timerPart (s : State) (n : Nat) : TimerPart :=
  ⟨s.raw (R.TIMER_CTRL n), s.raw (R.TIMER_COUNT n), s.raw (R.TIMER_PERIOD n), s.raw (R.TIMER_DUTY n), s.timer.toggle.testBit n,
    s.timer.waiting.testBit n, s.timerForce n 0, s.timerForce n 1, s.timerForce n 2⟩

theorem timerPart_eq_iff {s t : State} {n : Nat} : t.timerPart n = s.timerPart n ↔
    t.raw (R.TIMER_CTRL n) = s.raw (R.TIMER_CTRL n) ∧ t.raw (R.TIMER_COUNT n) = s.raw (R.TIMER_COUNT n) ∧
      t.raw (R.TIMER_PERIOD n) = s.raw (R.TIMER_PERIOD n) ∧ t.raw (R.TIMER_DUTY n) = s.raw (R.TIMER_DUTY n) ∧
      t.timer.toggle.testBit n = s.timer.toggle.testBit n ∧ t.timer.waiting.testBit n = s.timer.waiting.testBit n ∧
      t.timerForce n 0 = s.timerForce n 0 ∧ t.timerForce n 1 = s.timerForce n 1 ∧ t.timerForce n 2 = s.timerForce n 2 := by
  simp only [State.timerPart, TimerPart.mk.injEq, Prod.mk.injEq]

theorem fld_of_raw {s t : State} {f : Fld} (h : t.raw f.reg = s.raw f.reg) : t.fld f = s.fld f := by rw [State.fld, State.fld, h]

theorem flag_of_raw {s t : State} {f : Fld} (h : t.raw f.reg = s.raw f.reg) : t.flag f = s.flag f := by
  rw [State.flag, State.flag, fld_of_raw h]

/-- R373: a timer of which nothing has changed outputs what it did. -/
theorem timerOut_of_part {s t : State} {n : Nat} (h : t.timerPart n = s.timerPart n) (hrun : t.running P.TIMER = s.running P.TIMER) :
    t.timerOut n = s.timerOut n := by
  obtain ⟨hctrl, hcount, -, -, htoggle, hwaiting, -, hduty, -⟩ := timerPart_eq_iff.1 h
  rw [State.timerOut, State.timerOut, State.timerRuns, State.timerRuns, flag_of_raw (f := F.TIMER_CTRL_EN n) hctrl,
    fld_of_raw (f := F.TIMER_CTRL_OUT n) hctrl, fld_of_raw (f := F.TIMER_COUNT_COUNT n) hcount, hrun, htoggle, hwaiting, hduty]

theorem timerPart_of_low {s t : State} {l : List Nat} (h : KeepsRegs s t l) (htimer : t.timer = s.timer) (hl : ∀ a ∈ l, a < P.TIMER + 0x80)
    (n : Nat) : t.timerPart n = s.timerPart n := by
  have hkept (a : Nat) (ha : P.TIMER + 0x80 ≤ a) : t.raw a = s.raw a := h a fun hm => absurd (hl a hm) (Nat.not_lt.2 ha)
  have hforce (k : Nat) : t.timerForce n k = s.timerForce n k := by rw [State.timerForce, State.timerForce, htimer]
  rw [timerPart_eq_iff, htimer]
  exact ⟨hkept _ (Nat.le_add_right_of_le (by decide)), hkept _ (Nat.le_add_right_of_le (by decide)), hkept _ (Nat.le_add_right_of_le (by decide)),
    hkept _ (Nat.le_add_right_of_le (by decide)), rfl, rfl, hforce 0, hforce 1, hforce 2⟩

/-! ### A timer starts, or stops -/

/-- R374: a write of TIMER_START or TIMER_STOP that names timer `n`. -/
def State.timerSwitched (s : State) (n : Nat) (on : Bool) : State := (s.setFlag (F.TIMER_CTRL_EN n) on).timerFollow n (s.flag (F.TIMER_CTRL_EN n))

section
variable {s : State} {n : Nat}

theorem State.en_setFlag (on : Bool) : (s.setFlag (F.TIMER_CTRL_EN n) on).flag (F.TIMER_CTRL_EN n) = on :=
  State.flag_setFlag s _ on (by simp [F.TIMER_CTRL_EN]) (by simp [F.TIMER_CTRL_EN])

theorem State.ctrl_setFlag_same {on : Bool} (hen : s.flag (F.TIMER_CTRL_EN n) = on) :
    (s.setFlag (F.TIMER_CTRL_EN n) on).raw (R.TIMER_CTRL n) = s.raw (R.TIMER_CTRL n) := by
  have hlt : s.fld (F.TIMER_CTRL_EN n) < 2 := Bits.get_lt _ _ _
  have hfld : b2n on = s.fld (F.TIMER_CTRL_EN n) := by
    subst hen
    rw [State.flag]
    generalize s.fld (F.TIMER_CTRL_EN n) = x at hlt
    interval_cases x <;> rfl
  refine (s.raw_setFld _ _ _).trans ((if_pos rfl).trans ?_)
  rw [hfld]
  exact Bits.put_get _ _ _

/-- A timer named that is as it is asked for stays so. -/
theorem State.timerSwitched_same {on : Bool} (hen : s.flag (F.TIMER_CTRL_EN n) = on) :
    s.timerSwitched n on = s.setFlag (F.TIMER_CTRL_EN n) on := by
  rw [State.timerSwitched, State.timerFollow, State.en_setFlag, hen]
  cases on <;> rfl

theorem State.timerSwitched_starts (hen : s.flag (F.TIMER_CTRL_EN n) = false) :
    s.timerSwitched n true = (s.setFlag (F.TIMER_CTRL_EN n) true).timerStart n := by
  rw [State.timerSwitched, State.timerFollow, State.en_setFlag, hen]
  rfl

theorem State.timerSwitched_stops (hen : s.flag (F.TIMER_CTRL_EN n) = true) : s.timerSwitched n false =
    (s.setFlag (F.TIMER_CTRL_EN n) false).modTimer fun t =>
      { t with waiting := clearBits t.waiting (2 ^ n), toggle := clearBits t.toggle (2 ^ n) } := by
  rw [State.timerSwitched, State.timerFollow, State.en_setFlag, hen]
  rfl

/-- R375: PERIOD, DUTY and PRESCALE of timer `n` govern it as its registers hold them. -/
theorem State.timerForce_timerLoad : (s.timerLoad n).timerForce n 0 = s.fld (F.TIMER_PERIOD_PERIOD n) ∧
    (s.timerLoad n).timerForce n 1 = s.fld (F.TIMER_DUTY_DUTY n) ∧ (s.timerLoad n).timerForce n 2 = s.fld (F.TIMER_CTRL_PRESCALE n) := by
  simp [State.timerForce, State.timerLoad, State.modTimer, SMap.get_put]

theorem State.timerForce_timerLoad_ne {m k : Nat} (hm : m ≠ n) (hk : k < 4) : (s.timerLoad n).timerForce m k = s.timerForce m k := by
  have hkey (j : Nat) (hj : j < 4) : 4 * m + k ≠ 4 * n + j := by omega
  simp only [State.timerForce, State.timerLoad, State.modTimer, SMap.get_put, hkey 0 (by decide), hkey 1 (by decide), hkey 2 (by decide), if_false]

theorem timerPeriod_ne_count (m n : Nat) : R.TIMER_PERIOD m ≠ R.TIMER_COUNT n := by
  unfold R.TIMER_PERIOD R.TIMER_COUNT
  omega

theorem timerDuty_ne_count (m n : Nat) : R.TIMER_DUTY m ≠ R.TIMER_COUNT n := by
  unfold R.TIMER_DUTY R.TIMER_COUNT
  omega

/-- R373, R374, R375: a timer that starts does so from 0, governed by its registers, or waits for its channel. -/
theorem State.timerStart_spec : (s.timerStart n).fld (F.TIMER_COUNT_COUNT n) = 0 ∧ (s.timerStart n).timer.toggle.testBit n = false ∧
    (s.timerStart n).timer.waiting.testBit n = s.flag (F.TIMER_CTRL_START_EN n) ∧
    (s.timerStart n).timerForce n 0 = s.fld (F.TIMER_PERIOD_PERIOD n) ∧ (s.timerStart n).timerForce n 1 = s.fld (F.TIMER_DUTY_DUTY n) ∧
    (s.timerStart n).timerForce n 2 = s.fld (F.TIMER_CTRL_PRESCALE n) := by
  let u := s.setFld (F.TIMER_COUNT_COUNT n) 0
  have hkeeps : KeepsRegs s u [R.TIMER_COUNT n] := (KeepsRegs.refl s _).setFld (List.mem_singleton.2 rfl)
  have hwaits : u.flag (F.TIMER_CTRL_START_EN n) = s.flag (F.TIMER_CTRL_START_EN n) :=
    hkeeps.flag (mt List.mem_singleton.1 (timerCount_ne_ctrl n n))
  obtain ⟨hperiod, hduty, hprescale⟩ := State.timerForce_timerLoad (s := u) (n := n)
  refine ⟨s.fld_setFld (F.TIMER_COUNT_COUNT n) 0 (by simp [F.TIMER_COUNT_COUNT]), ?_, ?_,
    hperiod.trans (hkeeps.fld (mt List.mem_singleton.1 (timerPeriod_ne_count n n))),
    hduty.trans (hkeeps.fld (mt List.mem_singleton.1 (timerDuty_ne_count n n))),
    hprescale.trans (hkeeps.fld (mt List.mem_singleton.1 (timerCount_ne_ctrl n n)))⟩
  · change (clearBits s.timer.toggle (2 ^ n)).testBit n = false
    simp [testBit_clearBits]
  · change (if u.flag (F.TIMER_CTRL_START_EN n) then s.timer.waiting ||| 2 ^ n else clearBits s.timer.waiting (2 ^ n)).testBit n = _
    rw [hwaits]
    split
    · rename_i hset
      rw [testBit_setBit, hset]
      simp
    · rename_i hclear
      simp [testBit_clearBits, hclear]

theorem State.timerStart_keepsRegs : KeepsRegs s (s.timerStart n) [R.TIMER_COUNT n] :=
  ((KeepsRegs.refl s _).setFld (f := F.TIMER_COUNT_COUNT n) (v := 0) (List.mem_singleton.2 rfl)).of_regs rfl

theorem State.timerStart_ne {m : Nat} (hm : m ≠ n) : (s.timerStart n).timer.toggle.testBit m = s.timer.toggle.testBit m ∧
    (s.timerStart n).timer.waiting.testBit m = s.timer.waiting.testBit m ∧ ∀ k < 4, (s.timerStart n).timerForce m k = s.timerForce m k := by
  let u := s.setFld (F.TIMER_COUNT_COUNT n) 0
  refine ⟨?_, ?_, fun k hk => State.timerForce_timerLoad_ne (s := u) hm hk⟩
  · change (clearBits s.timer.toggle (2 ^ n)).testBit m = _
    simp [testBit_clearBits, hm]
  · change (if u.flag (F.TIMER_CTRL_START_EN n) then s.timer.waiting ||| 2 ^ n else clearBits s.timer.waiting (2 ^ n)).testBit m = _
    split
    · rw [testBit_setBit]
      simp [hm]
    · simp [testBit_clearBits, hm]

theorem State.timerSwitched_keepsRegs (on : Bool) : KeepsRegs s (s.timerSwitched n on) [R.TIMER_CTRL n, R.TIMER_COUNT n] := by
  have hset : KeepsRegs s (s.setFlag (F.TIMER_CTRL_EN n) on) [R.TIMER_CTRL n, R.TIMER_COUNT n] := (KeepsRegs.refl s _).setFlag List.mem_cons_self
  cases hen : s.flag (F.TIMER_CTRL_EN n) <;> cases on
  case false.false | true.true => exact State.timerSwitched_same hen ▸ hset
  case true.false => exact State.timerSwitched_stops hen ▸ hset.of_regs rfl
  case false.true => exact State.timerSwitched_starts hen ▸ hset.trans (State.timerStart_keepsRegs.mono (by simp))

theorem State.timerSwitched_rest (on : Bool) :
    s.timerSwitched n on = { s with regs := (s.timerSwitched n on).regs, timer := (s.timerSwitched n on).timer } := by
  cases hen : s.flag (F.TIMER_CTRL_EN n) <;> cases on
  case false.false | true.true =>
    rw [State.timerSwitched_same hen]
    rfl
  case true.false =>
    rw [State.timerSwitched_stops hen]
    rfl
  case false.true =>
    rw [State.timerSwitched_starts hen]
    rfl

/-- A timer that is not named keeps what is its own. -/
theorem State.timerSwitched_part_ne {m : Nat} (hm : m ≠ n) (on : Bool) : (s.timerSwitched n on).timerPart m = s.timerPart m := by
  have hkeeps := State.timerSwitched_keepsRegs (s := s) (n := n) on
  have hkept (a : Nat) (hctrl : a ≠ R.TIMER_CTRL n) (hcount : a ≠ R.TIMER_COUNT n) : (s.timerSwitched n on).raw a = s.raw a :=
    hkeeps a (by simp [hctrl, hcount])
  have hctrl := hkept (R.TIMER_CTRL m) (timerCtrl_injective hm) (timerCount_ne_ctrl m n)
  have hcount := hkept (R.TIMER_COUNT m) (timerCount_ne_ctrl n m).symm (by unfold R.TIMER_COUNT; omega)
  have hperiod := hkept (R.TIMER_PERIOD m) (by unfold R.TIMER_PERIOD R.TIMER_CTRL; omega) (timerPeriod_ne_count m n)
  have hduty := hkept (R.TIMER_DUTY m) (by unfold R.TIMER_DUTY R.TIMER_CTRL; omega) (timerDuty_ne_count m n)
  rw [timerPart_eq_iff]
  refine ⟨hctrl, hcount, hperiod, hduty, ?_⟩
  cases hen : s.flag (F.TIMER_CTRL_EN n) <;> cases on
  case false.false | true.true =>
    rw [State.timerSwitched_same hen]
    exact ⟨rfl, rfl, rfl, rfl, rfl⟩
  case true.false =>
    rw [State.timerSwitched_stops hen]
    refine ⟨(testBit_clearBits _ _ _).trans ?_, (testBit_clearBits _ _ _).trans ?_, rfl, rfl, rfl⟩ <;> simp [hm]
  case false.true =>
    rw [State.timerSwitched_starts hen]
    obtain ⟨htoggle, hwaiting, hforce⟩ := State.timerStart_ne (s := s.setFlag (F.TIMER_CTRL_EN n) true) hm
    exact ⟨htoggle, hwaiting, hforce 0 (by decide), hforce 1 (by decide), hforce 2 (by decide)⟩

theorem State.en_timerSwitched (on : Bool) : (s.timerSwitched n on).flag (F.TIMER_CTRL_EN n) = on := by
  cases hen : s.flag (F.TIMER_CTRL_EN n) <;> cases on
  case false.false | true.true => rw [State.timerSwitched_same hen, State.en_setFlag]
  case true.false =>
    rw [State.timerSwitched_stops hen]
    exact State.en_setFlag false
  case false.true =>
    rw [State.timerSwitched_starts hen, State.timerStart_keepsRegs.flag (mt List.mem_singleton.1 (timerCount_ne_ctrl n n)), State.en_setFlag]

end

/-! ### The timers named -/

/-- R374: what a write of TIMER_START or TIMER_STOP with this value does to the timers. -/
def State.timersSwitched (s : State) (named : Nat) (on : Bool) : State :=
  forEach 8 (fun n t => if named.testBit n then t.timerSwitched n on else t) s

/-- The registers that hold COUNT and what is written of the eight timers. -/
def timerCtrls : List Nat := (List.range 8).map R.TIMER_CTRL
def timerCounts : List Nat := (List.range 8).map R.TIMER_COUNT

section
variable (s : State) (named : Nat) (on : Bool)

theorem State.timersSwitched_keepsRegs : KeepsRegs s (s.timersSwitched named on) (timerCtrls ++ timerCounts) := by
  refine (KeepsRegs.refl s _).forEach fun n hn t ht => ?_
  have hl : ∀ a ∈ [R.TIMER_CTRL n, R.TIMER_COUNT n], a ∈ timerCtrls ++ timerCounts := by
    simp only [List.mem_cons, List.not_mem_nil, or_false, List.mem_append]
    rintro a (rfl | rfl)
    · exact .inl (List.mem_map_of_mem (List.mem_range.2 hn))
    · exact .inr (List.mem_map_of_mem (List.mem_range.2 hn))
  split
  · exact ht.trans ((State.timerSwitched_keepsRegs on).mono hl)
  · exact ht

theorem State.timersSwitched_rest :
    s.timersSwitched named on = { s with regs := (s.timersSwitched named on).regs, timer := (s.timersSwitched named on).timer } := by
  refine List.foldlRecOn (motive := fun (t : State) => t = { s with regs := t.regs, timer := t.timer }) _ _ rfl fun t ht n _ => ?_
  dsimp only
  split
  · rw [State.timerSwitched_rest, ht]
  · exact ht

/-- Timers stop: COUNT, and what governs and prescales it, stay. -/
theorem State.timersSwitched_off : KeepsRegs s (s.timersSwitched named false) timerCtrls ∧
    (s.timersSwitched named false).timer.force = s.timer.force ∧ (s.timersSwitched named false).timer.pre = s.timer.pre := by
  refine List.foldlRecOn (motive := fun (t : State) => KeepsRegs s t timerCtrls ∧ t.timer.force = s.timer.force ∧ t.timer.pre = s.timer.pre) _ _
    ⟨KeepsRegs.refl s _, rfl, rfl⟩ fun t ht n hn => ?_
  obtain ⟨hkeeps, hforce, hpre⟩ := id ht
  have hset := hkeeps.setFlag (f := F.TIMER_CTRL_EN n) (b := false) (List.mem_map_of_mem hn)
  dsimp only
  split
  · cases hen : t.flag (F.TIMER_CTRL_EN n)
    case false =>
      rw [State.timerSwitched_same hen]
      exact ⟨hset, hforce, hpre⟩
    case true =>
      rw [State.timerSwitched_stops hen]
      exact ⟨hset.of_regs rfl, hforce, hpre⟩
  · exact ht

section
variable {s named on} {n : Nat} (hn : n < 8)
include hn

/-- Timer `n` is as its own step leaves it. -/
theorem State.timersSwitched_part : ∃ t : State, t.timerPart n = s.timerPart n ∧
    (s.timersSwitched named on).timerPart n = (if named.testBit n then t.timerSwitched n on else t).timerPart n := by
  refine forEach_part (part := fun t => t.timerPart n) hn (fun m t hm => ?_) s
  split
  · exact State.timerSwitched_part_ne hm.symm on
  · rfl

/-- A timer that is not named, or is as asked for, stays as it was. -/
theorem State.timersSwitched_stays (h : named.testBit n = false ∨ s.flag (F.TIMER_CTRL_EN n) = on) :
    (s.timersSwitched named on).timerPart n = s.timerPart n := by
  obtain ⟨t, ht, hpart⟩ := State.timersSwitched_part (s := s) (named := named) (on := on) hn
  refine hpart.trans (Eq.trans ?_ ht)
  split
  · rename_i hnamed
    obtain ⟨hctrl, -⟩ := timerPart_eq_iff.1 ht
    have hen : t.flag (F.TIMER_CTRL_EN n) = on := (flag_of_raw (f := F.TIMER_CTRL_EN n) hctrl).trans (h.resolve_left (by simp [hnamed]))
    have hkeeps : KeepsRegs t (t.setFlag (F.TIMER_CTRL_EN n) on) [R.TIMER_CTRL n] := (KeepsRegs.refl t _).setFlag (List.mem_singleton.2 rfl)
    rw [State.timerSwitched_same hen, timerPart_eq_iff]
    exact ⟨State.ctrl_setFlag_same hen, hkeeps _ (mt List.mem_singleton.1 (timerCount_ne_ctrl n n).symm),
      hkeeps _ (mt List.mem_singleton.1 (by unfold R.TIMER_PERIOD R.TIMER_CTRL; omega)),
      hkeeps _ (mt List.mem_singleton.1 (by unfold R.TIMER_DUTY R.TIMER_CTRL; omega)), rfl, rfl, rfl, rfl, rfl⟩
  · rfl

/-- R374: EN of the timers named is as asked for. -/
theorem State.en_timersSwitched : (s.timersSwitched named on).flag (F.TIMER_CTRL_EN n) =
    if named.testBit n then on else s.flag (F.TIMER_CTRL_EN n) := by
  obtain ⟨t, ht, hpart⟩ := State.timersSwitched_part (s := s) (named := named) (on := on) hn
  obtain ⟨hctrl, -⟩ := timerPart_eq_iff.1 hpart
  obtain ⟨hctrlt, -⟩ := timerPart_eq_iff.1 ht
  rw [flag_of_raw (f := F.TIMER_CTRL_EN n) hctrl]
  split
  · exact State.en_timerSwitched on
  · exact flag_of_raw (f := F.TIMER_CTRL_EN n) hctrlt

/-- R373, R374, R375: a timer named that did not run starts. -/
theorem State.timersSwitched_starts (hnamed : named.testBit n = true) (hen : s.flag (F.TIMER_CTRL_EN n) = false) :
    let t := s.timersSwitched named true
    t.fld (F.TIMER_COUNT_COUNT n) = 0 ∧ t.timer.toggle.testBit n = false ∧ t.timer.waiting.testBit n = s.flag (F.TIMER_CTRL_START_EN n) ∧
      t.timerForce n 0 = s.fld (F.TIMER_PERIOD_PERIOD n) ∧ t.timerForce n 1 = s.fld (F.TIMER_DUTY_DUTY n) ∧
      t.timerForce n 2 = s.fld (F.TIMER_CTRL_PRESCALE n) := by
  obtain ⟨t, ht, hpart⟩ := State.timersSwitched_part (s := s) (named := named) (on := true) hn
  obtain ⟨hctrlt, -, hperiodt, hdutyt, -⟩ := timerPart_eq_iff.1 ht
  have hent : t.flag (F.TIMER_CTRL_EN n) = false := (flag_of_raw (f := F.TIMER_CTRL_EN n) hctrlt).trans hen
  rw [if_pos hnamed, State.timerSwitched_starts hent] at hpart
  obtain ⟨-, hcount, -, -, htoggle, hwaiting, hforce0, hforce1, hforce2⟩ := timerPart_eq_iff.1 hpart
  obtain ⟨hzero, hlow, hwaits, hperiod, hduty, hprescale⟩ := State.timerStart_spec (s := t.setFlag (F.TIMER_CTRL_EN n) true) (n := n)
  have hset (f : Fld) (hf : f.reg ≠ R.TIMER_CTRL n ∨ 1 ≤ f.lo) : (t.setFlag (F.TIMER_CTRL_EN n) true).fld f = t.fld f :=
    State.fld_setFlag_ne _ _ _ _ (hf.imp_right fun h => .inr h)
  refine ⟨(fld_of_raw (f := F.TIMER_COUNT_COUNT n) hcount).trans hzero, htoggle.trans hlow, (hwaiting.trans hwaits).trans ?_,
    (hforce0.trans hperiod).trans ((hset _ (.inl ?_)).trans (fld_of_raw hperiodt)),
    (hforce1.trans hduty).trans ((hset _ (.inl ?_)).trans (fld_of_raw hdutyt)),
    (hforce2.trans hprescale).trans ((hset _ (.inr (by simp [F.TIMER_CTRL_PRESCALE]))).trans (fld_of_raw hctrlt))⟩
  · rw [State.flag, hset _ (.inr (by simp [F.TIMER_CTRL_START_EN])), fld_of_raw (f := F.TIMER_CTRL_START_EN n) hctrlt]
    rfl
  · simp only [F.TIMER_PERIOD_PERIOD, R.TIMER_PERIOD, R.TIMER_CTRL]
    omega
  · simp only [F.TIMER_DUTY_DUTY, R.TIMER_DUTY, R.TIMER_CTRL]
    omega

end

end

/-! ### MTIME -/

/-- The one field of TIMER_MTIME. -/
def Specs.mtime : RSpec := ⟨0x48, 8, 1, true, [⟨0, 63, .rw, 0, .any, false⟩]⟩

theorem regAt_mtime : ∃ p, p.base = P.TIMER ∧ regAt R.TIMER_MTIME = some (p, P.TIMER, Specs.mtime, R.TIMER_MTIME) := ⟨_, rfl, rfl⟩

/-- R47: a register whose every bit is in a field has no reserved runs. -/
theorem reservedRuns_of_listed {fs : List FSpec} {n : Nat} (h : ∀ b < n, bitUnlisted fs b = false) (w : DWord) : reservedRuns fs n w = [] := by
  have hstep {f : List Nat × Option (Nat × Bool) → Nat → List Nat × Option (Nat × Bool)} (hf : ∀ b < n, f ([], none) b = ([], none)) :
      (List.range n).foldl f ([], none) = ([], none) :=
    List.foldlRecOn (motive := fun r => r = ([], none)) _ _ rfl fun r hr b hb => hr ▸ hf b (List.mem_range.1 hb)
  unfold reservedRuns
  rw [hstep]
  intro b hb
  simp [h b hb]

theorem Bits.put_whole (w v : DWord) : Bits.put w 0 64 (Bits.get v 0 64) = v := by
  refine BitVec.eq_of_getLsbD_eq fun i hi => ?_
  rw [Bits.getLsbD_put _ _ _ _ _ hi, Bits.testBit_get]
  simp [hi]

/-- R42: a 64-bit write of TIMER_MTIME is stored whole, with no clamp. -/
theorem State.storeReg_mtime (s : State) (ni : Nat) (v : DWord) : (s.storeReg ni R.TIMER_MTIME v).1 = s.setReg R.TIMER_MTIME v := by
  obtain ⟨p, hp, hreg⟩ := regAt_mtime
  have hfrozen : s.fieldFrozen p R.TIMER_MTIME ⟨0, 63, .rw, 0, .any, false⟩ = false := by
    have hscree : P.TIMER ≠ P.SCREE := by decide
    have hsyscfg : P.TIMER ≠ P.SYSCFG := by decide
    have hwdog : P.TIMER ≠ P.WDOG := by decide
    have hctrl : R.TIMER_MTIME ≠ R.PAGE_CTRL (pageBase R.TIMER_MTIME) := by decide
    simp [State.fieldFrozen, hp, hscree, hsyscfg, hwdog, hctrl]
  have hreserved : reservedRuns Specs.mtime.fields 64 v = [] := reservedRuns_of_listed (fun b hb => by
    simp only [bitUnlisted, Specs.mtime, List.all_cons, List.all_nil, Bool.and_true, decide_eq_false_iff_not]
    omega) v
  have hwritten : writeWord s p Specs.mtime R.TIMER_MTIME v = ⟨v, 0#64, []⟩ := by
    have hfield : writeField s p R.TIMER_MTIME (s.readReg R.TIMER_MTIME) v ⟨s.raw R.TIMER_MTIME, 0#64, []⟩ ⟨0, 63, .rw, 0, .any, false⟩ =
        ⟨Bits.put (s.raw R.TIMER_MTIME) 0 64 (Bits.get v 0 64), 0#64, []⟩ := by
      rw [writeField, hfrozen]
      rfl
    rw [Bits.put_whole] at hfield
    have hfields : Specs.mtime.fields.foldl (writeField s p R.TIMER_MTIME (s.readReg R.TIMER_MTIME) v) ⟨s.raw R.TIMER_MTIME, 0#64, []⟩ =
        ⟨v, 0#64, []⟩ := hfield
    have hwide : (if Specs.mtime.wide then 64 else 32) = 64 := rfl
    simp only [writeWord, hfields, hwide, hreserved]
    rfl
  rw [State.storeReg, hreg]
  dsimp only
  rw [hwritten]
  rfl

/-! ### The commands -/

section
variable {s : State} {q : Req} (hopen : OpenTo s q P.TIMER)
include hopen

/-- A write of TIMER_START (0x70) or TIMER_STOP (0x74): its own register is stored, with the log, and the timers are switched. -/
theorem State.gateWrite_timersSwitched {a : Nat} (ha : a = R.TIMER_START ∨ a = R.TIMER_STOP) (on : Bool) (m : Byte) :
    ∃ u, KeepsRegs s u (a :: logRegs P.TIMER) ∧ u = { s with regs := u.regs, resp := ⟨false, 0#64⟩ } ∧
      s.gateWrite q a .w (m.zeroExtend 64) (fun t => t.opTimerEn q.ni.val a on (m.zeroExtend 64)) = u.timersSwitched m.toNat on := by
  obtain ⟨hpriv, hfree⟩ := hopen
  let u := ((s.respond false 0#64).storeReg q.ni.val a (m.zeroExtend 64)).1
  have hvalue : (m.zeroExtend 64 : DWord).toNat = m.toNat := by
    rw [BitVec.zeroExtend, BitVec.toNat_setWidth]
    exact Nat.mod_eq_of_lt (by omega)
  have hpage : pageListed a = true ∧ pageMachine a = pageMachine P.TIMER ∧ pageBase a = P.TIMER := by
    rcases ha with rfl | rfl <;> decide
  obtain ⟨hlisted, hmachine, hbase⟩ := hpage
  have hkeeps : KeepsRegs s u (a :: logRegs P.TIMER) := (KeepsRegs.refl s _ |>.of_regs rfl).storeReg (t := s.respond false 0#64)
    List.mem_cons_self (by rw [hbase]; exact fun _ h => List.mem_cons_of_mem _ h)
  refine ⟨u, hkeeps, (s.respond false 0#64).storeReg_rest _ _ _, ?_⟩
  rw [s.gate_open q a _ _ _ hlisted (hmachine ▸ hpriv) (hbase ▸ hfree), State.opTimerEn, hvalue]
  rfl

theorem State.exec_timerStart (m : Byte) : ∃ t, exec (.timerStart q m) s = .next t ∧
    (∀ n : Fin 8, t.flag (F.TIMER_CTRL_EN n.val) = (m.toNat.testBit n.val || s.flag (F.TIMER_CTRL_EN n.val))) ∧
    (∀ n : Fin 8, m.toNat.testBit n.val = true → s.flag (F.TIMER_CTRL_EN n.val) = false →
      t.fld (F.TIMER_COUNT_COUNT n.val) = 0 ∧ t.timer.toggle.testBit n.val = false ∧
      t.timer.waiting.testBit n.val = s.flag (F.TIMER_CTRL_START_EN n.val) ∧
      t.timerForce n.val 0 = s.fld (F.TIMER_PERIOD_PERIOD n.val) ∧ t.timerForce n.val 1 = s.fld (F.TIMER_DUTY_DUTY n.val) ∧
      t.timerForce n.val 2 = s.fld (F.TIMER_CTRL_PRESCALE n.val)) ∧
    (∀ n : Fin 8, (m.toNat.testBit n.val = false ∨ s.flag (F.TIMER_CTRL_EN n.val) = true) →
      t.raw (R.TIMER_CTRL n.val) = s.raw (R.TIMER_CTRL n.val) ∧ t.raw (R.TIMER_COUNT n.val) = s.raw (R.TIMER_COUNT n.val) ∧
      t.timer.toggle.testBit n.val = s.timer.toggle.testBit n.val ∧ t.timer.waiting.testBit n.val = s.timer.waiting.testBit n.val) ∧
    KeepsRegs s t (R.TIMER_START :: (logRegs P.TIMER ++ timerCtrls ++ timerCounts)) ∧
    t = { s with regs := t.regs, timer := t.timer, resp := ⟨false, 0#64⟩ } := by
  obtain ⟨u, hstored, hrest, ht⟩ := State.gateWrite_timersSwitched hopen (.inl rfl) true m
  have hpart (n : Nat) : u.timerPart n = s.timerPart n := timerPart_of_low hstored (congrArg State.timer hrest :) (by decide) n
  have hctrl (n : Nat) : u.raw (R.TIMER_CTRL n) = s.raw (R.TIMER_CTRL n) := (timerPart_eq_iff.1 (hpart n)).1
  have hflag (n : Nat) {f : Fld} (hf : f.reg = R.TIMER_CTRL n) : u.flag f = s.flag f := flag_of_raw (hf ▸ hctrl n)
  refine ⟨_, congrArg Host.Outcome.next ht, fun n => ?_, fun n hnamed hen => ?_, fun n h => ?_, ?_, ?_⟩
  · rw [State.en_timersSwitched n.isLt, hflag n.val rfl]
    cases m.toNat.testBit n.val <;> rfl
  · obtain ⟨-, -, hperiod, hduty, -⟩ := timerPart_eq_iff.1 (hpart n.val)
    have hstart := State.timersSwitched_starts n.isLt hnamed ((hflag n.val rfl).trans hen)
    rwa [hflag n.val rfl, fld_of_raw (f := F.TIMER_PERIOD_PERIOD n.val) hperiod, fld_of_raw (f := F.TIMER_DUTY_DUTY n.val) hduty,
      fld_of_raw (f := F.TIMER_CTRL_PRESCALE n.val) (hctrl n.val)] at hstart
  · have hstays := (State.timersSwitched_stays n.isLt (h.imp_right fun hen => (hflag n.val rfl).trans hen)).trans (hpart n.val)
    obtain ⟨hraw, hcount, -, -, htoggle, hwaiting, -⟩ := timerPart_eq_iff.1 hstays
    exact ⟨hraw, hcount, htoggle, hwaiting⟩
  · refine (hstored.mono fun a ha => ?_).trans ((u.timersSwitched_keepsRegs _ _).mono fun a ha => ?_)
    · simpa using (List.mem_cons.1 ha).imp_right .inl
    · simpa using .inr (.inr (List.mem_append.1 ha))
  · rw [u.timersSwitched_rest, hrest]

theorem State.exec_timerStop (m : Byte) : ∃ t, exec (.timerStop q m) s = .next t ∧
    (∀ n : Fin 8, t.flag (F.TIMER_CTRL_EN n.val) = (! m.toNat.testBit n.val && s.flag (F.TIMER_CTRL_EN n.val))) ∧
    (∀ n : Fin 8, m.toNat.testBit n.val = true → t.timerOut n.val = false) ∧ t.timer.force = s.timer.force ∧ t.timer.pre = s.timer.pre ∧
    (∀ n : Fin 8, m.toNat.testBit n.val = false → t.raw (R.TIMER_CTRL n.val) = s.raw (R.TIMER_CTRL n.val) ∧ t.timerOut n.val = s.timerOut n.val) ∧
    KeepsRegs s t (R.TIMER_STOP :: (logRegs P.TIMER ++ timerCtrls)) ∧
    t = { s with regs := t.regs, timer := t.timer, resp := ⟨false, 0#64⟩ } := by
  obtain ⟨u, hstored, hrest, ht⟩ := State.gateWrite_timersSwitched hopen (.inr rfl) false m
  have htimer : u.timer = s.timer := (congrArg State.timer hrest :)
  have hpart (n : Nat) : u.timerPart n = s.timerPart n := timerPart_of_low hstored htimer (by decide) n
  have hflag (n : Nat) : u.flag (F.TIMER_CTRL_EN n) = s.flag (F.TIMER_CTRL_EN n) := flag_of_raw (timerPart_eq_iff.1 (hpart n)).1
  obtain ⟨hoff, hforce, hpre⟩ := u.timersSwitched_off m.toNat
  have hkeeps : KeepsRegs s (u.timersSwitched m.toNat false) (R.TIMER_STOP :: (logRegs P.TIMER ++ timerCtrls)) := by
    refine (hstored.mono fun a ha => ?_).trans (hoff.mono fun a ha => ?_)
    · simpa using (List.mem_cons.1 ha).imp_right .inl
    · simpa using .inr (.inr ha)
  refine ⟨_, congrArg Host.Outcome.next ht, fun n => ?_, fun n hnamed => ?_, htimer ▸ hforce, htimer ▸ hpre, fun n hnamed => ?_, hkeeps, ?_⟩
  · rw [State.en_timersSwitched n.isLt, hflag]
    cases m.toNat.testBit n.val <;> rfl
  · have hen := State.en_timersSwitched (s := u) (named := m.toNat) (on := false) n.isLt
    rw [if_pos hnamed] at hen
    rw [State.timerOut, State.timerRuns, hen]
    rfl
  · have hstays := (State.timersSwitched_stays (s := u) (on := false) n.isLt (.inl hnamed)).trans (hpart n.val)
    exact ⟨(timerPart_eq_iff.1 hstays).1, timerOut_of_part hstays (hkeeps.flag (by decide))⟩
  · rw [u.timersSwitched_rest, hrest]

theorem State.exec_mtimeWrite (v : DWord) : ∃ t, exec (.mtimeWrite q v) s = .next t ∧ KeepsRegs s t [] ∧
    (∀ k : Byte, s.power.phase = .run → 8 ≤ s.timer.phase + k.toNat →
      (t.mtimeTicks k.toNat).raw R.TIMER_MTIME = v + BitVec.ofNat 64 ((s.timer.phase + k.toNat) / 8 - 1)) ∧
    t = { s with regs := t.regs, timer := { s.timer with mtimeNext := some v }, resp := ⟨false, 0#64⟩ } := by
  obtain ⟨hpriv, hfree⟩ := hopen
  let u := s.respond false 0#64
  let t := ((u.setReg R.TIMER_MTIME v).setReg R.TIMER_MTIME (s.raw R.TIMER_MTIME)).modTimer fun x => { x with mtimeNext := some v }
  have hop : u.opMtime q.ni.val v = t := by
    rw [State.opMtime, State.storeReg_mtime]
    simp only [State.raw_setReg, if_true]
    rfl
  have hgate := s.gate_open q R.TIMER_MTIME .d v (fun t => t.opMtime q.ni.val v) (by decide) hpriv hfree
  refine ⟨t, congrArg Host.Outcome.next (hgate.trans hop), fun a _ => ?_, fun k hrun htick => ?_, rfl⟩
  · change ((u.setReg R.TIMER_MTIME v).setReg R.TIMER_MTIME (s.raw R.TIMER_MTIME)).raw a = s.raw a
    rw [State.raw_setReg, State.raw_setReg]
    split
    · rename_i ha
      rw [ha]
    · rfl
  · have hrunt : ¬ t.power.phase ≠ .run := not_not.2 hrun
    have hdue : ¬ t.timer.phase + k.toNat < 8 := Nat.not_lt.2 htick
    have hstored : t.timer.mtimeNext = some v := rfl
    simp only [State.mtimeTicks, hrunt, hdue, hstored, if_false, State.raw_setReg, if_true]
    rfl

end

end Sys2Proof.Machine
end

section
/-! The statement about MTIME, MTIP and the general timers (R370 to R375), assembled from the lemmas about their commands. -/
namespace Sys2Proof.Machine

/-- Settles O18: a tick in which one timer runs is one step of that timer (R372), and a write of TIMER_START or TIMER_STOP switches each timer
named by itself (R374). -/
theorem timersCountExpireStartAndStop : Obligations.TimersCountExpireStartAndStop := by
  refine ⟨fun s q v hopen => State.exec_mtimeWrite hopen v, fun s h hlive hmtip hpending hwfi hstep => ?_,
    fun s h hrun hdoze hclosing hh hmtip hpending => ?_, fun s h hno => ⟨s, congrArg Host.Outcome.next (State.opMtipChange_none hno), rfl⟩,
    fun s dt n hclk hothers hc hexpired hcount hirq => ?_, fun s n hclk hothers hc hexpired hone => ?_,
    fun s dt n hclk hothers hc hexpired hbelow hpwm hduty => ?_, fun s q m hopen => State.exec_timerStart hopen m,
    fun s q m hopen => State.exec_timerStop hopen m⟩
  · exact ⟨_, congrArg Host.Outcome.next (State.opMtipChange_live hlive hmtip hpending), State.wakes_from_wfi hlive hwfi hstep⟩
  · exact ⟨_, congrArg Host.Outcome.next (State.opMtipChange_doze hdoze hh hmtip hpending), rfl,
      State.opDozeWake_ends_doze hrun hdoze hclosing hh (.inr hpending)⟩
  · obtain ⟨hevent, htoggle, hcounted, hself, hgates, hframe⟩ := State.expiryTick_spec hclk hothers hc hexpired hcount hirq
    exact ⟨_, rfl, hevent, htoggle, hcounted, hself, fun j hj => hgates j.val hj, hframe⟩
  · have hticks : State.timerTicks (1#32).toNat s = s.timersTick := rfl
    exact ⟨_, congrArg (fun u : State => Host.Outcome.next (u.expiryTick n.val)) hticks, State.oneshotTick_spec hclk hothers hc hexpired hone⟩
  · exact ⟨_, rfl, State.dutyTick_spec hclk hothers hc hexpired hbelow hpwm hduty⟩

end Sys2Proof.Machine
end

section
/-! Cairn's arrays (R354, R355, R357 to R359, Table Events-2): what an offset names, what an access to it answers, and what a write leaves. -/
namespace Sys2Proof.Machine

/-! ### Offsets -/

section
variable {c w g j : Nat}

theorem cairnWordAt_prio (hw : w < 512) : cairnWordAt (4 * w) = .prio w := by
  rw [cairnWordAt, if_pos (by omega)]
  congr 1
  omega

theorem cairnWordAt_enable (hc : c < 36) (hw : w < 64) : cairnWordAt (0x2000 + 0x100 * c + 4 * w) = .enable c w := by
  rw [cairnWordAt, if_neg (by omega), if_neg (by omega), if_pos (by omega)]
  congr 1 <;> omega

theorem cairnWordAt_threshold (hc : c < 36) : cairnWordAt (0x200000 + 0x1000 * c) = .threshold c := by
  rw [cairnWordAt, if_neg (by omega), if_neg (by omega), if_neg (by omega), if_pos (by omega), if_pos (by omega)]
  congr 1
  omega

theorem cairnWordAt_claim (hc : c < 36) : cairnWordAt (0x200004 + 0x1000 * c) = .claim c := by
  rw [cairnWordAt, if_neg (by omega), if_neg (by omega), if_neg (by omega), if_pos (by omega), if_neg (by omega), if_pos (by omega)]
  congr 1
  omega

theorem cairnWordAt_message (hg : g < 16) (hj : j < 32) : cairnWordAt (0x3F0000 + 0x1000 * g + 4 * j) = .message (1536 + 32 * g + j) := by
  rw [cairnWordAt, if_neg (by omega), if_neg (by omega), if_neg (by omega), if_neg (by omega), if_pos (by omega)]
  congr 1
  omega

/-- Messages lie in the message window alone. -/
theorem message_window {o id : Nat} (h : cairnWordAt o = .message id) : 0x3F0000 ≤ o := by
  unfold cairnWordAt at h
  split_ifs at h
  rename_i hin
  exact hin.1

end

/-! ### Accesses -/

section
variable (s : State) {ni o : Nat}

theorem cairnBars_other (hni : ni ≠ 8) : cairnBars ni o = false := by simp [cairnBars, hni]

theorem cairnBars_message {id : Nat} (h : cairnWordAt o = .message id) : cairnBars ni o = false := by simp [cairnBars, h]

/-- R354: what is no message is barred to Heddle. -/
theorem cairnBars_heddle (h : ∀ id, cairnWordAt o ≠ .message id) : cairnBars 8 o = true := by
  unfold cairnBars
  cases hword : cairnWordAt o
  case message id => exact absurd hword (h id)
  all_goals rfl

theorem State.cairnWrite_barred (h : cairnBars ni o = true) (z : Size) (v : DWord) : s.cairnWrite ni o z v = s.respond true 0#64 := if_pos h

theorem State.cairnWrite_word (h : cairnBars ni o = false) (ho : o % 4 = 0) (v : Word) :
    s.cairnWrite ni o .w (v.zeroExtend 64) = (s.cairnStore ni o v.toNat).respond false 0#64 := by
  have hnot : ¬ (Size.w ≠ Size.w ∨ o % 4 ≠ 0) := by simp [ho]
  have hvalue : (v.zeroExtend 64 : DWord).toNat % 2 ^ 32 = v.toNat := by
    rw [BitVec.zeroExtend, BitVec.toNat_setWidth]
    omega
  rw [State.cairnWrite, h, if_neg (by decide), if_neg hnot, hvalue]

theorem State.cairnWrite_malformed (h : cairnBars ni o = false) {z : Size} (hodd : z ≠ .w ∨ o % 4 ≠ 0) (v : DWord) :
    s.cairnWrite ni o z v = (s.cairnClamp ni 3 v.toNat o 1).respond false 0#64 := by
  rw [State.cairnWrite, h, if_neg (by decide), if_pos hodd]

theorem State.cairnRead_barred (h : cairnBars ni o = true) (z : Size) : s.cairnRead ni o z = s.respond true 0#64 := if_pos h

theorem State.cairnRead_claim {c : Nat} (hc : c < 36) (hni : ni ≠ 8) : s.cairnRead ni (0x200004 + 0x1000 * c) .w =
    (s.claim c).2.respond false (BitVec.ofNat 64 (s.claim c).1) := by
  have hnot : ¬ (Size.w ≠ Size.w ∨ (0x200004 + 0x1000 * c) % 4 ≠ 0) := by simp; omega
  rw [State.cairnRead, cairnBars_other hni, if_neg (by decide), if_neg hnot, State.cairnLoad, cairnWordAt_claim hc]

/-! ### What is logged -/

section
variable (ni reason wrote off n : Nat)

/-- R44, R58: any number of clamp events but none sets CLAMP. -/
theorem State.event_clampEvents_of_pos (p kept : Nat) (hn : n ≠ 0) : (s.clampEvents p ni off reason wrote kept n).event p 31 = true := by
  have hlog := (s.raise p 31).clampLogged_keepsRegs p ni off reason wrote kept
  have hcount := ((s.raise p 31).clampLogged p ni off reason wrote kept).clampCounted_keepsRegs p n
  have heq : s.clampEvents p ni off reason wrote kept n = ((s.raise p 31).clampLogged p ni off reason wrote kept).clampCounted p n := if_neg hn
  rw [heq, hcount.event _ (by simp [R.EVT_RAW, R.CLAMP_COUNT]), hlog.event _ (by simp [R.EVT_RAW, R.CLAMP_ADDR, R.CLAMP_WROTE, R.CLAMP_KEPT])]
  exact s.event_raise p 31 (by decide)

theorem State.event_cairnClamp (hn : n ≠ 0) : (s.cairnClamp ni reason wrote off n).event P.CAIRN_CTL 31 = true :=
  s.event_clampEvents_of_pos _ _ _ _ _ _ _ hn

theorem State.cairnClamp_keepsRegs : KeepsRegs s (s.cairnClamp ni reason wrote off n) (logRegs P.CAIRN_CTL) :=
  (KeepsRegs.refl s _).clampEvents fun _ h => h

theorem State.cairnClamp_rest : s.cairnClamp ni reason wrote off n = { s with regs := (s.cairnClamp ni reason wrote off n).regs } :=
  s.clampEvents_rest _ _ _ _ _ _ _

/-- A write of which `bad` says whether a reserved field was written with a 1: it is logged then, and only then. -/
theorem State.cairnClamp_iff {bad : Prop} [Decidable bad] (hbad : bad ↔ n ≠ 0) :
    (bad → (s.cairnClamp ni reason wrote off n).event P.CAIRN_CTL 31 = true) ∧
      KeepsRegs s (s.cairnClamp ni reason wrote off n) (if bad then logRegs P.CAIRN_CTL else []) := by
  refine ⟨fun h => s.event_cairnClamp _ _ _ _ _ (hbad.1 h), ?_⟩
  split
  · exact s.cairnClamp_keepsRegs _ _ _ _ _
  · rename_i h
    rw [not_not.1 (mt hbad.2 h)]
    exact KeepsRegs.refl s _

end

end

end Sys2Proof.Machine
end

section
/-! Claims, completions and CAIRN_RELEASE (R350, R357, R358, R380): which gateways they change. -/
namespace Sys2Proof.Machine

/-! ### One gateway -/

section
variable (s : State)

/-- Gateway `n` is `g`, and the other gateways of the sources are as they were. -/
theorem State.setGate_gates (n : Nat) (g : Gateway) :
    (s.setGate n g).gate n = g ∧ ∀ j : Fin 2048, j.val ≠ n → (s.setGate n g).gate j.val = s.gate j.val :=
  ⟨(s.gate_setGate n n g).trans (if_pos rfl), fun j hj => (s.gate_setGate n j.val g).trans (if_neg hj)⟩

/-- R350, R351: what is pending at a source with a level. -/
theorem State.pendingOf_of_levels {id : Nat} (h : (isLevelSource id || isCombined id) = true) :
    s.pendingOf id = (! (s.gate id).active && ((isCombined id && (s.gate id).latch) || s.levelAt id)) := by
  have hedge : isEdgeSource id = false := by
    cases hedge : isEdgeSource id
    case false => rfl
    have hrange := of_decide_eq_true hedge
    have hcombined : isCombined id = false := decide_eq_false (by omega)
    have hsummary : summaryPage id = none := by
      unfold summaryPage
      repeat rw [if_neg (by omega)]
    have hother : ¬ (id = 3 ∨ id = 4 ∨ (57 ≤ id ∧ id ≤ 80) ∨ id = 361 ∨ id = 369) := by omega
    simp [isLevelSource, hcombined, hsummary, hother] at h
  rw [State.pendingOf, hedge]
  cases hcombined : isCombined id
  case true => rfl
  case false =>
    have hlevel : isLevelSource id = true := by simpa [hcombined] using h
    simp [hlevel]

/-! ### Claims and completions -/

theorem State.claim_best {c : Nat} (h : s.bestSource c ≠ 0) : s.claim c =
    (s.bestSource c, s.setGate (s.bestSource c) { s.gate (s.bestSource c) with latch := false, active := true, claimer := c }) := if_neg h

theorem State.claim_none {c : Nat} (h : s.bestSource c = 0) : s.claim c = (0, s) := if_pos h

section
variable {ni c id : Nat}

theorem State.complete_claimer (hid : id ≠ 0) (hlisted : id ≤ 2047) (hactive : (s.gate id).active = true)
    (hclaimer : (s.gate id).claimer = c) (hpresent : s.ctxAbsent c = false) : s.complete ni c id = s.completeSource id := by
  simp [State.complete, hid, hlisted, hactive, hclaimer, hpresent]

theorem State.complete_other
    (h : id = 0 ∨ 2047 < id ∨ (s.gate id).active = false ∨ (s.gate id).claimer ≠ c ∨ s.ctxAbsent c = true) :
    s.complete ni c id = (s.cairnClamp ni 2 id (0x200004 + 0x1000 * c) 1).raise P.CAIRN_CTL E.CAIRN_CTL_BAD_COMPLETE := by
  rw [State.complete, if_neg]
  simp only [Bool.and_eq_true, decide_eq_true_eq, beq_iff_eq, Bool.not_eq_true']
  rintro ⟨⟨⟨⟨hid, hlisted⟩, hactive⟩, hclaimer⟩, hpresent⟩
  simp [hid, Nat.not_lt.2 hlisted, hactive, hclaimer, hpresent] at h

/-- R358: any other completion is logged, and raises BAD_COMPLETE. -/
theorem State.complete_other_spec
    (h : id = 0 ∨ 2047 < id ∨ (s.gate id).active = false ∨ (s.gate id).claimer ≠ c ∨ s.ctxAbsent c = true) :
    (s.complete ni c id).event P.CAIRN_CTL E.CAIRN_CTL_BAD_COMPLETE = true ∧ (s.complete ni c id).event P.CAIRN_CTL 31 = true ∧
      KeepsRegs s (s.complete ni c id) (logRegs P.CAIRN_CTL) ∧ s.complete ni c id = { s with regs := (s.complete ni c id).regs } := by
  rw [s.complete_other h]
  exact ⟨State.event_raise _ _ _ (by decide), State.event_raise_mono _ _ _ _ _ (s.event_cairnClamp _ _ _ _ _ Nat.one_ne_zero),
    (s.cairnClamp_keepsRegs _ _ _ _ _).raise (by decide), State.only_raise (s.cairnClamp_rest _ _ _ _ _)⟩

end

/-! ### CAIRN_RELEASE -/

/-- A map in canonical form reads at a key what it lists there. -/
theorem SMap.get_of_mem {α : Type} {d : Nat → α} {m : List (Nat × α)} {lo : Nat} (h : SMap.sortedFrom lo m = true) {e : Nat × α} (he : e ∈ m) :
    SMap.get d m e.1 = e.2 ∧ lo ≤ e.1 := by
  induction m generalizing lo with
  | nil => exact absurd he List.not_mem_nil
  | cons x m ih =>
    simp only [SMap.sortedFrom, Bool.and_eq_true, decide_eq_true_eq] at h
    obtain ⟨hlo, hrest⟩ := h
    rcases List.mem_cons.1 he with rfl | hm
    · exact ⟨if_pos rfl, hlo⟩
    · obtain ⟨hget, habove⟩ := ih hrest hm
      exact ⟨(if_neg (by omega)).trans hget, by omega⟩

/-- A gateway that is not at rest is listed. -/
theorem State.gate_listed {j : Nat} (h : s.gate j ≠ Gateway.idle) : ∃ e ∈ s.cairn.gates, e.1 = j := by
  by_contra hnone
  exact h (SMap.get_none _ _ j fun e he hej => hnone ⟨e, he, hej⟩)

/-- Completions of the sources listed, each of them once or more, are completions of just these sources. -/
theorem forAll_completeSource (l : List (Nat × Gateway)) :
    (∀ j, (forAll l (fun e t => t.completeSource e.1) s).gate j =
      if l.any (fun e => e.1 == j) then { s.gate j with active := false, claimer := 0 } else s.gate j) ∧
    forAll l (fun e t => t.completeSource e.1) s = { s with cairn := (forAll l (fun e t => t.completeSource e.1) s).cairn } := by
  induction l generalizing s with
  | nil => exact ⟨fun j => rfl, rfl⟩
  | cons e l ih =>
    obtain ⟨hgates, hrest⟩ := ih (s.completeSource e.1)
    refine ⟨fun j => (hgates j).trans ?_, hrest⟩
    rw [State.completeSource, State.gate_setGate, List.any_cons]
    by_cases hj : j = e.1
    · subst hj
      simp
    · rw [if_neg hj, beq_false_of_ne (Ne.symm hj), Bool.false_or]

/-- A change at Cairn after a register write that answers `r`. -/
theorem State.cairn_rest_trans {s u t : State} {r : Resp} (hu : u = { s with regs := u.regs, resp := r }) (ht : t = { u with cairn := t.cairn }) :
    t.regs = u.regs ∧ t = { s with regs := t.regs, cairn := t.cairn, resp := r } := by
  have hregs : t.regs = u.regs := (congrArg State.regs ht :)
  refine ⟨hregs, ht.trans ?_⟩
  rw [hregs]
  exact congrArg (fun x : State => { x with cairn := t.cairn }) hu

/-- R380: the active sources of a context, as the release of all finds them. -/
theorem State.heldBy_iff (hwf : SMap.wf (fun _ => Gateway.idle) s.cairn.gates = true) (c j : Nat) :
    (s.cairn.gates.filter (fun e => e.2.active && e.2.claimer == c)).any (fun e => e.1 == j) = true ↔
      (s.gate j).active = true ∧ (s.gate j).claimer = c := by
  have hsorted : SMap.sortedFrom 0 s.cairn.gates = true := by
    simp only [SMap.wf, Bool.and_eq_true] at hwf
    exact hwf.1
  have hget {e : Nat × Gateway} (he : e ∈ s.cairn.gates) : s.gate e.1 = e.2 := (SMap.get_of_mem hsorted he).1
  simp only [List.any_eq_true, List.mem_filter, Bool.and_eq_true, beq_iff_eq]
  constructor
  · rintro ⟨e, ⟨he, hheld⟩, rfl⟩
    rwa [hget he]
  · intro hheld
    obtain ⟨e, he, rfl⟩ := s.gate_listed (j := j) fun hidle => by simp [hidle, Gateway.idle] at hheld
    rw [hget he] at hheld
    exact ⟨e, ⟨he, hheld⟩, rfl⟩

end

/-- What CAIRN_RELEASE is written with. -/
def cairnReleaseWord (id : BitVec 11) (ctx : BitVec 6) (all : Bool) : DWord :=
  BitVec.ofNat 64 (F.CAIRN_RELEASE_ID.at id.toNat + F.CAIRN_RELEASE_CTX.at ctx.toNat + F.CAIRN_RELEASE_ALL.at (b2n all))

theorem cairnReleaseWord_fields (id : BitVec 11) (ctx : BitVec 6) (all : Bool) :
    F.CAIRN_RELEASE_ID.of (cairnReleaseWord id ctx all) = id.toNat ∧ F.CAIRN_RELEASE_CTX.of (cairnReleaseWord id ctx all) = ctx.toNat ∧
      F.CAIRN_RELEASE_ALL.of (cairnReleaseWord id ctx all) = b2n all := by
  have hid := id.isLt
  have hctx := ctx.isLt
  have hall : b2n all < 2 := by cases all <;> decide
  simp only [cairnReleaseWord, Fld.of, Fld.at, F.CAIRN_RELEASE_ID, F.CAIRN_RELEASE_CTX, F.CAIRN_RELEASE_ALL, Bits.get, BitVec.toNat_ofNat,
    Nat.shiftRight_eq_div_pow]
  omega

section
variable {s : State} {q : Req} (hopen : OpenTo s q P.CAIRN_CTL) (id : BitVec 11) (ctx : BitVec 6)
include hopen

/-- R380: the write is stored, with its log, before it releases anything. -/
theorem State.exec_cairnRelease (all : Bool) : ∃ u : State, u.cairn = s.cairn ∧ KeepsRegs s u (R.CAIRN_RELEASE :: logRegs P.CAIRN_CTL) ∧
    u = { s with regs := u.regs, resp := ⟨false, 0#64⟩ } ∧
    exec (.cairnRelease q id ctx all) s = .next (if all = true then
      (if ctx.toNat ≤ 35 then forAll (u.cairn.gates.filter (fun e => e.2.active && e.2.claimer == ctx.toNat)) (fun e t => t.completeSource e.1) u
        else u)
      else if id.toNat = 0 then u else if (u.gate id.toNat).active then u.completeSource id.toNat else u) := by
  obtain ⟨hpriv, hfree⟩ := hopen
  obtain ⟨hid, hctx, hall⟩ := cairnReleaseWord_fields id ctx all
  let u := ((s.respond false 0#64).storeReg q.ni.val R.CAIRN_RELEASE (cairnReleaseWord id ctx all)).1
  have hrest : u = { s with regs := u.regs, resp := ⟨false, 0#64⟩ } := (s.respond false 0#64).storeReg_rest _ _ _
  have hkeeps : KeepsRegs s u (R.CAIRN_RELEASE :: logRegs P.CAIRN_CTL) := (KeepsRegs.refl s _ |>.of_regs rfl).storeReg (t := s.respond false 0#64)
    List.mem_cons_self (by decide)
  refine ⟨u, (congrArg State.cairn hrest :), hkeeps, hrest, congrArg Host.Outcome.next ?_⟩
  have hgate := s.gate_open q R.CAIRN_RELEASE .w (cairnReleaseWord id ctx all) (fun t => t.opCairnRelease q.ni.val (cairnReleaseWord id ctx all))
    (by decide) hpriv hfree
  refine hgate.trans ?_
  rw [State.opCairnRelease, hid, hctx, hall]
  cases all <;> rfl

/-- R380: the source named is completed, whichever context claimed it. -/
theorem State.exec_cairnRelease_active (hid : id ≠ 0) (hactive : (s.gate id.toNat).active = true) :
    ∃ t, exec (.cairnRelease q id ctx false) s = .next t ∧ t.gate id.toNat = { s.gate id.toNat with active := false, claimer := 0 } ∧
      (∀ j : Fin 2048, j.val ≠ id.toNat → t.gate j.val = s.gate j.val) ∧
      KeepsRegs s t (R.CAIRN_RELEASE :: logRegs P.CAIRN_CTL) ∧ t = { s with regs := t.regs, cairn := t.cairn, resp := ⟨false, 0#64⟩ } := by
  obtain ⟨u, hcairn, hkeeps, hrest, ht⟩ := State.exec_cairnRelease hopen id ctx false
  have hgate (j : Nat) : u.gate j = s.gate j := by rw [State.gate, State.gate, hcairn]
  have hid' : id.toNat ≠ 0 := fun h => hid (BitVec.eq_of_toNat_eq h)
  obtain ⟨hself, hothers⟩ := u.setGate_gates id.toNat { u.gate id.toNat with active := false, claimer := 0 }
  rw [if_neg Bool.false_ne_true, if_neg hid', hgate, if_pos hactive] at ht
  refine ⟨_, ht, hself.trans (by rw [hgate]), fun j hj => (hothers j hj).trans (hgate j), hkeeps.of_regs rfl, ?_⟩
  rw [hrest]
  rfl

/-- R380: no source is completed where none is active. -/
theorem State.exec_cairnRelease_none (hno : id = 0 ∨ (s.gate id.toNat).active = false) :
    ∃ t, exec (.cairnRelease q id ctx false) s = .next t ∧ t.cairn = s.cairn ∧
      KeepsRegs s t (R.CAIRN_RELEASE :: logRegs P.CAIRN_CTL) ∧ t = { s with regs := t.regs, resp := ⟨false, 0#64⟩ } := by
  obtain ⟨u, hcairn, hkeeps, hrest, ht⟩ := State.exec_cairnRelease hopen id ctx false
  have hgate : u.gate id.toNat = s.gate id.toNat := by rw [State.gate, State.gate, hcairn]
  rw [if_neg Bool.false_ne_true, hgate] at ht
  refine ⟨u, ht.trans (congrArg Host.Outcome.next ?_), hcairn, hkeeps, hrest⟩
  rcases hno with rfl | hidle
  · exact if_pos rfl
  · rw [hidle]
    exact ite_self u

/-- R380: every source that the context claimed is completed. -/
theorem State.exec_cairnRelease_all (hctx : ctx.toNat ≤ 35) (hwf : SMap.wf (fun _ => Gateway.idle) s.cairn.gates = true) :
    ∃ t, exec (.cairnRelease q id ctx true) s = .next t ∧
      (∀ j : Fin 2048, t.gate j.val = if (s.gate j.val).active ∧ (s.gate j.val).claimer = ctx.toNat then
        { s.gate j.val with active := false, claimer := 0 } else s.gate j.val) ∧
      KeepsRegs s t (R.CAIRN_RELEASE :: logRegs P.CAIRN_CTL) ∧ t = { s with regs := t.regs, cairn := t.cairn, resp := ⟨false, 0#64⟩ } := by
  obtain ⟨u, hcairn, hkeeps, hrest, ht⟩ := State.exec_cairnRelease hopen id ctx true
  rw [if_pos rfl, if_pos hctx, hcairn] at ht
  obtain ⟨hgates, hcompleted⟩ := forAll_completeSource u (s.cairn.gates.filter (fun e => e.2.active && e.2.claimer == ctx.toNat))
  have hgate (j : Nat) : u.gate j = s.gate j := by rw [State.gate, State.gate, hcairn]
  obtain ⟨hregs, hframe⟩ := State.cairn_rest_trans hrest hcompleted
  refine ⟨_, ht, fun j => ?_, hkeeps.of_regs hregs, hframe⟩
  rw [hgates, hgate]
  exact if_congr (s.heldBy_iff hwf _ _) rfl rfl

end

end Sys2Proof.Machine
end

section
/-! Writes into Cairn's arrays (R354, R355, Table Events-2): what each word stores, and what of it is logged. -/
namespace Sys2Proof.Machine

/-! ### The lanes of a priority word -/

/-- R355: lane `i` of a priority write. -/
def prioLane (v i : Nat) : Nat := v / 2 ^ (8 * i) % 256

/-- R355: what lane `i` of a write of `v` to priority word `w` does. -/
def prioStep (w v : Nat) (r : State × Nat) (i : Nat) : State × Nat :=
  if sourceReserved (4 * w + i) then (r.1, r.2 + b2n (prioLane v i != 0))
  else ({ r.1 with cairn := { r.1.cairn with prio := SMap.put (fun _ => 0) r.1.cairn.prio (4 * w + i) (prioLane v i % 32) } },
    r.2 + b2n (32 ≤ prioLane v i))

/-- The first `k` lanes of a priority write. -/
def State.prioLanes (s : State) (w v k : Nat) : State × Nat := (List.range k).foldl (prioStep w v) (s, 0)

theorem State.cairnStore_prio (s : State) {w : Nat} (hw : w < 512) (ni v : Nat) :
    s.cairnStore ni (4 * w) v = (s.prioLanes w v 4).1.cairnClamp ni 1 v (4 * w) (s.prioLanes w v 4).2 := by
  rw [State.cairnStore, cairnWordAt_prio hw]
  rfl

section
variable (s : State) (w v : Nat)

theorem State.prioLanes_succ (k : Nat) : s.prioLanes w v (k + 1) = prioStep w v (s.prioLanes w v k) k := by
  rw [State.prioLanes, List.range_succ, List.foldl_append]
  rfl

/-- A lane with a source behind it stores the source's priority; every other priority stays. -/
theorem State.prioOf_prioStep (r : State × Nat) (i j : Nat) : (prioStep w v r i).1.prioOf j =
    if j = 4 * w + i ∧ sourceReserved (4 * w + i) = false then prioLane v i % 32 else r.1.prioOf j := by
  unfold prioStep
  cases hreserved : sourceReserved (4 * w + i)
  case true => simp
  case false => simp [State.prioOf, SMap.get_put]

theorem State.prioOf_prioLanes (k j : Nat) : (s.prioLanes w v k).1.prioOf j =
    if 4 * w ≤ j ∧ j < 4 * w + k ∧ sourceReserved j = false then prioLane v (j - 4 * w) % 32 else s.prioOf j := by
  induction k with
  | zero => exact (if_neg (by omega)).symm
  | succ k ih =>
    rw [State.prioLanes_succ, State.prioOf_prioStep, ih]
    by_cases hj : j = 4 * w + k
    · subst hj
      simp
    · have hrange : (4 * w ≤ j ∧ j < 4 * w + k ∧ sourceReserved j = false) ↔ (4 * w ≤ j ∧ j < 4 * w + (k + 1) ∧ sourceReserved j = false) := by
        constructor <;> (rintro ⟨hlo, hhi, hlisted⟩; exact ⟨hlo, by omega, hlisted⟩)
      rw [if_neg fun h => hj h.1, if_congr hrange rfl rfl]

theorem State.prioLanes_rest (k : Nat) : (s.prioLanes w v k).1 =
    { s with cairn := { s.cairn with prio := (s.prioLanes w v k).1.cairn.prio } } := by
  induction k with
  | zero => rfl
  | succ k ih =>
    rw [State.prioLanes_succ]
    unfold prioStep
    split
    · exact ih
    · dsimp only
      rw [ih]

/-- Lanes with a source behind them and no bit above a priority's are no clamp event. -/
theorem State.prioLanes_legal (k : Nat) (h : ∀ i < k, sourceReserved (4 * w + i) = false ∧ prioLane v i < 32) : (s.prioLanes w v k).2 = 0 := by
  induction k with
  | zero => rfl
  | succ k ih =>
    obtain ⟨hlisted, hlegal⟩ := h k (Nat.lt_succ_self k)
    have hnone : (s.prioLanes w v k).2 = 0 := ih fun i hi => h i (Nat.lt_succ_of_lt hi)
    rw [State.prioLanes_succ, prioStep, hlisted, if_neg Bool.false_ne_true, hnone, decide_eq_false (Nat.not_le.2 hlegal)]
    rfl

end

/-- Lanes without their reserved bits are priorities. -/
theorem prioLane_lt {v : Word} (h : v &&& 0xE0E0E0E0#32 = 0) {i : Nat} (hi : i < 4) : prioLane v.toNat i < 32 := by
  have hmask : ∀ i : Fin 4, ∀ b : Fin 8, 5 ≤ b.val → (0xE0E0E0E0#32).getLsbD (8 * i.val + b.val) = true := by decide
  refine Nat.lt_pow_two_of_testBit (n := 5) _ fun b hb => ?_
  rw [prioLane, show (256 : Nat) = 2 ^ 8 from rfl, Nat.testBit_mod_two_pow, Nat.testBit_div_two_pow]
  by_cases hlane : b < 8
  · have hbit : (v &&& 0xE0E0E0E0#32).getLsbD (b + 8 * i) = false := by
      rw [h]
      exact BitVec.getLsbD_zero
    rw [BitVec.getLsbD_and, Nat.add_comm b, hmask ⟨i, hi⟩ ⟨b, hlane⟩ hb, Bool.and_true, BitVec.getLsbD] at hbit
    rw [Nat.add_comm b, hbit, Bool.and_false]
  · simp [hlane]

/-! ### Words stored -/

section
variable (s : State)

/-- A word stored in Cairn's arrays, with what is logged of the write: `bad` says whether that is anything. -/
theorem State.stored_spec (c : CairnState) (ni wrote off n : Nat) {bad : Prop} [Decidable bad] (hbad : bad ↔ n ≠ 0) :
    let t := (({ s with cairn := c } : State).cairnClamp ni 1 wrote off n).respond false 0#64
    t.cairn = c ∧ (bad → t.event P.CAIRN_CTL 31 = true) ∧ KeepsRegs s t (if bad then logRegs P.CAIRN_CTL else []) ∧
      t = { s with regs := t.regs, cairn := t.cairn, resp := ⟨false, 0#64⟩ } := by
  have hrest := ({ s with cairn := c } : State).cairnClamp_rest ni 1 wrote off n
  obtain ⟨hevent, hkeeps⟩ := ({ s with cairn := c } : State).cairnClamp_iff ni 1 wrote off n hbad
  have hcairn : (({ s with cairn := c } : State).cairnClamp ni 1 wrote off n).cairn = c := (congrArg State.cairn hrest :)
  refine ⟨hcairn, hevent, ((KeepsRegs.refl s _).of_regs (u := { s with cairn := c }) rfl).trans (hkeeps.of_regs rfl), ?_⟩
  refine (congrArg (fun u : State => u.respond false 0#64) hrest).trans ?_
  simp only [State.respond, hcairn]

variable {s} {q : Req} (hni : q.ni ≠ 8)
include hni

/-- R354: an aligned 32-bit write below the end of the arrays. -/
theorem State.exec_arrayWrite {o : Nat} (hin : o < 2 ^ 22) (ho : o % 4 = 0) (v : Word) :
    exec (.cairnArrayWrite q (BitVec.ofNat 22 o) .w (v.zeroExtend 64)) s = .next ((s.cairnStore q.ni.val o v.toNat).respond false 0#64) := by
  have hoff : (BitVec.ofNat 22 o).toNat = o := (BitVec.toNat_ofNat _ _).trans (Nat.mod_eq_of_lt hin)
  have hstore := s.cairnWrite_word (cairnBars_other (o := o) (Fin.val_ne_of_ne hni)) ho v
  exact congrArg Host.Outcome.next ((congrArg (fun x => s.cairnWrite q.ni.val x .w (v.zeroExtend 64)) hoff).trans hstore)

theorem State.exec_thresholdWrite (c : Fin 36) (v : Word) :
    ∃ t, exec (.cairnArrayWrite q (BitVec.ofNat 22 (0x200000 + 0x1000 * c.val)) .w (v.zeroExtend 64)) s = .next t ∧
      t.thresholdOf c.val = v.toNat % 32 ∧ (∀ d : Fin 36, d ≠ c → t.thresholdOf d.val = s.thresholdOf d.val) ∧
      (32 ≤ v.toNat → t.event P.CAIRN_CTL 31 = true) ∧ KeepsRegs s t (if 32 ≤ v.toNat then logRegs P.CAIRN_CTL else []) ∧
      t.cairn = { s.cairn with threshold := t.cairn.threshold } ∧ t = { s with regs := t.regs, cairn := t.cairn, resp := ⟨false, 0#64⟩ } := by
  have hbad : 32 ≤ v.toNat ↔ b2n (32 ≤ v.toNat) ≠ 0 := by by_cases h : 32 ≤ v.toNat <;> simp [h, b2n]
  let cairn := { s.cairn with threshold := SMap.put (fun _ => 0) s.cairn.threshold c.val (v.toNat % 32) }
  obtain ⟨hcairn, hevent, hkeeps, hframe⟩ := s.stored_spec cairn q.ni.val v.toNat (0x200000 + 0x1000 * c.val) (b2n (32 ≤ v.toNat)) hbad
  have ht := State.exec_arrayWrite (s := s) hni (o := 0x200000 + 0x1000 * c.val) (by omega) (by omega) v
  rw [State.cairnStore, cairnWordAt_threshold c.isLt] at ht
  refine ⟨_, ht, ?_, fun d hd => ?_, hevent, hkeeps, ?_, hframe⟩
  · rw [State.thresholdOf, hcairn]
    exact (SMap.get_put _ _ _ _ _).trans (if_pos rfl)
  · rw [State.thresholdOf, hcairn]
    exact (SMap.get_put _ _ _ _ _).trans (if_neg (Fin.val_ne_of_ne hd))
  · rw [hcairn]

theorem State.exec_enableWrite (c : Fin 36) (w : Fin 64) (v : Word) :
    ∃ t, exec (.cairnArrayWrite q (BitVec.ofNat 22 (0x2000 + 0x100 * c.val + 4 * w.val)) .w (v.zeroExtend 64)) s = .next t ∧
      t.enableWord c.val w.val = enableBits w.val v.toNat ∧
      (∀ d : Fin 36, ∀ x : Fin 64, (d ≠ c ∨ x ≠ w) → t.enableWord d.val x.val = s.enableWord d.val x.val) ∧
      (reservedEnableRuns w.val v.toNat ≠ 0 → t.event P.CAIRN_CTL 31 = true) ∧
      KeepsRegs s t (if reservedEnableRuns w.val v.toNat = 0 then [] else logRegs P.CAIRN_CTL) ∧
      t.cairn = { s.cairn with enable := t.cairn.enable } ∧ t = { s with regs := t.regs, cairn := t.cairn, resp := ⟨false, 0#64⟩ } := by
  let cairn := { s.cairn with enable := SMap.put (fun _ => 0) s.cairn.enable (64 * c.val + w.val) (enableBits w.val v.toNat) }
  obtain ⟨hcairn, hevent, hkeeps, hframe⟩ := s.stored_spec cairn q.ni.val v.toNat (0x2000 + 0x100 * c.val + 4 * w.val)
    (reservedEnableRuns w.val v.toNat) Iff.rfl
  have ht := State.exec_arrayWrite (s := s) hni (o := 0x2000 + 0x100 * c.val + 4 * w.val) (by omega) (by omega) v
  rw [State.cairnStore, cairnWordAt_enable c.isLt w.isLt] at ht
  rw [ite_not] at hkeeps
  refine ⟨_, ht, ?_, fun d x hother => ?_, hevent, hkeeps, ?_, hframe⟩
  · rw [State.enableWord, hcairn]
    exact (SMap.get_put _ _ _ _ _).trans (if_pos rfl)
  · have hkey : 64 * d.val + x.val ≠ 64 * c.val + w.val := by omega
    rw [State.enableWord, hcairn]
    exact (SMap.get_put _ _ _ _ _).trans (if_neg hkey)
  · rw [hcairn]

theorem State.exec_prioWrite (w : Fin 512) (v : Word) :
    ∃ t, exec (.cairnArrayWrite q (BitVec.ofNat 22 (4 * w.val)) .w (v.zeroExtend 64)) s = .next t ∧
      (∀ i : Fin 4, t.prioOf (4 * w.val + i.val) =
        if sourceReserved (4 * w.val + i.val) then s.prioOf (4 * w.val + i.val) else v.toNat / 2 ^ (8 * i.val) % 32) ∧
      (∀ j : Fin 2048, j.val / 4 ≠ w.val → t.prioOf j.val = s.prioOf j.val) ∧ KeepsRegs s t (logRegs P.CAIRN_CTL) ∧
      ((∀ i : Fin 4, sourceReserved (4 * w.val + i.val) = false) → v &&& 0xE0E0E0E0#32 = 0 → t.regs = s.regs) ∧
      t.cairn = { s.cairn with prio := t.cairn.prio } ∧ t = { s with regs := t.regs, cairn := t.cairn, resp := ⟨false, 0#64⟩ } := by
  let u := (s.prioLanes w.val v.toNat 4).1
  let n := (s.prioLanes w.val v.toNat 4).2
  have hu : u = { s with cairn := { s.cairn with prio := u.cairn.prio } } := s.prioLanes_rest _ _ _
  have hprio (j : Nat) := s.prioOf_prioLanes w.val v.toNat 4 j
  obtain ⟨hcairn, -, hkeeps, hframe⟩ := s.stored_spec u.cairn q.ni.val v.toNat (4 * w.val) n (bad := n ≠ 0) Iff.rfl
  have ht := State.exec_arrayWrite (s := s) hni (o := 4 * w.val) (by omega) (by omega) v
  have hstore : s.cairnStore q.ni.val (4 * w.val) v.toNat = ({ s with cairn := u.cairn } : State).cairnClamp q.ni.val 1 v.toNat (4 * w.val) n := by
    have hs : u = { s with cairn := u.cairn } := hu.trans (by rw [hu])
    exact (s.cairnStore_prio w.isLt _ _).trans (by rw [← hs])
  rw [hstore] at ht
  refine ⟨_, ht, fun i => ?_, fun j hj => ?_, hkeeps.mono fun a ha => ?_, fun hlisted hlegal => ?_, ?_, hframe⟩
  · rw [State.prioOf, hcairn]
    refine (hprio _).trans ?_
    cases hreserved : sourceReserved (4 * w.val + i.val)
    case true => rw [if_neg (by simp), if_pos rfl]
    case false =>
      rw [if_pos ⟨by omega, by omega, rfl⟩, if_neg Bool.false_ne_true, Nat.add_sub_cancel_left]
      exact Nat.mod_mod_of_dvd _ (by decide)
  · rw [State.prioOf, hcairn]
    exact (hprio j).trans (if_neg (by omega))
  · split at ha
    · exact ha
    · exact absurd ha List.not_mem_nil
  · have hnone : n = 0 := s.prioLanes_legal _ _ _ fun i hi => ⟨hlisted ⟨i, hi⟩, prioLane_lt hlegal hi⟩
    rw [hnone]
    rfl
  · rw [hcairn, hu]

/-- R354, R355: an access of another size, or not aligned to one, is logged with reason 3. -/
theorem State.exec_arrayWrite_malformed (off : BitVec 22) {size : Size} (v : DWord) (hodd : size ≠ .w ∨ off.toNat % 4 ≠ 0) :
    ∃ t, exec (.cairnArrayWrite q off size v) s = .next t ∧ t.event P.CAIRN_CTL 31 = true ∧
      (s.flag (F.CLAMP_ADDR_VALID P.CAIRN_CTL) = false → t.fld (F.CLAMP_ADDR_REASON P.CAIRN_CTL) = 3) ∧
      KeepsRegs s t (logRegs P.CAIRN_CTL) ∧ t = { s with regs := t.regs, resp := ⟨false, 0#64⟩ } := by
  have ht := s.cairnWrite_malformed (cairnBars_other (o := off.toNat) (Fin.val_ne_of_ne hni)) hodd v
  refine ⟨_, congrArg Host.Outcome.next ht, s.event_cairnClamp _ _ _ _ _ Nat.one_ne_zero, fun hempty => ?_,
    (s.cairnClamp_keepsRegs _ _ _ _ _).of_regs rfl, ?_⟩
  · obtain ⟨haddr, -⟩ := State.clampEvents_fills_empty_log s P.CAIRN_CTL q.ni.val 0 3 v.toNat off.toNat hempty
    obtain ⟨-, -, hreason, -⟩ := clampAddr_fields 0 q.ni.val 3 (by decide) (by decide)
    exact (congrArg (fun x => Bits.get x 24 7) haddr).trans hreason
  · exact congrArg (fun u : State => u.respond false 0#64) (s.cairnClamp_rest q.ni.val 3 v.toNat off.toNat 1)

/-- R55, R355: an offset that is not listed is written as reserved bits are. -/
theorem State.exec_arrayWrite_unlisted (off : BitVec 22) (v : Word) (ho : off.toNat % 4 = 0) (hnone : cairnWordAt off.toNat = .none) :
    ∃ t, exec (.cairnArrayWrite q off .w (v.zeroExtend 64)) s = .next t ∧ (v ≠ 0 → t.event P.CAIRN_CTL 31 = true) ∧
      KeepsRegs s t (if v = 0 then [] else logRegs P.CAIRN_CTL) ∧ t = { s with regs := t.regs, resp := ⟨false, 0#64⟩ } := by
  have hbad : v ≠ 0 ↔ b2n (v.toNat != 0) ≠ 0 := by
    have hzero : v = 0 ↔ v.toNat = 0 := BitVec.toNat_eq
    rw [ne_eq, hzero]
    by_cases h : v.toNat = 0 <;> simp [h, b2n]
  have ht := s.cairnWrite_word (cairnBars_other (Fin.val_ne_of_ne hni)) ho v
  rw [State.cairnStore, hnone] at ht
  obtain ⟨hevent, hkeeps⟩ := s.cairnClamp_iff q.ni.val 1 v.toNat off.toNat (b2n (v.toNat != 0)) hbad
  rw [ite_not] at hkeeps
  exact ⟨_, congrArg Host.Outcome.next ht, hevent, hkeeps.of_regs rfl,
    congrArg (fun u : State => u.respond false 0#64) (s.cairnClamp_rest q.ni.val 1 v.toNat off.toNat _)⟩

end

end Sys2Proof.Machine
end

section
/-! The statement about Cairn (R349 to R360, R380), assembled from the lemmas about edges, claims, completions, array writes and wakes. -/
namespace Sys2Proof.Machine

section
variable {s : State} {q : Req}

/-! ### CLAIM and COMPLETE -/

theorem State.exec_claim_best {ctx : Fin 36} (hni : q.ni ≠ 8) (hbest : s.bestSource ctx.val ≠ 0) :
    ∃ t, exec (.claim q ctx) s = .next t ∧ t.resp = ⟨false, BitVec.ofNat 64 (s.bestSource ctx.val)⟩ ∧
      t.gate (s.bestSource ctx.val) = { s.gate (s.bestSource ctx.val) with latch := false, active := true, claimer := ctx.val } ∧
      (∀ j : Fin 2048, j.val ≠ s.bestSource ctx.val → t.gate j.val = s.gate j.val) ∧
      t = { s with cairn := t.cairn, resp := t.resp } := by
  have ht := State.cairnRead_claim s ctx.isLt (Fin.val_ne_of_ne hni)
  rw [s.claim_best hbest] at ht
  obtain ⟨hself, hothers⟩ := s.setGate_gates (s.bestSource ctx.val)
    { s.gate (s.bestSource ctx.val) with latch := false, active := true, claimer := ctx.val }
  exact ⟨_, congrArg Host.Outcome.next ht, rfl, hself, hothers, rfl⟩

theorem State.exec_claim_none {ctx : Fin 36} (hni : q.ni ≠ 8) (hnone : s.bestSource ctx.val = 0) :
    exec (.claim q ctx) s = .next { s with resp := ⟨false, 0#64⟩ } := by
  have ht := State.cairnRead_claim s ctx.isLt (Fin.val_ne_of_ne hni)
  rw [s.claim_none hnone] at ht
  exact congrArg Host.Outcome.next ht

theorem cairnBars_claim {c : Nat} (hc : c < 36) : cairnBars 8 (0x200004 + 0x1000 * c) = true :=
  cairnBars_heddle fun _ h => by cases (cairnWordAt_claim hc).symm.trans h

theorem State.exec_claim_heddle (ctx : Fin 36) (hni : q.ni = 8) : exec (.claim q ctx) s = .next { s with resp := ⟨true, 0#64⟩ } := by
  have ht := s.cairnRead_barred (cairnBars_claim ctx.isLt) .w
  rw [← show q.ni.val = 8 from congrArg Fin.val hni] at ht
  exact congrArg Host.Outcome.next ht

theorem State.exec_complete_heddle (ctx : Fin 36) (id : BitVec 32) (hni : q.ni = 8) :
    exec (.complete q ctx id) s = .next { s with resp := ⟨true, 0#64⟩ } := by
  have ht := s.cairnWrite_barred (cairnBars_claim ctx.isLt) .w (id.zeroExtend 64)
  rw [← show q.ni.val = 8 from congrArg Fin.val hni] at ht
  exact congrArg Host.Outcome.next ht

theorem State.exec_complete (ctx : Fin 36) (id : BitVec 32) (hni : q.ni ≠ 8) :
    exec (.complete q ctx id) s = .next ((s.complete q.ni.val ctx.val id.toNat).respond false 0#64) := by
  have ht := s.cairnWrite_word (o := 0x200004 + 0x1000 * ctx.val) (cairnBars_other (Fin.val_ne_of_ne hni)) (by omega) id
  rw [State.cairnStore, cairnWordAt_claim ctx.isLt] at ht
  exact congrArg Host.Outcome.next ht

/-! ### MESSAGE -/

theorem State.exec_message (g : Fin 16) (j : Fin 32) (v : Word) :
    exec (.message q g j v) s = .next ((s.edge (1536 + 32 * g.val + j.val)).respond false 0#64) := by
  have hword := cairnWordAt_message g.isLt j.isLt
  have ht := s.cairnWrite_word (ni := q.ni.val) (cairnBars_message hword) (by omega) v
  rw [State.cairnStore, hword] at ht
  exact congrArg Host.Outcome.next ht

/-- R348, R359: a message source takes edges. -/
theorem messageSource_takes (g : Fin 16) (j : Fin 32) :
    (isEdgeSource (1536 + 32 * g.val + j.val) || isCombined (1536 + 32 * g.val + j.val)) = true := by
  rw [isEdgeSource, decide_eq_true (by omega), Bool.true_or]

end

/-- Settles O16: every command of Cairn is an edge, a claim, a completion, the store of one array word or a wake, each with the rule of its own
above. -/
theorem cairnSourcesClaimsAndMessages : Obligations.CairnSourcesClaimsAndMessages := by
  refine ⟨fun s id htakes hclocked hfree => ?_, fun s id htakes hclocked hlatched => ?_, fun s id hno => ?_, fun s id level hlevels hlevel => ?_,
    fun s q ctx hni hbest => State.exec_claim_best hni hbest, fun s q ctx hni hnone => ⟨_, State.exec_claim_none hni hnone, rfl⟩,
    fun s q ctx hni => ⟨_, State.exec_claim_heddle ctx hni, rfl⟩, fun s q ctx id hni => ⟨_, State.exec_complete_heddle ctx id hni, rfl⟩,
    fun s q ctx id hni hid hlisted hactive hclaimer hpresent => ?_, fun s q ctx id hni hother => ?_, fun s q g j v hclocked hfree => ?_,
    fun s q g j v hclocked hlatched => ?_, fun s q c v hni => State.exec_thresholdWrite hni c v, fun s q c w v hni => State.exec_enableWrite hni c w v,
    fun s q w v hni => State.exec_prioWrite hni w v, fun s q off size v hni hodd => State.exec_arrayWrite_malformed hni off v hodd,
    fun s q off v hni ho hnone => State.exec_arrayWrite_unlisted hni off v ho hnone, fun s q off size v hni hbelow => ?_,
    fun s q id ctx hopen hid hactive => State.exec_cairnRelease_active hopen id ctx hid hactive,
    fun s q id ctx hopen hno => State.exec_cairnRelease_none hopen id ctx hno,
    fun s q id ctx hopen hctx hwf => State.exec_cairnRelease_all hopen id ctx hctx hwf, fun s h hrun hdoze hclosing hh hup => ?_,
    fun s h hno => ⟨s, congrArg Host.Outcome.next (State.opHartWake_none hno), rfl⟩, fun s h hlive hup hwfi hstep => ?_⟩
  · obtain ⟨hself, hothers⟩ := s.setGate_gates id.toNat { s.gate id.toNat with latch := true }
    exact ⟨_, congrArg Host.Outcome.next (State.edge_latches htakes hclocked hfree), hself, hothers, rfl⟩
  · obtain ⟨hname, hcount, hevent, hkeeps, hrest⟩ := State.edge_coalesces htakes hclocked id.isLt hlatched
    exact ⟨_, rfl, (congrArg State.cairn hrest :), hname, hcount, hevent, hkeeps, hrest⟩
  · exact ⟨s, congrArg Host.Outcome.next (State.edge_ignored hno), rfl⟩
  · exact ⟨s, rfl, rfl, hlevel ▸ s.pendingOf_of_levels hlevels⟩
  · have ht := State.exec_complete (s := s) ctx id hni
    rw [s.complete_claimer (fun h => hid (BitVec.eq_of_toNat_eq h)) hlisted hactive hclaimer hpresent] at ht
    obtain ⟨hself, hothers⟩ := s.setGate_gates id.toNat { s.gate id.toNat with active := false, claimer := 0 }
    exact ⟨_, ht, hself, hothers, rfl⟩
  · obtain ⟨hbad, hclamp, hkeeps, hrest⟩ := s.complete_other_spec (ni := q.ni.val) (hother.imp_left (congrArg BitVec.toNat))
    exact ⟨_, State.exec_complete ctx id hni, hbad, hclamp, hkeeps.of_regs rfl, congrArg (fun u : State => u.respond false 0#64) hrest⟩
  · have ht := State.exec_message (s := s) (q := q) g j v
    rw [State.edge_latches (messageSource_takes g j) hclocked hfree] at ht
    obtain ⟨hself, hothers⟩ := s.setGate_gates (1536 + 32 * g.val + j.val) { s.gate (1536 + 32 * g.val + j.val) with latch := true }
    exact ⟨_, ht, hself, hothers, rfl⟩
  · obtain ⟨hname, hcount, hevent, hkeeps, hrest⟩ := State.edge_coalesces (messageSource_takes g j) hclocked (by omega) hlatched
    exact ⟨_, State.exec_message g j v, hname, hcount, hevent, hkeeps.of_regs rfl, congrArg (fun u : State => u.respond false 0#64) hrest⟩
  · have hbars : cairnBars 8 off.toNat = true := cairnBars_heddle fun id h => absurd (message_window h) (Nat.not_le.2 hbelow)
    rw [← show q.ni.val = 8 from congrArg Fin.val hni] at hbars
    exact ⟨_, congrArg Host.Outcome.next (s.cairnWrite_barred hbars size v), rfl⟩
  · exact ⟨_, congrArg Host.Outcome.next (State.opHartWake_doze hdoze hh hup), rfl, State.opDozeWake_ends_doze hrun hdoze hclosing hh (.inl hup)⟩
  · exact ⟨_, congrArg Host.Outcome.next (State.opHartWake_live hlive hup), State.wakes_from_wfi hlive hwfi hstep⟩

end Sys2Proof.Machine
end

section
/-! A write to a register, field by field (R42, Table Pages-2): what each field holds afterwards, and what each write-only field acts on. -/
namespace Sys2Proof.Machine

/-! ### One field -/

/-- Bits that a field takes. -/
def FSpec.size (f : FSpec) : Nat := f.hi - f.lo + 1

/-- The field lies in 64 bits. -/
def FSpec.fits (f : FSpec) : Bool := decide (f.lo ≤ f.hi ∧ f.hi < 64)

/-- Two fields share no bit. -/
def FSpec.apart (f g : FSpec) : Bool := decide (f.hi < g.lo ∨ g.hi < f.lo)

/-- Table Pages-2: what field `f` holds after a write of `w`, `old` being what it held. -/
def State.fieldStored (s : State) (p : PageSpec) (a : Nat) (w : DWord) (f : FSpec) (old : Nat) : Nat :=
  if s.fieldFrozen p a f then old else
  match f.acc with
  | .ro | .rc | .wo => old
  | .w1c => clearBits old (Bits.get w f.lo f.size)
  | .w1s => old ||| Bits.get w f.lo f.size
  | .rw | .rwl => (legalize s a f (Bits.get w f.lo f.size) w).val.getD old

/-- What it acts on, if it is write-only. -/
def State.fieldActs (s : State) (p : PageSpec) (a : Nat) (w : DWord) (f : FSpec) (old : Nat) : Nat :=
  if s.fieldFrozen p a f then old else
  match f.acc with
  | .wo => (legalize s a f (Bits.get w f.lo f.size) w).val.getD 0
  | _ => old

section
variable (s : State) (p : PageSpec) (a : Nat) (read w : DWord) (o : Written) (f : FSpec)

theorem writeField_word : (writeField s p a read w o f).word =
    Bits.put o.word f.lo f.size (s.fieldStored p a w f (Bits.get o.word f.lo f.size)) := by
  have hkept : o.word = Bits.put o.word f.lo f.size (Bits.get o.word f.lo f.size) := (Bits.put_get _ _ _).symm
  unfold writeField State.fieldStored
  cases s.fieldFrozen p a f
  case true =>
    simp only [if_true]
    split <;> exact hkept
  case false =>
    simp only [Bool.false_eq_true, if_false]
    cases f.acc with
    | ro | rc =>
      dsimp only
      split <;> exact hkept
    | wo => exact hkept
    | rw | rwl | w1c | w1s => rfl

theorem writeField_act : (writeField s p a read w o f).act =
    Bits.put o.act f.lo f.size (s.fieldActs p a w f (Bits.get o.act f.lo f.size)) := by
  have hkept : o.act = Bits.put o.act f.lo f.size (Bits.get o.act f.lo f.size) := (Bits.put_get _ _ _).symm
  unfold writeField State.fieldActs
  cases s.fieldFrozen p a f
  case true =>
    simp only [if_true]
    split <;> exact hkept
  case false =>
    simp only [Bool.false_eq_true, if_false]
    cases f.acc with
    | ro | rc =>
      dsimp only
      split <;> exact hkept
    | rw | rwl | w1c | w1s => exact hkept
    | wo => rfl

end

/-! ### All fields of a register -/

/-- The fields of a register lie in 64 bits and share none. -/
def soundFields : List FSpec → Bool
  | [] => true
  | f :: fs => f.fits && fs.all (fun g => f.apart g) && soundFields fs

theorem Bits.get_put_apart {f g : FSpec} (hg : g.fits = true) (hf : f.fits = true) (h : g.apart f = true) (x : DWord) (v : Nat) :
    Bits.get (Bits.put x f.lo f.size v) g.lo g.size = Bits.get x g.lo g.size := by
  simp only [FSpec.apart, FSpec.fits, decide_eq_true_eq] at h hf hg
  exact Bits.get_put_ne _ _ _ _ _ _ (by unfold FSpec.size; omega)

theorem Bits.get_put_size {f : FSpec} (hf : f.fits = true) (x : DWord) (v : Nat) :
    Bits.get (Bits.put x f.lo f.size v) f.lo f.size = v % 2 ^ f.size := by
  simp only [FSpec.fits, decide_eq_true_eq] at hf
  exact Bits.get_put _ _ _ _ (by unfold FSpec.size; omega)

section
variable {β : Type} {step : β → FSpec → β} {word : β → DWord} {new : FSpec → Nat → Nat}
  (hstep : ∀ o f, word (step o f) = Bits.put (word o) f.lo f.size (new f (Bits.get (word o) f.lo f.size)))
include hstep

/-- A field beside all those that are replaced one after the other keeps its value. -/
theorem Bits.get_foldl_apart {g : FSpec} (hg : g.fits = true) {fs : List FSpec} (hfs : soundFields fs = true) (hapart : fs.all (fun f => g.apart f) = true)
    (o : β) : Bits.get (word (fs.foldl step o)) g.lo g.size = Bits.get (word o) g.lo g.size := by
  induction fs generalizing o with
  | nil => rfl
  | cons f fs ih =>
    simp only [soundFields, List.all_cons, Bool.and_eq_true] at hfs hapart
    rw [List.foldl_cons, ih hfs.2 hapart.2, hstep, Bits.get_put_apart hg hfs.1.1 hapart.1]

/-- Each field is replaced once. -/
theorem Bits.get_foldl {g : FSpec} {fs : List FSpec} (hfs : soundFields fs = true) (hmem : g ∈ fs) (o : β) :
    Bits.get (word (fs.foldl step o)) g.lo g.size = new g (Bits.get (word o) g.lo g.size) % 2 ^ g.size := by
  induction fs generalizing o with
  | nil => cases hmem
  | cons f fs ih =>
    simp only [soundFields, Bool.and_eq_true] at hfs
    obtain ⟨⟨hfits, hapart⟩, hrest⟩ := hfs
    rcases List.mem_cons.1 hmem with rfl | hmem
    · rw [List.foldl_cons, Bits.get_foldl_apart hstep hfits hrest hapart, hstep, Bits.get_put_size hfits]
    · have hg : g.fits = true ∧ g.apart f = true := by
        refine ⟨?_, ?_⟩
        · clear ih hapart
          induction fs with
          | nil => cases hmem
          | cons x xs ihx =>
            simp only [soundFields, Bool.and_eq_true] at hrest
            rcases List.mem_cons.1 hmem with rfl | hmem
            · exact hrest.1.1
            · exact ihx (List.mem_cons_of_mem _ hmem) hrest.2 hmem
        · have := List.all_eq_true.1 hapart g hmem
          simp only [FSpec.apart, decide_eq_true_eq] at this ⊢
          omega
      rw [List.foldl_cons, ih hrest hmem, hstep, Bits.get_put_apart hg.1 hfits hg.2]

end

section
variable {s : State} {p : PageSpec} {r : RSpec} {a : Nat} {w : DWord} (hr : soundFields r.fields = true) {f : FSpec} (hf : f ∈ r.fields)
include hr hf

theorem get_writeWord : Bits.get (writeWord s p r a w).word f.lo f.size = s.fieldStored p a w f (Bits.get (s.raw a) f.lo f.size) % 2 ^ f.size :=
  Bits.get_foldl (step := writeField s p a (s.readReg a) w) (word := Written.word) (new := fun f => s.fieldStored p a w f)
    (fun o f => writeField_word s p a _ w o f) hr hf _

theorem get_writeWord_act : Bits.get (writeWord s p r a w).act f.lo f.size = s.fieldActs p a w f 0 % 2 ^ f.size := by
  have h := Bits.get_foldl (step := writeField s p a (s.readReg a) w) (word := Written.act) (new := fun f => s.fieldActs p a w f)
    (fun o f => writeField_act s p a _ w o f) hr hf ⟨s.raw a, 0#64, []⟩
  have hzero : Bits.get 0#64 f.lo f.size = 0 := by simp [Bits.get]
  rw [hzero] at h
  exact h

end

/-! ### The register at an address -/

/-- The fields of the register at `a`. -/
def regFields (a : Nat) : List FSpec := match regAt a with | some (_, _, r, _) => r.fields | none => []

/-- R52, R578: no field of the register at `a`, beside those that a page lock holds, behaves as read-only. -/
def State.Unfrozen (s : State) (a : Nat) : Prop := ∀ p b r c f, regAt a = some (p, b, r, c) → f.acc ≠ .rwl → s.fieldFrozen p a f = false

/-- The register at `a` lies in no page with rules of its own about frozen fields, and is no PAGE_CTRL. -/
def neverFrozen (a : Nat) : Bool :=
  (match regAt a with | some (p, _, _, _) => decide (p.base ≠ P.SCREE ∧ p.base ≠ P.SYSCFG ∧ p.base ≠ P.WDOG) | none => false) &&
    decide (a ≠ R.PAGE_CTRL (pageBase a))

theorem State.unfrozen_of_page (s : State) {a : Nat} (h : neverFrozen a = true) : s.Unfrozen a := by
  intro p b r c f hreg hacc
  simp only [neverFrozen, hreg, Bool.and_eq_true, decide_eq_true_eq] at h
  obtain ⟨⟨hscree, hsyscfg, hwdog⟩, hctrl⟩ := h
  simp [State.fieldFrozen, hacc, hscree, hsyscfg, hwdog, hctrl]

/-- R578: while Scree is permitted its registers are as the others. -/
theorem State.unfrozen_of_permitted {s : State} {a : Nat} (hs : s.screePermitted = true) (hbase : (regAt a).map (fun x => x.1.base) = some P.SCREE)
    (hctrl : a ≠ R.PAGE_CTRL (pageBase a)) : s.Unfrozen a := by
  intro p b r c f hreg hacc
  rw [hreg] at hbase
  have hp : p.base = P.SCREE := Option.some.inj hbase
  have hsyscfg : P.SCREE ≠ P.SYSCFG := by decide
  have hwdog : P.SCREE ≠ P.WDOG := by decide
  simp [State.fieldFrozen, hacc, hp, hsyscfg, hwdog, hctrl, hs]

/-- `f` is a field of the register at `x.reg` with this access code, its fields are sound, and a clamp event does not write it. -/
def Fld.isOf (x : Fld) (f : FSpec) : Bool :=
  (regFields x.reg).contains f && soundFields (regFields x.reg) && decide (f.lo = x.lo ∧ f.size = x.width ∧ x.reg ∉ logRegs (pageBase x.reg))

theorem State.storeReg_spec {s : State} {ni : Nat} {x : Fld} {v : DWord} {f : FSpec} (hx : x.isOf f = true) :
    ∃ p b r c, regAt x.reg = some (p, b, r, c) ∧
      (s.storeReg ni x.reg v).1.fld x = s.fieldStored p x.reg v f (s.fld x) % 2 ^ x.width ∧
      x.of (s.storeReg ni x.reg v).2 = s.fieldActs p x.reg v f 0 % 2 ^ x.width := by
  simp only [Fld.isOf, Bool.and_eq_true, decide_eq_true_eq, List.contains_iff_mem] at hx
  obtain ⟨⟨hmem, hsound⟩, hlo, hsize, hlog⟩ := hx
  unfold regFields at hmem hsound
  unfold State.storeReg
  cases hreg : regAt x.reg with
  | none => rw [hreg] at hmem; cases hmem
  | some y =>
    obtain ⟨p, b, r, c⟩ := y
    rw [hreg] at hmem hsound
    refine ⟨p, b, r, c, rfl, ?_, ?_⟩
    · have hkeep : KeepsRegs (s.setReg x.reg (writeWord s p r x.reg v).word)
          ((s.setReg x.reg (writeWord s p r x.reg v).word).logWrite ni x.reg v (writeWord s p r x.reg v).clamps) (logRegs (pageBase x.reg)) :=
        (KeepsRegs.refl _ _).logWrite fun _ h => h
      dsimp only
      rw [hkeep.fld hlog, State.fld_setReg_same, ← hlo, ← hsize, get_writeWord hsound hmem]
      simp [State.fld, hlo, hsize]
    · have hact := get_writeWord_act (s := s) (p := p) (a := x.reg) (w := v) hsound hmem
      dsimp only
      rw [Fld.of, ← hlo, ← hsize, hact]

/-! ### Fields by access code -/

theorem Bits.get_mod (w : DWord) (lo width : Nat) : Bits.get w lo width % 2 ^ width = Bits.get w lo width := Nat.mod_eq_of_lt (Bits.get_lt w lo width)

/-- A field that the register shows is as it was. -/
def Fld.shown (x : Fld) : Bool := (regFields x.reg).any (fun f => x.isOf f && decide (f.acc = .ro ∨ f.acc = .rc ∨ f.acc = .wo))
/-- A field that any write stores. -/
def Fld.plain (x : Fld) : Bool := (regFields x.reg).any (fun f => x.isOf f && decide (f.acc = .rw ∧ f.legal = .any))
/-- A field that any write acts on. -/
def Fld.acting (x : Fld) : Bool := (regFields x.reg).any (fun f => x.isOf f && decide (f.acc = .wo ∧ f.legal = .any))

section
variable {s : State} (ni : Nat) {x : Fld} (v : DWord)

theorem State.fld_storeReg_shown (hx : x.shown = true) : (s.storeReg ni x.reg v).1.fld x = s.fld x := by
  obtain ⟨f, -, hf⟩ := List.any_eq_true.1 hx
  simp only [Bool.and_eq_true, decide_eq_true_eq] at hf
  obtain ⟨p, b, r, c, -, hstored, -⟩ := State.storeReg_spec (s := s) (ni := ni) (v := v) hf.1
  have hold : s.fieldStored p x.reg v f (s.fld x) = s.fld x := by
    unfold State.fieldStored
    rcases hf.2 with h | h | h <;> rw [h] <;> exact ite_self _
  rw [hstored, hold]
  exact Bits.get_mod _ _ _

variable (hfree : s.Unfrozen x.reg)
include hfree

theorem State.fld_storeReg_plain (hx : x.plain = true) : (s.storeReg ni x.reg v).1.fld x = x.of v := by
  obtain ⟨f, -, hf⟩ := List.any_eq_true.1 hx
  simp only [Bool.and_eq_true, decide_eq_true_eq] at hf
  obtain ⟨hof, hacc, hlegal⟩ := hf
  obtain ⟨p, b, r, c, hreg, hstored, -⟩ := State.storeReg_spec (s := s) (ni := ni) (v := v) hof
  simp only [Fld.isOf, Bool.and_eq_true, decide_eq_true_eq] at hof
  obtain ⟨-, hlo, hsize, -⟩ := hof
  have hnew : s.fieldStored p x.reg v f (s.fld x) = x.of v := by
    simp [State.fieldStored, hfree p b r c f hreg (by simp [hacc]), hacc, legalize, hlegal, Legalized.ok, Fld.of, hlo, hsize]
  rw [hstored, hnew]
  exact Bits.get_mod _ _ _

theorem State.of_storeReg_acting (hx : x.acting = true) : x.of (s.storeReg ni x.reg v).2 = x.of v := by
  obtain ⟨f, -, hf⟩ := List.any_eq_true.1 hx
  simp only [Bool.and_eq_true, decide_eq_true_eq] at hf
  obtain ⟨hof, hacc, hlegal⟩ := hf
  obtain ⟨p, b, r, c, hreg, -, hacts⟩ := State.storeReg_spec (s := s) (ni := ni) (v := v) hof
  simp only [Fld.isOf, Bool.and_eq_true, decide_eq_true_eq] at hof
  obtain ⟨-, hlo, hsize, -⟩ := hof
  have hnew : s.fieldActs p x.reg v f 0 = x.of v := by
    simp [State.fieldActs, hfree p b r c f hreg (by simp [hacc]), hacc, legalize, hlegal, Legalized.ok, Fld.of, hlo, hsize]
  rw [hacts, hnew]
  exact Bits.get_mod _ _ _

end

end Sys2Proof.Machine
end

section
/-! A fault that Belay signals (R571, R572, R574): what the notices and the log entry leave, register by register. -/
namespace Sys2Proof.Machine

/-! ### The notices -/

/-- R571: the state in which a fault has been classed, answered and counted, and its log entry is due. -/
def State.noticed (s : State) (f : FaultInput) : State := (s.answered (s.taken f)).countSignalled f.cls

/-- The registers that the notices of a fault change. -/
def noticeRegs : List Nat := [R.BELAY_PEND, R.BELAY_STAT, R.BELAY_SIGNALLED, R.TETHER_ATTN, R.EVT_RAW P.BELAY]

/-- The registers that hold the copy of the log entry. -/
def lastRegs : List Nat := (List.range 8).map R.BELAY_LAST

section
variable (s : State) (f : FaultInput)

theorem State.signal_noticed (htest : s.belay.test = none) :
    s.signal f = ((s.noticed f).logEntry (s.taken f)).react f.source (s.reactionOf (s.taken f)) := by
  rw [State.signal, htest]
  rfl

theorem State.answered_rest : s.answered f = { s with regs := (s.answered f).regs, belay := (s.answered f).belay } := by
  unfold State.answered
  split
  · rfl
  · split <;> rfl

theorem State.noticed_rest : s.noticed f = { s with regs := (s.noticed f).regs, belay := (s.noticed f).belay, tether := (s.noticed f).tether } := by
  have hcounted (u : State) (cls : Nat) :
      u.countSignalled cls = { u with regs := (u.countSignalled cls).regs, tether := (u.countSignalled cls).tether } := by
    rw [State.countSignalled, State.bumpSat_rest]
    rfl
  rw [State.noticed, hcounted, State.answered_rest]

theorem State.noticed_belay : (s.noticed f).belay = (s.answered (s.taken f)).belay := by
  rw [State.noticed, State.countSignalled, State.bumpSat_rest]
  rfl

theorem State.noticed_keepsRegs : KeepsRegs s (s.noticed f) noticeRegs := by
  have hpend : KeepsRegs s (s.pended (s.taken f)) noticeRegs := (KeepsRegs.refl s _).setReg (a := R.BELAY_PEND) (by decide)
  have hanswered : KeepsRegs s (s.answered (s.taken f)) noticeRegs := hpend.trans ((s.answered_keepsRegs (s.taken f)).mono (by decide))
  exact (((hanswered.bumpSat (by decide) (by decide)).setReg (a := R.TETHER_ATTN) (by decide)).of_regs rfl).raise (by decide)

theorem State.noticed_event : (s.noticed f).event P.BELAY E.BELAY_SIGNALLED = true := State.event_raise _ _ _ (by decide)

end

/-! ### The copy of the entry -/

theorem State.raw_copyLast (s : State) (e : List Byte) (n : Fin 8) :
    (s.copyLast e).raw (R.BELAY_LAST n.val) = BitVec.ofNat 64 (leNat (slice (4 * n.val) 4 e)) := by
  have hcopied (m : Nat) : n.val < m → (forEach m (fun n t => t.setReg (R.BELAY_LAST n) (BitVec.ofNat 64 (leNat (slice (4 * n) 4 e)))) s).raw
      (R.BELAY_LAST n.val) = BitVec.ofNat 64 (leNat (slice (4 * n.val) 4 e)) := by
    induction m with
    | zero => exact fun h => absurd h (Nat.not_lt_zero _)
    | succ m ih =>
      intro h
      rw [forEach_succ, State.raw_setReg]
      split
      case isTrue heq => rw [show n.val = m by simp only [R.BELAY_LAST] at heq; omega]
      case isFalse hne => exact ih (Nat.lt_of_le_of_ne (Nat.le_of_lt_succ h) fun hm => hne (congrArg R.BELAY_LAST hm))
  exact hcopied 8 n.isLt

/-- A log entry says the same while its registers keep what they hold. -/
theorem KeepsRegs.logBytes {s t : State} {l : List Nat} (h : KeepsRegs s t l) {f : FaultInput} (hsource : f.source < 32)
    (hl : ∀ a ∈ [R.SCREE_CTRL, R.BELAY_REACT 0, R.BELAY_REACT 1, R.BELAY_STAT, R.RTC_COUNT, R.REED_NOW], a ∉ l) (seq : Nat) (valid : Bool) :
    t.logBytes f seq valid = s.logBytes f seq valid := by
  have hreact : t.fld (F.BELAY_REACT_REACT f.source) = s.fld (F.BELAY_REACT_REACT f.source) := by
    refine h.fld (hl _ ?_)
    change R.BELAY_REACT (f.source / 16) ∈ _
    have hword : f.source / 16 = 0 ∨ f.source / 16 = 1 := by omega
    rcases hword with hword | hword <;> rw [hword] <;> decide
  have hfull : t.flag F.SCREE_CTRL_FULL_REACT = s.flag F.SCREE_CTRL_FULL_REACT := h.flag (hl _ (by decide))
  have hguarantee : t.flag F.BELAY_STAT_GUARANTEE = s.flag F.BELAY_STAT_GUARANTEE := h.flag (hl _ (by decide))
  have hticks : t.fld F.RTC_COUNT_TICKS = s.fld F.RTC_COUNT_TICKS := h.fld (hl _ (by decide))
  have hphase : t.fld F.REED_NOW_PHASE = s.fld F.REED_NOW_PHASE := h.fld (hl _ (by decide))
  rw [State.logBytes, State.logBytes, State.reactionOf, State.reactionOf, hreact, hfull, hguarantee, hticks, hphase]

end Sys2Proof.Machine
end

section
/-! A log entry that falls due once the MRAMC is closed (R585, R286). -/
namespace Sys2Proof.Machine

/-- R574: the entry, next in order, stands in BELAY_LAST_n. -/
def State.entered (s : State) (f : FaultInput) : State :=
  ({ s with belay := { s.belay with seq := s.belay.seq + 1 } } : State).copyLast (s.logBytes f (s.belay.seq + 1) true)

section
variable (s : State) (f : FaultInput)

theorem State.entered_keepsRegs : KeepsRegs s (s.entered f) lastRegs := ((KeepsRegs.refl s _).of_regs rfl).trans (State.copyLast_keepsRegs _ _)

theorem State.entered_rest : s.entered f = { s with regs := (s.entered f).regs, belay := { s.belay with seq := s.belay.seq + 1 } } :=
  State.copyLast_rest _ _

end

/-- What a log entry does then: the entry goes to BELAY_LAST_n, NEXT goes on, and the entry is lost to the log. -/
theorem State.logEntry_closed {s : State} (f : FaultInput) (hlog : s.flag F.BELAY_LOG_CTRL_EN = true) (hclosed : s.power.mramClosed = true) :
    s.logEntry f = ((s.entered f).setFld F.BELAY_LOG_POS_NEXT
      (((s.entered f).fld F.BELAY_LOG_POS_NEXT % 2 ^ (s.entered f).fld F.BELAY_LOG_CTRL_ORDER + 1) %
        2 ^ (s.entered f).fld F.BELAY_LOG_CTRL_ORDER)).logLost := by
  have hflag : (s.entered f).flag F.BELAY_LOG_CTRL_EN = true := ((s.entered_keepsRegs f).flag (by decide)).trans hlog
  have hpower : (s.entered f).power.mramClosed = true := by
    rw [State.entered_rest]
    exact hclosed
  obtain ⟨u, hu⟩ : ∃ u, u = s.entered f := ⟨_, rfl⟩
  rw [← hu] at hflag hpower ⊢
  rw [State.entered] at hu
  rw [State.logEntry, ← hu, if_neg (by rw [hflag]; decide)]
  refine if_pos ?_
  rw [Bool.or_eq_true]
  exact Or.inl hpower

theorem State.setFld_logLost_rest (s : State) (x : Fld) (k : Nat) : (s.setFld x k).logLost = { s with regs := ((s.setFld x k).logLost).regs } := by
  rw [State.logLost, State.bumpSat_rest]
  rfl

/-- The state after such an entry: nothing of memory changes, the loss is counted and raised, and BELAY_LAST_n holds the entry. -/
theorem State.logEntry_closed_effect {s : State} {f : FaultInput} (hsource : f.source < 32) (hlog : s.flag F.BELAY_LOG_CTRL_EN = true)
    (hclosed : s.power.mramClosed = true) : ∃ t, s.logEntry f = t ∧ t.mem = s.mem ∧ t.memory = s.memory ∧
      t.fld F.BELAY_LOG_POS_LOST = min 32767 (s.fld F.BELAY_LOG_POS_LOST + 1) ∧ t.event P.BELAY E.BELAY_LOG_LOST = true ∧
      t.belay.seq = s.belay.seq + 1 ∧
      ∀ n : Fin 8, t.raw (R.BELAY_LAST n.val) = BitVec.ofNat 64 (leNat (slice (4 * n.val) 4 (t.logBytes f t.belay.seq true))) := by
  have hcopied := s.entered_keepsRegs f
  have hentered := s.entered_rest f
  obtain ⟨k, hentry⟩ : ∃ k, s.logEntry f = ((s.entered f).setFld F.BELAY_LOG_POS_NEXT k).logLost := ⟨_, State.logEntry_closed f hlog hclosed⟩
  have hrest : ((s.entered f).setFld F.BELAY_LOG_POS_NEXT k).logLost =
      { s.entered f with regs := (((s.entered f).setFld F.BELAY_LOG_POS_NEXT k).logLost).regs } := State.setFld_logLost_rest _ _ _
  have hlost : KeepsRegs (s.entered f) (((s.entered f).setFld F.BELAY_LOG_POS_NEXT k).logLost) [R.BELAY_LOG_POS, R.EVT_RAW P.BELAY] :=
    (((KeepsRegs.refl _ _).setFld (by decide)).bumpSat (by decide) (by decide)).raise (by decide)
  have hall := (hcopied.mono (m := lastRegs ++ [R.BELAY_LOG_POS, R.EVT_RAW P.BELAY]) (by decide)).trans (hlost.mono (by decide))
  have hseq : (((s.entered f).setFld F.BELAY_LOG_POS_NEXT k).logLost).belay.seq = s.belay.seq + 1 := by rw [hrest, hentered]
  refine ⟨_, hentry, ?_, ?_, ?_, State.event_raise _ _ _ (by decide), hseq, fun n => ?_⟩
  · rw [hrest, hentered]
  · rw [hrest, hentered]
  · rw [State.logLost, State.fld_raise_ne _ _ _ _ (by decide), State.fld_bumpSat _ (by decide) (by decide), State.fld_setFld_ne _ _ _ _ (by decide),
      hcopied.fld (by decide)]
    rfl
  · have hkept : R.BELAY_LAST n.val ∉ [R.BELAY_LOG_POS, R.EVT_RAW P.BELAY] := by
      revert n
      decide
    rw [hseq, hall.logBytes hsource (by decide), hlost _ hkept, State.entered, State.raw_copyLast]

/-- Settles O60: the entry of the fault is due while the MRAMC is closed, and the notices before it change none of what it reads. -/
theorem logEntryAfterMramClosesIsLost : Obligations.LogEntryAfterMramClosesIsLost := by
  intro s src soft unit addr detail hsrc hrails htest hlog hclosed
  obtain ⟨f, hf⟩ : ∃ f : FaultInput, f = ⟨src.val, if src.val = 7 ∧ soft = true then 2 else sourceClass src.val, unit.toNat, addr.toNat, detail.toNat, false⟩ :=
    ⟨_, rfl⟩
  have hsource : (s.taken f).source < 32 := by
    rw [hf]
    exact Nat.lt_trans src.isLt (by decide)
  have hnoticed := s.noticed_keepsRegs f
  have hpower : (s.noticed f).power = s.power := by rw [State.noticed_rest]
  obtain ⟨u, hu, hmem, hmemory, hlost, hevent, hseq, hlast⟩ := State.logEntry_closed_effect (s := s.noticed f) hsource
    ((hnoticed.flag (by decide)).trans hlog) (by rw [hpower, hclosed])
  have hexec : exec (.faultSignal src soft unit addr detail) s = .next (u.react f.source (s.reactionOf (s.taken f))) := by
    have hruns : ¬ (src.val = 0 ∨ (! s.railsOn) = true) := by simp [hsrc, hrails]
    refine congrArg Host.Outcome.next ((if_neg hruns).trans ?_)
    rw [← hu, ← State.signal_noticed s f htest, hf]
  have hregs := State.regs_react u f.source (s.reactionOf (s.taken f))
  have hreacted : KeepsRegs u (u.react f.source (s.reactionOf (s.taken f))) [] := (KeepsRegs.refl u _).of_regs hregs
  have hseqReact : (u.react f.source (s.reactionOf (s.taken f))).belay.seq = u.belay.seq := by
    unfold State.react
    split
    · rfl
    · split
      · split <;> rfl
      · rfl
  have hold : (s.noticed f).belay.seq = s.belay.seq := by
    rw [State.noticed_belay]
    unfold State.answered
    split
    · rfl
    · split <;> rfl
  refine ⟨_, hexec, ?_, ?_, ?_, (hreacted.event _ (by decide)).trans hevent, fun n => ?_, ?_⟩
  · rw [State.mem_react, hmem, State.noticed_rest]
  · rw [State.memory_react, hmemory, State.noticed_rest]
  · rw [hreacted.fld (by decide), hlost, hnoticed.fld (by decide)]
  · have hentry : s.taken f = ⟨src.val, if src.val = 7 ∧ soft = true then 2 else sourceClass src.val, unit.toNat, addr.toNat, detail.toNat,
        s.perturbed⟩ := by
      rw [State.taken, hf, Bool.false_or]
    rw [hreacted _ (by simp), hlast, hseqReact, ← hentry, hreacted.logBytes hsource (by simp)]
  · rw [hseqReact, hseq, hold]

end Sys2Proof.Machine
end

section
/-! A fault signalled while no log is copied to MRAM and its reaction is SIGNAL (R571 to R574): the whole of what it leaves. -/
namespace Sys2Proof.Machine

section
variable {s : State} {f : FaultInput} (htest : s.belay.test = none) (hlog : s.flag F.BELAY_LOG_CTRL_EN = false)
  (hreact : s.reactionOf (s.taken f) = 0)
include htest hlog hreact

/-- The notices, and the entry in BELAY_LAST_n. -/
theorem State.signal_unreacted : s.signal f = (s.noticed f).entered (s.taken f) := by
  have hoff : (s.noticed f).flag F.BELAY_LOG_CTRL_EN = false := ((s.noticed_keepsRegs f).flag (by decide)).trans hlog
  rw [State.signal_noticed s f htest, hreact, State.logEntry_off _ _ hoff]
  rfl

theorem State.signal_unreacted_keepsRegs : KeepsRegs s (s.signal f) (noticeRegs ++ lastRegs) := by
  rw [State.signal_unreacted htest hlog hreact]
  exact (KeepsRegs.mono (s.noticed_keepsRegs f) (by decide)).trans (KeepsRegs.mono ((s.noticed f).entered_keepsRegs _) (by decide))

theorem State.signal_unreacted_rest : s.signal f = { s with regs := (s.signal f).regs, belay := (s.signal f).belay, tether := (s.signal f).tether } := by
  obtain ⟨t, ht⟩ : ∃ t, t = s.signal f := ⟨_, rfl⟩
  have hentered : t = { s.noticed f with regs := t.regs, belay := t.belay } := by
    rw [ht, State.signal_unreacted htest hlog hreact, State.entered_rest]
  have hnoticed := s.noticed_rest f
  rw [← ht, hentered, hnoticed]

end

end Sys2Proof.Machine
end

section
/-! Fields with a legal set (R42, R43): a write of a legal value is stored, or acted on, as it is. -/
namespace Sys2Proof.Machine

/-- The value of a field `f` of the set `l` that the set holds, whatever else the register or the write holds. -/
def Legal.takes (l : Legal) (width v : Nat) : Bool :=
  match l with
  | .any => true
  | .clamp lo hi => decide (lo ≤ v ∧ v ≤ hi)
  | .sclamp lo hi => decide (lo ≤ sext width v ∧ sext width v ≤ hi)
  | .codes cs => cs.contains v
  | _ => false

theorem legalize_taken {s : State} {a v : Nat} {f : FSpec} {w : DWord} (h : f.legal.takes f.size v = true) : legalize s a f v w = .ok v := by
  unfold legalize
  cases hlegal : f.legal with
  | any => rfl
  | clamp lo hi =>
    simp only [hlegal, Legal.takes, decide_eq_true_eq] at h
    dsimp only
    rw [clampRange, if_neg (by omega), if_neg (by omega)]
  | sclamp lo hi =>
    simp only [hlegal, Legal.takes, decide_eq_true_eq] at h
    obtain ⟨hlo, hhi⟩ := h
    dsimp only
    exact (if_neg (Int.not_lt.2 hlo)).trans (if_neg (Int.not_lt.2 hhi))
  | codes cs =>
    simp only [hlegal, Legal.takes] at h
    exact if_pos h
  | clampStep | clampPow2 | dyn => simp [hlegal, Legal.takes] at h

/-- `x` is a field of this access code and this legal set. -/
def Fld.hasLegal (x : Fld) (acc : Acc) (l : Legal) : Bool := (regFields x.reg).any fun f => x.isOf f && decide (f.acc = acc ∧ f.legal = l)

section
variable {s : State} (ni : Nat) {x : Fld} {v : DWord} {l : Legal} (hfree : s.Unfrozen x.reg) (htaken : l.takes x.width (x.of v) = true)
include hfree htaken

theorem State.fld_storeReg_legal (hx : x.hasLegal .rw l = true) : (s.storeReg ni x.reg v).1.fld x = x.of v := by
  obtain ⟨f, -, hf⟩ := List.any_eq_true.1 hx
  simp only [Bool.and_eq_true, decide_eq_true_eq] at hf
  obtain ⟨hof, hacc, hlegal⟩ := hf
  obtain ⟨p, b, r, c, hreg, hstored, -⟩ := State.storeReg_spec (s := s) (ni := ni) (v := v) hof
  simp only [Fld.isOf, Bool.and_eq_true, decide_eq_true_eq] at hof
  obtain ⟨-, hlo, hsize, -⟩ := hof
  have hok : legalize s x.reg f (x.of v) v = .ok (x.of v) := legalize_taken (by rw [hlegal, hsize]; exact htaken)
  have hnew : s.fieldStored p x.reg v f (s.fld x) = x.of v := by
    rw [State.fieldStored, hfree p b r c f hreg (by simp [hacc]), hacc, hlo, hsize]
    exact congrArg (fun y : Legalized => y.val.getD _) hok
  rw [hstored, hnew]
  exact Bits.get_mod _ _ _

theorem State.of_storeReg_legal (hx : x.hasLegal .wo l = true) : x.of (s.storeReg ni x.reg v).2 = x.of v := by
  obtain ⟨f, -, hf⟩ := List.any_eq_true.1 hx
  simp only [Bool.and_eq_true, decide_eq_true_eq] at hf
  obtain ⟨hof, hacc, hlegal⟩ := hf
  obtain ⟨p, b, r, c, hreg, -, hacts⟩ := State.storeReg_spec (s := s) (ni := ni) (v := v) hof
  simp only [Fld.isOf, Bool.and_eq_true, decide_eq_true_eq] at hof
  obtain ⟨-, hlo, hsize, -⟩ := hof
  have hok : legalize s x.reg f (x.of v) v = .ok (x.of v) := legalize_taken (by rw [hlegal, hsize]; exact htaken)
  have hnew : s.fieldActs p x.reg v f 0 = x.of v := by
    rw [State.fieldActs, hfree p b r c f hreg (by simp [hacc]), hacc, hlo, hsize]
    exact congrArg (fun y : Legalized => y.val.getD _) hok
  rw [hacts, hnew]
  exact Bits.get_mod _ _ _

end

end Sys2Proof.Machine
end

section
/-! A write to a page that is open to it (R48, R59). -/
namespace Sys2Proof.Machine

/-- `a` is an address of the page at `p`, and both need the same privilege. -/
def inPage (a p : Nat) : Bool := pageListed a && (pageMachine a == pageMachine p) && (pageBase a == p)

/-- Such a write acts at once. -/
theorem State.gate_inPage {s : State} {q : Req} {a p : Nat} (size : Size) (v : DWord) (op : State → State) (hopen : OpenTo s q p) (ha : inPage a p = true) :
    s.gateWrite q a size v op = op (s.respond false 0#64) := by
  obtain ⟨hpriv, hrun⟩ := hopen
  simp only [inPage, Bool.and_eq_true, beq_iff_eq] at ha
  obtain ⟨⟨hlisted, hmachine⟩, hpage⟩ := ha
  exact s.gate_open q a size v op hlisted (hmachine ▸ hpriv) (hpage ▸ hrun)

end Sys2Proof.Machine
end

section
/-! Heddle: when an item starts or ends, the entry of its channel becomes the most recently used of the channel cache (R390). The frames that
the clauses of an item's start and end give keep the order of the cache. -/
namespace Sys2Proof.Machine

-- Checked one after another: side by side these evaluations take more memory than the check has.
set_option Elab.async false

/-- A move of eight bytes of base camp, which executes. -/
def baseCampMove : HeddleItem :=
  { HeddleItem.blank 3 1 true none with len := 8, src := 0x01000100, dst := 0x01000200 }

/-- A memory channel of INST 0 whose only item is `it`. -/
def oneItemChannel (it : HeddleItem) : HeddleChannel :=
  { e := { kind := 0, inst := 0, gen := 1, prio := 1, haltOnErr := false, kickAdv := false, cq := 5, prefetch := 0, order := 4,
           base := 0x01001000, port := 0, res := none, ctx := 0 },
    state := 2, head := 3, tail := 4, pending := false, dropping := false, items := [it], waiting := [], out := 0 }

/-- The state after reset, but with Heddle running, INST 0 ACTIVE, and channel 9, with the item `it`, cached behind the idle channel 3. -/
def State.cachedBehind (it : HeddleItem) : State :=
  let s := ((State.reset.setFld (F.PAGE_CTRL_ENABLE P.HEDDLE) 1).setFld (F.PAGE_STAT_ENABLED P.HEDDLE) 1).setFld (instStateF 0) 1
  { s with heddle := { HeddleState.reset with ch := [(9, oneItemChannel it), (3, { oneItemChannel it with state := 1, head := 4, items := [] })], cache := [3, 9] },
           power := { PowerState.reset with heddleStopped := false } }

/-- The start of a prefetched item of channel 9 moves the channel to the front of the cache. -/
theorem itemFetch_reorders_cache :
    ∃ t, exec (.itemFetch 9) (State.cachedBehind { baseCampMove with running := false }) = .next t ∧ t.heddle.cache = [9, 3] :=
  ⟨_, rfl, by decide +kernel⟩

/-- Refutes O29: the clause of a prefetched item's start says that Heddle changes but in its channels, and in `State.cachedBehind` the order of
the channel cache changes. -/
theorem not_heddleDoorbellsFetchesAndMoves : ¬ Obligations.HeddleDoorbellsFetchesAndMoves := by
  unfold Obligations.HeddleDoorbellsFetchesAndMoves
  intro h
  obtain ⟨-, -, -, -, -, -, -, -, -, -, -, hstart, -⟩ := h
  obtain ⟨t, ht, -, ⟨-, hheddle⟩, -⟩ := hstart (State.cachedBehind { baseCampMove with running := false }) 9
    (oneItemChannel { baseCampMove with running := false }) { baseCampMove with running := false } (by decide +kernel) (by decide +kernel) rfl
    rfl rfl (by decide)
  obtain ⟨u, hu, hcache⟩ := itemFetch_reorders_cache
  rw [ht] at hu
  injection hu with hu
  subst hu
  rw [hheddle] at hcache
  cases hcache

/-- The end of the item of channel 9 moves the channel to the front of the cache. -/
theorem itemEnd_reorders_cache :
    ∃ t, exec (.itemEnd 9) (State.cachedBehind { baseCampMove with status := some (0, 0) }) = .next t ∧ t.heddle.cache = [9, 3] :=
  ⟨_, rfl, by decide +kernel⟩

/-- Refutes O30: the clause of an item's end without a record says that Heddle changes but in its channels, queues and transactions, and in
`State.cachedBehind` the order of the channel cache changes. -/
theorem not_heddleItemEndsRecordsAndInvalidations : ¬ Obligations.HeddleItemEndsRecordsAndInvalidations := by
  unfold Obligations.HeddleItemEndsRecordsAndInvalidations
  intro h
  obtain ⟨hend, -⟩ := h
  obtain ⟨t, ht, -, ⟨-, hheddle⟩, -⟩ := hend (State.cachedBehind { baseCampMove with status := some (0, 0) }) 9
    (oneItemChannel { baseCampMove with status := some (0, 0) }) { baseCampMove with status := some (0, 0) }
    (by unfold State.LastItem; decide +kernel) rfl
  obtain ⟨u, hu, hcache⟩ := itemEnd_reorders_cache
  rw [ht] at hu
  injection hu with hu
  subst hu
  rw [hheddle] at hcache
  cases hcache
end Sys2Proof.Machine
end

section
/-! Bobbin: what a DECODE item reads may lie in DRAM, and a read of DRAM brings DMC_CHAN_STAT.CBC_DIRTY up to date (R267). The frame of the clause
of a bad header names registers of Bobbin alone, where the clauses of the other errors name DMC_CHAN_STAT too. -/
namespace Sys2Proof.Machine

-- Checked one after another: side by side these evaluations take more memory than the check has.
set_option Elab.async false

/-- A DECODE item of 32 bytes of DRAM. -/
def dramDecode : HeddleItem :=
  { HeddleItem.blank 3 1 true none with op := 1, len := 32, src := 0x80000100, dst := 0x01008000, param := 4096 }

/-- The CODEC channel of INST 0 that executes it. -/
def dramDecodeChannel : HeddleChannel :=
  { e := { kind := 5, inst := 0, gen := 1, prio := 1, haltOnErr := false, kickAdv := false, cq := 5, prefetch := 0, order := 4,
           base := 0x01001000, port := 0x90, res := none, ctx := 3 },
    state := 2, head := 3, tail := 4, pending := false, dropping := false, items := [dramDecode], waiting := [], out := 0 }

/-- The state after reset, but with Heddle and Bobbin running, the item due in INST 0, and a dirty check block in the DMC that DMC_CHAN_STAT
does not show yet. -/
def State.decodeOfDram : State :=
  let s := ((State.reset.setFld (F.PAGE_STAT_ENABLED P.HEDDLE) 1).setFld (instStateF 0) 1).setFld (F.PAGE_CTRL_ENABLE P.BOBBIN) 1
  { (s.setFld (F.PAGE_STAT_ENABLED P.BOBBIN) 1).setFld F.L3_CFG_HEDDLE_ALLOC 0 with
    heddle := { HeddleState.reset with
      ch := [(9, dramDecodeChannel)], cache := [9],
      inst := [(0, { gMode := 0, part := 0, prioMax := 3, vmid := 0, root := 0, chBase := 0, chCount := 4096, cqBase := 0, cqCount := 1024,
                     tokens := 64, msgGroups := 65535, resMask := 0, out := 0, late := 0 })] },
    power := { PowerState.reset with heddleStopped := false },
    memory := { MemState.reset with checkBlocks := [⟨checkBlock State.reset 0x80000100, true⟩] } }

/-- The item's header is bad, and its reading sets CBC_DIRTY. -/
theorem decodeOfDram_sets_dirty :
    State.decodeOfDram.flag F.DMC_CHAN_STAT_CBC_DIRTY = false ∧
      ∃ t, exec (.decode 9) State.decodeOfDram = .next t ∧ t.flag F.DMC_CHAN_STAT_CBC_DIRTY = true :=
  ⟨by decide +kernel, _, rfl, by decide +kernel⟩

/-- Refutes O32: the clause of a bad header keeps DMC_CHAN_STAT, and in `State.decodeOfDram` it changes. -/
theorem not_bobbinItemsAndBlocks : ¬ Obligations.BobbinItemsAndBlocks := by
  unfold Obligations.BobbinItemsAndBlocks
  intro h
  obtain ⟨-, -, hbad, -⟩ := h
  obtain ⟨t, ht, -, -, -, -, -, hregs, -⟩ := hbad State.decodeOfDram 9 dramDecodeChannel dramDecode
    (by unfold State.CodecWork State.QuietMemory; decide +kernel) (by decide) (by decide +kernel)
  obtain ⟨hbefore, u, hu, hafter⟩ := decodeOfDram_sets_dirty
  rw [ht] at hu
  injection hu with hu
  subst hu
  rw [hregs.flag (by decide), hbefore] at hafter
  cases hafter

end Sys2Proof.Machine
end
section
/-! ASSIGN with another translation drops the prefetched items of the INST (R404, R407). The frame of its clause names the instances and the
translations of Heddle, and no channel. -/
namespace Sys2Proof.Machine

-- Checked one after another: side by side these evaluations take more memory than the check has.
set_option Elab.async false

/-- The allotment of INST 3. -/
def allotment : HeddleInstance :=
  { gMode := 0, part := 0, prioMax := 0, vmid := 0, root := 0, chBase := 192, chCount := 64, cqBase := 96, cqCount := 32, tokens := 2,
    msgGroups := 0, resMask := 0, out := 0, late := 0 }

/-- A memory channel of INST 3 with one prefetched item. -/
def prefetchedChannel : HeddleChannel :=
  { e := { kind := 0, inst := 3, gen := 1, prio := 0, haltOnErr := false, kickAdv := false, cq := 100, prefetch := 1, order := 4,
           base := 0x01006000, port := 0, res := none, ctx := 0 },
    state := 2, head := 3, tail := 4, pending := false, dropping := false, items := [HeddleItem.blank 3 1 false none], waiting := [], out := 0 }

/-- The entry of `allotment`, but with VMID 7. -/
def allotmentEntry : List Byte :=
  leBytes 8 (1 + 2 ^ 16 * 7) ++ leBytes 8 0 ++ leBytes 8 (192 + 2 ^ 16 * 64 + 2 ^ 32 * 96 + 2 ^ 48 * 32) ++ leBytes 8 2 ++ List.replicate 32 0#8

/-- The state after reset, but with Heddle's manager enabled, INST 3 ACTIVE with its channel 200, and an entry that gives it another VMID. -/
def State.anotherVmid : State :=
  let s := ((State.reset.setFld (F.PAGE_CTRL_ENABLE P.HEDDLE) 1).setFld (F.PAGE_STAT_ENABLED P.HEDDLE) 1).setFld (F.PAGE_CTRL_ENABLE P.HEDDLE_MGMT) 1
  let t := ((s.setFld (F.PAGE_STAT_ENABLED P.HEDDLE_MGMT) 1).setFld F.HEDDLE_MGMT_INST_BASE_ADDR 0x1004).setFld (instStateF 3) 1
  { t.putMem (0x01004000 + 64 * 3) allotmentEntry with
    heddle := { HeddleState.reset with ch := [(200, prefetchedChannel)], inst := [(3, allotment)] },
    power := { State.reset.power with heddleStopped := false } }

/-- The ASSIGN drops the prefetched item. -/
theorem assign_drops_prefetched_item :
    ∃ t, exec (.assign ⟨2, true⟩ 3) State.anotherVmid = .next t ∧ t.heddle.ch = [(200, { prefetchedChannel with items := [] })] :=
  ⟨_, rfl, by decide +kernel⟩

/-- Refutes O31: the clause of ASSIGN says that Heddle's channels stay as they were, and in `State.anotherVmid` one loses its prefetched item. -/
theorem not_instanceCommandsOfTheManager : ¬ Obligations.InstanceCommandsOfTheManager := by
  unfold Obligations.InstanceCommandsOfTheManager
  intro h
  obtain ⟨-, -, -, -, -, -, -, -, hassign, -⟩ := h
  obtain ⟨t, ht, -, -, -, -, -, -, -, hheddle, -⟩ := hassign State.anotherVmid ⟨2, true⟩ 3 { allotment with vmid := 7 } allotment
    (by unfold OpenTo; decide +kernel) (by decide) (by decide +kernel) (by unfold State.QuietMemory; decide +kernel) (by decide +kernel) rfl
    (by decide +kernel) (by decide +kernel) (by decide +kernel)
  obtain ⟨u, hu, hdropped⟩ := assign_drops_prefetched_item
  rw [ht] at hu
  injection hu with hu
  subst hu
  have hkept : State.anotherVmid.heddle.ch = [(200, { prefetchedChannel with items := [] })] := by rw [← hdropped, hheddle]
  exact absurd hkept (by decide +kernel)

end Sys2Proof.Machine
end

section
/-! A Belay log entry that lands in the snapshot range of MRAM (R108, R574): as any write there, it clears PWR_SNAP_CTRL.COMPLETE. The frame of the
clause of a copied log names the pages of Belay and of the tether. -/
namespace Sys2Proof.Machine

-- Checked one after another: side by side these evaluations take more memory than the check has.
set_option Elab.async false

/-- The state after reset, but with no self-test running, the log copied to MRAM at its base, and a snapshot of one page declared there. -/
def State.logInSnapshot : State :=
  let s := ((State.reset.setFld F.BELAY_LOG_CTRL_EN 1).setFld F.PWR_SNAP_CTRL_PAGES 1).setFld F.PWR_SNAP_CTRL_COMPLETE 1
  { s with belay := { s.belay with test := none } }

/-- A fault of source 5, which only signals, takes COMPLETE away. -/
theorem faultSignal_clears_snapshot :
    State.logInSnapshot.flag F.PWR_SNAP_CTRL_COMPLETE = true ∧
      ∃ t, exec (.faultSignal 5 false 0 0 0) State.logInSnapshot = .next t ∧ t.flag F.PWR_SNAP_CTRL_COMPLETE = false :=
  ⟨by decide +kernel, _, rfl, by decide +kernel⟩

/-- Refutes O51: the clause of a copied log keeps the registers of PWR, and in `State.logInSnapshot` PWR_SNAP_CTRL changes. -/
theorem not_faultsAreSignalledLoggedAndReleased : ¬ Obligations.FaultsAreSignalledLoggedAndReleased := by
  unfold Obligations.FaultsAreSignalledLoggedAndReleased
  intro h
  obtain ⟨-, hcopied, -⟩ := h
  obtain ⟨t, ht, -, -, -, -, hpages, -⟩ := hcopied State.logInSnapshot 5 false 0 0 0 0x08000000 (by decide) (by decide +kernel) rfl
    (by decide +kernel) (by decide +kernel) rfl (by decide +kernel) (by decide +kernel) rfl rfl (by decide +kernel) (by decide)
  obtain ⟨hbefore, u, hu, hafter⟩ := faultSignal_clears_snapshot
  rw [ht] at hu
  injection hu with hu
  subst hu
  rw [State.flag, State.fld, hpages _ (by decide), ← State.fld, ← State.flag, hbefore] at hafter
  cases hafter

end Sys2Proof.Machine
end

section
/-! The channels of the USB, the Ethernet MACs and the serial ports, too, may take their bytes from DRAM, and a read of DRAM brings
DMC_CHAN_STAT.CBC_DIRTY up to date (R267). The frames of the clauses of an item that sends name registers of the port alone; those of an item that
receives name DMC_CHAN_STAT too. -/
namespace Sys2Proof.Machine

-- Checked one after another: side by side these evaluations take more memory than the check has.
set_option Elab.async false

/-- An item that sends `len` bytes of DRAM. -/
def dramItem (len param : Nat) : HeddleItem :=
  { HeddleItem.blank 3 1 true none with len := len, src := 0x80000100, dst := 0x01008000, param := param }

/-- The channel of INST 0 of a kind and a port that executes an item. -/
def portChannel (kind port : Nat) (it : HeddleItem) : HeddleChannel :=
  { e := { kind := kind, inst := 0, gen := 1, prio := 1, haltOnErr := false, kickAdv := false, cq := 5, prefetch := 0, order := 4,
           base := 0x01001000, port := port, res := none, ctx := 0 },
    state := 2, head := 3, tail := 4, pending := false, dropping := false, items := [it], waiting := [], out := 0 }

/-- A page is enabled and runs. -/
def State.runPage (s : State) (p : Nat) : State := (s.setFld (F.PAGE_CTRL_ENABLE p) 1).setFld (F.PAGE_STAT_ENABLED p) 1

/-- The state after reset, but with Heddle and some pages running, one item due on channel 9 of a kind and a port, and a dirty check block in the
DMC that DMC_CHAN_STAT does not show yet. -/
def State.sendsDram (pages : List Nat) (kind port : Nat) (it : HeddleItem) : State :=
  let s := ((State.reset.setFld (F.PAGE_STAT_ENABLED P.HEDDLE) 1).setFld (instStateF 0) 1).setFld F.L3_CFG_HEDDLE_ALLOC 0
  { pages.foldl State.runPage s with
    heddle := { HeddleState.reset with
      ch := [(9, portChannel kind port it)], cache := [9],
      inst := [(0, { gMode := 0, part := 0, prioMax := 3, vmid := 0, root := 0, chBase := 0, chCount := 4096, cqBase := 0, cqCount := 1024,
                     tokens := 64, msgGroups := 65535, resMask := 0, out := 0, late := 0 })] },
    power := { PowerState.reset with heddleStopped := false },
    memory := { MemState.reset with checkBlocks := [⟨checkBlock State.reset 0x80000100, true⟩] } }

/-- The USB host with the item on bulk OUT pipe 1 of hub port 1: at high speed, or through the port's translator at full speed (R462). -/
def State.hostSends (split : Bool) : State :=
  let s := State.sendsDram [P.USBH, P.USBHUB] 7 0x41 (dramItem 8 0)
  let cfg := 5 + 2 ^ 7 * 2 + 2 ^ 12 * 2 + 2 ^ 14 * (if split then 1 else 0) + 2 ^ 16 * (if split then 64 else 512) + 2 ^ 27 + 2 ^ 31 + 2 ^ 48
  let t := ((s.setReg (R.USBH_PIPE_CFG 1) (BitVec.ofNat 64 cfg)).setFld F.USBH_CTRL_RUN 1).setReg (R.USBHUB_PORT 0) 0x103#64
  t.setPipe 1 { UsbPipe.idle with split := split }

/-- The packet goes out, and its reading sets CBC_DIRTY. -/
theorem hostSends_data_sets_dirty :
    (State.hostSends false).flag F.DMC_CHAN_STAT_CBC_DIRTY = false ∧
      ∃ t, exec (.data 1 .ack) (State.hostSends false) = .next t ∧ t.flag F.DMC_CHAN_STAT_CBC_DIRTY = true :=
  ⟨by decide +kernel, _, rfl, by decide +kernel⟩

/-- Refutes O33: the clause of the last OUT packet keeps DMC_CHAN_STAT, and in `State.hostSends` it changes. -/
theorem not_usbHostPacketsAndControlStages : ¬ Obligations.UsbHostPacketsAndControlStages := by
  unfold Obligations.UsbHostPacketsAndControlStages
  intro h
  obtain ⟨hout, -⟩ := h
  obtain ⟨t, ht, -, -, -, -, -, -, hregs, -⟩ := hout (State.hostSends false) 1 9 (portChannel 7 0x41 (dramItem 8 0)) (dramItem 8 0) (by decide)
    (by unfold State.PipeTurn State.PortWork; decide +kernel) (by decide +kernel) (by decide +kernel) (by decide) (by decide +kernel) (by decide)
    (by unfold State.PlainRange State.QuietMemory; decide +kernel)
  obtain ⟨hbefore, u, hu, hafter⟩ := hostSends_data_sets_dirty
  rw [ht] at hu
  injection hu with hu
  subst hu
  rw [hregs.flag (by decide), hbefore] at hafter
  cases hafter

/-- The complete-split finds its start-split acknowledged; the packet's reading sets CBC_DIRTY. -/
theorem hostSends_split_sets_dirty :
    (State.hostSends true).flag F.DMC_CHAN_STAT_CBC_DIRTY = false ∧
      ∃ t, exec (.splitTransaction 1 true (some .ack)) (State.hostSends true) = .next t ∧ t.flag F.DMC_CHAN_STAT_CBC_DIRTY = true :=
  ⟨by decide +kernel, _, rfl, by decide +kernel⟩

/-- Refutes O34: the clause of the complete-split that brings ACK keeps DMC_CHAN_STAT, and in `State.hostSends` it changes. -/
theorem not_usbHostScheduleAndSplitTransactions : ¬ Obligations.UsbHostScheduleAndSplitTransactions := by
  unfold Obligations.UsbHostScheduleAndSplitTransactions
  intro h
  obtain ⟨-, -, -, -, -, -, -, -, -, -, -, -, -, hsplit⟩ := h
  obtain ⟨t, ht, -, -, -, -, -, hregs, -⟩ := hsplit (State.hostSends true) 1 9 (portChannel 7 0x41 (dramItem 8 0)) (dramItem 8 0)
    (by unfold State.PortWork; decide +kernel) (by decide +kernel) (by decide +kernel) (by decide +kernel) rfl rfl (by decide +kernel)
    (by decide +kernel) (by decide +kernel) (by decide +kernel) (by decide +kernel) (by decide) (by decide +kernel)
    (by unfold State.PlainRange State.QuietMemory; decide +kernel)
  obtain ⟨hbefore, u, hu, hafter⟩ := hostSends_split_sets_dirty
  rw [ht] at hu
  injection hu with hu
  subst hu
  rw [hregs.flag (by decide), hbefore] at hafter
  cases hafter

/-- The service port, attached, with the item on IN endpoint 2. -/
def State.serviceSends : State :=
  let s := State.sendsDram [P.USBD] 7 0x72 (dramItem 8 0)
  ((s.setFld F.USBD_STAT_VBUS 1).setFld F.USBD_STAT_ATTACHED 1).setFld (F.USBD_EPIN_CFG_EN 0) 1

/-- The packet goes out, and its reading sets CBC_DIRTY. -/
theorem serviceSends_sets_dirty :
    State.serviceSends.flag F.DMC_CHAN_STAT_CBC_DIRTY = false ∧
      ∃ t, exec (.data 50 .ack) State.serviceSends = .next t ∧ t.flag F.DMC_CHAN_STAT_CBC_DIRTY = true :=
  ⟨by decide +kernel, _, rfl, by decide +kernel⟩

/-- Refutes O37: the clause of the last IN packet keeps every register, and in `State.serviceSends` DMC_CHAN_STAT changes. -/
theorem not_usbServicePortPacketsAndAttach : ¬ Obligations.UsbServicePortPacketsAndAttach := by
  unfold Obligations.UsbServicePortPacketsAndAttach
  intro h
  obtain ⟨-, hin, -⟩ := h
  obtain ⟨t, ht, -, -, -, -, -, -, hregs, -⟩ := hin State.serviceSends 50 2 9 (portChannel 7 0x72 (dramItem 8 0)) (dramItem 8 0) rfl
    (by decide) (by decide) (by unfold State.PortWork; decide +kernel) rfl rfl (by decide +kernel) (by decide +kernel) (by decide +kernel)
    (by decide +kernel) (by decide +kernel) (by decide +kernel) (by decide +kernel) (by decide) (by decide +kernel)
    (by unfold State.PlainRange State.QuietMemory; decide +kernel)
  obtain ⟨hbefore, u, hu, hafter⟩ := serviceSends_sets_dirty
  rw [ht] at hu
  injection hu with hu
  subst hu
  rw [hregs.flag (by decide), hbefore] at hafter
  cases hafter

/-- A MAC with a frame of 64 bytes to send. -/
def State.macSends : State := State.sendsDram [P.ETH 1] 3 0x2B (dramItem 64 0)

/-- The frame goes out, and its reading sets CBC_DIRTY. -/
theorem macSends_sets_dirty :
    State.macSends.flag F.DMC_CHAN_STAT_CBC_DIRTY = false ∧
      ∃ t, exec (.ethTxFrame 1) State.macSends = .next t ∧ t.flag F.DMC_CHAN_STAT_CBC_DIRTY = true :=
  ⟨by decide +kernel, _, rfl, by decide +kernel⟩

/-- Refutes O39: the clause of a frame sent keeps DMC_CHAN_STAT, and in `State.macSends` it changes. -/
theorem not_ethernetFramesSentAndReceived : ¬ Obligations.EthernetFramesSentAndReceived := by
  unfold Obligations.EthernetFramesSentAndReceived
  intro h
  obtain ⟨hsent, -⟩ := h
  obtain ⟨t, ht, -, -, -, -, -, -, -, hregs, -⟩ := hsent State.macSends 1 9 (portChannel 3 0x2B (dramItem 64 0)) (dramItem 64 0)
    (State.macSends.bytesAt 0x80000100 64) (State.macSends.bytesAt 0x80000100 64) (by unfold State.PortWork; decide +kernel)
    (by decide +kernel) (by decide +kernel) rfl (by decide) rfl (by decide +kernel)
    (by unfold State.PlainRange State.QuietMemory; decide +kernel) (by decide +kernel) (by decide +kernel) (by decide +kernel)
    (by decide +kernel)
  obtain ⟨hbefore, u, hu, hafter⟩ := macSends_sets_dirty
  rw [ht] at hu
  injection hu with hu
  subst hu
  rw [hregs.flag (by decide), hbefore] at hafter
  cases hafter

/-- An SPI controller with three bytes to send, chip select 1. -/
def State.spiSends : State := State.sendsDram [P.SPI 1] 3 0x13 (dramItem 3 1)

/-- The bytes go out, and their reading sets CBC_DIRTY. -/
theorem spiSends_sets_dirty :
    State.spiSends.flag F.DMC_CHAN_STAT_CBC_DIRTY = false ∧
      ∃ t, exec (.spiTransfer 1 [1#8, 2#8, 3#8]) State.spiSends = .next t ∧ t.flag F.DMC_CHAN_STAT_CBC_DIRTY = true :=
  ⟨by decide +kernel, _, rfl, by decide +kernel⟩

/-- Refutes O42: the clause of the last bytes of a TX item keeps DMC_CHAN_STAT, and in `State.spiSends` it changes. -/
theorem not_spiAndI2cTransfers : ¬ Obligations.SpiAndI2cTransfers := by
  unfold Obligations.SpiAndI2cTransfers
  intro h
  obtain ⟨hsent, -⟩ := h
  obtain ⟨t, ht, -, -, -, -, -, -, -, -, -, hregs, -⟩ := hsent State.spiSends 1 9 (portChannel 3 0x13 (dramItem 3 1)) (dramItem 3 1)
    [1#8, 2#8, 3#8] (by unfold State.PortWork; decide +kernel) (by decide +kernel) (by decide +kernel) (by decide) (by decide +kernel) rfl
    (by decide) (by unfold State.PlainRange State.QuietMemory; decide +kernel)
  obtain ⟨hbefore, u, hu, hafter⟩ := spiSends_sets_dirty
  rw [ht] at hu
  injection hu with hu
  subst hu
  rw [hregs.flag (by decide), hbefore] at hafter
  cases hafter

end Sys2Proof.Machine
end

section
/-! UART: BREAK while the port sends without ECHO. What the line shows then is not received, a break included (R502). -/
namespace Sys2Proof.Machine

-- Checked one after another: side by side these evaluations take more memory than the check has.
set_option Elab.async false

/-- The state after reset, but with UART 2 running, driving its line, and ECHO off. -/
def State.sendsWithoutEcho : State :=
  let s := (State.reset.setFld (F.PAGE_CTRL_ENABLE (P.UART 2)) 1).setFld (F.PAGE_STAT_ENABLED (P.UART 2)) 1
  (s.setFld (F.UART_STAT_DE 2) 1).setFld (F.UART_CFG_ECHO 2) 0

/-- The break is not latched. -/
theorem sendsWithoutEcho_break :
    ∃ t, exec (.break 2) State.sendsWithoutEcho = .next t ∧ t.flag (F.UART_STAT_BREAK 2) = false :=
  ⟨_, rfl, by decide +kernel⟩

/-- Refutes O41: the clause of a break names no state of DE and ECHO, and in `State.sendsWithoutEcho` the break changes nothing. -/
theorem not_uartCharactersFramesAndBreaks : ¬ Obligations.UartCharactersFramesAndBreaks := by
  unfold Obligations.UartCharactersFramesAndBreaks
  intro h
  obtain ⟨-, -, -, -, -, hbreak, -⟩ := h
  obtain ⟨t, ht, hlatched, -⟩ := hbreak State.sendsWithoutEcho 2 (by decide +kernel) (by decide +kernel)
  obtain ⟨u, hu, hnot⟩ := sendsWithoutEcho_break
  rw [ht] at hu
  injection hu with hu
  subst hu
  exact absurd (hlatched.symm.trans hnot) (by decide)

end Sys2Proof.Machine
end

section
/-! ADC: the MOVE_ANGLE crossing, where the channel holds two items of one ring index. `State.itemAt` finds the first of them, and the crossing
releases the one that executes. -/
namespace Sys2Proof.Machine

-- Checked one after another: side by side these evaluations take more memory than the check has.
set_option Elab.async false

/-- A HOLD item of four samples, with MOVE_ANGLE 0x1234. -/
def holdItem : HeddleItem := { dramItem 8 0x12340000 with op := 2 }

/-- ADC 1 with the item on channel 9, an ended item of the same ring index before it, four samples in the FIFO, and Reed, FREE and quiet, one
tick before the angle. -/
def State.twoItemsOfOneIndex : State :=
  let k := { portChannel 4 0x21 holdItem with items := [{ holdItem with status := some (0, 0) }, holdItem] }
  let s := (((State.sendsDram [P.REED] 4 0x21 holdItem).setHch 9 k).setAdc 1 { AdcPort.idle with fifo := List.replicate 4 (7, none) })
  (((s.setFld F.REED_STATE_VALID 1).setFld F.REED_STATE_STATE 5).setFld F.REED_INC_INC 60000).modReed
    (fun r => { r with acc := 0x00001233FFFFFFF0#64, accepted := true, period := (4000000, 1) })

/-- The first item of the ring index keeps its status. -/
theorem twoItemsOfOneIndex_crossing :
    ∃ t, exec (.moveAngleCrossing 1) State.twoItemsOfOneIndex = .next t ∧ t.itemStatus 9 holdItem.index = some (0, 0) :=
  ⟨_, rfl, by decide +kernel⟩

/-- Refutes O44: in `State.twoItemsOfOneIndex` the item found at the ring index is not the one that executes. -/
theorem not_gpioEdgesOutputsAndMoveAngle : ¬ Obligations.GpioEdgesOutputsAndMoveAngle := by
  unfold Obligations.GpioEdgesOutputsAndMoveAngle
  intro h
  obtain ⟨hcrossing, -⟩ := h
  obtain ⟨t, ht, hitem, -⟩ := hcrossing State.twoItemsOfOneIndex 1 9
    { portChannel 4 0x21 holdItem with items := [{ holdItem with status := some (0, 0) }, holdItem] } holdItem
    (by unfold State.PortWork; decide +kernel) rfl rfl (by decide) (by decide +kernel) (by decide +kernel) (by decide +kernel)
    (by decide +kernel) (by decide +kernel) (by unfold State.ReedQuiet; decide +kernel) (by decide +kernel) (by decide +kernel)
    (by decide +kernel) (by decide +kernel)
  obtain ⟨u, hu, hstatus⟩ := twoItemsOfOneIndex_crossing
  rw [ht] at hu
  injection hu with hu
  subst hu
  rw [State.itemStatus, hitem] at hstatus
  cases hstatus

end Sys2Proof.Machine
end

section
/-! The engines: an item whose channel has no transaction left. It begins nothing until one comes home (R403, R437), and the clauses of what an
engine does with an item do not ask for one. -/
namespace Sys2Proof.Machine

-- Checked one after another: side by side these evaluations take more memory than the check has.
set_option Elab.async false

/-- The channel of an item of a CRYPTO port with as many transactions outstanding as HEDDLE_CFG.CH_OUT_MAX can ever allow. -/
def busyChannel (port : Nat) (it : HeddleItem) : HeddleChannel := { portChannel 6 port it with out := 127 }

/-- The state after reset, but with Heddle and two engines' pages running, and that item due on channel 9. -/
def State.outOfTransactions (port : Nat) (it : HeddleItem) : State :=
  (State.sendsDram [P.AES, P.PKA] 6 port it).setHch 9 (busyChannel port it)

/-- An AES item whose slot, slot 0, holds no key. -/
def keylessItem : HeddleItem := dramItem 16 0

/-- The AES item waits. -/
theorem outOfTransactions_encrypt :
    ∃ t, exec (.encrypt 9) (State.outOfTransactions 0x80 keylessItem) = .next t ∧ t.itemStatus 9 keylessItem.index = none :=
  ⟨_, rfl, by decide +kernel⟩

/-- Refutes O49: the clause of a missing key ends the item, and in `State.outOfTransactions` it waits for a transaction. -/
theorem not_aesAndHashItems : ¬ Obligations.AesAndHashItems := by
  unfold Obligations.AesAndHashItems
  intro h
  obtain ⟨-, -, -, -, hkeyless, -⟩ := h
  obtain ⟨t, ht, ⟨hends, -⟩, -⟩ := hkeyless (State.outOfTransactions 0x80 keylessItem) 9 (busyChannel 0x80 keylessItem) keylessItem
    (by unfold State.CryptoWork State.PlainRange State.QuietMemory; decide +kernel) rfl (by decide +kernel)
  obtain ⟨u, hu, hwaits⟩ := outOfTransactions_encrypt
  rw [ht] at hu
  injection hu with hu
  subst hu
  rw [show ((9 : BitVec 12).toNat) = 9 from rfl, hwaits] at hends
  cases hends

/-- An ECDSA_VERIFY item of P-256 whose public key is the point (0, 0), which is not on the curve. -/
def verifyItem : HeddleItem := { dramItem 160 0 with op := 1 }

/-- The job of `verifyItem`. -/
def verifyJob : PkaJob := ⟨1, false, none, List.replicate 160 0#8⟩

/-- The PKA item waits. -/
theorem outOfTransactions_ecdsaVerify :
    ∃ t, exec (.ecdsaVerify 9) (State.outOfTransactions 0x82 verifyItem) = .next t ∧ t.itemStatus 9 verifyItem.index = none :=
  ⟨_, rfl, by decide +kernel⟩

/-- Refutes O50: the clause of ECDSA_VERIFY ends the item, and in `State.outOfTransactions` it waits for a transaction. -/
theorem not_pkaItemsCommandsAndSelfTests : ¬ Obligations.PkaItemsCommandsAndSelfTests := by
  unfold Obligations.PkaItemsCommandsAndSelfTests
  intro h
  obtain ⟨-, hverify, -⟩ := h
  obtain ⟨t, ht, hends, -⟩ := hverify (State.outOfTransactions 0x82 verifyItem) 9 (busyChannel 0x82 verifyItem) verifyItem verifyJob []
    (by unfold State.CryptoWork State.PlainRange State.QuietMemory; decide +kernel) (by decide) (by decide +kernel) (by decide +kernel)
    (by decide +kernel) (by decide +kernel) (by decide) (by decide +kernel)
  rw [show verifyJob.compute [] [] = .error 5 by decide +kernel] at hends
  obtain ⟨⟨hstatus, -⟩, -⟩ := hends
  obtain ⟨u, hu, hwaits⟩ := outOfTransactions_ecdsaVerify
  rw [ht] at hu
  injection hu with hu
  subst hu
  rw [show ((9 : BitVec 12).toNat) = 9 from rfl, hwaits] at hstatus
  cases hstatus

end Sys2Proof.Machine
end

section
/-! A step (assumption log 3): the command in front, or a tick. -/
namespace Sys2Proof.Machine

/-- Settles O1: the two cases of `step`. -/
theorem stepRunsTheCommandInFront : Obligations.StepRunsTheCommandInFront := by
  refine ⟨fun c s rest hfront => ?_, fun s hempty => ?_⟩
  · rw [step, hfront]
  · rw [step, hempty]

end Sys2Proof.Machine
end

section
/-! HEDDLE_CHC_INV and HEDDLE_IOTLB_INV while an invalidation runs (R413): a command or a register write of either is refused (R46). -/
namespace Sys2Proof.Machine

-- Checked one after another: side by side these evaluations take more memory than the check has.
set_option Elab.async false

/-! ### A register write that its register refuses -/

/-- A byte of the register region, not of a doorbell page, at the alignment of an access of size `z`. -/
def inRegisters (z : Size) (a : Nat) : Bool :=
  decide (0x10000000 ≤ a ∧ a < 0x20000000 ∧ alignTo z a = a) && ! inDoorbell a

/-- R27, R48: REGISTER_WRITE of such an address is a write to its page. -/
theorem exec_registerWrite {s : State} (q : Req) {a : Nat} (z : Size) (v : DWord) (ha : inRegisters z a = true) :
    exec (.registerWrite q (BitVec.ofNat 40 a) z v) s = .next (s.gateWrite q a z v (fun t => t.pageStore q.ni a z v)) := by
  simp only [inRegisters, Bool.and_eq_true, decide_eq_true_eq, Bool.not_eq_true'] at ha
  obtain ⟨⟨hlo, hhi, halign⟩, hbell⟩ := ha
  have hsame : (BitVec.ofNat 40 a).toNat = a := by
    rw [BitVec.toNat_ofNat]
    exact Nat.mod_eq_of_lt (by omega)
  refine congrArg Host.Outcome.next ?_
  rw [hsame, State.opRegisterWrite, if_pos ⟨hlo, hhi⟩, halign, State.busWrite]
  simp only [hlo, hhi, and_self, if_true, hbell, Bool.false_eq_true, if_false]
  rfl

/-- R44, R46: a refusal with a reason leaves CLAMP_KEPT as the refusal gives it. -/
theorem State.keptAfter_refuse {s : State} {q : Req} {a reason detail : Nat} {v : DWord} (hreason : 0 < reason ∧ reason < 128) :
    (s.refuse q.ni.val a reason v detail).keptAfter (! s.flag (F.CLAMP_ADDR_VALID (pageBase a))) (pageBase a) a =
      s.refuse q.ni.val a reason v detail := by
  refine if_neg fun hkept => ?_
  obtain ⟨hempty, hlogs⟩ := Bool.and_eq_true_iff.1 hkept
  obtain ⟨-, -, -, hlogged⟩ := s.refused_refuse q a reason v detail hreason.2
  obtain ⟨-, -, hcode, -⟩ := hlogged (by simpa using hempty)
  simp only [State.logsClamp, Bool.and_eq_true, beq_iff_eq, hcode] at hlogs
  omega

/-- R42: a full write that its register refuses, at a register of its block. -/
theorem State.fullWrite_refused {s : State} {q : Req} {a reason detail : Nat} {v : DWord} (ha : 0x40 ≤ a - pageBase a)
    (hreason : 0 < reason ∧ reason < 128) (hblock : s.blockWrite q.ni.val a v = s.refuse q.ni.val a reason v detail) :
    s.fullWrite q.ni.val a v = s.refuse q.ni.val a reason v detail := by
  have hraw : decide (a - pageBase a = 0x10) = false := decide_eq_false (by omega)
  unfold State.fullWrite
  dsimp only
  rw [if_pos ha, hblock, hraw, Bool.false_and, Bool.or_false]
  exact State.keptAfter_refuse hreason

section
variable (s : State) (ni : Nat) {a : Nat} (v : DWord)

theorem State.pageStore_word (ha : wideAt a = false) : s.pageStore ni a .w v = s.fullWrite ni a (v &&& 0xFFFFFFFF#64) :=
  if_neg (by rw [ha]; decide)

theorem State.pageStore_dword (ha : wideAt a = true) : s.pageStore ni a .d v = s.fullWrite ni a v := if_pos ha

end

/-! ### The two registers -/

theorem State.readReg_chcInv (s : State) : s.readReg R.HEDDLE_CHC_INV = s.raw R.HEDDLE_CHC_INV := rfl

theorem State.readReg_iotlbInv (s : State) : s.readReg R.HEDDLE_IOTLB_INV = s.raw R.HEDDLE_IOTLB_INV := rfl

section
variable {s : State} (ni : Nat) (v : DWord)

theorem State.opChcInv_busy (hbusy : s.flag F.HEDDLE_CHC_INV_BUSY = true) : (s.respond false 0#64).opChcInv ni v =
    (s.respond false 0#64).refuse ni R.HEDDLE_CHC_INV 1 v (s.readReg R.HEDDLE_CHC_INV).toNat := by
  rw [State.opChcInv, State.readReg_chcInv, State.readReg_chcInv]
  exact if_pos hbusy

theorem State.opIotlbInv_busy (hbusy : s.flag F.HEDDLE_IOTLB_INV_BUSY = true) : (s.respond false 0#64).opIotlbInv ni v =
    (s.respond false 0#64).refuse ni R.HEDDLE_IOTLB_INV 1 v (s.readReg R.HEDDLE_IOTLB_INV).toNat := by
  rw [State.opIotlbInv, State.readReg_iotlbInv, State.readReg_iotlbInv]
  exact if_pos hbusy

end

/-- On an open page HEDDLE, a write of either register that comes to a refusal has the result and the frame of R413. -/
theorem State.refusal_of_heddle {s : State} {q : Req} {a : Nat} {v : DWord} {size : Size} {op : State → State} {detail : Nat} (hpage : pageBase a = P.HEDDLE)
    (hlisted : pageListed a = true) (hmachine : pageMachine a = pageMachine P.HEDDLE) (hopen : OpenTo s q P.HEDDLE) (w : DWord)
    (hop : op (s.respond false 0#64) = (s.respond false 0#64).refuse q.ni.val a 1 w detail) :
    s.Refused (s.gateWrite q a size v op) q a 1 detail ∧ KeepsRegs s (s.gateWrite q a size v op) (logRegs P.HEDDLE) ∧
      s.gateWrite q a size v op = { s with regs := (s.gateWrite q a size v op).regs, resp := ⟨false, 0#64⟩ } := by
  obtain ⟨hpriv, hrun⟩ := hopen
  rw [s.gate_open q a size v op hlisted (hmachine ▸ hpriv) (hpage ▸ hrun), hop]
  refine ⟨State.refused_refuse (s.respond false 0#64) q a 1 w detail (by decide), ?_, State.clampEvents_rest (s.respond false 0#64) _ _ _ _ _ _ _⟩
  exact ((KeepsRegs.refl s (logRegs P.HEDDLE)).of_regs (u := s.respond false 0#64) rfl).refuse (hpage ▸ fun _ h => h)

/-- Settles O58: both registers refuse a write while BUSY, whichever way it comes. -/
theorem invalidationWhileBusyIsRefused : Obligations.InvalidationWhileBusyIsRefused := by
  unfold Obligations.InvalidationWhileBusyIsRefused
  refine ⟨?_, ?_, ?_, ?_⟩
  · intro s q ch all hopen hbusy
    refine ⟨_, rfl, ?_⟩
    apply State.refusal_of_heddle (by decide) (by decide) (by decide +kernel) hopen
    exact State.opChcInv_busy _ _ hbusy
  · intro s q inst page gpa hopen hbusy
    refine ⟨_, rfl, ?_⟩
    apply State.refusal_of_heddle (by decide) (by decide) (by decide +kernel) hopen
    exact State.opIotlbInv_busy _ _ hbusy
  · intro s q v hopen hbusy
    refine ⟨_, exec_registerWrite q .w _ (by decide), ?_⟩
    apply State.refusal_of_heddle (by decide) (by decide) (by decide +kernel) hopen
    rw [State.pageStore_word _ _ _ (by decide)]
    exact State.fullWrite_refused (by decide) (by decide) (State.opChcInv_busy _ _ hbusy)
  · intro s q v hopen hbusy
    refine ⟨_, exec_registerWrite q .d _ (by decide), ?_⟩
    apply State.refusal_of_heddle (by decide) (by decide) (by decide +kernel) hopen
    rw [State.pageStore_dword _ _ _ (by decide)]
    exact State.fullWrite_refused (by decide) (by decide) (State.opIotlbInv_busy _ _ hbusy)

end Sys2Proof.Machine
end

section
/-! PAGE_CTRL of WDOG while a watchdog is on (R577): ENABLE stays 1, and the write of 0 is a clamp event. -/
namespace Sys2Proof.Machine

-- Checked one after another: side by side these evaluations take more memory than the check has.
set_option Elab.async false

/-- Two changes of registers alone are one. -/
theorem State.rest_trans {s t u : State} (hst : t = { s with regs := t.regs }) (htu : u = { t with regs := u.regs }) : u = { s with regs := u.regs } := by
  calc u = { t with regs := u.regs } := htu
    _ = { s with regs := u.regs } := by rw [hst]

/-! ### Clamp events, one or more -/

section
variable (s : State) (p ni off reason wrote kept : Nat) {n : Nat}

theorem State.clampEvents_pos (hn : n ≠ 0) :
    s.clampEvents p ni off reason wrote kept n = ((s.raise p 31).clampLogged p ni off reason wrote kept).clampCounted p n := if_neg hn

theorem State.event_clampEvents_pos (hn : n ≠ 0) : (s.clampEvents p ni off reason wrote kept n).event p 31 = true := by
  have hregs : KeepsRegs (s.raise p 31) (s.clampEvents p ni off reason wrote kept n)
      ([R.CLAMP_ADDR p, R.CLAMP_WROTE p, R.CLAMP_KEPT p] ++ [R.CLAMP_COUNT p]) := by
    rw [State.clampEvents_pos _ _ _ _ _ _ _ hn]
    exact (KeepsRegs.mono ((s.raise p 31).clampLogged_keepsRegs p ni off reason wrote kept) (by simp)).trans
      (KeepsRegs.mono (((s.raise p 31).clampLogged p ni off reason wrote kept).clampCounted_keepsRegs p n) (by simp))
  exact (hregs.event 31 (by simp [R.EVT_RAW, R.CLAMP_ADDR, R.CLAMP_WROTE, R.CLAMP_KEPT, R.CLAMP_COUNT])).trans (State.event_raise _ _ _ (by decide))

theorem State.count_clampEvents_pos (hn : n ≠ 0) : (s.clampEvents p ni off reason wrote kept n).fld (F.CLAMP_COUNT_COUNT p) =
    min 65535 (s.fld (F.CLAMP_COUNT_COUNT p) + n) := by
  rw [State.clampEvents_pos _ _ _ _ _ _ _ hn, State.count_clampCounted, ((s.raise p 31).clampLogged_keepsRegs p ni off reason wrote kept).fld
    (by simp [F.CLAMP_COUNT_COUNT, R.CLAMP_COUNT, R.CLAMP_ADDR, R.CLAMP_WROTE, R.CLAMP_KEPT]),
    s.fld_raise_ne _ _ _ (by simp [F.CLAMP_COUNT_COUNT, R.CLAMP_COUNT, R.EVT_RAW])]

end

/-- R44: a write that clamps as many fields as a list names, at least one. -/
theorem State.logWrite_clamped (s : State) (ni a : Nat) (v : DWord) {clamps : List Nat} (h : clamps ≠ []) :
    (s.logWrite ni a v clamps).event (pageBase a) 31 = true ∧
      (s.logWrite ni a v clamps).fld (F.CLAMP_COUNT_COUNT (pageBase a)) = min 65535 (s.fld (F.CLAMP_COUNT_COUNT (pageBase a)) + clamps.length) := by
  cases clamps with
  | nil => exact absurd rfl h
  | cons c cs => exact ⟨State.event_clampEvents_pos _ _ _ _ _ _ _ (Nat.succ_ne_zero _), State.count_clampEvents_pos _ _ _ _ _ _ _ (Nat.succ_ne_zero _)⟩

theorem State.keptAfter_keepsRegs (s : State) (empty : Bool) (p a : Nat) : KeepsRegs s (s.keptAfter empty p a) [R.CLAMP_KEPT p] := by
  unfold State.keptAfter
  split
  · exact (KeepsRegs.refl s _).setReg (by simp)
  · exact KeepsRegs.refl s _

theorem State.keptAfter_rest (s : State) (empty : Bool) (p a : Nat) : s.keptAfter empty p a = { s with regs := (s.keptAfter empty p a).regs } := by
  unfold State.keptAfter
  split <;> rfl

/-! ### The register -/

/-- The fields of PAGE_CTRL of WDOG: ENABLE, SOFT_RESET, which the page does not have, and LOCK. -/
def Specs.wdogCtrl : RSpec := ⟨0x08, 4, 1, false, [⟨0, 0, .rwl, 1, .any, false⟩, ⟨1, 1, .ro, 0, .any, false⟩, ⟨2, 2, .w1s, 0, .any, false⟩]⟩

theorem regAt_wdogCtrl : ∃ p, p.base = P.WDOG ∧ regAt (R.PAGE_CTRL P.WDOG) = some (p, P.WDOG, Specs.wdogCtrl, R.PAGE_CTRL P.WDOG) := ⟨_, rfl, rfl⟩

section
variable {s : State} {p : PageSpec} (hp : p.base = P.WDOG)
include hp

theorem State.fieldFrozen_wdogCtrl (f : FSpec) :
    s.fieldFrozen p (R.PAGE_CTRL P.WDOG) f = ((decide (f.acc = .rwl) || decide (f.lo = 1)) && s.pageLocked (R.PAGE_CTRL P.WDOG)) := by
  have hscree : P.WDOG ≠ P.SCREE := by decide
  have hsyscfg : P.WDOG ≠ P.SYSCFG := by decide
  have hheader : ¬ 0x80 ≤ R.PAGE_CTRL P.WDOG - P.WDOG := by decide
  have hctrl : R.PAGE_CTRL P.WDOG = R.PAGE_CTRL (pageBase (R.PAGE_CTRL P.WDOG)) := by decide
  simp [State.fieldFrozen, hp, hscree, hsyscfg, hheader, ← hctrl, Bool.and_or_distrib_right]

omit hp in
/-- A write of 1 to ENABLE while it is 1 leaves it 1; SOFT_RESET has nothing to act on. -/
theorem writeWord_wdogCtrl_enabled (henable : s.flag (F.PAGE_CTRL_ENABLE P.WDOG) = true) {w : DWord} (hw : Bits.get w 0 1 = 1) :
    Bits.get (writeWord s p Specs.wdogCtrl (R.PAGE_CTRL P.WDOG) w).word 0 1 = 1 ∧
      Bits.get (writeWord s p Specs.wdogCtrl (R.PAGE_CTRL P.WDOG) w).act 1 1 = 0 := by
  have hword := get_writeWord (s := s) (p := p) (a := R.PAGE_CTRL P.WDOG) (w := w) (r := Specs.wdogCtrl) (by decide) (f := ⟨0, 0, .rwl, 1, .any, false⟩) (by decide)
  have hact := get_writeWord_act (s := s) (p := p) (a := R.PAGE_CTRL P.WDOG) (w := w) (r := Specs.wdogCtrl) (by decide) (f := ⟨1, 1, .ro, 0, .any, false⟩) (by decide)
  have hone : Bits.get (s.raw (R.PAGE_CTRL P.WDOG)) 0 1 = 1 := by
    have hlt := Bits.get_lt (s.raw (R.PAGE_CTRL P.WDOG)) 0 1
    have hne : Bits.get (s.raw (R.PAGE_CTRL P.WDOG)) 0 1 ≠ 0 := by simpa [State.flag, State.fld, F.PAGE_CTRL_ENABLE] using henable
    omega
  refine ⟨hword.trans ?_, hact.trans ?_⟩
  · have hstored : s.fieldStored p (R.PAGE_CTRL P.WDOG) w ⟨0, 0, .rwl, 1, .any, false⟩ 1 = 1 := by
      unfold State.fieldStored
      split
      · rfl
      · exact hw
    change s.fieldStored p (R.PAGE_CTRL P.WDOG) w ⟨0, 0, .rwl, 1, .any, false⟩ (Bits.get (s.raw (R.PAGE_CTRL P.WDOG)) 0 1) % 2 = 1
    rw [hone, hstored]
  · unfold State.fieldActs
    split <;> rfl

/-- The same write, of 1 alone over 1 alone, changes no bit and clamps nothing. -/
theorem writeWord_wdogCtrl_same (hraw : s.raw (R.PAGE_CTRL P.WDOG) = 1#64) :
    writeWord s p Specs.wdogCtrl (R.PAGE_CTRL P.WDOG) 1#64 = ⟨1#64, 0#64, []⟩ := by
  have hread : s.readReg (R.PAGE_CTRL P.WDOG) = Bits.put 1#64 2 1 (b2n (s.pageLocked (R.PAGE_CTRL P.WDOG))) := by
    rw [← hraw]
    rfl
  have hfield (f : FSpec) (hf : f ∈ Specs.wdogCtrl.fields) : writeField s p (R.PAGE_CTRL P.WDOG) (s.readReg (R.PAGE_CTRL P.WDOG)) 1#64 ⟨1#64, 0#64, []⟩ f =
      ⟨1#64, 0#64, []⟩ := by
    rw [hread, writeField, State.fieldFrozen_wdogCtrl hp]
    simp only [Specs.wdogCtrl, List.mem_cons, List.not_mem_nil, or_false] at hf
    have hset (lo v : Nat) (hv : Bits.put 1#64 lo 1 v = 1#64) : (⟨Bits.put 1#64 lo 1 v, 0#64, []⟩ : Written) = ⟨1#64, 0#64, []⟩ := by rw [hv]
    cases s.pageLocked (R.PAGE_CTRL P.WDOG)
    case false =>
      rcases hf with rfl | rfl | rfl
      · exact hset 0 1 (by decide)
      · rfl
      · exact hset 2 0 (by decide)
    case true =>
      rcases hf with rfl | rfl | rfl
      · rfl
      · rfl
      · exact hset 2 0 (by decide)
  have hrest : Specs.wdogCtrl.fields.foldl (writeField s p (R.PAGE_CTRL P.WDOG) (s.readReg (R.PAGE_CTRL P.WDOG)) 1#64) ⟨1#64, 0#64, []⟩ =
      ⟨1#64, 0#64, []⟩ :=
    List.foldlRecOn (motive := fun o => o = (⟨1#64, 0#64, []⟩ : Written)) _ _ rfl fun o ho f hf => ho ▸ hfield f hf
  rw [writeWord, hraw, hrest]
  rfl

end

/-! ### The write -/

section
variable {s : State} {ni : Nat} {v : DWord}

/-- R577: a barred write is stored with ENABLE = 1 and clamps ENABLE. -/
theorem State.storeCtrl_held (hheld : s.wdogHolds P.WDOG v = true) : ∃ p, p.base = P.WDOG ∧ s.storeCtrl ni P.WDOG v =
    ((s.setReg (R.PAGE_CTRL P.WDOG) (writeWord s p Specs.wdogCtrl (R.PAGE_CTRL P.WDOG) (v ||| 1#64)).word).logWrite ni (R.PAGE_CTRL P.WDOG) v
      ((writeWord s p Specs.wdogCtrl (R.PAGE_CTRL P.WDOG) (v ||| 1#64)).clamps ++ [0]),
      (writeWord s p Specs.wdogCtrl (R.PAGE_CTRL P.WDOG) (v ||| 1#64)).act) := by
  obtain ⟨p, hp, hreg⟩ := regAt_wdogCtrl
  refine ⟨p, hp, ?_⟩
  unfold State.storeCtrl
  dsimp only
  rw [if_neg (by rw [hheld]; decide), hreg]

theorem State.wdogHolds_of_on {n : Fin 4} (hon : s.flag (F.WDOG_CTRL_EN n.val) = true) (hv : v.toNat.testBit 0 = false) : s.wdogHolds P.WDOG v = true := by
  simp only [State.wdogHolds, hv, Bool.not_false, decide_true, Bool.true_and, List.any_eq_true, List.mem_range]
  exact ⟨n.val, n.isLt, hon⟩

/-- What a held write leaves: PAGE_CTRL with ENABLE = 1 and the clamp log; a lock is taken behind it. -/
theorem State.opPageCtrl_held (henable : s.flag (F.PAGE_CTRL_ENABLE P.WDOG) = true) (hheld : s.wdogHolds P.WDOG v = true) :
    ∃ p, p.base = P.WDOG ∧ s.opPageCtrl ni P.WDOG v = (s.storeCtrl ni P.WDOG v).1.when (v.toNat.testBit 2) (fun t => t.pageLock 7) ∧
      Bits.get (writeWord s p Specs.wdogCtrl (R.PAGE_CTRL P.WDOG) (v ||| 1#64)).word 0 1 = 1 ∧
      (s.storeCtrl ni P.WDOG v).1 = (s.setReg (R.PAGE_CTRL P.WDOG) (writeWord s p Specs.wdogCtrl (R.PAGE_CTRL P.WDOG) (v ||| 1#64)).word).logWrite ni
        (R.PAGE_CTRL P.WDOG) v ((writeWord s p Specs.wdogCtrl (R.PAGE_CTRL P.WDOG) (v ||| 1#64)).clamps ++ [0]) := by
  obtain ⟨p, hp, hstore⟩ := State.storeCtrl_held (ni := ni) hheld
  have hone : Bits.get (v ||| 1#64) 0 1 = 1 := by
    change (v.toNat ||| 1) >>> 0 % 2 ^ 1 = 1
    rw [Nat.shiftRight_zero, Nat.pow_one, Nat.or_mod_two_eq_one]
    exact Or.inr rfl
  obtain ⟨hword, hact⟩ := writeWord_wdogCtrl_enabled (p := p) henable hone
  refine ⟨p, hp, ?_, hword, by rw [hstore]⟩
  have hnone : (s.storeCtrl ni P.WDOG v).2.toNat.testBit 1 = false := by
    have hbit := Bits.testBit_get (writeWord s p Specs.wdogCtrl (R.PAGE_CTRL P.WDOG) (v ||| 1#64)).act 1 1 0
    rw [hact] at hbit
    rw [hstore]
    exact hbit.symm
  unfold State.opPageCtrl
  dsimp only
  rw [hnone]
  rfl

theorem State.takeReference_keepsPages (s : State) (i : Nat) : KeepsPages s (s.takeReference i) [P.PITON, P.BELAY] := by
  unfold State.takeReference
  split
  · exact KeepsPages.refl s _
  · exact ((KeepsPages.refl s _).of_regs rfl).setFld (by decide)

theorem State.pageLock_keepsPages (s : State) : KeepsPages s (s.pageLock 7) [P.PITON, P.BELAY] := by
  unfold State.pageLock
  dsimp only
  split
  · exact KeepsPages.refl s _
  · exact (((KeepsPages.refl s _).setFld (by decide)).raise (by decide)).trans (State.takeReference_keepsPages _ 7)

theorem State.fld_logWrite_ctrl (word w : DWord) (clamps : List Nat) {f : Fld} (hf : f.reg = R.PAGE_CTRL P.WDOG) :
    ((s.setReg (R.PAGE_CTRL P.WDOG) word).logWrite ni (R.PAGE_CTRL P.WDOG) w clamps).fld f = Bits.get word f.lo f.width := by
  have hlog : KeepsRegs (s.setReg (R.PAGE_CTRL P.WDOG) word) ((s.setReg (R.PAGE_CTRL P.WDOG) word).logWrite ni (R.PAGE_CTRL P.WDOG) w clamps) (logRegs P.WDOG) :=
    (KeepsRegs.refl _ _).logWrite (fun _ h => h)
  rw [hlog.fld (by rw [hf]; decide), State.fld, hf, State.raw_setReg, if_pos rfl]

/-- R577: a full write with bit 0 = 0 while a watchdog is on keeps ENABLE, and every field it clamps is counted. -/
theorem State.fullWrite_held (henable : s.flag (F.PAGE_CTRL_ENABLE P.WDOG) = true) (hheld : s.wdogHolds P.WDOG v = true) :
    (s.fullWrite ni (R.PAGE_CTRL P.WDOG) v).flag (F.PAGE_CTRL_ENABLE P.WDOG) = true ∧ (s.fullWrite ni (R.PAGE_CTRL P.WDOG) v).event P.WDOG 31 = true ∧
      ∃ n, (s.fullWrite ni (R.PAGE_CTRL P.WDOG) v).fld (F.CLAMP_COUNT_COUNT P.WDOG) = min 65535 (s.fld (F.CLAMP_COUNT_COUNT P.WDOG) + (n + 1)) := by
  obtain ⟨p, hp, hop, hword, hstored⟩ := State.opPageCtrl_held (ni := ni) henable hheld
  have hlock : KeepsPages (s.storeCtrl ni P.WDOG v).1 (s.opPageCtrl ni P.WDOG v) [P.PITON, P.BELAY] := by
    rw [hop]
    exact (KeepsPages.refl _ _).when fun u hu => hu.trans u.pageLock_keepsPages
  have hkept (a : Nat) (ha : pageBase a = P.WDOG) (hne : a ≠ R.CLAMP_KEPT P.WDOG) :
      (s.fullWrite ni (R.PAGE_CTRL P.WDOG) v).raw a = (s.storeCtrl ni P.WDOG v).1.raw a :=
    (State.keptAfter_keepsRegs _ _ P.WDOG _ a (by rwa [List.mem_singleton])).trans (hlock a (by rw [ha]; decide))
  obtain ⟨hevent, hcount⟩ := (s.setReg (R.PAGE_CTRL P.WDOG) (writeWord s p Specs.wdogCtrl (R.PAGE_CTRL P.WDOG) (v ||| 1#64)).word).logWrite_clamped ni
    (R.PAGE_CTRL P.WDOG) v (clamps := (writeWord s p Specs.wdogCtrl (R.PAGE_CTRL P.WDOG) (v ||| 1#64)).clamps ++ [0]) (by simp)
  refine ⟨?_, ?_, (writeWord s p Specs.wdogCtrl (R.PAGE_CTRL P.WDOG) (v ||| 1#64)).clamps.length, ?_⟩
  · rw [State.flag, State.fld, hkept (F.PAGE_CTRL_ENABLE P.WDOG).reg (by decide) (by decide), hstored, ← State.fld, State.fld_logWrite_ctrl _ _ _ rfl]
    exact bne_iff_ne.2 (hword.symm ▸ Nat.one_ne_zero)
  · rw [State.event, hkept (R.EVT_RAW P.WDOG) (by decide) (by decide), hstored]
    exact hevent
  · rw [State.fld, hkept (F.CLAMP_COUNT_COUNT P.WDOG).reg (by decide) (by decide), hstored, ← State.fld]
    refine hcount.trans ?_
    rw [List.length_append]
    exact congrArg (fun c => min 65535 (c + _)) (State.fld_setReg_ne _ _ _ (F.CLAMP_COUNT_COUNT P.WDOG) (by decide))

theorem State.enabled_of_raw (hraw : s.raw (R.PAGE_CTRL P.WDOG) = 1#64) : s.flag (F.PAGE_CTRL_ENABLE P.WDOG) = true := by
  rw [State.flag, State.fld, F.PAGE_CTRL_ENABLE, hraw]
  rfl

/-- The same write of 0 over ENABLE alone: one clamp event, and no other register changes. -/
theorem State.fullWrite_held_zero (hraw : s.raw (R.PAGE_CTRL P.WDOG) = 1#64) (hheld : s.wdogHolds P.WDOG 0#64 = true) :
    (s.fullWrite ni (R.PAGE_CTRL P.WDOG) 0#64).fld (F.CLAMP_COUNT_COUNT P.WDOG) = min 65535 (s.fld (F.CLAMP_COUNT_COUNT P.WDOG) + 1) ∧
      KeepsRegs s (s.fullWrite ni (R.PAGE_CTRL P.WDOG) 0#64) (logRegs P.WDOG) ∧
      s.fullWrite ni (R.PAGE_CTRL P.WDOG) 0#64 = { s with regs := (s.fullWrite ni (R.PAGE_CTRL P.WDOG) 0#64).regs } := by
  obtain ⟨p, hp, hstore⟩ := State.storeCtrl_held (ni := ni) hheld
  rw [show (0#64 ||| 1#64 : DWord) = 1#64 from rfl, writeWord_wdogCtrl_same hp hraw] at hstore
  have hsame : KeepsRegs s (s.setReg (R.PAGE_CTRL P.WDOG) 1#64) (logRegs P.WDOG) := fun a _ => by
    by_cases ha : a = R.PAGE_CTRL P.WDOG
    · rw [ha, State.raw_setReg, if_pos rfl, hraw]
    · rw [State.raw_setReg, if_neg ha]
  have hop : s.opPageCtrl ni P.WDOG 0#64 = (s.setReg (R.PAGE_CTRL P.WDOG) 1#64).logWrite ni (R.PAGE_CTRL P.WDOG) 0#64 [0] := by
    rw [State.opPageCtrl, hstore]
    rfl
  have hfull : ∃ empty, s.fullWrite ni (R.PAGE_CTRL P.WDOG) 0#64 = (s.opPageCtrl ni P.WDOG 0#64).keptAfter empty P.WDOG (R.PAGE_CTRL P.WDOG) := ⟨_, rfl⟩
  obtain ⟨empty, hfull⟩ := hfull
  rw [hfull]
  refine ⟨?_, ?_, ?_⟩
  · rw [(State.keptAfter_keepsRegs _ _ _ _).fld (by decide), hop]
    refine ((s.setReg (R.PAGE_CTRL P.WDOG) 1#64).logWrite_clamped ni (R.PAGE_CTRL P.WDOG) 0#64 (List.cons_ne_nil 0 [])).2.trans ?_
    exact congrArg (fun c => min 65535 (c + 1)) (State.fld_setReg_ne s (R.PAGE_CTRL P.WDOG) _ (F.CLAMP_COUNT_COUNT P.WDOG) (by decide))
  · rw [hop]
    exact (hsame.logWrite (a := R.PAGE_CTRL P.WDOG) (fun _ h => h)).trans (KeepsRegs.mono (State.keptAfter_keepsRegs _ _ _ _) (by decide))
  · rw [hop]
    exact State.rest_trans (State.logWrite_rest (s.setReg (R.PAGE_CTRL P.WDOG) 1#64) _ _ _ _) (State.keptAfter_rest _ _ _ _)

end

/-- Settles O59: R577 holds of the command and of a register write. -/
theorem watchdogPageStaysEnabled : Obligations.WatchdogPageStaysEnabled := by
  unfold Obligations.WatchdogPageStaysEnabled
  refine ⟨?_, ?_⟩
  · intro s q n ⟨hpriv, hrun⟩ hraw hon
    have hheld : (s.respond false 0#64).wdogHolds P.WDOG 0#64 = true := State.wdogHolds_of_on (s := s.respond false 0#64) hon rfl
    have hdone : exec (.pageEnable q ⟨7, by decide⟩ false) s = .next ((s.respond false 0#64).fullWrite q.ni (R.PAGE_CTRL P.WDOG) 0#64) := by
      change Host.Outcome.next (s.gateWrite q (pageAt ⟨7, by decide⟩ + 8) .w 0#64 fun t => t.pageStore q.ni (pageAt ⟨7, by decide⟩ + 8) .w 0#64) = _
      rw [show pageAt ⟨7, by decide⟩ + 8 = R.PAGE_CTRL P.WDOG by decide, s.gate_open q (R.PAGE_CTRL P.WDOG) _ _ _ (by decide)
        (fun _ => hpriv (by decide +kernel)) hrun, State.pageStore_word _ _ _ (by decide)]
      rfl
    obtain ⟨henable, hevent, -⟩ := State.fullWrite_held (s := s.respond false 0#64) (ni := q.ni) (State.enabled_of_raw hraw) hheld
    obtain ⟨hcount, hregs, hrest⟩ := State.fullWrite_held_zero (s := s.respond false 0#64) (ni := q.ni) hraw hheld
    exact ⟨_, hdone, henable, hevent, hcount, ((KeepsRegs.refl s _).of_regs rfl).trans hregs, hrest⟩
  · intro s q n v ⟨hpriv, hrun⟩ henable hon hbit
    have hword : ((v.zeroExtend 64 &&& 0xFFFFFFFF#64 : DWord)).toNat.testBit 0 = false := by
      change ((v.zeroExtend 64 &&& 0xFFFFFFFF#64 : DWord)).getLsbD 0 = false
      rw [BitVec.getLsbD_and, BitVec.zeroExtend, BitVec.getLsbD_setWidth, hbit]
      rfl
    have hheld := State.wdogHolds_of_on (s := s.respond false 0#64) hon hword
    have hdone : exec (.registerWrite q (BitVec.ofNat 40 (R.PAGE_CTRL P.WDOG)) .w (v.zeroExtend 64)) s =
        .next ((s.respond false 0#64).fullWrite q.ni (R.PAGE_CTRL P.WDOG) (v.zeroExtend 64 &&& 0xFFFFFFFF#64)) := by
      rw [exec_registerWrite q .w _ (by decide), s.gate_open q (R.PAGE_CTRL P.WDOG) _ _ _ (by decide) (fun _ => hpriv (by decide +kernel)) hrun,
        State.pageStore_word _ _ _ (by decide)]
    obtain ⟨hkept, hevent, n, hcount⟩ := State.fullWrite_held (s := s.respond false 0#64) (ni := q.ni) henable hheld
    have hold : (s.respond false 0#64).fld (F.CLAMP_COUNT_COUNT P.WDOG) = s.fld (F.CLAMP_COUNT_COUNT P.WDOG) := rfl
    exact ⟨_, hdone, hkept, hevent, by omega⟩

end Sys2Proof.Machine
end

section
/-! The OTP commands (R535 to R538): what READ, PROGRAM and CHECK leave, and why one is refused. -/
namespace Sys2Proof.Machine

-- Checked one after another: side by side these evaluations take more memory than the check has.
set_option Elab.async false

/-! ### A refusal with a free detail -/

/-- `t` is `s` once a command of `q` on the register at `a` was refused for `reason`, its detail free: the log alone. -/
def State.RefusedFreely (s t : State) (a reason : Nat) : Prop :=
  t.event (pageBase a) 31 = true ∧
    (s.flag (F.CLAMP_ADDR_VALID (pageBase a)) = false → t.fld (F.CLAMP_ADDR_REASON (pageBase a)) = reason) ∧
    KeepsRegs s t (logRegs (pageBase a)) ∧ t = { s with regs := t.regs, resp := t.resp, fresh := t.fresh }

theorem State.refuseFree_refused (s : State) (q : Req) (a : Nat) {reason : Nat} (v : DWord) (hreason : reason < 128) :
    s.RefusedFreely ((s.respond false 0#64).refuseFree q.ni.val a reason v) a reason := by
  obtain ⟨hevent, -, -, hlogged⟩ :=
    (s.respond false 0#64).takeFree.2.refused_refuse q a reason v ((s.respond false 0#64).takeFree.1.toNat % 2 ^ 32) hreason
  have hrest : (s.respond false 0#64).refuseFree q.ni.val a reason v = _ :=
    State.clampEvents_rest (s.respond false 0#64).takeFree.2 (pageBase a) q.ni.val (a - pageBase a) reason v.toNat
      ((s.respond false 0#64).takeFree.1.toNat % 2 ^ 32) 1
  refine ⟨hevent, fun hempty => ?_, ?_, hrest.trans (by rw [hrest]; rfl)⟩
  · obtain ⟨-, -, hcode, -⟩ := hlogged hempty
    exact hcode
  · exact ((KeepsRegs.refl s (logRegs (pageBase a))).of_regs (u := (s.respond false 0#64).takeFree.2) rfl).refuse fun _ h => h

/-! ### A stored register and the words -/

theorem State.storeReg_keepsRegs {s : State} {ni a : Nat} {v : DWord} : KeepsRegs s (s.storeReg ni a v).1 (a :: logRegs (pageBase a)) :=
  (KeepsRegs.refl s _).storeReg (List.mem_cons_self ..) fun _ h => List.mem_cons_of_mem _ h

theorem State.sec_storeReg {s : State} {ni a : Nat} {v : DWord} : (s.storeReg ni a v).1.sec = s.sec := by
  rw [State.storeReg_rest]

theorem State.otpWord_storeReg {s : State} {ni a i : Nat} {v : DWord} : (s.storeReg ni a v).1.otpWord i = s.otpWord i := by
  rw [State.otpWord, State.otpRaw, State.sec_storeReg]
  rfl

theorem State.rest_of_respond {s t : State} {e : Bool} {w : DWord} (h : t = { s.respond e w with regs := t.regs }) :
    t = { s with regs := t.regs, resp := t.resp } := h.trans (by rw [h]; rfl)

/-- A state that differs from such a one in registers and in the state of the security units. -/
theorem State.rest_of_pulse {s t u : State} {e : Bool} {w : DWord} (ht : t = { s.respond e w with regs := t.regs })
    (hu : u = { t with regs := u.regs, sec := u.sec }) : u = { s with regs := u.regs, resp := u.resp, sec := u.sec } := by
  rw [hu, ht]
  rfl

/-! ### The command -/

/-- What KEYS_OTP_CTRL is written for command `cmd` on word `addr`. -/
def otpValue (cmd : Nat) (addr : BitVec 8) : DWord := BitVec.ofNat 64 (F.KEYS_OTP_CTRL_ADDR.at addr.toNat + F.KEYS_OTP_CTRL_CMD.at cmd)

theorem toNat_otpValue (cmd : Nat) (addr : BitVec 8) : (otpValue cmd addr).toNat = addr.toNat + cmd % 8 * 256 := by
  have haddr := addr.isLt
  simp only [otpValue, Fld.at, F.KEYS_OTP_CTRL_ADDR, F.KEYS_OTP_CTRL_CMD, BitVec.toNat_ofNat]
  omega

theorem addr_otpValue (cmd : Nat) (addr : BitVec 8) : F.KEYS_OTP_CTRL_ADDR.of (otpValue cmd addr) = addr.toNat := by
  have haddr := addr.isLt
  rw [Fld.of, Bits.get, toNat_otpValue, F.KEYS_OTP_CTRL_ADDR]
  simp only [Nat.shiftRight_eq_div_pow]
  omega

theorem cmd_otpValue (cmd : Nat) (addr : BitVec 8) : F.KEYS_OTP_CTRL_CMD.of (otpValue cmd addr) = cmd % 8 := by
  have haddr := addr.isLt
  rw [Fld.of, Bits.get, toNat_otpValue, F.KEYS_OTP_CTRL_CMD]
  simp only [Nat.shiftRight_eq_div_pow]
  omega

section
variable {s : State} {ni cmd : Nat} {addr : BitVec 8} {cut : Option (BitVec 32)}

/-- Table Keys-2: READ, PROGRAM and CHECK are the commands. -/
theorem cmd_otpValue_known (hcmd : cmd = 1 ∨ cmd = 2 ∨ cmd = 3) : F.KEYS_OTP_CTRL_CMD.of (otpValue cmd addr) = cmd := by
  rw [cmd_otpValue]
  omega

/-- R537: a command while another is under way. -/
theorem State.opOtpCtrl_busy (hcmd : cmd = 1 ∨ cmd = 2 ∨ cmd = 3) (hbusy : (s.flag F.KEYS_OTP_CTRL_BUSY || s.flag F.KEYS_SLOT_STAT_BUSY) = true) :
    s.opOtpCtrl ni (otpValue cmd addr) cut = s.refuseFree ni R.KEYS_OTP_CTRL 1 (otpValue cmd addr) := by
  unfold State.opOtpCtrl
  dsimp only
  rw [cmd_otpValue_known hcmd, if_neg (by simpa only [Bool.not_eq_true', decide_eq_false_iff_not, not_not] using hcmd), if_pos hbusy]

variable (hidle : (s.flag F.KEYS_OTP_CTRL_BUSY || s.flag F.KEYS_SLOT_STAT_BUSY) = false)
include hidle

theorem State.opOtpCtrl_stopped (hcmd : cmd = 1 ∨ cmd = 2 ∨ cmd = 3) (hstopped : s.running P.KEYS = false) :
    s.opOtpCtrl ni (otpValue cmd addr) cut = s.refuseFree ni R.KEYS_OTP_CTRL 9 (otpValue cmd addr) := by
  unfold State.opOtpCtrl
  dsimp only
  rw [cmd_otpValue_known hcmd, if_neg (by simpa only [Bool.not_eq_true', decide_eq_false_iff_not, not_not] using hcmd), hidle, hstopped]
  rfl

variable (hrunning : s.running P.KEYS = true)
include hrunning

theorem State.opOtpCtrl_refused {r : Nat} (hrefused : s.otpRefusal addr.toNat (s.fld F.KEYS_OTP_DATA_DATA) = some r) :
    s.opOtpCtrl ni (otpValue 2 addr) cut = s.refuseFree ni R.KEYS_OTP_CTRL r (otpValue 2 addr) := by
  unfold State.opOtpCtrl
  dsimp only
  rw [cmd_otpValue_known (by decide), addr_otpValue, hidle, hrunning, if_neg (by decide), if_pos rfl, hrefused]
  rfl

theorem State.opOtpCtrl_read : s.opOtpCtrl ni (otpValue 1 addr) cut =
    (((s.storeReg ni R.KEYS_OTP_CTRL (otpValue 1 addr)).1.setFld F.KEYS_OTP_DATA_DATA
      (if otpSecret addr.toNat && s.flag F.PITON_FUSE_WIN_CLOSED then 0 else s.otpWord addr.toNat)).setFlag F.KEYS_OTP_CTRL_UE
      (otpChecked addr.toNat && s.sec.otpTorn.contains addr.toNat)).raise P.KEYS E.KEYS_OTP_DONE := by
  have hwindow : (s.storeReg ni R.KEYS_OTP_CTRL (otpValue 1 addr)).1.flag F.PITON_FUSE_WIN_CLOSED = s.flag F.PITON_FUSE_WIN_CLOSED :=
    State.storeReg_keepsRegs.flag (by decide)
  unfold State.opOtpCtrl
  dsimp only
  rw [cmd_otpValue_known (by decide), addr_otpValue, hidle, hrunning, if_neg (by decide), if_neg (by decide), hwindow, State.otpWord_storeReg, State.sec_storeReg]
  rfl

theorem State.opOtpCtrl_check : s.opOtpCtrl ni (otpValue 3 addr) cut =
    (((s.storeReg ni R.KEYS_OTP_CTRL (otpValue 3 addr)).1.setFlag F.KEYS_OTP_CTRL_MATCH (s.otpWord addr.toNat == s.fld F.KEYS_OTP_DATA_DATA)).setFlag
      F.KEYS_OTP_CTRL_UE (otpChecked addr.toNat && s.sec.otpTorn.contains addr.toNat)).raise P.KEYS E.KEYS_OTP_DONE := by
  unfold State.opOtpCtrl
  dsimp only
  rw [cmd_otpValue_known (by decide), addr_otpValue, hidle, hrunning, if_neg (by decide), if_neg (by decide), State.otpWord_storeReg, State.sec_storeReg]
  rfl

theorem State.opOtpCtrl_program (hallowed : s.otpRefusal addr.toNat (s.fld F.KEYS_OTP_DATA_DATA) = none) : s.opOtpCtrl ni (otpValue 2 addr) cut =
    ((s.storeReg ni R.KEYS_OTP_CTRL (otpValue 2 addr)).1.otpProgram addr.toNat (s.fld F.KEYS_OTP_DATA_DATA) cut).raise P.KEYS E.KEYS_OTP_DONE := by
  unfold State.opOtpCtrl
  dsimp only
  rw [cmd_otpValue_known (by decide), addr_otpValue, hidle, hrunning, if_neg (by decide), if_neg (by decide), if_pos rfl, hallowed]
  rfl

end

/-- R537: the reasons of a refused PROGRAM. -/
theorem State.otpRefusal_lt {s : State} {i bits r : Nat} (h : s.otpRefusal i bits = some r) : r < 128 := by
  unfold State.otpRefusal at h
  split_ifs at h <;> cases h <;> decide

/-! ### Words -/

theorem State.otpRaw_otpSet (s : State) (i j bits : Nat) : (s.otpSet i bits).otpRaw j = if j = i then (s.otpRaw i ||| bits) % 2 ^ 32 else s.otpRaw j :=
  SMap.get_put (fun _ => 0) s.sec.otp i j _

theorem State.otpRaw_congr {s t : State} (hsec : t.sec = s.sec) {i : Nat} : t.otpRaw i = s.otpRaw i := by
  rw [State.otpRaw, hsec]
  rfl

/-- R536: a whole pulse on a word that is not POLICY sets bits of that word alone. -/
theorem State.otpProgram_word {s : State} {i : Nat} (bits : Nat) (hword : ¬ (5 ≤ i ∧ i ≤ 7)) : s.otpProgram i bits none = s.otpSet i bits := if_neg hword

/-- R536: a pulse on POLICY sets the same bits in its three copies. -/
theorem State.otpRaw_otpProgram_policy {s : State} {i : Nat} (bits j : Nat) (hpolicy : 5 ≤ i ∧ i ≤ 7) :
    (s.otpProgram i bits none).otpRaw j = if 5 ≤ j ∧ j ≤ 7 then (s.otpRaw j ||| bits) % 2 ^ 32 else s.otpRaw j := by
  have hcopies : s.otpProgram i bits none = ((s.otpSet 5 bits).otpSet 6 bits).otpSet 7 bits := if_pos hpolicy
  rw [hcopies]
  simp only [State.otpRaw_otpSet]
  obtain rfl | rfl | rfl | hother : j = 5 ∨ j = 6 ∨ j = 7 ∨ ¬ (5 ≤ j ∧ j ≤ 7) := by omega
  · rfl
  · rfl
  · rfl
  · rw [if_neg hother, if_neg (by omega), if_neg (by omega), if_neg (by omega)]

section
variable (s : State) (i bits : Nat) (cut : Option (BitVec 32))

/-- A pulse changes the OTP's state alone, by what that state holds. -/
theorem State.otpProgram_only : s.otpProgram i bits cut = { s with sec := (s.otpProgram i bits cut).sec } := by
  unfold State.otpProgram
  dsimp only
  cases cut <;> split_ifs <;> rfl

theorem State.regs_otpProgram : (s.otpProgram i bits cut).regs = s.regs := by rw [State.otpProgram_only]

theorem State.otpProgram_congr {s t : State} (hsec : t.sec = s.sec) : (t.otpProgram i bits cut).sec = (s.otpProgram i bits cut).sec := by
  unfold State.otpProgram State.otpSet State.otpRaw
  dsimp only
  rw [hsec]
  cases cut <;> split_ifs <;> rfl

theorem State.otpProgram_whole : (s.otpProgram i bits none).sec = { s.sec with otp := (s.otpProgram i bits none).sec.otp } := by
  unfold State.otpProgram
  dsimp only
  split <;> rfl

end

/-- R537: a cut pulse on a word with check bits leaves the bits that it set, and marks the word. -/
theorem State.otpProgram_cut {s : State} {i : Nat} (bits : Nat) (cut : BitVec 32) (hword : ¬ (5 ≤ i ∧ i ≤ 7)) (hchecked : otpChecked i = true) :
    s.otpProgram i bits (some cut) =
      { s.otpSet i (bits &&& cut.toNat) with sec := { (s.otpSet i (bits &&& cut.toNat)).sec with otpTorn := s.sec.otpTorn ++ [i] } } := by
  unfold State.otpProgram
  dsimp only
  rw [if_neg hword, if_pos hchecked]
  rfl

/-- The bits of a cut pulse: those of OTP_DATA that the cut lets through. -/
theorem State.and_otpData {s : State} {m cut : BitVec 32} (hm : m = BitVec.ofNat 32 (s.fld F.KEYS_OTP_DATA_DATA) &&& cut) :
    s.fld F.KEYS_OTP_DATA_DATA &&& cut.toNat = m.toNat := by
  rw [hm, BitVec.toNat_and, BitVec.toNat_ofNat]
  exact congrArg (· &&& cut.toNat) (Nat.mod_eq_of_lt (Bits.get_lt (s.raw R.KEYS_OTP_DATA) 0 32)).symm

/-! ### The outcomes -/

section
variable {s : State} {q : Req} {cmd : Nat} {addr : BitVec 8} {cut : Option (BitVec 32)} (hopen : OpenTo s q P.KEYS)
include hopen

theorem State.otpCommand_open : s.otpCommand q cmd addr cut = (s.respond false 0#64).opOtpCtrl q.ni.val (otpValue cmd addr) cut := by
  obtain ⟨hpriv, hrun⟩ := hopen
  exact s.gate_open q R.KEYS_OTP_CTRL .w (otpValue cmd addr) (fun t => t.opOtpCtrl q.ni.val (otpValue cmd addr) cut) (by decide)
    (fun _ => hpriv (by decide +kernel)) hrun

theorem State.otpCommand_busy (hcmd : cmd = 1 ∨ cmd = 2 ∨ cmd = 3) (hbusy : (s.flag F.KEYS_OTP_CTRL_BUSY || s.flag F.KEYS_SLOT_STAT_BUSY) = true) :
    s.RefusedFreely (s.otpCommand q cmd addr cut) R.KEYS_OTP_CTRL 1 := by
  rw [State.otpCommand_open hopen, State.opOtpCtrl_busy (s := s.respond false 0#64) hcmd hbusy]
  exact State.refuseFree_refused s q R.KEYS_OTP_CTRL _ (by decide)

variable (hidle : (s.flag F.KEYS_OTP_CTRL_BUSY || s.flag F.KEYS_SLOT_STAT_BUSY) = false)
include hidle

theorem State.otpCommand_stopped (hcmd : cmd = 1 ∨ cmd = 2 ∨ cmd = 3) (hstopped : s.running P.KEYS = false) :
    s.RefusedFreely (s.otpCommand q cmd addr cut) R.KEYS_OTP_CTRL 9 := by
  rw [State.otpCommand_open hopen, State.opOtpCtrl_stopped (s := s.respond false 0#64) hidle hcmd hstopped]
  exact State.refuseFree_refused s q R.KEYS_OTP_CTRL _ (by decide)

variable (hrunning : s.running P.KEYS = true)
include hrunning

theorem State.otpCommand_refused {r : Nat} (hrefused : s.otpRefusal addr.toNat (s.fld F.KEYS_OTP_DATA_DATA) = some r) (hr : r < 128) :
    s.RefusedFreely (s.otpCommand q 2 addr cut) R.KEYS_OTP_CTRL r := by
  rw [State.otpCommand_open hopen, State.opOtpCtrl_refused (s := s.respond false 0#64) hidle hrunning hrefused]
  exact State.refuseFree_refused s q R.KEYS_OTP_CTRL _ hr

theorem State.otpCommand_read :
    (s.otpCommand q 1 addr none).fld F.KEYS_OTP_DATA_DATA =
        (if otpSecret addr.toNat && s.flag F.PITON_FUSE_WIN_CLOSED then 0 else s.otpWord addr.toNat) % 2 ^ 32 ∧
      (s.otpCommand q 1 addr none).flag F.KEYS_OTP_CTRL_UE = (otpChecked addr.toNat && s.sec.otpTorn.contains addr.toNat) ∧
      (s.otpCommand q 1 addr none).event P.KEYS E.KEYS_OTP_DONE = true ∧
      KeepsRegs s (s.otpCommand q 1 addr none) ([R.KEYS_OTP_CTRL, R.KEYS_OTP_DATA] ++ logRegs P.KEYS) ∧
      s.otpCommand q 1 addr none = { s with regs := (s.otpCommand q 1 addr none).regs, resp := (s.otpCommand q 1 addr none).resp } := by
  rw [State.otpCommand_open hopen, State.opOtpCtrl_read (s := s.respond false 0#64) hidle hrunning]
  refine ⟨?_, ?_, State.event_raise _ _ _ (by decide), ?_, ?_⟩
  · rw [State.fld_raise_ne _ _ _ _ (by decide), State.fld_setFlag_ne _ _ _ _ (by decide)]
    exact State.fld_setFld _ _ _ (by decide)
  · rw [State.flag_raise_ne _ _ _ _ (by decide)]
    exact State.flag_setFlag _ _ _ (by decide) (by decide)
  · exact (((((KeepsRegs.refl s _).of_regs (u := s.respond false 0#64) rfl).storeReg (by decide) (by decide)).setFld (by decide)).setFlag (by decide)).raise (by decide)
  · exact State.rest_of_respond (State.rest_trans (State.storeReg_rest (s.respond false 0#64) _ _ _) rfl)

theorem State.otpCommand_check :
    (s.otpCommand q 3 addr none).flag F.KEYS_OTP_CTRL_MATCH = (s.otpWord addr.toNat == s.fld F.KEYS_OTP_DATA_DATA) ∧
      (s.otpCommand q 3 addr none).event P.KEYS E.KEYS_OTP_DONE = true ∧
      KeepsRegs s (s.otpCommand q 3 addr none) (R.KEYS_OTP_CTRL :: logRegs P.KEYS) ∧
      s.otpCommand q 3 addr none = { s with regs := (s.otpCommand q 3 addr none).regs, resp := (s.otpCommand q 3 addr none).resp } := by
  rw [State.otpCommand_open hopen, State.opOtpCtrl_check (s := s.respond false 0#64) hidle hrunning]
  refine ⟨?_, State.event_raise _ _ _ (by decide), ?_, ?_⟩
  · rw [State.flag_raise_ne _ _ _ _ (by decide), State.flag_setFlag_ne _ _ _ _ (by decide)]
    exact State.flag_setFlag _ _ _ (by decide) (by decide)
  · exact (((((KeepsRegs.refl s _).of_regs (u := s.respond false 0#64) rfl).storeReg (by decide) (by decide)).setFlag (by decide)).setFlag (by decide)).raise (by decide)
  · exact State.rest_of_respond (State.rest_trans (State.storeReg_rest (s.respond false 0#64) _ _ _) rfl)

/-- What a PROGRAM leaves, whatever its pulse does to the words. -/
theorem State.otpCommand_program (hallowed : s.otpRefusal addr.toNat (s.fld F.KEYS_OTP_DATA_DATA) = none) :
    (s.otpCommand q 2 addr cut).sec = (s.otpProgram addr.toNat (s.fld F.KEYS_OTP_DATA_DATA) cut).sec ∧
      (s.otpCommand q 2 addr cut).event P.KEYS E.KEYS_OTP_DONE = true ∧ KeepsRegs s (s.otpCommand q 2 addr cut) (R.KEYS_OTP_CTRL :: logRegs P.KEYS) ∧
      s.otpCommand q 2 addr cut = { s with
        regs := (s.otpCommand q 2 addr cut).regs, resp := (s.otpCommand q 2 addr cut).resp, sec := (s.otpCommand q 2 addr cut).sec } := by
  rw [State.otpCommand_open hopen, State.opOtpCtrl_program (s := s.respond false 0#64) hidle hrunning hallowed]
  have hstored := State.storeReg_rest (s.respond false 0#64) q.ni.val R.KEYS_OTP_CTRL (otpValue 2 addr)
  have hpulse := State.otpProgram_only ((s.respond false 0#64).storeReg q.ni.val R.KEYS_OTP_CTRL (otpValue 2 addr)).1 addr.toNat
    ((s.respond false 0#64).fld F.KEYS_OTP_DATA_DATA) cut
  refine ⟨State.otpProgram_congr _ _ _ State.sec_storeReg, State.event_raise _ _ _ (by decide), ?_, ?_⟩
  · have hregs : KeepsRegs s ((s.respond false 0#64).storeReg q.ni.val R.KEYS_OTP_CTRL (otpValue 2 addr)).1 (R.KEYS_OTP_CTRL :: logRegs P.KEYS) :=
      ((KeepsRegs.refl s _).of_regs (u := s.respond false 0#64) rfl).storeReg (by decide) (by decide)
    exact (hregs.of_regs (State.regs_otpProgram _ _ _ _)).raise (by decide)
  · exact State.rest_of_pulse hstored (by rw [hpulse]; rfl)

end

/-! ### The statement -/

/-- Settles O47: a command is done as Table Keys-2 says, or refused with its reason. -/
theorem otpReadsProgramsAndChecks : Obligations.OtpReadsProgramsAndChecks := by
  unfold Obligations.OtpReadsProgramsAndChecks
  refine ⟨?_, ?_, ?_, ?_, ?_, ?_, ?_, ?_⟩
  · intro s q addr hopen hrunning hotp hslot
    exact ⟨_, rfl, State.otpCommand_read hopen (by rw [hotp, hslot]; rfl) hrunning⟩
  · intro s q addr hopen hotp
    exact ⟨_, rfl, State.otpCommand_busy hopen (by decide) (by rw [hotp]; rfl)⟩
  · intro s q addr hopen hrunning hotp hslot hallowed
    obtain ⟨hsec, hevent, hregs, hrest⟩ := State.otpCommand_program (cut := none) hopen (by rw [hotp, hslot]; rfl) hrunning hallowed
    have hraw (i : Nat) : (s.otpCommand q 2 addr none).otpRaw i = (s.otpProgram addr.toNat (s.fld F.KEYS_OTP_DATA_DATA) none).otpRaw i :=
      State.otpRaw_congr hsec
    refine ⟨_, rfl, fun hword => ⟨?_, fun i hi => ?_⟩, fun hlo hhi i => ?_, hevent, hregs, ?_⟩
    · rw [hraw, State.otpProgram_word _ hword, State.otpRaw_otpSet, if_pos rfl]
    · rw [hraw, State.otpProgram_word _ hword, State.otpRaw_otpSet, if_neg hi]
    · rw [hraw, State.otpRaw_otpProgram_policy _ _ ⟨hlo, hhi⟩]
    · exact hrest.trans (by rw [hsec, State.otpProgram_whole])
  · intro s q addr r hopen hrunning hotp hslot hrefused
    exact ⟨_, rfl, State.otpCommand_refused hopen (by rw [hotp, hslot]; rfl) hrunning hrefused (State.otpRefusal_lt hrefused)⟩
  · intro s q addr hopen hrunning hotp hslot
    exact ⟨_, rfl, State.otpCommand_check hopen (by rw [hotp, hslot]; rfl) hrunning⟩
  · intro s q addr cut m hopen hrunning hotp hslot hallowed hchecked hm hword
    obtain ⟨hsec, hevent, hregs, hrest⟩ := State.otpCommand_program (cut := some cut) hopen (by rw [hotp, hslot]; rfl) hrunning hallowed
    rw [State.otpProgram_cut _ _ hword hchecked, State.and_otpData hm] at hsec
    have hraw (i : Nat) : (s.otpCommand q 2 addr (some cut)).otpRaw i = if i = addr.toNat then (s.otpRaw addr.toNat ||| m.toNat) % 2 ^ 32 else s.otpRaw i :=
      (State.otpRaw_congr (t := s.otpCommand q 2 addr (some cut)) hsec).trans (State.otpRaw_otpSet s _ _ _)
    have htorn (i : Nat) : (s.otpCommand q 2 addr (some cut)).sec.otpTorn.contains i = (s.sec.otpTorn.contains i || i == addr.toNat) := by
      rw [hsec]
      simp [Bool.beq_eq_decide_eq]
    refine ⟨_, rfl, ?_, ?_, fun i hi => ⟨?_, ?_⟩, hevent, hregs, ?_⟩
    · rw [hraw, if_pos rfl]
    · rw [State.otpWord, htorn, hchecked, beq_self_eq_true, Bool.or_true]
      rfl
    · rw [hraw, if_neg hi]
    · rw [State.otpWord, htorn, hraw, if_neg hi, beq_false_of_ne hi, Bool.or_false]
      rfl
    · exact hrest.trans (by rw [hsec]; rfl)
  · intro s q addr cut hopen hbusy
    have hrefused (cmd : Nat) (cut : Option (BitVec 32)) (hcmd : cmd = 1 ∨ cmd = 2 ∨ cmd = 3) := State.otpCommand_busy (addr := addr) (cut := cut) hopen hcmd hbusy
    obtain ⟨hevent, hreason, hregs, hrest⟩ := hrefused 3 none (by decide)
    exact ⟨_, rfl, hevent, hreason, hregs, hrest, _, rfl, hrefused 2 cut (by decide)⟩
  · intro s q addr hopen hotp hslot hstopped
    exact ⟨_, rfl, State.otpCommand_stopped hopen (by rw [hotp, hslot]; rfl) (by decide) hstopped⟩

end Sys2Proof.Machine
end

section
/-! The key slots (R538 to R541): what a slot command leaves, and why one is refused. -/
namespace Sys2Proof.Machine

-- Checked one after another: side by side these evaluations take more memory than the check has.
set_option Elab.async false

/-! ### Tables by key -/

section
variable {α : Type} (m : List (Nat × α)) {j k : Nat}

theorem AMap.get?_erase_ne (h : j ≠ k) : AMap.get? (SMap.erase m k) j = AMap.get? m j := by
  induction m with
  | nil => rfl
  | cons e m ih =>
    unfold SMap.erase at ih ⊢
    by_cases he : e.1 = k
    · rw [List.filter_cons_of_neg (by simpa using he), ih, AMap.get?, if_neg fun hj : e.1 = j => h (hj.symm.trans he)]
    · rw [List.filter_cons_of_pos (by simpa using he), AMap.get?, AMap.get?, ih]

theorem AMap.get?_insert_ne (v : α) (h : j ≠ k) : AMap.get? (SMap.insert m k v) j = AMap.get? m j := by
  induction m with
  | nil => exact if_neg h.symm
  | cons e m ih =>
    unfold SMap.insert
    split
    · exact if_neg h.symm
    · rw [AMap.get?, AMap.get?, ih]

theorem AMap.get?_put_ne (v : α) (h : j ≠ k) : AMap.get? (AMap.put m k v) j = AMap.get? m j :=
  (AMap.get?_insert_ne _ v h).trans (AMap.get?_erase_ne m h)

end

/-- R535: an OTP field is of the OTP's state. -/
theorem State.otpBytes_congr {s t : State} (hsec : t.sec = s.sec) {i n : Nat} : t.otpBytes i n = s.otpBytes i n := by
  have hword (j : Nat) : t.otpWord j = s.otpWord j := by rw [State.otpWord, State.otpWord, State.otpRaw_congr hsec, hsec]
  rw [State.otpBytes, State.otpBytes, List.flatMap_congr fun j _ => by rw [hword]]

/-! ### Fields written in a loop, and bytes -/

/-- A loop that writes one field each time leaves in each what it wrote there. -/
theorem fld_forEach_setFld {n j : Nat} {g : Nat → Fld} {v : Nat → Nat} (hj : j < n) (hapart : ∀ i, i ≠ j → (g j).reg ≠ (g i).reg)
    (hfit : (g j).lo + (g j).width ≤ 64) (s : State) : (forEach n (fun i t => t.setFld (g i) (v i)) s).fld (g j) = v j % 2 ^ (g j).width := by
  obtain ⟨t, -, ht⟩ := forEach_part (part := fun t => t.fld (g j)) (f := fun i t => t.setFld (g i) (v i)) hj
    (fun i t hi => State.fld_setFld_ne _ _ _ _ (Or.inl (hapart i hi))) s
  exact ht.trans (State.fld_setFld _ _ _ hfit)

theorem leNat_lt (bs : List Byte) : leNat bs < 256 ^ bs.length := by
  induction bs with
  | nil => decide
  | cons b bs ih =>
    have hb := b.isLt
    rw [leNat, List.length_cons, Nat.pow_succ]
    omega

theorem length_slice (o n : Nat) (bs : List Byte) : (slice o n bs).length = n := by
  have htaken : ((bs.drop o).take n).length ≤ n := List.length_take_le _ _
  rw [slice, List.length_append, List.length_replicate]
  omega

/-- Four bytes make a word. -/
theorem leNat_slice_word (o : Nat) (bs : List Byte) : leNat (slice o 4 bs) % 2 ^ 32 = leNat (slice o 4 bs) := by
  have hlt := leNat_lt (slice o 4 bs)
  rw [length_slice] at hlt
  exact Nat.mod_eq_of_lt hlt

/-! ### The command -/

/-- What KEYS_SLOT_CMD is written for operation `op`. -/
def slotValue (op : Nat) (slot : Fin 16) (src : BitVec 5) (usage : BitVec 4) : DWord :=
  BitVec.ofNat 64 (F.KEYS_SLOT_CMD_OP.at op + F.KEYS_SLOT_CMD_SLOT.at slot.val + F.KEYS_SLOT_CMD_SRC.at src.toNat + F.KEYS_SLOT_CMD_USAGE.at usage.toNat)

section
variable (op : Nat) (slot : Fin 16) (src : BitVec 5) (usage : BitVec 4)

theorem toNat_slotValue : (slotValue op slot src usage).toNat = op % 8 + slot.val * 16 + src.toNat * 256 + usage.toNat * 65536 := by
  have hslot := slot.isLt
  have hsrc := src.isLt
  have husage := usage.isLt
  simp only [slotValue, Fld.at, F.KEYS_SLOT_CMD_OP, F.KEYS_SLOT_CMD_SLOT, F.KEYS_SLOT_CMD_SRC, F.KEYS_SLOT_CMD_USAGE, BitVec.toNat_ofNat]
  omega

/-- The fields of the command hold what it names. -/
theorem of_slotValue : F.KEYS_SLOT_CMD_OP.of (slotValue op slot src usage) = op % 8 ∧ F.KEYS_SLOT_CMD_SLOT.of (slotValue op slot src usage) = slot.val ∧
    F.KEYS_SLOT_CMD_SRC.of (slotValue op slot src usage) = src.toNat ∧ F.KEYS_SLOT_CMD_USAGE.of (slotValue op slot src usage) = usage.toNat := by
  have hslot := slot.isLt
  have hsrc := src.isLt
  have husage := usage.isLt
  simp only [Fld.of, Bits.get, toNat_slotValue, F.KEYS_SLOT_CMD_OP, F.KEYS_SLOT_CMD_SLOT, F.KEYS_SLOT_CMD_SRC, F.KEYS_SLOT_CMD_USAGE,
    Nat.shiftRight_eq_div_pow]
  omega

end

section
variable {s : State} {ni op n : Nat} {slot : Fin 16} {src : BitVec 5} {usage : BitVec 4} (hop : 1 ≤ op ∧ op ≤ 5) (hsrc : src.toNat ≤ 16)
include hop hsrc

theorem State.opSlotCmd_refused {r : Nat} (hrefused : s.slotRefusal op slot.val src.toNat = some r) :
    s.opSlotCmd ni (slotValue op slot src usage) = s.refuse ni R.KEYS_SLOT_CMD r (slotValue op slot src usage) slot.val := by
  obtain ⟨hops, hslots, hsrcs, -⟩ := of_slotValue op slot src usage
  unfold State.opSlotCmd
  dsimp only
  rw [hops, hslots, hsrcs, Nat.mod_eq_of_lt (by omega), Nat.min_eq_left hsrc, if_neg (by simpa only [Bool.not_eq_true', decide_eq_false_iff_not, not_not] using hop), hrefused]

theorem State.opSlotCmd_done (hallowed : s.slotRefusal op slot.val src.toNat = none) : s.opSlotCmd ni (slotValue op slot src usage) =
    ((s.storeReg ni R.KEYS_SLOT_CMD (slotValue op slot src usage)).1.slotEffect op slot.val src.toNat usage.toNat).raise P.KEYS E.KEYS_CMD_DONE := by
  obtain ⟨hops, hslots, hsrcs, husages⟩ := of_slotValue op slot src usage
  unfold State.opSlotCmd
  dsimp only
  rw [hops, hslots, hsrcs, husages, Nat.mod_eq_of_lt (by omega), Nat.min_eq_left hsrc, if_neg (by simpa only [Bool.not_eq_true', decide_eq_false_iff_not, not_not] using hop), hallowed]

end

/-- Table Keys-3: the reasons of a refused slot command. -/
theorem State.slotRefusal_lt {s : State} {op n src r : Nat} (h : s.slotRefusal op n src = some r) : r < 128 := by
  unfold State.slotRefusal at h
  dsimp only at h
  split_ifs at h <;> cases h <;> decide

/-- A state that differs from `s` in registers, the response and the state of the security units. -/
theorem State.rest_of_stored {s t u : State} (ht : t = { s with regs := t.regs, resp := t.resp }) (hu : u = { t with regs := u.regs, sec := u.sec }) :
    u = { s with regs := u.regs, resp := u.resp, sec := u.sec } := by
  rw [hu, ht]

/-! ### Outcomes -/

/-- The state in which KEYS_SLOT_CMD is stored, and the command not yet done. -/
def State.slotStored (s : State) (q : Req) (v : DWord) : State := ((s.respond false 0#64).storeReg q.ni.val R.KEYS_SLOT_CMD v).1

section
variable (s : State) (q : Req) (v : DWord)

theorem State.slotStored_keepsRegs : KeepsRegs s (s.slotStored q v) (R.KEYS_SLOT_CMD :: logRegs P.KEYS) :=
  ((KeepsRegs.refl s _).of_regs (u := s.respond false 0#64) rfl).storeReg (by decide) (by decide)

theorem State.slotStored_rest : s.slotStored q v = { s with regs := (s.slotStored q v).regs, resp := (s.slotStored q v).resp } :=
  State.rest_of_respond (State.storeReg_rest (s.respond false 0#64) _ _ _)

theorem State.sec_slotStored : (s.slotStored q v).sec = s.sec := by rw [State.slotStored_rest]

theorem State.slotData_slotStored (k : Nat) : (s.slotStored q v).fld (F.KEYS_SLOT_DATA_DATA k) = s.fld (F.KEYS_SLOT_DATA_DATA k) := by
  refine (s.slotStored_keepsRegs q v).fld ?_
  have hcmd : R.KEYS_SLOT_DATA k ≠ R.KEYS_SLOT_CMD := by
    simp only [R.KEYS_SLOT_DATA, R.KEYS_SLOT_CMD]
    omega
  have hlog : ∀ a ∈ logRegs P.KEYS, a < 0x100F4060 := by decide
  have hdata : 0x100F4060 ≤ R.KEYS_SLOT_DATA k := Nat.le_add_right _ _
  exact List.not_mem_cons_of_ne_of_not_mem hcmd fun h => absurd (hlog (R.KEYS_SLOT_DATA k) h) (Nat.not_lt.2 hdata)

end

section
variable {s : State} {q : Req} {op : Nat} {slot : Fin 16} {src : BitVec 5} {usage : BitVec 4} (hopen : OpenTo s q P.KEYS) (hop : 1 ≤ op ∧ op ≤ 5)
  (hsrc : src.toNat ≤ 16)
include hopen hop hsrc

/-- A refused command: the log alone, with the reason of Table Keys-3. -/
theorem State.slotCommand_refused {r : Nat} (hrefused : s.slotRefusal op slot.val src.toNat = some r) :
    (s.slotCommand q op slot src usage).event P.KEYS 31 = true ∧
      (s.flag (F.CLAMP_ADDR_VALID P.KEYS) = false → (s.slotCommand q op slot src usage).fld (F.CLAMP_ADDR_REASON P.KEYS) = r) ∧
      KeepsRegs s (s.slotCommand q op slot src usage) (logRegs P.KEYS) ∧
      s.slotCommand q op slot src usage = { s with regs := (s.slotCommand q op slot src usage).regs, resp := (s.slotCommand q op slot src usage).resp } := by
  obtain ⟨hpriv, hrun⟩ := hopen
  have hcommand : s.slotCommand q op slot src usage = (s.respond false 0#64).refuse q.ni.val R.KEYS_SLOT_CMD r (slotValue op slot src usage) slot.val :=
    (s.gate_open q R.KEYS_SLOT_CMD .w (slotValue op slot src usage) (fun t => t.opSlotCmd q.ni.val (slotValue op slot src usage)) (by decide)
      (fun _ => hpriv (by decide +kernel)) hrun).trans (State.opSlotCmd_refused (s := s.respond false 0#64) hop hsrc hrefused)
  obtain ⟨hevent, -, -, hlogged⟩ :=
    (s.respond false 0#64).refused_refuse q R.KEYS_SLOT_CMD r (slotValue op slot src usage) slot.val (State.slotRefusal_lt hrefused)
  rw [hcommand]
  refine ⟨hevent, fun hempty => ?_, ?_, State.rest_of_respond (State.clampEvents_rest (s.respond false 0#64) _ _ _ _ _ _ _)⟩
  · obtain ⟨-, -, hcode, -⟩ := hlogged hempty
    exact hcode
  · exact ((KeepsRegs.refl s (logRegs P.KEYS)).of_regs (u := s.respond false 0#64) rfl).refuse (a := R.KEYS_SLOT_CMD) fun _ h => h

theorem State.slotCommand_done (hallowed : s.slotRefusal op slot.val src.toNat = none) : s.slotCommand q op slot src usage =
    ((s.slotStored q (slotValue op slot src usage)).slotEffect op slot.val src.toNat usage.toNat).raise P.KEYS E.KEYS_CMD_DONE := by
  obtain ⟨hpriv, hrun⟩ := hopen
  exact (s.gate_open q R.KEYS_SLOT_CMD .w (slotValue op slot src usage) (fun t => t.opSlotCmd q.ni.val (slotValue op slot src usage)) (by decide)
    (fun _ => hpriv (by decide +kernel)) hrun).trans (State.opSlotCmd_done (s := s.respond false 0#64) hop hsrc hallowed)

end

/-! ### Effects -/

theorem State.slot_setSlot (s : State) (n : Nat) (key : List Byte) (usage : BitVec 4) :
    (s.setSlot n key usage.toNat).slot n = some ⟨BitVec.ofNat 256 (leNat key), usage⟩ := by
  rw [State.slot, State.setSlot, AMap.get?_put, BitVec.ofNat_toNat, BitVec.setWidth_eq]

theorem State.slot_setSlot_ne (s : State) {m n : Nat} (key : List Byte) (usage : Nat) (h : m ≠ n) : (s.setSlot n key usage).slot m = s.slot m :=
  AMap.get?_put_ne _ _ h

theorem State.slot_clearSlot (s : State) (n : Nat) : (s.clearSlot n).slot n = none := AMap.get?_erase _ _

theorem State.slot_clearSlot_ne (s : State) {m n : Nat} (h : m ≠ n) : (s.clearSlot n).slot m = s.slot m := AMap.get?_erase_ne _ h

/-- R540: a derived key is of the label and the OTP. -/
theorem State.kdf_slotStored (s : State) (q : Req) (v : DWord) (src : List Byte) : (s.slotStored q v).kdf src = s.kdf src := by
  have hlabel : ∀ n ∈ List.range 6, (s.slotStored q v).fld (F.KEYS_LABEL_LABEL n) = s.fld (F.KEYS_LABEL_LABEL n) := by
    have houtside : ∀ n ∈ List.range 6, (F.KEYS_LABEL_LABEL n).reg ∉ R.KEYS_SLOT_CMD :: logRegs P.KEYS := by decide
    exact fun n hn => (s.slotStored_keepsRegs q v).fld (houtside n hn)
  have hbytes : (s.slotStored q v).otpBytes 0 4 = s.otpBytes 0 4 := State.otpBytes_congr (s.sec_slotStored q v)
  rw [State.kdf, State.kdf, hbytes, List.flatMap_congr fun n hn => by rw [hlabel n hn]]

/-- The frame of a command that changes the slots, and registers of `l`. -/
theorem State.slots_frame {s t : State} {q : Req} {v : DWord} {z : List (Nat × KeySlot)} {l : List Nat} (hregs : KeepsRegs (s.slotStored q v) t l)
    (hl : ∀ a ∈ R.KEYS_SLOT_CMD :: logRegs P.KEYS, a ∈ l) (ht : t = { s.slotStored q v with regs := t.regs, sec := { s.sec with slots := z } }) :
    KeepsRegs s (t.raise P.KEYS E.KEYS_CMD_DONE) l ∧ t.raise P.KEYS E.KEYS_CMD_DONE =
      { s with
        regs := (t.raise P.KEYS E.KEYS_CMD_DONE).regs, resp := (t.raise P.KEYS E.KEYS_CMD_DONE).resp,
        sec := { s.sec with slots := (t.raise P.KEYS E.KEYS_CMD_DONE).sec.slots } } := by
  refine ⟨((KeepsRegs.mono (s.slotStored_keepsRegs q v) hl).trans hregs).raise (hl _ (by decide)), ?_⟩
  have hsec : (t.raise P.KEYS E.KEYS_CMD_DONE).sec = { s.sec with slots := z } := by rw [ht]; rfl
  have hrest : t.raise P.KEYS E.KEYS_CMD_DONE = { s with
      regs := (t.raise P.KEYS E.KEYS_CMD_DONE).regs, resp := (t.raise P.KEYS E.KEYS_CMD_DONE).resp, sec := (t.raise P.KEYS E.KEYS_CMD_DONE).sec } :=
    State.rest_of_stored (s.slotStored_rest q v) (by rw [ht]; rfl)
  exact hrest.trans (by rw [hsec])

theorem State.slot_slotStored (s : State) (q : Req) (v : DWord) (m : Nat) : (s.slotStored q v).slot m = s.slot m := by
  rw [State.slot, State.sec_slotStored]
  rfl

/-- A command that fills slot `n` of a stored command's state: the slot, the others, and the frame. -/
theorem State.setSlot_effect {s t : State} {q : Req} {v : DWord} {n : Nat} (key : List Byte) (usage : BitVec 4)
    (ht : t = (s.slotStored q v).setSlot n key usage.toNat) :
    (t.raise P.KEYS E.KEYS_CMD_DONE).slot n = some ⟨BitVec.ofNat 256 (leNat key), usage⟩ ∧
      (∀ m, m ≠ n → (t.raise P.KEYS E.KEYS_CMD_DONE).slot m = s.slot m) ∧
      KeepsRegs s (t.raise P.KEYS E.KEYS_CMD_DONE) (R.KEYS_SLOT_CMD :: logRegs P.KEYS) ∧ t.raise P.KEYS E.KEYS_CMD_DONE =
        { s with
          regs := (t.raise P.KEYS E.KEYS_CMD_DONE).regs, resp := (t.raise P.KEYS E.KEYS_CMD_DONE).resp,
          sec := { s.sec with slots := (t.raise P.KEYS E.KEYS_CMD_DONE).sec.slots } } := by
  have hframe := State.slots_frame (l := R.KEYS_SLOT_CMD :: logRegs P.KEYS) (s := s) (q := q) (v := v) (t := t) ((KeepsRegs.refl _ _).of_regs (by rw [ht]; rfl))
    (fun _ h => h) (by rw [ht, State.setSlot, State.sec_slotStored])
  subst ht
  exact ⟨State.slot_setSlot _ _ _ _, fun m hm => (State.slot_setSlot_ne _ _ _ hm).trans (s.slot_slotStored q v m), hframe⟩

/-- The registers of SLOT_DATA. -/
def slotDataRegs : List Nat := (List.range 8).map R.KEYS_SLOT_DATA

/-- SLOT_DATA written word by word, with `w`. -/
def State.writeSlotData (s : State) (w : Nat → Nat) : State := forEach 8 (fun k t => t.setFld (F.KEYS_SLOT_DATA_DATA k) (w k)) s

section
variable (s : State) (w : Nat → Nat)

theorem State.writeSlotData_rest : s.writeSlotData w = { s with regs := (s.writeSlotData w).regs } := forEach_rest (fun _ _ => rfl) s

theorem State.writeSlotData_keepsRegs : KeepsRegs s (s.writeSlotData w) slotDataRegs :=
  (KeepsRegs.refl s _).forEach fun _ hk _ hu => hu.setFld (List.mem_map.2 ⟨_, List.mem_range.2 hk, rfl⟩)

theorem State.fld_writeSlotData (k : Fin 8) : (s.writeSlotData w).fld (F.KEYS_SLOT_DATA_DATA k.val) = w k.val % 2 ^ 32 := by
  refine fld_forEach_setFld (g := F.KEYS_SLOT_DATA_DATA) k.isLt (fun i hi => ?_) (show 0 + 32 ≤ 64 by decide) s
  simp only [F.KEYS_SLOT_DATA_DATA, R.KEYS_SLOT_DATA]
  omega

end

theorem State.slotData_raise (s : State) (k : Nat) :
    (s.raise P.KEYS E.KEYS_CMD_DONE).fld (F.KEYS_SLOT_DATA_DATA k) = s.fld (F.KEYS_SLOT_DATA_DATA k) := by
  have hevents : R.EVT_RAW P.KEYS < 0x100F4060 := by decide
  refine State.fld_raise_ne _ _ _ _ fun h => ?_
  simp only [F.KEYS_SLOT_DATA_DATA, R.KEYS_SLOT_DATA] at h
  omega

/-! ### The commands that are done -/

/-- The bytes of SLOT_DATA. -/
def State.slotDataBytes (s : State) : List Byte := (List.range 8).flatMap fun k => leBytes 4 (s.fld (F.KEYS_SLOT_DATA_DATA k))

theorem State.slotEffect_load (s : State) (n src usage : Nat) :
    s.slotEffect 1 n src usage = (s.setSlot n s.slotDataBytes usage).writeSlotData fun _ => 0 := rfl

section
variable {s : State} {q : Req} {slot : Fin 16} {usage : BitVec 4} (hopen : OpenTo s q P.KEYS)
include hopen

/-- LOAD fills the slot from SLOT_DATA, which it clears. -/
theorem State.slotCommand_load (hallowed : s.slotRefusal 1 slot.val 0 = none) : ∃ t, s.slotCommand q 1 slot 0#5 usage = t ∧
    t.slot slot.val = some ⟨BitVec.ofNat 256 (leNat s.slotDataBytes), usage⟩ ∧ (∀ m : Fin 16, m ≠ slot → t.slot m.val = s.slot m.val) ∧
    (∀ k : Fin 8, t.fld (F.KEYS_SLOT_DATA_DATA k.val) = 0) ∧ t.event P.KEYS E.KEYS_CMD_DONE = true ∧
    KeepsRegs s t (R.KEYS_SLOT_CMD :: slotDataRegs ++ logRegs P.KEYS) ∧
    t = { s with regs := t.regs, resp := t.resp, sec := { s.sec with slots := t.sec.slots } } := by
  obtain ⟨u, hu⟩ : ∃ u, u = (s.slotStored q (slotValue 1 slot 0#5 usage)).setSlot slot.val s.slotDataBytes usage.toNat := ⟨_, rfl⟩
  have hdata : (s.slotStored q (slotValue 1 slot 0#5 usage)).slotDataBytes = s.slotDataBytes :=
    List.flatMap_congr fun k _ => by rw [State.slotData_slotStored]
  have hdone : s.slotCommand q 1 slot 0#5 usage = (u.writeSlotData fun _ => 0).raise P.KEYS E.KEYS_CMD_DONE := by
    rw [State.slotCommand_done hopen (by decide) (by decide) hallowed, State.slotEffect_load, hdata, hu]
  obtain ⟨x, hx⟩ : ∃ x, x = u.writeSlotData fun _ => 0 := ⟨_, rfl⟩
  have hrest : x = { u with regs := x.regs } := hx ▸ u.writeSlotData_rest fun _ => 0
  have hregs : KeepsRegs u x slotDataRegs := hx ▸ u.writeSlotData_keepsRegs fun _ => 0
  have hslot (m : Nat) : (x.raise P.KEYS E.KEYS_CMD_DONE).slot m = u.slot m := by
    rw [hrest]
    rfl
  rw [← hx] at hdone
  refine ⟨_, hdone, ?_, fun m hm => ?_, fun k => ?_, State.event_raise _ _ _ (by decide), ?_⟩
  · rw [hslot, hu, State.slot_setSlot]
  · rw [hslot, hu, State.slot_setSlot_ne _ _ _ (fun h => hm (Fin.ext h)), State.slot_slotStored]
  · rw [State.slotData_raise, hx, State.fld_writeSlotData, Nat.zero_mod]
  · refine State.slots_frame (s := s) (q := q) (v := slotValue 1 slot 0#5 usage) (z := u.sec.slots) ?_ (by decide) ?_
    · exact ((KeepsRegs.refl _ _).of_regs (by rw [hu]; rfl)).trans (KeepsRegs.mono hregs (by decide))
    · refine hrest.trans ?_
      rw [hu, State.setSlot, State.sec_slotStored]

/-- READ shows the key in SLOT_DATA. -/
theorem State.slotCommand_read {x : KeySlot} (hallowed : s.slotRefusal 2 slot.val 0 = none) (hslot : s.slot slot.val = some x) :
    ∃ t, s.slotCommand q 2 slot 0#5 0#4 = t ∧ (∀ w : Fin 8, t.fld (F.KEYS_SLOT_DATA_DATA w.val) = leNat (slice (4 * w.val) 4 x.bytes)) ∧
      t.event P.KEYS E.KEYS_CMD_DONE = true ∧ KeepsRegs s t (R.KEYS_SLOT_CMD :: slotDataRegs ++ logRegs P.KEYS) ∧
      t = { s with regs := t.regs, resp := t.resp } := by
  obtain ⟨u, hu⟩ : ∃ u, u = s.slotStored q (slotValue 2 slot 0#5 0#4) := ⟨_, rfl⟩
  have hsame : u.slot slot.val = some x := by rw [hu, State.slot_slotStored, hslot]
  have hdone : s.slotCommand q 2 slot 0#5 0#4 =
      (u.writeSlotData fun w => leNat (slice (4 * w) 4 x.bytes)).raise P.KEYS E.KEYS_CMD_DONE := by
    rw [State.slotCommand_done hopen (by decide) (by decide) hallowed, ← hu, State.slotEffect, if_neg (by decide), if_pos rfl, hsame]
    rfl
  have hrest := u.writeSlotData_rest fun w => leNat (slice (4 * w) 4 x.bytes)
  refine ⟨_, hdone, fun w => ?_, State.event_raise _ _ _ (by decide), ?_, ?_⟩
  · rw [State.slotData_raise, State.fld_writeSlotData, leNat_slice_word]
  · have hstored : KeepsRegs s u (R.KEYS_SLOT_CMD :: slotDataRegs ++ logRegs P.KEYS) := hu ▸ KeepsRegs.mono (s.slotStored_keepsRegs q _) (by decide)
    exact (hstored.trans (KeepsRegs.mono (u.writeSlotData_keepsRegs _) (by decide))).raise (by decide)
  · have hstored : u = { s with regs := u.regs, resp := u.resp } := hu ▸ s.slotStored_rest q _
    rw [hrest, hstored]
    rfl

/-- CLEAR empties the slot. -/
theorem State.slotCommand_clear (hallowed : s.slotRefusal 3 slot.val 0 = none) : ∃ t, s.slotCommand q 3 slot 0#5 0#4 = t ∧
    t.slot slot.val = none ∧ (∀ m : Fin 16, m ≠ slot → t.slot m.val = s.slot m.val) ∧ t.event P.KEYS E.KEYS_CMD_DONE = true ∧
    KeepsRegs s t (R.KEYS_SLOT_CMD :: logRegs P.KEYS) ∧ t = { s with regs := t.regs, resp := t.resp, sec := { s.sec with slots := t.sec.slots } } := by
  obtain ⟨u, hu⟩ : ∃ u, u = s.slotStored q (slotValue 3 slot 0#5 0#4) := ⟨_, rfl⟩
  have hdone : s.slotCommand q 3 slot 0#5 0#4 = (u.clearSlot slot.val).raise P.KEYS E.KEYS_CMD_DONE := by
    rw [State.slotCommand_done hopen (by decide) (by decide) hallowed, hu]
    rfl
  refine ⟨_, hdone, State.slot_clearSlot _ _, fun m hm => ?_, State.event_raise _ _ _ (by decide), ?_⟩
  · exact (State.slot_clearSlot_ne _ fun h => hm (Fin.ext h)).trans (hu ▸ s.slot_slotStored q _ _)
  · refine State.slots_frame (s := s) (q := q) (v := slotValue 3 slot 0#5 0#4) (z := SMap.erase s.sec.slots slot.val) ((KeepsRegs.refl _ _).of_regs (by rw [hu]; rfl)) (fun _ h => h) ?_
    rw [hu, State.clearSlot, State.sec_slotStored]

/-- R540: DERIVE from `src`, a slot or the device's root, whose bytes are `key`. -/
theorem State.slotCommand_derive {src : BitVec 5} {key : List Byte} (hsrc : src.toNat ≤ 16) (hallowed : s.slotRefusal 4 slot.val src.toNat = none)
    (hkey : src.toNat = 16 ∧ key = s.deviceRoot ∨ src.toNat ≠ 16 ∧ ∃ x, s.slot src.toNat = some x ∧ key = x.bytes) :
    ∃ t, s.slotCommand q 4 slot src usage = t ∧ t.slot slot.val = some ⟨BitVec.ofNat 256 (leNat (s.kdf key)), usage⟩ ∧
      (∀ m : Fin 16, m ≠ slot → t.slot m.val = s.slot m.val) ∧ t.event P.KEYS E.KEYS_CMD_DONE = true ∧
      KeepsRegs s t (R.KEYS_SLOT_CMD :: logRegs P.KEYS) ∧ t = { s with regs := t.regs, resp := t.resp, sec := { s.sec with slots := t.sec.slots } } := by
  have hroot : (s.slotStored q (slotValue 4 slot src usage)).deviceRoot = s.deviceRoot := State.otpBytes_congr (s.sec_slotStored q _)
  have hdone : s.slotCommand q 4 slot src usage =
      ((s.slotStored q (slotValue 4 slot src usage)).setSlot slot.val (s.kdf key) usage.toNat).raise P.KEYS E.KEYS_CMD_DONE := by
    rw [State.slotCommand_done hopen (by decide) hsrc hallowed, State.slotEffect, if_neg (by decide), if_neg (by decide), if_neg (by decide), if_pos rfl,
      hroot, State.slot_slotStored, State.kdf_slotStored]
    obtain ⟨h16, rfl⟩ | ⟨h16, x, hslot, rfl⟩ := hkey
    · rw [if_pos h16]
    · rw [if_neg h16, hslot]
  obtain ⟨hfilled, hothers, hregs, hrest⟩ := State.setSlot_effect (s := s) (s.kdf key) usage rfl
  exact ⟨_, hdone, hfilled, fun m hm => hothers _ fun h => hm (Fin.ext h), State.event_raise _ _ _ (by decide), hregs, hrest⟩

/-- GENERATE takes the key from two whole blocks. -/
theorem State.slotCommand_generate {b0 b1 : BitVec 128} {rest : List (BitVec 128)} (hallowed : s.slotRefusal 5 slot.val 0 = none)
    (hquarters : s.sec.quarters = 0) (hqueue : s.sec.queue = b0 :: b1 :: rest) : ∃ t, s.slotCommand q 5 slot 0#5 usage = t ∧
      t.slot slot.val = some ⟨BitVec.ofNat 256 (leNat (leBytes 16 b0.toNat ++ leBytes 16 b1.toNat)), usage⟩ ∧
      (∀ m : Fin 16, m ≠ slot → t.slot m.val = s.slot m.val) ∧ t.sec.queue = rest ∧ t.event P.KEYS E.KEYS_CMD_DONE = true ∧
      KeepsRegs s t (R.KEYS_SLOT_CMD :: logRegs P.KEYS) ∧
      t = { s with regs := t.regs, resp := t.resp, sec := { s.sec with slots := t.sec.slots, queue := rest } } := by
  obtain ⟨u, hu⟩ : ∃ u, u = s.slotStored q (slotValue 5 slot 0#5 usage) := ⟨_, rfl⟩
  have husec : u.sec = s.sec := hu ▸ s.sec_slotStored q _
  have hblocks : u.blocksNow 2 = (leBytes 16 b0.toNat ++ leBytes 16 b1.toNat, { u with sec := { u.sec with queue := rest } }) := by
    have htaken : u.takeBlocks 2 = some (leBytes 16 b0.toNat ++ leBytes 16 b1.toNat, { u with sec := { u.sec with queue := rest } }) := by
      rw [State.takeBlocks, husec, hquarters, hqueue]
      simp [hquarters]
    rw [State.blocksNow, htaken]
  have hdone : s.slotCommand q 5 slot 0#5 usage = (({ u with sec := { u.sec with queue := rest } } : State).setSlot slot.val
      (leBytes 16 b0.toNat ++ leBytes 16 b1.toNat) usage.toNat).raise P.KEYS E.KEYS_CMD_DONE := by
    rw [State.slotCommand_done hopen (by decide) (by decide) hallowed, ← hu, State.slotEffect, if_neg (by decide), if_neg (by decide), if_neg (by decide),
      if_neg (by decide), hblocks]
  have hstored : u = { s with regs := u.regs, resp := u.resp } := hu ▸ s.slotStored_rest q _
  have hregs : KeepsRegs s u (R.KEYS_SLOT_CMD :: logRegs P.KEYS) := hu ▸ s.slotStored_keepsRegs q _
  refine ⟨_, hdone, State.slot_setSlot _ _ _ _, fun m hm => ?_, rfl, State.event_raise _ _ _ (by decide), (hregs.of_regs rfl).raise (by decide), ?_⟩
  · exact (State.slot_setSlot_ne _ _ _ fun h => hm (Fin.ext h)).trans (hu ▸ s.slot_slotStored q _ _)
  · have hrest := State.rest_of_stored hstored (u := (({ u with sec := { u.sec with queue := rest } } : State).setSlot slot.val
      (leBytes 16 b0.toNat ++ leBytes 16 b1.toNat) usage.toNat).raise P.KEYS E.KEYS_CMD_DONE) rfl
    refine hrest.trans ?_
    rw [← husec]
    rfl

end

end Sys2Proof.Machine
end

section
/-! The TRNG (R544 to R548): generate requests, health tests and TRNG_DATA. -/
namespace Sys2Proof.Machine

/-! ### Generate requests -/

theorem State.takeFrees_rest (n : Nat) (s : State) : (s.takeFrees n).2 = { s with fresh := (s.takeFrees n).2.fresh } := by
  induction n generalizing s with
  | zero => rfl
  | succ n ih => exact (ih s.takeFree.2).trans rfl

/-- R544: a generate request puts sixteen blocks behind a queue with room for them. -/
theorem State.generate_queue {s : State} (hroom : s.sec.queue.length ≤ 48) :
    s.generate.sec.queue.length = s.sec.queue.length + 16 ∧ s.generate.sec.queue.take s.sec.queue.length = s.sec.queue ∧
      s.generate.sec.requests = s.sec.requests + 1 ∧
      s.generate = { s with fresh := s.generate.fresh, sec := { s.sec with queue := s.generate.sec.queue, requests := s.generate.sec.requests } } := by
  have hfree := State.takeFrees_rest 32 s
  unfold State.generate
  dsimp only
  rw [hfree]
  refine ⟨?_, ?_, rfl, rfl⟩
  · simp only [List.length_take, List.length_append, List.length_map, List.length_range]
    omega
  · rw [List.take_take, Nat.min_eq_left (by omega), List.take_left]

/-- R547: with nobody waiting nothing is handed out. -/
theorem State.serveWaiting_none {s : State} (h : s.sec.waiting = []) : s.serveWaiting = s := by
  rw [State.serveWaiting, h]
  rfl

/-! ### Health tests -/

theorem State.failWaiting_none {s : State} (h : s.sec.waiting = []) (fatal : Bool) : s.failWaiting fatal = s := by
  have hsame : ({ s with sec := { s.sec with waiting := [] } } : State) = s := by rw [← h]
  unfold State.failWaiting
  rw [h]
  cases fatal <;> exact hsame

/-- R545: how long ago the last three failures were. -/
def State.failTimes (s : State) (ms : Nat) : List Nat := (0 :: s.sec.failures.map (fun a => a + ms)).take 3

/-- R545: the state in which the queue is dropped, and the failure's time is noted. -/
def State.queueDropped (s : State) (ms : Nat) : State := { s with sec := { s.sec with queue := [], quarters := 0, failures := s.failTimes ms } }

/-- R545: such a state with the failure counted. -/
def State.failCounted (s : State) (test ms : Nat) : State :=
  ((((s.queueDropped ms).bumpSat F.TRNG_FAIL_COUNT F.TRNG_FAIL_SAT).setFld F.TRNG_FAIL_LAST_TEST test).setFld F.TRNG_STAT_FAILS
    ((s.failTimes ms).filter (fun a => decide (a ≤ 1000))).length).raise P.TRNG E.TRNG_HEALTH_FAIL

section
variable (s : State) (test ms : Nat)

theorem State.failCounted_keepsRegs : KeepsRegs s (s.failCounted test ms) [R.TRNG_STAT, R.TRNG_FAIL, R.EVT_RAW P.TRNG] :=
  (((((KeepsRegs.refl s _).of_regs (u := s.queueDropped ms) rfl).bumpSat (by decide) (by decide)).setFld (by decide)).setFld (by decide)).raise (by decide)

theorem State.failCounted_rest : s.failCounted test ms = { s.queueDropped ms with regs := (s.failCounted test ms).regs } := by
  have hbumped := (s.queueDropped ms).bumpSat_rest F.TRNG_FAIL_COUNT F.TRNG_FAIL_SAT
  exact State.rest_trans hbumped rfl

theorem State.failCounted_event : (s.failCounted test ms).event P.TRNG E.TRNG_HEALTH_FAIL = true := State.event_raise _ _ _ (by decide)

theorem State.failCounted_test (htest : test < 4) : (s.failCounted test ms).fld F.TRNG_FAIL_LAST_TEST = test := by
  rw [State.failCounted, State.fld_raise_ne _ _ _ _ (by decide), State.fld_setFld_ne _ _ _ _ (by decide), State.fld_setFld _ _ _ (by decide)]
  exact Nat.mod_eq_of_lt htest

theorem State.failCounted_count : (s.failCounted test ms).fld F.TRNG_FAIL_COUNT = min (2 ^ F.TRNG_FAIL_COUNT.width - 1) (s.fld F.TRNG_FAIL_COUNT + 1) := by
  rw [State.failCounted, State.fld_raise_ne _ _ _ _ (by decide), State.fld_setFld_ne _ _ _ _ (by decide), State.fld_setFld_ne _ _ _ _ (by decide)]
  exact State.fld_bumpSat (s.queueDropped ms) (by decide) (by decide)

end

theorem State.failWaiting_failCounted {s : State} (hwait : s.sec.waiting = []) (test ms : Nat) (fatal : Bool) :
    (s.failCounted test ms).failWaiting fatal = s.failCounted test ms := by
  refine State.failWaiting_none ?_ fatal
  rw [State.failCounted_rest]
  exact hwait

/-- R545: the failure is the third within a second. -/
def State.failsFatally (s : State) (ms : Nat) : Bool := decide ((s.failTimes ms).length = 3 ∧ (s.failTimes ms).getD 2 0 ≤ 1000)

section
variable {s : State} {test ms : Nat} {inj : Bool} (hon : ¬ (s.fld F.TRNG_STAT_STATE = 0 ∨ s.fld F.TRNG_STAT_STATE = 4))
include hon

theorem State.opHealthFail_counted : s.opHealthFail test ms inj =
    if s.failsFatally ms then (((((s.failCounted test ms).failWaiting (s.failsFatally ms)).drbgZero).setFld F.TRNG_STAT_STATE 4).raise P.TRNG
      E.TRNG_FATAL).signal { FaultInput.of 22 0 0 0 with injected := inj }
    else ((s.failCounted test ms).failWaiting (s.failsFatally ms)).setFld F.TRNG_STAT_STATE 3 := if_neg hon

variable (hwait : s.sec.waiting = [])
include hwait

/-- Table Keys-5: a failure that is not the third within a second. -/
theorem State.opHealthFail_recover (hfew : s.failsFatally ms = false) :
    s.opHealthFail test ms inj = (s.failCounted test ms).setFld F.TRNG_STAT_STATE 3 := by
  rw [State.opHealthFail_counted hon, hfew, State.failWaiting_failCounted hwait]
  rfl

theorem State.opHealthFail_fatal (hmany : s.failsFatally ms = true) : s.opHealthFail test ms inj =
    (((s.failCounted test ms).drbgZero.setFld F.TRNG_STAT_STATE 4).raise P.TRNG E.TRNG_FATAL).signal { FaultInput.of 22 0 0 0 with injected := inj } := by
  rw [State.opHealthFail_counted hon, hmany, State.failWaiting_failCounted hwait]
  rfl

end

/-- What such a failure leaves. -/
theorem State.recover_effect (s : State) (ms : Nat) {test : Nat} (htest : test < 4) :
    ((s.failCounted test ms).setFld F.TRNG_STAT_STATE 3).fld F.TRNG_STAT_STATE = 3 ∧
      ((s.failCounted test ms).setFld F.TRNG_STAT_STATE 3).sec.queue = [] ∧
      ((s.failCounted test ms).setFld F.TRNG_STAT_STATE 3).fld F.TRNG_FAIL_LAST_TEST = test ∧
      ((s.failCounted test ms).setFld F.TRNG_STAT_STATE 3).fld F.TRNG_FAIL_COUNT = min (2 ^ F.TRNG_FAIL_COUNT.width - 1) (s.fld F.TRNG_FAIL_COUNT + 1) ∧
      ((s.failCounted test ms).setFld F.TRNG_STAT_STATE 3).event P.TRNG E.TRNG_HEALTH_FAIL = true ∧
      KeepsRegs s ((s.failCounted test ms).setFld F.TRNG_STAT_STATE 3) [R.TRNG_STAT, R.TRNG_FAIL, R.EVT_RAW P.TRNG] ∧
      (s.failCounted test ms).setFld F.TRNG_STAT_STATE 3 = { s with
        regs := ((s.failCounted test ms).setFld F.TRNG_STAT_STATE 3).regs, sec := { s.sec with queue := [], quarters := 0, failures := s.failTimes ms } } ∧
      ((s.failCounted test ms).setFld F.TRNG_STAT_STATE 3).sec.failures = s.failTimes ms := by
  have hrest := State.rest_trans (s.failCounted_rest test ms) (u := (s.failCounted test ms).setFld F.TRNG_STAT_STATE 3) rfl
  refine ⟨State.fld_setFld _ _ _ (by decide), ?_, ?_, ?_, ?_, (s.failCounted_keepsRegs test ms).setFld (by decide), hrest, ?_⟩
  · rw [hrest]
    rfl
  · rw [State.fld_setFld_ne _ _ _ _ (by decide), s.failCounted_test _ ms htest]
  · rw [State.fld_setFld_ne _ _ _ _ (by decide), State.failCounted_count]
  · rw [State.event_setFld_ne _ _ _ _ _ (by decide), State.failCounted_event]
  · rw [hrest]
    rfl

/-- R545: the state of FATAL, its fault not yet signalled. -/
def State.failedFatally (s : State) (test ms : Nat) : State :=
  ((s.failCounted test ms).drbgZero.setFld F.TRNG_STAT_STATE 4).raise P.TRNG E.TRNG_FATAL

/-- What the third failure within a second leaves, while its fault meets no self-test, no log and no reaction. -/
theorem State.fatal_effect (s : State) (test ms : Nat) (htest : s.belay.test = none) (hlog : s.flag F.BELAY_LOG_CTRL_EN = false)
    (hreact : s.fld (F.BELAY_REACT_REACT 22) = 0) :
    ((s.failedFatally test ms).signal (FaultInput.of 22 0 0 0)).fld F.TRNG_STAT_STATE = 4 ∧
      ((s.failedFatally test ms).signal (FaultInput.of 22 0 0 0)).sec.queue = [] ∧
      ((s.failedFatally test ms).signal (FaultInput.of 22 0 0 0)).event P.TRNG E.TRNG_FATAL = true ∧
      KeepsPages s ((s.failedFatally test ms).signal (FaultInput.of 22 0 0 0)) [P.TRNG, P.BELAY, P.TETHER] ∧
      KeepsMem s ((s.failedFatally test ms).signal (FaultInput.of 22 0 0 0)) := by
  have hregs : KeepsRegs s (s.failedFatally test ms) [R.TRNG_STAT, R.TRNG_FAIL, R.EVT_RAW P.TRNG] :=
    (((s.failCounted_keepsRegs test ms).of_regs (u := (s.failCounted test ms).drbgZero) rfl).setFld (by decide)).raise (by decide)
  have hbelay : (s.failedFatally test ms).belay = s.belay := by
    change (s.failCounted test ms).belay = s.belay
    rw [State.failCounted_rest]
    rfl
  have hmem : (s.failedFatally test ms).mem = s.mem := by
    change (s.failCounted test ms).mem = s.mem
    rw [State.failCounted_rest]
    rfl
  have hqueue : (s.failedFatally test ms).sec.queue = [] := rfl
  have hstate : (s.failedFatally test ms).fld F.TRNG_STAT_STATE = 4 :=
    (State.fld_raise_ne _ _ _ _ (by decide)).trans (State.fld_setFld _ _ _ (by decide))
  have hevent : (s.failedFatally test ms).event P.TRNG E.TRNG_FATAL = true := State.event_raise _ _ _ (by decide)
  obtain ⟨u, hu⟩ : ∃ u, u = s.failedFatally test ms := ⟨_, rfl⟩
  rw [← hu] at hregs hbelay hmem hqueue hstate hevent ⊢
  have hnone : u.reactionOf (u.taken (FaultInput.of 22 0 0 0)) = 0 := by
    have hconfigured : u.fld (F.BELAY_REACT_REACT 22) = 0 := (hregs.fld (by decide)).trans hreact
    unfold State.reactionOf
    split
    · rfl
    · split
      · rfl
      · exact hconfigured
  have hlog' : u.flag F.BELAY_LOG_CTRL_EN = false := (hregs.flag (by decide)).trans hlog
  have htest' : u.belay.test = none := (congrArg BelayState.test hbelay).trans htest
  have hsignal := State.signal_unreacted_keepsRegs htest' hlog' hnone
  have hrest := State.signal_unreacted_rest htest' hlog' hnone
  refine ⟨(hsignal.fld (by decide)).trans hstate, ?_, (hsignal.event _ (by decide)).trans hevent, ?_, ?_⟩
  · rw [hrest]
    exact hqueue
  · exact ((KeepsRegs.mono hregs (m := [R.TRNG_STAT, R.TRNG_FAIL, R.EVT_RAW P.TRNG] ++ (noticeRegs ++ lastRegs)) (by decide)).trans
      (KeepsRegs.mono hsignal (by decide))).pages (by decide)
  · refine (KeepsMem.refl s).of_mem ?_
    rw [hrest]
    exact hmem

/-! ### READY and TRNG_DATA -/

/-- Table Keys-5: STARTUP, or RECOVER, ends in READY. -/
theorem State.opTrngReady_ready {s : State} {rate : Nat} (hstate : s.fld F.TRNG_STAT_STATE = 1 ∨ s.fld F.TRNG_STAT_STATE = 3) (hquiet : s.screeActs = false) :
    s.opTrngReady rate = { ((s.setFld F.TRNG_STAT_STATE 2).setFld F.TRNG_RATE_RATE rate).raise P.TRNG E.TRNG_READY with
      sec := { s.sec with requests := 0, instantiations := s.sec.instantiations + b2n (s.fld F.TRNG_STAT_STATE = 1) } } := by
  unfold State.opTrngReady
  dsimp only
  rw [if_neg]
  · rfl
  · rw [hquiet]
    simpa [or_iff_not_imp_left] using hstate

/-- What READY leaves. -/
theorem State.opTrngReady_effect {s : State} {rate : BitVec 13} (hstate : s.fld F.TRNG_STAT_STATE = 1 ∨ s.fld F.TRNG_STAT_STATE = 3) (hquiet : s.screeActs = false) :
    (s.opTrngReady rate.toNat).fld F.TRNG_STAT_STATE = 2 ∧ (s.opTrngReady rate.toNat).fld F.TRNG_RATE_RATE = rate.toNat ∧
      (s.opTrngReady rate.toNat).event P.TRNG E.TRNG_READY = true ∧ KeepsRegs s (s.opTrngReady rate.toNat) [R.TRNG_STAT, R.TRNG_RATE, R.EVT_RAW P.TRNG] ∧
      s.opTrngReady rate.toNat = { s with
        regs := (s.opTrngReady rate.toNat).regs,
        sec := { s.sec with requests := 0, instantiations := s.sec.instantiations + b2n (s.fld F.TRNG_STAT_STATE = 1) } } := by
  rw [State.opTrngReady_ready hstate hquiet]
  refine ⟨?_, ?_, ?_, ?_, rfl⟩
  · refine (State.fld_raise_ne _ _ _ _ (by decide)).trans ?_
    rw [State.fld_setFld_ne _ _ _ _ (by decide)]
    exact State.fld_setFld _ _ _ (by decide)
  · refine (State.fld_raise_ne _ _ _ _ (by decide)).trans ((State.fld_setFld _ _ _ (by decide)).trans (Nat.mod_eq_of_lt rate.isLt))
  · exact State.event_raise ((s.setFld F.TRNG_STAT_STATE 2).setFld F.TRNG_RATE_RATE rate.toNat) P.TRNG E.TRNG_READY (by decide)
  · exact ((((KeepsRegs.refl s _).setFld (by decide)).setFld (by decide)).raise (by decide)).of_regs rfl

theorem State.opTrngReady_idle {s : State} {rate : Nat} (hstate : ¬ (s.fld F.TRNG_STAT_STATE = 1 ∨ s.fld F.TRNG_STAT_STATE = 3)) :
    s.opTrngReady rate = s := if_pos (Or.inl (by simpa using hstate))

/-- R547: in READY a load takes the next quarter of the head block. -/
theorem State.opTrngData_ready {s : State} {b : BitVec 128} {rest : List (BitVec 128)} (hstate : s.fld F.TRNG_STAT_STATE = 2) (hrun : s.running P.TRNG = true)
    (hqueue : s.sec.queue = b :: rest) : s.opTrngData =
      ({ s with sec := { s.sec with
          queue := if decide (s.sec.quarters = 3) then rest else b :: rest, quarters := if decide (s.sec.quarters = 3) then 0 else s.sec.quarters + 1 } },
        BitVec.ofNat 64 (b.toNat / 2 ^ (32 * s.sec.quarters) % 2 ^ 32 + 2 ^ 32)) := by
  unfold State.opTrngData
  rw [hqueue]
  exact if_neg (by simp [hstate, hrun])

theorem State.opTrngData_none {s : State} (h : s.fld F.TRNG_STAT_STATE ≠ 2 ∨ s.sec.queue = []) : s.opTrngData = (s, 0#64) := by
  unfold State.opTrngData
  split
  case h_1 b rest hqueue =>
    have hstate := h.resolve_right (by simp [hqueue])
    exact if_pos (Or.inl hstate)
  case h_2 => rfl

/-! ### A generate request as a command -/

theorem State.serveWaiting_generate {s : State} (hwait : s.sec.waiting = []) (hroom : s.sec.queue.length ≤ 48) : s.generate.serveWaiting = s.generate := by
  obtain ⟨-, -, -, hrest⟩ := State.generate_queue hroom
  refine State.serveWaiting_none ?_
  rw [hrest]
  exact hwait

/-- R544: a reseed is due. -/
def State.reseedDue (s : State) (ms : Nat) : Bool :=
  decide (s.fld F.TRNG_RESEED_REQUESTS ≤ s.sec.requests) || decide (s.fld F.TRNG_RESEED_PERIOD ≤ ms) || s.flag F.TRNG_CFG_PR

/-- R544: a reseed starts the count of requests again. -/
def State.reseeded (s : State) : State := { s with sec := { s.sec with requests := 0 } }

theorem State.opGenerate_idle {s : State} {ms : Nat} {fresh : Bool} (h : s.fld F.TRNG_STAT_STATE ≠ 2 ∨ 48 < s.sec.queue.length) :
    s.opGenerate ms fresh = s := if_pos h

section
variable {s : State} {ms : Nat} (hstate : s.fld F.TRNG_STAT_STATE = 2) (hroom : s.sec.queue.length ≤ 48)
include hstate hroom

theorem State.opGenerate_waits (hdue : s.reseedDue ms = true) : s.opGenerate ms false = s := by
  have hready : ¬ (s.fld F.TRNG_STAT_STATE ≠ 2 ∨ 48 < s.sec.queue.length) := by omega
  refine (if_neg hready).trans (if_pos ?_)
  exact (Bool.and_true _).trans hdue

variable (hwait : s.sec.waiting = [])
include hwait

theorem State.opGenerate_served (fresh : Bool) (hdue : s.reseedDue ms = false) : s.opGenerate ms fresh = s.generate := by
  have hready : ¬ (s.fld F.TRNG_STAT_STATE ≠ 2 ∨ 48 < s.sec.queue.length) := by omega
  refine (if_neg hready).trans ?_
  change (if s.reseedDue ms && ! fresh then s else (if s.reseedDue ms then s.reseeded else s).generate.serveWaiting) = _
  rw [hdue]
  exact State.serveWaiting_generate hwait hroom

theorem State.opGenerate_reseeded (hdue : s.reseedDue ms = true) : s.opGenerate ms true = s.reseeded.generate := by
  have hready : ¬ (s.fld F.TRNG_STAT_STATE ≠ 2 ∨ 48 < s.sec.queue.length) := by omega
  refine (if_neg hready).trans ?_
  change (if s.reseedDue ms && ! true then s else (if s.reseedDue ms then s.reseeded else s).generate.serveWaiting) = _
  rw [hdue]
  exact State.serveWaiting_generate (s := s.reseeded) hwait hroom

end

/-! ### The statement -/

/-- A slot command that Table Keys-3 refuses. -/
theorem slotCommand_refusals {s : State} {q : Req} (op : Nat) (slot : Fin 16) (src : BitVec 5) (usage : BitVec 4) {r : Nat} (hop : 1 ≤ op ∧ op ≤ 5)
    (hopen : OpenTo s q P.KEYS) (hsrc : src.toNat ≤ 16) (hrefused : s.slotRefusal op slot.val src.toNat = some r) :
    ∃ t, Host.Outcome.next (s.slotCommand q op slot src usage) = (Host.Outcome.next t : Host.Outcome State Fault Refusal) ∧ t.event P.KEYS 31 = true ∧
      (s.flag (F.CLAMP_ADDR_VALID P.KEYS) = false → t.fld (F.CLAMP_ADDR_REASON P.KEYS) = r) ∧ KeepsRegs s t (logRegs P.KEYS) ∧
      t = { s with regs := t.regs, resp := t.resp } :=
  ⟨_, rfl, State.slotCommand_refused hopen hop hsrc hrefused⟩

/-- Settles O48: a slot command fills, shows or empties its slot; the TRNG's states change as Table Keys-5 says. -/
theorem keySlotsAndTheTrng : Obligations.KeySlotsAndTheTrng := by
  unfold Obligations.KeySlotsAndTheTrng
  refine ⟨?_, ?_, ?_, ?_, ?_, ?_, ?_, ?_, ?_, ?_, ?_, ?_, ?_, ?_, ?_, ?_, ?_, ?_, ?_, ?_, ?_, ?_, ?_⟩
  · intro s q slot usage hopen hallowed
    obtain ⟨t, ht, hload⟩ := State.slotCommand_load (usage := usage) hopen hallowed
    exact ⟨t, congrArg Host.Outcome.next ht, hload⟩
  · intro s q slot usage r hopen hrefused
    exact slotCommand_refusals 1 slot 0#5 usage (by decide) hopen (by decide) hrefused
  · intro s q slot x hopen hallowed hslot
    obtain ⟨t, ht, hread⟩ := State.slotCommand_read hopen hallowed hslot
    exact ⟨t, congrArg Host.Outcome.next ht, hread⟩
  · intro s q slot hopen hallowed
    obtain ⟨t, ht, hclear⟩ := State.slotCommand_clear hopen hallowed
    exact ⟨t, congrArg Host.Outcome.next ht, hclear⟩
  · intro s q slot src usage x hopen hallowed hsrc
    have hnum : (BitVec.ofNat 5 src.val).toNat = src.val := Nat.mod_eq_of_lt (by omega)
    obtain ⟨t, ht, hderive⟩ := State.slotCommand_derive (usage := usage) (src := BitVec.ofNat 5 src.val) (key := x.bytes) hopen (by omega)
      (hnum.symm ▸ hallowed) (Or.inr ⟨by omega, x, hnum.symm ▸ hsrc, rfl⟩)
    exact ⟨t, congrArg Host.Outcome.next ht, hderive⟩
  · intro s q slot usage hopen hallowed
    obtain ⟨t, ht, hfilled, hothers, -, hregs, hrest⟩ := State.slotCommand_derive (usage := usage) (src := 16#5) hopen (by decide) hallowed (Or.inl ⟨rfl, rfl⟩)
    exact ⟨t, congrArg Host.Outcome.next ht, hfilled, hothers, hregs, hrest⟩
  · intro s q slot usage b0 b1 rest hopen hallowed hquarters hqueue
    obtain ⟨t, ht, hgenerate⟩ := State.slotCommand_generate (usage := usage) hopen hallowed hquarters hqueue
    exact ⟨t, congrArg Host.Outcome.next ht, hgenerate⟩
  · intro s rate hstate hquiet
    obtain ⟨hready, hrate, hevent, hregs, hrest⟩ := State.opTrngReady_effect (rate := rate) (Or.inl hstate) hquiet
    exact ⟨_, rfl, hready, hrate, hevent, hregs, hrest.trans (by rw [hstate]; rfl)⟩
  · intro s proportion ms hoff hfatal hfew hwait
    have hon : ¬ (s.fld F.TRNG_STAT_STATE = 0 ∨ s.fld F.TRNG_STAT_STATE = 4) := by simp [hoff, hfatal]
    have hnot : s.failsFatally ms = false := by
      simp only [State.failsFatally, State.failTimes, decide_eq_false_iff_not, List.length_take, List.length_cons, List.length_map]
      omega
    refine ⟨_, congrArg Host.Outcome.next (State.opHealthFail_recover hon hwait hnot), ?_⟩
    obtain ⟨hstate, hqueue, hlast, hcount, hevent, hregs, hrest, hfailures⟩ :=
      s.recover_effect ms (test := if proportion then 2 else 1) (by cases proportion <;> decide)
    exact ⟨hstate, hqueue, hlast, hcount, hevent, hregs, hrest.trans (by rw [hfailures])⟩
  · intro s proportion ms a b hoff hfatal htimes hmany hwait htest hlog hreact
    have hon : ¬ (s.fld F.TRNG_STAT_STATE = 0 ∨ s.fld F.TRNG_STAT_STATE = 4) := by simp [hoff, hfatal]
    have hthird : s.failsFatally ms = true := by
      simp only [State.failsFatally, State.failTimes, htimes, decide_eq_true_eq]
      exact ⟨rfl, hmany⟩
    exact ⟨_, congrArg Host.Outcome.next (State.opHealthFail_fatal hon hwait hthird), State.fatal_effect s _ ms htest hlog hreact⟩
  · intro s ms hstate hroom hrequests hperiod hpr hwait
    have hdue : s.reseedDue ms = false := by simp [State.reseedDue, hrequests, hperiod, hpr]
    refine ⟨_, congrArg Host.Outcome.next (State.opGenerate_served hstate hroom hwait false hdue), State.generate_queue hroom⟩
  · intro s q b rest hstate hrun hqueue hquarters
    refine ⟨_, congrArg (fun x : State × DWord => Host.Outcome.next (x.1.respond false x.2)) (State.opTrngData_ready hstate hrun hqueue), rfl, ?_⟩
    rw [decide_eq_false (by omega), ← hqueue]
    rfl
  · intro s q hnone
    exact ⟨_, congrArg (fun x : State × DWord => Host.Outcome.next (x.1.respond false x.2)) (State.opTrngData_none hnone), rfl⟩
  · intro s q slot r hopen hrefused
    exact slotCommand_refusals 2 slot 0#5 0#4 (by decide) hopen (by decide) hrefused
  · intro s q slot r hopen hrefused
    exact slotCommand_refusals 3 slot 0#5 0#4 (by decide) hopen (by decide) hrefused
  · intro s q slot src usage r hopen hrefused
    have hnum : (BitVec.ofNat 5 src.val).toNat = src.val := Nat.mod_eq_of_lt (by omega)
    exact slotCommand_refusals 4 slot (BitVec.ofNat 5 src.val) usage (by decide) hopen (by omega) (hnum.symm ▸ hrefused)
  · intro s q slot usage r hopen hrefused
    exact slotCommand_refusals 5 slot 0#5 usage (by decide) hopen (by decide) hrefused
  · intro s q b rest hstate hrun hqueue hquarters
    refine ⟨_, congrArg (fun x : State × DWord => Host.Outcome.next (x.1.respond false x.2)) (State.opTrngData_ready hstate hrun hqueue), ?_, ?_⟩
    · rw [hquarters]
      rfl
    · rw [decide_eq_true hquarters]
      rfl
  · intro s rate hstartup hrecover
    exact ⟨_, rfl, State.opTrngReady_idle (by simp [hstartup, hrecover])⟩
  · intro s rate hstate hquiet
    obtain ⟨hready, hrate, hevent, hregs, hrest⟩ := State.opTrngReady_effect (rate := rate) (Or.inr hstate) hquiet
    exact ⟨_, rfl, hready, hrate, hevent, hregs, hrest.trans (by rw [hstate]; rfl)⟩
  · intro s proportion ms hoff
    exact ⟨_, rfl, if_pos hoff⟩
  · intro s ms hstate hroom hdue hwait
    have hdue : s.reseedDue ms = true := by
      simp only [State.reseedDue, Bool.or_eq_true, decide_eq_true_eq, or_assoc]
      exact hdue
    obtain ⟨hlength, hkept, hrequests, hrest⟩ := State.generate_queue (s := s.reseeded) hroom
    exact ⟨_, congrArg Host.Outcome.next (State.opGenerate_reseeded hstate hroom hwait hdue), hlength, hkept, hrequests, hrest,
      congrArg Host.Outcome.next (State.opGenerate_waits hstate hroom hdue)⟩
  · intro s ms fresh hidle
    exact ⟨_, rfl, State.opGenerate_idle hidle⟩

end Sys2Proof.Machine
end

section
/-! The PTP clock (R497 to R499): what its ticks, its second boundaries, its target, PTP_SET and PTP_STEP leave. -/
namespace Sys2Proof.Machine

/-! ### A pulse to Shuttle -/

/-- R363, R365: a pulse as one channel sees it. -/
def State.pulseAt (code n : Nat) (t : State) : State :=
  let isP := decide (t.fld (F.SHUTTLE_CH_SEL_PROD n) = code)
  let isG := decide (t.fld (F.SHUTTLE_CH_SEL_GATE n) = code) && t.flag (F.SHUTTLE_CH_SEL_GATE_EN n)
  if t.flag (F.SHUTTLE_CH_SEL_EN n) && (isP || isG) then
    t.setChan n { t.chan n with pulse := if isP then 2 else (t.chan n).pulse, gatePulse := if isG then 2 else (t.chan n).gatePulse }
  else t

theorem State.pulse_eq (s : State) (code : Nat) : s.pulse code = forEach 64 (State.pulseAt code) s := rfl

theorem State.pulseAt_only (code n : Nat) (t : State) : State.pulseAt code n t = { t with shuttle := (State.pulseAt code n t).shuttle } := by
  unfold State.pulseAt
  dsimp only
  split <;> rfl

/-- A pulse changes Shuttle alone. -/
theorem State.pulse_only (s : State) (code : Nat) : s.pulse code = { s with shuttle := (s.pulse code).shuttle } := by
  have hall (k : Nat) : forEach k (State.pulseAt code) s = { s with shuttle := (forEach k (State.pulseAt code) s).shuttle } := by
    induction k with
    | zero => rfl
    | succ k ih =>
      rw [forEach_succ, State.pulseAt_only, ih]
  exact hall 64

theorem State.event_pulse (s : State) (code p b : Nat) : (s.pulse code).event p b = s.event p b := by
  rw [State.pulse_only]
  rfl

theorem State.pulseAt_congr {s t : State} {n : Nat} (code : Nat) (hsel : t.raw (R.SHUTTLE_CH_SEL n) = s.raw (R.SHUTTLE_CH_SEL n))
    (hshuttle : t.shuttle = s.shuttle) : (State.pulseAt code n t).shuttle = (State.pulseAt code n s).shuttle := by
  have hfld (f : Fld) (hf : f.reg = R.SHUTTLE_CH_SEL n) : t.fld f = s.fld f := by rw [State.fld, State.fld, hf, hsel]
  have hchan : t.chan n = s.chan n := by rw [State.chan, State.chan, hshuttle]
  unfold State.pulseAt State.flag
  dsimp only
  rw [hfld (F.SHUTTLE_CH_SEL_PROD n) rfl, hfld (F.SHUTTLE_CH_SEL_GATE n) rfl, hfld (F.SHUTTLE_CH_SEL_GATE_EN n) rfl, hfld (F.SHUTTLE_CH_SEL_EN n) rfl, hchan]
  split
  · rw [State.setChan, State.setChan, hshuttle]
  · exact hshuttle

/-- Two states whose channels and whose selections agree take the same pulse. -/
theorem State.pulse_congr {s t : State} (code : Nat) (hsel : ∀ n < 64, t.raw (R.SHUTTLE_CH_SEL n) = s.raw (R.SHUTTLE_CH_SEL n))
    (hshuttle : t.shuttle = s.shuttle) : (t.pulse code).shuttle = (s.pulse code).shuttle := by
  have hregs (k : Nat) (u : State) : (forEach k (State.pulseAt code) u).regs = u.regs :=
    List.foldlRecOn (motive := fun w : State => w.regs = u.regs) _ _ rfl fun w hw n _ => by
      rw [State.pulseAt_only]
      exact hw
  have hall (k : Nat) (hk : k ≤ 64) : (forEach k (State.pulseAt code) t).shuttle = (forEach k (State.pulseAt code) s).shuttle := by
    induction k with
    | zero => exact hshuttle
    | succ k ih =>
      rw [forEach_succ, forEach_succ]
      refine State.pulseAt_congr code ?_ (ih (by omega))
      rw [State.raw, State.raw, hregs, hregs]
      exact hsel k (by omega)
  exact hall 64 (Nat.le_refl _)

/-- Registers of one page keep Shuttle's selections. -/
theorem KeepsRegs.pulse {s t : State} {l : List Nat} (h : KeepsRegs s t l) (hl : ∀ a ∈ l, pageBase a ≠ P.SHUTTLE) (code : Nat)
    (hshuttle : t.shuttle = s.shuttle) : (t.pulse code).shuttle = (s.pulse code).shuttle := by
  have hpage : ∀ n < 64, pageBase (R.SHUTTLE_CH_SEL n) = P.SHUTTLE := by decide
  exact State.pulse_congr code (fun n hn => h _ fun hmem => hl _ hmem (hpage n hn)) hshuttle

/-! ### The time -/

/-- Units of 2^−32 ns after which the 48-bit seconds wrap. -/
def ptpWrap : Nat := 2 ^ 48 * 1000000000 * 2 ^ 32

section
variable (s : State) (n : Nat)

theorem State.setPtp_keepsRegs : KeepsRegs s (s.setPtp n) [R.PTPCLK_TIME] :=
  (((KeepsRegs.refl s _).setFld (by decide)).setFld (by decide)).of_regs rfl

theorem State.setPtp_rest : s.setPtp n = { s with
    regs := (s.setPtp n).regs, field := { s.field with ptpHi := (s.setPtp n).field.ptpHi, ptpFrac := (s.setPtp n).field.ptpFrac } } := rfl

/-- A state with another state of the field I/O. -/
def State.withField (x : FieldState) : State := { s with field := x }

theorem State.fld_withField (x : FieldState) (f : Fld) : (s.withField x).fld f = s.fld f := rfl

theorem State.field_withField (x : FieldState) : (s.withField x).field = x := rfl

/-- PTPCLK_TIME with these seconds, of which it holds 32 bits, and nanoseconds. -/
def State.timeSet (sec ns : Nat) : State := (s.setFld F.PTPCLK_TIME_SEC sec).setFld F.PTPCLK_TIME_NS ns

theorem State.setPtp_eq : s.setPtp n = (s.timeSet (n / 2 ^ 32 / 1000000000 % 2 ^ 48) (n / 2 ^ 32 % 1000000000)).withField
    { s.field with ptpHi := n / 2 ^ 32 / 1000000000 % 2 ^ 48 / 2 ^ 32, ptpFrac := n % 2 ^ 32 } := rfl

theorem State.sec_timeSet (sec ns : Nat) : (s.timeSet sec ns).fld F.PTPCLK_TIME_SEC = sec % 2 ^ 32 :=
  (State.fld_setFld_ne _ _ _ _ (by decide)).trans (State.fld_setFld s _ _ (by decide))

theorem State.ns_timeSet (sec ns : Nat) : (s.timeSet sec ns).fld F.PTPCLK_TIME_NS = ns % 2 ^ 30 := State.fld_setFld _ _ _ (by decide)

theorem State.ptpNow_setPtp (hn : n < ptpWrap) : (s.setPtp n).ptpNow = n := by
  rw [State.setPtp_eq, State.ptpNow, State.fld_withField, State.fld_withField, State.field_withField, State.sec_timeSet, State.ns_timeSet]
  dsimp only
  unfold ptpWrap at hn
  omega

end

/-- The time is that of PTPCLK_TIME and of what stands beside it. -/
theorem State.ptpNow_congr {s t : State} (htime : t.raw R.PTPCLK_TIME = s.raw R.PTPCLK_TIME) (hfield : t.field = s.field) : t.ptpNow = s.ptpNow := by
  rw [State.ptpNow, State.ptpNow, State.fld, State.fld, State.fld, State.fld, hfield]
  rw [show F.PTPCLK_TIME_SEC.reg = R.PTPCLK_TIME from rfl, show F.PTPCLK_TIME_NS.reg = R.PTPCLK_TIME from rfl, htime]

theorem State.ptpTick_pos (s : State) : 0 < s.ptpTick := by
  unfold State.ptpTick sext
  split <;> omega

/-- The ticks after which the time is first at least `b`. -/
theorem ticks_reach {now b tick : Nat} (htick : 0 < tick) (hb : now < b) :
    (b - now + tick - 1) / tick ≠ 0 ∧ b ≤ now + (b - now + tick - 1) / tick * tick ∧ now + (b - now + tick - 1) / tick * tick < b + tick := by
  have hlow := Nat.div_mul_le_self (b - now + tick - 1) tick
  have hhigh := Nat.lt_div_mul_add (a := b - now + tick - 1) htick
  have hsome : 0 < (b - now + tick - 1) / tick := Nat.div_pos (by omega) htick
  omega

/-! ### The target -/

/-- R498: the state in which the target is reached. -/
def State.targetReached (s : State) : State := ((s.setFld F.PTPCLK_TARGET_HI_ARMED 0).raise P.PTPCLK E.PTPCLK_TARGET).pulse 57

theorem State.ptpReached_unarmed {s : State} (h : s.flag F.PTPCLK_TARGET_HI_ARMED = false) : s.ptpReached = s := by
  rw [State.ptpReached, h]
  rfl

theorem State.ptpReached_armed {s : State} (h : s.flag F.PTPCLK_TARGET_HI_ARMED = true) (hpast : s.ptpTarget ≤ s.ptpNow) : s.ptpReached = s.targetReached := by
  rw [State.ptpReached, h, decide_eq_true hpast]
  rfl

/-- Where the target register is. -/
theorem State.ptpTarget_congr {s t : State} {l : List Nat} (h : KeepsRegs s t l) (hhi : R.PTPCLK_TARGET_HI ∉ l) (htarget : R.PTPCLK_TARGET ∉ l) :
    t.ptpTarget = s.ptpTarget := by
  rw [State.ptpTarget, State.ptpTarget, h.fld (f := F.PTPCLK_TARGET_HI_SEC_HI) hhi, h.fld (f := F.PTPCLK_TARGET_SEC) htarget,
    h.fld (f := F.PTPCLK_TARGET_NS) htarget]

section
variable (s : State)

theorem State.targetReached_keepsRegs : KeepsRegs s s.targetReached [R.PTPCLK_TARGET_HI, R.EVT_RAW P.PTPCLK] := by
  rw [State.targetReached, State.pulse_only]
  exact (((KeepsRegs.refl s _).setFld (by decide)).raise (by decide)).of_regs rfl

theorem State.targetReached_rest : s.targetReached = { s with regs := s.targetReached.regs, shuttle := s.targetReached.shuttle } := by
  rw [State.targetReached, State.pulse_only]
  rfl

theorem State.targetReached_armed : s.targetReached.flag F.PTPCLK_TARGET_HI_ARMED = false := by
  rw [State.targetReached, State.pulse_only]
  exact (State.flag_raise_ne _ _ _ _ (by decide)).trans (State.flag_setFlag s F.PTPCLK_TARGET_HI_ARMED false (by decide) (by decide))

theorem State.targetReached_event : s.targetReached.event P.PTPCLK E.PTPCLK_TARGET = true := by
  rw [State.targetReached, State.event_pulse]
  exact State.event_raise (s.setFld F.PTPCLK_TARGET_HI_ARMED 0) _ _ (by decide)

theorem State.targetReached_shuttle : s.targetReached.shuttle = (s.pulse 57).shuttle :=
  (((KeepsRegs.refl s [R.PTPCLK_TARGET_HI, R.EVT_RAW P.PTPCLK]).setFld (by decide)).raise (by decide)).pulse (by decide) 57 rfl

theorem State.targetReached_now : s.targetReached.ptpNow = s.ptpNow := by
  refine State.ptpNow_congr (s.targetReached_keepsRegs _ (by decide)) ?_
  rw [State.targetReached_rest]

end

/-! ### The time goes on -/

/-- `t` is `s` with the time moved on to `now`: PTPCLK_TIME, the rest of the time, and what a second boundary brings. -/
def State.PtpMoved (s t : State) (now : Nat) : Prop :=
  t.ptpNow = now ∧ KeepsRegs s t [R.PTPCLK_TIME, R.EVT_RAW P.PTPCLK] ∧
    t = { s with regs := t.regs, shuttle := t.shuttle, field := { s.field with ptpHi := t.field.ptpHi, ptpFrac := t.field.ptpFrac } }

/-- R498: the state in which the time is `n`, behind a second boundary. -/
def State.secondPassed (s : State) (n : Nat) : State := ((s.setPtp n).raise P.PTPCLK E.PTPCLK_SECOND).pulse 56

/-- The time moves on to `n`, and Shuttle sees a second boundary when it passes one. -/
def State.timeMoved (s : State) (n : Nat) : State := if s.ptpNow / 2 ^ 32 / 1000000000 < n / 2 ^ 32 / 1000000000 then s.secondPassed n else s.setPtp n

theorem State.ptpForward_eq (s : State) (n : Nat) : s.ptpForward n = (s.timeMoved n).ptpReached := rfl

section
variable {s : State} {n : Nat} (hn : n < ptpWrap)
include hn

theorem State.ptpMoved_setPtp : s.PtpMoved (s.setPtp n) n :=
  ⟨s.ptpNow_setPtp n hn, KeepsRegs.mono (s.setPtp_keepsRegs n) (by decide), State.setPtp_rest s n⟩

theorem State.ptpMoved_secondPassed : s.PtpMoved (s.secondPassed n) n := by
  have hregs : KeepsRegs s ((s.setPtp n).raise P.PTPCLK E.PTPCLK_SECOND) [R.PTPCLK_TIME, R.EVT_RAW P.PTPCLK] :=
    KeepsRegs.raise (KeepsRegs.mono (s.setPtp_keepsRegs n) (by decide)) (by decide)
  have hnow : ((s.setPtp n).raise P.PTPCLK E.PTPCLK_SECOND).ptpNow = n :=
    (State.ptpNow_congr (State.raw_raise_ne _ _ _ _ (by decide)) (State.raise_field _ _ _)).trans (s.ptpNow_setPtp n hn)
  obtain ⟨u, hu⟩ : ∃ u, u = (s.setPtp n).raise P.PTPCLK E.PTPCLK_SECOND := ⟨_, rfl⟩
  have hrest : u = { s with regs := u.regs, field := { s.field with ptpHi := u.field.ptpHi, ptpFrac := u.field.ptpFrac } } := by
    have hset := s.setPtp_rest n
    obtain ⟨x, hx⟩ : ∃ x, x = s.setPtp n := ⟨_, rfl⟩
    rw [← hx] at hset hu
    rw [hu, hset]
    rfl
  rw [← hu] at hregs hnow
  rw [State.secondPassed, ← hu, State.pulse_only]
  refine ⟨hnow, hregs.of_regs rfl, ?_⟩
  rw [hrest]

theorem State.ptpMoved_timeMoved : s.PtpMoved (s.timeMoved n) n := by
  unfold State.timeMoved
  split
  · exact State.ptpMoved_secondPassed hn
  · exact State.ptpMoved_setPtp hn

end

theorem State.secondPassed_event (s : State) (n : Nat) : (s.secondPassed n).event P.PTPCLK E.PTPCLK_SECOND = true := by
  rw [State.secondPassed, State.event_pulse]
  exact State.event_raise (s.setPtp n) _ _ (by decide)

theorem State.secondPassed_shuttle (s : State) (n : Nat) : (s.secondPassed n).shuttle = (s.pulse 56).shuttle := by
  have hregs : KeepsRegs s ((s.setPtp n).raise P.PTPCLK E.PTPCLK_SECOND) [R.PTPCLK_TIME, R.EVT_RAW P.PTPCLK] :=
    KeepsRegs.raise (KeepsRegs.mono (s.setPtp_keepsRegs n) (by decide)) (by decide)
  exact hregs.pulse (by decide) 56 ((State.raise_shuttle _ _ _).trans (by rw [State.setPtp_rest]))

end Sys2Proof.Machine
end

section
/-! PAUSE, MDIO and the PTP clock as commands (R493, R495, R497 to R499). -/
namespace Sys2Proof.Machine

-- Checked one after another: side by side these evaluations take more memory than the check has.
set_option Elab.async false

/-! ### Ticks -/

/-- Reed not following the clock, it runs on to the first tick at or behind `b`. -/
theorem State.ptpUntil_reaches {s : State} {b : Nat} (hruns : s.ptpRuns = true) (hown : s.reedOnPtp = false) (hb : s.ptpNow < b) :
    ∃ n, b ≤ n ∧ n < b + s.ptpTick ∧ s.ptpUntil b = s.ptpForward n := by
  obtain ⟨hsome, hreach, hover⟩ := ticks_reach s.ptpTick_pos hb
  refine ⟨_, hreach, hover, ?_⟩
  unfold State.ptpUntil State.ptpTicks
  dsimp only
  rw [hown, Bool.false_and, if_neg Bool.false_ne_true, hruns, Bool.true_and, if_pos (bne_iff_ne.2 hsome)]

theorem State.ptpUntil_stopped {s : State} (b : Nat) (h : s.ptpRuns = false) : s.ptpUntil b = s := by
  rw [State.ptpUntil, h, Bool.and_false, State.ptpTicks, h]
  rfl

/-- A boundary passed, with no target armed. -/
theorem State.ptpForward_second {s : State} {n : Nat} (hn : n < ptpWrap) (hunarmed : s.flag F.PTPCLK_TARGET_HI_ARMED = false)
    (hpassed : s.ptpNow / 2 ^ 32 / 1000000000 < n / 2 ^ 32 / 1000000000) : s.ptpForward n = s.secondPassed n := by
  obtain ⟨-, hregs, -⟩ := State.ptpMoved_secondPassed (s := s) hn
  rw [State.ptpForward_eq, State.timeMoved, if_pos hpassed, State.ptpReached_unarmed ((hregs.flag (by decide)).trans hunarmed)]

/-- No target armed, the time moves on. -/
theorem State.ptpForward_unarmed {s : State} {n : Nat} (hn : n < ptpWrap) (hunarmed : s.flag F.PTPCLK_TARGET_HI_ARMED = false) :
    s.ptpForward n = s.timeMoved n := by
  obtain ⟨-, hregs, -⟩ := State.ptpMoved_timeMoved (s := s) hn
  rw [State.ptpForward_eq, State.ptpReached_unarmed ((hregs.flag (by decide)).trans hunarmed)]

/-- The armed target reached. -/
theorem State.ptpForward_target {s : State} {n : Nat} (hn : n < ptpWrap) (harmed : s.flag F.PTPCLK_TARGET_HI_ARMED = true) (hpast : s.ptpTarget ≤ n) :
    s.ptpForward n = (s.timeMoved n).targetReached := by
  obtain ⟨hnow, hregs, -⟩ := State.ptpMoved_timeMoved (s := s) hn
  rw [State.ptpForward_eq, State.ptpReached_armed ((hregs.flag (by decide)).trans harmed)]
  rw [State.ptpTarget_congr hregs (by decide) (by decide), hnow]
  exact hpast

/-! ### PTP_SET -/

/-- R498: the state in which a written time is stored, its target not yet looked at. -/
def State.timeStored (s : State) (ni : Nat) (v : DWord) : State :=
  (s.storeReg ni R.PTPCLK_TIME v).1.withField { s.field with ptpHi := s.fld F.PTPCLK_TIME_HI_SEC_HI, ptpFrac := 0 }

section
variable (s : State) (ni : Nat) (v : DWord)

theorem State.opPtpTime_eq : s.opPtpTime ni v = (s.timeStored ni v).ptpReached := by
  have hhi : (s.storeReg ni R.PTPCLK_TIME v).1.fld F.PTPCLK_TIME_HI_SEC_HI = s.fld F.PTPCLK_TIME_HI_SEC_HI := State.storeReg_keepsRegs.fld (by decide)
  have hfield : (s.storeReg ni R.PTPCLK_TIME v).1.field = s.field := by rw [State.storeReg_rest]
  rw [State.opPtpTime, State.timeStored, ← hhi, ← hfield]
  rfl

theorem State.timeStored_keepsRegs : KeepsRegs s (s.timeStored ni v) (R.PTPCLK_TIME :: logRegs P.PTPCLK) :=
  (KeepsRegs.refl s _).storeReg (by decide) (by decide)

theorem State.timeStored_rest : s.timeStored ni v = { s with
    regs := (s.timeStored ni v).regs, field := { s.field with ptpHi := s.fld F.PTPCLK_TIME_HI_SEC_HI, ptpFrac := 0 } } := by
  rw [State.timeStored, State.storeReg_rest]
  rfl

variable {sec : BitVec 32} {ns : Fin 1000000000}

/-- What PTPCLK_TIME is written for this time. -/
def timeValue (sec : BitVec 32) (ns : Fin 1000000000) : DWord := BitVec.ofNat 64 (ns.val + 2 ^ 32 * sec.toNat)

theorem toNat_timeValue : (timeValue sec ns).toNat = ns.val + 2 ^ 32 * sec.toNat := by
  have hsec := sec.isLt
  have hns := ns.isLt
  rw [timeValue, BitVec.toNat_ofNat]
  omega

theorem State.fld_timeStored : (s.timeStored ni (timeValue sec ns)).fld F.PTPCLK_TIME_SEC = sec.toNat ∧
    (s.timeStored ni (timeValue sec ns)).fld F.PTPCLK_TIME_NS = ns.val := by
  have hsec := sec.isLt
  have hns := ns.isLt
  have hofsec : F.PTPCLK_TIME_SEC.of (timeValue sec ns) = sec.toNat := by
    rw [Fld.of, Bits.get, toNat_timeValue, F.PTPCLK_TIME_SEC]
    simp only [Nat.shiftRight_eq_div_pow]
    omega
  have hofns : F.PTPCLK_TIME_NS.of (timeValue sec ns) = ns.val := by
    rw [Fld.of, Bits.get, toNat_timeValue, F.PTPCLK_TIME_NS]
    simp only [Nat.shiftRight_zero]
    omega
  have hfree : s.Unfrozen R.PTPCLK_TIME := State.unfrozen_of_page s (by decide +kernel)
  rw [State.timeStored, State.fld_withField, State.fld_withField]
  refine ⟨(State.fld_storeReg_plain (x := F.PTPCLK_TIME_SEC) ni _ hfree (by decide +kernel)).trans hofsec, ?_⟩
  refine (State.fld_storeReg_legal (x := F.PTPCLK_TIME_NS) (l := .clamp 0 999999999) ni hfree ?_ (by decide +kernel)).trans hofns
  rw [hofns]
  simp only [Legal.takes, decide_eq_true_eq]
  omega

theorem State.ptpNow_timeStored : (s.timeStored ni (timeValue sec ns)).ptpNow =
    ((s.fld F.PTPCLK_TIME_HI_SEC_HI * 2 ^ 32 + sec.toNat) * 1000000000 + ns.val) * 2 ^ 32 := by
  obtain ⟨hsec, hns⟩ := s.fld_timeStored ni (sec := sec) (ns := ns)
  rw [State.ptpNow, hsec, hns, State.timeStored, State.field_withField]
  exact Nat.add_zero _

end

/-! ### PTP_STEP -/

section
variable {s : State} {ni : Nat} {v : DWord} {ns : Nat}

theorem State.opPtpStep_forward (hd : sext 32 (F.PTPCLK_STEP_NS.of (s.storeReg ni R.PTPCLK_STEP v).2) = ns) :
    s.opPtpStep ni v = (s.storeReg ni R.PTPCLK_STEP v).1.ptpForward ((s.storeReg ni R.PTPCLK_STEP v).1.ptpNow + ns * 2 ^ 32) := by
  unfold State.opPtpStep
  dsimp only
  rw [hd, if_pos (by positivity)]
  rfl

theorem State.opPtpStep_back (hd : sext 32 (F.PTPCLK_STEP_NS.of (s.storeReg ni R.PTPCLK_STEP v).2) = -(ns : Int)) (hns : 0 < ns)
    (hlo : ns * 2 ^ 32 ≤ (s.storeReg ni R.PTPCLK_STEP v).1.ptpNow) (hhi : (s.storeReg ni R.PTPCLK_STEP v).1.ptpNow < ptpWrap) :
    s.opPtpStep ni v = (s.storeReg ni R.PTPCLK_STEP v).1.setPtp ((s.storeReg ni R.PTPCLK_STEP v).1.ptpNow - ns * 2 ^ 32) := by
  unfold State.opPtpStep
  dsimp only
  rw [hd, if_neg (by omega)]
  congr 1
  unfold ptpWrap at hhi
  omega

end

/-! ### PAUSE and MDIO -/

section
variable (s : State) (n : Nat) (m : EthMac)

theorem State.setEth_keepsRegs : KeepsRegs s (s.setEth n m) [R.ETH_STAT n] :=
  (((KeepsRegs.refl s _).of_regs rfl).setFld (by simp [F.ETH_STAT_RX_LEVEL])).setFld (by simp [F.ETH_STAT_TX_LEVEL])

theorem State.eth_setEth : (s.setEth n m).eth n = m := (SMap.get_put (fun _ => EthMac.idle) s.field.eth n n m).trans (if_pos rfl)

theorem State.setEth_rest : s.setEth n m = { s with regs := (s.setEth n m).regs, field := { s.field with eth := (s.setEth n m).field.eth } } := rfl

end

/-- What ETH_MDIO is written for this access. -/
def mdioValue (data : BitVec 16) (reg phy : BitVec 5) (read : Bool) : DWord :=
  BitVec.ofNat 64 ((F.ETH_MDIO_DATA 0).at data.toNat + (F.ETH_MDIO_REG 0).at reg.toNat + (F.ETH_MDIO_PHY 0).at phy.toNat
    + (F.ETH_MDIO_READ 0).at (b2n read) + (F.ETH_MDIO_GO 0).at 1)

section
variable (data : BitVec 16) (reg phy : BitVec 5) (read : Bool)

theorem toNat_mdioValue :
    (mdioValue data reg phy read).toNat = data.toNat + reg.toNat * 2 ^ 16 + phy.toNat * 2 ^ 21 + b2n read * 2 ^ 26 + 2 ^ 30 := by
  have hdata := data.isLt
  have hreg := reg.isLt
  have hphy := phy.isLt
  have hread : b2n read < 2 := by cases read <;> decide
  simp only [mdioValue, Fld.at, F.ETH_MDIO_DATA, F.ETH_MDIO_REG, F.ETH_MDIO_PHY, F.ETH_MDIO_READ, F.ETH_MDIO_GO, BitVec.toNat_ofNat]
  omega

theorem of_mdioValue : (F.ETH_MDIO_DATA 0).of (mdioValue data reg phy read) = data.toNat ∧ (F.ETH_MDIO_REG 0).of (mdioValue data reg phy read) = reg.toNat ∧
    (F.ETH_MDIO_PHY 0).of (mdioValue data reg phy read) = phy.toNat ∧ (F.ETH_MDIO_READ 0).of (mdioValue data reg phy read) = b2n read ∧
    (F.ETH_MDIO_GO 0).of (mdioValue data reg phy read) = 1 := by
  have hdata := data.isLt
  have hreg := reg.isLt
  have hphy := phy.isLt
  have hread : b2n read < 2 := by cases read <;> decide
  simp only [Fld.of, Bits.get, toNat_mdioValue, F.ETH_MDIO_DATA, F.ETH_MDIO_REG, F.ETH_MDIO_PHY, F.ETH_MDIO_READ, F.ETH_MDIO_GO, Nat.shiftRight_eq_div_pow]
  omega

end

end Sys2Proof.Machine
end

section
/-! PAUSE, MDIO and the PTP clock as commands (R493, R495, R497 to R499). -/
namespace Sys2Proof.Machine

-- Checked one after another: side by side these evaluations take more memory than the check has.
set_option Elab.async false

section
variable {s : State} {ni : Nat} {v : DWord} {read : Bool}

theorem State.mdio_goes (hgo : (F.ETH_MDIO_GO 0).of v = 1) : (F.ETH_MDIO_GO 0).of (s.storeReg ni (R.ETH_MDIO 0) v).2 = 1 :=
  (State.of_storeReg_acting (x := F.ETH_MDIO_GO 0) ni v (State.unfrozen_of_page s (by decide +kernel)) (by decide +kernel)).trans hgo

theorem State.mdio_reads (hread : (F.ETH_MDIO_READ 0).of v = b2n read) : (s.storeReg ni (R.ETH_MDIO 0) v).1.flag (F.ETH_MDIO_READ 0) = read := by
  have hstored : (s.storeReg ni (R.ETH_MDIO 0) v).1.fld (F.ETH_MDIO_READ 0) = b2n read :=
    (State.fld_storeReg_plain (x := F.ETH_MDIO_READ 0) ni v (State.unfrozen_of_page s (by decide +kernel)) (by decide +kernel)).trans hread
  rw [State.flag, hstored]
  cases read <;> rfl

/-- R493: an access that a write asks for is done at once. -/
theorem State.opMdio_done (hgo : (F.ETH_MDIO_GO 0).of v = 1) (hread : (F.ETH_MDIO_READ 0).of v = b2n read) (answer : Nat) : s.opMdio ni 0 v answer =
    ((s.storeReg ni (R.ETH_MDIO 0) v).1.when read fun t => t.setFld (F.ETH_MDIO_DATA 0) (if t.bankLive 1 then answer else 0)).raise (P.ETH 0) E.ETH_MDIO_DONE := by
  unfold State.opMdio
  dsimp only
  rw [State.mdio_goes hgo, if_neg (by decide), State.mdio_reads hread, State.when]

end

/-- What an access leaves: the values given, but for what a read brings, and the event. -/
theorem State.opMdio_effect {s : State} {ni : Nat} {v : DWord} {read : Bool} (hgo : (F.ETH_MDIO_GO 0).of v = 1) (hread : (F.ETH_MDIO_READ 0).of v = b2n read)
    (answer : BitVec 16) :
    (s.opMdio ni 0 v answer.toNat).fld (F.ETH_MDIO_DATA 0) =
        (if read then (if s.bankLive 1 then answer.toNat else 0) else (F.ETH_MDIO_DATA 0).of v) ∧
      (s.opMdio ni 0 v answer.toNat).fld (F.ETH_MDIO_REG 0) = (F.ETH_MDIO_REG 0).of v ∧
      (s.opMdio ni 0 v answer.toNat).fld (F.ETH_MDIO_PHY 0) = (F.ETH_MDIO_PHY 0).of v ∧
      (s.opMdio ni 0 v answer.toNat).flag (F.ETH_MDIO_READ 0) = read ∧
      (s.opMdio ni 0 v answer.toNat).event (P.ETH 0) E.ETH_MDIO_DONE = true ∧ KeepsRegs s (s.opMdio ni 0 v answer.toNat) (R.ETH_MDIO 0 :: logRegs (P.ETH 0)) ∧
      s.opMdio ni 0 v answer.toNat = { s with regs := (s.opMdio ni 0 v answer.toNat).regs } := by
  have hfree : s.Unfrozen (R.ETH_MDIO 0) := State.unfrozen_of_page s (by decide +kernel)
  have hstored : KeepsRegs s (s.storeReg ni (R.ETH_MDIO 0) v).1 (R.ETH_MDIO 0 :: logRegs (P.ETH 0)) := (KeepsRegs.refl s _).storeReg (by decide) (by decide)
  have hdata : (s.storeReg ni (R.ETH_MDIO 0) v).1.fld (F.ETH_MDIO_DATA 0) = (F.ETH_MDIO_DATA 0).of v :=
    State.fld_storeReg_plain (x := F.ETH_MDIO_DATA 0) ni v hfree (by decide +kernel)
  have hreg : (s.storeReg ni (R.ETH_MDIO 0) v).1.fld (F.ETH_MDIO_REG 0) = (F.ETH_MDIO_REG 0).of v :=
    State.fld_storeReg_plain (x := F.ETH_MDIO_REG 0) ni v hfree (by decide +kernel)
  have hphy : (s.storeReg ni (R.ETH_MDIO 0) v).1.fld (F.ETH_MDIO_PHY 0) = (F.ETH_MDIO_PHY 0).of v :=
    State.fld_storeReg_plain (x := F.ETH_MDIO_PHY 0) ni v hfree (by decide +kernel)
  have hflag := State.mdio_reads (s := s) (ni := ni) hread
  have hrest := s.storeReg_rest ni (R.ETH_MDIO 0) v
  have hlive : (s.storeReg ni (R.ETH_MDIO 0) v).1.bankLive 1 = s.bankLive 1 := by
    rw [State.bankLive, State.bankLive, hstored.flag (by decide), hrest]
    rfl
  rw [State.opMdio_done hgo hread]
  obtain ⟨u, hu⟩ : ∃ u, u = (s.storeReg ni (R.ETH_MDIO 0) v).1 := ⟨_, rfl⟩
  rw [← hu] at hstored hdata hreg hphy hflag hrest hlive ⊢
  have hother (x : Fld) (hx : x.reg ≠ R.EVT_RAW (P.ETH 0)) (hapart : x.reg ≠ R.ETH_MDIO 0 ∨ 16 ≤ x.lo) :
      ((u.when read fun t => t.setFld (F.ETH_MDIO_DATA 0) (if t.bankLive 1 then answer.toNat else 0)).raise (P.ETH 0) E.ETH_MDIO_DONE).fld x = u.fld x := by
    rw [State.fld_raise_ne _ _ _ _ hx, State.when]
    split
    · exact State.fld_setFld_ne _ _ _ _ (hapart.imp id Or.inr)
    · rfl
  refine ⟨?_, ?_, ?_, ?_, State.event_raise _ _ _ (by decide), ?_, ?_⟩
  · rw [State.fld_raise_ne _ _ _ _ (by decide), State.when]
    split
    · rw [State.fld_setFld _ _ _ (by decide), hlive]
      split
      · exact Nat.mod_eq_of_lt answer.isLt
      · rfl
    · exact hdata
  · rw [hother _ (by decide) (by decide), hreg]
  · rw [hother _ (by decide) (by decide), hphy]
  · rw [State.flag, hother _ (by decide) (by decide)]
    exact hflag
  · exact (hstored.when fun _ ht => ht.setFld (by decide)).raise (by decide)
  · refine State.rest_trans hrest ?_
    rw [State.when]
    split <;> rfl

/-! ### Commands -/

theorem State.exec_ptpSecond {s : State} {b : Nat} (hb : b = (s.ptpNow / 2 ^ 32 / 1000000000 + 1) * 1000000000 * 2 ^ 32) :
    exec .ptpSecond s = .next (s.ptpUntil b) := by
  rw [hb]
  rfl

theorem State.ptpUntil_reed {s : State} (b : Nat) (hruns : s.ptpRuns = true) (hfollows : s.reedOnPtp = true) :
    s.ptpUntil b = s.reedTicks ((8 * ((b - s.ptpNow + s.ptpTick - 1) / s.ptpTick) - s.field.ptpPhase + 4) / 5) := by
  unfold State.ptpUntil
  dsimp only
  rw [hfollows, hruns, Bool.and_true, if_pos rfl]

theorem State.exec_ptpTarget {s : State} (h : (s.ptpRuns && s.flag F.PTPCLK_TARGET_HI_ARMED) = true) :
    exec .ptpTarget s = .next (s.ptpUntil s.ptpTarget).ptpReached :=
  congrArg Host.Outcome.next (if_neg (by rw [h]; decide))

/-- PTP_SET on an open page. -/
theorem State.exec_ptpSet {s : State} {q : Req} {sec : BitVec 32} {ns : Fin 1000000000} (hopen : OpenTo s q P.PTPCLK) :
    exec (.ptpSet q (timeValue sec ns)) s = .next (((s.respond false 0#64).timeStored q.ni.val (timeValue sec ns)).ptpReached) := by
  rw [← State.opPtpTime_eq]
  exact congrArg Host.Outcome.next (State.gate_inPage (a := R.PTPCLK_TIME) .d (timeValue sec ns) _ hopen (by decide +kernel))

/-- PTP_STEP on an open page. -/
theorem State.exec_ptpStep {s : State} {q : Req} {ns : BitVec 32} (hopen : OpenTo s q P.PTPCLK) :
    exec (.ptpStep q ns) s = .next ((s.respond false 0#64).opPtpStep q.ni.val (ns.zeroExtend 64)) :=
  congrArg Host.Outcome.next (State.gate_inPage (a := R.PTPCLK_STEP) .w (ns.zeroExtend 64) _ hopen (by decide +kernel))

/-- What a write of PTPCLK_STEP acts on. -/
theorem State.step_acts {s : State} {ni : Nat} {v : DWord} (hlegal : -999999999 ≤ sext 32 (F.PTPCLK_STEP_NS.of v) ∧ sext 32 (F.PTPCLK_STEP_NS.of v) ≤ 999999999) :
    F.PTPCLK_STEP_NS.of (s.storeReg ni R.PTPCLK_STEP v).2 = F.PTPCLK_STEP_NS.of v :=
  State.of_storeReg_legal (x := F.PTPCLK_STEP_NS) (l := .sclamp (-999999999) 999999999) ni (State.unfrozen_of_page s (by decide +kernel))
    (decide_eq_true hlegal) (by decide +kernel)

section
variable (ns : Fin 1000000000)

theorem of_stepForward : sext 32 (F.PTPCLK_STEP_NS.of ((BitVec.ofNat 32 ns.val).zeroExtend 64)) = ns.val := by
  have hns := ns.isLt
  have hval : ((BitVec.ofNat 32 ns.val).zeroExtend 64).toNat = ns.val := by
    rw [BitVec.zeroExtend, BitVec.toNat_setWidth, BitVec.toNat_ofNat]
    omega
  rw [Fld.of, Bits.get, hval, F.PTPCLK_STEP_NS, sext]
  simp only [Nat.shiftRight_zero]
  rw [if_pos (by omega)]
  omega

theorem of_stepBack (hpos : 0 < ns.val) : sext 32 (F.PTPCLK_STEP_NS.of ((BitVec.ofInt 32 (-(ns.val : Int))).zeroExtend 64)) = -(ns.val : Int) := by
  have hns := ns.isLt
  have hval : ((BitVec.ofInt 32 (-(ns.val : Int))).zeroExtend 64).toNat = 2 ^ 32 - ns.val := by
    rw [BitVec.zeroExtend, BitVec.toNat_setWidth, BitVec.toNat_ofInt]
    omega
  rw [Fld.of, Bits.get, hval, F.PTPCLK_STEP_NS, sext]
  simp only [Nat.shiftRight_zero]
  rw [if_neg (by omega)]
  omega

end

/-- A MAC replaced, and its PAUSED event. -/
theorem State.paused_effect (s : State) (n : Nat) (m : EthMac) :
    ((s.setEth n m).raise (P.ETH n) E.ETH_PAUSED).eth n = m ∧ ((s.setEth n m).raise (P.ETH n) E.ETH_PAUSED).event (P.ETH n) E.ETH_PAUSED = true ∧
      KeepsRegs s ((s.setEth n m).raise (P.ETH n) E.ETH_PAUSED) [R.ETH_STAT n, R.EVT_RAW (P.ETH n)] ∧
      (s.setEth n m).raise (P.ETH n) E.ETH_PAUSED = { s with
        regs := ((s.setEth n m).raise (P.ETH n) E.ETH_PAUSED).regs,
        field := { s.field with eth := ((s.setEth n m).raise (P.ETH n) E.ETH_PAUSED).field.eth } } := by
  have heth := s.eth_setEth n m
  have hrest := s.setEth_rest n m
  have hregs := s.setEth_keepsRegs n m
  obtain ⟨x, hx⟩ : ∃ x, x = s.setEth n m := ⟨_, rfl⟩
  rw [← hx] at heth hrest hregs ⊢
  refine ⟨heth, State.event_raise _ _ _ (by decide), (KeepsRegs.mono hregs (by simp)).raise (by simp), ?_⟩
  rw [hrest]
  rfl

section
variable (s : State) (q : Req) (v : DWord)

/-- The state in which a write of PTPCLK_STEP is stored, and the step not yet taken. -/
def State.stepStored : State := ((s.respond false 0#64).storeReg q.ni.val R.PTPCLK_STEP v).1

theorem State.stepStored_keepsRegs : KeepsRegs s (s.stepStored q v) (R.PTPCLK_STEP :: logRegs P.PTPCLK) :=
  ((KeepsRegs.refl s _).of_regs (u := s.respond false 0#64) rfl).storeReg (by decide) (by decide)

theorem State.stepStored_rest : s.stepStored q v = { s with regs := (s.stepStored q v).regs, resp := (s.stepStored q v).resp } :=
  State.rest_of_respond (State.storeReg_rest (s.respond false 0#64) _ _ _)

theorem State.ptpNow_stepStored : (s.stepStored q v).ptpNow = s.ptpNow :=
  State.ptpNow_congr (s.stepStored_keepsRegs q v _ (by decide)) (by rw [State.stepStored_rest])

end

section
variable {s : State} {q : Req} {ns : Fin 1000000000}

/-- A step forward, no target armed. -/
theorem State.opPtpStep_ahead (hunarmed : s.flag F.PTPCLK_TARGET_HI_ARMED = false) (hwrap : s.ptpNow + ns.val * 2 ^ 32 < ptpWrap) :
    (s.respond false 0#64).opPtpStep q.ni.val ((BitVec.ofNat 32 ns.val).zeroExtend 64) =
      (s.stepStored q ((BitVec.ofNat 32 ns.val).zeroExtend 64)).timeMoved (s.ptpNow + ns.val * 2 ^ 32) := by
  have hns := ns.isLt
  have hacts := State.step_acts (s := s.respond false 0#64) (ni := q.ni.val) (v := (BitVec.ofNat 32 ns.val).zeroExtend 64) (by rw [of_stepForward]; omega)
  have hstored := State.opPtpStep_forward (s := s.respond false 0#64) (ni := q.ni.val) (v := (BitVec.ofNat 32 ns.val).zeroExtend 64) (ns := ns.val)
    (by rw [hacts, of_stepForward])
  have hnow := s.ptpNow_stepStored q ((BitVec.ofNat 32 ns.val).zeroExtend 64)
  have hflag := (s.stepStored_keepsRegs q ((BitVec.ofNat 32 ns.val).zeroExtend 64)).flag (f := F.PTPCLK_TARGET_HI_ARMED) (by decide)
  rw [State.stepStored] at hnow hflag ⊢
  rw [hstored, hnow, State.ptpForward_unarmed hwrap (hflag.trans hunarmed)]

/-- A step back. -/
theorem State.opPtpStep_behind (hpos : 0 < ns.val) (hlo : ns.val * 2 ^ 32 ≤ s.ptpNow) (hwrap : s.ptpNow < ptpWrap) :
    (s.respond false 0#64).opPtpStep q.ni.val ((BitVec.ofInt 32 (-(ns.val : Int))).zeroExtend 64) =
      (s.stepStored q ((BitVec.ofInt 32 (-(ns.val : Int))).zeroExtend 64)).setPtp (s.ptpNow - ns.val * 2 ^ 32) := by
  have hns := ns.isLt
  have hacts := State.step_acts (s := s.respond false 0#64) (ni := q.ni.val) (v := (BitVec.ofInt 32 (-(ns.val : Int))).zeroExtend 64)
    (by rw [of_stepBack ns hpos]; omega)
  have hnow := s.ptpNow_stepStored q ((BitVec.ofInt 32 (-(ns.val : Int))).zeroExtend 64)
  rw [State.stepStored] at hnow ⊢
  rw [State.opPtpStep_back (ns := ns.val) (by rw [hacts, of_stepBack ns hpos]) hpos (by rw [hnow]; exact hlo) (by rw [hnow]; exact hwrap), hnow]

end

/-- What moves the time of a stored step moves that of the state before, in its frame. -/
theorem State.PtpMoved.of_stepStored {s t : State} {q : Req} {v : DWord} {n : Nat} (h : (s.stepStored q v).PtpMoved t n) :
    t.ptpNow = n ∧ KeepsRegs s t ([R.PTPCLK_TIME, R.PTPCLK_STEP] ++ logRegs P.PTPCLK) ∧
      t = { s with regs := t.regs, resp := t.resp, shuttle := t.shuttle, field := t.field } := by
  obtain ⟨hnow, hregs, hrest⟩ := h
  have hstored := s.stepStored_rest q v
  refine ⟨hnow, (KeepsRegs.mono (s.stepStored_keepsRegs q v) (by decide)).trans (KeepsRegs.mono hregs (by decide)), ?_⟩
  obtain ⟨u, hu⟩ : ∃ u, u = s.stepStored q v := ⟨_, rfl⟩
  rw [← hu] at hrest hstored
  rw [hrest, hstored]

section
variable (s : State) (q : Req) (sec : BitVec 32) (ns : Fin 1000000000)

/-- The state in which PTP_SET is stored, and the target not yet looked at. -/
def State.ptpSetStored : State := (s.respond false 0#64).timeStored q.ni.val (timeValue sec ns)

theorem State.ptpSetStored_keepsRegs : KeepsRegs s (s.ptpSetStored q sec ns) (R.PTPCLK_TIME :: logRegs P.PTPCLK) :=
  ((KeepsRegs.refl s _).of_regs (u := s.respond false 0#64) rfl).trans (State.timeStored_keepsRegs _ _ _)

theorem State.ptpSetStored_rest : s.ptpSetStored q sec ns = { s with
    regs := (s.ptpSetStored q sec ns).regs, resp := (s.ptpSetStored q sec ns).resp,
    field := { s.field with ptpHi := s.fld F.PTPCLK_TIME_HI_SEC_HI, ptpFrac := 0 } } := by
  have hrest := (s.respond false 0#64).timeStored_rest q.ni.val (timeValue sec ns)
  rw [State.ptpSetStored]
  exact hrest.trans (by rw [hrest]; rfl)

theorem State.fld_ptpSetStored : (s.ptpSetStored q sec ns).fld F.PTPCLK_TIME_SEC = sec.toNat ∧ (s.ptpSetStored q sec ns).fld F.PTPCLK_TIME_NS = ns.val :=
  State.fld_timeStored _ _

theorem State.ptpNow_ptpSetStored : (s.ptpSetStored q sec ns).ptpNow =
    ((s.fld F.PTPCLK_TIME_HI_SEC_HI * 2 ^ 32 + sec.toNat) * 1000000000 + ns.val) * 2 ^ 32 := State.ptpNow_timeStored (s.respond false 0#64) _

end

/-- Settles O40: PAUSE, MDIO and the PTP clock. -/
theorem pauseMdioAndThePtpClock : Obligations.PauseMdioAndThePtpClock := by
  unfold Obligations.PauseMdioAndThePtpClock
  refine ⟨?_, ?_, ?_, ?_, ?_, ?_, ?_, ?_, ?_, ?_, ?_, ?_⟩
  · intro s n quanta hhears hen
    have hpaused : s.opPause n.val quanta.toNat = (s.setEth n.val { s.eth n.val with pause := quanta.toNat * 512 *
        (if s.fld (F.ETH_CFG_SPEED n.val) = 0 then 100 else if s.fld (F.ETH_CFG_SPEED n.val) = 1 then 10 else 1) }).raise (P.ETH n.val) E.ETH_PAUSED :=
      if_neg (by rw [hhears, hen]; decide)
    exact ⟨_, congrArg Host.Outcome.next hpaused, s.paused_effect n.val _⟩
  · intro s q data reg phy read answer hopen
    obtain ⟨hofdata, hofreg, hofphy, hofread, hofgo⟩ := of_mdioValue data reg phy read
    obtain ⟨hdata, hreg, hphy, hread, hevent, hregs, hrest⟩ := State.opMdio_effect (s := s.respond false 0#64) (ni := q.ni.val) hofgo hofread answer
    refine ⟨_, congrArg Host.Outcome.next (State.gate_inPage (a := R.ETH_MDIO 0) .w (mdioValue data reg phy read) _ hopen (by decide +kernel)),
      hdata.trans (by rw [hofdata]; rfl), hreg.trans hofreg, hphy.trans hofphy, hread, hevent, ?_, State.rest_of_respond hrest⟩
    exact ((KeepsRegs.refl s _).of_regs (u := s.respond false 0#64) rfl).trans hregs
  · intro s b hruns hown hunarmed hb hwrap
    obtain ⟨n, hreach, hover, hforward⟩ := State.ptpUntil_reaches (b := b) hruns hown (by omega)
    have hn : n < ptpWrap := by unfold ptpWrap; omega
    have hsecond : s.ptpUntil b = s.secondPassed n := hforward.trans (State.ptpForward_second hn hunarmed (by omega))
    obtain ⟨hnow, hregs, hrest⟩ := State.ptpMoved_secondPassed (s := s) hn
    exact ⟨s.secondPassed n, (State.exec_ptpSecond hb).trans (congrArg Host.Outcome.next hsecond), by omega, by omega, s.secondPassed_event n,
      s.secondPassed_shuttle n, hregs, hrest⟩
  · intro s hruns hown harmed hbefore hwrap
    obtain ⟨n, hreach, hover, hforward⟩ := State.ptpUntil_reaches hruns hown hbefore
    have hn : n < ptpWrap := by unfold ptpWrap; omega
    have hreached : (s.ptpUntil s.ptpTarget).ptpReached = (s.timeMoved n).targetReached := by
      rw [hforward, State.ptpForward_target hn harmed hreach, State.ptpReached_unarmed (State.targetReached_armed _)]
    obtain ⟨hnow, hregs, hrest⟩ := State.ptpMoved_timeMoved (s := s) hn
    obtain ⟨u, hu⟩ : ∃ u, u = s.timeMoved n := ⟨_, rfl⟩
    rw [← hu] at hreached hnow hregs hrest
    have hnow' := u.targetReached_now
    refine ⟨_, (State.exec_ptpTarget (by rw [hruns, harmed]; rfl)).trans (congrArg Host.Outcome.next hreached), by omega, by omega, u.targetReached_armed,
      u.targetReached_event, (KeepsRegs.mono hregs (by decide)).trans (KeepsRegs.mono u.targetReached_keepsRegs (by decide)), ?_⟩
    rw [State.targetReached_rest, hrest]
  · intro s b hruns hfollows hb
    exact ⟨_, State.exec_ptpSecond hb, State.ptpUntil_reed b hruns hfollows⟩
  · intro s q sec ns hopen hunarmed
    have hflag := ((s.ptpSetStored_keepsRegs q sec ns).flag (f := F.PTPCLK_TARGET_HI_ARMED) (by decide)).trans hunarmed
    obtain ⟨hsec, hns⟩ := s.fld_ptpSetStored q sec ns
    have hrest := s.ptpSetStored_rest q sec ns
    have hfield : (s.ptpSetStored q sec ns).field = { s.field with ptpHi := s.fld F.PTPCLK_TIME_HI_SEC_HI, ptpFrac := 0 } := by rw [hrest]
    refine ⟨s.ptpSetStored q sec ns, (State.exec_ptpSet hopen).trans (congrArg Host.Outcome.next (State.ptpReached_unarmed hflag)), hsec, hns, hfield,
      s.ptpSetStored_keepsRegs q sec ns, hrest.trans (by rw [hfield])⟩
  · intro s q ns hopen hunarmed hwrap
    have hmoved := State.ptpMoved_timeMoved (s := s.stepStored q ((BitVec.ofNat 32 ns.val).zeroExtend 64)) (n := s.ptpNow + ns.val * 2 ^ 32) hwrap
    obtain ⟨hnow, hregs, hrest⟩ := hmoved.of_stepStored
    refine ⟨_, (State.exec_ptpStep hopen).trans (congrArg Host.Outcome.next (State.opPtpStep_ahead hunarmed hwrap)), hnow, fun hpassed => ?_, hregs, hrest⟩
    rw [hnow] at hpassed
    have hstored := s.ptpNow_stepStored q ((BitVec.ofNat 32 ns.val).zeroExtend 64)
    rw [State.timeMoved, hstored, if_pos hpassed]
    refine ⟨State.secondPassed_event _ _, (State.secondPassed_shuttle _ _).trans ?_⟩
    exact (s.stepStored_keepsRegs q _).pulse (by decide) 56 (by rw [State.stepStored_rest])
  · intro s q ns hopen hpos hlo hwrap
    have hmoved := State.ptpMoved_setPtp (s := s.stepStored q ((BitVec.ofInt 32 (-(ns.val : Int))).zeroExtend 64)) (n := s.ptpNow - ns.val * 2 ^ 32)
      (by unfold ptpWrap; omega)
    obtain ⟨hnow, hregs, -⟩ := hmoved.of_stepStored
    refine ⟨_, (State.exec_ptpStep hopen).trans (congrArg Host.Outcome.next (State.opPtpStep_behind hpos hlo hwrap)), hnow, hregs, ?_⟩
    have hset := (s.stepStored q ((BitVec.ofInt 32 (-(ns.val : Int))).zeroExtend 64)).setPtp_rest (s.ptpNow - ns.val * 2 ^ 32)
    have hstored := s.stepStored_rest q ((BitVec.ofInt 32 (-(ns.val : Int))).zeroExtend 64)
    obtain ⟨u, hu⟩ : ∃ u, u = s.stepStored q ((BitVec.ofInt 32 (-(ns.val : Int))).zeroExtend 64) := ⟨_, rfl⟩
    rw [← hu] at hset hstored ⊢
    rw [hset, hstored]
  · intro s q sec ns hopen harmed hpast
    have hkept := s.ptpSetStored_keepsRegs q sec ns
    have hflag := (hkept.flag (f := F.PTPCLK_TARGET_HI_ARMED) (by decide)).trans harmed
    have htarget := State.ptpTarget_congr hkept (by decide) (by decide)
    have hnow := s.ptpNow_ptpSetStored q sec ns
    obtain ⟨hsec, hns⟩ := s.fld_ptpSetStored q sec ns
    have hrest := s.ptpSetStored_rest q sec ns
    have hexec := State.exec_ptpSet (sec := sec) (ns := ns) hopen
    rw [← State.ptpSetStored] at hexec
    obtain ⟨u, hu⟩ : ∃ u, u = s.ptpSetStored q sec ns := ⟨_, rfl⟩
    rw [← hu] at hkept hflag htarget hnow hsec hns hrest hexec
    rw [State.ptpReached_armed hflag (by rw [htarget, hnow]; exact hpast)] at hexec
    have hreached := u.targetReached_keepsRegs
    refine ⟨_, hexec, (hreached.fld (by decide)).trans hsec, (hreached.fld (by decide)).trans hns, u.targetReached_armed, u.targetReached_event, ?_, ?_, ?_⟩
    · exact u.targetReached_shuttle.trans (hkept.pulse (by decide) 57 (by rw [hrest]))
    · exact (KeepsRegs.mono hkept (by decide)).trans (KeepsRegs.mono hreached (by decide))
    · rw [State.targetReached_rest, hrest]
  · intro s hidle
    exact ⟨_, rfl, if_pos (by rw [hidle]; rfl)⟩
  · intro s hstopped
    exact ⟨_, rfl, State.ptpUntil_stopped _ hstopped⟩
  · intro s n quanta hdeaf
    exact ⟨_, rfl, if_pos (by rw [hdeaf]; rfl)⟩

end Sys2Proof.Machine
end


section
/-! A fault that Belay answers with SIGNAL alone while it copies no log to MRAM (R571, R572, R574): it has been signalled. -/
namespace Sys2Proof.Machine

/-- The highest class of a list of sources. -/
def topClass (cls : List (Nat × Nat)) : Nat := cls.foldl (fun m e => max m e.2) 0

theorem topClass_le {cls : List (Nat × Nat)} {b : Nat} (h : ∀ e ∈ cls, e.2 ≤ b) : topClass cls ≤ b :=
  List.foldlRecOn (motive := fun m => m ≤ b) _ _ (Nat.zero_le b) fun _ hm e he => Nat.max_le.2 ⟨hm, h e he⟩

section
variable (s : State) (f : FaultInput)

/-- The classes that Belay holds once the fault `f` is pending. -/
def State.classesWith : List (Nat × Nat) :=
  SMap.put (fun _ => 0) s.belay.cls f.source (max f.cls (SMap.get (fun _ => 0) s.belay.cls f.source))

/-- The sources with a real fault since the last clear, once the fault `f` is pending. -/
def State.realWith : Nat := if f.injected && ! s.flag F.SCREE_CTRL_FULL_REACT then s.belay.real else s.belay.real ||| 2 ^ f.source

theorem SMap.get_le {b : Nat} {cls : List (Nat × Nat)} (h : ∀ e ∈ cls, e.2 ≤ b) (k : Nat) : SMap.get (fun _ => 0) cls k ≤ b := by
  induction cls with
  | nil => exact Nat.zero_le b
  | cons e cls ih =>
    rw [SMap.get]
    split
    · exact h e List.mem_cons_self
    · exact ih fun x hx => h x (List.mem_cons_of_mem _ hx)

theorem State.classesWith_le {b : Nat} (hcls : f.cls ≤ b) (h : ∀ e ∈ s.belay.cls, e.2 ≤ b) : ∀ e ∈ s.classesWith f, e.2 ≤ b := by
  intro e he
  rcases SMap.mem_put he with rfl | ⟨hmem, -⟩
  · exact Nat.max_le.2 ⟨hcls, SMap.get_le h _⟩
  · exact h e hmem

/-- R572: how the fault is answered: FAULT_N is asserted, or would have been, or is not asked for. -/
theorem State.answered_cases :
    (f.cls < 3 ∧ s.answered f = (s.classed f).setHighest) ∨
      ((f.injected && s.flag F.SCREE_CTRL_QUIET) = true ∧ s.answered f = (s.classed f).setHighest.setFld F.BELAY_STAT_WOULD 1) ∨
      ((f.injected && s.flag F.SCREE_CTRL_QUIET) = false ∧ s.answered f = (s.classed f).setHighest.assertFaultN f.source) := by
  unfold State.answered
  split
  case isTrue hasks => exact .inl ⟨by simp at hasks; omega, rfl⟩
  case isFalse =>
    split
    case isTrue hquiet => exact .inr (.inl ⟨hquiet, rfl⟩)
    case isFalse hquiet => exact .inr (.inr ⟨by simpa using hquiet, rfl⟩)

theorem State.answered_belay : (s.answered f).belay =
    { s.belay with cls := s.classesWith f, real := s.realWith f, holds := (s.answered f).belay.holds, faultLow := (s.answered f).belay.faultLow } := by
  rcases s.answered_cases f with ⟨-, h⟩ | ⟨-, h⟩ | ⟨-, h⟩ <;> rw [h] <;> rfl

theorem State.answered_highest : (s.answered f).fld F.BELAY_STAT_HIGHEST = topClass (s.classesWith f) % 8 := by
  have hset : (s.classed f).setHighest.fld F.BELAY_STAT_HIGHEST = topClass (s.classesWith f) % 8 := State.fld_setFld _ _ _ (by decide)
  rcases s.answered_cases f with ⟨-, h⟩ | ⟨-, h⟩ | ⟨-, h⟩
  · rw [h, hset]
  · rw [h, State.fld_setFld_ne _ _ _ _ (by decide), hset]
  · rw [h]
    exact (State.fld_setFld_ne _ _ _ _ (by decide)).trans hset

/-- R572: a fault above class 2 that Scree does not keep quiet asserts FAULT_N. -/
theorem State.answered_asserts (hcls : 3 ≤ f.cls) (hloud : f.injected = false) :
    (s.answered f).flag F.BELAY_STAT_FAULT = true ∧ (s.answered f).belay.faultLow = true ∧ (s.answered f).belay.holds.testBit f.source = true := by
  rcases s.answered_cases f with ⟨hlow, -⟩ | ⟨hquiet, -⟩ | ⟨-, h⟩
  · omega
  · simp [hloud] at hquiet
  · rw [h]
    refine ⟨?_, rfl, ?_⟩
    · have hset : ((s.classed f).setHighest.setFld F.BELAY_STAT_FAULT 1).flag F.BELAY_STAT_FAULT = true := State.flag_setFlag _ _ true (by decide) (by decide)
      exact hset
    · change (s.belay.holds ||| 2 ^ f.source).testBit f.source = true
      simp

/-- R580: one that Scree keeps quiet only shows what would have been. -/
theorem State.answered_quiet (hcls : 3 ≤ f.cls) (hquiet : (f.injected && s.flag F.SCREE_CTRL_QUIET) = true) :
    (s.answered f).flag F.BELAY_STAT_WOULD = true ∧ (s.answered f).belay.holds = s.belay.holds := by
  rcases s.answered_cases f with ⟨hlow, -⟩ | ⟨-, h⟩ | ⟨hloud, -⟩
  · omega
  · rw [h]
    refine ⟨?_, rfl⟩
    exact State.flag_setFlag _ _ true (by decide) (by decide)
  · rw [hquiet] at hloud
    cases hloud

theorem State.noticed_counts : (s.noticed f).fld F.BELAY_SIGNALLED_COUNT = min (2 ^ 16 - 1) (s.fld F.BELAY_SIGNALLED_COUNT + 1) := by
  have hanswered : (s.answered (s.taken f)).fld F.BELAY_SIGNALLED_COUNT = s.fld F.BELAY_SIGNALLED_COUNT :=
    ((s.answered_keepsRegs (s.taken f)).fld (by decide)).trans (((KeepsRegs.refl s _).setReg (a := R.BELAY_PEND) (List.mem_singleton.2 rfl)).fld (by decide))
  obtain ⟨u, hu⟩ : ∃ u, u = s.answered (s.taken f) := ⟨_, rfl⟩
  rw [State.noticed, ← hu] 
  rw [← hu] at hanswered
  have hbumped : (u.bumpSat F.BELAY_SIGNALLED_COUNT F.BELAY_SIGNALLED_SAT).fld F.BELAY_SIGNALLED_COUNT = min (2 ^ 16 - 1) (u.fld F.BELAY_SIGNALLED_COUNT + 1) :=
    State.fld_bumpSat _ (by decide) (by decide)
  have hcounted : (u.countSignalled f.cls).fld F.BELAY_SIGNALLED_COUNT = (u.bumpSat F.BELAY_SIGNALLED_COUNT F.BELAY_SIGNALLED_SAT).fld F.BELAY_SIGNALLED_COUNT := by
    rw [State.countSignalled, State.fld_raise_ne _ _ _ _ (by decide)]
    exact State.fld_setReg_ne _ _ _ _ (by decide)
  rw [hcounted, hbumped, hanswered]

theorem State.noticed_attn : ((s.noticed f).raw R.TETHER_ATTN).getLsbD 1 = true := by
  obtain ⟨u, hu⟩ : ∃ u, u = s.answered (s.taken f) := ⟨_, rfl⟩
  have hset : (u.countSignalled f.cls).raw R.TETHER_ATTN =
      Bits.put ((u.bumpSat F.BELAY_SIGNALLED_COUNT F.BELAY_SIGNALLED_SAT).raw R.TETHER_ATTN) 1 1 1 := by
    rw [State.countSignalled, State.raw_raise_ne _ _ _ _ (by decide)]
    exact (State.raw_setReg _ _ _ _).trans (if_pos rfl)
  rw [State.noticed, ← hu, hset, Bits.getLsbD_put _ _ _ _ _ (by decide)]
  rfl

theorem State.noticed_stat (x : Fld) (hx : x.reg = R.BELAY_STAT) : (s.noticed f).fld x = (s.answered (s.taken f)).fld x := by
  have hkept : KeepsRegs (s.answered (s.taken f)) (s.noticed f) [R.BELAY_SIGNALLED, R.TETHER_ATTN, R.EVT_RAW P.BELAY] :=
    ((((KeepsRegs.refl _ _).bumpSat (by decide) (by decide)).setReg (a := R.TETHER_ATTN) (by decide)).of_regs rfl).raise (by decide)
  exact hkept.fld (by rw [hx]; decide)

theorem State.noticed_stat_flag (x : Fld) (hx : x.reg = R.BELAY_STAT) : (s.noticed f).flag x = (s.answered (s.taken f)).flag x := by
  rw [State.flag, State.flag, s.noticed_stat f x hx]

end

section
variable {s : State} {f : FaultInput} (htest : s.belay.test = none) (hlog : s.flag F.BELAY_LOG_CTRL_EN = false)
  (hreact : s.reactionOf (s.taken f) = 0)
include htest hlog hreact

theorem State.signal_unreacted_belay : (s.signal f).belay = { (s.answered (s.taken f)).belay with seq := s.belay.seq + 1 } := by
  have hseq : (s.noticed f).belay.seq = s.belay.seq := by rw [State.noticed_belay, State.answered_belay]
  rw [State.signal_unreacted htest hlog hreact, State.entered_rest, ← hseq, ← State.noticed_belay]

theorem State.signal_signalled (hsource : f.source < 32) (hcls : f.cls ≤ 4) (hclasses : ∀ e ∈ s.belay.cls, e.2 ≤ 4) : s.Signalled (s.signal f) f := by
  have hbelay := State.signal_unreacted_belay htest hlog hreact
  have hshown : KeepsRegs (s.noticed f) (s.signal f) lastRegs := by
    rw [State.signal_unreacted htest hlog hreact]
    exact (s.noticed f).entered_keepsRegs _
  have hall := State.signal_unreacted_keepsRegs htest hlog hreact
  have hanswered := s.answered_belay (s.taken f)
  have hhighest : (s.signal f).fld F.BELAY_STAT_HIGHEST = topClass (s.classesWith f) := by
    rw [hshown.fld (by decide), s.noticed_stat f _ rfl, State.answered_highest]
    exact Nat.mod_eq_of_lt (Nat.lt_of_le_of_lt (topClass_le (s.classesWith_le f hcls hclasses)) (by decide))
  have hlast (n : Fin 8) : (s.signal f).raw (R.BELAY_LAST n.val) =
      BitVec.ofNat 64 (leNat (slice (4 * n.val) 4 ((s.noticed f).logBytes (s.taken f) ((s.noticed f).belay.seq + 1) true))) := by
    rw [State.signal_unreacted htest hlog hreact, State.entered, State.raw_copyLast]
  refine ⟨s.pend_signal f htest (Nat.lt_trans hsource (by decide)), ?_, ?_, fun h3 hloud => ?_, fun h3 hinjected hquiet => ?_, ?_, ?_, ?_, ?_, fun n => ?_⟩
  · rw [hbelay, hanswered]
    exact (SMap.get_put _ _ _ _ _).trans (if_pos rfl)
  · rw [hhighest, hbelay, hanswered]
    rfl
  · obtain ⟨hfault, hlow, hholds⟩ := s.answered_asserts (s.taken f) h3 hloud
    rw [hbelay]
    refine ⟨?_, hlow, hholds⟩
    rw [hshown.flag (by decide), s.noticed_stat_flag f _ rfl, hfault]
  · obtain ⟨hwould, hholds⟩ := s.answered_quiet (s.taken f) h3 (Bool.and_eq_true_iff.2 ⟨hinjected, hquiet⟩)
    rw [hbelay]
    refine ⟨?_, hholds⟩
    rw [hshown.flag (by decide), s.noticed_stat_flag f _ rfl, hwould]
  · rw [hshown.fld (by decide), State.noticed_counts]
  · rw [hshown _ (by decide), State.noticed_attn]
  · rw [hshown.event _ (by decide), State.noticed_event]
  · rw [hbelay]
  · have hseq : (s.noticed f).belay.seq + 1 = (s.signal f).belay.seq := by rw [hbelay, State.noticed_belay, State.answered_belay]
    have hbytes : (s.signal f).logBytes (s.taken f) (s.signal f).belay.seq true = (s.noticed f).logBytes (s.taken f) (s.signal f).belay.seq true :=
      hshown.logBytes (f := s.taken f) hsource (by decide) _ _
    rw [hlast, hseq, ← hbytes]
    rfl

end

/-- A fault that Scree injects: signalled from a state that differs in nothing of Belay, it is signalled from the first. -/
theorem State.Signalled.of_injected {s u t : State} {g : FaultInput} (h : u.Signalled t g) (hinjected : g.injected = true) (hbelay : u.belay = s.belay)
    (hquiet : u.flag F.SCREE_CTRL_QUIET = s.flag F.SCREE_CTRL_QUIET) (hcount : u.fld F.BELAY_SIGNALLED_COUNT = s.fld F.BELAY_SIGNALLED_COUNT) : s.Signalled t g := by
  unfold State.Signalled at h ⊢
  rw [hbelay, hquiet, hcount] at h
  simpa only [hinjected, Bool.true_or] using h

end Sys2Proof.Machine
end

section
/-! Scree's one-shots (R578, R579, R581): what a write whose GO acts leaves, and what one that does not. -/
namespace Sys2Proof.Machine

-- Checked one after another: side by side these evaluations take more memory than the check has.
set_option Elab.async false

/-! ### A one-shot that has acted -/

section
variable (s : State) (off : Nat)

theorem State.shotApplied_rest : s.shotApplied off = { s with regs := (s.shotApplied off).regs } := by
  rw [State.shotApplied, State.bumpSat_rest]
  rfl

theorem State.shotApplied_keepsRegs : KeepsRegs s (s.shotApplied off) [R.SCREE_LAST, R.SCREE_COUNT, R.EVT_RAW P.SCREE] :=
  (((KeepsRegs.refl s _).setFld (by decide)).bumpSat (by decide) (by decide)).raise (by decide)

theorem State.shotActed_shotApplied (hoff : off < 2 ^ 12) : s.ShotActed (s.shotApplied off) off := by
  refine ⟨?_, ?_, State.event_raise _ _ _ (by decide)⟩
  · have hkept : KeepsRegs (s.setFld F.SCREE_LAST_OFFSET off) (s.shotApplied off) [R.SCREE_COUNT, R.EVT_RAW P.SCREE] :=
      ((KeepsRegs.refl _ _).bumpSat (by decide) (by decide)).raise (by decide)
    rw [hkept.fld (by decide), State.fld_setFld _ _ _ (by decide)]
    exact Nat.mod_eq_of_lt hoff
  · rw [State.shotApplied, State.fld_raise_ne _ _ _ _ (by decide), State.fld_bumpSat _ (by decide) (by decide), State.fld_setFld_ne _ _ _ _ (by decide)]
    rfl

theorem State.shotMissed_rest : s.shotMissed = { s with regs := s.shotMissed.regs } := rfl

theorem State.shotMissed_keepsRegs : KeepsRegs s s.shotMissed [R.SCREE_ECC_GO, R.EVT_RAW P.SCREE] :=
  ((KeepsRegs.refl s _).setFld (by decide)).raise (by decide)

theorem State.missed_shotMissed : s.shotMissed.flag F.SCREE_ECC_GO_MISSED = true :=
  (State.flag_raise_ne _ _ _ _ (by decide)).trans (State.flag_setFlag _ _ true (by decide) (by decide))

end

/-- Counted from a state that keeps the count, and read in one that keeps what it shows. -/
theorem State.ShotActed.of_keeps {s u v t : State} {off : Nat} {k l : List Nat} (h : u.ShotActed v off) (hbefore : KeepsRegs s u k) (hk : R.SCREE_COUNT ∉ k)
    (hafter : KeepsRegs v t l) (hl : ∀ a ∈ [R.SCREE_LAST, R.SCREE_COUNT, R.EVT_RAW P.SCREE], a ∉ l) : s.ShotActed t off := by
  obtain ⟨hlast, hcount, hevent⟩ := h
  refine ⟨?_, ?_, ?_⟩
  · rw [hafter.fld (hl _ (by decide)), hlast]
  · rw [hafter.fld (hl _ (by decide)), hcount, hbefore.fld hk]
  · rw [hafter.event _ (hl _ (by decide)), hevent]

/-! ### The write -/

section
variable (s : State) (q : Req) (a : Nat) (v : DWord)

/-- The state in which a write of `q` to a register is stored, and nothing has acted on it. -/
def State.stored : State := ((s.respond false 0#64).storeReg q.ni.val a v).1

theorem State.stored_keepsRegs : KeepsRegs s (s.stored q a v) (a :: logRegs (pageBase a)) :=
  ((KeepsRegs.refl s _).of_regs (u := s.respond false 0#64) rfl).storeReg List.mem_cons_self fun _ h => List.mem_cons_of_mem _ h

theorem State.stored_rest : s.stored q a v = { s with regs := (s.stored q a v).regs, resp := ⟨false, 0#64⟩ } :=
  State.storeReg_rest (s.respond false 0#64) _ _ _

/-- A register of SCREE that no state of Scree depends on, and whose GO is the field `go`. -/
def shotReg (go : Fld) : Bool :=
  inPage go.reg P.SCREE && (regAt go.reg).map (fun x => x.1.base) == some P.SCREE && decide (pageBase go.reg = P.SCREE ∧ go.reg ≠ R.PAGE_CTRL P.SCREE) &&
    rateRegs.all (fun b => decide (b ∉ go.reg :: logRegs P.SCREE)) && go.acting

variable {s q v} {go : Fld} (hgo : shotReg go = true)
include hgo

theorem State.screeActs_stored : (s.stored q go.reg v).screeActs = s.screeActs := by
  simp only [shotReg, Bool.and_eq_true, beq_iff_eq, decide_eq_true_eq, List.all_eq_true] at hgo
  obtain ⟨⟨⟨-, hpage, -⟩, hrate⟩, -⟩ := hgo
  exact (s.stored_keepsRegs q go.reg v).screeActs (by rw [hpage]; exact hrate)

theorem State.unfrozen_of_acts (hacts : s.screeActs = true) : s.Unfrozen go.reg := by
  simp only [shotReg, Bool.and_eq_true, beq_iff_eq, decide_eq_true_eq, List.all_eq_true] at hgo
  obtain ⟨⟨⟨⟨-, hbase⟩, hpage, hctrl⟩, -⟩, -⟩ := hgo
  refine State.unfrozen_of_permitted ?_ hbase (by rw [hpage]; exact hctrl)
  simp only [State.screeActs, Bool.and_eq_true] at hacts
  exact hacts.2

/-- While Scree does not act a GO is only stored. -/
theorem State.screeGo_idle (f : State → State) (hidle : s.screeActs = false) :
    (s.respond false 0#64).screeGo q.ni.val go.reg go v f = s.stored q go.reg v := by
  have hstored : (s.stored q go.reg v).screeActs = false := (State.screeActs_stored hgo).trans hidle
  refine if_neg ?_
  rw [Bool.and_eq_true]
  rintro ⟨-, hacts⟩
  exact absurd (hacts.symm.trans hstored) (by decide)

/-- While Scree acts, so does a GO. -/
theorem State.screeGo_acts (f : State → State) (hacts : s.screeActs = true) (hv : go.of v = 1) :
    (s.respond false 0#64).screeGo q.ni.val go.reg go v f = f (s.stored q go.reg v) := by
  have hstored : (s.stored q go.reg v).screeActs = true := (State.screeActs_stored hgo).trans hacts
  have hfree : (s.respond false 0#64).Unfrozen go.reg := State.unfrozen_of_acts hgo hacts
  have hacting : go.acting = true := by
    simp only [shotReg, Bool.and_eq_true] at hgo
    exact hgo.2
  refine if_pos ?_
  rw [Bool.and_eq_true, decide_eq_true_eq]
  exact ⟨(State.of_storeReg_acting q.ni.val v hfree hacting).trans hv, hstored⟩

theorem State.gate_shot (hopen : OpenTo s q P.SCREE) (op : State → State) : s.gateWrite q go.reg .w v op = op (s.respond false 0#64) := by
  simp only [shotReg, Bool.and_eq_true] at hgo
  exact State.gate_inPage .w v op hopen hgo.1.1.1.1

end

theorem shotReg_of_mem : ∀ go ∈ [F.SCREE_LOCKSTEP_GO, F.SCREE_DUP_GO, F.SCREE_CRC_GO, F.SCREE_MON_GO, F.SCREE_ENTROPY_GO, F.SCREE_ECC_GO_GO],
    shotReg go = true := by decide +kernel

end Sys2Proof.Machine
end

section
/-! LOCKSTEP_GO, DUP_GO, CRC_GO, MON_GO, ENTROPY_GO and SCREE_END (R578 to R581). -/
namespace Sys2Proof.Machine

/-! ### What a one-shot leaves -/

/-- A write of GO while Scree does not act. -/
theorem State.idleShot_effect {s : State} {q : Req} {go : Fld} {v : DWord} (hgo : go ∈ [F.SCREE_LOCKSTEP_GO, F.SCREE_DUP_GO, F.SCREE_CRC_GO, F.SCREE_MON_GO,
      F.SCREE_ENTROPY_GO, F.SCREE_ECC_GO_GO]) (hopen : OpenTo s q P.SCREE) (hidle : s.screeActs = false) (f : State → State) :
    ∃ t, s.gateWrite q go.reg .w v (fun u => u.screeGo q.ni.val go.reg go v f) = t ∧ KeepsRegs s t (go.reg :: logRegs P.SCREE) ∧
      t = { s with regs := t.regs, resp := ⟨false, 0#64⟩ } := by
  have hshot := shotReg_of_mem go hgo
  have hpage : pageBase go.reg = P.SCREE := by
    simp only [shotReg, Bool.and_eq_true, decide_eq_true_eq] at hshot
    exact hshot.1.1.2.1
  refine ⟨s.stored q go.reg v, ?_, hpage ▸ s.stored_keepsRegs q go.reg v, s.stored_rest q go.reg v⟩
  rw [State.gate_shot hshot hopen, State.screeGo_idle hshot f hidle]

/-- A write of GO while Scree acts. -/
theorem State.exec_shot {s : State} {q : Req} {go : Fld} {v : DWord} (hgo : go ∈ [F.SCREE_LOCKSTEP_GO, F.SCREE_DUP_GO, F.SCREE_CRC_GO, F.SCREE_MON_GO,
      F.SCREE_ENTROPY_GO, F.SCREE_ECC_GO_GO]) (hopen : OpenTo s q P.SCREE) (hacts : s.screeActs = true) (hv : go.of v = 1) (f : State → State) :
    s.gateWrite q go.reg .w v (fun u => u.screeGo q.ni.val go.reg go v f) = f (s.stored q go.reg v) := by
  have hshot := shotReg_of_mem go hgo
  rw [State.gate_shot hshot hopen, State.screeGo_acts hshot f hacts hv]

/-- The state `x` differs from the one in which a write of `q` to SCREE is stored in registers that the write and its log reach, and in what it arms. -/
structure State.Armed (s : State) (q : Req) (a : Nat) (v : DWord) (x : State) : Prop where
  keeps : KeepsRegs s x (a :: logRegs P.SCREE)
  rest : x = { s with regs := x.regs, memory := x.memory, belay := x.belay, resp := ⟨false, 0#64⟩ }

theorem State.armed_modBelay (s : State) (q : Req) (a : Nat) (v : DWord) (hpage : pageBase a = P.SCREE) (g : BelayState → BelayState) :
    s.Armed q a v ((s.stored q a v).modBelay g) :=
  ⟨(hpage ▸ s.stored_keepsRegs q a v : KeepsRegs s (s.stored q a v) (a :: logRegs P.SCREE)).of_regs rfl, by
    rw [State.modBelay, State.stored_rest]⟩

theorem State.armed_stored (s : State) (q : Req) (a : Nat) (v : DWord) (hpage : pageBase a = P.SCREE) : s.Armed q a v (s.stored q a v) :=
  ⟨hpage ▸ s.stored_keepsRegs q a v, by rw [State.stored_rest]⟩

theorem State.Armed.applied {s x : State} {q : Req} {a off : Nat} {v : DWord} (h : s.Armed q a v x) (ha : R.SCREE_COUNT ∉ a :: logRegs P.SCREE)
    (hoff : off < 2 ^ 12) : s.ShotActed (x.shotApplied off) off ∧ KeepsRegs s (x.shotApplied off) ([a, R.SCREE_LAST, R.SCREE_COUNT] ++ logRegs P.SCREE) ∧
      x.shotApplied off = { s with regs := (x.shotApplied off).regs, memory := x.memory, belay := x.belay, resp := ⟨false, 0#64⟩ } := by
  obtain ⟨hkeeps, hrest⟩ := h
  refine ⟨(x.shotActed_shotApplied off hoff).of_keeps hkeeps ha (KeepsRegs.refl _ []) (by simp), ?_, ?_⟩
  · have hwide : ∀ b ∈ a :: logRegs P.SCREE, b ∈ [a, R.SCREE_LAST, R.SCREE_COUNT] ++ logRegs P.SCREE := by
      intro b hb
      rcases List.mem_cons.1 hb with rfl | hb
      · exact List.mem_append_left _ List.mem_cons_self
      · exact List.mem_append_right _ hb
    refine (hkeeps.mono hwide).trans ((x.shotApplied_keepsRegs off).mono fun b hb => ?_)
    simp only [List.mem_cons, List.not_mem_nil, or_false] at hb
    rcases hb with rfl | rfl | rfl
    · simp
    · simp
    · exact List.mem_append_right _ (by decide)
  · rw [State.shotApplied_rest]
    exact hrest ▸ rfl

end Sys2Proof.Machine
end

section
/-! What the one-shots of Scree inject, and the end of Scree (R578 to R581). -/
namespace Sys2Proof.Machine

-- Checked one after another: side by side these evaluations take more memory than the check has.
set_option Elab.async false

/-! ### A fault that is injected -/

/-- A fault that Scree injects once its one-shot has acted, while Belay answers no injected fault but with SIGNAL and copies no log. -/
theorem State.injected_effect {s x : State} {q : Req} {a off : Nat} {v : DWord} {f : FaultInput} (h : s.Armed q a v x) (hbelay : x.belay = s.belay)
    (hmemory : x.memory = s.memory) (ha : a ∈ [R.SCREE_DUP, R.SCREE_MON]) (hoff : off < 2 ^ 12) (htest : s.belay.test = none)
    (hlog : s.flag F.BELAY_LOG_CTRL_EN = false) (hfull : s.flag F.SCREE_CTRL_FULL_REACT = false) (hclasses : ∀ e ∈ s.belay.cls, e.2 ≤ 4)
    (hinjected : f.injected = true) (hsource : f.source < 32) (hcls : f.cls ≤ 4) :
    s.ShotActed ((x.shotApplied off).signal f) off ∧ s.Signalled ((x.shotApplied off).signal f) f ∧
      ((x.shotApplied off).signal f).belay.real = s.belay.real ∧ ((x.shotApplied off).signal f).belay.resetDue = s.belay.resetDue ∧
      ((x.shotApplied off).signal f).raw R.BELAY_MON = s.raw R.BELAY_MON ∧ KeepsPages s ((x.shotApplied off).signal f) [P.SCREE, P.BELAY, P.TETHER] ∧
      (x.shotApplied off).signal f = { s with
        regs := ((x.shotApplied off).signal f).regs, belay := ((x.shotApplied off).signal f).belay, tether := ((x.shotApplied off).signal f).tether,
        resp := ⟨false, 0#64⟩ } := by
  have haway : ∀ b ∈ [R.SCREE_COUNT, R.BELAY_MON, F.BELAY_LOG_CTRL_EN.reg, F.SCREE_CTRL_FULL_REACT.reg, R.BELAY_SIGNALLED],
      b ∉ [a, R.SCREE_LAST, R.SCREE_COUNT] ++ logRegs P.SCREE ∨ b = R.SCREE_COUNT := by
    simp only [List.mem_cons, List.not_mem_nil, or_false] at ha
    rcases ha with rfl | rfl <;> decide
  have hcount : R.SCREE_COUNT ∉ a :: logRegs P.SCREE := by
    simp only [List.mem_cons, List.not_mem_nil, or_false] at ha
    rcases ha with rfl | rfl <;> decide
  have hpages : ∀ b ∈ [a, R.SCREE_LAST, R.SCREE_COUNT] ++ logRegs P.SCREE, pageBase b ∈ [P.SCREE, P.BELAY, P.TETHER] := by
    simp only [List.mem_cons, List.not_mem_nil, or_false] at ha
    rcases ha with rfl | rfl <;> decide
  obtain ⟨hacted, hkeeps, hrest⟩ := h.applied hcount hoff
  obtain ⟨u, hu⟩ : ∃ u, u = x.shotApplied off := ⟨_, rfl⟩
  rw [← hu] at hacted hkeeps hrest ⊢
  have hubelay : u.belay = s.belay := by rw [hrest, hbelay]
  have hkept (b : Nat) (hb : b ∈ [R.BELAY_MON, F.BELAY_LOG_CTRL_EN.reg, F.SCREE_CTRL_FULL_REACT.reg, R.BELAY_SIGNALLED]) :
      b ∉ [a, R.SCREE_LAST, R.SCREE_COUNT] ++ logRegs P.SCREE :=
    (haway b (List.mem_cons_of_mem _ hb)).resolve_right (by revert b; decide)
  have hutest : u.belay.test = none := hubelay ▸ htest
  have hulog : u.flag F.BELAY_LOG_CTRL_EN = false := (hkeeps.flag (hkept _ (by decide))).trans hlog
  have hufull : u.flag F.SCREE_CTRL_FULL_REACT = false := (hkeeps.flag (hkept _ (by decide))).trans hfull
  have hmasked : ((u.taken f).injected && ! u.flag F.SCREE_CTRL_FULL_REACT) = true := by simp [State.taken, hinjected, hufull]
  have hreact : u.reactionOf (u.taken f) = 0 := by
    rw [State.reactionOf, if_pos hmasked, ite_self]
  have hregs := State.signal_unreacted_keepsRegs hutest hulog hreact
  have hsignal := State.signal_unreacted_rest hutest hulog hreact
  have hanswered := State.signal_unreacted_belay hutest hulog hreact
  rw [State.answered_belay] at hanswered
  refine ⟨hacted.of_keeps (KeepsRegs.refl s []) (by simp) hregs (by decide), ?_, ?_, ?_, ?_, ?_, ?_⟩
  · exact (State.signal_signalled hutest hulog hreact hsource hcls (hubelay ▸ hclasses)).of_injected hinjected hubelay
      (hkeeps.flag (hkept _ (by decide))) (hkeeps.fld (hkept _ (by decide)))
  · rw [hanswered, ← hubelay]
    exact if_pos hmasked
  · rw [hanswered, ← hubelay]
  · rw [hregs _ (by decide), hkeeps _ (hkept _ (by decide))]
  · have hreached : ∀ b ∈ noticeRegs ++ lastRegs, pageBase b ∈ [P.SCREE, P.BELAY, P.TETHER] := by decide
    intro b hb
    rw [hregs b fun hmem => hb (hreached b hmem), hkeeps b fun hmem => hb (hpages b hmem)]
  · rw [hsignal, hrest, hmemory]

/-! ### The values written -/

/-- What SCREE_LOCKSTEP is written for pair A or B. -/
def lockstepValue (b : Bool) : DWord := BitVec.ofNat 64 (F.SCREE_LOCKSTEP_PAIR.at (b2n b) + F.SCREE_LOCKSTEP_GO.at 1)

/-- What SCREE_DUP is written for a unit. -/
def dupValue (unit : Fin 4) : DWord := BitVec.ofNat 64 (F.SCREE_DUP_UNIT.at unit.val + F.SCREE_DUP_GO.at 1)

/-- What SCREE_CRC is written for a page. -/
def crcValue (page : BitVec 7) : DWord := BitVec.ofNat 64 (F.SCREE_CRC_PAGE.at page.toNat + F.SCREE_CRC_GO.at 1)

/-- What SCREE_MON is written for a monitor, one copy of it or both. -/
def monValue (target : Fin 16) (one : Bool) : DWord :=
  BitVec.ofNat 64 (F.SCREE_MON_TARGET.at target.val + F.SCREE_MON_COPY_A_ONLY.at (b2n one) + F.SCREE_MON_GO.at 1)

/-- What SCREE_ENTROPY is written for a mode. -/
def entropyValue (mode : Fin 4) : DWord := BitVec.ofNat 64 (F.SCREE_ENTROPY_MODE.at mode.val + F.SCREE_ENTROPY_GO.at 1)

theorem of_lockstepValue (b : Bool) : F.SCREE_LOCKSTEP_PAIR.of (lockstepValue b) = b2n b ∧
    F.SCREE_LOCKSTEP_GO.of (lockstepValue b) = 1 := by
  cases b <;> decide

theorem of_dupValue (unit : Fin 4) : F.SCREE_DUP_UNIT.of (dupValue unit) = unit.val ∧
    F.SCREE_DUP_GO.of (dupValue unit) = 1 := by
  revert unit
  decide

theorem of_crcValue (page : BitVec 7) : F.SCREE_CRC_PAGE.of (crcValue page) = page.toNat ∧
    F.SCREE_CRC_GO.of (crcValue page) = 1 := by
  have hpage : page.toNat < 128 := page.isLt
  have hvalue : (crcValue page).toNat = page.toNat + 256 := by
    simp only [crcValue, BitVec.toNat_ofNat, Fld.at, F.SCREE_CRC_PAGE, F.SCREE_CRC_GO]
    omega
  simp only [Fld.of, Bits.get, hvalue, Nat.shiftRight_eq_div_pow]
  simp only [F.SCREE_CRC_PAGE, F.SCREE_CRC_GO]
  omega

theorem of_monValue (target : Fin 16) (one : Bool) :
    F.SCREE_MON_TARGET.of (monValue target one) = target.val ∧
      F.SCREE_MON_COPY_A_ONLY.of (monValue target one) = b2n one ∧
      F.SCREE_MON_GO.of (monValue target one) = 1 := by
  revert target one
  decide

theorem of_entropyValue (mode : Fin 4) : F.SCREE_ENTROPY_MODE.of (entropyValue mode) = mode.val ∧
    F.SCREE_ENTROPY_GO.of (entropyValue mode) = 1 := by
  revert mode
  decide

/-- The fields of those registers that any write stores. -/
theorem shotField_plain : ∀ x ∈ [F.SCREE_LOCKSTEP_PAIR, F.SCREE_DUP_UNIT, F.SCREE_MON_COPY_A_ONLY, F.SCREE_ENTROPY_MODE], x.plain = true := by
  decide +kernel

theorem shotField_clamped : F.SCREE_CRC_PAGE.hasLegal .rw (.clamp 0 69) = true ∧ F.SCREE_MON_TARGET.hasLegal .rw (.clamp 0 14) = true := by
  decide +kernel

section
variable {s : State} {q : Req} {go x : Fld} {v : DWord} (hgo : shotReg go = true) (hreg : x.reg = go.reg) (hacts : s.screeActs = true)
include hgo hreg hacts

theorem State.fld_stored_plain (hx : x ∈ [F.SCREE_LOCKSTEP_PAIR, F.SCREE_DUP_UNIT, F.SCREE_MON_COPY_A_ONLY, F.SCREE_ENTROPY_MODE]) :
    (s.stored q go.reg v).fld x = x.of v := by
  have hfree : (s.respond false 0#64).Unfrozen x.reg := hreg ▸ State.unfrozen_of_acts (s := s) hgo hacts
  rw [← hreg]
  exact State.fld_storeReg_plain _ _ hfree (shotField_plain x hx)

theorem State.fld_stored_clamped {hi : Nat} (hx : x.hasLegal .rw (.clamp 0 hi) = true) (hv : x.of v ≤ hi) :
    (s.stored q go.reg v).fld x = x.of v := by
  have hfree : (s.respond false 0#64).Unfrozen x.reg := hreg ▸ State.unfrozen_of_acts (s := s) hgo hacts
  rw [← hreg]
  exact State.fld_storeReg_legal _ hfree (by simpa [Legal.takes] using hv) hx

end

end Sys2Proof.Machine
end

section
/-! The commands of Scree's one-shots, one by one (R578 to R581). -/
namespace Sys2Proof.Machine

theorem State.belay_shotApplied (s : State) (off : Nat) : (s.shotApplied off).belay = s.belay := by rw [State.shotApplied_rest]

/-- A one-shot that arms or changes something of Belay alone. -/
theorem State.Armed.applied_belay {s x : State} {q : Req} {a off : Nat} {v : DWord} (h : s.Armed q a v x) (hmemory : x.memory = s.memory)
    (ha : R.SCREE_COUNT ∉ a :: logRegs P.SCREE) (hoff : off < 2 ^ 12) : ∃ t, x.shotApplied off = t ∧ s.ShotActed t off ∧ t.belay = x.belay ∧
      KeepsRegs s t ([a, R.SCREE_LAST, R.SCREE_COUNT] ++ logRegs P.SCREE) ∧ t = { s with regs := t.regs, belay := x.belay, resp := ⟨false, 0#64⟩ } := by
  obtain ⟨hacted, hkeeps, hrest⟩ := h.applied ha hoff
  exact ⟨_, rfl, hacted, x.belay_shotApplied off, hkeeps, hrest.trans (by rw [hmemory])⟩

section
variable (s : State) (q : Req) (a : Nat) (v : DWord)

theorem State.belay_stored : (s.stored q a v).belay = s.belay := by rw [State.stored_rest]

theorem State.memory_stored : (s.stored q a v).memory = s.memory := by rw [State.stored_rest]

end

/-- R581: bit 0 of the reference of page `p` flips. -/
def BelayState.referenceFlipped (x : BelayState) (p c : Nat) : BelayState :=
  { x with crc := AMap.put x.crc p (c ^^^ 1), crcFlips := if x.crcFlips.contains p then x.crcFlips.erase p else x.crcFlips ++ [p] }

theorem State.page_stored {s : State} {q : Req} {page : BitVec 7} (hacts : s.screeActs = true) (hpage : page.toNat < 70) : (s.stored q R.SCREE_CRC (crcValue page)).fld F.SCREE_CRC_PAGE = page.toNat := by
  refine (State.fld_stored_clamped (x := F.SCREE_CRC_PAGE) (shotReg_of_mem F.SCREE_CRC_GO (by simp)) rfl hacts shotField_clamped.1 ?_).trans (of_crcValue page).1
  rw [(of_crcValue page).1]
  omega

section
variable {s : State} {q : Req} (hopen : OpenTo s q P.SCREE) (hacts : s.screeActs = true)
include hopen hacts

theorem State.exec_lockstepGo (b : Bool) : exec (.lockstepGo q b) s =
    .next (((s.stored q R.SCREE_LOCKSTEP (lockstepValue b)).modBelay fun x => { x with lockstepShots := x.lockstepShots ||| 2 ^ b2n b }).shotApplied 0xC0) := by
  have hpair : (s.stored q R.SCREE_LOCKSTEP (lockstepValue b)).fld F.SCREE_LOCKSTEP_PAIR = b2n b :=
    (State.fld_stored_plain (x := F.SCREE_LOCKSTEP_PAIR) (shotReg_of_mem F.SCREE_LOCKSTEP_GO (by simp)) rfl hacts (by simp)).trans (of_lockstepValue b).1
  rw [← hpair]
  exact congrArg Host.Outcome.next (State.exec_shot (by simp) hopen hacts (of_lockstepValue b).2 _)

theorem State.exec_dupGo (unit : Fin 4) : exec (.dupGo q unit) s =
    .next (((s.stored q R.SCREE_DUP (dupValue unit)).shotApplied 0xC4).signal { FaultInput.of 12 unit.val 0 0 with injected := true }) := by
  have hunit : (s.stored q R.SCREE_DUP (dupValue unit)).fld F.SCREE_DUP_UNIT = unit.val :=
    (State.fld_stored_plain (x := F.SCREE_DUP_UNIT) (shotReg_of_mem F.SCREE_DUP_GO (by simp)) rfl hacts (by simp)).trans (of_dupValue unit).1
  rw [← hunit]
  exact congrArg Host.Outcome.next (State.exec_shot (by simp) hopen hacts (of_dupValue unit).2 _)

theorem State.exec_crcGo_locked {page : BitVec 7} {c : Nat} (hpage : page.toNat < 70) (hlocked : AMap.get? s.belay.crc page.toNat = some c) :
    exec (.crcGo q page) s =
      .next (((s.stored q R.SCREE_CRC (crcValue page)).modBelay fun x => x.referenceFlipped page.toNat c).shotApplied 0xC8) := by
  have hat := State.page_stored (q := q) hacts hpage
  refine congrArg Host.Outcome.next ((State.exec_shot (by simp) hopen hacts (of_crcValue page).2 _).trans ?_)
  dsimp only
  rw [show F.SCREE_CRC_GO.reg = R.SCREE_CRC from rfl, State.belay_stored, hat, hlocked]
  rfl

theorem State.exec_crcGo_open {page : BitVec 7} (hpage : page.toNat < 70) (hopened : AMap.get? s.belay.crc page.toNat = none) :
    exec (.crcGo q page) s = .next (s.stored q R.SCREE_CRC (crcValue page)).shotMissed := by
  have hat := State.page_stored (q := q) hacts hpage
  refine congrArg Host.Outcome.next ((State.exec_shot (by simp) hopen hacts (of_crcValue page).2 _).trans ?_)
  dsimp only
  rw [show F.SCREE_CRC_GO.reg = R.SCREE_CRC from rfl, State.belay_stored, hat, hopened]

theorem State.exec_monGo {target : Fin 16} (one : Bool) (htarget : target.val < 15) (hon : s.monitorOn target.val = true)
    (hoff : s.railOff target.val = false) : exec (.monGo q target one) s =
    .next (((s.stored q R.SCREE_MON (monValue target one)).shotApplied 0xCC).signal { monitorFault target.val (! one) with injected := true }) := by
  obtain ⟨htargetOf, honeOf, hgo⟩ := of_monValue target one
  have hshot := shotReg_of_mem F.SCREE_MON_GO (by simp)
  have hat : (s.stored q R.SCREE_MON (monValue target one)).fld F.SCREE_MON_TARGET = target.val := by
    refine (State.fld_stored_clamped (x := F.SCREE_MON_TARGET) hshot rfl hacts shotField_clamped.2 ?_).trans htargetOf
    rw [htargetOf]
    omega
  have hone : (s.stored q R.SCREE_MON (monValue target one)).flag F.SCREE_MON_COPY_A_ONLY = one := by
    have hfld : (s.stored q R.SCREE_MON (monValue target one)).fld F.SCREE_MON_COPY_A_ONLY = b2n one :=
      (State.fld_stored_plain (x := F.SCREE_MON_COPY_A_ONLY) hshot rfl hacts (by simp)).trans honeOf
    rw [State.flag, hfld]
    cases one <;> rfl
  refine congrArg Host.Outcome.next ((State.exec_shot (by simp) hopen hacts hgo _).trans ?_)
  obtain ⟨u, hu⟩ : ∃ u, u = s.stored q R.SCREE_MON (monValue target one) := ⟨_, rfl⟩
  have hkept : KeepsRegs s (u.shotApplied 0xCC) ((R.SCREE_MON :: logRegs P.SCREE) ++ [R.SCREE_LAST, R.SCREE_COUNT, R.EVT_RAW P.SCREE]) := by
    rw [hu]
    exact ((s.stored_keepsRegs q R.SCREE_MON (monValue target one)).mono fun _ h => List.mem_append_left _ h).trans
      ((State.shotApplied_keepsRegs _ _).mono fun _ h => List.mem_append_right _ h)
  have honAfter : (u.shotApplied 0xCC).monitorOn target.val = true := by
    rw [← hon]
    unfold State.monitorOn
    rw [hkept.flag (f := F.BELAY_MON_VMON_EN) (by decide), hkept.flag (f := F.CLK_MON_CFG_XIN) (by decide), hkept.flag (f := F.CLK_MON_CFG_PLL) (by decide)]
  have hoffAfter : (u.shotApplied 0xCC).railOff target.val = false := by
    rw [← hoff, State.railOff, State.railOff, hkept.fld (by decide)]
  dsimp only
  rw [← hu] at hat hone
  rw [show F.SCREE_MON_GO.reg = R.SCREE_MON from rfl, ← hu, hat, hone, if_pos (by rw [honAfter, hoffAfter]; rfl)]

theorem State.exec_entropyGo {mode : Fin 4} (ms : Nat) (hmode : mode.val = 1 ∨ mode.val = 2) : exec (.entropyGo q mode ms) s =
    .next (((s.stored q R.SCREE_ENTROPY (entropyValue mode)).shotApplied 0xA8).opHealthFail mode.val ms true) := by
  have hat : (s.stored q R.SCREE_ENTROPY (entropyValue mode)).fld F.SCREE_ENTROPY_MODE = mode.val :=
    (State.fld_stored_plain (x := F.SCREE_ENTROPY_MODE) (shotReg_of_mem F.SCREE_ENTROPY_GO (by simp)) rfl hacts (by simp)).trans (of_entropyValue mode).1
  refine congrArg Host.Outcome.next ((State.exec_shot (by simp) hopen hacts (of_entropyValue mode).2 _).trans ?_)
  dsimp only
  rw [show F.SCREE_ENTROPY_GO.reg = R.SCREE_ENTROPY from rfl, hat, if_pos hmode]

end

end Sys2Proof.Machine
end

section
/-! Scree's other one-shots (R578 to R581). -/
namespace Sys2Proof.Machine

/-- A failure of a health test that Scree injects, the first one noted. -/
theorem State.entropy_effect {s : State} {q : Req} {mode : Fin 4} {ms : Nat} (hstate : s.fld F.TRNG_STAT_STATE = 2) (hfailures : s.sec.failures = [])
    (hwaiting : s.sec.waiting = []) {v : DWord} :
    ∃ t, ((s.stored q R.SCREE_ENTROPY v).shotApplied 0xA8).opHealthFail mode.val ms true = t ∧ s.ShotActed t 0xA8 ∧ t.fld F.TRNG_STAT_STATE = 3 ∧
      t.fld F.TRNG_FAIL_LAST_TEST = mode.val ∧ t.fld F.TRNG_FAIL_COUNT = min (2 ^ F.TRNG_FAIL_COUNT.width - 1) (s.fld F.TRNG_FAIL_COUNT + 1) ∧
      t.event P.TRNG E.TRNG_HEALTH_FAIL = true ∧ t.sec = { s.sec with queue := [], quarters := 0, failures := [0] } ∧
      KeepsPages s t [P.SCREE, P.TRNG] ∧ t = { s with regs := t.regs, sec := t.sec, resp := ⟨false, 0#64⟩ } := by
  obtain ⟨hacted, hkeeps, hrest⟩ := (s.armed_stored q R.SCREE_ENTROPY v rfl).applied (off := 0xA8) (by decide) (by decide)
  have hpages : ∀ b ∈ [R.SCREE_ENTROPY, R.SCREE_LAST, R.SCREE_COUNT] ++ logRegs P.SCREE, pageBase b ∈ [P.SCREE, P.TRNG] := by decide
  have hcount : F.TRNG_FAIL_COUNT.reg ∉ [R.SCREE_ENTROPY, R.SCREE_LAST, R.SCREE_COUNT] ++ logRegs P.SCREE := by decide
  have hstat : F.TRNG_STAT_STATE.reg ∉ [R.SCREE_ENTROPY, R.SCREE_LAST, R.SCREE_COUNT] ++ logRegs P.SCREE := by decide
  rw [State.memory_stored, State.belay_stored] at hrest
  obtain ⟨x, hx⟩ : ∃ x, x = (s.stored q R.SCREE_ENTROPY v).shotApplied 0xA8 := ⟨_, rfl⟩
  rw [← hx] at hacted hkeeps hrest ⊢
  have hsec : x.sec = s.sec := by rw [hrest]
  have hstateAfter : x.fld F.TRNG_STAT_STATE = 2 := (hkeeps.fld hstat).trans hstate
  have hon : ¬ (x.fld F.TRNG_STAT_STATE = 0 ∨ x.fld F.TRNG_STAT_STATE = 4) := by simp [hstateAfter]
  have htimes : x.failTimes ms = [0] := by rw [State.failTimes, hsec, hfailures]; rfl
  have hfew : x.failsFatally ms = false := by rw [State.failsFatally, htimes]; rfl
  obtain ⟨hrecovers, -, htest, hcounted, hevent, hregs, hleft, -⟩ := x.recover_effect ms mode.isLt
  refine ⟨_, State.opHealthFail_recover hon (hsec ▸ hwaiting) hfew, hacted.of_keeps (KeepsRegs.refl s []) (by simp) hregs (by decide), hrecovers, htest,
    by rw [hcounted, hkeeps.fld hcount], hevent, ?_, ?_, ?_⟩
  · rw [hleft, htimes, hsec]
  · have hreached : ∀ b ∈ [R.TRNG_STAT, R.TRNG_FAIL, R.EVT_RAW P.TRNG], pageBase b ∈ [P.SCREE, P.TRNG] := by decide
    intro b hb
    rw [hregs b fun hmem => hb (hreached b hmem), hkeeps b fun hmem => hb (hpages b hmem)]
  · rw [hleft, hrest]

/-- Settles O55: a GO acts on the state in which its write is stored, and what it injects meets no reaction. -/
theorem screeOneShotsActAndEnd : Obligations.ScreeOneShotsActAndEnd := by
  refine ⟨?_, ?_, ?_, ?_, ?_, ?_, ?_, ?_, ?_, ?_, ?_, ?_⟩
  · intro s q b hopen hacts
    have hmemory : ((s.stored q R.SCREE_LOCKSTEP (lockstepValue b)).modBelay fun x => { x with lockstepShots := x.lockstepShots ||| 2 ^ b2n b }).memory = s.memory :=
      s.memory_stored _ _ _
    obtain ⟨t, ht, hacted, hbelay, hkeeps, hrest⟩ := (s.armed_modBelay q R.SCREE_LOCKSTEP (lockstepValue b) rfl fun x => { x with
      lockstepShots := x.lockstepShots ||| 2 ^ b2n b }).applied_belay hmemory (off := 0xC0) (by decide) (by decide)
    have hexec := State.exec_lockstepGo hopen hacts b
    rw [ht] at hexec
    refine ⟨t, hexec, hacted, ?_, hkeeps, hbelay ▸ hrest⟩
    rw [hbelay, State.modBelay, State.belay_stored]
    cases b <;> rfl
  · exact fun s q b hopen hidle => (State.idleShot_effect (go := F.SCREE_LOCKSTEP_GO) (by simp) hopen hidle _).imp fun t ⟨h, hkept⟩ =>
      ⟨congrArg Host.Outcome.next h, hkept⟩
  · intro s q unit hopen hacts htest hlog hfull hclasses
    obtain ⟨hacted, hsignalled, hreal, hdue, -, hpages, hrest⟩ := State.injected_effect (s.armed_stored q R.SCREE_DUP (dupValue unit) rfl) (s.belay_stored _ _ _)
      (s.memory_stored _ _ _) (by simp) (off := 0xC4) (by decide) htest hlog hfull hclasses
      (f := { FaultInput.of 12 unit.val 0 0 with injected := true }) rfl (show 12 < 32 by decide) (show 3 ≤ 4 by decide)
    exact ⟨_, State.exec_dupGo hopen hacts unit, hacted, hsignalled, hreal, hdue, hpages, hrest⟩
  · intro s q page c hopen hacts hpage hlocked
    obtain ⟨t, ht, hacted, hbelay, hkeeps, hrest⟩ := (s.armed_modBelay q R.SCREE_CRC (crcValue page) rfl fun x =>
      x.referenceFlipped page.toNat c).applied_belay (s.memory_stored _ _ _) (off := 0xC8) (by decide) (by decide)
    have hexec := State.exec_crcGo_locked hopen hacts hpage hlocked
    have hflipped : t.belay = s.belay.referenceFlipped page.toNat c := by rw [hbelay, State.modBelay, State.belay_stored]
    rw [ht] at hexec
    rw [← hbelay] at hrest
    refine ⟨t, hexec, hacted, ?_, fun x hx => ?_, fun hnew => ?_, fun hold => ?_, hkeeps, ?_⟩
    · rw [hflipped]
      exact AMap.get?_put _ _ _
    · rw [hflipped]
      exact AMap.get?_put_ne _ _ hx
    · rw [hflipped]
      exact if_neg (by rw [hnew]; decide)
    · rw [hflipped]
      exact if_pos hold
    · rw [hflipped] at hrest ⊢
      exact hrest
  · intro s q page hopen hacts hpage hopened
    refine ⟨_, State.exec_crcGo_open hopen hacts hpage hopened, State.missed_shotMissed _, State.event_raise _ _ _ (by decide), ?_, ?_⟩
    · exact ((s.stored_keepsRegs q R.SCREE_CRC (crcValue page)).mono (by decide)).trans ((State.shotMissed_keepsRegs _).mono (by decide))
    · rw [State.shotMissed_rest, State.stored_rest]
  · intro s q target one hopen hacts htest htarget hlog hfull hclasses hon hoff
    have hsmall : ∀ (n : Fin 16) (x : Bool), (monitorFault n.val x).source < 32 ∧ (monitorFault n.val x).cls ≤ 4 := by decide
    obtain ⟨hsource, hcls⟩ := hsmall target (! one)
    obtain ⟨hacted, hsignalled, -, hdue, hmon, hpages, hrest⟩ := State.injected_effect (s.armed_stored q R.SCREE_MON (monValue target one) rfl)
      (s.belay_stored _ _ _) (s.memory_stored _ _ _) (by simp) (off := 0xCC) (by decide) htest hlog hfull hclasses
      (f := { monitorFault target.val (! one) with injected := true }) rfl hsource hcls
    exact ⟨_, State.exec_monGo hopen hacts one htarget hon hoff, hacted, hsignalled, hmon, hdue, hpages, hrest⟩
  · intro s q mode ms hopen hacts hmode hstate hfailures hwaiting
    obtain ⟨t, ht, heffect⟩ := State.entropy_effect (q := q) (mode := mode) (ms := ms) (v := entropyValue mode) hstate hfailures hwaiting
    exact ⟨t, (State.exec_entropyGo hopen hacts ms hmode).trans (congrArg _ ht), heffect⟩
  · exact fun s q unit hopen hidle => (State.idleShot_effect (go := F.SCREE_DUP_GO) (by simp) hopen hidle _).imp fun t ⟨h, hkept⟩ =>
      ⟨congrArg Host.Outcome.next h, hkept⟩
  · exact fun s q page hopen hidle => (State.idleShot_effect (go := F.SCREE_CRC_GO) (by simp) hopen hidle _).imp fun t ⟨h, hkept⟩ =>
      ⟨congrArg Host.Outcome.next h, hkept⟩
  · exact fun s q target one hopen hidle => (State.idleShot_effect (go := F.SCREE_MON_GO) (by simp) hopen hidle _).imp fun t ⟨h, hkept⟩ =>
      ⟨congrArg Host.Outcome.next h, hkept⟩
  · exact fun s q mode ms hopen hidle => (State.idleShot_effect (go := F.SCREE_ENTROPY_GO) (by simp) hopen hidle _).imp fun t ⟨h, hkept⟩ =>
      ⟨congrArg Host.Outcome.next h, hkept⟩
  · intro s hidle
    exact ⟨_, rfl, if_neg (by rw [hidle]; decide)⟩

end Sys2Proof.Machine
end

section
/-! Scree's ECC_GO (R581, Table Belay-8). -/
namespace Sys2Proof.Machine

-- Checked one after another: side by side these evaluations take more memory than the check has.
set_option Elab.async false

/-! ### The one-shot -/

/-- R581: the state in which DONE and MISSED are cleared. -/
def State.eccCleared (s : State) : State := (s.setFld F.SCREE_ECC_GO_DONE 0).setFld F.SCREE_ECC_GO_MISSED 0

/-- The second bit of the mask, if it is named. -/
def State.eccSecond (s : State) : Option Nat := if s.flag F.SCREE_ECC_MASK_DOUBLE = true then some (s.fld F.SCREE_ECC_MASK_BIT_B) else none

/-- Table Belay-8: the codeword that SCREE_ECC_TARGET and SCREE_ECC_ADDR name, with the bits that are disturbed. -/
def State.eccFlip (s : State) : EccFlip :=
  ⟨s.fld F.SCREE_ECC_TARGET_ARRAY, if s.fld F.SCREE_ECC_TARGET_ARRAY ≤ 2 then s.fld F.SCREE_ECC_TARGET_UNIT else 0,
    codewordOf (s.fld F.SCREE_ECC_TARGET_ARRAY) (s.fld F.SCREE_ECC_ADDR_ADDR), s.fld F.SCREE_ECC_MASK_BIT_A, s.eccSecond, true⟩

/-- The flit that ECC_GO arms. -/
def State.eccFlit (s : State) : Nat × Nat × Bool := (s.fld F.SCREE_ECC_TARGET_UNIT, s.fld F.SCREE_ECC_ADDR_ADDR % 4, s.flag F.SCREE_ECC_MASK_DOUBLE)

/-- The move that ECC_GO arms. -/
def State.eccMove (s : State) : Nat × Nat × Option Nat := (s.fld F.SCREE_ECC_ADDR_ADDR % 4096, s.fld F.SCREE_ECC_MASK_BIT_A, s.eccSecond)

/-- R581: what SCREE_ECC_TARGET and SCREE_ECC_ADDR name exists. -/
def State.eccFound (s : State) : Bool := s.eccTarget (s.fld F.SCREE_ECC_TARGET_ARRAY) (s.fld F.SCREE_ECC_TARGET_UNIT) (s.fld F.SCREE_ECC_ADDR_ADDR)

section
variable {s : State}

theorem State.eccGo_missed (h : s.eccFound = false) : s.eccGo = s.eccCleared.shotMissed := by
  have hmiss : (! s.eccFound) = true := by rw [h]; rfl
  exact if_pos hmiss

theorem State.eccGo_found (h : s.eccFound = true) : s.eccGo =
    ((if s.fld F.SCREE_ECC_TARGET_ARRAY = 10 then s.eccCleared.modBelay fun b => { b with flitShots := b.flitShots ++ [(s.fld F.SCREE_ECC_TARGET_UNIT,
        s.fld F.SCREE_ECC_ADDR_ADDR % 4, s.eccSecond.isSome)] }
      else if s.fld F.SCREE_ECC_TARGET_ARRAY = 11 then s.eccCleared.modBelay fun b => { b with moveShots := b.moveShots ++ [s.eccMove] }
      else { s.eccCleared with memory := { s.eccCleared.memory with flips := s.eccCleared.memory.flips ++ [s.eccFlip] } }).setFld
        F.SCREE_ECC_GO_DONE 1).shotApplied 0xBC := by
  have hhit : ¬ (! s.eccFound) = true := by rw [h]; decide
  exact if_neg hhit

theorem State.eccGo_codeword (h : s.eccFound = true) (hflit : s.fld F.SCREE_ECC_TARGET_ARRAY ≠ 10) (hmove : s.fld F.SCREE_ECC_TARGET_ARRAY ≠ 11) :
    s.eccGo = (({ s.eccCleared with memory := { s.memory with flips := s.memory.flips ++ [s.eccFlip] } } : State).setFld F.SCREE_ECC_GO_DONE 1).shotApplied 0xBC := by
  rw [State.eccGo_found h, if_neg hflit, if_neg hmove]
  rfl

theorem State.eccFound_armed (h : s.fld F.SCREE_ECC_TARGET_ARRAY = 10 ∨ s.fld F.SCREE_ECC_TARGET_ARRAY = 11) : s.eccFound = true := by
  rcases h with h | h <;> rw [State.eccFound, h] <;> rfl

theorem State.isSome_eccSecond : s.eccSecond.isSome = s.flag F.SCREE_ECC_MASK_DOUBLE := by
  unfold State.eccSecond
  split
  case isTrue h => exact h.symm
  case isFalse h => exact (Bool.eq_false_iff.2 h).symm

theorem State.eccGo_flit (h : s.fld F.SCREE_ECC_TARGET_ARRAY = 10) :
    s.eccGo = ((s.eccCleared.modBelay fun b => { b with flitShots := b.flitShots ++ [s.eccFlit] }).setFld F.SCREE_ECC_GO_DONE 1).shotApplied 0xBC := by
  rw [State.eccGo_found (State.eccFound_armed (.inl h)), if_pos h, State.isSome_eccSecond]
  rfl

theorem State.eccGo_move (h : s.fld F.SCREE_ECC_TARGET_ARRAY = 11) :
    s.eccGo = ((s.eccCleared.modBelay fun b => { b with moveShots := b.moveShots ++ [s.eccMove] }).setFld F.SCREE_ECC_GO_DONE 1).shotApplied 0xBC := by
  rw [State.eccGo_found (State.eccFound_armed (.inr h)), if_neg (by rw [h]; decide), if_pos h]

theorem State.missed_eccCleared : s.eccCleared.flag F.SCREE_ECC_GO_MISSED = false := State.flag_setFlag _ _ false (by decide) (by decide)

theorem State.done_eccCleared : s.eccCleared.flag F.SCREE_ECC_GO_DONE = false :=
  (State.flag_setFld_ne _ _ _ _ (by decide)).trans (State.flag_setFlag _ _ false (by decide) (by decide))

end

/-! ### The command -/

/-- The state in which the write of SCREE_ECC_GO is stored. -/
def State.eccStored (s : State) (q : Req) : State := s.stored q R.SCREE_ECC_GO 1#64

section
variable (s : State) (q : Req)

theorem State.eccStored_keepsRegs : KeepsRegs s (s.eccStored q) (R.SCREE_ECC_GO :: logRegs P.SCREE) := s.stored_keepsRegs q R.SCREE_ECC_GO 1#64

theorem State.eccStored_rest : s.eccStored q = { s with regs := (s.eccStored q).regs, resp := ⟨false, 0#64⟩ } := s.stored_rest q R.SCREE_ECC_GO 1#64

theorem State.array_eccStored : (s.eccStored q).fld F.SCREE_ECC_TARGET_ARRAY = s.fld F.SCREE_ECC_TARGET_ARRAY := (s.eccStored_keepsRegs q).fld (by decide)

theorem State.unit_eccStored : (s.eccStored q).fld F.SCREE_ECC_TARGET_UNIT = s.fld F.SCREE_ECC_TARGET_UNIT := (s.eccStored_keepsRegs q).fld (by decide)

theorem State.addr_eccStored : (s.eccStored q).fld F.SCREE_ECC_ADDR_ADDR = s.fld F.SCREE_ECC_ADDR_ADDR := (s.eccStored_keepsRegs q).fld (by decide)

theorem State.double_eccStored : (s.eccStored q).flag F.SCREE_ECC_MASK_DOUBLE = s.flag F.SCREE_ECC_MASK_DOUBLE := (s.eccStored_keepsRegs q).flag (by decide)

theorem State.bitA_eccStored : (s.eccStored q).fld F.SCREE_ECC_MASK_BIT_A = s.fld F.SCREE_ECC_MASK_BIT_A := (s.eccStored_keepsRegs q).fld (by decide)

theorem State.second_eccStored : (s.eccStored q).eccSecond = s.eccSecond := by
  rw [State.eccSecond, State.eccSecond, State.double_eccStored, (s.eccStored_keepsRegs q).fld (f := F.SCREE_ECC_MASK_BIT_B) (by decide)]

theorem State.flip_eccStored : (s.eccStored q).eccFlip = s.eccFlip := by
  rw [State.eccFlip, State.eccFlip, State.array_eccStored, State.unit_eccStored, State.addr_eccStored, State.bitA_eccStored, State.second_eccStored]

theorem State.flit_eccStored : (s.eccStored q).eccFlit = s.eccFlit := by
  rw [State.eccFlit, State.eccFlit, State.unit_eccStored, State.addr_eccStored, State.double_eccStored]

theorem State.move_eccStored : (s.eccStored q).eccMove = s.eccMove := by
  rw [State.eccMove, State.eccMove, State.addr_eccStored, State.bitA_eccStored, State.second_eccStored]

theorem State.found_eccStored : (s.eccStored q).eccFound = s.eccFound := by
  rw [State.eccFound, State.eccFound, State.array_eccStored, State.unit_eccStored, State.addr_eccStored, State.eccStored_rest]
  rfl

/-- Whatever ECC_GO arms or disturbs, its state is such a one. -/
theorem State.armed_ecc {y : State} (hregs : y.regs = (s.eccStored q).eccCleared.regs)
    (hrest : y = { (s.eccStored q).eccCleared with memory := y.memory, belay := y.belay }) :
    s.Armed q R.SCREE_ECC_GO 1#64 (y.setFld F.SCREE_ECC_GO_DONE 1) := by
  refine ⟨((((s.eccStored_keepsRegs q).setFld (by decide)).setFld (by decide)).of_regs hregs).setFld (by decide), ?_⟩
  have hstored := s.eccStored_rest q
  obtain ⟨u, hu⟩ : ∃ u, u = s.eccStored q := ⟨_, rfl⟩
  rw [← hu] at hrest hstored
  rw [hrest, hstored]
  rfl

variable {s q}

theorem exec_eccGo (hopen : OpenTo s q P.SCREE) (hacts : s.screeActs = true) (hidle : s.flag F.SCREE_ECC_GO_BUSY = false) :
    exec (.eccGo q) s = .next (s.eccStored q).eccGo := by
  have hbusy : (s.eccStored q).flag F.SCREE_ECC_GO_BUSY = false := by
    rw [← hidle]
    have hshown : (s.eccStored q).fld F.SCREE_ECC_GO_BUSY = s.fld F.SCREE_ECC_GO_BUSY :=
      State.fld_storeReg_shown (s := s.respond false 0#64) (x := F.SCREE_ECC_GO_BUSY) q.ni.val 1#64 (by decide +kernel)
    rw [State.flag, State.flag, hshown]
  refine congrArg Host.Outcome.next ((State.exec_shot (go := F.SCREE_ECC_GO_GO) (by simp) hopen hacts (by decide) _).trans ?_)
  exact if_neg (by rw [show s.stored q F.SCREE_ECC_GO_GO.reg 1#64 = s.eccStored q from rfl, hbusy]; decide)

/-- What an ECC_GO that acts leaves, `y` being the state that it arms or disturbs. -/
theorem State.ecc_effect {y : State} (hregs : y.regs = (s.eccStored q).eccCleared.regs)
    (hrest : y = { (s.eccStored q).eccCleared with memory := y.memory, belay := y.belay }) :
    ∃ t, (y.setFld F.SCREE_ECC_GO_DONE 1).shotApplied 0xBC = t ∧ s.ShotActed t 0xBC ∧ t.flag F.SCREE_ECC_GO_DONE = true ∧ t.flag F.SCREE_ECC_GO_MISSED = false ∧
      t.memory = y.memory ∧ t.belay = y.belay ∧ KeepsRegs s t ([R.SCREE_ECC_GO, R.SCREE_LAST, R.SCREE_COUNT] ++ logRegs P.SCREE) ∧
      t = { s with regs := t.regs, memory := t.memory, belay := t.belay, resp := ⟨false, 0#64⟩ } := by
  obtain ⟨hacted, hkeeps, hleft⟩ := (s.armed_ecc q hregs hrest).applied (off := 0xBC) (by decide) (by decide)
  have hshown := (y.setFld F.SCREE_ECC_GO_DONE 1).shotApplied_keepsRegs 0xBC
  have hmissed : y.flag F.SCREE_ECC_GO_MISSED = false := by
    rw [← State.missed_eccCleared (s := s.eccStored q), State.flag, State.flag, State.fld, State.fld, State.raw, State.raw, hregs]
  refine ⟨_, rfl, hacted, ?_, ?_, ?_, ?_, hkeeps, ?_⟩
  · rw [hshown.flag (by decide)]
    exact State.flag_setFlag _ _ true (by decide) (by decide)
  · rw [hshown.flag (by decide), State.flag_setFld_ne _ _ _ _ (by decide), hmissed]
  · rw [State.shotApplied_rest]
    rfl
  · rw [State.belay_shotApplied]
    rfl
  · rw [hleft]

end

/-- Settles O54: ECC_GO acts on the state in which its write is stored, whose registers name the same codeword, flit or move. -/
theorem screeDisturbsACodeword : Obligations.ScreeDisturbsACodeword := by
  refine ⟨?_, ?_, ?_, ?_, ?_⟩
  · intro s q hopen hacts hidle hflit hmove hfound
    have hgo := State.eccGo_codeword (s := s.eccStored q) ((s.found_eccStored q).trans hfound) (by rwa [State.array_eccStored]) (by rwa [State.array_eccStored])
    obtain ⟨t, ht, hacted, hdone, hmissed, hmemory, hbelay, hkeeps, hrest⟩ := State.ecc_effect (s := s) (q := q)
      (y := { (s.eccStored q).eccCleared with memory := { (s.eccStored q).memory with flips := (s.eccStored q).memory.flips ++ [(s.eccStored q).eccFlip] } }) rfl rfl
    have holdBelay : t.belay = s.belay := hbelay.trans (by rw [State.eccCleared, State.eccStored_rest]; rfl)
    refine ⟨t, (exec_eccGo hopen hacts hidle).trans (congrArg _ (hgo.trans ht)), hacted, hdone, hmissed, ?_, hkeeps, ?_⟩
    · rw [hmemory, State.flip_eccStored, State.eccStored_rest]
      rfl
    · rw [holdBelay] at hrest
      exact hrest
  · intro s q hopen hacts hidle harray
    have hgo := State.eccGo_flit (s := s.eccStored q) ((s.array_eccStored q).trans harray)
    obtain ⟨t, ht, hacted, hdone, -, hmemory, hbelay, hkeeps, hrest⟩ := State.ecc_effect (s := s) (q := q)
      (y := (s.eccStored q).eccCleared.modBelay fun b => { b with flitShots := b.flitShots ++ [(s.eccStored q).eccFlit] }) rfl rfl
    have holdMemory : t.memory = s.memory := hmemory.trans (by rw [State.modBelay, State.eccCleared, State.eccStored_rest]; rfl)
    refine ⟨t, (exec_eccGo hopen hacts hidle).trans (congrArg _ (hgo.trans ht)), hacted, hdone, ?_, hkeeps, ?_⟩
    · rw [hbelay, State.flit_eccStored, State.eccStored_rest]
      rfl
    · rw [holdMemory] at hrest
      exact hrest
  · intro s q hopen hacts hidle harray
    have hgo := State.eccGo_move (s := s.eccStored q) ((s.array_eccStored q).trans harray)
    obtain ⟨t, ht, hacted, hdone, -, hmemory, hbelay, hkeeps, hrest⟩ := State.ecc_effect (s := s) (q := q)
      (y := (s.eccStored q).eccCleared.modBelay fun b => { b with moveShots := b.moveShots ++ [(s.eccStored q).eccMove] }) rfl rfl
    have holdMemory : t.memory = s.memory := hmemory.trans (by rw [State.modBelay, State.eccCleared, State.eccStored_rest]; rfl)
    refine ⟨t, (exec_eccGo hopen hacts hidle).trans (congrArg _ (hgo.trans ht)), hacted, hdone, ?_, hkeeps, ?_⟩
    · rw [hbelay, State.move_eccStored, State.eccStored_rest]
      rfl
    · rw [holdMemory] at hrest
      exact hrest
  · intro s q hopen hacts hidle hlost
    have hgo := State.eccGo_missed (s := s.eccStored q) ((s.found_eccStored q).trans hlost)
    refine ⟨_, (exec_eccGo hopen hacts hidle).trans (congrArg _ hgo), State.missed_shotMissed _, ?_, State.event_raise _ _ _ (by decide), ?_, ?_⟩
    · exact (State.flag_raise_ne _ _ _ _ (by decide)).trans ((State.flag_setFld_ne _ _ _ _ (by decide)).trans State.done_eccCleared)
    · exact (((s.eccStored_keepsRegs q).setFld (by decide)).setFld (by decide)).trans ((State.shotMissed_keepsRegs _).mono (by decide))
    · rw [State.shotMissed_rest, State.eccCleared]
      exact (s.eccStored_rest q) ▸ rfl
  · exact fun s q hopen hidle => (State.idleShot_effect (go := F.SCREE_ECC_GO_GO) (by simp) hopen hidle _).imp fun t ⟨h, hkept⟩ =>
      ⟨congrArg Host.Outcome.next h, hkept⟩

end Sys2Proof.Machine
end


section
/-! Hub ports, bit by bit (R469 to R473), and the suspend bits of the pipes behind them. -/
namespace Sys2Proof.Machine

/-! ### The bits of a port -/

section
variable (s : State) (p b : Nat)

theorem State.flag_setPortBit {c : Nat} (hc : c < 64) (v : Bool) : (s.setFlag (portBitF p c) v).flag (portBitF p b) =
    if b = c then v else s.flag (portBitF p b) := by
  split
  case isTrue h => rw [h, State.flag_setFlag s (portBitF p c) v (Nat.succ_le_of_lt hc) Nat.one_pos]
  case isFalse h => exact State.flag_setFlag_ne _ _ _ _ (Or.inr (by simp only [portBitF]; omega))

theorem State.flag_setPortBit_zero {c : Nat} (hc : c < 64) : (s.setFld (portBitF p c) 0).flag (portBitF p b) =
    if b = c then false else s.flag (portBitF p b) := s.flag_setPortBit p b hc false

theorem State.flag_setPortBit_one {c : Nat} (hc : c < 64) : (s.setFld (portBitF p c) 1).flag (portBitF p b) =
    if b = c then true else s.flag (portBitF p b) := s.flag_setPortBit p b hc true

theorem usbhubPort_ne_event (p : Nat) : R.USBHUB_PORT p ≠ R.EVT_RAW P.USBHUB := by
  simp only [R.USBHUB_PORT, R.EVT_RAW, P.USBHUB]
  omega

theorem State.flag_portChange {c : Nat} (hc : c < 48) : (s.portChange p c).flag (portBitF p b) = if b = 16 + c then true else s.flag (portBitF p b) := by
  rw [State.portChange, State.flag_raise_ne _ _ _ _ (usbhubPort_ne_event p), State.flag_setPortBit_one _ _ _ (by omega)]

theorem State.event_portChange (c : Nat) : (s.portChange p c).event P.USBHUB E.USBHUB_PORT_CHANGE = true := State.event_raise _ _ _ (by decide)

theorem State.portChange_keepsRegs (c : Nat) : KeepsRegs s (s.portChange p c) [R.USBHUB_PORT p, R.EVT_RAW P.USBHUB] :=
  ((KeepsRegs.refl s _).setFld (f := portBitF p (16 + c)) (by simp [portBitF])).raise (by simp)

theorem State.portChange_rest (c : Nat) : s.portChange p c = { s with regs := (s.portChange p c).regs } := rfl

end

/-! ### The suspend bits of the pipes -/

/-- The registers that show the suspend bits. -/
def pipeStats : List Nat := (List.range 48).map R.USBH_PIPE_STAT

theorem pipeStat_mem {n : Nat} (hn : n < 48) : R.USBH_PIPE_STAT n ∈ pipeStats := List.mem_map_of_mem (List.mem_range.2 hn)

theorem pipeCfg_notMem_pipeStats (n : Nat) : R.USBH_PIPE_CFG n ∉ pipeStats := by
  intro h
  obtain ⟨i, -, hi⟩ := List.mem_map.1 h
  simp only [R.USBH_PIPE_STAT, R.USBH_PIPE_CFG] at hi
  omega

theorem usbhub_notMem_pipeStats {a : Nat} (ha : P.USBHUB ≤ a) : a ∉ pipeStats := by
  intro h
  obtain ⟨i, hi, rfl⟩ := List.mem_map.1 h
  have hi := List.mem_range.1 hi
  simp only [R.USBH_PIPE_STAT, P.USBHUB] at ha
  omega

theorem usbhubPort_notMem_pipeStats (p : Nat) : R.USBHUB_PORT p ∉ pipeStats :=
  usbhub_notMem_pipeStats (by simp only [R.USBHUB_PORT, P.USBHUB]; omega)

section
variable (s : State)

theorem State.syncSuspended_rest : s.syncSuspended = { s with regs := s.syncSuspended.regs } := forEach_rest (fun _ _ => rfl) s

theorem State.syncSuspended_keepsRegs : KeepsRegs s s.syncSuspended pipeStats :=
  (KeepsRegs.refl s _).forEach fun _ hn _ h => h.setFlag (pipeStat_mem hn)

/-- R473: a pipe is suspended as the port that it is behind. -/
def State.pipeSuspended (s : State) (n : Nat) : Bool :=
  decide (1 ≤ s.fld (F.USBH_PIPE_CFG_PORT n) ∧ s.fld (F.USBH_PIPE_CFG_PORT n) ≤ 4) && s.portIs (s.fld (F.USBH_PIPE_CFG_PORT n) - 1) 2

theorem KeepsRegs.pipeSuspended {s t : State} (h : KeepsRegs s t pipeStats) (n : Nat) : t.pipeSuspended n = s.pipeSuspended n := by
  rw [State.pipeSuspended, State.pipeSuspended, State.portIs, State.portIs, h.fld (f := F.USBH_PIPE_CFG_PORT n) (pipeCfg_notMem_pipeStats n),
    h.flag (f := portBitF _ 2) (usbhubPort_notMem_pipeStats _)]

/-- One step of the loop over the pipes. -/
def State.suspendSynced (n : Nat) (t : State) : State := t.setFlag (F.USBH_PIPE_STAT_SUSPENDED n) (t.pipeSuspended n)

theorem State.syncSuspended_eq : s.syncSuspended = forEach 48 State.suspendSynced s := rfl

theorem State.suspended_syncSuspended {n : Nat} (hn : n < 48) : s.syncSuspended.flag (F.USBH_PIPE_STAT_SUSPENDED n) = s.pipeSuspended n := by
  have hloop (m : Nat) (hm : m ≤ 48) : KeepsRegs s (forEach m State.suspendSynced s) pipeStats ∧
      (n < m → (forEach m State.suspendSynced s).flag (F.USBH_PIPE_STAT_SUSPENDED n) = s.pipeSuspended n) := by
    induction m with
    | zero => exact ⟨KeepsRegs.refl s _, fun h => absurd h (Nat.not_lt_zero n)⟩
    | succ m ih =>
      obtain ⟨hkeeps, hbefore⟩ := ih (by omega)
      rw [forEach_succ]
      refine ⟨hkeeps.setFlag (pipeStat_mem (by omega)), fun h => ?_⟩
      rcases Nat.lt_succ_iff_lt_or_eq.1 h with hlt | rfl
      · rw [State.suspendSynced, State.flag_setFlag_ne _ _ _ _ (Or.inl (by simp only [F.USBH_PIPE_STAT_SUSPENDED, R.USBH_PIPE_STAT]; omega)), hbefore hlt]
      · rw [State.suspendSynced, State.flag_setFlag _ _ _ (by simp [F.USBH_PIPE_STAT_SUSPENDED]) (by simp [F.USBH_PIPE_STAT_SUSPENDED]), hkeeps.pipeSuspended]
  exact (hloop 48 (Nat.le_refl 48)).2 hn

/-- So it is of a pipe behind port index `p`. -/
theorem State.pipeSuspended_behind {n : Nat} {p : Fin 4} (h : s.fld (F.USBH_PIPE_CFG_PORT n) = p.val + 1) : s.pipeSuspended n = s.portIs p.val 2 := by
  have hp := p.isLt
  rw [State.pipeSuspended, h, decide_eq_true (by omega), Bool.true_and, Nat.add_sub_cancel]

end

end Sys2Proof.Machine
end

section
/-! The translators' buffers (R472) and the items behind a port (R484). -/
namespace Sys2Proof.Machine

/-! ### Buffers -/

/-- The registers of the four translators. -/
def ttRegs : List Nat := (List.range 4).map R.USBHUB_TT

section
variable (s : State)

theorem State.countTt_rest : s.countTt = { s with regs := s.countTt.regs } := forEach_rest (fun _ _ => rfl) s

theorem State.countTt_keepsRegs : KeepsRegs s s.countTt ttRegs :=
  (KeepsRegs.refl s _).forEach fun _ hn _ h => h.setFld (List.mem_map_of_mem (f := R.USBHUB_TT) (List.mem_range.2 hn))

/-- One step of the loop over the translators. -/
def State.ttCounted (p : Nat) (t : State) : State := t.setFld (F.USBHUB_TT_NP_USED p) (t.usb.tt.filter (fun b => b.port == p)).length

theorem State.countTt_eq : s.countTt = forEach 4 State.ttCounted s := rfl

/-- A translator's own count, with the buffers that it counts. -/
def State.ttPart (p : Nat) (t : State) : UsbState × Nat := (t.usb, t.fld (F.USBHUB_TT_NP_USED p))

theorem State.ttPart_ttCounted_ne {i p : Nat} (h : i ≠ p) (t : State) : State.ttPart p (State.ttCounted i t) = State.ttPart p t :=
  congrArg (Prod.mk t.usb) (State.fld_setFld_ne _ _ _ _ (Or.inl (by simp only [F.USBHUB_TT_NP_USED, R.USBHUB_TT]; omega)))

theorem State.ttPart_ttCounted (p : Nat) (t : State) :
    State.ttPart p (State.ttCounted p t) = (t.usb, (t.usb.tt.filter (fun b => b.port == p)).length % 8) :=
  congrArg (Prod.mk t.usb) (State.fld_setFld t (F.USBHUB_TT_NP_USED p) _ (by simp [F.USBHUB_TT_NP_USED]))

theorem State.used_countTt (p : Fin 4) : s.countTt.fld (F.USBHUB_TT_NP_USED p.val) = (s.usb.tt.filter (fun b => b.port == p.val)).length % 8 := by
  obtain ⟨u, hu, hloop⟩ := forEach_part (part := State.ttPart p.val) (f := State.ttCounted) p.isLt (fun i t hi => State.ttPart_ttCounted_ne hi t) s
  have husb : u.usb = s.usb := congrArg Prod.fst hu
  rw [State.ttPart_ttCounted, husb] at hloop
  exact congrArg Prod.snd hloop

/-- The pipe of a freed buffer holds none. -/
def State.unsplit (b : TtBuffer) (t : State) : State := t.setPipe b.pipe { t.pipe b.pipe with split := false }

theorem State.pipe_setPipe (n m : Nat) (x : UsbPipe) : (s.setPipe n x).pipe m = if m = n then x else s.pipe m := SMap.get_put _ _ _ _ _

theorem State.unsplit_rest (b : TtBuffer) : s.unsplit b = { s with usb := { s.usb with pipes := (s.unsplit b).usb.pipes } } := rfl

end

theorem forAll_unsplit_rest (l : List TtBuffer) (s : State) :
    forAll l (fun b t => t.unsplit b) s = { s with usb := { s.usb with pipes := (forAll l (fun b t => t.unsplit b) s).usb.pipes } } := by
  induction l generalizing s with
  | nil => rfl
  | cons b l ih => exact (ih (s.unsplit b)).trans rfl

theorem split_forAll_unsplit (l : List TtBuffer) (s : State) (n : Nat) (h : (s.pipe n).split = false ∨ ∃ b ∈ l, b.pipe = n) :
    ((forAll l (fun b t => t.unsplit b) s).pipe n).split = false := by
  induction l generalizing s with
  | nil => exact h.resolve_right (by simp)
  | cons b l ih =>
    refine ih (s.unsplit b) ?_
    rw [State.unsplit, State.pipe_setPipe]
    by_cases hb : n = b.pipe
    · exact .inl (by rw [if_pos hb])
    · rw [if_neg hb]
      refine h.imp_right fun ⟨x, hx, hpipe⟩ => ⟨x, ?_, hpipe⟩
      exact (List.mem_cons.1 hx).resolve_left fun hxb => hb (by rw [← hpipe, hxb])

section
variable (s : State) (f : TtBuffer → Bool)

/-- The state in which the buffers are freed, and not yet counted. -/
def State.ttFreed : State :=
  forAll (s.usb.tt.filter f) (fun b t => t.unsplit b) { s with usb := { s.usb with tt := s.usb.tt.filter (fun b => ! f b) } }

theorem State.freeTt_eq : s.freeTt f = (s.ttFreed f).countTt := rfl

theorem State.ttFreed_rest : s.ttFreed f = { s with
    usb := { s.usb with tt := s.usb.tt.filter (fun b => ! f b), pipes := (s.ttFreed f).usb.pipes } } := forAll_unsplit_rest _ _

theorem State.freeTt_rest : s.freeTt f = { s with
    regs := (s.freeTt f).regs, usb := { s.usb with tt := s.usb.tt.filter (fun b => ! f b), pipes := (s.freeTt f).usb.pipes } } := by
  have hcounted := (s.ttFreed f).countTt_rest
  have hfreed := s.ttFreed_rest f
  rw [State.freeTt_eq]
  obtain ⟨u, hu⟩ : ∃ u, u = s.ttFreed f := ⟨_, rfl⟩
  rw [← hu] at hcounted hfreed ⊢
  rw [hcounted, hfreed]

theorem State.freeTt_keepsRegs : KeepsRegs s (s.freeTt f) ttRegs := by
  have hregs : (s.ttFreed f).regs = s.regs := by rw [State.ttFreed_rest]
  exact ((KeepsRegs.refl s _).of_regs hregs).trans (s.ttFreed f).countTt_keepsRegs

theorem State.tt_freeTt : (s.freeTt f).usb.tt = s.usb.tt.filter (fun b => ! f b) := by rw [State.freeTt_rest]

theorem State.split_freeTt {b : TtBuffer} (hb : b ∈ s.usb.tt) (hf : f b = true) : ((s.freeTt f).pipe b.pipe).split = false := by
  have hcounted : (s.freeTt f).pipe b.pipe = (s.ttFreed f).pipe b.pipe := by rw [State.freeTt_eq, State.countTt_rest]; rfl
  rw [hcounted]
  exact split_forAll_unsplit _ _ _ (.inr ⟨b, List.mem_filter.2 ⟨hb, hf⟩, rfl⟩)

end

/-- R472: with the buffers of port index `p` freed, none is counted. -/
theorem State.used_freeTt_port (s : State) (p : Fin 4) : (s.freeTt fun b => b.port == p.val).fld (F.USBHUB_TT_NP_USED p.val) = 0 := by
  have hnone : (s.ttFreed fun b => b.port == p.val).usb.tt.filter (fun b => b.port == p.val) = [] := by
    rw [State.ttFreed_rest]
    dsimp only
    rw [List.filter_filter]
    simp
  rw [State.freeTt_eq, State.used_countTt, hnone]
  rfl

end Sys2Proof.Machine
end

section
/-! Items in progress behind a port that end with it (R484). -/
namespace Sys2Proof.Machine

/-! ### No item -/

theorem State.usbItem_congr {s t : State} (hheddle : t.heddle = s.heddle) (hpower : t.power = s.power) (port : Nat) : t.usbItem port = s.usbItem port := by
  rw [State.usbItem, State.usbItem, State.portItem, State.portItem, hheddle, hpower]

/-- No pipe behind port index `p` has an item in progress. -/
def State.PortIdle (s : State) (p : Nat) : Prop := ∀ n : Fin 48, (s.pipeCfg n.val).port = p + 1 → s.usbItem (0x40 + n.val) = none

theorem State.PortIdle.of_keeps {s t : State} {p : Nat} {l : List Nat} (h : s.PortIdle p) (hkeeps : KeepsRegs s t l) (hl : ∀ n < 48, R.USBH_PIPE_CFG n ∉ l)
    (hheddle : t.heddle = s.heddle) (hpower : t.power = s.power) : t.PortIdle p := by
  intro n hn
  rw [State.pipeCfg, hkeeps _ (hl n.val n.isLt)] at hn
  rw [State.usbItem_congr hheddle hpower]
  exact h n hn

theorem State.portGone_idle {s : State} {p : Nat} (h : s.PortIdle p) : s.portGone p = s := by
  refine forEach_eq_self fun n hn => ?_
  split
  case isTrue hport => rw [State.usbEnd, h ⟨n, hn⟩ hport]
  case isFalse => rfl

/-! ### The item of a port -/

/-- The channel listed that holds port `port` of the USB. -/
def State.usbChannel (s : State) (port : Nat) : Option (Nat × HeddleChannel) := s.heddle.ch.find? fun e => decide (e.2.e.kind = 7 ∧ e.2.e.port = port)

theorem State.usbItem_eq (s : State) (port : Nat) :
    s.usbItem port = if s.power.heddleStopped then none else (s.usbChannel port).bind fun x => x.2.current.map fun i => (x.1, x.2, i) := by
  rw [State.usbItem, State.portItem, State.usbChannel]
  split
  · rfl
  · cases s.heddle.ch.find? fun e => decide (e.2.e.kind = 7 ∧ e.2.e.port = port) <;> rfl

/-- Every channel that Heddle lists is the one its number names. -/
def State.ChannelsKeyed (s : State) : Prop := ∀ e ∈ s.heddle.ch, s.hch e.1 = some e.2

theorem State.usbItem_some {s : State} {port c : Nat} {k : HeddleChannel} {it : HeddleItem} (h : s.usbItem port = some (c, k, it)) :
    s.power.heddleStopped = false ∧ s.usbChannel port = some (c, k) ∧ k.current = some it := by
  rw [State.usbItem_eq] at h
  cases hstopped : s.power.heddleStopped with
  | true => rw [hstopped] at h; cases h
  | false =>
    rw [hstopped, if_neg (by decide)] at h
    obtain ⟨x, hx, hcurrent⟩ := Option.bind_eq_some_iff.1 h
    obtain ⟨i, hi, heq⟩ := Option.map_eq_some_iff.1 hcurrent
    simp only [Prod.mk.injEq] at heq
    obtain ⟨rfl, rfl, rfl⟩ := heq
    exact ⟨rfl, hx, hi⟩

theorem State.usbChannel_some {s : State} {port c : Nat} {k : HeddleChannel} (hkeyed : s.ChannelsKeyed) (h : s.usbChannel port = some (c, k)) :
    s.hch c = some k ∧ k.e.kind = 7 ∧ k.e.port = port := by
  have hentry := List.find?_some h
  simp only [decide_eq_true_eq] at hentry
  exact ⟨hkeyed _ (List.mem_of_find?_eq_some h), hentry⟩

/-! ### An item that ends -/

/-- The channel with the items at ring index `idx` decided. -/
def HeddleChannel.decided (k : HeddleChannel) (idx : Nat) (r : Nat × Nat) : HeddleChannel :=
  { k with items := k.items.map (fun i => if i.index = idx then { i with started := true, status := some r } else i) }

/-- Its status, as the channel alone shows it. -/
def HeddleChannel.statusAt (k : HeddleChannel) (idx : Nat) : Option (Nat × Nat) :=
  (k.items.find? fun i => decide (i.index = idx)).bind fun i => i.status

theorem State.itemStatus_of {s : State} {c : Nat} {k : HeddleChannel} (h : s.hch c = some k) (idx : Nat) : s.itemStatus c idx = k.statusAt idx := by
  rw [State.itemStatus, State.itemAt, h]
  rfl

theorem HeddleChannel.statusAt_decided (k : HeddleChannel) (idx j : Nat) (r : Nat × Nat) (h : j = idx → ∃ i ∈ k.items, i.index = idx) :
    (k.decided idx r).statusAt j = if j = idx then some r else k.statusAt j := by
  unfold HeddleChannel.statusAt HeddleChannel.decided
  dsimp only
  rw [List.find?_map]
  have hsame : ((fun i : HeddleItem => decide (i.index = j)) ∘ fun i => if i.index = idx then { i with started := true, status := some r } else i) =
      fun i => decide (i.index = j) := by
    funext i
    simp only [Function.comp]
    split <;> rfl
  rw [hsame]
  cases hfound : k.items.find? fun i => decide (i.index = j) with
  | none =>
    split
    case isTrue hj =>
      obtain ⟨i, hi, hindex⟩ := h hj
      have := List.find?_eq_none.1 hfound i hi
      simp [hindex, hj] at this
    case isFalse => rfl
  | some i =>
    have hindex := List.find?_some hfound
    simp only [decide_eq_true_eq] at hindex
    by_cases hj : j = idx
    · simp [hindex, hj]
    · simp [hindex, hj]

/-- The registers of the host that the end of an item behind a port reaches. -/
def pipeEndRegs : List Nat := R.EVT_RAW P.USBH :: pipeStats

/-- What a state keeps when an item of a pipe ends. -/
structure State.PipeEnded (s t : State) (n c idx : Nat) (k : HeddleChannel) : Prop where
  channel : t.heddle.ch = AMap.put s.heddle.ch c (k.decided idx (4, 4))
  keeps : KeepsRegs s t [R.EVT_RAW P.USBH, R.USBH_PIPE_STAT n]
  rest : t = { s with regs := t.regs, heddle := { s.heddle with ch := t.heddle.ch }, usb := t.usb }

/-- R479: the end with PERIPH_ERROR detail 4 of an item of pipe `n`. -/
theorem State.usbEnded_pipe (u : State) {n : Nat} (hn : n < 48) : u.usbEnded (0x40 + n) 4 4 =
    (((u.setPipe n { u.pipe n with stage := 0, errs := 0, since := none }).setFld (F.USBH_PIPE_STAT_LAST_DETAIL n) 4).setFld
      (F.USBH_PIPE_STAT_HALTED n) 1).raise P.USBH E.USBH_PIPE_HALT := by
  rw [State.usbEnded, if_pos (by omega), Nat.add_sub_cancel_left]
  dsimp only
  rw [decide_eq_true (⟨by omega, rfl⟩ : 0x40 + n < 0x70 ∧ 4 = 4), State.when, if_pos rfl, State.usbHalts, if_neg (by decide), if_pos (by omega),
    Nat.add_sub_cancel_left]

theorem State.usbEnded_pipe_rest (u : State) {n : Nat} (hn : n < 48) : u.usbEnded (0x40 + n) 4 4 =
    { u with regs := (u.usbEnded (0x40 + n) 4 4).regs, usb := (u.usbEnded (0x40 + n) 4 4).usb } := by
  have hregs (y : State) : ((y.setFld (F.USBH_PIPE_STAT_LAST_DETAIL n) 4).setFld (F.USBH_PIPE_STAT_HALTED n) 1).raise P.USBH E.USBH_PIPE_HALT =
      { y with regs := (((y.setFld (F.USBH_PIPE_STAT_LAST_DETAIL n) 4).setFld (F.USBH_PIPE_STAT_HALTED n) 1).raise P.USBH E.USBH_PIPE_HALT).regs } := rfl
  rw [State.usbEnded_pipe u hn, hregs]
  rfl

theorem State.usbEnded_pipe_keepsRegs (u : State) {n : Nat} (hn : n < 48) : KeepsRegs u (u.usbEnded (0x40 + n) 4 4) [R.EVT_RAW P.USBH, R.USBH_PIPE_STAT n] := by
  have hstart : KeepsRegs u (u.setPipe n { u.pipe n with stage := 0, errs := 0, since := none }) [R.EVT_RAW P.USBH, R.USBH_PIPE_STAT n] :=
    (KeepsRegs.refl u _).of_regs rfl
  rw [State.usbEnded_pipe u hn]
  exact ((hstart.setFld (List.mem_cons_of_mem _ List.mem_cons_self)).setFld (List.mem_cons_of_mem _ List.mem_cons_self)).raise List.mem_cons_self

theorem State.usbEnd_eq {s : State} {n c : Nat} {k : HeddleChannel} {it : HeddleItem} (hkeyed : s.ChannelsKeyed)
    (h : s.usbItem (0x40 + n) = some (c, k, it)) : s.usbEnd (0x40 + n) 4 4 = (s.setHch c (k.decided it.index (4, 4))).usbEnded (0x40 + n) 4 4 := by
  obtain ⟨-, hchannel, -⟩ := State.usbItem_some h
  obtain ⟨hhch, hkind, hport⟩ := State.usbChannel_some hkeyed hchannel
  rw [State.usbEnd, h]
  dsimp only
  rw [State.decideItem, hhch]
  dsimp only
  rw [if_neg (by rw [hkind]; decide), if_pos hkind, hport, HeddleChannel.decided]

theorem State.usbEnd_some {s : State} {n c : Nat} {k : HeddleChannel} {it : HeddleItem} (hkeyed : s.ChannelsKeyed) (hn : n < 48)
    (h : s.usbItem (0x40 + n) = some (c, k, it)) : s.PipeEnded (s.usbEnd (0x40 + n) 4 4) n c it.index k := by
  have hrest := (s.setHch c (k.decided it.index (4, 4))).usbEnded_pipe_rest hn
  have hkeeps := (s.setHch c (k.decided it.index (4, 4))).usbEnded_pipe_keepsRegs hn
  rw [← State.usbEnd_eq hkeyed h] at hrest hkeeps
  obtain ⟨t, ht⟩ : ∃ t, t = s.usbEnd (0x40 + n) 4 4 := ⟨_, rfl⟩
  rw [← ht] at hrest hkeeps ⊢
  have hchannel : t.heddle.ch = AMap.put s.heddle.ch c (k.decided it.index (4, 4)) := by rw [hrest]; rfl
  exact ⟨hchannel, ((KeepsRegs.refl s _).of_regs rfl).trans hkeeps, by rw [hchannel]; exact hrest⟩

end Sys2Proof.Machine
end

section
/-! The items behind a port end one after the other (R484), and each keeps its status. -/
namespace Sys2Proof.Machine

/-! ### Another channel of the list -/

section
variable {α : Type} {q : Nat × α → Bool} {k : Nat} {v : α} (hv : q (k, v) = false)
include hv

theorem find?_insert_of_not (m : List (Nat × α)) : (SMap.insert m k v).find? q = m.find? q := by
  induction m with
  | nil => simp [SMap.insert, hv]
  | cons e m ih =>
    unfold SMap.insert
    split
    · rw [List.find?_cons, hv]
    · rw [List.find?_cons, List.find?_cons, ih]

theorem find?_put_of_not {m : List (Nat × α)} (hm : ∀ e ∈ m, e.1 = k → q e = false) : (AMap.put m k v).find? q = m.find? q := by
  rw [AMap.put, find?_insert_of_not hv, SMap.erase, List.find?_filter]
  refine List.find?_congr fun e he => ?_
  by_cases hk : e.1 = k
  · simp [hm e he hk]
  · simp [hk]

end

theorem AMap.mem_put {α : Type} {m : List (Nat × α)} {k : Nat} {v : α} {e : Nat × α} (h : e ∈ AMap.put m k v) : e = (k, v) ∨ e ∈ m ∧ e.1 ≠ k :=
  (SMap.mem_insert _ k v e h).imp_right fun hm => ⟨(List.mem_filter.1 hm).1, SMap.erase_ne m k e hm⟩

/-! ### One item -/

section
variable {s t : State} {n c idx : Nat} {k : HeddleChannel} (h : s.PipeEnded t n c idx k)
include h

theorem State.PipeEnded.hch (x : Nat) : t.hch x = if x = c then some (k.decided idx (4, 4)) else s.hch x := by
  rw [State.hch, h.channel]
  split
  case isTrue hx => rw [hx, AMap.get?_put]
  case isFalse hx => exact AMap.get?_put_ne _ _ hx

theorem State.PipeEnded.keyed (hkeyed : s.ChannelsKeyed) : t.ChannelsKeyed := by
  intro e he
  rw [h.channel] at he
  rw [h.hch]
  rcases AMap.mem_put he with rfl | ⟨hmem, hne⟩
  · exact if_pos rfl
  · rw [if_neg hne, hkeyed e hmem]

/-- The item of another port is as it was. -/
theorem State.PipeEnded.usbItem (hkeyed : s.ChannelsKeyed) (hk : s.hch c = some k) {port : Nat} (hport : k.e.port ≠ port) :
    t.usbItem port = s.usbItem port := by
  have hentries : ∀ e ∈ s.heddle.ch, e.1 = c → decide (e.2.e.kind = 7 ∧ e.2.e.port = port) = false := by
    intro e he hc
    have hsame : some e.2 = some k := (hkeyed e he).symm.trans (by rw [hc, hk])
    rw [Option.some.inj hsame]
    exact decide_eq_false fun hx => hport hx.2
  have hchannel : t.usbChannel port = s.usbChannel port := by
    rw [State.usbChannel, State.usbChannel, h.channel]
    exact find?_put_of_not (v := k.decided idx (4, 4)) (q := fun e : Nat × HeddleChannel => decide (e.2.e.kind = 7 ∧ e.2.e.port = port)) (decide_eq_false fun hx => hport hx.2) hentries
  have hpower : t.power = s.power := by rw [h.rest]
  rw [State.usbItem_eq, State.usbItem_eq, hchannel, hpower]

/-- An item that has ended so stays so. -/
theorem State.PipeEnded.itemStatus (hk : s.hch c = some k) {x i : Nat} (hended : s.itemStatus x i = some (4, 4)) : t.itemStatus x i = some (4, 4) := by
  by_cases hx : x = c
  · have hafter : t.hch x = some (k.decided idx (4, 4)) := by rw [h.hch, if_pos hx]
    rw [hx, State.itemStatus_of hk] at hended
    rw [State.itemStatus_of hafter]
    by_cases hi : i = idx
    · have hlisted : ∃ y ∈ k.items, y.index = idx := by
        obtain ⟨y, hy, -⟩ := Option.bind_eq_some_iff.1 hended
        have hindex := List.find?_some hy
        exact ⟨y, List.mem_of_find?_eq_some hy, (of_decide_eq_true hindex).trans hi⟩
      rw [k.statusAt_decided idx i (4, 4) fun _ => hlisted, if_pos hi]
    · rw [k.statusAt_decided idx i (4, 4) fun hsame => absurd hsame hi, if_neg hi, hended]
  · rw [State.itemStatus, State.itemAt, h.hch, if_neg hx]
    exact hended

/-- The item that ends has its status. -/
theorem State.PipeEnded.ended (hidx : ∃ y ∈ k.items, y.index = idx) : t.itemStatus c idx = some (4, 4) := by
  have hafter : t.hch c = some (k.decided idx (4, 4)) := by rw [h.hch, if_pos rfl]
  rw [State.itemStatus_of hafter, k.statusAt_decided idx idx (4, 4) fun _ => hidx, if_pos rfl]

end

theorem HeddleChannel.current_mem {k : HeddleChannel} {it : HeddleItem} (h : k.current = some it) : it ∈ k.items := by
  unfold HeddleChannel.current at h
  split at h
  · cases h
  case h_2 i hi =>
    have hmem := List.mem_of_find?_eq_some hi
    split at h
    · cases h
    · split at h
      · cases h
      · cases h
        exact hmem

/-! ### All items behind a port -/

/-- One step of the loop over the pipes. -/
def State.itemGone (p n : Nat) (t : State) : State := if t.fld (F.USBH_PIPE_CFG_PORT n) = p + 1 then t.usbEnd (0x40 + n) 4 4 else t

theorem State.portGone_eq (s : State) (p : Nat) : s.portGone p = forEach 48 (State.itemGone p) s := rfl

theorem State.itemGone_cases {t : State} (hkeyed : t.ChannelsKeyed) (p : Nat) {n : Nat} (hn : n < 48) : State.itemGone p n t = t ∨
    ∃ c k it, t.usbItem (0x40 + n) = some (c, k, it) ∧ t.PipeEnded (State.itemGone p n t) n c it.index k := by
  unfold State.itemGone
  split
  · cases hitem : t.usbItem (0x40 + n) with
    | none => exact .inl (by rw [State.usbEnd, hitem])
    | some x => exact .inr ⟨x.1, x.2.1, x.2.2, rfl, State.usbEnd_some hkeyed hn hitem⟩
  · exact .inl rfl

/-- What a state keeps while items behind a port end. -/
structure State.ItemsGone (s t : State) : Prop where
  keyed : t.ChannelsKeyed
  keeps : KeepsRegs s t pipeEndRegs
  rest : t = { s with regs := t.regs, heddle := { s.heddle with ch := t.heddle.ch }, usb := t.usb }

theorem State.ItemsGone.step {s t : State} (h : s.ItemsGone t) (p : Nat) {n : Nat} (hn : n < 48) : s.ItemsGone (State.itemGone p n t) := by
  rcases State.itemGone_cases h.keyed p hn with hsame | ⟨c, k, it, -, hended⟩
  · rw [hsame]
    exact h
  · refine ⟨hended.keyed h.keyed, h.keeps.trans (hended.keeps.mono fun a ha => ?_), ?_⟩
    · simp only [List.mem_cons, List.not_mem_nil, or_false] at ha
      rcases ha with rfl | rfl
      · exact List.mem_cons_self
      · exact List.mem_cons_of_mem _ (pipeStat_mem hn)
    · have hrest := hended.rest
      obtain ⟨u, hu⟩ : ∃ u, u = State.itemGone p n t := ⟨_, rfl⟩
      rw [← hu] at hrest ⊢
      rw [hrest, h.rest]

theorem State.itemsGone_loop {s : State} (hkeyed : s.ChannelsKeyed) (p : Nat) (m : Nat) (hm : m ≤ 48) : s.ItemsGone (forEach m (State.itemGone p) s) := by
  induction m with
  | zero => exact ⟨hkeyed, KeepsRegs.refl s _, rfl⟩
  | succ m ih =>
    rw [forEach_succ]
    exact (ih (by omega)).step p (by omega)

theorem State.itemsGone_portGone {s : State} (hkeyed : s.ChannelsKeyed) (p : Nat) : s.ItemsGone (s.portGone p) :=
  State.itemsGone_loop hkeyed p 48 (Nat.le_refl 48)

theorem pipeCfg_notMem_pipeEndRegs (n : Nat) : R.USBH_PIPE_CFG n ∉ pipeEndRegs := by
  intro h
  rcases List.mem_cons.1 h with h | h
  · simp only [R.USBH_PIPE_CFG, R.EVT_RAW, P.USBH] at h
    omega
  · exact pipeCfg_notMem_pipeStats n h

/-- R484: the item of a pipe behind the port has ended with PERIPH_ERROR detail 4. -/
theorem State.ended_portGone {s : State} (hkeyed : s.ChannelsKeyed) {p n : Nat} (hn : n < 48) (hport : s.fld (F.USBH_PIPE_CFG_PORT n) = p + 1)
    {c : Nat} {k : HeddleChannel} {it : HeddleItem} (hitem : s.usbItem (0x40 + n) = some (c, k, it)) :
    (s.portGone p).itemStatus c it.index = some (4, 4) := by
  have hloop (m : Nat) (hm : m ≤ 48) : (m ≤ n → (forEach m (State.itemGone p) s).usbItem (0x40 + n) = some (c, k, it)) ∧
      (n < m → (forEach m (State.itemGone p) s).itemStatus c it.index = some (4, 4)) := by
    induction m with
    | zero => exact ⟨fun _ => hitem, fun h => absurd h (Nat.not_lt_zero n)⟩
    | succ m ih =>
      obtain ⟨hbefore, hafter⟩ := ih (by omega)
      have hgone := State.itemsGone_loop hkeyed p m (by omega)
      rw [forEach_succ]
      obtain ⟨t, ht⟩ : ∃ t, t = forEach m (State.itemGone p) s := ⟨_, rfl⟩
      rw [← ht] at hbefore hafter hgone ⊢
      refine ⟨fun hmn => ?_, fun hnm => ?_⟩
      · rcases State.itemGone_cases hgone.keyed p (n := m) (by omega) with hsame | ⟨c', k', it', hother, hended⟩
        · rw [hsame, hbefore (by omega)]
        · obtain ⟨-, hchannel, -⟩ := State.usbItem_some hother
          obtain ⟨hhch, -, hport'⟩ := State.usbChannel_some hgone.keyed hchannel
          rw [hended.usbItem hgone.keyed hhch (by rw [hport']; omega), hbefore (by omega)]
      · rcases Nat.lt_succ_iff_lt_or_eq.1 hnm with hlt | rfl
        · rcases State.itemGone_cases hgone.keyed p (n := m) (by omega) with hsame | ⟨c', k', it', hother, hended⟩
          · rw [hsame, hafter hlt]
          · obtain ⟨-, hchannel, -⟩ := State.usbItem_some hother
            obtain ⟨hhch, -, -⟩ := State.usbChannel_some hgone.keyed hchannel
            exact hended.itemStatus hhch (hafter hlt)
        · have hcfg : t.fld (F.USBH_PIPE_CFG_PORT n) = p + 1 := (hgone.keeps.fld (f := F.USBH_PIPE_CFG_PORT n) (pipeCfg_notMem_pipeEndRegs n)).trans hport
          have hnow := hbefore (Nat.le_refl n)
          obtain ⟨-, -, hcurrent⟩ := State.usbItem_some hnow
          rw [State.itemGone, if_pos hcfg]
          exact (State.usbEnd_some hgone.keyed hn hnow).ended ⟨it, HeddleChannel.current_mem hcurrent, rfl⟩
  exact (hloop 48 (Nat.le_refl 48)).2 hn

end Sys2Proof.Machine
end

section
/-! The hub's operations on a port (R470 to R473, R482 to R484). -/
namespace Sys2Proof.Machine

/-! ### While USBHUB works -/

theorem if_hubLive {s x y : State} (h : s.usbLive P.USBHUB = true) : (if ! s.usbLive P.USBHUB then x else y) = y := if_neg (by rw [h]; decide)

theorem if_hubDead {s x y : State} (h : s.usbLive P.USBHUB = false) : (if ! s.usbLive P.USBHUB then x else y) = x := if_pos (by rw [h]; rfl)

section
variable (s : State) (p : Nat)

theorem State.portLine_setLine (v : Nat) : (s.setLine p v).portLine p = v := (SMap.get_put _ _ _ _ _).trans (if_pos rfl)

theorem State.setLine_rest (v : Nat) : s.setLine p v = { s with usb := { s.usb with lines := (s.setLine p v).usb.lines } } := rfl

theorem lineCode_ne_zero (line : UsbLine) : lineCode line ≠ 0 := by cases line <;> decide

theorem lineCode_low (line : UsbLine) : (lineCode line == 1) = decide (line = .low) := by cases line <;> rfl

theorem lineCode_high (line : UsbLine) : (lineCode line == 3) = decide (line = .high) := by cases line <;> rfl

/-! ### Power -/

/-- R470: the port is powered, and what is attached to it connects. -/
def State.portConnected : State := (((s.setFld (portBitF p 8) 1).setFld (portBitF p 0) 1).setFlag (portBitF p 9) (s.portLine p == 1)).portChange p 0

theorem State.flag_portConnected (b : Nat) : (s.portConnected p).flag (portBitF p b) =
    if b = 16 then true else if b = 9 then s.portLine p == 1 else if b = 0 ∨ b = 8 then true else s.flag (portBitF p b) := by
  rw [State.portConnected, State.flag_portChange _ _ _ (by decide), State.flag_setPortBit _ _ _ (by decide), State.flag_setPortBit_one _ _ _ (by decide),
    State.flag_setPortBit_one _ _ _ (by decide), Nat.add_zero]
  by_cases h0 : b = 0
  · simp [h0]
  · simp [h0]

theorem State.portConnected_keepsRegs : KeepsRegs s (s.portConnected p) [R.USBHUB_PORT p, R.EVT_RAW P.USBHUB] :=
  ((((KeepsRegs.refl s _).setFld (f := portBitF p 8) (by simp [portBitF])).setFld (f := portBitF p 0) (by simp [portBitF])).setFlag (f := portBitF p 9)
    (by simp [portBitF])).trans (State.portChange_keepsRegs _ _ _)

theorem State.portConnected_rest : s.portConnected p = { s with regs := (s.portConnected p).regs } := rfl

theorem State.portConnected_event : (s.portConnected p).event P.USBHUB E.USBHUB_PORT_CHANGE = true := State.event_portChange _ _ _

variable {s p} in
theorem State.opPortPower_connects (hoc : s.flag (F.USBHUB_OC_ACTIVE p) = false) (hline : s.portLine p ≠ 0) (hapart : s.portIs p 0 = false) :
    s.opPortPower p = s.portConnected p := by
  have hstill : (s.setFld (portBitF p 8) 1).portIs p 0 = false := (s.flag_setPortBit_one p 0 (c := 8) (by decide)).trans hapart
  rw [State.opPortPower, if_neg (by rw [hoc]; decide)]
  refine if_pos ⟨hline, ?_⟩
  rw [hstill]
  rfl

variable {s p} in
theorem State.opPortPower_empty (hoc : s.flag (F.USBHUB_OC_ACTIVE p) = false) (hline : s.portLine p = 0) :
    s.opPortPower p = s.setFld (portBitF p 8) 1 := by
  rw [State.opPortPower, if_neg (by rw [hoc]; decide)]
  exact if_neg fun h => h.1 hline

/-- R470: the port's bits once it has disconnected, the items behind it not yet ended. -/
def State.portCut : State :=
  (((((if s.portIs p 0 then s.portChange p 0 else s).setFld (portBitF p 0) 0).setFld (portBitF p 1) 0).setFld (portBitF p 2) 0).setFld (portBitF p 9) 0).setFld
    (portBitF p 10) 0

theorem State.disconnect_eq : s.disconnect p = ((s.portCut p).portGone p).syncSuspended := rfl

theorem State.portCut_keepsRegs : KeepsRegs s (s.portCut p) [R.USBHUB_PORT p, R.EVT_RAW P.USBHUB] := by
  have hstart : KeepsRegs s (if s.portIs p 0 then s.portChange p 0 else s) [R.USBHUB_PORT p, R.EVT_RAW P.USBHUB] := by
    split
    · exact s.portChange_keepsRegs p 0
    · exact KeepsRegs.refl s _
  exact ((((hstart.setFld (f := portBitF p 0) (by simp [portBitF])).setFld (f := portBitF p 1) (by simp [portBitF])).setFld (f := portBitF p 2)
    (by simp [portBitF])).setFld (f := portBitF p 9) (by simp [portBitF])).setFld (f := portBitF p 10) (by simp [portBitF])

theorem State.portCut_rest : s.portCut p = { s with regs := (s.portCut p).regs } := by
  unfold State.portCut
  split <;> rfl

theorem State.flag_portCut (b : Nat) (hb : b ≠ 16) : (s.portCut p).flag (portBitF p b) =
    if b = 0 ∨ b = 1 ∨ b = 2 ∨ b = 9 ∨ b = 10 then false else s.flag (portBitF p b) := by
  have hstart : (if s.portIs p 0 then s.portChange p 0 else s).flag (portBitF p b) = s.flag (portBitF p b) := by
    split
    · rw [State.flag_portChange _ _ _ (by decide), if_neg hb]
    · rfl
  rw [State.portCut, State.flag_setPortBit_zero _ _ _ (by decide), State.flag_setPortBit_zero _ _ _ (by decide), State.flag_setPortBit_zero _ _ _ (by decide),
    State.flag_setPortBit_zero _ _ _ (by decide), State.flag_setPortBit_zero _ _ _ (by decide), hstart]
  by_cases h : b = 0 ∨ b = 1 ∨ b = 2 ∨ b = 9 ∨ b = 10
  · rw [if_pos h]
    rcases h with rfl | rfl | rfl | rfl | rfl <;> rfl
  · simp only [not_or] at h
    obtain ⟨h0, h1, h2, h9, h10⟩ := h
    simp [h0, h1, h2, h9, h10]

theorem State.portCut_reports (h : s.portIs p 0 = true) :
    (s.portCut p).flag (portBitF p 16) = true ∧ (s.portCut p).event P.USBHUB E.USBHUB_PORT_CHANGE = true := by
  have hevent : (s.portChange p 0).event P.USBHUB E.USBHUB_PORT_CHANGE = true := State.event_portChange _ _ _
  have hbits : KeepsRegs (s.portChange p 0) (s.portCut p) [R.USBHUB_PORT p] := by
    rw [State.portCut, if_pos h]
    exact (((((KeepsRegs.refl _ _).setFld (f := portBitF p 0) (by simp [portBitF])).setFld (f := portBitF p 1) (by simp [portBitF])).setFld (f := portBitF p 2)
      (by simp [portBitF])).setFld (f := portBitF p 9) (by simp [portBitF])).setFld (f := portBitF p 10) (by simp [portBitF])
  refine ⟨?_, ?_⟩
  · rw [State.portCut, if_pos h, State.flag_setPortBit_zero _ _ _ (by decide), State.flag_setPortBit_zero _ _ _ (by decide),
      State.flag_setPortBit_zero _ _ _ (by decide), State.flag_setPortBit_zero _ _ _ (by decide), State.flag_setPortBit_zero _ _ _ (by decide),
      State.flag_portChange _ _ _ (by decide)]
    rfl
  · rw [hbits.event _ (by simp only [List.mem_singleton]; exact Ne.symm (usbhubPort_ne_event p)), hevent]

theorem pipeCfg_notMem_hub (n : Nat) (hn : n < 48) : R.USBH_PIPE_CFG n ∉ [R.USBHUB_PORT p, R.EVT_RAW P.USBHUB] := by
  simp only [List.mem_cons, List.not_mem_nil, or_false, R.USBH_PIPE_CFG, R.USBHUB_PORT, R.EVT_RAW, P.USBHUB]
  omega

/-- The registers that a port which disconnects reaches. -/
def cutRegs : List Nat := R.USBHUB_PORT p :: R.EVT_RAW P.USBHUB :: pipeStats

/-- R470: what a port that disconnects leaves, while no pipe behind it has an item in progress. -/
theorem State.disconnect_idle {s : State} {p : Nat} (hidle : s.PortIdle p) : s.disconnect p = (s.portCut p).syncSuspended := by
  have hcut : (s.portCut p).PortIdle p := hidle.of_keeps (s.portCut_keepsRegs p) (pipeCfg_notMem_hub p) (by rw [State.portCut_rest]) (by rw [State.portCut_rest])
  rw [State.disconnect_eq, State.portGone_idle hcut]

/-- The effect of a disconnection from which no item suffers. -/
theorem State.disconnect_effect {s : State} {p : Nat} (hidle : s.PortIdle p) :
    ∃ t, s.disconnect p = t ∧ KeepsRegs s t (cutRegs p) ∧ t = { s with regs := t.regs } ∧
      (∀ b, b ≠ 16 → t.flag (portBitF p b) = if b = 0 ∨ b = 1 ∨ b = 2 ∨ b = 9 ∨ b = 10 then false else s.flag (portBitF p b)) ∧
      (s.portIs p 0 = true → t.flag (portBitF p 16) = true ∧ t.event P.USBHUB E.USBHUB_PORT_CHANGE = true) := by
  have hsync := (s.portCut p).syncSuspended_keepsRegs
  have hbits : ∀ b, (s.portCut p).syncSuspended.flag (portBitF p b) = (s.portCut p).flag (portBitF p b) := fun b =>
    hsync.flag (f := portBitF p b) (usbhubPort_notMem_pipeStats p)
  refine ⟨_, State.disconnect_idle hidle, ?_, ?_, fun b hb => ?_, fun hon => ?_⟩
  · refine ((s.portCut_keepsRegs p).mono fun a ha => ?_).trans (hsync.mono fun a ha => List.mem_cons_of_mem _ (List.mem_cons_of_mem _ ha))
    simp only [List.mem_cons, List.not_mem_nil, or_false] at ha
    rcases ha with rfl | rfl <;> simp [cutRegs]
  · rw [State.syncSuspended_rest, State.portCut_rest]
  · rw [hbits, State.flag_portCut _ _ _ hb]
  · obtain ⟨hflag, hevent⟩ := s.portCut_reports p hon
    exact ⟨(hbits 16).trans hflag, (hsync.event _ (usbhub_notMem_pipeStats (by decide))).trans hevent⟩

end

end Sys2Proof.Machine
end

section
/-! PORT_POWER to PORT_RESUME (R470 to R473, R482 to R484). -/
namespace Sys2Proof.Machine

/-! ### Over-current -/

/-- A field of the counter's register beside the count and its flag. -/
theorem State.flag_bumpSat_ne (s : State) {f sat g : Fld} (hf : g.reg ≠ f.reg ∨ g.lo + g.width ≤ f.lo ∨ f.lo + f.width ≤ g.lo)
    (hsat : g.reg ≠ sat.reg ∨ g.lo + g.width ≤ sat.lo ∨ sat.lo + sat.width ≤ g.lo) : (s.bumpSat f sat).flag g = s.flag g := by
  have hbump : (s.bump f).flag g = s.flag g := State.flag_setFld_ne _ _ _ _ hf
  unfold State.bumpSat
  dsimp only
  split
  · rw [State.flag_setFld_ne _ _ _ _ hsat, hbump]
  · exact hbump

section
variable (s : State) (p : Nat)

/-- R470, R483: the port's bits and count after an over-current, the items behind it not yet ended. -/
def State.overloaded : State :=
  ((((((s.setFld (portBitF p 8) 0).setFld (portBitF p 1) 0).setFld (portBitF p 3) 1).portChange p 3).setFld (F.USBHUB_OC_ACTIVE p) 1).bumpSat
    (F.USBHUB_OC_COUNT p) (F.USBHUB_OC_SAT p)).raise P.USBHUB E.USBHUB_OVER_CURRENT

theorem State.opOverCurrent_eq : s.opOverCurrent p = (s.overloaded p).portGone p := rfl

/-- The registers that it reaches. -/
def overloadRegs : List Nat := [R.USBHUB_PORT p, R.EVT_RAW P.USBHUB, R.USBHUB_OC p]

theorem portBit_reg_mem (b : Nat) : (portBitF p b).reg ∈ overloadRegs p := List.mem_cons_self

theorem State.overloaded_keepsRegs : KeepsRegs s (s.overloaded p) (overloadRegs p) := by
  have hbits : KeepsRegs s ((((s.setFld (portBitF p 8) 0).setFld (portBitF p 1) 0).setFld (portBitF p 3) 1).portChange p 3) (overloadRegs p) :=
    ((((KeepsRegs.refl s _).setFld (portBit_reg_mem p 8)).setFld (portBit_reg_mem p 1)).setFld (portBit_reg_mem p 3)).trans
      ((State.portChange_keepsRegs _ p 3).mono (by simp [overloadRegs]))
  exact ((hbits.setFld (by simp [overloadRegs, F.USBHUB_OC_ACTIVE])).bumpSat (by simp [overloadRegs, F.USBHUB_OC_COUNT])
    (by simp [overloadRegs, F.USBHUB_OC_SAT])).raise (by simp [overloadRegs])

theorem State.overloaded_rest : s.overloaded p = { s with regs := (s.overloaded p).regs } := by
  rw [State.overloaded, State.bumpSat_rest]
  rfl

theorem usbhubPort_ne_oc {p k : Nat} (hp : p < 4) : R.USBHUB_PORT p ≠ R.USBHUB_OC k := by
  simp only [R.USBHUB_PORT, R.USBHUB_OC]
  omega

theorem usbhubOc_ne_event : R.USBHUB_OC p ≠ R.EVT_RAW P.USBHUB := by
  simp only [R.USBHUB_OC, R.EVT_RAW, P.USBHUB]
  omega

variable {s p} (hp : p < 4)
include hp

theorem State.flag_overloaded (b : Nat) : (s.overloaded p).flag (portBitF p b) =
    if b = 19 ∨ b = 3 then true else if b = 1 ∨ b = 8 then false else s.flag (portBitF p b) := by
  obtain ⟨u, hu⟩ : ∃ u, u = (((s.setFld (portBitF p 8) 0).setFld (portBitF p 1) 0).setFld (portBitF p 3) 1).portChange p 3 := ⟨_, rfl⟩
  have hkept : KeepsRegs u (s.overloaded p) [R.EVT_RAW P.USBHUB, R.USBHUB_OC p] := by
    rw [State.overloaded, ← hu]
    exact (((KeepsRegs.refl u _).setFld (by simp [F.USBHUB_OC_ACTIVE])).bumpSat (by simp [F.USBHUB_OC_COUNT]) (by simp [F.USBHUB_OC_SAT])).raise (by simp)
  rw [hkept.flag (f := portBitF p b) (by simp [portBitF, usbhubPort_ne_event p, usbhubPort_ne_oc hp]), hu, State.flag_portChange _ _ _ (by decide),
    State.flag_setPortBit_one _ _ _ (by decide), State.flag_setPortBit_zero _ _ _ (by decide), State.flag_setPortBit_zero _ _ _ (by decide)]
  by_cases h3 : b = 3
  · simp [h3]
  · by_cases h1 : b = 1
    · simp [h1]
    · simp [h3, h1]

theorem State.counts_overloaded : (s.overloaded p).flag (F.USBHUB_OC_ACTIVE p) = true ∧
    (s.overloaded p).fld (F.USBHUB_OC_COUNT p) = min (2 ^ (F.USBHUB_OC_COUNT 0).width - 1) (s.fld (F.USBHUB_OC_COUNT p) + 1) ∧
    (s.overloaded p).event P.USBHUB E.USBHUB_OVER_CURRENT = true ∧ (s.overloaded p).event P.USBHUB E.USBHUB_PORT_CHANGE = true := by
  obtain ⟨u, hu⟩ : ∃ u, u = (((s.setFld (portBitF p 8) 0).setFld (portBitF p 1) 0).setFld (portBitF p 3) 1).portChange p 3 := ⟨_, rfl⟩
  have hkept : KeepsRegs s u [R.USBHUB_PORT p, R.EVT_RAW P.USBHUB] := by
    rw [hu]
    exact ((((KeepsRegs.refl s _).setFld (f := portBitF p 8) (by simp [portBitF])).setFld (f := portBitF p 1) (by simp [portBitF])).setFld (f := portBitF p 3)
      (by simp [portBitF])).trans (State.portChange_keepsRegs _ p 3)
  have hevent : u.event P.USBHUB E.USBHUB_PORT_CHANGE = true := by
    rw [hu]
    exact State.event_portChange _ _ _
  have hfit : (F.USBHUB_OC_ACTIVE p).lo + (F.USBHUB_OC_ACTIVE p).width ≤ 64 := by simp [F.USBHUB_OC_ACTIVE]
  have hcount : (F.USBHUB_OC_COUNT p).reg ≠ R.EVT_RAW P.USBHUB := usbhubOc_ne_event p
  have hactive : (F.USBHUB_OC_ACTIVE p).reg ≠ R.EVT_RAW P.USBHUB := usbhubOc_ne_event p
  obtain ⟨v, hv⟩ : ∃ v, v = u.setFld (F.USBHUB_OC_ACTIVE p) 1 := ⟨_, rfl⟩
  have hvkept : KeepsRegs u v [R.USBHUB_OC p] := by
    rw [hv]
    exact (KeepsRegs.refl u _).setFld (by simp [F.USBHUB_OC_ACTIVE])
  have hvactive : v.flag (F.USBHUB_OC_ACTIVE p) = true := by
    rw [hv]
    exact State.flag_setFlag u _ true hfit (by simp [F.USBHUB_OC_ACTIVE])
  have hvcount : v.fld (F.USBHUB_OC_COUNT p) = s.fld (F.USBHUB_OC_COUNT p) := by
    rw [hv, State.fld_setFld_ne _ _ _ _ (Or.inr (Or.inl (by simp [F.USBHUB_OC_COUNT, F.USBHUB_OC_ACTIVE])))]
    exact hkept.fld (f := F.USBHUB_OC_COUNT p) (by simp [F.USBHUB_OC_COUNT, usbhubOc_ne_event p, Ne.symm (usbhubPort_ne_oc (k := p) hp)])
  have hover : s.overloaded p = (v.bumpSat (F.USBHUB_OC_COUNT p) (F.USBHUB_OC_SAT p)).raise P.USBHUB E.USBHUB_OVER_CURRENT := by rw [hv, hu, State.overloaded]
  rw [hover]
  refine ⟨?_, ?_, State.event_raise _ _ _ (by decide), State.event_raise_mono _ _ _ _ _ ?_⟩
  · rw [State.flag_raise_ne _ _ _ _ hactive, State.flag_bumpSat_ne _ (Or.inr (Or.inr (by simp [F.USBHUB_OC_COUNT, F.USBHUB_OC_ACTIVE])))
      (Or.inr (Or.inl (by simp [F.USBHUB_OC_SAT, F.USBHUB_OC_ACTIVE]))), hvactive]
  · rw [State.fld_raise_ne _ _ _ _ hcount, State.fld_bumpSat _ (by simp [F.USBHUB_OC_COUNT]) (by simp [F.USBHUB_OC_COUNT, F.USBHUB_OC_SAT]), hvcount]
    rfl
  · have hbumped : KeepsRegs v (v.bumpSat (F.USBHUB_OC_COUNT p) (F.USBHUB_OC_SAT p)) [R.USBHUB_OC p] :=
      (KeepsRegs.refl v _).bumpSat (by simp [F.USBHUB_OC_COUNT]) (by simp [F.USBHUB_OC_SAT])
    rw [hbumped.event _ (by simp [Ne.symm (usbhubOc_ne_event p)]), hvkept.event _ (by simp [Ne.symm (usbhubOc_ne_event p)]), hevent]

end

end Sys2Proof.Machine
end

section
/-! Reset, suspend and resume of a port, and O35 (R470 to R473, R482 to R484). -/
namespace Sys2Proof.Machine

section
variable {s : State} {p : Nat}

theorem portBit_mem_cutRegs (p b : Nat) : (portBitF p b).reg ∈ cutRegs p := List.mem_cons_self

theorem pipeStats_sub_cutRegs (p : Nat) : ∀ a ∈ pipeStats, a ∈ cutRegs p := fun _ h => List.mem_cons_of_mem _ (List.mem_cons_of_mem _ h)

theorem portChange_sub_cutRegs (p : Nat) : ∀ a ∈ [R.USBHUB_PORT p, R.EVT_RAW P.USBHUB], a ∈ cutRegs p := by
  intro a ha
  simp only [List.mem_cons, List.not_mem_nil, or_false] at ha
  rcases ha with rfl | rfl <;> simp [cutRegs]

theorem State.flag_syncSuspended (b : Nat) : s.syncSuspended.flag (portBitF p b) = s.flag (portBitF p b) :=
  s.syncSuspended_keepsRegs.flag (f := portBitF p b) (usbhubPort_notMem_pipeStats p)

theorem State.event_syncSuspended (b : Nat) : s.syncSuspended.event P.USBHUB b = s.event P.USBHUB b :=
  s.syncSuspended_keepsRegs.event b (usbhub_notMem_pipeStats (by decide))

/-- R473: a pipe behind the port shows its suspend bit. -/
theorem State.suspended_behind {u : State} {p : Fin 4} {n : Fin 48} (hkept : u.raw (R.USBH_PIPE_CFG n.val) = s.raw (R.USBH_PIPE_CFG n.val))
    (hport : (s.pipeCfg n.val).port = p.val + 1) : u.syncSuspended.flag (F.USBH_PIPE_STAT_SUSPENDED n.val) = u.portIs p.val 2 := by
  have hcfg : u.fld (F.USBH_PIPE_CFG_PORT n.val) = p.val + 1 := (congrArg (F.USBH_PIPE_CFG_PORT 0).of hkept).trans hport
  rw [State.suspended_syncSuspended _ n.isLt, State.pipeSuspended_behind _ hcfg]

theorem usbhub_ne_pipeCfg (a n : Nat) (ha : P.USBHUB ≤ a) (hn : n < 48) : R.USBH_PIPE_CFG n ≠ a := by
  simp only [R.USBH_PIPE_CFG, P.USBHUB] at ha ⊢
  omega

/-- R471: the bits of a port whose reset has ended. -/
def State.portEnabled (s : State) (p : Nat) : State :=
  (((((s.setFld (portBitF p 4) 0).setFld (portBitF p 2) 0).setFld (portBitF p 1) 1).setFlag (portBitF p 9) (s.portLine p == 1)).setFlag
    (portBitF p 10) (s.portLine p == 3)).portChange p 4

theorem State.opPortReset_connected (hpower : s.portIs p 8 = true) (hconnected : s.portIs p 0 = true) : s.opPortReset p = (s.portEnabled p).syncSuspended :=
  if_neg (by rw [hpower, hconnected]; decide)

theorem State.opPortReset_idle (h : (s.portIs p 8 && s.portIs p 0) = false) : s.opPortReset p = s := if_pos (by rw [h]; rfl)

theorem State.flag_portEnabled (b : Nat) : (s.portEnabled p).flag (portBitF p b) =
    if b = 20 then true else if b = 10 then s.portLine p == 3 else if b = 9 then s.portLine p == 1 else if b = 1 then true else
    if b = 2 ∨ b = 4 then false else s.flag (portBitF p b) := by
  rw [State.portEnabled, State.flag_portChange _ _ _ (by decide), State.flag_setPortBit _ _ _ (by decide), State.flag_setPortBit _ _ _ (by decide),
    State.flag_setPortBit_one _ _ _ (by decide), State.flag_setPortBit_zero _ _ _ (by decide), State.flag_setPortBit_zero _ _ _ (by decide)]
  by_cases h2 : b = 2
  · simp [h2]
  · simp [h2]

theorem State.portEnabled_keepsRegs : KeepsRegs s (s.portEnabled p) (cutRegs p) :=
  ((((((KeepsRegs.refl s _).setFld (portBit_mem_cutRegs p 4)).setFld (portBit_mem_cutRegs p 2)).setFld (portBit_mem_cutRegs p 1)).setFlag
    (portBit_mem_cutRegs p 9)).setFlag (portBit_mem_cutRegs p 10)).trans ((State.portChange_keepsRegs _ p 4).mono (portChange_sub_cutRegs p))

theorem State.portEnabled_rest : s.portEnabled p = { s with regs := (s.portEnabled p).regs } := by
  have hbits (u : State) : u.portChange p 4 = { u with regs := (u.portChange p 4).regs } := rfl
  rw [State.portEnabled, hbits]
  rfl

theorem State.opPortSuspend_enabled (h : s.portIs p 1 = true) : s.opPortSuspend p = (s.setFld (portBitF p 2) 1).syncSuspended := if_pos h

theorem State.opPortSuspend_disabled (h : s.portIs p 1 = false) : s.opPortSuspend p = s := if_neg (by rw [h]; decide)

theorem State.opPortResume_suspended (h : s.portIs p 2 = true) : s.opPortResume p = ((s.setFld (portBitF p 2) 0).portChange p 2).syncSuspended := if_pos h

theorem State.opPortResume_active (h : s.portIs p 2 = false) : s.opPortResume p = s := if_neg (by rw [h]; decide)

/-- R470: the port's power goes, and with no item behind it nothing but its bits, the translator's buffers and the suspend bits follow. -/
theorem State.opClearPortPower_effect {p : Fin 4} (hidle : s.PortIdle p.val) :
    ∃ t, s.opClearPortPower p.val = t ∧ t.portIs p.val 8 = false ∧ t.portIs p.val 0 = false ∧ t.portIs p.val 1 = false ∧ t.portIs p.val 2 = false ∧
      (s.portIs p.val 0 = true → t.flag (portBitF p.val 16) = true ∧ t.event P.USBHUB E.USBHUB_PORT_CHANGE = true) ∧
      t.usb.tt = s.usb.tt.filter (fun b => b.port != p.val) ∧ t.fld (F.USBHUB_TT_NP_USED p.val) = 0 ∧ KeepsRegs s t (cutRegs p.val ++ ttRegs) ∧
      t = { s with regs := t.regs, usb := t.usb } := by
  obtain ⟨u, hu⟩ : ∃ u, u = s.setFld (portBitF p.val 8) 0 := ⟨_, rfl⟩
  have hukept : KeepsRegs s u (cutRegs p.val) := by
    rw [hu]
    exact (KeepsRegs.refl s _).setFld (portBit_mem_cutRegs p.val 8)
  have hurest : u = { s with regs := u.regs } := by rw [hu]; rfl
  have hubits (b : Nat) : u.flag (portBitF p.val b) = if b = 8 then false else s.flag (portBitF p.val b) := by
    rw [hu, State.flag_setPortBit_zero _ _ _ (by decide)]
  have huidle : u.PortIdle p.val := hidle.of_keeps (l := [R.USBHUB_PORT p.val]) (by rw [hu]; exact (KeepsRegs.refl s _).setFld (f := portBitF p.val 8) (by simp [portBitF]))
    (fun n hn => by simp only [List.mem_singleton]; exact usbhub_ne_pipeCfg _ n (by simp only [R.USBHUB_PORT, P.USBHUB]; omega) hn) (by rw [hurest]) (by rw [hurest])
  obtain ⟨v, hv, hvkept, hvrest, hvbits, hvreports⟩ := State.disconnect_effect huidle
  have hcleared : s.opClearPortPower p.val = v.freeTt fun b => b.port == p.val := by rw [State.opClearPortPower, ← hu, hv]
  have hfreed := v.freeTt_keepsRegs fun b => b.port == p.val
  have hrest := v.freeTt_rest fun b => b.port == p.val
  have hport : ∀ b, (portBitF p.val b).reg ∉ ttRegs := by
    intro b hmem
    obtain ⟨i, hi, heq⟩ := List.mem_map.1 hmem
    have hlt := p.isLt
    have heq' : R.USBHUB_TT i = R.USBHUB_PORT p.val := heq
    simp only [R.USBHUB_TT, R.USBHUB_PORT] at heq'
    omega
  have hbits (b : Nat) (hb : b ≠ 16) : (v.freeTt fun b => b.port == p.val).flag (portBitF p.val b) =
      if b = 0 ∨ b = 1 ∨ b = 2 ∨ b = 9 ∨ b = 10 then false else u.flag (portBitF p.val b) := by rw [hfreed.flag (hport b), hvbits b hb]
  refine ⟨_, hcleared, ?_, ?_, ?_, ?_, fun hon => ?_, ?_, v.used_freeTt_port p, ?_, ?_⟩
  · rw [State.portIs, hbits 8 (by decide), hubits 8]
    rfl
  · exact hbits 0 (by decide)
  · exact hbits 1 (by decide)
  · exact hbits 2 (by decide)
  · obtain ⟨hflag, hevent⟩ := hvreports ((hubits 0).trans hon)
    exact ⟨(hfreed.flag (hport 16)).trans hflag, (hfreed.event _ (by decide)).trans hevent⟩
  · rw [State.tt_freeTt, hvrest, hurest]
    rfl
  · exact ((hukept.trans hvkept).mono fun a ha => List.mem_append_left _ ha).trans (hfreed.mono fun a ha => List.mem_append_right _ ha)
  · rw [hrest, hvrest, hurest]

end

/-- The pages of the registers that a port which disconnects reaches. -/
theorem cutRegs_pages (p : Fin 4) : ∀ a ∈ cutRegs p.val, pageBase a ∈ [P.USBH, P.USBHUB] := by
  revert p
  decide

end Sys2Proof.Machine
end

section
/-! O35: the commands of a hub port (R470 to R473, R482 to R484). -/
namespace Sys2Proof.Machine

theorem usbhubPort_apart (k p : Fin 4) (h : k.val ≠ p.val) : R.USBHUB_PORT k.val ∉ cutRegs p.val ++ ttRegs := by
  revert k p
  decide

theorem portBit_notMem_pipeEndRegs (p b : Nat) : (portBitF p b).reg ∉ pipeEndRegs := by
  intro h
  rcases List.mem_cons.1 h with h | h
  · simp only [portBitF, R.USBHUB_PORT, R.EVT_RAW, P.USBH] at h
    omega
  · exact usbhubPort_notMem_pipeStats p h

theorem usbhubOc_notMem_pipeEndRegs (p : Fin 4) : R.USBHUB_OC p.val ∉ pipeEndRegs := by
  revert p
  decide

theorem pipeCfg_notMem_overloadRegs (p : Nat) {n : Nat} (hn : n < 48) : R.USBH_PIPE_CFG n ∉ overloadRegs p := by
  simp only [overloadRegs, List.mem_cons, List.not_mem_nil, or_false, R.USBH_PIPE_CFG, R.USBHUB_PORT, R.USBHUB_OC, R.EVT_RAW, P.USBHUB]
  omega

theorem overloadRegs_pages (p : Fin 4) : ∀ a ∈ overloadRegs p.val, pageBase a ∈ [P.USBH, P.USBHUB] := by
  revert p
  decide

/-- R470, R483, R484: an over-current, with what it does to the items behind the port. -/
theorem State.overCurrent_effect {s : State} (p : Fin 4) (hkeyed : s.ChannelsKeyed) :
    ∃ t, s.opOverCurrent p.val = t ∧ t.portIs p.val 8 = false ∧ t.portIs p.val 1 = false ∧ t.portIs p.val 3 = true ∧
      t.portIs p.val 0 = s.portIs p.val 0 ∧ t.flag (portBitF p.val 19) = true ∧ t.flag (F.USBHUB_OC_ACTIVE p.val) = true ∧
      t.fld (F.USBHUB_OC_COUNT p.val) = min (2 ^ (F.USBHUB_OC_COUNT 0).width - 1) (s.fld (F.USBHUB_OC_COUNT p.val) + 1) ∧
      t.event P.USBHUB E.USBHUB_OVER_CURRENT = true ∧ t.event P.USBHUB E.USBHUB_PORT_CHANGE = true ∧
      (∀ n : Fin 48, (s.pipeCfg n.val).port = p.val + 1 → (s.usbItem (0x40 + n.val)).all (fun x => t.itemStatus x.1 x.2.2.index == some (4, 4)) = true) ∧
      KeepsPages s t [P.USBH, P.USBHUB] ∧ t = { s with regs := t.regs, heddle := t.heddle, usb := t.usb } := by
  obtain ⟨hactive, hcount, hovercurrent, hchange⟩ := State.counts_overloaded (s := s) p.isLt
  have hbits := State.flag_overloaded (s := s) p.isLt
  have hkept := s.overloaded_keepsRegs p.val
  have hrest := s.overloaded_rest p.val
  rw [State.opOverCurrent_eq]
  obtain ⟨u, hu⟩ : ∃ u, u = s.overloaded p.val := ⟨_, rfl⟩
  rw [← hu] at hactive hcount hovercurrent hchange hbits hkept hrest ⊢
  have hheddle : u.heddle = s.heddle := by rw [hrest]
  have hukeyed : u.ChannelsKeyed := by
    intro e he
    rw [hheddle] at he
    rw [State.hch, hheddle]
    exact hkeyed e he
  obtain ⟨-, hgone, hleft⟩ := State.itemsGone_portGone hukeyed p.val
  have hoc : R.USBHUB_OC p.val ∉ pipeEndRegs := usbhubOc_notMem_pipeEndRegs p
  have hevents : R.EVT_RAW P.USBHUB ∉ pipeEndRegs := by decide
  have hport : ∀ b, (u.portGone p.val).flag (portBitF p.val b) = u.flag (portBitF p.val b) := fun b => hgone.flag (portBit_notMem_pipeEndRegs p.val b)
  refine ⟨_, rfl, (hport 8).trans (hbits 8), (hport 1).trans (hbits 1), (hport 3).trans (hbits 3), (hport 0).trans (hbits 0), (hport 19).trans (hbits 19),
    (hgone.flag (f := F.USBHUB_OC_ACTIVE p.val) hoc).trans hactive, (hgone.fld (f := F.USBHUB_OC_COUNT p.val) hoc).trans hcount, (hgone.event _ hevents).trans hovercurrent,
    (hgone.event _ hevents).trans hchange, fun n hn => ?_, fun a ha => ?_, ?_⟩
  · have hcfg : u.fld (F.USBH_PIPE_CFG_PORT n.val) = p.val + 1 :=
      (congrArg (F.USBH_PIPE_CFG_PORT 0).of (hkept (R.USBH_PIPE_CFG n.val) (pipeCfg_notMem_overloadRegs p.val n.isLt))).trans hn
    have hitem : u.usbItem (0x40 + n.val) = s.usbItem (0x40 + n.val) := State.usbItem_congr hheddle (by rw [hrest]) _
    cases hfound : s.usbItem (0x40 + n.val) with
    | none => rfl
    | some x =>
      obtain ⟨c, k, it⟩ := x
      exact beq_iff_eq.2 (State.ended_portGone hukeyed n.isLt hcfg (hitem.trans hfound))
  · have hfirst : a ∉ overloadRegs p.val := fun hmem => ha (overloadRegs_pages p a hmem)
    have hsecond : a ∉ pipeEndRegs := by
      have hpages : ∀ a ∈ pipeEndRegs, pageBase a ∈ [P.USBH, P.USBHUB] := by decide
      exact fun hmem => ha (hpages a hmem)
    rw [hgone a hsecond, hkept a hfirst]
  · obtain ⟨v, hv⟩ : ∃ v, v = u.portGone p.val := ⟨_, rfl⟩
    rw [← hv] at hleft ⊢
    rw [hleft, hrest]

section
variable {s : State} (p : Fin 4)

/-- The state in which something else is attached to the port. -/
theorem State.setLine_cases (v : Nat) : ∃ u, u = s.setLine p.val v ∧ u.portLine p.val = v ∧ (∀ f, u.flag f = s.flag f) ∧ KeepsRegs s u [] ∧
    u = { s with usb := { s.usb with lines := u.usb.lines } } :=
  ⟨_, rfl, s.portLine_setLine p.val v, fun _ => rfl, (KeepsRegs.refl s _).of_regs rfl, rfl⟩

theorem State.portPower_connects (line : UsbLine) (hoc : s.flag (F.USBHUB_OC_ACTIVE p.val) = false) (hapart : s.portIs p.val 0 = false) :
    ∃ t, (s.setLine p.val (lineCode line)).opPortPower p.val = t ∧ t.portIs p.val 8 = true ∧ t.portIs p.val 0 = true ∧
      t.portIs p.val 9 = decide (line = .low) ∧ t.flag (portBitF p.val 16) = true ∧ t.portLine p.val = lineCode line ∧
      t.event P.USBHUB E.USBHUB_PORT_CHANGE = true ∧
      (∀ b : Fin 32, b.val ≠ 8 → b.val ≠ 0 → b.val ≠ 9 → b.val ≠ 16 → t.flag (portBitF p.val b.val) = s.flag (portBitF p.val b.val)) ∧
      KeepsRegs s t [R.USBHUB_PORT p.val, R.EVT_RAW P.USBHUB] ∧ t = { s with regs := t.regs, usb := { s.usb with lines := t.usb.lines } } := by
  obtain ⟨u, hu, huline, huflags, hukept, hurest⟩ := State.setLine_cases (s := s) p (lineCode line)
  rw [← hu]
  have hflags := u.flag_portConnected p.val
  refine ⟨_, State.opPortPower_connects ((huflags _).trans hoc) (by rw [huline]; exact lineCode_ne_zero line) ((huflags _).trans hapart), hflags 8, hflags 0, ?_,
    hflags 16, ?_, u.portConnected_event p.val, fun b h8 h0 h9 h16 => ?_, ?_, ?_⟩
  · exact (hflags 9).trans (by rw [huline]; exact lineCode_low line)
  · rw [State.portConnected_rest]
    exact huline
  · rw [hflags, if_neg h16, if_neg h9, if_neg (by simp [h0, h8]), huflags]
  · exact (hukept.mono (by simp)).trans (u.portConnected_keepsRegs p.val)
  · rw [State.portConnected_rest, hurest]

theorem State.portPower_refused (v : Nat) (hoc : s.flag (F.USBHUB_OC_ACTIVE p.val) = true) :
    ∃ t, (s.setLine p.val v).opPortPower p.val = t ∧ t.portIs p.val 8 = false ∧ t.portIs p.val 3 = true ∧
      KeepsRegs s t [R.USBHUB_PORT p.val] ∧ t = { s with regs := t.regs, usb := { s.usb with lines := t.usb.lines } } := by
  obtain ⟨u, hu, -, huflags, hukept, hurest⟩ := State.setLine_cases (s := s) p v
  rw [← hu]
  refine ⟨_, if_pos ((huflags _).trans hoc), ?_, State.flag_setPortBit_one _ _ 3 (by decide), ?_, ?_⟩
  · exact (State.flag_setPortBit_one _ _ 8 (by decide)).trans (State.flag_setPortBit_zero _ _ 8 (by decide))
  · exact ((hukept.mono (by simp)).setFld (f := portBitF p.val 8) (by simp [portBitF])).setFld (f := portBitF p.val 3) (by simp [portBitF])
  · rw [hurest]
    rfl

theorem State.portPower_empty (hoc : s.flag (F.USBHUB_OC_ACTIVE p.val) = false) :
    ∃ t, (s.setLine p.val 0).opPortPower p.val = t ∧ t.portIs p.val 8 = true ∧ t.portLine p.val = 0 ∧
      (∀ b : Fin 32, b.val ≠ 8 → t.flag (portBitF p.val b.val) = s.flag (portBitF p.val b.val)) ∧
      KeepsRegs s t [R.USBHUB_PORT p.val] ∧ t = { s with regs := t.regs, usb := { s.usb with lines := t.usb.lines } } := by
  obtain ⟨u, hu, huline, huflags, hukept, hurest⟩ := State.setLine_cases (s := s) p 0
  rw [← hu]
  refine ⟨_, State.opPortPower_empty ((huflags _).trans hoc) huline, State.flag_setPortBit_one _ _ 8 (by decide), huline, fun b hb => ?_, ?_, ?_⟩
  · rw [State.flag_setPortBit_one _ _ _ (by decide), if_neg hb, huflags]
  · exact (hukept.mono (by simp)).setFld (f := portBitF p.val 8) (by simp [portBitF])
  · rw [hurest]
    rfl

theorem State.overCurrentClear_effect :
    ∃ t, s.opOverCurrentClear p.val = t ∧ t.flag (F.USBHUB_OC_ACTIVE p.val) = false ∧ t.portIs p.val 3 = false ∧
      t.portIs p.val 8 = s.portIs p.val 8 ∧ t.fld (F.USBHUB_OC_COUNT p.val) = s.fld (F.USBHUB_OC_COUNT p.val) ∧
      KeepsRegs s t [R.USBHUB_PORT p.val, R.USBHUB_OC p.val] ∧ t = { s with regs := t.regs } := by
  have hactive : (F.USBHUB_OC_ACTIVE p.val).reg ≠ (portBitF p.val 3).reg := Ne.symm (usbhubPort_ne_oc p.isLt)
  have hcount : (F.USBHUB_OC_COUNT p.val).reg ≠ (portBitF p.val 3).reg := hactive
  refine ⟨_, rfl, ?_, State.flag_setPortBit_zero _ _ 3 (by decide), ?_, ?_, ?_, rfl⟩
  · rw [State.opOverCurrentClear, State.flag_setFld_ne _ _ _ _ (Or.inl hactive)]
    exact State.flag_setFlag s _ false (by simp [F.USBHUB_OC_ACTIVE]) (by simp [F.USBHUB_OC_ACTIVE])
  · exact (State.flag_setPortBit_zero _ _ 8 (by decide)).trans (State.flag_setFld_ne _ _ _ _ (Or.inl (Ne.symm hactive)))
  · rw [State.opOverCurrentClear, State.fld_setFld_ne _ _ _ _ (Or.inl hcount)]
    exact State.fld_setFld_ne _ _ _ _ (Or.inr (Or.inl (by simp [F.USBHUB_OC_COUNT, F.USBHUB_OC_ACTIVE])))
  · exact ((KeepsRegs.refl s _).setFld (f := F.USBHUB_OC_ACTIVE p.val) (by simp [F.USBHUB_OC_ACTIVE])).setFld (f := portBitF p.val 3) (by simp [portBitF])

theorem State.portReset_effect (line : UsbLine) (hpower : s.portIs p.val 8 = true) (hconnected : s.portIs p.val 0 = true) :
    ∃ t, (s.setLine p.val (lineCode line)).opPortReset p.val = t ∧ t.portIs p.val 1 = true ∧ t.portIs p.val 2 = false ∧ t.portIs p.val 4 = false ∧
      t.portIs p.val 9 = decide (line = .low) ∧ t.portIs p.val 10 = decide (line = .high) ∧ t.flag (portBitF p.val 20) = true ∧
      t.event P.USBHUB E.USBHUB_PORT_CHANGE = true ∧ KeepsRegs s t (cutRegs p.val) ∧
      t = { s with regs := t.regs, usb := { s.usb with lines := t.usb.lines } } := by
  obtain ⟨u, hu, huline, huflags, hukept, hurest⟩ := State.setLine_cases (s := s) p (lineCode line)
  rw [← hu]
  have hflags (b : Nat) := (State.flag_syncSuspended (s := u.portEnabled p.val) (p := p.val) b).trans (State.flag_portEnabled b)
  refine ⟨_, State.opPortReset_connected ((huflags _).trans hpower) ((huflags _).trans hconnected), hflags 1, hflags 2, hflags 4, ?_, ?_, hflags 20, ?_, ?_, ?_⟩
  · exact (hflags 9).trans (by rw [huline]; exact lineCode_low line)
  · exact (hflags 10).trans (by rw [huline]; exact lineCode_high line)
  · rw [State.event_syncSuspended]
    exact State.event_portChange _ _ _
  · exact ((hukept.mono (by simp)).trans State.portEnabled_keepsRegs).trans ((State.syncSuspended_keepsRegs _).mono (pipeStats_sub_cutRegs p.val))
  · rw [State.syncSuspended_rest, State.portEnabled_rest, hurest]

theorem State.portSuspend_effect (henabled : s.portIs p.val 1 = true) :
    ∃ t, s.opPortSuspend p.val = t ∧ t.portIs p.val 2 = true ∧
      (∀ n : Fin 48, (s.pipeCfg n.val).port = p.val + 1 → t.flag (F.USBH_PIPE_STAT_SUSPENDED n.val) = true) ∧
      (∀ b : Fin 32, b.val ≠ 2 → t.flag (portBitF p.val b.val) = s.flag (portBitF p.val b.val)) ∧
      KeepsRegs s t (R.USBHUB_PORT p.val :: pipeStats) ∧ t = { s with regs := t.regs } := by
  have hbit (b : Nat) := s.flag_setPortBit_one p.val b (c := 2) (by decide)
  have hset : KeepsRegs s (s.setFld (portBitF p.val 2) 1) [R.USBHUB_PORT p.val] := (KeepsRegs.refl s _).setFld (f := portBitF p.val 2) (by simp [portBitF])
  refine ⟨_, State.opPortSuspend_enabled henabled, (State.flag_syncSuspended 2).trans (hbit 2), fun n hn => ?_, fun b hb => ?_, ?_, ?_⟩
  · have hcfg : R.USBH_PIPE_CFG n.val ∉ [R.USBHUB_PORT p.val] := fun hmem => pipeCfg_notMem_hub p.val n.val n.isLt (List.mem_cons.2 (.inl (List.mem_singleton.1 hmem)))
    rw [State.suspended_behind (hset _ hcfg) hn]
    exact hbit 2
  · rw [State.flag_syncSuspended, hbit b.val, if_neg hb]
  · exact (hset.mono fun a ha => by rw [List.mem_singleton.1 ha]; exact List.mem_cons_self).trans
      ((State.syncSuspended_keepsRegs _).mono fun a ha => List.mem_cons_of_mem _ ha)
  · rw [State.syncSuspended_rest]
    rfl

theorem State.portResume_effect (hsuspended : s.portIs p.val 2 = true) :
    ∃ t, s.opPortResume p.val = t ∧ t.portIs p.val 2 = false ∧ t.flag (portBitF p.val 18) = true ∧
      t.event P.USBHUB E.USBHUB_PORT_CHANGE = true ∧
      (∀ n : Fin 48, (s.pipeCfg n.val).port = p.val + 1 → t.flag (F.USBH_PIPE_STAT_SUSPENDED n.val) = false) ∧
      KeepsRegs s t (cutRegs p.val) ∧ t = { s with regs := t.regs } := by
  have hchanged : KeepsRegs s ((s.setFld (portBitF p.val 2) 0).portChange p.val 2) [R.USBHUB_PORT p.val, R.EVT_RAW P.USBHUB] :=
    ((KeepsRegs.refl s _).setFld (f := portBitF p.val 2) (by simp [portBitF])).trans (State.portChange_keepsRegs _ _ _)
  have hbits (b : Nat) : ((s.setFld (portBitF p.val 2) 0).portChange p.val 2).flag (portBitF p.val b) =
      if b = 18 then true else if b = 2 then false else s.flag (portBitF p.val b) := by
    rw [State.flag_portChange _ _ _ (by decide), State.flag_setPortBit_zero _ _ _ (by decide)]
  refine ⟨_, State.opPortResume_suspended hsuspended, (State.flag_syncSuspended 2).trans (hbits 2), (State.flag_syncSuspended 18).trans (hbits 18), ?_,
    fun n hn => ?_, ?_, ?_⟩
  · rw [State.event_syncSuspended]
    exact State.event_portChange _ _ _
  · rw [State.suspended_behind (hchanged _ (pipeCfg_notMem_hub p.val n.val n.isLt)) hn]
    exact hbits 2
  · exact (hchanged.mono (portChange_sub_cutRegs p.val)).trans ((State.syncSuspended_keepsRegs _).mono (pipeStats_sub_cutRegs p.val))
  · rw [State.syncSuspended_rest]
    rfl

end

/-- Settles O35: each command sets its bits of the port, and the suspend bits, buffers and items of the pipes behind it follow. -/
theorem usbHubPortPowerResetAndSuspend : Obligations.UsbHubPortPowerResetAndSuspend := by
  refine ⟨?_, ?_, ?_, ?_, ?_, ?_, ?_, ?_, ?_, ?_, ?_, ?_, ?_, ?_⟩
  · intro s p line hlive hoc hapart
    exact (State.portPower_connects p line hoc hapart).imp fun t ⟨ht, heffect⟩ => ⟨congrArg Host.Outcome.next ((if_hubLive hlive).trans ht), heffect⟩
  · intro s p line hlive hoc
    obtain ⟨v, hv⟩ : ∃ v, exec (.portPower p line) s = .next (if ! s.usbLive P.USBHUB then s else (s.setLine p.val v).opPortPower p.val) := ⟨_, rfl⟩
    exact (State.portPower_refused p v hoc).imp fun t ⟨ht, heffect⟩ => ⟨hv.trans (congrArg Host.Outcome.next ((if_hubLive hlive).trans ht)), heffect⟩
  · intro s p hlive hidle
    obtain ⟨t, ht, hpower, hconnected, henabled, hsuspended, hreports, htt, hused, hkeeps, hrest⟩ := State.opClearPortPower_effect hidle
    have htts : ∀ a ∈ ttRegs, pageBase a ∈ [P.USBH, P.USBHUB] := by decide
    exact ⟨t, congrArg Host.Outcome.next ((if_hubLive hlive).trans ht), hpower, hconnected, henabled, hsuspended, hreports, htt, hused,
      fun k hk => hkeeps _ (usbhubPort_apart k p hk), hkeeps.pages fun a ha => (List.mem_append.1 ha).elim (cutRegs_pages p a) (htts a), hrest⟩
  · intro s p hlive hkeyed
    exact (State.overCurrent_effect p hkeyed.1).imp fun t ⟨ht, heffect⟩ => ⟨congrArg Host.Outcome.next ((if_hubLive hlive).trans ht), heffect⟩
  · intro s p hlive hbank
    have hrun : ¬ ((! s.usbLive P.USBHUB) || ! s.bankLive 2) = true := by rw [hlive, hbank]; decide
    exact (State.overCurrentClear_effect p).imp fun t ⟨ht, heffect⟩ => ⟨congrArg Host.Outcome.next ((if_neg hrun).trans ht), heffect⟩
  · intro s p line hlive hpower hconnected
    have hlined : (if s.portIs p.val 8 && s.portIs p.val 0 then s.setLine p.val (lineCode line) else s) = s.setLine p.val (lineCode line) :=
      if_pos (by rw [hpower, hconnected]; rfl)
    exact (State.portReset_effect p line hpower hconnected).imp fun t ⟨ht, heffect⟩ =>
      ⟨congrArg Host.Outcome.next ((if_hubLive hlive).trans (by rw [hlined]; exact ht)), heffect⟩
  · intro s p hlive henabled
    exact (State.portSuspend_effect p henabled).imp fun t ⟨ht, heffect⟩ => ⟨congrArg Host.Outcome.next ((if_hubLive hlive).trans ht), heffect⟩
  · intro s p hlive hsuspended
    exact (State.portResume_effect p hsuspended).imp fun t ⟨ht, heffect⟩ => ⟨congrArg Host.Outcome.next ((if_hubLive hlive).trans ht), heffect⟩
  · intro s p hlive hoc
    exact (State.portPower_empty p hoc).imp fun t ⟨ht, heffect⟩ => ⟨congrArg Host.Outcome.next ((if_hubLive hlive).trans ht), heffect⟩
  · intro s p line hlive hoff
    have hsame : (if s.portIs p.val 8 && s.portIs p.val 0 then s.setLine p.val (lineCode line) else s) = s := if_neg (by rw [hoff]; decide)
    exact ⟨s, congrArg Host.Outcome.next ((if_hubLive hlive).trans (by rw [hsame]; exact State.opPortReset_idle hoff)), rfl⟩
  · rintro s p (hdead | hoff)
    · exact ⟨s, congrArg Host.Outcome.next (if_hubDead hdead), rfl⟩
    · exact ⟨s, congrArg Host.Outcome.next ((congrArg (ite _ s) (State.opPortSuspend_disabled hoff)).trans (ite_self s)), rfl⟩
  · rintro s p (hdead | hoff)
    · exact ⟨s, congrArg Host.Outcome.next (if_hubDead hdead), rfl⟩
    · exact ⟨s, congrArg Host.Outcome.next ((congrArg (ite _ s) (State.opPortResume_active hoff)).trans (ite_self s)), rfl⟩
  · intro s p hdead
    have hrun : ((! s.usbLive P.USBHUB) || ! s.bankLive 2) = true := by
      rcases hdead with h | h <;> rw [h] <;> simp
    exact ⟨s, congrArg Host.Outcome.next (if_pos hrun), rfl⟩
  · intro s p line shown hdead
    exact ⟨s, congrArg Host.Outcome.next (if_hubDead hdead), rfl, congrArg Host.Outcome.next (if_hubDead hdead), congrArg Host.Outcome.next (if_hubDead hdead),
      congrArg Host.Outcome.next (if_hubDead hdead)⟩

end Sys2Proof.Machine
end


section
/-! The hub's translators, detachment and requests (R469, R470, R472, R484). -/
namespace Sys2Proof.Machine

/-! ### Translators -/

section
variable (s : State) (p : Fin 4)

theorem State.clearTt_effect (addr ep : Nat) (dirIn : Bool) :
    ∃ t, s.opClearTt p.val addr ep dirIn = t ∧
      t.usb.tt = s.usb.tt.filter (fun b => ! (b.port == p.val && b.addr == addr && b.ep == ep && (b.control || b.dirIn == dirIn))) ∧
      (∀ b ∈ s.usb.tt, b.port = p.val → b.addr = addr → b.ep = ep → (b.control = true ∨ b.dirIn = dirIn) → (t.pipe b.pipe).split = false) ∧
      KeepsRegs s t ttRegs ∧ t = { s with regs := t.regs, usb := { s.usb with tt := t.usb.tt, pipes := t.usb.pipes } } := by
  refine ⟨_, rfl, s.tt_freeTt _, fun b hb hport haddr hep hdir => ?_, s.freeTt_keepsRegs _, ?_⟩
  · refine s.split_freeTt _ hb ?_
    simpa [hport, haddr, hep] using hdir
  · exact (s.freeTt_rest _).trans (by rw [← s.tt_freeTt]; rfl)

/-- One step of the loop that drops the start-splits behind a port. -/
def State.startDropped (p n : Nat) (t : State) : State :=
  if t.fld (F.USBH_PIPE_CFG_PORT n) = p + 1 then t.setPipe n { t.pipe n with since := none } else t

theorem State.opResetTt_eq (p : Nat) : s.opResetTt p = forEach 48 (State.startDropped p) (s.freeTt fun b => b.port == p) := rfl

theorem State.startDropped_rest (p n : Nat) (t : State) :
    State.startDropped p n t = { t with usb := { t.usb with pipes := (State.startDropped p n t).usb.pipes } } := by
  unfold State.startDropped
  split <;> rfl

theorem forEach_pipes_rest {f : Nat → State → State} (hf : ∀ n t, f n t = { t with usb := { t.usb with pipes := (f n t).usb.pipes } }) (m : Nat) (s : State) :
    forEach m f s = { s with usb := { s.usb with pipes := (forEach m f s).usb.pipes } } := by
  induction m with
  | zero => rfl
  | succ m ih =>
    rw [forEach_succ]
    obtain ⟨t, ht⟩ : ∃ t, t = forEach m f s := ⟨_, rfl⟩
    rw [← ht] at ih ⊢
    rw [hf m t, ih]

/-- The port of a pipe, with the start-split that it waits on. -/
def State.startPart (n : Nat) (t : State) : Nat × Option Nat := (t.fld (F.USBH_PIPE_CFG_PORT n), (t.pipe n).since)

theorem State.startPart_dropped_ne {i n : Nat} (p : Nat) (h : i ≠ n) (t : State) : State.startPart n (State.startDropped p i t) = State.startPart n t := by
  unfold State.startDropped
  split
  · rw [State.startPart, State.pipe_setPipe, if_neg (Ne.symm h)]
    rfl
  · rfl

theorem pipeCfg_notMem_ttRegs (n : Fin 48) : R.USBH_PIPE_CFG n.val ∉ ttRegs := by
  revert n
  decide

theorem State.resetTt_effect :
    ∃ t, s.opResetTt p.val = t ∧ t.usb.tt = s.usb.tt.filter (fun b => b.port != p.val) ∧ t.fld (F.USBHUB_TT_NP_USED p.val) = 0 ∧
      (∀ n : Fin 48, (s.pipeCfg n.val).port = p.val + 1 → (t.pipe n.val).since = none) ∧
      KeepsRegs s t ttRegs ∧ t = { s with regs := t.regs, usb := { s.usb with tt := t.usb.tt, pipes := t.usb.pipes } } := by
  have hkept := s.freeTt_keepsRegs fun b => b.port == p.val
  have hfreed := s.freeTt_rest fun b => b.port == p.val
  have hused := s.used_freeTt_port p
  rw [State.opResetTt_eq]
  obtain ⟨u, hu⟩ : ∃ u, u = s.freeTt fun b => b.port == p.val := ⟨_, rfl⟩
  rw [← hu] at hkept hfreed hused ⊢
  have hrest := forEach_pipes_rest (State.startDropped_rest p.val) 48 u
  have hdropped (n : Fin 48) (hn : (s.pipeCfg n.val).port = p.val + 1) : ((forEach 48 (State.startDropped p.val) u).pipe n.val).since = none := by
    obtain ⟨v, hv, hlast⟩ := forEach_part (part := State.startPart n.val) (f := State.startDropped p.val) n.isLt
      (fun i t hi => State.startPart_dropped_ne p.val hi t) u
    have hcfg : v.fld (F.USBH_PIPE_CFG_PORT n.val) = p.val + 1 :=
      (congrArg Prod.fst hv).trans ((congrArg (F.USBH_PIPE_CFG_PORT 0).of (hkept _ (pipeCfg_notMem_ttRegs n))).trans hn)
    have hstep : State.startDropped p.val n.val v = v.setPipe n.val { v.pipe n.val with since := none } := if_pos hcfg
    have hsince := congrArg Prod.snd hlast
    rw [hstep, State.startPart, State.startPart, State.pipe_setPipe, if_pos rfl] at hsince
    exact hsince
  obtain ⟨t, ht⟩ : ∃ t, t = forEach 48 (State.startDropped p.val) u := ⟨_, rfl⟩
  rw [← ht] at hrest hdropped ⊢
  have hregs : t.regs = u.regs := by rw [hrest]
  have htt : t.usb.tt = s.usb.tt.filter (fun b => b.port != p.val) := by
    rw [hrest, hfreed]
    rfl
  refine ⟨t, rfl, htt, ?_, hdropped, hkept.of_regs hregs, ?_⟩
  · rw [← hused, State.fld, State.fld, State.raw, State.raw, hregs]
  · rw [htt]
    exact hrest.trans (by rw [hregs, hfreed]; rfl)

/-- R484: a device leaves a port, and no pipe behind it has an item in progress. -/
theorem State.detached_effect (hidle : s.PortIdle p.val) :
    ∃ t, s.opDetached p.val = t ∧ t.portLine p.val = 0 ∧ t.portIs p.val 0 = false ∧ t.portIs p.val 1 = false ∧
      t.portIs p.val 8 = s.portIs p.val 8 ∧ (s.portIs p.val 0 = true → t.event P.USBHUB E.USBHUB_PORT_CHANGE = true) ∧
      (∀ k : Fin 4, k.val ≠ p.val → t.raw (R.USBHUB_PORT k.val) = s.raw (R.USBHUB_PORT k.val)) ∧
      KeepsRegs s t (cutRegs p.val) ∧ t = { s with regs := t.regs, usb := { s.usb with lines := t.usb.lines } } := by
  obtain ⟨u, hu, huline, huflags, hukept, hurest⟩ := State.setLine_cases (s := s) p 0
  have huidle : u.PortIdle p.val := hidle.of_keeps hukept (fun _ _ => by simp) (by rw [hurest]) (by rw [hurest])
  obtain ⟨t, ht, hkeeps, hrest, hbits, hreports⟩ := State.disconnect_effect huidle
  have hall : KeepsRegs s t (cutRegs p.val) := (hukept.mono (by simp)).trans hkeeps
  refine ⟨t, by rw [State.opDetached, ← hu, ht], ?_, hbits 0 (by decide), hbits 1 (by decide), (hbits 8 (by decide)).trans (huflags _),
    fun hon => (hreports ((huflags _).trans hon)).2, fun k hk => hall _ fun hmem => usbhubPort_apart k p hk (List.mem_append_left _ hmem), hall, ?_⟩
  · rw [hrest]
    exact huline
  · rw [hrest, hurest]

end

/-! ### Requests -/

/-- A setup packet as a number: its five fields. -/
def setupNat (ty req value index len : Nat) : Nat := ty + 2 ^ 8 * req + 2 ^ 16 * value + 2 ^ 32 * index + 2 ^ 48 * len

/-- The hub's answer to a request, before it is cut. -/
def hubAnswer (s : State) (ty req value index : Nat) : Option (State × List Byte) :=
  if ty / 32 % 4 = 0 then hubStandard s ty req value index else hubClass s ty req value index

theorem hubRequest_setup (s : State) {ty req value index len : Nat} (hty : ty < 2 ^ 8) (hreq : req < 2 ^ 8) (hvalue : value < 2 ^ 16) (hindex : index < 2 ^ 16)
    (hlen : len < 2 ^ 16) : hubRequest s (setupNat ty req value index len) = (hubAnswer s ty req value index).map fun x => (x.1, x.2.take len) := by
  have h0 : setupNat ty req value index len % 256 = ty := by unfold setupNat; omega
  have h1 : setupNat ty req value index len / 2 ^ 8 % 256 = req := by unfold setupNat; omega
  have h2 : setupNat ty req value index len / 2 ^ 16 % 2 ^ 16 = value := by unfold setupNat; omega
  have h3 : setupNat ty req value index len / 2 ^ 32 % 2 ^ 16 = index := by unfold setupNat; omega
  have h4 : setupNat ty req value index len / 2 ^ 48 % 2 ^ 16 = len := by unfold setupNat; omega
  rw [hubRequest, h0, h1, h2, h3, h4, hubAnswer]

/-- What the command leaves of a request that the hub answers. -/
theorem exec_hubRequest {s t : State} {d : List Byte} {ty req value index len : Nat} {setup : BitVec 64} (hlive : s.usbLive P.USBHUB = true)
    (hsetup : setup.toNat = setupNat ty req value index len) (hty : ty < 2 ^ 8) (hreq : req < 2 ^ 8) (hvalue : value < 2 ^ 16) (hindex : index < 2 ^ 16)
    (hlen : len < 2 ^ 16) (hanswer : hubAnswer s ty req value index = some (t, d)) : exec (.hubStandardRequest setup) s = .next t := by
  refine congrArg Host.Outcome.next ((if_hubLive hlive).trans ?_)
  rw [hsetup, hubRequest_setup s hty hreq hvalue hindex hlen, hanswer]
  rfl

theorem exec_hubRequest_nothing {s : State} {setup : BitVec 64} (h : s.usbLive P.USBHUB = false ∨ hubRequest s setup.toNat = none) :
    exec (.hubStandardRequest setup) s = .next s := by
  refine congrArg Host.Outcome.next ?_
  rcases h with hdead | hstall
  · exact if_hubDead hdead
  · rw [hstall]
    exact ite_self s

section
variable (s : State)

/-- SET_ADDRESS. -/
theorem hubAnswer_setAddress (addr : Nat) : hubAnswer s 0 5 addr 0 =
    some ((s.setFld F.USBHUB_STAT_ADDR (addr % 128)).setFld F.USBH_STAT_HUB_ADDR (addr % 128), []) := rfl

/-- SET_CONFIGURATION. -/
theorem hubAnswer_setConfiguration (cfg : Bool) : hubAnswer s 0 9 (b2n cfg) 0 =
    some ((({ s with usb := { s.usb with hubToggle := false, hubHalt := false } } : State).setFlag F.USBHUB_STAT_CONFIGURED cfg).setFld F.USBHUB_STAT_ALT 0, []) := by
  cases cfg <;> rfl

/-- GET_DESCRIPTOR of the device. -/
theorem hubAnswer_getDescriptor (index : Nat) : hubAnswer s 0x80 6 256 index = some (s, hubDevice s) := rfl

/-- SetPortFeature(PORT_POWER). -/
theorem hubAnswer_setPortPower (p : Fin 4) : hubAnswer s 0x23 3 8 (p.val + 1) = some (s.opPortPower p.val, []) := by
  fin_cases p <;> rfl

/-- ClearPortFeature of a change bit. -/
theorem hubAnswer_clearPortChange (p : Fin 4) (feature : Fin 5) : hubAnswer s 0x23 1 (16 + feature.val) (p.val + 1) =
    some (s.setFld (portBitF p.val (16 + feature.val)) 0, []) := by
  fin_cases p <;> fin_cases feature <;> rfl

end

/-- Settles O36: the translators' commands free what they name, and a request does what its five fields say. -/
theorem usbHubRequestsAndTranslators : Obligations.UsbHubRequestsAndTranslators := by
  refine ⟨?_, ?_, ?_, ?_, ?_, ?_, ?_, ?_, ?_, ?_⟩
  · intro s p addr ep dirIn hlive
    exact (State.clearTt_effect s p addr.toNat ep.toNat dirIn).imp fun t ⟨ht, heffect⟩ => ⟨congrArg Host.Outcome.next ((if_hubLive hlive).trans ht), heffect⟩
  · intro s p hlive
    exact (State.resetTt_effect s p).imp fun t ⟨ht, heffect⟩ => ⟨congrArg Host.Outcome.next ((if_hubLive hlive).trans ht), heffect⟩
  · intro s p hlive hidle
    exact (State.detached_effect s p hidle).imp fun t ⟨ht, heffect⟩ => ⟨congrArg Host.Outcome.next ((if_hubLive hlive).trans ht), heffect⟩
  · intro s addr hlive
    have haddr := addr.isLt
    have hsetup : (BitVec.ofNat 64 (0x0500 + 2 ^ 16 * addr.toNat)).toNat = setupNat 0 5 addr.toNat 0 0 := by
      rw [BitVec.toNat_ofNat, setupNat]
      omega
    have hmod : addr.toNat % 128 = addr.toNat := Nat.mod_eq_of_lt haddr
    have hanswer := hubAnswer_setAddress s addr.toNat
    rw [hmod] at hanswer
    refine ⟨_, exec_hubRequest hlive hsetup (by decide) (by decide) (by omega) (by decide) (by decide) hanswer, ?_, ?_, ?_, ?_, rfl⟩
    · rw [State.fld_setFld_ne _ _ _ _ (by decide), State.fld_setFld _ _ _ (by decide)]
      exact hmod
    · rw [State.fld_setFld _ _ _ (by decide)]
      exact hmod
    · rw [State.flag_setFld_ne _ _ _ _ (by decide), State.flag_setFld_ne _ _ _ _ (by decide)]
    · exact ((KeepsRegs.refl s _).setFld (by decide)).setFld (by decide)
  · intro s cfg hlive
    have hcfg := b2n_lt cfg
    have hsetup : (BitVec.ofNat 64 (0x0900 + 2 ^ 16 * b2n cfg)).toNat = setupNat 0 9 (b2n cfg) 0 0 := by
      rw [BitVec.toNat_ofNat, setupNat]
      omega
    refine ⟨_, exec_hubRequest hlive hsetup (by decide) (by decide) (by omega) (by decide) (by decide) (hubAnswer_setConfiguration s cfg), ?_, ?_, ?_, rfl, rfl, ?_, rfl⟩
    · rw [State.flag_setFld_ne _ _ _ _ (by decide), State.flag_setFlag _ _ _ (by decide) (by decide)]
    · exact State.flag_setFlag _ _ false (by decide) (by decide)
    · rw [State.fld_setFld_ne _ _ _ _ (by decide), State.fld_setFlag_ne _ _ _ _ (by decide)]
      rfl
    · exact (((KeepsRegs.refl s _).of_regs rfl).setFlag (by decide)).setFld (by decide)
  · intro s index len hlive
    have hindex := index.isLt
    have hlen := len.isLt
    have hsetup : (BitVec.ofNat 64 (0x0680 + 2 ^ 24 + 2 ^ 32 * index.toNat + 2 ^ 48 * len.toNat)).toNat = setupNat 0x80 6 256 index.toNat len.toNat := by
      rw [BitVec.toNat_ofNat, setupNat]
      omega
    exact ⟨s, exec_hubRequest hlive hsetup (by decide) (by decide) (by decide) hindex hlen (hubAnswer_getDescriptor s index.toNat), rfl⟩
  · intro s p line hlive hoc hapart hline
    have hp := p.isLt
    have hsetup : (BitVec.ofNat 64 (0x0323 + 2 ^ 16 * 8 + 2 ^ 32 * (p.val + 1))).toNat = setupNat 0x23 3 8 (p.val + 1) 0 := by
      rw [BitVec.toNat_ofNat, setupNat]
      omega
    have hanswer := hubAnswer_setPortPower s p
    rw [State.opPortPower_connects hoc (by rw [hline]; exact lineCode_ne_zero line) hapart] at hanswer
    have hflags := s.flag_portConnected p.val
    exact ⟨_, exec_hubRequest hlive hsetup (by decide) (by decide) (by decide) (by omega) (by decide) hanswer, hflags 8, hflags 0, hflags 16,
      s.portConnected_event p.val, s.portConnected_keepsRegs p.val, s.portConnected_rest p.val⟩
  · intro s p feature hlive
    have hp := p.isLt
    have hfeature := feature.isLt
    have hsetup : (BitVec.ofNat 64 (0x0123 + 2 ^ 16 * (16 + feature.val) + 2 ^ 32 * (p.val + 1))).toNat = setupNat 0x23 1 (16 + feature.val) (p.val + 1) 0 := by
      rw [BitVec.toNat_ofNat, setupNat]
      omega
    have hbits := fun b => s.flag_setPortBit_zero p.val b (c := 16 + feature.val) (by omega)
    refine ⟨_, exec_hubRequest hlive hsetup (by decide) (by decide) (by omega) (by omega) (by decide) (hubAnswer_clearPortChange s p feature), ?_, fun b hb => ?_, ?_, rfl⟩
    · rw [hbits, if_pos rfl]
    · rw [hbits, if_neg hb]
    · exact (KeepsRegs.refl s _).setFld (f := portBitF p.val (16 + feature.val)) (by simp [portBitF])
  · exact fun s setup h => ⟨s, exec_hubRequest_nothing h, rfl⟩
  · intro s p addr ep dirIn hdead
    exact ⟨s, congrArg Host.Outcome.next (if_hubDead hdead), rfl, congrArg Host.Outcome.next (if_hubDead hdead), congrArg Host.Outcome.next (if_hubDead hdead)⟩

end Sys2Proof.Machine
end


section
/-! The configuration of an endpoint of the service port (R476). -/
namespace Sys2Proof.Machine

-- Checked one after another: side by side these evaluations take more memory than the check has.
set_option Elab.async false

/-! ### The endpoints' registers -/

theorem Legal.takes_clamp {lo hi width v : Nat} (h : lo ≤ v ∧ v ≤ hi) : (Legal.clamp lo hi).takes width v = true := decide_eq_true h

/-- A field of an endpoint's configuration. -/
def epFld (e lo width : Nat) : Fld := ⟨epReg e, lo, width⟩

/-- The register of an endpoint is one of the page, and a write stores its fields as their legal sets say. -/
theorem epReg_fields : ∀ e : Fin 14, 2 ≤ e.val → inPage (epReg e.val) P.USBD = true ∧ neverFrozen (epReg e.val) = true ∧ pageBase (epReg e.val) = P.USBD ∧
    (epFld e.val 0 11).hasLegal .rw (.clamp 1 1024) = true ∧ (epFld e.val 11 2).hasLegal .rw (.codes [1, 2, 3]) = true ∧
    (epFld e.val 16 7).hasLegal .rw (.clamp 1 126) = true ∧ (epFld e.val 31 1).plain = true := by
  decide +kernel

/-- What the register of an endpoint is written. -/
def epValue (mps ty mult fifo : Nat) : DWord := (BitVec.ofNat 32 (mps + 2 ^ 11 * ty + 2 ^ 13 * mult + 2 ^ 16 * fifo + 2 ^ 31)).zeroExtend 64

section
variable {mps ty mult fifo : Nat} (hmps : mps ≤ 1024) (hty : ty < 4) (hmult : mult < 4) (hfifo : fifo < 127)
include hmps hty hmult hfifo

theorem toNat_epValue : (epValue mps ty mult fifo).toNat = mps + 2 ^ 11 * ty + 2 ^ 13 * mult + 2 ^ 16 * fifo + 2 ^ 31 := by
  rw [epValue, BitVec.zeroExtend, BitVec.toNat_setWidth, BitVec.toNat_ofNat]
  omega

theorem of_epValue : (F.USBD_EPIN_CFG_MPS 0).of (epValue mps ty mult fifo) = mps ∧ (F.USBD_EPIN_CFG_TYPE 0).of (epValue mps ty mult fifo) = ty ∧
    (F.USBD_EPIN_CFG_MULT 0).of (epValue mps ty mult fifo) = mult ∧ (F.USBD_EPIN_CFG_FIFO 0).of (epValue mps ty mult fifo) = fifo ∧
    (F.USBD_EPIN_CFG_EN 0).of (epValue mps ty mult fifo) = 1 := by
  have hvalue := toNat_epValue hmps hty hmult hfifo
  refine ⟨?_, ?_, ?_, ?_, ?_⟩ <;>
  · rw [Fld.of, Bits.get, hvalue, Nat.shiftRight_eq_div_pow]
    simp only [F.USBD_EPIN_CFG_MPS, F.USBD_EPIN_CFG_TYPE, F.USBD_EPIN_CFG_MULT, F.USBD_EPIN_CFG_FIFO, F.USBD_EPIN_CFG_EN]
    omega

end

/-! ### The write -/

section
variable {s : State} {q : Req} {e : Nat} {v : DWord}

theorem State.opEpCfg_stored (hroom : ¬ ((F.USBD_EPIN_CFG_EN 0).of v = 1 ∧ 126 < s.fifoUnits e + (F.USBD_EPIN_CFG_FIFO 0).of v))
    (hlegal : ¬ (64 * (F.USBD_EPIN_CFG_FIFO 0).of v < (F.USBD_EPIN_CFG_MPS 0).of v * (F.USBD_EPIN_CFG_MULT 0).of v ∨
      ((F.USBD_EPIN_CFG_TYPE 0).of v = 2 ∧ (F.USBD_EPIN_CFG_MULT 0).of v ≠ 1) ∨ (F.USBD_EPIN_CFG_MPS 0).of v = 0 ∨ 1024 < (F.USBD_EPIN_CFG_MPS 0).of v ∨
      (F.USBD_EPIN_CFG_MULT 0).of v = 0 ∨ (F.USBD_EPIN_CFG_TYPE 0).of v = 0 ∨ (F.USBD_EPIN_CFG_FIFO 0).of v = 0 ∨ 126 < (F.USBD_EPIN_CFG_FIFO 0).of v))
    (hoff : s.epOn e = false) (hon : (F.USBD_EPIN_CFG_EN 0).of v = 1) (ni : Nat) : s.opEpCfg ni e v = (s.storeReg ni (epReg e) v).1 := by
  have hlive : ¬ ((F.USBD_EPIN_CFG_EN 0).of v = 1 ∧ s.epOn e ∧ Bits.put v 31 1 0 &&& 0x7F7FFF#64 ≠ Bits.put (s.raw (epReg e)) 31 1 0 &&& 0x7F7FFF#64) := by
    rintro ⟨-, h, -⟩
    rw [hoff] at h
    cases h
  have henabled : ¬ (F.USBD_EPIN_CFG_EN 0).of v = 0 := by rw [hon]; decide
  exact (if_neg hroom).trans ((if_neg hlegal).trans ((if_neg hlive).trans (if_neg henabled)))

theorem State.opEpCfg_full (h : (F.USBD_EPIN_CFG_EN 0).of v = 1 ∧ 126 < s.fifoUnits e + (F.USBD_EPIN_CFG_FIFO 0).of v) (ni : Nat) :
    s.opEpCfg ni e v = s.refuse ni (epReg e) 1 v (epNumber e + if epIn e then 0 else 8) := if_pos h

theorem State.opEpCfg_illegal (hoff : (F.USBD_EPIN_CFG_EN 0).of v = 0) (hmps : (F.USBD_EPIN_CFG_MPS 0).of v = 0) (ni : Nat) :
    s.opEpCfg ni e v = s.refuse ni (epReg e) 2 v (epNumber e + if epIn e then 0 else 8) :=
  (if_neg fun h => absurd (hoff.symm.trans h.1) (by decide)).trans (if_pos (.inr (.inr (.inl hmps))))

variable (he : 2 ≤ e) (he14 : e < 14)
include he he14

/-- An endpoint configured within the limits. -/
theorem State.epCfg_effect {mps ty mult fifo : Nat} (hopen : OpenTo s q P.USBD) (hmps : 0 < mps ∧ mps ≤ 1024) (hty : 0 < ty ∧ ty < 4) (hmult : 0 < mult ∧ mult < 4)
    (hfifo : 0 < fifo ∧ fifo < 127) (hoff : s.epOn e = false) (hunits : s.fifoUnits e + fifo ≤ 126) (hroom : mps * mult ≤ 64 * fifo)
    (hbulk : ty = 2 → mult = 1) :
    ∃ t, s.gateWrite q (epReg e) .w (epValue mps ty mult fifo) (fun u => u.opEpCfg q.ni.val e (epValue mps ty mult fifo)) = t ∧ t.epOn e = true ∧
      t.epMps e = mps ∧ t.epType e = ty ∧ t.epRoom e = 64 * fifo ∧ KeepsRegs s t (epReg e :: logRegs P.USBD) ∧
      t = { s with regs := t.regs, resp := t.resp } := by
  obtain ⟨hin, hfrozen, hpage, hlegalMps, hlegalTy, hlegalFifo, hplain⟩ := epReg_fields ⟨e, he14⟩ he
  obtain ⟨hofMps, hofTy, hofMult, hofFifo, hofOn⟩ := of_epValue hmps.2 hty.2 hmult.2 hfifo.2
  have hop : (s.respond false 0#64).opEpCfg q.ni.val e (epValue mps ty mult fifo) = s.stored q (epReg e) (epValue mps ty mult fifo) := by
    have hstill : (s.respond false 0#64).epOn e = false := by
      rw [← hoff]
      rfl
    refine State.opEpCfg_stored (s := s.respond false 0#64) ?_ ?_ hstill hofOn q.ni.val
    · rw [hofFifo]
      rintro ⟨-, h⟩
      exact absurd h (Nat.not_lt.2 hunits)
    · rw [hofMps, hofTy, hofMult, hofFifo]
      rintro (h | ⟨h, h1⟩ | h | h | h | h | h | h)
      · omega
      · exact h1 (hbulk h)
      all_goals omega
  have hfree : (s.respond false 0#64).Unfrozen (epReg e) := State.unfrozen_of_page _ hfrozen
  have hstored : ∀ {x : Fld} {l : Legal}, x.reg = epReg e → x.hasLegal .rw l = true → l.takes x.width (x.of (epValue mps ty mult fifo)) = true →
      (s.stored q (epReg e) (epValue mps ty mult fifo)).fld x = x.of (epValue mps ty mult fifo) := by
    intro x l hx hlegal htakes
    rw [← hx] at hfree ⊢
    exact State.fld_storeReg_legal q.ni.val hfree htakes hlegal
  have hmpsStored := hstored (x := epFld e 0 11) rfl hlegalMps (Legal.takes_clamp (by
    rw [show (epFld e 0 11).of (epValue mps ty mult fifo) = mps from hofMps]
    exact hmps))
  have hfifoStored := hstored (x := epFld e 16 7) rfl hlegalFifo (Legal.takes_clamp (by
    rw [show (epFld e 16 7).of (epValue mps ty mult fifo) = fifo from hofFifo]
    omega))
  have htyStored := hstored (x := epFld e 11 2) rfl hlegalTy (by
    rw [show (epFld e 11 2).of (epValue mps ty mult fifo) = ty from hofTy]
    have hcodes : ty = 1 ∨ ty = 2 ∨ ty = 3 := by omega
    rcases hcodes with rfl | rfl | rfl <;> rfl)
  have honStored : (s.stored q (epReg e) (epValue mps ty mult fifo)).fld (epFld e 31 1) = 1 :=
    (State.fld_storeReg_plain (x := epFld e 31 1) q.ni.val _ hfree hplain).trans hofOn
  refine ⟨_, (State.gate_inPage .w _ _ hopen hin).trans hop, ?_, ?_, ?_, ?_, hpage ▸ s.stored_keepsRegs q (epReg e) _,
    State.rest_of_respond (State.storeReg_rest (s.respond false 0#64) _ _ _)⟩
  · rw [State.epOn, decide_eq_false (by omega), Bool.false_or]
    exact bne_iff_ne.2 fun h => absurd (honStored.symm.trans h) (by decide)
  · rw [State.epMps, if_neg (by omega)]
    exact hmpsStored.trans hofMps
  · rw [State.epType, if_neg (by omega)]
    exact htyStored.trans hofTy
  · rw [State.epRoom, if_neg (by omega)]
    exact congrArg (64 * ·) (hfifoStored.trans hofFifo)

/-- An endpoint configuration refused. -/
theorem State.epCfg_refused {reason : Nat} (hopen : OpenTo s q P.USBD) (hreason : reason < 128)
    (hop : (s.respond false 0#64).opEpCfg q.ni.val e v = (s.respond false 0#64).refuse q.ni.val (epReg e) reason v (epNumber e + if epIn e then 0 else 8)) :
    ∃ t, s.gateWrite q (epReg e) .w v (fun u => u.opEpCfg q.ni.val e v) = t ∧ t.event P.USBD 31 = true ∧
      (s.flag (F.CLAMP_ADDR_VALID P.USBD) = false → t.fld (F.CLAMP_ADDR_REASON P.USBD) = reason) ∧
      KeepsRegs s t (logRegs P.USBD) ∧ t = { s with regs := t.regs, resp := t.resp } := by
  obtain ⟨hin, -, hpage, -⟩ := epReg_fields ⟨e, he14⟩ he
  have hrefused := State.refused_refuse (s.respond false 0#64) q (epReg e) reason v (epNumber e + if epIn e then 0 else 8) hreason
  rw [State.Refused, hpage] at hrefused
  obtain ⟨hevent, -, -, hlogged⟩ := hrefused
  refine ⟨_, (State.gate_inPage .w _ _ hopen hin).trans hop, hevent, fun hempty => (hlogged hempty).2.2.1, ?_, ?_⟩
  · exact ((KeepsRegs.refl s (logRegs P.USBD)).of_regs (u := s.respond false 0#64) rfl).refuse fun a ha => hpage ▸ ha
  · refine State.rest_of_respond (e := false) (w := 0#64) ?_
    rw [State.refuse, State.clampEvents_rest]

end

end Sys2Proof.Machine
end

section
/-! Halts, clears, suspend and resume of the service port (R479, R480). -/
namespace Sys2Proof.Machine

-- Checked one after another: side by side these evaluations take more memory than the check has.
set_option Elab.async false

/-! ### Halts -/

/-- No channel holds port `port` of the USB. -/
def State.NoChannel (s : State) (port : Nat) : Prop := s.heddle.ch.find? (fun x => decide (x.2.e.kind = 7 ∧ x.2.e.port = port)) = none

section
variable {s : State} {port : Nat} (h : s.NoChannel port)
include h

theorem State.usbItem_noChannel : s.usbItem port = none := by
  rw [State.usbItem_eq, State.usbChannel, h]
  exact ite_self _

theorem State.usbEnd_noChannel (st detail : Nat) : s.usbEnd port st detail = s := by rw [State.usbEnd, State.usbItem_noChannel h]

theorem State.releaseChannel_noChannel : s.releaseChannel port = s := by rw [State.releaseChannel, h]

end

theorem epHaltF_reg (e : Nat) : (epHaltF e).reg = R.USBD_HALT := rfl

theorem State.opHalt_noChannel {s : State} {e : Nat} (h : s.NoChannel (0x70 + e)) : s.opHalt e = s.setFlag (epHaltF e) true := by
  have hafter : (s.setFlag (epHaltF e) true).NoChannel (0x70 + e) := h
  rw [State.opHalt, State.usbEnd_noChannel h, show (s.setFld (epHaltF e) 1).heddle.ch.find? _ = none from hafter]
  rfl

/-- The halt bit of each endpoint is its own, in one of the two fields. -/
theorem epHalt_bits : ∀ e : Fin 14, 2 ≤ e.val → (epHaltF e.val).lo < 64 ∧
    ((epHaltF e.val).lo < 7 ∧ 1 ≤ (epHaltF e.val).lo ∨ (epHaltF e.val).lo < 15 ∧ 9 ≤ (epHaltF e.val).lo) ∧
    ∀ i : Fin 14, 2 ≤ i.val → (epHaltF i.val).lo = (epHaltF e.val).lo → i = e := by
  decide

theorem State.flag_eq_getLsbD (s : State) {x : Fld} (hwidth : x.width = 1) : s.flag x = (s.raw x.reg).getLsbD x.lo := by
  have hbit : s.fld x = b2n ((s.raw x.reg).getLsbD x.lo) := by
    rw [State.fld, hwidth]
    refine Nat.eq_of_testBit_eq fun i => ?_
    rw [Bits.testBit_get]
    cases i with
    | zero => cases (s.raw x.reg).getLsbD x.lo <;> simp
    | succ i => cases (s.raw x.reg).getLsbD x.lo <;> simp [Nat.testBit_succ]
  rw [State.flag, hbit]
  cases (s.raw x.reg).getLsbD x.lo <;> rfl

/-! ### A write of one to set (R20) -/

/-- A field whose bits a write of one sets. -/
def Fld.setting (x : Fld) : Bool := (regFields x.reg).any (fun f => x.isOf f && decide (f.acc = .w1s))

theorem State.fld_storeReg_setting {s : State} (ni : Nat) {x : Fld} (v : DWord) (hfree : s.Unfrozen x.reg) (hx : x.setting = true) :
    (s.storeReg ni x.reg v).1.fld x = (s.fld x ||| x.of v) % 2 ^ x.width := by
  obtain ⟨f, -, hf⟩ := List.any_eq_true.1 hx
  simp only [Bool.and_eq_true, decide_eq_true_eq] at hf
  obtain ⟨hof, hacc⟩ := hf
  obtain ⟨p, b, r, c, hreg, hstored, -⟩ := State.storeReg_spec (s := s) (ni := ni) (v := v) hof
  simp only [Fld.isOf, Bool.and_eq_true, decide_eq_true_eq] at hof
  obtain ⟨-, hlo, hsize, -⟩ := hof
  have hnew : s.fieldStored p x.reg v f (s.fld x) = s.fld x ||| x.of v := by
    simp [State.fieldStored, hfree p b r c f hreg (by simp [hacc]), hacc, Fld.of, hlo, hsize]
  rw [hstored, hnew]

/-- A bit that is written as one, in such a field, is set. -/
theorem State.getLsbD_storeReg_setting {s : State} (ni : Nat) {x : Fld} {v : DWord} (hfree : s.Unfrozen x.reg) (hx : x.setting = true) {i : Nat}
    (hi : x.lo ≤ i) (hi' : i < x.lo + x.width) (hv : v.getLsbD i = true) : ((s.storeReg ni x.reg v).1.raw x.reg).getLsbD i = true := by
  have hin : i - x.lo < x.width := by omega
  have hat : x.lo + (i - x.lo) = i := by omega
  have hof : (x.of v).testBit (i - x.lo) = true := by rw [Fld.of, Bits.testBit_get, hat, hv]; simpa using hin
  have hbit : ((s.storeReg ni x.reg v).1.fld x).testBit (i - x.lo) = true := by
    rw [State.fld_storeReg_setting ni v hfree hx, Nat.testBit_mod_two_pow, Nat.testBit_or, hof]
    simpa using hin
  rw [State.fld, Bits.testBit_get, hat, Bool.and_eq_true] at hbit
  exact hbit.2

theorem halt_setting : F.USBD_HALT_IN.setting = true ∧ F.USBD_HALT_OUT.setting = true ∧ neverFrozen R.USBD_HALT = true ∧ inPage R.USBD_HALT P.USBD = true := by
  decide +kernel

/-! ### USBD_HALT -/

/-- What USBD_HALT is written to halt endpoint `e`. -/
def haltValue (e : Nat) : DWord := BitVec.ofNat 64 (2 ^ (epHaltF e).lo)

theorem getLsbD_haltValue {e : Nat} (he : (epHaltF e).lo < 64) (i : Nat) : (haltValue e).getLsbD i = decide (i = (epHaltF e).lo) := by
  rw [haltValue, BitVec.getLsbD_ofNat, Nat.testBit_two_pow]
  by_cases hi : i = (epHaltF e).lo
  · simp [hi, he]
  · simp [hi, Ne.symm hi]

section
variable {s : State} {e : Nat} (he : 2 ≤ e) (he14 : e < 14)
include he he14

/-- The write itself sets the bit. -/
theorem State.halted_stored (q : Req) : (s.stored q R.USBD_HALT (haltValue e)).flag (epHaltF e) = true := by
  obtain ⟨hlo, hfields, -⟩ := epHalt_bits ⟨e, he14⟩ he
  obtain ⟨hin, hout, hfrozen, -⟩ := halt_setting
  have hfree : (s.respond false 0#64).Unfrozen R.USBD_HALT := State.unfrozen_of_page _ hfrozen
  have hone : (haltValue e).getLsbD (epHaltF e).lo = true := by rw [getLsbD_haltValue hlo, decide_eq_true rfl]
  rw [State.flag_eq_getLsbD _ rfl]
  rcases hfields with ⟨hhi, hlow⟩ | ⟨hhi, hlow⟩
  · exact State.getLsbD_storeReg_setting (x := F.USBD_HALT_IN) q.ni.val hfree hin hlow hhi hone
  · exact State.getLsbD_storeReg_setting (x := F.USBD_HALT_OUT) q.ni.val hfree hout hlow hhi hone

/-- One step of the loop over the endpoints. -/
def State.haltStep (old v : DWord) (i : Nat) (t : State) : State :=
  if 2 ≤ i ∧ v.toNat.testBit (epHaltF i).lo ∧ ! old.toNat.testBit (epHaltF i).lo then t.opHalt i else t

omit he he14 in
theorem State.opUsbdHalt_eq (ni : Nat) (v : DWord) : s.opUsbdHalt ni v = forEach 14 (State.haltStep (s.raw R.USBD_HALT) v) (s.storeReg ni R.USBD_HALT v).1 := rfl

theorem State.haltStep_ne {old : DWord} {i : Nat} (hi : i < 14) (hne : i ≠ e) (t : State) : State.haltStep old (haltValue e) i t = t := by
  obtain ⟨hlo, -, hown⟩ := epHalt_bits ⟨e, he14⟩ he
  refine if_neg ?_
  rintro ⟨h2, hset, -⟩
  have hbit : (haltValue e).getLsbD (epHaltF i).lo = true := hset
  rw [getLsbD_haltValue hlo, decide_eq_true_eq] at hbit
  exact hne (congrArg Fin.val (hown ⟨i, hi⟩ h2 hbit))

/-- R479: firmware halts an endpoint that has no channel. -/
theorem State.usbdHalt_effect {q : Req} (hopen : OpenTo s q P.USBD) (hnone : s.NoChannel (0x70 + e)) :
    ∃ t, s.gateWrite q R.USBD_HALT .w (haltValue e) (fun u => u.opUsbdHalt q.ni.val (haltValue e)) = t ∧ t.flag (epHaltF e) = true ∧
      KeepsRegs s t (R.USBD_HALT :: logRegs P.USBD) ∧ t = { s with regs := t.regs, resp := t.resp } := by
  have hstored := State.halted_stored (s := s) he he14 q
  have hkept : KeepsRegs s (s.stored q R.USBD_HALT (haltValue e)) (R.USBD_HALT :: logRegs P.USBD) := s.stored_keepsRegs q R.USBD_HALT (haltValue e)
  have hrest := s.stored_rest q R.USBD_HALT (haltValue e)
  have hop : s.gateWrite q R.USBD_HALT .w (haltValue e) (fun u => u.opUsbdHalt q.ni.val (haltValue e)) =
      forEach 14 (State.haltStep (s.raw R.USBD_HALT) (haltValue e)) (s.stored q R.USBD_HALT (haltValue e)) := State.gate_inPage .w _ _ hopen halt_setting.2.2.2
  obtain ⟨u, hu⟩ : ∃ u, u = s.stored q R.USBD_HALT (haltValue e) := ⟨_, rfl⟩
  rw [← hu] at hstored hkept hrest hop
  have hunone : u.NoChannel (0x70 + e) := by
    rw [hrest]
    exact hnone
  have hloop : forEach 14 (State.haltStep (s.raw R.USBD_HALT) (haltValue e)) u = State.haltStep (s.raw R.USBD_HALT) (haltValue e) e u :=
    forEach_alone he14 (fun i hi hne => State.haltStep_ne he he14 hi hne u) fun i hi hne => State.haltStep_ne he he14 hi hne _
  have hcases : State.haltStep (s.raw R.USBD_HALT) (haltValue e) e u = u ∨ State.haltStep (s.raw R.USBD_HALT) (haltValue e) e u = u.setFlag (epHaltF e) true := by
    unfold State.haltStep
    split
    · exact .inr (State.opHalt_noChannel hunone)
    · exact .inl rfl
  rw [hop, hloop]
  rcases hcases with h | h
  · rw [h]
    exact ⟨u, rfl, hstored, hkept, by rw [hrest]⟩
  · rw [h]
    refine ⟨_, rfl, State.flag_setFlag u (epHaltF e) true ?_ Nat.one_pos, hkept.setFlag (by simp [epHaltF_reg]), by rw [hrest]; rfl⟩
    have hlo := (epHalt_bits ⟨e, he14⟩ he).1
    exact hlo

end

end Sys2Proof.Machine
end

section
/-! O38: endpoints, halts, suspend and resume of the service port (R474, R476, R479, R480). -/
namespace Sys2Proof.Machine

-- Checked one after another: side by side these evaluations take more memory than the check has.
set_option Elab.async false

/-! ### Clears -/

section
variable {s : State}

theorem State.endpointClear_effect {e : Nat} (he : 2 ≤ e) (he14 : e < 14) (hnone : s.NoChannel (0x70 + e)) :
    ∃ t, (s.opEndpointClear e).raise P.USBD E.USBD_HALT_CLEARED = t ∧ t.flag (epHaltF e) = false ∧ (t.ep e).toggle = false ∧
      t.event P.USBD E.USBD_HALT_CLEARED = true ∧ KeepsRegs s t [R.USBD_HALT, R.EVT_RAW P.USBD] ∧
      t = { s with regs := t.regs, usb := { s.usb with eps := t.usb.eps } } := by
  obtain ⟨u, hu⟩ : ∃ u, u = s.setFlag (epHaltF e) false := ⟨_, rfl⟩
  have hflag : u.flag (epHaltF e) = false := by
    rw [hu]
    exact State.flag_setFlag s (epHaltF e) false (epHalt_bits ⟨e, he14⟩ he).1 Nat.one_pos
  have hkept : KeepsRegs s u [R.USBD_HALT, R.EVT_RAW P.USBD] := by
    rw [hu]
    exact (KeepsRegs.refl s _).setFlag (by simp [epHaltF_reg])
  have hurest : u = { s with regs := u.regs } := by rw [hu]; rfl
  have hcleared : s.opEndpointClear e = u.setEp e { u.ep e with toggle := false } := by
    have hunone : (u.setEp e { u.ep e with toggle := false }).NoChannel (0x70 + e) := by
      rw [hurest]
      exact hnone
    rw [State.opEndpointClear, show s.setFld (epHaltF e) 0 = u from hu.symm]
    exact State.releaseChannel_noChannel hunone
  rw [hcleared]
  have hep : (u.setEp e { u.ep e with toggle := false }).ep e = { u.ep e with toggle := false } := (SMap.get_put _ _ _ _ _).trans (if_pos rfl)
  refine ⟨_, rfl, ?_, congrArg UsbEndpoint.toggle hep, State.event_raise _ _ _ (by decide), ((hkept.of_regs rfl).raise (by simp)), ?_⟩
  · exact (State.flag_raise_ne _ _ _ _ (by rw [epHaltF_reg]; decide)).trans hflag
  · rw [hurest]
    rfl

/-- R479: the host halts an endpoint that has no channel. -/
theorem State.endpointHalt_effect {e : Nat} (he : 2 ≤ e) (he14 : e < 14) (hnone : s.NoChannel (0x70 + e)) :
    ∃ t, (s.opHalt e).raise P.USBD E.USBD_HALT_SET = t ∧ t.flag (epHaltF e) = true ∧ t.event P.USBD E.USBD_HALT_SET = true ∧
      KeepsRegs s t [R.USBD_HALT, R.EVT_RAW P.USBD] ∧ t = { s with regs := t.regs } := by
  rw [State.opHalt_noChannel hnone]
  refine ⟨_, rfl, ?_, State.event_raise _ _ _ (by decide), ((KeepsRegs.refl s _).setFlag (by simp [epHaltF_reg])).raise (by simp), rfl⟩
  exact (State.flag_raise_ne _ _ _ _ (by rw [epHaltF_reg]; decide)).trans (State.flag_setFlag s (epHaltF e) true (epHalt_bits ⟨e, he14⟩ he).1 Nat.one_pos)

theorem pipeCtrl_fields : ∀ n : Fin 48, inPage (R.USBH_PIPE_CTRL n.val) P.USBH = true ∧ neverFrozen (R.USBH_PIPE_CTRL n.val) = true ∧
    (F.USBH_PIPE_CTRL_CLEAR n.val).acting = true ∧ pageBase (R.USBH_PIPE_CTRL n.val) = P.USBH := by
  decide +kernel

/-- R479: what the clear of a host pipe that has no channel does. -/
theorem State.opPipeClear_effect (u : State) (n : Fin 48) (hnone : u.NoChannel (0x40 + n.val)) :
    (u.opPipeClear n.val).flag (F.USBH_PIPE_STAT_TOGGLE n.val) = false ∧ (u.opPipeClear n.val).flag (F.USBH_PIPE_STAT_HALTED n.val) = false ∧
      ((u.opPipeClear n.val).pipe n.val).errs = 0 ∧ KeepsRegs u (u.opPipeClear n.val) [R.USBH_PIPE_STAT n.val] ∧
      u.opPipeClear n.val = { u with regs := (u.opPipeClear n.val).regs, usb := { u.usb with pipes := (u.opPipeClear n.val).usb.pipes } } := by
  obtain ⟨w, hw⟩ : ∃ w, w = (u.setFlag (F.USBH_PIPE_STAT_TOGGLE n.val) false).setFlag (F.USBH_PIPE_STAT_HALTED n.val) false := ⟨_, rfl⟩
  have hwkept : KeepsRegs u w [R.USBH_PIPE_STAT n.val] := by
    rw [hw]
    exact ((KeepsRegs.refl u _).setFlag (f := F.USBH_PIPE_STAT_TOGGLE n.val) List.mem_cons_self).setFlag (f := F.USBH_PIPE_STAT_HALTED n.val) List.mem_cons_self
  have hwrest : w = { u with regs := w.regs } := by rw [hw]; rfl
  have hwtoggle : w.flag (F.USBH_PIPE_STAT_TOGGLE n.val) = false := by
    rw [hw, State.flag_setFlag_ne _ _ _ _ (Or.inr (Or.inl (by simp [F.USBH_PIPE_STAT_TOGGLE, F.USBH_PIPE_STAT_HALTED])))]
    exact State.flag_setFlag _ _ false (by simp [F.USBH_PIPE_STAT_TOGGLE]) (by simp [F.USBH_PIPE_STAT_TOGGLE])
  have hwhalted : w.flag (F.USBH_PIPE_STAT_HALTED n.val) = false := by
    rw [hw]
    exact State.flag_setFlag _ _ false (by simp [F.USBH_PIPE_STAT_HALTED]) (by simp [F.USBH_PIPE_STAT_HALTED])
  have hwnone (x : UsbPipe) : (w.setPipe n.val x).NoChannel (0x40 + n.val) := by
    rw [hwrest]
    exact hnone
  have hclear : ∃ x : UsbPipe, x.errs = 0 ∧ u.opPipeClear n.val = w.setPipe n.val x := by
    refine ⟨{ u.pipe n.val with errs := 0, ping := false, stage := 0 }, rfl, ?_⟩
    rw [State.opPipeClear, show (u.setFld (F.USBH_PIPE_STAT_TOGGLE n.val) 0).setFld (F.USBH_PIPE_STAT_HALTED n.val) 0 = w from hw.symm]
    exact State.releaseChannel_noChannel (hwnone _)
  obtain ⟨x, hx, hclear⟩ := hclear
  rw [hclear]
  refine ⟨hwtoggle, hwhalted, ?_, hwkept.of_regs rfl, ?_⟩
  · rw [State.pipe_setPipe, if_pos rfl, hx]
  · rw [hwrest]
    rfl

/-- R479: the write that clears a host pipe that has no channel. -/
theorem State.pipeClear_effect {q : Req} (n : Fin 48) (hopen : OpenTo s q P.USBH) (hnone : s.NoChannel (0x40 + n.val)) :
    ∃ t, s.gateWrite q (R.USBH_PIPE_CTRL n.val) .w 1#64 (fun u => u.opPipeCtrl q.ni.val n.val 1#64) = t ∧ t.flag (F.USBH_PIPE_STAT_TOGGLE n.val) = false ∧
      t.flag (F.USBH_PIPE_STAT_HALTED n.val) = false ∧ (t.pipe n.val).errs = 0 ∧
      KeepsRegs s t ([R.USBH_PIPE_STAT n.val, R.USBH_PIPE_CTRL n.val] ++ logRegs P.USBH) ∧
      t = { s with regs := t.regs, resp := t.resp, usb := { s.usb with pipes := t.usb.pipes } } := by
  obtain ⟨hin, hfrozen, hacting, hpage⟩ := pipeCtrl_fields n
  have hfree : (s.respond false 0#64).Unfrozen (R.USBH_PIPE_CTRL n.val) := State.unfrozen_of_page _ hfrozen
  have hact : (F.USBH_PIPE_CTRL_CLEAR n.val).of ((s.respond false 0#64).storeReg q.ni.val (R.USBH_PIPE_CTRL n.val) 1#64).2 = 1 :=
    State.of_storeReg_acting (x := F.USBH_PIPE_CTRL_CLEAR n.val) q.ni.val 1#64 hfree hacting
  have hkept : KeepsRegs s (s.stored q (R.USBH_PIPE_CTRL n.val) 1#64) (R.USBH_PIPE_CTRL n.val :: logRegs P.USBH) :=
    hpage ▸ s.stored_keepsRegs q (R.USBH_PIPE_CTRL n.val) 1#64
  have hrest := s.stored_rest q (R.USBH_PIPE_CTRL n.val) 1#64
  have hop : (s.respond false 0#64).opPipeCtrl q.ni.val n.val 1#64 = (s.stored q (R.USBH_PIPE_CTRL n.val) 1#64).opPipeClear n.val :=
    if_neg fun hzero => absurd (hact.symm.trans hzero) (by decide)
  have hgate := (State.gate_inPage .w 1#64 (fun u => u.opPipeCtrl q.ni.val n.val 1#64) hopen hin).trans hop
  obtain ⟨u, hu⟩ : ∃ u, u = s.stored q (R.USBH_PIPE_CTRL n.val) 1#64 := ⟨_, rfl⟩
  rw [← hu] at hkept hrest hgate
  have hunone : u.NoChannel (0x40 + n.val) := by
    rw [hrest]
    exact hnone
  obtain ⟨htoggle, hhalted, herrs, hclearKept, hclearRest⟩ := u.opPipeClear_effect n hunone
  refine ⟨_, hgate, htoggle, hhalted, herrs, (hkept.mono fun a ha => List.mem_cons_of_mem _ ha).trans (hclearKept.mono (by simp)), ?_⟩
  rw [hclearRest, hrest]

/-! ### A write to USBD_CTRL -/

/-- What USBD_CTRL is written with RESUME = 1. -/
def resumeValue (attach hs rwake : Bool) (test : Fin 6) : DWord :=
  BitVec.ofNat 64 (F.USBD_CTRL_ATTACH.at (b2n attach) + F.USBD_CTRL_HS_EN.at (b2n hs) + F.USBD_CTRL_RWAKE_EN.at (b2n rwake) + F.USBD_CTRL_RESUME.at 1 +
    F.USBD_CTRL_TEST.at (BitVec.ofNat 3 test.val).toNat)

theorem of_resumeValue (attach hs rwake : Bool) (test : Fin 6) : F.USBD_CTRL_ATTACH.of (resumeValue attach hs rwake test) = b2n attach ∧
    F.USBD_CTRL_HS_EN.of (resumeValue attach hs rwake test) = b2n hs ∧ F.USBD_CTRL_RWAKE_EN.of (resumeValue attach hs rwake test) = b2n rwake ∧
    F.USBD_CTRL_RESUME.of (resumeValue attach hs rwake test) = 1 ∧ F.USBD_CTRL_TEST.of (resumeValue attach hs rwake test) = test.val := by
  revert attach hs rwake test
  decide +kernel

theorem usbdCtrl_fields : inPage R.USBD_CTRL P.USBD = true ∧ neverFrozen R.USBD_CTRL = true ∧ F.USBD_CTRL_RESUME.acting = true ∧
    F.USBD_CTRL_TEST.hasLegal .rw (.codes [0, 1, 2, 3, 4, 5]) = true ∧
    ∀ x ∈ [F.USBD_CTRL_ATTACH, F.USBD_CTRL_HS_EN, F.USBD_CTRL_RWAKE_EN], x.plain = true := by
  decide +kernel

theorem testMode_legal : ∀ test : Fin 6, (Legal.codes [0, 1, 2, 3, 4, 5]).takes 3 test.val = true := by decide

theorem KeepsRegs.usbLive {s t : State} {l : List Nat} (h : KeepsRegs s t l) (hpower : t.power = s.power) (hstate : R.PWR_STATE ∉ l) {p : Nat}
    (hstat : R.PAGE_STAT p ∉ l) : t.usbLive p = s.usbLive p := by
  rw [State.usbLive, State.usbLive, State.usbClocked, State.usbClocked, State.running, State.running, State.resetting, State.resetting, hpower,
    h.fld (f := F.PWR_STATE_CUR) hstate, h.flag (f := F.PAGE_STAT_ENABLED p) hstat, h.flag (f := F.PAGE_STAT_RESETTING p) hstat]

/-- R474: the pull-up is as it has to be. -/
theorem State.pullUp_same (h : s.flag F.USBD_STAT_ATTACHED = (s.flag F.USBD_CTRL_ATTACH && s.flag F.USBD_STAT_VBUS && s.usbLive P.USBD)) : s.pullUp = s := by
  rw [State.pullUp, ← h]
  cases s.flag F.USBD_STAT_ATTACHED <;> rfl

section
variable {q : Req} {attach hs rwake : Bool} {test : Fin 6}

/-- The state in which the write is stored. -/
def State.resumeStored (s : State) (q : Req) (attach hs rwake : Bool) (test : Fin 6) : State := s.stored q R.USBD_CTRL (resumeValue attach hs rwake test)

theorem State.resumeStored_keepsRegs : KeepsRegs s (s.resumeStored q attach hs rwake test) (R.USBD_CTRL :: logRegs P.USBD) := s.stored_keepsRegs _ _ _

theorem State.resumeStored_rest : s.resumeStored q attach hs rwake test =
    { s with regs := (s.resumeStored q attach hs rwake test).regs, resp := ⟨false, 0#64⟩ } := s.stored_rest _ _ _

theorem State.flag_resumeStored : (s.resumeStored q attach hs rwake test).flag F.USBD_CTRL_ATTACH = attach ∧
    (s.resumeStored q attach hs rwake test).flag F.USBD_CTRL_HS_EN = hs ∧ (s.resumeStored q attach hs rwake test).flag F.USBD_CTRL_RWAKE_EN = rwake ∧
    (s.resumeStored q attach hs rwake test).fld F.USBD_CTRL_TEST = test.val := by
  obtain ⟨hattach, hhs, hrwake, -, htest⟩ := of_resumeValue attach hs rwake test
  obtain ⟨-, hfrozen, -, hlegal, hplain⟩ := usbdCtrl_fields
  have hfree : (s.respond false 0#64).Unfrozen R.USBD_CTRL := State.unfrozen_of_page _ hfrozen
  have hflag (b : Bool) : (b2n b != 0) = b := by cases b <;> rfl
  have hstored (x : Fld) (hx : x.reg = R.USBD_CTRL) (hp : x.plain = true) (b : Bool) (hof : x.of (resumeValue attach hs rwake test) = b2n b) :
      (s.resumeStored q attach hs rwake test).flag x = b := by
    have hfld : (s.resumeStored q attach hs rwake test).fld x = b2n b := by
      rw [← hof]
      rw [← hx] at hfree
      rw [State.resumeStored, ← hx]
      exact State.fld_storeReg_plain q.ni.val _ hfree hp
    rw [State.flag, hfld, hflag]
  refine ⟨hstored _ rfl (hplain _ (by simp)) _ hattach, hstored _ rfl (hplain _ (by simp)) _ hhs, hstored _ rfl (hplain _ (by simp)) _ hrwake, ?_⟩
  refine (State.fld_storeReg_legal (x := F.USBD_CTRL_TEST) q.ni.val hfree ?_ hlegal).trans htest
  rw [htest]
  exact testMode_legal test

/-- R480: the write, while the pull-up stays as it is. -/
theorem exec_resumeWrite (hopen : OpenTo s q P.USBD)
    (hsame : s.flag F.USBD_STAT_ATTACHED = (attach && s.flag F.USBD_STAT_VBUS && s.usbLive P.USBD)) :
    exec (.resume (.write q attach hs rwake (BitVec.ofNat 3 test.val))) s = .next (s.resumeStored q attach hs rwake test).opRemoteWake := by
  obtain ⟨-, -, -, hresume, -⟩ := of_resumeValue attach hs rwake test
  obtain ⟨hin, hfrozen, hacting, -, -⟩ := usbdCtrl_fields
  have hfree : (s.respond false 0#64).Unfrozen R.USBD_CTRL := State.unfrozen_of_page _ hfrozen
  have hact : F.USBD_CTRL_RESUME.of ((s.respond false 0#64).storeReg q.ni.val R.USBD_CTRL (resumeValue attach hs rwake test)).2 = 1 :=
    (State.of_storeReg_acting (x := F.USBD_CTRL_RESUME) q.ni.val _ hfree hacting).trans hresume
  have hkept := State.resumeStored_keepsRegs (s := s) (q := q) (attach := attach) (hs := hs) (rwake := rwake) (test := test)
  have hpulled : (s.resumeStored q attach hs rwake test).pullUp = s.resumeStored q attach hs rwake test := by
    refine State.pullUp_same ?_
    rw [hkept.flag (by decide), hsame, State.flag_resumeStored.1, hkept.flag (by decide),
      hkept.usbLive (by rw [State.resumeStored_rest]) (by decide) (by decide)]
  refine congrArg Host.Outcome.next ((State.gate_inPage .w _ _ hopen hin).trans ?_)
  refine (if_neg fun h => absurd (hact.symm.trans h) (by decide)).trans ?_
  exact congrArg State.opRemoteWake hpulled

/-- Without RWAKE_EN nothing else happens. -/
theorem resumeWrite_stored (hopen : OpenTo s q P.USBD)
    (hsame : s.flag F.USBD_STAT_ATTACHED = (attach && s.flag F.USBD_STAT_VBUS && s.usbLive P.USBD)) :
    ∃ t, exec (.resume (.write q attach hs false (BitVec.ofNat 3 test.val))) s = .next t ∧ t.flag F.USBD_CTRL_ATTACH = attach ∧
      t.flag F.USBD_CTRL_HS_EN = hs ∧ t.fld F.USBD_CTRL_TEST = test.val ∧ KeepsRegs s t (R.USBD_CTRL :: logRegs P.USBD) ∧
      t = { s with regs := t.regs, resp := t.resp } := by
  obtain ⟨hattach, hhs, hrwake, htest⟩ := State.flag_resumeStored (s := s) (q := q) (attach := attach) (hs := hs) (rwake := false) (test := test)
  have hwake : (s.resumeStored q attach hs false test).opRemoteWake = s.resumeStored q attach hs false test :=
    if_pos (by rw [hrwake, Bool.and_false]; rfl)
  exact ⟨_, (exec_resumeWrite hopen hsame).trans (congrArg Host.Outcome.next hwake), hattach, hhs, htest, State.resumeStored_keepsRegs,
    State.rest_of_respond (State.storeReg_rest (s.respond false 0#64) _ _ _)⟩

theorem State.opRemoteWake_suspended (hlive : s.usbLive P.USBD = true) (hsusp : s.flag F.USBD_STAT_SUSPENDED = true) (hrwake : s.flag F.USBD_CTRL_RWAKE_EN = true) :
    s.opRemoteWake = { s with usb := if 400000 ≤ s.usb.idle then { s.usb with wakes := s.usb.wakes + 1, wakeHeld := false } else
      { s.usb with wakeHeld := true } } := by
  rw [State.opRemoteWake, hlive, hsusp, hrwake]
  by_cases hidle : 400000 ≤ s.usb.idle
  · rw [if_pos hidle, if_pos hidle]
    rfl
  · rw [if_neg hidle, if_neg hidle]
    rfl

/-- R480: with RWAKE_EN the wake is driven, or held. -/
theorem resumeWrite_wakes (hopen : OpenTo s q P.USBD) (hlive : s.usbLive P.USBD = true) (hsusp : s.flag F.USBD_STAT_SUSPENDED = true)
    (hattached : s.flag F.USBD_STAT_ATTACHED = true) (hvbus : s.flag F.USBD_STAT_VBUS = true) :
    ∃ t, exec (.resume (.write q true hs true (BitVec.ofNat 3 test.val))) s = .next t ∧ t.flag F.USBD_CTRL_HS_EN = hs ∧ t.fld F.USBD_CTRL_TEST = test.val ∧
      t.usb = (if 400000 ≤ s.usb.idle then { s.usb with wakes := s.usb.wakes + 1, wakeHeld := false } else { s.usb with wakeHeld := true }) ∧
      KeepsRegs s t (R.USBD_CTRL :: logRegs P.USBD) ∧ t = { s with regs := t.regs, resp := t.resp, usb := t.usb } := by
  have hexec := exec_resumeWrite (attach := true) (hs := hs) (rwake := true) (test := test) hopen (by rw [hattached, hvbus, hlive]; rfl)
  obtain ⟨-, hhs, hrwake, htest⟩ := State.flag_resumeStored (s := s) (q := q) (attach := true) (hs := hs) (rwake := true) (test := test)
  have hkept := State.resumeStored_keepsRegs (s := s) (q := q) (attach := true) (hs := hs) (rwake := true) (test := test)
  have hrest := State.resumeStored_rest (s := s) (q := q) (attach := true) (hs := hs) (rwake := true) (test := test)
  obtain ⟨u, hu⟩ : ∃ u, u = s.resumeStored q true hs true test := ⟨_, rfl⟩
  rw [← hu] at hexec hhs hrwake htest hkept hrest
  have hpower : u.power = s.power := by rw [hrest]
  rw [State.opRemoteWake_suspended ((hkept.usbLive hpower (by decide) (by decide)).trans hlive) ((hkept.flag (by decide)).trans hsusp) hrwake] at hexec
  refine ⟨_, hexec, hhs, htest, ?_, hkept.of_regs rfl, ?_⟩
  · rw [hrest]
  · rw [hrest]

end

/-! ### Suspend and resume by the host -/

section
variable {s : State}

/-- R480. -/
theorem opSuspend_effect (hlive : s.usbLive P.USBD = true) (hattached : s.flag F.USBD_STAT_ATTACHED = true) (hrunning : s.flag F.USBD_STAT_SUSPENDED = false) :
    ∃ t, s.opSuspend = t ∧ t.flag F.USBD_STAT_SUSPENDED = true ∧ t.event P.USBD E.USBD_SUSPEND = true ∧
      KeepsRegs s t [R.USBD_STAT, R.EVT_RAW P.USBD] ∧ t = { s with regs := t.regs, usb := { s.usb with idle := 0, wakeHeld := false, wakes := 0 } } := by
  have hcond : ¬ ((! (s.usbLive P.USBD && s.flag F.USBD_STAT_ATTACHED) || s.flag F.USBD_STAT_SUSPENDED) = true) := by
    rw [hlive, hattached, hrunning]
    decide
  refine ⟨_, if_neg hcond, ?_, State.event_raise _ _ _ (by decide),
    (((KeepsRegs.refl s _).setFlag (f := F.USBD_STAT_SUSPENDED) (b := true) (by decide)).raise (by decide)).of_regs rfl, rfl⟩
  exact (State.flag_raise_ne _ _ _ _ (by decide)).trans (State.flag_setFlag s F.USBD_STAT_SUSPENDED true (by decide) (by decide))

/-- R480. -/
theorem opHostResume_effect (hlive : s.usbLive P.USBD = true) (hsusp : s.flag F.USBD_STAT_SUSPENDED = true) :
    ∃ t, s.opHostResume = t ∧ t.flag F.USBD_STAT_SUSPENDED = false ∧ t.event P.USBD E.USBD_RESUME = true ∧
      KeepsRegs s t [R.USBD_STAT, R.EVT_RAW P.USBD] ∧ t = { s with regs := t.regs, usb := { s.usb with wakeHeld := false } } := by
  have hcond : ¬ ((! (s.usbLive P.USBD && s.flag F.USBD_STAT_SUSPENDED)) = true) := by
    rw [hlive, hsusp]
    decide
  refine ⟨_, if_neg hcond, ?_, State.event_raise _ _ _ (by decide),
    (((KeepsRegs.refl s _).setFlag (f := F.USBD_STAT_SUSPENDED) (b := false) (by decide)).raise (by decide)).of_regs rfl, rfl⟩
  exact (State.flag_raise_ne _ _ _ _ (by decide)).trans (State.flag_setFlag s F.USBD_STAT_SUSPENDED false (by decide) (by decide))

end

/-! ### The obligation -/

/-- The channel of endpoint number `k` + 1. -/
def epChannel (dirIn : Bool) (k : Fin 6) : Nat := if dirIn then k.val + 2 else k.val + 8

theorem epChannel_bounds (dirIn : Bool) (k : Fin 6) : 2 ≤ epChannel dirIn k ∧ epChannel dirIn k < 14 := by
  cases dirIn
  · exact ⟨Nat.le_add_left 2 (k.val + 6), Nat.add_lt_add_right k.isLt 8⟩
  · exact ⟨Nat.le_add_left 2 k.val, Nat.lt_of_lt_of_le (Nat.add_lt_add_right k.isLt 2) (by decide)⟩

/-- Settles O38: a configuration is stored or refused whole (R476), halts and clears act on the endpoint's bit and toggle (R479), and suspend and
resume on the port's (R480). -/
theorem usbServicePortEndpointsAndSuspend : Obligations.UsbServicePortEndpointsAndSuspend := by
  unfold Obligations.UsbServicePortEndpointsAndSuspend
  refine ⟨?_, ?_, ?_, ?_, ?_, ?_, ?_, ?_, ?_, ?_, ?_, ?_, ?_, ?_⟩
  · intro s q dirIn k mps ty mult fifo hopen hmps hty hmult hfifo hoff hunits hroom hbulk
    obtain ⟨he, he14⟩ := epChannel_bounds dirIn k
    exact (State.epCfg_effect he he14 hopen ⟨hmps, Nat.le_of_lt_succ mps.isLt⟩ ⟨hty, ty.isLt⟩ ⟨hmult, mult.isLt⟩ ⟨hfifo, fifo.isLt⟩ hoff hunits hroom
      hbulk).imp fun t ⟨ht, h⟩ => ⟨congrArg Host.Outcome.next ht, h⟩
  · intro s q dirIn k v hopen hon hfull
    obtain ⟨he, he14⟩ := epChannel_bounds dirIn k
    have hop := State.opEpCfg_full (s := s.respond false 0#64) (e := epChannel dirIn k) ⟨hon, hfull⟩ q.ni.val
    exact (State.epCfg_refused he he14 hopen (by decide) hop).imp fun t ⟨ht, h⟩ => ⟨congrArg Host.Outcome.next ht, h⟩
  · intro s dirIn k hanswers hnone
    obtain ⟨he, he14⟩ := epChannel_bounds dirIn k
    exact (State.endpointHalt_effect he he14 hnone).imp fun t ⟨ht, h⟩ => ⟨congrArg Host.Outcome.next ((if_pos hanswers).trans ht), h⟩
  · intro s q dirIn k hopen hnone
    obtain ⟨he, he14⟩ := epChannel_bounds dirIn k
    exact (State.usbdHalt_effect he he14 hopen hnone).imp fun t ⟨ht, h⟩ => ⟨congrArg Host.Outcome.next ht, h⟩
  · intro s dirIn k hanswers hnone
    obtain ⟨he, he14⟩ := epChannel_bounds dirIn k
    exact (State.endpointClear_effect he he14 hnone).imp fun t ⟨ht, h⟩ => ⟨congrArg Host.Outcome.next ((if_pos hanswers).trans ht), h⟩
  · intro s q n hopen hports
    have hnone : s.NoChannel (0x40 + n.val) := List.find?_eq_none.2 fun x hx => by
      rw [decide_eq_true_eq]
      exact fun ⟨hkind, hport⟩ => hports x hx hkind hport
    exact (State.pipeClear_effect n hopen hnone).imp fun t ⟨ht, h⟩ => ⟨congrArg Host.Outcome.next ht, h⟩
  · intro s hlive hattached hrunning
    exact (opSuspend_effect hlive hattached hrunning).imp fun t ⟨ht, h⟩ => ⟨congrArg Host.Outcome.next ht, h⟩
  · intro s hlive hsusp
    exact (opHostResume_effect hlive hsusp).imp fun t ⟨ht, h⟩ => ⟨congrArg Host.Outcome.next ht, h⟩
  · intro s q hs test hopen hlive hsusp hattached hvbus
    exact resumeWrite_wakes hopen hlive hsusp hattached hvbus
  · intro s q attach hs test hopen hsame
    exact resumeWrite_stored hopen hsame
  · intro s q dirIn k v hopen hoff hmps
    obtain ⟨he, he14⟩ := epChannel_bounds dirIn k
    exact (State.epCfg_refused he he14 hopen (by decide) (State.opEpCfg_illegal hoff hmps q.ni.val)).imp fun t ⟨ht, h⟩ => ⟨congrArg Host.Outcome.next ht, h⟩
  · intro s dirIn k hanswers
    have hnot : ¬ s.epAnswers (epChannel dirIn k) = true := by
      rw [show s.epAnswers (epChannel dirIn k) = false from hanswers]
      decide
    exact ⟨s, congrArg Host.Outcome.next (if_neg hnot), rfl, congrArg Host.Outcome.next (if_neg hnot)⟩
  · intro s hquiet
    refine ⟨s, congrArg Host.Outcome.next (if_pos ?_), rfl⟩
    rcases hquiet with hdead | hsusp
    · rw [hdead]
      rfl
    · rw [hsusp, Bool.or_true]
  · intro s hquiet
    refine ⟨s, congrArg Host.Outcome.next (if_pos ?_), rfl⟩
    rw [hquiet]
    rfl

end

end Sys2Proof.Machine
end


section
/-! The ADCs: triggers, the ends of sequences, and the flush (R509, R510). -/
namespace Sys2Proof.Machine

-- Checked one after another: side by side these evaluations take more memory than the check has.
set_option Elab.async false

/-! ### The port, and the register that shows it -/

section
variable (s : State) (n : Nat) (p : AdcPort)

theorem State.adc_setAdc : (s.setAdc n p).adc n = p := (SMap.get_put _ _ _ _ _).trans (if_pos rfl)

theorem State.setAdc_rest : s.setAdc n p = { s with regs := (s.setAdc n p).regs, field := { s.field with adc := (s.setAdc n p).field.adc } } := rfl

theorem State.resp_setAdc : (s.setAdc n p).resp = s.resp := rfl

/-- What else a write leaves as it was, once a port has changed. -/
theorem State.rest_setAdc {s u : State} {r : Resp} (h : u = { s with regs := u.regs, resp := r }) : u.setAdc n p =
    { s with regs := (u.setAdc n p).regs, resp := (u.setAdc n p).resp, field := { s.field with adc := (u.setAdc n p).field.adc } } := by
  refine (u.setAdc_rest n p).trans ?_
  rw [State.resp_setAdc]
  generalize (u.setAdc n p).regs = regs
  generalize (u.setAdc n p).field.adc = ports
  rw [h]

theorem State.busy_setAdc : (s.setAdc n p).flag (F.ADC_FIFO_BUSY n) = p.run.isSome :=
  State.flag_setFlag _ (F.ADC_FIFO_BUSY n) _ (by simp [F.ADC_FIFO_BUSY]) Nat.one_pos

theorem State.pending_setAdc : (s.setAdc n p).flag (F.ADC_FIFO_PENDING n) = p.held.isSome :=
  (State.flag_setFlag_ne _ (F.ADC_FIFO_BUSY n) (F.ADC_FIFO_PENDING n) _ (.inr (.inl (by simp [F.ADC_FIFO_PENDING, F.ADC_FIFO_BUSY])))).trans
    (State.flag_setFlag _ (F.ADC_FIFO_PENDING n) _ (by simp [F.ADC_FIFO_PENDING]) Nat.one_pos)

theorem State.level_setAdc : (s.setAdc n p).fld (F.ADC_FIFO_LEVEL n) = p.fifo.length % 2 ^ 13 := by
  refine (State.fld_setFld_ne _ (F.ADC_FIFO_BUSY n) (F.ADC_FIFO_LEVEL n) _ (.inr (.inl (by simp [F.ADC_FIFO_LEVEL, F.ADC_FIFO_BUSY])))).trans ?_
  refine (State.fld_setFld_ne _ (F.ADC_FIFO_PENDING n) (F.ADC_FIFO_LEVEL n) _ (.inr (.inl (by simp [F.ADC_FIFO_LEVEL, F.ADC_FIFO_PENDING])))).trans ?_
  refine (State.fld_setFld_ne _ (F.ADC_FIFO_PEAK n) (F.ADC_FIFO_LEVEL n) _ (.inr (.inl (by simp [F.ADC_FIFO_LEVEL, F.ADC_FIFO_PEAK])))).trans ?_
  exact State.fld_setFld _ (F.ADC_FIFO_LEVEL n) _ (by simp [F.ADC_FIFO_LEVEL])

variable {s n p}

theorem KeepsRegs.setAdc {t : State} {l : List Nat} (h : KeepsRegs s t l) (hl : R.ADC_FIFO n ∈ l) : KeepsRegs s (t.setAdc n p) l := by
  rw [State.setAdc]
  exact (((h.of_regs rfl).setFld (f := F.ADC_FIFO_LEVEL n) hl |>.setFld (f := F.ADC_FIFO_PEAK n) hl).setFlag (f := F.ADC_FIFO_PENDING n) hl).setFlag
    (f := F.ADC_FIFO_BUSY n) hl

end

/-- The sequence that starts with this stamp. -/
def State.adcNext (s : State) (n : Nat) (stamp : Option Nat) : AdcSequence :=
  ⟨stamp, 0, s.raw (R.ADC_SEQ n), s.flag (F.ADC_CFG_FORMAT n), s.flag (F.ADC_CFG_CONT n), false⟩

theorem State.adcStart_eq (s : State) (n : Nat) (stamp : Option Nat) : s.adcStart n stamp = s.setAdc n { s.adc n with run := some (s.adcNext n stamp) } := rfl

/-- The registers that a sequence starts from. -/
def adcStartRegs (n : Nat) : List Nat := [R.ADC_SEQ n, R.ADC_CFG n]

theorem KeepsRegs.adcNext {s t : State} {l : List Nat} (h : KeepsRegs s t l) {n : Nat} (hl : ∀ a ∈ adcStartRegs n, a ∉ l) (stamp : Option Nat) :
    t.adcNext n stamp = s.adcNext n stamp := by
  have hcfg : R.ADC_CFG n ∉ l := hl _ (by simp [adcStartRegs])
  rw [State.adcNext, State.adcNext, h _ (hl _ (by simp [adcStartRegs])), h.flag (f := F.ADC_CFG_FORMAT n) hcfg, h.flag (f := F.ADC_CFG_CONT n) hcfg]

theorem KeepsRegs.phaseNow {s t : State} {l : List Nat} (h : KeepsRegs s t l) (hstate : R.REED_STATE ∉ l) (hnow : R.REED_NOW ∉ l) : t.phaseNow = s.phaseNow := by
  rw [State.phaseNow, State.phaseNow, h.flag (f := F.REED_STATE_VALID) hstate, h.fld (f := F.REED_NOW_PHASE) hnow]

theorem adcFifo_apart : ∀ n : Fin 2, (∀ a ∈ adcStartRegs n.val, a ∉ [R.ADC_FIFO n.val]) ∧ R.REED_STATE ∉ [R.ADC_FIFO n.val] ∧
    R.REED_NOW ∉ [R.ADC_FIFO n.val] := by
  decide

/-! ### Triggers -/

/-- The bit of ADC_TRIG for a source. -/
def adcTrigF (n : Nat) : AdcSource → Fld
  | .reed => F.ADC_TRIG_REED n
  | .shuttle => F.ADC_TRIG_SHUTTLE n
  | .sw => F.ADC_TRIG_SW n

section
variable {s : State} {n : Nat} {src : AdcSource}

theorem State.adcFrom_eq : s.adcFrom n src = if s.flag (adcTrigF n src) && s.ioLive (P.ADC n) then s.adcTrigger n s.phaseNow else s := by
  cases src <;> rfl

section
variable (hlive : s.ioLive (P.ADC n) = true) (hen : s.flag (adcTrigF n src) = true)
include hlive hen

theorem State.adcFrom_accepted : s.adcFrom n src = s.adcTrigger n s.phaseNow := by
  rw [State.adcFrom_eq, hlive, hen]
  rfl

theorem State.adcFrom_starts (hidle : (s.adc n).run = none) :
    s.adcFrom n src = s.setAdc n { s.adc n with run := some (s.adcNext n s.phaseNow) } := by
  rw [State.adcFrom_accepted hlive hen]
  exact if_pos (by rw [hidle]; rfl)

theorem State.adcFrom_held (hrun : (s.adc n).run.isSome = true) (hfree : (s.adc n).held = none) :
    s.adcFrom n src = s.setAdc n { s.adc n with held := some s.phaseNow } := by
  rw [State.adcFrom_accepted hlive hen]
  refine (if_neg ?_).trans (if_pos (by rw [hfree]; rfl))
  rw [← Option.not_isSome, hrun]
  decide

theorem State.adcFrom_missed (hrun : (s.adc n).run.isSome = true) (hheld : (s.adc n).held.isSome = true) :
    s.adcFrom n src = (s.bumpSat (F.ADC_STAT_MISSED n) (F.ADC_STAT_MSAT n)).raise (P.ADC n) E.ADC_MISSED := by
  rw [State.adcFrom_accepted hlive hen]
  refine (if_neg ?_).trans (if_neg ?_)
  · rw [← Option.not_isSome, hrun]
    decide
  · rw [← Option.not_isSome, hheld]
    decide

end

/-- R510: a trigger starts a sequence. -/
theorem State.adcTrigger_starts (hlive : s.ioLive (P.ADC n) = true) (hen : s.flag (adcTrigF n src) = true) (hidle : (s.adc n).run = none) :
    ∃ t, s.adcFrom n src = t ∧ t.adc n = { s.adc n with run := some (s.adcNext n s.phaseNow) } ∧ t.flag (F.ADC_FIFO_BUSY n) = true ∧
      KeepsRegs s t [R.ADC_FIFO n] ∧ t = { s with regs := t.regs, field := { s.field with adc := t.field.adc } } :=
  ⟨_, State.adcFrom_starts hlive hen hidle, State.adc_setAdc _ _ _, State.busy_setAdc _ _ _, (KeepsRegs.refl s _).setAdc List.mem_cons_self, rfl⟩

/-- R510: one is held. -/
theorem State.adcTrigger_held (hlive : s.ioLive (P.ADC n) = true) (hen : s.flag (adcTrigF n src) = true) (hrun : (s.adc n).run.isSome = true)
    (hfree : (s.adc n).held = none) :
    ∃ t, s.adcFrom n src = t ∧ t.adc n = { s.adc n with held := some s.phaseNow } ∧ t.flag (F.ADC_FIFO_PENDING n) = true ∧
      KeepsRegs s t [R.ADC_FIFO n] ∧ t = { s with regs := t.regs, field := { s.field with adc := t.field.adc } } :=
  ⟨_, State.adcFrom_held hlive hen hrun hfree, State.adc_setAdc _ _ _, State.pending_setAdc _ _ _, (KeepsRegs.refl s _).setAdc List.mem_cons_self, rfl⟩

end

theorem adcStat_apart : ∀ n : Fin 2, R.ADC_STAT n.val ≠ R.EVT_RAW (P.ADC n.val) ∧ R.ADC_FIFO n.val ≠ R.EVT_RAW (P.ADC n.val) := by decide

/-- R510: one is missed. -/
theorem State.adcTrigger_missed {s : State} {n : Fin 2} {src : AdcSource} (hlive : s.ioLive (P.ADC n.val) = true) (hen : s.flag (adcTrigF n.val src) = true)
    (hrun : (s.adc n.val).run.isSome = true) (hheld : (s.adc n.val).held.isSome = true) :
    ∃ t, s.adcFrom n.val src = t ∧ t.event (P.ADC n.val) E.ADC_MISSED = true ∧
      t.fld (F.ADC_STAT_MISSED n.val) = min (2 ^ (F.ADC_STAT_MISSED 0).width - 1) (s.fld (F.ADC_STAT_MISSED n.val) + 1) ∧
      KeepsRegs s t [R.ADC_STAT n.val, R.EVT_RAW (P.ADC n.val)] ∧ t = { s with regs := t.regs } := by
  refine ⟨_, State.adcFrom_missed hlive hen hrun hheld, State.event_raise _ _ _ (by decide), ?_,
    ((KeepsRegs.refl s _).bumpSat (f := F.ADC_STAT_MISSED n.val) (g := F.ADC_STAT_MSAT n.val) List.mem_cons_self List.mem_cons_self).raise (by simp), ?_⟩
  · refine (State.fld_raise_ne _ _ _ _ (adcStat_apart n).1).trans ?_
    exact State.fld_bumpSat s (f := F.ADC_STAT_MISSED n.val) (by simp [F.ADC_STAT_MISSED]) (.inr (.inl (by simp [F.ADC_STAT_MISSED, F.ADC_STAT_MSAT])))
  · rw [State.bumpSat_rest]
    rfl

theorem adcSwTrig_fields : ∀ n : Fin 2, inPage (R.ADC_SW_TRIG n.val) (P.ADC n.val) = true ∧ neverFrozen (R.ADC_SW_TRIG n.val) = true ∧
    (F.ADC_SW_TRIG_GO n.val).acting = true ∧ pageBase (R.ADC_SW_TRIG n.val) = P.ADC n.val := by
  decide +kernel

/-! ### A trigger by software -/

/-- The registers that a trigger by software depends on. -/
def adcSwRegs (n : Nat) : List Nat :=
  [R.ADC_TRIG n, R.REED_STATE, R.REED_NOW, R.PWR_STATE, R.CLK_STOP_KEEP_0, R.PAGE_STAT (P.ADC n)] ++ adcStartRegs n

theorem adcSwRegs_apart : ∀ n : Fin 2, ∀ a ∈ adcSwRegs n.val, a ∉ R.ADC_SW_TRIG n.val :: logRegs (P.ADC n.val) := by decide

theorem State.pageClocked_adc (s : State) (n : Fin 2) : s.pageClocked (P.ADC n.val) = s.kept 7 := by
  have hpages : ∀ m : Fin 2, P.ADC m.val ≠ P.GPIO ∧ (P.ADC m.val = P.ADC 0 ∨ P.ADC m.val = P.ADC 1) := by decide
  exact (if_neg (hpages n).1).trans (if_pos (hpages n).2)

section
variable {s t : State} {l : List Nat} (h : KeepsRegs s t l) (hpower : t.power = s.power) {n : Fin 2} (hl : ∀ a ∈ adcSwRegs n.val, a ∉ l)
include h hpower hl

theorem KeepsRegs.adcLive : t.ioLive (P.ADC n.val) = s.ioLive (P.ADC n.val) := by
  have hstat : R.PAGE_STAT (P.ADC n.val) ∉ l := hl _ (by simp [adcSwRegs])
  rw [State.ioLive, State.ioLive, State.pageClocked_adc, State.pageClocked_adc, h.kept hpower (hl _ (by simp [adcSwRegs])) (hl _ (by simp [adcSwRegs])),
    State.running, State.running, State.resetting, State.resetting, h.flag (f := F.PAGE_STAT_ENABLED (P.ADC n.val)) hstat,
    h.flag (f := F.PAGE_STAT_RESETTING (P.ADC n.val)) hstat]

end

/-- R509, R510: a trigger by software starts a sequence. -/
theorem State.adcSwTrig_starts {s : State} {q : Req} {n : Fin 2} (hopen : OpenTo s q (P.ADC n.val)) (hlive : s.ioLive (P.ADC n.val) = true)
    (hen : s.flag (F.ADC_TRIG_SW n.val) = true) (hidle : (s.adc n.val).run = none) :
    ∃ t, s.gateWrite q (R.ADC_SW_TRIG n.val) .w 1#64 (fun u => u.opSwTrig q.ni.val n.val 1#64) = t ∧
      t.adc n.val = { s.adc n.val with run := some (s.adcNext n.val s.phaseNow) } ∧
      KeepsRegs s t ([R.ADC_FIFO n.val, R.ADC_SW_TRIG n.val] ++ logRegs (P.ADC n.val)) ∧
      t = { s with regs := t.regs, resp := t.resp, field := { s.field with adc := t.field.adc } } := by
  obtain ⟨hin, hfrozen, hacting, hpage⟩ := adcSwTrig_fields n
  have hfree : (s.respond false 0#64).Unfrozen (R.ADC_SW_TRIG n.val) := State.unfrozen_of_page _ hfrozen
  have hact : (F.ADC_SW_TRIG_GO n.val).of ((s.respond false 0#64).storeReg q.ni.val (R.ADC_SW_TRIG n.val) 1#64).2 = 1 :=
    State.of_storeReg_acting (x := F.ADC_SW_TRIG_GO n.val) q.ni.val 1#64 hfree hacting
  have hkept : KeepsRegs s (s.stored q (R.ADC_SW_TRIG n.val) 1#64) (R.ADC_SW_TRIG n.val :: logRegs (P.ADC n.val)) :=
    hpage ▸ s.stored_keepsRegs q (R.ADC_SW_TRIG n.val) 1#64
  have hrest := s.stored_rest q (R.ADC_SW_TRIG n.val) 1#64
  have hop : (s.respond false 0#64).opSwTrig q.ni.val n.val 1#64 = (s.stored q (R.ADC_SW_TRIG n.val) 1#64).adcFrom n.val .sw :=
    if_neg fun hzero => absurd (hact.symm.trans hzero) (by decide)
  have hgate := (State.gate_inPage .w 1#64 (fun u => u.opSwTrig q.ni.val n.val 1#64) hopen hin).trans hop
  obtain ⟨u, hu⟩ : ∃ u, u = s.stored q (R.ADC_SW_TRIG n.val) 1#64 := ⟨_, rfl⟩
  rw [← hu] at hkept hrest hgate
  have hpower : u.power = s.power := by rw [hrest]
  have hadc : u.adc n.val = s.adc n.val := by
    rw [hrest]
    rfl
  have happart := adcSwRegs_apart n
  have huen : u.flag (adcTrigF n.val .sw) = true := (hkept.flag (f := F.ADC_TRIG_SW n.val) (happart (R.ADC_TRIG n.val) (by simp [adcSwRegs]))).trans hen
  have hstarts := State.adcFrom_starts ((hkept.adcLive hpower happart).trans hlive) huen (by rw [hadc, hidle])
  rw [hadc, hkept.phaseNow (happart _ (by simp [adcSwRegs])) (happart _ (by simp [adcSwRegs])),
    hkept.adcNext (fun a ha => happart a (List.mem_append_right _ ha))] at hstarts
  refine ⟨_, hgate.trans hstarts, State.adc_setAdc _ _ _, (hkept.mono fun a ha => List.mem_cons_of_mem _ ha).setAdc List.mem_cons_self,
    State.rest_setAdc _ _ hrest⟩

/-! ### The end of a sequence -/

section
variable {s : State} {n : Fin 2}

theorem pulse_sel_apart (n : Fin 2) : ∀ a ∈ [R.ADC_FIFO n.val], pageBase a ≠ P.SHUTTLE := by
  revert n
  decide

variable {q : AdcSequence} (hlive : s.ioLive (P.ADC n.val) = true) (hrun : (s.adc n.val).run = some q) (hdone : Bits.get q.seq 24 3 < q.done)
include hlive hrun hdone

theorem State.opSequenceEnd_held {st : Option Nat} (hheld : (s.adc n.val).held = some st) : s.opSequenceEnd n.val =
    ((s.pulse (58 + n.val)).setAdc n.val { s.adc n.val with run := none, held := none }).adcStart n.val st := by
  rw [State.opSequenceEnd, hlive]
  simp only [hrun, if_neg (Nat.not_le.2 hdone), hheld]
  rfl

theorem State.opSequenceEnd_free (hheld : (s.adc n.val).held = none) : s.opSequenceEnd n.val =
    if q.cont then ((s.pulse (58 + n.val)).setAdc n.val { s.adc n.val with run := none }).adcStart n.val
      ((s.pulse (58 + n.val)).setAdc n.val { s.adc n.val with run := none }).phaseNow
    else (s.pulse (58 + n.val)).setAdc n.val { s.adc n.val with run := none } := by
  rw [State.opSequenceEnd, hlive]
  simp only [hrun, if_neg (Nat.not_le.2 hdone), hheld]
  rfl

end

section
variable {s : State} {n : Fin 2} (p : AdcPort)

/-- The state in which a sequence has ended. -/
def State.adcEnded (s : State) (n : Nat) (p : AdcPort) : State := (s.pulse (58 + n)).setAdc n p

theorem State.adcEnded_keepsRegs : KeepsRegs s (s.adcEnded n.val p) [R.ADC_FIFO n.val] := by
  refine KeepsRegs.setAdc ?_ List.mem_cons_self
  rw [State.pulse_only]
  exact (KeepsRegs.refl s _).of_regs rfl

theorem State.adcEnded_rest : s.adcEnded n.val p = { s with
    regs := (s.adcEnded n.val p).regs, shuttle := (s.pulse (58 + n.val)).shuttle, field := { s.field with adc := (s.adcEnded n.val p).field.adc } } := by
  rw [State.adcEnded, State.pulse_only]
  rfl

/-- R509: the next sequence starts at once. -/
theorem State.adcEnded_next (stamp : Option Nat) : ∃ t, (s.adcEnded n.val p).adcStart n.val stamp = t ∧
    t.adc n.val = { p with run := some (s.adcNext n.val stamp) } ∧ t.shuttle = (s.pulse (58 + n.val)).shuttle ∧ KeepsRegs s t [R.ADC_FIFO n.val] ∧
    t = { s with regs := t.regs, shuttle := t.shuttle, field := { s.field with adc := t.field.adc } } := by
  have hkept := State.adcEnded_keepsRegs (s := s) (n := n) p
  have hrest := State.adcEnded_rest (s := s) (n := n) p
  have hadc : (s.adcEnded n.val p).adc n.val = p := State.adc_setAdc _ _ _
  obtain ⟨u, hu⟩ : ∃ u, u = s.adcEnded n.val p := ⟨_, rfl⟩
  rw [← hu] at hkept hrest hadc ⊢
  rw [State.adcStart_eq, hadc, hkept.adcNext (adcFifo_apart n).1]
  refine ⟨_, rfl, State.adc_setAdc _ _ _, ?_, hkept.setAdc List.mem_cons_self, ?_⟩
  · rw [hrest]
    rfl
  · rw [hrest]
    rfl

end

/-! ### The flush -/

/-- What ADC_CFG is written to flush the FIFO. -/
def flushValue (format cont : Bool) : DWord :=
  BitVec.ofNat 64 ((F.ADC_CFG_FORMAT 0).at (b2n format) + (F.ADC_CFG_CONT 0).at (b2n cont) + (F.ADC_CFG_FLUSH 0).at 1)

theorem of_flushValue (format cont : Bool) : ∀ n : Fin 2, (F.ADC_CFG_FORMAT n.val).of (flushValue format cont) = b2n format ∧
    (F.ADC_CFG_CONT n.val).of (flushValue format cont) = b2n cont ∧ (F.ADC_CFG_FLUSH n.val).of (flushValue format cont) = 1 := by
  revert format cont
  decide

theorem adcCfg_fields : ∀ n : Fin 2, inPage (R.ADC_CFG n.val) (P.ADC n.val) = true ∧ neverFrozen (R.ADC_CFG n.val) = true ∧
    (F.ADC_CFG_FLUSH n.val).acting = true ∧ (F.ADC_CFG_FORMAT n.val).plain = true ∧ (F.ADC_CFG_CONT n.val).plain = true ∧
    pageBase (R.ADC_CFG n.val) = P.ADC n.val ∧ R.ADC_CFG n.val ≠ R.ADC_FIFO n.val := by
  decide +kernel

theorem b2n_ne_zero (b : Bool) : (b2n b != 0) = b := by cases b <;> rfl

/-- R509: the FIFO is emptied, and what else is written is stored. -/
theorem State.flush_effect {s : State} {q : Req} (n : Fin 2) (format cont : Bool) (hopen : OpenTo s q (P.ADC n.val)) :
    ∃ t, s.gateWrite q (R.ADC_CFG n.val) .w (flushValue format cont) (fun u => u.opAdcCfg q.ni.val n.val (flushValue format cont)) = t ∧
      t.adc n.val = { s.adc n.val with fifo := [] } ∧ t.fld (F.ADC_FIFO_LEVEL n.val) = 0 ∧ t.flag (F.ADC_CFG_FORMAT n.val) = format ∧
      t.flag (F.ADC_CFG_CONT n.val) = cont ∧ KeepsRegs s t ([R.ADC_FIFO n.val, R.ADC_CFG n.val] ++ logRegs (P.ADC n.val)) ∧
      t = { s with regs := t.regs, resp := t.resp, field := { s.field with adc := t.field.adc } } := by
  obtain ⟨hin, hfrozen, hacting, hformat, hcont, hpage, happart⟩ := adcCfg_fields n
  obtain ⟨hofFormat, hofCont, hofFlush⟩ := of_flushValue format cont n
  have hfree : (s.respond false 0#64).Unfrozen (R.ADC_CFG n.val) := State.unfrozen_of_page _ hfrozen
  have hact : (F.ADC_CFG_FLUSH n.val).of ((s.respond false 0#64).storeReg q.ni.val (R.ADC_CFG n.val) (flushValue format cont)).2 = 1 :=
    (State.of_storeReg_acting (x := F.ADC_CFG_FLUSH n.val) q.ni.val _ hfree hacting).trans hofFlush
  have hkept : KeepsRegs s (s.stored q (R.ADC_CFG n.val) (flushValue format cont)) (R.ADC_CFG n.val :: logRegs (P.ADC n.val)) :=
    hpage ▸ s.stored_keepsRegs q (R.ADC_CFG n.val) (flushValue format cont)
  have hrest := s.stored_rest q (R.ADC_CFG n.val) (flushValue format cont)
  have hfmt : (s.stored q (R.ADC_CFG n.val) (flushValue format cont)).fld (F.ADC_CFG_FORMAT n.val) = b2n format :=
    (State.fld_storeReg_plain (x := F.ADC_CFG_FORMAT n.val) q.ni.val _ hfree hformat).trans hofFormat
  have hcnt : (s.stored q (R.ADC_CFG n.val) (flushValue format cont)).fld (F.ADC_CFG_CONT n.val) = b2n cont :=
    (State.fld_storeReg_plain (x := F.ADC_CFG_CONT n.val) q.ni.val _ hfree hcont).trans hofCont
  have hop : (s.respond false 0#64).opAdcCfg q.ni.val n.val (flushValue format cont) = (s.stored q (R.ADC_CFG n.val) (flushValue format cont)).setAdc n.val
      { (s.stored q (R.ADC_CFG n.val) (flushValue format cont)).adc n.val with fifo := [] } :=
    if_neg fun hzero => absurd (hact.symm.trans hzero) (by decide)
  have hgate := (State.gate_inPage .w (flushValue format cont) (fun u => u.opAdcCfg q.ni.val n.val (flushValue format cont)) hopen hin).trans hop
  obtain ⟨u, hu⟩ : ∃ u, u = s.stored q (R.ADC_CFG n.val) (flushValue format cont) := ⟨_, rfl⟩
  rw [← hu] at hkept hrest hfmt hcnt hgate
  have hadc : u.adc n.val = s.adc n.val := by
    rw [hrest]
    rfl
  rw [hadc] at hgate
  have hcfg : ∀ a ∉ [R.ADC_FIFO n.val], (u.setAdc n.val { s.adc n.val with fifo := [] }).raw a = u.raw a := (KeepsRegs.refl u _).setAdc List.mem_cons_self
  have hafter : KeepsRegs u (u.setAdc n.val { s.adc n.val with fifo := [] }) [R.ADC_FIFO n.val] := hcfg
  have hnot : R.ADC_CFG n.val ∉ [R.ADC_FIFO n.val] := by simpa using happart
  refine ⟨_, hgate, State.adc_setAdc _ _ _, State.level_setAdc _ _ _, ?_, ?_, (hkept.mono fun a ha => List.mem_cons_of_mem _ ha).setAdc List.mem_cons_self,
    State.rest_setAdc _ _ hrest⟩
  · rw [hafter.flag (f := F.ADC_CFG_FORMAT n.val) hnot, State.flag, hfmt, b2n_ne_zero]
  · rw [hafter.flag (f := F.ADC_CFG_CONT n.val) hnot, State.flag, hcnt, b2n_ne_zero]

end Sys2Proof.Machine
end

section
/-! The ADCs: conversions (R511). -/
namespace Sys2Proof.Machine

/-! ### The limit comparator -/

section
variable {s : State} {n : Nat}

/-- R511: a comparator that is off holds its level low. -/
theorem State.adcCompare_off (hoff : s.flag (F.ADC_LIMIT_EN n) = false) :
    s.adcCompare n = { s with shuttle := { s.shuttle with levels := clearBits s.shuttle.levels (2 ^ (60 + n)) } } := by
  rw [State.adcCompare, hoff]
  rfl

/-- The raw code is outside the limits. -/
def State.beyondLimits (s : State) (n raw : Nat) : Bool := decide (raw < s.fld (F.ADC_LIMIT_LOW n) ∨ s.fld (F.ADC_LIMIT_HIGH n) < raw)

/-- The state in which the comparator's level is `out`. -/
def State.setLimit (s : State) (n : Nat) (out : Bool) : State :=
  { s with shuttle := { s.shuttle with levels := clearBits s.shuttle.levels (2 ^ (60 + n)) + (if out then 2 ^ (60 + n) else 0) } }

theorem testBit_clearBits_add (l k : Nat) (out : Bool) : (clearBits l (2 ^ k) + (if out then 2 ^ k else 0)).testBit k = out := by
  have hclear : (clearBits l (2 ^ k)).testBit k = false := by rw [testBit_clearBits, decide_eq_false (by simp), Bool.and_false]
  cases out
  · exact hclear
  · rw [if_pos rfl, Nat.add_comm, Nat.testBit_two_pow_add_eq, hclear]
    rfl

/-- R511: one that is on judges the last raw code of its input. -/
theorem State.adcCompare_on {raw : Nat} (hon : s.flag (F.ADC_LIMIT_EN n) = true) (hraw : AMap.get? (s.adc n).raws (s.fld (F.ADC_LIMIT_INPUT n)) = some raw)
    (hlow : s.shuttle.levels.testBit (60 + n) = false) :
    s.adcCompare n = (s.setLimit n (s.beyondLimits n raw)).when (s.beyondLimits n raw) (fun u => u.raise (P.ADC n) E.ADC_LIMIT) := by
  rw [State.adcCompare, hon, hlow, Bool.not_false]
  simp only [Bool.true_and, Bool.and_true, hraw]
  rfl

end

/-! ### A raw code -/

section
variable {s : State} {n : Fin 2} {input raw : Nat}

/-- The state in which the raw code is noted. -/
def State.adcNoted (s : State) (n input raw : Nat) : State := s.setAdc n { s.adc n with raws := AMap.put (s.adc n).raws input raw }

theorem State.adcNoted_keepsRegs : KeepsRegs s (s.adcNoted n.val input raw) [R.ADC_FIFO n.val] := (KeepsRegs.refl s _).setAdc List.mem_cons_self

theorem State.adc_adcNoted : (s.adcNoted n.val input raw).adc n.val = { s.adc n.val with raws := AMap.put (s.adc n.val).raws input raw } := State.adc_setAdc _ _ _

theorem State.adcNoted_rest : s.adcNoted n.val input raw =
    { s with regs := (s.adcNoted n.val input raw).regs, field := { s.field with adc := (s.adcNoted n.val input raw).field.adc } } := rfl

theorem State.adcRaw_eq : s.adcRaw n.val input raw = (s.adcNoted n.val input raw).adcCompare n.val := rfl

theorem adcLimit_apart : ∀ n : Fin 2, R.ADC_LIMIT n.val ∉ [R.ADC_FIFO n.val] ∧ R.ADC_CAL n.val ∉ [R.ADC_FIFO n.val] ∧
    R.ADC_STAT n.val ∉ [R.ADC_FIFO n.val] := by
  decide

/-- What a raw code leaves while the comparator is off. -/
theorem State.adcRaw_off (hoff : s.flag (F.ADC_LIMIT_EN n.val) = false) : ∃ u, s.adcRaw n.val input raw = u ∧
    u.adc n.val = { s.adc n.val with raws := AMap.put (s.adc n.val).raws input raw } ∧ KeepsRegs s u [R.ADC_FIFO n.val] ∧
    u = { s with regs := u.regs, field := { s.field with adc := u.field.adc }
                 shuttle := { s.shuttle with levels := clearBits s.shuttle.levels (2 ^ (60 + n.val)) } } := by
  have hkept := State.adcNoted_keepsRegs (s := s) (n := n) (input := input) (raw := raw)
  have hadc := State.adc_adcNoted (s := s) (n := n) (input := input) (raw := raw)
  have hrest := State.adcNoted_rest (s := s) (n := n) (input := input) (raw := raw)
  rw [State.adcRaw_eq]
  obtain ⟨w, hw⟩ : ∃ w, w = s.adcNoted n.val input raw := ⟨_, rfl⟩
  rw [← hw] at hkept hadc hrest ⊢
  refine ⟨_, State.adcCompare_off ((hkept.flag (f := F.ADC_LIMIT_EN n.val) (adcLimit_apart n).1).trans hoff), hadc, hkept.of_regs rfl, ?_⟩
  rw [hrest]

/-- What one leaves while the comparator judges this input, and was low. -/
theorem State.adcRaw_on (hon : s.flag (F.ADC_LIMIT_EN n.val) = true) (hinput : s.fld (F.ADC_LIMIT_INPUT n.val) = input)
    (hlow : s.shuttle.levels.testBit (60 + n.val) = false) : ∃ u, s.adcRaw n.val input raw = u ∧
    u.adc n.val = { s.adc n.val with raws := AMap.put (s.adc n.val).raws input raw } ∧
    u.shuttle.levels.testBit (60 + n.val) = s.beyondLimits n.val raw ∧
    (s.beyondLimits n.val raw = true → u.event (P.ADC n.val) E.ADC_LIMIT = true) ∧ KeepsRegs s u [R.ADC_FIFO n.val, R.EVT_RAW (P.ADC n.val)] ∧
    u = { s with regs := u.regs, field := { s.field with adc := u.field.adc }, shuttle := { s.shuttle with levels := u.shuttle.levels } } := by
  have hkept := State.adcNoted_keepsRegs (s := s) (n := n) (input := input) (raw := raw)
  have hadc := State.adc_adcNoted (s := s) (n := n) (input := input) (raw := raw)
  have hrest := State.adcNoted_rest (s := s) (n := n) (input := input) (raw := raw)
  have happart := (adcLimit_apart n).1
  rw [State.adcRaw_eq]
  obtain ⟨w, hw⟩ : ∃ w, w = s.adcNoted n.val input raw := ⟨_, rfl⟩
  rw [← hw] at hkept hadc hrest ⊢
  have hbeyond : w.beyondLimits n.val raw = s.beyondLimits n.val raw := by
    rw [State.beyondLimits, State.beyondLimits, hkept.fld (f := F.ADC_LIMIT_LOW n.val) happart, hkept.fld (f := F.ADC_LIMIT_HIGH n.val) happart]
  have hraw : AMap.get? (w.adc n.val).raws (w.fld (F.ADC_LIMIT_INPUT n.val)) = some raw := by
    rw [hkept.fld (f := F.ADC_LIMIT_INPUT n.val) happart, hinput, hadc]
    exact AMap.get?_put _ _ _
  have hlevels : w.shuttle = s.shuttle := by rw [hrest]
  have hcompare := State.adcCompare_on ((hkept.flag (f := F.ADC_LIMIT_EN n.val) happart).trans hon) hraw (by rw [hlevels, hlow])
  rw [hbeyond] at hcompare
  have hset : KeepsRegs s (w.setLimit n.val (s.beyondLimits n.val raw)) [R.ADC_FIFO n.val, R.EVT_RAW (P.ADC n.val)] :=
    (hkept.mono fun a ha => List.mem_cons.2 (.inl (List.mem_singleton.1 ha))).of_regs rfl
  refine ⟨_, hcompare, ?_⟩
  cases s.beyondLimits n.val raw with
  | false =>
    refine ⟨hadc, testBit_clearBits_add _ _ false, nofun, hset, ?_⟩
    rw [hrest]
    rfl
  | true =>
    refine ⟨hadc, testBit_clearBits_add _ _ true, fun _ => State.event_raise _ _ _ (by decide), hset.raise (by simp), ?_⟩
    rw [hrest]
    rfl

end

/-! ### A conversion -/

theorem State.adc_congr {s t : State} (h : t.field.adc = s.field.adc) (n : Nat) : t.adc n = s.adc n := by rw [State.adc, State.adc, h]

theorem State.adc_setFld (s : State) (f : Fld) (v n : Nat) : (s.setFld f v).adc n = s.adc n := rfl

/-- What else a conversion leaves as it was, once the raw code is noted. -/
theorem State.rest_of_adcRaw {s u t : State} {x : ShuttleState} (hu : u = { s with regs := u.regs, field := { s.field with adc := u.field.adc }, shuttle := x })
    (ht : t = { u with regs := t.regs, field := { u.field with adc := t.field.adc } }) :
    t = { s with regs := t.regs, field := { s.field with adc := t.field.adc }, shuttle := x } := by
  rw [ht, hu]

theorem State.portError_none {u : State} {kind port detail : Nat} (hnone : u.portItem kind port = none) :
    u.portError kind port detail = { u with field := { u.field with held := (u.portError kind port detail).field.held } } := by
  rw [State.portError, hnone]
  dsimp only
  split <;> rfl

theorem State.portItem_congr {s t : State} (hpower : t.power = s.power) (hheddle : t.heddle = s.heddle) (kind port : Nat) :
    t.portItem kind port = s.portItem kind port := by
  rw [State.portItem, State.portItem, hpower, hheddle]

/-- The same, once an error has been held for the port. -/
theorem State.rest_of_overflow {s x y t : State} {sh : ShuttleState}
    (hx : x = { s with regs := x.regs, field := { s.field with adc := x.field.adc }, shuttle := sh }) (hy : y = { x with regs := y.regs })
    (ht : t = { y with field := { y.field with held := t.field.held } }) :
    t = { s with regs := t.regs, field := { s.field with adc := t.field.adc, held := t.field.held }, shuttle := sh } := by
  rw [ht, hy, hx]

theorem adcSample_lt (raw gain : Nat) (offset : Int) (format : Bool) : adcSample raw gain offset format < 65536 := by
  have hclamp (v : Int) : (if v < 0 then 0 else if 65535 < v then 65535 else v.toNat) < 65536 := by split <;> [skip; split] <;> omega
  cases format
  · exact hclamp _
  · exact Nat.mod_lt _ (by decide)

section
variable {s : State} {n : Fin 2} {raw : Nat} {q : AdcSequence} (hlive : s.ioLive (P.ADC n.val) = true) (hrun : (s.adc n.val).run = some q)
  (hleft : q.done ≤ Bits.get q.seq 24 3)
include hlive hrun hleft

/-- A conversion of a sequence that has lost its rest. -/
theorem State.opConversion_dead (hdead : q.dead = true) : s.opConversion n.val raw =
    (s.adcRaw n.val q.input raw).setAdc n.val { (s.adcRaw n.val q.input raw).adc n.val with run := some { q with done := q.done + 1 } } := by
  rw [State.opConversion, hlive]
  simp only [hrun, if_neg (Nat.not_lt.2 hleft), hdead]
  rfl

/-- One that the FIFO has no room for. -/
theorem State.opConversion_full (hdead : q.dead = false) (hfull : 4096 ≤ ((s.adcRaw n.val q.input raw).adc n.val).fifo.length) :
    s.opConversion n.val raw = ((((s.adcRaw n.val q.input raw).setAdc n.val { (s.adcRaw n.val q.input raw).adc n.val with
      run := some { q with done := q.done + 1, dead := true }, fifo := [] }).bumpSat (F.ADC_STAT_OVERFLOWS n.val) (F.ADC_STAT_OSAT n.val)).raise
        (P.ADC n.val) E.ADC_OVERFLOW).portError 4 (0x20 + n.val) 1 := by
  rw [State.opConversion, hlive]
  simp only [hrun, if_neg (Nat.not_lt.2 hleft), hdead, if_pos hfull]
  rfl

/-- One that joins the FIFO, with the phase word of the trigger. -/
theorem State.opConversion_joins {w : Nat} (hdead : q.dead = false) (hstamp : q.stamp = some w)
    (hroom : ((s.adcRaw n.val q.input raw).adc n.val).fifo.length < 4096) :
    s.opConversion n.val raw = (((s.adcRaw n.val q.input raw).setAdc n.val { (s.adcRaw n.val q.input raw).adc n.val with
      run := some { q with done := q.done + 1 }
      fifo := ((s.adcRaw n.val q.input raw).adc n.val).fifo ++ [(adcSample raw ((s.adcRaw n.val q.input raw).fld (F.ADC_CAL_GAIN n.val))
        (sext 16 ((s.adcRaw n.val q.input raw).fld (F.ADC_CAL_OFFSET n.val))) q.format, some w)] }).setFld (F.ADC_LAST_SAMPLE n.val q.input)
        (adcSample raw ((s.adcRaw n.val q.input raw).fld (F.ADC_CAL_GAIN n.val)) (sext 16 ((s.adcRaw n.val q.input raw).fld (F.ADC_CAL_OFFSET n.val)))
          q.format)).setFld (F.ADC_LAST_ANGLE n.val q.input) (w % 65536) := by
  rw [State.opConversion, hlive]
  simp only [hrun, if_neg (Nat.not_lt.2 hleft), hdead, if_neg (Nat.not_le.2 hroom), hstamp]
  rfl

/-- R511: the sample joins the FIFO and shows in ADC_LAST. -/
theorem State.adcConversion_joins {w : Nat} (hdead : q.dead = false) (hstamp : q.stamp = some w) (hroom : (s.adc n.val).fifo.length < 4096)
    (hoff : s.flag (F.ADC_LIMIT_EN n.val) = false) :
    ∃ t, s.opConversion n.val raw = t ∧
      t.adc n.val = { s.adc n.val with
        run := some { q with done := q.done + 1 }, raws := AMap.put (s.adc n.val).raws q.input raw
        fifo := (s.adc n.val).fifo ++ [(adcSample raw (s.fld (F.ADC_CAL_GAIN n.val)) (sext 16 (s.fld (F.ADC_CAL_OFFSET n.val))) q.format, some w)] } ∧
      t.fld (F.ADC_LAST_SAMPLE n.val q.input) = adcSample raw (s.fld (F.ADC_CAL_GAIN n.val)) (sext 16 (s.fld (F.ADC_CAL_OFFSET n.val))) q.format ∧
      t.fld (F.ADC_LAST_ANGLE n.val q.input) = w % 65536 ∧ t.fld (F.ADC_FIFO_LEVEL n.val) = (s.adc n.val).fifo.length + 1 ∧
      KeepsRegs s t [R.ADC_FIFO n.val, R.ADC_LAST n.val q.input] ∧
      t = { s with regs := t.regs, field := { s.field with adc := t.field.adc }
                   shuttle := { s.shuttle with levels := clearBits s.shuttle.levels (2 ^ (60 + n.val)) } } := by
  have hjoins := State.opConversion_joins (raw := raw) hlive hrun hleft hdead hstamp
  obtain ⟨u, hu, hadc, hkept, hrest⟩ := State.adcRaw_off (input := q.input) (raw := raw) hoff
  rw [hu, hadc, hkept.fld (f := F.ADC_CAL_GAIN n.val) (adcLimit_apart n).2.1, hkept.fld (f := F.ADC_CAL_OFFSET n.val) (adcLimit_apart n).2.1] at hjoins
  have hsample := adcSample_lt raw (s.fld (F.ADC_CAL_GAIN n.val)) (sext 16 (s.fld (F.ADC_CAL_OFFSET n.val))) q.format
  obtain ⟨v, hv⟩ : ∃ v, v = adcSample raw (s.fld (F.ADC_CAL_GAIN n.val)) (sext 16 (s.fld (F.ADC_CAL_OFFSET n.val))) q.format := ⟨_, rfl⟩
  rw [← hv] at hjoins hsample ⊢
  have hlast : R.ADC_FIFO n.val ≠ R.ADC_LAST n.val q.input := by
    rw [R.ADC_FIFO, R.ADC_LAST]
    omega
  refine ⟨_, hjoins hroom, ?_, ?_, ?_, ?_, ?_, ?_⟩
  · rw [State.adc_setFld, State.adc_setFld, State.adc_setAdc]
  · refine (State.fld_setFld_ne _ (F.ADC_LAST_ANGLE n.val q.input) (F.ADC_LAST_SAMPLE n.val q.input) _ (.inr (.inl ?_))).trans
      ((State.fld_setFld _ (F.ADC_LAST_SAMPLE n.val q.input) _ ?_).trans (Nat.mod_eq_of_lt hsample))
    · simp [F.ADC_LAST_SAMPLE, F.ADC_LAST_ANGLE]
    · simp [F.ADC_LAST_SAMPLE]
  · exact (State.fld_setFld _ (F.ADC_LAST_ANGLE n.val q.input) _ (by simp [F.ADC_LAST_ANGLE])).trans (Nat.mod_mod _ _)
  · refine (State.fld_setFld_ne _ (F.ADC_LAST_ANGLE n.val q.input) (F.ADC_FIFO_LEVEL n.val) _ (.inl hlast)).trans
      ((State.fld_setFld_ne _ (F.ADC_LAST_SAMPLE n.val q.input) (F.ADC_FIFO_LEVEL n.val) _ (.inl hlast)).trans ((State.level_setAdc _ _ _).trans ?_))
    simp only [List.length_append, List.length_singleton]
    omega
  · exact ((hkept.mono fun a ha => List.mem_cons.2 (.inl (List.mem_singleton.1 ha))).setAdc List.mem_cons_self |>.setFld
      (f := F.ADC_LAST_SAMPLE n.val q.input) (by simp [F.ADC_LAST_SAMPLE])).setFld (f := F.ADC_LAST_ANGLE n.val q.input) (by simp [F.ADC_LAST_ANGLE])
  · exact State.rest_of_adcRaw hrest rfl

/-- R511: an overflow empties the FIFO. -/
theorem State.adcConversion_overflows (hdead : q.dead = false) (hfull : 4096 ≤ (s.adc n.val).fifo.length) (hoff : s.flag (F.ADC_LIMIT_EN n.val) = false)
    (hnone : s.portItem 4 (0x20 + n.val) = none) :
    ∃ t, s.opConversion n.val raw = t ∧ t.adc n.val = { s.adc n.val with
        run := some { q with done := q.done + 1, dead := true }, raws := AMap.put (s.adc n.val).raws q.input raw, fifo := [] } ∧
      t.event (P.ADC n.val) E.ADC_OVERFLOW = true ∧
      t.fld (F.ADC_STAT_OVERFLOWS n.val) = min (2 ^ (F.ADC_STAT_OVERFLOWS 0).width - 1) (s.fld (F.ADC_STAT_OVERFLOWS n.val) + 1) ∧
      KeepsRegs s t [R.ADC_FIFO n.val, R.ADC_STAT n.val, R.EVT_RAW (P.ADC n.val)] ∧
      t = { s with regs := t.regs, field := { s.field with adc := t.field.adc, held := t.field.held }
                   shuttle := { s.shuttle with levels := clearBits s.shuttle.levels (2 ^ (60 + n.val)) } } := by
  have hconv := State.opConversion_full (raw := raw) hlive hrun hleft hdead
  obtain ⟨u, hu, hadc, hkept, hrest⟩ := State.adcRaw_off (input := q.input) (raw := raw) hoff
  rw [hu, hadc] at hconv
  obtain ⟨p, hp⟩ : ∃ p : AdcPort, p = { s.adc n.val with
      run := some { q with done := q.done + 1, dead := true }, raws := AMap.put (s.adc n.val).raws q.input raw, fifo := [] } := ⟨_, rfl⟩
  obtain ⟨x, hx⟩ : ∃ x, x = (u.setAdc n.val p).bumpSat (F.ADC_STAT_OVERFLOWS n.val) (F.ADC_STAT_OSAT n.val) := ⟨_, rfl⟩
  have hconv : s.opConversion n.val raw = (x.raise (P.ADC n.val) E.ADC_OVERFLOW).portError 4 (0x20 + n.val) 1 := by
    rw [hconv hfull, hx, hp]
  have hset : KeepsRegs s (u.setAdc n.val p) [R.ADC_FIFO n.val] := hkept.setAdc List.mem_cons_self
  have hcount : x.fld (F.ADC_STAT_OVERFLOWS n.val) = min (2 ^ (F.ADC_STAT_OVERFLOWS 0).width - 1) (s.fld (F.ADC_STAT_OVERFLOWS n.val) + 1) := by
    rw [hx, ← hset.fld (f := F.ADC_STAT_OVERFLOWS n.val) (adcLimit_apart n).2.2]
    exact State.fld_bumpSat _ (f := F.ADC_STAT_OVERFLOWS n.val) (by simp [F.ADC_STAT_OVERFLOWS]) (.inr (.inl (by simp [F.ADC_STAT_OVERFLOWS, F.ADC_STAT_OSAT])))
  have hxkept : KeepsRegs s x [R.ADC_FIFO n.val, R.ADC_STAT n.val, R.EVT_RAW (P.ADC n.val)] := by
    rw [hx]
    exact (hset.mono fun a ha => List.mem_cons.2 (.inl (List.mem_singleton.1 ha))).bumpSat (f := F.ADC_STAT_OVERFLOWS n.val)
      (g := F.ADC_STAT_OSAT n.val) (by simp [F.ADC_STAT_OVERFLOWS]) (by simp [F.ADC_STAT_OSAT])
  have hxrest : x = { u with regs := x.regs, field := { u.field with adc := (u.setAdc n.val p).field.adc } } := by
    rw [hx, State.bumpSat_rest]
    rfl
  have hxadc : x.adc n.val = p := by
    rw [State.adc_congr (s := u.setAdc n.val p) (by rw [hx, State.bumpSat_field]), State.adc_setAdc]
  have hxfield : x = { s with regs := x.regs, field := { s.field with adc := x.field.adc }
                              shuttle := { s.shuttle with levels := clearBits s.shuttle.levels (2 ^ (60 + n.val)) } } :=
    State.rest_of_adcRaw hrest (by rw [hxrest])
  have hxpower : x.power = s.power := by rw [hxfield]
  have hxheddle : x.heddle = s.heddle := by rw [hxfield]
  have hxnone : (x.raise (P.ADC n.val) E.ADC_OVERFLOW).portItem 4 (0x20 + n.val) = none :=
    (State.portItem_congr hxpower hxheddle _ _).trans hnone
  rw [hconv]
  have herror := State.portError_none (detail := 1) hxnone
  obtain ⟨y, hy⟩ : ∃ y, y = x.raise (P.ADC n.val) E.ADC_OVERFLOW := ⟨_, rfl⟩
  have hyrest : y = { x with regs := y.regs } := by
    rw [hy]
    rfl
  have hyevent : y.event (P.ADC n.val) E.ADC_OVERFLOW = true := by
    rw [hy]
    exact State.event_raise _ _ _ (by decide)
  have hycount : y.fld (F.ADC_STAT_OVERFLOWS n.val) = x.fld (F.ADC_STAT_OVERFLOWS n.val) := by
    rw [hy]
    exact State.fld_raise_ne _ _ _ _ (adcStat_apart n).1
  have hykept : KeepsRegs s y [R.ADC_FIFO n.val, R.ADC_STAT n.val, R.EVT_RAW (P.ADC n.val)] := by
    rw [hy]
    exact hxkept.raise (by simp)
  rw [← hy] at herror ⊢
  obtain ⟨t, ht⟩ : ∃ t, t = y.portError 4 (0x20 + n.val) 1 := ⟨_, rfl⟩
  rw [← ht] at herror ⊢
  have htadc : t.adc n.val = x.adc n.val := State.adc_congr (by rw [herror, hyrest]) _
  have htregs : t.regs = y.regs := by rw [herror]
  refine ⟨t, rfl, htadc.trans (hxadc.trans hp), ?_, ?_, hykept.of_regs htregs, State.rest_of_overflow hxfield hyrest herror⟩
  · rw [← hyevent]
    exact (KeepsRegs.refl y []).of_regs htregs |>.event _ List.not_mem_nil
  · rw [← hcount, ← hycount]
    exact (KeepsRegs.refl y []).of_regs htregs |>.fld List.not_mem_nil

/-- R511: a sequence that has lost its rest still shows its raw codes to the comparator. -/
theorem State.adcConversion_judged (hdead : q.dead = true) (hon : s.flag (F.ADC_LIMIT_EN n.val) = true)
    (hinput : s.fld (F.ADC_LIMIT_INPUT n.val) = q.input) (hlow : s.shuttle.levels.testBit (60 + n.val) = false) :
    ∃ t, s.opConversion n.val raw = t ∧ t.adc n.val = { s.adc n.val with
        run := some { q with done := q.done + 1 }, raws := AMap.put (s.adc n.val).raws q.input raw } ∧
      t.shuttle.levels.testBit (60 + n.val) = s.beyondLimits n.val raw ∧
      (t.shuttle.levels.testBit (60 + n.val) = true → t.event (P.ADC n.val) E.ADC_LIMIT = true) ∧
      KeepsRegs s t [R.ADC_FIFO n.val, R.EVT_RAW (P.ADC n.val)] ∧
      t = { s with regs := t.regs, field := { s.field with adc := t.field.adc }, shuttle := { s.shuttle with levels := t.shuttle.levels } } := by
  have hconv := State.opConversion_dead (raw := raw) hlive hrun hleft hdead
  obtain ⟨u, hu, hadc, hlevel, hevent, hkept, hrest⟩ := State.adcRaw_on (raw := raw) hon hinput hlow
  rw [hu, hadc] at hconv
  refine ⟨_, hconv, State.adc_setAdc _ _ _, hlevel, fun h => ?_, hkept.setAdc List.mem_cons_self, ?_⟩
  · have hafter : KeepsRegs u (u.setAdc n.val { s.adc n.val with
        run := some { q with done := q.done + 1 }, raws := AMap.put (s.adc n.val).raws q.input raw }) [R.ADC_FIFO n.val] :=
      (KeepsRegs.refl u _).setAdc List.mem_cons_self
    exact (hafter.event _ (by simpa using (adcStat_apart n).2.symm)).trans (hevent (hlevel.symm.trans h))
  · rw [hrest]
    rfl

end

/-! ### The obligation -/

/-- Settles O43: by the source and the port for a trigger (R510), by the FIFO's room and the comparator for a conversion (R511), and by what is
held for the end of a sequence (R509). -/
theorem adcTriggersConversionsAndSequences : Obligations.AdcTriggersConversionsAndSequences := by
  unfold Obligations.AdcTriggersConversionsAndSequences
  refine ⟨?_, ?_, ?_, ?_, ?_, ?_, ?_, ?_, ?_, ?_, ?_, ?_, ?_⟩
  · intro s n hlive hen hidle
    exact (State.adcTrigger_starts (src := .reed) hlive hen hidle).imp fun t ⟨ht, h⟩ => ⟨congrArg Host.Outcome.next ht, h⟩
  · intro s n hlive hen hrun hfree
    exact (State.adcTrigger_held (src := .shuttle) hlive hen hrun hfree).imp fun t ⟨ht, h⟩ => ⟨congrArg Host.Outcome.next ht, h⟩
  · intro s n hlive hen hrun hheld
    exact (State.adcTrigger_missed (src := .shuttle) hlive hen hrun hheld).imp fun t ⟨ht, h⟩ => ⟨congrArg Host.Outcome.next ht, h⟩
  · intro s q n hopen hlive hen hidle
    exact (State.adcSwTrig_starts hopen hlive hen hidle).imp fun t ⟨ht, h⟩ => ⟨congrArg Host.Outcome.next ht, h⟩
  · intro s n raw q w hlive hrun hleft hdead hstamp hroom hoff
    exact (State.adcConversion_joins (raw := raw.toNat) hlive hrun hleft hdead hstamp hroom hoff).imp fun t ⟨ht, h⟩ => ⟨congrArg Host.Outcome.next ht, h⟩
  · intro s n raw q hlive hrun hleft hdead hfull hoff hnone
    exact (State.adcConversion_overflows (raw := raw.toNat) hlive hrun hleft hdead hfull hoff hnone).imp
      fun t ⟨ht, h⟩ => ⟨congrArg Host.Outcome.next ht, h⟩
  · intro s n raw q hlive hrun hleft hdead hon hinput hlow
    exact (State.adcConversion_judged (raw := raw.toNat) hlive hrun hleft hdead hon hinput hlow).imp fun t ⟨ht, h⟩ => ⟨congrArg Host.Outcome.next ht, h⟩
  · intro s n q st hlive hrun hdone hheld
    exact (State.adcEnded_next _ st).imp fun t ⟨ht, h⟩ =>
      ⟨congrArg Host.Outcome.next ((State.opSequenceEnd_held hlive hrun hdone hheld).trans ht), h⟩
  · intro s n q hlive hrun hdone hheld hstop
    have hend := (State.opSequenceEnd_free hlive hrun hdone hheld).trans (if_neg (by rw [hstop]; decide))
    exact ⟨_, congrArg Host.Outcome.next hend, State.adc_setAdc _ _ _, State.busy_setAdc _ _ _, rfl,
      State.adcEnded_keepsRegs { s.adc n.val with run := none }, State.adcEnded_rest { s.adc n.val with run := none }⟩
  · intro s n q hlive hrun hdone hheld hcont
    have hend := (State.opSequenceEnd_free hlive hrun hdone hheld).trans (if_pos hcont)
    have hphase : (s.adcEnded n.val { s.adc n.val with run := none }).phaseNow = s.phaseNow :=
      (State.adcEnded_keepsRegs _).phaseNow (adcFifo_apart n).2.1 (adcFifo_apart n).2.2
    obtain ⟨t, ht, hadc, h⟩ := State.adcEnded_next (s := s) (n := n) { s.adc n.val with run := none } s.phaseNow
    refine ⟨t, congrArg Host.Outcome.next (hend.trans ?_), ?_, h⟩
    · rw [← ht, ← hphase]
      rfl
    · rw [hadc]
      rfl
  · intro s n src hquiet
    refine ⟨s, congrArg Host.Outcome.next ?_, rfl⟩
    rcases hquiet with hdead | hoff
    · rw [State.adcFrom_eq, hdead, Bool.and_false]
      rfl
    · rw [State.adcFrom_eq, show s.flag (adcTrigF n.val src) = false by cases src <;> exact hoff]
      rfl
  · intro s n raw hquiet
    have hconversion : s.opConversion n.val raw.toNat = s ∧ s.opSequenceEnd n.val = s := by
      rcases hquiet with hdead | hidle
      · rw [State.opConversion, State.opSequenceEnd, hdead]
        exact ⟨rfl, rfl⟩
      · simp only [State.opConversion, State.opSequenceEnd, hidle, ite_self, and_self]
    exact ⟨s, congrArg Host.Outcome.next hconversion.1, rfl, congrArg Host.Outcome.next hconversion.2⟩
  · intro s q n format cont hopen
    exact (State.flush_effect n format cont hopen).imp fun t ⟨ht, h⟩ => ⟨congrArg Host.Outcome.next ht, h⟩

end Sys2Proof.Machine
end


section
/-! The Tether port: live accesses (R526, R527), requests and notices (R528, R529), and the partner watchdog (R531). -/
namespace Sys2Proof.Machine

/-! ### Live accesses up to their issue -/

section
variable {s : State} {x : LiveAccess}

theorem KeepsRegs.setLive {t : State} {l : List Nat} (h : KeepsRegs s t l) (hl : R.TETHER_STAT ∈ l) (st : Nat) : KeepsRegs s (t.setLive st) l :=
  (h.of_regs (u := t.modTether (fun t => { t with liveState := st })) rfl).setFld (f := F.TETHER_STAT_LIVE_STATE) hl

theorem State.fld_setLive (st : Nat) (h : st < 4) : (s.setLive st).fld F.TETHER_STAT_LIVE_STATE = st :=
  (State.fld_setFld _ F.TETHER_STAT_LIVE_STATE _ (by decide)).trans (Nat.mod_eq_of_lt h)

/-- R527: an access that live access is on for, and that is no store into base camp during BOOT_GO. -/
theorem State.liveRefused_false (hon : s.flag F.TETHER_CFG_LIVE_EN = true)
    (hstore : (x.write && inBaseCamp x.addr && (s.fld F.TETHER_REQ_REQ).testBit 2) = false) :
    s.liveRefused x = false := by
  rw [State.liveRefused, hon, hstore]
  rfl

theorem State.liveRefused_off (hoff : s.flag F.TETHER_CFG_LIVE_EN = false) : s.liveRefused x = true := by
  rw [State.liveRefused, hoff]
  rfl

theorem State.liveCommit_full (h : 4 ≤ s.tether.queue.length) : s.liveCommit x = s.modTether (fun t => { t with liveLost := true }) := if_pos h

theorem State.liveCommit_queued (hroom : s.tether.queue.length < 4) (htaken : (s.tether.queue.isEmpty && s.liveRefused x) = false) :
    s.liveCommit x = (s.modTether (fun t => { t with queue := t.queue ++ [x] })).setLive 1 :=
  (if_neg (Nat.not_le.2 hroom)).trans (if_neg (by rw [htaken]; decide))

theorem State.liveCommit_refused (hempty : s.tether.queue = []) (hrefused : s.liveRefused x = true) : s.liveCommit x = s.liveEnd x 4 0#32 := by
  refine (if_neg (by rw [hempty]; decide)).trans (if_pos ?_)
  rw [hempty, hrefused]
  rfl

/-- What the end of an access leaves of the window. -/
def TetherState.ended (t : TetherState) (x : LiveAccess) (resp : Nat) (data : BitVec 32) : TetherState :=
  { t with liveResp := resp, liveErr := t.liveErr || resp != 0, liveOps := (t.liveOps + 1) % 65536
           liveData := if x.write || resp != 0 then t.liveData else data, liveState := 2 }

/-- R526: an access that is a read, or has none behind it, ends with LIVE_STATE DONE. -/
theorem State.liveEnd_done {resp : Nat} {data : BitVec 32} (hdone : x.write = false ∨ s.tether.queue = []) : s.liveEnd x resp data =
    (({ s with tether := s.tether.ended x resp data } : State).setFld F.TETHER_STAT_LIVE_STATE 2).when (resp != 0)
      (fun t => t.raise P.TETHER E.TETHER_LIVE_ERR) := by
  refine congrArg (fun u : State => u.when (resp != 0) (fun t => t.raise P.TETHER E.TETHER_LIVE_ERR)) (if_pos ?_)
  rcases hdone with hread | hlast
  · rw [hread]
    exact .inl rfl
  · exact .inr (congrArg List.isEmpty hlast)

/-- R526, R527: one that is refused. -/
theorem State.liveEnd_refused (hempty : s.tether.queue = []) : ∃ t, s.liveEnd x 4 0#32 = t ∧ t.tether = s.tether.ended x 4 0#32 ∧
    t.event P.TETHER E.TETHER_LIVE_ERR = true ∧ KeepsRegs s t [R.TETHER_STAT, R.EVT_RAW P.TETHER] ∧ t = { s with regs := t.regs, tether := t.tether } :=
  ⟨_, State.liveEnd_done (.inr hempty), rfl, State.event_raise _ _ _ (by decide),
    (((KeepsRegs.refl s _).of_regs (u := { s with tether := s.tether.ended x 4 0#32 }) rfl).setFld (f := F.TETHER_STAT_LIVE_STATE) (by decide)).raise
      (by decide), rfl⟩

/-- R526: one that is answered. -/
theorem State.liveEnd_ok {data : BitVec 32} (hdone : x.write = false ∨ s.tether.queue = []) : ∃ t, s.liveEnd x 0 data = t ∧
    t.tether = s.tether.ended x 0 data ∧ KeepsRegs s t [R.TETHER_STAT] ∧ t = { s with regs := t.regs, tether := t.tether } :=
  ⟨_, State.liveEnd_done hdone, rfl,
    ((KeepsRegs.refl s _).of_regs (u := { s with tether := s.tether.ended x 0 data }) rfl).setFld (f := F.TETHER_STAT_LIVE_STATE) (by decide), rfl⟩

end

/-! ### Commits of LIVE_LO and LIVE_STREAM -/

section
variable {s : State} {v : BitVec 32}

/-- The window once LIVE_LO is written. -/
def TetherState.lowered (t : TetherState) (v : BitVec 32) : TetherState :=
  { t with liveAddr := t.liveAddr / 2 ^ 32 * 2 ^ 32 + v.toNat / 4 * 4, liveOp := v.getLsbD 0 }

/-- The access that LIVE_LO commits. -/
def TetherState.loAccess (t : TetherState) (v : BitVec 32) : LiveAccess := ⟨(t.lowered v).liveAddr, (t.lowered v).liveOp, t.liveData⟩

theorem State.liveLo_eq : s.liveLo v.toNat = ({ s with tether := s.tether.lowered v } : State).liveCommit (s.tether.loAccess v) := by
  have hlow : s.modTether (fun t => { t with liveAddr := t.liveAddr / 2 ^ 32 * 2 ^ 32 + v.toNat % 2 ^ 32 / 4 * 4, liveOp := v.toNat.testBit 0 }) =
      { s with tether := s.tether.lowered v } := by
    rw [State.modTether, Nat.mod_eq_of_lt v.isLt]
    rfl
  rw [State.liveLo, hlow]
  rfl

/-- R526: a commit of LIVE_LO queues the access. -/
theorem State.liveLo_queued (hempty : s.tether.queue = []) (hon : s.flag F.TETHER_CFG_LIVE_EN = true) (hgo : (s.fld F.TETHER_REQ_REQ).testBit 2 = false) :
    ∃ t, s.liveLo v.toNat = t ∧
      t.tether = { s.tether.lowered v with liveState := 1, queue := [s.tether.loAccess v] } ∧
      t.fld F.TETHER_STAT_LIVE_STATE = 1 ∧ KeepsRegs s t [R.TETHER_STAT] ∧ t = { s with regs := t.regs, tether := t.tether } := by
  obtain ⟨u, hu⟩ : ∃ u : State, u = { s with tether := s.tether.lowered v } := ⟨_, rfl⟩
  have hqueue : u.tether.queue = [] := by
    rw [hu]
    exact hempty
  have htaken (y : LiveAccess) : u.liveRefused y = false := State.liveRefused_false (by rw [hu]; exact hon) (by rw [hu, Bool.and_eq_false_iff]; exact .inr hgo)
  rw [State.liveLo_eq, ← hu, State.liveCommit_queued (by rw [hqueue]; decide) (by rw [htaken, Bool.and_false])]
  refine ⟨_, rfl, ?_, State.fld_setLive 1 (by decide), ?_, ?_⟩
  · rw [hu]
    exact congrArg (fun l => { s.tether.lowered v with liveState := 1, queue := l ++ [s.tether.loAccess v] }) hempty
  · exact ((KeepsRegs.refl s _).of_regs (u := u.modTether _) (by rw [hu]; rfl)).setLive (by decide) 1
  · rw [hu]
    rfl

/-- R527: one that comes while live access is off ends refused. -/
theorem State.liveLo_refused (hempty : s.tether.queue = []) (hoff : s.flag F.TETHER_CFG_LIVE_EN = false) :
    ∃ t, s.liveLo v.toNat = t ∧ t.tether.liveResp = 4 ∧ t.tether.liveErr = true ∧ t.tether.liveState = 2 ∧
      t.tether.liveOps = (s.tether.liveOps + 1) % 65536 ∧ t.tether.queue = [] ∧ t.tether.liveData = s.tether.liveData ∧
      t.event P.TETHER E.TETHER_LIVE_ERR = true ∧ KeepsRegs s t [R.TETHER_STAT, R.EVT_RAW P.TETHER] ∧ t = { s with regs := t.regs, tether := t.tether } := by
  obtain ⟨u, hu⟩ : ∃ u : State, u = { s with tether := s.tether.lowered v } := ⟨_, rfl⟩
  have hqueue : u.tether.queue = [] := by
    rw [hu]
    exact hempty
  have hoffu : u.flag F.TETHER_CFG_LIVE_EN = false := by
    rw [hu]
    exact hoff
  rw [State.liveLo_eq, ← hu, State.liveCommit_refused hqueue (State.liveRefused_off hoffu)]
  obtain ⟨t, ht, htether, hevent, hkept, hrest⟩ := State.liveEnd_refused (x := s.tether.loAccess v) hqueue
  refine ⟨t, ht, ?_, ?_, ?_, ?_, ?_, ?_, hevent, KeepsRegs.trans ((KeepsRegs.refl s _).of_regs (by rw [hu])) hkept, ?_⟩
  · rw [htether]
    rfl
  · rw [htether]
    exact Bool.or_true _
  · rw [htether]
    rfl
  · rw [htether, hu]
    rfl
  · rw [htether]
    exact hqueue
  · rw [htether, hu]
    rw [TetherState.ended]
    exact if_pos (Bool.or_true _)
  · rw [hrest, hu]

/-- The window once LIVE_STREAM has gone on to the next address. -/
def TetherState.streamed (t : TetherState) : TetherState := { t with liveAddr := (t.liveAddr + 4) % 2 ^ 40 }

theorem State.liveStream_eq : s.liveStream v.toNat = (s.liveCommit ⟨s.tether.liveAddr, true, v⟩).modTether TetherState.streamed := by
  rw [State.liveStream, BitVec.ofNat_toNat, BitVec.setWidth_eq]
  rfl

/-- R526: a commit of LIVE_STREAM queues a store behind the others. -/
theorem State.liveStream_queued (hroom : s.tether.queue.length < 4) (hsome : 0 < s.tether.queue.length) :
    ∃ t, s.liveStream v.toNat = t ∧
      t.tether = { s.tether with liveAddr := (s.tether.liveAddr + 4) % 2 ^ 40, liveState := 1, queue := s.tether.queue ++ [⟨s.tether.liveAddr, true, v⟩] } ∧
      KeepsRegs s t [R.TETHER_STAT] ∧ t = { s with regs := t.regs, tether := t.tether } := by
  have htaken : (s.tether.queue.isEmpty && s.liveRefused ⟨s.tether.liveAddr, true, v⟩) = false := by
    rw [List.isEmpty_eq_false_iff.2 (List.ne_nil_of_length_pos hsome), Bool.false_and]
  rw [State.liveStream_eq, State.liveCommit_queued hroom htaken]
  exact ⟨_, rfl, rfl, (((KeepsRegs.refl s _).of_regs (u := s.modTether _) rfl).setLive (by decide) 1).of_regs rfl, rfl⟩

/-- R526: one that the queue has no room for is lost. -/
theorem State.liveStream_lost (hfull : 4 ≤ s.tether.queue.length) :
    s.liveStream v.toNat = { s with tether := { s.tether with liveAddr := (s.tether.liveAddr + 4) % 2 ^ 40, liveLost := true } } := by
  rw [State.liveStream_eq, State.liveCommit_full hfull]
  rfl

/-- R527: a store into base camp during BOOT_GO ends refused. -/
theorem State.liveStream_refused (hempty : s.tether.queue = []) (hcamp : inBaseCamp s.tether.liveAddr = true)
    (hgo : (s.fld F.TETHER_REQ_REQ).testBit 2 = true) :
    ∃ t, s.liveStream v.toNat = t ∧ t.tether.liveResp = 4 ∧ t.tether.liveErr = true ∧ t.tether.liveState = 2 ∧ t.tether.queue = [] ∧
      t.tether.liveAddr = (s.tether.liveAddr + 4) % 2 ^ 40 ∧ t.event P.TETHER E.TETHER_LIVE_ERR = true ∧ KeepsMem s t ∧
      KeepsRegs s t [R.TETHER_STAT, R.EVT_RAW P.TETHER] ∧ t = { s with regs := t.regs, tether := t.tether } := by
  have hrefused : s.liveRefused ⟨s.tether.liveAddr, true, v⟩ = true := by
    rw [State.liveRefused, hcamp, hgo]
    exact Bool.or_true _
  rw [State.liveStream_eq, State.liveCommit_refused hempty hrefused]
  obtain ⟨t, ht, htether, hevent, hkept, hrest⟩ := State.liveEnd_refused (x := ⟨s.tether.liveAddr, true, v⟩) hempty
  rw [ht]
  have hmem : t.mem = s.mem := by rw [hrest]
  refine ⟨_, rfl, ?_, ?_, ?_, ?_, ?_, hevent, (KeepsMem.refl s).of_mem hmem, hkept.of_regs rfl, ?_⟩
  · exact congrArg TetherState.liveResp htether
  · exact (congrArg TetherState.liveErr htether).trans (Bool.or_true _)
  · exact congrArg TetherState.liveState htether
  · exact (congrArg TetherState.queue htether).trans hempty
  · exact (congrArg (fun y : TetherState => (y.liveAddr + 4) % 2 ^ 40) htether).trans rfl
  · rw [hrest]
    rfl

end

end Sys2Proof.Machine
end

section
/-! The Tether port: a live access of PWR_RETAIN (R526). -/
namespace Sys2Proof.Machine

-- Checked one after another: side by side these evaluations take more memory than the check has.
set_option Elab.async false

/-! ### The registers PWR_RETAIN -/

theorem State.readReg_retain (s : State) (n : Fin 16) : s.readReg (R.PWR_RETAIN n.val) = s.raw (R.PWR_RETAIN n.val) := by
  fin_cases n <;> rfl

/-- A register of 32 bits that a read leaves as it was, and that no rule reads otherwise than its fields. -/
def plainRead (a : Nat) : Bool :=
  match regAt a with
  | some (_, _, r, b) =>
    decide (b = a) && ! r.wide && r.fields.all (fun f => decide (f.acc ≠ .rc)) && decide (b ≠ R.TRNG_DATA ∧ b ≠ R.TRNG_RAW ∧ b ≠ R.PTPCLK_TIME)
  | none => false

theorem State.clearRc_none (s : State) {r : RSpec} (a : Nat) (h : ∀ f ∈ r.fields, f.acc ≠ .rc) : s.clearRc r a = s := by
  rw [State.clearRc]
  revert h
  generalize r.fields = fields
  intro h
  induction fields with
  | nil => rfl
  | cons f fs ih =>
    rw [List.foldl_cons, if_neg (h f List.mem_cons_self)]
    exact ih fun g hg => h g (List.mem_cons_of_mem _ hg)

theorem State.pageLoad_plain (s : State) {a : Nat} (h : plainRead a = true) : s.pageLoad a .w = (s, s.readReg a) := by
  cases hreg : regAt a with
  | none => simp [plainRead, hreg] at h
  | some x =>
    obtain ⟨g, o, r, b⟩ := x
    simp only [plainRead, hreg, Bool.and_eq_true, decide_eq_true_eq, Bool.not_eq_true', List.all_eq_true] at h
    obtain ⟨⟨⟨rfl, hnarrow⟩, hfields⟩, htrng, hraw, hptp⟩ := h
    simp only [State.pageLoad, State.fullRead, hreg, hnarrow, Bool.false_eq_true, if_false, if_neg htrng, if_neg hraw, if_neg hptp, s.clearRc_none b hfields]

theorem retain_fields : ∀ n : Fin 16, wideAt (R.PWR_RETAIN n.val) = false ∧ pageBase (R.PWR_RETAIN n.val) = P.PWR ∧ 0x40 ≤ R.PWR_RETAIN n.val - P.PWR ∧
    inRegisters .w (R.PWR_RETAIN n.val) = true ∧ inPage (R.PWR_RETAIN n.val) P.PWR = true ∧ neverFrozen (R.PWR_RETAIN n.val) = true ∧
    (F.PWR_RETAIN_DATA n.val).plain = true ∧ plainRead (R.PWR_RETAIN n.val) = true := by
  decide +kernel

theorem retain_apart : ∀ n : Fin 16, R.PWR_RETAIN n.val ∉ R.TETHER_STAT :: logRegs P.PWR ∧
    R.PWR_RETAIN n.val ∉ [R.PWR_REQ, R.PWR_PFAIL, R.PWR_SNAP_CTRL, R.PWR_THERM, R.CLK_MEAS_CTRL, R.CLK_AON, R.CLK_MON_CFG] := by
  decide +kernel

/-! ### Writes -/

section
variable (s : State) (ni : Nat) (n : Fin 16)

theorem State.blockWrite_retain (v : DWord) : s.blockWrite ni (R.PWR_RETAIN n.val) v = (s.storeReg ni (R.PWR_RETAIN n.val) v).1 := by
  obtain ⟨-, hpage, -⟩ := retain_fields n
  obtain ⟨-, happart⟩ := retain_apart n
  simp only [List.mem_cons, List.not_mem_nil, or_false, not_or] at happart
  obtain ⟨hreq, hpfail, hsnap, htherm, hmeas, haon, hmon⟩ := happart
  have hpower : s.blockWrite ni (R.PWR_RETAIN n.val) v = s.pwrWrite ni (R.PWR_RETAIN n.val) v := by
    rw [State.blockWrite, hpage]
    rfl
  rw [hpower, State.pwrWrite, if_neg hreq, if_neg hpfail, if_neg hsnap, if_neg htherm, if_neg hmeas, if_neg haon, hpage, if_neg (by decide), if_neg hmon]
  rfl

/-- R42, R44: a full write to a register of a block. -/
theorem State.fullWrite_block {a : Nat} (v : DWord) (ha : 0x40 ≤ a - pageBase a) :
    ∃ e, s.fullWrite ni a v = (s.blockWrite ni a v).keptAfter e (pageBase a) a :=
  ⟨_, congrArg (fun u : State => u.keptAfter _ (pageBase a) a) (if_pos ha)⟩

/-- R42: a word stored in a register PWR_RETAIN. -/
theorem State.pageStore_retain (v : BitVec 32) : ∃ t, s.pageStore ni (R.PWR_RETAIN n.val) .w (v.zeroExtend 64) = t ∧
    t.fld (F.PWR_RETAIN_DATA n.val) = v.toNat ∧ KeepsRegs s t (R.PWR_RETAIN n.val :: logRegs P.PWR) ∧ t = { s with regs := t.regs } := by
  obtain ⟨hnarrow, hpage, hblock, -, -, hfrozen, hplain, -⟩ := retain_fields n
  obtain ⟨happart, -⟩ := retain_apart n
  have hword : v.zeroExtend 64 &&& 0xFFFFFFFF#64 = v.zeroExtend 64 := by
    refine BitVec.eq_of_toNat_eq ?_
    have hv := v.isLt
    rw [BitVec.toNat_and, BitVec.zeroExtend, BitVec.toNat_setWidth, Nat.mod_eq_of_lt (by omega)]
    exact (Nat.and_two_pow_sub_one_eq_mod _ 32).trans (Nat.mod_eq_of_lt hv)
  have hfree : s.Unfrozen (R.PWR_RETAIN n.val) := State.unfrozen_of_page _ hfrozen
  have hof : (F.PWR_RETAIN_DATA n.val).of (v.zeroExtend 64) = v.toNat := by
    have hv := v.isLt
    rw [Fld.of, Bits.get, BitVec.zeroExtend, BitVec.toNat_setWidth, F.PWR_RETAIN_DATA]
    dsimp only
    rw [Nat.shiftRight_zero]
    omega
  obtain ⟨u, hu⟩ : ∃ u, u = (s.storeReg ni (R.PWR_RETAIN n.val) (v.zeroExtend 64)).1 := ⟨_, rfl⟩
  have hfld : u.fld (F.PWR_RETAIN_DATA n.val) = v.toNat := by
    rw [hu]
    exact (State.fld_storeReg_plain (x := F.PWR_RETAIN_DATA n.val) ni (v.zeroExtend 64) hfree hplain).trans hof
  have hkept : KeepsRegs s u (R.PWR_RETAIN n.val :: logRegs P.PWR) := by
    rw [hu]
    exact (KeepsRegs.refl s _).storeReg List.mem_cons_self fun _ h => hpage ▸ List.mem_cons_of_mem _ h
  have hrest : u = { s with regs := u.regs } := by
    rw [hu]
    exact State.storeReg_rest s _ _ _
  have hwrite : ∃ e, s.pageStore ni (R.PWR_RETAIN n.val) .w (v.zeroExtend 64) = u.keptAfter e P.PWR (R.PWR_RETAIN n.val) := by
    obtain ⟨e, he⟩ := s.fullWrite_block ni (v.zeroExtend 64) (hpage ▸ hblock)
    refine ⟨e, ?_⟩
    rw [State.pageStore_word _ _ _ hnarrow, hword, he, State.blockWrite_retain, ← hu, hpage]
  obtain ⟨e, hwrite⟩ := hwrite
  have hlog : R.CLAMP_KEPT P.PWR ∈ logRegs P.PWR := by decide
  refine ⟨_, hwrite, ?_, hkept.trans ((u.keptAfter_keepsRegs e _ _).mono fun a ha => ?_), ?_⟩
  · rw [(u.keptAfter_keepsRegs e _ _).fld (f := F.PWR_RETAIN_DATA n.val) ?_, hfld]
    intro h
    exact happart (List.mem_cons_of_mem _ ((List.mem_singleton.1 h : R.PWR_RETAIN n.val = _) ▸ hlog))
  · rw [List.mem_singleton.1 ha]
    exact List.mem_cons_of_mem _ hlog
  · exact State.rest_trans hrest (u.keptAfter_rest e _ _)

end

/-! ### The access -/

section
variable {s : State} {q : Req} {a : Nat} {z : Size}

/-- R27, R48: what a bus carries to the register region. -/
theorem State.busWrite_registers (ha : inRegisters z a = true) (v : DWord) : s.busWrite q a z v =
    (s.gateWrite q a z v (fun t => t.pageStore q.ni a z v), if (s.gateWrite q a z v (fun t => t.pageStore q.ni a z v)).resp.error then .busError else .ok) := by
  simp only [inRegisters, Bool.and_eq_true, decide_eq_true_eq, Bool.not_eq_true'] at ha
  obtain ⟨⟨hlo, hhi, -⟩, hbell⟩ := ha
  rw [State.busWrite]
  simp only [hlo, hhi, and_self, if_true, hbell, Bool.false_eq_true, if_false]
  rfl

theorem State.busRead_registers (ha : inRegisters z a = true) : s.busRead q a z =
    (s.regRead q a z, if (s.regRead q a z).resp.error then .busError else .ok, (s.regRead q a z).resp.data) := by
  simp only [inRegisters, Bool.and_eq_true, decide_eq_true_eq, Bool.not_eq_true'] at ha
  obtain ⟨⟨hlo, hhi, -⟩, hbell⟩ := ha
  rw [State.busRead]
  simp only [hlo, hhi, and_self, if_true, hbell, Bool.false_eq_true, if_false]

theorem State.xipBusy_registers (ha : inRegisters z a = true) : s.xipBusy a = false := by
  simp only [inRegisters, Bool.and_eq_true, decide_eq_true_eq] at ha
  obtain ⟨⟨hlo, hhi, -⟩, -⟩ := ha
  rw [State.xipBusy, inXip, decide_eq_false (by omega), Bool.false_and]

/-- R526: an access of a register that is neither refused nor held comes to its answer. -/
theorem State.opLiveDone_performs {x : LiveAccess} {rest : List LiveAccess} {target : Nat} (hqueue : s.tether.queue = x :: rest)
    (hon : s.flag F.TETHER_CFG_LIVE_EN = true) (hruns : s.fabricRuns = true) (ha : inRegisters .w x.addr = true) (hcamp : inBaseCamp x.addr = false) :
    s.opLiveDone target false = (((s.modTether (fun t => { t with queue := rest })).livePerform x).1).liveEnd x
      (liveResp ((s.modTether (fun t => { t with queue := rest })).livePerform x).2.1) ((s.modTether (fun t => { t with queue := rest })).livePerform x).2.2 := by
  have htaken : s.liveRefused x = false := State.liveRefused_false hon (by rw [hcamp, Bool.and_false, Bool.false_and])
  rw [State.opLiveDone]
  simp only [hqueue, htaken, hruns, State.xipBusy_registers ha]
  rfl

end

end Sys2Proof.Machine
end

section
/-! The Tether port: the answer of a live access, requests, notices and the watchdog (R526 to R531). -/
namespace Sys2Proof.Machine

/-! ### A live access of PWR_RETAIN -/

theorem retain_outside : ∀ n : Fin 16, inBaseCamp (R.PWR_RETAIN n.val) = false := by decide

section
variable {s : State} {target : Nat} (n : Fin 16) (hon : s.flag F.TETHER_CFG_LIVE_EN = true) (hruns : s.fabricRuns = true)
include hon hruns

/-- R526: a read brings the register's word. -/
theorem State.liveRead_retain {rest : List LiveAccess} (hqueue : s.tether.queue = ⟨R.PWR_RETAIN n.val, false, 0#32⟩ :: rest) :
    ∃ t, s.opLiveDone target false = t ∧ t.tether.liveData.toNat = s.fld (F.PWR_RETAIN_DATA n.val) ∧ t.tether.liveResp = 0 ∧
      t.tether.liveState = 2 ∧ t.tether.queue = rest ∧ t.tether.liveErr = s.tether.liveErr ∧ t.tether.liveOps = (s.tether.liveOps + 1) % 65536 ∧
      KeepsRegs s t [R.TETHER_STAT] ∧ t = { s with regs := t.regs, tether := t.tether, resp := t.resp } := by
  obtain ⟨-, -, -, hregion, hin, -, -, hplain⟩ := retain_fields n
  have hperform := State.opLiveDone_performs (target := target) hqueue hon hruns hregion (retain_outside n)
  obtain ⟨u, hu⟩ : ∃ u, u = s.modTether (fun t => { t with queue := rest }) := ⟨_, rfl⟩
  rw [← hu] at hperform
  simp only [inPage, Bool.and_eq_true, beq_iff_eq] at hin
  obtain ⟨⟨hlisted, -⟩, -⟩ := hin
  have hread : u.regRead ⟨15, true⟩ (R.PWR_RETAIN n.val) .w = u.respond false (u.raw (R.PWR_RETAIN n.val)) := by
    rw [State.regRead, hlisted, u.pageLoad_plain hplain, u.readReg_retain]
    exact if_neg (by simp)
  have hlive : u.livePerform ⟨R.PWR_RETAIN n.val, false, 0#32⟩ =
      (u.respond false (u.raw (R.PWR_RETAIN n.val)), .ok, (u.raw (R.PWR_RETAIN n.val)).truncate 32) := by
    simp only [State.livePerform, Bool.false_eq_true, if_false, State.busRead_registers hregion, hread]
    rfl
  rw [hlive] at hperform
  obtain ⟨t, ht, htether, hkept, hrest⟩ := State.liveEnd_ok (s := u.respond false (u.raw (R.PWR_RETAIN n.val))) (x := ⟨R.PWR_RETAIN n.val, false, 0#32⟩)
    (data := (u.raw (R.PWR_RETAIN n.val)).truncate 32) (.inl rfl)
  have hregs : u.regs = s.regs := by rw [hu]; rfl
  have hraw : u.raw (R.PWR_RETAIN n.val) = s.raw (R.PWR_RETAIN n.val) := (KeepsRegs.refl s []).of_regs hregs _ List.not_mem_nil
  refine ⟨t, hperform.trans ht, ?_, ?_, ?_, ?_, ?_, ?_, KeepsRegs.trans ((KeepsRegs.refl s _).of_regs hregs) hkept, ?_⟩
  · rw [htether, hraw, show (TetherState.ended _ _ 0 ((s.raw (R.PWR_RETAIN n.val)).truncate 32)).liveData = (s.raw (R.PWR_RETAIN n.val)).truncate 32 from rfl,
      BitVec.truncate_eq_setWidth, BitVec.toNat_setWidth]
    rw [State.fld, Bits.get, F.PWR_RETAIN_DATA]
    rfl
  · rw [htether]
    rfl
  · rw [htether]
    rfl
  · rw [htether, hu]
    rfl
  · rw [htether, hu]
    exact Bool.or_false _
  · rw [htether, hu]
    rfl
  · rw [hrest, hu]
    rfl

/-- R526: a write stores its word. -/
theorem State.liveWrite_retain {v : BitVec 32} (hqueue : s.tether.queue = [⟨R.PWR_RETAIN n.val, true, v⟩]) (hopen : s.resetting P.PWR = false) :
    ∃ t, s.opLiveDone target false = t ∧ t.fld (F.PWR_RETAIN_DATA n.val) = v.toNat ∧ t.tether.liveResp = 0 ∧
      t.tether.liveState = 2 ∧ t.tether.queue = [] ∧ t.tether.liveData = s.tether.liveData ∧
      KeepsRegs s t ([R.TETHER_STAT, R.PWR_RETAIN n.val] ++ logRegs P.PWR) ∧ t = { s with regs := t.regs, tether := t.tether, resp := t.resp } := by
  obtain ⟨-, -, -, hregion, hin, -⟩ := retain_fields n
  obtain ⟨happart, -⟩ := retain_apart n
  have hperform := State.opLiveDone_performs (target := target) hqueue hon hruns hregion (retain_outside n)
  obtain ⟨u, hu⟩ : ∃ u, u = s.modTether (fun t => { t with queue := [] }) := ⟨_, rfl⟩
  rw [← hu] at hperform
  have hopenu : OpenTo u ⟨15, true⟩ P.PWR := ⟨fun _ => rfl, by rw [hu]; exact hopen⟩
  obtain ⟨w, hw, hfld, hwkept, hwrest⟩ := (u.respond false 0#64).pageStore_retain (15 : Fin 16).val n v
  have hgate : u.gateWrite ⟨15, true⟩ (R.PWR_RETAIN n.val) .w (v.zeroExtend 64)
      (fun t => t.pageStore (15 : Fin 16).val (R.PWR_RETAIN n.val) .w (v.zeroExtend 64)) = w :=
    (State.gate_inPage .w _ _ hopenu hin).trans hw
  have hresp : w.resp.error = false := by rw [hwrest]; rfl
  have hlive : u.livePerform ⟨R.PWR_RETAIN n.val, true, v⟩ = (w, .ok, 0#32) := by
    simp only [State.livePerform, if_true, State.busWrite_registers hregion, hgate, hresp]
    rfl
  rw [hlive] at hperform
  have hempty : w.tether.queue = [] := by rw [hwrest, hu]; rfl
  obtain ⟨t, ht, htether, hkept, hrest⟩ := State.liveEnd_ok (s := w) (x := ⟨R.PWR_RETAIN n.val, true, v⟩) (data := 0#32) (.inr hempty)
  have hskept : KeepsRegs s w (R.PWR_RETAIN n.val :: logRegs P.PWR) := by
    refine KeepsRegs.trans ((KeepsRegs.refl s _).of_regs ?_) hwkept
    rw [hu]
    rfl
  refine ⟨t, hperform.trans ht, ?_, ?_, ?_, ?_, ?_, (hskept.mono fun a ha => List.mem_cons_of_mem _ ha).trans (hkept.mono (by simp)), ?_⟩
  · rw [hkept.fld (f := F.PWR_RETAIN_DATA n.val) fun h => happart (List.mem_singleton.1 h ▸ List.mem_cons_self), hfld]
  · rw [htether]
    rfl
  · rw [htether]
    rfl
  · rw [htether]
    exact hempty
  · rw [htether, hwrest, hu]
    rfl
  · rw [hrest, hwrest, hu]
    rfl

end

end Sys2Proof.Machine
end

section
/-! The Tether port: requests, notices and the partner watchdog (R528, R529, R531). -/
namespace Sys2Proof.Machine

-- Checked one after another: side by side these evaluations take more memory than the check has.
set_option Elab.async false

/-! ### Requests -/

section
variable {s : State}

/-- R528: a request that does not set BOOT_GO. -/
theorem State.tetherReq_effect {v : BitVec 16} (hv : v ≠ 0#16) (hgo : v.getLsbD 2 = false) :
    ∃ t, s.tetherReq v.toNat = t ∧ t.fld F.TETHER_REQ_REQ = s.fld F.TETHER_REQ_REQ ||| v.toNat ∧ t.event P.TETHER E.TETHER_REQ = true ∧
      KeepsRegs s t [R.TETHER_REQ, R.EVT_RAW P.TETHER] ∧ t = { s with regs := t.regs } := by
  have hsome : ¬ v.toNat = 0 := fun h => hv (BitVec.eq_of_toNat_eq h)
  have hreq : s.tetherReq v.toNat = (s.setFld F.TETHER_REQ_REQ (s.fld F.TETHER_REQ_REQ ||| v.toNat)).raise P.TETHER E.TETHER_REQ := by
    rw [State.tetherReq, Nat.mod_eq_of_lt v.isLt]
    refine (if_neg hsome).trans (if_neg ?_)
    rw [show v.toNat.testBit 2 = false from hgo]
    decide
  refine ⟨_, hreq, ?_, State.event_raise _ _ _ (by decide), ((KeepsRegs.refl s _).setFld (f := F.TETHER_REQ_REQ) (by decide)).raise (by decide), rfl⟩
  refine (State.fld_raise_ne _ _ _ _ (by decide)).trans ((State.fld_setFld _ F.TETHER_REQ_REQ _ (by decide)).trans (Nat.mod_eq_of_lt ?_))
  exact Nat.or_lt_two_pow (Bits.get_lt _ _ _) v.isLt

theorem State.tetherReq_zero (s : State) : s.tetherReq (0#16).toNat = s := by
  rw [State.tetherReq]
  rfl

end

/-! ### Notices -/

theorem attnSet_fields : inPage R.TETHER_ATTN_SET P.TETHER = true ∧ pageBase R.TETHER_ATTN_SET = P.TETHER ∧
    R.TETHER_ATTN ∉ R.TETHER_ATTN_SET :: logRegs P.TETHER := by
  decide +kernel

section
variable {v : BitVec 16} (h : v &&& 0xFE#16 = 0#16)
include h

theorem attn_noneReserved : b2n ((v.zeroExtend 64 &&& 0xFE#64) != 0#64) = 0 := by
  have hzero : v.zeroExtend 64 &&& 0xFE#64 = (v &&& 0xFE#16).zeroExtend 64 := by
    rw [BitVec.zeroExtend_eq_setWidth, BitVec.zeroExtend_eq_setWidth, BitVec.setWidth_and]
    rfl
  rw [hzero, h]
  rfl

theorem attn_defined : v.zeroExtend 64 &&& 0xFF01#64 = v.zeroExtend 64 := by
  have hall : v &&& 0xFF01#16 = v := by
    calc v &&& 0xFF01#16 = v &&& 0xFF01#16 ||| v &&& 0xFE#16 := by rw [h, BitVec.or_zero]
      _ = v := by rw [← BitVec.and_or_distrib_left]; exact BitVec.and_allOnes
  have hwide : v.zeroExtend 64 &&& 0xFF01#64 = (v &&& 0xFF01#16).zeroExtend 64 := by
    rw [BitVec.zeroExtend_eq_setWidth, BitVec.zeroExtend_eq_setWidth, BitVec.setWidth_and]
    rfl
  rw [hwide, hall]

end

/-- R529: the notices are set. -/
theorem State.attnSet_effect {s : State} {q : Req} {v : BitVec 16} (hopen : OpenTo s q P.TETHER) (hv : v &&& 0xFE#16 = 0#16) :
    ∃ t, s.gateWrite q R.TETHER_ATTN_SET .w (v.zeroExtend 64) (fun u => u.opAttnSet q.ni.val (v.zeroExtend 64)) = t ∧
      t.raw R.TETHER_ATTN = s.raw R.TETHER_ATTN ||| v.zeroExtend 64 ∧ KeepsRegs s t ([R.TETHER_ATTN, R.TETHER_ATTN_SET] ++ logRegs P.TETHER) ∧
      t = { s with regs := t.regs, resp := t.resp } := by
  obtain ⟨hin, hpage, happart⟩ := attnSet_fields
  obtain ⟨u, hu⟩ : ∃ u, u = (s.respond false 0#64).setReg R.TETHER_ATTN (s.raw R.TETHER_ATTN ||| v.zeroExtend 64) := ⟨_, rfl⟩
  obtain ⟨w, hw⟩ : ∃ w, w = (u.storeReg q.ni.val R.TETHER_ATTN_SET (v.zeroExtend 64)).1 := ⟨_, rfl⟩
  have hop : (s.respond false 0#64).opAttnSet q.ni.val (v.zeroExtend 64) = w.setReg R.TETHER_ATTN_SET 0#64 := by
    rw [State.opAttnSet, attn_noneReserved hv, attn_defined hv, hw, hu]
    exact if_pos rfl
  have hukept : KeepsRegs s u ([R.TETHER_ATTN, R.TETHER_ATTN_SET] ++ logRegs P.TETHER) := by
    rw [hu]
    exact ((KeepsRegs.refl s _).of_regs (u := s.respond false 0#64) rfl).setReg List.mem_cons_self
  have hwkept : KeepsRegs u w (R.TETHER_ATTN_SET :: logRegs P.TETHER) := by
    rw [hw]
    exact (KeepsRegs.refl u _).storeReg List.mem_cons_self fun _ h => hpage ▸ List.mem_cons_of_mem _ h
  have hset : KeepsRegs u (w.setReg R.TETHER_ATTN_SET 0#64) (R.TETHER_ATTN_SET :: logRegs P.TETHER) := hwkept.setReg List.mem_cons_self
  have hraw : u.raw R.TETHER_ATTN = s.raw R.TETHER_ATTN ||| v.zeroExtend 64 := by
    rw [hu, State.raw_setReg, if_pos rfl]
  have hrest : w.setReg R.TETHER_ATTN_SET 0#64 = { s with regs := (w.setReg R.TETHER_ATTN_SET 0#64).regs, resp := ⟨false, 0#64⟩ } := by
    have hwrest : w = { u with regs := w.regs } := by
      rw [hw]
      exact State.storeReg_rest u _ _ _
    rw [hwrest, hu]
    rfl
  refine ⟨_, (State.gate_inPage .w _ _ hopen hin).trans hop, (hset _ happart).trans hraw,
    hukept.trans (hset.mono fun a ha => List.mem_cons_of_mem _ ha), ?_⟩
  rw [hrest]

/-! ### The partner watchdog -/

section
variable {s : State}

theorem State.tetherKick_effect (hon : s.flag F.TETHER_PWDG_EN = true) : ∃ t, s.tetherKick (0x7A7A#32).toNat = t ∧
    t.fld F.TETHER_PWDG_STAT_LEFT = s.fld F.TETHER_PWDG_TIMEOUT ∧ t.fld F.TETHER_PWDG_STAT_BAD = s.fld F.TETHER_PWDG_STAT_BAD ∧
    KeepsRegs s t [R.TETHER_PWDG_STAT] ∧ t = { s with regs := t.regs } := by
  refine ⟨_, (if_pos rfl).trans (if_pos hon), ?_, State.fld_setFld_ne s F.TETHER_PWDG_STAT_LEFT F.TETHER_PWDG_STAT_BAD _ (by decide),
    (KeepsRegs.refl s _).setFld (f := F.TETHER_PWDG_STAT_LEFT) (by decide), rfl⟩
  exact (State.fld_setFld s F.TETHER_PWDG_STAT_LEFT _ (by decide)).trans (Nat.mod_eq_of_lt (Bits.get_lt _ _ _))

theorem State.tetherKick_off (hoff : s.flag F.TETHER_PWDG_EN = false) : s.tetherKick (0x7A7A#32).toNat = s :=
  (if_pos rfl).trans (if_neg (by rw [hoff]; decide))

theorem State.tetherKick_bad {v : BitVec 32} (hv : v ≠ 0x7A7A#32) : ∃ t, s.tetherKick v.toNat = t ∧
    t.fld F.TETHER_PWDG_STAT_LEFT = s.fld F.TETHER_PWDG_STAT_LEFT ∧ t.fld F.TETHER_PWDG_STAT_BAD = min 255 (s.fld F.TETHER_PWDG_STAT_BAD + 1) ∧
    KeepsRegs s t [R.TETHER_PWDG_STAT] ∧ t = { s with regs := t.regs } := by
  have hkick : s.tetherKick v.toNat = s.bump F.TETHER_PWDG_STAT_BAD :=
    if_neg fun h => hv (BitVec.eq_of_toNat_eq ((Nat.mod_eq_of_lt v.isLt).symm.trans h))
  refine ⟨_, hkick, State.fld_setFld_ne s F.TETHER_PWDG_STAT_BAD F.TETHER_PWDG_STAT_LEFT _ (by decide), ?_,
    (KeepsRegs.refl s _).bump (f := F.TETHER_PWDG_STAT_BAD) (by decide), rfl⟩
  rw [State.bump, State.bumpBy, State.fld_setFld _ _ _ (by decide), satAdd_eq_min]
  exact Nat.mod_eq_of_lt (Nat.lt_of_le_of_lt (Nat.min_le_left _ _) (by decide))

/-! ### Its expiry -/

/-- The registers that an edge may write. -/
def edgeRegs : List Nat := [R.CAIRN_COALESCE, R.EVT_RAW P.CAIRN_CTL]

theorem State.edge_keepsRegs (id : Nat) : KeepsRegs s (s.edge id) edgeRegs := by
  rw [State.edge]
  split
  · exact KeepsRegs.refl s _
  · split
    · exact (((KeepsRegs.refl s _).bumpSat (f := F.CAIRN_COALESCE_COUNT) (g := F.CAIRN_COALESCE_SAT) (by decide) (by decide)).setFld
        (f := F.CAIRN_COALESCE_LAST_ID) (by decide)).raise (by decide)
    · exact (KeepsRegs.refl s _).of_regs rfl

theorem State.edge_rest (id : Nat) : s.edge id = { s with regs := (s.edge id).regs, cairn := (s.edge id).cairn } := by
  rw [State.edge]
  split
  · rfl
  · split
    · rw [State.bumpSat_rest]
      rfl
    · rfl

/-- The latch that an edge leaves depends on the latch, and on whether Cairn is clocked. -/
theorem State.edge_cairn_congr {t : State} (hkept : t.kept 2 = s.kept 2) (hcairn : t.cairn = s.cairn) (id : Nat) : (t.edge id).cairn = (s.edge id).cairn := by
  have hgate : t.gate id = s.gate id := by rw [State.gate, State.gate, hcairn]
  rw [State.edge, State.edge, hkept, hgate]
  split
  · exact hcairn
  · split
    · have hcount (u : State) : (((u.bumpSat F.CAIRN_COALESCE_COUNT F.CAIRN_COALESCE_SAT).setFld F.CAIRN_COALESCE_LAST_ID id).raise P.CAIRN_CTL
          E.CAIRN_CTL_COALESCE).cairn = u.cairn := State.bumpSat_cairn _ _ _
      rw [hcount, hcount, hcairn]
    · rw [State.setGate, State.setGate, hcairn]

/-- The state in which the watchdog has expired, before Cairn sees it. -/
def State.pwdgLatched (s : State) : State := ((s.setFld F.TETHER_PWDG_STAT_LEFT 0).setFlag F.TETHER_PWDG_STAT_EXPIRED true).raise P.TETHER E.TETHER_PWDG

theorem State.pwdgLatched_keepsRegs : KeepsRegs s s.pwdgLatched [R.TETHER_PWDG_STAT, R.EVT_RAW P.TETHER] :=
  (((KeepsRegs.refl s _).setFld (f := F.TETHER_PWDG_STAT_LEFT) (by decide)).setFlag (f := F.TETHER_PWDG_STAT_EXPIRED) (by decide)).raise (by decide)

/-- R531: without an action it latches, is reported, and raises source 362. -/
theorem State.pwdgExpire_effect (hcounts : s.pwdgCounts = true) (hquiet : s.flag F.TETHER_PWDG_ACTION = false) : ∃ t, s.pwdgExpire = t ∧
    t.fld F.TETHER_PWDG_STAT_LEFT = 0 ∧ t.flag F.TETHER_PWDG_STAT_EXPIRED = true ∧ t.event P.TETHER E.TETHER_PWDG = true ∧
    t.cairn = (s.edge 362).cairn ∧ KeepsPages s t [P.TETHER, P.CAIRN_CTL] ∧ t = { s with regs := t.regs, cairn := t.cairn } := by
  have hkept := State.pwdgLatched_keepsRegs (s := s)
  have hedge := State.edge_keepsRegs (s := s.pwdgLatched) 362
  have hall := (hkept.mono (m := [R.TETHER_PWDG_STAT, R.EVT_RAW P.TETHER] ++ edgeRegs) fun a ha => List.mem_append_left _ ha).trans
    (hedge.mono fun a ha => List.mem_append_right _ ha)
  have hexpire : s.pwdgExpire = s.pwdgLatched.edge 362 := by
    refine (if_neg (by rw [hcounts]; decide)).trans (if_neg ?_)
    exact fun h => absurd (h.symm.trans ((hall.flag (f := F.TETHER_PWDG_ACTION) (by decide)).trans hquiet)) (by decide)
  refine ⟨_, hexpire, ?_, ?_, ?_, ?_, hall.pages (by decide), ?_⟩
  · rw [hedge.fld (by decide)]
    exact (State.fld_raise_ne _ _ _ _ (by decide)).trans ((State.fld_setFld_ne _ F.TETHER_PWDG_STAT_EXPIRED F.TETHER_PWDG_STAT_LEFT _ (by decide)).trans
      (State.fld_setFld s F.TETHER_PWDG_STAT_LEFT 0 (by decide)))
  · rw [hedge.flag (by decide)]
    exact (State.flag_raise_ne _ _ _ _ (by decide)).trans (State.flag_setFlag _ F.TETHER_PWDG_STAT_EXPIRED true (by decide) (by decide))
  · rw [hedge.event _ (by decide)]
    exact State.event_raise _ _ _ (by decide)
  · exact State.edge_cairn_congr (hkept.kept rfl (by decide) (by decide) 2) rfl 362
  · rw [State.edge_rest]
    rfl

end

/-! ### The obligation -/

/-- Settles O46: by the queue, LIVE_EN and BOOT_GO for the commit of an access (R526, R527), by the route of its address for its end, and by the
write for requests, notices and kicks. -/
theorem tetherLiveAccessesNoticesAndWatchdog : Obligations.TetherLiveAccessesNoticesAndWatchdog := by
  unfold Obligations.TetherLiveAccessesNoticesAndWatchdog
  refine ⟨?_, ?_, ?_, ?_, ?_, ?_, ?_, ?_, ?_, ?_, ?_, ?_, ?_, ?_, ?_, ?_, ?_⟩
  · intro s v hhears hempty hon hgo
    exact (State.liveLo_queued hempty hon hgo).imp fun t ⟨ht, h⟩ => ⟨congrArg Host.Outcome.next ((if_pos hhears).trans ht), h⟩
  · intro s v hhears hempty hoff
    exact (State.liveLo_refused hempty hoff).imp fun t ⟨ht, h⟩ => ⟨congrArg Host.Outcome.next ((if_pos hhears).trans ht), h⟩
  · intro s v hhears hroom hsome
    exact (State.liveStream_queued hroom hsome).imp fun t ⟨ht, h⟩ => ⟨congrArg Host.Outcome.next ((if_pos hhears).trans ht), h⟩
  · intro s v hhears hfull
    exact ⟨_, congrArg Host.Outcome.next ((if_pos hhears).trans (State.liveStream_lost hfull)), rfl⟩
  · intro s target n rest hqueue hon hruns
    exact (State.liveRead_retain n hon hruns hqueue).imp fun t ⟨ht, h⟩ => ⟨congrArg Host.Outcome.next ht, h⟩
  · intro s target n v hqueue hon hruns hopen
    exact (State.liveWrite_retain n hon hruns hqueue hopen).imp fun t ⟨ht, h⟩ => ⟨congrArg Host.Outcome.next ht, h⟩
  · intro s v hhears hv hgo
    exact (State.tetherReq_effect hv hgo).imp fun t ⟨ht, h⟩ => ⟨congrArg Host.Outcome.next ((if_pos hhears).trans ht), h⟩
  · intro s q v hopen hv
    exact (State.attnSet_effect hopen hv).imp fun t ⟨ht, h⟩ => ⟨congrArg Host.Outcome.next ht, h⟩
  · intro s hhears hon
    exact (State.tetherKick_effect hon).imp fun t ⟨ht, h⟩ => ⟨congrArg Host.Outcome.next ((if_pos hhears).trans ht), h⟩
  · intro s v hhears hv
    exact (State.tetherKick_bad hv).imp fun t ⟨ht, h⟩ => ⟨congrArg Host.Outcome.next ((if_pos hhears).trans ht), h⟩
  · intro s hcounts hquiet
    exact (State.pwdgExpire_effect hcounts hquiet).imp fun t ⟨ht, h⟩ => ⟨congrArg Host.Outcome.next ht, h⟩
  · intro s hcounts
    exact ⟨s, congrArg Host.Outcome.next (if_pos (by rw [hcounts]; rfl)), rfl⟩
  · intro s hhears hoff
    exact ⟨s, congrArg Host.Outcome.next ((if_pos hhears).trans (State.tetherKick_off hoff)), rfl⟩
  · intro s v hhears hempty hon hcamp hgo
    exact (State.liveStream_refused hempty hcamp hgo).imp fun t ⟨ht, h⟩ => ⟨congrArg Host.Outcome.next ((if_pos hhears).trans ht), h⟩
  · intro s target timeout hempty
    refine ⟨s, congrArg Host.Outcome.next ?_, rfl⟩
    rw [State.opLiveDone, hempty]
  · intro s hhears
    exact ⟨s, congrArg Host.Outcome.next ((if_pos hhears).trans s.tetherReq_zero), rfl⟩
  · intro s v r hdeaf
    have hnot : ¬ s.tetherHears = true := by
      rw [hdeaf]
      decide
    exact ⟨s, congrArg Host.Outcome.next (if_neg hnot), rfl, congrArg Host.Outcome.next (if_neg hnot), congrArg Host.Outcome.next (if_neg hnot),
      congrArg Host.Outcome.next (if_neg hnot)⟩

end Sys2Proof.Machine
end


section
/-! The bits of a Tether frame (R15, R520 to R522): numbers, bytes and whole words of a bit sequence. -/
namespace Sys2Proof.Machine

/-! ### Numbers -/

theorem length_numBits (n v : Nat) : (numBits n v).length = n := by simp [numBits]

theorem numBits_add (a b v : Nat) : numBits (a + b) v = numBits a (v / 2 ^ b) ++ numBits b v := by
  rw [numBits, numBits, numBits, List.range_add, List.map_append, List.map_map]
  refine congrArg₂ (· ++ ·) (List.map_congr_left fun i hi => ?_) (List.map_congr_left fun i _ => ?_)
  · have hlt := List.mem_range.1 hi
    rw [Nat.testBit_div_two_pow, show a + b - 1 - i = a - 1 - i + b by omega]
  · rw [Function.comp_apply, show a + b - 1 - (a + i) = b - 1 - i by omega]

theorem bitsNum_concat (bs : List Bool) (b : Bool) : bitsNum (bs ++ [b]) = 2 * bitsNum bs + b2n b := List.foldl_concat ..

theorem bitsNum_numBits (n v : Nat) : bitsNum (numBits n v) = v % 2 ^ n := by
  induction n generalizing v with
  | zero => exact (Nat.mod_one v).symm
  | succ n ih =>
    have hlast : numBits 1 v = [v.testBit 0] := rfl
    have hbit : b2n (v.testBit 0) = v % 2 := by
      rw [Nat.testBit_zero]
      rcases Nat.mod_two_eq_zero_or_one v with h | h <;> rw [h] <;> rfl
    rw [numBits_add, hlast, bitsNum_concat, ih, hbit, Nat.pow_one, Nat.pow_succ, Nat.mul_comm (2 ^ n) 2, Nat.mod_mul]
    omega

theorem take_numBits (n v : Nat) (rest : List Bool) : (numBits n v ++ rest).take n = numBits n v :=
  List.take_left' (length_numBits n v)

theorem drop_numBits (n v : Nat) (rest : List Bool) : (numBits n v ++ rest).drop n = rest :=
  List.drop_left' (length_numBits n v)

/-! ### Bytes -/

theorem bitBytes_nil (k : Nat) : bitBytes k [] = [] := by cases k <;> rfl

theorem bitBytes_byte (k v : Nat) (rest : List Bool) : bitBytes (k + 1) (numBits 8 v ++ rest) = BitVec.ofNat 8 v :: bitBytes k rest := by
  have hsome : (numBits 8 v ++ rest).isEmpty = false := rfl
  rw [bitBytes, hsome, take_numBits, drop_numBits, bitsNum_numBits]
  refine congrArg (· :: bitBytes k rest) (BitVec.eq_of_toNat_eq ?_)
  rw [BitVec.toNat_ofNat, BitVec.toNat_ofNat, Nat.mod_mod]

theorem beBytes_succ (m v : Nat) : beBytes (m + 1) v = beBytes m (v / 2 ^ 8) ++ [BitVec.ofNat 8 v] := List.reverse_cons

theorem bitBytes_numBits (k m v : Nat) (rest : List Bool) : bitBytes (k + m) (numBits (8 * m) v ++ rest) = beBytes m v ++ bitBytes k rest := by
  induction m generalizing k v rest with
  | zero => rfl
  | succ m ih =>
    rw [Nat.mul_succ, numBits_add, List.append_assoc, ← Nat.add_assoc, Nat.add_right_comm, ih, bitBytes_byte, beBytes_succ, List.append_assoc]
    rfl

theorem bitBytes_words (k : Nat) (words : List (BitVec 32)) : bitBytes (k + 4 * words.length) (words.flatMap fun w => numBits 32 w.toNat) =
    words.flatMap fun w => beBytes 4 w.toNat := by
  induction words generalizing k with
  | nil => exact bitBytes_nil _
  | cons w ws ih =>
    rw [List.flatMap_cons, List.flatMap_cons, List.length_cons, Nat.mul_succ, ← Nat.add_assoc]
    exact (bitBytes_numBits _ 4 _ _).trans (congrArg (beBytes 4 w.toNat ++ ·) (ih k))

/-- R522: the bytes of a command and the words behind it. -/
theorem bitBytes_frame {k c : Nat} (words : List (BitVec 32)) (hk : 4 * words.length + 2 ≤ k) :
    bitBytes k (numBits 16 c ++ words.flatMap fun w => numBits 32 w.toNat) = beBytes 2 c ++ words.flatMap fun w => beBytes 4 w.toNat := by
  obtain ⟨j, rfl⟩ := Nat.exists_eq_add_of_le' hk
  rw [show j + (4 * words.length + 2) = j + 4 * words.length + 2 from rfl]
  exact (bitBytes_numBits _ 2 c _).trans (congrArg (beBytes 2 c ++ ·) (bitBytes_words j words))

theorem bitBytes_command (c : Nat) : bitBytes 2 (numBits 16 c) = beBytes 2 c := by
  have hcommand := bitBytes_numBits 0 2 c []
  rwa [List.append_nil, bitBytes_nil, List.append_nil] at hcommand

theorem crc8_lt (bs : List Byte) : crc8 bs < 256 := by
  have hfold (l : List Bool) (c : Nat) (hc : c < 256) : l.foldl (Crc.msbStep 8 0x07) c < 256 := by
    induction l generalizing c with
    | nil => exact hc
    | cons b l ih =>
      refine ih _ ?_
      rw [Crc.msbStep]
      have hshift : (c <<< 1) % 2 ^ 8 < 2 ^ 8 := Nat.mod_lt _ (by decide)
      split
      · exact Nat.xor_lt_two_pow hshift (by decide)
      · exact hshift
  exact hfold _ 0 (by decide)

/-! ### Whole words -/

theorem wholeWords_short (k : Nat) {bs : List Bool} (h : bs.length < 32) : wholeWords k bs = [] := by
  cases k with
  | zero => rfl
  | succ k => exact if_pos h

theorem wholeWords_words {k : Nat} (words : List (BitVec 32)) {extra : List Bool} (hextra : extra.length < 32) (hk : words.length ≤ k) :
    wholeWords k ((words.flatMap fun w => numBits 32 w.toNat) ++ extra) = words.map fun w => w.toNat := by
  induction words generalizing k with
  | nil => exact wholeWords_short k hextra
  | cons w ws ih =>
    obtain ⟨j, rfl⟩ := Nat.exists_eq_add_of_le' hk
    rw [List.flatMap_cons, List.append_assoc, List.length_cons, ← Nat.add_assoc, wholeWords, take_numBits, drop_numBits, bitsNum_numBits,
      Nat.mod_eq_of_lt w.isLt, ih (Nat.le_add_left _ _), List.map_cons]
    refine if_neg ?_
    rw [List.length_append, length_numBits]
    omega

theorem length_words (words : List (BitVec 32)) : (words.flatMap fun w => numBits 32 w.toNat).length = 32 * words.length := by
  induction words with
  | nil => rfl
  | cons w ws ih =>
    rw [List.flatMap_cons, List.length_append, length_numBits, ih, List.length_cons]
    omega

/-- The word of a single write. -/
theorem wholeWords_one {k : Nat} (v : BitVec 32) {extra : List Bool} (hextra : extra.length < 32) (hk : 0 < k) :
    wholeWords k (numBits 32 v.toNat ++ extra) = [v.toNat] := by
  have hone := wholeWords_words (k := k) [v] hextra hk
  rwa [List.flatMap_cons, List.flatMap_nil, List.append_nil] at hone

end Sys2Proof.Machine
end

section
/-! The Tether port: frames, commits and aborts (R519 to R525). -/
namespace Sys2Proof.Machine

/-! ### Aborts -/

/-- R523: an abort is counted and its reason kept. -/
def State.Aborted (s t : State) (reason : Nat) : Prop :=
  t.fld F.TETHER_ABORT_COUNT_LAST = reason ∧ t.event P.TETHER E.TETHER_ABORT = true ∧
    t.fld F.TETHER_ABORT_COUNT_COUNT = min (2 ^ F.TETHER_ABORT_COUNT_COUNT.width - 1) (s.fld F.TETHER_ABORT_COUNT_COUNT + 1)

/-- The state in which MISO has shifted out these bits. -/
def State.shifted (s : State) (bits : List Bool) : State := s.modTether (fun x => { x with miso := bits })

section
variable {s : State} {reason : Nat}

theorem State.aborted_tetherAbort (h : reason < 8) : s.Aborted (s.tetherAbort reason) reason := by
  refine ⟨?_, State.event_raise _ _ _ (by decide), ?_⟩
  · exact (State.fld_raise_ne _ _ _ _ (by decide)).trans ((State.fld_setFld _ F.TETHER_ABORT_COUNT_LAST _ (by decide)).trans (Nat.mod_eq_of_lt h))
  · exact (State.fld_raise_ne _ _ _ _ (by decide)).trans ((State.fld_setFld_ne _ F.TETHER_ABORT_COUNT_LAST F.TETHER_ABORT_COUNT_COUNT _ (by decide)).trans
      (State.fld_bumpSat s (by decide) (by decide)))

theorem State.tetherAbort_keepsRegs : KeepsRegs s (s.tetherAbort reason) [R.TETHER_ABORT_COUNT, R.EVT_RAW P.TETHER] :=
  (((KeepsRegs.refl s _).bumpSat (f := F.TETHER_ABORT_COUNT_COUNT) (g := F.TETHER_ABORT_COUNT_SAT) (by decide) (by decide)).setFld
    (f := F.TETHER_ABORT_COUNT_LAST) (by decide)).raise (by decide)

theorem State.tetherAbort_rest : s.tetherAbort reason = { s with regs := (s.tetherAbort reason).regs } := by
  rw [State.tetherAbort, State.bumpSat_rest]
  rfl

theorem State.Aborted.of_regs {t u : State} (h : s.Aborted t reason) (hregs : u.regs = t.regs) : s.Aborted u reason := by
  have hkept : KeepsRegs t u [] := (KeepsRegs.refl t _).of_regs hregs
  obtain ⟨hlast, hevent, hcount⟩ := h
  exact ⟨(hkept.fld List.not_mem_nil).trans hlast, (hkept.event _ List.not_mem_nil).trans hevent, (hkept.fld List.not_mem_nil).trans hcount⟩

/-- What a frame that only aborts comes to. -/
theorem State.abort_shifted (h : reason < 8) (bits : List Bool) : s.Aborted ((s.tetherAbort reason).shifted bits) reason ∧
    ((s.tetherAbort reason).shifted bits).tether = { s.tether with miso := bits } ∧
    KeepsRegs s ((s.tetherAbort reason).shifted bits) [R.TETHER_ABORT_COUNT, R.EVT_RAW P.TETHER] ∧
    (s.tetherAbort reason).shifted bits =
      { s with regs := ((s.tetherAbort reason).shifted bits).regs, tether := ((s.tetherAbort reason).shifted bits).tether } := by
  refine ⟨(State.aborted_tetherAbort h).of_regs rfl, ?_, State.tetherAbort_keepsRegs.of_regs rfl, ?_⟩
  · rw [State.tetherAbort_rest]
    rfl
  · rw [State.tetherAbort_rest]
    rfl

end

/-! ### A frame, by its command -/

section
variable {s : State} (hhears : s.tetherHears = true)
include hhears

theorem State.tetherFrame_short {bits : List Bool} (hsome : 0 < bits.length) (hshort : bits.length < 16) :
    s.tetherFrame bits = (s.tetherAbort 1).shifted ((numBits 16 (s.windowRead 1)).take bits.length) := by
  have hne : bits.isEmpty = false := List.isEmpty_eq_false_iff.2 (List.ne_nil_of_length_pos hsome)
  rw [State.tetherFrame, hhears, hne]
  simp only [Bool.not_true, Bool.or_self, Bool.false_eq_true, if_false, hshort, if_true, List.append_nil]
  rfl

/-- What a frame with a command and bits behind it does. -/
def State.frameAfter (s : State) (c : Nat) (command body : List Bool) : List Bool × State :=
  if c / 2 ^ 8 % 64 ≠ 0 then (List.replicate body.length false, s.tetherAbort 5)
  else if ! c.testBit 14 && s.flag F.TETHER_CFG_CRC_REQ then (List.replicate body.length false, s.tetherAbort 6)
  else s.frameBody (c.testBit 15) (c.testBit 14) (c % 256) command body

theorem State.tetherFrame_long {bits : List Bool} (hlong : 16 < bits.length) : s.tetherFrame bits =
    (s.frameAfter (bitsNum (bits.take 16)) (bits.take 16) (bits.drop 16)).2.shifted
      (numBits 16 (s.windowRead 1) ++ (s.frameAfter (bitsNum (bits.take 16)) (bits.take 16) (bits.drop 16)).1) := by
  have hne : bits.isEmpty = false := List.isEmpty_eq_false_iff.2 (List.ne_nil_of_length_pos (Nat.lt_of_le_of_lt (Nat.zero_le _) hlong))
  have hbody : (bits.drop 16).isEmpty = false := List.isEmpty_eq_false_iff.2 (List.ne_nil_of_length_pos (by rw [List.length_drop]; omega))
  have hstate : (numBits 16 (s.windowRead 1)).take bits.length = numBits 16 (s.windowRead 1) :=
    List.take_of_length_le (by rw [length_numBits]; exact Nat.le_of_lt hlong)
  rw [State.tetherFrame, hhears, hne]
  simp only [Bool.not_true, Bool.or_self, Bool.false_eq_true, if_false, if_neg (Nat.not_lt.2 (Nat.le_of_lt hlong)), hbody, hstate]
  rfl

/-- R520: the same of the bits of a command followed by others. -/
theorem State.tetherFrame_command {c : Nat} {body : List Bool} (hc : c < 2 ^ 16) (hbody : 0 < body.length) :
    s.tetherFrame (numBits 16 c ++ body) =
      (s.frameAfter c (numBits 16 c) body).2.shifted (numBits 16 (s.windowRead 1) ++ (s.frameAfter c (numBits 16 c) body).1) := by
  rw [State.tetherFrame_long hhears (by rw [List.length_append, length_numBits]; omega), take_numBits, drop_numBits, bitsNum_numBits, Nat.mod_eq_of_lt hc]

end

/-! ### A command that is carried out -/

section
variable {s : State} {c : Nat} {command body : List Bool}

theorem State.frameAfter_taken (hplain : c / 2 ^ 8 % 64 = 0) (hcrc : c.testBit 14 = true ∨ s.flag F.TETHER_CFG_CRC_REQ = false) :
    s.frameAfter c command body = s.frameBody (c.testBit 15) (c.testBit 14) (c % 256) command body := by
  refine (if_neg (fun h => h hplain)).trans (if_neg ?_)
  rcases hcrc with h | h <;> rw [h] <;> simp

variable {i : Nat} (hbody : 0 < body.length)
include hbody

/-- R521: a read without CRC. -/
theorem State.frameBody_read : s.frameBody true false i command body = s.readWords body.length i body.length := if_neg (Nat.ne_of_gt hbody)

/-- R521: a write without CRC. -/
theorem State.frameBody_write : s.frameBody false false i command body = (List.replicate body.length false,
    if body.length % 32 = 0 then s.commitFrame i (wholeWords body.length body) else (s.commitFrame i (wholeWords body.length body)).tetherAbort 2) :=
  if_neg (Nat.ne_of_gt hbody)

end

end Sys2Proof.Machine
end

section
/-! The Tether port: reads, writes and CRC writes (R521, R522, R525). -/
namespace Sys2Proof.Machine

-- Checked one after another: side by side these evaluations take more memory than the check has.
set_option Elab.async false

/-! ### Reads -/

section
variable {s : State} {i : Nat}

/-- R21, R521: what a complete read of the word leaves. -/
theorem State.windowClear_shifted (bits : List Bool) :
    ((s.windowClear i).shifted bits).tether.miso = bits ∧
    (i = 2 → ((s.windowClear i).shifted bits).tether.raised = 0 ∧ ((s.windowClear i).shifted bits).tether.raisedSat = false) ∧
    (i = 0x20 → ((s.windowClear i).shifted bits).tether.liveErr = false ∧ ((s.windowClear i).shifted bits).tether.liveLost = false) ∧
    (i ≠ 2 → i ≠ 0x20 → ((s.windowClear i).shifted bits).tether = { s.tether with miso := bits }) ∧
    (s.windowClear i).shifted bits = { s with tether := ((s.windowClear i).shifted bits).tether } := by
  refine ⟨rfl, ?_, ?_, ?_, ?_⟩
  · rintro rfl
    exact ⟨rfl, rfl⟩
  · rintro rfl
    exact ⟨rfl, rfl⟩
  · intro hraised hlive
    rw [State.windowClear, if_neg hraised, if_neg hlive]
    rfl
  · rw [State.windowClear]
    split
    · rfl
    · split <;> rfl

theorem State.readWords_one : s.readWords 32 i 32 = (numBits 32 (s.windowRead (i % 256)), s.windowClear (i % 256)) :=
  congrArg (fun l => (l, s.windowClear (i % 256))) (List.append_nil _)

theorem State.readCrcWords_one (sent : List Byte) : s.readCrcWords 48 i 40 sent =
    (numBits 32 (s.windowRead (i % 256)) ++ numBits 8 (crc8 (sent ++ beBytes 4 (s.windowRead (i % 256)))), s.windowClear (i % 256)) :=
  congrArg (fun l => (l, s.windowClear (i % 256))) (List.append_nil _)

end

/-- The commands of a read of word `i`. -/
theorem readCommand : ∀ i : Fin 256, (0x8000 + i.val) / 2 ^ 8 % 64 = 0 ∧ (0x8000 + i.val).testBit 15 = true ∧ (0x8000 + i.val).testBit 14 = false ∧
    (0x8000 + i.val) % 256 = i.val ∧ (0xC000 + i.val) / 2 ^ 8 % 64 = 0 ∧ (0xC000 + i.val).testBit 15 = true ∧ (0xC000 + i.val).testBit 14 = true ∧
    (0xC000 + i.val) % 256 = i.val := by
  decide +kernel

section
variable {s : State} (hhears : s.tetherHears = true) (i : Fin 256)
include hhears

/-- R521: a read frame of one word. -/
theorem State.tetherFrame_read (hcrc : s.flag F.TETHER_CFG_CRC_REQ = false) : s.tetherFrame (numBits 16 (0x8000 + i.val) ++ List.replicate 32 false) =
    (s.windowClear i.val).shifted (numBits 16 (s.windowRead 1) ++ numBits 32 (s.windowRead i.val)) := by
  obtain ⟨hplain, hread, hnoCrc, hindex, -⟩ := readCommand i
  have hi := i.isLt
  rw [State.tetherFrame_command hhears (by omega) (by decide), State.frameAfter_taken hplain (.inr hcrc), hread, hnoCrc, State.frameBody_read (by decide),
    hindex, List.length_replicate, State.readWords_one, Nat.mod_eq_of_lt hi]

/-- R522: a read frame of one word with CRC. -/
theorem State.tetherFrame_readCrc :
    s.tetherFrame (numBits 16 (0xC000 + i.val) ++ numBits 8 (crc8 (beBytes 2 (0xC000 + i.val))) ++ List.replicate 40 false) =
      (s.windowClear i.val).shifted (numBits 16 (s.windowRead 1) ++ List.replicate 8 false ++ numBits 32 (s.windowRead i.val) ++
        numBits 8 (crc8 (beBytes 2 (0xC000 + i.val) ++ beBytes 4 (s.windowRead i.val)))) := by
  obtain ⟨-, -, -, -, hplain, hread, hcrc, hindex⟩ := readCommand i
  have hi := i.isLt
  obtain ⟨body, hbody⟩ : ∃ body, body = numBits 8 (crc8 (beBytes 2 (0xC000 + i.val))) ++ List.replicate 40 false := ⟨_, rfl⟩
  have hlength : body.length = 48 := by rw [hbody, List.length_append, length_numBits, List.length_replicate]
  have htake : bitsNum (body.take 8) = crc8 (beBytes 2 (0xC000 + i.val)) := by
    rw [hbody, take_numBits, bitsNum_numBits]
    exact Nat.mod_eq_of_lt (crc8_lt _)
  have hframe : s.frameBody true true i.val (numBits 16 (0xC000 + i.val)) body =
      (List.replicate 8 false ++ (s.readCrcWords body.length i.val (body.length - 8) (bitBytes 2 (numBits 16 (0xC000 + i.val)))).1,
        (s.readCrcWords body.length i.val (body.length - 8) (bitBytes 2 (numBits 16 (0xC000 + i.val)))).2) := by
    refine (if_neg (by rw [hlength]; decide)).trans ((if_neg (by decide)).trans ((if_neg (by decide)).trans ((if_neg (by decide)).trans
      ((if_neg (by rw [hlength]; decide)).trans (if_neg ?_)))))
    rw [htake, bitBytes_command]
    exact fun h => h rfl
  rw [List.append_assoc, ← hbody, State.tetherFrame_command hhears (by omega) (by rw [hlength]; decide), State.frameAfter_taken hplain (.inl hcrc), hread, hcrc,
    hindex, hframe, hlength, bitBytes_command, State.readCrcWords_one, Nat.mod_eq_of_lt hi]
  simp only [List.append_assoc]

end

/-! ### Writes -/

/-- The commands of a write of mailbox word `n`. -/
theorem writeCommand : ∀ n : Fin 8, (0x10 + n.val) / 2 ^ 8 % 64 = 0 ∧ (0x10 + n.val).testBit 15 = false ∧ (0x10 + n.val).testBit 14 = false ∧
    (0x10 + n.val) % 256 = 0x10 + n.val ∧ (0x4010 + n.val) / 2 ^ 8 % 64 = 0 ∧ (0x4010 + n.val).testBit 15 = false ∧ (0x4010 + n.val).testBit 14 = true ∧
    (0x4010 + n.val) % 256 = 0x10 + n.val := by
  decide

section
variable {s : State}

/-- R525: a write to a word of the mailbox. -/
theorem State.windowWrite_mailbox {n : Nat} (hn : n < 8) (v : Nat) : s.windowWrite (0x10 + n) v = s.setFld (F.TETHER_MBOX_IN_DATA n) v := by
  rw [State.windowWrite, if_neg (by omega), if_neg (by omega), if_neg (by omega), if_neg (by omega), if_pos (by omega), Nat.add_sub_cancel_left]

theorem State.fld_mailbox (n : Nat) (v : BitVec 32) : (s.setFld (F.TETHER_MBOX_IN_DATA n) v.toNat).fld (F.TETHER_MBOX_IN_DATA n) = v.toNat :=
  (State.fld_setFld _ (F.TETHER_MBOX_IN_DATA n) _ (by simp [F.TETHER_MBOX_IN_DATA])).trans (Nat.mod_eq_of_lt v.isLt)

theorem mailbox_inj {m n : Nat} (h : R.TETHER_MBOX_IN m = R.TETHER_MBOX_IN n) : m = n := by
  rw [R.TETHER_MBOX_IN, R.TETHER_MBOX_IN] at h
  omega

/-- R525: words written one after another from word `n` of the mailbox. -/
theorem State.windowWords_mailbox {n : Nat} (words : List (BitVec 32)) (hn : n + words.length ≤ 8) :
    ∃ t, s.windowWords (0x10 + n) (words.map fun w => w.toNat) = t ∧
      (∀ j, n ≤ j → j < n + words.length → t.fld (F.TETHER_MBOX_IN_DATA j) = (words.getD (j - n) 0#32).toNat) ∧
      KeepsRegs s t ((List.range words.length).map fun k => R.TETHER_MBOX_IN (n + k)) ∧ t = { s with regs := t.regs } := by
  induction words generalizing s n with
  | nil => exact ⟨s, rfl, fun j h1 h2 => absurd (Nat.lt_of_le_of_lt h1 h2) (Nat.lt_irrefl _), KeepsRegs.refl s _, rfl⟩
  | cons w ws ih =>
    have hlen : n + 1 + ws.length ≤ 8 := by
      rw [List.length_cons] at hn
      omega
    obtain ⟨t, ht, hfld, hkept, hrest⟩ := ih (s := s.setFld (F.TETHER_MBOX_IN_DATA n) w.toNat) hlen
    have hothers : KeepsRegs (s.setFld (F.TETHER_MBOX_IN_DATA n) w.toNat) t ((List.range (w :: ws).length).map fun k => R.TETHER_MBOX_IN (n + k)) := by
      refine hkept.mono fun a ha => ?_
      obtain ⟨k, hk, rfl⟩ := List.mem_map.1 ha
      refine List.mem_map.2 ⟨k + 1, ?_, by rw [Nat.add_assoc, Nat.add_comm 1 k]⟩
      rw [List.mem_range] at hk ⊢
      rw [List.length_cons]
      omega
    have hhead : KeepsRegs s (s.setFld (F.TETHER_MBOX_IN_DATA n) w.toNat) ((List.range (w :: ws).length).map fun k => R.TETHER_MBOX_IN (n + k)) :=
      (KeepsRegs.refl s _).setFld (f := F.TETHER_MBOX_IN_DATA n) (List.mem_map.2 ⟨0, List.mem_range.2 (Nat.succ_pos _), rfl⟩)
    refine ⟨t, ?_, fun j hlow hhigh => ?_, hhead.trans hothers, State.rest_trans (t := s.setFld (F.TETHER_MBOX_IN_DATA n) w.toNat) rfl hrest⟩
    · rw [← ht, List.map_cons, State.windowWords, Nat.mod_eq_of_lt (by omega), State.windowWrite_mailbox (by omega), Nat.add_assoc]
    · rcases Nat.eq_or_lt_of_le hlow with rfl | hlater
      · rw [hkept.fld (f := F.TETHER_MBOX_IN_DATA n), State.fld_mailbox, Nat.sub_self]
        · rfl
        · intro hmem
          obtain ⟨k, -, hk⟩ := List.mem_map.1 hmem
          have := mailbox_inj hk
          omega
      · rw [hfld j hlater (by rw [List.length_cons] at hhigh; omega), show j - n = j - (n + 1) + 1 by omega]
        rfl

/-- R525: a frame that commits words. -/
theorem State.commitFrame_mailbox {n : Nat} (words : List (BitVec 32)) (hsome : 0 < words.length) (hn : n + words.length ≤ 8) :
    ∃ t, s.commitFrame (0x10 + n) (words.map fun w => w.toNat) = t ∧
      (∀ j, n ≤ j → j < n + words.length → t.fld (F.TETHER_MBOX_IN_DATA j) = (words.getD (j - n) 0#32).toNat) ∧
      t.tether = { s.tether with frames := (s.tether.frames + 1) % 256 } ∧
      KeepsRegs s t ((List.range words.length).map fun k => R.TETHER_MBOX_IN (n + k)) ∧ t = { s with regs := t.regs, tether := t.tether } := by
  obtain ⟨u, hu, hfld, hkept, hrest⟩ := State.windowWords_mailbox (s := s) words hn
  have hne : (words.map fun w => w.toNat).isEmpty = false := List.isEmpty_eq_false_iff.2 (List.ne_nil_of_length_pos (by rwa [List.length_map]))
  have hcommit : s.commitFrame (0x10 + n) (words.map fun w => w.toNat) = u.modTether (fun t => { t with frames := (t.frames + 1) % 256 }) := by
    rw [State.commitFrame, hu, hne]
    rfl
  refine ⟨_, hcommit, hfld, ?_, hkept.of_regs rfl, ?_⟩
  · rw [hrest]
    rfl
  · rw [hrest]
    rfl

end

end Sys2Proof.Machine
end

section
/-! The Tether port: write frames, and the obligation on frames (R521 to R525). -/
namespace Sys2Proof.Machine

-- Checked one after another: side by side these evaluations take more memory than the check has.
set_option Elab.async false

/-! ### A write of one word -/

theorem mailbox_apart : ∀ n : Fin 8, R.TETHER_MBOX_IN n.val ∉ [R.TETHER_ABORT_COUNT, R.EVT_RAW P.TETHER] := by decide

section
variable {s : State} (n : Fin 8) (v : BitVec 32)

theorem State.commitFrame_one : ∃ t, s.commitFrame (0x10 + n.val) [v.toNat] = t ∧ t.fld (F.TETHER_MBOX_IN_DATA n.val) = v.toNat ∧
    t.tether = { s.tether with frames := (s.tether.frames + 1) % 256 } ∧ KeepsRegs s t [R.TETHER_MBOX_IN n.val] ∧
    t = { s with regs := t.regs, tether := t.tether } := by
  obtain ⟨t, ht, hfld, htether, hkept, hrest⟩ := State.commitFrame_mailbox (s := s) (n := n.val) [v] Nat.one_pos (Nat.succ_le_of_lt n.isLt)
  refine ⟨t, ht, (hfld n.val (Nat.le_refl _) (Nat.lt_succ_self _)).trans ?_, htether, hkept, hrest⟩
  rw [Nat.sub_self]
  rfl

variable (hhears : s.tetherHears = true) (hcrc : s.flag F.TETHER_CFG_CRC_REQ = false)
include hhears hcrc

/-- R521: the word and loose bits behind it. -/
theorem State.tetherFrame_write {extra : List Bool} (hextra : extra.length < 32) : s.tetherFrame (numBits 16 (0x10 + n.val) ++ (numBits 32 v.toNat ++ extra)) =
    (if extra.length = 0 then s.commitFrame (0x10 + n.val) [v.toNat] else (s.commitFrame (0x10 + n.val) [v.toNat]).tetherAbort 2).shifted
      (numBits 16 (s.windowRead 1) ++ List.replicate (32 + extra.length) false) := by
  obtain ⟨hplain, hwrite, hnoCrc, hindex, -⟩ := writeCommand n
  have hn := n.isLt
  have hlength : (numBits 32 v.toNat ++ extra).length = 32 + extra.length := by rw [List.length_append, length_numBits]
  have hwhole : ((32 + extra.length) % 32 = 0) = (extra.length = 0) := propext (by omega)
  rw [State.tetherFrame_command hhears (by omega) (by rw [hlength]; omega), State.frameAfter_taken hplain (.inr hcrc), hwrite, hnoCrc,
    State.frameBody_write (by rw [hlength]; omega), hindex, hlength, wholeWords_one v hextra (by omega)]
  simp only [hwhole]

/-- R525: a write frame stores its word. -/
theorem State.tetherFrame_stores : ∃ t, s.tetherFrame (numBits 16 (0x10 + n.val) ++ numBits 32 v.toNat) = t ∧ t.fld (F.TETHER_MBOX_IN_DATA n.val) = v.toNat ∧
    t.tether = { s.tether with frames := (s.tether.frames + 1) % 256, miso := numBits 16 (s.windowRead 1) ++ List.replicate 32 false } ∧
    KeepsRegs s t [R.TETHER_MBOX_IN n.val] ∧ t = { s with regs := t.regs, tether := t.tether } := by
  have hframe := State.tetherFrame_write n v hhears hcrc (extra := []) (by decide)
  rw [List.append_nil, if_pos (show ([] : List Bool).length = 0 from rfl)] at hframe
  obtain ⟨u, hu, hfld, htether, hkept, hrest⟩ := State.commitFrame_one (s := s) n v
  rw [hu] at hframe
  refine ⟨_, hframe, hfld, ?_, hkept.of_regs rfl, ?_⟩
  · exact congrArg (fun y : TetherState => { y with miso := numBits 16 (s.windowRead 1) ++ List.replicate 32 false }) htether
  · rw [hrest]
    rfl

/-- R523: loose bits behind it abort the frame. -/
theorem State.tetherFrame_loose {extra : List Bool} (hsome : 0 < extra.length) (hextra : extra.length < 32) :
    ∃ t, s.tetherFrame (numBits 16 (0x10 + n.val) ++ numBits 32 v.toNat ++ extra) = t ∧
      t.fld (F.TETHER_MBOX_IN_DATA n.val) = v.toNat ∧ t.fld F.TETHER_ABORT_COUNT_LAST = 2 ∧ t.event P.TETHER E.TETHER_ABORT = true ∧
      t.tether.frames = (s.tether.frames + 1) % 256 ∧
      KeepsRegs s t [R.TETHER_MBOX_IN n.val, R.TETHER_ABORT_COUNT, R.EVT_RAW P.TETHER] ∧
      t = { s with regs := t.regs, tether := { s.tether with frames := t.tether.frames, miso := t.tether.miso } } := by
  have hframe := State.tetherFrame_write n v hhears hcrc hextra
  rw [if_neg (Nat.ne_of_gt hsome)] at hframe
  obtain ⟨u, hu, hfld, htether, hkept, hrest⟩ := State.commitFrame_one (s := s) n v
  rw [hu] at hframe
  obtain ⟨⟨hlast, hevent, -⟩, habort, habortKept, habortRest⟩ :=
    State.abort_shifted (s := u) (reason := 2) (by decide) (numBits 16 (s.windowRead 1) ++ List.replicate (32 + extra.length) false)
  obtain ⟨t, ht⟩ : ∃ t, t = (u.tetherAbort 2).shifted (numBits 16 (s.windowRead 1) ++ List.replicate (32 + extra.length) false) := ⟨_, rfl⟩
  rw [← ht] at hframe hlast hevent habort habortKept habortRest
  have hapart : R.TETHER_MBOX_IN n.val ∉ [R.TETHER_ABORT_COUNT, R.EVT_RAW P.TETHER] := mailbox_apart n
  refine ⟨t, (congrArg s.tetherFrame (List.append_assoc _ _ _)).trans hframe, ?_, hlast, hevent, ?_, ?_, ?_⟩
  · rw [habortKept.fld (f := F.TETHER_MBOX_IN_DATA n.val) hapart, hfld]
  · rw [habort, htether]
  · exact (hkept.mono fun a ha => List.mem_cons.2 (.inl (List.mem_singleton.1 ha))).trans (habortKept.mono fun a ha => List.mem_cons_of_mem _ ha)
  · rw [habortRest, habort, htether, hrest]

end

/-! ### A CRC write -/

/-- The bits behind the command of a CRC write frame. -/
def crcBody (words : List (BitVec 32)) (crc : Byte) : List Bool := (words.flatMap fun w => numBits 32 w.toNat) ++ numBits 8 crc.toNat

section
variable {words : List (BitVec 32)} {crc : Byte}

theorem length_crcBody : (crcBody words crc).length = 32 * words.length + 8 := by
  rw [crcBody, List.length_append, length_words, length_numBits]

theorem crcFrame_eq (i : Nat) : crcFrame i (words.map fun w => w.toNat) crc.toNat = numBits 16 (0x4000 + i) ++ crcBody words crc := by
  rw [crcFrame, crcBody, List.flatMap_map, List.append_assoc]

theorem take_crcBody : (crcBody words crc).take ((crcBody words crc).length - 8) = words.flatMap fun w => numBits 32 w.toNat := by
  rw [length_crcBody, Nat.add_sub_cancel]
  exact List.take_left' (length_words words)

theorem bitsNum_drop_crcBody : bitsNum ((crcBody words crc).drop ((crcBody words crc).length - 8)) = crc.toNat := by
  rw [length_crcBody, Nat.add_sub_cancel, crcBody, List.drop_left' (length_words words), bitsNum_numBits]
  exact Nat.mod_eq_of_lt crc.isLt

variable {s : State} {i c : Nat}

theorem State.frameBody_crc : s.frameBody false true i (numBits 16 c) (crcBody words crc) =
    if words.length = 0 ∨ 16 < words.length then (List.replicate (crcBody words crc).length false, s.tetherAbort 4)
    else if crc8 (beBytes 2 c ++ words.flatMap fun w => beBytes 4 w.toNat) ≠ crc.toNat then (List.replicate (crcBody words crc).length false, s.tetherAbort 3)
    else (List.replicate (crcBody words crc).length false, s.commitFrame i (words.map fun w => w.toNat)) := by
  have hbits : bitBytes ((crcBody words crc).length + 16) (numBits 16 c ++ (crcBody words crc).take ((crcBody words crc).length - 8)) =
      beBytes 2 c ++ words.flatMap fun w => beBytes 4 w.toNat := by
    rw [take_crcBody]
    exact bitBytes_frame words (by rw [length_crcBody]; omega)
  have hwords : wholeWords (crcBody words crc).length ((crcBody words crc).take ((crcBody words crc).length - 8)) = words.map fun w => w.toNat := by
    rw [take_crcBody, ← List.append_nil (words.flatMap _)]
    exact wholeWords_words words (by decide) (by rw [length_crcBody]; omega)
  have hmany : ((crcBody words crc).length < 40 ∨ ((crcBody words crc).length - 8) % 32 ≠ 0 ∨ 16 < ((crcBody words crc).length - 8) / 32) =
      (words.length = 0 ∨ 16 < words.length) := propext (by rw [length_crcBody]; omega)
  refine (if_neg (by rw [length_crcBody]; omega)).trans ((if_neg (by decide)).trans ((if_pos (by decide)).trans ?_))
  rw [hbits, hwords, bitsNum_drop_crcBody]
  simp only [hmany]

end

section
variable {s : State} (hhears : s.tetherHears = true) {words : List (BitVec 32)} {crc : Byte}
include hhears

/-- R522: a CRC write frame of too few or too many words. -/
theorem exec_crcCommit_bad (index : Byte) (hbad : words.length = 0 ∨ 16 < words.length) : exec (.tetherCrcCommit index words crc) s =
    .next ((s.tetherAbort 4).shifted (numBits 16 (s.windowRead 1) ++ List.replicate (crcBody words crc).length false)) := by
  have hindex : ∀ i : Byte, (0x4000 + i.toNat) / 2 ^ 8 % 64 = 0 ∧ (0x4000 + i.toNat).testBit 15 = false ∧
      (0x4000 + i.toNat).testBit 14 = true := by
    decide +kernel
  obtain ⟨hplain, hwrite, hcrc⟩ := hindex index
  have hlt := index.isLt
  refine congrArg Host.Outcome.next ?_
  rw [crcFrame_eq, State.tetherFrame_command hhears (by omega) (by rw [length_crcBody]; omega), State.frameAfter_taken hplain (.inl hcrc), hwrite, hcrc,
    State.frameBody_crc, if_pos hbad]

variable (n : Fin 8) (hfew : ¬ (words.length = 0 ∨ 16 < words.length))
include hfew

/-- R522: one of one to sixteen words of the mailbox. -/
theorem exec_crcCommit : exec (.tetherCrcCommit (BitVec.ofNat 8 (0x10 + n.val)) words crc) s =
    .next ((if crc8 (beBytes 2 (0x4010 + n.val) ++ words.flatMap fun w => beBytes 4 w.toNat) ≠ crc.toNat then s.tetherAbort 3
      else s.commitFrame (0x10 + n.val) (words.map fun w => w.toNat)).shifted
        (numBits 16 (s.windowRead 1) ++ List.replicate (crcBody words crc).length false)) := by
  obtain ⟨-, -, -, -, hplain, hwrite, hcrc, hindex⟩ := writeCommand n
  have hlt := n.isLt
  have hto : (BitVec.ofNat 8 (0x10 + n.val)).toNat = 0x10 + n.val := by
    rw [BitVec.toNat_ofNat]
    omega
  refine congrArg Host.Outcome.next ?_
  rw [crcFrame_eq, hto, ← Nat.add_assoc, State.tetherFrame_command hhears (by omega) (by rw [length_crcBody]; omega),
    State.frameAfter_taken hplain (.inl hcrc), hwrite, hcrc, hindex, State.frameBody_crc, if_neg hfew]
  split <;> rfl

end

/-! ### The obligation -/

/-- Settles O45: by the length of a frame and its command for aborts (R520, R523), and by the bits, bytes and words of its body for what it reads,
stores and checks (R521, R522, R525). -/
theorem tetherFramesCommitsAndAborts : Obligations.TetherFramesCommitsAndAborts := by
  unfold Obligations.TetherFramesCommitsAndAborts
  refine ⟨?_, ?_, ?_, ?_, ?_, ?_, ?_, ?_, ?_, ?_, ?_, ?_⟩
  · intro s i hhears hcrc
    refine ⟨_, congrArg Host.Outcome.next (State.tetherFrame_read hhears i hcrc), State.windowClear_shifted _⟩
  · intro s n v hhears hcrc
    exact (State.tetherFrame_stores n v hhears hcrc).imp fun t ⟨ht, h⟩ => ⟨congrArg Host.Outcome.next ht, h⟩
  · intro s bits hhears hsome hshort
    obtain ⟨⟨hlast, hevent, hcount⟩, htether, hkept, hrest⟩ :=
      State.abort_shifted (s := s) (reason := 1) (by decide) ((numBits 16 (s.windowRead 1)).take bits.length)
    exact ⟨_, congrArg Host.Outcome.next (State.tetherFrame_short hhears hsome hshort), hlast, hevent, hcount, htether, hkept, hrest⟩
  · intro s bits hhears hlong hplain hnoCrc hreq
    have hafter : s.frameAfter (bitsNum (bits.take 16)) (bits.take 16) (bits.drop 16) = (List.replicate (bits.length - 16) false, s.tetherAbort 6) := by
      refine (if_neg (fun h => h hplain)).trans ((if_pos (by rw [hnoCrc, hreq]; rfl)).trans ?_)
      rw [List.length_drop]
    have hframe := State.tetherFrame_long hhears hlong
    rw [hafter] at hframe
    obtain ⟨⟨hlast, hevent, -⟩, h⟩ :=
      State.abort_shifted (s := s) (reason := 6) (by decide) (numBits 16 (s.windowRead 1) ++ List.replicate (bits.length - 16) false)
    exact ⟨_, congrArg Host.Outcome.next hframe, hlast, hevent, h⟩
  · intro s n words crc hhears hsome hroom hgood
    have hexec := exec_crcCommit (crc := crc) hhears (words := words) n (by omega)
    rw [if_neg (fun h => h hgood)] at hexec
    obtain ⟨u, hu, hfld, htether, hkept, hrest⟩ := State.commitFrame_mailbox (s := s) words hsome hroom
    rw [hu] at hexec
    refine ⟨_, hexec, fun j hlow hhigh => hfld j.val hlow hhigh, congrArg TetherState.frames htether, hkept.of_regs rfl, ?_⟩
    rw [hrest, htether]
    rfl
  · intro s n words crc hhears hsome hfew hbad
    have hexec := exec_crcCommit (crc := crc) hhears (words := words) n (by omega)
    rw [if_pos hbad] at hexec
    obtain ⟨⟨hlast, hevent, -⟩, htether, hkept, hrest⟩ :=
      State.abort_shifted (s := s) (reason := 3) (by decide) (numBits 16 (s.windowRead 1) ++ List.replicate (crcBody words crc).length false)
    exact ⟨_, hexec, hlast, hevent, hkept, hrest.trans (by rw [htether])⟩
  · intro s reason hhears
    obtain ⟨hlast, hevent, hcount⟩ := State.aborted_tetherAbort (s := s) (reason := reason.val + 1) (by omega)
    exact ⟨_, congrArg Host.Outcome.next (if_pos hhears), hlast, hevent, hcount, State.tetherAbort_keepsRegs, State.tetherAbort_rest⟩
  · intro s i hhears
    exact ⟨_, congrArg Host.Outcome.next (State.tetherFrame_readCrc hhears i), State.windowClear_shifted _⟩
  · intro s bits hhears hlong hreserved
    have hafter : s.frameAfter (bitsNum (bits.take 16)) (bits.take 16) (bits.drop 16) = (List.replicate (bits.length - 16) false, s.tetherAbort 5) := by
      refine (if_pos hreserved).trans ?_
      rw [List.length_drop]
    have hframe := State.tetherFrame_long hhears hlong
    rw [hafter] at hframe
    obtain ⟨⟨hlast, hevent, -⟩, h⟩ :=
      State.abort_shifted (s := s) (reason := 5) (by decide) (numBits 16 (s.windowRead 1) ++ List.replicate (bits.length - 16) false)
    exact ⟨_, congrArg Host.Outcome.next hframe, hlast, hevent, h⟩
  · intro s n v extra hhears hcrc hsome hextra
    exact (State.tetherFrame_loose n v hhears hcrc hsome hextra).imp fun t ⟨ht, h⟩ => ⟨congrArg Host.Outcome.next ht, h⟩
  · intro s index crc words hhears hbad
    have hexec := exec_crcCommit_bad (crc := crc) hhears index (hbad.imp_left fun h => by rw [h]; rfl)
    obtain ⟨⟨hlast, hevent, -⟩, htether, hkept, hrest⟩ :=
      State.abort_shifted (s := s) (reason := 4) (by decide) (numBits 16 (s.windowRead 1) ++ List.replicate (crcBody words crc).length false)
    exact ⟨_, hexec, hlast, hevent, hkept, hrest.trans (by rw [htether])⟩
  · intro s bits index crc words reason hdeaf
    have hframe (l : List Bool) : s.tetherFrame l = s := if_pos (by rw [hdeaf]; rfl)
    exact ⟨s, congrArg Host.Outcome.next (hframe _), rfl, congrArg Host.Outcome.next (hframe _),
      congrArg Host.Outcome.next (if_neg (by rw [hdeaf]; decide))⟩

end Sys2Proof.Machine
end
